-- ==== Sys2Proof/Word.lean ====
section
/-!
DEFINITION. The word types of the VX-2448 and the sparse table type.

A register word is 32 bits (spec 00_scope, R5), a lane word 16 bits and a lane accumulator 40 bits
(spec 05, R169). A sparse table is a list of key and value pairs; its operations stand in Machine/Tab.lean.
-/

namespace Sys2Proof

/-- A register word of the device, bit 0 least significant (R5). -/
abbrev Word := BitVec 32

/-- A lane value register, a clasp slot, a lane state word (R169, R172, R199). -/
abbrev Lw := BitVec 16

/-- A lane accumulator (R169). -/
abbrev Acc := BitVec 40

/-- A sparse table: keys with values, everything unlisted holds the table's default. -/
abbrev Tab (α : Type) := List (Nat × α)

end Sys2Proof
end

