-- ==== Sys2Proof/Syntax.lean ====
section
/-!
DEFINITION. The commands of the VX-2448: one constructor of `Instr` for each row of
spec/opcode_table.json, with the operands the row's rules give it.

A row is an operation or an event at the block: a mailbox verb, a register write, a tick edge, a frame that
arrives, a time that passes. What comes from an external standard (a signature's validity, a decrypted
message) enters as an operand.
-/

namespace Sys2Proof

/-- A control half (R11). -/
inductive Half | A | B
  deriving DecidableEq, Repr

/-- Where a mailbox command came from: the half and ring that received it, its CTAG and its HALF byte (R504). -/
structure Org where
  half : Half
  ring : Nat
  ctag : Nat
  hb : Nat
  deriving DecidableEq, Repr

/-- The memories that are scrubbed or verified (R151, R158): the point store, program or firmware memory and the rest of a half's DRAM, its flash, the MRAM of the
islands and of Locket; lane SRAM and clasp. -/
inductive MemKind
  | points | program | dram | flash | islandMram | locketMram | sram
  deriving DecidableEq, Repr

/-- The memory is DRAM or SRAM (R153). -/
def MemKind.ram : MemKind → Bool
  | .points | .program | .dram | .sram => true
  | .flash | .islandMram | .locketMram => false

/-- Register blocks of the device: each commit block and each block of directly written registers. -/
inductive Blk
  | tck | mbx | twn | nlk | cln | pst | cnp | thm | veh | met | bil | lkt | saf | upd | iox
  | can | gpio | lsw | rms | pwr | loc
  deriving DecidableEq, Repr

/-- Who writes a register: BAR0 of the half (R499), the customer partition of the half (R42), a generic verb (R522). -/
inductive Writer | bar0 | part | verb
  deriving DecidableEq, Repr

/-- A point value by its type (R36): a scalar, a byte string or a chained record. -/
inductive PVal
  | int (v : Int)
  | bytes (b : List Nat)
  | chain (next : Nat) (b : List Nat)
  deriving DecidableEq, Repr

/-- A frame as its receiver sees it: a code violation in it, its blocks of 36 bytes, the offset in ns of its last symbol
from the receiver's tick edge. -/
structure RxFrame where
  cv : Bool
  blocks : List (List Nat)
  at_ : Nat
  deriving DecidableEq, Repr

/-- What a comparator reports of one check besides what it compares (R203): the lane, the spare, whether they agree; `false` stands for a
hardware fault of the lane, the spare or the comparator.
(DESIGN CHOICE, safe: log 118.) -/
structure ShadowResult where
  lane : Nat
  spare : Nat
  agree : Bool
  deriving DecidableEq, Repr

/-- COND of a lane instruction (R178): always, if predicate `p` is 1, if predicate `p` is 0. -/
inductive Cond
  | always
  | ifTrue (p : Fin 4)
  | ifFalse (p : Fin 4)
  deriving DecidableEq, Repr

/-- The memory operand of a lane instruction (R177): an absolute address, or pointer `x` with post-modify `post`
(0 none, 1 +1, 2 +2, 3 -1) and a signed offset. -/
inductive MemOp
  | abs (a : BitVec 16)
  | ptr (x : Fin 4) (post : Fin 4) (off : BitVec 12)
  deriving DecidableEq, Repr

/-- The result-line index of OUT (R180): immediate, or bits 5:0 of pointer `k`. -/
inductive OutIdx
  | imm (i : Fin 64)
  | ptr (k : Fin 4)
  deriving DecidableEq, Repr

/-- The condition code of CMP (R180). -/
inductive Cc | eq | ne | lt | le | gt | ge
  deriving DecidableEq, Repr

/-- The operation of PLOG (R180). -/
inductive Plop | and | or | xor | andNot
  deriving DecidableEq, Repr

/-- The lane that executes an instruction, and the instruction's COND. -/
structure LaneAt where
  half : Half
  lane : Fin 64
  cond : Cond
  deriving DecidableEq, Repr

/-- A lane instruction as its word gives it (R177, R180). -/
inductive LaneOp
  | nop | halt
  | rpt (n : Fin 4096) (len : Fin 1024)
  | rptv (s : Fin 32) (max : Fin 4096) (len : Fin 32)
  | movi (d : Fin 32) (imm : BitVec 16)
  | mov (d s : Fin 32)
  | add (d s t : Fin 32)
  | sub (d s t : Fin 32)
  | neg (d s : Fin 32)
  | abs (d s : Fin 32)
  | min (d s t : Fin 32)
  | max (d s t : Fin 32)
  | clmp (d s t : Fin 32)
  | shl (d s : Fin 32) (k : Fin 16)
  | shr (d s : Fin 32) (k : Fin 16)
  | and (d s t : Fin 32)
  | or (d s t : Fin 32)
  | xor (d s t : Fin 32)
  | sel (d s t : Fin 32) (k : Fin 4)
  | cmp (d : Fin 4) (s t : Fin 32) (cc : Cc)
  | plog (d s t : Fin 4) (op : Plop)
  | mul (d : Fin 4) (s t : Fin 32)
  | mac (d : Fin 4) (s t : Fin 32)
  | msu (d : Fin 4) (s t : Fin 32)
  | lda (d : Fin 4) (s : Fin 32)
  | adda (d s : Fin 4)
  | suba (d s : Fin 4)
  | mova (d s : Fin 4)
  | sha (d : Fin 4) (k : Fin 32)
  | amulv (d : Fin 4) (s : Fin 32)
  | str (d : Fin 32) (s : Fin 4) (n : Fin 16)
  | aclmp (d k : Fin 4) (s t : Fin 32)
  | ld (r : Fin 32) (m : MemOp)
  | st (m : MemOp) (r : Fin 32)
  | ldw (r : Fin 4) (m : MemOp)
  | stw (m : MemOp) (r : Fin 4)
  | ldx (r : Fin 4) (m : MemOp)
  | movx (d : Fin 4) (imm : BitVec 16)
  | addx (d : Fin 4) (imm : BitVec 16)
  | out (s : Fin 32) (i : OutIdx)
  deriving DecidableEq, Repr

/-- A physical value of a vehicle message: value and exponent of ten (R343). -/
structure Phys where
  v : Int
  e : Int
  deriving DecidableEq, Repr

/-- The vehicle's limits in a message (R352): target or maximum current, maximum current and power, maximum discharge current and power,
target and maximum voltage, and whether it asks to discharge. -/
structure VehLim where
  req : Phys
  imax : Phys
  pmax : Phys
  dis : Phys
  dpw : Phys
  vtgt : Phys
  vmax : Phys
  exp : Bool
  deriving DecidableEq, Repr

/-- What a vehicle message means to the session state machine (R343, R349-R354). The message formats are those of the standards R342 names.
(DESIGN CHOICE, safe: log 55.) -/
inductive VehMsg where
  /-- SupportedAppProtocol: the vehicle's entries as (protocol 1 ISO 15118-20, 2 ISO 15118-2, 3 DIN SPEC 70121; its priority, 1 first). -/
  | app (entries : List (Nat × Nat))
  /-- a TLS handshake starts. -/
  | tlsStart
  /-- it ends: completed with a suite and key of R349, or not; `key`: the Locket entry of the charger key. -/
  | tlsEnd (ok : Bool) (key : Nat)
  /-- SessionSetup. -/
  | setup (evccid : List Nat)
  /-- an authorization request: by contract (Plug & Charge) or external means; EMAID; the contract chain verifies and is within its validity. -/
  | authorize (pnc : Bool) (emaid : List Nat) (chainOk : Bool)
  /-- service selection: DC_BPT; Dynamic control mode. -/
  | service (bpt dynamic : Bool)
  /-- parameter discovery. -/
  | params (lim : VehLim)
  /-- a cable check request with the cable-check voltage. -/
  | cableCheck (v : Phys)
  /-- a precharge request with the vehicle's target voltage. -/
  | preCharge (v : Phys)
  /-- PowerDelivery start. -/
  | powerStart
  /-- the charge loop. -/
  | chargeLoop (lim : VehLim)
  /-- ISO 15118-20: the charge loop pauses, or goes on. -/
  | pause (on : Bool)
  /-- PowerDelivery stop, or the vehicle's stop. -/
  | stop
  /-- the vehicle reports a fault. -/
  | fault
  /-- a message the protocol does not allow here. -/
  | bad
  deriving DecidableEq, Repr

/-- The RMS values of one window of an intake (R381), mA and mV: phase currents, neutral, residual, residual with each phase inverted, the sum of the
phase currents, phase voltages. -/
structure IntakeRms where
  i1 : Nat
  i2 : Nat
  i3 : Nat
  n : Nat
  r : Nat
  r1 : Nat
  r2 : Nat
  r3 : Nat
  sum : Nat
  v1 : Nat
  v2 : Nat
  v3 : Nat
  deriving DecidableEq, Repr

/-- A command as fetched (R504): the 64 bytes of its descriptor and its bulk-in bytes. -/
structure Desc where
  bytes : List Nat
  bulk : List Nat
  deriving DecidableEq, Repr

/-- A mailbox datagram received (R508): the sender's address and UDP port, and its bytes from the 24-byte header on. -/
structure MbxDgram where
  ip : Nat
  port : Nat
  bytes : List Nat
  deriving DecidableEq, Repr

/-- A CAN frame (R548, R549): identifier in bits 28:0 (a standard one in bits 28:18), format bits, DLC, data; start of frame as tick and offset in 10 ns. -/
structure CanFrame where
  id : Nat
  ide : Bool
  fdf : Bool
  brs : Bool
  rtr : Bool
  esi : Bool
  dlc : Nat
  data : List Nat
  ofs : Nat
  deriving DecidableEq, Repr

/-- How a transmission attempt ends (R551, R552): sent, arbitration lost, or an error with its LEC code of R546. -/
inductive TxEnd | ok | arb | err (lec : Nat)
  deriving DecidableEq, Repr
/-- A half-slot as a mesh receiver sees it (R587): a blanked sample lies within its pulse positions; its four matched-filter outputs in mV. -/
structure HalfSlot where
  blanked : Bool
  outs : List Nat
  deriving DecidableEq, Repr
/-- What wakes the device (R638). -/
inductive WakeSrc | doorbell | link (h : Half) (p : Nat) | mesh | button | tamper | feed
  deriving DecidableEq, Repr

/-- The commands the block takes, in the order of spec/opcode_table.json. -/
inductive Instr where
  /-- R3: a mailbox command with opcode `opc` that line 3 does not define. -/
  | undefinedOpcode (o : Org) (opc : Nat)
  /-- R8: a write of `v` to the register word at `off` of block `b` (half `h` for a block each half has). -/
  | registerWrite (w : Writer) (b : Blk) (h : Half) (off : Nat) (v : Word)
  /-- R58: the edge at which half `h` starts its next tick. -/
  | tickEdge (h : Half)
  /-- R17: a producer of half `h` writes staging entry `i`. -/
  | stagingWrite (h : Half) (i : Nat) (v : Int)
  /-- R19: entry `i` of half `h` has passed its maximum age at a bank swap. -/
  | stagingEntryStale (h : Half) (i : Nat)
  /-- R21: offset 46 us of half `h`; `reaches`: the snapshot can reach the other half by the edge (R27). -/
  | commitSnapshot (h : Half) (reaches : Bool)
  /-- R31: offset 48 us of half `h`; `made`: the snapshot is complete in time (R78). -/
  | snapshotPublish (h : Half) (made : Bool)
  /-- R37: subsystem `owner` writes value `v` to the point at `idx` in the half in charge. -/
  | pointOwnerWrite (idx : Nat) (owner : Nat) (typ : Nat) (v : PVal)
  /-- R37: half `h` applies the oldest mirrored write sent to it. -/
  | mirrorCopyReceived (h : Half)
  /-- R37: half `h` receives the acknowledgment of its oldest unacknowledged copy. -/
  | mirrorAck (h : Half)
  /-- R40: the flash restore of the point at `idx` of half `h` finishes. -/
  | pointRestoreComplete (h : Half) (idx : Nat)
  /-- R44: a memory-protection violation (`stall` false) or stall exception in core 3 of half `h`. -/
  | partitionFault (h : Half) (stall : Bool)
  /-- R44: the 100 ms watchdog of the partition of half `h` expires. -/
  | partitionWatchdogExpiry (h : Half)
  /-- R54, R57: a Sync of domain `dom` from the selected master gives half `h` the filtered offset `theta` in ns; `conv`: FREQ has converged (R81). -/
  | ptpSyncReceived (h : Half) (dom : Nat) (theta : Int) (conv : Bool)
  /-- R56: the 16 s revision of FREQ of half `h` gives `f`. -/
  | freqUpdate (h : Half) (f : Int)
  /-- R59, R521: SYS_TIME_STEP of `ns` nanoseconds. -/
  | sysTimeStep (o : Org) (ns : Int)
  /-- R59: with AUTO_STEP 1 half `h` makes its waiting automatic step. -/
  | autoTimeStep (h : Half)
  /-- R62: no Sync for the time of R62 at half `h`. -/
  | holdoverEntry (h : Half)
  /-- R62: the error estimate of half `h` has passed its next threshold. -/
  | timeUncertain (h : Half)
  /-- R61: the 1 s rewrite of the RTC by half `h`. -/
  | rtcRewrite (h : Half)
  /-- R61: `secs` seconds of waiting have passed at half `h` without a master. -/
  | startWaitExpiry (h : Half) (secs : Nat)
  /-- R61: half `h` selects a master during start-up; PTP gives tick `n`. -/
  | ptpMasterSelectedAtStart (h : Half) (n : Nat)
  /-- R66: no reference edge for 120 ns at half `h`. -/
  | lossOfReference (h : Half)
  /-- R66: phase error above 5 ns on 16 cycles at half `h`. -/
  | lossOfLock (h : Half)
  /-- R68: the 10 ms lock retry of half `h`. -/
  | pllLockRetry (h : Half)
  /-- R65: a PLL has locked: 0 core, 1 tick, 2 DRAM of half `h`; 3 the shared I/O domain. -/
  | pllLockComplete (h : Half) (pll : Nat)
  /-- R70: half `h` leaves its bypass clock at a tick edge. -/
  | bypassExit (h : Half)
  /-- R71: half `h` relocked with no half in tick service; `n` is the tick PTP gives where a master is selected. -/
  | restartWithoutService (h : Half) (n : Nat)
  /-- R64: the shared I/O domain PLL takes the reference that runs. -/
  | sharedPllReferenceChange
  /-- R72: half `h`, not in charge, measures `ns` of skew; `trim` is the RATE it trims to. -/
  | skewMeasure (h : Half) (ns : Int) (trim : Int)
  /-- R76: offset 20 us of half `h`. -/
  | ingestDeadline (h : Half)
  /-- R149: offset 20 us of half `h`; `sentMap`: the other half's ingest map arrives. -/
  | ingestMapExchange (h : Half) (sentMap : Bool)
  /-- R77: port `p` of half `h` has lacked common acceptance for 3 ticks. -/
  | uplinkAcceptanceLoss (h : Half) (p : Nat)
  /-- R52: offset 40 us of half `h`; `ready`: the solution for T+1 is complete. -/
  | allocationLatch (h : Half) (ready : Bool)
  /-- R205: port `p` of half `h` builds and sends its main downlink tick frame; `onTime`: its latest start was met (R78). -/
  | downlinkDispatch (h : Half) (p : Nat) (onTime : Bool)
  /-- R87: the receiver of port `p` of half `h` has seen that many commas, each followed by valid characters. -/
  | lineSyncGained (h : Half) (p commas : Nat)
  /-- R87: code violations within 64 characters and characters since the last comma. -/
  | lineSyncLost (h : Half) (p cvs chars : Nat)
  /-- R88: 8 ticks in sync. -/
  | measureEntry (h : Half) (p : Nat)
  /-- R89: the port starts the marker of the next edge. -/
  | tickMarkerSend (h : Half) (p : Nat)
  /-- R90: offset 48 us: the port sends a delay probe. -/
  | dprSend (h : Half) (p : Nat)
  /-- R91: a delay echo with round trip `rtt` ns and TA `ta` ns. -/
  | decReceived (h : Half) (p : Nat) (rtt ta : Nat)
  /-- R91: the per-tick move of the delay in force. -/
  | delaySlew (h : Half) (p : Nat)
  /-- R113: a frame of TYPE 0x43 that carries HELLO arrives. -/
  | helloReceived (h : Half) (p : Nat) (f : RxFrame)
  /-- R113: the remote acknowledges JOIN. -/
  | joinAcknowledged (h : Half) (p : Nat)
  /-- R121: an uplink tick frame arrives at port `p` of half `h`. -/
  | uplinkTickFrame (h : Half) (p : Nat) (f : RxFrame)
  /-- R115: an asynchronous frame with a segment of a message arrives. -/
  | asyncSegmentReceived (h : Half) (p : Nat) (f : RxFrame)
  /-- R117: the receiver of TYPE `ty` acknowledges. -/
  | asyncAckSend (h : Half) (p ty : Nat)
  /-- R117: a frame of TYPE 0x4F with an acknowledgment arrives. -/
  | asyncAckReceived (h : Half) (p : Nat) (f : RxFrame)
  /-- R117: segment `seg` of the message under way of TYPE `ty` is 40 ticks unacknowledged. -/
  | segmentResendTimeout (h : Half) (p ty seg : Nat)
  /-- R116: the port starts its next asynchronous frame; `room` is how many blocks still fit the window of R102. -/
  | asyncFrameSend (h : Half) (p room : Nat)
  /-- R118: the oldest complete tunnel message of port `p` of half `h` reaches the session stack. -/
  | tunnelMessageReceived (h : Half) (p : Nat)
  /-- R120: half `h` stores the oldest complete bulk log message of port `p`. -/
  | bulkLogReceived (h : Half) (p : Nat)
  /-- R114: half `h` sends TIME on every port in SERVICE. -/
  | timeMessageSend (h : Half)
  /-- R105: a downlink tick frame arrives at the remote of port `p` on side `d`. -/
  | remoteDownlinkTickFrame (p : Nat) (d : Half) (f : RxFrame)
  /-- R105: offset 49 us at the remote of port `p`. -/
  | remoteSelection49us (p : Nat)
  /-- R105: the tick edge of the remote of port `p`; `below5` names the contactors whose current sample is below 5 A (R108). -/
  | remoteTickEdge (p below5 : Nat) (v : Int)
  /-- R92: the markers of the coming edge that reached the remote of port `p`: the SEQ on side A and on side B. -/
  | remoteTickMarker (p : Nat) (a b : Option Nat)
  /-- R108: 500 ticks after edge L at the remote of port `p`. -/
  | linkLostForceOpen (p : Nat)
  /-- R113: the remote of port `p` sends HELLO on side `d`. -/
  | remoteHelloSend (p : Nat) (d : Half)
  /-- R131: half `h` asks the referee for a raise; `early`: by offset 40 us (R130). -/
  | refereeRequest (h : Half) (early : Bool)
  /-- R130: the effective edge of the request of half `h`. -/
  | refereeGrant (h : Half)
  /-- R132: the referee finds a cause to release the holder's token. -/
  | tokenRelease
  /-- R132: the alive signal of the holder is missing at 2 consecutive edges. -/
  | aliveSignalMissing
  /-- R132: edge H of a named relinquish. -/
  | handoverEdge
  /-- R140: offset 40 us: half `h` sends its heartbeat. -/
  | twinHeartbeatSend (h : Half)
  /-- R140: half `h` receives the other half's heartbeat, valid or not. -/
  | twinHeartbeatReceived (h : Half) (valid : Bool)
  /-- R140: 2 ticks without a valid heartbeat at half `h`. -/
  | twinLinkDead (h : Half)
  /-- R141: the relayed snapshots for half `h` have arrived complete. -/
  | relayedSnapshotReceived (h : Half)
  /-- R142: the referee compares the port counts reported in one tick. -/
  | portCountTakeover
  /-- R143: the preferred half has had clean health for RETURN_S. -/
  | cleanHealthReturn
  /-- R521: TWN_HANDOVER naming half `t` (1 A, 2 B). -/
  | twnHandover (o : Org) (t : Nat)
  /-- R144: the giving half receives HANDOVER_REQ of the half named. -/
  | handoverReq
  /-- R144: the giving half sends the data-plane state. -/
  | handoverStateSend
  /-- R144: the taking half has acknowledged; the giving half relinquishes naming H. -/
  | handoverStateAck
  /-- R144: 200 ms since the request without step 3's acknowledgment. -/
  | handoverTimeout
  /-- R146: half `h` starts its rejoin. -/
  | rejoinStart (h : Half)
  /-- R146: half `h` takes the start path; `n` is the tick PTP gives where a master is selected. -/
  | startPath (h : Half) (n : Nat)
  /-- R203: the comparators of half `h` at the end of COMPUTE: what each shadow check finds. -/
  | shadowCompare (h : Half) (rs : List ShadowResult)
  /-- R150: the other half's digests reach half `h`. -/
  | digestCompare (h : Half)
  /-- R151, R158: the scrubber of half `h` reads the block at `addr` of a memory, or an access to lane SRAM or clasp finds it wrong:
      `res` 0 clean, 1 corrected, 2 uncorrectable. -/
  | scrubBlock (h : Half) (addr : Nat) (kind : MemKind) (res : Nat)
  /-- R153: the 100 ms decay of half `h`. -/
  | penaltyDecay (h : Half)
  /-- R153: the end of a 1 s window of half `h`. -/
  | healthWindowEnd (h : Half)
  /-- R154: 100 ms after half `h` became UNHEALTHY. -/
  | unhealthyResetTimeout (h : Half)
  /-- R521: TWN_RELEASE of half `t` (1 A, 2 B). -/
  | twnRelease (o : Org) (t : Nat)
  /-- R155: feed `f` (A or B) out of range for 50 us, now at `v` units of 20 mV. -/
  | feedLost (f : Half) (v : Nat)
  /-- R155: feed `f` within range for 100 ms, now at `v` units of 20 mV. -/
  | feedOk (f : Half) (v : Nat)
  /-- R155: reverse current on feed `f`. -/
  | feedReverseCurrent (f : Half)
  /-- R155: the 24 h ORing test of feed `f` with its result. -/
  | oringTest (f : Half) (fail : Bool)
  /-- R165: ARM of TWN_PERT_CTL of half `h`, written by the command of `o` with the word `v`. -/
  | pertArm (o : Org) (h : Half) (v : Word)
  /-- R163: the perturbation of half `h` ends. -/
  | pertEnd (h : Half)
  /-- R164: CLAIM_LOSS acts at half `h`. -/
  | claimLossRelinquish (h : Half)
  /-- R157: half `h` resets. -/
  | halfReset (h : Half)
  /-- R167: cycle 8,000 of half `h`: its enabled working lanes and its spares start. -/
  | laneRunStart (h : Half)
  /-- R196: lane `l` of half `h` has not retired HALT by its budget's end. -/
  | laneOverrun (h : Half) (l : Nat)
  /-- R180: the lane instructions, each executed by the lane named. In RPT and RPTV the counts are held less 1. -/
  | nop (w : LaneAt)
  | halt (w : LaneAt)
  | rpt (w : LaneAt) (n : Fin 4096) (len : Fin 1024)
  | rptv (w : LaneAt) (vs : Fin 32) (max : Fin 4096) (len : Fin 32)
  | movi (w : LaneAt) (d : Fin 32) (imm : BitVec 16)
  | mov (w : LaneAt) (d vs : Fin 32)
  | add (w : LaneAt) (d vs vt : Fin 32)
  | sub (w : LaneAt) (d vs vt : Fin 32)
  | neg (w : LaneAt) (d vs : Fin 32)
  | abs (w : LaneAt) (d vs : Fin 32)
  | min (w : LaneAt) (d vs vt : Fin 32)
  | max (w : LaneAt) (d vs vt : Fin 32)
  | clmp (w : LaneAt) (d vs vt : Fin 32)
  | shl (w : LaneAt) (d vs : Fin 32) (k : Fin 16)
  | shr (w : LaneAt) (d vs : Fin 32) (k : Fin 16)
  | and (w : LaneAt) (d vs vt : Fin 32)
  | or (w : LaneAt) (d vs vt : Fin 32)
  | xor (w : LaneAt) (d vs vt : Fin 32)
  | sel (w : LaneAt) (d vs vt : Fin 32) (k : Fin 4)
  | cmp (w : LaneAt) (d : Fin 4) (vs vt : Fin 32) (cc : Cc)
  | plog (w : LaneAt) (d ps pt : Fin 4) (op : Plop)
  | mul (w : LaneAt) (d : Fin 4) (vs vt : Fin 32)
  | mac (w : LaneAt) (d : Fin 4) (vs vt : Fin 32)
  | msu (w : LaneAt) (d : Fin 4) (vs vt : Fin 32)
  | lda (w : LaneAt) (d : Fin 4) (vs : Fin 32)
  | adda (w : LaneAt) (d as_ : Fin 4)
  | suba (w : LaneAt) (d as_ : Fin 4)
  | mova (w : LaneAt) (d as_ : Fin 4)
  | sha (w : LaneAt) (d : Fin 4) (k : Fin 32)
  | amulv (w : LaneAt) (d : Fin 4) (vs : Fin 32)
  | str (w : LaneAt) (d : Fin 32) (as_ : Fin 4) (n : Fin 16)
  | aclmp (w : LaneAt) (d k : Fin 4) (vs vt : Fin 32)
  | ld (w : LaneAt) (r : Fin 32) (m : MemOp)
  | st (w : LaneAt) (m : MemOp) (r : Fin 32)
  | ldw (w : LaneAt) (r : Fin 4) (m : MemOp)
  | stw (w : LaneAt) (m : MemOp) (r : Fin 4)
  | ldx (w : LaneAt) (r : Fin 4) (m : MemOp)
  | movx (w : LaneAt) (d : Fin 4) (imm : BitVec 16)
  | addx (w : LaneAt) (d : Fin 4) (imm : BitVec 16)
  | out (w : LaneAt) (vs : Fin 32) (i : OutIdx)
  /-- R199: cycles 14,400 to 14,407 of half `h`. -/
  | claspDrain (h : Half)
  /-- R183: CLN_STORE of an image of bytes `img`. -/
  | clnStore (o : Org) (img : List Nat)
  /-- R187: CLN_FREE. -/
  | clnFree (o : Org) (base : Nat)
  /-- R210: CLN_LIST. -/
  | clnList (o : Org)
  /-- R222: CLN_SETPOINT. -/
  | clnSetpoint (o : Org) (lane blk : Nat) (target : Int)
  /-- R225: CLN_MODE. -/
  | clnMode (o : Org) (lane blk : Nat) (auto sptrack : Bool)
  /-- R223: CLN_MANUAL. -/
  | clnManual (o : Org) (lane blk : Nat) (target : Int)
  /-- R230: CLN_INJECT with the fields of R234. -/
  | clnInject (o : Org) (lane blk ctl period amp seed f0 f1 dur : Nat)
  /-- R228: the injection of a block of half `h` has ended. -/
  | injectionEnd (h : Half) (lane blk : Nat)
  /-- R232: CLN_CAP_ARM with the fields of R234. -/
  | clnCapArm (o : Org) (lane blk buf nch trig rows pre decim ttick : Nat) (slots : List Nat)
  /-- R232: the trigger of an armed buffer of half `h` occurs. -/
  | captureTrigger (h : Half) (buf : Nat)
  /-- R233: CLN_CAP_READ. -/
  | clnCapRead (o : Org) (buf first count : Nat)
  /-- R252: group `g` of cabinet `c` at half `h` has been probed for 4 ticks. -/
  | probeComplete (h : Half) (c g : Nat)
  /-- R257: a phase's sum in the window reaches HIC_N. -/
  | hiccupTrip (h : Half) (c g : Nat)
  /-- R257: the hiccup window of the group ends. -/
  | hiccupWindowEnd (h : Half) (c g : Nat)
  /-- R250: HIC_OFF x 10 ticks after the trip. -/
  | hiccupWaitEnd (h : Half) (c g : Nat)
  /-- R250: the soft-start value has reached the group target. -/
  | startComplete (h : Half) (c g : Nat)
  /-- R258: 20,000 ticks in RUN or SLEEP without a trip. -/
  | retriesReset (h : Half) (c g : Nat)
  /-- R259: the group detects a load step. -/
  | loadStepDetected (h : Half) (c g : Nat)
  /-- R259: the hold-off counter reaches 0. -/
  | holdOffEnd (h : Half) (c g : Nat)
  /-- R255: the group adds a phase. -/
  | phaseAddStart (h : Half) (c g : Nat)
  /-- R255: the group sheds a phase. -/
  | phaseShedStart (h : Half) (c g : Nat)
  /-- R256: the group enters burst. -/
  | burstEntry (h : Half) (c g : Nat)
  /-- R256: the group leaves burst. -/
  | burstExit (h : Half) (c g : Nat)
  /-- R274: PST_CLEAR of the groups of `mask` of cabinet `c`. -/
  | pstClear (o : Org) (c mask : Nat)
  /-- R240: the cabinet remote of port `p` acts on the command it has applied. -/
  | cabinetCommandApply (p : Nat)
  /-- R246: the cabinet remote of port `p` steps its dither register. -/
  | ditherStep (p : Nat)
  /-- R298: the planner runs. -/
  | plannerRun
  /-- R299: the change of output `k` has drained, as half `h` sees it. -/
  | drainComplete (h : Half) (k : Nat)
  /-- R299: DRAIN_T has passed. -/
  | drainTimeout (h : Half) (k : Nat)
  /-- R299: the poles to open show open. -/
  | polesOpened (h : Half) (k : Nat)
  /-- R300: a pole has not opened within FB_T. -/
  | poleOpenTimeout (h : Half) (k : Nat)
  /-- R299: the poles to close show closed. -/
  | polesClosed (h : Half) (k : Nat)
  /-- R300: a pole has not closed within FB_T. -/
  | poleCloseTimeout (h : Half) (k : Nat)
  /-- R299: the joining groups have matched. -/
  | matchPass (h : Half) (k : Nat)
  /-- R300: MATCH has not passed within MATCH_T. -/
  | matchTimeout (h : Half) (k : Nat)
  /-- R300: the remote of cabinet `c` is lost during the change of output `k`. -/
  | changeCabinetLost (h : Half) (k c : Nat)
  /-- R300: feedback shows pole `g` of contactor `n` open without a command. -/
  | uncommandedPoleOpen (h : Half) (n g : Nat)
  /-- R308: CNP_ASSIGN of the groups of `mask` to output `k`. -/
  | cnpAssign (o : Org) (k mask : Nat)
  /-- R308: CNP_UNPIN. -/
  | cnpUnpin (o : Org) (k : Nat)
  /-- R308: CNP_POLE_CLEAR of contactor `n`. -/
  | cnpPoleClear (o : Org) (n mask : Nat)
  /-- R311: the update of half `h` in a tick that is a multiple of 20. -/
  | thermalUpdate (h : Half)
  /-- R311: the half in charge sends its ceilings; `arrives`: by 40 us. -/
  | ceilingSend (arrives : Bool)
  /-- R311: offset 44 us: half `h` stages the ceilings. -/
  | ceilingStage (h : Half)
  /-- R319: the prediction data of model `m` of half `h` is complete. -/
  | predictionDataComplete (h : Half) (m : Nat)
  /-- R320: model `m` of half `h` is initialized. -/
  | modelInit (h : Half) (m : Nat)
  /-- R321: sensor `k` of model `m` has been plausible for 1,000 updates. -/
  | sensorRecovered (h : Half) (m k : Nat)
  /-- R322: pin sensor `k` becomes suspect. -/
  | sensorSuspect (h : Half) (m k : Nat)
  /-- R322: pin sensor `k` stops being suspect. -/
  | sensorSuspectCleared (h : Half) (m k : Nat)
  /-- R324: the coolant has been back in range for 1,000 updates. -/
  | coolantRangeCleared (h : Half) (m : Nat)
  /-- R326: half `h` estimates Tj: the model's hottest node in 0.01 degC, the power monitors in 10 mW. -/
  | tjEstimate (h : Half) (node : Int) (powers : List Nat)
  /-- R326: the 100 ms reset of the hottest node to the hottest diode. -/
  | tjDiodeReset (h : Half) (diode : Int)
  /-- R327: 1 s below the threshold less 3 K. -/
  | throttleExit (h : Half)
  /-- R329: the 1 s update of the derate bound. -/
  | derateUpdate (h : Half)
  /-- R330: the drain of the safe stop is over; `pkg` is the package sensor. -/
  | thermalPowerDown (pkg : Int)
  /-- R330: Tj has reached 130 degC, or the half doing the stop is lost. -/
  | thermalEmergencyPowerDown (pkg : Int)
  /-- R332: the package sensor has read below 95 degC for 60 s; it reads `pkg`. -/
  | thermalRestart (pkg : Int)
  /-- R340: THM_RELEASE. -/
  | thmRelease (o : Org)
  /-- R340: THM_SHUTDOWN_READ. -/
  | thmShutdownRead (o : Org) (first count : Nat)
  /-- R333: Tj has been within the resume range for 1 s. -/
  | flashWriteResume (h : Half)
  /-- R334: a reading of the thermistor in 0.01 degC. -/
  | bntcSample (t : Int)
  /-- R351: what the dispenser samples of output `k` show. -/
  | pilotStateChange (k : Nat)
  /-- R347: SLAC sounds of RunID `run` at output `k`, each the attenuations of its groups in dB. -/
  | slacMessage (k run : Nat) (sounds : List (List Nat))
  /-- R347: the match of RunID `run` at output `k`. -/
  | slacMatch (k run : Nat)
  /-- R351: a vehicle message at output `k`. -/
  | vehicleMessage (k : Nat) (m : VehMsg)
  /-- R351: a state limit of output `k`, or (`seq`) the sequence timeout of the protocol in use, has expired. -/
  | sessionStateTimeout (k : Nat) (seq : Bool)
  /-- R354: a stop cause of another subsystem at output `k`, by its code of R356. -/
  | sessionStop (k cause : Nat)
  /-- R351: the current of output `k` has fallen, or 25 ms have passed. -/
  | stoppingComplete (k : Nat)
  /-- R351: V_OUT of output `k` is below 60 V, or 2 s have passed. -/
  | weldCheckComplete (k : Nat)
  /-- R354: 2 s since the vehicle was told to stop. -/
  | vehicleStopGraceExpiry (k : Nat)
  /-- R354: COOLANT_RANGE has lasted 60 s. -/
  | coolantSessionTimeout (k : Nat)
  /-- R353: 44 us of a tick; `arrives`: the set reached the other half by 40 us. -/
  | vehicleLimitsStage (arrives : Bool)
  /-- R346: the stack sends a DCMD for output `k` with AT `ahead` ticks on. -/
  | dcmdSend (k ahead : Nat)
  /-- R346: the remote of output `k` applies the oldest DCMD it has. -/
  | dcmdApply (k : Nat)
  /-- R357: Locket reports the traffic keys of output `k`'s session orphaned. -/
  | sessionKeyOrphaned (k : Nat)
  /-- R355: half `h` takes charge unplanned. -/
  | sessionFailoverResume (h : Half)
  /-- R355: the other half acknowledges the mirror of output `k`'s session. -/
  | sessionMirrorAck (k : Nat)
  /-- R359: VEH_AUTH. -/
  | vehAuth (o : Org) (k flags num : Nat)
  /-- R359: VEH_STOP. -/
  | vehStop (o : Org) (k num : Nat)
  /-- R359: VEH_LIST. -/
  | vehList (o : Org) (add kind : Nat) (id : List Nat)
  /-- R359: VEH_STATUS. -/
  | vehStatus (o : Org) (k : Nat)
  /-- R366: 30 us: the island closes the sample of output `k` on the metering frames that the halves forwarded. -/
  | meteringSampleClose (k : Nat)
  /-- R374: a block of 16 raw samples of the seven channels of intake `i`. -/
  | acBlock (i : Nat) (raw : List (List Int))
  /-- R376: the comparison of source `src` with path 2's increments. -/
  | dualIntegrationCompare (src : Nat) (inc2 : List Nat)
  /-- R378: pulse stage `n` may emit. -/
  | pulseEmit (n : Nat)
  /-- R379: pulse stage `n` may emit a test pulse. -/
  | testPulseOutput (n : Nat)
  /-- R380: the two references agree within 0.05 %, or not. -/
  | adcReferenceCheck (ok : Bool)
  /-- R380: the CRC-32 of the sealed set agrees, or not. -/
  | sealedParameterCheck (ok : Bool)
  /-- R380: the SHA-256 of the island firmware agrees, or not. -/
  | islandFirmwareCheck (ok : Bool)
  /-- R380: the metrology processor's watchdog expires. -/
  | islandWatchdogExpiry
  /-- R381: the RMS window of intake `i`. -/
  | intakeSupervision (i : Nat) (r : IntakeRms)
  /-- R382: the island passes to battery operation; `s4`: on entry to S4 with a feed present. -/
  | batteryOperationEntry (s4 : Bool)
  /-- R382: VBAT falls below 2.7 V (`lowV`), or BATT_H passes. -/
  | batteryOperationEnd (lowV : Bool)
  /-- R383: the levels of TAMP0 to TAMP3. -/
  | tamperSample (levels : Nat)
  /-- R394: MET_INST. -/
  | metInst (o : Org) (src : Nat)
  /-- R394: MET_LOG_READ. -/
  | metLogRead (o : Org) (log first count : Nat)
  /-- R394: MET_BATT_READ. -/
  | metBattRead (o : Org) (i : Nat)
  /-- R405: the edge of a demand boundary of intake `i`. -/
  | demandIntervalClose (i : Nat)
  /-- R406: local time reaches CLOSE. -/
  | billingPeriodClose
  /-- R406: BIL_CLOSE. -/
  | bilClose (o : Org)
  /-- R408: ACT_UTC of the passive tariff. -/
  | tariffActivation
  /-- R404: a switch point. -/
  | rateSwitch
  /-- R411: the edge of a save. -/
  | billingSave
  /-- R411: both feeds are LOST, or (`low`) VHOLD is below 6.5 V. -/
  | powerFailSave (low : Bool)
  /-- R412: the island starts: the CRCs of its two banks verify or not; a valid time is there or not. -/
  | billingRestore (ok0 ok1 time : Bool)
  /-- R409: tick service is back after a gap. -/
  | billingGapCatchup
  /-- R414: the first valid time. -/
  | timeValidRestored
  /-- R415: the session of output `k` has closed; `sigs`: the signatures of R416. -/
  | lomvorRecord (k : Nat) (sigs : List Nat)
  /-- R419: DWELL seconds of an item. -/
  | displayDwell
  /-- R419: key A. -/
  | keyA
  /-- R420: key B. -/
  | keyB
  /-- R420: key C. -/
  | keyC
  /-- R419: key D. -/
  | keyD
  /-- R422: the island keypad's entry for output `out` is complete: its twenty digits; its MAC verifies (R421). -/
  | tokenEntry (out : Nat) (d : List Nat)
  /-- R422: a KEYPAD message at half `h` from port `p`. -/
  | keypad (h : Half) (p : Nat)
  /-- R420: 60 s of an entry. -/
  | tokenEntryTimeout
  /-- R422: the lockout of keypad `src` (an output, or 0x80) ends. -/
  | keypadLockoutEnd (src : Nat)
  /-- R424: the credit report of output `k`. -/
  | creditReport (k : Nat)
  /-- R426: BIL_READ. -/
  | bilRead (o : Org) (src q : Nat)
  /-- R403: BIL_TARIFF_LOAD. -/
  | bilTariffLoad (o : Org) (obj : List Nat)
  /-- R426: BIL_TARIFF_READ. -/
  | bilTariffRead (o : Org) (which : Nat)
  /-- R426: BIL_PERIOD_READ. -/
  | bilPeriodRead (o : Org) (n : Nat)
  /-- R426: BIL_INTERVAL_READ. -/
  | bilIntervalRead (o : Org) (i : Nat) (first : Int) (count : Nat)
  /-- R426: BIL_RECORD_READ. -/
  | bilRecordRead (o : Org) (n : Nat)
  /-- R426: BIL_LEDGER_READ. -/
  | bilLedgerRead (o : Org) (first count : Nat)
  /-- R293: the billing engine stages the demand cap of intake point `i`. -/
  | demandCapStage (i : Nat)
  /-- R438: LKT_GENERATE: TXTAG, ATTR (32 bytes). -/
  | lktGenerate (o : Org) (tx : Nat) (attr : List Nat)
  /-- R438: LKT_IMPORT: the unwrapping key; the wrapped material. -/
  | lktImport (o : Org) (tx : Nat) (attr : List Nat) (key : Nat) (wrapped : List Nat)
  /-- R438: LKT_DERIVE: the caller's info. -/
  | lktDerive (o : Org) (tx : Nat) (attr info : List Nat)
  /-- R438: LKT_AGREE: method 1 ECDH, 2 ML-KEM; the shared secret that the engine finds. -/
  | lktAgree (o : Org) (tx : Nat) (attr : List Nat) (method : Nat) (z : List Nat)
  /-- R445: LKT_INVALIDATE. -/
  | lktInvalidate (o : Org) (tx handle : Nat)
  /-- R460: LKT_INFO: a handle, or bit 31 set with an index. -/
  | lktInfo (o : Org) (handle : Nat)
  /-- R460: LKT_PUBLIC; `pub` is the public key of a private entry, as the engine computes it. -/
  | lktPublic (o : Org) (handle : Nat) (pub : List Nat)
  /-- R440: LKT_PAIR; `z`: the x-coordinate that ECDH with the remote's public key gives. -/
  | lktPair (o : Org) (tx kind port rid : Nat) (z : List Nat)
  /-- R442: LKT_ROLL; the material of the new link key. -/
  | lktRoll (o : Org) (tx port : Nat)
  /-- R442: AT - 20 of the roll on port `p`. -/
  | keyrollAckDeadline (p : Nat)
  /-- R442: AT of the roll on port `p`. -/
  | keyrollSwitch (p : Nat)
  /-- R442: AT + 100 of the roll on port `p`. -/
  | keyrollRetire (p : Nat)
  /-- R453: LKT_ATTEST: the nonce and the subject; the hash of a private subject's public key and the signatures, in the order of the statements, come from the
  engines. -/
  | lktAttest (o : Org) (nonce : List Nat) (subject : Nat) (pubhash sigs : List Nat)
  /-- R460: LKT_OP; `long`: its input goes on past this tick; IV and data; what the ECC and PQC engines, or a hash without a key, yield. -/
  | lktOp (o : Org) (handle op subject : Nat) (long : Bool) (iv data given : List Nat)
  /-- R452: LKT_TXQUERY. -/
  | lktTxquery (o : Org) (tx : Nat)
  /-- R445: the cutoff edge of an invalidation. -/
  | invalidationCutoff (handle : Nat)
  /-- R446: an operation of the command `o` reaches a 4 KiB boundary. -/
  | orphanedOperationAbort (o : Org)
  /-- R447: the sweep. -/
  | locketSweep
  /-- R451: Locket recovers at a start of the shared I/O domain. -/
  | journalRecovery
  /-- R431: the tag of an entry's MATERIAL fails. -/
  | materialTagFault (idx : Nat)
  /-- R470: both channels sample the pins SI0 to SI15, side A and side B. -/
  | safetyInputSample (a b : Nat)
  /-- R470: the filtered channels of pair `n` have been equal for longer than DISC_T. -/
  | safetyDiscrepancy (n : Nat)
  /-- R464: the 1 ms comparison: something differs; `pdus` the connections whose next PDU differs. -/
  | channelCompare (differ : Bool) (pdus : List Nat)
  /-- R462: each channel checks its copy of the configuration. -/
  | safetyConfigCrcCheck (sp hw : Bool)
  /-- R465: an internal reset of the safety island. -/
  | islandInternalReset
  /-- R471: the readback of a switch of pair `n`: low side or high side, passed or not. -/
  | safetyTestPulse (n : Nat) (low pass : Bool)
  /-- R473: FBK `n`, or the feedback of pole `g` of contactor `n`, has changed. -/
  | contactorFeedbackChange (n : Nat) (g : Option Nat) (isOpen : Bool)
  /-- R473: FBK_T after a command of pair `n`, or of pole `g` of contactor `n`. -/
  | feedbackTimeout (n : Nat) (g : Option Nat)
  /-- R468: a demand on zone `z`. -/
  | zoneDemand (z : Nat)
  /-- R474: an output of zone `z` has been above the envelope on 2 ticks. -/
  | envelopeViolation (z : Nat)
  /-- R475: the outputs and cabinets of zone `z` are below 5 A. -/
  | energyRemoval (z : Nat)
  /-- R475: T_STOP has passed since the decision. -/
  | safeStopTimeout (z : Nat)
  /-- R476: the dispenser of output `k` does not report STO_ACTIVE. -/
  | stoTimeout (k : Nat)
  /-- R477: the press of a reset source is released: 0 to 15 a pair, 0x100 + n connection n. -/
  | resetPulse (src : Nat)
  /-- R477: a reset source has been pressed for more than 30 s. -/
  | resetJammed (src : Nat)
  /-- R478: a reset acts on zone `z`, or AUTO_START does. -/
  | zoneReset (z : Nat)
  /-- R469: 20 us of the tick. -/
  | safetyStateDelivery
  /-- R481: connection `n` takes a PDU: on Ethernet `b`, with its CRC; on the other carriers what they received. -/
  | harvitorPduReceived (n : Nat) (b : List Nat)
  /-- R482: connection `n` times out. -/
  | harvitorTimeout (n : Nat)
  /-- R483: the downlink PDUs of the tick. -/
  | harvitorDownlinkBuild (delivered : Bool)
  /-- R485: CYCLE ms on connection `n`. -/
  | harvitorCycleSend (n : Nat)
  /-- R496: SAF_STOP. -/
  | safStop (o : Org) (mask : Nat)
  /-- R496: SAF_FAULT_CLEAR. -/
  | safFaultClear (o : Org) (mask : Nat)
  /-- R496: SAF_LOG_READ. -/
  | safLogRead (o : Org) (first count : Nat)
  /-- R500: host software writes SQ_TAIL of ring `n` of half `h`. -/
  | sqTailDoorbell (h : Half) (n v : Nat)
  /-- R501, R504: half `h` fetches the next command of ring `n`: its descriptor and bulk data. -/
  | commandFetch (h : Half) (n : Nat) (d : Desc)
  /-- R515: 100 ms have passed for a command that waits for a half in charge. -/
  | forwardWaitTimeout (o : Org)
  /-- R506: half `h` writes the next completion that its ring has room for. -/
  | completionWrite (h : Half)
  /-- R500: host software writes CQ_HEAD (EV_HEAD) of ring `n` of half `h`. -/
  | cqHeadWrite (h : Half) (n v : Nat)
  /-- R502: COAL_US of ring `n` of half `h` has passed. -/
  | msixCoalesceTimeout (h : Half) (n : Nat)
  /-- R503: a DMA access of ring `n` of half `h` ended with an error. -/
  | ringDmaFault (h : Half) (n : Nat)
  /-- R503: EN of ring `n` of half `h` is written. -/
  | ringEnableWrite (h : Half) (n : Nat) (en : Bool)
  /-- R508: a datagram for ring `n` of half `h` arrives. -/
  | mailboxDatagram (h : Half) (n : Nat) (d : MbxDgram)
  /-- R508: 50 ms have passed for the datagram `seq` that half `h` sent on ring `n`. -/
  | datagramResendTimeout (h : Half) (n seq : Nat)
  /-- R508: IDLE_S without a datagram on ring `n` of half `h`. -/
  | bindingIdleExpiry (h : Half) (n : Nat)
  /-- R521: SYS_INFO; `module` is the module identity. -/
  | sysInfo (o : Org)
  /-- R511: SYS_SESSION_OPEN. -/
  | sysSessionOpen (o : Org) (role hnonce : Nat)
  /-- R511: SYS_SESSION_PROVE with the 16 bytes of PROOF. -/
  | sysSessionProve (o : Org) (sid : Nat) (proof : List Nat)
  /-- R513: SYS_SESSION_CLOSE. -/
  | sysSessionClose (o : Org)
  /-- R511: 10 s since the OPEN on ring `n` of half `h`. -/
  | sessionOpenLapse (h : Half) (n : Nat)
  /-- R513: IDLE_S without a command on ring `n` of half `h`. -/
  | sessionIdleExpiry (h : Half) (n : Nat)
  /-- R511: the refusal of a role at half `h` has lasted 60 s. -/
  | roleLockoutEnd (h : Half) (role : Nat)
  /-- R522: CFG_READ of `count` words of block `b` (class 0x0F block 1: CAN_ and GPIO_ under `can`). -/
  | cfgRead (o : Org) (b : Blk) (off count : Nat)
  /-- R522: CFG_SHADOW_READ. -/
  | cfgShadowRead (o : Org) (b : Blk) (off count : Nat)
  /-- R522: CFG_WRITE. -/
  | cfgWrite (o : Org) (b : Blk) (off : Nat) (ws : List Word)
  /-- R522: CFG_COMMIT. -/
  | cfgCommit (o : Org) (b : Blk)
  /-- R522: CFG_DISCARD. -/
  | cfgDiscard (o : Org) (b : Blk)
  /-- R522: CNT_CLEAR. -/
  | cntClear (o : Org) (b : Blk) (off count : Nat)
  /-- R522: CFG_STATE. -/
  | cfgState (o : Org) (b : Blk)
  /-- R524: PNT_READ. -/
  | pntRead (o : Org) (id : Nat)
  /-- R524: PNT_READ_MULTI. -/
  | pntReadMulti (o : Org) (ids : List Nat)
  /-- R524: PNT_WRITE; `v` the 8 value bytes as a number. -/
  | pntWrite (o : Org) (id typ v : Nat)
  /-- R525: PNT_SUBSCRIBE. -/
  | pntSubscribe (o : Org) (ring period : Nat) (ids : List Nat)
  /-- R525: PNT_UNSUBSCRIBE. -/
  | pntUnsubscribe (o : Org) (subid : Nat)
  /-- R525: PERIOD ticks of subscription `subid` of half `h` have passed. -/
  | subscriptionDelivery (h : Half) (subid : Nat)
  /-- R527: half `h` delivers its oldest event record. -/
  | eventDelivery (h : Half)
  /-- R540: pin GPIO`p` takes a level. -/
  | gpioEdge (p : Nat) (level : Bool)
  /-- R539: half `h`'s partition writes GPIO SET. -/
  | gpioSet (h : Half) (mask : Nat)
  /-- R539: half `h`'s partition writes GPIO CLR. -/
  | gpioClr (h : Half) (mask : Nat)
  /-- R541: EN of timer `t` of half `h` is written 1, `ofs` counts of 10 ns after the tick edge. -/
  | timerEnable (h : Half) (t ofs : Nat)
  /-- R541: COUNT of timer `t` of half `h` reaches zero. -/
  | timerExpiry (h : Half) (t : Nat)
  /-- R536: SRC of half `h`'s wide-value mailbox is written; `answers`: the source answers within 2 us. -/
  | wideValueLatch (h : Half) (src : Nat) (answers : Bool)
  /-- R538: half `h` writes the alias of bit `b` of the register at `off` from 0x4100_0000 with operation `op`. -/
  | aliasWrite (h : Half) (b off op : Nat)
  /-- R535: a write of half `h` to the shared I/O domain reaches it without the token. -/
  | claimGatedWrite (h : Half)
  /-- R532: an access of core 3 of half `h` returns a bus error. -/
  | busError (h : Half)
  /-- R535: half `h` writes IOX_GATE_CNT. -/
  | gateCntClear (h : Half)
  /-- R548: half `h` writes REQ of transmit buffer `b` of controller `n`. -/
  | canTxRequest (h : Half) (n b : Nat)
  /-- R551: half `h` writes ABORT of transmit buffer `b` of controller `n`. -/
  | canTxAbort (h : Half) (n b : Nat)
  /-- R552: the attempt of controller `n` ends; TEC as ISO 11898-1 then has it. -/
  | canTxAttemptEnd (n : Nat) (e : TxEnd) (tec : Nat)
  /-- R553: controller `n` receives a frame; REC as ISO 11898-1 then has it. -/
  | canFrameReceived (n : Nat) (f : CanFrame) (rec_ : Nat)
  /-- R553: half `h` writes RELEASE of controller `n`. -/
  | canRxRelease (h : Half) (n : Nat)
  /-- R555: TEC of controller `n` has passed 255. -/
  | canBusOff (n : Nat)
  /-- R555: BOFF_REC of controller `n` is written by half `h`, or (`done`) its 128 recessive sequences have passed. -/
  | canBoffRecovery (h : Half) (n : Nat) (done : Bool)
  /-- R554: the error counters of controller `n` have crossed 127. -/
  | canErrorStateChange (n : Nat)
  /-- R556: half `h` writes START of ABR_CTL of controller `n`. -/
  | abrStart (h : Half) (n : Nat)
  /-- R556: half `h` writes STOP. -/
  | abrStop (h : Half) (n : Nat)
  /-- R556: the window of the candidate that controller `n` tries has passed. -/
  | abrWindowExpiry (n : Nat)
  /-- R556: two frames in a row without error. -/
  | abrFound (n : Nat)
  /-- R558: the frame in the receive buffer of controller `n` is a limits frame of record `r`. -/
  | exchangeLimitsFrame (n r : Nat)
  /-- R559: a period edge of record `r`. -/
  | exchangeSetpointPeriod (r : Nat)
  /-- R559: TXB1 of controller `n` is done. -/
  | exchangeTxb1Next (n : Nat)
  /-- R567: half `h` writes LSW_CTL of channel `c` with EN 1 and MODE `mode`. -/
  | lswEnable (h : Half) (c mode : Nat)
  /-- R567: half `h` writes EN 0 to channel `c`. -/
  | lswDisable (h : Half) (c : Nat)
  /-- R567: half `h` writes CLR to channel `c`. -/
  | lswClr (h : Half) (c : Nat)
  /-- R569: TINR of channel `c` has passed since it entered INRUSH; its current in mA. -/
  | lswInrushEnd (c cur : Nat)
  /-- R567: channel `c` has been in RETRY_WAIT for 10 ms. -/
  | lswRetryWaitEnd (c : Nat)
  /-- R568: channel `c` has been held at its limit for 200 us; its current in mA. -/
  | lswLimitTimeout (c cur : Nat)
  /-- R567: the junction of channel `c` has reached 170 C (`hot`) or cooled to 150 C. -/
  | lswThermal (c : Nat) (hot : Bool)
  /-- R565: the supply of group `g` has stayed below 10.5 V for 1 ms. -/
  | lswGroupUndervoltage (g : Nat)
  /-- R565: the supply of group `g` has stayed above 11.5 V for 10 ms. -/
  | lswGroupUvRecovery (g : Nat)
  /-- R566: 100 ms have passed; the average of the last second in mA. -/
  | lswTotalOverload (avg : Nat)
  /-- R570: the current of channel `c` has stayed below OL_TH (`low`) or at or above it for 100 ms. -/
  | lswOpenLoad (c : Nat) (low : Bool)
  /-- R571: a tick edge of the sense pins. -/
  | lswSenseStep
  /-- R572: 44 us of a tick. -/
  | lswSlotDutyWrite
  /-- R572: a PWM period of channel `c` starts. -/
  | lswPwmPeriod (c : Nat)
  /-- R573: the millisecond's sample of group `g`: supply in 10 mV; the mean current in mA and LIMITING of each of its channels. -/
  | lswVfSample (g vsup : Nat) (curs : List Nat) (limiting : List Bool)
  /-- R584: a predicted crossing of mesh port `n`: the offset of its ZC edge in us if one came, the frequency in 0.01 Hz, whether the driver reached its
  limit, the sixteen half-slots received. -/
  | zeroCrossing (n : Nat) (edge : Option Int) (hz : Nat) (limited : Bool) (rx : List HalfSlot)
  /-- R584: 4 crossings without an accepted edge. -/
  | zcLost (n : Nat)
  /-- R584: 16 accepted edges in a row. -/
  | zcRecovered (n : Nat)
  /-- R594: the response of the last crossing is judged. -/
  | meshCellResponse (n : Nat)
  /-- R594: the resends of hop `hop` (0 the root's) are used. -/
  | meshFrameAbandon (n hop : Nat)
  /-- R592: a whole frame has been received at the root. -/
  | meshFrameReceived (n : Nat)
  /-- R595: a relay holds all cells of the frame. -/
  | meshRelayForward (n : Nat)
  /-- R595: a BEACON of port `n` is due. -/
  | beacon (n : Nat)
  /-- R593: the root polls node `m`. -/
  | poll (n m : Nat)
  /-- R589: a LINKREP of a node is taken, or the root forms its own report of neighbour `nbr` with its margins. -/
  | linkrep (n : Nat) (own : Option (Nat × List Nat))
  /-- R590: the change crossing of link `tx` to `rx`. -/
  | mapset (n tx rx : Nat)
  /-- R590: 20 crossings before it. -/
  | mapsetAckDeadline (n tx rx : Nat)
  /-- R597: the relays of node `m` record its route. -/
  | assign (n m : Nat)
  /-- R596: the root recomputes the route of node `m`. -/
  | routeCompute (n m : Nat)
  /-- R595: the exchange has lasted its time. -/
  | meshExchangeTimeout (n : Nat)
  /-- R599: the Harvitor exchange of port `n` is complete. -/
  | meshHarvitorExchange (n : Nat)
  /-- R603: half `h` writes REQ. -/
  | rmsTxRequest (h : Half)
  /-- R604: half `h` writes RELEASE. -/
  | rmsRxRelease (h : Half)
  /-- R607: the boot of `part` verifies the image of `stage`; `digest`: the SHA-384 of an image whose bytes the model does not hold (ROM, partition, manufacture). -/
  | bootStage (part stage : Nat) (ok : Bool) (digest : List Nat)
  /-- R608: at boot a bank is chosen; `k` 0 and 1 the firmware of half A and B, 2 and 3 the islands, 4 and 5 the loaders of half A and B. -/
  | bootBankSelect (k : Nat)
  /-- R611, R625: UPD_BEGIN with a header block; whether each of its signatures verifies. -/
  | updBegin (o : Org) (hdr : List Nat) (ecOk pqOk : Bool)
  /-- R611, R625: UPD_DATA. -/
  | updData (o : Org) (off : Nat) (data : List Nat)
  /-- R611, R625: UPD_END with forwarding mask `mask`; `fail`: the first failure a peer reports (0: none). -/
  | updEnd (o : Org) (mask fail : Nat)
  /-- R616, R625: UPD_ACTIVATE. -/
  | updActivate (o : Org) (part flags at_ : Nat)
  /-- R625: UPD_STATUS. -/
  | updStatus (o : Org)
  /-- R614, R625: UPD_REMOTE. -/
  | updRemote (o : Org) (target mask at_ : Nat)
  /-- R622, R625: UPD_RECOVER of half `t` (1 A, 2 B). -/
  | updRecover (o : Org) (t : Nat)
  /-- R614: UPDSTAT of the remote at port `p`. -/
  | updstat (p : Nat)
  /-- R614: AT - 20,000 of the remote at port `p`. -/
  | updactPreloss (p : Nat)
  /-- R614: edge AT of the remote at port `p`. -/
  | updact (p : Nat)
  /-- R617: the activation under way has run COMMIT_S seconds cleanly. -/
  | trialCommit
  /-- R618: 60 s without rejoin. -/
  | activationRejoinTimeout
  /-- R619: AT - 20,000. -/
  | singleHalfActivationDrain
  /-- R619: edge AT. -/
  | singleHalfActivationReset
  /-- R623: INFO to half `h`; MODULE. -/
  | recoveryInfo (h : Half) (seq : Nat)
  /-- R623: HEADER; whether each signature of a complete header verifies. -/
  | recoveryHeader (h : Half) (seq off : Nat) (data : List Nat) (ecOk pqOk : Bool)
  /-- R623: DATA. -/
  | recoveryData (h : Half) (seq off : Nat) (data : List Nat)
  /-- R623: FINISH. -/
  | recoveryFinish (h : Half) (seq : Nat)
  /-- R623: BOOT. -/
  | recoveryBoot (h : Half) (seq : Nat)
  /-- R627: the rail falls below 8.5 V. -/
  | vholdSwitchClose
  /-- R629: both feeds are LOST. -/
  | holdupStart
  /-- R629: VHOLD is at `v` x 100 mV, below 8.0 V. -/
  | holdupHalvesStop (v : Nat)
  /-- R629: VHOLD is at `v` x 100 mV, below 6.0 V. -/
  | holdupIslandsStop (v : Nat)
  /-- R630: a feed has been above 9.0 V for 1 ms. -/
  | holdupEnd
  /-- R632: a feed has been above 9.0 V for 10 ms. -/
  | moduleStart
  /-- R628: VHOLD is at `v` x 100 mV. -/
  | vholdCharged (v : Nat)
  /-- R634: a low pulse of `ns` nanoseconds on RESET_N. -/
  | resetN (ns : Nat)
  /-- R635: the service button is released after `ms`, `gap` ms after its release before. -/
  | svcBtnRelease (ms gap : Nat)
  /-- R635: the service button has been held for more than 30 s, `gap` ms after its release before. -/
  | svcBtnStuck (gap : Nat)
  /-- R637: half `h` writes TARGET. -/
  | powerStateRequest (h : Half) (target : Nat)
  /-- R638: a wake source acts. -/
  | wake (src : WakeSrc)
  /-- R638: the wake timer is looked at. -/
  | wakeTimerExpiry
  /-- R637: the time in S4 from VBAT is looked at. -/
  | s4BatteryToS5
  /-- R54, R400: a PTP announce message of domain `dom` at half `h`: currentUtcOffset and whether it is valid, whether a master is selected with it, its interval in ticks. -/
  | ptpAnnounceReceived (h : Half) (dom utcOffset : Nat) (valid selected : Bool) (ticks : Nat)
  /-- R110: the remote at port `p` powers up or resets. -/
  | remotePowerUpOrReset (p : Nat)
  /-- R158: the daily exercise of the referee. -/
  | refereeDailyExercise
  deriving DecidableEq, Repr

end Sys2Proof
end

