-- ==== Sys2Proof/Decode.lean ====
section
/-!
DEFINITION. The words of the lane instructions (R177, R178, R180) as the device checks and executes them, and the words the
opcode table gives the block's commands (none).
-/

namespace Sys2Proof

/-! ### Fields of a lane word -/

/-- The field of `n` bits from bit `lo` up. -/
def wf (w lo n : Nat) : Nat := w / 2 ^ lo % 2 ^ n

/-- A register number from a field. -/
def fin32 (n : Nat) : Fin 32 := Fin.ofNat 32 n
def fin4 (n : Nat) : Fin 4 := Fin.ofNat 4 n
def fin16 (n : Nat) : Fin 16 := Fin.ofNat 16 n

/-- COND, bits 31:28 (R178). -/
def condBits : Cond → Nat
  | .always => 0
  | .ifTrue p => 8 + p.val
  | .ifFalse p => 12 + p.val

/-- The COND that four bits give; bits 30:28 must be 0 where bit 31 is 0. -/
def condOf (n : Nat) : Option Cond :=
  if n = 0 then some .always
  else if n < 8 then none
  else if n < 12 then some (.ifTrue (fin4 (n - 8)))
  else if n < 16 then some (.ifFalse (fin4 (n - 12)))
  else none

/-- The three-register form (R177): d, s, t, f. -/
def form3 (op d s t f : Nat) : Nat := op * 2 ^ 22 + d * 2 ^ 17 + s * 2 ^ 12 + t * 2 ^ 7 + f

/-- Bits 16:0 of a memory form (R177). -/
def memBits : MemOp → Nat
  | .abs a => a.toNat
  | .ptr x post off => 2 ^ 16 + x.val * 2 ^ 14 + post.val * 2 ^ 12 + off.toNat

/-- The memory operand in bits 16:0. -/
def memOf (w : Nat) : MemOp :=
  if wf w 16 1 = 0 then .abs (BitVec.ofNat 16 (wf w 0 16))
  else .ptr (fin4 (wf w 14 2)) (fin4 (wf w 12 2)) (BitVec.ofNat 12 (wf w 0 12))

/-- Bits 2:0 of CMP. -/
def ccBits : Cc → Nat
  | .eq => 0
  | .ne => 1
  | .lt => 2
  | .le => 3
  | .gt => 4
  | .ge => 5

/-- The condition code of three bits; 0b110 and 0b111 are invalid. -/
def ccOf : Nat → Option Cc
  | 0 => some .eq
  | 1 => some .ne
  | 2 => some .lt
  | 3 => some .le
  | 4 => some .gt
  | 5 => some .ge
  | _ => none

/-- Bits 1:0 of PLOG. -/
def plopBits : Plop → Nat
  | .and => 0
  | .or => 1
  | .xor => 2
  | .andNot => 3

/-- The operation of two bits. -/
def plopOf : Nat → Plop
  | 0 => .and
  | 1 => .or
  | 2 => .xor
  | _ => .andNot

/-- t and f of OUT (R180). -/
def outBits : OutIdx → Nat
  | .imm i => i.val
  | .ptr k => 2 ^ 11 + k.val * 2 ^ 7

/-- The index of OUT in bits 11:0, where every unused bit is 0. -/
def outOf (w : Nat) : Option OutIdx :=
  if wf w 11 1 = 0 then (if wf w 6 5 = 0 then some (.imm (Fin.ofNat 64 (wf w 0 6))) else none)
  else if wf w 9 2 = 0 ∧ wf w 0 7 = 0 then some (.ptr (fin4 (wf w 7 2))) else none

/-- Bits 27:0 of a lane instruction (R177, R180). -/
def opBits : LaneOp → Nat
  | .nop => form3 0x00 0 0 0 0
  | .halt => form3 0x01 0 0 0 0
  | .rpt n len => 0x02 * 2 ^ 22 + n.val * 2 ^ 10 + len.val
  | .rptv s max len => 0x03 * 2 ^ 22 + s.val * 2 ^ 17 + max.val * 2 ^ 5 + len.val
  | .movi d imm => 0x04 * 2 ^ 22 + d.val * 2 ^ 17 + imm.toNat
  | .mov d s => form3 0x05 d.val s.val 0 0
  | .add d s t => form3 0x06 d.val s.val t.val 0
  | .sub d s t => form3 0x07 d.val s.val t.val 0
  | .neg d s => form3 0x08 d.val s.val 0 0
  | .abs d s => form3 0x09 d.val s.val 0 0
  | .min d s t => form3 0x0A d.val s.val t.val 0
  | .max d s t => form3 0x0B d.val s.val t.val 0
  | .clmp d s t => form3 0x0C d.val s.val t.val 0
  | .shl d s k => form3 0x0D d.val s.val k.val 0
  | .shr d s k => form3 0x0E d.val s.val k.val 0
  | .and d s t => form3 0x0F d.val s.val t.val 0
  | .or d s t => form3 0x10 d.val s.val t.val 0
  | .xor d s t => form3 0x11 d.val s.val t.val 0
  | .sel d s t k => form3 0x12 d.val s.val t.val k.val
  | .cmp d s t cc => form3 0x13 d.val s.val t.val (ccBits cc)
  | .plog d s t op => form3 0x14 d.val s.val t.val (plopBits op)
  | .mul d s t => form3 0x18 d.val s.val t.val 0
  | .mac d s t => form3 0x19 d.val s.val t.val 0
  | .msu d s t => form3 0x1A d.val s.val t.val 0
  | .lda d s => form3 0x1B d.val s.val 0 0
  | .adda d s => form3 0x1C d.val s.val 0 0
  | .suba d s => form3 0x1D d.val s.val 0 0
  | .mova d s => form3 0x1E d.val s.val 0 0
  | .sha d k => form3 0x1F d.val 0 0 k.val
  | .amulv d s => form3 0x20 d.val s.val 0 0
  | .str d s n => form3 0x21 d.val s.val n.val 0
  | .aclmp d k s t => form3 0x22 d.val s.val t.val k.val
  | .ld r m => 0x28 * 2 ^ 22 + r.val * 2 ^ 17 + memBits m
  | .st m r => 0x29 * 2 ^ 22 + r.val * 2 ^ 17 + memBits m
  | .ldw r m => 0x2A * 2 ^ 22 + r.val * 2 ^ 17 + memBits m
  | .stw m r => 0x2B * 2 ^ 22 + r.val * 2 ^ 17 + memBits m
  | .ldx r m => 0x2C * 2 ^ 22 + r.val * 2 ^ 17 + memBits m
  | .movx d imm => 0x2D * 2 ^ 22 + d.val * 2 ^ 17 + imm.toNat
  | .addx d imm => 0x2E * 2 ^ 22 + d.val * 2 ^ 17 + imm.toNat
  | .out s i => 0x2F * 2 ^ 22 + s.val * 2 ^ 12 + outBits i

/-- The word of a lane instruction (R177, R178). -/
def laneEncode (c : Cond) (op : LaneOp) : Nat := condBits c * 2 ^ 28 + opBits op

/-- HALT, RPT and RPTV must have COND 0b0000 (R178). -/
def alwaysOnly : LaneOp → Bool
  | .halt => true
  | .rpt _ _ => true
  | .rptv _ _ _ => true
  | _ => false

/-- A lane instruction that the device accepts: COND as R178 gives it, a repeat body of at least one word (R177). -/
def laneWf (c : Cond) (op : LaneOp) : Bool :=
  (!alwaysOnly op || c == .always) && (match op with | .rpt _ len => decide (0 < len.val) | _ => true)

/-- The operation in bits 27:0 of a word; none where the entry of R180 is reserved or an unused bit is not 0 (R177). -/
def opOf (w : Nat) : Option LaneOp :=
  let d := wf w 17 5
  let s := wf w 12 5
  let t := wf w 7 5
  let f := wf w 0 7
  let vvv (mk : Fin 32 → Fin 32 → Fin 32 → LaneOp) : Option LaneOp :=
    if f = 0 then some (mk (fin32 d) (fin32 s) (fin32 t)) else none
  let vv (mk : Fin 32 → Fin 32 → LaneOp) : Option LaneOp :=
    if t = 0 ∧ f = 0 then some (mk (fin32 d) (fin32 s)) else none
  let avv (mk : Fin 4 → Fin 32 → Fin 32 → LaneOp) : Option LaneOp :=
    if d < 4 ∧ f = 0 then some (mk (fin4 d) (fin32 s) (fin32 t)) else none
  let av (mk : Fin 4 → Fin 32 → LaneOp) : Option LaneOp :=
    if d < 4 ∧ t = 0 ∧ f = 0 then some (mk (fin4 d) (fin32 s)) else none
  let aa (mk : Fin 4 → Fin 4 → LaneOp) : Option LaneOp :=
    if d < 4 ∧ s < 4 ∧ t = 0 ∧ f = 0 then some (mk (fin4 d) (fin4 s)) else none
  match wf w 22 6 with
  | 0x00 => if wf w 0 22 = 0 then some .nop else none
  | 0x01 => if wf w 0 22 = 0 then some .halt else none
  | 0x02 => if wf w 0 10 = 0 then none else some (.rpt (Fin.ofNat 4096 (wf w 10 12)) (Fin.ofNat 1024 (wf w 0 10)))
  | 0x03 => some (.rptv (fin32 d) (Fin.ofNat 4096 (wf w 5 12)) (fin32 (wf w 0 5)))
  | 0x04 => if wf w 16 1 = 0 then some (.movi (fin32 d) (BitVec.ofNat 16 (wf w 0 16))) else none
  | 0x05 => vv .mov
  | 0x06 => vvv .add
  | 0x07 => vvv .sub
  | 0x08 => vv .neg
  | 0x09 => vv .abs
  | 0x0A => vvv .min
  | 0x0B => vvv .max
  | 0x0C => vvv .clmp
  | 0x0D => if t < 16 ∧ f = 0 then some (.shl (fin32 d) (fin32 s) (fin16 t)) else none
  | 0x0E => if t < 16 ∧ f = 0 then some (.shr (fin32 d) (fin32 s) (fin16 t)) else none
  | 0x0F => vvv .and
  | 0x10 => vvv .or
  | 0x11 => vvv .xor
  | 0x12 => if f < 4 then some (.sel (fin32 d) (fin32 s) (fin32 t) (fin4 f)) else none
  | 0x13 =>
    if d < 4 ∧ f < 8 then
      match ccOf f with
      | some cc => some (.cmp (fin4 d) (fin32 s) (fin32 t) cc)
      | none => none
    else none
  | 0x14 => if d < 4 ∧ s < 4 ∧ t < 4 ∧ f < 4 then some (.plog (fin4 d) (fin4 s) (fin4 t) (plopOf f)) else none
  | 0x18 => avv .mul
  | 0x19 => avv .mac
  | 0x1A => avv .msu
  | 0x1B => av .lda
  | 0x1C => aa .adda
  | 0x1D => aa .suba
  | 0x1E => aa .mova
  | 0x1F => if d < 4 ∧ s = 0 ∧ t = 0 ∧ f < 32 then some (.sha (fin4 d) (fin32 f)) else none
  | 0x20 => av .amulv
  | 0x21 => if s < 4 ∧ t < 16 ∧ f = 0 then some (.str (fin32 d) (fin4 s) (fin16 t)) else none
  | 0x22 => if d < 4 ∧ f < 4 then some (.aclmp (fin4 d) (fin4 f) (fin32 s) (fin32 t)) else none
  | 0x28 => some (.ld (fin32 d) (memOf w))
  | 0x29 => some (.st (memOf w) (fin32 d))
  | 0x2A => if d < 4 then some (.ldw (fin4 d) (memOf w)) else none
  | 0x2B => if d < 4 then some (.stw (memOf w) (fin4 d)) else none
  | 0x2C => if d < 4 then some (.ldx (fin4 d) (memOf w)) else none
  | 0x2D => if d < 4 ∧ wf w 16 1 = 0 then some (.movx (fin4 d) (BitVec.ofNat 16 (wf w 0 16))) else none
  | 0x2E => if d < 4 ∧ wf w 16 1 = 0 then some (.addx (fin4 d) (BitVec.ofNat 16 (wf w 0 16))) else none
  | 0x2F =>
    if d = 0 then
      match outOf w with
      | some i => some (.out (fin32 s) i)
      | none => none
    else none
  | _ => none

/-- The instruction of a lane word (R183, step 3); none: the word is refused. -/
def laneDecode (w : Nat) : Option (Cond × LaneOp) :=
  match condOf (wf w 28 4), opOf w with
  | some c, some op => if alwaysOnly op && c != .always then none else some (c, op)
  | _, _ => none

/-- The cycles of a lane instruction (R180). -/
def laneCycles : LaneOp → Nat
  | .amulv _ _ => 3
  | .ld _ _ => 2
  | .ldw _ _ => 2
  | .stw _ _ => 2
  | .ldx _ _ => 2
  | _ => 1

/-- The command a table word spells. The table gives no row of this block bits, so no word spells a command. -/
def decodeTableWord (_nbits _w : Nat) : Option Instr := none

end Sys2Proof
end

