-- ==== Sys2Proof/Machine/Tab.lean ====
section
/-!
DEFINITION. Sparse tables in canonical form: keys strictly rising, no entry equal to the default.

The register file, the point store, the program store, lane memory, buffers and every per-port or
per-output record of the model are such tables.
-/

namespace Sys2Proof.Machine

/-- What key `k` of table `t` holds; `d` is what an unlisted key holds. -/
def look {α : Type} (d : α) : Tab α → Nat → α
  | [], _ => d
  | (k, v) :: t, q => if k = q then v else look d t q

/-- The table without key `k`. -/
def del {α : Type} (t : Tab α) (k : Nat) : Tab α :=
  t.filter (fun e => decide (e.1 ≠ k))

/-- The table with `v` at key `k`, listed in key order. -/
def ins {α : Type} : Tab α → Nat → α → Tab α
  | [], k, v => [(k, v)]
  | (q, w) :: t, k, v =>
    if k < q then (k, v) :: (q, w) :: t
    else if k = q then (k, v) :: t
    else (q, w) :: ins t k v

/-- Write `v` at key `k`, keeping the canonical form: the default is not listed. -/
def put {α : Type} [DecidableEq α] (d : α) (t : Tab α) (k : Nat) (v : α) : Tab α :=
  if v = d then del t k else ins t k v

/-- Change the value at key `k` by `f`. -/
def upd {α : Type} [DecidableEq α] (d : α) (t : Tab α) (k : Nat) (f : α → α) : Tab α :=
  put d t k (f (look d t k))

/-- Every key of the table is above `n`, and the keys rise strictly. -/
def keysAbove {α : Type} : Nat → Tab α → Bool
  | _, [] => true
  | n, (k, _) :: t => decide (n < k) && keysAbove k t

/-- The keys of the table rise strictly. -/
def rising {α : Type} : Tab α → Bool
  | [] => true
  | (k, _) :: t => keysAbove k t

/-- No entry equals the default. -/
def noDefault {α : Type} [DecidableEq α] (d : α) (t : Tab α) : Bool :=
  t.all (fun e => decide (e.2 ≠ d))

/-- The canonical form of a table with default `d`. -/
def tabWf {α : Type} [DecidableEq α] (d : α) (t : Tab α) : Bool :=
  rising t && noDefault d t

end Sys2Proof.Machine
end

