-- ==== Sys2Proof/Machine/RegMap.lean ====
section
/-!
DEFINITION. The register maps: for every register word of every block its reset value and the bits of each access
code (R8), as the register tables of the chapters give them. A bit under no mask is RO or reserved (R7).
-/

namespace Sys2Proof.Machine

/-- One register word: whether the map has it, its reset value, and the bits of each access code of R8.
`cnt`: a counter that the counter-clear verb clears (R522). -/
structure RegInfo where
  present : Bool := true
  reset : Nat := 0
  rw : Nat := 0
  rws : Nat := 0
  rwl : Nat := 0
  w1c : Nat := 0
  wo : Nat := 0
  cnt : Bool := false
  deriving DecidableEq, Repr

/-- A word the map reserves: it reads as 0 and a write to it does nothing (R7). -/
def RegInfo.none : RegInfo := { present := false }

/-- A read-only word that resets to `r`. -/
def roInfo (r : Nat) : RegInfo := { reset := r }

/-- A 32-bit counter (R127, R162, R208 and their like). -/
def cntInfo : RegInfo := { cnt := true }

/-- The commit register (COMMIT and DISCARD are the device's own, R652) and the commit-tick register. -/
def commitInfo : RegInfo := { reset := 0 }

/-- TCK_ (R80-R82): commit register 0x20, commit-tick register 0x24. -/
def tckInfo (off : Nat) : RegInfo :=
  match off with
  | 0x00 => { reset := 0x40000A32, rws := 0xC0FFFFFF, rwl := 0x30000000 }
  | 0x08 => { w1c := 0x07C00000 }
  | 0x0C => roInfo 0
  | 0x10 => roInfo 0
  | 0x20 => commitInfo
  | 0x24 => commitInfo
  | _ => .none

/-- NLK_ (R122-R127): a block of 0x40 bytes per port; commit register 0x1400. -/
def nlkInfo (off : Nat) : RegInfo :=
  if off < 0x1400 then
    match off % 0x40 with
    | 0x00 => { reset := 0x44700000, rws := 0xFFF00000 }
    | 0x04 => { rws := 0xFFFFFFFF }
    | 0x08 => roInfo 0
    | 0x0C => roInfo 0
    | 0x10 => cntInfo
    | 0x14 => cntInfo
    | 0x18 => cntInfo
    | 0x1C => cntInfo
    | 0x20 => cntInfo
    | 0x24 => cntInfo
    | 0x28 => cntInfo
    | 0x2C => cntInfo
    | _ => .none
  else if off = 0x1400 ∨ off = 0x1404 then commitInfo
  else .none

/-- TWN_ (R152, R159-R164): commit register 0x80. -/
def twnInfo (h : Half) (off : Nat) : RegInfo :=
  match off with
  | 0x00 => { reset := 0x700AC000, rws := 0xFBFFFF00 }
  | 0x08 => roInfo (match h with | .A => 0 | .B => 0x10000)
  | 0x0C => roInfo 0x8000
  | 0x10 => roInfo 0x8000
  | 0x14 => roInfo 0
  | 0x18 => cntInfo
  | 0x1C => cntInfo
  | 0x20 => cntInfo
  | 0x24 => cntInfo
  | 0x28 => cntInfo
  | 0x40 => { reset := 0x00FF0000, rw := 0x38FFFFFF, wo := 0x80000000 }
  | 0x44 => { rw := 0x0000FFFF }
  | 0x80 => commitInfo
  | 0x84 => commitInfo
  | _ => .none
/-- CLN_ (R188-R191, R204, R207-R209): lane blocks, parameter blocks, dispatch maps; commit register 0x3_0000. -/
def clnInfo (off : Nat) : RegInfo :=
  if off < 0x20 * 60 then
    match off % 0x20 with
    | 0x00 => { rws := 0xC000FFFF }
    | 0x04 => { rws := 0x07FF007F }
    | 0x08 => roInfo 0
    | 0x0C => cntInfo
    | 0x10 => cntInfo
    | 0x14 => cntInfo
    | _ => .none
  else if 0x10000 ≤ off ∧ off < 0x10000 + 0x200 * 60 then { rws := 0xFFFFFFFF }
  else if 0x20000 ≤ off ∧ off < 0x20000 + 0x80 * 80 ∧ off % 0x80 < 0x70 then { reset := 0x0FFF0FFF, rws := 0x0FFF0FFF }
  else if off = 0x30000 ∨ off = 0x30004 then commitInfo
  else if off = 0x30008 then roInfo 0x10000
  else .none
/-- PST_ (R264-R273): records of 0x100 bytes per cabinet, PST_SITE 0x2000; commit register 0x2100. -/
def pstInfo (off : Nat) : RegInfo :=
  if off < 0x2000 then
    match off % 0x100 with
    | 0x00 => { reset := 4 * 2 ^ 19, rws := 0xBFFFFF00 }
    | 0x04 => { reset := 600 * 2 ^ 20 + 80 * 2 ^ 13 + 35 * 2 ^ 6 + 5, rws := 0xFFFFFFFF }
    | 0x08 => { reset := 0x0A140206, rws := 0xFFFFFFFF }
    | 0x0C => { reset := 0x08C80000 + 200 * 8 + 3, rws := 0xFFFFFFFF }
    | 0x10 => { reset := 0x10320000 + 40 * 16, rws := 0xFFFFFFF0 }
    | 0x20 => { rws := 0x0003FFFF }
    | 0x24 => { rws := 0x0003FFFF }
    | 0x28 => { rws := 0x0003FFFF }
    | 0x2C => { rws := 0x0003FFFF }
    | 0x30 => { rws := 0x803FFFFF }
    | 0x34 => { rws := 0x803FFFFF }
    | 0x38 => { rws := 0x803FFFFF }
    | 0x3C => { rws := 0x803FFFFF }
    | 0x40 => roInfo 0
    | 0x44 => roInfo 0
    | 0x48 => roInfo 0
    | 0x4C => roInfo 0
    | 0x50 => roInfo 0
    | 0x54 => roInfo 0
    | 0x58 => cntInfo
    | 0x5C => cntInfo
    | _ => .none
  else if off = 0x2000 then { reset := 0xACE1, rws := 0xF000FFFF }
  else if off = 0x2100 ∨ off = 0x2104 then commitInfo
  else .none
/-- CNP_ (R276, R279, R295, R303-R307): commit register 0x6000. -/
def cnpInfo (off : Nat) : RegInfo :=
  if off < 0x4000 then
    match off % 0x10 with
    | 0x0 => { rws := 0xE3FF00FF }
    | 0x4 => { rws := 0xFFFFFFFF }
    | 0x8 => { reset := 0xFFFFFFFF, rws := 0xFFFFFFFF }
    | _ => { rws := 0xFFFFFFFF }
  else if off < 0x4300 then
    match off % 0x10 with
    | 0x0 => { reset := 0x00017F00, rws := 0xF8FF7F00 }
    | 0x4 => { rws := 0xFFFFFFFF }
    | 0x8 => { reset := 500 * 2 ^ 16 + 7500, rws := 0xFFFFFFFF }
    | _ => { rws := 0xFFFFFFFF }
  else if 0x4400 ≤ off ∧ off < 0x4440 then
    match off % 0x10 with
    | 0x0 => { reset := 0x100, rws := 0x8000FF00 }
    | 0x4 => { rws := 0xFFFFFFFF }
    | _ => .none
  else if 0x4440 ≤ off ∧ off < 0x4480 then
    match off % 0x10 with
    | 0x0 => { rws := 0x80000000 }
    | 0x4 => { reset := 0xFFFFFFFF, rws := 0xFFFFFFFF }
    | _ => .none
  else if off = 0x4800 then { reset := 0xF0000096, rws := 0xF000FFFF }
  else if off = 0x4804 then { reset := 0x643CC819, rws := 0xFFFFFFFF }
  else if 0x5000 ≤ off ∧ off < 0x5800 then { rws := 0x8F1F003F }
  else if off = 0x6000 ∨ off = 0x6004 then commitInfo
  else if off = 0x6008 then roInfo 0
  else if 0x6100 ≤ off ∧ off < 0x61C0 then roInfo 0
  else .none
/-- THM_ (R335-R339): records of 0x100 bytes per model; commit register 0x4100. -/
def thmInfo (off : Nat) : RegInfo :=
  if off < 0x4000 then
    let o := off % 0x100
    if o = 0 then { reset := 0x003C0000, rws := 0xBFFF0000 }
    else if o = 0x98 then { reset := 0x41200000, rws := 0xFFFFFFFF }
    else if o = 0x9C then { reset := 0x40000000, rws := 0xFFFFFFFF }
    else if o = 0xA0 then { reset := 0x42200000, rws := 0xFFFFFFFF }
    else if o < 0xA4 then { rws := 0xFFFFFFFF }
    else if o = 0xC0 ∨ o = 0xC4 then roInfo 0
    else if o = 0xC8 ∨ o = 0xCC ∨ o = 0xD0 then cntInfo
    else .none
  else if off = 0x4000 then roInfo 0x00640000
  else if off = 0x4004 then { reset := 0x140A0000, rws := 0xFFFF0000 }
  else if off = 0x4008 then roInfo 0
  else if off = 0x4100 ∨ off = 0x4104 then commitInfo
  else .none
/-- VEH_ (R358): records of 0x10 bytes per output; commit register 0x400. -/
def vehInfo (off : Nat) : RegInfo :=
  if off < 0x300 then
    match off % 0x10 with
    | 0x0 => { reset := 0x1EC03C32, rws := 0xFFF0FFFF }
    | 0x4 => { reset := 2000 * 2 ^ 16 + 60 * 2 ^ 8, rws := 0xFFFFFF00 }
    | _ => .none
  else if off = 0x400 ∨ off = 0x404 then commitInfo
  else .none
/-- MET_ (R385-R393): commit register 0x900. -/
def metInfo (off : Nat) : RegInfo :=
  if off < 0x300 then
    match off % 0x10 with
    | 0x0 => { rws := 0x8FFF0FFF }
    | 0x4 => { reset := 250, rws := 0xFFFFFFFF }
    | 0x8 => { rws := 0xFFFFFFFF }
    | _ => .none
  else if 0x400 ≤ off ∧ off < 0x4E0 then
    match off % 0x10 with
    | 0x0 => { rws := 0x80000FFF }
    | 0x4 => { rws := 0xFFFFFFFF }
    | 0x8 => { rws := 0xFFFFFFFF }
    | _ => .none
  else if off = 0x500 ∨ off = 0x510 then { reset := 230 * 2 ^ 16 + 5000, rws := 0xFFFFFFFF }
  else if 0x600 ≤ off ∧ off < 0x640 then
    if off % 8 = 0 then { reset := 20 * 2 ^ 16, rws := 0xC0FFFFFF } else { reset := 1000, rws := 0xFFFFFFFF }
  else if off = 0x700 then { rws := 0xF }
  else if off = 0x704 then { reset := 72, rws := 0xFF }
  else if 0x800 ≤ off ∧ off < 0x8C8 then { w1c := 0x0000FF00 }
  else if off = 0x900 ∨ off = 0x904 then commitInfo
  else if 0xA00 ≤ off ∧ off < 0xD00 then cntInfo
  else .none
/-- BIL_ (R425): commit register 0x100. -/
def bilInfo (off : Nat) : RegInfo :=
  if off = 0 then { reset := 0x00050000, rws := 0xC0FF0000 }
  else if off = 0x100 ∨ off = 0x104 then commitInfo
  else .none
/-- LKT_ (R456-R459): commit register 0x100. -/
def lktInfo (off : Nat) : RegInfo :=
  match off with
  | 0x00 => { reset := 0x4000, rws := 0xFFFFFFFF }
  | 0x04 => { reset := 0x4001, rws := 0xFFFFFFFF }
  | 0x08 => { reset := 0xFFFFFFFF, rws := 0xFFFFFFFF }
  | 0x0C => { reset := 0xFFFFFFFF, rws := 0xFFFFFFFF }
  | 0x10 => { reset := 0xFFFFFFFF, rws := 0xFFFFFFFF }
  | 0x14 => { reset := 0xFFFFFFFF, rws := 0xFFFFFFFF }
  | 0x18 => { reset := 0xFFFFFFFF, rws := 0xFFFFFFFF }
  | 0x1C => { reset := 0xFFFFFFFF, rws := 0xFFFFFFFF }
  | 0x20 => { reset := 0xC0000000, rws := 0xE0000000 }
  | 0x100 => commitInfo
  | 0x104 => commitInfo
  | 0x108 => { w1c := 0x60000000 }
  | 0x10C => roInfo 0
  | _ => .none
/-- SAF_ (R488-R495): commit register 0xB00. -/
def safInfo (off : Nat) : RegInfo :=
  if off < 0x40 then { reset := 0x00030032, rws := 0xC0FFFFFF }
  else if off < 0x60 then { reset := 0x40001E0A, rws := 0xE0FFFFFF }
  else if off < 0x80 then .none
  else if off < 0x100 then
    if off % 0x10 = 0 then { reset := 0x40028000, rws := 0xFEFFF000 } else { rws := 0xFFFFFFFF }
  else if 0x200 ≤ off ∧ off < 0xA00 then
    match off % 0x10 with
    | 0x0 => { reset := 0x10000A00, rws := 0xF8FFFFFF }
    | 0x4 => { rws := 0xFFFFFFFF }
    | 0x8 => { reset := 30 * 2 ^ 16, rws := 0xFFFF0000 }
    | _ => { rws := 0xFFFFFFFF }
  else if off = 0xA00 then { reset := 50 * 2 ^ 16, rws := 0xFFFF0000 }
  else if off = 0xB00 ∨ off = 0xB04 then commitInfo
  else if off = 0xB08 then { w1c := 0x1FC00000 }
  else if 0xB10 ≤ off ∧ off < 0xB30 then roInfo 0x0A000000
  else if off = 0xB30 then roInfo 0
  else .none
/-- MBX_ (R503): common registers, then a block of 0x40 bytes per ring from 0x1000. -/
def mbxInfo (h : Half) (off : Nat) : RegInfo :=
  if 0x1000 ≤ off ∧ off < 0x2000 then
    let n := (off - 0x1000) / 0x40
    match off % 0x40 with
    | 0x00 => { reset := 0x20800100 + n * 0x4000 + (if n % 32 = 0 then 0xC0000000 else 0), rw := 0xE0FFFFFF }
    | 0x08 => { rw := 0xFFFFFFFF }
    | 0x0C => { rw := 0xFFFFFFFF }
    | 0x10 => { rw := 0xFFFFFFFF }
    | 0x14 => { rw := 0xFFFFFFFF }
    | 0x18 => { rw := 0x0000FFFF }
    | 0x1C => roInfo 0
    | 0x20 => { rw := 0x0000FFFF }
    | 0x24 => roInfo 0
    | 0x28 => { w1c := 0x04000000 }
    | 0x2C => { rw := 0xFFFFFFFF }
    | 0x30 => if 32 ≤ n then { reset := 0xFFFF0000, rw := 0xFFFF0003 } else .none
    | _ => .none
  else
    match off with
    | 0x00 => { reset := 0xC0010258, rw := 0xC007FFFF }
    | 0x04 => roInfo 0x80000000
    | 0x08 => { rw := 0xFFFFFFFF }
    | 0x0C => { reset := (match h with | .A => 0xC0A80002 | .B => 0xC0A80003), rw := 0xFFFFFFFF }
    | 0x10 => { reset := 0xFFFFFFFF, rw := 0xFFFFFFFF }
    | 0x14 => { reset := 0xFFFFFFFF, rw := 0xFFFFFFFF }
    | 0x18 => { reset := 0xFFFFFFFF, rw := 0xFFFFFFFF }
    | 0x1C => { reset := 0xFFFFFFFF, rw := 0xFFFFFFFF }
    | 0x20 => { reset := 0xFFFFFFFF, rw := 0xFFFFFFFF }
    | _ => .none
/-- IOX_ (R557, R560): records of 0x20 bytes from 0x100; commit register 0x200. -/
def ioxInfo (off : Nat) : RegInfo :=
  if off = 0 then { rws := 0xF }
  else if 0x100 ≤ off ∧ off < 0x200 then
    match off % 0x20 with
    | 0x00 => { rws := 0x0000FF83 }
    | 0x04 => { rws := 0x9FFFFFFF }
    | 0x08 => { rws := 0x01FF01FF }
    | 0x0C => { rws := 0xFFFFFFFF }
    | 0x10 => { rws := 0xFFFFFFFF }
    | 0x14 => { rws := 0xDFFFFFFF }
    | 0x18 => { rws := 0x000F01FF }
    | _ => { rws := 0xFFFFFFFF }
  else if off = 0x200 ∨ off = 0x204 then commitInfo
  else .none

/-- One CAN controller's 4 KiB (R544-R556). -/
def canInfo (off : Nat) : RegInfo :=
  let o := off % 0x1000
  if 0x4000 ≤ off then .none
  else if 0x100 ≤ o ∧ o < 0x1C0 then { rw := 0xFFFFFFFF }
  else if 0x240 ≤ o ∧ o < 0x280 then roInfo 0
  else if 0x300 ≤ o ∧ o < 0x400 then (if o % 8 = 0 then { rw := 0xDFFFFFFF } else { rw := 0x1FFFFFFF })
  else if 0x410 ≤ o ∧ o < 0x450 then { rw := 0xFFFFFFFF }
  else
    match o with
    | 0x000 => { reset := 0xA4100000, rw := 0xF4FFFF00, wo := 0x08000000 }
    | 0x004 => { reset := 0x009F0F1E, rw := 0xFFFFFFFE }
    | 0x008 => { reset := 0x079DC000, rw := 0xFFFFC000 }
    | 0x00C => { w1c := 0x06000000 }
    | 0x014 => { w1c := 0xFF }
    | 0x018 => { rw := 0xFF }
    | 0x020 => { rw := 0x07F80000, wo := 0xC0000000 }
    | 0x024 => { rw := 0x1FFFFFFF }
    | 0x030 => { rw := 0x07F80000, wo := 0xC0000000 }
    | 0x034 => { rw := 0x1FFFFFFF }
    | 0x040 => { rw := 0x07F80000, wo := 0xC0000000 }
    | 0x044 => { rw := 0x1FFFFFFF }
    | 0x200 => { wo := 0x40000000 }
    | 0x204 => roInfo 0
    | 0x208 => roInfo 0
    | 0x400 => { reset := 0x00000A00, rw := 0x0000FFFF, wo := 0xC0000000 }
    | 0x404 => roInfo 0
    | 0x500 => cntInfo
    | 0x504 => cntInfo
    | _ => .none

/-- GPIO_ (R539), from 0x4100_4000. -/
def gpioInfo (off : Nat) : RegInfo :=
  match off with
  | 0x00 => { rw := 0xFFFFFFFF }
  | 0x04 => { rw := 0xFFFFFFFF }
  | 0x08 => roInfo 0
  | 0x0C => { wo := 0xFFFFFFFF }
  | 0x10 => { wo := 0xFFFFFFFF }
  | 0x14 => { w1c := 0xFFFFFFFF }
  | 0x18 => { w1c := 0xFFFFFFFF }
  | 0x1C => { rw := 0xFFFFFFFF }
  | 0x20 => roInfo 0
  | _ => .none

/-- The own half's registers, from 0x4000_0000 (R535, R536, R541): timers, the wide-value mailbox, IOX_HSTAT and IOX_GATE_CNT. -/
def locInfo (off : Nat) : RegInfo :=
  if off < 0x40 then
    match off % 0x10 with
    | 0x0 => { rw := 0xE8000000, w1c := 0x10000000 }
    | 0x4 => { rw := 0xFFFFFFFF }
    | 0x8 => roInfo 0
    | _ => .none
  else
    match off with
    | 0x10000 => { rw := 0xFF }
    | 0x10004 => roInfo 0
    | 0x10008 => roInfo 0
    | 0x1000C => roInfo 0
    | 0x10010 => roInfo 0
    | 0x10100 => { reset := 0x00000000, w1c := 0x30000000 }
    | 0x10104 => roInfo 0
    | _ => .none
/-- LSW_ (R575-R580): channels of 0x20 bytes, groups of 0x10 bytes from 0x200, the module words. -/
def lswInfo (off : Nat) : RegInfo :=
  if off < 0x200 then
    match off % 0x20 with
    | 0x00 => { rw := 0xF80007FF, wo := 0x04000000 }
    | 0x04 => { reset := 0x50F0140A, rw := 0xFFFFFFFF }
    | 0x08 => { reset := 0x00C80000, rw := 0xFFFF7FFF }
    | 0x0C => { w1c := 0x0B000000 }
    | 0x10 => roInfo 0
    | 0x14 => cntInfo
    | _ => .none
  else if off < 0x240 then
    match off % 0x10 with
    | 0x0 => { reset := 0x00F00000, rw := 0xFFFF0000 }
    | 0x4 => roInfo 0
    | 0x8 => roInfo 0
    | _ => .none
  else
    match off with
    | 0x300 => { w1c := 0x80000000 }
    | 0x304 => { rw := 0x00007777 }
    | _ => .none
/-- RMS_ (R601-R605). -/
def rmsInfo (off : Nat) : RegInfo :=
  if off < 0x40 then
    match off % 0x20 with
    | 0x00 => { reset := 0x0012C285, rw := 0xFFFFFFFF }
    | 0x04 => { w1c := 0x60000000 }
    | 0x08 => cntInfo
    | 0x0C => cntInfo
    | 0x10 => cntInfo
    | 0x14 => cntInfo
    | _ => .none
  else if off = 0x100 then { rw := 0x0800FFFF, wo := 0x80000000 }
  else if 0x140 ≤ off ∧ off < 0x170 then { rw := 0xFFFFFFFF }
  else if off = 0x180 then { w1c := 0x10000000, wo := 0x40000000 }
  else if 0x1C0 ≤ off ∧ off < 0x1F0 then roInfo 0
  else if 0x404 ≤ off ∧ off < 0x7FC then { reset := 100, rw := 0xC000FFFF }
  else if 0x804 ≤ off ∧ off < 0xBFC then roInfo 0
  else if 0xC04 ≤ off ∧ off < 0xFFC then roInfo 0xBBBBBBBB
  else .none
/-- UPD_ (R624). -/
def updInfo (off : Nat) : RegInfo :=
  match off with
  | 0x00 => { reset := 600, rws := 0x0001FFFF }
  | 0x04 => { reset := 0xFFFFFFFF, rws := 0xFFFFFFFF }
  | 0x08 => { reset := 0xFFFFFFFF, rws := 0xFFFFFFFF }
  | 0x10 => { rws := 0xFFFFFFFF }
  | 0x14 => { rws := 0xFFFFFFFF }
  | 0x18 => { rws := 0xFFFFFFFF }
  | 0x1C => { rws := 0xFFFFFFFF }
  | 0x40 => commitInfo
  | 0x44 => commitInfo
  | _ => .none

/-- The power block (R156, R640-R642). -/
def pwrInfo (off : Nat) : RegInfo :=
  match off with
  | 0x00 => { w1c := 0x000000F8 }
  | 0x04 => { reset := 0x1C000000, rw := 0xFC00FFFF }
  | 0x08 => { w1c := 0x07000000 }
  | 0x0C => roInfo 0
  | _ => .none
/-- The register word at `off` of block `b` (of half `h` where each half has one). -/
def regInfo (b : Blk) (h : Half) (off : Nat) : RegInfo :=
  match b with
  | .tck => tckInfo off
  | .nlk => nlkInfo off
  | .twn => twnInfo h off
  | .cln => clnInfo off
  | .pst => pstInfo off
  | .cnp => cnpInfo off
  | .thm => thmInfo off
  | .veh => vehInfo off
  | .met => metInfo off
  | .bil => bilInfo off
  | .saf => safInfo off
  | .lkt => lktInfo off
  | .iox => ioxInfo off
  | .can => canInfo off
  | .gpio => gpioInfo off
  | .loc => locInfo off
  | .lsw => lswInfo off
  | .rms => rmsInfo off
  | .pwr => pwrInfo off
  | .upd => updInfo off
  | .mbx => mbxInfo h off

end Sys2Proof.Machine
end

