-- ==== Sys2Proof/Config.lean ====
section
/-!
DEFINITION. What an implementation fixes and the values the spec leaves open.

Each constant below has no body: nothing in Lean can evaluate it, so a claim about it holds for every value.
-/

namespace Sys2Proof

/-- A value the spec leaves open, drawn by number: the state's counter `free` says how many were drawn.
(DESIGN CHOICE, safe: log 5.) -/
opaque Config.freeNat : Nat → Nat

/-- RID of the remote at a port (R112); its maker and integrator fix it, FWVER and CAPS.
(DESIGN CHOICE, safe: log 21.) -/
opaque Config.remoteIdent : Nat → Nat

/-- FWVER of the remote at a port.
(DESIGN CHOICE, safe: log 21.) -/
opaque Config.remoteFwver : Nat → Nat

/-- CAPS of the remote at a port.
(DESIGN CHOICE, safe: log 21.) -/
opaque Config.remoteCaps : Nat → Nat

/-- The storage key of Locket, which the shared I/O domain derives from its physical unclonable function (R431).
(DESIGN CHOICE, unsafe: log 110.) -/
opaque Config.storageKey : List Nat

/-- The store signature of a lane that runs a library or sequencer program, from the state the program keeps (R202, R212): the layout of its
private state words is not given.
(DESIGN CHOICE, safe: log 116.) -/
opaque Config.libWsig : List Int → BitVec 32

/-- The prediction data of a cable model (R317): parameters of the model, flow band, prediction point 1-16, pin 2 or 3, entry (0-7 the
pin row of the transition matrix, 8 and 9 the responses to T_IN and T_AMB, 10 the response K to unit current), as a binary32 pattern. The
spec defines the quantities and not how they are rounded.
(DESIGN CHOICE, safe: log 34.) -/
opaque Config.thermPred : List Nat → Nat → Nat → Nat → Nat → Nat

end Sys2Proof
end

