-- ==== Sys2Proof/Machine/State.lean ====
section
/-!
DEFINITION. The state of the VX-2448 as plain data: every register, queue, buffer, counter, mode and store the spec
gives the device, in one structure per chapter; `State.reset` is the device as its power comes up.

A structure's field defaults are its reset values: what the spec states for reset, or the value the assumption log
names (notes/assumptions/3.md). Registers that host software or the customer partition reads stand in the
register file `regs`; their reset values stand in Machine/RegMap.lean.
-/

namespace Sys2Proof.Machine

/-- Why the machine stops with a fault. No command of this block stops the block: whatever a command finds, the
spec gives the effect or the refusal status. There is no constructor, which is safe: nothing can end in a fault. -/
inductive Fault
  deriving DecidableEq, Repr

/-- Why a command has no meaning. Only `exec` answers with it, for a row without a meaning; that is safe. -/
inductive Refusal
  | notModelled (mnemonic : String)
  deriving DecidableEq, Repr

/-! ### Staging, points, commits and the customer partition (spec 01) -/

/-- One staging entry of one half (R17-R19). `pend` is the receiving bank's write. -/
structure StageE where
  val : Int := 0
  stamp : Nat := 0
  written : Bool := false
  stale : Bool := true
  pend : Option Int := none
  pendStamp : Nat := 0
  deriving DecidableEq, Repr

/-- A slot of the point store that holds a point (R36). The class and ID follow from the index (R33, R34). -/
structure Slot where
  typ : Nat
  valid : Bool := true
  stale : Bool := false
  subst : Bool := false
  mirrorPending : Bool := false
  restoring : Bool := false
  owner : Nat := 0
  stamp : Nat := 0
  wseq : Nat := 0
  rd : Nat := 0
  wr : Nat := 0
  val : PVal
  deriving DecidableEq, Repr

/-- A point read that waits for its points to be restored (R41). -/
structure PntWait where
  org : Org
  exec : Half
  ids : List Nat
  multi : Bool
  deriving DecidableEq, Repr

/-- A mirrored write under way between the halves (R37). -/
structure MirrorCopy where
  idx : Nat
  slot : Slot
  applied : Bool := false
  deriving DecidableEq, Repr

/-- The customer partition of one half (R42-R44, R530). `cause` is the last restart's cause of event 0x0005; `dram` and `flash` the words written to its
memories, by byte offset from 0x8000_0000 and 0x6000_0000. -/
structure Partition where
  restarts : Nat := 0
  cause : Nat := 0
  lastTick : Nat := 0
  dram : Tab Word := []
  flash : Tab Word := []
  deriving DecidableEq, Repr

/-- A command waiting on a commit (R26). -/
structure Waiter where
  org : Org
  opc : Nat
  deriving DecidableEq, Repr

/-- The commit register's dynamic part of one block (R21-R27, R652): STATE, LAST_STATUS, the commit-tick register,
the snapshot of 46 us, the roles of the commands that armed it, the commands that wait, RWL fields committed. -/
structure BlockDyn where
  st : Nat := 0
  last : Nat := 0
  tick : Nat := 0
  snap : Option (List (Nat × Word)) := none
  roles : List Nat := []
  waiters : List Waiter := []
  locked : Bool := false
  deriving DecidableEq, Repr

/-! ### Mailboxes (spec 15) -/

/-- A completion descriptor produced for a command (R506); `final` is KIND 1, `exec` the executing half, `len` COMP_LEN, `sk` the key of the ring's session
when it was produced, `tag` its TAG once written (R512). -/
structure Completion where
  half : Half
  ring : Nat
  ctag : Nat
  opc : Nat
  status : Nat
  final : Bool
  exec : Half
  tick : Nat
  payload : List Nat
  cseq : Nat
  len : Nat
  sk : Option Nat := none
  tag : List Nat := []
  deriving DecidableEq, Repr

/-- An event record (R526). `origin` 0 half A, 1 half B, 2 safety island, 3 metrology island, 4 shared I/O domain. -/
structure EventRec where
  seq : Nat
  origin : Nat
  sev : Nat
  code : Nat
  tick : Nat
  detail : List Nat
  deriving DecidableEq, Repr

/-- A command that has started and is not final (R501, R517). `first` says its first completion was produced; `cap` is BOUT_CAP. -/
structure Started where
  org : Org
  opc : Nat
  role : Nat
  cseq : Nat
  exec : Option Half
  first : Bool := false
  since : Nat := 0
  cap : Nat := 16777216
  deriving DecidableEq, Repr

/-- A session bound to a ring (R511, R512). -/
structure Session where
  sid : Nat
  role : Nat
  sk : Nat
  cseq : Nat := 1
  last : Nat := 0
  deriving DecidableEq, Repr

/-- A session opened and not yet proven (R511). -/
structure OpenReq where
  sid : Nat
  role : Nat
  hnonce : Nat
  dnonce : Nat
  tick : Nat
  deriving DecidableEq, Repr

/-- A datagram sent and unacknowledged on an Ethernet ring (R508): DSEQ, the tick of its last sending, its sendings, its bytes as last sent. -/
structure Dgram where
  seq : Nat
  sent : Nat
  sends : Nat := 1
  bytes : List Nat := []
  deriving DecidableEq, Repr

/-- What a datagram is to carry (R508): KIND, SEGLEN, BOFS and the bytes after its header. -/
structure DgBody where
  kind : Nat
  seglen : Nat
  bofs : Nat
  body : List Nat
  deriving DecidableEq, Repr

/-- An Ethernet binding of a ring (R508): the command being assembled as descriptor and bulk bytes, the commands assembled and not yet fetched, what waits for
the window of 64, the acknowledgment sent last. -/
structure Binding where
  ip : Nat
  port : Nat
  rx : Nat := 0
  tx : Nat := 0
  unacked : List Dgram := []
  last : Nat := 0
  asm : Option Desc := none
  cmds : List Desc := []
  txq : List DgBody := []
  lastAck : List Nat := []
  deriving DecidableEq, Repr

/-- The dynamic part of one ring (R500-R514); its registers stand in the register file. `unsig` counts the entries
written since the last interrupt, `irqs` the interrupts signalled. -/
structure RingS where
  session : Option Session := none
  opening : Option OpenReq := none
  bind : Option Binding := none
  stalled : Bool := false
  unsig : Nat := 0
  unsigTick : Nat := 0
  irqs : Nat := 0
  lost : Nat := 0
  lostFirst : Nat := 0
  held : List EventRec := []
  lastOut : Option Completion := none
  lastEvent : Option EventRec := none
  deriving DecidableEq, Repr

/-- A subscription (R525): `seen` is WSEQ and FLAGS of each point at its last delivery. -/
structure Subscr where
  id : Nat
  ring : Nat
  role : Nat
  cmdRing : Nat
  period : Nat
  since : Nat
  ids : List Nat
  seen : List (Nat × Nat × Nat)
  deriving DecidableEq, Repr

/-- Failures of one role at one half (R511): times of the last failures, and the end of a refusal. -/
structure RoleLock where
  fails : List Nat := []
  until_ : Nat := 0
  deriving DecidableEq, Repr

/-- The mailbox unit of one half. `compl` holds the completions produced and not yet written, in order;
`events` the records produced at this half and not yet delivered. -/
structure MbxS where
  rings : Tab RingS := []
  started : List Started := []
  compl : List Completion := []
  events : List EventRec := []
  evseq : Nat := 0
  locks : Tab RoleLock := []
  subs : List Subscr := []
  subNext : Nat := 1
  deriving DecidableEq, Repr

/-! ### The tick and clocks (spec 02) -/

/-- A time step waiting for its edge (R59): by `ticks` at the edge that ends tick `edge` - 1; the host command that asked. -/
structure StepReq where
  ticks : Int
  edge : Nat
  org : Option Org
  deriving DecidableEq, Repr

/-- The tick and clock unit of one half. `acc` is the time accumulator in units of 2^-33 ns, so that the increment of
2.5 ns x (1 + RATE x 2^-32) is a whole number (R56). `recount`: the half has run on its internal
oscillator, so a start sets the counter anew (R71, R146). `theta` is the offset the half uses and `lockTheta` the last one while LOCKED; `master` that its own port has a
selected master, `disc` that offsets arrive from a selected master, its own or the other half's (R55, R62); `skewOver` the last tick in which the skew was above
250 ns (R73). `tstate` and `clksel` are TSTATE and CLKSEL of R81. -/
structure TckS where
  tick : Nat := 0
  tickSet : Bool := false
  recount : Bool := false
  acc : Nat := 0
  freq : Int := 0
  phase : Int := 0
  rate : Int := 0
  freqHist : List Int := []
  freqTick : Nat := 0
  theta : Int := 0
  lockTheta : Int := 0
  tstate : Nat := 0
  master : Bool := false
  disc : Bool := false
  lastSync : Nat := 0
  annTicks : Nat := 20000
  holdStart : Nat := 0
  holdErr0 : Nat := 0
  holdMark : Nat := 0
  clksel : Nat := 0
  refRun : Bool := true
  locks : Nat := 0
  retries : Nat := 0
  lossTick : Nat := 0
  lossBits : Nat := 0
  skewNs : Int := 0
  skewOver : Option Nat := none
  aligned : Bool := false
  step : Option StepReq := none
  autoWait : Bool := false
  stageMiss : Option Nat := none
  ingestEnd : Option Nat := none
  stepLog : List (Nat × Nat) := []
  deriving DecidableEq, Repr

/-- The PLL of the shared I/O domain (R64): reference in use (0 half A, 1 half B, 2 none), relocking. -/
structure SharedPll where
  ref : Nat := 0
  relocking : Bool := false
  deriving DecidableEq, Repr

/-! ### The Nepel link (spec 03) -/

/-- A message on its way out on an asynchronous channel (R115-R117): segments sent and not acknowledged as
(SEG, tick sent, resends), those of them to send again, whether every segment carried the remote's claim in force (R119). -/
structure AsyncMsg where
  id : Nat
  bytes : List Nat
  nsegs : Nat
  sent : Nat := 0
  next : Nat := 0
  out : List (Nat × Nat × Nat) := []
  again : List Nat := []
  claimOk : Bool := true
  deriving DecidableEq, Repr

/-- The sender of one TYPE on one port: next MSG_ID, messages in order, the last 64 MSG_ID wholly acknowledged. -/
structure AsyncTx where
  nextId : Nat := 0
  msgs : List AsyncMsg := []
  acked : List Nat := []
  deriving DecidableEq, Repr

/-- The receiver of one TYPE on one port: the message being assembled, its segments by number, its last segment, whether it is complete,
the tick of the oldest unacknowledged reception and the tick of the last acknowledgment (R117), the complete messages not taken yet, and how many
frames of which SEQ arrived (R99). -/
structure AsyncRx where
  id : Option Nat := none
  segs : Tab (List Nat) := []
  last : Option Nat := none
  ackDue : Option Nat := none
  ackOut : Option (Nat × Nat × Nat) := none
  ackTick : Option Nat := none
  whole : Bool := false
  done : List (List Nat) := []
  ord : Nat × Nat := (0, 0)
  deriving DecidableEq, Repr

/-- The last uplink tick frame of a type a half accepted on a port: tick, claim echoed, flags, payload bytes. -/
structure UpFrame where
  tick : Nat
  claim : Nat
  echoValid : Bool
  lost : Bool
  bytes : List Nat
  deriving DecidableEq, Repr

/-- A frame the port sent: tick and start in ns, header and payload bytes before the tag, whether it carries a tag, the IV of R99, the tag, the
blocks of 36 bytes. -/
structure SentFrame where
  tick : Nat
  start : Nat
  bytes : List Nat
  tagged : Bool
  iv : List Nat
  tag : List Nat
  blocks : List (List Nat)
  deriving DecidableEq, Repr

/-- One port of one half. `pstate` 0 DOWN, 1 TRAIN, 2 MEASURE, 3 JOIN, 4 SERVICE, 5 HELD (R125). `wrote`: bit 0 its NLK_CFG or NLK_RID shadow was written
since the last evaluated commit, bit 1 after the snapshot (R123). `joinSent`: MSG_ID of the JOIN it answered with; `asy`, `ords`, `ordTick`: the last
asynchronous frame sent, and the frames of each TYPE sent in that tick (R99); `slewTick`: the last move of the delay (R91); `fwver`, `caps`: of the last
HELLO (R112). -/
structure PortS where
  sync : Bool := false
  syncTick : Nat := 0
  pstate : Nat := 0
  samples : List Nat := []
  target : Nat := 0
  delay : Nat := 0
  valid : Bool := false
  dprTick : Option Nat := none
  tm : Option (Nat × Nat × Nat) := none
  joinSent : Option Nat := none
  svcFrom : Nat := 0
  lost : Bool := false
  echoValid : Bool := false
  echo : Nat := 0
  keygen : Bool := false
  main : Option UpFrame := none
  harv : Option UpFrame := none
  down : Option SentFrame := none
  downHarv : Option SentFrame := none
  resume : Bool := false
  winCorr : Nat := 0
  winBlks : Nat := 0
  tx : Tab AsyncTx := []
  rx : Tab AsyncRx := []
  rejoinDue : Option Nat := none
  wrote : Nat := 0
  asy : Option SentFrame := none
  ords : Tab Nat := []
  ordTick : Nat := 0
  slewTick : Option Nat := none
  fwver : Nat := 0
  caps : Nat := 0
  deriving DecidableEq, Repr

/-- A downlink tick frame a remote accepted (R105). -/
structure RFrame where
  claim : Nat
  resume : Bool
  bytes : List Nat
  deriving DecidableEq, Repr

/-- One side of a remote: JOIN taken, what the JOIN set, when it last sent HELLO and that HELLO's message. -/
structure RSide where
  joined : Bool := false
  upBlks : Nat := 7
  authReq : Bool := false
  helloTick : Option Nat := none
  hello : List Nat := []
  deriving DecidableEq, Repr

/-- One end of a Harvitor connection (R481, R482): LAST, whether a PDU was accepted since its start, whether it acts on DATA, accepted PDUs with
d = 1 in a row, in service, tick of the last acceptance, newest ECHO, its own next HSEQ, the HSEQ it sent with their ticks, DATA acted on last,
rejected PDUs. -/
structure HarvEnd where
  last : Option Nat := none
  acc : Bool := false
  acting : Bool := false
  good : Nat := 0
  service : Bool := false
  accTick : Nat := 0
  echo : Option Nat := none
  hseq : Nat := 0
  sent : List (Nat × Nat) := []
  data : List Nat := []
  rej : Nat := 0
  deriving DecidableEq, Repr

/-- A DCMD that has reached a dispenser (R346). -/
structure Dcmd where
  seq : Nat
  edge : Nat
  act : Nat
  ov : Nat
  deriving DecidableEq, Repr

/-- The device's side of a remote as the acceptance rules require it (R103-R114), in the remote's own ticks.
`winA`, `winB` are win[side][0..7]; `sinceL` counts ticks from edge L; `open5` names the contactors whose last sample was below 5 A; `upClaim`, `upValid`,
`upLost` are what its uplink frames of this tick carry (R107, R109); `link`, `link2` its link keys by generation counter, in force and other; `rollAt` the
tick the second takes over, `dropAt` the tick the other is dropped (R442); `phy` the tunnel messages for its PHY and `phyDrop` those dropped (R119);
`imgId`, `imgNext` the image it stores and its lowest offset missing (R120, R614); `cmdSeq`, `act` those of the DCMD applied last, which its samples echo, and `dcmds`
those that wait for their edge (R346). -/
structure Remote where
  tick : Nat := 0
  tickKnown : Bool := false
  port : Option Nat := none
  winA : List (Option Nat) := List.replicate 8 none
  winB : List (Option Nat) := List.replicate 8 none
  cif : Option Nat := none
  firstMain : Option RFrame := none
  spareMain : Option RFrame := none
  firstHarv : Option RFrame := none
  spareHarv : Option RFrame := none
  harvIn : Option RFrame := none
  missed : Nat := 0
  linkLost : Bool := true
  sinceL : Nat := 0
  applied : List Nat := []
  zeroCur : Bool := true
  shutdownSig : Bool := false
  contactors : Nat := 0
  open5 : Nat := 0
  breakLoad : Nat := 0
  sideA : RSide := {}
  sideB : RSide := {}
  stepEdge : Nat := 0
  stepTo : Nat := 0
  upClaim : Nat := 0
  upValid : Bool := false
  upLost : Bool := true
  link : Option (Nat × List Nat) := none
  link2 : Option (Nat × List Nat) := none
  rollAt : Option Nat := none
  dropAt : Option Nat := none
  phy : List (List Nat) := []
  phyDrop : Nat := 0
  imgId : List Nat := []
  imgNext : Nat := 0
  cmdSeq : Nat := 0
  act : Nat := 0
  ov : Nat := 0
  ovN : Nat := 0
  ovTrip : Bool := false
  dcmds : List Dcmd := []
  he : HarvEnd := {}
  permit : Bool := false
  deriving DecidableEq, Repr

/-! ### Twin halves (spec 04) -/

/-- A twin heartbeat (R140): claim, health word, whether the sender holds the token, configuration generation. -/
structure Heartbeat where
  tick : Nat
  claim : Nat
  health : Nat
  token : Bool
  gen : Nat
  handover : Bool
  tj : Int := 0
  deriving DecidableEq, Repr

/-- A committed snapshot the half in charge relays while the twin link is dead (R141): the block's number, its words, and the ports whose
NLK_CFG or NLK_RID the commit wrote (R123). -/
structure RelayC where
  blk : Nat
  words : List (Nat × Word)
  wrote : List Nat := []
  deriving DecidableEq, Repr

/-- Twin supervision of one half. `off`: without power, or held in reset; `recov`: in its recovery ROM (R622). `service`: in tick service (R134), `svcNext`: from the next edge. `acting`: acts in charge (R138). `tunFrom`: no tunnel message before that tick (R145). `rejoin`: the
rejoin is at step 5 (R146). `digMissed`: comparisons not made (R78). `digs`: the digests of its working lanes, `digsOther` the other half's (R149). -/
structure TwnS where
  claim : Nat := 0
  acting : Bool := false
  service : Bool := false
  svcNext : Bool := false
  off : Bool := true
  recov : Bool := false
  booted : Bool := false
  held : Bool := false
  gen : Nat := 0
  otherClaim : Nat := 0
  otherHealth : Nat := 0x8000
  otherGen : Nat := 0
  otherToken : Bool := false
  up : Bool := false
  hbGood : Nat := 0
  hbTick : Nat := 0
  hbOut : Option Heartbeat := none
  unhealthy : Bool := true
  cause : Nat := 0
  cover : Bool := false
  clean : Bool := false
  cleanSince : Nat := 0
  pens : List Nat := []
  penEvTick : Option Nat := none
  penHeld : Option Nat := none
  skewPenWin : Option Nat := none
  latePenTick : Option Nat := none
  stagePenTick : Option Nat := none
  uhTimes : List Nat := []
  resetDue : Option Nat := none
  outranked : Nat := 0
  obeyed : Nat := 0
  rejoin : Bool := false
  cfgLoaded : Bool := false
  digMatch : Nat := 0
  digMissed : Nat := 0
  digs : Tab Nat := []
  digTick : Nat := 0
  inconcl : List Nat := []
  toShadow : List Nat := []
  shadowHit : Bool := false
  spares : List Nat := [0, 1, 2, 3]
  recheck : List (Nat × Nat) := []
  mapMine : List Nat := []
  mapOther : Option (List Nat) := none
  scrubPos : Nat := 0
  pertArmed : Bool := false
  pertActive : Bool := false
  pertStart : Nat := 0
  hoReq : Bool := false
  tunFrom : Nat := 0
  relay : List RelayC := []
  relayReady : Nat := 0
  img : Tab Word := []
  deriving DecidableEq, Repr

/-- A raise asked of the referee (R130, R131). -/
structure RaiseReq where
  half : Half
  edge : Nat
  deriving DecidableEq, Repr

/-- A named relinquish (R132, R144). -/
structure Relinquish where
  from_ : Half
  dst : Half
  edge : Nat
  deriving DecidableEq, Repr

/-- A handover under way (R144): the taking half, the tick of its request, its step (1 commands held, 2 state sent, 3 acknowledged), the host command that asked. -/
structure Handover where
  dst : Half
  tick : Nat
  phase : Nat
  org : Option Org
  deriving DecidableEq, Repr

/-- The referee of the heartwood (R129-R133), kept in safety-island MRAM. `token` is the half in charge or free; `ports` the ticks in a row of R142, the last of
them `portsAt`; `mute` the halves whose alive signal is missing, `sent` the tick of the last tick frame of any half as its alive signal shows it. -/
structure Referee where
  token : Option Half := none
  e : Nat := 0
  lastA : Nat := 0
  lastB : Nat := 1
  gen : Nat := 0
  reqs : List RaiseReq := []
  rel : Option Relinquish := none
  relNoSucc : Bool := false
  ports : Nat := 0
  portsAt : Nat := 0
  freeSig : Option Half := none
  mute : List Half := []
  sent : Option Nat := none
  exercised : Nat := 0
  deriving DecidableEq, Repr

/-! ### Control lanes, clasp and loop blocks (spec 05, 06) -/

/-- What Canopy allocates to an output (R174, R292): mA, mA, W. -/
structure OutAlloc where
  imax : Int := 0
  imin : Int := 0
  pmax : Int := 0
  routeOk : Bool := false
  drain : Bool := false
  deriving DecidableEq, Repr

/-- An allocation (R174, R291, R292): outputs, allotted power of each cabinet, set-points of storage units and PV units. -/
structure Alloc where
  outs : Tab OutAlloc := []
  cabs : Tab Int := []
  stor : Tab Int := []
  pv : Tab Int := []
  deriving DecidableEq, Repr

/-- What the lanes of a half read in a tick (R193): the held frames by port, the staging entries, the allocation; `at_` the tick it was fixed in. -/
structure LaneView where
  at_ : Option Nat := none
  ing : Tab (Option UpFrame) := []
  stg : Tab StageE := []
  alloc : Alloc := {}
  deriving DecidableEq, Repr

/-- A repeat under way in a lane (R181): its body's first and last word, iterations left (this one included), iterations done,
and how many iterations execute (RPTV). -/
structure LaneRep where
  start : Nat
  last : Nat
  left : Nat
  iter : Nat := 0
  count : Nat
  deriving DecidableEq, Repr

/-- One lane (R169-R171, R195-R202). `mem` is state memory, kept across ticks; `line` the result line with its written marks;
`wsig` the CRC register of the tick's stores; `firstDue` that FIRST reads 1 in the next run; `shadowOf` the lane a spare shadows. -/
structure LaneS where
  v : Tab Lw := []
  a : Tab Acc := []
  p : Tab Bool := []
  x : Tab Lw := []
  mem : Tab Lw := []
  run : Bool := false
  pc : Nat := 0
  cyc : Nat := 0
  reps : List LaneRep := []
  sat : Bool := false
  addrErr : Bool := false
  slotErr : Bool := false
  ovr : Bool := false
  lastOvr : Bool := false
  first : Bool := false
  firstDue : Bool := false
  wsig : Option Nat := none
  line : Tab (Option Lw) := []
  shadowOf : Option Nat := none
  deriving DecidableEq, Repr

/-- An image of the program store (R182): its code stands in the store at `base`. -/
structure Image where
  base : Nat
  words : Nat
  progId : Nat
  version : Nat
  ports : List Nat
  stateInit : List Nat
  resultInit : List Nat
  verified : Nat
  claimed : Nat
  deriving DecidableEq, Repr

/-- A loop block's private state (R212-R229): ramp r, manual ramp mv, integrator i, the last bounded and unbounded outputs,
whether the previous tick was manual or TRACK, sequences taken, the injection under way and how it ended
(0 completed, 1 aborted, 2 superseded). -/
structure LoopB where
  r : Int := 0
  mv : Int := 0
  i : Int := 0
  u : Int := 0
  unb : Int := 0
  prevMan : Bool := true
  prevAuto : Bool := false
  arrived : Bool := false
  marrived : Bool := false
  seq : Nat := 0
  mseq : Nat := 0
  injSeq : Nat := 0
  injOn : Bool := false
  injN : Nat := 0
  injStart : Nat := 0
  lfsr : Nat := 0
  bit : Bool := false
  phi : Nat := 0
  injEnd : List (Nat × Nat) := []
  track : Bool := false
  atMeas : Bool := false
  seqNext : Nat := 1
  mseqNext : Nat := 1
  injNext : Nat := 1
  deriving DecidableEq, Repr

/-- A loop command that has been accepted and not completed (R222, R230); `live`: its commit has taken effect. -/
structure LoopCmd where
  org : Org
  opc : Nat
  lane : Nat
  blk : Nat
  seq : Nat
  live : Bool := false
  deriving DecidableEq, Repr

/-- A capture buffer (R231-R233). `st` 0 idle, 1 armed, 2 triggered, 3 complete; rows oldest first. -/
structure Capture where
  st : Nat := 0
  org : Option Org := none
  nch : Nat := 0
  slots : List Nat := []
  rowsMax : Nat := 0
  pre : Nat := 0
  decim : Nat := 1
  trig : Nat := 0
  ttick : Nat := 0
  lane : Nat := 0
  blk : Nat := 0
  rows : List (Nat × List Nat) := []
  armTick : Nat := 0
  trigTick : Nat := 0
  incomplete : Bool := false
  shortPre : Bool := false
  deriving DecidableEq, Repr

/-- A lane image that waits for the edge at which both halves take it (R186): the image without its place, its code words. -/
structure StoreReq where
  org : Org
  image : Image
  code : List Nat
  deriving DecidableEq, Repr

/-- Lanes, program store, slots, loop blocks and capture buffers of one half; `view` what its lanes read in the tick (R193), `stores` the images under way
(R186), `shadowRec` the lines of the spares as the drain carried them, by spare (R199). -/
structure ClnS where
  lanes : Tab LaneS := []
  prog : Tab Word := []
  images : List Image := []
  slots : Tab Lw := []
  loops : Tab LoopB := []
  cmds : List LoopCmd := []
  cap0 : Capture := {}
  cap1 : Capture := {}
  loopWrote : List Nat := []
  view : LaneView := {}
  stores : List StoreReq := []
  shadowRec : Tab (List (Nat × Lw)) := []
  deriving DecidableEq, Repr

/-! ### Power stages (spec 07) -/

/-- One phase group of a sequencer (R249-R260). `st` 0 OFF, 1 PROBE, 2 START, 3 RUN, 4 SLEEP, 5 HIC_WAIT, 6 LATCHED.
`queue` the active phases in order of addition, `w` their weights in tenths, `integ` their integrators; `hi`, `lo`, `bu` the
20-tick counts; `probeN` the ticks of PROBE made; `d4` to `d7` the tick in which steps 4 to 7 of R249 were last made. -/
structure SeqG where
  st : Nat := 0
  probeN : Nat := 0
  probeBad : List Nat := []
  ss : Int := 0
  ssDone : Bool := false
  queue : List Nat := []
  w : Tab Nat := []
  integ : Tab Int := []
  add : Option Nat := none
  shed : Option Nat := none
  lastAdd : Nat := 0
  hi : Nat := 0
  lo : Nat := 0
  bu : Nat := 0
  burst : Bool := false
  bpos : Nat := 0
  onTick : Bool := false
  winN : Nat := 0
  cbc : Tab Nat := []
  retries : Nat := 0
  cause : Nat := 0
  hicT : Nat := 0
  quiet : Nat := 0
  hold : Nat := 0
  vf : Int := 0
  iprev : Int := 0
  lsHits : Nat := 0
  d4 : Option Nat := none
  d5 : Option Nat := none
  d6 : Option Nat := none
  d7 : Option Nat := none
  deriving DecidableEq, Repr

/-- The sequencer of one cabinet: its groups, and the result entries of its last run (R249, R262). -/
structure SeqS where
  groups : Tab SeqG := []
  line : List (Nat × Nat) := []
  deriving DecidableEq, Repr

/-- The sequencers of one half; clears asked and waiting for the commit edge, as (cabinet, group) (R258). -/
structure PstS where
  seqs : Tab SeqS := []
  clears : List (Nat × Nat) := []
  deriving DecidableEq, Repr

/-- What a cabinet remote's power stage does in the present tick (R240-R248): the dither register and whether it holds it, the
group commands, the switching phases as (phase, position, phases in the group, duty), periods per tick, and the lengthening of
the first half's periods in units of 1 / (800 M) ns; after link loss its phase currents are `fade` / `rampLen` of those at edge L (R108). -/
structure CabR where
  dith : Nat := 0
  dithOk : Bool := false
  groups : List Nat := [0, 0, 0, 0]
  phases : List (Nat × Nat × Nat × Nat) := []
  periods : Nat := 0
  delta : Int := 0
  cphase : Nat := 0
  rampLen : Nat := 0
  fade : Nat := 0
  deriving DecidableEq, Repr
/-! ### The allocation (spec 08) -/

/-- A matrix change (R298-R302). `st` 1 DRAIN, 2 OPEN, 3 ROUTE, 4 CLOSE, 5 MATCH. A group is numbered 4c + g. `joins` and `leaves`
are (output, group), `opens` and `closes` (contactor, group of the pole, group number); `res` is (output, r, nodes); `fail` the
LAST of a failure so far; `asg` the output a CNP_ASSIGN names. -/
structure Change where
  outs : List Nat
  joins : List (Nat × Nat) := []
  leaves : List (Nat × Nat) := []
  opens : List (Nat × Nat × Nat) := []
  closes : List (Nat × Nat × Nat) := []
  st : Nat := 1
  ticks : Nat := 0
  cDrain : Nat := 0
  cMatch : Nat := 0
  res : List (Nat × Nat × List Nat) := []
  fail : Nat := 0
  org : Option Org := none
  asg : Option Nat := none
  deriving DecidableEq, Repr

/-- What Canopy keeps of an output between changes (R300, R307): LAST, PINNED, and the group set not retried before a tick. -/
structure OutChg where
  last : Nat := 0
  pinned : Bool := false
  noRetry : Nat := 0
  noSet : List Nat := []
  dzero : Nat := 0
  deriving DecidableEq, Repr

/-- A planner commit waiting for its edge (R301): a change to start, words of a block as (block, offset, bits replaced, bits set), the outputs whose
change records it advances. -/
structure PlanC where
  start : Option Change := none
  words : List (Blk × Nat × Nat × Nat) := []
  outs : List Nat := []
  deriving DecidableEq, Repr

/-- Canopy of one half. `common` is the last uplink both halves accepted per port, `noComm` the ticks in a row without one, `lost`
the ports lost under R77, `pre` those treated so before UPDACT (R614); `poleCmd` the poles commanded closed per contactor; `brk` groups whose pole opened uncommanded;
`stopAll` the safe stop of R330 and `stopLow` the uplinks in a row below 5 A; `clears` the BAD marks to clear at the commit edge. -/
structure CnpS where
  latched : Alloc := {}
  solved : Option (Alloc × Nat) := none
  common : Tab (Option UpFrame) := []
  noComm : Tab Nat := []
  lost : List Nat := []
  pre : List Nat := []
  chgs : List Change := []
  outs : Tab OutChg := []
  plans : List PlanC := []
  poleCmd : Tab Nat := []
  brk : List Nat := []
  stopAll : Bool := false
  stopLow : Nat := 0
  clears : List (Nat × Nat) := []
  deriving DecidableEq, Repr

/-- What the safety island has delivered to a half (R469): masks of cabinets and outputs with PERMIT and in STOPPING. -/
structure SafView where
  permCab : Nat := 0
  stopCab : Nat := 0
  permOut : Nat := 0
  stopOut : Nat := 0
  deriving DecidableEq, Repr
/-! ### The snapshot (spec 01) -/

/-- The snapshot a half published last (R30, R31, R206, R272, R345, R654): `seq` counts the snapshots; `samples` are the
dispenser frames ingested by then, by port; `gstat` the PST_GSTAT words by group number. -/
structure Pub where
  tick : Nat := 0
  seq : Nat := 0
  alloc : Alloc := {}
  stage : List (Int × Bool) := []
  slots : Tab Lw := []
  lstat : Tab Word := []
  samples : Tab (Option UpFrame) := []
  outw : Tab Nat := []
  gstat : Tab Word := []
  gen : Nat := 0
  health : Nat := 0
  otherHealth : Nat := 0
  otherDead : Bool := false
  deriving DecidableEq, Repr
/-! ### Cable models and temperatures (spec 09) -/

/-- A sensor of a model (R321, R322): broken and how many updates it has been plausible, suspect and its two counts, the last
reading, the tick since which its point has carried STALE or SUBST. -/
structure SensS where
  broken : Bool := false
  good : Nat := 0
  suspect : Bool := false
  far : Nat := 0
  near : Nat := 0
  prev : Option Int := none
  subSince : Option Nat := none
  deriving DecidableEq, Repr

/-- A cable model (R310-R324): node temperatures as binary32 patterns, sensors 0 pin +, 1 pin -, 2 supply, 3 return, 4 flow,
5 ambient, 6 current; COOLANT_RANGE, the updates back in range and the tick it was set; MATRIX_PENDING; the last ceiling formed in mA. -/
structure ThmM where
  active : Bool := false
  t : List Nat := List.replicate 8 0
  sens : Tab SensS := []
  coolOut : Bool := false
  coolOk : Nat := 0
  coolAt : Nat := 0
  dataPending : Bool := true
  ceil : Nat := 0
  staged : Nat := 0
  derated : Bool := false
  band : Nat := 0
  deriving DecidableEq, Repr

/-- The thermal model unit and the device temperature of one half. `set` is the tick of the update whose ceilings wait to be
staged, `rx` the set received from the half in charge, `go` that the set has reached the other half (R311); `tjAt`, `diodeAt` and `derateAt` the ticks of
the last estimate, diode reset and derate update (R326, R329). -/
structure ThmS where
  models : Tab ThmM := []
  set : Option (Nat × List Nat) := none
  rx : Option (List Nat) := none
  go : Bool := false
  tj : Int := 0
  diode : Int := 0
  powers : List Nat := []
  hot : Nat := 0
  step : Nat := 0
  below : Option Nat := none
  tjAt : Option Nat := none
  diodeAt : Option Nat := none
  derateAt : Option Nat := none
  flashHold : Bool := false
  flashOk : Option Nat := none
  derate : Nat := 100
  otherTj : Int := 0
  buf : Nat := 0
  logDrops : Nat := 0
  hold : Bool := false
  deriving DecidableEq, Repr

/-- A shutdown record (R331). -/
structure ShutRec where
  number : Nat
  tick : Nat
  rtc : Nat
  cause : Nat
  half : Nat
  tjA : Int
  tjB : Int
  pkg : Int
  powers : List Nat
  drainMs : Nat
  inHour : Nat
  deriving DecidableEq, Repr

/-- The thermistor of the backup cell (R334): reading, CHG_INHIBIT, broken, the tick since which it has been plausible. -/
structure BntcS where
  t : Int := 0
  inhibit : Bool := false
  broken : Bool := false
  okSince : Option Nat := none
  deriving DecidableEq, Repr

/-- What the safety island and the shared I/O domain keep of temperatures: the shutdown ring of R331 (newest last, kept in MRAM),
the record count since manufacture, the thermistor, the package sensor, the safe stop of R330 under way (tick of the decision, the half
that reached the limit) and the half that carries it out (`doer`), that it has powered the halves down (`down`), THM_RELEASE accepted. -/
structure ThermI where
  recs : List ShutRec := []
  count : Nat := 0
  bntc : BntcS := {}
  pkg : Int := 0
  stop : Option (Nat × Half) := none
  doer : Option Half := none
  down : Bool := false
  release : Bool := false
  deriving DecidableEq, Repr
/-! ### Vehicle sessions (spec 10) -/

/-- What the vehicle asks and allows (R352), in mA, W and mV: `req` its target or maximum current; `exp` that it asks to discharge. -/
structure VehLimS where
  req : Int := 0
  imax : Int := 0
  pmax : Int := 0
  dis : Int := 0
  dpw : Int := 0
  vtgt : Int := 0
  vmax : Int := 0
  exp : Bool := false
  deriving DecidableEq, Repr

/-- What the mirror of a session carries (R355): state in the order of R351 from 0, session number, the first reason raised, the weld
flag, ticks of state entry, of PLUGGED and of the last vehicle message, protocol (0 none, 1 ISO 15118-20, 2 ISO 15118-2, 3 DIN SPEC 70121), TLS
(0 none, 1 waiting, 2 under way, 3 complete), traffic keys' Locket entry, identifiers, authorization path pending and granted (R350), discharge
allowed, control mode, limits, last voltage target, cable-check voltage, ISO_OK seen, credit left in mWh, the tick the vehicle was told to stop, the charge loop paused, the network membership
key's Locket entry (R444), ACT of the last DCMD. -/
structure VehC where
  st : Nat := 0
  num : Nat := 0
  reason : Nat := 0
  weld : Bool := false
  since : Nat := 0
  plugged : Nat := 0
  msgTick : Nat := 0
  proto : Nat := 0
  tls : Nat := 0
  key : Option Nat := none
  evccid : List Nat := []
  emaid : List Nat := []
  idKind : Nat := 0
  pnc : Bool := false
  path : Nat := 0
  granted : Nat := 0
  disch : Bool := false
  bpt : Bool := false
  dynamic : Bool := false
  lim : VehLimS := {}
  lastV : Int := 0
  checkV : Int := 0
  iso : Bool := false
  credit : Option Int := none
  told : Option Nat := none
  paused : Bool := false
  nmk : Option Nat := none
  act : Nat := 0
  deriving DecidableEq, Repr

/-- The session of one output (R351): its protocol state and the mirror the other half acknowledged last; downlink tunnel messages that
wait for the mirror; uplink messages the other half keeps; what the dispenser samples show (pilot, uplinks in a row with pilot B or C, samples
in a row below 5 A, DSTAT, V_OUT); CMDSEQ; the VEH_STOP commands that wait; SLAC receptions as (RunID, attenuation sum, count, tick). -/
structure VehS where
  c : VehC := {}
  mir : Option VehC := none
  outq : List (List Nat) := []
  kept : List (List Nat) := []
  pilot : Nat := 7
  pilotN : Nat := 0
  lowN : Nat := 0
  dstat : Nat := 0
  vout : Option Int := none
  cmdSeq : Nat := 0
  stops : List Org := []
  slac : List (Nat × Nat × Nat × Nat) := []
  deriving DecidableEq, Repr

/-- What the stack keeps beside the sessions: the next session number, the allow-list and block list as (kind, identifier) (R359), the set
of limits that missed its tick (R353). -/
structure VehG where
  next : Nat := 1
  lists : List (Nat × List Nat) := []
  late : List (Nat × Int) := []
  deriving DecidableEq, Repr
/-! ### Metrology (spec 11) -/

/-- A record of an island's log (R384, R495). -/
structure LogRec where
  num : Nat
  tick : Nat
  rtc : Nat
  typ : Nat
  src : Nat
  detail : Nat
  a : Nat
  b : Nat
  deriving DecidableEq, Repr

/-- An island's log: records oldest first, records since manufacture, per-type counters (R384). -/
structure LogS where
  recs : List LogRec := []
  count : Nat := 0
  types : Tab Nat := []
  deriving DecidableEq, Repr

/-- A gap under way (R367): its record's number, start tick, the power of the last accepted sample, whether both halves had stopped. -/
structure GapS where
  num : Nat
  start : Nat
  pc : Nat
  halted : Bool
  deriving DecidableEq, Repr

/-- The meter of one source (R365-R377). For a DC output `v` and `i` are the last accepted sample and `hist` the last three samples (V, I),
newest first, `closed` the tick whose sample was closed last; for an intake `chan` holds the last three raw samples per channel. `q` fine accumulators by quantity, `inc` the increments of
path 1 since the last comparison; METER_ERR of R368, R377, and R380's modulator check apart; `power` the last integrated power in mW. -/
structure MeterS where
  v : Int := 0
  i : Int := 0
  hist : List (Int × Int) := []
  closed : Option Nat := none
  chan : Tab (List Int) := []
  subst : Nat := 0
  gap : Option GapS := none
  pc : Nat := 0
  headErr : Bool := false
  good : Nat := 0
  dualErr : Bool := false
  dualOk : Nat := 0
  stuck : Bool := false
  stuckN : Tab (Int × Nat) := []
  q : Tab Nat := []
  inc : Tab Nat := []
  noload : Bool := false
  recv : Bool := false
  power : Int := 0
  vrms : Nat := 0
  irms : Nat := 0
  lastTick : Nat := 0
  deriving DecidableEq, Repr

/-- A pulse stage (R378, R379): its accumulator in mWh, pending count, the tick its last pulse started. -/
structure PulseS where
  acc : Nat := 0
  pend : Nat := 0
  last : Option Nat := none
  deriving DecidableEq, Repr

/-- An intake's supervision (R381, R382): conditions set, windows in a row per condition, RTC of the entry into battery operation, current-time
per phase in mA s, windows run. Conditions: 5 CURRENT_NO_VOLTAGE, 4 NEUTRAL_MISSING, 3 to 1 REVERSED L1 to L3, 0 BYPASS. -/
structure IntakeS where
  conds : List Nat := []
  runs : Tab Nat := []
  battRtc : Nat := 0
  battMas : Tab Nat := []
  battWin : Nat := 0
  deriving DecidableEq, Repr

/-- A tamper input (R383): open, level samples in a row against it, counter. -/
structure TampS where
  isOpen : Bool := false
  n : Nat := 0
  count : Nat := 0
  deriving DecidableEq, Repr

/-- A metering frame a half forwarded (R14): its SEQ, the side it came from, its corrected data bytes with the tag. -/
structure MetCopy where
  seq : Nat
  side : Half
  bytes : List Nat
  deriving DecidableEq, Repr

/-- The metrology island (R361-R384). `copies`: the metering frames forwarded for each output. `battery` 0 full measurement, 1 battery operation from VBAT, 2 in S4 with a feed, 3 stopped; `restart` the
tick of the last restart of its processor; `warm` the tamper samples since power-up, up to 3. -/
structure MetS where
  src : Tab MeterS := []
  pulses : Tab PulseS := []
  intakes : Tab IntakeS := []
  tamp : Tab TampS := []
  evlog : LogS := {}
  mlog : LogS := {}
  adcFault : Bool := false
  paramFault : Bool := false
  restart : Option Nat := none
  battery : Nat := 0
  battStart : Nat := 0
  warm : Nat := 0
  copies : Tab (List MetCopy) := []
  deriving DecidableEq, Repr
/-! ### Locket (spec 13) -/

/-- An entry (R429): `st` 1 VALID, 2 INVALID, 3 ORPHANED; an EMPTY slot has no entry. `mat` is the key material before its encryption
(R431, R432), `iv` the IV of that. -/
structure KeyE where
  handle : Nat
  st : Nat := 1
  depth : Nat := 0
  origin : Nat := 0
  parent : Nat := 0xFFFFFFFF
  typ : Nat
  dom : Nat
  eng : Nat
  use : Nat
  useRoles : Nat := 0
  admRoles : Nat := 0
  label : Nat := 0
  binding : Nat := 0
  notAfter : Nat := 0
  created : Nat := 0
  mat : List Nat := []
  iv : List Nat := List.replicate 12 0
  deriving DecidableEq, Repr

/-- A journal slot (R450): its transaction, the images by index, PREPARED or DONE. -/
structure JSlot where
  k : Nat
  images : List (Nat × Option KeyE)
  done : Bool
  deriving DecidableEq, Repr

/-- An invalidation between its commit and its cutoff edge (R445): handle, cutoff tick, k, the command. -/
structure CutS where
  handle : Nat
  edge : Nat
  k : Nat
  org : Option Org
  deriving DecidableEq, Repr

/-- An operation of LKT_OP under way (R446): its command, the key, the tick it started, the length of its input, what it yields. -/
structure KeyOp where
  org : Org
  exec : Half
  handle : Nat
  start : Nat
  size : Nat
  result : List Nat
  deriving DecidableEq, Repr

/-- A link key roll (R442): the new counter, both keys' handles, AT, the command, the MSG_ID of its KEYROLL on side A and B. -/
structure RollS where
  n : Nat
  old : Nat
  key : Nat
  edge : Nat
  org : Org
  exec : Half
  ids : Nat × Nat
  deriving DecidableEq, Repr

/-- The manufacture entries (R436). -/
def manufactureKeys : Tab (Option KeyE) :=
  [(0, some { handle := 0x4000, typ := 0x11, dom := 1, eng := 0x100, use := 0x204 }), (1, some { handle := 0x4001, typ := 0x21, dom := 1, eng := 0x100, use := 0x204 }),
   (2, some { handle := 0x4002, typ := 0x13, dom := 3, eng := 0x80, use := 0x208 }), (3, some { handle := 0x4003, typ := 0x22, dom := 3, eng := 0x80, use := 0x208 }),
   (4, some { handle := 0x4004, typ := 0x02, dom := 1, eng := 0x01, use := 0x303 })]

/-- A Locket command whose transaction waits for the end of hold-up (R629), with its operands; `drop`: an invalidation of the device's own. -/
inductive LktCmd where
  | generate (o : Org) (tx : Nat) (attr : List Nat)
  | importKey (o : Org) (tx : Nat) (attr : List Nat) (key : Nat) (wrapped : List Nat)
  | derive (o : Org) (tx : Nat) (attr info : List Nat)
  | agree (o : Org) (tx : Nat) (attr : List Nat) (method : Nat) (z : List Nat)
  | invalidate (o : Org) (tx handle : Nat)
  | pair (o : Org) (tx kind port rid : Nat) (z : List Nat)
  | roll (o : Org) (tx port : Nat)
  | drop (handle : Nat)
  deriving DecidableEq, Repr

/-- Locket (R428-R452): entries by index, GEN and allocation count per slot, the commit counter, the journal's slots, the last 64 TXTAGs with k and handle,
invalidations before their cutoff, indices whose subtree is to be swept, operations under way, commands whose transaction
waits for the end of hold-up (R629), rolls by port. `starting`: the shared I/O domain has started and
Locket has not yet recovered (R451), 2 after POR or RESET_N. `module`: the identity of R436, from entry 0 (DESIGN CHOICE, unsafe: log 110).
(DESIGN CHOICE, unsafe: log 110.) -/
structure LktS where
  ents : Tab (Option KeyE) := manufactureKeys
  starting : Nat := 2
  gens : Tab Nat := [(0, 1), (1, 1), (2, 1), (3, 1), (4, 1)]
  allocs : Tab Nat := [(0, 1), (1, 1), (2, 1), (3, 1), (4, 1)]
  c : Nat := 0
  slot0 : Option JSlot := none
  slot1 : Option JSlot := none
  txs : List (Nat × Nat × Nat) := []
  cuts : List CutS := []
  sweep : List Nat := []
  ops : List KeyOp := []
  waiting : List LktCmd := []
  rolls : Tab (Option RollS) := []
  module : List Nat := List.replicate 8 0
  deriving DecidableEq, Repr
/-! ### Billing (spec 12) -/

/-- The registers of one quantity (R396). -/
structure RegSet where
  total : Nat := 0
  rates : Tab Nat := []
  deriving DecidableEq, Repr

/-- An open demand interval (R405, R410): ENERGY, EXPORT, ticks of service, flags INCOMPLETE, STEP, METER_ERR. -/
structure IntervalS where
  energy : Nat := 0
  export_ : Nat := 0
  ticks : Nat := 0
  incomplete : Bool := false
  step : Bool := false
  err : Bool := false
  deriving DecidableEq, Repr

/-- The start values of a session and what happened in it (R415, R422-R424): credits granted and the TOTAL at each grant; the token's SEQ. -/
structure SessAcct where
  num : Nat := 0
  tick : Nat := 0
  utc : Int := 0
  ofs : Int := 0
  totals : List Nat := []
  deliv : List Nat := []
  recv : List Nat := []
  gapBound : Nat := 0
  unsaved : Nat := 0
  gap : Bool := false
  lost : Bool := false
  err : Bool := false
  step : Bool := false
  unknown : Bool := false
  grants : List (Nat × Nat) := []
  token : Nat := 0
  ledger : List Nat := []
  deriving DecidableEq, Repr

/-- What a save holds beside the fine remainders (R411): registers and maximum demands by source byte x 256 + quantity and by intake x 32 + r, open intervals,
session-start values with credit, the last closed boundaries, METER_ERR in the open billing period, the last instant
processed. -/
structure BilCore where
  regs : Tab RegSet := []
  maxd : Tab (Nat × Int × Nat) := []
  ints : Tab IntervalS := []
  sess : Tab (Option SessAcct) := []
  lastDem : Tab Int := []
  lastBill : Option Int := none
  perErr : Bool := false
  lastUtc : Int := 0
  deriving DecidableEq, Repr

/-- A save bank (R411). -/
structure BilSave where
  seq : Nat := 0
  pf : Bool := false
  utc : Int := 0
  active : List Nat := []
  fines : Tab (Tab Nat) := []
  core : BilCore := {}
  deriving DecidableEq, Repr

/-- A keypad's refusals and lockout (R422). -/
structure KeypadS where
  fails : List Nat := []
  until_ : Nat := 0
  deriving DecidableEq, Repr

/-- An item of the legal display (R419): the check value as text, TOTAL of a quantity code in Wh, the rate in force, a mark of a source. -/
inductive DispItem where
  | check (text : List Nat)
  | total (code wh : Nat)
  | rate (r : Nat)
  | meterErr (src : Nat)
  | gap (src : Nat)
  | timeUnknown
  deriving DecidableEq, Repr

/-- The entry and display of the island (R419, R420): item shown, tick it was shown, end of a hold, end of the check value, the entry under way. -/
structure LdspS where
  item : Nat := 0
  since : Nat := 0
  hold : Nat := 0
  chk : Nat := 200000
  entry : Option Nat := none
  deriving DecidableEq, Repr

/-- The billing and tariff engine (R396-R427). Interval and period records, Lomvor records and ledger entries are kept as bytes with their number. `starting`: the
island has not yet restored its state since it started (R412). -/
structure BilS where
  core : BilCore := {}
  starting : Bool := true
  tai : Nat := 37
  rate : Nat := 0
  tariff : List Nat := []
  passive : Option (List Nat) := none
  recs0 : List (Int × List Nat) := []
  recs1 : List (Int × List Nat) := []
  recN : Tab Nat := []
  periods : List (Nat × List Nat) := []
  periodN : Nat := 0
  lastClose : Option Int := none
  lomvor : List (Nat × List Nat) := []
  recno : Nat := 0
  lastBody : List Nat := []
  held : List (Nat × List Nat) := []
  ledger : List (Nat × List Nat) := []
  ledgerN : Nat := 0
  spent : List Nat := []
  high : Option Nat := none
  keypads : Tab KeypadS := []
  kseq : Tab (Nat × Nat) := []
  bank0 : Option BilSave := none
  bank1 : Option BilSave := none
  saveSeq : Nat := 0
  unknown : Bool := false
  dead : Bool := false
  ldsp : LdspS := {}
  deriving DecidableEq, Repr
/-! ### The safety island (spec 14) -/

/-- A zone (R467, R474, R475): `st` 0 REMOVED, 1 RUN, 2 STOPPING, 3 FAULT; cause and detail of R495, tick of entry; in STOPPING the decision's tick, I0
per output in A, ticks in a row above the envelope per output, samples in a row below 5 A per connection; the causes of its fault; the tick of an
accepted reset. -/
structure ZoneS where
  st : Nat := 0
  cause : Nat := 0xA
  detail : Nat := 0
  since : Nat := 0
  start : Nat := 0
  i0 : Tab Nat := []
  above : Tab Nat := []
  low : Tab Nat := []
  faults : List (Nat × Nat) := []
  resetAt : Option Nat := none
  deriving DecidableEq, Repr

/-- An input pair (R470, R477): each pin's level and the tick it took it, each filtered state, ticks since which the filtered states are equal and since
which the pair is in RUN, DISC; as a reset source the tick of the press, the length of the last press, RESET_JAMMED. -/
structure InPair where
  la : Bool := false
  lb : Bool := false
  ta : Nat := 0
  tb : Nat := 0
  fa : Option Bool := none
  fb : Option Bool := none
  eq : Option Nat := none
  run : Option Nat := none
  ran : Bool := false
  disc : Bool := false
  press : Option Nat := none
  len : Option Nat := none
  jammed : Bool := false
  free : Option Nat := none
  deriving DecidableEq, Repr

/-- An output pair (R463, R466, R471-R473): energized, tick of the last command, FBK level (true: contactor open) and whether it has followed the
command, TP_FAULT, WELD, ticks of the last test pulses. -/
structure OutPair where
  on : Bool := false
  cmdTick : Nat := 0
  fbk : Bool := true
  followed : Bool := true
  tpFault : Bool := false
  weld : Bool := false
  tpH : Nat := 0
  tpL : Nat := 0
  badH : Bool := false
  badL : Bool := false
  deriving DecidableEq, Repr

/-- A connection of the island (R479-R485): its end, the PDU built last, the tick it was sent, that PDU suppressed, the tick since which STO_REQ is
set, the press of its RESET bit. -/
structure ConnS where
  he : HarvEnd := {}
  pdu : List Nat := []
  sentTick : Nat := 0
  supp : Bool := false
  sto : Option Nat := none
  press : Option Nat := none
  len : Option Nat := none
  jammed : Bool := false
  free : Option Nat := none
  inbox : List (Nat × List Nat) := []
  deriving DecidableEq, Repr

/-- The safety island (R462-R497). `pole` the pole commands delivered last by the token holder, `poleCmd` those sent and `poleFb` the feedback, per
contactor; `closedAt` the tick in which a pole was last fed back closed; `diff` differing comparisons in a row. -/
structure SafS where
  zones : Tab ZoneS := []
  ins : Tab InPair := []
  outs : Tab OutPair := []
  conns : Tab ConnS := []
  pole : Tab Nat := []
  poleCmd : Tab Nat := []
  poleFb : Tab Nat := []
  closedAt : Nat := 0
  diff : Nat := 0
  built : Option Nat := none
  safeFault : Bool := false
  spOk : Bool := false
  hwOk : Bool := false
  log : LogS := {}
  deriving DecidableEq, Repr
/-! ### CAN controllers (spec 16) -/

/-- What a controller holds beside its registers (R551-R559): the shadow buffer with the frame's lowest filter and tick, sending buffers whose abort is asked, the candidate tried, set-point
frames queued by record as (identifier word, DLC, data), the record in TXB1. -/
structure CanS where
  shadow : Option (CanFrame × Nat × Nat) := none
  aborts : List Nat := []
  cand : Nat := 0
  queue : Tab (Option (Nat × Nat × List Nat)) := []
  txRec : Option Nat := none
  deriving DecidableEq, Repr
/-! ### Load switches (spec 17) -/

/-- A channel (R567-R572): the LSW_LIM word latched at the last entry to INRUSH, whether the retry has been used since the last command, the slot duty
written last. -/
structure LswC where
  lim : Word := 0x50F0140A
  used : Bool := false
  duty : Nat := 0
  since : Nat := 0
  deriving DecidableEq, Repr

/-- A supply group (R571, R573): the last 50 supply samples in 10 mV, newest first; milliseconds of FREEZE left; the sense pin's place under AUTO. -/
structure LswG where
  vs : List Nat := []
  hold : Nat := 0
  pos : Nat := 0
  deriving DecidableEq, Repr

/-- The load switches (R564-R581); `overload`: the average has been above 24 A since the event, `shed` the tick in which a channel was last switched off for it
(R566). -/
structure LswS where
  chans : Tab LswC := []
  grps : Tab LswG := []
  overload : Bool := false
  shed : Option Nat := none
  deriving DecidableEq, Repr
/-! ### Root mesh (spec 18) -/

/-- A change of map under way (R590): the map, its crossing AT, and the ends whose MAPSET is acknowledged. -/
structure MapChg where
  map : Nat
  at_ : Nat
  ackTx : Bool
  ackRx : Bool
  deriving DecidableEq, Repr

/-- A directed link (R588-R590, R596): map in force, the recommendation of the last reports and how often in a row, ERASED of the latest report, the
crossing it arrived, marked down, the change under way; for a link to the root cells received and erased per slot since the last report. -/
structure MeshLink where
  map : Nat := 0xBBBBBBBB
  rec_ : Nat := 0
  recN : Nat := 0
  erased : List Nat := []
  at_ : Option Nat := none
  down : Bool := false
  chg : Option MapChg := none
  cells : Nat := 0
  er : List Nat := []
  deriving DecidableEq, Repr

/-- A frame of the root that waits or is under way (R592): KIND 2 DATA, 3 POLL, 5 MAPSET, 6 ASSIGN; its bytes after CTL and NEXT, without the CRC; the link a
MAPSET is for. -/
structure MeshFrame where
  kind : Nat
  dst : Nat
  body : List Nat
  link : Nat := 0
  deriving DecidableEq, Repr

/-- An exchange (R593-R595). `st` 0 a cell is to be sent, 1 a response is awaited, 2 it has come or not, 3 the resends are used, 4 the answer is
awaited, 5 a response is to be sent, 6 the frame is beyond the first hop, 7 an answer is complete. `nibs` are the nibbles not acknowledged yet, `cur` how many of
them the cell in the air carries. -/
structure MeshX where
  frame : MeshFrame
  hops : Nat
  next : Nat
  nibs : List Nat
  start : Nat
  cur : Nat := 0
  idx : Nat := 0
  resends : Nat := 0
  st : Nat := 0
  resp : Option (Bool × Nat) := none
  hop : Nat := 0
  ans : List Nat := []
  ansOk : Bool := false
  ansIdx : Nat := 0
  deriving DecidableEq, Repr

/-- A Harvitor exchange (R599): connection, node, nibbles to send, cells sent, cells received, their nibbles, whether one failed. -/
structure MeshHarv where
  conn : Nat
  node : Nat
  nibs : List Nat
  sent : Nat := 0
  got : Nat := 0
  ans : List Nat := []
  bad : Bool := false
  deriving DecidableEq, Repr

/-- One port: crossings counted, in a row without an accepted edge, in a row with one; the exchange, frames that wait, the Harvitor exchange; crossings taken
by BEACON and its repeats, when the last was sent; LINKREP frames received as (node, bytes); the crossing of each node's last POLL; the cell sent in the last
crossing as (slot, nibble, AMP). -/
structure MeshP where
  t : Nat := 0
  miss : Nat := 0
  good : Nat := 0
  lost : Bool := false
  x : Option MeshX := none
  q : List MeshFrame := []
  harv : Option MeshHarv := none
  busy : Nat := 0
  beacon : Nat := 0
  reps : List (Nat × List Nat) := []
  polls : Tab Nat := []
  out : List (Nat × Nat × Nat) := []
  deriving DecidableEq, Repr

/-- The root mesh (R582-R606): ports, directed links by transmitter x 256 + receiver, routes in force and the routes relays have recorded by node, frames
abandoned per route, received DATA frames that wait as (port, node, payload). -/
structure MeshS where
  ports : Tab MeshP := []
  links : Tab MeshLink := []
  routes : Tab (List Nat) := []
  recs : Tab (List Nat) := []
  acked : List Nat := []
  aband : Tab Nat := []
  rxq : List (Nat × Nat × List Nat) := []
  deriving DecidableEq, Repr
/-! ### Boot and update (spec 19) -/

/-- What a part keeps of an image's header (R609). `check` are the first four bytes of CHECK, `compat` the four (MIN, MAX); `digest` the
SHA-384 over header and payload of an image that was staged (R607), empty for one of manufacture. -/
structure ImgInfo where
  target : Nat := 1
  line : Nat := 3
  release : Nat := 0
  build : Nat := 0
  svn : Nat := 0
  len : Nat := 0
  imgid : Nat := 0
  check : Nat := 0
  ifrev : Nat := 0
  compat : List (Nat × Nat) := [(0, 0), (0, 0), (0, 0), (0, 0)]
  signer : Nat := 0
  digest : List Nat := []
  deriving DecidableEq, Repr

/-- A bank (R608): 0 EMPTY, 1 STAGED, 2 TRIAL, 3 ACTIVE, 4 REVERTED; its image; it failed its check at this start. -/
structure BankS where
  st : Nat := 0
  img : ImgInfo := {}
  bad : Bool := false
  deriving DecidableEq, Repr

/-- A boot record (R608): both banks, TRIES, SVN floor, the bank that runs. The part leaves the factory with an image in force in bank 0.
(DESIGN CHOICE, unsafe: log 81.) -/
structure BootRec where
  b0 : BankS := { st := 3 }
  b1 : BankS := {}
  tries : Nat := 0
  floor : Nat := 0
  run : Option Nat := none
  deriving DecidableEq, Repr

/-- A staging under way at the half in charge (R611): the header and the payload bytes taken. -/
structure Staging where
  img : ImgInfo
  hdr : List Nat
  data : List Nat := []
  deriving DecidableEq, Repr

/-- An image of the remote store (R612). -/
structure RemImg where
  img : ImgInfo
  bytes : List Nat
  deriving DecidableEq, Repr

/-- The transfer of an image to a remote (R614): IMGID, what the remote reported last, the half that sends, AT, whether UPDACT has gone out. -/
structure RemTx where
  imgid : Nat
  target : Nat
  st : Nat := 0
  next : Nat := 0
  by_ : Half
  at_ : Nat
  told : Bool := false
  org : Option Org
  deriving DecidableEq, Repr

/-- An activation under way (R616-R621): part 0 half firmware, 1 loader, 2 safety island, 3 metrology island. `st` 1 the first half is to rejoin, 2 charge is to
pass, 3 the second half is to rejoin, 4 trial, 5 the edge AT is awaited. -/
structure ActS where
  org : Org
  part : Nat
  st : Nat
  first : Half
  start : Nat
  at_ : Nat := 0
  clean : Nat := 0
  old : Nat := 0
  deriving DecidableEq, Repr

/-- The recovery ROM's protocol at one half (R623): the last SEQ and response, the header's quarters, the header accepted and for which target, payload bytes. -/
structure RecovS where
  seq : Option Nat := none
  resp : List Nat := []
  hdr : Tab (List Nat) := []
  img : Option ImgInfo := none
  data : List Nat := []
  deriving DecidableEq, Repr

/-- Boot, update and recovery (R607-R626). Boot records: 0 and 1 the firmware of half A and B, 2 and 3 the islands, 4 and 5 the loaders of half A and B. `stage`: the last
stage started, by part; `meas` the measurement records by part x 4 + stage (R455). -/
structure UpdS where
  recs : Tab BootRec := []
  stage : Tab Nat := []
  meas : Tab (List Nat) := []
  stg : Option Staging := none
  store : List RemImg := []
  tx : Tab (Option RemTx) := []
  act : Option ActS := none
  recovA : RecovS := {}
  recovB : RecovS := {}
  deriving DecidableEq, Repr
/-! ### Power (spec 20) -/

/-- The module's supply (R627-R639): the module runs; the VHOLD switch is closed; the step of R629 reached; VHOLD has reached 12.0 V; the battery domain alone
(0 no, 1 as S4, 2 as S5) and the RTC at which it began; the RTC at entry to a power state; the service button is stuck. -/
structure PwrS where
  up : Bool := false
  vhSwitch : Bool := false
  step : Nat := 0
  charged : Bool := false
  batt : Nat := 0
  battAt : Nat := 0
  entered : Nat := 0
  stuck : Bool := false
  deriving DecidableEq, Repr

/-! ### The whole device -/

/-- What each control half holds of its own (R12). `saved` is the flash copy of the points of class 0x04, taken each 1 s (R39). -/
structure HalfSt where
  tck : TckS := {}
  stg : Tab StageE := []
  pts : Tab (Option Slot) := []
  saved : Tab (Option Slot) := []
  mirOut : List MirrorCopy := []
  restWait : List PntWait := []
  part : Partition := {}
  ports : Tab PortS := []
  bulk : Tab (List (List Nat)) := []
  twn : TwnS := {}
  cln : ClnS := {}
  pst : PstS := {}
  cnp : CnpS := {}
  saf : SafView := {}
  pub : Pub := {}
  thm : ThmS := {}
  mbx : MbxS := {}
  tmr : Tab Nat := []
  deriving DecidableEq, Repr

/-- The state of the device. `pending` is the queue of commands that wait (first in, first out) and `free` the number of
free values drawn so far; both are the model's own fields. -/
structure State where
  pending : List Instr := []
  free : Nat := 0
  regs : Tab Word := []
  shadow : Tab (Option Word) := []
  blocks : Tab BlockDyn := []
  halfA : HalfSt := {}
  halfB : HalfSt := {}
  ref : Referee := {}
  ho : Option Handover := none
  pll : SharedPll := {}
  rtc : Nat := 0
  rems : Tab Remote := []
  cabs : Tab CabR := []
  therm : ThermI := {}
  veh : Tab VehS := []
  vehG : VehG := {}
  met : MetS := {}
  bil : BilS := {}
  lkt : LktS := {}
  saf : SafS := {}
  cans : Tab CanS := []
  lsw : LswS := {}
  mesh : MeshS := {}
  upd : UpdS := {}
  pwr : PwrS := {}
  deriving DecidableEq, Repr

/-- The device right after reset, its power just come up and nothing started: every register at its reset value.
(DESIGN CHOICE, unsafe: log 1.) -/
def State.reset : State :=
  { halfB := { twn := { claim := 1 } } }

end Sys2Proof.Machine
end

