-- ==== Sys2Proof/Machine/Ops.lean ====
section
/-!
DEFINITION. The named operations over the state: halves, registers, events, completions, roles, commits, staging.
-/

namespace Sys2Proof.Machine

/-- The outcome type of every meaning. -/
abbrev Out := Host.Outcome State Fault Refusal

/-! ### Bits and bytes -/

/-- The field `hi`:`lo` of a number (R5). -/
def fldN (w hi lo : Nat) : Nat := w / 2 ^ lo % 2 ^ (hi + 1 - lo)

/-- The field `hi`:`lo` of a register word (R5). -/
def fld (w : Word) (hi lo : Nat) : Nat := fldN w.toNat hi lo

/-- Bit `i` of a register word. -/
def bitAt (w : Word) (i : Nat) : Bool := w.toNat.testBit i

/-- The word with its field `hi`:`lo` set to `v`. -/
def setFld (w : Word) (hi lo v : Nat) : Word :=
  BitVec.ofNat 32 (w.toNat - fld w hi lo * 2 ^ lo + v % 2 ^ (hi + 1 - lo) * 2 ^ lo)

/-- `n` bytes of `v`, little-endian (R4). -/
def le : Nat → Nat → List Nat
  | 0, _ => []
  | n + 1, v => v % 256 :: le n (v / 256)

/-- The number that bytes spell, little-endian (R4). -/
def unle : List Nat → Nat
  | [] => 0
  | b :: t => b % 256 + 256 * unle t

/-- `n` bytes of an integer in two's complement, little-endian. -/
def leInt (n : Nat) (v : Int) : List Nat := le n (v % (2 ^ (8 * n) : Int)).toNat

/-- The signed integer of the low `bits` bits of `v`. -/
def signed (bits v : Nat) : Int :=
  if v % 2 ^ bits < 2 ^ (bits - 1) then (v % 2 ^ bits : Nat) else (v % 2 ^ bits : Nat) - (2 ^ bits : Int)

/-- The `len` bytes at `off` of a structure; bytes beyond its end read as 0. -/
def bytesAt (l : List Nat) (off len : Nat) : List Nat :=
  (l.drop off ++ List.replicate (off + len) 0).take len

/-- The number in the `len` bytes at `off`. -/
def numAt (l : List Nat) (off len : Nat) : Nat := unle (bytesAt l off len)

/-- The signed number in the `len` bytes at `off`. -/
def intAt (l : List Nat) (off len : Nat) : Int := signed (8 * len) (numAt l off len)

/-- The list padded with zero bytes or cut to `n` bytes. -/
def padTo (n : Nat) (l : List Nat) : List Nat := (l ++ List.replicate n 0).take n

/-- An integer held between two bounds. -/
def clampI (lo hi v : Int) : Int := if v < lo then lo else if hi < v then hi else v

/-- A Bool as a bit. -/
def b2n (b : Bool) : Nat := if b then 1 else 0

/-- The numbers from `a` up, `n` of them. -/
def rangeFrom (a n : Nat) : List Nat := (List.range n).map (· + a)

/-- Replace the element at position `i` of a list by `f` of it. -/
def modAt {α : Type} (l : List α) (i : Nat) (f : α → α) : List α :=
  match l, i with
  | [], _ => []
  | x :: t, 0 => f x :: t
  | x :: t, i + 1 => x :: modAt t i f

/-! ### Halves -/

/-- The other half. -/
def other : Half → Half
  | .A => .B
  | .B => .A

/-- 0 for half A, 1 for half B: bit 0 of a claim (R129). -/
def hbit : Half → Nat
  | .A => 0
  | .B => 1

/-- The half with a number of 1 (A) or 2 (B), as verbs name it (R521). -/
def halfOf : Nat → Option Half
  | 1 => some .A
  | 2 => some .B
  | _ => none

/-- What half `h` holds. -/
def State.hf (s : State) : Half → HalfSt
  | .A => s.halfA
  | .B => s.halfB

/-- The state with what half `h` holds replaced. -/
def State.setHf (s : State) (h : Half) (x : HalfSt) : State :=
  match h with
  | .A => { s with halfA := x }
  | .B => { s with halfB := x }

/-- The state with what half `h` holds changed by `f`. -/
def State.mh (s : State) (h : Half) (f : HalfSt → HalfSt) : State := s.setHf h (f (s.hf h))

/-- The state with both halves changed by `f`. -/
def State.mBoth (s : State) (f : HalfSt → HalfSt) : State :=
  { s with halfA := f s.halfA, halfB := f s.halfB }

/-- Change the tick unit of half `h`. -/
def State.mTck (s : State) (h : Half) (f : TckS → TckS) : State := s.mh h fun x => { x with tck := f x.tck }

/-- Change the twin supervision of half `h`. -/
def State.mTwn (s : State) (h : Half) (f : TwnS → TwnS) : State := s.mh h fun x => { x with twn := f x.twn }

/-- Change the mailbox unit of half `h`. -/
def State.mMbx (s : State) (h : Half) (f : MbxS → MbxS) : State := s.mh h fun x => { x with mbx := f x.mbx }

/-- Port `p` of half `h` (R83). -/
def State.port (s : State) (h : Half) (p : Nat) : PortS := look {} (s.hf h).ports p

/-- Change port `p` of half `h`. -/
def State.mPort (s : State) (h : Half) (p : Nat) (f : PortS → PortS) : State :=
  s.mh h fun x => { x with ports := Machine.upd {} x.ports p f }

/-- The remote at port `p`. -/
def State.rem (s : State) (p : Nat) : Remote := look {} s.rems p

/-- Change the remote at port `p`. -/
def State.mRem (s : State) (p : Nat) (f : Remote → Remote) : State := { s with rems := Machine.upd {} s.rems p f }

/-- Ring `n` of half `h` (R500). -/
def State.ring (s : State) (h : Half) (n : Nat) : RingS := look {} (s.hf h).mbx.rings n

/-- Change ring `n` of half `h`. -/
def State.mRing (s : State) (h : Half) (n : Nat) (f : RingS → RingS) : State :=
  s.mMbx h fun m => { m with rings := Machine.upd {} m.rings n f }

/-- The tick number of half `h` (R48). -/
def State.tick (s : State) (h : Half) : Nat := (s.hf h).tck.tick

/-! ### The half in charge -/

/-- The half in charge: it holds the token and acts in charge (R129, R135, R138). -/
def State.charge (s : State) : Option Half :=
  match s.ref.token with
  | none => none
  | some h => if (s.hf h).twn.acting then some h else none

/-- The twin link is up as half `h` sees it (R140). -/
def State.twinUp (s : State) (h : Half) : Bool := (s.hf h).twn.up

/-- The tick number an event of an island or the shared domain carries: that of the half in charge, else half A's.
(DESIGN CHOICE, unsafe: log 37.) -/
def State.now (s : State) : Nat :=
  match s.charge with
  | some h => s.tick h
  | none => s.tick .A

/-- Half `h` is in tick service as the referee learns it from the alive signal (R132, R134). -/
def State.serving (s : State) (h : Half) : Bool := (s.hf h).twn.service && !decide (h ∈ s.ref.mute)

/-- No half is in tick service (R134). -/
def State.noService (s : State) : Bool := !s.serving .A && !s.serving .B

/-- The halves that a shadow write or a commit of the half in charge reaches (R27, R28). -/
def State.reach (s : State) : List Half :=
  match s.charge with
  | none => []
  | some h => if s.twinUp h then [h, other h] else [h]

/-! ### Registers -/

/-- A number for each block, for the keys of the register file. -/
def blkIdx : Blk → Nat
  | .tck => 0
  | .mbx => 1
  | .twn => 2
  | .nlk => 3
  | .cln => 4
  | .pst => 5
  | .cnp => 6
  | .thm => 7
  | .veh => 8
  | .met => 9
  | .bil => 10
  | .lkt => 11
  | .saf => 12
  | .upd => 13
  | .iox => 14
  | .can => 15
  | .gpio => 16
  | .lsw => 17
  | .rms => 18
  | .pwr => 19
  | .loc => 20

/-- Each half has a block of its own; the islands and the shared I/O domain have one (R11). -/
def perHalf : Blk → Bool
  | .tck | .mbx | .twn | .nlk | .cln | .pst | .cnp | .thm | .veh | .upd | .loc => true
  | _ => false

/-- The offset of a commit block's commit register; the commit-tick register follows it. -/
def commitOff : Blk → Option Nat
  | .tck => some 0x20
  | .twn => some 0x80
  | .nlk => some 0x1400
  | .cln => some 0x30000
  | .pst => some 0x2100
  | .cnp => some 0x6000
  | .thm => some 0x4100
  | .veh => some 0x400
  | .met => some 0x900
  | .bil => some 0x100
  | .lkt => some 0x100
  | .saf => some 0xB00
  | .upd => some 0x40
  | .iox => some 0x200
  | _ => none

/-- The number of block `b` of half `h` among all blocks. -/
def blkKey (b : Blk) (h : Half) : Nat := 2 * blkIdx b + if perHalf b then hbit h else 0

/-- The key of a register word in the register file: each block of each half has its own keys, whatever the offset. -/
def regKey (b : Blk) (h : Half) (off : Nat) : Nat := off * 64 + blkKey b h

/-- The block number and the offset of a key. -/
def keyBlk (k : Nat) : Nat := k % 64
def keyOff (k : Nat) : Nat := k / 64

/-- The reset value of a register word. -/
def resetWord (b : Blk) (h : Half) (off : Nat) : Word := BitVec.ofNat 32 (regInfo b h off).reset

/-- The register word in force. -/
def State.rg (s : State) (b : Blk) (h : Half) (off : Nat) : Word :=
  look (resetWord b h off) s.regs (regKey b h off)

/-- Set a register word. -/
def State.srg (s : State) (b : Blk) (h : Half) (off : Nat) (v : Word) : State :=
  { s with regs := put (resetWord b h off) s.regs (regKey b h off) v }

/-- The field `hi`:`lo` of a register word in force. -/
def State.rf (s : State) (b : Blk) (h : Half) (off hi lo : Nat) : Nat := fld (s.rg b h off) hi lo

/-- Bit `i` of a register word in force. -/
def State.rb (s : State) (b : Blk) (h : Half) (off i : Nat) : Bool := bitAt (s.rg b h off) i

/-- Set the field `hi`:`lo` of a register word. -/
def State.srf (s : State) (b : Blk) (h : Half) (off hi lo v : Nat) : State :=
  s.srg b h off (setFld (s.rg b h off) hi lo v)

/-- Count `n` more in a 32-bit counter that saturates (R127, R162). -/
def State.bump (s : State) (b : Blk) (h : Half) (off n : Nat) : State :=
  s.srg b h off (BitVec.ofNat 32 (min 0xFFFFFFFF ((s.rg b h off).toNat + n)))

/-- The shadow value of a register word: what was written and not yet in force, else the value in force (R21). -/
def State.shadowOf (s : State) (b : Blk) (h : Half) (off : Nat) : Word :=
  match look none s.shadow (regKey b h off) with
  | some v => v
  | none => s.rg b h off

/-- Write a shadow word in the halves the half in charge reaches (R25, R27).
(DESIGN CHOICE, unsafe: log 9.) -/
def State.writeShadow (s : State) (b : Blk) (off : Nat) (v : Word) : State :=
  (if perHalf b then s.reach else [.A]).foldl
    (fun s h => { s with shadow := put none s.shadow (regKey b h off) (some v) }) s

/-- The dynamic part of block `b` of half `h`. -/
def State.blk (s : State) (b : Blk) (h : Half) : BlockDyn := look {} s.blocks (blkKey b h)

/-- Change the dynamic part of block `b` of half `h`. -/
def State.mBlk (s : State) (b : Blk) (h : Half) (f : BlockDyn → BlockDyn) : State :=
  { s with blocks := Machine.upd {} s.blocks (blkKey b h) f }

/-- Arm one block's commit (R21): its snapshot is taken at the next offset of 46 us. A COMMIT while STATE is 0b01 joins the evaluation under way (R22, R652). -/
def BlockDyn.armed (d : BlockDyn) (role : Nat) (w : Option Waiter) : BlockDyn :=
  { d with st := 1, roles := if role ∈ d.roles then d.roles else d.roles ++ [role], waiters := d.waiters ++ w.toList }

/-- Arm a commit of block `b` under `role` (R21, R22, R652): STATE becomes 0b01 in every half reached; a command that
waits on the evaluation is kept in the half in charge (R26).
(DEDUCED, unsafe: log 91.) -/
def State.arm (s : State) (b : Blk) (role : Nat) (w : Option Waiter) : State :=
  (if perHalf b then s.reach else [.A]).foldl
    (fun s h => s.mBlk b h fun d => d.armed role (if !perHalf b || s.charge == some h then w else none)) s

/-! ### Events (R526, R527) -/

/-- Append a record to the records produced at half `h`, under its next EVSEQ. -/
def State.putEvent (s : State) (h : Half) (r : EventRec) : State :=
  s.mMbx h fun m =>
    { m with events := m.events ++ [{ r with seq := m.evseq }], evseq := (m.evseq + 1) % 2 ^ 32 }

/-- Raise an event in half `h`; the other half has it too while the twin link is up (R527). -/
def State.ev (s : State) (h : Half) (sev code : Nat) (detail : List Nat) : State :=
  let r : EventRec := { seq := 0, origin := hbit h, sev := sev, code := code, tick := s.tick h, detail := padTo 16 detail }
  let s' := s.putEvent h r
  if s.twinUp h then s'.putEvent (other h) r else s'

/-- Raise an event of an island or of the shared I/O domain: each half delivers it (R527). -/
def State.evShared (s : State) (origin sev code : Nat) (detail : List Nat) : State :=
  let r : EventRec := { seq := 0, origin := origin, sev := sev, code := code, tick := s.now, detail := padTo 16 detail }
  (s.putEvent .A r).putEvent .B r

/-! ### Free values -/

/-- The `k`-th free value from here.
(DESIGN CHOICE, safe: log 5.) -/
def State.freeVal (s : State) (k : Nat) : Nat := Config.freeNat (s.free + k)

/-- `n` free values are drawn.
(DESIGN CHOICE, safe: log 5.) -/
def State.drew (s : State) (n : Nat) : State := { s with free := s.free + n }

/-! ### Roles, sessions and completions (R506, R509, R514) -/

/-- COMMISSIONING of half `h`: no Installer credential is set (R514). -/
def State.commissioning (s : State) (h : Half) : Bool := s.rg .mbx h 0x18 == 0xFFFFFFFF

/-- MBX_RCFG of ring `n` (R503). -/
def State.rcfg (s : State) (h : Half) (n : Nat) : Word := s.rg .mbx h (0x1000 + 0x40 * n)

/-- The role index of R418 under which an executable command of ring `n` acts; none: refused with ST_ROLE (R509). -/
def State.ringRole (s : State) (h : Half) (n : Nat) : Option Nat :=
  if 28 ≤ n ∧ n ≤ 31 then some (s.rf .mbx h 0 18 16)
  else
    match (s.ring h n).session with
    | some x => some x.role
    | none =>
      if s.commissioning h && (!bitAt (s.rcfg h n) 30 || bitAt (s.rcfg h n) 29) then some 3
      else if s.rb .mbx h 0 30 then some 0 else none

/-- Two commands are the same one: half, ring and CTAG agree. -/
def sameCmd (a b : Org) : Bool := a.half == b.half && a.ring == b.ring && a.ctag == b.ctag

/-- The command of `o` has started at its half (R501), executing at `x` where a half is in charge. -/
def State.start (s : State) (o : Org) (opc role : Nat) (x : Option Half) : State :=
  s.mMbx o.half fun m =>
    if m.started.any (fun c => sameCmd c.org o) then
      { m with started := m.started.map fun c => if sameCmd c.org o then { c with exec := x, role := role } else c }
    else { m with started := m.started ++ [{ org := o, opc := opc, role := role, cseq := 0, exec := x, since := s.tick o.half }] }

/-- Produce a completion of the command of `o` at executing half `x`, with TICK `t` (R501, R506); a final one ends the command. A payload above
24 bytes that exceeds BOUT_CAP is left out, with ST_BAD_LENGTH and the length (R507). A command that has ended gets no other. -/
def State.completeAt (s : State) (o : Org) (x : Half) (opc status : Nat) (final : Bool) (payload : List Nat) (t : Nat) : State :=
  s.mMbx o.half fun m =>
    match m.started.find? fun c => sameCmd c.org o with
    | none => m
    | some c =>
      let big := decide (24 < payload.length ∧ c.cap < payload.length)
      { m with
        compl := m.compl ++ [{ half := o.half, ring := o.ring, ctag := o.ctag, opc := opc, status := if big then 0x11 else status, final := final,
                               exec := x, tick := t, payload := if big then [] else payload, cseq := c.cseq, len := payload.length,
                               sk := (look {} m.rings o.ring).session.map (·.sk) }]
        started := if final then m.started.filter (fun c => !sameCmd c.org o)
                   else m.started.map fun c => if sameCmd c.org o then { c with first := true } else c }

/-- A completion produced in the present tick. -/
def State.complete (s : State) (o : Org) (x : Half) (opc status : Nat) (final : Bool) (payload : List Nat) : State :=
  s.completeAt o x opc status final payload (s.tick x)

/-- The status codes of R519. -/
def stOk : Nat := 0
def stPending : Nat := 1
def stSuperseded : Nat := 2
def stBadOpcode : Nat := 0x10
def stBadLength : Nat := 0x11
def stRange : Nat := 0x12
def stPairMismatch : Nat := 0x13
def stRole : Nat := 0x20
def stKeyOrphaned : Nat := 0x21
def stKeyEngine : Nat := 0x22
def stNotInCharge : Nat := 0x30
def stClaimLost : Nat := 0x31
def stTickBudget : Nat := 0x40
def stTempWriteHeld : Nat := 0x50
def stSafetyInhibit : Nat := 0x60

/-- The role indices of R418. -/
def rPublic : Nat := 0
def rOperator : Nat := 1
def rBilling : Nat := 2
def rInstaller : Nat := 3
def rLegal : Nat := 4
def rVendor : Nat := 5

/-- Any role, and any role but Public. -/
def rAny : List Nat := [0, 1, 2, 3, 4, 5]
def rNotPublic : List Nat := [1, 2, 3, 4, 5]

/-- In THERMAL_HOLD the mailboxes accept only class 0x01 reads, class 0x08 and the general read verbs (R332). -/
def State.inhibited (s : State) (h : Half) (opc : Nat) : Bool :=
  (s.hf h).thm.hold && opc / 256 != 8 && opc != 0x0102 && opc % 256 != 0xF0 && opc % 256 != 0xF1 && opc % 256 != 0xF6

/-- While the module runs from VHOLD, Locket starts no new transaction (R629): a command that asks for one waits.
(DESIGN CHOICE, safe: log 127.) -/
def State.lktWaits (s : State) (opc : Nat) : Bool :=
  s.rb .pwr .A 0 2 && decide (opc ∈ [0x0C01, 0x0C02, 0x0C03, 0x0C04, 0x0C05, 0x0C08, 0x0C09])

/-- A command of `o` runs at half `x` under the role of its ring, or is refused: HALF not 0 (R504), the role (R509,
R521). `body` gets the state with the command started, the executing half and the role.
(DESIGN CHOICE, unsafe: log 19.) -/
def State.runAt (s : State) (o : Org) (x : Half) (opc : Nat) (roles : List Nat) (hbOk : Bool)
    (body : State → Nat → State) : State :=
  if s.inhibited o.half opc then (s.start o opc 0 (some x)).complete o x opc stSafetyInhibit true []
  else
  match s.ringRole o.half o.ring with
  | none => (s.start o opc 0 (some x)).complete o x opc stRole true []
  | some r =>
    if o.hb ≠ 0 && !hbOk then (s.start o opc r (some x)).complete o x opc stRange true []
    else if r ∈ roles then body (s.start o opc r (some x)) r
    else (s.start o opc r (some x)).complete o x opc stRole true []

/-- A verb that executes at the half whose ring received it (R515). -/
def State.verbHere (s : State) (o : Org) (opc : Nat) (roles : List Nat) (body : State → Nat → State) : State :=
  s.runAt o o.half opc roles false body

/-- A handover has reached step 2: the giving half starts no mailbox command (R144). -/
def State.holding (s : State) : Bool :=
  match s.ho with
  | some x => decide (1 ≤ x.phase)
  | none => false

/-- A command that executes at the half in charge (R515). While no half is in charge, or while a handover holds new commands
(R144), it waits; a half that cannot forward it completes it with ST_NOT_IN_CHARGE (R139). `hbOk`: the verb allows HALF (R504). -/
def State.verbG (s : State) (o : Org) (opc : Nat) (roles : List Nat) (hbOk : Bool) (body : State → Half → Nat → State) : State :=
  if s.inhibited o.half opc then (s.start o opc 0 none).complete o o.half opc stSafetyInhibit true []
  else if s.lktWaits opc then s.start o opc 0 none
  else
  match s.charge, s.holding with
  | some x, false =>
    if x = o.half || s.twinUp o.half then s.runAt o x opc roles hbOk fun s r => body s x r
    else (s.start o opc 0 none).complete o o.half opc stNotInCharge true []
  | _, _ => s.start o opc 0 none

/-- A verb that executes at the half in charge and does not allow HALF. -/
def State.verb (s : State) (o : Org) (opc : Nat) (roles : List Nat) (body : State → Half → Nat → State) : State :=
  s.verbG o opc roles false body

/-! ### Flash writes while the temperature holds them (R333) -/

/-- STATE of PWR_STATUS (R641). -/
def State.pstate (s : State) : Nat := s.rf .pwr .A 0x08 31 29

/-- PWR_FEED.HOLDUP: the module runs from VHOLD (R629). -/
def State.holdup (s : State) : Bool := s.rb .pwr .A 0 2

/-- A flash write of `n` bytes while writing is held, by temperature or in hold-up (R629), goes to the DRAM buffer.
(DESIGN CHOICE, unsafe: log 36.) -/
def State.flashWrite (s : State) (h : Half) (n : Nat) : State :=
  if (s.hf h).thm.flashHold || s.holdup then s.mh h fun x => { x with thm := { x.thm with buf := x.thm.buf + n } } else s

/-- A write of `n` bytes would overflow the 64 MiB buffer. -/
def State.flashFull (s : State) (h : Half) (n : Nat) : Bool := (s.hf h).thm.flashHold && decide (67108864 < (s.hf h).thm.buf + n)

/-- The buffer stands above 56 MiB: new log records are counted and discarded. -/
def State.logsHeld (s : State) (h : Half) : Bool := (s.hf h).thm.flashHold && decide (58720256 < (s.hf h).thm.buf)

/-! ### Boot records (R608) -/

/-- The boot record of a part (R608).
(DESIGN CHOICE, unsafe: log 81.) -/
def State.brec (s : State) (k : Nat) : BootRec := look {} s.upd.recs k

/-- A bank of a record. -/
def BootRec.bank (r : BootRec) (i : Nat) : BankS := if i = 0 then r.b0 else r.b1

/-- The bank with a state, if any. -/
def BootRec.find (r : BootRec) (st : Nat) : Option Nat := [0, 1].find? fun i => (r.bank i).st == st

/-- The image in force: that of the bank that runs, else of the ACTIVE bank. -/
def BootRec.force (r : BootRec) : ImgInfo := (r.bank (r.run.getD ((r.find 3).getD 0))).img

/-! ### Staging (R17-R19) -/

/-- Staging entry `i` of half `h`. -/
def State.stage (s : State) (h : Half) (i : Nat) : StageE := look {} (s.hf h).stg i

/-- Write staging entry `i` of half `h` into the receiving bank, stamped with the tick number (R17, R18).
(DESIGN CHOICE, unsafe: log 95.) -/
def State.stageWrite (s : State) (h : Half) (i : Nat) (v : Int) : State :=
  if i < 270 then
    s.mh h fun x =>
      { x with stg := Machine.upd {} x.stg i fun e => { e with pend := some v, pendStamp := x.tck.tick } }
  else s

/-- The maximum age of a staging entry in ticks (R19). -/
def stageAge (i : Nat) : Nat := if i < 258 then 100 else 1000

end Sys2Proof.Machine
end

