-- ==== Sys2Proof/Machine/Health.lean ====
section
/-!
DEFINITION. The health word, penalties, UNHEALTHY, claims, the referee's grants and releases (spec 04).
-/

namespace Sys2Proof.Machine

/-- AUTH is 1 on every enabled port of half `h` (R101). -/
def State.authAll (s : State) (h : Half) : Bool :=
  (List.range 80).all fun p => !s.rb .nlk h (p * 0x40) 31 || s.rb .nlk h (p * 0x40) 30

/-- Both feeds are OK in PWR_FEED (R155, R156). -/
def State.feedsOk (s : State) : Bool := s.rb .pwr .A 0 9 && s.rb .pwr .A 0 8

/-- SCORE of half `h` (R153). -/
def State.score (s : State) (h : Half) : Nat :=
  if (s.hf h).twn.unhealthy then 0 else 255 - min 255 (s.hf h).twn.pens.sum

/-- The shadow rotation and the digest comparison of half `h` run (R147, R149, R159). -/
def State.selftest (s : State) (h : Half) : Bool :=
  s.rb .twn h 0 29 && s.twinUp h && ((s.hf h).twn.service || (s.hf h).twn.rejoin)

/-- The health word of half `h` (R152); what a half that has not booted does not run reads 0. -/
def State.healthWord (s : State) (h : Half) : Nat :=
  let t := (s.hf h).twn
  s.score h * 2 ^ 24 + b2n t.cover * 2 ^ 23 + b2n (s.ref.token == some h) * 2 ^ 22 + b2n t.up * 2 ^ 21
    + b2n ((s.hf h).tck.clksel == 0 && (s.hf h).tck.locks == 7) * 2 ^ 20 + b2n s.feedsOk * 2 ^ 19 + b2n (s.selftest h) * 2 ^ 18
    + b2n (t.booted && s.rb .twn h 0 28) * 2 ^ 17 + b2n (t.booted && s.authAll h) * 2 ^ 16 + b2n t.unhealthy * 2 ^ 15
    + b2n t.clean * 2 ^ 14 + t.cause % 256

/-- Event 0x0301 of half `h` (R152, R528). -/
def State.healthEv (s : State) (h : Half) (cause : Nat) : State :=
  s.ev h 1 0x0301 (le 4 (s.healthWord h) ++ [cause])

/-- Half `h` becomes UNHEALTHY with `cause` (R154): it leaves tick service (R134), raises event 0x0301 and, except under
R69, resets after 100 ms. A half that already is UNHEALTHY does not become so again. -/
def State.goUnhealthy (s : State) (h : Half) (cause : Nat) : State :=
  if (s.hf h).twn.unhealthy then s
  else
    let now := s.tick h
    (s.mTwn h fun t =>
      { t with
        unhealthy := true, cause := cause, service := false, svcNext := false, digMatch := 0,
        uhTimes := t.uhTimes.filter (fun x => decide (now < x + 72000000)) ++ [now],
        resetDue := if cause = 0x81 then none else some (now + 2000) }).healthEv h cause

/-- Half `h` takes a penalty of R153, held as a separate amount, and raises event 0x0301 unless one was raised within
100 ms (R152). -/
def State.penalty (s : State) (h : Half) (amt cause : Nat) : State :=
  let now := s.tick h
  let quiet : Bool :=
    match (s.hf h).twn.penEvTick with
    | some t => decide (now < t + 2000)
    | none => false
  let s := s.mTwn h fun t =>
    { t with pens := t.pens ++ [amt], cause := if t.unhealthy then t.cause else cause,
             penEvTick := if quiet then t.penEvTick else some now,
             penHeld := if quiet then some cause else none }
  if quiet then s else s.healthEv h cause

/-- The stage penalty of R153, once in each tick. -/
def State.stagePenalty (s : State) (h : Half) (cause : Nat) : State :=
  if (s.hf h).twn.stagePenTick = some (s.tick h) then s
  else (s.mTwn h fun t => { t with stagePenTick := some (s.tick h) }).penalty h 32 cause

/-- A stage of R78 other than a lane misses its deadline in half `h`: the penalty of R153 and, for the stages whose row of R78 names it, STAGE_OVR (R81). The latch, a
downlink deadline and the snapshot (`r79`) make the half UNHEALTHY when they are missed in 2 consecutive ticks (R79).
(DEDUCED, unsafe: log 10.) -/
def State.stageMissed (s : State) (h : Half) (r79 : Bool) : State :=
  let now := s.tick h
  let again : Bool := r79 && decide ((s.hf h).tck.stageMiss.map (· + 1) = some now)
  let s := if r79 then s.srg .tck h 0x08 (s.rg .tck h 0x08 ||| BitVec.ofNat 32 (2 ^ 22)) else s
  let s := if r79 then s.mTck h fun t => { t with stageMiss := some now } else s
  let s := s.stagePenalty h 0x05
  if again then s.goUnhealthy h 0x83 else s

/-- The recommended conditions of R644 that the device observes beside the feeds hold: VBAT, the Tj of each half, the lid temperature. -/
def State.recommended (s : State) : Bool :=
  decide (2500 ≤ 20 * s.rf .pwr .A 8 7 0 ∧ 20 * s.rf .pwr .A 8 7 0 ≤ 3600)
    && decide (-4000 ≤ s.halfA.thm.tj ∧ s.halfA.thm.tj ≤ 10500) && decide (-4000 ≤ s.halfB.thm.tj ∧ s.halfB.thm.tj ≤ 10500)
    && decide (-4000 ≤ s.therm.pkg ∧ s.therm.pkg ≤ 9000)

/-- The coverage flag of R47: the conditions of R46 that half `h` can observe hold, and TEST_EN is 0 (R165). -/
def State.coverNow (s : State) (h : Half) : Bool :=
  s.feedsOk && s.halfA.twn.service && s.halfB.twn.service && !s.halfA.twn.unhealthy && !s.halfB.twn.unhealthy
    && !s.halfA.twn.held && !s.halfB.twn.held && s.rb .twn h 0 29 && s.rb .twn h 0 28 && s.authAll h
    && s.twinUp h && !s.rb .twn .A 0 27 && !s.rb .twn .B 0 27 && s.recommended

/-- Clean health of R143, the interval apart. -/
def State.cleanNow (s : State) (h : Half) : Bool :=
  decide (s.rf .twn h 0 15 8 ≤ s.score h) && (s.hf h).twn.cover && s.twinUp h && decide (0 < (s.hf h).twn.digMatch)
    && (s.hf h).tck.clksel == 0

/-- The CAUSE of a change of COVER, and of CLEAN (R152, R529): that of UNHEALTHY, or of the last penalty where the score breaks clean health, else 0x00.
(DESIGN CHOICE, unsafe: log 107.) -/
def State.coverCause (s : State) (h : Half) : Nat := if (s.hf h).twn.unhealthy then (s.hf h).twn.cause else 0

/-- The CAUSE of a change of CLEAN.
(DESIGN CHOICE, unsafe: log 107.) -/
def State.cleanCause (s : State) (h : Half) : Nat := if s.score h < s.rf .twn h 0 15 8 then (s.hf h).twn.cause else 0

/-- COVER and CLEAN are renewed; a change raises event 0x0301 (R152). A penalty event held back is raised after 100 ms. -/
def State.renewHealth (s : State) (h : Half) : State :=
  let c := s.coverNow h
  let s1 := if c = (s.hf h).twn.cover then s
    else (s.mTwn h fun t => { t with cover := c }).healthEv h (s.coverCause h)
  let d := s1.cleanNow h
  let s2 := if d = (s1.hf h).twn.clean then s1
    else (s1.mTwn h fun t => { t with clean := d, cleanSince := s1.tick h }).healthEv h (s1.cleanCause h)
  match (s2.hf h).twn.penHeld, (s2.hf h).twn.penEvTick with
  | some cause, some t =>
    if t + 2000 ≤ s2.tick h then
      (s2.mTwn h fun x => { x with penHeld := none, penEvTick := some (s2.tick h) }).healthEv h cause
    else s2
  | _, _ => s2

/-- Event 0x0101: the time state changes (R59, R62, R528). -/
def State.setTstate (s : State) (h : Half) (n : Nat) : State :=
  let old := (s.hf h).tck.tstate
  if old = n then s
  else (s.mTck h fun t => { t with tstate := n }).ev h 1 0x0101
    ([old, n, 0, 0] ++ leInt 4 (clampI (-2147483648) 2147483647 (s.hf h).tck.theta))

/-! ### Claims and the referee -/

/-- Event 0x0302 of half `h`: 1 grant, 2 release, 3 step-down, 4 refusal (R528). -/
def State.claimEv (s : State) (h : Half) (kind cause : Nat) : State :=
  s.ev h 1 0x0302 ([kind, cause] ++ le 2 (s.hf h).twn.claim ++ le 2 (s.hf (other h)).twn.claim ++ le 2 s.ref.e)

/-- The base claim of a half (R129). -/
def baseClaim (h : Half) : Nat := hbit h

/-- The requester is ready (R131, first row). -/
def State.raiseReady (s : State) (h : Half) : Bool :=
  let x := s.hf h
  x.twn.booted && !x.twn.held && s.pwr.charged && !x.thm.hold && decide (x.tck.clksel ≤ 1) && ((s.noService && x.tck.tickSet) || x.twn.service)

/-- The first condition of R131 that fails for half `h`, as the CAUSE of R529; none: the referee grants. `ret` asks for a
return; `freed` counts the token as released (R142). -/
def State.raiseRefusal (s : State) (h : Half) (ret freed : Bool) : Option Nat :=
  if !s.raiseReady h then some 0x17
  else if (s.hf h).twn.unhealthy then some 0x18
  else if ret && decide (s.score h < s.rf .twn h 0 15 8) then some 0x18
  else if (s.hf h).twn.gen ≠ s.ref.gen then some 0x19
  else if !ret && !freed && s.ref.token.isSome then some 0x1A
  else if 0x7FFF ≤ s.ref.e then some 0x1A
  else none

/-- Neither half has sent a tick frame in the 16 ticks before, as half `h` that asks counts them (R133). -/
def State.silent16 (s : State) (h : Half) : Bool :=
  match s.ref.sent with
  | none => true
  | some t => decide (t + 16 < s.tick h)

/-- Charge passes from half `x` by the handover that ends at this edge (R132, R144). -/
def State.planned (s : State) (x : Half) : Bool :=
  match s.ho with
  | some y => y.phase == 3 && y.dst == other x && s.ref.token == some y.dst
  | none => false

/-- The commands executing at half `x` end with ST_CLAIM_LOST (R139); what waited on a commit there waits no more. In a planned handover an activation of half
firmware goes on, to end with its trial (R617, R618). -/
def State.loseCommands (s : State) (x : Half) : State :=
  let goes (c : Started) : Bool := s.planned x && c.opc == 0x0E04 && match s.upd.act with
    | some a => decide (a.part ≤ 1) && sameCmd a.org c.org
    | none => false
  let lost := (s.halfA.mbx.started ++ s.halfB.mbx.started).filter fun c => c.exec == some x && !goes c
  let s := lost.foldl (fun s c => s.complete c.org x c.opc stClaimLost true []) s
  let keep (w : Waiter) : Bool := !lost.any fun c => sameCmd c.org w.org
  ({ s with blocks := s.blocks.map fun e => (e.1, { e.2 with waiters := e.2.waiters.filter keep }) } : State).mh x fun y => { y with cln := { y.cln with stores := [] } }

/-- Half `h` steps down (R138, R139): it acts in charge no more, keeps its claim and logs the event. -/
def State.stepDown (s : State) (h : Half) (cause : Nat) : State :=
  if (s.hf h).twn.acting then
    (((s.mTwn h fun t => { t with acting := false }).bump .twn h 0x28 1).loseCommands h).claimEv h 3 cause
  else s

/-- Before a grant to half `h`, after 16 silent ticks the referee sets E to 0 and every half holds its base claim (R129, R133). -/
def State.rebase (s : State) (h : Half) : State :=
  if s.silent16 h then
    let s := { s with ref := { s.ref with e := 0, lastA := 0, lastB := 1 } }
    (s.mTwn .A fun t => { t with claim := 0 }).mTwn .B fun t => { t with claim := 1 }
  else s

/-- The referee grants half `h` (R130, R133): E rises, the half takes its new claim, the token and charge; where no half is in
tick service it enters tick service (R134). The former holder steps down (R138). -/
def State.grantTo (s : State) (h : Half) : State :=
  let first := s.noService
  let s := s.rebase h
  let e := s.ref.e + 1
  let claim := 2 * e + hbit h
  let s := { s with ref := { s.ref with token := some h, e := e, freeSig := none, rel := none, relNoSucc := false,
                                        reqs := s.ref.reqs.filter (fun r => r.half != h), ports := 0,
                                        lastA := if h = Half.A then claim else s.ref.lastA,
                                        lastB := if h = Half.B then claim else s.ref.lastB } }
  let s := s.stepDown (other h) 0x15
  let s := s.mTwn h fun t => { t with claim := claim, acting := true, service := t.service || first }
  let s := s.claimEv h 1 0
  if 0x7F00 ≤ e then s.ev h 1 0x0303 (le 2 e) else s

/-- Half `h` asks for a takeover (R130, R131): refused and logged, or recorded for its effective edge. A rebase that is due comes first (R133). -/
def State.requestRaise (s : State) (h : Half) (early : Bool) : State :=
  match (s.rebase h).raiseRefusal h false false with
  | some cause => s.claimEv h 4 cause
  | none =>
    { s with ref := { s.ref with
        reqs := s.ref.reqs.filter (fun r => r.half != h) ++ [{ half := h, edge := s.tick h + if early then 1 else 2 }] } }

/-- The handover under way is abandoned (R144): the giving half keeps charge and resumes its queue.
(DESIGN CHOICE, unsafe: log 23.) -/
def State.abandonHandover (s : State) : State :=
  match s.ho with
  | none => s
  | some x =>
    let g := other x.dst
    let edge := match s.ref.rel with | some r => r.edge | none => 0
    let s := { s with ho := none, ref := { s.ref with rel := none } }
    let s := s.mTwn x.dst fun t => { t with cleanSince := (s.hf x.dst).tck.tick, hoReq := false }
    let s := s.ev g 0 0x0304 ([2, 0, 0, 0, 0, 0, 0, 0] ++ le 8 edge)
    match x.org with
    | some o => s.complete o g 0x0301 0x0304 true (le 8 (s.tick g))
    | none => s

/-- The referee releases the token of half `x` for `cause` and signals TOKEN_FREE to the other half (R132); a named
handover lapses. -/
def State.releaseToken (s : State) (x : Half) (cause : Nat) : State :=
  let s := s.abandonHandover
  let s := { s with ref := { s.ref with token := none, freeSig := some (other x), rel := none, relNoSucc := false, ports := 0 } }
  let s := s.claimEv (other x) 2 cause
  s.stepDown x 0x15

/-- The perturbation running in half `h` with KIND `k` that covers `target`: its magnitude (R163, R164). -/
def pertMag (s : State) (h : Half) (k target : Nat) : Option Nat :=
  if (s.hf h).twn.pertActive && s.rf .twn h 0x40 29 27 == k &&
      (s.rf .twn h 0x40 23 16 == 0xFF || s.rf .twn h 0x40 23 16 == target) then some (s.rf .twn h 0x44 15 0)
  else none

/-! ### Boot records (R608, R626) -/

/-- Change the update state. -/
def State.mUpd (s : State) (f : UpdS → UpdS) : State := { s with upd := f s.upd }

/-- Change the boot record of a part. -/
def State.mRec (s : State) (k : Nat) (f : BootRec → BootRec) : State := s.mUpd fun u => { u with recs := Machine.upd {} u.recs k f }

def BootRec.setBank (r : BootRec) (i : Nat) (b : BankS) : BootRec := if i = 0 then { r with b0 := b } else { r with b1 := b }

/-- Event 0x0E01: a bank changes its state (R626); the part is as in R455. -/
def State.bankEv (s : State) (k i : Nat) : State :=
  let b := (s.brec k).bank i
  let part := if k < 4 then k else k - 4
  let d := padTo 16 ([part, i, b.st, b.img.release] ++ le 4 b.img.build)
  if k % 4 < 2 then s.ev (if k % 4 = 0 then .A else .B) 0 0x0E01 d else s.evShared (k % 4) 0 0x0E01 d

/-- A bank takes a state. -/
def State.bankTo (s : State) (k i st : Nat) : State := (s.mRec k fun r => r.setBank i { r.bank i with st := st }).bankEv k i

/-- The bank that takes an image: not in force, and not the ACTIVE bank a trial falls back to (R610, step 7).
(DESIGN CHOICE, unsafe: log 82.) -/
def BootRec.target (r : BootRec) : Option Nat :=
  [0, 1].find? fun i => r.run != some i && (r.bank i).st != 3 && (r.bank i).st != 2

/-- A half that rejoins takes every STAGED image of the half in charge (R613); a bank that changes is reported (R626). -/
def State.takeStaged (s : State) (h : Half) : State :=
  [hbit h, 4 + hbit h].foldl (fun s k =>
    let o := s.brec (k / 4 * 4 + hbit (other h))
    match (o.find 1).map o.bank, (s.brec k).target with
    | some b, some i => if (s.brec k).bank i = b then s else (s.mRec k fun r => r.setBank i b).bankEv k i
    | _, _ => s) s

/-- A boot record at the start of its part: no bank runs, and no check has failed yet. -/
def BootRec.fresh (r : BootRec) : BootRec := { r with run := none, b0 := { r.b0 with bad := false }, b1 := { r.b1 with bad := false } }

/-- The part of a boot record starts anew: its bank is chosen again (R608), and the clean time of its trial starts again (R617). -/
def State.partStart (s : State) (k : Nat) : State :=
  (s.mRec k BootRec.fresh).mUpd fun u => { u with act := u.act.map fun a => if a.part = k ∧ 2 ≤ k then { a with clean := s.now } else a }

end Sys2Proof.Machine
end

