-- ==== Sys2Proof/Machine/Arch.lean ====
section
/-!
DEFINITION. Staging, owner writes and their mirror, commit snapshots, the customer partition (spec 01).
-/

namespace Sys2Proof.Machine

/-! ### Points (R33-R37) -/

/-- The class of a point index (R34); none: the range belongs to no class of this edition.
(DESIGN CHOICE, unsafe: log 17.) -/
def classOf (idx : Nat) : Option Nat :=
  if idx < 0x00400000 then some 1
  else if idx < 0x00600000 then some 2
  else if idx < 0x00800000 then some 3
  else if idx < 0x00A00000 then some 4
  else if idx < 0x01200000 then some 5
  else if idx < 0x01600000 then some 6
  else if idx < 0x01800000 then some 7
  else if idx < 0x01900000 then some 8
  else if idx < 0x01A00000 then some 9
  else if idx < 0x01C00000 then some 10
  else none

/-- The point ID of an index of a class (R33). -/
def pointId (cls idx : Nat) : Nat := cls * 2 ^ 25 + idx

/-- The class is kept in flash (R39). -/
def flashKept (cls : Nat) : Bool := decide (4 ≤ cls ∧ cls ≤ 10)

/-- The rights of a class that R418 gives: the roles that may read, as role bits. -/
def classRd (cls : Nat) : Nat :=
  match cls with
  | 1 | 3 | 4 | 5 => 0x3E
  | 2 => 0x3A
  | 6 => 0x36
  | 7 => 0x3F
  | 8 => 0x1E
  | 9 => 0x16
  | 10 => 0x3A
  | _ => 0

/-- The roles that may write a point of a class, as role bits (R418). -/
def classWr (cls : Nat) : Nat := if cls = 2 then 0x2A else 0

/-- Write a value to the point at `idx` of half `h`: WSEQ counts, STAMP takes the tick (R36); a class kept in flash at each write writes its slot (R39, R333). -/
def State.writePoint (s : State) (h : Half) (idx owner typ : Nat) (v : PVal) (pend : Bool) : State :=
  let cls := (classOf idx).getD 0
  let s := if 5 ≤ cls && flashKept cls then s.flashWrite h 128 else s
  s.mh h fun x =>
    let old := look none x.pts idx
    let slot : Slot := match old with
      | some p => { p with typ := typ, valid := true, stale := false, owner := owner, stamp := x.tck.tick,
                           wseq := (p.wseq + 1) % 2 ^ 32, val := v, mirrorPending := pend, restoring := false }
      | none => { typ := typ, owner := owner, stamp := x.tck.tick, wseq := 1, rd := classRd cls, wr := classWr cls, val := v,
                  mirrorPending := pend }
    { x with pts := put none x.pts idx (some slot),
             mirOut := if pend then x.mirOut ++ [{ idx := idx, slot := slot }] else x.mirOut }

/-- An owner's write (R37): in the half in charge, and on its way to the other half. -/
def State.ownerWrite (s : State) (idx owner typ : Nat) (v : PVal) : State :=
  match s.charge, classOf idx with
  | some h, some _ => s.writePoint h idx owner typ v true
  | _, _ => s

/-- The owner may write points of the class itself (R39): classes 0x07 and 0x09 only the billing engine (subsystem 11 of R11), 0x08 and 0x0A only a commit. -/
def ownerMay (owner cls : Nat) : Bool :=
  match cls with
  | 7 | 9 => owner == 11
  | 8 | 10 => false
  | _ => true

/-- POINT_OWNER_WRITE (R37, R39). -/
def execPointOwnerWrite (idx owner typ : Nat) (v : PVal) (s : State) : Out :=
  .next (if decide (1 ≤ typ ∧ typ ≤ 7) && ownerMay owner ((classOf idx).getD 0) then s.ownerWrite idx owner typ v else s)

/-- The first copy not yet applied is applied. -/
def markApplied : List MirrorCopy → List MirrorCopy
  | [] => []
  | c :: t => if c.applied then c :: markApplied t else { c with applied := true } :: t

/-- MIRROR_COPY_RECEIVED (R37): the copy carries value, type and count; its flag MIRROR_PENDING belongs to the writing half. -/
def execMirrorCopyReceived (h : Half) (s : State) : Out :=
  match (s.hf (other h)).mirOut.find? (fun c => !c.applied) with
  | none => .next s
  | some c =>
    if s.twinUp h then
      let s := if (match classOf c.idx with | some k => decide (5 ≤ k) && flashKept k | none => false) then s.flashWrite h 128 else s
      .next ((s.mh (other h) fun x => { x with mirOut := markApplied x.mirOut }).mh h fun x =>
        { x with pts := put none x.pts c.idx (some { c.slot with mirrorPending := false }) })
    else .next s

/-- MIRROR_ACK (R37): MIRROR_PENDING is cleared once no copy of the point is unacknowledged. -/
def execMirrorAck (h : Half) (s : State) : Out :=
  match (s.hf h).mirOut with
  | [] => .next s
  | c :: t =>
    if !c.applied then .next s
    else
      .next (s.mh h fun x =>
        { x with mirOut := t,
                 pts := if t.any (fun d => d.idx = c.idx) then x.pts else
                   match look none x.pts c.idx with
                   | some p => put none x.pts c.idx (some { p with mirrorPending := false })
                   | none => x.pts })

/-! ### Staging (R17-R19) -/

/-- STAGING_WRITE (R17, R18). -/
def execStagingWrite (h : Half) (i : Nat) (v : Int) (s : State) : Out := .next (s.stageWrite h i v)

/-- Event 0x0004 (R19, R528). -/
def stageEv (s : State) (h : Half) (i : Nat) (stale : Bool) : State := s.ev h 1 0x0004 (le 2 i ++ [b2n stale])

/-- STAGING_ENTRY_STALE (R19): the entry has not been rewritten for longer than its maximum age.
(DESIGN CHOICE, unsafe: log 95.) -/
def execStagingEntryStale (h : Half) (i : Nat) (s : State) : Out :=
  let e := s.stage h i
  if i < 270 && e.written && !e.stale && e.pend.isNone && decide (e.stamp + stageAge i < s.tick h) then
    .next (stageEv (s.mh h fun x => { x with stg := Machine.upd {} x.stg i fun e => { e with stale := true } }) h i true)
  else .next s

/-! ### Commit snapshots (R21, R27) -/

/-- The commit blocks, in the order of their classes. -/
def commitBlks : List Blk := [.tck, .twn, .nlk, .cln, .pst, .cnp, .thm, .veh, .met, .bil, .lkt, .saf, .upd, .iox]

/-- The shadow words of block `b` of half `h`, by offset. -/
def shadowWords (s : State) (b : Blk) (h : Half) : List (Nat × Word) :=
  s.shadow.filterMap fun e =>
    if keyBlk e.1 = blkKey b h then e.2.map fun w => (keyOff e.1, w) else none

/-- Block `b`, armed by a command, is snapshot for the next edge: in both halves where the snapshot of half `h` reaches the other (R27). -/
def snapBlock (h : Half) (both : Bool) (s : State) (b : Blk) : State :=
  if !(s.blk b h).roles.isEmpty && (s.blk b h).snap.isNone then
    let w := shadowWords s b h
    let s := s.mBlk b h fun d => { d with snap := some w }
    if both && perHalf b then
      s.mBlk b (other h) fun d => { d with snap := some w, st := 1, roles := (s.blk b h).roles }
    else s
  else s

/-- COMMIT_SNAPSHOT (R21, R27, R28): the half in charge takes the snapshot for both halves. Where it cannot reach the other
half by the edge, the evaluation of both halves moves to the next edge.
(DEDUCED, unsafe: log 91.) -/
def execCommitSnapshot (h : Half) (reaches : Bool) (s : State) : Out :=
  if s.charge ≠ some h then .next s
  else if s.twinUp h && !reaches then .next s
  else .next (commitBlks.foldl (snapBlock h (s.twinUp h)) s)

/-! ### The customer partition (R44) -/

/-- A restart of the partition: counted, logged as event 0x0005. -/
def restartPartition (s : State) (h : Half) (cause : Nat) : State :=
  (s.mh h fun x => { x with part := { x.part with restarts := x.part.restarts + 1, cause := cause, lastTick := x.tck.tick } }).ev h 1 0x0005 [cause]

/-- PARTITION_FAULT: 1 protection, 3 stall. -/
def execPartitionFault (h : Half) (stall : Bool) (s : State) : Out :=
  .next (restartPartition s h (if stall then 3 else 1))

/-- PARTITION_WATCHDOG_EXPIRY: 2 watchdog. -/
def execPartitionWatchdogExpiry (h : Half) (s : State) : Out := .next (restartPartition s h 2)

end Sys2Proof.Machine
end

