-- ==== Sys2Proof/Machine/Calendar.lean ====
section
/-!
DEFINITION. Wall time and the tariff object (R400-R404): civil dates, daylight time, day profiles, the rate in force.
-/

namespace Sys2Proof.Machine

/-! ### Civil dates -/

/-- Leap year of the Gregorian calendar. -/
def leap (y : Nat) : Bool := (y % 4 == 0 && y % 100 != 0) || y % 400 == 0

/-- Days of a month. -/
def monthDays (y m : Nat) : Nat :=
  match m with
  | 2 => if leap y then 29 else 28
  | 4 | 6 | 9 | 11 => 30
  | _ => 31

/-- Days from 1970-01-01 to a date. -/
def daysOf (y m d : Nat) : Int :=
  let y' := if m ≤ 2 then y - 1 else y
  let mp := (m + 9) % 12
  ((365 * y' + y' / 4 - y' / 100 + y' / 400 + (153 * mp + 2) / 5 + d : Nat) : Int) - 719469

/-- The date of a day number: year, month, day. -/
def dateOf (days : Int) : Nat × Nat × Nat :=
  let z := (days + 719468).toNat
  let era := z / 146097
  let doe := z % 146097
  let yoe := (doe - doe / 1460 + doe / 36524 - doe / 146096) / 365
  let doy := doe - (365 * yoe + yoe / 4 - yoe / 100)
  let mp := (5 * doy + 2) / 153
  let m := if mp < 10 then mp + 3 else mp - 9
  (yoe + 400 * era + (if m ≤ 2 then 1 else 0), m, doy - (153 * mp + 2) / 5 + 1)

/-- Weekday of a day number: 0 Monday to 6 Sunday. -/
def weekday (days : Int) : Nat := ((days + 3) % 7).toNat

/-! ### Fields of the object (R402) -/

/-- A tariff object in bytes. -/
abbrev Tariff := List Nat

def Tariff.id (t : Tariff) : Nat := numAt t 0 4
def Tariff.act (t : Tariff) : Nat := numAt t 4 8
/-- NRATES; an island with no object yet holds one rate. -/
def Tariff.nrates (t : Tariff) : Nat := max 1 (min 16 (numAt t 12 1))
/-- Length of a demand interval in s. -/
def Tariff.len (t : Tariff) : Nat := 60 * ([1, 5, 10, 15, 30, 60].getD (numAt t 13 1) 1)
def Tariff.zone (t : Tariff) : Int := intAt t 14 2
def Tariff.shift (t : Tariff) : Nat := numAt t 744 2
def Tariff.fallback (t : Tariff) : Nat := numAt t 746 1
def Tariff.target (t : Tariff) (i : Nat) : Nat := numAt t (724 + 4 * i) 4

/-- The day number of a daylight rule in a year (R401): month, week of the month (5: the last), weekday. -/
def ruleDay (t : Tariff) (off y : Nat) : Int :=
  let m := numAt t off 1
  let w := numAt t (off + 1) 1
  let d := numAt t (off + 2) 1 - 1
  let first := daysOf y m 1
  let dom := 1 + (d + 7 - weekday first) % 7 + 7 * (w - 1)
  first + ((if monthDays y m < dom then dom - 7 else dom) - 1 : Nat)

/-- Daylight time is in force at a UTC_S (R401). -/
def Tariff.daylight (t : Tariff) (utc : Int) : Bool :=
  if t.shift = 0 then false
  else
    let std := utc + 60 * t.zone
    let y := (dateOf (std / 86400)).1
    let on := ruleDay t 736 y * 86400 + 3600 * (numAt t 739 1 : Nat)
    let off := ruleDay t 740 y * 86400 + 3600 * (numAt t 743 1 : Nat) - 60 * (t.shift : Nat)
    if on < off then decide (on ≤ std ∧ std < off) else !decide (off ≤ std ∧ std < on)

/-- The local offset in minutes (R401). -/
def Tariff.ofs (t : Tariff) (utc : Int) : Int := t.zone + if t.daylight utc then (t.shift : Nat) else 0

/-- Local seconds. -/
def Tariff.local_ (t : Tariff) (utc : Int) : Int := utc + 60 * t.ofs utc

/-- A date of a season or a special day lies at or before another within the year. -/
def mdLe (a b : Nat × Nat) : Bool := decide (a.1 < b.1 ∨ (a.1 = b.1 ∧ a.2 ≤ b.2))

/-- The season of a date (R404): the latest start at or before it, cyclically. -/
def Tariff.season (t : Tariff) (m d : Nat) : Nat :=
  let start (j : Nat) : Nat × Nat := (numAt t (16 + 2 * j) 1, numAt t (17 + 2 * j) 1)
  let latest (l : List Nat) : Option Nat := l.foldl (fun b j => match b with
    | some i => if mdLe (start i) (start j) then some j else some i
    | none => some j) none
  match latest ((List.range 4).filter fun j => mdLe (start j) (m, d)) with
  | some j => j
  | none => (latest (List.range 4)).getD 0

/-- The day profile of a day number (R404). -/
def Tariff.profile (t : Tariff) (days : Int) : Nat :=
  let dt := dateOf days
  let special := (List.range 64).find? fun j =>
    let o := 468 + 4 * j
    (numAt t (o + 3) 1).testBit 7 && (numAt t o 1 == 0xFF || numAt t o 1 + 2000 == dt.1) && numAt t (o + 1) 1 == dt.2.1 && numAt t (o + 2) 1 == dt.2.2
  match special with
  | some j => numAt t (468 + 4 * j + 3) 1 % 16
  | none => numAt t (28 + 7 * numAt t (24 + t.season dt.2.1 dt.2.2) 1 + weekday days) 1

/-- The VALID switch point of a profile with the highest minute at or before a minute (R404): its rate. -/
def Tariff.pointRate (t : Tariff) (p minute : Nat) : Option Nat :=
  let pt (j : Nat) : Nat := numAt t (84 + 24 * p + 2 * j) 2
  let l := (List.range 12).filter fun j => (pt j).testBit 15 && decide (fldN (pt j) 10 0 ≤ minute)
  (l.foldl (fun b j => match b with
    | some i => if fldN (pt i) 10 0 ≤ fldN (pt j) 10 0 then some j else some i
    | none => some j) none).map fun j => fldN (pt j) 14 11

/-- The rate at a local day and minute, looking back over at most `n` days (R404). -/
def Tariff.rateBack (t : Tariff) : Nat → Int → Nat → Option Nat
  | 0, _, _ => none
  | n + 1, days, minute =>
    match t.pointRate (t.profile days) minute with
    | some r => some r
    | none => t.rateBack n (days - 1) 1439

/-- The rate in force at a UTC_S; `keep` where no profile of the past year has a VALID point. -/
def Tariff.rateAt (t : Tariff) (utc : Int) (keep : Nat) : Nat :=
  let l := t.local_ utc
  (t.rateBack 367 (l / 86400) ((l % 86400) / 60).toNat).getD keep

/-- The local time reaches a CLOSE instant (R406): it is that instant, or the begin of daylight time takes it past one; the hour that daylight time repeats at its
end reaches none anew.
(DESIGN CHOICE, unsafe: log 47.) -/
def Tariff.closesAt (t : Tariff) (utc : Int) : Bool :=
  let l := t.local_ utc
  let l0 := t.local_ (utc - 1)
  let at_ (day : Int) : Int := day * 86400 + ((3600 * numAt t 733 1 + 60 * numAt t 734 1 : Nat) : Int)
  let reached (day : Int) : Bool := decide ((dateOf day).2.2 = numAt t 732 1) && decide (l0 < at_ day ∧ at_ day ≤ l)
  let again := decide (0 < t.shift) && !t.daylight utc && t.daylight (utc - 60 * (t.shift : Nat))
  (numAt t 735 1).testBit 0 && !again && (reached (l / 86400) || reached (l0 / 86400))

/-- A day that exists in every year, or in the year named. -/
def dayOk (y : Option Nat) (m d : Nat) : Bool :=
  decide (1 ≤ m ∧ m ≤ 12 ∧ 1 ≤ d ∧ d ≤ monthDays (y.getD 1970) m)

/-- A daylight rule is within its ranges (R401). -/
def ruleOk (t : Tariff) (off : Nat) : Bool :=
  let b (i : Nat) : Nat := numAt t (off + i) 1
  decide (1 ≤ b 0 ∧ b 0 ≤ 12 ∧ 1 ≤ b 1 ∧ b 1 ≤ 5 ∧ 1 ≤ b 2 ∧ b 2 ≤ 7 ∧ b 3 ≤ 23)

/-- The object is accepted (R402, R403) at `utc`. Dates of rules that the object disables are not looked at. -/
def Tariff.ok (t : Tariff) (utc : Int) : Bool :=
  let n := numAt t 12 1
  let pts := (List.range 192).map fun j => numAt t (84 + 2 * j) 2
  let spec := List.range 64
  t.length == 752 && decide (1 ≤ n ∧ n ≤ 16 ∧ numAt t 13 1 ≤ 5) && t.act % 3600 == 0 && decide (utc + 60 ≤ (t.act : Int))
    && decide (-720 ≤ t.zone ∧ t.zone ≤ 840) && t.zone % 15 == 0
    && (List.range 4).all (fun j => dayOk none (numAt t (16 + 2 * j) 1) (numAt t (17 + 2 * j) 1) && decide (numAt t (24 + j) 1 ≤ 7))
    && (List.range 56).all (fun j => decide (numAt t (28 + j) 1 ≤ 15))
    && pts.all (fun p => decide (fldN p 10 0 ≤ 1439) && (!p.testBit 15 || decide (fldN p 14 11 < n)))
    && spec.all (fun j =>
      let o := 468 + 4 * j
      !(numAt t (o + 3) 1).testBit 7 || dayOk (if numAt t o 1 = 0xFF then none else some (2000 + numAt t o 1)) (numAt t (o + 1) 1) (numAt t (o + 2) 1))
    && (!(numAt t 735 1).testBit 0 || decide (1 ≤ numAt t 732 1 ∧ numAt t 732 1 ≤ 28 ∧ numAt t 733 1 ≤ 23 ∧ numAt t 734 1 ≤ 59))
    && decide (t.shift ≤ 120) && (t.shift == 0 || (ruleOk t 736 && ruleOk t 740))
    && decide (t.fallback < n) && (List.range 5).all (fun j => numAt t (747 + j) 1 == 0)

end Sys2Proof.Machine
end

