-- ==== Sys2Proof/Machine/Codes.lean ====
section
/-!
DEFINITION. The codes the spec fixes bit by bit: the 36/32 block code (R93, R94), the cell code of the root mesh (R591),
CRC-32 (R201), CRC-16 (R592) and the CRC of the Harvitor safety layer (R480).
-/

namespace Sys2Proof.Machine

/-- Multiply by alpha in GF(2^8) with polynomial 0x11D (R93). -/
def gfX (a : Nat) : Nat := if 2 * a < 256 then 2 * a else (2 * a) ^^^ 0x11D

/-- Multiplication in GF(2^8), by the low `n` bits of `b`. -/
def gfMulN : Nat → Nat → Nat → Nat
  | 0, _, _ => 0
  | n + 1, a, b => (if b % 2 = 1 then a else 0) ^^^ gfMulN n (gfX a) (b / 2)

/-- Multiplication in GF(2^8). -/
def gfMul (a b : Nat) : Nat := gfMulN 8 a b

/-- A power of alpha. -/
def gfPow : Nat → Nat
  | 0 => 1
  | n + 1 => gfX (gfPow n)

/-- The value of a codeword, its first byte the highest coefficient, at a point (Horner). -/
def gfEval (x : Nat) (c : List Nat) : Nat := c.foldl (fun acc b => gfMul acc x ^^^ b) 0

/-- One step of the division by g(x): the remainder's four coefficients after one more data byte (R93). -/
def rsStep (r : Nat × Nat × Nat × Nat) (b : Nat) : Nat × Nat × Nat × Nat :=
  let f := r.1 ^^^ b
  (r.2.1 ^^^ gfMul f 0x0F, r.2.2.1 ^^^ gfMul f 0x36, r.2.2.2 ^^^ gfMul f 0x78, gfMul f 0x40)

/-- The check bytes of 32 data bytes (R93). -/
def rsCheck (d : List Nat) : List Nat :=
  let r := d.foldl rsStep (0, 0, 0, 0)
  [r.1, r.2.1, r.2.2.1, r.2.2.2]

/-- A block of 36 bytes (R93). -/
def rsEncode (d : List Nat) : List Nat := padTo 32 d ++ rsCheck (padTo 32 d)

/-- What the receiver makes of a block (R94): its data bytes and whether one was corrected; none: uncorrectable. -/
def rsDecode (c : List Nat) : Option (List Nat × Bool) :=
  if c.length ≠ 36 then none
  else
    let s0 := gfEval 1 c
    let s1 := gfEval 2 c
    let s2 := gfEval 4 c
    let s3 := gfEval 8 c
    if s0 = 0 ∧ s1 = 0 ∧ s2 = 0 ∧ s3 = 0 then some (c.take 32, false)
    else if s0 = 0 ∨ s1 = 0 ∨ s2 = 0 ∨ s3 = 0 then none
    else
      match (List.range 36).find? fun k =>
          gfMul s0 (gfPow k) = s1 ∧ gfMul s1 (gfPow k) = s2 ∧ gfMul s2 (gfPow k) = s3 with
      | some k => some ((modAt c (35 - k) (· ^^^ s0)).take 32, true)
      | none => none

/-- The data bytes of a frame's blocks and how many were corrected; none: a block is uncorrectable. -/
def rsDecodeAll : List (List Nat) → Option (List Nat × Nat)
  | [] => some ([], 0)
  | c :: t =>
    match rsDecode c, rsDecodeAll t with
    | some (d, k), some (ds, n) => some (d ++ ds, n + b2n k)
    | _, _ => none

/-- `n` steps of a reflected CRC-32 register. -/
def crcSteps : Nat → Nat → Nat
  | 0, r => r
  | n + 1, r => crcSteps n (if r % 2 = 1 then (r / 2) ^^^ 0xEDB88320 else r / 2)

/-- CRC-32 (ISO-HDLC) over bytes, from a register value. -/
def crc32Reg (r : Nat) (l : List Nat) : Nat := l.foldl (fun r b => crcSteps 8 (r ^^^ (b % 256))) r

/-- CRC-32 of bytes: initial value and final XOR 0xFFFF_FFFF. -/
def crc32 (l : List Nat) : Nat := crc32Reg 0xFFFFFFFF l ^^^ 0xFFFFFFFF

/-- `n` steps of an MSB-first CRC of `w` bits with polynomial `poly`. -/
def crcMsbSteps (w poly : Nat) : Nat → Nat → Nat
  | 0, r => r
  | n + 1, r =>
    crcMsbSteps w poly n (if 2 ^ (w - 1) ≤ r then (2 * r % 2 ^ w) ^^^ poly else 2 * r % 2 ^ w)

/-- An MSB-first CRC of `w` bits over bytes. -/
def crcMsb (w poly init : Nat) (l : List Nat) : Nat :=
  l.foldl (fun r b => crcMsbSteps w poly 8 (r ^^^ (b % 256 * 2 ^ (w - 8)))) init

end Sys2Proof.Machine
end

