-- ==== Sys2Proof/Machine/Harvitor.lean ====
section
/-!
DEFINITION. One end of a Harvitor connection (R479-R482, R484): the check value, what an end accepts, when it is in service.
-/

namespace Sys2Proof.Machine

/-- The CRC of R480. -/
def harvCrc (l : List Nat) : Nat := crcMsb 32 0x741B8CD7 0xFFFFFFFF l

/-- The compact form of R479. -/
def compactPdu (cid texp hseq echo : Nat) (data : List Nat) : List Nat :=
  let b := le 2 hseq ++ le 2 echo ++ padTo 8 data
  b ++ le 4 (harvCrc (le 4 cid ++ le 2 texp ++ b))

/-- The extended form of R479. -/
def extendedPdu (cid texp hseq echo : Nat) (data : List Nat) : List Nat :=
  let b := le 4 cid ++ le 2 texp ++ le 2 hseq ++ le 2 echo ++ [0, 0] ++ padTo 8 data
  b ++ le 4 (harvCrc b)

/-- HSEQ, ECHO and DATA of a PDU whose check verifies (R479-R481). -/
def readPdu (cid texp : Nat) (ext : Bool) (b : List Nat) : Option (Nat × Nat × List Nat) :=
  if ext then
    if b.length = 24 ∧ numAt b 20 4 = harvCrc (b.take 20) ∧ numAt b 0 4 = cid ∧ numAt b 4 2 = texp then
      some (numAt b 6 2, numAt b 8 2, bytesAt b 12 8)
    else none
  else if b.length = 16 ∧ numAt b 12 4 = harvCrc (le 4 cid ++ le 2 texp ++ b.take 12) then
    some (numAt b 0 2, numAt b 2 2, bytesAt b 4 8)
  else none

/-- An ECHO is within TEXP: it names an HSEQ sent within the last TEXP (R482). Times in ticks. -/
def HarvEnd.echoOk (e : HarvEnd) (now texp echo : Nat) : Bool := e.sent.any fun x => x.1 == echo && decide (now ≤ x.2 + texp)

/-- A PDU whose check verifies reaches the end (R481, R482); the Bool: it is accepted. -/
def HarvEnd.take (e : HarvEnd) (now texp hseq echo : Nat) (data : List Nat) : HarvEnd × Bool :=
  match e.last with
  | none => ({ e with last := some hseq }, false)
  | some l =>
    let d := (hseq + 65536 - l) % 65536
    if 1 ≤ d ∧ d ≤ 1023 then
      let good := if d = 1 && e.echoOk now texp echo then e.good + 1 else 0
      let act := e.acting || d == 1
      ({ e with last := some hseq, acc := true, acting := act, good := good, service := e.service || decide (16 ≤ good), accTick := now,
                echo := some echo, data := if act then data else e.data }, true)
    else ({ e with rej := e.rej + 1 }, false)

/-- Bytes received on a connection (R481). -/
def HarvEnd.receive (e : HarvEnd) (now texpMs cid : Nat) (ext : Bool) (b : List Nat) : HarvEnd × Bool :=
  match readPdu cid texpMs ext b with
  | some (h, ec, d) => e.take now (20 * texpMs) h ec d
  | none => ({ e with rej := e.rej + 1 }, false)

/-- A connection in service times out (R482). -/
def HarvEnd.timedOut (e : HarvEnd) (now texpMs : Nat) : Bool :=
  e.service && (decide (e.accTick + 20 * texpMs ≤ now) || (match e.echo with | some x => !e.echoOk now (20 * texpMs) x | none => true))

/-- Out of service again (R482). -/
def HarvEnd.out (e : HarvEnd) : HarvEnd := { e with service := false, good := 0 }

/-- The ECHO an end sends (R481, R482). -/
def HarvEnd.echoOut (e : HarvEnd) : Nat := if e.acc then e.last.getD 0 else 0

/-- The end sends its next PDU (R481); what it sent more than TEXP ago is no longer kept. -/
def HarvEnd.send (e : HarvEnd) (now texpMs : Nat) : HarvEnd :=
  { e with hseq := (e.hseq + 1) % 65536, sent := (e.sent.filter fun x => decide (now ≤ x.2 + 20 * texpMs)) ++ [(e.hseq, now)] }

/-- CID and TEXP of connection `n` (R491). -/
def State.connCid (s : State) (n : Nat) : Nat := (s.rg .saf .A (0x204 + 0x10 * n)).toNat
def State.connTexp (s : State) (n : Nat) : Nat := s.rf .saf .A (0x208 + 0x10 * n) 31 16

/-- The PERMIT a remote's endpoint acts on (R484): the last accepted PDU carries PERMIT 1 and the connection is in service. -/
def Remote.permitted (r : Remote) : Bool := r.he.service && r.he.acting && (numAt r.he.data 0 1).testBit 0

/-- The poles a cabinet's endpoint may hold closed, 4 bits per rank (R483, R484): those the PDU's page commands, and those of the other page. -/
def polesOf (data : List Nat) (had : Nat) : Nat :=
  let page := numAt data 1 1 % 2
  let w := numAt data 2 4
  if page = 0 then had / 2 ^ 32 * 2 ^ 32 + w else w * 2 ^ 32 + had % 2 ^ 32

/-- The edge at a remote's endpoint (R484): it judges its connection, takes the PDU passed to it, and acts on PERMIT. In LINK_LOST
it closes nothing and R108 says when it opens. -/
def Remote.harvEdge (r : Remote) (p texpMs cid : Nat) : Remote :=
  let e0 := if r.he.timedOut r.tick texpMs then r.he.out else r.he
  let e1 := match r.harvIn with
    | some f => (e0.receive r.tick texpMs cid false (f.bytes.take 16)).1
    | none => e0
  let r := { r with he := e1.send r.tick texpMs, harvIn := none }
  let ok := r.permitted
  let c := if !ok then 0
    else if p < 32 then
      let w := polesOf r.he.data r.contactors
      if r.linkLost then r.contactors &&& w else w
    else r.contactors
  { r with permit := ok, contactors := c }

/-- OV_TRIP exceeded on 2 samples in a row opens a dispenser's contactors until a DCMD with CLOSE 0 (R346). `v` in mV.
(DESIGN CHOICE, unsafe: log 43.) -/
def Remote.overVolt (r : Remote) (p : Nat) (v : Int) : Remote :=
  if p < 32 ∨ r.ov = 0 then r
  else
    let n := if (r.ov : Int) < v then r.ovN + 1 else 0
    { r with ovN := n, ovTrip := r.ovTrip || decide (2 ≤ n), contactors := if 2 ≤ n then 0 else r.contactors }

end Sys2Proof.Machine
end

