-- ==== Sys2Proof/Machine/Crypto.lean ====
section
/-!
DEFINITION. The published algorithms the spec names: SHA-256 and SHA-384 (FIPS 180-4), HMAC and HKDF (RFC 5869), AES (FIPS 197), GCM (NIST SP 800-38D)
and CMAC (NIST SP 800-38B). Their definitions are those of the standards (R4, R99, R182, R432, R610).
-/

namespace Sys2Proof.Machine

/-- A list of bytes cut into pieces of `n` bytes; `k` bounds the pieces. -/
def chunks (n : Nat) : Nat → List Nat → List (List Nat)
  | 0, _ => []
  | k + 1, l => if l.isEmpty then [] else l.take n :: chunks n k (l.drop n)

/-- A number from its bytes, the highest first. -/
def beNum (l : List Nat) : Nat := l.foldl (fun a b => a * 256 + b % 256) 0

/-- The `n` bytes of a number, the highest first. -/
def beBytes (n v : Nat) : List Nat := (le n v).reverse

/-! ### SHA-2 -/

/-- Rotate a word of `w` bits right. -/
def rotr (w n x : Nat) : Nat := (x / 2 ^ n) ||| (x * 2 ^ (w - n) % 2 ^ w)

/-- A SHA-2 function: bits of a word, rounds, the constants K as one number with the first lowest, the initial value, rotations and shifts of the
functions for the schedule and for the rounds. -/
structure Sha where
  w : Nat
  rounds : Nat
  k : Nat
  h0 : List Nat
  s0 : Nat × Nat × Nat
  s1 : Nat × Nat × Nat
  e0 : Nat × Nat × Nat
  e1 : Nat × Nat × Nat

/-- Two rotations and a shift. -/
def Sha.small (f : Sha) (r : Nat × Nat × Nat) (x : Nat) : Nat := rotr f.w r.1 x ^^^ rotr f.w r.2.1 x ^^^ (x / 2 ^ r.2.2)

/-- Three rotations. -/
def Sha.big (f : Sha) (r : Nat × Nat × Nat) (x : Nat) : Nat := rotr f.w r.1 x ^^^ rotr f.w r.2.1 x ^^^ rotr f.w r.2.2 x

/-- `n` more words of the schedule, the newest first. -/
def Sha.sched (f : Sha) : Nat → List Nat → List Nat
  | 0, l => l
  | n + 1, l => f.sched n ((f.small f.s1 (l.getD 1 0) + l.getD 6 0 + f.small f.s0 (l.getD 14 0) + l.getD 15 0) % 2 ^ f.w :: l)

/-- One round: the eight working variables after word `x` and constant `k`. -/
def Sha.round (f : Sha) (v : List Nat) (x k : Nat) : List Nat :=
  match v with
  | [a, b, c, d, e, g, h, i] =>
    let t1 := i + f.big f.e1 e + ((e &&& g) ^^^ ((2 ^ f.w - 1 - e) &&& h)) + k + x
    let t2 := f.big f.e0 a + ((a &&& b) ^^^ (a &&& c) ^^^ (b &&& c))
    [(t1 + t2) % 2 ^ f.w, a, b, c, (d + t1) % 2 ^ f.w, e, g, h]
  | _ => v

/-- The chaining value after one block. -/
def Sha.block (f : Sha) (hv blk : List Nat) : List Nat :=
  let m := (chunks (f.w / 8) 16 blk).map beNum
  let ws := (f.sched (f.rounds - 16) m.reverse).reverse
  let v := ws.zipIdx.foldl (fun v e => f.round v e.1 (f.k / 2 ^ (f.w * e.2) % 2 ^ f.w)) hv
  List.zipWith (fun a b => (a + b) % 2 ^ f.w) hv v

/-- The digest of a message, whole words of the final chaining value. -/
def Sha.digest (f : Sha) (m : List Nat) : List Nat :=
  let bs := f.w * 2
  let n := m.length + 1 + f.w / 4
  let p := m ++ [128] ++ List.replicate ((bs - n % bs) % bs) 0 ++ beBytes (f.w / 4) (8 * m.length)
  ((chunks bs (p.length / bs) p).foldl f.block f.h0).flatMap (beBytes (f.w / 8))

/-- The round constants of SHA-256, the first in the lowest bits. -/
def k256 : Nat :=
    0xC19BF1749BDC06A780DEB1FE72BE5D74550C7DC3243185BE12835B01D807AA98AB1C5ED5923F82A459F111F13956C25BE9B5DBA5B5C0FBCF71374491428A2F98
    + 0x1429296706CA6351D5A79147C6E00BF3BF597FC7B00327C8A831C66D983E515276F988DA5CB0A9DC4A7484AA2DE92C6F240CA1CC0FC19DC6EFBE4786E49B69C1 * 2 ^ 512
    + 0x106AA070F40E3585D6990624D192E819C76C51A3C24B8B70A81A664BA2BFE8A192722C8581C2C92E766A0ABB650A735453380D134D2C6DFC2E1B213827B70A85 * 2 ^ 1024
    + 0xC67178F2BEF9A3F7A4506CEB90BEFFFA8CC7020884C8781478A5636F748F82EE682E6FF35B9CCA4F4ED8AA4A391C0CB334B0BCB52748774C1E376C0819A4C116 * 2 ^ 1536

/-- The round constants of SHA-384, the first in the lowest bits. -/
def k384 : Nat :=
    0xAB1C5ED5DA6D8118923F82A4AF194F9B59F111F1B605D0193956C25BF348B538E9B5DBA58189DBBCB5C0FBCFEC4D3B2F7137449123EF65CD428A2F98D728AE22
    + 0xC19BF174CF6926949BDC06A725C7123580DEB1FE3B1696B172BE5D74F27B896F550C7DC3D5FFB4E2243185BE4EE4B28C12835B0145706FBED807AA98A3030242 * 2 ^ 512
    + 0x76F988DA831153B55CB0A9DCBD41FBD44A7484AA6EA6E4832DE92C6F592B0275240CA1CC77AC9C650FC19DC68B8CD5B5EFBE4786384F25E3E49B69C19EF14AD2 * 2 ^ 1024
    + 0x142929670A0E6E7006CA6351E003826FD5A79147930AA725C6E00BF33DA88FC2BF597FC7BEEF0EE4B00327C898FB213FA831C66D2DB43210983E5152EE66DFAB * 2 ^ 1536
    + 0x92722C851482353B81C2C92E47EDAEE6766A0ABB3C77B2A8650A73548BAF63DE53380D139D95B3DF4D2C6DFC5AC42AED2E1B21385C26C92627B70A8546D22FFC * 2 ^ 2048
    + 0x106AA07032BBD1B8F40E35855771202AD69906245565A910D192E819D6EF5218C76C51A30654BE30C24B8B70D0F89791A81A664BBC423001A2BFE8A14CF10364 * 2 ^ 2560
    + 0x682E6FF3D6B2B8A35B9CCA4F7763E3734ED8AA4AE3418ACB391C0CB3C5C95A6334B0BCB5E19B48A82748774CDF8EEB991E376C085141AB5319A4C116B8D2D0C8 * 2 ^ 3072
    + 0xC67178F2E372532BBEF9A3F7B2C67915A4506CEBDE82BDE990BEFFFA23631E288CC702081A6439EC84C87814A1F0AB7278A5636F43172F60748F82EE5DEFB2FC * 2 ^ 3584
    + 0x1B710B35131C471B113F9804BEF90DAE0A637DC5A2C898A606F067AA72176FBAF57D4F7FEE6ED178EADA7DD6CDE0EB1ED186B8C721C0C207CA273ECEEA26619C * 2 ^ 4096
    + 0x6C44198C4A4758175FCB6FAB3AD6FAEC597F299CFC657E2A4CC5D4BECB3E42B6431D67C49C100D4C3C9EBE0A15C9BEBC32CAAB7B40C7249328DB77F523047D84 * 2 ^ 4608

/-- SHA-256.
(PRESUMED, unsafe: log 115.) -/
def sha256F : Sha :=
  { w := 32, rounds := 64, k := k256, h0 := [0x6A09E667, 0xBB67AE85, 0x3C6EF372, 0xA54FF53A] ++ [0x510E527F, 0x9B05688C, 0x1F83D9AB, 0x5BE0CD19],
    s0 := (7, 18, 3), s1 := (17, 19, 10), e0 := (2, 13, 22), e1 := (6, 11, 25) }

/-- SHA-512 with the initial value of SHA-384.
(PRESUMED, unsafe: log 115.) -/
def sha384F : Sha :=
  { w := 64, rounds := 80, k := k384, h0 := [0xCBBB9D5DC1059ED8, 0x629A292A367CD507, 0x9159015A3070DD17, 0x152FECD8F70E5939] ++ [0x67332667FFC00B31, 0x8EB44A8768581511, 0xDB0C2E0D64F98FA7, 0x47B5481DBEFA4FA4],
    s0 := (1, 8, 7), s1 := (19, 61, 6), e0 := (28, 34, 39), e1 := (14, 18, 41) }

/-- SHA-256 of a message: 32 bytes. -/
def sha256 (m : List Nat) : List Nat := sha256F.digest m

/-- SHA-384 of a message: 48 bytes. -/
def sha384 (m : List Nat) : List Nat := (sha384F.digest m).take 48

/-- HMAC with a hash of block size `bs`. -/
def hmacWith (hash : List Nat → List Nat) (bs : Nat) (key m : List Nat) : List Nat :=
  let k := padTo bs (if bs < key.length then hash key else key)
  hash (k.map (· ^^^ 0x5C) ++ hash (k.map (· ^^^ 0x36) ++ m))

/-- HMAC-SHA-256. -/
def hmac256 (key m : List Nat) : List Nat := hmacWith sha256 64 key m

/-- HMAC-SHA-384. -/
def hmac384 (key m : List Nat) : List Nat := hmacWith sha384 128 key m

/-- `n` further blocks of HKDF-Expand from block `i` on, `t` the block before. -/
def hkdfBlocks (mac : List Nat → List Nat → List Nat) (prk info : List Nat) : Nat → Nat → List Nat → List Nat
  | 0, _, _ => []
  | n + 1, i, t => let b := mac prk (t ++ info ++ [i]); b ++ hkdfBlocks mac prk info n (i + 1) b

/-- HKDF-Expand with a MAC of `hl` bytes. -/
def hkdfExpand (mac : List Nat → List Nat → List Nat) (hl : Nat) (prk info : List Nat) (len : Nat) : List Nat :=
  (hkdfBlocks mac prk info ((len + hl - 1) / hl) 1 []).take len

/-- HKDF-Expand-SHA-256.
(PRESUMED, unsafe: log 115.) -/
def hkdf256 (prk info : List Nat) (len : Nat) : List Nat := hkdfExpand hmac256 32 prk info len

/-- HKDF-Expand-SHA-384. -/
def hkdf384 (prk info : List Nat) (len : Nat) : List Nat := hkdfExpand hmac384 48 prk info len

/-! ### AES -/

/-- The S-box, the entry of 0 in the lowest byte. -/
def sboxTab : Nat :=
    0x75B227EBE28012079A059618C323C7041531D871F1E5A534CCF73F362693FDB7C072A49CAFA2D4ADF04759FA7DC982CA76ABD7FE2B670130C56F6BF27B777C63
    + 0xD2F3FF1021DAB6BCF5389D928F40A351A89F3C507F02F94585334D43FBAAEFD0CF584C4A39BECB6A5BB1FC20ED00D153842FE329B3D63B52A05A6E1B1A2C8309 * 2 ^ 512
    + 0x8AE7A65EAF4566CA94ED58D6D37C8E779E4959162ACD3C25C2406490A3A32E0DB0B5EDE14B8EE4688902A22DC4F816073195D643D7EA7C41744975FEC130CCD * 2 ^ 1024
    + 0x16BB54B00F2D99416842E6BF0D89A18CDF2855CEE9871E9B948ED9691198F8E19E1DC186B95735610EF6034866B53E708A8BBD4B1F74DDE8C6B4A61C2E2578BA * 2 ^ 1536

/-- SubBytes of one byte. -/
def sbox (x : Nat) : Nat := sboxTab / 2 ^ (8 * (x % 256)) % 256

/-- Multiply by x in GF(2^8) with polynomial 0x11B. -/
def xtime (a : Nat) : Nat := if 2 * a < 256 then 2 * a else (2 * a) ^^^ 0x11B

/-- Byte by byte exclusive or. -/
def xorBytes (a b : List Nat) : List Nat := List.zipWith (· ^^^ ·) a b

/-- `n` further words of the key schedule, the newest first, for a key of `nk` words; `i` numbers the next word and `rc` is its round constant. -/
def aesWords (nk : Nat) : Nat → Nat → Nat → List (List Nat) → List (List Nat)
  | 0, _, _, l => l
  | n + 1, i, rc, l =>
    let t := l.headD []
    let t := if i % nk = 0 then
        match (t.drop 1 ++ t.take 1).map sbox with
        | a :: r => (a ^^^ rc) :: r
        | [] => []
      else if 6 < nk ∧ i % nk = 4 then t.map sbox else t
    aesWords nk n (i + 1) (if i % nk = 0 then xtime rc else rc) (xorBytes t (l.getD (nk - 1) []) :: l)

/-- The round keys of a key of 16 or 32 bytes, 16 bytes each. -/
def aesKeys (key : List Nat) : List (List Nat) :=
  let nk := key.length / 4
  chunks 16 (nk + 7) (aesWords nk (4 * (nk + 7) - nk) nk 1 (chunks 4 nk key).reverse).reverse.flatten

/-- ShiftRows on the 16 bytes in column order. -/
def shiftRows (s : List Nat) : List Nat := (List.range 16).map fun i => s.getD ((i + 4 * (i % 4)) % 16) 0

/-- MixColumns on one column. -/
def mixCol : List Nat → List Nat
  | [a, b, c, d] =>
    let t := a ^^^ b ^^^ c ^^^ d
    [a ^^^ t ^^^ xtime (a ^^^ b), b ^^^ t ^^^ xtime (b ^^^ c), c ^^^ t ^^^ xtime (c ^^^ d), d ^^^ t ^^^ xtime (d ^^^ a)]
  | l => l

/-- The rounds after the first key; the last one mixes no columns. -/
def aesRounds : List (List Nat) → List Nat → List Nat
  | [], s => s
  | [k], s => xorBytes (shiftRows (s.map sbox)) k
  | k :: t, s => aesRounds t (xorBytes ((chunks 4 4 (shiftRows (s.map sbox))).flatMap mixCol) k)

/-- AES of one block.
(PRESUMED, unsafe: log 115.) -/
def aesBlock (key blk : List Nat) : List Nat :=
  match aesKeys key with
  | k :: t => aesRounds t (xorBytes (padTo 16 blk) k)
  | [] => []

/-- The inverse S-box, the entry of 0 in the lowest byte. -/
def invSboxTab : Nat :=
    0x25D18B6D49A25B76B224D92866A12E084EC3FA420B954CEE3D23C2A632947B54CBE9DEC444438E3487FF2F9B8239E37CFBD7F3819EA340BF38A53630D56A0952
    + 0x6B8A130103BDAFC1020F3FCA8F1E2CD00645B3B80558E4F70AD3BC8C00ABD890849D8DA75746155EDAB9EDFD5048706C92B6655DCC5CA4D41698688664F6F872 * 2 ^ 512
    + 0xF45ACD78FEC0DB9A2079D2C64B3E56FC1BBE18AA0E62B76F89C5291D711AF1476EDF751CE837F9E28535ADE72274AC9673E6B4F0CECFF297EADC674F4111913A * 2 ^ 1024
    + 0x7D0C2155631469E126D677BA7E042B17619953833CBBEBC8B0F52AAE4D3BE0A0EF9CC9939F7AE52D0D4AB519A97F51605FEC8027591012B131C7078833A8DD1F * 2 ^ 1536

/-- InvSubBytes of one byte. -/
def invSbox (y : Nat) : Nat := invSboxTab / 2 ^ (8 * (y % 256)) % 256

/-- InvShiftRows: ShiftRows has order 4. -/
def invShiftRows (s : List Nat) : List Nat := shiftRows (shiftRows (shiftRows s))

/-- InvMixColumns on one column: MixColumns has order 4. -/
def invMixCol (c : List Nat) : List Nat := mixCol (mixCol (mixCol c))

/-- The rounds of decryption after the last round key, the round keys in reverse order. -/
def aesInvRounds : List (List Nat) → List Nat → List Nat
  | [], s => s
  | [k], s => xorBytes ((invShiftRows s).map invSbox) k
  | k :: t, s => aesInvRounds t ((chunks 4 4 (xorBytes ((invShiftRows s).map invSbox) k)).flatMap invMixCol)

/-- The inverse of AES on one block. -/
def aesInvBlock (key blk : List Nat) : List Nat :=
  match (aesKeys key).reverse with
  | k :: t => aesInvRounds t (xorBytes (padTo 16 blk) k)
  | [] => []

/-- One step of KW (NIST SP 800-38F): `A`, the half-blocks, the step number. -/
def kwStep (key : List Nat) (n : Nat) (s : List Nat × List (List Nat)) (t : Nat) : List Nat × List (List Nat) :=
  let i := (t - 1) % n
  let b := aesBlock key (s.1 ++ s.2.getD i [])
  (xorBytes (b.take 8) (beBytes 8 t), s.2.set i (b.drop 8))

/-- KW of a key's material, whole half-blocks of it.
(DEDUCED, unsafe: log 53.) -/
def kwWrap (key m : List Nat) : List Nat :=
  let n := (m.length + 7) / 8
  let r := (rangeFrom 1 (6 * n)).foldl (kwStep key n) (List.replicate 8 0xA6, chunks 8 n (padTo (8 * n) m))
  r.1 ++ r.2.flatten

/-- One step of the inverse of KW. -/
def kwBack (key : List Nat) (n : Nat) (s : List Nat × List (List Nat)) (t : Nat) : List Nat × List (List Nat) :=
  let i := (t - 1) % n
  let b := aesInvBlock key (xorBytes s.1 (beBytes 8 t) ++ s.2.getD i [])
  (b.take 8, s.2.set i (b.drop 8))

/-- The material under KW; none: the integrity check fails. -/
def kwUnwrap (key c : List Nat) : Option (List Nat) :=
  let n := c.length / 8 - 1
  let r := (rangeFrom 1 (6 * n)).reverse.foldl (kwBack key n) (c.take 8, chunks 8 n (c.drop 8))
  if 2 ≤ n ∧ c.length % 8 = 0 ∧ r.1 = List.replicate 8 0xA6 then some r.2.flatten else none

/-- `n` steps of the product in GF(2^128) as SP 800-38D numbers its bits: `x`'s bits from `n - 1` down, `v` the other factor shifted. -/
def ghMulN : Nat → Nat → Nat → Nat → Nat
  | 0, _, _, z => z
  | n + 1, x, v, z => ghMulN n x (if v % 2 = 1 then (v / 2) ^^^ (0xE1 * 2 ^ 120) else v / 2) (if x.testBit n then z ^^^ v else z)

/-- GHASH over blocks of 16 bytes, the last one padded. -/
def ghash (h : Nat) (blks : List (List Nat)) : Nat := blks.foldl (fun y b => ghMulN 128 (y ^^^ beNum (padTo 16 b)) h 0) 0

/-- The 16-byte GCM tag of a ciphertext with additional data, for a 12-byte IV.
(PRESUMED, unsafe: log 115.) -/
def gcmFull (key iv aad ct : List Nat) : List Nat :=
  let h := beNum (aesBlock key [])
  let bl (l : List Nat) := chunks 16 (l.length / 16 + 1) l
  let y := ghash h (bl aad ++ bl ct ++ [beBytes 8 (8 * aad.length) ++ beBytes 8 (8 * ct.length)])
  xorBytes (beBytes 16 y) (aesBlock key (iv ++ [0, 0, 0, 1]))

/-- The link tag (R99): the first 8 bytes of the GCM tag of empty plaintext. -/
def gcmTag (key iv aad : List Nat) : List Nat := (gcmFull key iv aad []).take 8

/-- The GCM keystream over a text: encryption and decryption (NIST SP 800-38D). -/
def gcmCrypt (key iv text : List Nat) : List Nat :=
  ((chunks 16 (text.length / 16 + 1) text).zipIdx.flatMap fun e => xorBytes e.1 (aesBlock key (iv ++ beBytes 4 (e.2 + 2))))

/-- Double in GF(2^128) as SP 800-38B does for its subkeys. -/
def cmacDbl (x : Nat) : Nat := if x.testBit 127 then (2 * x % 2 ^ 128) ^^^ 0x87 else 2 * x

/-- AES-CMAC (NIST SP 800-38B): 16 bytes.
(PRESUMED, unsafe: log 115.) -/
def cmac (key m : List Nat) : List Nat :=
  let k1 := cmacDbl (beNum (aesBlock key []))
  let bl := chunks 16 (m.length / 16 + 1) m
  let l := bl.getLastD []
  let last := if l.length = 16 then beNum l ^^^ k1 else beNum (padTo 16 (l ++ [0x80])) ^^^ cmacDbl k1
  (bl.dropLast.map beNum ++ [last]).foldl (fun y b => beNum (aesBlock key (beBytes 16 (y ^^^ b)))) 0 |> beBytes 16

end Sys2Proof.Machine
end

