-- ==== Sys2Proof/Machine/Keys.lean ====
section
/-!
DEFINITION. The keys the link uses: Locket's entries by handle (R428-R430, R445), pairing secrets and link keys (R440-R443), the tag of a frame (R99-R101).
-/

namespace Sys2Proof.Machine

/-- INDEX of a handle (R428). -/
def keyIdx (handle : Nat) : Nat := handle % 2 ^ 14

/-- The entry in a slot. -/
def State.keyAt (s : State) (idx : Nat) : Option KeyE := look none s.lkt.ents idx

/-- The entry a handle names: its slot is not EMPTY and GEN agrees (R428, R435). -/
def State.keyE (s : State) (handle : Nat) : Option KeyE :=
  match s.keyAt (keyIdx handle) with
  | some e => if e.handle = handle ∧ handle ≠ 0xFFFFFFFF then some e else none
  | none => none

/-- An INVALID entry whose cutoff edge has not come still serves (R445). -/
def State.beforeCutoff (s : State) (handle : Nat) : Bool := s.lkt.cuts.any fun c => c.handle == handle && decide (s.now < c.edge)

/-- An entry counts as VALID for a use. -/
def State.serves (s : State) (e : KeyE) : Bool := e.st == 1 || (e.st == 2 && s.beforeCutoff e.handle)

/-- The time of NOT_AFTER has passed; while billing time is unknown it is not looked at (R435). -/
def State.expired (s : State) (e : KeyE) : Bool :=
  e.notAfter != 0 && !s.bil.unknown && decide ((e.notAfter : Int) < (s.now / 20000 : Nat) - (s.bil.tai : Int))

/-- Every ancestor serves, up to `n` levels (R430). -/
def State.chainOk (s : State) : Nat → Nat → Bool
  | 0, p => p == 0xFFFFFFFF
  | n + 1, p =>
    if p = 0xFFFFFFFF then true
    else match s.keyE p with
      | some e => s.serves e && s.chainOk n e.parent
      | none => false

/-- An entry is usable (R430). -/
def State.keyUsable (s : State) (handle : Nat) : Bool :=
  match s.keyE handle with
  | some e => s.serves e && s.chainOk 7 e.parent
  | none => false

/-- The VALID PS with a binding. -/
def State.psOf (s : State) (sel : KeyE → Bool) : Option KeyE :=
  (s.lkt.ents.find? fun e => match e.2 with | some k => k.typ == 3 && k.st == 1 && k.binding != 0 && sel k | none => false).bind (·.2)

/-- The link key of a PS with the highest counter: (counter, entry) (R441). -/
def State.linkKey (s : State) (ps : Nat) : Option (Nat × KeyE) :=
  s.lkt.ents.foldl (fun b e => match e.2 with
    | some k =>
      if k.parent = ps ∧ k.typ = 2 ∧ k.st = 1 then
        let n := k.binding / 2 ^ 32
        match b with
        | some c => if c.1 < n then some (n, k) else some c
        | none => some (n, k)
      else b
    | none => b) none

/-- The PS of the remote paired at port `p` (R440). -/
def State.remotePs (s : State) (p : Nat) : Option KeyE := s.psOf fun k => k.binding / 2 ^ 32 % 2 ^ 8 == p && k.binding / 2 ^ 40 % 2 ^ 8 == 1

/-- The usable link key of KEYGEN `g` of the remote at port `p`, the newest one (R100, R441, R442): its material. -/
def State.linkKeyGen (s : State) (p : Nat) (g : Bool) : Option (List Nat) :=
  match s.remotePs p with
  | none => none
  | some ps =>
    (s.lkt.ents.foldl (fun (b : Option (Nat × List Nat)) e => match e.2 with
      | some k =>
        let n := k.binding / 2 ^ 32
        if k.parent = ps.handle ∧ k.typ = 2 ∧ (n % 2 == 1) = g ∧ s.keyUsable k.handle = true ∧ s.expired k = false ∧ (∀ c ∈ b, c.1 < n) then some (n, k.mat) else b
      | none => b) none).map (·.2)

/-- The material of the usable key of the metering head with an identity (R443). -/
def State.headKey (s : State) (rid : Nat) : Option (List Nat) :=
  (s.lkt.ents.find? fun e => match e.2 with
    | some k => k.typ == 2 && k.dom == 2 && k.eng.testBit 4 && k.binding == rid && s.keyUsable k.handle && !s.expired k
    | none => false).bind fun e => e.2.map (·.mat)

/-- KEYGEN a port sends under (R441, R442): of the newest link key, or of the one before while its roll has not come to AT. -/
def State.linkGen (s : State) (p : Nat) : Bool :=
  match look none s.lkt.rolls p with
  | some r => if s.now < r.edge then r.n % 2 == 0 else r.n % 2 == 1
  | none => match s.remotePs p with
    | some ps => match s.linkKey ps.handle with
      | some (n, _) => n % 2 == 1
      | none => false
    | none => false

/-- The initialization vector of a frame on the port of side `d` (R99): direction (up), the full tick number of SEQ, port, TYPE, the ordinal of an
asynchronous frame. -/
def ivFor (up : Bool) (d : Half) (tick p ty ord : Nat) : List Nat := le 8 tick ++ [p, b2n up + 2 * hbit d, ty, ord]

/-- The full tick number that ends in SEQ, the nearest one to `now` (R96).
(DEDUCED, safe: log 109.) -/
def fullTick (now seq : Nat) : Nat := now + 2 ^ 15 - (now + 2 ^ 15 + (2 ^ 16 - seq % 2 ^ 16)) % 2 ^ 16

/-- The tag at the end of a frame's data bytes verifies under a key (R98, R99, R101). -/
def tagGood (key : Option (List Nat)) (iv b : List Nat) : Bool :=
  match key with
  | some k => b.drop (b.length - 8) == gcmTag k iv (b.take (b.length - 8))
  | none => false

/-- A frame under the link key of a KEYGEN at the port `p` (R93, R98, R99): data bytes, tag, blocks. A port whose link key Locket has withdrawn
has no tag to give: those 8 bytes are free.
(DESIGN CHOICE, unsafe: log 110.) -/
def State.mkFrame (s : State) (p start : Nat) (gen auth : Bool) (iv bytes : List Nat) : SentFrame :=
  let tag := if auth then
      match s.linkKeyGen p gen with
      | some k => gcmTag k iv bytes
      | none => (List.range 8).map fun i => s.freeVal i % 256
    else []
  { tick := unle (iv.take 8), start := start, bytes := bytes, tagged := auth, iv := iv, tag := tag,
    blocks := (chunks 32 ((bytes.length + 39) / 32) (bytes ++ tag)).map rsEncode }

end Sys2Proof.Machine
end

