-- ==== Sys2Proof/Machine/Link.lean ====
section
/-!
DEFINITION. The Nepel link (spec 03): port states, delay measurement, joining, asynchronous channels, and what a remote
accepts. The tick frames the device receives and sends stand in Machine/Frames.lean.
-/

namespace Sys2Proof.Machine

/-- NLK_CFG of a port (R122). -/
def State.nlkCfg (s : State) (h : Half) (p : Nat) : Word := s.rg .nlk h (p * 0x40)

/-- EN and AUTH of a port in force. -/
def State.portEn (s : State) (h : Half) (p : Nat) : Bool := bitAt (s.nlkCfg h p) 31
def State.portAuth (s : State) (h : Half) (p : Nat) : Bool := bitAt (s.nlkCfg h p) 30

/-- A port takes a state; a change raises event 0x0401 (R88, R528). -/
def State.setPstate (s : State) (h : Half) (p new cause : Nat) : State :=
  let q := s.port h p
  if q.pstate = new then s
  else (s.mPort h p fun q => { q with pstate := new }).ev h 1 0x0401 ([p, q.pstate, new, cause] ++ le 2 q.delay)

/-- LINE_SYNC_GAINED (R87, R88): after three commas, each followed by valid characters.
(DESIGN CHOICE, safe: log 7.) -/
def execLineSyncGained (h : Half) (p commas : Nat) (s : State) : Out :=
  if commas < 3 ∨ (s.port h p).sync then .next s
  else
  let s := s.mPort h p fun q => { q with sync := true, syncTick := s.tick h }
  if s.portEn h p && (s.port h p).pstate = 0 then .next (s.setPstate h p 1 1) else .next s

/-- LINE_SYNC_LOST (R87, R88, R127): the port goes DOWN, and its remote must join again on that side.
(DESIGN CHOICE, unsafe: log 114.) -/
def execLineSyncLost (h : Half) (p cvs chars : Nat) (s : State) : Out :=
  if (cvs < 4 ∧ chars < 2500) ∨ (s.port h p).sync = false then .next (s.bump .nlk h (p * 0x40 + 0x10) cvs)
  else
  let s := (s.bump .nlk h (p * 0x40 + 0x10) cvs).bump .nlk h (p * 0x40 + 0x14) 1
  let s := s.setPstate h p 0 1
  let s := s.mPort h p fun q => { q with sync := false, joinSent := none }
  .next (s.mRem p fun r => match h with
    | .A => { r with sideA := { r.sideA with joined := false } }
    | .B => { r with sideB := { r.sideB with joined := false } })

/-- MEASURE_ENTRY (R88, R91): 8 ticks in sync; the samples held before are discarded. -/
def execMeasureEntry (h : Half) (p : Nat) (s : State) : Out :=
  let q := s.port h p
  if q.pstate = 1 && q.sync && decide (q.syncTick + 8 ≤ s.tick h) then
    .next ((s.setPstate h p 2 0).mPort h p fun q => { q with samples := [], valid := false })
  else .next s

/-- Where the marker of the next edge starts in the tick and its FINE, for a delay in force (R89). -/
def markerPlace (delay : Nat) : Nat × Nat :=
  let t := 50000 - delay
  (t / 40 * 40, (t - t / 40 * 40) / 4)

/-- TICK_MARKER_SEND (R74, R89). -/
def execTickMarkerSend (h : Half) (p : Nat) (s : State) : Out :=
  let q := s.port h p
  if q.pstate = 0 then .next s
  else
    let m := markerPlace q.delay
    .next (s.mPort h p fun q => { q with tm := some (m.1, m.2, (s.tick h + 1) % 2 ^ 16) })

/-- DPR_SEND (R90): in ticks whose number is a multiple of 16, and in every tick while the port is in MEASURE. -/
def execDprSend (h : Half) (p : Nat) (s : State) : Out :=
  let q := s.port h p
  if q.pstate ≠ 0 && (s.tick h % 16 == 0 || q.pstate == 2) then
    .next (s.mPort h p fun q => { q with dprTick := some (s.tick h) })
  else .next s

/-- Insert into a rising list. -/
def insertNat (x : Nat) : List Nat → List Nat
  | [] => [x]
  | y :: t => if x ≤ y then x :: y :: t else y :: insertNat x t

/-- The list in rising order. -/
def sortNat (l : List Nat) : List Nat := l.foldl (fun acc x => insertNat x acc) []

/-- The delay target: the mean of the 4th and 5th of the last 8 samples in order (R91); a sample is RTT - TA, twice the one-way delay. -/
def delayTarget (samples : List Nat) : Nat :=
  let l := sortNat samples
  (l.getD 3 0 + l.getD 4 0) / 4

/-- DEC_RECEIVED (R75, R88, R90, R91, R126): a sample of one-way delay; with 8 samples the port leaves MEASURE. A delay above 1.0 us holds the port.
(DESIGN CHOICE, unsafe: log 111.) -/
def execDecReceived (h : Half) (p rtt ta : Nat) (s : State) : Out :=
  let q := s.port h p
  if q.dprTick.isNone || decide (25000 < rtt) then .next s
  else
    let l := ((rtt - ta) :: q.samples).take 8
    let full := decide (l.length = 8)
    let tgt := if full then delayTarget l else q.target
    let s := s.mPort h p fun q => { q with samples := l, target := tgt, dprTick := none }
    if !full then .next s
    else
      let s := if q.pstate = 2 then s.mPort h p fun q => { q with delay := tgt, valid := true } else s
      if 2 ≤ q.pstate ∧ q.pstate ≤ 4 ∧ 1000 < tgt then .next (s.setPstate h p 5 2)
      else if q.pstate = 2 then .next (s.setPstate h p 3 0)
      else .next s

/-- DELAY_SLEW (R91): once per tick the delay in force moves toward the target by at most 4 ns. -/
def execDelaySlew (h : Half) (p : Nat) (s : State) : Out :=
  let q := s.port h p
  if !q.valid || q.pstate = 2 || q.slewTick == some (s.tick h) then .next s
  else
    .next (s.mPort h p fun q =>
      { q with delay := if q.delay < q.target then min q.target (q.delay + 4) else max q.target (q.delay - 4), slewTick := some (s.tick h) })

/-! ### Asynchronous channels (R115-R120) -/

/-- The message bytes of one segment on a port: 488 with a tag, 496 without (R115). -/
def segSize (s : State) (h : Half) (p : Nat) : Nat := if s.portAuth h p then 488 else 496

/-- Queue a message of a TYPE on a port (R115, R116): at most 65,535 bytes. -/
def State.sendMsg (s : State) (h : Half) (p ty : Nat) (b : List Nat) : State :=
  let n := max 1 ((b.length + segSize s h p - 1) / segSize s h p)
  if 65535 < b.length then s
  else s.mPort h p fun q =>
    { q with tx := Machine.upd {} q.tx ty fun x =>
        { x with nextId := (x.nextId + 1) % 2 ^ 16, msgs := x.msgs ++ [{ id := x.nextId, bytes := b, nsegs := n }] } }

/-- The MSG_ID the next message of a TYPE takes. -/
def State.nextMsg (s : State) (h : Half) (p ty : Nat) : Nat := (look {} (s.port h p).tx ty).nextId

/-- The port waits for the acknowledgment of a message. -/
def PortS.unacked (q : PortS) (ty id : Nat) : Bool := (look {} q.tx ty).msgs.any fun m => m.id == id

/-! ### Received asynchronous frames -/

/-- The checks of an asynchronous frame before its tag (R94-R97, R115), in the order of R121: its data bytes, or the counter it goes to. -/
def asyncHead (p : Nat) (types : List Nat) (room : Nat → Nat) (f : RxFrame) : Except Nat (List Nat) :=
  if f.cv then .error 0x10
  else
    match rsDecodeAll f.blocks with
    | none => .error 0x1C
    | some (b, _) =>
      if f.blocks.length ≠ 1 + numAt b 7 1 % 16 ∨ numAt b 0 1 ∉ types ∨ (numAt b 1 1).testBit 1 = false ∨ numAt b 6 1 ≠ p ∨
          room b.length < numAt b 12 2 + 8 * b2n ((numAt b 1 1).testBit 0) then .error 0x28
      else .ok b

/-- The blocks of a frame that took a correction (R94). -/
def rsFixed (blocks : List (List Nat)) : Nat := (blocks.filterMap rsDecode).countP (·.2)

/-- The ordinal of a received frame among those of its TYPE and SEQ (R99).
(DEDUCED, safe: log 109.) -/
def rxOrdinal (q : PortS) (b : List Nat) : Nat :=
  let x := (look {} q.rx (numAt b 0 1)).ord
  if x.1 = numAt b 2 2 then x.2 else 0

/-- The frame's tag is as R101 asks: there where the port demands it, and verified where there. -/
def State.asyncTag (s : State) (h : Half) (p : Nat) (b : List Nat) : Bool :=
  let fl := numAt b 1 1
  if fl.testBit 0 then
    tagGood (s.linkKeyGen p (fl.testBit 2)) (ivFor true h (fullTick (s.tick h) (numAt b 2 2)) p (numAt b 0 1) (rxOrdinal (s.port h p) b)) b
  else !s.portAuth h p

/-- A port counts what a received asynchronous frame costs it (R94, R127), and the frame itself (R99). -/
def State.asyncCount (s : State) (h : Half) (p : Nat) (f : RxFrame) (r : Except Nat (List Nat)) : State :=
  let s := if f.cv then s else s.bump .nlk h (p * 0x40 + 0x18) (rsFixed f.blocks)
  match r with
  | .error off => s.bump .nlk h (p * 0x40 + off) 1
  | .ok b =>
    let n := rxOrdinal (s.port h p) b + 1
    s.mPort h p fun q => { q with rx := Machine.upd {} q.rx (numAt b 0 1) fun x => { x with ord := (numAt b 2 2, n) } }

/-- The message bytes a received segment carries (R115). -/
def segData (b : List Nat) : List Nat := (b.drop 16).take (numAt b 12 2)

/-- The JOIN message (R112); its TICK is set when it is sent. -/
def joinMsg (s : State) (h : Half) (p : Nat) : List Nat :=
  [2, b2n (s.portAuth h p), b2n (s.linkGen p), fld (s.nlkCfg h p) 23 20] ++ le 8 0 ++ [p]

/-- HELLO_RECEIVED (R101, R113, R124): checked only in JOIN; answered with JOIN, or the port goes to HELD. A port without AUTH discards a HELLO whose tag
fails. -/
def execHelloReceived (h : Half) (p : Nat) (f : RxFrame) (s : State) : Out :=
  let q := s.port h p
  if 80 ≤ p ∨ q.pstate = 0 then .next s
  else
    let r := asyncHead p [0x43] (· - 16) f
    let tag := match r with
      | .ok b => s.asyncTag h p b
      | .error _ => true
    let s := (s.asyncCount h p f r).bump .nlk h (p * 0x40 + 0x20) (b2n !tag)
    match r with
    | .error _ => .next s
    | .ok b =>
      let m := segData b
      if q.pstate ≠ 3 ∨ numAt m 0 1 ≠ 1 ∨ m.length < 16 ∨ (!tag && !s.portAuth h p) then .next s
      else if numAt m 1 1 ≠ fld (s.nlkCfg h p) 29 28 then .next (s.setPstate h p 5 3)
      else if s.rg .nlk h (p * 0x40 + 4) ≠ 0 ∧ (s.rg .nlk h (p * 0x40 + 4)).toNat ≠ numAt m 4 4 then .next (s.setPstate h p 5 3)
      else if !tag then .next (s.setPstate h p 5 4)
      else
        let s := s.mPort h p fun q => { q with fwver := numAt m 8 4, caps := numAt m 12 4, keygen := s.linkGen p }
        if (match q.joinSent with | some id => q.unacked 0x43 id | none => false) then .next s
        else .next ((s.sendMsg h p 0x43 (joinMsg s h p)).mPort h p fun x => { x with joinSent := some (s.nextMsg h p 0x43) })

/-- One side of a remote. -/
def Remote.side (r : Remote) : Half → RSide
  | .A => r.sideA
  | .B => r.sideB

/-- Change one side of a remote. -/
def Remote.mSide (r : Remote) (d : Half) (f : RSide → RSide) : Remote :=
  match d with
  | .A => { r with sideA := f r.sideA }
  | .B => { r with sideB := f r.sideB }

/-- A remote whose tick number is set no longer holds its dither register (R246). -/
def State.lostDither (s : State) (p : Nat) : State :=
  { s with cabs := Machine.upd {} s.cabs p fun c => { c with dithOk := false } }

/-- JOIN_ACKNOWLEDGED (R75, R113): once the remote has acknowledged the JOIN, it has taken PORT, UP_BLKS, AUTH_REQ and the tick number, unless its other
side holds another PORT; the port enters SERVICE and sends tick frames from the next tick.
(DESIGN CHOICE, safe: log 21.) -/
def execJoinAcknowledged (h : Half) (p : Nat) (s : State) : Out :=
  let q := s.port h p
  match q.joinSent with
  | none => .next s
  | some id =>
    if q.pstate = 3 ∧ id ∈ (look {} q.tx 0x43).acked ∧ q.delay ≤ 1000 ∧ ((s.rem p).port.isNone ∨ (s.rem p).port = some p) then
      let s := (s.setPstate h p 4 0).mPort h p fun q => { q with joinSent := none, svcFrom := s.tick h + 1 }
      let s := s.mRem p fun r =>
        { r.mSide h fun d => { d with joined := true, upBlks := fld (s.nlkCfg h p) 23 20, authReq := s.portAuth h p } with
          port := some p, tickKnown := true, tick := s.tick h }
      .next (s.lostDither p)
    else .next s

/-- NEXT, the lowest segment not yet received, looking through `n` numbers (R117). -/
def rxNext (segs : Tab (List Nat)) : Nat → Nat → Nat
  | 0, k => k
  | n + 1, k => if segs.any (fun e => e.1 = k) then rxNext segs n (k + 1) else k

/-- MAP: bit `i` set where segment NEXT + 1 + i has been received (R117). -/
def rxMap (segs : Tab (List Nat)) (next : Nat) : Nat :=
  ((List.range 32).map fun i => b2n (segs.any fun e => e.1 = next + 1 + i) * 2 ^ i).sum

/-- A receiver drops the message it was assembling where a segment of another one arrives (R115, R117).
(DESIGN CHOICE, unsafe: log 112.) -/
def AsyncRx.start (x : AsyncRx) (msg : Nat) : AsyncRx :=
  if x.id = some msg then x else { x with id := some msg, segs := [], last := none, whole := false }

/-- A segment joins the message (R115, R117): a message whose segments are all there is complete once. -/
def AsyncRx.segment (x : AsyncRx) (seg : Nat) (data : List Nat) (last : Bool) (due : Option Nat) : AsyncRx :=
  let segs := put [] x.segs seg data
  let l := if last then some seg else x.last
  let n := rxNext segs segs.length 0
  let full := !x.whole && (match l with | some k => decide (k < n) | none => false)
  let msg := (List.range (l.getD 0 + 1)).flatMap fun i => look [] segs i
  { x with segs := segs, last := l, whole := x.whole || full, done := if full ∧ msg.length ≤ 65535 then x.done ++ [msg] else x.done,
           ackDue := match due, x.ackDue with | some t, none => some t | some _, some t => some t | none, _ => none }

/-- The uplink asynchronous types a port takes segments of (R97, R118). -/
def upAsync (p : Nat) : List Nat := if p < 32 then [0x42, 0x43] else [0x40, 0x42, 0x43]

/-- ASYNC_SEGMENT_RECEIVED (R95, R97, R99, R101, R115, R117, R127): a good frame's segment joins its message; another message number starts a new
message, and an incomplete one is dropped and counted.
(DESIGN CHOICE, unsafe: log 112.) -/
def execAsyncSegmentReceived (h : Half) (p : Nat) (f : RxFrame) (s : State) : Out :=
  if 80 ≤ p ∨ (s.port h p).pstate ≠ 4 then .next s
  else
    let r := asyncHead p (upAsync p) (· - 16) f
    let tag := match r with
      | .ok b => s.asyncTag h p b
      | .error _ => true
    let s := (s.asyncCount h p f r).bump .nlk h (p * 0x40 + 0x20) (b2n !tag)
    match r with
    | .error _ => .next s
    | .ok b =>
      if !tag then .next s
      else
        let ty := numAt b 0 1
        let msg := numAt b 8 2
        let x := look {} (s.port h p).rx ty
        let dropped := x.id.isSome && x.id != some msg && !x.whole
        let s := s.bump .nlk h (p * 0x40 + 0x2C) (b2n dropped)
        let y := (x.start msg).segment (numAt b 10 2) (segData b) ((numAt b 14 1).testBit 1) (if ty = 0x40 then none else some (s.tick h + 4))
        .next (s.mPort h p fun q => { q with rx := put {} q.rx ty y })

/-- The oldest complete message of a TYPE on a port with a property; what the receiver keeps. -/
def State.takeMsg (s : State) (h : Half) (p ty : Nat) (sel : List Nat → Bool) : Option (List Nat × State) :=
  match (look {} (s.port h p).rx ty).done.find? sel with
  | none => none
  | some m => some (m, s.mPort h p fun q => { q with rx := Machine.upd {} q.rx ty fun x => { x with done := x.done.erase m } })

/-- ASYNC_ACK_SEND (R117): at most once per tick per message. -/
def execAsyncAckSend (h : Half) (p ty : Nat) (s : State) : Out :=
  let x := look {} (s.port h p).rx ty
  match x.id with
  | none => .next s
  | some m =>
    if x.ackDue.isNone || x.ackTick == some (s.tick h) then .next s
    else
      let n := rxNext x.segs x.segs.length 0
      .next (s.mPort h p fun q => { q with rx := Machine.upd {} q.rx ty fun x =>
        { x with ackDue := none, ackTick := some (s.tick h), ackOut := some (m, n, rxMap x.segs n) } })

/-- What an acknowledgment does at the sender (R117): acknowledged segments are freed; a message wholly acknowledged is done. -/
def AsyncTx.ack (x : AsyncTx) (msg next map : Nat) : AsyncTx :=
  match x.msgs with
  | m :: t =>
    if m.id ≠ msg then x
    else if m.nsegs ≤ next then { x with msgs := t, acked := (m.id :: x.acked).take 64 }
    else
      let left := m.out.filter fun e => decide (next ≤ e.1) && !(decide (next < e.1) && map.testBit (e.1 - next - 1))
      { x with msgs := { m with next := max m.next next, out := left, again := m.again.filter (fun k => left.any fun e => e.1 == k) } :: t }
  | [] => x

/-- ASYNC_ACK_RECEIVED (R95, R97, R101, R117). -/
def execAsyncAckReceived (h : Half) (p : Nat) (f : RxFrame) (s : State) : Out :=
  let q := s.port h p
  if 80 ≤ p ∨ (q.pstate ≠ 3 ∧ q.pstate ≠ 4) then .next s
  else
    let r := asyncHead p [0x4F] (· - 16) f
    let tag := match r with
      | .ok b => s.asyncTag h p b
      | .error _ => true
    let s := (s.asyncCount h p f r).bump .nlk h (p * 0x40 + 0x20) (b2n !tag)
    match r with
    | .error _ => .next s
    | .ok b =>
      if !tag then .next s
      else
        let m := b.drop 16
        .next (s.mPort h p fun q => { q with tx := Machine.upd {} q.tx (numAt m 0 1) fun x => x.ack (numAt m 2 2) (numAt m 4 2) (numAt m 8 4) })

/-- SEGMENT_RESEND_TIMEOUT (R116, R117): after 40 ticks the segment is to be sent again, in its turn and window; after 8 resends the message is abandoned
and counted. -/
def execSegmentResendTimeout (h : Half) (p ty seg : Nat) (s : State) : Out :=
  match (look {} (s.port h p).tx ty).msgs with
  | [] => .next s
  | m :: t =>
    match m.out.find? (fun e => e.1 = seg) with
    | none => .next s
    | some e =>
      if s.tick h < e.2.1 + 40 ∨ seg ∈ m.again then .next s
      else if 8 ≤ e.2.2 then
        .next ((s.mPort h p fun q => { q with tx := Machine.upd {} q.tx ty fun x => { x with msgs := t } }).bump .nlk h (p * 0x40 + 0x2C) 1)
      else
        .next (s.mPort h p fun q => { q with tx := Machine.upd {} q.tx ty fun x => { x with msgs := { m with again := m.again ++ [seg] } :: t } })

/-! ### Sent asynchronous frames -/

/-- The blocks of the frame that carries `n` message bytes: a header block with 16 payload bytes, then 32 each (R98, R115). -/
def segBlocks (n : Nat) (tagged : Bool) : Nat :=
  let b := n + if tagged then 8 else 0
  1 + (b - 16 + 31) / 32

/-- READY has been sent and edge H has not come (R144, R145). -/
def State.readySent (s : State) (h : Half) : Bool :=
  (match s.ho with | some x => decide (3 ≤ x.phase) | none => false) &&
    (match s.ref.rel with | some r => decide (r.edge ≤ s.tick h + 2) | none => false)

/-- The message of a TYPE and its segment that may start next on a port (R116, R117, R119, R145): a segment to send again, else the next one, within 32
segments of NEXT for an acknowledged TYPE. Tunnel messages go only from the half in charge, and none begins after READY. -/
def sendable (s : State) (h : Half) (q : PortS) (ty : Nat) : Option (AsyncMsg × Nat) :=
  match (look {} q.tx ty).msgs with
  | [] => none
  | m :: _ =>
    match m.again with
    | k :: _ => some (m, k)
    | [] =>
      if m.nsegs ≤ m.sent then none
      else if ty = 0x40 then
        (if s.charge = some h ∧ (m.sent ≠ 0 ∨ s.readySent h = false) ∧ (s.hf h).twn.tunFrom ≤ s.tick h then some (m, m.sent) else none)
      else if m.sent < m.next + 32 then some (m, m.sent) else none

/-- JOIN and TIME carry the tick of the frame they go in (R112).
(DESIGN CHOICE, unsafe: log 43.) -/
def stampMsg (ty tick : Nat) (b : List Nat) : List Nat :=
  if ty = 0x43 ∧ (b.headD 0 = 2 ∨ b.headD 0 = 3) then b.take 4 ++ le 8 tick ++ b.drop 12
  else if ty = 0x43 ∧ b.headD 0 = 5 then b.take 4 ++ le 8 (max (numAt b 4 8) (tick + 4)) ++ b.drop 12
  else b

/-- The port forms and sends an asynchronous frame (R95-R99, R115): MSG_ID, SEG, its message bytes, FIRST and LAST. -/
def State.putAsync (s : State) (h : Half) (p ty id seg : Nat) (data : List Nat) (last : Bool) : State :=
  let q := s.port h p
  let auth := s.portAuth h p
  let n := segBlocks data.length auth - 1
  let ords := if q.ordTick = s.tick h then q.ords else []
  let ord := look 0 ords ty
  let head := [ty, b2n auth + 4 * b2n (auth && q.keygen)] ++ le 2 (s.tick h) ++ le 2 (s.hf h).twn.claim ++ [p, n] ++ le 2 id ++ le 2 seg ++ le 2 data.length
    ++ [b2n (seg == 0) + 2 * b2n last, 0]
  let area := 16 + 32 * n - if auth then 8 else 0
  let fr := s.mkFrame p 0 q.keygen auth (ivFor false h (s.tick h) p ty ord) (head ++ padTo area data)
  let s := if auth ∧ s.linkKeyGen p q.keygen = none then s.drew 8 else s
  s.mPort h p fun q => { q with asy := some fr, ords := put 0 ords ty (ord + 1), ordTick := s.tick h }

/-- The sender's record of a segment sent (R116, R117): a tunnel message is done with its last one. -/
def AsyncTx.sentSeg (x : AsyncTx) (ty seg tick : Nat) (claimOk : Bool) : AsyncTx :=
  match x.msgs with
  | [] => x
  | m :: t =>
    if ty = 0x40 then
      if m.nsegs ≤ seg + 1 then { x with msgs := t } else { x with msgs := { m with sent := seg + 1, claimOk := m.claimOk && claimOk } :: t }
    else if seg < m.sent then
      { x with msgs := { m with out := m.out.map fun o => if o.1 = seg then (seg, tick, o.2.2 + 1) else o, again := m.again.filter (· ≠ seg) } :: t }
    else { x with msgs := { m with sent := seg + 1, out := m.out ++ [(seg, tick, 0)] } :: t }

/-- A remote uses TIME from a frame whose claim is its claim in force, or while it has none (R114). -/
def remoteTakesTime (h : Half) (claim tick edge stepTo : Nat) (r : Remote) : Remote :=
  if (r.side h).joined && (r.cif.isNone || r.cif == some claim) then
    { r with tick := tick, tickKnown := true, stepEdge := edge, stepTo := stepTo }
  else r

/-- A remote uses KEYROLL under the same rule (R114, R442): it then holds both generations, or drops a pending roll where AT is 0. `key`: the key of
a generation counter under its PS. -/
def remoteTakesRoll (h : Half) (claim gen at_ : Nat) (key : Nat → Option (List Nat)) (r : Remote) : Remote :=
  if (r.side h).joined && (r.cif.isNone || r.cif == some claim) then
    if at_ = 0 then { r with link2 := none, rollAt := none, dropAt := none }
    else match r.link with
      | some (n, _) =>
        match key (n + 1) with
        | some k => if gen = (n + 1) % 2 then { r with link2 := some (n + 1, k), rollAt := some at_, dropAt := some (at_ + 100) } else r
        | none => r
      | none => r
  else r

/-- The remote stores an image message that goes on where it stands, from either side (R120, R614). -/
def remoteTakesImage (h : Half) (b : List Nat) (r : Remote) : Remote :=
  let off := numAt b 4 4
  if !(r.side h).joined then r
  else if off = 0 ∨ (r.imgId = b.take 4 ∧ r.imgNext = off) then { r with imgId := b.take 4, imgNext := off + (b.length - 8) }
  else r

/-- The remote passes a tunnel message on to its PHY only if every segment carried its claim in force; it buffers 8 and drops the oldest (R119). -/
def remoteTakesTunnel (h : Half) (ok : Bool) (b : List Nat) (r : Remote) : Remote :=
  if (r.side h).joined && ok then
    let l := r.phy ++ [b]
    { r with phy := l.drop (l.length - 8), phyDrop := r.phyDrop + (l.length - 8) }
  else r

/-- A dispenser keeps a DCMD until its edge; it uses one only from a frame with its claim in force (R346). -/
def remoteTakesDcmd (h : Half) (ok : Bool) (b : List Nat) (r : Remote) : Remote :=
  if (r.side h).joined && ok then
    { r with dcmds := r.dcmds ++ [{ seq := numAt b 2 2, edge := numAt b 4 8, act := numAt b 12 2, ov := numAt b 16 4 }] }
  else r

/-- NEPEL LINK key of a generation counter under a PS (R441). -/
def nepelKey (ps : List Nat) (rid n : Nat) : List Nat := hkdf256 ps ([78, 69, 80, 69, 76, 32, 76, 73, 78, 75] ++ le 4 rid ++ le 4 n) 32

/-- A message whose last segment has gone out for the first time is at the remote (R112, R114, R119, R120, R442).
(DESIGN CHOICE, safe: log 21.) -/
def State.remoteTakes (s : State) (h : Half) (p ty : Nat) (claimOk : Bool) (b : List Nat) : State :=
  let claim := (s.hf h).twn.claim
  if ty = 0x43 ∧ b.headD 0 = 3 then (s.mRem p (remoteTakesTime h claim (numAt b 4 8) (numAt b 12 8) (numAt b 20 8))).lostDither p
  else if ty = 0x43 ∧ b.headD 0 = 4 then
    s.mRem p (remoteTakesRoll h claim (numAt b 1 1) (numAt b 4 8) fun n => (s.remotePs p).map fun k => nepelKey k.mat (k.binding % 2 ^ 32) n)
  else if ty = 0x43 ∧ b.headD 0 = 5 then s.mRem p (remoteTakesDcmd h claimOk b)
  else if ty = 0x40 then s.mRem p (remoteTakesTunnel h claimOk b)
  else if ty = 0x41 then s.mRem p (remoteTakesImage h b)
  else s

/-- A segment goes out: the frame, the sender's record, and the message where it is whole (R115-R117). -/
def State.sendSeg (s : State) (h : Half) (p ty : Nat) (m : AsyncMsg) (seg : Nat) : State :=
  let b := stampMsg ty (s.tick h) m.bytes
  let size := segSize s h p
  let last := decide (m.nsegs ≤ seg + 1)
  let ok := (s.rem p).cif == some (s.hf h).twn.claim
  let s := s.putAsync h p ty m.id seg ((b.drop (seg * size)).take size) last
  let s := s.mPort h p fun q => { q with tx := Machine.upd {} q.tx ty fun x => x.sentSeg ty seg (s.tick h) ok }
  if last && decide (m.sent ≤ seg) then s.remoteTakes h p ty (m.claimOk && ok) b else s

/-- The acknowledgment payload (R117). -/
def ackBytes (ty : Nat) (a : Nat × Nat × Nat) : List Nat := [ty, 0] ++ le 2 a.1 ++ le 2 a.2.1 ++ [0, 0] ++ le 4 a.2.2

/-- ASYNC_FRAME_SEND (R53, R88, R102, R116): acknowledgments first, then 0x43, 0x40, 0x41; management messages only in JOIN. The frame starts only if it
ends within its window, which throttling (R328) and back-pressure (R164) shorten. -/
def execAsyncFrameSend (h : Half) (p room : Nat) (s : State) : Out :=
  let q := s.port h p
  let room := room * (100 - 25 * (s.hf h).thm.step) / 100
  let room := match pertMag s h 3 p with
    | some m => room * (100 - m) / 100
    | none => room
  if 80 ≤ p ∨ (q.pstate ≠ 4 ∧ q.pstate ≠ 3) ∨ s.pstate = 1 then .next s
  else
    let acks := if q.pstate = 4 then q.rx.filterMap fun e => e.2.ackOut.map fun a => (e.1, a) else []
    match acks with
    | e :: _ =>
      if segBlocks 12 (s.portAuth h p) ≤ min 16 room then
        let id := s.nextMsg h p 0x4F
        .next ((s.putAsync h p 0x4F id 0 (ackBytes e.1 e.2) true).mPort h p fun q =>
          { q with rx := Machine.upd {} q.rx e.1 fun x => { x with ackOut := none },
                   tx := Machine.upd {} q.tx 0x4F fun x => { x with nextId := (id + 1) % 2 ^ 16 } })
      else .next s
    | [] =>
      match (if q.pstate = 4 then [0x43, 0x40, 0x41] else [0x43]).find? (fun ty => (sendable s h q ty).isSome) with
      | none => .next s
      | some ty =>
        match sendable s h q ty with
        | none => .next s
        | some (m, seg) =>
          if segBlocks (min (segSize s h p) (m.bytes.length - seg * segSize s h p)) (s.portAuth h p) ≤ min 16 room then .next (s.sendSeg h p ty m seg)
          else .next s

/-- BULK_LOG_RECEIVED (R120): each half keeps its own copy. -/
def execBulkLogReceived (h : Half) (p : Nat) (s : State) : Out :=
  match s.takeMsg h p 0x42 (fun _ => true) with
  | none => .next s
  | some (m, s) => .next (s.mh h fun x => { x with bulk := Machine.upd [] x.bulk p (· ++ [m]) })

/-- The TIME message (R112); its TICK is set when it is sent. -/
def timeMsg (edge stepTo : Nat) : List Nat := [3, 0, 0, 0] ++ le 8 0 ++ le 8 edge ++ le 8 stepTo

/-- TIME_MESSAGE_SEND (R114): every 20,000 ticks, and ahead of a step with its edge and number.
(DESIGN CHOICE, safe: log 21.) -/
def execTimeMessageSend (h : Half) (s : State) : Out :=
  let t := (s.hf h).tck
  let se : Nat × Nat := match t.step with
    | some r => (r.edge, ((r.edge : Int) + r.ticks).toNat)
    | none => (0, 0)
  if t.tick % 20000 = 0 || (se.1 ≠ 0 && decide (t.tick + 100 ≤ se.1)) then
    .next (((List.range 80).filter fun p => (s.port h p).pstate == 4).foldl (fun s p => s.sendMsg h p 0x43 (timeMsg se.1 se.2)) s)
  else .next s

/-! ### What a remote accepts (R103-R110) -/

/-- The main downlink type of the remote at a port (R97). -/
def mainType (p : Nat) : Nat := if p < 32 then 0x11 else 0x12

/-- A frame that passes R95: its data bytes. -/
def frameBytes (f : RxFrame) : Option (List Nat) :=
  if f.cv then none
  else
    match rsDecodeAll f.blocks with
    | none => none
    | some (d, _) => if f.blocks.length = 1 + numAt d 7 1 % 16 then some d else none

/-- The link key of a KEYGEN that a remote holds (R442). -/
def Remote.keyOf (r : Remote) (g : Bool) : Option (List Nat) :=
  match r.link, r.link2 with
  | some (n, k), x => if (n % 2 == 1) = g then some k else match x with
    | some (m, j) => if (m % 2 == 1) = g then some j else none
    | none => none
  | none, some (m, j) => if (m % 2 == 1) = g then some j else none
  | none, none => none

/-- A remote counts a downlink tick frame on side `d` as good (R103): its type, claim, RESUME and payload. -/
def goodDown (r : Remote) (p : Nat) (d : Half) (f : RxFrame) : Option (Nat × RFrame) :=
  match frameBytes f with
  | none => none
  | some b =>
    let ty := numAt b 0 1
    let fl := numAt b 1 1
    let auth := fl.testBit 0
    let need := ty == 0x15 || (r.side d).authReq
    let pay := b.drop 8
    if (ty = mainType p ∨ ty = 0x15) && !fl.testBit 1 && r.port == some (numAt b 6 1)
        && numAt b 4 2 % 2 == hbit d && numAt b 2 2 == r.tick % 2 ^ 16 && decide (f.at_ < 49000)
        && (auth || !need) && (!auth || (r.tickKnown && tagGood (r.keyOf (fl.testBit 2)) (ivFor false d r.tick p ty 0) b)) then
      some (ty, { claim := numAt b 4 2, resume := fl.testBit 3,
                  bytes := if auth then pay.take (pay.length - 8) else pay })
    else none

/-- The higher of a claim and what stood before. -/
def maxClaim : Option Nat → Option Nat → Option Nat
  | none, b => b
  | a, none => a
  | some a, some b => some (max a b)

/-- Selection among the copies of one type (R105): (first, spare) after a good frame, with the claim in force. -/
def selectCopy (cif : Nat) (f : RFrame) (first spare : Option RFrame) : Option RFrame × Option RFrame :=
  if first.isSome then (first, spare)
  else if f.claim = cif then (some f, spare)
  else if spare.isNone then (first, some f)
  else (first, spare)

/-- A good downlink tick frame at a remote (R105). -/
def Remote.accept (r : Remote) (d : Half) (ty : Nat) (f : RFrame) : Remote :=
  let r := match d with
    | .A => { r with winA := modAt r.winA 0 fun w => maxClaim w (some f.claim) }
    | .B => { r with winB := modAt r.winB 0 fun w => maxClaim w (some f.claim) }
  let cif := (maxClaim r.cif (some f.claim)).getD 0
  let r := { r with cif := some cif }
  if ty = 0x15 then
    let x := selectCopy cif f r.firstHarv r.spareHarv
    { r with firstHarv := x.1, spareHarv := x.2 }
  else
    let x := selectCopy cif f r.firstMain r.spareMain
    { r with firstMain := x.1, spareMain := x.2 }

/-- REMOTE_DOWNLINK_TICK_FRAME (R103-R105). -/
def execRemoteDownlinkTickFrame (p : Nat) (d : Half) (f : RxFrame) (s : State) : Out :=
  match goodDown (s.rem p) p d f with
  | none => .next s
  | some (ty, g) => .next (s.mRem p fun r => r.accept d ty g)

/-- REMOTE_SELECTION_49US (R105). -/
def execRemoteSelection49us (p : Nat) (s : State) : Out :=
  .next (s.mRem p fun r =>
    { r with firstMain := if r.firstMain.isNone then r.spareMain else r.firstMain,
             firstHarv := if r.firstHarv.isNone then r.spareHarv else r.firstHarv })

/-- The claim in force at an edge: the highest of both windows (R104, R105). -/
def windowClaim (a b : List (Option Nat)) : Option Nat := (a ++ b).foldl maxClaim none

/-- The main command at a remote's edge (R105, R106, R108, R109). -/
def Remote.applyMain (r : Remote) (p : Nat) : Remote :=
  match r.firstMain with
  | some f =>
    if r.linkLost then
      if f.resume then
        { r with linkLost := false, missed := 0, applied := f.bytes, zeroCur := true, contactors := 0, sinceL := 0, open5 := 0,
                 shutdownSig := false }
      else { r with missed := 0 }
    else { r with applied := f.bytes, missed := 0, zeroCur := false }
  | none =>
    let m := r.missed + 1
    if m = 3 && !r.linkLost then
      { r with missed := m, linkLost := true, sinceL := 0, open5 := 0, zeroCur := true, shutdownSig := decide (32 ≤ p) }
    else { r with missed := m }

/-- In LINK_LOST a remote opens each contactor once the current through it is below 5 A on 2 consecutive samples (R108). -/
def Remote.linkLostStep (r : Remote) (was : Bool) (below5 : Nat) : Remote :=
  if r.linkLost then
    let go := r.contactors &&& r.open5 &&& below5
    { r with sinceL := if was then r.sinceL + 1 else 0, open5 := below5, contactors := r.contactors ^^^ go }
  else r

/-- At AT the remote's other link key comes in force, and 100 ticks later it drops the old one (R442). -/
def Remote.rollStep (r : Remote) (tick : Nat) : Remote :=
  let r := match r.rollAt with
    | some t => if t ≤ tick then { r with link := r.link2, link2 := r.link, rollAt := none } else r
    | none => r
  match r.dropAt with
  | some t => if t ≤ tick then { r with link2 := none, dropAt := none } else r
  | none => r

/-- REMOTE_TICK_EDGE (R51, R105-R109, R114, R119, R346, R442, R484): apply or hold the main command, pass the Harvitor PDU, shift the windows,
recompute the claim in force, which with LOST goes into the uplink frames of the tick, and take the next tick number. Its PHY sends a free number of the
messages it holds. -/
def execRemoteTickEdge (p below5 : Nat) (v : Int) (s : State) : Out :=
  .next ((s.drew 1).mRem p fun r =>
    let was := r.linkLost
    let r := ((r.applyMain p).linkLostStep was below5).overVolt p v
    let a := (none :: r.winA).take 8
    let b := (none :: r.winB).take 8
    let next := if r.stepEdge ≠ 0 ∧ r.tick + 1 = r.stepEdge then r.stepTo else r.tick + 1
    let r := { r with harvIn := if r.firstHarv.isSome then r.firstHarv else r.harvIn, winA := a, winB := b, cif := windowClaim a b,
                      firstMain := none, spareMain := none, firstHarv := none, spareHarv := none, tick := next,
                      stepEdge := if next = r.stepTo then 0 else r.stepEdge }
    let r := { r.rollStep next with upClaim := r.cif.getD 0, upValid := r.cif.isSome, upLost := r.linkLost, phy := r.phy.drop (s.freeVal 0 % 9) }
    r.harvEdge p (s.connTexp p) (s.connCid p))

/-- REMOTE_TICK_MARKER (R92): the marker of the side of the claim in force, else the other side's; a SEQ out of turn leaves the
tick number unknown. With neither the remote places its edge on its own timebase. Without a claim in force side A's marker is looked at first.
(DESIGN CHOICE, unsafe: log 113.) -/
def execRemoteTickMarker (p : Nat) (a b : Option Nat) (s : State) : Out :=
  let r := s.rem p
  let first := match r.cif with
    | some c => if c % 2 = 0 then (a, b) else (b, a)
    | none => (a, b)
  let seq := match first with
    | (some x, _) => some x
    | (none, y) => y
  match seq with
  | none => .next s
  | some q => if q = (r.tick + 1) % 2 ^ 16 then .next s else .next (s.mRem p fun r => { r with tickKnown := false })

/-- LINK_LOST_FORCE_OPEN (R108). -/
def execLinkLostForceOpen (p : Nat) (s : State) : Out :=
  let r := s.rem p
  if r.linkLost && decide (500 ≤ r.sinceL) && r.contactors ≠ 0 then
    .next (s.mRem p fun r => { r with contactors := 0, breakLoad := r.breakLoad + 1 })
  else .next s

/-- The HELLO message of the remote at a port (R112). -/
def helloMsg (p : Nat) : List Nat :=
  [1, if p < 32 then 1 else 2, 0, 0] ++ le 4 (Config.remoteIdent p) ++ le 4 (Config.remoteFwver p) ++ le 4 (Config.remoteCaps p)

/-- REMOTE_HELLO_SEND (R113): every 100 ticks until that side's JOIN, by a remote in sync on that side: one whose port sends.
(DESIGN CHOICE, safe: log 21.) -/
def execRemoteHelloSend (p : Nat) (d : Half) (s : State) : Out :=
  let x := (s.rem p).side d
  let due := match x.helloTick with
    | some t => decide (t + 100 ≤ (s.rem p).tick)
    | none => true
  if !x.joined && due && s.portEn d p then
    .next (s.mRem p fun r => r.mSide d fun x => { x with helloTick := some r.tick, hello := helloMsg p })
  else .next s

/-- REMOTE_POWER_UP_OR_RESET (R110, R442): LINK_LOST, no claim in force, contactors open; the link key in force is kept. -/
def execRemotePowerUpOrReset (p : Nat) (s : State) : Out :=
  .next { s with rems := put {} s.rems p { link := (s.rem p).link }, cabs := del s.cabs p }

end Sys2Proof.Machine
end

