-- ==== Sys2Proof/Machine/Flags.lean ====
section
/-!
DEFINITION. Lane arithmetic (R170, R171): exact integers, rounding to nearest with ties away from zero, saturation and the
SAT flag it sets.
-/

namespace Sys2Proof.Machine

/-- Divide by 2^k, rounding to nearest with ties away from zero (R171). -/
def roundShift (v : Int) (k : Nat) : Int :=
  if k = 0 then v
  else if 0 ≤ v then (v + 2 ^ (k - 1)) / 2 ^ k
  else -((-v + 2 ^ (k - 1)) / 2 ^ k)

/-- Divide, rounding to nearest with ties away from zero (R171); 0 for a divisor of 0. -/
def roundDiv (v : Int) (d : Nat) : Int :=
  if d = 0 then 0
  else if 0 ≤ v then (2 * v + d) / (2 * d)
  else -((2 * -v + d) / (2 * d))

/-- Saturate to a signed range of `bits` bits; the flag says that the value changed (R171). -/
def satTo (bits : Nat) (v : Int) : Int × Bool :=
  if v < -(2 ^ (bits - 1)) then (-(2 ^ (bits - 1)), true)
  else if 2 ^ (bits - 1) - 1 < v then (2 ^ (bits - 1) - 1, true)
  else (v, false)

/-- Saturate to a value register. -/
def sat16 (v : Int) : Int := (satTo 16 v).1

/-- Saturate to an accumulator. -/
def sat40 (v : Int) : Int := (satTo 40 v).1

/-- Value register `i` of a lane as an integer (R170). -/
def LaneS.rv (l : LaneS) (i : Nat) : Int := (look 0 l.v i).toInt

/-- Accumulator `i` of a lane as an integer (R170). -/
def LaneS.ra (l : LaneS) (i : Nat) : Int := (look 0 l.a i).toInt

/-- Predicate `i` of a lane. -/
def LaneS.rp (l : LaneS) (i : Nat) : Bool := look false l.p i

/-- Pointer register `i` of a lane. -/
def LaneS.rx (l : LaneS) (i : Nat) : Lw := look 0 l.x i

/-- Set value register `i` to a word. -/
def LaneS.setV (l : LaneS) (i : Nat) (v : Lw) : LaneS := { l with v := put 0 l.v i v }

/-- Set value register `i` to an integer, saturating and setting SAT (R171). -/
def LaneS.satV (l : LaneS) (i : Nat) (v : Int) : LaneS :=
  let r := satTo 16 v
  { l with v := put 0 l.v i (BitVec.ofInt 16 r.1), sat := l.sat || r.2 }

/-- Set accumulator `i` to an integer, saturating and setting SAT (R171). -/
def LaneS.satA (l : LaneS) (i : Nat) (v : Int) : LaneS :=
  let r := satTo 40 v
  { l with a := put 0 l.a i (BitVec.ofInt 40 r.1), sat := l.sat || r.2 }

/-- Set predicate `i`. -/
def LaneS.setP (l : LaneS) (i : Nat) (b : Bool) : LaneS := { l with p := put false l.p i b }

/-- Set pointer register `i`. -/
def LaneS.setX (l : LaneS) (i : Nat) (v : Lw) : LaneS := { l with x := put 0 l.x i v }

/-- The signed comparison of CMP (R180). -/
def ccHolds : Cc → Int → Int → Bool
  | .eq, a, b => decide (a = b)
  | .ne, a, b => decide (a ≠ b)
  | .lt, a, b => decide (a < b)
  | .le, a, b => decide (a ≤ b)
  | .gt, a, b => decide (b < a)
  | .ge, a, b => decide (b ≤ a)

/-- The operation of PLOG (R180). -/
def plopVal : Plop → Bool → Bool → Bool
  | .and, a, b => a && b
  | .or, a, b => a || b
  | .xor, a, b => a != b
  | .andNot, a, b => a && !b

end Sys2Proof.Machine
end

