-- ==== Sys2Proof/Machine/Operands.lean ====
section
/-!
DEFINITION. What a lane instruction reads and writes: the lane address space (R172-R176), effective addresses (R177, R179),
result lines (R198), and how a lane moves from one instruction to the next (R178, R181).
-/

namespace Sys2Proof.Machine

/-- Lane `l` of half `h`. -/
def State.lane (s : State) (h : Half) (l : Nat) : LaneS := look {} (s.hf h).cln.lanes l

/-- Change the lanes, slots, images and loops of half `h`. -/
def State.mCln (s : State) (h : Half) (f : ClnS → ClnS) : State := s.mh h fun x => { x with cln := f x.cln }

/-- Change lane `l` of half `h`. -/
def State.mLane (s : State) (h : Half) (l : Nat) (f : LaneS → LaneS) : State :=
  s.mCln h fun c => { c with lanes := Machine.upd {} c.lanes l f }

/-- The image whose first code word stands at `base` of half `h`'s program store (R182). -/
def State.image (s : State) (h : Half) (base : Nat) : Option Image := (s.hf h).cln.images.find? (fun i => i.base == base)

/-- The lane whose block a lane works under: a spare works under the lane it shadows (R147, R173). -/
def State.laneIdx (s : State) (h : Half) (l : Nat) : Nat := ((s.lane h l).shadowOf).getD l

/-- CLN_LCFG0 and CLN_LCFG1 of a lane in force (R188, R189). -/
def State.lcfg0 (s : State) (h : Half) (l : Nat) : Word := s.rg .cln h (0x20 * l)
def State.lcfg1 (s : State) (h : Half) (l : Nat) : Word := s.rg .cln h (0x20 * l + 4)

/-- The image bound to a lane. -/
def State.laneImage (s : State) (h : Half) (l : Nat) : Option Image := s.image h (fld (s.lcfg0 h (s.laneIdx h l)) 15 0)

/-- The enabled cabinet whose sequencer lane is `l` (R238, R265). -/
def State.seqCab (s : State) (h : Half) (l : Nat) : Option Nat :=
  (List.range 32).find? fun c => s.rb .pst h (0x100 * c) 31 && s.rf .pst h (0x100 * c) 29 24 == l

/-- Parameter word `n` of lane `l` in force (R191). In a sequencer lane words 0x00-0x21 mirror the cabinet's PST_ record and
PST_SITE (R261). -/
def State.param (s : State) (h : Half) (l n : Nat) : Nat :=
  let cell (w : Word) : Nat := fldN w.toNat (16 * (n % 2) + 15) (16 * (n % 2))
  let own := cell (s.rg .cln h (0x10000 + 0x200 * l + n / 2 * 4))
  if n < 0x22 then
    match s.seqCab h l with
    | some c => if n < 0x20 then cell (s.rg .pst h (0x100 * c + n / 2 * 4)) else cell (s.rg .pst h 0x2000)
    | none => own
  else own

/-- A CLN_ word that mirrors the PST_ map in force (R261). -/
def State.mirrored (s : State) (h : Half) (off : Nat) : Bool :=
  decide (0x10000 ≤ off ∧ off < 0x10000 + 0x200 * 60 ∧ (off - 0x10000) % 0x200 < 0x44) && (s.seqCab h ((off - 0x10000) / 0x200)).isSome

/-- A CLN_ word as a read gives it (R191, R261). -/
def State.clnView (s : State) (h : Half) (off : Nat) : Word :=
  if s.mirrored h off then
    let l := (off - 0x10000) / 0x200
    let n := (off - 0x10000) % 0x200 / 4 * 2
    BitVec.ofNat 32 (s.param h l n + 2 ^ 16 * s.param h l (n + 1))
  else s.rg .cln h off

/-- The fallback cap of an intake point (R19, R276): FALLBACK of its node, or half its LIMIT where FALLBACK is all ones. -/
def State.fallbackCap (s : State) (h : Half) (intake : Nat) : Int :=
  match (List.range 1024).find? fun i =>
      s.rf .cnp h (0x10 * i) 31 29 == 2 && s.rf .cnp h (0x10 * i) 7 0 == intake with
  | some i =>
    let f := (s.rg .cnp h (0x10 * i + 8)).toNat
    if f = 0xFFFFFFFF then ((s.rg .cnp h (0x10 * i + 4)).toNat / 2 : Nat) else (f : Nat)
  | none => 0

/-- The fail value of a staging entry (R19); `v` is the value it would keep where the table gives "unchanged". -/
def State.failValue (s : State) (h : Half) (i : Nat) (v : Int) : Int :=
  if i < 192 then (if i % 4 = 3 then v else 0)
  else if i = 256 ∨ i = 257 then s.fallbackCap h (i - 256)
  else 0

/-- Staging entry `i` as Canopy of half `h` sees it (R17, R19). -/
def State.staged (s : State) (h : Half) (i : Nat) : Int :=
  let e := s.stage h i
  if e.stale then s.failValue h i e.val else e.val

/-- What the lanes of half `h` would read if they started now. -/
def State.viewNow (s : State) (h : Half) : LaneView :=
  { at_ := some (s.tick h), ing := (s.hf h).ports.map fun e => (e.1, e.2.main), stg := (s.hf h).stg, alloc := (s.hf h).cnp.latched }

/-- What the lanes of half `h` read in this tick: fixed when they started (R193). -/
def State.laneView (s : State) (h : Half) : LaneView :=
  if (s.hf h).cln.view.at_ = some (s.tick h) then (s.hf h).cln.view else s.viewNow h

/-- Staging entry `i` as a lane reads it (R19, R193). -/
def State.laneStaged (s : State) (h : Half) (i : Nat) : Int :=
  let e := look {} (s.laneView h).stg i
  if e.stale then s.failValue h i e.val else e.val

/-- Word `n` of the ingest window of port `p` (R175). -/
def State.ingestWord (s : State) (h : Half) (p n : Nat) : Nat :=
  match look none (s.laneView h).ing p with
  | none => if n = 0 then 0xFF06 else 0
  | some f =>
    let age := min 255 (s.tick h - f.tick)
    if n = 0 then (if age = 0 then 1 else 2) + (if f.lost then 4 else 0) + age * 256
    else if n ≤ 108 then f.bytes.getD (2 * (n - 1)) 0 + 256 * f.bytes.getD (2 * (n - 1) + 1) 0
    else 0

/-- Word `n` of the allocation image (R174). -/
def State.allocWord (s : State) (h : Half) (n : Nat) : Nat :=
  let a := (s.laneView h).alloc
  let half32 (v : Int) (k : Nat) : Nat := (v % 2 ^ 32).toNat / 2 ^ (16 * k) % 2 ^ 16
  if n < 0x180 then
    let o := look {} a.outs (n / 8)
    match n % 8 with
    | 0 => half32 o.imax 0
    | 1 => half32 o.imax 1
    | 2 => half32 o.imin 0
    | 3 => half32 o.imin 1
    | 4 => half32 o.pmax 0
    | 5 => half32 o.pmax 1
    | 6 => b2n o.routeOk + 2 * b2n o.drain
    | _ => 0
  else if n < 0x200 then
    match n % 4 with
    | 0 => half32 (look 0 a.cabs ((n - 0x180) / 4)) 0
    | 1 => half32 (look 0 a.cabs ((n - 0x180) / 4)) 1
    | _ => 0
  else 0

/-- A read of word address `a` by lane `l` of half `h` (R172-R176): the word, and whether it sets ADDR_ERR. -/
def State.laneRead (s : State) (h : Half) (l a : Nat) : Nat × Bool :=
  let li := s.laneIdx h l
  if a < 0x1000 then ((look 0 (s.lane h l).mem a).toNat, false)
  else if a < 0x1100 then (s.param h li (a - 0x1000), false)
  else if a < 0x1108 then
    (match a - 0x1100 with
     | 0 => s.tick h % 2 ^ 16
     | 1 => s.tick h / 2 ^ 16 % 2 ^ 16
     | 2 => s.tick h / 2 ^ 32 % 2 ^ 16
     | 3 => s.tick h / 2 ^ 48 % 2 ^ 16
     | 4 => li
     | 5 => b2n (s.lane h l).first + 2 * b2n (s.lane h l).lastOvr
     | _ => 0, false)
  else if 0x1200 ≤ a ∧ a < 0x1600 then
    ((s.laneStaged h ((a - 0x1200) / 2) % 2 ^ 32).toNat / 2 ^ (16 * (a % 2)) % 2 ^ 16, false)
  else if 0x1600 ≤ a ∧ a < 0x1620 then
    (((List.range 16).map fun i =>
      b2n (decide (16 * (a - 0x1600) + i < 270) && (look {} (s.laneView h).stg (16 * (a - 0x1600) + i)).stale) * 2 ^ i).sum, false)
  else if 0x1800 ≤ a ∧ a < 0x1A00 then (s.allocWord h (a - 0x1800), false)
  else if 0x2000 ≤ a ∧ a < 0x4800 then
    let p := (a - 0x2000) / 128
    match s.laneImage h l with
    | some im => if p ∈ im.ports then (s.ingestWord h p (a % 128), false) else (0, true)
    | none => (0, true)
  else (0, true)

/-- A store of a word to state memory: the word and its share of WSIG (R202). -/
def LaneS.store (l : LaneS) (a : Nat) (v : Lw) : LaneS :=
  { l with mem := put 0 l.mem a v, wsig := some (crc32Reg (l.wsig.getD 0xFFFFFFFF) (le 2 a ++ le 2 v.toNat)) }

/-- WSIG (R202). -/
def LaneS.wsigVal (l : LaneS) : Nat :=
  match l.wsig with
  | some r => r ^^^ 0xFFFFFFFF
  | none => 0

/-- A lane whose library or sequencer program ran stored its private state (R202, R212): the layout of those words is the program's own, so the signature is a
free function of the state `ws` it keeps.
(DESIGN CHOICE, safe: log 116.) -/
def LaneS.libStore (l : LaneS) (ws : List Int) : LaneS := { l with wsig := some (Config.libWsig ws).toNat }

/-- The effective address of a memory operand (R177, R179). -/
def LaneS.ea (l : LaneS) : MemOp → Nat
  | .abs a => a.toNat
  | .ptr x _ off => (l.rx x.val + off.signExtend 16).toNat

/-- Post-modify of the operand's pointer (R177, R179). -/
def LaneS.postMod (l : LaneS) : MemOp → LaneS
  | .abs _ => l
  | .ptr x post _ =>
    match post.val with
    | 1 => l.setX x.val (l.rx x.val + 1)
    | 2 => l.setX x.val (l.rx x.val + 2)
    | 3 => l.setX x.val (l.rx x.val - 1)
    | _ => l

/-- Set ADDR_ERR where a condition holds (R176). -/
def LaneS.addr (l : LaneS) (bad : Bool) : LaneS := { l with addrErr := l.addrErr || bad }

/-- OUT to an index of the result line (R198). -/
def LaneS.emit (l : LaneS) (cnt i : Nat) (v : Lw) : LaneS :=
  if i < cnt then { l with line := put none l.line i (some v) } else { l with slotErr := true }

/-- SLOT_CNT of a lane (R189). -/
def State.slotCnt (s : State) (h : Half) (l : Nat) : Nat := fld (s.lcfg1 h (s.laneIdx h l)) 6 0

/-- The cycle budget of a lane in this tick: 6,000, less MAGNITUDE under SHRINK (R164, R196). -/
def State.laneBudget (s : State) (h : Half) (l : Nat) : Nat :=
  if (s.hf h).twn.pertActive && s.rf .twn h 0x40 29 27 == 4 &&
      (s.rf .twn h 0x40 23 16 == 0xFF || s.rf .twn h 0x40 23 16 == l) then 6000 - s.rf .twn h 0x44 15 0
  else 6000

/-- COND holds (R178). -/
def condHolds (l : LaneS) : Cond → Bool
  | .always => true
  | .ifTrue p => l.rp p.val
  | .ifFalse p => !l.rp p.val

/-- No repeat around the instruction is in an iteration that executes as not taken (R180, RPTV). -/
def LaneS.taken (l : LaneS) : Bool := l.reps.all fun r => decide (r.iter < r.count)

/-- After the word at `pc`: the innermost repeat whose body ends there starts its next iteration, or ends (R181). -/
def LaneS.advance (l : LaneS) : LaneS :=
  match l.reps with
  | r :: t =>
    if l.pc = r.last then
      if 1 < r.left then { l with pc := r.start, reps := { r with left := r.left - 1, iter := r.iter + 1 } :: t }
      else endOuter { l with reps := t }
    else { l with pc := l.pc + 1 }
  | [] => { l with pc := l.pc + 1 }
where
  /-- An inner body may end where the outer body ends. -/
  endOuter (l : LaneS) : LaneS :=
    match l.reps with
    | r :: t =>
      if l.pc = r.last then
        if 1 < r.left then { l with pc := r.start, reps := { r with left := r.left - 1, iter := r.iter + 1 } :: t }
        else { l with pc := l.pc + 1, reps := t }
      else { l with pc := l.pc + 1 }
    | [] => { l with pc := l.pc + 1 }

/-- A lane executes its next instruction (R178, R179): it runs while its budget lasts (R196); `f` is the effect of an
instruction that is taken; the cycles count either way.
(DESIGN CHOICE, safe: log 13.) -/
def State.laneStep (s : State) (w : LaneAt) (cyc : Nat) (f : LaneS → LaneS) : State :=
  let l := s.lane w.half w.lane.val
  if l.run && decide (l.cyc + cyc ≤ s.laneBudget w.half (s.laneIdx w.half w.lane.val)) then
    s.mLane w.half w.lane.val fun l =>
      let l' := if condHolds l w.cond && l.taken then f l else l
      { l' with cyc := l.cyc + cyc }.advance
  else s

/-- A repeat instruction starts a repeat of the next `len` words, `n` iterations of which the first `count` execute (R181). -/
def State.laneRepeat (s : State) (w : LaneAt) (n len : Nat) (count : LaneS → Nat) : State :=
  let l := s.lane w.half w.lane.val
  if l.run && decide (l.cyc + 1 ≤ s.laneBudget w.half (s.laneIdx w.half w.lane.val)) then
    s.mLane w.half w.lane.val fun l =>
      { l with cyc := l.cyc + 1, pc := l.pc + 1,
               reps := { start := l.pc + 1, last := l.pc + len, left := n, count := count l } :: l.reps }
  else s

/-- CLN_GSTAT follows the program store (R209). -/
def State.renewGstat (s : State) (h : Half) : State :=
  let im := (s.hf h).cln.images
  s.srg .cln h 0x30008 (BitVec.ofNat 32 (min 255 im.length * 2 ^ 24 + (65536 - (im.map (·.words)).sum)))

end Sys2Proof.Machine
end

