-- ==== Sys2Proof/Machine/Lanes.lean ====
section
/-!
DEFINITION. The program store and its checks (R182-R187), the clasp's drain, digests and captures (R199-R203, R231-R233).
-/

namespace Sys2Proof.Machine

/-! ### Images -/

/-- The 32-bit words of code bytes. -/
def codeWords : Nat → List Nat → List Nat
  | 0, _ => []
  | n + 1, l => unle (l.take 4) :: codeWords n (l.drop 4)

/-- The 16-bit words of bytes. -/
def halfWords : Nat → List Nat → List Nat
  | 0, _ => []
  | n + 1, l => unle (l.take 2) :: halfWords n (l.drop 2)

/-- Decode every word, requiring each to be an instruction (R183, step 3). -/
def decodeAll : List Nat → Option (List LaneOp)
  | [] => some []
  | w :: t =>
    match laneDecode w, decodeAll t with
    | some (_, op), some ops => some (op :: ops)
    | _, _ => none

/-- The body length of a repeat instruction (R177). -/
def bodyLen : LaneOp → Option Nat
  | .rpt _ len => some len.val
  | .rptv _ _ len => some (len.val + 1)
  | _ => none

/-- The iterations a repeat counts in the budget (R185). -/
def bodyCount : LaneOp → Nat
  | .rpt n _ => n.val + 1
  | .rptv _ max _ => max.val + 1
  | _ => 0

/-- The structural rules of R184, from word `i` on: `last` is the index of the last code word, `ends` the last words of the
repeats around, `res` RESULT_WORDS. -/
def structOk (last res : Nat) : Nat → List Nat → List LaneOp → Bool
  | _, _, [] => true
  | i, ends, op :: t =>
    let ends := ends.filter (fun e => decide (i ≤ e))
    let here : Bool := match op with
      | .halt => decide (i = last)
      | .out _ (.imm k) => decide (k.val < res) && decide (i < last)
      | _ => decide (i < last)
    match bodyLen op with
    | none => here && structOk last res (i + 1) ends t
    | some n =>
      here && decide (i + n < last) && decide (ends.length < 2) && ends.all (fun e => decide (i + n ≤ e)) && decide (i ∉ ends)
        && structOk last res (i + 1) ((i + n) :: ends) t

/-- The cycles of a run of code (R185); `fuel` bounds the recursion by the code's length. -/
def codeCost : Nat → List LaneOp → Nat
  | 0, _ => 0
  | _, [] => 0
  | fuel + 1, op :: t =>
    match bodyLen op with
    | none => laneCycles op + codeCost fuel t
    | some n => 1 + bodyCount op * codeCost fuel (t.take n) + codeCost fuel (t.drop n)

/-- The ports of INPUT_PORTS (R182). -/
def portList (bits : Nat) : List Nat := (List.range 80).filter fun p => bits.testBit p

/-- The lowest address with room for `n` contiguous words (R186). -/
def firstFit (images : List Image) (n : Nat) : Option Nat :=
  let free (a : Nat) : Bool :=
    decide (a + n ≤ 65536) && images.all fun i => decide (a + n ≤ i.base) || decide (i.base + i.words ≤ a)
  (0 :: images.map (fun i => i.base + i.words)).foldl (fun best a =>
    if free a then some (match best with | some b => min a b | none => a) else best) none

/-- The header checks of R183, step 1. -/
def headerOk (img : List Nat) : Bool :=
  let cw := numAt img 16 2
  let sw := numAt img 18 2
  let rw := numAt img 20 2
  decide (72 ≤ img.length) && bytesAt img 0 4 == [0x43, 0x4E, 0x4B, 0x4C] && numAt img 4 2 == 3 && numAt img 6 2 == 0
    && numAt img 34 6 == 0 && decide (1 ≤ cw) && decide (sw ≤ 4096) && decide (rw ≤ 64)
    && decide (img.length = 72 + 4 * cw + 2 * sw + 2 * rw)

/-- The checks of R183, steps 1 to 4: the image without its place, or the refusal with the verified count. -/
def checkImage (img : List Nat) : Image ⊕ (Nat × Nat) :=
  let cw := numAt img 16 2
  let sw := numAt img 18 2
  let rw := numAt img 20 2
  if !headerOk img || sha256 (img.drop 72) != bytesAt img 40 32 then .inr (0x0501, 0)
  else
    match decodeAll (codeWords cw (img.drop 72)) with
    | none => .inr (0x0501, 0)
    | some ops =>
      if !structOk (cw - 1) rw 0 [] ops || ops.getLast? != some .halt then .inr (0x0501, 0)
      else
        let v := codeCost cw ops
        if 6000 < v then .inr (stTickBudget, v)
        else .inl { base := 0, words := cw, progId := numAt img 8 4, version := numAt img 12 4, ports := portList (numAt img 24 10),
                    stateInit := halfWords sw (img.drop (72 + 4 * cw)), resultInit := halfWords rw (img.drop (72 + 4 * cw + 2 * sw)),
                    verified := v, claimed := numAt img 22 2 }

/-- Place an image in the program store of half `h`. -/
def State.placeImage (s : State) (h : Half) (im : Image) (code : List Nat) : State :=
  (s.mCln h fun c =>
    { c with images := c.images ++ [im],
             prog := ((List.range im.words).zip code).foldl (fun t e => put 0 t (im.base + e.1) (BitVec.ofNat 32 e.2)) c.prog }).renewGstat h

/-- CLN_STORE (R183, R186, R210): an image that passes steps 1 to 4 waits for the next edge at which both halves can take it (R27).
(DESIGN CHOICE, safe: log 6. DESIGN CHOICE, unsafe: log 15. DESIGN CHOICE, unsafe: log 117.) -/
def execClnStore (o : Org) (img : List Nat) (s : State) : Out :=
  .next (s.verb o 0x0501 [rInstaller, rVendor] fun s x _ =>
    match checkImage img with
    | .inr (st, v) =>
      s.complete o x 0x0501 st true
        (if st = stTickBudget then le 2 0 ++ le 2 (numAt img 16 2) ++ le 2 v ++ le 2 (numAt img 22 2) else [])
    | .inl im =>
      (s.mCln x fun c => { c with stores := c.stores ++ [{ org := o, image := im, code := codeWords im.words (img.drop 72) }] }).complete o x 0x0501
        stPending false [])

/-- A store is carried to both halves (R186): both place the image at the same address and it completes, or neither keeps it.
(DESIGN CHOICE, unsafe: log 117.) -/
def storeBoth (h : Half) (s : State) (r : StoreReq) : State :=
  match firstFit (s.hf h).cln.images r.image.words, firstFit (s.hf (other h)).cln.images r.image.words with
  | some a, some b =>
    if a = b then
      let im := { r.image with base := a }
      ((s.placeImage h im r.code).placeImage (other h) im r.code).complete r.org h 0x0501 stOk true
        (le 2 a ++ le 2 im.words ++ le 2 im.verified ++ le 2 im.claimed)
    else s.complete r.org h 0x0501 0x0502 true []
  | _, _ => s.complete r.org h 0x0501 0x0502 true []

/-- The stores that wait at the half in charge, at its edge (R27, R186); while the twin link is dead they wait on.
(DESIGN CHOICE, unsafe: log 117.) -/
def State.runStores (s : State) (h : Half) : State :=
  if s.charge = some h && s.twinUp h then
    (s.hf h).cln.stores.foldl (storeBoth h) (s.mCln h fun c => { c with stores := [] })
  else s

/-- The lanes of half `h` bound to the image at `base`: PROG_BASE names it, in force or in shadow, whatever EN (R187). -/
def boundLanes (s : State) (h : Half) (base : Nat) (shadow : Bool) : List Nat :=
  (List.range 60).filter fun l => fld (if shadow then s.shadowOf .cln h (0x20 * l) else s.lcfg0 h l) 15 0 == base

/-- CLN_FREE (R187, R210).
(DESIGN CHOICE, unsafe: log 15.) -/
def execClnFree (o : Org) (base : Nat) (s : State) : Out :=
  .next (s.verb o 0x0502 [rInstaller, rVendor] fun s x _ =>
    match s.image x base with
    | none => s.complete o x 0x0502 0x0504 true []
    | some im =>
      if !(boundLanes s x base false).isEmpty || !(boundLanes s x base true).isEmpty then s.complete o x 0x0502 0x0503 true []
      else
        (s.reach.foldl (fun s h => (s.mCln h fun c =>
          { c with images := c.images.filter (fun i => i.base != base),
                   prog := (List.range im.words).foldl (fun t k => del t (base + k)) c.prog }).renewGstat h) s).complete o x 0x0502 stOk true [])

/-- CLN_LIST (R210).
(DESIGN CHOICE, unsafe: log 15.) -/
def execClnList (o : Org) (s : State) : Out :=
  .next (s.verb o 0x0503 rNotPublic fun s x _ =>
    let im := (s.hf x).cln.images
    s.complete o x 0x0503 stOk true (le 2 im.length ++ (im.map fun i =>
      le 2 i.base ++ le 2 i.words ++ le 4 i.progId ++ le 4 i.version ++ le 2 i.verified
        ++ [(boundLanes s x i.base false).length, 0]).flatten))

/-! ### The drain -/

/-- STAT of a lane in its digest (R201). -/
def laneStat (l : LaneS) : Nat := b2n l.ovr + 2 * b2n l.sat + 4 * b2n l.addrErr + 8 * b2n l.slotErr

/-- The written entries of a result line in ascending index (R198). -/
def written (l : LaneS) : List (Nat × Lw) := l.line.filterMap fun e => e.2.map fun v => (e.1, v)

/-- The digest of a working lane (R201). -/
def laneDigest (idx tick base : Nat) (l : LaneS) : Nat :=
  let w := written l
  crc32 ([idx] ++ le 2 tick ++ [laneStat l] ++ le 2 w.length ++ (w.map fun e => le 2 (base + e.1) ++ le 2 e.2.toNat).flatten
    ++ le 4 l.wsigVal)

/-- CLN_LSTAT of a lane after its tick (R207). -/
def lstatWord (l : LaneS) : Word :=
  BitVec.ofNat 32 (b2n l.ovr * 2 ^ 31 + b2n l.sat * 2 ^ 30 + b2n l.addrErr * 2 ^ 29 + b2n l.slotErr * 2 ^ 28
    + b2n l.first * 2 ^ 27 + l.cyc % 2 ^ 16)

/-- The drain of one working lane: slots, status, counters and digest (R199-R201, R207, R208). -/
def drainLane (h : Half) (s : State) (l : Nat) : State :=
  let x := s.lane h l
  if !bitAt (s.lcfg0 h l) 31 || x.run then s
  else
    let base := fld (s.lcfg1 h l) 26 16
    let s := s.srg .cln h (0x20 * l + 0x08) (lstatWord x)
    let s := if x.sat then s.bump .cln h (0x20 * l + 0x10) 1 else s
    let s := if x.addrErr || x.slotErr then s.bump .cln h (0x20 * l + 0x14) 1 else s
    let s := s.mCln h fun c => { c with slots := (written x).foldl (fun t e => put 0 t (base + e.1) e.2) c.slots }
    s.mTwn h fun t => { t with digs := put 0 t.digs l (laneDigest l (s.tick h) base x) }

/-- Buffer `n` of half `h` (R231). -/
def State.cap (s : State) (h : Half) (n : Nat) : Capture := if n = 0 then (s.hf h).cln.cap0 else (s.hf h).cln.cap1

/-- Change buffer `n` of half `h`. -/
def State.mCap (s : State) (h : Half) (n : Nat) (f : Capture → Capture) : State :=
  s.mCln h fun c => if n = 0 then { c with cap0 := f c.cap0 } else { c with cap1 := f c.cap1 }

/-- One row of a buffer after the drain (R231, R232). -/
def captureRow (h : Half) (s : State) (n : Nat) : State :=
  let c := s.cap h n
  let t := s.tick h
  let row := (t, c.slots.map fun k => (look 0 (s.hf h).cln.slots k).toNat)
  if c.st = 1 then s.mCap h n fun c => { c with rows := ((c.rows ++ [row]).reverse.take (c.pre * c.decim)).reverse }
  else if c.st = 2 && (t - c.trigTick) % c.decim == 0 then
    let s := s.mCap h n fun c => { c with rows := c.rows ++ [row] }
    if c.rowsMax ≤ c.rows.length + 1 then
      let s := s.mCap h n fun c => { c with st := 3, org := none }
      match c.org with
      | some o => if s.charge = some h then s.complete o h 0x0514 stOk true (le 8 c.trigTick) else s
      | none => s
    else s
  else s

/-- CLASP_DRAIN (R199-R202, R207, R208, R231): the working lanes in order; the lines of the spares go to the shadow record and reach no slot. -/
def execClaspDrain (h : Half) (s : State) : Out :=
  let s := s.mTwn h fun t => { t with digs := [], digTick := s.tick h }
  let s := (List.range 60).foldl (drainLane h) s
  let s := s.mCln h fun c => { c with shadowRec := (List.range 4).foldl (fun t k => put [] t k (written (look {} c.lanes (60 + k)))) [] }
  .next (captureRow h (captureRow h s 0) 1)

/-! ### Captures -/

/-- CLN_CAP_ARM (R232, R234). -/
def execClnCapArm (o : Org) (lane blk buf nch trig rows pre decim ttick : Nat) (slots : List Nat) (s : State) : Out :=
  .next (s.verb o 0x0514 [rInstaller, rVendor] fun s x _ =>
    if 2 ≤ buf || nch = 0 || 8 < nch || 2 < trig || rows = 0 || 65536 < rows || rows ≤ pre || decim = 0 || 1024 < decim
        || 60 ≤ lane || 8 ≤ blk || (slots.take nch).any (fun k => decide (2048 ≤ k)) then s.complete o x 0x0514 stRange true []
    else if (s.cap x buf).st = 1 || (s.cap x buf).st = 2 then s.complete o x 0x0514 0x050A true []
    else
      let c : Capture := { st := 1, nch := nch, slots := slots.take nch, rowsMax := rows, pre := pre, decim := decim, trig := trig,
                           ttick := ttick, lane := lane, blk := blk, armTick := s.tick x }
      let s := s.reach.foldl (fun s h => s.mCap h buf fun _ => { c with org := if h = x then some o else none }) s
      s.complete o x 0x0514 stPending false (le 8 0))

/-- The trigger of a buffer occurs in this tick (R232). -/
def triggerNow (s : State) (h : Half) (c : Capture) : Bool :=
  match c.trig with
  | 0 => decide (c.armTick < s.tick h)
  | 1 => decide (c.ttick ≤ s.tick h)
  | _ => let b := look {} (s.hf h).cln.loops (8 * c.lane + c.blk)
         b.injOn && b.injStart == s.tick h

/-- CAPTURE_TRIGGER (R232): of the rows held, those a multiple of D before the trigger are kept, at most PRE. -/
def execCaptureTrigger (h : Half) (buf : Nat) (s : State) : Out :=
  let c := s.cap h buf
  if c.st = 1 && triggerNow s h c then
    let t := s.tick h
    let kept := ((c.rows.filter fun r => (t - r.1) % c.decim == 0).reverse.take c.pre).reverse
    .next (s.mCap h buf fun c =>
      { c with st := 2, trigTick := t, rows := kept, rowsMax := c.rowsMax - (c.pre - kept.length), pre := kept.length,
               shortPre := decide (kept.length < c.pre) })
  else .next s

/-- What CLN_CAP_READ answers of a buffer: its header, then `count` rows from row `first` on (R233). -/
def Capture.readBytes (c : Capture) (buf first count : Nat) : List Nat :=
  let fl := b2n (c.st == 3) + 2 * b2n c.incomplete + 4 * b2n (decide (2 ≤ c.st)) + 8 * b2n c.shortPre
  [0x43, 0x41, 0x50, 0x54, 1, 0, c.nch, fl] ++ le 8 ((c.rows.head?.map (·.1)).getD 0) ++ le 8 c.trigTick
    ++ le 4 c.rows.length ++ le 4 (if 2 ≤ c.st then c.pre else 0) ++ le 2 c.decim ++ [buf, 0, 0, 0, 0, 0]
    ++ ((List.range 8).map fun i => le 2 (c.slots.getD i 0xFFFF)).flatten ++ List.replicate 8 0
    ++ (((c.rows.drop first).take count).map fun r => (r.2.map (le 2)).flatten).flatten

/-- CLN_CAP_READ (R233). -/
def execClnCapRead (o : Org) (buf first count : Nat) (s : State) : Out :=
  .next (s.verb o 0x0515 [rOperator, rInstaller, rVendor] fun s x _ =>
    if 2 ≤ buf then s.complete o x 0x0515 stRange true []
    else s.complete o x 0x0515 stOk true ((s.cap x buf).readBytes buf first count))

end Sys2Proof.Machine
end

