-- ==== Sys2Proof/Machine/PowerStages.lean ====
section
/-!
DEFINITION. The cabinet sequencer of the standard function library and the cabinet remotes' power stages (spec 07).

Each step of R249 is one function over a group. A sequencer lane's run makes the steps in order; a command that names a
step's event makes that step of the tick where the run has not made it yet, and where it yields the event.
-/

namespace Sys2Proof.Machine

/-- The sequencer of cabinet `c` of half `h`. -/
def State.seqS (s : State) (h : Half) (c : Nat) : SeqS := look {} (s.hf h).pst.seqs c

/-- Group `g` of the sequencer of cabinet `c`. -/
def State.seqG (s : State) (h : Half) (c g : Nat) : SeqG := look {} (s.seqS h c).groups g

/-- Change the sequencer of a cabinet. -/
def State.mSeq (s : State) (h : Half) (c : Nat) (f : SeqS → SeqS) : State :=
  s.mh h fun x => { x with pst := { x.pst with seqs := Machine.upd {} x.pst.seqs c f } }

/-- Set a group of a sequencer. -/
def State.setSeqG (s : State) (h : Half) (c g : Nat) (v : SeqG) : State :=
  s.mSeq h c fun q => { q with groups := put {} q.groups g v }

/-- What a group reads in a tick: the uplink of its cabinet, its route and its parameters (R239, R242, R249, R261, R266-R271). -/
structure SeqIn where
  tick : Nat
  first : Bool
  fresh : Bool
  dead : Bool
  unrouted : Bool
  vin : Int
  vbus : Int
  echo : Int
  share : Nat
  phases : List Nat
  minPh : Nat
  cbc : List Nat
  hsv : List Bool
  iph : List Int
  bad : List Nat
  irated : Nat
  addPct : Nat
  shedPct : Nat
  probeI : Nat
  bEnter : Nat
  bExit : Nat
  bOn : Nat
  bSleep : Nat
  hicN : Nat
  hicWin : Nat
  hicOff : Nat
  hicK : Nat
  lsDv : Nat
  lsDi : Nat
  lsHold : Nat
  kp : Int
  ki : Int
  dMax : Nat
  ssSlope : Nat
  deriving DecidableEq, Repr

/-- Word `w` of the uplink payload of cabinet `c` (R242). -/
def upWord (s : State) (h : Half) (c w : Nat) : Nat := s.ingestWord h c (1 + w)

/-- The inputs of group `g` of cabinet `c` in this tick. -/
def seqIn (s : State) (h : Half) (c g : Nat) (first : Bool) : SeqIn :=
  let rec0 := 0x100 * c
  let f (off hi lo : Nat) : Nat := s.rf .pst h (rec0 + off) hi lo
  let lane := f 0 29 24
  let st := s.ingestWord h c 0
  let up (w : Nat) : Nat := upWord s h c w
  let ph := rangeFrom (f (0x20 + 4 * g) 17 12) (f (0x20 + 4 * g) 11 6)
  { tick := s.tick h, first := first, fresh := st.testBit 0, dead := st.testBit 2 || !(up 0).testBit 0,
    unrouted := f (0x30 + 4 * g) 31 31 == 0 || !(look {} (s.laneView h).alloc.outs (f (0x30 + 4 * g) 21 16)).routeOk,
    vin := (up 1 : Nat), vbus := (up (2 + g) : Nat), echo := signed 16 (up (6 + g)), share := f (0x30 + 4 * g) 15 0,
    phases := ph, minPh := f (0x20 + 4 * g) 5 0,
    cbc := ph.map fun j => up (10 + j / 4) / 16 ^ (j % 4) % 16, hsv := ph.map fun j => (up (22 + j / 16)).testBit (j % 16),
    iph := ph.map fun j => signed 16 (up (26 + j)),
    bad := ph.filter fun j => s.rb .pst h (rec0 + 0x50 + 4 * (j / 32)) (j % 32),
    irated := f 4 31 20, addPct := f 4 19 13, shedPct := f 4 12 6, probeI := f 4 5 0,
    bEnter := f 8 31 24, bExit := f 8 23 16, bOn := f 8 15 8, bSleep := f 8 7 0,
    hicN := f 0xC 31 24, hicWin := f 0xC 23 16, hicOff := f 0xC 15 3, hicK := f 0xC 2 0,
    lsDv := f 0x10 31 24, lsDi := f 0x10 23 16, lsHold := f 0x10 15 4,
    kp := signed 16 (s.param h lane 0x30), ki := signed 16 (s.param h lane 0x31), dMax := s.param h lane 0x32, ssSlope := s.param h lane 0x33 }

/-- The group target in 10 mA, unscaled (R253). -/
def SeqIn.target (i : SeqIn) : Int := roundShift (i.echo * i.share) 15 * 10

/-- The group goes OFF: hold-off, shedding, adding, burst and counts cleared, retries and the VBUS filter kept (R249). -/
def SeqG.off (g : SeqG) : SeqG :=
  { retries := g.retries, cause := g.cause, vf := g.vf, iprev := g.iprev, lsHits := g.lsHits, d4 := g.d4, d5 := g.d5, d6 := g.d6, d7 := g.d7 }

/-- The group switches, or sleeps in burst. -/
def SeqG.live (g : SeqG) : Bool := decide (2 ≤ g.st ∧ g.st ≤ 4)

/-- Step 4 (R257): the CBC counts of the tick are added to the window; a sum that reaches HIC_N trips the group. -/
def SeqG.step4 (g : SeqG) (i : SeqIn) : SeqG :=
  if g.d4 = some i.tick || !g.live then { g with d4 := some i.tick }
  else
    let g := if i.hicWin ≤ g.winN then { g with winN := 0, cbc := [] } else g
    let sums := (i.phases.zip i.cbc).foldl (fun t e => put 0 t e.1 (look 0 t e.1 + e.2)) g.cbc
    let g := { g with winN := g.winN + 1, cbc := sums, d4 := some i.tick }
    if sums.any fun e => decide (i.hicN ≤ e.2) then
      if i.hicK ≤ g.retries then { g.off with st := 6, cause := 1, retries := g.retries, cbc := sums }
      else { g.off with st := 5, retries := g.retries + 1, hicT := i.tick, cbc := sums }
    else g

/-- The phases that fail the check of R252 in this tick's uplink. -/
def SeqIn.probeFails (i : SeqIn) : List Nat :=
  ((i.phases.zip (i.hsv.zip i.iph)).filter fun e => e.2.1 || decide (i.probeI * 100 < e.2.2.natAbs)).map (·.1)

/-- The active phases at the entry to START (R254). -/
def SeqIn.firstQueue (i : SeqIn) : List Nat :=
  let den := i.addPct * i.irated * 10
  let n := if den = 0 then i.phases.length else (i.target.natAbs * 100 + den - 1) / den
  (i.phases.filter fun j => j ∉ i.bad).take (min i.phases.length (max i.minPh n))

/-- The entry to START (R253, R254, R257): every phase with weight 10, integrators and soft start at 0, the first window. -/
def SeqG.enterStart (g : SeqG) (i : SeqIn) : SeqG :=
  let q := i.firstQueue
  { g.off with st := 2, queue := q, w := q.foldl (fun t j => put 0 t j 10) [], lastAdd := q.getLast?.getD 0, winN := 1 }

/-- Step 5 (R250, R252, R258): timers and transitions. The ticks of PROBE are those the sequencer evaluates (R249, step 2). -/
def SeqG.step5 (g : SeqG) (i : SeqIn) : SeqG :=
  if g.d5 = some i.tick then g
  else
    let g := { g with d5 := some i.tick }
    match g.st with
    | 0 => { g with st := 1, probeN := 1, probeBad := [] }
    | 1 =>
      if 4 ≤ g.probeN then
        if g.probeBad.isEmpty then g.enterStart i else { g.off with st := 6, cause := 2, probeBad := g.probeBad }
      else { g with probeN := g.probeN + 1, probeBad := if 2 ≤ g.probeN then g.probeBad ++ i.probeFails.filter fun j => j ∉ g.probeBad else g.probeBad }
    | 2 => if g.ssDone then { g with st := 3, quiet := 1 } else g
    | 3 | 4 =>
      let g := { g with quiet := g.quiet + 1 }
      if 20000 ≤ g.quiet then { g with retries := 0, quiet := 0 } else g
    | 5 => if g.hicT + 10 * i.hicOff ≤ i.tick then { g with st := 1, probeN := 1, probeBad := [] } else g
    | _ => g

/-- A load step is detected (R259). -/
def SeqG.loadStep (g : SeqG) (i : SeqIn) : Bool :=
  g.live && (decide (10 * i.lsDv < (i.vbus - g.vf).natAbs) || decide (10 * i.lsDi < (i.echo - g.iprev).natAbs))

/-- Step 6 (R259, R260): the hold-off counter falls, a load step sets it; while it runs a shed is abandoned and SLEEP returns to
RUN. -/
def SeqG.step6 (g : SeqG) (i : SeqIn) : SeqG :=
  if g.d6 = some i.tick then g
  else
    let hit := g.loadStep i
    let n := if hit then i.lsHold else g.hold - 1
    let g := { g with lsHits := g.lsHits + b2n hit, hold := n, vf := g.vf + roundDiv (i.vbus - g.vf) 16, iprev := i.echo, d6 := some i.tick }
    if 0 < n then
      let g := match g.shed with
        | some j => { g with shed := none, w := put 0 g.w j 10 }
        | none => g
      { g with st := if g.st = 4 then 3 else g.st, onTick := false, bpos := 0, hi := 0, lo := 0, bu := 0 }
    else g

/-- The add under way gains a tenth of weight in each tick; at 10 it is complete (R255, R260). -/
def SeqG.rampAdd (g : SeqG) : SeqG :=
  match g.add with
  | some j =>
    let n := look 0 g.w j + 1
    if 10 ≤ n then { g with add := none, w := put 0 g.w j 10, hi := 0, lo := 0 } else { g with w := put 0 g.w j n }
  | none => g

/-- The shed under way loses a tenth of weight in each tick; at 0 the phase leaves the queue (R255). -/
def SeqG.rampShed (g : SeqG) : SeqG :=
  match g.shed with
  | some j =>
    let n := look 0 g.w j - 1
    if n = 0 then { g with shed := none, w := del g.w j, integ := del g.integ j, queue := g.queue.filter (· ≠ j), hi := 0, lo := 0 }
    else { g with w := put 0 g.w j n }
  | none => g

/-- The next phase to add: without a fault, inactive, in ascending cyclic order after the last one added (R255). -/
def SeqG.nextAdd (g : SeqG) (i : SeqIn) : Option Nat :=
  let free := i.phases.filter fun j => j ∉ i.bad ∧ j ∉ g.queue
  match free.find? (fun j => decide (g.lastAdd < j)) with
  | some j => some j
  | none => free.head?

/-- `x` compared with a percentage of IRATED: |target| x 100 against pct x IRATED x 10 x Na, in 10 mA. -/
def SeqG.xTimes100 (i : SeqIn) : Nat := i.target.natAbs * 100
def SeqG.pctOf (g : SeqG) (i : SeqIn) (pct : Nat) : Nat := pct * i.irated * 10 * g.queue.length

/-- The 20-tick counts of R255 and R256 take this tick. -/
def SeqG.countX (g : SeqG) (i : SeqIn) : SeqG :=
  if g.st = 3 && !g.burst && g.add.isNone && g.shed.isNone then
    { g with
      hi := if g.pctOf i i.addPct < SeqG.xTimes100 i then g.hi + 1 else 0
      lo := if SeqG.xTimes100 i < g.pctOf i i.shedPct then g.lo + 1 else 0
      bu := if g.queue.length = i.minPh ∧ SeqG.xTimes100 i < g.pctOf i i.bEnter then g.bu + 1 else 0 }
  else g

/-- Burst runs (R256): left where x reaches BURST_EXIT, else the next tick of the cycle. -/
def SeqG.burstTick (g : SeqG) (i : SeqIn) : SeqG :=
  if g.pctOf i i.bExit ≤ SeqG.xTimes100 i then { g with burst := false, st := 3, onTick := false, bpos := 0, hi := 0, lo := 0, bu := 0 }
  else
    let on := decide (g.bpos < i.bOn)
    { g with st := if on then 3 else 4, onTick := on, bpos := (g.bpos + 1) % max 1 (i.bOn + i.bSleep) }

/-- Step 7 (R255, R256), skipped but for an add under way while the hold-off runs (R260). -/
def SeqG.step7 (g : SeqG) (i : SeqIn) : SeqG :=
  if g.d7 = some i.tick || (g.st ≠ 3 && g.st ≠ 4) then { g with d7 := some i.tick }
  else
    let g := { g with d7 := some i.tick }
    if 0 < g.hold then g.rampAdd
    else if g.burst then g.burstTick i
    else
      let g := g.rampAdd.rampShed
      let idle := g.add.isNone && g.shed.isNone
      let g :=
        if idle && decide (20 ≤ g.bu) && g.queue.length == i.minPh then { g with burst := true, bpos := 0, bu := 0, hi := 0, lo := 0 }
        else if idle && decide (20 ≤ g.hi) then
          match g.nextAdd i with
          | some j => { g with add := some j, lastAdd := j, queue := g.queue ++ [j], w := put 0 g.w j 1, integ := del g.integ j, hi := 0, lo := 0 }
          | none => g
        else if idle && decide (20 ≤ g.lo) && decide (i.minPh < g.queue.length) then
          match g.queue with
          | j :: _ => { g with shed := some j, w := put 0 g.w j 9, hi := 0, lo := 0 }
          | [] => g
        else g
      g.countX i

/-- Step 8, the phase law (R253): the group and the words of its phases. -/
def SeqG.step8 (g : SeqG) (i : SeqIn) : SeqG × List (Nat × Nat) :=
  if g.st ≠ 2 && g.st ≠ 3 then (g, i.phases.map fun j => (j, 0))
  else
    let full := i.target
    let ff := if i.vin = 0 then 0 else roundDiv (i.vbus * 16384) i.vin.toNat
    let na := g.queue.length
    let ss := if g.st = 2 then min (g.ss + i.ssSlope * na) full.natAbs else g.ss
    let tg0 := if g.st = 2 then full.sign * ss else full
    let tg := if g.onTick && g.st == 3 then roundDiv (tg0 * (i.bOn + i.bSleep)) i.bOn else tg0
    let sum := (i.phases.map fun j => look 0 g.w j).sum
    let one (acc : Tab Int × List (Nat × Nat)) (e : Nat × Int) : Tab Int × List (Nat × Nat) :=
      let w := look 0 g.w e.1
      if w = 0 then (acc.1, acc.2 ++ [(e.1, 0)])
      else
        let err := roundDiv (tg * w) sum - e.2
        let ij := clampI (-ff) (i.dMax - ff) (look 0 acc.1 e.1 + roundShift (i.ki * err) 15)
        let duty := clampI 0 i.dMax (ff + roundShift (i.kp * err) 15 + ij)
        (put 0 acc.1 e.1 ij, acc.2 ++ [(e.1, 0x8000 + duty.toNat % 2 ^ 14)])
    let r := (i.phases.zip i.iph).foldl one (g.integ, [])
    ({ g with integ := r.1, ss := ss, ssDone := g.st == 2 && ss == full.natAbs }, r.2)

/-- The tick of a group: steps 1 to 8 of R249; the group, and its phase words. On FIRST or LAST_OVR the group restarts from OFF (R253).
(DESIGN CHOICE, unsafe: log 26.) -/
def SeqG.run (g : SeqG) (i : SeqIn) : SeqG × List (Nat × Nat) :=
  let g := if i.first then { g.off with cause := 0 } else g
  let idle := i.phases.map fun j => (j, 0)
  if i.phases.isEmpty then ({}, [])
  else if i.dead then (if g.st = 6 then g else g.off, idle)
  else if !i.fresh then (g, idle)
  else if i.unrouted then (if g.st = 6 ∨ g.st = 5 then g else g.off, idle)
  else ((((g.step4 i).step5 i).step6 i).step7 i).step8 i

/-! ### What the device reports of a transition -/

/-- Phases as a mask of 48 bits. -/
def phaseMask (l : List Nat) : Nat := (l.map fun j => 2 ^ j).sum

/-- Mark failed phases in PST_PFAULT (R252, R273). -/
def markPhases (s : State) (h : Half) (c : Nat) (l : List Nat) : State :=
  l.foldl (fun s j => s.srf .pst h (0x100 * c + 0x50 + 4 * (j / 32)) (j % 32) (j % 32) 1) s

/-- The group `new` takes the place of the group `old`: a trip or a failed probe raises event 0x0601, trips and load steps count
(R252, R257, R259, R273, R528). -/
def State.storeSeqG (s : State) (h : Half) (c g hicN : Nat) (old new : SeqG) : State :=
  let s := (s.setSeqG h c g new).bump .pst h (0x100 * c + 0x5C) (new.lsHits - old.lsHits)
  let failed := old.st == 1 && new.st == 6
  if failed then
    (markPhases s h c new.probeBad).ev h 2 0x0601 ([c, g, 2, new.retries] ++ le 6 (phaseMask new.probeBad))
  else if old.live && (new.st == 5 || new.st == 6) then
    let hot := (new.cbc.filter fun e => decide (hicN ≤ e.2)).map (·.1)
    (s.bump .pst h (0x100 * c + 0x58) 1).ev h 2 0x0601 ([c, g, 1, new.retries] ++ le 6 (phaseMask hot))
  else s

/-- The high half of PST_GSTAT of a group (R262, R272). -/
def SeqG.stat (g : SeqG) : Nat :=
  g.st * 2 ^ 13 + b2n g.burst * 2 ^ 12 + b2n (0 < g.hold) * 2 ^ 11 + b2n g.shed.isSome * 2 ^ 10 + b2n g.add.isSome * 2 ^ 9
    + g.retries % 8 * 2 ^ 6 + g.queue.length % 64

/-- GSTATE of a group (R240, R250).
(DESIGN CHOICE, unsafe: log 27.) -/
def SeqG.cmd (g : SeqG) : Nat :=
  match g.st with
  | 1 => 3
  | 2 => 1
  | 3 => 1
  | 4 => 2
  | _ => 0

/-- The tick of one group in a sequencer's run: the group stored, its phase words.
(DESIGN CHOICE, unsafe: log 26.) -/
def runGroup (h : Half) (c : Nat) (first : Bool) (acc : State × List (Nat × Nat)) (g : Nat) : State × List (Nat × Nat) :=
  let s := acc.1
  let i := seqIn s h c g first
  let old := s.seqG h c g
  let r := old.run i
  (s.storeSeqG h c g i.hicN old r.1, acc.2 ++ r.2)

/-- The result entries of a sequencer after its groups (R239, R262): entries 4-7 are not the sequencer's. -/
def seqLine (s : State) (h : Half) (c : Nat) (ph : List (Nat × Nat)) : List (Nat × Nat) :=
  let cfg := s.rg .pst h (0x100 * c)
  let site := s.rg .pst h 0x2000
  let gs := (List.range 4).map fun g => s.seqG h c g
  let pf (k : Nat) : Nat := s.rf .pst h (0x100 * c + 0x50 + 4 * (k / 2)) (16 * (k % 2) + 15) (16 * (k % 2))
  [(0, ((List.range 4).map fun g => (s.seqG h c g).cmd * 16 ^ g).sum),
   (1, fld site 31 31 * 2 ^ 15 + fld site 30 28 * 2 ^ 12 + fld cfg 18 16 * 2 ^ 9 + fld cfg 23 19),
   (2, fld site 15 0), (3, fld cfg 15 8)]
  ++ (List.range 48).map (fun j => (8 + j, ((ph.find? fun e => e.1 = j).map (·.2)).getD 0))
  ++ ((List.range 4).zip gs).map (fun e => (56 + e.1, e.2.stat))
  ++ [(60, pf 0), (61, pf 1), (62, pf 2), (63, 0)]

/-- A sequencer lane's run (R238, R249): with no fresh uplink and no loss the previous entries are written again.
(DESIGN CHOICE, unsafe: log 27.) -/
def runSeq (h : Half) (l : Nat) (first : Bool) (s : State) : State :=
  match s.seqCab h l with
  | none => s
  | some c =>
    let st := s.ingestWord h c 0
    let dead := st.testBit 2 || !(upWord s h c 0).testBit 0
    let s :=
      if !st.testBit 0 && !dead && !first then s
      else
        let r := (List.range 4).foldl (runGroup h c first) (s, [])
        r.1.mSeq h c fun q => { q with line := seqLine r.1 h c r.2 }
    let cnt := s.slotCnt h l
    s.mLane h l fun x => (s.seqS h c).line.foldl (fun x e => x.emit cnt e.1 (BitVec.ofNat 16 e.2)) x

/-- A command that names a step's event: the step is made where it yields the event (R249). -/
def seqRow (step : SeqG → SeqIn → SeqG) (hit : SeqG → SeqG → Bool) (h : Half) (c g : Nat) (s : State) : State :=
  let i := seqIn s h c g false
  let old := s.seqG h c g
  let new := step old i
  if i.fresh && !i.dead && !i.unrouted && !i.phases.isEmpty && hit old new then s.storeSeqG h c g i.hicN old new else s

/-- PROBE_COMPLETE (R250, R252, R254). -/
def execProbeComplete (h : Half) (c g : Nat) (s : State) : Out :=
  .next (seqRow SeqG.step5 (fun a b => a.st == 1 && (b.st == 2 || b.st == 6)) h c g s)

/-- HICCUP_TRIP (R257). -/
def execHiccupTrip (h : Half) (c g : Nat) (s : State) : Out :=
  .next (seqRow SeqG.step4 (fun a b => a.live && (b.st == 5 || b.st == 6)) h c g s)

/-- HICCUP_WINDOW_END (R257): the window has run HIC_WIN ticks and the next starts. -/
def execHiccupWindowEnd (h : Half) (c g : Nat) (s : State) : Out :=
  let q := s.seqG h c g
  if q.live && decide (s.rf .pst h (0x100 * c + 0xC) 23 16 ≤ q.winN) then .next (s.setSeqG h c g { q with winN := 0, cbc := [] })
  else .next s

/-- HICCUP_WAIT_END (R250). -/
def execHiccupWaitEnd (h : Half) (c g : Nat) (s : State) : Out :=
  .next (seqRow SeqG.step5 (fun a b => a.st == 5 && b.st == 1) h c g s)

/-- START_COMPLETE (R250). -/
def execStartComplete (h : Half) (c g : Nat) (s : State) : Out :=
  .next (seqRow SeqG.step5 (fun a b => a.st == 2 && b.st == 3) h c g s)

/-- RETRIES_RESET (R258). -/
def execRetriesReset (h : Half) (c g : Nat) (s : State) : Out :=
  .next (seqRow SeqG.step5 (fun a b => (a.st == 3 || a.st == 4) && b.retries == 0 && b.quiet == 0) h c g s)

/-- LOAD_STEP_DETECTED (R259, R260). -/
def execLoadStepDetected (h : Half) (c g : Nat) (s : State) : Out :=
  .next (seqRow SeqG.step6 (fun a b => decide (a.lsHits < b.lsHits)) h c g s)

/-- HOLD_OFF_END (R259, R260): the counter reaches 0. -/
def execHoldOffEnd (h : Half) (c g : Nat) (s : State) : Out :=
  .next (seqRow SeqG.step6 (fun a b => a.hold == 1 && b.hold == 0) h c g s)

/-- PHASE_ADD_START (R255). -/
def execPhaseAddStart (h : Half) (c g : Nat) (s : State) : Out :=
  .next (seqRow SeqG.step7 (fun a b => a.add.isNone && b.add.isSome) h c g s)

/-- PHASE_SHED_START (R255). -/
def execPhaseShedStart (h : Half) (c g : Nat) (s : State) : Out :=
  .next (seqRow SeqG.step7 (fun a b => a.shed.isNone && b.shed.isSome) h c g s)

/-- BURST_ENTRY (R256). -/
def execBurstEntry (h : Half) (c g : Nat) (s : State) : Out :=
  .next (seqRow SeqG.step7 (fun a b => !a.burst && b.burst) h c g s)

/-- BURST_EXIT (R256). -/
def execBurstExit (h : Half) (c g : Nat) (s : State) : Out :=
  .next (seqRow SeqG.step7 (fun a b => a.burst && !b.burst) h c g s)

/-! ### PST_CLEAR (R258, R274) -/

/-- The groups of a 4-bit mask. -/
def maskGroups (mask : Nat) : List Nat := (List.range 4).filter fun g => mask.testBit g

/-- PST_CLEAR: every named group is LATCHED, or none is cleared; the clear acts at the next commit edge. A cabinet without
PERMIT, or in STOPPING, is refused (R469). -/
def execPstClear (o : Org) (c mask : Nat) (s : State) : Out :=
  .next (s.verb o 0x0601 [rInstaller, rVendor] fun s x role =>
    if 32 ≤ c || 16 ≤ mask then s.complete o x 0x0601 stRange true []
    else if !(s.hf x).saf.permCab.testBit c || (s.hf x).saf.stopCab.testBit c then s.complete o x 0x0601 stSafetyInhibit true []
    else if (maskGroups mask).any fun g => (s.seqG x c g).st != 6 then s.complete o x 0x0601 0x0601 true []
    else
      let s := s.reach.foldl (fun s h => s.mh h fun y =>
        { y with pst := { y.pst with clears := y.pst.clears ++ (maskGroups mask).map fun g => (c, g) } }) s
      (s.arm .pst role (some { org := o, opc := 0x0601 })).complete o x 0x0601 stPending false [])

/-- A group is cleared at the commit edge (R258): LATCHED moves to OFF, RETRIES, CAUSE and its PST_PFAULT bits are cleared. -/
def clearGroup (h : Half) (s : State) (e : Nat × Nat) : State :=
  let q := s.seqG h e.1 e.2
  if q.st = 6 then
    let f := s.rg .pst h (0x100 * e.1 + 0x20 + 4 * e.2)
    let s := s.setSeqG h e.1 e.2 { q.off with retries := 0, cause := 0 }
    (rangeFrom (fld f 17 12) (fld f 11 6)).foldl
      (fun s j => s.srf .pst h (0x100 * e.1 + 0x50 + 4 * (j / 32)) (j % 32) (j % 32) 0) s
  else s

/-- The clears asked of half `h` act, or lapse with a refused commit. -/
def State.pstClears (s : State) (h : Half) (apply : Bool) : State :=
  let s1 := if apply then (s.hf h).pst.clears.foldl (clearGroup h) s else s
  s1.mh h fun y => { y with pst := { y.pst with clears := [] } }

/-! ### The cabinet remote's power stage (R240-R248) -/

/-- The cabinet remote at port `p`. -/
def State.cab (s : State) (p : Nat) : CabR := look {} s.cabs p

/-- Word `w` of the command a remote has applied. -/
def appliedWord (s : State) (p w : Nat) : Nat :=
  (s.rem p).applied.getD (2 * w) 0 + 256 * (s.rem p).applied.getD (2 * w + 1) 0

/-- One step of the dither register (R246). -/
def dithStep (l : Nat) : Nat :=
  let b := (l.testBit 0 != l.testBit 2) != (l.testBit 3 != l.testBit 5)
  l / 2 + b2n b * 2 ^ 15

/-- The register a reseed loads (R246). -/
def dithSeed (seed : Nat) : Nat := if seed = 0 then 0xACE1 else seed % 2 ^ 16

/-- `n` steps of the dither register. -/
def dithSteps : Nat → Nat → Nat
  | 0, l => l
  | n + 1, l => dithSteps n (dithStep l)

/-- DITHER_STEP (R246) at the remote's edge. A remote that joined, or took its tick from TIME, first computes L for the tick from
SEED; a remote without a tick number does neither. -/
def execDitherStep (p : Nat) (s : State) : Out :=
  let r := s.rem p
  let q := s.cab p
  if 32 ≤ p || !r.tickKnown || r.applied.isEmpty then .next s
  else
    let n := r.tick % 65536
    let seed := dithSeed (appliedWord s p 2)
    let l := if n = 0 then seed else if q.dithOk then dithStep q.dith else dithSteps n seed
    .next { s with cabs := put {} s.cabs p { q with dith := l, dithOk := true } }

/-- The GSTATE nibble of group `g`, with the values R240 does not name read as OFF. -/
def groupCmd (gstate g : Nat) : Nat :=
  let v := gstate / 16 ^ g % 16
  if v ≤ 3 then v else 0

/-- The group each phase belongs to, as the commissioned configuration places it (R237, R270). -/
def cabGroups (s : State) (p g : Nat) : List Nat :=
  let h : Half := match (s.rem p).cif with
    | some c => if c % 2 = 0 then .A else .B
    | none => .A
  let w := s.rg .pst h (0x100 * p + 0x20 + 4 * g)
  rangeFrom (fld w 17 12) (fld w 11 6)

/-- The switching phases of group `g` with their positions (R247). -/
def switching (s : State) (p g rotsh : Nat) (minOn : Nat) : List (Nat × Nat × Nat × Nat) :=
  let sw := (cabGroups s p g).filter fun j => (appliedWord s p (8 + j)).testBit 15
  let n := sw.length
  let r := (s.rem p).tick / 2 ^ rotsh % max 1 n
  (List.range n).map fun q =>
    let j := sw.getD ((q + r) % max 1 n) 0
    let d := appliedWord s p (8 + j) % 2 ^ 14
    (j, q, n, if d < minOn then 0 else d)

/-- The phase currents of a cabinet whose remote is in LINK_LOST fall linearly to zero, within 400 ticks of edge L (R108): the length of the ramp and the duties
that make it are the cabinet's own, free values.
(DESIGN CHOICE, safe: log 121.) -/
def CabR.ramp (q : CabR) (sinceL : Nat) (free : Nat → Nat) : CabR :=
  let len := if sinceL = 0 ∧ q.phases ≠ [] then 1 + free 1 % 400 else q.rampLen
  if sinceL < len then
    { q with rampLen := len, fade := len - sinceL, phases := q.phases.map fun e => (e.1, e.2.1, e.2.2.1, free (2 + e.1) % 2 ^ 14) }
  else { q with rampLen := 0, fade := 0, groups := [0, 0, 0, 0], phases := [] }

/-- CABINET_COMMAND_APPLY (R108, R239-R241, R244, R245, R247, R248) at the remote's edge. The remote's own minimum on-time is a free
value. With zero current commanded (R109) every group is OFF; DITH_EN with an odd M runs undithered. In LINK_LOST the currents ramp to zero.
(DESIGN CHOICE, safe: log 28.) -/
def execCabinetCommandApply (p : Nat) (s : State) : Out :=
  if 32 ≤ p then .next s
  else
    let q := s.cab p
    let r := s.rem p
    let live := !r.zeroCur && !r.applied.isEmpty
    let gs := (List.range 4).map fun g => if live then groupCmd (appliedWord s p 0) g else 0
    let car := appliedWord s p 1
    let m := car % 32
    let k : Int := (q.dith % 16 : Nat)
    let dither := car.testBit 15 && q.dithOk && m % 2 == 0
    let ph := ((List.range 4).filter fun g => gs.getD g 0 == 1).flatMap fun g => switching s p g (fldN car 11 9) (s.freeVal 0)
    let c : CabR := { q with groups := gs, phases := ph, periods := m, cphase := appliedWord s p 3 % 256, rampLen := 0, fade := 0,
                             delta := if dither then (k - 8) * (fldN car 14 12 : Nat) * 50000 else 0 }
    let c := if r.linkLost then q.ramp r.sinceL s.freeVal else c
    .next ({ s with cabs := put {} s.cabs p c }.drew 50)

end Sys2Proof.Machine
end

