-- ==== Sys2Proof/Machine/Canopy.lean ====
section
/-!
DEFINITION. Canopy's solver (spec 08, R275-R292): the constraint tree, the inputs of a tick, the solve, the latch.
-/

namespace Sys2Proof.Machine

/-! ### The tree -/

/-- A node in use (R276). `kind` 1 SITE, 2 INTAKE, 3 BRANCH, 4 CABINET, 5 GROUP, 6 SOURCE. -/
structure Node where
  idx : Nat
  kind : Nat
  parent : Nat
  unit : Nat
  limit : Nat
  fb : Nat
  exp : Nat
  deriving DecidableEq, Repr

/-- Register words of a block read through `rd`: the words in force, or the candidate of a commit. -/
abbrev RegRead := Nat → Word

/-- The nodes in use under a CNP_ map (R276). -/
def nodesOf (rd : RegRead) : List Node :=
  (List.range 1024).filterMap fun i =>
    let w := rd (0x10 * i)
    if fld w 31 29 = 0 then none
    else some { idx := i, kind := fld w 31 29, parent := fld w 25 16, unit := fld w 7 0, limit := (rd (0x10 * i + 4)).toNat,
                fb := (rd (0x10 * i + 8)).toNat, exp := (rd (0x10 * i + 0xC)).toNat }

/-- The tree in force in half `h` (R278). -/
def State.nodes (s : State) (h : Half) : List Node := nodesOf fun off => s.rg .cnp h off

/-- Node `i`. -/
def nodeAt (ns : List Node) (i : Nat) : Option Node := ns.find? fun n => n.idx == i

/-- A node and its ancestors, at most `fuel` of them. -/
def pathUp (ns : List Node) : Nat → Nat → List Node
  | 0, _ => []
  | fuel + 1, i =>
    match nodeAt ns i with
    | none => []
    | some n => n :: (if n.kind = 1 then [] else pathUp ns fuel n.parent)

/-- The CABINET node of cabinet `c`, the GROUP node of its group `g`, the SOURCE node of a unit (bit 7: PV). -/
def cabNode (ns : List Node) (c : Nat) : Option Node := ns.find? fun n => n.kind == 4 && n.unit == c
def grpNode (ns : List Node) (c g : Nat) : Option Node :=
  match cabNode ns c with
  | some p => ns.find? fun n => n.kind == 5 && n.unit == g && n.parent == p.idx
  | none => none
def srcNode (ns : List Node) (u : Nat) : Option Node := ns.find? fun n => n.kind == 6 && n.unit == u

/-- A node has a limit (R275, R276). -/
def Node.limited (n : Node) : Bool :=
  n.kind == 2 || n.kind == 4 || n.kind == 5 || ((n.kind == 1 || n.kind == 3) && n.limit != 0xFFFFFFFF)

/-- A node on which exports count as flow (R285, R286). -/
def Node.flow (n : Node) : Bool := n.kind == 4 || n.kind == 5

/-! ### Routes (R280, R281) -/

/-- PST_GROUTE of group number `gid` = 4c + g. -/
def State.groute (s : State) (h : Half) (gid : Nat) : Word := s.rg .pst h (0x100 * (gid / 4) + 0x30 + 4 * (gid % 4))

/-- The groups routed to output `k` in force. -/
def State.routesOf (s : State) (h : Half) (k : Nat) : List Nat :=
  (List.range 128).filter fun gid => bitAt (s.groute h gid) 31 && fld (s.groute h gid) 21 16 == k

/-- The STATE of a group as its sequencer lane drained it last (R262, R280); OFF where no lane runs the cabinet (R238). -/
def State.drainedState (s : State) (h : Half) (gid : Nat) : Nat :=
  let lane := s.rf .pst h (0x100 * (gid / 4)) 29 24
  if !s.rb .pst h (0x100 * (gid / 4)) 31 then 0
  else (look 0 (s.hf h).cln.slots (fld (s.rg .cln h (0x20 * lane + 4)) 26 16 + 56 + gid % 4)).toNat / 2 ^ 13

/-- A cabinet takes no part: its remote is lost under R77. -/
def State.cabLost (s : State) (h : Half) (c : Nat) : Bool := decide (c ∈ (s.hf h).cnp.lost)

/-- A routed group is switching (R280, R281, R300). -/
def State.grpSwitching (s : State) (h : Half) (gid : Nat) : Bool :=
  !s.cabLost h (gid / 4) && !decide (gid ∈ (s.hf h).cnp.brk)
    && (let st := s.drainedState h gid; decide (2 ≤ st ∧ st ≤ 4))

/-- The change output `k` is in. -/
def State.chgOf (s : State) (h : Half) (k : Nat) : Option Change := (s.hf h).cnp.chgs.find? fun c => decide (k ∈ c.outs)

/-! ### Inputs of an output (R282-R284) -/

/-- A field of the last commonly accepted dispenser sample of output `k` (R283, R345); none: not measured, or no sample. -/
def State.sample (s : State) (h : Half) (k off : Nat) : Option Int :=
  match look none (s.hf h).cnp.common (32 + k) with
  | none => none
  | some f => if numAt f.bytes off 4 = 0x80000000 then none else some (intAt f.bytes off 4)

/-- R77 zeroes the demand of output `k`: its remote is lost, or its commonly accepted uplink carries LOST. -/
def State.demandZeroed (s : State) (h : Half) (k : Nat) : Bool :=
  decide (32 + k ∈ (s.hf h).cnp.lost) || match look none (s.hf h).cnp.common (32 + k) with
    | some f => f.lost
    | none => false

/-- V of R284 in mV. -/
def State.outVolt (s : State) (h : Half) (k : Nat) : Int :=
  max (max 0 ((s.sample h k 4).getD 0)) (s.rf .cnp h 0x4800 15 0 * 1000 : Nat)

/-- The output record words (R279). -/
def State.ocfg (s : State) (h : Half) (k w : Nat) : Word := s.rg .cnp h (0x4000 + 0x10 * k + 4 * w)

/-- The cable ceiling that bounds output `k`, if any (R279, R282). -/
def State.ceil (s : State) (h : Half) (k : Nat) : Option Int :=
  let m := fld (s.ocfg h k 0) 14 8
  if m < 64 then some (s.staged h (192 + m)) else none

/-- An output whose target is 0 apart from routes and changes (R284, R330, R469). -/
def State.tgtZero (s : State) (h : Half) (k : Nat) : Bool :=
  !bitAt (s.ocfg h k 0) 31 || s.demandZeroed h k || (s.hf h).cnp.stopAll
    || !(s.hf h).saf.permOut.testBit k || (s.hf h).saf.stopOut.testBit k

/-- The lesser of a value and a ceiling. -/
def minCeil (v : Int) : Option Int → Int
  | some c => min v c
  | none => v

/-- The target of an import (R284), routes and changes apart. -/
def State.rawTarget (s : State) (h : Half) (k : Nat) : Int :=
  if s.tgtZero h k || decide (s.staged h (4 * k) < 0) then 0
  else minCeil (min (min (s.staged h (4 * k)) (s.staged h (4 * k + 1))) ((s.ocfg h k 1).toNat : Int)) (s.ceil h k)

/-- The cap in W of a current (R284). -/
def State.capWatt (s : State) (h : Half) (k : Nat) (i : Int) : Int :=
  min (min (s.staged h (4 * k + 2)) ((s.ocfg h k 3).toNat : Int)) (i * s.outVolt h k / 1000000)

/-- F of R284. -/
def State.fallRate (s : State) (h : Half) (k : Nat) : Int :=
  let f := fld (s.ocfg h k 2) 15 0
  if s.demandZeroed h k then (max f (((s.ocfg h k 1).toNat + 399) / 400) : Nat) else (f : Nat)

/-- What an output had latched in the previous tick. -/
def State.prevAlloc (s : State) (h : Half) (k : Nat) : OutAlloc := look {} (s.hf h).cnp.latched.outs k

/-- capI of R284. -/
def State.capI (s : State) (h : Half) (k : Nat) : Int :=
  let tgt := if (s.routesOf h k).isEmpty || (s.chgOf h k).isSome then 0 else s.rawTarget h k
  let p := (s.prevAlloc h k).imax
  min (max tgt (p - s.fallRate h k)) (p + (fld (s.ocfg h k 2) 31 16 : Nat))

/-- Output `k` exports in this solve (R285). -/
def State.exporting (s : State) (h : Half) (k : Nat) : Bool :=
  bitAt (s.ocfg h k 0) 30 && decide (s.staged h (4 * k) < 0) && decide ((s.prevAlloc h k).imax ≤ 0)

/-- The export cap in W (R285). -/
def State.exportCap (s : State) (h : Half) (k : Nat) : Int :=
  if s.tgtZero h k || (s.routesOf h k).isEmpty || (s.chgOf h k).isSome then 0
  else
    let x0 := minCeil (min (min (-(s.staged h (4 * k))) (s.staged h (4 * k + 1))) ((s.ocfg h k 1).toNat : Int)) (s.ceil h k)
    s.capWatt h k (min x0 (-(s.prevAlloc h k).imin + (fld (s.ocfg h k 2) 31 16 : Nat)))

/-! ### The solve (R285-R290) -/

/-- A demand: its number (outputs 0-47, storage 48-51, reservations 64 up), weight, cap, share-weights by node, allocation. -/
structure Dem where
  id : Nat
  w : Int
  cap : Int
  sh : Tab Int
  a : Int := 0
  deriving DecidableEq, Repr

/-- The share-weights of output `k` over all nodes (R280). -/
def State.shares (s : State) (h : Half) (ns : List Node) (k : Nat) : Tab Int :=
  (s.routesOf h k).foldl (fun t gid =>
    if s.grpSwitching h gid then
      match grpNode ns (gid / 4) (gid % 4) with
      | some n => (pathUp ns 8 n.idx).foldl (fun t m => put 0 t m.idx (look 0 t m.idx + (fld (s.groute h gid) 15 0 : Nat))) t
      | none => t
    else t) []

/-- Headrooms by node, in share-watts (R286); unlisted nodes have no limit. -/
abbrev Head := List (Nat × Int)

/-- Add `v` to the headroom of every node of `sh` times its share-weight, on nodes that `sel` picks. -/
def headAdd (ns : List Node) (sel : Node → Bool) (sh : Tab Int) (v : Int) (hd : Head) : Head :=
  hd.map fun e =>
    match nodeAt ns e.1 with
    | some n => if sel n then (e.1, e.2 + v * look 0 sh e.1) else e
    | none => e

/-- The ancestors of a source node with weight 32,768 (R286). -/
def srcShare (ns : List Node) (u : Nat) : Tab Int :=
  match srcNode ns u with
  | some n => (pathUp ns 8 n.parent).foldl (fun t m => put 0 t m.idx 32768) []
  | none => []

/-- PV supply of unit `u` (R286). -/
def State.pvSupply (s : State) (h : Half) (u : Nat) : Int :=
  if s.rb .cnp h (0x4440 + 0x10 * u) 31 && !(s.hf h).cnp.stopAll then
    let cap := (s.rg .cnp h (0x4440 + 0x10 * u + 4)).toNat
    if cap = 0xFFFFFFFF then s.staged h (266 + u) else min (s.staged h (266 + u)) (cap : Int)
  else 0

/-- The discharge limit of storage unit `u`, and the cap of its charge demand (R287, R288, R330). -/
def State.disLimit (s : State) (h : Half) (u : Nat) : Int :=
  if s.rb .cnp h (0x4400 + 0x10 * u) 31 && !(s.hf h).cnp.stopAll then s.staged h (259 + 2 * u) else 0
def State.chgCap (s : State) (h : Half) (u : Nat) : Int :=
  if s.rb .cnp h (0x4400 + 0x10 * u) 31 && !(s.hf h).cnp.stopAll then
    min ((s.rg .cnp h (0x4400 + 0x10 * u + 4)).toNat : Int) (s.staged h (258 + 2 * u)) else 0

/-- Headrooms with PV supply, before exports, demands and discharge (R286). -/
def State.head0 (s : State) (h : Half) (ns : List Node) : Head :=
  let base := (ns.filter Node.limited).map fun n =>
    (n.idx, 32768 * (if n.kind = 2 then min (n.limit : Int) (s.staged h (256 + n.unit)) else (n.limit : Int)))
  (List.range 4).foldl (fun hd u => headAdd ns (fun n => !n.flow) (srcShare ns (128 + u)) (s.pvSupply h u) hd) base

/-- Floor of a quotient by a positive share-weight. -/
def floorBy (a b : Int) : Int := a / b

/-- The least of a list of bounds and `m`. -/
def leastOf (m : Int) (l : List Int) : Int := l.foldl min m

/-- The grant of one export (R285): the headrooms after it, the exports granted. -/
def grantExport (s : State) (h : Half) (ns : List Node) (acc : Head × List (Nat × Int × Tab Int)) (k : Nat) :
    Head × List (Nat × Int × Tab Int) :=
  if !s.exporting h k then acc
  else
    let sh := s.shares h ns k
    let used (n : Nat) : Int := (acc.2.map fun e => -((-(e.2.1 * look 0 e.2.2 n)) / 32768)).sum
    let bounds := sh.filterMap fun e =>
      match nodeAt ns e.1 with
      | some n =>
        if decide (e.2 < (1 : Int)) then none
        else if n.kind = 2 then some (floorBy (((n.exp : Int) - used e.1) * 32768) e.2)
        else if n.flow then (acc.1.find? fun q => q.1 = e.1).map fun q => floorBy q.2 e.2
        else none
      | none => none
    let x := if sh.isEmpty then 0 else max 0 (leastOf (s.exportCap h k) bounds)
    (headAdd ns Node.flow sh (-x) (headAdd ns (fun n => !n.flow) sh x acc.1), acc.2 ++ [(k, x, sh)])

/-- The headroom after an allocation of `v` more to a demand. -/
def headTake (sh : Tab Int) (v : Int) (hd : Head) : Head := hd.map fun e => (e.1, e.2 - v * look 0 sh e.1)

/-- The residual step for one demand of F (R289). -/
def residual (acc : Head × List Dem) (d : Dem) : Head × List Dem :=
  let bounds := acc.1.filterMap fun e => if 0 < look 0 d.sh e.1 then some (floorBy e.2 (look 0 d.sh e.1)) else none
  let v := leastOf (min (d.w - 1) (d.cap - d.a)) bounds
  (headTake d.sh v acc.1, acc.2 ++ [{ d with a := d.a + v }])

/-- The iterations of one pass (R289): headrooms, demands done, iterations. `fuel` is the bound of R290. -/
def passLoop : Nat → Head → List Dem → List Dem → Nat → Head × List Dem × Nat
  | 0, hd, act, done, it => (hd, done ++ act, it)
  | fuel + 1, hd, act, done, it =>
    if act.isEmpty then (hd, done, it)
    else
      let g (n : Nat) : Int := (act.map fun d => d.w * look 0 d.sh n).sum
      let capB := act.map fun d => floorBy (d.cap - d.a) d.w
      let nodeB := hd.filterMap fun e => if 0 < g e.1 then some (floorBy e.2 (g e.1)) else none
      let delta := leastOf (capB.headD 0) (capB ++ nodeB)
      let act1 := act.map fun d => { d with a := d.a + d.w * delta }
      let hd1 := act.foldl (fun hd d => headTake d.sh (d.w * delta) hd) hd
      let out (d : Dem) : Bool :=
        decide (d.cap - d.a < d.w) || hd1.any fun e => decide (0 < look 0 d.sh e.1) && decide (e.2 < g e.1)
      let r := (act1.filter out).foldl residual (hd1, [])
      passLoop fuel r.1 (act1.filter fun d => !out d) (done ++ r.2) (it + 1)

/-- The solve under way. -/
structure Sol where
  hd : Head
  dems : List Dem := []
  iter : Nat := 0
  dis : Bool := false
  deriving DecidableEq, Repr

/-- One pass over demands with caps above 0. -/
def Sol.pass (x : Sol) (ds : List Dem) : Sol :=
  let r := passLoop 64 x.hd (ds.filter fun d => decide (0 < d.cap)) [] 0
  { x with hd := r.1, dems := x.dems ++ r.2.1, iter := x.iter + r.2.2 }

/-- The demands of class `c` (R287). -/
def State.classDems (s : State) (h : Half) (ns : List Node) (c : Nat) (dis : Bool) : List Dem :=
  let outs := (List.range 48).filterMap fun k =>
    if fld (s.ocfg h k 0) 29 27 = c && !s.exporting h k then
      let sh := s.shares h ns k
      if sh.isEmpty then none
      else some { id := k, w := (max 1 (fld (s.ocfg h k 0) 23 16) : Nat), cap := s.capWatt h k (s.capI h k), sh := sh }
    else none
  let stor := if c = 7 && !dis then (List.range 4).filterMap fun u =>
      let sh := srcShare ns u
      if sh.isEmpty then none
      else some { id := 48 + u, w := (max 1 (s.rf .cnp h (0x4400 + 0x10 * u) 15 8) : Nat), cap := s.chgCap h u, sh := sh : Dem }
    else []
  outs ++ stor

/-- Storage discharge becomes supply (R286, R288). -/
def State.enableDis (s : State) (h : Half) (ns : List Node) (hd : Head) : Head :=
  (List.range 4).foldl (fun hd u => headAdd ns (fun n => !n.flow) (srcShare ns u) (s.disLimit h u) hd) hd

/-- Class `c` (R287-R289). -/
def solveClass (s : State) (h : Half) (ns : List Node) (x : Sol) (c : Nat) : Sol :=
  let ds := s.classDems h ns c x.dis
  let beyond := (ds.foldl (fun hd d => headTake d.sh (max 0 d.cap) hd) x.hd).any fun e => decide (e.2 < 0)
  if !x.dis && decide (c ≤ s.rf .cnp h 0x4800 30 28) && (List.range 4).any (fun u => s.disLimit h u ≠ 0) && beyond then
    { x with dis := true, hd := s.enableDis h ns x.hd }.pass (s.classDems h ns c true)
  else x.pass ds

/-- The reservations of the changes under way (R302). -/
def State.reserveDems (s : State) (h : Half) : List Dem :=
  ((s.hf h).cnp.chgs.flatMap (·.res)).map fun e =>
    { id := 64 + e.1, w := 1, cap := max 0 ((e.2.1 : Int) - s.capWatt h e.1 (s.capI h e.1)),
      sh := e.2.2.foldl (fun t n => put 0 t n 32768) [] }

/-! ### Dispatch of the sources and the image (R291, R292) -/

/-- Ceiling of a division by 32,768. -/
def ceil15 (v : Int) : Int := -((-v) / 32768)

/-- Storage dispatch (R291): the discharge of each unit in order. -/
def dispatchStor (s : State) (h : Half) (ns : List Node) (x0 : Head) : List (Nat × Int) :=
  ((List.range 4).foldl (fun (acc : Head × List (Nat × Int)) u =>
    let sh := srcShare ns u
    let need := (acc.1.filterMap fun e => if 0 < look 0 sh e.1 then some (ceil15 e.2) else none).foldl max 0
    let b := min (s.disLimit h u) need
    (acc.1.map fun e => if 0 < look 0 sh e.1 then (e.1, max 0 (e.2 - 32768 * b)) else e, acc.2 ++ [(u, b)])) (x0, [])).2

/-- PV curtailment at one INTAKE (R291): the set-points after it. -/
def curtailAt (ns : List Node) (excess : Int) (n : Node) (pv : List (Nat × Int)) : List (Nat × Int) :=
  (pv.foldl (fun (acc : Int × List (Nat × Int)) e =>
    if 0 < acc.1 && decide (look 0 (srcShare ns (128 + e.1)) n.idx ≠ 0) then
      (acc.1 - min acc.1 e.2, acc.2 ++ [(e.1, e.2 - min acc.1 e.2)])
    else (acc.1, acc.2 ++ [e])) (excess, [])).2

/-- What the solve of a tick gives (R284-R292, R306). -/
structure Solved where
  alloc : Alloc
  iter : Nat
  dis : Bool
  curtail : Bool
  deriving DecidableEq, Repr

/-- Round away from zero after a division by 32,768 (R292). -/
def away15 (v : Int) : Int := if 0 ≤ v then ceil15 v else -(ceil15 (-v))

/-- The solve of a tick in half `h`.
(DEDUCED, unsafe: log 29.) -/
def State.solve (s : State) (h : Half) : Solved :=
  let ns := s.nodes h
  let ex := (List.range 48).foldl (grantExport s h ns) (s.head0 h ns, [])
  let x0 : Sol := { hd := ex.1 }
  let x1 := x0.pass (s.reserveDems h)
  let x1 := { x1 with dems := [] }
  let x := (List.range 8).foldl (solveClass s h ns) x1
  let a (id : Nat) : Int := match x.dems.find? fun d => d.id == id with | some d => d.a | none => 0
  let xp (k : Nat) : Option Int := (ex.2.find? fun e => e.1 = k).map (·.2.1)
  let noSto := if x.dis then (List.range 4).foldl (fun hd u => headAdd ns (fun n => !n.flow) (srcShare ns u) (-(s.disLimit h u)) hd) x.hd
    else x.hd
  let disch := if x.dis then dispatchStor s h ns (noSto.map fun e => (e.1, max 0 (-e.2))) else (List.range 4).map fun u => (u, 0)
  let stor := disch.map fun e => (e.1, if x.dis then e.2 else -(a (48 + e.1)))
  let pv0 := (List.range 4).map fun u => (u, if (srcNode ns (128 + u)).isSome then s.pvSupply h u else 0)
  let net (n : Node) : Int :=
    (pv0.map fun e => e.2 * look 0 (srcShare ns (128 + e.1)) n.idx).sum + (stor.map fun e => e.2 * look 0 (srcShare ns e.1) n.idx).sum
      + (ex.2.map fun e => e.2.1 * look 0 e.2.2 n.idx).sum - ((x.dems.filter fun d => decide (d.id < 48)).map fun d => d.a * look 0 d.sh n.idx).sum
  let pv := (ns.filter fun n => n.kind == 2).foldl (fun pv n =>
    let e := net n - 32768 * (n.exp : Int)
    if 0 < e then curtailAt ns (ceil15 e) n pv else pv) pv0
  let pOf (k : Nat) : Int := match xp k with | some v => -v | none => a k
  let outs := (List.range 48).foldl (fun t k =>
    let chg := s.chgOf h k
    let ro := !(s.routesOf h k).isEmpty && chg.isNone
    let dr := match chg with | some c => c.st == 1 | none => false
    let v := s.outVolt h k
    put {} t k (match xp k with
      | some e => { imax := 0, imin := -(e * 1000000 / v), pmax := -e, routeOk := ro, drain := dr }
      | none => { imax := if (s.shares h ns k).isEmpty then 0 else min (s.capI h k) (a k * 1000000 / v), imin := 0, pmax := a k,
                  routeOk := ro, drain := dr })) []
  let cabs := (List.range 32).foldl (fun t c =>
    put 0 t c (((rangeFrom (4 * c) 4).filter fun gid => bitAt (s.groute h gid) 31 && s.grpSwitching h gid).map fun gid =>
      away15 (pOf (fld (s.groute h gid) 21 16) * (fld (s.groute h gid) 15 0 : Nat))).sum) []
  { alloc := { outs := outs, cabs := cabs, stor := stor.foldl (fun t e => put 0 t e.1 e.2) [], pv := pv.foldl (fun t e => put 0 t e.1 e.2) [] },
    iter := x.iter, dis := x.dis, curtail := decide (pv ≠ pv0) }

/-! ### The commands -/

/-- Change Canopy of half `h`. -/
def State.mCnp (s : State) (h : Half) (f : CnpS → CnpS) : State := s.mh h fun x => { x with cnp := f x.cnp }

/-- The ports whose main uplink frame half `h` accepted in this tick (R149). -/
def ingestMap (s : State) (h : Half) : List Nat :=
  (List.range 80).filter fun p => match (s.port h p).main with
    | some f => f.tick == s.tick h
    | none => false

/-- A port that has lacked common acceptance in 3 ticks is lost to Canopy (R77). -/
def State.acceptLoss (s : State) (h : Half) (p : Nat) : State :=
  s.mCnp h fun c => if 3 ≤ look 0 c.noComm p ∧ p ∉ c.lost then { c with lost := c.lost ++ [p] } else c

/-- UPLINK_ACCEPTANCE_LOSS (R77). -/
def execUplinkAcceptanceLoss (h : Half) (p : Nat) (s : State) : Out := .next (s.acceptLoss h p)

/-- One port after the exchange of maps (R77, R283).
(DEDUCED, unsafe: log 29.) -/
def commonPort (h : Half) (ok : List Nat) (s : State) (p : Nat) : State :=
  if !s.portEn h p then s
  else if p ∈ ok then
    s.mCnp h fun c => { c with common := put none c.common p (s.port h p).main, noComm := del c.noComm p, lost := if p ∈ c.pre then c.lost else c.lost.filter (· ≠ p) }
  else (s.mCnp h fun c => { c with noComm := put 0 c.noComm p (min 3 (look 0 c.noComm p + 1)) }).acceptLoss h p

/-- The exchange of ingest maps (R149): what both halves accepted; with the twin link dead, what this half accepted (R283). -/
def State.exchangeMaps (s : State) (h : Half) (sentMap : Bool) : State :=
  let mine := ingestMap s h
  let theirs := if s.twinUp h && sentMap then some (ingestMap s (other h)) else none
  let ok := if s.twinUp h then (match theirs with | some m => mine.filter (· ∈ m) | none => []) else mine
  (List.range 80).foldl (commonPort h ok) (s.mTwn h fun t => { t with mapMine := mine, mapOther := theirs })

/-- INGEST_MAP_EXCHANGE (R149, R77, R283-R291, R302): the maps are exchanged, and Canopy solves. The solve's duration is free
(R306).
(DESIGN CHOICE, safe: log 30.) -/
def execIngestMapExchange (h : Half) (sentMap : Bool) (s : State) : Out :=
  let s := s.exchangeMaps h sentMap
  let r := s.solve h
  let st := r.iter % 256 * 2 ^ 24 + b2n r.dis * 2 ^ 23 + b2n r.curtail * 2 ^ 22 + s.freeVal 0 % 2 ^ 16
  .next ((s.mCnp h fun c => { c with solved := some (r.alloc, st) }).drew 1)

end Sys2Proof.Machine
end

