-- ==== Sys2Proof/Machine/Logs.lean ====
section
/-!
DEFINITION. The logs of the islands: records, rings and the events they raise (R384, R495, R528).
-/

namespace Sys2Proof.Machine

/-- A record's 32 bytes (R384). -/
def LogRec.bytes (r : LogRec) : List Nat :=
  le 4 r.num ++ le 8 r.tick ++ le 8 r.rtc ++ [r.typ, r.src] ++ le 2 r.detail ++ le 4 r.a ++ le 4 r.b

/-- Append to a ring of `cap` records; the per-type counters go on (R384). -/
def LogS.add (l : LogS) (cap : Nat) (r : LogRec) : LogS :=
  let rs := l.recs ++ [{ r with num := l.count }]
  { recs := if cap < rs.length then rs.drop 1 else rs, count := l.count + 1, types := Machine.upd 0 l.types r.typ (· + 1) }

/-- The records from `first` on, at most `n` of them, oldest first (R394, R496). -/
def LogS.read (l : LogS) (first n : Nat) : List Nat :=
  ((l.recs.filter fun r => decide (first ≤ r.num)).take n).flatMap LogRec.bytes

/-- SEV of a record type (R528). -/
def logSev (typ : Nat) : Nat :=
  if typ ∈ [0x05, 0x07, 0x10, 0x11, 0x22, 0x23, 0x47] then 0
  else if typ ∈ [0x02, 0x03, 0x24, 0x41, 0x42, 0x43, 0x44] then 2
  else 1

/-- The TICK of a record: 0 if no tick service ran (R384). -/
def State.logTick (s : State) : Nat := if s.noService then 0 else s.now

/-- The event a log record raises (R384, R495, R528). -/
def State.logEv (s : State) (origin code num typ src detail a b : Nat) : State :=
  s.evShared origin (logSev typ) code (le 4 num ++ [typ, src] ++ le 2 detail ++ le 4 a ++ le 4 b)

/-- A record of the safety log. The spec gives DETAIL, VAL_A and VAL_B no meaning for its types: they are free values.
(DESIGN CHOICE, safe: log 38.) -/
def State.safLog (s : State) (typ src : Nat) : State :=
  let d := s.freeVal 0 % 2 ^ 16
  let a := s.freeVal 1 % 2 ^ 32
  let b := s.freeVal 2 % 2 ^ 32
  let n := s.saf.log.count
  let r : LogRec := { num := n, tick := s.logTick, rtc := s.rtc, typ := typ, src := src, detail := d, a := a, b := b }
  (({ s with saf := { s.saf with log := s.saf.log.add 1024 r } }).drew 3).logEv 2 0x0D01 n typ src d a b

/-- A record of the island's event log (R384, R405-R423). Where the spec gives a type no DETAIL or no values they are free values.
(DESIGN CHOICE, safe: log 38.) -/
def State.metLog (s : State) (typ src : Nat) (detail : Option Nat) (vals : Option (Nat × Nat)) : State :=
  let d := (detail.getD (s.freeVal 0)) % 2 ^ 16
  let v := vals.getD (s.freeVal 1, s.freeVal 2)
  let n := s.met.evlog.count
  let r : LogRec := { num := n, tick := s.logTick, rtc := s.rtc, typ := typ, src := src, detail := d, a := v.1 % 2 ^ 32, b := v.2 % 2 ^ 32 }
  (({ s with met := { s.met with evlog := s.met.evlog.add 4096 r } }).drew 3).logEv 3 0x0A01 n typ src d v.1 v.2

/-- A record of the metrological log, which is never overwritten (R363). -/
def State.sealedLog (s : State) (typ src detail a b : Nat) : State :=
  let n := s.met.mlog.count
  let r : LogRec := { num := n, tick := s.logTick, rtc := s.rtc, typ := typ, src := src, detail := detail % 2 ^ 16, a := a % 2 ^ 32, b := b % 2 ^ 32 }
  ({ s with met := { s.met with mlog := s.met.mlog.add 1025 r } }).logEv 3 0x0A01 n typ src (detail % 2 ^ 16) a b

/-- UTC_S at the present tick (R400). -/
def State.utc (s : State) : Int := (s.now / 20000 : Nat) - (s.bil.tai : Int)

end Sys2Proof.Machine
end

