-- ==== Sys2Proof/Machine/Locket.lean ====
section
/-!
DEFINITION. Locket (spec 13): entries and handles, the checks of a use, creation, invalidation and sweep, the journal, pairing and rolls, attestation,
its verbs. Signatures, ECDH and ML-KEM enter as operands; hashes, MACs, AES, GCM and KW are computed.
-/

namespace Sys2Proof.Machine

/-- Change Locket. -/
def State.mLkt (s : State) (f : LktS → LktS) : State := { s with lkt := f s.lkt }

/-- The status of a use (R435): `role` for LKT_OP only; engine bits any of which serves; place 0 half, 1 island; the usage bit. -/
def State.useStatus (s : State) (handle : Nat) (role : Option Nat) (engine place usage : Nat) : Nat :=
  match s.keyE handle with
  | none => 0x0C01
  | some e =>
    if e.st = 2 ∧ !s.beforeCutoff handle then 0x0C03
    else if !s.keyUsable handle then stKeyOrphaned
    else if (match role with | some r => !e.useRoles.testBit r | none => false) then stRole
    else if !e.eng.testBit engine || !e.dom.testBit place then stKeyEngine
    else if !e.use.testBit usage then 0x0C05
    else if s.expired e then 0x0C06
    else stOk

/-! ### Transactions (R450, R452) -/

/-- Write images into the entries. -/
def applyImages (t : Tab (Option KeyE)) (l : List (Nat × Option KeyE)) : Tab (Option KeyE) := l.foldl (fun t e => put none t e.1 e.2) t

/-- A journal transaction of at most 4 images, committed and done (R450); the TXTAG is kept (R452). Each image is encrypted under an IV of its own (R431). -/
def State.lktTx (s : State) (images : List (Nat × Option KeyE)) (tx : Option Nat) (handle : Nat) : State :=
  let iv (j : Nat) : List Nat := (List.range 12).map fun i => s.freeVal (12 * j + i) % 256
  let images := images.zipIdx.map fun e => (e.1.1, e.1.2.map fun k => { k with iv := iv e.2 })
  (s.drew (12 * images.length)).mLkt fun x =>
    let k := x.c + 1
    let j : JSlot := { k := k, images := images, done := true }
    let l := match tx with | some t => x.txs ++ [(t, k, handle)] | none => x.txs
    { x with c := k, slot0 := if k % 2 = 0 then some j else x.slot0, slot1 := if k % 2 = 1 then some j else x.slot1, ents := applyImages x.ents images,
             txs := if 64 < l.length then l.drop 1 else l }

/-- A command that would start a transaction waits for the end of hold-up (R629).
(DESIGN CHOICE, safe: log 127.) -/
def State.afterHoldup (s : State) (c : LktCmd) (f : State → State) : State :=
  if s.holdup then s.mLkt fun x => { x with waiting := x.waiting ++ [c] } else f s

/-- The slot the next entry takes (R437): EMPTY, of index 16 or above, lowest allocation count, then lowest index; `skip` already taken in this transaction. -/
def State.freeSlot (s : State) (skip : List Nat) : Option Nat :=
  (rangeFrom 16 16368).foldl (fun b i =>
    if (s.keyAt i).isSome || decide (i ∈ skip) then b
    else match b with
      | some j => if look 0 s.lkt.allocs i < look 0 s.lkt.allocs j then some i else some j
      | none => some i) none

/-- GEN goes on (R428). -/
def genUp (g : Nat) : Nat := if 0xFFFF ≤ g then 1 else g + 1

/-- Take a slot: its counts rise; the new entry's handle. -/
def State.takeSlot (s : State) (i : Nat) : State × Nat :=
  let g := genUp (look 0 s.lkt.gens i)
  (s.mLkt fun x => { x with gens := put 0 x.gens i g, allocs := Machine.upd 0 x.allocs i (· + 1) }, g * 2 ^ 14 + i)

/-- The descendants of a handle, deepest first, within 7 levels (R447). -/
def State.descend (s : State) : Nat → Nat → List Nat
  | 0, _ => []
  | n + 1, h =>
    let kids := s.lkt.ents.filterMap fun e => e.2.bind fun x => if x.parent = h then some x.handle else none
    (kids.flatMap fun c => s.descend n c) ++ kids

/-! ### Attributes (R429, R439) -/

/-- An entry from ATTR, bytes 8-39 of the entry (R460). -/
def attrEntry (a : List Nat) : KeyE :=
  { handle := 0, parent := numAt a 0 4, typ := numAt a 4 1, dom := numAt a 5 1, eng := numAt a 6 2, use := numAt a 8 2, useRoles := numAt a 10 1,
    admRoles := numAt a 11 1, label := numAt a 12 4, binding := numAt a 16 8, notAfter := numAt a 24 8 }

/-- The engine bits and usage bits that suit a type (R432, R434); none: a reserved type.
(DEDUCED, unsafe: log 53.) -/
def typeFit (t : Nat) : Option (Nat × Nat) :=
  match t with
  | 0x01 => some (0x061, 0x6F)
  | 0x02 => some (0x031, 0x6F)
  | 0x03 => some (0x002, 0x1C)
  | 0x04 => some (0x002, 0x1C)
  | 0x10 => some (0x224, 0x14)
  | 0x11 => some (0x124, 0x14)
  | 0x12 => some (0x084, 0x08)
  | 0x13 => some (0x084, 0x08)
  | 0x20 => some (0x008, 0x10)
  | 0x21 => some (0x308, 0x04)
  | 0x22 => some (0x088, 0x08)
  | 0x30 => some (0x000, 0x00)
  | _ => none

/-- One bit mask lies within another. -/
def within (a b : Nat) : Bool := a &&& b == a

/-- The entry's ADMIN_ROLES must be exactly Legal seal (R439). -/
def legalOnly (e : KeyE) : Bool := e.eng.testBit 6 || e.eng.testBit 9 || (e.eng.testBit 4 && e.dom == 2)

/-- ATTR obeys R439 under a parent. -/
def attrOk (e : KeyE) (parent : Option KeyE) (role : Nat) : Bool :=
  (match typeFit e.typ with
    | some (g, u) => within e.eng g && within e.use (u + 0x180)
    | none => false)
  && decide (e.dom < 4)
  && (match parent with
    | some p => within e.dom p.dom && (!e.use.testBit 7 || p.use.testBit 7) && (p.notAfter == 0 || (e.notAfter != 0 && decide (e.notAfter ≤ p.notAfter)))
    | none => true)
  && (!legalOnly e || (e.admRoles == 0x10 && role == rLegal))

/-- The status of a creation before its own material is looked at (R430, R435, R437, R439, R448).
(DEDUCED, unsafe: log 53.) -/
def State.createStatus (s : State) (e : KeyE) (role : Nat) : Nat :=
  if e.parent = 0xFFFFFFFF then
    if role ≠ rInstaller ∧ role ≠ rVendor ∧ !(legalOnly e && role == rLegal) then stRole
    else if !attrOk e none role then 0x0C08
    else if (s.freeSlot []).isNone then 0x0C02 else stOk
  else
    match s.keyE e.parent with
    | none => 0x0C01
    | some p =>
      if p.st ≠ 1 ∨ !s.keyUsable e.parent then stKeyOrphaned
      else if !p.admRoles.testBit role then stRole
      else if 7 ≤ p.depth then 0x0C04
      else if !attrOk e (some p) role then 0x0C08
      else if (s.freeSlot []).isNone then 0x0C02 else stOk

/-- The length of a type's material (R432). -/
def matLen (typ : Nat) : Nat :=
  match typ with
  | 0x01 | 0x30 => 16
  | 0x02 | 0x03 | 0x10 | 0x21 => 32
  | 0x04 | 0x11 | 0x22 => 48
  | 0x12 => 65
  | 0x13 => 97
  | 0x20 => 64
  | _ => 0

/-- Fresh material from the random bit generator: free values (R438). -/
def State.randomMat (s : State) (typ : Nat) : List Nat := (List.range (matLen typ)).map fun i => s.freeVal i % 256

/-- An entry is created in a transaction of its own; the handle. -/
def State.createKey (s : State) (e : KeyE) (origin : Nat) (mat : List Nat) (tx : Option Nat) : State × Nat :=
  match s.freeSlot [] with
  | none => (s, 0xFFFFFFFF)
  | some i =>
    let r := s.takeSlot i
    let depth := match s.keyE e.parent with | some p => p.depth + 1 | none => 0
    let e' := { e with handle := r.2, st := 1, depth := depth, origin := origin, created := s.now, mat := mat }
    (r.1.lktTx [(i, some e')] tx r.2, r.2)

/-- A creating verb (R438, R460): `make` gives the status of what the way of creation itself requires, and the material. -/
def State.creating (s : State) (o : Org) (opc tx : Nat) (attr : List Nat) (origin : Nat) (make : State → KeyE → Nat × List Nat) : State :=
  s.verb o opc rAny fun s x role =>
    let e := attrEntry attr
    let st := s.createStatus e role
    let m := make s e
    if st ≠ stOk then s.complete o x opc st true []
    else if m.1 ≠ stOk then s.complete o x opc m.1 true []
    else
      let r := (s.drew 97).createKey e origin m.2 (some tx)
      r.1.complete o x opc stOk true (le 4 r.2 ++ le 8 r.1.lkt.c)

/-- LKT_GENERATE (R437-R439, R448, R450, R460).
(DESIGN CHOICE, safe: log 6.) -/
def execLktGenerate (o : Org) (tx : Nat) (attr : List Nat) (s : State) : Out :=
  .next (s.afterHoldup (.generate o tx attr) fun s => s.creating o 0x0C01 tx attr 1 fun s e => (stOk, s.randomMat e.typ))

/-- LKT_IMPORT: under an entry that has UNWRAP; a failed integrity check is refused (R438). -/
def execLktImport (o : Org) (tx : Nat) (attr : List Nat) (key : Nat) (wrapped : List Nat) (s : State) : Out :=
  .next (s.afterHoldup (.importKey o tx attr key wrapped) fun s => s.creating o 0x0C02 tx attr 2 fun s e =>
    let st := s.useStatus key none 0 0 6
    if st ≠ stOk then (st, [])
    else match kwUnwrap (((s.keyE key).map (·.mat)).getD []) wrapped with
      | some m => if matLen e.typ ≤ m.length ∧ m.length < matLen e.typ + 8 then (stOk, m.take (matLen e.typ)) else (0x0C09, [])
      | none => (0x0C09, []))

/-- The material HKDF-Expand derives for a child (R438); what FIPS 186-5 makes of it for a scalar is not repeated in the spec: a free value. -/
def State.derivedMat (s : State) (e : KeyE) (prk info : List Nat) (long : Bool) : List Nat :=
  if e.typ = 0x10 ∨ e.typ = 0x11 then s.randomMat e.typ
  else (if long then hkdf384 else hkdf256) prk info (matLen e.typ)

/-- LKT_DERIVE: a parent of TYPE 0x03 or 0x04 with DERIVE, its hash, info "LKT DERIVE", LABEL and the caller's info (R438). -/
def execLktDerive (o : Org) (tx : Nat) (attr info : List Nat) (s : State) : Out :=
  .next (s.afterHoldup (.derive o tx attr info) fun s => s.creating o 0x0C03 tx attr 3 fun s e =>
    match s.keyE e.parent with
    | none => (0x0C01, [])
    | some p =>
      let st := if 64 < info.length then stRange else if p.typ ≠ 3 ∧ p.typ ≠ 4 then 0x0C05 else s.useStatus e.parent none 1 0 4
      (st, s.derivedMat e p.mat ([76, 75, 84, 32, 68, 69, 82, 73, 86, 69] ++ le 4 e.label ++ info) (p.typ == 4)))

/-- LKT_AGREE: a parent of TYPE 0x10, 0x11 or 0x20 with DERIVE; HKDF with an empty salt over the shared secret `z` and info "LKT AGREE" and LABEL (R438).
(DEDUCED, unsafe: log 53.) -/
def execLktAgree (o : Org) (tx : Nat) (attr : List Nat) (method : Nat) (z : List Nat) (s : State) : Out :=
  .next (s.afterHoldup (.agree o tx attr method z) fun s => s.creating o 0x0C04 tx attr 4 fun s e =>
    match s.keyE e.parent with
    | none => (0x0C01, [])
    | some p =>
      let st := if method = 1 then (if p.typ = 0x10 ∨ p.typ = 0x11 then s.useStatus e.parent none 2 0 4 else 0x0C05)
        else if method = 2 then (if p.typ = 0x20 then s.useStatus e.parent none 3 0 4 else 0x0C05)
        else stRange
      (st, s.derivedMat e (hmac256 [] z) ([76, 75, 84, 32, 65, 71, 82, 69, 69] ++ le 4 e.label) false))

/-! ### Invalidation (R445-R448) -/

/-- An entry is invalidated in a transaction; edge T + 1 is the cutoff (R445). During hold-up the transaction waits (R629). -/
def State.invalidate (s : State) (handle : Nat) (tx : Option Nat) (org : Option Org) : State :=
  match s.keyE handle with
  | none => s
  | some e =>
    if s.holdup then s.mLkt fun x => { x with waiting := x.waiting ++ [.drop handle] }
    else
    let s := s.lktTx [(keyIdx handle, some { e with st := 2 })] tx handle
    s.mLkt fun x => { x with cuts := x.cuts ++ [{ handle := handle, edge := s.now + 1, k := x.c, org := org }] }

/-- LKT_INVALIDATE (R445, R448, R460): ST_PENDING, and ST_OK at the cutoff. -/
def execLktInvalidate (o : Org) (tx handle : Nat) (s : State) : Out :=
  .next (s.afterHoldup (.invalidate o tx handle) fun s => s.verb o 0x0C05 rAny fun s x role =>
    match s.keyE handle with
    | none => s.complete o x 0x0C05 0x0C01 true []
    | some e =>
      if e.use.testBit 9 then s.complete o x 0x0C05 0x0C07 true []
      else if e.st = 2 then s.complete o x 0x0C05 0x0C03 true []
      else if !e.admRoles.testBit role then s.complete o x 0x0C05 stRole true []
      else (s.invalidate handle (some tx) (some o)).complete o x 0x0C05 stPending false [])

/-- INVALIDATION_CUTOFF (R445, R449, R528): uses fail from here on; event 0x0C02; the subtree waits for the sweep. -/
def execInvalidationCutoff (handle : Nat) (s : State) : Out :=
  match s.lkt.cuts.find? fun c => c.handle == handle with
  | none => .next s
  | some c =>
    if s.now < c.edge then .next s
    else
      let s := s.mLkt fun x => { x with cuts := x.cuts.filter fun d => d.handle != handle, sweep := x.sweep ++ [handle] }
      let s := s.evShared 4 0 0x0C02 (le 4 handle ++ le 4 0 ++ le 8 c.edge)
      match c.org with
      | some o => .next (s.complete o (s.charge.getD o.half) 0x0C05 stOk true (le 8 c.edge ++ le 8 c.k))
      | none => .next s

/-- ORPHANED_OPERATION_ABORT (R446): the output up to the boundary is discarded. -/
def execOrphanedOperationAbort (o : Org) (s : State) : Out :=
  match s.lkt.ops.find? fun p => sameCmd p.org o with
  | none => .next s
  | some p =>
    if s.keyUsable p.handle then .next s
    else .next ((s.mLkt fun x => { x with ops := x.ops.filter fun q => !sameCmd q.org o }).complete p.org p.exec 0x0C0B stKeyOrphaned true [])

/-- LOCKET_SWEEP (R447, R459): descendants are orphaned, zeroized and emptied, deepest first, then the invalidated entries. -/
def execLocketSweep (s : State) : Out :=
  .next (s.mLkt fun x =>
    let gone := x.sweep.flatMap fun h => s.descend 7 h ++ [h]
    { x with ents := x.ents.filter (fun e => match e.2 with | some k => !decide (k.handle ∈ gone) | none => false), sweep := [] })

/-- JOURNAL_RECOVERY (R451), once at a start of the shared I/O domain: a slot of k = C in state PREPARED is written again; later ones are discarded; at POR and
RESET_N VOLATILE entries are erased and entry 4 is regenerated; what a sweep left is taken up again. -/
def execJournalRecovery (s : State) : Out :=
  let c := s.lkt.c
  let por := s.lkt.starting == 2
  let todo := [s.lkt.slot0, s.lkt.slot1].filterMap fun j => j.bind fun x => if x.k = c && !x.done then some x.images else none
  let fin (j : Option JSlot) : Option JSlot := j.bind fun x => if c < x.k then none else some { x with done := true }
  if s.lkt.starting = 0 then .next s
  else
    let s := if todo.isEmpty then s else s.srf .lkt .A 0x108 30 30 1
    let twin := s.randomMat 0x02
    .next ((s.drew 32).mLkt fun x =>
      let t := todo.foldl applyImages x.ents
      let t := if por then (t.filter fun e => match e.2 with | some k => !k.use.testBit 8 || k.handle == 0x4004 | none => false).map
          fun e => (e.1, e.2.map fun k => if k.handle = 0x4004 then { k with mat := twin } else k) else t
      let invalid := t.filterMap fun e => e.2.bind fun k => if k.st = 2 then some k.handle else none
      { x with ents := t, slot0 := fin x.slot0, slot1 := fin x.slot1, ops := [], cuts := [], rolls := [], sweep := invalid, waiting := [], starting := 0 })

/-- MATERIAL_TAG_FAULT (R431, R459): the entry is treated as INVALID; event 0x0C01. -/
def execMaterialTagFault (idx : Nat) (s : State) : Out :=
  match s.keyAt idx with
  | none => .next s
  | some e =>
    let s := s.mLkt fun x => { x with ents := put none x.ents idx (some { e with st := 2 }) }
    .next ((s.srf .lkt .A 0x108 29 29 1).evShared 4 2 0x0C01 (le 4 e.handle))

/-! ### Pairing and link keys (R440-R443) -/

/-- BINDING of PS: RID, PORT, KIND (R440). -/
def psBinding (rid port kind : Nat) : Nat := rid % 2 ^ 32 + port * 2 ^ 32 + kind * 2 ^ 40

/-- LKT_PAIR (R440, R441, R443): PS, and its first key, in one transaction; an earlier PS of the same KIND, RID and PORT is invalidated first.
(DESIGN CHOICE, unsafe: log 54.) -/
def execLktPair (o : Org) (tx kind port rid : Nat) (z : List Nat) (s : State) : Out :=
  .next (s.afterHoldup (.pair o tx kind port rid z) fun s => s.verb o 0x0C08 [rInstaller, rVendor, rLegal] fun s x role =>
    let pair := (s.rg .lkt .A 0x14).toNat
    let st := s.useStatus pair none 2 0 4
    if kind ≠ 1 ∧ kind ≠ 2 ∨ 80 ≤ port then s.complete o x 0x0C08 stRange true []
    else if (kind = 1) = (role = rLegal) then s.complete o x 0x0C08 stRole true []
    else if st ≠ stOk then s.complete o x 0x0C08 st true []
    else
      match s.keyE pair with
      | none => s.complete o x 0x0C08 0x0C01 true []
      | some p =>
        if !p.admRoles.testBit role then s.complete o x 0x0C08 stRole true []
        else if 6 ≤ p.depth then s.complete o x 0x0C08 0x0C04 true []
        else if !within (if kind = 1 then 1 else 2) p.dom then s.complete o x 0x0C08 0x0C08 true []
        else if (match s.freeSlot [] with | some i => (s.freeSlot [i]).isNone | none => true) then s.complete o x 0x0C08 0x0C02 true []
        else
          let bind_ := psBinding rid port kind
          let s := match s.psOf fun k => k.binding == bind_ with
            | some e => s.invalidate e.handle none none
            | none => s
          match s.freeSlot [] with
          | none => s.complete o x 0x0C08 0x0C02 true []
          | some i =>
            match s.freeSlot [i] with
            | none => s.complete o x 0x0C08 0x0C02 true []
            | some j =>
              let a := s.takeSlot i
              let b := a.1.takeSlot j
              let dom := if kind = 1 then 1 else 2
              let ps := hkdf256 (hmac256 (s.lkt.module ++ le 4 rid) z) [78, 69, 80, 69, 76, 32, 80, 65, 73, 82] 32
              let key := if kind = 1 then nepelKey ps rid 1 else hkdf256 ps ([77, 69, 84, 69, 82, 32, 72, 69, 65, 68] ++ le 4 rid ++ le 4 0) 32
              let adm := if kind = 1 then p.admRoles else 0x10
              let e1 : KeyE := { handle := a.2, depth := p.depth + 1, origin := 4, parent := pair, typ := 3, dom := dom, eng := 2, use := 0x10, admRoles := adm,
                                 binding := bind_, created := s.now, mat := ps }
              let e2 : KeyE := { handle := b.2, depth := p.depth + 2, origin := 3, parent := a.2, typ := 2, dom := dom, eng := 0x10, use := 0x0C, admRoles := adm,
                                 binding := rid % 2 ^ 32 + (if kind = 1 then 2 ^ 32 else 0), created := s.now, mat := key }
              let s := b.1.lktTx [(i, some e1), (j, some e2)] (some tx) a.2
              let s := if kind = 1 then ((s.mPort .A port fun q => { q with keygen := true }).mPort .B port fun q => { q with keygen := true }).mRem port
                  fun r => { r with link := some (1, key), link2 := none, rollAt := none, dropAt := none } else s
              s.complete o x 0x0C08 stOk true (le 4 a.2 ++ le 4 b.2 ++ le 8 s.lkt.c))

/-- KEYROLL (R112). -/
def keyrollMsg (gen at_ : Nat) : List Nat := [4, gen, 0, 0] ++ le 8 at_

/-- KEYROLL goes out on both of the remote's ports (R442). -/
def State.sendKeyroll (s : State) (p gen at_ : Nat) : State :=
  (s.sendMsg .A p 0x43 (keyrollMsg gen at_)).sendMsg .B p 0x43 (keyrollMsg gen at_)

/-- The status of an asynchronous send to a port of some halves (R128): HELD, not in SERVICE, or none. -/
def State.sendStatus (s : State) (hs : List Half) (p : Nat) : Option Nat :=
  if hs.any fun h => (s.port h p).pstate == 5 then some 0x0402
  else if hs.any fun h => (s.port h p).pstate != 4 then some 0x0401
  else none

/-- LKT_ROLL (R441, R442, R460).
(DESIGN CHOICE, unsafe: log 54.) -/
def execLktRoll (o : Org) (tx port : Nat) (s : State) : Out :=
  .next (s.afterHoldup (.roll o tx port) fun s => s.verb o 0x0C09 [rOperator, rInstaller, rVendor] fun s x _ =>
    match s.remotePs port with
    | none => s.complete o x 0x0C09 0x0C01 true []
    | some ps =>
      match s.linkKey ps.handle with
      | none => s.complete o x 0x0C09 0x0C01 true []
      | some (n, e) =>
        if !s.keyUsable ps.handle then s.complete o x 0x0C09 stKeyOrphaned true []
        else if (look none s.lkt.rolls port).isSome then s.complete o x 0x0C09 0x0C0A true []
        else if (s.freeSlot []).isNone then s.complete o x 0x0C09 0x0C02 true []
        else match s.sendStatus [.A, .B] port with
        | some st => s.complete o x 0x0C09 st true []
        | none =>
          let key := nepelKey ps.mat (ps.binding % 2 ^ 32) (n + 1)
          let r := s.createKey { e with handle := 0, binding := e.binding % 2 ^ 32 + (n + 1) * 2 ^ 32 } 3 key (some tx)
          let at_ := s.now + 400
          let roll : RollS := { n := n + 1, old := e.handle, key := r.2, edge := at_, org := o, exec := x,
                                ids := (s.nextMsg .A port 0x43, s.nextMsg .B port 0x43) }
          let s := r.1.mLkt fun y => { y with rolls := put none y.rolls port (some roll) }
          (s.sendKeyroll port ((n + 1) % 2) at_).complete o x 0x0C09 stPending false (le 8 at_))

/-- Both sides of a remote have acknowledged their KEYROLL (R117, R442). -/
def State.rollAcked (s : State) (p : Nat) (r : RollS) : Bool :=
  decide (r.ids.1 ∈ (look {} (s.port .A p).tx 0x43).acked ∧ r.ids.2 ∈ (look {} (s.port .B p).tx 0x43).acked)

/-- KEYROLL_ACK_DEADLINE (R442): at AT - 20 both sides have acknowledged, or the roll is abandoned.
(DESIGN CHOICE, unsafe: log 54.) -/
def execKeyrollAckDeadline (p : Nat) (s : State) : Out :=
  match look none s.lkt.rolls p with
  | none => .next s
  | some r =>
    if s.now + 20 < r.edge ∨ s.rollAcked p r then .next s
    else
      let s := s.sendKeyroll p (r.n % 2) 0
      let s := (s.mLkt fun y => { y with rolls := put none y.rolls p none }).invalidate r.key none none
      .next (s.complete r.org r.exec 0x0C09 0x0C0A true [])

/-- KEYROLL_SWITCH (R442): the device sends under the new generation. -/
def execKeyrollSwitch (p : Nat) (s : State) : Out :=
  match look none s.lkt.rolls p with
  | none => .next s
  | some r =>
    if s.now < r.edge ∨ !s.rollAcked p r then .next s
    else .next ((s.mPort .A p fun q => { q with keygen := r.n % 2 == 1 }).mPort .B p fun q => { q with keygen := r.n % 2 == 1 })

/-- KEYROLL_RETIRE (R442, R460): the key of the generation before is invalidated and LKT_ROLL completes. -/
def execKeyrollRetire (p : Nat) (s : State) : Out :=
  match look none s.lkt.rolls p with
  | none => .next s
  | some r =>
    if s.now < r.edge + 100 ∨ s.holdup ∨ !s.rollAcked p r then .next s
    else
      let s := (s.mLkt fun y => { y with rolls := put none y.rolls p none }).invalidate r.old none none
      .next (s.complete r.org r.exec 0x0C09 stOk true (le 4 r.n ++ le 4 r.key ++ le 8 s.lkt.c))

/-! ### Attestation (R453-R455) -/

/-- Bytes 0-63 of an entry (R429). -/
def KeyE.head (e : KeyE) : List Nat :=
  le 4 e.handle ++ [e.st, e.depth, e.origin, 0] ++ le 4 e.parent ++ [e.typ, e.dom] ++ le 2 e.eng ++ le 2 e.use ++ [e.useRoles, e.admRoles] ++ le 4 e.label
    ++ le 8 e.binding ++ le 8 e.notAfter ++ le 8 e.created ++ List.replicate 16 0

/-- The 256 bytes of an entry as the store holds it (R429, R431): MATERIAL encrypted under the storage key with bytes 0-63 as additional data. -/
def KeyE.bytes (e : KeyE) : List Nat :=
  let c := gcmCrypt Config.storageKey e.iv (padTo 160 e.mat)
  e.head ++ c ++ padTo 12 e.iv ++ gcmFull Config.storageKey e.iv e.head c ++ [0, 0, 0, 0]

/-- The ancestors of a handle, parent first. -/
def State.ancestors (s : State) : Nat → Nat → List Nat
  | 0, _ => []
  | n + 1, h =>
    match s.keyE h with
    | some e => if e.parent = 0xFFFFFFFF then [] else e.parent :: s.ancestors n e.parent
    | none => []

/-- The body of a provenance statement (R454). -/
def State.provenance (s : State) (pq : Bool) (nonce : List Nat) (e : KeyE) (pubhash : List Nat) : List Nat :=
  let anc := s.ancestors 7 e.handle
  [0x4C, 0x4B, 0x54, 0x50] ++ le 2 1 ++ [1 + 2 * b2n pq, 0] ++ padTo 8 s.lkt.module ++ padTo 32 nonce ++ le 8 s.now ++ leInt 8 s.utc ++ e.head ++ padTo 48 pubhash
    ++ [anc.length, 0, 0, 0, 0, 0, 0, 0] ++ ((anc ++ List.replicate 7 0xFFFFFFFF).take 7).flatMap (le 4) ++ le 4 s.lkt.c

/-- The body of an identity statement (R455). -/
def State.identity (s : State) (pq : Bool) (nonce : List Nat) (meas : List (List Nat)) : List Nat :=
  let h := s.charge.getD .A
  [0x4C, 0x4B, 0x54, 0x49] ++ le 2 1 ++ [1 + 2 * b2n pq, min 16 meas.length] ++ padTo 8 s.lkt.module ++ padTo 32 nonce ++ le 8 s.now ++ leInt 8 s.utc
    ++ le 4 (s.rg .lkt .A 0).toNat ++ le 4 (b2n (s.hf h).twn.cover + 2 * hbit h) ++ List.replicate 8 0 ++ (meas.take 16).flatMap (padTo 64)

/-- The public key of a public entry; none: a private one, whose public key an engine computes. -/
def KeyE.pubKey (e : KeyE) : Option (List Nat) := if e.typ = 0x12 ∨ e.typ = 0x13 then some e.mat else none

/-- PUBHASH of a subject (R454): `given` where its public key is not in the store. -/
def KeyE.pubHash (e : KeyE) (given : List Nat) : List Nat :=
  if e.typ < 0x10 ∨ e.typ = 0x30 then [] else if e.typ = 0x22 then e.mat else match e.pubKey with
    | some k => sha384 k
    | none => given

/-- LKT_ATTEST (R453-R455, R460): the statements MODE selects, each with its signatures after it, as the engines give them in `sigs`. -/
def execLktAttest (o : Org) (nonce : List Nat) (subject : Nat) (pubhash sigs : List Nat) (s : State) : Out :=
  .next (s.verb o 0x0C0A rAny fun s x _ =>
    let cfg := s.rg .lkt .A 0x20
    let mode := fld cfg 31 30
    let pq := bitAt cfg 29
    let sub := if mode = 3 then (s.rg .lkt .A 0).toNat else subject
    let n := 96 + if pq then 3309 else 0
    let idSt := s.useStatus (s.rg .lkt .A 0).toNat none 8 0 2
    let idSt := if idSt = stOk ∧ pq then s.useStatus (s.rg .lkt .A 4).toNat none 8 0 2 else idSt
    let idBody := if mode = 1 then [] else s.identity pq nonce (s.upd.meas.map (·.2))
    if mode ≠ 1 ∧ idSt ≠ stOk then s.complete o x 0x0C0A idSt true []
    else if mode = 2 then s.complete o x 0x0C0A stOk true (idBody ++ padTo n sigs)
    else
      match s.keyE sub with
      | none => s.complete o x 0x0C0A (if sub = 0xFFFFFFFF then stRange else 0x0C01) true []
      | some e =>
        let prov := s.provenance pq nonce e (e.pubHash pubhash)
        s.complete o x 0x0C0A stOk true (if mode = 1 then prov ++ padTo n sigs else idBody ++ padTo n sigs ++ prov ++ padTo n (sigs.drop n)))

/-! ### Other verbs (R452, R460) -/

/-- LKT_INFO (R460). -/
def execLktInfo (o : Org) (handle : Nat) (s : State) : Out :=
  .next (s.verb o 0x0C06 rNotPublic fun s x _ =>
    match if handle.testBit 31 then s.keyAt (keyIdx handle) else s.keyE handle with
    | some e => s.complete o x 0x0C06 stOk true (e.head ++ le 2 (s.descend 7 e.handle).length)
    | none => s.complete o x 0x0C06 0x0C01 true [])

/-- LKT_PUBLIC (R460). -/
def execLktPublic (o : Org) (handle : Nat) (pub : List Nat) (s : State) : Out :=
  .next (s.verb o 0x0C07 rNotPublic fun s x _ =>
    match s.keyE handle with
    | some e => if e.typ < 0x10 ∨ e.typ = 0x30 then s.complete o x 0x0C07 0x0C05 true [] else s.complete o x 0x0C07 stOk true (e.pubKey.getD pub)
    | none => s.complete o x 0x0C07 0x0C01 true [])

/-- The engine and usage bits an OP of LKT_OP needs (R460). -/
def opNeeds : Nat → Option (Nat × Nat)
  | 1 => some (0, 0)
  | 2 => some (0, 1)
  | 3 => some (0, 2)
  | 4 => some (1, 2)
  | 5 => some (2, 2)
  | 6 => some (2, 3)
  | 7 => some (3, 2)
  | 8 => some (3, 3)
  | 9 => some (0, 5)
  | _ => none

/-- KW may take the subject's material out of Locket (R433, R460): it is there, usable and has EXPORT_WRAPPED. -/
def State.exportStatus (s : State) (subject : Nat) : Nat :=
  match s.keyE subject with
  | none => 0x0C01
  | some e =>
    if e.st = 2 ∧ !s.beforeCutoff subject then 0x0C03
    else if !s.keyUsable subject then stKeyOrphaned
    else if e.use.testBit 7 then stOk else 0x0C05

/-- What an OP of LKT_OP yields (R432, R460); none: the tag of a GCM text does not verify. `given`: what the ECC and PQC engines and the hashes without a key yield.
(DEDUCED, unsafe: log 53.) -/
def State.opResult (s : State) (handle op subject : Nat) (iv data given : List Nat) : Option (List Nat) :=
  match s.keyE handle with
  | none => some given
  | some e =>
    match op with
    | 1 => let c := gcmCrypt e.mat (padTo 12 iv) data; some (c ++ gcmFull e.mat (padTo 12 iv) [] c)
    | 2 =>
      let c := data.take (data.length - 16)
      if gcmFull e.mat (padTo 12 iv) [] c = data.drop (data.length - 16) then some (gcmCrypt e.mat (padTo 12 iv) c) else none
    | 3 => some (cmac e.mat data)
    | 4 => some (if e.typ = 4 then hmac384 e.mat data else hmac256 e.mat data)
    | 9 => some (kwWrap e.mat (((s.keyE subject).map (·.mat)).getD []))
    | _ => some given

/-- LKT_OP (R430, R431, R432, R435, R446, R460): a long one goes on past this tick.
(DESIGN CHOICE, safe: log 6. DEDUCED, unsafe: log 53.) -/
def execLktOp (o : Org) (handle op subject : Nat) (long : Bool) (iv data given : List Nat) (s : State) : Out :=
  .next (s.verb o 0x0C0B rAny fun s x role =>
    match opNeeds op with
    | none => s.complete o x 0x0C0B stRange true []
    | some (g, u) =>
      let st := if handle = 0xFFFFFFFF ∧ op = 4 then stOk else s.useStatus handle (some role) g 0 u
      let st := if st = stOk ∧ op = 9 then s.exportStatus subject else st
      if 1048576 < data.length then s.complete o x 0x0C0B stRange true []
      else if st ≠ stOk then s.complete o x 0x0C0B st true []
      else match s.opResult handle op subject iv data given with
      | none => s.complete o x 0x0C0B 0x0C09 true []
      | some r =>
        if long then
          s.mLkt fun y => { y with ops := y.ops ++ [{ org := o, exec := x, handle := handle, start := s.now, size := data.length, result := r }] }
        else s.complete o x 0x0C0B stOk true r)

/-- A long operation completes once its input has ended: at the edge after its start in this model. One whose key has been withdrawn since completes only if its input
ended before a boundary of 4 KiB, which a free value says where its input is longer; else ORPHANED_OPERATION_ABORT ends it (R446). -/
def State.opsDone (s : State) (h : Half) : State :=
  let fin := s.lkt.ops.filter fun p => p.exec == h && decide (p.start < s.tick h)
  fin.foldl (fun s p =>
    if p.handle = 0xFFFFFFFF ∨ s.keyUsable p.handle = true ∨ p.size ≤ 4096 ∨ s.freeVal 0 % 2 = 1 then
      ((s.drew 1).mLkt fun y => { y with ops := y.ops.filter fun q => !sameCmd q.org p.org }).complete p.org p.exec 0x0C0B stOk true p.result
    else s.drew 1) s

/-- LKT_TXQUERY (R452, R460). -/
def execLktTxquery (o : Org) (tx : Nat) (s : State) : Out :=
  .next (s.verb o 0x0C0C rNotPublic fun s x _ =>
    match s.lkt.txs.reverse.find? fun e => e.1 == tx with
    | some e => s.complete o x 0x0C0C stOk true (le 8 e.2.1 ++ le 4 e.2.2)
    | none => s.complete o x 0x0C0C 0x0C0B true [])

/-- LKT_STATUS (R459). -/
def State.lktStatus (s : State) : Nat :=
  b2n (!s.lkt.sweep.isEmpty) * 2 ^ 31 + fld (s.rg .lkt .A 0x108) 30 29 * 2 ^ 29
    + (16368 - (s.lkt.ents.filter fun e => decide (16 ≤ e.1)).length)

/-- A function of the function map names a usable key with its TYPE, engines, USAGE and DOMAIN (R456, R457). -/
def State.functionOk (s : State) (off : Nat) (w : Word) : Bool :=
  let row : Nat × Nat × Nat × Nat := match off with
    | 0x00 => (0x11, 0x100, 0x04, 1)
    | 0x04 => (0x21, 0x100, 0x04, 1)
    | 0x08 => (0x10, 0x200, 0x04, 2)
    | 0x0C => (0x21, 0x200, 0x04, 2)
    | 0x10 => (0x01, 0x040, 0x00, 2)
    | 0x14 => (0x10, 0x004, 0x10, 0)
    | 0x18 => (0x11, 0x024, 0x00, 0)
    | _ => (0x10, 0x024, 0x00, 0)
  w == 0xFFFFFFFF || (s.keyUsable w.toNat && match s.keyE w.toNat with
    | some e => !s.expired e && e.typ == row.1 && within row.2.1 e.eng && within row.2.2.1 e.use && within row.2.2.2 e.dom
    | none => false)

end Sys2Proof.Machine
end

