-- ==== Sys2Proof/Machine/Metrology.lean ====
section
/-!
DEFINITION. The metrology island (spec 11): heads, intakes, energy, dual integration, pulses, self-checks, tamper, its verbs. A source is named by
its byte of R364.
-/

namespace Sys2Proof.Machine

/-- A word of the MET_ block in force. -/
def State.metw (s : State) (off : Nat) : Word := s.rg .met .A off

/-- Change the island. -/
def State.mMet (s : State) (f : MetS → MetS) : State := { s with met := f s.met }

/-- The meter of a source, and its change. -/
def State.meter (s : State) (src : Nat) : MeterS := look {} s.met.src src
def State.mMeter (s : State) (src : Nat) (f : MeterS → MeterS) : State := s.mMet fun x => { x with src := Machine.upd {} x.src src f }

/-- Change the billing engine and its saved part. -/
def State.mBil (s : State) (f : BilS → BilS) : State := { s with bil := f s.bil }
def State.mCore (s : State) (f : BilCore → BilCore) : State := s.mBil fun b => { b with core := f b.core }

/-- A source is enabled (R386, R388). -/
def State.srcEn (s : State) (src : Nat) : Bool :=
  if src < 0x30 then bitAt (s.metw (0x10 * src)) 31
  else if src = 0x40 ∨ src = 0x41 then bitAt (s.metw (0x500 + 0x10 * (src - 0x40))) 31 else false

/-- The quantities of a source (R364). -/
def qtysOf (src : Nat) : List Nat := if src < 0x30 then [1, 2, 3, 4] else [1, 2]

/-- METER_ERR of a source (R368, R377, R380, R413). -/
def State.meterErr (s : State) (src : Nat) : Bool :=
  let m := s.meter src
  m.headErr || m.dualErr || m.stuck || (s.met.adcFault && decide (0x40 ≤ src)) || s.met.paramFault || s.bil.dead
    || (match s.met.restart with | some t => decide (s.now < t + 20000) | none => false)

/-- The offset of a source's status word (R392). -/
def ostatOff (src : Nat) : Nat := if src < 0x30 then 0x800 + 4 * src else 0x8C0 + 4 * (src - 0x40)

/-! ### Energy into the registers (R372, R374, R378, R396) -/

/-- The pulse stages that count a quantity take whole mWh (R378).
(DESIGN CHOICE, unsafe: log 125.) -/
def pulseStep (src qty n : Nat) (s : State) (j : Nat) : State :=
  let w := s.metw (0x600 + 8 * j)
  if !bitAt w 30 && fld w 15 0 == src * 256 + qty then
    let per := max 1 (s.metw (0x604 + 8 * j)).toNat
    let p := look {} s.met.pulses j
    let a := p.acc + n
    let pend := p.pend + a / per
    let s := s.mMet fun x => { x with pulses := put {} x.pulses j { p with acc := a % per, pend := min 65535 pend } }
    if 65535 < pend then (s.srf .met .A (ostatOff src) (8 + j) (8 + j) 1).metLog 0x09 j none none else s
  else s

/-- Whole mWh of a quantity move into TOTAL and the RATE register in force, into the open interval of an intake, and to the pulse stages. -/
def State.moveMwh (s : State) (src qty n : Nat) : State :=
  if n = 0 then s
  else
    let r := s.bil.rate
    let s := if s.bil.dead then s
      else s.mCore fun c => { c with regs := Machine.upd {} c.regs (src * 256 + qty) fun g =>
        { total := g.total + n, rates := Machine.upd 0 g.rates r (· + n) } }
    let s := if src < 0x40 then s
      else s.mCore fun c => { c with ints := Machine.upd {} c.ints (src - 0x40) fun i =>
        if qty = 1 then { i with energy := i.energy + n } else { i with export_ := i.export_ + n } }
    (List.range 8).foldl (pulseStep src qty n) s

/-- Add to a fine accumulator; every whole mWh of `unit` moves on in the same tick (R372, R374). -/
def State.addFine (s : State) (src qty amt unit : Nat) : State :=
  let m := s.meter src
  let v := look 0 m.q qty + amt
  (s.mMeter src fun m => { m with q := put 0 m.q qty (v % unit), inc := Machine.upd 0 m.inc qty (· + amt) }).moveMwh src qty (v / unit)

/-- A session on output `k` and an intake's interval take note of METER_ERR (R405, R415). -/
def State.noteErr (s : State) (src : Nat) : State :=
  if !s.meterErr src then s
  else if src < 0x30 then
    s.mCore fun c => { c with perErr := true, sess := Machine.upd none c.sess src fun a => a.map fun x => { x with err := true } }
  else s.mCore fun c => { c with perErr := true, ints := Machine.upd {} c.ints (src - 0x40) fun i => { i with err := true } }

/-! ### DC heads (R365-R373) -/

/-- Linear interpolation of R371 over samples, newest first; a delay in 1/1,024 sample. -/
def delayed (xs : List Int) (d : Nat) : Int :=
  let x (i : Nat) : Int := xs.getD i 0
  1024 * x (d / 1024) + (d % 1024 : Nat) * (x (d / 1024 + 1) - x (d / 1024))

/-- The DC power of a tick (R372): (p, pc, ir). -/
def dcPower (v i : Int) (rCable : Nat) : Int × Int × Int :=
  let p := roundDiv (v * i) (2 ^ 20)
  let ir := roundDiv i 1024
  let lss := roundDiv (ir * ir * rCable) 400000
  (p, if 0 ≤ p then max 0 (p - lss) else p - lss, ir)

/-- One sample of output `k` is integrated (R371-R373); the corrected power of an accepted one is kept for a gap (R367). -/
def State.integrate (s : State) (k : Nat) (acc : Bool) (v i : Int) : State :=
  let w0 := s.metw (0x10 * k)
  let w1 := s.metw (0x10 * k + 4)
  let hs := (v, i) :: (s.meter k).hist
  let d := dcPower (delayed (hs.map (·.1)) (fld w0 27 16)) (delayed (hs.map (·.2)) (fld w0 11 0)) (fld w1 31 16)
  let idle := decide (d.2.2.natAbs < 2 * fld w1 15 0)
  let s := s.mMeter k fun m => { m with hist := hs.take 3, noload := idle, pc := if acc then d.2.1.natAbs else m.pc, power := roundDiv d.2.1 10000,
                                        recv := if idle then m.recv else decide (d.1 < 0) }
  let s := s.noteErr k
  let u := 720000000000
  if idle then s
  else if 0 ≤ d.1 then (s.addFine k 3 d.1.toNat u).addFine k 1 d.2.1.toNat u
  else (s.addFine k 4 (-d.1).toNat u).addFine k 2 (-d.2.1).toNat u

/-- A session's sum of gap bounds (R367, R415). -/
def State.noteGap (s : State) (k bound : Nat) : State :=
  s.mCore fun c => { c with sess := Machine.upd none c.sess k fun a => a.map fun x => { x with gap := true, gapBound := x.gapBound + bound } }

/-- The gap of output `k` opens (R367). -/
def State.openGap (s : State) (k : Nat) : State :=
  let n := s.met.evlog.count
  let s1 := s.metLog 0x01 k (some 0) (some (0, s.freeVal 2))
  (s1.mMeter k fun m => { m with gap := some { num := n, start := s.now, pc := m.pc, halted := s.noService } }).bump .met .A (0xA04 + 0x10 * k) 1

/-- The gap closes at the next accepted sample (R367): its record takes the duration and the bound in mWh, rounded up. -/
def State.closeGap (s : State) (k : Nat) : State :=
  match (s.meter k).gap with
  | none => s
  | some g =>
    let dur := if g.halted then min 520 (s.now - g.start) else s.now - g.start
    let bound := (g.pc * dur + 719999999999) / 720000000000
    let s := s.mMet fun x => { x with evlog := { x.evlog with recs := x.evlog.recs.map fun r =>
      if r.num = g.num ∧ r.typ = 0x01 then { r with detail := min 0xFFFF dur, a := bound % 2 ^ 32 } else r } }
    (s.mMeter k fun m => { m with gap := none }).noteGap k bound

/-- An accepted sample that marks the meter (R368). -/
def headBad (hstat : Nat) : Bool :=
  !hstat.testBit 0 || !hstat.testBit 1 || hstat.testBit 2 || hstat.testBit 3 || hstat.testBit 4

/-- The forwarded copies of this tick's sequence for an output, in the order they came (R14, R366). -/
def State.meterCopies (s : State) (k : Nat) : List MetCopy := (look [] s.met.copies k).filter fun c => c.seq == s.now % 2 ^ 16

/-- A copy's tag verifies with the key of the bound head (R14, R99, R366): a frame of a header block with AUTH set. -/
def State.copyOk (s : State) (k : Nat) (c : MetCopy) : Bool :=
  (numAt c.bytes 1 1).testBit 0 && tagGood (s.headKey (s.metw (0x10 * k + 8)).toNat) (ivFor true c.side s.now (32 + k) 0x23 0) c.bytes

/-- METERING_SAMPLE_CLOSE (R14, R365-R368, R372, R373, R378, R393, R396): 30 us of the tick for output `k`: the first copy that verifies, a substitute, or a
gap. The sample of a tick is closed once.
(DESIGN CHOICE, unsafe: log 46.) -/
def execMeteringSampleClose (k : Nat) (s : State) : Out :=
  if !s.srcEn k || decide (0x30 ≤ k) || s.met.battery != 0 || (s.meter k).closed == some s.now then .next s
  else
    let mine := s.meterCopies k
    let s := s.mMeter k fun m => { m with closed := some s.now }
    let s := { s with met := { s.met with copies := put [] s.met.copies k [] } }
    let s := s.bump .met .A (0xA08 + 0x10 * k) (mine.filter fun c => !s.copyOk k c).length
    match mine.find? (s.copyOk k) with
    | some c =>
      let s := s.closeGap k
      let bad := headBad (numAt c.bytes 8 1)
      let v := intAt c.bytes 10 3
      let i := intAt c.bytes 13 3
      let s := s.mMeter k fun m =>
        let good := if bad then 0 else m.good + 1
        { m with v := v, i := i, subst := 0, lastTick := s.now, good := min 20000 good,
                 headErr := bad || (m.headErr && decide (good < 20000)) }
      .next (s.integrate k true v i)
    | none =>
      let m := s.meter k
      let s := s.mMeter k fun m => { m with subst := m.subst + 1 }
      if m.subst < 3 then .next ((s.bump .met .A (0xA00 + 0x10 * k) 1).integrate k false m.v m.i)
      else if m.gap.isNone then .next (s.openGap k)
      else .next s

/-! ### AC intake (R369-R371, R374, R380) -/

/-- A calibrated sample (R370). -/
def calibrate (x : Int) (gain : Nat) (offset : Int) : Int := roundDiv (x * gain) (2 ^ 40) + offset

/-- One channel's 16 calibrated samples from its raw ones and the three before (R370, R371). -/
def channelOut (s : State) (c : Nat) (prev raw : List Int) : List Int :=
  let d := fld (s.metw (0x400 + 0x10 * c)) 11 0
  let g := (s.metw (0x404 + 0x10 * c)).toNat
  let o := signed 32 (s.metw (0x408 + 0x10 * c)).toNat
  let all := prev.reverse ++ raw
  (List.range 16).map fun n => calibrate (delayed (all.take (prev.length + n + 1)).reverse d) g o

/-- The stuck-modulator count of a channel after its raw samples (R380). -/
def stuckRun (p : Int × Nat) (raw : List Int) : Int × Nat :=
  raw.foldl (fun q x => (x, if x = q.1 ∨ x = 2 ^ 23 - 1 ∨ x = -(2 ^ 23) then q.2 + 1 else 1)) p

/-- The history, newest first, padded to three. -/
def lastThree (prev raw : List Int) : List Int := (raw.reverse ++ prev).take 3

/-- AC_BLOCK (R369-R371, R374, R378, R380, R396): 16 raw samples of each of the seven channels of intake `i`. -/
def execAcBlock (i : Nat) (raw : List (List Int)) (s : State) : Out :=
  let src := 0x40 + i
  if !s.srcEn src || s.met.battery != 0 then .next s
  else
    let m := s.meter src
    let prev (c : Nat) : List Int := let l := look [] m.chan c; l ++ List.replicate (3 - l.length) 0
    let rw (c : Nat) : List Int := ((raw.getD c []) ++ List.replicate 16 0).take 16
    let ys := (List.range 7).map fun c => channelOut s (7 * i + c) (prev c) (rw c)
    let y (c n : Nat) : Int := (ys.getD c []).getD n 0
    let sum := ((List.range 16).map fun n => y 0 n * y 3 n + y 1 n * y 4 n + y 2 n * y 5 n).sum
    let absI (c : Nat) : Nat := ((List.range 16).map fun n => (y c n).natAbs).sum
    let nl := 160 * fld (s.metw (0x500 + 0x10 * i)) 15 0
    let idle := decide (absI 3 < nl) && decide (absI 4 < nl) && decide (absI 5 < nl)
    let runs := (List.range 7).map fun c => stuckRun (look (0, 0) m.stuckN c) (rw c)
    let stuck := runs.any fun r => decide (16000 ≤ r.2)
    let s := s.mMeter src fun m =>
      { m with chan := (List.range 7).foldl (fun t c => put [] t c (lastThree (prev c) (rw c))) m.chan,
               stuckN := ((List.range 7).zip runs).foldl (fun t e => put (0, 0) t e.1 e.2) m.stuckN, stuck := stuck, noload := idle,
               power := if idle then 0 else roundDiv sum 16000, recv := if idle then m.recv else decide (sum < 0), lastTick := s.now }
    let s := if stuck && !m.stuck then s.metLog 0x03 src none none else s
    let s := s.noteErr src
    let u := 57600000000
    .next (if idle || sum == 0 then s
      else if 0 < sum then s.addFine src 1 sum.toNat u else s.addFine src 2 (-sum).toNat u)

/-! ### Dual integration and self-checks (R376, R377, R380) -/

/-- DUAL_INTEGRATION_COMPARE (R376, R377, R393): `inc2` are path 2's increments of the past second for the quantities of the source in order.
(DESIGN CHOICE, safe: log 124.) -/
def execDualIntegrationCompare (src : Nat) (inc2 : List Nat) (s : State) : Out :=
  if !s.srcEn src || s.now % 20000 != 0 then .next s
  else
    let m := s.meter src
    let skip := match s.met.restart with | some t => decide (s.now < t + 20000) | none => false
    let diff := ((qtysOf src).zip (inc2 ++ List.replicate 4 0)).filter fun e => look 0 m.inc e.1 != e.2
    let clear (s : State) : State := s.mMeter src fun m => { m with inc := [] }
    if skip then .next (clear s)
    else if diff.isEmpty then
      .next (clear (s.mMeter src fun m => { m with dualOk := min 10 (m.dualOk + 1), dualErr := m.dualErr && decide (m.dualOk + 1 < 10) }))
    else
      let s := diff.foldl (fun s e => s.metLog 0x02 src none (some (look 0 m.inc e.1, e.2))) s
      let s := if src < 0x30 then s.bump .met .A (0xA0C + 0x10 * src) 1 else s
      .next ((clear (s.mMeter src fun m => { m with dualOk := 0, dualErr := true })).noteErr src)

/-- A failed self-check raises an event record once (R380). -/
def checkEv (s : State) (was bad : Bool) : State := if bad && !was then s.metLog 0x03 0 none none else s

/-- ADC_REFERENCE_CHECK (R380).
(DESIGN CHOICE, safe: log 124.) -/
def execAdcReferenceCheck (ok : Bool) (s : State) : Out :=
  .next ((checkEv s s.met.adcFault (!ok)).mMet fun x => { x with adcFault := !ok })

/-- SEALED_PARAMETER_CHECK (R380).
(DESIGN CHOICE, safe: log 124.) -/
def execSealedParameterCheck (ok : Bool) (s : State) : Out :=
  .next ((checkEv s s.met.paramFault (!ok)).mMet fun x => { x with paramFault := !ok })

/-- The island processor restarts (R380, R419): METER_ERR on every source until 1 s after; the display shows the check value. -/
def State.islandCpuRestart (s : State) : State :=
  (((s.metLog 0x03 0 none none).mMet fun x => { x with restart := some s.now }).mBil fun b => { b with ldsp := { b.ldsp with chk := s.now + 200000 } }).partStart 3

/-- ISLAND_FIRMWARE_CHECK (R380).
(DESIGN CHOICE, safe: log 124.) -/
def execIslandFirmwareCheck (ok : Bool) (s : State) : Out := .next (if ok then s else s.islandCpuRestart)

/-- ISLAND_WATCHDOG_EXPIRY (R380). -/
def execIslandWatchdogExpiry (s : State) : Out := .next s.islandCpuRestart

/-! ### Pulse outputs (R378, R379) -/

/-- PULSE_EMIT (R378): pulses of WIDTH ms, at least WIDTH ms apart. -/
def execPulseEmit (n : Nat) (s : State) : Out :=
  let w := s.metw (0x600 + 8 * n)
  let p := look {} s.met.pulses n
  let due := match p.last with | some t => decide (t + 40 * fld w 23 16 ≤ s.now) | none => true
  if bitAt w 31 && !bitAt w 30 && decide (0 < p.pend) && due then
    .next (s.mMet fun x => { x with pulses := put {} x.pulses n { p with pend := p.pend - 1, last := some s.now } })
  else .next s

/-- TEST_PULSE_OUTPUT (R379): one pulse per second. -/
def execTestPulseOutput (n : Nat) (s : State) : Out :=
  let w := s.metw (0x600 + 8 * n)
  let p := look {} s.met.pulses n
  let due := match p.last with | some t => decide (t + 20000 ≤ s.now) | none => true
  if bitAt w 31 && bitAt w 30 && due then
    .next (s.mMet fun x => { x with pulses := put {} x.pulses n { p with last := some s.now } })
  else .next s

/-! ### Intake supervision, battery operation, tamper (R381-R383) -/

/-- The window of a condition (R381). -/
def condStep (i c : Nat) (holds : Bool) (s : State) : State :=
  let x := look {} s.met.intakes i
  let set := decide (c ∈ x.conds)
  let n := if holds = set then 0 else look 0 x.runs c + 1
  let put' (s : State) (y : IntakeS) : State := s.mMet fun m => { m with intakes := put {} m.intakes i y }
  if 10 ≤ n then
    let y := { x with conds := if set then x.conds.filter (· ≠ c) else x.conds ++ [c], runs := put 0 x.runs c 0 }
    (put' s y).metLog (if set then 0x05 else 0x04) (0x40 + i) (some c) none
  else put' s { x with runs := put 0 x.runs c n }

/-- INTAKE_SUPERVISION (R381, R382): the RMS values of a window of intake `i`.
(DESIGN CHOICE, unsafe: log 50.) -/
def execIntakeSupervision (i : Nat) (r : IntakeRms) (s : State) : Out :=
  if !s.srcEn (0x40 + i) || s.met.battery == 3 then .next s
  else
    let batt := s.met.battery != 0
    let w := s.metw (0x500 + 0x10 * i)
    let nl := 10 * fld w 15 0
    let vmin := 200 * fld w 30 16
    let s := s.mMeter (0x40 + i) fun m => { m with vrms := if batt then 0 else (r.v1 + r.v2 + r.v3) / 3, irms := (r.i1 + r.i2 + r.i3) / 3 }
    let s := if batt then
        s.mMet fun m => { m with intakes := Machine.upd {} m.intakes i fun x =>
          { x with battWin := x.battWin + 1,
                   battMas := [(0, r.i1), (1, r.i2), (2, r.i3)].foldl (fun t e => Machine.upd 0 t e.1 (· + e.2)) x.battMas } }
      else s
    let imax := max r.i1 (max r.i2 r.i3)
    if imax < nl then .next s
    else
      let cnv (a v : Nat) : Bool := decide (nl ≤ a) && (batt || decide (v < vmin))
      let nm := decide (imax ≤ 10 * r.sum) && decide (100 * r.n < 2 * imax)
      let rev (x : Nat) : Bool := !nm && decide (imax ≤ 2 * r.r) && decide (10 * x < imax)
      let by_ := !nm && !(rev r.r1 || rev r.r2 || rev r.r3) && decide (imax ≤ 10 * r.r)
      .next (condStep i 0 by_ (condStep i 1 (rev r.r3) (condStep i 2 (rev r.r2) (condStep i 3 (rev r.r1) (condStep i 4 nm
        (condStep i 5 (cnv r.i1 r.v1 || cnv r.i2 r.v2 || cnv r.i3 r.v3) s))))))

/-- A DC output whose last accepted sample carried current is closed as a gap (R382). -/
def gapIfLoaded (s : State) (k : Nat) : State :=
  let m := s.meter k
  if s.srcEn k && m.gap.isNone && m.i != 0 then s.openGap k else s

/-- BATTERY_OPERATION_ENTRY (R382, R629, R637): from VBAT at step 4 of the hold-up sequence, or (`s4`) on entry to S4 with a feed present. -/
def execBatteryOperationEntry (s4 : Bool) (s : State) : Out :=
  if s.met.battery ≠ 0 ∨ (s4 = true ∧ s.rf .pwr .A 0x08 31 29 ≠ 4) ∨ (s4 = false ∧ (s.pwr.step ≠ 4 ∨ s.pwr.batt ≠ 1)) then .next s
  else
  let s := (List.range 48).foldl gapIfLoaded s
  let fresh (t : Tab IntakeS) (i : Nat) : Tab IntakeS := Machine.upd {} t i fun y => { y with battRtc := s.rtc, battMas := [], battWin := 0 }
  .next (s.mMet fun x => { x with battery := if s4 then 2 else 1, battStart := s.rtc, intakes := [0, 1].foldl fresh x.intakes })

/-- BATTERY_OPERATION_END (R382): VBAT below 2.7 V, or (`lowV` false) BATT_H hours have passed. -/
def execBatteryOperationEnd (lowV : Bool) (s : State) : Out :=
  if s.met.battery = 1 ∧ (lowV = true ∨ s.met.battStart + 3600 * 32768 * fld (s.metw 0x704) 7 0 ≤ s.rtc) then
    .next (s.mMet fun x => { x with battery := 3 })
  else .next s

/-- One tamper input's sample (R383). -/
def tamperStep (levels : Nat) (s : State) (t : Nat) : State :=
  let x := look {} s.met.tamp t
  let now := levels.testBit t == bitAt (s.metw 0x700) t
  let put' (s : State) (y : TampS) : State := s.mMet fun m => { m with tamp := put {} m.tamp t y }
  if now = x.isOpen then put' s { x with n := 0 }
  else if x.n < 2 then put' s { x with n := x.n + 1 }
  else
    let s := put' s { isOpen := now, n := 0, count := (x.count + 1) % 2 ^ 32 }
    s.metLog (if s.met.warm < 3 then 0x08 else if now then 0x06 else 0x07) t none none

/-- The RTC counts at the edges of a half. -/
def State.rtcByEdge (s : State) : Bool := s.charge.isSome || (s.halfA.twn.booted && !s.halfA.twn.held && s.halfA.tck.tickSet)

/-- TAMPER_SAMPLE (R383): every 10 ms, in every power state; `levels` are the input levels. While no half's edges do it, the RTC counts on by 10 ms,
327 counts or 328.
(DESIGN CHOICE, unsafe: log 106.) -/
def execTamperSample (levels : Nat) (s : State) : Out :=
  let s := if s.rtcByEdge then s else { s with rtc := s.rtc + 327 + s.freeVal 0 % 2 }.drew 1
  .next (((List.range 4).foldl (tamperStep levels) s).mMet fun x => { x with warm := min 3 (x.warm + 1) })

/-! ### Status and verbs (R392, R394) -/

/-- MET_OSTAT or MET_ISTAT of a source (R392). -/
def State.metStat (s : State) (src : Nat) : Nat :=
  let m := s.meter src
  let tamp := ((List.range 4).map fun t => b2n (look {} s.met.tamp t).isOpen * 2 ^ t).sum
  let act := s.srcEn src && s.met.battery == 0
  let inT := decide (0x40 ≤ src)
  b2n act * 2 ^ 31 + b2n (s.meterErr src) * 2 ^ 30 + b2n (!inT && m.gap.isSome) * 2 ^ 29 + b2n m.noload * 2 ^ 28 + b2n m.recv * 2 ^ 27
    + b2n (inT && s.met.battery != 0) * 2 ^ 26
    + (if inT then (((look {} s.met.intakes (src - 0x40)).conds.map fun c => 2 ^ (20 + c)).sum) else 0)
    + tamp * 2 ^ 16 + fld (s.metw (ostatOff src)) 15 8 * 2 ^ 8

/-- MET_INST (R394, R395).
(DESIGN CHOICE, unsafe: log 45.) -/
def execMetInst (o : Org) (src : Nat) (s : State) : Out :=
  .next (s.verb o 0x0A01 rAny fun s x _ =>
    if !s.srcEn src then s.complete o x 0x0A01 0x0A03 true []
    else
      let m := s.meter src
      let vi : List Nat := if src < 0x30 then leInt 4 (roundDiv m.v 5) ++ leInt 4 (roundDiv m.i 2) else le 4 m.vrms ++ le 4 m.irms
      s.complete o x 0x0A01 stOk true (le 8 s.now ++ vi ++ leInt 8 m.power ++ le 4 (s.metStat src)))

/-- MET_LOG_READ (R394). -/
def execMetLogRead (o : Org) (log first count : Nat) (s : State) : Out :=
  .next (s.verb o 0x0A02 rAny fun s x r =>
    if 1 < log ∨ count = 0 ∨ 128 < count then s.complete o x 0x0A02 stRange true []
    else if log = 1 ∧ r = rPublic then s.complete o x 0x0A02 stRole true []
    else s.complete o x 0x0A02 stOk true ((if log = 0 then s.met.mlog else s.met.evlog).read first count))

/-- MET_BATT_READ (R394). -/
def execMetBattRead (o : Org) (i : Nat) (s : State) : Out :=
  .next (s.verb o 0x0A03 [rOperator, rBilling, rInstaller, rLegal] fun s x _ =>
    if 1 < i then s.complete o x 0x0A03 stRange true []
    else
      let b := look {} s.met.intakes i
      s.complete o x 0x0A03 stOk true
        (le 8 b.battRtc ++ le 4 (look 0 b.battMas 0) ++ le 4 (look 0 b.battMas 1) ++ le 4 (look 0 b.battMas 2) ++ le 4 b.battWin))

/-! ### The commit of the MET_ block (R371, R379) -/

/-- A commit of the block has taken effect; `old` reads the words before the edge. An output or channel just enabled starts with samples of 0; a change
of QTY or PLS_MWH clears the stage. -/
def State.metCommit (s : State) (old : Nat → Word) : State :=
  let s := (List.range 48).foldl (fun s k =>
    if !bitAt (old (0x10 * k)) 31 && bitAt (s.metw (0x10 * k)) 31 then s.mMeter k fun m => { m with hist := [], subst := 0 } else s) s
  let s := (List.range 14).foldl (fun s c =>
    if !bitAt (old (0x400 + 0x10 * c)) 31 && bitAt (s.metw (0x400 + 0x10 * c)) 31 then
      s.mMeter (0x40 + c / 7) fun m => { m with chan := put [] m.chan (c % 7) [] } else s) s
  (List.range 8).foldl (fun s n =>
    if fld (old (0x600 + 8 * n)) 15 0 != fld (s.metw (0x600 + 8 * n)) 15 0 || old (0x604 + 8 * n) != s.metw (0x604 + 8 * n) then
      s.mMet fun x => { x with pulses := put {} x.pulses n {} } else s) s

end Sys2Proof.Machine
end

