-- ==== Sys2Proof/Machine/Loops.lean ====
section
/-!
DEFINITION. The loop blocks of the standard function library (spec 06): one block's tick, and the loop verbs.
-/

namespace Sys2Proof.Machine

/-- A signed parameter word, and a 32-bit parameter of two words, low first (R215). -/
def State.paramI (s : State) (h : Half) (l n : Nat) : Int := signed 16 (s.param h l n)
def State.param32 (s : State) (h : Half) (l n : Nat) : Nat := s.param h l n + 2 ^ 16 * s.param h l (n + 1)

/-- Loop block `b` of lane `l` (R212). -/
def State.loopB (s : State) (h : Half) (l b : Nat) : LoopB := look {} (s.hf h).cln.loops (8 * l + b)

/-- Change a loop block. -/
def State.mLoop (s : State) (h : Half) (l b : Nat) (f : LoopB → LoopB) : State :=
  s.mCln h fun c => { c with loops := Machine.upd {} c.loops (8 * l + b) f }

/-- The image of a lane is a library image with block `b` in it (R213). -/
def State.hasBlock (s : State) (h : Half) (l b : Nat) : Bool :=
  bitAt (s.lcfg0 h l) 31 && match s.image h (fld (s.lcfg0 h l) 15 0) with
    | some i => i.progId == 0x4C4F4F50 && decide (8 * (b + 1) ≤ i.resultInit.length)
    | none => false

/-- KIND in force makes block `b` of lane `l` a block (R214): another value acts as 0x0000. -/
def State.kindUsed (s : State) (h : Half) (l b : Nat) : Bool :=
  s.param h l (0x20 * b + 0x1F) == 0x4C50 || s.param h l (0x20 * b + 0x1F) == 0x4C52

/-- A vehicle session is open on output `k` (R228, R230, R351). -/
def State.sessionOpen (s : State) (k : Nat) : Bool :=
  let n := (look {} s.veh k).c.st
  decide (1 ≤ n ∧ n ≤ 9)

/-! ### Signals (R229) -/

/-- A bounded polynomial: sin of an angle in [0, pi/2] scaled by 2^40, by its series. -/
def sinSeries (x : Nat) : Int :=
  let q : Int := 2 ^ 40
  let y : Int := x
  let t1 := y
  let t3 := t1 * y / q * y / q / 6
  let t5 := t3 * y / q * y / q / 20
  let t7 := t5 * y / q * y / q / 42
  let t9 := t7 * y / q * y / q / 72
  let t11 := t9 * y / q * y / q / 110
  let t13 := t11 * y / q * y / q / 156
  t1 - t3 + t5 - t7 + t9 - t11 + t13

/-- sin(2 pi phi / 2^32) scaled by 2^40; 1,727,108,826,179 is pi/2 scaled so. -/
def sinScaled (phi : Nat) : Int :=
  let p := phi % 2 ^ 32
  let q := p % 2 ^ 30
  let up (z : Nat) : Int := sinSeries (z * 1727108826179 / 2 ^ 30)
  match p / 2 ^ 30 with
  | 0 => up q
  | 1 => up (2 ^ 30 - q)
  | 2 => -up q
  | _ => -up (2 ^ 30 - q)

/-- The sine sample: within 2 steps of the exact value (R229), which of those values is free.
(DESIGN CHOICE, safe: log 16.) -/
def sineSample (amp phi free : Nat) : Int :=
  let x := (amp : Int) * sinScaled phi
  let r := roundShift x 40
  let j := r + (free % 5 : Nat) - 2
  if (j * 2 ^ 40 - x).natAbs ≤ 2 * 2 ^ 40 then j else r

/-- Register length and second tap of a PRBS order (R229). -/
def prbsTaps : Nat → Nat × Nat
  | 0 => (7, 6)
  | 1 => (9, 5)
  | 2 => (11, 9)
  | _ => (15, 14)

/-- One shift of the LFSR in Fibonacci form: the register after it, and the bit shifted out.
(DESIGN CHOICE, safe: log 16.) -/
def lfsrShift (order r : Nat) : Nat × Bool :=
  let t := prbsTaps order
  let out := r.testBit (t.1 - 1)
  ((2 * r + b2n (out != r.testBit (t.2 - 1))) % 2 ^ t.1, out)

/-- The register a SEED loads (R229). -/
def lfsrLoad (order seed : Nat) : Nat :=
  let r := seed % 2 ^ (prbsTaps order).1
  if r = 0 then 1 else r

/-! ### One block, one tick (R217-R229) -/

/-- The parameters a block works with in a tick (R215). -/
structure LoopIn where
  g : Int
  slope : Nat
  lo : Int
  hi : Int
  y : Int
  m : Int
  start : Bool
  auto : Bool
  sptrack : Bool
  freeze : Bool
  kp : Int
  kpSh : Nat
  ki : Int
  manual : Int
  ramp : Bool
  ctl : Nat
  amp : Nat
  seqIn : Nat
  mseqIn : Nat
  injSeqIn : Nat
  f0 : Nat
  dinc : Int
  dur : Nat
  seed : Nat
  busy : Bool
  tick : Nat
  free : Nat
  bad : Bool
  deriving DecidableEq, Repr

/-- What a block writes to its entries (R216), and whether one of its sums saturated (R171, R224). -/
structure LoopOut where
  u : Int
  r : Int
  y : Int
  e : Int
  j : Int
  status : Nat
  sat : Bool := false
  deriving DecidableEq, Repr

/-- A ramp step (R220): the value and ARRIVED. -/
def rampStep (r g : Int) (slope : Nat) : Int × Bool :=
  let d := g * 2 ^ 16 - r
  if slope = 0 ∨ d.natAbs ≤ slope then (g * 2 ^ 16, true)
  else (if 0 < d then r + slope else r - slope, false)

/-- An injection ends in this block. -/
def LoopB.stopInj (b : LoopB) (kind tick : Nat) : LoopB :=
  if b.injOn then { b with injOn := false, injEnd := b.injEnd ++ [(kind, tick)] } else b

/-- The private state of a block as a program change or REINIT leaves it (R194, R212): 0, but for the sequence numbers firmware counts and the injection
started last, which ends.
(DESIGN CHOICE, safe: log 116.) -/
def LoopB.renewed (b : LoopB) (tick : Nat) : LoopB :=
  { injEnd := (b.stopInj 1 (tick - 1)).injEnd, injSeq := b.injSeq, seqNext := b.seqNext, mseqNext := b.mseqNext, injNext := b.injNext }

/-- A new INJSEQ in force starts an injection, ending the one under way (R228). -/
def LoopB.takeInj (b : LoopB) (i : LoopIn) : LoopB :=
  if b.injSeq = i.injSeqIn then b
  else
    let b := { b.stopInj 2 (i.tick - 1) with injSeq := i.injSeqIn }
    if i.ctl % 4 = 0 then { b with injEnd := b.injEnd ++ [(0, i.tick)] }
    else { b with injOn := true, injN := 0, injStart := i.tick, phi := 0, lfsr := lfsrLoad (fldN i.ctl 5 4) i.seed, bit := false }

/-- The injected value of the tick, whether the injection is active in it, and the block after it (R228, R229): J, then n + 1; the last of DUR ticks ends it. -/
def LoopB.inject (b : LoopB) (i : LoopIn) : Int × Bool × LoopB :=
  if !b.injOn then (0, false, b)
  else if i.busy then (0, false, b.stopInj 1 (i.tick - 1))
  else
    let done (b : LoopB) : LoopB := if i.dur ≤ b.injN then b.stopInj 0 i.tick else b
    if i.ctl % 4 = 1 then
      let sh := if b.injN % (fldN i.ctl 15 8 + 1) = 0 then lfsrShift (fldN i.ctl 5 4) b.lfsr else (b.lfsr, b.bit)
      (if sh.2 then (i.amp : Int) else -i.amp, true, done { b with lfsr := sh.1, bit := sh.2, injN := b.injN + 1 })
    else
      let j := sineSample i.amp b.phi i.free
      let inc : Int := if i.ctl % 4 = 3 then (i.f0 : Int) + (b.injN : Int) * i.dinc / 2 ^ 16 else i.f0
      (j, true, done { b with phi := (((b.phi : Int) + inc) % 2 ^ 32).toNat, injN := b.injN + 1 })

/-- STATUS of R216. -/
def loopStatus (arrived auto track outClamp inj iClamp xfer stage : Bool) : Nat :=
  b2n arrived + 2 * b2n auto + 4 * b2n track + 8 * b2n outClamp + 16 * b2n inj + 32 * b2n iClamp + 64 * b2n xfer + 128 * b2n stage

/-- The tick of a block under a start condition (R218). -/
def LoopB.startTick (b : LoopB) (i : LoopIn) (stage : Bool) : LoopB × LoopOut :=
  let b := b.stopInj 1 (i.tick - 1)
  let r := i.y * 2 ^ 16
  let u := clampI i.lo i.hi i.m
  let arr := decide (r = i.g * 2 ^ 16)
  ({ b with r := r, i := clampI (i.lo * 2 ^ 15) (i.hi * 2 ^ 15) (i.m * 2 ^ 15), mv := i.m * 2 ^ 16, u := u, unb := i.m, prevMan := true,
            prevAuto := i.auto, arrived := arr, marrived := decide (i.m = i.manual), seq := i.seqIn, mseq := i.mseqIn, track := true,
            atMeas := decide (u = i.m) },
   { u := u, r := i.y, y := i.y, e := sat16 0, j := 0,
     status := loopStatus arr i.auto true (decide (u ≠ i.m)) false false false stage })

/-- The ramp of the tick (R220): on the transfer tick with SPTRACK 1 the error is 0, so the ramp stands at the feedback (R225), as in TRACK (R218).
(DEDUCED, unsafe: log 119.) -/
def LoopB.ramp (b : LoopB) (i : LoopIn) : Int × Bool :=
  if i.sptrack && (!i.auto || (b.prevMan && !i.ramp)) then (i.y * 2 ^ 16, decide (i.y = i.g)) else rampStep b.r i.g i.slope

/-- The tick of a block (R217-R225). -/
def LoopB.tick (b : LoopB) (i : LoopIn) (stage : Bool) : LoopB × LoopOut :=
  let b := b.takeInj i
  if i.start then b.startTick i stage
  else
    let b := if b.prevAuto != i.auto then b.stopInj 1 (i.tick - 1) else b
    let trk := !i.auto && i.sptrack
    let b := if trk && !b.track then b.stopInj 1 (i.tick - 1) else b
    let jr := b.inject i
    let j := jr.1
    let b := jr.2.2
    let onOut := i.ctl.testBit 2
    let rs := b.ramp i
    let e := satTo 16 (roundShift rs.1 16 + (if onOut then 0 else j) - i.y)
    let ms := rampStep b.mv i.manual i.slope
    let kpe := i.kp * e.1 * 2 ^ i.kpSh
    let xfer := b.prevMan && !i.ramp
    let frozen := i.freeze && ((decide (i.hi < b.unb) && decide (0 < e.1)) || (decide (b.unb < i.lo) && decide (e.1 < 0)))
    let i0 := satTo 40 (if xfer then b.u * 2 ^ 15 - kpe else if frozen then b.i else b.i + i.ki * e.1)
    let i1 := clampI (i.lo * 2 ^ 15) (i.hi * 2 ^ 15) i0.1
    let out := if onOut then j else 0
    let sum := satTo 40 (i1 + kpe)
    let useI := i.auto && !i.ramp
    let un := satTo 16
      (if i.ramp then roundShift rs.1 16 + j else if i.auto then roundShift sum.1 15 + out else roundShift ms.1 16 + out)
    let u := clampI i.lo i.hi un.1
    let b := { b with r := rs.1, arrived := rs.2, mv := if i.auto then u * 2 ^ 16 else ms.1, marrived := !i.auto && ms.2,
                      i := if useI then i1 else b.i, u := u, unb := un.1, prevMan := !i.auto, prevAuto := i.auto, seq := i.seqIn,
                      mseq := i.mseqIn, track := trk, atMeas := trk && decide (u = i.m) }
    (b, { u := u, r := sat16 (roundShift rs.1 16), y := i.y, e := e.1, j := j,
          status := loopStatus rs.2 i.auto trk (decide (u ≠ un.1)) jr.2.1 (useI && decide (i1 ≠ i0.1))
            (useI && xfer && decide (i1 ≠ i0.1)) stage,
          sat := e.2 || un.2 || (useI && (i0.2 || sum.2)) })

/-- A converted allocation bound (R215). -/
def convBound (v : Int) (conv csh : Nat) : Int := roundShift (roundShift (v * conv) 15) csh

/-- A lane address lies in the ingest window of a port whose remote reports LOST (R218). -/
def lostAt (s : State) (h : Half) (a : Nat) : Bool :=
  decide (0x2000 ≤ a ∧ a < 0x4800) && (s.ingestWord h ((a - 0x2000) / 128) 0).testBit 2

/-- The inputs of block `b` of lane `l` in this tick (R215, R217, R218, R220). -/
def loopIn (s : State) (h : Half) (l b : Nat) (first : Bool) : LoopIn :=
  let w (n : Nat) : Nat := 0x20 * b + n
  let p (n : Nat) := s.param h l (w n)
  let pi (n : Nat) := s.paramI h l (w n)
  let mode := p 0x09
  let alloc := p 0x10
  let o := look {} (s.laneView h).alloc.outs (alloc % 64)
  let on := alloc.testBit 15
  let lo0 := if on then max (pi 0x0E) (convBound o.imin (p 0x11) (p 0x12 % 16)) else pi 0x0E
  let hi0 := if on then min (pi 0x0F) (convBound o.imax (p 0x11) (p 0x12 % 16)) else pi 0x0F
  let fb := s.laneRead h l (p 0x0C)
  let ub := if p 0x0D = 0 then fb else s.laneRead h l (p 0x0D)
  let stage := mode.testBit 4
  let tgt := if stage then convBound (s.laneStaged h (p 0x1D)) (p 0x11) (p 0x12 % 16) else pi 0x00
  { g := if stage then clampI (pi 0x04) (pi 0x05) (sat16 tgt) else tgt
    slope := s.param32 h l (w 0x02), lo := min lo0 hi0, hi := hi0, y := signed 16 fb.1, m := signed 16 ub.1, bad := fb.2 || ub.2
    start := first || lostAt s h (p 0x0C) || (on && !o.routeOk)
    auto := mode.testBit 0, sptrack := mode.testBit 1, freeze := fldN mode 3 2 == 1
    kp := pi 0x06, kpSh := p 0x07 % 8, ki := pi 0x08, manual := pi 0x0A, ramp := p 0x1F == 0x4C52
    ctl := p 0x13, amp := p 0x14, seqIn := p 0x01, mseqIn := p 0x0B, injSeqIn := p 0x15
    f0 := s.param32 h l (w 0x16), dinc := signed 32 (s.param32 h l (w 0x18)), dur := s.param32 h l (w 0x1A), seed := p 0x1C
    busy := on && s.sessionOpen (alloc % 64), tick := s.tick h, free := s.freeVal 0 }

/-- Block `b` of lane `l` runs for the tick and writes its entries (R213, R214, R216); a saturation sets SAT (R171, R224), a bad address ADDR_ERR (R176). -/
def runBlock (h : Half) (l : Nat) (first : Bool) (s : State) (b : Nat) : State :=
  let kind := s.param h l (0x20 * b + 0x1F)
  if kind = 0 then s
  else if kind ≠ 0x4C50 ∧ kind ≠ 0x4C52 then s.mLane h l fun x => { x with slotErr := true }
  else
    let i := loopIn s h l b first
    let r := (s.loopB h l b).tick i ((s.param h l (0x20 * b + 0x09)).testBit 4)
    let aw := fldN (s.param h l (0x20 * b + 0x09)) 3 2
    let line : List Int := [r.2.u, r.2.r, r.2.y, r.2.e, r.2.j, r.2.status, r.1.seq, r.1.mseq]
    let s := (s.mLoop h l b fun _ => r.1).drew 1
    s.mLane h l fun x =>
      { ((List.range 8).zip line).foldl (fun x e => x.emit (s.slotCnt h l) (8 * b + e.1) (BitVec.ofInt 16 e.2)) x with
        slotErr := x.slotErr || decide (2 ≤ aw), addrErr := x.addrErr || i.bad, sat := x.sat || r.2.sat }

/-! ### Loop verbs (R222-R235) -/

/-- Write a parameter word into the shadow as a loop verb does. -/
def State.loopWrite (s : State) (l n v : Nat) : State :=
  match s.charge with
  | none => s
  | some h =>
    let off := 0x10000 + 0x200 * l + n / 2 * 4
    let s := s.writeShadow .cln off (setFld (s.shadowOf .cln h off) (16 * (n % 2) + 15) (16 * (n % 2)) v)
    s.mCln h fun c => { c with loopWrote := if off ∈ c.loopWrote then c.loopWrote else c.loopWrote ++ [off] }

/-- The CLN_ shadow holds a change that no loop verb wrote (R222). -/
def shadowBusy (s : State) (h : Half) : Bool :=
  s.shadow.any fun e =>
    keyBlk e.1 == blkKey .cln h && (match e.2 with | some w => w != s.rg .cln h (keyOff e.1) | none => false)
      && !decide (keyOff e.1 ∈ (s.hf h).cln.loopWrote)

/-- The block of a loop verb exists: a lane and block number, the block in the image of an enabled lane, a KIND in force that R214 names (R213, R214, R222). -/
def blockThere (s : State) (h : Half) (l b : Nat) : Bool :=
  decide (l < 60 ∧ b < 8) && s.hasBlock h l b && s.kindUsed h l b

/-- The next sequence number: 1 to 65,535, skipping 0 (R222). -/
def seqUp (n : Nat) : Nat := if 65535 ≤ n then 1 else n + 1

/-- A loop command is accepted: it waits, and the CLN_ commit is armed (R222). -/
def State.loopAccept (s : State) (o : Org) (x : Half) (role opc lane blk seq : Nat) (payload : List Nat) : State :=
  let s := s.mCln x fun c => { c with cmds := c.cmds ++ [{ org := o, opc := opc, lane := lane, blk := blk, seq := seq }] }
  (s.arm .cln role none).complete o x opc stPending false payload

/-- CLN_SETPOINT (R222, R234). -/
def execClnSetpoint (o : Org) (lane blk : Nat) (target : Int) (s : State) : Out :=
  .next (s.verb o 0x0510 [rOperator, rInstaller, rVendor] fun s x role =>
    let w := 0x20 * blk
    if 60 ≤ lane || 8 ≤ blk then s.complete o x 0x0510 stRange true []
    else if !blockThere s x lane blk then s.complete o x 0x0510 0x0506 true []
    else if (s.param x lane (w + 9)).testBit 4 || (!(s.param x lane (w + 9)).testBit 0 && (s.param x lane (w + 9)).testBit 1) then
      s.complete o x 0x0510 0x0507 true []
    else if target < s.paramI x lane (w + 4) || s.paramI x lane (w + 5) < target then s.complete o x 0x0510 stRange true []
    else if shadowBusy s x then s.complete o x 0x0510 0x0505 true []
    else
      let n := (s.loopB x lane blk).seqNext
      let s := s.reach.foldl (fun s h => s.mLoop h lane blk fun b => { b with seqNext := seqUp n }) s
      let s := (s.loopWrite lane w (target % 65536).toNat).loopWrite lane (w + 1) n
      s.loopAccept o x role 0x0510 lane blk n (le 2 n ++ [0, 0] ++ le 8 0))

/-- CLN_MANUAL (R222, R223, R234). -/
def execClnManual (o : Org) (lane blk : Nat) (target : Int) (s : State) : Out :=
  .next (s.verb o 0x0512 [rOperator, rInstaller, rVendor] fun s x role =>
    let w := 0x20 * blk
    if 60 ≤ lane || 8 ≤ blk then s.complete o x 0x0512 stRange true []
    else if !blockThere s x lane blk then s.complete o x 0x0512 0x0506 true []
    else if target < s.paramI x lane (w + 4) || s.paramI x lane (w + 5) < target then s.complete o x 0x0512 stRange true []
    else if shadowBusy s x then s.complete o x 0x0512 0x0505 true []
    else
      let n := (s.loopB x lane blk).mseqNext
      let s := s.reach.foldl (fun s h => s.mLoop h lane blk fun b => { b with mseqNext := seqUp n }) s
      let s := (s.loopWrite lane (w + 0x0A) (target % 65536).toNat).loopWrite lane (w + 0x0B) n
      s.loopAccept o x role 0x0512 lane blk n (le 2 n ++ [0, 0] ++ le 8 0))

/-- CLN_MODE (R225, R234): it ends with the commit (R26). -/
def execClnMode (o : Org) (lane blk : Nat) (auto sptrack : Bool) (s : State) : Out :=
  .next (s.verb o 0x0511 [rOperator, rInstaller, rVendor] fun s x role =>
    let w := 0x20 * blk
    if 60 ≤ lane || 8 ≤ blk then s.complete o x 0x0511 stRange true []
    else if !blockThere s x lane blk then s.complete o x 0x0511 0x0506 true []
    else if shadowBusy s x then s.complete o x 0x0511 0x0505 true []
    else
      let off := 0x10000 + 0x200 * lane + (w + 9) / 2 * 4
      let old := fldN (s.shadowOf .cln x off).toNat (16 * ((w + 9) % 2) + 15) (16 * ((w + 9) % 2))
      let s := s.loopWrite lane (w + 9) (old / 4 * 4 + b2n auto + 2 * b2n sptrack)
      (s.arm .cln role (some { org := o, opc := 0x0511 })).complete o x 0x0511 stPending false [])

/-- Write a 32-bit parameter as a loop verb does. -/
def State.loopWrite32 (s : State) (l n v : Nat) : State := (s.loopWrite l n (v % 2 ^ 16)).loopWrite l (n + 1) (v / 2 ^ 16 % 2 ^ 16)

/-- DINC of a chirp: round((F1 - F0) x 2^16 / DUR) (R229), ties away from zero. -/
def chirpInc (f0 f1 dur : Nat) : Int :=
  let d : Int := ((f1 : Int) - f0) * 2 ^ 16
  if 0 ≤ d then (2 * d + dur) / (2 * dur) else -((2 * -d + dur) / (2 * dur))

/-- No increment of a sweep passes 2^31 (R229): it is monotonic in n, so its first and last say it; F1 too is an increment.
(DESIGN CHOICE, safe: log 16.) -/
def sweepOk (f0 f1 dur : Nat) : Bool :=
  decide (f0 ≤ 2 ^ 31 ∧ f1 ≤ 2 ^ 31 ∧ (f0 : Int) + ((dur : Int) - 1) * chirpInc f0 f1 dur / 2 ^ 16 ≤ 2 ^ 31)

/-- The tick at whose edge a commit armed now takes effect (R21). -/
def commitEdge (s : State) (b : Blk) (h : Half) : Nat := s.tick h + if (s.blk b h).snap.isSome then 2 else 1

/-- CLN_INJECT (R228-R230, R234). -/
def execClnInject (o : Org) (lane blk ctl period amp seed f0 f1 dur : Nat) (s : State) : Out :=
  .next (s.verb o 0x0513 [rInstaller, rVendor] fun s x role =>
    let w := 0x20 * blk
    let kind := ctl % 4
    if 60 ≤ lane || 8 ≤ blk then s.complete o x 0x0513 stRange true []
    else if !blockThere s x lane blk then s.complete o x 0x0513 0x0506 true []
    else if 16383 < amp || dur = 0 || (2 ≤ kind && decide (2 ^ 31 < f0)) || (kind = 3 && !sweepOk f0 f1 dur) then
      s.complete o x 0x0513 stRange true []
    else if (s.param x lane (w + 0x10)).testBit 15 && s.sessionOpen (s.param x lane (w + 0x10) % 64) then
      s.complete o x 0x0513 0x0509 true []
    else if shadowBusy s x then s.complete o x 0x0513 0x0505 true []
    else
      let n := (s.loopB x lane blk).injNext
      let s := s.reach.foldl (fun s h => s.mLoop h lane blk fun b => { b with injNext := seqUp n }) s
      let inc : Int := if kind = 3 then chirpInc f0 f1 dur else 0
      let s := ((s.loopWrite lane (w + 0x13) (ctl % 256 + 256 * (period % 256))).loopWrite lane (w + 0x14) amp).loopWrite lane (w + 0x15) n
      let s := ((s.loopWrite32 lane (w + 0x16) f0).loopWrite32 lane (w + 0x18) (inc % 2 ^ 32).toNat).loopWrite32 lane (w + 0x1A) dur
      let s := s.loopWrite lane (w + 0x1C) seed
      s.loopAccept o x role 0x0513 lane blk n (le 2 n ++ [0, 0] ++ le 8 (commitEdge s .cln x)))

/-- The status with which an injection's command ends (R230). -/
def injStatus : Nat → Nat
  | 0 => stOk
  | 2 => stSuperseded
  | _ => 0x0508

/-- INJECTION_END (R228, R230): the oldest injection of the block that has ended completes its command. -/
def execInjectionEnd (h : Half) (lane blk : Nat) (s : State) : Out :=
  match (s.loopB h lane blk).injEnd with
  | [] => .next s
  | (k, t) :: rest =>
    let s1 := s.mLoop h lane blk fun b => { b with injEnd := rest }
    match (s.hf h).cln.cmds.find? (fun c => c.opc == 0x0513 && c.lane == lane && c.blk == blk && c.live) with
    | none => .next s1
    | some c =>
      let s1 := s1.mCln h fun x => { x with cmds := x.cmds.filter fun d => !sameCmd d.org c.org }
      .next (s1.complete c.org h 0x0513 (injStatus k) true (le 2 c.seq ++ [0, 0] ++ le 8 t))

end Sys2Proof.Machine
end

