-- ==== Sys2Proof/Machine/Matrix.lean ====
section
/-!
DEFINITION. The latch, the planner and matrix changes (spec 08, R292-R302, R308, R309). A group is numbered 4c + g.
-/

namespace Sys2Proof.Machine

/-! ### Contactors -/

/-- CNP_CTR of contactor `n` (R295). -/
def State.ctr (s : State) (h : Half) (n : Nat) : Word := s.rg .cnp h (0x5000 + 4 * n)

/-- The enabled contactor that joins a group to output `k` with its pole wired (R295, R296). -/
def State.ctrFor (s : State) (h : Half) (gid k : Nat) : Option Nat :=
  (List.range 512).find? fun n =>
    let w := s.ctr h n
    bitAt w 31 && fld w 20 16 == gid / 4 && fld w 5 0 == k && bitAt w (24 + gid % 4)

/-- Pole `g` of contactor `n` fed back closed; marked BAD. -/
def State.poleFb (s : State) (h : Half) (n g : Nat) : Bool := bitAt (s.ctr h n) (12 + g)
def State.poleBad (s : State) (h : Half) (n g : Nat) : Bool := bitAt (s.ctr h n) (8 + g)

/-- Mark a pole BAD (R300). -/
def State.markBad (s : State) (h : Half) (n g : Nat) : State := s.srf .cnp h (0x5000 + 4 * n) (8 + g) (8 + g) 1

/-- Command a pole closed or open (R297). -/
def State.cmdPole (s : State) (h : Half) (n g : Nat) (close : Bool) : State :=
  s.mCnp h fun c =>
    let w := look 0 c.poleCmd n
    let w' := if close then w ||| 2 ^ g else w &&& (15 - 2 ^ g)
    { c with poleCmd := put 0 c.poleCmd n w' }

/-- A group can reach an output through a wired pole that is not BAD (R298, R309). -/
def State.canReach (s : State) (h : Half) (gid k : Nat) : Bool :=
  match s.ctrFor h gid k with
  | some n => !s.poleBad h n (gid % 4)
  | none => false

/-- A group is usable for an output (R298, R300). -/
def State.usable (s : State) (h : Half) (ns : List Node) (k gid : Nat) : Bool :=
  (grpNode ns (gid / 4) (gid % 4)).isSome && s.rf .pst h (0x100 * (gid / 4) + 0x20 + 4 * (gid % 4)) 11 6 != 0 && decide (s.drainedState h gid < 5)
    && !s.cabLost h (gid / 4) && !decide (gid ∈ (s.hf h).cnp.brk) && s.canReach h gid k

/-- Event 0x0701 by the half in charge (R300, R528). -/
def chgEv (s : State) (h : Half) (k last n g : Nat) : State :=
  if s.charge = some h then s.ev h 1 0x0701 ([k, last] ++ le 2 n ++ [g]) else s

/-- Every matrix contactor of the site is open: no pole of an enabled contactor reads closed (R59, R295). -/
def contactorsOpen (s : State) (h : Half) : Bool :=
  (List.range 512).all fun n => !s.rb .cnp h (0x5000 + 4 * n) 31 || s.rf .cnp h (0x5000 + 4 * n) 15 12 == 0

/-! ### Planner commits (R298, R301) -/

/-- SHARE of the group at position `i` of `m` (R298). -/
def shareOf (m i : Nat) : Nat := 32768 / m + if i < 32768 % m then 1 else 0

/-- The slot of the output loop that serves output `k` (R239): entry 0 of the loop block whose ALLOC names it; else 0xFFF.
(DESIGN CHOICE, unsafe: log 31.) -/
def State.loopSlot (s : State) (h : Half) (k : Nat) : Nat :=
  let hits := (List.range 60).flatMap fun l => (List.range 8).filterMap fun b =>
    if bitAt (s.lcfg0 h l) 31 && s.param h l (0x20 * b + 0x1F) != 0 && s.param h l (0x20 * b + 0x10) == 0x8000 + k
    then some (fld (s.lcfg1 h l) 26 16 + 8 * b) else none
  hits.headD 0xFFF

/-- The words that route a group: PST_GROUTE and dispatch entry 4 + g of the cabinet's port (R301). -/
def routeWords (s : State) (h : Half) (gid : Nat) (to_ : Option (Nat × Nat)) : List (Blk × Nat × Nat × Nat) :=
  let c := gid / 4
  let w := 4 + gid % 4
  let off := 0x20000 + 0x80 * c + w / 2 * 4
  let sh := 16 * (w % 2)
  match to_ with
  | some (k, share) =>
    [(.pst, 0x100 * c + 0x30 + 4 * (gid % 4), 0xFFFFFFFF, 2 ^ 31 + k * 2 ^ 16 + share),
     (.cln, off, 0xFFFF * 2 ^ sh, s.loopSlot h k * 2 ^ sh)]
  | none =>
    [(.pst, 0x100 * c + 0x30 + 4 * (gid % 4), 0xFFFFFFFF, 0), (.cln, off, 0xFFFF * 2 ^ sh, 0xFFF * 2 ^ sh)]

/-- The words that give output `k` the groups of `set` with their shares (R298). -/
def setWords (s : State) (h : Half) (k : Nat) (set : List Nat) : List (Blk × Nat × Nat × Nat) :=
  ((List.range set.length).zip set).flatMap fun e => routeWords s h e.2 (some (k, shareOf set.length e.1))

/-- Groups in rising order. -/
def sortGroups (l : List Nat) : List Nat := (List.range 128).filter fun g => g ∈ l

/-- The group set of output `k` after a change (R299). -/
def newSet (s : State) (h : Half) (c : Change) (k : Nat) : List Nat :=
  let kept := (s.routesOf h k).filter fun g => (k, g) ∉ c.leaves
  sortGroups (kept ++ (c.joins.filter fun e => e.1 = k).map (·.2))

/-- The planner commit of the ROUTE step. -/
def routePlan (s : State) (h : Half) (c : Change) : PlanC :=
  { words := (c.leaves.flatMap fun e => routeWords s h e.2 none) ++ c.outs.flatMap fun k => setWords s h k (newSet s h c k),
    outs := c.outs }

/-- A planner commit that takes groups away from an output (R300). -/
def dropPlan (s : State) (h : Half) (k : Nat) (gone : List Nat) : PlanC :=
  { words := (gone.flatMap fun g => routeWords s h g none)
      ++ setWords s h k (sortGroups ((s.routesOf h k).filter fun g => g ∉ gone)) }

/-- The commit blocks a planner commit names (R301). -/
def PlanC.blks (p : PlanC) : List Blk :=
  [Blk.cln, Blk.pst, Blk.cnp].filter fun b => p.words.any (fun w => w.1 == b) || (b == .cnp && (p.start.isSome || !p.outs.isEmpty))

/-- The planner arms the commit of its blocks: STATE shows 0b01 (R652). -/
def State.armPlan (s : State) (h : Half) (p : PlanC) : State := p.blks.foldl (fun s b => s.mBlk b h fun d => { d with st := 1 }) s

/-- Queue a planner commit in a half. -/
def State.plan (s : State) (h : Half) (p : PlanC) : State := (s.mCnp h fun c => { c with plans := c.plans ++ [p] }).armPlan h p

/-! ### Changes (R299, R300) -/

/-- Replace the change of an output. -/
def State.setChg (s : State) (h : Half) (k : Nat) (v : Change) : State :=
  s.mCnp h fun c => { c with chgs := c.chgs.map fun d => if k ∈ d.outs then v else d }

/-- A change ends in half `h` with LAST `code` (R299, R300, R307-R309): 1 released. -/
def State.endChg (s : State) (h : Half) (ch : Change) (code : Nat) : State :=
  let now := s.tick h
  let s1 := s.mCnp h fun c =>
    { c with chgs := c.chgs.filter (fun d => d.outs != ch.outs)
             outs := ch.outs.foldl (fun t k => Machine.upd {} t k fun o =>
               { o with last := code, noRetry := if code = 1 then o.noRetry else now + 20000,
                        noSet := if code = 1 then o.noSet else newSet s h ch k }) c.outs }
  match ch.org with
  | some o => if s.charge = some h then s1.complete o h 0x0701 (if code = 1 then stOk else 0x0704) true (if code = 1 then le 8 now else []) else s1
  | none => s1

/-- A change reaches RELEASE: released, or with the LAST of a failure on its way. -/
def State.release (s : State) (h : Half) (ch : Change) : State := s.endChg h ch (if ch.fail = 0 then 1 else ch.fail)

/-- A change enters ROUTE (R299): its planner commit waits for the next edge. -/
def State.enterRoute (s : State) (h : Half) (k : Nat) (ch : Change) : State :=
  (s.setChg h k { ch with st := 3, ticks := 0 }).plan h (routePlan s h ch)

/-- A change enters CLOSE at the edge of its commit; with no pole to close it is released (R299). -/
def State.enterClose (s : State) (h : Half) (k : Nat) (ch : Change) : State :=
  if ch.closes.isEmpty then s.release h ch else s.setChg h k { ch with st := 4, ticks := 0 }

/-- DRAIN_COMPLETE (R299). -/
def execDrainComplete (h : Half) (k : Nat) (s : State) : Out :=
  match s.chgOf h k with
  | some ch =>
    if ch.st = 1 && decide (4 ≤ ch.cDrain) then
      .next (if ch.opens.isEmpty then s.enterRoute h k ch
             else ch.opens.foldl (fun s e => s.cmdPole h e.1 e.2.1 false) (s.setChg h k { ch with st := 2, ticks := 0 }))
    else .next s
  | none => .next s

/-- DRAIN_TIMEOUT (R299): ABORT. -/
def execDrainTimeout (h : Half) (k : Nat) (s : State) : Out :=
  match s.chgOf h k with
  | some ch =>
    if ch.st = 1 && decide (ch.cDrain < 4) && decide (10 * s.rf .cnp h 0x4804 31 24 ≤ ch.ticks) then .next (s.endChg h ch 2) else .next s
  | none => .next s

/-- POLES_OPENED (R299). -/
def execPolesOpened (h : Half) (k : Nat) (s : State) : Out :=
  match s.chgOf h k with
  | some ch =>
    if ch.st = 2 && ch.opens.all (fun e => !s.poleFb h e.1 e.2.1) then .next (s.enterRoute h k ch) else .next s
  | none => .next s

/-- Poles still closed are marked BAD as welds; their groups stay routed to their old output and nothing is closed for them. -/
def weldPoles (s : State) (h : Half) (k : Nat) (ch : Change) (bad : List (Nat × Nat × Nat)) : State × Change :=
  let s := bad.foldl (fun s e => chgEv (s.markBad h e.1 e.2.1) h k 3 e.1 e.2.1) s
  let hit (gid : Nat) : Bool := bad.any fun e => e.2.2 = gid
  (s, { ch with joins := ch.joins.filter (fun e => !hit e.2), leaves := ch.leaves.filter (fun e => !hit e.2),
                closes := ch.closes.filter (fun e => !hit e.2.2), opens := ch.opens.filter (fun e => !hit e.2.2), fail := 3 })

/-- POLE_OPEN_TIMEOUT (R300). -/
def execPoleOpenTimeout (h : Half) (k : Nat) (s : State) : Out :=
  match s.chgOf h k with
  | some ch =>
    let bad := ch.opens.filter fun e => s.poleFb h e.1 e.2.1
    if ch.st = 2 && !bad.isEmpty && decide (10 * s.rf .cnp h 0x4804 23 16 ≤ ch.ticks) then
      let r := weldPoles s h k ch bad
      .next (r.1.enterRoute h k r.2)
    else .next s
  | none => .next s

/-- POLES_CLOSED (R299). -/
def execPolesClosed (h : Half) (k : Nat) (s : State) : Out :=
  match s.chgOf h k with
  | some ch =>
    if ch.st = 4 && ch.closes.all (fun e => s.poleFb h e.1 e.2.1) then .next (s.setChg h k { ch with st := 5, ticks := 0, cMatch := 0 })
    else .next s
  | none => .next s

/-- Groups that failed to close or to match (R300): their poles are commanded open and marked BAD, their routes removed. -/
def dropFailed (s : State) (h : Half) (k code : Nat) (ch : Change) (bad : List (Nat × Nat × Nat)) : State × Change :=
  let s1 := bad.foldl (fun s e => chgEv ((s.markBad h e.1 e.2.1).cmdPole h e.1 e.2.1 false) h k code e.1 e.2.1) s
  let gone := bad.map (·.2.2)
  let outs : List Nat := (ch.joins.filter fun e => e.2 ∈ gone).map (·.1)
  let s1 := (List.range 48).foldl (fun s1 j => if j ∈ outs then s1.plan h (dropPlan s h j (gone.filter fun g => (j, g) ∈ ch.joins)) else s1) s1
  (s1, { ch with joins := ch.joins.filter (fun e => e.2 ∉ gone), closes := ch.closes.filter (fun e => e.2.2 ∉ gone), fail := code })

/-- POLE_CLOSE_TIMEOUT (R300). -/
def execPoleCloseTimeout (h : Half) (k : Nat) (s : State) : Out :=
  match s.chgOf h k with
  | some ch =>
    let bad := ch.closes.filter fun e => !s.poleFb h e.1 e.2.1
    if ch.st = 4 && !bad.isEmpty && decide (10 * s.rf .cnp h 0x4804 23 16 ≤ ch.ticks) then
      let r := dropFailed s h k 4 ch bad
      .next (if r.2.closes.isEmpty then r.1.release h r.2 else r.1.setChg h k { r.2 with st := 5, ticks := 0, cMatch := 0 })
    else .next s
  | none => .next s

/-- The bus of a joining group matches its output (R299). -/
def busMatches (s : State) (h : Half) (e : Nat × Nat) : Bool :=
  match look none (s.hf h).cnp.common (e.2 / 4) with
  | some f => decide (((numAt f.bytes (4 + 2 * (e.2 % 4)) 2 * 100 : Nat) - s.outVolt h e.1).natAbs ≤ s.rf .cnp h 0x4804 7 0 * 1000)
  | none => false

/-- MATCH_PASS (R299): RELEASE. -/
def execMatchPass (h : Half) (k : Nat) (s : State) : Out :=
  match s.chgOf h k with
  | some ch => if ch.st = 5 && decide (4 ≤ ch.cMatch) then .next (s.release h ch) else .next s
  | none => .next s

/-- MATCH_TIMEOUT (R300). -/
def execMatchTimeout (h : Half) (k : Nat) (s : State) : Out :=
  match s.chgOf h k with
  | some ch =>
    if ch.st = 5 && decide (ch.cMatch < 4) && decide (10 * s.rf .cnp h 0x4804 15 8 ≤ ch.ticks) then
      let r := dropFailed s h k 5 ch (ch.closes.filter fun e => ch.joins.any fun j => j.2 = e.2.2 && !busMatches s h j)
      .next (r.1.release h r.2)
    else .next s
  | none => .next s

/-- The planner commit of a change that waits in ROUTE is made anew without the groups `mine` of a lost cabinet (R300). -/
def State.rePlan (s : State) (h : Half) (ch : Change) (mine : Nat → Bool) : State :=
  let gone : List (Nat × Nat) := ch.outs.flatMap fun k => ((s.routesOf h k).filter fun g => mine g && decide ((k, g) ∉ ch.leaves)).map fun g => (k, g)
  let v := { ch with joins := ch.joins.filter (fun e => !mine e.2), leaves := ch.leaves ++ gone }
  (s.mCnp h fun c => { c with plans := c.plans.filter fun p => p.start.isSome || p.outs != ch.outs }).plan h (routePlan s h v)

/-- CHANGE_CABINET_LOST (R300): the cabinet's poles count as open, its groups' routes are removed, and the change goes on with the
other groups. -/
def execChangeCabinetLost (h : Half) (k c : Nat) (s : State) : Out :=
  match s.chgOf h k with
  | some ch =>
    let mine (gid : Nat) : Bool := gid / 4 == c
    if s.cabLost h c && (ch.joins ++ ch.leaves).any (fun e => mine e.2) then
      let poles := (ch.opens ++ ch.closes).filter fun e => mine e.2.2
      let s1 := poles.foldl (fun s e => s.cmdPole h e.1 e.2.1 false) s
      let s1 := if ch.st = 3 then s1.rePlan h ch mine else ch.outs.foldl (fun s1 j => s1.plan h (dropPlan s h j ((s.routesOf h j).filter mine))) s1
      let v := { ch with joins := ch.joins.filter (fun e => !mine e.2), leaves := ch.leaves.filter (fun e => !mine e.2),
                         opens := ch.opens.filter (fun e => !mine e.2.2), closes := ch.closes.filter (fun e => !mine e.2.2), fail := 6 }
      let s1 := chgEv s1 h k 6 ((poles.head?.map (·.1)).getD 0) ((poles.head?.map (·.2.1)).getD 0)
      .next (if 4 ≤ v.st && v.closes.isEmpty then s1.release h v else s1.setChg h k v)
    else .next s
  | none => .next s

/-- UNCOMMANDED_POLE_OPEN (R300): the group counts as not switching until the planner has removed its route.
(DESIGN CHOICE, unsafe: log 32.) -/
def execUncommandedPoleOpen (h : Half) (n g : Nat) (s : State) : Out :=
  let w := s.ctr h n
  let gid := 4 * fld w 20 16 + g
  if bitAt w 31 && !s.poleFb h n g && (look 0 (s.hf h).cnp.poleCmd n).testBit g && decide (g < 4) && decide (gid ∉ (s.hf h).cnp.brk)
      && decide (gid ∈ s.routesOf h (fld w 5 0)) && !(s.hf h).cnp.chgs.any (fun c => c.closes.any fun e => e.2.2 = gid) then
    .next (chgEv (s.mCnp h fun c => { c with brk := c.brk ++ [gid] }) h (fld w 5 0) (look {} (s.hf h).cnp.outs (fld w 5 0)).last n g)
  else .next s

/-! ### The latch (R52, R78, R294, R306) -/

/-- A current below 5 A in 10 mA units, or in mA. -/
def groupCurrent (s : State) (h : Half) (gid : Nat) : Option Int :=
  match look none (s.hf h).cnp.common (gid / 4) with
  | some f =>
    let w := s.rg .pst h (0x100 * (gid / 4) + 0x20 + 4 * (gid % 4))
    if f.tick = s.tick h then some (((rangeFrom (fld w 17 12) (fld w 11 6)).map fun j => intAt f.bytes (52 + 2 * j) 2).sum) else none
  | none => none

/-- The ports whose uplinks a change in DRAIN looks at (R299) have all brought one in this tick. -/
def drainFresh (s : State) (h : Half) (ch : Change) : Bool :=
  (ch.outs.map (32 + ·) ++ (ch.joins ++ ch.leaves).map fun (e : Nat × Nat) => e.2 / 4).all fun p =>
    match look none (s.hf h).cnp.common p with
    | some f => f.tick == s.tick h
    | none => false

/-- The outputs and groups of a change show less than 5 A in this tick's uplinks (R299). -/
def drainedNow (s : State) (h : Half) (ch : Change) : Bool :=
  ch.outs.all (fun k => match s.sample h k 12 with | some i => decide (i.natAbs < 5000) | none => false)
    && (ch.joins ++ ch.leaves).all fun e => match groupCurrent s h e.2 with | some i => decide (i.natAbs < 500) | none => false

/-- Every other pole of the group is fed back open (R297). -/
def othersOpen (s : State) (h : Half) (n gid : Nat) : Bool :=
  (List.range 512).all fun m =>
    let w := s.ctr h m
    m == n || !bitAt w 31 || fld w 20 16 != gid / 4 || !bitAt w (24 + gid % 4) || !s.poleFb h m (gid % 4)

/-- The island permits energy at a cabinet and an output, neither stopping (R469). -/
def State.permits (s : State) (h : Half) (c k : Nat) : Bool :=
  let v := (s.hf h).saf
  v.permCab.testBit c && !v.stopCab.testBit c && v.permOut.testBit k && !v.stopOut.testBit k

/-- The poles of a change in CLOSE that may close now are commanded closed (R297, R299, R469). -/
def closePoles (h : Half) (s : State) (ch : Change) : State :=
  if ch.st = 4 then
    ch.closes.foldl (fun s e =>
      let k := fld (s.ctr h e.1) 5 0
      if othersOpen s h e.1 e.2.2 && s.permits h (e.2.2 / 4) k then s.cmdPole h e.1 e.2.1 true else s) s
  else s

/-- A change's counts take this tick (R299): four consecutive uplinks, four consecutive ticks.
(DESIGN CHOICE, unsafe: log 32.) -/
def tickChg (s : State) (h : Half) (ch : Change) : Change :=
  { ch with ticks := ch.ticks + 1,
            cDrain := if ch.st ≠ 1 then 0 else if !drainFresh s h ch then ch.cDrain else if drainedNow s h ch then ch.cDrain + 1 else 0,
            cMatch := if ch.st = 5 && ch.joins.all (busMatches s h) then ch.cMatch + 1 else 0 }

/-- D of R298: the cap of R284 as if the route were complete and without slew. -/
def State.demand (s : State) (h : Half) (k : Nat) : Int := max 0 (s.capWatt h k (s.rawTarget h k))

/-- The planner's count of ticks without demand (R298). -/
def tickDemand (h : Half) (s : State) (k : Nat) : State :=
  if bitAt (s.ocfg h k 0) 31 then
    s.mCnp h fun c => { c with outs := Machine.upd {} c.outs k fun o => { o with dzero := if s.demand h k = 0 then o.dzero + 1 else 0 } }
  else s

/-- Every enabled output shows less than 5 A in this tick's uplink (R330). -/
def allBelow (s : State) (h : Half) : Bool :=
  (List.range 48).all fun k => !bitAt (s.ocfg h k 0) 31 ||
    match s.sample h k 12, look none (s.hf h).cnp.common (32 + k) with
    | some i, some f => decide (i.natAbs < 5000) && f.tick == s.tick h
    | _, _ => false

/-- ALLOCATION_LATCH (R52, R78, R79, R292, R294, R306): the solution is latched and the changes advance; where it is not ready,
the last one is latched again.
(DESIGN CHOICE, safe: log 30.) -/
def execAllocationLatch (h : Half) (ready : Bool) (s : State) : Out :=
  match (s.hf h).cnp.solved, ready with
  | some (a, st), true =>
    let s := (s.mCnp h fun c => { c with latched := a, solved := none }).srg .cnp h 0x6008 (BitVec.ofNat 32 st)
    let s := s.mCnp h fun c => { c with chgs := c.chgs.map (tickChg s h) }
    let s := (s.hf h).cnp.chgs.foldl (closePoles h) s
    let s := s.mCnp h fun c => { c with stopLow := if c.stopAll && allBelow s h then c.stopLow + 1 else 0 }
    .next ((List.range 48).foldl (tickDemand h) s)
  | _, _ =>
    .next (((s.mCnp h fun c => { c with solved := none }).srf .cnp h 0x6008 21 21 1).stageMissed h true)

/-! ### The planner (R298) -/

/-- The planner's view while it deals: which output each group is dealt to. -/
abbrev Deal := List (Nat × Nat)

/-- The groups of an output in a deal. -/
def Deal.of (d : Deal) (k : Nat) : List Nat := (d.filter fun e => e.2 = k).map (·.1)

/-- The group an output takes (R298, step 5): in the cabinet with the fewest of its groups, then the lowest. -/
def pickGroup (d : Deal) (free : List Nat) (k : Nat) : Option Nat :=
  let cnt (gid : Nat) : Nat := ((Deal.of d k).filter fun g => g / 4 = gid / 4).length
  free.foldl (fun best gid => match best with
    | none => some gid
    | some b => if cnt gid < cnt b then some gid else some b) none

/-- Rounds of dealing to the outputs that want a group (R298, steps 5 and 6). -/
def dealRounds (s : State) (h : Half) (ns : List Node) (outs : List Nat) (want : Deal → Nat → Bool) (pool : List Nat) : Nat → Deal → Deal
  | 0, d => d
  | fuel + 1, d =>
    let d' := outs.foldl (fun d k =>
      if want d k then
        match pickGroup d (pool.filter fun g => (d.all fun e => e.1 ≠ g) && s.usable h ns k g) k with
        | some g => d ++ [(g, k)]
        | none => d
      else d) d
    if d'.length = d.length then d else dealRounds s h ns outs want pool fuel d'

/-- An output with unmet need takes groups from outputs that hold more than theirs, highest cabinet first (R298, step 7).
(DESIGN CHOICE, unsafe: log 32.) -/
def takeSurplus (s : State) (h : Half) (ns : List Node) (outs : List Nat) (need : Nat → Nat) (k : Nat) : Nat → Deal → Deal
  | 0, d => d
  | fuel + 1, d =>
    if need k ≤ (Deal.of d k).length then d
    else
      let cand := d.filter fun e => e.2 ≠ k && decide (e.2 ∈ outs) && decide (need e.2 < (Deal.of d e.2).length) && s.usable h ns k e.1
      let best := cand.foldl (fun b e => match b with
        | none => some e
        | some x => if x.1 / 4 < e.1 / 4 || (x.1 / 4 == e.1 / 4 && decide (e.1 < x.1)) then some e else some x) none
      match best with
      | some e => takeSurplus s h ns outs need k fuel ((d.filter fun q => q.1 ≠ e.1) ++ [(e.1, k)])
      | none => d

/-- Outputs in ascending class, then ascending index (R298). -/
def byClass (s : State) (h : Half) (outs : List Nat) : List Nat :=
  (List.range 8).flatMap fun c => outs.filter fun k => fld (s.ocfg h k 0) 29 27 = c

/-- The need of output `k` (R298, step 2): GL is the lowest LIMIT among the groups that can reach it. -/
def needOf (s : State) (h : Half) (ns : List Node) (k : Nat) : Nat :=
  let lims := (List.range 128).filterMap fun g => if s.canReach h g k then (grpNode ns (g / 4) (g % 4)).map (·.limit) else none
  match lims with
  | [] => 0
  | l :: t =>
    let gl := t.foldl min l
    if gl = 0 then 0 else ((s.demand h k).toNat + gl - 1) / gl

/-- The outputs the planner plans for: enabled, not pinned, in no change (R298). -/
def plannedOuts (s : State) (h : Half) : List Nat :=
  byClass s h ((List.range 48).filter fun k =>
    bitAt (s.ocfg h k 0) 31 && !(look {} (s.hf h).cnp.outs k).pinned && (s.chgOf h k).isNone)

/-- The groups the planner may deal: not routed to an output it does not plan for, and not joining one. -/
def plannerPool (s : State) (h : Half) (outs : List Nat) : List Nat :=
  (List.range 128).filter fun g =>
    (!bitAt (s.groute h g) 31 || decide (fld (s.groute h g) 21 16 ∈ outs))
      && !(s.hf h).cnp.chgs.any fun c => c.joins.any fun e => e.2 = g

/-- The deal of the planner (R298, steps 3 to 7). -/
def planDeal (s : State) (h : Half) (ns : List Node) : Deal :=
  let outs := plannedOuts s h
  let pool := plannerPool s h outs
  let need (k : Nat) : Nat := needOf s h ns k
  let kept := outs.flatMap fun k =>
    if 20000 ≤ (look {} (s.hf h).cnp.outs k).dzero then [] else ((s.routesOf h k).filter fun g => s.usable h ns k g).map fun g => (g, k)
  let d1 := dealRounds s h ns outs (fun d k => decide ((Deal.of d k).length < need k)) pool 128 kept
  let d2 := dealRounds s h ns outs (fun _ k => decide (0 < s.demand h k)) pool 128 d1
  outs.foldl (fun d k => takeSurplus s h ns outs need k 128 d) d2

/-- The change from the routes in force to new group sets of some outputs (R298, R299). -/
def mkChange (s : State) (h : Half) (sets : List (Nat × List Nat)) (org : Option Org) (asg : Option Nat) : Change :=
  let joins := sets.flatMap fun e => (e.2.filter fun g => g ∉ s.routesOf h e.1).map fun g => (e.1, g)
  let leaves := sets.flatMap fun e => ((s.routesOf h e.1).filter fun g => g ∉ e.2).map fun g => (e.1, g)
  let pole (e : Nat × Nat) : Option (Nat × Nat × Nat) := (s.ctrFor h e.2 e.1).map fun n => (n, e.2 % 4, e.2)
  { outs := sets.map (·.1), joins := joins, leaves := leaves, opens := leaves.filterMap pole, closes := joins.filterMap pole,
    org := org, asg := asg }

/-- The planner does not retry a failed change, or one to the same group set, within 1 s (R300). -/
def retryBlocked (s : State) (h : Half) (e : Nat × List Nat) : Bool :=
  let o := look {} (s.hf h).cnp.outs e.1
  decide (s.tick h < o.noRetry) && decide (sortGroups o.noSet = sortGroups e.2)

/-- PLANNER_RUN (R298): in the half in charge, in every tick whose number is a multiple of 2,000. The change starts at the next
edge in both halves. -/
def execPlannerRun (s : State) : Out :=
  match s.charge with
  | none => .next s
  | some h =>
    if s.tick h % 2000 ≠ 0 || !s.rb .cnp h 0x4800 31 then .next s
    else
      let ns := s.nodes h
      let d := planDeal s h ns
      let sets := (plannedOuts s h).map fun k => (k, sortGroups (Deal.of d k))
      let moved := sets.filter fun e => sortGroups (s.routesOf h e.1) != e.2
      if moved.isEmpty || moved.any (retryBlocked s h) then .next s
      else
        let c := mkChange s h moved none none
        .next (s.reach.foldl (fun s x => s.plan x { start := some c, outs := c.outs }) s)

/-- The words of block `b` after planner commits, each the value in force with the planner's bits replaced (R301). -/
def planWords (s : State) (h : Half) (ps : List PlanC) (b : Blk) : List (Nat × Word) :=
  let ws := (ps.flatMap (·.words)).filter fun w => w.1 == b
  let offs := (ws.map fun w => w.2.1).foldl (fun l o => if o ∈ l then l else l ++ [o]) []
  offs.map fun o => (o, ws.foldl (fun v w => if w.2.1 = o then (v &&& ~~~ (BitVec.ofNat 32 w.2.2.1)) ||| BitVec.ofNat 32 w.2.2.2 else v) (s.rg b h o))

/-- The change of a planner commit that has taken effect starts, with the reserve of its outputs (R299, R302). -/
def startChange (s : State) (h : Half) (c : Change) : State :=
  let ns := s.nodes h
  let above (k : Nat) : List Nat :=
    ((s.routesOf h k).flatMap fun g => match grpNode ns (g / 4) (g % 4) with
      | some n => ((pathUp ns 8 n.idx).filter fun m => m.kind == 1 || m.kind == 2).map (·.idx)
      | none => []).foldl (fun l i => if i ∈ l then l else l ++ [i]) []
  let res := c.outs.filterMap fun k =>
    if 0 < (s.prevAlloc h k).pmax then some (k, (s.prevAlloc h k).pmax.toNat, above k) else none
  let s := s.mCnp h fun q => { q with chgs := q.chgs ++ [{ c with res := res }] }
  match c.asg with
  | some k => s.mCnp h fun q => { q with outs := Machine.upd {} q.outs k fun o => { o with pinned := true } }
  | none => s

/-- What a planner commit does beside its words as it takes effect at an edge of half `h` (R299, R301, R302).
(DESIGN CHOICE, unsafe: log 31.) -/
def applyPlan (h : Half) (s : State) (p : PlanC) : State :=
  let gone := p.words.filterMap fun w => if w.1 = .pst && w.2.2.2 = 0 then some (4 * (w.2.1 / 0x100) + w.2.1 % 0x10 / 4) else none
  let s := s.mCnp h fun c => { c with brk := c.brk.filter (· ∉ gone) }
  match p.start, (p.outs.head?).bind (s.chgOf h) with
  | some c, _ => startChange s h c
  | none, some ch => if ch.st = 3 && ch.outs == p.outs then s.enterClose h (p.outs.headD 0) ch else s
  | none, none => s

/-- A planner commit that is refused at its edge is dropped (R24): a change it was to start does not start, one that waits in ROUTE for it is aborted.
(DESIGN CHOICE, unsafe: log 31.) -/
def refusePlan (h : Half) (s : State) (p : PlanC) : State :=
  match p.start, (p.outs.head?).bind (s.chgOf h) with
  | some c, _ =>
    match c.org with
    | some o => if s.charge = some h then s.complete o h 0x0701 0x0704 true [] else s
    | none => s
  | none, some ch => if ch.st = 3 && ch.outs == p.outs then s.endChg h ch 2 else s
  | none, none => s

/-- The planner commits of half `h` end with the evaluation of their blocks at its edge; where a host commit of one of those blocks is evaluated there, they
stay armed for the next edge (R301).
(DESIGN CHOICE, unsafe: log 31.) -/
def State.planEdge (s : State) (h : Half) (hostCommit : Bool) (refused : List Blk) : State :=
  let ps := (s.hf h).cnp.plans
  if hostCommit then ps.foldl (fun s p => s.armPlan h p) s
  else
    ps.foldl (fun s p => if p.blks.any (fun b => decide (b ∈ refused)) then refusePlan h s p else applyPlan h s p) (s.mCnp h fun c => { c with plans := [] })

/-! ### Verbs (R308, R309) -/

/-- The groups of a 128-bit mask. -/
def gidsOf (mask : Nat) : List Nat := (List.range 128).filter fun g => mask.testBit g

/-- CNP_ASSIGN.
(DESIGN CHOICE, unsafe: log 32.) -/
def execCnpAssign (o : Org) (k mask : Nat) (s : State) : Out :=
  .next (s.verb o 0x0701 [rInstaller, rVendor] fun s x _ =>
    let gs := gidsOf mask
    let givers := (List.range 48).filter fun j => j ≠ k && (s.routesOf x j).any (· ∈ gs)
    if 48 ≤ k then s.complete o x 0x0701 stRange true []
    else if gs.any (fun g => !s.permits x (g / 4) k) || !(s.hf x).saf.permOut.testBit k || (s.hf x).saf.stopOut.testBit k then
      s.complete o x 0x0701 stSafetyInhibit true []
    else if (k :: givers).any (fun j => (s.chgOf x j).isSome) || !(s.hf x).cnp.plans.isEmpty then s.complete o x 0x0701 0x0701 true []
    else if gs.any (fun g => !s.canReach x g k) then s.complete o x 0x0701 0x0702 true []
    else if givers.any (fun j => (look {} (s.hf x).cnp.outs j).pinned) then s.complete o x 0x0701 0x0703 true []
    else
      let sets := (k, gs) :: givers.map fun j => (j, (s.routesOf x j).filter fun g => g ∉ gs)
      let c := mkChange s x sets (some o) (some k)
      (s.reach.foldl (fun s y => s.plan y { start := some c, outs := c.outs }) s).complete o x 0x0701 stPending false [])

/-- CNP_UNPIN. -/
def execCnpUnpin (o : Org) (k : Nat) (s : State) : Out :=
  .next (s.verb o 0x0702 [rInstaller, rVendor] fun s x _ =>
    if 48 ≤ k then s.complete o x 0x0702 stRange true []
    else
      (s.reach.foldl (fun s y => s.mCnp y fun q => { q with outs := Machine.upd {} q.outs k fun v => { v with pinned := false } }) s).complete
        o x 0x0702 stOk true [])

/-- CNP_POLE_CLEAR: the BAD marks go at the edge of the commit. -/
def execCnpPoleClear (o : Org) (n mask : Nat) (s : State) : Out :=
  .next (s.verb o 0x0703 [rInstaller, rVendor] fun s x role =>
    if 512 ≤ n || 16 ≤ mask then s.complete o x 0x0703 stRange true []
    else
      let s := s.reach.foldl (fun s y => s.mCnp y fun q => { q with clears := q.clears ++ [(n, mask)] }) s
      (s.arm .cnp role (some { org := o, opc := 0x0703 })).complete o x 0x0703 stPending false [])

/-- The BAD marks asked to be cleared are cleared at the commit edge, or stay with a refused commit. -/
def State.poleClears (s : State) (h : Half) (apply : Bool) : State :=
  let s1 := if apply then (s.hf h).cnp.clears.foldl (fun s e =>
      (maskGroups e.2).foldl (fun s g => s.srf .cnp h (0x5000 + 4 * e.1) (8 + g) (8 + g) 0) s) s else s
  s1.mCnp h fun q => { q with clears := [] }

end Sys2Proof.Machine
end

