-- ==== Sys2Proof/Machine/Snapshot.lean ====
section
/-!
DEFINITION. The snapshot of a tick and the points it publishes (R30, R31, R206, R272, R345, R654), and the completion of
set-point commands at a snapshot (R222).
-/

namespace Sys2Proof.Machine

/-- CNP_CHG of output `k` (R307). -/
def State.chgWord (s : State) (h : Half) (k : Nat) : Nat :=
  let o := look {} (s.hf h).cnp.outs k
  let st := match s.chgOf h k with | some c => (c.st, min 0xFFFF c.ticks) | none => (0, 0)
  st.1 * 2 ^ 29 + o.last * 2 ^ 26 + b2n o.pinned * 2 ^ 25 + st.2

/-- The status word of output `k` (R654). -/
def State.outWord (s : State) (h : Half) (k : Nat) : Nat :=
  let a := look {} (s.hf h).cnp.latched.outs k
  let w := s.chgWord h k
  b2n a.routeOk + 2 * b2n a.drain + fldN w 31 29 * 4 + fldN w 28 26 * 32

/-- PST_GSTAT of a group now (R272). -/
def State.gstatNow (s : State) (h : Half) (gid : Nat) : Word :=
  let g := s.seqG h (gid / 4) (gid % 4)
  BitVec.ofNat 32 (g.stat * 2 ^ 16 + g.cause * 2 ^ 14)

/-- What half `h` publishes in its present tick. -/
def State.makePub (s : State) (h : Half) : Pub :=
  let x := s.hf h
  { tick := s.tick h, seq := x.pub.seq + 1, alloc := x.cnp.latched,
    stage := (List.range 270).map fun i => (s.staged h i, (s.stage h i).stale), slots := x.cln.slots,
    lstat := (List.range 60).foldl (fun t l => put 0 t l (s.rg .cln h (0x20 * l + 8))) [],
    samples := (List.range 48).foldl (fun t k => put none t (32 + k) (s.port h (32 + k)).main) [],
    outw := (List.range 48).foldl (fun t k => put 0 t k (s.outWord h k)) [],
    gstat := (List.range 128).foldl (fun t g => put 0 t g (s.gstatNow h g)) [],
    gen := x.twn.gen, health := s.healthWord h, otherHealth := x.twn.otherHealth, otherDead := !x.twn.up }

/-- The loop command is acknowledged and its ramp has arrived (R222). -/
def arrivedCmd (s : State) (h : Half) (c : LoopCmd) : Bool :=
  let b := s.loopB h c.lane c.blk
  c.live && ((c.opc == 0x0510 && b.seq == c.seq && b.arrived) || (c.opc == 0x0512 && b.mseq == c.seq && b.marrived))

/-- Loop commands complete with the first snapshot in which they have arrived (R222, R234). -/
def completeArrived (h : Half) (s : State) (c : LoopCmd) : State :=
  if arrivedCmd s h c then
    (s.mCln h fun x => { x with cmds := x.cmds.filter fun d => !sameCmd d.org c.org }).complete c.org h c.opc stOk true
      (le 2 c.seq ++ [0, 0] ++ le 8 (s.tick h))
  else s

/-- The session of output `k`, and its change. -/
def State.veh1 (s : State) (k : Nat) : VehS := look {} s.veh k
def State.mVeh (s : State) (k : Nat) (f : VehS → VehS) : State := { s with veh := Machine.upd {} s.veh k f }

/-- What the session stack takes from the dispenser sample points of a snapshot of the half in charge (R16, R345, R351): a sample of the snapshot's own tick
is an uplink.
(DESIGN CHOICE, unsafe: log 123.) -/
def vehSample (p : Pub) (s : State) (k : Nat) : State :=
  match look none p.samples (32 + k) with
  | none => s
  | some f =>
    if f.tick ≠ p.tick then s
    else
      let d := numAt f.bytes 0 2
      let v := intAt f.bytes 4 4
      let i := intAt f.bytes 12 4
      let b := decide (d % 8 = 1 ∨ d % 8 = 2)
      let low := decide (-5000 < i ∧ i < 5000)
      s.mVeh k fun x =>
        { x with pilot := d % 8, dstat := d, vout := if v = -2147483648 then none else some v, pilotN := if b then x.pilotN + 1 else 0,
                 lowN := if low then x.lowN + 1 else 0 }

/-- SNAPSHOT_PUBLISH (R16, R30, R31, R78, R79, R222): visible at 48 us; a snapshot not made in time is not published.
(DEDUCED, unsafe: log 10.) -/
def execSnapshotPublish (h : Half) (made : Bool) (s : State) : Out :=
  if made then
    let s := s.mh h fun x => { x with pub := s.makePub h }
    let s := if s.charge = some h then (List.range 48).foldl (vehSample (s.hf h).pub) s else s
    .next ((s.hf h).cln.cmds.foldl (completeArrived h) s)
  else .next (s.stageMissed h true)

/-! ### Reading a point (R31, R36, R38) -/

/-- A point that the snapshot carries, as a slot: type, value, flags, and the owning subsystem of R11.
(DESIGN CHOICE, unsafe: log 33.) -/
def pubSlot (p : Pub) (cls typ owner : Nat) (v : Int) (valid stale subst : Bool) : Slot :=
  { typ := typ, valid := valid, stale := stale, subst := subst, owner := owner, stamp := p.tick, wseq := p.seq % 2 ^ 32,
    rd := classRd cls, wr := classWr cls, val := .int v }

/-- The points of the snapshot (R206, R345, R654) at point index `i`; none: the snapshot does not carry the index. Before the
first snapshot they hold no point (R41).
(DESIGN CHOICE, unsafe: log 33.) -/
def snapPoint (p : Pub) (i : Nat) : Option Slot :=
  if p.seq = 0 then none
  else if 0x00300000 ≤ i ∧ i < 0x00300300 then
    let k := (i - 0x00300000) / 16
    let w := i % 16
    match look none p.samples (32 + k) with
    | none => none
    | some f =>
      let sub := f.tick != p.tick
      if w = 15 then some (pubSlot p 1 5 9 (numAt f.bytes 0 2 : Nat) true false sub)
      else if w < 10 then
        some (pubSlot p 1 2 9 (intAt f.bytes (4 + 4 * w) 4) (decide (numAt f.bytes (4 + 4 * w) 4 ≠ 0x80000000)) false sub)
      else none
  else if 0x003FE000 ≤ i ∧ i < 0x003FE0C0 then
    let o := look {} p.alloc.outs ((i - 0x003FE000) / 4)
    match i % 4 with
    | 0 => some (pubSlot p 1 2 7 o.imax true false false)
    | 1 => some (pubSlot p 1 2 7 o.imin true false false)
    | 2 => some (pubSlot p 1 2 7 o.pmax true false false)
    | _ => none
  else if 0x003FE100 ≤ i ∧ i < 0x003FE120 then some (pubSlot p 1 2 7 (look 0 p.alloc.cabs (i - 0x003FE100)) true false false)
  else if 0x003FE140 ≤ i ∧ i < 0x003FE144 then some (pubSlot p 1 2 7 (look 0 p.alloc.stor (i - 0x003FE140)) true false false)
  else if 0x003FE148 ≤ i ∧ i < 0x003FE14C then some (pubSlot p 1 2 7 (look 0 p.alloc.pv (i - 0x003FE148)) true false false)
  else if 0x003FF000 ≤ i ∧ i < 0x003FF000 + 270 then
    (p.stage[i - 0x003FF000]?).map fun e => pubSlot p 1 3 4 e.1 true e.2 e.2
  else if 0x003FF800 ≤ i ∧ i < 0x00400000 then some (pubSlot p 1 1 4 (look 0 p.slots (i - 0x003FF800)).toInt true false false)
  else if 0x007FFE00 ≤ i ∧ i < 0x007FFE30 then some (pubSlot p 3 5 7 (look 0 p.outw (i - 0x007FFE00) : Nat) true false false)
  else if i = 0x007FFF80 then some (pubSlot p 3 4 3 (p.gen : Nat) true false false)
  else if i = 0x007FFF90 then some (pubSlot p 3 5 3 (p.health : Nat) true false false)
  else if i = 0x007FFF91 then some (pubSlot p 3 5 3 (p.otherHealth : Nat) true p.otherDead false)
  else if 0x007FFFC0 ≤ i ∧ i < 0x007FFFFC then some (pubSlot p 3 5 4 ((look 0 p.lstat (i - 0x007FFFC0)).toNat : Nat) true false false)
  else none

/-- The point at index `i` as half `h` holds it: from its snapshot, else from its store (R30, R38). -/
def State.pointAt (s : State) (h : Half) (i : Nat) : Option Slot :=
  match snapPoint (s.hf h).pub i with
  | some p => some p
  | none => look none (s.hf h).pts i

end Sys2Proof.Machine
end

