-- ==== Sys2Proof/Machine/Sessions.lean ====
section
/-!
DEFINITION. What moves a vehicle session from state to state (R350-R356), shared by the session stack and the billing engine.
-/

namespace Sys2Proof.Machine

/-- Change what the mirror of a session carries. -/
def State.mC (s : State) (k : Nat) (f : VehC → VehC) : State := s.mVeh k fun v => { v with c := f v.c }

/-- VEH_OCFG0 and VEH_OCFG1 of an output, as the half in charge holds them (R358). -/
def State.vcfg (s : State) (k w : Nat) : Word := s.rg .veh (s.charge.getD .A) (0x10 * k + 4 * w)

/-- Event 0x0902 (R528), raised by the half in charge. -/
def State.vehEv (s : State) (k : Nat) : State :=
  let c := (s.veh1 k).c
  s.ev (s.charge.getD .A) 0 0x0902 ([k, c.st, c.reason, 0] ++ le 4 c.num)

/-- The identifier point of an output (R528): published while the session is in AUTH. -/
def State.idPoint (s : State) (k : Nat) : State :=
  let c := (s.veh1 k).c
  if c.st = 3 then s.ownerWrite (0x00700000 + k) 9 6 (.bytes (if c.idKind = 1 then c.emaid else c.evccid)) else s

/-- The VEH_STOP commands of a session complete when it has ended (R359). -/
def State.stopsDone (s : State) (k : Nat) : State :=
  let x := s.charge.getD .A
  let c := (s.veh1 k).c
  let s := (s.veh1 k).stops.foldl (fun s o => s.complete o x 0x0902 stOk true (le 8 s.now ++ [c.reason])) s
  s.mVeh k fun v => { v with stops := [] }

/-- The keys of a session are invalidated when it has ended (R444).
(DEDUCED, unsafe: log 58.) -/
def State.dropKeys (s : State) (k : Nat) : State :=
  let c := (s.veh1 k).c
  let s := (c.nmk.toList ++ c.key.toList).foldl (fun s h => s.invalidate h none none) s
  s.mC k fun c => { c with nmk := none, key := none }

/-- Handshakes under way at the half in charge (R349). -/
def State.handshakes (s : State) : Nat := (s.veh.filter fun e => e.2.c.tls == 2 && e.2.c.st == 2).length

/-- A handshake that waits starts once another has ended (R349). -/
def State.nextHandshake (s : State) : State :=
  match s.veh.find? fun e => e.2.c.tls == 1 && e.2.c.st == 2 with
  | some e => if s.handshakes < 8 then s.mC e.1 fun c => { c with tls := 2 } else s
  | none => s

/-- A session enters a state (R351). -/
def State.enter (s : State) (k st : Nat) : State :=
  let s := s.mC k fun c => { c with st := st, since := s.now, msgTick := s.now }
  let s := (s.mVeh k fun v => { v with lowN := 0 }).vehEv k
  (if st = 10 then (s.stopsDone k).dropKeys k else s).nextHandshake

/-- The first reason raised stands (R356). -/
def VehC.raise (c : VehC) (reason : Nat) : VehC := if c.reason = 0 then { c with reason := reason } else c

/-- A session stops (R351, R354): before CABLE_CHECK it goes straight to ENDED, from there on to STOPPING.
(DESIGN CHOICE, unsafe: log 56.) -/
def State.stopSession (s : State) (k reason : Nat) : State :=
  let n := (s.veh1 k).c.st
  if n = 0 ∨ 10 ≤ n then s
  else
    let s := s.mC k fun c => c.raise reason
    if n < 5 then s.enter k 10 else if n < 8 then s.enter k 8 else s

/-- In CHARGE the vehicle is first told to stop in the next response (R354); in another state the session stops at once. -/
def State.tellStop (s : State) (k reason : Nat) : State :=
  let c := (s.veh1 k).c
  if c.st = 7 then
    if c.told.isSome then s.mC k fun c => c.raise reason else s.mC k fun c => { c.raise reason with told := some s.now }
  else s.stopSession k reason

/-- The session is granted by a path of R350: 1 Plug & Charge, 2 allow-list, 3 host, 4 token. -/
def State.grantAuth (s : State) (k path : Nat) : State :=
  if (s.veh1 k).c.st = 3 then (s.mC k fun c => { c with granted := path, path := 0 }).enter k 4 else s

/-- The kind of the identifier of a session: 1 EMAID, 2 EVCCID (R528). -/
def VehC.ident (c : VehC) : Nat × List Nat := if c.pnc then (1, c.emaid) else (2, c.evccid)

/-- An identifier stands on a list: kinds 1 EMAID and 2 EVCCID allowed, 3 blocked EMAID (R359). -/
def State.listed (s : State) (kind : Nat) (id : List Nat) : Bool := decide ((kind, padTo 22 id) ∈ s.vehG.lists)

/-- The path enabled by AUTH (R358): bit 24 - `p` + 1. -/
def State.pathOn (s : State) (k p : Nat) : Bool := bitAt (s.vcfg k 0) (25 - p)

/-- The next enabled path after `from_` is tried (R350): a path that grants at once ends the search, the host and the token path wait. With none left
after a refusal the session ends with AUTH_REFUSED. -/
def State.tryPaths (s : State) (k : Nat) (chainOk : Bool) : Nat → Nat → State
  | 0, _ => s.stopSession k 0x04
  | n + 1, p =>
    let c := (s.veh1 k).c
    if !s.pathOn k p then s.tryPaths k chainOk n (p + 1)
    else
      match p with
      | 1 => if c.pnc && chainOk && !s.listed 3 c.emaid then s.grantAuth k 1 else s.tryPaths k chainOk n (p + 1)
      | 2 => if s.listed c.ident.1 c.ident.2 then s.grantAuth k 2 else s.tryPaths k chainOk n (p + 1)
      | 3 =>
        let s := (s.mC k fun c => { c with path := 3, idKind := c.ident.1 }).idPoint k
        s.ev (s.charge.getD .A) 0 0x0901 ([k, c.ident.1, 0, 0] ++ le 4 c.num ++ le 4 (0x06700000 + k))
      | _ => s.mC k fun c => { c with path := 4 }

/-- Authorization from path `p` on; while the island holds 64 unsigned records, a new session ends with AUTH_REFUSED (R449). -/
def State.authorize (s : State) (k p : Nat) (chainOk : Bool) : State :=
  if p = 1 ∧ 64 ≤ s.bil.held.length then s.stopSession k 0x04 else s.tryPaths k chainOk (5 - p) p

end Sys2Proof.Machine
end

