-- ==== Sys2Proof/Machine/Billing.lean ====
section
/-!
DEFINITION. The billing and tariff engine (spec 12): intervals, periods, tariffs, saves, Lomvor records, the legal display, prepayment tokens, its verbs.
-/

namespace Sys2Proof.Machine

/-- The tariff in force.
(DESIGN CHOICE, unsafe: log 47.) -/
def State.tariff (s : State) : Tariff := s.bil.tariff

/-- The subsystem number of the billing and tariff engine as an owner of points (R11, R36), from the row of R11 it holds. -/
def bilOwner : Nat := 11

/-- The rate in force is evaluated (R404, R408, R414). -/
def State.evalRate (s : State) : State :=
  if s.bil.unknown then s.mBil fun b => { b with rate := Tariff.fallback b.tariff }
  else s.mBil fun b => { b with rate := Tariff.rateAt b.tariff s.utc b.rate }

/-- A record over chained points (R36): 92 bytes a slot. -/
def State.chainWrite (s : State) (owner : Nat) : Nat → Nat → List Nat → State
  | 0, _, _ => s
  | n + 1, idx, b =>
    let next := if b.length ≤ 92 then 0xFFFFFFFF else idx + 1
    (s.ownerWrite idx owner 7 (.chain next (b.take 92))).chainWrite owner n (idx + 1) (b.drop 92)

/-! ### Demand intervals (R405) -/

/-- The regular end of the open interval of an intake: the first boundary after the last one closed and after `u`'s interval began. -/
def intervalEnd (len : Nat) (u : Int) : Int := (u + len - 1) / len * len

/-- An interval record's bytes (R405). -/
def intervalBytes (endU : Int) (energy export_ demand elapsed rate flags : Nat) : List Nat :=
  leInt 8 endU ++ le 4 energy ++ le 4 export_ ++ le 4 demand ++ le 4 elapsed ++ [rate, flags, 0, 0, 0, 0, 0, 0]

/-- The open interval of intake `i` closes at `endU`; further flags INCOMPLETE and STEP (R405, R409, R410). -/
def State.closeInterval (s : State) (i : Nat) (endU : Int) (inc step : Bool) : State :=
  let x := look {} s.bil.core.ints i
  let len := s.tariff.len
  let elapsed := x.ticks / 20000
  let demand := x.energy * 36 / (10 * max len elapsed)
  let flags := b2n (x.incomplete || inc) + 2 * b2n (x.step || step) + 4 * b2n x.err
  let r := s.bil.rate
  let higher (t : Tab (Nat × Int × Nat)) (key : Nat) : Tab (Nat × Int × Nat) :=
    if (look (0, 0, 0) t key).1 < demand then put (0, 0, 0) t key (demand, endU, flags) else t
  let b := intervalBytes endU x.energy x.export_ demand elapsed r flags
  let n := look 0 s.bil.recN i
  let keep (l : List (Int × List Nat)) : List (Int × List Nat) := let l := l ++ [(endU, b)]; if 2880 < l.length then l.drop 1 else l
  let s := s.mCore fun c => { c with ints := put {} c.ints i {}, maxd := higher (higher c.maxd (32 * i)) (32 * i + 1 + r), lastDem := put 0 c.lastDem i endU }
  let s := s.mBil fun y =>
    { y with recN := Machine.upd 0 y.recN i (· + 1), recs0 := if i = 0 then keep y.recs0 else y.recs0, recs1 := if i = 1 then keep y.recs1 else y.recs1 }
  s.ownerWrite (0x00B00000 + 0x1000 * i + n % 4096) bilOwner 6 (.bytes b)

/-- An instant is a demand boundary not yet closed (R405, R410). -/
def State.demandDue (s : State) (i : Nat) (u : Int) : Bool :=
  s.srcEn (0x40 + i) && u % s.tariff.len == 0 && decide (look 0 s.bil.core.lastDem i < u) && !s.bil.unknown

/-- Step 2 of R408: every demand interval that ends at this edge closes. -/
def State.edgeIntervals (s : State) : State :=
  if s.now % 20000 = 0 then [0, 1].foldl (fun s i => if s.demandDue i s.utc then s.closeInterval i s.utc false false else s) s else s

/-- DEMAND_INTERVAL_CLOSE (R405, R407, R408, R410). -/
def execDemandIntervalClose (i : Nat) (s : State) : Out :=
  if i < 2 && s.now % 20000 == 0 && s.demandDue i s.utc then .next (s.closeInterval i s.utc false false) else .next s

/-! ### Billing periods (R406) -/

/-- An entry of a period record (R406). -/
def periodEntry (code reg v : Nat) : List Nat := le 2 code ++ [reg, 0] ++ le 8 v ++ [0, 0, 0, 0]

/-- The entries of a period record: every quantity of every enabled source, and the maximum demands.
(DESIGN CHOICE, unsafe: log 47.) -/
def State.periodEntries (s : State) : List (List Nat) :=
  let n := s.tariff.nrates
  ((List.range 66).filter s.srcEn).flatMap fun src =>
    ((qtysOf src).flatMap fun q =>
      let g := look {} s.bil.core.regs (src * 256 + q)
      periodEntry (src * 256 + q) 0xFF g.total :: (List.range n).map fun r => periodEntry (src * 256 + q) r (look 0 g.rates r))
    ++ (if src < 0x40 then [] else
      (List.range (n + 1)).map fun r => periodEntry (src * 256 + 1) (0x80 + r) (look (0, 0, 0) s.bil.core.maxd (32 * (src - 0x40) + r)).1)

/-- A billing period closes at `u` (R406): cause 0 calendar, 1 command.
(DESIGN CHOICE, unsafe: log 48.) -/
def State.closePeriod (s : State) (u : Int) (cause flags : Nat) : State :=
  let es := s.periodEntries
  let n := s.bil.periodN
  let err := s.bil.core.perErr || (List.range 66).any fun src => s.srcEn src && s.meterErr src
  let b := le 4 n ++ leInt 8 u ++ le 4 s.tariff.id ++ [flags + 4 * b2n err, cause, 0, 0] ++ le 4 es.length ++ es.flatten
  let s := s.mCore fun c => { c with maxd := [], perErr := false, lastBill := some u }
  s.mBil fun y =>
    let l := y.periods ++ [(n, b)]
    { y with periods := if 24 < l.length then l.drop 1 else l, periodN := n + 1, lastClose := some u }

/-- An instant is a CLOSE instant later than the last closure (R406, R410). -/
def State.closeDue (s : State) (u : Int) : Bool :=
  !s.bil.unknown && s.tariff.closesAt u && (match s.bil.core.lastBill with | some l => decide (l < u) | none => true)

/-- Steps 2 and 3 of R408. -/
def State.edgePeriods (s : State) : State :=
  let s := s.edgeIntervals
  if s.now % 20000 == 0 && s.closeDue s.utc then s.closePeriod s.utc 0 0 else s

/-- BILLING_PERIOD_CLOSE (R406-R408). -/
def execBillingPeriodClose (s : State) : Out := .next s.edgePeriods

/-- BIL_CLOSE (R406, R414, R426, R427). -/
def execBilClose (o : Org) (s : State) : Out :=
  .next (s.verb o 0x0B04 [rOperator, rBilling] fun s x _ =>
    if s.bil.unknown then s.complete o x 0x0B04 0x0B02 true []
    else if (match s.bil.lastClose with | some l => decide (s.utc < l + 60) | none => false) then s.complete o x 0x0B04 0x0B04 true []
    else (s.closePeriod s.utc 1 0).complete o x 0x0B04 stOk true (le 4 s.bil.periodN))

/-! ### Tariffs (R402-R404, R408) -/

/-- The passive object becomes active; event record 0x22 with both TARIFF_IDs (R403, R408). -/
def State.activate (s : State) (t : Tariff) : State :=
  let old := s.tariff.id
  let s := s.mBil fun b => { b with tariff := t, passive := none }
  ((s.metLog 0x22 0 none (some (old, t.id))).evalRate).chainWrite bilOwner 9 0x01800000 t

/-- Steps 2 to 4 of R408, but for the evaluation of the rate. -/
def State.edgeTariff (s : State) : State :=
  let s := s.edgePeriods
  match s.bil.passive with
  | some t => if !s.bil.unknown && s.now % 20000 == 0 && decide ((Tariff.act t : Int) ≤ s.utc) then s.activate t else s
  | none => s

/-- TARIFF_ACTIVATION (R408).
(DESIGN CHOICE, unsafe: log 47. DESIGN CHOICE, unsafe: log 49.) -/
def execTariffActivation (s : State) : Out := .next s.edgeTariff

/-- RATE_SWITCH (R401, R404, R408). -/
def execRateSwitch (s : State) : Out := .next s.edgeTariff.evalRate

/-- BIL_TARIFF_LOAD (R403, R414, R426). -/
def execBilTariffLoad (o : Org) (obj : List Nat) (s : State) : Out :=
  .next (s.verb o 0x0B02 [rOperator, rInstaller] fun s x _ =>
    if s.bil.unknown then s.complete o x 0x0B02 0x0B02 true []
    else if !Tariff.ok obj s.utc then s.complete o x 0x0B02 0x0B01 true []
    else if s.flashFull x 1152 then s.complete o x 0x0B02 stTempWriteHeld true []
    else (((s.mBil fun b => { b with passive := some obj }).chainWrite bilOwner 9 0x01800010 obj)).complete o x 0x0B02 stOk true [])

/-- BIL_TARIFF_READ (R426). -/
def execBilTariffRead (o : Org) (which : Nat) (s : State) : Out :=
  .next (s.verb o 0x0B03 [rOperator, rBilling, rInstaller, rLegal] fun s x _ =>
    match which with
    | 0 => s.complete o x 0x0B03 stOk true (padTo 752 s.bil.tariff)
    | 1 => match s.bil.passive with
      | some t => s.complete o x 0x0B03 stOk true (padTo 752 t)
      | none => s.complete o x 0x0B03 0x0B03 true []
    | _ => s.complete o x 0x0B03 stRange true [])

/-! ### Gaps and clock steps (R409, R410) -/

/-- One passed minute (R409, R410): intervals close INCOMPLETE, a billing period with its nominal instant, INCOMPLETE after a gap and STEP at a step, a passive
tariff in its place.
(DESIGN CHOICE, unsafe: log 48.) -/
def State.passMinute (s : State) (step : Bool) (u : Int) : State :=
  let s := [0, 1].foldl (fun s i => if s.demandDue i u then s.closeInterval i u true step else s) s
  let s := if s.closeDue u then s.closePeriod u 0 (if step then 2 else 1) else s
  match s.bil.passive with
  | some t => if (Tariff.act t : Int) ≤ u then s.activate t else s
  | none => s

/-- The minutes after `u`, `n` of them, in time order. -/
def State.passMinutes (step : Bool) : Nat → Int → State → State
  | 0, _, s => s
  | n + 1, u, s => State.passMinutes step n (u + 60) (s.passMinute step (u + 60))

/-- The last whole minute at or before an instant. -/
def minuteOf (u : Int) : Int := u / 60 * 60

/-- Every boundary passed since the last instant processed (R409); the interval in progress stays open, INCOMPLETE. -/
def State.catchUp (s : State) : State :=
  let u0 := s.bil.core.lastUtc
  let u1 := s.utc
  let s := if u0 ≤ 0 ∨ u1 ≤ u0 then s else State.passMinutes false ((minuteOf u1 - minuteOf u0) / 60).toNat (minuteOf u0) s
  let s := s.mCore fun c => { c with lastUtc := u1, ints := [0, 1].foldl (fun t i => Machine.upd {} t i fun x => { x with incomplete := true }) c.ints }
  s.evalRate

/-- BILLING_GAP_CATCHUP (R409).
(DESIGN CHOICE, unsafe: log 46. DESIGN CHOICE, unsafe: log 48.) -/
def execBillingGapCatchup (s : State) : Out := if s.bil.unknown then .next s else .next s.catchUp

/-- TIME_VALID_RESTORED (R414). -/
def execTimeValidRestored (s : State) : Out :=
  if s.bil.unknown then .next ((s.mBil fun b => { b with unknown := false }).catchUp) else .next s

/-- What a clock step does (R410): `u0` before and `u1` after it.
(DESIGN CHOICE, unsafe: log 48.) -/
def State.billingStep (s : State) (u0 u1 : Int) : State :=
  let s := s.metLog 0x21 0 none (some ((u0 % 2 ^ 32).toNat, (u1 % 2 ^ 32).toNat))
  let s := s.mCore fun c => { c with sess := c.sess.map fun e => (e.1, e.2.map fun x => { x with step := true }) }
  if s.bil.unknown then s
  else if u1 < u0 then
    (s.mCore fun c => { c with ints := [0, 1].foldl (fun t i => Machine.upd {} t i fun x => { x with step := true }) c.ints, lastUtc := u1 }).evalRate
  else
    let s := [0, 1].foldl (fun s i =>
      if s.srcEn (0x40 + i) then s.closeInterval i (min u1 (intervalEnd s.tariff.len (u0 + 1))) false true else s) s
    let s := if u0 ≤ 0 then s else State.passMinutes true ((minuteOf u1 - minuteOf u0) / 60).toNat (minuteOf u0) s
    (s.mCore fun c => { c with lastUtc := u1 }).evalRate

/-! ### Saves (R375, R411-R413) -/

/-- The sources that integrate. -/
def State.integrating (s : State) : List Nat :=
  (List.range 66).filter fun src => s.srcEn src && (s.meter src).gap.isNone && !(s.meter src).noload && s.met.battery == 0

/-- The billing state is written to the bank whose turn it is (R411). -/
def State.saveBilling (s : State) (pf : Bool) : State :=
  let b : BilSave := { seq := s.bil.saveSeq + 1, pf := pf, utc := s.utc, active := s.integrating,
                       fines := (List.range 66).foldl (fun t k => put [] t k (s.meter k).q) [], core := s.bil.core }
  s.mBil fun y => { y with saveSeq := b.seq, bank0 := if b.seq % 2 = 1 then some b else y.bank0, bank1 := if b.seq % 2 = 0 then some b else y.bank1 }

/-- BILLING_SAVE (R408, R411): at an edge whose tick number is a multiple of 20,000, after what R408 puts before it. -/
def execBillingSave (s : State) : Out := if s.now % 20000 = 0 then .next (s.edgeTariff.evalRate.saveBilling false) else .next s

/-- POWER_FAIL_SAVE (R411): both feeds found LOST, or (`low`) VHOLD, from which the module then runs, below 6.5 V.
(DESIGN CHOICE, unsafe: log 126.) -/
def execPowerFailSave (low : Bool) (s : State) : Out :=
  if !s.rb .pwr .A 0 9 && !s.rb .pwr .A 0 8 && (!low || s.pwr.vhSwitch) then .next (s.saveBilling true) else .next s

/-- The full-scale value of a channel (R370, R412). -/
def State.fullScale (s : State) (c : Nat) : Int :=
  roundDiv ((2 ^ 23 - 1) * 1024 * ((s.metw (0x404 + 0x10 * c)).toNat : Int)) (2 ^ 40) + signed 32 (s.metw (0x408 + 0x10 * c)).toNat

/-- The bound of an unsaved second in mWh (R412). -/
def State.unsavedBound (s : State) (src : Nat) : Nat :=
  if src < 0x30 then (7036874 * 10 + 35) / 36
  else
    let c := 7 * (src - 0x40)
    ((3 * (s.fullScale c).natAbs * (s.fullScale (c + 3)).natAbs) * 10 + 36 * 10 ^ 6 - 1) / (36 * 10 ^ 6)

/-- What was not saved is recorded (R412). -/
def unsaved (u : Int) (s : State) (src : Nat) : State :=
  let b := s.unsavedBound src
  let s := s.metLog 0x20 src none (some ((u % 2 ^ 32).toNat, b))
  s.mCore fun c => { c with sess := Machine.upd none c.sess src fun a => a.map fun x => { x with unsaved := x.unsaved + b, lost := true } }

/-- What the island restores at its start (R375, R412-R414).
(DESIGN CHOICE, unsafe: log 126.) -/
def State.billingRestore (s : State) (ok0 ok1 time : Bool) : State :=
  let s := s.mBil fun b => { b with unknown := !time, starting := false }
  let c0 := if ok0 then s.bil.bank0 else none
  let c1 := if ok1 then s.bil.bank1 else none
  let pick := match c0, c1 with
    | some a, some b => if a.seq < b.seq then some b else some a
    | some a, none => some a
    | none, b => b
  match pick with
  | some b =>
    let s := { s with bil := { s.bil with core := b.core, saveSeq := b.seq }, met := { s.met with src := (List.range 66).foldl (fun t k => Machine.upd {} t k fun m => { m with q := look [] b.fines k }) s.met.src } }
    if b.pf then s else b.active.foldl (unsaved b.utc) s
  | none =>
    if s.bil.bank0.isNone && s.bil.bank1.isNone then s
    else (s.metLog 0x24 0 none none).mBil fun b => { b with dead := true, core := {} }

/-- BILLING_RESTORE (R375, R412-R414), once at a start of the island: `ok0` and `ok1`: the CRC of each bank verifies; `time`: a valid time. The rate is evaluated for it.
(DESIGN CHOICE, unsafe: log 126.) -/
def execBillingRestore (ok0 ok1 time : Bool) (s : State) : Out := if s.bil.starting then .next (s.billingRestore ok0 ok1 time).evalRate else .next s

/-! ### Demand caps (R293) -/

/-- The open demand interval's energy in J, times ten. -/
def State.energyJ10 (s : State) (i : Nat) : Int := ((look {} s.bil.core.ints i).energy * 36 : Nat)

/-- DEMAND_CAP_STAGE (R293): every 20 ticks. LIMIT and FALLBACK are those of the intake's node as the half in charge holds them. -/
def execDemandCapStage (i : Nat) (s : State) : Out :=
  let h := s.charge.getD .A
  if 1 < i ∨ s.now % 20 ≠ 0 then .next s
  else
    let limit : Int := match (List.range 1024).find? fun n => s.rf .cnp h (0x10 * n) 31 29 == 2 && s.rf .cnp h (0x10 * n) 7 0 == i with
      | some n => ((s.rg .cnp h (0x10 * n + 4)).toNat : Nat)
      | none => 0
    let tgt := s.tariff.target i
    let len := s.tariff.len
    let left := (intervalEnd len (s.utc + 1) - s.utc).toNat
    let cap : Int := if tgt = 0 then limit
      else min limit (max (s.fallbackCap h i) (((tgt * len * 10 : Nat) - s.energyJ10 i) / ((max left 10 * 10 : Nat) : Int)))
    .next ((s.stageWrite .A (256 + i) cap).stageWrite .B (256 + i) cap)

/-! ### Registers as points (R397, R398) -/

/-- VIEW and WRAPS of a register (R398). -/
def viewOf (total : Nat) : Nat × Nat := (total / 100 % 2 ^ 32, total / 429496729600 % 2 ^ 16)

/-- The points of one quantity (R397). -/
def State.bilPoints (s : State) (src q : Nat) : State :=
  let base := 0x01600000 + 0x100 * src + 0x20 * (q - 1)
  let g := look {} s.bil.core.regs (src * 256 + q)
  let v := viewOf g.total
  let s := (s.ownerWrite base bilOwner 4 (.int (g.total : Nat))).ownerWrite (base + 17) bilOwner 6 (.bytes (le 4 v.1 ++ le 2 v.2))
  (List.range s.tariff.nrates).foldl (fun s r => s.ownerWrite (base + 1 + r) bilOwner 4 (.int (look 0 g.rates r : Nat))) s

/-- The maximum demands of an intake as points (R397). -/
def State.demandPoints (s : State) (src : Nat) : State :=
  (List.range (s.tariff.nrates + 1)).foldl (fun s r =>
    let d := look (0, 0, 0) s.bil.core.maxd (32 * (src - 0x40) + r)
    s.ownerWrite (0x01600000 + 0x100 * src + 0x80 + r) bilOwner 6 (.bytes (le 4 d.1 ++ leInt 8 d.2.1 ++ [d.2.2]))) s

/-- Every 20 ticks the points are refreshed (R397). -/
def State.refreshBilling (s : State) : State :=
  ((List.range 66).filter s.srcEn).foldl (fun s src =>
    let s := (qtysOf src).foldl (fun s q => s.bilPoints src q) s
    if src < 0x40 then s else s.demandPoints src) s

/-! ### Session accounts and Lomvor records (R415-R417) -/

/-- The registers of a quantity. -/
def State.reg (s : State) (src q : Nat) : RegSet := look {} s.bil.core.regs (src * 256 + q)

/-- The rates 0 to 15 of a register. -/
def rateList (g : RegSet) : List Nat := (List.range 16).map fun r => look 0 g.rates r

/-- The account of a session that has just entered PLUGGED (R415). -/
def State.openAcct (s : State) (k num : Nat) : State :=
  let u := s.utc
  let a : SessAcct := { num := num, tick := s.now, utc := u, ofs := s.tariff.ofs u, totals := [1, 2, 3, 4].map fun q => (s.reg k q).total,
                        deliv := rateList (s.reg k 1), recv := rateList (s.reg k 2), gap := (s.meter k).gap.isSome, err := s.meterErr k, unknown := s.bil.unknown }
  s.mCore fun c => { c with sess := put none c.sess k (some a) }

/-- The remaining credit of a token session in mWh (R424). -/
def State.creditOf (s : State) (k : Nat) (a : SessAcct) : Int :=
  ((a.grants.map (·.1)).sum : Nat) - (((a.grants.map fun g => (s.reg k 1).total - g.2).sum : Nat) : Int)

/-- UTC_S of a tick (R400). -/
def State.utcAt (s : State) (tick : Nat) : Int := (tick / 20000 : Nat) - (s.bil.tai : Int)

/-- The body of a Lomvor record (R415). -/
def State.lomvorBody (s : State) (k : Nat) (a : SessAcct) : List Nat :=
  let c := (s.veh1 k).c
  let u := s.utcAt c.since
  let credit := c.granted == 4
  let flags := b2n c.weld + 2 * b2n a.gap + 4 * b2n a.lost + 8 * b2n (a.err || s.meterErr k) + 16 * b2n a.step + 32 * b2n (a.unknown || s.bil.unknown) + 64 * b2n credit
  let diffs (q : Nat) (l : List Nat) : List Nat := ((rateList (s.reg k q)).zip l).flatMap fun e => le 4 (e.1 - e.2)
  let id := if c.idKind = 3 then (Nat.toDigits 10 a.token).map Char.toNat else if c.idKind = 1 then c.emaid else if c.idKind = 2 then c.evccid else []
  [0x4C, 0x4D, 0x56, 0x52] ++ le 2 1 ++ [1 + 2 * b2n (s.rb .bil .A 0 31), 0] ++ padTo 8 s.lkt.module ++ le 4 s.bil.recno ++ le 4 a.num
    ++ [k, c.reason, flags, c.granted] ++ le 8 a.tick ++ le 8 c.since ++ leInt 8 a.utc ++ leInt 8 u ++ leInt 2 a.ofs ++ leInt 2 (s.tariff.ofs u)
    ++ le 4 s.tariff.id ++ (([1, 2, 3, 4].zip (a.totals ++ [0, 0, 0, 0])).flatMap fun e => le 8 e.2 ++ le 8 (s.reg k e.1).total)
    ++ diffs 1 a.deliv ++ diffs 2 a.recv ++ le 4 a.gapBound ++ le 4 a.unsaved ++ [c.idKind] ++ padTo 23 id
    ++ leInt 4 (if credit then s.creditOf k a else 0) ++ le 4 (s.brec 3).force.check ++ padTo 32 (if s.bil.recno = 0 then [] else sha256 s.bil.lastBody)

/-- The function map names a usable key for a function (R449, R456, R457). -/
def State.fnUsable (s : State) (off : Nat) : Bool := s.rg .lkt .A off != 0xFFFFFFFF && s.functionOk off (s.rg .lkt .A off)

/-- The record signers that SIGS announces are usable (R416, R449); `pq`: ML-DSA-65 too. -/
def State.signerOk (s : State) (pq : Bool) : Bool := s.fnUsable 0x08 && (!pq || s.fnUsable 0x0C)

/-- A body announces ML-DSA-65 (R415). -/
def pqRecord (b : List Nat) : Bool := numAt b 6 1 == 3

/-- A signed record is kept, and stored in chained points (R416, R417). -/
def State.putLomvor (s : State) (n : Nat) (body sigs : List Nat) : State :=
  let pq := pqRecord body
  let b := body ++ padTo (if pq then 3373 else 64) sigs
  let s := s.mBil fun y =>
    let l := y.lomvor ++ [(n, b)]
    { y with lomvor := if 64 < l.length then l.drop 1 else l }
  s.chainWrite bilOwner (if pq then 41 else 5) (0x01200000 + n % 102300 * 41) b

/-- The records held unsigned are signed in RECNO order once a signer is usable (R449); the signatures are free values.
(DESIGN CHOICE, safe: log 101.) -/
def State.signHeld (s : State) : State :=
  match s.bil.held with
  | [] => s
  | e :: t =>
    if !(e :: t).all (fun r => s.signerOk (pqRecord r.2)) then s
    else
      (e :: t).foldl (fun s r =>
        let n := if pqRecord r.2 then 3373 else 64
        (s.putLomvor r.1 r.2 ((List.range n).map fun i => s.freeVal i % 256)).drew n) (s.mBil fun y => { y with held := [] })

/-- The account of output `k`'s last session closes (R415-R417, R423, R449): its record is signed, or held unsigned without a usable signer; USED goes into the ledger
entries of its tokens. -/
def State.closeAcct (s : State) (k : Nat) (sigs : List Nat) : State :=
  match look none s.bil.core.sess k with
  | none => s
  | some a =>
    let body := s.lomvorBody k a
    let n := s.bil.recno
    let used (t : Nat) : Nat := ((s.reg k 1).total - ((a.grants.getD t (0, 0)).2)) % 2 ^ 32
    let fill (e : Nat × List Nat) : Nat × List Nat := match (List.range a.ledger.length).find? fun t => a.ledger.getD t 0 == e.1 with
      | some t => (e.1, e.2.take 36 ++ le 4 (used t))
      | none => e
    let s := s.mBil fun y => { y with recno := n + 1, lastBody := body, ledger := y.ledger.map fill }
    let s := (s.bil.ledger.filter fun e => decide (e.1 ∈ a.ledger)).foldl (fun s e => s.ownerWrite (0x01900000 + e.1 % 2 ^ 20) bilOwner 6 (.bytes e.2)) s
    let s := s.mCore fun c => { c with sess := put none c.sess k none }
    if s.bil.held.isEmpty && s.signerOk (pqRecord body) then s.putLomvor n body sigs else s.mBil fun y => { y with held := y.held ++ [(n, body)] }

/-- LOMVOR_RECORD (R415-R417, R423, R449): the session of output `k` has closed. The signatures come from Locket.
(DESIGN CHOICE, unsafe: log 49. DESIGN CHOICE, safe: log 101.) -/
def execLomvorRecord (k : Nat) (sigs : List Nat) (s : State) : Out :=
  let st := (s.veh1 k).c.st
  if st = 10 ∨ st = 0 then .next (s.closeAcct k sigs) else .next s

/-! ### Legal display and keypad (R419, R420) -/

/-- The items the display shows in turn (R419). -/
def State.dispItems (s : State) : List DispItem :=
  let en := (List.range 66).filter s.srcEn
  (en.flatMap fun src => (qtysOf src).map fun q => .total (src * 256 + q) ((s.reg src q).total / 1000)) ++ [.rate s.bil.rate]
    ++ (en.filter s.meterErr).map .meterErr ++ (en.filter fun src => (s.meter src).gap.isSome).map .gap
    ++ if s.bil.unknown then [.timeUnknown] else []

/-- A hex digit in upper case, as ASCII. -/
def hexDigit (n : Nat) : Nat := if n < 10 then 48 + n else 55 + n

/-- The check value as the display shows it (R419): CHK and the first 8 digits of the island firmware's SHA-256 in two groups. -/
def State.checkText (s : State) : List Nat :=
  let d := (le 4 (s.brec 3).force.check).flatMap fun b => [hexDigit (b / 16), hexDigit (b % 16)]
  [67, 72, 75, 32] ++ d.take 4 ++ [32] ++ d.drop 4

/-- What the display shows now (R419). -/
def State.shown (s : State) : DispItem :=
  let l := s.dispItems
  if s.now < s.bil.ldsp.chk then .check s.checkText else l.getD (s.bil.ldsp.item % l.length) (.rate s.bil.rate)

/-- Change the display. -/
def State.mLdsp (s : State) (f : LdspS → LdspS) : State := s.mBil fun b => { b with ldsp := f b.ldsp }

/-- The next item. -/
def State.nextItem (s : State) : State := s.mLdsp fun l => { l with item := (l.item + 1) % s.dispItems.length, since := s.now }

/-- DISPLAY_DWELL (R419, R425). -/
def execDisplayDwell (s : State) : Out :=
  let l := s.bil.ldsp
  if l.since + 20000 * s.rf .bil .A 0 23 16 ≤ s.now ∧ l.hold ≤ s.now then .next s.nextItem else .next s

/-- KEY_A (R419). -/
def execKeyA (s : State) : Out := .next (s.nextItem.mLdsp fun l => { l with hold := s.now + 600000 })

/-- KEY_B (R420). -/
def execKeyB (s : State) : Out := .next (s.mLdsp fun l => { l with entry := some s.now })

/-- KEY_C (R420). -/
def execKeyC (s : State) : Out := .next (s.mLdsp fun l => { l with entry := none })

/-- KEY_D (R419). -/
def execKeyD (s : State) : Out := .next (s.mLdsp fun l => { l with chk := s.now + 200000 })

/-- TOKEN_ENTRY_TIMEOUT (R420). -/
def execTokenEntryTimeout (s : State) : Out :=
  match s.bil.ldsp.entry with
  | some t => if t + 1200000 ≤ s.now then .next (s.mLdsp fun l => { l with entry := none }) else .next s
  | none => .next s

/-! ### Tokens (R421-R424) -/

/-- The number of twenty digits; none where they are not digits. -/
def tokenNumber (d : List Nat) : Option Nat :=
  if d.length = 20 ∧ d.all (· ≤ 9) then some (d.foldl (fun n x => 10 * n + x) 0) else none

/-- A token's fields (R421): SCOPE, SEQ, credit in mWh; none: refused with FORMAT. -/
def tokenFields (d : List Nat) : Option (Nat × Nat × Nat) :=
  match tokenNumber d with
  | none => none
  | some n =>
    let v := fldN n 33 20
    if 2 ^ 66 ≤ n ∨ fldN n 65 64 ≠ 0 ∨ 4 < fldN v 13 11 then none
    else some (fldN n 63 58, fldN n 57 34, fldN v 10 0 * 10 ^ fldN v 13 11 * 100000)

/-- A session of output `k` that can take a token (R422). -/
def State.tokenSession (s : State) (k : Nat) : Bool :=
  let c := (s.veh1 k).c
  (c.st == 3 && s.pathOn k 4) || (decide (1 ≤ c.st ∧ c.st ≤ 9) && c.granted == 4)

/-- A token's MAC verifies (R421, R449): bits 19:0 of AES-128-CMAC over MODULE and bits 65:20 of the number, under the key the function map names. -/
def State.tokenMac (s : State) (d : List Nat) : Bool :=
  s.fnUsable 0x10 && (match s.keyE (s.rg .lkt .A 0x10).toNat, tokenNumber d with
    | some k, some n => unle ((cmac k.mat (padTo 8 s.lkt.module ++ le 6 (n / 2 ^ 20) ++ [0, 0])).take 4) % 2 ^ 20 == n % 2 ^ 20
    | _, _ => false)

/-- RESULT of an entry (R422, R423); without a usable token key the MAC check fails (R449). -/
def State.tokenResult (s : State) (src out : Nat) (d : List Nat) : Nat :=
  if s.now < (look {} s.bil.keypads src).until_ then 1
  else match tokenFields d with
    | none => 2
    | some (scope, seq, _) =>
      if !s.tokenMac d then 3
      else if scope ≠ 0x3F ∧ scope ≠ out then 4
      else if (match s.bil.high with | some h => decide (seq + 1024 ≤ h) | none => false) then 5
      else if seq ∈ s.bil.spent then 6
      else if !s.tokenSession out then 7 else 0

/-- An accepted token (R422): its SEQ is spent, HIGH rises, the session takes the credit and is authorized. -/
def State.takeToken (s : State) (out seq credit ledger : Nat) : State :=
  let s := s.mBil fun b =>
    let h := match b.high with | some h => max h seq | none => seq
    { b with high := some h, spent := (seq :: b.spent).filter fun x => decide (h < x + 1024) }
  let g := (s.reg out 1).total
  let s := s.mCore fun c => { c with sess := Machine.upd none c.sess out fun a => a.map fun x =>
    { x with grants := x.grants ++ [(credit, g)], token := seq, ledger := x.ledger ++ [ledger] } }
  let s := if (s.veh1 out).c.st = 3 then s.mC out fun c => { c with idKind := 3 } else s
  (s.mC out fun c => { c with credit := (look none s.bil.core.sess out).map (s.creditOf out) }).grantAuth out 4

/-- A completed token from keypad `src` for output `out` (R422, R423). -/
def State.tokenEntry (s : State) (src out : Nat) (d : List Nat) : State :=
  let res := s.tokenResult src out d
  let f := (tokenFields d).getD (0, 0, 0)
  let n := s.bil.ledgerN
  let num := (s.veh1 out).c.num
  let b := le 4 f.2.1 ++ [res, src, out, 0] ++ le 8 f.2.2 ++ le 8 s.now ++ leInt 8 s.utc ++ le 4 num ++ le 4 0
  let s := s.mBil fun y => { y with ledger := y.ledger ++ [(n, b)], ledgerN := n + 1 }
  let s := (s.ownerWrite (0x01900000 + n % 2 ^ 20) bilOwner 6 (.bytes b)).metLog 0x23 src none none
  if res = 0 then s.takeToken out f.2.1 f.2.2 n
  else if res = 1 then s
  else
    let k := look {} s.bil.keypads src
    let fs := (k.fails.filter fun t => decide (s.now < t + 12000000)) ++ [s.now]
    let k' : KeypadS := if 5 ≤ fs.length then { fails := [], until_ := s.now + 12000000 } else { k with fails := fs }
    s.mBil fun y => { y with keypads := put {} y.keypads src k' }

/-- TOKEN_ENTRY (R420-R423, R425): a token completed on the island keypad within 60 s of key B.
(DESIGN CHOICE, unsafe: log 51.) -/
def execTokenEntry (out : Nat) (d : List Nat) (s : State) : Out :=
  if !(match s.bil.ldsp.entry with | some t => decide (s.now < t + 1200000) | none => false) || !s.rb .bil .A 0 30 || decide (48 ≤ out) then .next (s.mLdsp fun l => { l with entry := none })
  else .next ((s.mLdsp fun l => { l with entry := none }).tokenEntry 0x80 out d)

/-- KEYPAD (R422, R423): the oldest KEYPAD message of a port, used only where AUTH is 1; a repeat of output and KSEQ within 10 s is discarded. -/
def execKeypad (h : Half) (p : Nat) (s : State) : Out :=
  match s.takeMsg h p 0x43 (fun m => m.headD 0 == 6) with
  | none => .next s
  | some (m, s) =>
    let out := p - 32
    let kseq := numAt m 2 2
    let last := look (0, 0) s.bil.kseq out
    if p < 32 || decide (80 ≤ p) || !s.rb .nlk h (p * 0x40) 30 || !s.rb .bil .A 0 30 then .next s
    else if last.1 = kseq + 1 ∧ s.now < last.2 + 200000 then .next s
    else .next ((s.mBil fun b => { b with kseq := put (0, 0) b.kseq out (kseq + 1, s.now) }).tokenEntry out out
      ((bytesAt m 4 20).map fun c => if c < 48 then 10 else c - 48))

/-- KEYPAD_LOCKOUT_END (R422). -/
def execKeypadLockoutEnd (src : Nat) (s : State) : Out :=
  let k := look {} s.bil.keypads src
  if k.until_ ≤ s.now then .next (s.mBil fun b => { b with keypads := put {} b.keypads src { k with until_ := 0 } }) else .next s

/-- The credit current limit of R424 in mA. -/
def creditLimit (c : Int) (v : Int) : Int := if v ≤ 0 then 0 else c * 30000 / v

/-- CREDIT_REPORT (R424): every 20 ticks, for a session authorized by token.
(DESIGN CHOICE, unsafe: log 51.) -/
def execCreditReport (k : Nat) (s : State) : Out :=
  match look none s.bil.core.sess k with
  | none => .next s
  | some a =>
    if (s.veh1 k).c.granted ≠ 4 ∨ s.now % 20 ≠ 0 then .next s
    else
      let c := s.creditOf k a
      let s := s.mC k fun v => { v with credit := some c }
      let v := s.outVolt (s.charge.getD .A) k
      .next (if c ≤ 0 ∨ creditLimit c v < 10000 then s.tellStop k 0x0C else s)

/-! ### Verbs (R426, R427) -/

/-- BIL_READ (R398, R426). -/
def execBilRead (o : Org) (src q : Nat) (s : State) : Out :=
  .next (s.verb o 0x0B01 rAny fun s x _ =>
    if !s.srcEn src then s.complete o x 0x0B01 0x0A03 true []
    else if q ∉ qtysOf src then s.complete o x 0x0B01 stRange true []
    else
      let g := s.reg src q
      let v := viewOf g.total
      s.complete o x 0x0B01 stOk true
        (le 8 s.now ++ le 8 g.total ++ le 4 v.1 ++ le 2 v.2 ++ [s.bil.rate, s.tariff.nrates] ++ (rateList g).flatMap (le 8)))

/-- BIL_PERIOD_READ (R426). -/
def execBilPeriodRead (o : Org) (n : Nat) (s : State) : Out :=
  .next (s.verb o 0x0B05 [rOperator, rBilling, rLegal] fun s x _ =>
    match s.bil.periods.find? fun e => e.1 == n with
    | some e => s.complete o x 0x0B05 stOk true e.2
    | none => s.complete o x 0x0B05 0x0B03 true [])

/-- BIL_INTERVAL_READ (R426): records from the first END_UTC on. -/
def execBilIntervalRead (o : Org) (i : Nat) (first : Int) (count : Nat) (s : State) : Out :=
  .next (s.verb o 0x0B06 [rOperator, rBilling, rInstaller, rLegal] fun s x _ =>
    if 1 < i ∨ count = 0 ∨ 1024 < count then s.complete o x 0x0B06 stRange true []
    else if !s.srcEn (0x40 + i) then s.complete o x 0x0B06 0x0A03 true []
    else
      let l := ((if i = 0 then s.bil.recs0 else s.bil.recs1).filter fun e => decide (first ≤ e.1)).take count
      if l.isEmpty then s.complete o x 0x0B06 0x0B03 true [] else s.complete o x 0x0B06 stOk true (l.flatMap (·.2)))

/-- BIL_RECORD_READ (R426). -/
def execBilRecordRead (o : Org) (n : Nat) (s : State) : Out :=
  .next (s.verb o 0x0B07 [rOperator, rBilling, rLegal] fun s x _ =>
    match s.bil.lomvor.find? fun e => e.1 == n with
    | some e => s.complete o x 0x0B07 stOk true e.2
    | none => s.complete o x 0x0B07 0x0B03 true [])

/-- BIL_LEDGER_READ (R426). -/
def execBilLedgerRead (o : Org) (first count : Nat) (s : State) : Out :=
  .next (s.verb o 0x0B08 [rOperator, rBilling, rLegal] fun s x _ =>
    if count = 0 ∨ 256 < count then s.complete o x 0x0B08 stRange true []
    else
      let l := (s.bil.ledger.filter fun e => decide (first ≤ e.1)).take count
      if l.isEmpty then s.complete o x 0x0B08 0x0B03 true [] else s.complete o x 0x0B08 stOk true (l.flatMap (·.2)))

end Sys2Proof.Machine
end

