-- ==== Sys2Proof/Machine/Island.lean ====
section
/-!
DEFINITION. The safety island (spec 14): zones, input and output pairs, demands, removal, resets, Harvitor connections. Its times are counted in
ticks of the half in charge.
-/

namespace Sys2Proof.Machine

/-- A word of the SAF_ block in force. -/
def State.sw (s : State) (off : Nat) : Word := s.rg .saf .A off

/-- Change the safety island. -/
def State.mSaf (s : State) (f : SafS → SafS) : State := { s with saf := f s.saf }

/-- Zone `z`, pair `n`, connection `n`, and their changes. -/
def State.zone (s : State) (z : Nat) : ZoneS := look {} s.saf.zones z
def State.mZone (s : State) (z : Nat) (f : ZoneS → ZoneS) : State := s.mSaf fun x => { x with zones := Machine.upd {} x.zones z f }
def State.inPair (s : State) (n : Nat) : InPair := look {} s.saf.ins n
def State.mIn (s : State) (n : Nat) (f : InPair → InPair) : State := s.mSaf fun x => { x with ins := Machine.upd {} x.ins n f }
def State.outPair (s : State) (n : Nat) : OutPair := look {} s.saf.outs n
def State.mOutPair (s : State) (n : Nat) (f : OutPair → OutPair) : State := s.mSaf fun x => { x with outs := Machine.upd {} x.outs n f }
def State.conn (s : State) (n : Nat) : ConnS := look {} s.saf.conns n
def State.mConn (s : State) (n : Nat) (f : ConnS → ConnS) : State := s.mSaf fun x => { x with conns := Machine.upd {} x.conns n f }

/-- Set a W1C bit of SAF_STATUS (R494). -/
def State.safBit (s : State) (i : Nat) : State := s.srf .saf .A 0xB08 i i 1

/-! ### What the configuration says (R488-R492) -/

def State.zoneEn (s : State) (z : Nat) : Bool := decide (z < 8) && bitAt (s.sw (0x80 + 0x10 * z)) 31
def State.zoneTrig (s : State) (z : Nat) : Nat := fld (s.sw (0x84 + 0x10 * z)) 15 0
def State.zoneCabs (s : State) (z : Nat) : Nat := (s.sw (0x88 + 0x10 * z)).toNat
def State.zoneOuts (s : State) (z : Nat) : Nat := fld (s.sw (0x84 + 0x10 * z)) 31 16 * 2 ^ 32 + (s.sw (0x8C + 0x10 * z)).toNat
def State.zoneStop (s : State) (z : Nat) : Nat := 20 * fld (s.sw (0x80 + 0x10 * z)) 19 12
def State.connEn (s : State) (n : Nat) : Bool := bitAt (s.sw (0x200 + 0x10 * n)) 31
def State.connZones (s : State) (n : Nat) : Nat := fld (s.sw (0x200 + 0x10 * n)) 23 16
def State.soEn (s : State) (n : Nat) : Bool := bitAt (s.sw (0x40 + 4 * n)) 31
def State.soZones (s : State) (n : Nat) : Nat := fld (s.sw (0x40 + 4 * n)) 23 16
def State.fbkEn (s : State) (n : Nat) : Bool := bitAt (s.sw (0x40 + 4 * n)) 29

/-- The zones of a mask. -/
def zonesOf (mask : Nat) : List Nat := (List.range 8).filter fun z => mask.testBit z

/-- A zone keeps energy: RUN or STOPPING. -/
def State.zoneHolds (s : State) (z : Nat) : Bool := let t := (s.zone z).st; t == 1 || t == 2

/-- Both channels run (R464, R465). -/
def State.islandUp (s : State) : Bool := s.saf.spOk && s.saf.hwOk

/-- PERMIT of a cabinet, of an output, of a generic connection (R466); the last by the zones it names (DEDUCED). -/
def State.permitOver (s : State) (sel : Nat → Bool) : Bool :=
  let zs := (List.range 8).filter fun z => s.zoneEn z && sel z
  !zs.isEmpty && zs.all s.zoneHolds
def State.permitCab (s : State) (c : Nat) : Bool := s.permitOver fun z => (s.zoneCabs z).testBit c
def State.permitOut (s : State) (k : Nat) : Bool := s.permitOver fun z => (s.zoneOuts z).testBit k

/-- PERMIT of a generic connection follows the zones its record names.
(DEDUCED, unsafe: log 39.) -/
def State.permitGen (s : State) (n : Nat) : Bool := s.permitOver fun z => (s.connZones n).testBit z

/-- STOPPING of a cabinet and of an output. -/
def State.stopCab (s : State) (c : Nat) : Bool :=
  (List.range 8).any fun z => s.zoneEn z && (s.zoneCabs z).testBit c && (s.zone z).st == 2
def State.stopOut (s : State) (k : Nat) : Bool :=
  (List.range 8).any fun z => s.zoneEn z && (s.zoneOuts z).testBit k && (s.zone z).st == 2

/-! ### Zones and output pairs (R466, R467, R473) -/

/-- A zone enters a state: logged (R495). -/
def State.setZone (s : State) (z st cause detail : Nat) : State :=
  (s.mZone z fun x => { x with st := st, cause := cause, detail := detail, since := s.now, above := [], low := [], resetAt := none }).safLog 0x40 z

/-- Whether pair `n` is to be energized (R466). -/
def State.pairWanted (s : State) (n : Nat) : Bool :=
  let p := s.outPair n
  s.soEn n && s.soZones n != 0 && (zonesOf (s.soZones n)).all (fun z => s.zoneEn z && s.zoneHolds z) && !p.tpFault && !p.weld && s.islandUp

/-- A pair is switched off. -/
def State.pairOff (s : State) (n : Nat) : State :=
  if (s.outPair n).on then s.mOutPair n fun p => { p with on := false, cmdTick := s.now, followed := !s.fbkEn n } else s

/-- The pole of contactor `n`, and connection `n`, as the source of a fault; a number below 0x100 is an input or output pair. -/
def poleSrc (n : Nat) : Nat := 0x400 + n
def connSrc (n : Nat) : Nat := 0x100 + n

/-- DETAIL of a fault's source (R495): the pair, the connection, or the connection of the pole's cabinet. -/
def State.srcDetail (s : State) (src : Nat) : Nat :=
  if src < 0x100 then src
  else if src < 0x400 then src - 0x100
  else s.rf .cnp (s.charge.getD .A) (0x5000 + 4 * (src - 0x400)) 20 16

/-- Zone `z` goes to FAULT, removing energy at once (R467). Each cause is kept with its source until the fault is cleared. -/
def State.faultZone (s : State) (z cause src : Nat) : State :=
  let s := if (s.zone z).st = 3 then s else s.setZone z 3 cause (s.srcDetail src)
  let s := s.mZone z fun x => { x with faults := if (cause, src) ∈ x.faults then x.faults else x.faults ++ [(cause, src)] }
  (List.range 8).foldl (fun s n => if (s.soZones n).testBit z then s.pairOff n else s) s

/-- Removal (R475): the zone enters REMOVED and every pair whose ZONES name it is switched off. -/
def State.removeZone (s : State) (z cause detail : Nat) : State :=
  let s := s.setZone z 0 cause detail
  (List.range 8).foldl (fun s n => if (s.soZones n).testBit z then s.pairOff n else s) s

/-- A demand on a zone (R467, R468, R474): CAT 1 goes to STOPPING and records I0, CAT 0 removes at once. -/
def State.demandZone (s : State) (z cause detail : Nat) : State :=
  if s.zoneEn z && (s.zone z).st == 1 then
    if bitAt (s.sw (0x80 + 0x10 * z)) 30 then
      let i0 := ((List.range 48).filter fun k => (s.zoneOuts z).testBit k).foldl (fun t k => put 0 t k (numAt (s.conn (32 + k)).he.data 2 2)) []
      (s.setZone z 2 cause detail).mZone z fun x => { x with start := s.now, i0 := i0 }
    else s.removeZone z cause detail
  else s

/-- A demand on every zone of a mask. -/
def State.demandZones (s : State) (mask cause detail : Nat) : State := (zonesOf mask).foldl (fun s z => s.demandZone z cause detail) s

/-- A fault of every zone of a list. -/
def State.faultZones (s : State) (zs : List Nat) (cause src : Nat) : State :=
  (zs.filter s.zoneEn).foldl (fun s z => s.faultZone z cause src) s

/-- A weld (R473): WELD, FAULT, and a demand on WELD_Z where WELD_EN is 1. -/
def State.weldZones (s : State) (zs : List Nat) (src : Nat) : State :=
  let detail := s.srcDetail src
  let s := (s.safBit 23).safLog 0x43 detail
  let s := s.faultZones zs 6 src
  zs.foldl (fun s z =>
    if s.zoneEn z && bitAt (s.sw (0x80 + 0x10 * z)) 28 then s.demandZone (fld (s.sw (0x80 + 0x10 * z)) 27 25) 6 detail else s) s

/-- The zones of a matrix pole: those of its cabinet or its output. -/
def State.poleZones (s : State) (n : Nat) : List Nat :=
  let w := s.rg .cnp (s.charge.getD .A) (0x5000 + 4 * n)
  (List.range 8).filter fun z => (s.zoneCabs z).testBit (fld w 20 16) || (s.zoneOuts z).testBit (fld w 5 0)

/-- The pairs that may be energized are, unless FBK reads a weld (R466, R473). -/
def State.energize (s : State) : State :=
  (List.range 8).foldl (fun s n =>
    if s.pairWanted n && !(s.outPair n).on then
      if s.fbkEn n && !(s.outPair n).fbk then (s.mOutPair n fun p => { p with weld := true }).weldZones (zonesOf (s.soZones n)) n
      else s.mOutPair n fun p => { p with on := true, cmdTick := s.now, followed := !s.fbkEn n }
    else s) s

/-! ### Inputs (R470, R477) -/

/-- A pin pair takes a sample (R470). -/
def InPair.sample (p : InPair) (now filt : Nat) (a b : Bool) : InPair :=
  let ta := if a = p.la then p.ta else now
  let tb := if b = p.lb then p.tb else now
  let fa := if ta + 20 * filt ≤ now then some a else p.fa
  let fb := if tb + 20 * filt ≤ now then some b else p.fb
  let eq := fa.isSome && fa == fb
  let run := fa == some true && fb == some false && !p.disc
  { p with la := a, lb := b, ta := ta, tb := tb, fa := fa, fb := fb,
           eq := if eq then (match p.eq with | some t => some t | none => some now) else none,
           run := if run then (match p.run with | some t => some t | none => some now) else none, ran := p.ran || run }

/-- The pair is in DEMAND (R470): A low and B high, until it has first been in RUN, and while it is discrepant. -/
def InPair.demanded (p : InPair) : Bool := p.disc || (!p.ran && p.run.isNone) || (p.fa == some false && p.fb == some true)

/-- A pair at island start, or newly enabled, at tick `now` (R470): each pin counts as at its DEMAND level.
(DESIGN CHOICE, unsafe: log 37.) -/
def startPair (now : Nat) : InPair := { la := false, lb := true, ta := now, tb := now, press := some now }

/-- A press or a release of a reset source (R477): (press, length of the press that ended now, jammed, released since). -/
def pressStep (now : Nat) (down : Bool) (press : Option Nat) (jammed : Bool) (free : Option Nat) : Option Nat × Option Nat × Bool × Option Nat :=
  match down, press with
  | true, none =>
    if jammed then
      match free with
      | some t => if t + 2000 ≤ now then (some now, none, false, none) else (none, none, true, none)
      | none => (none, none, true, none)
    else (some now, none, false, none)
  | false, some t => if jammed then (none, none, true, some now) else (none, some (now - t), false, none)
  | false, none => (none, none, jammed, if jammed then (match free with | some t => some t | none => some now) else none)
  | true, some t => (some t, none, jammed, none)

/-- One pair's sample: a demand pair out of RUN demands the zones that name it; a reset pair is timed. -/
def samplePair (a b : Nat) (s : State) (n : Nat) : State :=
  let w := s.sw (4 * n)
  if !bitAt w 31 then s
  else
    let p := (s.inPair n).sample s.now (fld w 23 16) (a.testBit n) (b.testBit n)
    if bitAt w 30 then
      let r := pressStep s.now p.demanded p.press p.jammed p.free
      s.mIn n fun _ => { p with press := r.1, len := r.2.1, jammed := r.2.2.1, free := r.2.2.2 }
    else
      let s := s.mIn n fun _ => p
      if p.run.isSome then s
      else (List.range 8).foldl (fun s z => if (s.zoneTrig z).testBit n then s.demandZone z 1 n else s) s

/-- SAFETY_INPUT_SAMPLE (R462, R468, R470): the pin levels of SI0 to SI15, side A and side B.
(DESIGN CHOICE, unsafe: log 37.) -/
def execSafetyInputSample (a b : Nat) (s : State) : Out := .next ((List.range 16).foldl (samplePair a b) s)

/-- SAFETY_DISCREPANCY (R470): equal filtered levels for longer than DISC_T. -/
def execSafetyDiscrepancy (n : Nat) (s : State) : Out :=
  let w := s.sw (4 * n)
  match (s.inPair n).eq with
  | none => .next s
  | some t =>
    if bitAt w 31 && !(s.inPair n).disc && decide (t + 20 * fld w 15 0 < s.now) then
      let s := ((s.mIn n fun p => { p with disc := true, run := none }).safBit 25).safLog 0x41 n
      .next (s.faultZones ((List.range 8).filter fun z =>
        (s.zoneTrig z).testBit n || (bitAt w 30 && fld (s.sw (0x80 + 0x10 * z)) 23 20 == n)) 8 n)
    else .next s

/-! ### Channels (R462-R465) -/

/-- CHANNEL_COMPARE (R464): `pdus` are the connections whose next PDU differs; it is suppressed for the tick. -/
def execChannelCompare (differ : Bool) (pdus : List Nat) (s : State) : Out :=
  let bad := differ || !pdus.isEmpty
  let n := if bad then s.saf.diff + 1 else 0
  let s := s.mSaf fun x => { x with diff := n, conns := (List.range 128).foldl (fun t i => Machine.upd {} t i fun c => { c with supp := decide (i ∈ pdus) }) x.conns }
  if 2 ≤ n then
    let s := (s.mSaf fun x => { x with safeFault := true }).safBit 28
    let s := if n = 2 then s.safLog 0x44 0 else s
    .next (s.faultZones (List.range 8) 7 0)
  else .next s

/-- The island starts, or starts again (R465, R467, R481): zones REMOVED, pairs off, SAF_STATUS at its reset value, connections and inputs anew; its
firmware bank is chosen again (R608). -/
def State.islandStart (s : State) : State :=
  let on (n : Nat) : Bool := (s.outPair n).on
  ((s.partStart 2).srg .saf .A 0xB08 0).mSaf fun x =>
    { x with zones := (List.range 8).foldl (fun t z => put {} t z { since := s.now }) [],
             ins := (List.range 16).foldl (fun t n => put {} t n (startPair s.now)) [],
             outs := (List.range 8).foldl (fun t n => Machine.upd {} t n fun p =>
               { fbk := p.fbk, cmdTick := if on n then s.now else p.cmdTick, followed := if on n then !s.fbkEn n else p.followed }) x.outs,
             conns := [], poleCmd := [], diff := 0, built := none, safeFault := false, spOk := false, hwOk := false }

/-- SAFETY_CONFIG_CRC_CHECK (R462, R465): each channel checks its copy; a failure resets the island. -/
def execSafetyConfigCrcCheck (sp hw : Bool) (s : State) : Out :=
  if !s.pwr.up then .next s
  else if sp && hw then .next (s.mSaf fun x => { x with spOk := true, hwOk := true }) else .next s.islandStart

/-- ISLAND_INTERNAL_RESET (R465). -/
def execIslandInternalReset (s : State) : Out := .next s.islandStart

/-! ### Output tests and feedback (R471-R473, R476) -/

/-- SAFETY_TEST_PULSE (R471, R472): the readback of one switch of pair `n`. A switch that is on with TP_EN 0 has no test pulse, so a good readback of it
leaves no mark; a readback that fails is a fault whatever the switch is doing. -/
def execSafetyTestPulse (n : Nat) (low pass : Bool) (s : State) : Out :=
  if 8 ≤ n then .next s
  else if pass then
    if (s.outPair n).on && !bitAt (s.sw (0x40 + 4 * n)) 30 then .next s
    else .next (s.mOutPair n fun p => if low then { p with tpL := s.now, badL := false } else { p with tpH := s.now, badH := false })
  else
    let s := (((s.pairOff n).mOutPair n fun p =>
      if low then { p with tpFault := true, badL := true } else { p with tpFault := true, badH := true }).safBit 24).safLog 0x42 n
    .next (s.faultZones (zonesOf (s.soZones n)) 9 n)

/-- CONTACTOR_FEEDBACK_CHANGE (R473): pair `n`'s FBK, or the feedback of pole `g` of contactor `n`, is now open or closed. A change not commanded is a fault.
(DESIGN CHOICE, safe: log 40.) -/
def execContactorFeedbackChange (n : Nat) (g : Option Nat) (isOpen : Bool) (s : State) : Out :=
  match g with
  | none =>
    let p := s.outPair n
    let ok := isOpen != p.on
    let s1 := s.mOutPair n fun p => { p with fbk := isOpen, followed := p.followed || ok }
    if s.fbkEn n && !ok && p.followed then .next (s1.faultZones (zonesOf (s.soZones n)) 9 n) else .next s1
  | some g =>
    let commanded := (look 0 s.saf.poleCmd n).testBit g
    if commanded != isOpen then .next s else .next (s.faultZones (s.poleZones n) 9 (poleSrc n))

/-- FEEDBACK_TIMEOUT (R473): the feedback has not followed within FBK_T: a weld where it stays closed, else a fault.
(DESIGN CHOICE, safe: log 40.) -/
def execFeedbackTimeout (n : Nat) (g : Option Nat) (s : State) : Out :=
  match g with
  | none =>
    let p := s.outPair n
    if s.fbkEn n && !p.followed && decide (p.cmdTick + 200 * fld (s.sw (0x40 + 4 * n)) 7 0 ≤ s.now) then
      if p.on then .next (s.faultZones (zonesOf (s.soZones n)) 9 n)
      else if !p.fbk then .next ((s.mOutPair n fun p => { p with weld := true }).weldZones (zonesOf (s.soZones n)) n)
      else .next s
    else .next s
  | some g =>
    let commanded := (look 0 s.saf.poleCmd n).testBit g
    let closed := (look 0 s.saf.poleFb n).testBit g
    if commanded = closed then .next s
    else if closed then .next (s.weldZones (s.poleZones n) (poleSrc n))
    else .next (s.faultZones (s.poleZones n) 9 (poleSrc n))

/-- STO_TIMEOUT (R476): the dispenser of output `k` has not reported STO_ACTIVE.
(DESIGN CHOICE, safe: log 40. DESIGN CHOICE, unsafe: log 41.) -/
def execStoTimeout (k : Nat) (s : State) : Out :=
  let c := s.conn (32 + k)
  if c.sto.isSome && !(numAt c.he.data 0 1).testBit 3 then
    .next (s.faultZones ((List.range 8).filter fun z => (s.zoneOuts z).testBit k) 9 (connSrc (32 + k)))
  else .next s

/-! ### Demands and removal (R467, R468, R474, R475) -/

/-- DEMAND_OK of connection `n` (R483): bit 1 of a cabinet or a dispenser, bit 0 of a generic peer. -/
def State.demandOk (s : State) (n : Nat) : Bool :=
  (numAt (s.conn n).he.data 0 1).testBit (if fld (s.sw (0x200 + 0x10 * n)) 28 27 = 2 then 0 else 1)

/-- A cause of R468 that holds for zone `z` now. -/
def State.demandNow (s : State) (z : Nat) : Option (Nat × Nat) :=
  match (List.range 16).find? (fun n => (s.zoneTrig z).testBit n && (s.inPair n).run.isNone) with
  | some n => some (1, n)
  | none =>
    match (List.range 128).find? (fun n => s.connEn n && (s.connZones n).testBit z && (!(s.conn n).he.service || !s.demandOk n)) with
    | some n => some (if (s.conn n).he.service then 3 else 2, n)
    | none => if s.therm.stop.isSome then some (0xB, 0) else none

/-- ZONE_DEMAND (R467, R468, R475).
(DESIGN CHOICE, unsafe: log 41.) -/
def execZoneDemand (z : Nat) (s : State) : Out :=
  match s.demandNow z with
  | some (c, d) => .next (s.demandZone z c d)
  | none => .next s

/-- ENVELOPE_VIOLATION (R474). -/
def execEnvelopeViolation (z : Nat) (s : State) : Out :=
  match (s.zone z).above.find? (fun e => decide (2 ≤ e.2)) with
  | some e => if (s.zone z).st = 2 then .next ((s.safBit 22).removeZone z 5 (32 + e.1)) else .next s
  | none => .next s

/-- The connections of a zone's outputs and cabinets. -/
def State.zoneConns (s : State) (z : Nat) : List Nat :=
  ((List.range 32).filter fun c => (s.zoneCabs z).testBit c) ++ ((List.range 48).filter fun k => (s.zoneOuts z).testBit k).map (· + 32)

/-- ENERGY_REMOVAL (R475): 4 accepted samples in a row below 5 A at every output and cabinet. -/
def execEnergyRemoval (z : Nat) (s : State) : Out :=
  let x := s.zone z
  if x.st = 2 ∧ (s.zoneConns z).all (fun n => decide (4 ≤ look 0 x.low n)) then .next (s.removeZone z x.cause x.detail) else .next s

/-- SAFE_STOP_TIMEOUT (R475). -/
def execSafeStopTimeout (z : Nat) (s : State) : Out :=
  let x := s.zone z
  if x.st = 2 ∧ x.start + s.zoneStop z ≤ s.now then .next (s.removeZone z x.cause x.detail) else .next s

/-! ### Resets (R477, R478) -/

/-- A reset source by number: 0 to 15 an input pair, 0x100 + n connection n: its press, last length and RESET_JAMMED. -/
def State.resetSrc (s : State) (src : Nat) : Option Nat × Option Nat × Bool :=
  if src < 16 then let p := s.inPair src; (p.press, p.len, p.jammed)
  else let c := s.conn (src - 0x100); (c.press, c.len, c.jammed)

/-- The zones a source resets. -/
def State.resetZones (s : State) (src : Nat) : List Nat :=
  if src < 16 then (List.range 8).filter fun z => s.zoneEn z && fld (s.sw (0x80 + 0x10 * z)) 23 20 == src
  else zonesOf (s.connZones (src - 0x100))

/-- RESET_PULSE (R477): accepted from 100 ms to 2 s; shorter is ignored, longer sets RESET_HELD. -/
def execResetPulse (src : Nat) (s : State) : Out :=
  match (s.resetSrc src).2.1 with
  | none => .next s
  | some n =>
    let s := if src < 16 then s.mIn src fun p => { p with len := none } else s.mConn (src - 0x100) fun c => { c with len := none }
    if n < 2000 then .next s
    else if n ≤ 40000 then .next ((s.resetZones src).foldl (fun s z => s.mZone z fun x => { x with resetAt := some s.now }) s)
    else .next ((s.safBit 27).safLog 0x45 (src % 256))

/-- RESET_JAMMED (R477): pressed for more than 30 s. -/
def execResetJammed (src : Nat) (s : State) : Out :=
  match s.resetSrc src with
  | (some t, _, false) =>
    if t + 600000 < s.now then
      let s := if src < 16 then s.mIn src fun p => { p with jammed := true } else s.mConn (src - 0x100) fun c => { c with jammed := true }
      .next ((s.safBit 26).safLog 0x45 (src % 256))
    else .next s
  | _ => .next s

/-- The start conditions of R478. -/
def State.startOk (s : State) (z : Nat) : Bool :=
  (List.range 16).all (fun n => !(s.zoneTrig z).testBit n || (match (s.inPair n).run with | some t => decide (t + 2000 ≤ s.now) | none => false))
    && (List.range 128).all (fun n => !s.connEn n || !(s.connZones n).testBit z || ((s.conn n).he.service && s.demandOk n))

/-- ZONE_RESET (R478): an accepted reset, or AUTO_START, moves a REMOVED zone to RUN. -/
def execZoneReset (z : Nat) (s : State) : Out :=
  let x := s.zone z
  if s.zoneEn z && x.st == 0 && (x.resetAt == some s.now || bitAt (s.sw (0x80 + 0x10 * z)) 29) && s.startOk z && s.islandUp then
    .next ((s.setZone z 1 0 0).energize)
  else .next s

/-! ### What the island delivers and sends (R469, R483, R485) -/

/-- The bit mask of those of the first `n` numbers that hold. -/
def maskOf (n : Nat) (p : Nat → Bool) : Nat := ((List.range n).map fun i => if p i then 2 ^ i else 0).sum

/-- SAFETY_STATE_DELIVERY (R466, R469, R294): PERMIT, STOPPING and pole feedback reach both halves.
(DESIGN CHOICE, unsafe: log 42.) -/
def execSafetyStateDelivery (s : State) : Out :=
  let v : SafView := { permCab := maskOf 32 s.permitCab, stopCab := maskOf 32 s.stopCab, permOut := maskOf 48 s.permitOut, stopOut := maskOf 48 s.stopOut }
  let s := s.mBoth fun x => { x with saf := v }
  .next ([Half.A, .B].foldl (fun s h => (List.range 512).foldl (fun s n =>
    if s.rf .cnp h (0x5000 + 4 * n) 15 12 = look 0 s.saf.poleFb n then s else s.srf .cnp h (0x5000 + 4 * n) 15 12 (look 0 s.saf.poleFb n)) s) s)

/-- The enabled contactors of a cabinet in ascending number: the position is the rank (R483). -/
def State.ranks (s : State) (c : Nat) : List Nat :=
  (List.range 512).filter fun n =>
    let w := s.rg .cnp (s.charge.getD .A) (0x5000 + 4 * n)
    bitAt w 31 && fld w 20 16 == c

/-- The pole bits of a page: 4 per rank. -/
def State.pageBits (s : State) (c page : Nat) : Nat :=
  (((s.ranks c).take 16).drop (8 * page) |>.take 8).foldr (fun n acc => look 0 s.saf.poleCmd n % 16 + 16 * acc) 0

/-- The poles wanted of contactor `n` (R483): those delivered, 0 where its cabinet or output lacks PERMIT, it is not enabled or its rank is 16 or above. -/
def State.polesWanted (s : State) (n : Nat) : Nat :=
  let w := s.rg .cnp (s.charge.getD .A) (0x5000 + 4 * n)
  if bitAt w 31 && s.permitCab (fld w 20 16) && s.permitOut (fld w 5 0) && decide (n ∈ (s.ranks (fld w 20 16)).take 16)
  then look 0 s.saf.pole n % 16 else 0

/-- The poles to be closed now that are fed back closed already: they are not closed, and are welds (R473). -/
def State.polesStuck (s : State) (n : Nat) : Nat :=
  (s.polesWanted n &&& look 0 s.saf.poleFb n) &&& (15 - (look 0 s.saf.poleCmd n &&& 15))

/-- The pole commands of a tick (R473, R483). -/
def State.forcePoles (s : State) : State :=
  let ns := (List.range 512).filter fun n => s.polesStuck n != 0
  let t := s.mSaf fun x => { x with poleCmd := (List.range 512).foldl (fun t n => put 0 t n (s.polesWanted n - s.polesStuck n)) [] }
  ns.foldl (fun t n => t.weldZones (s.poleZones n) (poleSrc n)) t

/-- DATA of the downlink PDU of connection `n` (R483). -/
def State.downData (s : State) (n : Nat) : List Nat :=
  match fld (s.sw (0x200 + 0x10 * n)) 28 27 with
  | 0 =>
    let page := if 8 < (s.ranks n).length then (s.conn n).he.hseq % 2 else 0
    [b2n (s.permitCab n) + 2 * b2n (s.stopCab n), page] ++ le 4 (s.pageBits n page) ++ [0, 0]
  | 1 =>
    let k := n - 32
    [b2n (s.permitOut k) + 2 * b2n (s.stopOut k) + 4 * b2n (!s.permitOut k), 0, 0, 0, 0, 0, 0, 0]
  | _ => [b2n (s.permitGen n), 0, 0, 0, 0, 0, 0, 0]

/-- One PDU of the island is built and sent; both channels must have produced it (R464). -/
def State.sendPdu (s : State) (n : Nat) (ext : Bool) : State :=
  let c := s.conn n
  if !s.islandUp || c.supp then s.mConn n fun c => { c with pdu := [], supp := false }
  else
    let f := if ext then extendedPdu else compactPdu
    let sto := !ext && decide (32 ≤ n) && !s.permitOut (n - 32)
    s.mConn n fun c =>
      { c with pdu := f (s.connCid n) (s.connTexp n) c.he.hseq c.he.echoOut (s.downData n), he := c.he.send s.now (s.connTexp n), sentTick := s.now,
               sto := if sto then (match c.sto with | some t => some t | none => some s.now) else none }

/-- The envelope of R474 at an output of a stopping zone: the ticks in a row above it. -/
def envelopeStep (s : State) (z : Nat) (x : ZoneS) (k : Nat) : Nat :=
  let c := s.conn (32 + k)
  let t := s.now - x.start
  let stop := s.zoneStop z
  let i := numAt c.he.data 2 2
  let m := fld (s.sw 0xA00) 31 16
  let above := c.he.accTick != s.now || decide (look 0 x.i0 k * (stop - t) + m * stop < i * stop)
  if above then look 0 x.above k + 1 else 0

/-- Each tick of a stopping zone. -/
def envelopeTick (s : State) (z : Nat) : State :=
  if (s.zone z).st = 2 ∧ (s.zone z).start < s.now then
    s.mZone z fun x => { x with above := ((List.range 48).filter fun k => (s.zoneOuts z).testBit k).foldl (fun t k => put 0 t k (envelopeStep s z x k)) [] }
  else s

/-- A port is in SERVICE at either half. -/
def State.inService (s : State) (p : Nat) : Bool := (s.port .A p).pstate == 4 || (s.port .B p).pstate == 4

/-- HARVITOR_DOWNLINK_BUILD (R474, R476, R483): `delivered`: the token holder has delivered its pole commands by 40 us.
(DESIGN CHOICE, unsafe: log 42.) -/
def execHarvitorDownlinkBuild (delivered : Bool) (s : State) : Out :=
  if s.saf.built = some s.now then .next s else
  let s := s.mSaf fun x => { x with built := some s.now }
  let s := match s.ref.token, delivered with
    | some h, true => s.mSaf fun x => { x with pole := (s.hf h).cnp.poleCmd }
    | _, _ => s
  let s := (List.range 8).foldl envelopeTick s.forcePoles
  .next (((List.range 80).filter fun n => s.connEn n && fld (s.sw (0x200 + 0x10 * n)) 30 29 == 0 && s.inService n).foldl (fun s n => s.sendPdu n false) s)

/-- The contactor ranks of a page take the feedback of a cabinet's PDU (R483). -/
def State.takePoleFb (s : State) (c : Nat) (data : List Nat) : State :=
  let page := numAt data 1 1 % 2
  let w := numAt data 2 4
  let ns := ((s.ranks c).take 16).drop (8 * page) |>.take 8
  let nib (i : Nat) : Nat := fldN w (4 * i + 3) (4 * i)
  let closed := ((List.range 8).zip ns).any fun e => nib e.1 != 0
  s.mSaf fun x =>
    { x with poleFb := ((List.range 8).zip ns).foldl (fun t e => put 0 t e.2 (nib e.1)) x.poleFb, closedAt := if closed then s.now else x.closedAt }

/-- The samples below 5 A of stopping zones (R475). -/
def lowSample (n a : Nat) (s : State) (z : Nat) : State :=
  if (s.zone z).st = 2 then s.mZone z fun x => { x with low := put 0 x.low n (if a < 5 then look 0 x.low n + 1 else 0) } else s

/-- A PDU of connection `n` reaches the island (R468, R474, R477, R481-R483). -/
def State.takePdu (s : State) (n : Nat) (b : List Nat) : State :=
  if !s.connEn n then s
  else
    let c := s.conn n
    let ext := fld (s.sw (0x200 + 0x10 * n)) 30 29 != 0
    let r := c.he.receive s.now (s.connTexp n) (s.connCid n) ext b
    let s := s.mConn n fun c => { c with he := r.1 }
    if !r.2 || !r.1.acting then s
    else
      let d := r.1.data
      let kind := fld (s.sw (0x200 + 0x10 * n)) 28 27
      let p := pressStep s.now ((numAt d 0 1).testBit 2) c.press c.jammed c.free
      let s := s.mConn n fun c => { c with press := p.1, len := p.2.1, jammed := p.2.2.1, free := p.2.2.2 }
      let s := if kind = 0 then s.takePoleFb n d else s
      let a := if kind = 0 then numAt d 6 2 else numAt d 2 2
      let s := (List.range 8).foldl (lowSample n a) s
      if s.demandOk n then s else s.demandZones (s.connZones n) 3 n

/-- The next forwarded PDU of a Nepel connection (R483): the oldest that waits, older ones and the second copy of one that was accepted falling away. -/
def State.takeForwarded (s : State) (n : Nat) : State :=
  let c := s.conn n
  match c.inbox.filter fun e => e.1 == s.now && !(c.he.acc && c.he.accTick == s.now) with
  | [] => s.mConn n fun c => { c with inbox := [] }
  | e :: l => (s.mConn n fun c => { c with inbox := l }).takePdu n e.2

/-- HARVITOR_TIMEOUT (R482): out of service, a demand on the connection's ZONES. -/
def execHarvitorTimeout (n : Nat) (s : State) : Out :=
  if s.connEn n && (s.conn n).he.timedOut s.now (s.connTexp n) then
    let s := (s.mConn n fun c => { c with he := c.he.out }).safLog 0x46 n
    .next (s.demandZones (s.connZones n) 2 n)
  else .next s

/-! ### Verbs (R496, R497) -/

/-- SAF_STOP (R496).
(DESIGN CHOICE, unsafe: log 44.) -/
def execSafStop (o : Org) (mask : Nat) (s : State) : Out :=
  .next (s.verb o 0x0D01 [rOperator, rInstaller, rVendor] fun s x _ =>
    (s.demandZones mask 4 0).complete o x 0x0D01 stOk true (le 8 s.now))

/-- The cause of a zone's fault is gone (R467, R497). -/
def State.faultGone (s : State) (e : Nat × Nat) : Bool :=
  match e.1 with
  | 7 => s.saf.diff == 0
  | 8 => (s.inPair e.2).eq.isNone
  | _ =>
    if e.2 < 0x100 then !(s.outPair e.2).badH && !(s.outPair e.2).badL && (!s.fbkEn e.2 || (s.outPair e.2).fbk)
    else if e.2 < 0x400 then
      let c := s.conn (e.2 - 0x100)
      c.sto.isNone || (numAt c.he.data 0 1).testBit 3
    else look 0 s.saf.poleFb (e.2 - 0x400) == look 0 s.saf.poleCmd (e.2 - 0x400)

/-- A zone leaves FAULT: the marks of its fault are cleared. -/
def State.clearFault (s : State) (z : Nat) : State :=
  let fs := (s.zone z).faults
  let s := fs.foldl (fun s e =>
    match e.1 with
    | 7 => s.mSaf fun x => { x with safeFault := false }
    | 8 => s.mIn e.2 fun p => { p with disc := false }
    | _ => if e.2 < 8 then s.mOutPair e.2 fun p => { p with tpFault := false, weld := false } else s) s
  (s.setZone z 0 0 0).mZone z fun x => { x with faults := [] }

/-- SAF_FAULT_CLEAR (R496, R497).
(DESIGN CHOICE, unsafe: log 44.) -/
def execSafFaultClear (o : Org) (mask : Nat) (s : State) : Out :=
  .next (s.verb o 0x0D02 [rInstaller, rVendor] fun s x _ =>
    let zs := zonesOf mask
    if zs.any (fun z => (s.zone z).st != 3) then s.complete o x 0x0D02 0x0D03 true []
    else if zs.any (fun z => (s.zone z).faults.any fun e => !s.faultGone e) then s.complete o x 0x0D02 0x0D02 true []
    else (zs.foldl State.clearFault s).complete o x 0x0D02 stOk true [])

/-- SAF_LOG_READ (R496).
(DESIGN CHOICE, unsafe: log 44.) -/
def execSafLogRead (o : Org) (first count : Nat) (s : State) : Out :=
  .next (s.verb o 0x0D03 [rOperator, rInstaller, rLegal, rVendor] fun s x _ =>
    if 1 ≤ count ∧ count ≤ 128 then s.complete o x 0x0D03 stOk true (s.saf.log.read first count)
    else s.complete o x 0x0D03 stRange true [])

end Sys2Proof.Machine
end

