-- ==== Sys2Proof/Machine/CanIo.lean ====
section
/-!
DEFINITION. The shared I/O domain and each half's own registers (R530-R563): claim gating, GPIO, timers, wide values, CAN FD controllers, rate
detection, and the exchange with storage and PV.
-/

namespace Sys2Proof.Machine

/-! ### Claim gating (R535, R543) -/

/-- A write of half `h` to the shared I/O domain is discarded and counted: GATED and GATE_CNT (R535). -/
def State.gateOut (s : State) (h : Half) : State := (s.srf .loc h 0x10100 29 29 1).bump .loc h 0x10104 1

/-- A write of half `h` to the shared I/O domain: it takes effect only while the half holds the token. -/
def State.gated (s : State) (h : Half) (f : State → State) : State := if s.ref.token = some h then f s else s.gateOut h

/-- CLAIM_GATED_WRITE (R535). -/
def execClaimGatedWrite (h : Half) (s : State) : Out := if s.ref.token = some h then .next s else .next (s.gateOut h)

/-- GATE_CNT_CLEAR (R535). -/
def execGateCntClear (h : Half) (s : State) : Out := .next (s.srg .loc h 0x10104 0)

/-- BUS_ERROR (R44, R531-R533): a stall exception in the partition, which restarts; the access has no effect.
(DESIGN CHOICE, unsafe: log 98.) -/
def execBusError (h : Half) (s : State) : Out := .next (restartPartition s h 3)

/-! ### GPIO (R539, R540) -/

/-- GPIO_EDGE: IN follows the pin, RISE or FALL records the change. -/
def execGpioEdge (p : Nat) (level : Bool) (s : State) : Out :=
  if 32 ≤ p ∨ s.rb .gpio .A 0x08 p = level then .next s
  else .next ((s.srf .gpio .A 0x08 p p (b2n level)).srf .gpio .A (if level then 0x14 else 0x18) p p 1)

/-- GPIO_SET. -/
def execGpioSet (h : Half) (mask : Nat) (s : State) : Out :=
  .next (s.gated h fun s => s.srg .gpio .A 0x04 (s.rg .gpio .A 0x04 ||| BitVec.ofNat 32 mask))

/-- GPIO_CLR. -/
def execGpioClr (h : Half) (mask : Nat) (s : State) : Out :=
  .next (s.gated h fun s => s.srg .gpio .A 0x04 (s.rg .gpio .A 0x04 &&& ~~~(BitVec.ofNat 32 mask)))

/-! ### Timers (R541) -/

/-- EN is written 1: COUNT is loaded from PERIOD, at once or at the next tick edge. `tmr` holds the count of 10 ns since tick 0 at which COUNT reaches zero. -/
def State.startTimer (s : State) (h : Half) (t ofs : Nat) : State :=
  let c := s.rg .loc h (0x10 * t)
  let period := max 1 (s.rg .loc h (0x10 * t + 4)).toNat
  let from_ := if bitAt c 29 then 5000 * (s.tick h + 1) else 5000 * s.tick h + ofs
  (s.srf .loc h (0x10 * t) 31 31 1).mh h fun x => { x with tmr := put 0 x.tmr t (from_ + period) }

/-- TIMER_ENABLE.
(DESIGN CHOICE, unsafe: log 68.) -/
def execTimerEnable (h : Half) (t ofs : Nat) (s : State) : Out := if t < 4 ∧ ofs < 5000 then .next (s.startTimer h t ofs) else .next s

/-- TIMER_EXPIRY: FLAG; a periodic timer reloads on that count, another stops.
(DESIGN CHOICE, unsafe: log 68.) -/
def execTimerExpiry (h : Half) (t : Nat) (s : State) : Out :=
  let due := look 0 (s.hf h).tmr t
  let c := s.rg .loc h (0x10 * t)
  if 4 ≤ t ∨ due = 0 ∨ !bitAt c 31 ∨ 5000 * (s.tick h + 1) ≤ due then .next s
  else
    let s := s.srf .loc h (0x10 * t) 28 28 1
    if bitAt c 30 then .next (s.mh h fun x => { x with tmr := put 0 x.tmr t (due + max 1 (s.rg .loc h (0x10 * t + 4)).toNat) })
    else .next ((s.srf .loc h (0x10 * t) 31 31 0).mh h fun x => { x with tmr := put 0 x.tmr t 0 })

/-- COUNT as a read at the start of the present tick shows it. -/
def State.timerCount (s : State) (h : Half) (t : Nat) : Nat :=
  min (look 0 (s.hf h).tmr t - 5000 * s.tick h) (max 1 (s.rg .loc h (0x10 * t + 4)).toNat)

/-! ### Wide values (R536, R537) -/

/-- The four DATA words of a source; none: the source is reserved.
(DESIGN CHOICE, safe: log 69.) -/
def State.wideValue (s : State) (h : Half) (src : Nat) : Option (List Nat) :=
  let two (v : Nat) : List Nat := [v % 2 ^ 32, v / 2 ^ 32 % 2 ^ 32, 0, 0]
  match src with
  | 1 => some (two (s.tick h))
  | 2 => let a := (s.hf h).tck.acc; some [a / 2 ^ 33 % 2 ^ 32, a / 2 ^ 65 % 2 ^ 32, a / 2 % 2 ^ 32, 0]
  | 3 => some (two s.rtc)
  | 4 => some (two s.lkt.c)
  | 5 => some (two (s.hf h).pub.tick)
  | _ => none

/-- SRC is written: VALID with the value, or ERR with DATA reading 0. -/
def State.wideLatch (s : State) (h : Half) (src : Nat) (answers : Bool) : State :=
  let v := if answers then s.wideValue h (src % 256) else none
  let ctl := src % 256 + if v.isSome then 2 ^ 31 else 2 ^ 30
  let ws := v.getD [0, 0, 0, 0]
  (ws.zipIdx).foldl (fun s e => s.srg .loc h (0x10004 + 4 * e.2) (BitVec.ofNat 32 e.1)) (s.srg .loc h 0x10000 (BitVec.ofNat 32 ctl))

/-- WIDE_VALUE_LATCH.
(DESIGN CHOICE, safe: log 69.) -/
def execWideValueLatch (h : Half) (src : Nat) (answers : Bool) (s : State) : Out := .next (s.wideLatch h src answers)

/-! ### CAN controllers (R542-R556) -/

/-- A register of controller `n`. -/
def State.canReg (s : State) (n off : Nat) : Word := s.rg .can .A (0x1000 * n + off)
def State.setCan (s : State) (n off : Nat) (v : Word) : State := s.srg .can .A (0x1000 * n + off) v
def State.canFld (s : State) (n off hi lo : Nat) : Nat := fld (s.canReg n off) hi lo
def State.setCanFld (s : State) (n off hi lo v : Nat) : State := s.srf .can .A (0x1000 * n + off) hi lo v
def State.canS (s : State) (n : Nat) : CanS := look {} s.cans n
def State.mCan (s : State) (n : Nat) (f : CanS → CanS) : State := { s with cans := Machine.upd {} s.cans n f }

/-- Set a flag of CAN_IRQ (R547). -/
def State.canIrq (s : State) (n i : Nat) : State := s.setCanFld n 0x14 i i 1

/-- Controller `n` is firmware-owned (R560).
(DEDUCED, unsafe: log 97.) -/
def State.canOwned (s : State) (n : Nat) : Bool := s.rb .iox .A 0 n

/-- A partition write to a controller (R535, R543): gated; on a firmware-owned controller only `free` parts may be written.
(DEDUCED, unsafe: log 97.) -/
def State.canWrite (s : State) (h : Half) (n : Nat) (free : Bool) (f : State → State) : State :=
  s.gated h fun s => if s.canOwned n && !free then s.srf .loc h 0x10100 28 28 1 else f s

/-- TSTAT of a transmit buffer (R548). -/
def txOff (b : Nat) : Nat := 0x20 + 0x10 * b
def State.tstat (s : State) (n b : Nat) : Nat := s.canFld n (txOff b) 29 27
def State.setTstat (s : State) (n b v : Nat) : State := s.setCanFld n (txOff b) 29 27 v

/-- The arbitration field of a buffer as it is sent, dominant bits low (R551). -/
def State.arbKey (s : State) (n b : Nat) : Nat :=
  let id := s.canFld n (txOff b + 4) 28 0
  let c := s.canReg n (txOff b)
  let rtr := b2n (bitAt c 23 && !bitAt c 26)
  if bitAt c 24 then id / 2 ^ 18 * 2 ^ 21 + 2 ^ 20 + 2 ^ 19 + id % 2 ^ 18 * 2 + rtr else id / 2 ^ 18 * 2 ^ 21 + rtr * 2 ^ 20

/-- The pending buffer picked next (R551). -/
def State.pickTx (s : State) (n : Nat) : Option Nat :=
  let l := (List.range 3).filter fun b => s.tstat n b = 1
  if s.canFld n 0 28 28 = 1 then l.head?
  else l.foldl (fun best b => match best with
    | none => some b
    | some c => if s.arbKey n b < s.arbKey n c then some b else some c) none

/-- The controllers may start frames: the shared PLL is locked to a reference (R64). -/
def State.canClock (s : State) : Bool := decide (s.pll.ref < 2) && !s.pll.relocking

/-- The controller starts a frame if it may: its clock runs, on the bus, not listen-only, active or passive, none being sent (R64, R544, R551).
(DESIGN CHOICE, unsafe: log 67.) -/
def State.canGo (s : State) (n : Nat) : State :=
  if s.canClock = false ∨ s.canFld n 0 31 31 = 1 ∨ s.canFld n 0 30 30 = 1 ∨ 2 ≤ s.canFld n 0x0C 31 30 ∨ 256 ≤ s.canFld n 0x0C 20 12 ∨ (List.range 3).any (fun b => s.tstat n b == 2) then s
  else
    match s.pickTx n with
    | some b => (s.setTstat n b 2).setCanFld n 0x0C 29 29 1
    | none => s

/-- REQ of a buffer (R548): ignored while it is pending or sending. -/
def State.txRequest (s : State) (n b : Nat) : State :=
  if s.tstat n b = 1 ∨ s.tstat n b = 2 then s else ((s.setTstat n b 1).setCanFld n (txOff b) 18 11 0).canGo n

/-- ABORT of a buffer (R551). -/
def State.txAbort (s : State) (n b : Nat) : State :=
  if s.tstat n b = 1 then s.setTstat n b 5
  else if s.tstat n b = 2 then s.mCan n fun c => { c with aborts := if b ∈ c.aborts then c.aborts else c.aborts ++ [b] }
  else s

/-- CAN_TX_REQUEST. -/
def execCanTxRequest (h : Half) (n b : Nat) (s : State) : Out :=
  if n < 4 ∧ b < 3 then .next (s.canWrite h n (b == 2) fun s => s.txRequest n b) else .next s

/-- CAN_TX_ABORT. -/
def execCanTxAbort (h : Half) (n b : Nat) (s : State) : Out :=
  if n < 4 ∧ b < 3 then .next (s.canWrite h n (b == 2) fun s => s.txAbort n b) else .next s

/-- CAN_TX_ATTEMPT_END (R546, R551, R552, R554): how the attempt of the sending buffer ends; an abort asked meanwhile takes effect.
(DESIGN CHOICE, safe: log 7. DESIGN CHOICE, unsafe: log 67.) -/
def execCanTxAttemptEnd (n : Nat) (e : TxEnd) (tec : Nat) (s : State) : Out :=
  match (List.range 3).find? fun b => s.tstat n b == 2 with
  | none => .next s
  | some b =>
    let ab := decide (b ∈ (s.canS n).aborts)
    let s := (s.mCan n fun c => { c with aborts := c.aborts.filter (· ≠ b) }).setCanFld n 0x0C 29 29 0
    let s := s.setCanFld n 0x0C 20 12 (min 256 tec)
    let s := match e with
      | .ok => ((s.setTstat n b 3).canIrq n b).setCanFld n 0x0C 23 21 0
      | .arb => s.setTstat n b (if ab then 5 else 1)
      | .err lec =>
        let k := min 255 (s.canFld n (txOff b) 18 11 + 1)
        let s := (s.setCanFld n (txOff b) 18 11 k).setCanFld n 0x0C 23 21 lec
        if ab then s.setTstat n b 5
        else if max 1 (s.canFld n 0 23 16) ≤ k then ((s.setTstat n b 4).canIrq n 3).bump .can .A (0x1000 * n + 0x504) 1
        else s.setTstat n b 1
    .next (s.canGo n)

/-- The bytes a data length code stands for (R548; ISO 11898-1). -/
def dlcLen (fdf : Bool) (dlc : Nat) : Nat :=
  if dlc ≤ 8 then dlc
  else if !fdf then 8
  else match dlc with
    | 9 => 12
    | 10 => 16
    | 11 => 20
    | 12 => 24
    | 13 => 32
    | 14 => 48
    | _ => 64

/-- The lowest enabled filter a frame matches (R550). -/
def State.filterFor (s : State) (n : Nat) (f : CanFrame) : Option Nat :=
  (List.range 32).find? fun i =>
    let w := s.canReg n (0x300 + 8 * i)
    let m := s.canFld n (0x304 + 8 * i) 28 0
    bitAt w 31 && bitAt w 30 == f.ide && (f.id ^^^ fld w 28 0) &&& m == 0

/-- A frame goes into the receive buffer (R549). -/
def State.putRx (s : State) (n : Nat) (f : CanFrame) (flt tick : Nat) : State :=
  let c := 2 ^ 31 + b2n f.esi * 2 ^ 29 + b2n f.fdf * 2 ^ 28 + b2n f.brs * 2 ^ 27 + b2n f.ide * 2 ^ 26 + b2n f.rtr * 2 ^ 25 + flt * 2 ^ 20 + f.dlc % 16 * 2 ^ 16
  let s := ((s.setCan n 0x200 (BitVec.ofNat 32 c)).setCan n 0x204 (BitVec.ofNat 32 (f.id % 2 ^ 29))).setCan n 0x208
    (BitVec.ofNat 32 (tick % 2 ^ 16 * 2 ^ 16 + f.ofs % 5000))
  let d := padTo 64 (f.data.take (dlcLen f.fdf f.dlc))
  let s := (List.range 16).foldl (fun s i => s.setCan n (0x240 + 4 * i) (BitVec.ofNat 32 (numAt d (4 * i) 4))) s
  (s.setCanFld n 0x0C 28 28 1).canIrq n 4

/-- CAN_FRAME_RECEIVED (R550, R553): the receive buffer, the shadow buffer, or lost.
(DESIGN CHOICE, safe: log 7.) -/
def execCanFrameReceived (n : Nat) (f : CanFrame) (rec_ : Nat) (s : State) : Out :=
  if 4 ≤ n ∨ s.pll.ref = 2 ∨ s.canFld n 0 31 31 = 1 ∨ 2 ≤ s.canFld n 0x0C 31 30 ∨ (f.fdf ∧ s.canFld n 0 29 29 = 0) then .next s
  else
    let s := (s.setCanFld n 0x0C 11 4 (min 255 rec_)).setCanFld n 0x0C 23 21 0
    match s.filterFor n f with
    | none => .next s
    | some k =>
      if s.canFld n 0x200 31 31 = 0 then .next (s.putRx n f k s.now)
      else if (s.canS n).shadow.isNone then .next ((s.mCan n fun c => { c with shadow := some (f, k, s.now) }).setCanFld n 0x0C 27 27 1)
      else .next (((s.setCanFld n 0x0C 26 26 1).canIrq n 5).bump .can .A (0x1000 * n + 0x500) 1)

/-- RELEASE (R553): VALID is cleared and a frame in the shadow moves in. -/
def State.rxRelease (s : State) (n : Nat) : State :=
  let s := (s.setCanFld n 0x200 31 31 0).setCanFld n 0x0C 28 28 0
  match (s.canS n).shadow with
  | some (f, k, t) => ((s.mCan n fun c => { c with shadow := none }).setCanFld n 0x0C 27 27 0).putRx n f k t
  | none => s

/-- CAN_RX_RELEASE. -/
def execCanRxRelease (h : Half) (n : Nat) (s : State) : Out := if n < 4 then .next (s.canWrite h n false fun s => s.rxRelease n) else .next s

/-- HARVITOR_PDU_RECEIVED (R481, R483, R485): on the Nepel link the next PDU that the halves forwarded; on CAN FD the frame with the connection's identifier
in the receive buffer of its firmware-owned controller, which firmware then frees; on Ethernet the datagram's bytes `b`. A PDU of the root mesh comes with its
crossings (MESH_HARVITOR_EXCHANGE). -/
def execHarvitorPduReceived (n : Nat) (b : List Nat) (s : State) : Out :=
  let w := s.sw (0x200 + 0x10 * n)
  match fld w 30 29 with
  | 0 => .next (s.takeForwarded n)
  | 1 => .next (s.takePdu n b)
  | 2 =>
    let k := fld w 7 0
    if s.connEn n && decide (k < 4) && s.canOwned k && bitAt (s.canReg k 0x200) 31 && bitAt (s.canReg k 0x200) 26
        && s.canFld k 0x204 28 0 == (s.sw (0x20C + 0x10 * n)).toNat % 2 ^ 29 then
      let d := ((List.range 16).flatMap fun i => le 4 (s.canReg k (0x240 + 4 * i)).toNat).take (dlcLen (s.canFld k 0x200 28 28 == 1) (s.canFld k 0x200 19 16))
      .next ((s.takePdu n d).rxRelease k)
    else .next s
  | _ => .next s

/-- STATE changes (R546, R547, R563). -/
def State.setCanState (s : State) (n st : Nat) : State :=
  let old := s.canFld n 0x0C 31 30
  if old = st then s
  else ((s.setCanFld n 0x0C 31 30 st).canIrq n 6).evShared 4 1 0x0F01 ([n, old, st, 0] ++ le 2 (s.canFld n 0x0C 20 12) ++ [s.canFld n 0x0C 11 4])

/-- CAN_ERROR_STATE_CHANGE (R554). -/
def execCanErrorStateChange (n : Nat) (s : State) : Out :=
  if 4 ≤ n ∨ 2 ≤ s.canFld n 0x0C 31 30 then .next s
  else .next (s.setCanState n (if 127 < s.canFld n 0x0C 20 12 ∨ 127 < s.canFld n 0x0C 11 4 then 1 else 0))

/-- CAN_BUS_OFF (R555): pending buffers stay pending; the frame in the air ends with its attempt. -/
def execCanBusOff (n : Nat) (s : State) : Out :=
  if n < 4 ∧ 256 ≤ s.canFld n 0x0C 20 12 ∧ s.canFld n 0x0C 31 30 < 2 then
    let gone := (s.canS n).aborts
    let s := (List.range 3).foldl (fun s b => if s.tstat n b = 2 then s.setTstat n b (if b ∈ gone then 5 else 1) else s) s
    let s := s.mCan n fun c => { c with aborts := [] }
    .next (((s.setCanFld n 0x0C 25 25 1).setCanFld n 0x0C 29 29 0).setCanState n 2)
  else .next s

/-- BOFF_REC written (R555). -/
def State.boffRec (s : State) (n : Nat) : State := if s.canFld n 0x0C 31 30 = 2 then s.setCanState n 3 else s

/-- CAN_BOFF_RECOVERY (R555): the write, or the end of recovery. -/
def execCanBoffRecovery (h : Half) (n : Nat) (done : Bool) (s : State) : Out :=
  if 4 ≤ n then .next s
  else if done then
    if s.canFld n 0x0C 31 30 = 3 then .next ((((s.setCanFld n 0x0C 20 12 0).setCanFld n 0x0C 11 4 0).setCanState n 0).canGo n) else .next s
  else .next (s.canWrite h n false fun s => s.boffRec n)

/-! ### Rate detection (R556) -/

/-- The next enabled candidate above `c`, if any. -/
def State.nextCand (s : State) (n from_ : Nat) : Option Nat := (List.range 8).find? fun c => decide (from_ ≤ c) && (s.canReg n 0x400).toNat.testBit c

/-- START: ignored unless INIT is 0 and LISTEN is 1. -/
def State.abrGo (s : State) (n : Nat) : State :=
  if s.canFld n 0 31 31 = 0 ∧ s.canFld n 0 30 30 = 1 then
    (s.setCan n 0x404 (BitVec.ofNat 32 (2 ^ 30))).mCan n fun c => { c with cand := (s.nextCand n 0).getD 0 }
  else s

/-- STOP ends the search. -/
def State.abrEnd (s : State) (n : Nat) : State := if s.canFld n 0x404 31 30 = 1 then (s.setCanFld n 0x404 31 30 3).canIrq n 7 else s

/-- ABR_START. -/
def execAbrStart (h : Half) (n : Nat) (s : State) : Out := if n < 4 then .next (s.canWrite h n false fun s => s.abrGo n) else .next s

/-- ABR_STOP. -/
def execAbrStop (h : Half) (n : Nat) (s : State) : Out := if n < 4 then .next (s.canWrite h n false fun s => s.abrEnd n) else .next s

/-- ABR_WINDOW_EXPIRY: the next candidate in ascending order; after the last a new round. -/
def execAbrWindowExpiry (n : Nat) (s : State) : Out :=
  if 4 ≤ n ∨ s.canFld n 0x404 31 30 ≠ 1 then .next s
  else
    match s.nextCand n ((s.canS n).cand + 1) with
    | some c => .next (s.mCan n fun x => { x with cand := c })
    | none =>
      .next ((s.setCanFld n 0x404 15 0 (min 0xFFFF (s.canFld n 0x404 15 0 + 1))).mCan n fun x => { x with cand := (s.nextCand n 0).getD 0 })

/-- ABR_FOUND (R556, R563): the candidate goes into CAN_NBT and CAN_DBT. -/
def execAbrFound (n : Nat) (s : State) : Out :=
  let c := (s.canS n).cand
  if 4 ≤ n ∨ s.canFld n 0x404 31 30 ≠ 1 ∨ (s.canReg n 0x400).toNat.testBit c = false then .next s
  else
    let s := (s.setCan n 0x04 (s.canReg n (0x410 + 8 * c) &&& 0xFFFFFFFE)).setCan n 0x08 (s.canReg n (0x414 + 8 * c) &&& 0xFFFFC000)
    let s := ((s.setCanFld n 0x404 29 27 c).setCanFld n 0x404 31 30 2).canIrq n 7
    .next (s.evShared 4 0 0x0F02 ([n, c] ++ le 2 (s.canFld n 0x404 15 0)))

/-! ### The exchange with storage and PV (R557-R559) -/

/-- A word of exchange record `r`. -/
def State.xrec (s : State) (r off : Nat) : Word := s.rg .iox .A (0x100 + 0x20 * r + off)

/-- The record is enabled on controller `n`, which firmware owns. -/
def State.xrecOn (s : State) (r n : Nat) : Bool := decide (r < 8) && bitAt (s.xrec r 0) 7 && fld (s.xrec r 0) 1 0 == n && s.canOwned n

/-- A field of a limits frame (R557): none where the frame is too short for it. -/
def xField (d : List Nat) (spec : Nat) : Option Int :=
  let o := spec % 64
  let n := if spec.testBit 6 then 4 else 2
  if d.length < o + n then none
  else
    let b := (d.drop o).take n
    let v := unle (if spec.testBit 8 then b.reverse else b)
    some (if spec.testBit 7 then signed (8 * n) v else v)

/-- A limit in W (R558). -/
def xLimit (v : Int) (scale : Nat) : Int := clampI 0 0xFFFFFFFF (v * scale)

/-- EXCHANGE_LIMITS_FRAME (R558): its fields are staged and firmware frees the buffer. -/
def execExchangeLimitsFrame (n r : Nat) (s : State) : Out :=
  let c := s.canReg n 0x200
  let id := s.xrec r 4
  if s.charge.isNone || decide (4 ≤ n) || !s.xrecOn r n || !bitAt c 31 || bitAt c 26 != bitAt id 31 || s.canFld n 0x204 28 0 != fld id 28 0 then .next s
  else
    let d := ((List.range 16).flatMap fun i => le 4 (s.canReg n (0x240 + 4 * i)).toNat).take (dlcLen (bitAt c 28) (fld c 19 16))
    let a := xField d (fld (s.xrec r 8) 15 0)
    let b := xField d (fld (s.xrec r 8) 31 16)
    let put2 (s : State) (i : Nat) (v : Int) : State := s.reach.foldl (fun s h => s.stageWrite h i v) s
    let s1 := match a, b with
      | some x, some y =>
        if r < 4 then put2 (put2 s (258 + 2 * r) (xLimit x (s.xrec r 12).toNat)) (259 + 2 * r) (xLimit y (s.xrec r 16).toNat)
        else put2 s (266 + (r - 4)) (xLimit x (s.xrec r 12).toNat)
      | some x, none => if r < 4 then s else put2 s (266 + (r - 4)) (xLimit x (s.xrec r 12).toNat)
      | none, _ => s
    .next (s1.rxRelease n)

/-- The set-point of a record (R291, R559): storage discharge, charge as a negative value; the ceiling of a PV unit. -/
def State.xSet (s : State) (r : Nat) : Int :=
  let a := (s.hf (s.charge.getD .A)).cnp.latched
  if r < 4 then look 0 a.stor r else look 0 a.pv (r - 4)

/-- The data bytes of a set-point frame (R559); a SCALE_TX of 0 leaves the value open. -/
def State.xData (s : State) (r : Nat) : List Nat :=
  let spec := fld (s.xrec r 24) 15 0
  let n := if spec.testBit 6 then 4 else 2
  let sc := (s.xrec r 28).toNat
  let v : Int := if sc = 0 then (s.freeVal 0 : Nat) else roundDiv (s.xSet r) sc
  let v := if spec.testBit 7 then clampI (-(2 ^ (8 * n - 1) : Int)) (2 ^ (8 * n - 1) - 1 : Int) v else clampI 0 (2 ^ (8 * n) - 1 : Int) v
  let b := leInt n v
  let b := if spec.testBit 8 then b.reverse else b
  let len := dlcLen (bitAt (s.xrec r 20) 30) (fld (s.xrec r 24) 19 16)
  (List.replicate (spec % 64) 0 ++ b ++ List.replicate 64 0).take len

/-- EXCHANGE_SETPOINT_PERIOD (R559): the record's new frame replaces one still queued or pending in TXB1. -/
def execExchangeSetpointPeriod (r : Nat) (s : State) : Out :=
  let n := fld (s.xrec r 0) 1 0
  let per := fld (s.xrec r 0) 15 8
  if s.charge.isNone || !s.xrecOn r n || s.now % (200 * max 1 per) != 0 then .next s
  else
    let f := ((s.xrec r 20).toNat, fld (s.xrec r 24) 19 16, s.xData r)
    let s := if (s.canS n).txRec = some r ∧ s.tstat n 1 = 1 then s.setTstat n 1 5 else s
    .next ((s.drew 1).mCan n fun c => { c with queue := put none c.queue r (some f) })

/-- Firmware writes a frame into a transmit buffer and requests it (R543). -/
def State.fwSend (s : State) (n b : Nat) (id : Nat) (fdf : Bool) (dlc : Nat) (d : List Nat) : State :=
  if s.tstat n b = 1 ∨ s.tstat n b = 2 then s
  else
    let w := b2n fdf * 2 ^ 26 + b2n (id.testBit 31) * 2 ^ 24 + dlc % 16 * 2 ^ 19
    let s := (s.setCan n (txOff b) (BitVec.ofNat 32 w)).setCan n (txOff b + 4) (BitVec.ofNat 32 (id % 2 ^ 29))
    let s := (List.range 16).foldl (fun s i => s.setCan n (0x100 + 0x40 * b + 4 * i) (BitVec.ofNat 32 (numAt d (4 * i) 4))) s
    s.txRequest n b

/-- EXCHANGE_TXB1_NEXT (R535, R559): the queued frame of the lowest record goes into TXB1. -/
def execExchangeTxb1Next (n : Nat) (s : State) : Out :=
  if s.charge.isNone || decide (4 ≤ n) || !s.canOwned n || s.tstat n 1 == 1 || s.tstat n 1 == 2 then .next s
  else
    match (List.range 8).findSome? fun r => (look none (s.canS n).queue r).map fun f => (r, f) with
    | none => .next s
    | some (r, f) =>
      let s := s.mCan n fun c => { c with queue := put none c.queue r none, txRec := some r }
      .next (s.fwSend n 1 f.1 (f.1.testBit 30) f.2.1 f.2.2)

/-- The filters firmware keeps on an owned controller, from 31 downward: exchange records, then Harvitor connections (R543). -/
def State.fwFilters (s : State) (n : Nat) : List Nat :=
  ((List.range 8).filter fun r => s.xrecOn r n).map (fun r => (s.xrec r 4).toNat % 2 ^ 29 + b2n (bitAt (s.xrec r 4) 31) * 2 ^ 30)
  ++ ((List.range 128).filter fun c =>
        s.connEn c && fld (s.sw (0x200 + 0x10 * c)) 30 29 == 2 && fld (s.sw (0x200 + 0x10 * c)) 7 0 == n && s.canOwned n).map
      (fun c => (s.sw (0x20C + 0x10 * c)).toNat % 2 ^ 29 + 2 ^ 30)

/-- Program them. -/
def State.setFilters (s : State) (n : Nat) : State :=
  ((s.fwFilters n).zipIdx).foldl (fun s e =>
    if e.2 < 32 then (s.setCan n (0x300 + 8 * (31 - e.2)) (BitVec.ofNat 32 (2 ^ 31 + e.1))).setCan n (0x304 + 8 * (31 - e.2)) 0x1FFFFFFF else s) s

end Sys2Proof.Machine
end

