-- ==== Sys2Proof/Machine/Twin.lean ====
section
/-!
DEFINITION. The commands of the twin halves (spec 04), but for those that reset a half (Machine/Resets.lean).
-/

namespace Sys2Proof.Machine

/-- REFEREE_REQUEST (R131).
(DESIGN CHOICE, unsafe: log 100.) -/
def execRefereeRequest (h : Half) (early : Bool) (s : State) : Out := .next (s.requestRaise h early)

/-- Of the requests for one edge the referee takes the preferred half's, else half A's (R133). -/
def prefersOther (s : State) (h : Half) (edge : Nat) : Bool :=
  s.ref.reqs.any (fun r => r.half == other h && r.edge == edge) &&
    match s.rf .twn h 0 31 30 with
    | 1 => h == .B
    | 2 => h == .A
    | _ => h == .B

/-- REFEREE_GRANT (R130, R133, R134): at its effective edge the request of half `h` is granted, or refused and logged. -/
def execRefereeGrant (h : Half) (s : State) : Out :=
  match s.ref.reqs.find? (fun r => r.half == h) with
  | none => .next s
  | some r =>
    if s.tick h < r.edge then .next s
    else
      let s1 := { s with ref := { s.ref with reqs := s.ref.reqs.filter (fun q => q.half != h) } }
      let s2 := s1.rebase h
      match s2.raiseRefusal h false false with
      | some cause => .next (s1.claimEv h 4 cause)
      | none => if prefersOther s h r.edge then .next (s1.claimEv h 4 0x1A) else .next (s1.grantTo h)

/-- The cause for which the referee releases the holder `x` (R132), if there is one. -/
def releaseCause (s : State) (x : Half) : Option Nat :=
  let t := (s.hf x).twn
  if !t.booted then some 0x16
  else if t.unhealthy then some (if t.cause < 0x81 then 0x8A else t.cause)
  else if (s.hf x).tck.clksel = 2 then some 0x81
  else if s.ref.relNoSucc then some 0x12
  else none

/-- TOKEN_RELEASE (R132).
(DESIGN CHOICE, unsafe: log 12.) -/
def execTokenRelease (s : State) : Out :=
  match s.ref.token with
  | none => .next s
  | some x =>
    match releaseCause s x with
    | none => .next s
    | some c => .next (s.releaseToken x c)

/-- ALIVE_SIGNAL_MISSING (R132): the holder counts as out of tick service until it signals again (R134).
(DESIGN CHOICE, unsafe: log 12.) -/
def execAliveSignalMissing (s : State) : Out :=
  match s.ref.token with
  | none => .next s
  | some x =>
    let s := { s with ref := { s.ref with mute := if x ∈ s.ref.mute then s.ref.mute else s.ref.mute ++ [x] } }
    .next (s.releaseToken x 0x10)

/-- The downlink tunnel messages half `g` has not started pass to the other half (R144, R145).
(DESIGN CHOICE, unsafe: log 108.) -/
def passTunnels (s : State) (g : Half) : State :=
  (List.range 80).foldl (fun s p =>
    let a := look {} (s.port g p).tx 0x40
    let fresh (m : AsyncMsg) : Bool := m.sent == 0
    if a.msgs.any fresh then
      (s.mPort g p fun q => { q with tx := Machine.upd {} q.tx 0x40 fun t => { t with msgs := t.msgs.filter fun m => !fresh m } }).mPort (other g) p fun q =>
        { q with tx := Machine.upd {} q.tx 0x40 fun t => { nextId := a.nextId, msgs := t.msgs ++ a.msgs.filter fresh } }
    else s) s

/-- HANDOVER_EDGE (R132, R144): at edge H the referee grants the named half, or refuses and the handover is abandoned. -/
def execHandoverEdge (s : State) : Out :=
  match s.ref.rel with
  | none => .next s
  | some r =>
    if s.tick r.from_ < r.edge then .next s
    else
      match s.raiseRefusal r.dst true true with
      | some cause => .next (s.claimEv r.dst 4 cause).abandonHandover
      | none =>
        let org := match s.ho with | some x => x.org | none => none
        let s := match org with
          | some o => s.complete o r.from_ 0x0301 stOk true (le 8 r.edge)
          | none => s
        let s := s.mTwn r.dst fun t => { t with hoReq := false }
        let s := (s.grantTo r.dst).mTwn r.dst fun t => { t with tunFrom := r.edge + 1 }
        let s := passTunnels { s with ho := none } r.from_
        .next (s.ev r.dst 0 0x0304 ([1, 0, 0, 0, 0, 0, 0, 0] ++ le 8 r.edge))

/-- TWIN_HEARTBEAT_SEND (R140, R152): claim, health word, token view, generation; HANDOVER_REQ of the taking half (R144). -/
def execTwinHeartbeatSend (h : Half) (s : State) : Out :=
  let t := (s.hf h).twn
  .next (s.mTwn h fun t0 =>
    { t0 with hbOut := some { tick := s.tick h, claim := t.claim, health := s.healthWord h, token := s.ref.token == some h,
                              gen := t.gen, handover := t.hoReq, tj := (s.hf h).thm.tj } })

/-- TWIN_HEARTBEAT_RECEIVED (R140, R138, R160): the heartbeat the other half sent last; 16 valid ones in consecutive ticks bring the link up. -/
def execTwinHeartbeatReceived (h : Half) (valid : Bool) (s : State) : Out :=
  match (s.hf (other h)).twn.hbOut with
  | none => .next s
  | some b =>
    let s := s.mTwn (other h) fun t => { t with hbOut := none }
    if !valid then .next (s.mTwn h fun t => { t with hbGood := 0 })
    else
      let s := s.mh h fun x => { x with thm := { x.thm with otherTj := b.tj } }
      let s := s.mTwn h fun t =>
        let n := if t.hbTick + 1 = s.tick h then t.hbGood + 1 else 1
        { t with otherClaim := b.claim, otherHealth := b.health, otherGen := b.gen, otherToken := b.token,
                 hbTick := s.tick h, hbGood := n, up := t.up || decide (16 ≤ n) }
      if (s.hf h).twn.claim < b.claim && b.token then .next (s.stepDown h 0x14) else .next s

/-- TWIN_LINK_DEAD (R140): no valid heartbeat on 2 consecutive ticks. -/
def execTwinLinkDead (h : Half) (s : State) : Out :=
  if (s.hf h).twn.up && decide ((s.hf h).twn.hbTick + 2 ≤ s.tick h) then
    .next ((s.mTwn h fun t => { t with up := false, hbGood := 0 }).renewHealth h)
  else .next s

/-- RELAYED_SNAPSHOT_RECEIVED (R141): the relayed snapshots have arrived complete and wait for the next edge. -/
def execRelayedSnapshotReceived (h : Half) (s : State) : Out :=
  .next (s.mTwn h fun t => { t with relayReady := t.relay.length })

/-- The ports of half `h` in SERVICE (R142). -/
def servicePorts (s : State) (h : Half) : Nat :=
  ((List.range 80).filter fun p => (s.port h p).pstate == 4).length

/-- PORT_COUNT_TAKEOVER (R142): one tick's comparison while the twin link is dead; from the 200th tick in a row the token passes.
(DESIGN CHOICE, unsafe: log 100.) -/
def execPortCountTakeover (s : State) : Out :=
  match s.ref.token with
  | none => .next s
  | some x =>
    let y := other x
    let now := s.tick x
    if (s.twinUp x && s.twinUp y) || !decide (servicePorts s x < servicePorts s y) then .next { s with ref := { s.ref with ports := 0, portsAt := now } }
    else if s.ref.ports ≠ 0 && s.ref.portsAt == now then .next s
    else
      let s := { s with ref := { s.ref with ports := if s.ref.portsAt + 1 = now then s.ref.ports + 1 else 1, portsAt := now } }
      if 200 ≤ s.ref.ports && (s.raiseRefusal y false true).isNone then .next ((s.abandonHandover.claimEv y 2 0x11).grantTo y)
      else .next s

/-- The half TWN_CFG.PREF prefers (R159). -/
def preferred (s : State) (h : Half) : Option Half := halfOf (s.rf .twn h 0 31 30)

/-- CLEAN_HEALTH_RETURN (R143): after RETURN_S seconds of clean health the preferred half asks for a return. -/
def execCleanHealthReturn (s : State) : Out :=
  match s.charge, s.ho with
  | some g, none =>
    let p := other g
    let t := (s.hf p).twn
    if preferred s p = some p && t.clean && decide (t.cleanSince + 20000 * s.rf .twn p 0 25 16 ≤ s.tick p) then
      .next ({ s with ho := some { dst := p, tick := s.tick p, phase := 0, org := none } }.mTwn p fun t => { t with hoReq := true })
    else .next s
  | _, _ => .next s

/-- TWN_HANDOVER (R521, R143). -/
def execTwnHandover (o : Org) (t : Nat) (s : State) : Out :=
  .next (s.verb o 0x0301 [rInstaller, rVendor] fun s x _ =>
    match halfOf t with
    | none => s.complete o x 0x0301 stRange true []
    | some d =>
      if d = x then s.complete o x 0x0301 stRange true []
      else if 0x7FFF ≤ s.ref.e then s.complete o x 0x0301 0x0302 true []
      else if (s.raiseRefusal d true true).isSome || s.ho.isSome then s.complete o x 0x0301 0x0301 true []
      else
        ({ s with ho := some { dst := d, tick := s.tick x, phase := 0, org := some o } }.mTwn d
          fun t => { t with hoReq := true }).complete o x 0x0301 stPending false [])

/-- HANDOVER_REQ (R144, step 2).
(DESIGN CHOICE, unsafe: log 23.) -/
def execHandoverReq (s : State) : Out :=
  match s.ho with
  | some x => if x.phase = 0 then .next { s with ho := some { x with phase := 1 } } else .next s
  | none => .next s

/-- No commit is armed and no mirror copy unacknowledged in half `g` (R144, step 2). -/
def handoverQuiet (s : State) (g : Half) : Bool :=
  (s.hf g).mirOut.isEmpty && s.blocks.all fun e => e.2.st ≠ 1

/-- HANDOVER_STATE_SEND (R144, step 3): the data-plane state goes to the taking half, the cable models with it (R320); what it holds of the tunnel queues passes at
edge H.
(DESIGN CHOICE, unsafe: log 108.) -/
def execHandoverStateSend (s : State) : Out :=
  match s.ho with
  | some x =>
    if x.phase = 1 && handoverQuiet s (other x.dst) then
      let g := s.hf (other x.dst)
      .next ({ s with ho := some { x with phase := 2 } }.mh x.dst fun y => { y with thm := { y.thm with models := g.thm.models } })
    else .next s
  | none => .next s

/-- HANDOVER_STATE_ACK (R144, steps 4 and 5): in the next tick the giving half relinquishes, naming edge H, two edges later. -/
def execHandoverStateAck (s : State) : Out :=
  match s.ho with
  | some x =>
    if x.phase = 2 then
      let g := other x.dst
      .next { s with ho := some { x with phase := 3 },
                     ref := { s.ref with rel := some { from_ := g, dst := x.dst, edge := s.tick g + 3 } } }
    else .next s
  | none => .next s

/-- HANDOVER_TIMEOUT (R144): step 3 not acknowledged within 200 ms of the request.
(DESIGN CHOICE, unsafe: log 23.) -/
def execHandoverTimeout (s : State) : Out :=
  match s.ho with
  | some x => if x.phase ≤ 2 && decide (x.tick + 4000 ≤ s.tick (other x.dst)) then .next s.abandonHandover else .next s
  | none => .next s

/-- The register words of half `h` taken over by half `k`: every RWS and RWL block each half has (R146, step 2). -/
def halfCfgBlks : List Blk := [.tck, .twn, .nlk, .cln, .pst, .cnp, .thm, .veh, .upd]

/-- The configuration words of half `h`: the words in force of the commit blocks each half has, without the key of the half. -/
def cfgImage (s : State) (h : Half) : Tab Word :=
  s.regs.filterMap fun e =>
    if halfCfgBlks.any (fun b => blkKey b h = keyBlk e.1) && commitWord (keyBlk e.1) (keyOff e.1) then
      some (keyOff e.1 * 64 + keyBlk e.1 / 2 * 2, e.2)
    else none
where
  /-- The word holds configuration: some bit of it is RWS or RWL. -/
  commitWord (k off : Nat) : Bool :=
    (halfCfgBlks.filter fun b => blkIdx b = k / 2).any fun b =>
      decide (0 < (regInfo b .A off).rws + (regInfo b .A off).rwl)

/-- Half `h` loads a configuration image: its configuration words become those of the image. -/
def loadImage (s : State) (h : Half) (img : Tab Word) : State :=
  let s := { s with regs := s.regs.filter fun e =>
    !(halfCfgBlks.any (fun b => blkKey b h = keyBlk e.1) && cfgImage.commitWord (keyBlk e.1) (keyOff e.1)) }
  { s with regs := img.foldl (fun t e => ins t (e.1 + hbit h) e.2) s.regs }

/-- A capture under way ends incomplete in a half that rejoins (R231). -/
def Capture.cutOff (c : Capture) : Capture := { c with incomplete := c.incomplete || (c.st == 1 || c.st == 2) }

/-- The control state a rejoining half copies from the half in service: staging, lanes and slots, sequencers, Canopy,
the cable models (R146, R320). -/
def HalfSt.takeControl (x o : HalfSt) : HalfSt :=
  { x with stg := o.stg, cnp := o.cnp, pst := o.pst, saf := o.saf, thm := { x.thm with models := o.thm.models }, cln := { o.cln with cap0 := o.cln.cap0.cutOff, cap1 := o.cln.cap1.cutOff } }

/-- Half `h` has returned from a reset, or left its internal oscillator, and may rejoin (R70, R146, R154). -/
def returned (s : State) (h : Half) : Bool :=
  let t := (s.hf h).twn
  t.booted && !t.held && t.unhealthy && (t.cause == 0x8A || t.cause == 0x81) && decide ((s.hf h).tck.clksel ≤ 1) && s.pwr.charged && !(s.hf h).thm.hold

/-- The claim the referee granted half `h` last (R129). -/
def State.lastClaim (s : State) (h : Half) : Nat := match h with | .A => s.ref.lastA | .B => s.ref.lastB

/-- REJOIN_START (R146, R72): half `h`, returned and out of tick service, loads the tick number, the configuration image and
its generation, the point store and the lane, clasp and Canopy state from the half in service; it holds its last granted claim. -/
def execRejoinStart (h : Half) (s : State) : Out :=
  let o := s.hf (other h)
  let t := (s.hf h).twn
  if returned s h && !t.service && t.up && s.serving (other h) then
    let s := loadImage (s.takeStaged h) h (cfgImage s (other h))
    .next ((s.mh h fun x =>
      { x.takeControl o with
        tck := { x.tck with tick := o.tck.tick, acc := o.tck.acc, tickSet := true, recount := false, aligned := false }
        pts := o.pts.map fun e => (e.1, e.2.map fun p => { p with mirrorPending := false })
        twn := { x.twn with rejoin := true, cfgLoaded := true, gen := o.twn.gen, digMatch := 0, claim := s.lastClaim h,
                            img := cfgImage s (other h) } }).renewGstat h)
  else .next s

/-- Half `h` sets its tick counter under R61: from PTP where a master is selected, else from the RTC, which has counted on since it was read or rewritten last by
a free value; the conversion rounds down.
(DESIGN CHOICE, unsafe: log 106.) -/
def setCounter (s : State) (h : Half) (n : Nat) : State :=
  let r := s.rtc + s.freeVal 0
  let v := if (s.hf h).tck.master then n else r * 20000 / 32768
  ({ s with rtc := r }.drew 1).mTck h fun t => { t with tick := v, acc := v * 50000 * 2 ^ 33, tickSet := true, recount := false }

/-- The start path of R146 from step 4 on: configuration, UNHEALTHY cleared with CAUSE 0x00, takeover requested. -/
def startTakeover (s : State) (h : Half) : State :=
  let t := (s.hf h).twn
  let s := if t.cfgLoaded then s else loadImage s h t.img
  let s := s.mTwn h fun t => { t with rejoin := false, cfgLoaded := true, unhealthy := false, cause := 0, resetDue := none }
  (s.healthEv h 0).requestRaise h true

/-- START_PATH (R146, R61, R71): no half is in tick service and half `h` runs on its own PLLs. It keeps a counter that is set, or aligned under R72; after its
internal oscillator it sets it at once; else it waits for a master, or for START_WAIT_EXPIRY. -/
def execStartPath (h : Half) (n : Nat) (s : State) : Out :=
  let k := (s.hf h).tck
  if returned s h && s.noService && k.clksel == 0 && k.locks == 7 then
    if k.tickSet && (!k.recount || k.aligned) then .next (startTakeover s h)
    else if k.recount || k.master then .next (startTakeover (setCounter s h n) h)
    else .next s
  else .next s

/-- RESTART_WITHOUT_SERVICE (R71): half `h` has relocked and no half is in tick service. -/
def execRestartWithoutService (h : Half) (n : Nat) (s : State) : Out :=
  let x := s.hf h
  if x.tck.clksel == 2 && x.tck.locks == 7 && s.noService && !x.twn.held && x.twn.booted && s.pwr.charged && !x.thm.hold then
    .next (startTakeover (setCounter (s.mTck h fun t => { t with clksel := 0 }) h n) h)
  else .next s

/-! ### Self-test -/

/-- The checks the comparators of half `h` make in this tick, as (lane, spare): lanes of a digest mismatch (R150), else the
rotation (R147, R148) with a repeated check in place of its spare's slot. -/
def shadowPlan (s : State) (h : Half) : List (Nat × Nat) :=
  let t := (s.hf h).twn
  let n := s.tick h
  if !t.toShadow.isEmpty then (t.toShadow.take t.spares.length).zip t.spares
  else
    let rot := (List.range t.spares.length).map fun j =>
      (if t.spares.length = 4 then 4 * (n % 15) + j else 3 * (n % 20) + j, t.spares.getD j 0)
    let again := t.recheck.filterMap fun e =>
      (([1, 2, 3].map fun d => (e.2 + d) % 4).find? fun k => k ∈ t.spares).map fun k => (e.1, k)
    rot.filter (fun e => !again.any fun a => a.2 = e.2) ++ again

/-- The comparator's checks of a spare against the lane it shadows (R203): result lines with their marks, STAT, WSIG, final state memory. -/
def laneDiff (a b : LaneS) : Bool :=
  written a != written b || laneStat a != laneStat b || a.wsigVal != b.wsigVal || a.mem != b.mem

/-- One check is a mismatch (R203): the comparator finds a difference, or the comparator itself reports one. A lane whose EN is 0 is a match.
(DESIGN CHOICE, safe: log 118.) -/
def shadowBad (s : State) (h : Half) (rs : List ShadowResult) (lane spare : Nat) : Bool :=
  bitAt (s.lcfg0 h lane) 31 &&
    (laneDiff (s.lane h lane) (s.lane h (60 + spare)) || rs.any fun r => r.lane == lane && r.spare == spare && !r.agree)

/-- One mismatch of a check is counted and logged (R148, R162, R528). -/
def shadowMiss (s : State) (h : Half) (lane spare : Nat) : State :=
  (s.bump .twn h 0x24 1).ev h 2 0x0305 [1, lane, spare]

/-- A spare of half `h` is faulty (R148): it leaves the rotation; a second one makes the half UNHEALTHY. -/
def spareFaulty (s : State) (h : Half) (spare : Nat) : State :=
  let t := (s.hf h).twn
  if t.spares.length < 4 then s.goUnhealthy h 0x86
  else s.mTwn h fun t => { t with spares := t.spares.filter (· ≠ spare) }

/-- The result of one check of the rotation or of a repeated check (R148). -/
def judgeShadow (rs : List ShadowResult) (h : Half) (s : State) (e : Nat × Nat) : State :=
  match (s.hf h).twn.recheck.find? (fun r => r.1 = e.1) with
  | some r =>
    let s1 := s.mTwn h fun t => { t with recheck := t.recheck.filter (fun q => q.1 ≠ e.1) }
    if shadowBad s h rs e.1 e.2 then (shadowMiss s1 h e.1 e.2).goUnhealthy h 0x85 else spareFaulty s1 h r.2
  | none =>
    if shadowBad s h rs e.1 e.2 then
      (shadowMiss s h e.1 e.2).mTwn h fun t => { t with recheck := t.recheck ++ [e] }
    else s

/-- An inconclusive mismatch (R150, R153): counted and penalised in half `h`; three within 1 s make the half not in charge
UNHEALTHY. -/
def inconclusive (s : State) (h : Half) : State :=
  let now := s.tick h
  let s := s.mTwn h fun t => { t with inconcl := t.inconcl.filter (fun x => decide (now < x + 20000)) ++ [now] }
  let s := ((s.bump .twn h 0x20 1).ev h 2 0x0305 [3, 0, 0]).penalty h 48 0x07
  if 3 ≤ (s.hf h).twn.inconcl.length && s.charge != some h then s.goUnhealthy h 0x88 else s

/-- SHADOW_COMPARE (R148, R150, R203). -/
def execShadowCompare (h : Half) (rs : List ShadowResult) (s : State) : Out :=
  if !s.rb .twn h 0 29 then .next s
  else
    let plan := shadowPlan s h
    if (s.hf h).twn.toShadow.isEmpty then .next (plan.foldl (judgeShadow rs h) s)
    else
      let bad := plan.filter fun e => shadowBad s h rs e.1 e.2
      let s := s.mTwn h fun t => { t with toShadow := [], shadowHit := !bad.isEmpty }
      let s := bad.foldl (fun s e => shadowMiss s h e.1 e.2) s
      if !bad.isEmpty then .next (s.goUnhealthy h 0x87)
      else if (s.hf (other h)).twn.toShadow.isEmpty && !(s.hf (other h)).twn.shadowHit then
        .next (inconclusive (inconclusive s h) (other h))
      else .next s

/-- The working lanes left out of the comparison of half `h`: they read the samples of a port only one half accepted (R149). -/
def excludedLanes (s : State) (h : Half) : List Nat :=
  let a := (s.hf h).twn.mapMine
  let b := ((s.hf h).twn.mapOther).getD []
  (List.range 60).filter fun l =>
    (((s.laneImage h l).map (·.ports)).getD []).any fun p => (decide (p ∈ a)) != (decide (p ∈ b))

/-- DIGEST_COMPARE (R149, R150, R146): the other half's digests of this tick against this half's. A comparison that cannot be
made is a missed stage (R78), and starts the matches in a row anew. The sixteenth match in a row, the skew within 20 ns (R72), completes a rejoin: the half sends
from the tick after (R134).
(DESIGN CHOICE, unsafe: log 22.) -/
def execDigestCompare (h : Half) (s : State) : Out :=
  let t := (s.hf h).twn
  let o := (s.hf (other h)).twn
  if !t.up || !s.rb .twn h 0 29 then .next s
  else if t.digTick ≠ s.tick h || o.digTick ≠ t.digTick || t.mapOther.isNone then
    .next ((s.mTwn h fun t => { t with digMatch := 0, digMissed := t.digMissed + 1 }).stageMissed h false)
  else
    let ex := excludedLanes s h
    let bad := (List.range 60).filter fun l => !(decide (l ∈ ex)) && look 0 t.digs l != look 0 o.digs l
    let s := s.bump .twn h 0x1C ex.length
    match bad with
    | [] =>
      let s := s.mTwn h fun t => { t with digMatch := t.digMatch + 1, shadowHit := false }
      if t.rejoin && decide (16 ≤ t.digMatch + 1) && (s.hf h).tck.aligned && decide ((s.hf h).tck.clksel ≤ 1) then
        .next ((s.mTwn h fun t => { t with rejoin := false, unhealthy := false, cause := 0, svcNext := true }).healthEv h 0)
      else .next s
    | l :: _ =>
      let s := s.mTwn h fun t => { t with digMatch := 0, toShadow := bad, shadowHit := false }
      .next ((s.bump .twn h 0x18 1).ev h 2 0x0305 [2, l, 0])

/-- SCRUB_BLOCK (R151, R153, R158): DRAM blocks, the 24 h read-verify of flash and MRAM, and what an access corrects in lane SRAM or clasp. A corrected DRAM or
SRAM block is a penalty; a block that does not verify raises event 0x0306 as another block. -/
def execScrubBlock (h : Half) (addr : Nat) (kind : MemKind) (res : Nat) (s : State) : Out :=
  if kind != .sram && !s.rb .twn h 0 28 then .next s
  else
    let s := if kind = .sram then s else s.mTwn h fun t => { t with scrubPos := t.scrubPos + 1 }
    let ev (n : Nat) : State := s.ev h 2 0x0306 (le 8 addr ++ [n])
    if res = 1 then .next (if kind.ram then s.penalty h 2 0x01 else s)
    else if res = 2 then
      match kind with
      | .points =>
        .next (if s.twinUp h then (ev 1).mh h fun x => { x with pts := put none x.pts (addr / 128) (look none (s.hf (other h)).pts (addr / 128)) } else ev 1)
      | .program => .next ((ev 2).goUnhealthy h 0x89)
      | .dram | .sram | .flash | .islandMram | .locketMram => .next (ev 3)
    else .next s

/-- PENALTY_DECAY (R153). -/
def execPenaltyDecay (h : Half) (s : State) : Out :=
  .next (s.mTwn h fun t => { t with pens := (t.pens.map (· - 1)).filter (0 < ·) })

/-- HEALTH_WINDOW_END (R153), at an edge whose tick number is a multiple of 20,000: ports with more than 1 corrected block per 10,000 over the window. -/
def execHealthWindowEnd (h : Half) (s : State) : Out :=
  if s.tick h % 20000 ≠ 0 then .next s
  else
  let bad := (List.range 80).filter fun p => (s.port h p).winBlks < 10000 * (s.port h p).winCorr
  let s := bad.foldl (fun s _ => s.penalty h 8 0x03) s
  .next (s.mh h fun x => { x with ports := x.ports.map fun e => (e.1, { e.2 with winCorr := 0, winBlks := 0 }) })

/-! ### Feeds (R155, R156) -/

/-- Event 0x0307 carries PWR_FEED. -/
def feedEv (s : State) : State := s.evShared 4 1 0x0307 (le 4 (s.rg .pwr .A 0).toNat)

/-- Bit positions of a feed in PWR_FEED: voltage high bit, OK, LOST, REV. -/
def feedBits : Half → Nat × Nat × Nat × Nat
  | .A => (31, 9, 7, 5)
  | .B => (20, 8, 6, 4)

/-- FEED_LOST. -/
def execFeedLost (f : Half) (v : Nat) (s : State) : Out :=
  let b := feedBits f
  let s1 := s.srf .pwr .A 0 b.1 (b.1 - 10) v
  if s.rb .pwr .A 0 b.2.1 || !s.rb .pwr .A 0 b.2.2.1 then
    .next (feedEv ((s1.srf .pwr .A 0 b.2.1 b.2.1 0).srf .pwr .A 0 b.2.2.1 b.2.2.1 1))
  else .next s1

/-- FEED_OK. -/
def execFeedOk (f : Half) (v : Nat) (s : State) : Out :=
  let b := feedBits f
  let s1 := s.srf .pwr .A 0 b.1 (b.1 - 10) v
  if s.rb .pwr .A 0 b.2.1 then .next s1 else .next (feedEv (s1.srf .pwr .A 0 b.2.1 b.2.1 1))

/-- FEED_REVERSE_CURRENT. -/
def execFeedReverseCurrent (f : Half) (s : State) : Out :=
  let b := feedBits f
  .next (feedEv (s.srf .pwr .A 0 b.2.2.2 b.2.2.2 1))

/-- ORING_TEST: made only while both feeds are OK. -/
def execOringTest (f : Half) (fail : Bool) (s : State) : Out :=
  if s.rb .pwr .A 0 (feedBits f).2.1 && s.feedsOk && fail then .next (feedEv (s.srf .pwr .A 0 3 3 1)) else .next s

/-! ### Perturbation (R163-R165) -/

/-- The magnitude is in the range of R164 for the kind. -/
def pertMagOk (kind mag : Nat) : Bool :=
  match kind with
  | 3 => decide (1 ≤ mag ∧ mag ≤ 100)
  | 4 => decide (1 ≤ mag ∧ mag ≤ 6000)
  | 5 => decide (1 ≤ mag % 8 ∧ mag % 8 ≤ 4)
  | _ => true

/-- PERT_ARM (R165): a CFG_WRITE that sets ARM of TWN_PERT_CTL of half `h`.
(DESIGN CHOICE, safe: log 25.) -/
def execPertArm (o : Org) (h : Half) (v : Word) (s : State) : Out :=
  .next (s.runAt o h 0x03F2 [rInstaller, rVendor] true fun s _ =>
    let kind := fld v 29 27
    if !s.rb .twn h 0 27 then s.complete o h 0x03F2 0x0303 true []
    else if kind = 7 || fld v 15 0 = 0 || !pertMagOk kind (s.rf .twn h 0x44 15 0) then s.complete o h 0x03F2 stRange true []
    else
      let s := s.srg .twn h 0x40 (v &&& 0x38FFFFFF)
      (s.mTwn h fun t => { t with pertArmed := true, pertActive := false }).complete o h 0x03F2 stOk true (le 8 (s.tick h)))

/-- PERT_END (R163): the running perturbation has run DURATION ticks. -/
def execPertEnd (h : Half) (s : State) : Out :=
  let t := (s.hf h).twn
  if t.pertActive && decide (t.pertStart + s.rf .twn h 0x40 15 0 ≤ s.tick h) then
    .next (s.mTwn h fun t => { t with pertActive := false })
  else .next s

/-- CLAIM_LOSS_RELINQUISH (R164): under CLAIM_LOSS the half in charge relinquishes without naming a successor.
(DESIGN CHOICE, unsafe: log 12.) -/
def execClaimLossRelinquish (h : Half) (s : State) : Out :=
  if (s.hf h).twn.pertActive && s.rf .twn h 0x40 29 27 == 6 && s.charge == some h then
    .next { s with ref := { s.ref with relNoSucc := true } }
  else .next s

/-- REFEREE_DAILY_EXERCISE (R158): the safety processor exercises the grant and release logic once per 24 h; charge and claims
stay as they are. -/
def execRefereeDailyExercise (s : State) : Out :=
  .next { s with ref := { s.ref with exercised := s.ref.exercised + 1 } }

end Sys2Proof.Machine
end

