-- ==== Sys2Proof/Machine/Float.lean ====
section
/-!
DEFINITION. IEEE 754 binary32 arithmetic, rounding to nearest with ties to even (R315): a value is its bit pattern.
-/

namespace Sys2Proof.Machine

/-- A binary32 value: not a number, an infinity, or sign x significand x 2^exponent. -/
inductive FVal
  | nan
  | inf (neg : Bool)
  | fin (neg : Bool) (m : Nat) (e : Int)
  deriving DecidableEq, Repr

/-- The value of a pattern. -/
def fval (b : Nat) : FVal :=
  let neg := b.testBit 31
  let x : Nat := b / 2 ^ 23 % 256
  let f : Nat := b % 2 ^ 23
  if x = 255 then (if f = 0 then .inf neg else .nan)
  else if x = 0 then .fin neg f (-149)
  else .fin neg (2 ^ 23 + f) ((x : Int) - 150)

/-- Patterns of the special values. -/
def fNan : Nat := 0x7FC00000
def fInf (neg : Bool) : Nat := if neg then 0xFF800000 else 0x7F800000
def fZero (neg : Bool) : Nat := if neg then 0x80000000 else 0

/-- The pattern of `n / d` rounded to nearest even; `d` is positive. -/
def fround (neg : Bool) (n d : Nat) : Nat :=
  if n = 0 then fZero neg
  else
    let e0 : Int := (n.log2 : Int) - d.log2 - 24
    let e : Int := max (-149) e0
    let scale (e : Int) : Nat × Nat := if 0 ≤ e then (n, d * 2 ^ e.toNat) else (n * 2 ^ (-e).toNat, d)
    let quo (e : Int) : Nat :=
      let p := scale e
      let q := p.1 / p.2
      let r := p.1 % p.2
      if p.2 < 2 * r || (p.2 == 2 * r && q % 2 == 1) then q + 1 else q
    let fit (e : Int) : Bool := let p := scale e; decide (p.1 < p.2 * 2 ^ 24)
    let e := if fit e then e else if fit (e + 1) then e + 1 else e + 2
    let q := quo e
    let q' := if q = 2 ^ 24 then 2 ^ 23 else q
    let e := if q = 2 ^ 24 then e + 1 else e
    let s := fZero neg
    if q' < 2 ^ 23 then s + q'
    else if 104 < e then fInf neg
    else s + (e + 150).toNat * 2 ^ 23 + (q' - 2 ^ 23)

/-- The pattern of an integer times 2^e. -/
def fofInt (v : Int) (e : Int) : Nat :=
  if 0 ≤ e then fround (decide (v < 0)) (v.natAbs * 2 ^ e.toNat) 1 else fround (decide (v < 0)) v.natAbs (2 ^ (-e).toNat)

/-- The pattern of `v / d`, rounded once. -/
def fofRat (v : Int) (d : Nat) : Nat := fround (decide (v < 0)) v.natAbs (max 1 d)

/-- Addition. -/
def fadd (a b : Nat) : Nat :=
  match fval a, fval b with
  | .nan, _ => fNan
  | _, .nan => fNan
  | .inf x, .inf y => if x = y then fInf x else fNan
  | .inf x, _ => fInf x
  | _, .inf y => fInf y
  | .fin x m e, .fin y n g =>
    let l := min e g
    let v : Int := (if x then -1 else 1) * (m * 2 ^ (e - l).toNat : Nat) + (if y then -1 else 1) * (n * 2 ^ (g - l).toNat : Nat)
    if v = 0 then fZero (x && y) else fofInt v l

/-- The pattern with its sign turned. -/
def fneg (a : Nat) : Nat := if a.testBit 31 then a - 2 ^ 31 else a + 2 ^ 31

/-- Subtraction. -/
def fsub (a b : Nat) : Nat := fadd a (fneg b)

/-- Multiplication. -/
def fmul (a b : Nat) : Nat :=
  match fval a, fval b with
  | .nan, _ => fNan
  | _, .nan => fNan
  | .inf x, .inf y => fInf (x != y)
  | .inf x, .fin y m _ => if m = 0 then fNan else fInf (x != y)
  | .fin x m _, .inf y => if m = 0 then fNan else fInf (x != y)
  | .fin x m e, .fin y n g =>
    let p := e + g
    if 0 ≤ p then fround (x != y) (m * n * 2 ^ p.toNat) 1 else fround (x != y) (m * n) (2 ^ (-p).toNat)

/-- Division. -/
def fdiv (a b : Nat) : Nat :=
  match fval a, fval b with
  | .nan, _ => fNan
  | _, .nan => fNan
  | .inf _, .inf _ => fNan
  | .inf x, .fin y _ _ => fInf (x != y)
  | .fin x _ _, .inf y => fZero (x != y)
  | .fin x m e, .fin y n g =>
    if n = 0 then (if m = 0 then fNan else fInf (x != y))
    else
      let p := e - g
      if 0 ≤ p then fround (x != y) (m * 2 ^ p.toNat) n else fround (x != y) m (n * 2 ^ (-p).toNat)

/-- The integer square root of `n` by `fuel` bits, from the top. -/
def isqrt : Nat → Nat → Nat → Nat
  | 0, _, r => r
  | k + 1, n, r => if (r + 2 ^ k) * (r + 2 ^ k) ≤ n then isqrt k n (r + 2 ^ k) else isqrt k n r

/-- Square root: 40 significant bits and a sticky bit before the one rounding. -/
def fsqrt (a : Nat) : Nat :=
  match fval a with
  | .nan => fNan
  | .inf x => if x then fNan else fInf false
  | .fin x m e =>
    if m = 0 then fZero x
    else if x then fNan
    else
      let odd := (e % 2).toNat
      let n := m * 2 ^ odd * 2 ^ 60
      let r := isqrt 48 n 0
      let st := if r * r = n then 2 * r else 2 * r + 1
      fofInt st ((e - odd) / 2 - 30 - 1)

/-- `a < b`; comparisons with NaN are false. -/
def flt (a b : Nat) : Bool :=
  match fval a, fval b with
  | .nan, _ => false
  | _, .nan => false
  | .inf x, .inf y => x && !y
  | .inf x, .fin _ _ _ => x
  | .fin _ _ _, .inf y => !y
  | .fin x m e, .fin y n g =>
    let l := min e g
    decide ((if x then -1 else 1) * ((m * 2 ^ (e - l).toNat : Nat) : Int) < (if y then -1 else 1) * ((n * 2 ^ (g - l).toNat : Nat) : Int))

/-- `a = b` in value. -/
def feq (a b : Nat) : Bool :=
  match fval a, fval b with
  | .nan, _ => false
  | _, .nan => false
  | _, _ => !flt a b && !flt b a

/-- `a ≤ b`. -/
def fle (a b : Nat) : Bool := flt a b || feq a b

/-- The magnitude. -/
def fabs (a : Nat) : Nat := a % 2 ^ 31

/-- The greater of two values; a NaN on one side gives the other. -/
def fmax (a b : Nat) : Nat := if fval a = .nan then b else if flt a b then b else a

/-- The floor of a finite value; 0 for the others. -/
def ffloor (a : Nat) : Int :=
  match fval a with
  | .fin x m e =>
    let v : Int := (if x then -1 else 1) * (m : Int)
    if 0 ≤ e then v * 2 ^ e.toNat else v / 2 ^ (-e).toNat
  | _ => 0

/-- A finite value as a numerator and a power of two below it. -/
def frat (a : Nat) : Int × Nat :=
  match fval a with
  | .fin x m e =>
    let v : Int := (if x then -1 else 1) * (m : Int)
    if 0 ≤ e then (v * 2 ^ e.toNat, 1) else (v, 2 ^ (-e).toNat)
  | _ => (0, 1)

end Sys2Proof.Machine
end

