-- ==== Sys2Proof/Machine/Thermal.lean ====
section
/-!
DEFINITION. Cable models, sensors and ceilings, and the device's own temperatures (spec 09), but for what powers the halves down
(Machine/Resets.lean).
-/

namespace Sys2Proof.Machine

/-- Change the thermal unit of half `h`. -/
def State.mThm (s : State) (h : Half) (f : ThmS → ThmS) : State := s.mh h fun x => { x with thm := f x.thm }

/-- Model `m` of half `h`. -/
def State.model (s : State) (h : Half) (m : Nat) : ThmM := look {} (s.hf h).thm.models m

/-- Change a model. -/
def State.mModel (s : State) (h : Half) (m : Nat) (f : ThmM → ThmM) : State :=
  s.mThm h fun t => { t with models := Machine.upd {} t.models m f }

/-- A word of a model's record in force (R336). -/
def State.mw (s : State) (h : Half) (m off : Nat) : Nat := (s.rg .thm h (0x100 * m + off)).toNat

/-- The model is enabled (R335). -/
def State.modelEn (s : State) (h : Half) (m : Nat) : Bool := s.rb .thm h (0x100 * m) 31

/-- The record offset of the point ID of a sensor: 0 pin +, 1 pin -, 2 supply, 3 return, 4 flow, 5 ambient, 6 current. -/
def sensOff (k : Nat) : Nat := if k = 6 then 0x04 else 0x08 + 4 * k

/-- Event 0x0801 and 0x0802 are raised by the half in charge, or by each half while none is. -/
def State.thmEv (s : State) (h : Half) (code : Nat) (d : List Nat) : State :=
  if s.charge = some h ∨ s.charge = none then s.ev h 1 code d else s

/-! ### Sensors (R314, R321) -/

/-- The measurement point a record names, as the half's last snapshot holds it (R311, R314). -/
def State.sensPoint (s : State) (h : Half) (m k : Nat) : Option Slot :=
  let id := s.mw h m (sensOff k)
  if id = 0 then none else s.pointAt h (id % 2 ^ 25)

/-- The sensor has a point in the record. -/
def State.sensThere (s : State) (h : Half) (m k : Nat) : Bool := s.mw h m (sensOff k) != 0

/-- The integer in a slot. -/
def slotInt (p : Slot) : Int :=
  match p.val with
  | .int v => v
  | _ => 0

/-- 0 to 3 and 5 are temperature sensors. -/
def tempSens (k : Nat) : Bool := decide (k < 4) || k == 5

/-- The conditions of R321 for the reading of an update.
(DESIGN CHOICE, unsafe: log 35.) -/
def sensBad (now k : Nat) (rate : Nat) (p : Option Slot) (q : SensS) : Bool :=
  match p with
  | none => true
  | some p =>
    !p.valid || ((p.stale || p.subst) && (match q.subSince with | some t => decide (100 < now - t) | none => false))
      || (tempSens k && (decide (slotInt p < -5000 ∨ 20000 < slotInt p)
            || (match q.prev with | some v => flt rate (fofRat ((slotInt p - v).natAbs : Nat) 100) | none => false)))

/-- A sensor after its reading of an update. -/
def SensS.read (q : SensS) (now k rate : Nat) (p : Option Slot) : SensS :=
  let sub := match p with | some x => x.stale || x.subst | none => false
  let q := { q with subSince := if sub then (match q.subSince with | some t => some t | none => some now) else none }
  let bad := sensBad now k rate p q
  { q with broken := q.broken || bad, good := if q.broken && !bad then q.good + 1 else 0,
           far := if bad || q.broken then 0 else q.far, near := if bad || q.broken then 0 else q.near,
           prev := match p with | some x => some (slotInt x) | none => q.prev }

/-- The value of a temperature sensor in degC as binary32 (R321): the reading, or the substitute of a broken sensor. -/
def State.tempVal (s : State) (h : Half) (m k : Nat) : Nat :=
  if (look {} (s.model h m).sens k).broken then
    match k with
    | 0 => fadd (s.mw h m 0x88) (fofInt 10 0)
    | 1 => fadd (s.mw h m 0x88) (fofInt 10 0)
    | 5 => fadd (s.mw h m 0xA0) (fofInt 10 0)
    | _ => fofInt 60 0
  else
    match s.sensPoint h m k with
    | some p => fofRat (slotInt p) 100
    | none => s.mw h m 0xA0

/-- T_AMB (R313). -/
def State.ambVal (s : State) (h : Half) (m : Nat) : Nat := if s.sensThere h m 5 then s.tempVal h m 5 else s.mw h m 0xA0

/-- F_MAX (R313). -/
def State.flowMax (s : State) (h : Half) (m : Nat) : Nat := fmul (s.mw h m 0x90) 0x415744FD

/-- F in g/s (R313, R321): a broken flow sensor reads 0; with no flow point the flow is a free value. -/
def State.flowVal (s : State) (h : Half) (m : Nat) : Nat :=
  let raw := if !s.sensThere h m 4 then s.freeVal m % 2 ^ 32
    else if (look {} (s.model h m).sens 4).broken then 0
    else match s.sensPoint h m 4 with
      | some p => fofRat (slotInt p) 10
      | none => 0
  if flt 0 raw then (if flt (s.flowMax h m) raw then s.flowMax h m else raw) else 0

/-- I in A (R313, R321): a broken current point reads as I_CAB_MAX. -/
def State.cableI (s : State) (h : Half) (m : Nat) : Nat :=
  if (look {} (s.model h m).sens 6).broken then fofRat (s.mw h m 0x8C : Nat) 1000
  else match s.sensPoint h m 6 with
    | some p => fofRat (slotInt p) 1000
    | none => 0

/-! ### The network (R313, R315, R316) -/

/-- The edges of the network, e0 to e11. -/
def thermEdges : List (Nat × Nat) :=
  [(0, 4), (1, 4), (0, 5), (1, 5), (0, 2), (1, 3), (2, 6), (3, 6), (2, 4), (3, 4), (4, 7), (5, 7)]

/-- The parameters of a step. -/
structure ThermIn where
  i : Nat
  f : Nat
  tin : Nat
  tamb : Nat
  c : List Nat
  g : List Nat
  gah : Nat
  gaj : Nat
  rc : Nat
  rp : Nat
  alpha : Nat
  cp : Nat
  deriving DecidableEq, Repr

/-- I^2 R (1 + ALPHA (T - 20)). -/
def ohmic (x : ThermIn) (r t : Nat) : Nat :=
  fmul (fmul (fmul x.i x.i) r) (fadd (fofInt 1 0) (fmul x.alpha (fsub t (fofInt 20 0))))

/-- The heat input of node `n` (R313). -/
def heatIn (x : ThermIn) (t : List Nat) (n : Nat) : Nat :=
  let v (k : Nat) : Nat := t.getD k 0
  match n with
  | 0 => ohmic x x.rc (v 0)
  | 1 => ohmic x x.rc (v 1)
  | 2 => ohmic x x.rp (v 2)
  | 3 => ohmic x x.rp (v 3)
  | 4 => fmul (fmul x.f x.cp) (fsub x.tin (v 4))
  | 5 => fmul (fmul x.f x.cp) (fsub (v 4) (v 5))
  | 6 => fmul x.gah (fsub x.tamb (v 6))
  | _ => fmul x.gaj (fsub x.tamb (v 7))

/-- The heat flow into node `n`, its edges in ascending order (R315). -/
def heatFlow (x : ThermIn) (t : List Nat) (n : Nat) : Nat :=
  ((List.range 12).zip thermEdges).foldl (fun q e =>
    let g := x.g.getD e.1 0
    if e.2.1 = n then fadd q (fmul g (fsub (t.getD e.2.2 0) (t.getD n 0)))
    else if e.2.2 = n then fadd q (fmul g (fsub (t.getD e.2.1 0) (t.getD n 0)))
    else q) (heatIn x t n)

/-- One step of the network (R315). -/
def thermStep (x : ThermIn) (t : List Nat) : List Nat :=
  (List.range 8).map fun n => fadd (t.getD n 0) (fmul (fdiv (fofRat 1 1000) (x.c.getD n 0)) (heatFlow x t n))

/-- The inputs of a step of model `m`. -/
def State.thermIn (s : State) (h : Half) (m : Nat) : ThermIn :=
  { i := s.cableI h m, f := s.flowVal h m, tin := s.tempVal h m 2, tamb := s.ambVal h m,
    c := (List.range 8).map fun n => s.mw h m (0x20 + 4 * n), g := (List.range 12).map fun e => s.mw h m (0x40 + 4 * e),
    gah := s.mw h m 0x70, gaj := s.mw h m 0x74, rc := s.mw h m 0x78, rp := s.mw h m 0x7C, alpha := s.mw h m 0x80, cp := s.mw h m 0x84 }

/-- The correction of a pin (R316). -/
def correctPin (s : State) (h : Half) (m : Nat) (t : List Nat) (k : Nat) : List Nat :=
  let q := look {} (s.model h m).sens k
  if s.sensThere h m k && !q.broken && !q.suspect then
    modAt t (2 + k) fun v => fadd v (fmul (s.mw h m 0x94) (fsub (s.tempVal h m k) v))
  else t

/-- The counts of R322 for a pin sensor against the model's temperature. -/
def judgePin (s : State) (h : Half) (m : Nat) (t : List Nat) (st : State) (k : Nat) : State :=
  let q := look {} (s.model h m).sens k
  if !s.sensThere h m k || q.broken then st
  else
    let d := fabs (fsub (s.tempVal h m k) (t.getD (2 + k) 0))
    let dt := s.mw h m 0x98
    st.mModel h m fun x => { x with sens := Machine.upd {} x.sens k fun q =>
      { q with far := if flt dt d && !q.suspect then q.far + 1 else 0,
               near := if q.suspect && fle d (fdiv dt (fofInt 2 0)) then q.near + 1 else 0 } }

/-! ### The ceiling (R312, R317, R318) -/

/-- A flow is at least FLOW_REF x 2^(k/4): compared exactly, in fourth powers. -/
def flowAtLeast (f ref k : Nat) : Bool :=
  let a := frat f
  let b := frat ref
  decide (b.1 ^ 4 * 2 ^ k * (a.2 : Int) ^ 4 ≤ a.1 ^ 4 * (b.2 : Int) ^ 4)

/-- The band of a flow (R317). -/
def flowBand (f ref : Nat) : Nat :=
  if flt f ref then 0 else ((List.range 15).filter fun k => flowAtLeast f ref k).length

/-- The parameters the prediction data depends on. -/
def State.predPars (s : State) (h : Half) (m : Nat) : List Nat :=
  s.rf .thm h (0x100 * m) 23 16 :: ((List.range 33).filter fun i => i ≠ 27).map fun i => s.mw h m (0x20 + 4 * i)

/-- One prediction of R318: the term c, or none where the free response reaches the limit. -/
def predTerm (s : State) (h : Half) (m : Nat) (x : ThermIn) (t : List Nat) (band j p : Nat) : Option Nat :=
  let d (i : Nat) : Nat := Config.thermPred (s.predPars h m) band j p i
  let rowSum := (List.range 8).foldl (fun q i => fadd q (fmul (d i) (t.getD i 0))) 0
  let free := fadd (fadd rowSum (fmul (d 8) x.tin)) (fmul (d 9) x.tamb)
  let lim := s.mw h m 0x88
  if fle lim free then none else some (fdiv (fsub lim free) (d 10))

/-- The least of the terms of one pin, or none for a ceiling of 0. -/
def pinLeast (s : State) (h : Half) (m : Nat) (x : ThermIn) (t : List Nat) (band : Nat) (p : Nat) : Option Nat :=
  let q := look {} (s.model h m).sens (p - 2)
  let own := t.getD p 0
  let t0 := if s.sensThere h m (p - 2) then fmax own (s.tempVal h m (p - 2)) else own
  let t' := modAt t p fun _ => if q.broken then fmax own (s.tempVal h m (p - 2)) else t0
  (rangeFrom 1 16).foldl (fun acc j =>
    match acc, predTerm s h m x t' band j p with
    | some a, some c => some (if flt c a then c else a)
    | _, _ => none) (some (fInf false))

/-- The horizon ceiling in mA (R318). -/
def horizon (s : State) (h : Half) (m : Nat) (x : ThermIn) (t : List Nat) (band : Nat) : Nat :=
  match pinLeast s h m x t band 2, pinLeast s h m x t band 3 with
  | some a, some b => (ffloor (fmul (fofInt 1000 0) (fsqrt (if flt b a then b else a)))).toNat
  | _, _ => 0

/-- The bound of R329. -/
def State.derateBound (s : State) (h : Half) (m : Nat) : Nat := (s.hf h).thm.derate * s.mw h m 0x8C / 100

/-! ### An update (R310-R324) -/

/-- The initial temperatures (R320). -/
def initTemps (s : State) (h : Half) (m : Nat) : List Nat :=
  let ok (k : Nat) : Bool := s.sensThere h m k && !(look {} (s.model h m).sens k).broken && (s.sensPoint h m k).isSome
  let base := if ok 2 then s.tempVal h m 2
    else if !s.sensThere h m 5 || ok 5 then s.ambVal h m
    else s.mw h m 0x88
  let own (k : Nat) : Nat := if ok k then s.tempVal h m k else base
  [base, base, own 0, own 1, own 2, own 3, base, base]

/-- Model `m` is initialized. -/
def State.initModel (s : State) (h : Half) (m : Nat) : State :=
  let t := initTemps s h m
  s.mModel h m fun x => { x with active := true, t := t }

/-- One sensor of a model takes its reading; a sensor that becomes broken is counted and raises an event (R321, R338). -/
def readSensor (h : Half) (m : Nat) (s : State) (k : Nat) : State :=
  if !s.sensThere h m k then s.mModel h m fun x => { x with sens := del x.sens k }
  else
    let q := look {} (s.model h m).sens k
    let q' := q.read (s.tick h) k (s.mw h m 0x9C) (s.sensPoint h m k)
    let s := s.mModel h m fun x => { x with sens := put {} x.sens k q' }
    if q'.broken && !q.broken then (s.bump .thm h (0x100 * m + 0xC8) 1).thmEv h 0x0801 [m, k, 1] else s

/-- The coolant range of R324. -/
def coolRange (h : Half) (m : Nat) (s : State) : State :=
  let v := s.tempVal h m 2
  let x := s.model h m
  if flt v (fofInt (-30) 0) || flt (fofInt 50 0) v then
    let s1 := s.mModel h m fun x => { x with coolOut := true, coolOk := 0, coolAt := if x.coolOut then x.coolAt else s.tick h }
    if x.coolOut then s1 else s1.thmEv h 0x0802 [m, 1]
  else if x.coolOut then
    let back := fle (fofInt (-28) 0) v && fle v (fofInt 48 0)
    s.mModel h m fun x => { x with coolOk := if back then x.coolOk + 1 else 0 }
  else s

/-- The update of one model (R311-R324). -/
def updateModel (h : Half) (s : State) (m : Nat) : State :=
  if !s.modelEn h m then s.mModel h m fun x => { x with active := false, ceil := 0, derated := false }
  else
    let s := coolRange h m ((List.range 7).foldl (readSensor h m) s)
    let s := if (s.model h m).active then s else s.initModel h m
    let x := s.thermIn h m
    let t1 := thermStep x (s.model h m).t
    let t2 := correctPin s h m (correctPin s h m t1 0) 1
    let s := judgePin s h m t1 (judgePin s h m t1 s 0) 1
    let band := flowBand x.f (s.mw h m 0x90)
    let q := s.model h m
    let hz := if q.coolOut || q.dataPending then 0 else min (horizon s h m x t2 band) (s.mw h m 0x8C)
    let db := s.derateBound h m
    s.mModel h m fun y => { y with t := t2, band := band, ceil := min hz db,
                                   derated := decide ((s.hf h).thm.derate < 100) && decide (db ≤ hz) }

/-- THERMAL_UPDATE (R310, R311): every enabled model of half `h`, in a tick that is a multiple of 20.
(DESIGN CHOICE, safe: log 34. DESIGN CHOICE, unsafe: log 35.) -/
def execThermalUpdate (h : Half) (s : State) : Out :=
  if s.tick h % 20 ≠ 0 ∨ (s.hf h).thm.set.map (·.1) = some (s.tick h) then .next s
  else
    let s := (List.range 64).foldl (updateModel h) s
    let ceils := (List.range 64).map fun m => (s.model h m).ceil
    .next ((s.mThm h fun t => { t with set := some (s.tick h, ceils), rx := none, go := false }).drew 64)

/-- The set of an update as it is staged: a model disabled or without prediction data since stages 0 (R312, R319). -/
def State.ceilSet (s : State) (h : Half) (l : List Nat) : List Nat :=
  (List.range 64).map fun m => if s.modelEn h m && !(s.model h m).dataPending then l.getD m 0 else 0

/-- CEILING_SEND (R311): the half in charge sends its ceilings; the other half compares its own and takes the set it receives. -/
def execCeilingSend (arrives : Bool) (s : State) : Out :=
  match s.charge with
  | none => .next s
  | some h =>
    match (s.hf h).thm.set with
    | none => .next s
    | some (t, l) =>
      if !arrives || !s.twinUp h || s.tick h < t + 9 then .next s
      else
        let o := other h
        let l := s.ceilSet h l
        let own := match (s.hf o).thm.set with | some e => s.ceilSet o e.2 | none => l
        let s := (List.range 64).foldl (fun s m => if own.getD m 0 = l.getD m 0 then s else s.bump .thm o (0x100 * m + 0xD0) 1) s
        .next ((s.mThm o fun x => { x with rx := some l, go := true }).mThm h fun x => { x with set := some (t, l), go := true })

/-- CEILING_STAGE (R311): at 44 us both halves write the same set; with the twin link dead each writes its own. -/
def execCeilingStage (h : Half) (s : State) : Out :=
  let x := (s.hf h).thm
  let own := x.set.map (·.2)
  let l := if !s.twinUp h then (match x.set with | some (t, l) => if t + 9 ≤ s.tick h then some (s.ceilSet h l) else none | none => none)
    else if x.go then (if s.charge = some h then own else x.rx)
    else none
  match l with
  | none => .next s
  | some l =>
    let s := (List.range 64).foldl (fun s m =>
      (s.stageWrite h (192 + m) (l.getD m 0 : Nat)).mModel h m fun y => { y with staged := l.getD m 0 }) s
    .next (s.mThm h fun t => { t with set := none, rx := none, go := false })

/-- PREDICTION_DATA_COMPLETE (R319). -/
def execPredictionDataComplete (h : Half) (m : Nat) (s : State) : Out :=
  if m < 64 then .next (s.mModel h m fun x => { x with dataPending := false }) else .next s

/-- MODEL_INIT (R320).
(DESIGN CHOICE, unsafe: log 35.) -/
def execModelInit (h : Half) (m : Nat) (s : State) : Out :=
  if m < 64 && s.modelEn h m && !(s.model h m).active then .next (s.initModel h m) else .next s

/-- SENSOR_RECOVERED (R321, R323). -/
def execSensorRecovered (h : Half) (m k : Nat) (s : State) : Out :=
  let q := look {} (s.model h m).sens k
  if q.broken && decide (1000 ≤ q.good) then
    .next ((s.mModel h m fun x => { x with sens := Machine.upd {} x.sens k fun q =>
      { q with broken := false, good := 0, far := 0, near := 0 } }).thmEv h 0x0801 [m, k, 2])
  else .next s

/-- SENSOR_SUSPECT (R322). -/
def execSensorSuspect (h : Half) (m k : Nat) (s : State) : Out :=
  let q := look {} (s.model h m).sens k
  if k < 2 && !q.broken && !q.suspect && decide (1000 ≤ q.far) then
    .next (((s.mModel h m fun x => { x with sens := Machine.upd {} x.sens k fun q =>
      { q with suspect := true, far := 0, near := 0 } }).bump .thm h (0x100 * m + 0xCC) 1).thmEv h 0x0801 [m, k, 3])
  else .next s

/-- SENSOR_SUSPECT_CLEARED (R322). -/
def execSensorSuspectCleared (h : Half) (m k : Nat) (s : State) : Out :=
  let q := look {} (s.model h m).sens k
  if k < 2 && q.suspect && decide (10000 ≤ q.near) then
    .next ((s.mModel h m fun x => { x with sens := Machine.upd {} x.sens k fun q =>
      { q with suspect := false, far := 0, near := 0 } }).thmEv h 0x0801 [m, k, 4])
  else .next s

/-- COOLANT_RANGE_CLEARED (R324). -/
def execCoolantRangeCleared (h : Half) (m : Nat) (s : State) : Out :=
  let x := s.model h m
  if x.coolOut && decide (1000 ≤ x.coolOk) then
    .next ((s.mModel h m fun x => { x with coolOut := false, coolOk := 0 }).thmEv h 0x0802 [m, 0])
  else .next s

/-- A commit of the THM_ block has taken effect in half `h` (R319, R320): a model whose parameters changed has no prediction data; a
model just enabled is initialized anew. `old` reads the words before the edge. -/
def State.thmCommit (s : State) (h : Half) (old : Nat → Word) : State :=
  (List.range 64).foldl (fun s m =>
    let ch (off : Nat) : Bool := old (0x100 * m + off) != s.rg .thm h (0x100 * m + off)
    let par := (List.range 33).any (fun i => ch (0x20 + 4 * i)) || fld (old (0x100 * m)) 23 16 != s.rf .thm h (0x100 * m) 23 16
    let s1 := if par then s.mModel h m fun x => { x with dataPending := true } else s
    if !bitAt (old (0x100 * m)) 31 && s.modelEn h m then s1.mModel h m fun x => { x with active := false } else s1) s

/-! ### The device's own temperature (R326-R334) -/

/-- Event 0x0803 of half `h` (R528). -/
def devThermEv (s : State) (h : Half) (kind v : Nat) : State := s.ev h 1 0x0803 ([kind, v] ++ leInt 2 (s.hf h).thm.tj)

/-- The threshold of a throttle step in 0.01 degC (R327). -/
def throttleAt : Nat → Int
  | 0 => -30000
  | 1 => 10000
  | 2 => 10400
  | _ => 10800

/-- The step a temperature reaches (R327). -/
def throttleFor (tj : Int) : Nat := if 10800 ≤ tj then 3 else if 10400 ≤ tj then 2 else if 10000 ≤ tj then 1 else 0

/-- Throttle steps are entered at their threshold (R327). -/
def throttleEnter (s : State) (h : Half) : State :=
  let x := (s.hf h).thm
  let n := throttleFor x.tj
  if x.step < n then devThermEv (s.mThm h fun t => { t with step := n, below := none }) h 1 n
  else
    let low := decide (0 < x.step) && decide (x.tj < throttleAt x.step - 300)
    s.mThm h fun t => { t with below := if low then (match t.below with | some v => some v | none => some (s.tick h)) else none }

/-- Flash writes are held outside the range of R333; the time back in the narrower range is kept. -/
def flashRange (s : State) (h : Half) : State :=
  let x := (s.hf h).thm
  if !x.flashHold then
    if x.tj < -3000 ∨ 10500 < x.tj then devThermEv (s.mThm h fun t => { t with flashHold := true, flashOk := none }) h 3 1 else s
  else
    let ok := decide (-2800 ≤ x.tj ∧ x.tj ≤ 10300)
    s.mThm h fun t => { t with flashOk := if ok then (match t.flashOk with | some v => some v | none => some (s.tick h)) else none }

/-- The safe stop of R330 starts: from the next solve every target and set-point is 0; the half in charge carries it out. -/
def safeStop (s : State) (h : Half) : State :=
  match s.therm.stop with
  | some _ => s
  | none =>
    if 2 ≤ (s.hf h).thm.hot then
      let s := { s with therm := { s.therm with stop := some (s.tick h, h), doer := s.charge } }.demandZones 0xFF 0xB 0
      devThermEv (s.mBoth fun x => { x with cnp := { x.cnp with stopAll := true, stopLow := 0 } }) h 5 1
    else s

/-- `n` ticks have passed since the tick `last` of half `h`: what the device does each so long is done no sooner.
(DESIGN CHOICE, unsafe: log 122.) -/
def State.due (s : State) (h : Half) (last : Option Nat) (n : Nat) : Bool :=
  match last with
  | some t => decide (t + n ≤ s.tick h)
  | none => true

/-- TJ_ESTIMATE (R326, R327, R330, R333), every 1 ms.
(DESIGN CHOICE, unsafe: log 60.) -/
def execTjEstimate (h : Half) (node : Int) (powers : List Nat) (s : State) : Out :=
  if !s.due h (s.hf h).thm.tjAt 20 then .next s
  else
    let s := s.mThm h fun t =>
      let v := max node t.diode
      { t with tj := v, powers := powers.take 6, hot := if 12500 ≤ v then t.hot + 1 else 0, tjAt := some (s.tick h) }
    .next (safeStop (flashRange (throttleEnter s h) h) h)

/-- TJ_DIODE_RESET (R326), every 100 ms: the hottest node takes the hottest diode's reading. -/
def execTjDiodeReset (h : Half) (diode : Int) (s : State) : Out :=
  if s.due h (s.hf h).thm.diodeAt 2000 then .next (s.mThm h fun t => { t with diode := diode, diodeAt := some (s.tick h) }) else .next s

/-- THROTTLE_EXIT (R327).
(DESIGN CHOICE, unsafe: log 35.) -/
def execThrottleExit (h : Half) (s : State) : Out :=
  let x := (s.hf h).thm
  match x.below with
  | some v =>
    if 0 < x.step && decide (v + 20000 ≤ s.tick h) then
      .next (devThermEv (s.mThm h fun t => { t with step := t.step - 1, below := none }) h 1 (x.step - 1))
    else .next s
  | none => .next s

/-- The Tj that events of the shared domain carry: the package sensor stands in while the halves are off (R326). -/
def State.tjNow (s : State) : Int :=
  if s.halfA.twn.off && s.halfB.twn.off then s.therm.pkg else (s.hf ((s.charge).getD .A)).thm.tj

/-- DERATE_UPDATE (R329): each second, by the higher of both halves' Tj. -/
def execDerateUpdate (h : Half) (s : State) : Out :=
  let x := (s.hf h).thm
  if !s.due h x.derateAt 20000 then .next s
  else
    let tj := max x.tj x.otherTj
    let st := s.rf .thm h 0x4004 23 16
    let n := if 11000 ≤ tj then max (min x.derate (s.rf .thm h 0x4004 31 24)) (x.derate - st)
      else if tj < 10700 then min 100 (x.derate + st) else x.derate
    let s := s.mThm h fun t => { t with derate := n, derateAt := some (s.tick h) }
    if n = x.derate then .next s else .next (devThermEv s h 2 n)

/-- FLASH_WRITE_RESUME (R333): what waited in DRAM is written to flash in order.
(DESIGN CHOICE, unsafe: log 36.) -/
def execFlashWriteResume (h : Half) (s : State) : Out :=
  let x := (s.hf h).thm
  match x.flashHold, x.flashOk with
  | true, some v =>
    if v + 20000 ≤ s.tick h && !s.holdup then .next (devThermEv (s.mThm h fun t => { t with flashHold := false, flashOk := none, buf := 0 }) h 3 0)
    else .next s
  | _, _ => .next s

/-- BNTC_SAMPLE (R334). -/
def execBntcSample (t : Int) (s : State) : Out :=
  let b := s.therm.bntc
  let now := s.now
  let odd := decide (t < -4000 ∨ 10000 < t)
  let since := if odd then none else if b.broken then (match b.okSince with | some v => some v | none => some now) else none
  let broken := odd || (b.broken && !(match since with | some v => decide (v + 200000 ≤ now) | none => false))
  let inh := if broken then true
    else if b.inhibit then !decide (200 ≤ t ∧ t ≤ 4300) else !decide (0 ≤ t ∧ t ≤ 4500)
  let s1 := { s with therm := { s.therm with bntc := { t := t, inhibit := inh, broken := broken, okSince := if broken then since else none } } }
  if inh = b.inhibit then .next s1 else .next (s1.evShared 4 1 0x0803 ([4, b2n inh] ++ leInt 2 s.tjNow))

end Sys2Proof.Machine
end

