-- ==== Sys2Proof/Machine/Vehicle.lean ====
section
/-!
DEFINITION. The session stack: pilot, powerline matching, vehicle messages, limits into Canopy, dispenser commands, mirroring and the VEH_ verbs
(R342-R360). The message formats of the standards of R342 are outside the device's spec; a row carries what a message means.
-/

namespace Sys2Proof.Machine

/-- The port of output `k` (R83). -/
def outPort (k : Nat) : Nat := 32 + k

/-- A received physical value in thousandths (`scale` 1000) or whole units, rounded toward zero; none: it does not fit 32 bits (R343). -/
def physConv (q : Phys) (scale : Int) : Option Int :=
  let n := if 0 ≤ q.e then q.v * scale * 10 ^ q.e.toNat else (q.v * scale).tdiv (10 ^ (-q.e).toNat)
  if -2147483648 ≤ n ∧ n < 2147483648 then some n else none

/-- The limits of a message in mA, W and mV (R343, R352). -/
def limConv (l : VehLim) : Option VehLimS :=
  match physConv l.req 1000, physConv l.imax 1000, physConv l.pmax 1, physConv l.dis 1000, physConv l.dpw 1, physConv l.vtgt 1000, physConv l.vmax 1000 with
  | some a, some b, some c, some d, some e, some f, some g =>
    some { req := a, imax := b, pmax := c, dis := d, dpw := e, vtgt := f, vmax := g, exp := l.exp }
  | _, _, _, _, _, _, _ => none

/-- A session number is taken. -/
def State.sessTaken (s : State) : State := { s with vehG := { s.vehG with next := (s.vehG.next + 1) % 2 ^ 32 } }

/-- An output becomes PLUGGED (R351): a session number is assigned and the session record opened; the record of the session before is written at the latest now (R415). -/
def State.plug (s : State) (k : Nat) : State :=
  let s := if (look none s.bil.core.sess k).isSome then (s.closeAcct k ((List.range 3373).map fun i => s.freeVal i % 256)).drew 3373 else s
  let n := s.vehG.next
  let s := s.sessTaken.mC k fun c => { num := n, plugged := s.now, lastV := c.lastV, act := c.act }
  (s.openAcct k n).enter k 1

/-- PILOT_STATE_CHANGE (R348, R351, R354).
(DESIGN CHOICE, unsafe: log 52.) -/
def execPilotStateChange (k : Nat) (s : State) : Out :=
  let v := s.veh1 k
  let st := v.c.st
  if 48 ≤ k ∨ s.charge.isNone then .next s
  else if st = 0 then
    .next (if bitAt (s.vcfg k 0) 31 && decide (2 ≤ v.pilotN) then s.plug k else s)
  else if st = 10 then .next (if v.pilot = 0 then s.enter k 0 else s)
  else if 8 ≤ st then .next s
  else if v.pilot = 0 then .next (s.stopSession k 0x03)
  else if v.pilot = 4 ∨ v.pilot = 5 then .next (s.stopSession k 0x12)
  else if st = 1 then .next (if bitAt (s.vcfg k 0) 30 && v.dstat.testBit 8 then s.enter k 2 else s)
  else if st = 5 then
    .next (if v.dstat.testBit 6 then s.stopSession k 0x09
      else if v.dstat.testBit 5 then s.mC k fun c => { c with iso := true } else s)
  else .next s

/-- The MAC address from which the device answers on the 10BASE-T1S segment of an output (R348, R444). -/
def outputMac (module : List Nat) (k : Nat) : List Nat := [2] ++ (sha256 (padTo 8 module ++ [k])).take 4 ++ [k]

/-- What the stack sends to the vehicle or its modem, a tunnel message whose frame the standards fix: free bytes, at most 1,526 of them (R118). It waits for
the mirror while the twin link is up; while it is dead it goes to the port at once, and the other half no longer holds the session as it stands (R355). -/
def State.respond (s : State) (k : Nat) : State :=
  let n := s.freeVal 0 % 1505 + 22
  let phy := bitAt (s.vcfg k 0) 30
  let frame := (List.range (n - 8)).map fun i => s.freeVal (i + 1) % 256
  let frame := if phy then frame.take 6 ++ outputMac s.lkt.module k ++ frame.drop 12 else frame
  let b := [if phy then 2 else 1, 0] ++ le 2 (n - 8) ++ le 4 0 ++ frame
  let x := s.charge.getD .A
  let s := s.drew 1520
  if s.twinUp x then s.mVeh k fun v => { v with outq := v.outq ++ [b] } else (s.mVeh k fun v => { v with mir := none }).sendMsg x (outPort k) 0x40 b

/-! ### Powerline matching (R347) -/

/-- SLAC_MESSAGE (R347): the attenuations of all groups and sounds of a RunID at an output, which the stack answers; what is older than 1 s is forgotten.
(DESIGN CHOICE, safe: log 55. DESIGN CHOICE, unsafe: log 59.) -/
def execSlacMessage (k run : Nat) (sounds : List (List Nat)) (s : State) : Out :=
  if 48 ≤ k ∨ s.charge.isNone ∨ bitAt (s.vcfg k 0) 30 then .next s
  else
    let sum := (sounds.map List.sum).sum
    let cnt := (sounds.map List.length).sum
    .next ((s.mVeh k fun v =>
      let old := v.slac.find? fun e => e.1 == run && decide (s.now ≤ e.2.2.2 + 20000)
      let (a, n) := match old with | some e => (e.2.1, e.2.2.1) | none => (0, 0)
      { v with slac := (v.slac.filter fun e => e.1 != run && decide (s.now ≤ e.2.2.2 + 20000)) ++ [(run, a + sum, n + cnt, s.now)] }).respond k)

/-- A RunID's reception at an output, as (sum, count, tick). -/
def State.slacAt (s : State) (k run : Nat) : Option (Nat × Nat × Nat) := ((s.veh1 k).slac.find? fun e => e.1 == run).map (·.2)

/-- R347: the output where a RunID is matched. -/
def State.slacOk (s : State) (k run : Nat) : Bool :=
  match s.slacAt k run with
  | none => false
  | some (sum, cnt, t) =>
    ((s.veh1 k).pilot == 1 || (s.veh1 k).pilot == 2) && decide (0 < cnt) && decide (sum ≤ fld (s.vcfg k 1) 15 8 * cnt) &&
    (List.range 48).all fun j =>
      j == k || match s.slacAt j run with
        | some (sum', cnt', t') => decide (t + 20000 < t' ∨ t' + 20000 < t ∨ (sum + 5 * cnt) * cnt' ≤ sum' * cnt)
        | none => true

/-- Every other output that received a RunID answers it with no match (R347). -/
def State.noMatch (s : State) (k run : Nat) : State :=
  (List.range 48).foldl (fun s j =>
    if j ≠ k ∧ (s.slacAt j run).isSome then (s.mVeh j fun v => { v with slac := v.slac.filter fun e => e.1 != run }).respond j else s) s

/-- SLAC_MATCH (R347, R444): the output answers the match and installs its network membership key, a VOLATILE root of TYPE 0x30 whose material is
free, in the modem; the session enters HANDSHAKE.
(DESIGN CHOICE, safe: log 55. DESIGN CHOICE, unsafe: log 128.) -/
def execSlacMatch (k run : Nat) (s : State) : Out :=
  if (s.veh1 k).c.st = 1 && s.charge.isSome && !bitAt (s.vcfg k 0) 30 && s.slacOk k run then
    let mat := (List.range 16).map fun i => s.freeVal i % 256
    let r := (s.drew 16).createKey { handle := 0, typ := 0x30, dom := 1, eng := 0, use := 0x100 } 1 mat none
    .next ((((r.1.mC k fun c => { c with nmk := some r.2 }).enter k 2).respond k |>.respond k).noMatch k run)
  else .next s

/-! ### Vehicle messages (R343, R349-R354) -/

/-- The protocol taken from the vehicle's entries (R343): of those offered, its entry of highest priority. -/
def pickProto (cfg : Word) (entries : List (Nat × Nat)) : Option Nat :=
  let ok := entries.filter fun e => decide (1 ≤ e.1 ∧ e.1 ≤ 3) && bitAt cfg (28 - e.1)
  (ok.foldl (fun b e => match b with
    | some (c : Nat × Nat) => if e.2 < c.2 then some e else b
    | none => some e) none).map (·.1)

/-- The protocol in use requires TLS (R349). -/
def needsTls (cfg : Word) (proto : Nat) : Bool := proto == 1 || (proto == 2 && bitAt cfg 28)

/-- A charger private key: a usable entry whose engine mask allows ECC and TLS record (R349, R434). -/
def State.chargerKey (s : State) (key : Nat) : Bool :=
  match s.keyE key with
  | some e => s.keyUsable key && !s.expired e && e.eng.testBit 2 && e.eng.testBit 5
  | none => false

/-- The traffic key of a session is entered in Locket as a child of its charger key (R349): AES-256 for TLS 1.3, AES-128 for TLS 1.2. -/
def State.trafficKey (s : State) (k key : Nat) : State :=
  let t := if (s.veh1 k).c.proto = 2 then 1 else 2
  let mat := s.randomMat t
  let r := (s.drew 32).createKey { handle := 0, parent := key, typ := t, dom := 1, eng := 0x20, use := 0x103 } 3 mat none
  r.1.mC k fun c => { c with tls := 3, key := some r.2 }

/-- The route of an output is complete (ROUTE_OK, R174), as the last snapshot of the half in charge has it (R16, R654). -/
def State.routeOk (s : State) (k : Nat) : Bool := (look 0 (s.hf (s.charge.getD .A)).pub.outw k).testBit 0

/-- COOLANT_RANGE is set for the output's model (R324, R354). -/
def State.coolStop (s : State) (k : Nat) : Bool :=
  let h := s.charge.getD .A
  let m := fld (s.ocfg h k 0) 14 8
  decide (m < 64) && (s.model h m).coolOut

/-- Limits taken from a message (R343, R352). -/
def State.takeLimits (s : State) (k : Nat) (l : VehLim) : State :=
  match limConv l with
  | some x => s.mC k fun c => { c with lim := x }
  | none => s.stopSession k 0x07

/-- What a message does in the state of its session (R351); a message the state does not allow ends it with PROTOCOL. -/
def State.vehMsg (s : State) (k : Nat) (m : VehMsg) : State :=
  let c := (s.veh1 k).c
  let cfg := s.vcfg k 0
  match m with
  | .app es =>
    if c.st = 2 then
      match pickProto cfg es with
      | some p => s.mC k fun c => { c with proto := p }
      | none => s.stopSession k 0x07
    else s.stopSession k 0x07
  | .tlsStart =>
    if c.st = 2 ∧ c.proto ≠ 3 then s.mC k fun c => { c with tls := if s.handshakes < 8 then 2 else 1 } else s.stopSession k 0x07
  | .tlsEnd ok key =>
    if c.st = 2 ∧ c.tls = 2 then (if ok && s.chargerKey key then s.trafficKey k key else s.stopSession k 0x08).nextHandshake
    else s.stopSession k 0x07
  | .setup id =>
    if c.st = 2 ∧ c.proto ≠ 0 ∧ (c.tls = 3 ∨ !needsTls cfg c.proto) then (s.mC k fun c => { c with evccid := padTo 22 id }).enter k 3
    else s.stopSession k 0x07
  | .authorize pnc emaid chainOk =>
    if c.st ≠ 3 ∨ (pnc ∧ c.proto = 3) then s.stopSession k 0x07
    else if pnc && c.proto == 2 && c.tls != 3 then s.stopSession k 0x08
    else if c.path ≠ 0 then s
    else (s.mC k fun c => { c with pnc := pnc, emaid := if pnc then padTo 22 emaid else [] }).authorize k 1 chainOk
  | .service bpt dynamic =>
    if c.st = 4 && (!bpt || (c.proto == 1 && !bitAt cfg 20 && bitAt cfg 29 && bitAt (s.ocfg (s.charge.getD .A) k 0) 30)) && (!dynamic || c.proto == 1) then
      s.mC k fun c => { c with bpt := bpt, dynamic := dynamic }
    else s.stopSession k 0x07
  | .params l => if c.st = 4 ∨ c.st = 7 then s.takeLimits k l else s.stopSession k 0x07
  | .cableCheck v =>
    if c.st = 4 then
      match physConv v 1000 with
      | none => s.stopSession k 0x07
      | some x =>
        let s := s.mC k fun c => { c with checkV := x }
        if s.routeOk k && !s.coolStop k then (s.mC k fun c => { c with iso := false }).enter k 5 else s
    else if c.st = 5 then s else s.stopSession k 0x07
  | .preCharge v =>
    match physConv v 1000 with
    | none => s.stopSession k 0x07
    | some x =>
      let s1 := s.mC k fun c => { c with lim := { c.lim with vtgt := x } }
      if c.st = 5 ∧ c.iso then s1.enter k 6 else if c.st = 6 then s1 else s.stopSession k 0x07
  | .powerStart => if c.st = 6 then s.enter k 7 else s.stopSession k 0x07
  | .chargeLoop l => if c.st = 7 then s.takeLimits k l else s.stopSession k 0x07
  | .pause on => if c.st = 7 ∧ c.proto = 1 then s.mC k fun c => { c with paused := on } else s.stopSession k 0x07
  | .stop => s.stopSession k 0x01
  | .fault => s.stopSession k 0x12
  | .bad => s.stopSession k 0x07

/-- VEHICLE_MESSAGE (R351). A session whose keys are orphaned takes nothing and sends nothing (R357).
(DESIGN CHOICE, safe: log 55. DESIGN CHOICE, unsafe: log 56. DEDUCED, unsafe: log 58.) -/
def execVehicleMessage (k : Nat) (m : VehMsg) (s : State) : Out :=
  let c := (s.veh1 k).c
  let dead := match c.key with
    | some key => !s.keyUsable key
    | none => false
  if 48 ≤ k ∨ s.charge.isNone ∨ c.st < 2 ∨ 8 ≤ c.st ∨ c.reason = 0x10 ∨ dead = true then .next s
  else .next (((s.mC k fun c => { c with msgTick := s.now }).vehMsg k m).respond k)

/-! ### Time limits and stops (R351, R354) -/

/-- The end reason of a state limit that has passed (R351). -/
def State.limitReason (s : State) (k : Nat) : Option Nat :=
  let c := (s.veh1 k).c
  let cfg := s.vcfg k 0
  let past (sec : Nat) : Bool := decide (c.since + 20000 * sec ≤ s.now)
  if c.st = 1 ∧ past (fld cfg 7 0) then some 0x06
  else if c.st = 2 ∧ past 20 then some (if c.tls = 1 ∨ c.tls = 2 then 0x08 else 0x07)
  else if c.st = 3 ∧ past (fld cfg 15 8) then some 0x05
  else if c.st = 4 ∧ past 60 then some 0x07
  else if c.st = 5 ∧ !c.iso ∧ past 40 then some 0x09
  else if c.st = 6 ∧ past 7 then some 0x0A
  else none

/-- SESSION_STATE_TIMEOUT (R351): `seq` the sequence timeout of the protocol in use.
(DESIGN CHOICE, unsafe: log 57.) -/
def execSessionStateTimeout (k : Nat) (seq : Bool) (s : State) : Out :=
  let c := (s.veh1 k).c
  if s.charge.isNone then .next s
  else if seq then .next (if 2 ≤ c.st ∧ c.st ≤ 7 then s.stopSession k 0x07 else s)
  else
    match s.limitReason k with
    | some r => .next (s.stopSession k r)
    | none => .next s

/-- An end reason of another subsystem stands (R354, R356): the dispenser reported LOST, the safety island removed energy, the safe stop of R330.
(DESIGN CHOICE, unsafe: log 123.) -/
def State.causeHolds (s : State) (k cause : Nat) : Bool :=
  let h := s.charge.getD .A
  match cause with
  | 0x0D => (s.port h (outPort k)).lost
  | 0x0E => !(s.hf h).saf.permOut.testBit k || (s.hf h).saf.stopOut.testBit k
  | 0x0F => s.therm.stop.isSome
  | _ => false

/-- SESSION_STOP (R354). -/
def execSessionStop (k cause : Nat) (s : State) : Out :=
  if s.charge.isSome && s.causeHolds k cause then .next (s.stopSession k cause) else .next s

/-- STOPPING_COMPLETE (R351). -/
def execStoppingComplete (k : Nat) (s : State) : Out :=
  let v := s.veh1 k
  if v.c.st = 8 ∧ (4 ≤ v.lowN ∨ v.c.since + 500 ≤ s.now) then .next (s.enter k 9) else .next s

/-- V_OUT is below 60 V. -/
def VehS.lowV (v : VehS) : Bool := match v.vout with | some x => decide (x < 60000) | none => false

/-- WELD_CHECK_COMPLETE (R351, R356): WELD sets the weld flag; the record closes. -/
def execWeldCheckComplete (k : Nat) (s : State) : Out :=
  let v := s.veh1 k
  if v.c.st = 9 ∧ (v.lowV ∨ v.c.since + 40000 ≤ s.now) then
    .next ((s.mC k fun c => { c with weld := c.weld || v.dstat.testBit 7 }).enter k 10)
  else .next s

/-- VEHICLE_STOP_GRACE_EXPIRY (R354). -/
def execVehicleStopGraceExpiry (k : Nat) (s : State) : Out :=
  let c := (s.veh1 k).c
  match c.told with
  | some t => if c.st = 7 ∧ t + 40000 ≤ s.now then .next (s.stopSession k c.reason) else .next s
  | none => .next s

/-- COOLANT_SESSION_TIMEOUT (R354): a session before CABLE_CHECK, or in CHARGE, after 60 s of COOLANT_RANGE.
(DESIGN CHOICE, unsafe: log 57.) -/
def execCoolantSessionTimeout (k : Nat) (s : State) : Out :=
  let h := s.charge.getD .A
  let m := fld (s.ocfg h k 0) 14 8
  let c := (s.veh1 k).c
  if s.charge.isSome && s.coolStop k && decide ((s.model h m).coolAt + 1200000 ≤ s.now) && (decide (1 ≤ c.st ∧ c.st < 5) || c.st == 7) then
    .next (s.stopSession k 0x0B)
  else .next s

/-! ### Limits into Canopy (R352, R353) -/

/-- floor(P × 1,000,000 / V) in mA. -/
def ampsFor (p v : Int) : Int := if v ≤ 0 then 0 else p * 1000000 / v

/-- The four entries of an output (R352): request, current limit, power limit, voltage target.
(DESIGN CHOICE, unsafe: log 123.) -/
def State.vehEntries (s : State) (k : Nat) : List Int :=
  let h := s.charge.getD .A
  let c := (s.veh1 k).c
  let l := c.lim
  let v := s.outVolt h k
  if c.st < 4 ∨ 7 < c.st then [0, 0, 0, c.lastV]
  else
    let exp := l.exp && c.bpt && c.disch && bitAt (s.ocfg h k 0) 30
    let vt := if c.st = 5 then c.checkV else if c.st = 6 then l.vtgt else if c.st = 4 then c.lastV else if c.dynamic then l.vmax else l.vtgt
    if exp then [if c.paused then 0 else -(min l.dis (ampsFor l.dpw v)), l.dis, l.dpw, vt]
    else
      let lim := match c.credit with
        | some q => if c.granted = 4 then min l.imax (max 0 (creditLimit q v)) else l.imax
        | none => l.imax
      let req := if l.exp || c.paused then 0 else min l.req (ampsFor l.pmax v)
      [req, lim, l.pmax, vt]

/-- The set of every open session, as (staging entry, value) (R353). -/
def State.vehSet (s : State) : List (Nat × Int) :=
  (List.range 48).flatMap fun k =>
    if 1 ≤ (s.veh1 k).c.st ∧ (s.veh1 k).c.st ≤ 9 then (s.vehEntries k).zipIdx.map fun e => (4 * k + e.2, e.1) else []

/-- Write a set in some halves, and keep each voltage target. -/
def State.writeSet (s : State) (hs : List Half) (l : List (Nat × Int)) : State :=
  let s := hs.foldl (fun s h => l.foldl (fun s e => s.stageWrite h e.1 e.2) s) s
  l.foldl (fun s e => if e.1 % 4 = 3 then s.mC (e.1 / 4) fun c => { c with lastV := e.2 } else s) s

/-- VEHICLE_LIMITS_STAGE (R353): at 44 us of ticks with number mod 20 = 19, or of the tick after a set that missed 40 us. -/
def execVehicleLimitsStage (arrives : Bool) (s : State) : Out :=
  match s.charge with
  | none => .next s
  | some h =>
    let hs := if s.twinUp h then [h, other h] else [h]
    let s1 := if s.vehG.late = [] ∨ s.tick h % 20 = 19 then s else { s.writeSet hs s.vehG.late with vehG := { s.vehG with late := [] } }
    if s.tick h % 20 ≠ 19 then .next s1
    else if !s.twinUp h then .next (s1.writeSet hs s1.vehSet)
    else if arrives then .next (s1.writeSet hs s1.vehSet)
    else .next { s1 with vehG := { s1.vehG with late := s1.vehSet } }

/-! ### Dispenser commands (R346) -/

/-- ACT in the present state of a session (R346, R351). -/
def State.actOf (s : State) (k : Nat) : Nat :=
  let v := s.veh1 k
  match v.c.st with
  | 0 => 0
  | 1 | 2 | 3 | 4 => 12
  | 5 => 12 + 1 + 2 + 64
  | 6 => 12 + 1 + 128
  | 7 => 12 + 1 + 192
  | 8 => v.c.act
  | 9 => 12 + 32
  | _ => 16 + if v.lowV then 0 else 4

/-- The DCMD message (R346). -/
def dcmdMsg (seq edge act ov : Nat) : List Nat := [5, 0] ++ le 2 seq ++ le 8 edge ++ le 2 act ++ [0, 0] ++ le 4 ov

/-- DCMD_SEND (R346): AT at least 4 ticks ahead of the sending (`stampMsg`); OV_TRIP is the stack's own choice, a free value. -/
def execDcmdSend (k ahead : Nat) (s : State) : Out :=
  match s.charge with
  | none => .next s
  | some h =>
    if 48 ≤ k ∨ ahead < 4 then .next s
    else
      let v := s.veh1 k
      let seq := (v.cmdSeq + 1) % 65536
      let act := s.actOf k
      let b := dcmdMsg seq (s.tick h + ahead) act (s.freeVal 0 % 2 ^ 32)
      .next (((s.drew 1).mVeh k fun v => { v with cmdSeq := seq, c := { v.c with act := act } }).sendMsg h (outPort k) 0x43 b)

/-- What a dispenser does with a DCMD (R346). -/
def Remote.dcmd (r : Remote) (d : Dcmd) : Remote :=
  let close := d.act.testBit 0
  let trip := r.ovTrip && close
  { r with cmdSeq := d.seq, act := d.act, ov := d.ov, ovTrip := trip, ovN := if close then r.ovN else 0, shutdownSig := d.act.testBit 4,
           contactors := if close && !trip && r.permitted then 1 else if close && !trip then r.contactors else 0 }

/-- DCMD_APPLY (R346): the oldest DCMD a dispenser has, at edge AT or the next edge after it, and never in LINK_LOST.
(DESIGN CHOICE, unsafe: log 43.) -/
def execDcmdApply (k : Nat) (s : State) : Out :=
  let r := s.rem (outPort k)
  match r.dcmds with
  | [] => .next s
  | d :: t =>
    if r.tick < d.edge then .next s
    else .next (s.mRem (outPort k) fun r => let r := { r with dcmds := t }; if r.linkLost then r else r.dcmd d)

/-! ### Keys, mirror and fail-over (R355, R357) -/

/-- SESSION_KEY_ORPHANED (R357): nothing further is sent under the session's keys. -/
def execSessionKeyOrphaned (k : Nat) (s : State) : Out :=
  match (s.veh1 k).c.key with
  | none => .next s
  | some key =>
    if s.keyUsable key then .next s else .next ((s.mVeh k fun v => { v with outq := [] }).stopSession k 0x10)

/-- One session at an unplanned takeover (R355).
(DESIGN CHOICE, unsafe: log 59.) -/
def resumeSession (s : State) (k : Nat) : State :=
  let v := s.veh1 k
  if 1 ≤ v.c.st ∧ v.c.st ≤ 9 then
    match v.mir.filter fun m => m.num == v.c.num with
    | some m => s.mVeh k fun v => { v with c := m, mir := none, outq := [] }
    | none => (s.mVeh k fun v => { v with outq := [], kept := [] }).stopSession k 0x11
  else s

/-- SESSION_FAILOVER_RESUME (R355): the new half in charge resumes each session from its mirror; the kept uplink messages are replayed in order
as VEHICLE_MESSAGE. A session it did not receive ends with TWIN_NO_STATE.
(DESIGN CHOICE, unsafe: log 59.) -/
def execSessionFailoverResume (h : Half) (s : State) : Out :=
  if s.charge = some h then .next ((List.range 48).foldl resumeSession s) else .next s

/-- SESSION_MIRROR_ACK (R355): the downlink messages the mirror contains go to the port, and the uplink messages it shows consumed are dropped. -/
def execSessionMirrorAck (k : Nat) (s : State) : Out :=
  match s.charge with
  | none => .next s
  | some h =>
    if s.twinUp h then
      let v := s.veh1 k
      let s := v.outq.foldl (fun s b => s.sendMsg h (outPort k) 0x40 b) s
      .next (s.mVeh k fun v => { v with mir := some v.c, outq := [], kept := [] })
    else .next s

/-! ### Verbs (R359, R360) -/

/-- The session of an output is open under that number. -/
def State.openAs (s : State) (k num : Nat) : Bool := let c := (s.veh1 k).c; decide (1 ≤ c.st ∧ c.st ≤ 9) && c.num == num

/-- VEH_AUTH (R350, R359).
(DESIGN CHOICE, unsafe: log 59.) -/
def execVehAuth (o : Org) (k flags num : Nat) (s : State) : Out :=
  .next (s.verb o 0x0901 [rOperator, rInstaller, rVendor] fun s x _ =>
    if 48 ≤ k ∨ 4 ≤ flags then s.complete o x 0x0901 stRange true []
    else if !s.openAs k num then s.complete o x 0x0901 0x0901 true []
    else if (s.veh1 k).c.st ≠ 3 ∨ (s.veh1 k).c.path ≠ 3 then s.complete o x 0x0901 0x0902 true []
    else
      let s := if flags.testBit 0 then (s.mC k fun c => { c with disch := flags.testBit 1 }).grantAuth k 3 else s.authorize k 4 false
      s.complete o x 0x0901 stOk true [])

/-- VEH_STOP (R354, R359): ST_PENDING, and the final completion with ENDED. -/
def execVehStop (o : Org) (k num : Nat) (s : State) : Out :=
  .next (s.verb o 0x0902 [rOperator, rInstaller, rVendor] fun s x _ =>
    if 48 ≤ k then s.complete o x 0x0902 stRange true []
    else if !s.openAs k num then s.complete o x 0x0902 0x0901 true []
    else if 8 ≤ (s.veh1 k).c.st ∨ (s.veh1 k).c.told.isSome then s.complete o x 0x0902 0x0902 true []
    else ((s.complete o x 0x0902 stPending false []).mVeh k fun v => { v with stops := v.stops ++ [o] }).tellStop k 0x02)

/-- VEH_LIST (R359): the lists hold 4,096 identifiers in all. -/
def execVehList (o : Org) (add kind : Nat) (id : List Nat) (s : State) : Out :=
  .next (s.verb o 0x0903 [rOperator, rInstaller] fun s x _ =>
    let e := (kind, padTo 22 id)
    let l := s.vehG.lists
    if 1 < add ∨ kind = 0 ∨ 3 < kind then s.complete o x 0x0903 stRange true []
    else if s.flashFull x 128 then s.complete o x 0x0903 stTempWriteHeld true []
    else if add = 0 then { s with vehG := { s.vehG with lists := l.filter fun f => f != e } }.complete o x 0x0903 stOk true []
    else if e ∈ l then s.complete o x 0x0903 stOk true []
    else if 4096 ≤ l.length then s.complete o x 0x0903 0x0903 true []
    else ({ s with vehG := { s.vehG with lists := l ++ [e] } }.flashWrite x 128).complete o x 0x0903 stOk true [])

/-- VEH_STATUS (R359). -/
def execVehStatus (o : Org) (k : Nat) (s : State) : Out :=
  .next (s.verb o 0x0904 rAny fun s x _ =>
    let c := (s.veh1 k).c
    if 48 ≤ k then s.complete o x 0x0904 stRange true []
    else s.complete o x 0x0904 stOk true ([c.st, c.reason, c.proto, 0] ++ le 4 c.num))

end Sys2Proof.Machine
end

