-- ==== Sys2Proof/Machine/Frames.lean ====
section
/-!
DEFINITION. Tick frames at the device's ports and the uplink tunnel: what a half accepts (R76, R121, R137, R138), what it sends (R98, R99, R204, R205,
R483), tunnel messages (R118, R119, R355).
-/

namespace Sys2Proof.Machine

/-- INGEST_DEADLINE (R76): a frame of this tick that completes from now on is late.
(DESIGN CHOICE, unsafe: log 61.) -/
def execIngestDeadline (h : Half) (s : State) : Out := .next (s.mTck h fun t => { t with ingestEnd := some t.tick })

/-! ### Uplink tick frames -/

/-- A late uplink frame (R76, R81, R121, R153): counted, its data discarded. -/
def State.lateFrame (s : State) (h : Half) (p : Nat) : State :=
  let s := s.bump .nlk h (p * 0x40 + 0x24) 1
  let s := s.srf .tck h 0x08 23 23 1
  if (s.hf h).twn.latePenTick = some (s.tick h) then s
  else (s.mTwn h fun t => { t with latePenTick := some (s.tick h) }).penalty h 1 0x02

/-- `n` positions out of a list, by free numbers from `k` on. -/
def pickFree (free : Nat → Nat) : Nat → Nat → List Nat → List Nat
  | 0, _, _ => []
  | n + 1, k, l =>
    match l[free k % l.length]? with
    | some p => p :: pickFree free n (k + 1) (l.filter (· ≠ p))
    | none => []

/-- Byte errors in a block (R164): `n` bytes at free places take free other values. -/
def spoilBlock (free : Nat → Nat) (n : Nat) (b : List Nat) : List Nat :=
  (pickFree free n 0 (List.range b.length)).zipIdx.foldl (fun b e => modAt b e.1 fun v => v ^^^ (1 + free (4 + e.2) % 255)) b

/-- What CODE_ERR on the receive side and UP_DELAY make of a frame (R164). -/
def State.pertFrame (s : State) (h : Half) (p : Nat) (f : RxFrame) : RxFrame :=
  let f := match pertMag s h 1 p with
    | some m => { f with at_ := f.at_ + 10 * m }
    | none => f
  match pertMag s h 5 p with
  | some m =>
    if m.testBit 7 then
      { f with blocks := f.blocks.zipIdx.map fun e =>
          if fldN m 15 8 = 0xFF ∨ fldN m 15 8 = e.2 then spoilBlock (fun i => s.freeVal (8 * e.2 + i)) (m % 8) e.1 else e.1 }
    else f
  | none => f

/-- The main uplink type of a port (R97). -/
def upType (p : Nat) : Nat := if p < 32 then 0x21 else 0x22

/-- The echo of an accepted frame (R137, R138): counted against the half's own claim; a half that acts in charge steps down on a higher one. -/
def State.takeEcho (s : State) (h : Half) (claim : Nat) : State :=
  let own := (s.hf h).twn.claim
  if claim = own then s.mTwn h fun t => { t with obeyed := t.obeyed + 1 }
  else if own < claim then (s.mTwn h fun t => { t with outranked := t.outranked + 1 }).stepDown h 0x13
  else s

/-- A metering frame goes to the island with its tag (R14, R121): the first two copies of an output and sequence are kept. -/
def State.forwardMeter (s : State) (h : Half) (k : Nat) (b : List Nat) : State :=
  let c : MetCopy := { seq := numAt b 2 2, side := h, bytes := b }
  { s with met := { s.met with copies := Machine.upd [] s.met.copies k fun l => (l.filter fun x => x.seq == c.seq && x.side != h) ++ [c] } }

/-- A Harvitor PDU goes to the island unchecked (R483). -/
def State.forwardHarv (s : State) (p : Nat) (b : List Nat) : State :=
  { s with saf := { s.saf with conns := Machine.upd {} s.saf.conns p fun c => { c with inbox := (c.inbox.filter fun e => e.1 == s.now) ++ [(s.now, b.take 16)] } } }

/-- An uplink tick frame that passed every check (R121): the echo and LOST go to the port's status, the payload to its place. -/
def State.takeFrame (s : State) (h : Half) (p ty : Nat) (b : List Nat) (auth : Bool) : State :=
  let fl := numAt b 1 1
  let claim := numAt b 4 2
  let pay := b.drop 8
  let u : UpFrame := { tick := s.tick h, claim := claim, echoValid := fl.testBit 4, lost := fl.testBit 3,
                       bytes := if auth then pay.take (pay.length - 8) else pay }
  let s := s.mPort h p fun q => { q with lost := u.lost, echoValid := u.echoValid, echo := claim, main := if ty = upType p then some u else q.main,
                                         harv := if ty = 0x25 then some u else q.harv }
  let s := if u.echoValid then s.takeEcho h claim else s
  if ty = 0x23 then s.forwardMeter h (p - 32) b else if ty = 0x25 then s.forwardHarv p pay else s

/-- The tag of an uplink tick frame is as R101 asks: there where the type or the port demands it, and verified where there. A metering frame's is not
looked at (R14). -/
def State.upTag (s : State) (h : Half) (p : Nat) (b : List Nat) : Bool :=
  let ty := numAt b 0 1
  let fl := numAt b 1 1
  if ty = 0x23 then true
  else if fl.testBit 0 then tagGood (s.linkKeyGen p (fl.testBit 2)) (ivFor true h (s.tick h) p ty 0) b
  else ty != 0x25 && !s.portAuth h p

/-- UPLINK_TICK_FRAME (R14, R94, R95, R99-R101, R121, R137): refused at the first failing check and counted there. A metering frame is forwarded with its
tag unchecked. Every block that took a correction is counted.
(DESIGN CHOICE, safe: log 6. DESIGN CHOICE, safe: log 7. DESIGN CHOICE, unsafe: log 61.) -/
def execUplinkTickFrame (h : Half) (p : Nat) (f : RxFrame) (s : State) : Out :=
  if 80 ≤ p ∨ (s.port h p).pstate = 0 then .next s
  else
    let f := s.pertFrame h p f
    let s := if (pertMag s h 5 p).isSome then s.drew 160 else s
    let s := s.mPort h p fun q => { q with winBlks := q.winBlks + f.blocks.length }
    let cnt (s : State) (off : Nat) : Out := .next (s.bump .nlk h (p * 0x40 + off) 1)
    if f.cv then cnt s 0x10
    else
      let n := rsFixed f.blocks
      let s := (s.bump .nlk h (p * 0x40 + 0x18) n).mPort h p fun q => { q with winCorr := q.winCorr + n }
      match rsDecodeAll f.blocks with
      | none => cnt s 0x1C
      | some (b, _) =>
        let ty := numAt b 0 1
        let fl := numAt b 1 1
        let now := s.tick h
        let seq := numAt b 2 2
        if f.blocks.length ≠ 1 + numAt b 7 1 % 16 then cnt s 0x28
        else if (ty ≠ upType p ∧ ty ≠ 0x25 ∧ (ty ≠ 0x23 ∨ p < 32)) ∨ !fl.testBit 1 ∨ numAt b 6 1 ≠ p then cnt s 0x28
        else if seq ≠ now % 2 ^ 16 ∧ seq ≠ (now + 2 ^ 16 - 1) % 2 ^ 16 then cnt s 0x28
        else if seq ≠ now % 2 ^ 16 ∨ 20000 < f.at_ ∨ (s.hf h).tck.ingestEnd = some now then .next (s.lateFrame h p)
        else if !s.upTag h p b then cnt s 0x20
        else .next (s.takeFrame h p ty b (fl.testBit 0))

/-! ### Downlink tick frames -/

/-- Every loop block fed from the remote at port `p` is in TRACK with its output equal to its measured value (R227), and every group of a cabinet's sequencer is
OFF or LATCHED (R249). -/
def State.restartReady (s : State) (h : Half) (p : Nat) : Bool :=
  (decide (32 ≤ p) || (List.range 4).all fun g => (s.seqG h p g).st == 0 || (s.seqG h p g).st == 6) && (List.range 60).all fun l => (List.range 8).all fun b =>
    let a := s.param h l (0x20 * b + 0x0C)
    !s.hasBlock h l b || !s.kindUsed h l b || !(decide (0x2000 ≤ a ∧ a < 0x4800) && (a - 0x2000) / 128 == p) || ((s.loopB h l b).track && (s.loopB h l b).atMeas)

/-- Word `w` of a main downlink payload (R204): the slot its dispatch entry names, 0 for none. -/
def State.dispatchWord (s : State) (h : Half) (p w : Nat) : Nat :=
  let off := 0x20000 + 0x80 * p + w / 2 * 4
  let slot := if w % 2 = 0 then s.rf .cln h off 11 0 else s.rf .cln h off 27 16
  if slot < 0x800 then (look 0 (s.hf h).cln.slots slot).toNat else 0

/-- Header bytes 0-7 of a downlink tick frame (R96). -/
def State.downHead (s : State) (h : Half) (p ty nblk : Nat) (auth resume : Bool) : List Nat :=
  [ty, b2n auth + 4 * b2n (auth && (s.port h p).keygen) + 8 * b2n resume] ++ le 2 (s.tick h) ++ le 2 (s.hf h).twn.claim ++ [p, nblk]

/-- The time a frame takes on the line in ns (R84, R95): 36 characters a block with SOT and EOF. -/
def lineTime (blocks : Nat) : Nat := 40 * (36 * blocks + 2)

/-- What CODE_ERR on the transmit side makes of a frame (R164). -/
def State.pertSent (s : State) (h : Half) (p : Nat) (f : SentFrame) : SentFrame :=
  match pertMag s h 5 p with
  | some m =>
    if m.testBit 7 then f
    else
      { f with blocks := f.blocks.zipIdx.map fun e =>
          if fldN m 15 8 = 0xFF ∨ fldN m 15 8 = e.2 then spoilBlock (fun i => s.freeVal (16 + 8 * e.2 + i)) (m % 8) e.1 else e.1 }
  | none => f

/-- DOWNLINK_DISPATCH (R49, R78, R93, R98, R99, R102, R111, R204, R205, R227, R483): the main frame from the slots as drained in this tick, and the Harvitor
PDU of the connection, one IDLE after it. A port that misses its deadline sends nothing, and a frame that DN_DELAY puts past 47.90 us is not sent (R164).
(DESIGN CHOICE, safe: log 62.) -/
def execDownlinkDispatch (h : Half) (p : Nat) (onTime : Bool) (s : State) : Out :=
  let q := s.port h p
  if 80 ≤ p ∨ q.pstate ≠ 4 ∨ s.tick h < q.svcFrom ∨ (s.hf h).twn.service = false ∨ s.pstate = 1 then .next s
  else if !onTime then .next ((s.mPort h p fun q => { q with down := none, downHarv := none }).stageMissed h true)
  else
    let resume := q.lost && (q.resume || s.restartReady h p)
    let auth := s.portAuth h p
    let nblk := fld (s.nlkCfg h p) 27 24 - 1
    let words := (24 + 32 * nblk - if auth then 8 else 0) / 2
    let pay := (List.range words).flatMap fun w => le 2 (if w < 56 then s.dispatchWord h p w else 0)
    let at_ := 40000 + 10 * (pertMag s h 2 p).getD 0
    let end_ := at_ + lineTime (nblk + 1)
    let main := s.pertSent h p (s.mkFrame p at_ q.keygen auth (ivFor false h (s.tick h) p (mainType p) 0) (s.downHead h p (mainType p) nblk auth resume ++ pay))
    let harv := s.pertSent h p (s.mkFrame p (end_ + 80) q.keygen true (ivFor false h (s.tick h) p 0x15 0) (s.downHead h p 0x15 0 true resume ++ padTo 16 (s.conn p).pdu))
    let s := if s.linkKeyGen p q.keygen = none ∨ (pertMag s h 5 p).isSome then s.drew 64 else s
    .next (s.mPort h p fun q => { q with resume := resume, down := if end_ ≤ 47900 then some main else none,
                                         downHarv := if s.connEn p && !(s.conn p).pdu.isEmpty && (s.conn p).sentTick == s.now && decide (end_ + 80 + lineTime 1 ≤ 47900) then some harv else none })

/-! ### The uplink tunnel -/

/-- TUNNEL_MESSAGE_RECEIVED (R118, R119, R355): the oldest complete tunnel message of a port goes to the session stack of the half in charge, where
VEHICLE_MESSAGE and SLAC_MESSAGE say what it means; the other half keeps it until the mirror shows it consumed. A message that is not laid out as R118 says
is dropped and counted. -/
def execTunnelMessageReceived (h : Half) (p : Nat) (s : State) : Out :=
  match s.takeMsg h p 0x40 (fun _ => true) with
  | none => .next s
  | some (m, s) =>
    let n := numAt m 2 2
    if p < 32 ∨ 80 ≤ p ∨ numAt m 0 1 ≠ (if bitAt (s.vcfg (p - 32) 0) 30 then 2 else 1) ∨ n < 14 ∨ 1518 < n ∨ m.length ≠ 8 + n then
      .next (s.bump .nlk h (p * 0x40 + 0x2C) 1)
    else if s.charge = some (other h) ∧ s.twinUp h then .next (s.mVeh (p - 32) fun v => { v with kept := v.kept ++ [m] })
    else .next s

end Sys2Proof.Machine
end

