-- ==== Sys2Proof/Machine/LaneIsa.lean ====
section
/-!
DEFINITION. The lane instructions (R180): each is executed by a running lane at its program counter, under its COND.
-/

namespace Sys2Proof.Machine

/-- NOP. -/
def execNop (w : LaneAt) (s : State) : Out := .next (s.laneStep w 1 id)

/-- HALT (R167): the lane's run ends. -/
def execHalt (w : LaneAt) (s : State) : Out := .next (s.laneStep w 1 fun l => { l with run := false })

/-- RPT #n, #len (R181).
(DEDUCED, unsafe: log 14.) -/
def execRpt (w : LaneAt) (n : Fin 4096) (len : Fin 1024) (s : State) : Out :=
  .next (s.laneRepeat w (n.val + 1) len.val fun _ => n.val + 1)

/-- RPTV vs, #max, #len (R180, R181): vs is read once; iterations from clamp(vs, 0, max) upward are not taken.
(DEDUCED, unsafe: log 14.) -/
def execRptv (w : LaneAt) (vs : Fin 32) (max : Fin 4096) (len : Fin 32) (s : State) : Out :=
  .next (s.laneRepeat w (max.val + 1) (len.val + 1) fun l => (clampI 0 (max.val + 1) (l.rv vs.val)).toNat)

/-- MOVI. -/
def execMovi (w : LaneAt) (d : Fin 32) (imm : BitVec 16) (s : State) : Out :=
  .next (s.laneStep w 1 fun l => l.setV d.val imm)

/-- MOV. -/
def execMov (w : LaneAt) (d vs : Fin 32) (s : State) : Out :=
  .next (s.laneStep w 1 fun l => l.setV d.val (look 0 l.v vs.val))

/-- ADD. -/
def execAdd (w : LaneAt) (d vs vt : Fin 32) (s : State) : Out :=
  .next (s.laneStep w 1 fun l => l.satV d.val (l.rv vs.val + l.rv vt.val))

/-- SUB. -/
def execSub (w : LaneAt) (d vs vt : Fin 32) (s : State) : Out :=
  .next (s.laneStep w 1 fun l => l.satV d.val (l.rv vs.val - l.rv vt.val))

/-- NEG. -/
def execNeg (w : LaneAt) (d vs : Fin 32) (s : State) : Out :=
  .next (s.laneStep w 1 fun l => l.satV d.val (-l.rv vs.val))

/-- ABS. -/
def execAbs (w : LaneAt) (d vs : Fin 32) (s : State) : Out :=
  .next (s.laneStep w 1 fun l => l.satV d.val (l.rv vs.val).natAbs)

/-- MIN. -/
def execMin (w : LaneAt) (d vs vt : Fin 32) (s : State) : Out :=
  .next (s.laneStep w 1 fun l => l.setV d.val (if l.rv vs.val ≤ l.rv vt.val then look 0 l.v vs.val else look 0 l.v vt.val))

/-- MAX. -/
def execMax (w : LaneAt) (d vs vt : Fin 32) (s : State) : Out :=
  .next (s.laneStep w 1 fun l => l.setV d.val (if l.rv vt.val ≤ l.rv vs.val then look 0 l.v vs.val else look 0 l.v vt.val))

/-- CLMP: vd := min(max(vd, vs), vt). -/
def execClmp (w : LaneAt) (d vs vt : Fin 32) (s : State) : Out :=
  .next (s.laneStep w 1 fun l => l.satV d.val (min (max (l.rv d.val) (l.rv vs.val)) (l.rv vt.val)))

/-- SHL. -/
def execShl (w : LaneAt) (d vs : Fin 32) (k : Fin 16) (s : State) : Out :=
  .next (s.laneStep w 1 fun l => l.satV d.val (l.rv vs.val * 2 ^ k.val))

/-- SHR, rounded. -/
def execShr (w : LaneAt) (d vs : Fin 32) (k : Fin 16) (s : State) : Out :=
  .next (s.laneStep w 1 fun l => l.satV d.val (roundShift (l.rv vs.val) k.val))

/-- AND. -/
def execAnd (w : LaneAt) (d vs vt : Fin 32) (s : State) : Out :=
  .next (s.laneStep w 1 fun l => l.setV d.val (look 0 l.v vs.val &&& look 0 l.v vt.val))

/-- OR. -/
def execOr (w : LaneAt) (d vs vt : Fin 32) (s : State) : Out :=
  .next (s.laneStep w 1 fun l => l.setV d.val (look 0 l.v vs.val ||| look 0 l.v vt.val))

/-- XOR. -/
def execXor (w : LaneAt) (d vs vt : Fin 32) (s : State) : Out :=
  .next (s.laneStep w 1 fun l => l.setV d.val (look 0 l.v vs.val ^^^ look 0 l.v vt.val))

/-- SEL. -/
def execSel (w : LaneAt) (d vs vt : Fin 32) (k : Fin 4) (s : State) : Out :=
  .next (s.laneStep w 1 fun l => l.setV d.val (if l.rp k.val then look 0 l.v vs.val else look 0 l.v vt.val))

/-- CMP. -/
def execCmp (w : LaneAt) (d : Fin 4) (vs vt : Fin 32) (cc : Cc) (s : State) : Out :=
  .next (s.laneStep w 1 fun l => l.setP d.val (ccHolds cc (l.rv vs.val) (l.rv vt.val)))

/-- PLOG. -/
def execPlog (w : LaneAt) (d ps pt : Fin 4) (op : Plop) (s : State) : Out :=
  .next (s.laneStep w 1 fun l => l.setP d.val (plopVal op (l.rp ps.val) (l.rp pt.val)))

/-- MUL: the exact product. -/
def execMul (w : LaneAt) (d : Fin 4) (vs vt : Fin 32) (s : State) : Out :=
  .next (s.laneStep w 1 fun l => l.satA d.val (l.rv vs.val * l.rv vt.val))

/-- MAC. -/
def execMac (w : LaneAt) (d : Fin 4) (vs vt : Fin 32) (s : State) : Out :=
  .next (s.laneStep w 1 fun l => l.satA d.val (l.ra d.val + l.rv vs.val * l.rv vt.val))

/-- MSU. -/
def execMsu (w : LaneAt) (d : Fin 4) (vs vt : Fin 32) (s : State) : Out :=
  .next (s.laneStep w 1 fun l => l.satA d.val (l.ra d.val - l.rv vs.val * l.rv vt.val))

/-- LDA. -/
def execLda (w : LaneAt) (d : Fin 4) (vs : Fin 32) (s : State) : Out :=
  .next (s.laneStep w 1 fun l => l.satA d.val (l.rv vs.val * 2 ^ 15))

/-- ADDA. -/
def execAdda (w : LaneAt) (d as_ : Fin 4) (s : State) : Out :=
  .next (s.laneStep w 1 fun l => l.satA d.val (l.ra d.val + l.ra as_.val))

/-- SUBA. -/
def execSuba (w : LaneAt) (d as_ : Fin 4) (s : State) : Out :=
  .next (s.laneStep w 1 fun l => l.satA d.val (l.ra d.val - l.ra as_.val))

/-- MOVA. -/
def execMova (w : LaneAt) (d as_ : Fin 4) (s : State) : Out :=
  .next (s.laneStep w 1 fun l => { l with a := put 0 l.a d.val (look 0 l.a as_.val) })

/-- SHA: k is signed, -16 to 15. -/
def execSha (w : LaneAt) (d : Fin 4) (k : Fin 32) (s : State) : Out :=
  .next (s.laneStep w 1 fun l =>
    if k.val < 16 then l.satA d.val (l.ra d.val * 2 ^ k.val) else l.satA d.val (roundShift (l.ra d.val) (32 - k.val)))

/-- AMULV: A := A x vs / 2^15, rounded; 3 cycles. -/
def execAmulv (w : LaneAt) (d : Fin 4) (vs : Fin 32) (s : State) : Out :=
  .next (s.laneStep w 3 fun l => l.satA d.val (roundShift (l.ra d.val * l.rv vs.val) 15))

/-- STR: vd := A x 2^n / 2^15, rounded. -/
def execStr (w : LaneAt) (d : Fin 32) (as_ : Fin 4) (n : Fin 16) (s : State) : Out :=
  .next (s.laneStep w 1 fun l => l.satV d.val (roundShift (l.ra as_.val * 2 ^ n.val) 15))

/-- ACLMP: A := min(max(A, vs x 2^15), vt x 2^15); pk says whether A changed. -/
def execAclmp (w : LaneAt) (d k : Fin 4) (vs vt : Fin 32) (s : State) : Out :=
  .next (s.laneStep w 1 fun l =>
    let r := min (max (l.ra d.val) (l.rv vs.val * 2 ^ 15)) (l.rv vt.val * 2 ^ 15)
    (l.satA d.val r).setP k.val (decide (r ≠ l.ra d.val)))

/-- LD (R172-R176); 2 cycles. -/
def execLd (w : LaneAt) (r : Fin 32) (m : MemOp) (s : State) : Out :=
  .next (s.laneStep w 2 fun l =>
    let x := s.laneRead w.half w.lane.val (l.ea m)
    ((l.postMod m).setV r.val (BitVec.ofNat 16 x.1)).addr x.2)

/-- ST: outside state memory the write is ignored and ADDR_ERR set (R176). -/
def execSt (w : LaneAt) (m : MemOp) (r : Fin 32) (s : State) : Out :=
  .next (s.laneStep w 1 fun l =>
    let a := l.ea m
    let l' := l.postMod m
    if a < 0x1000 then l'.store a (look 0 l.v r.val) else l'.addr true)

/-- LDW: at an odd address it loads 0 and sets ADDR_ERR (R176); 2 cycles. -/
def execLdw (w : LaneAt) (r : Fin 4) (m : MemOp) (s : State) : Out :=
  .next (s.laneStep w 2 fun l =>
    let a := l.ea m
    let l' := l.postMod m
    if a % 2 = 1 then (l'.satA r.val 0).addr true
    else
      let lo := s.laneRead w.half w.lane.val a
      let hi := s.laneRead w.half w.lane.val (a + 1)
      (l'.satA r.val (signed 32 (lo.1 + 2 ^ 16 * hi.1))).addr (lo.2 || hi.2))

/-- STW: saturated to 32 bits; at an odd address nothing but ADDR_ERR (R176); 2 cycles. -/
def execStw (w : LaneAt) (m : MemOp) (r : Fin 4) (s : State) : Out :=
  .next (s.laneStep w 2 fun l =>
    let a := l.ea m
    let l' := l.postMod m
    if a % 2 = 1 then l'.addr true
    else
      let v := satTo 32 (l.ra r.val)
      let n := (v.1 % 2 ^ 32).toNat
      let l' := { l' with sat := l'.sat || v.2 }
      if a < 0x1000 then (l'.store a (BitVec.ofNat 16 n)).store (a + 1) (BitVec.ofNat 16 (n / 2 ^ 16)) else l'.addr true)

/-- LDX; 2 cycles. -/
def execLdx (w : LaneAt) (r : Fin 4) (m : MemOp) (s : State) : Out :=
  .next (s.laneStep w 2 fun l =>
    let x := s.laneRead w.half w.lane.val (l.ea m)
    ((l.postMod m).setX r.val (BitVec.ofNat 16 x.1)).addr x.2)

/-- MOVX. -/
def execMovx (w : LaneAt) (d : Fin 4) (imm : BitVec 16) (s : State) : Out :=
  .next (s.laneStep w 1 fun l => l.setX d.val imm)

/-- ADDX, modulo 2^16. -/
def execAddx (w : LaneAt) (d : Fin 4) (imm : BitVec 16) (s : State) : Out :=
  .next (s.laneStep w 1 fun l => l.setX d.val (l.rx d.val + imm))

/-- OUT (R198). -/
def execOut (w : LaneAt) (vs : Fin 32) (i : OutIdx) (s : State) : Out :=
  .next (s.laneStep w 1 fun l =>
    l.emit (s.slotCnt w.half w.lane.val) (match i with | .imm i => i.val | .ptr k => (l.rx k.val).toNat % 64) (look 0 l.v vs.val))

/-- LANE_OVERRUN (R196, R197): the lane stops, its result line is discarded, OVR is set and counted, event 0x0501, the penalty
of R153 once in the tick; a second consecutive overrun makes the half UNHEALTHY. A spare lane (60-63) only stops, with OVR for the comparison of R203. -/
def execLaneOverrun (h : Half) (l : Nat) (s : State) : Out :=
  let x := s.lane h l
  if !x.run then .next s
  else
    let b := s.laneBudget h (s.laneIdx h l)
    let s := s.mLane h l fun x => { x with run := false, line := [], ovr := true, reps := [], cyc := b }
    if 60 ≤ l then .next s
    else
    let s := (s.bump .cln h (0x20 * l + 0x0C) 1).ev h 2 0x0501 ([l, 0] ++ le 2 b)
    let s := s.stagePenalty h 0x06
    if x.lastOvr then .next (s.goUnhealthy h 0x84) else .next s

end Sys2Proof.Machine
end

