-- ==== Sys2Proof/Machine/LaneRun.lean ====
section
/-!
DEFINITION. The start of the lanes of a tick (R147, R167, R169, R173, R195, R198). A lane under a library program (R212) or the sequencer program (R249) runs
whole at its start, since the spec gives what those programs compute and not their instructions; another program runs by its instructions.
-/

namespace Sys2Proof.Machine

/-- A lane as it starts (R169, R173, R195, R198): registers 0, result line cleared, FIRST and LAST_OVR from what came before. -/
def LaneS.started (x : LaneS) (base : Nat) (of_ : Option Nat) : LaneS :=
  { mem := x.mem, run := true, pc := base, first := x.firstDue, lastOvr := x.ovr, shadowOf := of_ }

/-- The lane's program is one that runs whole: the library's loop image or the sequencer's. -/
def State.whole (s : State) (h : Half) (l : Nat) : Bool :=
  match s.laneImage h l with
  | some i => i.progId == 0x4C4F4F50 || i.progId == 0x50534551
  | none => false

/-- The state a library lane keeps in its private words (R212). -/
def LoopB.words (b : LoopB) : List Int :=
  [b.r, b.mv, b.i, b.u, b.unb] ++ ([b2n b.prevMan, b2n b.prevAuto, b.seq, b.mseq, b.injSeq, b2n b.injOn, b.injN, b.lfsr, b.phi] : List Nat).map Int.ofNat

/-- The state a sequencer lane keeps of a group. -/
def SeqG.words (g : SeqG) : List Int :=
  [g.ss, g.vf, g.iprev] ++ g.integ.map (·.2)
    ++ ([g.st, g.probeN, g.lastAdd, g.hi, g.lo, g.bu, g.bpos, g.winN, g.retries, g.cause, g.hicT, g.quiet, g.hold] ++ g.queue
      ++ g.w.map (·.2) ++ g.cbc.map (·.2)).map Int.ofNat

/-- The program of a lane that runs whole. -/
def runWhole (h : Half) (l : Nat) (s : State) : State :=
  match s.laneImage h l with
  | none => s
  | some i =>
    if s.laneBudget h l < i.verified then s
    else if i.progId = 0x4C4F4F50 then
      let first := (s.lane h l).first || (s.lane h l).lastOvr
      let s := ((List.range 8).filter fun b => s.hasBlock h l b).foldl (runBlock h l first) s
      s.mLane h l fun x => { x.libStore ((List.range 8).flatMap fun b => (s.loopB h l b).words) with run := false, cyc := i.verified }
    else if i.progId = 0x50534551 then
      let s := runSeq h l ((s.lane h l).first || (s.lane h l).lastOvr) s
      let c := (s.seqCab h l).getD 32
      s.mLane h l fun x => { x.libStore ((List.range 4).flatMap fun g => (s.seqG h c g).words) with run := false, cyc := i.verified }
    else s

/-- A working lane starts (R167). -/
def startLane (h : Half) (s : State) (l : Nat) : State :=
  if bitAt (s.lcfg0 h l) 31 then runWhole h l (s.mLane h l fun x => x.started (fld (s.lcfg0 h l) 15 0) none)
  else s.mLane h l fun x => { x with run := false, ovr := false }

/-- A spare starts on a copy of the lane it shadows, or stands still (R147, R148). -/
def startSpare (h : Half) (plan : List (Nat × Nat)) (s : State) (k : Nat) : State :=
  match plan.find? fun e => e.2 = k with
  | some e =>
    if bitAt (s.lcfg0 h e.1) 31 then
      s.mLane h (60 + k) fun _ => (s.lane h e.1).started (fld (s.lcfg0 h e.1) 15 0) (some e.1)
    else s.mLane h (60 + k) fun _ => { shadowOf := some e.1 }
  | none => s.mLane h (60 + k) fun _ => {}

/-- A spare that shadows a lane whose program runs whole runs the same program on the same inputs (R147). -/
def spareWhole (h : Half) (s : State) (e : Nat × Nat) : State :=
  if bitAt (s.lcfg0 h e.1) 31 && s.whole h e.1 then s.mLane h (60 + e.2) fun _ => { s.lane h e.1 with shadowOf := some e.1 } else s

/-- LANE_RUN_START (R147, R167, R193): what the lanes read is fixed, ingest has ended (R76), the lanes and spares start.
(DESIGN CHOICE, safe: log 13.) -/
def execLaneRunStart (h : Half) (s : State) : Out :=
  if ((s.hf h).twn.service || (s.hf h).twn.rejoin) && s.pstate != 1 then
    let plan := shadowPlan s h
    let s := (s.mCln h fun c => { c with view := s.viewNow h }).mTck h fun t => { t with ingestEnd := some t.tick }
    let s := (List.range 4).foldl (startSpare h plan) s
    let s := (List.range 60).foldl (startLane h) s
    .next (plan.foldl (spareWhole h) s)
  else .next s

end Sys2Proof.Machine
end

