-- ==== Sys2Proof/Machine/LoadSwitch.lean ====
section
/-!
DEFINITION. The sixteen load-switch channels (R564-R581).
-/

namespace Sys2Proof.Machine

/-- A register of channel `c`, and its fields. -/
def State.lswR (s : State) (c off : Nat) : Word := s.rg .lsw .A (0x20 * c + off)
def State.lswF (s : State) (c off hi lo : Nat) : Nat := fld (s.lswR c off) hi lo
def State.setLswF (s : State) (c off hi lo v : Nat) : State := s.srf .lsw .A (0x20 * c + off) hi lo v
def State.lswC (s : State) (c : Nat) : LswC := look {} s.lsw.chans c
def State.mLswC (s : State) (c : Nat) (f : LswC → LswC) : State := { s with lsw := { s.lsw with chans := Machine.upd {} s.lsw.chans c f } }
def State.lswG (s : State) (g : Nat) : LswG := look {} s.lsw.grps g
def State.mLswG (s : State) (g : Nat) (f : LswG → LswG) : State := { s with lsw := { s.lsw with grps := Machine.upd {} s.lsw.grps g f } }

/-- STATE of channel `c`: 0 OFF, 1 INRUSH, 2 ON, 3 RETRY_WAIT, 4 LATCHED, 5 THERMAL, 6 UV_OFF (R578). -/
def State.lswSt (s : State) (c : Nat) : Nat := s.lswF c 0x0C 31 29

/-- The channel is enabled: EN 1 with a MODE other than 0b11 (R575). -/
def State.lswEn (s : State) (c : Nat) : Bool := s.lswF c 0 31 31 == 1 && s.lswF c 0 29 28 != 3

/-- The switch of channel `c` is on: INRUSH or ON. -/
def State.lswOn (s : State) (c : Nat) : Bool := s.lswSt c == 1 || s.lswSt c == 2

/-- Group `g` is undervoltage. -/
def State.lswUv (s : State) (g : Nat) : Bool := s.rb .lsw .A (0x204 + 0x10 * g) 31

/-- Enter a state, at the present tick; the limiter of a channel that is off does not act. -/
def State.lswTo (s : State) (c st : Nat) : State := ((s.setLswF c 0x0C 31 29 st).setLswF c 0x0C 28 28 0).mLswC c fun x => { x with since := s.now }

/-- Enter INRUSH (R567, R569): LSW_LIM is latched. In an undervoltage group an enabled channel is in UV_OFF (R565). -/
def State.lswInrush (s : State) (c : Nat) : State :=
  if s.lswUv (c / 4) then s.lswTo c 6 else (s.lswTo c 1).mLswC c fun x => { x with lim := s.lswR c 4 }

/-- Enter LATCHED with a CAUSE (R567, R578). -/
def State.lswLatch (s : State) (c cause : Nat) : State :=
  ((s.lswTo c 4).setLswF c 0x0C 23 22 cause).bump .lsw .A (0x20 * c + 0x14) 1

/-- Event 0x0F03 of a channel (R581). -/
def State.lswEv (s : State) (c cur : Nat) : State :=
  s.evShared 4 1 0x0F03 ([c, s.lswSt c, s.lswF c 0x0C 23 22, s.lswF c 0x0C 26 26 + 2 * s.lswF c 0x0C 25 25 + 4 * b2n (s.lswUv (c / 4))] ++ le 2 cur)

/-- The limits latched: ILIM and IINR in mA, TINR in ms, OL_TH in mA (R576). -/
def LswC.ilim (x : LswC) : Nat := 50 * max 1 (min 80 (fld x.lim 31 24))
def LswC.iinr (x : LswC) : Nat := 50 * max 1 (min 240 (fld x.lim 23 16))
def LswC.tinr (x : LswC) : Nat := max 1 (min 100 (fld x.lim 15 8))
def LswC.olTh (x : LswC) : Nat := 10 * fld x.lim 7 0

/-- A write of LSW_CTL in the shared I/O domain (R567, R575). -/
def State.lswCtlWrite (s : State) (c : Nat) (w : Word) : State :=
  let was := s.lswEn c
  let s := s.srg .lsw .A (0x20 * c) (w &&& 0xF80007FF)
  let isEn := s.lswEn c
  let clr := bitAt w 26
  let s := if clr || (!was && isEn) then s.mLswC c fun x => { x with used := false } else s
  let s := if clr && s.lswSt c == 4 then (s.lswTo c 0).setLswF c 0x0C 23 22 0 else s
  if s.lswSt c == 4 then s
  else if !isEn then s.lswTo c 0
  else if s.lswSt c == 0 then s.lswInrush c
  else s

/-- LSW_ENABLE.
(DEDUCED, unsafe: log 71.) -/
def execLswEnable (h : Half) (c mode : Nat) (s : State) : Out :=
  if c < 16 then .next (s.gated h fun s => s.lswCtlWrite c (setFld (setFld (s.lswR c 0) 31 31 1) 29 28 mode)) else .next s

/-- LSW_DISABLE. -/
def execLswDisable (h : Half) (c : Nat) (s : State) : Out :=
  if c < 16 then .next (s.gated h fun s => s.lswCtlWrite c (setFld (s.lswR c 0) 31 31 0)) else .next s

/-- LSW_CLR. -/
def execLswClr (h : Half) (c : Nat) (s : State) : Out :=
  if c < 16 then .next (s.gated h fun s => s.lswCtlWrite c (setFld (s.lswR c 0) 26 26 1)) else .next s

/-- LSW_INRUSH_END: at TINR the current is judged against ILIM (R567, R569).
(DESIGN CHOICE, unsafe: log 70.) -/
def execLswInrushEnd (c cur : Nat) (s : State) : Out :=
  let x := s.lswC c
  if 16 ≤ c ∨ s.lswSt c ≠ 1 ∨ s.now < x.since + 20 * x.tinr then .next s
  else if cur ≤ x.ilim then .next (s.lswTo c 2)
  else if x.used then .next (s.lswLatch c 2)
  else .next (s.lswTo c 3)

/-- LSW_RETRY_WAIT_END (R567): after 10 ms INRUSH again, with RETRIED set. -/
def execLswRetryWaitEnd (c : Nat) (s : State) : Out :=
  if c < 16 ∧ s.lswSt c = 3 ∧ (s.lswC c).since + 200 ≤ s.now then .next (((s.mLswC c fun x => { x with used := true }).setLswF c 0x0C 24 24 1).lswInrush c) else .next s

/-- LSW_LIMIT_TIMEOUT (R568): off, LATCHED with CAUSE 0b01, OC, event.
(DESIGN CHOICE, unsafe: log 72.) -/
def execLswLimitTimeout (c cur : Nat) (s : State) : Out :=
  if c < 16 ∧ s.lswOn c then
    let s := (((s.lswLatch c 1).setLswF c 0x0C 27 27 1).mLswG (c / 4) fun g => { g with hold := 50 }).srf .lsw .A (0x204 + 0x10 * (c / 4)) 30 30 1
    .next (s.lswEv c cur)
  else .next s

/-- LSW_THERMAL (R567): an enabled channel that is not latched enters THERMAL with OT and an event; INRUSH once cooled.
(DEDUCED, unsafe: log 71.) -/
def execLswThermal (c : Nat) (hot : Bool) (s : State) : Out :=
  if 16 ≤ c then .next s
  else if hot then
    if s.lswEn c && s.lswSt c != 4 && s.lswSt c != 5 then
      .next ((((s.lswTo c 5).setLswF c 0x0C 25 25 1).bump .lsw .A (0x20 * c + 0x14) 1).lswEv c (s.lswF c 0x0C 15 0))
    else .next s
  else if s.lswSt c = 5 then .next (s.lswInrush c)
  else .next s

/-- LSW_GROUP_UNDERVOLTAGE (R565): every enabled channel that is not latched goes to UV_OFF.
(DEDUCED, unsafe: log 71.) -/
def execLswGroupUndervoltage (g : Nat) (s : State) : Out :=
  if 4 ≤ g ∨ s.lswUv g ∨ 1050 ≤ s.rf .lsw .A (0x204 + 0x10 * g) 15 0 then .next s
  else
    let s := s.srf .lsw .A (0x204 + 0x10 * g) 31 30 3
    let s := (rangeFrom (4 * g) 4).foldl (fun s c => if s.lswEn c && s.lswSt c != 4 then s.lswTo c 6 else s) s
    .next (s.evShared 4 1 0x0F03 [0x80 + g, 0, 0, 4, 0, 0])

/-- LSW_GROUP_UV_RECOVERY (R565, R573). -/
def execLswGroupUvRecovery (g : Nat) (s : State) : Out :=
  if 4 ≤ g ∨ !s.lswUv g ∨ s.rf .lsw .A (0x204 + 0x10 * g) 15 0 ≤ 1150 then .next s
  else
    let s := (s.srf .lsw .A (0x204 + 0x10 * g) 31 31 0).mLswG g fun x => { x with hold := 50 }
    .next ((rangeFrom (4 * g) 4).foldl (fun s c => if s.lswSt c == 6 then s.lswInrush c else s) s)

/-- LSW_TOTAL_OVERLOAD (R566): above 24.0 A the highest-numbered channel that is on with HOLD 0 is latched.
(DESIGN CHOICE, unsafe: log 72.) -/
def execLswTotalOverload (avg : Nat) (s : State) : Out :=
  let s := s.srf .lsw .A 0x300 15 0 (min 0xFFFF avg)
  if avg ≤ 24000 then .next { s with lsw := { s.lsw with overload := false, shed := none } }
  else
    let fresh := !s.lsw.overload
    let s := (s.srf .lsw .A 0x300 31 31 1)
    let s := { s with lsw := { s.lsw with overload := true } }
    let s := if fresh then s.evShared 4 1 0x0F03 ([0xFF, 0, 3, 8] ++ le 2 (min 0xFFFF avg)) else s
    let due := match s.lsw.shed with
      | some t => decide (t + 2000 ≤ s.now)
      | none => true
    match (List.range 16).reverse.find? fun c => s.lswOn c && s.lswF c 0 30 30 == 0 with
    | some c => if due then .next { s.lswLatch c 3 with lsw := { (s.lswLatch c 3).lsw with shed := some s.now } } else .next s
    | none => .next s

/-- LSW_OPEN_LOAD (R570): OL changes, each change with an event; an OL_TH of 0 disables the detection.
(DESIGN CHOICE, unsafe: log 72.) -/
def execLswOpenLoad (c : Nat) (low : Bool) (s : State) : Out :=
  if 16 ≤ c ∨ s.lswSt c ≠ 2 ∨ (s.lswC c).olTh = 0 ∨ s.lswF c 0x0C 26 26 = b2n low then .next s
  else .next ((s.setLswF c 0x0C 26 26 (b2n low)).lswEv c (s.lswF c 0x0C 15 0))

/-- LSW_SENSE_STEP (R571): with AUTO 1 the pin moves to the next channel of its group. -/
def execLswSenseStep (s : State) : Out :=
  if s.now % 200 ≠ 0 then .next s
  else .next ((List.range 4).foldl (fun s g => if s.rb .lsw .A 0x304 (4 * g + 2) then s.mLswG g fun x => { x with pos := (x.pos + 1) % 4 } else s) s)

/-- The channel that pin LSN`g` carries, and whether it stands at 4.5 V (R571). -/
def State.senseChan (s : State) (g : Nat) : Nat := 4 * g + if s.rb .lsw .A 0x304 (4 * g + 2) then (s.lswG g).pos else s.rf .lsw .A 0x304 (4 * g + 1) (4 * g)
def State.senseFault (s : State) (g : Nat) : Bool :=
  let c := s.senseChan g
  s.lswSt c == 4 || s.lswSt c == 5 || s.lswF c 0x0C 26 26 == 1

/-- What pin LSN`g` shows in mV, within ±5 % ± 50 mA (R571): 0.25 V per A up to 3.3 V, 4.5 V for a channel that is latched, in THERMAL or reports OL. -/
def State.senseMv (s : State) (g : Nat) : Nat := if s.senseFault g then 4500 else min 3300 (s.lswF (s.senseChan g) 0x0C 15 0 / 4)

/-- LSW_SLOT_DUTY_WRITE (R572): the token holder writes its slot values; while the token is free the channels keep their duty. -/
def execLswSlotDutyWrite (s : State) : Out :=
  match s.ref.token with
  | none => .next s
  | some h =>
    .next ((List.range 16).foldl (fun s c =>
      if s.lswF c 0 29 28 == 2 then s.mLswC c fun x => { x with duty := (clampI 0 32767 (look 0 (s.hf h).cln.slots (s.lswF c 0 10 0)).toInt).toNat } else s) s)

/-- LSW_PWM_PERIOD (R572, R573): the new Deff. A COMP with VF still 0 divides by zero: that duty is a free value.
(DESIGN CHOICE, safe: log 73.) -/
def execLswPwmPeriod (c : Nat) (s : State) : Out :=
  let mode := s.lswF c 0 29 28
  if 16 ≤ c ∨ mode = 0 ∨ mode = 3 then .next s
  else
    let d := if mode = 1 then s.lswF c 8 14 0 else (s.lswC c).duty
    if s.lswF c 0 27 27 = 0 then .next (s.setLswF c 0x10 14 0 d)
    else
      let vf := s.rf .lsw .A (0x208 + 0x10 * (c / 4)) 15 0
      let vn := 10 * max 120 (min 320 (s.rf .lsw .A (0x200 + 0x10 * (c / 4)) 31 16))
      if vf = 0 then .next ((s.drew 1).setLswF c 0x10 14 0 (min 32767 (s.freeVal 0)))
      else .next (s.setLswF c 0x10 14 0 (min 32767 ((2 * d * vn * vn + vf * vf) / (2 * vf * vf))))

/-- LSW_VF_SAMPLE (R573): VSUP and the currents, and VF as the mean of the last 50 samples unless frozen.
(DESIGN CHOICE, unsafe: log 70.) -/
def execLswVfSample (g vsup : Nat) (curs : List Nat) (limiting : List Bool) (s : State) : Out :=
  if 4 ≤ g then .next s
  else
    let s := s.srf .lsw .A (0x204 + 0x10 * g) 15 0 (min 0xFFFF vsup)
    let s := (List.range 4).foldl (fun s k =>
      let c := 4 * g + k
      (s.setLswF c 0x0C 15 0 (min 0xFFFF (curs.getD k 0))).setLswF c 0x0C 28 28 (b2n (limiting.getD k false && s.lswOn c))) s
    let cond := s.lswUv g || (List.range 4).any (fun k => s.lswF (4 * g + k) 0x0C 28 28 == 1)
    let h := (s.lswG g).hold
    let s := s.mLswG g fun x => { x with hold := if cond then 50 else h - 1 }
    let frozen := cond || decide (0 < h)
    let s := s.srf .lsw .A (0x204 + 0x10 * g) 30 30 (b2n frozen)
    if frozen then .next s
    else
      let vs := (min 0xFFFF vsup :: (s.lswG g).vs).take 50
      .next ((s.mLswG g fun x => { x with vs := vs }).srf .lsw .A (0x208 + 0x10 * g) 15 0 ((2 * vs.sum + vs.length) / (2 * vs.length)))

/-- RESET_N (R574): channels with HOLD 0 switch off with their registers at reset. -/
def State.lswResetN (s : State) : State :=
  (List.range 16).foldl (fun s c =>
    if s.lswF c 0 30 30 = 1 then s
    else
      let s := (List.range 6).foldl (fun s k => s.srg .lsw .A (0x20 * c + 4 * k) (resetWord .lsw .A (0x20 * c + 4 * k))) s
      s.mLswC c fun _ => {}) s

end Sys2Proof.Machine
end

