-- ==== Sys2Proof/Machine/Mailbox.lean ====
section
/-!
DEFINITION. The host mailboxes (R498-R529): rings, descriptors, sessions, completions and events. Host memory is outside the device; what a
descriptor or datagram carries comes with its row.
-/

namespace Sys2Proof

/-- The fields of a command descriptor (R504). -/
def Desc.opc (d : Desc) : Nat := Machine.numAt d.bytes 0 2
def Desc.tagged (d : Desc) : Bool := (Machine.numAt d.bytes 2 1).testBit 0
def Desc.ctag (d : Desc) : Nat := Machine.numAt d.bytes 4 4
def Desc.cseq (d : Desc) : Nat := Machine.numAt d.bytes 8 4
def Desc.reqLen (d : Desc) : Nat := Machine.numAt d.bytes 12 4

/-- The bulk-in bytes of a command: none where the request stands inline (R504). -/
def Desc.bulkIn (d : Desc) : List Nat := if d.reqLen ≤ 24 then [] else d.bulk.take d.reqLen

/-- The request (R504, R505). -/
def Desc.req (d : Desc) : List Nat := if d.reqLen ≤ 24 then Machine.bytesAt d.bytes 32 d.reqLen else d.bulkIn

end Sys2Proof

namespace Sys2Proof.Machine

/-! ### Rings (R499-R503, R508) -/

/-- The register block of ring `n`, and one of its words. -/
def ringOff (n : Nat) : Nat := 0x1000 + 0x40 * n
def State.ringReg (s : State) (h : Half) (n off : Nat) : Nat := (s.rg .mbx h (ringOff n + off)).toNat
def State.setRingReg (s : State) (h : Half) (n off v : Nat) : State := s.srg .mbx h (ringOff n + off) (BitVec.ofNat 32 v)

/-- EN, TRANSPORT and the entries of a ring (R503). -/
def State.ringEn (s : State) (h : Half) (n : Nat) : Bool := bitAt (s.rcfg h n) 31
def State.ringEth (s : State) (h : Half) (n : Nat) : Bool := bitAt (s.rcfg h n) 30
def State.ringSize (s : State) (h : Half) (n : Nat) : Nat := 2 ^ fld (s.rcfg h n) 23 20
def State.ringFault (s : State) (h : Half) (n : Nat) : Bool := s.rb .mbx h (ringOff n + 0x28) 26

/-- Free entries of a completion or event array; one always stays empty (R500). -/
def State.ringFree (s : State) (h : Half) (n : Nat) : Nat :=
  let z := s.ringSize h n
  (s.ringReg h n 0x20 + z - 1 - s.ringReg h n 0x24 % z) % z

/-- An entry has been written to a ring: its vector is signalled at once, or once COAL_N entries wait (R502). -/
def State.signal (s : State) (h : Half) (n : Nat) : State :=
  let c := s.rcfg h n
  s.mRing h n fun r =>
    let u := r.unsig + 1
    if fld c 7 0 = 0 ∨ fld c 13 8 ≤ u then { r with unsig := 0, irqs := r.irqs + 1 }
    else { r with unsig := u, unsigTick := if r.unsig = 0 then s.tick h else r.unsigTick }

/-- The bytes of a datagram of ring `n` (R508): MAGIC, RING, KIND, SEGLEN, DSEQ, ACK, BOFS, then what it carries. -/
def dgBytes (n seq ack : Nat) (d : DgBody) : List Nat :=
  [0x4D, 0x42, 0x58, 0x45, n, d.kind] ++ le 2 d.seglen ++ le 4 seq ++ le 4 ack ++ le 4 d.bofs ++ le 4 0 ++ d.body

/-- Datagrams that wait go out while fewer than 64 are unacknowledged (R508). -/
def Binding.pump (n now : Nat) : List DgBody → Binding → Binding
  | [], b => { b with txq := [] }
  | d :: l, b =>
    if 64 ≤ b.unacked.length then { b with txq := d :: l }
    else Binding.pump n now l { b with unacked := b.unacked ++ [{ seq := b.tx, sent := now, bytes := dgBytes n b.tx b.rx d }], tx := (b.tx + 1) % 2 ^ 32 }

/-- Datagrams join those that wait. -/
def Binding.send (b : Binding) (n now : Nat) (l : List DgBody) : Binding := Binding.pump n now (b.txq ++ l) b

/-- The datagrams after the first: 1,024 bulk bytes each (R508). -/
def bulkBodies (kind : Nat) : Nat → Nat → List Nat → List DgBody
  | 0, _, _ => []
  | n + 1, ofs, b =>
    if b.isEmpty then []
    else { kind := kind, seglen := min 1024 b.length, bofs := ofs, body := b.take 1024 } :: bulkBodies kind n (ofs + 1024) (b.drop 1024)

/-- The datagrams that carry a descriptor or record and its bulk bytes (R508). -/
def dgBodies (kind : Nat) (rec_ bulk : List Nat) : List DgBody :=
  { kind := kind, seglen := min 1024 bulk.length, bofs := 0, body := rec_ ++ bulk.take 1024 } :: bulkBodies kind (bulk.length / 1024 + 1) 1024 (bulk.drop 1024)

/-- The 32 bytes of a record (R526). -/
def EventRec.bytes (r : EventRec) : List Nat := le 4 r.seq ++ [r.origin, r.sev] ++ le 2 r.code ++ le 8 r.tick ++ padTo 16 r.detail

/-- The peer an event ring sends to: RPEER, or the peer bound to its paired command ring; what is under way to that peer goes on (R508). -/
def State.evPeer (s : State) (h : Half) (n : Nat) : Option Binding :=
  let r := s.ringReg h n 0x2C
  let dst : Option (Nat × Nat) := if r ≠ 0 then some (r, 18431) else (s.ring h (n - 32)).bind.map fun b => (b.ip, b.port)
  dst.map fun p =>
    match (s.ring h n).bind with
    | some b => if r ≠ 0 ∨ (b.ip = p.1 ∧ b.port = p.2) then b else { ip := p.1, port := p.2 }
    | none => { ip := p.1, port := p.2 }

/-- A record lost for want of room is counted (R503, R527). -/
def State.loseRecord (s : State) (h : Half) (n : Nat) (r : EventRec) : State :=
  let c := min 0xFFFF (s.rf .mbx h (ringOff n + 0x28) 15 0 + 1)
  (s.srf .mbx h (ringOff n + 0x28) 15 0 c).mRing h n fun x => { x with lost := x.lost + 1, lostFirst := if x.lost = 0 then r.seq else x.lostFirst }

/-- Write a record to an event ring that has room. -/
def State.putRecord (s : State) (h : Half) (n : Nat) (r : EventRec) : State :=
  if s.ringEth h n then
    match s.evPeer h n with
    | some b => s.mRing h n fun x => { x with lastEvent := some r, bind := some (b.send n (s.tick h) (dgBodies 2 r.bytes [])) }
    | none => s.mRing h n fun x => { x with held := x.held ++ [r] }
  else
    ((s.setRingReg h n 0x24 ((s.ringReg h n 0x24 + 1) % s.ringSize h n)).mRing h n fun x => { x with lastEvent := some r }).signal h n

/-- Room for a record. A ring without a peer holds up to 64 records. -/
def State.hasRoom (s : State) (h : Half) (n : Nat) : Bool :=
  if s.ringEth h n then
    match s.evPeer h n with
    | some b => decide (b.txq.length + b.unacked.length < 128)
    | none => decide ((s.ring h n).held.length < 64)
  else decide (0 < s.ringFree h n)

/-- The record of code 0x0001 once room has returned (R527). -/
def State.reportLost (s : State) (h : Half) (n : Nat) : State :=
  let x := s.ring h n
  if x.lost = 0 ∨ !s.hasRoom h n ∨ n < 32 then s
  else
    let r : EventRec := { seq := (s.hf h).mbx.evseq, origin := hbit h, sev := 1, code := 0x0001, tick := s.tick h, detail := padTo 16 (le 4 x.lost ++ le 4 x.lostFirst) }
    ((s.mMbx h fun m => { m with evseq := (m.evseq + 1) % 2 ^ 32 }).putRecord h n r).mRing h n fun x => { x with lost := 0 }

/-- A record is delivered to an event ring, or lost and counted (R527).
(DESIGN CHOICE, unsafe: log 64.) -/
def State.deliver (s : State) (h : Half) (n : Nat) (r : EventRec) : State :=
  let s := s.reportLost h n
  if s.hasRoom h n then s.putRecord h n r else s.loseRecord h n r

/-- The role under which the paired command ring of event ring `n` acts (R527). -/
def State.evRole (s : State) (h : Half) (n : Nat) : Option Nat := s.ringRole h (n - 32)

/-- An event ring receives a record (R527). -/
def State.evWanted (s : State) (h : Half) (r : EventRec) (n : Nat) : Bool :=
  let m := s.rg .mbx h (ringOff n + 0x30)
  s.ringEn h n && decide (r.code / 256 < 16) && bitAt m (16 + r.code / 256) && decide (fld m 1 0 ≤ r.sev) &&
    (match s.evRole h n with | some x => x != rPublic | none => false)

/-! ### Sessions (R509-R514) -/

/-- Event 0x0002. -/
def State.sessEv (s : State) (h : Half) (ring role what : Nat) : State := s.ev h 0 0x0002 [ring, role, what]

/-- A session ends (R513): SK is invalidated, subscriptions of the ring end (R525), a binding to the first sender ends (R508). -/
def State.endSession (s : State) (h : Half) (n : Nat) : State :=
  match (s.ring h n).session with
  | none => s
  | some x =>
    let s := s.invalidate x.sk none none
    let free := s.ringReg h n 0x2C == 0
    let s := s.mRing h n fun r => { r with session := none, opening := none, bind := if free then none else r.bind }
    (s.mMbx h fun m => { m with subs := m.subs.filter fun b => b.cmdRing != n }).sessEv h n x.role 1

/-- A session whose credential or SK has become unusable ends; commands still pending complete with ST_KEY_ORPHANED (R513). -/
def orphanSession (h : Half) (s : State) (n : Nat) : State :=
  match (s.ring h n).session with
  | none => s
  | some x =>
    if s.keyUsable x.sk then s
    else
      let l := (s.hf h).mbx.started.filter fun c => c.org.ring == n
      (l.foldl (fun s c => s.complete c.org (c.exec.getD h) c.opc stKeyOrphaned true []) s).endSession h n

/-- Every ring of a half. -/
def State.orphanSessions (s : State) (h : Half) : State := (List.range 32).foldl (orphanSession h) s

/-! ### Ring register writes -/

/-- SQ_TAIL of a PCIe ring (R500). -/
def State.writeSqTail (s : State) (h : Half) (n v : Nat) : State := if n < 32 ∧ !s.ringEth h n then s.setRingReg h n 0x18 (v % 2 ^ 16) else s

/-- SQ_TAIL_DOORBELL. -/
def execSqTailDoorbell (h : Half) (n v : Nat) (s : State) : Out := .next (s.writeSqTail h n v)

/-- Commands of a ring started and not final (R503, R517). -/
def State.ringStarted (s : State) (h : Half) (n : Nat) : List Started := (s.hf h).mbx.started.filter fun c => c.org.ring == n

/-- The commands the half in charge holds: its own and those forwarded to it (R517). -/
def State.chargeLoad (s : State) : Nat :=
  match s.charge with
  | some x => (s.hf x).mbx.started.length + ((s.hf (other x)).mbx.started.filter fun c => c.exec == some x).length
  | none => 0

/-- Fetching from a ring is paused (R517): 32 commands of the ring, 1,024 at the half in charge, or fewer than 2 completion entries free. -/
def State.ringFull (s : State) (h : Half) (n : Nat) : Bool :=
  decide (32 ≤ (s.ringStarted h n).length) || decide (1024 ≤ s.chargeLoad)
    || (!s.ringEth h n && decide (s.ringFree h n < 2))

/-- STALLED falls once room has returned. -/
def State.restall (s : State) (h : Half) (n : Nat) : State := if s.ringFull h n then s else s.mRing h n fun r => { r with stalled := false }

/-- CQ_HEAD or EV_HEAD (R500); an event ring with room again reports what it lost (R527). -/
def State.writeCqHead (s : State) (h : Half) (n v : Nat) : State :=
  if s.ringEth h n then s else ((s.setRingReg h n 0x20 (v % 2 ^ 16)).restall h n).reportLost h n

/-- CQ_HEAD_WRITE. -/
def execCqHeadWrite (h : Half) (n v : Nat) (s : State) : Out := .next (if n < 64 then s.writeCqHead h n v else s)

/-- EN of a ring is written (R503, R513, R525): 0 ends its session and subscriptions; 0 and then 1 zeroes the indices and recovers the ring. -/
def State.writeRingEn (s : State) (h : Half) (n : Nat) (en : Bool) : State :=
  let was := s.ringEn h n
  let s := s.srf .mbx h (ringOff n) 31 31 (b2n en)
  if was && !en then
    let s := s.endSession h n
    let s := s.mMbx h fun m => { m with subs := m.subs.filter fun b => b.ring != n && b.cmdRing != n }
    s.mRing h n fun r => { r with opening := none, bind := none, held := [], stalled := false }
  else if !was && en then
    let s := [0x18, 0x1C, 0x20, 0x24].foldl (fun s off => s.setRingReg h n off 0) s
    s.srf .mbx h (ringOff n + 0x28) 26 26 0
  else s

/-- RING_ENABLE_WRITE.
(DEDUCED, unsafe: log 63.) -/
def execRingEnableWrite (h : Half) (n : Nat) (en : Bool) (s : State) : Out := .next (if n < 64 then s.writeRingEn h n en else s)

/-- A write of MBX_RCFG (R503): one that changes SIZE_LOG2, TRANSPORT or ENET_PORT while EN is 1 is ignored in full.
(DEDUCED, unsafe: log 63.) -/
def State.writeRcfg (s : State) (h : Half) (n : Nat) (v : Word) : State :=
  let c := s.rcfg h n
  if bitAt c 31 && (c &&& 0x60F00000) != (v &&& 0x60F00000) then s
  else (s.srg .mbx h (ringOff n) ((v &&& 0x60FFFFFF) ||| (c &&& 0x80000000))).writeRingEn h n (bitAt v 31)

/-- RING_DMA_FAULT (R503): FAULT is set and nothing more is fetched; the ring's commands end with no completion written. -/
def execRingDmaFault (h : Half) (n : Nat) (s : State) : Out :=
  if 64 ≤ n ∨ s.ringEth h n ∨ !s.ringEn h n then .next s
  else
    let s := s.srf .mbx h (ringOff n + 0x28) 26 26 1
    let s := s.mMbx h fun m => { m with started := m.started.filter fun c => c.org.ring != n, compl := m.compl.filter fun c => c.ring != n }
    .next (s.ev h 2 0x0006 [n])

/-! ### Fetching (R501, R504, R505, R512, R517) -/

/-- The bytes of the request fields of each verb whose request is of one length; none: a length of its own, or no such verb. -/
def fixedLen : Nat → Option Nat
  | 0x0101 => some 8
  | 0x0102 => some 0
  | 0x0110 => some 20
  | 0x0111 => some 20
  | 0x0112 => some 0
  | 0x0201 => some 4
  | 0x0203 => some 16
  | 0x0205 => some 2
  | 0x0301 => some 1
  | 0x0302 => some 1
  | 0x0502 => some 2
  | 0x0503 => some 0
  | 0x0510 => some 4
  | 0x0511 => some 4
  | 0x0512 => some 4
  | 0x0513 => some 20
  | 0x0514 => some 48
  | 0x0515 => some 12
  | 0x0601 => some 2
  | 0x0701 => some 20
  | 0x0702 => some 1
  | 0x0703 => some 3
  | 0x0801 => some 0
  | 0x0802 => some 2
  | 0x0901 => some 8
  | 0x0902 => some 8
  | 0x0903 => some 24
  | 0x0904 => some 1
  | 0x0A01 => some 1
  | 0x0A02 => some 10
  | 0x0A03 => some 1
  | 0x0B01 => some 2
  | 0x0B03 => some 1
  | 0x0B04 => some 0
  | 0x0B05 => some 4
  | 0x0B06 => some 14
  | 0x0B07 => some 4
  | 0x0B08 => some 6
  | 0x0C01 => some 36
  | 0x0C03 => some 101
  | 0x0C05 => some 8
  | 0x0C06 => some 4
  | 0x0C07 => some 4
  | 0x0C08 => some 77
  | 0x0C09 => some 5
  | 0x0C0A => some 36
  | 0x0C0C => some 4
  | 0x0D01 => some 1
  | 0x0D02 => some 1
  | 0x0D03 => some 6
  | 0x0E03 => some 1
  | 0x0E04 => some 16
  | 0x0E05 => some 0
  | 0x0E06 => some 32
  | 0x0E07 => some 1
  | _ => none

/-- The class has a register map, so the generic verbs are defined in it (R522). -/
def hasMap (cls : Nat) : Bool := decide (cls = 1 ∨ (3 ≤ cls ∧ cls ≤ 15))

/-- The verbs that take bulk data or a list, by the least length of their request. -/
def minLen : Nat → Option Nat
  | 0x0202 => some 8
  | 0x0204 => some 8
  | 0x0501 => some 0
  | 0x0B02 => some 0
  | 0x0C02 => some 40
  | 0x0C04 => some 40
  | 0x0C0B => some 24
  | 0x0E01 => some 0
  | 0x0E02 => some 8
  | _ => none

/-- The opcode is defined for line 3 (R3, R520-R524). -/
def opDefined (opc : Nat) : Bool :=
  (fixedLen opc).isSome || (minLen opc).isSome || (hasMap (opc / 256) && decide (0xF0 ≤ opc % 256 ∧ opc % 256 ≤ 0xF6))

/-- REQ_LEN is what the verb's fields and data require (R505). -/
def lenOk (opc : Nat) (req : List Nat) : Bool :=
  match fixedLen opc with
  | some n => req.length == n
  | none =>
    match opc with
    | 0x0202 => req.length == 8 + 4 * numAt req 0 2
    | 0x0204 => req.length == 8 + 4 * numAt req 4 2
    | _ =>
      match minLen opc with
      | some n => decide (n ≤ req.length ∧ req.length ≤ 16777216)
      | none =>
        let g := opc % 256
        if g = 0xF0 ∨ g = 0xF1 ∨ g = 0xF5 then req.length == 10
        else if g = 0xF2 then req.length == 16 + 4 * numAt req 8 2
        else if 0xF0 ≤ g ∧ g ≤ 0xF6 then req.length == 1
        else true

/-- The ring has a command to fetch: a submission entry, or an assembled datagram (R500, R508). -/
def State.waiting (s : State) (h : Half) (n : Nat) : Bool :=
  if s.ringEth h n then
    match (s.ring h n).bind with
    | some b => !b.cmds.isEmpty
    | none => false
  else s.ringReg h n 0x1C % s.ringSize h n != s.ringReg h n 0x18 % s.ringSize h n

/-- The fetched entry is taken off the ring. -/
def State.takeEntry (s : State) (h : Half) (n : Nat) : State :=
  if s.ringEth h n then s.mRing h n fun r => { r with bind := r.bind.map fun b => { b with cmds := b.cmds.drop 1 } }
  else s.setRingReg h n 0x1C ((s.ringReg h n 0x1C + 1) % s.ringSize h n)

/-- The TAG of a command or of a completion under a session's key (R512): `lead` 0x43 or 0x52, the descriptor's bytes 0-55, the bulk bytes. -/
def mbxTag (key : List Nat) (lead : Nat) (desc bulk : List Nat) : List Nat := (hmac256 key ([lead] ++ desc.take 56 ++ bulk)).take 8

/-- The material of a session's key; none gives no bytes. -/
def State.skMat (s : State) (sk : Nat) : List Nat := ((s.keyE sk).map (·.mat)).getD []

/-- The tag rule of a ring (R509, R512). -/
def State.cmdTagGood (s : State) (h : Half) (n : Nat) (d : Desc) : Bool :=
  match (s.ring h n).session with
  | some x => d.tagged && decide (bytesAt d.bytes 56 8 = mbxTag (s.skMat x.sk) 0x43 d.bytes d.bulkIn) && d.cseq == x.cseq && s.keyUsable x.sk
  | none => !d.tagged

/-- The command a ring gives: on an Ethernet ring the one assembled first, on a PCIe ring the entry `d` read from host memory. -/
def State.fetched (s : State) (h : Half) (n : Nat) (d : Desc) : Desc :=
  if s.ringEth h n then
    match (s.ring h n).bind with
    | some b => b.cmds.headD d
    | none => d
  else d

/-- COMMAND_FETCH (R501, R504, R505, R512, R517): the next command starts once the one before it has its first completion. One that fails the length rule,
which is judged first, or the tag rule completes and is not executed; the row of its verb executes another.
(DESIGN CHOICE, unsafe: log 19.) -/
def execCommandFetch (h : Half) (n : Nat) (d : Desc) (s : State) : Out :=
  if 32 ≤ n ∨ !s.ringEn h n ∨ s.ringFault h n ∨ !s.waiting h n ∨ !(s.ringStarted h n).all (·.first) then .next s
  else if s.ringFull h n then .next (s.mRing h n fun r => { r with stalled := true })
  else
    let d := s.fetched h n d
    let o : Org := { half := h, ring := n, ctag := d.ctag, hb := numAt d.bytes 3 1 }
    let good := s.cmdTagGood h n d
    let s := (s.takeEntry h n).mMbx h fun m =>
      { m with started := m.started ++ [{ org := o, opc := d.opc, role := 0, cseq := d.cseq, exec := none, since := s.tick h, cap := numAt d.bytes 16 4 }] }
    let s := if good then s.mRing h n fun r => { r with session := r.session.map fun x => { x with cseq := x.cseq + 1, last := s.tick h } } else s
    if opDefined d.opc && !lenOk d.opc d.req then .next (s.complete o h d.opc stBadLength true [])
    else if !good then .next (s.complete o h d.opc 0x0104 true [])
    else .next s

/-- UNDEFINED_OPCODE (R3): ST_BAD_OPCODE and no other action. -/
def execUndefinedOpcode (o : Org) (opc : Nat) (s : State) : Out :=
  if opDefined opc then .next s else .next ((s.start o opc 0 (some o.half)).complete o o.half opc stBadOpcode true [])

/-- FORWARD_WAIT_TIMEOUT (R515): 100 ms without a half in charge. -/
def execForwardWaitTimeout (o : Org) (s : State) : Out :=
  match (s.hf o.half).mbx.started.find? fun c => sameCmd c.org o with
  | none => .next s
  | some c =>
    if c.exec.isNone && s.charge.isNone && decide (c.since + 2000 ≤ s.tick o.half) then .next (s.complete c.org o.half c.opc stNotInCharge true [])
    else .next s

/-! ### Completions and interrupts (R502, R506-R508) -/

/-- A completion can be written now, or is dropped because its ring has failed or is off. -/
def State.complReady (s : State) (h : Half) (c : Completion) : Bool :=
  !s.ringEn h c.ring || s.ringFault h c.ring || s.ringEth h c.ring || decide (0 < s.ringFree h c.ring)

/-- The 64 bytes of a completion descriptor (R506). -/
def Completion.bytes (c : Completion) : List Nat :=
  le 2 c.opc ++ le 2 c.status ++ le 4 c.ctag ++ le 4 c.cseq ++ le 4 c.len ++ [b2n c.final, hbit c.exec + 1] ++ List.replicate 6 0 ++ le 8 c.tick
    ++ padTo 24 (if c.payload.length ≤ 24 then c.payload else []) ++ padTo 8 c.tag

/-- The bulk-out bytes of a completion (R507). -/
def Completion.bulk (c : Completion) : List Nat := if c.payload.length ≤ 24 then [] else c.payload

/-- A completion of a ring with a session carries its TAG (R512). -/
def State.sign (s : State) (c : Completion) : Completion :=
  match c.sk with
  | some k => { c with tag := mbxTag (s.skMat k) 0x52 c.bytes c.bulk }
  | none => c

/-- COMPLETION_WRITE (R501, R502, R506, R508, R512): in the order produced, per ring; then the ring may fetch again (R517). -/
def execCompletionWrite (h : Half) (s : State) : Out :=
  match (s.hf h).mbx.compl.find? (s.complReady h) with
  | none => .next s
  | some c =>
    let n := c.ring
    let s1 := s.mMbx h fun m => { m with compl := m.compl.erase c }
    if !s.ringEn h n ∨ s.ringFault h n then .next s1
    else
      let c := s.sign c
      let s2 := s1.mRing h n fun r => { r with lastOut := some c }
      let s3 :=
        if s.ringEth h n then
          s2.mRing h n fun r => { r with bind := r.bind.map fun b => b.send n (s.tick h) (dgBodies 1 c.bytes c.bulk) }
        else (s2.setRingReg h n 0x24 ((s.ringReg h n 0x24 + 1) % s.ringSize h n)).signal h n
      .next (s3.restall h n)

/-- MSIX_COALESCE_TIMEOUT (R502): COAL_US can have passed since the first entry not yet signalled, as the ticks of 50 us tell. -/
def execMsixCoalesceTimeout (h : Half) (n : Nat) (s : State) : Out :=
  if 0 < (s.ring h n).unsig ∧ fld (s.rcfg h n) 7 0 < 50 * (s.tick h + 1 - (s.ring h n).unsigTick) then .next (s.mRing h n fun r => { r with unsig := 0, irqs := r.irqs + 1 }) else .next s

/-! ### Ethernet rings (R498, R508) -/

/-- The port a ring uses serves mailboxes: ENET_EN and a port address other than 0 (R503). -/
def State.enetServed (s : State) (h : Half) (n : Nat) : Bool :=
  s.rb .mbx h 0 31 && s.rg .mbx h (if bitAt (s.rcfg h n) 29 then 0x0C else 0x08) != 0

/-- A datagram of ring `n` is laid out as R508 says: the header, with BOFS 0 a descriptor, the bulk bytes. -/
def dgOk (n : Nat) (b : List Nat) : Bool :=
  decide (bytesAt b 0 4 = [0x4D, 0x42, 0x58, 0x45] ∧ numAt b 4 1 = n ∧ numAt b 6 2 ≤ 1024) &&
    (numAt b 5 1 == 3 || b.length == 24 + (if numAt b 16 4 = 0 then 64 else 0) + numAt b 6 2)

/-- A command datagram joins the command being assembled; with its last bulk byte the command is complete (R508). -/
def Binding.assemble (b : Binding) (d : List Nat) : Binding :=
  let ofs := numAt d 16 4
  let got : Option Desc := if ofs = 0 then some { bytes := bytesAt d 24 64, bulk := d.drop 88 }
    else match b.asm with
      | some x => if x.bulk.length = ofs then some { x with bulk := x.bulk ++ d.drop 24 } else none
      | none => none
  match got with
  | none => { b with asm := none }
  | some x =>
    let n := numAt x.bytes 12 4
    if n ≤ 24 ∨ n ≤ x.bulk.length then { b with asm := none, cmds := b.cmds ++ [x] } else { b with asm := some x }

/-- What a datagram from the bound peer does to a binding of ring `n`: it acknowledges what was sent; the next one expected counts, is assembled and is
acknowledged. -/
def Binding.take (b : Binding) (n now : Nat) (d : List Nat) : Binding :=
  let b := { b with unacked := b.unacked.filter fun x => !decide ((numAt d 12 4 + 2 ^ 32 - 1 - x.seq) % 2 ^ 32 < 2 ^ 31), last := now }
  let b :=
    if numAt d 5 1 = 3 then b
    else
      let b := if numAt d 8 4 = b.rx then
          let b := { b with rx := (b.rx + 1) % 2 ^ 32 }
          if numAt d 5 1 = 0 ∧ n < 32 then b.assemble d else b
        else b
      { b with lastAck := dgBytes n b.tx b.rx { kind := 3, seglen := 0, bofs := 0, body := [] } }
  Binding.pump n now b.txq b

/-- MAILBOX_DATAGRAM (R508): a ring with RPEER 0 binds to the source of the first command datagram.
(DESIGN CHOICE, unsafe: log 64.) -/
def execMailboxDatagram (h : Half) (n : Nat) (d : MbxDgram) (s : State) : Out :=
  if 64 ≤ n ∨ !s.ringEn h n ∨ !s.ringEth h n ∨ !s.enetServed h n ∨ !dgOk n d.bytes then .next s
  else
    let peer := s.ringReg h n 0x2C
    match (s.ring h n).bind with
    | some b => if b.ip = d.ip ∧ b.port = d.port then .next (s.mRing h n fun r => { r with bind := some (b.take n (s.tick h) d.bytes) }) else .next s
    | none =>
      if n < 32 ∧ numAt d.bytes 5 1 = 0 ∧ (peer = 0 ∨ peer = d.ip) then
        .next (s.mRing h n fun r => { r with bind := some (Binding.take { ip := d.ip, port := d.port, rx := numAt d.bytes 8 4 } n (s.tick h) d.bytes) })
      else .next s

/-- DATAGRAM_RESEND_TIMEOUT (R508): 50 ms after a sending it is sent again; after 8 sends the binding drops. -/
def execDatagramResendTimeout (h : Half) (n seq : Nat) (s : State) : Out :=
  match (s.ring h n).bind with
  | none => .next s
  | some b =>
    match b.unacked.find? fun x => x.seq = seq with
    | none => .next s
    | some x =>
      if s.tick h < x.sent + 1000 then .next s
      else if 8 ≤ x.sends then .next (s.mRing h n fun r => { r with bind := none })
      else
        let again (y : Dgram) : List Nat := y.bytes.take 12 ++ le 4 b.rx ++ y.bytes.drop 16
        let l := b.unacked.map fun y => if y.seq = seq then { y with sends := y.sends + 1, sent := s.tick h, bytes := again y } else y
        .next (s.mRing h n fun r => { r with bind := some { b with unacked := l } })

/-- BINDING_IDLE_EXPIRY (R508). -/
def execBindingIdleExpiry (h : Half) (n : Nat) (s : State) : Out :=
  match (s.ring h n).bind with
  | some b =>
    if s.ringReg h n 0x2C = 0 ∧ b.last + 20000 * s.rf .mbx h 0 15 0 ≤ s.tick h then .next (s.mRing h n fun r => { r with bind := none }) else .next s
  | none => .next s

/-! ### The session verbs and SYS_INFO (R511, R513, R521) -/

/-- The half in charge as R521 codes it. -/
def chargeCode : Option Half → Nat
  | none => 0
  | some .A => 1
  | some .B => 2

/-- SYS_INFO (R515, R521): the release and BUILD of the firmware that runs at this half. -/
def execSysInfo (o : Org) (s : State) : Out :=
  .next (s.verbHere o 0x0102 rAny fun s _ =>
    let i := (s.brec (hbit o.half)).force
    s.complete o o.half 0x0102 stOk true (padTo 8 s.lkt.module ++ [3, i.release, chargeCode s.charge, hbit o.half + 1] ++ le 4 i.build))

/-- The handle of a role's credential (R510). -/
def State.roleKey (s : State) (h : Half) (role : Nat) : Nat := (s.rg .mbx h (0x10 + 4 * (role - 1))).toNat

/-- The refusal and failures of a role at a half (R511). -/
def State.roleLock (s : State) (h : Half) (role : Nat) : RoleLock := look {} (s.hf h).mbx.locks role

/-- The role may not be opened now (R511, R521): refused after failures, or without a usable credential. -/
def State.roleShut (s : State) (h : Half) (role : Nat) : Bool :=
  decide (s.tick h < (s.roleLock h role).until_) || s.roleKey h role == 0xFFFFFFFF || s.useStatus (s.roleKey h role) none 1 0 3 != stOk

/-- SYS_SESSION_OPEN (R511): SID and DNONCE are random, free values.
(DESIGN CHOICE, unsafe: log 19. DESIGN CHOICE, unsafe: log 65.) -/
def execSysSessionOpen (o : Org) (role hnonce : Nat) (s : State) : Out :=
  .next (s.verbHere o 0x0110 rAny fun s _ =>
    let h := o.half
    if (s.ring h o.ring).session.isSome || decide (28 ≤ o.ring) then s.complete o h 0x0110 0x0105 true []
    else if role = 0 ∨ 5 < role then s.complete o h 0x0110 stRange true []
    else if s.roleShut h role then (s.sessEv h o.ring role 2).complete o h 0x0110 0x0103 true []
    else
      let sid := s.freeVal 0 % 2 ^ 32
      let dn := s.freeVal 1 % 2 ^ 128
      let s := (s.drew 2).mRing h o.ring fun r => { r with opening := some { sid := sid, role := role, hnonce := hnonce, dnonce := dn, tick := s.tick h } }
      s.complete o h 0x0110 stOk true (le 4 sid ++ le 16 dn))

/-- A wrong PROOF counts (R511): three within 60 s refuse the role for 60 s. -/
def State.proofFailed (s : State) (h : Half) (role : Nat) : State :=
  let now := s.tick h
  s.mMbx h fun m => { m with locks := Machine.upd {} m.locks role fun k =>
    let l := (k.fails.filter fun t => decide (now < t + 1200000)) ++ [now]
    if 3 ≤ l.length then { k with fails := [], until_ := now + 1200000 } else { k with fails := l } }

/-- The material of a role's credential; none gives no bytes. -/
def State.credential (s : State) (h : Half) (role : Nat) : List Nat := ((s.keyE (s.roleKey h role)).map (·.mat)).getD []

/-- PROOF of a session (R511): "MBX PROVE", SID, ring, half, ROLE, HNONCE and DNONCE under the credential. -/
def sessionProof (cred : List Nat) (h : Half) (ring : Nat) (q : OpenReq) : List Nat :=
  (hmac256 cred ([0x4D, 0x42, 0x58, 0x20, 0x50, 0x52, 0x4F, 0x56, 0x45] ++ le 4 q.sid ++ [ring, hbit h + 1, q.role] ++ le 16 q.hnonce ++ le 16 q.dnonce)).take 16

/-- The session key SK (R511): "MBX SESSION", SID, HNONCE and DNONCE. -/
def sessionKey (cred : List Nat) (q : OpenReq) : List Nat :=
  hkdf256 cred ([0x4D, 0x42, 0x58, 0x20, 0x53, 0x45, 0x53, 0x53, 0x49, 0x4F, 0x4E] ++ le 4 q.sid ++ le 16 q.hnonce ++ le 16 q.dnonce) 32

/-- SYS_SESSION_PROVE (R511): Locket creates SK as a child of the credential.
(DESIGN CHOICE, safe: log 6. DESIGN CHOICE, unsafe: log 65.) -/
def execSysSessionProve (o : Org) (sid : Nat) (proof : List Nat) (s : State) : Out :=
  .next (s.verbHere o 0x0111 rAny fun s _ =>
    let h := o.half
    if (s.ring h o.ring).session.isSome || decide (28 ≤ o.ring) then s.complete o h 0x0111 0x0105 true []
    else
      match (s.ring h o.ring).opening with
      | none => s.complete o h 0x0111 0x0102 true []
      | some q =>
        if q.sid ≠ sid ∨ q.tick + 200000 ≤ s.tick h then s.complete o h 0x0111 0x0102 true []
        else if s.roleShut h q.role then (s.sessEv h o.ring q.role 2).complete o h 0x0111 0x0103 true []
        else if proof ≠ sessionProof (s.credential h q.role) h o.ring q then ((s.proofFailed h q.role).sessEv h o.ring q.role 2).complete o h 0x0111 0x0103 true []
        else
          let mat := sessionKey (s.credential h q.role) q
          let r := s.createKey { handle := 0, parent := s.roleKey h q.role, typ := 3, dom := 1, eng := 2, use := 0x10C } 3 mat none
          ((r.1.complete o h 0x0111 stOk true []).mRing h o.ring fun x =>
            { x with opening := none, session := some { sid := sid, role := q.role, sk := r.2, last := s.tick h } }).sessEv h o.ring q.role 0)

/-- SYS_SESSION_CLOSE (R513). -/
def execSysSessionClose (o : Org) (s : State) : Out :=
  .next (s.verbHere o 0x0112 rAny fun s _ =>
    let h := o.half
    if (s.ring h o.ring).session.isNone then s.complete o h 0x0112 0x0105 true [] else (s.complete o h 0x0112 stOk true []).endSession h o.ring)

/-- SESSION_OPEN_LAPSE (R511). -/
def execSessionOpenLapse (h : Half) (n : Nat) (s : State) : Out :=
  match (s.ring h n).opening with
  | some q => if q.tick + 200000 ≤ s.tick h then .next (s.mRing h n fun r => { r with opening := none }) else .next s
  | none => .next s

/-- SESSION_IDLE_EXPIRY (R513). -/
def execSessionIdleExpiry (h : Half) (n : Nat) (s : State) : Out :=
  match (s.ring h n).session with
  | some x => if x.last + 20000 * s.rf .mbx h 0 15 0 ≤ s.tick h then .next (s.endSession h n) else .next s
  | none => .next s

/-- ROLE_LOCKOUT_END (R511). -/
def execRoleLockoutEnd (h : Half) (role : Nat) (s : State) : Out :=
  if (s.roleLock h role).until_ ≤ s.tick h then .next (s.mMbx h fun m => { m with locks := Machine.upd {} m.locks role fun k => { k with until_ := 0 } })
  else .next s

end Sys2Proof.Machine
end

