-- ==== Sys2Proof/Machine/Mesh.lean ====
section
/-!
DEFINITION. The root mesh over site wiring (R582-R606): the cell code, crossings, exchanges, maps, routes, what the mesh carries.
-/

namespace Sys2Proof.Machine

/-! ### The cell code (R591) -/

/-- Product in GF(2^4) with x^4 + x + 1. -/
def gmul (a b : Nat) : Nat :=
  let dbl (v : Nat) : Nat := if v < 8 then 2 * v else (2 * v) ^^^ 0x13
  let a1 := dbl a
  let a2 := dbl a1
  let a3 := dbl a2
  (if b.testBit 0 then a else 0) ^^^ (if b.testBit 1 then a1 else 0) ^^^ (if b.testBit 2 then a2 else 0) ^^^ (if b.testBit 3 then a3 else 0)

/-- A power of alpha. -/
def gpow : Nat → Nat
  | 0 => 1
  | n + 1 => gmul (gpow n) 2

/-- The value of a word's polynomial at `x`: its first nibble is the highest coefficient; an erasure counts as 0. -/
def gval (x : Nat) (w : List (Option Nat)) : Nat := w.foldl (fun r d => gmul r x ^^^ d.getD 0) 0

/-- A word with position `j` set. -/
def setNib (w : List (Option Nat)) (j v : Nat) : List (Option Nat) := modAt w j fun _ => some v

/-- The codeword a received cell is corrected to: `e` erasures and `t` errors with e + 2t at most 2; none: the cell has failed (R591). -/
def cellDecode (w : List (Option Nat)) : Option (List Nat) :=
  let u := w.length
  let s0 := gval 1 w
  let s1 := gval 2 w
  let er := (List.range u).filter fun j => (w.getD j none).isNone
  let done (w : List (Option Nat)) : Option (List Nat) := some (w.map fun d => d.getD 0)
  match er with
  | [] =>
    if s0 = 0 ∧ s1 = 0 then done w
    else
      match (List.range u).find? fun j => s0 ≠ 0 && gmul s0 (gpow (u - 1 - j)) == s1 with
      | some j => done (setNib w j ((w.getD j none).getD 0 ^^^ s0))
      | none => none
  | [j] => if gmul s0 (gpow (u - 1 - j)) = s1 then done (setNib w j s0) else none
  | [j, k] =>
    let a := gpow (u - 1 - j)
    let b := gpow (u - 1 - k)
    match (List.range 16).find? fun y => gmul y (a ^^^ b) == s1 ^^^ gmul b s0 with
    | some y => done (setNib (setNib w j y) k (y ^^^ s0))
    | none => none
  | _ => none

/-- The cell of `u` nibbles that carries data nibbles, padded with 0: the parity makes both values 0 (R591). -/
def cellEncode (u : Nat) (d : List Nat) : List Nat :=
  (cellDecode ((padTo (u - 2) d).map some ++ [none, none])).getD []

/-! ### Maps and windows (R585, R587, R588) -/

/-- The used slots of a map, lowest first. -/
def mapSlots (m : Nat) : List Nat := (List.range 8).filter fun s => m.testBit (4 * s + 3)

/-- U of a map. -/
def mapU (m : Nat) : Nat := (mapSlots m).length

/-- The position a half-slot decides, or an erasure (R587). -/
def HalfSlot.decide (det : Nat) (h : HalfSlot) : Option Nat :=
  let o := padTo 4 h.outs
  let m := o.foldl max 0
  match (List.range 4).find? fun p => o.getD p 0 == m with
  | none => none
  | some p =>
    let second := ((List.range 4).filter (· ≠ p)).foldl (fun b q => max b (o.getD q 0)) 0
    if h.blanked || Nat.blt m det || Nat.blt m (2 * second) then none else some p

/-- The nibbles of the eight slots (R585). -/
def window (det : Nat) (rx : List HalfSlot) : List (Option Nat) :=
  (List.range 8).map fun s =>
    match ((rx[2 * s]?).bind (HalfSlot.decide det)), ((rx[2 * s + 1]?).bind (HalfSlot.decide det)) with
    | some a, some b => some (4 * a + b)
    | _, _ => none

/-! ### The state of a port -/

def State.mp (s : State) (n : Nat) : MeshP := look {} s.mesh.ports n
def State.mMp (s : State) (n : Nat) (f : MeshP → MeshP) : State := { s with mesh := { s.mesh with ports := Machine.upd {} s.mesh.ports n f } }
def State.mlink (s : State) (tx rx : Nat) : MeshLink := look {} s.mesh.links (256 * tx + rx)
def State.mMlink (s : State) (tx rx : Nat) (f : MeshLink → MeshLink) : State :=
  { s with mesh := { s.mesh with links := Machine.upd {} s.mesh.links (256 * tx + rx) f } }
def State.mx (s : State) (n : Nat) (f : MeshX → MeshX) : State := s.mMp n fun p => { p with x := p.x.map f }
def State.endX (s : State) (n : Nat) : State := s.mMp n fun p => { p with x := none }

/-- The port runs (R601), and it may transmit: it tracks the crossings (R584). -/
def State.meshEn (s : State) (n : Nat) : Bool := Nat.blt n 2 && s.rb .rms .A (0x20 * n) 31
def State.meshTx (s : State) (n : Nat) : Bool := s.meshEn n && s.rb .rms .A (0x20 * n + 4) 31

/-- Event 0x0F04 (R606). -/
def State.meshEv (s : State) (n node cause : Nat) (map : Nat) : State := s.evShared 4 1 0x0F04 ([n, node, cause, 0] ++ le 4 map)

/-- A counter of the port (R602): 0x08 CELLS_OK, 0x0C CELLS_CORR, 0x10 CELLS_FAIL, 0x14 FRAMES_DROP. -/
def State.meshCnt (s : State) (n off : Nat) : State := s.bump .rms .A (0x20 * n + off) 1

/-- Node `m` belongs to the mesh of port `n` (R605). -/
def State.nodeEn (s : State) (n m : Nat) : Bool := decide (1 ≤ m ∧ m ≤ 254) && s.rb .rms .A (0x400 + 4 * m) 31 && s.rf .rms .A (0x400 + 4 * m) 30 30 == n

/-- The route in force to a node; without one the node is addressed as a neighbour. -/
def State.route (s : State) (m : Nat) : List Nat :=
  match look [] s.mesh.routes m with
  | [] => [m]
  | r => r

/-- The bytes of a frame on its way to `next`, with its CRC (R592). -/
def meshBytes (f : MeshFrame) (hops next : Nat) : List Nat :=
  let b := [16 * f.kind + 4 * (hops % 4), next] ++ f.body
  b ++ le 2 (crcMsb 16 0x1021 0xFFFF b)

/-- Bytes as nibbles, the low one first, and back (R591). -/
def nibsOf (b : List Nat) : List Nat := b.flatMap fun x => [x % 16, x / 16 % 16]
def bytesOf : List Nat → List Nat
  | a :: b :: t => (a + 16 * b) :: bytesOf t
  | _ => []

/-- A cell goes out on map `m` (R585, R588). -/
def State.sendCell (s : State) (n m : Nat) (d : List Nat) : State :=
  let c := cellEncode (mapU m) d
  s.mMp n fun p => { p with out := ((mapSlots m).zip c).map fun e => (e.1, e.2, fldN m (4 * e.1 + 1) (4 * e.1)) }

/-- A cell of neighbour `nbr` is decoded and counted (R589, R591, R602). -/
def State.takeCell (s : State) (n nbr : Nat) (win : List (Option Nat)) : State × Option (List Nat) :=
  let m := (s.mlink nbr 0).map
  let w := (mapSlots m).map fun i => win.getD i none
  let erased := (List.range 8).filter fun i => m.testBit (4 * i + 3) && (win.getD i none).isNone
  let s := s.mMlink nbr 0 fun l => { l with cells := l.cells + 1, er := (List.range 8).map fun i => l.er.getD i 0 + b2n (i ∈ erased) }
  match cellDecode w with
  | none => (s.meshCnt n 0x10, none)
  | some c => (s.meshCnt n (if w = c.map some then 0x08 else 0x0C), some (c.take (mapU m - 2)))

/-! ### Exchanges (R593-R595, R603) -/

/-- An exchange with `f` starts; `bc` is a DATA frame to 0xFF (R603). -/
def State.startX (s : State) (n : Nat) (f : MeshFrame) : State :=
  let r := if f.dst = 0xFF then [0xFF] else s.route f.dst
  let next := r.headD 0
  s.mMp n fun p => { p with x := some { frame := f, hops := r.length, next := next, nibs := nibsOf (meshBytes f 0 next), start := p.t } }

/-- TSTAT (R603). -/
def State.setTx (s : State) (v : Nat) : State := s.srf .rms .A 0x100 30 28 v

/-- The next exchange that waits: maps and routes before DATA. -/
def State.nextX (s : State) (n : Nat) : State :=
  match (s.mp n).q with
  | f :: t => (s.mMp n fun p => { p with q := t }).startX n f
  | [] =>
    if s.rf .rms .A 0x100 30 28 = 1 ∧ s.rf .rms .A 0x100 27 27 = n then
      let dst := s.rf .rms .A 0x100 15 8
      let len := min 48 (s.rf .rms .A 0x100 7 0)
      let pay := ((List.range 12).flatMap fun i => le 4 (s.rg .rms .A (0x140 + 4 * i)).toNat).take len
      (s.setTx 2).startX n { kind := 2, dst := dst, body := [dst, len] ++ pay }
    else s

/-- The map on which the root sends to a neighbour; frames to all go on the map of a new link. -/
def State.outMap (s : State) (next : Nat) : Nat := if next = 0xFF then 0xBBBBBBBB else (s.mlink 0 next).map

/-- A frame to all has gone out (R603): what TSTAT then shows is a free value, empty or delivered. -/
def State.bcDone (s : State) : State := (s.drew 1).setTx (if s.freeVal 0 % 2 = 0 then 0 else 3)

/-- The cell of the exchange goes out. -/
def State.xSend (s : State) (n : Nat) (x : MeshX) : State :=
  let m := s.outMap x.next
  let k := mapU m - 2
  let s := s.sendCell n m (x.nibs.take k)
  if x.next = 0xFF then
    let rest := x.nibs.drop k
    if rest = [] then (s.endX n).bcDone else s.mx n fun x => { x with nibs := rest }
  else s.mx n fun x => { x with st := 1, cur := k }

/-- The bytes of an answer once all of them are there; an unknown KIND ends with its first bytes (R592). -/
def answerDone (nibs : List Nat) : Bool :=
  let b := bytesOf nibs
  match b[0]? with
  | none => false
  | some c =>
    if c / 16 = 4 then decide (14 ≤ b.length)
    else if c / 16 = 2 then (match b[3]? with | some l => decide (6 + l ≤ b.length) | none => false)
    else true

/-- What the exchange does in a crossing. -/
def State.xCrossing (s : State) (n : Nat) (win : List (Option Nat)) : State :=
  match (s.mp n).x with
  | none => s
  | some x =>
    match x.st with
    | 0 => if s.meshTx n then s.xSend n x else s
    | 1 =>
      let r := s.takeCell n x.next win
      let b := (bytesOf (r.2.getD [])).headD 0
      r.1.mx n fun x => { x with st := 2, resp := if 2 ≤ b / 64 then some (b / 64 == 2, b % 32) else none }
    | 4 =>
      if win.all Option.isNone then s
      else
        let r := s.takeCell n x.next win
        r.1.mx n fun x => { x with st := 5, ansOk := r.2.isSome, ans := x.ans ++ r.2.getD [] }
    | 5 =>
      if s.meshTx n then
        let b := (if x.ansOk then 0x80 else 0xC0) + x.ansIdx % 32
        let s := s.sendCell n (s.outMap x.next) [b % 16, b / 16]
        s.mx n fun x => { x with st := if x.ansOk && answerDone x.ans then 7 else 4, ansIdx := x.ansIdx + b2n x.ansOk }
      else s
    | _ => s

/-! ### What the mesh carries (R599) -/

/-- The cells of a Harvitor PDU on a map. -/
def harvCells (m : Nat) : Nat := (22 + (mapU m - 2) - 1) / (mapU m - 2)

/-- What the Harvitor exchange does in a crossing. -/
def State.harvCrossing (s : State) (n : Nat) (v : MeshHarv) (win : List (Option Nat)) : State :=
  let m := s.outMap v.node
  if v.sent < harvCells m then
    let k := mapU m - 2
    let s := if s.meshTx n then s.sendCell n m ((v.nibs.drop (k * v.sent)).take k) else s
    s.mMp n fun p => { p with harv := some { v with sent := v.sent + 1 } }
  else if v.got < harvCells (s.mlink v.node 0).map then
    let r := s.takeCell n v.node win
    r.1.mMp n fun p => { p with harv := some { v with got := v.got + 1, ans := v.ans ++ r.2.getD [], bad := v.bad || r.2.isNone } }
  else s

/-- The island hands a PDU of connection `c` to the mesh: it goes out where its exchange fits into one CYCLE and its node is a neighbour (R599). -/
def State.meshPdu (s : State) (c : Nat) : State :=
  let w := s.sw (0x200 + 0x10 * c)
  let m := fld w 7 0
  let n := s.rf .rms .A (0x400 + 4 * m) 30 30
  let need := harvCells (s.outMap m) + harvCells (s.mlink m 0).map
  let have_ := fld w 15 8 * 2 * s.rf .rms .A (0x20 * n + 4) 28 16 / 100000
  let pdu := (s.conn c).pdu
  if !s.meshEn n || !s.nodeEn n m || decide (have_ < need) || decide (1 < (s.route m).length) || pdu.isEmpty then s
  else
    let b := [0x10, m] ++ bytesAt pdu 6 4 ++ bytesAt pdu 12 1 ++ bytesAt pdu 20 4
    s.mMp n fun p => { p with harv := some { conn := c, node := m, nibs := nibsOf b } }

/-- MESH_HARVITOR_EXCHANGE: the node's PDU is rebuilt and given to the island.
(DESIGN CHOICE, unsafe: log 78.) -/
def execMeshHarvitorExchange (n : Nat) (s : State) : Out :=
  match (s.mp n).harv with
  | none => .next s
  | some v =>
    if v.sent < harvCells (s.outMap v.node) ∨ v.got < harvCells (s.mlink v.node 0).map then .next s
    else
      let s := s.mMp n fun p => { p with harv := none }
      let b := bytesOf v.ans
      if v.bad || numAt b 0 1 / 16 != 1 then .next s
      else
        let p := le 4 (s.connCid v.conn) ++ le 2 (s.connTexp v.conn) ++ bytesAt b 2 4 ++ [0, 0] ++ bytesAt b 6 1 ++ List.replicate 7 0 ++ bytesAt b 7 4
        .next (s.takePdu v.conn p)

/-- HARVITOR_CYCLE_SEND (R485, R599): every CYCLE ms the PDU of a connection leaves on its carrier.
(DESIGN CHOICE, unsafe: log 42.) -/
def execHarvitorCycleSend (n : Nat) (s : State) : Out :=
  let c := s.conn n
  let w := s.sw (0x200 + 0x10 * n)
  let due := c.he.sent.isEmpty || decide (c.sentTick + 20 * fld w 15 8 ≤ s.now)
  if s.connEn n && fld w 30 29 != 0 && due then
    let s := s.sendPdu n true
    let pdu := (s.conn n).pdu
    if pdu.isEmpty then .next s
    else if fld w 30 29 = 2 then
      let k := fld w 7 0
      let id := (s.sw (0x20C + 0x10 * n)).toNat % 2 ^ 29 + 2 ^ 31
      if s.ref.token.isSome && decide (k < 4) && s.canOwned k then .next (s.fwSend k 0 id true 12 pdu) else .next s
    else if fld w 30 29 = 3 then .next (s.meshPdu n)
    else .next s
  else .next s

/-! ### Crossings (R584, R586) -/

/-- ZERO_CROSSING: XN, the tracking loop's counts, then what the port sends or receives in the window.
(DESIGN CHOICE, safe: log 74.) -/
def execZeroCrossing (n : Nat) (edge : Option Int) (hz : Nat) (limited : Bool) (rx : List HalfSlot) (s : State) : Out :=
  if !s.meshEn n then .next s
  else
    let ok : Bool := match edge with
      | some e => decide (-200 ≤ e ∧ e ≤ 200 ∧ 4500 ≤ hz ∧ hz ≤ 6500)
      | none => false
    let s := s.mMp n fun p => { p with t := p.t + 1, miss := if ok then 0 else p.miss + 1, good := if ok then p.good + 1 else 0, out := [] }
    let s := (s.srf .rms .A (0x20 * n + 4) 15 0 (s.mp n).t).srf .rms .A (0x20 * n + 4) 28 16 hz
    let s := if limited then s.srf .rms .A (0x20 * n + 4) 29 29 1 else s
    let win := window (s.rf .rms .A (0x20 * n) 12 5) rx
    match (s.mp n).harv with
    | some v => .next (s.harvCrossing n v win)
    | none =>
      let b := (s.mp n).busy
      if 0 < b then
        let s := s.mMp n fun p => { p with busy := b - 1 }
        if 6 < b ∧ s.meshTx n then
          let f := meshBytes { kind := 7, dst := 0xFF, body := le 2 (s.mp n).beacon } 0 0xFF
          .next (s.sendCell n 0xBBBBBBBB ((nibsOf f).drop (6 * (8 - b)) |>.take 6))
        else .next s
      else
        let s := if (s.mp n).x.isNone && s.meshTx n then s.nextX n else s
        .next (s.xCrossing n win)

/-- ZC_LOST: the port stops transmitting. -/
def execZcLost (n : Nat) (s : State) : Out :=
  if s.meshEn n && decide (4 ≤ (s.mp n).miss) && !(s.mp n).lost then
    .next ((((s.mMp n fun p => { p with lost := true }).srf .rms .A (0x20 * n + 4) 31 30 1)).meshEv n 0 1 0)
  else .next s

/-- ZC_RECOVERED: the port transmits again. -/
def execZcRecovered (n : Nat) (s : State) : Out :=
  let p := s.mp n
  if s.meshEn n && decide (16 ≤ p.good) && (p.lost || !s.meshTx n) then
    let s := (s.mMp n fun p => { p with lost := false }).srf .rms .A (0x20 * n + 4) 31 31 1
    .next (if p.lost then s.meshEv n 0 2 0 else s)
  else .next s

/-! ### Responses (R594) -/

/-- A frame has passed its first hop: DATA is delivered, a MAPSET acknowledged, an ASSIGN on its way, a POLL waits for its answer. -/
def State.hopDone (s : State) (n : Nat) (x : MeshX) : State :=
  let f := x.frame
  let s := match f.kind with
    | 2 => s.setTx 3
    | 5 =>
      let mark (c : MapChg) : MapChg :=
        if bytesAt f.body 3 6 ≠ le 4 c.map ++ le 2 c.at_ then c
        else if f.dst = f.link / 256 then { c with ackTx := true } else { c with ackRx := true }
      s.mMlink (f.link / 256) (f.link % 256) (fun l => { l with chg := l.chg.map mark })
    | 6 => { s with mesh := { s.mesh with acked := if f.dst ∈ s.mesh.acked then s.mesh.acked else s.mesh.acked ++ [f.dst] } }
    | _ => s
  if f.kind = 3 then s.mx n fun x => { x with st := if x.hops = 1 then 4 else 6 }
  else if x.hops = 1 then s.endX n
  else s.mx n fun x => { x with st := 6 }

/-- MESH_CELL_RESPONSE.
(DESIGN CHOICE, unsafe: log 78.) -/
def execMeshCellResponse (n : Nat) (s : State) : Out :=
  match (s.mp n).x with
  | none => .next s
  | some x =>
    if x.st ≠ 2 then .next s
    else if x.resp = some (true, x.idx % 32) then
      let rest := x.nibs.drop x.cur
      if rest = [] then .next (s.hopDone n x)
      else .next (s.mx n fun x => { x with nibs := rest, idx := x.idx + 1, st := 0, resp := none })
    else if x.resends < 3 then .next (s.mx n fun x => { x with resends := x.resends + 1, st := 0, resp := none })
    else .next (s.mx n fun x => { x with st := 3 })

/-- MESH_FRAME_ABANDON: FRAMES_DROP, the route's count, event.
(DESIGN CHOICE, safe: log 76.) -/
def execMeshFrameAbandon (n hop : Nat) (s : State) : Out :=
  match (s.mp n).x with
  | none => .next s
  | some x =>
    let drop (s : State) : State :=
      let s := (s.meshCnt n 0x14).meshEv n x.frame.dst 6 0
      { s with mesh := { s.mesh with aband := Machine.upd 0 s.mesh.aband x.frame.dst (· + 1) } }
    if hop = 0 then
      if x.st = 3 then .next ((drop (if x.frame.kind = 2 then s.setTx 4 else s)).endX n) else .next s
    else if (x.st = 6 ∨ x.st = 4) ∧ hop < x.hops then .next (drop s)
    else .next s

/-- MESH_RELAY_FORWARD: the next relay has the frame, HOPS one higher; one that arrives with HOPS 3 elsewhere than at its DST is dropped. -/
def execMeshRelayForward (n : Nat) (s : State) : Out :=
  match (s.mp n).x with
  | none => .next s
  | some x =>
    if x.st ≠ 6 then .next s
    else
      let path := if x.frame.kind = 6 then (bytesAt x.frame.body 1 4).filter (· ≠ 0) else look [] s.mesh.recs x.frame.dst
      if 3 ≤ x.hop ∨ path.length ≤ x.hop + 1 then .next s
      else
        .next (s.mx n fun x =>
          { x with hop := x.hop + 1, nibs := nibsOf (meshBytes x.frame (x.hop + 1) (path.getD (x.hop + 1) 0)),
                   st := if x.frame.kind = 3 ∧ x.hop + 2 = x.hops then 4 else 6 })

/-- Present a received frame in RMS_RXCTL (R604). -/
def State.meshRx (s : State) (n src : Nat) (d : List Nat) : State :=
  let c := setFld (setFld (setFld (setFld (s.rg .rms .A 0x180) 31 31 1) 29 29 n) 15 8 src) 7 0 d.length
  (List.range 12).foldl (fun s i => s.srg .rms .A (0x1C0 + 4 * i) (BitVec.ofNat 32 (numAt d (4 * i) 4))) (s.srg .rms .A 0x180 c)

/-- RELEASE (R604): the oldest waiting frame moves in. -/
def State.meshRelease (s : State) : State :=
  match s.mesh.rxq with
  | [] => s.srf .rms .A 0x180 31 31 0
  | f :: t => ({ s with mesh := { s.mesh with rxq := t } }).meshRx f.1 f.2.1 f.2.2

/-- MESH_FRAME_RECEIVED (R592, R604): a DATA frame with LEN above 0 goes to the receive queue, a LINKREP to the reports; a frame of another kind, with a wrong
CRC or not for the root is dropped. -/
def execMeshFrameReceived (n : Nat) (s : State) : Out :=
  match (s.mp n).x with
  | none => .next s
  | some x =>
    if x.st ≠ 7 then .next s
    else
      let b := bytesOf x.ans
      let kind := numAt b 0 1 / 16
      let len := if kind = 4 then 14 else 6 + numAt b 3 1
      let b := b.take len
      let good := (kind == 2 || kind == 4) && b.length == len && numAt b (len - 2) 2 == crcMsb 16 0x1021 0xFFFF (b.take (len - 2)) &&
        numAt b 1 1 == 0 && numAt b 2 1 == 0
      if !good then .next (s.mx n fun x => { x with st := 4, ans := [], ansIdx := 0 })
      else
        let s := s.endX n
        if kind = 4 then .next (s.mMp n fun p => { p with reps := p.reps ++ [(x.frame.dst, b)] })
        else if len = 6 then .next s
        else if s.rb .rms .A 0x180 31 then
          if 8 ≤ s.mesh.rxq.length then .next (s.srf .rms .A 0x180 28 28 1)
          else .next { s with mesh := { s.mesh with rxq := s.mesh.rxq ++ [(n, x.frame.dst, bytesAt b 4 (len - 6))] } }
        else .next (s.meshRx n x.frame.dst (bytesAt b 4 (len - 6)))
/-- RMS_RX_RELEASE. -/
def execRmsRxRelease (h : Half) (s : State) : Out := .next (s.gated h State.meshRelease)

/-- REQ (R603): ignored while a frame is pending or being sent. -/
def State.meshRequest (s : State) : State := if s.rf .rms .A 0x100 30 28 = 1 ∨ s.rf .rms .A 0x100 30 28 = 2 then s else s.setTx 1

/-- RMS_TX_REQUEST. -/
def execRmsTxRequest (h : Half) (s : State) : Out := .next (s.gated h State.meshRequest)

/-- MESH_EXCHANGE_TIMEOUT (R595): 2h x 57 crossings without answer.
(DESIGN CHOICE, safe: log 76.) -/
def execMeshExchangeTimeout (n : Nat) (s : State) : Out :=
  match (s.mp n).x with
  | none => .next s
  | some x =>
    if (s.mp n).t < x.start + 2 * x.hops * 57 then .next s
    else .next ((if s.rf .rms .A 0x100 30 28 = 2 ∧ x.frame.kind = 2 then s.setTx 4 else s).endX n)

/-- The port may start something of its own: it transmits and nothing is under way. -/
def State.meshIdle (s : State) (n : Nat) : Bool := s.meshTx n && (s.mp n).x.isNone && (s.mp n).harv.isNone && (s.mp n).busy == 0

/-- BEACON (R595): two crossings, and six kept free.
(DESIGN CHOICE, unsafe: log 75.) -/
def execBeacon (n : Nat) (s : State) : Out :=
  if s.meshIdle n && decide ((s.mp n).beacon + 1000 ≤ (s.mp n).t) then .next (s.mMp n fun p => { p with busy := 8, beacon := p.t + 1 }) else .next s

/-- POLL (R593, R605).
(DESIGN CHOICE, unsafe: log 75.) -/
def execPoll (n m : Nat) (s : State) : Out :=
  let every := max 10 (s.rf .rms .A (0x400 + 4 * m) 15 0)
  if s.meshIdle n && s.nodeEn n m && decide (look 0 (s.mp n).polls m + every ≤ (s.mp n).t) then
    .next ((s.mMp n fun p => { p with polls := put 0 p.polls m p.t }).startX n { kind := 3, dst := m, body := [m] })
  else .next s

/-! ### Reports and maps (R589, R590) -/

/-- A frame joins those that wait. -/
def State.meshQueue (s : State) (n : Nat) (f : MeshFrame) : State := s.mMp n fun p => { p with q := p.q ++ [f] }

/-- MAPSET frames to the ends of a link that are nodes, in place of those that still wait; the root's own end needs none (R590). -/
def State.sendMapset (s : State) (n tx rx map at_ : Nat) : State :=
  let s := s.mMlink tx rx fun l => { l with chg := some { map := map, at_ := at_, ackTx := tx == 0, ackRx := rx == 0 } }
  let s := s.mMp n fun p => { p with q := p.q.filter fun f => f.kind != 5 || f.link != 256 * tx + rx }
  ([tx, rx].filter (· ≠ 0)).foldl (fun s d => s.meshQueue n { kind := 5, dst := d, body := [d, tx, rx] ++ le 4 map ++ le 2 at_, link := 256 * tx + rx }) s

/-- The map a report recommends (R590); a report is a list of (ERASED, MARGIN). -/
def recMap (r : List (Nat × Nat)) : Nat :=
  ((List.range 8).map fun i =>
    let e := r.getD i (15, 0)
    let amp := if e.2 < 10 then 3 else if e.2 < 12 then 2 else if e.2 < 14 then 1 else 0
    (amp + if e.1 ≤ 2 ∧ 3 ≤ e.2 then 8 else 0) * 16 ^ i).sum

/-- A report of link `tx` to `rx` is taken, with what the root then decides (R590). -/
def State.report (s : State) (n tx rx : Nat) (r : List (Nat × Nat)) : State :=
  let m := recMap r
  let s := s.mMlink tx rx fun l =>
    { l with erased := r.map (·.1), at_ := some (s.mp n).t, rec_ := m, recN := if l.rec_ = m then l.recN + 1 else 1 }
  let l := s.mlink tx rx
  if l.recN < 3 then s
  else if mapU m < 4 then
    if l.down then s else (s.mMlink tx rx fun l => { l with down := true }).meshEv n (if tx = 0 then rx else tx) 5 0
  else
    let s := s.mMlink tx rx fun l => { l with down := false }
    if m = l.map ∨ l.chg.isSome then s else s.sendMapset n tx rx m ((s.mp n).t + 200)

/-- LINKREP: a report arrives, or the root forms its own of what it received since the last.
(DEDUCED, unsafe: log 77.) -/
def execLinkrep (n : Nat) (own : Option (Nat × List Nat)) (s : State) : Out :=
  match own with
  | none =>
    match (s.mp n).reps with
    | [] => .next s
    | (node, b) :: t =>
      let s := s.mMp n fun p => { p with reps := t }
      .next (s.report n (numAt b 3 1) node ((bytesAt b 4 8).map fun x => (x / 16, x % 16)))
  | some (nbr, margins) =>
    let l := s.mlink nbr 0
    let per := 100 * max 1 (s.rf .rms .A (0x20 * n) 4 0)
    if !s.meshEn n || !s.nodeEn n nbr || l.cells == 0 || (s.mp n).t % per != 0 then .next s
    else
      let er (i : Nat) : Nat := min 15 ((16 * l.er.getD i 0 + l.cells - 1) / l.cells)
      let s := s.mMlink nbr 0 fun l => { l with cells := 0, er := [] }
      .next (s.report n nbr 0 ((List.range 8).map fun i => (er i, min 15 (margins.getD i 0))))

/-- MAPSET: at AT both ends switch (R588, R590, R605).
(DESIGN CHOICE, unsafe: log 75.) -/
def execMapset (n tx rx : Nat) (s : State) : Out :=
  let l := s.mlink tx rx
  match l.chg with
  | none => .next s
  | some c =>
    if (s.mp n).t < c.at_ ∨ !c.ackTx ∨ !c.ackRx then .next s
    else
      let s := s.mMlink tx rx fun l => { l with map := c.map, chg := none, recN := 0 }
      let s := if tx = 0 then s.srg .rms .A (0xC00 + 4 * rx) (BitVec.ofNat 32 c.map) else s
      .next (if c.map = l.map then s else s.meshEv n (if tx = 0 then rx else tx) 3 c.map)

/-- MAPSET_ACK_DEADLINE: the old map again, with a new AT. -/
def execMapsetAckDeadline (n tx rx : Nat) (s : State) : Out :=
  let l := s.mlink tx rx
  match l.chg with
  | none => .next s
  | some c =>
    if (c.ackTx ∧ c.ackRx) ∨ (s.mp n).t + 20 < c.at_ then .next s
    else .next (s.sendMapset n tx rx l.map ((s.mp n).t + 200))

/-! ### Routing (R596, R597, R605) -/

/-- The cost of a directed link; none: it is not usable.
(DEDUCED, unsafe: log 77.) -/
def State.linkCost (s : State) (n tx rx : Nat) : Option Nat :=
  let l := s.mlink tx rx
  let per := 100 * max 1 (s.rf .rms .A (0x20 * n) 4 0)
  match l.at_ with
  | none => none
  | some t =>
    if l.down ∨ t + 3 * per < (s.mp n).t then none
    else
      let u := mapU l.map - 2
      some ((96 + u - 1) / u + ((mapSlots l.map).map fun i => l.erased.getD i 0).sum)

/-- A link costs as much as the higher of its two directions. -/
def State.hopCost (s : State) (n a b : Nat) : Option Nat :=
  match s.linkCost n a b, s.linkCost n b a with
  | some x, some y => some (max x y)
  | _, _ => none

/-- The cost of a route from the root; none: a link of it is not usable. -/
def State.routeCost (s : State) (n : Nat) : Nat → List Nat → Option Nat
  | _, [] => some 0
  | a, b :: t =>
    match s.hopCost n a b, s.routeCost n b t with
    | some x, some y => some (x + y)
    | _, _ => none

/-- The first address that differs is lower. -/
def lowerPath : List Nat → List Nat → Bool
  | a :: s, b :: t => Nat.blt a b || (a == b && lowerPath s t)
  | _, _ => false

/-- Of two routes: the cheaper, then the shorter, then the lower. -/
def betterRoute (a b : Nat × List Nat) : Bool :=
  Nat.blt a.1 b.1 || (a.1 == b.1 && (Nat.blt a.2.length b.2.length || (a.2.length == b.2.length && lowerPath a.2 b.2)))

/-- The better of two routes that may be absent. -/
def bestOf (a b : Option (Nat × List Nat)) : Option (Nat × List Nat) :=
  match a, b with
  | none, x => x
  | x, none => x
  | some a, some b => some (if betterRoute b a then b else a)

/-- The cheapest routes of one hop more, by node. -/
def State.moreHops (s : State) (n : Nat) (nodes : List Nat) (level : Tab (Nat × List Nat)) : Tab (Nat × List Nat) :=
  nodes.filterMap fun m =>
    let cands := level.filterMap fun e =>
      if m ∈ e.2.2 then none else (s.hopCost n e.1 m).map fun c => (e.2.1 + c, e.2.2 ++ [m])
    (cands.foldl (fun b c => bestOf b (some c)) none).map fun r => (m, r)

/-- The cheapest route of at most four hops to node `m` (R596). -/
def State.bestRoute (s : State) (n m : Nat) : Option (Nat × List Nat) :=
  let nodes := (rangeFrom 1 254).filter (s.nodeEn n)
  let l1 := s.moreHops n nodes [(0, (0, []))]
  let l2 := s.moreHops n nodes l1
  let l3 := s.moreHops n nodes l2
  let l4 := s.moreHops n nodes l3
  [l1, l2, l3, l4].foldl (fun b l => bestOf b ((l.find? fun e => e.1 == m).map (·.2))) none

/-- ROUTE_COMPUTE: the route of a node changes when the rules allow; the new one goes out with ASSIGN.
(DEDUCED, unsafe: log 77.) -/
def execRouteCompute (n m : Nat) (s : State) : Out :=
  if !s.meshEn n || !s.nodeEn n m then .next s
  else
    let cur := look [] s.mesh.routes m
    let now := if cur = [] then none else s.routeCost n 0 cur
    let worn := decide (3 ≤ look 0 s.mesh.aband m)
    let set (s : State) (path : List Nat) (w : Nat) : State :=
      let s := { s with mesh := { s.mesh with routes := put [] s.mesh.routes m path, aband := put 0 s.mesh.aband m 0, acked := s.mesh.acked.filter (· ≠ m) } }
      (s.srg .rms .A (0x800 + 4 * m) (BitVec.ofNat 32 w)).meshEv n m 4 0
    match s.bestRoute n m with
    | none => .next (if cur ≠ [] ∧ (now.isNone ∨ worn) then set s [] 0 else s)
    | some (c, path) =>
      let change : Bool := match now with
        | none => true
        | some k => worn || (decide (100 * c ≤ 75 * k) && decide (path ≠ cur))
      if !change then .next s
      else
        let s := set s path (2 ^ 31 + path.length * 2 ^ 28 + path.headD 0 * 2 ^ 20 + min 0xFFFF c)
        .next (s.meshQueue n { kind := 6, dst := m, body := [m] ++ padTo 4 path })

/-- ASSIGN (R597): once the frame is on its way, the relays record the route. -/
def execAssign (n m : Nat) (s : State) : Out :=
  if s.nodeEn n m && decide (m ∈ s.mesh.acked) then
    .next { s with mesh := { s.mesh with recs := put [] s.mesh.recs m (look [] s.mesh.routes m), acked := s.mesh.acked.filter (· ≠ m) } }
  else .next s

/-- What R600 asks of a connection on the root mesh that a SAF_ commit would enable: `w` and its KIND, CYCLE and ADDR. -/
def State.meshConnOk (s : State) (sh : Nat → Word) (n : Nat) : Bool :=
  let w := sh (0x200 + 0x10 * n)
  let m := fld w 7 0
  let port (m : Nat) : Nat := s.rf .rms .A (0x400 + 4 * m) 30 30
  fld w 28 27 == 2 && fld w 15 8 == 100 && decide (1 ≤ m ∧ m ≤ 254) && s.rb .rms .A (0x400 + 4 * m) 31 &&
  !((List.range 128).any fun k =>
      let v := sh (0x200 + 0x10 * k)
      k != n && bitAt v 31 && fld v 30 29 == 3 && port (fld v 7 0) == port m)

end Sys2Proof.Machine
end

