-- ==== Sys2Proof/Machine/Points.lean ====
section
/-!
DEFINITION. Points at the mailbox (R35, R36, R39-R41, R418, R524, R525) and the delivery of event records (R527).
-/

namespace Sys2Proof.Machine

/-- The class and index of a point ID (R33). -/
def idClass (id : Nat) : Nat := id / 2 ^ 25
def idIndex (id : Nat) : Nat := id % 2 ^ 25

/-- FLAGS of a slot (R36). -/
def Slot.flags (p : Slot) : Nat := b2n p.valid + 2 * b2n p.stale + 4 * b2n p.subst + 8 * b2n p.mirrorPending + 16 * b2n p.restoring

/-- A scalar point is one of TYPE 0x01-0x05 (R524). -/
def Slot.scalar (p : Slot) : Bool := decide (1 ≤ p.typ ∧ p.typ ≤ 5)

/-- VALUE of a slot as 96 bytes (R36). -/
def Slot.value (p : Slot) : List Nat :=
  padTo 96 (match p.val with
    | .int v => leInt 8 v
    | .bytes b => b.length :: b
    | .chain n b => le 4 n ++ b)

/-- The 128 bytes of a slot (R36). -/
def Slot.bytes (p : Slot) (id : Nat) : List Nat :=
  le 4 id ++ [p.typ, p.flags, p.owner, 0] ++ le 8 p.stamp ++ le 4 p.wseq ++ le 2 p.rd ++ le 2 p.wr ++ List.replicate 8 0 ++ p.value

/-- The value of a scalar point in 8 bytes, sign- or zero-extended; 0 for another (R524). -/
def Slot.scalar8 (p : Slot) : List Nat :=
  match p.val with
  | .int v => if p.scalar then leInt 8 v else le 8 0
  | _ => le 8 0

/-- Checks 1, 3 and 4 of R524 for a point a verb names; `write` adds check 2. Status 0: it may be served. -/
def State.pointCheck (s : State) (x : Half) (role id : Nat) (write : Bool) : Nat :=
  let cls := idClass id
  let p := s.pointAt x (idIndex id)
  if cls = 0 ∨ (0x0B ≤ cls ∧ cls ≤ 0x0F) then stRange
  else if 0x10 ≤ cls ∨ classOf (idIndex id) ≠ some cls then 0x0201
  else if write ∧ cls ≠ 2 then 0x0203
  else
    let rights := match p with
      | some q => if write then q.wr else q.rd
      | none => if write then classWr cls else classRd cls
    if !rights.testBit role then stRole
    else if p.isNone then 0x0202 else stOk

/-- The payload of PNT_READ (R524). -/
def Slot.readPayload (p : Slot) (id : Nat) : List Nat :=
  if p.scalar then [p.typ, p.flags, 0, 0] ++ le 4 p.wseq ++ p.scalar8 else p.bytes id

/-- An entry of PNT_READ_MULTI (R524). -/
def Slot.multiEntry (p : Slot) (id : Nat) : List Nat := le 4 id ++ [p.typ, p.flags, 0, 0] ++ le 8 p.stamp ++ p.scalar8

/-- A point that a read names still carries RESTORING (R40, R41). -/
def State.restoringAt (s : State) (x : Half) (id : Nat) : Bool :=
  match s.pointAt x (idIndex id) with
  | some p => p.restoring
  | none => false

/-- A read whose points are all there completes; TICK of PNT_READ is the point's STAMP (R506). -/
def State.readDone (s : State) (o : Org) (x : Half) (ids : List Nat) (multi : Bool) : State :=
  let ps := ids.filterMap fun id => (s.pointAt x (idIndex id)).map fun p => (id, p)
  if multi then s.complete o x 0x0202 stOk true (ps.flatMap fun e => e.2.multiEntry e.1)
  else
    match ps with
    | e :: _ => s.completeAt o x 0x0201 stOk true (e.2.readPayload e.1) e.2.stamp
    | [] => s.complete o x 0x0201 0x0202 true []

/-- A read is served, or waits with ST_PENDING for points that carry RESTORING (R41). -/
def State.readPoints (s : State) (o : Org) (x : Half) (ids : List Nat) (multi : Bool) : State :=
  if ids.any (s.restoringAt x) then
    (s.complete o x (if multi then 0x0202 else 0x0201) stPending false []).mh x fun v =>
      { v with restWait := v.restWait ++ [{ org := o, exec := x, ids := ids, multi := multi }] }
  else s.readDone o x ids multi

/-- PNT_READ (R524).
(DESIGN CHOICE, unsafe: log 17.) -/
def execPntRead (o : Org) (id : Nat) (s : State) : Out :=
  .next (s.verb o 0x0201 rAny fun s x role =>
    let st := s.pointCheck x role id false
    if st ≠ stOk then s.complete o x 0x0201 st true [] else s.readPoints o x [id] false)

/-- PNT_READ_MULTI (R524): the first ID that fails refuses the command, its position in the payload. -/
def execPntReadMulti (o : Org) (ids : List Nat) (s : State) : Out :=
  .next (s.verb o 0x0202 rAny fun s x role =>
    if ids.length = 0 ∨ 256 < ids.length then s.complete o x 0x0202 stRange true []
    else
      match ids.zipIdx.find? fun e => s.pointCheck x role e.1 false != stOk with
      | some e => s.complete o x 0x0202 (s.pointCheck x role e.1 false) true (le 2 e.2)
      | none => s.readPoints o x ids true)

/-- The 8 value bytes as TYPE takes them, if within its range (R524). -/
def scalarValue (typ v : Nat) : Option Int :=
  let i : Int := signed 64 v
  match typ with
  | 1 => if -32768 ≤ i ∧ i ≤ 32767 then some i else none
  | 2 => if -2147483648 ≤ i ∧ i ≤ 2147483647 then some i else none
  | 3 => some i
  | 4 => some (v % 2 ^ 64 : Nat)
  | 5 => if v % 2 ^ 64 < 2 ^ 32 then some (v % 2 ^ 64 : Nat) else none
  | _ => none

/-- PNT_WRITE (R524): a scalar set-point of class 0x02 with the TYPE of its slot. -/
def execPntWrite (o : Org) (id typ v : Nat) (s : State) : Out :=
  .next (s.verb o 0x0203 rAny fun s x role =>
    let st := s.pointCheck x role id true
    if st ≠ stOk then s.complete o x 0x0203 st true []
    else
      match look none (s.hf x).pts (idIndex id), scalarValue typ v with
      | some p, some i =>
        if p.typ ≠ typ ∨ !p.scalar then s.complete o x 0x0203 stRange true []
        else (s.writePoint x (idIndex id) p.owner typ (.int i) true).complete o x 0x0203 stOk true (le 4 ((p.wseq + 1) % 2 ^ 32))
      | _, _ => s.complete o x 0x0203 stRange true [])

/-- A waiting read of half `x` whose points are all restored completes (R41). -/
def restoreStep (x : Half) (s : State) (w : PntWait) : State := if w.ids.any (s.restoringAt x) then s else s.readDone w.org w.exec w.ids w.multi

/-- POINT_RESTORE_COMPLETE (R40, R41): the slot loses RESTORING, and the reads that waited for it complete. -/
def execPointRestoreComplete (h : Half) (idx : Nat) (s : State) : Out :=
  match look none (s.hf h).pts idx with
  | none => .next s
  | some p =>
    let s := s.mh h fun v => { v with pts := put none v.pts idx (some { p with restoring := false }) }
    let s := (s.hf h).restWait.foldl (restoreStep h) s
    .next (s.mh h fun v => { v with restWait := v.restWait.filter fun w => w.ids.any (s.restoringAt h) })

/-! ### Subscriptions (R525) -/

/-- PNT_SUBSCRIBE: the ring is enabled and its paired command ring acts under the subscriber's role. -/
def execPntSubscribe (o : Org) (ring period : Nat) (ids : List Nat) (s : State) : Out :=
  .next (s.verbHere o 0x0204 rAny fun s role =>
    let h := o.half
    if ring < 32 ∨ 63 < ring ∨ period < 20 ∨ 65535 < period ∨ ids.length = 0 ∨ 256 < ids.length then s.complete o h 0x0204 stRange true []
    else
      match ids.find? fun id => s.pointCheck h role id false != stOk with
      | some id => s.complete o h 0x0204 (s.pointCheck h role id false) true []
      | none =>
        if !s.ringEn h ring || s.evRole h ring != some role then s.complete o h 0x0204 0x0105 true []
        else if 4096 < ((s.hf h).mbx.subs.map fun b => b.ids.length).sum + ids.length then s.complete o h 0x0204 0x0204 true []
        else
          let n := (s.hf h).mbx.subNext
          let b : Subscr := { id := n, ring := ring, role := role, cmdRing := o.ring, period := period, since := s.tick h, ids := ids, seen := [] }
          (s.mMbx h fun m => { m with subs := m.subs ++ [b], subNext := (n + 1) % 2 ^ 16 }).complete o h 0x0204 stOk true (le 2 n))

/-- PNT_UNSUBSCRIBE: under the subscriber's role. -/
def execPntUnsubscribe (o : Org) (subid : Nat) (s : State) : Out :=
  .next (s.verbHere o 0x0205 rAny fun s role =>
    let h := o.half
    match (s.hf h).mbx.subs.find? fun b => b.id = subid with
    | none => s.complete o h 0x0205 stRange true []
    | some b =>
      if b.role ≠ role then s.complete o h 0x0205 stRole true []
      else (s.mMbx h fun m => { m with subs := m.subs.filter fun c => c.id != subid }).complete o h 0x0205 stOk true [])

/-- One subscribed point: a record of code 0x0201 if WSEQ or FLAGS has changed; a point that carries RESTORING is waited for (R41). -/
def deliverPoint (h : Half) (ring : Nat) (acc : State × List (Nat × Nat × Nat)) (id : Nat) : State × List (Nat × Nat × Nat) :=
  match acc.1.pointAt h (idIndex id) with
  | none => acc
  | some p =>
    let now := (id, p.wseq, p.flags)
    if p.restoring || decide (now ∈ acc.2) then acc
    else
      let s := acc.1
      let r : EventRec := { seq := (s.hf h).mbx.evseq, origin := hbit h, sev := 0, code := 0x0201, tick := s.tick h,
                            detail := padTo 16 (le 4 id ++ [p.typ, p.flags, 0, 0] ++ p.scalar8) }
      ((s.mMbx h fun m => { m with evseq := (m.evseq + 1) % 2 ^ 32 }).deliver h ring r, (acc.2.filter fun e => e.1 != id) ++ [now])

/-- SUBSCRIPTION_DELIVERY (R525): every PERIOD ticks; a subscription whose ring is off or acts under another role ends. -/
def execSubscriptionDelivery (h : Half) (subid : Nat) (s : State) : Out :=
  match (s.hf h).mbx.subs.find? fun b => b.id = subid with
  | none => .next s
  | some b =>
    if !s.ringEn h b.ring || s.evRole h b.ring != some b.role then
      .next (s.mMbx h fun m => { m with subs := m.subs.filter fun c => c.id != subid })
    else if s.tick h ≤ b.since ∨ (s.tick h - b.since) % b.period ≠ 0 then .next s
    else
      let r := b.ids.foldl (deliverPoint h b.ring) (s, b.seen)
      let l := (r.1.hf h).mbx.subs.map fun c => if c.id = subid then { c with seen := r.2 } else c
      .next (r.1.mMbx h fun m => { m with subs := l })

/-! ### Events (R527) -/

/-- Records an event ring held while it had no peer go out once it has one (R508). -/
def flushHeld (h : Half) (s : State) (n : Nat) : State :=
  let x := s.ring h n
  if x.held.isEmpty ∨ (s.evPeer h n).isNone then s else x.held.foldl (fun s r => s.deliver h n r) (s.mRing h n fun r => { r with held := [] })

/-- EVENT_DELIVERY (R527): the oldest record goes to every event ring that wants it; the half in charge keeps it as a log point of class 0x05, or counts and
discards it while the flash buffer stands above 56 MiB (R333).
(DESIGN CHOICE, unsafe: log 64. DESIGN CHOICE, unsafe: log 66.) -/
def execEventDelivery (h : Half) (s : State) : Out :=
  let s := (rangeFrom 32 32).foldl (flushHeld h) s
  match (s.hf h).mbx.events with
  | [] => .next s
  | r :: t =>
    let s := s.mMbx h fun m => { m with events := t }
    let s := ((rangeFrom 32 32).filter (s.evWanted h r)).foldl (fun s n => s.deliver h n r) s
    .next (if s.charge = some h ∧ r.code ≠ 0x0201 then
      if s.logsHeld h then s.mh h fun x => { x with thm := { x.thm with logDrops := x.thm.logDrops + 1 } } else s.ownerWrite (0x00A00000 + r.seq % 2 ^ 20) 14 6 (.bytes r.bytes) else s)

end Sys2Proof.Machine
end

