-- ==== Sys2Proof/Machine/Resets.lean ====
section
/-!
DEFINITION. The reset domains (R157): a half's reset, RESET_N, POR, and what the thermal rules do to the halves (R330-R332, R340).
-/

namespace Sys2Proof.Machine

/-! ### One half -/

/-- The register blocks each half has. -/
def halfBlks : List Blk := [.tck, .mbx, .twn, .nlk, .cln, .pst, .cnp, .thm, .veh, .upd, .loc]

/-- A register key belongs to a block of half `h`. -/
def keyOfHalf (h : Half) (k : Nat) : Bool := halfBlks.any fun b => blkKey b h == keyBlk k

/-- The cause of a half's last start (R642). -/
def State.setCause (s : State) (h : Half) (cause : Nat) : State :=
  match h with
  | .A => s.srf .pwr .A 0x0C 15 8 cause
  | .B => s.srf .pwr .A 0x0C 7 0 cause

/-- The points a half finds in its flash (R39, R40): class 0x04 as it was last saved, the other flash-kept classes as they were last written. -/
def flashPoints (x : HalfSt) : Tab (Option Slot) :=
  let kept := x.pts.filter fun e => match classOf e.1 with | some c => flashKept c && c != 4 | none => false
  (x.saved.foldl (fun t e => put none t e.1 e.2) kept).map fun e =>
    (e.1, e.2.map fun p => { p with restoring := true, mirrorPending := false })

/-- The boots of half `h` begin again. -/
def State.bootAgain (s : State) (h : Half) : State :=
  let recs := [hbit h, 4 + hbit h].foldl (fun t k => Machine.upd {} t k BootRec.fresh) s.upd.recs
  { s with upd := { s.upd with recs := recs, stage := put 0 s.upd.stage (hbit h) 0, stg := if s.charge = some h then none else s.upd.stg } }

/-- What half `h` holds as its boot ROM starts (R146, R154, R157, R160): its base claim, what its flash and the island keep, UNHEALTHY with CAUSE 0x8A; a half held
in reset stays so.
(DESIGN CHOICE, unsafe: log 1.) -/
def freshHalf (h : Half) (x : HalfSt) : HalfSt :=
  { pts := flashPoints x, saved := x.saved, part := { flash := x.part.flash },
    twn := { off := x.twn.held, held := x.twn.held, claim := baseClaim h, uhTimes := x.twn.uhTimes, gen := x.twn.gen, img := x.twn.img,
             cause := if x.twn.held then 0x8B else 0x8A } }

/-- The vehicle sessions as half `h` loses its memory (R157, R355): those of the half in charge stand as its other half mirrors them; a half not in charge loses its
mirrors; with no other half running nothing is left.
(DESIGN CHOICE, unsafe: log 59.) -/
def State.vehReset (s : State) (h : Half) : State :=
  if (s.hf (other h)).twn.off then { s with veh := [], vehG := { s.vehG with late := [] } }
  else if s.charge = some h then s
  else { s with veh := s.veh.map fun e => (e.1, { e.2 with mir := none, kept := [] }) }

/-- The registers, shadows and commit blocks of half `h` go back to their reset values. -/
def State.dropBlocks (s : State) (h : Half) : State :=
  { s with regs := s.regs.filter (fun e => !keyOfHalf h e.1), shadow := s.shadow.filter (fun e => !keyOfHalf h e.1),
           blocks := s.blocks.filter fun e => !halfBlks.any fun b => blkKey b h == e.1 }

/-- What half `h` asked of the referee lapses. -/
def State.dropReqs (s : State) (h : Half) : State := { s with ref := { s.ref with reqs := s.ref.reqs.filter fun r => r.half != h } }

/-- Half `h` resets (R132, R157, R511, R516): the token is released where it held it, its sessions end, its registers and its memory are reset.
(DEDUCED, unsafe: log 79.) -/
def State.resetHalf (s : State) (h : Half) (cause : Nat) : State :=
  let s := (s.bootAgain h).vehReset h
  let s := if s.ref.token = some h then s.releaseToken h 0x16 else (if s.ho.isSome then s.abandonHandover else s).stepDown h 0x15
  let s := (((List.range 32).foldl (fun s n => s.endSession h n) s).dropBlocks h).dropReqs h
  (s.setHf h (freshHalf h (s.hf h))).setCause h cause

/-- Half `h` loses its power, or stays in reset. -/
def State.haltHalf (s : State) (h : Half) : State := (s.resetHalf h 0).mTwn h fun t => { t with off := true }

/-- HALF_RESET (R154, R157). -/
def execHalfReset (h : Half) (s : State) : Out := .next (s.resetHalf h 2)

/-- UNHEALTHY_RESET_TIMEOUT (R154): the third time within an hour, as the half counted when it became UNHEALTHY, it stays held in reset. -/
def execUnhealthyResetTimeout (h : Half) (s : State) : Out :=
  let t := (s.hf h).twn
  match t.resetDue with
  | none => .next s
  | some d =>
    if s.tick h < d ∨ !t.unhealthy then .next s
    else
      let third := decide (3 ≤ t.uhTimes.length)
      let s := s.resetHalf h 2
      .next (if third then s.mTwn h fun t => { t with held := true, off := true, cause := 0x8B } else s)

/-- TWN_RELEASE (R154, R521): the half leaves reset, and the count starts again. -/
def execTwnRelease (o : Org) (t : Nat) (s : State) : Out :=
  .next (s.verb o 0x0302 [rInstaller, rVendor] fun s x _ =>
    match halfOf t with
    | none => s.complete o x 0x0302 stRange true []
    | some h =>
      if !(s.hf h).twn.held then s.complete o x 0x0302 stRange true []
      else
        (s.mTwn h fun t => { t with held := false, off := false, uhTimes := [], cause := 0x8A }).complete o x 0x0302 stOk true [])

/-! ### The shared I/O domain, RESET_N and POR -/

/-- The CAN controllers, GPIO and the root mesh at their reset values, the load switches as R574 says (R157). -/
def State.resetShared (s : State) : State :=
  let gone (k : Nat) : Bool := [Blk.can, Blk.gpio, Blk.rms].any fun b => blkKey b .A == keyBlk k
  let l := s.lswResetN
  { l with regs := l.regs.filter (fun e => !gone e.1), cans := [], mesh := {}, pll := {}, lkt := { l.lkt with starting := 2 } }

/-- Both halves and the shared I/O domain reset (R157, R634); the halves then boot.
(DEDUCED, unsafe: log 79.) -/
def State.resetN (s : State) (cause : Nat) : State :=
  let s := ((s.resetHalf .A cause).resetHalf .B cause).resetShared
  { s with veh := [], vehG := { s.vehG with late := [] } }

/-- POR of everything that runs from the rail or VHOLD (R157, R633): the islands start anew, the pulse outputs are cleared, every load switch is off; the battery
domain, the MRAM and the remotes stay.
(DEDUCED, unsafe: log 79.) -/
def State.por (s : State) : State :=
  let s := (s.resetN 0).islandStart
  let gone (k : Nat) : Bool := [Blk.lsw, Blk.pwr].any fun b => blkKey b .A == keyBlk k
  let s := { s with regs := s.regs.filter (fun e => !gone e.1), lsw := {}, ref := { s.ref with token := none, reqs := [], rel := none, relNoSucc := false, ports := 0, freeSig := none } }
  let s := s.mMet fun x => { x with pulses := [], warm := 0, battery := 0 }
  let s := s.mBil fun b => { b with starting := true, ldsp := { chk := s.now + 200000 } }
  { s with therm := { s.therm with stop := none, doer := none, down := false, release := false } }

/-! ### Thermal shutdown (R330-R332, R340) -/

/-- The shutdown record (R331).
(DESIGN CHOICE, unsafe: log 60.) -/
def State.shutRecord (s : State) (cause : Nat) (h : Half) (start : Nat) (pkg : Int) : State :=
  let recent := (s.therm.recs.filter fun r => decide (s.rtc < r.rtc + 3600 * 32768)).length
  let r : ShutRec :=
    { number := (s.therm.count + 1) % 2 ^ 32, tick := start, rtc := s.rtc, cause := cause, half := hbit h, tjA := s.halfA.thm.tj, tjB := s.halfB.thm.tj, pkg := pkg,
      powers := (s.hf h).thm.powers, drainMs := (s.now - start) / 20, inHour := recent + 1 }
  let l := s.therm.recs ++ [r]
  { s with therm := { s.therm with recs := l.drop (l.length - 16), count := (s.therm.count + 1) % 2 ^ 32, pkg := pkg, stop := none, doer := none } }

/-- Both halves stop and power down (R330). -/
def State.haltBoth (s : State) : State :=
  let s := (s.haltHalf .A).haltHalf .B
  { s with therm := { s.therm with down := true } }

/-- THERMAL_POWER_DOWN (R330, R331): every output current below 5 A on 4 consecutive uplinks, or 25 ms.
(DESIGN CHOICE, unsafe: log 60.) -/
def execThermalPowerDown (pkg : Int) (s : State) : Out :=
  match s.therm.stop with
  | none => .next s
  | some (t, h) =>
    let low := match s.charge with | some x => decide (4 ≤ (s.hf x).cnp.stopLow) | none => true
    if low || decide (t + 500 ≤ s.now) then .next (s.shutRecord 1 h t pkg).haltBoth else .next s

/-- THERMAL_EMERGENCY_POWER_DOWN (R330): Tj has reached 130 degC, or the half that carries out the stop is lost.
(DESIGN CHOICE, unsafe: log 60.) -/
def execThermalEmergencyPowerDown (pkg : Int) (s : State) : Out :=
  let hotA := decide (13000 ≤ s.halfA.thm.tj)
  let hot := hotA || decide (13000 ≤ s.halfB.thm.tj)
  if hot then
    let t := match s.therm.stop with | some (t, _) => t | none => s.now
    .next (s.shutRecord 2 (if hotA then .A else .B) t pkg).haltBoth
  else
    match s.therm.stop with
    | some (t, h) => if s.therm.doer.isSome && s.charge != s.therm.doer then .next (s.shutRecord 3 h t pkg).haltBoth else .next s
    | none => .next s

/-- THERMAL_RESTART (R332): below 95 degC for 60 s both halves restart as after RESET_N, or in THERMAL_HOLD after more than three shutdowns in an hour; a
THM_RELEASE accepted ends THERMAL_HOLD in the same way.
(DESIGN CHOICE, unsafe: log 60. DESIGN CHOICE, unsafe: log 80.) -/
def execThermalRestart (pkg : Int) (s : State) : Out :=
  let s := { s with therm := { s.therm with pkg := pkg } }
  if s.therm.release then .next ({ s with therm := { s.therm with release := false } }.resetN 5)
  else if 9500 ≤ pkg ∨ !s.therm.down then .next s
  else
    match s.therm.recs.getLast? with
    | none => .next s
    | some r =>
      let s := ({ s with therm := { s.therm with down := false } } : State).resetN 5
      .next (if r.inHour ≤ 3 then s else s.mBoth fun x => { x with thm := { x.thm with hold := true } })

/-- A verb of class 0x08: at the half in charge, or in THERMAL_HOLD, where no half is, at the half that received it.
(DESIGN CHOICE, unsafe: log 80.) -/
def State.thmVerb (s : State) (o : Org) (opc : Nat) (roles : List Nat) (body : State → Half → Nat → State) : State :=
  if (s.hf o.half).thm.hold then s.verbHere o opc roles fun s r => body s o.half r else s.verb o opc roles body

/-- THM_RELEASE (R332, R340, R341).
(DESIGN CHOICE, unsafe: log 80.) -/
def execThmRelease (o : Org) (s : State) : Out :=
  .next (s.thmVerb o 0x0801 [rOperator, rInstaller, rVendor] fun s x _ =>
    if !(s.hf x).thm.hold then s.complete o x 0x0801 0x0801 true []
    else if 9500 ≤ s.therm.pkg then s.complete o x 0x0801 0x0802 true []
    else ({ s with therm := { s.therm with release := true } }).complete o x 0x0801 stOk true [])

/-- The 64 bytes of a shutdown record (R331). -/
def ShutRec.bytes (r : ShutRec) : List Nat :=
  let b := [0x54, 0x53, 0x44, 0x4E] ++ le 4 r.number ++ le 8 r.tick ++ le 8 r.rtc ++ [r.cause, r.half] ++ leInt 2 r.tjA ++ leInt 2 r.tjB ++ leInt 2 r.pkg
    ++ (padTo 6 r.powers).flatMap (le 2) ++ le 2 r.drainMs ++ [min 255 r.inHour, 0] ++ List.replicate 12 0
  b ++ le 4 (crc32 b)

/-- THM_SHUTDOWN_READ (R340): newest first. -/
def execThmShutdownRead (o : Org) (first count : Nat) (s : State) : Out :=
  .next (s.thmVerb o 0x0802 ((List.range 6).filter fun r => (classRd 5).testBit r) fun s x _ =>
    if 15 < first ∨ count < 1 ∨ 16 < count then s.complete o x 0x0802 stRange true []
    else s.complete o x 0x0802 stOk true (((s.therm.recs.reverse.drop first).take count).flatMap ShutRec.bytes))

end Sys2Proof.Machine
end

