-- ==== Sys2Proof/Machine/Update.lean ====
section
/-!
DEFINITION. Boot stages, images and their checks, staging, remotes, activation, recovery (R607-R626).
-/

namespace Sys2Proof.Machine

/-! ### Boot (R607, R608) -/

/-- The half enters its recovery ROM (R622): no tick service, no claim, link ports disabled, rings not served. -/
def State.enterRecovery (s : State) (h : Half) : State :=
  let s := (s.resetHalf h 6).mTwn h fun t => { t with recov := true, held := t.held }
  match h with
  | .A => s.mUpd fun u => { u with recovA := {} }
  | .B => s.mUpd fun u => { u with recovB := {} }

/-- An activation that its part has left ends (R617); `new` is the check value of the image it leaves (R621). -/
def State.revertAct (s : State) (new : Nat) : State :=
  match s.upd.act with
  | none => s
  | some a =>
    let s := s.mUpd fun u => { u with act := none }
    let s := if a.part = 3 then s.sealedLog 0x11 0 0 new a.old else s
    s.complete a.org (s.charge.getD a.org.half) 0x0E04 0x0E0B true []

/-- The parts an activation concerns, as boot records. -/
def actRecs (part : Nat) : List Nat := if part = 0 then [0, 1] else if part = 1 then [4, 5] else [part]

/-- The TRIAL bank of a record goes back (R608). -/
def State.revertBank (s : State) (k : Nat) : State :=
  match (s.brec k).find 2 with
  | none => s
  | some i =>
    let new := ((s.brec k).bank i).img.check
    let s := s.bankTo k i 4
    match s.upd.act with
    | some a => if k ∈ actRecs a.part then s.revertAct new else s
    | none => s

/-- BOOT_BANK_SELECT (R608): the TRIAL bank while TRIES is below 2, else the ACTIVE bank; a half without a bank that verifies enters the recovery ROM. -/
def execBootBankSelect (k : Nat) (s : State) : Out :=
  let r := s.brec k
  let ok (i : Nat) : Bool := !(r.bank i).bad
  if 6 ≤ k ∨ r.run.isSome ∨ (k % 4 < 2 ∧ (s.hf (if k % 4 = 0 then .A else .B)).twn.off) then .next s
  else
    match (r.find 2).filter fun i => ok i && decide (r.tries < 2) with
    | some i => .next (s.mRec k fun r => { r with tries := r.tries + 1, run := some i })
    | none =>
      let s := s.revertBank k
      match (r.find 3).filter ok with
      | some i => .next (s.mRec k fun r => { r with run := some i, tries := 0 })
      | none => if k % 4 < 2 then .next (s.enterRecovery (if k % 4 = 0 then .A else .B)) else .next s

/-- The boot record whose bank a stage starts. -/
def stageRec (part stage : Nat) : Option Nat :=
  if part < 2 then (if stage = 1 then some (4 + part) else if stage = 2 then some part else none)
  else if stage = 2 then some part else none

/-- A measurement record (R455). -/
def measRec (part stage : Nat) (i : ImgInfo) (digest : List Nat) : List Nat :=
  [part, stage, i.line, i.release] ++ le 4 i.build ++ padTo 48 digest ++ List.replicate 8 0

/-- BOOT_STAGE (R607): the image is verified, measured, its measurement recorded, then it starts; an image that fails does not start. A bank that took its image
by staging is measured as SHA-384 over that image; `digest` is the measurement of any other.
(DESIGN CHOICE, unsafe: log 120.) -/
def execBootStage (part stage : Nat) (ok : Bool) (digest : List Nat) (s : State) : Out :=
  let h : Half := if part = 0 then .A else .B
  let isHalf := decide (part < 2)
  let order := if isHalf then stage == look 0 s.upd.stage part + 1 else stage == 2
  if 4 ≤ part || !decide (1 ≤ stage ∧ stage ≤ 3) || !order || (isHalf && ((s.hf h).twn.off || (s.hf h).twn.recov)) then .next s
  else
    let started (s : State) (img : ImgInfo) : State :=
      let s := s.mUpd fun u => { u with stage := put 0 u.stage part stage, meas := put [] u.meas (4 * part + stage) (measRec part stage img (if img.digest.isEmpty then digest else img.digest)) }
      if isHalf && stage == 2 then s.mTwn h fun t => { t with booted := true } else s
    match stageRec part stage with
    | none => if ok then .next (started s {}) else .next s
    | some k =>
      match (s.brec k).run with
      | none => .next s
      | some i =>
        if ok then .next (started s ((s.brec k).bank i).img)
        else .next (s.mRec k fun r => { (r.setBank i { r.bank i with bad := true }) with run := none })

/-! ### Images (R609, R610) -/

/-- All of these bytes are 0. -/
def zeroAt (b : List Nat) (off len : Nat) : Bool := (bytesAt b off len).all (· == 0)

/-- Step 1 of R610. -/
def hdrOk (b : List Nat) : Bool :=
  decide (3712 ≤ b.length) && bytesAt b 0 4 == [0x56, 0x58, 0x55, 0x50] && numAt b 4 2 == 1 && decide (numAt b 7 1 < 2) && zeroAt b 10 2 && zeroAt b 106 2
    && zeroAt b 120 4 && zeroAt b 124 4 && decide (numAt b 128 1 < 4) && zeroAt b 129 3 && zeroAt b 136 120 && zeroAt b 3661 51
    && decide (1 ≤ numAt b 20 4 ∧ numAt b 20 4 ≤ 536870912) && (numAt b 6 1 == 3 || zeroAt b 72 32) && ((numAt b 128 1).testBit 1 || zeroAt b 352 3309)

/-- What a header says (R609). -/
def hdrInfo (b : List Nat) : ImgInfo :=
  { target := numAt b 6 1, line := numAt b 8 1, release := numAt b 9 1, build := numAt b 12 4, svn := numAt b 16 4, len := numAt b 20 4, imgid := numAt b 24 4,
    check := numAt b 72 4, ifrev := numAt b 104 2, compat := (List.range 4).map fun i => (numAt b (108 + 4 * i) 2, numAt b (110 + 4 * i) 2),
    signer := numAt b 132 4 }

/-- An image is for a remote. -/
def remoteTarget (t : Nat) : Bool := t == 0x10 || t == 0x11

/-- Step 2 (R610, R624): entries 2 and 3, or the signer accepted for remote images. -/
def State.sigGood (s : State) (b : List Nat) (ecOk pqOk : Bool) : Bool :=
  let i := hdrInfo b
  let sigs := numAt b 128 1
  if i.signer = 0 then sigs == 3 && ecOk && pqOk && s.keyUsable 0x4002 && s.keyUsable 0x4003
  else remoteTarget i.target && i.signer == (s.rg .upd (s.charge.getD .A) 4).toNat && s.keyUsable i.signer && sigs.testBit 0 && ecOk

/-- The boot records an image's target installs at. -/
def targetRecs (t : Nat) : List Nat := if t = 0 then [4, 5] else if t = 1 then [0, 1] else if t = 2 then [2] else if t = 3 then [3] else []

/-- The class of a part in COMPAT (R609, R615): 0 half firmware, 1 safety island, 2 metrology island. -/
def partClass (k : Nat) : Nat := if k < 2 then 0 else k - 1

/-- A set of images is compatible (R615); `im` gives the image of each part. -/
def compatible (im : Nat → ImgInfo) : Bool :=
  (List.range 4).all fun i => (List.range 4).all fun j =>
    let c := (im i).compat.getD (partClass j) (0, 0)
    i == j || (decide (c.1 ≤ (im j).ifrev) && decide ((im j).ifrev ≤ c.2))

/-- The set in force with an image in place of some parts'. -/
def State.withImage (s : State) (ks : List Nat) (i : ImgInfo) (k : Nat) : ImgInfo := if k ∈ ks then i else (s.brec k).force

/-- The set stays compatible with the image in place of its part's; for half firmware while one half runs it, and while both do (R616). -/
def State.compatWith (s : State) (t : Nat) (i : ImgInfo) : Bool :=
  if t = 1 then compatible (s.withImage [0] i) && compatible (s.withImage [1] i) && compatible (s.withImage [0, 1] i)
  else if t = 2 ∨ t = 3 then compatible (s.withImage [t] i)
  else true

/-- Room for an image (R607, R612). -/
def State.roomFor (s : State) (i : ImgInfo) : Bool :=
  if remoteTarget i.target then
    let kept := s.upd.store.filter fun r => !(r.img.target == i.target && r.img.signer == i.signer)
    decide ((kept.map fun r => r.bytes.length).sum + 3712 + i.len ≤ 256 * 1048576)
  else
    (targetRecs i.target).all (fun k => (s.brec k).target.isSome) && (i.target != 2 || decide (3712 + i.len ≤ 192 * 1024))
      && (i.target != 3 || decide (3712 + i.len ≤ 512 * 1024))

/-- The SVN floor of an image's part. -/
def State.svnFloor (s : State) (t : Nat) : Nat := ((targetRecs t).map fun k => (s.brec k).floor).foldl max 0

/-- Steps 1 to 7 of R610 at the half in charge; 0: the image passes. -/
def State.checkImage (s : State) (x : Half) (role : Nat) (b : List Nat) (ecOk pqOk : Bool) : Nat :=
  let i := hdrInfo b
  let isSealed := (numAt b 7 1).testBit 0
  if !hdrOk b then 0x0E01
  else if !s.sigGood b ecOk pqOk then 0x0E02
  else if !(decide (i.target < 4) || remoteTarget i.target) || i.line != 3 then 0x0E03
  else if i.svn < s.svnFloor i.target then 0x0E04
  else if isSealed != (i.target == 3) then 0x0E01
  else if isSealed != (role == 4) then stRole
  else if !s.compatWith i.target i then 0x0E05
  else if !s.roomFor i then 0x0E07
  else if (s.hf x).thm.flashHold && (decide (i.target < 2) || remoteTarget i.target) then stTempWriteHeld
  else 0

/-! ### Staging (R611-R613, R625) -/

def updRoles : List Nat := [rInstaller, rLegal, rVendor]

/-- A bank is emptied where an image is on its way into it. -/
def State.clearTarget (s : State) (k : Nat) : State :=
  match (s.brec k).target with
  | none => s
  | some i => if ((s.brec k).bank i).st = 0 then s else s.bankTo k i 0

/-- UPD_BEGIN.
(DESIGN CHOICE, safe: log 6. DESIGN CHOICE, unsafe: log 82.) -/
def execUpdBegin (o : Org) (hdr : List Nat) (ecOk pqOk : Bool) (s : State) : Out :=
  .next (s.verb o 0x0E01 updRoles fun s x role =>
    let i := hdrInfo hdr
    let st := s.checkImage x role hdr ecOk pqOk
    if st ≠ 0 then s.complete o x 0x0E01 st true []
    else if i.target < 2 && !s.twinUp x then s.complete o x 0x0E01 0x0E08 true []
    else
      let s := (targetRecs i.target).foldl State.clearTarget s
      (s.mUpd fun u => { u with stg := some { img := i, hdr := hdr.take 3712 } }).complete o x 0x0E01 stOk true [])

/-- UPD_DATA: the image's bytes in order.
(DESIGN CHOICE, unsafe: log 82.) -/
def execUpdData (o : Org) (off : Nat) (data : List Nat) (s : State) : Out :=
  .next (s.verb o 0x0E02 updRoles fun s x role =>
    match s.upd.stg with
    | none => s.complete o x 0x0E02 0x0E09 true []
    | some g =>
      if (role == 4) != (g.img.target == 3) then s.complete o x 0x0E02 stRole true []
      else if g.img.target < 2 && !s.twinUp x then s.complete o x 0x0E02 0x0E08 true []
      else if off ≠ 3712 + g.data.length ∨ g.img.len < g.data.length + data.length then s.complete o x 0x0E02 stRange true []
      else if (s.hf x).thm.flashHold && g.img.target != 2 && g.img.target != 3 then s.complete o x 0x0E02 stTempWriteHeld true []
      else (s.mUpd fun u => { u with stg := some { g with data := g.data ++ data } }).complete o x 0x0E02 stOk true [])

/-- An image that has passed step 8 is STAGED (R608, R612).
(DESIGN CHOICE, unsafe: log 120.) -/
def State.stageInto (s : State) (i : ImgInfo) (k : Nat) : State :=
  match (s.brec k).target with
  | none => s
  | some b => (s.mRec k fun r => r.setBank b { st := 1, img := i }).bankEv k b

/-- The records a staging reaches: the half in charge's own, the other half's and the islands' as the forwarding mask names them. -/
def stageRecs (t mask : Nat) (x : Half) : List Nat :=
  if t < 2 then (targetRecs t).filter fun k => k % 4 == hbit x || mask.testBit 0
  else if mask.testBit 1 then targetRecs t else []

/-- Step 8 (R610): the payload is whole, its SHA-384 is PAYLOAD_HASH and, for TARGET 0x03, its SHA-256 is CHECK. -/
def payloadOk (hdr data : List Nat) : Bool :=
  data.length == (hdrInfo hdr).len && sha384 data == bytesAt hdr 24 48 && ((hdrInfo hdr).target != 3 || sha256 data == bytesAt hdr 72 32)

/-- A receiver named in the forwarding mask cannot write its flash (R610, step 7; R333). -/
def receiverHeld (s : State) (t mask : Nat) (x : Half) : Bool := decide (t < 2) && mask.testBit 0 && (s.hf (other x)).thm.flashHold

/-- UPD_END: step 8 at every receiver; the first failure is reported, a peer's as the operand `fail` says.
(DESIGN CHOICE, unsafe: log 82.) -/
def execUpdEnd (o : Org) (mask fail : Nat) (s : State) : Out :=
  .next (s.verb o 0x0E03 updRoles fun s x role =>
    match s.upd.stg with
    | none => s.complete o x 0x0E03 0x0E09 true []
    | some g =>
      if (role == 4) != (g.img.target == 3) then s.complete o x 0x0E03 stRole true []
      else if 64 ≤ mask then s.complete o x 0x0E03 stRange true []
      else if g.img.target < 2 && !s.twinUp x then s.complete o x 0x0E03 0x0E08 true []
      else
        let s := (s.complete o x 0x0E03 stPending false []).mUpd fun u => { u with stg := none }
        if !payloadOk g.hdr g.data then s.complete o x 0x0E03 0x0E06 true []
        else
          let img := { g.img with digest := sha384 (g.hdr ++ g.data) }
          let held := receiverHeld s img.target mask x
          let s :=
            if remoteTarget img.target then
              let kept := s.upd.store.filter fun r => !(r.img.target == img.target && r.img.signer == img.signer)
              s.mUpd fun u => { u with store := kept ++ [{ img := img, bytes := g.hdr ++ g.data }] }
            else (stageRecs img.target (if held then mask / 2 * 2 else mask) x).foldl (fun s k => s.stageInto img k) s
          s.complete o x 0x0E03 (if held then stTempWriteHeld else if fail = 0 then stOk else fail) true [])

/-! ### Remotes (R614, R625) -/

/-- The messages that carry an image from an offset on (R97, R614).
(DESIGN CHOICE, unsafe: log 83.) -/
def State.sendImage (s : State) (h : Half) (p : Nat) (r : RemImg) (off : Nat) : State :=
  let n := (r.bytes.length - off + 65023) / 65024
  (List.range n).foldl (fun s i => s.sendMsg h p 0x41 (le 4 r.img.imgid ++ le 4 (off + 65024 * i) ++ (r.bytes.drop (off + 65024 * i)).take 65024)) s

/-- UPDACT (R614). -/
def updactMsg (imgid at_ : Nat) : List Nat := [8, 0, 0, 0] ++ le 4 imgid ++ le 8 at_

/-- The ports a mask of 80 bits names. -/
def maskPorts (mask : Nat) : List Nat := (List.range 80).filter fun p => mask.testBit p

/-- UPD_REMOTE. -/
def execUpdRemote (o : Org) (target mask at_ : Nat) (s : State) : Out :=
  .next (s.verb o 0x0E06 [rInstaller, rVendor] fun s x _ =>
    if !remoteTarget target ∨ 2 ^ 80 ≤ mask ∨ mask = 0 ∨ (at_ ≠ 0 ∧ at_ < s.tick x) then s.complete o x 0x0E06 stRange true []
    else
      match s.upd.store.reverse.find? fun r => r.img.target == target with
      | none => s.complete o x 0x0E06 0x0E09 true []
      | some r =>
        match (maskPorts mask).filterMap (s.sendStatus [x]) with
        | st :: _ => s.complete o x 0x0E06 st true []
        | [] =>
        let s := s.complete o x 0x0E06 stPending false []
        (maskPorts mask).foldl (fun s p =>
          (s.sendImage x p r 0).mUpd fun u =>
            { u with tx := put none u.tx p (some { imgid := r.img.imgid, target := target, by_ := x, at_ := at_, org := some o }) }) s)

/-- The transfers of one command. -/
def State.txOf (s : State) (o : Org) : List (Nat × RemTx) :=
  s.upd.tx.filterMap fun e => match e.2 with
    | some t => (match t.org with | some q => if sameCmd q o then some (e.1, t) else none | none => none)
    | none => none

/-- UPD_REMOTE ends once every remote it names has reported (R625), or one refuses. -/
def State.remoteDone (s : State) (x : Half) (o : Org) (refused : Option Nat) : State :=
  let l := s.txOf o
  let stop (s : State) : State :=
    s.mUpd fun u => { u with tx := u.tx.map fun e => (e.1, e.2.map fun t => if l.any (fun q => q.1 == e.1) then { t with org := none } else t) }
  match refused with
  | some st => (stop s).complete o x 0x0E06 st true []
  | none =>
    if l.all fun e => decide (e.2.st = 4 ∨ (e.2.at_ = 0 ∧ e.2.st = 2)) then (stop s).complete o x 0x0E06 stOk true [] else s

/-- What a report of a remote does at the half in charge `x` (R614, R625). -/
def State.updstat (s : State) (x : Half) (p st imgid next status : Nat) : State :=
  match look none s.upd.tx p with
  | none => s
  | some t =>
    if t.imgid ≠ imgid then s
    else
      let img := s.upd.store.find? fun r => r.img.imgid == imgid
      let s := match img with
        | some r => if t.by_ ≠ x ∧ st = 1 then s.sendImage x p r next else s
        | none => s
      let tell := st == 2 && t.at_ != 0 && !t.told
      let s := if tell then s.sendMsg x p 0x43 (updactMsg imgid t.at_) else s
      let s := s.mUpd fun u => { u with tx := put none u.tx p (some { t with st := st, next := next, by_ := x, told := t.told || tell }) }
      match t.org with
      | some o => s.remoteDone x o (if st = 3 then some status else none)
      | none => s

/-- UPDSTAT: what a remote reports in its oldest UPDSTAT message at the half in charge; a new half in charge resumes at NEXT; a staged image with an AT
gets UPDACT.
(DESIGN CHOICE, unsafe: log 83.) -/
def execUpdstat (p : Nat) (s : State) : Out :=
  match s.charge.bind fun x => (s.takeMsg x p 0x43 fun m => m.headD 0 == 7).map fun r => (x, r) with
  | none => .next s
  | some (x, m, s) => .next (s.updstat x p (numAt m 1 1) (numAt m 4 4) (numAt m 8 4) (numAt m 12 2))

/-- UPDACT_PRELOSS: the remote is treated as lost for allocation (R77) until it starts its new image, whatever its uplink. -/
def execUpdactPreloss (p : Nat) (s : State) : Out :=
  match look none s.upd.tx p with
  | none => .next s
  | some t =>
    if t.told && decide (t.at_ ≤ s.now + 20000) then
      .next (s.mBoth fun x =>
        let lost := if p ∈ x.cnp.lost then x.cnp.lost else x.cnp.lost ++ [p]
        let pre := if p ∈ x.cnp.pre then x.cnp.pre else x.cnp.pre ++ [p]
        { x with cnp := { x.cnp with lost := lost, pre := pre } })
    else .next s

/-- UPDACT: the remote starts its new image, and behaves as after its own reset (R110).
(DESIGN CHOICE, unsafe: log 83.) -/
def execUpdact (p : Nat) (s : State) : Out :=
  match look none s.upd.tx p with
  | none => .next s
  | some t => if t.told && decide (t.at_ ≤ s.now) then
      .next (({ s with rems := del s.rems p, cabs := del s.cabs p } : State).mBoth fun x => { x with cnp := { x.cnp with pre := x.cnp.pre.filter (· ≠ p) } })
    else .next s

/-! ### Activation (R615-R621, R625) -/

/-- A matrix change is in progress (R299). -/
def State.changing (s : State) (x : Half) : Bool := !(s.hf x).cnp.chgs.isEmpty

/-- The staged image of a record. -/
def State.stagedImg (s : State) (k : Nat) : Option ImgInfo := ((s.brec k).find 1).map fun i => ((s.brec k).bank i).img

/-- The STAGED bank becomes TRIAL. -/
def State.toTrial (s : State) (k : Nat) : State :=
  match (s.brec k).find 1 with
  | none => s
  | some i => (s.bankTo k i 2).mRec k fun r => { r with tries := 0 }

/-- A half resets into its staged bank (R618, R619). -/
def State.resetInto (s : State) (part : Nat) (h : Half) : State := (s.toTrial (if part = 0 then hbit h else 4 + hbit h)).resetHalf h 3

/-- UPD_ACTIVATE.
(DESIGN CHOICE, unsafe: log 84.) -/
def execUpdActivate (o : Org) (part flags at_ : Nat) (s : State) : Out :=
  .next (s.verb o 0x0E04 updRoles fun s x role =>
    let ks := actRecs part
    let twin := s.twinUp x && (s.hf (other x)).twn.service
    let own := if part < 2 then (if twin then ks else ks.filter fun k => k % 4 == hbit x) else ks
    let img := (s.stagedImg (own.headD 0)).getD {}
    let begin_ (s : State) (st : Nat) (old : Nat) : State :=
      (s.complete o x 0x0E04 stPending false []).mUpd fun u =>
        { u with act := some { org := o, part := part, st := st, first := other x, start := s.now, at_ := at_, clean := s.now, old := old } }
    let trial := (List.range 6).any fun k => (decide (k ∉ ks)) && ((s.brec k).find 2).isSome
    if 3 < part then s.complete o x 0x0E04 stRange true []
    else if (role == 4) != (part == 3) then s.complete o x 0x0E04 stRole true []
    else if trial || s.upd.act.isSome then s.complete o x 0x0E04 0x0E08 true []
    else if own.any fun k => (s.stagedImg k).isNone then s.complete o x 0x0E04 0x0E09 true []
    else if !s.compatWith (match part with | 0 => 1 | 1 => 0 | n => n) img then s.complete o x 0x0E04 0x0E05 true []
    else if s.changing x then s.complete o x 0x0E04 0x0E08 true []
    else
      match part with
      | 2 =>
        if !((List.range 8).all fun z => let n := (s.zone z).st; n == 0 || n == 3) then s.complete o x 0x0E04 stSafetyInhibit true []
        else ((begin_ s 4 0).toTrial 2).islandStart
      | 3 =>
        if 1024 ≤ s.met.mlog.recs.length then s.complete o x 0x0E04 0x0A01 true []
        else
          let old := (s.brec 3).force.check
          let s := ((begin_ s 4 old).toTrial 3).sealedLog 0x11 0 0 old img.check
          s.islandCpuRestart
      | _ =>
        if twin then
          if at_ ≠ 0 then s.complete o x 0x0E04 stRange true []
          else (begin_ s 1 0).resetInto part (other x)
        else if at_ < s.tick x + 40000 then s.complete o x 0x0E04 stRange true []
        else if !flags.testBit 0 && (List.range 48).any (fun k => let n := (s.veh1 k).c.st; decide (1 ≤ n ∧ n ≤ 9)) then s.complete o x 0x0E04 0x0E0A true []
        else begin_ s 5 0)

/-- The steps of R618 that follow from what the halves do: once the first half has rejoined it takes charge, then the second half resets; once that has rejoined
the trial begins. A tick in which a half is UNHEALTHY, or a digest comparison has not matched, starts the clean time again (R617).
(DESIGN CHOICE, unsafe: log 84.) -/
def State.actTick (s : State) : State :=
  match s.upd.act with
  | none => s
  | some a =>
    let set (s : State) (f : ActS → ActS) : State := s.mUpd fun u => { u with act := u.act.map f }
    let serving (h : Half) : Bool := (s.hf h).twn.service && !(s.hf h).twn.unhealthy
    match a.st with
    | 1 => if serving a.first then set s fun a => { a with st := 2 } else s
    | 2 =>
      if s.charge = some a.first then (set s fun a => { a with st := 3, start := s.now }).resetInto a.part (other a.first)
      else if s.ho.isNone && s.charge.isSome && (s.raiseRefusal a.first true true).isNone then
        { s with ho := some { dst := a.first, tick := s.now, phase := 0, org := none } }.mTwn a.first fun t => { t with hoReq := true }
      else s
    | 3 => if serving (other a.first) then set s fun a => { a with st := 4, clean := s.now } else s
    | 4 =>
      if a.part < 2 then
        let good (h : Half) : Bool := serving h && (decide (0 < (s.hf h).twn.digMatch) || !s.twinUp h)
        let bad := !(if s.twinUp .A then good .A && good .B else good .A || good .B)
        if bad then set s fun a => { a with clean := s.now } else s
      else s
    | _ => s

/-- TRIAL_COMMIT (R617): the image becomes ACTIVE, the former bank STAGED, the SVN floor rises. -/
def execTrialCommit (s : State) : Out :=
  match s.upd.act with
  | none => .next s
  | some a =>
    let secs := s.rf .upd (s.charge.getD .A) 0 16 0
    if a.st ≠ 4 ∨ s.now < a.clean + 20000 * secs then .next s
    else
      let one (s : State) (k : Nat) : State :=
        match (s.brec k).find 2 with
        | none => s
        | some i =>
          let s := if ((s.brec k).bank (1 - i)).st = 3 then s.bankTo k (1 - i) 1 else s
          let s := s.bankTo k i 3
          s.mRec k fun r => { r with tries := 0, floor := max r.floor (r.bank i).img.svn }
      let s := ((actRecs a.part).foldl one s).mUpd fun u => { u with act := none }
      .next (s.complete a.org (s.charge.getD a.org.half) 0x0E04 stOk true [])

/-- ACTIVATION_REJOIN_TIMEOUT (R618): the first half boots its former bank, and the activation reverts. -/
def execActivationRejoinTimeout (s : State) : Out :=
  match s.upd.act with
  | none => .next s
  | some a =>
    if a.st ≠ 1 ∨ s.now < a.start + 1200000 then .next s
    else
      let k := if a.part = 0 then hbit a.first else 4 + hbit a.first
      .next ((s.revertBank k).resetHalf a.first 3)

/-- SINGLE_HALF_ACTIVATION_DRAIN (R619): every output target goes to 0; with FORCE, sessions end with HOST_STOP. -/
def execSingleHalfActivationDrain (s : State) : Out :=
  match s.upd.act, s.charge with
  | some a, some h =>
    if a.st ≠ 5 ∨ s.now + 20000 < a.at_ then .next s
    else .next ((List.range 48).foldl (fun s k => s.stopSession k 2) (s.mh h fun x => { x with cnp := { x.cnp with stopAll := true, stopLow := 0 } }))
  | _, _ => .next s

/-- SINGLE_HALF_ACTIVATION_RESET (R619): at edge AT the half resets into its staged bank. -/
def execSingleHalfActivationReset (s : State) : Out :=
  match s.upd.act, s.charge with
  | some a, some h =>
    if a.st ≠ 5 ∨ s.now < a.at_ then .next s
    else .next ((s.mUpd fun u => { u with act := u.act.map fun a => { a with st := 4, clean := s.now } }).resetInto a.part h)
  | _, _ => .next s

/-- UPD_STATUS (R625): per part its banks' states, LINE, RELEASE, BUILD, SVN floor and TRIES; the table of R625 gives no layout.
(DESIGN CHOICE, unsafe: log 85.) -/
def execUpdStatus (o : Org) (s : State) : Out :=
  .next (s.verb o 0x0E05 rNotPublic fun s x _ =>
    let one (k : Nat) : List Nat :=
      let r := s.brec k
      let i := r.force
      [r.b0.st, r.b1.st, i.line, i.release] ++ le 4 i.build ++ le 4 r.floor ++ [r.tries, 0, 0, 0]
    s.complete o x 0x0E05 stOk true ((List.range 6).flatMap one))

/-! ### Recovery (R622, R623) -/

/-- UPD_RECOVER. -/
def execUpdRecover (o : Org) (t : Nat) (s : State) : Out :=
  .next (s.verb o 0x0E07 [rVendor] fun s x _ =>
    match halfOf t with
    | none => s.complete o x 0x0E07 stRange true []
    | some h => (s.complete o x 0x0E07 stOk true []).enterRecovery h)

def State.recov (s : State) : Half → RecovS
  | .A => s.upd.recovA
  | .B => s.upd.recovB

def State.mRecov (s : State) (h : Half) (f : RecovS → RecovS) : State :=
  match h with
  | .A => s.mUpd fun u => { u with recovA := f u.recovA }
  | .B => s.mUpd fun u => { u with recovB := f u.recovB }

/-- A response (R623): MAGIC, OP and SEQ echoed, STATUS in place of LEN, then data. -/
def recovResp (op seq status : Nat) (data : List Nat) : List Nat :=
  [0x56, 0x58, 0x52, 0x43, op, 0] ++ le 2 seq ++ le 4 0 ++ le 2 status ++ [0, 0] ++ data

/-- A request of the recovery protocol: stop and wait, so one that repeats the last SEQ is answered again without being acted on (R623). -/
def State.recovReq (s : State) (h : Half) (op seq : Nat) (act : State → State × Nat × List Nat) : State :=
  if !(s.hf h).twn.recov ∨ (s.recov h).seq = some seq then s
  else
    let r := act s
    r.1.mRecov h fun v => { v with seq := some seq, resp := recovResp op seq r.2.1 r.2.2 }

/-- RECOVERY_INFO.
(DESIGN CHOICE, unsafe: log 85.) -/
def execRecoveryInfo (h : Half) (seq : Nat) (s : State) : Out :=
  .next (s.recovReq h 1 seq fun s =>
    let one (k : Nat) : List Nat :=
      let r := s.brec k
      [r.b0.st, r.b1.st, r.force.line, r.force.release] ++ le 4 r.force.build ++ le 4 r.floor
    (s, stOk, padTo 8 s.lkt.module ++ [hbit h] ++ one (4 + hbit h) ++ one (hbit h)))

/-- RECOVERY_HEADER: the header in four requests, checked under R610 steps 1 to 4. -/
def execRecoveryHeader (h : Half) (seq off : Nat) (data : List Nat) (ecOk pqOk : Bool) (s : State) : Out :=
  .next (s.recovReq h 2 seq fun s =>
    if ¬(off = 0 ∨ off = 1024 ∨ off = 2048 ∨ off = 3072) ∨ 1024 < data.length then (s, stRange, [])
    else
      let s := s.mRecov h fun v => { v with hdr := put [] v.hdr (off / 1024) data, img := none, data := [] }
      let b := (List.range 4).flatMap fun i => look [] (s.recov h).hdr i
      if off ≠ 3072 then (s, stOk, [])
      else
        let i := hdrInfo b
        let st :=
          if !hdrOk b then 0x0E01
          else if !s.sigGood b ecOk pqOk then 0x0E02
          else if 1 < i.target ∨ i.line ≠ 3 then 0x0E03
          else if i.svn < (s.brec (if i.target = 0 then 4 + hbit h else hbit h)).floor then 0x0E04
          else 0
        if st = 0 then (s.mRecov h fun v => { v with img := some i }, stOk, []) else (s, st, []))

/-- RECOVERY_DATA: only after a header that passed, and only in order. -/
def execRecoveryData (h : Half) (seq off : Nat) (data : List Nat) (s : State) : Out :=
  .next (s.recovReq h 3 seq fun s =>
    let v := s.recov h
    match v.img with
    | none => (s, 0x0E01, [])
    | some i =>
      if off ≠ 3712 + v.data.length ∨ 1024 < data.length ∨ i.len < v.data.length + data.length then (s, stRange, [])
      else (s.mRecov h fun v => { v with data := v.data ++ data }, stOk, []))

/-- RECOVERY_FINISH: step 8, and the bank is STAGED. -/
def execRecoveryFinish (h : Half) (seq : Nat) (s : State) : Out :=
  .next (s.recovReq h 4 seq fun s =>
    let v := s.recov h
    match v.img with
    | none => (s, 0x0E01, [])
    | some i =>
      let hdr := (List.range 4).flatMap fun i => look [] v.hdr i
      let s := s.mRecov h fun v => { v with img := none, data := [] }
      let k := if i.target = 0 then 4 + hbit h else hbit h
      if payloadOk hdr v.data then
        let r := s.brec k
        let b := if r.b0.st = 3 then 1 else 0
        ((s.mRec k fun r => r.setBank b { st := 1, img := { i with digest := sha384 (hdr ++ v.data) } }).bankEv k b, stOk, [])
      else (s, 0x0E06, []))

/-- RECOVERY_BOOT: the half restarts; a STAGED bank without an ACTIVE bank beside it boots as TRIAL. -/
def execRecoveryBoot (h : Half) (seq : Nat) (s : State) : Out :=
  .next (s.recovReq h 5 seq fun s =>
    let one (s : State) (k : Nat) : State := if ((s.brec k).find 3).isNone then s.toTrial k else s
    let s := [4 + hbit h, hbit h].foldl one s
    ((s.resetHalf h 6).mTwn h fun t => { t with recov := false }, stOk, []))

end Sys2Proof.Machine
end

