-- ==== Sys2Proof/Machine/Power.lean ====
section
/-!
DEFINITION. Feeds and hold-up, start-up, RESET_N, the service button, the power states (R627-R642).
-/

namespace Sys2Proof.Machine

def State.mPwr (s : State) (f : PwrS → PwrS) : State := { s with pwr := f s.pwr }

/-- VHOLD_V (R641). -/
def State.setVhold (s : State) (v : Nat) : State := s.srf .pwr .A 0x08 15 8 (min 255 v)

/-- VHOLD_SWITCH_CLOSE (R627, R629). -/
def execVholdSwitchClose (s : State) : Out := .next (s.mPwr fun p => { p with vhSwitch := true })

/-- HOLDUP_START (R629): HOLDUP is set; POWER_FAIL_SAVE writes the save it starts (R411). -/
def execHoldupStart (s : State) : Out :=
  if !s.pwr.up || s.rb .pwr .A 0 9 || s.rb .pwr .A 0 8 || !s.pwr.vhSwitch || s.holdup then .next s
  else .next ((s.srf .pwr .A 0 2 2 1).mPwr fun p => { p with step := 2 })

/-- HOLDUP_HALVES_STOP (R629): both halves stop; for the shared I/O domain this is a RESET_N. -/
def execHoldupHalvesStop (v : Nat) (s : State) : Out :=
  let s := s.setVhold v
  if s.pwr.step = 2 ∧ v < 80 then .next ((((s.haltHalf .A).haltHalf .B).resetShared).mPwr fun p => { p with step := 3, charged := false }) else .next s

/-- The registers of some shared blocks go back to their reset values. -/
def State.dropRegs (s : State) (l : List Blk) : State := { s with regs := s.regs.filter fun e => !l.any fun b => blkKey b .A == keyBlk e.1 }

/-- The battery domain is left without a supply (R157, R631): what the RTC reads afterwards is not stated, a free value.
(DESIGN CHOICE, unsafe: log 128.) -/
def State.battLost (s : State) : State := ({ s with rtc := s.freeVal 0 }.drew 1).mPwr fun p => { p with batt := 0 }

/-- HOLDUP_ISLANDS_STOP (R629, R631, R637): the islands and the shared I/O domain stop; the battery domain runs on VBAT as S4 where the cell, measured now, has
2.5 V.
(DESIGN CHOICE, unsafe: log 128.) -/
def execHoldupIslandsStop (v : Nat) (s : State) : Out :=
  let s := s.setVhold v
  if s.pwr.step = 3 ∧ v < 60 then
    let s := (s.srf .pwr .A 8 7 0 (s.freeVal 0)).drew 1
    let s := { (s.islandStart.dropRegs [.lsw]) with lsw := {} }.mPwr fun p => { p with up := false, charged := false, step := 4, batt := 1, battAt := s.rtc }
    .next (if s.rf .pwr .A 8 7 0 < 125 then s.battLost else s)
  else .next s

/-- A Locket command that waited for the end of hold-up is carried out.
(DESIGN CHOICE, safe: log 127.) -/
def lktResume (s : State) (c : LktCmd) : State :=
  let r : Out := match c with
    | .generate o tx attr => execLktGenerate o tx attr s
    | .importKey o tx attr key wrapped => execLktImport o tx attr key wrapped s
    | .derive o tx attr info => execLktDerive o tx attr info s
    | .agree o tx attr method z => execLktAgree o tx attr method z s
    | .invalidate o tx handle => execLktInvalidate o tx handle s
    | .pair o tx kind port rid z => execLktPair o tx kind port rid z s
    | .roll o tx port => execLktRoll o tx port s
    | .drop handle => .next (s.invalidate handle none none)
  match r with
  | .next t => t
  | _ => s

/-- What the halves kept back from flash is written (R629). -/
def flashDrain (s : State) (h : Half) : State := s.mh h fun x => { x with thm := { x.thm with buf := if x.thm.flashHold then x.thm.buf else 0 } }

/-- HOLDUP_END (R627, R629, R630): before step 3 nothing stops, and what hold-up kept waiting goes on; after it both halves boot as after RESET_N; after step 4 the
module starts under R632.
(DESIGN CHOICE, safe: log 127.) -/
def execHoldupEnd (s : State) : Out :=
  let n := s.pwr.step
  let w := s.lkt.waiting
  let s := ((s.srf .pwr .A 0 2 2 0).mPwr fun p => { p with vhSwitch := false, step := 0 }).mLkt fun x => { x with waiting := [] }
  if n = 3 then .next (s.resetN 4)
  else if n = 2 then .next (w.foldl lktResume (flashDrain (flashDrain s .A) .B))
  else .next s

/-- MODULE_START (R632, R633): POR; the halves start their boot ROMs, the islands their ROMs. -/
def execModuleStart (s : State) : Out :=
  if s.pwr.up then .next s
  else
    let s := s.por
    let recs := [2, 3].foldl (fun t k => Machine.upd {} t k BootRec.fresh) s.upd.recs
    .next { s with pwr := { up := true, stuck := s.pwr.stuck }, upd := { s.upd with recs := recs, stage := [], stg := none } }

/-- VHOLD_CHARGED (R628): tick service may begin once VHOLD has reached 12.0 V. -/
def execVholdCharged (v : Nat) (s : State) : Out :=
  let s := s.setVhold v
  if s.pwr.up ∧ 120 ≤ v then .next (s.mPwr fun p => { p with charged := true }) else .next s

/-- RESET_N (R634): a pulse of 10 us or more is taken, one of 1 us or less ignored; between them the device takes it or not.
(DESIGN CHOICE, safe: log 86.) -/
def execResetN (ns : Nat) (s : State) : Out :=
  if !s.pwr.up ∨ ns ≤ 1000 then .next s
  else if 10000 ≤ ns then .next (s.resetN 1)
  else if s.freeVal 0 % 2 = 1 then .next ((s.drew 1).resetN 1)
  else .next (s.drew 1)

/-! ### The power states (R636-R639) -/

/-- The halves leave tick service and power their links down; what they hold stays in DRAM (R636). -/
def sleepHalf (s : State) (h : Half) : State :=
  let s := if s.ref.token = some h then s.releaseToken h 0x12 else s
  s.mh h fun x =>
    { x with ports := [], tck := { x.tck with tickSet := false },
             twn := { x.twn with service := false, acting := false, up := false, booted := false, off := true, unhealthy := true, cause := 0x8A, rejoin := false } }

/-- A half wakes: it retrains its ports and starts tick service under R61 (R639). -/
def wakeHalf (s : State) (h : Half) : State :=
  s.mTwn h fun t => { t with off := t.held, booted := !t.held }

/-- The site is idle (R637). -/
def State.siteIdle (s : State) : Bool :=
  let h := s.charge.getD .A
  (List.range 48).all (fun k => let n := (s.veh1 k).c.st; n == 0 || n == 10) && (s.hf h).cnp.chgs.isEmpty
    && (List.range 512).all (fun n => look 0 s.saf.poleFb n == 0) && decide (s.saf.closedAt + 20000 ≤ s.now)

/-- Every zone is REMOVED or FAULT (R467). -/
def State.zonesQuiet (s : State) : Bool := (List.range 8).all fun z => let n := (s.zone z).st; n == 0 || n == 3

/-- A request is refused: DENIED, and TARGET returns to S0 (R637, R641). -/
def State.denyPower (s : State) (why : Nat) : State := (s.srf .pwr .A 0x08 28 27 why).srf .pwr .A 0x04 31 29 0

/-- The state entered shows in PWR_STATUS and PWR_CTL, and the wake timer runs from here (R640, R641). -/
def State.showPower (s : State) (n : Nat) : State :=
  ((s.srf .pwr .A 0x08 31 29 n).srf .pwr .A 0x04 31 29 n).mPwr fun p => { p with entered := s.rtc }

/-- Both halves sleep from S2 down. -/
def State.sleepHalves (s : State) (n : Nat) : State := if 2 ≤ n then sleepHalf (sleepHalf s .A) .B else s

/-- In S3 the shared I/O domain keeps the load-switch channels with HOLD; in S4 it and the safety outputs are off.
(DESIGN CHOICE, unsafe: log 87.) -/
def State.sleepShared (s : State) (n : Nat) : State :=
  if n = 3 then s.lswResetN.dropRegs [.gpio] else if n = 4 then ({ s.dropRegs [.gpio, .lsw] with lsw := {} }).islandStart else s

/-- A power state is entered, passing through those between (R636, R637).
(DESIGN CHOICE, unsafe: log 87.) -/
def State.enterPower (s : State) (n : Nat) : State := ((s.showPower n).sleepHalves n).sleepShared n

/-- A write of TARGET in the shared I/O domain (R637, R640). -/
def State.powerTarget (s : State) (target : Nat) : State :=
  if target = 0 ∨ 4 < target then s.srf .pwr .A 0x04 31 29 0
  else if s.pstate ≠ 0 then s
  else if !s.siteIdle then s.denyPower 1
  else if target = 4 && !s.zonesQuiet then s.denyPower 2
  else if target = 4 && (s.halfA.thm.flashHold || s.halfB.thm.flashHold) then s.denyPower 3
  else s.enterPower target

/-- POWER_STATE_REQUEST. -/
def execPowerStateRequest (h : Half) (target : Nat) (s : State) : Out := .next (s.gated h fun s => s.powerTarget target)

/-- The device climbs back to S0 (R636, R638, R639, R642); from S4 the point store is restored and the points of classes 0x01 to 0x03 start
empty (R40, R41). -/
def State.wakeUp (s : State) : State :=
  let n := s.pstate
  let s := s.showPower 0
  let s := if 2 ≤ n then wakeHalf (wakeHalf s .A) .B else s
  let s := if n = 3 then (s.setCause .A 7).setCause .B 7 else if n = 4 then (s.setCause .A 8).setCause .B 8 else s
  if n = 4 then
    let s := (s.mBoth fun x => { x with pts := flashPoints x, pub := {} }).mMet fun x => { x with battery := 0 }
    s.mLkt fun x => { x with starting := max 1 x.starting }
  else s

/-- The source acts in a power state and is enabled (R638); a mesh frame that wakes stands in RMS_RXCTL, an opened tamper input reads open.
(DESIGN CHOICE, unsafe: log 87.) -/
def State.wakes (s : State) (src : WakeSrc) : Bool :=
  let n := s.pstate
  match src with
  | .doorbell => n == 1 || n == 2
  | .link h p => (n == 1 || n == 2) && s.rb .pwr .A 0x04 26 && s.portEn h p
  | .mesh => (n == 1 || n == 2 || n == 3) && s.rb .pwr .A 0x04 27 && s.rb .rms .A 0x180 31 && s.nodeEn (s.rf .rms .A 0x180 29 29) (s.rf .rms .A 0x180 15 8)
  | .button => decide (1 ≤ n ∧ n ≤ 4)
  | .tamper => decide (1 ≤ n ∧ n ≤ 4) && s.rb .pwr .A 0x04 28 && (List.range 4).any fun t => (look {} s.met.tamp t).isOpen
  | .feed => false

/-- WAKE (R638); a feed above 9.0 V in S5 is a start under R632, which MODULE_START makes.
(DESIGN CHOICE, unsafe: log 87.) -/
def execWake (src : WakeSrc) (s : State) : Out := if s.wakes src then .next s.wakeUp else .next s

/-- WAKE_TIMER_EXPIRY (R638, R640): WAKE_S seconds of the RTC have passed since entry. -/
def execWakeTimerExpiry (s : State) : Out :=
  let w := s.rf .pwr .A 0x04 15 0
  if w ≠ 0 ∧ s.pwr.entered + 32768 * w ≤ s.rtc ∧ 1 ≤ s.pstate ∧ s.pstate ≤ 4 then .next s.wakeUp else .next s

/-- S4_BATTERY_TO_S5 (R382, R637): BATT_H hours of the RTC in S4 from VBAT. -/
def execS4BatteryToS5 (s : State) : Out :=
  if s.pwr.batt = 1 ∧ s.pwr.battAt + 3600 * 32768 * s.rf .met .A 0x704 7 0 ≤ s.rtc then .next ((s.mPwr fun p => { p with batt := 2 }).mMet fun x => { x with battery := 3 })
  else .next s

/-! ### The service button (R635) -/

/-- SVC_BTN_RELEASE: a press, a recovery request, or nothing.
(DESIGN CHOICE, unsafe: log 88.) -/
def execSvcBtnRelease (ms gap : Nat) (s : State) : Out :=
  if !s.pwr.up || s.pwr.stuck && decide (gap < 100) then .next s
  else
    let s := if ms ≤ 30000 then s.mPwr fun p => { p with stuck := false } else s
    if ms < 30 ∨ 30000 < ms then .next s
    else if ms < 5000 then
      let s := (s.srf .pwr .A 0x08 26 26 1).mBil fun b => { b with ldsp := { b.ldsp with chk := s.now + 200000 } }
      .next (if s.wakes .button then s.wakeUp else s)
    else
      let s := (s.srf .pwr .A 0x08 25 25 1).evShared 4 1 0x0F05 [2]
      match s.ref.token with
      | some h => .next (s.enterRecovery (other h))
      | none => .next ((s.enterRecovery .A).enterRecovery .B)

/-- SVC_BTN_STUCK.
(DESIGN CHOICE, unsafe: log 88.) -/
def execSvcBtnStuck (gap : Nat) (s : State) : Out :=
  if !s.pwr.up || s.pwr.stuck && decide (gap < 100) then .next s else .next (((s.srf .pwr .A 0x08 24 24 1).mPwr fun p => { p with stuck := true }).evShared 4 1 0x0F05 [1])

/-- PTP_ANNOUNCE_RECEIVED (R54, R62, R81, R400): the best-master decision and, with currentUtcOffsetValid, TAI_UTC. A message of another domain is ignored. In
FREERUN a selected master gives ACQUIRE.
(DESIGN CHOICE, safe: log 89.) -/
def execPtpAnnounceReceived (h : Half) (dom utcOffset : Nat) (valid selected : Bool) (ticks : Nat) (s : State) : Out :=
  if !s.rb .tck h 0 30 || dom != s.rf .tck h 0 23 16 then .next s
  else
    let s := s.mTck h fun t => { t with master := selected, annTicks := ticks }
    let s := if selected && decide ((s.hf h).tck.tstate = 0) then s.setTstate h 1 else s
    .next (if valid then s.mBil fun b => { b with tai := utcOffset } else s)

end Sys2Proof.Machine
end

