-- ==== Sys2Proof/Machine/Commit.lean ====
section
/-!
DEFINITION. The consistency rules of the commit blocks, chapter by chapter, and the judging of the blocks of one edge (R23, R24, R653).
-/

namespace Sys2Proof.Machine

/-- Register words of every block as they stand after the edge (R653). -/
abbrev AfterEdge := Blk → Nat → Word

/-- A consistency rule (R23, R653): the block whose chapter states it, the blocks whose fields it names, the status of a refusal
(R24), and the words that break it, none where it holds. -/
structure CommitRule where
  chapter : Blk
  names : List Blk
  code : Nat := 0x13
  bad : AfterEdge → List (Blk × Nat)

/-- The words of a block that fail a test. -/
def failing (b : Blk) (offs : List Nat) (bad : Nat → Bool) : List (Blk × Nat) := (offs.filter bad).map fun o => (b, o)

/-- A number lies outside lo to hi. -/
def outside (lo hi n : Nat) : Bool := decide (n < lo ∨ hi < n)

/-- A rule of one chapter's block on its own words, each test by offset. -/
def ownRule (b : Blk) (offs : List Nat) (bad : AfterEdge → Nat → Bool) : CommitRule :=
  { chapter := b, names := [b], bad := fun v => failing b offs (bad v) }

/-- The multiples of `step` from `a`, `n` of them. -/
def stepsFrom (a step n : Nat) : List Nat := (List.range n).map fun i => a + step * i

/-! ### Ticks, twin halves, link (R80, R159, R123) -/

/-- R80. -/
def tckRules : List CommitRule :=
  [ownRule .tck [0] fun v _ => decide (127 < fld (v .tck 0) 23 16),
   ownRule .tck [0] fun v _ => decide (60 < fld (v .tck 0) 15 8),
   ownRule .tck [0] fun v _ => decide (2 ≤ fld (v .tck 0) 29 28)]

/-- R159: TEST_EN changes only under Installer or Vendor service, for every role that armed the commit (R652). -/
def twnRules (s : State) (h : Half) : List CommitRule :=
  [ownRule .twn [0] fun v _ => fld (v .twn 0) 31 30 == 3,
   ownRule .twn [0] fun v _ => outside 1 600 (fld (v .twn 0) 25 16),
   ownRule .twn [0] fun v _ => bitAt (v .twn 0) 27 != s.rb .twn h 0 27 && (s.blk .twn h).roles.any fun r => r != rInstaller && r != rVendor]

/-- R123. -/
def nlkRules : List CommitRule :=
  [ownRule .nlk (stepsFrom 0 0x40 32) fun v o => bitAt (v .nlk o) 31 && fld (v .nlk o) 29 28 != 1,
   ownRule .nlk (stepsFrom 0x800 0x40 48) fun v o => bitAt (v .nlk o) 31 && fld (v .nlk o) 29 28 != 2,
   ownRule .nlk (stepsFrom 0 0x40 80) fun v o => outside 1 4 (fld (v .nlk o) 27 24),
   ownRule .nlk (stepsFrom 0 0x40 80) fun v o => outside 1 7 (fld (v .nlk o) 23 20)]

/-! ### Control lanes (R190, R204) -/

/-- The lanes with EN 1 after the edge. -/
def lanesOn (v : AfterEdge) : List Nat := (List.range 60).filter fun l => bitAt (v .cln (0x20 * l)) 31

/-- SLOT_BASE and SLOT_CNT of a lane. -/
def slotRange (v : AfterEdge) (l : Nat) : Nat × Nat := (fld (v .cln (0x20 * l + 4)) 26 16, fld (v .cln (0x20 * l + 4)) 6 0)

/-- Two ranges (first, count) share a number; the lowest they share. -/
def sharedFirst (a b : Nat × Nat) : Option Nat :=
  if max a.1 b.1 < min (a.1 + a.2) (b.1 + b.2) then some (max a.1 b.1) else none

/-- The pairs of lanes whose slot ranges overlap, with the lowest slot they share. -/
def slotClashes (v : AfterEdge) : List (Nat × Nat × Nat) :=
  (lanesOn v).flatMap fun l => (lanesOn v).filterMap fun k =>
    if l < k then (sharedFirst (slotRange v l) (slotRange v k)).map fun x => (l, k, x) else none

/-- R190 and R204. -/
def clnRules (s : State) (h : Half) : List CommitRule :=
  [{ chapter := .cln, names := [.cln],
     bad := fun v => ((lanesOn v).filter fun l => (s.image h (fld (v .cln (0x20 * l)) 15 0)).isNone).map fun l => (Blk.cln, 0x20 * l) },
   { chapter := .cln, names := [.cln],
     bad := fun v => ((lanesOn v).filter fun l =>
        (match s.image h (fld (v .cln (0x20 * l)) 15 0) with
         | some im => decide ((slotRange v l).2 < im.resultInit.length)
         | none => false) || decide (2048 < (slotRange v l).1 + (slotRange v l).2)).map fun l => (Blk.cln, 0x20 * l + 4) },
   { chapter := .cln, names := [.cln], bad := fun v => (slotClashes v).map fun e => (Blk.cln, 0x20 * e.1 + 4) },
   ownRule .cln (stepsFrom 4 0x20 60) fun v o => decide (64 < fld (v .cln o) 6 0),
   ownRule .cln ((List.range 80).flatMap fun p => stepsFrom (0x20000 + 0x80 * p) 4 28) fun v o =>
     outside 0x800 0xFFE (fld (v .cln o) 11 0) == false || outside 0x800 0xFFE (fld (v .cln o) 27 16) == false]

/-- The lanes a refused CLN_ commit names and the lowest slot two of them would share (R190). -/
def clnBlame (s : State) (h : Half) (v : AfterEdge) : Nat × Nat :=
  let bad := (List.range 60).filter fun l =>
    (decide (l ∈ lanesOn v) && (match s.image h (fld (v .cln (0x20 * l)) 15 0) with
      | some im => decide ((slotRange v l).2 < im.resultInit.length) || decide (2048 < (slotRange v l).1 + (slotRange v l).2)
      | none => true))
    || decide (64 < (slotRange v l).2) || (slotClashes v).any fun e => e.1 == l || e.2.1 == l
  let shared := (slotClashes v).foldl (fun m e => min m e.2.2) 2048
  ((bad.map fun l => 2 ^ l).sum, if shared = 2048 then 0 else shared)

/-! ### Power stages (R263) -/

/-- The cabinets with EN 1 after the edge. -/
def cabsOn (v : AfterEdge) : List Nat := (List.range 32).filter fun c => bitAt (v .pst (0x100 * c)) 31

/-- FIRST and NPH of a group. -/
def phaseRange (v : AfterEdge) (c g : Nat) : Nat × Nat :=
  (fld (v .pst (0x100 * c + 0x20 + 4 * g)) 17 12, fld (v .pst (0x100 * c + 0x20 + 4 * g)) 11 6)

/-- A rule on the enabled cabinets: the word at record offset `o` breaks it. -/
def cabRule (names : List Blk) (o : Nat) (bad : AfterEdge → Nat → Bool) : CommitRule :=
  { chapter := .pst, names := names, bad := fun v => ((cabsOn v).filter (bad v)).map fun c => (Blk.pst, 0x100 * c + o) }

/-- A rule on the groups of the enabled cabinets, whose words start at record offset `o`. -/
def cabGroupRule (o : Nat) (bad : AfterEdge → Nat → Nat → Bool) : CommitRule :=
  { chapter := .pst, names := [.pst],
    bad := fun v => (cabsOn v).flatMap fun c => ((List.range 4).filter (bad v c)).map fun g => (Blk.pst, 0x100 * c + o + 4 * g) }

/-- R263. -/
def pstRules (s : State) (h : Half) : List CommitRule :=
  [cabRule [.pst] 0 fun v c => outside 2 16 (fld (v .pst (0x100 * c)) 23 19)
      || (bitAt (v .pst 0x2000) 31 && fld (v .pst (0x100 * c)) 23 19 % 2 == 1),
   cabRule [.pst, .cln] 0 fun v c =>
     let l := fld (v .pst (0x100 * c)) 29 24
     decide (60 ≤ l) || !bitAt (v .cln (0x20 * l)) 31 ||
       (match s.image h (fld (v .cln (0x20 * l)) 15 0) with
        | some im => im.progId != 0x50534551
        | none => true),
   cabGroupRule 0x20 fun v c g =>
     decide (48 < (phaseRange v c g).1 + (phaseRange v c g).2) ||
       (decide (0 < (phaseRange v c g).2) && outside 1 (phaseRange v c g).2 (fld (v .pst (0x100 * c + 0x20 + 4 * g)) 5 0)),
   cabGroupRule 0x20 fun v c g => (List.range g).any fun k => (sharedFirst (phaseRange v c k) (phaseRange v c g)).isSome,
   cabRule [.pst] 0x04 fun v c =>
     let w := v .pst (0x100 * c + 4)
     decide (fld w 19 13 ≤ 2 * fld w 12 6) || decide (100 < fld w 19 13),
   cabRule [.pst] 0x08 fun v c => decide (fld (v .pst (0x100 * c + 8)) 23 16 ≤ fld (v .pst (0x100 * c + 8)) 31 24),
   { chapter := .pst, names := [.pst],
     bad := fun v => (cabsOn v).flatMap fun c =>
       let f (o hi lo : Nat) : Bool := fld (v .pst (0x100 * c + o)) hi lo == 0
       ([(0x08, f 8 15 8 || f 8 7 0), (0x0C, f 0xC 31 24 || f 0xC 23 16 || f 0xC 15 3 || f 0xC 2 0), (0x10, f 0x10 15 4)].filter (·.2)).map fun e =>
         (Blk.pst, 0x100 * c + e.1) },
   cabGroupRule 0x30 fun v c g =>
     let w := v .pst (0x100 * c + 0x30 + 4 * g)
     bitAt w 31 && decide (47 < fld w 21 16)]

/-! ### Canopy (R20, R275, R277, R296) -/

/-- The place of a node in the tree is allowed (R275): its parent's kind and its level. -/
def nodePlaced (ns : List Node) (n : Node) : Bool :=
  let level := (pathUp ns 9 n.idx).length - 1
  let root := (pathUp ns 9 n.idx).getLast?.map (·.idx) == some 0
  let pk := ((nodeAt ns n.parent).map (·.kind)).getD 0
  root && match n.kind with
    | 2 => pk == 1 && level == 1
    | 3 => (pk == 2 || pk == 3) && !outside 2 5 level
    | 4 => (pk == 2 || pk == 3) && !outside 2 6 level
    | 5 => pk == 4 && !outside 3 7 level
    | 6 => (pk == 2 || pk == 3) && !outside 2 6 level
    | _ => false

/-- UNIT lies within the range of the kind (R277). -/
def unitOk (n : Node) : Bool :=
  match n.kind with
  | 2 => decide (n.unit ≤ 1)
  | 4 => decide (n.unit ≤ 31)
  | 5 => decide (n.unit ≤ 3)
  | 6 => n.unit / 4 % 32 == 0
  | 1 | 3 => n.unit == 0
  | _ => true

/-- Two nodes stand for the same thing (R277). -/
def sameUnit (a b : Node) : Bool :=
  a.kind == b.kind && a.unit == b.unit && (a.kind == 2 || a.kind == 4 || a.kind == 6 || (a.kind == 5 && a.parent == b.parent))

/-- A rule on the nodes in use; the word at record offset `o` breaks it. -/
def nodeRule (o : Nat) (bad : List Node → Node → Bool) : CommitRule :=
  { chapter := .cnp, names := [.cnp],
    bad := fun v => let ns := nodesOf (v .cnp)
                    (ns.filter (bad ns)).map fun n => (Blk.cnp, 0x10 * n.idx + o) }

/-- The enabled contactors. -/
def ctrsOn (v : AfterEdge) : List Nat := (List.range 512).filter fun n => bitAt (v .cnp (0x5000 + 4 * n)) 31

/-- A contactor of a change under way. -/
def inChange (s : State) (h : Half) (n : Nat) : Bool :=
  (s.hf h).cnp.chgs.any fun c => c.opens.any (fun e => e.1 == n) || c.closes.any fun e => e.1 == n

/-- The routed groups after the edge, as (cabinet, group, OUT). -/
def routed (v : AfterEdge) : List (Nat × Nat × Nat) :=
  (List.range 128).filterMap fun gid =>
    let w := v .pst (0x100 * (gid / 4) + 0x30 + 4 * (gid % 4))
    if bitAt w 31 then some (gid / 4, gid % 4, fld w 21 16) else none

/-- R296. -/
def ctrRules (s : State) (h : Half) : List CommitRule :=
  [{ chapter := .cnp, names := [.cnp],
     bad := fun v => ((ctrsOn v).filter fun n => (ctrsOn v).any fun k => decide (k < n) &&
        fld (v .cnp (0x5000 + 4 * k)) 20 16 == fld (v .cnp (0x5000 + 4 * n)) 20 16 &&
        fld (v .cnp (0x5000 + 4 * k)) 5 0 == fld (v .cnp (0x5000 + 4 * n)) 5 0).map fun n => (Blk.cnp, 0x5000 + 4 * n) },
   { chapter := .cnp, names := [.cnp],
     bad := fun v => ((List.range 512).filter fun n =>
        v .cnp (0x5000 + 4 * n) != s.ctr h n && (fld (s.ctr h n) 15 12 != 0 || inChange s h n)).map fun n => (Blk.cnp, 0x5000 + 4 * n) },
   { chapter := .cnp, names := [.cnp, .pst],
     bad := fun v => ((routed v).filter fun r => !(ctrsOn v).any fun n =>
        let w := v .cnp (0x5000 + 4 * n)
        fld w 20 16 == r.1 && fld w 5 0 == r.2.2 && bitAt w (24 + r.2.1)).flatMap fun r =>
          [(Blk.pst, 0x100 * r.1 + 0x30 + 4 * r.2.1), (Blk.cnp, 0x5000)] },
   ownRule .cnp (stepsFrom 0x5000 4 512) fun v o => bitAt (v .cnp o) 31 && decide (47 < fld (v .cnp o) 5 0)]

/-- R20 and R277, the contactor rules of R296 in their place. -/
def cnpRules (s : State) (h : Half) : List CommitRule :=
  [nodeRule 8 fun _ n => n.kind == 2 && n.fb != 0xFFFFFFFF && decide (n.limit < n.fb),
   ownRule .cnp (stepsFrom 0 0x10 1024) fun v o => (fld (v .cnp o) 31 29 == 1) != (o == 0),
   nodeRule 0 fun ns n => n.idx != 0 && !nodePlaced ns n,
   nodeRule 0 fun _ n => n.kind == 7,
   nodeRule 4 fun _ n => (n.kind == 2 || n.kind == 4 || n.kind == 5) && n.limit == 0xFFFFFFFF,
   nodeRule 0 fun _ n => !unitOk n,
   nodeRule 0 fun ns n => ns.any fun k => decide (k.idx < n.idx) && sameUnit k n,
   { chapter := .cnp, names := [.cnp, .pst],
     bad := fun v => let ns := nodesOf (v .cnp)
       ((cabsOn v).filter fun c => (cabNode ns c).isNone ||
          (List.range 4).any fun g => decide (0 < (phaseRange v c g).2) && (grpNode ns c g).isNone).flatMap fun c =>
            [(Blk.pst, 0x100 * c), (Blk.cnp, 0)] },
   ownRule .cnp (stepsFrom 0x4000 0x10 48) fun v o =>
     bitAt (v .cnp o) 31 && (outside 1 255 (fld (v .cnp o) 23 16) ||
       (decide (63 < fld (v .cnp o) 14 8) && fld (v .cnp o) 14 8 != 0x7F) || fld (v .cnp (o + 8)) 31 16 == 0 ||
       fld (v .cnp (o + 8)) 15 0 == 0 || decide (3000000 < (v .cnp (o + 4)).toNat)),
   { chapter := .cnp, names := [.cnp],
     bad := fun v => let ns := nodesOf (v .cnp)
       ((List.range 8).filter fun u => bitAt (v .cnp (0x4400 + 0x10 * u)) 31 &&
          (srcNode ns (if u < 4 then u else 0x80 + (u - 4))).isNone).map fun u => (Blk.cnp, 0x4400 + 0x10 * u) }]
  ++ ctrRules s h ++
  [ownRule .cnp [0x4804] fun v o => fld (v .cnp o) 31 24 == 0 || fld (v .cnp o) 23 16 == 0 || fld (v .cnp o) 15 8 == 0 || fld (v .cnp o) 7 0 == 0,
   ownRule .cnp [0x4800] fun v o => fld (v .cnp o) 15 0 == 0]

/-! ### Cable models, vehicles (R337, R358) -/

/-- The conductances of node `n` of a model, ambient and coolant flow included, in W/K (R313, R337). -/
def nodeConduct (w : Nat → Nat) (n : Nat) : Nat :=
  let edges := ((thermEdges.zipIdx).filter fun e => e.1.1 == n || e.1.2 == n).map fun e => w (0x40 + 4 * e.2)
  let sum := edges.foldl fadd 0
  if n = 4 ∨ n = 5 then fadd sum (fmul (fmul (w 0x90) 0x415744FD) (w 0x84))
  else if n = 6 then fadd sum (w 0x70) else if n = 7 then fadd sum (w 0x74) else sum

/-- A rule on the enabled models: the words of the record that break it. -/
def modelRule (bad : (Nat → Nat) → List Nat) : CommitRule :=
  { chapter := .thm, names := [.thm],
    bad := fun v => ((List.range 64).filter fun m => bitAt (v .thm (0x100 * m)) 31).flatMap fun m =>
      (bad fun o => (v .thm (0x100 * m + o)).toNat).map fun o => (Blk.thm, 0x100 * m + o) }

/-- A point ID names a point of class 0x01 (R33, R34). -/
def measId (id : Nat) : Bool := id != 0 && id / 2 ^ 25 == 1 && classOf (id % 2 ^ 25) == some 1

/-- R337.
(DEDUCED, unsafe: log 93.) -/
def thmRules : List CommitRule :=
  [modelRule fun w => [0x04, 0x10].filter fun o => !measId (w o),
   modelRule fun w => if outside 10 120 (fldN (w 0) 23 16) then [0] else [],
   modelRule fun w => ((stepsFrom 0x20 4 8).filter fun o => !flt 0 (w o)) ++
     ((stepsFrom 0x40 4 12) ++ [0x70, 0x74, 0x78, 0x7C, 0x80, 0x84]).filter fun o => !fle 0 (w o),
   modelRule fun w => if fle (fofInt 40 0) (w 0x88) && fle (w 0x88) (fofInt 150 0) then [] else [0x88],
   modelRule fun w => if flt 0 (w 0x90) then [] else [0x90],
   modelRule fun w => if fle 0 (w 0x94) && fle (w 0x94) (fofInt 1 0) then [] else [0x94],
   modelRule fun w => ((List.range 8).filter fun n =>
     !fle (fdiv (fmul 0x3A83126F (nodeConduct w n)) (w (0x20 + 4 * n))) 0x3F000000).map fun n => 0x20 + 4 * n,
   ownRule .thm [0x4004] fun v o => outside 10 100 (fld (v .thm o) 31 24) || outside 1 50 (fld (v .thm o) 23 16)]

/-- A rule on the enabled output records of VEH_. -/
def vehRule (names : List Blk) (o : Nat) (bad : AfterEdge → Nat → Bool) : CommitRule :=
  { chapter := .veh, names := names,
    bad := fun v => ((List.range 48).filter fun k => bitAt (v .veh (0x10 * k)) 31 && bad v k).flatMap fun k =>
      names.map fun b => (b, if b = .veh then 0x10 * k + o else 0x4000 + 0x10 * k + 4) }

/-- R358. -/
def vehRules : List CommitRule :=
  [vehRule [.veh] 0 fun v k => fld (v .veh (0x10 * k)) 27 25 == 0,
   vehRule [.veh] 0 fun v k => fld (v .veh (0x10 * k)) 24 21 == 0,
   vehRule [.veh] 0 fun v k => bitAt (v .veh (0x10 * k)) 30 && !bitAt (v .veh (0x10 * k)) 20,
   vehRule [.veh, .cnp] 0 fun v k => !bitAt (v .veh (0x10 * k)) 20 && decide (500000 < (v .cnp (0x4000 + 0x10 * k + 4)).toNat),
   vehRule [.veh] 0 fun v k => outside 10 255 (fld (v .veh (0x10 * k)) 15 8) || outside 10 120 (fld (v .veh (0x10 * k)) 7 0),
   vehRule [.veh] 4 fun v k => outside 100 2000 (fld (v .veh (0x10 * k + 4)) 31 16)]

/-! ### Metrology, billing, Locket (R363, R391, R425, R457, R458) -/

/-- The words of the sealed fields of MET_: all but the pulse outputs (R363, R389). -/
def sealedOffs : List Nat := (stepsFrom 0 4 192) ++ (stepsFrom 0x400 4 56) ++ [0x500, 0x510, 0x700, 0x704]

/-- The fields of Locket's function map whose changes are entered in the metrological log (R457). -/
def sealedFuncs : List Nat := [0x08, 0x0C, 0x10]

/-- The sealed words a commit changes (R363, R425, R457).
(DEDUCED, unsafe: log 92.) -/
def sealedChanges (s : State) (v : AfterEdge) : List (Blk × Nat) :=
  (failing .met sealedOffs fun o => v .met o != s.rg .met .A o) ++ (failing .lkt sealedFuncs fun o => v .lkt o != s.rg .lkt .A o)
    ++ failing .bil [0] fun o => v .bil o != s.rg .bil .A o

/-- R363: a commit that needs more records than remain of the 1,024 fails. -/
def sealedRule (s : State) : CommitRule :=
  { chapter := .met, names := [.met, .lkt, .bil], code := 0x0A01,
    bad := fun v => if 1024 < s.met.mlog.count + (sealedChanges s v).length then sealedChanges s v else [] }

/-- Locket holds a usable metering head key for an identity (R443). -/
def headKey (s : State) (rid : Nat) : Bool :=
  s.lkt.ents.any fun e => match e.2 with
    | some k => k.typ == 2 && k.eng.testBit 4 && k.dom.testBit 1 && k.binding == rid && s.keyUsable k.handle
    | none => false

/-- The HEAD_RID words of the enabled outputs. -/
def headsOn (v : AfterEdge) : List Nat := (stepsFrom 0 0x10 48).filter fun o => bitAt (v .met o) 31

/-- The source of a quantity code is enabled after the edge, and it has the quantity (R364). -/
def qtyOn (v : AfterEdge) (code : Nat) : Bool :=
  let src := code / 256
  (decide (src < 0x30) && bitAt (v .met (0x10 * src)) 31 && decide (code % 256 ∈ [1, 2, 3, 4]))
    || ((src == 0x40 || src == 0x41) && bitAt (v .met (0x500 + 0x10 * (src - 0x40))) 31 && decide (code % 256 ∈ [1, 2]))

/-- R363 and R391.
(DEDUCED, unsafe: log 93.) -/
def metRules (s : State) : List CommitRule :=
  [sealedRule s,
   ownRule .met ((stepsFrom 0 0x10 48) ++ (stepsFrom 0x400 0x10 14)) fun v o =>
     decide (2048 < fld (v .met o) 11 0) || (decide (o < 0x400) && decide (2048 < fld (v .met o) 27 16)),
   ownRule .met (stepsFrom 0 0x10 48) fun v o => bitAt (v .met o) 31 &&
     (v .met (o + 8) == 0 || (headsOn v).any fun p => p != o && v .met (p + 8) == v .met (o + 8)),
   ownRule .met (stepsFrom 0x400 0x10 14) fun v o => bitAt (v .met o) 31 && v .met (o + 4) == 0,
   ownRule .met [0x500, 0x510] fun v o => bitAt (v .met o) 31 &&
     !(List.range 7).all fun c => bitAt (v .met (0x400 + 0x10 * (7 * ((o - 0x500) / 0x10) + c))) 31,
   ownRule .met (stepsFrom 0x600 8 8) fun v o => bitAt (v .met o) 31 && !qtyOn v (fld (v .met o) 15 0),
   ownRule .met (stepsFrom 0x600 8 8) fun v o => bitAt (v .met o) 31 && (outside 1 100 (fld (v .met o) 23 16) || v .met (o + 4) == 0),
   ownRule .met ((stepsFrom 4 0x10 48) ++ [0x500, 0x510]) fun v o => fld (v .met o) 15 0 == 0,
   ownRule .met [0x704] fun v o => fld (v .met o) 7 0 == 0,
   { chapter := .met, names := [.met], code := 0x0A02,
     bad := fun v => failing .met (stepsFrom 8 0x10 48) fun o => v .met o != s.rg .met .A o && !headKey s (v .met o).toNat }]

/-- R425. -/
def bilRules : List CommitRule := [ownRule .bil [0] fun v _ => outside 1 60 (fld (v .bil 0) 23 16)]

/-- R457 and R458. -/
def lktRules (s : State) : List CommitRule :=
  [ownRule .lkt (stepsFrom 0 4 8) fun v o => !s.functionOk o (v .lkt o),
   { chapter := .lkt, names := [.lkt, .bil],
     bad := fun v => if bitAt (v .bil 0) 31 && v .lkt 0x0C == 0xFFFFFFFF then [(Blk.lkt, 0x0C), (Blk.bil, 0)] else [] },
   ownRule .lkt [0x20] fun v o => fld (v .lkt o) 31 30 == 0]

/-! ### Safety island, exchange, update (R488-R493, R600, R560, R624) -/

/-- The offsets of the connections, with their numbers. -/
def connOffs : List (Nat × Nat) := (List.range 128).map fun n => (n, 0x200 + 0x10 * n)

/-- A rule on the connections. -/
def connRule (o : Nat) (bad : AfterEdge → Nat → Nat → Bool) : CommitRule :=
  { chapter := .saf, names := [.saf], bad := fun v => (connOffs.filter fun e => bad v e.1 e.2).map fun e => (Blk.saf, e.2 + o) }

/-- ADDR lies within the range of its CHAN (R491). -/
def addrOk (w : Word) : Bool :=
  match fld w 30 29 with
  | 2 => decide (fld w 7 0 ≤ 3)
  | 3 => !outside 1 254 (fld w 7 0)
  | _ => fld w 7 0 == 0

/-- KIND fits the port type of R83 on the Nepel link. -/
def kindFits (n : Nat) (w : Word) : Bool := fld w 28 27 == (if n < 32 then 0 else 1)

/-- Each bit of TRIG_SI, and RESET_SI, name an enabled pair of the right KIND (R493). -/
def zonePairsOk (v : AfterEdge) (z : Nat) : Bool :=
  let si (n : Nat) (kind : Bool) : Bool := bitAt (v .saf (4 * n)) 31 && bitAt (v .saf (4 * n)) 30 == kind
  si (fld (v .saf (0x80 + 0x10 * z)) 23 20) true &&
    (List.range 16).all fun n => !bitAt (v .saf (0x84 + 0x10 * z)) n || si n false

/-- R488 to R493.
(DEDUCED, unsafe: log 93.) -/
def safRules (s : State) : List CommitRule :=
  [ownRule .saf (stepsFrom 0 4 16) fun v o => outside 1 20 (fld (v .saf o) 23 16) || outside 1 1000 (fld (v .saf o) 15 0),
   ownRule .saf (stepsFrom 0x40 4 8) fun v o => outside 10 50 (fld (v .saf o) 15 8) || outside 1 50 (fld (v .saf o) 7 0),
   ownRule .saf (stepsFrom 0x80 0x10 8) fun v o => outside 10 250 (fld (v .saf o) 19 12),
   connRule 0 fun v _ o => fld (v .saf o) 28 27 == 3 || outside 1 100 (fld (v .saf o) 15 8) || !addrOk (v .saf o),
   connRule 8 fun v _ o => outside 5 1000 (fld (v .saf (o + 8)) 31 16),
   connRule 0 fun v n o => bitAt (v .saf o) 31 && fld (v .saf o) 30 29 == 0 && (decide (79 < n) || !kindFits n (v .saf o)),
   connRule 0 fun v n o => bitAt (v .saf o) 31 && fld (v .saf o) 30 29 != 0 && decide (n < 80),
   connRule 8 fun v _ o => fld (v .saf o) 30 29 != 0 && decide (fld (v .saf (o + 8)) 31 16 < 3 * fld (v .saf o) 15 8),
   connRule 4 fun v n o => bitAt (v .saf o) 31 && (v .saf (o + 4) == 0 ||
     connOffs.any fun e => e.1 != n && bitAt (v .saf e.2) 31 && v .saf (e.2 + 4) == v .saf (o + 4)),
   { chapter := .saf, names := [.saf],
     bad := fun v => ((List.range 8).filter fun z => bitAt (v .saf (0x80 + 0x10 * z)) 31 && !zonePairsOk v z).map fun z => (Blk.saf, 0x80 + 0x10 * z) },
   { chapter := .saf, names := [.saf], code := 0x0D01,
     bad := fun _ => ((List.range 8).filter fun z => let st := (look {} s.saf.zones z).st
                                                     st != 0 && st != 3).map fun z => (Blk.saf, 0x80 + 0x10 * z) },
   { chapter := .rms, names := [.saf],
     bad := fun v => (connOffs.filter fun e =>
       bitAt (v .saf e.2) 31 && fld (v .saf e.2) 30 29 == 3 && !s.meshConnOk (v .saf) e.1).map fun e => (Blk.saf, e.2) }]

/-- The offsets of the exchange records with EN 1 (R557). -/
def recsOn (v : AfterEdge) : List Nat := (stepsFrom 0x100 0x20 8).filter fun o => bitAt (v .iox o) 7

/-- R560. -/
def ioxRules : List CommitRule :=
  [{ chapter := .iox, names := [.iox], bad := fun v => failing .iox (recsOn v) fun o => !bitAt (v .iox 0) (fld (v .iox o) 1 0) },
   { chapter := .iox, names := [.iox],
     bad := fun v => failing .iox (recsOn v) fun o => (recsOn v).any fun p => decide (p < o) &&
       fld (v .iox p) 1 0 == fld (v .iox o) 1 0 && (v .iox (p + 4) == v .iox (o + 4) || v .iox (p + 0x14) == v .iox (o + 0x14)) },
   { chapter := .iox, names := [.iox], bad := fun v => failing .iox (recsOn v) fun o => outside 1 100 (fld (v .iox o) 15 8) },
   { chapter := .iox, names := [.iox, .saf],
     bad := fun v => (connOffs.filter fun e => bitAt (v .saf e.2) 31 && fld (v .saf e.2) 30 29 == 2 && !bitAt (v .iox 0) (fld (v .saf e.2) 1 0)).flatMap
       fun e => [(Blk.iox, 0), (Blk.saf, e.2)] }]

/-- R624: a peer with address 0 is none, so that clause never fails.
(DEDUCED, unsafe: log 93.) -/
def updRules (s : State) : List CommitRule :=
  [ownRule .upd [0] fun v o => outside 60 86400 (fld (v .upd o) 16 0),
   ownRule .upd [4] fun v o => v .upd o != 0xFFFFFFFF && !(s.keyUsable (v .upd o).toNat &&
     match s.keyE (v .upd o).toNat with
     | some e => e.typ == 0x13 && e.eng.testBit 7
     | none => false)]

/-- Every consistency rule, chapter by chapter. -/
def commitRules (s : State) (h : Half) : List CommitRule :=
  tckRules ++ twnRules s h ++ nlkRules ++ clnRules s h ++ pstRules s h ++ cnpRules s h ++ thmRules ++ vehRules ++ metRules s ++ bilRules
    ++ lktRules s ++ safRules s ++ updRules s ++ ioxRules

/-! ### Judging an edge (R653) -/

/-- The half whose number a block's words stand under. -/
def keyHalf (b : Blk) (h : Half) : Half := if perHalf b then h else .A

/-- A word as a commit leaves it: its RWS bits take the snapshot's (R8). -/
def mergeWord (s : State) (b : Blk) (h : Half) (off : Nat) (w : Word) : Word :=
  let m := BitVec.ofNat 32 (regInfo b h off).rws
  (s.rg b h off &&& ~~~ m) ||| (w &&& m)

/-- The words after an edge at which the blocks `bs` take effect (R653). -/
def afterEdge (s : State) (h : Half) (bs : List Blk) : AfterEdge := fun b off =>
  if b ∈ bs then
    match (s.blk b h).snap with
    | some l =>
      match l.find? (fun e => e.1 == off) with
      | some e => mergeWord s b h off e.2
      | none => s.rg b h off
    | none => s.rg b h off
  else s.rg b h off

/-- A refused block: its status and the offset of its first failing field (R24). -/
structure Refused where
  blk : Blk
  code : Nat
  off : Nat
  lanes : Nat := 0
  slot : Nat := 0
  deriving DecidableEq, Repr

/-- How a block fares against the rules that fail on the blocks `bs`: the first in its own chapter's order, else of another chapter. -/
def judgeBlk (s : State) (h : Half) (bs : List Blk) (failed : List (CommitRule × List (Blk × Nat))) (b : Blk) : Option Refused :=
  let mine := failed.filter fun f => b ∈ f.1.names
  match (mine.filter fun f => f.1.chapter == b) ++ (mine.filter fun f => f.1.chapter != b) with
  | [] => none
  | f :: _ =>
    let off := ((f.2.find? fun e => e.1 == b).map (·.2)).getD 0
    let blame := if b = .cln then clnBlame s h (afterEdge s h bs) else (0, 0)
    some { blk := b, code := f.1.code, off := off, lanes := blame.1, slot := blame.2 }

/-- One round of R653: the blocks of `bs` that fail. -/
def judgeRound (s : State) (h : Half) (rules : List CommitRule) (bs : List Blk) : List Refused :=
  let v := afterEdge s h bs
  let failed := (rules.filter fun r => r.names.any fun b => decide (b ∈ bs)).filterMap fun r =>
    let bad := r.bad v
    if bad.isEmpty then none else some (r, bad)
  bs.filterMap (judgeBlk s h bs failed)

/-- The rounds of R653, at most `n`: the blocks that take effect and the blocks refused. -/
def judge (s : State) (h : Half) (rules : List CommitRule) : Nat → List Blk → List Blk × List Refused
  | 0, bs => (bs, [])
  | n + 1, bs =>
    let f := judgeRound s h rules bs
    if f.isEmpty then (bs, [])
    else
      let r := judge s h rules n (bs.filter fun b => !f.any fun x => x.blk == b)
      (r.1, f ++ r.2)

end Sys2Proof.Machine
end

