-- ==== Sys2Proof/Machine/TickEdge.lean ====
section
/-!
DEFINITION. The tick edge of a half (R58): the staging swap, the commits that take effect or are refused, what a commit does to its block, the
time step, what the edge counts.
-/

namespace Sys2Proof.Machine

/-! ### What a commit does to its block -/

/-- Class and block number of a commit block (R520, R522, R561). -/
def blkClass : Blk → Nat × Nat
  | .tck => (0x01, 0)
  | .mbx => (0x01, 1)
  | .twn => (0x03, 0)
  | .nlk => (0x04, 0)
  | .cln => (0x05, 0)
  | .pst => (0x06, 0)
  | .cnp => (0x07, 0)
  | .thm => (0x08, 0)
  | .veh => (0x09, 0)
  | .met => (0x0A, 0)
  | .bil => (0x0B, 0)
  | .lkt => (0x0C, 0)
  | .saf => (0x0D, 0)
  | .upd => (0x0E, 0)
  | .iox => (0x0F, 0)
  | .can | .gpio | .pwr => (0x0F, 1)
  | .lsw => (0x0F, 2)
  | .rms => (0x0F, 3)
  | .loc => (0x00, 0)

/-- The words a block had before the edge. -/
abbrev OldWords := Nat → Word

/-- The ports whose NLK_CFG or NLK_RID a NLK_ commit writes: the snapshot holds the word, and its shadow was written since the last evaluated commit (R123). -/
def portsWritten (s : State) (h : Half) (b : Blk) (snap : List (Nat × Word)) : List Nat :=
  if b = .nlk then
    (List.range 80).filter fun p => snap.any (fun e => e.1 == 0x40 * p || e.1 == 0x40 * p + 4) && (s.port h p).wrote % 2 == 1
  else []

/-- A port after a NLK_ commit that wrote the ports `wr` (R88, R123).
(DESIGN CHOICE, unsafe: log 94.) -/
def portCommit (h : Half) (old : OldWords) (wr : List Nat) (s : State) (p : Nat) : State :=
  let a := old (0x40 * p)
  let b := s.nlkCfg h p
  let q := s.port h p
  let wrote := decide (p ∈ wr)
  let s := s.mPort h p fun q => { q with wrote := q.wrote / 2 }
  if !bitAt b 31 then (s.mPort h p fun q => { q with joinSent := none, rejoinDue := none }).setPstate h p 0 0
  else if q.pstate = 5 then (if wrote then s.setPstate h p (if q.sync then 1 else 0) 0 else s)
  else if q.pstate = 0 then (if q.sync then s.setPstate h p 1 1 else s)
  else if q.pstate = 4 && fld a 30 20 != fld b 30 20 then
    if s.charge = some h then s.mPort h p fun q => { q with rejoinDue := some (s.tick h) }
    else (s.mPort h p fun q => { q with joinSent := none }).setPstate h p 3 0
  else s

/-- The other side of a port that waits since tick `t` is back in SERVICE (R123); while the twin link is dead it takes no part in the commit.
(DESIGN CHOICE, unsafe: log 94.) -/
def otherBack (s : State) (h : Half) (p t : Nat) : Bool :=
  (s.port (other h) p).pstate == 4 && (decide (t < (s.port (other h) p).svcFrom) || !s.twinUp h)

/-- A port of the half in charge leaves SERVICE once the other side is back in it (R123).
(DESIGN CHOICE, unsafe: log 94.) -/
def rejoinPort (h : Half) (s : State) (p : Nat) : State :=
  if (match (s.port h p).rejoinDue with | some t => otherBack s h p t || s.charge != some h | none => false) then
    (s.mPort h p fun q => { q with rejoinDue := none, joinSent := none }).setPstate h p (if (s.port h p).pstate = 4 then 3 else (s.port h p).pstate) 0
  else s

/-- What became of a lane at a CLN_ commit, the first row of R194 that applies: 0 parameters only, 1 stopped, 2 initialized, 3 slot range changed. -/
def laneChange (s : State) (h : Half) (old : OldWords) (l : Nat) : Nat :=
  let a := old (0x20 * l)
  let b := s.lcfg0 h l
  if bitAt a 31 && !bitAt b 31 then 1
  else if !bitAt b 31 then 0
  else if !bitAt a 31 || fld a 15 0 != fld b 15 0 || bitAt b 30 then 2
  else if fld (old (0x20 * l + 4)) 26 16 != fld (s.lcfg1 h l) 26 16 || fld (old (0x20 * l + 4)) 6 0 != fld (s.lcfg1 h l) 6 0 then 3
  else 0

/-- A slot is in the range that starts at `base` with `cnt` slots. -/
def inRange (base cnt i : Nat) : Bool := decide (base ≤ i ∧ i < base + cnt)

/-- The slots of an enabled lane after a CLN_ commit (R194). -/
def laneSlots (s : State) (h : Half) (old : OldWords) (l : Nat) : List (Nat × Lw) :=
  let base := fld (s.lcfg1 h l) 26 16
  let cnt := fld (s.lcfg1 h l) 6 0
  let init := match s.image h (fld (s.lcfg0 h l) 15 0) with | some im => im.resultInit | none => []
  let kept (i : Nat) : Bool := laneChange s h old l != 2 && inRange (fld (old (0x20 * l + 4)) 26 16) (fld (old (0x20 * l + 4)) 6 0) i
  (List.range cnt).map fun i =>
    (base + i, if kept (base + i) then look 0 (s.hf h).cln.slots (base + i) else BitVec.ofNat 16 (init.getD i 0))

/-- A lane whose image is taken anew starts from its initial state memory (R188, R194, R195); one switched off stops. -/
def laneRenew (h : Half) (old : OldWords) (s : State) (l : Nat) : State :=
  let ch := laneChange s h old l
  if ch = 2 then
    let init := match s.image h (fld (s.lcfg0 h l) 15 0) with | some im => im.stateInit | none => []
    let mem : Tab Lw := (init.zipIdx).foldl (fun t e => put 0 t e.2 (BitVec.ofNat 16 e.1)) []
    let s := s.mLane h l fun x => { x with mem := mem, line := [], firstDue := true }
    let s := (List.range 8).foldl (fun s b => s.mLoop h l b fun x => x.renewed (s.tick h)) s
    match s.seqCab h l with
    | some c => s.mSeq h c fun q => { q with groups := [], line := [] }
    | none => s
  else if ch = 1 then s.mLane h l fun x => { x with run := false, line := [] }
  else s

/-- REINIT reads 0 again in the shadow. -/
def reinitShadow (s : State) (h : Half) (l : Nat) : State :=
  { s with shadow := s.shadow.map fun e => if e.1 = regKey .cln h (0x20 * l) then (e.1, e.2.map fun w => setFld w 30 30 0) else e }

/-- One lane at a CLN_ commit; REINIT has acted. -/
def laneCommit (h : Half) (old : OldWords) (s : State) (l : Nat) : State :=
  let s := laneRenew h old s l
  if bitAt (s.lcfg0 h l) 30 then reinitShadow (s.srf .cln h (0x20 * l) 30 30 0) h l else s

/-- The lanes after a CLN_ commit (R194, R195); REINIT returns to 0 in force and in the shadow (R188). -/
def lanesCommit (s : State) (h : Half) (old : OldWords) : State :=
  let on := (List.range 60).filter fun l => bitAt (s.lcfg0 h l) 31
  let slots : Tab Lw := (on.flatMap (laneSlots s h old)).foldl (fun t e => put 0 t e.1 e.2) []
  (List.range 60).foldl (laneCommit h old) (s.mCln h fun c => { c with slots := slots })

/-- The sequence number a loop command's words carry after an edge (R213). -/
def seqWord (s : State) (h : Half) (c : LoopCmd) : Nat :=
  s.param h c.lane (0x20 * c.blk + (if c.opc = 0x0510 then 0x01 else if c.opc = 0x0512 then 0x0B else 0x15))

/-- Two loop commands ask for the same ramp, or injection, of one block. -/
def sameRamp (a b : LoopCmd) : Bool := a.opc == b.opc && a.lane == b.lane && a.blk == b.blk

/-- A loop command ends. -/
def endLoopCmd (s : State) (h : Half) (c : LoopCmd) (status : Nat) : State :=
  (s.mCln h fun x => { x with cmds := x.cmds.filter fun d => !sameCmd d.org c.org }).complete c.org h c.opc status true
    (le 2 c.seq ++ [0, 0] ++ le 8 (s.tick h))

/-- The commands in order up to and including the first that satisfies `p`; none where no command does. -/
def uptoFirst (p : LoopCmd → Bool) : List LoopCmd → List LoopCmd
  | [] => []
  | c :: t =>
    if p c then [c]
    else
      let r := uptoFirst p t
      if r.isEmpty then [] else c :: r

/-- The loop commands whose words a snapshot holds: those of one ramp up to the one whose sequence it carries.
(DESIGN CHOICE, unsafe: log 24.) -/
def cmdsIn (cmds : List LoopCmd) (seqOf : LoopCmd → Nat) : List LoopCmd :=
  cmds.filter fun c => !c.live &&
    ((uptoFirst (fun d => d.seq == seqOf d) (cmds.filter fun d => !d.live && sameRamp c d)).any fun d => sameCmd d.org c.org)

/-- Loop commands at an applied CLN_ commit (R222, R230): the last of a ramp takes effect, the earlier ones are superseded; a command
whose block has ceased to exist ends with ST_CLN_NO_BLOCK. -/
def loopsCommit (s : State) (h : Half) : State :=
  let cmds := (s.hf h).cln.cmds
  let news := cmdsIn cmds (seqWord s h)
  let isNew (c : LoopCmd) : Bool := news.any fun d => sameCmd d.org c.org
  let last (c : LoopCmd) : Bool := isNew c && c.seq == seqWord s h c
  let superseded (c : LoopCmd) : Bool :=
    news.any (sameRamp c) && !last c && (isNew c || (c.live && c.opc != 0x0513))
  let s := (cmds.filter superseded).foldl (fun s c => endLoopCmd s h c stSuperseded) s
  let s := s.mCln h fun x => { x with cmds := x.cmds.map fun c => if last c then { c with live := true } else c }
  let gone (c : LoopCmd) : Bool := !blockThere s h c.lane c.blk
  ((s.hf h).cln.cmds.filter gone).foldl (fun s c => endLoopCmd s h c 0x0506) s

/-- The source byte of a sealed word (R364, R384); a free value where the word belongs to no source. -/
def sealedSrc (s : State) (b : Blk) (off : Nat) : Nat :=
  if b = .met ∧ off < 0x300 then off / 0x10
  else if b = .met ∧ 0x400 ≤ off ∧ off < 0x4E0 then 0x40 + (off - 0x400) / 0x70
  else if b = .met ∧ (off = 0x500 ∨ off = 0x510) then 0x40 + (off - 0x500) / 0x10
  else s.freeVal 0 % 256

/-- The records of the sealed words a commit changed (R363, R457).
(DEDUCED, unsafe: log 92.) -/
def sealedRecords (s : State) (b : Blk) (offs : List Nat) (old : OldWords) : State :=
  offs.foldl (fun s off =>
    if old off = s.rg b .A off then s
    else (s.sealedLog 0x10 (sealedSrc s b off) off (old off).toNat (s.rg b .A off).toNat).drew 1) s

/-- The safety island after a SAF_ commit (R488-R493): what is newly enabled starts anew, the commit is logged, filters follow (R543). -/
def safCommit (s : State) (old : OldWords) : State :=
  let on (off : Nat) : Bool := !bitAt (old off) 31 && s.rb .saf .A off 31
  let ins := (List.range 16).foldl (fun t n => if on (4 * n) then put {} t n (startPair s.now) else t) s.saf.ins
  let conns := (List.range 128).foldl (fun t n => if on (0x200 + 0x10 * n) then put {} t n {} else t) s.saf.conns
  let zones := (List.range 8).foldl (fun t z => if s.rb .saf .A (0x80 + 0x10 * z) 31 then t else put {} t z { since := s.now }) s.saf.zones
  { s with saf := { s.saf with ins := ins, conns := conns, zones := zones } }.safLog 0x47 0

/-- The filters of every firmware-owned controller (R543). -/
def State.setAllFilters (s : State) : State :=
  (List.range 4).foldl (fun s n => if s.rb .iox .A 0 n then s.setFilters n else s) s

/-- With PTP_EN 0 the half runs on its reference alone (R80): FREQ and PHASE are 0, and a half that disciplines itself runs at RATE 0.
(DEDUCED, unsafe: log 105.) -/
def tckCommit (s : State) (h : Half) : State :=
  if s.rb .tck h 0 30 then s
  else
    let own := s.charge == some h || s.noService || !s.twinUp h
    s.mTck h fun t =>
      { t with master := false, disc := false, freq := 0, phase := 0, autoWait := false, rate := if own then 0 else t.rate,
               tstate := if own then 0 else t.tstate }

/-- What a commit of block `b` that has taken effect does besides. -/
def blockEffect (s : State) (h : Half) (b : Blk) (old : OldWords) (wr : List Nat) : State :=
  match b with
  | .tck => tckCommit s h
  | .nlk => (List.range 80).foldl (portCommit h old wr) s
  | .cln => loopsCommit (lanesCommit s h old) h
  | .pst => s.pstClears h true
  | .cnp => s.poleClears h true
  | .thm => s.thmCommit h old
  | .met => (sealedRecords s .met sealedOffs old).metCommit old
  | .lkt => sealedRecords s .lkt sealedFuncs old
  | .bil => sealedRecords s .bil [0] old
  | .saf => (safCommit s old).setAllFilters
  | .iox => s.setAllFilters
  | _ => s

/-! ### Applying and refusing -/

/-- The words of a snapshot come into force (R23). -/
def forceWords (s : State) (h : Half) (b : Blk) (snap : List (Nat × Word)) : State :=
  snap.foldl (fun t e => t.srg b h e.1 (mergeWord s b h e.1 e.2)) s

/-- The words of a host's snapshot come into force, and leave the shadow unless they have been written again (R21, R23). -/
def putWords (s : State) (h : Half) (b : Blk) (snap : List (Nat × Word)) : State :=
  let s1 := forceWords s h b snap
  { s1 with shadow := s1.shadow.filter fun e => !snap.any fun w => e.1 == regKey b h w.1 && e.2 == some w.2 }

/-- The index of the configuration point of a register word (R39, R654).
(DESIGN CHOICE, unsafe: log 17.) -/
def cfgIndex (b : Blk) (off : Nat) : Nat := 0x01A00000 + 0x10000 * blkIdx b + off / 4

/-- The configuration points of the words a commit set are written at its edge (R39, R654): in each half at its own edge, for a block held once by the half in
charge and its mirror.
(DESIGN CHOICE, unsafe: log 17.) -/
def cfgPoints (s : State) (h : Half) (b : Blk) (snap : List (Nat × Word)) : State :=
  snap.foldl (fun t e =>
    let v : PVal := .int ((t.rg b h e.1).toNat : Nat)
    if perHalf b then t.writePoint h (cfgIndex b e.1) 14 5 v false else t.ownerWrite (cfgIndex b e.1) 14 5 v) s

/-- The dynamic part of a block after its commit's evaluation. -/
def BlockDyn.evaluated (d : BlockDyn) (applied : Bool) (status tick : Nat) : BlockDyn :=
  { d with st := if applied then 2 else 3, last := status, tick := tick % 2 ^ 32, snap := none, roles := [], waiters := [], locked := d.locked || applied }

/-- The dynamic part of a block after a planner commit of it (R301, R652): a command that has armed it since waits on. -/
def BlockDyn.planned (d : BlockDyn) (applied : Bool) (status tick : Nat) : BlockDyn :=
  { d with st := if !d.roles.isEmpty then 1 else if applied then 2 else 3, last := status, tick := tick % 2 ^ 32, snap := none }

/-- The commands that waited on an evaluation complete with its status and its edge (R26). -/
def answerWaiters (s : State) (h : Half) (ws : List Waiter) (status : Nat) : State :=
  ws.foldl (fun s w => s.complete w.org h w.opc status true (le 8 (s.tick h))) s

/-- A block takes effect at the edge of half `h` (R23). -/
def applyBlk (h : Half) (s : State) (b : Blk) : State :=
  let d := s.blk b h
  let snap := d.snap.getD []
  let old := s.rg b h
  let wr := portsWritten s h b snap
  let s := cfgPoints (putWords s h b snap) h b snap
  let s := s.mBlk b h fun d => d.evaluated true 0 (s.tick h)
  let s := s.mCln h fun c => if b = .cln then { c with loopWrote := c.loopWrote.filter fun o => (look none s.shadow (regKey .cln h o)).isSome } else c
  answerWaiters (blockEffect s h b old wr) h d.waiters 0

/-- A block takes effect for the planner: only its words change, and no pending shadow value (R301). -/
def applyPlanned (h : Half) (s : State) (b : Blk) : State :=
  let snap := (s.blk b h).snap.getD []
  (cfgPoints (forceWords s h b snap) h b snap).mBlk b h fun d => d.planned true 0 (s.tick h)

/-- Event 0x0003 of a refused block, raised by the half that carries the commit (R24, R528). -/
def refusedEv (s : State) (h : Half) (r : Refused) : State :=
  let cb := blkClass r.blk
  if s.charge = some h ∨ s.charge = none then
    s.ev h 1 0x0003 ([cb.1, cb.2] ++ le 2 r.code ++ le 2 (r.off % 2 ^ 16) ++ le 2 r.slot ++ le 8 r.lanes) else s

/-- A block is refused at the edge of half `h` (R24). -/
def refuseBlk (h : Half) (s : State) (r : Refused) : State :=
  let d := s.blk r.blk h
  let s := s.mBlk r.blk h fun d => d.evaluated false r.code (s.tick h)
  let s := match r.blk with
    | .nlk => (List.range 80).foldl (fun s p => s.mPort h p fun q => { q with wrote := q.wrote / 2 }) s
    | .pst => s.pstClears h false
    | .cnp => s.poleClears h false
    | _ => s
  answerWaiters (refusedEv s h r) h d.waiters r.code

/-- A planner commit of a block is refused (R24, R301). -/
def refusePlanned (h : Half) (s : State) (r : Refused) : State :=
  refusedEv (s.mBlk r.blk h fun d => d.planned false r.code (s.tick h)) h r

/-- The generation rises by `n` (R141); each half keeps its image in flash with it. -/
def State.genUp (s : State) (h : Half) (n : Nat) : State :=
  if n = 0 then s
  else
    let img := cfgImage s h
    let s := s.mTwn h fun t => { t with gen := (t.gen + n) % 2 ^ 32, img := img }
    if s.charge = some h then { s with ref := { s.ref with gen := (s.hf h).twn.gen } } else s

/-- While the twin link is dead the half in charge relays each committed snapshot (R141). -/
def State.relayOut (s : State) (h : Half) (snaps : List RelayC) : State :=
  if s.charge = some h && !s.twinUp h then s.mTwn (other h) fun t => { t with relay := t.relay ++ snaps } else s

/-- The blocks whose commit half `h` evaluates at its edge: those with a snapshot; a block of an island or of the shared domain at the edge of the half
in charge.
(DESIGN CHOICE, unsafe: log 90.) -/
def blksDue (s : State) (h : Half) : List Blk :=
  commitBlks.filter fun b => (s.blk b h).snap.isSome && (perHalf b || s.charge == some h || (s.charge == none && h == .A))

/-- The snapshots of planner commits: the values in force with the planner's fields replaced (R301). -/
def planSnaps (s : State) (h : Half) (ps : List PlanC) (bs : List Blk) : State :=
  bs.foldl (fun s b => s.mBlk b h fun d => { d with snap := some (planWords s h ps b) }) s

/-- The commits of the edge, the host's and the planner's (R22-R24, R301, R653). -/
def runCommits (s : State) (h : Half) : State :=
  let due := blksDue s h
  let host := due.any fun b => b == .cnp || b == .pst || b == .cln
  let plans := if host then [] else (s.hf h).cnp.plans
  let pblks := [Blk.cln, Blk.pst, Blk.cnp].filter fun b => plans.any fun p => decide (b ∈ p.blks)
  let s := planSnaps s h plans pblks
  let all := due ++ pblks
  let r := if all.isEmpty then (([] : List Blk), ([] : List Refused)) else judge s h (commitRules s h) 15 all
  let relays := r.1.map fun b =>
    let snap := ((s.blk b h).snap).getD []
    { blk := blkIdx b, words := snap, wrote := portsWritten s h b snap : RelayC }
  let s := r.1.foldl (fun s b => if b ∈ pblks then applyPlanned h s b else applyBlk h s b) s
  let s := r.2.foldl (fun s x => if x.blk ∈ pblks then refusePlanned h s x else refuseBlk h s x) s
  let s := if s.twinUp h then s.genUp (other h) (r.1.filter fun b => !perHalf b).length else s
  ((s.planEdge h host (r.2.map (·.blk))).genUp h r.1.length).relayOut h relays

/-- A relayed snapshot is applied (R141); of a block held once the registers already hold it, and only the generation follows. -/
def relayOne (h : Half) (s : State) (e : RelayC) : State :=
  match commitBlks.find? fun b => blkIdx b == e.blk with
  | none => s
  | some b =>
    if perHalf b then
      let old := s.rg b h
      blockEffect (cfgPoints (putWords s h b e.words) h b e.words) h b old e.wrote
    else s

/-- The relayed snapshots that have arrived are applied at the first edge (R141). -/
def applyRelay (s : State) (h : Half) : State :=
  let t := (s.hf h).twn
  let n := t.relayReady
  if n = 0 then s
  else
    let s := (t.relay.take n).foldl (relayOne h) s
    (s.mTwn h fun t => { t with relay := t.relay.drop n, relayReady := 0 }).genUp h n

/-! ### Staging (R17-R19) -/

/-- The banks swap: what was written before the edge becomes visible; an entry written again sheds its fail value (R19). -/
def swapStage (h : Half) (s : State) (e : Nat × StageE) : State :=
  match e.2.pend with
  | none => s
  | some v =>
    let s := s.mh h fun x => { x with stg := Machine.upd {} x.stg e.1 fun y =>
      { y with val := v, stamp := y.pendStamp, written := true, stale := false, pend := none } }
    if e.2.stale then stageEv s h e.1 false else s

/-! ### The edge -/

/-- The increment of the accumulator in one lane-clock cycle, in units of 2^-33 ns (R56). -/
def accStep (rate : Int) : Nat := (5 * (2 ^ 32 + rate)).toNat

/-- The accumulator on the first cycle at which it reaches tick `n` (R56, R58). -/
def accAt (acc : Nat) (rate : Int) (n : Nat) : Nat :=
  let goal := n * 50000 * 2 ^ 33
  acc + (goal - acc + accStep rate - 1) / accStep rate * accStep rate

/-- The billing of a tick (R397, R400, R405, R449): run at the edges of the half in charge. -/
def billingTick (s : State) : State :=
  let s := s.mCore fun c => { c with ints := [0, 1].foldl (fun t i => if s.srcEn (0x40 + i) then Machine.upd {} t i fun x => { x with ticks := x.ticks + 1 } else t) c.ints }
  let s := if s.now % 20000 = 0 && !s.bil.unknown then s.mCore fun c => { c with lastUtc := s.utc } else s
  let s := s.signHeld
  if s.now % 20 = 0 then s.refreshBilling else s

/-- The tick number of the new tick, and the step whose edge it is (R58-R60). -/
def newTick (t : TckS) : Nat × Option StepReq :=
  match t.step with
  | some r => (t.tick + 1, if r.edge ≤ t.tick + 1 then some r else none)
  | none => (t.tick + 1, none)

/-- A step is carried out at the edge of tick `before`, if every contactor is open (R59): the tick number jumps and the edges keep their cadence; it is logged,
billed once, and its command completes (R60, R410, R521); the age of a held frame counts ticks (R175) and the timers count on (R541). Otherwise the command is refused and an automatic step waits on.
(DESIGN CHOICE, unsafe: log 122.) -/
def stepEdge (s : State) (h : Half) (before : Nat) (r : StepReq) : State :=
  if contactorsOpen s h then
    let now := ((before : Int) + r.ticks).toNat
    let shift (f : Option UpFrame) : Option UpFrame := f.map fun u => { u with tick := ((u.tick : Int) + r.ticks).toNat }
    let move (due : Nat) : Nat := if due = 0 then 0 else ((due : Int) + 5000 * r.ticks).toNat
    let s := s.mh h fun x => { x with tmr := x.tmr.map fun e => (e.1, move e.2) }
    let s := s.mh h fun x => { x with ports := x.ports.map fun e => (e.1, { e.2 with main := shift e.2.main, harv := shift e.2.harv }) }
    let s := s.mTck h fun t =>
      { t with step := none, tick := now, acc := ((t.acc : Int) + r.ticks * 50000 * 2 ^ 33).toNat, theta := t.theta + r.ticks * 50000, autoWait := false,
               freqTick := ((t.freqTick : Int) + r.ticks).toNat,
               stepLog := t.stepLog ++ [(before, now)] }
    if s.charge = some h then
      let s := s.ev h 1 0x0102 (le 8 before ++ le 8 now)
      let s := s.billingStep ((before / 20000 : Nat) - (s.bil.tai : Int)) ((now / 20000 : Nat) - (s.bil.tai : Int))
      match r.org with
      | some o => s.complete o h 0x0101 stOk true (le 8 before)
      | none => s
    else s
  else
    let s := s.mTck h fun t => { t with step := none, autoWait := r.org.isNone }
    match r.org with
    | some o => if s.charge = some h then s.complete o h 0x0101 0x0101 true [] else s
    | none => s

/-- Half `h` sends tick frames in this tick. -/
def State.sentNow (s : State) (h : Half) : State := { s with ref := { s.ref with sent := some (s.tick h), mute := s.ref.mute.filter (· ≠ h) } }

/-- A half whose rejoin is complete enters tick service with the tick after (R134, R146); a half in service raises its alive signal and sends in this tick (R132,
R133). -/
def enterService (s : State) (h : Half) : State :=
  let on := (s.hf h).twn.service || (s.hf h).twn.svcNext
  let s := s.mTwn h fun t => { t with service := on, svcNext := false }
  if on then s.sentNow h else s

/-- A perturbation armed starts (R163). -/
def startPert (s : State) (h : Half) : State :=
  if (s.hf h).twn.pertArmed then s.mTwn h fun t => { t with pertArmed := false, pertActive := true, pertStart := s.tick h } else s

/-- The echo counts of the tick that has ended (R137, R161). -/
def echoCounts (s : State) (h : Half) : State :=
  let t := (s.hf h).twn
  (s.srg .twn h 0x14 (BitVec.ofNat 32 (t.outranked % 2 ^ 16 * 2 ^ 16 + t.obeyed % 2 ^ 16))).mTwn h fun t => { t with outranked := 0, obeyed := 0 }

/-- The points of class 0x04 are saved in flash each 1 s (R39). -/
def savePoints (s : State) (h : Half) : State :=
  if s.tick h % 20000 = 0 then
    let l := (s.hf h).pts.filter fun e => classOf e.1 == some 4
    (s.flashWrite h (128 * l.length)).mh h fun x => { x with saved := l }
  else s

/-- The power block measures both feeds and VBAT anew (R156, R641): free values.
(DESIGN CHOICE, safe: log 69.) -/
def measureVolts (s : State) : State :=
  ((s.srf .pwr .A 0 31 10 (s.freeVal 0)).srf .pwr .A 8 7 0 (s.freeVal 1)).drew 2

/-- The RTC counts on: 1.6384 counts of 1/32,768 s in a tick, one or two of its own (R61).
(DESIGN CHOICE, unsafe: log 106.) -/
def rtcCount (s : State) : State := { s with rtc := s.rtc + 1 + s.freeVal 0 % 2 }.drew 1

/-- What the half in charge, or the device while none is, does at an edge of its own. -/
def chargeEdge (s : State) (h : Half) : State :=
  let s := if s.charge = some h ∨ s.charge = none ∧ h = .A then rtcCount s else s
  if s.charge = some h then
    let s := s.srg .gpio .A 0x20 (s.rg .gpio .A 0x08)
    measureVolts (billingTick s).actTick
  else s

/-- TICK_EDGE (R58): half `h` starts its next tick.
(DESIGN CHOICE, unsafe: log 90. DESIGN CHOICE, unsafe: log 96.) -/
def execTickEdge (h : Half) (s : State) : Out :=
  let x := s.hf h
  if !x.twn.booted || x.twn.held || !x.tck.tickSet then .next s
  else
    let n := newTick x.tck
    let s := s.mTck h fun t => { t with tick := n.1, acc := accAt t.acc t.rate (t.tick + 1) }
    let s := match n.2 with
      | some r => stepEdge s h n.1 r
      | none => s
    let s := enterService s h
    let s := x.stg.foldl (swapStage h) s
    let s := ((List.range 80).foldl (rejoinPort h) s).runStores h
    let s := runCommits (applyRelay s h) h
    let s := startPert (echoCounts s h) h
    let s := savePoints ((s.opsDone h).orphanSessions h) h
    .next ((chargeEdge s h).renewHealth h)

end Sys2Proof.Machine
end

