-- ==== Sys2Proof/Machine/Registers.lean ====
section
/-!
DEFINITION. Reading and writing the register maps: what a read shows (R8), what a write does by its access code and its block, the generic verbs
(R522, R523), the writes of BAR0 and of the customer partition (R499, R530, R535) and the bit aliases (R538).
-/

namespace Sys2Proof.Machine

/-! ### What a read shows -/

/-- A word of 32 bits from a number. -/
def wordOf (n : Nat) : Word := BitVec.ofNat 32 n

/-- The commit register and the commit-tick register of a block (R20, R21). -/
def State.commitWord (s : State) (b : Blk) (h : Half) : Word := wordOf ((s.blk b h).st * 2 ^ 24 + (s.blk b h).last)
def State.commitTick (s : State) (b : Blk) (h : Half) : Word := wordOf (s.blk b h).tick

/-- Reads of TCK_STATUS, TCK_RATE and TCK_OFFSET (R81, R82). -/
def State.tckView (s : State) (h : Half) (off : Nat) : Word :=
  let t := (s.hf h).tck
  match off with
  | 0x08 =>
    let skew : Int := if s.charge = some h then 0 else clampI (-32768) 32767 t.skewNs
    wordOf (t.tstate * 2 ^ 29 + t.clksel * 2 ^ 27 + fld (s.rg .tck h 8) 26 22 * 2 ^ 22 + unle (leInt 2 skew))
  | 0x0C => BitVec.ofInt 32 t.rate
  | 0x10 => BitVec.ofInt 32 (clampI (-2147483647) 2147483647 t.theta)
  | _ => s.rg .tck h off

/-- Reads of NLK_STATUS and NLK_DELAY of a port (R125, R126). -/
def State.nlkView (s : State) (h : Half) (off : Nat) : Word :=
  let p := s.port h (off / 0x40)
  if off % 0x40 = 0x08 then wordOf (p.pstate * 2 ^ 29 + b2n p.lost * 2 ^ 28 + b2n p.echoValid * 2 ^ 27 + b2n p.keygen * 2 ^ 26 + p.echo % 2 ^ 16)
  else if off % 0x40 = 0x0C then wordOf (b2n p.valid * 2 ^ 31 + min 0xFFFF p.delay)
  else s.rg .nlk h off

/-- Reads of TWN_STATUS, the health words and TWN_PERT_CTL (R160, R163). -/
def State.twnView (s : State) (h : Half) (off : Nat) : Word :=
  let t := (s.hf h).twn
  match off with
  | 0x08 => wordOf (t.claim % 2 ^ 16 * 2 ^ 16 + t.otherClaim % 2 ^ 16)
  | 0x0C => wordOf (s.healthWord h)
  | 0x10 => wordOf t.otherHealth
  | 0x40 => setFld (s.rg .twn h 0x40) 30 30 (b2n t.pertActive)
  | _ => s.rg .twn h off

/-- PST_GSTAT as of the last snapshot (R272). -/
def State.pstView (s : State) (h : Half) (off : Nat) : Word :=
  if off < 0x2000 ∧ 0x40 ≤ off % 0x100 ∧ off % 0x100 < 0x50 then
    look 0 (s.hf h).pub.gstat (off / 0x100 * 4 + (off % 0x100 - 0x40) / 4)
  else s.rg .pst h off

/-- CNP_CHG (R307). -/
def State.cnpView (s : State) (h : Half) (off : Nat) : Word :=
  if 0x6100 ≤ off ∧ off < 0x61C0 then wordOf (s.chgWord h ((off - 0x6100) / 4)) else s.rg .cnp h off

/-- A binary32 temperature in 0.01 degrees. -/
def centi (v : Nat) : Int := roundDiv (100 * (frat v).1) (frat v).2

/-- THM_MSTAT of a model (R338). -/
def State.mstat (s : State) (h : Half) (m : Nat) : Nat :=
  let q := s.model h m
  let sens (k : Nat) : SensS := look {} q.sens k
  let broken := ((List.range 5).map fun k => b2n (sens k).broken * 2 ^ (30 - k)).sum
  b2n q.active * 2 ^ 31 + broken + b2n (sens 0).suspect * 2 ^ 25 + b2n (sens 1).suspect * 2 ^ 24 + b2n q.coolOut * 2 ^ 23
    + b2n (s.modelEn h m && q.dataPending) * 2 ^ 22 + b2n q.derated * 2 ^ 21 + q.band % 16 * 2 ^ 16
    + unle (leInt 2 (centi (fmax (q.t.getD 2 0) (q.t.getD 3 0))))

/-- Reads of THM_MSTAT, CEILING, THM_DEV and THM_DEV2 (R338, R339). -/
def State.thmView (s : State) (h : Half) (off : Nat) : Word :=
  let t := (s.hf h).thm
  if off < 0x4000 ∧ off % 0x100 = 0xC0 then wordOf (s.mstat h (off / 0x100))
  else if off < 0x4000 ∧ off % 0x100 = 0xC4 then wordOf (s.model h (off / 0x100)).staged
  else if off = 0x4000 then
    wordOf (t.step % 4 * 2 ^ 30 + b2n (decide (t.derate < 100)) * 2 ^ 29 + b2n t.flashHold * 2 ^ 28 + b2n s.therm.bntc.inhibit * 2 ^ 27
      + b2n s.therm.bntc.broken * 2 ^ 26 + b2n t.hold * 2 ^ 25 + t.derate % 256 * 2 ^ 16 + unle (leInt 2 t.tj))
  else if off = 0x4008 then wordOf (unle (leInt 2 s.therm.bntc.t) * 2 ^ 16 + min 127 (t.buf / 2 ^ 20))
  else s.rg .thm h off

/-- MET_OSTAT and MET_ISTAT (R392). -/
def State.metView (s : State) (off : Nat) : Word :=
  if 0x800 ≤ off ∧ off < 0x8C0 then wordOf (s.metStat ((off - 0x800) / 4))
  else if 0x8C0 ≤ off ∧ off < 0x8C8 then wordOf (s.metStat (0x40 + (off - 0x8C0) / 4))
  else s.metw off

/-- LKT_STATUS and COMMIT_LO (R459). -/
def State.lktView (s : State) (off : Nat) : Word :=
  if off = 0x108 then wordOf s.lktStatus else if off = 0x10C then wordOf (s.lkt.c % 2 ^ 32) else s.rg .lkt .A off

/-- SAF_ZSTAT of a zone (R495). -/
def State.zstat (s : State) (z : Nat) : Nat :=
  let x := s.zone z
  x.st % 8 * 2 ^ 29 + b2n (s.zoneEn z && s.zoneHolds z) * 2 ^ 28 + x.cause % 16 * 2 ^ 24 + x.detail % 256 * 2 ^ 16 + min 0xFFFF ((s.now - x.since) / 20)

/-- Reads of SAF_STATUS, SAF_ZSTAT and SAF_CFGCRC (R494, R495).
(DESIGN CHOICE, unsafe: log 99.) -/
def State.safView (s : State) (off : Nat) : Word :=
  if off = 0xB08 then
    let run := ((List.range 16).map fun n => b2n (bitAt (s.sw (4 * n)) 31 && (s.inPair n).run.isSome) * 2 ^ n).sum
    wordOf (b2n s.saf.safeFault * 2 ^ 31 + b2n s.saf.spOk * 2 ^ 30 + b2n s.saf.hwOk * 2 ^ 29 + fld (s.sw 0xB08) 28 22 * 2 ^ 22 + run)
  else if 0xB10 ≤ off ∧ off < 0xB30 then wordOf (s.zstat ((off - 0xB10) / 4))
  else if off = 0xB30 then wordOf (harvCrc ((List.range 0x281).flatMap fun i => le 4 (s.sw (4 * i)).toNat))
  else s.sw off

/-- MBX_RSTAT of a ring (R503). -/
def State.rstat (s : State) (h : Half) (n : Nat) : Nat :=
  let r := s.ring h n
  let count := if n < 32 then (s.ringStarted h n).length else s.rf .mbx h (ringOff n + 0x28) 15 0
  b2n r.session.isSome * 2 ^ 31 + ((s.ringRole h (n % 32)).getD 0) % 8 * 2 ^ 28 + b2n r.stalled * 2 ^ 27 + b2n (s.ringFault h n) * 2 ^ 26 + count % 2 ^ 16

/-- Reads of MBX_STATUS and MBX_RSTAT (R503). -/
def State.mbxView (s : State) (h : Half) (off : Nat) : Word :=
  if off = 4 then
    wordOf (b2n (s.commissioning h) * 2 ^ 31 + b2n (s.ref.token == some h) * 2 ^ 30 + min 0xFFFF (s.hf h).mbx.started.length)
  else if 0x1000 ≤ off ∧ off < 0x2000 ∧ off % 0x40 = 0x28 then wordOf (s.rstat h ((off - 0x1000) / 0x40))
  else s.rg .mbx h off

/-- Reads of IOX_HSTAT and the timers (R535, R541).
(DESIGN CHOICE, unsafe: log 99.) -/
def State.locView (s : State) (h : Half) (off : Nat) : Word :=
  if off = 0x10100 then wordOf (b2n (s.ref.token == some h) * 2 ^ 31 + b2n s.pwr.up * 2 ^ 30 + fld (s.rg .loc h off) 29 28 * 2 ^ 28)
  else if off < 0x40 ∧ off % 0x10 = 8 then wordOf (s.timerCount h (off / 0x10))
  else s.rg .loc h off

/-- The bits of a word that a read never shows: WO bits (R8). -/
def readMask (b : Blk) (h : Half) (off : Nat) : Word := ~~~ (wordOf (regInfo b h off).wo)

/-- A read of a register word (R7, R8). -/
def State.readWord (s : State) (b : Blk) (h : Half) (off : Nat) : Word :=
  if !(regInfo b h off).present then 0
  else if commitOff b = some off then s.commitWord b h
  else if commitOff b = some (off - 4) ∧ 4 ≤ off then s.commitTick b h
  else
    let w := match b with
      | .tck => s.tckView h off
      | .mbx => s.mbxView h off
      | .twn => s.twnView h off
      | .nlk => s.nlkView h off
      | .pst => s.pstView h off
      | .cnp => s.cnpView h off
      | .thm => s.thmView h off
      | .met => s.metView off
      | .lkt => s.lktView off
      | .saf => s.safView off
      | .loc => s.locView h off
      | .cln => s.clnView h off
      | .veh | .bil | .upd | .iox | .can | .gpio | .lsw | .rms | .pwr => s.rg b h off
    w &&& readMask b h off

/-- A shadow read (R522): shadow values of RWS fields, other fields as a read gives them. -/
def State.readShadow (s : State) (b : Blk) (h : Half) (off : Nat) : Word :=
  let m := if b = .cln && s.mirrored h off then 0 else wordOf (regInfo b h off).rws
  (s.readWord b h off &&& ~~~ m) ||| (s.shadowOf b h off &&& m)

/-! ### What a write does -/

/-- The RW and W1C bits of a word are written (R8). -/
def State.putBits (s : State) (b : Blk) (h : Half) (off : Nat) (v : Word) : State :=
  let i := regInfo b h off
  if !i.present || (i.rw == 0 && i.w1c == 0) then s
  else s.srg b h off (((s.rg b h off &&& ~~~ (wordOf i.rw)) ||| (v &&& wordOf i.rw)) &&& ~~~ (v &&& wordOf i.w1c))

/-- A write to the MBX_ registers (R499, R503). -/
def State.mbxPut (s : State) (h : Half) (off : Nat) (v : Word) : State :=
  if 0x1000 ≤ off ∧ off < 0x2000 then
    let n := (off - 0x1000) / 0x40
    match off % 0x40 with
    | 0x00 => s.writeRcfg h n v
    | 0x08 | 0x0C | 0x10 | 0x14 => if s.ringEn h n then s else s.putBits .mbx h off v
    | 0x18 => s.writeSqTail h n v.toNat
    | 0x20 => s.writeCqHead h n v.toNat
    | _ => s.putBits .mbx h off v
  else s.putBits .mbx h off v

/-- The bits of CAN_CTL a write reaches: some only while INIT is 1 (R544). -/
def canCtlMask (init : Bool) : Word := if init then 0xF4FFFF00 else 0xD0FF0000

/-- A buffer of controller `n` waits or is being sent (R548). -/
def State.txBusy (s : State) (n b : Nat) : Bool := s.tstat n b == 1 || s.tstat n b == 2

/-- A write to TXB `b` (R548). -/
def State.txPut (s : State) (n b : Nat) (v : Word) : State :=
  let s := if s.txBusy n b then s else s.putBits .can .A (0x1000 * n + txOff b) v
  let s := if bitAt v 31 then s.txRequest n b else s
  if bitAt v 30 then s.txAbort n b else s

/-- A write to a CAN controller's register (R543-R556). -/
def State.canPut (s : State) (n o : Nat) (v : Word) : State :=
  let off := 0x1000 * n + o
  let init := bitAt (s.canReg n 0) 31
  if o = 0 then
    let m := canCtlMask init
    let s := s.setCan n 0 ((s.canReg n 0 &&& ~~~ m) ||| (v &&& m))
    (if bitAt v 27 then s.boffRec n else s).canGo n
  else if o = 4 ∨ o = 8 then (if init then s.putBits .can .A off v else s)
  else if o = 0x20 ∨ o = 0x30 ∨ o = 0x40 then s.txPut n ((o - 0x20) / 0x10) v
  else if o = 0x24 ∨ o = 0x34 ∨ o = 0x44 then (if s.txBusy n ((o - 0x24) / 0x10) then s else s.putBits .can .A off v)
  else if 0x100 ≤ o ∧ o < 0x1C0 then (if s.txBusy n ((o - 0x100) / 0x40) then s else s.putBits .can .A off v)
  else if o = 0x200 then (if bitAt v 30 then s.rxRelease n else s)
  else if 0x300 ≤ o ∧ o < 0x400 then
    (if s.canOwned n && decide (32 ≤ (o - 0x300) / 8 + (s.fwFilters n).length) then s else s.putBits .can .A off v)
  else if o = 0x400 then
    let s := s.putBits .can .A off v
    let s := if bitAt v 31 then s.abrGo n else s
    if bitAt v 30 then s.abrEnd n else s
  else s.putBits .can .A off v

/-- The part of a firmware-owned controller that the partition may write: TXB2 and its data (R543). -/
def txb2Part (o : Nat) : Bool := o == 0x40 || o == 0x44 || decide (0x180 ≤ o ∧ o < 0x1C0)

/-- A write to the GPIO_ block (R539). -/
def State.gpioPut (s : State) (off : Nat) (v : Word) : State :=
  match off with
  | 0x0C => s.srg .gpio .A 4 (s.rg .gpio .A 4 ||| v)
  | 0x10 => s.srg .gpio .A 4 (s.rg .gpio .A 4 &&& ~~~ v)
  | _ => s.putBits .gpio .A off v

/-- A write to the LSW_ block (R575-R580). -/
def State.lswPut (s : State) (off : Nat) (v : Word) : State :=
  if off < 0x200 ∧ off % 0x20 = 0 then s.lswCtlWrite (off / 0x20) v else s.putBits .lsw .A off v

/-- A write to the RMS_ block (R601-R605). -/
def State.rmsPut (s : State) (off : Nat) (v : Word) : State :=
  let s := s.putBits .rms .A off v
  if off = 0x100 then (if bitAt v 31 then s.meshRequest else s)
  else if off = 0x180 then (if bitAt v 30 then s.meshRelease else s)
  else s

/-- A write to the power block (R156, R640, R641). -/
def State.pwrPut (s : State) (off : Nat) (v : Word) : State :=
  if off = 4 then (s.putBits .pwr .A 4 (setFld v 31 29 (s.rf .pwr .A 4 31 29))).powerTarget (fld v 31 29) else s.putBits .pwr .A off v

/-- A write to the half's own registers (R535, R536, R541). When within the tick EN of a timer is written is a free value, and so is whether the
source of a wide value answers. -/
def State.locPut (s : State) (h : Half) (off : Nat) (v : Word) : State :=
  if off < 0x40 ∧ off % 0x10 = 0 then
    let s := s.putBits .loc h off v
    if bitAt v 31 then (s.startTimer h (off / 0x10) (s.freeVal 0 % 5000)).drew 1 else s.mh h fun x => { x with tmr := put 0 x.tmr (off / 0x10) 0 }
  else if off = 0x10000 then (s.wideLatch h v.toNat (s.freeVal 0 % 2 == 0)).drew 1
  else if off = 0x10104 then s.srg .loc h off 0
  else s.putBits .loc h off v

/-- A write to the RW, W1C and WO bits of a word acts at once (R8). -/
def State.putDirect (s : State) (b : Blk) (h : Half) (off : Nat) (v : Word) : State :=
  match b with
  | .mbx => s.mbxPut h off v
  | .can => if off < 0x4000 then s.canPut (off / 0x1000) (off % 0x1000) v else s
  | .gpio => s.gpioPut off v
  | .lsw => s.lswPut off v
  | .rms => s.rmsPut off v
  | .pwr => s.pwrPut off v
  | .loc => s.locPut h off v
  | .tck | .twn | .nlk | .cln | .pst | .cnp | .thm | .veh | .met | .bil | .lkt | .saf | .upd | .iox => s.putBits b h off v

/-- The RWL bits of a word, until their block has been committed: a write sets them in the halves the half in charge reaches (R8).
(DESIGN CHOICE, unsafe: log 9.) -/
def State.putLocked (s : State) (b : Blk) (h : Half) (off : Nat) (v : Word) : State :=
  let m := wordOf (regInfo b h off).rwl
  if m = 0 || (s.blk b h).locked then s
  else (if perHalf b then s.reach else [.A]).foldl (fun s x => s.srg b x off ((s.rg b x off &&& ~~~ m) ||| (v &&& m))) s

/-- A shadow write to NLK_CFG or NLK_RID of a port is noted for R123. -/
def State.markPort (s : State) (b : Blk) (off : Nat) : State :=
  if b = .nlk ∧ off < 0x1400 ∧ off % 0x40 ≤ 4 then
    s.reach.foldl (fun s h => s.mPort h (off / 0x40) fun p =>
      { p with wrote := if (s.blk .nlk h).snap.isSome then (if p.wrote / 2 % 2 = 1 then p.wrote else p.wrote + 2)
                        else (if p.wrote % 2 = 1 then p.wrote else p.wrote + 1) }) s
  else s

/-- A shadow write of a word (R8, R21, R27); it is no longer a loop verb's (R222). A mirrored word ignores it (R261). -/
def State.putShadow (s : State) (b : Blk) (h : Half) (off : Nat) (v : Word) : State :=
  let m := wordOf (regInfo b h off).rws
  if m = 0 || (b == .cln && s.mirrored h off) then s
  else
    let s := (s.writeShadow b off ((s.shadowOf b h off &&& ~~~ m) ||| (v &&& m))).markPort b off
    if b = .cln then s.mh h fun x => { x with cln := { x.cln with loopWrote := x.cln.loopWrote.filter (· ≠ off) } } else s

/-- A word of a configuration write (R8, R522). -/
def State.putWord (s : State) (b : Blk) (h : Half) (off : Nat) (v : Word) : State := ((s.putShadow b h off v).putLocked b h off v).putDirect b h off v

/-! ### The generic verbs (R522, R523) -/

/-- The bytes of a block's map: an offset at or past it reaches beyond the map (R522). Class 0x0F block 1 holds CAN_, GPIO_ and the power block. -/
def mapSize : Blk → Nat
  | .tck => 0x28
  | .mbx => 0x10000
  | .twn => 0x88
  | .nlk => 0x1408
  | .cln => 0x3000C
  | .pst => 0x2108
  | .cnp => 0x61C0
  | .thm => 0x4108
  | .veh => 0x408
  | .met => 0xD00
  | .bil => 0x108
  | .lkt => 0x110
  | .saf => 0xB34
  | .upd => 0x48
  | .iox => 0x208
  | .can => 0x7100
  | .gpio => 0x100
  | .lsw => 0x1000
  | .rms => 0x1000
  | .pwr => 0x100
  | .loc => 0

/-- The block and offset of an offset of class 0x0F block 1 (R561). -/
def subBlk (b : Blk) (off : Nat) : Blk × Nat :=
  if b = .can then (if 0x7000 ≤ off then (.pwr, off - 0x7000) else if 0x4000 ≤ off then (.gpio, off - 0x4000) else (.can, off)) else (b, off)

/-- The opcode of a generic verb on a block (R522). -/
def cfgOpc (b : Blk) (verb : Nat) : Nat := (blkClass b).1 * 256 + verb

/-- The offsets of a request lie in the map (R522). -/
def inMap (b : Blk) (off count : Nat) : Bool := decide (off % 4 = 0 ∧ 1 ≤ count ∧ count ≤ 4096 ∧ off + 4 * count ≤ mapSize b)

/-- The offsets of `count` words. -/
def wordOffs (off count : Nat) : List Nat := (List.range count).map fun i => off + 4 * i

/-- A generic verb runs (R515, R522): at the receiving half for MBX_, and for a read or CNT_CLEAR (`here`) whose HALF names it; else at the half
in charge. `body` gets the executing half, the half whose registers it reaches, and the role.
(DESIGN CHOICE, unsafe: log 18.) -/
def State.cfgVerb (s : State) (o : Org) (b : Blk) (verb : Nat) (here : Bool) (roles : List Nat) (body : State → Half → Half → Nat → State) : State :=
  let opc := cfgOpc b verb
  if b = .loc then (s.start o opc 0 (some o.half)).complete o o.half opc stBadOpcode true []
  else
    let named := halfOf o.hb
    let ok := decide (o.hb = 0) || named.isSome
    if b = .mbx || (here && named == some o.half) then
      s.runAt o o.half opc roles ok fun s r =>
        let t := named.getD o.half
        if t ≠ o.half && !s.twinUp o.half then s.complete o o.half opc stNotInCharge true [] else body s o.half t r
    else
      s.verbG o opc roles ok fun s x r =>
        let t := if perHalf b then named.getD x else x
        if t ≠ x && !s.twinUp x then s.complete o x opc stNotInCharge true [] else body s x t r

/-- CFG_READ (R522): the words, as R8 gives a read.
(DESIGN CHOICE, unsafe: log 18.) -/
def execCfgRead (o : Org) (b : Blk) (off count : Nat) (s : State) : Out :=
  .next (s.cfgVerb o b 0xF0 true rNotPublic fun s x t _ =>
    if !inMap b off count then s.complete o x (cfgOpc b 0xF0) stRange true []
    else s.complete o x (cfgOpc b 0xF0) stOk true
      ((wordOffs off count).flatMap fun a => le 4 (s.readWord (subBlk b a).1 t (subBlk b a).2).toNat))

/-- CFG_SHADOW_READ (R522). -/
def execCfgShadowRead (o : Org) (b : Blk) (off count : Nat) (s : State) : Out :=
  .next (s.cfgVerb o b 0xF1 true rNotPublic fun s x t _ =>
    if !inMap b off count then s.complete o x (cfgOpc b 0xF1) stRange true []
    else s.complete o x (cfgOpc b 0xF1) stOk true
      ((wordOffs off count).flatMap fun a => le 4 (s.readShadow (subBlk b a).1 t (subBlk b a).2).toNat))

/-- The roles under which MBX_ROLEKEY of role `r` may be written (R510). -/
def State.keyRoles (s : State) (h : Half) (r : Nat) : List Nat :=
  if s.roleKey h r = 0xFFFFFFFF ∨ r ≤ 3 then [rInstaller] else [r]

/-- The roles under which a word may be written (R523), with the fields whose chapter names others: R271, R363, R389, R425, R457, R510, R640. -/
def State.wordRoles (s : State) (b : Blk) (h : Half) (off : Nat) : List Nat :=
  match b with
  | .pst => if off < 0x2000 ∧ 0x30 ≤ off % 0x100 ∧ off % 0x100 < 0x40 then [rVendor] else [rInstaller, rVendor]
  | .met => if 0x600 ≤ off ∧ off < 0x640 then [rInstaller, rLegal] else if off ∈ sealedOffs then [rLegal] else [rInstaller, rVendor]
  | .lkt => if off ∈ sealedFuncs then [rLegal] else [rInstaller, rVendor]
  | .bil => [rLegal]
  | .mbx => if 0x10 ≤ off ∧ off ≤ 0x20 then s.keyRoles h ((off - 0x10) / 4 + 1) else [rInstaller, rVendor]
  | .pwr => if off = 4 then [rOperator, rInstaller, rVendor] else [rInstaller, rVendor]
  | _ => [rInstaller, rVendor]

/-- The entry is fit to be a role's credential (R510): TYPE 0x03, engine bit 1, DOMAIN bit 0, USAGE with VERIFY and DERIVE. -/
def State.roleKeyFit (s : State) (w : Word) : Bool :=
  w == 0xFFFFFFFF ||
    match s.keyE w.toNat with
    | some e => e.typ == 3 && e.eng.testBit 1 && e.dom.testBit 0 && e.use.testBit 3 && e.use.testBit 4
    | none => false

/-- Why a word of a CFG_WRITE is refused; none where it is not (R163, R503, R510, R522, R562). -/
def State.wordRefusal (s : State) (o : Org) (b : Blk) (h : Half) (off : Nat) (w : Word) : Option Nat :=
  let i := regInfo b h off
  if commitOff b = some off then some stRange
  else if o.hb ≠ 0 && (i.rws != 0 || i.rwl != 0) then some stRange
  else
    match b with
    | .can => if s.canOwned (off / 0x1000) && !decide (off % 0x1000 ≤ 8) && !txb2Part (off % 0x1000) then some 0x0F01 else none
    | .mbx =>
      if off = 0 then (if fld w 15 0 < 10 || fld w 18 16 = 0 || decide (3 < fld w 18 16) then some stRange else none)
      else if 0x10 ≤ off ∧ off ≤ 0x20 then (if s.roleKeyFit w then none else some 0x0C08)
      else none
    | .twn =>
      if off = 0x40 && bitAt w 31 then
        (if !s.rb .twn h 0 27 then some 0x0303
         else if fld w 29 27 = 7 || fld w 15 0 = 0 || !pertMagOk (fld w 29 27) (s.rf .twn h 0x44 15 0) then some stRange else none)
      else none
    | _ => none

/-- The words of a request with their blocks and offsets, in ascending offset (R518). -/
def cfgWords (b : Blk) (off : Nat) (ws : List Word) : List (Blk × Nat × Word) :=
  ((wordOffs off ws.length).zip ws).map fun e => ((subBlk b e.1).1, (subBlk b e.1).2, e.2)

/-- A word of a CFG_WRITE takes effect; ARM of TWN_PERT_CTL arms the perturbation (R163). -/
def State.cfgPut (s : State) (t : Half) (e : Blk × Nat × Word) : State :=
  let s := s.putWord e.1 t e.2.1 e.2.2
  if e.1 = .twn && e.2.1 = 0x40 && bitAt e.2.2 31 then s.mTwn t fun x => { x with pertArmed := true, pertActive := false } else s

/-- CFG_WRITE (R522, R523): refused as a whole, or every word acts in ascending offset within the tick (R518).
(DESIGN CHOICE, unsafe: log 18.) -/
def execCfgWrite (o : Org) (b : Blk) (off : Nat) (ws : List Word) (s : State) : Out :=
  let opc := cfgOpc b 0xF2
  .next (s.cfgVerb o b 0xF2 false rNotPublic fun s x t r =>
    let words := cfgWords b off ws
    if !words.all (fun e => decide (r ∈ s.wordRoles e.1 t e.2.1)) then s.complete o x opc stRole true []
    else if !inMap b off ws.length then s.complete o x opc stRange true []
    else
      match words.findSome? fun e => s.wordRefusal o e.1 t e.2.1 e.2.2 with
      | some st => s.complete o x opc st true []
      | none => (words.foldl (fun s e => s.cfgPut t e) s).complete o x opc stOk true (le 8 (s.tick x)))

/-- The roles of CFG_COMMIT and CFG_DISCARD (R523), with Legal seal where fields of the block are its own (R363, R389, R425, R457). -/
def commitRoles (b : Blk) : List Nat := if b = .met ∨ b = .lkt ∨ b = .bil then [rInstaller, rLegal, rVendor] else [rInstaller, rVendor]

/-- CFG_COMMIT (R21, R22, R26, R652): ST_PENDING, then a final completion at the evaluation. A block without a commit register refuses it.
(DESIGN CHOICE, unsafe: log 18. DESIGN CHOICE, unsafe: log 36.) -/
def execCfgCommit (o : Org) (b : Blk) (s : State) : Out :=
  let opc := cfgOpc b 0xF3
  .next (s.cfgVerb o b 0xF3 false (commitRoles b) fun s x _ r =>
    if (commitOff b).isNone || o.hb ≠ 0 then s.complete o x opc stRange true []
    else if s.flashFull x (128 * (s.shadow.filter fun e => keyBlk e.1 == blkKey b x).length) then s.complete o x opc stTempWriteHeld true []
    else (s.arm b r (some { org := o, opc := opc })).complete o x opc stPending false [])

/-- DISCARD (R21): the shadow of the block returns to the values in force, in every half reached. -/
def State.discard (s : State) (b : Blk) : State :=
  let keys := (if perHalf b then s.reach else [.A]).map fun h => blkKey b h
  { s with shadow := s.shadow.filter fun e => !decide (keyBlk e.1 ∈ keys) }

/-- CFG_DISCARD (R522): ignored while STATE is 0b01.
(DESIGN CHOICE, unsafe: log 18.) -/
def execCfgDiscard (o : Org) (b : Blk) (s : State) : Out :=
  let opc := cfgOpc b 0xF4
  .next (s.cfgVerb o b 0xF4 false (commitRoles b) fun s x _ _ =>
    if (commitOff b).isNone || o.hb ≠ 0 then s.complete o x opc stRange true []
    else (if (s.blk b x).st = 1 then s else s.discard b).complete o x opc stOk true [])

/-- The roles that clear a counter (R523; R393 for the counters of MET_). -/
def cntRoles (b : Blk) (off : Nat) : List Nat := if b = .met ∧ 0xA00 ≤ off then [rLegal] else [rOperator, rInstaller, rVendor]

/-- The counters of a range become 0 (R522). -/
def State.clearCounters (s : State) (t : Half) (l : List (Blk × Nat)) : State :=
  l.foldl (fun s e => if (regInfo e.1 t e.2).cnt then s.srg e.1 t e.2 0 else s) s

/-- CNT_CLEAR (R522). -/
def execCntClear (o : Org) (b : Blk) (off count : Nat) (s : State) : Out :=
  let opc := cfgOpc b 0xF5
  .next (s.cfgVerb o b 0xF5 true rNotPublic fun s x t r =>
    let l := (wordOffs off count).map (subBlk b)
    if !l.all (fun e => decide (r ∈ cntRoles e.1 e.2)) then s.complete o x opc stRole true []
    else if !inMap b off count then s.complete o x opc stRange true []
    else if b = .nlk ∧ (wordOffs off count).any (fun a => decide (a < 0x1400) && (s.port t (a / 0x40)).pstate == 5) then s.complete o x opc 0x0402 true []
    else (s.clearCounters t l).complete o x opc stOk true (le 8 (s.tick x)))

/-- CFG_STATE (R522): commit register, commit-tick register, configuration generation.
(DESIGN CHOICE, unsafe: log 18.) -/
def execCfgState (o : Org) (b : Blk) (s : State) : Out :=
  let opc := cfgOpc b 0xF6
  .next (s.cfgVerb o b 0xF6 true rNotPublic fun s x t _ =>
    if (commitOff b).isNone then s.complete o x opc stRange true []
    else s.complete o x opc stOk true (le 4 (s.commitWord b t).toNat ++ le 4 (s.commitTick b t).toNat ++ le 4 (s.hf t).twn.gen))

/-! ### Writes of BAR0 and of the partition (R499, R530, R535), bit aliases (R538) -/

/-- A ring that BAR0 may write (R499), and one that the partition may write (R42, R530). -/
def bar0Ring (n : Nat) : Bool := decide (n < 28 ∨ (32 ≤ n ∧ n < 60))
def partRing (n : Nat) : Bool := decide ((28 ≤ n ∧ n < 32) ∨ (60 ≤ n ∧ n < 64))

/-- Offsets from 0x4000_0000 in the partition's flash and in its DRAM (R530). -/
def inFlash (off : Nat) : Bool := decide (0x20000000 ≤ off ∧ off < 0x21000000)
def inDram (off : Nat) : Bool := decide (0x40000000 ≤ off ∧ off < 0x50000000)

/-- Four bytes stored at byte offset `off` of a memory of words (R530): one word, or parts of two. -/
def putMem (m : Tab Word) (off : Nat) (v : Word) : Tab Word :=
  let k := 8 * (off % 4)
  let a := off - off % 4
  let low := wordOf (2 ^ k - 1)
  let m := put 0 m a ((look 0 m a &&& low) ||| (v <<< k))
  if k = 0 then m else put 0 m (a + 4) ((look 0 m (a + 4) &&& ~~~ low) ||| (v >>> (32 - k)))

/-- A word written to a memory of the partition; flash writes are buffered under R333.
(DESIGN CHOICE, unsafe: log 2.) -/
def State.memPut (s : State) (h : Half) (off : Nat) (v : Word) : State :=
  if inFlash off then
    (s.mh h fun x => { x with part := { x.part with flash := putMem x.part.flash (off - 0x20000000) v } }).flashWrite h 4
  else s.mh h fun x => { x with part := { x.part with dram := putMem x.part.dram (off - 0x40000000) v } }

/-- A block and offset lie in the partition's address map (R530). -/
def inPartMap (b : Blk) (off : Nat) : Bool :=
  match b with
  | .loc => decide (off < 0x40 ∨ (0x10000 ≤ off ∧ off < 0x10014) ∨ (0x10100 ≤ off ∧ off < 0x10108)) || inFlash off || inDram off
  | .mbx => decide (off < 0x10000)
  | .can => decide (off < 0x4000)
  | .gpio => decide (off < 0x100)
  | .lsw => decide (off < 0x1000)
  | .rms => decide (off < 0x1000)
  | .pwr => decide (off < 0x100)
  | _ => false

/-- A write to the shared I/O domain from half `h` (R535, R543); the power block is read only (R530). -/
def State.sharedPut (s : State) (h : Half) (b : Blk) (off : Nat) (v : Word) : State :=
  match b with
  | .can => s.canWrite h (off / 0x1000) (txb2Part (off % 0x1000)) fun s => s.putDirect .can .A off v
  | .gpio | .lsw | .rms => s.gated h fun s => s.putDirect b .A off v
  | _ => s.gated h fun s => s

/-- A write of the customer partition of half `h`; outside its map, or unaligned at a register, a bus error (R530, R531).
(DESIGN CHOICE, unsafe: log 98.) -/
def State.partPut (s : State) (h : Half) (b : Blk) (off : Nat) (v : Word) : State :=
  let mem := b == .loc && (inFlash off || inDram off)
  if !inPartMap b off || (mem && !inPartMap b (off + 3)) || (!mem && off % 4 != 0) then restartPartition s h 3
  else
    match b with
    | .loc => if inFlash off || inDram off then s.memPut h off v else s.locPut h off v
    | .mbx => if 0x1000 ≤ off && decide (off < 0x2000) && partRing ((off - 0x1000) / 0x40) then s.mbxPut h off v else s
    | _ => s.sharedPut h b off v

/-- The blocks of the shared I/O domain (R11, R29). -/
def sharedDom : Blk → Bool
  | .iox | .can | .gpio | .lsw | .rms | .pwr => true
  | _ => false

/-- A generic verb's word reaches a register of half `h` (R8, R29, R522): nothing where the verb would refuse it; a write to the shared I/O domain from a half
without the higher claim is discarded. -/
def State.verbPut (s : State) (h : Half) (b : Blk) (off : Nat) (v : Word) : State :=
  if (s.wordRefusal { half := h, ring := 0, ctag := 0, hb := 0 } b h off v).isSome then s
  else if sharedDom b then s.gated h fun s => s.cfgPut h (b, off, v) else s.cfgPut h (b, off, v)

/-- REGISTER_WRITE (R8): a write from BAR0, from the partition, or of a generic verb's word. -/
def execRegisterWrite (w : Writer) (b : Blk) (h : Half) (off : Nat) (v : Word) (s : State) : Out :=
  match w with
  | .bar0 =>
    let n := (off - 0x1000) / 0x40
    if b = .mbx && decide (0x1000 ≤ off ∧ off < 0x2000 ∧ off % 4 = 0) && bar0Ring n && !s.ringEth h n then .next (s.mbxPut h off v) else .next s
  | .part => .next (s.partPut h b off v)
  | .verb => .next (s.verbPut h b off v)

/-- The block and offset of an address of the shared I/O domain, from 0x4100_0000 (R530). -/
def sharedBlk (off : Nat) : Option (Blk × Nat) :=
  if off < 0x4000 then some (.can, off)
  else if off < 0x4100 then some (.gpio, off - 0x4000)
  else if 0x5000 ≤ off ∧ off < 0x6000 then some (.lsw, off - 0x5000)
  else if 0x6000 ≤ off ∧ off < 0x7000 then some (.rms, off - 0x6000)
  else if 0x7000 ≤ off ∧ off < 0x7100 then some (.pwr, off - 0x7000)
  else none

/-- The whole word that an alias write amounts to (R538); none: it has no effect. -/
def aliasWord (i : RegInfo) (cur : Word) (bit op : Nat) : Option Word :=
  let base := cur &&& wordOf i.rw
  let one := wordOf (2 ^ bit)
  if i.rw.testBit bit then
    match op % 4 with
    | 0 => some (base &&& ~~~ one)
    | 1 => some (base ||| one)
    | 2 => some (base ^^^ one)
    | _ => none
  else if (i.w1c.testBit bit || i.wo.testBit bit) && op % 4 == 1 then some (base ||| one)
  else none

/-- ALIAS_WRITE (R530, R531, R535, R538): a write outside the alias region or unaligned is a bus error. -/
def execAliasWrite (h : Half) (b off op : Nat) (s : State) : Out :=
  if 32 ≤ b ∨ 0x10000 ≤ off ∨ off % 4 ≠ 0 then .next (restartPartition s h 3)
  else
    match sharedBlk off with
    | none => .next (s.gated h fun s => s)
    | some (k, a) =>
      match aliasWord (regInfo k .A a) (s.rg k .A a) b op with
      | some w => .next (s.sharedPut h k a w)
      | none => .next (s.gated h fun s => s)

end Sys2Proof.Machine
end

