-- ==== Sys2Proof/Machine/Tick.lean ====
section
/-!
DEFINITION. The commands of the tick, time and clocks (spec 02), but for the tick edge and the stages that other chapters own.
-/

namespace Sys2Proof.Machine

/-- RATE is clamped to 200 ppm (R56). -/
def clampRate (v : Int) : Int := clampI (-858993) 858993 v

/-- RATE is the sum of FREQ and PHASE (R56). -/
def State.renewRate (s : State) (h : Half) : State :=
  s.mTck h fun t => { t with rate := clampRate (t.freq + t.phase) }

/-- PHASE for a filtered offset in ns (R57): -theta / 10 s up to 10 us, a slew of 1 us per second up to 100 ms, 0 beyond. Whole RATE steps are cut toward zero, as
the worked example of chapter 02 shows them.
(DEDUCED, unsafe: log 105.) -/
def phaseFor (theta : Int) : Int :=
  if theta.natAbs ≤ 10000 then Int.tdiv (-(theta * 2 ^ 32)) 10000000000
  else if theta.natAbs ≤ 100000000 then (if 0 < theta then -4295 else 4295)
  else 0

/-- TSTATE for a filtered offset (R81); `conv`: FREQ has converged. Above 10 us it is SLEWING, converged or not.
(DEDUCED, unsafe: log 105.) -/
def stateFor (theta : Int) (conv : Bool) : Nat :=
  if theta.natAbs ≤ 10000 then (if conv then 2 else 1)
  else if theta.natAbs ≤ 100000000 then 3
  else 5

/-- Half `h` disciplines its counter to PTP (R55, R73): the half in charge; while the twin link is dead, or while no half is in tick service, each half.
(DEDUCED, unsafe: log 105.) -/
def State.disciplines (s : State) (h : Half) : Bool := s.charge == some h || s.noService || !s.twinUp h

/-- Half `h` acts on a filtered offset (R57, R59): PHASE, the time state; above 100 ms an automatic step waits, unless one is under way.
(DEDUCED, unsafe: log 105.) -/
def servo (s : State) (h : Half) (theta : Int) (conv : Bool) : State :=
  let s := s.mTck h fun t =>
    { t with disc := true, lastSync := t.tick, theta := theta, lockTheta := if theta.natAbs ≤ 10000 && conv then theta else t.lockTheta,
             phase := phaseFor theta, autoWait := decide (100000000 < theta.natAbs) && t.step.isNone }
  (s.renewRate h).setTstate h (stateFor theta conv)

/-- PTP_SYNC_RECEIVED (R54, R55, R57, R59): a half that disciplines itself acts on the offset; the half in charge also on that of the other half, over the twin
link, while its own port has no selected master. PTP_EN 0 ignores the message, and so does another domain (R80).
(DESIGN CHOICE, safe: log 8.) -/
def execPtpSyncReceived (h : Half) (dom : Nat) (theta : Int) (conv : Bool) (s : State) : Out :=
  if !s.rb .tck h 0 30 || dom != s.rf .tck h 0 23 16 then .next s
  else
    let s := s.mTck h fun t => { t with master := true, lastSync := t.tick, theta := theta }
    if s.disciplines h then .next (servo s h theta conv)
    else if s.charge == some (other h) && !(s.hf (other h)).tck.master && s.rb .tck (other h) 0 30 then .next (servo s (other h) theta conv)
    else .next s

/-- FREQ_UPDATE (R56, R57, R62): every 16 s the servo's new FREQ, which is frozen while the phase slews. Locked FREQ values of the last
64 s are kept.
(DESIGN CHOICE, safe: log 8.) -/
def execFreqUpdate (h : Half) (f : Int) (s : State) : Out :=
  let t := (s.hf h).tck
  if !s.rb .tck h 0 30 || !s.disciplines h || t.tstate = 3 || t.tstate = 4 || decide (t.tick < t.freqTick + 320000) then .next s
  else
    let s := s.mTck h fun t =>
      { t with freq := f, freqTick := t.tick,
               freqHist := if t.tstate = 2 then (t.freqHist ++ [f]).reverse.take 4 |>.reverse else t.freqHist }
    .next (s.renewRate h)

/-- A step is set for both halves at one edge, 100 ticks after TIME goes out (R59, R114). -/
def State.setStep (s : State) (h : Half) (k : Int) (o : Option Org) : State :=
  s.mBoth fun x => { x with tck := { x.tck with step := some { ticks := k, edge := s.tick h + 101, org := o }, autoWait := false } }

/-- SYS_TIME_STEP (R59, R521).
(DESIGN CHOICE, unsafe: log 11.) -/
def execSysTimeStep (o : Org) (ns : Int) (s : State) : Out :=
  .next (s.verb o 0x0101 [rInstaller, rVendor] fun s x _ =>
    if ns % 50000 ≠ 0 then s.complete o x 0x0101 stRange true []
    else if !contactorsOpen s x || (s.hf x).tck.step.isSome then s.complete o x 0x0101 0x0101 true []
    else (s.setStep x (ns / 50000) (some o)).complete o x 0x0101 stPending false [])

/-- The whole number of ticks nearest to an offset in ns (R59). -/
def roundTicks (ns : Int) : Int := (ns + 25000) / 50000

/-- AUTO_TIME_STEP (R59): a step of theta rounded to whole ticks, against theta.
(DESIGN CHOICE, unsafe: log 11.) -/
def execAutoTimeStep (h : Half) (s : State) : Out :=
  let t := (s.hf h).tck
  if t.autoWait && s.rb .tck h 0 31 && s.charge == some h && contactorsOpen s h && t.step.isNone then
    .next (s.setStep h (-(roundTicks t.theta)) none)
  else .next s

/-- The mean of FREQ over the last 64 s of locked operation (R62), rounded down.
(DEDUCED, unsafe: log 105.) -/
def meanFreq (l : List Int) (d : Int) : Int := if l.isEmpty then d else l.sum / l.length

/-- HOLDOVER_ENTRY (R62): 2 s or three announce intervals, whichever is longer, since the last Sync the half acted on. -/
def execHoldoverEntry (h : Half) (s : State) : Out :=
  let t := (s.hf h).tck
  if s.disciplines h && t.disc && decide (t.lastSync + max 40000 (3 * t.annTicks) ≤ t.tick) then
    let s := s.mTck h fun t =>
      { t with master := false, disc := false, phase := 0, rate := clampRate (meanFreq t.freqHist t.freq), holdStart := t.tick,
               holdErr0 := t.lockTheta.natAbs, holdMark := 1000000, autoWait := false }
    .next (s.setTstate h 4)
  else .next s

/-- The holdover error estimate in ns (R62): from the last locked offset at HOLD_DRIFT x 10 ppb. -/
def holdErr (s : State) (h : Half) : Nat :=
  let t := (s.hf h).tck
  t.holdErr0 + (t.tick - t.holdStart) * 50000 * (s.rf .tck h 0 7 0 * 10) / 1000000000

/-- TIME_UNCERTAIN (R62): the estimate has passed 1 ms, or doubled since the last event. -/
def execTimeUncertain (h : Half) (s : State) : Out :=
  let t := (s.hf h).tck
  if t.tstate = 4 && decide (t.holdMark < holdErr s h) then
    .next ((s.mTck h fun t => { t with holdMark := 2 * max t.holdMark 1 }).ev h 1 0x0103 (le 8 (holdErr s h)))
  else .next s

/-- The RTC count for a tick number (R61).
(DESIGN CHOICE, unsafe: log 106.) -/
def rtcOf (tick : Nat) : Nat := tick * 32768 / 20000

/-- RTC_REWRITE (R61): once per second while tick service runs. -/
def execRtcRewrite (h : Half) (s : State) : Out :=
  if (s.hf h).twn.service && s.tick h % 20000 == 0 then .next { s with rtc := rtcOf (s.tick h) } else .next s

/-- START_WAIT_EXPIRY (R61): no master in START_WAIT seconds, so the counter is set from the RTC. -/
def execStartWaitExpiry (h : Half) (secs : Nat) (s : State) : Out :=
  let x := s.hf h
  if x.twn.booted && s.noService && !x.tck.tickSet && !x.tck.master && secs == s.rf .tck h 0 15 8 then .next (setCounter s h 0) else .next s

/-- PTP_MASTER_SELECTED_AT_START (R61, R81). -/
def execPtpMasterSelectedAtStart (h : Half) (n : Nat) (s : State) : Out :=
  let x := s.hf h
  if x.twn.booted && s.noService && !x.tck.tickSet && s.rb .tck h 0 30 then
    .next ((setCounter (s.mTck h fun t => { t with master := true }) h n).setTstate h 1)
  else .next s

/-! ### Clocks (R63-R71) -/

/-- The bypass clock half `h` moves to (R67): the forwarded clock where the twin link is up and the other half runs from its own
locked PLLs, else the internal oscillator. -/
def bypassFor (s : State) (h : Half) : Nat :=
  let o := (s.hf (other h)).tck
  if s.twinUp h && o.clksel == 0 && o.locks == 7 then 1 else 2

/-- Event 0x0104 (R66): two detections in one tick raise one event that carries both bits. -/
def lossEvent (s : State) (h : Half) (bits : Nat) : State :=
  let t := (s.hf h).tck
  let now := t.tick
  let merged := t.lossBits ≠ 0 && t.lossTick == now
  let all := if merged then t.lossBits ||| bits else bits
  let d := padTo 16 [all, t.clksel]
  let s := s.mTck h fun t => { t with lossTick := now, lossBits := all }
  if merged then
    let fix (r : EventRec) : EventRec :=
      if r.code = 0x0104 ∧ r.origin = hbit h ∧ r.tick = now then { r with detail := d } else r
    s.mBoth fun x => { x with mbx := { x.mbx with events := x.mbx.events.map fix } }
  else s.ev h 2 0x0104 [all, t.clksel]

/-- A detection of R66 with sticky bit `bit` of TCK_STATUS: the switch of R67, and on the internal oscillator R69. -/
def clockLost (s : State) (h : Half) (bit ev : Nat) : State :=
  let s := s.srg .tck h 0x08 (s.rg .tck h 0x08 ||| BitVec.ofNat 32 (2 ^ bit))
  let sel := bypassFor s h
  let s := s.mTck h fun t => { t with locks := 0, aligned := false, clksel := if t.clksel = 0 then sel else t.clksel, recount := t.recount || decide (t.clksel = 0 ∧ sel = 2) }
  let s := lossEvent s h ev
  if (s.hf h).tck.clksel = 2 then
    (s.goUnhealthy h 0x81).mTwn h fun t => { t with service := false, svcNext := false, rejoin := false, digMatch := 0 }
  else s

/-- LOSS_OF_REFERENCE (R66, R67, R69).
(DEDUCED, unsafe: log 20.) -/
def execLossOfReference (h : Half) (s : State) : Out :=
  .next (clockLost (s.mTck h fun t => { t with refRun := false }) h 26 1)

/-- LOSS_OF_LOCK (R66, R67, R69).
(DEDUCED, unsafe: log 20.) -/
def execLossOfLock (h : Half) (s : State) : Out := .next (clockLost s h 25 2)

/-- PLL_LOCK_RETRY (R68, R70): on a bypass clock the half starts a lock of its own PLLs; the dividers are held until it is
complete (R65). -/
def execPllLockRetry (h : Half) (s : State) : Out :=
  if (s.hf h).tck.clksel = 0 then .next s
  else .next (s.mTck h fun t => { t with retries := t.retries + 1 })

/-- PLL_LOCK_COMPLETE (R65): the PLL's dividers are released; its reference runs. Once the shared PLL (3) has relocked, CAN frames that waited may start (R64). -/
def execPllLockComplete (h : Half) (pll : Nat) (s : State) : Out :=
  if pll = 3 then .next ((List.range 4).foldl State.canGo { s with pll := { s.pll with relocking := false } })
  else if pll < 3 then .next (s.mTck h fun t => { t with refRun := true, locks := t.locks ||| 2 ^ pll })
  else .next s

/-- BYPASS_EXIT (R70): the half's own PLLs have relocked, and where the other half is in tick service the counters are aligned
within 20 ns. -/
def execBypassExit (h : Half) (s : State) : Out :=
  let t := (s.hf h).tck
  if t.clksel ≠ 0 && t.locks == 7 && (!(s.hf (other h)).twn.service || t.aligned) then
    .next (s.mTck h fun t => { t with clksel := 0 })
  else .next s

/-- SHARED_PLL_REFERENCE_CHANGE (R64): half A's reference while it runs, else half B's; with neither the domain runs from its
80 MHz oscillator and raises event 0x0104.
(DEDUCED, unsafe: log 20.) -/
def execSharedPllReferenceChange (s : State) : Out :=
  let r := if s.halfA.tck.refRun then 0 else if s.halfB.tck.refRun then 1 else 2
  if r = s.pll.ref then .next s
  else if r = 2 then .next ({ s with pll := { ref := 2, relocking := false } }.evShared 4 2 0x0104 [1, 2])
  else .next { s with pll := { ref := r, relocking := true } }

/-- SKEW_MEASURE (R72, R73, R81, R153): the half not in charge, the twin link up; more than 250 ns on 2 consecutive ticks makes it UNHEALTHY. A half in charge on a
bypass clock measures whether the counter of its own clock is aligned (R70).
(DESIGN CHOICE, safe: log 8.) -/
def execSkewMeasure (h : Half) (ns trim : Int) (s : State) : Out :=
  let wide := decide (20 < ns.natAbs)
  if !s.twinUp h then .next s
  else if s.charge == some h then .next (if (s.hf h).tck.clksel = 0 then s else s.mTck h fun t => { t with aligned := !wide })
  else
    let again : Bool := decide ((s.hf h).tck.skewOver.map (· + 1) = some (s.tick h))
    let s := s.mTck h fun t =>
      { t with skewNs := clampI (-32768) 32767 ns, rate := clampRate trim, aligned := !wide,
               skewOver := if 250 < ns.natAbs then some t.tick else none }
    let s := if wide then
        (s.srg .tck h 0x08 (s.rg .tck h 0x08 ||| BitVec.ofNat 32 (2 ^ 24))).ev h 1 0x0105 (leInt 2 (s.hf h).tck.skewNs)
      else s
    let win := s.tick h / 20000
    let s := if wide && (s.hf h).twn.skewPenWin != some win then
        (s.mTwn h fun t => { t with skewPenWin := some win }).penalty h 16 0x04
      else s
    if again && decide (250 < ns.natAbs) then .next (s.goUnhealthy h 0x82) else .next s

end Sys2Proof.Machine
end

