-- ==== Sys2Proof/Machine/Dispatch.lean ====
section
/-!
DEFINITION. The dispatch: one arm for each row of the opcode table, in the table's order, each a call of its meaning.
-/

namespace Sys2Proof.Machine

/-- The effect of a command on everything but the queue.
(DESIGN CHOICE, safe: log 4.) -/
def exec (i : Instr) (s : State) : Host.Outcome State Fault Refusal :=
  match i with
  | .undefinedOpcode o opc => Sys2Proof.Machine.execUndefinedOpcode o opc s
  | .registerWrite w b h off v => Sys2Proof.Machine.execRegisterWrite w b h off v s
  | .tickEdge h => Sys2Proof.Machine.execTickEdge h s
  | .stagingWrite h ix v => Sys2Proof.Machine.execStagingWrite h ix v s
  | .stagingEntryStale h ix => Sys2Proof.Machine.execStagingEntryStale h ix s
  | .commitSnapshot h reaches => Sys2Proof.Machine.execCommitSnapshot h reaches s
  | .snapshotPublish h made => Sys2Proof.Machine.execSnapshotPublish h made s
  | .pointOwnerWrite idx owner typ v => Sys2Proof.Machine.execPointOwnerWrite idx owner typ v s
  | .mirrorCopyReceived h => Sys2Proof.Machine.execMirrorCopyReceived h s
  | .mirrorAck h => Sys2Proof.Machine.execMirrorAck h s
  | .pointRestoreComplete h idx => Sys2Proof.Machine.execPointRestoreComplete h idx s
  | .partitionFault h stall => Sys2Proof.Machine.execPartitionFault h stall s
  | .partitionWatchdogExpiry h => Sys2Proof.Machine.execPartitionWatchdogExpiry h s
  | .ptpSyncReceived h dom theta conv => Sys2Proof.Machine.execPtpSyncReceived h dom theta conv s
  | .freqUpdate h f => Sys2Proof.Machine.execFreqUpdate h f s
  | .sysTimeStep o ns => Sys2Proof.Machine.execSysTimeStep o ns s
  | .autoTimeStep h => Sys2Proof.Machine.execAutoTimeStep h s
  | .holdoverEntry h => Sys2Proof.Machine.execHoldoverEntry h s
  | .timeUncertain h => Sys2Proof.Machine.execTimeUncertain h s
  | .rtcRewrite h => Sys2Proof.Machine.execRtcRewrite h s
  | .startWaitExpiry h secs => Sys2Proof.Machine.execStartWaitExpiry h secs s
  | .ptpMasterSelectedAtStart h n => Sys2Proof.Machine.execPtpMasterSelectedAtStart h n s
  | .lossOfReference h => Sys2Proof.Machine.execLossOfReference h s
  | .lossOfLock h => Sys2Proof.Machine.execLossOfLock h s
  | .pllLockRetry h => Sys2Proof.Machine.execPllLockRetry h s
  | .pllLockComplete h pll => Sys2Proof.Machine.execPllLockComplete h pll s
  | .bypassExit h => Sys2Proof.Machine.execBypassExit h s
  | .restartWithoutService h n => Sys2Proof.Machine.execRestartWithoutService h n s
  | .sharedPllReferenceChange => Sys2Proof.Machine.execSharedPllReferenceChange s
  | .skewMeasure h ns trim => Sys2Proof.Machine.execSkewMeasure h ns trim s
  | .ingestDeadline h => Sys2Proof.Machine.execIngestDeadline h s
  | .ingestMapExchange h sentMap => Sys2Proof.Machine.execIngestMapExchange h sentMap s
  | .uplinkAcceptanceLoss h p => Sys2Proof.Machine.execUplinkAcceptanceLoss h p s
  | .allocationLatch h ready => Sys2Proof.Machine.execAllocationLatch h ready s
  | .downlinkDispatch h p onTime => Sys2Proof.Machine.execDownlinkDispatch h p onTime s
  | .lineSyncGained h p commas => Sys2Proof.Machine.execLineSyncGained h p commas s
  | .lineSyncLost h p cvs chars => Sys2Proof.Machine.execLineSyncLost h p cvs chars s
  | .measureEntry h p => Sys2Proof.Machine.execMeasureEntry h p s
  | .tickMarkerSend h p => Sys2Proof.Machine.execTickMarkerSend h p s
  | .dprSend h p => Sys2Proof.Machine.execDprSend h p s
  | .decReceived h p rtt ta => Sys2Proof.Machine.execDecReceived h p rtt ta s
  | .delaySlew h p => Sys2Proof.Machine.execDelaySlew h p s
  | .helloReceived h p f => Sys2Proof.Machine.execHelloReceived h p f s
  | .joinAcknowledged h p => Sys2Proof.Machine.execJoinAcknowledged h p s
  | .uplinkTickFrame h p f => Sys2Proof.Machine.execUplinkTickFrame h p f s
  | .asyncSegmentReceived h p f => Sys2Proof.Machine.execAsyncSegmentReceived h p f s
  | .asyncAckSend h p ty => Sys2Proof.Machine.execAsyncAckSend h p ty s
  | .asyncAckReceived h p f => Sys2Proof.Machine.execAsyncAckReceived h p f s
  | .segmentResendTimeout h p ty seg => Sys2Proof.Machine.execSegmentResendTimeout h p ty seg s
  | .asyncFrameSend h p room => Sys2Proof.Machine.execAsyncFrameSend h p room s
  | .tunnelMessageReceived h p => Sys2Proof.Machine.execTunnelMessageReceived h p s
  | .bulkLogReceived h p => Sys2Proof.Machine.execBulkLogReceived h p s
  | .timeMessageSend h => Sys2Proof.Machine.execTimeMessageSend h s
  | .remoteDownlinkTickFrame p d f => Sys2Proof.Machine.execRemoteDownlinkTickFrame p d f s
  | .remoteSelection49us p => Sys2Proof.Machine.execRemoteSelection49us p s
  | .remoteTickEdge p below5 v => Sys2Proof.Machine.execRemoteTickEdge p below5 v s
  | .remoteTickMarker p a b => Sys2Proof.Machine.execRemoteTickMarker p a b s
  | .linkLostForceOpen p => Sys2Proof.Machine.execLinkLostForceOpen p s
  | .remoteHelloSend p d => Sys2Proof.Machine.execRemoteHelloSend p d s
  | .refereeRequest h early => Sys2Proof.Machine.execRefereeRequest h early s
  | .refereeGrant h => Sys2Proof.Machine.execRefereeGrant h s
  | .tokenRelease => Sys2Proof.Machine.execTokenRelease s
  | .aliveSignalMissing => Sys2Proof.Machine.execAliveSignalMissing s
  | .handoverEdge => Sys2Proof.Machine.execHandoverEdge s
  | .twinHeartbeatSend h => Sys2Proof.Machine.execTwinHeartbeatSend h s
  | .twinHeartbeatReceived h valid => Sys2Proof.Machine.execTwinHeartbeatReceived h valid s
  | .twinLinkDead h => Sys2Proof.Machine.execTwinLinkDead h s
  | .relayedSnapshotReceived h => Sys2Proof.Machine.execRelayedSnapshotReceived h s
  | .portCountTakeover => Sys2Proof.Machine.execPortCountTakeover s
  | .cleanHealthReturn => Sys2Proof.Machine.execCleanHealthReturn s
  | .twnHandover o t => Sys2Proof.Machine.execTwnHandover o t s
  | .handoverReq => Sys2Proof.Machine.execHandoverReq s
  | .handoverStateSend => Sys2Proof.Machine.execHandoverStateSend s
  | .handoverStateAck => Sys2Proof.Machine.execHandoverStateAck s
  | .handoverTimeout => Sys2Proof.Machine.execHandoverTimeout s
  | .rejoinStart h => Sys2Proof.Machine.execRejoinStart h s
  | .startPath h n => Sys2Proof.Machine.execStartPath h n s
  | .shadowCompare h rs => Sys2Proof.Machine.execShadowCompare h rs s
  | .digestCompare h => Sys2Proof.Machine.execDigestCompare h s
  | .scrubBlock h addr kind res => Sys2Proof.Machine.execScrubBlock h addr kind res s
  | .penaltyDecay h => Sys2Proof.Machine.execPenaltyDecay h s
  | .healthWindowEnd h => Sys2Proof.Machine.execHealthWindowEnd h s
  | .unhealthyResetTimeout h => Sys2Proof.Machine.execUnhealthyResetTimeout h s
  | .twnRelease o t => Sys2Proof.Machine.execTwnRelease o t s
  | .feedLost f v => Sys2Proof.Machine.execFeedLost f v s
  | .feedOk f v => Sys2Proof.Machine.execFeedOk f v s
  | .feedReverseCurrent f => Sys2Proof.Machine.execFeedReverseCurrent f s
  | .oringTest f fail => Sys2Proof.Machine.execOringTest f fail s
  | .pertArm o h v => Sys2Proof.Machine.execPertArm o h v s
  | .pertEnd h => Sys2Proof.Machine.execPertEnd h s
  | .claimLossRelinquish h => Sys2Proof.Machine.execClaimLossRelinquish h s
  | .halfReset h => Sys2Proof.Machine.execHalfReset h s
  | .laneRunStart h => Sys2Proof.Machine.execLaneRunStart h s
  | .laneOverrun h l => Sys2Proof.Machine.execLaneOverrun h l s
  | .nop w => Sys2Proof.Machine.execNop w s
  | .halt w => Sys2Proof.Machine.execHalt w s
  | .rpt w n len => Sys2Proof.Machine.execRpt w n len s
  | .rptv w vs max len => Sys2Proof.Machine.execRptv w vs max len s
  | .movi w d imm => Sys2Proof.Machine.execMovi w d imm s
  | .mov w d vs => Sys2Proof.Machine.execMov w d vs s
  | .add w d vs vt => Sys2Proof.Machine.execAdd w d vs vt s
  | .sub w d vs vt => Sys2Proof.Machine.execSub w d vs vt s
  | .neg w d vs => Sys2Proof.Machine.execNeg w d vs s
  | .abs w d vs => Sys2Proof.Machine.execAbs w d vs s
  | .min w d vs vt => Sys2Proof.Machine.execMin w d vs vt s
  | .max w d vs vt => Sys2Proof.Machine.execMax w d vs vt s
  | .clmp w d vs vt => Sys2Proof.Machine.execClmp w d vs vt s
  | .shl w d vs k => Sys2Proof.Machine.execShl w d vs k s
  | .shr w d vs k => Sys2Proof.Machine.execShr w d vs k s
  | .and w d vs vt => Sys2Proof.Machine.execAnd w d vs vt s
  | .or w d vs vt => Sys2Proof.Machine.execOr w d vs vt s
  | .xor w d vs vt => Sys2Proof.Machine.execXor w d vs vt s
  | .sel w d vs vt k => Sys2Proof.Machine.execSel w d vs vt k s
  | .cmp w d vs vt cc => Sys2Proof.Machine.execCmp w d vs vt cc s
  | .plog w d ps pt op => Sys2Proof.Machine.execPlog w d ps pt op s
  | .mul w d vs vt => Sys2Proof.Machine.execMul w d vs vt s
  | .mac w d vs vt => Sys2Proof.Machine.execMac w d vs vt s
  | .msu w d vs vt => Sys2Proof.Machine.execMsu w d vs vt s
  | .lda w d vs => Sys2Proof.Machine.execLda w d vs s
  | .adda w d as_ => Sys2Proof.Machine.execAdda w d as_ s
  | .suba w d as_ => Sys2Proof.Machine.execSuba w d as_ s
  | .mova w d as_ => Sys2Proof.Machine.execMova w d as_ s
  | .sha w d k => Sys2Proof.Machine.execSha w d k s
  | .amulv w d vs => Sys2Proof.Machine.execAmulv w d vs s
  | .str w d as_ n => Sys2Proof.Machine.execStr w d as_ n s
  | .aclmp w d k vs vt => Sys2Proof.Machine.execAclmp w d k vs vt s
  | .ld w r m => Sys2Proof.Machine.execLd w r m s
  | .st w m r => Sys2Proof.Machine.execSt w m r s
  | .ldw w r m => Sys2Proof.Machine.execLdw w r m s
  | .stw w m r => Sys2Proof.Machine.execStw w m r s
  | .ldx w r m => Sys2Proof.Machine.execLdx w r m s
  | .movx w d imm => Sys2Proof.Machine.execMovx w d imm s
  | .addx w d imm => Sys2Proof.Machine.execAddx w d imm s
  | .out w vs ix => Sys2Proof.Machine.execOut w vs ix s
  | .claspDrain h => Sys2Proof.Machine.execClaspDrain h s
  | .clnStore o img => Sys2Proof.Machine.execClnStore o img s
  | .clnFree o base => Sys2Proof.Machine.execClnFree o base s
  | .clnList o => Sys2Proof.Machine.execClnList o s
  | .clnSetpoint o lane blk target => Sys2Proof.Machine.execClnSetpoint o lane blk target s
  | .clnMode o lane blk auto sptrack => Sys2Proof.Machine.execClnMode o lane blk auto sptrack s
  | .clnManual o lane blk target => Sys2Proof.Machine.execClnManual o lane blk target s
  | .clnInject o lane blk ctl period amp seed f0 f1 dur => Sys2Proof.Machine.execClnInject o lane blk ctl period amp seed f0 f1 dur s
  | .injectionEnd h lane blk => Sys2Proof.Machine.execInjectionEnd h lane blk s
  | .clnCapArm o lane blk buf nch trig rows pre decim ttick slots => Sys2Proof.Machine.execClnCapArm o lane blk buf nch trig rows pre decim ttick slots s
  | .captureTrigger h buf => Sys2Proof.Machine.execCaptureTrigger h buf s
  | .clnCapRead o buf first count => Sys2Proof.Machine.execClnCapRead o buf first count s
  | .probeComplete h c g => Sys2Proof.Machine.execProbeComplete h c g s
  | .hiccupTrip h c g => Sys2Proof.Machine.execHiccupTrip h c g s
  | .hiccupWindowEnd h c g => Sys2Proof.Machine.execHiccupWindowEnd h c g s
  | .hiccupWaitEnd h c g => Sys2Proof.Machine.execHiccupWaitEnd h c g s
  | .startComplete h c g => Sys2Proof.Machine.execStartComplete h c g s
  | .retriesReset h c g => Sys2Proof.Machine.execRetriesReset h c g s
  | .loadStepDetected h c g => Sys2Proof.Machine.execLoadStepDetected h c g s
  | .holdOffEnd h c g => Sys2Proof.Machine.execHoldOffEnd h c g s
  | .phaseAddStart h c g => Sys2Proof.Machine.execPhaseAddStart h c g s
  | .phaseShedStart h c g => Sys2Proof.Machine.execPhaseShedStart h c g s
  | .burstEntry h c g => Sys2Proof.Machine.execBurstEntry h c g s
  | .burstExit h c g => Sys2Proof.Machine.execBurstExit h c g s
  | .pstClear o c mask => Sys2Proof.Machine.execPstClear o c mask s
  | .cabinetCommandApply p => Sys2Proof.Machine.execCabinetCommandApply p s
  | .ditherStep p => Sys2Proof.Machine.execDitherStep p s
  | .plannerRun => Sys2Proof.Machine.execPlannerRun s
  | .drainComplete h k => Sys2Proof.Machine.execDrainComplete h k s
  | .drainTimeout h k => Sys2Proof.Machine.execDrainTimeout h k s
  | .polesOpened h k => Sys2Proof.Machine.execPolesOpened h k s
  | .poleOpenTimeout h k => Sys2Proof.Machine.execPoleOpenTimeout h k s
  | .polesClosed h k => Sys2Proof.Machine.execPolesClosed h k s
  | .poleCloseTimeout h k => Sys2Proof.Machine.execPoleCloseTimeout h k s
  | .matchPass h k => Sys2Proof.Machine.execMatchPass h k s
  | .matchTimeout h k => Sys2Proof.Machine.execMatchTimeout h k s
  | .changeCabinetLost h k c => Sys2Proof.Machine.execChangeCabinetLost h k c s
  | .uncommandedPoleOpen h n g => Sys2Proof.Machine.execUncommandedPoleOpen h n g s
  | .cnpAssign o k mask => Sys2Proof.Machine.execCnpAssign o k mask s
  | .cnpUnpin o k => Sys2Proof.Machine.execCnpUnpin o k s
  | .cnpPoleClear o n mask => Sys2Proof.Machine.execCnpPoleClear o n mask s
  | .thermalUpdate h => Sys2Proof.Machine.execThermalUpdate h s
  | .ceilingSend arrives => Sys2Proof.Machine.execCeilingSend arrives s
  | .ceilingStage h => Sys2Proof.Machine.execCeilingStage h s
  | .predictionDataComplete h m => Sys2Proof.Machine.execPredictionDataComplete h m s
  | .modelInit h m => Sys2Proof.Machine.execModelInit h m s
  | .sensorRecovered h m k => Sys2Proof.Machine.execSensorRecovered h m k s
  | .sensorSuspect h m k => Sys2Proof.Machine.execSensorSuspect h m k s
  | .sensorSuspectCleared h m k => Sys2Proof.Machine.execSensorSuspectCleared h m k s
  | .coolantRangeCleared h m => Sys2Proof.Machine.execCoolantRangeCleared h m s
  | .tjEstimate h node powers => Sys2Proof.Machine.execTjEstimate h node powers s
  | .tjDiodeReset h diode => Sys2Proof.Machine.execTjDiodeReset h diode s
  | .throttleExit h => Sys2Proof.Machine.execThrottleExit h s
  | .derateUpdate h => Sys2Proof.Machine.execDerateUpdate h s
  | .thermalPowerDown pkg => Sys2Proof.Machine.execThermalPowerDown pkg s
  | .thermalEmergencyPowerDown pkg => Sys2Proof.Machine.execThermalEmergencyPowerDown pkg s
  | .thermalRestart pkg => Sys2Proof.Machine.execThermalRestart pkg s
  | .thmRelease o => Sys2Proof.Machine.execThmRelease o s
  | .thmShutdownRead o first count => Sys2Proof.Machine.execThmShutdownRead o first count s
  | .flashWriteResume h => Sys2Proof.Machine.execFlashWriteResume h s
  | .bntcSample t => Sys2Proof.Machine.execBntcSample t s
  | .pilotStateChange k => Sys2Proof.Machine.execPilotStateChange k s
  | .slacMessage k run sounds => Sys2Proof.Machine.execSlacMessage k run sounds s
  | .slacMatch k run => Sys2Proof.Machine.execSlacMatch k run s
  | .vehicleMessage k m => Sys2Proof.Machine.execVehicleMessage k m s
  | .sessionStateTimeout k seq => Sys2Proof.Machine.execSessionStateTimeout k seq s
  | .sessionStop k cause => Sys2Proof.Machine.execSessionStop k cause s
  | .stoppingComplete k => Sys2Proof.Machine.execStoppingComplete k s
  | .weldCheckComplete k => Sys2Proof.Machine.execWeldCheckComplete k s
  | .vehicleStopGraceExpiry k => Sys2Proof.Machine.execVehicleStopGraceExpiry k s
  | .coolantSessionTimeout k => Sys2Proof.Machine.execCoolantSessionTimeout k s
  | .vehicleLimitsStage arrives => Sys2Proof.Machine.execVehicleLimitsStage arrives s
  | .dcmdSend k ahead => Sys2Proof.Machine.execDcmdSend k ahead s
  | .dcmdApply k => Sys2Proof.Machine.execDcmdApply k s
  | .sessionKeyOrphaned k => Sys2Proof.Machine.execSessionKeyOrphaned k s
  | .sessionFailoverResume h => Sys2Proof.Machine.execSessionFailoverResume h s
  | .sessionMirrorAck k => Sys2Proof.Machine.execSessionMirrorAck k s
  | .vehAuth o k flags num => Sys2Proof.Machine.execVehAuth o k flags num s
  | .vehStop o k num => Sys2Proof.Machine.execVehStop o k num s
  | .vehList o add kind id => Sys2Proof.Machine.execVehList o add kind id s
  | .vehStatus o k => Sys2Proof.Machine.execVehStatus o k s
  | .meteringSampleClose k => Sys2Proof.Machine.execMeteringSampleClose k s
  | .acBlock ix raw => Sys2Proof.Machine.execAcBlock ix raw s
  | .dualIntegrationCompare src inc2 => Sys2Proof.Machine.execDualIntegrationCompare src inc2 s
  | .pulseEmit n => Sys2Proof.Machine.execPulseEmit n s
  | .testPulseOutput n => Sys2Proof.Machine.execTestPulseOutput n s
  | .adcReferenceCheck ok => Sys2Proof.Machine.execAdcReferenceCheck ok s
  | .sealedParameterCheck ok => Sys2Proof.Machine.execSealedParameterCheck ok s
  | .islandFirmwareCheck ok => Sys2Proof.Machine.execIslandFirmwareCheck ok s
  | .islandWatchdogExpiry => Sys2Proof.Machine.execIslandWatchdogExpiry s
  | .intakeSupervision ix r => Sys2Proof.Machine.execIntakeSupervision ix r s
  | .batteryOperationEntry s4 => Sys2Proof.Machine.execBatteryOperationEntry s4 s
  | .batteryOperationEnd lowV => Sys2Proof.Machine.execBatteryOperationEnd lowV s
  | .tamperSample levels => Sys2Proof.Machine.execTamperSample levels s
  | .metInst o src => Sys2Proof.Machine.execMetInst o src s
  | .metLogRead o log first count => Sys2Proof.Machine.execMetLogRead o log first count s
  | .metBattRead o ix => Sys2Proof.Machine.execMetBattRead o ix s
  | .demandIntervalClose ix => Sys2Proof.Machine.execDemandIntervalClose ix s
  | .billingPeriodClose => Sys2Proof.Machine.execBillingPeriodClose s
  | .bilClose o => Sys2Proof.Machine.execBilClose o s
  | .tariffActivation => Sys2Proof.Machine.execTariffActivation s
  | .rateSwitch => Sys2Proof.Machine.execRateSwitch s
  | .billingSave => Sys2Proof.Machine.execBillingSave s
  | .powerFailSave low => Sys2Proof.Machine.execPowerFailSave low s
  | .billingRestore ok0 ok1 time => Sys2Proof.Machine.execBillingRestore ok0 ok1 time s
  | .billingGapCatchup => Sys2Proof.Machine.execBillingGapCatchup s
  | .timeValidRestored => Sys2Proof.Machine.execTimeValidRestored s
  | .lomvorRecord k sigs => Sys2Proof.Machine.execLomvorRecord k sigs s
  | .displayDwell => Sys2Proof.Machine.execDisplayDwell s
  | .keyA => Sys2Proof.Machine.execKeyA s
  | .keyB => Sys2Proof.Machine.execKeyB s
  | .keyC => Sys2Proof.Machine.execKeyC s
  | .keyD => Sys2Proof.Machine.execKeyD s
  | .tokenEntry out d => Sys2Proof.Machine.execTokenEntry out d s
  | .keypad h p => Sys2Proof.Machine.execKeypad h p s
  | .tokenEntryTimeout => Sys2Proof.Machine.execTokenEntryTimeout s
  | .keypadLockoutEnd src => Sys2Proof.Machine.execKeypadLockoutEnd src s
  | .creditReport k => Sys2Proof.Machine.execCreditReport k s
  | .bilRead o src q => Sys2Proof.Machine.execBilRead o src q s
  | .bilTariffLoad o obj => Sys2Proof.Machine.execBilTariffLoad o obj s
  | .bilTariffRead o which => Sys2Proof.Machine.execBilTariffRead o which s
  | .bilPeriodRead o n => Sys2Proof.Machine.execBilPeriodRead o n s
  | .bilIntervalRead o ix first count => Sys2Proof.Machine.execBilIntervalRead o ix first count s
  | .bilRecordRead o n => Sys2Proof.Machine.execBilRecordRead o n s
  | .bilLedgerRead o first count => Sys2Proof.Machine.execBilLedgerRead o first count s
  | .demandCapStage ix => Sys2Proof.Machine.execDemandCapStage ix s
  | .lktGenerate o tx attr => Sys2Proof.Machine.execLktGenerate o tx attr s
  | .lktImport o tx attr key wrapped => Sys2Proof.Machine.execLktImport o tx attr key wrapped s
  | .lktDerive o tx attr info => Sys2Proof.Machine.execLktDerive o tx attr info s
  | .lktAgree o tx attr method z => Sys2Proof.Machine.execLktAgree o tx attr method z s
  | .lktInvalidate o tx handle => Sys2Proof.Machine.execLktInvalidate o tx handle s
  | .lktInfo o handle => Sys2Proof.Machine.execLktInfo o handle s
  | .lktPublic o handle pub => Sys2Proof.Machine.execLktPublic o handle pub s
  | .lktPair o tx kind port rid z => Sys2Proof.Machine.execLktPair o tx kind port rid z s
  | .lktRoll o tx port => Sys2Proof.Machine.execLktRoll o tx port s
  | .keyrollAckDeadline p => Sys2Proof.Machine.execKeyrollAckDeadline p s
  | .keyrollSwitch p => Sys2Proof.Machine.execKeyrollSwitch p s
  | .keyrollRetire p => Sys2Proof.Machine.execKeyrollRetire p s
  | .lktAttest o nonce subject pubhash sigs => Sys2Proof.Machine.execLktAttest o nonce subject pubhash sigs s
  | .lktOp o handle op subject long iv data given => Sys2Proof.Machine.execLktOp o handle op subject long iv data given s
  | .lktTxquery o tx => Sys2Proof.Machine.execLktTxquery o tx s
  | .invalidationCutoff handle => Sys2Proof.Machine.execInvalidationCutoff handle s
  | .orphanedOperationAbort o => Sys2Proof.Machine.execOrphanedOperationAbort o s
  | .locketSweep => Sys2Proof.Machine.execLocketSweep s
  | .journalRecovery => Sys2Proof.Machine.execJournalRecovery s
  | .materialTagFault idx => Sys2Proof.Machine.execMaterialTagFault idx s
  | .safetyInputSample a b => Sys2Proof.Machine.execSafetyInputSample a b s
  | .safetyDiscrepancy n => Sys2Proof.Machine.execSafetyDiscrepancy n s
  | .channelCompare differ pdus => Sys2Proof.Machine.execChannelCompare differ pdus s
  | .safetyConfigCrcCheck sp hw => Sys2Proof.Machine.execSafetyConfigCrcCheck sp hw s
  | .islandInternalReset => Sys2Proof.Machine.execIslandInternalReset s
  | .safetyTestPulse n low pass => Sys2Proof.Machine.execSafetyTestPulse n low pass s
  | .contactorFeedbackChange n g isOpen => Sys2Proof.Machine.execContactorFeedbackChange n g isOpen s
  | .feedbackTimeout n g => Sys2Proof.Machine.execFeedbackTimeout n g s
  | .zoneDemand z => Sys2Proof.Machine.execZoneDemand z s
  | .envelopeViolation z => Sys2Proof.Machine.execEnvelopeViolation z s
  | .energyRemoval z => Sys2Proof.Machine.execEnergyRemoval z s
  | .safeStopTimeout z => Sys2Proof.Machine.execSafeStopTimeout z s
  | .stoTimeout k => Sys2Proof.Machine.execStoTimeout k s
  | .resetPulse src => Sys2Proof.Machine.execResetPulse src s
  | .resetJammed src => Sys2Proof.Machine.execResetJammed src s
  | .zoneReset z => Sys2Proof.Machine.execZoneReset z s
  | .safetyStateDelivery => Sys2Proof.Machine.execSafetyStateDelivery s
  | .harvitorPduReceived n b => Sys2Proof.Machine.execHarvitorPduReceived n b s
  | .harvitorTimeout n => Sys2Proof.Machine.execHarvitorTimeout n s
  | .harvitorDownlinkBuild delivered => Sys2Proof.Machine.execHarvitorDownlinkBuild delivered s
  | .harvitorCycleSend n => Sys2Proof.Machine.execHarvitorCycleSend n s
  | .safStop o mask => Sys2Proof.Machine.execSafStop o mask s
  | .safFaultClear o mask => Sys2Proof.Machine.execSafFaultClear o mask s
  | .safLogRead o first count => Sys2Proof.Machine.execSafLogRead o first count s
  | .sqTailDoorbell h n v => Sys2Proof.Machine.execSqTailDoorbell h n v s
  | .commandFetch h n d => Sys2Proof.Machine.execCommandFetch h n d s
  | .forwardWaitTimeout o => Sys2Proof.Machine.execForwardWaitTimeout o s
  | .completionWrite h => Sys2Proof.Machine.execCompletionWrite h s
  | .cqHeadWrite h n v => Sys2Proof.Machine.execCqHeadWrite h n v s
  | .msixCoalesceTimeout h n => Sys2Proof.Machine.execMsixCoalesceTimeout h n s
  | .ringDmaFault h n => Sys2Proof.Machine.execRingDmaFault h n s
  | .ringEnableWrite h n en => Sys2Proof.Machine.execRingEnableWrite h n en s
  | .mailboxDatagram h n d => Sys2Proof.Machine.execMailboxDatagram h n d s
  | .datagramResendTimeout h n seq => Sys2Proof.Machine.execDatagramResendTimeout h n seq s
  | .bindingIdleExpiry h n => Sys2Proof.Machine.execBindingIdleExpiry h n s
  | .sysInfo o => Sys2Proof.Machine.execSysInfo o s
  | .sysSessionOpen o role hnonce => Sys2Proof.Machine.execSysSessionOpen o role hnonce s
  | .sysSessionProve o sid proof => Sys2Proof.Machine.execSysSessionProve o sid proof s
  | .sysSessionClose o => Sys2Proof.Machine.execSysSessionClose o s
  | .sessionOpenLapse h n => Sys2Proof.Machine.execSessionOpenLapse h n s
  | .sessionIdleExpiry h n => Sys2Proof.Machine.execSessionIdleExpiry h n s
  | .roleLockoutEnd h role => Sys2Proof.Machine.execRoleLockoutEnd h role s
  | .cfgRead o b off count => Sys2Proof.Machine.execCfgRead o b off count s
  | .cfgShadowRead o b off count => Sys2Proof.Machine.execCfgShadowRead o b off count s
  | .cfgWrite o b off ws => Sys2Proof.Machine.execCfgWrite o b off ws s
  | .cfgCommit o b => Sys2Proof.Machine.execCfgCommit o b s
  | .cfgDiscard o b => Sys2Proof.Machine.execCfgDiscard o b s
  | .cntClear o b off count => Sys2Proof.Machine.execCntClear o b off count s
  | .cfgState o b => Sys2Proof.Machine.execCfgState o b s
  | .pntRead o id => Sys2Proof.Machine.execPntRead o id s
  | .pntReadMulti o ids => Sys2Proof.Machine.execPntReadMulti o ids s
  | .pntWrite o id typ v => Sys2Proof.Machine.execPntWrite o id typ v s
  | .pntSubscribe o ring period ids => Sys2Proof.Machine.execPntSubscribe o ring period ids s
  | .pntUnsubscribe o subid => Sys2Proof.Machine.execPntUnsubscribe o subid s
  | .subscriptionDelivery h subid => Sys2Proof.Machine.execSubscriptionDelivery h subid s
  | .eventDelivery h => Sys2Proof.Machine.execEventDelivery h s
  | .gpioEdge p level => Sys2Proof.Machine.execGpioEdge p level s
  | .gpioSet h mask => Sys2Proof.Machine.execGpioSet h mask s
  | .gpioClr h mask => Sys2Proof.Machine.execGpioClr h mask s
  | .timerEnable h t ofs => Sys2Proof.Machine.execTimerEnable h t ofs s
  | .timerExpiry h t => Sys2Proof.Machine.execTimerExpiry h t s
  | .wideValueLatch h src answers => Sys2Proof.Machine.execWideValueLatch h src answers s
  | .aliasWrite h b off op => Sys2Proof.Machine.execAliasWrite h b off op s
  | .claimGatedWrite h => Sys2Proof.Machine.execClaimGatedWrite h s
  | .busError h => Sys2Proof.Machine.execBusError h s
  | .gateCntClear h => Sys2Proof.Machine.execGateCntClear h s
  | .canTxRequest h n b => Sys2Proof.Machine.execCanTxRequest h n b s
  | .canTxAbort h n b => Sys2Proof.Machine.execCanTxAbort h n b s
  | .canTxAttemptEnd n e tec => Sys2Proof.Machine.execCanTxAttemptEnd n e tec s
  | .canFrameReceived n f rec_ => Sys2Proof.Machine.execCanFrameReceived n f rec_ s
  | .canRxRelease h n => Sys2Proof.Machine.execCanRxRelease h n s
  | .canBusOff n => Sys2Proof.Machine.execCanBusOff n s
  | .canBoffRecovery h n done => Sys2Proof.Machine.execCanBoffRecovery h n done s
  | .canErrorStateChange n => Sys2Proof.Machine.execCanErrorStateChange n s
  | .abrStart h n => Sys2Proof.Machine.execAbrStart h n s
  | .abrStop h n => Sys2Proof.Machine.execAbrStop h n s
  | .abrWindowExpiry n => Sys2Proof.Machine.execAbrWindowExpiry n s
  | .abrFound n => Sys2Proof.Machine.execAbrFound n s
  | .exchangeLimitsFrame n r => Sys2Proof.Machine.execExchangeLimitsFrame n r s
  | .exchangeSetpointPeriod r => Sys2Proof.Machine.execExchangeSetpointPeriod r s
  | .exchangeTxb1Next n => Sys2Proof.Machine.execExchangeTxb1Next n s
  | .lswEnable h c mode => Sys2Proof.Machine.execLswEnable h c mode s
  | .lswDisable h c => Sys2Proof.Machine.execLswDisable h c s
  | .lswClr h c => Sys2Proof.Machine.execLswClr h c s
  | .lswInrushEnd c cur => Sys2Proof.Machine.execLswInrushEnd c cur s
  | .lswRetryWaitEnd c => Sys2Proof.Machine.execLswRetryWaitEnd c s
  | .lswLimitTimeout c cur => Sys2Proof.Machine.execLswLimitTimeout c cur s
  | .lswThermal c hot => Sys2Proof.Machine.execLswThermal c hot s
  | .lswGroupUndervoltage g => Sys2Proof.Machine.execLswGroupUndervoltage g s
  | .lswGroupUvRecovery g => Sys2Proof.Machine.execLswGroupUvRecovery g s
  | .lswTotalOverload avg => Sys2Proof.Machine.execLswTotalOverload avg s
  | .lswOpenLoad c low => Sys2Proof.Machine.execLswOpenLoad c low s
  | .lswSenseStep => Sys2Proof.Machine.execLswSenseStep s
  | .lswSlotDutyWrite => Sys2Proof.Machine.execLswSlotDutyWrite s
  | .lswPwmPeriod c => Sys2Proof.Machine.execLswPwmPeriod c s
  | .lswVfSample g vsup curs limiting => Sys2Proof.Machine.execLswVfSample g vsup curs limiting s
  | .zeroCrossing n edge hz limited rx => Sys2Proof.Machine.execZeroCrossing n edge hz limited rx s
  | .zcLost n => Sys2Proof.Machine.execZcLost n s
  | .zcRecovered n => Sys2Proof.Machine.execZcRecovered n s
  | .meshCellResponse n => Sys2Proof.Machine.execMeshCellResponse n s
  | .meshFrameAbandon n hop => Sys2Proof.Machine.execMeshFrameAbandon n hop s
  | .meshFrameReceived n => Sys2Proof.Machine.execMeshFrameReceived n s
  | .meshRelayForward n => Sys2Proof.Machine.execMeshRelayForward n s
  | .beacon n => Sys2Proof.Machine.execBeacon n s
  | .poll n m => Sys2Proof.Machine.execPoll n m s
  | .linkrep n own => Sys2Proof.Machine.execLinkrep n own s
  | .mapset n tx rx => Sys2Proof.Machine.execMapset n tx rx s
  | .mapsetAckDeadline n tx rx => Sys2Proof.Machine.execMapsetAckDeadline n tx rx s
  | .assign n m => Sys2Proof.Machine.execAssign n m s
  | .routeCompute n m => Sys2Proof.Machine.execRouteCompute n m s
  | .meshExchangeTimeout n => Sys2Proof.Machine.execMeshExchangeTimeout n s
  | .meshHarvitorExchange n => Sys2Proof.Machine.execMeshHarvitorExchange n s
  | .rmsTxRequest h => Sys2Proof.Machine.execRmsTxRequest h s
  | .rmsRxRelease h => Sys2Proof.Machine.execRmsRxRelease h s
  | .bootStage part stage ok digest => Sys2Proof.Machine.execBootStage part stage ok digest s
  | .bootBankSelect k => Sys2Proof.Machine.execBootBankSelect k s
  | .updBegin o hdr ecOk pqOk => Sys2Proof.Machine.execUpdBegin o hdr ecOk pqOk s
  | .updData o off data => Sys2Proof.Machine.execUpdData o off data s
  | .updEnd o mask fail => Sys2Proof.Machine.execUpdEnd o mask fail s
  | .updActivate o part flags at_ => Sys2Proof.Machine.execUpdActivate o part flags at_ s
  | .updStatus o => Sys2Proof.Machine.execUpdStatus o s
  | .updRemote o target mask at_ => Sys2Proof.Machine.execUpdRemote o target mask at_ s
  | .updRecover o t => Sys2Proof.Machine.execUpdRecover o t s
  | .updstat p => Sys2Proof.Machine.execUpdstat p s
  | .updactPreloss p => Sys2Proof.Machine.execUpdactPreloss p s
  | .updact p => Sys2Proof.Machine.execUpdact p s
  | .trialCommit => Sys2Proof.Machine.execTrialCommit s
  | .activationRejoinTimeout => Sys2Proof.Machine.execActivationRejoinTimeout s
  | .singleHalfActivationDrain => Sys2Proof.Machine.execSingleHalfActivationDrain s
  | .singleHalfActivationReset => Sys2Proof.Machine.execSingleHalfActivationReset s
  | .recoveryInfo h seq => Sys2Proof.Machine.execRecoveryInfo h seq s
  | .recoveryHeader h seq off data ecOk pqOk => Sys2Proof.Machine.execRecoveryHeader h seq off data ecOk pqOk s
  | .recoveryData h seq off data => Sys2Proof.Machine.execRecoveryData h seq off data s
  | .recoveryFinish h seq => Sys2Proof.Machine.execRecoveryFinish h seq s
  | .recoveryBoot h seq => Sys2Proof.Machine.execRecoveryBoot h seq s
  | .vholdSwitchClose => Sys2Proof.Machine.execVholdSwitchClose s
  | .holdupStart => Sys2Proof.Machine.execHoldupStart s
  | .holdupHalvesStop v => Sys2Proof.Machine.execHoldupHalvesStop v s
  | .holdupIslandsStop v => Sys2Proof.Machine.execHoldupIslandsStop v s
  | .holdupEnd => Sys2Proof.Machine.execHoldupEnd s
  | .moduleStart => Sys2Proof.Machine.execModuleStart s
  | .vholdCharged v => Sys2Proof.Machine.execVholdCharged v s
  | .resetN ns => Sys2Proof.Machine.execResetN ns s
  | .svcBtnRelease ms gap => Sys2Proof.Machine.execSvcBtnRelease ms gap s
  | .svcBtnStuck gap => Sys2Proof.Machine.execSvcBtnStuck gap s
  | .powerStateRequest h target => Sys2Proof.Machine.execPowerStateRequest h target s
  | .wake src => Sys2Proof.Machine.execWake src s
  | .wakeTimerExpiry => Sys2Proof.Machine.execWakeTimerExpiry s
  | .s4BatteryToS5 => Sys2Proof.Machine.execS4BatteryToS5 s
  | .ptpAnnounceReceived h dom utcOffset valid selected ticks => Sys2Proof.Machine.execPtpAnnounceReceived h dom utcOffset valid selected ticks s
  | .remotePowerUpOrReset p => Sys2Proof.Machine.execRemotePowerUpOrReset p s
  | .refereeDailyExercise => Sys2Proof.Machine.execRefereeDailyExercise s

end Sys2Proof.Machine
end

