-- ==== Sys2Proof/Machine/Step.lean ====
section
/-!
DEFINITION. One step: the command at the front of the queue runs with the queue's rest; on an empty queue the block idles.
-/

namespace Sys2Proof.Machine

/-- One step. An empty queue leaves the state as it is (DESIGN CHOICE): what happens in time happens by the commands that say so.
(DESIGN CHOICE, safe: log 3.) -/
def step (s : State) : Host.Outcome State Fault Refusal :=
  match s.pending with
  | [] => .next s
  | c :: rest => exec c { s with pending := rest }

/-- The state with a command put at the front of its queue.
(DESIGN CHOICE, safe: log 3.) -/
def State.push (s : State) (c : Instr) : State := { s with pending := c :: s.pending }

/-- The state with the command a table word spells at the front of its queue; unchanged where the word spells none.
(DESIGN CHOICE, safe: log 103.) -/
def State.withFetchWord (s : State) (nbits w : Nat) : State :=
  match Sys2Proof.decodeTableWord nbits w with
  | some c => s.push c
  | none => s

end Sys2Proof.Machine
end

