-- ==== Sys2Proof/WellFormed.lean ====
section
/-!
DEFINITION. Well-formed commands: what a command names exists. A verb's own operands are left to the verb, which refuses them by status.
-/

namespace Sys2Proof

/-- A mailbox command comes from one of the 32 command rings of its half (R500), with a CTAG of 32 bits and a HALF byte (R504). -/
def orgOk (o : Org) : Bool := Nat.blt o.ring 32 && Nat.blt o.ctag (2 ^ 32) && Nat.blt o.hb 256

/-- A descriptor has 64 bytes (R504). -/
def descOk (d : Desc) : Bool := d.bytes.length == 64 && (d.bytes ++ d.bulk).all fun b => Nat.blt b 256

/-- The lane is one of the 60 working lanes of a half (R166). -/
def laneOk (w : LaneAt) : Bool := Nat.blt w.lane.val 60

/-- What the command names exists: ports (R83), outputs, cabinets and their groups, lanes, rings, controllers, channels and the like. -/
def Instr.wellFormed : Instr → Bool
  | .undefinedOpcode o _ => orgOk o
  | .registerWrite _ _ _ off _ => off % 4 == 0
  | .tickEdge _ => true
  | .stagingWrite _ i _ => Nat.blt i 270
  | .stagingEntryStale _ i => Nat.blt i 270
  | .commitSnapshot _ _ => true
  | .snapshotPublish _ _ => true
  | .pointOwnerWrite idx _ typ _ => Nat.blt idx 33554432 && (Nat.ble 1 typ && Nat.ble typ 7)
  | .mirrorCopyReceived _ => true
  | .mirrorAck _ => true
  | .pointRestoreComplete _ idx => Nat.blt idx 33554432
  | .partitionFault _ _ => true
  | .partitionWatchdogExpiry _ => true
  | .ptpSyncReceived _ _ _ _ => true
  | .freqUpdate _ _ => true
  | .sysTimeStep o _ => orgOk o
  | .autoTimeStep _ => true
  | .holdoverEntry _ => true
  | .timeUncertain _ => true
  | .rtcRewrite _ => true
  | .startWaitExpiry _ _ => true
  | .ptpMasterSelectedAtStart _ _ => true
  | .lossOfReference _ => true
  | .lossOfLock _ => true
  | .pllLockRetry _ => true
  | .pllLockComplete _ _ => true
  | .bypassExit _ => true
  | .restartWithoutService _ _ => true
  | .sharedPllReferenceChange => true
  | .skewMeasure _ _ _ => true
  | .ingestDeadline _ => true
  | .ingestMapExchange _ _ => true
  | .uplinkAcceptanceLoss _ p => Nat.blt p 80
  | .allocationLatch _ _ => true
  | .downlinkDispatch _ p _ => Nat.blt p 80
  | .lineSyncGained _ p _ => Nat.blt p 80
  | .lineSyncLost _ p _ _ => Nat.blt p 80
  | .measureEntry _ p => Nat.blt p 80
  | .tickMarkerSend _ p => Nat.blt p 80
  | .dprSend _ p => Nat.blt p 80
  | .decReceived _ p _ _ => Nat.blt p 80
  | .delaySlew _ p => Nat.blt p 80
  | .helloReceived _ p _ => Nat.blt p 80
  | .joinAcknowledged _ p => Nat.blt p 80
  | .uplinkTickFrame _ p _ => Nat.blt p 80
  | .asyncSegmentReceived _ p _ => Nat.blt p 80
  | .asyncAckSend _ p _ => Nat.blt p 80
  | .asyncAckReceived _ p _ => Nat.blt p 80
  | .segmentResendTimeout _ p _ _ => Nat.blt p 80
  | .asyncFrameSend _ p _ => Nat.blt p 80
  | .tunnelMessageReceived _ p => Nat.blt p 80
  | .bulkLogReceived _ p => Nat.blt p 80
  | .timeMessageSend _ => true
  | .remoteDownlinkTickFrame p _ _ => Nat.blt p 80
  | .remoteSelection49us p => Nat.blt p 80
  | .remoteTickEdge p _ _ => Nat.blt p 80
  | .remoteTickMarker p _ _ => Nat.blt p 80
  | .linkLostForceOpen p => Nat.blt p 80
  | .remoteHelloSend p _ => Nat.blt p 80
  | .refereeRequest _ _ => true
  | .refereeGrant _ => true
  | .tokenRelease => true
  | .aliveSignalMissing => true
  | .handoverEdge => true
  | .twinHeartbeatSend _ => true
  | .twinHeartbeatReceived _ _ => true
  | .twinLinkDead _ => true
  | .relayedSnapshotReceived _ => true
  | .portCountTakeover => true
  | .cleanHealthReturn => true
  | .twnHandover o _ => orgOk o
  | .handoverReq => true
  | .handoverStateSend => true
  | .handoverStateAck => true
  | .handoverTimeout => true
  | .rejoinStart _ => true
  | .startPath _ _ => true
  | .shadowCompare _ _ => true
  | .digestCompare _ => true
  | .scrubBlock _ _ _ _ => true
  | .penaltyDecay _ => true
  | .healthWindowEnd _ => true
  | .unhealthyResetTimeout _ => true
  | .twnRelease o _ => orgOk o
  | .feedLost _ _ => true
  | .feedOk _ _ => true
  | .feedReverseCurrent _ => true
  | .oringTest _ _ => true
  | .pertArm o _ _ => orgOk o
  | .pertEnd _ => true
  | .claimLossRelinquish _ => true
  | .halfReset _ => true
  | .laneRunStart _ => true
  | .laneOverrun _ l => Nat.blt l 60
  | .nop w => laneOk w
  | .halt w => laneOk w
  | .rpt w _ _ => laneOk w
  | .rptv w _ _ _ => laneOk w
  | .movi w _ _ => laneOk w
  | .mov w _ _ => laneOk w
  | .add w _ _ _ => laneOk w
  | .sub w _ _ _ => laneOk w
  | .neg w _ _ => laneOk w
  | .abs w _ _ => laneOk w
  | .min w _ _ _ => laneOk w
  | .max w _ _ _ => laneOk w
  | .clmp w _ _ _ => laneOk w
  | .shl w _ _ _ => laneOk w
  | .shr w _ _ _ => laneOk w
  | .and w _ _ _ => laneOk w
  | .or w _ _ _ => laneOk w
  | .xor w _ _ _ => laneOk w
  | .sel w _ _ _ _ => laneOk w
  | .cmp w _ _ _ _ => laneOk w
  | .plog w _ _ _ _ => laneOk w
  | .mul w _ _ _ => laneOk w
  | .mac w _ _ _ => laneOk w
  | .msu w _ _ _ => laneOk w
  | .lda w _ _ => laneOk w
  | .adda w _ _ => laneOk w
  | .suba w _ _ => laneOk w
  | .mova w _ _ => laneOk w
  | .sha w _ _ => laneOk w
  | .amulv w _ _ => laneOk w
  | .str w _ _ _ => laneOk w
  | .aclmp w _ _ _ _ => laneOk w
  | .ld w _ _ => laneOk w
  | .st w _ _ => laneOk w
  | .ldw w _ _ => laneOk w
  | .stw w _ _ => laneOk w
  | .ldx w _ _ => laneOk w
  | .movx w _ _ => laneOk w
  | .addx w _ _ => laneOk w
  | .out w _ _ => laneOk w
  | .claspDrain _ => true
  | .clnStore o _ => orgOk o
  | .clnFree o _ => orgOk o
  | .clnList o => orgOk o
  | .clnSetpoint o _ _ _ => orgOk o
  | .clnMode o _ _ _ _ => orgOk o
  | .clnManual o _ _ _ => orgOk o
  | .clnInject o _ _ _ _ _ _ _ _ _ => orgOk o
  | .injectionEnd _ lane blk => Nat.blt lane 60 && Nat.blt blk 8
  | .clnCapArm o _ _ _ _ _ _ _ _ _ _ => orgOk o
  | .captureTrigger _ _ => true
  | .clnCapRead o _ _ _ => orgOk o
  | .probeComplete _ c g => Nat.blt c 32 && Nat.blt g 4
  | .hiccupTrip _ c g => Nat.blt c 32 && Nat.blt g 4
  | .hiccupWindowEnd _ c g => Nat.blt c 32 && Nat.blt g 4
  | .hiccupWaitEnd _ c g => Nat.blt c 32 && Nat.blt g 4
  | .startComplete _ c g => Nat.blt c 32 && Nat.blt g 4
  | .retriesReset _ c g => Nat.blt c 32 && Nat.blt g 4
  | .loadStepDetected _ c g => Nat.blt c 32 && Nat.blt g 4
  | .holdOffEnd _ c g => Nat.blt c 32 && Nat.blt g 4
  | .phaseAddStart _ c g => Nat.blt c 32 && Nat.blt g 4
  | .phaseShedStart _ c g => Nat.blt c 32 && Nat.blt g 4
  | .burstEntry _ c g => Nat.blt c 32 && Nat.blt g 4
  | .burstExit _ c g => Nat.blt c 32 && Nat.blt g 4
  | .pstClear o _ _ => orgOk o
  | .cabinetCommandApply p => Nat.blt p 32
  | .ditherStep p => Nat.blt p 32
  | .plannerRun => true
  | .drainComplete _ k => Nat.blt k 48
  | .drainTimeout _ k => Nat.blt k 48
  | .polesOpened _ k => Nat.blt k 48
  | .poleOpenTimeout _ k => Nat.blt k 48
  | .polesClosed _ k => Nat.blt k 48
  | .poleCloseTimeout _ k => Nat.blt k 48
  | .matchPass _ k => Nat.blt k 48
  | .matchTimeout _ k => Nat.blt k 48
  | .changeCabinetLost _ k c => Nat.blt k 48 && Nat.blt c 32
  | .uncommandedPoleOpen _ n _ => Nat.blt n 512
  | .cnpAssign o _ _ => orgOk o
  | .cnpUnpin o _ => orgOk o
  | .cnpPoleClear o _ _ => orgOk o
  | .thermalUpdate _ => true
  | .ceilingSend _ => true
  | .ceilingStage _ => true
  | .predictionDataComplete _ m => Nat.blt m 64
  | .modelInit _ m => Nat.blt m 64
  | .sensorRecovered _ m k => Nat.blt m 64 && Nat.blt k 7
  | .sensorSuspect _ m k => Nat.blt m 64 && Nat.blt k 7
  | .sensorSuspectCleared _ m k => Nat.blt m 64 && Nat.blt k 7
  | .coolantRangeCleared _ m => Nat.blt m 64
  | .tjEstimate _ _ _ => true
  | .tjDiodeReset _ _ => true
  | .throttleExit _ => true
  | .derateUpdate _ => true
  | .thermalPowerDown _ => true
  | .thermalEmergencyPowerDown _ => true
  | .thermalRestart _ => true
  | .thmRelease o => orgOk o
  | .thmShutdownRead o _ _ => orgOk o
  | .flashWriteResume _ => true
  | .bntcSample _ => true
  | .pilotStateChange k => Nat.blt k 48
  | .slacMessage k _ _ => Nat.blt k 48
  | .slacMatch k _ => Nat.blt k 48
  | .vehicleMessage k _ => Nat.blt k 48
  | .sessionStateTimeout k _ => Nat.blt k 48
  | .sessionStop k _ => Nat.blt k 48
  | .stoppingComplete k => Nat.blt k 48
  | .weldCheckComplete k => Nat.blt k 48
  | .vehicleStopGraceExpiry k => Nat.blt k 48
  | .coolantSessionTimeout k => Nat.blt k 48
  | .vehicleLimitsStage _ => true
  | .dcmdSend k _ => Nat.blt k 48
  | .dcmdApply k => Nat.blt k 48
  | .sessionKeyOrphaned k => Nat.blt k 48
  | .sessionFailoverResume _ => true
  | .sessionMirrorAck k => Nat.blt k 48
  | .vehAuth o _ _ _ => orgOk o
  | .vehStop o _ _ => orgOk o
  | .vehList o _ _ _ => orgOk o
  | .vehStatus o _ => orgOk o
  | .meteringSampleClose k => Nat.blt k 48
  | .acBlock i _ => Nat.blt i 2
  | .dualIntegrationCompare _ _ => true
  | .pulseEmit n => Nat.blt n 8
  | .testPulseOutput n => Nat.blt n 8
  | .adcReferenceCheck _ => true
  | .sealedParameterCheck _ => true
  | .islandFirmwareCheck _ => true
  | .islandWatchdogExpiry => true
  | .intakeSupervision i _ => Nat.blt i 2
  | .batteryOperationEntry _ => true
  | .batteryOperationEnd _ => true
  | .tamperSample levels => Nat.blt levels 16
  | .metInst o _ => orgOk o
  | .metLogRead o _ _ _ => orgOk o
  | .metBattRead o _ => orgOk o
  | .demandIntervalClose i => Nat.blt i 2
  | .billingPeriodClose => true
  | .bilClose o => orgOk o
  | .tariffActivation => true
  | .rateSwitch => true
  | .billingSave => true
  | .powerFailSave _ => true
  | .billingRestore _ _ _ => true
  | .billingGapCatchup => true
  | .timeValidRestored => true
  | .lomvorRecord k _ => Nat.blt k 48
  | .displayDwell => true
  | .keyA => true
  | .keyB => true
  | .keyC => true
  | .keyD => true
  | .tokenEntry k _ => Nat.blt k 48
  | .keypad _ p => (Nat.ble 32 p && Nat.blt p 80)
  | .tokenEntryTimeout => true
  | .keypadLockoutEnd _ => true
  | .creditReport k => Nat.blt k 48
  | .bilRead o _ _ => orgOk o
  | .bilTariffLoad o _ => orgOk o
  | .bilTariffRead o _ => orgOk o
  | .bilPeriodRead o _ => orgOk o
  | .bilIntervalRead o _ _ _ => orgOk o
  | .bilRecordRead o _ => orgOk o
  | .bilLedgerRead o _ _ => orgOk o
  | .demandCapStage i => Nat.blt i 2
  | .lktGenerate o _ _ => orgOk o
  | .lktImport o _ _ _ _ => orgOk o
  | .lktDerive o _ _ _ => orgOk o
  | .lktAgree o _ _ _ _ => orgOk o
  | .lktInvalidate o _ _ => orgOk o
  | .lktInfo o _ => orgOk o
  | .lktPublic o _ _ => orgOk o
  | .lktPair o _ _ _ _ _ => orgOk o
  | .lktRoll o _ _ => orgOk o
  | .keyrollAckDeadline p => Nat.blt p 80
  | .keyrollSwitch p => Nat.blt p 80
  | .keyrollRetire p => Nat.blt p 80
  | .lktAttest o _ _ _ _ => orgOk o
  | .lktOp o _ _ _ _ _ _ _ => orgOk o
  | .lktTxquery o _ => orgOk o
  | .invalidationCutoff _ => true
  | .orphanedOperationAbort o => orgOk o
  | .locketSweep => true
  | .journalRecovery => true
  | .materialTagFault idx => Nat.blt idx 16384
  | .safetyInputSample _ _ => true
  | .safetyDiscrepancy n => Nat.blt n 16
  | .channelCompare _ _ => true
  | .safetyConfigCrcCheck _ _ => true
  | .islandInternalReset => true
  | .safetyTestPulse n _ _ => Nat.blt n 8
  | .contactorFeedbackChange n _ _ => Nat.blt n 512
  | .feedbackTimeout _ _ => true
  | .zoneDemand z => Nat.blt z 8
  | .envelopeViolation z => Nat.blt z 8
  | .energyRemoval z => Nat.blt z 8
  | .safeStopTimeout z => Nat.blt z 8
  | .stoTimeout _ => true
  | .resetPulse _ => true
  | .resetJammed _ => true
  | .zoneReset z => Nat.blt z 8
  | .safetyStateDelivery => true
  | .harvitorPduReceived n _ => Nat.blt n 128
  | .harvitorTimeout n => Nat.blt n 128
  | .harvitorDownlinkBuild _ => true
  | .harvitorCycleSend n => Nat.blt n 128
  | .safStop o _ => orgOk o
  | .safFaultClear o _ => orgOk o
  | .safLogRead o _ _ => orgOk o
  | .sqTailDoorbell _ n _ => Nat.blt n 32
  | .commandFetch _ n d => Nat.blt n 32 && descOk d
  | .forwardWaitTimeout o => orgOk o
  | .completionWrite _ => true
  | .cqHeadWrite _ n _ => Nat.blt n 64
  | .msixCoalesceTimeout _ n => Nat.blt n 64
  | .ringDmaFault _ n => Nat.blt n 64
  | .ringEnableWrite _ n _ => Nat.blt n 64
  | .mailboxDatagram _ n _ => Nat.blt n 64
  | .datagramResendTimeout _ n _ => Nat.blt n 64
  | .bindingIdleExpiry _ n => Nat.blt n 64
  | .sysInfo o => orgOk o
  | .sysSessionOpen o _ _ => orgOk o
  | .sysSessionProve o _ _ => orgOk o
  | .sysSessionClose o => orgOk o
  | .sessionOpenLapse _ n => Nat.blt n 32
  | .sessionIdleExpiry _ n => Nat.blt n 32
  | .roleLockoutEnd _ role => (Nat.ble 1 role && Nat.ble role 5)
  | .cfgRead o _ _ _ => orgOk o
  | .cfgShadowRead o _ _ _ => orgOk o
  | .cfgWrite o _ _ _ => orgOk o
  | .cfgCommit o _ => orgOk o
  | .cfgDiscard o _ => orgOk o
  | .cntClear o _ _ _ => orgOk o
  | .cfgState o _ => orgOk o
  | .pntRead o _ => orgOk o
  | .pntReadMulti o _ => orgOk o
  | .pntWrite o _ _ _ => orgOk o
  | .pntSubscribe o _ _ _ => orgOk o
  | .pntUnsubscribe o _ => orgOk o
  | .subscriptionDelivery _ _ => true
  | .eventDelivery _ => true
  | .gpioEdge p _ => Nat.blt p 32
  | .gpioSet _ _ => true
  | .gpioClr _ _ => true
  | .timerEnable _ t ofs => Nat.blt t 4 && Nat.blt ofs 5000
  | .timerExpiry _ t => Nat.blt t 4
  | .wideValueLatch _ _ _ => true
  | .aliasWrite _ b off op => Nat.blt b 32 && (Nat.blt off 0x10000 && off % 4 == 0) && Nat.blt op 4
  | .claimGatedWrite _ => true
  | .busError _ => true
  | .gateCntClear _ => true
  | .canTxRequest _ n b => Nat.blt n 4 && Nat.blt b 3
  | .canTxAbort _ n b => Nat.blt n 4 && Nat.blt b 3
  | .canTxAttemptEnd n _ _ => Nat.blt n 4
  | .canFrameReceived n _ _ => Nat.blt n 4
  | .canRxRelease _ n => Nat.blt n 4
  | .canBusOff n => Nat.blt n 4
  | .canBoffRecovery _ n _ => Nat.blt n 4
  | .canErrorStateChange n => Nat.blt n 4
  | .abrStart _ n => Nat.blt n 4
  | .abrStop _ n => Nat.blt n 4
  | .abrWindowExpiry n => Nat.blt n 4
  | .abrFound n => Nat.blt n 4
  | .exchangeLimitsFrame n r => Nat.blt n 4 && Nat.blt r 8
  | .exchangeSetpointPeriod r => Nat.blt r 8
  | .exchangeTxb1Next n => Nat.blt n 4
  | .lswEnable _ c _ => Nat.blt c 16
  | .lswDisable _ c => Nat.blt c 16
  | .lswClr _ c => Nat.blt c 16
  | .lswInrushEnd c _ => Nat.blt c 16
  | .lswRetryWaitEnd c => Nat.blt c 16
  | .lswLimitTimeout c _ => Nat.blt c 16
  | .lswThermal c _ => Nat.blt c 16
  | .lswGroupUndervoltage g => Nat.blt g 4
  | .lswGroupUvRecovery g => Nat.blt g 4
  | .lswTotalOverload _ => true
  | .lswOpenLoad c _ => Nat.blt c 16
  | .lswSenseStep => true
  | .lswSlotDutyWrite => true
  | .lswPwmPeriod c => Nat.blt c 16
  | .lswVfSample g _ _ _ => Nat.blt g 4
  | .zeroCrossing n _ _ _ _ => Nat.blt n 2
  | .zcLost n => Nat.blt n 2
  | .zcRecovered n => Nat.blt n 2
  | .meshCellResponse n => Nat.blt n 2
  | .meshFrameAbandon n _ => Nat.blt n 2
  | .meshFrameReceived n => Nat.blt n 2
  | .meshRelayForward n => Nat.blt n 2
  | .beacon n => Nat.blt n 2
  | .poll n m => Nat.blt n 2 && (Nat.ble 1 m && Nat.ble m 254)
  | .linkrep n _ => Nat.blt n 2
  | .mapset n _ _ => Nat.blt n 2
  | .mapsetAckDeadline n _ _ => Nat.blt n 2
  | .assign n m => Nat.blt n 2 && (Nat.ble 1 m && Nat.ble m 254)
  | .routeCompute n m => Nat.blt n 2 && (Nat.ble 1 m && Nat.ble m 254)
  | .meshExchangeTimeout n => Nat.blt n 2
  | .meshHarvitorExchange n => Nat.blt n 2
  | .rmsTxRequest _ => true
  | .rmsRxRelease _ => true
  | .bootStage _ _ _ _ => true
  | .bootBankSelect _ => true
  | .updBegin o _ _ _ => orgOk o
  | .updData o _ _ => orgOk o
  | .updEnd o _ _ => orgOk o
  | .updActivate o _ _ _ => orgOk o
  | .updStatus o => orgOk o
  | .updRemote o _ _ _ => orgOk o
  | .updRecover o _ => orgOk o
  | .updstat p => Nat.blt p 80
  | .updactPreloss p => Nat.blt p 80
  | .updact p => Nat.blt p 80
  | .trialCommit => true
  | .activationRejoinTimeout => true
  | .singleHalfActivationDrain => true
  | .singleHalfActivationReset => true
  | .recoveryInfo _ _ => true
  | .recoveryHeader _ _ _ _ _ _ => true
  | .recoveryData _ _ _ _ => true
  | .recoveryFinish _ _ => true
  | .recoveryBoot _ _ => true
  | .vholdSwitchClose => true
  | .holdupStart => true
  | .holdupHalvesStop _ => true
  | .holdupIslandsStop _ => true
  | .holdupEnd => true
  | .moduleStart => true
  | .vholdCharged _ => true
  | .resetN _ => true
  | .svcBtnRelease _ _ => true
  | .svcBtnStuck _ => true
  | .powerStateRequest _ _ => true
  | .wake _ => true
  | .wakeTimerExpiry => true
  | .s4BatteryToS5 => true
  | .ptpAnnounceReceived _ _ _ _ _ _ => true
  | .remotePowerUpOrReset p => Nat.blt p 80
  | .refereeDailyExercise => true

end Sys2Proof
end

