-- ==== Sys2Proof/Safety.lean ====
section
/-!
DEFINITION. The terms claims are stated in: where a command ends, what a completion answers, when a verb runs, which events stand in a half's log,
and what a well-kept state is.
-/

namespace Sys2Proof.Machine

/-- The command ends in a next state of which `P` holds. -/
def Ends (c : Instr) (s : State) (P : State → Prop) : Prop := ∃ t, exec c s = .next t ∧ P t

/-- A completion of the command of `o` has been produced (R506): opcode, status, and whether it is the final one. -/
def Answered (t : State) (o : Org) (opc st : Nat) (final : Bool) : Prop :=
  ∃ c ∈ (t.hf o.half).mbx.compl, c.half = o.half ∧ c.ring = o.ring ∧ c.ctag = o.ctag ∧ c.opc = opc ∧ c.status = st ∧ c.final = final

/-- The same with its payload. -/
def AnsweredWith (t : State) (o : Org) (opc st : Nat) (final : Bool) (p : List Nat) : Prop :=
  ∃ c ∈ (t.hf o.half).mbx.compl, c.half = o.half ∧ c.ring = o.ring ∧ c.ctag = o.ctag ∧ c.opc = opc ∧ c.status = st ∧ c.final = final ∧ c.payload = p

/-- A verb of the half in charge runs at half `x` under `role` (R504, R509, R515): nothing holds it, the half that received it reaches the half in
charge, and HALF is 0. -/
def RunsAt (s : State) (o : Org) (opc : Nat) (x : Half) (role : Nat) : Prop :=
  s.inhibited o.half opc = false ∧ s.lktWaits opc = false ∧ s.charge = some x ∧ s.holding = false ∧ (x = o.half ∨ s.twinUp o.half = true) ∧
    s.ringRole o.half o.ring = some role ∧ o.hb = 0

/-- A verb that runs at the half that received it, under `role` (R509, R515). -/
def RunsHere (s : State) (o : Org) (opc : Nat) (role : Nat) : Prop :=
  s.inhibited o.half opc = false ∧ s.ringRole o.half o.ring = some role ∧ o.hb = 0

/-- An answer of `n` bytes goes to the command of `o` (R507): it fits the completion, or the BOUT_CAP of the command where that has been fetched. -/
def Room (s : State) (o : Org) (n : Nat) : Prop :=
  n ≤ 24 ∨ n ≤ (((s.hf o.half).mbx.started.find? fun c => sameCmd c.org o).map (·.cap)).getD 16777216

/-- The command of `o` has started and has not ended (R505). -/
def Running (s : State) (o : Org) : Prop := (s.hf o.half).mbx.started.any (fun c => sameCmd c.org o) = true

/-- Half `h` has produced an event record with this severity and code whose DETAIL begins with `d` (R526, R527). -/
def Raised (t : State) (h : Half) (sev code : Nat) (d : List Nat) : Prop :=
  ∃ r ∈ (t.hf h).mbx.events, r.sev = sev ∧ r.code = code ∧ r.detail = padTo 16 d

/-- The parts of the state that a frame names: the model's own queue and count of free values, the registers in force block by block, their shadow and the commit blocks, what
each half holds, and what stands outside the halves.
(DESIGN CHOICE, safe: log 104.) -/
inductive Part where
  | queue | free | regs (b : Blk) | shadow | blocks
  | tck (h : Half) | stg (h : Half) | pts (h : Half) | saved (h : Half) | mirOut (h : Half) | restWait (h : Half) | part (h : Half) | ports (h : Half) | bulk (h : Half)
  | twn (h : Half) | cln (h : Half) | pst (h : Half) | cnp (h : Half) | safv (h : Half) | pub (h : Half) | thm (h : Half) | mbx (h : Half) | tmr (h : Half)
  | ref | ho | pll | rtc | rems | cabs | therm | veh | vehG | met | bil | lkt | saf | cans | lsw | mesh | upd | pwr
  deriving DecidableEq, Repr

/-- Two states agree on a part.
(DESIGN CHOICE, safe: log 104.) -/
def Same (s t : State) : Part → Prop
  | .queue => t.pending = s.pending
  | .free => t.free = s.free
  | .regs b => ∀ h off, t.rg b h off = s.rg b h off
  | .shadow => t.shadow = s.shadow
  | .blocks => t.blocks = s.blocks
  | .tck h => (t.hf h).tck = (s.hf h).tck
  | .stg h => (t.hf h).stg = (s.hf h).stg
  | .pts h => (t.hf h).pts = (s.hf h).pts
  | .saved h => (t.hf h).saved = (s.hf h).saved
  | .mirOut h => (t.hf h).mirOut = (s.hf h).mirOut
  | .restWait h => (t.hf h).restWait = (s.hf h).restWait
  | .part h => (t.hf h).part = (s.hf h).part
  | .ports h => (t.hf h).ports = (s.hf h).ports
  | .bulk h => (t.hf h).bulk = (s.hf h).bulk
  | .twn h => (t.hf h).twn = (s.hf h).twn
  | .cln h => (t.hf h).cln = (s.hf h).cln
  | .pst h => (t.hf h).pst = (s.hf h).pst
  | .cnp h => (t.hf h).cnp = (s.hf h).cnp
  | .safv h => (t.hf h).saf = (s.hf h).saf
  | .pub h => (t.hf h).pub = (s.hf h).pub
  | .thm h => (t.hf h).thm = (s.hf h).thm
  | .mbx h => (t.hf h).mbx = (s.hf h).mbx
  | .tmr h => (t.hf h).tmr = (s.hf h).tmr
  | .ref => t.ref = s.ref
  | .ho => t.ho = s.ho
  | .pll => t.pll = s.pll
  | .rtc => t.rtc = s.rtc
  | .rems => t.rems = s.rems
  | .cabs => t.cabs = s.cabs
  | .therm => t.therm = s.therm
  | .veh => t.veh = s.veh
  | .vehG => t.vehG = s.vehG
  | .met => t.met = s.met
  | .bil => t.bil = s.bil
  | .lkt => t.lkt = s.lkt
  | .saf => t.saf = s.saf
  | .cans => t.cans = s.cans
  | .lsw => t.lsw = s.lsw
  | .mesh => t.mesh = s.mesh
  | .upd => t.upd = s.upd
  | .pwr => t.pwr = s.pwr

/-- Every part of the state but those listed is as before.
(DESIGN CHOICE, safe: log 102.) -/
def Frame (ps : List Part) (s t : State) : Prop := ∀ p, p ∉ ps → Same s t p

/-- The lane an instruction is executed by. -/
def laneAt (s : State) (w : LaneAt) : LaneS := s.lane w.half w.lane.val

/-- The lane runs, its budget covers `cyc` more cycles, and the instruction is taken (R178, R180, R196). -/
def LaneTakes (s : State) (w : LaneAt) (cyc : Nat) : Prop :=
  (laneAt s w).run = true ∧ (laneAt s w).cyc + cyc ≤ s.laneBudget w.half (s.laneIdx w.half w.lane.val) ∧ condHolds (laneAt s w) w.cond = true ∧ (laneAt s w).taken = true

/-- The lane has moved on by one instruction of `cyc` cycles (R179, R181); the other lanes, and all the half keeps for its lanes otherwise, are as before. -/
def LaneMoved (s t : State) (w : LaneAt) (cyc : Nat) : Prop :=
  (laneAt t w).cyc = (laneAt s w).cyc + cyc ∧ (laneAt t w).pc = (laneAt s w).advance.pc ∧ (laneAt t w).reps = (laneAt s w).advance.reps ∧
    (∀ k, k ≠ w.lane.val → t.lane w.half k = s.lane w.half k) ∧ (t.hf w.half).cln = { (s.hf w.half).cln with lanes := (t.hf w.half).cln.lanes } ∧
    Frame [.cln w.half] s t

/-- Value register `d` takes `r`, saturated to 16 bits; SAT is set where that changes the value (R171). Nothing else of the lane changes. -/
def SetsV (s t : State) (w : LaneAt) (cyc d : Nat) (r : Int) : Prop :=
  LaneMoved s t w cyc ∧ (laneAt t w).rv d = clampI (-32768) 32767 r ∧ (laneAt t w).sat = ((laneAt s w).sat || decide (r < -32768 ∨ 32767 < r)) ∧
    (∀ i, i ≠ d → (laneAt t w).rv i = (laneAt s w).rv i) ∧ (laneAt t w).run = (laneAt s w).run ∧ (laneAt t w).a = (laneAt s w).a ∧
    (laneAt t w).p = (laneAt s w).p ∧ (laneAt t w).x = (laneAt s w).x ∧ (laneAt t w).mem = (laneAt s w).mem ∧ (laneAt t w).line = (laneAt s w).line

/-- Accumulator `d` takes `r`, saturated to 40 bits; SAT is set where that changes the value (R171). But for the predicates nothing else of the lane
changes. -/
def SetsA (s t : State) (w : LaneAt) (cyc d : Nat) (r : Int) : Prop :=
  LaneMoved s t w cyc ∧ (laneAt t w).ra d = clampI (-549755813888) 549755813887 r ∧
    (laneAt t w).sat = ((laneAt s w).sat || decide (r < -549755813888 ∨ 549755813887 < r)) ∧
    (∀ i, i ≠ d → (laneAt t w).ra i = (laneAt s w).ra i) ∧ (laneAt t w).run = (laneAt s w).run ∧ (laneAt t w).v = (laneAt s w).v ∧
    (laneAt t w).x = (laneAt s w).x ∧ (laneAt t w).mem = (laneAt s w).mem ∧ (laneAt t w).line = (laneAt s w).line

/-- Nothing of the lane but predicate `d` changes, which is `b`. -/
def SetsP (s t : State) (w : LaneAt) (cyc d : Nat) (b : Bool) : Prop :=
  LaneMoved s t w cyc ∧ (laneAt t w).rp d = b ∧ (∀ i, i ≠ d → (laneAt t w).rp i = (laneAt s w).rp i) ∧ (laneAt t w).run = (laneAt s w).run ∧
    (laneAt t w).v = (laneAt s w).v ∧ (laneAt t w).a = (laneAt s w).a ∧ (laneAt t w).x = (laneAt s w).x ∧ (laneAt t w).mem = (laneAt s w).mem ∧
    (laneAt t w).line = (laneAt s w).line ∧ (laneAt t w).sat = (laneAt s w).sat

/-- Group `g` of cabinet `c` makes its steps in this tick with the inputs `i`: the uplink is fresh, the cabinet neither lost nor unrouted, and the group has phases (R249). -/
def GroupSteps (s : State) (h : Half) (c g : Nat) (i : SeqIn) : Prop :=
  i = seqIn s h c g false ∧ i.fresh = true ∧ i.dead = false ∧ i.unrouted = false ∧ i.phases ≠ []

/-- The registers of every block. -/
def allRegs : List Part :=
  [.regs .tck, .regs .mbx, .regs .twn, .regs .nlk, .regs .cln, .regs .pst, .regs .cnp, .regs .thm, .regs .veh, .regs .met, .regs .bil, .regs .lkt, .regs .saf,
   .regs .upd, .regs .iox, .regs .can, .regs .gpio, .regs .lsw, .regs .rms, .regs .pwr, .regs .loc]

/-- Every part of what half `h` holds. -/
def halfParts (h : Half) : List Part :=
  [.tck h, .stg h, .pts h, .saved h, .mirOut h, .restWait h, .part h, .ports h, .bulk h, .twn h, .cln h, .pst h, .cnp h, .safv h, .pub h, .thm h, .mbx h, .tmr h]

/-- What half `h` loses at a reset: all it holds but the points saved in its flash. -/
def lostParts (h : Half) : List Part :=
  [.tck h, .stg h, .pts h, .mirOut h, .restWait h, .part h, .ports h, .bulk h, .twn h, .cln h, .pst h, .cnp h, .safv h, .pub h, .thm h, .mbx h, .tmr h]

/-- The mailboxes of both halves: where events and completions are produced. -/
def bothMbx : List Part := [.mbx .A, .mbx .B]

/-- The canonical form of a memory of the customer partition: addresses rise, and no word listed is 0, which an unlisted word reads as.
(DESIGN CHOICE, unsafe: log 2.) -/
def Memory.wf (m : Tab Word) : Bool := tabWf 0 m

/-- The register file, its shadow and the memories of the partitions are listed in order, no word twice; the memories are in canonical form. -/
def StoresInOrder (s : State) : Prop :=
  rising s.regs = true ∧ rising s.shadow = true ∧ ∀ h, Memory.wf (s.hf h).part.dram = true ∧ Memory.wf (s.hf h).part.flash = true

/-- Who is in charge is beyond doubt (R129, R130, R138): a half acts in charge only while it holds the token; a claim, and the claim the referee last granted a
half, name the half in bit 0 and never exceed what the site epoch allows; the holder of the token has the higher claim, that of the site epoch. -/
def ChargeInOrder (s : State) : Prop :=
  (∀ h, (s.hf h).twn.acting = true → s.ref.token = some h) ∧
    (∀ h, (s.hf h).twn.claim % 2 = hbit h ∧ (s.hf h).twn.claim ≤ 2 * s.ref.e + 1 ∧ s.lastClaim h % 2 = hbit h ∧ s.lastClaim h ≤ 2 * s.ref.e + 1) ∧
    ∀ h, s.ref.token = some h → (s.hf h).twn.claim = 2 * s.ref.e + hbit h ∧ s.lastClaim h = (s.hf h).twn.claim ∧
      (s.hf (other h)).twn.claim < (s.hf h).twn.claim ∧ s.lastClaim (other h) < (s.hf h).twn.claim

/-- The parts of the state that each command may change; it leaves every other part as it is.
(DESIGN CHOICE, safe: log 102.) -/
def touches : Instr → List Part
  | .undefinedOpcode .. | .clnList .. | .clnCapRead .. | .thmShutdownRead .. | .vehStatus .. | .metInst .. | .metLogRead .. | .metBattRead ..
  | .bilRead .. | .bilTariffRead .. | .bilPeriodRead .. | .bilIntervalRead .. | .bilRecordRead .. | .bilLedgerRead .. | .lktInfo .. | .lktPublic ..
  | .lktAttest .. | .lktTxquery .. | .safLogRead .. | .forwardWaitTimeout .. | .msixCoalesceTimeout .. | .mailboxDatagram ..
  | .datagramResendTimeout .. | .bindingIdleExpiry .. | .sysInfo .. | .sessionOpenLapse .. | .roleLockoutEnd .. | .cfgRead .. | .cfgShadowRead ..
  | .cfgState .. | .pntSubscribe .. | .pntUnsubscribe .. | .updStatus .. => bothMbx
  | .registerWrite .. =>
    allRegs ++ bothMbx ++ [.free, .shadow, .blocks, .tck .A, .tck .B, .part .A, .part .B, .ports .A, .ports .B, .twn .A, .twn .B, .cln .A, .cln .B, .thm .A, .thm .B, .tmr .A, .tmr .B, .ref, .ho, .lkt, .saf, .cans, .lsw, .mesh, .upd, .pwr]
  | .tickEdge .. => allRegs ++ halfParts .A ++ halfParts .B ++ [.free, .shadow, .blocks, .ref, .ho, .rtc, .veh, .vehG, .met, .bil, .lkt, .saf, .upd]
  | .stagingWrite .. | .demandCapStage .. => [.stg .A, .stg .B]
  | .stagingEntryStale .. => bothMbx ++ [.stg .A, .stg .B]
  | .commitSnapshot .. => [.blocks]
  | .snapshotPublish .. => bothMbx ++ [.regs .tck, .tck .A, .tck .B, .twn .A, .twn .B, .cln .A, .cln .B, .pub .A, .pub .B, .veh]
  | .pointOwnerWrite .. | .mirrorCopyReceived .. => [.pts .A, .pts .B, .mirOut .A, .mirOut .B, .thm .A, .thm .B]
  | .mirrorAck .. => [.pts .A, .pts .B, .mirOut .A, .mirOut .B]
  | .pointRestoreComplete .. => bothMbx ++ [.pts .A, .pts .B, .restWait .A, .restWait .B]
  | .partitionFault .. | .partitionWatchdogExpiry .. | .busError .. => bothMbx ++ [.part .A, .part .B]
  | .ptpSyncReceived .. | .sysTimeStep .. | .holdoverEntry .. | .timeUncertain .. => bothMbx ++ [.tck .A, .tck .B]
  | .freqUpdate .. | .autoTimeStep .. | .pllLockRetry .. | .bypassExit .. | .ingestDeadline .. => [.tck .A, .tck .B]
  | .rtcRewrite .. => [.rtc]
  | .startWaitExpiry .. => [.free, .tck .A, .tck .B, .rtc]
  | .ptpMasterSelectedAtStart .. => bothMbx ++ [.free, .tck .A, .tck .B, .rtc]
  | .lossOfReference .. | .lossOfLock .. | .skewMeasure .. => bothMbx ++ [.regs .tck, .tck .A, .tck .B, .twn .A, .twn .B]
  | .pllLockComplete .. => [.regs .can, .tck .A, .tck .B, .pll]
  | .restartWithoutService .. | .startPath .. => allRegs ++ bothMbx ++ [.free, .tck .A, .tck .B, .twn .A, .twn .B, .ref, .rtc]
  | .sharedPllReferenceChange .. => bothMbx ++ [.pll]
  | .ingestMapExchange .. => [.free, .twn .A, .twn .B, .cnp .A, .cnp .B]
  | .uplinkAcceptanceLoss .. | .polesClosed .. | .updactPreloss .. => [.cnp .A, .cnp .B]
  | .allocationLatch .. => bothMbx ++ [.regs .tck, .regs .cnp, .tck .A, .tck .B, .twn .A, .twn .B, .cnp .A, .cnp .B]
  | .downlinkDispatch .. => bothMbx ++ [.free, .regs .tck, .tck .A, .tck .B, .ports .A, .ports .B, .twn .A, .twn .B]
  | .lineSyncGained .. | .measureEntry .. | .decReceived .. => bothMbx ++ [.ports .A, .ports .B]
  | .lineSyncLost .. => bothMbx ++ [.regs .nlk, .ports .A, .ports .B, .rems]
  | .tickMarkerSend .. | .dprSend .. | .delaySlew .. | .asyncAckSend .. | .timeMessageSend .. | .keyrollSwitch .. => [.ports .A, .ports .B]
  | .helloReceived .. => bothMbx ++ [.regs .nlk, .ports .A, .ports .B]
  | .joinAcknowledged .. => bothMbx ++ [.ports .A, .ports .B, .rems, .cabs]
  | .uplinkTickFrame .. => bothMbx ++ [.free, .regs .tck, .regs .twn, .regs .nlk, .blocks, .ports .A, .ports .B, .twn .A, .twn .B, .cln .A, .cln .B, .met, .saf]
  | .asyncSegmentReceived .. | .asyncAckReceived .. | .segmentResendTimeout .. => [.regs .nlk, .ports .A, .ports .B]
  | .asyncFrameSend .. => [.free, .ports .A, .ports .B, .rems, .cabs]
  | .tunnelMessageReceived .. => [.regs .nlk, .ports .A, .ports .B, .veh]
  | .bulkLogReceived .. => [.ports .A, .ports .B, .bulk .A, .bulk .B]
  | .remoteDownlinkTickFrame .. | .remoteSelection49us .. | .remoteTickMarker .. | .linkLostForceOpen .. | .remoteHelloSend .. | .dcmdApply .. => [.rems]
  | .remoteTickEdge .. => [.free, .rems]
  | .refereeRequest .. => bothMbx ++ [.twn .A, .twn .B, .ref]
  | .refereeGrant .. => bothMbx ++ [.regs .twn, .blocks, .twn .A, .twn .B, .cln .A, .cln .B, .ref]
  | .tokenRelease .. | .aliveSignalMissing .. | .portCountTakeover .. => bothMbx ++ [.regs .twn, .blocks, .twn .A, .twn .B, .cln .A, .cln .B, .ref, .ho]
  | .handoverEdge .. => bothMbx ++ [.regs .twn, .blocks, .ports .A, .ports .B, .twn .A, .twn .B, .cln .A, .cln .B, .ref, .ho]
  | .twinHeartbeatSend .. | .relayedSnapshotReceived .. | .penaltyDecay .. | .pertEnd .. => [.twn .A, .twn .B]
  | .twinHeartbeatReceived .. => bothMbx ++ [.regs .twn, .blocks, .twn .A, .twn .B, .cln .A, .cln .B, .thm .A, .thm .B]
  | .twinLinkDead .. | .twnRelease .. => bothMbx ++ [.twn .A, .twn .B]
  | .cleanHealthReturn .. => [.twn .A, .twn .B, .ho]
  | .twnHandover .. => bothMbx ++ [.twn .A, .twn .B, .ho]
  | .handoverReq .. => [.ho]
  | .handoverStateSend .. => [.thm .A, .thm .B, .ho]
  | .handoverStateAck .. => [.ref, .ho]
  | .handoverTimeout .. => bothMbx ++ [.twn .A, .twn .B, .ref, .ho]
  | .rejoinStart .. =>
    allRegs ++ bothMbx ++ [.tck .A, .tck .B, .stg .A, .stg .B, .pts .A, .pts .B, .twn .A, .twn .B, .cln .A, .cln .B, .pst .A, .pst .B, .cnp .A, .cnp .B, .safv .A, .safv .B, .thm .A, .thm .B, .upd]
  | .shadowCompare .. | .pertArm .. => bothMbx ++ [.regs .twn, .twn .A, .twn .B]
  | .digestCompare .. => bothMbx ++ [.regs .tck, .regs .twn, .tck .A, .tck .B, .twn .A, .twn .B]
  | .scrubBlock .. => bothMbx ++ [.pts .A, .pts .B, .twn .A, .twn .B]
  | .healthWindowEnd .. => bothMbx ++ [.ports .A, .ports .B, .twn .A, .twn .B]
  | .unhealthyResetTimeout .. | .halfReset .. | .updRecover .. | .singleHalfActivationReset .. | .recoveryBoot .. =>
    allRegs ++ lostParts .A ++ lostParts .B ++ [.free, .shadow, .blocks, .ref, .ho, .veh, .vehG, .lkt, .upd]
  | .feedLost .. | .feedOk .. | .feedReverseCurrent .. | .oringTest .. => bothMbx ++ [.regs .pwr]
  | .claimLossRelinquish .. | .refereeDailyExercise .. => [.ref]
  | .laneRunStart .. => bothMbx ++ [.free, .regs .pst, .tck .A, .tck .B, .cln .A, .cln .B, .pst .A, .pst .B]
  | .laneOverrun .. | .claspDrain .. => bothMbx ++ [.regs .cln, .twn .A, .twn .B, .cln .A, .cln .B]
  | .nop .. | .halt .. | .rpt .. | .rptv .. | .movi .. | .mov .. | .add .. | .sub .. | .neg .. | .abs .. | .min .. | .max .. | .clmp .. | .shl ..
  | .shr .. | .and .. | .or .. | .xor .. | .sel .. | .cmp .. | .plog .. | .mul .. | .mac .. | .msu .. | .lda .. | .adda .. | .suba .. | .mova ..
  | .sha .. | .amulv .. | .str .. | .aclmp .. | .ld .. | .st .. | .ldw .. | .stw .. | .ldx .. | .movx .. | .addx .. | .out .. | .captureTrigger .. => [.cln .A, .cln .B]
  | .clnStore .. | .injectionEnd .. | .clnCapArm .. => bothMbx ++ [.cln .A, .cln .B]
  | .clnFree .. => bothMbx ++ [.regs .cln, .cln .A, .cln .B]
  | .clnSetpoint .. | .clnMode .. | .clnManual .. | .clnInject .. => bothMbx ++ [.shadow, .blocks, .cln .A, .cln .B]
  | .probeComplete .. | .hiccupTrip .. | .hiccupWaitEnd .. | .startComplete .. | .retriesReset .. | .loadStepDetected .. | .holdOffEnd ..
  | .phaseAddStart .. | .phaseShedStart .. | .burstEntry .. | .burstExit .. => bothMbx ++ [.regs .pst, .pst .A, .pst .B]
  | .hiccupWindowEnd .. => [.pst .A, .pst .B]
  | .pstClear .. => bothMbx ++ [.blocks, .pst .A, .pst .B]
  | .cabinetCommandApply .. => [.free, .cabs]
  | .ditherStep .. => [.cabs]
  | .plannerRun .. | .drainComplete .. | .polesOpened .. => [.blocks, .cnp .A, .cnp .B]
  | .drainTimeout .. | .matchPass .. | .uncommandedPoleOpen .. | .cnpUnpin .. => bothMbx ++ [.cnp .A, .cnp .B]
  | .poleOpenTimeout .. | .poleCloseTimeout .. | .matchTimeout .. => bothMbx ++ [.regs .cnp, .blocks, .cnp .A, .cnp .B]
  | .changeCabinetLost .. | .cnpAssign .. | .cnpPoleClear .. => bothMbx ++ [.blocks, .cnp .A, .cnp .B]
  | .thermalUpdate .. => bothMbx ++ [.free, .regs .thm, .thm .A, .thm .B]
  | .ceilingSend .. => [.regs .thm, .thm .A, .thm .B]
  | .ceilingStage .. => [.stg .A, .stg .B, .thm .A, .thm .B]
  | .predictionDataComplete .. | .modelInit .. | .tjDiodeReset .. => [.thm .A, .thm .B]
  | .sensorRecovered .. | .sensorSuspectCleared .. | .coolantRangeCleared .. | .throttleExit .. | .derateUpdate .. | .flashWriteResume .. => bothMbx ++ [.thm .A, .thm .B]
  | .sensorSuspect .. => bothMbx ++ [.regs .thm, .thm .A, .thm .B]
  | .tjEstimate .. => bothMbx ++ [.free, .cnp .A, .cnp .B, .thm .A, .thm .B, .therm, .saf]
  | .thermalPowerDown .. | .thermalEmergencyPowerDown .. => allRegs ++ lostParts .A ++ lostParts .B ++ [.free, .shadow, .blocks, .ref, .ho, .therm, .veh, .vehG, .lkt, .upd]
  | .thermalRestart .. => allRegs ++ lostParts .A ++ lostParts .B ++ [.free, .shadow, .blocks, .ref, .ho, .pll, .therm, .veh, .vehG, .lkt, .cans, .lsw, .mesh, .upd]
  | .thmRelease .. | .bntcSample .. => bothMbx ++ [.therm]
  | .pilotStateChange .. => bothMbx ++ [.free, .pts .A, .pts .B, .mirOut .A, .mirOut .B, .thm .A, .thm .B, .veh, .vehG, .bil, .lkt]
  | .slacMessage .. | .dcmdSend .. => [.free, .ports .A, .ports .B, .veh]
  | .slacMatch .. => bothMbx ++ [.free, .ports .A, .ports .B, .veh, .lkt]
  | .vehicleMessage .. => bothMbx ++ [.free, .pts .A, .pts .B, .mirOut .A, .mirOut .B, .ports .A, .ports .B, .thm .A, .thm .B, .veh, .lkt]
  | .sessionStateTimeout .. | .sessionStop .. | .stoppingComplete .. | .weldCheckComplete .. | .vehicleStopGraceExpiry .. | .coolantSessionTimeout ..
  | .sessionKeyOrphaned .. | .sessionFailoverResume .. | .vehStop .. | .creditReport .. => bothMbx ++ [.free, .veh, .lkt]
  | .vehicleLimitsStage .. => [.stg .A, .stg .B, .veh, .vehG]
  | .sessionMirrorAck .. => [.ports .A, .ports .B, .veh]
  | .vehAuth .. => bothMbx ++ [.free, .pts .A, .pts .B, .mirOut .A, .mirOut .B, .thm .A, .thm .B, .veh, .lkt]
  | .vehList .. => bothMbx ++ [.thm .A, .thm .B, .vehG]
  | .meteringSampleClose .. | .acBlock .. | .dualIntegrationCompare .. => bothMbx ++ [.free, .regs .met, .met, .bil]
  | .pulseEmit .. | .testPulseOutput .. | .batteryOperationEnd .. => [.met]
  | .adcReferenceCheck .. | .sealedParameterCheck .. | .intakeSupervision .. => bothMbx ++ [.free, .met]
  | .islandFirmwareCheck .. | .islandWatchdogExpiry .. => bothMbx ++ [.free, .met, .bil, .upd]
  | .batteryOperationEntry .. => bothMbx ++ [.free, .regs .met, .met]
  | .tamperSample .. => bothMbx ++ [.free, .rtc, .met]
  | .demandIntervalClose .. | .billingPeriodClose .. | .lomvorRecord .. => [.pts .A, .pts .B, .mirOut .A, .mirOut .B, .thm .A, .thm .B, .bil]
  | .bilClose .. => bothMbx ++ [.bil]
  | .tariffActivation .. | .rateSwitch .. | .billingSave .. | .billingGapCatchup .. | .timeValidRestored .. =>
    bothMbx ++ [.free, .pts .A, .pts .B, .mirOut .A, .mirOut .B, .thm .A, .thm .B, .met, .bil]
  | .powerFailSave .. | .displayDwell .. | .keyA .. | .keyB .. | .keyC .. | .keyD .. | .tokenEntryTimeout .. | .keypadLockoutEnd .. => [.bil]
  | .billingRestore .. => bothMbx ++ [.free, .met, .bil]
  | .tokenEntry .. => bothMbx ++ [.free, .pts .A, .pts .B, .mirOut .A, .mirOut .B, .thm .A, .thm .B, .veh, .met, .bil, .lkt]
  | .keypad .. => bothMbx ++ [.free, .pts .A, .pts .B, .mirOut .A, .mirOut .B, .ports .A, .ports .B, .thm .A, .thm .B, .veh, .met, .bil, .lkt]
  | .bilTariffLoad .. => bothMbx ++ [.pts .A, .pts .B, .mirOut .A, .mirOut .B, .thm .A, .thm .B, .bil]
  | .lktGenerate .. | .lktImport .. | .lktDerive .. | .lktAgree .. | .lktInvalidate .. | .keyrollRetire .. | .sysSessionProve ..
  | .sysSessionClose .. | .sessionIdleExpiry .. => bothMbx ++ [.free, .lkt]
  | .lktPair .. => bothMbx ++ [.free, .ports .A, .ports .B, .rems, .lkt]
  | .lktRoll .. | .keyrollAckDeadline .. => bothMbx ++ [.free, .ports .A, .ports .B, .lkt]
  | .lktOp .. | .invalidationCutoff .. | .orphanedOperationAbort .. => bothMbx ++ [.lkt]
  | .locketSweep .. => [.lkt]
  | .journalRecovery .. => [.free, .regs .lkt, .lkt]
  | .materialTagFault .. => bothMbx ++ [.regs .lkt, .lkt]
  | .safetyInputSample .. | .contactorFeedbackChange .. | .zoneDemand .. | .energyRemoval .. | .safeStopTimeout .. | .stoTimeout ..
  | .harvitorTimeout .. | .safStop .. | .safFaultClear .. => bothMbx ++ [.free, .saf]
  | .safetyDiscrepancy .. | .channelCompare .. | .safetyTestPulse .. | .feedbackTimeout .. | .envelopeViolation .. | .resetPulse .. | .resetJammed ..
  | .zoneReset .. | .harvitorDownlinkBuild .. => bothMbx ++ [.free, .regs .saf, .saf]
  | .safetyConfigCrcCheck .. | .islandInternalReset .. => [.regs .saf, .saf, .upd]
  | .safetyStateDelivery .. => [.regs .cnp, .safv .A, .safv .B]
  | .harvitorPduReceived .. => bothMbx ++ [.free, .regs .can, .saf, .cans]
  | .harvitorCycleSend .. => [.regs .can, .saf, .mesh]
  | .sqTailDoorbell .. => [.regs .mbx]
  | .commandFetch .. | .completionWrite .. | .cqHeadWrite .. | .ringDmaFault .. | .subscriptionDelivery .. => bothMbx ++ [.regs .mbx]
  | .ringEnableWrite .. => bothMbx ++ [.free, .regs .mbx, .lkt]
  | .sysSessionOpen .. => bothMbx ++ [.free]
  | .cfgWrite .. =>
    allRegs ++ bothMbx ++ [.free, .shadow, .blocks, .tck .A, .tck .B, .ports .A, .ports .B, .twn .A, .twn .B, .cln .A, .cln .B, .tmr .A, .tmr .B, .ref, .ho, .lkt, .saf, .cans, .lsw, .mesh, .upd, .pwr]
  | .cfgCommit .. => bothMbx ++ [.blocks]
  | .cfgDiscard .. => bothMbx ++ [.shadow]
  | .cntClear .. => allRegs ++ bothMbx
  | .pntRead .. | .pntReadMulti .. => bothMbx ++ [.restWait .A, .restWait .B]
  | .pntWrite .. => bothMbx ++ [.pts .A, .pts .B, .mirOut .A, .mirOut .B, .thm .A, .thm .B]
  | .eventDelivery .. => bothMbx ++ [.regs .mbx, .pts .A, .pts .B, .mirOut .A, .mirOut .B, .thm .A, .thm .B]
  | .gpioEdge .. => [.regs .gpio]
  | .gpioSet .. | .gpioClr .. => [.regs .gpio, .regs .loc]
  | .timerEnable .. | .timerExpiry .. => [.regs .loc, .tmr .A, .tmr .B]
  | .wideValueLatch .. | .claimGatedWrite .. | .gateCntClear .. => [.regs .loc]
  | .aliasWrite .. =>
    allRegs ++ bothMbx ++ [.free, .blocks, .tck .A, .tck .B, .part .A, .part .B, .ports .A, .ports .B, .twn .A, .twn .B, .cln .A, .cln .B, .tmr .A, .tmr .B, .ref, .ho, .lkt, .saf, .cans, .lsw, .mesh, .upd, .pwr]
  | .canTxRequest .. | .abrStop .. => [.regs .can, .regs .loc]
  | .canTxAbort .. | .canRxRelease .. | .abrStart .. => [.regs .can, .regs .loc, .cans]
  | .canTxAttemptEnd .. | .canFrameReceived .. | .abrWindowExpiry .. | .exchangeTxb1Next .. => [.regs .can, .cans]
  | .canBusOff .. => bothMbx ++ [.regs .can, .cans]
  | .canBoffRecovery .. => bothMbx ++ [.regs .can, .regs .loc]
  | .canErrorStateChange .. | .abrFound .. => bothMbx ++ [.regs .can]
  | .exchangeLimitsFrame .. => [.regs .can, .stg .A, .stg .B, .cans]
  | .exchangeSetpointPeriod .. => [.free, .regs .can, .cans]
  | .lswEnable .. | .lswDisable .. | .lswClr .. => [.regs .lsw, .regs .loc, .lsw]
  | .lswInrushEnd .. | .lswRetryWaitEnd .. | .lswGroupUvRecovery .. | .lswVfSample .. => [.regs .lsw, .lsw]
  | .lswLimitTimeout .. | .lswThermal .. | .lswGroupUndervoltage .. | .lswTotalOverload .. => bothMbx ++ [.regs .lsw, .lsw]
  | .lswOpenLoad .. => bothMbx ++ [.regs .lsw]
  | .lswSenseStep .. | .lswSlotDutyWrite .. => [.lsw]
  | .lswPwmPeriod .. => [.free, .regs .lsw]
  | .zeroCrossing .. => [.free, .regs .rms, .mesh]
  | .zcLost .. | .zcRecovered .. | .meshFrameAbandon .. | .mapset .. | .routeCompute .. => bothMbx ++ [.regs .rms, .mesh]
  | .meshCellResponse .. | .meshFrameReceived .. | .meshExchangeTimeout .. => [.regs .rms, .mesh]
  | .meshRelayForward .. | .beacon .. | .poll .. | .mapsetAckDeadline .. | .assign .. => [.mesh]
  | .linkrep .. => bothMbx ++ [.mesh]
  | .meshHarvitorExchange .. => bothMbx ++ [.free, .saf, .mesh]
  | .rmsTxRequest .. => [.regs .rms, .regs .loc]
  | .rmsRxRelease .. => [.regs .rms, .regs .loc, .mesh]
  | .bootStage .. => [.twn .A, .twn .B, .upd]
  | .bootBankSelect .. | .activationRejoinTimeout .. => allRegs ++ lostParts .A ++ lostParts .B ++ [.free, .shadow, .blocks, .ref, .ho, .veh, .vehG, .met, .lkt, .upd]
  | .updBegin .. | .updData .. | .updEnd .. | .trialCommit .. | .recoveryFinish .. => bothMbx ++ [.upd]
  | .updActivate .. => allRegs ++ lostParts .A ++ lostParts .B ++ [.free, .shadow, .blocks, .ref, .ho, .veh, .vehG, .met, .bil, .lkt, .saf, .upd]
  | .updRemote .. | .updstat .. => bothMbx ++ [.ports .A, .ports .B, .upd]
  | .updact .. => [.cnp .A, .cnp .B, .rems, .cabs]
  | .singleHalfActivationDrain .. => bothMbx ++ [.free, .cnp .A, .cnp .B, .veh, .lkt]
  | .recoveryInfo .. | .recoveryHeader .. | .recoveryData .. => [.upd]
  | .vholdSwitchClose .. => [.pwr]
  | .holdupStart .. | .vholdCharged .. => [.regs .pwr, .pwr]
  | .holdupHalvesStop .. => allRegs ++ lostParts .A ++ lostParts .B ++ [.free, .shadow, .blocks, .ref, .ho, .pll, .veh, .vehG, .lkt, .cans, .lsw, .mesh, .upd, .pwr]
  | .holdupIslandsStop .. => allRegs ++ [.free, .rtc, .saf, .lsw, .upd, .pwr]
  | .holdupEnd .. => allRegs ++ lostParts .A ++ lostParts .B ++ [.free, .shadow, .blocks, .ref, .ho, .pll, .rems, .veh, .vehG, .lkt, .cans, .lsw, .mesh, .upd, .pwr]
  | .moduleStart .. => allRegs ++ lostParts .A ++ lostParts .B ++ [.free, .shadow, .blocks, .ref, .ho, .pll, .therm, .veh, .vehG, .met, .bil, .lkt, .saf, .cans, .lsw, .mesh, .upd, .pwr]
  | .resetN .. => allRegs ++ lostParts .A ++ lostParts .B ++ [.free, .shadow, .blocks, .ref, .ho, .pll, .veh, .vehG, .lkt, .cans, .lsw, .mesh, .upd]
  | .svcBtnRelease .. => allRegs ++ lostParts .A ++ lostParts .B ++ [.free, .shadow, .blocks, .ref, .ho, .veh, .vehG, .met, .bil, .lkt, .upd, .pwr]
  | .svcBtnStuck .. => bothMbx ++ [.regs .pwr, .pwr]
  | .powerStateRequest .. => allRegs ++ bothMbx ++ [.blocks, .tck .A, .tck .B, .ports .A, .ports .B, .twn .A, .twn .B, .cln .A, .cln .B, .ref, .ho, .saf, .lsw, .upd, .pwr]
  | .wake .. | .wakeTimerExpiry .. => [.regs .pwr, .pts .A, .pts .B, .twn .A, .twn .B, .pub .A, .pub .B, .met, .lkt, .pwr]
  | .s4BatteryToS5 .. => [.met, .pwr]
  | .ptpAnnounceReceived .. => bothMbx ++ [.tck .A, .tck .B, .bil]
  | .remotePowerUpOrReset .. => [.rems, .cabs]

end Sys2Proof.Machine
end

