-- ==== Sys2Proof/Certificates/Slice0/Obligations.lean ====
section
/-!
DEFINITION. The statements for the provers: what each family of commands does, with what it leaves unchanged, and what every step keeps.
-/

section

open Sys2Proof Sys2Proof.Machine

/-- Staging entries: a write goes to the receiving bank with its stamp; an entry not rewritten within its maximum age becomes STALE and raises 0x0004. (R17, R18, R19)
Where the spec leaves a point open, the clauses follow the model's choice in log entry 95. -/
def Obligations.StagingWritesAndStaleness : Prop :=
  (∀ (s : State) (h : Half) (i : Nat) (v : Int), i < 270 → Ends (.stagingWrite h i v) s fun t =>
    t.stage h i = { s.stage h i with pend := some v, pendStamp := s.tick h } ∧ (∀ j, j ≠ i → t.stage h j = s.stage h j) ∧ Frame [.stg h] s t) ∧
  (∀ (s : State) (h : Half) (i : Nat) (v : Int), 270 ≤ i → exec (.stagingWrite h i v) s = .next s) ∧
  (∀ (s : State) (h : Half) (i : Nat), i < 270 → (s.stage h i).written = true → (s.stage h i).stale = false → (s.stage h i).pend = none →
    (s.stage h i).stamp + stageAge i < s.tick h → Ends (.stagingEntryStale h i) s fun t =>
        t.stage h i = { s.stage h i with stale := true } ∧ (∀ j, j ≠ i → t.stage h j = s.stage h j) ∧ Raised t h 1 0x0004 (le 2 i ++ [1]) ∧
          Frame (.stg h :: bothMbx) s t) ∧
  (∀ (s : State) (h : Half) (i : Nat), 270 ≤ i ∨ (s.stage h i).written = false ∨ (s.stage h i).stale = true ∨ (s.stage h i).pend.isSome = true ∨
    s.tick h ≤ (s.stage h i).stamp + stageAge i → exec (.stagingEntryStale h i) s = .next s)

/-- An owner's write stamps and counts the slot and goes to the other half; the copy, its acknowledgment and a restore each change one slot. (R34, R36, R37, R40) -/
def Obligations.PointWritesAndMirror : Prop :=
  (∀ (s : State) (h : Half) (idx owner typ cls : Nat) (v : PVal), s.charge = some h → classOf idx = some cls → ownerMay owner cls = true → 1 ≤ typ → typ ≤ 7 →
    Ends (.pointOwnerWrite idx owner typ v) s fun t =>
        (∃ p, look none (t.hf h).pts idx = some p ∧ p.typ = typ ∧ p.val = v ∧ p.valid = true ∧ p.stale = false ∧ p.owner = owner ∧
          p.stamp = s.tick h ∧ p.mirrorPending = true ∧ p.restoring = false ∧
          p.wseq = (match look none (s.hf h).pts idx with | some q => (q.wseq + 1) % 2 ^ 32 | none => 1) ∧
          (t.hf h).mirOut = (s.hf h).mirOut ++ [{ idx := idx, slot := p }]) ∧
        (∀ j, j ≠ idx → look none (t.hf h).pts j = look none (s.hf h).pts j) ∧ Frame [.pts h, .mirOut h, .thm h] s t) ∧
  (∀ (s : State) (idx owner typ : Nat) (v : PVal), s.charge = none ∨ classOf idx = none ∨ ownerMay owner ((classOf idx).getD 0) = false ∨ typ = 0 ∨ 7 < typ →
    exec (.pointOwnerWrite idx owner typ v) s = .next s) ∧
  (∀ (s : State) (h : Half) (c : MirrorCopy) (l : List MirrorCopy), (s.hf (other h)).mirOut = c :: l → c.applied = false → s.twinUp h = true →
    Ends (.mirrorCopyReceived h) s fun t =>
        look none (t.hf h).pts c.idx = some { c.slot with mirrorPending := false } ∧ (t.hf (other h)).mirOut = { c with applied := true } :: l ∧
        (∀ j, j ≠ c.idx → look none (t.hf h).pts j = look none (s.hf h).pts j) ∧ Frame [.pts h, .mirOut (other h), .thm h] s t) ∧
  (∀ (s : State) (h : Half), s.twinUp h = false ∨ (∀ c ∈ (s.hf (other h)).mirOut, c.applied = true) → exec (.mirrorCopyReceived h) s = .next s) ∧
  (∀ (s : State) (h : Half) (c : MirrorCopy) (l : List MirrorCopy) (p : Slot), (s.hf h).mirOut = c :: l → c.applied = true →
    look none (s.hf h).pts c.idx = some p → Ends (.mirrorAck h) s fun t =>
        (t.hf h).mirOut = l ∧ look none (t.hf h).pts c.idx = some { p with mirrorPending := p.mirrorPending && l.any fun d => d.idx = c.idx } ∧
        (∀ j, j ≠ c.idx → look none (t.hf h).pts j = look none (s.hf h).pts j) ∧ Frame [.pts h, .mirOut h] s t) ∧
  (∀ (s : State) (h : Half) (idx : Nat) (p : Slot), look none (s.hf h).pts idx = some p → (s.hf h).restWait = [] →
    Ends (.pointRestoreComplete h idx) s fun t => look none (t.hf h).pts idx = some { p with restoring := false } ∧
        (∀ j, j ≠ idx → look none (t.hf h).pts j = look none (s.hf h).pts j) ∧ Frame [.pts h] s t) ∧
  (∀ (s : State) (h : Half) (idx : Nat), look none (s.hf h).pts idx = none → exec (.pointRestoreComplete h idx) s = .next s)

/-- Ring indices, ring enable, a failed ring, and what a fetch does with a good command, a bad tag, a bad length and an undefined opcode. (R3, R500, R501, R503, R504, R505, R512, R513, R515, R517, R525)
Where the spec leaves a point open, the clauses follow the model's choice in log entries 19, 63. -/
def Obligations.RingsAndFetch : Prop :=
  (∀ (s : State) (h : Half) (n v : Nat), n < 32 → s.ringEth h n = false →
    Ends (.sqTailDoorbell h n v) s fun t => t.rg .mbx h (ringOff n + 0x18) = BitVec.ofNat 32 (v % 2 ^ 16) ∧
        (∀ k off, off ≠ ringOff n + 0x18 ∨ k ≠ h → t.rg .mbx k off = s.rg .mbx k off) ∧ Frame [.regs .mbx] s t) ∧
  (∀ (s : State) (h : Half) (n v : Nat), 32 ≤ n ∨ s.ringEth h n = true → exec (.sqTailDoorbell h n v) s = .next s) ∧
  (∀ (s : State) (h : Half) (n v : Nat), n < 32 → s.ringEth h n = false →
    Ends (.cqHeadWrite h n v) s fun t => t.rg .mbx h (ringOff n + 0x20) = BitVec.ofNat 32 (v % 2 ^ 16) ∧ Frame [.regs .mbx, .mbx h] s t) ∧
  (∀ (s : State) (h : Half) (n : Nat), n < 64 → s.ringEn h n = true →
    Ends (.ringEnableWrite h n false) s fun t => t.ringEn h n = false ∧ (t.ring h n).session = none ∧ (t.ring h n).bind = none ∧ (t.ring h n).stalled = false ∧
        (∀ b ∈ (t.hf h).mbx.subs, b.ring ≠ n ∧ b.cmdRing ≠ n) ∧ Frame (.free :: .lkt :: .regs .mbx :: bothMbx) s t) ∧
  (∀ (s : State) (h : Half) (n : Nat), n < 64 → s.ringEn h n = false →
    Ends (.ringEnableWrite h n true) s fun t => t.ringEn h n = true ∧ t.ringFault h n = false ∧ (∀ off ∈ [0x18, 0x1C, 0x20, 0x24], t.ringReg h n off = 0) ∧
        Frame [.regs .mbx] s t) ∧
  (∀ (s : State) (h : Half) (n : Nat), n < 64 → s.ringEth h n = false → s.ringEn h n = true →
    Ends (.ringDmaFault h n) s fun t => t.ringFault h n = true ∧ t.ringStarted h n = [] ∧ (∀ c ∈ (t.hf h).mbx.compl, c.ring ≠ n) ∧
        Raised t h 2 0x0006 [n] ∧ Frame (.regs .mbx :: bothMbx) s t) ∧
  (∀ (s : State) (h : Half) (n : Nat) (d : Desc), n < 32 → s.ringEn h n = true → s.ringFault h n = false → s.waiting h n = true →
    (s.ringStarted h n).all (·.first) = true → s.ringFull h n = true →
    Ends (.commandFetch h n d) s fun t => (t.ring h n).stalled = true ∧ t.ringStarted h n = s.ringStarted h n ∧ Frame [.mbx h] s t) ∧
  (∀ (s : State) (h : Half) (n : Nat) (d e : Desc), n < 32 → s.ringEn h n = true → s.ringFault h n = false → s.waiting h n = true →
    (s.ringStarted h n).all (·.first) = true → s.ringFull h n = false → s.fetched h n d = e → opDefined e.opc = true → lenOk e.opc e.req = false →
    Ends (.commandFetch h n d) s fun t => Answered t ⟨h, n, e.ctag, numAt e.bytes 3 1⟩ e.opc stBadLength true ∧ Frame [.regs .mbx, .mbx h] s t) ∧
  (∀ (s : State) (h : Half) (n : Nat) (d e : Desc), n < 32 → s.ringEn h n = true → s.ringFault h n = false → s.waiting h n = true →
    (s.ringStarted h n).all (·.first) = true → s.ringFull h n = false → s.fetched h n d = e → (opDefined e.opc = false ∨ lenOk e.opc e.req = true) →
    s.cmdTagGood h n e = false →
    Ends (.commandFetch h n d) s fun t => Answered t ⟨h, n, e.ctag, numAt e.bytes 3 1⟩ e.opc 0x0104 true ∧ Frame [.regs .mbx, .mbx h] s t) ∧
  (∀ (s : State) (h : Half) (n : Nat) (d e : Desc), n < 32 → s.ringEn h n = true → s.ringFault h n = false → s.waiting h n = true →
    (s.ringStarted h n).all (·.first) = true → s.ringFull h n = false → s.fetched h n d = e → (opDefined e.opc = false ∨ lenOk e.opc e.req = true) →
    s.cmdTagGood h n e = true →
    Ends (.commandFetch h n d) s fun t => Running t ⟨h, n, e.ctag, numAt e.bytes 3 1⟩ ∧ (t.hf h).mbx.compl = (s.hf h).mbx.compl ∧ Frame [.regs .mbx, .mbx h] s t) ∧
  (∀ (s : State) (o : Org) (opc : Nat), opDefined opc = false →
    Ends (.undefinedOpcode o opc) s fun t => AnsweredWith t o opc stBadOpcode true [] ∧ Frame [.mbx o.half] s t) ∧
  (∀ (s : State) (o : Org) (c : Started), (s.hf o.half).mbx.started.find? (fun c => sameCmd c.org o) = some c → c.exec = none → s.charge = none →
    c.since + 2000 ≤ s.tick o.half →
    Ends (.forwardWaitTimeout o) s fun t => Answered t c.org c.opc stNotInCharge true ∧ Frame [.mbx c.org.half] s t)

/-- Completions leave in order and are signalled, and Ethernet rings bind, acknowledge, resend and drop. (R501, R502, R503, R506, R508, R517)
Where the spec leaves a point open, the clauses follow the model's choice in log entry 64. -/
def Obligations.CompletionsAndDatagrams : Prop :=
  (∀ (s : State) (h : Half) (c : Completion), (s.hf h).mbx.compl.find? (s.complReady h) = some c → s.ringEn h c.ring = true → s.ringFault h c.ring = false →
    s.ringEth h c.ring = false →
    Ends (.completionWrite h) s fun t => (t.ring h c.ring).lastOut = some (s.sign c) ∧ (t.hf h).mbx.compl = (s.hf h).mbx.compl.erase c ∧
        t.rg .mbx h (ringOff c.ring + 0x24) = BitVec.ofNat 32 ((s.ringReg h c.ring 0x24 + 1) % s.ringSize h c.ring) ∧ Frame [.regs .mbx, .mbx h] s t) ∧
  (∀ (s : State) (h : Half) (c : Completion), (s.hf h).mbx.compl.find? (s.complReady h) = some c → s.ringEn h c.ring = false ∨ s.ringFault h c.ring = true →
    Ends (.completionWrite h) s fun t => (t.hf h).mbx = { (s.hf h).mbx with compl := (s.hf h).mbx.compl.erase c } ∧ Frame [.mbx h] s t) ∧
  (∀ (s : State) (h : Half) (n : Nat), 0 < (s.ring h n).unsig → fld (s.rcfg h n) 7 0 < 50 * (s.tick h + 1 - (s.ring h n).unsigTick) →
    Ends (.msixCoalesceTimeout h n) s fun t => t.ring h n = { s.ring h n with unsig := 0, irqs := (s.ring h n).irqs + 1 } ∧ Frame [.mbx h] s t) ∧
  (∀ (s : State) (h : Half) (n : Nat), (s.ring h n).unsig = 0 ∨ 50 * (s.tick h + 1 - (s.ring h n).unsigTick) ≤ fld (s.rcfg h n) 7 0 → exec (.msixCoalesceTimeout h n) s = .next s) ∧
  (∀ (s : State) (h : Half) (n : Nat) (d : MbxDgram), n < 32 → s.ringEn h n = true → s.ringEth h n = true → s.enetServed h n = true →
    (s.ring h n).bind = none → dgOk n d.bytes = true → numAt d.bytes 5 1 = 0 → (s.ringReg h n 0x2C = 0 ∨ s.ringReg h n 0x2C = d.ip) →
    Ends (.mailboxDatagram h n d) s fun t => (t.ring h n).bind = some (Binding.take { ip := d.ip, port := d.port, rx := numAt d.bytes 8 4 } n (s.tick h) d.bytes) ∧
        Frame [.mbx h] s t) ∧
  (∀ (s : State) (h : Half) (n : Nat) (d : MbxDgram) (b : Binding), n < 64 → s.ringEn h n = true → s.ringEth h n = true → s.enetServed h n = true →
    (s.ring h n).bind = some b → dgOk n d.bytes = true → exec (.mailboxDatagram h n d) s =
        (if b.ip = d.ip ∧ b.port = d.port then .next (s.mRing h n fun r => { r with bind := some (b.take n (s.tick h) d.bytes) }) else .next s)) ∧
  (∀ (s : State) (h : Half) (n q : Nat) (b : Binding) (x : Dgram), (s.ring h n).bind = some b → b.unacked.find? (fun x => x.seq = q) = some x →
    x.sent + 1000 ≤ s.tick h → x.sends < 8 →
    Ends (.datagramResendTimeout h n q) s fun t => (∃ c, (t.ring h n).bind = some c ∧ c.ip = b.ip ∧ c.port = b.port ∧
        c.unacked = b.unacked.map fun y => if y.seq = q then { y with sends := y.sends + 1, sent := s.tick h, bytes := y.bytes.take 12 ++ le 4 b.rx ++ y.bytes.drop 16 } else y) ∧ Frame [.mbx h] s t) ∧
  (∀ (s : State) (h : Half) (n q : Nat) (b : Binding) (x : Dgram), (s.ring h n).bind = some b → b.unacked.find? (fun x => x.seq = q) = some x →
    x.sent + 1000 ≤ s.tick h → 8 ≤ x.sends → Ends (.datagramResendTimeout h n q) s fun t => (t.ring h n).bind = none ∧ Frame [.mbx h] s t) ∧
  (∀ (s : State) (h : Half) (n : Nat) (b : Binding), (s.ring h n).bind = some b → s.ringReg h n 0x2C = 0 → b.last + 20000 * s.rf .mbx h 0 15 0 ≤ s.tick h →
    Ends (.bindingIdleExpiry h n) s fun t => (t.ring h n).bind = none ∧ Frame [.mbx h] s t)

/-- SYS_INFO, the session open, prove and close exchange with its lapses, and the refusal of a role after wrong proofs. (R509, R511, R513, R514, R519, R521, R525)
Where the spec leaves a point open, the clauses follow the model's choice in log entries 6, 19, 65. -/
def Obligations.SessionsAndInfo : Prop :=
  (∀ (s : State) (o : Org) (r : Nat), RunsHere s o 0x0102 r → r ∈ rAny →
    Ends (.sysInfo o) s fun t => AnsweredWith t o 0x0102 stOk true
        (padTo 8 s.lkt.module ++ [3, (s.brec (hbit o.half)).force.release, chargeCode s.charge, hbit o.half + 1] ++ le 4 (s.brec (hbit o.half)).force.build) ∧ Frame [.mbx o.half] s t) ∧
  (∀ (s : State) (o : Org) (role hn r : Nat), RunsHere s o 0x0110 r → r ∈ rAny → (s.ring o.half o.ring).session = none → o.ring < 28 → 1 ≤ role → role ≤ 5 →
    s.roleShut o.half role = false →
    Ends (.sysSessionOpen o role hn) s fun t => (∃ q, (t.ring o.half o.ring).opening = some q ∧ q.role = role ∧ q.hnonce = hn ∧ q.tick = s.tick o.half ∧
          q.sid = Config.freeNat s.free % 2 ^ 32 ∧ q.dnonce = Config.freeNat (s.free + 1) % 2 ^ 128 ∧ AnsweredWith t o 0x0110 stOk true (le 4 q.sid ++ le 16 q.dnonce)) ∧
        Frame [.free, .mbx o.half] s t) ∧
  (∀ (s : State) (o : Org) (role hn r : Nat), RunsHere s o 0x0110 r → r ∈ rAny → (s.ring o.half o.ring).session.isSome = true ∨ 28 ≤ o.ring →
    Ends (.sysSessionOpen o role hn) s fun t => AnsweredWith t o 0x0110 0x0105 true [] ∧ Frame [.mbx o.half] s t) ∧
  (∀ (s : State) (o : Org) (role hn r : Nat), RunsHere s o 0x0110 r → r ∈ rAny → (s.ring o.half o.ring).session = none → o.ring < 28 → role = 0 ∨ 5 < role →
    Ends (.sysSessionOpen o role hn) s fun t => AnsweredWith t o 0x0110 stRange true [] ∧ Frame [.mbx o.half] s t) ∧
  (∀ (s : State) (o : Org) (sid r : Nat) (proof : List Nat) (q : OpenReq), RunsHere s o 0x0111 r → r ∈ rAny → (s.ring o.half o.ring).session = none → o.ring < 28 →
    (s.ring o.half o.ring).opening = some q → q.sid = sid → s.tick o.half < q.tick + 200000 → s.roleShut o.half q.role = false →
    proof = sessionProof (s.credential o.half q.role) o.half o.ring q →
    Ends (.sysSessionProve o sid proof) s fun t => (∃ x, (t.ring o.half o.ring).session = some x ∧ x.sid = sid ∧ x.role = q.role ∧ x.cseq = 1) ∧
        (t.ring o.half o.ring).opening = none ∧ Raised t o.half 0 0x0002 [o.ring, q.role, 0] ∧ AnsweredWith t o 0x0111 stOk true [] ∧ Frame (.free :: .lkt :: bothMbx) s t) ∧
  (∀ (s : State) (o : Org) (sid r : Nat) (proof : List Nat) (q : OpenReq), RunsHere s o 0x0111 r → r ∈ rAny → (s.ring o.half o.ring).session = none → o.ring < 28 →
    (s.ring o.half o.ring).opening = some q → q.sid = sid → s.tick o.half < q.tick + 200000 → s.roleShut o.half q.role = false →
    proof ≠ sessionProof (s.credential o.half q.role) o.half o.ring q →
    Ends (.sysSessionProve o sid proof) s fun t => t.ring o.half o.ring = s.ring o.half o.ring ∧ Raised t o.half 0 0x0002 [o.ring, q.role, 2] ∧
        AnsweredWith t o 0x0111 0x0103 true [] ∧
        (2 ≤ ((s.roleLock o.half q.role).fails.filter fun x => decide (s.tick o.half < x + 1200000)).length →
          (t.roleLock o.half q.role).until_ = s.tick o.half + 1200000) ∧ Frame bothMbx s t) ∧
  (∀ (s : State) (o : Org) (r : Nat) (x : Session), RunsHere s o 0x0112 r → r ∈ rAny → (s.ring o.half o.ring).session = some x →
    Ends (.sysSessionClose o) s fun t => (t.ring o.half o.ring).session = none ∧ AnsweredWith t o 0x0112 stOk true [] ∧
        Raised t o.half 0 0x0002 [o.ring, x.role, 1] ∧ Frame (.free :: .lkt :: bothMbx) s t) ∧
  (∀ (s : State) (h : Half) (n : Nat) (q : OpenReq), (s.ring h n).opening = some q → q.tick + 200000 ≤ s.tick h →
    Ends (.sessionOpenLapse h n) s fun t => (t.ring h n).opening = none ∧ Frame [.mbx h] s t) ∧
  (∀ (s : State) (h : Half) (n : Nat) (x : Session), (s.ring h n).session = some x → x.last + 20000 * s.rf .mbx h 0 15 0 ≤ s.tick h →
    Ends (.sessionIdleExpiry h n) s fun t => (t.ring h n).session = none ∧ Raised t h 0 0x0002 [n, x.role, 1] ∧ Frame (.free :: .lkt :: bothMbx) s t) ∧
  (∀ (s : State) (h : Half) (role : Nat), (s.roleLock h role).until_ ≤ s.tick h →
    Ends (.roleLockoutEnd h role) s fun t => (t.roleLock h role).until_ = 0 ∧ (t.roleLock h role).fails = (s.roleLock h role).fails ∧ Frame [.mbx h] s t)

/-- The generic verbs read, write, commit, discard, clear and report a block, each under its role, its range and HALF. (R8, R21, R22, R26, R515, R518, R522, R523, R652)
Where the spec leaves a point open, the clauses follow the model's choice in log entries 18, 36. -/
def Obligations.ConfigurationVerbs : Prop :=
  (∀ (s : State) (o : Org) (b : Blk) (off n : Nat) (x : Half) (r : Nat), RunsAt s o (cfgOpc b 0xF0) x r → b ≠ .loc → b ≠ .mbx → r ∈ rNotPublic →
    inMap b off n = true → n ≤ 6 →
    Ends (.cfgRead o b off n) s fun t => AnsweredWith t o (cfgOpc b 0xF0) stOk true ((wordOffs off n).flatMap fun a =>
        le 4 ((s.start o (cfgOpc b 0xF0) r (some x)).readWord (subBlk b a).1 x (subBlk b a).2).toNat) ∧ Frame [.mbx o.half] s t) ∧
  (∀ (s : State) (o : Org) (b : Blk) (off n : Nat) (x : Half) (r : Nat), RunsAt s o (cfgOpc b 0xF0) x r → b ≠ .loc → b ≠ .mbx → r ∈ rNotPublic →
    inMap b off n = false →
    Ends (.cfgRead o b off n) s fun t => AnsweredWith t o (cfgOpc b 0xF0) stRange true [] ∧ Frame [.mbx o.half] s t) ∧
  (∀ (s : State) (o : Org) (b : Blk) (off : Nat) (x : Half) (r : Nat), RunsAt s o (cfgOpc b 0xF1) x r → b ≠ .loc → b ≠ .mbx → r ∈ rNotPublic →
    inMap b off 1 = true →
    Ends (.cfgShadowRead o b off 1) s fun t => AnsweredWith t o (cfgOpc b 0xF1) stOk true
        (le 4 ((s.start o (cfgOpc b 0xF1) r (some x)).readShadow (subBlk b off).1 x (subBlk b off).2).toNat) ∧ Frame [.mbx o.half] s t) ∧
  (∀ (s : State) (o : Org) (b : Blk) (off : Nat) (ws : List Word) (x : Half) (r : Nat), RunsAt s o (cfgOpc b 0xF2) x r → b ≠ .loc → b ≠ .mbx → r ∈ rNotPublic →
    ((cfgWords b off ws).all fun e => decide (r ∈ (s.start o (cfgOpc b 0xF2) r (some x)).wordRoles e.1 x e.2.1)) = true → inMap b off ws.length = true →
    ((cfgWords b off ws).findSome? fun e => (s.start o (cfgOpc b 0xF2) r (some x)).wordRefusal o e.1 x e.2.1 e.2.2) = none →
    exec (.cfgWrite o b off ws) s = .next (let u := s.start o (cfgOpc b 0xF2) r (some x)
        ((cfgWords b off ws).foldl (fun s e => s.cfgPut x e) u).complete o x (cfgOpc b 0xF2) stOk true (le 8 (u.tick x)))) ∧
  (∀ (s : State) (o : Org) (b : Blk) (off : Nat) (ws : List Word) (x : Half) (r : Nat), RunsAt s o (cfgOpc b 0xF2) x r → b ≠ .loc → b ≠ .mbx → r ∈ rNotPublic →
    ((cfgWords b off ws).all fun e => decide (r ∈ (s.start o (cfgOpc b 0xF2) r (some x)).wordRoles e.1 x e.2.1)) = true → inMap b off ws.length = false →
    Ends (.cfgWrite o b off ws) s fun t => AnsweredWith t o (cfgOpc b 0xF2) stRange true [] ∧ Frame [.mbx o.half] s t) ∧
  (∀ (s : State) (o : Org) (b : Blk) (x : Half) (r : Nat), RunsAt s o (cfgOpc b 0xF3) x r → b ≠ .loc → b ≠ .mbx → r ∈ commitRoles b →
    (commitOff b).isSome = true → s.flashFull x (128 * (s.shadow.filter fun e => keyBlk e.1 == blkKey b x).length) = false →
    Ends (.cfgCommit o b) s fun t => AnsweredWith t o (cfgOpc b 0xF3) stPending false [] ∧ (t.blk b x).st = 1 ∧ Frame [.blocks, .mbx o.half] s t) ∧
  (∀ (s : State) (o : Org) (b : Blk) (x : Half) (r : Nat), RunsAt s o (cfgOpc b 0xF4) x r → b ≠ .loc → b ≠ .mbx → r ∈ commitRoles b →
    (commitOff b).isSome = true → (s.blk b x).st ≠ 1 →
    Ends (.cfgDiscard o b) s fun t => AnsweredWith t o (cfgOpc b 0xF4) stOk true [] ∧ (∀ off, t.shadowOf b x off = t.rg b x off) ∧ Frame [.shadow, .mbx o.half] s t) ∧
  (∀ (s : State) (o : Org) (b : Blk) (x : Half) (r : Nat), RunsAt s o (cfgOpc b 0xF4) x r → b ≠ .loc → b ≠ .mbx → r ∈ commitRoles b →
    (commitOff b).isSome = true → (s.blk b x).st = 1 →
    Ends (.cfgDiscard o b) s fun t => AnsweredWith t o (cfgOpc b 0xF4) stOk true [] ∧ Frame [.mbx o.half] s t) ∧
  (∀ (s : State) (o : Org) (b : Blk) (off : Nat) (x : Half) (r : Nat), RunsAt s o (cfgOpc b 0xF5) x r → b ≠ .loc → b ≠ .mbx → b ≠ .can → r ∈ rNotPublic →
    r ∈ cntRoles b off → inMap b off 1 = true → (regInfo b x off).cnt = true → (b = .nlk → off < 0x1400 → (s.port x (off / 0x40)).pstate ≠ 5) →
    Ends (.cntClear o b off 1) s fun t => AnsweredWith t o (cfgOpc b 0xF5) stOk true (le 8 (s.tick x)) ∧ t.rg b x off = 0 ∧ Frame [.regs b, .mbx o.half] s t) ∧
  (∀ (s : State) (o : Org) (off : Nat) (x : Half) (r : Nat), RunsAt s o (cfgOpc .nlk 0xF5) x r → r ∈ rNotPublic → r ∈ cntRoles .nlk off → inMap .nlk off 1 = true →
    off < 0x1400 → (s.port x (off / 0x40)).pstate = 5 →
    Ends (.cntClear o .nlk off 1) s fun t => AnsweredWith t o (cfgOpc .nlk 0xF5) 0x0402 true [] ∧ Frame [.mbx o.half] s t) ∧
  (∀ (s : State) (o : Org) (b : Blk) (x : Half) (r : Nat), RunsAt s o (cfgOpc b 0xF6) x r → b ≠ .loc → b ≠ .mbx → r ∈ rNotPublic → (commitOff b).isSome = true →
    Ends (.cfgState o b) s fun t => AnsweredWith t o (cfgOpc b 0xF6) stOk true
        (le 4 ((s.start o (cfgOpc b 0xF6) r (some x)).commitWord b x).toNat ++ le 4 ((s.start o (cfgOpc b 0xF6) r (some x)).commitTick b x).toNat ++
          le 4 (s.hf x).twn.gen) ∧ Frame [.mbx o.half] s t)

/-- Writes of BAR0, of the partition and through bit aliases reach what their window allows and nothing else. (R8, R42, R44, R499, R530, R531, R535, R538) -/
def Obligations.DirectWrites : Prop :=
  (∀ (s : State) (b : Blk) (h : Half) (off : Nat) (v : Word), b ≠ .mbx ∨ off < 0x1000 ∨ 0x2000 ≤ off → exec (.registerWrite .bar0 b h off v) s = .next s) ∧
  (∀ (s : State) (h : Half) (n : Nat) (v : Word), n < 28 → s.ringEth h n = false →
    exec (.registerWrite .bar0 .mbx h (0x1000 + 0x40 * n) v) s = .next (s.mbxPut h (0x1000 + 0x40 * n) v)) ∧
  (∀ (s : State) (h : Half) (off : Nat) (v : Word), inDram off = true → off % 4 = 0 →
    Ends (.registerWrite .part .loc h off v) s fun t => look 0 (t.hf h).part.dram (off - 0x40000000) = v ∧
        (∀ a, a ≠ off - 0x40000000 → look 0 (t.hf h).part.dram a = look 0 (s.hf h).part.dram a) ∧
        (t.hf h).part.flash = (s.hf h).part.flash ∧ Frame [.part h] s t) ∧
  (∀ (s : State) (h : Half) (off : Nat) (v : Word), inFlash off = true → off % 4 = 0 →
    Ends (.registerWrite .part .loc h off v) s fun t => look 0 (t.hf h).part.flash (off - 0x20000000) = v ∧
        (∀ a, a ≠ off - 0x20000000 → look 0 (t.hf h).part.flash a = look 0 (s.hf h).part.flash a) ∧
        (t.hf h).part.dram = (s.hf h).part.dram ∧ Frame [.part h, .thm h] s t) ∧
  (∀ (s : State) (b : Blk) (h : Half) (off : Nat) (v : Word), inPartMap b off = false ∨ (inFlash off = false ∧ inDram off = false ∧ off % 4 ≠ 0) →
    Ends (.registerWrite .part b h off v) s fun t => (t.hf h).part = { (s.hf h).part with restarts := (s.hf h).part.restarts + 1, cause := 3, lastTick := s.tick h } ∧
        Raised t h 1 0x0005 [3] ∧ Frame (.part h :: bothMbx) s t) ∧
  (∀ (s : State) (b : Blk) (h : Half) (off : Nat) (v : Word), commitOff b = some off → exec (.registerWrite .verb b h off v) s = .next s) ∧
  (∀ (s : State) (h : Half) (bit off op : Nat), 32 ≤ bit ∨ 0x10000 ≤ off ∨ off % 4 ≠ 0 →
    Ends (.aliasWrite h bit off op) s fun t => (t.hf h).part = { (s.hf h).part with restarts := (s.hf h).part.restarts + 1, cause := 3, lastTick := s.tick h } ∧
        Raised t h 1 0x0005 [3] ∧ Frame (.part h :: bothMbx) s t) ∧
  (∀ (s : State) (h : Half) (bit a op : Nat) (w : Word), bit < 32 → a < 0x100 → a % 4 = 0 → aliasWord (regInfo .gpio .A a) (s.rg .gpio .A a) bit op = some w →
    exec (.aliasWrite h bit (0x4000 + a) op) s = .next (s.gated h fun s => s.putDirect .gpio .A a w)) ∧
  (∀ (s : State) (h : Half) (bit a op : Nat), s.ref.token = some h → bit < 32 → a = 0 ∨ a = 4 → op % 4 < 3 →
    Ends (.aliasWrite h bit (0x4000 + a) op) s fun t =>
        bitAt (t.rg .gpio .A a) bit = (if op % 4 = 0 then false else if op % 4 = 1 then true else !bitAt (s.rg .gpio .A a) bit) ∧
        (∀ i < 32, i ≠ bit → bitAt (t.rg .gpio .A a) i = bitAt (s.rg .gpio .A a) i) ∧ (∀ off, off ≠ a → t.rg .gpio .A off = s.rg .gpio .A off) ∧ Frame [.regs .gpio] s t) ∧
  (∀ (s : State) (h : Half) (bit a op : Nat), s.ref.token ≠ some h → bit < 32 → a < 0x100 → a % 4 = 0 →
    Ends (.aliasWrite h bit (0x4000 + a) op) s fun t => bitAt (t.rg .loc h 0x10100) 29 = true ∧
        (t.rg .loc h 0x10104).toNat = min 0xFFFFFFFF ((s.rg .loc h 0x10104).toNat + 1) ∧ Frame [.regs .loc] s t) ∧
  (∀ (s : State) (h : Half) (stall : Bool), Ends (.partitionFault h stall) s fun t =>
    (t.hf h).part = { (s.hf h).part with restarts := (s.hf h).part.restarts + 1, cause := if stall then 3 else 1, lastTick := s.tick h } ∧
        Raised t h 1 0x0005 [if stall then 3 else 1] ∧ Frame (.part h :: bothMbx) s t) ∧
  (∀ (s : State) (h : Half), Ends (.partitionWatchdogExpiry h) s fun t =>
    (t.hf h).part = { (s.hf h).part with restarts := (s.hf h).part.restarts + 1, cause := 2, lastTick := s.tick h } ∧
        Raised t h 1 0x0005 [2] ∧ Frame (.part h :: bothMbx) s t)

/-- Point reads and writes check class, rights and slot in order; subscriptions deliver what changed; an event leaves its log for the rings that want it. (R33, R34, R36, R37, R41, R524, R525, R527)
Where the spec leaves a point open, the clauses follow the model's choice in log entries 17, 64, 66. -/
def Obligations.PointVerbs : Prop :=
  (∀ (s : State) (o : Org) (id : Nat) (x : Half) (r : Nat) (p : Slot), RunsAt s o 0x0201 x r → r ∈ rAny → s.pointCheck x r id false = stOk →
    s.pointAt x (idIndex id) = some p → p.restoring = false → p.scalar = true →
    Ends (.pntRead o id) s fun t => AnsweredWith t o 0x0201 stOk true (p.readPayload id) ∧ Frame [.mbx o.half] s t) ∧
  (∀ (s : State) (o : Org) (id : Nat) (x : Half) (r : Nat), RunsAt s o 0x0201 x r → r ∈ rAny → s.pointCheck x r id false ≠ stOk →
    Ends (.pntRead o id) s fun t => AnsweredWith t o 0x0201 (s.pointCheck x r id false) true [] ∧ Frame [.mbx o.half] s t) ∧
  (∀ (s : State) (o : Org) (id : Nat) (x : Half) (r : Nat), RunsAt s o 0x0201 x r → r ∈ rAny → s.pointCheck x r id false = stOk → s.restoringAt x id = true →
    Ends (.pntRead o id) s fun t => AnsweredWith t o 0x0201 stPending false [] ∧
        (t.hf x).restWait = (s.hf x).restWait ++ [{ org := o, exec := x, ids := [id], multi := false }] ∧ Frame [.restWait x, .mbx o.half] s t) ∧
  (∀ (s : State) (o : Org) (id : Nat) (x : Half) (r : Nat) (p : Slot), RunsAt s o 0x0201 x r → r ∈ rAny → s.pointCheck x r id false = stOk →
    s.pointAt x (idIndex id) = some p → p.restoring = false → p.scalar = false → Room s o (p.bytes id).length →
    Ends (.pntRead o id) s fun t => AnsweredWith t o 0x0201 stOk true (p.bytes id) ∧ Frame [.mbx o.half] s t) ∧
  (∀ (s : State) (o : Org) (ids : List Nat) (x : Half) (r k : Nat) (id : Nat), RunsAt s o 0x0202 x r → r ∈ rAny → 1 ≤ ids.length → ids.length ≤ 256 →
    ids.zipIdx.find? (fun e => s.pointCheck x r e.1 false != stOk) = some (id, k) →
    Ends (.pntReadMulti o ids) s fun t => AnsweredWith t o 0x0202 (s.pointCheck x r id false) true (le 2 k) ∧ Frame [.mbx o.half] s t) ∧
  (∀ (s : State) (o : Org) (id : Nat) (x : Half) (r : Nat) (p : Slot), RunsAt s o 0x0202 x r → r ∈ rAny → s.pointCheck x r id false = stOk →
    s.pointAt x (idIndex id) = some p → p.restoring = false →
    Ends (.pntReadMulti o [id]) s fun t => AnsweredWith t o 0x0202 stOk true (p.multiEntry id) ∧ Frame [.mbx o.half] s t) ∧
  (∀ (s : State) (o : Org) (id typ v : Nat) (x : Half) (r : Nat) (p : Slot) (i : Int), RunsAt s o 0x0203 x r → r ∈ rAny → s.pointCheck x r id true = stOk →
    look none (s.hf x).pts (idIndex id) = some p → scalarValue typ v = some i → p.typ = typ → p.scalar = true →
    Ends (.pntWrite o id typ v) s fun t => AnsweredWith t o 0x0203 stOk true (le 4 ((p.wseq + 1) % 2 ^ 32)) ∧
        (∃ q, look none (t.hf x).pts (idIndex id) = some q ∧ q.val = .int i ∧ q.typ = typ ∧ q.owner = p.owner ∧ q.wseq = (p.wseq + 1) % 2 ^ 32 ∧
          q.stamp = s.tick x ∧ q.mirrorPending = true) ∧ Frame [.pts x, .mirOut x, .thm x, .mbx o.half] s t) ∧
  (∀ (s : State) (o : Org) (ring period : Nat) (ids : List Nat) (r : Nat), RunsHere s o 0x0204 r → r ∈ rAny → 32 ≤ ring → ring ≤ 63 → 20 ≤ period → period ≤ 65535 →
    1 ≤ ids.length → ids.length ≤ 256 → (∀ id ∈ ids, s.pointCheck o.half r id false = stOk) → s.ringEn o.half ring = true → s.evRole o.half ring = some r →
    ((s.hf o.half).mbx.subs.map fun b => b.ids.length).sum + ids.length ≤ 4096 →
    Ends (.pntSubscribe o ring period ids) s fun t => AnsweredWith t o 0x0204 stOk true (le 2 (s.hf o.half).mbx.subNext) ∧
        (t.hf o.half).mbx.subs = (s.hf o.half).mbx.subs ++
          [{ id := (s.hf o.half).mbx.subNext, ring := ring, role := r, cmdRing := o.ring, period := period, since := s.tick o.half, ids := ids, seen := [] }] ∧ Frame [.mbx o.half] s t) ∧
  (∀ (s : State) (o : Org) (k r : Nat) (b : Subscr), RunsHere s o 0x0205 r → r ∈ rAny → (s.hf o.half).mbx.subs.find? (fun b => b.id = k) = some b → b.role = r →
    Ends (.pntUnsubscribe o k) s fun t => AnsweredWith t o 0x0205 stOk true [] ∧
        (t.hf o.half).mbx.subs = (s.hf o.half).mbx.subs.filter (fun c => c.id != k) ∧ Frame [.mbx o.half] s t) ∧
  (∀ (s : State) (h : Half) (k : Nat) (b : Subscr), (s.hf h).mbx.subs.find? (fun b => b.id = k) = some b → s.ringEn h b.ring = false →
    Ends (.subscriptionDelivery h k) s fun t => (t.hf h).mbx = { (s.hf h).mbx with subs := (s.hf h).mbx.subs.filter fun c => c.id != k } ∧ Frame [.mbx h] s t) ∧
  (∀ (s : State) (h : Half) (k id : Nat) (b : Subscr) (p : Slot), (s.hf h).mbx.subs.find? (fun b => b.id = k) = some b → s.ringEn h b.ring = true →
    s.evRole h b.ring = some b.role → b.since < s.tick h → (s.tick h - b.since) % b.period = 0 → b.ids = [id] → s.pointAt h (idIndex id) = some p →
    p.restoring = false → (id, p.wseq, p.flags) ∉ b.seen → s.ringEth h b.ring = false → 0 < s.ringFree h b.ring → (s.ring h b.ring).lost = 0 →
    Ends (.subscriptionDelivery h k) s fun t =>
        (t.ring h b.ring).lastEvent = some ⟨(s.hf h).mbx.evseq, hbit h, 0, 0x0201, s.tick h,
          padTo 16 (le 4 id ++ [p.typ, p.flags, 0, 0] ++ p.scalar8)⟩ ∧
        (t.hf h).mbx.subs = (s.hf h).mbx.subs.map (fun c => if c.id = k then { c with seen := (b.seen.filter fun e => e.1 != id) ++ [(id, p.wseq, p.flags)] } else c) ∧
        Frame [.regs .mbx, .mbx h] s t) ∧
  (∀ (s : State) (h : Half) (r : EventRec) (l : List EventRec), (s.hf h).mbx.events = r :: l → (∀ n < 64, s.ringEn h n = false) → (∀ n < 64, (s.ring h n).held = []) →
    s.charge ≠ some h → Ends (.eventDelivery h) s fun t => (t.hf h).mbx.events = l ∧ Frame [.mbx h] s t)

/-- A tick edge counts one tick and swaps the staging banks, a commit snapshot takes the shadow words, and a snapshot is published. (R17, R18, R21, R27, R28, R30, R31, R58, R61, R78, R79, R81)
Where the spec leaves a point open, the clauses follow the model's choice in log entries 10, 90, 91, 96. -/
def Obligations.TickEdgesAndSnapshots : Prop :=
  (∀ (s : State) (h : Half), (s.hf h).twn.booted = true → (s.hf h).twn.held = false → (s.hf h).tck.tickSet = true → (s.hf h).tck.step = none → s.upd.act = none →
    Ends (.tickEdge h) s fun t => t.tick h = s.tick h + 1 ∧ (t.hf h).tck.acc = accAt (s.hf h).tck.acc (s.hf h).tck.rate (s.tick h + 1) ∧
        (t.hf (other h)).tck = (s.hf (other h)).tck ∧ (t.hf (other h)).stg = (s.hf (other h)).stg ∧ (s.charge = some h → s.rtc < t.rtc ∧ t.rtc ≤ s.rtc + 2) ∧
        (s.charge = some (other h) → t.rtc = s.rtc) ∧ t.rems = s.rems ∧ t.cabs = s.cabs ∧ t.cans = s.cans ∧ t.mesh = s.mesh ∧ t.lsw = s.lsw ∧ t.pll = s.pll) ∧
  (∀ (s : State) (h : Half), (s.hf h).twn.booted = false ∨ (s.hf h).twn.held = true ∨ (s.hf h).tck.tickSet = false → exec (.tickEdge h) s = .next s) ∧
  (∀ (s : State) (h : Half) (i : Nat) (v : Int), (s.hf h).twn.booted = true → (s.hf h).twn.held = false → (s.hf h).tck.tickSet = true →
    (s.hf h).tck.step = none → s.upd.act = none → (s.hf h).stg = [(i, { s.stage h i with pend := some v })] →
    Ends (.tickEdge h) s fun t => (t.stage h i).val = v ∧ (t.stage h i).pend = none ∧ (t.stage h i).written = true ∧ (t.stage h i).stale = false ∧
        (t.stage h i).stamp = (s.stage h i).pendStamp) ∧
  (∀ (s : State) (h : Half) (r : Bool), s.charge ≠ some h ∨ (s.twinUp h = true ∧ r = false) → exec (.commitSnapshot h r) s = .next s) ∧
  (∀ (s : State) (h : Half) (r : Bool), s.charge = some h → (s.twinUp h = true → r = true) →
    Ends (.commitSnapshot h r) s fun t => (∀ b ∈ commitBlks, (s.blk b h).roles ≠ [] → (s.blk b h).snap = none →
        (t.blk b h).snap = some (shadowWords s b h) ∧ (s.twinUp h = true → perHalf b = true → (t.blk b (other h)).snap = some (shadowWords s b h) ∧ (t.blk b (other h)).st = 1)) ∧
        Frame [.blocks] s t) ∧
  (∀ (s : State) (h : Half), (s.hf h).cln.cmds = [] → Ends (.snapshotPublish h true) s fun t => (t.hf h).pub = s.makePub h ∧ (t.hf h).pub.tick = s.tick h ∧
    (t.hf h).pub.seq = (s.hf h).pub.seq + 1 ∧ (s.charge ≠ some h → t.veh = s.veh) ∧ Frame [.pub h, .veh] s t) ∧
  (∀ (s : State) (h : Half) (k : Nat) (f : UpFrame), (s.hf h).cln.cmds = [] → s.charge = some h → k < 48 → (s.port h (32 + k)).main = some f → f.tick = s.tick h →
    Ends (.snapshotPublish h true) s fun t => (t.veh1 k).pilot = numAt f.bytes 0 2 % 8 ∧ (t.veh1 k).dstat = numAt f.bytes 0 2) ∧
  (∀ (s : State) (h : Half), Ends (.snapshotPublish h false) s fun t => (t.hf h).pub = (s.hf h).pub ∧ bitAt (t.rg .tck h 0x08) 22 = true ∧
    Frame (.regs .tck :: .tck h :: .twn h :: bothMbx) s t)

/-- PTP discipline, holdover, the time step and the RTC set the tick unit of the half that keeps time. (R54, R55, R56, R57, R59, R60, R61, R62, R80, R81, R114, R521)
Where the spec leaves a point open, the clauses follow the model's choice in log entries 8, 11. -/
def Obligations.TimeDiscipline : Prop :=
  (∀ (s : State) (h : Half) (dom : Nat) (th : Int) (c : Bool), s.rb .tck h 0 30 = true → dom = s.rf .tck h 0 23 16 → s.disciplines h = true → (s.hf h).tck.tstate = stateFor th c →
    Ends (.ptpSyncReceived h dom th c) s fun t => (t.hf h).tck.theta = th ∧ (t.hf h).tck.phase = phaseFor th ∧
        (t.hf h).tck.rate = clampRate ((s.hf h).tck.freq + phaseFor th) ∧ (t.hf h).tck.master = true ∧ (t.hf h).tck.disc = true ∧ (t.hf h).tck.lastSync = s.tick h ∧
        (t.hf h).tck.autoWait = (decide (100000000 < th.natAbs) && (s.hf h).tck.step.isNone) ∧ Frame [.tck h] s t) ∧
  (∀ (s : State) (h : Half) (dom : Nat) (th : Int) (c : Bool), s.rb .tck h 0 30 = true → dom = s.rf .tck h 0 23 16 → s.disciplines h = true → (s.hf h).tck.tstate ≠ stateFor th c →
    Ends (.ptpSyncReceived h dom th c) s fun t => (t.hf h).tck.tstate = stateFor th c ∧ (t.hf h).tck.phase = phaseFor th ∧
        Raised t h 1 0x0101 ([(s.hf h).tck.tstate, stateFor th c, 0, 0] ++ leInt 4 (clampI (-2147483648) 2147483647 th)) ∧ Frame (.tck h :: bothMbx) s t) ∧
  (∀ (s : State) (h : Half) (dom : Nat) (th : Int) (c : Bool), s.rb .tck h 0 30 = true → dom = s.rf .tck h 0 23 16 → s.disciplines h = false →
    s.charge = some (other h) → (s.hf (other h)).tck.master = false → s.rb .tck (other h) 0 30 = true →
    Ends (.ptpSyncReceived h dom th c) s fun t => (t.hf h).tck = { (s.hf h).tck with master := true, lastSync := s.tick h, theta := th } ∧
        (t.hf (other h)).tck.theta = th ∧ (t.hf (other h)).tck.phase = phaseFor th ∧ (t.hf (other h)).tck.tstate = stateFor th c ∧ Frame (.tck .A :: .tck .B :: bothMbx) s t) ∧
  (∀ (s : State) (h : Half) (dom : Nat) (th : Int) (c : Bool), s.rb .tck h 0 30 = false ∨ dom ≠ s.rf .tck h 0 23 16 → exec (.ptpSyncReceived h dom th c) s = .next s) ∧
  (∀ (s : State) (h : Half) (f : Int), s.rb .tck h 0 30 = true → s.disciplines h = true → (s.hf h).tck.tstate ≠ 3 → (s.hf h).tck.tstate ≠ 4 →
    (s.hf h).tck.freqTick + 320000 ≤ s.tick h →
    Ends (.freqUpdate h f) s fun t => (t.hf h).tck.freq = f ∧ (t.hf h).tck.rate = clampRate (f + (s.hf h).tck.phase) ∧
        (t.hf h).tck.phase = (s.hf h).tck.phase ∧ (t.hf h).tck.freqTick = s.tick h ∧ Frame [.tck h] s t) ∧
  (∀ (s : State) (h : Half) (f : Int), s.rb .tck h 0 30 = false ∨ s.disciplines h = false ∨ (s.hf h).tck.tstate = 3 ∨ (s.hf h).tck.tstate = 4 ∨
    s.tick h < (s.hf h).tck.freqTick + 320000 → exec (.freqUpdate h f) s = .next s) ∧
  (∀ (s : State) (o : Org) (ns : Int) (x : Half) (r : Nat), RunsAt s o 0x0101 x r → r ∈ [rInstaller, rVendor] → ns % 50000 = 0 → contactorsOpen s x = true →
    (s.hf x).tck.step = none →
    Ends (.sysTimeStep o ns) s fun t => AnsweredWith t o 0x0101 stPending false [] ∧
        (∀ k, (t.hf k).tck.step = some { ticks := ns / 50000, edge := s.tick x + 101, org := some o }) ∧ Frame [.tck .A, .tck .B, .mbx o.half] s t) ∧
  (∀ (s : State) (o : Org) (ns : Int) (x : Half) (r : Nat), RunsAt s o 0x0101 x r → r ∈ [rInstaller, rVendor] → ns % 50000 = 0 → contactorsOpen s x = false ∨
    (s.hf x).tck.step.isSome = true →
    Ends (.sysTimeStep o ns) s fun t => AnsweredWith t o 0x0101 0x0101 true [] ∧ Frame [.mbx o.half] s t) ∧
  (∀ (s : State) (o : Org) (ns : Int) (x : Half) (r : Nat), RunsAt s o 0x0101 x r → r ∈ [rInstaller, rVendor] → ns % 50000 ≠ 0 →
    Ends (.sysTimeStep o ns) s fun t => AnsweredWith t o 0x0101 stRange true [] ∧ Frame [.mbx o.half] s t) ∧
  (∀ (s : State) (o : Org) (ns : Int) (x : Half) (r : Nat), RunsAt s o 0x0101 x r → r ∉ [rInstaller, rVendor] →
    Ends (.sysTimeStep o ns) s fun t => AnsweredWith t o 0x0101 stRole true [] ∧ Frame [.mbx o.half] s t) ∧
  (∀ (s : State) (h : Half), (s.hf h).tck.autoWait = true → s.rb .tck h 0 31 = true → s.charge = some h → contactorsOpen s h = true → (s.hf h).tck.step = none →
    Ends (.autoTimeStep h) s fun t => (∀ k, (t.hf k).tck.step = some { ticks := -(roundTicks (s.hf h).tck.theta), edge := s.tick h + 101, org := none }) ∧
        Frame [.tck .A, .tck .B] s t) ∧
  (∀ (s : State) (h : Half), s.disciplines h = true → (s.hf h).tck.disc = true → (s.hf h).tck.lastSync + max 40000 (3 * (s.hf h).tck.annTicks) ≤ s.tick h →
    Ends (.holdoverEntry h) s fun t => (t.hf h).tck.tstate = 4 ∧ (t.hf h).tck.master = false ∧ (t.hf h).tck.phase = 0 ∧
        (t.hf h).tck.rate = clampRate (meanFreq (s.hf h).tck.freqHist (s.hf h).tck.freq) ∧ (t.hf h).tck.holdStart = s.tick h ∧ Frame (.tck h :: bothMbx) s t) ∧
  (∀ (s : State) (h : Half), (s.hf h).tck.tstate = 4 → (s.hf h).tck.holdMark < holdErr s h →
    Ends (.timeUncertain h) s fun t => (t.hf h).tck.holdMark = 2 * max (s.hf h).tck.holdMark 1 ∧ Raised t h 1 0x0103 (le 8 (holdErr s h)) ∧ Frame (.tck h :: bothMbx) s t) ∧
  (∀ (s : State) (h : Half), (s.hf h).twn.service = true → s.tick h % 20000 = 0 → Ends (.rtcRewrite h) s fun t => t.rtc = s.tick h * 32768 / 20000 ∧ Frame [.rtc] s t) ∧
  (∀ (s : State) (h : Half), (s.hf h).twn.service = false ∨ s.tick h % 20000 ≠ 0 → exec (.rtcRewrite h) s = .next s) ∧
  (∀ (s : State) (h : Half), (s.hf h).twn.booted = true → s.noService = true → (s.hf h).tck.tickSet = false → (s.hf h).tck.master = false →
    Ends (.startWaitExpiry h (s.rf .tck h 0 15 8)) s fun t => t.rtc = s.rtc + Config.freeNat s.free ∧ t.tick h = t.rtc * 20000 / 32768 ∧
        (t.hf h).tck.tickSet = true ∧ Frame [.free, .rtc, .tck h] s t) ∧
  (∀ (s : State) (h : Half) (n : Nat), (s.hf h).twn.booted = true → s.noService = true → (s.hf h).tck.tickSet = false → s.rb .tck h 0 30 = true →
    Ends (.ptpMasterSelectedAtStart h n) s fun t => t.tick h = n ∧ (t.hf h).tck.tickSet = true ∧ (t.hf h).tck.tstate = 1 ∧ Frame (.free :: .rtc :: .tck h :: bothMbx) s t)

/-- A lost reference or lock moves the half to a bypass clock and out of service; relocking and alignment bring it back. (R65, R66, R67, R68, R69, R70, R71, R72, R73, R81, R153)
Where the spec leaves a point open, the clauses follow the model's choice in log entries 8, 20. -/
def Obligations.ClockLossAndRelock : Prop :=
  (∀ (s : State) (h : Half), (s.hf h).tck.clksel = 0 → s.twinUp h = true → (s.hf (other h)).tck.clksel = 0 → (s.hf (other h)).tck.locks = 7 → (s.hf h).tck.lossBits = 0 →
    Ends (.lossOfReference h) s fun t => (t.hf h).tck.clksel = 1 ∧ (t.hf h).tck.refRun = false ∧ (t.hf h).tck.locks = 0 ∧
        t.rg .tck h 0x08 = s.rg .tck h 0x08 ||| 0x04000000 ∧ (t.hf h).twn = (s.hf h).twn ∧ Raised t h 2 0x0104 [1, 1] ∧
        Frame (.regs .tck :: .tck h :: .twn h :: bothMbx) s t) ∧
  (∀ (s : State) (h : Half), (s.hf h).tck.clksel = 0 → s.twinUp h = false → (s.hf h).tck.lossBits = 0 → (s.hf h).twn.unhealthy = false →
    Ends (.lossOfLock h) s fun t => (t.hf h).tck.clksel = 2 ∧ (t.hf h).tck.locks = 0 ∧ t.rg .tck h 0x08 = s.rg .tck h 0x08 ||| 0x02000000 ∧
        (t.hf h).twn.unhealthy = true ∧ (t.hf h).twn.cause = 0x81 ∧ (t.hf h).twn.service = false ∧ (t.hf h).twn.resetDue = none ∧ Raised t h 2 0x0104 [2, 2] ∧
        Frame (.regs .tck :: .tck h :: .twn h :: bothMbx) s t) ∧
  (∀ (s : State) (h : Half), (s.hf h).tck.clksel ≠ 0 →
    Ends (.pllLockRetry h) s fun t => (t.hf h).tck = { (s.hf h).tck with retries := (s.hf h).tck.retries + 1 } ∧ Frame [.tck h] s t) ∧
  (∀ (s : State) (h : Half) (n : Nat), n < 3 →
    Ends (.pllLockComplete h n) s fun t => (t.hf h).tck = { (s.hf h).tck with refRun := true, locks := (s.hf h).tck.locks ||| 2 ^ n } ∧ Frame [.tck h] s t) ∧
  (∀ (s : State) (h : Half), Ends (.pllLockComplete h 3) s fun t => t.pll = { s.pll with relocking := false } ∧ Frame [.pll, .regs .can] s t) ∧
  (∀ (s : State) (h : Half), (s.hf h).tck.clksel ≠ 0 → (s.hf h).tck.locks = 7 → (s.hf (other h)).twn.service = false ∨ (s.hf h).tck.aligned = true →
    Ends (.bypassExit h) s fun t => (t.hf h).tck = { (s.hf h).tck with clksel := 0 } ∧ Frame [.tck h] s t) ∧
  (∀ (s : State) (h : Half), (s.hf h).tck.locks ≠ 7 → exec (.bypassExit h) s = .next s) ∧
  (∀ (s : State), s.halfA.tck.refRun = true → s.pll.ref ≠ 0 →
    Ends .sharedPllReferenceChange s fun t => t.pll = { ref := 0, relocking := true } ∧ Frame [.pll] s t) ∧
  (∀ (s : State), s.halfA.tck.refRun = false → s.halfB.tck.refRun = false → s.pll.ref ≠ 2 →
    Ends .sharedPllReferenceChange s fun t => t.pll = { ref := 2, relocking := false } ∧ (∀ h, Raised t h 2 0x0104 [1, 2]) ∧ Frame (.pll :: bothMbx) s t) ∧
  (∀ (s : State) (h : Half) (ns trim : Int), s.twinUp h = true → s.charge ≠ some h → ns.natAbs ≤ 20 →
    Ends (.skewMeasure h ns trim) s fun t => (t.hf h).tck.skewNs = ns ∧ (t.hf h).tck.rate = clampRate trim ∧ (t.hf h).tck.aligned = true ∧ (t.hf h).tck.skewOver = none ∧
        Frame [.tck h] s t) ∧
  (∀ (s : State) (h : Half) (ns trim : Int) (n : Nat), s.twinUp h = true → s.charge ≠ some h → 250 < ns.natAbs → ns.natAbs ≤ 32767 → (s.hf h).tck.skewOver = some n → n + 1 = s.tick h →
    (s.hf h).twn.unhealthy = false →
    Ends (.skewMeasure h ns trim) s fun t => (t.hf h).tck.aligned = false ∧ Raised t h 1 0x0105 (leInt 2 ns) ∧ (t.hf h).twn.unhealthy = true ∧ (t.hf h).twn.cause = 0x82 ∧
        Frame (.regs .tck :: .tck h :: .twn h :: bothMbx) s t) ∧
  (∀ (s : State) (h : Half) (ns trim : Int), s.twinUp h = true → s.charge = some h → (s.hf h).tck.clksel ≠ 0 →
    Ends (.skewMeasure h ns trim) s fun t => (t.hf h).tck = { (s.hf h).tck with aligned := decide (ns.natAbs ≤ 20) } ∧ Frame [.tck h] s t) ∧
  (∀ (s : State) (h : Half) (ns trim : Int), s.twinUp h = false ∨ (s.charge = some h ∧ (s.hf h).tck.clksel = 0) → exec (.skewMeasure h ns trim) s = .next s)

/-- The referee grants, refuses and releases the token, and a grant moves charge and claim. (R129, R130, R131, R132, R133, R134, R138, R142, R158, R164)
Where the spec leaves a point open, the clauses follow the model's choice in log entries 12, 100. -/
def Obligations.RefereeAndToken : Prop :=
  (∀ (s : State) (h : Half) (early : Bool), (s.rebase h).raiseRefusal h false false = none →
    Ends (.refereeRequest h early) s fun t =>
        t.ref = { s.ref with reqs := s.ref.reqs.filter (fun r => r.half != h) ++ [{ half := h, edge := s.tick h + if early then 1 else 2 }] } ∧ Frame [.ref] s t) ∧
  (∀ (s : State) (h : Half) (early : Bool) (n : Nat), (s.rebase h).raiseRefusal h false false = some n →
    Ends (.refereeRequest h early) s fun t => t.ref = s.ref ∧
        Raised t h 1 0x0302 ([4, n] ++ le 2 (s.hf h).twn.claim ++ le 2 (s.hf (other h)).twn.claim ++ le 2 s.ref.e) ∧ Frame bothMbx s t) ∧
  (∀ (s : State) (h : Half) (e : Nat), s.ref.reqs = [{ half := h, edge := e }] → e ≤ s.tick h → s.silent16 h = false → s.raiseRefusal h false false = none →
    Ends (.refereeGrant h) s fun t => t.ref.token = some h ∧ t.ref.e = s.ref.e + 1 ∧ t.ref.reqs = [] ∧ (t.hf h).twn.claim = 2 * (s.ref.e + 1) + hbit h ∧
        (t.hf h).twn.acting = true ∧ ((t.hf h).twn.service = ((s.hf h).twn.service || s.noService)) ∧ (t.hf (other h)).twn.acting = false ∧
        (t.hf (other h)).twn.claim = (s.hf (other h)).twn.claim ∧
        Frame (.regs .twn :: .blocks :: .ref :: .twn .A :: .twn .B :: .cln .A :: .cln .B :: bothMbx) s t) ∧
  (∀ (s : State) (h : Half), s.ref.reqs.find? (fun r => r.half == h) = none → exec (.refereeGrant h) s = .next s) ∧
  (∀ (s : State) (x : Half) (n : Nat), s.ref.token = some x → releaseCause s x = some n → s.ho = none → (s.hf x).twn.acting = true →
    Ends .tokenRelease s fun t => t.ref.token = none ∧ t.ref.freeSig = some (other x) ∧ (t.hf x).twn.acting = false ∧ (t.hf x).twn.claim = (s.hf x).twn.claim ∧
        (t.hf (other x)).twn = (s.hf (other x)).twn ∧ Raised t (other x) 1 0x0302 ([2, n] ++ le 2 (s.hf (other x)).twn.claim ++ le 2 (s.hf x).twn.claim ++ le 2 s.ref.e) ∧
        Frame (.regs .twn :: .blocks :: .ref :: .twn .A :: .twn .B :: .cln .A :: .cln .B :: bothMbx) s t) ∧
  (∀ (s : State) (x : Half), s.ref.token = some x → releaseCause s x = none → exec .tokenRelease s = .next s) ∧
  (∀ (s : State) (x : Half), s.ref.token = some x → s.ho = none → (s.hf x).twn.acting = true →
    Ends .aliveSignalMissing s fun t => t.ref.token = none ∧ t.ref.freeSig = some (other x) ∧ (t.hf x).twn.acting = false ∧
        Raised t (other x) 1 0x0302 ([2, 0x10] ++ le 2 (s.hf (other x)).twn.claim ++ le 2 (s.hf x).twn.claim ++ le 2 s.ref.e) ∧
        Frame (.regs .twn :: .blocks :: .ref :: .twn .A :: .twn .B :: .cln .A :: .cln .B :: bothMbx) s t) ∧
  (∀ (s : State) (r : Relinquish), s.ref.rel = some r → r.edge ≤ s.tick r.from_ → r.from_ = other r.dst → s.raiseRefusal r.dst true true = none →
    s.ho = none → s.silent16 r.dst = false →
    Ends .handoverEdge s fun t => t.ref.token = some r.dst ∧ t.ref.e = s.ref.e + 1 ∧ t.ref.rel = none ∧ (t.hf r.dst).twn.acting = true ∧
        (t.hf r.dst).twn.claim = 2 * (s.ref.e + 1) + hbit r.dst ∧ (t.hf r.dst).twn.tunFrom = r.edge + 1 ∧ (t.hf (other r.dst)).twn.acting = false ∧
        Raised t r.dst 0 0x0304 ([1, 0, 0, 0, 0, 0, 0, 0] ++ le 8 r.edge) ∧ Frame (.ports .A :: .ports .B :: .regs .twn :: .blocks :: .ref :: .twn .A :: .twn .B :: .cln .A :: .cln .B :: bothMbx) s t) ∧
  (∀ (s : State), s.ref.rel = none → exec .handoverEdge s = .next s) ∧
  (∀ (s : State) (x : Half), s.ref.token = some x → s.twinUp x = false → servicePorts s x < servicePorts s (other x) → s.ref.ports = 0 ∨ s.ref.portsAt ≠ s.tick x →
    ¬ (s.ref.portsAt + 1 = s.tick x ∧ 199 ≤ s.ref.ports) →
    Ends .portCountTakeover s fun t =>
        t.ref = { s.ref with ports := if s.ref.portsAt + 1 = s.tick x then s.ref.ports + 1 else 1, portsAt := s.tick x } ∧ Frame [.ref] s t) ∧
  (∀ (s : State) (x : Half), s.ref.token = some x → s.twinUp x = false → servicePorts s x < servicePorts s (other x) → s.ref.portsAt + 1 = s.tick x → 199 ≤ s.ref.ports →
    s.raiseRefusal (other x) false true = none → s.silent16 (other x) = false → s.ho = none →
    Ends .portCountTakeover s fun t => t.ref.token = some (other x) ∧ t.ref.e = s.ref.e + 1 ∧ t.ref.ports = 0 ∧ (t.hf (other x)).twn.acting = true ∧
        (t.hf x).twn.acting = false ∧ Frame (.regs .twn :: .blocks :: .ref :: .twn .A :: .twn .B :: .cln .A :: .cln .B :: bothMbx) s t) ∧
  (∀ (s : State) (x : Half), s.ref.token = some x → s.twinUp x = true → s.twinUp (other x) = true →
    Ends .portCountTakeover s fun t => t.ref = { s.ref with ports := 0, portsAt := s.tick x } ∧ Frame [.ref] s t) ∧
  (∀ (s : State) (h : Half), (s.hf h).twn.pertActive = true → s.rf .twn h 0x40 29 27 = 6 → s.charge = some h →
    Ends (.claimLossRelinquish h) s fun t => t.ref = { s.ref with relNoSucc := true } ∧ Frame [.ref] s t) ∧
  (∀ (s : State), Ends .refereeDailyExercise s fun t => t.ref = { s.ref with exercised := s.ref.exercised + 1 } ∧ Frame [.ref] s t)

/-- Heartbeats carry claim and health, a silent link is dead, and a handover goes through its steps in order. (R138, R139, R140, R141, R143, R144, R145, R152, R160, R320, R521)
Where the spec leaves a point open, the clauses follow the model's choice in log entries 23, 108. -/
def Obligations.TwinLinkAndHandover : Prop :=
  (∀ (s : State) (h : Half), Ends (.twinHeartbeatSend h) s fun t => (∃ b, (t.hf h).twn = { (s.hf h).twn with hbOut := some b } ∧ b.tick = s.tick h ∧
    b.claim = (s.hf h).twn.claim ∧ b.health = s.healthWord h ∧ b.token = (s.ref.token == some h) ∧ b.gen = (s.hf h).twn.gen ∧ b.handover = (s.hf h).twn.hoReq) ∧
    Frame [.twn h] s t) ∧
  (∀ (s : State) (h : Half) (b : Heartbeat), (s.hf (other h)).twn.hbOut = some b → (s.hf h).twn.hbTick + 1 = s.tick h → (s.hf h).twn.hbGood < 15 → (s.hf h).twn.up = false →
    ¬ ((s.hf h).twn.claim < b.claim ∧ b.token = true) →
    Ends (.twinHeartbeatReceived h true) s fun t => (t.hf (other h)).twn.hbOut = none ∧ (t.hf h).twn.otherClaim = b.claim ∧ (t.hf h).twn.otherHealth = b.health ∧
        (t.hf h).twn.otherToken = b.token ∧ (t.hf h).twn.hbTick = s.tick h ∧ (t.hf h).twn.hbGood = (s.hf h).twn.hbGood + 1 ∧ (t.hf h).twn.up = false ∧
        Frame [.twn .A, .twn .B, .thm h] s t) ∧
  (∀ (s : State) (h : Half) (b : Heartbeat), (s.hf (other h)).twn.hbOut = some b → (s.hf h).twn.hbTick + 1 = s.tick h → 15 ≤ (s.hf h).twn.hbGood →
    ¬ ((s.hf h).twn.claim < b.claim ∧ b.token = true) →
    Ends (.twinHeartbeatReceived h true) s fun t => (t.hf h).twn.up = true ∧ Frame [.twn .A, .twn .B, .thm h] s t) ∧
  (∀ (s : State) (h : Half) (b : Heartbeat), (s.hf (other h)).twn.hbOut = some b → (s.hf h).twn.hbTick + 1 ≠ s.tick h →
    ¬ ((s.hf h).twn.claim < b.claim ∧ b.token = true) →
    Ends (.twinHeartbeatReceived h true) s fun t => (t.hf h).twn.hbGood = 1 ∧ (t.hf h).twn.up = (s.hf h).twn.up ∧ Frame [.twn .A, .twn .B, .thm h] s t) ∧
  (∀ (s : State) (h : Half) (b : Heartbeat), (s.hf (other h)).twn.hbOut = some b → (s.hf h).twn.claim < b.claim → b.token = true → (s.hf h).twn.acting = true →
    Ends (.twinHeartbeatReceived h true) s fun t => (t.hf h).twn.acting = false ∧ (t.hf h).twn.claim = (s.hf h).twn.claim ∧ t.ref = s.ref ∧
        Frame (.regs .twn :: .blocks :: .thm h :: .twn .A :: .twn .B :: .cln h :: bothMbx) s t) ∧
  (∀ (s : State) (h : Half) (b : Heartbeat), (s.hf (other h)).twn.hbOut = some b →
    Ends (.twinHeartbeatReceived h false) s fun t => (t.hf h).twn.hbGood = 0 ∧ (t.hf h).twn.up = (s.hf h).twn.up ∧ (t.hf (other h)).twn.hbOut = none ∧
        Frame [.twn .A, .twn .B] s t) ∧
  (∀ (s : State) (h : Half), (s.hf h).twn.up = true → (s.hf h).twn.hbTick + 2 ≤ s.tick h →
    Ends (.twinLinkDead h) s fun t => (t.hf h).twn.up = false ∧ (t.hf h).twn.hbGood = 0 ∧ (t.hf h).twn.cover = false ∧ Frame (.twn h :: bothMbx) s t) ∧
  (∀ (s : State) (h : Half), s.tick h < (s.hf h).twn.hbTick + 2 → exec (.twinLinkDead h) s = .next s) ∧
  (∀ (s : State) (h : Half), Ends (.relayedSnapshotReceived h) s fun t => (t.hf h).twn = { (s.hf h).twn with relayReady := (s.hf h).twn.relay.length } ∧ Frame [.twn h] s t) ∧
  (∀ (s : State) (g : Half), s.charge = some g → s.ho = none → preferred s (other g) = some (other g) → (s.hf (other g)).twn.clean = true →
    (s.hf (other g)).twn.cleanSince + 20000 * s.rf .twn (other g) 0 25 16 ≤ s.tick (other g) →
    Ends .cleanHealthReturn s fun t => t.ho = some { dst := other g, tick := s.tick (other g), phase := 0, org := none } ∧
        (t.hf (other g)).twn = { (s.hf (other g)).twn with hoReq := true } ∧ Frame [.twn (other g), .ho] s t) ∧
  (∀ (s : State) (g : Half), s.charge = some g → preferred s (other g) ≠ some (other g) → exec .cleanHealthReturn s = .next s) ∧
  (∀ (s : State) (o : Org) (n r : Nat) (x : Half), RunsAt s o 0x0301 x r → r ∈ [rInstaller, rVendor] → halfOf n = some (other x) → s.ref.e < 0x7FFF →
    s.raiseRefusal (other x) true true = none → s.ho = none →
    Ends (.twnHandover o n) s fun t => t.ho = some { dst := other x, tick := s.tick x, phase := 0, org := some o } ∧ (t.hf (other x)).twn.hoReq = true ∧
        AnsweredWith t o 0x0301 stPending false [] ∧ Frame [.twn (other x), .ho, .mbx o.half] s t) ∧
  (∀ (s : State) (o : Org) (n r : Nat) (x : Half), RunsAt s o 0x0301 x r → r ∈ [rInstaller, rVendor] → halfOf n ≠ some (other x) →
    Ends (.twnHandover o n) s fun t => AnsweredWith t o 0x0301 stRange true [] ∧ Frame [.mbx o.half] s t) ∧
  (∀ (s : State) (o : Org) (n r : Nat) (x : Half), RunsAt s o 0x0301 x r → r ∈ [rInstaller, rVendor] → halfOf n = some (other x) → 0x7FFF ≤ s.ref.e →
    Ends (.twnHandover o n) s fun t => AnsweredWith t o 0x0301 0x0302 true [] ∧ Frame [.mbx o.half] s t) ∧
  (∀ (s : State) (x : Handover), s.ho = some x → x.phase = 0 → Ends .handoverReq s fun t => t.ho = some { x with phase := 1 } ∧ Frame [.ho] s t) ∧
  (∀ (s : State) (x : Handover), s.ho = some x → x.phase = 1 → handoverQuiet s (other x.dst) = true →
    Ends .handoverStateSend s fun t => t.ho = some { x with phase := 2 } ∧ (t.hf x.dst).thm.models = (s.hf (other x.dst)).thm.models ∧ Frame [.ho, .thm x.dst] s t) ∧
  (∀ (s : State) (x : Handover), s.ho = some x → x.phase = 1 → handoverQuiet s (other x.dst) = false → exec .handoverStateSend s = .next s) ∧
  (∀ (s : State) (x : Handover), s.ho = some x → x.phase = 2 →
    Ends .handoverStateAck s fun t => t.ho = some { x with phase := 3 } ∧
        t.ref = { s.ref with rel := some { from_ := other x.dst, dst := x.dst, edge := s.tick (other x.dst) + 3 } } ∧ Frame [.ho, .ref] s t) ∧
  (∀ (s : State) (x : Handover), s.ho = some x → x.phase ≤ 2 → x.tick + 4000 ≤ s.tick (other x.dst) → x.org = none →
    Ends .handoverTimeout s fun t => t.ho = none ∧ t.ref.rel = none ∧ t.ref.token = s.ref.token ∧ (t.hf x.dst).twn.hoReq = false ∧
        (t.hf (other x.dst)).twn = (s.hf (other x.dst)).twn ∧ Frame (.twn x.dst :: .ref :: .ho :: bothMbx) s t) ∧
  (∀ (s : State) (x : Handover), s.ho = some x → x.phase = 3 → exec .handoverTimeout s = .next s)

/-- A rejoining half loads the serving half's state, and lane, digest and memory checks judge a half's health. (R71, R146, R147, R148, R149, R150, R151, R152, R153, R154)
Where the spec leaves a point open, the clauses follow the model's choice in log entry 22. -/
def Obligations.RejoinAndSelfTest : Prop :=
  (∀ (s : State) (h : Half), returned s h = true → (s.hf h).twn.service = false → (s.hf h).twn.up = true → s.serving (other h) = true →
    Ends (.rejoinStart h) s fun t => t.tick h = s.tick (other h) ∧ (t.hf h).tck.tickSet = true ∧ (t.hf h).stg = (s.hf (other h)).stg ∧
        (t.hf h).cnp = (s.hf (other h)).cnp ∧ (t.hf h).pst = (s.hf (other h)).pst ∧ (t.hf h).twn.rejoin = true ∧ (t.hf h).twn.gen = (s.hf (other h)).twn.gen ∧
        (t.hf h).twn.claim = s.lastClaim h ∧ (t.hf h).twn.service = false ∧ (t.hf h).thm.models = (s.hf (other h)).thm.models ∧
        Frame (allRegs ++ [.tck h, .stg h, .pts h, .twn h, .cln h, .pst h, .cnp h, .safv h, .thm h, .upd] ++ bothMbx) s t) ∧
  (∀ (s : State) (h : Half), returned s h = false ∨ (s.hf h).twn.service = true ∨ (s.hf h).twn.up = false ∨ s.serving (other h) = false →
    exec (.rejoinStart h) s = .next s) ∧
  (∀ (s : State) (h : Half) (n : Nat), returned s h = true → s.noService = true → (s.hf h).tck.clksel = 0 → (s.hf h).tck.locks = 7 → (s.hf h).tck.tickSet = true →
    (s.hf h).tck.recount = false ∨ (s.hf h).tck.aligned = true →
    Ends (.startPath h n) s fun t => (t.hf h).twn.unhealthy = false ∧ (t.hf h).twn.cause = 0 ∧ (t.hf h).twn.rejoin = false ∧ (t.hf h).twn.cfgLoaded = true ∧
        (t.hf h).tck = (s.hf h).tck ∧ t.ref.token = s.ref.token ∧ Frame (allRegs ++ (.ref :: .twn h :: bothMbx)) s t) ∧
  (∀ (s : State) (h : Half) (n : Nat), s.noService = false → exec (.startPath h n) s = .next s ∧ exec (.restartWithoutService h n) s = .next s) ∧
  (∀ (s : State) (h : Half) (n : Nat), (s.hf h).tck.clksel = 2 → (s.hf h).tck.locks = 7 → s.noService = true → (s.hf h).twn.held = false → (s.hf h).twn.booted = true →
    s.pwr.charged = true → (s.hf h).thm.hold = false →
    Ends (.restartWithoutService h n) s fun t => (t.hf h).tck.clksel = 0 ∧ (t.hf h).tck.tickSet = true ∧ ((s.hf h).tck.master = true → t.tick h = n) ∧
        (t.hf h).twn.unhealthy = false ∧ (t.hf h).twn.cause = 0 ∧ t.ref.token = s.ref.token ∧ Frame (allRegs ++ (.free :: .rtc :: .ref :: .tck h :: .twn h :: bothMbx)) s t) ∧
  (∀ (s : State) (h : Half) (rs : List ShadowResult), s.rb .twn h 0 29 = false → exec (.shadowCompare h rs) s = .next s) ∧
  (∀ (s : State) (h : Half) (rs : List ShadowResult) (l k : Nat) (ks : List Nat), s.rb .twn h 0 29 = true → (s.hf h).twn.toShadow = [l] →
    (s.hf h).twn.spares = k :: ks → shadowBad s h rs l k = true → (s.hf h).twn.unhealthy = false →
    Ends (.shadowCompare h rs) s fun t => (t.hf h).twn.unhealthy = true ∧ (t.hf h).twn.cause = 0x87 ∧ (t.hf h).twn.toShadow = [] ∧ (t.hf h).twn.shadowHit = true ∧
        (t.hf h).twn.service = false ∧ Raised t h 2 0x0305 [1, l, k] ∧ Frame (.regs .twn :: .twn h :: bothMbx) s t) ∧
  (∀ (s : State) (h : Half) (rs : List ShadowResult) (l k : Nat), s.rb .twn h 0 29 = true → (s.hf h).twn.toShadow = [] → (s.hf h).twn.recheck = [] →
    shadowPlan s h = [(l, k)] → shadowBad s h rs l k = true →
    Ends (.shadowCompare h rs) s fun t => (t.hf h).twn = { (s.hf h).twn with recheck := [(l, k)] } ∧ Raised t h 2 0x0305 [1, l, k] ∧
        (t.rg .twn h 0x24).toNat = min 0xFFFFFFFF ((s.rg .twn h 0x24).toNat + 1) ∧ Frame (.regs .twn :: .twn h :: bothMbx) s t) ∧
  (∀ (s : State) (h : Half) (rs : List ShadowResult), s.rb .twn h 0 29 = true → (s.hf h).twn.toShadow = [] → (s.hf h).twn.recheck = [] →
    (∀ e ∈ shadowPlan s h, shadowBad s h rs e.1 e.2 = false) → exec (.shadowCompare h rs) s = .next s) ∧
  (∀ (s : State) (h : Half), (s.hf h).twn.up = true → s.rb .twn h 0 29 = true → (s.hf h).twn.digTick = s.tick h → (s.hf (other h)).twn.digTick = s.tick h →
    (s.hf h).twn.mapOther.isSome = true → (∀ l < 60, l ∉ excludedLanes s h → look 0 (s.hf h).twn.digs l = look 0 (s.hf (other h)).twn.digs l) →
    (s.hf h).twn.rejoin = false →
    Ends (.digestCompare h) s fun t => (t.hf h).twn = { (s.hf h).twn with digMatch := (s.hf h).twn.digMatch + 1, shadowHit := false } ∧ Frame [.regs .twn, .twn h] s t) ∧
  (∀ (s : State) (h : Half), (s.hf h).twn.up = true → s.rb .twn h 0 29 = true → (s.hf h).twn.digTick = s.tick h → (s.hf (other h)).twn.digTick = s.tick h →
    (s.hf h).twn.mapOther.isSome = true → (∀ l < 60, l ∉ excludedLanes s h → look 0 (s.hf h).twn.digs l = look 0 (s.hf (other h)).twn.digs l) →
    (s.hf h).twn.rejoin = true → 15 ≤ (s.hf h).twn.digMatch → (s.hf h).tck.aligned = true → (s.hf h).tck.clksel ≤ 1 →
    Ends (.digestCompare h) s fun t => (t.hf h).twn.rejoin = false ∧ (t.hf h).twn.svcNext = true ∧ (t.hf h).twn.unhealthy = false ∧ (t.hf h).twn.cause = 0 ∧
        Frame (.regs .twn :: .twn h :: bothMbx) s t) ∧
  (∀ (s : State) (h : Half), (s.hf h).twn.up = true → s.rb .twn h 0 29 = true → (s.hf h).twn.digTick ≠ s.tick h →
    Ends (.digestCompare h) s fun t => (t.hf h).twn.digMatch = 0 ∧ (t.hf h).twn.digMissed = (s.hf h).twn.digMissed + 1 ∧ Frame (.twn h :: bothMbx) s t) ∧
  (∀ (s : State) (h : Half), (s.hf h).twn.up = false ∨ s.rb .twn h 0 29 = false → exec (.digestCompare h) s = .next s) ∧
  (∀ (s : State) (h : Half) (a : Nat), s.rb .twn h 0 28 = true →
    Ends (.scrubBlock h a .dram 1) s fun t => (t.hf h).twn.pens = (s.hf h).twn.pens ++ [2] ∧ (t.hf h).twn.scrubPos = (s.hf h).twn.scrubPos + 1 ∧
        Frame (.twn h :: bothMbx) s t) ∧
  (∀ (s : State) (h : Half) (a : Nat),
    Ends (.scrubBlock h a .sram 1) s fun t => (t.hf h).twn.pens = (s.hf h).twn.pens ++ [2] ∧ (t.hf h).twn.scrubPos = (s.hf h).twn.scrubPos ∧ Frame (.twn h :: bothMbx) s t) ∧
  (∀ (s : State) (h : Half) (a : Nat), s.rb .twn h 0 28 = true → (s.hf h).twn.unhealthy = false →
    Ends (.scrubBlock h a .program 2) s fun t => (t.hf h).twn.unhealthy = true ∧ (t.hf h).twn.cause = 0x89 ∧ Raised t h 2 0x0306 (le 8 a ++ [2]) ∧ Frame (.twn h :: bothMbx) s t) ∧
  (∀ (s : State) (h : Half) (a : Nat), s.rb .twn h 0 28 = true → s.twinUp h = true →
    Ends (.scrubBlock h a .points 2) s fun t => look none (t.hf h).pts (a / 128) = look none (s.hf (other h)).pts (a / 128) ∧
        (∀ i, i ≠ a / 128 → look none (t.hf h).pts i = look none (s.hf h).pts i) ∧ Raised t h 2 0x0306 (le 8 a ++ [1]) ∧ Frame (.pts h :: .twn h :: bothMbx) s t) ∧
  (∀ (s : State) (h : Half) (a r : Nat) (k : MemKind), k ≠ .sram → s.rb .twn h 0 28 = false → exec (.scrubBlock h a k r) s = .next s) ∧
  (∀ (s : State) (h : Half), Ends (.penaltyDecay h) s fun t => (t.hf h).twn = { (s.hf h).twn with pens := ((s.hf h).twn.pens.map (· - 1)).filter (0 < ·) } ∧ Frame [.twn h] s t) ∧
  (∀ (s : State) (h : Half), s.tick h % 20000 = 0 → (∀ p < 80, (s.port h p).winBlks ≥ 10000 * (s.port h p).winCorr) →
    Ends (.healthWindowEnd h) s fun t => (t.hf h).ports = (s.hf h).ports.map (fun e => (e.1, { e.2 with winCorr := 0, winBlks := 0 })) ∧ Frame [.ports h] s t) ∧
  (∀ (s : State) (h : Half), s.tick h % 20000 ≠ 0 → exec (.healthWindowEnd h) s = .next s)

/-- Feed supervision sets PWR_FEED and reports it, and a perturbation is armed only where TEST_EN and its range allow. (R155, R156, R157, R163, R164, R165)
Where the spec leaves a point open, the clauses follow the model's choice in log entry 25. -/
def Obligations.FeedsAndPerturbation : Prop :=
  (∀ (s : State) (v : Nat), s.rb .pwr .A 0 9 = true →
    Ends (.feedLost .A v) s fun t => t.rb .pwr .A 0 9 = false ∧ t.rb .pwr .A 0 7 = true ∧ t.rb .pwr .A 0 8 = s.rb .pwr .A 0 8 ∧ t.rf .pwr .A 0 31 21 = v % 2048 ∧
        Frame (.regs .pwr :: bothMbx) s t) ∧
  (∀ (s : State) (v : Nat), s.rb .pwr .A 0 8 = false →
    Ends (.feedOk .B v) s fun t => t.rb .pwr .A 0 8 = true ∧ t.rb .pwr .A 0 9 = s.rb .pwr .A 0 9 ∧ t.rf .pwr .A 0 20 10 = v % 2048 ∧ Frame (.regs .pwr :: bothMbx) s t) ∧
  (∀ (s : State) (v : Nat), s.rb .pwr .A 0 9 = true → Ends (.feedOk .A v) s fun t => t.rf .pwr .A 0 31 21 = v % 2048 ∧ Frame [.regs .pwr] s t) ∧
  (∀ (s : State), Ends (.feedReverseCurrent .A) s fun t => t.rb .pwr .A 0 5 = true ∧ Frame (.regs .pwr :: bothMbx) s t) ∧
  (∀ (s : State), Ends (.feedReverseCurrent .B) s fun t => t.rb .pwr .A 0 4 = true ∧ Frame (.regs .pwr :: bothMbx) s t) ∧
  (∀ (s : State) (f : Half), s.feedsOk = true → Ends (.oringTest f true) s fun t => t.rb .pwr .A 0 3 = true ∧ Frame (.regs .pwr :: bothMbx) s t) ∧
  (∀ (s : State) (f : Half) (b : Bool), s.feedsOk = false ∨ b = false → exec (.oringTest f b) s = .next s) ∧
  (∀ (s : State) (o : Org) (h : Half) (v : Word) (r : Nat), RunsHere s o 0x03F2 r → r ∈ [rInstaller, rVendor] → s.rb .twn h 0 27 = false →
    Ends (.pertArm o h v) s fun t => AnsweredWith t o 0x03F2 0x0303 true [] ∧ Frame [.mbx o.half] s t) ∧
  (∀ (s : State) (o : Org) (h : Half) (v : Word) (r : Nat), RunsHere s o 0x03F2 r → r ∈ [rInstaller, rVendor] → s.rb .twn h 0 27 = true → fld v 29 27 ≠ 7 →
    fld v 15 0 ≠ 0 → pertMagOk (fld v 29 27) (s.rf .twn h 0x44 15 0) = true →
    Ends (.pertArm o h v) s fun t => AnsweredWith t o 0x03F2 stOk true (le 8 (s.tick h)) ∧ t.rg .twn h 0x40 = v &&& 0x38FFFFFF ∧ (t.hf h).twn.pertArmed = true ∧
        (t.hf h).twn.pertActive = false ∧ Frame [.regs .twn, .twn h, .mbx o.half] s t) ∧
  (∀ (s : State) (o : Org) (h : Half) (v : Word) (r : Nat), RunsHere s o 0x03F2 r → r ∈ [rInstaller, rVendor] → s.rb .twn h 0 27 = true →
    fld v 29 27 = 7 ∨ fld v 15 0 = 0 ∨ pertMagOk (fld v 29 27) (s.rf .twn h 0x44 15 0) = false →
    Ends (.pertArm o h v) s fun t => AnsweredWith t o 0x03F2 stRange true [] ∧ Frame [.mbx o.half] s t) ∧
  (∀ (s : State) (h : Half), (s.hf h).twn.pertActive = true → (s.hf h).twn.pertStart + s.rf .twn h 0x40 15 0 ≤ s.tick h →
    Ends (.pertEnd h) s fun t => (t.hf h).twn = { (s.hf h).twn with pertActive := false } ∧ Frame [.twn h] s t) ∧
  (∀ (s : State) (h : Half), (s.hf h).twn.pertActive = false → exec (.pertEnd h) s = .next s)

/-- An uplink frame that passes every check becomes the port's sample; downlink frames go out in service and on time. (R14, R76, R79, R96, R99, R101, R111, R118, R121, R137, R138, R164)
Where the spec leaves a point open, the clauses follow the model's choice in log entries 6, 7, 30, 61, 62. -/
def Obligations.UplinkAndDownlinkFrames : Prop :=
  (∀ (s : State) (h : Half), Ends (.ingestDeadline h) s fun t => (t.hf h).tck = { (s.hf h).tck with ingestEnd := some (s.tick h) } ∧ Frame [.tck h] s t) ∧
  (∀ (s : State) (h : Half) (p : Nat) (f : RxFrame), 80 ≤ p ∨ (s.port h p).pstate = 0 → exec (.uplinkTickFrame h p f) s = .next s) ∧
  (∀ (s : State) (h : Half) (p : Nat) (f : RxFrame), p < 80 → (s.port h p).pstate ≠ 0 → pertMag s h 1 p = none → pertMag s h 5 p = none → f.cv = true →
    Ends (.uplinkTickFrame h p f) s fun t => t.rg .nlk h (p * 0x40 + 0x10) = BitVec.ofNat 32 (min 0xFFFFFFFF ((s.rg .nlk h (p * 0x40 + 0x10)).toNat + 1)) ∧
        t.port h p = { s.port h p with winBlks := (s.port h p).winBlks + f.blocks.length } ∧ Frame [.regs .nlk, .ports h] s t) ∧
  (∀ (s : State) (h : Half) (p n : Nat) (f : RxFrame) (b : List Nat), p < 80 → (s.port h p).pstate ≠ 0 → pertMag s h 1 p = none → pertMag s h 5 p = none → f.cv = false →
    rsDecodeAll f.blocks = some (b, n) → f.blocks.length = 1 + numAt b 7 1 % 16 → numAt b 0 1 = upType p → (numAt b 1 1).testBit 1 = true →
    (numAt b 1 1).testBit 4 = false → numAt b 6 1 = p → numAt b 2 2 = s.tick h % 2 ^ 16 → f.at_ ≤ 20000 → (s.hf h).tck.ingestEnd ≠ some (s.tick h) →
    s.upTag h p b = true →
    Ends (.uplinkTickFrame h p f) s fun t => (t.port h p).main =
          some { tick := s.tick h, claim := numAt b 4 2, echoValid := false, lost := (numAt b 1 1).testBit 3,
                 bytes := if (numAt b 1 1).testBit 0 then (b.drop 8).take ((b.drop 8).length - 8) else b.drop 8 } ∧
        (t.port h p).harv = (s.port h p).harv ∧ (t.port h p).echo = numAt b 4 2 ∧ (t.port h p).lost = (numAt b 1 1).testBit 3 ∧ Frame [.regs .nlk, .ports h] s t) ∧
  (∀ (s : State) (h : Half) (p n : Nat) (f : RxFrame) (b : List Nat), p < 80 → (s.port h p).pstate ≠ 0 → pertMag s h 1 p = none → pertMag s h 5 p = none → f.cv = false →
    rsDecodeAll f.blocks = some (b, n) → f.blocks.length = 1 + numAt b 7 1 % 16 → numAt b 0 1 = upType p → (numAt b 1 1).testBit 1 = true →
    numAt b 6 1 = p → numAt b 2 2 = s.tick h % 2 ^ 16 → f.at_ ≤ 20000 → (s.hf h).tck.ingestEnd ≠ some (s.tick h) → s.upTag h p b = false →
    Ends (.uplinkTickFrame h p f) s fun t =>
        t.rg .nlk h (p * 0x40 + 0x20) = BitVec.ofNat 32 (min 0xFFFFFFFF ((s.rg .nlk h (p * 0x40 + 0x20)).toNat + 1)) ∧
        (t.port h p).main = (s.port h p).main ∧ (t.port h p).echo = (s.port h p).echo ∧ Frame [.regs .nlk, .ports h] s t) ∧
  (∀ (s : State) (h : Half) (p n : Nat) (f : RxFrame) (b : List Nat), p < 80 → (s.port h p).pstate ≠ 0 → pertMag s h 1 p = none → pertMag s h 5 p = none → f.cv = false →
    rsDecodeAll f.blocks = some (b, n) → f.blocks.length = 1 + numAt b 7 1 % 16 → numAt b 0 1 = upType p →
    (numAt b 1 1).testBit 1 = true → (numAt b 1 1).testBit 4 = true → numAt b 6 1 = p → numAt b 2 2 = s.tick h % 2 ^ 16 → f.at_ ≤ 20000 →
    (s.hf h).tck.ingestEnd ≠ some (s.tick h) → s.upTag h p b = true → (s.hf h).twn.claim < numAt b 4 2 → (s.hf h).twn.acting = true →
    Ends (.uplinkTickFrame h p f) s fun t => (t.hf h).twn.acting = false ∧ (t.hf h).twn.outranked = (s.hf h).twn.outranked + 1 ∧ (t.port h p).echo = numAt b 4 2 ∧
        Frame (.regs .nlk :: .regs .twn :: .blocks :: .ports h :: .twn h :: .cln h :: bothMbx) s t) ∧
  (∀ (s : State) (h : Half) (p n : Nat) (f : RxFrame) (b : List Nat), 32 ≤ p → p < 80 → (s.port h p).pstate ≠ 0 → pertMag s h 1 p = none → pertMag s h 5 p = none →
    f.cv = false → rsDecodeAll f.blocks = some (b, n) → f.blocks.length = 1 + numAt b 7 1 % 16 → numAt b 0 1 = 0x23 → (numAt b 1 1).testBit 1 = true →
    (numAt b 1 1).testBit 4 = false → numAt b 6 1 = p → numAt b 2 2 = s.tick h % 2 ^ 16 → f.at_ ≤ 20000 → (s.hf h).tck.ingestEnd ≠ some (s.tick h) →
    Ends (.uplinkTickFrame h p f) s fun t => { seq := numAt b 2 2, side := h, bytes := b } ∈ look [] t.met.copies (p - 32) ∧
        (t.port h p).main = (s.port h p).main ∧ Frame [.regs .nlk, .ports h, .met] s t) ∧
  (∀ (s : State) (h : Half) (p : Nat), p < 80 → (s.port h p).pstate = 4 → (s.port h p).svcFrom ≤ s.tick h → (s.hf h).twn.service = true → s.pstate ≠ 1 →
    pertMag s h 2 p = none → pertMag s h 5 p = none → fld (s.nlkCfg h p) 27 24 ≤ 5 →
    Ends (.downlinkDispatch h p true) s fun t => (∃ m, (t.port h p).down = some m ∧ m.tick = s.tick h % 2 ^ 64 ∧ m.start = 40000 ∧ m.tagged = s.portAuth h p ∧
        m.iv = ivFor false h (s.tick h) p (mainType p) 0 ∧
        m.bytes.take 8 = s.downHead h p (mainType p) (fld (s.nlkCfg h p) 27 24 - 1) (s.portAuth h p)
          ((s.port h p).lost && ((s.port h p).resume || s.restartReady h p))) ∧
        ((t.port h p).downHarv.isSome = (s.connEn p && !(s.conn p).pdu.isEmpty && (s.conn p).sentTick == s.now && decide (fld (s.nlkCfg h p) 27 24 ≤ 4))) ∧
        Frame [.free, .ports h] s t) ∧
  (∀ (s : State) (h : Half) (p m : Nat), p < 80 → (s.port h p).pstate = 4 → (s.port h p).svcFrom ≤ s.tick h → (s.hf h).twn.service = true → s.pstate ≠ 1 →
    pertMag s h 2 p = some m → 47900 < 40000 + 10 * m + lineTime (fld (s.nlkCfg h p) 27 24 - 1 + 1) →
    Ends (.downlinkDispatch h p true) s fun t => (t.port h p).down = none ∧ (t.port h p).downHarv = none ∧ Frame [.free, .ports h] s t) ∧
  (∀ (s : State) (h : Half) (p : Nat), p < 80 → (s.port h p).pstate = 4 → (s.port h p).svcFrom ≤ s.tick h → (s.hf h).twn.service = true → s.pstate ≠ 1 →
    Ends (.downlinkDispatch h p false) s fun t => (t.port h p).down = none ∧ (t.port h p).downHarv = none ∧ t.rb .tck h 8 22 = true ∧
        Frame (.regs .tck :: .tck h :: .ports h :: .twn h :: bothMbx) s t) ∧
  (∀ (s : State) (h : Half) (p : Nat) (b : Bool), (s.hf h).twn.service = false ∨ s.tick h < (s.port h p).svcFrom ∨ (s.port h p).pstate ≠ 4 ∨ s.pstate = 1 ∨ 80 ≤ p →
    exec (.downlinkDispatch h p b) s = .next s) ∧
  (∀ (s : State) (h : Half) (p : Nat) (m : List Nat) (l : List (List Nat)), 32 ≤ p → p < 80 → (look {} (s.port h p).rx 0x40).done = m :: l →
    numAt m 0 1 = (if bitAt (s.vcfg (p - 32) 0) 30 then 2 else 1) → 14 ≤ numAt m 2 2 → numAt m 2 2 ≤ 1518 → m.length = 8 + numAt m 2 2 →
    s.charge = some (other h) → s.twinUp h = true →
    Ends (.tunnelMessageReceived h p) s fun t => look {} t.veh (p - 32) = { look {} s.veh (p - 32) with kept := (look {} s.veh (p - 32)).kept ++ [m] } ∧
        (look {} (t.port h p).rx 0x40).done = l ∧ Frame [.veh, .ports h] s t) ∧
  (∀ (s : State) (h : Half) (p : Nat) (m : List Nat) (l : List (List Nat)), (look {} (s.port h p).rx 0x40).done = m :: l →
    s.charge ≠ some (other h) → 32 ≤ p → p < 80 → numAt m 0 1 = (if bitAt (s.vcfg (p - 32) 0) 30 then 2 else 1) → 14 ≤ numAt m 2 2 → numAt m 2 2 ≤ 1518 →
    m.length = 8 + numAt m 2 2 →
    Ends (.tunnelMessageReceived h p) s fun t => (look {} (t.port h p).rx 0x40).done = l ∧ Frame [.ports h] s t) ∧
  (∀ (s : State) (h : Half) (p : Nat) (m : List Nat) (l : List (List Nat)), (look {} (s.port h p).rx 0x40).done = m :: l →
    p < 32 ∨ 80 ≤ p ∨ numAt m 2 2 < 14 ∨ 1518 < numAt m 2 2 ∨ m.length ≠ 8 + numAt m 2 2 →
    Ends (.tunnelMessageReceived h p) s fun t => (look {} (t.port h p).rx 0x40).done = l ∧
        t.rg .nlk h (p * 0x40 + 0x2C) = BitVec.ofNat 32 (min 0xFFFFFFFF ((s.rg .nlk h (p * 0x40 + 0x2C)).toNat + 1)) ∧ Frame [.regs .nlk, .ports h] s t) ∧
  (∀ (s : State) (h : Half) (p : Nat), (look {} (s.port h p).rx 0x40).done = [] → exec (.tunnelMessageReceived h p) s = .next s) ∧
  (∀ (s : State) (h : Half) (b : Bool), Ends (.ingestMapExchange h b) s fun t => (t.hf h).twn.mapMine = ingestMap s h ∧
    (t.hf h).twn.mapOther = (if s.twinUp h && b then some (ingestMap s (other h)) else none) ∧ (t.hf h).cnp.solved.isSome = true ∧ t.free = s.free + 1 ∧
    (t.hf h).cnp.chgs = (s.hf h).cnp.chgs ∧ Frame [.free, .twn h, .cnp h] s t) ∧
  (∀ (s : State) (h : Half) (p : Nat), 3 ≤ look 0 (s.hf h).cnp.noComm p → p ∉ (s.hf h).cnp.lost →
    Ends (.uplinkAcceptanceLoss h p) s fun t => (t.hf h).cnp = { (s.hf h).cnp with lost := (s.hf h).cnp.lost ++ [p] } ∧ Frame [.cnp h] s t)

/-- A matrix change drains, opens, routes, closes, matches and ends; each timeout takes the way out of R300. (R52, R292, R294, R297, R299, R300, R306, R307)
Where the spec leaves a point open, the clauses follow the model's choice in log entries 30, 32. -/
def Obligations.MatrixChanges : Prop :=
  (∀ (s : State) (h : Half) (k : Nat) (ch : Change), s.chgOf h k = some ch → ch.st = 1 → 4 ≤ ch.cDrain → ch.opens = [] →
    Ends (.drainComplete h k) s fun t => (t.hf h).cnp.chgs = (s.hf h).cnp.chgs.map (fun d => if k ∈ d.outs then { ch with st := 3, ticks := 0 } else d) ∧
        (t.hf h).cnp.plans = (s.hf h).cnp.plans ++ [routePlan s h ch] ∧ (t.hf h).cnp.poleCmd = (s.hf h).cnp.poleCmd ∧ (∀ x ∈ (routePlan s h ch).blks, (t.blk x h).st = 1) ∧ Frame [.cnp h, .blocks] s t) ∧
  (∀ (s : State) (h : Half) (k n g i : Nat) (ch : Change), s.chgOf h k = some ch → ch.st = 1 → 4 ≤ ch.cDrain → ch.opens = [(n, g, i)] →
    Ends (.drainComplete h k) s fun t => (t.hf h).cnp.chgs = (s.hf h).cnp.chgs.map (fun d => if k ∈ d.outs then { ch with st := 2, ticks := 0 } else d) ∧
        look 0 (t.hf h).cnp.poleCmd n = look 0 (s.hf h).cnp.poleCmd n &&& (15 - 2 ^ g) ∧ (t.hf h).cnp.plans = (s.hf h).cnp.plans ∧ Frame [.cnp h] s t) ∧
  (∀ (s : State) (h : Half) (k : Nat) (ch : Change), s.chgOf h k = some ch → ch.st = 1 → ch.cDrain < 4 → 10 * s.rf .cnp h 0x4804 31 24 ≤ ch.ticks → ch.org = none →
    Ends (.drainTimeout h k) s fun t => (t.hf h).cnp.chgs = (s.hf h).cnp.chgs.filter (fun d => d.outs != ch.outs) ∧
        (∀ j ∈ ch.outs, (look {} (t.hf h).cnp.outs j).last = 2 ∧ (look {} (t.hf h).cnp.outs j).noRetry = s.tick h + 20000) ∧ Frame [.cnp h] s t) ∧
  (∀ (s : State) (h : Half) (k : Nat) (ch : Change), s.chgOf h k = some ch → ch.st = 2 → (∀ e ∈ ch.opens, s.poleFb h e.1 e.2.1 = false) →
    Ends (.polesOpened h k) s fun t => (t.hf h).cnp.chgs = (s.hf h).cnp.chgs.map (fun d => if k ∈ d.outs then { ch with st := 3, ticks := 0 } else d) ∧
        (t.hf h).cnp.plans = (s.hf h).cnp.plans ++ [routePlan s h ch] ∧ Frame [.cnp h, .blocks] s t) ∧
  (∀ (s : State) (h : Half) (k n g i : Nat) (ch : Change), s.chgOf h k = some ch → ch.st = 2 → ch.opens = [(n, g, i)] → g < 4 → s.poleFb h n g = true →
    10 * s.rf .cnp h 0x4804 23 16 ≤ ch.ticks →
    Ends (.poleOpenTimeout h k) s fun t => t.poleBad h n g = true ∧ (∃ c, c.st = 3 ∧ c.fail = 3 ∧ c.opens = [] ∧ (∀ e ∈ c.joins, e.2 ≠ i) ∧ (∀ e ∈ c.leaves, e.2 ≠ i) ∧
        (t.hf h).cnp.chgs = (s.hf h).cnp.chgs.map (fun d => if k ∈ d.outs then c else d)) ∧ (s.charge = some h → Raised t h 1 0x0701 ([k, 3] ++ le 2 n ++ [g])) ∧
        Frame (.regs .cnp :: .blocks :: .cnp h :: bothMbx) s t) ∧
  (∀ (s : State) (h : Half) (k : Nat) (ch : Change), s.chgOf h k = some ch → ch.st = 4 → (∀ e ∈ ch.closes, s.poleFb h e.1 e.2.1 = true) →
    Ends (.polesClosed h k) s fun t => (t.hf h).cnp.chgs = (s.hf h).cnp.chgs.map (fun d => if k ∈ d.outs then { ch with st := 5, ticks := 0, cMatch := 0 } else d) ∧
        Frame [.cnp h] s t) ∧
  (∀ (s : State) (h : Half) (k n g i : Nat) (ch : Change), s.chgOf h k = some ch → ch.st = 4 → ch.closes = [(n, g, i)] → g < 4 → s.poleFb h n g = false → ch.org = none →
    10 * s.rf .cnp h 0x4804 23 16 ≤ ch.ticks →
    Ends (.poleCloseTimeout h k) s fun t => t.poleBad h n g = true ∧ (t.hf h).cnp.chgs = (s.hf h).cnp.chgs.filter (fun d => d.outs != ch.outs) ∧
        (∀ j ∈ ch.outs, (look {} (t.hf h).cnp.outs j).last = 4) ∧ look 0 (t.hf h).cnp.poleCmd n = look 0 (s.hf h).cnp.poleCmd n &&& (15 - 2 ^ g) ∧
        Frame (.regs .cnp :: .blocks :: .cnp h :: bothMbx) s t) ∧
  (∀ (s : State) (h : Half) (k : Nat) (ch : Change), s.chgOf h k = some ch → ch.st = 5 → 4 ≤ ch.cMatch → ch.fail = 0 → ch.org = none →
    Ends (.matchPass h k) s fun t => (t.hf h).cnp.chgs = (s.hf h).cnp.chgs.filter (fun d => d.outs != ch.outs) ∧
        (∀ j ∈ ch.outs, (look {} (t.hf h).cnp.outs j).last = 1) ∧ Frame [.cnp h] s t) ∧
  (∀ (s : State) (h : Half) (k n g i : Nat) (ch : Change), s.chgOf h k = some ch → ch.st = 5 → ch.cMatch < 4 → 10 * s.rf .cnp h 0x4804 15 8 ≤ ch.ticks → ch.org = none →
    ch.closes = [(n, g, i)] → g < 4 → ch.joins = [(k, i)] → busMatches s h (k, i) = false →
    Ends (.matchTimeout h k) s fun t => t.poleBad h n g = true ∧ (t.hf h).cnp.chgs = (s.hf h).cnp.chgs.filter (fun d => d.outs != ch.outs) ∧
        (∀ j ∈ ch.outs, (look {} (t.hf h).cnp.outs j).last = 5) ∧ Frame (.regs .cnp :: .blocks :: .cnp h :: bothMbx) s t) ∧
  (∀ (s : State) (h : Half) (k : Nat), s.chgOf h k = none → exec (.drainComplete h k) s = .next s ∧ exec (.drainTimeout h k) s = .next s ∧ exec (.polesOpened h k) s = .next s ∧
    exec (.poleOpenTimeout h k) s = .next s ∧ exec (.polesClosed h k) s = .next s ∧ exec (.poleCloseTimeout h k) s = .next s ∧ exec (.matchPass h k) s = .next s ∧
    exec (.matchTimeout h k) s = .next s ∧ ∀ c, exec (.changeCabinetLost h k c) s = .next s) ∧
  (∀ (s : State) (h : Half) (k c i : Nat) (ch : Change), s.chgOf h k = some ch → s.cabLost h c = true → ch.st = 1 → ch.joins = [(k, i)] → i / 4 = c → ch.opens = [] →
    ch.closes = [] → ch.leaves = [] →
    Ends (.changeCabinetLost h k c) s fun t =>
        (t.hf h).cnp.chgs = (s.hf h).cnp.chgs.map (fun d => if k ∈ d.outs then { ch with joins := [], fail := 6 } else d) ∧ Frame (.blocks :: .cnp h :: bothMbx) s t) ∧
  (∀ (s : State) (h : Half) (n g : Nat), bitAt (s.ctr h n) 31 = true → s.poleFb h n g = false → (look 0 (s.hf h).cnp.poleCmd n).testBit g = true → g < 4 →
    4 * fld (s.ctr h n) 20 16 + g ∉ (s.hf h).cnp.brk → 4 * fld (s.ctr h n) 20 16 + g ∈ s.routesOf h (fld (s.ctr h n) 5 0) →
    (s.hf h).cnp.chgs.any (fun c => c.closes.any fun e => e.2.2 = 4 * fld (s.ctr h n) 20 16 + g) = false →
    Ends (.uncommandedPoleOpen h n g) s fun t => (t.hf h).cnp = { (s.hf h).cnp with brk := (s.hf h).cnp.brk ++ [4 * fld (s.ctr h n) 20 16 + g] } ∧
        Frame (.cnp h :: bothMbx) s t) ∧
  (∀ (s : State) (h : Half) (n g : Nat), s.poleFb h n g = true → exec (.uncommandedPoleOpen h n g) s = .next s) ∧
  (∀ (s : State) (h : Half) (a : Alloc) (n : Nat), (s.hf h).cnp.solved = some (a, n) →
    Ends (.allocationLatch h true) s fun t => (t.hf h).cnp.latched = a ∧ (t.hf h).cnp.solved = none ∧ t.rg .cnp h 0x6008 = BitVec.ofNat 32 n ∧
        Frame [.regs .cnp, .cnp h] s t) ∧
  (∀ (s : State) (h : Half), Ends (.allocationLatch h false) s fun t => (t.hf h).cnp = { (s.hf h).cnp with solved := none } ∧ t.rb .cnp h 0x6008 21 = true ∧
        Frame (.regs .tck :: .regs .cnp :: .tck h :: .twn h :: .cnp h :: bothMbx) s t)

/-- CNP_ASSIGN, CNP_UNPIN and CNP_POLE_CLEAR act in every half reached, and the planner runs in every 2,000th tick. (R298, R300, R308, R309, R521)
Where the spec leaves a point open, the clauses follow the model's choice in log entry 32. -/
def Obligations.MatrixVerbsAndPlanner : Prop :=
  (∀ (s : State) (o : Org) (k mask r : Nat) (x : Half), RunsAt s o 0x0701 x r → r ∈ [rInstaller, rVendor] → k < 48 →
    (s.hf x).saf.permOut.testBit k = true → (s.hf x).saf.stopOut.testBit k = false → s.chgOf x k = none → (s.hf x).cnp.plans = [] →
    (∀ g ∈ gidsOf mask, s.permits x (g / 4) k = true ∧ s.canReach x g k = true) →
    (∀ j < 48, j ≠ k → (s.routesOf x j).any (· ∈ gidsOf mask) = true → s.chgOf x j = none ∧ (look {} (s.hf x).cnp.outs j).pinned = false) →
    Ends (.cnpAssign o k mask) s fun t => AnsweredWith t o 0x0701 stPending false [] ∧
        (∀ y ∈ s.reach, ∃ p c, (t.hf y).cnp.plans = (s.hf y).cnp.plans ++ [p] ∧ p.start = some c ∧ k ∈ c.outs ∧ c.org = some o ∧ c.asg = some k ∧
          c.joins = ((gidsOf mask).filter (· ∉ s.routesOf x k)).map (fun g => (k, g))) ∧ Frame [.blocks, .cnp .A, .cnp .B, .mbx o.half] s t) ∧
  (∀ (s : State) (o : Org) (k mask r : Nat) (x : Half), RunsAt s o 0x0701 x r → r ∈ [rInstaller, rVendor] → 48 ≤ k →
    Ends (.cnpAssign o k mask) s fun t => AnsweredWith t o 0x0701 stRange true [] ∧ Frame [.mbx o.half] s t) ∧
  (∀ (s : State) (o : Org) (k mask r : Nat) (x : Half), RunsAt s o 0x0701 x r → r ∈ [rInstaller, rVendor] → k < 48 → (s.hf x).saf.stopOut.testBit k = true →
    Ends (.cnpAssign o k mask) s fun t => AnsweredWith t o 0x0701 stSafetyInhibit true [] ∧ Frame [.mbx o.half] s t) ∧
  (∀ (s : State) (o : Org) (k r : Nat) (x : Half) (ch : Change), RunsAt s o 0x0701 x r → r ∈ [rInstaller, rVendor] → k < 48 →
    (s.hf x).saf.permOut.testBit k = true → (s.hf x).saf.stopOut.testBit k = false → s.chgOf x k = some ch →
    Ends (.cnpAssign o k 0) s fun t => AnsweredWith t o 0x0701 0x0701 true [] ∧ Frame [.mbx o.half] s t) ∧
  (∀ (s : State) (o : Org) (k mask r : Nat) (x : Half), RunsAt s o 0x0701 x r → r ∉ [rInstaller, rVendor] →
    Ends (.cnpAssign o k mask) s fun t => AnsweredWith t o 0x0701 stRole true [] ∧ Frame [.mbx o.half] s t) ∧
  (∀ (s : State) (o : Org) (k r : Nat) (x : Half), RunsAt s o 0x0702 x r → r ∈ [rInstaller, rVendor] → k < 48 →
    Ends (.cnpUnpin o k) s fun t => AnsweredWith t o 0x0702 stOk true [] ∧ (∀ y ∈ s.reach, (look {} (t.hf y).cnp.outs k).pinned = false) ∧
        Frame [.cnp .A, .cnp .B, .mbx o.half] s t) ∧
  (∀ (s : State) (o : Org) (n mask r : Nat) (x : Half), RunsAt s o 0x0703 x r → r ∈ [rInstaller, rVendor] → n < 512 → mask < 16 →
    Ends (.cnpPoleClear o n mask) s fun t => AnsweredWith t o 0x0703 stPending false [] ∧ (∀ y ∈ s.reach, (n, mask) ∈ (t.hf y).cnp.clears) ∧
        Frame [.blocks, .cnp .A, .cnp .B, .mbx o.half] s t) ∧
  (∀ (s : State) (o : Org) (n mask r : Nat) (x : Half), RunsAt s o 0x0703 x r → r ∈ [rInstaller, rVendor] → 512 ≤ n ∨ 16 ≤ mask →
    Ends (.cnpPoleClear o n mask) s fun t => AnsweredWith t o 0x0703 stRange true [] ∧ Frame [.mbx o.half] s t) ∧
  (∀ (s : State) (h : Half), s.charge = some h → s.tick h % 2000 ≠ 0 → exec .plannerRun s = .next s) ∧
  (∀ (s : State) (h : Half) (m : List (Nat × List Nat)), s.charge = some h → s.tick h % 2000 = 0 → s.rb .cnp h 0x4800 31 = true →
    m = ((plannedOuts s h).map fun k => (k, sortGroups (Deal.of (planDeal s h (s.nodes h)) k))).filter (fun e => sortGroups (s.routesOf h e.1) != e.2) →
    m ≠ [] → m.any (retryBlocked s h) = false →
    Ends .plannerRun s fun t => (∀ y ∈ s.reach, ∃ p c, (t.hf y).cnp.plans = (s.hf y).cnp.plans ++ [p] ∧ p.start = some c ∧ c.outs = m.map (·.1) ∧ c.st = 1) ∧
        Frame [.blocks, .cnp .A, .cnp .B] s t)

/-- A port syncs, measures its delay, joins its remote and serves; loss of sync takes it down. (R74, R75, R87, R88, R89, R90, R91, R112, R113, R124, R126, R127)
Where the spec leaves a point open, the clauses follow the model's choice in log entries 7, 21, 111, 114. -/
def Obligations.PortStatesAndDelay : Prop :=
  (∀ (s : State) (h : Half) (p c : Nat), 3 ≤ c → (s.port h p).sync = false → s.portEn h p = true → (s.port h p).pstate = 0 →
    Ends (.lineSyncGained h p c) s fun t => t.port h p = { s.port h p with sync := true, syncTick := s.tick h, pstate := 1 } ∧
        Raised t h 1 0x0401 ([p, 0, 1, 1] ++ le 2 (s.port h p).delay) ∧ Frame (.ports h :: bothMbx) s t) ∧
  (∀ (s : State) (h : Half) (p c : Nat), 3 ≤ c → (s.port h p).sync = false → s.portEn h p = false ∨ (s.port h p).pstate ≠ 0 →
    Ends (.lineSyncGained h p c) s fun t => t.port h p = { s.port h p with sync := true, syncTick := s.tick h } ∧ Frame [.ports h] s t) ∧
  (∀ (s : State) (h : Half) (p c : Nat), c < 3 ∨ (s.port h p).sync = true → exec (.lineSyncGained h p c) s = .next s) ∧
  (∀ (s : State) (h : Half) (p cvs chars : Nat), 4 ≤ cvs ∨ 2500 ≤ chars → (s.port h p).sync = true → (s.port h p).pstate ≠ 0 →
    Ends (.lineSyncLost h p cvs chars) s fun t => t.port h p = { s.port h p with pstate := 0, sync := false, joinSent := none } ∧
        t.rg .nlk h (p * 0x40 + 0x14) = BitVec.ofNat 32 (min 0xFFFFFFFF ((s.rg .nlk h (p * 0x40 + 0x14)).toNat + 1)) ∧
        t.rg .nlk h (p * 0x40 + 0x10) = BitVec.ofNat 32 (min 0xFFFFFFFF ((s.rg .nlk h (p * 0x40 + 0x10)).toNat + cvs)) ∧
        ((t.rem p).side h).joined = false ∧ (t.rem p).side (other h) = (s.rem p).side (other h) ∧
        Raised t h 1 0x0401 ([p, (s.port h p).pstate, 0, 1] ++ le 2 (s.port h p).delay) ∧ Frame (.regs .nlk :: .ports h :: .rems :: bothMbx) s t) ∧
  (∀ (s : State) (h : Half) (p cvs chars : Nat), (cvs < 4 ∧ chars < 2500) ∨ (s.port h p).sync = false →
    Ends (.lineSyncLost h p cvs chars) s fun t =>
        t.rg .nlk h (p * 0x40 + 0x10) = BitVec.ofNat 32 (min 0xFFFFFFFF ((s.rg .nlk h (p * 0x40 + 0x10)).toNat + cvs)) ∧ Frame [.regs .nlk] s t) ∧
  (∀ (s : State) (h : Half) (p : Nat), (s.port h p).pstate = 1 → (s.port h p).sync = true → (s.port h p).syncTick + 8 ≤ s.tick h →
    Ends (.measureEntry h p) s fun t => t.port h p = { s.port h p with pstate := 2, samples := [], valid := false } ∧ Frame (.ports h :: bothMbx) s t) ∧
  (∀ (s : State) (h : Half) (p : Nat), s.tick h < (s.port h p).syncTick + 8 ∨ (s.port h p).pstate ≠ 1 → exec (.measureEntry h p) s = .next s) ∧
  (∀ (s : State) (h : Half) (p : Nat), (s.port h p).pstate ≠ 0 →
    Ends (.tickMarkerSend h p) s fun t => t.port h p =
        { s.port h p with tm := some ((50000 - (s.port h p).delay) / 40 * 40, ((50000 - (s.port h p).delay) % 40) / 4, (s.tick h + 1) % 65536) } ∧ Frame [.ports h] s t) ∧
  (∀ (s : State) (h : Half) (p : Nat), (s.port h p).pstate ≠ 0 → s.tick h % 16 = 0 ∨ (s.port h p).pstate = 2 →
    Ends (.dprSend h p) s fun t => t.port h p = { s.port h p with dprTick := some (s.tick h) } ∧ Frame [.ports h] s t) ∧
  (∀ (s : State) (h : Half) (p : Nat), s.tick h % 16 ≠ 0 → (s.port h p).pstate ≠ 2 → exec (.dprSend h p) s = .next s) ∧
  (∀ (s : State) (h : Half) (p rtt ta : Nat), (s.port h p).dprTick.isSome = true → rtt ≤ 25000 → (s.port h p).samples.length < 7 →
    Ends (.decReceived h p rtt ta) s fun t => t.port h p = { s.port h p with samples := (rtt - ta) :: (s.port h p).samples, dprTick := none } ∧ Frame [.ports h] s t) ∧
  (∀ (s : State) (h : Half) (p rtt ta : Nat) (l : List Nat), (s.port h p).dprTick.isSome = true → rtt ≤ 25000 → (s.port h p).pstate = 2 →
    l = ((rtt - ta) :: (s.port h p).samples).take 8 → l.length = 8 → delayTarget l ≤ 1000 →
    Ends (.decReceived h p rtt ta) s fun t =>
        t.port h p = { s.port h p with samples := l, target := delayTarget l, delay := delayTarget l, dprTick := none, valid := true, pstate := 3 } ∧
        Raised t h 1 0x0401 ([p, 2, 3, 0] ++ le 2 (delayTarget l)) ∧ Frame (.ports h :: bothMbx) s t) ∧
  (∀ (s : State) (h : Half) (p rtt ta : Nat) (l : List Nat), (s.port h p).dprTick.isSome = true → rtt ≤ 25000 → (s.port h p).pstate = 2 →
    l = ((rtt - ta) :: (s.port h p).samples).take 8 → l.length = 8 → 1000 < delayTarget l →
    Ends (.decReceived h p rtt ta) s fun t => (t.port h p).pstate = 5 ∧ Raised t h 1 0x0401 ([p, 2, 5, 2] ++ le 2 (delayTarget l)) ∧ Frame (.ports h :: bothMbx) s t) ∧
  (∀ (s : State) (h : Half) (p rtt ta : Nat) (l : List Nat), (s.port h p).dprTick.isSome = true → rtt ≤ 25000 → (s.port h p).pstate = 3 ∨ (s.port h p).pstate = 4 →
    l = ((rtt - ta) :: (s.port h p).samples).take 8 → l.length = 8 → 1000 < delayTarget l →
    Ends (.decReceived h p rtt ta) s fun t => (t.port h p).pstate = 5 ∧ (t.port h p).delay = (s.port h p).delay ∧
        Raised t h 1 0x0401 ([p, (s.port h p).pstate, 5, 2] ++ le 2 (s.port h p).delay) ∧ Frame (.ports h :: bothMbx) s t) ∧
  (∀ (s : State) (h : Half) (p rtt ta : Nat), 25000 < rtt ∨ (s.port h p).dprTick = none → exec (.decReceived h p rtt ta) s = .next s) ∧
  (∀ (s : State) (h : Half) (p : Nat), (s.port h p).valid = true → (s.port h p).pstate ≠ 2 → (s.port h p).slewTick ≠ some (s.tick h) → (s.port h p).delay < (s.port h p).target →
    Ends (.delaySlew h p) s fun t => t.port h p = { s.port h p with delay := min (s.port h p).target ((s.port h p).delay + 4), slewTick := some (s.tick h) } ∧ Frame [.ports h] s t) ∧
  (∀ (s : State) (h : Half) (p : Nat), (s.port h p).valid = true → (s.port h p).pstate ≠ 2 → (s.port h p).slewTick ≠ some (s.tick h) → (s.port h p).target ≤ (s.port h p).delay →
    Ends (.delaySlew h p) s fun t => t.port h p = { s.port h p with delay := max (s.port h p).target ((s.port h p).delay - 4), slewTick := some (s.tick h) } ∧ Frame [.ports h] s t) ∧
  (∀ (s : State) (h : Half) (p : Nat), (s.port h p).slewTick = some (s.tick h) ∨ (s.port h p).valid = false → exec (.delaySlew h p) s = .next s) ∧
  (∀ (s : State) (h : Half) (p : Nat) (f : RxFrame) (b m : List Nat), p < 80 → (s.port h p).pstate = 3 → asyncHead p [0x43] (· - 16) f = .ok b → s.asyncTag h p b = true →
    m = segData b → numAt m 0 1 = 1 → 16 ≤ m.length → numAt m 1 1 = fld (s.nlkCfg h p) 29 28 →
    s.rg .nlk h (p * 0x40 + 4) = 0 ∨ (s.rg .nlk h (p * 0x40 + 4)).toNat = numAt m 4 4 → (s.port h p).joinSent = none →
    Ends (.helloReceived h p f) s fun t => (t.port h p).joinSent = some (s.nextMsg h p 0x43) ∧ (t.port h p).pstate = 3 ∧
        (t.port h p).fwver = numAt m 8 4 ∧ (t.port h p).caps = numAt m 12 4 ∧
        (∃ x ∈ (look {} (t.port h p).tx 0x43).msgs, x.id = s.nextMsg h p 0x43 ∧ x.bytes = joinMsg s h p) ∧ Frame [.regs .nlk, .ports h] s t) ∧
  (∀ (s : State) (h : Half) (p : Nat) (f : RxFrame) (b m : List Nat), p < 80 → (s.port h p).pstate = 3 → asyncHead p [0x43] (· - 16) f = .ok b →
    s.asyncTag h p b = true ∨ s.portAuth h p = true → m = segData b → numAt m 0 1 = 1 → 16 ≤ m.length →
    numAt m 1 1 ≠ fld (s.nlkCfg h p) 29 28 ∨ (s.rg .nlk h (p * 0x40 + 4) ≠ 0 ∧ (s.rg .nlk h (p * 0x40 + 4)).toNat ≠ numAt m 4 4) →
    Ends (.helloReceived h p f) s fun t => (t.port h p).pstate = 5 ∧ Raised t h 1 0x0401 ([p, 3, 5, 3] ++ le 2 (s.port h p).delay) ∧
        Frame (.regs .nlk :: .ports h :: bothMbx) s t) ∧
  (∀ (s : State) (h : Half) (p : Nat) (f : RxFrame) (b m : List Nat), p < 80 → (s.port h p).pstate = 3 → asyncHead p [0x43] (· - 16) f = .ok b → s.asyncTag h p b = false →
    s.portAuth h p = true → m = segData b → numAt m 0 1 = 1 → 16 ≤ m.length → numAt m 1 1 = fld (s.nlkCfg h p) 29 28 →
    s.rg .nlk h (p * 0x40 + 4) = 0 ∨ (s.rg .nlk h (p * 0x40 + 4)).toNat = numAt m 4 4 →
    Ends (.helloReceived h p f) s fun t => (t.port h p).pstate = 5 ∧ Raised t h 1 0x0401 ([p, 3, 5, 4] ++ le 2 (s.port h p).delay) ∧
        t.rg .nlk h (p * 0x40 + 0x20) = BitVec.ofNat 32 (min 0xFFFFFFFF ((s.rg .nlk h (p * 0x40 + 0x20)).toNat + 1)) ∧ Frame (.regs .nlk :: .ports h :: bothMbx) s t) ∧
  (∀ (s : State) (h : Half) (p : Nat) (f : RxFrame), p < 80 → (s.port h p).pstate ≠ 0 → (s.port h p).pstate ≠ 3 →
    Ends (.helloReceived h p f) s fun t => (t.port h p).pstate = (s.port h p).pstate ∧ (t.port h p).joinSent = (s.port h p).joinSent ∧
        (t.port h p).tx = (s.port h p).tx ∧ Frame [.regs .nlk, .ports h] s t) ∧
  (∀ (s : State) (h : Half) (p : Nat) (f : RxFrame), 80 ≤ p ∨ (s.port h p).pstate = 0 → exec (.helloReceived h p f) s = .next s) ∧
  (∀ (s : State) (h : Half) (p id : Nat), (s.port h p).pstate = 3 → (s.port h p).joinSent = some id → id ∈ (look {} (s.port h p).tx 0x43).acked → (s.port h p).delay ≤ 1000 →
    (s.rem p).port = none ∨ (s.rem p).port = some p →
    Ends (.joinAcknowledged h p) s fun t => t.port h p = { s.port h p with pstate := 4, joinSent := none, svcFrom := s.tick h + 1 } ∧
        ((t.rem p).side h).joined = true ∧ ((t.rem p).side h).authReq = s.portAuth h p ∧ ((t.rem p).side h).upBlks = fld (s.nlkCfg h p) 23 20 ∧
        (t.rem p).port = some p ∧ (t.rem p).tick = s.tick h ∧ (t.rem p).tickKnown = true ∧
        Raised t h 1 0x0401 ([p, 3, 4, 0] ++ le 2 (s.port h p).delay) ∧ Frame (.ports h :: .rems :: .cabs :: bothMbx) s t) ∧
  (∀ (s : State) (h : Half) (p : Nat), (s.port h p).joinSent = none ∨ (s.port h p).pstate ≠ 3 → exec (.joinAcknowledged h p) s = .next s)

/-- Asynchronous messages go out in segments, are acknowledged, resent and at last abandoned. (R95, R99, R112, R114, R115, R116, R117, R120, R127)
Where the spec leaves a point open, the clauses follow the model's choice in log entries 21, 112. -/
def Obligations.AsyncChannels : Prop :=
  (∀ (s : State) (h : Half) (p ty : Nat) (f : RxFrame) (b : List Nat) (x : AsyncRx), p < 80 → (s.port h p).pstate = 4 → asyncHead p (upAsync p) (· - 16) f = .ok b →
    s.asyncTag h p b = true → ty = numAt b 0 1 → x = look {} (s.port h p).rx ty → x.id = some (numAt b 8 2) →
    Ends (.asyncSegmentReceived h p f) s fun t => (look {} (t.port h p).rx ty).id = some (numAt b 8 2) ∧
        (look {} (t.port h p).rx ty).segs = put [] x.segs (numAt b 10 2) (segData b) ∧
        (look {} (t.port h p).rx ty).last = (if (numAt b 14 1).testBit 1 then some (numAt b 10 2) else x.last) ∧ Frame [.regs .nlk, .ports h] s t) ∧
  (∀ (s : State) (h : Half) (p ty : Nat) (f : RxFrame) (b : List Nat) (x : AsyncRx), p < 80 → (s.port h p).pstate = 4 → asyncHead p (upAsync p) (· - 16) f = .ok b →
    s.asyncTag h p b = true → ty = numAt b 0 1 → x = look {} (s.port h p).rx ty → x.id ≠ some (numAt b 8 2) →
    Ends (.asyncSegmentReceived h p f) s fun t => (look {} (t.port h p).rx ty).id = some (numAt b 8 2) ∧
        (look {} (t.port h p).rx ty).segs = put [] [] (numAt b 10 2) (segData b) ∧
        (look {} (t.port h p).rx ty).last = (if (numAt b 14 1).testBit 1 then some (numAt b 10 2) else none) ∧
        t.rg .nlk h (p * 0x40 + 0x2C) = BitVec.ofNat 32 (min 0xFFFFFFFF ((s.rg .nlk h (p * 0x40 + 0x2C)).toNat + b2n (x.id.isSome && !x.whole))) ∧
        (numAt b 10 2 = 0 → (numAt b 14 1).testBit 1 = true → segData b ≠ [] → (segData b).length ≤ 65535 →
          (look {} (t.port h p).rx ty).done = x.done ++ [segData b]) ∧ Frame [.regs .nlk, .ports h] s t) ∧
  (∀ (s : State) (h : Half) (p off : Nat) (f : RxFrame), p < 80 → (s.port h p).pstate = 4 → asyncHead p (upAsync p) (· - 16) f = .error off →
    Ends (.asyncSegmentReceived h p f) s fun t => t.rg .nlk h (p * 0x40 + off) = BitVec.ofNat 32 (min 0xFFFFFFFF ((s.rg .nlk h (p * 0x40 + off)).toNat + 1)) ∧
        Frame [.regs .nlk] s t) ∧
  (∀ (s : State) (h : Half) (p : Nat) (f : RxFrame) (b : List Nat), p < 80 → (s.port h p).pstate = 4 → asyncHead p (upAsync p) (· - 16) f = .ok b → s.asyncTag h p b = false →
    Ends (.asyncSegmentReceived h p f) s fun t => t.rg .nlk h (p * 0x40 + 0x20) = BitVec.ofNat 32 (min 0xFFFFFFFF ((s.rg .nlk h (p * 0x40 + 0x20)).toNat + 1)) ∧
        (look {} (t.port h p).rx (numAt b 0 1)).segs = (look {} (s.port h p).rx (numAt b 0 1)).segs ∧ Frame [.regs .nlk, .ports h] s t) ∧
  (∀ (s : State) (h : Half) (p : Nat) (f : RxFrame), (s.port h p).pstate ≠ 4 ∨ 80 ≤ p → exec (.asyncSegmentReceived h p f) s = .next s) ∧
  (∀ (s : State) (h : Half) (p ty m : Nat) (x : AsyncRx), x = look {} (s.port h p).rx ty → x.id = some m → x.ackDue.isSome = true → x.ackTick ≠ some (s.tick h) →
    Ends (.asyncAckSend h p ty) s fun t => (∃ n, look {} (t.port h p).rx ty = { x with ackDue := none, ackTick := some (s.tick h), ackOut := some (m, n, rxMap x.segs n) } ∧
        x.segs.all (fun e => e.1 ≠ n) = true) ∧ Frame [.ports h] s t) ∧
  (∀ (s : State) (h : Half) (p ty : Nat), (look {} (s.port h p).rx ty).ackTick = some (s.tick h) → exec (.asyncAckSend h p ty) s = .next s) ∧
  (∀ (s : State) (h : Half) (p ty : Nat) (f : RxFrame) (b : List Nat) (m : AsyncMsg) (l : List AsyncMsg), p < 80 → (s.port h p).pstate = 3 ∨ (s.port h p).pstate = 4 →
    asyncHead p [0x4F] (· - 16) f = .ok b → s.asyncTag h p b = true → ty = numAt (b.drop 16) 0 1 → (look {} (s.port h p).tx ty).msgs = m :: l →
    m.id = numAt (b.drop 16) 2 2 → m.nsegs ≤ numAt (b.drop 16) 4 2 →
    Ends (.asyncAckReceived h p f) s fun t => (look {} (t.port h p).tx ty).msgs = l ∧ m.id ∈ (look {} (t.port h p).tx ty).acked ∧ Frame [.regs .nlk, .ports h] s t) ∧
  (∀ (s : State) (h : Half) (p : Nat) (f : RxFrame), 80 ≤ p ∨ ((s.port h p).pstate ≠ 3 ∧ (s.port h p).pstate ≠ 4) → exec (.asyncAckReceived h p f) s = .next s) ∧
  (∀ (s : State) (h : Half) (p ty g : Nat) (m : AsyncMsg) (l : List AsyncMsg) (e : Nat × Nat × Nat), (look {} (s.port h p).tx ty).msgs = m :: l →
    m.out.find? (fun e => e.1 = g) = some e → e.2.1 + 40 ≤ s.tick h → g ∉ m.again → e.2.2 < 8 →
    Ends (.segmentResendTimeout h p ty g) s fun t =>
        (look {} (t.port h p).tx ty).msgs = { m with again := m.again ++ [g] } :: l ∧ Frame [.ports h] s t) ∧
  (∀ (s : State) (h : Half) (p ty g : Nat) (m : AsyncMsg) (l : List AsyncMsg) (e : Nat × Nat × Nat), (look {} (s.port h p).tx ty).msgs = m :: l →
    m.out.find? (fun e => e.1 = g) = some e → e.2.1 + 40 ≤ s.tick h → g ∉ m.again → 8 ≤ e.2.2 →
    Ends (.segmentResendTimeout h p ty g) s fun t => (look {} (t.port h p).tx ty).msgs = l ∧
        t.rg .nlk h (p * 0x40 + 0x2C) = BitVec.ofNat 32 (min 0xFFFFFFFF ((s.rg .nlk h (p * 0x40 + 0x2C)).toNat + 1)) ∧ Frame [.regs .nlk, .ports h] s t) ∧
  (∀ (s : State) (h : Half) (p ty g : Nat), (look {} (s.port h p).tx ty).msgs = [] → exec (.segmentResendTimeout h p ty g) s = .next s) ∧
  (∀ (s : State) (h : Half) (p room : Nat) (x : Nat × (Nat × Nat × Nat)) (l : List (Nat × (Nat × Nat × Nat))), p < 80 → (s.port h p).pstate = 4 → s.pstate ≠ 1 →
    (s.hf h).twn.pertActive = false → (s.hf h).thm.step = 0 → 2 ≤ room →
    (s.port h p).rx.filterMap (fun e => e.2.ackOut.map fun a => (e.1, a)) = x :: l →
    Ends (.asyncFrameSend h p room) s fun t => (look {} (t.port h p).rx x.1).ackOut = none ∧ (∀ ty, ty ≠ 0x4F → look {} (t.port h p).tx ty = look {} (s.port h p).tx ty) ∧
        (∃ fr, (t.port h p).asy = some fr ∧ fr.bytes.take 1 = [0x4F] ∧ (fr.bytes.drop 16).take 12 = ackBytes x.1 x.2) ∧ Frame [.free, .ports h] s t) ∧
  (∀ (s : State) (h : Half) (p room : Nat) (m : AsyncMsg) (l : List AsyncMsg), p < 80 → (s.port h p).pstate = 4 → s.pstate ≠ 1 → (s.hf h).twn.pertActive = false →
    (s.hf h).thm.step = 0 → (s.port h p).rx.filterMap (fun e => e.2.ackOut.map fun a => (e.1, a)) = [] → (look {} (s.port h p).tx 0x43).msgs = m :: l →
    m.again = [] → m.sent < m.nsegs → m.sent < m.next + 32 → 16 ≤ room →
    segBlocks (min (segSize s h p) (m.bytes.length - m.sent * segSize s h p)) (s.portAuth h p) ≤ 16 →
    Ends (.asyncFrameSend h p room) s fun t =>
        (look {} (t.port h p).tx 0x43).msgs = { m with sent := m.sent + 1, out := m.out ++ [(m.sent, s.tick h, 0)] } :: l ∧
        (∃ fr, (t.port h p).asy = some fr ∧ fr.bytes.take 1 = [0x43] ∧ fr.tagged = s.portAuth h p ∧
          fr.iv = ivFor false h (s.tick h) p 0x43 (if (s.port h p).ordTick = s.tick h then look 0 (s.port h p).ords 0x43 else 0)) ∧ Frame [.free, .ports h, .rems, .cabs] s t) ∧
  (∀ (s : State) (h : Half) (p room g : Nat) (m : AsyncMsg) (l : List AsyncMsg) (k : List Nat), p < 80 → (s.port h p).pstate = 4 → s.pstate ≠ 1 →
    (s.hf h).twn.pertActive = false → (s.hf h).thm.step = 0 → (s.port h p).rx.filterMap (fun e => e.2.ackOut.map fun a => (e.1, a)) = [] →
    (look {} (s.port h p).tx 0x43).msgs = m :: l → m.again = g :: k → g < m.sent → 16 ≤ room →
    segBlocks (min (segSize s h p) (m.bytes.length - g * segSize s h p)) (s.portAuth h p) ≤ 16 →
    Ends (.asyncFrameSend h p room) s fun t =>
        (look {} (t.port h p).tx 0x43).msgs =
          { m with out := m.out.map fun o => if o.1 = g then (g, s.tick h, o.2.2 + 1) else o, again := m.again.filter (· ≠ g) } :: l ∧ Frame [.free, .ports h] s t) ∧
  (∀ (s : State) (h : Half) (p room : Nat), ((s.port h p).pstate ≠ 4 ∧ (s.port h p).pstate ≠ 3) ∨ s.pstate = 1 ∨ 80 ≤ p → exec (.asyncFrameSend h p room) s = .next s) ∧
  (∀ (s : State) (h : Half) (p : Nat) (m : List Nat) (l : List (List Nat)), (look {} (s.port h p).rx 0x42).done = m :: l →
    Ends (.bulkLogReceived h p) s fun t => look [] (t.hf h).bulk p = look [] (s.hf h).bulk p ++ [m] ∧ (look {} (t.port h p).rx 0x42).done = l ∧
        (t.hf (other h)).bulk = (s.hf (other h)).bulk ∧ Frame [.bulk h, .ports h] s t) ∧
  (∀ (s : State) (h : Half) (p : Nat), (look {} (s.port h p).rx 0x42).done = [] → exec (.bulkLogReceived h p) s = .next s) ∧
  (∀ (s : State) (h : Half), s.tick h % 20000 = 0 → (s.hf h).tck.step = none →
    Ends (.timeMessageSend h) s fun t => (∀ p < 80, (s.port h p).pstate = 4 → ∃ m ∈ (look {} (t.port h p).tx 0x43).msgs, m.bytes = timeMsg 0 0) ∧ Frame [.ports h] s t) ∧
  (∀ (s : State) (h : Half) (r : StepReq), (s.hf h).tck.step = some r → r.edge ≠ 0 → s.tick h + 100 ≤ r.edge →
    Ends (.timeMessageSend h) s fun t => (∀ p < 80, (s.port h p).pstate = 4 →
        ∃ m ∈ (look {} (t.port h p).tx 0x43).msgs, m.bytes = timeMsg r.edge ((r.edge : Int) + r.ticks).toNat) ∧ Frame [.ports h] s t) ∧
  (∀ (s : State) (h : Half), s.tick h % 20000 ≠ 0 → (s.hf h).tck.step = none → exec (.timeMessageSend h) s = .next s)

/-- A remote takes the frame of the highest claim, applies it at its edge, and loses its link after 3 missed ticks. (R51, R92, R103, R104, R105, R106, R108, R109, R110, R113, R114)
Where the spec leaves a point open, the clauses follow the model's choice in log entries 21, 113. -/
def Obligations.RemoteSelection : Prop :=
  (∀ (s : State) (p : Nat) (d : Half) (f : RxFrame), goodDown (s.rem p) p d f = none → exec (.remoteDownlinkTickFrame p d f) s = .next s) ∧
  (∀ (s : State) (p ty : Nat) (d : Half) (f : RxFrame) (g : RFrame), goodDown (s.rem p) p d f = some (ty, g) → ty ≠ 0x15 → (s.rem p).firstMain = none →
    (∀ c, (s.rem p).cif = some c → c ≤ g.claim) →
    Ends (.remoteDownlinkTickFrame p d f) s fun t => (t.rem p).firstMain = some g ∧ (t.rem p).cif = some g.claim ∧ (t.rem p).applied = (s.rem p).applied ∧ Frame [.rems] s t) ∧
  (∀ (s : State) (p ty c : Nat) (d : Half) (f : RxFrame) (g : RFrame), goodDown (s.rem p) p d f = some (ty, g) → ty ≠ 0x15 → (s.rem p).firstMain = none →
    (s.rem p).spareMain = none → (s.rem p).cif = some c → g.claim < c →
    Ends (.remoteDownlinkTickFrame p d f) s fun t => (t.rem p).firstMain = none ∧ (t.rem p).spareMain = some g ∧ (t.rem p).cif = some c ∧ Frame [.rems] s t) ∧
  (∀ (s : State) (p : Nat), (s.rem p).firstMain = none → (s.rem p).firstHarv.isSome = true →
    Ends (.remoteSelection49us p) s fun t => t.rem p = { s.rem p with firstMain := (s.rem p).spareMain } ∧ Frame [.rems] s t) ∧
  (∀ (s : State) (p b : Nat) (v : Int) (f : RFrame), (s.rem p).firstMain = some f → (s.rem p).linkLost = false →
    Ends (.remoteTickEdge p b v) s fun t => (t.rem p).applied = f.bytes ∧ (t.rem p).missed = 0 ∧ (t.rem p).linkLost = false ∧ (t.rem p).firstMain = none ∧
        (t.rem p).upLost = false ∧ (t.rem p).upValid = (t.rem p).cif.isSome ∧ (t.rem p).upClaim = (t.rem p).cif.getD 0 ∧ Frame [.free, .rems] s t) ∧
  (∀ (s : State) (p b : Nat) (v : Int), (s.rem p).firstMain = none → (s.rem p).linkLost = false → (s.rem p).missed = 2 →
    Ends (.remoteTickEdge p b v) s fun t => (t.rem p).linkLost = true ∧ (t.rem p).zeroCur = true ∧ (t.rem p).applied = (s.rem p).applied ∧ (t.rem p).upLost = true ∧
        Frame [.free, .rems] s t) ∧
  (∀ (s : State) (p b : Nat) (v : Int), (s.rem p).stepEdge = 0 → Ends (.remoteTickEdge p b v) s fun t => (t.rem p).tick = (s.rem p).tick + 1 ∧ Frame [.free, .rems] s t) ∧
  (∀ (s : State) (p q : Nat), (s.rem p).cif = none → q ≠ ((s.rem p).tick + 1) % 65536 →
    Ends (.remoteTickMarker p (some q) none) s fun t => t.rem p = { s.rem p with tickKnown := false } ∧ Frame [.rems] s t) ∧
  (∀ (s : State) (p : Nat), exec (.remoteTickMarker p none none) s = .next s) ∧
  (∀ (s : State) (p : Nat), (s.rem p).linkLost = true → 500 ≤ (s.rem p).sinceL → (s.rem p).contactors ≠ 0 →
    Ends (.linkLostForceOpen p) s fun t => t.rem p = { s.rem p with contactors := 0, breakLoad := (s.rem p).breakLoad + 1 } ∧ Frame [.rems] s t) ∧
  (∀ (s : State) (p : Nat), (s.rem p).linkLost = false ∨ (s.rem p).sinceL < 500 ∨ (s.rem p).contactors = 0 → exec (.linkLostForceOpen p) s = .next s) ∧
  (∀ (s : State) (p : Nat) (d : Half), ((s.rem p).side d).joined = false → ((s.rem p).side d).helloTick = none → s.portEn d p = true →
    Ends (.remoteHelloSend p d) s fun t => (t.rem p).side d = { (s.rem p).side d with helloTick := some (s.rem p).tick, hello := helloMsg p } ∧
        (t.rem p).side (other d) = (s.rem p).side (other d) ∧ Frame [.rems] s t) ∧
  (∀ (s : State) (p : Nat) (d : Half), ((s.rem p).side d).joined = true ∨ s.portEn d p = false → exec (.remoteHelloSend p d) s = .next s) ∧
  (∀ (s : State) (p : Nat), Ends (.remotePowerUpOrReset p) s fun t => t.rem p = { link := (s.rem p).link } ∧ (t.rem p).linkLost = true ∧ (t.rem p).cif = none ∧ (t.rem p).contactors = 0 ∧
    (∀ q, q ≠ p → t.rem q = s.rem q) ∧ Frame [.rems, .cabs] s t)

/-- A reset half keeps what its flash and the island keep; a thermal stop powers both halves down and records it. (R132, R154, R157, R330, R331, R332, R340, R341, R511, R642)
Where the spec leaves a point open, the clauses follow the model's choice in log entries 60, 80. -/
def Obligations.HalfResetsAndThermalStop : Prop :=
  (∀ (s : State) (h : Half), Ends (.halfReset h) s fun t => t.hf h = freshHalf h (s.hf h) ∧ (t.hf h).twn.unhealthy = true ∧
    (t.hf h).twn.cause = (if (s.hf h).twn.held then 0x8B else 0x8A) ∧ (t.hf h).twn.claim = baseClaim h ∧ (t.hf h).pts = flashPoints (s.hf h) ∧ (∀ b ∈ halfBlks, ∀ off, t.rg b h off = resetWord b h off) ∧ t.ref.token ≠ some h ∧
    (t.hf (other h)).tck = (s.hf (other h)).tck ∧ (t.hf (other h)).pts = (s.hf (other h)).pts ∧ (t.hf (other h)).cln = (s.hf (other h)).cln ∧
    Frame (allRegs ++ halfParts .A ++ halfParts .B ++ [.free, .shadow, .blocks, .ref, .ho, .veh, .vehG, .lkt, .upd]) s t) ∧
  (∀ (s : State) (h : Half) (d : Nat), (s.hf h).twn.resetDue = some d → d ≤ s.tick h → (s.hf h).twn.unhealthy = true →
    (s.hf h).twn.uhTimes.length < 3 →
    Ends (.unhealthyResetTimeout h) s fun t => t.hf h = freshHalf h (s.hf h) ∧ (t.hf h).twn.held = (s.hf h).twn.held ∧
        Frame (allRegs ++ halfParts .A ++ halfParts .B ++ [.free, .shadow, .blocks, .ref, .ho, .veh, .vehG, .lkt, .upd]) s t) ∧
  (∀ (s : State) (h : Half) (d : Nat), (s.hf h).twn.resetDue = some d → d ≤ s.tick h → (s.hf h).twn.unhealthy = true →
    3 ≤ (s.hf h).twn.uhTimes.length →
    Ends (.unhealthyResetTimeout h) s fun t => (t.hf h).twn.held = true ∧ (t.hf h).twn.cause = 0x8B ∧ (t.hf h).twn.service = false ∧
        Frame (allRegs ++ halfParts .A ++ halfParts .B ++ [.free, .shadow, .blocks, .ref, .ho, .veh, .vehG, .lkt, .upd]) s t) ∧
  (∀ (s : State) (h : Half), (s.hf h).twn.resetDue = none ∨ (s.hf h).twn.unhealthy = false → exec (.unhealthyResetTimeout h) s = .next s) ∧
  (∀ (s : State) (o : Org) (n r : Nat) (x h : Half), RunsAt s o 0x0302 x r → r ∈ [rInstaller, rVendor] → halfOf n = some h → (s.hf h).twn.held = true →
    Ends (.twnRelease o n) s fun t => (t.hf h).twn = { (s.hf h).twn with held := false, off := false, uhTimes := [], cause := 0x8A } ∧
        AnsweredWith t o 0x0302 stOk true [] ∧ Frame [.twn h, .mbx o.half] s t) ∧
  (∀ (s : State) (o : Org) (n r : Nat) (x h : Half), RunsAt s o 0x0302 x r → r ∈ [rInstaller, rVendor] → halfOf n = some h → (s.hf h).twn.held = false →
    Ends (.twnRelease o n) s fun t => AnsweredWith t o 0x0302 stRange true [] ∧ Frame [.mbx o.half] s t) ∧
  (∀ (s : State) (pk : Int) (t0 : Nat) (h : Half), s.therm.stop = some (t0, h) → t0 + 500 ≤ s.now →
    Ends (.thermalPowerDown pk) s fun t => (∀ k, (t.hf k).twn.off = true ∧ (t.hf k).twn.booted = false ∧ (t.hf k).twn.service = false ∧ (t.hf k).twn.acting = false) ∧
        t.therm.stop = none ∧ t.therm.count = (s.therm.count + 1) % 2 ^ 32 ∧ (t.therm.recs.getLast?.map (·.cause)) = some 1 ∧ t.therm.down = true ∧ t.ref.token = none ∧ t.veh = [] ∧
        Frame (allRegs ++ halfParts .A ++ halfParts .B ++ [.free, .shadow, .blocks, .ref, .ho, .veh, .vehG, .therm, .lkt, .upd]) s t) ∧
  (∀ (s : State) (pk : Int), s.therm.stop = none → exec (.thermalPowerDown pk) s = .next s) ∧
  (∀ (s : State) (pk : Int), 13000 ≤ s.halfA.thm.tj →
    Ends (.thermalEmergencyPowerDown pk) s fun t => (∀ k, (t.hf k).twn.off = true ∧ (t.hf k).twn.service = false) ∧ t.therm.stop = none ∧
        (t.therm.recs.getLast?.map fun r => (r.cause, r.half)) = some (2, 0) ∧
        Frame (allRegs ++ halfParts .A ++ halfParts .B ++ [.free, .shadow, .blocks, .ref, .ho, .veh, .vehG, .therm, .lkt, .upd]) s t) ∧
  (∀ (s : State) (pk : Int) (t0 : Nat) (h d : Half), s.halfA.thm.tj < 13000 → s.halfB.thm.tj < 13000 → s.therm.stop = some (t0, h) → s.therm.doer = some d → s.charge ≠ some d →
    Ends (.thermalEmergencyPowerDown pk) s fun t => (∀ k, (t.hf k).twn.off = true ∧ (t.hf k).twn.service = false) ∧ t.therm.stop = none ∧
        (t.therm.recs.getLast?.map fun r => (r.cause, r.half)) = some (3, hbit h) ∧
        Frame (allRegs ++ halfParts .A ++ halfParts .B ++ [.free, .shadow, .blocks, .ref, .ho, .veh, .vehG, .therm, .lkt, .upd]) s t) ∧
  (∀ (s : State) (pk : Int), s.halfA.thm.tj < 13000 → s.halfB.thm.tj < 13000 → s.therm.stop = none ∨ s.therm.doer = none ∨ s.charge = s.therm.doer →
    exec (.thermalEmergencyPowerDown pk) s = .next s) ∧
  (∀ (s : State) (pk : Int), s.therm.release = false → 9500 ≤ pk ∨ s.therm.down = false → Ends (.thermalRestart pk) s fun t => t = { s with therm := { s.therm with pkg := pk } }) ∧
  (∀ (s : State) (pk : Int) (r : ShutRec), pk < 9500 → s.therm.release = false → s.therm.down = true → s.therm.recs.getLast? = some r → s.halfA.twn.held = false → s.halfB.twn.held = false →
    Ends (.thermalRestart pk) s fun t => (∀ k, (t.hf k).twn.off = false ∧ (t.hf k).twn.cause = 0x8A ∧ (t.hf k).thm.hold = decide (3 < r.inHour)) ∧
        t.cans = [] ∧ t.therm = { s.therm with pkg := pk, down := false } ∧
        Frame (allRegs ++ halfParts .A ++ halfParts .B ++ [.free, .shadow, .blocks, .ref, .ho, .veh, .vehG, .pll, .therm, .lkt, .cans, .lsw, .mesh, .upd]) s t) ∧
  (∀ (s : State) (o : Org) (r : Nat), RunsHere s o 0x0801 r → r ∈ [rOperator, rInstaller, rVendor] → (s.hf o.half).thm.hold = true → s.therm.pkg < 9500 →
    Ends (.thmRelease o) s fun t => t.therm = { s.therm with release := true } ∧ AnsweredWith t o 0x0801 stOk true [] ∧ Frame [.therm, .mbx o.half] s t) ∧
  (∀ (s : State) (o : Org) (x : Half) (r : Nat), RunsAt s o 0x0801 x r → r ∈ [rOperator, rInstaller, rVendor] → (s.hf o.half).thm.hold = false → (s.hf x).thm.hold = false →
    Ends (.thmRelease o) s fun t => AnsweredWith t o 0x0801 0x0801 true [] ∧ Frame [.mbx o.half] s t) ∧
  (∀ (s : State) (o : Org) (x : Half) (r f n : Nat), RunsAt s o 0x0802 x r → (classRd 5).testBit r = true → r < 6 → (s.hf o.half).thm.hold = false → f ≤ 15 → 1 ≤ n → n ≤ 16 →
    Room s o (((s.therm.recs.reverse.drop f).take n).flatMap ShutRec.bytes).length →
    Ends (.thmShutdownRead o f n) s fun t => AnsweredWith t o 0x0802 stOk true (((s.therm.recs.reverse.drop f).take n).flatMap ShutRec.bytes) ∧ Frame [.mbx o.half] s t) ∧
  (∀ (s : State) (o : Org) (x : Half) (r f n : Nat), RunsAt s o 0x0802 x r → (classRd 5).testBit r = true → r < 6 → (s.hf o.half).thm.hold = false → 15 < f ∨ n < 1 ∨ 16 < n →
    Ends (.thmShutdownRead o f n) s fun t => AnsweredWith t o 0x0802 stRange true [] ∧ Frame [.mbx o.half] s t)

/-- The value instructions of a lane compute exactly, round away from zero and saturate to 16 bits. (R170, R171, R178, R179, R180) -/
def Obligations.LaneValueInstructions : Prop :=
  (∀ (s : State) (w : LaneAt) (d : Fin 32) (i : BitVec 16), LaneTakes s w 1 →
    Ends (.movi w d i) s fun t => SetsV s t w 1 d.val i.toInt) ∧
  (∀ (s : State) (w : LaneAt) (d a : Fin 32), LaneTakes s w 1 →
    Ends (.mov w d a) s fun t => SetsV s t w 1 d.val ((laneAt s w).rv a.val)) ∧
  (∀ (s : State) (w : LaneAt) (d a b : Fin 32), LaneTakes s w 1 →
    Ends (.add w d a b) s fun t => SetsV s t w 1 d.val ((laneAt s w).rv a.val + (laneAt s w).rv b.val)) ∧
  (∀ (s : State) (w : LaneAt) (d a b : Fin 32), LaneTakes s w 1 →
    Ends (.sub w d a b) s fun t => SetsV s t w 1 d.val ((laneAt s w).rv a.val - (laneAt s w).rv b.val)) ∧
  (∀ (s : State) (w : LaneAt) (d a : Fin 32), LaneTakes s w 1 →
    Ends (.neg w d a) s fun t => SetsV s t w 1 d.val (-(laneAt s w).rv a.val)) ∧
  (∀ (s : State) (w : LaneAt) (d a : Fin 32), LaneTakes s w 1 →
    Ends (.abs w d a) s fun t => SetsV s t w 1 d.val ((laneAt s w).rv a.val).natAbs) ∧
  (∀ (s : State) (w : LaneAt) (d a b : Fin 32), LaneTakes s w 1 →
    Ends (.min w d a b) s fun t => SetsV s t w 1 d.val (min ((laneAt s w).rv a.val) ((laneAt s w).rv b.val))) ∧
  (∀ (s : State) (w : LaneAt) (d a b : Fin 32), LaneTakes s w 1 →
    Ends (.max w d a b) s fun t => SetsV s t w 1 d.val (max ((laneAt s w).rv a.val) ((laneAt s w).rv b.val))) ∧
  (∀ (s : State) (w : LaneAt) (d a b : Fin 32), LaneTakes s w 1 →
    Ends (.clmp w d a b) s fun t => SetsV s t w 1 d.val (min (max ((laneAt s w).rv d.val) ((laneAt s w).rv a.val)) ((laneAt s w).rv b.val))) ∧
  (∀ (s : State) (w : LaneAt) (d a : Fin 32) (k : Fin 16), LaneTakes s w 1 →
    Ends (.shl w d a k) s fun t => SetsV s t w 1 d.val ((laneAt s w).rv a.val * 2 ^ k.val)) ∧
  (∀ (s : State) (w : LaneAt) (d a : Fin 32) (k : Fin 16), LaneTakes s w 1 →
    Ends (.shr w d a k) s fun t => SetsV s t w 1 d.val (roundShift ((laneAt s w).rv a.val) k.val)) ∧
  (∀ (s : State) (w : LaneAt) (d a b : Fin 32), LaneTakes s w 1 →
    Ends (.and w d a b) s fun t => SetsV s t w 1 d.val (look 0 (laneAt s w).v a.val &&& look 0 (laneAt s w).v b.val).toInt) ∧
  (∀ (s : State) (w : LaneAt) (d a b : Fin 32), LaneTakes s w 1 →
    Ends (.or w d a b) s fun t => SetsV s t w 1 d.val (look 0 (laneAt s w).v a.val ||| look 0 (laneAt s w).v b.val).toInt) ∧
  (∀ (s : State) (w : LaneAt) (d a b : Fin 32), LaneTakes s w 1 →
    Ends (.xor w d a b) s fun t => SetsV s t w 1 d.val (look 0 (laneAt s w).v a.val ^^^ look 0 (laneAt s w).v b.val).toInt) ∧
  (∀ (s : State) (w : LaneAt) (d a b : Fin 32) (k : Fin 4), LaneTakes s w 1 →
    Ends (.sel w d a b k) s fun t => SetsV s t w 1 d.val (if (laneAt s w).rp k.val then (laneAt s w).rv a.val else (laneAt s w).rv b.val)) ∧
  (∀ (s : State) (w : LaneAt) (d a b : Fin 32), (laneAt s w).run = true → (laneAt s w).cyc + 1 ≤ s.laneBudget w.half (s.laneIdx w.half w.lane.val) →
    condHolds (laneAt s w) w.cond = false → Ends (.add w d a b) s fun t => LaneMoved s t w 1 ∧ (laneAt t w).v = (laneAt s w).v ∧ (laneAt t w).sat = (laneAt s w).sat) ∧
  (∀ (s : State) (w : LaneAt) (d a b : Fin 32), (laneAt s w).run = false → exec (.add w d a b) s = .next s ∧ exec (.sub w d a b) s = .next s ∧
    exec (.min w d a b) s = .next s ∧ exec (.and w d a b) s = .next s)

/-- The accumulator instructions of a lane compute exactly and saturate to 40 bits. (R170, R171, R178, R179, R180) -/
def Obligations.LaneAccumulatorInstructions : Prop :=
  (∀ (s : State) (w : LaneAt) (d : Fin 4) (a b : Fin 32), LaneTakes s w 1 →
    Ends (.mul w d a b) s fun t => SetsA s t w 1 d.val ((laneAt s w).rv a.val * (laneAt s w).rv b.val) ∧ (laneAt t w).p = (laneAt s w).p) ∧
  (∀ (s : State) (w : LaneAt) (d : Fin 4) (a b : Fin 32), LaneTakes s w 1 →
    Ends (.mac w d a b) s fun t => SetsA s t w 1 d.val ((laneAt s w).ra d.val + (laneAt s w).rv a.val * (laneAt s w).rv b.val) ∧ (laneAt t w).p = (laneAt s w).p) ∧
  (∀ (s : State) (w : LaneAt) (d : Fin 4) (a b : Fin 32), LaneTakes s w 1 →
    Ends (.msu w d a b) s fun t => SetsA s t w 1 d.val ((laneAt s w).ra d.val - (laneAt s w).rv a.val * (laneAt s w).rv b.val) ∧ (laneAt t w).p = (laneAt s w).p) ∧
  (∀ (s : State) (w : LaneAt) (d : Fin 4) (a : Fin 32), LaneTakes s w 1 →
    Ends (.lda w d a) s fun t => SetsA s t w 1 d.val ((laneAt s w).rv a.val * 32768) ∧ (laneAt t w).p = (laneAt s w).p) ∧
  (∀ (s : State) (w : LaneAt) (d a : Fin 4), LaneTakes s w 1 →
    Ends (.adda w d a) s fun t => SetsA s t w 1 d.val ((laneAt s w).ra d.val + (laneAt s w).ra a.val) ∧ (laneAt t w).p = (laneAt s w).p) ∧
  (∀ (s : State) (w : LaneAt) (d a : Fin 4), LaneTakes s w 1 →
    Ends (.suba w d a) s fun t => SetsA s t w 1 d.val ((laneAt s w).ra d.val - (laneAt s w).ra a.val) ∧ (laneAt t w).p = (laneAt s w).p) ∧
  (∀ (s : State) (w : LaneAt) (d a : Fin 4), LaneTakes s w 1 →
    Ends (.mova w d a) s fun t => SetsA s t w 1 d.val ((laneAt s w).ra a.val) ∧ (laneAt t w).p = (laneAt s w).p) ∧
  (∀ (s : State) (w : LaneAt) (d : Fin 4) (k : Fin 32), LaneTakes s w 1 → k.val < 16 →
    Ends (.sha w d k) s fun t => SetsA s t w 1 d.val ((laneAt s w).ra d.val * 2 ^ k.val) ∧ (laneAt t w).p = (laneAt s w).p) ∧
  (∀ (s : State) (w : LaneAt) (d : Fin 4) (k : Fin 32), LaneTakes s w 1 → 16 ≤ k.val →
    Ends (.sha w d k) s fun t => SetsA s t w 1 d.val (roundShift ((laneAt s w).ra d.val) (32 - k.val)) ∧ (laneAt t w).p = (laneAt s w).p) ∧
  (∀ (s : State) (w : LaneAt) (d : Fin 4) (a : Fin 32), LaneTakes s w 3 →
    Ends (.amulv w d a) s fun t => SetsA s t w 3 d.val (roundShift ((laneAt s w).ra d.val * (laneAt s w).rv a.val) 15) ∧ (laneAt t w).p = (laneAt s w).p) ∧
  (∀ (s : State) (w : LaneAt) (d : Fin 32) (a : Fin 4) (n : Fin 16), LaneTakes s w 1 →
    Ends (.str w d a n) s fun t => SetsV s t w 1 d.val (roundShift ((laneAt s w).ra a.val * 2 ^ n.val) 15)) ∧
  (∀ (s : State) (w : LaneAt) (d k : Fin 4) (a b : Fin 32) (r : Int), LaneTakes s w 1 →
    r = min (max ((laneAt s w).ra d.val) ((laneAt s w).rv a.val * 32768)) ((laneAt s w).rv b.val * 32768) →
    Ends (.aclmp w d k a b) s fun t => SetsA s t w 1 d.val r ∧ (laneAt t w).rp k.val = decide (r ≠ (laneAt s w).ra d.val) ∧
        (∀ i, i ≠ k.val → (laneAt t w).rp i = (laneAt s w).rp i)) ∧
  (∀ (s : State) (w : LaneAt) (d : Fin 4) (a b : Fin 32) (c : Cc), LaneTakes s w 1 →
    Ends (.cmp w d a b c) s fun t => SetsP s t w 1 d.val (ccHolds c ((laneAt s w).rv a.val) ((laneAt s w).rv b.val))) ∧
  (∀ (s : State) (w : LaneAt) (d a b : Fin 4) (o : Plop), LaneTakes s w 1 →
    Ends (.plog w d a b o) s fun t => SetsP s t w 1 d.val (plopVal o ((laneAt s w).rp a.val) ((laneAt s w).rp b.val)))

/-- A lane's flow, pointer, memory and result instructions act on exactly the word they name. (R167, R172, R176, R177, R178, R179, R180, R181, R198, R202)
Where the spec leaves a point open, the clauses follow the model's choice in log entry 14. -/
def Obligations.LaneFlowAndMemory : Prop :=
  (∀ (s : State) (w : LaneAt), LaneTakes s w 1 →
    Ends (.nop w) s fun t => LaneMoved s t w 1 ∧ (laneAt t w) = { (laneAt s w) with cyc := (laneAt s w).cyc + 1, pc := (laneAt s w).advance.pc, reps := (laneAt s w).advance.reps }) ∧
  (∀ (s : State) (w : LaneAt), LaneTakes s w 1 →
    Ends (.halt w) s fun t => LaneMoved s t w 1 ∧ (laneAt t w).run = false ∧ (laneAt t w).v = (laneAt s w).v ∧ (laneAt t w).line = (laneAt s w).line) ∧
  (∀ (s : State) (w : LaneAt) (n : Fin 4096) (k : Fin 1024), (laneAt s w).run = true → (laneAt s w).cyc + 1 ≤ s.laneBudget w.half (s.laneIdx w.half w.lane.val) →
    Ends (.rpt w n k) s fun t => (laneAt t w).pc = (laneAt s w).pc + 1 ∧ (laneAt t w).cyc = (laneAt s w).cyc + 1 ∧ (laneAt t w).v = (laneAt s w).v ∧
        (∃ r, (laneAt t w).reps = r :: (laneAt s w).reps ∧ r.start = (laneAt s w).pc + 1 ∧ r.last = (laneAt s w).pc + k.val ∧ r.left = n.val + 1 ∧ r.count = n.val + 1) ∧
        Frame [.cln w.half] s t) ∧
  (∀ (s : State) (w : LaneAt) (a : Fin 32) (m : Fin 4096) (k : Fin 32), (laneAt s w).run = true → (laneAt s w).cyc + 1 ≤ s.laneBudget w.half (s.laneIdx w.half w.lane.val) →
    Ends (.rptv w a m k) s fun t => (laneAt t w).pc = (laneAt s w).pc + 1 ∧ (∃ r, (laneAt t w).reps = r :: (laneAt s w).reps ∧ r.start = (laneAt s w).pc + 1 ∧
        r.last = (laneAt s w).pc + (k.val + 1) ∧ r.left = m.val + 1 ∧ (r.count : Int) = max 0 (min ((laneAt s w).rv a.val) (m.val + 1))) ∧ Frame [.cln w.half] s t) ∧
  (∀ (s : State) (w : LaneAt) (d : Fin 4) (i : BitVec 16), LaneTakes s w 1 →
    Ends (.movx w d i) s fun t => LaneMoved s t w 1 ∧ (laneAt t w).rx d.val = i ∧ (∀ k, k ≠ d.val → (laneAt t w).rx k = (laneAt s w).rx k) ∧ (laneAt t w).v = (laneAt s w).v ∧ (laneAt t w).a = (laneAt s w).a ∧ (laneAt t w).mem = (laneAt s w).mem) ∧
  (∀ (s : State) (w : LaneAt) (d : Fin 4) (i : BitVec 16), LaneTakes s w 1 →
    Ends (.addx w d i) s fun t => LaneMoved s t w 1 ∧ (laneAt t w).rx d.val = (laneAt s w).rx d.val + i ∧ (∀ k, k ≠ d.val → (laneAt t w).rx k = (laneAt s w).rx k) ∧ (laneAt t w).v = (laneAt s w).v ∧ (laneAt t w).a = (laneAt s w).a ∧ (laneAt t w).mem = (laneAt s w).mem) ∧
  (∀ (s : State) (w : LaneAt) (r : Fin 32) (m : MemOp), LaneTakes s w 2 →
    Ends (.ld w r m) s fun t => LaneMoved s t w 2 ∧ look 0 (laneAt t w).v r.val = BitVec.ofNat 16 (s.laneRead w.half w.lane.val ((laneAt s w).ea m)).1 ∧
        (laneAt t w).addrErr = ((laneAt s w).addrErr || (s.laneRead w.half w.lane.val ((laneAt s w).ea m)).2) ∧ (laneAt t w).x = ((laneAt s w).postMod m).x ∧ (laneAt t w).mem = (laneAt s w).mem) ∧
  (∀ (s : State) (w : LaneAt) (r : Fin 32) (m : MemOp), LaneTakes s w 1 → (laneAt s w).ea m < 0x1000 →
    Ends (.st w m r) s fun t => LaneMoved s t w 1 ∧ look 0 (laneAt t w).mem ((laneAt s w).ea m) = look 0 (laneAt s w).v r.val ∧
        (∀ a, a ≠ (laneAt s w).ea m → look 0 (laneAt t w).mem a = look 0 (laneAt s w).mem a) ∧ (laneAt t w).addrErr = (laneAt s w).addrErr ∧
        (laneAt t w).x = ((laneAt s w).postMod m).x) ∧
  (∀ (s : State) (w : LaneAt) (r : Fin 32) (m : MemOp), LaneTakes s w 1 → 0x1000 ≤ (laneAt s w).ea m →
    Ends (.st w m r) s fun t => LaneMoved s t w 1 ∧ (laneAt t w).mem = (laneAt s w).mem ∧ (laneAt t w).addrErr = true ∧ (laneAt t w).wsig = (laneAt s w).wsig) ∧
  (∀ (s : State) (w : LaneAt) (r : Fin 4) (m : MemOp), LaneTakes s w 2 → (laneAt s w).ea m % 2 = 1 →
    (Ends (.ldw w r m) s fun t => LaneMoved s t w 2 ∧ (laneAt t w).ra r.val = 0 ∧ (laneAt t w).addrErr = true) ∧
        (Ends (.stw w m r) s fun t => LaneMoved s t w 2 ∧ (laneAt t w).mem = (laneAt s w).mem ∧ (laneAt t w).addrErr = true)) ∧
  (∀ (s : State) (w : LaneAt) (r : Fin 4) (m : MemOp), LaneTakes s w 2 → (laneAt s w).ea m % 2 = 0 → (laneAt s w).ea m < 0x1000 →
    Ends (.ldw w r m) s fun t => LaneMoved s t w 2 ∧
        (laneAt t w).ra r.val = ((look 0 (laneAt s w).mem ((laneAt s w).ea m + 1)).toInt * 65536 + (look 0 (laneAt s w).mem ((laneAt s w).ea m)).toNat) ∧
        (laneAt t w).addrErr = (laneAt s w).addrErr ∧ (laneAt t w).mem = (laneAt s w).mem) ∧
  (∀ (s : State) (w : LaneAt) (r : Fin 4) (m : MemOp) (n : Nat), LaneTakes s w 2 → (laneAt s w).ea m % 2 = 0 → (laneAt s w).ea m < 0x1000 →
    n = (clampI (-2147483648) 2147483647 ((laneAt s w).ra r.val) % 4294967296).toNat →
    Ends (.stw w m r) s fun t => LaneMoved s t w 2 ∧ look 0 (laneAt t w).mem ((laneAt s w).ea m) = BitVec.ofNat 16 n ∧
        look 0 (laneAt t w).mem ((laneAt s w).ea m + 1) = BitVec.ofNat 16 (n / 65536) ∧
        (∀ a, a ≠ (laneAt s w).ea m → a ≠ (laneAt s w).ea m + 1 → look 0 (laneAt t w).mem a = look 0 (laneAt s w).mem a) ∧
        (laneAt t w).sat = ((laneAt s w).sat || decide ((laneAt s w).ra r.val < -2147483648 ∨ 2147483647 < (laneAt s w).ra r.val))) ∧
  (∀ (s : State) (w : LaneAt) (r : Fin 4) (o : BitVec 16), LaneTakes s w 2 →
    Ends (.ldx w r (.abs o)) s fun t => LaneMoved s t w 2 ∧ (laneAt t w).rx r.val = BitVec.ofNat 16 (s.laneRead w.half w.lane.val o.toNat).1 ∧
        (∀ k, k ≠ r.val → (laneAt t w).rx k = (laneAt s w).rx k) ∧ (laneAt t w).v = (laneAt s w).v) ∧
  (∀ (s : State) (w : LaneAt) (a : Fin 32) (i : Fin 64), LaneTakes s w 1 → i.val < s.slotCnt w.half w.lane.val →
    Ends (.out w a (.imm i)) s fun t => LaneMoved s t w 1 ∧ look none (laneAt t w).line i.val = some (look 0 (laneAt s w).v a.val) ∧
        (∀ k, k ≠ i.val → look none (laneAt t w).line k = look none (laneAt s w).line k) ∧ (laneAt t w).slotErr = (laneAt s w).slotErr) ∧
  (∀ (s : State) (w : LaneAt) (a : Fin 32) (i : Fin 64), LaneTakes s w 1 → s.slotCnt w.half w.lane.val ≤ i.val →
    Ends (.out w a (.imm i)) s fun t => LaneMoved s t w 1 ∧ (laneAt t w).line = (laneAt s w).line ∧ (laneAt t w).slotErr = true)

/-- Lanes start and drain once per tick; programs are stored, listed and freed in every half reached; captures run as armed. (R147, R167, R182, R186, R187, R195, R196, R197, R199, R201, R207, R232)
Where the spec leaves a point open, the clauses follow the model's choice in log entries 6, 13, 15, 117. -/
def Obligations.LaneProgramsAndDrain : Prop :=
  (∀ (s : State) (h : Half) (l : Nat), (s.hf h).twn.service = true → s.pstate ≠ 1 → l < 60 → bitAt (s.lcfg0 h l) 31 = true →
    (∀ i, s.image h (fld (s.lcfg0 h l) 15 0) = some i → i.progId ≠ 0x4C4F4F50 ∧ i.progId ≠ 0x50534551) →
    Ends (.laneRunStart h) s fun t => t.lane h l = (s.lane h l).started (fld (s.lcfg0 h l) 15 0) none ∧ (t.lane h l).run = true ∧
        (t.lane h l).pc = fld (s.lcfg0 h l) 15 0 ∧ (t.lane h l).mem = (s.lane h l).mem ∧ (t.lane h l).line = [] ∧ (t.hf h).tck.ingestEnd = some (s.tick h) ∧
        Frame (.free :: .regs .pst :: .tck h :: .cln h :: .pst h :: bothMbx) s t) ∧
  (∀ (s : State) (h : Half) (l : Nat), (s.hf h).twn.service = true → s.pstate ≠ 1 → l < 60 → bitAt (s.lcfg0 h l) 31 = false →
    Ends (.laneRunStart h) s fun t => t.lane h l = { s.lane h l with run := false, ovr := false } ∧ Frame (.free :: .regs .pst :: .tck h :: .cln h :: .pst h :: bothMbx) s t) ∧
  (∀ (s : State) (h : Half), ((s.hf h).twn.service = false ∧ (s.hf h).twn.rejoin = false) ∨ s.pstate = 1 → exec (.laneRunStart h) s = .next s) ∧
  (∀ (s : State) (h : Half) (l : Nat), l < 60 → (s.lane h l).run = true → (s.lane h l).lastOvr = false →
    Ends (.laneOverrun h l) s fun t => (t.lane h l).run = false ∧ (t.lane h l).line = [] ∧ (t.lane h l).ovr = true ∧ (t.lane h l).v = (s.lane h l).v ∧
        t.rg .cln h (0x20 * l + 0x0C) = BitVec.ofNat 32 (min 0xFFFFFFFF ((s.rg .cln h (0x20 * l + 0x0C)).toNat + 1)) ∧
        Raised t h 2 0x0501 ([l, 0] ++ le 2 (s.laneBudget h l)) ∧ (t.hf h).twn.unhealthy = (s.hf h).twn.unhealthy ∧
        Frame (.regs .cln :: .cln h :: .twn h :: bothMbx) s t) ∧
  (∀ (s : State) (h : Half) (l : Nat), l < 60 → (s.lane h l).run = true → (s.lane h l).lastOvr = true → (s.hf h).twn.unhealthy = false →
    Ends (.laneOverrun h l) s fun t => (t.lane h l).run = false ∧ (t.hf h).twn.unhealthy = true ∧ (t.hf h).twn.cause = 0x84 ∧ (t.hf h).twn.service = false ∧
        Frame (.regs .cln :: .cln h :: .twn h :: bothMbx) s t) ∧
  (∀ (s : State) (h : Half) (l : Nat), 60 ≤ l → (s.lane h l).run = true →
    Ends (.laneOverrun h l) s fun t => (t.lane h l).run = false ∧ (t.lane h l).line = [] ∧ (t.lane h l).ovr = true ∧ (t.lane h l).mem = (s.lane h l).mem ∧ Frame [.cln h] s t) ∧
  (∀ (s : State) (h : Half) (l : Nat), (s.lane h l).run = false → exec (.laneOverrun h l) s = .next s) ∧
  (∀ (s : State) (h : Half) (l : Nat), l < 60 → bitAt (s.lcfg0 h l) 31 = true → (s.lane h l).run = false →
    Ends (.claspDrain h) s fun t => t.rg .cln h (0x20 * l + 0x08) = lstatWord (s.lane h l) ∧ (t.hf h).twn.digTick = s.tick h ∧
        look 0 (t.hf h).twn.digs l = laneDigest l (s.tick h) (fld (s.lcfg1 h l) 26 16) (s.lane h l) ∧ t.lane h l = s.lane h l ∧
        Frame (.regs .cln :: .twn h :: .cln h :: bothMbx) s t) ∧
  (∀ (s : State) (h : Half) (l i : Nat) (v : Lw), l < 60 → bitAt (s.lcfg0 h l) 31 = true → (s.lane h l).run = false → (∀ m < 60, m ≠ l → bitAt (s.lcfg0 h m) 31 = false) →
    rising (s.lane h l).line = true → look none (s.lane h l).line i = some v →
    Ends (.claspDrain h) s fun t => look 0 (t.hf h).cln.slots (fld (s.lcfg1 h l) 26 16 + i) = v ∧ Frame (.regs .cln :: .twn h :: .cln h :: bothMbx) s t) ∧
  (∀ (s : State) (o : Org) (img : List Nat) (x : Half) (r : Nat) (im : Image), RunsAt s o 0x0501 x r → r ∈ [rInstaller, rVendor] → checkImage img = .inl im →
    Ends (.clnStore o img) s fun t =>
        (t.hf x).cln = { (s.hf x).cln with stores := (s.hf x).cln.stores ++ [{ org := o, image := im, code := codeWords im.words (img.drop 72) }] } ∧
        AnsweredWith t o 0x0501 stPending false [] ∧ Frame [.cln x, .mbx o.half] s t) ∧
  (∀ (s : State) (o : Org) (img : List Nat) (x : Half) (r st v : Nat), RunsAt s o 0x0501 x r → r ∈ [rInstaller, rVendor] → checkImage img = .inr (st, v) →
    Ends (.clnStore o img) s fun t => AnsweredWith t o 0x0501 st true (if st = stTickBudget then le 2 0 ++ le 2 (numAt img 16 2) ++ le 2 v ++ le 2 (numAt img 22 2) else []) ∧
        Frame [.mbx o.half] s t) ∧
  (∀ (s : State) (o : Org) (x : Half) (r base : Nat) (im : Image), RunsAt s o 0x0502 x r → r ∈ [rInstaller, rVendor] → s.image x base = some im →
    boundLanes s x base false = [] → boundLanes s x base true = [] →
    Ends (.clnFree o base) s fun t => (∀ y ∈ s.reach, (t.hf y).cln.images = (s.hf y).cln.images.filter (fun i => i.base != base)) ∧ AnsweredWith t o 0x0502 stOk true [] ∧
        Frame [.regs .cln, .cln .A, .cln .B, .mbx o.half] s t) ∧
  (∀ (s : State) (o : Org) (x : Half) (r base : Nat) (im : Image), RunsAt s o 0x0502 x r → r ∈ [rInstaller, rVendor] → s.image x base = some im →
    boundLanes s x base false ≠ [] ∨ boundLanes s x base true ≠ [] →
    Ends (.clnFree o base) s fun t => AnsweredWith t o 0x0502 0x0503 true [] ∧ Frame [.mbx o.half] s t) ∧
  (∀ (s : State) (o : Org) (x : Half) (r : Nat) (q : List Nat), RunsAt s o 0x0503 x r → r ∈ rNotPublic →
    q = le 2 (s.hf x).cln.images.length ++ ((s.hf x).cln.images.map fun i =>
        le 2 i.base ++ le 2 i.words ++ le 4 i.progId ++ le 4 i.version ++ le 2 i.verified ++ [(boundLanes s x i.base false).length, 0]).flatten → Room s o q.length →
    Ends (.clnList o) s fun t => AnsweredWith t o 0x0503 stOk true q ∧ Frame [.mbx o.half] s t) ∧
  (∀ (s : State) (o : Org) (x : Half) (r : Nat) (q : List Nat), RunsAt s o 0x0503 x r → r ∈ rNotPublic →
    q = le 2 (s.hf x).cln.images.length ++ ((s.hf x).cln.images.map fun i =>
        le 2 i.base ++ le 2 i.words ++ le 4 i.progId ++ le 4 i.version ++ le 2 i.verified ++ [(boundLanes s x i.base false).length, 0]).flatten → ¬ Room s o q.length →
    Ends (.clnList o) s fun t => AnsweredWith t o 0x0503 stBadLength true [] ∧ Frame [.mbx o.half] s t) ∧
  (∀ (s : State) (o : Org) (x : Half) (r l b buf n g rows pre dec tt : Nat) (ks : List Nat), RunsAt s o 0x0514 x r → r ∈ [rInstaller, rVendor] → buf < 2 → 1 ≤ n → n ≤ 8 → g ≤ 2 →
    1 ≤ rows → rows ≤ 65536 → pre < rows → 1 ≤ dec → dec ≤ 1024 → l < 60 → b < 8 → (∀ k ∈ ks.take n, k < 2048) → (s.cap x buf).st ≠ 1 → (s.cap x buf).st ≠ 2 →
    Ends (.clnCapArm o l b buf n g rows pre dec tt ks) s fun t => AnsweredWith t o 0x0514 stPending false (le 8 0) ∧
        (∀ y ∈ s.reach, (t.cap y buf).st = 1 ∧ (t.cap y buf).slots = ks.take n ∧ (t.cap y buf).rowsMax = rows ∧ (t.cap y buf).pre = pre ∧ (t.cap y buf).decim = dec ∧
          (t.cap y buf).armTick = s.tick x ∧ (t.cap y buf).rows = []) ∧ Frame [.cln .A, .cln .B, .mbx o.half] s t) ∧
  (∀ (s : State) (h : Half) (buf : Nat), buf < 2 → (s.cap h buf).st = 1 → triggerNow s h (s.cap h buf) = true →
    Ends (.captureTrigger h buf) s fun t => (t.cap h buf).st = 2 ∧ (t.cap h buf).trigTick = s.tick h ∧ (t.cap h buf).rows.length ≤ (s.cap h buf).pre ∧
        (∀ q ∈ (t.cap h buf).rows, q ∈ (s.cap h buf).rows ∧ (s.tick h - q.1) % (s.cap h buf).decim = 0) ∧ Frame [.cln h] s t) ∧
  (∀ (s : State) (h : Half) (buf : Nat), (s.cap h buf).st ≠ 1 → exec (.captureTrigger h buf) s = .next s) ∧
  (∀ (s : State) (o : Org) (x : Half) (r buf f n : Nat), RunsAt s o 0x0515 x r → r ∈ [rOperator, rInstaller, rVendor] → buf < 2 →
    Room s o ((s.cap x buf).readBytes buf f n).length →
    Ends (.clnCapRead o buf f n) s fun t => AnsweredWith t o 0x0515 stOk true ((s.cap x buf).readBytes buf f n) ∧ Frame [.mbx o.half] s t) ∧
  (∀ (s : State) (o : Org) (x : Half) (r buf f n : Nat), RunsAt s o 0x0515 x r → r ∈ [rOperator, rInstaller, rVendor] → 2 ≤ buf →
    Ends (.clnCapRead o buf f n) s fun t => AnsweredWith t o 0x0515 stRange true [] ∧ Frame [.mbx o.half] s t)

/-- An accepted loop command takes the next sequence number, writes the CLN shadow and arms its commit. (R213, R222, R223, R225, R228, R229, R230, R234) -/
def Obligations.LoopCommands : Prop :=
  (∀ (s : State) (o : Org) (x : Half) (r l b n : Nat) (g : Int), RunsAt s o 0x0510 x r → r ∈ [rOperator, rInstaller, rVendor] → blockThere s x l b = true →
    (s.param x l (0x20 * b + 9)).testBit 4 = false → (s.param x l (0x20 * b + 9)).testBit 0 = true → s.paramI x l (0x20 * b + 4) ≤ g → g ≤ s.paramI x l (0x20 * b + 5) →
    shadowBusy s x = false → n = (s.loopB x l b).seqNext →
    Ends (.clnSetpoint o l b g) s fun t => AnsweredWith t o 0x0510 stPending false (le 2 n ++ [0, 0] ++ le 8 0) ∧
        (∀ y ∈ s.reach, (t.loopB y l b).seqNext = seqUp n) ∧
        t.shadowOf .cln x (0x10000 + 0x200 * l + 0x40 * b) = BitVec.ofNat 32 (n % 65536 * 65536 + (g % 65536).toNat) ∧
        (t.hf x).cln.cmds = (s.hf x).cln.cmds ++ [{ org := o, opc := 0x0510, lane := l, blk := b, seq := n }] ∧ Frame [.shadow, .blocks, .cln .A, .cln .B, .mbx o.half] s t) ∧
  (∀ (s : State) (o : Org) (x : Half) (r l b : Nat) (g : Int), RunsAt s o 0x0510 x r → r ∈ [rOperator, rInstaller, rVendor] → l < 60 → b < 8 → blockThere s x l b = false →
    Ends (.clnSetpoint o l b g) s fun t => AnsweredWith t o 0x0510 0x0506 true [] ∧ Frame [.mbx o.half] s t) ∧
  (∀ (s : State) (o : Org) (x : Half) (r l b : Nat) (g : Int), RunsAt s o 0x0510 x r → r ∈ [rOperator, rInstaller, rVendor] → blockThere s x l b = true →
    (s.param x l (0x20 * b + 9)).testBit 4 = false → (s.param x l (0x20 * b + 9)).testBit 0 = true →
    g < s.paramI x l (0x20 * b + 4) ∨ s.paramI x l (0x20 * b + 5) < g →
    Ends (.clnSetpoint o l b g) s fun t => AnsweredWith t o 0x0510 stRange true [] ∧ Frame [.mbx o.half] s t) ∧
  (∀ (s : State) (o : Org) (x : Half) (r l b n : Nat) (g : Int), RunsAt s o 0x0512 x r → r ∈ [rOperator, rInstaller, rVendor] → blockThere s x l b = true →
    s.paramI x l (0x20 * b + 4) ≤ g → g ≤ s.paramI x l (0x20 * b + 5) → shadowBusy s x = false → n = (s.loopB x l b).mseqNext →
    Ends (.clnManual o l b g) s fun t => AnsweredWith t o 0x0512 stPending false (le 2 n ++ [0, 0] ++ le 8 0) ∧
        (∀ y ∈ s.reach, (t.loopB y l b).mseqNext = seqUp n) ∧
        t.shadowOf .cln x (0x10000 + 0x200 * l + 0x40 * b + 0x14) = BitVec.ofNat 32 (n % 65536 * 65536 + (g % 65536).toNat) ∧
        (t.hf x).cln.cmds = (s.hf x).cln.cmds ++ [{ org := o, opc := 0x0512, lane := l, blk := b, seq := n }] ∧ Frame [.shadow, .blocks, .cln .A, .cln .B, .mbx o.half] s t) ∧
  (∀ (s : State) (o : Org) (x : Half) (r l b : Nat) (u v : Bool), RunsAt s o 0x0511 x r → r ∈ [rOperator, rInstaller, rVendor] → blockThere s x l b = true →
    shadowBusy s x = false →
    Ends (.clnMode o l b u v) s fun t => AnsweredWith t o 0x0511 stPending false [] ∧ bitAt (t.shadowOf .cln x (0x10000 + 0x200 * l + 0x40 * b + 0x10)) 16 = u ∧
        bitAt (t.shadowOf .cln x (0x10000 + 0x200 * l + 0x40 * b + 0x10)) 17 = v ∧ (t.hf x).cln.cmds = (s.hf x).cln.cmds ∧ Frame [.shadow, .blocks, .cln .A, .cln .B, .mbx o.half] s t) ∧
  (∀ (s : State) (o : Org) (x : Half) (r l b : Nat) (u v : Bool), RunsAt s o 0x0511 x r → r ∈ [rOperator, rInstaller, rVendor] → blockThere s x l b = true →
    shadowBusy s x = true → Ends (.clnMode o l b u v) s fun t => AnsweredWith t o 0x0511 0x0505 true [] ∧ Frame [.mbx o.half] s t) ∧
  (∀ (s : State) (o : Org) (x : Half) (r l b n amp f0 f1 dur per seed : Nat), RunsAt s o 0x0513 x r → r ∈ [rInstaller, rVendor] → blockThere s x l b = true → amp ≤ 16383 → 1 ≤ dur →
    (s.param x l (0x20 * b + 0x10)).testBit 15 = false → shadowBusy s x = false → n = (s.loopB x l b).injNext →
    Ends (.clnInject o l b 1 per amp seed f0 f1 dur) s fun t =>
        AnsweredWith t o 0x0513 stPending false (le 2 n ++ [0, 0] ++ le 8 (commitEdge s .cln x)) ∧ (∀ y ∈ s.reach, (t.loopB y l b).injNext = seqUp n) ∧
        (t.hf x).cln.cmds = (s.hf x).cln.cmds ++ [{ org := o, opc := 0x0513, lane := l, blk := b, seq := n }] ∧ Frame [.shadow, .blocks, .cln .A, .cln .B, .mbx o.half] s t) ∧
  (∀ (s : State) (o : Org) (x : Half) (r l b amp f0 f1 dur per seed c : Nat), RunsAt s o 0x0513 x r → r ∈ [rInstaller, rVendor] → blockThere s x l b = true →
    16383 < amp ∨ dur = 0 → Ends (.clnInject o l b c per amp seed f0 f1 dur) s fun t => AnsweredWith t o 0x0513 stRange true [] ∧ Frame [.mbx o.half] s t) ∧
  (∀ (s : State) (h : Half) (l b : Nat) (k n : Nat) (q : List (Nat × Nat)) (c : LoopCmd), (s.loopB h l b).injEnd = (k, n) :: q →
    (s.hf h).cln.cmds.find? (fun c => c.opc == 0x0513 && c.lane == l && c.blk == b && c.live) = some c → Running s c.org →
    Ends (.injectionEnd h l b) s fun t => (t.loopB h l b).injEnd = q ∧ AnsweredWith t c.org 0x0513 (injStatus k) true (le 2 c.seq ++ [0, 0] ++ le 8 n) ∧
        Frame [.cln h, .mbx c.org.half] s t) ∧
  (∀ (s : State) (h : Half) (l b k n : Nat) (q : List (Nat × Nat)), (s.loopB h l b).injEnd = (k, n) :: q →
    (s.hf h).cln.cmds.find? (fun c => c.opc == 0x0513 && c.lane == l && c.blk == b && c.live) = none →
    Ends (.injectionEnd h l b) s fun t => t.loopB h l b = { s.loopB h l b with injEnd := q } ∧ Frame [.cln h] s t) ∧
  (∀ (s : State) (h : Half) (l b : Nat), (s.loopB h l b).injEnd = [] → exec (.injectionEnd h l b) s = .next s)

/-- A power-stage group probes, starts, adds, sheds, bursts and trips as its counts and thresholds say. (R249, R250, R252, R254, R255, R256, R257, R258, R259, R260, R273, R274) -/
def Obligations.PowerStageGroups : Prop :=
  (∀ (s : State) (h : Half) (c g : Nat) (i : SeqIn) (q : SeqG), GroupSteps s h c g i → q = s.seqG h c g → q.st = 1 → q.d5 ≠ some i.tick → 4 ≤ q.probeN → q.probeBad = [] →
    Ends (.probeComplete h c g) s fun t => (t.seqG h c g).st = 2 ∧ (t.seqG h c g).queue = i.firstQueue ∧ (t.seqG h c g).winN = 1 ∧ (t.seqG h c g).ss = 0 ∧ (t.seqG h c g).retries = q.retries ∧
        Frame (.regs .pst :: .pst h :: bothMbx) s t) ∧
  (∀ (s : State) (h : Half) (c g : Nat) (i : SeqIn) (q : SeqG), GroupSteps s h c g i → q = s.seqG h c g → q.st = 1 → q.d5 ≠ some i.tick → 4 ≤ q.probeN → q.probeBad ≠ [] →
    Ends (.probeComplete h c g) s fun t => (t.seqG h c g).st = 6 ∧ (t.seqG h c g).cause = 2 ∧ Raised t h 2 0x0601 ([c, g, 2, q.retries] ++ le 6 (phaseMask q.probeBad)) ∧
        Frame (.regs .pst :: .pst h :: bothMbx) s t) ∧
  (∀ (s : State) (h : Half) (c g : Nat) (i : SeqIn) (q : SeqG) (m : Tab Nat), GroupSteps s h c g i → q = s.seqG h c g → m = (i.phases.zip i.cbc).foldl (fun t e => put 0 t e.1 (look 0 t e.1 + e.2)) q.cbc →
    q.live = true → q.d4 ≠ some i.tick → q.winN < i.hicWin → (∃ e ∈ m, i.hicN ≤ e.2) → q.retries < i.hicK →
    Ends (.hiccupTrip h c g) s fun t => (t.seqG h c g).st = 5 ∧ (t.seqG h c g).retries = q.retries + 1 ∧ (t.seqG h c g).hicT = i.tick ∧ (∃ d, Raised t h 2 0x0601 ([c, g, 1, q.retries + 1] ++ d)) ∧
        Frame (.regs .pst :: .pst h :: bothMbx) s t) ∧
  (∀ (s : State) (h : Half) (c g : Nat) (i : SeqIn) (q : SeqG) (m : Tab Nat), GroupSteps s h c g i → q = s.seqG h c g → m = (i.phases.zip i.cbc).foldl (fun t e => put 0 t e.1 (look 0 t e.1 + e.2)) q.cbc →
    q.live = true → q.d4 ≠ some i.tick → q.winN < i.hicWin → (∃ e ∈ m, i.hicN ≤ e.2) → i.hicK ≤ q.retries →
    Ends (.hiccupTrip h c g) s fun t => (t.seqG h c g).st = 6 ∧ (t.seqG h c g).cause = 1 ∧ (t.seqG h c g).retries = q.retries ∧ (∃ d, Raised t h 2 0x0601 ([c, g, 1, q.retries] ++ d)) ∧
        Frame (.regs .pst :: .pst h :: bothMbx) s t) ∧
  (∀ (s : State) (h : Half) (c g : Nat), (s.seqG h c g).live = true → s.rf .pst h (0x100 * c + 0xC) 23 16 ≤ (s.seqG h c g).winN →
    Ends (.hiccupWindowEnd h c g) s fun t => t.seqG h c g = { s.seqG h c g with winN := 0, cbc := [] } ∧ Frame [.pst h] s t) ∧
  (∀ (s : State) (h : Half) (c g : Nat) (i : SeqIn) (q : SeqG), GroupSteps s h c g i → q = s.seqG h c g → q.st = 5 → q.d5 ≠ some i.tick → q.hicT + 10 * i.hicOff ≤ i.tick →
    Ends (.hiccupWaitEnd h c g) s fun t => (t.seqG h c g) = { q with st := 1, probeN := 1, probeBad := [], d5 := some i.tick } ∧
        Frame (.regs .pst :: .pst h :: bothMbx) s t) ∧
  (∀ (s : State) (h : Half) (c g : Nat) (i : SeqIn) (q : SeqG), GroupSteps s h c g i → q = s.seqG h c g → q.st = 2 → q.d5 ≠ some i.tick → q.ssDone = true →
    Ends (.startComplete h c g) s fun t => (t.seqG h c g) = { q with st := 3, quiet := 1, d5 := some i.tick } ∧
        Frame (.regs .pst :: .pst h :: bothMbx) s t) ∧
  (∀ (s : State) (h : Half) (c g : Nat) (i : SeqIn) (q : SeqG), GroupSteps s h c g i → q = s.seqG h c g → q.st = 3 → q.d5 ≠ some i.tick → 19999 ≤ q.quiet →
    Ends (.retriesReset h c g) s fun t => (t.seqG h c g) = { q with retries := 0, quiet := 0, d5 := some i.tick } ∧
        Frame (.regs .pst :: .pst h :: bothMbx) s t) ∧
  (∀ (s : State) (h : Half) (c g : Nat) (i : SeqIn) (q : SeqG), GroupSteps s h c g i → q = s.seqG h c g → q.d6 ≠ some i.tick → q.loadStep i = true →
    Ends (.loadStepDetected h c g) s fun t => (t.seqG h c g).hold = i.lsHold ∧ (t.seqG h c g).lsHits = q.lsHits + 1 ∧ (t.seqG h c g).iprev = i.echo ∧ (t.seqG h c g).vf = q.vf + roundDiv (i.vbus - q.vf) 16 ∧
        Frame (.regs .pst :: .pst h :: bothMbx) s t) ∧
  (∀ (s : State) (h : Half) (c g : Nat) (i : SeqIn) (q : SeqG), GroupSteps s h c g i → q = s.seqG h c g → q.d6 ≠ some i.tick → q.loadStep i = false → q.hold = 1 →
    Ends (.holdOffEnd h c g) s fun t => (t.seqG h c g).hold = 0 ∧ (t.seqG h c g).st = q.st ∧ (t.seqG h c g).lsHits = q.lsHits ∧
        Frame (.regs .pst :: .pst h :: bothMbx) s t) ∧
  (∀ (s : State) (h : Half) (c g : Nat) (i : SeqIn) (q : SeqG) (j : Nat), GroupSteps s h c g i → q = s.seqG h c g → q.st = 3 → q.d7 ≠ some i.tick → q.hold = 0 → q.burst = false → q.add = none → q.shed = none → q.bu < 20 → 20 ≤ q.hi → q.nextAdd i = some j →
    Ends (.phaseAddStart h c g) s fun t => (t.seqG h c g).add = some j ∧ (t.seqG h c g).queue = q.queue ++ [j] ∧ look 0 (t.seqG h c g).w j = 1 ∧ (t.seqG h c g).lastAdd = j ∧
        Frame (.regs .pst :: .pst h :: bothMbx) s t) ∧
  (∀ (s : State) (h : Half) (c g : Nat) (i : SeqIn) (q : SeqG) (j : Nat) (l : List Nat), GroupSteps s h c g i → q = s.seqG h c g → q.st = 3 → q.d7 ≠ some i.tick → q.hold = 0 → q.burst = false → q.add = none → q.shed = none → q.bu < 20 → q.hi < 20 → 20 ≤ q.lo → i.minPh < q.queue.length → q.queue = j :: l →
    Ends (.phaseShedStart h c g) s fun t => (t.seqG h c g).shed = some j ∧ look 0 (t.seqG h c g).w j = 9 ∧ (t.seqG h c g).queue = q.queue ∧
        Frame (.regs .pst :: .pst h :: bothMbx) s t) ∧
  (∀ (s : State) (h : Half) (c g : Nat) (i : SeqIn) (q : SeqG), GroupSteps s h c g i → q = s.seqG h c g → q.st = 3 → q.d7 ≠ some i.tick → q.hold = 0 → q.burst = false → q.add = none → q.shed = none → 20 ≤ q.bu → q.queue.length = i.minPh →
    Ends (.burstEntry h c g) s fun t => (t.seqG h c g).burst = true ∧ (t.seqG h c g).bpos = 0 ∧ (t.seqG h c g).queue = q.queue ∧
        Frame (.regs .pst :: .pst h :: bothMbx) s t) ∧
  (∀ (s : State) (h : Half) (c g : Nat) (i : SeqIn) (q : SeqG), GroupSteps s h c g i → q = s.seqG h c g → q.st = 3 ∨ q.st = 4 → q.d7 ≠ some i.tick → q.hold = 0 → q.burst = true → q.pctOf i i.bExit ≤ SeqG.xTimes100 i →
    Ends (.burstExit h c g) s fun t => (t.seqG h c g).burst = false ∧ (t.seqG h c g).st = 3 ∧
        Frame (.regs .pst :: .pst h :: bothMbx) s t) ∧
  (∀ (s : State) (h : Half) (c g : Nat), (seqIn s h c g false).fresh = false ∨ (seqIn s h c g false).dead = true ∨ (seqIn s h c g false).unrouted = true →
    exec (.probeComplete h c g) s = .next s ∧ exec (.hiccupTrip h c g) s = .next s ∧ exec (.hiccupWaitEnd h c g) s = .next s ∧ exec (.startComplete h c g) s = .next s ∧
    exec (.phaseAddStart h c g) s = .next s ∧ exec (.phaseShedStart h c g) s = .next s ∧ exec (.burstEntry h c g) s = .next s) ∧
  (∀ (s : State) (o : Org) (x : Half) (r c m : Nat), RunsAt s o 0x0601 x r → r ∈ [rInstaller, rVendor] → c < 32 → m < 16 → (s.hf x).saf.permCab.testBit c = true →
    (s.hf x).saf.stopCab.testBit c = false → (∀ g < 4, m.testBit g = true → (s.seqG x c g).st = 6) →
    Ends (.pstClear o c m) s fun t => AnsweredWith t o 0x0601 stPending false [] ∧
        (∀ y ∈ s.reach, (t.hf y).pst.clears = (s.hf y).pst.clears ++ (maskGroups m).map (fun g => (c, g)) ∧ (t.hf y).pst.seqs = (s.hf y).pst.seqs) ∧
        Frame [.blocks, .pst .A, .pst .B, .mbx o.half] s t) ∧
  (∀ (s : State) (o : Org) (x : Half) (r c m g : Nat), RunsAt s o 0x0601 x r → r ∈ [rInstaller, rVendor] → c < 32 → m < 16 → (s.hf x).saf.permCab.testBit c = true →
    (s.hf x).saf.stopCab.testBit c = false → g < 4 → m.testBit g = true → (s.seqG x c g).st ≠ 6 →
    Ends (.pstClear o c m) s fun t => AnsweredWith t o 0x0601 0x0601 true [] ∧ Frame [.mbx o.half] s t) ∧
  (∀ (s : State) (o : Org) (x : Half) (r c m : Nat), RunsAt s o 0x0601 x r → r ∈ [rInstaller, rVendor] → c < 32 → m < 16 → (s.hf x).saf.permCab.testBit c = false →
    Ends (.pstClear o c m) s fun t => AnsweredWith t o 0x0601 stSafetyInhibit true [] ∧ Frame [.mbx o.half] s t)

/-- A cabinet remote applies its command at its edge, steps its dither register, and is OFF with zero current. (R108, R109, R240, R241, R245, R246, R247, R248)
Where the spec leaves a point open, the clauses follow the model's choice in log entry 28. -/
def Obligations.CabinetRemotes : Prop :=
  (∀ (s : State) (p : Nat), p < 32 → (s.rem p).linkLost = false → (s.rem p).zeroCur = true ∨ (s.rem p).applied = [] →
    Ends (.cabinetCommandApply p) s fun t => (t.cab p).groups = [0, 0, 0, 0] ∧ (t.cab p).phases = [] ∧ (t.cab p).dith = (s.cab p).dith ∧ t.free = s.free + 50 ∧
        (∀ q, q ≠ p → t.cab q = s.cab q) ∧ Frame [.free, .cabs] s t) ∧
  (∀ (s : State) (p : Nat), p < 32 → (s.rem p).linkLost = true → (s.rem p).sinceL = 0 → (s.cab p).phases ≠ [] →
    Ends (.cabinetCommandApply p) s fun t => 1 ≤ (t.cab p).rampLen ∧ (t.cab p).rampLen ≤ 400 ∧ (t.cab p).fade = (t.cab p).rampLen ∧ (t.cab p).groups = (s.cab p).groups ∧
        (t.cab p).phases.map (·.1) = (s.cab p).phases.map (·.1) ∧ Frame [.free, .cabs] s t) ∧
  (∀ (s : State) (p : Nat), p < 32 → (s.rem p).linkLost = true → 0 < (s.rem p).sinceL → (s.rem p).sinceL < (s.cab p).rampLen →
    Ends (.cabinetCommandApply p) s fun t => (t.cab p).rampLen = (s.cab p).rampLen ∧ (t.cab p).fade = (s.cab p).rampLen - (s.rem p).sinceL ∧
        (t.cab p).groups = (s.cab p).groups ∧ Frame [.free, .cabs] s t) ∧
  (∀ (s : State) (p : Nat), p < 32 → (s.rem p).linkLost = true → 0 < (s.rem p).sinceL → (s.cab p).rampLen ≤ (s.rem p).sinceL →
    Ends (.cabinetCommandApply p) s fun t => t.cab p = { s.cab p with rampLen := 0, fade := 0, groups := [0, 0, 0, 0], phases := [] } ∧ Frame [.free, .cabs] s t) ∧
  (∀ (s : State) (p : Nat), p < 32 → (s.rem p).linkLost = false → (s.rem p).zeroCur = false → (s.rem p).applied ≠ [] →
    Ends (.cabinetCommandApply p) s fun t => (t.cab p).groups = (List.range 4).map (fun g => groupCmd (appliedWord s p 0) g) ∧
        (t.cab p).periods = appliedWord s p 1 % 32 ∧ (t.cab p).cphase = appliedWord s p 3 % 256 ∧ (∀ q, q ≠ p → t.cab q = s.cab q) ∧ Frame [.free, .cabs] s t) ∧
  (∀ (s : State) (p : Nat), p < 32 → (s.rem p).linkLost = false → (s.rem p).zeroCur = false → (appliedWord s p 1).testBit 15 = false →
    Ends (.cabinetCommandApply p) s fun t => (t.cab p).delta = 0 ∧ Frame [.free, .cabs] s t) ∧
  (∀ (s : State) (p : Nat), 32 ≤ p → exec (.cabinetCommandApply p) s = .next s ∧ exec (.ditherStep p) s = .next s) ∧
  (∀ (s : State) (p : Nat), p < 32 → (s.rem p).tickKnown = true → (s.rem p).applied ≠ [] → (s.rem p).tick % 65536 = 0 →
    Ends (.ditherStep p) s fun t => t.cab p = { s.cab p with dith := dithSeed (appliedWord s p 2), dithOk := true } ∧ Frame [.cabs] s t) ∧
  (∀ (s : State) (p : Nat), p < 32 → (s.rem p).tickKnown = true → (s.rem p).applied ≠ [] → (s.rem p).tick % 65536 ≠ 0 → (s.cab p).dithOk = true →
    Ends (.ditherStep p) s fun t => t.cab p = { s.cab p with dith := dithStep (s.cab p).dith } ∧ Frame [.cabs] s t) ∧
  (∀ (s : State) (p : Nat), (s.rem p).tickKnown = false → exec (.ditherStep p) s = .next s)

/-- Cable models update every 20th tick, judge their sensors, and the same set of ceilings is staged in both halves. (R310, R311, R319, R320, R321, R322, R323, R324, R335, R338)
Where the spec leaves a point open, the clauses follow the model's choice in log entries 34, 35. -/
def Obligations.CableModelsAndCeilings : Prop :=
  (∀ (s : State) (h : Half), s.tick h % 20 ≠ 0 ∨ (s.hf h).thm.set.map (·.1) = some (s.tick h) → exec (.thermalUpdate h) s = .next s) ∧
  (∀ (s : State) (h : Half), s.tick h % 20 = 0 → (s.hf h).thm.set.map (·.1) ≠ some (s.tick h) →
    Ends (.thermalUpdate h) s fun t => (∃ l, (t.hf h).thm.set = some (s.tick h, l) ∧ l.length = 64 ∧ ∀ m < 64, l.getD m 0 = (t.model h m).ceil) ∧
        (∀ m < 64, s.modelEn h m = false → (t.model h m).active = false ∧ (t.model h m).ceil = 0) ∧
        (∀ m < 64, s.modelEn h m = true → (s.model h m).dataPending = true → (t.model h m).ceil = 0) ∧ (t.hf h).thm.go = false ∧ (t.hf h).thm.rx = none ∧ t.free = s.free + 64 ∧
        Frame (.free :: .regs .thm :: .thm h :: bothMbx) s t) ∧
  (∀ (s : State) (h : Half) (n : Nat) (l : List Nat), s.charge = some h → (s.hf h).thm.set = some (n, l) → s.twinUp h = true → n + 9 ≤ s.tick h →
    Ends (.ceilingSend true) s fun t => (t.hf (other h)).thm = { (s.hf (other h)).thm with rx := some (s.ceilSet h l), go := true } ∧
        (t.hf h).thm = { (s.hf h).thm with set := some (n, s.ceilSet h l), go := true } ∧
        Frame [.regs .thm, .thm .A, .thm .B] s t) ∧
  (∀ (s : State) (h : Half), s.charge = some h → s.twinUp h = false → exec (.ceilingSend true) s = .next s ∧ exec (.ceilingSend false) s = .next s) ∧
  (∀ (s : State) (h : Half) (n : Nat) (l : List Nat), s.twinUp h = false → (s.hf h).thm.set = some (n, l) → n + 9 ≤ s.tick h →
    Ends (.ceilingStage h) s fun t => (∀ m < 64, (t.model h m).staged = (s.ceilSet h l).getD m 0 ∧ (t.stage h (192 + m)).pend = some ((s.ceilSet h l).getD m 0 : Int)) ∧ (t.hf h).thm.set = none ∧
        (t.hf (other h)).stg = (s.hf (other h)).stg ∧ Frame [.stg h, .thm h] s t) ∧
  (∀ (s : State) (h : Half) (l : List Nat), s.twinUp h = true → (s.hf h).thm.go = true → s.charge = some (other h) → (s.hf h).thm.rx = some l →
    Ends (.ceilingStage h) s fun t => (∀ m < 64, (t.model h m).staged = (s.ceilSet h l).getD m 0 ∧ (t.stage h (192 + m)).pend = some ((s.ceilSet h l).getD m 0 : Int)) ∧ Frame [.stg h, .thm h] s t) ∧
  (∀ (s : State) (h : Half) (m : Nat), m < 64 →
    Ends (.predictionDataComplete h m) s fun t => t.model h m = { s.model h m with dataPending := false } ∧ Frame [.thm h] s t) ∧
  (∀ (s : State) (h : Half) (m : Nat), m < 64 → s.modelEn h m = true → (s.model h m).active = false →
    Ends (.modelInit h m) s fun t => t.model h m = { s.model h m with active := true, t := initTemps s h m } ∧ Frame [.thm h] s t) ∧
  (∀ (s : State) (h : Half) (m : Nat), s.modelEn h m = false ∨ (s.model h m).active = true → exec (.modelInit h m) s = .next s) ∧
  (∀ (s : State) (h : Half) (m k : Nat) (q : SensS), q = look {} (s.model h m).sens k → q.broken = true → 1000 ≤ q.good → s.charge = some h →
    Ends (.sensorRecovered h m k) s fun t => look {} (t.model h m).sens k = { q with broken := false, good := 0, far := 0, near := 0 } ∧ Raised t h 1 0x0801 [m, k, 2] ∧
        Frame (.thm h :: bothMbx) s t) ∧
  (∀ (s : State) (h : Half) (m k : Nat) (q : SensS), q = look {} (s.model h m).sens k → k < 2 → q.broken = false → q.suspect = false → 1000 ≤ q.far → s.charge = some h →
    Ends (.sensorSuspect h m k) s fun t => look {} (t.model h m).sens k = { q with suspect := true, far := 0, near := 0 } ∧ Raised t h 1 0x0801 [m, k, 3] ∧
        t.rg .thm h (0x100 * m + 0xCC) = BitVec.ofNat 32 (min 0xFFFFFFFF ((s.rg .thm h (0x100 * m + 0xCC)).toNat + 1)) ∧ Frame (.regs .thm :: .thm h :: bothMbx) s t) ∧
  (∀ (s : State) (h : Half) (m k : Nat) (q : SensS), q = look {} (s.model h m).sens k → k < 2 → q.suspect = true → 10000 ≤ q.near → s.charge = some h →
    Ends (.sensorSuspectCleared h m k) s fun t => look {} (t.model h m).sens k = { q with suspect := false, far := 0, near := 0 } ∧ Raised t h 1 0x0801 [m, k, 4] ∧
        Frame (.thm h :: bothMbx) s t) ∧
  (∀ (s : State) (h : Half) (m : Nat), (s.model h m).coolOut = true → 1000 ≤ (s.model h m).coolOk → s.charge = some h →
    Ends (.coolantRangeCleared h m) s fun t => t.model h m = { s.model h m with coolOut := false, coolOk := 0 } ∧ Raised t h 1 0x0802 [m, 0] ∧ Frame (.thm h :: bothMbx) s t) ∧
  (∀ (s : State) (h : Half) (m : Nat), (s.model h m).coolOk < 1000 → exec (.coolantRangeCleared h m) s = .next s)

/-- The device throttles, derates, holds flash writes and starts the safe stop by its own temperature. (R326, R327, R329, R330, R333, R334)
Where the spec leaves a point open, the clauses follow the model's choice in log entries 35, 36, 60. -/
def Obligations.DeviceTemperature : Prop :=
  (∀ (s : State) (h : Half) (n : Int) (l : List Nat), s.due h (s.hf h).thm.tjAt 20 = true → n ≤ (s.hf h).thm.diode → (s.hf h).thm.diode < 10000 → -3000 ≤ (s.hf h).thm.diode → (s.hf h).thm.step = 0 →
    (s.hf h).thm.flashHold = false → s.therm.stop = none →
    Ends (.tjEstimate h n l) s fun t => (t.hf h).thm.tj = (s.hf h).thm.diode ∧ (t.hf h).thm.powers = l.take 6 ∧ (t.hf h).thm.hot = 0 ∧ (t.hf h).thm.step = 0 ∧
        t.therm = s.therm ∧ Frame [.thm h] s t) ∧
  (∀ (s : State) (h : Half) (l : List Nat), s.due h (s.hf h).thm.tjAt 20 = true → (s.hf h).thm.diode ≤ 10400 → (s.hf h).thm.step = 1 → (s.hf h).thm.flashHold = false → s.therm.stop = none →
    Ends (.tjEstimate h 10400 l) s fun t => (t.hf h).thm.tj = 10400 ∧ (t.hf h).thm.step = 2 ∧ Raised t h 1 0x0803 ([1, 2] ++ leInt 2 10400) ∧
        Frame (.thm h :: bothMbx) s t) ∧
  (∀ (s : State) (h : Half) (n : Int) (l : List Nat), s.due h (s.hf h).thm.tjAt 20 = false → exec (.tjEstimate h n l) s = .next s) ∧
  (∀ (s : State) (h : Half) (n : Int) (l : List Nat), s.due h (s.hf h).thm.tjAt 20 = true → 12500 ≤ n → (s.hf h).thm.diode ≤ n → (s.hf h).thm.hot = 1 → s.therm.stop = none →
    Ends (.tjEstimate h n l) s fun t => (t.hf h).thm.tj = n ∧ (t.hf h).thm.hot = 2 ∧ (∀ k, (t.hf k).cnp.stopAll = true) ∧ t.therm.stop = some (s.tick h, h) ∧ t.therm.doer = s.charge ∧
        Raised t h 1 0x0803 ([5, 1] ++ leInt 2 n) ∧ Frame (.free :: .cnp .A :: .cnp .B :: .thm h :: .therm :: .saf :: bothMbx) s t) ∧
  (∀ (s : State) (h : Half) (d : Int), s.due h (s.hf h).thm.diodeAt 2000 = true →
    Ends (.tjDiodeReset h d) s fun t => (t.hf h).thm = { (s.hf h).thm with diode := d, diodeAt := some (s.tick h) } ∧ Frame [.thm h] s t) ∧
  (∀ (s : State) (h : Half) (d : Int), s.due h (s.hf h).thm.diodeAt 2000 = false → exec (.tjDiodeReset h d) s = .next s) ∧
  (∀ (s : State) (h : Half) (v : Nat), (s.hf h).thm.below = some v → 0 < (s.hf h).thm.step → v + 20000 ≤ s.tick h →
    Ends (.throttleExit h) s fun t => (t.hf h).thm = { (s.hf h).thm with step := (s.hf h).thm.step - 1, below := none } ∧
        Raised t h 1 0x0803 ([1, (s.hf h).thm.step - 1] ++ leInt 2 (s.hf h).thm.tj) ∧ Frame (.thm h :: bothMbx) s t) ∧
  (∀ (s : State) (h : Half), (s.hf h).thm.below = none → exec (.throttleExit h) s = .next s) ∧
  (∀ (s : State) (h : Half) (n : Nat), s.due h (s.hf h).thm.derateAt 20000 = true → 11000 ≤ (s.hf h).thm.tj →
    n = max (min (s.hf h).thm.derate (s.rf .thm h 0x4004 31 24)) ((s.hf h).thm.derate - s.rf .thm h 0x4004 23 16) →
    n ≠ (s.hf h).thm.derate → Ends (.derateUpdate h) s fun t => (t.hf h).thm = { (s.hf h).thm with derate := n, derateAt := some (s.tick h) } ∧
        Raised t h 1 0x0803 ([2, n] ++ leInt 2 (s.hf h).thm.tj) ∧ Frame (.thm h :: bothMbx) s t) ∧
  (∀ (s : State) (h : Half) (n : Nat), s.due h (s.hf h).thm.derateAt 20000 = true → (s.hf h).thm.tj < 10700 → (s.hf h).thm.otherTj < 10700 →
    n = min 100 ((s.hf h).thm.derate + s.rf .thm h 0x4004 23 16) → n ≠ (s.hf h).thm.derate →
    Ends (.derateUpdate h) s fun t => (t.hf h).thm = { (s.hf h).thm with derate := n, derateAt := some (s.tick h) } ∧
        Raised t h 1 0x0803 ([2, n] ++ leInt 2 (s.hf h).thm.tj) ∧ Frame (.thm h :: bothMbx) s t) ∧
  (∀ (s : State) (h : Half), s.due h (s.hf h).thm.derateAt 20000 = true → (s.hf h).thm.tj < 10700 → (s.hf h).thm.otherTj < 10700 → (s.hf h).thm.derate = 100 →
    Ends (.derateUpdate h) s fun t => (t.hf h).thm = { (s.hf h).thm with derateAt := some (s.tick h) } ∧ Frame [.thm h] s t) ∧
  (∀ (s : State) (h : Half), s.due h (s.hf h).thm.derateAt 20000 = false → exec (.derateUpdate h) s = .next s) ∧
  (∀ (s : State) (h : Half) (v : Nat), (s.hf h).thm.flashHold = true → (s.hf h).thm.flashOk = some v → v + 20000 ≤ s.tick h → s.holdup = false →
    Ends (.flashWriteResume h) s fun t => (t.hf h).thm = { (s.hf h).thm with flashHold := false, flashOk := none, buf := 0 } ∧
        Raised t h 1 0x0803 ([3, 0] ++ leInt 2 (s.hf h).thm.tj) ∧ Frame (.thm h :: bothMbx) s t) ∧
  (∀ (s : State) (x : Int), x < 0 ∨ 4500 < x → -4000 ≤ x → x ≤ 10000 → s.therm.bntc.broken = false → s.therm.bntc.inhibit = false →
    Ends (.bntcSample x) s fun t => t.therm.bntc.t = x ∧ t.therm.bntc.inhibit = true ∧ t.therm.bntc.broken = false ∧ Frame (.therm :: bothMbx) s t) ∧
  (∀ (s : State) (x : Int), 0 ≤ x → x ≤ 4500 → s.therm.bntc.broken = false → s.therm.bntc.inhibit = false →
    Ends (.bntcSample x) s fun t => t.therm = { s.therm with bntc := { t := x } } ∧ Frame [.therm] s t) ∧
  (∀ (s : State) (x : Int), x < -4000 ∨ 10000 < x → Ends (.bntcSample x) s fun t => t.therm.bntc.broken = true ∧ t.therm.bntc.inhibit = true ∧ t.therm.bntc.t = x ∧
    Frame (.therm :: bothMbx) s t)

/-- A vehicle session is plugged, matched, authorized and ended in the states and for the reasons of R351 to R356. (R347, R348, R350, R351, R354, R355, R356, R357)
Where the spec leaves a point open, the clauses follow the model's choice in log entries 52, 55, 56, 57, 58, 59, 128. -/
def Obligations.VehicleSessionStates : Prop :=
  (∀ (s : State) (k : Nat) (x : Half), k < 48 → s.charge = some x → (s.veh1 k).c.st = 0 → bitAt (s.vcfg k 0) 31 = true → 2 ≤ (s.veh1 k).pilotN →
    look none s.bil.core.sess k = none →
    Ends (.pilotStateChange k) s fun t => (t.veh1 k).c.st = 1 ∧ (t.veh1 k).c.num = s.vehG.next ∧ t.vehG.next = (s.vehG.next + 1) % 2 ^ 32 ∧ (t.veh1 k).c.plugged = s.now ∧
        (t.veh1 k).c.reason = 0 ∧ (t.veh1 k).c.lastV = (s.veh1 k).c.lastV ∧ ((∀ e ∈ s.veh, e.2.c.tls ≠ 1) → ∀ j, j ≠ k → t.veh1 j = s.veh1 j) ∧ Raised t x 0 0x0902 ([k, 1, 0, 0] ++ le 4 s.vehG.next) ∧ Frame (.veh :: .vehG :: .bil :: bothMbx) s t) ∧
  (∀ (s : State) (k : Nat) (x : Half), k < 48 → s.charge = some x → 5 ≤ (s.veh1 k).c.st → (s.veh1 k).c.st ≤ 7 → (s.veh1 k).pilot = 0 → (s.veh1 k).c.reason = 0 →
    Ends (.pilotStateChange k) s fun t => (t.veh1 k).c.st = 8 ∧ (t.veh1 k).c.reason = 3 ∧ (t.veh1 k).c.since = s.now ∧ Frame (.veh :: bothMbx) s t) ∧
  (∀ (s : State) (k : Nat) (x : Half), k < 48 → s.charge = some x → (s.veh1 k).c.st = 10 → (s.veh1 k).pilot = 0 →
    Ends (.pilotStateChange k) s fun t => (t.veh1 k).c.st = 0 ∧ Frame (.veh :: bothMbx) s t) ∧
  (∀ (s : State) (k : Nat), s.charge = none → exec (.pilotStateChange k) s = .next s ∧ (∀ n l, exec (.slacMessage k n l) s = .next s) ∧ (∀ n, exec (.slacMatch k n) s = .next s) ∧
    (∀ m, exec (.vehicleMessage k m) s = .next s) ∧ (∀ b, exec (.sessionStateTimeout k b) s = .next s) ∧ (∀ n, exec (.sessionStop k n) s = .next s)) ∧
  (∀ (s : State) (k n : Nat) (l : List (List Nat)) (x : Half), k < 48 → s.charge = some x → bitAt (s.vcfg k 0) 30 = false → (s.veh1 k).slac = [] → s.twinUp x = true →
    Ends (.slacMessage k n l) s fun t => (t.veh1 k).slac = [(n, (l.map List.sum).sum, (l.map List.length).sum, s.now)] ∧ (t.veh1 k).c = (s.veh1 k).c ∧
        (t.veh1 k).outq.length = (s.veh1 k).outq.length + 1 ∧
        (∀ j, j ≠ k → t.veh1 j = s.veh1 j) ∧ Frame [.free, .veh] s t) ∧
  (∀ (s : State) (k n : Nat) (l : List (List Nat)) (x : Half), k < 48 → s.charge = some x → bitAt (s.vcfg k 0) 30 = false → s.twinUp x = false →
    Ends (.slacMessage k n l) s fun t => (t.veh1 k).mir = none ∧ (t.veh1 k).outq = (s.veh1 k).outq ∧
        (look {} (t.port x (32 + k)).tx 0x40).msgs.length = (look {} (s.port x (32 + k)).tx 0x40).msgs.length + 1 ∧ Frame [.free, .ports x, .veh] s t) ∧
  (∀ (s : State) (k n : Nat) (x : Half), s.charge = some x → (s.veh1 k).c.st = 1 → bitAt (s.vcfg k 0) 30 = false → s.slacOk k n = true →
    Ends (.slacMatch k n) s fun t => (t.veh1 k).c.st = 2 ∧ (t.veh1 k).c.nmk.isSome = true ∧ (t.veh1 k).c.num = (s.veh1 k).c.num ∧ s.free + 3056 ≤ t.free ∧
        Frame (.free :: .ports x :: .veh :: .lkt :: bothMbx) s t) ∧
  (∀ (s : State) (k : Nat) (id : List Nat) (x : Half), k < 48 → s.charge = some x → (s.veh1 k).c.st = 2 → (s.veh1 k).c.reason = 0 → (∀ key, (s.veh1 k).c.key = some key → s.keyUsable key = true) → (s.veh1 k).c.proto ≠ 0 →
    (s.veh1 k).c.tls = 3 ∨ needsTls (s.vcfg k 0) (s.veh1 k).c.proto = false →
    Ends (.vehicleMessage k (.setup id)) s fun t => (t.veh1 k).c.st = 3 ∧ (t.veh1 k).c.evccid = padTo 22 id ∧
        Frame (.free :: .ports x :: .veh :: bothMbx) s t) ∧
  (∀ (s : State) (k : Nat) (x : Half), k < 48 → s.charge = some x → (s.veh1 k).c.st = 6 → (s.veh1 k).c.reason = 0 → (∀ key, (s.veh1 k).c.key = some key → s.keyUsable key = true) →
    Ends (.vehicleMessage k .powerStart) s fun t => (t.veh1 k).c.st = 7 ∧ Frame (.free :: .ports x :: .veh :: bothMbx) s t) ∧
  (∀ (s : State) (k : Nat) (l : VehLim) (m : VehLimS) (x : Half), k < 48 → s.charge = some x → (s.veh1 k).c.st = 7 → (s.veh1 k).c.reason = 0 → (∀ key, (s.veh1 k).c.key = some key → s.keyUsable key = true) → limConv l = some m →
    Ends (.vehicleMessage k (.chargeLoop l)) s fun t => (t.veh1 k).c.st = 7 ∧ (t.veh1 k).c.lim = m ∧ (t.veh1 k).c.msgTick = s.now ∧
        Frame [.free, .ports x, .veh] s t) ∧
  (∀ (s : State) (k : Nat) (x : Half), k < 48 → s.charge = some x → (s.veh1 k).c.st = 7 → (s.veh1 k).c.reason = 0 → (∀ key, (s.veh1 k).c.key = some key → s.keyUsable key = true) →
    (Ends (.vehicleMessage k .stop) s fun t => (t.veh1 k).c.st = 8 ∧ (t.veh1 k).c.reason = 1 ∧ Frame (.free :: .ports x :: .veh :: bothMbx) s t) ∧
        (Ends (.vehicleMessage k .bad) s fun t => (t.veh1 k).c.st = 8 ∧ (t.veh1 k).c.reason = 7 ∧ Frame (.free :: .ports x :: .veh :: bothMbx) s t)) ∧
  (∀ (s : State) (k : Nat) (m : VehMsg), (s.veh1 k).c.st < 2 ∨ 8 ≤ (s.veh1 k).c.st ∨ (s.veh1 k).c.reason = 0x10 ∨ (∃ key, (s.veh1 k).c.key = some key ∧ s.keyUsable key = false) →
    exec (.vehicleMessage k m) s = .next s) ∧
  (∀ (s : State) (k : Nat) (x : Half), s.charge = some x → (s.veh1 k).c.st = 3 → (s.veh1 k).c.reason = 0 →
    (s.veh1 k).c.since + 20000 * fld (s.vcfg k 0) 15 8 ≤ s.now →
    Ends (.sessionStateTimeout k false) s fun t => (t.veh1 k).c.st = 10 ∧ (t.veh1 k).c.reason = 5 ∧ (t.veh1 k).stops = [] ∧ (t.veh1 k).c.key = none ∧ Frame (.free :: .veh :: .lkt :: bothMbx) s t) ∧
  (∀ (s : State) (k : Nat) (x : Half), s.charge = some x → (s.veh1 k).c.st = 7 → (s.veh1 k).c.reason = 0 →
    Ends (.sessionStateTimeout k true) s fun t => (t.veh1 k).c.st = 8 ∧ (t.veh1 k).c.reason = 7 ∧ Frame (.veh :: bothMbx) s t) ∧
  (∀ (s : State) (k n : Nat) (x : Half), s.charge = some x → s.causeHolds k n = true → 5 ≤ (s.veh1 k).c.st → (s.veh1 k).c.st ≤ 7 → (s.veh1 k).c.reason = 0 →
    Ends (.sessionStop k n) s fun t => (t.veh1 k).c.st = 8 ∧ (t.veh1 k).c.reason = n ∧ Frame (.veh :: bothMbx) s t) ∧
  (∀ (s : State) (k n : Nat) (x : Half), s.charge = some x → s.causeHolds k n = true → 5 ≤ (s.veh1 k).c.st → (s.veh1 k).c.st ≤ 7 → (s.veh1 k).c.reason ≠ 0 →
    Ends (.sessionStop k n) s fun t => (t.veh1 k).c.st = 8 ∧ (t.veh1 k).c.reason = (s.veh1 k).c.reason ∧ Frame (.veh :: bothMbx) s t) ∧
  (∀ (s : State) (k n : Nat), s.causeHolds k n = false → exec (.sessionStop k n) s = .next s) ∧
  (∀ (s : State) (k : Nat), (s.veh1 k).c.st = 8 → 4 ≤ (s.veh1 k).lowN ∨ (s.veh1 k).c.since + 500 ≤ s.now →
    Ends (.stoppingComplete k) s fun t => (t.veh1 k).c.st = 9 ∧ (t.veh1 k).lowN = 0 ∧ (t.veh1 k).c.reason = (s.veh1 k).c.reason ∧ Frame (.veh :: bothMbx) s t) ∧
  (∀ (s : State) (k : Nat), (s.veh1 k).c.st ≠ 8 → exec (.stoppingComplete k) s = .next s) ∧
  (∀ (s : State) (k : Nat) (v : Int), (s.veh1 k).c.st = 9 → (s.veh1 k).vout = some v → v < 60000 →
    Ends (.weldCheckComplete k) s fun t => (t.veh1 k).c.st = 10 ∧ (t.veh1 k).c.weld = ((s.veh1 k).c.weld || (s.veh1 k).dstat.testBit 7) ∧ (t.veh1 k).stops = [] ∧
        (t.veh1 k).c.key = none ∧ (t.veh1 k).c.nmk = none ∧ Frame (.free :: .veh :: .lkt :: bothMbx) s t) ∧
  (∀ (s : State) (k n : Nat), (s.veh1 k).c.told = some n → (s.veh1 k).c.st = 7 → n + 40000 ≤ s.now → (s.veh1 k).c.reason ≠ 0 →
    Ends (.vehicleStopGraceExpiry k) s fun t => (t.veh1 k).c.st = 8 ∧ (t.veh1 k).c.reason = (s.veh1 k).c.reason ∧ Frame (.veh :: bothMbx) s t) ∧
  (∀ (s : State) (k : Nat), (s.veh1 k).c.told = none → exec (.vehicleStopGraceExpiry k) s = .next s) ∧
  (∀ (s : State) (k : Nat) (x : Half), s.charge = some x → s.coolStop k = true → (s.model x (fld (s.ocfg x k 0) 14 8)).coolAt + 1200000 ≤ s.now → (s.veh1 k).c.st = 7 →
    (s.veh1 k).c.reason = 0 →
    Ends (.coolantSessionTimeout k) s fun t => (t.veh1 k).c.st = 8 ∧ (t.veh1 k).c.reason = 0x0B ∧ Frame (.veh :: bothMbx) s t) ∧
  (∀ (s : State) (k : Nat), s.coolStop k = false → exec (.coolantSessionTimeout k) s = .next s)

/-- Vehicle limits are staged for Canopy, dispenser commands apply at their edge, and the VEH verbs act on open sessions. (R345, R346, R352, R353, R354, R355, R357, R359, R360)
Where the spec leaves a point open, the clauses follow the model's choice in log entries 43, 59. -/
def Obligations.VehicleLimitsAndVerbs : Prop :=
  (∀ (s : State) (h : Half) (b : Bool), s.charge = some h → s.twinUp h = false → s.tick h % 20 = 19 → s.vehG.late = [] →
    Ends (.vehicleLimitsStage b) s fun t => (∀ k < 48, ∀ j < 4, 1 ≤ (s.veh1 k).c.st → (s.veh1 k).c.st ≤ 9 → (t.stage h (4 * k + j)).pend = some ((s.vehEntries k).getD j 0)) ∧
        (t.hf (other h)).stg = (s.hf (other h)).stg ∧ Frame [.stg h, .veh] s t) ∧
  (∀ (s : State) (h : Half), s.charge = some h → s.twinUp h = true → s.tick h % 20 = 19 → s.vehG.late = [] →
    Ends (.vehicleLimitsStage false) s fun t => t.vehG = { s.vehG with late := s.vehSet } ∧ Frame [.vehG] s t) ∧
  (∀ (s : State) (h : Half) (b : Bool), s.charge = some h → s.tick h % 20 ≠ 19 → s.vehG.late = [] → exec (.vehicleLimitsStage b) s = .next s) ∧
  (∀ (s : State) (h : Half) (k n : Nat), s.charge = some h → k < 48 → 4 ≤ n →
    Ends (.dcmdSend k n) s fun t => (∃ m, (look {} (t.port h (32 + k)).tx 0x43).msgs = (look {} (s.port h (32 + k)).tx 0x43).msgs ++ [m] ∧
        m.bytes = dcmdMsg (((s.veh1 k).cmdSeq + 1) % 65536) (s.tick h + n) (s.actOf k) (s.freeVal 0 % 2 ^ 32)) ∧
        (t.veh1 k).cmdSeq = ((s.veh1 k).cmdSeq + 1) % 65536 ∧ (t.veh1 k).c.act = s.actOf k ∧ (t.veh1 k).c.st = (s.veh1 k).c.st ∧ t.free = s.free + 1 ∧
        Frame [.free, .ports h, .veh] s t) ∧
  (∀ (s : State) (k n : Nat), n < 4 → exec (.dcmdSend k n) s = .next s) ∧
  (∀ (s : State) (k : Nat) (d : Dcmd) (l : List Dcmd), (s.rem (32 + k)).dcmds = d :: l → d.edge ≤ (s.rem (32 + k)).tick → (s.rem (32 + k)).linkLost = false →
    Ends (.dcmdApply k) s fun t => (t.rem (32 + k)).dcmds = l ∧ (t.rem (32 + k)).cmdSeq = d.seq ∧ (t.rem (32 + k)).act = d.act ∧ (t.rem (32 + k)).ov = d.ov ∧
        (d.act.testBit 0 = false → (t.rem (32 + k)).contactors = 0) ∧ (∀ p, p ≠ 32 + k → t.rem p = s.rem p) ∧ Frame [.rems] s t) ∧
  (∀ (s : State) (k : Nat) (d : Dcmd) (l : List Dcmd), (s.rem (32 + k)).dcmds = d :: l → d.edge ≤ (s.rem (32 + k)).tick → (s.rem (32 + k)).linkLost = true →
    Ends (.dcmdApply k) s fun t => t.rem (32 + k) = { s.rem (32 + k) with dcmds := l } ∧ (∀ p, p ≠ 32 + k → t.rem p = s.rem p) ∧ Frame [.rems] s t) ∧
  (∀ (s : State) (k : Nat), (s.rem (32 + k)).dcmds = [] → exec (.dcmdApply k) s = .next s) ∧
  (∀ (s : State) (k n : Nat), (s.veh1 k).c.key = some n → s.keyUsable n = false → (s.veh1 k).c.st = 7 → (s.veh1 k).c.reason = 0 →
    Ends (.sessionKeyOrphaned k) s fun t => (t.veh1 k).outq = [] ∧ (t.veh1 k).c.st = 8 ∧ (t.veh1 k).c.reason = 0x10 ∧ Frame (.veh :: bothMbx) s t) ∧
  (∀ (s : State) (k : Nat), (s.veh1 k).c.key = none → exec (.sessionKeyOrphaned k) s = .next s) ∧
  (∀ (s : State) (h : Half) (k : Nat) (m : VehC), s.charge = some h → k < 48 → 1 ≤ (s.veh1 k).c.st → (s.veh1 k).c.st ≤ 9 → (s.veh1 k).mir = some m → m.num = (s.veh1 k).c.num →
    Ends (.sessionFailoverResume h) s fun t => { (t.veh1 k).c with tls := m.tls } = m ∧ (t.veh1 k).outq = [] ∧ (t.veh1 k).kept = (s.veh1 k).kept ∧ (t.veh1 k).mir = none ∧ Frame (.free :: .veh :: .lkt :: bothMbx) s t) ∧
  (∀ (s : State) (h : Half) (k : Nat), s.charge = some h → k < 48 → 5 ≤ (s.veh1 k).c.st → (s.veh1 k).c.st ≤ 7 → (∀ m, (s.veh1 k).mir = some m → m.num ≠ (s.veh1 k).c.num) →
    (s.veh1 k).c.reason = 0 →
    Ends (.sessionFailoverResume h) s fun t => (t.veh1 k).c.st = 8 ∧ (t.veh1 k).c.reason = 0x11 ∧ (t.veh1 k).kept = [] ∧ (t.veh1 k).outq = [] ∧ Frame (.free :: .veh :: .lkt :: bothMbx) s t) ∧
  (∀ (s : State) (h : Half), s.charge ≠ some h → exec (.sessionFailoverResume h) s = .next s) ∧
  (∀ (s : State) (h : Half) (k : Nat), s.charge = some h → s.twinUp h = true →
    Ends (.sessionMirrorAck k) s fun t => t.veh1 k = { s.veh1 k with mir := some (s.veh1 k).c, outq := [], kept := [] } ∧ Frame [.ports h, .veh] s t) ∧
  (∀ (s : State) (o : Org) (x : Half) (r k n : Nat), RunsAt s o 0x0901 x r → r ∈ [rOperator, rInstaller, rVendor] → k < 48 → s.openAs k n = true → (s.veh1 k).c.st = 3 → (s.veh1 k).c.path = 3 →
    Ends (.vehAuth o k 3 n) s fun t => AnsweredWith t o 0x0901 stOk true [] ∧ (t.veh1 k).c.st = 4 ∧ (t.veh1 k).c.granted = 3 ∧ (t.veh1 k).c.disch = true ∧
        Frame (.veh :: bothMbx) s t) ∧
  (∀ (s : State) (o : Org) (x : Half) (r k f n : Nat), RunsAt s o 0x0901 x r → r ∈ [rOperator, rInstaller, rVendor] → k < 48 → f < 4 → s.openAs k n = false →
    Ends (.vehAuth o k f n) s fun t => AnsweredWith t o 0x0901 0x0901 true [] ∧ Frame [.mbx o.half] s t) ∧
  (∀ (s : State) (o : Org) (x : Half) (r k n : Nat), RunsAt s o 0x0902 x r → r ∈ [rOperator, rInstaller, rVendor] → k < 48 → s.openAs k n = true → (s.veh1 k).c.st = 7 → (s.veh1 k).c.told = none →
    (s.veh1 k).c.reason = 0 →
    Ends (.vehStop o k n) s fun t => AnsweredWith t o 0x0902 stPending false [] ∧ (t.veh1 k).stops = (s.veh1 k).stops ++ [o] ∧ (t.veh1 k).c.told = some s.now ∧
        (t.veh1 k).c.reason = 2 ∧ (t.veh1 k).c.st = 7 ∧ Frame [.veh, .mbx o.half] s t) ∧
  (∀ (s : State) (o : Org) (x : Half) (r k n : Nat), RunsAt s o 0x0902 x r → r ∈ [rOperator, rInstaller, rVendor] → k < 48 → s.openAs k n = true → 8 ≤ (s.veh1 k).c.st →
    Ends (.vehStop o k n) s fun t => AnsweredWith t o 0x0902 0x0902 true [] ∧ Frame [.mbx o.half] s t) ∧
  (∀ (s : State) (o : Org) (x : Half) (r n : Nat) (id : List Nat), RunsAt s o 0x0903 x r → r ∈ [rOperator, rInstaller] → 1 ≤ n → n ≤ 3 →
    (n, padTo 22 id) ∉ s.vehG.lists → s.vehG.lists.length < 4096 → s.flashFull x 128 = false →
    Ends (.vehList o 1 n id) s fun t => t.vehG = { s.vehG with lists := s.vehG.lists ++ [(n, padTo 22 id)] } ∧ AnsweredWith t o 0x0903 stOk true [] ∧
        Frame [.vehG, .thm x, .mbx o.half] s t) ∧
  (∀ (s : State) (o : Org) (x : Half) (r n : Nat) (id : List Nat), RunsAt s o 0x0903 x r → r ∈ [rOperator, rInstaller] → 1 ≤ n → n ≤ 3 → s.flashFull x 128 = false →
    Ends (.vehList o 0 n id) s fun t => (n, padTo 22 id) ∉ t.vehG.lists ∧ AnsweredWith t o 0x0903 stOk true [] ∧ Frame [.vehG, .mbx o.half] s t) ∧
  (∀ (s : State) (o : Org) (x : Half) (r a n : Nat) (id : List Nat), RunsAt s o 0x0903 x r → r ∈ [rOperator, rInstaller] → a < 2 → 1 ≤ n → n ≤ 3 → s.flashFull x 128 = true →
    Ends (.vehList o a n id) s fun t => AnsweredWith t o 0x0903 stTempWriteHeld true [] ∧ Frame [.mbx o.half] s t) ∧
  (∀ (s : State) (o : Org) (x : Half) (r k : Nat), RunsAt s o 0x0904 x r → r ∈ rAny → k < 48 →
    Ends (.vehStatus o k) s fun t => AnsweredWith t o 0x0904 stOk true ([(s.veh1 k).c.st, (s.veh1 k).c.reason, (s.veh1 k).c.proto, 0] ++ le 4 (s.veh1 k).c.num) ∧
        Frame [.mbx o.half] s t) ∧
  (∀ (s : State) (o : Org) (x : Half) (r k : Nat), RunsAt s o 0x0904 x r → r ∈ rAny → 48 ≤ k →
    Ends (.vehStatus o k) s fun t => AnsweredWith t o 0x0904 stRange true [] ∧ Frame [.mbx o.half] s t)

/-- DC samples and AC blocks are integrated, substituted and closed as gaps as R366 to R374 say, and whole mWh move into the registers. (R366, R367, R368, R372, R373, R374, R378, R393, R396)
Where the spec leaves a point open, the clauses follow the model's choice in log entry 46. -/
def Obligations.EnergyIntegration : Prop :=
  (∀ (s : State) (k : Nat), s.srcEn k = false ∨ 48 ≤ k ∨ s.met.battery ≠ 0 ∨ (s.meter k).closed = some s.now → exec (.meteringSampleClose k) s = .next s) ∧
  (∀ (s : State) (k : Nat) (c : MetCopy) (v i p lss : Int) (pc : Nat), s.srcEn k = true → k < 48 → s.met.battery = 0 → (s.meter k).closed ≠ some s.now →
    (s.meterCopies k).find? (s.copyOk k) = some c →
    v = delayed (intAt c.bytes 10 3 :: (s.meter k).hist.map (·.1)) (fld (s.metw (0x10 * k)) 27 16) → i = delayed (intAt c.bytes 13 3 :: (s.meter k).hist.map (·.2)) (fld (s.metw (0x10 * k)) 11 0) →
    p = roundDiv (v * i) (2 ^ 20) → lss = roundDiv (roundDiv i 1024 * roundDiv i 1024 * fld (s.metw (0x10 * k + 4)) 31 16) 400000 →
    pc = (max 0 (p - lss)).toNat → 2 * fld (s.metw (0x10 * k + 4)) 15 0 ≤ (roundDiv i 1024).natAbs → 0 ≤ p → s.bil.dead = false →
    Ends (.meteringSampleClose k) s fun t =>
        look 0 (t.meter k).q 3 = (look 0 (s.meter k).q 3 + p.toNat) % 720000000000 ∧ look 0 (t.meter k).q 1 = (look 0 (s.meter k).q 1 + pc) % 720000000000 ∧
        look 0 (t.meter k).q 2 = look 0 (s.meter k).q 2 ∧ look 0 (t.meter k).q 4 = look 0 (s.meter k).q 4 ∧
        (look {} t.bil.core.regs (k * 256 + 1)).total = (look {} s.bil.core.regs (k * 256 + 1)).total + (look 0 (s.meter k).q 1 + pc) / 720000000000 ∧
        (look {} t.bil.core.regs (k * 256 + 3)).total = (look {} s.bil.core.regs (k * 256 + 3)).total + (look 0 (s.meter k).q 3 + p.toNat) / 720000000000 ∧
        look 0 (look {} t.bil.core.regs (k * 256 + 1)).rates s.bil.rate = look 0 (look {} s.bil.core.regs (k * 256 + 1)).rates s.bil.rate + (look 0 (s.meter k).q 1 + pc) / 720000000000 ∧
        (∀ j, j ≠ k → t.meter j = s.meter j) ∧ Frame (.free :: .regs .met :: .met :: .bil :: bothMbx) s t) ∧
  (∀ (s : State) (k : Nat) (c : MetCopy) (v i p lss : Int) (pc : Nat), s.srcEn k = true → k < 48 → s.met.battery = 0 → (s.meter k).closed ≠ some s.now →
    (s.meterCopies k).find? (s.copyOk k) = some c →
    v = delayed (intAt c.bytes 10 3 :: (s.meter k).hist.map (·.1)) (fld (s.metw (0x10 * k)) 27 16) → i = delayed (intAt c.bytes 13 3 :: (s.meter k).hist.map (·.2)) (fld (s.metw (0x10 * k)) 11 0) →
    p = roundDiv (v * i) (2 ^ 20) → lss = roundDiv (roundDiv i 1024 * roundDiv i 1024 * fld (s.metw (0x10 * k + 4)) 31 16) 400000 →
    pc = (lss - p).toNat → 2 * fld (s.metw (0x10 * k + 4)) 15 0 ≤ (roundDiv i 1024).natAbs → p < 0 → s.bil.dead = false →
    Ends (.meteringSampleClose k) s fun t =>
        look 0 (t.meter k).q 4 = (look 0 (s.meter k).q 4 + (-p).toNat) % 720000000000 ∧ look 0 (t.meter k).q 2 = (look 0 (s.meter k).q 2 + pc) % 720000000000 ∧
        look 0 (t.meter k).q 1 = look 0 (s.meter k).q 1 ∧ look 0 (t.meter k).q 3 = look 0 (s.meter k).q 3 ∧ (t.meter k).recv = true ∧
        (look {} t.bil.core.regs (k * 256 + 2)).total = (look {} s.bil.core.regs (k * 256 + 2)).total + (look 0 (s.meter k).q 2 + pc) / 720000000000 ∧ Frame (.free :: .regs .met :: .met :: .bil :: bothMbx) s t) ∧
  (∀ (s : State) (k : Nat) (c : MetCopy) (i : Int), s.srcEn k = true → k < 48 → s.met.battery = 0 → (s.meter k).closed ≠ some s.now →
    (s.meterCopies k).find? (s.copyOk k) = some c →
    i = delayed (intAt c.bytes 13 3 :: (s.meter k).hist.map (·.2)) (fld (s.metw (0x10 * k)) 11 0) → (roundDiv i 1024).natAbs < 2 * fld (s.metw (0x10 * k + 4)) 15 0 →
    Ends (.meteringSampleClose k) s fun t => (t.meter k).q = (s.meter k).q ∧ t.bil.core.regs = s.bil.core.regs ∧ (t.meter k).noload = true ∧ (t.meter k).subst = 0 ∧
        (t.meter k).gap = none ∧ Frame (.free :: .regs .met :: .met :: .bil :: bothMbx) s t) ∧
  (∀ (s : State) (k : Nat) (c : MetCopy), s.srcEn k = true → k < 48 → s.met.battery = 0 → (s.meter k).closed ≠ some s.now →
    (s.meterCopies k).find? (s.copyOk k) = some c →
    Ends (.meteringSampleClose k) s fun t => (t.meter k).v = intAt c.bytes 10 3 ∧ (t.meter k).i = intAt c.bytes 13 3 ∧ (t.meter k).closed = some s.now ∧ (t.meter k).lastTick = s.now ∧ (t.meter k).subst = 0 ∧ (t.meter k).gap = none ∧
        (headBad (numAt c.bytes 8 1) = true → (t.meter k).headErr = true ∧ (t.meter k).good = 0 ∧ t.meterErr k = true) ∧
        (headBad (numAt c.bytes 8 1) = false → (t.meter k).good = min 20000 ((s.meter k).good + 1) ∧ ((t.meter k).headErr = true ↔ (s.meter k).headErr = true ∧ (s.meter k).good + 1 < 20000)) ∧ Frame (.free :: .regs .met :: .met :: .bil :: bothMbx) s t) ∧
  (∀ (s : State) (k : Nat) (c : MetCopy) (g : GapS), s.srcEn k = true → k < 48 → s.met.battery = 0 → (s.meter k).closed ≠ some s.now →
    (s.meterCopies k).find? (s.copyOk k) = some c → (s.meter k).gap = some g → g.halted = false →
    Ends (.meteringSampleClose k) s fun t => (t.meter k).gap = none ∧
        (∀ r ∈ t.met.evlog.recs, r.num = g.num → r.typ = 1 → r.detail = min 0xFFFF (s.now - g.start) ∧ r.a = (g.pc * (s.now - g.start) + 719999999999) / 720000000000 % 2 ^ 32) ∧ Frame (.free :: .regs .met :: .met :: .bil :: bothMbx) s t) ∧
  (∀ (s : State) (k : Nat), s.srcEn k = true → k < 48 → s.met.battery = 0 → (s.meter k).closed ≠ some s.now →
    (s.meterCopies k).find? (s.copyOk k) = none → (s.meter k).subst < 3 →
    Ends (.meteringSampleClose k) s fun t => (t.meter k).subst = (s.meter k).subst + 1 ∧ (t.meter k).v = (s.meter k).v ∧ (t.meter k).i = (s.meter k).i ∧
        (t.meter k).gap = (s.meter k).gap ∧ (t.meter k).hist.head? = some ((s.meter k).v, (s.meter k).i) ∧
        (t.metw (0xA00 + 0x10 * k)).toNat = min 0xFFFFFFFF ((s.metw (0xA00 + 0x10 * k)).toNat + 1) ∧ Frame (.free :: .regs .met :: .met :: .bil :: bothMbx) s t) ∧
  (∀ (s : State) (k : Nat), s.srcEn k = true → k < 48 → s.met.battery = 0 → (s.meter k).closed ≠ some s.now →
    (s.meterCopies k).find? (s.copyOk k) = none → 3 ≤ (s.meter k).subst → (s.meter k).gap = none →
    Ends (.meteringSampleClose k) s fun t => (t.meter k).subst = (s.meter k).subst + 1 ∧ (t.meter k).q = (s.meter k).q ∧ t.bil = s.bil ∧
        (t.meter k).gap = some { num := s.met.evlog.count, start := s.now, pc := (s.meter k).pc, halted := s.noService } ∧ t.met.evlog.count = s.met.evlog.count + 1 ∧
        (t.metw (0xA04 + 0x10 * k)).toNat = min 0xFFFFFFFF ((s.metw (0xA04 + 0x10 * k)).toNat + 1) ∧ Frame (.free :: .regs .met :: .met :: .bil :: bothMbx) s t) ∧
  (∀ (s : State) (k : Nat), s.srcEn k = true → k < 48 → s.met.battery = 0 → (s.meter k).closed ≠ some s.now →
    (s.meterCopies k).find? (s.copyOk k) = none → 3 ≤ (s.meter k).subst → (s.meter k).gap ≠ none →
    Ends (.meteringSampleClose k) s fun t => t.meter k = { s.meter k with subst := (s.meter k).subst + 1, closed := some s.now } ∧ look [] t.met.copies k = [] ∧ Frame [.regs .met, .met] s t) ∧
  (∀ (s : State) (k : Nat), s.srcEn k = true → k < 48 → s.met.battery = 0 → (s.meter k).closed ≠ some s.now →
    Ends (.meteringSampleClose k) s fun t => (t.metw (0xA08 + 0x10 * k)).toNat =
        min 0xFFFFFFFF ((s.metw (0xA08 + 0x10 * k)).toNat + ((s.meterCopies k).filter fun c => !s.copyOk k c).length)) ∧
  (∀ (s : State) (i : Nat) (raw : List (List Int)) (y : Nat → Nat → Int) (S : Int) (m : MeterS), s.srcEn (0x40 + i) = true → s.met.battery = 0 → (∀ c < 7, (look [] (s.meter (0x40 + i)).chan c).length = 3 ∧ (raw.getD c []).length = 16) →
    (∀ c n, y c n = (channelOut s (7 * i + c) (look [] (s.meter (0x40 + i)).chan c) (raw.getD c [])).getD n 0) →
    S = ((List.range 16).map fun n => y 0 n * y 3 n + y 1 n * y 4 n + y 2 n * y 5 n).sum → m = s.meter (0x40 + i) →
    (∃ c, 3 ≤ c ∧ c ≤ 5 ∧ 160 * fld (s.metw (0x500 + 0x10 * i)) 15 0 ≤ ((List.range 16).map fun n => (y c n).natAbs).sum) → 0 < S → s.bil.dead = false →
    Ends (.acBlock i raw) s fun t => look 0 (t.meter (0x40 + i)).q 1 = (look 0 m.q 1 + S.toNat) % 57600000000 ∧ look 0 (t.meter (0x40 + i)).q 2 = look 0 m.q 2 ∧
        (look {} t.bil.core.regs ((0x40 + i) * 256 + 1)).total = (look {} s.bil.core.regs ((0x40 + i) * 256 + 1)).total + (look 0 m.q 1 + S.toNat) / 57600000000 ∧
        (look {} t.bil.core.ints i).energy = (look {} s.bil.core.ints i).energy + (look 0 m.q 1 + S.toNat) / 57600000000 ∧ (t.meter (0x40 + i)).recv = false ∧ Frame (.free :: .regs .met :: .met :: .bil :: bothMbx) s t) ∧
  (∀ (s : State) (i : Nat) (raw : List (List Int)) (y : Nat → Nat → Int) (S : Int) (m : MeterS), s.srcEn (0x40 + i) = true → s.met.battery = 0 → (∀ c < 7, (look [] (s.meter (0x40 + i)).chan c).length = 3 ∧ (raw.getD c []).length = 16) →
    (∀ c n, y c n = (channelOut s (7 * i + c) (look [] (s.meter (0x40 + i)).chan c) (raw.getD c [])).getD n 0) →
    S = ((List.range 16).map fun n => y 0 n * y 3 n + y 1 n * y 4 n + y 2 n * y 5 n).sum → m = s.meter (0x40 + i) →
    (∃ c, 3 ≤ c ∧ c ≤ 5 ∧ 160 * fld (s.metw (0x500 + 0x10 * i)) 15 0 ≤ ((List.range 16).map fun n => (y c n).natAbs).sum) → S < 0 → s.bil.dead = false →
    Ends (.acBlock i raw) s fun t => look 0 (t.meter (0x40 + i)).q 2 = (look 0 m.q 2 + (-S).toNat) % 57600000000 ∧ look 0 (t.meter (0x40 + i)).q 1 = look 0 m.q 1 ∧
        (look {} t.bil.core.regs ((0x40 + i) * 256 + 2)).total = (look {} s.bil.core.regs ((0x40 + i) * 256 + 2)).total + (look 0 m.q 2 + (-S).toNat) / 57600000000 ∧
        (t.meter (0x40 + i)).recv = true ∧ Frame (.free :: .regs .met :: .met :: .bil :: bothMbx) s t) ∧
  (∀ (s : State) (i : Nat) (raw : List (List Int)) (y : Nat → Nat → Int) (S : Int) (m : MeterS), s.srcEn (0x40 + i) = true → s.met.battery = 0 → (∀ c < 7, (look [] (s.meter (0x40 + i)).chan c).length = 3 ∧ (raw.getD c []).length = 16) →
    (∀ c n, y c n = (channelOut s (7 * i + c) (look [] (s.meter (0x40 + i)).chan c) (raw.getD c [])).getD n 0) →
    S = ((List.range 16).map fun n => y 0 n * y 3 n + y 1 n * y 4 n + y 2 n * y 5 n).sum → m = s.meter (0x40 + i) →
    (∀ c, 3 ≤ c → c ≤ 5 → ((List.range 16).map fun n => (y c n).natAbs).sum < 160 * fld (s.metw (0x500 + 0x10 * i)) 15 0) →
    Ends (.acBlock i raw) s fun t => (t.meter (0x40 + i)).q = m.q ∧ t.bil.core.regs = s.bil.core.regs ∧ (t.meter (0x40 + i)).noload = true ∧ Frame (.free :: .regs .met :: .met :: .bil :: bothMbx) s t) ∧
  (∀ (s : State) (i : Nat) (raw : List (List Int)) (c : Nat), s.srcEn (0x40 + i) = true → s.met.battery = 0 → c < 7 → (raw.getD c []).length = 16 →
    16000 ≤ (stuckRun (look (0, 0) (s.meter (0x40 + i)).stuckN c) (raw.getD c [])).2 →
    Ends (.acBlock i raw) s fun t => (t.meter (0x40 + i)).stuck = true ∧ t.meterErr (0x40 + i) = true) ∧
  (∀ (s : State) (i : Nat) (raw : List (List Int)), s.srcEn (0x40 + i) = false ∨ s.met.battery ≠ 0 → exec (.acBlock i raw) s = .next s)

/-- The metrology island compares its paths, checks itself, supervises the intakes and the covers, emits pulses and answers its verbs. (R376, R377, R378, R379, R380, R381, R382, R383, R394, R395)
Where the spec leaves a point open, the clauses follow the model's choice in log entries 45, 50, 106, 124. -/
def Obligations.MetrologyChecks : Prop :=
  (∀ (s : State) (src : Nat) (l : List Nat), s.srcEn src = true → s.now % 20000 = 0 → s.met.restart = none →
    (∃ e ∈ (qtysOf src).zip (l ++ List.replicate 4 0), look 0 (s.meter src).inc e.1 ≠ e.2) →
    Ends (.dualIntegrationCompare src l) s fun t => (t.meter src).dualErr = true ∧ (t.meter src).dualOk = 0 ∧ (t.meter src).inc = [] ∧ t.meterErr src = true ∧
        (t.meter src).q = (s.meter src).q ∧ t.bil.core.regs = s.bil.core.regs ∧ s.met.evlog.count < t.met.evlog.count ∧ Frame (.free :: .regs .met :: .met :: .bil :: bothMbx) s t) ∧
  (∀ (s : State) (src : Nat) (l : List Nat), s.srcEn src = true → s.now % 20000 = 0 → s.met.restart = none →
    (∀ e ∈ (qtysOf src).zip (l ++ List.replicate 4 0), look 0 (s.meter src).inc e.1 = e.2) →
    Ends (.dualIntegrationCompare src l) s fun t => (t.meter src).dualOk = min 10 ((s.meter src).dualOk + 1) ∧ (t.meter src).inc = [] ∧
        ((t.meter src).dualErr = true ↔ (s.meter src).dualErr = true ∧ (s.meter src).dualOk + 1 < 10) ∧ Frame [.met] s t) ∧
  (∀ (s : State) (src n : Nat) (l : List Nat), s.srcEn src = true → s.now % 20000 = 0 → s.met.restart = some n → s.now < n + 20000 →
    Ends (.dualIntegrationCompare src l) s fun t => t.meter src = { s.meter src with inc := [] } ∧ Frame [.met] s t) ∧
  (∀ (s : State) (src : Nat) (l : List Nat), s.srcEn src = false ∨ s.now % 20000 ≠ 0 → exec (.dualIntegrationCompare src l) s = .next s) ∧
  (∀ (s : State) (ok : Bool), Ends (.adcReferenceCheck ok) s fun t => t.met.adcFault = !ok ∧ (ok = false → ∀ src, 0x40 ≤ src → t.meterErr src = true) ∧
        t.met.evlog.count = s.met.evlog.count + (if ok = false ∧ s.met.adcFault = false then 1 else 0) ∧ t.met.src = s.met.src ∧ Frame (.free :: .met :: bothMbx) s t) ∧
  (∀ (s : State) (ok : Bool), Ends (.sealedParameterCheck ok) s fun t => t.met.paramFault = !ok ∧ (ok = false → ∀ src, t.meterErr src = true) ∧
        t.met.evlog.count = s.met.evlog.count + (if ok = false ∧ s.met.paramFault = false then 1 else 0) ∧ t.met.src = s.met.src ∧ Frame (.free :: .met :: bothMbx) s t) ∧
  (∀ (s : State), Ends (.islandFirmwareCheck false) s fun t => t.met.restart = some s.now ∧ (∀ src, t.meterErr src = true) ∧ t.met.src = s.met.src ∧ t.met.evlog.count = s.met.evlog.count + 1 ∧
        t.bil.ldsp.chk = s.now + 200000 ∧ t.bil.core = s.bil.core ∧ Frame (.free :: .met :: .bil :: .upd :: bothMbx) s t) ∧
  (∀ (s : State), Ends .islandWatchdogExpiry s fun t => t.met.restart = some s.now ∧ (∀ src, t.meterErr src = true) ∧ t.met.src = s.met.src ∧ t.met.evlog.count = s.met.evlog.count + 1 ∧
        t.bil.ldsp.chk = s.now + 200000 ∧ t.bil.core = s.bil.core ∧ Frame (.free :: .met :: .bil :: .upd :: bothMbx) s t) ∧
  (∀ (s : State), exec (.islandFirmwareCheck true) s = .next s) ∧
  (∀ (s : State) (n : Nat) (p : PulseS), p = look {} s.met.pulses n → bitAt (s.metw (0x600 + 8 * n)) 31 = true → bitAt (s.metw (0x600 + 8 * n)) 30 = false → 0 < p.pend →
    (∀ t, p.last = some t → t + 40 * fld (s.metw (0x600 + 8 * n)) 23 16 ≤ s.now) →
    Ends (.pulseEmit n) s fun t => look {} t.met.pulses n = { p with pend := p.pend - 1, last := some s.now } ∧
        (∀ j, j ≠ n → look {} t.met.pulses j = look {} s.met.pulses j) ∧ Frame [.met] s t) ∧
  (∀ (s : State) (n : Nat), (look {} s.met.pulses n).pend = 0 ∨ bitAt (s.metw (0x600 + 8 * n)) 30 = true → exec (.pulseEmit n) s = .next s) ∧
  (∀ (s : State) (n : Nat) (p : PulseS), p = look {} s.met.pulses n → bitAt (s.metw (0x600 + 8 * n)) 31 = true → bitAt (s.metw (0x600 + 8 * n)) 30 = true →
    (∀ t, p.last = some t → t + 20000 ≤ s.now) →
    Ends (.testPulseOutput n) s fun t => look {} t.met.pulses n = { p with last := some s.now } ∧ Frame [.met] s t) ∧
  (∀ (s : State) (i im : Nat) (r : IntakeRms), s.srcEn (0x40 + i) = true → s.met.battery = 0 → im = max r.i1 (max r.i2 r.i3) → im < 10 * fld (s.metw (0x500 + 0x10 * i)) 15 0 →
    Ends (.intakeSupervision i r) s fun t => t.met.intakes = s.met.intakes ∧ (t.meter (0x40 + i)).irms = (r.i1 + r.i2 + r.i3) / 3 ∧ (t.meter (0x40 + i)).vrms = (r.v1 + r.v2 + r.v3) / 3 ∧
        Frame [.met] s t) ∧
  (∀ (s : State) (i im : Nat) (r : IntakeRms) (x : IntakeS), s.srcEn (0x40 + i) = true → s.met.battery = 0 → im = max r.i1 (max r.i2 r.i3) → 10 * fld (s.metw (0x500 + 0x10 * i)) 15 0 ≤ im → x = look {} s.met.intakes i →
    Ends (.intakeSupervision i r) s fun t =>
        ((im ≤ 10 * r.sum ∧ 100 * r.n < 2 * im) → 4 ∉ x.conds → look 0 x.runs 4 + 1 < 10 → 4 ∉ (look {} t.met.intakes i).conds ∧ look 0 (look {} t.met.intakes i).runs 4 = look 0 x.runs 4 + 1) ∧
        ((im ≤ 10 * r.sum ∧ 100 * r.n < 2 * im) → 4 ∉ x.conds → 9 ≤ look 0 x.runs 4 → 4 ∈ (look {} t.met.intakes i).conds) ∧
        (¬ (im ≤ 10 * r.sum ∧ 100 * r.n < 2 * im) → 4 ∈ x.conds → 9 ≤ look 0 x.runs 4 → 4 ∉ (look {} t.met.intakes i).conds) ∧
        (¬ (im ≤ 10 * r.sum ∧ 100 * r.n < 2 * im) → 4 ∈ x.conds → look 0 x.runs 4 + 1 < 10 → 4 ∈ (look {} t.met.intakes i).conds) ∧ Frame (.free :: .met :: bothMbx) s t) ∧
  (∀ (s : State) (i im : Nat) (r : IntakeRms) (x : IntakeS), s.srcEn (0x40 + i) = true → s.met.battery = 0 → im = max r.i1 (max r.i2 r.i3) → 10 * fld (s.metw (0x500 + 0x10 * i)) 15 0 ≤ im → x = look {} s.met.intakes i →
    Ends (.intakeSupervision i r) s fun t =>
        (((10 * fld (s.metw (0x500 + 0x10 * i)) 15 0 ≤ r.i1 ∧ r.v1 < 200 * fld (s.metw (0x500 + 0x10 * i)) 30 16) ∨ (10 * fld (s.metw (0x500 + 0x10 * i)) 15 0 ≤ r.i2 ∧ r.v2 < 200 * fld (s.metw (0x500 + 0x10 * i)) 30 16) ∨ (10 * fld (s.metw (0x500 + 0x10 * i)) 15 0 ≤ r.i3 ∧ r.v3 < 200 * fld (s.metw (0x500 + 0x10 * i)) 30 16)) → 5 ∉ x.conds → look 0 x.runs 5 + 1 < 10 → 5 ∉ (look {} t.met.intakes i).conds ∧ look 0 (look {} t.met.intakes i).runs 5 = look 0 x.runs 5 + 1) ∧
        (((10 * fld (s.metw (0x500 + 0x10 * i)) 15 0 ≤ r.i1 ∧ r.v1 < 200 * fld (s.metw (0x500 + 0x10 * i)) 30 16) ∨ (10 * fld (s.metw (0x500 + 0x10 * i)) 15 0 ≤ r.i2 ∧ r.v2 < 200 * fld (s.metw (0x500 + 0x10 * i)) 30 16) ∨ (10 * fld (s.metw (0x500 + 0x10 * i)) 15 0 ≤ r.i3 ∧ r.v3 < 200 * fld (s.metw (0x500 + 0x10 * i)) 30 16)) → 5 ∉ x.conds → 9 ≤ look 0 x.runs 5 → 5 ∈ (look {} t.met.intakes i).conds) ∧
        (¬ ((10 * fld (s.metw (0x500 + 0x10 * i)) 15 0 ≤ r.i1 ∧ r.v1 < 200 * fld (s.metw (0x500 + 0x10 * i)) 30 16) ∨ (10 * fld (s.metw (0x500 + 0x10 * i)) 15 0 ≤ r.i2 ∧ r.v2 < 200 * fld (s.metw (0x500 + 0x10 * i)) 30 16) ∨ (10 * fld (s.metw (0x500 + 0x10 * i)) 15 0 ≤ r.i3 ∧ r.v3 < 200 * fld (s.metw (0x500 + 0x10 * i)) 30 16)) → 5 ∈ x.conds → 9 ≤ look 0 x.runs 5 → 5 ∉ (look {} t.met.intakes i).conds) ∧
        (¬ ((10 * fld (s.metw (0x500 + 0x10 * i)) 15 0 ≤ r.i1 ∧ r.v1 < 200 * fld (s.metw (0x500 + 0x10 * i)) 30 16) ∨ (10 * fld (s.metw (0x500 + 0x10 * i)) 15 0 ≤ r.i2 ∧ r.v2 < 200 * fld (s.metw (0x500 + 0x10 * i)) 30 16) ∨ (10 * fld (s.metw (0x500 + 0x10 * i)) 15 0 ≤ r.i3 ∧ r.v3 < 200 * fld (s.metw (0x500 + 0x10 * i)) 30 16)) → 5 ∈ x.conds → look 0 x.runs 5 + 1 < 10 → 5 ∈ (look {} t.met.intakes i).conds) ∧ Frame (.free :: .met :: bothMbx) s t) ∧
  (∀ (s : State) (i im : Nat) (r : IntakeRms) (x : IntakeS), s.srcEn (0x40 + i) = true → s.met.battery = 0 → im = max r.i1 (max r.i2 r.i3) → 10 * fld (s.metw (0x500 + 0x10 * i)) 15 0 ≤ im → x = look {} s.met.intakes i →
    Ends (.intakeSupervision i r) s fun t =>
        ((¬ (im ≤ 10 * r.sum ∧ 100 * r.n < 2 * im) ∧ im ≤ 2 * r.r ∧ 10 * r.r1 < im) → 3 ∉ x.conds → look 0 x.runs 3 + 1 < 10 → 3 ∉ (look {} t.met.intakes i).conds ∧ look 0 (look {} t.met.intakes i).runs 3 = look 0 x.runs 3 + 1) ∧
        ((¬ (im ≤ 10 * r.sum ∧ 100 * r.n < 2 * im) ∧ im ≤ 2 * r.r ∧ 10 * r.r1 < im) → 3 ∉ x.conds → 9 ≤ look 0 x.runs 3 → 3 ∈ (look {} t.met.intakes i).conds) ∧
        (¬ (¬ (im ≤ 10 * r.sum ∧ 100 * r.n < 2 * im) ∧ im ≤ 2 * r.r ∧ 10 * r.r1 < im) → 3 ∈ x.conds → 9 ≤ look 0 x.runs 3 → 3 ∉ (look {} t.met.intakes i).conds) ∧
        (¬ (¬ (im ≤ 10 * r.sum ∧ 100 * r.n < 2 * im) ∧ im ≤ 2 * r.r ∧ 10 * r.r1 < im) → 3 ∈ x.conds → look 0 x.runs 3 + 1 < 10 → 3 ∈ (look {} t.met.intakes i).conds) ∧ Frame (.free :: .met :: bothMbx) s t) ∧
  (∀ (s : State) (i im : Nat) (r : IntakeRms) (x : IntakeS), s.srcEn (0x40 + i) = true → s.met.battery = 0 → im = max r.i1 (max r.i2 r.i3) → 10 * fld (s.metw (0x500 + 0x10 * i)) 15 0 ≤ im → x = look {} s.met.intakes i →
    Ends (.intakeSupervision i r) s fun t =>
        ((¬ (im ≤ 10 * r.sum ∧ 100 * r.n < 2 * im) ∧ ¬ (im ≤ 2 * r.r ∧ (10 * r.r1 < im ∨ 10 * r.r2 < im ∨ 10 * r.r3 < im)) ∧ im ≤ 10 * r.r) → 0 ∉ x.conds → look 0 x.runs 0 + 1 < 10 → 0 ∉ (look {} t.met.intakes i).conds ∧ look 0 (look {} t.met.intakes i).runs 0 = look 0 x.runs 0 + 1) ∧
        ((¬ (im ≤ 10 * r.sum ∧ 100 * r.n < 2 * im) ∧ ¬ (im ≤ 2 * r.r ∧ (10 * r.r1 < im ∨ 10 * r.r2 < im ∨ 10 * r.r3 < im)) ∧ im ≤ 10 * r.r) → 0 ∉ x.conds → 9 ≤ look 0 x.runs 0 → 0 ∈ (look {} t.met.intakes i).conds) ∧
        (¬ (¬ (im ≤ 10 * r.sum ∧ 100 * r.n < 2 * im) ∧ ¬ (im ≤ 2 * r.r ∧ (10 * r.r1 < im ∨ 10 * r.r2 < im ∨ 10 * r.r3 < im)) ∧ im ≤ 10 * r.r) → 0 ∈ x.conds → 9 ≤ look 0 x.runs 0 → 0 ∉ (look {} t.met.intakes i).conds) ∧
        (¬ (¬ (im ≤ 10 * r.sum ∧ 100 * r.n < 2 * im) ∧ ¬ (im ≤ 2 * r.r ∧ (10 * r.r1 < im ∨ 10 * r.r2 < im ∨ 10 * r.r3 < im)) ∧ im ≤ 10 * r.r) → 0 ∈ x.conds → look 0 x.runs 0 + 1 < 10 → 0 ∈ (look {} t.met.intakes i).conds) ∧ Frame (.free :: .met :: bothMbx) s t) ∧
  (∀ (s : State) (i : Nat) (r : IntakeRms) (x : IntakeS), s.srcEn (0x40 + i) = true → s.met.battery = 1 ∨ s.met.battery = 2 → x = look {} s.met.intakes i →
    Ends (.intakeSupervision i r) s fun t => (look {} t.met.intakes i).battWin = x.battWin + 1 ∧ look 0 (look {} t.met.intakes i).battMas 0 = look 0 x.battMas 0 + r.i1 ∧
        look 0 (look {} t.met.intakes i).battMas 1 = look 0 x.battMas 1 + r.i2 ∧ look 0 (look {} t.met.intakes i).battMas 2 = look 0 x.battMas 2 + r.i3 ∧ Frame (.free :: .met :: bothMbx) s t) ∧
  (∀ (s : State) (b : Bool), s.met.battery = 0 → (b = true → s.rf .pwr .A 0x08 31 29 = 4) → (b = false → s.pwr.step = 4 ∧ s.pwr.batt = 1) →
    Ends (.batteryOperationEntry b) s fun t => t.met.battery = (if b then 2 else 1) ∧ t.met.battStart = s.rtc ∧
        (∀ i < 2, (look {} t.met.intakes i).battRtc = s.rtc ∧ (look {} t.met.intakes i).battMas = [] ∧ (look {} t.met.intakes i).battWin = 0) ∧
        (∀ k < 48, s.srcEn k = true → (s.meter k).gap = none → (s.meter k).i ≠ 0 → (t.meter k).gap ≠ none) ∧
        (∀ k < 48, (s.meter k).i = 0 → t.meter k = s.meter k) ∧ t.bil = s.bil ∧ Frame (.free :: .regs .met :: .met :: bothMbx) s t) ∧
  (∀ (s : State) (b : Bool), s.met.battery ≠ 0 → exec (.batteryOperationEntry b) s = .next s) ∧
  (∀ (s : State) (b : Bool), s.met.battery = 1 → b = true ∨ s.met.battStart + 3600 * 32768 * fld (s.metw 0x704) 7 0 ≤ s.rtc →
    Ends (.batteryOperationEnd b) s fun t => t.met = { s.met with battery := 3 } ∧ Frame [.met] s t) ∧
  (∀ (s : State) (b : Bool), s.met.battery ≠ 1 → exec (.batteryOperationEnd b) s = .next s) ∧
  (∀ (s : State) (l n : Nat) (x : TampS), n < 4 → x = look {} s.met.tamp n → s.rtcByEdge = true →
    Ends (.tamperSample l) s fun t =>
        ((l.testBit n == bitAt (s.metw 0x700) n) = x.isOpen → look {} t.met.tamp n = { x with n := 0 }) ∧
        ((l.testBit n == bitAt (s.metw 0x700) n) ≠ x.isOpen → x.n < 2 → look {} t.met.tamp n = { x with n := x.n + 1 }) ∧
        ((l.testBit n == bitAt (s.metw 0x700) n) ≠ x.isOpen → 2 ≤ x.n → look {} t.met.tamp n = { isOpen := !x.isOpen, n := 0, count := (x.count + 1) % 2 ^ 32 }) ∧
        t.met.warm = min 3 (s.met.warm + 1) ∧ t.met.src = s.met.src ∧ Frame (.free :: .met :: bothMbx) s t) ∧
  (∀ (s : State) (l : Nat), s.rtcByEdge = false →
    Ends (.tamperSample l) s fun t => s.rtc + 327 ≤ t.rtc ∧ t.rtc ≤ s.rtc + 328 ∧ t.met.src = s.met.src ∧ Frame (.rtc :: .free :: .met :: bothMbx) s t) ∧
  (∀ (s : State) (o : Org) (x : Half) (r src : Nat), RunsAt s o 0x0A01 x r → r ∈ rAny → s.srcEn src = false →
    Ends (.metInst o src) s fun t => AnsweredWith t o 0x0A01 0x0A03 true [] ∧ Frame [.mbx o.half] s t) ∧
  (∀ (s : State) (o : Org) (x : Half) (r k : Nat), RunsAt s o 0x0A01 x r → r ∈ rAny → s.srcEn k = true → k < 48 → Room s o 28 →
    Ends (.metInst o k) s fun t => AnsweredWith t o 0x0A01 stOk true (le 8 s.now ++ (leInt 4 (roundDiv (s.meter k).v 5) ++ leInt 4 (roundDiv (s.meter k).i 2)) ++
          leInt 8 (s.meter k).power ++ le 4 (s.metStat k)) ∧ Frame [.mbx o.half] s t) ∧
  (∀ (s : State) (o : Org) (x : Half) (r f n : Nat), RunsAt s o 0x0A02 x r → r ∈ rAny → 1 ≤ n → n ≤ 128 → Room s o (s.met.mlog.read f n).length →
    Ends (.metLogRead o 0 f n) s fun t => AnsweredWith t o 0x0A02 stOk true (s.met.mlog.read f n) ∧ Frame [.mbx o.half] s t) ∧
  (∀ (s : State) (o : Org) (x : Half) (r f n : Nat), RunsAt s o 0x0A02 x r → r ∈ rNotPublic → 1 ≤ n → n ≤ 128 → Room s o (s.met.evlog.read f n).length →
    Ends (.metLogRead o 1 f n) s fun t => AnsweredWith t o 0x0A02 stOk true (s.met.evlog.read f n) ∧ Frame [.mbx o.half] s t) ∧
  (∀ (s : State) (o : Org) (x : Half) (l f n : Nat), RunsAt s o 0x0A02 x rPublic → l = 1 → 1 ≤ n → n ≤ 128 →
    Ends (.metLogRead o l f n) s fun t => AnsweredWith t o 0x0A02 stRole true [] ∧ Frame [.mbx o.half] s t) ∧
  (∀ (s : State) (o : Org) (x : Half) (r l f n : Nat), RunsAt s o 0x0A02 x r → r ∈ rAny → 1 < l ∨ n = 0 ∨ 128 < n →
    Ends (.metLogRead o l f n) s fun t => AnsweredWith t o 0x0A02 stRange true [] ∧ Frame [.mbx o.half] s t) ∧
  (∀ (s : State) (o : Org) (x : Half) (r i : Nat), RunsAt s o 0x0A03 x r → r ∈ [rOperator, rBilling, rInstaller, rLegal] → i ≤ 1 →
    Ends (.metBattRead o i) s fun t => AnsweredWith t o 0x0A03 stOk true (le 8 (look {} s.met.intakes i).battRtc ++ le 4 (look 0 (look {} s.met.intakes i).battMas 0) ++
        le 4 (look 0 (look {} s.met.intakes i).battMas 1) ++ le 4 (look 0 (look {} s.met.intakes i).battMas 2) ++ le 4 (look {} s.met.intakes i).battWin) ∧ Frame [.mbx o.half] s t) ∧
  (∀ (s : State) (o : Org) (x : Half) (r i : Nat), RunsAt s o 0x0A03 x r → r ∈ [rPublic, rVendor] →
    Ends (.metBattRead o i) s fun t => AnsweredWith t o 0x0A03 stRole true [] ∧ Frame [.mbx o.half] s t)

/-- Demand intervals, billing periods, tariffs, saves and restores of the billing engine follow R402 to R414. (R293, R403, R404, R405, R406, R408, R409, R411, R412, R413, R414, R427)
Where the spec leaves a point open, the clauses follow the model's choice in log entries 46, 47, 48, 49, 126. -/
def Obligations.IntervalsPeriodsAndTariffs : Prop :=
  (∀ (s : State) (i d el fl : Nat) (x : IntervalS), i < 2 → s.now % 20000 = 0 → s.demandDue i s.utc = true → x = look {} s.bil.core.ints i → el = x.ticks / 20000 →
    d = x.energy * 36 / (10 * max s.tariff.len el) → fl = b2n x.incomplete + 2 * b2n x.step + 4 * b2n x.err →
    Ends (.demandIntervalClose i) s fun t => look {} t.bil.core.ints i = {} ∧ look 0 t.bil.core.lastDem i = s.utc ∧ look 0 t.bil.recN i = look 0 s.bil.recN i + 1 ∧
        (if i = 0 then t.bil.recs0 else t.bil.recs1).getLast? = some (s.utc, leInt 8 s.utc ++ le 4 x.energy ++ le 4 x.export_ ++ le 4 d ++ le 4 el ++ [s.bil.rate, fl, 0, 0, 0, 0, 0, 0]) ∧
        (if i = 0 then t.bil.recs1 = s.bil.recs1 else t.bil.recs0 = s.bil.recs0) ∧
        (if (look (0, 0, 0) s.bil.core.maxd (32 * i)).1 < d then look (0, 0, 0) t.bil.core.maxd (32 * i) = (d, s.utc, fl)
          else look (0, 0, 0) t.bil.core.maxd (32 * i) = look (0, 0, 0) s.bil.core.maxd (32 * i)) ∧
        (if (look (0, 0, 0) s.bil.core.maxd (32 * i + 1 + s.bil.rate)).1 < d then look (0, 0, 0) t.bil.core.maxd (32 * i + 1 + s.bil.rate) = (d, s.utc, fl)
          else look (0, 0, 0) t.bil.core.maxd (32 * i + 1 + s.bil.rate) = look (0, 0, 0) s.bil.core.maxd (32 * i + 1 + s.bil.rate)) ∧
        t.bil.core.regs = s.bil.core.regs ∧ Frame (.pts .A :: .pts .B :: .mirOut .A :: .mirOut .B :: .thm .A :: .thm .B :: [.bil]) s t) ∧
  (∀ (s : State) (i : Nat), 2 ≤ i ∨ s.now % 20000 ≠ 0 ∨ s.bil.unknown = true ∨ s.utc ≤ look 0 s.bil.core.lastDem i → exec (.demandIntervalClose i) s = .next s) ∧
  (∀ (s : State), s.now % 20000 = 0 → s.closeDue s.utc = true → (∀ i < 2, s.demandDue i s.utc = false) →
    Ends .billingPeriodClose s fun t => t.bil.periodN = s.bil.periodN + 1 ∧ t.bil.core.maxd = [] ∧ t.bil.core.lastBill = some s.utc ∧ t.bil.lastClose = some s.utc ∧
        (∃ b, t.bil.periods.getLast? = some (s.bil.periodN, b) ∧ b.take 16 = le 4 s.bil.periodN ++ leInt 8 s.utc ++ le 4 s.tariff.id ∧ b.getD 17 9 = 0 ∧
          b.drop 24 = s.periodEntries.flatten) ∧ (s.bil.periods.length ≤ 24 → t.bil.periods.length ≤ 24) ∧ t.bil.core.regs = s.bil.core.regs ∧ Frame [.bil] s t) ∧
  (∀ (s : State) (i : Nat), s.now % 20000 = 0 → s.closeDue s.utc = true → i < 2 → s.demandDue i s.utc = true →
    Ends .billingPeriodClose s fun t => look 0 t.bil.recN i = look 0 s.bil.recN i + 1 ∧ look {} t.bil.core.ints i = {} ∧ t.bil.periodN = s.bil.periodN + 1 ∧
        t.bil.core.maxd = [] ∧ t.bil.core.regs = s.bil.core.regs ∧ Frame (.pts .A :: .pts .B :: .mirOut .A :: .mirOut .B :: .thm .A :: .thm .B :: [.bil]) s t) ∧
  (∀ (s : State), s.now % 20000 ≠ 0 ∨ (s.closeDue s.utc = false ∧ (∀ i < 2, s.demandDue i s.utc = false)) → exec .billingPeriodClose s = .next s) ∧
  (∀ (s : State) (o : Org) (x : Half) (r : Nat), RunsAt s o 0x0B04 x r → r ∈ [rOperator, rBilling] → s.bil.unknown = false → (∀ l, s.bil.lastClose = some l → l + 60 ≤ s.utc) →
    Ends (.bilClose o) s fun t => AnsweredWith t o 0x0B04 stOk true (le 4 s.bil.periodN) ∧ t.bil.periodN = s.bil.periodN + 1 ∧ t.bil.core.maxd = [] ∧ t.bil.lastClose = some s.utc ∧
        (∃ b, t.bil.periods.getLast? = some (s.bil.periodN, b) ∧ b.getD 17 9 = 1) ∧ t.bil.core.regs = s.bil.core.regs ∧ Frame [.bil, .mbx o.half] s t) ∧
  (∀ (s : State) (o : Org) (x : Half) (r : Nat) (l : Int), RunsAt s o 0x0B04 x r → r ∈ [rOperator, rBilling] → s.bil.unknown = false → s.bil.lastClose = some l → s.utc < l + 60 →
    Ends (.bilClose o) s fun t => AnsweredWith t o 0x0B04 0x0B04 true [] ∧ Frame [.mbx o.half] s t) ∧
  (∀ (s : State) (o : Org) (x : Half) (r : Nat), RunsAt s o 0x0B04 x r → r ∈ [rOperator, rBilling] → s.bil.unknown = true →
    Ends (.bilClose o) s fun t => AnsweredWith t o 0x0B04 0x0B02 true [] ∧ Frame [.mbx o.half] s t) ∧
  (∀ (s : State) (p : Tariff), s.bil.passive = some p → s.bil.unknown = false → s.now % 20000 = 0 → (p.act : Int) ≤ s.utc →
    (∀ i < 2, s.demandDue i s.utc = false) → s.closeDue s.utc = false →
    Ends .tariffActivation s fun t => t.bil.tariff = p ∧ t.bil.passive = none ∧ t.bil.rate = p.rateAt s.utc s.bil.rate ∧ t.bil.core = s.bil.core ∧
        t.met.evlog.count = s.met.evlog.count + 1 ∧ Frame (.free :: .met :: .bil :: .pts .A :: .pts .B :: .mirOut .A :: .mirOut .B :: .thm .A :: .thm .B :: bothMbx) s t) ∧
  (∀ (s : State), s.now % 20000 ≠ 0 ∨ s.bil.unknown = true ∨ (s.bil.passive = none ∧ (∀ i < 2, s.demandDue i s.utc = false) ∧ s.closeDue s.utc = false) →
    exec .tariffActivation s = .next s) ∧
  (∀ (s : State), s.now % 20000 ≠ 0 ∨ s.bil.unknown = true ∨ (s.bil.passive = none ∧ (∀ i < 2, s.demandDue i s.utc = false) ∧ s.closeDue s.utc = false) →
    Ends .rateSwitch s fun t =>
        t.bil = { s.bil with rate := if s.bil.unknown then s.tariff.fallback else s.tariff.rateAt s.utc s.bil.rate } ∧ Frame [.bil] s t) ∧
  (∀ (s : State), s.now % 20000 = 0 → s.bil.unknown = true ∨ (s.bil.passive = none ∧ (∀ i < 2, s.demandDue i s.utc = false) ∧ s.closeDue s.utc = false) →
    Ends .billingSave s fun t => t.bil.saveSeq = s.bil.saveSeq + 1 ∧ (∃ b : BilSave, (if s.bil.saveSeq % 2 = 0 then t.bil.bank0 else t.bil.bank1) = some b ∧ b.seq = s.bil.saveSeq + 1 ∧
        b.pf = false ∧ b.utc = s.utc ∧ b.core = s.bil.core ∧ b.active = s.integrating ∧ ∀ k < 66, look [] b.fines k = (s.meter k).q) ∧
        (if s.bil.saveSeq % 2 = 0 then t.bil.bank1 = s.bil.bank1 else t.bil.bank0 = s.bil.bank0) ∧ t.bil.core = s.bil.core ∧ Frame [.bil] s t) ∧
  (∀ (s : State) (b : Bool), s.rb .pwr .A 0 9 = false → s.rb .pwr .A 0 8 = false → (b = true → s.pwr.vhSwitch = true) →
    Ends (.powerFailSave b) s fun t => t.bil.saveSeq = s.bil.saveSeq + 1 ∧ (∃ b : BilSave, (if s.bil.saveSeq % 2 = 0 then t.bil.bank0 else t.bil.bank1) = some b ∧ b.seq = s.bil.saveSeq + 1 ∧
        b.pf = true ∧ b.utc = s.utc ∧ b.core = s.bil.core ∧ b.active = s.integrating ∧ ∀ k < 66, look [] b.fines k = (s.meter k).q) ∧
        (if s.bil.saveSeq % 2 = 0 then t.bil.bank1 = s.bil.bank1 else t.bil.bank0 = s.bil.bank0) ∧ t.bil.core = s.bil.core ∧ Frame [.bil] s t) ∧
  (∀ (s : State), (s.now % 20000 ≠ 0 → exec .billingSave s = .next s) ∧ (∀ b, s.rb .pwr .A 0 9 = true ∨ s.rb .pwr .A 0 8 = true ∨ (b = true ∧ s.pwr.vhSwitch = false) →
    exec (.powerFailSave b) s = .next s)) ∧
  (∀ (s : State) (a b : BilSave), s.bil.starting = true → s.bil.bank0 = some a → s.bil.bank1 = some b → a.seq < b.seq → b.pf = true →
    Ends (.billingRestore true true true) s fun t => t.bil.core = b.core ∧ t.bil.saveSeq = b.seq ∧ t.bil.unknown = false ∧ t.bil.starting = false ∧ (∀ k < 66, (t.meter k).q = look [] b.fines k) ∧
        t.met.evlog = s.met.evlog ∧ Frame [.met, .bil] s t) ∧
  (∀ (s : State) (a b : BilSave), s.bil.starting = true → s.bil.bank0 = some a → s.bil.bank1 = some b → a.seq < b.seq → a.pf = true →
    Ends (.billingRestore true false true) s fun t => t.bil.core = a.core ∧ t.bil.saveSeq = a.seq ∧ Frame [.met, .bil] s t) ∧
  (∀ (s : State) (b : BilSave) (k : Nat) (a : SessAcct), s.bil.starting = true → s.bil.bank0 = some b → b.pf = false → b.active = [k] → k < 48 → look none b.core.sess k = some a →
    Ends (.billingRestore true false true) s fun t => t.bil.core.regs = b.core.regs ∧ t.met.evlog.count = s.met.evlog.count + 1 ∧
        look none t.bil.core.sess k = some { a with unsaved := a.unsaved + 1954688, lost := true } ∧ Frame (.free :: .met :: .bil :: bothMbx) s t) ∧
  (∀ (s : State) (time : Bool), s.bil.starting = true → s.bil.bank0 ≠ none ∨ s.bil.bank1 ≠ none →
    Ends (.billingRestore false false time) s fun t => t.bil.dead = true ∧ t.bil.core = {} ∧ t.bil.unknown = !time ∧ (∀ src, t.meterErr src = true) ∧
        t.met.evlog.count = s.met.evlog.count + 1 ∧ Frame (.free :: .met :: .bil :: bothMbx) s t) ∧
  (∀ (s : State) (a b time : Bool), s.bil.starting = true → s.bil.bank0 = none → s.bil.bank1 = none →
    Ends (.billingRestore a b time) s fun t => t.bil = { s.bil with unknown := !time, starting := false, rate := if time then s.tariff.rateAt s.utc s.bil.rate else s.tariff.fallback } ∧
        Frame [.bil] s t) ∧
  (∀ (s : State) (a b time : Bool), s.bil.starting = false → exec (.billingRestore a b time) s = .next s) ∧
  (∀ (s : State), s.bil.unknown = false →
    Ends .billingGapCatchup s fun t => t.bil.core.lastUtc = s.utc ∧ (∀ i < 2, (look {} t.bil.core.ints i).incomplete = true) ∧ t.bil.core.regs = s.bil.core.regs ∧ Frame (.free :: .met :: .bil :: .pts .A :: .pts .B :: .mirOut .A :: .mirOut .B :: .thm .A :: .thm .B :: bothMbx) s t) ∧
  (∀ (s : State) (i : Nat), s.bil.unknown = false → 0 < s.bil.core.lastUtc → s.bil.core.lastUtc % 60 = 0 → s.utc = s.bil.core.lastUtc + 60 → i < 2 →
    s.demandDue i s.utc = true → s.closeDue s.utc = false → s.bil.passive = none →
    Ends .billingGapCatchup s fun t => look 0 t.bil.recN i = look 0 s.bil.recN i + 1 ∧
        (∃ b, (if i = 0 then t.bil.recs0 else t.bil.recs1).getLast? = some (s.utc, b) ∧ (b.getD 25 0).testBit 0 = true) ∧ Frame (.free :: .met :: .bil :: .pts .A :: .pts .B :: .mirOut .A :: .mirOut .B :: .thm .A :: .thm .B :: bothMbx) s t) ∧
  (∀ (s : State), (s.bil.unknown = true → exec .billingGapCatchup s = .next s) ∧ (s.bil.unknown = false → exec .timeValidRestored s = .next s)) ∧
  (∀ (s : State), s.bil.unknown = true →
    Ends .timeValidRestored s fun t => t.bil.unknown = false ∧ t.bil.core.lastUtc = s.utc ∧ (∀ i < 2, (look {} t.bil.core.ints i).incomplete = true) ∧ Frame (.free :: .met :: .bil :: .pts .A :: .pts .B :: .mirOut .A :: .mirOut .B :: .thm .A :: .thm .B :: bothMbx) s t) ∧
  (∀ (s : State) (h : Half) (i n : Nat) (lim cap left : Int), i < 2 → s.now % 20 = 0 → s.charge = some h →
    (List.range 1024).find? (fun n => s.rf .cnp h (0x10 * n) 31 29 == 2 && s.rf .cnp h (0x10 * n) 7 0 == i) = some n → lim = ((s.rg .cnp h (0x10 * n + 4)).toNat : Int) →
    left = (s.utc + s.tariff.len) / s.tariff.len * s.tariff.len - s.utc →
    cap = (if s.tariff.target i = 0 then lim else
        min lim (max (s.fallbackCap h i) ((s.tariff.target i * s.tariff.len * 10 - ((look {} s.bil.core.ints i).energy * 36 : Int)) / (max left 10 * 10)))) →
    Ends (.demandCapStage i) s fun t => (∀ g, (t.stage g (256 + i)).pend = some cap ∧ (t.stage g (256 + i)).pendStamp = s.tick g ∧ ∀ j, j ≠ 256 + i → t.stage g j = s.stage g j) ∧
        Frame [.stg .A, .stg .B] s t) ∧
  (∀ (s : State) (i : Nat), 2 ≤ i ∨ s.now % 20 ≠ 0 → exec (.demandCapStage i) s = .next s)

/-- A closed session leaves its Lomvor record, a token is taken once or refused with its RESULT, and the BIL verbs read what is held. (R415, R416, R417, R419, R420, R421, R422, R423, R424, R426, R427, R449)
Where the spec leaves a point open, the clauses follow the model's choice in log entries 49, 51, 101. -/
def Obligations.TokensRecordsAndBillingVerbs : Prop :=
  (∀ (s : State) (k : Nat) (g : List Nat) (a : SessAcct), look none s.bil.core.sess k = some a → (s.veh1 k).c.st = 10 → s.bil.held = [] → s.signerOk (pqRecord (s.lomvorBody k a)) = true →
    Ends (.lomvorRecord k g) s fun t => t.bil.recno = s.bil.recno + 1 ∧ look none t.bil.core.sess k = none ∧ t.bil.held = [] ∧
        t.bil.lomvor.getLast? = some (s.bil.recno, s.lomvorBody k a ++ padTo (if pqRecord (s.lomvorBody k a) then 3373 else 64) g) ∧
        (s.bil.lomvor.length ≤ 64 → t.bil.lomvor.length ≤ 64) ∧ t.bil.lastBody = s.lomvorBody k a ∧ (a.ledger = [] → t.bil.ledger = s.bil.ledger) ∧ t.bil.core.regs = s.bil.core.regs ∧ Frame (.pts .A :: .pts .B :: .mirOut .A :: .mirOut .B :: .thm .A :: .thm .B :: [.bil]) s t) ∧
  (∀ (s : State) (k : Nat) (g : List Nat) (a : SessAcct), look none s.bil.core.sess k = some a → (s.veh1 k).c.st = 10 →
    s.bil.held ≠ [] ∨ s.signerOk (pqRecord (s.lomvorBody k a)) = false →
    Ends (.lomvorRecord k g) s fun t => t.bil.recno = s.bil.recno + 1 ∧ look none t.bil.core.sess k = none ∧ t.bil.lomvor = s.bil.lomvor ∧
        t.bil.held = s.bil.held ++ [(s.bil.recno, s.lomvorBody k a)] ∧
        Frame (.pts .A :: .pts .B :: .mirOut .A :: .mirOut .B :: .thm .A :: .thm .B :: [.bil]) s t) ∧
  (∀ (s : State) (k : Nat) (g : List Nat), look none s.bil.core.sess k = none ∨ ((s.veh1 k).c.st ≠ 10 ∧ (s.veh1 k).c.st ≠ 0) → exec (.lomvorRecord k g) s = .next s) ∧
  (∀ (s : State), s.bil.ldsp.since + 20000 * s.rf .bil .A 0 23 16 ≤ s.now → s.bil.ldsp.hold ≤ s.now →
    Ends .displayDwell s fun t => t.bil = { s.bil with ldsp := { s.bil.ldsp with item := (s.bil.ldsp.item + 1) % s.dispItems.length, since := s.now } } ∧ Frame [.bil] s t) ∧
  (∀ (s : State), s.now < s.bil.ldsp.since + 20000 * s.rf .bil .A 0 23 16 ∨ s.now < s.bil.ldsp.hold → exec .displayDwell s = .next s) ∧
  (∀ (s : State),
    (Ends .keyA s fun t => t.bil = { s.bil with ldsp := { s.bil.ldsp with item := (s.bil.ldsp.item + 1) % s.dispItems.length, since := s.now, hold := s.now + 600000 } } ∧ Frame [.bil] s t) ∧
    (Ends .keyB s fun t => t.bil = { s.bil with ldsp := { s.bil.ldsp with entry := some s.now } } ∧ Frame [.bil] s t) ∧
    (Ends .keyC s fun t => t.bil = { s.bil with ldsp := { s.bil.ldsp with entry := none } } ∧ Frame [.bil] s t) ∧
    (Ends .keyD s fun t => t.bil = { s.bil with ldsp := { s.bil.ldsp with chk := s.now + 200000 } } ∧ Frame [.bil] s t)) ∧
  (∀ (s : State) (n : Nat), s.bil.ldsp.entry = some n →
    (n + 1200000 ≤ s.now → Ends .tokenEntryTimeout s fun t => t.bil = { s.bil with ldsp := { s.bil.ldsp with entry := none } } ∧ Frame [.bil] s t) ∧
        (s.now < n + 1200000 → exec .tokenEntryTimeout s = .next s)) ∧
  (∀ (s : State) (k sc q cr : Nat) (d : List Nat) (a : SessAcct), s.bil.ldsp.entry.any (fun e => decide (s.now < e + 1200000)) = true → s.rb .bil .A 0 30 = true → k < 48 → tokenFields d = some (sc, q, cr) →
    (look {} s.bil.keypads 0x80).until_ ≤ s.now → s.tokenMac d = true → sc = 0x3F ∨ sc = k → (∀ h, s.bil.high = some h → h < q + 1024) → q ∉ s.bil.spent →
    (s.veh1 k).c.st = 3 → s.pathOn k 4 = true → look none s.bil.core.sess k = some a →
    Ends (.tokenEntry k d) s fun t => t.bil.high = some (match s.bil.high with | some h => max h q | none => q) ∧ q ∈ t.bil.spent ∧
        look none t.bil.core.sess k = some { a with grants := a.grants ++ [(cr, (s.reg k 1).total)], token := q, ledger := a.ledger ++ [s.bil.ledgerN] } ∧
        (t.veh1 k).c.st = 4 ∧ (t.veh1 k).c.granted = 4 ∧ (t.veh1 k).c.idKind = 3 ∧ (t.veh1 k).c.credit = some (s.creditOf k a + cr) ∧
        t.bil.ldsp.entry = none ∧ t.bil.keypads = s.bil.keypads ∧ t.bil.ledgerN = s.bil.ledgerN + 1 ∧ t.bil.ledger = s.bil.ledger ++ [(s.bil.ledgerN, le 4 q ++ [0, 0x80, k, 0] ++ le 8 cr ++ le 8 s.now ++ leInt 8 s.utc ++ le 4 (s.veh1 k).c.num ++ le 4 0)] ∧ Frame (.free :: .veh :: .met :: .bil :: .lkt :: .pts .A :: .pts .B :: .mirOut .A :: .mirOut .B :: .thm .A :: .thm .B :: bothMbx) s t) ∧
  (∀ (s : State) (k sc q cr : Nat) (d : List Nat), s.bil.ldsp.entry.any (fun e => decide (s.now < e + 1200000)) = true → s.rb .bil .A 0 30 = true → k < 48 → tokenFields d = some (sc, q, cr) →
    (look {} s.bil.keypads 0x80).until_ ≤ s.now → s.tokenMac d = false → (look {} s.bil.keypads 0x80).fails = [] →
    Ends (.tokenEntry k d) s fun t => t.bil.high = s.bil.high ∧ t.bil.spent = s.bil.spent ∧ t.bil.core = s.bil.core ∧ t.veh = s.veh ∧
        (look {} t.bil.keypads 0x80).fails = [s.now] ∧ t.bil.ledgerN = s.bil.ledgerN + 1 ∧ t.bil.ledger = s.bil.ledger ++ [(s.bil.ledgerN, le 4 q ++ [3, 0x80, k, 0] ++ le 8 cr ++ le 8 s.now ++ leInt 8 s.utc ++ le 4 (s.veh1 k).c.num ++ le 4 0)] ∧ Frame (.free :: .veh :: .met :: .bil :: .lkt :: .pts .A :: .pts .B :: .mirOut .A :: .mirOut .B :: .thm .A :: .thm .B :: bothMbx) s t) ∧
  (∀ (s : State) (k sc q cr : Nat) (d : List Nat), s.bil.ldsp.entry.any (fun e => decide (s.now < e + 1200000)) = true → s.rb .bil .A 0 30 = true → k < 48 → tokenFields d = some (sc, q, cr) →
    (look {} s.bil.keypads 0x80).until_ ≤ s.now → sc ≠ 0x3F → sc ≠ k → s.tokenMac d = true → (look {} s.bil.keypads 0x80).fails = [] →
    Ends (.tokenEntry k d) s fun t => t.bil.high = s.bil.high ∧ t.bil.spent = s.bil.spent ∧ t.bil.core = s.bil.core ∧ t.veh = s.veh ∧
        (look {} t.bil.keypads 0x80).fails = [s.now] ∧ t.bil.ledgerN = s.bil.ledgerN + 1 ∧ t.bil.ledger = s.bil.ledger ++ [(s.bil.ledgerN, le 4 q ++ [4, 0x80, k, 0] ++ le 8 cr ++ le 8 s.now ++ leInt 8 s.utc ++ le 4 (s.veh1 k).c.num ++ le 4 0)] ∧ Frame (.free :: .veh :: .met :: .bil :: .lkt :: .pts .A :: .pts .B :: .mirOut .A :: .mirOut .B :: .thm .A :: .thm .B :: bothMbx) s t) ∧
  (∀ (s : State) (k sc q cr hi : Nat) (d : List Nat), s.bil.ldsp.entry.any (fun e => decide (s.now < e + 1200000)) = true → s.rb .bil .A 0 30 = true → k < 48 → tokenFields d = some (sc, q, cr) →
    (look {} s.bil.keypads 0x80).until_ ≤ s.now → sc = 0x3F → s.tokenMac d = true → s.bil.high = some hi → q + 1024 ≤ hi → (look {} s.bil.keypads 0x80).fails = [] →
    Ends (.tokenEntry k d) s fun t => t.bil.high = s.bil.high ∧ t.bil.spent = s.bil.spent ∧ t.bil.core = s.bil.core ∧ t.veh = s.veh ∧
        (look {} t.bil.keypads 0x80).fails = [s.now] ∧ t.bil.ledgerN = s.bil.ledgerN + 1 ∧ t.bil.ledger = s.bil.ledger ++ [(s.bil.ledgerN, le 4 q ++ [5, 0x80, k, 0] ++ le 8 cr ++ le 8 s.now ++ leInt 8 s.utc ++ le 4 (s.veh1 k).c.num ++ le 4 0)] ∧ Frame (.free :: .veh :: .met :: .bil :: .lkt :: .pts .A :: .pts .B :: .mirOut .A :: .mirOut .B :: .thm .A :: .thm .B :: bothMbx) s t) ∧
  (∀ (s : State) (k sc q cr : Nat) (d : List Nat), s.bil.ldsp.entry.any (fun e => decide (s.now < e + 1200000)) = true → s.rb .bil .A 0 30 = true → k < 48 → tokenFields d = some (sc, q, cr) →
    (look {} s.bil.keypads 0x80).until_ ≤ s.now → sc = 0x3F → s.tokenMac d = true → s.bil.high = some q → q ∈ s.bil.spent → (look {} s.bil.keypads 0x80).fails = [] →
    Ends (.tokenEntry k d) s fun t => t.bil.high = s.bil.high ∧ t.bil.spent = s.bil.spent ∧ t.bil.core = s.bil.core ∧ t.veh = s.veh ∧
        (look {} t.bil.keypads 0x80).fails = [s.now] ∧ t.bil.ledgerN = s.bil.ledgerN + 1 ∧ t.bil.ledger = s.bil.ledger ++ [(s.bil.ledgerN, le 4 q ++ [6, 0x80, k, 0] ++ le 8 cr ++ le 8 s.now ++ leInt 8 s.utc ++ le 4 (s.veh1 k).c.num ++ le 4 0)] ∧ Frame (.free :: .veh :: .met :: .bil :: .lkt :: .pts .A :: .pts .B :: .mirOut .A :: .mirOut .B :: .thm .A :: .thm .B :: bothMbx) s t) ∧
  (∀ (s : State) (k sc q cr : Nat) (d : List Nat), s.bil.ldsp.entry.any (fun e => decide (s.now < e + 1200000)) = true → s.rb .bil .A 0 30 = true → k < 48 → tokenFields d = some (sc, q, cr) →
    (look {} s.bil.keypads 0x80).until_ ≤ s.now → sc = 0x3F → s.tokenMac d = true → s.bil.high = none → q ∉ s.bil.spent → s.tokenSession k = false → (look {} s.bil.keypads 0x80).fails = [] →
    Ends (.tokenEntry k d) s fun t => t.bil.high = s.bil.high ∧ t.bil.spent = s.bil.spent ∧ t.bil.core = s.bil.core ∧ t.veh = s.veh ∧
        (look {} t.bil.keypads 0x80).fails = [s.now] ∧ t.bil.ledgerN = s.bil.ledgerN + 1 ∧ t.bil.ledger = s.bil.ledger ++ [(s.bil.ledgerN, le 4 q ++ [7, 0x80, k, 0] ++ le 8 cr ++ le 8 s.now ++ leInt 8 s.utc ++ le 4 (s.veh1 k).c.num ++ le 4 0)] ∧ Frame (.free :: .veh :: .met :: .bil :: .lkt :: .pts .A :: .pts .B :: .mirOut .A :: .mirOut .B :: .thm .A :: .thm .B :: bothMbx) s t) ∧
  (∀ (s : State) (k : Nat) (d : List Nat), s.bil.ldsp.entry.any (fun e => decide (s.now < e + 1200000)) = true → s.rb .bil .A 0 30 = true → k < 48 → tokenFields d = none →
    (look {} s.bil.keypads 0x80).until_ ≤ s.now → (∀ n ∈ (look {} s.bil.keypads 0x80).fails, s.now < n + 12000000) → 4 ≤ (look {} s.bil.keypads 0x80).fails.length →
    Ends (.tokenEntry k d) s fun t => look {} t.bil.keypads 0x80 = { fails := [], until_ := s.now + 12000000 } ∧ t.bil.high = s.bil.high ∧ t.veh = s.veh ∧
        t.bil.ledgerN = s.bil.ledgerN + 1 ∧ t.bil.ledger = s.bil.ledger ++ [(s.bil.ledgerN, le 4 0 ++ [2, 0x80, k, 0] ++ le 8 0 ++ le 8 s.now ++ leInt 8 s.utc ++ le 4 (s.veh1 k).c.num ++ le 4 0)] ∧ Frame (.free :: .veh :: .met :: .bil :: .lkt :: .pts .A :: .pts .B :: .mirOut .A :: .mirOut .B :: .thm .A :: .thm .B :: bothMbx) s t) ∧
  (∀ (s : State) (k : Nat) (d : List Nat), s.bil.ldsp.entry.any (fun e => decide (s.now < e + 1200000)) = true → s.rb .bil .A 0 30 = true → k < 48 →
    s.now < (look {} s.bil.keypads 0x80).until_ →
    Ends (.tokenEntry k d) s fun t => t.bil.keypads = s.bil.keypads ∧ t.bil.high = s.bil.high ∧ t.bil.spent = s.bil.spent ∧ t.veh = s.veh ∧ t.bil.ledgerN = s.bil.ledgerN + 1 ∧ Frame (.free :: .veh :: .met :: .bil :: .lkt :: .pts .A :: .pts .B :: .mirOut .A :: .mirOut .B :: .thm .A :: .thm .B :: bothMbx) s t) ∧
  (∀ (s : State) (k : Nat) (d : List Nat), s.bil.ldsp.entry.any (fun e => decide (s.now < e + 1200000)) = false ∨ s.rb .bil .A 0 30 = false ∨ 48 ≤ k →
    Ends (.tokenEntry k d) s fun t => t.bil = { s.bil with ldsp := { s.bil.ldsp with entry := none } } ∧ Frame [.bil] s t) ∧
  (∀ (s s1 : State) (h : Half) (k sc q cr : Nat) (m d : List Nat) (a : SessAcct), k < 48 → s.takeMsg h (k + 32) 0x43 (fun m => m.headD 0 == 6) = some (m, s1) →
    d = ((bytesAt m 4 20).map fun c => if c < 48 then 10 else c - 48) → s.rb .nlk h ((k + 32) * 0x40) 30 = true → s.rb .bil .A 0 30 = true →
    (look (0, 0) s.bil.kseq k).1 ≠ numAt m 2 2 + 1 ∨ (look (0, 0) s.bil.kseq k).2 + 200000 ≤ s.now → tokenFields d = some (sc, q, cr) →
    (look {} s.bil.keypads k).until_ ≤ s.now → s.tokenMac d = true → sc = 0x3F ∨ sc = k → (∀ h, s.bil.high = some h → h < q + 1024) → q ∉ s.bil.spent →
    (s.veh1 k).c.st = 3 → s.pathOn k 4 = true → look none s.bil.core.sess k = some a →
    Ends (.keypad h (k + 32)) s fun t => look (0, 0) t.bil.kseq k = (numAt m 2 2 + 1, s.now) ∧ q ∈ t.bil.spent ∧
        look none t.bil.core.sess k = some { a with grants := a.grants ++ [(cr, (s.reg k 1).total)], token := q, ledger := a.ledger ++ [s.bil.ledgerN] } ∧
        (t.veh1 k).c.st = 4 ∧ (t.veh1 k).c.granted = 4 ∧ t.bil.ledgerN = s.bil.ledgerN + 1 ∧ t.bil.ledger = s.bil.ledger ++ [(s.bil.ledgerN, le 4 q ++ [0, k, k, 0] ++ le 8 cr ++ le 8 s.now ++ leInt 8 s.utc ++ le 4 (s.veh1 k).c.num ++ le 4 0)] ∧ Frame (.ports h :: .free :: .veh :: .met :: .bil :: .lkt :: .pts .A :: .pts .B :: .mirOut .A :: .mirOut .B :: .thm .A :: .thm .B :: bothMbx) s t) ∧
  (∀ (s : State) (h : Half) (p : Nat), s.takeMsg h p 0x43 (fun m => m.headD 0 == 6) = none → exec (.keypad h p) s = .next s) ∧
  (∀ (s s1 : State) (h : Half) (p : Nat) (m : List Nat), s.takeMsg h p 0x43 (fun m => m.headD 0 == 6) = some (m, s1) →
    p < 32 ∨ 80 ≤ p ∨ s.rb .nlk h (p * 0x40) 30 = false ∨ s.rb .bil .A 0 30 = false ∨
        ((look (0, 0) s.bil.kseq (p - 32)).1 = numAt m 2 2 + 1 ∧ s.now < (look (0, 0) s.bil.kseq (p - 32)).2 + 200000) →
    exec (.keypad h p) s = .next s1) ∧
  (∀ (s : State) (n : Nat), (look {} s.bil.keypads n).until_ ≤ s.now →
    Ends (.keypadLockoutEnd n) s fun t => (look {} t.bil.keypads n).until_ = 0 ∧ (look {} t.bil.keypads n).fails = (look {} s.bil.keypads n).fails ∧ Frame [.bil] s t) ∧
  (∀ (s : State) (n : Nat), s.now < (look {} s.bil.keypads n).until_ → exec (.keypadLockoutEnd n) s = .next s) ∧
  (∀ (s : State) (k : Nat) (a : SessAcct), look none s.bil.core.sess k = some a → (s.veh1 k).c.granted = 4 → s.now % 20 = 0 → s.creditOf k a ≤ 0 → (s.veh1 k).c.st = 7 →
    (s.veh1 k).c.told = none → (s.veh1 k).c.reason = 0 →
    Ends (.creditReport k) s fun t => (t.veh1 k).c = { (s.veh1 k).c with credit := some (s.creditOf k a), told := some s.now, reason := 0x0C } ∧ Frame (.veh :: .lkt :: bothMbx) s t) ∧
  (∀ (s : State) (h : Half) (k : Nat) (a : SessAcct), look none s.bil.core.sess k = some a → (s.veh1 k).c.granted = 4 → s.now % 20 = 0 → s.charge = some h → 0 < s.outVolt h k →
    10000 * s.outVolt h k ≤ s.creditOf k a * 30000 → 0 < s.creditOf k a →
    Ends (.creditReport k) s fun t => (t.veh1 k).c = { (s.veh1 k).c with credit := some (s.creditOf k a) } ∧ Frame [.veh] s t) ∧
  (∀ (s : State) (k : Nat), look none s.bil.core.sess k = none ∨ (s.veh1 k).c.granted ≠ 4 → exec (.creditReport k) s = .next s) ∧
  (∀ (s : State) (o : Org) (x : Half) (r src q : Nat), RunsAt s o 0x0B01 x r → r ∈ rAny →
    (s.srcEn src = false → Ends (.bilRead o src q) s fun t => AnsweredWith t o 0x0B01 0x0A03 true [] ∧ Frame [.mbx o.half] s t) ∧
        (s.srcEn src = true → q ∉ qtysOf src → Ends (.bilRead o src q) s fun t => AnsweredWith t o 0x0B01 stRange true [] ∧ Frame [.mbx o.half] s t)) ∧
  (∀ (s : State) (o : Org) (x : Half) (r src q : Nat), RunsAt s o 0x0B01 x r → r ∈ rAny → s.srcEn src = true → q ∈ qtysOf src → Room s o 152 →
    Ends (.bilRead o src q) s fun t => AnsweredWith t o 0x0B01 stOk true (le 8 s.now ++ le 8 (s.reg src q).total ++ le 4 ((s.reg src q).total / 100 % 2 ^ 32) ++
          le 2 ((s.reg src q).total / 429496729600 % 2 ^ 16) ++ [s.bil.rate, s.tariff.nrates] ++ (rateList (s.reg src q)).flatMap (le 8)) ∧ Frame [.mbx o.half] s t) ∧
  (∀ (s : State) (o : Org) (x : Half) (r : Nat) (b : List Nat), RunsAt s o 0x0B02 x r → r ∈ [rOperator, rInstaller] → s.bil.unknown = false → Tariff.ok b s.utc = true → s.flashFull x 1152 = false →
    Ends (.bilTariffLoad o b) s fun t => t.bil = { s.bil with passive := some b } ∧ AnsweredWith t o 0x0B02 stOk true [] ∧ Frame (.bil :: .mbx o.half :: .pts .A :: .pts .B :: .mirOut .A :: .mirOut .B :: .thm .A :: .thm .B :: []) s t) ∧
  (∀ (s : State) (o : Org) (x : Half) (r : Nat) (b : List Nat), RunsAt s o 0x0B02 x r → r ∈ [rOperator, rInstaller] → s.bil.unknown = false → Tariff.ok b s.utc = false →
    Ends (.bilTariffLoad o b) s fun t => AnsweredWith t o 0x0B02 0x0B01 true [] ∧ Frame [.mbx o.half] s t) ∧
  (∀ (s : State) (o : Org) (x : Half) (r n : Nat), RunsAt s o 0x0B03 x r → r ∈ [rOperator, rBilling, rInstaller, rLegal] →
    (s.bil.passive = none → Ends (.bilTariffRead o 1) s fun t => AnsweredWith t o 0x0B03 0x0B03 true [] ∧ Frame [.mbx o.half] s t) ∧
        (2 ≤ n → Ends (.bilTariffRead o n) s fun t => AnsweredWith t o 0x0B03 stRange true [] ∧ Frame [.mbx o.half] s t)) ∧
  (∀ (s : State) (o : Org) (x : Half) (r : Nat), RunsAt s o 0x0B03 x r → r ∈ [rOperator, rBilling, rInstaller, rLegal] → Room s o (padTo 752 s.bil.tariff).length →
    Ends (.bilTariffRead o 0) s fun t => AnsweredWith t o 0x0B03 stOk true (padTo 752 s.bil.tariff) ∧ Frame [.mbx o.half] s t) ∧
  (∀ (s : State) (o : Org) (x : Half) (r : Nat) (p : Tariff), RunsAt s o 0x0B03 x r → r ∈ [rOperator, rBilling, rInstaller, rLegal] → s.bil.passive = some p → Room s o (padTo 752 p).length →
    Ends (.bilTariffRead o 1) s fun t => AnsweredWith t o 0x0B03 stOk true (padTo 752 p) ∧ Frame [.mbx o.half] s t) ∧
  (∀ (s : State) (o : Org) (x : Half) (r n : Nat), RunsAt s o 0x0b05 x r → r ∈ [rOperator, rBilling, rLegal] →
    ((∀ e ∈ s.bil.periods, e.1 ≠ n) → Ends (.bilPeriodRead o n) s fun t => AnsweredWith t o 0x0b05 0x0B03 true [] ∧ Frame [.mbx o.half] s t) ∧
        (∀ e, s.bil.periods.find? (fun e => e.1 == n) = some e → Room s o e.2.length → Ends (.bilPeriodRead o n) s fun t => AnsweredWith t o 0x0b05 stOk true e.2 ∧ Frame [.mbx o.half] s t)) ∧
  (∀ (s : State) (o : Org) (x : Half) (r n : Nat), RunsAt s o 0x0b07 x r → r ∈ [rOperator, rBilling, rLegal] →
    ((∀ e ∈ s.bil.lomvor, e.1 ≠ n) → Ends (.bilRecordRead o n) s fun t => AnsweredWith t o 0x0b07 0x0B03 true [] ∧ Frame [.mbx o.half] s t) ∧
        (∀ e, s.bil.lomvor.find? (fun e => e.1 == n) = some e → Room s o e.2.length → Ends (.bilRecordRead o n) s fun t => AnsweredWith t o 0x0b07 stOk true e.2 ∧ Frame [.mbx o.half] s t)) ∧
  (∀ (s : State) (o : Org) (x : Half) (r i n : Nat) (f : Int), RunsAt s o 0x0B06 x r → r ∈ [rOperator, rBilling, rInstaller, rLegal] →
    (1 < i ∨ n = 0 ∨ 1024 < n → Ends (.bilIntervalRead o i f n) s fun t => AnsweredWith t o 0x0B06 stRange true [] ∧ Frame [.mbx o.half] s t) ∧
        (i < 2 → 0 < n → n ≤ 1024 → s.srcEn (0x40 + i) = true → (∀ e ∈ s.bil.recs0 ++ s.bil.recs1, e.1 < f) →
          Ends (.bilIntervalRead o i f n) s fun t => AnsweredWith t o 0x0B06 0x0B03 true [] ∧ Frame [.mbx o.half] s t)) ∧
  (∀ (s : State) (o : Org) (x : Half) (r i n : Nat) (f : Int) (l : List (Int × List Nat)), RunsAt s o 0x0B06 x r → r ∈ [rOperator, rBilling, rInstaller, rLegal] → i < 2 → 0 < n → n ≤ 1024 →
    l = ((if i = 0 then s.bil.recs0 else s.bil.recs1).filter fun e => decide (f ≤ e.1)).take n →
    (s.srcEn (0x40 + i) = false → Ends (.bilIntervalRead o i f n) s fun t => AnsweredWith t o 0x0B06 0x0A03 true [] ∧ Frame [.mbx o.half] s t) ∧
        (s.srcEn (0x40 + i) = true → l ≠ [] → Room s o (l.flatMap (·.2)).length →
          Ends (.bilIntervalRead o i f n) s fun t => AnsweredWith t o 0x0B06 stOk true (l.flatMap (·.2)) ∧ Frame [.mbx o.half] s t)) ∧
  (∀ (s : State) (o : Org) (x : Half) (r f n : Nat), RunsAt s o 0x0B08 x r → r ∈ [rOperator, rBilling, rLegal] →
    (n = 0 ∨ 256 < n → Ends (.bilLedgerRead o f n) s fun t => AnsweredWith t o 0x0B08 stRange true [] ∧ Frame [.mbx o.half] s t) ∧
        (0 < n → n ≤ 256 → (∀ e ∈ s.bil.ledger, e.1 < f) → Ends (.bilLedgerRead o f n) s fun t => AnsweredWith t o 0x0B08 0x0B03 true [] ∧ Frame [.mbx o.half] s t)) ∧
  (∀ (s : State) (o : Org) (x : Half) (r f n : Nat) (l : List (Nat × List Nat)), RunsAt s o 0x0B08 x r → r ∈ [rOperator, rBilling, rLegal] → 0 < n → n ≤ 256 →
    l = (s.bil.ledger.filter fun e => decide (f ≤ e.1)).take n → l ≠ [] → Room s o (l.flatMap (·.2)).length →
    Ends (.bilLedgerRead o f n) s fun t => AnsweredWith t o 0x0B08 stOk true (l.flatMap (·.2)) ∧ Frame [.mbx o.half] s t) ∧
  (∀ (s : State) (o : Org) (x : Half) (n : Nat), RunsAt s o 0x0B05 x rPublic → Ends (.bilPeriodRead o n) s fun t => AnsweredWith t o 0x0B05 stRole true [] ∧ Frame [.mbx o.half] s t)

/-- Locket creates entries under the checks of R437 to R439 and R448, and every use of a key passes the checks of R435 in order. (R428, R430, R435, R437, R438, R439, R446, R448, R450, R452, R460, R629)
Where the spec leaves a point open, the clauses follow the model's choice in log entries 6, 53, 54. -/
def Obligations.KeyCreationAndUse : Prop :=
  (∀ (s : State) (o : Org) (x : Half) (r tx i H : Nat) (attr : List Nat) (e p : KeyE), RunsAt s o 0x0C01 x r → r ∈ rAny → s.holdup = false → e = attrEntry attr → s.keyE e.parent = some p → e.parent ≠ 0xFFFFFFFF → p.st = 1 → s.keyUsable e.parent = true →
    p.admRoles.testBit r = true → p.depth < 7 → attrOk e (some p) r = true → s.freeSlot [] = some i → H = genUp (look 0 s.lkt.gens i) * 2 ^ 14 + i →
    Ends (.lktGenerate o tx attr) s fun t => (∃ iv, t.keyAt i = some { e with handle := H, st := 1, depth := p.depth + 1, origin := 1, created := s.now, mat := s.randomMat e.typ, iv := iv }) ∧
        (∀ j, j ≠ i → t.keyAt j = s.keyAt j) ∧ look 0 t.lkt.gens i = genUp (look 0 s.lkt.gens i) ∧ look 0 t.lkt.allocs i = look 0 s.lkt.allocs i + 1 ∧ t.lkt.c = s.lkt.c + 1 ∧
        t.lkt.txs.getLast? = some (tx, s.lkt.c + 1, H) ∧ t.free = s.free + 109 ∧ AnsweredWith t o 0x0C01 stOk true (le 4 H ++ le 8 (s.lkt.c + 1)) ∧
        Frame [.free, .lkt, .mbx o.half] s t) ∧
  (∀ (s : State) (o : Org) (x : Half) (r tx i H : Nat) (attr w m : List Nat) (e p q : KeyE) (k : Nat), RunsAt s o 0x0C02 x r → r ∈ rAny → s.holdup = false → e = attrEntry attr → s.keyE e.parent = some p → e.parent ≠ 0xFFFFFFFF → p.st = 1 → s.keyUsable e.parent = true →
    p.admRoles.testBit r = true → p.depth < 7 → attrOk e (some p) r = true → s.freeSlot [] = some i → H = genUp (look 0 s.lkt.gens i) * 2 ^ 14 + i →
    s.useStatus k none 0 0 6 = stOk → s.keyE k = some q → kwUnwrap q.mat w = some m → matLen e.typ ≤ m.length → m.length < matLen e.typ + 8 →
    Ends (.lktImport o tx attr k w) s fun t => (∃ iv, t.keyAt i = some { e with handle := H, st := 1, depth := p.depth + 1, origin := 2, created := s.now, mat := m.take (matLen e.typ), iv := iv }) ∧
        (∀ j, j ≠ i → t.keyAt j = s.keyAt j) ∧ look 0 t.lkt.gens i = genUp (look 0 s.lkt.gens i) ∧ look 0 t.lkt.allocs i = look 0 s.lkt.allocs i + 1 ∧ t.lkt.c = s.lkt.c + 1 ∧
        t.lkt.txs.getLast? = some (tx, s.lkt.c + 1, H) ∧ t.free = s.free + 109 ∧ AnsweredWith t o 0x0C02 stOk true (le 4 H ++ le 8 (s.lkt.c + 1)) ∧
        Frame [.free, .lkt, .mbx o.half] s t) ∧
  (∀ (s : State) (o : Org) (x : Half) (r tx i H : Nat) (attr info : List Nat) (e p : KeyE), RunsAt s o 0x0C03 x r → r ∈ rAny → s.holdup = false → e = attrEntry attr → s.keyE e.parent = some p → e.parent ≠ 0xFFFFFFFF → p.st = 1 → s.keyUsable e.parent = true →
    p.admRoles.testBit r = true → p.depth < 7 → attrOk e (some p) r = true → s.freeSlot [] = some i → H = genUp (look 0 s.lkt.gens i) * 2 ^ 14 + i →
    info.length ≤ 64 → p.typ = 3 ∨ p.typ = 4 → s.useStatus e.parent none 1 0 4 = stOk → e.typ ≠ 0x10 → e.typ ≠ 0x11 →
    Ends (.lktDerive o tx attr info) s fun t => (∃ iv, t.keyAt i = some { e with handle := H, st := 1, depth := p.depth + 1, origin := 3, created := s.now, mat := (if p.typ = 4 then hkdf384 else hkdf256) p.mat ([76, 75, 84, 32, 68, 69, 82, 73, 86, 69] ++ le 4 e.label ++ info) (matLen e.typ), iv := iv }) ∧
        (∀ j, j ≠ i → t.keyAt j = s.keyAt j) ∧ look 0 t.lkt.gens i = genUp (look 0 s.lkt.gens i) ∧ look 0 t.lkt.allocs i = look 0 s.lkt.allocs i + 1 ∧ t.lkt.c = s.lkt.c + 1 ∧
        t.lkt.txs.getLast? = some (tx, s.lkt.c + 1, H) ∧ t.free = s.free + 109 ∧ AnsweredWith t o 0x0C03 stOk true (le 4 H ++ le 8 (s.lkt.c + 1)) ∧
        Frame [.free, .lkt, .mbx o.half] s t) ∧
  (∀ (s : State) (o : Org) (x : Half) (r tx i H : Nat) (attr info : List Nat) (e p : KeyE), RunsAt s o 0x0C03 x r → r ∈ rAny → s.holdup = false → e = attrEntry attr → s.keyE e.parent = some p → e.parent ≠ 0xFFFFFFFF → p.st = 1 → s.keyUsable e.parent = true →
    p.admRoles.testBit r = true → p.depth < 7 → attrOk e (some p) r = true → s.freeSlot [] = some i → H = genUp (look 0 s.lkt.gens i) * 2 ^ 14 + i →
    info.length ≤ 64 → p.typ = 3 ∨ p.typ = 4 → s.useStatus e.parent none 1 0 4 = stOk → e.typ = 0x10 ∨ e.typ = 0x11 →
    Ends (.lktDerive o tx attr info) s fun t => (∃ iv, t.keyAt i = some { e with handle := H, st := 1, depth := p.depth + 1, origin := 3, created := s.now, mat := s.randomMat e.typ, iv := iv }) ∧
        (∀ j, j ≠ i → t.keyAt j = s.keyAt j) ∧ look 0 t.lkt.gens i = genUp (look 0 s.lkt.gens i) ∧ look 0 t.lkt.allocs i = look 0 s.lkt.allocs i + 1 ∧ t.lkt.c = s.lkt.c + 1 ∧
        t.lkt.txs.getLast? = some (tx, s.lkt.c + 1, H) ∧ t.free = s.free + 109 ∧ AnsweredWith t o 0x0C03 stOk true (le 4 H ++ le 8 (s.lkt.c + 1)) ∧
        Frame [.free, .lkt, .mbx o.half] s t) ∧
  (∀ (s : State) (o : Org) (x : Half) (r tx i H : Nat) (attr z : List Nat) (e p : KeyE) (n : Nat), RunsAt s o 0x0C04 x r → r ∈ rAny → s.holdup = false → e = attrEntry attr → s.keyE e.parent = some p → e.parent ≠ 0xFFFFFFFF → p.st = 1 → s.keyUsable e.parent = true →
    p.admRoles.testBit r = true → p.depth < 7 → attrOk e (some p) r = true → s.freeSlot [] = some i → H = genUp (look 0 s.lkt.gens i) * 2 ^ 14 + i →
    (n = 1 ∧ (p.typ = 0x10 ∨ p.typ = 0x11) ∧ s.useStatus e.parent none 2 0 4 = stOk) ∨ (n = 2 ∧ p.typ = 0x20 ∧ s.useStatus e.parent none 3 0 4 = stOk) →
    e.typ ≠ 0x10 → e.typ ≠ 0x11 →
    Ends (.lktAgree o tx attr n z) s fun t => (∃ iv, t.keyAt i = some { e with handle := H, st := 1, depth := p.depth + 1, origin := 4, created := s.now, mat := hkdf256 (hmac256 [] z) ([76, 75, 84, 32, 65, 71, 82, 69, 69] ++ le 4 e.label) (matLen e.typ), iv := iv }) ∧
        (∀ j, j ≠ i → t.keyAt j = s.keyAt j) ∧ look 0 t.lkt.gens i = genUp (look 0 s.lkt.gens i) ∧ look 0 t.lkt.allocs i = look 0 s.lkt.allocs i + 1 ∧ t.lkt.c = s.lkt.c + 1 ∧
        t.lkt.txs.getLast? = some (tx, s.lkt.c + 1, H) ∧ t.free = s.free + 109 ∧ AnsweredWith t o 0x0C04 stOk true (le 4 H ++ le 8 (s.lkt.c + 1)) ∧
        Frame [.free, .lkt, .mbx o.half] s t) ∧
  (∀ (s : State) (o : Org) (x : Half) (r tx i : Nat) (attr : List Nat) (e : KeyE), RunsAt s o 0x0C01 x r → r = rInstaller ∨ r = rVendor ∨ (r = rLegal ∧ legalOnly e = true) →
    s.holdup = false → e = attrEntry attr → e.parent = 0xFFFFFFFF → attrOk e none r = true → s.freeSlot [] = some i →
    Ends (.lktGenerate o tx attr) s fun t => (∃ k, t.keyAt i = some k ∧ k.st = 1 ∧ k.depth = 0 ∧ k.origin = 1 ∧ k.parent = 0xFFFFFFFF ∧ k.mat = s.randomMat e.typ ∧ k.handle % 2 ^ 14 = i % 2 ^ 14) ∧
        t.lkt.c = s.lkt.c + 1 ∧ Frame [.free, .lkt, .mbx o.half] s t) ∧
  (∀ (s : State) (o : Org) (tx k n m p h : Nat) (attr l : List Nat), s.holdup = true →
    (Ends (.lktGenerate o tx attr) s fun t => t.lkt = { s.lkt with waiting := s.lkt.waiting ++ [.generate o tx attr] } ∧ Frame [.lkt] s t) ∧
    (Ends (.lktImport o tx attr k l) s fun t => t.lkt = { s.lkt with waiting := s.lkt.waiting ++ [.importKey o tx attr k l] } ∧ Frame [.lkt] s t) ∧
    (Ends (.lktDerive o tx attr l) s fun t => t.lkt = { s.lkt with waiting := s.lkt.waiting ++ [.derive o tx attr l] } ∧ Frame [.lkt] s t) ∧
    (Ends (.lktAgree o tx attr n l) s fun t => t.lkt = { s.lkt with waiting := s.lkt.waiting ++ [.agree o tx attr n l] } ∧ Frame [.lkt] s t) ∧
    (Ends (.lktInvalidate o tx h) s fun t => t.lkt = { s.lkt with waiting := s.lkt.waiting ++ [.invalidate o tx h] } ∧ Frame [.lkt] s t) ∧
    (Ends (.lktPair o tx n p m l) s fun t => t.lkt = { s.lkt with waiting := s.lkt.waiting ++ [.pair o tx n p m l] } ∧ Frame [.lkt] s t) ∧
    (Ends (.lktRoll o tx p) s fun t => t.lkt = { s.lkt with waiting := s.lkt.waiting ++ [.roll o tx p] } ∧ Frame [.lkt] s t)) ∧
  (∀ (s : State) (o : Org) (x : Half) (r tx : Nat) (attr : List Nat), RunsAt s o 0x0C01 x r → r ∈ rAny → s.holdup = false → (attrEntry attr).parent ≠ 0xFFFFFFFF → s.keyE (attrEntry attr).parent = none →
    Ends (.lktGenerate o tx attr) s fun t => AnsweredWith t o 0x0C01 0x0C01 true [] ∧ Frame [.mbx o.half] s t) ∧
  (∀ (s : State) (o : Org) (x : Half) (r tx : Nat) (attr : List Nat) (e p : KeyE), RunsAt s o 0x0C01 x r → r ∈ rAny → s.holdup = false → e = attrEntry attr → e.parent ≠ 0xFFFFFFFF → s.keyE e.parent = some p → p.st ≠ 1 ∨ s.keyUsable e.parent = false →
    Ends (.lktGenerate o tx attr) s fun t => AnsweredWith t o 0x0C01 stKeyOrphaned true [] ∧ Frame [.mbx o.half] s t) ∧
  (∀ (s : State) (o : Org) (x : Half) (r tx : Nat) (attr : List Nat) (e p : KeyE), RunsAt s o 0x0C01 x r → r ∈ rAny → s.holdup = false → e = attrEntry attr → e.parent ≠ 0xFFFFFFFF → s.keyE e.parent = some p → p.st = 1 → s.keyUsable e.parent = true → p.admRoles.testBit r = false →
    Ends (.lktGenerate o tx attr) s fun t => AnsweredWith t o 0x0C01 stRole true [] ∧ Frame [.mbx o.half] s t) ∧
  (∀ (s : State) (o : Org) (x : Half) (r tx : Nat) (attr : List Nat) (e p : KeyE), RunsAt s o 0x0C01 x r → r ∈ rAny → s.holdup = false → e = attrEntry attr → e.parent ≠ 0xFFFFFFFF → s.keyE e.parent = some p → p.st = 1 → s.keyUsable e.parent = true → p.admRoles.testBit r = true → 7 ≤ p.depth →
    Ends (.lktGenerate o tx attr) s fun t => AnsweredWith t o 0x0C01 0x0C04 true [] ∧ Frame [.mbx o.half] s t) ∧
  (∀ (s : State) (o : Org) (x : Half) (r tx : Nat) (attr : List Nat) (e p : KeyE), RunsAt s o 0x0C01 x r → r ∈ rAny → s.holdup = false → e = attrEntry attr → e.parent ≠ 0xFFFFFFFF → s.keyE e.parent = some p → p.st = 1 → s.keyUsable e.parent = true → p.admRoles.testBit r = true → p.depth < 7 → (4 ≤ e.dom ∨ within e.dom p.dom = false ∨ typeFit e.typ = none ∨ (e.use.testBit 7 = true ∧ p.use.testBit 7 = false) ∨ (p.notAfter ≠ 0 ∧ (e.notAfter = 0 ∨ p.notAfter < e.notAfter)) ∨ (legalOnly e = true ∧ (e.admRoles ≠ 0x10 ∨ r ≠ rLegal))) →
    Ends (.lktGenerate o tx attr) s fun t => AnsweredWith t o 0x0C01 0x0C08 true [] ∧ Frame [.mbx o.half] s t) ∧
  (∀ (s : State) (o : Org) (x : Half) (r tx : Nat) (attr : List Nat) (e p : KeyE), RunsAt s o 0x0C01 x r → r ∈ rAny → s.holdup = false → e = attrEntry attr → e.parent ≠ 0xFFFFFFFF → s.keyE e.parent = some p → p.st = 1 → s.keyUsable e.parent = true → p.admRoles.testBit r = true → p.depth < 7 → attrOk e (some p) r = true → s.freeSlot [] = none →
    Ends (.lktGenerate o tx attr) s fun t => AnsweredWith t o 0x0C01 0x0C02 true [] ∧ Frame [.mbx o.half] s t) ∧
  (∀ (s : State) (o : Org) (x : Half) (r tx k : Nat) (attr w : List Nat) (e q : KeyE), RunsAt s o 0x0C02 x r → r ∈ rAny → s.holdup = false → e = attrEntry attr →
    s.createStatus e r = stOk → s.useStatus k none 0 0 6 = stOk → s.keyE k = some q → kwUnwrap q.mat w = none →
    Ends (.lktImport o tx attr k w) s fun t => AnsweredWith t o 0x0C02 0x0C09 true [] ∧ Frame [.mbx o.half] s t) ∧
  (∀ (s : State) (o : Org) (x : Half) (r k op j g u : Nat) (b : Bool) (v d l : List Nat), RunsAt s o 0x0C0B x r → r ∈ rAny → opNeeds op = some (g, u) → (k = 0xFFFFFFFF → op ≠ 4) → d.length ≤ 1048576 → s.keyE k = none →
    Ends (.lktOp o k op j b v d l) s fun t => AnsweredWith t o 0x0C0B 0x0C01 true [] ∧ Frame [.mbx o.half] s t) ∧
  (∀ (s : State) (o : Org) (x : Half) (r k op j g u : Nat) (b : Bool) (v d l : List Nat) (e : KeyE), RunsAt s o 0x0C0B x r → r ∈ rAny → opNeeds op = some (g, u) → (k = 0xFFFFFFFF → op ≠ 4) → d.length ≤ 1048576 → s.keyE k = some e → e.st = 2 → s.beforeCutoff k = false →
    Ends (.lktOp o k op j b v d l) s fun t => AnsweredWith t o 0x0C0B 0x0C03 true [] ∧ Frame [.mbx o.half] s t) ∧
  (∀ (s : State) (o : Org) (x : Half) (r k op j g u : Nat) (b : Bool) (v d l : List Nat) (e : KeyE), RunsAt s o 0x0C0B x r → r ∈ rAny → opNeeds op = some (g, u) → (k = 0xFFFFFFFF → op ≠ 4) → d.length ≤ 1048576 → s.keyE k = some e → e.st ≠ 2 → s.keyUsable k = false →
    Ends (.lktOp o k op j b v d l) s fun t => AnsweredWith t o 0x0C0B stKeyOrphaned true [] ∧ Frame [.mbx o.half] s t) ∧
  (∀ (s : State) (o : Org) (x : Half) (r k op j g u : Nat) (b : Bool) (v d l : List Nat) (e : KeyE), RunsAt s o 0x0C0B x r → r ∈ rAny → opNeeds op = some (g, u) → (k = 0xFFFFFFFF → op ≠ 4) → d.length ≤ 1048576 → s.keyE k = some e → e.st = 1 → s.keyUsable k = true → e.useRoles.testBit r = false →
    Ends (.lktOp o k op j b v d l) s fun t => AnsweredWith t o 0x0C0B stRole true [] ∧ Frame [.mbx o.half] s t) ∧
  (∀ (s : State) (o : Org) (x : Half) (r k op j g u : Nat) (b : Bool) (v d l : List Nat) (e : KeyE), RunsAt s o 0x0C0B x r → r ∈ rAny → opNeeds op = some (g, u) → (k = 0xFFFFFFFF → op ≠ 4) → d.length ≤ 1048576 → s.keyE k = some e → e.st = 1 → s.keyUsable k = true → e.useRoles.testBit r = true → e.eng.testBit g = false ∨ e.dom.testBit 0 = false →
    Ends (.lktOp o k op j b v d l) s fun t => AnsweredWith t o 0x0C0B stKeyEngine true [] ∧ Frame [.mbx o.half] s t) ∧
  (∀ (s : State) (o : Org) (x : Half) (r k op j g u : Nat) (b : Bool) (v d l : List Nat) (e : KeyE), RunsAt s o 0x0C0B x r → r ∈ rAny → opNeeds op = some (g, u) → (k = 0xFFFFFFFF → op ≠ 4) → d.length ≤ 1048576 → s.keyE k = some e → e.st = 1 → s.keyUsable k = true → e.useRoles.testBit r = true → e.eng.testBit g = true → e.dom.testBit 0 = true → e.use.testBit u = false →
    Ends (.lktOp o k op j b v d l) s fun t => AnsweredWith t o 0x0C0B 0x0C05 true [] ∧ Frame [.mbx o.half] s t) ∧
  (∀ (s : State) (o : Org) (x : Half) (r k op j g u : Nat) (b : Bool) (v d l : List Nat) (e : KeyE), RunsAt s o 0x0C0B x r → r ∈ rAny → opNeeds op = some (g, u) → (k = 0xFFFFFFFF → op ≠ 4) → d.length ≤ 1048576 → s.keyE k = some e → e.st = 1 → s.keyUsable k = true → e.useRoles.testBit r = true → e.eng.testBit g = true → e.dom.testBit 0 = true → e.use.testBit u = true → e.notAfter ≠ 0 → (e.notAfter : Int) < s.utc → s.bil.unknown = false →
    Ends (.lktOp o k op j b v d l) s fun t => AnsweredWith t o 0x0C0B 0x0C06 true [] ∧ Frame [.mbx o.half] s t) ∧
  (∀ (s : State) (o : Org) (x : Half) (r k op j g u : Nat) (v d l q : List Nat) (e : KeyE), RunsAt s o 0x0C0B x r → r ∈ rAny → opNeeds op = some (g, u) → s.keyE k = some e → e.st = 1 → s.keyUsable k = true → e.useRoles.testBit r = true →
    e.eng.testBit g = true → e.dom.testBit 0 = true → e.use.testBit u = true → (e.notAfter = 0 ∨ s.utc ≤ e.notAfter ∨ s.bil.unknown = true) → d.length ≤ 1048576 →
    (op = 9 → s.exportStatus j = stOk) → s.opResult k op j v d l = some q →
    (Room s o q.length → Ends (.lktOp o k op j false v d l) s fun t => AnsweredWith t o 0x0C0B stOk true q ∧ Frame [.mbx o.half] s t) ∧
        (Ends (.lktOp o k op j true v d l) s fun t => t.lkt.ops = s.lkt.ops ++ [{ org := o, exec := x, handle := k, start := s.now, size := d.length, result := q }] ∧
          t.lkt.ents = s.lkt.ents ∧ Frame [.lkt, .mbx o.half] s t)) ∧
  (∀ (s : State) (o : Org) (x : Half) (r k j g u : Nat) (v d l : List Nat) (e : KeyE), RunsAt s o 0x0C0B x r → r ∈ rAny → (g, u) = (0, 2) → s.keyE k = some e → e.st = 1 → s.keyUsable k = true → e.useRoles.testBit r = true →
    e.eng.testBit g = true → e.dom.testBit 0 = true → e.use.testBit u = true → (e.notAfter = 0 ∨ s.utc ≤ e.notAfter ∨ s.bil.unknown = true) → d.length ≤ 1048576 →
    Ends (.lktOp o k 3 j false v d l) s fun t => AnsweredWith t o 0x0C0B stOk true (cmac e.mat d) ∧ Frame [.mbx o.half] s t) ∧
  (∀ (s : State) (o : Org) (x : Half) (r k j g u : Nat) (v d l : List Nat) (e : KeyE), RunsAt s o 0x0C0B x r → r ∈ rAny → (g, u) = (0, 0) → s.keyE k = some e → e.st = 1 → s.keyUsable k = true → e.useRoles.testBit r = true →
    e.eng.testBit g = true → e.dom.testBit 0 = true → e.use.testBit u = true → (e.notAfter = 0 ∨ s.utc ≤ e.notAfter ∨ s.bil.unknown = true) → d.length ≤ 1048576 →
    Room s o (d.length + 16) →
    Ends (.lktOp o k 1 j false v d l) s fun t => AnsweredWith t o 0x0C0B stOk true (gcmCrypt e.mat (padTo 12 v) d ++ gcmFull e.mat (padTo 12 v) [] (gcmCrypt e.mat (padTo 12 v) d)) ∧
        Frame [.mbx o.half] s t) ∧
  (∀ (s : State) (o : Org) (x : Half) (r k j g u : Nat) (v d l q a : List Nat) (e : KeyE), RunsAt s o 0x0C0B x r → r ∈ rAny → (g, u) = (0, 1) → s.keyE k = some e → e.st = 1 → s.keyUsable k = true → e.useRoles.testBit r = true →
    e.eng.testBit g = true → e.dom.testBit 0 = true → e.use.testBit u = true → (e.notAfter = 0 ∨ s.utc ≤ e.notAfter ∨ s.bil.unknown = true) → d.length ≤ 1048576 →
    d = q ++ a → a.length = 16 → a ≠ gcmFull e.mat (padTo 12 v) [] q →
    Ends (.lktOp o k 2 j false v d l) s fun t => AnsweredWith t o 0x0C0B 0x0C09 true [] ∧ Frame [.mbx o.half] s t) ∧
  (∀ (s : State) (o : Org) (x : Half) (r k j g u : Nat) (v d l : List Nat) (e : KeyE), RunsAt s o 0x0C0B x r → r ∈ rAny → (g, u) = (0, 5) → s.keyE k = some e → e.st = 1 → s.keyUsable k = true → e.useRoles.testBit r = true →
    e.eng.testBit g = true → e.dom.testBit 0 = true → e.use.testBit u = true → (e.notAfter = 0 ∨ s.utc ≤ e.notAfter ∨ s.bil.unknown = true) → d.length ≤ 1048576 →
    s.exportStatus j ≠ stOk →
    Ends (.lktOp o k 9 j false v d l) s fun t => AnsweredWith t o 0x0C0B (s.exportStatus j) true [] ∧ Frame [.mbx o.half] s t) ∧
  (∀ (s : State) (o : Org) (x : Half) (r k op j : Nat) (b : Bool) (v d l : List Nat), RunsAt s o 0x0C0B x r → r ∈ rAny → opNeeds op = none ∨ 1048576 < d.length →
    Ends (.lktOp o k op j b v d l) s fun t => AnsweredWith t o 0x0C0B stRange true [] ∧ Frame [.mbx o.half] s t) ∧
  (∀ (s : State) (o : Org) (p : KeyOp), s.lkt.ops.find? (fun q => sameCmd q.org o) = some p → s.keyUsable p.handle = false →
    ((s.hf p.org.half).mbx.started.any fun c => sameCmd c.org p.org) = true →
    Ends (.orphanedOperationAbort o) s fun t => (∀ q ∈ t.lkt.ops, sameCmd q.org o = false) ∧ t.lkt.ents = s.lkt.ents ∧ AnsweredWith t p.org 0x0C0B stKeyOrphaned true [] ∧
        Frame (.lkt :: bothMbx) s t) ∧
  (∀ (s : State) (o : Org) (p : KeyOp), s.lkt.ops.find? (fun q => sameCmd q.org o) = some p → s.keyUsable p.handle = true → exec (.orphanedOperationAbort o) s = .next s) ∧
  (∀ (s : State) (o : Org), s.lkt.ops = [] → exec (.orphanedOperationAbort o) s = .next s) ∧
  (∀ (s : State) (o : Org) (x : Half) (r k : Nat) (l : List Nat), RunsAt s o 0x0C07 x r → r ∈ rNotPublic →
    (s.keyE k = none → Ends (.lktPublic o k l) s fun t => AnsweredWith t o 0x0C07 0x0C01 true [] ∧ Frame [.mbx o.half] s t) ∧
        (∀ e, s.keyE k = some e → e.typ < 0x10 ∨ e.typ = 0x30 → Ends (.lktPublic o k l) s fun t => AnsweredWith t o 0x0C07 0x0C05 true [] ∧ Frame [.mbx o.half] s t) ∧
        (∀ e, s.keyE k = some e → 0x10 ≤ e.typ → e.typ ≠ 0x30 → e.typ ≠ 0x12 → e.typ ≠ 0x13 → Room s o l.length →
          Ends (.lktPublic o k l) s fun t => AnsweredWith t o 0x0C07 stOk true l ∧ Frame [.mbx o.half] s t) ∧
        (∀ e, s.keyE k = some e → e.typ = 0x12 ∨ e.typ = 0x13 → Room s o e.mat.length →
          Ends (.lktPublic o k l) s fun t => AnsweredWith t o 0x0C07 stOk true e.mat ∧ Frame [.mbx o.half] s t)) ∧
  (∀ (s : State) (o : Org) (x : Half) (r k : Nat), RunsAt s o 0x0C06 x r → r ∈ rNotPublic → k.testBit 31 = false →
    (s.keyE k = none → Ends (.lktInfo o k) s fun t => AnsweredWith t o 0x0C06 0x0C01 true [] ∧ Frame [.mbx o.half] s t) ∧
        (∀ e, s.keyE k = some e → Room s o 66 → Ends (.lktInfo o k) s fun t => AnsweredWith t o 0x0C06 stOk true (e.head ++ le 2 (s.descend 7 k).length) ∧ Frame [.mbx o.half] s t)) ∧
  (∀ (s : State) (o : Org) (x : Half) (r k : Nat), RunsAt s o 0x0C06 x r → r ∈ rNotPublic → k.testBit 31 = true →
    (s.keyAt (keyIdx k) = none → Ends (.lktInfo o k) s fun t => AnsweredWith t o 0x0C06 0x0C01 true [] ∧ Frame [.mbx o.half] s t) ∧
        (∀ e, s.keyAt (keyIdx k) = some e → Room s o 66 →
          Ends (.lktInfo o k) s fun t => AnsweredWith t o 0x0C06 stOk true (e.head ++ le 2 (s.descend 7 e.handle).length) ∧ Frame [.mbx o.half] s t)) ∧
  (∀ (s : State) (o : Org) (x : Half) (r tx : Nat), RunsAt s o 0x0C0C x r → r ∈ rNotPublic →
    ((∀ e ∈ s.lkt.txs, e.1 ≠ tx) → Ends (.lktTxquery o tx) s fun t => AnsweredWith t o 0x0C0C 0x0C0B true [] ∧ Frame [.mbx o.half] s t) ∧
        (∀ k h, s.lkt.txs.getLast? = some (tx, k, h) → Ends (.lktTxquery o tx) s fun t => AnsweredWith t o 0x0C0C stOk true (le 8 k ++ le 4 h) ∧ Frame [.mbx o.half] s t))

/-- Invalidations, sweeps, the journal, pairings, key rolls and attestations of Locket follow R440 to R460. (R431, R440, R441, R442, R443, R445, R447, R448, R451, R453, R459, R460)
Where the spec leaves a point open, the clauses follow the model's choice in log entry 54. -/
def Obligations.KeyInvalidationPairingAndRecovery : Prop :=
  (∀ (s : State) (o : Org) (x : Half) (r tx k : Nat) (e : KeyE), RunsAt s o 0x0C05 x r → r ∈ rAny → s.holdup = false → s.keyE k = some e → e.use.testBit 9 = false → e.st ≠ 2 → e.admRoles.testBit r = true →
    Ends (.lktInvalidate o tx k) s fun t => (∃ iv, t.keyAt (keyIdx k) = some { e with st := 2, iv := iv }) ∧ (∀ j, j ≠ keyIdx k → t.keyAt j = s.keyAt j) ∧ t.lkt.c = s.lkt.c + 1 ∧
        t.lkt.cuts = s.lkt.cuts ++ [{ handle := k, edge := s.now + 1, k := s.lkt.c + 1, org := some o }] ∧ t.lkt.txs.getLast? = some (tx, s.lkt.c + 1, k) ∧
        AnsweredWith t o 0x0C05 stPending false [] ∧ Frame [.free, .lkt, .mbx o.half] s t) ∧
  (∀ (s : State) (o : Org) (x : Half) (r tx k : Nat), RunsAt s o 0x0C05 x r → r ∈ rAny → s.holdup = false →
    (s.keyE k = none → Ends (.lktInvalidate o tx k) s fun t => AnsweredWith t o 0x0C05 0x0C01 true [] ∧ Frame [.mbx o.half] s t) ∧
        (∀ e, s.keyE k = some e → e.use.testBit 9 = true → Ends (.lktInvalidate o tx k) s fun t => AnsweredWith t o 0x0C05 0x0C07 true [] ∧ Frame [.mbx o.half] s t) ∧
        (∀ e, s.keyE k = some e → e.use.testBit 9 = false → e.st = 2 → Ends (.lktInvalidate o tx k) s fun t => AnsweredWith t o 0x0C05 0x0C03 true [] ∧ Frame [.mbx o.half] s t) ∧
        (∀ e, s.keyE k = some e → e.use.testBit 9 = false → e.st ≠ 2 → e.admRoles.testBit r = false → Ends (.lktInvalidate o tx k) s fun t => AnsweredWith t o 0x0C05 stRole true [] ∧ Frame [.mbx o.half] s t)) ∧
  (∀ (s : State) (k : Nat) (c : CutS) (o : Org), s.lkt.cuts.find? (fun c => c.handle == k) = some c → c.edge ≤ s.now → c.org = some o →
    ((s.hf o.half).mbx.started.any fun d => sameCmd d.org o) = true →
    Ends (.invalidationCutoff k) s fun t => t.beforeCutoff k = false ∧ t.lkt.sweep = s.lkt.sweep ++ [k] ∧ t.lkt.ents = s.lkt.ents ∧
        AnsweredWith t o 0x0C05 stOk true (le 8 c.edge ++ le 8 c.k) ∧ (∀ h, Raised t h 0 0x0C02 (le 4 k ++ le 4 0 ++ le 8 c.edge)) ∧ Frame (.lkt :: bothMbx) s t) ∧
  (∀ (s : State) (k : Nat) (c : CutS), s.lkt.cuts.find? (fun c => c.handle == k) = some c → s.now < c.edge → exec (.invalidationCutoff k) s = .next s) ∧
  (∀ (s : State) (e : KeyE) (k : Nat), s.keyE k = some e → e.st = 2 → s.beforeCutoff k = false → s.keyUsable k = false ∧ ∀ r g p u, s.useStatus k r g p u = 0x0C03) ∧
  (∀ (s : State), Ends .locketSweep s fun t => t.lkt.sweep = [] ∧
        (∀ e ∈ t.lkt.ents, ∀ k, e.2 = some k → k.handle ∉ s.lkt.sweep ∧ k.parent ∉ s.lkt.sweep) ∧
        (∀ e ∈ t.lkt.ents, ∀ k, e.2 = some k → ∀ a ∈ s.lkt.ents, ∀ x, a.2 = some x → x.parent ∈ s.lkt.sweep → k.parent ≠ x.handle) ∧
        (∀ e ∈ t.lkt.ents, e ∈ s.lkt.ents) ∧ t.lkt.c = s.lkt.c ∧ Frame [.lkt] s t) ∧
  (∀ (s : State) (a : JSlot), s.lkt.starting = 1 → s.lkt.slot0 = some a → a.k = s.lkt.c → a.done = false → s.lkt.slot1 = none →
    Ends .journalRecovery s fun t => t.lkt.ents = applyImages s.lkt.ents a.images ∧ t.lkt.slot0 = some { a with done := true } ∧ t.lkt.c = s.lkt.c ∧
        bitAt (t.rg .lkt .A 0x108) 30 = true ∧ t.lkt.starting = 0 ∧ Frame [.free, .regs .lkt, .lkt] s t) ∧
  (∀ (s : State) (a : JSlot), s.lkt.starting = 1 → s.lkt.slot0 = some a → s.lkt.c < a.k → s.lkt.slot1 = none →
    Ends .journalRecovery s fun t => t.lkt.ents = s.lkt.ents ∧ t.lkt.slot0 = none ∧ t.lkt.c = s.lkt.c ∧ Frame [.free, .lkt] s t) ∧
  (∀ (s : State), s.lkt.starting = 0 → exec .journalRecovery s = .next s) ∧
  (∀ (s : State), s.lkt.starting = 2 →
    Ends .journalRecovery s fun t => t.lkt.c = s.lkt.c ∧ t.lkt.ops = [] ∧ t.lkt.cuts = [] ∧ t.lkt.rolls = [] ∧
        (∀ e ∈ t.lkt.ents, ∀ k, e.2 = some k → k.use.testBit 8 = false ∨ k.handle = 0x4004) ∧ (∀ e ∈ t.lkt.ents, ∀ k, e.2 = some k → k.st = 2 → k.handle ∈ t.lkt.sweep) ∧
        (∀ e ∈ t.lkt.ents, ∀ k, e.2 = some k → k.handle = 0x4004 → k.mat = s.randomMat 2) ∧ t.lkt.starting = 0 ∧ t.lkt.waiting = [] ∧ Frame [.free, .regs .lkt, .lkt] s t) ∧
  (∀ (s : State) (i : Nat) (e : KeyE), s.keyAt i = some e →
    Ends (.materialTagFault i) s fun t => t.keyAt i = some { e with st := 2 } ∧ (∀ j, j ≠ i → t.keyAt j = s.keyAt j) ∧ bitAt (t.rg .lkt .A 0x108) 29 = true ∧
        (∀ h, Raised t h 2 0x0C01 (le 4 e.handle)) ∧ Frame (.regs .lkt :: .lkt :: bothMbx) s t) ∧
  (∀ (s : State) (i : Nat), s.keyAt i = none → exec (.materialTagFault i) s = .next s) ∧
  (∀ (s : State) (o : Org) (x : Half) (r tx kind port rid : Nat) (z ps key : List Nat) (pair i j : Nat) (p : KeyE), RunsAt s o 0x0C08 x r → (kind = 1 ∧ (r = rInstaller ∨ r = rVendor)) ∨ (kind = 2 ∧ r = rLegal) →
    s.holdup = false → port < 80 → rid < 2 ^ 32 → pair = (s.rg .lkt .A 0x14).toNat → s.useStatus pair none 2 0 4 = stOk → s.keyE pair = some p → p.admRoles.testBit r = true → p.depth < 6 →
    within (if kind = 1 then 1 else 2) p.dom = true → (s.psOf fun k => k.binding == psBinding rid port kind) = none → s.freeSlot [] = some i → s.freeSlot [i] = some j →
    ps = hkdf256 (hmac256 (s.lkt.module ++ le 4 rid) z) [78, 69, 80, 69, 76, 32, 80, 65, 73, 82] 32 →
    key = (if kind = 1 then nepelKey ps rid 1 else hkdf256 ps ([77, 69, 84, 69, 82, 32, 72, 69, 65, 68] ++ le 4 rid ++ le 4 0) 32) →
    Ends (.lktPair o tx kind port rid z) s fun t => t.lkt.c = s.lkt.c + 1 ∧
        (∃ a b, t.keyAt i = some a ∧ t.keyAt j = some b ∧ a.typ = 3 ∧ a.parent = pair ∧ a.binding = psBinding rid port kind ∧ a.mat = ps ∧ a.st = 1 ∧ a.depth = p.depth + 1 ∧
          b.typ = 2 ∧ b.parent = a.handle ∧ b.mat = key ∧ b.st = 1 ∧ b.depth = p.depth + 2 ∧ b.binding = rid + (if kind = 1 then 2 ^ 32 else 0) ∧
          AnsweredWith t o 0x0C08 stOk true (le 4 a.handle ++ le 4 b.handle ++ le 8 (s.lkt.c + 1))) ∧
        (kind = 1 → (∀ h, (t.port h port).keygen = true) ∧ (t.rem port).link = some (1, key)) ∧ (kind = 2 → t.rems = s.rems) ∧
        Frame [.free, .ports .A, .ports .B, .rems, .lkt, .mbx o.half] s t) ∧
  (∀ (s : State) (o : Org) (x : Half) (r tx kind port rid : Nat) (z : List Nat), RunsAt s o 0x0C08 x r → r ∈ [rInstaller, rVendor, rLegal] → s.holdup = false →
    ((kind ≠ 1 ∧ kind ≠ 2) ∨ 80 ≤ port → Ends (.lktPair o tx kind port rid z) s fun t => AnsweredWith t o 0x0C08 stRange true [] ∧ Frame [.mbx o.half] s t) ∧
        ((kind = 1 ∧ r = rLegal) ∨ (kind = 2 ∧ r ≠ rLegal) → port < 80 → Ends (.lktPair o tx kind port rid z) s fun t => AnsweredWith t o 0x0C08 stRole true [] ∧ Frame [.mbx o.half] s t)) ∧
  (∀ (s : State) (o : Org) (x : Half) (r tx port i n : Nat) (ps e : KeyE), RunsAt s o 0x0C09 x r → r ∈ [rOperator, rInstaller, rVendor] → s.holdup = false → s.remotePs port = some ps → s.linkKey ps.handle = some (n, e) →
    s.keyUsable ps.handle = true → look none s.lkt.rolls port = none → s.freeSlot [] = some i → (∀ h, (s.port h port).pstate = 4) →
    Ends (.lktRoll o tx port) s fun t => (∃ k w, t.keyAt i = some k ∧ look none t.lkt.rolls port = some w ∧ k.parent = e.parent ∧ k.typ = e.typ ∧
          k.mat = nepelKey ps.mat (ps.binding % 2 ^ 32) (n + 1) ∧ k.st = 1 ∧ k.binding = e.binding % 2 ^ 32 + (n + 1) * 2 ^ 32 ∧ w.n = n + 1 ∧ w.old = e.handle ∧ w.key = k.handle ∧
          w.edge = s.now + 400 ∧ w.org = o) ∧
        (∀ h, ∃ m, (look {} (t.port h port).tx 0x43).msgs = (look {} (s.port h port).tx 0x43).msgs ++ [m] ∧ m.bytes = keyrollMsg ((n + 1) % 2) (s.now + 400)) ∧
        AnsweredWith t o 0x0C09 stPending false (le 8 (s.now + 400)) ∧ Frame [.free, .ports .A, .ports .B, .lkt, .mbx o.half] s t) ∧
  (∀ (s : State) (o : Org) (x : Half) (r tx port : Nat), RunsAt s o 0x0C09 x r → r ∈ [rOperator, rInstaller, rVendor] → s.holdup = false → s.remotePs port = none →
    Ends (.lktRoll o tx port) s fun t => AnsweredWith t o 0x0C09 0x0C01 true [] ∧ Frame [.mbx o.half] s t) ∧
  (∀ (s : State) (o : Org) (x : Half) (r tx port n : Nat) (ps e : KeyE) (w : RollS), RunsAt s o 0x0C09 x r → r ∈ [rOperator, rInstaller, rVendor] → s.holdup = false → s.remotePs port = some ps → s.linkKey ps.handle = some (n, e) →
    s.keyUsable ps.handle = true → look none s.lkt.rolls port = some w →
    Ends (.lktRoll o tx port) s fun t => AnsweredWith t o 0x0C09 0x0C0A true [] ∧ Frame [.mbx o.half] s t) ∧
  (∀ (s : State) (o : Org) (x h : Half) (r tx port i n : Nat) (ps e : KeyE), RunsAt s o 0x0C09 x r → r ∈ [rOperator, rInstaller, rVendor] → s.holdup = false → s.remotePs port = some ps → s.linkKey ps.handle = some (n, e) →
    s.keyUsable ps.handle = true → look none s.lkt.rolls port = none → s.freeSlot [] = some i →
    ((s.port h port).pstate = 5 → Ends (.lktRoll o tx port) s fun t => AnsweredWith t o 0x0C09 0x0402 true [] ∧ Frame [.mbx o.half] s t) ∧
        ((∀ g, (s.port g port).pstate ≠ 5) → (s.port h port).pstate ≠ 4 → Ends (.lktRoll o tx port) s fun t => AnsweredWith t o 0x0C09 0x0401 true [] ∧ Frame [.mbx o.half] s t)) ∧
  (∀ (s : State) (p : Nat) (w : RollS), look none s.lkt.rolls p = some w → s.now + 20 < w.edge ∨ s.rollAcked p w = true → exec (.keyrollAckDeadline p) s = .next s) ∧
  (∀ (s : State) (p : Nat) (w : RollS) (e : KeyE), look none s.lkt.rolls p = some w → w.edge ≤ s.now + 20 → s.rollAcked p w = false → s.holdup = false → s.keyE w.key = some e →
    ((s.hf w.org.half).mbx.started.any fun d => sameCmd d.org w.org) = true →
    Ends (.keyrollAckDeadline p) s fun t => look none t.lkt.rolls p = none ∧ (∃ iv, t.keyAt (keyIdx w.key) = some { e with st := 2, iv := iv }) ∧
        (∀ h, ∃ m, (look {} (t.port h p).tx 0x43).msgs = (look {} (s.port h p).tx 0x43).msgs ++ [m] ∧ m.bytes = keyrollMsg (w.n % 2) 0) ∧
        AnsweredWith t w.org 0x0C09 0x0C0A true [] ∧ Frame (.free :: .ports .A :: .ports .B :: .lkt :: bothMbx) s t) ∧
  (∀ (s : State) (p : Nat) (w : RollS), look none s.lkt.rolls p = some w → w.edge ≤ s.now → s.rollAcked p w = true →
    Ends (.keyrollSwitch p) s fun t => (∀ h, (t.port h p).keygen = (w.n % 2 == 1)) ∧ (∀ h q, q ≠ p → t.port h q = s.port h q) ∧ Frame [.ports .A, .ports .B] s t) ∧
  (∀ (s : State) (p : Nat) (w : RollS), look none s.lkt.rolls p = some w →
    (s.now < w.edge ∨ s.rollAcked p w = false → exec (.keyrollSwitch p) s = .next s) ∧
        (s.now < w.edge + 100 ∨ s.rollAcked p w = false ∨ s.holdup = true → exec (.keyrollRetire p) s = .next s)) ∧
  (∀ (s : State) (p : Nat) (w : RollS) (e : KeyE), look none s.lkt.rolls p = some w → w.edge + 100 ≤ s.now → s.rollAcked p w = true → s.holdup = false → s.keyE w.old = some e →
    ((s.hf w.org.half).mbx.started.any fun d => sameCmd d.org w.org) = true →
    Ends (.keyrollRetire p) s fun t => look none t.lkt.rolls p = none ∧ (∃ iv, t.keyAt (keyIdx w.old) = some { e with st := 2, iv := iv }) ∧
        AnsweredWith t w.org 0x0C09 stOk true (le 4 w.n ++ le 4 w.key ++ le 8 (s.lkt.c + 1)) ∧ Frame (.free :: .lkt :: bothMbx) s t) ∧
  (∀ (s : State) (o : Org) (x : Half) (r k st : Nat) (n p g : List Nat), RunsAt s o 0x0C0A x r → r ∈ rAny → fld (s.rg .lkt .A 0x20) 31 30 ≠ 1 →
    st = s.useStatus (s.rg .lkt .A 0).toNat none 8 0 2 → st ≠ stOk →
    Ends (.lktAttest o n k p g) s fun t => AnsweredWith t o 0x0C0A st true [] ∧ Frame [.mbx o.half] s t) ∧
  (∀ (s : State) (o : Org) (x : Half) (r k : Nat) (n p g : List Nat), RunsAt s o 0x0C0A x r → r ∈ rAny → fld (s.rg .lkt .A 0x20) 31 30 = 1 → s.keyE k = none →
    Ends (.lktAttest o n k p g) s fun t => AnsweredWith t o 0x0C0A (if k = 0xFFFFFFFF then stRange else 0x0C01) true [] ∧ Frame [.mbx o.half] s t) ∧
  (∀ (s : State) (o : Org) (x : Half) (r k : Nat) (n p g b : List Nat) (e : KeyE), RunsAt s o 0x0C0A x r → r ∈ rAny → fld (s.rg .lkt .A 0x20) 31 30 = 1 → s.keyE k = some e →
    b = s.provenance (bitAt (s.rg .lkt .A 0x20) 29) n e (e.pubHash p) ++ padTo (if bitAt (s.rg .lkt .A 0x20) 29 then 3405 else 96) g → Room s o b.length →
    Ends (.lktAttest o n k p g) s fun t => AnsweredWith t o 0x0C0A stOk true b ∧ Frame [.mbx o.half] s t) ∧
  (∀ (s : State) (o : Org) (x : Half) (r k : Nat) (n p g b : List Nat), RunsAt s o 0x0C0A x r → r ∈ rAny → fld (s.rg .lkt .A 0x20) 31 30 = 2 → s.useStatus (s.rg .lkt .A 0).toNat none 8 0 2 = stOk → (bitAt (s.rg .lkt .A 0x20) 29 = true → s.useStatus (s.rg .lkt .A 4).toNat none 8 0 2 = stOk) →
    b = s.identity (bitAt (s.rg .lkt .A 0x20) 29) n (s.upd.meas.map (·.2)) ++ padTo (if bitAt (s.rg .lkt .A 0x20) 29 then 3405 else 96) g → Room s o b.length →
    Ends (.lktAttest o n k p g) s fun t => AnsweredWith t o 0x0C0A stOk true b ∧ Frame [.mbx o.half] s t) ∧
  (∀ (s : State) (o : Org) (x : Half) (r k : Nat) (n p g b : List Nat) (e : KeyE), RunsAt s o 0x0C0A x r → r ∈ rAny → fld (s.rg .lkt .A 0x20) 31 30 = 3 → s.useStatus (s.rg .lkt .A 0).toNat none 8 0 2 = stOk → (bitAt (s.rg .lkt .A 0x20) 29 = true → s.useStatus (s.rg .lkt .A 4).toNat none 8 0 2 = stOk) →
    s.keyE (s.rg .lkt .A 0).toNat = some e → b = s.identity (bitAt (s.rg .lkt .A 0x20) 29) n (s.upd.meas.map (·.2)) ++ padTo (if bitAt (s.rg .lkt .A 0x20) 29 then 3405 else 96) g ++ s.provenance (bitAt (s.rg .lkt .A 0x20) 29) n e (e.pubHash p) ++ padTo (if bitAt (s.rg .lkt .A 0x20) 29 then 3405 else 96) (g.drop (if bitAt (s.rg .lkt .A 0x20) 29 then 3405 else 96)) →
    Room s o b.length → Ends (.lktAttest o n k p g) s fun t => AnsweredWith t o 0x0C0A stOk true b ∧ Frame [.mbx o.half] s t)

/-- Safety zones leave RUN on a demand, remove energy at the end of a safe stop and start again only after a reset under R466 to R478. (R466, R467, R468, R469, R474, R475, R477, R478, R495)
Where the spec leaves a point open, the clauses follow the model's choice in log entries 41, 42, 44. -/
def Obligations.SafetyZonesAndResets : Prop :=
  (∀ (s : State) (z c d : Nat), s.demandNow z = some (c, d) → s.zoneEn z = true → (s.zone z).st = 1 → bitAt (s.sw (0x80 + 0x10 * z)) 30 = false →
    Ends (.zoneDemand z) s fun t => (t.zone z).st = 0 ∧ (t.zone z).cause = c ∧ (t.zone z).detail = d ∧ (t.zone z).since = s.now ∧ (∀ n < 8, (s.soZones n).testBit z = true → (t.outPair n).on = false) ∧
        (∀ y, y ≠ z → t.zone y = s.zone y) ∧ t.saf.log.count = s.saf.log.count + 1 ∧ Frame (.free :: .saf :: bothMbx) s t) ∧
  (∀ (s : State) (z c d : Nat), s.demandNow z = some (c, d) → s.zoneEn z = true → (s.zone z).st = 1 → bitAt (s.sw (0x80 + 0x10 * z)) 30 = true →
    Ends (.zoneDemand z) s fun t => (t.zone z).st = 2 ∧ (t.zone z).cause = c ∧ (t.zone z).detail = d ∧ (t.zone z).start = s.now ∧ t.saf.outs = s.saf.outs ∧
        (∀ k < 48, (s.zoneOuts z).testBit k = true → look 0 (t.zone z).i0 k = numAt (s.conn (32 + k)).he.data 2 2) ∧ (∀ y, y ≠ z → t.zone y = s.zone y) ∧ Frame (.free :: .saf :: bothMbx) s t) ∧
  (∀ (s : State) (z : Nat), s.demandNow z = none ∨ s.zoneEn z = false ∨ (s.zone z).st ≠ 1 → exec (.zoneDemand z) s = .next s) ∧
  (∀ (s : State) (z : Nat), s.zoneEn z = true → (s.zone z).st = 1 → (∃ n < 16, (s.zoneTrig z).testBit n = true ∧ (s.inPair n).run = none) ∨
    (∃ n < 128, s.connEn n = true ∧ (s.connZones n).testBit z = true ∧ ((s.conn n).he.service = false ∨ s.demandOk n = false)) ∨ s.therm.stop ≠ none →
    Ends (.zoneDemand z) s fun t => (t.zone z).st = (if bitAt (s.sw (0x80 + 0x10 * z)) 30 then 2 else 0)) ∧
  (∀ (s : State) (z k n : Nat), (s.zone z).st = 2 → (s.zone z).above.find? (fun e => decide (2 ≤ e.2)) = some (k, n) →
    Ends (.envelopeViolation z) s fun t => (t.zone z).st = 0 ∧ (t.zone z).since = s.now ∧ (∀ n < 8, (s.soZones n).testBit z = true → (t.outPair n).on = false) ∧ (∀ y, y ≠ z → t.zone y = s.zone y) ∧ (t.zone z).cause = 5 ∧ (t.zone z).detail = 32 + k ∧ bitAt (t.sw 0xB08) 22 = true ∧ Frame (.free :: .regs .saf :: .saf :: bothMbx) s t) ∧
  (∀ (s : State) (z : Nat), (s.zone z).st = 2 → (∀ n ∈ s.zoneConns z, 4 ≤ look 0 (s.zone z).low n) →
    Ends (.energyRemoval z) s fun t => (t.zone z).st = 0 ∧ (t.zone z).since = s.now ∧ (∀ n < 8, (s.soZones n).testBit z = true → (t.outPair n).on = false) ∧ (∀ y, y ≠ z → t.zone y = s.zone y) ∧ (t.zone z).cause = (s.zone z).cause ∧ (t.zone z).detail = (s.zone z).detail ∧ Frame (.free :: .saf :: bothMbx) s t) ∧
  (∀ (s : State) (z : Nat), (s.zone z).st = 2 → (s.zone z).start + s.zoneStop z ≤ s.now →
    Ends (.safeStopTimeout z) s fun t => (t.zone z).st = 0 ∧ (t.zone z).since = s.now ∧ (∀ n < 8, (s.soZones n).testBit z = true → (t.outPair n).on = false) ∧ (∀ y, y ≠ z → t.zone y = s.zone y) ∧ (t.zone z).cause = (s.zone z).cause ∧ (t.zone z).detail = (s.zone z).detail ∧ Frame (.free :: .saf :: bothMbx) s t) ∧
  (∀ (s : State) (z : Nat), (s.zone z).st ≠ 2 → exec (.envelopeViolation z) s = .next s ∧ exec (.energyRemoval z) s = .next s ∧ exec (.safeStopTimeout z) s = .next s) ∧
  (∀ (s : State) (z : Nat), (s.zone z).st = 2 → s.now < (s.zone z).start + s.zoneStop z → exec (.safeStopTimeout z) s = .next s) ∧
  (∀ (s : State) (z : Nat), s.zoneEn z = true → (s.zone z).st = 0 → (s.zone z).resetAt = some s.now ∨ bitAt (s.sw (0x80 + 0x10 * z)) 29 = true → s.islandUp = true →
    (∀ n < 16, (s.zoneTrig z).testBit n = true → ∃ a, (s.inPair n).run = some a ∧ a + 2000 ≤ s.now) →
    (∀ n < 128, s.connEn n = true → (s.connZones n).testBit z = true → (s.conn n).he.service = true ∧ s.demandOk n = true) →
    (∀ n < 8, s.fbkEn n = true → (s.outPair n).fbk = true) →
    Ends (.zoneReset z) s fun t => (t.zone z).st = 1 ∧ (t.zone z).cause = 0 ∧ (t.zone z).since = s.now ∧ (t.zone z).resetAt = none ∧
        (∀ n < 8, t.pairWanted n = true → (t.outPair n).on = true) ∧ (∀ y, y ≠ z → t.zone y = s.zone y) ∧ Frame (.free :: .regs .saf :: .saf :: bothMbx) s t) ∧
  (∀ (s : State) (z : Nat), (s.zone z).st ≠ 0 ∨ s.startOk z = false ∨ s.islandUp = false ∨ ((s.zone z).resetAt = none ∧ bitAt (s.sw (0x80 + 0x10 * z)) 29 = false) →
    exec (.zoneReset z) s = .next s) ∧
  (∀ (s : State) (src n : Nat), (s.resetSrc src).2.1 = some n → 2000 ≤ n → n ≤ 40000 →
    Ends (.resetPulse src) s fun t => (∀ z ∈ s.resetZones src, (t.zone z).resetAt = some s.now ∧ (t.zone z).st = (s.zone z).st) ∧ (∀ z, z ∉ s.resetZones src → t.zone z = s.zone z) ∧
        (t.resetSrc src).2.1 = none ∧ Frame [.saf] s t) ∧
  (∀ (s : State) (src n : Nat), (s.resetSrc src).2.1 = some n → n < 2000 →
    Ends (.resetPulse src) s fun t => t.saf.zones = s.saf.zones ∧ (t.resetSrc src).2.1 = none ∧ Frame [.saf] s t) ∧
  (∀ (s : State) (src n : Nat), (s.resetSrc src).2.1 = some n → 40000 < n →
    Ends (.resetPulse src) s fun t => t.saf.zones = s.saf.zones ∧ (t.resetSrc src).2.1 = none ∧ bitAt (t.sw 0xB08) 27 = true ∧ Frame (.free :: .regs .saf :: .saf :: bothMbx) s t) ∧
  (∀ (s : State) (src a : Nat) (l : Option Nat), s.resetSrc src = (some a, l, false) → a + 600000 < s.now →
    Ends (.resetJammed src) s fun t => (t.resetSrc src).2.2 = true ∧ bitAt (t.sw 0xB08) 26 = true ∧ t.saf.zones = s.saf.zones ∧ t.saf.log.count = s.saf.log.count + 1 ∧ Frame (.free :: .regs .saf :: .saf :: bothMbx) s t) ∧
  (∀ (s : State) (src : Nat), ((s.resetSrc src).2.1 = none → exec (.resetPulse src) s = .next s) ∧
    ((s.resetSrc src).1 = none ∨ (s.resetSrc src).2.2 = true → exec (.resetJammed src) s = .next s)) ∧
  (∀ (s : State) (k : Nat), s.permitOut k = true ↔ (∃ z < 8, s.zoneEn z = true ∧ (s.zoneOuts z).testBit k = true) ∧
        ∀ z < 8, s.zoneEn z = true → (s.zoneOuts z).testBit k = true → (s.zone z).st = 1 ∨ (s.zone z).st = 2) ∧
  (∀ (s : State), Ends .safetyStateDelivery s fun t =>
        (∀ h, (∀ c < 32, (t.hf h).saf.permCab.testBit c = s.permitCab c ∧ (t.hf h).saf.stopCab.testBit c = s.stopCab c) ∧
          (∀ k < 48, (t.hf h).saf.permOut.testBit k = s.permitOut k ∧ (t.hf h).saf.stopOut.testBit k = s.stopOut k) ∧
          ∀ n < 512, t.rf .cnp h (0x5000 + 4 * n) 15 12 = look 0 s.saf.poleFb n % 16) ∧ Frame [.regs .cnp, .safv .A, .safv .B] s t) ∧
  (∀ (s : State) (o : Org) (x : Half) (r m : Nat), RunsAt s o 0x0D01 x r → r ∈ [rOperator, rInstaller, rVendor] →
    Ends (.safStop o m) s fun t => (∀ z < 8, m.testBit z = true → s.zoneEn z = true → (s.zone z).st = 1 → (t.zone z).st = (if bitAt (s.sw (0x80 + 0x10 * z)) 30 then 2 else 0) ∧ (t.zone z).cause = 4) ∧
        (∀ z, m.testBit z = false → t.zone z = s.zone z) ∧ AnsweredWith t o 0x0D01 stOk true (le 8 s.now) ∧ Frame (.free :: .saf :: bothMbx) s t) ∧
  (∀ (s : State) (o : Org) (x : Half) (r m : Nat), RunsAt s o 0x0D01 x r → r ∈ [rPublic, rBilling, rLegal] → Ends (.safStop o m) s fun t => AnsweredWith t o 0x0D01 stRole true [] ∧ Frame [.mbx o.half] s t) ∧
  (∀ (s : State) (o : Org) (x : Half) (r m : Nat), RunsAt s o 0x0D02 x r → r ∈ [rInstaller, rVendor] → (∃ z < 8, m.testBit z = true ∧ (s.zone z).st ≠ 3) →
    Ends (.safFaultClear o m) s fun t => AnsweredWith t o 0x0D02 0x0D03 true [] ∧ Frame [.mbx o.half] s t) ∧
  (∀ (s : State) (o : Org) (x : Half) (r m z : Nat) (e : Nat × Nat), RunsAt s o 0x0D02 x r → r ∈ [rInstaller, rVendor] → (∀ z < 8, m.testBit z = true → (s.zone z).st = 3) → z < 8 → m.testBit z = true →
    e ∈ (s.zone z).faults → s.faultGone e = false → Ends (.safFaultClear o m) s fun t => AnsweredWith t o 0x0D02 0x0D02 true [] ∧ Frame [.mbx o.half] s t) ∧
  (∀ (s : State) (o : Org) (x : Half) (r m : Nat), RunsAt s o 0x0D02 x r → r ∈ [rInstaller, rVendor] → (∀ z < 8, m.testBit z = true → (s.zone z).st = 3 ∧ ∀ e ∈ (s.zone z).faults, s.faultGone e = true) →
    Ends (.safFaultClear o m) s fun t => (∀ z < 8, m.testBit z = true → (t.zone z).st = 0 ∧ (t.zone z).faults = []) ∧ (∀ z, m.testBit z = false → t.zone z = s.zone z) ∧
        AnsweredWith t o 0x0D02 stOk true [] ∧ Frame (.free :: .saf :: bothMbx) s t) ∧
  (∀ (s : State) (o : Org) (x : Half) (r f n : Nat), RunsAt s o 0x0D03 x r → r ∈ [rOperator, rInstaller, rLegal, rVendor] →
    (n = 0 ∨ 128 < n → Ends (.safLogRead o f n) s fun t => AnsweredWith t o 0x0D03 stRange true [] ∧ Frame [.mbx o.half] s t) ∧
        (1 ≤ n → n ≤ 128 → Room s o (s.saf.log.read f n).length →
          Ends (.safLogRead o f n) s fun t => AnsweredWith t o 0x0D03 stOk true (s.saf.log.read f n) ∧ Frame [.mbx o.half] s t))

/-- The safety island checks its channels, inputs, outputs and contactors, and runs its Harvitor connections, as R462 to R484 say. (R462, R464, R465, R470, R471, R472, R473, R476, R480, R481, R482, R483)
Where the spec leaves a point open, the clauses follow the model's choice in log entries 37, 40, 41, 42. -/
def Obligations.SafetyChecksAndConnections : Prop :=
  (∀ (s : State) (a b n : Nat) (p : InPair), n < 16 → bitAt (s.sw (4 * n)) 31 = true → bitAt (s.sw (4 * n)) 30 = false →
    p = (s.inPair n).sample s.now (fld (s.sw (4 * n)) 23 16) (a.testBit n) (b.testBit n) →
    Ends (.safetyInputSample a b) s fun t => t.inPair n = p ∧ (p.run = none → ∀ z < 8, (s.zoneTrig z).testBit n = true → s.zoneEn z = true → (t.zone z).st ≠ 1) ∧ Frame (.free :: .saf :: bothMbx) s t) ∧
  (∀ (p : InPair) (now f : Nat) (a b : Bool), (p.disc = true → (p.sample now f a b).run = none) ∧ (p.la = a → p.lb = b → now < p.ta + 20 * f → now < p.tb + 20 * f →
        (p.sample now f a b).fa = p.fa ∧ (p.sample now f a b).fb = p.fb) ∧
    (p.la = a → p.ta + 20 * f ≤ now → (p.sample now f a b).fa = some a ∧ (a = false → (p.sample now f a b).run = none))) ∧
  (∀ (s : State) (a b n : Nat), n < 16 → bitAt (s.sw (4 * n)) 31 = false → Ends (.safetyInputSample a b) s fun t => t.inPair n = s.inPair n ∧ Frame (.free :: .saf :: bothMbx) s t) ∧
  (∀ (s : State) (n a : Nat), bitAt (s.sw (4 * n)) 31 = true → (s.inPair n).disc = false → (s.inPair n).eq = some a → a + 20 * fld (s.sw (4 * n)) 15 0 < s.now →
    Ends (.safetyDiscrepancy n) s fun t => (t.inPair n).disc = true ∧ (t.inPair n).run = none ∧ bitAt (t.sw 0xB08) 25 = true ∧
        (∀ z ∈ (List.range 8).filter fun z => (s.zoneTrig z).testBit n, s.zoneEn z = true → (t.zone z).st = 3 ∧ ∀ m < 8, (s.soZones m).testBit z = true → (t.outPair m).on = false) ∧ Frame (.free :: .regs .saf :: .saf :: bothMbx) s t) ∧
  (∀ (s : State) (n : Nat), (s.inPair n).eq = none ∨ (s.inPair n).disc = true ∨ bitAt (s.sw (4 * n)) 31 = false → exec (.safetyDiscrepancy n) s = .next s) ∧
  (∀ (s : State), Ends (.channelCompare false []) s fun t => t.saf.diff = 0 ∧ t.saf.zones = s.saf.zones ∧ (∀ n < 128, (t.conn n).supp = false) ∧ Frame [.saf] s t) ∧
  (∀ (s : State) (d : Bool) (l : List Nat), d = true ∨ l ≠ [] → s.saf.diff = 0 →
    Ends (.channelCompare d l) s fun t => t.saf.diff = 1 ∧ t.saf.zones = s.saf.zones ∧ t.saf.safeFault = s.saf.safeFault ∧ (∀ n < 128, (t.conn n).supp = decide (n ∈ l)) ∧ Frame [.saf] s t) ∧
  (∀ (s : State) (d : Bool) (l : List Nat), d = true ∨ l ≠ [] → s.saf.diff = 1 →
    Ends (.channelCompare d l) s fun t => t.saf.diff = 2 ∧ t.saf.safeFault = true ∧ bitAt (t.sw 0xB08) 28 = true ∧ (∀ z ∈ List.range 8, s.zoneEn z = true → (t.zone z).st = 3 ∧ ∀ m < 8, (s.soZones m).testBit z = true → (t.outPair m).on = false) ∧ Frame (.free :: .regs .saf :: .saf :: bothMbx) s t) ∧
  (∀ (s : State) (a b : Bool), s.pwr.up = false → exec (.safetyConfigCrcCheck a b) s = .next s) ∧
  (∀ (s : State), s.pwr.up = true → Ends (.safetyConfigCrcCheck true true) s fun t => t.saf = { s.saf with spOk := true, hwOk := true } ∧ Frame [.saf] s t) ∧
  (∀ (s : State) (a b : Bool), s.pwr.up = true → (a && b) = false →
    Ends (.safetyConfigCrcCheck a b) s fun t => (∀ z < 8, t.zone z = { since := s.now }) ∧ (∀ n < 8, (t.outPair n).on = false ∧ (t.outPair n).fbk = (s.outPair n).fbk) ∧ t.islandUp = false ∧ (∀ n, t.conn n = {}) ∧
        (∀ n < 16, (t.inPair n).run = none ∧ (t.inPair n).ta = s.now) ∧ t.sw 0xB08 = 0 ∧ t.saf.log = s.saf.log ∧ Frame [.regs .saf, .upd, .saf] s t) ∧
  (∀ (s : State), Ends .islandInternalReset s fun t => (∀ z < 8, t.zone z = { since := s.now }) ∧ (∀ n < 8, (t.outPair n).on = false ∧ (t.outPair n).fbk = (s.outPair n).fbk) ∧ t.islandUp = false ∧ (∀ n, t.conn n = {}) ∧ 
        (∀ n < 16, (t.inPair n).run = none ∧ (t.inPair n).ta = s.now) ∧ t.sw 0xB08 = 0 ∧ t.saf.log = s.saf.log ∧ Frame [.regs .saf, .upd, .saf] s t) ∧
  (∀ (s : State) (n : Nat) (b : Bool), n < 8 → (s.outPair n).on = true → bitAt (s.sw (0x40 + 4 * n)) 30 = false → exec (.safetyTestPulse n b true) s = .next s) ∧
  (∀ (s : State) (n : Nat) (b : Bool), n < 8 → (s.outPair n).on = false ∨ bitAt (s.sw (0x40 + 4 * n)) 30 = true →
    Ends (.safetyTestPulse n b true) s fun t =>
        t.outPair n = (if b then { s.outPair n with tpL := s.now, badL := false } else { s.outPair n with tpH := s.now, badH := false }) ∧ Frame [.saf] s t) ∧
  (∀ (s : State) (n : Nat) (b : Bool), n < 8 →
    Ends (.safetyTestPulse n b false) s fun t => (t.outPair n).on = false ∧ (t.outPair n).tpFault = true ∧ (if b then (t.outPair n).badL else (t.outPair n).badH) = true ∧ t.pairWanted n = false ∧ bitAt (t.sw 0xB08) 24 = true ∧
        (∀ z ∈ zonesOf (s.soZones n), s.zoneEn z = true → (t.zone z).st = 3 ∧ ∀ m < 8, (s.soZones m).testBit z = true → (t.outPair m).on = false) ∧ Frame (.free :: .regs .saf :: .saf :: bothMbx) s t) ∧
  (∀ (s : State) (n : Nat) (b : Bool), s.fbkEn n = true → b = (s.outPair n).on → (s.outPair n).followed = true →
    Ends (.contactorFeedbackChange n none b) s fun t => (t.outPair n).fbk = b ∧ (∀ z ∈ zonesOf (s.soZones n), s.zoneEn z = true → (t.zone z).st = 3 ∧ ∀ m < 8, (s.soZones m).testBit z = true → (t.outPair m).on = false) ∧ Frame (.free :: .saf :: bothMbx) s t) ∧
  (∀ (s : State) (n : Nat) (b : Bool), b ≠ (s.outPair n).on →
    Ends (.contactorFeedbackChange n none b) s fun t => t.outPair n = { s.outPair n with fbk := b, followed := true } ∧ t.saf.zones = s.saf.zones ∧ Frame [.saf] s t) ∧
  (∀ (s : State) (n g : Nat) (b : Bool), (b = (look 0 s.saf.poleCmd n).testBit g → Ends (.contactorFeedbackChange n (some g) b) s fun t => (∀ z ∈ s.poleZones n, s.zoneEn z = true → (t.zone z).st = 3 ∧ ∀ m < 8, (s.soZones m).testBit z = true → (t.outPair m).on = false) ∧ Frame (.free :: .saf :: bothMbx) s t) ∧
    (b ≠ (look 0 s.saf.poleCmd n).testBit g → exec (.contactorFeedbackChange n (some g) b) s = .next s)) ∧
  (∀ (s : State) (n : Nat), n < 8 → s.fbkEn n = true → (s.outPair n).followed = false → (s.outPair n).cmdTick + 200 * fld (s.sw (0x40 + 4 * n)) 7 0 ≤ s.now → (s.outPair n).on = false → (s.outPair n).fbk = false →
    Ends (.feedbackTimeout n none) s fun t => (t.outPair n).weld = true ∧ bitAt (t.sw 0xB08) 23 = true ∧ (∀ z ∈ zonesOf (s.soZones n), s.zoneEn z = true → (t.zone z).st = 3 ∧ ∀ m < 8, (s.soZones m).testBit z = true → (t.outPair m).on = false) ∧
        (∀ z ∈ zonesOf (s.soZones n), s.zoneEn z = true → bitAt (s.sw (0x80 + 0x10 * z)) 28 = true → (t.zone (fld (s.sw (0x80 + 0x10 * z)) 27 25)).st ≠ 1 ∨
          s.zoneEn (fld (s.sw (0x80 + 0x10 * z)) 27 25) = false) ∧ Frame (.free :: .regs .saf :: .saf :: bothMbx) s t) ∧
  (∀ (s : State) (n : Nat), s.fbkEn n = true → (s.outPair n).followed = false → (s.outPair n).cmdTick + 200 * fld (s.sw (0x40 + 4 * n)) 7 0 ≤ s.now → (s.outPair n).on = true → Ends (.feedbackTimeout n none) s fun t => (∀ z ∈ zonesOf (s.soZones n), s.zoneEn z = true → (t.zone z).st = 3 ∧ ∀ m < 8, (s.soZones m).testBit z = true → (t.outPair m).on = false) ∧ Frame (.free :: .saf :: bothMbx) s t) ∧
  (∀ (s : State) (n g : Nat), ((look 0 s.saf.poleCmd n).testBit g = (look 0 s.saf.poleFb n).testBit g → exec (.feedbackTimeout n (some g)) s = .next s) ∧
    ((look 0 s.saf.poleCmd n).testBit g ≠ (look 0 s.saf.poleFb n).testBit g → Ends (.feedbackTimeout n (some g)) s fun t => (∀ z ∈ s.poleZones n, s.zoneEn z = true → (t.zone z).st = 3 ∧ ∀ m < 8, (s.soZones m).testBit z = true → (t.outPair m).on = false) ∧ Frame (.free :: .regs .saf :: .saf :: bothMbx) s t)) ∧
  (∀ (s : State) (k : Nat), (s.conn (32 + k)).sto ≠ none → (numAt (s.conn (32 + k)).he.data 0 1).testBit 3 = false →
    Ends (.stoTimeout k) s fun t => (∀ z ∈ (List.range 8).filter fun z => (s.zoneOuts z).testBit k, s.zoneEn z = true → (t.zone z).st = 3 ∧ ∀ m < 8, (s.soZones m).testBit z = true → (t.outPair m).on = false) ∧ Frame (.free :: .saf :: bothMbx) s t) ∧
  (∀ (s : State) (k : Nat), (s.conn (32 + k)).sto = none ∨ (numAt (s.conn (32 + k)).he.data 0 1).testBit 3 = true → exec (.stoTimeout k) s = .next s) ∧
  (∀ (s : State) (n : Nat) (b : List Nat), s.connEn n = true → fld (s.sw (0x200 + 0x10 * n)) 30 29 = 1 → readPdu (s.connCid n) (s.connTexp n) true b = none →
    Ends (.harvitorPduReceived n b) s fun t => t.conn n = { s.conn n with he := { (s.conn n).he with rej := (s.conn n).he.rej + 1 } } ∧ t.saf.zones = s.saf.zones ∧ Frame [.saf] s t) ∧
  (∀ (s : State) (n q ec : Nat) (b d : List Nat), s.connEn n = true → fld (s.sw (0x200 + 0x10 * n)) 30 29 = 1 → readPdu (s.connCid n) (s.connTexp n) true b = some (q, ec, d) →
    (s.conn n).he.last = none → Ends (.harvitorPduReceived n b) s fun t => t.conn n = { s.conn n with he := { (s.conn n).he with last := some q } } ∧ t.saf.zones = s.saf.zones ∧ Frame [.saf] s t) ∧
  (∀ (s : State) (n q ec l : Nat) (b d : List Nat), s.connEn n = true → fld (s.sw (0x200 + 0x10 * n)) 30 29 = 1 → readPdu (s.connCid n) (s.connTexp n) true b = some (q, ec, d) →
    (s.conn n).he.last = some l → q = (l + 1) % 65536 → l < 65536 →
    (numAt d 0 1).testBit (if fld (s.sw (0x200 + 0x10 * n)) 28 27 = 2 then 0 else 1) = false →
    Ends (.harvitorPduReceived n b) s fun t => (t.conn n).he.last = some q ∧ (t.conn n).he.acting = true ∧ (t.conn n).he.data = d ∧ (t.conn n).he.accTick = s.now ∧
        (t.conn n).he.rej = (s.conn n).he.rej ∧
        (∀ z < 8, (s.connZones n).testBit z = true → s.zoneEn z = true → (s.zone z).st = 1 → (t.zone z).cause = 3 ∧ (t.zone z).detail = n ∧ (t.zone z).st = (if bitAt (s.sw (0x80 + 0x10 * z)) 30 then 2 else 0)) ∧ Frame (.free :: .saf :: bothMbx) s t) ∧
  (∀ (s : State) (n q ec c : Nat) (b d : List Nat) (e : Nat × List Nat) (l : List (Nat × List Nat)), s.connEn n = true → fld (s.sw (0x200 + 0x10 * n)) 30 29 = 0 →
    ((s.conn n).inbox.filter fun e => e.1 == s.now && !((s.conn n).he.acc && (s.conn n).he.accTick == s.now)) = e :: l →
    readPdu (s.connCid n) (s.connTexp n) false e.2 = some (q, ec, d) → (s.conn n).he.last = some c → q = (c + 1) % 65536 → c < 65536 →
    Ends (.harvitorPduReceived n b) s fun t => (t.conn n).inbox = l ∧ (t.conn n).he.last = some q ∧ (t.conn n).he.acting = true ∧ (t.conn n).he.data = d ∧
        (t.conn n).he.accTick = s.now ∧ Frame (.free :: .saf :: bothMbx) s t) ∧
  (∀ (s : State) (n : Nat) (b : List Nat), fld (s.sw (0x200 + 0x10 * n)) 30 29 = 0 → (∀ e ∈ (s.conn n).inbox, e.1 ≠ s.now) →
    Ends (.harvitorPduReceived n b) s fun t => t.conn n = { s.conn n with inbox := [] } ∧ Frame [.saf] s t) ∧
  (∀ (s : State) (n : Nat) (b : List Nat), s.connEn n = false → (fld (s.sw (0x200 + 0x10 * n)) 30 29 ≠ 0 → exec (.harvitorPduReceived n b) s = .next s) ∧ exec (.harvitorTimeout n) s = .next s) ∧
  (∀ (s : State) (n : Nat), s.connEn n = true → (s.conn n).he.service = true → (s.conn n).he.accTick + 20 * s.connTexp n ≤ s.now →
    Ends (.harvitorTimeout n) s fun t => (t.conn n).he.service = false ∧ (t.conn n).he.good = 0 ∧
        (∀ z < 8, (s.connZones n).testBit z = true → s.zoneEn z = true → (s.zone z).st = 1 → (t.zone z).cause = 2 ∧ (t.zone z).detail = n ∧ (t.zone z).st = (if bitAt (s.sw (0x80 + 0x10 * z)) 30 then 2 else 0)) ∧ Frame (.free :: .saf :: bothMbx) s t) ∧
  (∀ (s : State) (n : Nat), (s.conn n).he.service = false → exec (.harvitorTimeout n) s = .next s) ∧
  (∀ (s : State) (b : Bool), s.saf.built = some s.now → exec (.harvitorDownlinkBuild b) s = .next s) ∧
  (∀ (s : State) (n : Nat) (b : Bool), s.saf.built ≠ some s.now → 32 ≤ n → n < 80 → s.connEn n = true → fld (s.sw (0x200 + 0x10 * n)) 30 29 = 0 → s.inService n = true → fld (s.sw (0x200 + 0x10 * n)) 28 27 = 1 → s.islandUp = true → (s.conn n).supp = false →
    Ends (.harvitorDownlinkBuild b) s fun t => (t.conn n).pdu = compactPdu (s.connCid n) (s.connTexp n) (s.conn n).he.hseq (s.conn n).he.echoOut
          [b2n (t.permitOut (n - 32)) + 2 * b2n (t.stopOut (n - 32)) + 4 * b2n (!t.permitOut (n - 32)), 0, 0, 0, 0, 0, 0, 0] ∧
        (t.conn n).he.hseq = ((s.conn n).he.hseq + 1) % 65536 ∧ (t.conn n).sentTick = s.now ∧ t.saf.built = some s.now ∧ Frame (.free :: .regs .saf :: .saf :: bothMbx) s t) ∧
  (∀ (s : State) (n pg : Nat) (b : Bool), s.saf.built ≠ some s.now → n < 32 → s.connEn n = true → fld (s.sw (0x200 + 0x10 * n)) 30 29 = 0 → s.inService n = true → fld (s.sw (0x200 + 0x10 * n)) 28 27 = 0 →
    s.islandUp = true → (s.conn n).supp = false → pg = (if 8 < (s.ranks n).length then (s.conn n).he.hseq % 2 else 0) →
    Ends (.harvitorDownlinkBuild b) s fun t => (t.conn n).pdu = compactPdu (s.connCid n) (s.connTexp n) (s.conn n).he.hseq (s.conn n).he.echoOut
          ([b2n (t.permitCab n) + 2 * b2n (t.stopCab n), pg] ++ le 4 (t.pageBits n pg) ++ [0, 0]) ∧ Frame (.free :: .regs .saf :: .saf :: bothMbx) s t) ∧
  (∀ (s : State) (n : Nat) (b : Bool), s.saf.built ≠ some s.now → n < 80 → s.connEn n = true → fld (s.sw (0x200 + 0x10 * n)) 30 29 = 0 → s.inService n = true → s.islandUp = false ∨ (s.conn n).supp = true →
    Ends (.harvitorDownlinkBuild b) s fun t => (t.conn n).pdu = [] ∧ (t.conn n).he = (s.conn n).he ∧ Frame (.free :: .regs .saf :: .saf :: bothMbx) s t) ∧
  (∀ (s : State) (h : Half) (n : Nat), s.saf.built ≠ some s.now → s.ref.token = some h → n < 512 →
    Ends (.harvitorDownlinkBuild true) s fun t => t.saf.pole = (s.hf h).cnp.poleCmd ∧ (∀ c k, c = fld (s.rg .cnp (s.charge.getD .A) (0x5000 + 4 * n)) 20 16 →
        k = fld (s.rg .cnp (s.charge.getD .A) (0x5000 + 4 * n)) 5 0 → s.permitCab c = false ∨ s.permitOut k = false → look 0 t.saf.poleCmd n = 0) ∧
        Frame (.free :: .regs .saf :: .saf :: bothMbx) s t)

/-- Claim gating, GPIO, timers, wide values and the sending side of the CAN controllers follow R535 to R552. (R532, R535, R536, R537, R539, R540, R541, R543, R548, R551, R552)
Where the spec leaves a point open, the clauses follow the model's choice in log entries 7, 67, 68, 69, 98. -/
def Obligations.GpioTimersAndWideValues : Prop :=
  (∀ (s : State) (h : Half), s.ref.token ≠ some h → Ends (.claimGatedWrite h) s fun t => bitAt (t.rg .loc h 0x10100) 29 = true ∧ (t.rg .loc h 0x10104).toNat = min 0xFFFFFFFF ((s.rg .loc h 0x10104).toNat + 1) ∧ Frame [.regs .loc] s t) ∧
  (∀ (s : State) (h : Half), s.ref.token = some h → exec (.claimGatedWrite h) s = .next s) ∧
  (∀ (s : State) (h : Half) (m : Nat), s.ref.token ≠ some h → Ends (.gpioSet h m) s fun t => bitAt (t.rg .loc h 0x10100) 29 = true ∧ (t.rg .loc h 0x10104).toNat = min 0xFFFFFFFF ((s.rg .loc h 0x10104).toNat + 1) ∧ Frame [.regs .loc] s t) ∧
  (∀ (s : State) (h : Half) (m : Nat), s.ref.token ≠ some h → Ends (.gpioClr h m) s fun t => bitAt (t.rg .loc h 0x10100) 29 = true ∧ (t.rg .loc h 0x10104).toNat = min 0xFFFFFFFF ((s.rg .loc h 0x10104).toNat + 1) ∧ Frame [.regs .loc] s t) ∧
  (∀ (s : State) (h : Half) (n : Nat), n < 4 → s.ref.token ≠ some h → Ends (.canTxRequest h n 2) s fun t => bitAt (t.rg .loc h 0x10100) 29 = true ∧ (t.rg .loc h 0x10104).toNat = min 0xFFFFFFFF ((s.rg .loc h 0x10104).toNat + 1) ∧ Frame [.regs .loc] s t) ∧
  (∀ (s : State) (h : Half) (n : Nat), n < 4 → s.ref.token ≠ some h → Ends (.canTxAbort h n 2) s fun t => bitAt (t.rg .loc h 0x10100) 29 = true ∧ (t.rg .loc h 0x10104).toNat = min 0xFFFFFFFF ((s.rg .loc h 0x10104).toNat + 1) ∧ Frame [.regs .loc] s t) ∧
  (∀ (s : State) (h : Half) (n : Nat), n < 4 → s.ref.token ≠ some h → Ends (.canRxRelease h n) s fun t => bitAt (t.rg .loc h 0x10100) 29 = true ∧ (t.rg .loc h 0x10104).toNat = min 0xFFFFFFFF ((s.rg .loc h 0x10104).toNat + 1) ∧ Frame [.regs .loc] s t) ∧
  (∀ (s : State) (h : Half) (n : Nat), n < 4 → s.ref.token ≠ some h → Ends (.canBoffRecovery h n false) s fun t => bitAt (t.rg .loc h 0x10100) 29 = true ∧ (t.rg .loc h 0x10104).toNat = min 0xFFFFFFFF ((s.rg .loc h 0x10104).toNat + 1) ∧ Frame [.regs .loc] s t) ∧
  (∀ (s : State) (h : Half) (n : Nat), n < 4 → s.ref.token ≠ some h → Ends (.abrStart h n) s fun t => bitAt (t.rg .loc h 0x10100) 29 = true ∧ (t.rg .loc h 0x10104).toNat = min 0xFFFFFFFF ((s.rg .loc h 0x10104).toNat + 1) ∧ Frame [.regs .loc] s t) ∧
  (∀ (s : State) (h : Half) (n : Nat), n < 4 → s.ref.token ≠ some h → Ends (.abrStop h n) s fun t => bitAt (t.rg .loc h 0x10100) 29 = true ∧ (t.rg .loc h 0x10104).toNat = min 0xFFFFFFFF ((s.rg .loc h 0x10104).toNat + 1) ∧ Frame [.regs .loc] s t) ∧
  (∀ (s : State) (h : Half), Ends (.gateCntClear h) s fun t => t.rg .loc h 0x10104 = 0 ∧ t.rg .loc h 0x10100 = s.rg .loc h 0x10100 ∧ Frame [.regs .loc] s t) ∧
  (∀ (s : State) (h : Half), Ends (.busError h) s fun t => t.regs = s.regs ∧ Frame [.part h, .mbx .A, .mbx .B] s t) ∧
  (∀ (s : State) (p : Nat) (b : Bool), p < 32 → s.rb .gpio .A 0x08 p ≠ b →
    Ends (.gpioEdge p b) s fun t => t.rb .gpio .A 0x08 p = b ∧ t.rb .gpio .A (if b then 0x14 else 0x18) p = true ∧ t.rg .gpio .A (if b then 0x18 else 0x14) = s.rg .gpio .A (if b then 0x18 else 0x14) ∧
        (∀ q < 32, q ≠ p → t.rb .gpio .A 0x08 q = s.rb .gpio .A 0x08 q) ∧ Frame [.regs .gpio] s t) ∧
  (∀ (s : State) (p : Nat) (b : Bool), s.rb .gpio .A 0x08 p = b → exec (.gpioEdge p b) s = .next s) ∧
  (∀ (s : State) (h : Half) (m : Nat), s.ref.token = some h →
    Ends (.gpioSet h m) s fun t => (∀ p < 32, t.rb .gpio .A 4 p = (s.rb .gpio .A 4 p || m.testBit p)) ∧ (∀ a, a ≠ 4 → t.rg .gpio .A a = s.rg .gpio .A a) ∧ Frame [.regs .gpio] s t) ∧
  (∀ (s : State) (h : Half) (m : Nat), s.ref.token = some h →
    Ends (.gpioClr h m) s fun t => (∀ p < 32, t.rb .gpio .A 4 p = (s.rb .gpio .A 4 p && !m.testBit p)) ∧ (∀ a, a ≠ 4 → t.rg .gpio .A a = s.rg .gpio .A a) ∧ Frame [.regs .gpio] s t) ∧
  (∀ (s : State) (h : Half) (n a : Nat), n < 4 → a < 5000 →
    Ends (.timerEnable h n a) s fun t => bitAt (t.rg .loc h (0x10 * n)) 31 = true ∧
        look 0 (t.hf h).tmr n = (if bitAt (s.rg .loc h (0x10 * n)) 29 then 5000 * (s.tick h + 1) else 5000 * s.tick h + a) + max 1 (s.rg .loc h (0x10 * n + 4)).toNat ∧
        (∀ j, j ≠ n → look 0 (t.hf h).tmr j = look 0 (s.hf h).tmr j) ∧ Frame [.regs .loc, .tmr h] s t) ∧
  (∀ (s : State) (h : Half) (n : Nat), n < 4 → look 0 (s.hf h).tmr n ≠ 0 → bitAt (s.rg .loc h (0x10 * n)) 31 = true → look 0 (s.hf h).tmr n < 5000 * (s.tick h + 1) → bitAt (s.rg .loc h (0x10 * n)) 30 = true →
    Ends (.timerExpiry h n) s fun t => bitAt (t.rg .loc h (0x10 * n)) 28 = true ∧ bitAt (t.rg .loc h (0x10 * n)) 31 = true ∧
        look 0 (t.hf h).tmr n = look 0 (s.hf h).tmr n + max 1 (s.rg .loc h (0x10 * n + 4)).toNat ∧ Frame [.regs .loc, .tmr h] s t) ∧
  (∀ (s : State) (h : Half) (n : Nat), n < 4 → look 0 (s.hf h).tmr n ≠ 0 → bitAt (s.rg .loc h (0x10 * n)) 31 = true → look 0 (s.hf h).tmr n < 5000 * (s.tick h + 1) → bitAt (s.rg .loc h (0x10 * n)) 30 = false →
    Ends (.timerExpiry h n) s fun t => bitAt (t.rg .loc h (0x10 * n)) 28 = true ∧ bitAt (t.rg .loc h (0x10 * n)) 31 = false ∧ look 0 (t.hf h).tmr n = 0 ∧ Frame [.regs .loc, .tmr h] s t) ∧
  (∀ (s : State) (h : Half) (n : Nat), 4 ≤ n ∨ look 0 (s.hf h).tmr n = 0 ∨ bitAt (s.rg .loc h (0x10 * n)) 31 = false ∨ 5000 * (s.tick h + 1) ≤ look 0 (s.hf h).tmr n → exec (.timerExpiry h n) s = .next s) ∧
  (∀ (s : State) (h : Half) (k : Nat) (ws : List Nat), s.wideValue h (k % 256) = some ws →
    Ends (.wideValueLatch h k true) s fun t => bitAt (t.rg .loc h 0x10000) 31 = true ∧ bitAt (t.rg .loc h 0x10000) 30 = false ∧
        (∀ i < 4, (t.rg .loc h (0x10004 + 4 * i)).toNat = ws.getD i 0) ∧ Frame [.regs .loc] s t) ∧
  (∀ (s : State) (h : Half) (k : Nat) (b : Bool), b = false ∨ s.wideValue h (k % 256) = none →
    Ends (.wideValueLatch h k b) s fun t => bitAt (t.rg .loc h 0x10000) 30 = true ∧ bitAt (t.rg .loc h 0x10000) 31 = false ∧ (∀ i < 4, t.rg .loc h (0x10004 + 4 * i) = 0) ∧ Frame [.regs .loc] s t) ∧
  (∀ (s : State) (h : Half), s.tick h < 2 ^ 64 → s.wideValue h 1 = some [s.tick h % 2 ^ 32, s.tick h / 2 ^ 32, 0, 0] ∧ s.wideValue h 0 = none ∧ ∀ k, 6 ≤ k → s.wideValue h k = none) ∧
  (∀ (s : State) (h : Half) (n b : Nat), n < 4 → b < 3 → s.ref.token = some h → s.canOwned n = false ∨ b = 2 → s.tstat n b = 0 ∨ 3 ≤ s.tstat n b → (s.canFld n 0 31 31 = 1 ∨ s.canFld n 0 30 30 = 1 ∨ 2 ≤ s.canFld n 0x0C 31 30 ∨ ∃ a < 3, s.tstat n a = 2) →
    Ends (.canTxRequest h n b) s fun t => t.tstat n b = 1 ∧ t.canFld n (txOff b) 18 11 = 0 ∧ (∀ a < 3, a ≠ b → t.tstat n a = s.tstat n a) ∧ Frame [.regs .can] s t) ∧
  (∀ (s : State) (h : Half) (n b : Nat), n < 4 → b < 3 → s.ref.token = some h → s.canOwned n = false ∨ b = 2 → (∀ a < 3, s.tstat n a ≠ 1 ∧ s.tstat n a ≠ 2) → s.canFld n 0 31 31 = 0 → s.canFld n 0 30 30 = 0 → s.canFld n 0x0C 31 30 < 2 →
    s.canClock = true → s.canFld n 0x0C 20 12 < 256 →
    Ends (.canTxRequest h n b) s fun t => t.tstat n b = 2 ∧ t.canFld n 0x0C 29 29 = 1 ∧ t.canFld n (txOff b) 18 11 = 0 ∧ Frame [.regs .can] s t) ∧
  (∀ (s : State) (h : Half) (n b : Nat), n < 4 → b < 3 → s.ref.token = some h → s.canOwned n = false ∨ b = 2 → s.tstat n b = 1 ∨ s.tstat n b = 2 → exec (.canTxRequest h n b) s = .next s) ∧
  (∀ (s : State) (h : Half) (n b : Nat), n < 4 → b < 2 → s.ref.token = some h → s.canOwned n = true →
    Ends (.canTxRequest h n b) s fun t => bitAt (t.rg .loc h 0x10100) 28 = true ∧ Frame [.regs .loc] s t) ∧
  (∀ (s : State) (h : Half) (n b : Nat), n < 4 → b < 3 → s.ref.token = some h → s.canOwned n = false ∨ b = 2 → (s.tstat n b = 1 → Ends (.canTxAbort h n b) s fun t => t.tstat n b = 5 ∧ Frame [.regs .can] s t) ∧
    (s.tstat n b = 2 → Ends (.canTxAbort h n b) s fun t => b ∈ (t.canS n).aborts ∧ t.tstat n b = 2 ∧ Frame [.cans] s t) ∧
    (s.tstat n b ≠ 1 → s.tstat n b ≠ 2 → exec (.canTxAbort h n b) s = .next s)) ∧
  (∀ (s : State) (n b tec : Nat), n < 4 → b < 3 → s.tstat n b = 2 → (∀ a < 3, a ≠ b → s.tstat n a ≠ 1 ∧ s.tstat n a ≠ 2) →
    Ends (.canTxAttemptEnd n .ok tec) s fun t => t.tstat n b = 3 ∧ t.canFld n 0x14 b b = 1 ∧ t.canFld n 0x0C 20 12 = min 256 tec ∧ t.canFld n 0x0C 23 21 = 0 ∧ t.canFld n 0x0C 29 29 = 0 ∧
        b ∉ (t.canS n).aborts ∧ Frame [.regs .can, .cans] s t) ∧
  (∀ (s : State) (n b tec lec : Nat), n < 4 → b < 3 → s.tstat n b = 2 → (∀ a < 3, a ≠ b → s.tstat n a ≠ 1 ∧ s.tstat n a ≠ 2) → max 1 (s.canFld n 0 23 16) ≤ min 255 (s.canFld n (txOff b) 18 11 + 1) → b ∉ (s.canS n).aborts →
    Ends (.canTxAttemptEnd n (.err lec) tec) s fun t => t.tstat n b = 4 ∧ t.canFld n (txOff b) 18 11 = min 255 (s.canFld n (txOff b) 18 11 + 1) ∧ t.canFld n 0x14 3 3 = 1 ∧
        (t.canReg n 0x504).toNat = min 0xFFFFFFFF ((s.canReg n 0x504).toNat + 1) ∧ Frame [.regs .can, .cans] s t) ∧
  (∀ (s : State) (n b tec lec : Nat), n < 4 → b < 3 → s.tstat n b = 2 → (∀ a < 3, a ≠ b → s.tstat n a ≠ 1 ∧ s.tstat n a ≠ 2) → b ∈ (s.canS n).aborts →
    Ends (.canTxAttemptEnd n (.err lec) tec) s fun t => t.tstat n b = 5 ∧ t.canFld n (txOff b) 18 11 = min 255 (s.canFld n (txOff b) 18 11 + 1) ∧ b ∉ (t.canS n).aborts ∧ Frame [.regs .can, .cans] s t) ∧
  (∀ (s : State) (n b tec : Nat), n < 4 → b < 3 → s.tstat n b = 2 → (∀ a < 3, a ≠ b → s.tstat n a ≠ 1 ∧ s.tstat n a ≠ 2) → b ∉ (s.canS n).aborts → s.canFld n 0 31 31 = 0 → s.canFld n 0 30 30 = 0 → s.canFld n 0x0C 31 30 < 2 →
    s.canClock = true → tec < 256 →
    Ends (.canTxAttemptEnd n .arb tec) s fun t => t.tstat n b = 2 ∧ t.canFld n (txOff b) 18 11 = s.canFld n (txOff b) 18 11 ∧ t.canFld n 0x0C 29 29 = 1 ∧ Frame [.regs .can, .cans] s t) ∧
  (∀ (s : State) (n tec : Nat) (e : TxEnd), (∀ b < 3, s.tstat n b ≠ 2) → exec (.canTxAttemptEnd n e tec) s = .next s)

/-- CAN reception, error states, rate detection and the exchange with storage and PV follow R549 to R559. (R549, R550, R553, R554, R555, R556, R557, R558, R559, R560, R563)
Where the spec leaves a point open, the clauses follow the model's choice in log entry 7. -/
def Obligations.CanReceptionAndExchange : Prop :=
  (∀ (s : State) (n k c : Nat) (f : CanFrame), n < 4 → s.pll.ref ≠ 2 → s.canFld n 0 31 31 = 0 → s.canFld n 0x0C 31 30 < 2 → (f.fdf = true → s.canFld n 0 29 29 = 1) → s.filterFor n f = some k → s.canFld n 0x200 31 31 = 0 →
    Ends (.canFrameReceived n f c) s fun t => t.canFld n 0x200 31 31 = 1 ∧ t.canFld n 0x200 24 20 = k ∧ t.canFld n 0x200 19 16 = f.dlc % 16 ∧ t.canFld n 0x204 28 0 = f.id % 2 ^ 29 ∧
        (t.canReg n 0x208).toNat = s.now % 2 ^ 16 * 2 ^ 16 + f.ofs % 5000 ∧ t.canFld n 0x0C 28 28 = 1 ∧ t.canFld n 0x14 4 4 = 1 ∧ t.canFld n 0x0C 11 4 = min 255 c ∧
        (∀ i < 16, (t.canReg n (0x240 + 4 * i)).toNat = numAt (padTo 64 (f.data.take (dlcLen f.fdf f.dlc))) (4 * i) 4) ∧ Frame [.regs .can] s t) ∧
  (∀ (s : State) (n k c : Nat) (f : CanFrame), n < 4 → s.pll.ref ≠ 2 → s.canFld n 0 31 31 = 0 → s.canFld n 0x0C 31 30 < 2 → (f.fdf = true → s.canFld n 0 29 29 = 1) → s.filterFor n f = some k → s.canFld n 0x200 31 31 = 1 → (s.canS n).shadow = none →
    Ends (.canFrameReceived n f c) s fun t => (t.canS n).shadow = some (f, k, s.now) ∧ t.canFld n 0x0C 27 27 = 1 ∧ t.canReg n 0x200 = s.canReg n 0x200 ∧ Frame [.regs .can, .cans] s t) ∧
  (∀ (s : State) (n k c : Nat) (f : CanFrame), n < 4 → s.pll.ref ≠ 2 → s.canFld n 0 31 31 = 0 → s.canFld n 0x0C 31 30 < 2 → (f.fdf = true → s.canFld n 0 29 29 = 1) → s.filterFor n f = some k → s.canFld n 0x200 31 31 = 1 → (s.canS n).shadow ≠ none →
    Ends (.canFrameReceived n f c) s fun t => t.canS n = s.canS n ∧ t.canFld n 0x0C 26 26 = 1 ∧ t.canFld n 0x14 5 5 = 1 ∧
        (t.canReg n 0x500).toNat = min 0xFFFFFFFF ((s.canReg n 0x500).toNat + 1) ∧ t.canReg n 0x200 = s.canReg n 0x200 ∧ Frame [.regs .can] s t) ∧
  (∀ (s : State) (n c : Nat) (f : CanFrame), n < 4 → s.pll.ref ≠ 2 → s.canFld n 0 31 31 = 0 → s.canFld n 0x0C 31 30 < 2 → (f.fdf = true → s.canFld n 0 29 29 = 1) → s.filterFor n f = none →
    Ends (.canFrameReceived n f c) s fun t => t.canReg n 0x200 = s.canReg n 0x200 ∧ t.canFld n 0x0C 11 4 = min 255 c ∧ Frame [.regs .can] s t) ∧
  (∀ (s : State) (n c : Nat) (f : CanFrame), s.pll.ref = 2 ∨ s.canFld n 0 31 31 = 1 ∨ 2 ≤ s.canFld n 0x0C 31 30 → exec (.canFrameReceived n f c) s = .next s) ∧
  (∀ (s : State) (h : Half) (n : Nat), n < 4 → s.ref.token = some h → s.canOwned n = false → (s.canS n).shadow = none →
    Ends (.canRxRelease h n) s fun t => t.canFld n 0x200 31 31 = 0 ∧ t.canFld n 0x0C 28 28 = 0 ∧ Frame [.regs .can] s t) ∧
  (∀ (s : State) (h : Half) (n k a : Nat) (f : CanFrame), n < 4 → s.ref.token = some h → s.canOwned n = false → (s.canS n).shadow = some (f, k, a) → k < 32 →
    Ends (.canRxRelease h n) s fun t => (t.canS n).shadow = none ∧ t.canFld n 0x200 31 31 = 1 ∧ t.canFld n 0x200 24 20 = k ∧ t.canFld n 0x204 28 0 = f.id % 2 ^ 29 ∧
        t.canFld n 0x0C 27 27 = 0 ∧ t.canFld n 0x0C 28 28 = 1 ∧ t.canFld n 0x14 4 4 = 1 ∧ Frame [.regs .can, .cans] s t) ∧
  (∀ (s : State) (n m : Nat), n < 4 → s.canFld n 0x0C 31 30 < 2 → m = (if 127 < s.canFld n 0x0C 20 12 ∨ 127 < s.canFld n 0x0C 11 4 then 1 else 0) → m ≠ s.canFld n 0x0C 31 30 →
    Ends (.canErrorStateChange n) s fun t => t.canFld n 0x0C 31 30 = m ∧ t.canFld n 0x14 6 6 = 1 ∧
        (∀ h, Raised t h 1 0x0F01 ([n, s.canFld n 0x0C 31 30, m, 0] ++ le 2 (s.canFld n 0x0C 20 12) ++ [s.canFld n 0x0C 11 4])) ∧ Frame (.regs .can :: bothMbx) s t) ∧
  (∀ (s : State) (n : Nat), 2 ≤ s.canFld n 0x0C 31 30 ∨ s.canFld n 0x0C 31 30 = (if 127 < s.canFld n 0x0C 20 12 ∨ 127 < s.canFld n 0x0C 11 4 then 1 else 0) →
    exec (.canErrorStateChange n) s = .next s) ∧
  (∀ (s : State) (n : Nat), n < 4 → 256 ≤ s.canFld n 0x0C 20 12 → s.canFld n 0x0C 31 30 < 2 →
    Ends (.canBusOff n) s fun t => t.canFld n 0x0C 31 30 = 2 ∧ t.canFld n 0x0C 25 25 = 1 ∧ t.canFld n 0x0C 29 29 = 0 ∧
        (∀ b < 3, t.tstat n b = (if s.tstat n b = 2 then (if b ∈ (s.canS n).aborts then 5 else 1) else s.tstat n b)) ∧ (t.canS n).aborts = [] ∧ (∀ h, Raised t h 1 0x0F01 ([n, s.canFld n 0x0C 31 30, 2, 0] ++ le 2 (s.canFld n 0x0C 20 12) ++ [s.canFld n 0x0C 11 4])) ∧ Frame (.regs .can :: .cans :: bothMbx) s t) ∧
  (∀ (s : State) (n : Nat), s.canFld n 0x0C 20 12 < 256 ∨ 2 ≤ s.canFld n 0x0C 31 30 → exec (.canBusOff n) s = .next s) ∧
  (∀ (s : State) (h : Half) (n : Nat), n < 4 → s.ref.token = some h → s.canOwned n = false → s.canFld n 0x0C 31 30 = 2 → Ends (.canBoffRecovery h n false) s fun t => t.canFld n 0x0C 31 30 = 3 ∧ Frame (.regs .can :: bothMbx) s t) ∧
  (∀ (s : State) (h : Half) (n : Nat), n < 4 → s.canFld n 0x0C 31 30 = 3 →
    Ends (.canBoffRecovery h n true) s fun t => t.canFld n 0x0C 31 30 = 0 ∧ t.canFld n 0x0C 20 12 = 0 ∧ t.canFld n 0x0C 11 4 = 0 ∧ Frame (.regs .can :: bothMbx) s t) ∧
  (∀ (s : State) (h : Half) (n : Nat), s.canFld n 0x0C 31 30 ≠ 3 → exec (.canBoffRecovery h n true) s = .next s) ∧
  (∀ (s : State) (h : Half) (n c : Nat), n < 4 → s.ref.token = some h → s.canOwned n = false → s.canFld n 0 31 31 = 0 → s.canFld n 0 30 30 = 1 → c < 8 → (s.canReg n 0x400).toNat.testBit c = true →
    (∀ d < c, (s.canReg n 0x400).toNat.testBit d = false) →
    Ends (.abrStart h n) s fun t => t.canFld n 0x404 31 30 = 1 ∧ t.canFld n 0x404 15 0 = 0 ∧ (t.canS n).cand = c ∧ Frame [.regs .can, .cans] s t) ∧
  (∀ (s : State) (h : Half) (n : Nat), n < 4 → s.ref.token = some h → s.canOwned n = false → (s.canFld n 0 31 31 = 1 ∨ s.canFld n 0 30 30 = 0 → exec (.abrStart h n) s = .next s) ∧
    (s.canFld n 0x404 31 30 = 1 → Ends (.abrStop h n) s fun t => t.canFld n 0x404 31 30 = 3 ∧ t.canFld n 0x14 7 7 = 1 ∧ Frame [.regs .can] s t) ∧
    (s.canFld n 0x404 31 30 ≠ 1 → exec (.abrStop h n) s = .next s)) ∧
  (∀ (s : State) (n c : Nat), n < 4 → s.canFld n 0x404 31 30 = 1 → (s.canS n).cand < c → c < 8 → (s.canReg n 0x400).toNat.testBit c = true →
    (∀ d, (s.canS n).cand < d → d < c → (s.canReg n 0x400).toNat.testBit d = false) →
    Ends (.abrWindowExpiry n) s fun t => (t.canS n).cand = c ∧ Frame [.cans] s t) ∧
  (∀ (s : State) (n c : Nat), n < 4 → s.canFld n 0x404 31 30 = 1 → (∀ d, (s.canS n).cand < d → d < 8 → (s.canReg n 0x400).toNat.testBit d = false) → c < 8 →
    (s.canReg n 0x400).toNat.testBit c = true → (∀ d < c, (s.canReg n 0x400).toNat.testBit d = false) →
    Ends (.abrWindowExpiry n) s fun t => (t.canS n).cand = c ∧ t.canFld n 0x404 15 0 = min 0xFFFF (s.canFld n 0x404 15 0 + 1) ∧ Frame [.regs .can, .cans] s t) ∧
  (∀ (s : State) (n c : Nat), n < 4 → s.canFld n 0x404 31 30 = 1 → c = (s.canS n).cand → c < 8 → (s.canReg n 0x400).toNat.testBit c = true →
    Ends (.abrFound n) s fun t => t.canReg n 4 = s.canReg n (0x410 + 8 * c) &&& 0xFFFFFFFE ∧ t.canReg n 8 = s.canReg n (0x414 + 8 * c) &&& 0xFFFFC000 ∧ t.canFld n 0x404 31 30 = 2 ∧
        t.canFld n 0x404 29 27 = c ∧ t.canFld n 0x14 7 7 = 1 ∧ (∀ h, Raised t h 0 0x0F02 ([n, c] ++ le 2 (s.canFld n 0x404 15 0))) ∧ Frame (.regs .can :: bothMbx) s t) ∧
  (∀ (s : State) (n : Nat), (s.canFld n 0x404 31 30 ≠ 1 → exec (.abrWindowExpiry n) s = .next s) ∧
    (s.canFld n 0x404 31 30 ≠ 1 ∨ (s.canReg n 0x400).toNat.testBit (s.canS n).cand = false → exec (.abrFound n) s = .next s)) ∧
  (∀ (s : State) (h : Half) (n r : Nat) (d : List Nat) (a b : Int), s.charge = some h → n < 4 → s.xrecOn r n = true → bitAt (s.canReg n 0x200) 31 = true → bitAt (s.canReg n 0x200) 26 = bitAt (s.xrec r 4) 31 → s.canFld n 0x204 28 0 = fld (s.xrec r 4) 28 0 →
    d = ((List.range 16).flatMap fun i => le 4 (s.canReg n (0x240 + 4 * i)).toNat).take (dlcLen (bitAt (s.canReg n 0x200) 28) (fld (s.canReg n 0x200) 19 16)) →
    xField d (fld (s.xrec r 8) 15 0) = some a → xField d (fld (s.xrec r 8) 31 16) = some b → r < 4 → (s.canS n).shadow = none →
    Ends (.exchangeLimitsFrame n r) s fun t => (t.stage h (258 + 2 * r)).pend = some (clampI 0 0xFFFFFFFF (a * (s.xrec r 12).toNat)) ∧
        (t.stage h (259 + 2 * r)).pend = some (clampI 0 0xFFFFFFFF (b * (s.xrec r 16).toNat)) ∧ t.canFld n 0x200 31 31 = 0 ∧ Frame [.regs .can, .stg .A, .stg .B, .cans] s t) ∧
  (∀ (s : State) (h : Half) (n r : Nat) (d : List Nat) (a : Int), s.charge = some h → n < 4 → s.xrecOn r n = true → bitAt (s.canReg n 0x200) 31 = true → bitAt (s.canReg n 0x200) 26 = bitAt (s.xrec r 4) 31 → s.canFld n 0x204 28 0 = fld (s.xrec r 4) 28 0 →
    d = ((List.range 16).flatMap fun i => le 4 (s.canReg n (0x240 + 4 * i)).toNat).take (dlcLen (bitAt (s.canReg n 0x200) 28) (fld (s.canReg n 0x200) 19 16)) →
    xField d (fld (s.xrec r 8) 15 0) = some a → 4 ≤ r →
    Ends (.exchangeLimitsFrame n r) s fun t => (t.stage h (262 + r)).pend = some (clampI 0 0xFFFFFFFF (a * (s.xrec r 12).toNat)) ∧ Frame [.regs .can, .stg .A, .stg .B, .cans] s t) ∧
  (∀ (s : State) (n r : Nat), s.charge = none ∨ s.xrecOn r n = false ∨ bitAt (s.canReg n 0x200) 31 = false → exec (.exchangeLimitsFrame n r) s = .next s) ∧
  (∀ (s : State) (h : Half) (n r : Nat), s.charge = some h → n = fld (s.xrec r 0) 1 0 → s.xrecOn r n = true → s.now % (200 * max 1 (fld (s.xrec r 0) 15 8)) = 0 →
    Ends (.exchangeSetpointPeriod r) s fun t => look none (t.canS n).queue r = some ((s.xrec r 20).toNat, fld (s.xrec r 24) 19 16, s.xData r) ∧
        ((s.canS n).txRec = some r → s.tstat n 1 = 1 → t.tstat n 1 = 5) ∧ ((s.canS n).txRec ≠ some r → t.tstat n 1 = s.tstat n 1) ∧
        (∀ q, q ≠ r → look none (t.canS n).queue q = look none (s.canS n).queue q) ∧ t.free = s.free + 1 ∧ Frame [.free, .regs .can, .cans] s t) ∧
  (∀ (s : State) (r : Nat), s.charge = none ∨ s.xrecOn r (fld (s.xrec r 0) 1 0) = false ∨ s.now % (200 * max 1 (fld (s.xrec r 0) 15 8)) ≠ 0 → exec (.exchangeSetpointPeriod r) s = .next s) ∧
  (∀ (s : State) (h : Half) (n r i e : Nat) (d : List Nat), s.charge = some h → n < 4 → s.canOwned n = true → s.tstat n 1 ≠ 1 → s.tstat n 1 ≠ 2 → r < 8 →
    look none (s.canS n).queue r = some (i, e, d) → (∀ q < r, look none (s.canS n).queue q = none) →
    Ends (.exchangeTxb1Next n) s fun t => look none (t.canS n).queue r = none ∧ (t.canS n).txRec = some r ∧ (t.tstat n 1 = 1 ∨ t.tstat n 1 = 2) ∧
        t.canFld n 0x34 28 0 = i % 2 ^ 29 ∧ (∀ j < 16, (t.canReg n (0x140 + 4 * j)).toNat = numAt d (4 * j) 4) ∧ Frame [.regs .can, .cans] s t) ∧
  (∀ (s : State) (n : Nat), s.charge = none ∨ s.canOwned n = false ∨ s.tstat n 1 = 1 ∨ s.tstat n 1 = 2 ∨ (∀ q < 8, look none (s.canS n).queue q = none) → exec (.exchangeTxb1Next n) s = .next s)

/-- The load switches move through their states, their limiter, their supply groups and their duty as R564 to R581 say. (R535, R565, R566, R567, R568, R570, R571, R572, R573, R574, R575, R578)
Where the spec leaves a point open, the clauses follow the model's choice in log entries 70, 71, 72, 73. -/
def Obligations.LoadSwitches : Prop :=
  (∀ (s : State) (h : Half) (c m : Nat), c < 16 → s.ref.token ≠ some h → Ends (.lswEnable h c m) s fun t => bitAt (t.rg .loc h 0x10100) 29 = true ∧ (t.rg .loc h 0x10104).toNat = min 0xFFFFFFFF ((s.rg .loc h 0x10104).toNat + 1) ∧ Frame [.regs .loc] s t) ∧
  (∀ (s : State) (h : Half) (c : Nat), c < 16 → s.ref.token ≠ some h → Ends (.lswDisable h c) s fun t => bitAt (t.rg .loc h 0x10100) 29 = true ∧ (t.rg .loc h 0x10104).toNat = min 0xFFFFFFFF ((s.rg .loc h 0x10104).toNat + 1) ∧ Frame [.regs .loc] s t) ∧
  (∀ (s : State) (h : Half) (c : Nat), c < 16 → s.ref.token ≠ some h → Ends (.lswClr h c) s fun t => bitAt (t.rg .loc h 0x10100) 29 = true ∧ (t.rg .loc h 0x10104).toNat = min 0xFFFFFFFF ((s.rg .loc h 0x10104).toNat + 1) ∧ Frame [.regs .loc] s t) ∧
  (∀ (s : State) (h : Half) (c m : Nat), c < 16 → s.ref.token = some h → m < 3 → s.lswSt c = 0 → s.lswUv (c / 4) = false → bitAt (s.lswR c 0) 26 = false →
    Ends (.lswEnable h c m) s fun t => t.lswSt c = 1 ∧ (t.lswC c).lim = s.lswR c 4 ∧ t.lswEn c = true ∧ t.lswF c 0 29 28 = m ∧ (∀ d, d < 16 → d ≠ c → t.lswSt d = s.lswSt d) ∧ Frame [.regs .lsw, .lsw] s t) ∧
  (∀ (s : State) (h : Half) (c m : Nat), c < 16 → s.ref.token = some h → m < 3 → s.lswSt c = 0 → s.lswUv (c / 4) = true →
    Ends (.lswEnable h c m) s fun t => t.lswSt c = 6 ∧ t.lswEn c = true ∧ (∀ d, d < 16 → d ≠ c → t.lswSt d = s.lswSt d) ∧ Frame [.regs .lsw, .lsw] s t) ∧
  (∀ (s : State) (h : Half) (c : Nat), c < 16 → s.ref.token = some h → s.lswSt c ≠ 4 → Ends (.lswEnable h c 3) s fun t => t.lswSt c = 0 ∧ t.lswEn c = false ∧ (∀ d, d < 16 → d ≠ c → t.lswSt d = s.lswSt d) ∧ Frame [.regs .lsw, .lsw] s t) ∧
  (∀ (s : State) (h : Half) (c m : Nat), c < 16 → s.ref.token = some h → m < 3 → s.lswSt c = 4 → bitAt (s.lswR c 0) 26 = false → Ends (.lswEnable h c m) s fun t => t.lswSt c = 4 ∧ Frame [.regs .lsw, .lsw] s t) ∧
  (∀ (s : State) (h : Half) (c : Nat), c < 16 → s.ref.token = some h → s.lswSt c ≠ 4 → Ends (.lswDisable h c) s fun t => t.lswSt c = 0 ∧ t.lswEn c = false ∧ (∀ d, d < 16 → d ≠ c → t.lswSt d = s.lswSt d) ∧ Frame [.regs .lsw, .lsw] s t) ∧
  (∀ (s : State) (h : Half) (c : Nat), c < 16 → s.ref.token = some h → s.lswSt c = 4 → bitAt (s.lswR c 0) 26 = false → Ends (.lswDisable h c) s fun t => t.lswSt c = 4 ∧ t.lswF c 0x0C 23 22 = s.lswF c 0x0C 23 22 ∧ Frame [.regs .lsw, .lsw] s t) ∧
  (∀ (s : State) (h : Half) (c : Nat), c < 16 → s.ref.token = some h → s.lswSt c = 4 →
    Ends (.lswClr h c) s fun t => t.lswF c 0x0C 23 22 = 0 ∧ (t.lswC c).used = false ∧ t.lswSt c = (if s.lswEn c then (if s.lswUv (c / 4) then 6 else 1) else 0) ∧ (∀ d, d < 16 → d ≠ c → t.lswSt d = s.lswSt d) ∧ Frame [.regs .lsw, .lsw] s t) ∧
  (∀ (s : State) (c i : Nat), c < 16 → s.lswSt c = 1 → (s.lswC c).since + 20 * (s.lswC c).tinr ≤ s.now →
    Ends (.lswInrushEnd c i) s fun t => (i ≤ (s.lswC c).ilim → t.lswSt c = 2) ∧ ((s.lswC c).ilim < i → (s.lswC c).used = false → t.lswSt c = 3) ∧
        ((s.lswC c).ilim < i → (s.lswC c).used = true → t.lswSt c = 4 ∧ t.lswF c 0x0C 23 22 = 2 ∧ (t.lswR c 0x14).toNat = min 0xFFFFFFFF ((s.lswR c 0x14).toNat + 1)) ∧ (∀ d, d < 16 → d ≠ c → t.lswSt d = s.lswSt d) ∧ Frame [.regs .lsw, .lsw] s t) ∧
  (∀ (s : State) (c i : Nat), 16 ≤ c ∨ s.lswSt c ≠ 1 ∨ s.now < (s.lswC c).since + 20 * (s.lswC c).tinr → exec (.lswInrushEnd c i) s = .next s) ∧
  (∀ (s : State) (c : Nat), c < 16 → s.lswSt c = 3 → (s.lswC c).since + 200 ≤ s.now →
    Ends (.lswRetryWaitEnd c) s fun t => (t.lswC c).used = true ∧ t.lswF c 0x0C 24 24 = 1 ∧ t.lswSt c = (if s.lswUv (c / 4) then 6 else 1) ∧ (∀ d, d < 16 → d ≠ c → t.lswSt d = s.lswSt d) ∧ Frame [.regs .lsw, .lsw] s t) ∧
  (∀ (s : State) (c i : Nat), c < 16 → s.lswSt c = 1 ∨ s.lswSt c = 2 →
    Ends (.lswLimitTimeout c i) s fun t => t.lswSt c = 4 ∧ t.lswF c 0x0C 23 22 = 1 ∧ t.lswF c 0x0C 27 27 = 1 ∧ (t.lswR c 0x14).toNat = min 0xFFFFFFFF ((s.lswR c 0x14).toNat + 1) ∧
        (t.lswG (c / 4)).hold = 50 ∧ t.rb .lsw .A (0x204 + 0x10 * (c / 4)) 30 = true ∧ (∀ h, ∃ e ∈ (t.hf h).mbx.events, e.code = 0x0F03 ∧ e.sev = 1 ∧ e.detail.take 3 = [c, 4, 1]) ∧ (∀ d, d < 16 → d ≠ c → t.lswSt d = s.lswSt d) ∧ Frame (.regs .lsw :: .lsw :: bothMbx) s t) ∧
  (∀ (s : State) (c : Nat), c < 16 → s.lswEn c = true → s.lswSt c ≠ 4 → s.lswSt c ≠ 5 →
    Ends (.lswThermal c true) s fun t => t.lswSt c = 5 ∧ t.lswF c 0x0C 25 25 = 1 ∧ (t.lswR c 0x14).toNat = min 0xFFFFFFFF ((s.lswR c 0x14).toNat + 1) ∧ (∀ h, ∃ e ∈ (t.hf h).mbx.events, e.code = 0x0F03 ∧ e.sev = 1 ∧ e.detail.take 2 = [c, 5]) ∧ (∀ d, d < 16 → d ≠ c → t.lswSt d = s.lswSt d) ∧ Frame (.regs .lsw :: .lsw :: bothMbx) s t) ∧
  (∀ (s : State) (c : Nat), c < 16 → s.lswSt c = 5 → Ends (.lswThermal c false) s fun t => t.lswSt c = (if s.lswUv (c / 4) then 6 else 1) ∧ (∀ d, d < 16 → d ≠ c → t.lswSt d = s.lswSt d) ∧ Frame [.regs .lsw, .lsw] s t) ∧
  (∀ (s : State) (c i : Nat), (s.lswOn c = false → exec (.lswLimitTimeout c i) s = .next s) ∧ (s.lswEn c = false ∨ s.lswSt c = 4 ∨ s.lswSt c = 5 → exec (.lswThermal c true) s = .next s) ∧
    (s.lswSt c ≠ 5 → exec (.lswThermal c false) s = .next s) ∧ (s.lswSt c ≠ 3 ∨ s.now < (s.lswC c).since + 200 → exec (.lswRetryWaitEnd c) s = .next s)) ∧
  (∀ (s : State) (g : Nat), g < 4 → s.lswUv g = false → s.rf .lsw .A (0x204 + 0x10 * g) 15 0 < 1050 →
    Ends (.lswGroupUndervoltage g) s fun t => t.lswUv g = true ∧ (∀ d, d < 16 → d / 4 = g → t.lswSt d = (if s.lswEn d && s.lswSt d != 4 then 6 else s.lswSt d)) ∧ (∀ d, d < 16 → d / 4 ≠ g → t.lswSt d = s.lswSt d) ∧
        t.rb .lsw .A (0x204 + 0x10 * g) 30 = true ∧
        (∀ h, Raised t h 1 0x0F03 [0x80 + g, 0, 0, 4, 0, 0]) ∧ Frame (.regs .lsw :: .lsw :: bothMbx) s t) ∧
  (∀ (s : State) (g : Nat), g < 4 → s.lswUv g = true → 1150 < s.rf .lsw .A (0x204 + 0x10 * g) 15 0 →
    Ends (.lswGroupUvRecovery g) s fun t => t.lswUv g = false ∧ (t.lswG g).hold = 50 ∧ (∀ d, d < 16 → d / 4 = g → t.lswSt d = (if s.lswSt d = 6 then 1 else s.lswSt d)) ∧ (∀ d, d < 16 → d / 4 ≠ g → t.lswSt d = s.lswSt d) ∧ Frame [.regs .lsw, .lsw] s t) ∧
  (∀ (s : State) (g : Nat), (s.lswUv g = true ∨ 1050 ≤ s.rf .lsw .A (0x204 + 0x10 * g) 15 0 → exec (.lswGroupUndervoltage g) s = .next s) ∧
    (s.lswUv g = false ∨ s.rf .lsw .A (0x204 + 0x10 * g) 15 0 ≤ 1150 → exec (.lswGroupUvRecovery g) s = .next s)) ∧
  (∀ (s : State) (a c : Nat), 24000 < a → c < 16 → s.lswOn c = true → s.lswF c 0 30 30 = 0 → (∀ d, c < d → d < 16 → s.lswOn d = false ∨ s.lswF d 0 30 30 = 1) → (∀ u, s.lsw.shed = some u → u + 2000 ≤ s.now) →
    Ends (.lswTotalOverload a) s fun t => t.lsw.shed = some s.now ∧ t.lswSt c = 4 ∧ t.lswF c 0x0C 23 22 = 3 ∧ t.rb .lsw .A 0x300 31 = true ∧ t.lsw.overload = true ∧ (∀ d, d < 16 → d ≠ c → t.lswSt d = s.lswSt d) ∧ Frame (.regs .lsw :: .lsw :: bothMbx) s t) ∧
  (∀ (s : State) (a u : Nat), 24000 < a → s.lsw.shed = some u → s.now < u + 2000 → s.lsw.overload = true → Ends (.lswTotalOverload a) s fun t => t.lsw = s.lsw ∧ t.rb .lsw .A 0x300 31 = true ∧ t.rf .lsw .A 0x300 15 0 = min 0xFFFF a ∧
    (∀ c < 16, t.lswSt c = s.lswSt c) ∧ Frame [.regs .lsw] s t) ∧
  (∀ (s : State) (a : Nat), a ≤ 24000 → Ends (.lswTotalOverload a) s fun t => t.lsw.overload = false ∧ t.lsw.shed = none ∧ t.rf .lsw .A 0x300 15 0 = a ∧ (∀ c < 16, t.lswSt c = s.lswSt c) ∧ Frame [.regs .lsw, .lsw] s t) ∧
  (∀ (s : State) (c : Nat) (b : Bool), c < 16 → s.lswSt c = 2 → (s.lswC c).olTh ≠ 0 → s.lswF c 0x0C 26 26 ≠ b2n b →
    Ends (.lswOpenLoad c b) s fun t => t.lswF c 0x0C 26 26 = b2n b ∧ t.lswSt c = 2 ∧ (∀ h, ∃ e ∈ (t.hf h).mbx.events, e.code = 0x0F03 ∧ e.sev = 1 ∧ e.detail.take 2 = [c, 2]) ∧ Frame (.regs .lsw :: bothMbx) s t) ∧
  (∀ (s : State) (c : Nat) (b : Bool), s.lswSt c ≠ 2 ∨ (s.lswC c).olTh = 0 ∨ s.lswF c 0x0C 26 26 = b2n b → exec (.lswOpenLoad c b) s = .next s) ∧
  (∀ (s : State), s.now % 200 = 0 → Ends .lswSenseStep s fun t =>
        (∀ g < 4, (t.lswG g).pos = (if s.rb .lsw .A 0x304 (4 * g + 2) then ((s.lswG g).pos + 1) % 4 else (s.lswG g).pos)) ∧ t.lsw.chans = s.lsw.chans ∧ Frame [.lsw] s t) ∧
  (∀ (s : State), s.now % 200 ≠ 0 → exec .lswSenseStep s = .next s) ∧
  (∀ (s : State) (h : Half), s.ref.token = some h →
    Ends .lswSlotDutyWrite s fun t => (∀ c < 16, (t.lswC c).duty = (if s.lswF c 0 29 28 = 2 then (clampI 0 32767 (look 0 (s.hf h).cln.slots (s.lswF c 0 10 0)).toInt).toNat else (s.lswC c).duty)) ∧
        t.lsw.grps = s.lsw.grps ∧ Frame [.lsw] s t) ∧
  (∀ (s : State), s.ref.token = none → exec .lswSlotDutyWrite s = .next s) ∧
  (∀ (s : State) (c d : Nat), c < 16 → s.lswF c 0 29 28 = 1 ∨ s.lswF c 0 29 28 = 2 → d = (if s.lswF c 0 29 28 = 1 then s.lswF c 8 14 0 else (s.lswC c).duty) → d < 32768 → s.lswF c 0 27 27 = 0 → Ends (.lswPwmPeriod c) s fun t => t.lswF c 0x10 14 0 = d ∧ Frame [.regs .lsw] s t) ∧
  (∀ (s : State) (c d vf vn : Nat), c < 16 → s.lswF c 0 29 28 = 1 ∨ s.lswF c 0 29 28 = 2 → d = (if s.lswF c 0 29 28 = 1 then s.lswF c 8 14 0 else (s.lswC c).duty) → s.lswF c 0 27 27 = 1 → vf = s.rf .lsw .A (0x208 + 0x10 * (c / 4)) 15 0 → 0 < vf →
    vn = 10 * max 120 (min 320 (s.rf .lsw .A (0x200 + 0x10 * (c / 4)) 31 16)) →
    Ends (.lswPwmPeriod c) s fun t => t.lswF c 0x10 14 0 = min 32767 ((2 * d * vn * vn + vf * vf) / (2 * vf * vf)) ∧ Frame [.regs .lsw] s t) ∧
  (∀ (s : State) (c : Nat), c < 16 → s.lswF c 0 29 28 = 1 ∨ s.lswF c 0 29 28 = 2 → s.lswF c 0 27 27 = 1 → s.rf .lsw .A (0x208 + 0x10 * (c / 4)) 15 0 = 0 →
    Ends (.lswPwmPeriod c) s fun t => t.lswF c 0x10 14 0 ≤ 32767 ∧ t.free = s.free + 1 ∧ Frame [.free, .regs .lsw] s t) ∧
  (∀ (s : State) (c : Nat), s.lswF c 0 29 28 = 0 ∨ s.lswF c 0 29 28 = 3 → exec (.lswPwmPeriod c) s = .next s) ∧
  (∀ (s : State) (g v : Nat) (cs : List Nat) (ls : List Bool) (w : List Nat), g < 4 → s.lswUv g = false → (∀ k < 4, ls.getD k false = false) → (s.lswG g).hold = 0 → w = (min 0xFFFF v :: (s.lswG g).vs).take 50 →
    Ends (.lswVfSample g v cs ls) s fun t => (∀ k < 4, t.lswF (4 * g + k) 0x0C 15 0 = min 0xFFFF (cs.getD k 0) ∧ t.lswSt (4 * g + k) = s.lswSt (4 * g + k)) ∧ t.rf .lsw .A (0x204 + 0x10 * g) 15 0 = min 0xFFFF v ∧ (t.lswG g).vs = w ∧ t.rf .lsw .A (0x208 + 0x10 * g) 15 0 = (2 * w.sum + w.length) / (2 * w.length) % 65536 ∧
        t.rb .lsw .A (0x204 + 0x10 * g) 30 = false ∧ Frame [.regs .lsw, .lsw] s t) ∧
  (∀ (s : State) (g v : Nat) (cs : List Nat) (ls : List Bool), g < 4 → s.lswUv g = true → Ends (.lswVfSample g v cs ls) s fun t => (∀ k < 4, t.lswF (4 * g + k) 0x0C 15 0 = min 0xFFFF (cs.getD k 0) ∧ t.lswSt (4 * g + k) = s.lswSt (4 * g + k)) ∧ t.rf .lsw .A (0x204 + 0x10 * g) 15 0 = min 0xFFFF v ∧ (t.lswG g).vs = (s.lswG g).vs ∧ (t.lswG g).hold = 50 ∧
        t.rf .lsw .A (0x208 + 0x10 * g) 15 0 = s.rf .lsw .A (0x208 + 0x10 * g) 15 0 ∧ t.rb .lsw .A (0x204 + 0x10 * g) 30 = true ∧ Frame [.regs .lsw, .lsw] s t) ∧
  (∀ (s : State) (g v : Nat) (cs : List Nat) (ls : List Bool), g < 4 → s.lswUv g = false → (∀ k < 4, ls.getD k false = false) → 0 < (s.lswG g).hold → Ends (.lswVfSample g v cs ls) s fun t => (t.lswG g).hold + 1 = (s.lswG g).hold ∧
    (t.lswG g).vs = (s.lswG g).vs ∧ t.rf .lsw .A (0x208 + 0x10 * g) 15 0 = s.rf .lsw .A (0x208 + 0x10 * g) 15 0 ∧ t.rb .lsw .A (0x204 + 0x10 * g) 30 = true ∧ Frame [.regs .lsw, .lsw] s t) ∧
  (∀ (s : State) (g v k : Nat) (cs : List Nat) (ls : List Bool), g < 4 → k < 4 → s.lswOn (4 * g + k) = true → ls.getD k false = true → Ends (.lswVfSample g v cs ls) s fun t => t.lswF (4 * g + k) 0x0C 28 28 = 1 ∧ t.lswSt (4 * g + k) = s.lswSt (4 * g + k) ∧
    (t.lswG g).hold = 50 ∧ (t.lswG g).vs = (s.lswG g).vs ∧ t.rf .lsw .A (0x208 + 0x10 * g) 15 0 = s.rf .lsw .A (0x208 + 0x10 * g) 15 0 ∧ t.rb .lsw .A (0x204 + 0x10 * g) 30 = true ∧ Frame [.regs .lsw, .lsw] s t)

/-- Hold-up, start-up, RESET_N, the service button, the power states and the wake sources follow R627 to R642. (R54, R157, R400, R574, R627, R629, R632, R633, R634, R635, R637, R638)
Where the spec leaves a point open, the clauses follow the model's choice in log entries 86, 87, 88, 89, 127, 128. -/
def Obligations.HoldUpAndPowerStates : Prop :=
  (∀ (s : State) (n : Nat), s.pwr.up = true → 10000 ≤ n →
    Ends (.resetN n) s fun t => t.rf .pwr .A 0x0C 15 8 = 1 ∧ t.rf .pwr .A 0x0C 7 0 = 1 ∧ t.veh = [] ∧ t.ref.token = none ∧ t.cans = [] ∧ t.mesh = {} ∧ (∀ h, (t.hf h).twn.service = false ∧ (t.hf h).twn.unhealthy = true ∧ (t.hf h).twn.cause = (if (s.hf h).twn.held then 0x8B else 0x8A) ∧ (t.hf h).stg = [] ∧ (t.hf h).ports = [] ∧
          (t.hf h).twn.claim = baseClaim h ∧ (t.hf h).pts = flashPoints (s.hf h) ∧ ∀ off, t.rg .cln h off = resetWord .cln h off) ∧
        (∀ off, t.rg .can .A off = resetWord .can .A off ∧ t.rg .gpio .A off = resetWord .gpio .A off) ∧ (∀ off, t.rg .saf .A off = s.rg .saf .A off ∧ t.rg .met .A off = s.rg .met .A off ∧ t.rg .bil .A off = s.rg .bil .A off) ∧
        (∀ c < 16, ∀ k < 6, t.lswR c (4 * k) = (if s.lswF c 0 30 30 = 1 then s.lswR c (4 * k) else resetWord .lsw .A (0x20 * c + 4 * k))) ∧ Frame (.free :: .shadow :: .blocks :: .ref :: .ho :: .pll :: .lkt :: .cans :: .lsw :: .mesh :: .upd :: .veh :: .vehG :: (allRegs ++ halfParts .A ++ halfParts .B)) s t) ∧
  (∀ (s : State) (n : Nat), s.pwr.up = false ∨ n ≤ 1000 → exec (.resetN n) s = .next s) ∧
  (∀ (s : State) (n : Nat), s.pwr.up = true → 1000 < n → n < 10000 → Ends (.resetN n) s fun t => (Frame [.free] s t ∨ (t.ref.token = none ∧ t.cans = [] ∧ t.mesh = {} ∧ (∀ h, (t.hf h).twn.service = false ∧ (t.hf h).twn.unhealthy = true ∧ (t.hf h).twn.cause = (if (s.hf h).twn.held then 0x8B else 0x8A) ∧ (t.hf h).stg = [] ∧ (t.hf h).ports = [] ∧
          (t.hf h).twn.claim = baseClaim h ∧ (t.hf h).pts = flashPoints (s.hf h) ∧ ∀ off, t.rg .cln h off = resetWord .cln h off) ∧
        (∀ off, t.rg .can .A off = resetWord .can .A off ∧ t.rg .gpio .A off = resetWord .gpio .A off))) ∧ Frame (.free :: .shadow :: .blocks :: .ref :: .ho :: .pll :: .lkt :: .cans :: .lsw :: .mesh :: .upd :: .veh :: .vehG :: (allRegs ++ halfParts .A ++ halfParts .B)) s t) ∧
  (∀ (s : State), Ends .vholdSwitchClose s fun t => t.pwr = { s.pwr with vhSwitch := true } ∧ Frame [.pwr] s t) ∧
  (∀ (s : State), s.pwr.up = true → s.rb .pwr .A 0 9 = false → s.rb .pwr .A 0 8 = false → s.pwr.vhSwitch = true → s.rb .pwr .A 0 2 = false →
    Ends .holdupStart s fun t => t.rb .pwr .A 0 2 = true ∧ t.pwr = { s.pwr with step := 2 } ∧ Frame [.regs .pwr, .pwr] s t) ∧
  (∀ (s : State), s.pwr.up = false ∨ s.rb .pwr .A 0 9 = true ∨ s.rb .pwr .A 0 8 = true ∨ s.pwr.vhSwitch = false ∨ s.rb .pwr .A 0 2 = true → exec .holdupStart s = .next s) ∧
  (∀ (s : State) (v : Nat), s.pwr.step = 2 → v < 80 →
    Ends (.holdupHalvesStop v) s fun t => t.ref.token = none ∧ t.cans = [] ∧ t.mesh = {} ∧ (∀ h, (t.hf h).twn.service = false ∧ (t.hf h).twn.unhealthy = true ∧ (t.hf h).twn.cause = (if (s.hf h).twn.held then 0x8B else 0x8A) ∧ (t.hf h).stg = [] ∧ (t.hf h).ports = [] ∧
          (t.hf h).twn.claim = baseClaim h ∧ (t.hf h).pts = flashPoints (s.hf h) ∧ ∀ off, t.rg .cln h off = resetWord .cln h off) ∧
        (∀ off, t.rg .can .A off = resetWord .can .A off ∧ t.rg .gpio .A off = resetWord .gpio .A off) ∧ (∀ h, (t.hf h).twn.off = true) ∧ t.pwr = { s.pwr with step := 3, charged := false } ∧ t.veh = [] ∧ t.rf .pwr .A 0x08 15 8 = v ∧ Frame (.free :: .shadow :: .blocks :: .ref :: .ho :: .pll :: .lkt :: .cans :: .lsw :: .mesh :: .upd :: .veh :: .vehG :: .pwr :: (allRegs ++ halfParts .A ++ halfParts .B)) s t) ∧
  (∀ (s : State) (v : Nat), s.pwr.step ≠ 2 ∨ 80 ≤ v → Ends (.holdupHalvesStop v) s fun t => t.rf .pwr .A 0x08 15 8 = min 255 v ∧ Frame [.regs .pwr] s t) ∧
  (∀ (s : State) (v : Nat), s.pwr.step ≠ 3 ∨ 60 ≤ v → Ends (.holdupIslandsStop v) s fun t => t.rf .pwr .A 0x08 15 8 = min 255 v ∧ Frame [.regs .pwr] s t) ∧
  (∀ (s : State) (v : Nat), s.pwr.step = 3 → v < 60 →
    Ends (.holdupIslandsStop v) s fun t => t.pwr.up = false ∧ t.pwr.charged = false ∧ t.pwr.step = 4 ∧ t.lsw = {} ∧ (∀ z < 8, t.zone z = { since := (t.zone z).since }) ∧ (∀ n < 8, (t.outPair n).on = false) ∧
        (∀ off, t.rg .lsw .A off = resetWord .lsw .A off) ∧ (t.rf .pwr .A 0x08 7 0 < 125 → t.pwr.batt = 0) ∧
        (125 ≤ t.rf .pwr .A 0x08 7 0 → t.pwr = { s.pwr with up := false, charged := false, step := 4, batt := 1, battAt := s.rtc } ∧ t.rtc = s.rtc) ∧
        t.rf .pwr .A 0x08 15 8 = v ∧ Frame [.free, .regs .pwr, .regs .lsw, .regs .saf, .saf, .lsw, .upd, .pwr, .rtc] s t) ∧
  (∀ (s : State), s.pwr.step = 3 → Ends .holdupEnd s fun t => t.rf .pwr .A 0x0C 15 8 = 4 ∧ t.rf .pwr .A 0x0C 7 0 = 4 ∧ t.ref.token = none ∧ t.cans = [] ∧ t.mesh = {} ∧ (∀ h, (t.hf h).twn.service = false ∧ (t.hf h).twn.unhealthy = true ∧ (t.hf h).twn.cause = (if (s.hf h).twn.held then 0x8B else 0x8A) ∧ (t.hf h).stg = [] ∧ (t.hf h).ports = [] ∧
          (t.hf h).twn.claim = baseClaim h ∧ (t.hf h).pts = flashPoints (s.hf h) ∧ ∀ off, t.rg .cln h off = resetWord .cln h off) ∧
        (∀ off, t.rg .can .A off = resetWord .can .A off ∧ t.rg .gpio .A off = resetWord .gpio .A off) ∧ t.pwr = { s.pwr with vhSwitch := false, step := 0 } ∧ t.rb .pwr .A 0 2 = false ∧ Frame (.free :: .shadow :: .blocks :: .ref :: .ho :: .pll :: .lkt :: .cans :: .lsw :: .mesh :: .upd :: .veh :: .vehG :: .pwr :: (allRegs ++ halfParts .A ++ halfParts .B)) s t) ∧
  (∀ (s : State), s.pwr.step = 2 → Ends .holdupEnd s fun t => t.pwr = { s.pwr with vhSwitch := false, step := 0 } ∧ t.rb .pwr .A 0 2 = false ∧
    (s.lkt.waiting = [] → t.lkt = s.lkt ∧ (∀ h, (t.hf h).thm = { (s.hf h).thm with buf := if (s.hf h).thm.flashHold then (s.hf h).thm.buf else 0 }) ∧ Frame [.regs .pwr, .thm .A, .thm .B, .pwr] s t)) ∧
  (∀ (s : State), s.pwr.step ≠ 2 → s.pwr.step ≠ 3 → Ends .holdupEnd s fun t => t.pwr = { s.pwr with vhSwitch := false, step := 0 } ∧ t.rb .pwr .A 0 2 = false ∧ t.lkt = { s.lkt with waiting := [] } ∧ Frame [.regs .pwr, .lkt, .pwr] s t) ∧
  (∀ (s : State), s.pwr.up = false →
    Ends .moduleStart s fun t => t.pwr = { up := true, stuck := s.pwr.stuck } ∧ t.ref.token = none ∧ t.cans = [] ∧ t.mesh = {} ∧ (∀ h, (t.hf h).twn.service = false ∧ (t.hf h).twn.unhealthy = true ∧ (t.hf h).twn.cause = (if (s.hf h).twn.held then 0x8B else 0x8A) ∧ (t.hf h).stg = [] ∧ (t.hf h).ports = [] ∧
          (t.hf h).twn.claim = baseClaim h ∧ (t.hf h).pts = flashPoints (s.hf h) ∧ ∀ off, t.rg .cln h off = resetWord .cln h off) ∧
        (∀ off, t.rg .can .A off = resetWord .can .A off ∧ t.rg .gpio .A off = resetWord .gpio .A off) ∧ t.lsw = {} ∧ (∀ off, t.rg .lsw .A off = resetWord .lsw .A off ∧ t.rg .pwr .A off = resetWord .pwr .A off) ∧
        (∀ z < 8, t.zone z = { since := (t.zone z).since }) ∧ (∀ n < 8, (t.outPair n).on = false) ∧ t.met.pulses = [] ∧ t.met.battery = 0 ∧ t.upd.stage = [] ∧ Frame (.free :: .shadow :: .blocks :: .ref :: .ho :: .pll :: .lkt :: .cans :: .lsw :: .mesh :: .upd :: .veh :: .vehG :: .therm :: .met :: .bil :: .saf :: .pwr :: (allRegs ++ halfParts .A ++ halfParts .B)) s t) ∧
  (∀ (s : State), s.pwr.up = true → exec .moduleStart s = .next s) ∧
  (∀ (s : State) (v : Nat), Ends (.vholdCharged v) s fun t => t.pwr = { s.pwr with charged := s.pwr.charged || (s.pwr.up && decide (120 ≤ v)) } ∧ t.rf .pwr .A 0x08 15 8 = min 255 v ∧ Frame [.regs .pwr, .pwr] s t) ∧
  (∀ (s : State) (ms gap : Nat), s.pwr.up = true → s.pwr.stuck = false ∨ 100 ≤ gap → 30 ≤ ms → ms < 5000 → s.wakes .button = false →
    Ends (.svcBtnRelease ms gap) s fun t => t.rb .pwr .A 0x08 26 = true ∧ t.bil.ldsp.chk = s.now + 200000 ∧ t.bil.core = s.bil.core ∧ t.pwr = { s.pwr with stuck := false } ∧ Frame [.regs .pwr, .bil, .pwr] s t) ∧
  (∀ (s : State) (ms gap : Nat), s.pwr.up = true → s.pwr.stuck = false ∨ 100 ≤ gap → 30 ≤ ms → ms < 5000 → s.wakes .button = true →
    Ends (.svcBtnRelease ms gap) s fun t => t.rb .pwr .A 0x08 26 = true ∧ t.bil.ldsp.chk = s.now + 200000 ∧ t.bil.core = s.bil.core ∧ t.pstate = 0 ∧
        Frame [.regs .pwr, .pts .A, .pts .B, .pub .A, .pub .B, .twn .A, .twn .B, .met, .bil, .lkt, .pwr] s t) ∧
  (∀ (s : State) (ms gap : Nat) (h : Half), s.pwr.up = true → s.pwr.stuck = false ∨ 100 ≤ gap → 5000 ≤ ms → ms ≤ 30000 → s.ref.token = some h →
    Ends (.svcBtnRelease ms gap) s fun t => t.rb .pwr .A 0x08 25 = true ∧ (t.hf (other h)).twn.recov = true ∧ (t.hf (other h)).twn.service = false ∧ t.ref.token = some h ∧
        (t.hf h).twn.recov = (s.hf h).twn.recov ∧ Raised t h 1 0x0F05 [2]) ∧
  (∀ (s : State) (ms gap : Nat), s.pwr.up = true → s.pwr.stuck = false ∨ 100 ≤ gap → 5000 ≤ ms → ms ≤ 30000 → s.ref.token = none →
    Ends (.svcBtnRelease ms gap) s fun t => t.rb .pwr .A 0x08 25 = true ∧ ∀ h, (t.hf h).twn.recov = true ∧ (t.hf h).twn.service = false) ∧
  (∀ (s : State) (ms gap : Nat), s.pwr.up = false ∨ 30000 < ms ∨ (s.pwr.stuck = false ∧ ms < 30) → exec (.svcBtnRelease ms gap) s = .next s) ∧
  (∀ (s : State) (ms gap : Nat), s.pwr.stuck = true → gap < 100 → exec (.svcBtnRelease ms gap) s = .next s ∧ exec (.svcBtnStuck gap) s = .next s) ∧
  (∀ (s : State) (gap : Nat), s.pwr.up = true → s.pwr.stuck = false ∨ 100 ≤ gap → Ends (.svcBtnStuck gap) s fun t => t.rb .pwr .A 0x08 24 = true ∧ t.pwr = { s.pwr with stuck := true } ∧ (∀ h, Raised t h 1 0x0F05 [1]) ∧
        Frame (.regs .pwr :: .pwr :: bothMbx) s t) ∧
  (∀ (s : State) (h : Half) (n : Nat), s.ref.token ≠ some h → Ends (.powerStateRequest h n) s fun t => bitAt (t.rg .loc h 0x10100) 29 = true ∧ (t.rg .loc h 0x10104).toNat = min 0xFFFFFFFF ((s.rg .loc h 0x10104).toNat + 1) ∧ Frame [.regs .loc] s t) ∧
  (∀ (s : State) (h : Half) (n : Nat), s.ref.token = some h → n = 0 ∨ 4 < n → Ends (.powerStateRequest h n) s fun t => t.rf .pwr .A 0x04 31 29 = 0 ∧ t.pstate = s.pstate ∧ Frame [.regs .pwr] s t) ∧
  (∀ (s : State) (h : Half) (n : Nat), s.ref.token = some h → 1 ≤ n → n ≤ 4 → s.pstate ≠ 0 → exec (.powerStateRequest h n) s = .next s) ∧
  (∀ (s : State) (h : Half) (n : Nat), s.ref.token = some h → 1 ≤ n → n ≤ 4 → s.pstate = 0 → s.siteIdle = false → Ends (.powerStateRequest h n) s fun t => t.rf .pwr .A 0x08 28 27 = 1 ∧ t.rf .pwr .A 0x04 31 29 = 0 ∧ t.pstate = 0 ∧ Frame [.regs .pwr] s t) ∧
  (∀ (s : State) (h : Half), s.ref.token = some h → s.pstate = 0 → s.siteIdle = true → s.zonesQuiet = false → Ends (.powerStateRequest h 4) s fun t => t.rf .pwr .A 0x08 28 27 = 2 ∧ t.rf .pwr .A 0x04 31 29 = 0 ∧ t.pstate = 0 ∧ Frame [.regs .pwr] s t) ∧
  (∀ (s : State) (h g : Half), s.ref.token = some h → s.pstate = 0 → s.siteIdle = true → s.zonesQuiet = true → (s.hf g).thm.flashHold = true →
    Ends (.powerStateRequest h 4) s fun t => t.rf .pwr .A 0x08 28 27 = 3 ∧ t.rf .pwr .A 0x04 31 29 = 0 ∧ t.pstate = 0 ∧ Frame [.regs .pwr] s t) ∧
  (∀ (s : State) (h : Half), s.ref.token = some h → s.pstate = 0 → s.siteIdle = true → Ends (.powerStateRequest h 1) s fun t => t.pstate = 1 ∧ t.rf .pwr .A 0x04 31 29 = 1 ∧ t.pwr = { s.pwr with entered := s.rtc } ∧ Frame [.regs .pwr, .pwr] s t) ∧
  (∀ (s : State) (h : Half) (n : Nat), s.ref.token = some h → n = 2 ∨ n = 3 → s.pstate = 0 → s.siteIdle = true →
    Ends (.powerStateRequest h n) s fun t => t.pstate = n ∧ t.ref.token = none ∧ t.pwr = { s.pwr with entered := s.rtc } ∧ (n = 3 → ∀ off, t.rg .gpio .A off = resetWord .gpio .A off) ∧ ∀ g, (t.hf g).twn.off = true ∧ (t.hf g).twn.service = false ∧ (t.hf g).ports = [] ∧ (t.hf g).pts = (s.hf g).pts) ∧
  (∀ (s : State) (h : Half), s.ref.token = some h → s.pstate = 0 → s.siteIdle = true → s.zonesQuiet = true → s.halfA.thm.flashHold = false → s.halfB.thm.flashHold = false →
    Ends (.powerStateRequest h 4) s fun t => t.pstate = 4 ∧ t.lsw = {} ∧ t.pwr = { s.pwr with entered := s.rtc } ∧ (∀ z < 8, t.zone z = { since := (t.zone z).since }) ∧ (∀ off, t.rg .lsw .A off = resetWord .lsw .A off) ∧ (∀ off, t.rg .gpio .A off = resetWord .gpio .A off) ∧ ∀ g, (t.hf g).twn.off = true) ∧
  (∀ (s : State) (src : WakeSrc), s.wakes src = true → s.pstate = 1 → Ends (.wake src) s fun t => t.pstate = 0 ∧ t.rf .pwr .A 0x04 31 29 = 0 ∧ t.pwr = { s.pwr with entered := s.rtc } ∧ Frame [.regs .pwr, .pwr] s t) ∧
  (∀ (s : State) (src : WakeSrc), s.wakes src = true → s.pstate = 2 → Ends (.wake src) s fun t => t.pstate = 0 ∧
        (∀ h, (t.hf h).twn.off = (s.hf h).twn.held ∧ (t.hf h).twn.booted = !(s.hf h).twn.held ∧ (t.hf h).pts = (s.hf h).pts) ∧ Frame [.regs .pwr, .twn .A, .twn .B, .pwr] s t) ∧
  (∀ (s : State) (src : WakeSrc), s.wakes src = true → s.pstate = 3 → Ends (.wake src) s fun t => t.pstate = 0 ∧ t.rf .pwr .A 0x0C 15 8 = 7 ∧ t.rf .pwr .A 0x0C 7 0 = 7 ∧
        (∀ h, (t.hf h).twn.off = (s.hf h).twn.held ∧ (t.hf h).twn.booted = !(s.hf h).twn.held) ∧ Frame [.regs .pwr, .twn .A, .twn .B, .pwr] s t) ∧
  (∀ (s : State) (src : WakeSrc), s.wakes src = true → s.pstate = 4 → Ends (.wake src) s fun t => t.pstate = 0 ∧ (∀ h, (t.hf h).pts = flashPoints (s.hf h) ∧ (t.hf h).pub = {} ∧ (t.hf h).twn.off = (s.hf h).twn.held) ∧ t.met.battery = 0 ∧ t.lkt = { s.lkt with starting := max 1 s.lkt.starting } ∧
        t.rf .pwr .A 0x0C 15 8 = 8 ∧ t.rf .pwr .A 0x0C 7 0 = 8 ∧ Frame [.regs .pwr, .pts .A, .pts .B, .pub .A, .pub .B, .twn .A, .twn .B, .met, .lkt, .pwr] s t) ∧
  (∀ (s : State), (∀ src, s.wakes src = false → exec (.wake src) s = .next s) ∧ s.wakes .feed = false ∧ (s.pstate = 0 → ∀ src, s.wakes src = false) ∧ (3 ≤ s.pstate → s.wakes .doorbell = false)) ∧
  (∀ (s : State) (n : Nat), s.rf .pwr .A 0x04 15 0 = n → 0 < n → s.pwr.entered + 32768 * n ≤ s.rtc → 1 ≤ s.pstate → s.pstate ≤ 4 → Ends .wakeTimerExpiry s fun t => t.pstate = 0 ∧ t.rf .pwr .A 0x04 31 29 = 0 ∧
    (s.pstate = 1 → Frame [.regs .pwr, .pwr] s t) ∧ Frame [.regs .pwr, .pts .A, .pts .B, .pub .A, .pub .B, .twn .A, .twn .B, .met, .lkt, .pwr] s t) ∧
  (∀ (s : State), s.rf .pwr .A 0x04 15 0 = 0 ∨ s.rtc < s.pwr.entered + 32768 * s.rf .pwr .A 0x04 15 0 ∨ s.pstate = 0 ∨ 4 < s.pstate → exec .wakeTimerExpiry s = .next s) ∧
  (∀ (s : State), s.pwr.batt = 1 → s.pwr.battAt + 3600 * 32768 * s.rf .met .A 0x704 7 0 ≤ s.rtc → Ends .s4BatteryToS5 s fun t => t.pwr = { s.pwr with batt := 2 } ∧ t.met = { s.met with battery := 3 } ∧ Frame [.met, .pwr] s t) ∧
  (∀ (s : State), s.pwr.batt ≠ 1 ∨ s.rtc < s.pwr.battAt + 3600 * 32768 * s.rf .met .A 0x704 7 0 → exec .s4BatteryToS5 s = .next s) ∧
  (∀ (s : State) (h : Half) (d u n : Nat) (v a : Bool), s.rb .tck h 0 30 = true → d = s.rf .tck h 0 23 16 →
    Ends (.ptpAnnounceReceived h d u v a n) s fun t => (t.hf h).tck = { (s.hf h).tck with master := a, annTicks := n, tstate := if a && decide ((s.hf h).tck.tstate = 0) then 1 else (s.hf h).tck.tstate } ∧
        (a = true → (s.hf h).tck.tstate = 0 → ∃ e ∈ (t.hf h).mbx.events, e.code = 0x0101 ∧ e.sev = 1 ∧ e.detail.take 2 = [0, 1]) ∧ t.bil = { s.bil with tai := if v then u else s.bil.tai } ∧
        Frame (.tck h :: .bil :: bothMbx) s t) ∧
  (∀ (s : State) (h : Half) (d u n : Nat) (v a : Bool), s.rb .tck h 0 30 = false ∨ d ≠ s.rf .tck h 0 23 16 → exec (.ptpAnnounceReceived h d u v a n) s = .next s)

/-- A root mesh port counts its crossings, sends and acknowledges cells, and ends an exchange in delivery, abandonment or timeout. (R584, R586, R587, R589, R591, R592, R593, R594, R595, R602, R603, R604)
Where the spec leaves a point open, the clauses follow the model's choice in log entries 74, 75, 76, 78. -/
def Obligations.MeshCrossingsAndExchanges : Prop :=
  (∀ (s : State) (n f : Nat) (e : Option Int) (b : Bool) (l : List HalfSlot), s.meshEn n = false → exec (.zeroCrossing n e f b l) s = .next s) ∧
  (∀ (s : State) (n f : Nat) (e : Option Int) (b : Bool) (l : List HalfSlot), s.meshEn n = true →
    Ends (.zeroCrossing n e f b l) s fun t => (t.mp n).t = (s.mp n).t + 1 ∧ t.rf .rms .A (0x20 * n + 4) 15 0 = ((s.mp n).t + 1) % 65536 ∧ t.rf .rms .A (0x20 * n + 4) 28 16 = f % 8192 ∧
        ((∃ d, e = some d ∧ -200 ≤ d ∧ d ≤ 200 ∧ 4500 ≤ f ∧ f ≤ 6500) → (t.mp n).miss = 0 ∧ (t.mp n).good = (s.mp n).good + 1) ∧
        (e = none → (t.mp n).miss = (s.mp n).miss + 1 ∧ (t.mp n).good = 0) ∧ (∀ m, m ≠ n → t.mp m = s.mp m) ∧ Frame [.free, .regs .rms, .mesh] s t) ∧
  (∀ (s : State) (n f m k : Nat) (e : Option Int) (b : Bool) (l : List HalfSlot), s.meshEn n = true → s.meshTx n = true → (s.mp n).harv = none → (s.mp n).busy = 0 → (s.mp n).x = none →
    (s.mp n).q = [] → s.rf .rms .A 0x100 30 28 = 1 → s.rf .rms .A 0x100 27 27 = n → m = s.rf .rms .A 0x100 15 8 → m ≠ 0xFF → k = min 48 (s.rf .rms .A 0x100 7 0) →
    (s.route m).headD 0 ≠ 0xFF →
    Ends (.zeroCrossing n e f b l) s fun t => t.rf .rms .A 0x100 30 28 = 2 ∧ (∃ x, (t.mp n).x = some x ∧ x.frame.kind = 2 ∧ x.frame.dst = m ∧ x.frame.body.take 2 = [m, k] ∧
        x.frame.body.length = k + 2 ∧ x.hops = (s.route m).length ∧ x.next = (s.route m).headD 0 ∧ x.st = 1 ∧ x.idx = 0)) ∧
  (∀ (s : State) (n f : Nat) (e : Option Int) (b : Bool) (l : List HalfSlot), s.meshEn n = true → (s.mp n).harv = none → 0 < (s.mp n).busy →
    Ends (.zeroCrossing n e f b l) s fun t => (t.mp n).busy = (s.mp n).busy - 1 ∧ (t.mp n).x = (s.mp n).x ∧ (t.mp n).q = (s.mp n).q ∧ Frame [.regs .rms, .mesh] s t) ∧
  (∀ (s : State) (n : Nat), s.meshEn n = true → 4 ≤ (s.mp n).miss → (s.mp n).lost = false →
    Ends (.zcLost n) s fun t => (t.mp n).lost = true ∧ t.meshTx n = false ∧ t.rb .rms .A (0x20 * n + 4) 30 = true ∧ (∀ h, Raised t h 1 0x0F04 ([n, 0, 1, 0] ++ le 4 0)) ∧ Frame (.regs .rms :: .mesh :: bothMbx) s t) ∧
  (∀ (s : State) (n : Nat), s.meshEn n = false ∨ (s.mp n).miss < 4 ∨ (s.mp n).lost = true → exec (.zcLost n) s = .next s) ∧
  (∀ (s : State) (n : Nat), s.meshEn n = true → 16 ≤ (s.mp n).good → (s.mp n).lost = true →
    Ends (.zcRecovered n) s fun t => (t.mp n).lost = false ∧ t.meshTx n = true ∧ (∀ h, Raised t h 1 0x0F04 ([n, 0, 2, 0] ++ le 4 0)) ∧ Frame (.regs .rms :: .mesh :: bothMbx) s t) ∧
  (∀ (s : State) (n : Nat), s.meshEn n = false ∨ (s.mp n).good < 16 ∨ ((s.mp n).lost = false ∧ s.meshTx n = true) → exec (.zcRecovered n) s = .next s) ∧
  (∀ (s : State) (n : Nat) (x : MeshX), (s.mp n).x = some x → x.st = 2 → x.resp = some (true, x.idx % 32) → x.nibs.drop x.cur ≠ [] →
    Ends (.meshCellResponse n) s fun t => (t.mp n).x = some { x with nibs := x.nibs.drop x.cur, idx := x.idx + 1, st := 0, resp := none } ∧ Frame [.mesh] s t) ∧
  (∀ (s : State) (n : Nat) (x : MeshX), (s.mp n).x = some x → x.st = 2 → x.resp = some (true, x.idx % 32) → x.nibs.drop x.cur = [] → x.frame.kind = 2 →
    Ends (.meshCellResponse n) s fun t => t.rf .rms .A 0x100 30 28 = 3 ∧ (x.hops = 1 → (t.mp n).x = none) ∧ (x.hops ≠ 1 → (t.mp n).x = some { x with st := 6 }) ∧ Frame [.regs .rms, .mesh] s t) ∧
  (∀ (s : State) (n : Nat) (x : MeshX), (s.mp n).x = some x → x.st = 2 → x.resp = some (true, x.idx % 32) → x.nibs.drop x.cur = [] → x.frame.kind = 3 →
    Ends (.meshCellResponse n) s fun t => (t.mp n).x = some { x with st := if x.hops = 1 then 4 else 6 } ∧ Frame [.mesh] s t) ∧
  (∀ (s : State) (n : Nat) (x : MeshX), (s.mp n).x = some x → x.st = 2 → x.resp ≠ some (true, x.idx % 32) →
    (x.resends < 3 → Ends (.meshCellResponse n) s fun t => (t.mp n).x = some { x with resends := x.resends + 1, st := 0, resp := none } ∧ Frame [.mesh] s t) ∧
        (3 ≤ x.resends → Ends (.meshCellResponse n) s fun t => (t.mp n).x = some { x with st := 3 } ∧ Frame [.mesh] s t)) ∧
  (∀ (s : State) (n : Nat) (x : MeshX), (s.mp n).x = some x → x.st = 3 →
    Ends (.meshFrameAbandon n 0) s fun t => (t.mp n).x = none ∧ (t.rg .rms .A (0x20 * n + 0x14)).toNat = min 0xFFFFFFFF ((s.rg .rms .A (0x20 * n + 0x14)).toNat + 1) ∧
        look 0 t.mesh.aband x.frame.dst = look 0 s.mesh.aband x.frame.dst + 1 ∧ (∀ h, Raised t h 1 0x0F04 ([n, x.frame.dst, 6, 0] ++ le 4 0)) ∧ Frame (.regs .rms :: .mesh :: bothMbx) s t) ∧
  (∀ (s : State) (n : Nat) (x : MeshX), n < 2 → (s.mp n).x = some x → x.st = 3 → x.frame.kind = 2 → Ends (.meshFrameAbandon n 0) s fun t => t.rf .rms .A 0x100 30 28 = 4) ∧
  (∀ (s : State) (n k : Nat) (x : MeshX), (s.mp n).x = some x → 0 < k → x.st = 6 ∨ x.st = 4 → k < x.hops →
    Ends (.meshFrameAbandon n k) s fun t => (t.mp n).x = some x ∧ look 0 t.mesh.aband x.frame.dst = look 0 s.mesh.aband x.frame.dst + 1 ∧ Frame (.regs .rms :: .mesh :: bothMbx) s t) ∧
  (∀ (s : State) (n k : Nat), (s.mp n).x = none → exec (.meshCellResponse n) s = .next s ∧ exec (.meshFrameAbandon n k) s = .next s ∧ exec (.meshFrameReceived n) s = .next s ∧
    exec (.meshRelayForward n) s = .next s ∧ exec (.meshExchangeTimeout n) s = .next s) ∧
  (∀ (s : State) (n len : Nat) (x : MeshX) (b : List Nat), n < 2 → (s.mp n).x = some x → x.st = 7 → bytesOf x.ans = b → b.length = 6 + len → len ≤ 48 → numAt b 0 1 / 16 = 2 → numAt b 3 1 = len → numAt b 1 1 = 0 → numAt b 2 1 = 0 →
    numAt b (4 + len) 2 = crcMsb 16 0x1021 0xFFFF (b.take (4 + len)) → 0 < len → x.frame.dst < 256 → s.rb .rms .A 0x180 31 = false →
    Ends (.meshFrameReceived n) s fun t => (t.mp n).x = none ∧ t.rb .rms .A 0x180 31 = true ∧ t.rf .rms .A 0x180 29 29 = n ∧ t.rf .rms .A 0x180 15 8 = x.frame.dst ∧ t.rf .rms .A 0x180 7 0 = len ∧
        (∀ i < 12, (t.rg .rms .A (0x1C0 + 4 * i)).toNat = numAt (bytesAt b 4 len) (4 * i) 4) ∧ t.mesh.rxq = s.mesh.rxq ∧ Frame [.regs .rms, .mesh] s t) ∧
  (∀ (s : State) (n len : Nat) (x : MeshX) (b : List Nat), (s.mp n).x = some x → x.st = 7 → bytesOf x.ans = b → b.length = 6 + len → len ≤ 48 → numAt b 0 1 / 16 = 2 → numAt b 3 1 = len → numAt b 1 1 = 0 → numAt b 2 1 = 0 →
    numAt b (4 + len) 2 = crcMsb 16 0x1021 0xFFFF (b.take (4 + len)) → 0 < len → s.rb .rms .A 0x180 31 = true → s.mesh.rxq.length < 8 →
    Ends (.meshFrameReceived n) s fun t => (t.mp n).x = none ∧ t.mesh.rxq = s.mesh.rxq ++ [(n, x.frame.dst, bytesAt b 4 len)] ∧ Frame [.mesh] s t) ∧
  (∀ (s : State) (n len : Nat) (x : MeshX) (b : List Nat), (s.mp n).x = some x → x.st = 7 → bytesOf x.ans = b → b.length = 6 + len → len ≤ 48 → numAt b 0 1 / 16 = 2 → numAt b 3 1 = len → numAt b 1 1 = 0 → numAt b 2 1 = 0 →
    numAt b (4 + len) 2 = crcMsb 16 0x1021 0xFFFF (b.take (4 + len)) → 0 < len → s.rb .rms .A 0x180 31 = true → 8 ≤ s.mesh.rxq.length →
    Ends (.meshFrameReceived n) s fun t => (t.mp n).x = none ∧ t.mesh.rxq = s.mesh.rxq ∧ t.rb .rms .A 0x180 28 = true ∧ Frame [.regs .rms, .mesh] s t) ∧
  (∀ (s : State) (n len : Nat) (x : MeshX) (b : List Nat), (s.mp n).x = some x → x.st = 7 → bytesOf x.ans = b → b.length = 6 + len → numAt b 0 1 / 16 = 2 → numAt b 3 1 = len →
    numAt b (4 + len) 2 ≠ crcMsb 16 0x1021 0xFFFF (b.take (4 + len)) →
    Ends (.meshFrameReceived n) s fun t => (t.mp n).x = some { x with st := 4, ans := [], ansIdx := 0 } ∧ t.mesh.rxq = s.mesh.rxq ∧ Frame [.mesh] s t) ∧
  (∀ (s : State) (n : Nat) (x : MeshX) (p : List Nat), (s.mp n).x = some x → x.st = 6 → x.frame.kind ≠ 6 → look [] s.mesh.recs x.frame.dst = p → x.hop < 3 → x.hop + 1 < p.length →
    Ends (.meshRelayForward n) s fun t => (∃ y, (t.mp n).x = some y ∧ y.hop = x.hop + 1 ∧ y.nibs = nibsOf (meshBytes x.frame (x.hop + 1) (p.getD (x.hop + 1) 0)) ∧
        y.st = (if x.frame.kind = 3 ∧ x.hop + 2 = x.hops then 4 else 6)) ∧ Frame [.mesh] s t) ∧
  (∀ (s : State) (n : Nat) (x : MeshX), (s.mp n).x = some x → x.st ≠ 6 ∨ 3 ≤ x.hop → exec (.meshRelayForward n) s = .next s) ∧
  (∀ (s : State) (n : Nat), s.meshIdle n = true → (s.mp n).beacon + 1000 ≤ (s.mp n).t →
    Ends (.beacon n) s fun t => (t.mp n).busy = 8 ∧ (t.mp n).beacon = (s.mp n).t + 1 ∧ (t.mp n).x = none ∧ Frame [.mesh] s t) ∧
  (∀ (s : State) (n : Nat), s.meshIdle n = false ∨ (s.mp n).t < (s.mp n).beacon + 1000 → exec (.beacon n) s = .next s) ∧
  (∀ (s : State) (n m : Nat), s.meshIdle n = true → s.nodeEn n m = true → look 0 (s.mp n).polls m + max 10 (s.rf .rms .A (0x400 + 4 * m) 15 0) ≤ (s.mp n).t →
    Ends (.poll n m) s fun t => look 0 (t.mp n).polls m = (s.mp n).t ∧ (∃ x, (t.mp n).x = some x ∧ x.frame.kind = 3 ∧ x.frame.dst = m ∧ x.frame.body = [m] ∧ x.st = 0 ∧
        x.hops = (s.route m).length ∧ x.start = (s.mp n).t) ∧ Frame [.mesh] s t) ∧
  (∀ (s : State) (n m : Nat), s.meshIdle n = false ∨ s.nodeEn n m = false ∨ (s.mp n).t < look 0 (s.mp n).polls m + max 10 (s.rf .rms .A (0x400 + 4 * m) 15 0) →
    exec (.poll n m) s = .next s) ∧
  (∀ (s : State) (n : Nat) (x : MeshX), (s.mp n).x = some x → x.start + 114 * x.hops ≤ (s.mp n).t →
    Ends (.meshExchangeTimeout n) s fun t => (t.mp n).x = none ∧ ((x.frame.kind = 2 ∧ s.rf .rms .A 0x100 30 28 = 2) → t.rf .rms .A 0x100 30 28 = 4) ∧ (x.frame.kind ≠ 2 → t.rf .rms .A 0x100 30 28 = s.rf .rms .A 0x100 30 28) ∧ Frame [.regs .rms, .mesh] s t) ∧
  (∀ (s : State) (n : Nat) (x : MeshX), (s.mp n).x = some x → (s.mp n).t < x.start + 114 * x.hops → exec (.meshExchangeTimeout n) s = .next s)

/-- Mesh maps follow the reports, routes follow their cost, and connections of the island are carried by the mesh and by CAN. (R485, R535, R588, R590, R596, R597, R599, R602, R603, R604, R605)
Where the spec leaves a point open, the clauses follow the model's choice in log entries 42, 75, 77, 78. -/
def Obligations.MeshMapsRoutesAndCarriage : Prop :=
  (∀ (s : State) (h : Half), s.ref.token ≠ some h → Ends (.rmsTxRequest h) s fun t => bitAt (t.rg .loc h 0x10100) 29 = true ∧ (t.rg .loc h 0x10104).toNat = min 0xFFFFFFFF ((s.rg .loc h 0x10104).toNat + 1) ∧ Frame [.regs .loc] s t) ∧
  (∀ (s : State) (h : Half), s.ref.token ≠ some h → Ends (.rmsRxRelease h) s fun t => bitAt (t.rg .loc h 0x10100) 29 = true ∧ (t.rg .loc h 0x10104).toNat = min 0xFFFFFFFF ((s.rg .loc h 0x10104).toNat + 1) ∧ Frame [.regs .loc] s t) ∧
  (∀ (s : State) (h : Half), s.ref.token = some h → s.rf .rms .A 0x100 30 28 ≠ 1 → s.rf .rms .A 0x100 30 28 ≠ 2 → Ends (.rmsTxRequest h) s fun t => t.rf .rms .A 0x100 30 28 = 1 ∧ Frame [.regs .rms] s t) ∧
  (∀ (s : State) (h : Half), s.ref.token = some h → s.rf .rms .A 0x100 30 28 = 1 ∨ s.rf .rms .A 0x100 30 28 = 2 → exec (.rmsTxRequest h) s = .next s) ∧
  (∀ (s : State) (h : Half), s.ref.token = some h → s.mesh.rxq = [] → Ends (.rmsRxRelease h) s fun t => t.rb .rms .A 0x180 31 = false ∧ Frame [.regs .rms] s t) ∧
  (∀ (s : State) (h : Half) (n m : Nat) (d : List Nat) (l : List (Nat × Nat × List Nat)), s.ref.token = some h → s.mesh.rxq = (n, m, d) :: l → n < 2 → m < 256 → d.length < 256 →
    Ends (.rmsRxRelease h) s fun t => t.mesh.rxq = l ∧ t.rb .rms .A 0x180 31 = true ∧ t.rf .rms .A 0x180 29 29 = n ∧ t.rf .rms .A 0x180 15 8 = m ∧ t.rf .rms .A 0x180 7 0 = d.length ∧
        (∀ i < 12, (t.rg .rms .A (0x1C0 + 4 * i)).toNat = numAt d (4 * i) 4) ∧ Frame [.regs .rms, .mesh] s t) ∧
  (∀ (s : State) (n a j : Nat) (b : List Nat) (l : List (Nat × List Nat)) (r : List (Nat × Nat)), (s.mp n).reps = (a, b) :: l → j = numAt b 3 1 → r = (bytesAt b 4 8).map (fun x => (x / 16, x % 16)) → (s.mlink j a).rec_ ≠ recMap r → Ends (.linkrep n none) s fun t => (t.mp n).reps = l ∧ (t.mlink j a).rec_ = recMap r ∧ (t.mlink j a).recN = 1 ∧
        (t.mlink j a).erased = r.map (·.1) ∧ (t.mlink j a).map = (s.mlink j a).map ∧ (t.mlink j a).chg = (s.mlink j a).chg ∧ Frame [.mesh] s t) ∧
  (∀ (s : State) (n a j : Nat) (b : List Nat) (l : List (Nat × List Nat)) (r : List (Nat × Nat)), (s.mp n).reps = (a, b) :: l → j = numAt b 3 1 → r = (bytesAt b 4 8).map (fun x => (x / 16, x % 16)) → (s.mlink j a).rec_ = recMap r → 2 ≤ (s.mlink j a).recN → mapU (recMap r) < 4 → (s.mlink j a).down = false →
    Ends (.linkrep n none) s fun t => (t.mlink j a).down = true ∧ (t.mlink j a).map = (s.mlink j a).map ∧ (∀ h, Raised t h 1 0x0F04 ([n, if j = 0 then a else j, 5, 0] ++ le 4 0)) ∧ Frame (.mesh :: bothMbx) s t) ∧
  (∀ (s : State) (n a j : Nat) (b : List Nat) (l : List (Nat × List Nat)) (r : List (Nat × Nat)), (s.mp n).reps = (a, b) :: l → j = numAt b 3 1 → r = (bytesAt b 4 8).map (fun x => (x / 16, x % 16)) → (s.mlink j a).rec_ = recMap r → 2 ≤ (s.mlink j a).recN → 4 ≤ mapU (recMap r) → recMap r ≠ (s.mlink j a).map → (s.mlink j a).chg = none →
    Ends (.linkrep n none) s fun t => (t.mlink j a).down = false ∧ (t.mlink j a).chg = some { map := recMap r, at_ := (s.mp n).t + 200, ackTx := j == 0, ackRx := a == 0 } ∧
        (t.mlink j a).map = (s.mlink j a).map ∧ (∀ d ∈ [j, a], d ≠ 0 → ∃ f ∈ (t.mp n).q, f.kind = 5 ∧ f.dst = d ∧ f.body = [d, j, a] ++ le 4 (recMap r) ++ le 2 ((s.mp n).t + 200)) ∧ Frame (.mesh :: bothMbx) s t) ∧
  (∀ (s : State) (n : Nat), (s.mp n).reps = [] → exec (.linkrep n none) s = .next s) ∧
  (∀ (s : State) (n m : Nat) (g : List Nat), s.meshEn n = true → s.nodeEn n m = true → 0 < (s.mlink m 0).cells → (s.mp n).t % (100 * max 1 (s.rf .rms .A (0x20 * n) 4 0)) = 0 →
    Ends (.linkrep n (some (m, g))) s fun t => (t.mlink m 0).cells = 0 ∧ (t.mlink m 0).er = [] ∧ (t.mlink m 0).at_ = some (s.mp n).t ∧
        (∀ i < 8, (t.mlink m 0).erased.getD i 99 = min 15 ((16 * (s.mlink m 0).er.getD i 0 + (s.mlink m 0).cells - 1) / (s.mlink m 0).cells)) ∧ Frame (.mesh :: bothMbx) s t) ∧
  (∀ (s : State) (n m : Nat) (g : List Nat), (s.mlink m 0).cells = 0 ∨ s.nodeEn n m = false → exec (.linkrep n (some (m, g))) s = .next s) ∧
  (∀ (s : State) (n i j : Nat) (c : MapChg), (s.mlink i j).chg = some c → c.at_ ≤ (s.mp n).t → c.ackTx = true → c.ackRx = true → c.map ≠ (s.mlink i j).map →
    Ends (.mapset n i j) s fun t => (t.mlink i j).map = c.map ∧ (t.mlink i j).chg = none ∧ (t.mlink i j).recN = 0 ∧ (i = 0 → t.rg .rms .A (0xC00 + 4 * j) = BitVec.ofNat 32 c.map) ∧
        (∀ h, Raised t h 1 0x0F04 ([n, if i = 0 then j else i, 3, 0] ++ le 4 c.map)) ∧ Frame (.regs .rms :: .mesh :: bothMbx) s t) ∧
  (∀ (s : State) (n i j : Nat) (c : MapChg), (s.mlink i j).chg = some c → (s.mp n).t < c.at_ ∨ c.ackTx = false ∨ c.ackRx = false → exec (.mapset n i j) s = .next s) ∧
  (∀ (s : State) (n i j : Nat) (c : MapChg), (s.mlink i j).chg = some c → c.ackTx = false ∨ c.ackRx = false → c.at_ ≤ (s.mp n).t + 20 →
    Ends (.mapsetAckDeadline n i j) s fun t => (t.mlink i j).chg = some { map := (s.mlink i j).map, at_ := (s.mp n).t + 200, ackTx := i == 0, ackRx := j == 0 } ∧
        (t.mlink i j).map = (s.mlink i j).map ∧ Frame [.mesh] s t) ∧
  (∀ (s : State) (n i j : Nat), (s.mlink i j).chg = none → exec (.mapset n i j) s = .next s ∧ exec (.mapsetAckDeadline n i j) s = .next s) ∧
  (∀ (s : State) (n m c : Nat) (p : List Nat), s.meshEn n = true → s.nodeEn n m = true → s.bestRoute n m = some (c, p) → look [] s.mesh.routes m = [] → p ≠ [] → Ends (.routeCompute n m) s fun t => look [] t.mesh.routes m = p ∧ look 0 t.mesh.aband m = 0 ∧ (∀ h, Raised t h 1 0x0F04 ([n, m, 4, 0] ++ le 4 0)) ∧
        (∃ f ∈ (t.mp n).q, f.kind = 6 ∧ f.dst = m ∧ f.body = [m] ++ padTo 4 p) ∧ Frame (.regs .rms :: .mesh :: bothMbx) s t) ∧
  (∀ (s : State) (n m c k : Nat) (p q : List Nat), s.meshEn n = true → s.nodeEn n m = true → s.bestRoute n m = some (c, p) → look [] s.mesh.routes m = q → q ≠ [] → s.routeCost n 0 q = some k → 100 * c ≤ 75 * k → p ≠ q →
    Ends (.routeCompute n m) s fun t => look [] t.mesh.routes m = p ∧ look 0 t.mesh.aband m = 0 ∧ (∀ h, Raised t h 1 0x0F04 ([n, m, 4, 0] ++ le 4 0)) ∧
        (∃ f ∈ (t.mp n).q, f.kind = 6 ∧ f.dst = m ∧ f.body = [m] ++ padTo 4 p) ∧ Frame (.regs .rms :: .mesh :: bothMbx) s t) ∧
  (∀ (s : State) (n m c k : Nat) (p q : List Nat), s.meshEn n = true → s.nodeEn n m = true → s.bestRoute n m = some (c, p) → look [] s.mesh.routes m = q → q ≠ [] → s.routeCost n 0 q = some k → 75 * k < 100 * c → look 0 s.mesh.aband m < 3 →
    exec (.routeCompute n m) s = .next s) ∧
  (∀ (s : State) (n m : Nat), s.meshEn n = true → s.nodeEn n m = true → s.bestRoute n m = none → look [] s.mesh.routes m ≠ [] → s.routeCost n 0 (look [] s.mesh.routes m) = none →
    Ends (.routeCompute n m) s fun t => look [] t.mesh.routes m = [] ∧ t.rg .rms .A (0x800 + 4 * m) = 0 ∧ Frame (.regs .rms :: .mesh :: bothMbx) s t) ∧
  (∀ (s : State) (n m : Nat), s.meshEn n = false ∨ s.nodeEn n m = false → exec (.routeCompute n m) s = .next s) ∧
  (∀ (s : State) (n m : Nat), s.nodeEn n m = true → m ∈ s.mesh.acked → Ends (.assign n m) s fun t => look [] t.mesh.recs m = look [] s.mesh.routes m ∧ m ∉ t.mesh.acked ∧
        t.mesh.routes = s.mesh.routes ∧ Frame [.mesh] s t) ∧
  (∀ (s : State) (n m : Nat), s.nodeEn n m = false ∨ m ∉ s.mesh.acked → exec (.assign n m) s = .next s) ∧
  (∀ (s : State) (n : Nat) (v : MeshHarv), (s.mp n).harv = some v → harvCells (s.outMap v.node) ≤ v.sent → harvCells (s.mlink v.node 0).map ≤ v.got → v.bad = true →
    Ends (.meshHarvitorExchange n) s fun t => (t.mp n).harv = none ∧ t.saf = s.saf ∧ Frame [.mesh] s t) ∧
  (∀ (s : State) (n : Nat) (v : MeshHarv) (p : List Nat), (s.mp n).harv = some v → harvCells (s.outMap v.node) ≤ v.sent → harvCells (s.mlink v.node 0).map ≤ v.got → v.bad = false →
    numAt (bytesOf v.ans) 0 1 / 16 = 1 → s.connEn v.conn = true →
    p = le 4 (s.connCid v.conn) ++ le 2 (s.connTexp v.conn) ++ bytesAt (bytesOf v.ans) 2 4 ++ [0, 0] ++ bytesAt (bytesOf v.ans) 6 1 ++ List.replicate 7 0 ++ bytesAt (bytesOf v.ans) 7 4 →
    Ends (.meshHarvitorExchange n) s fun t => (t.mp n).harv = none ∧
        (t.conn v.conn).he = ((s.conn v.conn).he.receive s.now (s.connTexp v.conn) (s.connCid v.conn) (fld (s.sw (0x200 + 0x10 * v.conn)) 30 29 != 0) p).1 ∧
        Frame (.free :: .saf :: .mesh :: bothMbx) s t) ∧
  (∀ (s : State) (n : Nat), (s.mp n).harv = none → exec (.meshHarvitorExchange n) s = .next s) ∧
  (∀ (s : State) (n : Nat), s.connEn n = true → fld (s.sw (0x200 + 0x10 * n)) 30 29 ≠ 0 → (s.conn n).he.sent = [] ∨ (s.conn n).sentTick + 20 * fld (s.sw (0x200 + 0x10 * n)) 15 8 ≤ s.now → s.islandUp = true → (s.conn n).supp = false →
    Ends (.harvitorCycleSend n) s fun t => (t.conn n).pdu = extendedPdu (s.connCid n) (s.connTexp n) (s.conn n).he.hseq (s.conn n).he.echoOut (s.downData n) ∧
        (t.conn n).he.hseq = ((s.conn n).he.hseq + 1) % 65536 ∧ (t.conn n).sentTick = s.now ∧ Frame [.regs .can, .saf, .mesh] s t) ∧
  (∀ (s : State) (n k : Nat), s.connEn n = true → fld (s.sw (0x200 + 0x10 * n)) 30 29 ≠ 0 → (s.conn n).he.sent = [] ∨ (s.conn n).sentTick + 20 * fld (s.sw (0x200 + 0x10 * n)) 15 8 ≤ s.now → s.islandUp = true → (s.conn n).supp = false → fld (s.sw (0x200 + 0x10 * n)) 30 29 = 2 → k = fld (s.sw (0x200 + 0x10 * n)) 7 0 → k < 4 → s.ref.token ≠ none →
    s.canOwned k = true → s.tstat k 0 ≠ 1 → s.tstat k 0 ≠ 2 →
    Ends (.harvitorCycleSend n) s fun t => (t.tstat k 0 = 1 ∨ t.tstat k 0 = 2) ∧ t.canFld k 0x24 28 0 = (s.sw (0x20C + 0x10 * n)).toNat % 2 ^ 29 ∧
        (∀ j < 6, (t.canReg k (0x100 + 4 * j)).toNat = numAt (t.conn n).pdu (4 * j) 4) ∧ Frame [.regs .can, .saf] s t) ∧
  (∀ (s : State) (n : Nat), s.connEn n = false ∨ fld (s.sw (0x200 + 0x10 * n)) 30 29 = 0 ∨
    ((s.conn n).he.sent ≠ [] ∧ s.now < (s.conn n).sentTick + 20 * fld (s.sw (0x200 + 0x10 * n)) 15 8) → exec (.harvitorCycleSend n) s = .next s)

/-- Images are checked in the order of R610, staged at the half in charge, and forwarded to remotes that report and activate them. (R609, R610, R611, R612, R613, R614, R615, R616, R624, R625, R626)
Where the spec leaves a point open, the clauses follow the model's choice in log entries 6, 82, 83, 85. -/
def Obligations.ImagesStagedAndForwarded : Prop :=
  (∀ (s : State) (o : Org) (x : Half) (role : Nat) (hdr : List Nat) (ec pq : Bool), RunsAt s o 0x0E01 x role → role ∈ updRoles → hdr.length < 3712 ∨ bytesAt hdr 0 4 ≠ [0x56, 0x58, 0x55, 0x50] ∨ numAt hdr 4 2 ≠ 1 ∨ numAt hdr 20 4 = 0 ∨ 536870912 < numAt hdr 20 4 ∨ 2 ≤ numAt hdr 7 1 ∨ 4 ≤ numAt hdr 128 1 →
    Ends (.updBegin o hdr ec pq) s fun t => Answered t o 0x0E01 0x0E01 true ∧ t.upd = s.upd ∧ Frame bothMbx s t) ∧
  (∀ (s : State) (o : Org) (x : Half) (role : Nat) (hdr : List Nat) (ec pq : Bool), RunsAt s o 0x0E01 x role → role ∈ updRoles → hdrOk hdr = true → numAt hdr 132 4 = 0 → numAt hdr 128 1 ≠ 3 ∨ ec = false ∨ pq = false ∨ s.keyUsable 0x4002 = false ∨ s.keyUsable 0x4003 = false →
    Ends (.updBegin o hdr ec pq) s fun t => Answered t o 0x0E01 0x0E02 true ∧ t.upd = s.upd ∧ Frame bothMbx s t) ∧
  (∀ (s : State) (o : Org) (x : Half) (role : Nat) (hdr : List Nat) (ec pq : Bool), RunsAt s o 0x0E01 x role → role ∈ updRoles → hdrOk hdr = true → numAt hdr 132 4 ≠ 0 → ec = false ∨ numAt hdr 132 4 ≠ (s.rg .upd x 4).toNat ∨ (numAt hdr 6 1 ≠ 0x10 ∧ numAt hdr 6 1 ≠ 0x11) →
    Ends (.updBegin o hdr ec pq) s fun t => Answered t o 0x0E01 0x0E02 true ∧ t.upd = s.upd ∧ Frame bothMbx s t) ∧
  (∀ (s : State) (o : Org) (x : Half) (role : Nat) (hdr : List Nat) (ec pq : Bool), RunsAt s o 0x0E01 x role → role ∈ updRoles → hdrOk hdr = true → s.sigGood hdr ec pq = true → (4 ≤ numAt hdr 6 1 ∧ numAt hdr 6 1 ≠ 0x10 ∧ numAt hdr 6 1 ≠ 0x11) ∨ numAt hdr 8 1 ≠ 3 →
    Ends (.updBegin o hdr ec pq) s fun t => Answered t o 0x0E01 0x0E03 true ∧ t.upd = s.upd ∧ Frame bothMbx s t) ∧
  (∀ (s : State) (o : Org) (x : Half) (role : Nat) (hdr : List Nat) (ec pq : Bool), RunsAt s o 0x0E01 x role → role ∈ updRoles → hdrOk hdr = true → s.sigGood hdr ec pq = true → numAt hdr 6 1 < 4 → numAt hdr 8 1 = 3 → numAt hdr 16 4 < s.svnFloor (numAt hdr 6 1) →
    Ends (.updBegin o hdr ec pq) s fun t => Answered t o 0x0E01 0x0E04 true ∧ t.upd = s.upd ∧ Frame bothMbx s t) ∧
  (∀ (s : State) (o : Org) (x : Half) (role : Nat) (hdr : List Nat) (ec pq : Bool), RunsAt s o 0x0E01 x role → role ∈ updRoles → hdrOk hdr = true → s.sigGood hdr ec pq = true → numAt hdr 6 1 < 4 → numAt hdr 8 1 = 3 → s.svnFloor (numAt hdr 6 1) ≤ numAt hdr 16 4 →
    ((numAt hdr 7 1).testBit 0 = true ↔ numAt hdr 6 1 ≠ 3) → Ends (.updBegin o hdr ec pq) s fun t => Answered t o 0x0E01 0x0E01 true ∧ t.upd = s.upd ∧ Frame bothMbx s t) ∧
  (∀ (s : State) (o : Org) (x : Half) (role : Nat) (hdr : List Nat) (ec pq : Bool), RunsAt s o 0x0E01 x role → role ∈ updRoles → s.checkImage x role hdr ec pq = 0 → numAt hdr 6 1 < 2 → s.twinUp x = false → Ends (.updBegin o hdr ec pq) s fun t => Answered t o 0x0E01 0x0E08 true ∧ t.upd = s.upd ∧ Frame bothMbx s t) ∧
  (∀ (s : State) (o : Org) (x : Half) (role : Nat) (hdr : List Nat) (ec pq : Bool), RunsAt s o 0x0E01 x role → role ∈ updRoles → s.checkImage x role hdr ec pq = 0 → 2 ≤ numAt hdr 6 1 ∨ s.twinUp x = true →
    Ends (.updBegin o hdr ec pq) s fun t => Answered t o 0x0E01 stOk true ∧ t.upd.stg = some { img := hdrInfo hdr, hdr := hdr.take 3712 } ∧
        (∀ k ∈ targetRecs (numAt hdr 6 1), ∀ i, (s.brec k).target = some i → ((t.brec k).bank i).st = 0 ∧ (t.brec k).bank (1 - i) = (s.brec k).bank (1 - i)) ∧
        (∀ k, k ∉ targetRecs (numAt hdr 6 1) → t.brec k = s.brec k) ∧ t.upd.act = s.upd.act ∧ t.upd.store = s.upd.store ∧ Frame (.upd :: bothMbx) s t) ∧
  (∀ (s : State) (o : Org) (x : Half) (role : Nat) (off : Nat) (d : List Nat), RunsAt s o 0x0E02 x role → role ∈ updRoles → s.upd.stg = none → Ends (.updData o off d) s fun t => Answered t o 0x0E02 0x0E09 true ∧ t.upd = s.upd ∧ Frame bothMbx s t) ∧
  (∀ (s : State) (o : Org) (x : Half) (role : Nat) (off : Nat) (d : List Nat) (g : Staging), RunsAt s o 0x0E02 x role → role ∈ updRoles → s.upd.stg = some g → ¬(role = 4 ↔ g.img.target = 3) → Ends (.updData o off d) s fun t => Answered t o 0x0E02 stRole true ∧ t.upd = s.upd ∧ Frame bothMbx s t) ∧
  (∀ (s : State) (o : Org) (x : Half) (role : Nat) (off : Nat) (d : List Nat) (g : Staging), RunsAt s o 0x0E02 x role → role ∈ updRoles → s.upd.stg = some g → (role = 4 ↔ g.img.target = 3) → 2 ≤ g.img.target ∨ s.twinUp x = true → off ≠ 3712 + g.data.length ∨ g.img.len < g.data.length + d.length → Ends (.updData o off d) s fun t => Answered t o 0x0E02 stRange true ∧ t.upd = s.upd ∧ Frame bothMbx s t) ∧
  (∀ (s : State) (o : Org) (x : Half) (role : Nat) (off : Nat) (d : List Nat) (g : Staging), RunsAt s o 0x0E02 x role → role ∈ updRoles → s.upd.stg = some g → (role = 4 ↔ g.img.target = 3) → 2 ≤ g.img.target ∨ s.twinUp x = true → off = 3712 + g.data.length → g.data.length + d.length ≤ g.img.len → (s.hf x).thm.flashHold = true → g.img.target ≠ 2 → g.img.target ≠ 3 →
    Ends (.updData o off d) s fun t => Answered t o 0x0E02 stTempWriteHeld true ∧ t.upd = s.upd ∧ Frame bothMbx s t) ∧
  (∀ (s : State) (o : Org) (x : Half) (role : Nat) (off : Nat) (d : List Nat) (g : Staging), RunsAt s o 0x0E02 x role → role ∈ updRoles → s.upd.stg = some g → (role = 4 ↔ g.img.target = 3) → 2 ≤ g.img.target ∨ s.twinUp x = true → off = 3712 + g.data.length → g.data.length + d.length ≤ g.img.len → (s.hf x).thm.flashHold = false ∨ g.img.target = 2 ∨ g.img.target = 3 →
    Ends (.updData o off d) s fun t => Answered t o 0x0E02 stOk true ∧ t.upd = { s.upd with stg := some { g with data := g.data ++ d } } ∧ Frame (.upd :: bothMbx) s t) ∧
  (∀ (s : State) (o : Org) (x : Half) (role : Nat) (off : Nat) (d : List Nat) (g : Staging), RunsAt s o 0x0E02 x role → role ∈ updRoles → s.upd.stg = some g → (role = 4 ↔ g.img.target = 3) → g.img.target < 2 → s.twinUp x = false → Ends (.updData o off d) s fun t => Answered t o 0x0E02 0x0E08 true ∧ t.upd = s.upd ∧ Frame bothMbx s t) ∧
  (∀ (s : State) (o : Org) (x : Half) (role : Nat) (m f : Nat), RunsAt s o 0x0E03 x role → role ∈ updRoles → s.upd.stg = none → Ends (.updEnd o m f) s fun t => Answered t o 0x0E03 0x0E09 true ∧ t.upd = s.upd ∧ Frame bothMbx s t) ∧
  (∀ (s : State) (o : Org) (x : Half) (role : Nat) (m f : Nat) (g : Staging), RunsAt s o 0x0E03 x role → role ∈ updRoles → s.upd.stg = some g → (role = 4 ↔ g.img.target = 3) → 64 ≤ m → Ends (.updEnd o m f) s fun t => Answered t o 0x0E03 stRange true ∧ t.upd = s.upd ∧ Frame bothMbx s t) ∧
  (∀ (s : State) (o : Org) (x : Half) (role : Nat) (m f : Nat) (g : Staging), RunsAt s o 0x0E03 x role → role ∈ updRoles → s.upd.stg = some g → (role = 4 ↔ g.img.target = 3) → m < 64 → g.img.target < 2 → s.twinUp x = false → Ends (.updEnd o m f) s fun t => Answered t o 0x0E03 0x0E08 true ∧ t.upd = s.upd ∧ Frame bothMbx s t) ∧
  (∀ (s : State) (o : Org) (x : Half) (role : Nat) (m f : Nat) (g : Staging), RunsAt s o 0x0E03 x role → role ∈ updRoles → s.upd.stg = some g → (role = 4 ↔ g.img.target = 3) → m < 64 → 2 ≤ g.img.target ∨ s.twinUp x = true → payloadOk g.hdr g.data = false →
    Ends (.updEnd o m f) s fun t => Answered t o 0x0E03 stPending false ∧ Answered t o 0x0E03 0x0E06 true ∧ t.upd = { s.upd with stg := none } ∧ Frame (.upd :: bothMbx) s t) ∧
  (∀ (s : State) (o : Org) (x : Half) (role : Nat) (m f : Nat) (g : Staging), RunsAt s o 0x0E03 x role → role ∈ updRoles → s.upd.stg = some g → (role = 4 ↔ g.img.target = 3) → m < 64 → 2 ≤ g.img.target ∨ s.twinUp x = true → payloadOk g.hdr g.data = true → g.img.target < 4 → receiverHeld s g.img.target m x = false →
    Ends (.updEnd o m f) s fun t => Answered t o 0x0E03 stPending false ∧ Answered t o 0x0E03 (if f = 0 then stOk else f) true ∧ t.upd.stg = none ∧ t.upd.store = s.upd.store ∧
        (∀ k ∈ stageRecs g.img.target m x, ∀ i, (s.brec k).target = some i → (t.brec k).bank i = { st := 1, img := { g.img with digest := sha384 (g.hdr ++ g.data) } } ∧ (t.brec k).bank (1 - i) = (s.brec k).bank (1 - i)) ∧
        (∀ k, k ∉ stageRecs g.img.target m x → t.brec k = s.brec k) ∧ Frame (.upd :: bothMbx) s t) ∧
  (∀ (s : State) (o : Org) (x : Half) (role : Nat) (m f : Nat) (g : Staging), RunsAt s o 0x0E03 x role → role ∈ updRoles → s.upd.stg = some g → (role = 4 ↔ g.img.target = 3) → m < 64 → s.twinUp x = true → payloadOk g.hdr g.data = true → g.img.target < 2 → m.testBit 0 = true → (s.hf (other x)).thm.flashHold = true →
    Ends (.updEnd o m f) s fun t => Answered t o 0x0E03 stPending false ∧ Answered t o 0x0E03 stTempWriteHeld true ∧ t.upd.stg = none ∧
        (∀ k, k ∉ stageRecs g.img.target (m / 2 * 2) x → t.brec k = s.brec k) ∧ Frame (.upd :: bothMbx) s t) ∧
  (∀ (s : State) (o : Org) (x : Half) (role : Nat) (m f : Nat) (g : Staging), RunsAt s o 0x0E03 x role → role ∈ updRoles → s.upd.stg = some g → (role = 4 ↔ g.img.target = 3) → m < 64 → payloadOk g.hdr g.data = true → g.img.target = 0x10 ∨ g.img.target = 0x11 →
    Ends (.updEnd o m f) s fun t => Answered t o 0x0E03 stPending false ∧ Answered t o 0x0E03 (if f = 0 then stOk else f) true ∧ t.upd.stg = none ∧ t.upd.recs = s.upd.recs ∧
        t.upd.store = s.upd.store.filter (fun r => !(r.img.target == g.img.target && r.img.signer == g.img.signer)) ++ [{ img := { g.img with digest := sha384 (g.hdr ++ g.data) }, bytes := g.hdr ++ g.data }] ∧ Frame (.upd :: bothMbx) s t) ∧
  (∀ (s : State) (o : Org) (x : Half) (role : Nat) (g m a : Nat), RunsAt s o 0x0E06 x role → role ∈ [rInstaller, rVendor] → (g ≠ 0x10 ∧ g ≠ 0x11) ∨ 2 ^ 80 ≤ m ∨ m = 0 ∨ (a ≠ 0 ∧ a < s.tick x) → Ends (.updRemote o g m a) s fun t => Answered t o 0x0E06 stRange true ∧ t.upd = s.upd ∧ Frame bothMbx s t) ∧
  (∀ (s : State) (o : Org) (x : Half) (role : Nat) (g m a : Nat), RunsAt s o 0x0E06 x role → role ∈ [rInstaller, rVendor] → g = 0x10 ∨ g = 0x11 → m < 2 ^ 80 → m ≠ 0 → a = 0 ∨ s.tick x ≤ a → (∀ r ∈ s.upd.store, r.img.target ≠ g) → Ends (.updRemote o g m a) s fun t => Answered t o 0x0E06 0x0E09 true ∧ t.upd = s.upd ∧ Frame bothMbx s t) ∧
  (∀ (s : State) (o : Org) (x : Half) (role : Nat) (g m a : Nat) (r : RemImg), RunsAt s o 0x0E06 x role → role ∈ [rInstaller, rVendor] → g = 0x10 ∨ g = 0x11 → m < 2 ^ 80 → m ≠ 0 → a = 0 ∨ s.tick x ≤ a → r ∈ s.upd.store → r.img.target = g → (∀ q ∈ s.upd.store, q.img.target = g → q = r) → (∀ p < 80, m.testBit p = true → (s.port x p).pstate = 4) →
    Ends (.updRemote o g m a) s fun t => Answered t o 0x0E06 stPending false ∧ (∀ p < 80, m.testBit p = true → look none t.upd.tx p = some { imgid := r.img.imgid, target := g, by_ := x, at_ := a, org := some o }) ∧
        (∀ p, m.testBit p = false → look none t.upd.tx p = look none s.upd.tx p ∧ t.port x p = s.port x p) ∧ t.upd.store = s.upd.store ∧
        Frame (.ports x :: .upd :: bothMbx) s t) ∧
  (∀ (s : State) (o : Org) (x : Half) (role : Nat) (g m a p : Nat), RunsAt s o 0x0E06 x role → role ∈ [rInstaller, rVendor] → g = 0x10 ∨ g = 0x11 → m < 2 ^ 80 → a = 0 ∨ s.tick x ≤ a → (∃ r ∈ s.upd.store, r.img.target = g) → p < 80 → m.testBit p = true → (s.port x p).pstate ≠ 4 → (∀ q < p, m.testBit q = true → (s.port x q).pstate = 4) →
    Ends (.updRemote o g m a) s fun t => Answered t o 0x0E06 (if (s.port x p).pstate = 5 then 0x0402 else 0x0401) true ∧ t.upd = s.upd ∧ Frame bothMbx s t) ∧
  (∀ (s s' : State) (x : Half) (p : Nat) (m : List Nat) (u : RemTx), s.charge = some x → s.takeMsg x p 0x43 (fun m => m.headD 0 == 7) = some (m, s') → look none s.upd.tx p = some u → numAt m 4 4 = u.imgid →
    Ends (.updstat p) s fun t => (∃ v, look none t.upd.tx p = some v ∧ v.st = numAt m 1 1 ∧ v.next = numAt m 8 4 ∧ v.by_ = x ∧ v.imgid = u.imgid ∧ v.at_ = u.at_ ∧
        (v.told = true ↔ u.told = true ∨ (numAt m 1 1 = 2 ∧ u.at_ ≠ 0))) ∧ (u.by_ = x → numAt m 1 1 ≠ 2 → (t.hf x).ports = (s'.hf x).ports) ∧ Frame (.ports x :: .upd :: bothMbx) s t) ∧
  (∀ (s s' : State) (x : Half) (p : Nat) (m : List Nat) (u : RemTx) (o : Org), s.charge = some x → s.takeMsg x p 0x43 (fun m => m.headD 0 == 7) = some (m, s') → look none s.upd.tx p = some u → numAt m 4 4 = u.imgid → numAt m 1 1 = 3 → u.org = some o →
    Running s o → Ends (.updstat p) s fun t => Answered t o 0x0E06 (numAt m 12 2) true) ∧
  (∀ (s s' : State) (x : Half) (p : Nat) (m : List Nat) (u : RemTx) (o : Org), s.charge = some x → s.takeMsg x p 0x43 (fun m => m.headD 0 == 7) = some (m, s') → look none s.upd.tx p = some u → numAt m 4 4 = u.imgid → numAt m 1 1 = 4 → u.org = some o → rising s.upd.tx = true →
    Running s o → (∀ q ∈ s.txOf o, q.1 ≠ p → q.2.st = 4) → Ends (.updstat p) s fun t => Answered t o 0x0E06 stOk true) ∧
  (∀ (s : State) (p : Nat), s.charge = none ∨ (∃ x, s.charge = some x ∧ s.takeMsg x p 0x43 (fun m => m.headD 0 == 7) = none) → exec (.updstat p) s = .next s) ∧
  (∀ (s s' : State) (x : Half) (p : Nat) (m : List Nat), s.charge = some x → s.takeMsg x p 0x43 (fun m => m.headD 0 == 7) = some (m, s') → look none s.upd.tx p = none ∨ (∃ u, look none s.upd.tx p = some u ∧ u.imgid ≠ numAt m 4 4) → exec (.updstat p) s = .next s') ∧
  (∀ (s : State) (p : Nat) (u : RemTx), look none s.upd.tx p = some u → u.told = true → u.at_ ≤ s.now + 20000 →
    Ends (.updactPreloss p) s fun t => (∀ h, p ∈ (t.hf h).cnp.lost ∧ p ∈ (t.hf h).cnp.pre ∧ ∀ q, q ≠ p → (q ∈ (t.hf h).cnp.lost ↔ q ∈ (s.hf h).cnp.lost) ∧ (q ∈ (t.hf h).cnp.pre ↔ q ∈ (s.hf h).cnp.pre)) ∧ Frame [.cnp .A, .cnp .B] s t) ∧
  (∀ (s : State) (p : Nat) (u : RemTx), look none s.upd.tx p = some u → u.told = true → u.at_ ≤ s.now →
    Ends (.updact p) s fun t => t.rems = del s.rems p ∧ t.cabs = del s.cabs p ∧ (∀ h, (t.hf h).cnp = { (s.hf h).cnp with pre := (s.hf h).cnp.pre.filter (· ≠ p) }) ∧ Frame [.rems, .cabs, .cnp .A, .cnp .B] s t) ∧
  (∀ (s : State) (p : Nat), (∀ u, look none s.upd.tx p = some u → u.told = false ∨ s.now + 20000 < u.at_) → exec (.updactPreloss p) s = .next s ∧ exec (.updact p) s = .next s) ∧
  (∀ (s : State) (o : Org) (x : Half) (role : Nat), RunsAt s o 0x0E05 x role → role ∈ rNotPublic → Room s o 96 → Ends (.updStatus o) s fun t => t.upd = s.upd ∧ Frame bothMbx s t ∧
        AnsweredWith t o 0x0E05 stOk true ((List.range 6).flatMap fun k => [(s.brec k).b0.st, (s.brec k).b1.st, (s.brec k).force.line, (s.brec k).force.release] ++ le 4 (s.brec k).force.build ++
            le 4 (s.brec k).floor ++ [(s.brec k).tries, 0, 0, 0]))

/-- Stages and banks boot, parts are activated, committed or reverted, and a half without firmware is recovered. (R455, R607, R608, R616, R617, R618, R619, R620, R621, R622, R623, R625)
Where the spec leaves a point open, the clauses follow the model's choice in log entries 84, 85, 120. -/
def Obligations.BootActivationAndRecovery : Prop :=
  (∀ (s : State) (k i : Nat), k < 6 → (s.brec k).run = none → (∀ h : Half, k % 4 = hbit h → (s.hf h).twn.off = false) → (s.brec k).find 2 = some i → ((s.brec k).bank i).bad = false → (s.brec k).tries < 2 →
    Ends (.bootBankSelect k) s fun t => t.brec k = { s.brec k with tries := (s.brec k).tries + 1, run := some i } ∧ (∀ j, j ≠ k → t.brec j = s.brec j) ∧ Frame [.upd] s t) ∧
  (∀ (s : State) (k i : Nat), k < 6 → (s.brec k).run = none → (∀ h : Half, k % 4 = hbit h → (s.hf h).twn.off = false) → (s.brec k).find 2 = none → (s.brec k).find 3 = some i → ((s.brec k).bank i).bad = false →
    Ends (.bootBankSelect k) s fun t => t.brec k = { s.brec k with tries := 0, run := some i } ∧ (∀ j, j ≠ k → t.brec j = s.brec j) ∧ Frame [.upd] s t) ∧
  (∀ (s : State) (k i j : Nat), k < 6 → (s.brec k).run = none → (∀ h : Half, k % 4 = hbit h → (s.hf h).twn.off = false) → (s.brec k).find 2 = some i → ((s.brec k).bank i).bad = true ∨ 2 ≤ (s.brec k).tries → (s.brec k).find 3 = some j → ((s.brec k).bank j).bad = false →
    Ends (.bootBankSelect k) s fun t => ((t.brec k).bank i).st = 4 ∧ (t.brec k).bank j = (s.brec k).bank j ∧ (t.brec k).run = some j ∧ (t.brec k).tries = 0 ∧ (∀ j, j ≠ k → t.brec j = s.brec j) ∧
        (∀ a, s.upd.act = some a → k ∈ actRecs a.part → t.upd.act = none) ∧ (s.upd.act = none → Frame (.upd :: bothMbx) s t)) ∧
  (∀ (s : State) (k i j : Nat) (a : ActS), k < 6 → (s.brec k).run = none → (∀ h : Half, k % 4 = hbit h → (s.hf h).twn.off = false) → (s.brec k).find 2 = some i → 2 ≤ (s.brec k).tries → (s.brec k).find 3 = some j → ((s.brec k).bank j).bad = false →
    s.upd.act = some a → k ∈ actRecs a.part → ((s.hf a.org.half).mbx.started.any fun c => sameCmd c.org a.org) = true →
    Ends (.bootBankSelect k) s fun t => t.upd.act = none ∧ Answered t a.org 0x0E04 0x0E0B true ∧ (a.part ≠ 3 → t.met = s.met)) ∧
  (∀ (s : State) (h : Half) (k : Nat), k = hbit h ∨ k = 4 + hbit h → (s.brec k).run = none → (s.hf h).twn.off = false → (s.brec k).find 2 = none →
    (∀ i, (s.brec k).find 3 = some i → ((s.brec k).bank i).bad = true) →
    Ends (.bootBankSelect k) s fun t => (t.hf h).twn.recov = true ∧ (t.hf h).twn.service = false ∧ t.ref.token ≠ some h ∧ t.recov h = {} ∧ (t.hf h).ports = []) ∧
  (∀ (s : State) (k : Nat), 6 ≤ k ∨ (s.brec k).run.isSome = true ∨ (∃ h : Half, k % 4 = hbit h ∧ (s.hf h).twn.off = true) → exec (.bootBankSelect k) s = .next s) ∧
  (∀ (s : State) (h : Half) (p st k i : Nat) (d : List Nat), p = hbit h → (s.hf h).twn.off = false → (s.hf h).twn.recov = false → st = look 0 s.upd.stage p + 1 → st = 1 ∨ st = 2 →
    k = (if st = 1 then 4 + p else p) → (s.brec k).run = some i →
    Ends (.bootStage p st true d) s fun t => look 0 t.upd.stage p = st ∧ look [] t.upd.meas (4 * p + st) = measRec p st ((s.brec k).bank i).img (if ((s.brec k).bank i).img.digest.isEmpty then d else ((s.brec k).bank i).img.digest) ∧ t.upd.recs = s.upd.recs ∧
        (t.hf h).twn = { (s.hf h).twn with booted := (s.hf h).twn.booted || decide (st = 2) } ∧ Frame [.upd, .twn h] s t) ∧
  (∀ (s : State) (h : Half) (p : Nat) (d : List Nat), p = hbit h → (s.hf h).twn.off = false → (s.hf h).twn.recov = false → look 0 s.upd.stage p = 2 →
    Ends (.bootStage p 3 true d) s fun t => look 0 t.upd.stage p = 3 ∧ look [] t.upd.meas (4 * p + 3) = measRec p 3 {} d ∧ Frame [.upd] s t) ∧
  (∀ (s : State) (p k i : Nat) (d : List Nat), p = 2 ∨ p = 3 → k = p → (s.brec k).run = some i →
    Ends (.bootStage p 2 true d) s fun t => look 0 t.upd.stage p = 2 ∧ look [] t.upd.meas (4 * p + 2) = measRec p 2 ((s.brec k).bank i).img (if ((s.brec k).bank i).img.digest.isEmpty then d else ((s.brec k).bank i).img.digest) ∧ t.upd.recs = s.upd.recs ∧ Frame [.upd] s t) ∧
  (∀ (s : State) (p st k i : Nat) (d : List Nat), (st = 2 ∧ k = p ∧ (p = 2 ∨ p = 3)) ∨ (∃ h : Half, p = hbit h ∧ (s.hf h).twn.off = false ∧ (s.hf h).twn.recov = false ∧
        st = look 0 s.upd.stage p + 1 ∧ ((st = 1 ∧ k = 4 + p) ∨ (st = 2 ∧ k = p))) → (s.brec k).run = some i →
    Ends (.bootStage p st false d) s fun t => ((t.brec k).bank i).bad = true ∧ (t.brec k).run = none ∧ (∀ j, j ≠ k → t.brec j = s.brec j) ∧ t.upd.stage = s.upd.stage ∧ t.upd.meas = s.upd.meas ∧ Frame [.upd] s t) ∧
  (∀ (s : State) (p st : Nat) (b : Bool) (d : List Nat), 4 ≤ p ∨ st = 0 ∨ 3 < st ∨ (p < 2 ∧ st ≠ look 0 s.upd.stage p + 1) ∨ (2 ≤ p ∧ st ≠ 2) → exec (.bootStage p st b d) s = .next s) ∧
  (∀ (s : State) (o : Org) (x : Half) (role : Nat) (p f a : Nat), RunsAt s o 0x0E04 x role → role ∈ updRoles → 3 < p → Ends (.updActivate o p f a) s fun t => Answered t o 0x0E04 stRange true ∧ t.upd = s.upd ∧ Frame bothMbx s t) ∧
  (∀ (s : State) (o : Org) (x : Half) (role : Nat) (p f a : Nat), RunsAt s o 0x0E04 x role → role ∈ updRoles → p ≤ 3 → ¬(role = 4 ↔ p = 3) → Ends (.updActivate o p f a) s fun t => Answered t o 0x0E04 stRole true ∧ t.upd = s.upd ∧ Frame bothMbx s t) ∧
  (∀ (s : State) (o : Org) (x : Half) (role : Nat) (p f a : Nat), RunsAt s o 0x0E04 x role → role ∈ updRoles → p ≤ 3 → (role = 4 ↔ p = 3) → s.upd.act.isSome = true ∨ (∃ k < 6, k ∉ actRecs p ∧ ((s.brec k).find 2).isSome = true) → Ends (.updActivate o p f a) s fun t => Answered t o 0x0E04 0x0E08 true ∧ t.upd = s.upd ∧ Frame bothMbx s t) ∧
  (∀ (s : State) (o : Org) (x : Half) (role : Nat) (p f a : Nat), RunsAt s o 0x0E04 x role → role ∈ updRoles → p ≤ 3 → (role = 4 ↔ p = 3) → s.upd.act = none → (∀ k < 6, k ∉ actRecs p → (s.brec k).find 2 = none) → (∀ k ∈ actRecs p, s.stagedImg k = none) → Ends (.updActivate o p f a) s fun t => Answered t o 0x0E04 0x0E09 true ∧ t.upd = s.upd ∧ Frame bothMbx s t) ∧
  (∀ (s : State) (o : Org) (x : Half) (role : Nat) (p f a : Nat) (g : ImgInfo), RunsAt s o 0x0E04 x role → role ∈ updRoles → p ≤ 3 → (role = 4 ↔ p = 3) → s.upd.act = none → (∀ k < 6, k ∉ actRecs p → (s.brec k).find 2 = none) → (∀ k ∈ actRecs p, (s.stagedImg k).isSome = true) → p = 2 ∨ p = 3 → s.stagedImg p = some g → compatible (s.withImage [p] g) = false → Ends (.updActivate o p f a) s fun t => Answered t o 0x0E04 0x0E05 true ∧ t.upd = s.upd ∧ Frame bothMbx s t) ∧
  (∀ (s : State) (o : Org) (x : Half) (role : Nat) (p f a : Nat) (g : ImgInfo), RunsAt s o 0x0E04 x role → role ∈ updRoles → p ≤ 3 → (role = 4 ↔ p = 3) → s.upd.act = none → (∀ k < 6, k ∉ actRecs p → (s.brec k).find 2 = none) → (∀ k ∈ actRecs p, (s.stagedImg k).isSome = true) → p = 2 ∨ p = 3 → s.stagedImg p = some g → compatible (s.withImage [p] g) = true → (s.hf x).cnp.chgs ≠ [] → Ends (.updActivate o p f a) s fun t => Answered t o 0x0E04 0x0E08 true ∧ t.upd = s.upd ∧ Frame bothMbx s t) ∧
  (∀ (s : State) (o : Org) (x : Half) (role : Nat) (p f a : Nat) (g : ImgInfo) (z : Nat), RunsAt s o 0x0E04 x role → role ∈ updRoles → p ≤ 3 → (role = 4 ↔ p = 3) → s.upd.act = none → (∀ k < 6, k ∉ actRecs p → (s.brec k).find 2 = none) → p = 2 → s.stagedImg p = some g → compatible (s.withImage [p] g) = true → (s.hf x).cnp.chgs = [] → z < 8 → (s.zone z).st ≠ 0 → (s.zone z).st ≠ 3 → Ends (.updActivate o p f a) s fun t => Answered t o 0x0E04 stSafetyInhibit true ∧ t.upd = s.upd ∧ Frame bothMbx s t) ∧
  (∀ (s : State) (o : Org) (x : Half) (role : Nat) (p f a : Nat) (g : ImgInfo) (i : Nat), RunsAt s o 0x0E04 x role → role ∈ updRoles → p ≤ 3 → (role = 4 ↔ p = 3) → s.upd.act = none → (∀ k < 6, k ∉ actRecs p → (s.brec k).find 2 = none) → p = 2 → s.stagedImg p = some g → compatible (s.withImage [p] g) = true → (s.hf x).cnp.chgs = [] → (∀ z < 8, (s.zone z).st = 0 ∨ (s.zone z).st = 3) → (s.brec 2).find 1 = some i →
    Ends (.updActivate o p f a) s fun t => Answered t o 0x0E04 stPending false ∧ (∃ a, t.upd.act = some a ∧ a.org = o ∧ a.part = p ∧ a.st = 4) ∧ ((t.brec 2).bank i).st = 2 ∧ (t.brec 2).run = none ∧ (t.brec 2).tries = 0 ∧ (∀ z < 8, t.zone z = { since := (t.zone z).since }) ∧ t.saf.conns = [] ∧
        Frame (.regs .saf :: .saf :: .upd :: bothMbx) s t) ∧
  (∀ (s : State) (o : Org) (x : Half) (role : Nat) (p f a : Nat) (g : ImgInfo), RunsAt s o 0x0E04 x role → role ∈ updRoles → p ≤ 3 → (role = 4 ↔ p = 3) → s.upd.act = none → (∀ k < 6, k ∉ actRecs p → (s.brec k).find 2 = none) → p = 3 → s.stagedImg p = some g → compatible (s.withImage [p] g) = true → (s.hf x).cnp.chgs = [] → 1024 ≤ s.met.mlog.recs.length → Ends (.updActivate o p f a) s fun t => Answered t o 0x0E04 0x0A01 true ∧ t.upd = s.upd ∧ Frame bothMbx s t) ∧
  (∀ (s : State) (o : Org) (x : Half) (role : Nat) (p f a : Nat) (g : ImgInfo) (i : Nat), RunsAt s o 0x0E04 x role → role ∈ updRoles → p ≤ 3 → (role = 4 ↔ p = 3) → s.upd.act = none → (∀ k < 6, k ∉ actRecs p → (s.brec k).find 2 = none) → p = 3 → s.stagedImg p = some g → compatible (s.withImage [p] g) = true → (s.hf x).cnp.chgs = [] → s.met.mlog.recs.length < 1024 → (s.brec 3).find 1 = some i →
    Ends (.updActivate o p f a) s fun t => Answered t o 0x0E04 stPending false ∧ (∃ a, t.upd.act = some a ∧ a.org = o ∧ a.part = p ∧ a.st = 4) ∧ ((t.brec 3).bank i).st = 2 ∧ (t.brec 3).run = none ∧ (t.brec 3).tries = 0 ∧
        (∃ r ∈ t.met.mlog.recs, r.typ = 0x11 ∧ r.a = (s.brec 3).force.check % 2 ^ 32 ∧ r.b = g.check % 2 ^ 32) ∧ t.bil.ldsp.chk = s.now + 200000 ∧ t.bil.core = s.bil.core ∧
        Frame ([.free, .met, .bil, .lkt, .upd] ++ bothMbx) s t) ∧
  (∀ (s : State) (o : Org) (x : Half) (role : Nat) (p f a : Nat), RunsAt s o 0x0E04 x role → role ∈ updRoles → p ≤ 3 → (role = 4 ↔ p = 3) → s.upd.act = none → (∀ k < 6, k ∉ actRecs p → (s.brec k).find 2 = none) → p < 2 → s.twinUp x = true → (s.hf (other x)).twn.service = true → (s.hf x).cnp.chgs = [] → (∃ g, s.stagedImg (4 * p) = some g ∧ (p = 0 → s.compatWith 1 g = true)) → (s.stagedImg (4 * p + 1)).isSome = true → a ≠ 0 →
    Ends (.updActivate o p f a) s fun t => Answered t o 0x0E04 stRange true ∧ t.upd = s.upd ∧ Frame bothMbx s t) ∧
  (∀ (s : State) (o : Org) (x : Half) (role : Nat) (p f a : Nat) (k i : Nat) (g : ImgInfo), RunsAt s o 0x0E04 x role → role ∈ updRoles → p ≤ 3 → (role = 4 ↔ p = 3) → s.upd.act = none → (∀ k < 6, k ∉ actRecs p → (s.brec k).find 2 = none) → p = 0 → s.twinUp x = true → (s.hf (other x)).twn.service = true → s.compatWith 1 g = true → (s.hf x).cnp.chgs = [] → s.stagedImg 0 = some g → (s.stagedImg 1).isSome = true → a = 0 → o.half = x → k = hbit (other x) → (s.brec k).find 1 = some i →
    Ends (.updActivate o p f a) s fun t => Answered t o 0x0E04 stPending false ∧ (∃ a, t.upd.act = some a ∧ a.org = o ∧ a.part = 0 ∧ a.st = 1 ∧ a.first = other x) ∧ ((t.brec k).bank i).st = 2 ∧ (t.brec k).run = none ∧
        (t.brec k).tries = 0 ∧ t.brec (hbit x) = s.brec (hbit x) ∧ t.ref.token = s.ref.token ∧ (t.hf (other x)).twn.service = false ∧ (t.hf (other x)).twn.unhealthy = true ∧ t.met = s.met) ∧
  (∀ (s : State) (o : Org) (x : Half) (role : Nat) (p f a : Nat) (g : ImgInfo), RunsAt s o 0x0E04 x role → role ∈ updRoles → p ≤ 3 → (role = 4 ↔ p = 3) → s.upd.act = none → (∀ k < 6, k ∉ actRecs p → (s.brec k).find 2 = none) → p = 0 → (s.twinUp x = false ∨ (s.hf (other x)).twn.service = false) → s.compatWith 1 g = true → (s.hf x).cnp.chgs = [] → s.stagedImg (hbit x) = some g → a < s.tick x + 40000 → Ends (.updActivate o p f a) s fun t => Answered t o 0x0E04 stRange true ∧ t.upd = s.upd ∧ Frame bothMbx s t) ∧
  (∀ (s : State) (o : Org) (x : Half) (role : Nat) (p f a : Nat) (g : ImgInfo) (k : Nat), RunsAt s o 0x0E04 x role → role ∈ updRoles → p ≤ 3 → (role = 4 ↔ p = 3) → s.upd.act = none → (∀ k < 6, k ∉ actRecs p → (s.brec k).find 2 = none) → p = 0 → (s.twinUp x = false ∨ (s.hf (other x)).twn.service = false) → s.compatWith 1 g = true → (s.hf x).cnp.chgs = [] → s.stagedImg (hbit x) = some g → s.tick x + 40000 ≤ a → f.testBit 0 = false → k < 48 → 1 ≤ (s.veh1 k).c.st → (s.veh1 k).c.st ≤ 9 →
    Ends (.updActivate o p f a) s fun t => Answered t o 0x0E04 0x0E0A true ∧ t.upd = s.upd ∧ Frame bothMbx s t) ∧
  (∀ (s : State) (o : Org) (x : Half) (role : Nat) (p f a : Nat) (g : ImgInfo), RunsAt s o 0x0E04 x role → role ∈ updRoles → p ≤ 3 → (role = 4 ↔ p = 3) → s.upd.act = none → (∀ k < 6, k ∉ actRecs p → (s.brec k).find 2 = none) → p = 0 → (s.twinUp x = false ∨ (s.hf (other x)).twn.service = false) → s.compatWith 1 g = true → (s.hf x).cnp.chgs = [] → s.stagedImg (hbit x) = some g → s.tick x + 40000 ≤ a → f.testBit 0 = true ∨ (∀ k < 48, (s.veh1 k).c.st = 0 ∨ 10 ≤ (s.veh1 k).c.st) →
    Ends (.updActivate o p f a) s fun t => Answered t o 0x0E04 stPending false ∧ (∃ b, t.upd.act = some b ∧ b.org = o ∧ b.part = 0 ∧ b.st = 5 ∧ b.at_ = a) ∧ t.upd.recs = s.upd.recs ∧ Frame (.upd :: bothMbx) s t) ∧
  (∀ (s : State) (h : Half) (a : ActS), s.upd.act = some a → s.charge = some h → a.st = 4 → a.clean + 20000 * s.rf .upd h 0 16 0 ≤ s.now → ((s.hf a.org.half).mbx.started.any fun c => sameCmd c.org a.org) = true →
    Ends .trialCommit s fun t => t.upd.act = none ∧ Answered t a.org 0x0E04 stOk true ∧ (∀ k, k ∉ actRecs a.part → t.brec k = s.brec k) ∧
        (∀ k ∈ actRecs a.part, ∀ i, (s.brec k).find 2 = some i → ((t.brec k).bank i).st = 3 ∧ (t.brec k).tries = 0 ∧ (t.brec k).floor = max (s.brec k).floor ((s.brec k).bank i).img.svn ∧
          ((t.brec k).bank (1 - i)).st = (if ((s.brec k).bank (1 - i)).st = 3 then 1 else ((s.brec k).bank (1 - i)).st)) ∧ Frame (.upd :: bothMbx) s t) ∧
  (∀ (s : State), s.upd.act = none → exec .trialCommit s = .next s ∧ exec .activationRejoinTimeout s = .next s ∧ exec .singleHalfActivationDrain s = .next s ∧
    exec .singleHalfActivationReset s = .next s) ∧
  (∀ (s : State) (h : Half) (a : ActS), s.upd.act = some a → s.charge = some h → a.st ≠ 4 ∨ s.now < a.clean + 20000 * s.rf .upd h 0 16 0 → exec .trialCommit s = .next s) ∧
  (∀ (s : State) (a : ActS) (k i : Nat), s.upd.act = some a → a.st = 1 → a.start + 1200000 ≤ s.now → a.part = 0 → a.org.half ≠ a.first → k = hbit a.first → (s.brec k).find 2 = some i →
    ((s.hf a.org.half).mbx.started.any fun c => sameCmd c.org a.org) = true →
    Ends .activationRejoinTimeout s fun t => t.upd.act = none ∧ Answered t a.org 0x0E04 0x0E0B true ∧ ((t.brec k).bank i).st = 4 ∧ (t.brec k).run = none ∧ (t.hf a.first).twn.booted = false) ∧
  (∀ (s : State) (h : Half) (a : ActS), s.upd.act = some a → s.charge = some h → a.st ≠ 1 ∨ s.now < a.start + 1200000 → exec .activationRejoinTimeout s = .next s) ∧
  (∀ (s : State) (h : Half) (a : ActS), s.upd.act = some a → s.charge = some h → a.st = 5 → a.at_ ≤ s.now + 20000 →
    Ends .singleHalfActivationDrain s fun t => (t.hf h).cnp = { (s.hf h).cnp with stopAll := true, stopLow := 0 } ∧ (∀ k < 48, ((s.veh1 k).c.st = 0 ∨ 8 ≤ (s.veh1 k).c.st → (t.veh1 k).c.st = (s.veh1 k).c.st) ∧
        (1 ≤ (s.veh1 k).c.st → (s.veh1 k).c.st < 5 → (t.veh1 k).c.st = 10) ∧ (5 ≤ (s.veh1 k).c.st → (s.veh1 k).c.st < 8 → (t.veh1 k).c.st = 8)) ∧
        t.upd = s.upd ∧ Frame ([.free, .cnp h, .veh, .lkt] ++ bothMbx) s t) ∧
  (∀ (s : State) (h : Half) (a : ActS) (i : Nat), s.upd.act = some a → s.charge = some h → a.st = 5 → a.at_ ≤ s.now → a.part = 0 → (s.brec (hbit h)).find 1 = some i →
    Ends .singleHalfActivationReset s fun t => (∃ b, t.upd.act = some b ∧ b.org = a.org ∧ b.part = 0 ∧ b.st = 4) ∧ ((t.brec (hbit h)).bank i).st = 2 ∧ (t.brec (hbit h)).tries = 0 ∧
        (t.brec (hbit h)).run = none ∧ t.ref.token ≠ some h ∧ (t.hf h).twn.booted = false ∧ (t.hf h).twn.claim = baseClaim h) ∧
  (∀ (s : State) (h : Half) (a : ActS), s.upd.act = some a → s.charge = some h → a.st ≠ 5 ∨ s.now + 20000 < a.at_ → exec .singleHalfActivationDrain s = .next s ∧ exec .singleHalfActivationReset s = .next s) ∧
  (∀ (s : State) (o : Org) (x : Half) (role : Nat) (n : Nat), RunsAt s o 0x0E07 x role → role ∈ [rVendor] → n = 0 ∨ 3 ≤ n → Ends (.updRecover o n) s fun t => Answered t o 0x0E07 stRange true ∧ Frame bothMbx s t) ∧
  (∀ (s : State) (o : Org) (x : Half) (role : Nat) (h : Half), RunsAt s o 0x0E07 x role → role ∈ [rVendor] → o.half ≠ h → Ends (.updRecover o (hbit h + 1)) s fun t => Answered t o 0x0E07 stOk true ∧ (t.hf h).twn.recov = true ∧ (t.hf h).twn.service = false ∧
        t.ref.token ≠ some h ∧ t.recov h = {} ∧ (t.hf h).ports = [] ∧ t.upd.store = s.upd.store) ∧
  (∀ (s : State) (h : Half) (q : Nat), (s.hf h).twn.recov = true → (s.recov h).seq ≠ some q →
    Ends (.recoveryInfo h q) s fun t => ((t.recov h).seq = some q ∧ (t.recov h).resp = recovResp 1 q stOk (padTo 8 s.lkt.module ++ [hbit h] ++
          ([4 + hbit h, hbit h].flatMap fun k => [(s.brec k).b0.st, (s.brec k).b1.st, (s.brec k).force.line, (s.brec k).force.release] ++ le 4 (s.brec k).force.build ++ le 4 (s.brec k).floor))) ∧
        t.upd.recs = s.upd.recs ∧ Frame [.upd] s t) ∧
  (∀ (s : State) (h : Half) (q off : Nat) (d : List Nat) (ec pq : Bool), (s.hf h).twn.recov = true → (s.recov h).seq ≠ some q → (off ≠ 0 ∧ off ≠ 1024 ∧ off ≠ 2048 ∧ off ≠ 3072) ∨ 1024 < d.length →
    Ends (.recoveryHeader h q off d ec pq) s fun t => (t.recov h).seq = some q ∧ (t.recov h).resp = recovResp 2 q stRange [] ∧ (t.recov h).img = (s.recov h).img ∧ t.upd.recs = s.upd.recs ∧ Frame [.upd] s t) ∧
  (∀ (s : State) (h : Half) (q off : Nat) (d : List Nat) (ec pq : Bool), (s.hf h).twn.recov = true → (s.recov h).seq ≠ some q → off = 0 ∨ off = 1024 ∨ off = 2048 → d.length ≤ 1024 →
    Ends (.recoveryHeader h q off d ec pq) s fun t => (t.recov h).seq = some q ∧ (t.recov h).resp = recovResp 2 q stOk [] ∧ look [] (t.recov h).hdr (off / 1024) = d ∧ (t.recov h).img = none ∧ (t.recov h).data = [] ∧ t.upd.recs = s.upd.recs ∧ Frame [.upd] s t) ∧
  (∀ (s : State) (h : Half) (q : Nat) (b d : List Nat) (ec pq : Bool), (s.hf h).twn.recov = true → (s.recov h).seq ≠ some q → b = ((List.range 3).flatMap fun i => look [] (s.recov h).hdr i) ++ d → d.length ≤ 1024 → hdrOk b = true → s.sigGood b ec pq = true → numAt b 6 1 < 2 → numAt b 8 1 = 3 → (s.brec (if numAt b 6 1 = 0 then 4 + hbit h else hbit h)).floor ≤ numAt b 16 4 →
    Ends (.recoveryHeader h q 3072 d ec pq) s fun t => (t.recov h).seq = some q ∧ (t.recov h).resp = recovResp 2 q stOk [] ∧ (t.recov h).img = some (hdrInfo b) ∧ (t.recov h).data = [] ∧ t.upd.recs = s.upd.recs ∧ Frame [.upd] s t) ∧
  (∀ (s : State) (h : Half) (q : Nat) (b d : List Nat) (ec pq : Bool), (s.hf h).twn.recov = true → (s.recov h).seq ≠ some q → b = ((List.range 3).flatMap fun i => look [] (s.recov h).hdr i) ++ d → d.length ≤ 1024 → hdrOk b = false →
    Ends (.recoveryHeader h q 3072 d ec pq) s fun t => (t.recov h).seq = some q ∧ (t.recov h).resp = recovResp 2 q 0x0E01 [] ∧ (t.recov h).img = none ∧ t.upd.recs = s.upd.recs ∧ Frame [.upd] s t) ∧
  (∀ (s : State) (h : Half) (q : Nat) (b d : List Nat) (ec pq : Bool), (s.hf h).twn.recov = true → (s.recov h).seq ≠ some q → b = ((List.range 3).flatMap fun i => look [] (s.recov h).hdr i) ++ d → d.length ≤ 1024 → hdrOk b = true → s.sigGood b ec pq = false →
    Ends (.recoveryHeader h q 3072 d ec pq) s fun t => (t.recov h).seq = some q ∧ (t.recov h).resp = recovResp 2 q 0x0E02 [] ∧ (t.recov h).img = none ∧ t.upd.recs = s.upd.recs ∧ Frame [.upd] s t) ∧
  (∀ (s : State) (h : Half) (q : Nat) (b d : List Nat) (ec pq : Bool), (s.hf h).twn.recov = true → (s.recov h).seq ≠ some q → b = ((List.range 3).flatMap fun i => look [] (s.recov h).hdr i) ++ d → d.length ≤ 1024 → hdrOk b = true → s.sigGood b ec pq = true → 2 ≤ numAt b 6 1 ∨ numAt b 8 1 ≠ 3 →
    Ends (.recoveryHeader h q 3072 d ec pq) s fun t => (t.recov h).seq = some q ∧ (t.recov h).resp = recovResp 2 q 0x0E03 [] ∧ (t.recov h).img = none ∧ t.upd.recs = s.upd.recs ∧ Frame [.upd] s t) ∧
  (∀ (s : State) (h : Half) (q : Nat) (b d : List Nat) (ec pq : Bool), (s.hf h).twn.recov = true → (s.recov h).seq ≠ some q → b = ((List.range 3).flatMap fun i => look [] (s.recov h).hdr i) ++ d → d.length ≤ 1024 → hdrOk b = true → s.sigGood b ec pq = true → numAt b 6 1 < 2 → numAt b 8 1 = 3 → numAt b 16 4 < (s.brec (if numAt b 6 1 = 0 then 4 + hbit h else hbit h)).floor →
    Ends (.recoveryHeader h q 3072 d ec pq) s fun t => (t.recov h).seq = some q ∧ (t.recov h).resp = recovResp 2 q 0x0E04 [] ∧ (t.recov h).img = none ∧ t.upd.recs = s.upd.recs ∧ Frame [.upd] s t) ∧
  (∀ (s : State) (h : Half) (q off : Nat) (d : List Nat), (s.hf h).twn.recov = true → (s.recov h).seq ≠ some q → (s.recov h).img = none → Ends (.recoveryData h q off d) s fun t => (t.recov h).seq = some q ∧ (t.recov h).resp = recovResp 3 q 0x0E01 [] ∧ (t.recov h).data = (s.recov h).data ∧ t.upd.recs = s.upd.recs ∧ Frame [.upd] s t) ∧
  (∀ (s : State) (h : Half) (q off : Nat) (d : List Nat) (g : ImgInfo), (s.hf h).twn.recov = true → (s.recov h).seq ≠ some q → (s.recov h).img = some g → off ≠ 3712 + (s.recov h).data.length ∨ 1024 < d.length ∨ g.len < (s.recov h).data.length + d.length →
    Ends (.recoveryData h q off d) s fun t => (t.recov h).seq = some q ∧ (t.recov h).resp = recovResp 3 q stRange [] ∧ (t.recov h).data = (s.recov h).data ∧ t.upd.recs = s.upd.recs ∧ Frame [.upd] s t) ∧
  (∀ (s : State) (h : Half) (q off : Nat) (d : List Nat) (g : ImgInfo), (s.hf h).twn.recov = true → (s.recov h).seq ≠ some q → (s.recov h).img = some g → off = 3712 + (s.recov h).data.length → d.length ≤ 1024 → (s.recov h).data.length + d.length ≤ g.len →
    Ends (.recoveryData h q off d) s fun t => (t.recov h).seq = some q ∧ (t.recov h).resp = recovResp 3 q stOk [] ∧ (t.recov h).data = (s.recov h).data ++ d ∧ (t.recov h).img = some g ∧ t.upd.recs = s.upd.recs ∧ Frame [.upd] s t) ∧
  (∀ (s : State) (h : Half) (q : Nat), (s.hf h).twn.recov = true → (s.recov h).seq ≠ some q → (s.recov h).img = none → Ends (.recoveryFinish h q) s fun t => (t.recov h).seq = some q ∧ (t.recov h).resp = recovResp 4 q 0x0E01 [] ∧ t.upd.recs = s.upd.recs ∧ Frame [.upd] s t) ∧
  (∀ (s : State) (h : Half) (q : Nat) (g : ImgInfo), (s.hf h).twn.recov = true → (s.recov h).seq ≠ some q → (s.recov h).img = some g → payloadOk ((List.range 4).flatMap fun i => look [] (s.recov h).hdr i) (s.recov h).data = false →
    Ends (.recoveryFinish h q) s fun t => (t.recov h).seq = some q ∧ (t.recov h).resp = recovResp 4 q 0x0E06 [] ∧ (t.recov h).img = none ∧ t.upd.recs = s.upd.recs ∧ Frame [.upd] s t) ∧
  (∀ (s : State) (h : Half) (q k i : Nat) (g : ImgInfo), (s.hf h).twn.recov = true → (s.recov h).seq ≠ some q → (s.recov h).img = some g → payloadOk ((List.range 4).flatMap fun i => look [] (s.recov h).hdr i) (s.recov h).data = true → k = (if g.target = 0 then 4 + hbit h else hbit h) →
    i = (if (s.brec k).b0.st = 3 then 1 else 0) →
    Ends (.recoveryFinish h q) s fun t => (t.recov h).seq = some q ∧ (t.recov h).resp = recovResp 4 q stOk [] ∧ (t.recov h).img = none ∧ (t.brec k).bank i = { st := 1, img := { g with digest := sha384 (((List.range 4).flatMap fun i => look [] (s.recov h).hdr i) ++ (s.recov h).data) } } ∧
        (t.brec k).bank (1 - i) = (s.brec k).bank (1 - i) ∧ Raised t h 0 0x0E01 ([hbit h, i, 1, g.release] ++ le 4 g.build) ∧ (∀ j, j ≠ k → t.brec j = s.brec j) ∧ Frame (.upd :: bothMbx) s t) ∧
  (∀ (s : State) (h : Half) (q : Nat), (s.hf h).twn.recov = true → (s.recov h).seq ≠ some q →
    Ends (.recoveryBoot h q) s fun t => (t.recov h).seq = some q ∧ (t.recov h).resp = recovResp 5 q stOk [] ∧ (t.hf h).twn.recov = false ∧ (t.hf h).twn.booted = false ∧ t.ref.token ≠ some h ∧
        (∀ k ∈ [hbit h, 4 + hbit h], (t.brec k).run = none ∧ ((s.brec k).find 3 = none → ∀ i, (s.brec k).find 1 = some i → ((t.brec k).bank i).st = 2 ∧ (t.brec k).tries = 0) ∧
          ((s.brec k).find 3 ≠ none → (t.brec k).b0.st = (s.brec k).b0.st ∧ (t.brec k).b1.st = (s.brec k).b1.st))) ∧
  (∀ (s : State) (h : Half) (q off : Nat) (d : List Nat) (a b : Bool), (s.hf h).twn.recov = false ∨ (s.recov h).seq = some q →
    exec (.recoveryInfo h q) s = .next s ∧ exec (.recoveryHeader h q off d a b) s = .next s ∧ exec (.recoveryData h q off d) s = .next s ∧ exec (.recoveryFinish h q) s = .next s ∧
    exec (.recoveryBoot h q) s = .next s)

/-- The shared I/O domain discards every write of a half that does not hold the token, and of both halves while the token is free. (R136) -/
def Obligations.SharedDomainWritesNeedTheToken : Prop :=
  (∀ (s : State) (h : Half) , s.ref.token ≠ some h →  Ends (.claimGatedWrite h) s fun t => Frame [.regs .loc] s t) ∧
  (∀ (s : State) (h : Half) (bit off op : Nat), s.ref.token ≠ some h → bit < 32 → off < 0x10000 → off % 4 = 0 → Ends (.aliasWrite h bit off op) s fun t => Frame [.regs .loc] s t) ∧
  (∀ (s : State) (h : Half) (m : Nat), s.ref.token ≠ some h →  Ends (.gpioSet h m) s fun t => Frame [.regs .loc] s t) ∧
  (∀ (s : State) (h : Half) (m : Nat), s.ref.token ≠ some h →  Ends (.gpioClr h m) s fun t => Frame [.regs .loc] s t) ∧
  (∀ (s : State) (h : Half) (b : Blk) (off : Nat) (v : Word), s.ref.token ≠ some h → b = .can ∨ b = .gpio ∨ b = .lsw ∨ b = .rms ∨ b = .pwr → inPartMap b off = true → off % 4 = 0 → Ends (.registerWrite .part b h off v) s fun t => Frame [.regs .loc] s t) ∧
  (∀ (s : State) (h : Half) (c m : Nat), s.ref.token ≠ some h →  Ends (.lswEnable h c m) s fun t => Frame [.regs .loc] s t) ∧
  (∀ (s : State) (h : Half) (c : Nat), s.ref.token ≠ some h →  Ends (.lswDisable h c) s fun t => Frame [.regs .loc] s t) ∧
  (∀ (s : State) (h : Half) (c : Nat), s.ref.token ≠ some h →  Ends (.lswClr h c) s fun t => Frame [.regs .loc] s t) ∧
  (∀ (s : State) (h : Half) (n b : Nat), s.ref.token ≠ some h →  Ends (.canTxRequest h n b) s fun t => Frame [.regs .loc] s t) ∧
  (∀ (s : State) (h : Half) (n b : Nat), s.ref.token ≠ some h →  Ends (.canTxAbort h n b) s fun t => Frame [.regs .loc] s t) ∧
  (∀ (s : State) (h : Half) (n : Nat), s.ref.token ≠ some h →  Ends (.canRxRelease h n) s fun t => Frame [.regs .loc] s t) ∧
  (∀ (s : State) (h : Half) (n : Nat), s.ref.token ≠ some h →  Ends (.canBoffRecovery h n false) s fun t => Frame [.regs .loc] s t) ∧
  (∀ (s : State) (h : Half) (n : Nat), s.ref.token ≠ some h →  Ends (.abrStart h n) s fun t => Frame [.regs .loc] s t) ∧
  (∀ (s : State) (h : Half) (n : Nat), s.ref.token ≠ some h →  Ends (.abrStop h n) s fun t => Frame [.regs .loc] s t) ∧
  (∀ (s : State) (h : Half) , s.ref.token ≠ some h →  Ends (.rmsTxRequest h) s fun t => Frame [.regs .loc] s t) ∧
  (∀ (s : State) (h : Half) , s.ref.token ≠ some h →  Ends (.rmsRxRelease h) s fun t => Frame [.regs .loc] s t) ∧
  (∀ (s : State) (h : Half) (n : Nat), s.ref.token ≠ some h →  Ends (.powerStateRequest h n) s fun t => Frame [.regs .loc] s t)

/-- A write to a shadow field changes the shadow alone: the value in force stays until the commit. (R25) -/
def Obligations.ShadowWritesKeepTheValuesInForce : Prop :=
  (∀ (s : State) (b : Blk) (h : Half) (off i : Nat) (v : Word), (commitOff b).isSome = true → i < 32 → (regInfo b h off).rws.testBit i = true → (regInfo b h off).rw.testBit i = false →
    (regInfo b h off).w1c.testBit i = false → (regInfo b h off).rwl.testBit i = false → Ends (.registerWrite .verb b h off v) s fun t => bitAt (t.rg b h off) i = bitAt (s.rg b h off) i) ∧
  (∀ (s : State) (b : Blk) (h : Half) (off i : Nat) (v : Word), (commitOff b).isSome = true → commitOff b ≠ some off → (regInfo b h off).rw = 0 → (regInfo b h off).w1c = 0 →
    (perHalf b = true → h ∈ s.reach) → i < 32 → (regInfo b h off).rws.testBit i = true → (regInfo b h off).rwl = 0 → (regInfo b h off).rws < 2 ^ 32 →
    s.wordRefusal { half := h, ring := 0, ctag := 0, hb := 0 } b h off v = none → (b = .cln → s.mirrored h off = false) → (b = .iox → s.ref.token = some h) →
    Ends (.registerWrite .verb b h off v) s fun t => bitAt (t.shadowOf b h off) i = bitAt v i ∧ ∀ c k a, t.rg c k a = s.rg c k a) ∧
  (∀ (s : State) (o : Org) (b : Blk) (off : Nat) (ws : List Word) (x : Half) (r : Nat), RunsAt s o (cfgOpc b 0xF2) x r → (commitOff b).isSome = true →
    (∀ a ∈ wordOffs off ws.length, (regInfo b x a).rw = 0 ∧ (regInfo b x a).w1c = 0 ∧ (regInfo b x a).rwl = 0) → Ends (.cfgWrite o b off ws) s fun t => ∀ c k a, t.rg c k a = s.rg c k a)

/-- A safety-island activation is refused unless every zone is REMOVED or FAULT, and restarts the island into its STAGED bank. (R620) -/
def Obligations.SafetyIslandActivation : Prop :=
  (∀ (s : State) (o : Org) (x : Half) (role f a i : Nat) (g : ImgInfo), RunsAt s o 0x0E04 x role → role = rInstaller ∨ role = rVendor → s.upd.act = none →
    (∀ k < 6, k ≠ 2 → (s.brec k).find 2 = none) → (s.brec 2).find 1 = some i → ((s.brec 2).bank i).img = g → compatible (s.withImage [2] g) = true → (s.hf x).cnp.chgs = [] → (∃ z < 8, (s.zone z).st ≠ 0 ∧ (s.zone z).st ≠ 3) →
    Ends (.updActivate o 2 f a) s fun t => Answered t o 0x0E04 stSafetyInhibit true ∧ t.saf = s.saf ∧ t.upd = s.upd ∧ Frame bothMbx s t) ∧
  (∀ (s : State) (o : Org) (x : Half) (role f a i : Nat) (g : ImgInfo), RunsAt s o 0x0E04 x role → role = rInstaller ∨ role = rVendor → s.upd.act = none →
    (∀ k < 6, k ≠ 2 → (s.brec k).find 2 = none) → (s.brec 2).find 1 = some i → ((s.brec 2).bank i).img = g → compatible (s.withImage [2] g) = true → (s.hf x).cnp.chgs = [] → (∀ z < 8, (s.zone z).st = 0 ∨ (s.zone z).st = 3) →
    Ends (.updActivate o 2 f a) s fun t => Answered t o 0x0E04 stPending false ∧ ((t.brec 2).bank i).st = 2 ∧ ((t.brec 2).bank i).img = g ∧ (t.brec 2).run = none ∧
        (∀ k, k ≠ 2 → t.brec k = s.brec k) ∧ (∀ z < 8, t.zone z = { since := (t.zone z).since }) ∧ t.saf.conns = [] ∧ t.saf.spOk = false ∧ t.saf.hwOk = false ∧
        (∀ n < 8, ((look {} t.saf.outs n).fbk = (look {} s.saf.outs n).fbk)) ∧ Frame (.regs .saf :: .saf :: .upd :: bothMbx) s t)

/-- Every command, in every state, changes only the parts of the state that are its own to change. (R11, R12, R15, spec/95_what_each_step_holds.md) -/
def Obligations.EveryCommandKeepsItsFrame : Prop :=
  ∀ (c : Instr) (s t : State), exec c s = .next t → Frame (touches c) s t

/-- No step lets two halves act in charge, or a half act without the token, or the holder of the token have the lower claim. (R129, R130, R133, R138) -/
def Obligations.ChargeStaysInOrder : Prop :=
  (∀ (s t : State), ChargeInOrder s → step s = .next t → ChargeInOrder t) ∧
  (∀ (s : State), ChargeInOrder s → ¬((s.hf .A).twn.acting = true ∧ (s.hf .B).twn.acting = true))

/-- Every step keeps the register file, its shadow and the memories of both customer partitions in their canonical form. (R8, R42, R530, spec/16_registers_can_local_io.md) -/
def Obligations.StoresStayInOrder : Prop :=
  ∀ (s t : State), StoresInOrder s → step s = .next t → StoresInOrder t

/-- Decoding the word of a lane instruction gives that instruction back, and every word that decodes is the word of what it decodes to. (R177, R178, R180, R183) -/
def Obligations.LaneWordRoundTrip : Prop :=
  (∀ (c : Cond) (op : LaneOp), laneWf c op = true → laneEncode c op < 2 ^ 32 ∧ laneDecode (laneEncode c op) = some (c, op)) ∧
  (∀ (w : Nat) (c : Cond) (op : LaneOp), w < 2 ^ 32 → laneDecode w = some (c, op) → laneWf c op = true ∧ laneEncode c op = w)

/-- A word written out from the encoding of each form of lane instruction decodes to the instruction it stands for. (R177, R178, R180) -/
def Obligations.LaneWordsFromTheManual : Prop :=
  laneDecode 0x00000000 = some (.always, .nop) ∧ laneDecode 0x00400000 = some (.always, .halt) ∧ laneDecode 0x01061234 = some (.always, .movi 3 0x1234#16) ∧
    laneDecode 0x01822180 = some (.always, .add 1 2 3) ∧ laneDecode 0xA6424280 = some (.ifTrue 2, .mac 1 4 5) ∧ laneDecode 0x0A055005 = some (.always, .ld 2 (.ptr 1 1 5#12)) ∧
    laneDecode 0x0BC07009 = some (.always, .out 7 (.imm 9)) ∧ laneDecode 0x00802403 = some (.always, .rpt 9 3) ∧ laneDecode 0x10000000 = none ∧ laneDecode 0x05400000 = none

/-- A step runs the command at the front of the queue on the state with the queue's rest; on an empty queue the block idles. (spec/95_what_each_step_holds.md) -/
def Obligations.StepRunsTheFrontCommand : Prop :=
  (∀ (s : State) (c : Instr) (rest : List Instr), s.pending = c :: rest → step s = exec c { s with pending := rest }) ∧
  (∀ (s : State), s.pending = [] → step s = .next s)

/-- Every command of the table answers a next state in every state: none ends in a fault or a refusal. (spec/95_what_each_step_holds.md) -/
def Obligations.EveryCommandAnswersANextState : Prop :=
  ∀ (c : Instr) (s : State), ∃ t, exec c s = .next t

/-- After reset every register has its reset value, nothing is in charge, the claims are the base claims, and the invariants hold. (R129, R390, R492, R514, R577, R624) -/
def Obligations.ResetState : Prop :=
  (State.reset.pending = [] ∧ (∀ b h off, State.reset.rg b h off = resetWord b h off) ∧ (∀ h, State.reset.rg .upd h 0 = 600#32 ∧ State.reset.rg .upd h 4 = 0xFFFFFFFF#32 ∧
    State.reset.rg .mbx h 0x1C = 0xFFFFFFFF#32) ∧ State.reset.rg .met .A 0x704 = 72#32 ∧ State.reset.rg .saf .A 0xA00 = 0x00320000#32 ∧ State.reset.rg .lsw .A 8 = 0x00C80000#32) ∧
  (State.reset.ref.token = none ∧ State.reset.ref.e = 0 ∧ (State.reset.hf .A).twn.claim = 0 ∧ (State.reset.hf .B).twn.claim = 1 ∧ State.reset.charge = none ∧ ChargeInOrder State.reset ∧
    StoresInOrder State.reset)

end
end

