-- ==== Sys2Proof/Laws/Tab.lean ====
section
/-!
SUPPORT. Tables: what a read gives after a write, and that every write keeps the canonical form.
-/

namespace Sys2Proof.Machine

variable {α : Type}

@[simp] theorem look_nil (d : α) (k : Nat) : look d [] k = d := rfl

theorem look_cons (d : α) (k q : Nat) (v : α) (t : Tab α) : look d ((k, v) :: t) q = if k = q then v else look d t q := rfl

theorem look_ins (d : α) (k q : Nat) (v : α) (t : Tab α) : look d (ins t k v) q = if k = q then v else look d t q := by
  induction t with
  | nil => simp [ins, look]
  | cons e t ih =>
    obtain ⟨a, w⟩ := e
    simp only [ins]
    split
    · simp [look]
    · split
      · rename_i h; subst h; simp only [look]; split <;> simp_all
      · simp only [look, ih]; split <;> split <;> simp_all

theorem look_del (d : α) (k q : Nat) (t : Tab α) : look d (del t k) q = if k = q then d else look d t q := by
  induction t with
  | nil => simp [del, look]
  | cons e t ih =>
    obtain ⟨a, w⟩ := e
    simp only [del, List.filter_cons]
    by_cases h : a = k
    · subst h; simp only [ne_eq, not_true, decide_false]; simp [look]; split <;> simp_all [del]
    · simp only [ne_eq, h, not_false_iff, decide_true, if_true, look]; simp only [del] at ih
      simp only [ne_eq] at ih
      rw [ih]; split <;> split <;> simp_all

/-- A read after a write gives what was written, and a write leaves every other key alone. -/
theorem look_put [DecidableEq α] (d : α) (k q : Nat) (v : α) (t : Tab α) : look d (put d t k v) q = if k = q then v else look d t q := by
  simp only [put]
  split
  · rename_i h; subst h; exact look_del _ _ _ _
  · exact look_ins _ _ _ _ _

@[simp] theorem look_put_same [DecidableEq α] (d : α) (k : Nat) (v : α) (t : Tab α) : look d (put d t k v) k = v := by simp [look_put]

theorem look_put_other [DecidableEq α] (d : α) {k q : Nat} (v : α) (t : Tab α) (h : k ≠ q) : look d (put d t k v) q = look d t q := by
  simp [look_put, h]

@[simp] theorem look_upd_same [DecidableEq α] (d : α) (k : Nat) (f : α → α) (t : Tab α) : look d (upd d t k f) k = f (look d t k) := by simp [upd]

theorem look_upd_other [DecidableEq α] (d : α) {k q : Nat} (f : α → α) (t : Tab α) (h : k ≠ q) : look d (upd d t k f) q = look d t q := by
  simp [upd, look_put, h]

theorem look_upd [DecidableEq α] (d : α) (k q : Nat) (f : α → α) (t : Tab α) :
    look d (upd d t k f) q = if k = q then f (look d t k) else look d t q := by
  simp [upd, look_put]

/-! ### The canonical form -/

theorem keysAbove_mono {m n : Nat} (h : m ≤ n) : (t : Tab α) → keysAbove n t = true → keysAbove m t = true
  | [], _ => rfl
  | (k, _) :: t, ht => by
    simp only [keysAbove, Bool.and_eq_true, decide_eq_true_eq] at ht ⊢
    exact ⟨by omega, ht.2⟩

theorem keysAbove_ins {n k : Nat} (v : α) (h : n < k) : (t : Tab α) → keysAbove n t = true → keysAbove n (ins t k v) = true
  | [], _ => by simp [ins, keysAbove, h]
  | (q, w) :: t, ht => by
    simp only [keysAbove, Bool.and_eq_true, decide_eq_true_eq] at ht
    simp only [ins]
    split
    · rename_i hk; simp [keysAbove, h, hk, ht.2]
    · split
      · rename_i hk; subst hk; simp [keysAbove, h, ht.2]
      · rename_i h1 h2
        simp only [keysAbove, Bool.and_eq_true, decide_eq_true_eq]
        exact ⟨ht.1, keysAbove_ins v (by omega) t ht.2⟩

theorem rising_ins (k : Nat) (v : α) : (t : Tab α) → rising t = true → rising (ins t k v) = true
  | [], _ => rfl
  | (q, w) :: t, ht => by
    simp only [rising] at ht
    simp only [ins]
    split
    · rename_i hk; simp [rising, keysAbove, hk, ht]
    · split
      · rename_i hk; subst hk; simpa [rising] using ht
      · rename_i h1 h2
        simp only [rising]
        exact keysAbove_ins v (by omega) t ht

theorem keysAbove_filter {n : Nat} (p : Nat × α → Bool) : (t : Tab α) → keysAbove n t = true → keysAbove n (t.filter p) = true
  | [], _ => rfl
  | (k, v) :: t, ht => by
    simp only [keysAbove, Bool.and_eq_true, decide_eq_true_eq] at ht
    simp only [List.filter_cons]
    split
    · simp only [keysAbove, Bool.and_eq_true, decide_eq_true_eq]; exact ⟨ht.1, keysAbove_filter p t ht.2⟩
    · exact keysAbove_filter p t (keysAbove_mono (by omega) t ht.2)

theorem rising_filter (p : Nat × α → Bool) : (t : Tab α) → rising t = true → rising (t.filter p) = true
  | [], _ => rfl
  | (k, v) :: t, ht => by
    simp only [rising] at ht
    simp only [List.filter_cons]
    split
    · exact keysAbove_filter p t ht
    · cases hf : t.filter p with
      | nil => rfl
      | cons e r =>
        obtain ⟨a, w⟩ := e
        have h1 := keysAbove_filter p t ht
        rw [hf] at h1
        simp only [keysAbove, Bool.and_eq_true, decide_eq_true_eq] at h1
        exact h1.2

theorem rising_del (t : Tab α) (k : Nat) (h : rising t = true) : rising (del t k) = true := rising_filter _ t h

theorem noDefault_ins [DecidableEq α] (d : α) (k : Nat) (v : α) (hv : v ≠ d) (t : Tab α) (h : noDefault d t = true) : noDefault d (ins t k v) = true := by
  induction t with
  | nil => simp [ins, noDefault, hv]
  | cons e t ih =>
    obtain ⟨q, w⟩ := e
    simp only [noDefault, List.all_cons, Bool.and_eq_true] at h ih
    simp only [ins]
    split
    · simp only [noDefault, List.all_cons, Bool.and_eq_true]; exact ⟨by simp [hv], h⟩
    · split
      · simp only [noDefault, List.all_cons, Bool.and_eq_true]; exact ⟨by simp [hv], h.2⟩
      · simp only [noDefault, List.all_cons, Bool.and_eq_true]; exact ⟨h.1, ih h.2⟩

theorem noDefault_filter [DecidableEq α] (d : α) (p : Nat × α → Bool) (t : Tab α) (h : noDefault d t = true) : noDefault d (t.filter p) = true := by
  simp only [noDefault, List.all_eq_true] at h ⊢
  intro e he
  exact h e (List.mem_filter.mp he).1

/-- A write keeps the canonical form. -/
theorem tabWf_put [DecidableEq α] (d : α) (t : Tab α) (k : Nat) (v : α) (h : tabWf d t = true) : tabWf d (put d t k v) = true := by
  simp only [tabWf, Bool.and_eq_true] at h ⊢
  simp only [put]
  split
  · exact ⟨rising_del t k h.1, noDefault_filter d _ t h.2⟩
  · rename_i hv; exact ⟨rising_ins k v t h.1, noDefault_ins d k v hv t h.2⟩

theorem tabWf_upd [DecidableEq α] (d : α) (t : Tab α) (k : Nat) (f : α → α) (h : tabWf d t = true) : tabWf d (upd d t k f) = true :=
  tabWf_put d t k _ h

theorem tabWf_filter [DecidableEq α] (d : α) (p : Nat × α → Bool) (t : Tab α) (h : tabWf d t = true) : tabWf d (t.filter p) = true := by
  simp only [tabWf, Bool.and_eq_true] at h ⊢
  exact ⟨rising_filter p t h.1, noDefault_filter d p t h.2⟩

theorem tabWf_del [DecidableEq α] (d : α) (t : Tab α) (k : Nat) (h : tabWf d t = true) : tabWf d (del t k) = true := tabWf_filter d _ t h

end Sys2Proof.Machine
end

