-- ==== Sys2Proof/Laws/State.lean ====
section
/-!
SUPPORT. What each named update of the state leaves as it was and what it sets, field by field.
-/

namespace Sys2Proof.Machine

/-! ### One half -/

@[simp] theorem hf_setHf_same (s : State) (h : Half) (x : HalfSt) : (s.setHf h x).hf h = x := by cases h <;> rfl
theorem hf_setHf_other (s : State) {h k : Half} (x : HalfSt) (n : k ≠ h) : (s.setHf h x).hf k = s.hf k := by cases h <;> cases k <;> simp_all <;> rfl
@[simp] theorem hf_mh_same (s : State) (h : Half) (f : HalfSt → HalfSt) : (s.mh h f).hf h = f (s.hf h) := hf_setHf_same _ _ _
theorem hf_mh_other (s : State) {h k : Half} (f : HalfSt → HalfSt) (n : k ≠ h) : (s.mh h f).hf k = s.hf k := hf_setHf_other _ _ n
theorem hf_mh (s : State) (h k : Half) (f : HalfSt → HalfSt) : (s.mh h f).hf k = if k = h then f (s.hf k) else s.hf k := by
  by_cases n : k = h
  · subst n; simp
  · simp [n, hf_mh_other]
@[simp] theorem hf_mBoth (s : State) (f : HalfSt → HalfSt) (k : Half) : (s.mBoth f).hf k = f (s.hf k) := by cases k <;> rfl
@[simp] theorem other_ne (h : Half) : other h ≠ h := by cases h <;> decide
@[simp] theorem ne_other (h : Half) : h ≠ other h := by cases h <;> decide
@[simp] theorem other_other (h : Half) : other (other h) = h := by cases h <;> rfl

/-! ### Updates of a half leave the rest of the device -/

@[simp] theorem setHf_pending (s : State) (h : Half) (x : HalfSt) : (s.setHf h x).pending = s.pending := by cases h <;> rfl
@[simp] theorem setHf_free (s : State) (h : Half) (x : HalfSt) : (s.setHf h x).free = s.free := by cases h <;> rfl
@[simp] theorem setHf_regs (s : State) (h : Half) (x : HalfSt) : (s.setHf h x).regs = s.regs := by cases h <;> rfl
@[simp] theorem setHf_shadow (s : State) (h : Half) (x : HalfSt) : (s.setHf h x).shadow = s.shadow := by cases h <;> rfl
@[simp] theorem setHf_blocks (s : State) (h : Half) (x : HalfSt) : (s.setHf h x).blocks = s.blocks := by cases h <;> rfl
@[simp] theorem setHf_ref (s : State) (h : Half) (x : HalfSt) : (s.setHf h x).ref = s.ref := by cases h <;> rfl
@[simp] theorem setHf_ho (s : State) (h : Half) (x : HalfSt) : (s.setHf h x).ho = s.ho := by cases h <;> rfl
@[simp] theorem setHf_pll (s : State) (h : Half) (x : HalfSt) : (s.setHf h x).pll = s.pll := by cases h <;> rfl
@[simp] theorem setHf_rtc (s : State) (h : Half) (x : HalfSt) : (s.setHf h x).rtc = s.rtc := by cases h <;> rfl
@[simp] theorem setHf_rems (s : State) (h : Half) (x : HalfSt) : (s.setHf h x).rems = s.rems := by cases h <;> rfl
@[simp] theorem setHf_cabs (s : State) (h : Half) (x : HalfSt) : (s.setHf h x).cabs = s.cabs := by cases h <;> rfl
@[simp] theorem setHf_therm (s : State) (h : Half) (x : HalfSt) : (s.setHf h x).therm = s.therm := by cases h <;> rfl
@[simp] theorem setHf_veh (s : State) (h : Half) (x : HalfSt) : (s.setHf h x).veh = s.veh := by cases h <;> rfl
@[simp] theorem setHf_vehG (s : State) (h : Half) (x : HalfSt) : (s.setHf h x).vehG = s.vehG := by cases h <;> rfl
@[simp] theorem setHf_met (s : State) (h : Half) (x : HalfSt) : (s.setHf h x).met = s.met := by cases h <;> rfl
@[simp] theorem setHf_bil (s : State) (h : Half) (x : HalfSt) : (s.setHf h x).bil = s.bil := by cases h <;> rfl
@[simp] theorem setHf_lkt (s : State) (h : Half) (x : HalfSt) : (s.setHf h x).lkt = s.lkt := by cases h <;> rfl
@[simp] theorem setHf_saf (s : State) (h : Half) (x : HalfSt) : (s.setHf h x).saf = s.saf := by cases h <;> rfl
@[simp] theorem setHf_cans (s : State) (h : Half) (x : HalfSt) : (s.setHf h x).cans = s.cans := by cases h <;> rfl
@[simp] theorem setHf_lsw (s : State) (h : Half) (x : HalfSt) : (s.setHf h x).lsw = s.lsw := by cases h <;> rfl
@[simp] theorem setHf_mesh (s : State) (h : Half) (x : HalfSt) : (s.setHf h x).mesh = s.mesh := by cases h <;> rfl
@[simp] theorem setHf_upd (s : State) (h : Half) (x : HalfSt) : (s.setHf h x).upd = s.upd := by cases h <;> rfl
@[simp] theorem setHf_pwr (s : State) (h : Half) (x : HalfSt) : (s.setHf h x).pwr = s.pwr := by cases h <;> rfl

@[simp] theorem mh_pending (s : State) (h : Half) (f : HalfSt → HalfSt) : (s.mh h f).pending = s.pending := by cases h <;> rfl
@[simp] theorem mh_free (s : State) (h : Half) (f : HalfSt → HalfSt) : (s.mh h f).free = s.free := by cases h <;> rfl
@[simp] theorem mh_regs (s : State) (h : Half) (f : HalfSt → HalfSt) : (s.mh h f).regs = s.regs := by cases h <;> rfl
@[simp] theorem mh_shadow (s : State) (h : Half) (f : HalfSt → HalfSt) : (s.mh h f).shadow = s.shadow := by cases h <;> rfl
@[simp] theorem mh_blocks (s : State) (h : Half) (f : HalfSt → HalfSt) : (s.mh h f).blocks = s.blocks := by cases h <;> rfl
@[simp] theorem mh_ref (s : State) (h : Half) (f : HalfSt → HalfSt) : (s.mh h f).ref = s.ref := by cases h <;> rfl
@[simp] theorem mh_ho (s : State) (h : Half) (f : HalfSt → HalfSt) : (s.mh h f).ho = s.ho := by cases h <;> rfl
@[simp] theorem mh_pll (s : State) (h : Half) (f : HalfSt → HalfSt) : (s.mh h f).pll = s.pll := by cases h <;> rfl
@[simp] theorem mh_rtc (s : State) (h : Half) (f : HalfSt → HalfSt) : (s.mh h f).rtc = s.rtc := by cases h <;> rfl
@[simp] theorem mh_rems (s : State) (h : Half) (f : HalfSt → HalfSt) : (s.mh h f).rems = s.rems := by cases h <;> rfl
@[simp] theorem mh_cabs (s : State) (h : Half) (f : HalfSt → HalfSt) : (s.mh h f).cabs = s.cabs := by cases h <;> rfl
@[simp] theorem mh_therm (s : State) (h : Half) (f : HalfSt → HalfSt) : (s.mh h f).therm = s.therm := by cases h <;> rfl
@[simp] theorem mh_veh (s : State) (h : Half) (f : HalfSt → HalfSt) : (s.mh h f).veh = s.veh := by cases h <;> rfl
@[simp] theorem mh_vehG (s : State) (h : Half) (f : HalfSt → HalfSt) : (s.mh h f).vehG = s.vehG := by cases h <;> rfl
@[simp] theorem mh_met (s : State) (h : Half) (f : HalfSt → HalfSt) : (s.mh h f).met = s.met := by cases h <;> rfl
@[simp] theorem mh_bil (s : State) (h : Half) (f : HalfSt → HalfSt) : (s.mh h f).bil = s.bil := by cases h <;> rfl
@[simp] theorem mh_lkt (s : State) (h : Half) (f : HalfSt → HalfSt) : (s.mh h f).lkt = s.lkt := by cases h <;> rfl
@[simp] theorem mh_saf (s : State) (h : Half) (f : HalfSt → HalfSt) : (s.mh h f).saf = s.saf := by cases h <;> rfl
@[simp] theorem mh_cans (s : State) (h : Half) (f : HalfSt → HalfSt) : (s.mh h f).cans = s.cans := by cases h <;> rfl
@[simp] theorem mh_lsw (s : State) (h : Half) (f : HalfSt → HalfSt) : (s.mh h f).lsw = s.lsw := by cases h <;> rfl
@[simp] theorem mh_mesh (s : State) (h : Half) (f : HalfSt → HalfSt) : (s.mh h f).mesh = s.mesh := by cases h <;> rfl
@[simp] theorem mh_upd (s : State) (h : Half) (f : HalfSt → HalfSt) : (s.mh h f).upd = s.upd := by cases h <;> rfl
@[simp] theorem mh_pwr (s : State) (h : Half) (f : HalfSt → HalfSt) : (s.mh h f).pwr = s.pwr := by cases h <;> rfl

@[simp] theorem mBoth_pending (s : State) (f : HalfSt → HalfSt) : (s.mBoth f).pending = s.pending := by rfl
@[simp] theorem mBoth_free (s : State) (f : HalfSt → HalfSt) : (s.mBoth f).free = s.free := by rfl
@[simp] theorem mBoth_regs (s : State) (f : HalfSt → HalfSt) : (s.mBoth f).regs = s.regs := by rfl
@[simp] theorem mBoth_shadow (s : State) (f : HalfSt → HalfSt) : (s.mBoth f).shadow = s.shadow := by rfl
@[simp] theorem mBoth_blocks (s : State) (f : HalfSt → HalfSt) : (s.mBoth f).blocks = s.blocks := by rfl
@[simp] theorem mBoth_ref (s : State) (f : HalfSt → HalfSt) : (s.mBoth f).ref = s.ref := by rfl
@[simp] theorem mBoth_ho (s : State) (f : HalfSt → HalfSt) : (s.mBoth f).ho = s.ho := by rfl
@[simp] theorem mBoth_pll (s : State) (f : HalfSt → HalfSt) : (s.mBoth f).pll = s.pll := by rfl
@[simp] theorem mBoth_rtc (s : State) (f : HalfSt → HalfSt) : (s.mBoth f).rtc = s.rtc := by rfl
@[simp] theorem mBoth_rems (s : State) (f : HalfSt → HalfSt) : (s.mBoth f).rems = s.rems := by rfl
@[simp] theorem mBoth_cabs (s : State) (f : HalfSt → HalfSt) : (s.mBoth f).cabs = s.cabs := by rfl
@[simp] theorem mBoth_therm (s : State) (f : HalfSt → HalfSt) : (s.mBoth f).therm = s.therm := by rfl
@[simp] theorem mBoth_veh (s : State) (f : HalfSt → HalfSt) : (s.mBoth f).veh = s.veh := by rfl
@[simp] theorem mBoth_vehG (s : State) (f : HalfSt → HalfSt) : (s.mBoth f).vehG = s.vehG := by rfl
@[simp] theorem mBoth_met (s : State) (f : HalfSt → HalfSt) : (s.mBoth f).met = s.met := by rfl
@[simp] theorem mBoth_bil (s : State) (f : HalfSt → HalfSt) : (s.mBoth f).bil = s.bil := by rfl
@[simp] theorem mBoth_lkt (s : State) (f : HalfSt → HalfSt) : (s.mBoth f).lkt = s.lkt := by rfl
@[simp] theorem mBoth_saf (s : State) (f : HalfSt → HalfSt) : (s.mBoth f).saf = s.saf := by rfl
@[simp] theorem mBoth_cans (s : State) (f : HalfSt → HalfSt) : (s.mBoth f).cans = s.cans := by rfl
@[simp] theorem mBoth_lsw (s : State) (f : HalfSt → HalfSt) : (s.mBoth f).lsw = s.lsw := by rfl
@[simp] theorem mBoth_mesh (s : State) (f : HalfSt → HalfSt) : (s.mBoth f).mesh = s.mesh := by rfl
@[simp] theorem mBoth_upd (s : State) (f : HalfSt → HalfSt) : (s.mBoth f).upd = s.upd := by rfl
@[simp] theorem mBoth_pwr (s : State) (f : HalfSt → HalfSt) : (s.mBoth f).pwr = s.pwr := by rfl

@[simp] theorem mTck_pending (s : State) (h : Half) (f : TckS → TckS) : (s.mTck h f).pending = s.pending := by cases h <;> rfl
@[simp] theorem mTck_free (s : State) (h : Half) (f : TckS → TckS) : (s.mTck h f).free = s.free := by cases h <;> rfl
@[simp] theorem mTck_regs (s : State) (h : Half) (f : TckS → TckS) : (s.mTck h f).regs = s.regs := by cases h <;> rfl
@[simp] theorem mTck_shadow (s : State) (h : Half) (f : TckS → TckS) : (s.mTck h f).shadow = s.shadow := by cases h <;> rfl
@[simp] theorem mTck_blocks (s : State) (h : Half) (f : TckS → TckS) : (s.mTck h f).blocks = s.blocks := by cases h <;> rfl
@[simp] theorem mTck_ref (s : State) (h : Half) (f : TckS → TckS) : (s.mTck h f).ref = s.ref := by cases h <;> rfl
@[simp] theorem mTck_ho (s : State) (h : Half) (f : TckS → TckS) : (s.mTck h f).ho = s.ho := by cases h <;> rfl
@[simp] theorem mTck_pll (s : State) (h : Half) (f : TckS → TckS) : (s.mTck h f).pll = s.pll := by cases h <;> rfl
@[simp] theorem mTck_rtc (s : State) (h : Half) (f : TckS → TckS) : (s.mTck h f).rtc = s.rtc := by cases h <;> rfl
@[simp] theorem mTck_rems (s : State) (h : Half) (f : TckS → TckS) : (s.mTck h f).rems = s.rems := by cases h <;> rfl
@[simp] theorem mTck_cabs (s : State) (h : Half) (f : TckS → TckS) : (s.mTck h f).cabs = s.cabs := by cases h <;> rfl
@[simp] theorem mTck_therm (s : State) (h : Half) (f : TckS → TckS) : (s.mTck h f).therm = s.therm := by cases h <;> rfl
@[simp] theorem mTck_veh (s : State) (h : Half) (f : TckS → TckS) : (s.mTck h f).veh = s.veh := by cases h <;> rfl
@[simp] theorem mTck_vehG (s : State) (h : Half) (f : TckS → TckS) : (s.mTck h f).vehG = s.vehG := by cases h <;> rfl
@[simp] theorem mTck_met (s : State) (h : Half) (f : TckS → TckS) : (s.mTck h f).met = s.met := by cases h <;> rfl
@[simp] theorem mTck_bil (s : State) (h : Half) (f : TckS → TckS) : (s.mTck h f).bil = s.bil := by cases h <;> rfl
@[simp] theorem mTck_lkt (s : State) (h : Half) (f : TckS → TckS) : (s.mTck h f).lkt = s.lkt := by cases h <;> rfl
@[simp] theorem mTck_saf (s : State) (h : Half) (f : TckS → TckS) : (s.mTck h f).saf = s.saf := by cases h <;> rfl
@[simp] theorem mTck_cans (s : State) (h : Half) (f : TckS → TckS) : (s.mTck h f).cans = s.cans := by cases h <;> rfl
@[simp] theorem mTck_lsw (s : State) (h : Half) (f : TckS → TckS) : (s.mTck h f).lsw = s.lsw := by cases h <;> rfl
@[simp] theorem mTck_mesh (s : State) (h : Half) (f : TckS → TckS) : (s.mTck h f).mesh = s.mesh := by cases h <;> rfl
@[simp] theorem mTck_upd (s : State) (h : Half) (f : TckS → TckS) : (s.mTck h f).upd = s.upd := by cases h <;> rfl
@[simp] theorem mTck_pwr (s : State) (h : Half) (f : TckS → TckS) : (s.mTck h f).pwr = s.pwr := by cases h <;> rfl

@[simp] theorem mTwn_pending (s : State) (h : Half) (f : TwnS → TwnS) : (s.mTwn h f).pending = s.pending := by cases h <;> rfl
@[simp] theorem mTwn_free (s : State) (h : Half) (f : TwnS → TwnS) : (s.mTwn h f).free = s.free := by cases h <;> rfl
@[simp] theorem mTwn_regs (s : State) (h : Half) (f : TwnS → TwnS) : (s.mTwn h f).regs = s.regs := by cases h <;> rfl
@[simp] theorem mTwn_shadow (s : State) (h : Half) (f : TwnS → TwnS) : (s.mTwn h f).shadow = s.shadow := by cases h <;> rfl
@[simp] theorem mTwn_blocks (s : State) (h : Half) (f : TwnS → TwnS) : (s.mTwn h f).blocks = s.blocks := by cases h <;> rfl
@[simp] theorem mTwn_ref (s : State) (h : Half) (f : TwnS → TwnS) : (s.mTwn h f).ref = s.ref := by cases h <;> rfl
@[simp] theorem mTwn_ho (s : State) (h : Half) (f : TwnS → TwnS) : (s.mTwn h f).ho = s.ho := by cases h <;> rfl
@[simp] theorem mTwn_pll (s : State) (h : Half) (f : TwnS → TwnS) : (s.mTwn h f).pll = s.pll := by cases h <;> rfl
@[simp] theorem mTwn_rtc (s : State) (h : Half) (f : TwnS → TwnS) : (s.mTwn h f).rtc = s.rtc := by cases h <;> rfl
@[simp] theorem mTwn_rems (s : State) (h : Half) (f : TwnS → TwnS) : (s.mTwn h f).rems = s.rems := by cases h <;> rfl
@[simp] theorem mTwn_cabs (s : State) (h : Half) (f : TwnS → TwnS) : (s.mTwn h f).cabs = s.cabs := by cases h <;> rfl
@[simp] theorem mTwn_therm (s : State) (h : Half) (f : TwnS → TwnS) : (s.mTwn h f).therm = s.therm := by cases h <;> rfl
@[simp] theorem mTwn_veh (s : State) (h : Half) (f : TwnS → TwnS) : (s.mTwn h f).veh = s.veh := by cases h <;> rfl
@[simp] theorem mTwn_vehG (s : State) (h : Half) (f : TwnS → TwnS) : (s.mTwn h f).vehG = s.vehG := by cases h <;> rfl
@[simp] theorem mTwn_met (s : State) (h : Half) (f : TwnS → TwnS) : (s.mTwn h f).met = s.met := by cases h <;> rfl
@[simp] theorem mTwn_bil (s : State) (h : Half) (f : TwnS → TwnS) : (s.mTwn h f).bil = s.bil := by cases h <;> rfl
@[simp] theorem mTwn_lkt (s : State) (h : Half) (f : TwnS → TwnS) : (s.mTwn h f).lkt = s.lkt := by cases h <;> rfl
@[simp] theorem mTwn_saf (s : State) (h : Half) (f : TwnS → TwnS) : (s.mTwn h f).saf = s.saf := by cases h <;> rfl
@[simp] theorem mTwn_cans (s : State) (h : Half) (f : TwnS → TwnS) : (s.mTwn h f).cans = s.cans := by cases h <;> rfl
@[simp] theorem mTwn_lsw (s : State) (h : Half) (f : TwnS → TwnS) : (s.mTwn h f).lsw = s.lsw := by cases h <;> rfl
@[simp] theorem mTwn_mesh (s : State) (h : Half) (f : TwnS → TwnS) : (s.mTwn h f).mesh = s.mesh := by cases h <;> rfl
@[simp] theorem mTwn_upd (s : State) (h : Half) (f : TwnS → TwnS) : (s.mTwn h f).upd = s.upd := by cases h <;> rfl
@[simp] theorem mTwn_pwr (s : State) (h : Half) (f : TwnS → TwnS) : (s.mTwn h f).pwr = s.pwr := by cases h <;> rfl

@[simp] theorem mMbx_pending (s : State) (h : Half) (f : MbxS → MbxS) : (s.mMbx h f).pending = s.pending := by cases h <;> rfl
@[simp] theorem mMbx_free (s : State) (h : Half) (f : MbxS → MbxS) : (s.mMbx h f).free = s.free := by cases h <;> rfl
@[simp] theorem mMbx_regs (s : State) (h : Half) (f : MbxS → MbxS) : (s.mMbx h f).regs = s.regs := by cases h <;> rfl
@[simp] theorem mMbx_shadow (s : State) (h : Half) (f : MbxS → MbxS) : (s.mMbx h f).shadow = s.shadow := by cases h <;> rfl
@[simp] theorem mMbx_blocks (s : State) (h : Half) (f : MbxS → MbxS) : (s.mMbx h f).blocks = s.blocks := by cases h <;> rfl
@[simp] theorem mMbx_ref (s : State) (h : Half) (f : MbxS → MbxS) : (s.mMbx h f).ref = s.ref := by cases h <;> rfl
@[simp] theorem mMbx_ho (s : State) (h : Half) (f : MbxS → MbxS) : (s.mMbx h f).ho = s.ho := by cases h <;> rfl
@[simp] theorem mMbx_pll (s : State) (h : Half) (f : MbxS → MbxS) : (s.mMbx h f).pll = s.pll := by cases h <;> rfl
@[simp] theorem mMbx_rtc (s : State) (h : Half) (f : MbxS → MbxS) : (s.mMbx h f).rtc = s.rtc := by cases h <;> rfl
@[simp] theorem mMbx_rems (s : State) (h : Half) (f : MbxS → MbxS) : (s.mMbx h f).rems = s.rems := by cases h <;> rfl
@[simp] theorem mMbx_cabs (s : State) (h : Half) (f : MbxS → MbxS) : (s.mMbx h f).cabs = s.cabs := by cases h <;> rfl
@[simp] theorem mMbx_therm (s : State) (h : Half) (f : MbxS → MbxS) : (s.mMbx h f).therm = s.therm := by cases h <;> rfl
@[simp] theorem mMbx_veh (s : State) (h : Half) (f : MbxS → MbxS) : (s.mMbx h f).veh = s.veh := by cases h <;> rfl
@[simp] theorem mMbx_vehG (s : State) (h : Half) (f : MbxS → MbxS) : (s.mMbx h f).vehG = s.vehG := by cases h <;> rfl
@[simp] theorem mMbx_met (s : State) (h : Half) (f : MbxS → MbxS) : (s.mMbx h f).met = s.met := by cases h <;> rfl
@[simp] theorem mMbx_bil (s : State) (h : Half) (f : MbxS → MbxS) : (s.mMbx h f).bil = s.bil := by cases h <;> rfl
@[simp] theorem mMbx_lkt (s : State) (h : Half) (f : MbxS → MbxS) : (s.mMbx h f).lkt = s.lkt := by cases h <;> rfl
@[simp] theorem mMbx_saf (s : State) (h : Half) (f : MbxS → MbxS) : (s.mMbx h f).saf = s.saf := by cases h <;> rfl
@[simp] theorem mMbx_cans (s : State) (h : Half) (f : MbxS → MbxS) : (s.mMbx h f).cans = s.cans := by cases h <;> rfl
@[simp] theorem mMbx_lsw (s : State) (h : Half) (f : MbxS → MbxS) : (s.mMbx h f).lsw = s.lsw := by cases h <;> rfl
@[simp] theorem mMbx_mesh (s : State) (h : Half) (f : MbxS → MbxS) : (s.mMbx h f).mesh = s.mesh := by cases h <;> rfl
@[simp] theorem mMbx_upd (s : State) (h : Half) (f : MbxS → MbxS) : (s.mMbx h f).upd = s.upd := by cases h <;> rfl
@[simp] theorem mMbx_pwr (s : State) (h : Half) (f : MbxS → MbxS) : (s.mMbx h f).pwr = s.pwr := by cases h <;> rfl

@[simp] theorem mPort_pending (s : State) (h : Half) (p : Nat) (f : PortS → PortS) : (s.mPort h p f).pending = s.pending := by cases h <;> rfl
@[simp] theorem mPort_free (s : State) (h : Half) (p : Nat) (f : PortS → PortS) : (s.mPort h p f).free = s.free := by cases h <;> rfl
@[simp] theorem mPort_regs (s : State) (h : Half) (p : Nat) (f : PortS → PortS) : (s.mPort h p f).regs = s.regs := by cases h <;> rfl
@[simp] theorem mPort_shadow (s : State) (h : Half) (p : Nat) (f : PortS → PortS) : (s.mPort h p f).shadow = s.shadow := by cases h <;> rfl
@[simp] theorem mPort_blocks (s : State) (h : Half) (p : Nat) (f : PortS → PortS) : (s.mPort h p f).blocks = s.blocks := by cases h <;> rfl
@[simp] theorem mPort_ref (s : State) (h : Half) (p : Nat) (f : PortS → PortS) : (s.mPort h p f).ref = s.ref := by cases h <;> rfl
@[simp] theorem mPort_ho (s : State) (h : Half) (p : Nat) (f : PortS → PortS) : (s.mPort h p f).ho = s.ho := by cases h <;> rfl
@[simp] theorem mPort_pll (s : State) (h : Half) (p : Nat) (f : PortS → PortS) : (s.mPort h p f).pll = s.pll := by cases h <;> rfl
@[simp] theorem mPort_rtc (s : State) (h : Half) (p : Nat) (f : PortS → PortS) : (s.mPort h p f).rtc = s.rtc := by cases h <;> rfl
@[simp] theorem mPort_rems (s : State) (h : Half) (p : Nat) (f : PortS → PortS) : (s.mPort h p f).rems = s.rems := by cases h <;> rfl
@[simp] theorem mPort_cabs (s : State) (h : Half) (p : Nat) (f : PortS → PortS) : (s.mPort h p f).cabs = s.cabs := by cases h <;> rfl
@[simp] theorem mPort_therm (s : State) (h : Half) (p : Nat) (f : PortS → PortS) : (s.mPort h p f).therm = s.therm := by cases h <;> rfl
@[simp] theorem mPort_veh (s : State) (h : Half) (p : Nat) (f : PortS → PortS) : (s.mPort h p f).veh = s.veh := by cases h <;> rfl
@[simp] theorem mPort_vehG (s : State) (h : Half) (p : Nat) (f : PortS → PortS) : (s.mPort h p f).vehG = s.vehG := by cases h <;> rfl
@[simp] theorem mPort_met (s : State) (h : Half) (p : Nat) (f : PortS → PortS) : (s.mPort h p f).met = s.met := by cases h <;> rfl
@[simp] theorem mPort_bil (s : State) (h : Half) (p : Nat) (f : PortS → PortS) : (s.mPort h p f).bil = s.bil := by cases h <;> rfl
@[simp] theorem mPort_lkt (s : State) (h : Half) (p : Nat) (f : PortS → PortS) : (s.mPort h p f).lkt = s.lkt := by cases h <;> rfl
@[simp] theorem mPort_saf (s : State) (h : Half) (p : Nat) (f : PortS → PortS) : (s.mPort h p f).saf = s.saf := by cases h <;> rfl
@[simp] theorem mPort_cans (s : State) (h : Half) (p : Nat) (f : PortS → PortS) : (s.mPort h p f).cans = s.cans := by cases h <;> rfl
@[simp] theorem mPort_lsw (s : State) (h : Half) (p : Nat) (f : PortS → PortS) : (s.mPort h p f).lsw = s.lsw := by cases h <;> rfl
@[simp] theorem mPort_mesh (s : State) (h : Half) (p : Nat) (f : PortS → PortS) : (s.mPort h p f).mesh = s.mesh := by cases h <;> rfl
@[simp] theorem mPort_upd (s : State) (h : Half) (p : Nat) (f : PortS → PortS) : (s.mPort h p f).upd = s.upd := by cases h <;> rfl
@[simp] theorem mPort_pwr (s : State) (h : Half) (p : Nat) (f : PortS → PortS) : (s.mPort h p f).pwr = s.pwr := by cases h <;> rfl

@[simp] theorem mRing_pending (s : State) (h : Half) (n : Nat) (f : RingS → RingS) : (s.mRing h n f).pending = s.pending := by cases h <;> rfl
@[simp] theorem mRing_free (s : State) (h : Half) (n : Nat) (f : RingS → RingS) : (s.mRing h n f).free = s.free := by cases h <;> rfl
@[simp] theorem mRing_regs (s : State) (h : Half) (n : Nat) (f : RingS → RingS) : (s.mRing h n f).regs = s.regs := by cases h <;> rfl
@[simp] theorem mRing_shadow (s : State) (h : Half) (n : Nat) (f : RingS → RingS) : (s.mRing h n f).shadow = s.shadow := by cases h <;> rfl
@[simp] theorem mRing_blocks (s : State) (h : Half) (n : Nat) (f : RingS → RingS) : (s.mRing h n f).blocks = s.blocks := by cases h <;> rfl
@[simp] theorem mRing_ref (s : State) (h : Half) (n : Nat) (f : RingS → RingS) : (s.mRing h n f).ref = s.ref := by cases h <;> rfl
@[simp] theorem mRing_ho (s : State) (h : Half) (n : Nat) (f : RingS → RingS) : (s.mRing h n f).ho = s.ho := by cases h <;> rfl
@[simp] theorem mRing_pll (s : State) (h : Half) (n : Nat) (f : RingS → RingS) : (s.mRing h n f).pll = s.pll := by cases h <;> rfl
@[simp] theorem mRing_rtc (s : State) (h : Half) (n : Nat) (f : RingS → RingS) : (s.mRing h n f).rtc = s.rtc := by cases h <;> rfl
@[simp] theorem mRing_rems (s : State) (h : Half) (n : Nat) (f : RingS → RingS) : (s.mRing h n f).rems = s.rems := by cases h <;> rfl
@[simp] theorem mRing_cabs (s : State) (h : Half) (n : Nat) (f : RingS → RingS) : (s.mRing h n f).cabs = s.cabs := by cases h <;> rfl
@[simp] theorem mRing_therm (s : State) (h : Half) (n : Nat) (f : RingS → RingS) : (s.mRing h n f).therm = s.therm := by cases h <;> rfl
@[simp] theorem mRing_veh (s : State) (h : Half) (n : Nat) (f : RingS → RingS) : (s.mRing h n f).veh = s.veh := by cases h <;> rfl
@[simp] theorem mRing_vehG (s : State) (h : Half) (n : Nat) (f : RingS → RingS) : (s.mRing h n f).vehG = s.vehG := by cases h <;> rfl
@[simp] theorem mRing_met (s : State) (h : Half) (n : Nat) (f : RingS → RingS) : (s.mRing h n f).met = s.met := by cases h <;> rfl
@[simp] theorem mRing_bil (s : State) (h : Half) (n : Nat) (f : RingS → RingS) : (s.mRing h n f).bil = s.bil := by cases h <;> rfl
@[simp] theorem mRing_lkt (s : State) (h : Half) (n : Nat) (f : RingS → RingS) : (s.mRing h n f).lkt = s.lkt := by cases h <;> rfl
@[simp] theorem mRing_saf (s : State) (h : Half) (n : Nat) (f : RingS → RingS) : (s.mRing h n f).saf = s.saf := by cases h <;> rfl
@[simp] theorem mRing_cans (s : State) (h : Half) (n : Nat) (f : RingS → RingS) : (s.mRing h n f).cans = s.cans := by cases h <;> rfl
@[simp] theorem mRing_lsw (s : State) (h : Half) (n : Nat) (f : RingS → RingS) : (s.mRing h n f).lsw = s.lsw := by cases h <;> rfl
@[simp] theorem mRing_mesh (s : State) (h : Half) (n : Nat) (f : RingS → RingS) : (s.mRing h n f).mesh = s.mesh := by cases h <;> rfl
@[simp] theorem mRing_upd (s : State) (h : Half) (n : Nat) (f : RingS → RingS) : (s.mRing h n f).upd = s.upd := by cases h <;> rfl
@[simp] theorem mRing_pwr (s : State) (h : Half) (n : Nat) (f : RingS → RingS) : (s.mRing h n f).pwr = s.pwr := by cases h <;> rfl

@[simp] theorem putEvent_pending (s : State) (h : Half) (r : EventRec) : (s.putEvent h r).pending = s.pending := by cases h <;> rfl
@[simp] theorem putEvent_free (s : State) (h : Half) (r : EventRec) : (s.putEvent h r).free = s.free := by cases h <;> rfl
@[simp] theorem putEvent_regs (s : State) (h : Half) (r : EventRec) : (s.putEvent h r).regs = s.regs := by cases h <;> rfl
@[simp] theorem putEvent_shadow (s : State) (h : Half) (r : EventRec) : (s.putEvent h r).shadow = s.shadow := by cases h <;> rfl
@[simp] theorem putEvent_blocks (s : State) (h : Half) (r : EventRec) : (s.putEvent h r).blocks = s.blocks := by cases h <;> rfl
@[simp] theorem putEvent_ref (s : State) (h : Half) (r : EventRec) : (s.putEvent h r).ref = s.ref := by cases h <;> rfl
@[simp] theorem putEvent_ho (s : State) (h : Half) (r : EventRec) : (s.putEvent h r).ho = s.ho := by cases h <;> rfl
@[simp] theorem putEvent_pll (s : State) (h : Half) (r : EventRec) : (s.putEvent h r).pll = s.pll := by cases h <;> rfl
@[simp] theorem putEvent_rtc (s : State) (h : Half) (r : EventRec) : (s.putEvent h r).rtc = s.rtc := by cases h <;> rfl
@[simp] theorem putEvent_rems (s : State) (h : Half) (r : EventRec) : (s.putEvent h r).rems = s.rems := by cases h <;> rfl
@[simp] theorem putEvent_cabs (s : State) (h : Half) (r : EventRec) : (s.putEvent h r).cabs = s.cabs := by cases h <;> rfl
@[simp] theorem putEvent_therm (s : State) (h : Half) (r : EventRec) : (s.putEvent h r).therm = s.therm := by cases h <;> rfl
@[simp] theorem putEvent_veh (s : State) (h : Half) (r : EventRec) : (s.putEvent h r).veh = s.veh := by cases h <;> rfl
@[simp] theorem putEvent_vehG (s : State) (h : Half) (r : EventRec) : (s.putEvent h r).vehG = s.vehG := by cases h <;> rfl
@[simp] theorem putEvent_met (s : State) (h : Half) (r : EventRec) : (s.putEvent h r).met = s.met := by cases h <;> rfl
@[simp] theorem putEvent_bil (s : State) (h : Half) (r : EventRec) : (s.putEvent h r).bil = s.bil := by cases h <;> rfl
@[simp] theorem putEvent_lkt (s : State) (h : Half) (r : EventRec) : (s.putEvent h r).lkt = s.lkt := by cases h <;> rfl
@[simp] theorem putEvent_saf (s : State) (h : Half) (r : EventRec) : (s.putEvent h r).saf = s.saf := by cases h <;> rfl
@[simp] theorem putEvent_cans (s : State) (h : Half) (r : EventRec) : (s.putEvent h r).cans = s.cans := by cases h <;> rfl
@[simp] theorem putEvent_lsw (s : State) (h : Half) (r : EventRec) : (s.putEvent h r).lsw = s.lsw := by cases h <;> rfl
@[simp] theorem putEvent_mesh (s : State) (h : Half) (r : EventRec) : (s.putEvent h r).mesh = s.mesh := by cases h <;> rfl
@[simp] theorem putEvent_upd (s : State) (h : Half) (r : EventRec) : (s.putEvent h r).upd = s.upd := by cases h <;> rfl
@[simp] theorem putEvent_pwr (s : State) (h : Half) (r : EventRec) : (s.putEvent h r).pwr = s.pwr := by cases h <;> rfl

@[simp] theorem stageWrite_pending (s : State) (h : Half) (i : Nat) (v : Int) : (s.stageWrite h i v).pending = s.pending := by simp only [State.stageWrite]; split <;> simp
@[simp] theorem stageWrite_free (s : State) (h : Half) (i : Nat) (v : Int) : (s.stageWrite h i v).free = s.free := by simp only [State.stageWrite]; split <;> simp
@[simp] theorem stageWrite_regs (s : State) (h : Half) (i : Nat) (v : Int) : (s.stageWrite h i v).regs = s.regs := by simp only [State.stageWrite]; split <;> simp
@[simp] theorem stageWrite_shadow (s : State) (h : Half) (i : Nat) (v : Int) : (s.stageWrite h i v).shadow = s.shadow := by simp only [State.stageWrite]; split <;> simp
@[simp] theorem stageWrite_blocks (s : State) (h : Half) (i : Nat) (v : Int) : (s.stageWrite h i v).blocks = s.blocks := by simp only [State.stageWrite]; split <;> simp
@[simp] theorem stageWrite_ref (s : State) (h : Half) (i : Nat) (v : Int) : (s.stageWrite h i v).ref = s.ref := by simp only [State.stageWrite]; split <;> simp
@[simp] theorem stageWrite_ho (s : State) (h : Half) (i : Nat) (v : Int) : (s.stageWrite h i v).ho = s.ho := by simp only [State.stageWrite]; split <;> simp
@[simp] theorem stageWrite_pll (s : State) (h : Half) (i : Nat) (v : Int) : (s.stageWrite h i v).pll = s.pll := by simp only [State.stageWrite]; split <;> simp
@[simp] theorem stageWrite_rtc (s : State) (h : Half) (i : Nat) (v : Int) : (s.stageWrite h i v).rtc = s.rtc := by simp only [State.stageWrite]; split <;> simp
@[simp] theorem stageWrite_rems (s : State) (h : Half) (i : Nat) (v : Int) : (s.stageWrite h i v).rems = s.rems := by simp only [State.stageWrite]; split <;> simp
@[simp] theorem stageWrite_cabs (s : State) (h : Half) (i : Nat) (v : Int) : (s.stageWrite h i v).cabs = s.cabs := by simp only [State.stageWrite]; split <;> simp
@[simp] theorem stageWrite_therm (s : State) (h : Half) (i : Nat) (v : Int) : (s.stageWrite h i v).therm = s.therm := by simp only [State.stageWrite]; split <;> simp
@[simp] theorem stageWrite_veh (s : State) (h : Half) (i : Nat) (v : Int) : (s.stageWrite h i v).veh = s.veh := by simp only [State.stageWrite]; split <;> simp
@[simp] theorem stageWrite_vehG (s : State) (h : Half) (i : Nat) (v : Int) : (s.stageWrite h i v).vehG = s.vehG := by simp only [State.stageWrite]; split <;> simp
@[simp] theorem stageWrite_met (s : State) (h : Half) (i : Nat) (v : Int) : (s.stageWrite h i v).met = s.met := by simp only [State.stageWrite]; split <;> simp
@[simp] theorem stageWrite_bil (s : State) (h : Half) (i : Nat) (v : Int) : (s.stageWrite h i v).bil = s.bil := by simp only [State.stageWrite]; split <;> simp
@[simp] theorem stageWrite_lkt (s : State) (h : Half) (i : Nat) (v : Int) : (s.stageWrite h i v).lkt = s.lkt := by simp only [State.stageWrite]; split <;> simp
@[simp] theorem stageWrite_saf (s : State) (h : Half) (i : Nat) (v : Int) : (s.stageWrite h i v).saf = s.saf := by simp only [State.stageWrite]; split <;> simp
@[simp] theorem stageWrite_cans (s : State) (h : Half) (i : Nat) (v : Int) : (s.stageWrite h i v).cans = s.cans := by simp only [State.stageWrite]; split <;> simp
@[simp] theorem stageWrite_lsw (s : State) (h : Half) (i : Nat) (v : Int) : (s.stageWrite h i v).lsw = s.lsw := by simp only [State.stageWrite]; split <;> simp
@[simp] theorem stageWrite_mesh (s : State) (h : Half) (i : Nat) (v : Int) : (s.stageWrite h i v).mesh = s.mesh := by simp only [State.stageWrite]; split <;> simp
@[simp] theorem stageWrite_upd (s : State) (h : Half) (i : Nat) (v : Int) : (s.stageWrite h i v).upd = s.upd := by simp only [State.stageWrite]; split <;> simp
@[simp] theorem stageWrite_pwr (s : State) (h : Half) (i : Nat) (v : Int) : (s.stageWrite h i v).pwr = s.pwr := by simp only [State.stageWrite]; split <;> simp

@[simp] theorem flashWrite_pending (s : State) (h : Half) (n : Nat) : (s.flashWrite h n).pending = s.pending := by simp only [State.flashWrite]; split <;> simp
@[simp] theorem flashWrite_free (s : State) (h : Half) (n : Nat) : (s.flashWrite h n).free = s.free := by simp only [State.flashWrite]; split <;> simp
@[simp] theorem flashWrite_regs (s : State) (h : Half) (n : Nat) : (s.flashWrite h n).regs = s.regs := by simp only [State.flashWrite]; split <;> simp
@[simp] theorem flashWrite_shadow (s : State) (h : Half) (n : Nat) : (s.flashWrite h n).shadow = s.shadow := by simp only [State.flashWrite]; split <;> simp
@[simp] theorem flashWrite_blocks (s : State) (h : Half) (n : Nat) : (s.flashWrite h n).blocks = s.blocks := by simp only [State.flashWrite]; split <;> simp
@[simp] theorem flashWrite_ref (s : State) (h : Half) (n : Nat) : (s.flashWrite h n).ref = s.ref := by simp only [State.flashWrite]; split <;> simp
@[simp] theorem flashWrite_ho (s : State) (h : Half) (n : Nat) : (s.flashWrite h n).ho = s.ho := by simp only [State.flashWrite]; split <;> simp
@[simp] theorem flashWrite_pll (s : State) (h : Half) (n : Nat) : (s.flashWrite h n).pll = s.pll := by simp only [State.flashWrite]; split <;> simp
@[simp] theorem flashWrite_rtc (s : State) (h : Half) (n : Nat) : (s.flashWrite h n).rtc = s.rtc := by simp only [State.flashWrite]; split <;> simp
@[simp] theorem flashWrite_rems (s : State) (h : Half) (n : Nat) : (s.flashWrite h n).rems = s.rems := by simp only [State.flashWrite]; split <;> simp
@[simp] theorem flashWrite_cabs (s : State) (h : Half) (n : Nat) : (s.flashWrite h n).cabs = s.cabs := by simp only [State.flashWrite]; split <;> simp
@[simp] theorem flashWrite_therm (s : State) (h : Half) (n : Nat) : (s.flashWrite h n).therm = s.therm := by simp only [State.flashWrite]; split <;> simp
@[simp] theorem flashWrite_veh (s : State) (h : Half) (n : Nat) : (s.flashWrite h n).veh = s.veh := by simp only [State.flashWrite]; split <;> simp
@[simp] theorem flashWrite_vehG (s : State) (h : Half) (n : Nat) : (s.flashWrite h n).vehG = s.vehG := by simp only [State.flashWrite]; split <;> simp
@[simp] theorem flashWrite_met (s : State) (h : Half) (n : Nat) : (s.flashWrite h n).met = s.met := by simp only [State.flashWrite]; split <;> simp
@[simp] theorem flashWrite_bil (s : State) (h : Half) (n : Nat) : (s.flashWrite h n).bil = s.bil := by simp only [State.flashWrite]; split <;> simp
@[simp] theorem flashWrite_lkt (s : State) (h : Half) (n : Nat) : (s.flashWrite h n).lkt = s.lkt := by simp only [State.flashWrite]; split <;> simp
@[simp] theorem flashWrite_saf (s : State) (h : Half) (n : Nat) : (s.flashWrite h n).saf = s.saf := by simp only [State.flashWrite]; split <;> simp
@[simp] theorem flashWrite_cans (s : State) (h : Half) (n : Nat) : (s.flashWrite h n).cans = s.cans := by simp only [State.flashWrite]; split <;> simp
@[simp] theorem flashWrite_lsw (s : State) (h : Half) (n : Nat) : (s.flashWrite h n).lsw = s.lsw := by simp only [State.flashWrite]; split <;> simp
@[simp] theorem flashWrite_mesh (s : State) (h : Half) (n : Nat) : (s.flashWrite h n).mesh = s.mesh := by simp only [State.flashWrite]; split <;> simp
@[simp] theorem flashWrite_upd (s : State) (h : Half) (n : Nat) : (s.flashWrite h n).upd = s.upd := by simp only [State.flashWrite]; split <;> simp
@[simp] theorem flashWrite_pwr (s : State) (h : Half) (n : Nat) : (s.flashWrite h n).pwr = s.pwr := by simp only [State.flashWrite]; split <;> simp

@[simp] theorem ev_pending (s : State) (h : Half) (sev code : Nat) (d : List Nat) : (s.ev h sev code d).pending = s.pending := by simp only [State.ev]; split <;> simp
@[simp] theorem ev_free (s : State) (h : Half) (sev code : Nat) (d : List Nat) : (s.ev h sev code d).free = s.free := by simp only [State.ev]; split <;> simp
@[simp] theorem ev_regs (s : State) (h : Half) (sev code : Nat) (d : List Nat) : (s.ev h sev code d).regs = s.regs := by simp only [State.ev]; split <;> simp
@[simp] theorem ev_shadow (s : State) (h : Half) (sev code : Nat) (d : List Nat) : (s.ev h sev code d).shadow = s.shadow := by simp only [State.ev]; split <;> simp
@[simp] theorem ev_blocks (s : State) (h : Half) (sev code : Nat) (d : List Nat) : (s.ev h sev code d).blocks = s.blocks := by simp only [State.ev]; split <;> simp
@[simp] theorem ev_ref (s : State) (h : Half) (sev code : Nat) (d : List Nat) : (s.ev h sev code d).ref = s.ref := by simp only [State.ev]; split <;> simp
@[simp] theorem ev_ho (s : State) (h : Half) (sev code : Nat) (d : List Nat) : (s.ev h sev code d).ho = s.ho := by simp only [State.ev]; split <;> simp
@[simp] theorem ev_pll (s : State) (h : Half) (sev code : Nat) (d : List Nat) : (s.ev h sev code d).pll = s.pll := by simp only [State.ev]; split <;> simp
@[simp] theorem ev_rtc (s : State) (h : Half) (sev code : Nat) (d : List Nat) : (s.ev h sev code d).rtc = s.rtc := by simp only [State.ev]; split <;> simp
@[simp] theorem ev_rems (s : State) (h : Half) (sev code : Nat) (d : List Nat) : (s.ev h sev code d).rems = s.rems := by simp only [State.ev]; split <;> simp
@[simp] theorem ev_cabs (s : State) (h : Half) (sev code : Nat) (d : List Nat) : (s.ev h sev code d).cabs = s.cabs := by simp only [State.ev]; split <;> simp
@[simp] theorem ev_therm (s : State) (h : Half) (sev code : Nat) (d : List Nat) : (s.ev h sev code d).therm = s.therm := by simp only [State.ev]; split <;> simp
@[simp] theorem ev_veh (s : State) (h : Half) (sev code : Nat) (d : List Nat) : (s.ev h sev code d).veh = s.veh := by simp only [State.ev]; split <;> simp
@[simp] theorem ev_vehG (s : State) (h : Half) (sev code : Nat) (d : List Nat) : (s.ev h sev code d).vehG = s.vehG := by simp only [State.ev]; split <;> simp
@[simp] theorem ev_met (s : State) (h : Half) (sev code : Nat) (d : List Nat) : (s.ev h sev code d).met = s.met := by simp only [State.ev]; split <;> simp
@[simp] theorem ev_bil (s : State) (h : Half) (sev code : Nat) (d : List Nat) : (s.ev h sev code d).bil = s.bil := by simp only [State.ev]; split <;> simp
@[simp] theorem ev_lkt (s : State) (h : Half) (sev code : Nat) (d : List Nat) : (s.ev h sev code d).lkt = s.lkt := by simp only [State.ev]; split <;> simp
@[simp] theorem ev_saf (s : State) (h : Half) (sev code : Nat) (d : List Nat) : (s.ev h sev code d).saf = s.saf := by simp only [State.ev]; split <;> simp
@[simp] theorem ev_cans (s : State) (h : Half) (sev code : Nat) (d : List Nat) : (s.ev h sev code d).cans = s.cans := by simp only [State.ev]; split <;> simp
@[simp] theorem ev_lsw (s : State) (h : Half) (sev code : Nat) (d : List Nat) : (s.ev h sev code d).lsw = s.lsw := by simp only [State.ev]; split <;> simp
@[simp] theorem ev_mesh (s : State) (h : Half) (sev code : Nat) (d : List Nat) : (s.ev h sev code d).mesh = s.mesh := by simp only [State.ev]; split <;> simp
@[simp] theorem ev_upd (s : State) (h : Half) (sev code : Nat) (d : List Nat) : (s.ev h sev code d).upd = s.upd := by simp only [State.ev]; split <;> simp
@[simp] theorem ev_pwr (s : State) (h : Half) (sev code : Nat) (d : List Nat) : (s.ev h sev code d).pwr = s.pwr := by simp only [State.ev]; split <;> simp

@[simp] theorem evShared_pending (s : State) (og sev code : Nat) (d : List Nat) : (s.evShared og sev code d).pending = s.pending := by simp [State.evShared]
@[simp] theorem evShared_free (s : State) (og sev code : Nat) (d : List Nat) : (s.evShared og sev code d).free = s.free := by simp [State.evShared]
@[simp] theorem evShared_regs (s : State) (og sev code : Nat) (d : List Nat) : (s.evShared og sev code d).regs = s.regs := by simp [State.evShared]
@[simp] theorem evShared_shadow (s : State) (og sev code : Nat) (d : List Nat) : (s.evShared og sev code d).shadow = s.shadow := by simp [State.evShared]
@[simp] theorem evShared_blocks (s : State) (og sev code : Nat) (d : List Nat) : (s.evShared og sev code d).blocks = s.blocks := by simp [State.evShared]
@[simp] theorem evShared_ref (s : State) (og sev code : Nat) (d : List Nat) : (s.evShared og sev code d).ref = s.ref := by simp [State.evShared]
@[simp] theorem evShared_ho (s : State) (og sev code : Nat) (d : List Nat) : (s.evShared og sev code d).ho = s.ho := by simp [State.evShared]
@[simp] theorem evShared_pll (s : State) (og sev code : Nat) (d : List Nat) : (s.evShared og sev code d).pll = s.pll := by simp [State.evShared]
@[simp] theorem evShared_rtc (s : State) (og sev code : Nat) (d : List Nat) : (s.evShared og sev code d).rtc = s.rtc := by simp [State.evShared]
@[simp] theorem evShared_rems (s : State) (og sev code : Nat) (d : List Nat) : (s.evShared og sev code d).rems = s.rems := by simp [State.evShared]
@[simp] theorem evShared_cabs (s : State) (og sev code : Nat) (d : List Nat) : (s.evShared og sev code d).cabs = s.cabs := by simp [State.evShared]
@[simp] theorem evShared_therm (s : State) (og sev code : Nat) (d : List Nat) : (s.evShared og sev code d).therm = s.therm := by simp [State.evShared]
@[simp] theorem evShared_veh (s : State) (og sev code : Nat) (d : List Nat) : (s.evShared og sev code d).veh = s.veh := by simp [State.evShared]
@[simp] theorem evShared_vehG (s : State) (og sev code : Nat) (d : List Nat) : (s.evShared og sev code d).vehG = s.vehG := by simp [State.evShared]
@[simp] theorem evShared_met (s : State) (og sev code : Nat) (d : List Nat) : (s.evShared og sev code d).met = s.met := by simp [State.evShared]
@[simp] theorem evShared_bil (s : State) (og sev code : Nat) (d : List Nat) : (s.evShared og sev code d).bil = s.bil := by simp [State.evShared]
@[simp] theorem evShared_lkt (s : State) (og sev code : Nat) (d : List Nat) : (s.evShared og sev code d).lkt = s.lkt := by simp [State.evShared]
@[simp] theorem evShared_saf (s : State) (og sev code : Nat) (d : List Nat) : (s.evShared og sev code d).saf = s.saf := by simp [State.evShared]
@[simp] theorem evShared_cans (s : State) (og sev code : Nat) (d : List Nat) : (s.evShared og sev code d).cans = s.cans := by simp [State.evShared]
@[simp] theorem evShared_lsw (s : State) (og sev code : Nat) (d : List Nat) : (s.evShared og sev code d).lsw = s.lsw := by simp [State.evShared]
@[simp] theorem evShared_mesh (s : State) (og sev code : Nat) (d : List Nat) : (s.evShared og sev code d).mesh = s.mesh := by simp [State.evShared]
@[simp] theorem evShared_upd (s : State) (og sev code : Nat) (d : List Nat) : (s.evShared og sev code d).upd = s.upd := by simp [State.evShared]
@[simp] theorem evShared_pwr (s : State) (og sev code : Nat) (d : List Nat) : (s.evShared og sev code d).pwr = s.pwr := by simp [State.evShared]

@[simp] theorem start_pending (s : State) (o : Org) (opc role : Nat) (x : Option Half) : (s.start o opc role x).pending = s.pending := by simp [State.start]
@[simp] theorem start_free (s : State) (o : Org) (opc role : Nat) (x : Option Half) : (s.start o opc role x).free = s.free := by simp [State.start]
@[simp] theorem start_regs (s : State) (o : Org) (opc role : Nat) (x : Option Half) : (s.start o opc role x).regs = s.regs := by simp [State.start]
@[simp] theorem start_shadow (s : State) (o : Org) (opc role : Nat) (x : Option Half) : (s.start o opc role x).shadow = s.shadow := by simp [State.start]
@[simp] theorem start_blocks (s : State) (o : Org) (opc role : Nat) (x : Option Half) : (s.start o opc role x).blocks = s.blocks := by simp [State.start]
@[simp] theorem start_ref (s : State) (o : Org) (opc role : Nat) (x : Option Half) : (s.start o opc role x).ref = s.ref := by simp [State.start]
@[simp] theorem start_ho (s : State) (o : Org) (opc role : Nat) (x : Option Half) : (s.start o opc role x).ho = s.ho := by simp [State.start]
@[simp] theorem start_pll (s : State) (o : Org) (opc role : Nat) (x : Option Half) : (s.start o opc role x).pll = s.pll := by simp [State.start]
@[simp] theorem start_rtc (s : State) (o : Org) (opc role : Nat) (x : Option Half) : (s.start o opc role x).rtc = s.rtc := by simp [State.start]
@[simp] theorem start_rems (s : State) (o : Org) (opc role : Nat) (x : Option Half) : (s.start o opc role x).rems = s.rems := by simp [State.start]
@[simp] theorem start_cabs (s : State) (o : Org) (opc role : Nat) (x : Option Half) : (s.start o opc role x).cabs = s.cabs := by simp [State.start]
@[simp] theorem start_therm (s : State) (o : Org) (opc role : Nat) (x : Option Half) : (s.start o opc role x).therm = s.therm := by simp [State.start]
@[simp] theorem start_veh (s : State) (o : Org) (opc role : Nat) (x : Option Half) : (s.start o opc role x).veh = s.veh := by simp [State.start]
@[simp] theorem start_vehG (s : State) (o : Org) (opc role : Nat) (x : Option Half) : (s.start o opc role x).vehG = s.vehG := by simp [State.start]
@[simp] theorem start_met (s : State) (o : Org) (opc role : Nat) (x : Option Half) : (s.start o opc role x).met = s.met := by simp [State.start]
@[simp] theorem start_bil (s : State) (o : Org) (opc role : Nat) (x : Option Half) : (s.start o opc role x).bil = s.bil := by simp [State.start]
@[simp] theorem start_lkt (s : State) (o : Org) (opc role : Nat) (x : Option Half) : (s.start o opc role x).lkt = s.lkt := by simp [State.start]
@[simp] theorem start_saf (s : State) (o : Org) (opc role : Nat) (x : Option Half) : (s.start o opc role x).saf = s.saf := by simp [State.start]
@[simp] theorem start_cans (s : State) (o : Org) (opc role : Nat) (x : Option Half) : (s.start o opc role x).cans = s.cans := by simp [State.start]
@[simp] theorem start_lsw (s : State) (o : Org) (opc role : Nat) (x : Option Half) : (s.start o opc role x).lsw = s.lsw := by simp [State.start]
@[simp] theorem start_mesh (s : State) (o : Org) (opc role : Nat) (x : Option Half) : (s.start o opc role x).mesh = s.mesh := by simp [State.start]
@[simp] theorem start_upd (s : State) (o : Org) (opc role : Nat) (x : Option Half) : (s.start o opc role x).upd = s.upd := by simp [State.start]
@[simp] theorem start_pwr (s : State) (o : Org) (opc role : Nat) (x : Option Half) : (s.start o opc role x).pwr = s.pwr := by simp [State.start]

@[simp] theorem completeAt_pending (s : State) (o : Org) (x : Half) (opc st : Nat) (fin : Bool) (p : List Nat) (t : Nat) : (s.completeAt o x opc st fin p t).pending = s.pending := by simp [State.completeAt]
@[simp] theorem completeAt_free (s : State) (o : Org) (x : Half) (opc st : Nat) (fin : Bool) (p : List Nat) (t : Nat) : (s.completeAt o x opc st fin p t).free = s.free := by simp [State.completeAt]
@[simp] theorem completeAt_regs (s : State) (o : Org) (x : Half) (opc st : Nat) (fin : Bool) (p : List Nat) (t : Nat) : (s.completeAt o x opc st fin p t).regs = s.regs := by simp [State.completeAt]
@[simp] theorem completeAt_shadow (s : State) (o : Org) (x : Half) (opc st : Nat) (fin : Bool) (p : List Nat) (t : Nat) : (s.completeAt o x opc st fin p t).shadow = s.shadow := by simp [State.completeAt]
@[simp] theorem completeAt_blocks (s : State) (o : Org) (x : Half) (opc st : Nat) (fin : Bool) (p : List Nat) (t : Nat) : (s.completeAt o x opc st fin p t).blocks = s.blocks := by simp [State.completeAt]
@[simp] theorem completeAt_ref (s : State) (o : Org) (x : Half) (opc st : Nat) (fin : Bool) (p : List Nat) (t : Nat) : (s.completeAt o x opc st fin p t).ref = s.ref := by simp [State.completeAt]
@[simp] theorem completeAt_ho (s : State) (o : Org) (x : Half) (opc st : Nat) (fin : Bool) (p : List Nat) (t : Nat) : (s.completeAt o x opc st fin p t).ho = s.ho := by simp [State.completeAt]
@[simp] theorem completeAt_pll (s : State) (o : Org) (x : Half) (opc st : Nat) (fin : Bool) (p : List Nat) (t : Nat) : (s.completeAt o x opc st fin p t).pll = s.pll := by simp [State.completeAt]
@[simp] theorem completeAt_rtc (s : State) (o : Org) (x : Half) (opc st : Nat) (fin : Bool) (p : List Nat) (t : Nat) : (s.completeAt o x opc st fin p t).rtc = s.rtc := by simp [State.completeAt]
@[simp] theorem completeAt_rems (s : State) (o : Org) (x : Half) (opc st : Nat) (fin : Bool) (p : List Nat) (t : Nat) : (s.completeAt o x opc st fin p t).rems = s.rems := by simp [State.completeAt]
@[simp] theorem completeAt_cabs (s : State) (o : Org) (x : Half) (opc st : Nat) (fin : Bool) (p : List Nat) (t : Nat) : (s.completeAt o x opc st fin p t).cabs = s.cabs := by simp [State.completeAt]
@[simp] theorem completeAt_therm (s : State) (o : Org) (x : Half) (opc st : Nat) (fin : Bool) (p : List Nat) (t : Nat) : (s.completeAt o x opc st fin p t).therm = s.therm := by simp [State.completeAt]
@[simp] theorem completeAt_veh (s : State) (o : Org) (x : Half) (opc st : Nat) (fin : Bool) (p : List Nat) (t : Nat) : (s.completeAt o x opc st fin p t).veh = s.veh := by simp [State.completeAt]
@[simp] theorem completeAt_vehG (s : State) (o : Org) (x : Half) (opc st : Nat) (fin : Bool) (p : List Nat) (t : Nat) : (s.completeAt o x opc st fin p t).vehG = s.vehG := by simp [State.completeAt]
@[simp] theorem completeAt_met (s : State) (o : Org) (x : Half) (opc st : Nat) (fin : Bool) (p : List Nat) (t : Nat) : (s.completeAt o x opc st fin p t).met = s.met := by simp [State.completeAt]
@[simp] theorem completeAt_bil (s : State) (o : Org) (x : Half) (opc st : Nat) (fin : Bool) (p : List Nat) (t : Nat) : (s.completeAt o x opc st fin p t).bil = s.bil := by simp [State.completeAt]
@[simp] theorem completeAt_lkt (s : State) (o : Org) (x : Half) (opc st : Nat) (fin : Bool) (p : List Nat) (t : Nat) : (s.completeAt o x opc st fin p t).lkt = s.lkt := by simp [State.completeAt]
@[simp] theorem completeAt_saf (s : State) (o : Org) (x : Half) (opc st : Nat) (fin : Bool) (p : List Nat) (t : Nat) : (s.completeAt o x opc st fin p t).saf = s.saf := by simp [State.completeAt]
@[simp] theorem completeAt_cans (s : State) (o : Org) (x : Half) (opc st : Nat) (fin : Bool) (p : List Nat) (t : Nat) : (s.completeAt o x opc st fin p t).cans = s.cans := by simp [State.completeAt]
@[simp] theorem completeAt_lsw (s : State) (o : Org) (x : Half) (opc st : Nat) (fin : Bool) (p : List Nat) (t : Nat) : (s.completeAt o x opc st fin p t).lsw = s.lsw := by simp [State.completeAt]
@[simp] theorem completeAt_mesh (s : State) (o : Org) (x : Half) (opc st : Nat) (fin : Bool) (p : List Nat) (t : Nat) : (s.completeAt o x opc st fin p t).mesh = s.mesh := by simp [State.completeAt]
@[simp] theorem completeAt_upd (s : State) (o : Org) (x : Half) (opc st : Nat) (fin : Bool) (p : List Nat) (t : Nat) : (s.completeAt o x opc st fin p t).upd = s.upd := by simp [State.completeAt]
@[simp] theorem completeAt_pwr (s : State) (o : Org) (x : Half) (opc st : Nat) (fin : Bool) (p : List Nat) (t : Nat) : (s.completeAt o x opc st fin p t).pwr = s.pwr := by simp [State.completeAt]

@[simp] theorem complete_pending (s : State) (o : Org) (x : Half) (opc st : Nat) (fin : Bool) (p : List Nat) : (s.complete o x opc st fin p).pending = s.pending := by simp [State.complete]
@[simp] theorem complete_free (s : State) (o : Org) (x : Half) (opc st : Nat) (fin : Bool) (p : List Nat) : (s.complete o x opc st fin p).free = s.free := by simp [State.complete]
@[simp] theorem complete_regs (s : State) (o : Org) (x : Half) (opc st : Nat) (fin : Bool) (p : List Nat) : (s.complete o x opc st fin p).regs = s.regs := by simp [State.complete]
@[simp] theorem complete_shadow (s : State) (o : Org) (x : Half) (opc st : Nat) (fin : Bool) (p : List Nat) : (s.complete o x opc st fin p).shadow = s.shadow := by simp [State.complete]
@[simp] theorem complete_blocks (s : State) (o : Org) (x : Half) (opc st : Nat) (fin : Bool) (p : List Nat) : (s.complete o x opc st fin p).blocks = s.blocks := by simp [State.complete]
@[simp] theorem complete_ref (s : State) (o : Org) (x : Half) (opc st : Nat) (fin : Bool) (p : List Nat) : (s.complete o x opc st fin p).ref = s.ref := by simp [State.complete]
@[simp] theorem complete_ho (s : State) (o : Org) (x : Half) (opc st : Nat) (fin : Bool) (p : List Nat) : (s.complete o x opc st fin p).ho = s.ho := by simp [State.complete]
@[simp] theorem complete_pll (s : State) (o : Org) (x : Half) (opc st : Nat) (fin : Bool) (p : List Nat) : (s.complete o x opc st fin p).pll = s.pll := by simp [State.complete]
@[simp] theorem complete_rtc (s : State) (o : Org) (x : Half) (opc st : Nat) (fin : Bool) (p : List Nat) : (s.complete o x opc st fin p).rtc = s.rtc := by simp [State.complete]
@[simp] theorem complete_rems (s : State) (o : Org) (x : Half) (opc st : Nat) (fin : Bool) (p : List Nat) : (s.complete o x opc st fin p).rems = s.rems := by simp [State.complete]
@[simp] theorem complete_cabs (s : State) (o : Org) (x : Half) (opc st : Nat) (fin : Bool) (p : List Nat) : (s.complete o x opc st fin p).cabs = s.cabs := by simp [State.complete]
@[simp] theorem complete_therm (s : State) (o : Org) (x : Half) (opc st : Nat) (fin : Bool) (p : List Nat) : (s.complete o x opc st fin p).therm = s.therm := by simp [State.complete]
@[simp] theorem complete_veh (s : State) (o : Org) (x : Half) (opc st : Nat) (fin : Bool) (p : List Nat) : (s.complete o x opc st fin p).veh = s.veh := by simp [State.complete]
@[simp] theorem complete_vehG (s : State) (o : Org) (x : Half) (opc st : Nat) (fin : Bool) (p : List Nat) : (s.complete o x opc st fin p).vehG = s.vehG := by simp [State.complete]
@[simp] theorem complete_met (s : State) (o : Org) (x : Half) (opc st : Nat) (fin : Bool) (p : List Nat) : (s.complete o x opc st fin p).met = s.met := by simp [State.complete]
@[simp] theorem complete_bil (s : State) (o : Org) (x : Half) (opc st : Nat) (fin : Bool) (p : List Nat) : (s.complete o x opc st fin p).bil = s.bil := by simp [State.complete]
@[simp] theorem complete_lkt (s : State) (o : Org) (x : Half) (opc st : Nat) (fin : Bool) (p : List Nat) : (s.complete o x opc st fin p).lkt = s.lkt := by simp [State.complete]
@[simp] theorem complete_saf (s : State) (o : Org) (x : Half) (opc st : Nat) (fin : Bool) (p : List Nat) : (s.complete o x opc st fin p).saf = s.saf := by simp [State.complete]
@[simp] theorem complete_cans (s : State) (o : Org) (x : Half) (opc st : Nat) (fin : Bool) (p : List Nat) : (s.complete o x opc st fin p).cans = s.cans := by simp [State.complete]
@[simp] theorem complete_lsw (s : State) (o : Org) (x : Half) (opc st : Nat) (fin : Bool) (p : List Nat) : (s.complete o x opc st fin p).lsw = s.lsw := by simp [State.complete]
@[simp] theorem complete_mesh (s : State) (o : Org) (x : Half) (opc st : Nat) (fin : Bool) (p : List Nat) : (s.complete o x opc st fin p).mesh = s.mesh := by simp [State.complete]
@[simp] theorem complete_upd (s : State) (o : Org) (x : Half) (opc st : Nat) (fin : Bool) (p : List Nat) : (s.complete o x opc st fin p).upd = s.upd := by simp [State.complete]
@[simp] theorem complete_pwr (s : State) (o : Org) (x : Half) (opc st : Nat) (fin : Bool) (p : List Nat) : (s.complete o x opc st fin p).pwr = s.pwr := by simp [State.complete]

/-! ### Updates of the registers and of the model's own fields -/

@[simp] theorem srg_pending (s : State) (b : Blk) (h : Half) (off : Nat) (v : Word) : (s.srg b h off v).pending = s.pending := rfl
@[simp] theorem srg_free (s : State) (b : Blk) (h : Half) (off : Nat) (v : Word) : (s.srg b h off v).free = s.free := rfl
@[simp] theorem srg_shadow (s : State) (b : Blk) (h : Half) (off : Nat) (v : Word) : (s.srg b h off v).shadow = s.shadow := rfl
@[simp] theorem srg_blocks (s : State) (b : Blk) (h : Half) (off : Nat) (v : Word) : (s.srg b h off v).blocks = s.blocks := rfl
@[simp] theorem srg_ref (s : State) (b : Blk) (h : Half) (off : Nat) (v : Word) : (s.srg b h off v).ref = s.ref := rfl
@[simp] theorem srg_ho (s : State) (b : Blk) (h : Half) (off : Nat) (v : Word) : (s.srg b h off v).ho = s.ho := rfl
@[simp] theorem srg_pll (s : State) (b : Blk) (h : Half) (off : Nat) (v : Word) : (s.srg b h off v).pll = s.pll := rfl
@[simp] theorem srg_rtc (s : State) (b : Blk) (h : Half) (off : Nat) (v : Word) : (s.srg b h off v).rtc = s.rtc := rfl
@[simp] theorem srg_rems (s : State) (b : Blk) (h : Half) (off : Nat) (v : Word) : (s.srg b h off v).rems = s.rems := rfl
@[simp] theorem srg_cabs (s : State) (b : Blk) (h : Half) (off : Nat) (v : Word) : (s.srg b h off v).cabs = s.cabs := rfl
@[simp] theorem srg_therm (s : State) (b : Blk) (h : Half) (off : Nat) (v : Word) : (s.srg b h off v).therm = s.therm := rfl
@[simp] theorem srg_veh (s : State) (b : Blk) (h : Half) (off : Nat) (v : Word) : (s.srg b h off v).veh = s.veh := rfl
@[simp] theorem srg_vehG (s : State) (b : Blk) (h : Half) (off : Nat) (v : Word) : (s.srg b h off v).vehG = s.vehG := rfl
@[simp] theorem srg_met (s : State) (b : Blk) (h : Half) (off : Nat) (v : Word) : (s.srg b h off v).met = s.met := rfl
@[simp] theorem srg_bil (s : State) (b : Blk) (h : Half) (off : Nat) (v : Word) : (s.srg b h off v).bil = s.bil := rfl
@[simp] theorem srg_lkt (s : State) (b : Blk) (h : Half) (off : Nat) (v : Word) : (s.srg b h off v).lkt = s.lkt := rfl
@[simp] theorem srg_saf (s : State) (b : Blk) (h : Half) (off : Nat) (v : Word) : (s.srg b h off v).saf = s.saf := rfl
@[simp] theorem srg_cans (s : State) (b : Blk) (h : Half) (off : Nat) (v : Word) : (s.srg b h off v).cans = s.cans := rfl
@[simp] theorem srg_lsw (s : State) (b : Blk) (h : Half) (off : Nat) (v : Word) : (s.srg b h off v).lsw = s.lsw := rfl
@[simp] theorem srg_mesh (s : State) (b : Blk) (h : Half) (off : Nat) (v : Word) : (s.srg b h off v).mesh = s.mesh := rfl
@[simp] theorem srg_upd (s : State) (b : Blk) (h : Half) (off : Nat) (v : Word) : (s.srg b h off v).upd = s.upd := rfl
@[simp] theorem srg_pwr (s : State) (b : Blk) (h : Half) (off : Nat) (v : Word) : (s.srg b h off v).pwr = s.pwr := rfl
@[simp] theorem srg_hf (s : State) (b : Blk) (h : Half) (off : Nat) (v : Word) (k : Half) : (s.srg b h off v).hf k = s.hf k := by cases k <;> rfl

@[simp] theorem srf_pending (s : State) (b : Blk) (h : Half) (off hi lo v : Nat) : (s.srf b h off hi lo v).pending = s.pending := rfl
@[simp] theorem srf_free (s : State) (b : Blk) (h : Half) (off hi lo v : Nat) : (s.srf b h off hi lo v).free = s.free := rfl
@[simp] theorem srf_shadow (s : State) (b : Blk) (h : Half) (off hi lo v : Nat) : (s.srf b h off hi lo v).shadow = s.shadow := rfl
@[simp] theorem srf_blocks (s : State) (b : Blk) (h : Half) (off hi lo v : Nat) : (s.srf b h off hi lo v).blocks = s.blocks := rfl
@[simp] theorem srf_ref (s : State) (b : Blk) (h : Half) (off hi lo v : Nat) : (s.srf b h off hi lo v).ref = s.ref := rfl
@[simp] theorem srf_ho (s : State) (b : Blk) (h : Half) (off hi lo v : Nat) : (s.srf b h off hi lo v).ho = s.ho := rfl
@[simp] theorem srf_pll (s : State) (b : Blk) (h : Half) (off hi lo v : Nat) : (s.srf b h off hi lo v).pll = s.pll := rfl
@[simp] theorem srf_rtc (s : State) (b : Blk) (h : Half) (off hi lo v : Nat) : (s.srf b h off hi lo v).rtc = s.rtc := rfl
@[simp] theorem srf_rems (s : State) (b : Blk) (h : Half) (off hi lo v : Nat) : (s.srf b h off hi lo v).rems = s.rems := rfl
@[simp] theorem srf_cabs (s : State) (b : Blk) (h : Half) (off hi lo v : Nat) : (s.srf b h off hi lo v).cabs = s.cabs := rfl
@[simp] theorem srf_therm (s : State) (b : Blk) (h : Half) (off hi lo v : Nat) : (s.srf b h off hi lo v).therm = s.therm := rfl
@[simp] theorem srf_veh (s : State) (b : Blk) (h : Half) (off hi lo v : Nat) : (s.srf b h off hi lo v).veh = s.veh := rfl
@[simp] theorem srf_vehG (s : State) (b : Blk) (h : Half) (off hi lo v : Nat) : (s.srf b h off hi lo v).vehG = s.vehG := rfl
@[simp] theorem srf_met (s : State) (b : Blk) (h : Half) (off hi lo v : Nat) : (s.srf b h off hi lo v).met = s.met := rfl
@[simp] theorem srf_bil (s : State) (b : Blk) (h : Half) (off hi lo v : Nat) : (s.srf b h off hi lo v).bil = s.bil := rfl
@[simp] theorem srf_lkt (s : State) (b : Blk) (h : Half) (off hi lo v : Nat) : (s.srf b h off hi lo v).lkt = s.lkt := rfl
@[simp] theorem srf_saf (s : State) (b : Blk) (h : Half) (off hi lo v : Nat) : (s.srf b h off hi lo v).saf = s.saf := rfl
@[simp] theorem srf_cans (s : State) (b : Blk) (h : Half) (off hi lo v : Nat) : (s.srf b h off hi lo v).cans = s.cans := rfl
@[simp] theorem srf_lsw (s : State) (b : Blk) (h : Half) (off hi lo v : Nat) : (s.srf b h off hi lo v).lsw = s.lsw := rfl
@[simp] theorem srf_mesh (s : State) (b : Blk) (h : Half) (off hi lo v : Nat) : (s.srf b h off hi lo v).mesh = s.mesh := rfl
@[simp] theorem srf_upd (s : State) (b : Blk) (h : Half) (off hi lo v : Nat) : (s.srf b h off hi lo v).upd = s.upd := rfl
@[simp] theorem srf_pwr (s : State) (b : Blk) (h : Half) (off hi lo v : Nat) : (s.srf b h off hi lo v).pwr = s.pwr := rfl
@[simp] theorem srf_hf (s : State) (b : Blk) (h : Half) (off hi lo v : Nat) (k : Half) : (s.srf b h off hi lo v).hf k = s.hf k := by cases k <;> rfl

@[simp] theorem bump_pending (s : State) (b : Blk) (h : Half) (off n : Nat) : (s.bump b h off n).pending = s.pending := rfl
@[simp] theorem bump_free (s : State) (b : Blk) (h : Half) (off n : Nat) : (s.bump b h off n).free = s.free := rfl
@[simp] theorem bump_shadow (s : State) (b : Blk) (h : Half) (off n : Nat) : (s.bump b h off n).shadow = s.shadow := rfl
@[simp] theorem bump_blocks (s : State) (b : Blk) (h : Half) (off n : Nat) : (s.bump b h off n).blocks = s.blocks := rfl
@[simp] theorem bump_ref (s : State) (b : Blk) (h : Half) (off n : Nat) : (s.bump b h off n).ref = s.ref := rfl
@[simp] theorem bump_ho (s : State) (b : Blk) (h : Half) (off n : Nat) : (s.bump b h off n).ho = s.ho := rfl
@[simp] theorem bump_pll (s : State) (b : Blk) (h : Half) (off n : Nat) : (s.bump b h off n).pll = s.pll := rfl
@[simp] theorem bump_rtc (s : State) (b : Blk) (h : Half) (off n : Nat) : (s.bump b h off n).rtc = s.rtc := rfl
@[simp] theorem bump_rems (s : State) (b : Blk) (h : Half) (off n : Nat) : (s.bump b h off n).rems = s.rems := rfl
@[simp] theorem bump_cabs (s : State) (b : Blk) (h : Half) (off n : Nat) : (s.bump b h off n).cabs = s.cabs := rfl
@[simp] theorem bump_therm (s : State) (b : Blk) (h : Half) (off n : Nat) : (s.bump b h off n).therm = s.therm := rfl
@[simp] theorem bump_veh (s : State) (b : Blk) (h : Half) (off n : Nat) : (s.bump b h off n).veh = s.veh := rfl
@[simp] theorem bump_vehG (s : State) (b : Blk) (h : Half) (off n : Nat) : (s.bump b h off n).vehG = s.vehG := rfl
@[simp] theorem bump_met (s : State) (b : Blk) (h : Half) (off n : Nat) : (s.bump b h off n).met = s.met := rfl
@[simp] theorem bump_bil (s : State) (b : Blk) (h : Half) (off n : Nat) : (s.bump b h off n).bil = s.bil := rfl
@[simp] theorem bump_lkt (s : State) (b : Blk) (h : Half) (off n : Nat) : (s.bump b h off n).lkt = s.lkt := rfl
@[simp] theorem bump_saf (s : State) (b : Blk) (h : Half) (off n : Nat) : (s.bump b h off n).saf = s.saf := rfl
@[simp] theorem bump_cans (s : State) (b : Blk) (h : Half) (off n : Nat) : (s.bump b h off n).cans = s.cans := rfl
@[simp] theorem bump_lsw (s : State) (b : Blk) (h : Half) (off n : Nat) : (s.bump b h off n).lsw = s.lsw := rfl
@[simp] theorem bump_mesh (s : State) (b : Blk) (h : Half) (off n : Nat) : (s.bump b h off n).mesh = s.mesh := rfl
@[simp] theorem bump_upd (s : State) (b : Blk) (h : Half) (off n : Nat) : (s.bump b h off n).upd = s.upd := rfl
@[simp] theorem bump_pwr (s : State) (b : Blk) (h : Half) (off n : Nat) : (s.bump b h off n).pwr = s.pwr := rfl
@[simp] theorem bump_hf (s : State) (b : Blk) (h : Half) (off n : Nat) (k : Half) : (s.bump b h off n).hf k = s.hf k := by cases k <;> rfl

@[simp] theorem mBlk_pending (s : State) (b : Blk) (h : Half) (f : BlockDyn → BlockDyn) : (s.mBlk b h f).pending = s.pending := rfl
@[simp] theorem mBlk_free (s : State) (b : Blk) (h : Half) (f : BlockDyn → BlockDyn) : (s.mBlk b h f).free = s.free := rfl
@[simp] theorem mBlk_regs (s : State) (b : Blk) (h : Half) (f : BlockDyn → BlockDyn) : (s.mBlk b h f).regs = s.regs := rfl
@[simp] theorem mBlk_shadow (s : State) (b : Blk) (h : Half) (f : BlockDyn → BlockDyn) : (s.mBlk b h f).shadow = s.shadow := rfl
@[simp] theorem mBlk_ref (s : State) (b : Blk) (h : Half) (f : BlockDyn → BlockDyn) : (s.mBlk b h f).ref = s.ref := rfl
@[simp] theorem mBlk_ho (s : State) (b : Blk) (h : Half) (f : BlockDyn → BlockDyn) : (s.mBlk b h f).ho = s.ho := rfl
@[simp] theorem mBlk_pll (s : State) (b : Blk) (h : Half) (f : BlockDyn → BlockDyn) : (s.mBlk b h f).pll = s.pll := rfl
@[simp] theorem mBlk_rtc (s : State) (b : Blk) (h : Half) (f : BlockDyn → BlockDyn) : (s.mBlk b h f).rtc = s.rtc := rfl
@[simp] theorem mBlk_rems (s : State) (b : Blk) (h : Half) (f : BlockDyn → BlockDyn) : (s.mBlk b h f).rems = s.rems := rfl
@[simp] theorem mBlk_cabs (s : State) (b : Blk) (h : Half) (f : BlockDyn → BlockDyn) : (s.mBlk b h f).cabs = s.cabs := rfl
@[simp] theorem mBlk_therm (s : State) (b : Blk) (h : Half) (f : BlockDyn → BlockDyn) : (s.mBlk b h f).therm = s.therm := rfl
@[simp] theorem mBlk_veh (s : State) (b : Blk) (h : Half) (f : BlockDyn → BlockDyn) : (s.mBlk b h f).veh = s.veh := rfl
@[simp] theorem mBlk_vehG (s : State) (b : Blk) (h : Half) (f : BlockDyn → BlockDyn) : (s.mBlk b h f).vehG = s.vehG := rfl
@[simp] theorem mBlk_met (s : State) (b : Blk) (h : Half) (f : BlockDyn → BlockDyn) : (s.mBlk b h f).met = s.met := rfl
@[simp] theorem mBlk_bil (s : State) (b : Blk) (h : Half) (f : BlockDyn → BlockDyn) : (s.mBlk b h f).bil = s.bil := rfl
@[simp] theorem mBlk_lkt (s : State) (b : Blk) (h : Half) (f : BlockDyn → BlockDyn) : (s.mBlk b h f).lkt = s.lkt := rfl
@[simp] theorem mBlk_saf (s : State) (b : Blk) (h : Half) (f : BlockDyn → BlockDyn) : (s.mBlk b h f).saf = s.saf := rfl
@[simp] theorem mBlk_cans (s : State) (b : Blk) (h : Half) (f : BlockDyn → BlockDyn) : (s.mBlk b h f).cans = s.cans := rfl
@[simp] theorem mBlk_lsw (s : State) (b : Blk) (h : Half) (f : BlockDyn → BlockDyn) : (s.mBlk b h f).lsw = s.lsw := rfl
@[simp] theorem mBlk_mesh (s : State) (b : Blk) (h : Half) (f : BlockDyn → BlockDyn) : (s.mBlk b h f).mesh = s.mesh := rfl
@[simp] theorem mBlk_upd (s : State) (b : Blk) (h : Half) (f : BlockDyn → BlockDyn) : (s.mBlk b h f).upd = s.upd := rfl
@[simp] theorem mBlk_pwr (s : State) (b : Blk) (h : Half) (f : BlockDyn → BlockDyn) : (s.mBlk b h f).pwr = s.pwr := rfl
@[simp] theorem mBlk_hf (s : State) (b : Blk) (h : Half) (f : BlockDyn → BlockDyn) (k : Half) : (s.mBlk b h f).hf k = s.hf k := by cases k <;> rfl

@[simp] theorem drew_pending (s : State) (n : Nat) : (s.drew n).pending = s.pending := rfl
@[simp] theorem drew_regs (s : State) (n : Nat) : (s.drew n).regs = s.regs := rfl
@[simp] theorem drew_shadow (s : State) (n : Nat) : (s.drew n).shadow = s.shadow := rfl
@[simp] theorem drew_blocks (s : State) (n : Nat) : (s.drew n).blocks = s.blocks := rfl
@[simp] theorem drew_ref (s : State) (n : Nat) : (s.drew n).ref = s.ref := rfl
@[simp] theorem drew_ho (s : State) (n : Nat) : (s.drew n).ho = s.ho := rfl
@[simp] theorem drew_pll (s : State) (n : Nat) : (s.drew n).pll = s.pll := rfl
@[simp] theorem drew_rtc (s : State) (n : Nat) : (s.drew n).rtc = s.rtc := rfl
@[simp] theorem drew_rems (s : State) (n : Nat) : (s.drew n).rems = s.rems := rfl
@[simp] theorem drew_cabs (s : State) (n : Nat) : (s.drew n).cabs = s.cabs := rfl
@[simp] theorem drew_therm (s : State) (n : Nat) : (s.drew n).therm = s.therm := rfl
@[simp] theorem drew_veh (s : State) (n : Nat) : (s.drew n).veh = s.veh := rfl
@[simp] theorem drew_vehG (s : State) (n : Nat) : (s.drew n).vehG = s.vehG := rfl
@[simp] theorem drew_met (s : State) (n : Nat) : (s.drew n).met = s.met := rfl
@[simp] theorem drew_bil (s : State) (n : Nat) : (s.drew n).bil = s.bil := rfl
@[simp] theorem drew_lkt (s : State) (n : Nat) : (s.drew n).lkt = s.lkt := rfl
@[simp] theorem drew_saf (s : State) (n : Nat) : (s.drew n).saf = s.saf := rfl
@[simp] theorem drew_cans (s : State) (n : Nat) : (s.drew n).cans = s.cans := rfl
@[simp] theorem drew_lsw (s : State) (n : Nat) : (s.drew n).lsw = s.lsw := rfl
@[simp] theorem drew_mesh (s : State) (n : Nat) : (s.drew n).mesh = s.mesh := rfl
@[simp] theorem drew_upd (s : State) (n : Nat) : (s.drew n).upd = s.upd := rfl
@[simp] theorem drew_pwr (s : State) (n : Nat) : (s.drew n).pwr = s.pwr := rfl
@[simp] theorem drew_hf (s : State) (n : Nat) (k : Half) : (s.drew n).hf k = s.hf k := by cases k <;> rfl

@[simp] theorem mRem_pending (s : State) (p : Nat) (f : Remote → Remote) : (s.mRem p f).pending = s.pending := rfl
@[simp] theorem mRem_free (s : State) (p : Nat) (f : Remote → Remote) : (s.mRem p f).free = s.free := rfl
@[simp] theorem mRem_regs (s : State) (p : Nat) (f : Remote → Remote) : (s.mRem p f).regs = s.regs := rfl
@[simp] theorem mRem_shadow (s : State) (p : Nat) (f : Remote → Remote) : (s.mRem p f).shadow = s.shadow := rfl
@[simp] theorem mRem_blocks (s : State) (p : Nat) (f : Remote → Remote) : (s.mRem p f).blocks = s.blocks := rfl
@[simp] theorem mRem_ref (s : State) (p : Nat) (f : Remote → Remote) : (s.mRem p f).ref = s.ref := rfl
@[simp] theorem mRem_ho (s : State) (p : Nat) (f : Remote → Remote) : (s.mRem p f).ho = s.ho := rfl
@[simp] theorem mRem_pll (s : State) (p : Nat) (f : Remote → Remote) : (s.mRem p f).pll = s.pll := rfl
@[simp] theorem mRem_rtc (s : State) (p : Nat) (f : Remote → Remote) : (s.mRem p f).rtc = s.rtc := rfl
@[simp] theorem mRem_cabs (s : State) (p : Nat) (f : Remote → Remote) : (s.mRem p f).cabs = s.cabs := rfl
@[simp] theorem mRem_therm (s : State) (p : Nat) (f : Remote → Remote) : (s.mRem p f).therm = s.therm := rfl
@[simp] theorem mRem_veh (s : State) (p : Nat) (f : Remote → Remote) : (s.mRem p f).veh = s.veh := rfl
@[simp] theorem mRem_vehG (s : State) (p : Nat) (f : Remote → Remote) : (s.mRem p f).vehG = s.vehG := rfl
@[simp] theorem mRem_met (s : State) (p : Nat) (f : Remote → Remote) : (s.mRem p f).met = s.met := rfl
@[simp] theorem mRem_bil (s : State) (p : Nat) (f : Remote → Remote) : (s.mRem p f).bil = s.bil := rfl
@[simp] theorem mRem_lkt (s : State) (p : Nat) (f : Remote → Remote) : (s.mRem p f).lkt = s.lkt := rfl
@[simp] theorem mRem_saf (s : State) (p : Nat) (f : Remote → Remote) : (s.mRem p f).saf = s.saf := rfl
@[simp] theorem mRem_cans (s : State) (p : Nat) (f : Remote → Remote) : (s.mRem p f).cans = s.cans := rfl
@[simp] theorem mRem_lsw (s : State) (p : Nat) (f : Remote → Remote) : (s.mRem p f).lsw = s.lsw := rfl
@[simp] theorem mRem_mesh (s : State) (p : Nat) (f : Remote → Remote) : (s.mRem p f).mesh = s.mesh := rfl
@[simp] theorem mRem_upd (s : State) (p : Nat) (f : Remote → Remote) : (s.mRem p f).upd = s.upd := rfl
@[simp] theorem mRem_pwr (s : State) (p : Nat) (f : Remote → Remote) : (s.mRem p f).pwr = s.pwr := rfl
@[simp] theorem mRem_hf (s : State) (p : Nat) (f : Remote → Remote) (k : Half) : (s.mRem p f).hf k = s.hf k := by cases k <;> rfl

/-! ### Updates of one unit of a half leave its other units -/

@[simp] theorem mTck_hf_stg (s : State) (h : Half) (f : TckS → TckS) (k : Half) : ((s.mTck h f).hf k).stg = (s.hf k).stg := by cases h <;> cases k <;> rfl
@[simp] theorem mTck_hf_pts (s : State) (h : Half) (f : TckS → TckS) (k : Half) : ((s.mTck h f).hf k).pts = (s.hf k).pts := by cases h <;> cases k <;> rfl
@[simp] theorem mTck_hf_saved (s : State) (h : Half) (f : TckS → TckS) (k : Half) : ((s.mTck h f).hf k).saved = (s.hf k).saved := by cases h <;> cases k <;> rfl
@[simp] theorem mTck_hf_mirOut (s : State) (h : Half) (f : TckS → TckS) (k : Half) : ((s.mTck h f).hf k).mirOut = (s.hf k).mirOut := by cases h <;> cases k <;> rfl
@[simp] theorem mTck_hf_restWait (s : State) (h : Half) (f : TckS → TckS) (k : Half) : ((s.mTck h f).hf k).restWait = (s.hf k).restWait := by cases h <;> cases k <;> rfl
@[simp] theorem mTck_hf_part (s : State) (h : Half) (f : TckS → TckS) (k : Half) : ((s.mTck h f).hf k).part = (s.hf k).part := by cases h <;> cases k <;> rfl
@[simp] theorem mTck_hf_ports (s : State) (h : Half) (f : TckS → TckS) (k : Half) : ((s.mTck h f).hf k).ports = (s.hf k).ports := by cases h <;> cases k <;> rfl
@[simp] theorem mTck_hf_bulk (s : State) (h : Half) (f : TckS → TckS) (k : Half) : ((s.mTck h f).hf k).bulk = (s.hf k).bulk := by cases h <;> cases k <;> rfl
@[simp] theorem mTck_hf_twn (s : State) (h : Half) (f : TckS → TckS) (k : Half) : ((s.mTck h f).hf k).twn = (s.hf k).twn := by cases h <;> cases k <;> rfl
@[simp] theorem mTck_hf_cln (s : State) (h : Half) (f : TckS → TckS) (k : Half) : ((s.mTck h f).hf k).cln = (s.hf k).cln := by cases h <;> cases k <;> rfl
@[simp] theorem mTck_hf_pst (s : State) (h : Half) (f : TckS → TckS) (k : Half) : ((s.mTck h f).hf k).pst = (s.hf k).pst := by cases h <;> cases k <;> rfl
@[simp] theorem mTck_hf_cnp (s : State) (h : Half) (f : TckS → TckS) (k : Half) : ((s.mTck h f).hf k).cnp = (s.hf k).cnp := by cases h <;> cases k <;> rfl
@[simp] theorem mTck_hf_saf (s : State) (h : Half) (f : TckS → TckS) (k : Half) : ((s.mTck h f).hf k).saf = (s.hf k).saf := by cases h <;> cases k <;> rfl
@[simp] theorem mTck_hf_pub (s : State) (h : Half) (f : TckS → TckS) (k : Half) : ((s.mTck h f).hf k).pub = (s.hf k).pub := by cases h <;> cases k <;> rfl
@[simp] theorem mTck_hf_thm (s : State) (h : Half) (f : TckS → TckS) (k : Half) : ((s.mTck h f).hf k).thm = (s.hf k).thm := by cases h <;> cases k <;> rfl
@[simp] theorem mTck_hf_mbx (s : State) (h : Half) (f : TckS → TckS) (k : Half) : ((s.mTck h f).hf k).mbx = (s.hf k).mbx := by cases h <;> cases k <;> rfl
@[simp] theorem mTck_hf_tmr (s : State) (h : Half) (f : TckS → TckS) (k : Half) : ((s.mTck h f).hf k).tmr = (s.hf k).tmr := by cases h <;> cases k <;> rfl

@[simp] theorem mTwn_hf_tck (s : State) (h : Half) (f : TwnS → TwnS) (k : Half) : ((s.mTwn h f).hf k).tck = (s.hf k).tck := by cases h <;> cases k <;> rfl
@[simp] theorem mTwn_hf_stg (s : State) (h : Half) (f : TwnS → TwnS) (k : Half) : ((s.mTwn h f).hf k).stg = (s.hf k).stg := by cases h <;> cases k <;> rfl
@[simp] theorem mTwn_hf_pts (s : State) (h : Half) (f : TwnS → TwnS) (k : Half) : ((s.mTwn h f).hf k).pts = (s.hf k).pts := by cases h <;> cases k <;> rfl
@[simp] theorem mTwn_hf_saved (s : State) (h : Half) (f : TwnS → TwnS) (k : Half) : ((s.mTwn h f).hf k).saved = (s.hf k).saved := by cases h <;> cases k <;> rfl
@[simp] theorem mTwn_hf_mirOut (s : State) (h : Half) (f : TwnS → TwnS) (k : Half) : ((s.mTwn h f).hf k).mirOut = (s.hf k).mirOut := by cases h <;> cases k <;> rfl
@[simp] theorem mTwn_hf_restWait (s : State) (h : Half) (f : TwnS → TwnS) (k : Half) : ((s.mTwn h f).hf k).restWait = (s.hf k).restWait := by cases h <;> cases k <;> rfl
@[simp] theorem mTwn_hf_part (s : State) (h : Half) (f : TwnS → TwnS) (k : Half) : ((s.mTwn h f).hf k).part = (s.hf k).part := by cases h <;> cases k <;> rfl
@[simp] theorem mTwn_hf_ports (s : State) (h : Half) (f : TwnS → TwnS) (k : Half) : ((s.mTwn h f).hf k).ports = (s.hf k).ports := by cases h <;> cases k <;> rfl
@[simp] theorem mTwn_hf_bulk (s : State) (h : Half) (f : TwnS → TwnS) (k : Half) : ((s.mTwn h f).hf k).bulk = (s.hf k).bulk := by cases h <;> cases k <;> rfl
@[simp] theorem mTwn_hf_cln (s : State) (h : Half) (f : TwnS → TwnS) (k : Half) : ((s.mTwn h f).hf k).cln = (s.hf k).cln := by cases h <;> cases k <;> rfl
@[simp] theorem mTwn_hf_pst (s : State) (h : Half) (f : TwnS → TwnS) (k : Half) : ((s.mTwn h f).hf k).pst = (s.hf k).pst := by cases h <;> cases k <;> rfl
@[simp] theorem mTwn_hf_cnp (s : State) (h : Half) (f : TwnS → TwnS) (k : Half) : ((s.mTwn h f).hf k).cnp = (s.hf k).cnp := by cases h <;> cases k <;> rfl
@[simp] theorem mTwn_hf_saf (s : State) (h : Half) (f : TwnS → TwnS) (k : Half) : ((s.mTwn h f).hf k).saf = (s.hf k).saf := by cases h <;> cases k <;> rfl
@[simp] theorem mTwn_hf_pub (s : State) (h : Half) (f : TwnS → TwnS) (k : Half) : ((s.mTwn h f).hf k).pub = (s.hf k).pub := by cases h <;> cases k <;> rfl
@[simp] theorem mTwn_hf_thm (s : State) (h : Half) (f : TwnS → TwnS) (k : Half) : ((s.mTwn h f).hf k).thm = (s.hf k).thm := by cases h <;> cases k <;> rfl
@[simp] theorem mTwn_hf_mbx (s : State) (h : Half) (f : TwnS → TwnS) (k : Half) : ((s.mTwn h f).hf k).mbx = (s.hf k).mbx := by cases h <;> cases k <;> rfl
@[simp] theorem mTwn_hf_tmr (s : State) (h : Half) (f : TwnS → TwnS) (k : Half) : ((s.mTwn h f).hf k).tmr = (s.hf k).tmr := by cases h <;> cases k <;> rfl

@[simp] theorem mMbx_hf_tck (s : State) (h : Half) (f : MbxS → MbxS) (k : Half) : ((s.mMbx h f).hf k).tck = (s.hf k).tck := by cases h <;> cases k <;> rfl
@[simp] theorem mMbx_hf_stg (s : State) (h : Half) (f : MbxS → MbxS) (k : Half) : ((s.mMbx h f).hf k).stg = (s.hf k).stg := by cases h <;> cases k <;> rfl
@[simp] theorem mMbx_hf_pts (s : State) (h : Half) (f : MbxS → MbxS) (k : Half) : ((s.mMbx h f).hf k).pts = (s.hf k).pts := by cases h <;> cases k <;> rfl
@[simp] theorem mMbx_hf_saved (s : State) (h : Half) (f : MbxS → MbxS) (k : Half) : ((s.mMbx h f).hf k).saved = (s.hf k).saved := by cases h <;> cases k <;> rfl
@[simp] theorem mMbx_hf_mirOut (s : State) (h : Half) (f : MbxS → MbxS) (k : Half) : ((s.mMbx h f).hf k).mirOut = (s.hf k).mirOut := by cases h <;> cases k <;> rfl
@[simp] theorem mMbx_hf_restWait (s : State) (h : Half) (f : MbxS → MbxS) (k : Half) : ((s.mMbx h f).hf k).restWait = (s.hf k).restWait := by cases h <;> cases k <;> rfl
@[simp] theorem mMbx_hf_part (s : State) (h : Half) (f : MbxS → MbxS) (k : Half) : ((s.mMbx h f).hf k).part = (s.hf k).part := by cases h <;> cases k <;> rfl
@[simp] theorem mMbx_hf_ports (s : State) (h : Half) (f : MbxS → MbxS) (k : Half) : ((s.mMbx h f).hf k).ports = (s.hf k).ports := by cases h <;> cases k <;> rfl
@[simp] theorem mMbx_hf_bulk (s : State) (h : Half) (f : MbxS → MbxS) (k : Half) : ((s.mMbx h f).hf k).bulk = (s.hf k).bulk := by cases h <;> cases k <;> rfl
@[simp] theorem mMbx_hf_twn (s : State) (h : Half) (f : MbxS → MbxS) (k : Half) : ((s.mMbx h f).hf k).twn = (s.hf k).twn := by cases h <;> cases k <;> rfl
@[simp] theorem mMbx_hf_cln (s : State) (h : Half) (f : MbxS → MbxS) (k : Half) : ((s.mMbx h f).hf k).cln = (s.hf k).cln := by cases h <;> cases k <;> rfl
@[simp] theorem mMbx_hf_pst (s : State) (h : Half) (f : MbxS → MbxS) (k : Half) : ((s.mMbx h f).hf k).pst = (s.hf k).pst := by cases h <;> cases k <;> rfl
@[simp] theorem mMbx_hf_cnp (s : State) (h : Half) (f : MbxS → MbxS) (k : Half) : ((s.mMbx h f).hf k).cnp = (s.hf k).cnp := by cases h <;> cases k <;> rfl
@[simp] theorem mMbx_hf_saf (s : State) (h : Half) (f : MbxS → MbxS) (k : Half) : ((s.mMbx h f).hf k).saf = (s.hf k).saf := by cases h <;> cases k <;> rfl
@[simp] theorem mMbx_hf_pub (s : State) (h : Half) (f : MbxS → MbxS) (k : Half) : ((s.mMbx h f).hf k).pub = (s.hf k).pub := by cases h <;> cases k <;> rfl
@[simp] theorem mMbx_hf_thm (s : State) (h : Half) (f : MbxS → MbxS) (k : Half) : ((s.mMbx h f).hf k).thm = (s.hf k).thm := by cases h <;> cases k <;> rfl
@[simp] theorem mMbx_hf_tmr (s : State) (h : Half) (f : MbxS → MbxS) (k : Half) : ((s.mMbx h f).hf k).tmr = (s.hf k).tmr := by cases h <;> cases k <;> rfl

@[simp] theorem mPort_hf_tck (s : State) (h : Half) (p : Nat) (f : PortS → PortS) (k : Half) : ((s.mPort h p f).hf k).tck = (s.hf k).tck := by cases h <;> cases k <;> rfl
@[simp] theorem mPort_hf_stg (s : State) (h : Half) (p : Nat) (f : PortS → PortS) (k : Half) : ((s.mPort h p f).hf k).stg = (s.hf k).stg := by cases h <;> cases k <;> rfl
@[simp] theorem mPort_hf_pts (s : State) (h : Half) (p : Nat) (f : PortS → PortS) (k : Half) : ((s.mPort h p f).hf k).pts = (s.hf k).pts := by cases h <;> cases k <;> rfl
@[simp] theorem mPort_hf_saved (s : State) (h : Half) (p : Nat) (f : PortS → PortS) (k : Half) : ((s.mPort h p f).hf k).saved = (s.hf k).saved := by cases h <;> cases k <;> rfl
@[simp] theorem mPort_hf_mirOut (s : State) (h : Half) (p : Nat) (f : PortS → PortS) (k : Half) : ((s.mPort h p f).hf k).mirOut = (s.hf k).mirOut := by cases h <;> cases k <;> rfl
@[simp] theorem mPort_hf_restWait (s : State) (h : Half) (p : Nat) (f : PortS → PortS) (k : Half) : ((s.mPort h p f).hf k).restWait = (s.hf k).restWait := by cases h <;> cases k <;> rfl
@[simp] theorem mPort_hf_part (s : State) (h : Half) (p : Nat) (f : PortS → PortS) (k : Half) : ((s.mPort h p f).hf k).part = (s.hf k).part := by cases h <;> cases k <;> rfl
@[simp] theorem mPort_hf_bulk (s : State) (h : Half) (p : Nat) (f : PortS → PortS) (k : Half) : ((s.mPort h p f).hf k).bulk = (s.hf k).bulk := by cases h <;> cases k <;> rfl
@[simp] theorem mPort_hf_twn (s : State) (h : Half) (p : Nat) (f : PortS → PortS) (k : Half) : ((s.mPort h p f).hf k).twn = (s.hf k).twn := by cases h <;> cases k <;> rfl
@[simp] theorem mPort_hf_cln (s : State) (h : Half) (p : Nat) (f : PortS → PortS) (k : Half) : ((s.mPort h p f).hf k).cln = (s.hf k).cln := by cases h <;> cases k <;> rfl
@[simp] theorem mPort_hf_pst (s : State) (h : Half) (p : Nat) (f : PortS → PortS) (k : Half) : ((s.mPort h p f).hf k).pst = (s.hf k).pst := by cases h <;> cases k <;> rfl
@[simp] theorem mPort_hf_cnp (s : State) (h : Half) (p : Nat) (f : PortS → PortS) (k : Half) : ((s.mPort h p f).hf k).cnp = (s.hf k).cnp := by cases h <;> cases k <;> rfl
@[simp] theorem mPort_hf_saf (s : State) (h : Half) (p : Nat) (f : PortS → PortS) (k : Half) : ((s.mPort h p f).hf k).saf = (s.hf k).saf := by cases h <;> cases k <;> rfl
@[simp] theorem mPort_hf_pub (s : State) (h : Half) (p : Nat) (f : PortS → PortS) (k : Half) : ((s.mPort h p f).hf k).pub = (s.hf k).pub := by cases h <;> cases k <;> rfl
@[simp] theorem mPort_hf_thm (s : State) (h : Half) (p : Nat) (f : PortS → PortS) (k : Half) : ((s.mPort h p f).hf k).thm = (s.hf k).thm := by cases h <;> cases k <;> rfl
@[simp] theorem mPort_hf_mbx (s : State) (h : Half) (p : Nat) (f : PortS → PortS) (k : Half) : ((s.mPort h p f).hf k).mbx = (s.hf k).mbx := by cases h <;> cases k <;> rfl
@[simp] theorem mPort_hf_tmr (s : State) (h : Half) (p : Nat) (f : PortS → PortS) (k : Half) : ((s.mPort h p f).hf k).tmr = (s.hf k).tmr := by cases h <;> cases k <;> rfl

@[simp] theorem mRing_hf_tck (s : State) (h : Half) (n : Nat) (f : RingS → RingS) (k : Half) : ((s.mRing h n f).hf k).tck = (s.hf k).tck := by cases h <;> cases k <;> rfl
@[simp] theorem mRing_hf_stg (s : State) (h : Half) (n : Nat) (f : RingS → RingS) (k : Half) : ((s.mRing h n f).hf k).stg = (s.hf k).stg := by cases h <;> cases k <;> rfl
@[simp] theorem mRing_hf_pts (s : State) (h : Half) (n : Nat) (f : RingS → RingS) (k : Half) : ((s.mRing h n f).hf k).pts = (s.hf k).pts := by cases h <;> cases k <;> rfl
@[simp] theorem mRing_hf_saved (s : State) (h : Half) (n : Nat) (f : RingS → RingS) (k : Half) : ((s.mRing h n f).hf k).saved = (s.hf k).saved := by cases h <;> cases k <;> rfl
@[simp] theorem mRing_hf_mirOut (s : State) (h : Half) (n : Nat) (f : RingS → RingS) (k : Half) : ((s.mRing h n f).hf k).mirOut = (s.hf k).mirOut := by cases h <;> cases k <;> rfl
@[simp] theorem mRing_hf_restWait (s : State) (h : Half) (n : Nat) (f : RingS → RingS) (k : Half) : ((s.mRing h n f).hf k).restWait = (s.hf k).restWait := by cases h <;> cases k <;> rfl
@[simp] theorem mRing_hf_part (s : State) (h : Half) (n : Nat) (f : RingS → RingS) (k : Half) : ((s.mRing h n f).hf k).part = (s.hf k).part := by cases h <;> cases k <;> rfl
@[simp] theorem mRing_hf_ports (s : State) (h : Half) (n : Nat) (f : RingS → RingS) (k : Half) : ((s.mRing h n f).hf k).ports = (s.hf k).ports := by cases h <;> cases k <;> rfl
@[simp] theorem mRing_hf_bulk (s : State) (h : Half) (n : Nat) (f : RingS → RingS) (k : Half) : ((s.mRing h n f).hf k).bulk = (s.hf k).bulk := by cases h <;> cases k <;> rfl
@[simp] theorem mRing_hf_twn (s : State) (h : Half) (n : Nat) (f : RingS → RingS) (k : Half) : ((s.mRing h n f).hf k).twn = (s.hf k).twn := by cases h <;> cases k <;> rfl
@[simp] theorem mRing_hf_cln (s : State) (h : Half) (n : Nat) (f : RingS → RingS) (k : Half) : ((s.mRing h n f).hf k).cln = (s.hf k).cln := by cases h <;> cases k <;> rfl
@[simp] theorem mRing_hf_pst (s : State) (h : Half) (n : Nat) (f : RingS → RingS) (k : Half) : ((s.mRing h n f).hf k).pst = (s.hf k).pst := by cases h <;> cases k <;> rfl
@[simp] theorem mRing_hf_cnp (s : State) (h : Half) (n : Nat) (f : RingS → RingS) (k : Half) : ((s.mRing h n f).hf k).cnp = (s.hf k).cnp := by cases h <;> cases k <;> rfl
@[simp] theorem mRing_hf_saf (s : State) (h : Half) (n : Nat) (f : RingS → RingS) (k : Half) : ((s.mRing h n f).hf k).saf = (s.hf k).saf := by cases h <;> cases k <;> rfl
@[simp] theorem mRing_hf_pub (s : State) (h : Half) (n : Nat) (f : RingS → RingS) (k : Half) : ((s.mRing h n f).hf k).pub = (s.hf k).pub := by cases h <;> cases k <;> rfl
@[simp] theorem mRing_hf_thm (s : State) (h : Half) (n : Nat) (f : RingS → RingS) (k : Half) : ((s.mRing h n f).hf k).thm = (s.hf k).thm := by cases h <;> cases k <;> rfl
@[simp] theorem mRing_hf_tmr (s : State) (h : Half) (n : Nat) (f : RingS → RingS) (k : Half) : ((s.mRing h n f).hf k).tmr = (s.hf k).tmr := by cases h <;> cases k <;> rfl

@[simp] theorem putEvent_hf_tck (s : State) (h : Half) (r : EventRec) (k : Half) : ((s.putEvent h r).hf k).tck = (s.hf k).tck := by cases h <;> cases k <;> rfl
@[simp] theorem putEvent_hf_stg (s : State) (h : Half) (r : EventRec) (k : Half) : ((s.putEvent h r).hf k).stg = (s.hf k).stg := by cases h <;> cases k <;> rfl
@[simp] theorem putEvent_hf_pts (s : State) (h : Half) (r : EventRec) (k : Half) : ((s.putEvent h r).hf k).pts = (s.hf k).pts := by cases h <;> cases k <;> rfl
@[simp] theorem putEvent_hf_saved (s : State) (h : Half) (r : EventRec) (k : Half) : ((s.putEvent h r).hf k).saved = (s.hf k).saved := by cases h <;> cases k <;> rfl
@[simp] theorem putEvent_hf_mirOut (s : State) (h : Half) (r : EventRec) (k : Half) : ((s.putEvent h r).hf k).mirOut = (s.hf k).mirOut := by cases h <;> cases k <;> rfl
@[simp] theorem putEvent_hf_restWait (s : State) (h : Half) (r : EventRec) (k : Half) : ((s.putEvent h r).hf k).restWait = (s.hf k).restWait := by cases h <;> cases k <;> rfl
@[simp] theorem putEvent_hf_part (s : State) (h : Half) (r : EventRec) (k : Half) : ((s.putEvent h r).hf k).part = (s.hf k).part := by cases h <;> cases k <;> rfl
@[simp] theorem putEvent_hf_ports (s : State) (h : Half) (r : EventRec) (k : Half) : ((s.putEvent h r).hf k).ports = (s.hf k).ports := by cases h <;> cases k <;> rfl
@[simp] theorem putEvent_hf_bulk (s : State) (h : Half) (r : EventRec) (k : Half) : ((s.putEvent h r).hf k).bulk = (s.hf k).bulk := by cases h <;> cases k <;> rfl
@[simp] theorem putEvent_hf_twn (s : State) (h : Half) (r : EventRec) (k : Half) : ((s.putEvent h r).hf k).twn = (s.hf k).twn := by cases h <;> cases k <;> rfl
@[simp] theorem putEvent_hf_cln (s : State) (h : Half) (r : EventRec) (k : Half) : ((s.putEvent h r).hf k).cln = (s.hf k).cln := by cases h <;> cases k <;> rfl
@[simp] theorem putEvent_hf_pst (s : State) (h : Half) (r : EventRec) (k : Half) : ((s.putEvent h r).hf k).pst = (s.hf k).pst := by cases h <;> cases k <;> rfl
@[simp] theorem putEvent_hf_cnp (s : State) (h : Half) (r : EventRec) (k : Half) : ((s.putEvent h r).hf k).cnp = (s.hf k).cnp := by cases h <;> cases k <;> rfl
@[simp] theorem putEvent_hf_saf (s : State) (h : Half) (r : EventRec) (k : Half) : ((s.putEvent h r).hf k).saf = (s.hf k).saf := by cases h <;> cases k <;> rfl
@[simp] theorem putEvent_hf_pub (s : State) (h : Half) (r : EventRec) (k : Half) : ((s.putEvent h r).hf k).pub = (s.hf k).pub := by cases h <;> cases k <;> rfl
@[simp] theorem putEvent_hf_thm (s : State) (h : Half) (r : EventRec) (k : Half) : ((s.putEvent h r).hf k).thm = (s.hf k).thm := by cases h <;> cases k <;> rfl
@[simp] theorem putEvent_hf_tmr (s : State) (h : Half) (r : EventRec) (k : Half) : ((s.putEvent h r).hf k).tmr = (s.hf k).tmr := by cases h <;> cases k <;> rfl

@[simp] theorem ev_hf_tck (s : State) (h : Half) (sev code : Nat) (d : List Nat) (k : Half) : ((s.ev h sev code d).hf k).tck = (s.hf k).tck := by simp only [State.ev]; split <;> simp
@[simp] theorem ev_hf_stg (s : State) (h : Half) (sev code : Nat) (d : List Nat) (k : Half) : ((s.ev h sev code d).hf k).stg = (s.hf k).stg := by simp only [State.ev]; split <;> simp
@[simp] theorem ev_hf_pts (s : State) (h : Half) (sev code : Nat) (d : List Nat) (k : Half) : ((s.ev h sev code d).hf k).pts = (s.hf k).pts := by simp only [State.ev]; split <;> simp
@[simp] theorem ev_hf_saved (s : State) (h : Half) (sev code : Nat) (d : List Nat) (k : Half) : ((s.ev h sev code d).hf k).saved = (s.hf k).saved := by simp only [State.ev]; split <;> simp
@[simp] theorem ev_hf_mirOut (s : State) (h : Half) (sev code : Nat) (d : List Nat) (k : Half) : ((s.ev h sev code d).hf k).mirOut = (s.hf k).mirOut := by simp only [State.ev]; split <;> simp
@[simp] theorem ev_hf_restWait (s : State) (h : Half) (sev code : Nat) (d : List Nat) (k : Half) : ((s.ev h sev code d).hf k).restWait = (s.hf k).restWait := by simp only [State.ev]; split <;> simp
@[simp] theorem ev_hf_part (s : State) (h : Half) (sev code : Nat) (d : List Nat) (k : Half) : ((s.ev h sev code d).hf k).part = (s.hf k).part := by simp only [State.ev]; split <;> simp
@[simp] theorem ev_hf_ports (s : State) (h : Half) (sev code : Nat) (d : List Nat) (k : Half) : ((s.ev h sev code d).hf k).ports = (s.hf k).ports := by simp only [State.ev]; split <;> simp
@[simp] theorem ev_hf_bulk (s : State) (h : Half) (sev code : Nat) (d : List Nat) (k : Half) : ((s.ev h sev code d).hf k).bulk = (s.hf k).bulk := by simp only [State.ev]; split <;> simp
@[simp] theorem ev_hf_twn (s : State) (h : Half) (sev code : Nat) (d : List Nat) (k : Half) : ((s.ev h sev code d).hf k).twn = (s.hf k).twn := by simp only [State.ev]; split <;> simp
@[simp] theorem ev_hf_cln (s : State) (h : Half) (sev code : Nat) (d : List Nat) (k : Half) : ((s.ev h sev code d).hf k).cln = (s.hf k).cln := by simp only [State.ev]; split <;> simp
@[simp] theorem ev_hf_pst (s : State) (h : Half) (sev code : Nat) (d : List Nat) (k : Half) : ((s.ev h sev code d).hf k).pst = (s.hf k).pst := by simp only [State.ev]; split <;> simp
@[simp] theorem ev_hf_cnp (s : State) (h : Half) (sev code : Nat) (d : List Nat) (k : Half) : ((s.ev h sev code d).hf k).cnp = (s.hf k).cnp := by simp only [State.ev]; split <;> simp
@[simp] theorem ev_hf_saf (s : State) (h : Half) (sev code : Nat) (d : List Nat) (k : Half) : ((s.ev h sev code d).hf k).saf = (s.hf k).saf := by simp only [State.ev]; split <;> simp
@[simp] theorem ev_hf_pub (s : State) (h : Half) (sev code : Nat) (d : List Nat) (k : Half) : ((s.ev h sev code d).hf k).pub = (s.hf k).pub := by simp only [State.ev]; split <;> simp
@[simp] theorem ev_hf_thm (s : State) (h : Half) (sev code : Nat) (d : List Nat) (k : Half) : ((s.ev h sev code d).hf k).thm = (s.hf k).thm := by simp only [State.ev]; split <;> simp
@[simp] theorem ev_hf_tmr (s : State) (h : Half) (sev code : Nat) (d : List Nat) (k : Half) : ((s.ev h sev code d).hf k).tmr = (s.hf k).tmr := by simp only [State.ev]; split <;> simp

@[simp] theorem evShared_hf_tck (s : State) (og sev code : Nat) (d : List Nat) (k : Half) : ((s.evShared og sev code d).hf k).tck = (s.hf k).tck := by simp [State.evShared]
@[simp] theorem evShared_hf_stg (s : State) (og sev code : Nat) (d : List Nat) (k : Half) : ((s.evShared og sev code d).hf k).stg = (s.hf k).stg := by simp [State.evShared]
@[simp] theorem evShared_hf_pts (s : State) (og sev code : Nat) (d : List Nat) (k : Half) : ((s.evShared og sev code d).hf k).pts = (s.hf k).pts := by simp [State.evShared]
@[simp] theorem evShared_hf_saved (s : State) (og sev code : Nat) (d : List Nat) (k : Half) : ((s.evShared og sev code d).hf k).saved = (s.hf k).saved := by simp [State.evShared]
@[simp] theorem evShared_hf_mirOut (s : State) (og sev code : Nat) (d : List Nat) (k : Half) : ((s.evShared og sev code d).hf k).mirOut = (s.hf k).mirOut := by simp [State.evShared]
@[simp] theorem evShared_hf_restWait (s : State) (og sev code : Nat) (d : List Nat) (k : Half) : ((s.evShared og sev code d).hf k).restWait = (s.hf k).restWait := by simp [State.evShared]
@[simp] theorem evShared_hf_part (s : State) (og sev code : Nat) (d : List Nat) (k : Half) : ((s.evShared og sev code d).hf k).part = (s.hf k).part := by simp [State.evShared]
@[simp] theorem evShared_hf_ports (s : State) (og sev code : Nat) (d : List Nat) (k : Half) : ((s.evShared og sev code d).hf k).ports = (s.hf k).ports := by simp [State.evShared]
@[simp] theorem evShared_hf_bulk (s : State) (og sev code : Nat) (d : List Nat) (k : Half) : ((s.evShared og sev code d).hf k).bulk = (s.hf k).bulk := by simp [State.evShared]
@[simp] theorem evShared_hf_twn (s : State) (og sev code : Nat) (d : List Nat) (k : Half) : ((s.evShared og sev code d).hf k).twn = (s.hf k).twn := by simp [State.evShared]
@[simp] theorem evShared_hf_cln (s : State) (og sev code : Nat) (d : List Nat) (k : Half) : ((s.evShared og sev code d).hf k).cln = (s.hf k).cln := by simp [State.evShared]
@[simp] theorem evShared_hf_pst (s : State) (og sev code : Nat) (d : List Nat) (k : Half) : ((s.evShared og sev code d).hf k).pst = (s.hf k).pst := by simp [State.evShared]
@[simp] theorem evShared_hf_cnp (s : State) (og sev code : Nat) (d : List Nat) (k : Half) : ((s.evShared og sev code d).hf k).cnp = (s.hf k).cnp := by simp [State.evShared]
@[simp] theorem evShared_hf_saf (s : State) (og sev code : Nat) (d : List Nat) (k : Half) : ((s.evShared og sev code d).hf k).saf = (s.hf k).saf := by simp [State.evShared]
@[simp] theorem evShared_hf_pub (s : State) (og sev code : Nat) (d : List Nat) (k : Half) : ((s.evShared og sev code d).hf k).pub = (s.hf k).pub := by simp [State.evShared]
@[simp] theorem evShared_hf_thm (s : State) (og sev code : Nat) (d : List Nat) (k : Half) : ((s.evShared og sev code d).hf k).thm = (s.hf k).thm := by simp [State.evShared]
@[simp] theorem evShared_hf_tmr (s : State) (og sev code : Nat) (d : List Nat) (k : Half) : ((s.evShared og sev code d).hf k).tmr = (s.hf k).tmr := by simp [State.evShared]

@[simp] theorem start_hf_tck (s : State) (o : Org) (opc role : Nat) (x : Option Half) (k : Half) : ((s.start o opc role x).hf k).tck = (s.hf k).tck := by simp [State.start]
@[simp] theorem start_hf_stg (s : State) (o : Org) (opc role : Nat) (x : Option Half) (k : Half) : ((s.start o opc role x).hf k).stg = (s.hf k).stg := by simp [State.start]
@[simp] theorem start_hf_pts (s : State) (o : Org) (opc role : Nat) (x : Option Half) (k : Half) : ((s.start o opc role x).hf k).pts = (s.hf k).pts := by simp [State.start]
@[simp] theorem start_hf_saved (s : State) (o : Org) (opc role : Nat) (x : Option Half) (k : Half) : ((s.start o opc role x).hf k).saved = (s.hf k).saved := by simp [State.start]
@[simp] theorem start_hf_mirOut (s : State) (o : Org) (opc role : Nat) (x : Option Half) (k : Half) : ((s.start o opc role x).hf k).mirOut = (s.hf k).mirOut := by simp [State.start]
@[simp] theorem start_hf_restWait (s : State) (o : Org) (opc role : Nat) (x : Option Half) (k : Half) : ((s.start o opc role x).hf k).restWait = (s.hf k).restWait := by simp [State.start]
@[simp] theorem start_hf_part (s : State) (o : Org) (opc role : Nat) (x : Option Half) (k : Half) : ((s.start o opc role x).hf k).part = (s.hf k).part := by simp [State.start]
@[simp] theorem start_hf_ports (s : State) (o : Org) (opc role : Nat) (x : Option Half) (k : Half) : ((s.start o opc role x).hf k).ports = (s.hf k).ports := by simp [State.start]
@[simp] theorem start_hf_bulk (s : State) (o : Org) (opc role : Nat) (x : Option Half) (k : Half) : ((s.start o opc role x).hf k).bulk = (s.hf k).bulk := by simp [State.start]
@[simp] theorem start_hf_twn (s : State) (o : Org) (opc role : Nat) (x : Option Half) (k : Half) : ((s.start o opc role x).hf k).twn = (s.hf k).twn := by simp [State.start]
@[simp] theorem start_hf_cln (s : State) (o : Org) (opc role : Nat) (x : Option Half) (k : Half) : ((s.start o opc role x).hf k).cln = (s.hf k).cln := by simp [State.start]
@[simp] theorem start_hf_pst (s : State) (o : Org) (opc role : Nat) (x : Option Half) (k : Half) : ((s.start o opc role x).hf k).pst = (s.hf k).pst := by simp [State.start]
@[simp] theorem start_hf_cnp (s : State) (o : Org) (opc role : Nat) (x : Option Half) (k : Half) : ((s.start o opc role x).hf k).cnp = (s.hf k).cnp := by simp [State.start]
@[simp] theorem start_hf_saf (s : State) (o : Org) (opc role : Nat) (x : Option Half) (k : Half) : ((s.start o opc role x).hf k).saf = (s.hf k).saf := by simp [State.start]
@[simp] theorem start_hf_pub (s : State) (o : Org) (opc role : Nat) (x : Option Half) (k : Half) : ((s.start o opc role x).hf k).pub = (s.hf k).pub := by simp [State.start]
@[simp] theorem start_hf_thm (s : State) (o : Org) (opc role : Nat) (x : Option Half) (k : Half) : ((s.start o opc role x).hf k).thm = (s.hf k).thm := by simp [State.start]
@[simp] theorem start_hf_tmr (s : State) (o : Org) (opc role : Nat) (x : Option Half) (k : Half) : ((s.start o opc role x).hf k).tmr = (s.hf k).tmr := by simp [State.start]

@[simp] theorem completeAt_hf_tck (s : State) (o : Org) (x : Half) (opc st : Nat) (fin : Bool) (p : List Nat) (t : Nat) (k : Half) : ((s.completeAt o x opc st fin p t).hf k).tck = (s.hf k).tck := by simp [State.completeAt]
@[simp] theorem completeAt_hf_stg (s : State) (o : Org) (x : Half) (opc st : Nat) (fin : Bool) (p : List Nat) (t : Nat) (k : Half) : ((s.completeAt o x opc st fin p t).hf k).stg = (s.hf k).stg := by simp [State.completeAt]
@[simp] theorem completeAt_hf_pts (s : State) (o : Org) (x : Half) (opc st : Nat) (fin : Bool) (p : List Nat) (t : Nat) (k : Half) : ((s.completeAt o x opc st fin p t).hf k).pts = (s.hf k).pts := by simp [State.completeAt]
@[simp] theorem completeAt_hf_saved (s : State) (o : Org) (x : Half) (opc st : Nat) (fin : Bool) (p : List Nat) (t : Nat) (k : Half) : ((s.completeAt o x opc st fin p t).hf k).saved = (s.hf k).saved := by simp [State.completeAt]
@[simp] theorem completeAt_hf_mirOut (s : State) (o : Org) (x : Half) (opc st : Nat) (fin : Bool) (p : List Nat) (t : Nat) (k : Half) : ((s.completeAt o x opc st fin p t).hf k).mirOut = (s.hf k).mirOut := by simp [State.completeAt]
@[simp] theorem completeAt_hf_restWait (s : State) (o : Org) (x : Half) (opc st : Nat) (fin : Bool) (p : List Nat) (t : Nat) (k : Half) : ((s.completeAt o x opc st fin p t).hf k).restWait = (s.hf k).restWait := by simp [State.completeAt]
@[simp] theorem completeAt_hf_part (s : State) (o : Org) (x : Half) (opc st : Nat) (fin : Bool) (p : List Nat) (t : Nat) (k : Half) : ((s.completeAt o x opc st fin p t).hf k).part = (s.hf k).part := by simp [State.completeAt]
@[simp] theorem completeAt_hf_ports (s : State) (o : Org) (x : Half) (opc st : Nat) (fin : Bool) (p : List Nat) (t : Nat) (k : Half) : ((s.completeAt o x opc st fin p t).hf k).ports = (s.hf k).ports := by simp [State.completeAt]
@[simp] theorem completeAt_hf_bulk (s : State) (o : Org) (x : Half) (opc st : Nat) (fin : Bool) (p : List Nat) (t : Nat) (k : Half) : ((s.completeAt o x opc st fin p t).hf k).bulk = (s.hf k).bulk := by simp [State.completeAt]
@[simp] theorem completeAt_hf_twn (s : State) (o : Org) (x : Half) (opc st : Nat) (fin : Bool) (p : List Nat) (t : Nat) (k : Half) : ((s.completeAt o x opc st fin p t).hf k).twn = (s.hf k).twn := by simp [State.completeAt]
@[simp] theorem completeAt_hf_cln (s : State) (o : Org) (x : Half) (opc st : Nat) (fin : Bool) (p : List Nat) (t : Nat) (k : Half) : ((s.completeAt o x opc st fin p t).hf k).cln = (s.hf k).cln := by simp [State.completeAt]
@[simp] theorem completeAt_hf_pst (s : State) (o : Org) (x : Half) (opc st : Nat) (fin : Bool) (p : List Nat) (t : Nat) (k : Half) : ((s.completeAt o x opc st fin p t).hf k).pst = (s.hf k).pst := by simp [State.completeAt]
@[simp] theorem completeAt_hf_cnp (s : State) (o : Org) (x : Half) (opc st : Nat) (fin : Bool) (p : List Nat) (t : Nat) (k : Half) : ((s.completeAt o x opc st fin p t).hf k).cnp = (s.hf k).cnp := by simp [State.completeAt]
@[simp] theorem completeAt_hf_saf (s : State) (o : Org) (x : Half) (opc st : Nat) (fin : Bool) (p : List Nat) (t : Nat) (k : Half) : ((s.completeAt o x opc st fin p t).hf k).saf = (s.hf k).saf := by simp [State.completeAt]
@[simp] theorem completeAt_hf_pub (s : State) (o : Org) (x : Half) (opc st : Nat) (fin : Bool) (p : List Nat) (t : Nat) (k : Half) : ((s.completeAt o x opc st fin p t).hf k).pub = (s.hf k).pub := by simp [State.completeAt]
@[simp] theorem completeAt_hf_thm (s : State) (o : Org) (x : Half) (opc st : Nat) (fin : Bool) (p : List Nat) (t : Nat) (k : Half) : ((s.completeAt o x opc st fin p t).hf k).thm = (s.hf k).thm := by simp [State.completeAt]
@[simp] theorem completeAt_hf_tmr (s : State) (o : Org) (x : Half) (opc st : Nat) (fin : Bool) (p : List Nat) (t : Nat) (k : Half) : ((s.completeAt o x opc st fin p t).hf k).tmr = (s.hf k).tmr := by simp [State.completeAt]

@[simp] theorem complete_hf_tck (s : State) (o : Org) (x : Half) (opc st : Nat) (fin : Bool) (p : List Nat) (k : Half) : ((s.complete o x opc st fin p).hf k).tck = (s.hf k).tck := by simp [State.complete]
@[simp] theorem complete_hf_stg (s : State) (o : Org) (x : Half) (opc st : Nat) (fin : Bool) (p : List Nat) (k : Half) : ((s.complete o x opc st fin p).hf k).stg = (s.hf k).stg := by simp [State.complete]
@[simp] theorem complete_hf_pts (s : State) (o : Org) (x : Half) (opc st : Nat) (fin : Bool) (p : List Nat) (k : Half) : ((s.complete o x opc st fin p).hf k).pts = (s.hf k).pts := by simp [State.complete]
@[simp] theorem complete_hf_saved (s : State) (o : Org) (x : Half) (opc st : Nat) (fin : Bool) (p : List Nat) (k : Half) : ((s.complete o x opc st fin p).hf k).saved = (s.hf k).saved := by simp [State.complete]
@[simp] theorem complete_hf_mirOut (s : State) (o : Org) (x : Half) (opc st : Nat) (fin : Bool) (p : List Nat) (k : Half) : ((s.complete o x opc st fin p).hf k).mirOut = (s.hf k).mirOut := by simp [State.complete]
@[simp] theorem complete_hf_restWait (s : State) (o : Org) (x : Half) (opc st : Nat) (fin : Bool) (p : List Nat) (k : Half) : ((s.complete o x opc st fin p).hf k).restWait = (s.hf k).restWait := by simp [State.complete]
@[simp] theorem complete_hf_part (s : State) (o : Org) (x : Half) (opc st : Nat) (fin : Bool) (p : List Nat) (k : Half) : ((s.complete o x opc st fin p).hf k).part = (s.hf k).part := by simp [State.complete]
@[simp] theorem complete_hf_ports (s : State) (o : Org) (x : Half) (opc st : Nat) (fin : Bool) (p : List Nat) (k : Half) : ((s.complete o x opc st fin p).hf k).ports = (s.hf k).ports := by simp [State.complete]
@[simp] theorem complete_hf_bulk (s : State) (o : Org) (x : Half) (opc st : Nat) (fin : Bool) (p : List Nat) (k : Half) : ((s.complete o x opc st fin p).hf k).bulk = (s.hf k).bulk := by simp [State.complete]
@[simp] theorem complete_hf_twn (s : State) (o : Org) (x : Half) (opc st : Nat) (fin : Bool) (p : List Nat) (k : Half) : ((s.complete o x opc st fin p).hf k).twn = (s.hf k).twn := by simp [State.complete]
@[simp] theorem complete_hf_cln (s : State) (o : Org) (x : Half) (opc st : Nat) (fin : Bool) (p : List Nat) (k : Half) : ((s.complete o x opc st fin p).hf k).cln = (s.hf k).cln := by simp [State.complete]
@[simp] theorem complete_hf_pst (s : State) (o : Org) (x : Half) (opc st : Nat) (fin : Bool) (p : List Nat) (k : Half) : ((s.complete o x opc st fin p).hf k).pst = (s.hf k).pst := by simp [State.complete]
@[simp] theorem complete_hf_cnp (s : State) (o : Org) (x : Half) (opc st : Nat) (fin : Bool) (p : List Nat) (k : Half) : ((s.complete o x opc st fin p).hf k).cnp = (s.hf k).cnp := by simp [State.complete]
@[simp] theorem complete_hf_saf (s : State) (o : Org) (x : Half) (opc st : Nat) (fin : Bool) (p : List Nat) (k : Half) : ((s.complete o x opc st fin p).hf k).saf = (s.hf k).saf := by simp [State.complete]
@[simp] theorem complete_hf_pub (s : State) (o : Org) (x : Half) (opc st : Nat) (fin : Bool) (p : List Nat) (k : Half) : ((s.complete o x opc st fin p).hf k).pub = (s.hf k).pub := by simp [State.complete]
@[simp] theorem complete_hf_thm (s : State) (o : Org) (x : Half) (opc st : Nat) (fin : Bool) (p : List Nat) (k : Half) : ((s.complete o x opc st fin p).hf k).thm = (s.hf k).thm := by simp [State.complete]
@[simp] theorem complete_hf_tmr (s : State) (o : Org) (x : Half) (opc st : Nat) (fin : Bool) (p : List Nat) (k : Half) : ((s.complete o x opc st fin p).hf k).tmr = (s.hf k).tmr := by simp [State.complete]

/-! ### Registers -/

/-- Keys of register words of one block and half differ where the offsets do. -/
theorem regKey_inj {b : Blk} {h : Half} {o p : Nat} (e : regKey b h o = regKey b h p) : o = p := by
  simp only [regKey] at e; omega

@[simp] theorem rg_srg_same (s : State) (b : Blk) (h : Half) (o : Nat) (v : Word) : (s.srg b h o v).rg b h o = v := by simp [State.rg, State.srg]
theorem rg_srg_other (s : State) (b : Blk) (h : Half) {o p : Nat} (v : Word) (n : o ≠ p) : (s.srg b h o v).rg b h p = s.rg b h p := by
  simp only [State.rg, State.srg]
  have k : regKey b h o ≠ regKey b h p := fun e => n (regKey_inj e)
  simp only [put]
  split
  · rw [look_del]; simp [k]
  · rw [look_ins]; simp [k]

theorem blkKey_lt (b : Blk) (h : Half) : blkKey b h < 64 := by cases b <;> cases h <;> decide
theorem blkKey_blk {b c : Blk} {h k : Half} (e : blkKey b h = blkKey c k) : b = c := by
  cases b <;> cases c <;> cases h <;> cases k <;> first | rfl | (exact absurd e (by decide))
theorem regKey_blk {b c : Blk} {h k : Half} {o p : Nat} (e : regKey b h o = regKey c k p) : blkKey b h = blkKey c k ∧ o = p := by
  have h1 := blkKey_lt b h
  have h2 := blkKey_lt c k
  simp only [regKey] at e
  omega
@[simp] theorem keyBlk_regKey (b : Blk) (h : Half) (o : Nat) : keyBlk (regKey b h o) = blkKey b h := by
  have := blkKey_lt b h
  simp only [keyBlk, regKey]; omega
@[simp] theorem keyOff_regKey (b : Blk) (h : Half) (o : Nat) : keyOff (regKey b h o) = o := by
  have := blkKey_lt b h
  simp only [keyOff, regKey]; omega
/-- A write to one block leaves the words of the others. -/
theorem rg_srg_blk (s : State) {b c : Blk} (h k : Half) (o p : Nat) (v : Word) (n : c ≠ b) : (s.srg b h o v).rg c k p = s.rg c k p := by
  simp only [State.rg, State.srg]
  exact look_of_put_other fun e => n (blkKey_blk (regKey_blk e).1).symm
where
  look_of_put_other {t : Tab Word} {d d' v : Word} {x y : Nat} (n : x ≠ y) : look d (put d' t x v) y = look d t y := by
    simp only [put]
    split
    · rw [look_del]; simp [n]
    · rw [look_ins]; simp [n]

/-- A register read depends on the register file alone. -/
theorem rg_of_regs {s t : State} (e : t.regs = s.regs) (b : Blk) (h : Half) (o : Nat) : t.rg b h o = s.rg b h o := by simp [State.rg, e]

@[simp] theorem flashWrite_hf_tck (s : State) (h : Half) (n : Nat) (k : Half) : ((s.flashWrite h n).hf k).tck = (s.hf k).tck := by
  simp only [State.flashWrite]; split
  · simp only [hf_mh]; split <;> rfl
  · rfl
@[simp] theorem flashWrite_hf_stg (s : State) (h : Half) (n : Nat) (k : Half) : ((s.flashWrite h n).hf k).stg = (s.hf k).stg := by
  simp only [State.flashWrite]; split
  · simp only [hf_mh]; split <;> rfl
  · rfl
@[simp] theorem flashWrite_hf_pts (s : State) (h : Half) (n : Nat) (k : Half) : ((s.flashWrite h n).hf k).pts = (s.hf k).pts := by
  simp only [State.flashWrite]; split
  · simp only [hf_mh]; split <;> rfl
  · rfl
@[simp] theorem flashWrite_hf_saved (s : State) (h : Half) (n : Nat) (k : Half) : ((s.flashWrite h n).hf k).saved = (s.hf k).saved := by
  simp only [State.flashWrite]; split
  · simp only [hf_mh]; split <;> rfl
  · rfl
@[simp] theorem flashWrite_hf_mirOut (s : State) (h : Half) (n : Nat) (k : Half) : ((s.flashWrite h n).hf k).mirOut = (s.hf k).mirOut := by
  simp only [State.flashWrite]; split
  · simp only [hf_mh]; split <;> rfl
  · rfl
@[simp] theorem flashWrite_hf_restWait (s : State) (h : Half) (n : Nat) (k : Half) : ((s.flashWrite h n).hf k).restWait = (s.hf k).restWait := by
  simp only [State.flashWrite]; split
  · simp only [hf_mh]; split <;> rfl
  · rfl
@[simp] theorem flashWrite_hf_part (s : State) (h : Half) (n : Nat) (k : Half) : ((s.flashWrite h n).hf k).part = (s.hf k).part := by
  simp only [State.flashWrite]; split
  · simp only [hf_mh]; split <;> rfl
  · rfl
@[simp] theorem flashWrite_hf_ports (s : State) (h : Half) (n : Nat) (k : Half) : ((s.flashWrite h n).hf k).ports = (s.hf k).ports := by
  simp only [State.flashWrite]; split
  · simp only [hf_mh]; split <;> rfl
  · rfl
@[simp] theorem flashWrite_hf_bulk (s : State) (h : Half) (n : Nat) (k : Half) : ((s.flashWrite h n).hf k).bulk = (s.hf k).bulk := by
  simp only [State.flashWrite]; split
  · simp only [hf_mh]; split <;> rfl
  · rfl
@[simp] theorem flashWrite_hf_twn (s : State) (h : Half) (n : Nat) (k : Half) : ((s.flashWrite h n).hf k).twn = (s.hf k).twn := by
  simp only [State.flashWrite]; split
  · simp only [hf_mh]; split <;> rfl
  · rfl
@[simp] theorem flashWrite_hf_cln (s : State) (h : Half) (n : Nat) (k : Half) : ((s.flashWrite h n).hf k).cln = (s.hf k).cln := by
  simp only [State.flashWrite]; split
  · simp only [hf_mh]; split <;> rfl
  · rfl
@[simp] theorem flashWrite_hf_pst (s : State) (h : Half) (n : Nat) (k : Half) : ((s.flashWrite h n).hf k).pst = (s.hf k).pst := by
  simp only [State.flashWrite]; split
  · simp only [hf_mh]; split <;> rfl
  · rfl
@[simp] theorem flashWrite_hf_cnp (s : State) (h : Half) (n : Nat) (k : Half) : ((s.flashWrite h n).hf k).cnp = (s.hf k).cnp := by
  simp only [State.flashWrite]; split
  · simp only [hf_mh]; split <;> rfl
  · rfl
@[simp] theorem flashWrite_hf_saf (s : State) (h : Half) (n : Nat) (k : Half) : ((s.flashWrite h n).hf k).saf = (s.hf k).saf := by
  simp only [State.flashWrite]; split
  · simp only [hf_mh]; split <;> rfl
  · rfl
@[simp] theorem flashWrite_hf_pub (s : State) (h : Half) (n : Nat) (k : Half) : ((s.flashWrite h n).hf k).pub = (s.hf k).pub := by
  simp only [State.flashWrite]; split
  · simp only [hf_mh]; split <;> rfl
  · rfl
@[simp] theorem flashWrite_hf_mbx (s : State) (h : Half) (n : Nat) (k : Half) : ((s.flashWrite h n).hf k).mbx = (s.hf k).mbx := by
  simp only [State.flashWrite]; split
  · simp only [hf_mh]; split <;> rfl
  · rfl
@[simp] theorem flashWrite_hf_tmr (s : State) (h : Half) (n : Nat) (k : Half) : ((s.flashWrite h n).hf k).tmr = (s.hf k).tmr := by
  simp only [State.flashWrite]; split
  · simp only [hf_mh]; split <;> rfl
  · rfl
@[simp] theorem stageWrite_hf_tck (s : State) (h : Half) (i : Nat) (v : Int) (k : Half) : ((s.stageWrite h i v).hf k).tck = (s.hf k).tck := by
  simp only [State.stageWrite]; split
  · simp only [hf_mh]; split <;> rfl
  · rfl
@[simp] theorem stageWrite_hf_pts (s : State) (h : Half) (i : Nat) (v : Int) (k : Half) : ((s.stageWrite h i v).hf k).pts = (s.hf k).pts := by
  simp only [State.stageWrite]; split
  · simp only [hf_mh]; split <;> rfl
  · rfl
@[simp] theorem stageWrite_hf_saved (s : State) (h : Half) (i : Nat) (v : Int) (k : Half) : ((s.stageWrite h i v).hf k).saved = (s.hf k).saved := by
  simp only [State.stageWrite]; split
  · simp only [hf_mh]; split <;> rfl
  · rfl
@[simp] theorem stageWrite_hf_mirOut (s : State) (h : Half) (i : Nat) (v : Int) (k : Half) : ((s.stageWrite h i v).hf k).mirOut = (s.hf k).mirOut := by
  simp only [State.stageWrite]; split
  · simp only [hf_mh]; split <;> rfl
  · rfl
@[simp] theorem stageWrite_hf_restWait (s : State) (h : Half) (i : Nat) (v : Int) (k : Half) : ((s.stageWrite h i v).hf k).restWait = (s.hf k).restWait := by
  simp only [State.stageWrite]; split
  · simp only [hf_mh]; split <;> rfl
  · rfl
@[simp] theorem stageWrite_hf_part (s : State) (h : Half) (i : Nat) (v : Int) (k : Half) : ((s.stageWrite h i v).hf k).part = (s.hf k).part := by
  simp only [State.stageWrite]; split
  · simp only [hf_mh]; split <;> rfl
  · rfl
@[simp] theorem stageWrite_hf_ports (s : State) (h : Half) (i : Nat) (v : Int) (k : Half) : ((s.stageWrite h i v).hf k).ports = (s.hf k).ports := by
  simp only [State.stageWrite]; split
  · simp only [hf_mh]; split <;> rfl
  · rfl
@[simp] theorem stageWrite_hf_bulk (s : State) (h : Half) (i : Nat) (v : Int) (k : Half) : ((s.stageWrite h i v).hf k).bulk = (s.hf k).bulk := by
  simp only [State.stageWrite]; split
  · simp only [hf_mh]; split <;> rfl
  · rfl
@[simp] theorem stageWrite_hf_twn (s : State) (h : Half) (i : Nat) (v : Int) (k : Half) : ((s.stageWrite h i v).hf k).twn = (s.hf k).twn := by
  simp only [State.stageWrite]; split
  · simp only [hf_mh]; split <;> rfl
  · rfl
@[simp] theorem stageWrite_hf_cln (s : State) (h : Half) (i : Nat) (v : Int) (k : Half) : ((s.stageWrite h i v).hf k).cln = (s.hf k).cln := by
  simp only [State.stageWrite]; split
  · simp only [hf_mh]; split <;> rfl
  · rfl
@[simp] theorem stageWrite_hf_pst (s : State) (h : Half) (i : Nat) (v : Int) (k : Half) : ((s.stageWrite h i v).hf k).pst = (s.hf k).pst := by
  simp only [State.stageWrite]; split
  · simp only [hf_mh]; split <;> rfl
  · rfl
@[simp] theorem stageWrite_hf_cnp (s : State) (h : Half) (i : Nat) (v : Int) (k : Half) : ((s.stageWrite h i v).hf k).cnp = (s.hf k).cnp := by
  simp only [State.stageWrite]; split
  · simp only [hf_mh]; split <;> rfl
  · rfl
@[simp] theorem stageWrite_hf_saf (s : State) (h : Half) (i : Nat) (v : Int) (k : Half) : ((s.stageWrite h i v).hf k).saf = (s.hf k).saf := by
  simp only [State.stageWrite]; split
  · simp only [hf_mh]; split <;> rfl
  · rfl
@[simp] theorem stageWrite_hf_pub (s : State) (h : Half) (i : Nat) (v : Int) (k : Half) : ((s.stageWrite h i v).hf k).pub = (s.hf k).pub := by
  simp only [State.stageWrite]; split
  · simp only [hf_mh]; split <;> rfl
  · rfl
@[simp] theorem stageWrite_hf_thm (s : State) (h : Half) (i : Nat) (v : Int) (k : Half) : ((s.stageWrite h i v).hf k).thm = (s.hf k).thm := by
  simp only [State.stageWrite]; split
  · simp only [hf_mh]; split <;> rfl
  · rfl
@[simp] theorem stageWrite_hf_mbx (s : State) (h : Half) (i : Nat) (v : Int) (k : Half) : ((s.stageWrite h i v).hf k).mbx = (s.hf k).mbx := by
  simp only [State.stageWrite]; split
  · simp only [hf_mh]; split <;> rfl
  · rfl
@[simp] theorem stageWrite_hf_tmr (s : State) (h : Half) (i : Nat) (v : Int) (k : Half) : ((s.stageWrite h i v).hf k).tmr = (s.hf k).tmr := by
  simp only [State.stageWrite]; split
  · simp only [hf_mh]; split <;> rfl
  · rfl
@[simp] theorem rg_setHf (s : State) (h : Half) (x : HalfSt) (q : Blk) (k : Half) (o : Nat) : (s.setHf h x).rg q k o = s.rg q k o := rg_of_regs (by simp) _ _ _
@[simp] theorem rg_mh (s : State) (h : Half) (f : HalfSt → HalfSt) (q : Blk) (k : Half) (o : Nat) : (s.mh h f).rg q k o = s.rg q k o := rg_of_regs (by simp) _ _ _
@[simp] theorem rg_mBoth (s : State) (f : HalfSt → HalfSt) (q : Blk) (k : Half) (o : Nat) : (s.mBoth f).rg q k o = s.rg q k o := rg_of_regs (by simp) _ _ _
@[simp] theorem rg_mTck (s : State) (h : Half) (f : TckS → TckS) (q : Blk) (k : Half) (o : Nat) : (s.mTck h f).rg q k o = s.rg q k o := rg_of_regs (by simp) _ _ _
@[simp] theorem rg_mTwn (s : State) (h : Half) (f : TwnS → TwnS) (q : Blk) (k : Half) (o : Nat) : (s.mTwn h f).rg q k o = s.rg q k o := rg_of_regs (by simp) _ _ _
@[simp] theorem rg_mMbx (s : State) (h : Half) (f : MbxS → MbxS) (q : Blk) (k : Half) (o : Nat) : (s.mMbx h f).rg q k o = s.rg q k o := rg_of_regs (by simp) _ _ _
@[simp] theorem rg_mPort (s : State) (h : Half) (n : Nat) (f : PortS → PortS) (q : Blk) (k : Half) (o : Nat) : (s.mPort h n f).rg q k o = s.rg q k o := rg_of_regs (by simp) _ _ _
@[simp] theorem rg_mRing (s : State) (h : Half) (n : Nat) (f : RingS → RingS) (q : Blk) (k : Half) (o : Nat) : (s.mRing h n f).rg q k o = s.rg q k o := rg_of_regs (by simp) _ _ _
@[simp] theorem rg_mRem (s : State) (n : Nat) (f : Remote → Remote) (q : Blk) (k : Half) (o : Nat) : (s.mRem n f).rg q k o = s.rg q k o := rg_of_regs (by simp) _ _ _
@[simp] theorem rg_drew (s : State) (n : Nat) (q : Blk) (k : Half) (o : Nat) : (s.drew n).rg q k o = s.rg q k o := rg_of_regs (by simp) _ _ _
@[simp] theorem rg_mBlk (s : State) (c : Blk) (h : Half) (f : BlockDyn → BlockDyn) (q : Blk) (k : Half) (o : Nat) : (s.mBlk c h f).rg q k o = s.rg q k o := rg_of_regs (by simp) _ _ _
@[simp] theorem rg_putEvent (s : State) (h : Half) (r : EventRec) (q : Blk) (k : Half) (o : Nat) : (s.putEvent h r).rg q k o = s.rg q k o := rg_of_regs (by simp) _ _ _
@[simp] theorem rg_completeAt (s : State) (g : Org) (x : Half) (a c : Nat) (f : Bool) (p : List Nat) (t : Nat) (q : Blk) (k : Half) (o : Nat) : (s.completeAt g x a c f p t).rg q k o = s.rg q k o := rg_of_regs (by simp) _ _ _
@[simp] theorem rg_stageWrite (s : State) (h : Half) (i : Nat) (v : Int) (q : Blk) (k : Half) (o : Nat) : (s.stageWrite h i v).rg q k o = s.rg q k o := rg_of_regs (by simp) _ _ _
@[simp] theorem rg_flashWrite (s : State) (h : Half) (n : Nat) (q : Blk) (k : Half) (o : Nat) : (s.flashWrite h n).rg q k o = s.rg q k o := rg_of_regs (by simp) _ _ _
@[simp] theorem rg_evShared (s : State) (g a c : Nat) (d : List Nat) (q : Blk) (k : Half) (o : Nat) : (s.evShared g a c d).rg q k o = s.rg q k o := rg_of_regs (by simp) _ _ _

/-! ### Rings -/

@[simp] theorem ring_mRing_same (s : State) (h : Half) (n : Nat) (f : RingS → RingS) : (s.mRing h n f).ring h n = f (s.ring h n) := by
  simp [State.ring, State.mRing, State.mMbx]
theorem ring_mMbx (s : State) (h k : Half) (f : MbxS → MbxS) (n : Nat) :
    (s.mMbx h f).ring k n = if k = h then look ({} : RingS) (f (s.hf h).mbx).rings n else s.ring k n := by
  simp only [State.ring, State.mMbx, hf_mh]; split <;> simp_all
theorem ring_of_mbx {s t : State} {h : Half} (e : (t.hf h).mbx.rings = (s.hf h).mbx.rings) (n : Nat) : t.ring h n = s.ring h n := by simp only [State.ring, e]

/-! ### A choice of two states -/

@[simp] theorem hf_ite {c : Prop} [Decidable c] (s u : State) (h : Half) : (if c then s else u).hf h = if c then s.hf h else u.hf h := by split <;> rfl
@[simp] theorem rg_ite {c : Prop} [Decidable c] (s u : State) (b : Blk) (h : Half) (o : Nat) :
    (if c then s else u).rg b h o = if c then s.rg b h o else u.rg b h o := by split <;> rfl
@[simp] theorem ite_pending {c : Prop} [Decidable c] (s u : State) : (if c then s else u).pending = if c then s.pending else u.pending := by split <;> rfl
@[simp] theorem ite_free {c : Prop} [Decidable c] (s u : State) : (if c then s else u).free = if c then s.free else u.free := by split <;> rfl
@[simp] theorem ite_regs {c : Prop} [Decidable c] (s u : State) : (if c then s else u).regs = if c then s.regs else u.regs := by split <;> rfl
@[simp] theorem ite_shadow {c : Prop} [Decidable c] (s u : State) : (if c then s else u).shadow = if c then s.shadow else u.shadow := by split <;> rfl
@[simp] theorem ite_blocks {c : Prop} [Decidable c] (s u : State) : (if c then s else u).blocks = if c then s.blocks else u.blocks := by split <;> rfl
@[simp] theorem ite_ref {c : Prop} [Decidable c] (s u : State) : (if c then s else u).ref = if c then s.ref else u.ref := by split <;> rfl
@[simp] theorem ite_ho {c : Prop} [Decidable c] (s u : State) : (if c then s else u).ho = if c then s.ho else u.ho := by split <;> rfl
@[simp] theorem ite_pll {c : Prop} [Decidable c] (s u : State) : (if c then s else u).pll = if c then s.pll else u.pll := by split <;> rfl
@[simp] theorem ite_rtc {c : Prop} [Decidable c] (s u : State) : (if c then s else u).rtc = if c then s.rtc else u.rtc := by split <;> rfl
@[simp] theorem ite_rems {c : Prop} [Decidable c] (s u : State) : (if c then s else u).rems = if c then s.rems else u.rems := by split <;> rfl
@[simp] theorem ite_cabs {c : Prop} [Decidable c] (s u : State) : (if c then s else u).cabs = if c then s.cabs else u.cabs := by split <;> rfl
@[simp] theorem ite_therm {c : Prop} [Decidable c] (s u : State) : (if c then s else u).therm = if c then s.therm else u.therm := by split <;> rfl
@[simp] theorem ite_veh {c : Prop} [Decidable c] (s u : State) : (if c then s else u).veh = if c then s.veh else u.veh := by split <;> rfl
@[simp] theorem ite_vehG {c : Prop} [Decidable c] (s u : State) : (if c then s else u).vehG = if c then s.vehG else u.vehG := by split <;> rfl
@[simp] theorem ite_met {c : Prop} [Decidable c] (s u : State) : (if c then s else u).met = if c then s.met else u.met := by split <;> rfl
@[simp] theorem ite_bil {c : Prop} [Decidable c] (s u : State) : (if c then s else u).bil = if c then s.bil else u.bil := by split <;> rfl
@[simp] theorem ite_lkt {c : Prop} [Decidable c] (s u : State) : (if c then s else u).lkt = if c then s.lkt else u.lkt := by split <;> rfl
@[simp] theorem ite_saf {c : Prop} [Decidable c] (s u : State) : (if c then s else u).saf = if c then s.saf else u.saf := by split <;> rfl
@[simp] theorem ite_cans {c : Prop} [Decidable c] (s u : State) : (if c then s else u).cans = if c then s.cans else u.cans := by split <;> rfl
@[simp] theorem ite_lsw {c : Prop} [Decidable c] (s u : State) : (if c then s else u).lsw = if c then s.lsw else u.lsw := by split <;> rfl
@[simp] theorem ite_mesh {c : Prop} [Decidable c] (s u : State) : (if c then s else u).mesh = if c then s.mesh else u.mesh := by split <;> rfl
@[simp] theorem ite_upd {c : Prop} [Decidable c] (s u : State) : (if c then s else u).upd = if c then s.upd else u.upd := by split <;> rfl
@[simp] theorem ite_pwr {c : Prop} [Decidable c] (s u : State) : (if c then s else u).pwr = if c then s.pwr else u.pwr := by split <;> rfl

/-- A write of one word leaves every word of another key. -/
theorem rg_srg_key (s : State) {b c : Blk} {h k : Half} {o p : Nat} (v : Word) (n : regKey b h o ≠ regKey c k p) : (s.srg b h o v).rg c k p = s.rg c k p := by
  simp only [State.rg, State.srg, put]
  split
  · rw [look_del]; simp [n]
  · rw [look_ins]; simp [n]

/-- The same for a block that each half has its own of. -/
theorem rg_srg_half (s : State) {b : Blk} (hb : perHalf b = true) {h k : Half} (o p : Nat) (v : Word) (n : k ≠ h) : (s.srg b h o v).rg b k p = s.rg b k p := by
  refine rg_srg_key _ _ fun e => n ?_
  have := congrArg keyBlk e
  simp only [keyBlk_regKey, blkKey, hb, if_true] at this
  cases h <;> cases k <;> simp_all [hbit]

end Sys2Proof.Machine
end

