-- ==== Sys2Proof/Laws/Ops.lean ====
section
/-!
SUPPORT. What the shared operations do, once: events, completions, verbs, commits, staging.
-/

namespace Sys2Proof.Machine

/-! ### What depends on little -/

theorem charge_congr {s t : State} (hr : t.ref = s.ref) (ha : ∀ k, (t.hf k).twn = (s.hf k).twn) : t.charge = s.charge := by
  simp only [State.charge, hr, ha]

theorem twinUp_congr {s t : State} {k : Half} (h : (t.hf k).twn = (s.hf k).twn) : t.twinUp k = s.twinUp k := by simp only [State.twinUp, h]

theorem tick_congr {s t : State} {k : Half} (h : (t.hf k).tck = (s.hf k).tck) : t.tick k = s.tick k := by simp only [State.tick, h]

@[simp] theorem charge_ev (s : State) (h : Half) (a b : Nat) (d : List Nat) : (s.ev h a b d).charge = s.charge := charge_congr (by simp) (by simp)
@[simp] theorem charge_evShared (s : State) (a b c : Nat) (d : List Nat) : (s.evShared a b c d).charge = s.charge := charge_congr (by simp) (by simp)
@[simp] theorem charge_start (s : State) (o : Org) (a b : Nat) (x : Option Half) : (s.start o a b x).charge = s.charge := charge_congr (by simp) (by simp)
@[simp] theorem charge_complete (s : State) (o : Org) (x : Half) (a b : Nat) (f : Bool) (p : List Nat) : (s.complete o x a b f p).charge = s.charge :=
  charge_congr (by simp) (by simp)
@[simp] theorem charge_srg (s : State) (b : Blk) (h : Half) (o : Nat) (v : Word) : (s.srg b h o v).charge = s.charge := charge_congr rfl (by simp)
@[simp] theorem charge_drew (s : State) (n : Nat) : (s.drew n).charge = s.charge := charge_congr rfl (by simp)
@[simp] theorem charge_mMbx (s : State) (h : Half) (f : MbxS → MbxS) : (s.mMbx h f).charge = s.charge := charge_congr (by simp) (by simp)
@[simp] theorem charge_mTck (s : State) (h : Half) (f : TckS → TckS) : (s.mTck h f).charge = s.charge := charge_congr (by simp) (by simp)
@[simp] theorem charge_mPort (s : State) (h : Half) (p : Nat) (f : PortS → PortS) : (s.mPort h p f).charge = s.charge := charge_congr (by simp) (by simp)

@[simp] theorem twinUp_ev (s : State) (h k : Half) (a b : Nat) (d : List Nat) : (s.ev h a b d).twinUp k = s.twinUp k := twinUp_congr (by simp)
@[simp] theorem twinUp_start (s : State) (o : Org) (a b : Nat) (x : Option Half) (k : Half) : (s.start o a b x).twinUp k = s.twinUp k := twinUp_congr (by simp)
@[simp] theorem twinUp_srg (s : State) (b : Blk) (h k : Half) (o : Nat) (v : Word) : (s.srg b h o v).twinUp k = s.twinUp k := twinUp_congr (by simp)
@[simp] theorem tick_ev (s : State) (h k : Half) (a b : Nat) (d : List Nat) : (s.ev h a b d).tick k = s.tick k := tick_congr (by simp)
@[simp] theorem tick_start (s : State) (o : Org) (a b : Nat) (x : Option Half) (k : Half) : (s.start o a b x).tick k = s.tick k := tick_congr (by simp)
@[simp] theorem tick_srg (s : State) (b : Blk) (h k : Half) (o : Nat) (v : Word) : (s.srg b h o v).tick k = s.tick k := tick_congr (by simp)
@[simp] theorem rg_ev (s : State) (h : Half) (a c : Nat) (d : List Nat) (b : Blk) (k : Half) (o : Nat) : (s.ev h a c d).rg b k o = s.rg b k o :=
  rg_of_regs (by simp) _ _ _
@[simp] theorem rg_start (s : State) (o : Org) (a r : Nat) (x : Option Half) (b : Blk) (k : Half) (off : Nat) : (s.start o a r x).rg b k off = s.rg b k off :=
  rg_of_regs (by simp) _ _ _
@[simp] theorem rg_complete (s : State) (o : Org) (x : Half) (a st : Nat) (f : Bool) (p : List Nat) (b : Blk) (k : Half) (off : Nat) :
    (s.complete o x a st f p).rg b k off = s.rg b k off := rg_of_regs (by simp) _ _ _

/-! ### Events (R526, R527) -/

theorem raised_putEvent (s : State) (h : Half) (r : EventRec) : ∃ q ∈ ((s.putEvent h r).hf h).mbx.events, q.sev = r.sev ∧ q.code = r.code ∧ q.detail = r.detail := by
  refine ⟨{ r with seq := (s.hf h).mbx.evseq }, ?_, rfl, rfl, rfl⟩
  simp [State.putEvent, State.mMbx]

theorem events_putEvent_mono (s : State) (h k : Half) (r q : EventRec) (m : q ∈ (s.hf k).mbx.events) : q ∈ ((s.putEvent h r).hf k).mbx.events := by
  simp only [State.putEvent, State.mMbx, hf_mh]
  split
  · simp [m]
  · exact m

/-- An event raised in a half stands in that half's log. -/
@[simp] theorem raised_ev (s : State) (h : Half) (sev code : Nat) (d : List Nat) : Raised (s.ev h sev code d) h sev code d := by
  obtain ⟨q, hq, h1, h2, h3⟩ := raised_putEvent s h { seq := 0, origin := hbit h, sev := sev, code := code, tick := s.tick h, detail := padTo 16 d }
  refine ⟨q, ?_, h1, h2, h3⟩
  simp only [State.ev]
  split
  · exact events_putEvent_mono _ _ _ _ _ hq
  · exact hq

/-- An event of an island or of the shared I/O domain stands in both logs. -/
@[simp] theorem raised_evShared (s : State) (og sev code : Nat) (d : List Nat) (k : Half) : Raised (s.evShared og sev code d) k sev code d := by
  cases k
  · obtain ⟨q, hq, h1, h2, h3⟩ := raised_putEvent s .A { seq := 0, origin := og, sev := sev, code := code, tick := s.now, detail := padTo 16 d }
    exact ⟨q, events_putEvent_mono _ _ _ _ _ hq, h1, h2, h3⟩
  · obtain ⟨q, hq, h1, h2, h3⟩ := raised_putEvent (s.putEvent .A { seq := 0, origin := og, sev := sev, code := code, tick := s.now, detail := padTo 16 d }) .B
      { seq := 0, origin := og, sev := sev, code := code, tick := s.now, detail := padTo 16 d }
    exact ⟨q, hq, h1, h2, h3⟩

/-! ### Completions (R501, R506) -/

theorem sameCmd_self (o : Org) : sameCmd o o = true := by simp [sameCmd]

theorem running_congr {s t : State} {o : Org} (h : (t.hf o.half).mbx.started = (s.hf o.half).mbx.started) (r : Running s o) : Running t o := by
  simpa only [Running, h] using r

@[simp] theorem running_start (s : State) (o : Org) (opc role : Nat) (x : Option Half) : Running (s.start o opc role x) o := by
  simp only [Running, State.start, State.mMbx, hf_mh_same]
  split
  · rename_i h
    simp only [List.any_map, List.any_eq_true] at h ⊢
    obtain ⟨c, hc, e⟩ := h
    refine ⟨c, hc, ?_⟩
    simp only [Function.comp_apply]
    split <;> simpa using e
  · simp [sameCmd_self]

/-- A command that runs and completes has its completion, with the status given unless a long payload does not fit (R507). -/
@[simp] theorem answered_complete {s : State} {o : Org} (r : Running s o) (x : Half) (opc st : Nat) (fin : Bool) (p : List Nat) (hp : p.length ≤ 24) :
    AnsweredWith (s.complete o x opc st fin p) o opc st fin p := by
  simp only [Running, List.any_eq_true] at r
  obtain ⟨c, hc, e⟩ := r
  have hs : ((s.hf o.half).mbx.started.find? fun c => sameCmd c.org o).isSome := by
    rw [List.find?_isSome]; exact ⟨c, hc, e⟩
  obtain ⟨d, hd⟩ := Option.isSome_iff_exists.mp hs
  have hb : (decide (24 < p.length ∧ d.cap < p.length)) = false := by simp; omega
  simp only [AnsweredWith, State.complete, State.completeAt, State.mMbx, hf_mh_same, hd, hb]
  exact ⟨_, List.mem_append_right _ (List.mem_singleton.mpr rfl), rfl, rfl, rfl, rfl, rfl, rfl, rfl⟩

theorem Answered.of_with {t : State} {o : Org} {opc st : Nat} {f : Bool} {p : List Nat} (h : AnsweredWith t o opc st f p) : Answered t o opc st f := by
  obtain ⟨c, m, a, b, d, e, g, i, _⟩ := h
  exact ⟨c, m, a, b, d, e, g, i⟩

/-! ### Verbs (R515) -/

/-- A verb whose conditions hold is its body at the half in charge, the command started. -/
theorem verb_runs {s : State} {o : Org} {opc : Nat} {x : Half} {role : Nat} (r : RunsAt s o opc x role) {roles : List Nat} (m : role ∈ roles)
    (body : State → Half → Nat → State) : s.verb o opc roles body = body (s.start o opc role (some x)) x role := by
  obtain ⟨h1, h2, h3, h4, h5, h6, h7⟩ := r
  have h5' : (decide (x = o.half) || s.twinUp o.half) = true := by
    rcases h5 with h | h <;> simp [h]
  simp only [State.verb, State.verbG, h1, h2, h3, h4, h5', State.runAt, h6, h7, m]
  simp

/-- A verb of the receiving half whose conditions hold is its body there. -/
theorem verbHere_runs {s : State} {o : Org} {opc role : Nat} (r : RunsHere s o opc role) {roles : List Nat} (m : role ∈ roles) (body : State → Nat → State) :
    s.verbHere o opc roles body = body (s.start o opc role (some o.half)) role := by
  obtain ⟨h1, h2, h3⟩ := r
  simp only [State.verbHere, State.runAt, h1, h2, h3, m]
  simp

/-- A verb under a role its row does not name completes with ST_ROLE. -/
theorem verb_role {s : State} {o : Org} {opc : Nat} {x : Half} {role : Nat} (r : RunsAt s o opc x role) {roles : List Nat} (m : role ∉ roles)
    (body : State → Half → Nat → State) : s.verb o opc roles body = (s.start o opc role (some x)).complete o x opc stRole true [] := by
  obtain ⟨h1, h2, h3, h4, h5, h6, h7⟩ := r
  have h5' : (decide (x = o.half) || s.twinUp o.half) = true := by
    rcases h5 with h | h <;> simp [h]
  simp only [State.verb, State.verbG, h1, h2, h3, h4, h5', State.runAt, h6, h7, m]
  simp

/-! ### Staging (R17) -/

/-- A staging write goes into the receiving bank of its half, stamped; it does nothing else. -/
theorem stage_stageWrite (s : State) (h : Half) {i : Nat} (v : Int) (hi : i < 270) :
    (s.stageWrite h i v).stage h i = { s.stage h i with pend := some v, pendStamp := s.tick h } := by
  simp [State.stageWrite, State.stage, hi, State.tick]

end Sys2Proof.Machine
end

