-- ==== Sys2Proof/Laws/Frame.lean ====
section
/-!
SUPPORT. Frames: how they compose, and which parts of the state each shared operation may change.
-/

namespace Sys2Proof.Machine

@[simp] theorem Frame.refl (ps : List Part) (s : State) : Frame ps s s := by intro p _; cases p <;> first | rfl | exact fun _ _ => rfl

theorem Same.trans {s t u : State} {p : Part} (a : Same s t p) (b : Same t u p) : Same s u p := by
  cases p <;> first | exact Eq.trans b a | exact fun h o => (b h o).trans (a h o)

theorem Frame.trans {ps : List Part} {s t u : State} (a : Frame ps s t) (b : Frame ps t u) : Frame ps s u :=
  fun p hp => (a p hp).trans (b p hp)

theorem Frame.mono {ps qs : List Part} {s t : State} (a : Frame ps s t) (h : ∀ p ∈ ps, p ∈ qs) : Frame qs s t := fun p hp => a p fun m => hp (h p m)

/-- What a frame says of one register word, one half's part, one field. -/
theorem Frame.rg {ps : List Part} {s t : State} (f : Frame ps s t) {b : Blk} (m : Part.regs b ∉ ps) (h : Half) (o : Nat) : t.rg b h o = s.rg b h o :=
  f (.regs b) m h o

/-- One more operation after a framed run. -/
theorem Frame.via {ps qs : List Part} {s t u : State} (b : Frame qs t u) (h : ∀ p ∈ qs, p ∈ ps) (a : Frame ps s t) : Frame ps s u := a.trans (b.mono h)

theorem Frame.ite {ps : List Part} {s t u : State} {c : Prop} [Decidable c] (a : c → Frame ps s t) (b : ¬c → Frame ps s u) : Frame ps s (if c then t else u) := by
  split <;> simp_all

theorem Frame.foldl {α : Type} {ps : List Part} {f : State → α → State} (h : ∀ s a, Frame ps s (f s a)) : (l : List α) → (s : State) → Frame ps s (l.foldl f s)
  | [], s => Frame.refl ps s
  | a :: l, s => (h s a).trans (Frame.foldl h l (f s a))

/-- A frame by its halves and the rest: what an update of one half changes. -/
theorem frame_mh {ps : List Part} (s : State) (h : Half) (f : HalfSt → HalfSt)
    (g : ∀ p, p ∉ ps → Same s (s.mh h f) p) : Frame ps s (s.mh h f) := g

theorem frame_mTck (s : State) (h : Half) (f : TckS → TckS) : Frame [.tck h] s (s.mTck h f) := by
  intro p hp; cases p <;> first | (simp [Same]; done) | (rename_i k; simp at hp; simp [Same, State.mTck, hf_mh, hp])
theorem frame_mTwn (s : State) (h : Half) (f : TwnS → TwnS) : Frame [.twn h] s (s.mTwn h f) := by
  intro p hp; cases p <;> first | (simp [Same]; done) | (rename_i k; simp at hp; simp [Same, State.mTwn, hf_mh, hp])
theorem frame_mMbx (s : State) (h : Half) (f : MbxS → MbxS) : Frame [.mbx h] s (s.mMbx h f) := by
  intro p hp; cases p <;> first | (simp [Same]; done) | (rename_i k; simp at hp; simp [Same, State.mMbx, hf_mh, hp])
theorem frame_mPort (s : State) (h : Half) (n : Nat) (f : PortS → PortS) : Frame [.ports h] s (s.mPort h n f) := by
  intro p hp; cases p <;> first | (simp [Same]; done) | (rename_i k; simp at hp; simp [Same, State.mPort, hf_mh, hp])
theorem frame_mRing (s : State) (h : Half) (n : Nat) (f : RingS → RingS) : Frame [.mbx h] s (s.mRing h n f) := frame_mMbx _ _ _
theorem frame_srg (s : State) (b : Blk) (h : Half) (o : Nat) (v : Word) : Frame [.regs b] s (s.srg b h o v) := by
  intro p hp; cases p <;> first | (simp [Same]; done) | (rename_i c; simp only [List.mem_singleton, Part.regs.injEq] at hp; intro k q; exact rg_srg_blk _ _ _ _ _ _ hp)
theorem frame_srf (s : State) (b : Blk) (h : Half) (o a c v : Nat) : Frame [.regs b] s (s.srf b h o a c v) := frame_srg _ _ _ _ _
theorem frame_bump (s : State) (b : Blk) (h : Half) (o n : Nat) : Frame [.regs b] s (s.bump b h o n) := frame_srg _ _ _ _ _
theorem frame_drew (s : State) (n : Nat) : Frame [.free] s (s.drew n) := by
  intro p hp; cases p <;> first | (exfalso; simp at hp; done) | (simp [Same])
theorem frame_mBlk (s : State) (b : Blk) (h : Half) (f : BlockDyn → BlockDyn) : Frame [.blocks] s (s.mBlk b h f) := by
  intro p hp; cases p <;> first | (exfalso; simp at hp; done) | (simp [Same])
theorem frame_mRem (s : State) (n : Nat) (f : Remote → Remote) : Frame [.rems] s (s.mRem n f) := by
  intro p hp; cases p <;> first | (exfalso; simp at hp; done) | (simp [Same])
theorem frame_start (s : State) (o : Org) (a r : Nat) (x : Option Half) : Frame [.mbx o.half] s (s.start o a r x) := frame_mMbx _ _ _
theorem frame_completeAt (s : State) (o : Org) (x : Half) (a b : Nat) (f : Bool) (p : List Nat) (t : Nat) :
    Frame [.mbx o.half] s (s.completeAt o x a b f p t) := frame_mMbx _ _ _
theorem frame_complete (s : State) (o : Org) (x : Half) (a b : Nat) (f : Bool) (p : List Nat) : Frame [.mbx o.half] s (s.complete o x a b f p) :=
  frame_mMbx _ _ _
theorem frame_putEvent (s : State) (h : Half) (r : EventRec) : Frame [.mbx h] s (s.putEvent h r) := frame_mMbx _ _ _
theorem frame_ev (s : State) (h : Half) (a c : Nat) (d : List Nat) : Frame bothMbx s (s.ev h a c d) := by
  have m (k : Half) : ∀ p ∈ [Part.mbx k], p ∈ bothMbx := by cases k <;> simp [bothMbx]
  unfold State.ev
  exact Frame.ite (fun _ => Frame.via (frame_putEvent _ _ _) (m _) ((frame_putEvent _ _ _).mono (m _))) fun _ => (frame_putEvent _ _ _).mono (m _)
theorem frame_evShared (s : State) (og a c : Nat) (d : List Nat) : Frame bothMbx s (s.evShared og a c d) :=
  Frame.via (frame_putEvent _ _ _) (by simp [bothMbx]) ((frame_putEvent _ _ _).mono (by simp [bothMbx]))
theorem frame_flashWrite (s : State) (h : Half) (n : Nat) : Frame [.thm h] s (s.flashWrite h n) := by
  unfold State.flashWrite
  refine Frame.ite (fun _ => ?_) (fun _ => Frame.refl _ _)
  intro p hp; cases p <;> first | (simp [Same]; done) | (rename_i k; simp at hp; simp [Same, hf_mh]; try split <;> simp_all)
theorem frame_stageWrite (s : State) (h : Half) (i : Nat) (v : Int) : Frame [.stg h] s (s.stageWrite h i v) := by
  unfold State.stageWrite
  refine Frame.ite (fun _ => ?_) (fun _ => Frame.refl _ _)
  intro p hp; cases p <;> first | (simp [Same]; done) | (rename_i k; simp at hp; simp [Same, hf_mh]; try split <;> simp_all)
theorem frame_writeShadow (s : State) (b : Blk) (o : Nat) (v : Word) : Frame [.shadow] s (s.writeShadow b o v) := by
  unfold State.writeShadow
  refine Frame.foldl (fun s h => ?_) _ _
  intro p hp; cases p <;> first | (exfalso; simp at hp; done) | rfl | (intro k q; rfl)
theorem frame_arm (s : State) (b : Blk) (r : Nat) (w : Option Waiter) : Frame [.blocks] s (s.arm b r w) := by
  unfold State.arm
  exact Frame.foldl (fun s h => frame_mBlk _ _ _ _) _ _

end Sys2Proof.Machine
end

