-- ==== Sys2Proof/Laws/FrameStep.lean ====
section
/-!
SUPPORT. One more operation after a framed run, in the form simp uses: whoever shows `Frame ps s (…)` of a chain of operations is left with what the chain
writes being among `ps`.
-/

namespace Sys2Proof.Machine

@[simp] theorem Frame.after_mTck {QS : List Part} {z s : State} (h : Half) (f : TckS → TckS) (fr_ : Frame QS z s) (in0_ : .tck h ∈ QS) : Frame QS z (s.mTck h f) := Frame.via (frame_mTck s h f) (by simp [bothMbx, *]) fr_
@[simp] theorem Frame.after_mTwn {QS : List Part} {z s : State} (h : Half) (f : TwnS → TwnS) (fr_ : Frame QS z s) (in0_ : .twn h ∈ QS) : Frame QS z (s.mTwn h f) := Frame.via (frame_mTwn s h f) (by simp [bothMbx, *]) fr_
@[simp] theorem Frame.after_mMbx {QS : List Part} {z s : State} (h : Half) (f : MbxS → MbxS) (fr_ : Frame QS z s) (in0_ : .mbx h ∈ QS) : Frame QS z (s.mMbx h f) := Frame.via (frame_mMbx s h f) (by simp [bothMbx, *]) fr_
@[simp] theorem Frame.after_mPort {QS : List Part} {z s : State} (h : Half) (n : Nat) (f : PortS → PortS) (fr_ : Frame QS z s) (in0_ : .ports h ∈ QS) : Frame QS z (s.mPort h n f) := Frame.via (frame_mPort s h n f) (by simp [bothMbx, *]) fr_
@[simp] theorem Frame.after_mRing {QS : List Part} {z s : State} (h : Half) (n : Nat) (f : RingS → RingS) (fr_ : Frame QS z s) (in0_ : .mbx h ∈ QS) : Frame QS z (s.mRing h n f) := Frame.via (frame_mRing s h n f) (by simp [bothMbx, *]) fr_
@[simp] theorem Frame.after_srg {QS : List Part} {z s : State} (b : Blk) (h : Half) (o : Nat) (v : Word) (fr_ : Frame QS z s) (in0_ : .regs b ∈ QS) : Frame QS z (s.srg b h o v) := Frame.via (frame_srg s b h o v) (by simp [bothMbx, *]) fr_
@[simp] theorem Frame.after_drew {QS : List Part} {z s : State} (n : Nat) (fr_ : Frame QS z s) (in0_ : .free ∈ QS) : Frame QS z (s.drew n) := Frame.via (frame_drew s n) (by simp [bothMbx, *]) fr_
@[simp] theorem Frame.after_mBlk {QS : List Part} {z s : State} (b : Blk) (h : Half) (f : BlockDyn → BlockDyn) (fr_ : Frame QS z s) (in0_ : .blocks ∈ QS) : Frame QS z (s.mBlk b h f) := Frame.via (frame_mBlk s b h f) (by simp [bothMbx, *]) fr_
@[simp] theorem Frame.after_mRem {QS : List Part} {z s : State} (n : Nat) (f : Remote → Remote) (fr_ : Frame QS z s) (in0_ : .rems ∈ QS) : Frame QS z (s.mRem n f) := Frame.via (frame_mRem s n f) (by simp [bothMbx, *]) fr_
@[simp] theorem Frame.after_mh {QS : List Part} {z s : State} (h : Half) (f : HalfSt → HalfSt) (fr_ : Frame QS z s) (h_tck : .tck h ∈ QS ∨ ∀ x, (f x).tck = x.tck) (h_stg : .stg h ∈ QS ∨ ∀ x, (f x).stg = x.stg) (h_pts : .pts h ∈ QS ∨ ∀ x, (f x).pts = x.pts) (h_saved : .saved h ∈ QS ∨ ∀ x, (f x).saved = x.saved) (h_mirOut : .mirOut h ∈ QS ∨ ∀ x, (f x).mirOut = x.mirOut) (h_restWait : .restWait h ∈ QS ∨ ∀ x, (f x).restWait = x.restWait) (h_part : .part h ∈ QS ∨ ∀ x, (f x).part = x.part) (h_ports : .ports h ∈ QS ∨ ∀ x, (f x).ports = x.ports) (h_bulk : .bulk h ∈ QS ∨ ∀ x, (f x).bulk = x.bulk) (h_twn : .twn h ∈ QS ∨ ∀ x, (f x).twn = x.twn) (h_cln : .cln h ∈ QS ∨ ∀ x, (f x).cln = x.cln) (h_pst : .pst h ∈ QS ∨ ∀ x, (f x).pst = x.pst) (h_cnp : .cnp h ∈ QS ∨ ∀ x, (f x).cnp = x.cnp) (h_saf : .safv h ∈ QS ∨ ∀ x, (f x).saf = x.saf) (h_pub : .pub h ∈ QS ∨ ∀ x, (f x).pub = x.pub) (h_thm : .thm h ∈ QS ∨ ∀ x, (f x).thm = x.thm) (h_mbx : .mbx h ∈ QS ∨ ∀ x, (f x).mbx = x.mbx) (h_tmr : .tmr h ∈ QS ∨ ∀ x, (f x).tmr = x.tmr) : Frame QS z (s.mh h f) := by
  refine fr_.trans ?_
  intro p hp
  cases p <;> first | (simp [Same]; done) | (rename_i k; simp only [Same, hf_mh]; by_cases e : k = h <;> simp_all)
@[simp] theorem Frame.after_setHf {QS : List Part} {z s : State} (h : Half) (v : HalfSt) (fr_ : Frame QS z s) (h_tck : .tck h ∈ QS ∨ v.tck = (s.hf h).tck) (h_stg : .stg h ∈ QS ∨ v.stg = (s.hf h).stg) (h_pts : .pts h ∈ QS ∨ v.pts = (s.hf h).pts) (h_saved : .saved h ∈ QS ∨ v.saved = (s.hf h).saved) (h_mirOut : .mirOut h ∈ QS ∨ v.mirOut = (s.hf h).mirOut) (h_restWait : .restWait h ∈ QS ∨ v.restWait = (s.hf h).restWait) (h_part : .part h ∈ QS ∨ v.part = (s.hf h).part) (h_ports : .ports h ∈ QS ∨ v.ports = (s.hf h).ports) (h_bulk : .bulk h ∈ QS ∨ v.bulk = (s.hf h).bulk) (h_twn : .twn h ∈ QS ∨ v.twn = (s.hf h).twn) (h_cln : .cln h ∈ QS ∨ v.cln = (s.hf h).cln) (h_pst : .pst h ∈ QS ∨ v.pst = (s.hf h).pst) (h_cnp : .cnp h ∈ QS ∨ v.cnp = (s.hf h).cnp) (h_saf : .safv h ∈ QS ∨ v.saf = (s.hf h).saf) (h_pub : .pub h ∈ QS ∨ v.pub = (s.hf h).pub) (h_thm : .thm h ∈ QS ∨ v.thm = (s.hf h).thm) (h_mbx : .mbx h ∈ QS ∨ v.mbx = (s.hf h).mbx) (h_tmr : .tmr h ∈ QS ∨ v.tmr = (s.hf h).tmr) : Frame QS z (s.setHf h v) := by
  refine fr_.trans ?_
  have e2 : s.setHf h v = s.mh h (fun _ => v) := rfl
  rw [e2]
  intro p hp
  cases p <;> first | (simp [Same]; done) | (rename_i k; simp only [Same, hf_mh]; by_cases e : k = h <;> simp_all)
@[simp] theorem Frame.after_mBoth {QS : List Part} {z s : State} (f : HalfSt → HalfSt) (fr_ : Frame QS z s) (hA_tck : .tck .A ∈ QS ∨ ∀ x, (f x).tck = x.tck) (hA_stg : .stg .A ∈ QS ∨ ∀ x, (f x).stg = x.stg) (hA_pts : .pts .A ∈ QS ∨ ∀ x, (f x).pts = x.pts) (hA_saved : .saved .A ∈ QS ∨ ∀ x, (f x).saved = x.saved) (hA_mirOut : .mirOut .A ∈ QS ∨ ∀ x, (f x).mirOut = x.mirOut) (hA_restWait : .restWait .A ∈ QS ∨ ∀ x, (f x).restWait = x.restWait) (hA_part : .part .A ∈ QS ∨ ∀ x, (f x).part = x.part) (hA_ports : .ports .A ∈ QS ∨ ∀ x, (f x).ports = x.ports) (hA_bulk : .bulk .A ∈ QS ∨ ∀ x, (f x).bulk = x.bulk) (hA_twn : .twn .A ∈ QS ∨ ∀ x, (f x).twn = x.twn) (hA_cln : .cln .A ∈ QS ∨ ∀ x, (f x).cln = x.cln) (hA_pst : .pst .A ∈ QS ∨ ∀ x, (f x).pst = x.pst) (hA_cnp : .cnp .A ∈ QS ∨ ∀ x, (f x).cnp = x.cnp) (hA_saf : .safv .A ∈ QS ∨ ∀ x, (f x).saf = x.saf) (hA_pub : .pub .A ∈ QS ∨ ∀ x, (f x).pub = x.pub) (hA_thm : .thm .A ∈ QS ∨ ∀ x, (f x).thm = x.thm) (hA_mbx : .mbx .A ∈ QS ∨ ∀ x, (f x).mbx = x.mbx) (hA_tmr : .tmr .A ∈ QS ∨ ∀ x, (f x).tmr = x.tmr) (hB_tck : .tck .B ∈ QS ∨ ∀ x, (f x).tck = x.tck) (hB_stg : .stg .B ∈ QS ∨ ∀ x, (f x).stg = x.stg) (hB_pts : .pts .B ∈ QS ∨ ∀ x, (f x).pts = x.pts) (hB_saved : .saved .B ∈ QS ∨ ∀ x, (f x).saved = x.saved) (hB_mirOut : .mirOut .B ∈ QS ∨ ∀ x, (f x).mirOut = x.mirOut) (hB_restWait : .restWait .B ∈ QS ∨ ∀ x, (f x).restWait = x.restWait) (hB_part : .part .B ∈ QS ∨ ∀ x, (f x).part = x.part) (hB_ports : .ports .B ∈ QS ∨ ∀ x, (f x).ports = x.ports) (hB_bulk : .bulk .B ∈ QS ∨ ∀ x, (f x).bulk = x.bulk) (hB_twn : .twn .B ∈ QS ∨ ∀ x, (f x).twn = x.twn) (hB_cln : .cln .B ∈ QS ∨ ∀ x, (f x).cln = x.cln) (hB_pst : .pst .B ∈ QS ∨ ∀ x, (f x).pst = x.pst) (hB_cnp : .cnp .B ∈ QS ∨ ∀ x, (f x).cnp = x.cnp) (hB_saf : .safv .B ∈ QS ∨ ∀ x, (f x).saf = x.saf) (hB_pub : .pub .B ∈ QS ∨ ∀ x, (f x).pub = x.pub) (hB_thm : .thm .B ∈ QS ∨ ∀ x, (f x).thm = x.thm) (hB_mbx : .mbx .B ∈ QS ∨ ∀ x, (f x).mbx = x.mbx) (hB_tmr : .tmr .B ∈ QS ∨ ∀ x, (f x).tmr = x.tmr) : Frame QS z (s.mBoth f) := by
  refine fr_.trans ?_
  intro p hp
  cases p <;> first | (simp [Same]; done) | (rename_i k; simp only [Same, hf_mBoth]; cases k <;> simp_all)
set_option maxHeartbeats 2000000 in
@[simp] theorem Frame.after_mk {QS : List Part} {z X : State} (v_free : Nat) (v_regs : Tab Word) (v_shadow : Tab (Option Word)) (v_blocks : Tab BlockDyn) (v_halfA : HalfSt) (v_halfB : HalfSt) (v_ref : Referee) (v_ho : Option Handover) (v_pll : SharedPll) (v_rtc : Nat) (v_rems : Tab Remote) (v_cabs : Tab CabR) (v_therm : ThermI) (v_veh : Tab VehS) (v_vehG : VehG) (v_met : MetS) (v_bil : BilS) (v_lkt : LktS) (v_saf : SafS) (v_cans : Tab CanS) (v_lsw : LswS) (v_mesh : MeshS) (v_upd : UpdS) (v_pwr : PwrS)  (h_free : .free ∈ QS ∨ v_free = X.free) (h_regs : (∀ b : Blk, Part.regs b ∈ QS) ∨ v_regs = X.regs) (h_shadow : .shadow ∈ QS ∨ v_shadow = X.shadow) (h_blocks : .blocks ∈ QS ∨ v_blocks = X.blocks) (h_halfA_tck : .tck .A ∈ QS ∨ v_halfA.tck = X.halfA.tck)(h_halfA_stg : .stg .A ∈ QS ∨ v_halfA.stg = X.halfA.stg)(h_halfA_pts : .pts .A ∈ QS ∨ v_halfA.pts = X.halfA.pts) (h_halfA_saved : .saved .A ∈ QS ∨ v_halfA.saved = X.halfA.saved)(h_halfA_mirOut : .mirOut .A ∈ QS ∨ v_halfA.mirOut = X.halfA.mirOut)(h_halfA_restWait : .restWait .A ∈ QS ∨ v_halfA.restWait = X.halfA.restWait)(h_halfA_part : .part .A ∈ QS ∨ v_halfA.part = X.halfA.part)(h_halfA_ports : .ports .A ∈ QS ∨ v_halfA.ports = X.halfA.ports)(h_halfA_bulk : .bulk .A ∈ QS ∨ v_halfA.bulk = X.halfA.bulk)(h_halfA_twn : .twn .A ∈ QS ∨ v_halfA.twn = X.halfA.twn)(h_halfA_cln : .cln .A ∈ QS ∨ v_halfA.cln = X.halfA.cln)(h_halfA_pst : .pst .A ∈ QS ∨ v_halfA.pst = X.halfA.pst)(h_halfA_cnp : .cnp .A ∈ QS ∨ v_halfA.cnp = X.halfA.cnp)(h_halfA_saf : .safv .A ∈ QS ∨ v_halfA.saf = X.halfA.saf)(h_halfA_pub : .pub .A ∈ QS ∨ v_halfA.pub = X.halfA.pub)(h_halfA_thm : .thm .A ∈ QS ∨ v_halfA.thm = X.halfA.thm)(h_halfA_mbx : .mbx .A ∈ QS ∨ v_halfA.mbx = X.halfA.mbx)(h_halfA_tmr : .tmr .A ∈ QS ∨ v_halfA.tmr = X.halfA.tmr) (h_halfB_tck : .tck .B ∈ QS ∨ v_halfB.tck = X.halfB.tck)(h_halfB_stg : .stg .B ∈ QS ∨ v_halfB.stg = X.halfB.stg)(h_halfB_pts : .pts .B ∈ QS ∨ v_halfB.pts = X.halfB.pts) (h_halfB_saved : .saved .B ∈ QS ∨ v_halfB.saved = X.halfB.saved)(h_halfB_mirOut : .mirOut .B ∈ QS ∨ v_halfB.mirOut = X.halfB.mirOut)(h_halfB_restWait : .restWait .B ∈ QS ∨ v_halfB.restWait = X.halfB.restWait)(h_halfB_part : .part .B ∈ QS ∨ v_halfB.part = X.halfB.part)(h_halfB_ports : .ports .B ∈ QS ∨ v_halfB.ports = X.halfB.ports)(h_halfB_bulk : .bulk .B ∈ QS ∨ v_halfB.bulk = X.halfB.bulk)(h_halfB_twn : .twn .B ∈ QS ∨ v_halfB.twn = X.halfB.twn)(h_halfB_cln : .cln .B ∈ QS ∨ v_halfB.cln = X.halfB.cln)(h_halfB_pst : .pst .B ∈ QS ∨ v_halfB.pst = X.halfB.pst)(h_halfB_cnp : .cnp .B ∈ QS ∨ v_halfB.cnp = X.halfB.cnp)(h_halfB_saf : .safv .B ∈ QS ∨ v_halfB.saf = X.halfB.saf)(h_halfB_pub : .pub .B ∈ QS ∨ v_halfB.pub = X.halfB.pub)(h_halfB_thm : .thm .B ∈ QS ∨ v_halfB.thm = X.halfB.thm)(h_halfB_mbx : .mbx .B ∈ QS ∨ v_halfB.mbx = X.halfB.mbx)(h_halfB_tmr : .tmr .B ∈ QS ∨ v_halfB.tmr = X.halfB.tmr) (h_ref : .ref ∈ QS ∨ v_ref = X.ref) (h_ho : .ho ∈ QS ∨ v_ho = X.ho) (h_pll : .pll ∈ QS ∨ v_pll = X.pll) (h_rtc : .rtc ∈ QS ∨ v_rtc = X.rtc) (h_rems : .rems ∈ QS ∨ v_rems = X.rems) (h_cabs : .cabs ∈ QS ∨ v_cabs = X.cabs) (h_therm : .therm ∈ QS ∨ v_therm = X.therm) (h_veh : .veh ∈ QS ∨ v_veh = X.veh) (h_vehG : .vehG ∈ QS ∨ v_vehG = X.vehG) (h_met : .met ∈ QS ∨ v_met = X.met) (h_bil : .bil ∈ QS ∨ v_bil = X.bil) (h_lkt : .lkt ∈ QS ∨ v_lkt = X.lkt) (h_saf : .saf ∈ QS ∨ v_saf = X.saf) (h_cans : .cans ∈ QS ∨ v_cans = X.cans) (h_lsw : .lsw ∈ QS ∨ v_lsw = X.lsw) (h_mesh : .mesh ∈ QS ∨ v_mesh = X.mesh) (h_upd : .upd ∈ QS ∨ v_upd = X.upd) (h_pwr : .pwr ∈ QS ∨ v_pwr = X.pwr) (fr_ : Frame QS z X) : Frame QS z ⟨X.pending, v_free, v_regs, v_shadow, v_blocks, v_halfA, v_halfB, v_ref, v_ho, v_pll, v_rtc, v_rems, v_cabs, v_therm, v_veh, v_vehG, v_met, v_bil, v_lkt, v_saf, v_cans, v_lsw, v_mesh, v_upd, v_pwr⟩ := by
  refine fr_.trans ?_
  intro p hp
  cases p
  case regs b => exact h_regs.elim (fun e => absurd (e b) hp) fun e => fun h o => rg_of_regs e b h o
  all_goals first | rfl | (simp only [Same]; simp_all; done) | (rename_i k; cases k <;> simp only [Same, State.hf] <;> simp_all)

@[simp] theorem Parts.nil {QS : List Part} : ∀ p ∈ ([] : List Part), p ∈ QS := fun _ h => nomatch h
theorem Parts.cons {QS l : List Part} {q : Part} (h : q ∈ QS) (t : ∀ p ∈ l, p ∈ QS) : ∀ p ∈ q :: l, p ∈ QS := List.forall_mem_cons.2 ⟨h, t⟩
theorem forall_allRegs (P : Part → Prop) : (∀ p ∈ allRegs, P p) ↔ ∀ b, P (.regs b) := ⟨fun h b => h _ (by cases b <;> simp [allRegs]), fun h => by simp [allRegs, h]⟩
theorem Parts.regs {QS l : List Part} (h : ∀ b, Part.regs b ∈ QS) (t : ∀ p ∈ l, p ∈ QS) : ∀ p ∈ allRegs ++ l, p ∈ QS := fun p m => (List.mem_append.1 m).elim ((forall_allRegs _).2 h p) (t p)
theorem Parts.app {QS l k : List Part} (h : ∀ p ∈ k, p ∈ QS) (t : ∀ p ∈ l, p ∈ QS) : ∀ p ∈ k ++ l, p ∈ QS := fun p m => (List.mem_append.1 m).elim (h p) (t p)
@[simp] theorem tck_mem_halfParts (h k : Half) : Part.tck h ∈ halfParts k ↔ h = k := by simp [halfParts]
@[simp] theorem stg_mem_halfParts (h k : Half) : Part.stg h ∈ halfParts k ↔ h = k := by simp [halfParts]
@[simp] theorem pts_mem_halfParts (h k : Half) : Part.pts h ∈ halfParts k ↔ h = k := by simp [halfParts]
@[simp] theorem saved_mem_halfParts (h k : Half) : Part.saved h ∈ halfParts k ↔ h = k := by simp [halfParts]
@[simp] theorem mirOut_mem_halfParts (h k : Half) : Part.mirOut h ∈ halfParts k ↔ h = k := by simp [halfParts]
@[simp] theorem restWait_mem_halfParts (h k : Half) : Part.restWait h ∈ halfParts k ↔ h = k := by simp [halfParts]
@[simp] theorem part_mem_halfParts (h k : Half) : Part.part h ∈ halfParts k ↔ h = k := by simp [halfParts]
@[simp] theorem ports_mem_halfParts (h k : Half) : Part.ports h ∈ halfParts k ↔ h = k := by simp [halfParts]
@[simp] theorem bulk_mem_halfParts (h k : Half) : Part.bulk h ∈ halfParts k ↔ h = k := by simp [halfParts]
@[simp] theorem twn_mem_halfParts (h k : Half) : Part.twn h ∈ halfParts k ↔ h = k := by simp [halfParts]
@[simp] theorem cln_mem_halfParts (h k : Half) : Part.cln h ∈ halfParts k ↔ h = k := by simp [halfParts]
@[simp] theorem pst_mem_halfParts (h k : Half) : Part.pst h ∈ halfParts k ↔ h = k := by simp [halfParts]
@[simp] theorem cnp_mem_halfParts (h k : Half) : Part.cnp h ∈ halfParts k ↔ h = k := by simp [halfParts]
@[simp] theorem safv_mem_halfParts (h k : Half) : Part.safv h ∈ halfParts k ↔ h = k := by simp [halfParts]
@[simp] theorem pub_mem_halfParts (h k : Half) : Part.pub h ∈ halfParts k ↔ h = k := by simp [halfParts]
@[simp] theorem thm_mem_halfParts (h k : Half) : Part.thm h ∈ halfParts k ↔ h = k := by simp [halfParts]
@[simp] theorem mbx_mem_halfParts (h k : Half) : Part.mbx h ∈ halfParts k ↔ h = k := by simp [halfParts]
@[simp] theorem tmr_mem_halfParts (h k : Half) : Part.tmr h ∈ halfParts k ↔ h = k := by simp [halfParts]
@[simp] theorem regs_mem_allRegs (b : Blk) : Part.regs b ∈ allRegs := by cases b <;> simp [allRegs]
@[simp] theorem forall_halfParts (P : Part → Prop) (h : Half) : (∀ p ∈ halfParts h, P p) ↔ P (.tck h) ∧ P (.stg h) ∧ P (.pts h) ∧ P (.saved h) ∧ P (.mirOut h) ∧ P (.restWait h) ∧ P (.part h) ∧ P (.ports h) ∧ P (.bulk h) ∧ P (.twn h) ∧ P (.cln h) ∧ P (.pst h) ∧ P (.cnp h) ∧ P (.safv h) ∧ P (.pub h) ∧ P (.thm h) ∧ P (.mbx h) ∧ P (.tmr h) := by simp [halfParts]
@[simp] theorem Frame.after_ite {QS : List Part} {z t u : State} {c : Prop} [Decidable c] (a : Frame QS z t) (b : Frame QS z u) : Frame QS z (if c then t else u) := by split <;> assumption

@[simp] theorem blk_all (b : Blk) : (b = Blk.tck ∨ b = Blk.mbx ∨ b = Blk.twn ∨ b = Blk.nlk ∨ b = Blk.cln ∨ b = Blk.pst ∨ b = Blk.cnp ∨ b = Blk.thm ∨ b = Blk.veh ∨ b = Blk.met ∨ b = Blk.bil ∨ b = Blk.lkt ∨ b = Blk.saf ∨ b = Blk.upd ∨ b = Blk.iox ∨ b = Blk.can ∨ b = Blk.gpio ∨ b = Blk.lsw ∨ b = Blk.rms ∨ b = Blk.pwr ∨ b = Blk.loc) ↔ True := by cases b <;> simp
@[simp] theorem half_or (h : Half) : (h = Half.A ∨ h = Half.B) ↔ True := by cases h <;> simp
@[simp] theorem Frame.after_foldl {α : Type} {QS : List Part} {z s : State} (f : State → α → State) (l : List α) (h : ∀ s a, Frame QS z s → Frame QS z (f s a))
    (hs : Frame QS z s) : Frame QS z (l.foldl f s) := by
  induction l generalizing s with
  | nil => exact hs
  | cons a l ih => exact ih (h _ _ hs)
@[simp] theorem Frame.after_foldlp {α β : Type} {QS : List Part} {z : State} (f : State × β → α → State × β) (l : List α) (p : State × β)
    (h : ∀ q a, Frame QS z q.1 → Frame QS z (f q a).1) (hp : Frame QS z p.1) : Frame QS z (l.foldl f p).1 := by
  induction l generalizing p with
  | nil => exact hp
  | cons a l ih => exact ih _ (h _ _ hp)

end Sys2Proof.Machine
end

