-- ==== Sys2Proof/Laws/FrameOps.lean ====
section
/-!
SUPPORT. Which parts of the state each operation of Machine/Ops.lean may change, and the same as one more step of a framed run.
-/

namespace Sys2Proof.Machine

set_option maxRecDepth 4000

@[simp] theorem Frame.after_srf {QS : List Part} {z0 s : State} (b : Blk) (h : Half) (off : Nat) (hi : Nat) (lo : Nat) (v : Nat) (fr_ : Frame QS z0 s) (in0_ : .regs b ∈ QS) : Frame QS z0 (State.srf s b h off hi lo v) := Frame.via (frame_srf s b h off hi lo v) (Parts.cons in0_ Parts.nil) fr_
@[simp] theorem Frame.after_bump {QS : List Part} {z0 s : State} (b : Blk) (h : Half) (off : Nat) (n : Nat) (fr_ : Frame QS z0 s) (in0_ : .regs b ∈ QS) : Frame QS z0 (State.bump s b h off n) := Frame.via (frame_bump s b h off n) (Parts.cons in0_ Parts.nil) fr_
@[simp] theorem Frame.after_writeShadow {QS : List Part} {z0 s : State} (b : Blk) (off : Nat) (v : Word) (fr_ : Frame QS z0 s) (in0_ : .shadow ∈ QS) : Frame QS z0 (State.writeShadow s b off v) := Frame.via (frame_writeShadow s b off v) (Parts.cons in0_ Parts.nil) fr_
@[simp] theorem Frame.after_arm {QS : List Part} {z0 s : State} (b : Blk) (role : Nat) (w : Option Waiter) (fr_ : Frame QS z0 s) (in0_ : .blocks ∈ QS) : Frame QS z0 (State.arm s b role w) := Frame.via (frame_arm s b role w) (Parts.cons in0_ Parts.nil) fr_
@[simp] theorem Frame.after_putEvent {QS : List Part} {z0 s : State} (h : Half) (r : EventRec) (fr_ : Frame QS z0 s) (in0_ : .mbx h ∈ QS) : Frame QS z0 (State.putEvent s h r) := Frame.via (frame_putEvent s h r) (Parts.cons in0_ Parts.nil) fr_
@[simp] theorem Frame.after_ev {QS : List Part} {z0 s : State} (h : Half) (sev : Nat) (code : Nat) (detail : List Nat) (fr_ : Frame QS z0 s) (in0_ : .mbx .A ∈ QS) (in1_ : .mbx .B ∈ QS) : Frame QS z0 (State.ev s h sev code detail) := Frame.via (frame_ev s h sev code detail) (Parts.cons in0_ (Parts.cons in1_ Parts.nil)) fr_
@[simp] theorem Frame.after_evShared {QS : List Part} {z0 s : State} (origin : Nat) (sev : Nat) (code : Nat) (detail : List Nat) (fr_ : Frame QS z0 s) (in0_ : .mbx .A ∈ QS) (in1_ : .mbx .B ∈ QS) : Frame QS z0 (State.evShared s origin sev code detail) := Frame.via (frame_evShared s origin sev code detail) (Parts.cons in0_ (Parts.cons in1_ Parts.nil)) fr_
@[simp] theorem Frame.after_start {QS : List Part} {z0 s : State} (o : Org) (opc : Nat) (role : Nat) (x : Option Half) (fr_ : Frame QS z0 s) (in0_ : .mbx o.half ∈ QS) : Frame QS z0 (State.start s o opc role x) := Frame.via (frame_start s o opc role x) (Parts.cons in0_ Parts.nil) fr_
@[simp] theorem Frame.after_completeAt {QS : List Part} {z0 s : State} (o : Org) (x : Half) (opc : Nat) (status : Nat) (final : Bool) (payload : List Nat) (t : Nat) (fr_ : Frame QS z0 s) (in0_ : .mbx o.half ∈ QS) : Frame QS z0 (State.completeAt s o x opc status final payload t) := Frame.via (frame_completeAt s o x opc status final payload t) (Parts.cons in0_ Parts.nil) fr_
@[simp] theorem Frame.after_complete {QS : List Part} {z0 s : State} (o : Org) (x : Half) (opc : Nat) (status : Nat) (final : Bool) (payload : List Nat) (fr_ : Frame QS z0 s) (in0_ : .mbx o.half ∈ QS) : Frame QS z0 (State.complete s o x opc status final payload) := Frame.via (frame_complete s o x opc status final payload) (Parts.cons in0_ Parts.nil) fr_
@[simp] theorem Frame.after_flashWrite {QS : List Part} {z0 s : State} (h : Half) (n : Nat) (fr_ : Frame QS z0 s) (in0_ : .thm h ∈ QS) : Frame QS z0 (State.flashWrite s h n) := Frame.via (frame_flashWrite s h n) (Parts.cons in0_ Parts.nil) fr_
@[simp] theorem Frame.after_stageWrite {QS : List Part} {z0 s : State} (h : Half) (i : Nat) (v : Int) (fr_ : Frame QS z0 s) (in0_ : .stg h ∈ QS) : Frame QS z0 (State.stageWrite s h i v) := Frame.via (frame_stageWrite s h i v) (Parts.cons in0_ Parts.nil) fr_
@[simp] theorem Frame.after_runAt {QS : List Part} {z s : State} (o : Org) (x : Half) (opc : Nat) (roles : List Nat) (hb : Bool) (body : State → Nat → State) (fr_ : Frame QS z s) (in0_ : .mbx .A ∈ QS) (in1_ : .mbx .B ∈ QS)
    (hb_ : ∀ s r, Frame QS z s → Frame QS z (body s r)) : Frame QS z (s.runAt o x opc roles hb body) := by
  have mm : ∀ h : Half, .mbx h ∈ QS := fun h => by cases h <;> assumption
  unfold State.runAt
  have hs0 := fr_
  split
  · simp [*]
  · split
    · simp [*]
    · split
      · simp [*]
      · split
        · exact hb_ _ _ (by simp [*])
        · simp [*]
@[simp] theorem Frame.after_verbHere {QS : List Part} {z s : State} (o : Org) (opc : Nat) (roles : List Nat) (body : State → Nat → State) (fr_ : Frame QS z s) (in0_ : .mbx .A ∈ QS) (in1_ : .mbx .B ∈ QS)
    (hb_ : ∀ s r, Frame QS z s → Frame QS z (body s r)) : Frame QS z (s.verbHere o opc roles body) := Frame.after_runAt _ _ _ _ _ _ fr_ in0_ in1_ hb_
@[simp] theorem Frame.after_verbG {QS : List Part} {z s : State} (o : Org) (opc : Nat) (roles : List Nat) (hb : Bool) (body : State → Half → Nat → State) (fr_ : Frame QS z s) (in0_ : .mbx .A ∈ QS) (in1_ : .mbx .B ∈ QS)
    (hb_ : ∀ s x r, Frame QS z s → Frame QS z (body s x r)) : Frame QS z (s.verbG o opc roles hb body) := by
  have mm : ∀ h : Half, .mbx h ∈ QS := fun h => by cases h <;> assumption
  unfold State.verbG
  split
  · simp [*]
  · split
    · simp [*]
    · split
      · split
        · exact Frame.after_runAt _ _ _ _ _ _ fr_ in0_ in1_ (fun s r hs => hb_ s _ r hs)
        · simp [*]
      · simp [*]
@[simp] theorem Frame.after_verb {QS : List Part} {z s : State} (o : Org) (opc : Nat) (roles : List Nat) (body : State → Half → Nat → State) (fr_ : Frame QS z s) (in0_ : .mbx .A ∈ QS) (in1_ : .mbx .B ∈ QS)
    (hb_ : ∀ s x r, Frame QS z s → Frame QS z (body s x r)) : Frame QS z (s.verb o opc roles body) := Frame.after_verbG _ _ _ _ _ fr_ in0_ in1_ hb_

end Sys2Proof.Machine
end

