-- ==== Sys2Proof/Laws/FrameArch.lean ====
section
/-!
SUPPORT. Which parts of the state each operation of Machine/Arch.lean may change, and the same as one more step of a framed run.
-/

namespace Sys2Proof.Machine

set_option maxRecDepth 4000

theorem frame_writePoint (s : State) (h : Half) (idx : Nat) (owner : Nat) (typ : Nat) (v : PVal) (pend : Bool) : Frame [.pts .A, .pts .B, .mirOut .A, .mirOut .B, .thm .A, .thm .B] s (State.writePoint s h idx owner typ v pend) := by
  have hs0 := fun ps => Frame.refl ps s
  unfold State.writePoint
  simp (maxDischargeDepth := 80) (contextual := true) [hs0]
@[simp] theorem Frame.after_writePoint {QS : List Part} {z0 s : State} (h : Half) (idx : Nat) (owner : Nat) (typ : Nat) (v : PVal) (pend : Bool) (fr_ : Frame QS z0 s) (in0_ : .pts .A ∈ QS) (in1_ : .pts .B ∈ QS) (in2_ : .mirOut .A ∈ QS) (in3_ : .mirOut .B ∈ QS) (in4_ : .thm .A ∈ QS) (in5_ : .thm .B ∈ QS) : Frame QS z0 (State.writePoint s h idx owner typ v pend) := Frame.via (frame_writePoint s h idx owner typ v pend) (Parts.cons in0_ (Parts.cons in1_ (Parts.cons in2_ (Parts.cons in3_ (Parts.cons in4_ (Parts.cons in5_ Parts.nil)))))) fr_
theorem frame_ownerWrite (s : State) (idx : Nat) (owner : Nat) (typ : Nat) (v : PVal) : Frame [.pts .A, .pts .B, .mirOut .A, .mirOut .B, .thm .A, .thm .B] s (State.ownerWrite s idx owner typ v) := by
  have hs0 := fun ps => Frame.refl ps s
  unfold State.ownerWrite
  try dsimp only
  repeat'
    first
    | (simp (maxDischargeDepth := 80) (contextual := true) [hs0, *]; done)
    | split
    | (with_reducible refine Frame.after_ite ?_ ?_)
    | (with_reducible refine Frame.after_foldl _ _ (fun _ _ _ => ?_) ?_)
@[simp] theorem Frame.after_ownerWrite {QS : List Part} {z0 s : State} (idx : Nat) (owner : Nat) (typ : Nat) (v : PVal) (fr_ : Frame QS z0 s) (in0_ : .pts .A ∈ QS) (in1_ : .pts .B ∈ QS) (in2_ : .mirOut .A ∈ QS) (in3_ : .mirOut .B ∈ QS) (in4_ : .thm .A ∈ QS) (in5_ : .thm .B ∈ QS) : Frame QS z0 (State.ownerWrite s idx owner typ v) := Frame.via (frame_ownerWrite s idx owner typ v) (Parts.cons in0_ (Parts.cons in1_ (Parts.cons in2_ (Parts.cons in3_ (Parts.cons in4_ (Parts.cons in5_ Parts.nil)))))) fr_
theorem frame_stageEv (s : State) (h : Half) (i : Nat) (stale : Bool) : Frame [.mbx .A, .mbx .B] s (stageEv s h i stale) := by
  have hs0 := fun ps => Frame.refl ps s
  unfold stageEv
  simp (maxDischargeDepth := 80) (contextual := true) [hs0]
@[simp] theorem Frame.after_stageEv {QS : List Part} {z0 s : State} (h : Half) (i : Nat) (stale : Bool) (fr_ : Frame QS z0 s) (in0_ : .mbx .A ∈ QS) (in1_ : .mbx .B ∈ QS) : Frame QS z0 (stageEv s h i stale) := Frame.via (frame_stageEv s h i stale) (Parts.cons in0_ (Parts.cons in1_ Parts.nil)) fr_
theorem frame_snapBlock (h : Half) (both : Bool) (s : State) (b : Blk) : Frame [.blocks] s (snapBlock h both s b) := by
  have hs0 := fun ps => Frame.refl ps s
  unfold snapBlock
  simp (maxDischargeDepth := 80) (contextual := true) [hs0]
@[simp] theorem Frame.after_snapBlock {QS : List Part} (h : Half) (both : Bool) {z0 s : State} (b : Blk) (fr_ : Frame QS z0 s) (in0_ : .blocks ∈ QS) : Frame QS z0 (snapBlock h both s b) := Frame.via (frame_snapBlock h both s b) (Parts.cons in0_ Parts.nil) fr_
theorem frame_restartPartition (s : State) (h : Half) (cause : Nat) : Frame [.part .A, .part .B, .mbx .A, .mbx .B] s (restartPartition s h cause) := by
  have hs0 := fun ps => Frame.refl ps s
  unfold restartPartition
  simp (maxDischargeDepth := 80) (contextual := true) [hs0]
@[simp] theorem Frame.after_restartPartition {QS : List Part} {z0 s : State} (h : Half) (cause : Nat) (fr_ : Frame QS z0 s) (in0_ : .part .A ∈ QS) (in1_ : .part .B ∈ QS) (in2_ : .mbx .A ∈ QS) (in3_ : .mbx .B ∈ QS) : Frame QS z0 (restartPartition s h cause) := Frame.via (frame_restartPartition s h cause) (Parts.cons in0_ (Parts.cons in1_ (Parts.cons in2_ (Parts.cons in3_ Parts.nil)))) fr_

end Sys2Proof.Machine
end

