-- ==== Sys2Proof/Laws/FrameLogs.lean ====
section
/-!
SUPPORT. Which parts of the state each operation of Machine/Logs.lean may change, and the same as one more step of a framed run.
-/

namespace Sys2Proof.Machine

set_option maxRecDepth 4000

theorem frame_logEv (s : State) (origin : Nat) (code : Nat) (num : Nat) (typ : Nat) (src : Nat) (detail : Nat) (a : Nat) (b : Nat) : Frame [.mbx .A, .mbx .B] s (State.logEv s origin code num typ src detail a b) := by
  have hs0 := fun ps => Frame.refl ps s
  unfold State.logEv
  simp (maxDischargeDepth := 80) (contextual := true) [hs0]
@[simp] theorem Frame.after_logEv {QS : List Part} {z0 s : State} (origin : Nat) (code : Nat) (num : Nat) (typ : Nat) (src : Nat) (detail : Nat) (a : Nat) (b : Nat) (fr_ : Frame QS z0 s) (in0_ : .mbx .A ∈ QS) (in1_ : .mbx .B ∈ QS) : Frame QS z0 (State.logEv s origin code num typ src detail a b) := Frame.via (frame_logEv s origin code num typ src detail a b) (Parts.cons in0_ (Parts.cons in1_ Parts.nil)) fr_
theorem frame_safLog (s : State) (typ : Nat) (src : Nat) : Frame [.free, .mbx .A, .mbx .B, .saf] s (State.safLog s typ src) := by
  have hs0 := fun ps => Frame.refl ps s
  unfold State.safLog
  simp (maxDischargeDepth := 80) (contextual := true) [hs0]
@[simp] theorem Frame.after_safLog {QS : List Part} {z0 s : State} (typ : Nat) (src : Nat) (fr_ : Frame QS z0 s) (in0_ : .free ∈ QS) (in1_ : .mbx .A ∈ QS) (in2_ : .mbx .B ∈ QS) (in3_ : .saf ∈ QS) : Frame QS z0 (State.safLog s typ src) := Frame.via (frame_safLog s typ src) (Parts.cons in0_ (Parts.cons in1_ (Parts.cons in2_ (Parts.cons in3_ Parts.nil)))) fr_
theorem frame_metLog (s : State) (typ : Nat) (src : Nat) (detail : Option Nat) (vals : Option (Nat × Nat)) : Frame [.free, .mbx .A, .mbx .B, .met] s (State.metLog s typ src detail vals) := by
  have hs0 := fun ps => Frame.refl ps s
  unfold State.metLog
  simp (maxDischargeDepth := 80) (contextual := true) [hs0]
@[simp] theorem Frame.after_metLog {QS : List Part} {z0 s : State} (typ : Nat) (src : Nat) (detail : Option Nat) (vals : Option (Nat × Nat)) (fr_ : Frame QS z0 s) (in0_ : .free ∈ QS) (in1_ : .mbx .A ∈ QS) (in2_ : .mbx .B ∈ QS) (in3_ : .met ∈ QS) : Frame QS z0 (State.metLog s typ src detail vals) := Frame.via (frame_metLog s typ src detail vals) (Parts.cons in0_ (Parts.cons in1_ (Parts.cons in2_ (Parts.cons in3_ Parts.nil)))) fr_
theorem frame_sealedLog (s : State) (typ : Nat) (src : Nat) (detail : Nat) (a : Nat) (b : Nat) : Frame [.mbx .A, .mbx .B, .met] s (State.sealedLog s typ src detail a b) := by
  have hs0 := fun ps => Frame.refl ps s
  unfold State.sealedLog
  simp (maxDischargeDepth := 80) (contextual := true) [hs0]
@[simp] theorem Frame.after_sealedLog {QS : List Part} {z0 s : State} (typ : Nat) (src : Nat) (detail : Nat) (a : Nat) (b : Nat) (fr_ : Frame QS z0 s) (in0_ : .mbx .A ∈ QS) (in1_ : .mbx .B ∈ QS) (in2_ : .met ∈ QS) : Frame QS z0 (State.sealedLog s typ src detail a b) := Frame.via (frame_sealedLog s typ src detail a b) (Parts.cons in0_ (Parts.cons in1_ (Parts.cons in2_ Parts.nil))) fr_

end Sys2Proof.Machine
end

