-- ==== Sys2Proof/Laws/FrameCanopy.lean ====
section
/-!
SUPPORT. Which parts of the state each operation of Machine/Canopy.lean may change, and the same as one more step of a framed run.
-/

namespace Sys2Proof.Machine

set_option maxRecDepth 4000

theorem frame_mCnp (s : State) (h : Half) (f : CnpS → CnpS) : Frame [.cnp .A, .cnp .B] s (State.mCnp s h f) := by
  have hs0 := fun ps => Frame.refl ps s
  unfold State.mCnp
  simp (maxDischargeDepth := 80) (contextual := true) [hs0]
@[simp] theorem Frame.after_mCnp {QS : List Part} {z0 s : State} (h : Half) (f : CnpS → CnpS) (fr_ : Frame QS z0 s) (in0_ : .cnp .A ∈ QS) (in1_ : .cnp .B ∈ QS) : Frame QS z0 (State.mCnp s h f) := Frame.via (frame_mCnp s h f) (Parts.cons in0_ (Parts.cons in1_ Parts.nil)) fr_
theorem frame_acceptLoss (s : State) (h : Half) (p : Nat) : Frame [.cnp .A, .cnp .B] s (State.acceptLoss s h p) := by
  have hs0 := fun ps => Frame.refl ps s
  unfold State.acceptLoss
  simp (maxDischargeDepth := 80) (contextual := true) [hs0]
@[simp] theorem Frame.after_acceptLoss {QS : List Part} {z0 s : State} (h : Half) (p : Nat) (fr_ : Frame QS z0 s) (in0_ : .cnp .A ∈ QS) (in1_ : .cnp .B ∈ QS) : Frame QS z0 (State.acceptLoss s h p) := Frame.via (frame_acceptLoss s h p) (Parts.cons in0_ (Parts.cons in1_ Parts.nil)) fr_
theorem frame_commonPort (h : Half) (ok : List Nat) (s : State) (p : Nat) : Frame [.cnp .A, .cnp .B] s (commonPort h ok s p) := by
  have hs0 := fun ps => Frame.refl ps s
  unfold commonPort
  simp (maxDischargeDepth := 80) (contextual := true) [hs0]
@[simp] theorem Frame.after_commonPort {QS : List Part} (h : Half) (ok : List Nat) {z0 s : State} (p : Nat) (fr_ : Frame QS z0 s) (in0_ : .cnp .A ∈ QS) (in1_ : .cnp .B ∈ QS) : Frame QS z0 (commonPort h ok s p) := Frame.via (frame_commonPort h ok s p) (Parts.cons in0_ (Parts.cons in1_ Parts.nil)) fr_
theorem frame_exchangeMaps (s : State) (h : Half) (sentMap : Bool) : Frame [.twn .A, .twn .B, .cnp .A, .cnp .B] s (State.exchangeMaps s h sentMap) := by
  have hs0 := fun ps => Frame.refl ps s
  unfold State.exchangeMaps
  simp (maxDischargeDepth := 80) (contextual := true) [hs0]
@[simp] theorem Frame.after_exchangeMaps {QS : List Part} {z0 s : State} (h : Half) (sentMap : Bool) (fr_ : Frame QS z0 s) (in0_ : .twn .A ∈ QS) (in1_ : .twn .B ∈ QS) (in2_ : .cnp .A ∈ QS) (in3_ : .cnp .B ∈ QS) : Frame QS z0 (State.exchangeMaps s h sentMap) := Frame.via (frame_exchangeMaps s h sentMap) (Parts.cons in0_ (Parts.cons in1_ (Parts.cons in2_ (Parts.cons in3_ Parts.nil)))) fr_

end Sys2Proof.Machine
end

