-- ==== Sys2Proof/Laws/FrameMatrix.lean ====
section
/-!
SUPPORT. Which parts of the state each operation of Machine/Matrix.lean may change, and the same as one more step of a framed run.
-/

namespace Sys2Proof.Machine

set_option maxRecDepth 4000

theorem frame_markBad (s : State) (h : Half) (n : Nat) (g : Nat) : Frame [.regs .cnp] s (State.markBad s h n g) := by
  have hs0 := fun ps => Frame.refl ps s
  unfold State.markBad
  simp (maxDischargeDepth := 80) (contextual := true) [hs0]
@[simp] theorem Frame.after_markBad {QS : List Part} {z0 s : State} (h : Half) (n : Nat) (g : Nat) (fr_ : Frame QS z0 s) (in0_ : .regs .cnp ∈ QS) : Frame QS z0 (State.markBad s h n g) := Frame.via (frame_markBad s h n g) (Parts.cons in0_ Parts.nil) fr_
theorem frame_cmdPole (s : State) (h : Half) (n : Nat) (g : Nat) (close : Bool) : Frame [.cnp .A, .cnp .B] s (State.cmdPole s h n g close) := by
  have hs0 := fun ps => Frame.refl ps s
  unfold State.cmdPole
  simp (maxDischargeDepth := 80) (contextual := true) [hs0]
@[simp] theorem Frame.after_cmdPole {QS : List Part} {z0 s : State} (h : Half) (n : Nat) (g : Nat) (close : Bool) (fr_ : Frame QS z0 s) (in0_ : .cnp .A ∈ QS) (in1_ : .cnp .B ∈ QS) : Frame QS z0 (State.cmdPole s h n g close) := Frame.via (frame_cmdPole s h n g close) (Parts.cons in0_ (Parts.cons in1_ Parts.nil)) fr_
theorem frame_chgEv (s : State) (h : Half) (k : Nat) (last : Nat) (n : Nat) (g : Nat) : Frame [.mbx .A, .mbx .B] s (chgEv s h k last n g) := by
  have hs0 := fun ps => Frame.refl ps s
  unfold chgEv
  simp (maxDischargeDepth := 80) (contextual := true) [hs0]
@[simp] theorem Frame.after_chgEv {QS : List Part} {z0 s : State} (h : Half) (k : Nat) (last : Nat) (n : Nat) (g : Nat) (fr_ : Frame QS z0 s) (in0_ : .mbx .A ∈ QS) (in1_ : .mbx .B ∈ QS) : Frame QS z0 (chgEv s h k last n g) := Frame.via (frame_chgEv s h k last n g) (Parts.cons in0_ (Parts.cons in1_ Parts.nil)) fr_
theorem frame_armPlan (s : State) (h : Half) (p : PlanC) : Frame [.blocks] s (State.armPlan s h p) := by
  have hs0 := fun ps => Frame.refl ps s
  unfold State.armPlan
  simp (maxDischargeDepth := 80) (contextual := true) [hs0]
@[simp] theorem Frame.after_armPlan {QS : List Part} {z0 s : State} (h : Half) (p : PlanC) (fr_ : Frame QS z0 s) (in0_ : .blocks ∈ QS) : Frame QS z0 (State.armPlan s h p) := Frame.via (frame_armPlan s h p) (Parts.cons in0_ Parts.nil) fr_
theorem frame_plan (s : State) (h : Half) (p : PlanC) : Frame [.blocks, .cnp .A, .cnp .B] s (State.plan s h p) := by
  have hs0 := fun ps => Frame.refl ps s
  unfold State.plan
  simp (maxDischargeDepth := 80) (contextual := true) [hs0]
@[simp] theorem Frame.after_plan {QS : List Part} {z0 s : State} (h : Half) (p : PlanC) (fr_ : Frame QS z0 s) (in0_ : .blocks ∈ QS) (in1_ : .cnp .A ∈ QS) (in2_ : .cnp .B ∈ QS) : Frame QS z0 (State.plan s h p) := Frame.via (frame_plan s h p) (Parts.cons in0_ (Parts.cons in1_ (Parts.cons in2_ Parts.nil))) fr_
theorem frame_setChg (s : State) (h : Half) (k : Nat) (v : Change) : Frame [.cnp .A, .cnp .B] s (State.setChg s h k v) := by
  have hs0 := fun ps => Frame.refl ps s
  unfold State.setChg
  simp (maxDischargeDepth := 80) (contextual := true) [hs0]
@[simp] theorem Frame.after_setChg {QS : List Part} {z0 s : State} (h : Half) (k : Nat) (v : Change) (fr_ : Frame QS z0 s) (in0_ : .cnp .A ∈ QS) (in1_ : .cnp .B ∈ QS) : Frame QS z0 (State.setChg s h k v) := Frame.via (frame_setChg s h k v) (Parts.cons in0_ (Parts.cons in1_ Parts.nil)) fr_
theorem frame_endChg (s : State) (h : Half) (ch : Change) (code : Nat) : Frame [.cnp .A, .cnp .B, .mbx .A, .mbx .B] s (State.endChg s h ch code) := by
  have hs0 := fun ps => Frame.refl ps s
  unfold State.endChg
  try dsimp only
  repeat'
    first
    | (simp (maxDischargeDepth := 80) (contextual := true) [hs0, *]; done)
    | split
    | (with_reducible refine Frame.after_ite ?_ ?_)
    | (with_reducible refine Frame.after_foldl _ _ (fun _ _ _ => ?_) ?_)
@[simp] theorem Frame.after_endChg {QS : List Part} {z0 s : State} (h : Half) (ch : Change) (code : Nat) (fr_ : Frame QS z0 s) (in0_ : .cnp .A ∈ QS) (in1_ : .cnp .B ∈ QS) (in2_ : .mbx .A ∈ QS) (in3_ : .mbx .B ∈ QS) : Frame QS z0 (State.endChg s h ch code) := Frame.via (frame_endChg s h ch code) (Parts.cons in0_ (Parts.cons in1_ (Parts.cons in2_ (Parts.cons in3_ Parts.nil)))) fr_
theorem frame_release (s : State) (h : Half) (ch : Change) : Frame [.cnp .A, .cnp .B, .mbx .A, .mbx .B] s (State.release s h ch) := by
  have hs0 := fun ps => Frame.refl ps s
  unfold State.release
  simp (maxDischargeDepth := 80) (contextual := true) [hs0]
@[simp] theorem Frame.after_release {QS : List Part} {z0 s : State} (h : Half) (ch : Change) (fr_ : Frame QS z0 s) (in0_ : .cnp .A ∈ QS) (in1_ : .cnp .B ∈ QS) (in2_ : .mbx .A ∈ QS) (in3_ : .mbx .B ∈ QS) : Frame QS z0 (State.release s h ch) := Frame.via (frame_release s h ch) (Parts.cons in0_ (Parts.cons in1_ (Parts.cons in2_ (Parts.cons in3_ Parts.nil)))) fr_
theorem frame_enterRoute (s : State) (h : Half) (k : Nat) (ch : Change) : Frame [.blocks, .cnp .A, .cnp .B] s (State.enterRoute s h k ch) := by
  have hs0 := fun ps => Frame.refl ps s
  unfold State.enterRoute
  simp (maxDischargeDepth := 80) (contextual := true) [hs0]
@[simp] theorem Frame.after_enterRoute {QS : List Part} {z0 s : State} (h : Half) (k : Nat) (ch : Change) (fr_ : Frame QS z0 s) (in0_ : .blocks ∈ QS) (in1_ : .cnp .A ∈ QS) (in2_ : .cnp .B ∈ QS) : Frame QS z0 (State.enterRoute s h k ch) := Frame.via (frame_enterRoute s h k ch) (Parts.cons in0_ (Parts.cons in1_ (Parts.cons in2_ Parts.nil))) fr_
theorem frame_enterClose (s : State) (h : Half) (k : Nat) (ch : Change) : Frame [.cnp .A, .cnp .B, .mbx .A, .mbx .B] s (State.enterClose s h k ch) := by
  have hs0 := fun ps => Frame.refl ps s
  unfold State.enterClose
  simp (maxDischargeDepth := 80) (contextual := true) [hs0]
@[simp] theorem Frame.after_enterClose {QS : List Part} {z0 s : State} (h : Half) (k : Nat) (ch : Change) (fr_ : Frame QS z0 s) (in0_ : .cnp .A ∈ QS) (in1_ : .cnp .B ∈ QS) (in2_ : .mbx .A ∈ QS) (in3_ : .mbx .B ∈ QS) : Frame QS z0 (State.enterClose s h k ch) := Frame.via (frame_enterClose s h k ch) (Parts.cons in0_ (Parts.cons in1_ (Parts.cons in2_ (Parts.cons in3_ Parts.nil)))) fr_
theorem frame_weldPoles (s : State) (h : Half) (k : Nat) (ch : Change) (bad : List (Nat × Nat × Nat)) : Frame [.regs .cnp, .mbx .A, .mbx .B] s ((weldPoles s h k ch bad).1) := by
  have hs0 := fun ps => Frame.refl ps s
  unfold weldPoles
  try dsimp only
  repeat'
    first
    | (simp (maxDischargeDepth := 80) (contextual := true) [hs0, *]; done)
    | split
    | (with_reducible refine Frame.after_ite ?_ ?_)
    | (with_reducible refine Frame.after_foldl _ _ (fun _ _ _ => ?_) ?_)
@[simp] theorem Frame.after_weldPoles {QS : List Part} {z0 s : State} (h : Half) (k : Nat) (ch : Change) (bad : List (Nat × Nat × Nat)) (fr_ : Frame QS z0 s) (in0_ : .regs .cnp ∈ QS) (in1_ : .mbx .A ∈ QS) (in2_ : .mbx .B ∈ QS) : Frame QS z0 ((weldPoles s h k ch bad).1) := Frame.via (frame_weldPoles s h k ch bad) (Parts.cons in0_ (Parts.cons in1_ (Parts.cons in2_ Parts.nil))) fr_
theorem frame_dropFailed (s : State) (h : Half) (k code : Nat) (ch : Change) (bad : List (Nat × Nat × Nat)) : Frame [.regs .cnp, .blocks, .cnp .A, .cnp .B, .mbx .A, .mbx .B] s ((dropFailed s h k code ch bad).1) := by
  have hs0 := fun ps => Frame.refl ps s
  unfold dropFailed
  try dsimp only
  repeat'
    first
    | (simp (maxDischargeDepth := 80) (contextual := true) [hs0, *]; done)
    | split
    | (with_reducible refine Frame.after_ite ?_ ?_)
    | (with_reducible refine Frame.after_foldl _ _ (fun _ _ _ => ?_) ?_)
@[simp] theorem Frame.after_dropFailed {QS : List Part} {z0 s : State} (h : Half) (k code : Nat) (ch : Change) (bad : List (Nat × Nat × Nat)) (fr_ : Frame QS z0 s) (in0_ : .regs .cnp ∈ QS) (in1_ : .blocks ∈ QS) (in2_ : .cnp .A ∈ QS) (in3_ : .cnp .B ∈ QS) (in4_ : .mbx .A ∈ QS) (in5_ : .mbx .B ∈ QS) : Frame QS z0 ((dropFailed s h k code ch bad).1) := Frame.via (frame_dropFailed s h k code ch bad) (Parts.cons in0_ (Parts.cons in1_ (Parts.cons in2_ (Parts.cons in3_ (Parts.cons in4_ (Parts.cons in5_ Parts.nil)))))) fr_
theorem frame_rePlan (s : State) (h : Half) (ch : Change) (mine : Nat → Bool) : Frame [.blocks, .cnp .A, .cnp .B] s (State.rePlan s h ch mine) := by
  have hs0 := fun ps => Frame.refl ps s
  unfold State.rePlan
  simp (maxDischargeDepth := 80) (contextual := true) [hs0]
@[simp] theorem Frame.after_rePlan {QS : List Part} {z0 s : State} (h : Half) (ch : Change) (mine : Nat → Bool) (fr_ : Frame QS z0 s) (in0_ : .blocks ∈ QS) (in1_ : .cnp .A ∈ QS) (in2_ : .cnp .B ∈ QS) : Frame QS z0 (State.rePlan s h ch mine) := Frame.via (frame_rePlan s h ch mine) (Parts.cons in0_ (Parts.cons in1_ (Parts.cons in2_ Parts.nil))) fr_
theorem frame_closePoles (h : Half) (s : State) (ch : Change) : Frame [.cnp .A, .cnp .B] s (closePoles h s ch) := by
  have hs0 := fun ps => Frame.refl ps s
  unfold closePoles
  simp (maxDischargeDepth := 80) (contextual := true) [hs0]
@[simp] theorem Frame.after_closePoles {QS : List Part} (h : Half) {z0 s : State} (ch : Change) (fr_ : Frame QS z0 s) (in0_ : .cnp .A ∈ QS) (in1_ : .cnp .B ∈ QS) : Frame QS z0 (closePoles h s ch) := Frame.via (frame_closePoles h s ch) (Parts.cons in0_ (Parts.cons in1_ Parts.nil)) fr_
theorem frame_tickDemand (h : Half) (s : State) (k : Nat) : Frame [.cnp .A, .cnp .B] s (tickDemand h s k) := by
  have hs0 := fun ps => Frame.refl ps s
  unfold tickDemand
  simp (maxDischargeDepth := 80) (contextual := true) [hs0]
@[simp] theorem Frame.after_tickDemand {QS : List Part} (h : Half) {z0 s : State} (k : Nat) (fr_ : Frame QS z0 s) (in0_ : .cnp .A ∈ QS) (in1_ : .cnp .B ∈ QS) : Frame QS z0 (tickDemand h s k) := Frame.via (frame_tickDemand h s k) (Parts.cons in0_ (Parts.cons in1_ Parts.nil)) fr_
theorem frame_startChange (s : State) (h : Half) (c : Change) : Frame [.cnp .A, .cnp .B] s (startChange s h c) := by
  have hs0 := fun ps => Frame.refl ps s
  unfold startChange
  try dsimp only
  repeat'
    first
    | (simp (maxDischargeDepth := 80) (contextual := true) [hs0, *]; done)
    | split
    | (with_reducible refine Frame.after_ite ?_ ?_)
    | (with_reducible refine Frame.after_foldl _ _ (fun _ _ _ => ?_) ?_)
@[simp] theorem Frame.after_startChange {QS : List Part} {z0 s : State} (h : Half) (c : Change) (fr_ : Frame QS z0 s) (in0_ : .cnp .A ∈ QS) (in1_ : .cnp .B ∈ QS) : Frame QS z0 (startChange s h c) := Frame.via (frame_startChange s h c) (Parts.cons in0_ (Parts.cons in1_ Parts.nil)) fr_
theorem frame_applyPlan (h : Half) (s : State) (p : PlanC) : Frame [.cnp .A, .cnp .B, .mbx .A, .mbx .B] s (applyPlan h s p) := by
  have hs0 := fun ps => Frame.refl ps s
  unfold applyPlan
  try dsimp only
  repeat'
    first
    | (simp (maxDischargeDepth := 80) (contextual := true) [hs0, *]; done)
    | split
    | (with_reducible refine Frame.after_ite ?_ ?_)
    | (with_reducible refine Frame.after_foldl _ _ (fun _ _ _ => ?_) ?_)
@[simp] theorem Frame.after_applyPlan {QS : List Part} (h : Half) {z0 s : State} (p : PlanC) (fr_ : Frame QS z0 s) (in0_ : .cnp .A ∈ QS) (in1_ : .cnp .B ∈ QS) (in2_ : .mbx .A ∈ QS) (in3_ : .mbx .B ∈ QS) : Frame QS z0 (applyPlan h s p) := Frame.via (frame_applyPlan h s p) (Parts.cons in0_ (Parts.cons in1_ (Parts.cons in2_ (Parts.cons in3_ Parts.nil)))) fr_
theorem frame_refusePlan (h : Half) (s : State) (p : PlanC) : Frame [.cnp .A, .cnp .B, .mbx .A, .mbx .B] s (refusePlan h s p) := by
  have hs0 := fun ps => Frame.refl ps s
  unfold refusePlan
  try dsimp only
  repeat'
    first
    | (simp (maxDischargeDepth := 80) (contextual := true) [hs0, *]; done)
    | split
    | (with_reducible refine Frame.after_ite ?_ ?_)
    | (with_reducible refine Frame.after_foldl _ _ (fun _ _ _ => ?_) ?_)
@[simp] theorem Frame.after_refusePlan {QS : List Part} (h : Half) {z0 s : State} (p : PlanC) (fr_ : Frame QS z0 s) (in0_ : .cnp .A ∈ QS) (in1_ : .cnp .B ∈ QS) (in2_ : .mbx .A ∈ QS) (in3_ : .mbx .B ∈ QS) : Frame QS z0 (refusePlan h s p) := Frame.via (frame_refusePlan h s p) (Parts.cons in0_ (Parts.cons in1_ (Parts.cons in2_ (Parts.cons in3_ Parts.nil)))) fr_
theorem frame_planEdge (s : State) (h : Half) (hostCommit : Bool) (refused : List Blk) : Frame [.blocks, .cnp .A, .cnp .B, .mbx .A, .mbx .B] s (State.planEdge s h hostCommit refused) := by
  have hs0 := fun ps => Frame.refl ps s
  unfold State.planEdge
  simp (maxDischargeDepth := 80) (contextual := true) [hs0]
@[simp] theorem Frame.after_planEdge {QS : List Part} {z0 s : State} (h : Half) (hostCommit : Bool) (refused : List Blk) (fr_ : Frame QS z0 s) (in0_ : .blocks ∈ QS) (in1_ : .cnp .A ∈ QS) (in2_ : .cnp .B ∈ QS) (in3_ : .mbx .A ∈ QS) (in4_ : .mbx .B ∈ QS) : Frame QS z0 (State.planEdge s h hostCommit refused) := Frame.via (frame_planEdge s h hostCommit refused) (Parts.cons in0_ (Parts.cons in1_ (Parts.cons in2_ (Parts.cons in3_ (Parts.cons in4_ Parts.nil))))) fr_
theorem frame_poleClears (s : State) (h : Half) (apply : Bool) : Frame [.regs .cnp, .cnp .A, .cnp .B] s (State.poleClears s h apply) := by
  have hs0 := fun ps => Frame.refl ps s
  unfold State.poleClears
  simp (maxDischargeDepth := 80) (contextual := true) [hs0]
@[simp] theorem Frame.after_poleClears {QS : List Part} {z0 s : State} (h : Half) (apply : Bool) (fr_ : Frame QS z0 s) (in0_ : .regs .cnp ∈ QS) (in1_ : .cnp .A ∈ QS) (in2_ : .cnp .B ∈ QS) : Frame QS z0 (State.poleClears s h apply) := Frame.via (frame_poleClears s h apply) (Parts.cons in0_ (Parts.cons in1_ (Parts.cons in2_ Parts.nil))) fr_

end Sys2Proof.Machine
end

