-- ==== Sys2Proof/Laws/FrameHealth.lean ====
section
/-!
SUPPORT. Which parts of the state each operation of Machine/Health.lean may change, and the same as one more step of a framed run.
-/

namespace Sys2Proof.Machine

set_option maxRecDepth 4000

theorem frame_healthEv (s : State) (h : Half) (cause : Nat) : Frame [.mbx .A, .mbx .B] s (State.healthEv s h cause) := by
  have hs0 := fun ps => Frame.refl ps s
  unfold State.healthEv
  simp (maxDischargeDepth := 80) (contextual := true) [hs0]
@[simp] theorem Frame.after_healthEv {QS : List Part} {z0 s : State} (h : Half) (cause : Nat) (fr_ : Frame QS z0 s) (in0_ : .mbx .A ∈ QS) (in1_ : .mbx .B ∈ QS) : Frame QS z0 (State.healthEv s h cause) := Frame.via (frame_healthEv s h cause) (Parts.cons in0_ (Parts.cons in1_ Parts.nil)) fr_
theorem frame_goUnhealthy (s : State) (h : Half) (cause : Nat) : Frame [.twn .A, .twn .B, .mbx .A, .mbx .B] s (State.goUnhealthy s h cause) := by
  have hs0 := fun ps => Frame.refl ps s
  unfold State.goUnhealthy
  simp (maxDischargeDepth := 80) (contextual := true) [hs0]
@[simp] theorem Frame.after_goUnhealthy {QS : List Part} {z0 s : State} (h : Half) (cause : Nat) (fr_ : Frame QS z0 s) (in0_ : .twn .A ∈ QS) (in1_ : .twn .B ∈ QS) (in2_ : .mbx .A ∈ QS) (in3_ : .mbx .B ∈ QS) : Frame QS z0 (State.goUnhealthy s h cause) := Frame.via (frame_goUnhealthy s h cause) (Parts.cons in0_ (Parts.cons in1_ (Parts.cons in2_ (Parts.cons in3_ Parts.nil)))) fr_
theorem frame_penalty (s : State) (h : Half) (amt : Nat) (cause : Nat) : Frame [.twn .A, .twn .B, .mbx .A, .mbx .B] s (State.penalty s h amt cause) := by
  have hs0 := fun ps => Frame.refl ps s
  unfold State.penalty
  simp (maxDischargeDepth := 80) (contextual := true) [hs0]
@[simp] theorem Frame.after_penalty {QS : List Part} {z0 s : State} (h : Half) (amt : Nat) (cause : Nat) (fr_ : Frame QS z0 s) (in0_ : .twn .A ∈ QS) (in1_ : .twn .B ∈ QS) (in2_ : .mbx .A ∈ QS) (in3_ : .mbx .B ∈ QS) : Frame QS z0 (State.penalty s h amt cause) := Frame.via (frame_penalty s h amt cause) (Parts.cons in0_ (Parts.cons in1_ (Parts.cons in2_ (Parts.cons in3_ Parts.nil)))) fr_
theorem frame_stagePenalty (s : State) (h : Half) (cause : Nat) : Frame [.twn .A, .twn .B, .mbx .A, .mbx .B] s (State.stagePenalty s h cause) := by
  have hs0 := fun ps => Frame.refl ps s
  unfold State.stagePenalty
  simp (maxDischargeDepth := 80) (contextual := true) [hs0]
@[simp] theorem Frame.after_stagePenalty {QS : List Part} {z0 s : State} (h : Half) (cause : Nat) (fr_ : Frame QS z0 s) (in0_ : .twn .A ∈ QS) (in1_ : .twn .B ∈ QS) (in2_ : .mbx .A ∈ QS) (in3_ : .mbx .B ∈ QS) : Frame QS z0 (State.stagePenalty s h cause) := Frame.via (frame_stagePenalty s h cause) (Parts.cons in0_ (Parts.cons in1_ (Parts.cons in2_ (Parts.cons in3_ Parts.nil)))) fr_
theorem frame_stageMissed (s : State) (h : Half) (r79 : Bool) : Frame [.regs .tck, .tck .A, .tck .B, .twn .A, .twn .B, .mbx .A, .mbx .B] s (State.stageMissed s h r79) := by
  have hs0 := fun ps => Frame.refl ps s
  unfold State.stageMissed
  simp (maxDischargeDepth := 80) (contextual := true) [hs0]
@[simp] theorem Frame.after_stageMissed {QS : List Part} {z0 s : State} (h : Half) (r79 : Bool) (fr_ : Frame QS z0 s) (in0_ : .regs .tck ∈ QS) (in1_ : .tck .A ∈ QS) (in2_ : .tck .B ∈ QS) (in3_ : .twn .A ∈ QS) (in4_ : .twn .B ∈ QS) (in5_ : .mbx .A ∈ QS) (in6_ : .mbx .B ∈ QS) : Frame QS z0 (State.stageMissed s h r79) := Frame.via (frame_stageMissed s h r79) (Parts.cons in0_ (Parts.cons in1_ (Parts.cons in2_ (Parts.cons in3_ (Parts.cons in4_ (Parts.cons in5_ (Parts.cons in6_ Parts.nil))))))) fr_
theorem frame_renewHealth (s : State) (h : Half) : Frame [.twn .A, .twn .B, .mbx .A, .mbx .B] s (State.renewHealth s h) := by
  have hs0 := fun ps => Frame.refl ps s
  unfold State.renewHealth
  try dsimp only
  repeat'
    first
    | (simp (maxDischargeDepth := 80) (contextual := true) [hs0, *]; done)
    | split
    | (with_reducible refine Frame.after_ite ?_ ?_)
    | (with_reducible refine Frame.after_foldl _ _ (fun _ _ _ => ?_) ?_)
@[simp] theorem Frame.after_renewHealth {QS : List Part} {z0 s : State} (h : Half) (fr_ : Frame QS z0 s) (in0_ : .twn .A ∈ QS) (in1_ : .twn .B ∈ QS) (in2_ : .mbx .A ∈ QS) (in3_ : .mbx .B ∈ QS) : Frame QS z0 (State.renewHealth s h) := Frame.via (frame_renewHealth s h) (Parts.cons in0_ (Parts.cons in1_ (Parts.cons in2_ (Parts.cons in3_ Parts.nil)))) fr_
theorem frame_setTstate (s : State) (h : Half) (n : Nat) : Frame [.tck .A, .tck .B, .mbx .A, .mbx .B] s (State.setTstate s h n) := by
  have hs0 := fun ps => Frame.refl ps s
  unfold State.setTstate
  simp (maxDischargeDepth := 80) (contextual := true) [hs0]
@[simp] theorem Frame.after_setTstate {QS : List Part} {z0 s : State} (h : Half) (n : Nat) (fr_ : Frame QS z0 s) (in0_ : .tck .A ∈ QS) (in1_ : .tck .B ∈ QS) (in2_ : .mbx .A ∈ QS) (in3_ : .mbx .B ∈ QS) : Frame QS z0 (State.setTstate s h n) := Frame.via (frame_setTstate s h n) (Parts.cons in0_ (Parts.cons in1_ (Parts.cons in2_ (Parts.cons in3_ Parts.nil)))) fr_
theorem frame_claimEv (s : State) (h : Half) (kind : Nat) (cause : Nat) : Frame [.mbx .A, .mbx .B] s (State.claimEv s h kind cause) := by
  have hs0 := fun ps => Frame.refl ps s
  unfold State.claimEv
  simp (maxDischargeDepth := 80) (contextual := true) [hs0]
@[simp] theorem Frame.after_claimEv {QS : List Part} {z0 s : State} (h : Half) (kind : Nat) (cause : Nat) (fr_ : Frame QS z0 s) (in0_ : .mbx .A ∈ QS) (in1_ : .mbx .B ∈ QS) : Frame QS z0 (State.claimEv s h kind cause) := Frame.via (frame_claimEv s h kind cause) (Parts.cons in0_ (Parts.cons in1_ Parts.nil)) fr_
theorem frame_loseCommands (s : State) (x : Half) : Frame [.blocks, .cln .A, .cln .B, .mbx .A, .mbx .B] s (State.loseCommands s x) := by
  have hs0 := fun ps => Frame.refl ps s
  unfold State.loseCommands
  simp (maxDischargeDepth := 80) (contextual := true) [hs0]
@[simp] theorem Frame.after_loseCommands {QS : List Part} {z0 s : State} (x : Half) (fr_ : Frame QS z0 s) (in0_ : .blocks ∈ QS) (in1_ : .cln .A ∈ QS) (in2_ : .cln .B ∈ QS) (in3_ : .mbx .A ∈ QS) (in4_ : .mbx .B ∈ QS) : Frame QS z0 (State.loseCommands s x) := Frame.via (frame_loseCommands s x) (Parts.cons in0_ (Parts.cons in1_ (Parts.cons in2_ (Parts.cons in3_ (Parts.cons in4_ Parts.nil))))) fr_
theorem frame_stepDown (s : State) (h : Half) (cause : Nat) : Frame [.regs .twn, .blocks, .twn .A, .twn .B, .cln .A, .cln .B, .mbx .A, .mbx .B] s (State.stepDown s h cause) := by
  have hs0 := fun ps => Frame.refl ps s
  unfold State.stepDown
  simp (maxDischargeDepth := 80) (contextual := true) [hs0]
@[simp] theorem Frame.after_stepDown {QS : List Part} {z0 s : State} (h : Half) (cause : Nat) (fr_ : Frame QS z0 s) (in0_ : .regs .twn ∈ QS) (in1_ : .blocks ∈ QS) (in2_ : .twn .A ∈ QS) (in3_ : .twn .B ∈ QS) (in4_ : .cln .A ∈ QS) (in5_ : .cln .B ∈ QS) (in6_ : .mbx .A ∈ QS) (in7_ : .mbx .B ∈ QS) : Frame QS z0 (State.stepDown s h cause) := Frame.via (frame_stepDown s h cause) (Parts.cons in0_ (Parts.cons in1_ (Parts.cons in2_ (Parts.cons in3_ (Parts.cons in4_ (Parts.cons in5_ (Parts.cons in6_ (Parts.cons in7_ Parts.nil)))))))) fr_
theorem frame_rebase (s : State) (h : Half) : Frame [.twn .A, .twn .B, .ref] s (State.rebase s h) := by
  have hs0 := fun ps => Frame.refl ps s
  unfold State.rebase
  simp (maxDischargeDepth := 80) (contextual := true) [hs0]
@[simp] theorem Frame.after_rebase {QS : List Part} {z0 s : State} (h : Half) (fr_ : Frame QS z0 s) (in0_ : .twn .A ∈ QS) (in1_ : .twn .B ∈ QS) (in2_ : .ref ∈ QS) : Frame QS z0 (State.rebase s h) := Frame.via (frame_rebase s h) (Parts.cons in0_ (Parts.cons in1_ (Parts.cons in2_ Parts.nil))) fr_
theorem frame_grantTo (s : State) (h : Half) : Frame [.regs .twn, .blocks, .twn .A, .twn .B, .cln .A, .cln .B, .mbx .A, .mbx .B, .ref] s (State.grantTo s h) := by
  have hs0 := fun ps => Frame.refl ps s
  unfold State.grantTo
  simp (maxDischargeDepth := 80) (contextual := true) [hs0]
@[simp] theorem Frame.after_grantTo {QS : List Part} {z0 s : State} (h : Half) (fr_ : Frame QS z0 s) (in0_ : .regs .twn ∈ QS) (in1_ : .blocks ∈ QS) (in2_ : .twn .A ∈ QS) (in3_ : .twn .B ∈ QS) (in4_ : .cln .A ∈ QS) (in5_ : .cln .B ∈ QS) (in6_ : .mbx .A ∈ QS) (in7_ : .mbx .B ∈ QS) (in8_ : .ref ∈ QS) : Frame QS z0 (State.grantTo s h) := Frame.via (frame_grantTo s h) (Parts.cons in0_ (Parts.cons in1_ (Parts.cons in2_ (Parts.cons in3_ (Parts.cons in4_ (Parts.cons in5_ (Parts.cons in6_ (Parts.cons in7_ (Parts.cons in8_ Parts.nil))))))))) fr_
theorem frame_requestRaise (s : State) (h : Half) (early : Bool) : Frame [.twn .A, .twn .B, .mbx .A, .mbx .B, .ref] s (State.requestRaise s h early) := by
  have hs0 := fun ps => Frame.refl ps s
  unfold State.requestRaise
  try dsimp only
  repeat'
    first
    | (simp (maxDischargeDepth := 80) (contextual := true) [hs0, *]; done)
    | split
    | (with_reducible refine Frame.after_ite ?_ ?_)
    | (with_reducible refine Frame.after_foldl _ _ (fun _ _ _ => ?_) ?_)
@[simp] theorem Frame.after_requestRaise {QS : List Part} {z0 s : State} (h : Half) (early : Bool) (fr_ : Frame QS z0 s) (in0_ : .twn .A ∈ QS) (in1_ : .twn .B ∈ QS) (in2_ : .mbx .A ∈ QS) (in3_ : .mbx .B ∈ QS) (in4_ : .ref ∈ QS) : Frame QS z0 (State.requestRaise s h early) := Frame.via (frame_requestRaise s h early) (Parts.cons in0_ (Parts.cons in1_ (Parts.cons in2_ (Parts.cons in3_ (Parts.cons in4_ Parts.nil))))) fr_
theorem frame_abandonHandover (s : State) : Frame [.twn .A, .twn .B, .mbx .A, .mbx .B, .ref, .ho] s (State.abandonHandover s) := by
  have hs0 := fun ps => Frame.refl ps s
  unfold State.abandonHandover
  try dsimp only
  repeat'
    first
    | (simp (maxDischargeDepth := 80) (contextual := true) [hs0, *]; done)
    | split
    | (with_reducible refine Frame.after_ite ?_ ?_)
    | (with_reducible refine Frame.after_foldl _ _ (fun _ _ _ => ?_) ?_)
@[simp] theorem Frame.after_abandonHandover {QS : List Part} {z0 s : State} (fr_ : Frame QS z0 s) (in0_ : .twn .A ∈ QS) (in1_ : .twn .B ∈ QS) (in2_ : .mbx .A ∈ QS) (in3_ : .mbx .B ∈ QS) (in4_ : .ref ∈ QS) (in5_ : .ho ∈ QS) : Frame QS z0 (State.abandonHandover s) := Frame.via (frame_abandonHandover s) (Parts.cons in0_ (Parts.cons in1_ (Parts.cons in2_ (Parts.cons in3_ (Parts.cons in4_ (Parts.cons in5_ Parts.nil)))))) fr_
theorem frame_releaseToken (s : State) (x : Half) (cause : Nat) : Frame [.regs .twn, .blocks, .twn .A, .twn .B, .cln .A, .cln .B, .mbx .A, .mbx .B, .ref, .ho] s (State.releaseToken s x cause) := by
  have hs0 := fun ps => Frame.refl ps s
  unfold State.releaseToken
  simp (maxDischargeDepth := 80) (contextual := true) [hs0]
@[simp] theorem Frame.after_releaseToken {QS : List Part} {z0 s : State} (x : Half) (cause : Nat) (fr_ : Frame QS z0 s) (in0_ : .regs .twn ∈ QS) (in1_ : .blocks ∈ QS) (in2_ : .twn .A ∈ QS) (in3_ : .twn .B ∈ QS) (in4_ : .cln .A ∈ QS) (in5_ : .cln .B ∈ QS) (in6_ : .mbx .A ∈ QS) (in7_ : .mbx .B ∈ QS) (in8_ : .ref ∈ QS) (in9_ : .ho ∈ QS) : Frame QS z0 (State.releaseToken s x cause) := Frame.via (frame_releaseToken s x cause) (Parts.cons in0_ (Parts.cons in1_ (Parts.cons in2_ (Parts.cons in3_ (Parts.cons in4_ (Parts.cons in5_ (Parts.cons in6_ (Parts.cons in7_ (Parts.cons in8_ (Parts.cons in9_ Parts.nil)))))))))) fr_
theorem frame_mUpd (s : State) (f : UpdS → UpdS) : Frame [.upd] s (State.mUpd s f) := by
  have hs0 := fun ps => Frame.refl ps s
  unfold State.mUpd
  simp (maxDischargeDepth := 80) (contextual := true) [hs0]
@[simp] theorem Frame.after_mUpd {QS : List Part} {z0 s : State} (f : UpdS → UpdS) (fr_ : Frame QS z0 s) (in0_ : .upd ∈ QS) : Frame QS z0 (State.mUpd s f) := Frame.via (frame_mUpd s f) (Parts.cons in0_ Parts.nil) fr_
theorem frame_mRec (s : State) (k : Nat) (f : BootRec → BootRec) : Frame [.upd] s (State.mRec s k f) := by
  have hs0 := fun ps => Frame.refl ps s
  unfold State.mRec
  simp (maxDischargeDepth := 80) (contextual := true) [hs0]
@[simp] theorem Frame.after_mRec {QS : List Part} {z0 s : State} (k : Nat) (f : BootRec → BootRec) (fr_ : Frame QS z0 s) (in0_ : .upd ∈ QS) : Frame QS z0 (State.mRec s k f) := Frame.via (frame_mRec s k f) (Parts.cons in0_ Parts.nil) fr_
theorem frame_bankEv (s : State) (k : Nat) (i : Nat) : Frame [.mbx .A, .mbx .B] s (State.bankEv s k i) := by
  have hs0 := fun ps => Frame.refl ps s
  unfold State.bankEv
  simp (maxDischargeDepth := 80) (contextual := true) [hs0]
@[simp] theorem Frame.after_bankEv {QS : List Part} {z0 s : State} (k : Nat) (i : Nat) (fr_ : Frame QS z0 s) (in0_ : .mbx .A ∈ QS) (in1_ : .mbx .B ∈ QS) : Frame QS z0 (State.bankEv s k i) := Frame.via (frame_bankEv s k i) (Parts.cons in0_ (Parts.cons in1_ Parts.nil)) fr_
theorem frame_bankTo (s : State) (k : Nat) (i : Nat) (st : Nat) : Frame [.mbx .A, .mbx .B, .upd] s (State.bankTo s k i st) := by
  have hs0 := fun ps => Frame.refl ps s
  unfold State.bankTo
  simp (maxDischargeDepth := 80) (contextual := true) [hs0]
@[simp] theorem Frame.after_bankTo {QS : List Part} {z0 s : State} (k : Nat) (i : Nat) (st : Nat) (fr_ : Frame QS z0 s) (in0_ : .mbx .A ∈ QS) (in1_ : .mbx .B ∈ QS) (in2_ : .upd ∈ QS) : Frame QS z0 (State.bankTo s k i st) := Frame.via (frame_bankTo s k i st) (Parts.cons in0_ (Parts.cons in1_ (Parts.cons in2_ Parts.nil))) fr_
theorem frame_takeStaged (s : State) (h : Half) : Frame [.mbx .A, .mbx .B, .upd] s (State.takeStaged s h) := by
  have hs0 := fun ps => Frame.refl ps s
  unfold State.takeStaged
  try dsimp only
  repeat'
    first
    | (simp (maxDischargeDepth := 80) (contextual := true) [hs0, *]; done)
    | split
    | (with_reducible refine Frame.after_ite ?_ ?_)
    | (with_reducible refine Frame.after_foldl _ _ (fun _ _ _ => ?_) ?_)
@[simp] theorem Frame.after_takeStaged {QS : List Part} {z0 s : State} (h : Half) (fr_ : Frame QS z0 s) (in0_ : .mbx .A ∈ QS) (in1_ : .mbx .B ∈ QS) (in2_ : .upd ∈ QS) : Frame QS z0 (State.takeStaged s h) := Frame.via (frame_takeStaged s h) (Parts.cons in0_ (Parts.cons in1_ (Parts.cons in2_ Parts.nil))) fr_
theorem frame_partStart (s : State) (k : Nat) : Frame [.upd] s (State.partStart s k) := by
  have hs0 := fun ps => Frame.refl ps s
  unfold State.partStart
  simp (maxDischargeDepth := 80) (contextual := true) [hs0]
@[simp] theorem Frame.after_partStart {QS : List Part} {z0 s : State} (k : Nat) (fr_ : Frame QS z0 s) (in0_ : .upd ∈ QS) : Frame QS z0 (State.partStart s k) := Frame.via (frame_partStart s k) (Parts.cons in0_ Parts.nil) fr_

end Sys2Proof.Machine
end

