-- ==== Sys2Proof/Laws/FrameMetrology.lean ====
section
/-!
SUPPORT. Which parts of the state each operation of Machine/Metrology.lean may change, and the same as one more step of a framed run.
-/

namespace Sys2Proof.Machine

set_option maxRecDepth 4000

theorem frame_mMet (s : State) (f : MetS → MetS) : Frame [.met] s (State.mMet s f) := by
  have hs0 := fun ps => Frame.refl ps s
  unfold State.mMet
  simp (maxDischargeDepth := 80) (contextual := true) [hs0]
@[simp] theorem Frame.after_mMet {QS : List Part} {z0 s : State} (f : MetS → MetS) (fr_ : Frame QS z0 s) (in0_ : .met ∈ QS) : Frame QS z0 (State.mMet s f) := Frame.via (frame_mMet s f) (Parts.cons in0_ Parts.nil) fr_
theorem frame_mMeter (s : State) (src : Nat) (f : MeterS → MeterS) : Frame [.met] s (State.mMeter s src f) := by
  have hs0 := fun ps => Frame.refl ps s
  unfold State.mMeter
  simp (maxDischargeDepth := 80) (contextual := true) [hs0]
@[simp] theorem Frame.after_mMeter {QS : List Part} {z0 s : State} (src : Nat) (f : MeterS → MeterS) (fr_ : Frame QS z0 s) (in0_ : .met ∈ QS) : Frame QS z0 (State.mMeter s src f) := Frame.via (frame_mMeter s src f) (Parts.cons in0_ Parts.nil) fr_
theorem frame_mBil (s : State) (f : BilS → BilS) : Frame [.bil] s (State.mBil s f) := by
  have hs0 := fun ps => Frame.refl ps s
  unfold State.mBil
  simp (maxDischargeDepth := 80) (contextual := true) [hs0]
@[simp] theorem Frame.after_mBil {QS : List Part} {z0 s : State} (f : BilS → BilS) (fr_ : Frame QS z0 s) (in0_ : .bil ∈ QS) : Frame QS z0 (State.mBil s f) := Frame.via (frame_mBil s f) (Parts.cons in0_ Parts.nil) fr_
theorem frame_mCore (s : State) (f : BilCore → BilCore) : Frame [.bil] s (State.mCore s f) := by
  have hs0 := fun ps => Frame.refl ps s
  unfold State.mCore
  simp (maxDischargeDepth := 80) (contextual := true) [hs0]
@[simp] theorem Frame.after_mCore {QS : List Part} {z0 s : State} (f : BilCore → BilCore) (fr_ : Frame QS z0 s) (in0_ : .bil ∈ QS) : Frame QS z0 (State.mCore s f) := Frame.via (frame_mCore s f) (Parts.cons in0_ Parts.nil) fr_
theorem frame_pulseStep (src : Nat) (qty : Nat) (n : Nat) (s : State) (j : Nat) : Frame [.free, .regs .met, .mbx .A, .mbx .B, .met] s (pulseStep src qty n s j) := by
  have hs0 := fun ps => Frame.refl ps s
  unfold pulseStep
  simp (maxDischargeDepth := 80) (contextual := true) [hs0]
@[simp] theorem Frame.after_pulseStep {QS : List Part} (src : Nat) (qty : Nat) (n : Nat) {z0 s : State} (j : Nat) (fr_ : Frame QS z0 s) (in0_ : .free ∈ QS) (in1_ : .regs .met ∈ QS) (in2_ : .mbx .A ∈ QS) (in3_ : .mbx .B ∈ QS) (in4_ : .met ∈ QS) : Frame QS z0 (pulseStep src qty n s j) := Frame.via (frame_pulseStep src qty n s j) (Parts.cons in0_ (Parts.cons in1_ (Parts.cons in2_ (Parts.cons in3_ (Parts.cons in4_ Parts.nil))))) fr_
theorem frame_moveMwh (s : State) (src : Nat) (qty : Nat) (n : Nat) : Frame [.free, .regs .met, .mbx .A, .mbx .B, .met, .bil] s (State.moveMwh s src qty n) := by
  have hs0 := fun ps => Frame.refl ps s
  unfold State.moveMwh
  simp (maxDischargeDepth := 80) (contextual := true) [hs0]
@[simp] theorem Frame.after_moveMwh {QS : List Part} {z0 s : State} (src : Nat) (qty : Nat) (n : Nat) (fr_ : Frame QS z0 s) (in0_ : .free ∈ QS) (in1_ : .regs .met ∈ QS) (in2_ : .mbx .A ∈ QS) (in3_ : .mbx .B ∈ QS) (in4_ : .met ∈ QS) (in5_ : .bil ∈ QS) : Frame QS z0 (State.moveMwh s src qty n) := Frame.via (frame_moveMwh s src qty n) (Parts.cons in0_ (Parts.cons in1_ (Parts.cons in2_ (Parts.cons in3_ (Parts.cons in4_ (Parts.cons in5_ Parts.nil)))))) fr_
theorem frame_addFine (s : State) (src : Nat) (qty : Nat) (amt : Nat) (unit : Nat) : Frame [.free, .regs .met, .mbx .A, .mbx .B, .met, .bil] s (State.addFine s src qty amt unit) := by
  have hs0 := fun ps => Frame.refl ps s
  unfold State.addFine
  simp (maxDischargeDepth := 80) (contextual := true) [hs0]
@[simp] theorem Frame.after_addFine {QS : List Part} {z0 s : State} (src : Nat) (qty : Nat) (amt : Nat) (unit : Nat) (fr_ : Frame QS z0 s) (in0_ : .free ∈ QS) (in1_ : .regs .met ∈ QS) (in2_ : .mbx .A ∈ QS) (in3_ : .mbx .B ∈ QS) (in4_ : .met ∈ QS) (in5_ : .bil ∈ QS) : Frame QS z0 (State.addFine s src qty amt unit) := Frame.via (frame_addFine s src qty amt unit) (Parts.cons in0_ (Parts.cons in1_ (Parts.cons in2_ (Parts.cons in3_ (Parts.cons in4_ (Parts.cons in5_ Parts.nil)))))) fr_
theorem frame_noteErr (s : State) (src : Nat) : Frame [.bil] s (State.noteErr s src) := by
  have hs0 := fun ps => Frame.refl ps s
  unfold State.noteErr
  simp (maxDischargeDepth := 80) (contextual := true) [hs0]
@[simp] theorem Frame.after_noteErr {QS : List Part} {z0 s : State} (src : Nat) (fr_ : Frame QS z0 s) (in0_ : .bil ∈ QS) : Frame QS z0 (State.noteErr s src) := Frame.via (frame_noteErr s src) (Parts.cons in0_ Parts.nil) fr_
theorem frame_integrate (s : State) (k : Nat) (acc : Bool) (v : Int) (i : Int) : Frame [.free, .regs .met, .mbx .A, .mbx .B, .met, .bil] s (State.integrate s k acc v i) := by
  have hs0 := fun ps => Frame.refl ps s
  unfold State.integrate
  simp (maxDischargeDepth := 80) (contextual := true) [hs0]
@[simp] theorem Frame.after_integrate {QS : List Part} {z0 s : State} (k : Nat) (acc : Bool) (v : Int) (i : Int) (fr_ : Frame QS z0 s) (in0_ : .free ∈ QS) (in1_ : .regs .met ∈ QS) (in2_ : .mbx .A ∈ QS) (in3_ : .mbx .B ∈ QS) (in4_ : .met ∈ QS) (in5_ : .bil ∈ QS) : Frame QS z0 (State.integrate s k acc v i) := Frame.via (frame_integrate s k acc v i) (Parts.cons in0_ (Parts.cons in1_ (Parts.cons in2_ (Parts.cons in3_ (Parts.cons in4_ (Parts.cons in5_ Parts.nil)))))) fr_
theorem frame_noteGap (s : State) (k : Nat) (bound : Nat) : Frame [.bil] s (State.noteGap s k bound) := by
  have hs0 := fun ps => Frame.refl ps s
  unfold State.noteGap
  simp (maxDischargeDepth := 80) (contextual := true) [hs0]
@[simp] theorem Frame.after_noteGap {QS : List Part} {z0 s : State} (k : Nat) (bound : Nat) (fr_ : Frame QS z0 s) (in0_ : .bil ∈ QS) : Frame QS z0 (State.noteGap s k bound) := Frame.via (frame_noteGap s k bound) (Parts.cons in0_ Parts.nil) fr_
theorem frame_openGap (s : State) (k : Nat) : Frame [.free, .regs .met, .mbx .A, .mbx .B, .met] s (State.openGap s k) := by
  have hs0 := fun ps => Frame.refl ps s
  unfold State.openGap
  simp (maxDischargeDepth := 80) (contextual := true) [hs0]
@[simp] theorem Frame.after_openGap {QS : List Part} {z0 s : State} (k : Nat) (fr_ : Frame QS z0 s) (in0_ : .free ∈ QS) (in1_ : .regs .met ∈ QS) (in2_ : .mbx .A ∈ QS) (in3_ : .mbx .B ∈ QS) (in4_ : .met ∈ QS) : Frame QS z0 (State.openGap s k) := Frame.via (frame_openGap s k) (Parts.cons in0_ (Parts.cons in1_ (Parts.cons in2_ (Parts.cons in3_ (Parts.cons in4_ Parts.nil))))) fr_
theorem frame_closeGap (s : State) (k : Nat) : Frame [.met, .bil] s (State.closeGap s k) := by
  have hs0 := fun ps => Frame.refl ps s
  unfold State.closeGap
  try dsimp only
  repeat'
    first
    | (simp (maxDischargeDepth := 80) (contextual := true) [hs0, *]; done)
    | split
    | (with_reducible refine Frame.after_ite ?_ ?_)
    | (with_reducible refine Frame.after_foldl _ _ (fun _ _ _ => ?_) ?_)
@[simp] theorem Frame.after_closeGap {QS : List Part} {z0 s : State} (k : Nat) (fr_ : Frame QS z0 s) (in0_ : .met ∈ QS) (in1_ : .bil ∈ QS) : Frame QS z0 (State.closeGap s k) := Frame.via (frame_closeGap s k) (Parts.cons in0_ (Parts.cons in1_ Parts.nil)) fr_
theorem frame_checkEv (s : State) (was : Bool) (bad : Bool) : Frame [.free, .mbx .A, .mbx .B, .met] s (checkEv s was bad) := by
  have hs0 := fun ps => Frame.refl ps s
  unfold checkEv
  simp (maxDischargeDepth := 80) (contextual := true) [hs0]
@[simp] theorem Frame.after_checkEv {QS : List Part} {z0 s : State} (was : Bool) (bad : Bool) (fr_ : Frame QS z0 s) (in0_ : .free ∈ QS) (in1_ : .mbx .A ∈ QS) (in2_ : .mbx .B ∈ QS) (in3_ : .met ∈ QS) : Frame QS z0 (checkEv s was bad) := Frame.via (frame_checkEv s was bad) (Parts.cons in0_ (Parts.cons in1_ (Parts.cons in2_ (Parts.cons in3_ Parts.nil)))) fr_
theorem frame_islandCpuRestart (s : State) : Frame [.free, .mbx .A, .mbx .B, .met, .bil, .upd] s (State.islandCpuRestart s) := by
  have hs0 := fun ps => Frame.refl ps s
  unfold State.islandCpuRestart
  simp (maxDischargeDepth := 80) (contextual := true) [hs0]
@[simp] theorem Frame.after_islandCpuRestart {QS : List Part} {z0 s : State} (fr_ : Frame QS z0 s) (in0_ : .free ∈ QS) (in1_ : .mbx .A ∈ QS) (in2_ : .mbx .B ∈ QS) (in3_ : .met ∈ QS) (in4_ : .bil ∈ QS) (in5_ : .upd ∈ QS) : Frame QS z0 (State.islandCpuRestart s) := Frame.via (frame_islandCpuRestart s) (Parts.cons in0_ (Parts.cons in1_ (Parts.cons in2_ (Parts.cons in3_ (Parts.cons in4_ (Parts.cons in5_ Parts.nil)))))) fr_
theorem frame_condStep (i : Nat) (c : Nat) (holds : Bool) (s : State) : Frame [.free, .mbx .A, .mbx .B, .met] s (condStep i c holds s) := by
  have hs0 := fun ps => Frame.refl ps s
  unfold condStep
  simp (maxDischargeDepth := 80) (contextual := true) [hs0]
@[simp] theorem Frame.after_condStep {QS : List Part} (i : Nat) (c : Nat) (holds : Bool) {z0 s : State} (fr_ : Frame QS z0 s) (in0_ : .free ∈ QS) (in1_ : .mbx .A ∈ QS) (in2_ : .mbx .B ∈ QS) (in3_ : .met ∈ QS) : Frame QS z0 (condStep i c holds s) := Frame.via (frame_condStep i c holds s) (Parts.cons in0_ (Parts.cons in1_ (Parts.cons in2_ (Parts.cons in3_ Parts.nil)))) fr_
theorem frame_gapIfLoaded (s : State) (k : Nat) : Frame [.free, .regs .met, .mbx .A, .mbx .B, .met] s (gapIfLoaded s k) := by
  have hs0 := fun ps => Frame.refl ps s
  unfold gapIfLoaded
  simp (maxDischargeDepth := 80) (contextual := true) [hs0]
@[simp] theorem Frame.after_gapIfLoaded {QS : List Part} {z0 s : State} (k : Nat) (fr_ : Frame QS z0 s) (in0_ : .free ∈ QS) (in1_ : .regs .met ∈ QS) (in2_ : .mbx .A ∈ QS) (in3_ : .mbx .B ∈ QS) (in4_ : .met ∈ QS) : Frame QS z0 (gapIfLoaded s k) := Frame.via (frame_gapIfLoaded s k) (Parts.cons in0_ (Parts.cons in1_ (Parts.cons in2_ (Parts.cons in3_ (Parts.cons in4_ Parts.nil))))) fr_
theorem frame_tamperStep (levels : Nat) (s : State) (t : Nat) : Frame [.free, .mbx .A, .mbx .B, .met] s (tamperStep levels s t) := by
  have hs0 := fun ps => Frame.refl ps s
  unfold tamperStep
  simp (maxDischargeDepth := 80) (contextual := true) [hs0]
@[simp] theorem Frame.after_tamperStep {QS : List Part} (levels : Nat) {z0 s : State} (t : Nat) (fr_ : Frame QS z0 s) (in0_ : .free ∈ QS) (in1_ : .mbx .A ∈ QS) (in2_ : .mbx .B ∈ QS) (in3_ : .met ∈ QS) : Frame QS z0 (tamperStep levels s t) := Frame.via (frame_tamperStep levels s t) (Parts.cons in0_ (Parts.cons in1_ (Parts.cons in2_ (Parts.cons in3_ Parts.nil)))) fr_
theorem frame_metCommit (s : State) (old : Nat → Word) : Frame [.met] s (State.metCommit s old) := by
  have hs0 := fun ps => Frame.refl ps s
  unfold State.metCommit
  simp (maxDischargeDepth := 80) (contextual := true) [hs0]
@[simp] theorem Frame.after_metCommit {QS : List Part} {z0 s : State} (old : Nat → Word) (fr_ : Frame QS z0 s) (in0_ : .met ∈ QS) : Frame QS z0 (State.metCommit s old) := Frame.via (frame_metCommit s old) (Parts.cons in0_ Parts.nil) fr_

end Sys2Proof.Machine
end

