-- ==== Sys2Proof/Laws/FrameLink.lean ====
section
/-!
SUPPORT. Which parts of the state each operation of Machine/Link.lean may change, and the same as one more step of a framed run.
-/

namespace Sys2Proof.Machine

set_option maxRecDepth 4000

theorem frame_setPstate (s : State) (h : Half) (p : Nat) (new : Nat) (cause : Nat) : Frame [.ports .A, .ports .B, .mbx .A, .mbx .B] s (State.setPstate s h p new cause) := by
  have hs0 := fun ps => Frame.refl ps s
  unfold State.setPstate
  simp (maxDischargeDepth := 80) (contextual := true) [hs0]
@[simp] theorem Frame.after_setPstate {QS : List Part} {z0 s : State} (h : Half) (p : Nat) (new : Nat) (cause : Nat) (fr_ : Frame QS z0 s) (in0_ : .ports .A ∈ QS) (in1_ : .ports .B ∈ QS) (in2_ : .mbx .A ∈ QS) (in3_ : .mbx .B ∈ QS) : Frame QS z0 (State.setPstate s h p new cause) := Frame.via (frame_setPstate s h p new cause) (Parts.cons in0_ (Parts.cons in1_ (Parts.cons in2_ (Parts.cons in3_ Parts.nil)))) fr_
theorem frame_sendMsg (s : State) (h : Half) (p : Nat) (ty : Nat) (b : List Nat) : Frame [.ports .A, .ports .B] s (State.sendMsg s h p ty b) := by
  have hs0 := fun ps => Frame.refl ps s
  unfold State.sendMsg
  simp (maxDischargeDepth := 80) (contextual := true) [hs0]
@[simp] theorem Frame.after_sendMsg {QS : List Part} {z0 s : State} (h : Half) (p : Nat) (ty : Nat) (b : List Nat) (fr_ : Frame QS z0 s) (in0_ : .ports .A ∈ QS) (in1_ : .ports .B ∈ QS) : Frame QS z0 (State.sendMsg s h p ty b) := Frame.via (frame_sendMsg s h p ty b) (Parts.cons in0_ (Parts.cons in1_ Parts.nil)) fr_
theorem frame_asyncCount (s : State) (h : Half) (p : Nat) (f : RxFrame) (r : Except Nat (List Nat)) : Frame [.regs .nlk, .ports .A, .ports .B] s (State.asyncCount s h p f r) := by
  have hs0 := fun ps => Frame.refl ps s
  unfold State.asyncCount
  try dsimp only
  repeat'
    first
    | (simp (maxDischargeDepth := 80) (contextual := true) [hs0, *]; done)
    | split
    | (with_reducible refine Frame.after_ite ?_ ?_)
    | (with_reducible refine Frame.after_foldl _ _ (fun _ _ _ => ?_) ?_)
@[simp] theorem Frame.after_asyncCount {QS : List Part} {z0 s : State} (h : Half) (p : Nat) (f : RxFrame) (r : Except Nat (List Nat)) (fr_ : Frame QS z0 s) (in0_ : .regs .nlk ∈ QS) (in1_ : .ports .A ∈ QS) (in2_ : .ports .B ∈ QS) : Frame QS z0 (State.asyncCount s h p f r) := Frame.via (frame_asyncCount s h p f r) (Parts.cons in0_ (Parts.cons in1_ (Parts.cons in2_ Parts.nil))) fr_
theorem frame_lostDither (s : State) (p : Nat) : Frame [.cabs] s (State.lostDither s p) := by
  have hs0 := fun ps => Frame.refl ps s
  unfold State.lostDither
  simp (maxDischargeDepth := 80) (contextual := true) [hs0]
@[simp] theorem Frame.after_lostDither {QS : List Part} {z0 s : State} (p : Nat) (fr_ : Frame QS z0 s) (in0_ : .cabs ∈ QS) : Frame QS z0 (State.lostDither s p) := Frame.via (frame_lostDither s p) (Parts.cons in0_ Parts.nil) fr_
theorem frame_putAsync (s : State) (h : Half) (p : Nat) (ty : Nat) (id : Nat) (seg : Nat) (data : List Nat) (last : Bool) : Frame [.free, .ports .A, .ports .B] s (State.putAsync s h p ty id seg data last) := by
  have hs0 := fun ps => Frame.refl ps s
  unfold State.putAsync
  simp (maxDischargeDepth := 80) (contextual := true) [hs0]
@[simp] theorem Frame.after_putAsync {QS : List Part} {z0 s : State} (h : Half) (p : Nat) (ty : Nat) (id : Nat) (seg : Nat) (data : List Nat) (last : Bool) (fr_ : Frame QS z0 s) (in0_ : .free ∈ QS) (in1_ : .ports .A ∈ QS) (in2_ : .ports .B ∈ QS) : Frame QS z0 (State.putAsync s h p ty id seg data last) := Frame.via (frame_putAsync s h p ty id seg data last) (Parts.cons in0_ (Parts.cons in1_ (Parts.cons in2_ Parts.nil))) fr_
theorem frame_remoteTakes (s : State) (h : Half) (p : Nat) (ty : Nat) (claimOk : Bool) (b : List Nat) : Frame [.rems, .cabs] s (State.remoteTakes s h p ty claimOk b) := by
  have hs0 := fun ps => Frame.refl ps s
  unfold State.remoteTakes
  simp (maxDischargeDepth := 80) (contextual := true) [hs0]
@[simp] theorem Frame.after_remoteTakes {QS : List Part} {z0 s : State} (h : Half) (p : Nat) (ty : Nat) (claimOk : Bool) (b : List Nat) (fr_ : Frame QS z0 s) (in0_ : .rems ∈ QS) (in1_ : .cabs ∈ QS) : Frame QS z0 (State.remoteTakes s h p ty claimOk b) := Frame.via (frame_remoteTakes s h p ty claimOk b) (Parts.cons in0_ (Parts.cons in1_ Parts.nil)) fr_
theorem frame_sendSeg (s : State) (h : Half) (p : Nat) (ty : Nat) (m : AsyncMsg) (seg : Nat) : Frame [.free, .ports .A, .ports .B, .rems, .cabs] s (State.sendSeg s h p ty m seg) := by
  have hs0 := fun ps => Frame.refl ps s
  unfold State.sendSeg
  simp (maxDischargeDepth := 80) (contextual := true) [hs0]
@[simp] theorem Frame.after_sendSeg {QS : List Part} {z0 s : State} (h : Half) (p : Nat) (ty : Nat) (m : AsyncMsg) (seg : Nat) (fr_ : Frame QS z0 s) (in0_ : .free ∈ QS) (in1_ : .ports .A ∈ QS) (in2_ : .ports .B ∈ QS) (in3_ : .rems ∈ QS) (in4_ : .cabs ∈ QS) : Frame QS z0 (State.sendSeg s h p ty m seg) := Frame.via (frame_sendSeg s h p ty m seg) (Parts.cons in0_ (Parts.cons in1_ (Parts.cons in2_ (Parts.cons in3_ (Parts.cons in4_ Parts.nil))))) fr_

end Sys2Proof.Machine
end

