-- ==== Sys2Proof/Laws/FrameLocket.lean ====
section
/-!
SUPPORT. Which parts of the state each operation of Machine/Locket.lean may change, and the same as one more step of a framed run.
-/

namespace Sys2Proof.Machine

set_option maxRecDepth 4000

theorem frame_mLkt (s : State) (f : LktS → LktS) : Frame [.lkt] s (State.mLkt s f) := by
  have hs0 := fun ps => Frame.refl ps s
  unfold State.mLkt
  simp (maxDischargeDepth := 80) (contextual := true) [hs0]
@[simp] theorem Frame.after_mLkt {QS : List Part} {z0 s : State} (f : LktS → LktS) (fr_ : Frame QS z0 s) (in0_ : .lkt ∈ QS) : Frame QS z0 (State.mLkt s f) := Frame.via (frame_mLkt s f) (Parts.cons in0_ Parts.nil) fr_
theorem frame_lktTx (s : State) (images : List (Nat × Option KeyE)) (tx : Option Nat) (handle : Nat) : Frame [.free, .lkt] s (State.lktTx s images tx handle) := by
  have hs0 := fun ps => Frame.refl ps s
  unfold State.lktTx
  simp (maxDischargeDepth := 80) (contextual := true) [hs0]
@[simp] theorem Frame.after_lktTx {QS : List Part} {z0 s : State} (images : List (Nat × Option KeyE)) (tx : Option Nat) (handle : Nat) (fr_ : Frame QS z0 s) (in0_ : .free ∈ QS) (in1_ : .lkt ∈ QS) : Frame QS z0 (State.lktTx s images tx handle) := Frame.via (frame_lktTx s images tx handle) (Parts.cons in0_ (Parts.cons in1_ Parts.nil)) fr_
theorem frame_takeSlot (s : State) (i : Nat) : Frame [.lkt] s ((s.takeSlot i).1) := by
  have hs0 := fun ps => Frame.refl ps s
  unfold State.takeSlot
  try dsimp only
  repeat'
    first
    | (simp (maxDischargeDepth := 80) (contextual := true) [hs0, *]; done)
    | split
    | (with_reducible refine Frame.after_ite ?_ ?_)
    | (with_reducible refine Frame.after_foldl _ _ (fun _ _ _ => ?_) ?_)
@[simp] theorem Frame.after_takeSlot {QS : List Part} {z0 s : State} (i : Nat) (fr_ : Frame QS z0 s) (in0_ : .lkt ∈ QS) : Frame QS z0 ((s.takeSlot i).1) := Frame.via (frame_takeSlot s i) (Parts.cons in0_ Parts.nil) fr_
theorem frame_createKey (s : State) (e : KeyE) (origin : Nat) (mat : List Nat) (tx : Option Nat) : Frame [.free, .lkt] s ((s.createKey e origin mat tx).1) := by
  have hs0 := fun ps => Frame.refl ps s
  unfold State.createKey
  try dsimp only
  repeat'
    first
    | (simp (maxDischargeDepth := 80) (contextual := true) [hs0, *]; done)
    | split
    | (with_reducible refine Frame.after_ite ?_ ?_)
    | (with_reducible refine Frame.after_foldl _ _ (fun _ _ _ => ?_) ?_)
@[simp] theorem Frame.after_createKey {QS : List Part} {z0 s : State} (e : KeyE) (origin : Nat) (mat : List Nat) (tx : Option Nat) (fr_ : Frame QS z0 s) (in0_ : .free ∈ QS) (in1_ : .lkt ∈ QS) : Frame QS z0 ((s.createKey e origin mat tx).1) := Frame.via (frame_createKey s e origin mat tx) (Parts.cons in0_ (Parts.cons in1_ Parts.nil)) fr_
theorem frame_creating (s : State) (o : Org) (opc : Nat) (tx : Nat) (attr : List Nat) (origin : Nat) (make : State → KeyE → Nat × List Nat) : Frame [.free, .mbx .A, .mbx .B, .lkt] s (State.creating s o opc tx attr origin make) := by
  have hs0 := fun ps => Frame.refl ps s
  unfold State.creating
  simp (maxDischargeDepth := 80) (contextual := true) [hs0]
@[simp] theorem Frame.after_creating {QS : List Part} {z0 s : State} (o : Org) (opc : Nat) (tx : Nat) (attr : List Nat) (origin : Nat) (make : State → KeyE → Nat × List Nat) (fr_ : Frame QS z0 s) (in0_ : .free ∈ QS) (in1_ : .mbx .A ∈ QS) (in2_ : .mbx .B ∈ QS) (in3_ : .lkt ∈ QS) : Frame QS z0 (State.creating s o opc tx attr origin make) := Frame.via (frame_creating s o opc tx attr origin make) (Parts.cons in0_ (Parts.cons in1_ (Parts.cons in2_ (Parts.cons in3_ Parts.nil)))) fr_
theorem frame_invalidate (s : State) (handle : Nat) (tx : Option Nat) (org : Option Org) : Frame [.free, .lkt] s (State.invalidate s handle tx org) := by
  have hs0 := fun ps => Frame.refl ps s
  unfold State.invalidate
  try dsimp only
  repeat'
    first
    | (simp (maxDischargeDepth := 80) (contextual := true) [hs0, *]; done)
    | split
    | (with_reducible refine Frame.after_ite ?_ ?_)
    | (with_reducible refine Frame.after_foldl _ _ (fun _ _ _ => ?_) ?_)
@[simp] theorem Frame.after_invalidate {QS : List Part} {z0 s : State} (handle : Nat) (tx : Option Nat) (org : Option Org) (fr_ : Frame QS z0 s) (in0_ : .free ∈ QS) (in1_ : .lkt ∈ QS) : Frame QS z0 (State.invalidate s handle tx org) := Frame.via (frame_invalidate s handle tx org) (Parts.cons in0_ (Parts.cons in1_ Parts.nil)) fr_
theorem frame_sendKeyroll (s : State) (p : Nat) (gen : Nat) (at_ : Nat) : Frame [.ports .A, .ports .B] s (State.sendKeyroll s p gen at_) := by
  have hs0 := fun ps => Frame.refl ps s
  unfold State.sendKeyroll
  simp (maxDischargeDepth := 80) (contextual := true) [hs0]
@[simp] theorem Frame.after_sendKeyroll {QS : List Part} {z0 s : State} (p : Nat) (gen : Nat) (at_ : Nat) (fr_ : Frame QS z0 s) (in0_ : .ports .A ∈ QS) (in1_ : .ports .B ∈ QS) : Frame QS z0 (State.sendKeyroll s p gen at_) := Frame.via (frame_sendKeyroll s p gen at_) (Parts.cons in0_ (Parts.cons in1_ Parts.nil)) fr_
theorem frame_opsDone (s : State) (h : Half) : Frame [.free, .mbx .A, .mbx .B, .lkt] s (State.opsDone s h) := by
  have hs0 := fun ps => Frame.refl ps s
  unfold State.opsDone
  simp (maxDischargeDepth := 80) (contextual := true) [hs0]
@[simp] theorem Frame.after_opsDone {QS : List Part} {z0 s : State} (h : Half) (fr_ : Frame QS z0 s) (in0_ : .free ∈ QS) (in1_ : .mbx .A ∈ QS) (in2_ : .mbx .B ∈ QS) (in3_ : .lkt ∈ QS) : Frame QS z0 (State.opsDone s h) := Frame.via (frame_opsDone s h) (Parts.cons in0_ (Parts.cons in1_ (Parts.cons in2_ (Parts.cons in3_ Parts.nil)))) fr_
@[simp] theorem Frame.after_afterHoldup {QS : List Part} {z s : State} (c : LktCmd) (f : State → State) (fr_ : Frame QS z s) (in0_ : .lkt ∈ QS) (hb_ : Frame QS z (f s)) : Frame QS z (s.afterHoldup c f) := by
  unfold State.afterHoldup; split
  · simp [*]
  · exact hb_

end Sys2Proof.Machine
end

