-- ==== Sys2Proof/Laws/FrameOperands.lean ====
section
/-!
SUPPORT. Which parts of the state each operation of Machine/Operands.lean may change, and the same as one more step of a framed run.
-/

namespace Sys2Proof.Machine

set_option maxRecDepth 4000

theorem frame_mCln (s : State) (h : Half) (f : ClnS → ClnS) : Frame [.cln .A, .cln .B] s (State.mCln s h f) := by
  have hs0 := fun ps => Frame.refl ps s
  unfold State.mCln
  simp (maxDischargeDepth := 80) (contextual := true) [hs0]
@[simp] theorem Frame.after_mCln {QS : List Part} {z0 s : State} (h : Half) (f : ClnS → ClnS) (fr_ : Frame QS z0 s) (in0_ : .cln .A ∈ QS) (in1_ : .cln .B ∈ QS) : Frame QS z0 (State.mCln s h f) := Frame.via (frame_mCln s h f) (Parts.cons in0_ (Parts.cons in1_ Parts.nil)) fr_
theorem frame_mLane (s : State) (h : Half) (l : Nat) (f : LaneS → LaneS) : Frame [.cln .A, .cln .B] s (State.mLane s h l f) := by
  have hs0 := fun ps => Frame.refl ps s
  unfold State.mLane
  simp (maxDischargeDepth := 80) (contextual := true) [hs0]
@[simp] theorem Frame.after_mLane {QS : List Part} {z0 s : State} (h : Half) (l : Nat) (f : LaneS → LaneS) (fr_ : Frame QS z0 s) (in0_ : .cln .A ∈ QS) (in1_ : .cln .B ∈ QS) : Frame QS z0 (State.mLane s h l f) := Frame.via (frame_mLane s h l f) (Parts.cons in0_ (Parts.cons in1_ Parts.nil)) fr_
theorem frame_laneStep (s : State) (w : LaneAt) (cyc : Nat) (f : LaneS → LaneS) : Frame [.cln .A, .cln .B] s (State.laneStep s w cyc f) := by
  have hs0 := fun ps => Frame.refl ps s
  unfold State.laneStep
  simp (maxDischargeDepth := 80) (contextual := true) [hs0]
@[simp] theorem Frame.after_laneStep {QS : List Part} {z0 s : State} (w : LaneAt) (cyc : Nat) (f : LaneS → LaneS) (fr_ : Frame QS z0 s) (in0_ : .cln .A ∈ QS) (in1_ : .cln .B ∈ QS) : Frame QS z0 (State.laneStep s w cyc f) := Frame.via (frame_laneStep s w cyc f) (Parts.cons in0_ (Parts.cons in1_ Parts.nil)) fr_
theorem frame_laneRepeat (s : State) (w : LaneAt) (n : Nat) (len : Nat) (count : LaneS → Nat) : Frame [.cln .A, .cln .B] s (State.laneRepeat s w n len count) := by
  have hs0 := fun ps => Frame.refl ps s
  unfold State.laneRepeat
  simp (maxDischargeDepth := 80) (contextual := true) [hs0]
@[simp] theorem Frame.after_laneRepeat {QS : List Part} {z0 s : State} (w : LaneAt) (n : Nat) (len : Nat) (count : LaneS → Nat) (fr_ : Frame QS z0 s) (in0_ : .cln .A ∈ QS) (in1_ : .cln .B ∈ QS) : Frame QS z0 (State.laneRepeat s w n len count) := Frame.via (frame_laneRepeat s w n len count) (Parts.cons in0_ (Parts.cons in1_ Parts.nil)) fr_
theorem frame_renewGstat (s : State) (h : Half) : Frame [.regs .cln] s (State.renewGstat s h) := by
  have hs0 := fun ps => Frame.refl ps s
  unfold State.renewGstat
  simp (maxDischargeDepth := 80) (contextual := true) [hs0]
@[simp] theorem Frame.after_renewGstat {QS : List Part} {z0 s : State} (h : Half) (fr_ : Frame QS z0 s) (in0_ : .regs .cln ∈ QS) : Frame QS z0 (State.renewGstat s h) := Frame.via (frame_renewGstat s h) (Parts.cons in0_ Parts.nil) fr_

end Sys2Proof.Machine
end

