-- ==== Sys2Proof/Laws/FrameSnapshot.lean ====
section
/-!
SUPPORT. Which parts of the state each operation of Machine/Snapshot.lean may change, and the same as one more step of a framed run.
-/

namespace Sys2Proof.Machine

set_option maxRecDepth 4000

theorem frame_completeArrived (h : Half) (s : State) (c : LoopCmd) : Frame [.cln .A, .cln .B, .mbx .A, .mbx .B] s (completeArrived h s c) := by
  have hs0 := fun ps => Frame.refl ps s
  unfold completeArrived
  simp (maxDischargeDepth := 80) (contextual := true) [hs0]
@[simp] theorem Frame.after_completeArrived {QS : List Part} (h : Half) {z0 s : State} (c : LoopCmd) (fr_ : Frame QS z0 s) (in0_ : .cln .A ∈ QS) (in1_ : .cln .B ∈ QS) (in2_ : .mbx .A ∈ QS) (in3_ : .mbx .B ∈ QS) : Frame QS z0 (completeArrived h s c) := Frame.via (frame_completeArrived h s c) (Parts.cons in0_ (Parts.cons in1_ (Parts.cons in2_ (Parts.cons in3_ Parts.nil)))) fr_
theorem frame_mVeh (s : State) (k : Nat) (f : VehS → VehS) : Frame [.veh] s (State.mVeh s k f) := by
  have hs0 := fun ps => Frame.refl ps s
  unfold State.mVeh
  simp (maxDischargeDepth := 80) (contextual := true) [hs0]
@[simp] theorem Frame.after_mVeh {QS : List Part} {z0 s : State} (k : Nat) (f : VehS → VehS) (fr_ : Frame QS z0 s) (in0_ : .veh ∈ QS) : Frame QS z0 (State.mVeh s k f) := Frame.via (frame_mVeh s k f) (Parts.cons in0_ Parts.nil) fr_
theorem frame_vehSample (p : Pub) (s : State) (k : Nat) : Frame [.veh] s (vehSample p s k) := by
  have hs0 := fun ps => Frame.refl ps s
  unfold vehSample
  try dsimp only
  repeat'
    first
    | (simp (maxDischargeDepth := 80) (contextual := true) [hs0, *]; done)
    | split
    | (with_reducible refine Frame.after_ite ?_ ?_)
    | (with_reducible refine Frame.after_foldl _ _ (fun _ _ _ => ?_) ?_)
@[simp] theorem Frame.after_vehSample {QS : List Part} (p : Pub) {z0 s : State} (k : Nat) (fr_ : Frame QS z0 s) (in0_ : .veh ∈ QS) : Frame QS z0 (vehSample p s k) := Frame.via (frame_vehSample p s k) (Parts.cons in0_ Parts.nil) fr_

end Sys2Proof.Machine
end

