-- ==== Sys2Proof/Laws/FrameSessions.lean ====
section
/-!
SUPPORT. Which parts of the state each operation of Machine/Sessions.lean may change, and the same as one more step of a framed run.
-/

namespace Sys2Proof.Machine

set_option maxRecDepth 4000

theorem frame_mC (s : State) (k : Nat) (f : VehC → VehC) : Frame [.veh] s (State.mC s k f) := by
  have hs0 := fun ps => Frame.refl ps s
  unfold State.mC
  simp (maxDischargeDepth := 80) (contextual := true) [hs0]
@[simp] theorem Frame.after_mC {QS : List Part} {z0 s : State} (k : Nat) (f : VehC → VehC) (fr_ : Frame QS z0 s) (in0_ : .veh ∈ QS) : Frame QS z0 (State.mC s k f) := Frame.via (frame_mC s k f) (Parts.cons in0_ Parts.nil) fr_
theorem frame_vehEv (s : State) (k : Nat) : Frame [.mbx .A, .mbx .B] s (State.vehEv s k) := by
  have hs0 := fun ps => Frame.refl ps s
  unfold State.vehEv
  simp (maxDischargeDepth := 80) (contextual := true) [hs0]
@[simp] theorem Frame.after_vehEv {QS : List Part} {z0 s : State} (k : Nat) (fr_ : Frame QS z0 s) (in0_ : .mbx .A ∈ QS) (in1_ : .mbx .B ∈ QS) : Frame QS z0 (State.vehEv s k) := Frame.via (frame_vehEv s k) (Parts.cons in0_ (Parts.cons in1_ Parts.nil)) fr_
theorem frame_idPoint (s : State) (k : Nat) : Frame [.pts .A, .pts .B, .mirOut .A, .mirOut .B, .thm .A, .thm .B] s (State.idPoint s k) := by
  have hs0 := fun ps => Frame.refl ps s
  unfold State.idPoint
  simp (maxDischargeDepth := 80) (contextual := true) [hs0]
@[simp] theorem Frame.after_idPoint {QS : List Part} {z0 s : State} (k : Nat) (fr_ : Frame QS z0 s) (in0_ : .pts .A ∈ QS) (in1_ : .pts .B ∈ QS) (in2_ : .mirOut .A ∈ QS) (in3_ : .mirOut .B ∈ QS) (in4_ : .thm .A ∈ QS) (in5_ : .thm .B ∈ QS) : Frame QS z0 (State.idPoint s k) := Frame.via (frame_idPoint s k) (Parts.cons in0_ (Parts.cons in1_ (Parts.cons in2_ (Parts.cons in3_ (Parts.cons in4_ (Parts.cons in5_ Parts.nil)))))) fr_
theorem frame_stopsDone (s : State) (k : Nat) : Frame [.mbx .A, .mbx .B, .veh] s (State.stopsDone s k) := by
  have hs0 := fun ps => Frame.refl ps s
  unfold State.stopsDone
  simp (maxDischargeDepth := 80) (contextual := true) [hs0]
@[simp] theorem Frame.after_stopsDone {QS : List Part} {z0 s : State} (k : Nat) (fr_ : Frame QS z0 s) (in0_ : .mbx .A ∈ QS) (in1_ : .mbx .B ∈ QS) (in2_ : .veh ∈ QS) : Frame QS z0 (State.stopsDone s k) := Frame.via (frame_stopsDone s k) (Parts.cons in0_ (Parts.cons in1_ (Parts.cons in2_ Parts.nil))) fr_
theorem frame_dropKeys (s : State) (k : Nat) : Frame [.free, .veh, .lkt] s (State.dropKeys s k) := by
  have hs0 := fun ps => Frame.refl ps s
  unfold State.dropKeys
  dsimp only
  refine Frame.after_mC _ _ (Frame.after_foldl _ _ (fun u e hu => ?_) (hs0 _)) ?_
  · try dsimp only
    repeat'
      first
      | (simp (maxDischargeDepth := 80) (contextual := true) [hs0, *]; done)
      | split
      | (with_reducible refine Frame.after_ite ?_ ?_)
      | (with_reducible refine Frame.after_foldl _ _ (fun _ _ _ => ?_) ?_)
  · simp
@[simp] theorem Frame.after_dropKeys {QS : List Part} {z0 s : State} (k : Nat) (fr_ : Frame QS z0 s) (in0_ : .free ∈ QS) (in1_ : .veh ∈ QS) (in2_ : .lkt ∈ QS) : Frame QS z0 (State.dropKeys s k) := Frame.via (frame_dropKeys s k) (Parts.cons in0_ (Parts.cons in1_ (Parts.cons in2_ Parts.nil))) fr_
theorem frame_nextHandshake (s : State) : Frame [.veh] s (State.nextHandshake s) := by
  have hs0 := fun ps => Frame.refl ps s
  unfold State.nextHandshake
  try dsimp only
  repeat'
    first
    | (simp (maxDischargeDepth := 80) (contextual := true) [hs0, *]; done)
    | split
    | (with_reducible refine Frame.after_ite ?_ ?_)
    | (with_reducible refine Frame.after_foldl _ _ (fun _ _ _ => ?_) ?_)
@[simp] theorem Frame.after_nextHandshake {QS : List Part} {z0 s : State} (fr_ : Frame QS z0 s) (in0_ : .veh ∈ QS) : Frame QS z0 (State.nextHandshake s) := Frame.via (frame_nextHandshake s) (Parts.cons in0_ Parts.nil) fr_
theorem frame_enter (s : State) (k : Nat) (st : Nat) : Frame [.free, .mbx .A, .mbx .B, .veh, .lkt] s (State.enter s k st) := by
  have hs0 := fun ps => Frame.refl ps s
  unfold State.enter
  simp (maxDischargeDepth := 80) (contextual := true) [hs0]
@[simp] theorem Frame.after_enter {QS : List Part} {z0 s : State} (k : Nat) (st : Nat) (fr_ : Frame QS z0 s) (in0_ : .free ∈ QS) (in1_ : .mbx .A ∈ QS) (in2_ : .mbx .B ∈ QS) (in3_ : .veh ∈ QS) (in4_ : .lkt ∈ QS) : Frame QS z0 (State.enter s k st) := Frame.via (frame_enter s k st) (Parts.cons in0_ (Parts.cons in1_ (Parts.cons in2_ (Parts.cons in3_ (Parts.cons in4_ Parts.nil))))) fr_
theorem frame_stopSession (s : State) (k : Nat) (reason : Nat) : Frame [.free, .mbx .A, .mbx .B, .veh, .lkt] s (State.stopSession s k reason) := by
  have hs0 := fun ps => Frame.refl ps s
  unfold State.stopSession
  simp (maxDischargeDepth := 80) (contextual := true) [hs0]
@[simp] theorem Frame.after_stopSession {QS : List Part} {z0 s : State} (k : Nat) (reason : Nat) (fr_ : Frame QS z0 s) (in0_ : .free ∈ QS) (in1_ : .mbx .A ∈ QS) (in2_ : .mbx .B ∈ QS) (in3_ : .veh ∈ QS) (in4_ : .lkt ∈ QS) : Frame QS z0 (State.stopSession s k reason) := Frame.via (frame_stopSession s k reason) (Parts.cons in0_ (Parts.cons in1_ (Parts.cons in2_ (Parts.cons in3_ (Parts.cons in4_ Parts.nil))))) fr_
theorem frame_tellStop (s : State) (k : Nat) (reason : Nat) : Frame [.free, .mbx .A, .mbx .B, .veh, .lkt] s (State.tellStop s k reason) := by
  have hs0 := fun ps => Frame.refl ps s
  unfold State.tellStop
  simp (maxDischargeDepth := 80) (contextual := true) [hs0]
@[simp] theorem Frame.after_tellStop {QS : List Part} {z0 s : State} (k : Nat) (reason : Nat) (fr_ : Frame QS z0 s) (in0_ : .free ∈ QS) (in1_ : .mbx .A ∈ QS) (in2_ : .mbx .B ∈ QS) (in3_ : .veh ∈ QS) (in4_ : .lkt ∈ QS) : Frame QS z0 (State.tellStop s k reason) := Frame.via (frame_tellStop s k reason) (Parts.cons in0_ (Parts.cons in1_ (Parts.cons in2_ (Parts.cons in3_ (Parts.cons in4_ Parts.nil))))) fr_
theorem frame_grantAuth (s : State) (k : Nat) (path : Nat) : Frame [.free, .mbx .A, .mbx .B, .veh, .lkt] s (State.grantAuth s k path) := by
  have hs0 := fun ps => Frame.refl ps s
  unfold State.grantAuth
  simp (maxDischargeDepth := 80) (contextual := true) [hs0]
@[simp] theorem Frame.after_grantAuth {QS : List Part} {z0 s : State} (k : Nat) (path : Nat) (fr_ : Frame QS z0 s) (in0_ : .free ∈ QS) (in1_ : .mbx .A ∈ QS) (in2_ : .mbx .B ∈ QS) (in3_ : .veh ∈ QS) (in4_ : .lkt ∈ QS) : Frame QS z0 (State.grantAuth s k path) := Frame.via (frame_grantAuth s k path) (Parts.cons in0_ (Parts.cons in1_ (Parts.cons in2_ (Parts.cons in3_ (Parts.cons in4_ Parts.nil))))) fr_
theorem frame_tryPaths (s : State) (k : Nat) (c : Bool) (a b : Nat) : Frame [.free, .pts .A, .pts .B, .mirOut .A, .mirOut .B, .thm .A, .thm .B, .mbx .A, .mbx .B, .veh, .lkt] s (s.tryPaths k c a b) := by
  induction a generalizing s b with
  | zero =>
    have hs0 := fun ps => Frame.refl ps s
    unfold State.tryPaths
    try dsimp only
    repeat'
      first
      | (simp (maxDischargeDepth := 80) (contextual := true) [hs0, *]; done)
      | split
      | (with_reducible refine Frame.after_ite ?_ ?_)
      | (with_reducible refine Frame.after_foldl _ _ (fun _ _ _ => ?_) ?_)
  | succ n ih =>
    have hs0 := fun ps => Frame.refl ps s
    unfold State.tryPaths
    try dsimp only
    repeat'
      first
      | (simp (maxDischargeDepth := 80) (contextual := true) [hs0, *]; done)
      | split
      | (with_reducible refine Frame.after_ite ?_ ?_)
      | (with_reducible refine Frame.after_foldl _ _ (fun _ _ _ => ?_) ?_)
@[simp] theorem Frame.after_tryPaths {QS : List Part} {z0 s : State} (k : Nat) (c : Bool) (a b : Nat) (fr_ : Frame QS z0 s) (in0_ : .free ∈ QS) (in1_ : .pts .A ∈ QS) (in2_ : .pts .B ∈ QS) (in3_ : .mirOut .A ∈ QS) (in4_ : .mirOut .B ∈ QS) (in5_ : .thm .A ∈ QS) (in6_ : .thm .B ∈ QS) (in7_ : .mbx .A ∈ QS) (in8_ : .mbx .B ∈ QS) (in9_ : .veh ∈ QS) (in10_ : .lkt ∈ QS) : Frame QS z0 (s.tryPaths k c a b) := Frame.via (frame_tryPaths s k c a b) (Parts.cons in0_ (Parts.cons in1_ (Parts.cons in2_ (Parts.cons in3_ (Parts.cons in4_ (Parts.cons in5_ (Parts.cons in6_ (Parts.cons in7_ (Parts.cons in8_ (Parts.cons in9_ (Parts.cons in10_ Parts.nil))))))))))) fr_
theorem frame_authorize (s : State) (k : Nat) (p : Nat) (chainOk : Bool) : Frame [.free, .pts .A, .pts .B, .mirOut .A, .mirOut .B, .thm .A, .thm .B, .mbx .A, .mbx .B, .veh, .lkt] s (State.authorize s k p chainOk) := by
  have hs0 := fun ps => Frame.refl ps s
  unfold State.authorize
  simp (maxDischargeDepth := 80) (contextual := true) [hs0]
@[simp] theorem Frame.after_authorize {QS : List Part} {z0 s : State} (k : Nat) (p : Nat) (chainOk : Bool) (fr_ : Frame QS z0 s) (in0_ : .free ∈ QS) (in1_ : .pts .A ∈ QS) (in2_ : .pts .B ∈ QS) (in3_ : .mirOut .A ∈ QS) (in4_ : .mirOut .B ∈ QS) (in5_ : .thm .A ∈ QS) (in6_ : .thm .B ∈ QS) (in7_ : .mbx .A ∈ QS) (in8_ : .mbx .B ∈ QS) (in9_ : .veh ∈ QS) (in10_ : .lkt ∈ QS) : Frame QS z0 (State.authorize s k p chainOk) := Frame.via (frame_authorize s k p chainOk) (Parts.cons in0_ (Parts.cons in1_ (Parts.cons in2_ (Parts.cons in3_ (Parts.cons in4_ (Parts.cons in5_ (Parts.cons in6_ (Parts.cons in7_ (Parts.cons in8_ (Parts.cons in9_ (Parts.cons in10_ Parts.nil))))))))))) fr_

end Sys2Proof.Machine
end

