-- ==== Sys2Proof/Laws/FrameBilling.lean ====
section
/-!
SUPPORT. Which parts of the state each operation of Machine/Billing.lean may change, and the same as one more step of a framed run.
-/

namespace Sys2Proof.Machine

set_option maxRecDepth 4000

theorem frame_evalRate (s : State) : Frame [.bil] s (State.evalRate s) := by
  have hs0 := fun ps => Frame.refl ps s
  unfold State.evalRate
  simp (maxDischargeDepth := 80) (contextual := true) [hs0]
@[simp] theorem Frame.after_evalRate {QS : List Part} {z0 s : State} (fr_ : Frame QS z0 s) (in0_ : .bil ∈ QS) : Frame QS z0 (State.evalRate s) := Frame.via (frame_evalRate s) (Parts.cons in0_ Parts.nil) fr_
theorem frame_chainWrite (s : State) (ow a b : Nat) (l : List Nat) : Frame [.pts .A, .pts .B, .mirOut .A, .mirOut .B, .thm .A, .thm .B] s (s.chainWrite ow a b l) := by
  induction a generalizing s b l with
  | zero => exact Frame.refl _ _
  | succ n ih => exact Frame.trans (by have hs0 := fun ps => Frame.refl ps s; simp (maxDischargeDepth := 80) [hs0]) (ih _ _ _)
@[simp] theorem Frame.after_chainWrite {QS : List Part} {z0 s : State} (ow a b : Nat) (l : List Nat) (fr_ : Frame QS z0 s) (in0_ : .pts .A ∈ QS) (in1_ : .pts .B ∈ QS) (in2_ : .mirOut .A ∈ QS) (in3_ : .mirOut .B ∈ QS) (in4_ : .thm .A ∈ QS) (in5_ : .thm .B ∈ QS) : Frame QS z0 (s.chainWrite ow a b l) := Frame.via (frame_chainWrite s ow a b l) (Parts.cons in0_ (Parts.cons in1_ (Parts.cons in2_ (Parts.cons in3_ (Parts.cons in4_ (Parts.cons in5_ Parts.nil)))))) fr_
theorem frame_closeInterval (s : State) (i : Nat) (endU : Int) (inc : Bool) (step : Bool) : Frame [.pts .A, .pts .B, .mirOut .A, .mirOut .B, .thm .A, .thm .B, .bil] s (State.closeInterval s i endU inc step) := by
  have hs0 := fun ps => Frame.refl ps s
  unfold State.closeInterval
  simp (maxDischargeDepth := 80) (contextual := true) [hs0]
@[simp] theorem Frame.after_closeInterval {QS : List Part} {z0 s : State} (i : Nat) (endU : Int) (inc : Bool) (step : Bool) (fr_ : Frame QS z0 s) (in0_ : .pts .A ∈ QS) (in1_ : .pts .B ∈ QS) (in2_ : .mirOut .A ∈ QS) (in3_ : .mirOut .B ∈ QS) (in4_ : .thm .A ∈ QS) (in5_ : .thm .B ∈ QS) (in6_ : .bil ∈ QS) : Frame QS z0 (State.closeInterval s i endU inc step) := Frame.via (frame_closeInterval s i endU inc step) (Parts.cons in0_ (Parts.cons in1_ (Parts.cons in2_ (Parts.cons in3_ (Parts.cons in4_ (Parts.cons in5_ (Parts.cons in6_ Parts.nil))))))) fr_
theorem frame_edgeIntervals (s : State) : Frame [.pts .A, .pts .B, .mirOut .A, .mirOut .B, .thm .A, .thm .B, .bil] s (State.edgeIntervals s) := by
  have hs0 := fun ps => Frame.refl ps s
  unfold State.edgeIntervals
  simp (maxDischargeDepth := 80) (contextual := true) [hs0]
@[simp] theorem Frame.after_edgeIntervals {QS : List Part} {z0 s : State} (fr_ : Frame QS z0 s) (in0_ : .pts .A ∈ QS) (in1_ : .pts .B ∈ QS) (in2_ : .mirOut .A ∈ QS) (in3_ : .mirOut .B ∈ QS) (in4_ : .thm .A ∈ QS) (in5_ : .thm .B ∈ QS) (in6_ : .bil ∈ QS) : Frame QS z0 (State.edgeIntervals s) := Frame.via (frame_edgeIntervals s) (Parts.cons in0_ (Parts.cons in1_ (Parts.cons in2_ (Parts.cons in3_ (Parts.cons in4_ (Parts.cons in5_ (Parts.cons in6_ Parts.nil))))))) fr_
theorem frame_closePeriod (s : State) (u : Int) (cause : Nat) (flags : Nat) : Frame [.bil] s (State.closePeriod s u cause flags) := by
  have hs0 := fun ps => Frame.refl ps s
  unfold State.closePeriod
  simp (maxDischargeDepth := 80) (contextual := true) [hs0]
@[simp] theorem Frame.after_closePeriod {QS : List Part} {z0 s : State} (u : Int) (cause : Nat) (flags : Nat) (fr_ : Frame QS z0 s) (in0_ : .bil ∈ QS) : Frame QS z0 (State.closePeriod s u cause flags) := Frame.via (frame_closePeriod s u cause flags) (Parts.cons in0_ Parts.nil) fr_
theorem frame_edgePeriods (s : State) : Frame [.pts .A, .pts .B, .mirOut .A, .mirOut .B, .thm .A, .thm .B, .bil] s (State.edgePeriods s) := by
  have hs0 := fun ps => Frame.refl ps s
  unfold State.edgePeriods
  simp (maxDischargeDepth := 80) (contextual := true) [hs0]
@[simp] theorem Frame.after_edgePeriods {QS : List Part} {z0 s : State} (fr_ : Frame QS z0 s) (in0_ : .pts .A ∈ QS) (in1_ : .pts .B ∈ QS) (in2_ : .mirOut .A ∈ QS) (in3_ : .mirOut .B ∈ QS) (in4_ : .thm .A ∈ QS) (in5_ : .thm .B ∈ QS) (in6_ : .bil ∈ QS) : Frame QS z0 (State.edgePeriods s) := Frame.via (frame_edgePeriods s) (Parts.cons in0_ (Parts.cons in1_ (Parts.cons in2_ (Parts.cons in3_ (Parts.cons in4_ (Parts.cons in5_ (Parts.cons in6_ Parts.nil))))))) fr_
theorem frame_activate (s : State) (t : Tariff) : Frame [.free, .pts .A, .pts .B, .mirOut .A, .mirOut .B, .thm .A, .thm .B, .mbx .A, .mbx .B, .met, .bil] s (State.activate s t) := by
  have hs0 := fun ps => Frame.refl ps s
  unfold State.activate
  simp (maxDischargeDepth := 80) (contextual := true) [hs0]
@[simp] theorem Frame.after_activate {QS : List Part} {z0 s : State} (t : Tariff) (fr_ : Frame QS z0 s) (in0_ : .free ∈ QS) (in1_ : .pts .A ∈ QS) (in2_ : .pts .B ∈ QS) (in3_ : .mirOut .A ∈ QS) (in4_ : .mirOut .B ∈ QS) (in5_ : .thm .A ∈ QS) (in6_ : .thm .B ∈ QS) (in7_ : .mbx .A ∈ QS) (in8_ : .mbx .B ∈ QS) (in9_ : .met ∈ QS) (in10_ : .bil ∈ QS) : Frame QS z0 (State.activate s t) := Frame.via (frame_activate s t) (Parts.cons in0_ (Parts.cons in1_ (Parts.cons in2_ (Parts.cons in3_ (Parts.cons in4_ (Parts.cons in5_ (Parts.cons in6_ (Parts.cons in7_ (Parts.cons in8_ (Parts.cons in9_ (Parts.cons in10_ Parts.nil))))))))))) fr_
theorem frame_edgeTariff (s : State) : Frame [.free, .pts .A, .pts .B, .mirOut .A, .mirOut .B, .thm .A, .thm .B, .mbx .A, .mbx .B, .met, .bil] s (State.edgeTariff s) := by
  have hs0 := fun ps => Frame.refl ps s
  unfold State.edgeTariff
  try dsimp only
  repeat'
    first
    | (simp (maxDischargeDepth := 80) (contextual := true) [hs0, *]; done)
    | split
    | (with_reducible refine Frame.after_ite ?_ ?_)
    | (with_reducible refine Frame.after_foldl _ _ (fun _ _ _ => ?_) ?_)
@[simp] theorem Frame.after_edgeTariff {QS : List Part} {z0 s : State} (fr_ : Frame QS z0 s) (in0_ : .free ∈ QS) (in1_ : .pts .A ∈ QS) (in2_ : .pts .B ∈ QS) (in3_ : .mirOut .A ∈ QS) (in4_ : .mirOut .B ∈ QS) (in5_ : .thm .A ∈ QS) (in6_ : .thm .B ∈ QS) (in7_ : .mbx .A ∈ QS) (in8_ : .mbx .B ∈ QS) (in9_ : .met ∈ QS) (in10_ : .bil ∈ QS) : Frame QS z0 (State.edgeTariff s) := Frame.via (frame_edgeTariff s) (Parts.cons in0_ (Parts.cons in1_ (Parts.cons in2_ (Parts.cons in3_ (Parts.cons in4_ (Parts.cons in5_ (Parts.cons in6_ (Parts.cons in7_ (Parts.cons in8_ (Parts.cons in9_ (Parts.cons in10_ Parts.nil))))))))))) fr_
theorem frame_passMinute (s : State) (step : Bool) (u : Int) : Frame [.free, .pts .A, .pts .B, .mirOut .A, .mirOut .B, .thm .A, .thm .B, .mbx .A, .mbx .B, .met, .bil] s (State.passMinute s step u) := by
  have hs0 := fun ps => Frame.refl ps s
  unfold State.passMinute
  try dsimp only
  repeat'
    first
    | (simp (maxDischargeDepth := 80) (contextual := true) [hs0, *]; done)
    | split
    | (with_reducible refine Frame.after_ite ?_ ?_)
    | (with_reducible refine Frame.after_foldl _ _ (fun _ _ _ => ?_) ?_)
@[simp] theorem Frame.after_passMinute {QS : List Part} {z0 s : State} (step : Bool) (u : Int) (fr_ : Frame QS z0 s) (in0_ : .free ∈ QS) (in1_ : .pts .A ∈ QS) (in2_ : .pts .B ∈ QS) (in3_ : .mirOut .A ∈ QS) (in4_ : .mirOut .B ∈ QS) (in5_ : .thm .A ∈ QS) (in6_ : .thm .B ∈ QS) (in7_ : .mbx .A ∈ QS) (in8_ : .mbx .B ∈ QS) (in9_ : .met ∈ QS) (in10_ : .bil ∈ QS) : Frame QS z0 (State.passMinute s step u) := Frame.via (frame_passMinute s step u) (Parts.cons in0_ (Parts.cons in1_ (Parts.cons in2_ (Parts.cons in3_ (Parts.cons in4_ (Parts.cons in5_ (Parts.cons in6_ (Parts.cons in7_ (Parts.cons in8_ (Parts.cons in9_ (Parts.cons in10_ Parts.nil))))))))))) fr_
theorem frame_passMinutes (s : State) (st : Bool) (a : Nat) (b : Int) : Frame [.free, .pts .A, .pts .B, .mirOut .A, .mirOut .B, .thm .A, .thm .B, .mbx .A, .mbx .B, .met, .bil] s (State.passMinutes st a b s) := by
  induction a generalizing s b with
  | zero => exact Frame.refl _ _
  | succ n ih => exact Frame.trans (by have hs0 := fun ps => Frame.refl ps s; simp (maxDischargeDepth := 80) [hs0]) (ih _ _)
@[simp] theorem Frame.after_passMinutes {QS : List Part} {z0 s : State} (st : Bool) (a : Nat) (b : Int) (fr_ : Frame QS z0 s) (in0_ : .free ∈ QS) (in1_ : .pts .A ∈ QS) (in2_ : .pts .B ∈ QS) (in3_ : .mirOut .A ∈ QS) (in4_ : .mirOut .B ∈ QS) (in5_ : .thm .A ∈ QS) (in6_ : .thm .B ∈ QS) (in7_ : .mbx .A ∈ QS) (in8_ : .mbx .B ∈ QS) (in9_ : .met ∈ QS) (in10_ : .bil ∈ QS) : Frame QS z0 (State.passMinutes st a b s) := Frame.via (frame_passMinutes s st a b) (Parts.cons in0_ (Parts.cons in1_ (Parts.cons in2_ (Parts.cons in3_ (Parts.cons in4_ (Parts.cons in5_ (Parts.cons in6_ (Parts.cons in7_ (Parts.cons in8_ (Parts.cons in9_ (Parts.cons in10_ Parts.nil))))))))))) fr_
theorem frame_catchUp (s : State) : Frame [.free, .pts .A, .pts .B, .mirOut .A, .mirOut .B, .thm .A, .thm .B, .mbx .A, .mbx .B, .met, .bil] s (State.catchUp s) := by
  have hs0 := fun ps => Frame.refl ps s
  unfold State.catchUp
  simp (maxDischargeDepth := 80) (contextual := true) [hs0]
@[simp] theorem Frame.after_catchUp {QS : List Part} {z0 s : State} (fr_ : Frame QS z0 s) (in0_ : .free ∈ QS) (in1_ : .pts .A ∈ QS) (in2_ : .pts .B ∈ QS) (in3_ : .mirOut .A ∈ QS) (in4_ : .mirOut .B ∈ QS) (in5_ : .thm .A ∈ QS) (in6_ : .thm .B ∈ QS) (in7_ : .mbx .A ∈ QS) (in8_ : .mbx .B ∈ QS) (in9_ : .met ∈ QS) (in10_ : .bil ∈ QS) : Frame QS z0 (State.catchUp s) := Frame.via (frame_catchUp s) (Parts.cons in0_ (Parts.cons in1_ (Parts.cons in2_ (Parts.cons in3_ (Parts.cons in4_ (Parts.cons in5_ (Parts.cons in6_ (Parts.cons in7_ (Parts.cons in8_ (Parts.cons in9_ (Parts.cons in10_ Parts.nil))))))))))) fr_
theorem frame_billingStep (s : State) (u0 : Int) (u1 : Int) : Frame [.free, .pts .A, .pts .B, .mirOut .A, .mirOut .B, .thm .A, .thm .B, .mbx .A, .mbx .B, .met, .bil] s (State.billingStep s u0 u1) := by
  have hs0 := fun ps => Frame.refl ps s
  unfold State.billingStep
  simp (maxDischargeDepth := 80) (contextual := true) [hs0]
@[simp] theorem Frame.after_billingStep {QS : List Part} {z0 s : State} (u0 : Int) (u1 : Int) (fr_ : Frame QS z0 s) (in0_ : .free ∈ QS) (in1_ : .pts .A ∈ QS) (in2_ : .pts .B ∈ QS) (in3_ : .mirOut .A ∈ QS) (in4_ : .mirOut .B ∈ QS) (in5_ : .thm .A ∈ QS) (in6_ : .thm .B ∈ QS) (in7_ : .mbx .A ∈ QS) (in8_ : .mbx .B ∈ QS) (in9_ : .met ∈ QS) (in10_ : .bil ∈ QS) : Frame QS z0 (State.billingStep s u0 u1) := Frame.via (frame_billingStep s u0 u1) (Parts.cons in0_ (Parts.cons in1_ (Parts.cons in2_ (Parts.cons in3_ (Parts.cons in4_ (Parts.cons in5_ (Parts.cons in6_ (Parts.cons in7_ (Parts.cons in8_ (Parts.cons in9_ (Parts.cons in10_ Parts.nil))))))))))) fr_
theorem frame_saveBilling (s : State) (pf : Bool) : Frame [.bil] s (State.saveBilling s pf) := by
  have hs0 := fun ps => Frame.refl ps s
  unfold State.saveBilling
  simp (maxDischargeDepth := 80) (contextual := true) [hs0]
@[simp] theorem Frame.after_saveBilling {QS : List Part} {z0 s : State} (pf : Bool) (fr_ : Frame QS z0 s) (in0_ : .bil ∈ QS) : Frame QS z0 (State.saveBilling s pf) := Frame.via (frame_saveBilling s pf) (Parts.cons in0_ Parts.nil) fr_
theorem frame_unsaved (u : Int) (s : State) (src : Nat) : Frame [.free, .mbx .A, .mbx .B, .met, .bil] s (unsaved u s src) := by
  have hs0 := fun ps => Frame.refl ps s
  unfold unsaved
  simp (maxDischargeDepth := 80) (contextual := true) [hs0]
@[simp] theorem Frame.after_unsaved {QS : List Part} (u : Int) {z0 s : State} (src : Nat) (fr_ : Frame QS z0 s) (in0_ : .free ∈ QS) (in1_ : .mbx .A ∈ QS) (in2_ : .mbx .B ∈ QS) (in3_ : .met ∈ QS) (in4_ : .bil ∈ QS) : Frame QS z0 (unsaved u s src) := Frame.via (frame_unsaved u s src) (Parts.cons in0_ (Parts.cons in1_ (Parts.cons in2_ (Parts.cons in3_ (Parts.cons in4_ Parts.nil))))) fr_
theorem frame_billingRestore (s : State) (ok0 : Bool) (ok1 : Bool) (time : Bool) : Frame [.free, .mbx .A, .mbx .B, .met, .bil] s (State.billingRestore s ok0 ok1 time) := by
  have hs0 := fun ps => Frame.refl ps s
  unfold State.billingRestore
  try dsimp only
  repeat'
    first
    | (simp (maxDischargeDepth := 80) (contextual := true) [hs0, *]; done)
    | split
    | (with_reducible refine Frame.after_ite ?_ ?_)
    | (with_reducible refine Frame.after_foldl _ _ (fun _ _ _ => ?_) ?_)
@[simp] theorem Frame.after_billingRestore {QS : List Part} {z0 s : State} (ok0 : Bool) (ok1 : Bool) (time : Bool) (fr_ : Frame QS z0 s) (in0_ : .free ∈ QS) (in1_ : .mbx .A ∈ QS) (in2_ : .mbx .B ∈ QS) (in3_ : .met ∈ QS) (in4_ : .bil ∈ QS) : Frame QS z0 (State.billingRestore s ok0 ok1 time) := Frame.via (frame_billingRestore s ok0 ok1 time) (Parts.cons in0_ (Parts.cons in1_ (Parts.cons in2_ (Parts.cons in3_ (Parts.cons in4_ Parts.nil))))) fr_
theorem frame_bilPoints (s : State) (src : Nat) (q : Nat) : Frame [.pts .A, .pts .B, .mirOut .A, .mirOut .B, .thm .A, .thm .B] s (State.bilPoints s src q) := by
  have hs0 := fun ps => Frame.refl ps s
  unfold State.bilPoints
  simp (maxDischargeDepth := 80) (contextual := true) [hs0]
@[simp] theorem Frame.after_bilPoints {QS : List Part} {z0 s : State} (src : Nat) (q : Nat) (fr_ : Frame QS z0 s) (in0_ : .pts .A ∈ QS) (in1_ : .pts .B ∈ QS) (in2_ : .mirOut .A ∈ QS) (in3_ : .mirOut .B ∈ QS) (in4_ : .thm .A ∈ QS) (in5_ : .thm .B ∈ QS) : Frame QS z0 (State.bilPoints s src q) := Frame.via (frame_bilPoints s src q) (Parts.cons in0_ (Parts.cons in1_ (Parts.cons in2_ (Parts.cons in3_ (Parts.cons in4_ (Parts.cons in5_ Parts.nil)))))) fr_
theorem frame_demandPoints (s : State) (src : Nat) : Frame [.pts .A, .pts .B, .mirOut .A, .mirOut .B, .thm .A, .thm .B] s (State.demandPoints s src) := by
  have hs0 := fun ps => Frame.refl ps s
  unfold State.demandPoints
  simp (maxDischargeDepth := 80) (contextual := true) [hs0]
@[simp] theorem Frame.after_demandPoints {QS : List Part} {z0 s : State} (src : Nat) (fr_ : Frame QS z0 s) (in0_ : .pts .A ∈ QS) (in1_ : .pts .B ∈ QS) (in2_ : .mirOut .A ∈ QS) (in3_ : .mirOut .B ∈ QS) (in4_ : .thm .A ∈ QS) (in5_ : .thm .B ∈ QS) : Frame QS z0 (State.demandPoints s src) := Frame.via (frame_demandPoints s src) (Parts.cons in0_ (Parts.cons in1_ (Parts.cons in2_ (Parts.cons in3_ (Parts.cons in4_ (Parts.cons in5_ Parts.nil)))))) fr_
theorem frame_refreshBilling (s : State) : Frame [.pts .A, .pts .B, .mirOut .A, .mirOut .B, .thm .A, .thm .B] s (State.refreshBilling s) := by
  have hs0 := fun ps => Frame.refl ps s
  unfold State.refreshBilling
  simp (maxDischargeDepth := 80) (contextual := true) [hs0]
@[simp] theorem Frame.after_refreshBilling {QS : List Part} {z0 s : State} (fr_ : Frame QS z0 s) (in0_ : .pts .A ∈ QS) (in1_ : .pts .B ∈ QS) (in2_ : .mirOut .A ∈ QS) (in3_ : .mirOut .B ∈ QS) (in4_ : .thm .A ∈ QS) (in5_ : .thm .B ∈ QS) : Frame QS z0 (State.refreshBilling s) := Frame.via (frame_refreshBilling s) (Parts.cons in0_ (Parts.cons in1_ (Parts.cons in2_ (Parts.cons in3_ (Parts.cons in4_ (Parts.cons in5_ Parts.nil)))))) fr_
theorem frame_openAcct (s : State) (k : Nat) (num : Nat) : Frame [.bil] s (State.openAcct s k num) := by
  have hs0 := fun ps => Frame.refl ps s
  unfold State.openAcct
  simp (maxDischargeDepth := 80) (contextual := true) [hs0]
@[simp] theorem Frame.after_openAcct {QS : List Part} {z0 s : State} (k : Nat) (num : Nat) (fr_ : Frame QS z0 s) (in0_ : .bil ∈ QS) : Frame QS z0 (State.openAcct s k num) := Frame.via (frame_openAcct s k num) (Parts.cons in0_ Parts.nil) fr_
theorem frame_putLomvor (s : State) (n : Nat) (body : List Nat) (sigs : List Nat) : Frame [.pts .A, .pts .B, .mirOut .A, .mirOut .B, .thm .A, .thm .B, .bil] s (State.putLomvor s n body sigs) := by
  have hs0 := fun ps => Frame.refl ps s
  unfold State.putLomvor
  simp (maxDischargeDepth := 80) (contextual := true) [hs0]
@[simp] theorem Frame.after_putLomvor {QS : List Part} {z0 s : State} (n : Nat) (body : List Nat) (sigs : List Nat) (fr_ : Frame QS z0 s) (in0_ : .pts .A ∈ QS) (in1_ : .pts .B ∈ QS) (in2_ : .mirOut .A ∈ QS) (in3_ : .mirOut .B ∈ QS) (in4_ : .thm .A ∈ QS) (in5_ : .thm .B ∈ QS) (in6_ : .bil ∈ QS) : Frame QS z0 (State.putLomvor s n body sigs) := Frame.via (frame_putLomvor s n body sigs) (Parts.cons in0_ (Parts.cons in1_ (Parts.cons in2_ (Parts.cons in3_ (Parts.cons in4_ (Parts.cons in5_ (Parts.cons in6_ Parts.nil))))))) fr_
theorem frame_signHeld (s : State) : Frame [.free, .pts .A, .pts .B, .mirOut .A, .mirOut .B, .thm .A, .thm .B, .bil] s (State.signHeld s) := by
  have hs0 := fun ps => Frame.refl ps s
  unfold State.signHeld
  try dsimp only
  repeat'
    first
    | (simp (maxDischargeDepth := 80) (contextual := true) [hs0, *]; done)
    | split
    | (with_reducible refine Frame.after_ite ?_ ?_)
    | (with_reducible refine Frame.after_foldl _ _ (fun _ _ _ => ?_) ?_)
@[simp] theorem Frame.after_signHeld {QS : List Part} {z0 s : State} (fr_ : Frame QS z0 s) (in0_ : .free ∈ QS) (in1_ : .pts .A ∈ QS) (in2_ : .pts .B ∈ QS) (in3_ : .mirOut .A ∈ QS) (in4_ : .mirOut .B ∈ QS) (in5_ : .thm .A ∈ QS) (in6_ : .thm .B ∈ QS) (in7_ : .bil ∈ QS) : Frame QS z0 (State.signHeld s) := Frame.via (frame_signHeld s) (Parts.cons in0_ (Parts.cons in1_ (Parts.cons in2_ (Parts.cons in3_ (Parts.cons in4_ (Parts.cons in5_ (Parts.cons in6_ (Parts.cons in7_ Parts.nil)))))))) fr_
theorem frame_closeAcct (s : State) (k : Nat) (sigs : List Nat) : Frame [.pts .A, .pts .B, .mirOut .A, .mirOut .B, .thm .A, .thm .B, .bil] s (State.closeAcct s k sigs) := by
  have hs0 := fun ps => Frame.refl ps s
  unfold State.closeAcct
  try dsimp only
  repeat'
    first
    | (simp (maxDischargeDepth := 80) (contextual := true) [hs0, *]; done)
    | split
    | (with_reducible refine Frame.after_ite ?_ ?_)
    | (with_reducible refine Frame.after_foldl _ _ (fun _ _ _ => ?_) ?_)
@[simp] theorem Frame.after_closeAcct {QS : List Part} {z0 s : State} (k : Nat) (sigs : List Nat) (fr_ : Frame QS z0 s) (in0_ : .pts .A ∈ QS) (in1_ : .pts .B ∈ QS) (in2_ : .mirOut .A ∈ QS) (in3_ : .mirOut .B ∈ QS) (in4_ : .thm .A ∈ QS) (in5_ : .thm .B ∈ QS) (in6_ : .bil ∈ QS) : Frame QS z0 (State.closeAcct s k sigs) := Frame.via (frame_closeAcct s k sigs) (Parts.cons in0_ (Parts.cons in1_ (Parts.cons in2_ (Parts.cons in3_ (Parts.cons in4_ (Parts.cons in5_ (Parts.cons in6_ Parts.nil))))))) fr_
theorem frame_mLdsp (s : State) (f : LdspS → LdspS) : Frame [.bil] s (State.mLdsp s f) := by
  have hs0 := fun ps => Frame.refl ps s
  unfold State.mLdsp
  simp (maxDischargeDepth := 80) (contextual := true) [hs0]
@[simp] theorem Frame.after_mLdsp {QS : List Part} {z0 s : State} (f : LdspS → LdspS) (fr_ : Frame QS z0 s) (in0_ : .bil ∈ QS) : Frame QS z0 (State.mLdsp s f) := Frame.via (frame_mLdsp s f) (Parts.cons in0_ Parts.nil) fr_
theorem frame_nextItem (s : State) : Frame [.bil] s (State.nextItem s) := by
  have hs0 := fun ps => Frame.refl ps s
  unfold State.nextItem
  simp (maxDischargeDepth := 80) (contextual := true) [hs0]
@[simp] theorem Frame.after_nextItem {QS : List Part} {z0 s : State} (fr_ : Frame QS z0 s) (in0_ : .bil ∈ QS) : Frame QS z0 (State.nextItem s) := Frame.via (frame_nextItem s) (Parts.cons in0_ Parts.nil) fr_
theorem frame_takeToken (s : State) (out : Nat) (seq : Nat) (credit : Nat) (ledger : Nat) : Frame [.free, .mbx .A, .mbx .B, .veh, .bil, .lkt] s (State.takeToken s out seq credit ledger) := by
  have hs0 := fun ps => Frame.refl ps s
  unfold State.takeToken
  simp (maxDischargeDepth := 80) (contextual := true) [hs0]
@[simp] theorem Frame.after_takeToken {QS : List Part} {z0 s : State} (out : Nat) (seq : Nat) (credit : Nat) (ledger : Nat) (fr_ : Frame QS z0 s) (in0_ : .free ∈ QS) (in1_ : .mbx .A ∈ QS) (in2_ : .mbx .B ∈ QS) (in3_ : .veh ∈ QS) (in4_ : .bil ∈ QS) (in5_ : .lkt ∈ QS) : Frame QS z0 (State.takeToken s out seq credit ledger) := Frame.via (frame_takeToken s out seq credit ledger) (Parts.cons in0_ (Parts.cons in1_ (Parts.cons in2_ (Parts.cons in3_ (Parts.cons in4_ (Parts.cons in5_ Parts.nil)))))) fr_
theorem frame_tokenEntry (s : State) (src : Nat) (out : Nat) (d : List Nat) : Frame [.free, .pts .A, .pts .B, .mirOut .A, .mirOut .B, .thm .A, .thm .B, .mbx .A, .mbx .B, .veh, .met, .bil, .lkt] s (State.tokenEntry s src out d) := by
  have hs0 := fun ps => Frame.refl ps s
  unfold State.tokenEntry
  simp (maxDischargeDepth := 80) (contextual := true) [hs0]
@[simp] theorem Frame.after_tokenEntry {QS : List Part} {z0 s : State} (src : Nat) (out : Nat) (d : List Nat) (fr_ : Frame QS z0 s) (in0_ : .free ∈ QS) (in1_ : .pts .A ∈ QS) (in2_ : .pts .B ∈ QS) (in3_ : .mirOut .A ∈ QS) (in4_ : .mirOut .B ∈ QS) (in5_ : .thm .A ∈ QS) (in6_ : .thm .B ∈ QS) (in7_ : .mbx .A ∈ QS) (in8_ : .mbx .B ∈ QS) (in9_ : .veh ∈ QS) (in10_ : .met ∈ QS) (in11_ : .bil ∈ QS) (in12_ : .lkt ∈ QS) : Frame QS z0 (State.tokenEntry s src out d) := Frame.via (frame_tokenEntry s src out d) (Parts.cons in0_ (Parts.cons in1_ (Parts.cons in2_ (Parts.cons in3_ (Parts.cons in4_ (Parts.cons in5_ (Parts.cons in6_ (Parts.cons in7_ (Parts.cons in8_ (Parts.cons in9_ (Parts.cons in10_ (Parts.cons in11_ (Parts.cons in12_ Parts.nil))))))))))))) fr_

end Sys2Proof.Machine
end

