-- ==== Sys2Proof/Laws/FrameCanIo.lean ====
section
/-!
SUPPORT. Which parts of the state each operation of Machine/CanIo.lean may change, and the same as one more step of a framed run.
-/

namespace Sys2Proof.Machine

set_option maxRecDepth 4000

theorem frame_gateOut (s : State) (h : Half) : Frame [.regs .loc] s (State.gateOut s h) := by
  have hs0 := fun ps => Frame.refl ps s
  unfold State.gateOut
  simp (maxDischargeDepth := 80) (contextual := true) [hs0]
@[simp] theorem Frame.after_gateOut {QS : List Part} {z0 s : State} (h : Half) (fr_ : Frame QS z0 s) (in0_ : .regs .loc ∈ QS) : Frame QS z0 (State.gateOut s h) := Frame.via (frame_gateOut s h) (Parts.cons in0_ Parts.nil) fr_
theorem frame_startTimer (s : State) (h : Half) (t : Nat) (ofs : Nat) : Frame [.regs .loc, .tmr .A, .tmr .B] s (State.startTimer s h t ofs) := by
  have hs0 := fun ps => Frame.refl ps s
  unfold State.startTimer
  simp (maxDischargeDepth := 80) (contextual := true) [hs0]
@[simp] theorem Frame.after_startTimer {QS : List Part} {z0 s : State} (h : Half) (t : Nat) (ofs : Nat) (fr_ : Frame QS z0 s) (in0_ : .regs .loc ∈ QS) (in1_ : .tmr .A ∈ QS) (in2_ : .tmr .B ∈ QS) : Frame QS z0 (State.startTimer s h t ofs) := Frame.via (frame_startTimer s h t ofs) (Parts.cons in0_ (Parts.cons in1_ (Parts.cons in2_ Parts.nil))) fr_
theorem frame_wideLatch (s : State) (h : Half) (src : Nat) (answers : Bool) : Frame [.regs .loc] s (State.wideLatch s h src answers) := by
  have hs0 := fun ps => Frame.refl ps s
  unfold State.wideLatch
  simp (maxDischargeDepth := 80) (contextual := true) [hs0]
@[simp] theorem Frame.after_wideLatch {QS : List Part} {z0 s : State} (h : Half) (src : Nat) (answers : Bool) (fr_ : Frame QS z0 s) (in0_ : .regs .loc ∈ QS) : Frame QS z0 (State.wideLatch s h src answers) := Frame.via (frame_wideLatch s h src answers) (Parts.cons in0_ Parts.nil) fr_
theorem frame_setCan (s : State) (n : Nat) (off : Nat) (v : Word) : Frame [.regs .can] s (State.setCan s n off v) := by
  have hs0 := fun ps => Frame.refl ps s
  unfold State.setCan
  simp (maxDischargeDepth := 80) (contextual := true) [hs0]
@[simp] theorem Frame.after_setCan {QS : List Part} {z0 s : State} (n : Nat) (off : Nat) (v : Word) (fr_ : Frame QS z0 s) (in0_ : .regs .can ∈ QS) : Frame QS z0 (State.setCan s n off v) := Frame.via (frame_setCan s n off v) (Parts.cons in0_ Parts.nil) fr_
theorem frame_setCanFld (s : State) (n : Nat) (off : Nat) (hi : Nat) (lo : Nat) (v : Nat) : Frame [.regs .can] s (State.setCanFld s n off hi lo v) := by
  have hs0 := fun ps => Frame.refl ps s
  unfold State.setCanFld
  simp (maxDischargeDepth := 80) (contextual := true) [hs0]
@[simp] theorem Frame.after_setCanFld {QS : List Part} {z0 s : State} (n : Nat) (off : Nat) (hi : Nat) (lo : Nat) (v : Nat) (fr_ : Frame QS z0 s) (in0_ : .regs .can ∈ QS) : Frame QS z0 (State.setCanFld s n off hi lo v) := Frame.via (frame_setCanFld s n off hi lo v) (Parts.cons in0_ Parts.nil) fr_
theorem frame_mCan (s : State) (n : Nat) (f : CanS → CanS) : Frame [.cans] s (State.mCan s n f) := by
  have hs0 := fun ps => Frame.refl ps s
  unfold State.mCan
  simp (maxDischargeDepth := 80) (contextual := true) [hs0]
@[simp] theorem Frame.after_mCan {QS : List Part} {z0 s : State} (n : Nat) (f : CanS → CanS) (fr_ : Frame QS z0 s) (in0_ : .cans ∈ QS) : Frame QS z0 (State.mCan s n f) := Frame.via (frame_mCan s n f) (Parts.cons in0_ Parts.nil) fr_
theorem frame_canIrq (s : State) (n : Nat) (i : Nat) : Frame [.regs .can] s (State.canIrq s n i) := by
  have hs0 := fun ps => Frame.refl ps s
  unfold State.canIrq
  simp (maxDischargeDepth := 80) (contextual := true) [hs0]
@[simp] theorem Frame.after_canIrq {QS : List Part} {z0 s : State} (n : Nat) (i : Nat) (fr_ : Frame QS z0 s) (in0_ : .regs .can ∈ QS) : Frame QS z0 (State.canIrq s n i) := Frame.via (frame_canIrq s n i) (Parts.cons in0_ Parts.nil) fr_
theorem frame_setTstat (s : State) (n : Nat) (b : Nat) (v : Nat) : Frame [.regs .can] s (State.setTstat s n b v) := by
  have hs0 := fun ps => Frame.refl ps s
  unfold State.setTstat
  simp (maxDischargeDepth := 80) (contextual := true) [hs0]
@[simp] theorem Frame.after_setTstat {QS : List Part} {z0 s : State} (n : Nat) (b : Nat) (v : Nat) (fr_ : Frame QS z0 s) (in0_ : .regs .can ∈ QS) : Frame QS z0 (State.setTstat s n b v) := Frame.via (frame_setTstat s n b v) (Parts.cons in0_ Parts.nil) fr_
theorem frame_canGo (s : State) (n : Nat) : Frame [.regs .can] s (State.canGo s n) := by
  have hs0 := fun ps => Frame.refl ps s
  unfold State.canGo
  try dsimp only
  repeat'
    first
    | (simp (maxDischargeDepth := 80) (contextual := true) [hs0, *]; done)
    | split
    | (with_reducible refine Frame.after_ite ?_ ?_)
    | (with_reducible refine Frame.after_foldl _ _ (fun _ _ _ => ?_) ?_)
@[simp] theorem Frame.after_canGo {QS : List Part} {z0 s : State} (n : Nat) (fr_ : Frame QS z0 s) (in0_ : .regs .can ∈ QS) : Frame QS z0 (State.canGo s n) := Frame.via (frame_canGo s n) (Parts.cons in0_ Parts.nil) fr_
theorem frame_txRequest (s : State) (n : Nat) (b : Nat) : Frame [.regs .can] s (State.txRequest s n b) := by
  have hs0 := fun ps => Frame.refl ps s
  unfold State.txRequest
  simp (maxDischargeDepth := 80) (contextual := true) [hs0]
@[simp] theorem Frame.after_txRequest {QS : List Part} {z0 s : State} (n : Nat) (b : Nat) (fr_ : Frame QS z0 s) (in0_ : .regs .can ∈ QS) : Frame QS z0 (State.txRequest s n b) := Frame.via (frame_txRequest s n b) (Parts.cons in0_ Parts.nil) fr_
theorem frame_txAbort (s : State) (n : Nat) (b : Nat) : Frame [.regs .can, .cans] s (State.txAbort s n b) := by
  have hs0 := fun ps => Frame.refl ps s
  unfold State.txAbort
  simp (maxDischargeDepth := 80) (contextual := true) [hs0]
@[simp] theorem Frame.after_txAbort {QS : List Part} {z0 s : State} (n : Nat) (b : Nat) (fr_ : Frame QS z0 s) (in0_ : .regs .can ∈ QS) (in1_ : .cans ∈ QS) : Frame QS z0 (State.txAbort s n b) := Frame.via (frame_txAbort s n b) (Parts.cons in0_ (Parts.cons in1_ Parts.nil)) fr_
theorem frame_putRx (s : State) (n : Nat) (f : CanFrame) (flt : Nat) (tick : Nat) : Frame [.regs .can] s (State.putRx s n f flt tick) := by
  have hs0 := fun ps => Frame.refl ps s
  unfold State.putRx
  simp (maxDischargeDepth := 80) (contextual := true) [hs0]
@[simp] theorem Frame.after_putRx {QS : List Part} {z0 s : State} (n : Nat) (f : CanFrame) (flt : Nat) (tick : Nat) (fr_ : Frame QS z0 s) (in0_ : .regs .can ∈ QS) : Frame QS z0 (State.putRx s n f flt tick) := Frame.via (frame_putRx s n f flt tick) (Parts.cons in0_ Parts.nil) fr_
theorem frame_rxRelease (s : State) (n : Nat) : Frame [.regs .can, .cans] s (State.rxRelease s n) := by
  have hs0 := fun ps => Frame.refl ps s
  unfold State.rxRelease
  try dsimp only
  repeat'
    first
    | (simp (maxDischargeDepth := 80) (contextual := true) [hs0, *]; done)
    | split
    | (with_reducible refine Frame.after_ite ?_ ?_)
    | (with_reducible refine Frame.after_foldl _ _ (fun _ _ _ => ?_) ?_)
@[simp] theorem Frame.after_rxRelease {QS : List Part} {z0 s : State} (n : Nat) (fr_ : Frame QS z0 s) (in0_ : .regs .can ∈ QS) (in1_ : .cans ∈ QS) : Frame QS z0 (State.rxRelease s n) := Frame.via (frame_rxRelease s n) (Parts.cons in0_ (Parts.cons in1_ Parts.nil)) fr_
theorem frame_setCanState (s : State) (n : Nat) (st : Nat) : Frame [.regs .can, .mbx .A, .mbx .B] s (State.setCanState s n st) := by
  have hs0 := fun ps => Frame.refl ps s
  unfold State.setCanState
  simp (maxDischargeDepth := 80) (contextual := true) [hs0]
@[simp] theorem Frame.after_setCanState {QS : List Part} {z0 s : State} (n : Nat) (st : Nat) (fr_ : Frame QS z0 s) (in0_ : .regs .can ∈ QS) (in1_ : .mbx .A ∈ QS) (in2_ : .mbx .B ∈ QS) : Frame QS z0 (State.setCanState s n st) := Frame.via (frame_setCanState s n st) (Parts.cons in0_ (Parts.cons in1_ (Parts.cons in2_ Parts.nil))) fr_
theorem frame_boffRec (s : State) (n : Nat) : Frame [.regs .can, .mbx .A, .mbx .B] s (State.boffRec s n) := by
  have hs0 := fun ps => Frame.refl ps s
  unfold State.boffRec
  simp (maxDischargeDepth := 80) (contextual := true) [hs0]
@[simp] theorem Frame.after_boffRec {QS : List Part} {z0 s : State} (n : Nat) (fr_ : Frame QS z0 s) (in0_ : .regs .can ∈ QS) (in1_ : .mbx .A ∈ QS) (in2_ : .mbx .B ∈ QS) : Frame QS z0 (State.boffRec s n) := Frame.via (frame_boffRec s n) (Parts.cons in0_ (Parts.cons in1_ (Parts.cons in2_ Parts.nil))) fr_
theorem frame_abrGo (s : State) (n : Nat) : Frame [.regs .can, .cans] s (State.abrGo s n) := by
  have hs0 := fun ps => Frame.refl ps s
  unfold State.abrGo
  simp (maxDischargeDepth := 80) (contextual := true) [hs0]
@[simp] theorem Frame.after_abrGo {QS : List Part} {z0 s : State} (n : Nat) (fr_ : Frame QS z0 s) (in0_ : .regs .can ∈ QS) (in1_ : .cans ∈ QS) : Frame QS z0 (State.abrGo s n) := Frame.via (frame_abrGo s n) (Parts.cons in0_ (Parts.cons in1_ Parts.nil)) fr_
theorem frame_abrEnd (s : State) (n : Nat) : Frame [.regs .can] s (State.abrEnd s n) := by
  have hs0 := fun ps => Frame.refl ps s
  unfold State.abrEnd
  simp (maxDischargeDepth := 80) (contextual := true) [hs0]
@[simp] theorem Frame.after_abrEnd {QS : List Part} {z0 s : State} (n : Nat) (fr_ : Frame QS z0 s) (in0_ : .regs .can ∈ QS) : Frame QS z0 (State.abrEnd s n) := Frame.via (frame_abrEnd s n) (Parts.cons in0_ Parts.nil) fr_
theorem frame_fwSend (s : State) (n : Nat) (b : Nat) (id : Nat) (fdf : Bool) (dlc : Nat) (d : List Nat) : Frame [.regs .can] s (State.fwSend s n b id fdf dlc d) := by
  have hs0 := fun ps => Frame.refl ps s
  unfold State.fwSend
  simp (maxDischargeDepth := 80) (contextual := true) [hs0]
@[simp] theorem Frame.after_fwSend {QS : List Part} {z0 s : State} (n : Nat) (b : Nat) (id : Nat) (fdf : Bool) (dlc : Nat) (d : List Nat) (fr_ : Frame QS z0 s) (in0_ : .regs .can ∈ QS) : Frame QS z0 (State.fwSend s n b id fdf dlc d) := Frame.via (frame_fwSend s n b id fdf dlc d) (Parts.cons in0_ Parts.nil) fr_
theorem frame_setFilters (s : State) (n : Nat) : Frame [.regs .can] s (State.setFilters s n) := by
  have hs0 := fun ps => Frame.refl ps s
  unfold State.setFilters
  simp (maxDischargeDepth := 80) (contextual := true) [hs0]
@[simp] theorem Frame.after_setFilters {QS : List Part} {z0 s : State} (n : Nat) (fr_ : Frame QS z0 s) (in0_ : .regs .can ∈ QS) : Frame QS z0 (State.setFilters s n) := Frame.via (frame_setFilters s n) (Parts.cons in0_ Parts.nil) fr_
@[simp] theorem Frame.after_gated {QS : List Part} {z s : State} (h : Half) (f : State → State) (fr_ : Frame QS z s) (in0_ : .mbx .A ∈ QS) (in1_ : .mbx .B ∈ QS) (in2_ : .regs .loc ∈ QS)
    (hb_ : ∀ s, Frame QS z s → Frame QS z (f s)) : Frame QS z (s.gated h f) := by
  unfold State.gated; (repeat' split) <;> first | exact hb_ _ fr_ | (simp [*]; done)
@[simp] theorem Frame.after_canWrite {QS : List Part} {z s : State} (h : Half) (n : Nat) (fr : Bool) (f : State → State) (fr_ : Frame QS z s) (in0_ : .mbx .A ∈ QS) (in1_ : .mbx .B ∈ QS) (in2_ : .regs .loc ∈ QS)
    (hb_ : ∀ s, Frame QS z s → Frame QS z (f s)) : Frame QS z (s.canWrite h n fr f) := by
  unfold State.canWrite
  refine Frame.after_gated _ _ fr_ in0_ in1_ in2_ (fun s hs => ?_)
  split
  · simp [*]
  · exact hb_ _ hs

end Sys2Proof.Machine
end

