-- ==== Sys2Proof/Laws/FrameFrames.lean ====
section
/-!
SUPPORT. Which parts of the state each operation of Machine/Frames.lean may change, and the same as one more step of a framed run.
-/

namespace Sys2Proof.Machine

set_option maxRecDepth 4000

theorem frame_lateFrame (s : State) (h : Half) (p : Nat) : Frame [.regs .tck, .regs .nlk, .twn .A, .twn .B, .mbx .A, .mbx .B] s (State.lateFrame s h p) := by
  have hs0 := fun ps => Frame.refl ps s
  unfold State.lateFrame
  simp (maxDischargeDepth := 80) (contextual := true) [hs0]
@[simp] theorem Frame.after_lateFrame {QS : List Part} {z0 s : State} (h : Half) (p : Nat) (fr_ : Frame QS z0 s) (in0_ : .regs .tck ∈ QS) (in1_ : .regs .nlk ∈ QS) (in2_ : .twn .A ∈ QS) (in3_ : .twn .B ∈ QS) (in4_ : .mbx .A ∈ QS) (in5_ : .mbx .B ∈ QS) : Frame QS z0 (State.lateFrame s h p) := Frame.via (frame_lateFrame s h p) (Parts.cons in0_ (Parts.cons in1_ (Parts.cons in2_ (Parts.cons in3_ (Parts.cons in4_ (Parts.cons in5_ Parts.nil)))))) fr_
theorem frame_takeEcho (s : State) (h : Half) (claim : Nat) : Frame [.regs .twn, .blocks, .twn .A, .twn .B, .cln .A, .cln .B, .mbx .A, .mbx .B] s (State.takeEcho s h claim) := by
  have hs0 := fun ps => Frame.refl ps s
  unfold State.takeEcho
  simp (maxDischargeDepth := 80) (contextual := true) [hs0]
@[simp] theorem Frame.after_takeEcho {QS : List Part} {z0 s : State} (h : Half) (claim : Nat) (fr_ : Frame QS z0 s) (in0_ : .regs .twn ∈ QS) (in1_ : .blocks ∈ QS) (in2_ : .twn .A ∈ QS) (in3_ : .twn .B ∈ QS) (in4_ : .cln .A ∈ QS) (in5_ : .cln .B ∈ QS) (in6_ : .mbx .A ∈ QS) (in7_ : .mbx .B ∈ QS) : Frame QS z0 (State.takeEcho s h claim) := Frame.via (frame_takeEcho s h claim) (Parts.cons in0_ (Parts.cons in1_ (Parts.cons in2_ (Parts.cons in3_ (Parts.cons in4_ (Parts.cons in5_ (Parts.cons in6_ (Parts.cons in7_ Parts.nil)))))))) fr_
theorem frame_forwardMeter (s : State) (h : Half) (k : Nat) (b : List Nat) : Frame [.met] s (State.forwardMeter s h k b) := by
  have hs0 := fun ps => Frame.refl ps s
  unfold State.forwardMeter
  simp (maxDischargeDepth := 80) (contextual := true) [hs0]
@[simp] theorem Frame.after_forwardMeter {QS : List Part} {z0 s : State} (h : Half) (k : Nat) (b : List Nat) (fr_ : Frame QS z0 s) (in0_ : .met ∈ QS) : Frame QS z0 (State.forwardMeter s h k b) := Frame.via (frame_forwardMeter s h k b) (Parts.cons in0_ Parts.nil) fr_
theorem frame_forwardHarv (s : State) (p : Nat) (b : List Nat) : Frame [.saf] s (State.forwardHarv s p b) := by
  have hs0 := fun ps => Frame.refl ps s
  unfold State.forwardHarv
  simp (maxDischargeDepth := 80) (contextual := true) [hs0]
@[simp] theorem Frame.after_forwardHarv {QS : List Part} {z0 s : State} (p : Nat) (b : List Nat) (fr_ : Frame QS z0 s) (in0_ : .saf ∈ QS) : Frame QS z0 (State.forwardHarv s p b) := Frame.via (frame_forwardHarv s p b) (Parts.cons in0_ Parts.nil) fr_
theorem frame_takeFrame (s : State) (h : Half) (p : Nat) (ty : Nat) (b : List Nat) (auth : Bool) : Frame [.regs .twn, .blocks, .ports .A, .ports .B, .twn .A, .twn .B, .cln .A, .cln .B, .mbx .A, .mbx .B, .met, .saf] s (State.takeFrame s h p ty b auth) := by
  have hs0 := fun ps => Frame.refl ps s
  unfold State.takeFrame
  simp (maxDischargeDepth := 80) (contextual := true) [hs0]
@[simp] theorem Frame.after_takeFrame {QS : List Part} {z0 s : State} (h : Half) (p : Nat) (ty : Nat) (b : List Nat) (auth : Bool) (fr_ : Frame QS z0 s) (in0_ : .regs .twn ∈ QS) (in1_ : .blocks ∈ QS) (in2_ : .ports .A ∈ QS) (in3_ : .ports .B ∈ QS) (in4_ : .twn .A ∈ QS) (in5_ : .twn .B ∈ QS) (in6_ : .cln .A ∈ QS) (in7_ : .cln .B ∈ QS) (in8_ : .mbx .A ∈ QS) (in9_ : .mbx .B ∈ QS) (in10_ : .met ∈ QS) (in11_ : .saf ∈ QS) : Frame QS z0 (State.takeFrame s h p ty b auth) := Frame.via (frame_takeFrame s h p ty b auth) (Parts.cons in0_ (Parts.cons in1_ (Parts.cons in2_ (Parts.cons in3_ (Parts.cons in4_ (Parts.cons in5_ (Parts.cons in6_ (Parts.cons in7_ (Parts.cons in8_ (Parts.cons in9_ (Parts.cons in10_ (Parts.cons in11_ Parts.nil)))))))))))) fr_

end Sys2Proof.Machine
end

