-- ==== Sys2Proof/Laws/FrameIsland.lean ====
section
/-!
SUPPORT. Which parts of the state each operation of Machine/Island.lean may change, and the same as one more step of a framed run.
-/

namespace Sys2Proof.Machine

set_option maxRecDepth 4000

theorem frame_mSaf (s : State) (f : SafS → SafS) : Frame [.saf] s (State.mSaf s f) := by
  have hs0 := fun ps => Frame.refl ps s
  unfold State.mSaf
  simp (maxDischargeDepth := 80) (contextual := true) [hs0]
@[simp] theorem Frame.after_mSaf {QS : List Part} {z0 s : State} (f : SafS → SafS) (fr_ : Frame QS z0 s) (in0_ : .saf ∈ QS) : Frame QS z0 (State.mSaf s f) := Frame.via (frame_mSaf s f) (Parts.cons in0_ Parts.nil) fr_
theorem frame_mZone (s : State) (z : Nat) (f : ZoneS → ZoneS) : Frame [.saf] s (State.mZone s z f) := by
  have hs0 := fun ps => Frame.refl ps s
  unfold State.mZone
  simp (maxDischargeDepth := 80) (contextual := true) [hs0]
@[simp] theorem Frame.after_mZone {QS : List Part} {z0 s : State} (z : Nat) (f : ZoneS → ZoneS) (fr_ : Frame QS z0 s) (in0_ : .saf ∈ QS) : Frame QS z0 (State.mZone s z f) := Frame.via (frame_mZone s z f) (Parts.cons in0_ Parts.nil) fr_
theorem frame_mIn (s : State) (n : Nat) (f : InPair → InPair) : Frame [.saf] s (State.mIn s n f) := by
  have hs0 := fun ps => Frame.refl ps s
  unfold State.mIn
  simp (maxDischargeDepth := 80) (contextual := true) [hs0]
@[simp] theorem Frame.after_mIn {QS : List Part} {z0 s : State} (n : Nat) (f : InPair → InPair) (fr_ : Frame QS z0 s) (in0_ : .saf ∈ QS) : Frame QS z0 (State.mIn s n f) := Frame.via (frame_mIn s n f) (Parts.cons in0_ Parts.nil) fr_
theorem frame_mOutPair (s : State) (n : Nat) (f : OutPair → OutPair) : Frame [.saf] s (State.mOutPair s n f) := by
  have hs0 := fun ps => Frame.refl ps s
  unfold State.mOutPair
  simp (maxDischargeDepth := 80) (contextual := true) [hs0]
@[simp] theorem Frame.after_mOutPair {QS : List Part} {z0 s : State} (n : Nat) (f : OutPair → OutPair) (fr_ : Frame QS z0 s) (in0_ : .saf ∈ QS) : Frame QS z0 (State.mOutPair s n f) := Frame.via (frame_mOutPair s n f) (Parts.cons in0_ Parts.nil) fr_
theorem frame_mConn (s : State) (n : Nat) (f : ConnS → ConnS) : Frame [.saf] s (State.mConn s n f) := by
  have hs0 := fun ps => Frame.refl ps s
  unfold State.mConn
  simp (maxDischargeDepth := 80) (contextual := true) [hs0]
@[simp] theorem Frame.after_mConn {QS : List Part} {z0 s : State} (n : Nat) (f : ConnS → ConnS) (fr_ : Frame QS z0 s) (in0_ : .saf ∈ QS) : Frame QS z0 (State.mConn s n f) := Frame.via (frame_mConn s n f) (Parts.cons in0_ Parts.nil) fr_
theorem frame_safBit (s : State) (i : Nat) : Frame [.regs .saf] s (State.safBit s i) := by
  have hs0 := fun ps => Frame.refl ps s
  unfold State.safBit
  simp (maxDischargeDepth := 80) (contextual := true) [hs0]
@[simp] theorem Frame.after_safBit {QS : List Part} {z0 s : State} (i : Nat) (fr_ : Frame QS z0 s) (in0_ : .regs .saf ∈ QS) : Frame QS z0 (State.safBit s i) := Frame.via (frame_safBit s i) (Parts.cons in0_ Parts.nil) fr_
theorem frame_setZone (s : State) (z : Nat) (st : Nat) (cause : Nat) (detail : Nat) : Frame [.free, .mbx .A, .mbx .B, .saf] s (State.setZone s z st cause detail) := by
  have hs0 := fun ps => Frame.refl ps s
  unfold State.setZone
  simp (maxDischargeDepth := 80) (contextual := true) [hs0]
@[simp] theorem Frame.after_setZone {QS : List Part} {z0 s : State} (z : Nat) (st : Nat) (cause : Nat) (detail : Nat) (fr_ : Frame QS z0 s) (in0_ : .free ∈ QS) (in1_ : .mbx .A ∈ QS) (in2_ : .mbx .B ∈ QS) (in3_ : .saf ∈ QS) : Frame QS z0 (State.setZone s z st cause detail) := Frame.via (frame_setZone s z st cause detail) (Parts.cons in0_ (Parts.cons in1_ (Parts.cons in2_ (Parts.cons in3_ Parts.nil)))) fr_
theorem frame_pairOff (s : State) (n : Nat) : Frame [.saf] s (State.pairOff s n) := by
  have hs0 := fun ps => Frame.refl ps s
  unfold State.pairOff
  simp (maxDischargeDepth := 80) (contextual := true) [hs0]
@[simp] theorem Frame.after_pairOff {QS : List Part} {z0 s : State} (n : Nat) (fr_ : Frame QS z0 s) (in0_ : .saf ∈ QS) : Frame QS z0 (State.pairOff s n) := Frame.via (frame_pairOff s n) (Parts.cons in0_ Parts.nil) fr_
theorem frame_faultZone (s : State) (z : Nat) (cause : Nat) (src : Nat) : Frame [.free, .mbx .A, .mbx .B, .saf] s (State.faultZone s z cause src) := by
  have hs0 := fun ps => Frame.refl ps s
  unfold State.faultZone
  simp (maxDischargeDepth := 80) (contextual := true) [hs0]
@[simp] theorem Frame.after_faultZone {QS : List Part} {z0 s : State} (z : Nat) (cause : Nat) (src : Nat) (fr_ : Frame QS z0 s) (in0_ : .free ∈ QS) (in1_ : .mbx .A ∈ QS) (in2_ : .mbx .B ∈ QS) (in3_ : .saf ∈ QS) : Frame QS z0 (State.faultZone s z cause src) := Frame.via (frame_faultZone s z cause src) (Parts.cons in0_ (Parts.cons in1_ (Parts.cons in2_ (Parts.cons in3_ Parts.nil)))) fr_
theorem frame_removeZone (s : State) (z : Nat) (cause : Nat) (detail : Nat) : Frame [.free, .mbx .A, .mbx .B, .saf] s (State.removeZone s z cause detail) := by
  have hs0 := fun ps => Frame.refl ps s
  unfold State.removeZone
  simp (maxDischargeDepth := 80) (contextual := true) [hs0]
@[simp] theorem Frame.after_removeZone {QS : List Part} {z0 s : State} (z : Nat) (cause : Nat) (detail : Nat) (fr_ : Frame QS z0 s) (in0_ : .free ∈ QS) (in1_ : .mbx .A ∈ QS) (in2_ : .mbx .B ∈ QS) (in3_ : .saf ∈ QS) : Frame QS z0 (State.removeZone s z cause detail) := Frame.via (frame_removeZone s z cause detail) (Parts.cons in0_ (Parts.cons in1_ (Parts.cons in2_ (Parts.cons in3_ Parts.nil)))) fr_
theorem frame_demandZone (s : State) (z : Nat) (cause : Nat) (detail : Nat) : Frame [.free, .mbx .A, .mbx .B, .saf] s (State.demandZone s z cause detail) := by
  have hs0 := fun ps => Frame.refl ps s
  unfold State.demandZone
  simp (maxDischargeDepth := 80) (contextual := true) [hs0]
@[simp] theorem Frame.after_demandZone {QS : List Part} {z0 s : State} (z : Nat) (cause : Nat) (detail : Nat) (fr_ : Frame QS z0 s) (in0_ : .free ∈ QS) (in1_ : .mbx .A ∈ QS) (in2_ : .mbx .B ∈ QS) (in3_ : .saf ∈ QS) : Frame QS z0 (State.demandZone s z cause detail) := Frame.via (frame_demandZone s z cause detail) (Parts.cons in0_ (Parts.cons in1_ (Parts.cons in2_ (Parts.cons in3_ Parts.nil)))) fr_
theorem frame_demandZones (s : State) (mask : Nat) (cause : Nat) (detail : Nat) : Frame [.free, .mbx .A, .mbx .B, .saf] s (State.demandZones s mask cause detail) := by
  have hs0 := fun ps => Frame.refl ps s
  unfold State.demandZones
  simp (maxDischargeDepth := 80) (contextual := true) [hs0]
@[simp] theorem Frame.after_demandZones {QS : List Part} {z0 s : State} (mask : Nat) (cause : Nat) (detail : Nat) (fr_ : Frame QS z0 s) (in0_ : .free ∈ QS) (in1_ : .mbx .A ∈ QS) (in2_ : .mbx .B ∈ QS) (in3_ : .saf ∈ QS) : Frame QS z0 (State.demandZones s mask cause detail) := Frame.via (frame_demandZones s mask cause detail) (Parts.cons in0_ (Parts.cons in1_ (Parts.cons in2_ (Parts.cons in3_ Parts.nil)))) fr_
theorem frame_faultZones (s : State) (zs : List Nat) (cause : Nat) (src : Nat) : Frame [.free, .mbx .A, .mbx .B, .saf] s (State.faultZones s zs cause src) := by
  have hs0 := fun ps => Frame.refl ps s
  unfold State.faultZones
  simp (maxDischargeDepth := 80) (contextual := true) [hs0]
@[simp] theorem Frame.after_faultZones {QS : List Part} {z0 s : State} (zs : List Nat) (cause : Nat) (src : Nat) (fr_ : Frame QS z0 s) (in0_ : .free ∈ QS) (in1_ : .mbx .A ∈ QS) (in2_ : .mbx .B ∈ QS) (in3_ : .saf ∈ QS) : Frame QS z0 (State.faultZones s zs cause src) := Frame.via (frame_faultZones s zs cause src) (Parts.cons in0_ (Parts.cons in1_ (Parts.cons in2_ (Parts.cons in3_ Parts.nil)))) fr_
theorem frame_weldZones (s : State) (zs : List Nat) (src : Nat) : Frame [.free, .regs .saf, .mbx .A, .mbx .B, .saf] s (State.weldZones s zs src) := by
  have hs0 := fun ps => Frame.refl ps s
  unfold State.weldZones
  simp (maxDischargeDepth := 80) (contextual := true) [hs0]
@[simp] theorem Frame.after_weldZones {QS : List Part} {z0 s : State} (zs : List Nat) (src : Nat) (fr_ : Frame QS z0 s) (in0_ : .free ∈ QS) (in1_ : .regs .saf ∈ QS) (in2_ : .mbx .A ∈ QS) (in3_ : .mbx .B ∈ QS) (in4_ : .saf ∈ QS) : Frame QS z0 (State.weldZones s zs src) := Frame.via (frame_weldZones s zs src) (Parts.cons in0_ (Parts.cons in1_ (Parts.cons in2_ (Parts.cons in3_ (Parts.cons in4_ Parts.nil))))) fr_
theorem frame_energize (s : State) : Frame [.free, .regs .saf, .mbx .A, .mbx .B, .saf] s (State.energize s) := by
  have hs0 := fun ps => Frame.refl ps s
  unfold State.energize
  simp (maxDischargeDepth := 80) (contextual := true) [hs0]
@[simp] theorem Frame.after_energize {QS : List Part} {z0 s : State} (fr_ : Frame QS z0 s) (in0_ : .free ∈ QS) (in1_ : .regs .saf ∈ QS) (in2_ : .mbx .A ∈ QS) (in3_ : .mbx .B ∈ QS) (in4_ : .saf ∈ QS) : Frame QS z0 (State.energize s) := Frame.via (frame_energize s) (Parts.cons in0_ (Parts.cons in1_ (Parts.cons in2_ (Parts.cons in3_ (Parts.cons in4_ Parts.nil))))) fr_
theorem frame_samplePair (a : Nat) (b : Nat) (s : State) (n : Nat) : Frame [.free, .mbx .A, .mbx .B, .saf] s (samplePair a b s n) := by
  have hs0 := fun ps => Frame.refl ps s
  unfold samplePair
  simp (maxDischargeDepth := 80) (contextual := true) [hs0]
@[simp] theorem Frame.after_samplePair {QS : List Part} (a : Nat) (b : Nat) {z0 s : State} (n : Nat) (fr_ : Frame QS z0 s) (in0_ : .free ∈ QS) (in1_ : .mbx .A ∈ QS) (in2_ : .mbx .B ∈ QS) (in3_ : .saf ∈ QS) : Frame QS z0 (samplePair a b s n) := Frame.via (frame_samplePair a b s n) (Parts.cons in0_ (Parts.cons in1_ (Parts.cons in2_ (Parts.cons in3_ Parts.nil)))) fr_
theorem frame_islandStart (s : State) : Frame [.regs .saf, .saf, .upd] s (State.islandStart s) := by
  have hs0 := fun ps => Frame.refl ps s
  unfold State.islandStart
  simp (maxDischargeDepth := 80) (contextual := true) [hs0]
@[simp] theorem Frame.after_islandStart {QS : List Part} {z0 s : State} (fr_ : Frame QS z0 s) (in0_ : .regs .saf ∈ QS) (in1_ : .saf ∈ QS) (in2_ : .upd ∈ QS) : Frame QS z0 (State.islandStart s) := Frame.via (frame_islandStart s) (Parts.cons in0_ (Parts.cons in1_ (Parts.cons in2_ Parts.nil))) fr_
theorem frame_forcePoles (s : State) : Frame [.free, .regs .saf, .mbx .A, .mbx .B, .saf] s (State.forcePoles s) := by
  have hs0 := fun ps => Frame.refl ps s
  unfold State.forcePoles
  simp (maxDischargeDepth := 80) (contextual := true) [hs0]
@[simp] theorem Frame.after_forcePoles {QS : List Part} {z0 s : State} (fr_ : Frame QS z0 s) (in0_ : .free ∈ QS) (in1_ : .regs .saf ∈ QS) (in2_ : .mbx .A ∈ QS) (in3_ : .mbx .B ∈ QS) (in4_ : .saf ∈ QS) : Frame QS z0 (State.forcePoles s) := Frame.via (frame_forcePoles s) (Parts.cons in0_ (Parts.cons in1_ (Parts.cons in2_ (Parts.cons in3_ (Parts.cons in4_ Parts.nil))))) fr_
theorem frame_sendPdu (s : State) (n : Nat) (ext : Bool) : Frame [.saf] s (State.sendPdu s n ext) := by
  have hs0 := fun ps => Frame.refl ps s
  unfold State.sendPdu
  simp (maxDischargeDepth := 80) (contextual := true) [hs0]
@[simp] theorem Frame.after_sendPdu {QS : List Part} {z0 s : State} (n : Nat) (ext : Bool) (fr_ : Frame QS z0 s) (in0_ : .saf ∈ QS) : Frame QS z0 (State.sendPdu s n ext) := Frame.via (frame_sendPdu s n ext) (Parts.cons in0_ Parts.nil) fr_
theorem frame_envelopeTick (s : State) (z : Nat) : Frame [.saf] s (envelopeTick s z) := by
  have hs0 := fun ps => Frame.refl ps s
  unfold envelopeTick
  simp (maxDischargeDepth := 80) (contextual := true) [hs0]
@[simp] theorem Frame.after_envelopeTick {QS : List Part} {z0 s : State} (z : Nat) (fr_ : Frame QS z0 s) (in0_ : .saf ∈ QS) : Frame QS z0 (envelopeTick s z) := Frame.via (frame_envelopeTick s z) (Parts.cons in0_ Parts.nil) fr_
theorem frame_takePoleFb (s : State) (c : Nat) (data : List Nat) : Frame [.saf] s (State.takePoleFb s c data) := by
  have hs0 := fun ps => Frame.refl ps s
  unfold State.takePoleFb
  simp (maxDischargeDepth := 80) (contextual := true) [hs0]
@[simp] theorem Frame.after_takePoleFb {QS : List Part} {z0 s : State} (c : Nat) (data : List Nat) (fr_ : Frame QS z0 s) (in0_ : .saf ∈ QS) : Frame QS z0 (State.takePoleFb s c data) := Frame.via (frame_takePoleFb s c data) (Parts.cons in0_ Parts.nil) fr_
theorem frame_lowSample (n : Nat) (a : Nat) (s : State) (z : Nat) : Frame [.saf] s (lowSample n a s z) := by
  have hs0 := fun ps => Frame.refl ps s
  unfold lowSample
  simp (maxDischargeDepth := 80) (contextual := true) [hs0]
@[simp] theorem Frame.after_lowSample {QS : List Part} (n : Nat) (a : Nat) {z0 s : State} (z : Nat) (fr_ : Frame QS z0 s) (in0_ : .saf ∈ QS) : Frame QS z0 (lowSample n a s z) := Frame.via (frame_lowSample n a s z) (Parts.cons in0_ Parts.nil) fr_
theorem frame_takePdu (s : State) (n : Nat) (b : List Nat) : Frame [.free, .mbx .A, .mbx .B, .saf] s (State.takePdu s n b) := by
  have hs0 := fun ps => Frame.refl ps s
  unfold State.takePdu
  simp (maxDischargeDepth := 80) (contextual := true) [hs0]
@[simp] theorem Frame.after_takePdu {QS : List Part} {z0 s : State} (n : Nat) (b : List Nat) (fr_ : Frame QS z0 s) (in0_ : .free ∈ QS) (in1_ : .mbx .A ∈ QS) (in2_ : .mbx .B ∈ QS) (in3_ : .saf ∈ QS) : Frame QS z0 (State.takePdu s n b) := Frame.via (frame_takePdu s n b) (Parts.cons in0_ (Parts.cons in1_ (Parts.cons in2_ (Parts.cons in3_ Parts.nil)))) fr_
theorem frame_takeForwarded (s : State) (n : Nat) : Frame [.free, .mbx .A, .mbx .B, .saf] s (State.takeForwarded s n) := by
  have hs0 := fun ps => Frame.refl ps s
  unfold State.takeForwarded
  try dsimp only
  repeat'
    first
    | (simp (maxDischargeDepth := 80) (contextual := true) [hs0, *]; done)
    | split
    | (with_reducible refine Frame.after_ite ?_ ?_)
    | (with_reducible refine Frame.after_foldl _ _ (fun _ _ _ => ?_) ?_)
@[simp] theorem Frame.after_takeForwarded {QS : List Part} {z0 s : State} (n : Nat) (fr_ : Frame QS z0 s) (in0_ : .free ∈ QS) (in1_ : .mbx .A ∈ QS) (in2_ : .mbx .B ∈ QS) (in3_ : .saf ∈ QS) : Frame QS z0 (State.takeForwarded s n) := Frame.via (frame_takeForwarded s n) (Parts.cons in0_ (Parts.cons in1_ (Parts.cons in2_ (Parts.cons in3_ Parts.nil)))) fr_
theorem frame_clearFault (s : State) (z : Nat) : Frame [.free, .mbx .A, .mbx .B, .saf] s (State.clearFault s z) := by
  have hs0 := fun ps => Frame.refl ps s
  unfold State.clearFault
  dsimp only
  refine Frame.after_mZone _ _ (Frame.after_setZone _ _ _ _ ?_ ?_ ?_ ?_ ?_) ?_
  · refine Frame.after_foldl _ _ (fun u e hu => ?_) (hs0 _)
    try dsimp only
    repeat'
      first
      | (simp (maxDischargeDepth := 80) (contextual := true) [hs0, *]; done)
      | split
      | (with_reducible refine Frame.after_ite ?_ ?_)
      | (with_reducible refine Frame.after_foldl _ _ (fun _ _ _ => ?_) ?_)
  all_goals simp
@[simp] theorem Frame.after_clearFault {QS : List Part} {z0 s : State} (z : Nat) (fr_ : Frame QS z0 s) (in0_ : .free ∈ QS) (in1_ : .mbx .A ∈ QS) (in2_ : .mbx .B ∈ QS) (in3_ : .saf ∈ QS) : Frame QS z0 (State.clearFault s z) := Frame.via (frame_clearFault s z) (Parts.cons in0_ (Parts.cons in1_ (Parts.cons in2_ (Parts.cons in3_ Parts.nil)))) fr_

end Sys2Proof.Machine
end

