-- ==== Sys2Proof/Laws/FrameLoops.lean ====
section
/-!
SUPPORT. Which parts of the state each operation of Machine/Loops.lean may change, and the same as one more step of a framed run.
-/

namespace Sys2Proof.Machine

set_option maxRecDepth 4000

theorem frame_mLoop (s : State) (h : Half) (l : Nat) (b : Nat) (f : LoopB → LoopB) : Frame [.cln .A, .cln .B] s (State.mLoop s h l b f) := by
  have hs0 := fun ps => Frame.refl ps s
  unfold State.mLoop
  simp (maxDischargeDepth := 80) (contextual := true) [hs0]
@[simp] theorem Frame.after_mLoop {QS : List Part} {z0 s : State} (h : Half) (l : Nat) (b : Nat) (f : LoopB → LoopB) (fr_ : Frame QS z0 s) (in0_ : .cln .A ∈ QS) (in1_ : .cln .B ∈ QS) : Frame QS z0 (State.mLoop s h l b f) := Frame.via (frame_mLoop s h l b f) (Parts.cons in0_ (Parts.cons in1_ Parts.nil)) fr_
theorem frame_runBlock (h : Half) (l : Nat) (first : Bool) (s : State) (b : Nat) : Frame [.free, .cln .A, .cln .B] s (runBlock h l first s b) := by
  have hs0 := fun ps => Frame.refl ps s
  unfold runBlock
  simp (maxDischargeDepth := 80) (contextual := true) [hs0]
@[simp] theorem Frame.after_runBlock {QS : List Part} (h : Half) (l : Nat) (first : Bool) {z0 s : State} (b : Nat) (fr_ : Frame QS z0 s) (in0_ : .free ∈ QS) (in1_ : .cln .A ∈ QS) (in2_ : .cln .B ∈ QS) : Frame QS z0 (runBlock h l first s b) := Frame.via (frame_runBlock h l first s b) (Parts.cons in0_ (Parts.cons in1_ (Parts.cons in2_ Parts.nil))) fr_
theorem frame_loopWrite (s : State) (l : Nat) (n : Nat) (v : Nat) : Frame [.shadow, .cln .A, .cln .B] s (State.loopWrite s l n v) := by
  have hs0 := fun ps => Frame.refl ps s
  unfold State.loopWrite
  try dsimp only
  repeat'
    first
    | (simp (maxDischargeDepth := 80) (contextual := true) [hs0, *]; done)
    | split
    | (with_reducible refine Frame.after_ite ?_ ?_)
    | (with_reducible refine Frame.after_foldl _ _ (fun _ _ _ => ?_) ?_)
@[simp] theorem Frame.after_loopWrite {QS : List Part} {z0 s : State} (l : Nat) (n : Nat) (v : Nat) (fr_ : Frame QS z0 s) (in0_ : .shadow ∈ QS) (in1_ : .cln .A ∈ QS) (in2_ : .cln .B ∈ QS) : Frame QS z0 (State.loopWrite s l n v) := Frame.via (frame_loopWrite s l n v) (Parts.cons in0_ (Parts.cons in1_ (Parts.cons in2_ Parts.nil))) fr_
theorem frame_loopAccept (s : State) (o : Org) (x : Half) (role : Nat) (opc : Nat) (lane : Nat) (blk : Nat) (seq : Nat) (payload : List Nat) : Frame [.blocks, .cln .A, .cln .B, .mbx .A, .mbx .B] s (State.loopAccept s o x role opc lane blk seq payload) := by
  have hs0 := fun ps => Frame.refl ps s
  unfold State.loopAccept
  simp (maxDischargeDepth := 80) (contextual := true) [hs0]
@[simp] theorem Frame.after_loopAccept {QS : List Part} {z0 s : State} (o : Org) (x : Half) (role : Nat) (opc : Nat) (lane : Nat) (blk : Nat) (seq : Nat) (payload : List Nat) (fr_ : Frame QS z0 s) (in0_ : .blocks ∈ QS) (in1_ : .cln .A ∈ QS) (in2_ : .cln .B ∈ QS) (in3_ : .mbx .A ∈ QS) (in4_ : .mbx .B ∈ QS) : Frame QS z0 (State.loopAccept s o x role opc lane blk seq payload) := Frame.via (frame_loopAccept s o x role opc lane blk seq payload) (Parts.cons in0_ (Parts.cons in1_ (Parts.cons in2_ (Parts.cons in3_ (Parts.cons in4_ Parts.nil))))) fr_
theorem frame_loopWrite32 (s : State) (l : Nat) (n : Nat) (v : Nat) : Frame [.shadow, .cln .A, .cln .B] s (State.loopWrite32 s l n v) := by
  have hs0 := fun ps => Frame.refl ps s
  unfold State.loopWrite32
  simp (maxDischargeDepth := 80) (contextual := true) [hs0]
@[simp] theorem Frame.after_loopWrite32 {QS : List Part} {z0 s : State} (l : Nat) (n : Nat) (v : Nat) (fr_ : Frame QS z0 s) (in0_ : .shadow ∈ QS) (in1_ : .cln .A ∈ QS) (in2_ : .cln .B ∈ QS) : Frame QS z0 (State.loopWrite32 s l n v) := Frame.via (frame_loopWrite32 s l n v) (Parts.cons in0_ (Parts.cons in1_ (Parts.cons in2_ Parts.nil))) fr_

end Sys2Proof.Machine
end

