-- ==== Sys2Proof/Laws/FramePowerStages.lean ====
section
/-!
SUPPORT. Which parts of the state each operation of Machine/PowerStages.lean may change, and the same as one more step of a framed run.
-/

namespace Sys2Proof.Machine

set_option maxRecDepth 4000

theorem frame_mSeq (s : State) (h : Half) (c : Nat) (f : SeqS → SeqS) : Frame [.pst .A, .pst .B] s (State.mSeq s h c f) := by
  have hs0 := fun ps => Frame.refl ps s
  unfold State.mSeq
  simp (maxDischargeDepth := 80) (contextual := true) [hs0]
@[simp] theorem Frame.after_mSeq {QS : List Part} {z0 s : State} (h : Half) (c : Nat) (f : SeqS → SeqS) (fr_ : Frame QS z0 s) (in0_ : .pst .A ∈ QS) (in1_ : .pst .B ∈ QS) : Frame QS z0 (State.mSeq s h c f) := Frame.via (frame_mSeq s h c f) (Parts.cons in0_ (Parts.cons in1_ Parts.nil)) fr_
theorem frame_setSeqG (s : State) (h : Half) (c : Nat) (g : Nat) (v : SeqG) : Frame [.pst .A, .pst .B] s (State.setSeqG s h c g v) := by
  have hs0 := fun ps => Frame.refl ps s
  unfold State.setSeqG
  simp (maxDischargeDepth := 80) (contextual := true) [hs0]
@[simp] theorem Frame.after_setSeqG {QS : List Part} {z0 s : State} (h : Half) (c : Nat) (g : Nat) (v : SeqG) (fr_ : Frame QS z0 s) (in0_ : .pst .A ∈ QS) (in1_ : .pst .B ∈ QS) : Frame QS z0 (State.setSeqG s h c g v) := Frame.via (frame_setSeqG s h c g v) (Parts.cons in0_ (Parts.cons in1_ Parts.nil)) fr_
theorem frame_markPhases (s : State) (h : Half) (c : Nat) (l : List Nat) : Frame [.regs .pst] s (markPhases s h c l) := by
  have hs0 := fun ps => Frame.refl ps s
  unfold markPhases
  simp (maxDischargeDepth := 80) (contextual := true) [hs0]
@[simp] theorem Frame.after_markPhases {QS : List Part} {z0 s : State} (h : Half) (c : Nat) (l : List Nat) (fr_ : Frame QS z0 s) (in0_ : .regs .pst ∈ QS) : Frame QS z0 (markPhases s h c l) := Frame.via (frame_markPhases s h c l) (Parts.cons in0_ Parts.nil) fr_
theorem frame_storeSeqG (s : State) (h : Half) (c : Nat) (g : Nat) (hicN : Nat) (old : SeqG) (new : SeqG) : Frame [.regs .pst, .pst .A, .pst .B, .mbx .A, .mbx .B] s (State.storeSeqG s h c g hicN old new) := by
  have hs0 := fun ps => Frame.refl ps s
  unfold State.storeSeqG
  simp (maxDischargeDepth := 80) (contextual := true) [hs0]
@[simp] theorem Frame.after_storeSeqG {QS : List Part} {z0 s : State} (h : Half) (c : Nat) (g : Nat) (hicN : Nat) (old : SeqG) (new : SeqG) (fr_ : Frame QS z0 s) (in0_ : .regs .pst ∈ QS) (in1_ : .pst .A ∈ QS) (in2_ : .pst .B ∈ QS) (in3_ : .mbx .A ∈ QS) (in4_ : .mbx .B ∈ QS) : Frame QS z0 (State.storeSeqG s h c g hicN old new) := Frame.via (frame_storeSeqG s h c g hicN old new) (Parts.cons in0_ (Parts.cons in1_ (Parts.cons in2_ (Parts.cons in3_ (Parts.cons in4_ Parts.nil))))) fr_
theorem frame_runGroup (h : Half) (c : Nat) (first : Bool) (acc : State × List (Nat × Nat)) (g : Nat) : Frame [.regs .pst, .pst .A, .pst .B, .mbx .A, .mbx .B] acc.1 (runGroup h c first acc g).1 := by
  obtain ⟨s, l⟩ := acc
  have hs0 := fun ps => Frame.refl ps s
  unfold runGroup
  try dsimp only
  repeat'
    first
    | (simp (maxDischargeDepth := 80) (contextual := true) [hs0, *]; done)
    | split
    | (with_reducible refine Frame.after_ite ?_ ?_)
    | (with_reducible refine Frame.after_foldl _ _ (fun _ _ _ => ?_) ?_)
@[simp] theorem Frame.after_runGroup {QS : List Part} {z0 : State} (h : Half) (c : Nat) (first : Bool) (acc : State × List (Nat × Nat)) (g : Nat) (fr_ : Frame QS z0 acc.1) (in0_ : .regs .pst ∈ QS) (in1_ : .pst .A ∈ QS) (in2_ : .pst .B ∈ QS) (in3_ : .mbx .A ∈ QS) (in4_ : .mbx .B ∈ QS) : Frame QS z0 (runGroup h c first acc g).1 := Frame.via (frame_runGroup h c first acc g) (Parts.cons in0_ (Parts.cons in1_ (Parts.cons in2_ (Parts.cons in3_ (Parts.cons in4_ Parts.nil))))) fr_
theorem frame_runSeq (h : Half) (l : Nat) (first : Bool) (s : State) : Frame [.regs .pst, .cln .A, .cln .B, .pst .A, .pst .B, .mbx .A, .mbx .B] s (runSeq h l first s) := by
  have hs0 := fun ps => Frame.refl ps s
  unfold runSeq
  try dsimp only
  repeat'
    first
    | (simp (maxDischargeDepth := 80) (contextual := true) [hs0, *]; done)
    | split
    | (with_reducible refine Frame.after_ite ?_ ?_)
    | (with_reducible refine Frame.after_foldl _ _ (fun _ _ _ => ?_) ?_)
@[simp] theorem Frame.after_runSeq {QS : List Part} (h : Half) (l : Nat) (first : Bool) {z0 s : State} (fr_ : Frame QS z0 s) (in0_ : .regs .pst ∈ QS) (in1_ : .cln .A ∈ QS) (in2_ : .cln .B ∈ QS) (in3_ : .pst .A ∈ QS) (in4_ : .pst .B ∈ QS) (in5_ : .mbx .A ∈ QS) (in6_ : .mbx .B ∈ QS) : Frame QS z0 (runSeq h l first s) := Frame.via (frame_runSeq h l first s) (Parts.cons in0_ (Parts.cons in1_ (Parts.cons in2_ (Parts.cons in3_ (Parts.cons in4_ (Parts.cons in5_ (Parts.cons in6_ Parts.nil))))))) fr_
theorem frame_seqRow (step : SeqG → SeqIn → SeqG) (hit : SeqG → SeqG → Bool) (h : Half) (c : Nat) (g : Nat) (s : State) : Frame [.regs .pst, .pst .A, .pst .B, .mbx .A, .mbx .B] s (seqRow step hit h c g s) := by
  have hs0 := fun ps => Frame.refl ps s
  unfold seqRow
  simp (maxDischargeDepth := 80) (contextual := true) [hs0]
@[simp] theorem Frame.after_seqRow {QS : List Part} (step : SeqG → SeqIn → SeqG) (hit : SeqG → SeqG → Bool) (h : Half) (c : Nat) (g : Nat) {z0 s : State} (fr_ : Frame QS z0 s) (in0_ : .regs .pst ∈ QS) (in1_ : .pst .A ∈ QS) (in2_ : .pst .B ∈ QS) (in3_ : .mbx .A ∈ QS) (in4_ : .mbx .B ∈ QS) : Frame QS z0 (seqRow step hit h c g s) := Frame.via (frame_seqRow step hit h c g s) (Parts.cons in0_ (Parts.cons in1_ (Parts.cons in2_ (Parts.cons in3_ (Parts.cons in4_ Parts.nil))))) fr_
theorem frame_clearGroup (h : Half) (s : State) (e : Nat × Nat) : Frame [.regs .pst, .pst .A, .pst .B] s (clearGroup h s e) := by
  have hs0 := fun ps => Frame.refl ps s
  unfold clearGroup
  simp (maxDischargeDepth := 80) (contextual := true) [hs0]
@[simp] theorem Frame.after_clearGroup {QS : List Part} (h : Half) {z0 s : State} (e : Nat × Nat) (fr_ : Frame QS z0 s) (in0_ : .regs .pst ∈ QS) (in1_ : .pst .A ∈ QS) (in2_ : .pst .B ∈ QS) : Frame QS z0 (clearGroup h s e) := Frame.via (frame_clearGroup h s e) (Parts.cons in0_ (Parts.cons in1_ (Parts.cons in2_ Parts.nil))) fr_
theorem frame_pstClears (s : State) (h : Half) (apply : Bool) : Frame [.regs .pst, .pst .A, .pst .B] s (State.pstClears s h apply) := by
  have hs0 := fun ps => Frame.refl ps s
  unfold State.pstClears
  simp (maxDischargeDepth := 80) (contextual := true) [hs0]
@[simp] theorem Frame.after_pstClears {QS : List Part} {z0 s : State} (h : Half) (apply : Bool) (fr_ : Frame QS z0 s) (in0_ : .regs .pst ∈ QS) (in1_ : .pst .A ∈ QS) (in2_ : .pst .B ∈ QS) : Frame QS z0 (State.pstClears s h apply) := Frame.via (frame_pstClears s h apply) (Parts.cons in0_ (Parts.cons in1_ (Parts.cons in2_ Parts.nil))) fr_

end Sys2Proof.Machine
end

