-- ==== Sys2Proof/Laws/FrameLaneRun.lean ====
section
/-!
SUPPORT. Which parts of the state each operation of Machine/LaneRun.lean may change, and the same as one more step of a framed run.
-/

namespace Sys2Proof.Machine

set_option maxRecDepth 4000

theorem frame_runWhole (h : Half) (l : Nat) (s : State) : Frame [.free, .regs .pst, .cln .A, .cln .B, .pst .A, .pst .B, .mbx .A, .mbx .B] s (runWhole h l s) := by
  have hs0 := fun ps => Frame.refl ps s
  unfold runWhole
  try dsimp only
  repeat'
    first
    | (simp (maxDischargeDepth := 80) (contextual := true) [hs0, *]; done)
    | split
    | (with_reducible refine Frame.after_ite ?_ ?_)
    | (with_reducible refine Frame.after_foldl _ _ (fun _ _ _ => ?_) ?_)
@[simp] theorem Frame.after_runWhole {QS : List Part} (h : Half) (l : Nat) {z0 s : State} (fr_ : Frame QS z0 s) (in0_ : .free ∈ QS) (in1_ : .regs .pst ∈ QS) (in2_ : .cln .A ∈ QS) (in3_ : .cln .B ∈ QS) (in4_ : .pst .A ∈ QS) (in5_ : .pst .B ∈ QS) (in6_ : .mbx .A ∈ QS) (in7_ : .mbx .B ∈ QS) : Frame QS z0 (runWhole h l s) := Frame.via (frame_runWhole h l s) (Parts.cons in0_ (Parts.cons in1_ (Parts.cons in2_ (Parts.cons in3_ (Parts.cons in4_ (Parts.cons in5_ (Parts.cons in6_ (Parts.cons in7_ Parts.nil)))))))) fr_
theorem frame_startLane (h : Half) (s : State) (l : Nat) : Frame [.free, .regs .pst, .cln .A, .cln .B, .pst .A, .pst .B, .mbx .A, .mbx .B] s (startLane h s l) := by
  have hs0 := fun ps => Frame.refl ps s
  unfold startLane
  simp (maxDischargeDepth := 80) (contextual := true) [hs0]
@[simp] theorem Frame.after_startLane {QS : List Part} (h : Half) {z0 s : State} (l : Nat) (fr_ : Frame QS z0 s) (in0_ : .free ∈ QS) (in1_ : .regs .pst ∈ QS) (in2_ : .cln .A ∈ QS) (in3_ : .cln .B ∈ QS) (in4_ : .pst .A ∈ QS) (in5_ : .pst .B ∈ QS) (in6_ : .mbx .A ∈ QS) (in7_ : .mbx .B ∈ QS) : Frame QS z0 (startLane h s l) := Frame.via (frame_startLane h s l) (Parts.cons in0_ (Parts.cons in1_ (Parts.cons in2_ (Parts.cons in3_ (Parts.cons in4_ (Parts.cons in5_ (Parts.cons in6_ (Parts.cons in7_ Parts.nil)))))))) fr_
theorem frame_startSpare (h : Half) (plan : List (Nat × Nat)) (s : State) (k : Nat) : Frame [.cln .A, .cln .B] s (startSpare h plan s k) := by
  have hs0 := fun ps => Frame.refl ps s
  unfold startSpare
  try dsimp only
  repeat'
    first
    | (simp (maxDischargeDepth := 80) (contextual := true) [hs0, *]; done)
    | split
    | (with_reducible refine Frame.after_ite ?_ ?_)
    | (with_reducible refine Frame.after_foldl _ _ (fun _ _ _ => ?_) ?_)
@[simp] theorem Frame.after_startSpare {QS : List Part} (h : Half) (plan : List (Nat × Nat)) {z0 s : State} (k : Nat) (fr_ : Frame QS z0 s) (in0_ : .cln .A ∈ QS) (in1_ : .cln .B ∈ QS) : Frame QS z0 (startSpare h plan s k) := Frame.via (frame_startSpare h plan s k) (Parts.cons in0_ (Parts.cons in1_ Parts.nil)) fr_
theorem frame_spareWhole (h : Half) (s : State) (e : Nat × Nat) : Frame [.cln .A, .cln .B] s (spareWhole h s e) := by
  have hs0 := fun ps => Frame.refl ps s
  unfold spareWhole
  simp (maxDischargeDepth := 80) (contextual := true) [hs0]
@[simp] theorem Frame.after_spareWhole {QS : List Part} (h : Half) {z0 s : State} (e : Nat × Nat) (fr_ : Frame QS z0 s) (in0_ : .cln .A ∈ QS) (in1_ : .cln .B ∈ QS) : Frame QS z0 (spareWhole h s e) := Frame.via (frame_spareWhole h s e) (Parts.cons in0_ (Parts.cons in1_ Parts.nil)) fr_

end Sys2Proof.Machine
end

