-- ==== Sys2Proof/Laws/FrameLanes.lean ====
section
/-!
SUPPORT. Which parts of the state each operation of Machine/Lanes.lean may change, and the same as one more step of a framed run.
-/

namespace Sys2Proof.Machine

set_option maxRecDepth 4000

theorem frame_placeImage (s : State) (h : Half) (im : Image) (code : List Nat) : Frame [.regs .cln, .cln .A, .cln .B] s (State.placeImage s h im code) := by
  have hs0 := fun ps => Frame.refl ps s
  unfold State.placeImage
  simp (maxDischargeDepth := 80) (contextual := true) [hs0]
@[simp] theorem Frame.after_placeImage {QS : List Part} {z0 s : State} (h : Half) (im : Image) (code : List Nat) (fr_ : Frame QS z0 s) (in0_ : .regs .cln ∈ QS) (in1_ : .cln .A ∈ QS) (in2_ : .cln .B ∈ QS) : Frame QS z0 (State.placeImage s h im code) := Frame.via (frame_placeImage s h im code) (Parts.cons in0_ (Parts.cons in1_ (Parts.cons in2_ Parts.nil))) fr_
theorem frame_storeBoth (h : Half) (s : State) (r : StoreReq) : Frame [.regs .cln, .cln .A, .cln .B, .mbx .A, .mbx .B] s (storeBoth h s r) := by
  have hs0 := fun ps => Frame.refl ps s
  unfold storeBoth
  try dsimp only
  repeat'
    first
    | (simp (maxDischargeDepth := 80) (contextual := true) [hs0, *]; done)
    | split
    | (with_reducible refine Frame.after_ite ?_ ?_)
    | (with_reducible refine Frame.after_foldl _ _ (fun _ _ _ => ?_) ?_)
@[simp] theorem Frame.after_storeBoth {QS : List Part} (h : Half) {z0 s : State} (r : StoreReq) (fr_ : Frame QS z0 s) (in0_ : .regs .cln ∈ QS) (in1_ : .cln .A ∈ QS) (in2_ : .cln .B ∈ QS) (in3_ : .mbx .A ∈ QS) (in4_ : .mbx .B ∈ QS) : Frame QS z0 (storeBoth h s r) := Frame.via (frame_storeBoth h s r) (Parts.cons in0_ (Parts.cons in1_ (Parts.cons in2_ (Parts.cons in3_ (Parts.cons in4_ Parts.nil))))) fr_
theorem frame_runStores (s : State) (h : Half) : Frame [.regs .cln, .cln .A, .cln .B, .mbx .A, .mbx .B] s (State.runStores s h) := by
  have hs0 := fun ps => Frame.refl ps s
  unfold State.runStores
  simp (maxDischargeDepth := 80) (contextual := true) [hs0]
@[simp] theorem Frame.after_runStores {QS : List Part} {z0 s : State} (h : Half) (fr_ : Frame QS z0 s) (in0_ : .regs .cln ∈ QS) (in1_ : .cln .A ∈ QS) (in2_ : .cln .B ∈ QS) (in3_ : .mbx .A ∈ QS) (in4_ : .mbx .B ∈ QS) : Frame QS z0 (State.runStores s h) := Frame.via (frame_runStores s h) (Parts.cons in0_ (Parts.cons in1_ (Parts.cons in2_ (Parts.cons in3_ (Parts.cons in4_ Parts.nil))))) fr_
theorem frame_drainLane (h : Half) (s : State) (l : Nat) : Frame [.regs .cln, .twn .A, .twn .B, .cln .A, .cln .B] s (drainLane h s l) := by
  have hs0 := fun ps => Frame.refl ps s
  unfold drainLane
  simp (maxDischargeDepth := 80) (contextual := true) [hs0]
@[simp] theorem Frame.after_drainLane {QS : List Part} (h : Half) {z0 s : State} (l : Nat) (fr_ : Frame QS z0 s) (in0_ : .regs .cln ∈ QS) (in1_ : .twn .A ∈ QS) (in2_ : .twn .B ∈ QS) (in3_ : .cln .A ∈ QS) (in4_ : .cln .B ∈ QS) : Frame QS z0 (drainLane h s l) := Frame.via (frame_drainLane h s l) (Parts.cons in0_ (Parts.cons in1_ (Parts.cons in2_ (Parts.cons in3_ (Parts.cons in4_ Parts.nil))))) fr_
theorem frame_mCap (s : State) (h : Half) (n : Nat) (f : Capture → Capture) : Frame [.cln .A, .cln .B] s (State.mCap s h n f) := by
  have hs0 := fun ps => Frame.refl ps s
  unfold State.mCap
  simp (maxDischargeDepth := 80) (contextual := true) [hs0]
@[simp] theorem Frame.after_mCap {QS : List Part} {z0 s : State} (h : Half) (n : Nat) (f : Capture → Capture) (fr_ : Frame QS z0 s) (in0_ : .cln .A ∈ QS) (in1_ : .cln .B ∈ QS) : Frame QS z0 (State.mCap s h n f) := Frame.via (frame_mCap s h n f) (Parts.cons in0_ (Parts.cons in1_ Parts.nil)) fr_
theorem frame_captureRow (h : Half) (s : State) (n : Nat) : Frame [.cln .A, .cln .B, .mbx .A, .mbx .B] s (captureRow h s n) := by
  have hs0 := fun ps => Frame.refl ps s
  unfold captureRow
  try dsimp only
  repeat'
    first
    | (simp (maxDischargeDepth := 80) (contextual := true) [hs0, *]; done)
    | split
    | (with_reducible refine Frame.after_ite ?_ ?_)
    | (with_reducible refine Frame.after_foldl _ _ (fun _ _ _ => ?_) ?_)
@[simp] theorem Frame.after_captureRow {QS : List Part} (h : Half) {z0 s : State} (n : Nat) (fr_ : Frame QS z0 s) (in0_ : .cln .A ∈ QS) (in1_ : .cln .B ∈ QS) (in2_ : .mbx .A ∈ QS) (in3_ : .mbx .B ∈ QS) : Frame QS z0 (captureRow h s n) := Frame.via (frame_captureRow h s n) (Parts.cons in0_ (Parts.cons in1_ (Parts.cons in2_ (Parts.cons in3_ Parts.nil)))) fr_

end Sys2Proof.Machine
end

