-- ==== Sys2Proof/Laws/FrameLoadSwitch.lean ====
section
/-!
SUPPORT. Which parts of the state each operation of Machine/LoadSwitch.lean may change, and the same as one more step of a framed run.
-/

namespace Sys2Proof.Machine

set_option maxRecDepth 4000

theorem frame_setLswF (s : State) (c : Nat) (off : Nat) (hi : Nat) (lo : Nat) (v : Nat) : Frame [.regs .lsw] s (State.setLswF s c off hi lo v) := by
  have hs0 := fun ps => Frame.refl ps s
  unfold State.setLswF
  simp (maxDischargeDepth := 80) (contextual := true) [hs0]
@[simp] theorem Frame.after_setLswF {QS : List Part} {z0 s : State} (c : Nat) (off : Nat) (hi : Nat) (lo : Nat) (v : Nat) (fr_ : Frame QS z0 s) (in0_ : .regs .lsw ∈ QS) : Frame QS z0 (State.setLswF s c off hi lo v) := Frame.via (frame_setLswF s c off hi lo v) (Parts.cons in0_ Parts.nil) fr_
theorem frame_mLswC (s : State) (c : Nat) (f : LswC → LswC) : Frame [.lsw] s (State.mLswC s c f) := by
  have hs0 := fun ps => Frame.refl ps s
  unfold State.mLswC
  simp (maxDischargeDepth := 80) (contextual := true) [hs0]
@[simp] theorem Frame.after_mLswC {QS : List Part} {z0 s : State} (c : Nat) (f : LswC → LswC) (fr_ : Frame QS z0 s) (in0_ : .lsw ∈ QS) : Frame QS z0 (State.mLswC s c f) := Frame.via (frame_mLswC s c f) (Parts.cons in0_ Parts.nil) fr_
theorem frame_mLswG (s : State) (g : Nat) (f : LswG → LswG) : Frame [.lsw] s (State.mLswG s g f) := by
  have hs0 := fun ps => Frame.refl ps s
  unfold State.mLswG
  simp (maxDischargeDepth := 80) (contextual := true) [hs0]
@[simp] theorem Frame.after_mLswG {QS : List Part} {z0 s : State} (g : Nat) (f : LswG → LswG) (fr_ : Frame QS z0 s) (in0_ : .lsw ∈ QS) : Frame QS z0 (State.mLswG s g f) := Frame.via (frame_mLswG s g f) (Parts.cons in0_ Parts.nil) fr_
theorem frame_lswTo (s : State) (c : Nat) (st : Nat) : Frame [.regs .lsw, .lsw] s (State.lswTo s c st) := by
  have hs0 := fun ps => Frame.refl ps s
  unfold State.lswTo
  simp (maxDischargeDepth := 80) (contextual := true) [hs0]
@[simp] theorem Frame.after_lswTo {QS : List Part} {z0 s : State} (c : Nat) (st : Nat) (fr_ : Frame QS z0 s) (in0_ : .regs .lsw ∈ QS) (in1_ : .lsw ∈ QS) : Frame QS z0 (State.lswTo s c st) := Frame.via (frame_lswTo s c st) (Parts.cons in0_ (Parts.cons in1_ Parts.nil)) fr_
theorem frame_lswInrush (s : State) (c : Nat) : Frame [.regs .lsw, .lsw] s (State.lswInrush s c) := by
  have hs0 := fun ps => Frame.refl ps s
  unfold State.lswInrush
  simp (maxDischargeDepth := 80) (contextual := true) [hs0]
@[simp] theorem Frame.after_lswInrush {QS : List Part} {z0 s : State} (c : Nat) (fr_ : Frame QS z0 s) (in0_ : .regs .lsw ∈ QS) (in1_ : .lsw ∈ QS) : Frame QS z0 (State.lswInrush s c) := Frame.via (frame_lswInrush s c) (Parts.cons in0_ (Parts.cons in1_ Parts.nil)) fr_
theorem frame_lswLatch (s : State) (c : Nat) (cause : Nat) : Frame [.regs .lsw, .lsw] s (State.lswLatch s c cause) := by
  have hs0 := fun ps => Frame.refl ps s
  unfold State.lswLatch
  simp (maxDischargeDepth := 80) (contextual := true) [hs0]
@[simp] theorem Frame.after_lswLatch {QS : List Part} {z0 s : State} (c : Nat) (cause : Nat) (fr_ : Frame QS z0 s) (in0_ : .regs .lsw ∈ QS) (in1_ : .lsw ∈ QS) : Frame QS z0 (State.lswLatch s c cause) := Frame.via (frame_lswLatch s c cause) (Parts.cons in0_ (Parts.cons in1_ Parts.nil)) fr_
theorem frame_lswEv (s : State) (c : Nat) (cur : Nat) : Frame [.mbx .A, .mbx .B] s (State.lswEv s c cur) := by
  have hs0 := fun ps => Frame.refl ps s
  unfold State.lswEv
  simp (maxDischargeDepth := 80) (contextual := true) [hs0]
@[simp] theorem Frame.after_lswEv {QS : List Part} {z0 s : State} (c : Nat) (cur : Nat) (fr_ : Frame QS z0 s) (in0_ : .mbx .A ∈ QS) (in1_ : .mbx .B ∈ QS) : Frame QS z0 (State.lswEv s c cur) := Frame.via (frame_lswEv s c cur) (Parts.cons in0_ (Parts.cons in1_ Parts.nil)) fr_
theorem frame_lswCtlWrite (s : State) (c : Nat) (w : Word) : Frame [.regs .lsw, .lsw] s (State.lswCtlWrite s c w) := by
  have hs0 := fun ps => Frame.refl ps s
  unfold State.lswCtlWrite
  simp (maxDischargeDepth := 80) (contextual := true) [hs0]
@[simp] theorem Frame.after_lswCtlWrite {QS : List Part} {z0 s : State} (c : Nat) (w : Word) (fr_ : Frame QS z0 s) (in0_ : .regs .lsw ∈ QS) (in1_ : .lsw ∈ QS) : Frame QS z0 (State.lswCtlWrite s c w) := Frame.via (frame_lswCtlWrite s c w) (Parts.cons in0_ (Parts.cons in1_ Parts.nil)) fr_
theorem frame_lswResetN (s : State) : Frame [.regs .lsw, .lsw] s (State.lswResetN s) := by
  have hs0 := fun ps => Frame.refl ps s
  unfold State.lswResetN
  simp (maxDischargeDepth := 80) (contextual := true) [hs0]
@[simp] theorem Frame.after_lswResetN {QS : List Part} {z0 s : State} (fr_ : Frame QS z0 s) (in0_ : .regs .lsw ∈ QS) (in1_ : .lsw ∈ QS) : Frame QS z0 (State.lswResetN s) := Frame.via (frame_lswResetN s) (Parts.cons in0_ (Parts.cons in1_ Parts.nil)) fr_

end Sys2Proof.Machine
end

