-- ==== Sys2Proof/Laws/FrameMailbox.lean ====
section
/-!
SUPPORT. Which parts of the state each operation of Machine/Mailbox.lean may change, and the same as one more step of a framed run.
-/

namespace Sys2Proof.Machine

set_option maxRecDepth 4000

theorem frame_setRingReg (s : State) (h : Half) (n : Nat) (off : Nat) (v : Nat) : Frame [.regs .mbx] s (State.setRingReg s h n off v) := by
  have hs0 := fun ps => Frame.refl ps s
  unfold State.setRingReg
  simp (maxDischargeDepth := 80) (contextual := true) [hs0]
@[simp] theorem Frame.after_setRingReg {QS : List Part} {z0 s : State} (h : Half) (n : Nat) (off : Nat) (v : Nat) (fr_ : Frame QS z0 s) (in0_ : .regs .mbx ∈ QS) : Frame QS z0 (State.setRingReg s h n off v) := Frame.via (frame_setRingReg s h n off v) (Parts.cons in0_ Parts.nil) fr_
theorem frame_signal (s : State) (h : Half) (n : Nat) : Frame [.mbx .A, .mbx .B] s (State.signal s h n) := by
  have hs0 := fun ps => Frame.refl ps s
  unfold State.signal
  simp (maxDischargeDepth := 80) (contextual := true) [hs0]
@[simp] theorem Frame.after_signal {QS : List Part} {z0 s : State} (h : Half) (n : Nat) (fr_ : Frame QS z0 s) (in0_ : .mbx .A ∈ QS) (in1_ : .mbx .B ∈ QS) : Frame QS z0 (State.signal s h n) := Frame.via (frame_signal s h n) (Parts.cons in0_ (Parts.cons in1_ Parts.nil)) fr_
theorem frame_loseRecord (s : State) (h : Half) (n : Nat) (r : EventRec) : Frame [.regs .mbx, .mbx .A, .mbx .B] s (State.loseRecord s h n r) := by
  have hs0 := fun ps => Frame.refl ps s
  unfold State.loseRecord
  simp (maxDischargeDepth := 80) (contextual := true) [hs0]
@[simp] theorem Frame.after_loseRecord {QS : List Part} {z0 s : State} (h : Half) (n : Nat) (r : EventRec) (fr_ : Frame QS z0 s) (in0_ : .regs .mbx ∈ QS) (in1_ : .mbx .A ∈ QS) (in2_ : .mbx .B ∈ QS) : Frame QS z0 (State.loseRecord s h n r) := Frame.via (frame_loseRecord s h n r) (Parts.cons in0_ (Parts.cons in1_ (Parts.cons in2_ Parts.nil))) fr_
theorem frame_putRecord (s : State) (h : Half) (n : Nat) (r : EventRec) : Frame [.regs .mbx, .mbx .A, .mbx .B] s (State.putRecord s h n r) := by
  have hs0 := fun ps => Frame.refl ps s
  unfold State.putRecord
  try dsimp only
  repeat'
    first
    | (simp (maxDischargeDepth := 80) (contextual := true) [hs0, *]; done)
    | split
    | (with_reducible refine Frame.after_ite ?_ ?_)
    | (with_reducible refine Frame.after_foldl _ _ (fun _ _ _ => ?_) ?_)
@[simp] theorem Frame.after_putRecord {QS : List Part} {z0 s : State} (h : Half) (n : Nat) (r : EventRec) (fr_ : Frame QS z0 s) (in0_ : .regs .mbx ∈ QS) (in1_ : .mbx .A ∈ QS) (in2_ : .mbx .B ∈ QS) : Frame QS z0 (State.putRecord s h n r) := Frame.via (frame_putRecord s h n r) (Parts.cons in0_ (Parts.cons in1_ (Parts.cons in2_ Parts.nil))) fr_
theorem frame_reportLost (s : State) (h : Half) (n : Nat) : Frame [.regs .mbx, .mbx .A, .mbx .B] s (State.reportLost s h n) := by
  have hs0 := fun ps => Frame.refl ps s
  unfold State.reportLost
  simp (maxDischargeDepth := 80) (contextual := true) [hs0]
@[simp] theorem Frame.after_reportLost {QS : List Part} {z0 s : State} (h : Half) (n : Nat) (fr_ : Frame QS z0 s) (in0_ : .regs .mbx ∈ QS) (in1_ : .mbx .A ∈ QS) (in2_ : .mbx .B ∈ QS) : Frame QS z0 (State.reportLost s h n) := Frame.via (frame_reportLost s h n) (Parts.cons in0_ (Parts.cons in1_ (Parts.cons in2_ Parts.nil))) fr_
theorem frame_deliver (s : State) (h : Half) (n : Nat) (r : EventRec) : Frame [.regs .mbx, .mbx .A, .mbx .B] s (State.deliver s h n r) := by
  have hs0 := fun ps => Frame.refl ps s
  unfold State.deliver
  simp (maxDischargeDepth := 80) (contextual := true) [hs0]
@[simp] theorem Frame.after_deliver {QS : List Part} {z0 s : State} (h : Half) (n : Nat) (r : EventRec) (fr_ : Frame QS z0 s) (in0_ : .regs .mbx ∈ QS) (in1_ : .mbx .A ∈ QS) (in2_ : .mbx .B ∈ QS) : Frame QS z0 (State.deliver s h n r) := Frame.via (frame_deliver s h n r) (Parts.cons in0_ (Parts.cons in1_ (Parts.cons in2_ Parts.nil))) fr_
theorem frame_sessEv (s : State) (h : Half) (ring : Nat) (role : Nat) (what : Nat) : Frame [.mbx .A, .mbx .B] s (State.sessEv s h ring role what) := by
  have hs0 := fun ps => Frame.refl ps s
  unfold State.sessEv
  simp (maxDischargeDepth := 80) (contextual := true) [hs0]
@[simp] theorem Frame.after_sessEv {QS : List Part} {z0 s : State} (h : Half) (ring : Nat) (role : Nat) (what : Nat) (fr_ : Frame QS z0 s) (in0_ : .mbx .A ∈ QS) (in1_ : .mbx .B ∈ QS) : Frame QS z0 (State.sessEv s h ring role what) := Frame.via (frame_sessEv s h ring role what) (Parts.cons in0_ (Parts.cons in1_ Parts.nil)) fr_
theorem frame_endSession (s : State) (h : Half) (n : Nat) : Frame [.free, .mbx .A, .mbx .B, .lkt] s (State.endSession s h n) := by
  have hs0 := fun ps => Frame.refl ps s
  unfold State.endSession
  try dsimp only
  repeat'
    first
    | (simp (maxDischargeDepth := 80) (contextual := true) [hs0, *]; done)
    | split
    | (with_reducible refine Frame.after_ite ?_ ?_)
    | (with_reducible refine Frame.after_foldl _ _ (fun _ _ _ => ?_) ?_)
@[simp] theorem Frame.after_endSession {QS : List Part} {z0 s : State} (h : Half) (n : Nat) (fr_ : Frame QS z0 s) (in0_ : .free ∈ QS) (in1_ : .mbx .A ∈ QS) (in2_ : .mbx .B ∈ QS) (in3_ : .lkt ∈ QS) : Frame QS z0 (State.endSession s h n) := Frame.via (frame_endSession s h n) (Parts.cons in0_ (Parts.cons in1_ (Parts.cons in2_ (Parts.cons in3_ Parts.nil)))) fr_
theorem frame_orphanSession (h : Half) (s : State) (n : Nat) : Frame [.free, .mbx .A, .mbx .B, .lkt] s (orphanSession h s n) := by
  have hs0 := fun ps => Frame.refl ps s
  unfold orphanSession
  try dsimp only
  repeat'
    first
    | (simp (maxDischargeDepth := 80) (contextual := true) [hs0, *]; done)
    | split
    | (with_reducible refine Frame.after_ite ?_ ?_)
    | (with_reducible refine Frame.after_foldl _ _ (fun _ _ _ => ?_) ?_)
@[simp] theorem Frame.after_orphanSession {QS : List Part} (h : Half) {z0 s : State} (n : Nat) (fr_ : Frame QS z0 s) (in0_ : .free ∈ QS) (in1_ : .mbx .A ∈ QS) (in2_ : .mbx .B ∈ QS) (in3_ : .lkt ∈ QS) : Frame QS z0 (orphanSession h s n) := Frame.via (frame_orphanSession h s n) (Parts.cons in0_ (Parts.cons in1_ (Parts.cons in2_ (Parts.cons in3_ Parts.nil)))) fr_
theorem frame_orphanSessions (s : State) (h : Half) : Frame [.free, .mbx .A, .mbx .B, .lkt] s (State.orphanSessions s h) := by
  have hs0 := fun ps => Frame.refl ps s
  unfold State.orphanSessions
  simp (maxDischargeDepth := 80) (contextual := true) [hs0]
@[simp] theorem Frame.after_orphanSessions {QS : List Part} {z0 s : State} (h : Half) (fr_ : Frame QS z0 s) (in0_ : .free ∈ QS) (in1_ : .mbx .A ∈ QS) (in2_ : .mbx .B ∈ QS) (in3_ : .lkt ∈ QS) : Frame QS z0 (State.orphanSessions s h) := Frame.via (frame_orphanSessions s h) (Parts.cons in0_ (Parts.cons in1_ (Parts.cons in2_ (Parts.cons in3_ Parts.nil)))) fr_
theorem frame_writeSqTail (s : State) (h : Half) (n : Nat) (v : Nat) : Frame [.regs .mbx] s (State.writeSqTail s h n v) := by
  have hs0 := fun ps => Frame.refl ps s
  unfold State.writeSqTail
  simp (maxDischargeDepth := 80) (contextual := true) [hs0]
@[simp] theorem Frame.after_writeSqTail {QS : List Part} {z0 s : State} (h : Half) (n : Nat) (v : Nat) (fr_ : Frame QS z0 s) (in0_ : .regs .mbx ∈ QS) : Frame QS z0 (State.writeSqTail s h n v) := Frame.via (frame_writeSqTail s h n v) (Parts.cons in0_ Parts.nil) fr_
theorem frame_restall (s : State) (h : Half) (n : Nat) : Frame [.mbx .A, .mbx .B] s (State.restall s h n) := by
  have hs0 := fun ps => Frame.refl ps s
  unfold State.restall
  simp (maxDischargeDepth := 80) (contextual := true) [hs0]
@[simp] theorem Frame.after_restall {QS : List Part} {z0 s : State} (h : Half) (n : Nat) (fr_ : Frame QS z0 s) (in0_ : .mbx .A ∈ QS) (in1_ : .mbx .B ∈ QS) : Frame QS z0 (State.restall s h n) := Frame.via (frame_restall s h n) (Parts.cons in0_ (Parts.cons in1_ Parts.nil)) fr_
theorem frame_writeCqHead (s : State) (h : Half) (n : Nat) (v : Nat) : Frame [.regs .mbx, .mbx .A, .mbx .B] s (State.writeCqHead s h n v) := by
  have hs0 := fun ps => Frame.refl ps s
  unfold State.writeCqHead
  simp (maxDischargeDepth := 80) (contextual := true) [hs0]
@[simp] theorem Frame.after_writeCqHead {QS : List Part} {z0 s : State} (h : Half) (n : Nat) (v : Nat) (fr_ : Frame QS z0 s) (in0_ : .regs .mbx ∈ QS) (in1_ : .mbx .A ∈ QS) (in2_ : .mbx .B ∈ QS) : Frame QS z0 (State.writeCqHead s h n v) := Frame.via (frame_writeCqHead s h n v) (Parts.cons in0_ (Parts.cons in1_ (Parts.cons in2_ Parts.nil))) fr_
theorem frame_writeRingEn (s : State) (h : Half) (n : Nat) (en : Bool) : Frame [.free, .regs .mbx, .mbx .A, .mbx .B, .lkt] s (State.writeRingEn s h n en) := by
  have hs0 := fun ps => Frame.refl ps s
  unfold State.writeRingEn
  simp (maxDischargeDepth := 80) (contextual := true) [hs0]
@[simp] theorem Frame.after_writeRingEn {QS : List Part} {z0 s : State} (h : Half) (n : Nat) (en : Bool) (fr_ : Frame QS z0 s) (in0_ : .free ∈ QS) (in1_ : .regs .mbx ∈ QS) (in2_ : .mbx .A ∈ QS) (in3_ : .mbx .B ∈ QS) (in4_ : .lkt ∈ QS) : Frame QS z0 (State.writeRingEn s h n en) := Frame.via (frame_writeRingEn s h n en) (Parts.cons in0_ (Parts.cons in1_ (Parts.cons in2_ (Parts.cons in3_ (Parts.cons in4_ Parts.nil))))) fr_
theorem frame_writeRcfg (s : State) (h : Half) (n : Nat) (v : Word) : Frame [.free, .regs .mbx, .mbx .A, .mbx .B, .lkt] s (State.writeRcfg s h n v) := by
  have hs0 := fun ps => Frame.refl ps s
  unfold State.writeRcfg
  simp (maxDischargeDepth := 80) (contextual := true) [hs0]
@[simp] theorem Frame.after_writeRcfg {QS : List Part} {z0 s : State} (h : Half) (n : Nat) (v : Word) (fr_ : Frame QS z0 s) (in0_ : .free ∈ QS) (in1_ : .regs .mbx ∈ QS) (in2_ : .mbx .A ∈ QS) (in3_ : .mbx .B ∈ QS) (in4_ : .lkt ∈ QS) : Frame QS z0 (State.writeRcfg s h n v) := Frame.via (frame_writeRcfg s h n v) (Parts.cons in0_ (Parts.cons in1_ (Parts.cons in2_ (Parts.cons in3_ (Parts.cons in4_ Parts.nil))))) fr_
theorem frame_takeEntry (s : State) (h : Half) (n : Nat) : Frame [.regs .mbx, .mbx .A, .mbx .B] s (State.takeEntry s h n) := by
  have hs0 := fun ps => Frame.refl ps s
  unfold State.takeEntry
  simp (maxDischargeDepth := 80) (contextual := true) [hs0]
@[simp] theorem Frame.after_takeEntry {QS : List Part} {z0 s : State} (h : Half) (n : Nat) (fr_ : Frame QS z0 s) (in0_ : .regs .mbx ∈ QS) (in1_ : .mbx .A ∈ QS) (in2_ : .mbx .B ∈ QS) : Frame QS z0 (State.takeEntry s h n) := Frame.via (frame_takeEntry s h n) (Parts.cons in0_ (Parts.cons in1_ (Parts.cons in2_ Parts.nil))) fr_
theorem frame_proofFailed (s : State) (h : Half) (role : Nat) : Frame [.mbx .A, .mbx .B] s (State.proofFailed s h role) := by
  have hs0 := fun ps => Frame.refl ps s
  unfold State.proofFailed
  simp (maxDischargeDepth := 80) (contextual := true) [hs0]
@[simp] theorem Frame.after_proofFailed {QS : List Part} {z0 s : State} (h : Half) (role : Nat) (fr_ : Frame QS z0 s) (in0_ : .mbx .A ∈ QS) (in1_ : .mbx .B ∈ QS) : Frame QS z0 (State.proofFailed s h role) := Frame.via (frame_proofFailed s h role) (Parts.cons in0_ (Parts.cons in1_ Parts.nil)) fr_

end Sys2Proof.Machine
end

