-- ==== Sys2Proof/Laws/FrameMesh.lean ====
section
/-!
SUPPORT. Which parts of the state each operation of Machine/Mesh.lean may change, and the same as one more step of a framed run.
-/

namespace Sys2Proof.Machine

set_option maxRecDepth 4000

theorem frame_mMp (s : State) (n : Nat) (f : MeshP → MeshP) : Frame [.mesh] s (State.mMp s n f) := by
  have hs0 := fun ps => Frame.refl ps s
  unfold State.mMp
  simp (maxDischargeDepth := 80) (contextual := true) [hs0]
@[simp] theorem Frame.after_mMp {QS : List Part} {z0 s : State} (n : Nat) (f : MeshP → MeshP) (fr_ : Frame QS z0 s) (in0_ : .mesh ∈ QS) : Frame QS z0 (State.mMp s n f) := Frame.via (frame_mMp s n f) (Parts.cons in0_ Parts.nil) fr_
theorem frame_mMlink (s : State) (tx : Nat) (rx : Nat) (f : MeshLink → MeshLink) : Frame [.mesh] s (State.mMlink s tx rx f) := by
  have hs0 := fun ps => Frame.refl ps s
  unfold State.mMlink
  simp (maxDischargeDepth := 80) (contextual := true) [hs0]
@[simp] theorem Frame.after_mMlink {QS : List Part} {z0 s : State} (tx : Nat) (rx : Nat) (f : MeshLink → MeshLink) (fr_ : Frame QS z0 s) (in0_ : .mesh ∈ QS) : Frame QS z0 (State.mMlink s tx rx f) := Frame.via (frame_mMlink s tx rx f) (Parts.cons in0_ Parts.nil) fr_
theorem frame_mx (s : State) (n : Nat) (f : MeshX → MeshX) : Frame [.mesh] s (State.mx s n f) := by
  have hs0 := fun ps => Frame.refl ps s
  unfold State.mx
  simp (maxDischargeDepth := 80) (contextual := true) [hs0]
@[simp] theorem Frame.after_mx {QS : List Part} {z0 s : State} (n : Nat) (f : MeshX → MeshX) (fr_ : Frame QS z0 s) (in0_ : .mesh ∈ QS) : Frame QS z0 (State.mx s n f) := Frame.via (frame_mx s n f) (Parts.cons in0_ Parts.nil) fr_
theorem frame_endX (s : State) (n : Nat) : Frame [.mesh] s (State.endX s n) := by
  have hs0 := fun ps => Frame.refl ps s
  unfold State.endX
  simp (maxDischargeDepth := 80) (contextual := true) [hs0]
@[simp] theorem Frame.after_endX {QS : List Part} {z0 s : State} (n : Nat) (fr_ : Frame QS z0 s) (in0_ : .mesh ∈ QS) : Frame QS z0 (State.endX s n) := Frame.via (frame_endX s n) (Parts.cons in0_ Parts.nil) fr_
theorem frame_meshEv (s : State) (n : Nat) (node : Nat) (cause : Nat) (map : Nat) : Frame [.mbx .A, .mbx .B] s (State.meshEv s n node cause map) := by
  have hs0 := fun ps => Frame.refl ps s
  unfold State.meshEv
  simp (maxDischargeDepth := 80) (contextual := true) [hs0]
@[simp] theorem Frame.after_meshEv {QS : List Part} {z0 s : State} (n : Nat) (node : Nat) (cause : Nat) (map : Nat) (fr_ : Frame QS z0 s) (in0_ : .mbx .A ∈ QS) (in1_ : .mbx .B ∈ QS) : Frame QS z0 (State.meshEv s n node cause map) := Frame.via (frame_meshEv s n node cause map) (Parts.cons in0_ (Parts.cons in1_ Parts.nil)) fr_
theorem frame_meshCnt (s : State) (n : Nat) (off : Nat) : Frame [.regs .rms] s (State.meshCnt s n off) := by
  have hs0 := fun ps => Frame.refl ps s
  unfold State.meshCnt
  simp (maxDischargeDepth := 80) (contextual := true) [hs0]
@[simp] theorem Frame.after_meshCnt {QS : List Part} {z0 s : State} (n : Nat) (off : Nat) (fr_ : Frame QS z0 s) (in0_ : .regs .rms ∈ QS) : Frame QS z0 (State.meshCnt s n off) := Frame.via (frame_meshCnt s n off) (Parts.cons in0_ Parts.nil) fr_
theorem frame_sendCell (s : State) (n : Nat) (m : Nat) (d : List Nat) : Frame [.mesh] s (State.sendCell s n m d) := by
  have hs0 := fun ps => Frame.refl ps s
  unfold State.sendCell
  simp (maxDischargeDepth := 80) (contextual := true) [hs0]
@[simp] theorem Frame.after_sendCell {QS : List Part} {z0 s : State} (n : Nat) (m : Nat) (d : List Nat) (fr_ : Frame QS z0 s) (in0_ : .mesh ∈ QS) : Frame QS z0 (State.sendCell s n m d) := Frame.via (frame_sendCell s n m d) (Parts.cons in0_ Parts.nil) fr_
theorem frame_takeCell (s : State) (n nbr : Nat) (win : List (Option Nat)) : Frame [.regs .rms, .mesh] s ((s.takeCell n nbr win).1) := by
  have hs0 := fun ps => Frame.refl ps s
  unfold State.takeCell
  try dsimp only
  repeat'
    first
    | (simp (maxDischargeDepth := 80) (contextual := true) [hs0, *]; done)
    | split
    | (with_reducible refine Frame.after_ite ?_ ?_)
    | (with_reducible refine Frame.after_foldl _ _ (fun _ _ _ => ?_) ?_)
@[simp] theorem Frame.after_takeCell {QS : List Part} {z0 s : State} (n nbr : Nat) (win : List (Option Nat)) (fr_ : Frame QS z0 s) (in0_ : .regs .rms ∈ QS) (in1_ : .mesh ∈ QS) : Frame QS z0 ((s.takeCell n nbr win).1) := Frame.via (frame_takeCell s n nbr win) (Parts.cons in0_ (Parts.cons in1_ Parts.nil)) fr_
theorem frame_startX (s : State) (n : Nat) (f : MeshFrame) : Frame [.mesh] s (State.startX s n f) := by
  have hs0 := fun ps => Frame.refl ps s
  unfold State.startX
  simp (maxDischargeDepth := 80) (contextual := true) [hs0]
@[simp] theorem Frame.after_startX {QS : List Part} {z0 s : State} (n : Nat) (f : MeshFrame) (fr_ : Frame QS z0 s) (in0_ : .mesh ∈ QS) : Frame QS z0 (State.startX s n f) := Frame.via (frame_startX s n f) (Parts.cons in0_ Parts.nil) fr_
theorem frame_setTx (s : State) (v : Nat) : Frame [.regs .rms] s (State.setTx s v) := by
  have hs0 := fun ps => Frame.refl ps s
  unfold State.setTx
  simp (maxDischargeDepth := 80) (contextual := true) [hs0]
@[simp] theorem Frame.after_setTx {QS : List Part} {z0 s : State} (v : Nat) (fr_ : Frame QS z0 s) (in0_ : .regs .rms ∈ QS) : Frame QS z0 (State.setTx s v) := Frame.via (frame_setTx s v) (Parts.cons in0_ Parts.nil) fr_
theorem frame_nextX (s : State) (n : Nat) : Frame [.regs .rms, .mesh] s (State.nextX s n) := by
  have hs0 := fun ps => Frame.refl ps s
  unfold State.nextX
  try dsimp only
  repeat'
    first
    | (simp (maxDischargeDepth := 80) (contextual := true) [hs0, *]; done)
    | split
    | (with_reducible refine Frame.after_ite ?_ ?_)
    | (with_reducible refine Frame.after_foldl _ _ (fun _ _ _ => ?_) ?_)
@[simp] theorem Frame.after_nextX {QS : List Part} {z0 s : State} (n : Nat) (fr_ : Frame QS z0 s) (in0_ : .regs .rms ∈ QS) (in1_ : .mesh ∈ QS) : Frame QS z0 (State.nextX s n) := Frame.via (frame_nextX s n) (Parts.cons in0_ (Parts.cons in1_ Parts.nil)) fr_
theorem frame_bcDone (s : State) : Frame [.free, .regs .rms] s (State.bcDone s) := by
  have hs0 := fun ps => Frame.refl ps s
  unfold State.bcDone
  simp (maxDischargeDepth := 80) (contextual := true) [hs0]
@[simp] theorem Frame.after_bcDone {QS : List Part} {z0 s : State} (fr_ : Frame QS z0 s) (in0_ : .free ∈ QS) (in1_ : .regs .rms ∈ QS) : Frame QS z0 (State.bcDone s) := Frame.via (frame_bcDone s) (Parts.cons in0_ (Parts.cons in1_ Parts.nil)) fr_
theorem frame_xSend (s : State) (n : Nat) (x : MeshX) : Frame [.free, .regs .rms, .mesh] s (State.xSend s n x) := by
  have hs0 := fun ps => Frame.refl ps s
  unfold State.xSend
  simp (maxDischargeDepth := 80) (contextual := true) [hs0]
@[simp] theorem Frame.after_xSend {QS : List Part} {z0 s : State} (n : Nat) (x : MeshX) (fr_ : Frame QS z0 s) (in0_ : .free ∈ QS) (in1_ : .regs .rms ∈ QS) (in2_ : .mesh ∈ QS) : Frame QS z0 (State.xSend s n x) := Frame.via (frame_xSend s n x) (Parts.cons in0_ (Parts.cons in1_ (Parts.cons in2_ Parts.nil))) fr_
theorem frame_xCrossing (s : State) (n : Nat) (win : List (Option Nat)) : Frame [.free, .regs .rms, .mesh] s (State.xCrossing s n win) := by
  have hs0 := fun ps => Frame.refl ps s
  unfold State.xCrossing
  try dsimp only
  repeat'
    first
    | (simp (maxDischargeDepth := 80) (contextual := true) [hs0, *]; done)
    | split
    | (with_reducible refine Frame.after_ite ?_ ?_)
    | (with_reducible refine Frame.after_foldl _ _ (fun _ _ _ => ?_) ?_)
@[simp] theorem Frame.after_xCrossing {QS : List Part} {z0 s : State} (n : Nat) (win : List (Option Nat)) (fr_ : Frame QS z0 s) (in0_ : .free ∈ QS) (in1_ : .regs .rms ∈ QS) (in2_ : .mesh ∈ QS) : Frame QS z0 (State.xCrossing s n win) := Frame.via (frame_xCrossing s n win) (Parts.cons in0_ (Parts.cons in1_ (Parts.cons in2_ Parts.nil))) fr_
theorem frame_harvCrossing (s : State) (n : Nat) (v : MeshHarv) (win : List (Option Nat)) : Frame [.regs .rms, .mesh] s (State.harvCrossing s n v win) := by
  have hs0 := fun ps => Frame.refl ps s
  unfold State.harvCrossing
  simp (maxDischargeDepth := 80) (contextual := true) [hs0]
@[simp] theorem Frame.after_harvCrossing {QS : List Part} {z0 s : State} (n : Nat) (v : MeshHarv) (win : List (Option Nat)) (fr_ : Frame QS z0 s) (in0_ : .regs .rms ∈ QS) (in1_ : .mesh ∈ QS) : Frame QS z0 (State.harvCrossing s n v win) := Frame.via (frame_harvCrossing s n v win) (Parts.cons in0_ (Parts.cons in1_ Parts.nil)) fr_
theorem frame_meshPdu (s : State) (c : Nat) : Frame [.mesh] s (State.meshPdu s c) := by
  have hs0 := fun ps => Frame.refl ps s
  unfold State.meshPdu
  simp (maxDischargeDepth := 80) (contextual := true) [hs0]
@[simp] theorem Frame.after_meshPdu {QS : List Part} {z0 s : State} (c : Nat) (fr_ : Frame QS z0 s) (in0_ : .mesh ∈ QS) : Frame QS z0 (State.meshPdu s c) := Frame.via (frame_meshPdu s c) (Parts.cons in0_ Parts.nil) fr_
theorem frame_hopDone (s : State) (n : Nat) (x : MeshX) : Frame [.regs .rms, .mesh] s (State.hopDone s n x) := by
  have hs0 := fun ps => Frame.refl ps s
  unfold State.hopDone
  try dsimp only
  repeat'
    first
    | (simp (maxDischargeDepth := 80) (contextual := true) [hs0, *]; done)
    | split
    | (with_reducible refine Frame.after_ite ?_ ?_)
    | (with_reducible refine Frame.after_foldl _ _ (fun _ _ _ => ?_) ?_)
@[simp] theorem Frame.after_hopDone {QS : List Part} {z0 s : State} (n : Nat) (x : MeshX) (fr_ : Frame QS z0 s) (in0_ : .regs .rms ∈ QS) (in1_ : .mesh ∈ QS) : Frame QS z0 (State.hopDone s n x) := Frame.via (frame_hopDone s n x) (Parts.cons in0_ (Parts.cons in1_ Parts.nil)) fr_
theorem frame_meshRx (s : State) (n : Nat) (src : Nat) (d : List Nat) : Frame [.regs .rms] s (State.meshRx s n src d) := by
  have hs0 := fun ps => Frame.refl ps s
  unfold State.meshRx
  simp (maxDischargeDepth := 80) (contextual := true) [hs0]
@[simp] theorem Frame.after_meshRx {QS : List Part} {z0 s : State} (n : Nat) (src : Nat) (d : List Nat) (fr_ : Frame QS z0 s) (in0_ : .regs .rms ∈ QS) : Frame QS z0 (State.meshRx s n src d) := Frame.via (frame_meshRx s n src d) (Parts.cons in0_ Parts.nil) fr_
theorem frame_meshRelease (s : State) : Frame [.regs .rms, .mesh] s (State.meshRelease s) := by
  have hs0 := fun ps => Frame.refl ps s
  unfold State.meshRelease
  try dsimp only
  repeat'
    first
    | (simp (maxDischargeDepth := 80) (contextual := true) [hs0, *]; done)
    | split
    | (with_reducible refine Frame.after_ite ?_ ?_)
    | (with_reducible refine Frame.after_foldl _ _ (fun _ _ _ => ?_) ?_)
@[simp] theorem Frame.after_meshRelease {QS : List Part} {z0 s : State} (fr_ : Frame QS z0 s) (in0_ : .regs .rms ∈ QS) (in1_ : .mesh ∈ QS) : Frame QS z0 (State.meshRelease s) := Frame.via (frame_meshRelease s) (Parts.cons in0_ (Parts.cons in1_ Parts.nil)) fr_
theorem frame_meshRequest (s : State) : Frame [.regs .rms] s (State.meshRequest s) := by
  have hs0 := fun ps => Frame.refl ps s
  unfold State.meshRequest
  simp (maxDischargeDepth := 80) (contextual := true) [hs0]
@[simp] theorem Frame.after_meshRequest {QS : List Part} {z0 s : State} (fr_ : Frame QS z0 s) (in0_ : .regs .rms ∈ QS) : Frame QS z0 (State.meshRequest s) := Frame.via (frame_meshRequest s) (Parts.cons in0_ Parts.nil) fr_
theorem frame_meshQueue (s : State) (n : Nat) (f : MeshFrame) : Frame [.mesh] s (State.meshQueue s n f) := by
  have hs0 := fun ps => Frame.refl ps s
  unfold State.meshQueue
  simp (maxDischargeDepth := 80) (contextual := true) [hs0]
@[simp] theorem Frame.after_meshQueue {QS : List Part} {z0 s : State} (n : Nat) (f : MeshFrame) (fr_ : Frame QS z0 s) (in0_ : .mesh ∈ QS) : Frame QS z0 (State.meshQueue s n f) := Frame.via (frame_meshQueue s n f) (Parts.cons in0_ Parts.nil) fr_
theorem frame_sendMapset (s : State) (n : Nat) (tx : Nat) (rx : Nat) (map : Nat) (at_ : Nat) : Frame [.mesh] s (State.sendMapset s n tx rx map at_) := by
  have hs0 := fun ps => Frame.refl ps s
  unfold State.sendMapset
  simp (maxDischargeDepth := 80) (contextual := true) [hs0]
@[simp] theorem Frame.after_sendMapset {QS : List Part} {z0 s : State} (n : Nat) (tx : Nat) (rx : Nat) (map : Nat) (at_ : Nat) (fr_ : Frame QS z0 s) (in0_ : .mesh ∈ QS) : Frame QS z0 (State.sendMapset s n tx rx map at_) := Frame.via (frame_sendMapset s n tx rx map at_) (Parts.cons in0_ Parts.nil) fr_
theorem frame_report (s : State) (n : Nat) (tx : Nat) (rx : Nat) (r : List (Nat × Nat)) : Frame [.mbx .A, .mbx .B, .mesh] s (State.report s n tx rx r) := by
  have hs0 := fun ps => Frame.refl ps s
  unfold State.report
  simp (maxDischargeDepth := 80) (contextual := true) [hs0]
@[simp] theorem Frame.after_report {QS : List Part} {z0 s : State} (n : Nat) (tx : Nat) (rx : Nat) (r : List (Nat × Nat)) (fr_ : Frame QS z0 s) (in0_ : .mbx .A ∈ QS) (in1_ : .mbx .B ∈ QS) (in2_ : .mesh ∈ QS) : Frame QS z0 (State.report s n tx rx r) := Frame.via (frame_report s n tx rx r) (Parts.cons in0_ (Parts.cons in1_ (Parts.cons in2_ Parts.nil))) fr_

end Sys2Proof.Machine
end

