-- ==== Sys2Proof/Laws/FramePoints.lean ====
section
/-!
SUPPORT. Which parts of the state each operation of Machine/Points.lean may change, and the same as one more step of a framed run.
-/

namespace Sys2Proof.Machine

set_option maxRecDepth 4000

theorem frame_readDone (s : State) (o : Org) (x : Half) (ids : List Nat) (multi : Bool) : Frame [.mbx .A, .mbx .B] s (State.readDone s o x ids multi) := by
  have hs0 := fun ps => Frame.refl ps s
  unfold State.readDone
  try dsimp only
  repeat'
    first
    | (simp (maxDischargeDepth := 80) (contextual := true) [hs0, *]; done)
    | split
    | (with_reducible refine Frame.after_ite ?_ ?_)
    | (with_reducible refine Frame.after_foldl _ _ (fun _ _ _ => ?_) ?_)
@[simp] theorem Frame.after_readDone {QS : List Part} {z0 s : State} (o : Org) (x : Half) (ids : List Nat) (multi : Bool) (fr_ : Frame QS z0 s) (in0_ : .mbx .A ∈ QS) (in1_ : .mbx .B ∈ QS) : Frame QS z0 (State.readDone s o x ids multi) := Frame.via (frame_readDone s o x ids multi) (Parts.cons in0_ (Parts.cons in1_ Parts.nil)) fr_
theorem frame_readPoints (s : State) (o : Org) (x : Half) (ids : List Nat) (multi : Bool) : Frame [.restWait .A, .restWait .B, .mbx .A, .mbx .B] s (State.readPoints s o x ids multi) := by
  have hs0 := fun ps => Frame.refl ps s
  unfold State.readPoints
  simp (maxDischargeDepth := 80) (contextual := true) [hs0]
@[simp] theorem Frame.after_readPoints {QS : List Part} {z0 s : State} (o : Org) (x : Half) (ids : List Nat) (multi : Bool) (fr_ : Frame QS z0 s) (in0_ : .restWait .A ∈ QS) (in1_ : .restWait .B ∈ QS) (in2_ : .mbx .A ∈ QS) (in3_ : .mbx .B ∈ QS) : Frame QS z0 (State.readPoints s o x ids multi) := Frame.via (frame_readPoints s o x ids multi) (Parts.cons in0_ (Parts.cons in1_ (Parts.cons in2_ (Parts.cons in3_ Parts.nil)))) fr_
theorem frame_restoreStep (x : Half) (s : State) (w : PntWait) : Frame [.mbx .A, .mbx .B] s (restoreStep x s w) := by
  have hs0 := fun ps => Frame.refl ps s
  unfold restoreStep
  simp (maxDischargeDepth := 80) (contextual := true) [hs0]
@[simp] theorem Frame.after_restoreStep {QS : List Part} (x : Half) {z0 s : State} (w : PntWait) (fr_ : Frame QS z0 s) (in0_ : .mbx .A ∈ QS) (in1_ : .mbx .B ∈ QS) : Frame QS z0 (restoreStep x s w) := Frame.via (frame_restoreStep x s w) (Parts.cons in0_ (Parts.cons in1_ Parts.nil)) fr_
theorem frame_deliverPoint (h : Half) (ring : Nat) (acc : State × List (Nat × Nat × Nat)) (id : Nat) : Frame [.regs .mbx, .mbx .A, .mbx .B] acc.1 (deliverPoint h ring acc id).1 := by
  obtain ⟨s, l⟩ := acc
  have hs0 := fun ps => Frame.refl ps s
  unfold deliverPoint
  try dsimp only
  repeat'
    first
    | (simp (maxDischargeDepth := 80) (contextual := true) [hs0, *]; done)
    | split
    | (with_reducible refine Frame.after_ite ?_ ?_)
    | (with_reducible refine Frame.after_foldl _ _ (fun _ _ _ => ?_) ?_)
@[simp] theorem Frame.after_deliverPoint {QS : List Part} {z0 : State} (h : Half) (ring : Nat) (acc : State × List (Nat × Nat × Nat)) (id : Nat) (fr_ : Frame QS z0 acc.1) (in0_ : .regs .mbx ∈ QS) (in1_ : .mbx .A ∈ QS) (in2_ : .mbx .B ∈ QS) : Frame QS z0 (deliverPoint h ring acc id).1 := Frame.via (frame_deliverPoint h ring acc id) (Parts.cons in0_ (Parts.cons in1_ (Parts.cons in2_ Parts.nil))) fr_
theorem frame_flushHeld (h : Half) (s : State) (n : Nat) : Frame [.regs .mbx, .mbx .A, .mbx .B] s (flushHeld h s n) := by
  have hs0 := fun ps => Frame.refl ps s
  unfold flushHeld
  simp (maxDischargeDepth := 80) (contextual := true) [hs0]
@[simp] theorem Frame.after_flushHeld {QS : List Part} (h : Half) {z0 s : State} (n : Nat) (fr_ : Frame QS z0 s) (in0_ : .regs .mbx ∈ QS) (in1_ : .mbx .A ∈ QS) (in2_ : .mbx .B ∈ QS) : Frame QS z0 (flushHeld h s n) := Frame.via (frame_flushHeld h s n) (Parts.cons in0_ (Parts.cons in1_ (Parts.cons in2_ Parts.nil))) fr_

end Sys2Proof.Machine
end

