-- ==== Sys2Proof/Laws/FrameResets.lean ====
section
/-!
SUPPORT. Which parts of the state each operation of Machine/Resets.lean may change, and the same as one more step of a framed run.
-/

namespace Sys2Proof.Machine

set_option maxRecDepth 4000

theorem frame_setCause (s : State) (h : Half) (cause : Nat) : Frame [.regs .pwr] s (State.setCause s h cause) := by
  have hs0 := fun ps => Frame.refl ps s
  unfold State.setCause
  try dsimp only
  repeat'
    first
    | (simp (maxDischargeDepth := 80) (contextual := true) [hs0, *]; done)
    | split
    | (with_reducible refine Frame.after_ite ?_ ?_)
    | (with_reducible refine Frame.after_foldl _ _ (fun _ _ _ => ?_) ?_)
@[simp] theorem Frame.after_setCause {QS : List Part} {z0 s : State} (h : Half) (cause : Nat) (fr_ : Frame QS z0 s) (in0_ : .regs .pwr ∈ QS) : Frame QS z0 (State.setCause s h cause) := Frame.via (frame_setCause s h cause) (Parts.cons in0_ Parts.nil) fr_
theorem frame_bootAgain (s : State) (h : Half) : Frame [.upd] s (State.bootAgain s h) := by
  have hs0 := fun ps => Frame.refl ps s
  unfold State.bootAgain
  simp (maxDischargeDepth := 80) (contextual := true) [hs0]
@[simp] theorem Frame.after_bootAgain {QS : List Part} {z0 s : State} (h : Half) (fr_ : Frame QS z0 s) (in0_ : .upd ∈ QS) : Frame QS z0 (State.bootAgain s h) := Frame.via (frame_bootAgain s h) (Parts.cons in0_ Parts.nil) fr_
theorem frame_vehReset (s : State) (h : Half) : Frame [.veh, .vehG] s (State.vehReset s h) := by
  have hs0 := fun ps => Frame.refl ps s
  unfold State.vehReset
  simp (maxDischargeDepth := 80) (contextual := true) [hs0]
@[simp] theorem Frame.after_vehReset {QS : List Part} {z0 s : State} (h : Half) (fr_ : Frame QS z0 s) (in0_ : .veh ∈ QS) (in1_ : .vehG ∈ QS) : Frame QS z0 (State.vehReset s h) := Frame.via (frame_vehReset s h) (Parts.cons in0_ (Parts.cons in1_ Parts.nil)) fr_
theorem frame_dropBlocks (s : State) (h : Half) : Frame (allRegs ++ (([.shadow, .blocks] : List Part))) s (State.dropBlocks s h) := by
  have hs0 := fun ps => Frame.refl ps s
  unfold State.dropBlocks
  try dsimp only
  repeat'
    first
    | (simp (maxDischargeDepth := 80) (contextual := true) [hs0, *]; done)
    | split
    | (with_reducible refine Frame.after_ite ?_ ?_)
    | (with_reducible refine Frame.after_foldl _ _ (fun _ _ _ => ?_) ?_)
@[simp] theorem Frame.after_dropBlocks {QS : List Part} {z0 s : State} (h : Half) (fr_ : Frame QS z0 s) (in0_ : ∀ b : Blk, .regs b ∈ QS) (in1_ : .shadow ∈ QS) (in2_ : .blocks ∈ QS) : Frame QS z0 (State.dropBlocks s h) := Frame.via (frame_dropBlocks s h) (Parts.regs in0_ (Parts.cons in1_ (Parts.cons in2_ Parts.nil))) fr_
theorem frame_dropReqs (s : State) (h : Half) : Frame [.ref] s (State.dropReqs s h) := by
  have hs0 := fun ps => Frame.refl ps s
  unfold State.dropReqs
  try dsimp only
  repeat'
    first
    | (simp (maxDischargeDepth := 80) (contextual := true) [hs0, *]; done)
    | split
    | (with_reducible refine Frame.after_ite ?_ ?_)
    | (with_reducible refine Frame.after_foldl _ _ (fun _ _ _ => ?_) ?_)
@[simp] theorem Frame.after_dropReqs {QS : List Part} {z0 s : State} (h : Half) (fr_ : Frame QS z0 s) (in0_ : .ref ∈ QS) : Frame QS z0 (State.dropReqs s h) := Frame.via (frame_dropReqs s h) (Parts.cons in0_ Parts.nil) fr_
set_option maxHeartbeats 1000000 in
theorem frame_resetHalf (s : State) (h : Half) (cause : Nat) : Frame (allRegs ++ (([.free, .shadow, .blocks, .tck .A, .tck .B, .stg .A, .stg .B, .pts .A, .pts .B, .mirOut .A, .mirOut .B, .restWait .A, .restWait .B, .part .A, .part .B, .ports .A, .ports .B, .bulk .A, .bulk .B, .twn .A, .twn .B, .cln .A, .cln .B, .pst .A, .pst .B, .cnp .A, .cnp .B, .safv .A, .safv .B, .pub .A, .pub .B, .thm .A, .thm .B, .mbx .A, .mbx .B, .tmr .A, .tmr .B, .ref, .ho, .veh, .vehG, .lkt, .upd] : List Part))) s (State.resetHalf s h cause) := by
  have hs0 := fun ps => Frame.refl ps s
  unfold State.resetHalf
  dsimp only
  split <;> simp (maxDischargeDepth := 80) (contextual := true) [hs0, freshHalf]
@[simp] theorem Frame.after_resetHalf {QS : List Part} {z0 s : State} (h : Half) (cause : Nat) (fr_ : Frame QS z0 s) (in0_ : ∀ b : Blk, .regs b ∈ QS) (in1_ : .free ∈ QS) (in2_ : .shadow ∈ QS) (in3_ : .blocks ∈ QS) (in4_ : .tck .A ∈ QS) (in5_ : .tck .B ∈ QS) (in6_ : .stg .A ∈ QS) (in7_ : .stg .B ∈ QS) (in8_ : .pts .A ∈ QS) (in9_ : .pts .B ∈ QS) (in10_ : .mirOut .A ∈ QS) (in11_ : .mirOut .B ∈ QS) (in12_ : .restWait .A ∈ QS) (in13_ : .restWait .B ∈ QS) (in14_ : .part .A ∈ QS) (in15_ : .part .B ∈ QS) (in16_ : .ports .A ∈ QS) (in17_ : .ports .B ∈ QS) (in18_ : .bulk .A ∈ QS) (in19_ : .bulk .B ∈ QS) (in20_ : .twn .A ∈ QS) (in21_ : .twn .B ∈ QS) (in22_ : .cln .A ∈ QS) (in23_ : .cln .B ∈ QS) (in24_ : .pst .A ∈ QS) (in25_ : .pst .B ∈ QS) (in26_ : .cnp .A ∈ QS) (in27_ : .cnp .B ∈ QS) (in28_ : .safv .A ∈ QS) (in29_ : .safv .B ∈ QS) (in30_ : .pub .A ∈ QS) (in31_ : .pub .B ∈ QS) (in32_ : .thm .A ∈ QS) (in33_ : .thm .B ∈ QS) (in34_ : .mbx .A ∈ QS) (in35_ : .mbx .B ∈ QS) (in36_ : .tmr .A ∈ QS) (in37_ : .tmr .B ∈ QS) (in38_ : .ref ∈ QS) (in39_ : .ho ∈ QS) (in40_ : .veh ∈ QS) (in41_ : .vehG ∈ QS) (in42_ : .lkt ∈ QS) (in43_ : .upd ∈ QS) : Frame QS z0 (State.resetHalf s h cause) := Frame.via (frame_resetHalf s h cause) (Parts.regs in0_ (Parts.cons in1_ (Parts.cons in2_ (Parts.cons in3_ (Parts.cons in4_ (Parts.cons in5_ (Parts.cons in6_ (Parts.cons in7_ (Parts.cons in8_ (Parts.cons in9_ (Parts.cons in10_ (Parts.cons in11_ (Parts.cons in12_ (Parts.cons in13_ (Parts.cons in14_ (Parts.cons in15_ (Parts.cons in16_ (Parts.cons in17_ (Parts.cons in18_ (Parts.cons in19_ (Parts.cons in20_ (Parts.cons in21_ (Parts.cons in22_ (Parts.cons in23_ (Parts.cons in24_ (Parts.cons in25_ (Parts.cons in26_ (Parts.cons in27_ (Parts.cons in28_ (Parts.cons in29_ (Parts.cons in30_ (Parts.cons in31_ (Parts.cons in32_ (Parts.cons in33_ (Parts.cons in34_ (Parts.cons in35_ (Parts.cons in36_ (Parts.cons in37_ (Parts.cons in38_ (Parts.cons in39_ (Parts.cons in40_ (Parts.cons in41_ (Parts.cons in42_ (Parts.cons in43_ Parts.nil)))))))))))))))))))))))))))))))))))))))))))) fr_
theorem frame_haltHalf (s : State) (h : Half) : Frame (allRegs ++ (([.free, .shadow, .blocks, .tck .A, .tck .B, .stg .A, .stg .B, .pts .A, .pts .B, .mirOut .A, .mirOut .B, .restWait .A, .restWait .B, .part .A, .part .B, .ports .A, .ports .B, .bulk .A, .bulk .B, .twn .A, .twn .B, .cln .A, .cln .B, .pst .A, .pst .B, .cnp .A, .cnp .B, .safv .A, .safv .B, .pub .A, .pub .B, .thm .A, .thm .B, .mbx .A, .mbx .B, .tmr .A, .tmr .B, .ref, .ho, .veh, .vehG, .lkt, .upd] : List Part))) s (State.haltHalf s h) := by
  have hs0 := fun ps => Frame.refl ps s
  unfold State.haltHalf
  simp (maxDischargeDepth := 80) (contextual := true) [hs0]
@[simp] theorem Frame.after_haltHalf {QS : List Part} {z0 s : State} (h : Half) (fr_ : Frame QS z0 s) (in0_ : ∀ b : Blk, .regs b ∈ QS) (in1_ : .free ∈ QS) (in2_ : .shadow ∈ QS) (in3_ : .blocks ∈ QS) (in4_ : .tck .A ∈ QS) (in5_ : .tck .B ∈ QS) (in6_ : .stg .A ∈ QS) (in7_ : .stg .B ∈ QS) (in8_ : .pts .A ∈ QS) (in9_ : .pts .B ∈ QS) (in10_ : .mirOut .A ∈ QS) (in11_ : .mirOut .B ∈ QS) (in12_ : .restWait .A ∈ QS) (in13_ : .restWait .B ∈ QS) (in14_ : .part .A ∈ QS) (in15_ : .part .B ∈ QS) (in16_ : .ports .A ∈ QS) (in17_ : .ports .B ∈ QS) (in18_ : .bulk .A ∈ QS) (in19_ : .bulk .B ∈ QS) (in20_ : .twn .A ∈ QS) (in21_ : .twn .B ∈ QS) (in22_ : .cln .A ∈ QS) (in23_ : .cln .B ∈ QS) (in24_ : .pst .A ∈ QS) (in25_ : .pst .B ∈ QS) (in26_ : .cnp .A ∈ QS) (in27_ : .cnp .B ∈ QS) (in28_ : .safv .A ∈ QS) (in29_ : .safv .B ∈ QS) (in30_ : .pub .A ∈ QS) (in31_ : .pub .B ∈ QS) (in32_ : .thm .A ∈ QS) (in33_ : .thm .B ∈ QS) (in34_ : .mbx .A ∈ QS) (in35_ : .mbx .B ∈ QS) (in36_ : .tmr .A ∈ QS) (in37_ : .tmr .B ∈ QS) (in38_ : .ref ∈ QS) (in39_ : .ho ∈ QS) (in40_ : .veh ∈ QS) (in41_ : .vehG ∈ QS) (in42_ : .lkt ∈ QS) (in43_ : .upd ∈ QS) : Frame QS z0 (State.haltHalf s h) := Frame.via (frame_haltHalf s h) (Parts.regs in0_ (Parts.cons in1_ (Parts.cons in2_ (Parts.cons in3_ (Parts.cons in4_ (Parts.cons in5_ (Parts.cons in6_ (Parts.cons in7_ (Parts.cons in8_ (Parts.cons in9_ (Parts.cons in10_ (Parts.cons in11_ (Parts.cons in12_ (Parts.cons in13_ (Parts.cons in14_ (Parts.cons in15_ (Parts.cons in16_ (Parts.cons in17_ (Parts.cons in18_ (Parts.cons in19_ (Parts.cons in20_ (Parts.cons in21_ (Parts.cons in22_ (Parts.cons in23_ (Parts.cons in24_ (Parts.cons in25_ (Parts.cons in26_ (Parts.cons in27_ (Parts.cons in28_ (Parts.cons in29_ (Parts.cons in30_ (Parts.cons in31_ (Parts.cons in32_ (Parts.cons in33_ (Parts.cons in34_ (Parts.cons in35_ (Parts.cons in36_ (Parts.cons in37_ (Parts.cons in38_ (Parts.cons in39_ (Parts.cons in40_ (Parts.cons in41_ (Parts.cons in42_ (Parts.cons in43_ Parts.nil)))))))))))))))))))))))))))))))))))))))))))) fr_
theorem frame_resetShared (s : State) : Frame (allRegs ++ (([.pll, .lkt, .cans, .lsw, .mesh] : List Part))) s (State.resetShared s) := by
  have hs0 := fun ps => Frame.refl ps s
  unfold State.resetShared
  simp (maxDischargeDepth := 80) (contextual := true) [hs0]
@[simp] theorem Frame.after_resetShared {QS : List Part} {z0 s : State} (fr_ : Frame QS z0 s) (in0_ : ∀ b : Blk, .regs b ∈ QS) (in1_ : .pll ∈ QS) (in2_ : .lkt ∈ QS) (in3_ : .cans ∈ QS) (in4_ : .lsw ∈ QS) (in5_ : .mesh ∈ QS) : Frame QS z0 (State.resetShared s) := Frame.via (frame_resetShared s) (Parts.regs in0_ (Parts.cons in1_ (Parts.cons in2_ (Parts.cons in3_ (Parts.cons in4_ (Parts.cons in5_ Parts.nil)))))) fr_
theorem frame_resetN (s : State) (cause : Nat) : Frame (allRegs ++ (([.free, .shadow, .blocks, .tck .A, .tck .B, .stg .A, .stg .B, .pts .A, .pts .B, .mirOut .A, .mirOut .B, .restWait .A, .restWait .B, .part .A, .part .B, .ports .A, .ports .B, .bulk .A, .bulk .B, .twn .A, .twn .B, .cln .A, .cln .B, .pst .A, .pst .B, .cnp .A, .cnp .B, .safv .A, .safv .B, .pub .A, .pub .B, .thm .A, .thm .B, .mbx .A, .mbx .B, .tmr .A, .tmr .B, .ref, .ho, .pll, .veh, .vehG, .lkt, .cans, .lsw, .mesh, .upd] : List Part))) s (State.resetN s cause) := by
  have hs0 := fun ps => Frame.refl ps s
  unfold State.resetN
  simp (maxDischargeDepth := 80) (contextual := true) [hs0]
@[simp] theorem Frame.after_resetN {QS : List Part} {z0 s : State} (cause : Nat) (fr_ : Frame QS z0 s) (in0_ : ∀ b : Blk, .regs b ∈ QS) (in1_ : .free ∈ QS) (in2_ : .shadow ∈ QS) (in3_ : .blocks ∈ QS) (in4_ : .tck .A ∈ QS) (in5_ : .tck .B ∈ QS) (in6_ : .stg .A ∈ QS) (in7_ : .stg .B ∈ QS) (in8_ : .pts .A ∈ QS) (in9_ : .pts .B ∈ QS) (in10_ : .mirOut .A ∈ QS) (in11_ : .mirOut .B ∈ QS) (in12_ : .restWait .A ∈ QS) (in13_ : .restWait .B ∈ QS) (in14_ : .part .A ∈ QS) (in15_ : .part .B ∈ QS) (in16_ : .ports .A ∈ QS) (in17_ : .ports .B ∈ QS) (in18_ : .bulk .A ∈ QS) (in19_ : .bulk .B ∈ QS) (in20_ : .twn .A ∈ QS) (in21_ : .twn .B ∈ QS) (in22_ : .cln .A ∈ QS) (in23_ : .cln .B ∈ QS) (in24_ : .pst .A ∈ QS) (in25_ : .pst .B ∈ QS) (in26_ : .cnp .A ∈ QS) (in27_ : .cnp .B ∈ QS) (in28_ : .safv .A ∈ QS) (in29_ : .safv .B ∈ QS) (in30_ : .pub .A ∈ QS) (in31_ : .pub .B ∈ QS) (in32_ : .thm .A ∈ QS) (in33_ : .thm .B ∈ QS) (in34_ : .mbx .A ∈ QS) (in35_ : .mbx .B ∈ QS) (in36_ : .tmr .A ∈ QS) (in37_ : .tmr .B ∈ QS) (in38_ : .ref ∈ QS) (in39_ : .ho ∈ QS) (in40_ : .pll ∈ QS) (in41_ : .veh ∈ QS) (in42_ : .vehG ∈ QS) (in43_ : .lkt ∈ QS) (in44_ : .cans ∈ QS) (in45_ : .lsw ∈ QS) (in46_ : .mesh ∈ QS) (in47_ : .upd ∈ QS) : Frame QS z0 (State.resetN s cause) := Frame.via (frame_resetN s cause) (Parts.regs in0_ (Parts.cons in1_ (Parts.cons in2_ (Parts.cons in3_ (Parts.cons in4_ (Parts.cons in5_ (Parts.cons in6_ (Parts.cons in7_ (Parts.cons in8_ (Parts.cons in9_ (Parts.cons in10_ (Parts.cons in11_ (Parts.cons in12_ (Parts.cons in13_ (Parts.cons in14_ (Parts.cons in15_ (Parts.cons in16_ (Parts.cons in17_ (Parts.cons in18_ (Parts.cons in19_ (Parts.cons in20_ (Parts.cons in21_ (Parts.cons in22_ (Parts.cons in23_ (Parts.cons in24_ (Parts.cons in25_ (Parts.cons in26_ (Parts.cons in27_ (Parts.cons in28_ (Parts.cons in29_ (Parts.cons in30_ (Parts.cons in31_ (Parts.cons in32_ (Parts.cons in33_ (Parts.cons in34_ (Parts.cons in35_ (Parts.cons in36_ (Parts.cons in37_ (Parts.cons in38_ (Parts.cons in39_ (Parts.cons in40_ (Parts.cons in41_ (Parts.cons in42_ (Parts.cons in43_ (Parts.cons in44_ (Parts.cons in45_ (Parts.cons in46_ (Parts.cons in47_ Parts.nil)))))))))))))))))))))))))))))))))))))))))))))))) fr_
theorem frame_por (s : State) : Frame (allRegs ++ (([.free, .shadow, .blocks, .tck .A, .tck .B, .stg .A, .stg .B, .pts .A, .pts .B, .mirOut .A, .mirOut .B, .restWait .A, .restWait .B, .part .A, .part .B, .ports .A, .ports .B, .bulk .A, .bulk .B, .twn .A, .twn .B, .cln .A, .cln .B, .pst .A, .pst .B, .cnp .A, .cnp .B, .safv .A, .safv .B, .pub .A, .pub .B, .thm .A, .thm .B, .mbx .A, .mbx .B, .tmr .A, .tmr .B, .ref, .ho, .pll, .therm, .veh, .vehG, .met, .bil, .lkt, .saf, .cans, .lsw, .mesh, .upd] : List Part))) s (State.por s) := by
  have hs0 := fun ps => Frame.refl ps s
  unfold State.por
  simp (maxDischargeDepth := 80) (contextual := true) [hs0]
@[simp] theorem Frame.after_por {QS : List Part} {z0 s : State} (fr_ : Frame QS z0 s) (in0_ : ∀ b : Blk, .regs b ∈ QS) (in1_ : .free ∈ QS) (in2_ : .shadow ∈ QS) (in3_ : .blocks ∈ QS) (in4_ : .tck .A ∈ QS) (in5_ : .tck .B ∈ QS) (in6_ : .stg .A ∈ QS) (in7_ : .stg .B ∈ QS) (in8_ : .pts .A ∈ QS) (in9_ : .pts .B ∈ QS) (in10_ : .mirOut .A ∈ QS) (in11_ : .mirOut .B ∈ QS) (in12_ : .restWait .A ∈ QS) (in13_ : .restWait .B ∈ QS) (in14_ : .part .A ∈ QS) (in15_ : .part .B ∈ QS) (in16_ : .ports .A ∈ QS) (in17_ : .ports .B ∈ QS) (in18_ : .bulk .A ∈ QS) (in19_ : .bulk .B ∈ QS) (in20_ : .twn .A ∈ QS) (in21_ : .twn .B ∈ QS) (in22_ : .cln .A ∈ QS) (in23_ : .cln .B ∈ QS) (in24_ : .pst .A ∈ QS) (in25_ : .pst .B ∈ QS) (in26_ : .cnp .A ∈ QS) (in27_ : .cnp .B ∈ QS) (in28_ : .safv .A ∈ QS) (in29_ : .safv .B ∈ QS) (in30_ : .pub .A ∈ QS) (in31_ : .pub .B ∈ QS) (in32_ : .thm .A ∈ QS) (in33_ : .thm .B ∈ QS) (in34_ : .mbx .A ∈ QS) (in35_ : .mbx .B ∈ QS) (in36_ : .tmr .A ∈ QS) (in37_ : .tmr .B ∈ QS) (in38_ : .ref ∈ QS) (in39_ : .ho ∈ QS) (in40_ : .pll ∈ QS) (in41_ : .therm ∈ QS) (in42_ : .veh ∈ QS) (in43_ : .vehG ∈ QS) (in44_ : .met ∈ QS) (in45_ : .bil ∈ QS) (in46_ : .lkt ∈ QS) (in47_ : .saf ∈ QS) (in48_ : .cans ∈ QS) (in49_ : .lsw ∈ QS) (in50_ : .mesh ∈ QS) (in51_ : .upd ∈ QS) : Frame QS z0 (State.por s) := Frame.via (frame_por s) (Parts.regs in0_ (Parts.cons in1_ (Parts.cons in2_ (Parts.cons in3_ (Parts.cons in4_ (Parts.cons in5_ (Parts.cons in6_ (Parts.cons in7_ (Parts.cons in8_ (Parts.cons in9_ (Parts.cons in10_ (Parts.cons in11_ (Parts.cons in12_ (Parts.cons in13_ (Parts.cons in14_ (Parts.cons in15_ (Parts.cons in16_ (Parts.cons in17_ (Parts.cons in18_ (Parts.cons in19_ (Parts.cons in20_ (Parts.cons in21_ (Parts.cons in22_ (Parts.cons in23_ (Parts.cons in24_ (Parts.cons in25_ (Parts.cons in26_ (Parts.cons in27_ (Parts.cons in28_ (Parts.cons in29_ (Parts.cons in30_ (Parts.cons in31_ (Parts.cons in32_ (Parts.cons in33_ (Parts.cons in34_ (Parts.cons in35_ (Parts.cons in36_ (Parts.cons in37_ (Parts.cons in38_ (Parts.cons in39_ (Parts.cons in40_ (Parts.cons in41_ (Parts.cons in42_ (Parts.cons in43_ (Parts.cons in44_ (Parts.cons in45_ (Parts.cons in46_ (Parts.cons in47_ (Parts.cons in48_ (Parts.cons in49_ (Parts.cons in50_ (Parts.cons in51_ Parts.nil)))))))))))))))))))))))))))))))))))))))))))))))))))) fr_
theorem frame_shutRecord (s : State) (cause : Nat) (h : Half) (start : Nat) (pkg : Int) : Frame [.therm] s (State.shutRecord s cause h start pkg) := by
  have hs0 := fun ps => Frame.refl ps s
  unfold State.shutRecord
  simp (maxDischargeDepth := 80) (contextual := true) [hs0]
@[simp] theorem Frame.after_shutRecord {QS : List Part} {z0 s : State} (cause : Nat) (h : Half) (start : Nat) (pkg : Int) (fr_ : Frame QS z0 s) (in0_ : .therm ∈ QS) : Frame QS z0 (State.shutRecord s cause h start pkg) := Frame.via (frame_shutRecord s cause h start pkg) (Parts.cons in0_ Parts.nil) fr_
theorem frame_haltBoth (s : State) : Frame (allRegs ++ (([.free, .shadow, .blocks, .tck .A, .tck .B, .stg .A, .stg .B, .pts .A, .pts .B, .mirOut .A, .mirOut .B, .restWait .A, .restWait .B, .part .A, .part .B, .ports .A, .ports .B, .bulk .A, .bulk .B, .twn .A, .twn .B, .cln .A, .cln .B, .pst .A, .pst .B, .cnp .A, .cnp .B, .safv .A, .safv .B, .pub .A, .pub .B, .thm .A, .thm .B, .mbx .A, .mbx .B, .tmr .A, .tmr .B, .ref, .ho, .therm, .veh, .vehG, .lkt, .upd] : List Part))) s (State.haltBoth s) := by
  have hs0 := fun ps => Frame.refl ps s
  unfold State.haltBoth
  simp (maxDischargeDepth := 80) (contextual := true) [hs0]
@[simp] theorem Frame.after_haltBoth {QS : List Part} {z0 s : State} (fr_ : Frame QS z0 s) (in0_ : ∀ b : Blk, .regs b ∈ QS) (in1_ : .free ∈ QS) (in2_ : .shadow ∈ QS) (in3_ : .blocks ∈ QS) (in4_ : .tck .A ∈ QS) (in5_ : .tck .B ∈ QS) (in6_ : .stg .A ∈ QS) (in7_ : .stg .B ∈ QS) (in8_ : .pts .A ∈ QS) (in9_ : .pts .B ∈ QS) (in10_ : .mirOut .A ∈ QS) (in11_ : .mirOut .B ∈ QS) (in12_ : .restWait .A ∈ QS) (in13_ : .restWait .B ∈ QS) (in14_ : .part .A ∈ QS) (in15_ : .part .B ∈ QS) (in16_ : .ports .A ∈ QS) (in17_ : .ports .B ∈ QS) (in18_ : .bulk .A ∈ QS) (in19_ : .bulk .B ∈ QS) (in20_ : .twn .A ∈ QS) (in21_ : .twn .B ∈ QS) (in22_ : .cln .A ∈ QS) (in23_ : .cln .B ∈ QS) (in24_ : .pst .A ∈ QS) (in25_ : .pst .B ∈ QS) (in26_ : .cnp .A ∈ QS) (in27_ : .cnp .B ∈ QS) (in28_ : .safv .A ∈ QS) (in29_ : .safv .B ∈ QS) (in30_ : .pub .A ∈ QS) (in31_ : .pub .B ∈ QS) (in32_ : .thm .A ∈ QS) (in33_ : .thm .B ∈ QS) (in34_ : .mbx .A ∈ QS) (in35_ : .mbx .B ∈ QS) (in36_ : .tmr .A ∈ QS) (in37_ : .tmr .B ∈ QS) (in38_ : .ref ∈ QS) (in39_ : .ho ∈ QS) (in40_ : .therm ∈ QS) (in41_ : .veh ∈ QS) (in42_ : .vehG ∈ QS) (in43_ : .lkt ∈ QS) (in44_ : .upd ∈ QS) : Frame QS z0 (State.haltBoth s) := Frame.via (frame_haltBoth s) (Parts.regs in0_ (Parts.cons in1_ (Parts.cons in2_ (Parts.cons in3_ (Parts.cons in4_ (Parts.cons in5_ (Parts.cons in6_ (Parts.cons in7_ (Parts.cons in8_ (Parts.cons in9_ (Parts.cons in10_ (Parts.cons in11_ (Parts.cons in12_ (Parts.cons in13_ (Parts.cons in14_ (Parts.cons in15_ (Parts.cons in16_ (Parts.cons in17_ (Parts.cons in18_ (Parts.cons in19_ (Parts.cons in20_ (Parts.cons in21_ (Parts.cons in22_ (Parts.cons in23_ (Parts.cons in24_ (Parts.cons in25_ (Parts.cons in26_ (Parts.cons in27_ (Parts.cons in28_ (Parts.cons in29_ (Parts.cons in30_ (Parts.cons in31_ (Parts.cons in32_ (Parts.cons in33_ (Parts.cons in34_ (Parts.cons in35_ (Parts.cons in36_ (Parts.cons in37_ (Parts.cons in38_ (Parts.cons in39_ (Parts.cons in40_ (Parts.cons in41_ (Parts.cons in42_ (Parts.cons in43_ (Parts.cons in44_ Parts.nil))))))))))))))))))))))))))))))))))))))))))))) fr_
@[simp] theorem Frame.after_thmVerb {QS : List Part} {z s : State} (o : Org) (opc : Nat) (roles : List Nat) (body : State → Half → Nat → State) (fr_ : Frame QS z s) (in0_ : .mbx .A ∈ QS) (in1_ : .mbx .B ∈ QS)
    (hb_ : ∀ s x r, Frame QS z s → Frame QS z (body s x r)) : Frame QS z (s.thmVerb o opc roles body) := by
  unfold State.thmVerb; split
  · exact Frame.after_verbHere _ _ _ _ fr_ in0_ in1_ (fun s r hs => hb_ s _ r hs)
  · exact Frame.after_verb _ _ _ _ fr_ in0_ in1_ hb_

end Sys2Proof.Machine
end

