-- ==== Sys2Proof/Laws/FramePower.lean ====
section
/-!
SUPPORT. Which parts of the state each operation of Machine/Power.lean may change, and the same as one more step of a framed run.
-/

namespace Sys2Proof.Machine

set_option maxRecDepth 4000

theorem frame_mPwr (s : State) (f : PwrS → PwrS) : Frame [.pwr] s (State.mPwr s f) := by
  have hs0 := fun ps => Frame.refl ps s
  unfold State.mPwr
  simp (maxDischargeDepth := 80) (contextual := true) [hs0]
@[simp] theorem Frame.after_mPwr {QS : List Part} {z0 s : State} (f : PwrS → PwrS) (fr_ : Frame QS z0 s) (in0_ : .pwr ∈ QS) : Frame QS z0 (State.mPwr s f) := Frame.via (frame_mPwr s f) (Parts.cons in0_ Parts.nil) fr_
theorem frame_setVhold (s : State) (v : Nat) : Frame [.regs .pwr] s (State.setVhold s v) := by
  have hs0 := fun ps => Frame.refl ps s
  unfold State.setVhold
  simp (maxDischargeDepth := 80) (contextual := true) [hs0]
@[simp] theorem Frame.after_setVhold {QS : List Part} {z0 s : State} (v : Nat) (fr_ : Frame QS z0 s) (in0_ : .regs .pwr ∈ QS) : Frame QS z0 (State.setVhold s v) := Frame.via (frame_setVhold s v) (Parts.cons in0_ Parts.nil) fr_
theorem frame_dropRegs (s : State) (l : List Blk) : Frame (allRegs ++ (([] : List Part))) s (State.dropRegs s l) := by
  have hs0 := fun ps => Frame.refl ps s
  unfold State.dropRegs
  simp (maxDischargeDepth := 80) (contextual := true) [hs0]
@[simp] theorem Frame.after_dropRegs {QS : List Part} {z0 s : State} (l : List Blk) (fr_ : Frame QS z0 s) (in0_ : ∀ b : Blk, .regs b ∈ QS) : Frame QS z0 (State.dropRegs s l) := Frame.via (frame_dropRegs s l) (Parts.regs in0_ Parts.nil) fr_
theorem frame_battLost (s : State) : Frame [.free, .rtc, .pwr] s (State.battLost s) := by
  have hs0 := fun ps => Frame.refl ps s
  unfold State.battLost
  simp (maxDischargeDepth := 80) (contextual := true) [hs0]
@[simp] theorem Frame.after_battLost {QS : List Part} {z0 s : State} (fr_ : Frame QS z0 s) (in0_ : .free ∈ QS) (in1_ : .rtc ∈ QS) (in2_ : .pwr ∈ QS) : Frame QS z0 (State.battLost s) := Frame.via (frame_battLost s) (Parts.cons in0_ (Parts.cons in1_ (Parts.cons in2_ Parts.nil))) fr_
theorem frame_flashDrain (s : State) (h : Half) : Frame [.thm .A, .thm .B] s (flashDrain s h) := by
  have hs0 := fun ps => Frame.refl ps s
  unfold flashDrain
  simp (maxDischargeDepth := 80) (contextual := true) [hs0]
@[simp] theorem Frame.after_flashDrain {QS : List Part} {z0 s : State} (h : Half) (fr_ : Frame QS z0 s) (in0_ : .thm .A ∈ QS) (in1_ : .thm .B ∈ QS) : Frame QS z0 (flashDrain s h) := Frame.via (frame_flashDrain s h) (Parts.cons in0_ (Parts.cons in1_ Parts.nil)) fr_
theorem frame_sleepHalf (s : State) (h : Half) : Frame [.regs .twn, .blocks, .tck .A, .tck .B, .ports .A, .ports .B, .twn .A, .twn .B, .cln .A, .cln .B, .mbx .A, .mbx .B, .ref, .ho] s (sleepHalf s h) := by
  have hs0 := fun ps => Frame.refl ps s
  unfold sleepHalf
  simp (maxDischargeDepth := 80) (contextual := true) [hs0]
@[simp] theorem Frame.after_sleepHalf {QS : List Part} {z0 s : State} (h : Half) (fr_ : Frame QS z0 s) (in0_ : .regs .twn ∈ QS) (in1_ : .blocks ∈ QS) (in2_ : .tck .A ∈ QS) (in3_ : .tck .B ∈ QS) (in4_ : .ports .A ∈ QS) (in5_ : .ports .B ∈ QS) (in6_ : .twn .A ∈ QS) (in7_ : .twn .B ∈ QS) (in8_ : .cln .A ∈ QS) (in9_ : .cln .B ∈ QS) (in10_ : .mbx .A ∈ QS) (in11_ : .mbx .B ∈ QS) (in12_ : .ref ∈ QS) (in13_ : .ho ∈ QS) : Frame QS z0 (sleepHalf s h) := Frame.via (frame_sleepHalf s h) (Parts.cons in0_ (Parts.cons in1_ (Parts.cons in2_ (Parts.cons in3_ (Parts.cons in4_ (Parts.cons in5_ (Parts.cons in6_ (Parts.cons in7_ (Parts.cons in8_ (Parts.cons in9_ (Parts.cons in10_ (Parts.cons in11_ (Parts.cons in12_ (Parts.cons in13_ Parts.nil)))))))))))))) fr_
theorem frame_wakeHalf (s : State) (h : Half) : Frame [.twn .A, .twn .B] s (wakeHalf s h) := by
  have hs0 := fun ps => Frame.refl ps s
  unfold wakeHalf
  simp (maxDischargeDepth := 80) (contextual := true) [hs0]
@[simp] theorem Frame.after_wakeHalf {QS : List Part} {z0 s : State} (h : Half) (fr_ : Frame QS z0 s) (in0_ : .twn .A ∈ QS) (in1_ : .twn .B ∈ QS) : Frame QS z0 (wakeHalf s h) := Frame.via (frame_wakeHalf s h) (Parts.cons in0_ (Parts.cons in1_ Parts.nil)) fr_
theorem frame_denyPower (s : State) (why : Nat) : Frame [.regs .pwr] s (State.denyPower s why) := by
  have hs0 := fun ps => Frame.refl ps s
  unfold State.denyPower
  simp (maxDischargeDepth := 80) (contextual := true) [hs0]
@[simp] theorem Frame.after_denyPower {QS : List Part} {z0 s : State} (why : Nat) (fr_ : Frame QS z0 s) (in0_ : .regs .pwr ∈ QS) : Frame QS z0 (State.denyPower s why) := Frame.via (frame_denyPower s why) (Parts.cons in0_ Parts.nil) fr_
theorem frame_showPower (s : State) (n : Nat) : Frame [.regs .pwr, .pwr] s (State.showPower s n) := by
  have hs0 := fun ps => Frame.refl ps s
  unfold State.showPower
  simp (maxDischargeDepth := 80) (contextual := true) [hs0]
@[simp] theorem Frame.after_showPower {QS : List Part} {z0 s : State} (n : Nat) (fr_ : Frame QS z0 s) (in0_ : .regs .pwr ∈ QS) (in1_ : .pwr ∈ QS) : Frame QS z0 (State.showPower s n) := Frame.via (frame_showPower s n) (Parts.cons in0_ (Parts.cons in1_ Parts.nil)) fr_
theorem frame_sleepHalves (s : State) (n : Nat) : Frame [.regs .twn, .blocks, .tck .A, .tck .B, .ports .A, .ports .B, .twn .A, .twn .B, .cln .A, .cln .B, .mbx .A, .mbx .B, .ref, .ho] s (State.sleepHalves s n) := by
  have hs0 := fun ps => Frame.refl ps s
  unfold State.sleepHalves
  simp (maxDischargeDepth := 80) (contextual := true) [hs0]
@[simp] theorem Frame.after_sleepHalves {QS : List Part} {z0 s : State} (n : Nat) (fr_ : Frame QS z0 s) (in0_ : .regs .twn ∈ QS) (in1_ : .blocks ∈ QS) (in2_ : .tck .A ∈ QS) (in3_ : .tck .B ∈ QS) (in4_ : .ports .A ∈ QS) (in5_ : .ports .B ∈ QS) (in6_ : .twn .A ∈ QS) (in7_ : .twn .B ∈ QS) (in8_ : .cln .A ∈ QS) (in9_ : .cln .B ∈ QS) (in10_ : .mbx .A ∈ QS) (in11_ : .mbx .B ∈ QS) (in12_ : .ref ∈ QS) (in13_ : .ho ∈ QS) : Frame QS z0 (State.sleepHalves s n) := Frame.via (frame_sleepHalves s n) (Parts.cons in0_ (Parts.cons in1_ (Parts.cons in2_ (Parts.cons in3_ (Parts.cons in4_ (Parts.cons in5_ (Parts.cons in6_ (Parts.cons in7_ (Parts.cons in8_ (Parts.cons in9_ (Parts.cons in10_ (Parts.cons in11_ (Parts.cons in12_ (Parts.cons in13_ Parts.nil)))))))))))))) fr_
theorem frame_sleepShared (s : State) (n : Nat) : Frame (allRegs ++ (([.saf, .lsw, .upd] : List Part))) s (State.sleepShared s n) := by
  have hs0 := fun ps => Frame.refl ps s
  unfold State.sleepShared
  simp (maxDischargeDepth := 80) (contextual := true) [hs0]
@[simp] theorem Frame.after_sleepShared {QS : List Part} {z0 s : State} (n : Nat) (fr_ : Frame QS z0 s) (in0_ : ∀ b : Blk, .regs b ∈ QS) (in1_ : .saf ∈ QS) (in2_ : .lsw ∈ QS) (in3_ : .upd ∈ QS) : Frame QS z0 (State.sleepShared s n) := Frame.via (frame_sleepShared s n) (Parts.regs in0_ (Parts.cons in1_ (Parts.cons in2_ (Parts.cons in3_ Parts.nil)))) fr_
theorem frame_enterPower (s : State) (n : Nat) : Frame (allRegs ++ (([.blocks, .tck .A, .tck .B, .ports .A, .ports .B, .twn .A, .twn .B, .cln .A, .cln .B, .mbx .A, .mbx .B, .ref, .ho, .saf, .lsw, .upd, .pwr] : List Part))) s (State.enterPower s n) := by
  have hs0 := fun ps => Frame.refl ps s
  unfold State.enterPower
  simp (maxDischargeDepth := 80) (contextual := true) [hs0]
@[simp] theorem Frame.after_enterPower {QS : List Part} {z0 s : State} (n : Nat) (fr_ : Frame QS z0 s) (in0_ : ∀ b : Blk, .regs b ∈ QS) (in1_ : .blocks ∈ QS) (in2_ : .tck .A ∈ QS) (in3_ : .tck .B ∈ QS) (in4_ : .ports .A ∈ QS) (in5_ : .ports .B ∈ QS) (in6_ : .twn .A ∈ QS) (in7_ : .twn .B ∈ QS) (in8_ : .cln .A ∈ QS) (in9_ : .cln .B ∈ QS) (in10_ : .mbx .A ∈ QS) (in11_ : .mbx .B ∈ QS) (in12_ : .ref ∈ QS) (in13_ : .ho ∈ QS) (in14_ : .saf ∈ QS) (in15_ : .lsw ∈ QS) (in16_ : .upd ∈ QS) (in17_ : .pwr ∈ QS) : Frame QS z0 (State.enterPower s n) := Frame.via (frame_enterPower s n) (Parts.regs in0_ (Parts.cons in1_ (Parts.cons in2_ (Parts.cons in3_ (Parts.cons in4_ (Parts.cons in5_ (Parts.cons in6_ (Parts.cons in7_ (Parts.cons in8_ (Parts.cons in9_ (Parts.cons in10_ (Parts.cons in11_ (Parts.cons in12_ (Parts.cons in13_ (Parts.cons in14_ (Parts.cons in15_ (Parts.cons in16_ (Parts.cons in17_ Parts.nil)))))))))))))))))) fr_
theorem frame_powerTarget (s : State) (target : Nat) : Frame (allRegs ++ (([.blocks, .tck .A, .tck .B, .ports .A, .ports .B, .twn .A, .twn .B, .cln .A, .cln .B, .mbx .A, .mbx .B, .ref, .ho, .saf, .lsw, .upd, .pwr] : List Part))) s (State.powerTarget s target) := by
  have hs0 := fun ps => Frame.refl ps s
  unfold State.powerTarget
  simp (maxDischargeDepth := 80) (contextual := true) [hs0]
@[simp] theorem Frame.after_powerTarget {QS : List Part} {z0 s : State} (target : Nat) (fr_ : Frame QS z0 s) (in0_ : ∀ b : Blk, .regs b ∈ QS) (in1_ : .blocks ∈ QS) (in2_ : .tck .A ∈ QS) (in3_ : .tck .B ∈ QS) (in4_ : .ports .A ∈ QS) (in5_ : .ports .B ∈ QS) (in6_ : .twn .A ∈ QS) (in7_ : .twn .B ∈ QS) (in8_ : .cln .A ∈ QS) (in9_ : .cln .B ∈ QS) (in10_ : .mbx .A ∈ QS) (in11_ : .mbx .B ∈ QS) (in12_ : .ref ∈ QS) (in13_ : .ho ∈ QS) (in14_ : .saf ∈ QS) (in15_ : .lsw ∈ QS) (in16_ : .upd ∈ QS) (in17_ : .pwr ∈ QS) : Frame QS z0 (State.powerTarget s target) := Frame.via (frame_powerTarget s target) (Parts.regs in0_ (Parts.cons in1_ (Parts.cons in2_ (Parts.cons in3_ (Parts.cons in4_ (Parts.cons in5_ (Parts.cons in6_ (Parts.cons in7_ (Parts.cons in8_ (Parts.cons in9_ (Parts.cons in10_ (Parts.cons in11_ (Parts.cons in12_ (Parts.cons in13_ (Parts.cons in14_ (Parts.cons in15_ (Parts.cons in16_ (Parts.cons in17_ Parts.nil)))))))))))))))))) fr_
theorem frame_wakeUp (s : State) : Frame [.regs .pwr, .pts .A, .pts .B, .twn .A, .twn .B, .pub .A, .pub .B, .met, .lkt, .pwr] s (State.wakeUp s) := by
  have hs0 := fun ps => Frame.refl ps s
  unfold State.wakeUp
  simp (maxDischargeDepth := 80) (contextual := true) [hs0]
@[simp] theorem Frame.after_wakeUp {QS : List Part} {z0 s : State} (fr_ : Frame QS z0 s) (in0_ : .regs .pwr ∈ QS) (in1_ : .pts .A ∈ QS) (in2_ : .pts .B ∈ QS) (in3_ : .twn .A ∈ QS) (in4_ : .twn .B ∈ QS) (in5_ : .pub .A ∈ QS) (in6_ : .pub .B ∈ QS) (in7_ : .met ∈ QS) (in8_ : .lkt ∈ QS) (in9_ : .pwr ∈ QS) : Frame QS z0 (State.wakeUp s) := Frame.via (frame_wakeUp s) (Parts.cons in0_ (Parts.cons in1_ (Parts.cons in2_ (Parts.cons in3_ (Parts.cons in4_ (Parts.cons in5_ (Parts.cons in6_ (Parts.cons in7_ (Parts.cons in8_ (Parts.cons in9_ Parts.nil)))))))))) fr_

end Sys2Proof.Machine
end

