-- ==== Sys2Proof/Laws/FrameRegisters.lean ====
section
/-!
SUPPORT. Which parts of the state each operation of Machine/Registers.lean may change, and the same as one more step of a framed run.
-/

namespace Sys2Proof.Machine

set_option maxRecDepth 4000

theorem frame_putBits (s : State) (b : Blk) (h : Half) (off : Nat) (v : Word) : Frame [.regs b] s (State.putBits s b h off v) := by
  have hs0 := fun ps => Frame.refl ps s
  unfold State.putBits
  simp (maxDischargeDepth := 80) (contextual := true) [hs0]
@[simp] theorem Frame.after_putBits {QS : List Part} {z0 s : State} (b : Blk) (h : Half) (off : Nat) (v : Word) (fr_ : Frame QS z0 s) (in0_ : .regs b ∈ QS) : Frame QS z0 (State.putBits s b h off v) := Frame.via (frame_putBits s b h off v) (Parts.cons in0_ Parts.nil) fr_
theorem frame_mbxPut (s : State) (h : Half) (off : Nat) (v : Word) : Frame [.free, .regs .mbx, .mbx .A, .mbx .B, .lkt] s (State.mbxPut s h off v) := by
  have hs0 := fun ps => Frame.refl ps s
  unfold State.mbxPut
  try dsimp only
  repeat'
    first
    | (simp (maxDischargeDepth := 80) (contextual := true) [hs0, *]; done)
    | split
    | (with_reducible refine Frame.after_ite ?_ ?_)
    | (with_reducible refine Frame.after_foldl _ _ (fun _ _ _ => ?_) ?_)
@[simp] theorem Frame.after_mbxPut {QS : List Part} {z0 s : State} (h : Half) (off : Nat) (v : Word) (fr_ : Frame QS z0 s) (in0_ : .free ∈ QS) (in1_ : .regs .mbx ∈ QS) (in2_ : .mbx .A ∈ QS) (in3_ : .mbx .B ∈ QS) (in4_ : .lkt ∈ QS) : Frame QS z0 (State.mbxPut s h off v) := Frame.via (frame_mbxPut s h off v) (Parts.cons in0_ (Parts.cons in1_ (Parts.cons in2_ (Parts.cons in3_ (Parts.cons in4_ Parts.nil))))) fr_
theorem frame_txPut (s : State) (n : Nat) (b : Nat) (v : Word) : Frame [.regs .can, .cans] s (State.txPut s n b v) := by
  have hs0 := fun ps => Frame.refl ps s
  unfold State.txPut
  simp (maxDischargeDepth := 80) (contextual := true) [hs0]
@[simp] theorem Frame.after_txPut {QS : List Part} {z0 s : State} (n : Nat) (b : Nat) (v : Word) (fr_ : Frame QS z0 s) (in0_ : .regs .can ∈ QS) (in1_ : .cans ∈ QS) : Frame QS z0 (State.txPut s n b v) := Frame.via (frame_txPut s n b v) (Parts.cons in0_ (Parts.cons in1_ Parts.nil)) fr_
theorem frame_canPut (s : State) (n : Nat) (o : Nat) (v : Word) : Frame [.regs .can, .mbx .A, .mbx .B, .cans] s (State.canPut s n o v) := by
  have hs0 := fun ps => Frame.refl ps s
  unfold State.canPut
  dsimp only
  repeat' (with_reducible refine Frame.after_ite ?_ ?_)
  all_goals simp (maxDischargeDepth := 80) (contextual := true) [hs0]
@[simp] theorem Frame.after_canPut {QS : List Part} {z0 s : State} (n : Nat) (o : Nat) (v : Word) (fr_ : Frame QS z0 s) (in0_ : .regs .can ∈ QS) (in1_ : .mbx .A ∈ QS) (in2_ : .mbx .B ∈ QS) (in3_ : .cans ∈ QS) : Frame QS z0 (State.canPut s n o v) := Frame.via (frame_canPut s n o v) (Parts.cons in0_ (Parts.cons in1_ (Parts.cons in2_ (Parts.cons in3_ Parts.nil)))) fr_
theorem frame_gpioPut (s : State) (off : Nat) (v : Word) : Frame [.regs .gpio] s (State.gpioPut s off v) := by
  have hs0 := fun ps => Frame.refl ps s
  unfold State.gpioPut
  try dsimp only
  repeat'
    first
    | (simp (maxDischargeDepth := 80) (contextual := true) [hs0, *]; done)
    | split
    | (with_reducible refine Frame.after_ite ?_ ?_)
    | (with_reducible refine Frame.after_foldl _ _ (fun _ _ _ => ?_) ?_)
@[simp] theorem Frame.after_gpioPut {QS : List Part} {z0 s : State} (off : Nat) (v : Word) (fr_ : Frame QS z0 s) (in0_ : .regs .gpio ∈ QS) : Frame QS z0 (State.gpioPut s off v) := Frame.via (frame_gpioPut s off v) (Parts.cons in0_ Parts.nil) fr_
theorem frame_lswPut (s : State) (off : Nat) (v : Word) : Frame [.regs .lsw, .lsw] s (State.lswPut s off v) := by
  have hs0 := fun ps => Frame.refl ps s
  unfold State.lswPut
  simp (maxDischargeDepth := 80) (contextual := true) [hs0]
@[simp] theorem Frame.after_lswPut {QS : List Part} {z0 s : State} (off : Nat) (v : Word) (fr_ : Frame QS z0 s) (in0_ : .regs .lsw ∈ QS) (in1_ : .lsw ∈ QS) : Frame QS z0 (State.lswPut s off v) := Frame.via (frame_lswPut s off v) (Parts.cons in0_ (Parts.cons in1_ Parts.nil)) fr_
theorem frame_rmsPut (s : State) (off : Nat) (v : Word) : Frame [.regs .rms, .mesh] s (State.rmsPut s off v) := by
  have hs0 := fun ps => Frame.refl ps s
  unfold State.rmsPut
  simp (maxDischargeDepth := 80) (contextual := true) [hs0]
@[simp] theorem Frame.after_rmsPut {QS : List Part} {z0 s : State} (off : Nat) (v : Word) (fr_ : Frame QS z0 s) (in0_ : .regs .rms ∈ QS) (in1_ : .mesh ∈ QS) : Frame QS z0 (State.rmsPut s off v) := Frame.via (frame_rmsPut s off v) (Parts.cons in0_ (Parts.cons in1_ Parts.nil)) fr_
theorem frame_pwrPut (s : State) (off : Nat) (v : Word) : Frame (allRegs ++ (([.blocks, .tck .A, .tck .B, .ports .A, .ports .B, .twn .A, .twn .B, .cln .A, .cln .B, .mbx .A, .mbx .B, .ref, .ho, .saf, .lsw, .upd, .pwr] : List Part))) s (State.pwrPut s off v) := by
  have hs0 := fun ps => Frame.refl ps s
  unfold State.pwrPut
  simp (maxDischargeDepth := 80) (contextual := true) [hs0]
@[simp] theorem Frame.after_pwrPut {QS : List Part} {z0 s : State} (off : Nat) (v : Word) (fr_ : Frame QS z0 s) (in0_ : ∀ b : Blk, .regs b ∈ QS) (in1_ : .blocks ∈ QS) (in2_ : .tck .A ∈ QS) (in3_ : .tck .B ∈ QS) (in4_ : .ports .A ∈ QS) (in5_ : .ports .B ∈ QS) (in6_ : .twn .A ∈ QS) (in7_ : .twn .B ∈ QS) (in8_ : .cln .A ∈ QS) (in9_ : .cln .B ∈ QS) (in10_ : .mbx .A ∈ QS) (in11_ : .mbx .B ∈ QS) (in12_ : .ref ∈ QS) (in13_ : .ho ∈ QS) (in14_ : .saf ∈ QS) (in15_ : .lsw ∈ QS) (in16_ : .upd ∈ QS) (in17_ : .pwr ∈ QS) : Frame QS z0 (State.pwrPut s off v) := Frame.via (frame_pwrPut s off v) (Parts.regs in0_ (Parts.cons in1_ (Parts.cons in2_ (Parts.cons in3_ (Parts.cons in4_ (Parts.cons in5_ (Parts.cons in6_ (Parts.cons in7_ (Parts.cons in8_ (Parts.cons in9_ (Parts.cons in10_ (Parts.cons in11_ (Parts.cons in12_ (Parts.cons in13_ (Parts.cons in14_ (Parts.cons in15_ (Parts.cons in16_ (Parts.cons in17_ Parts.nil)))))))))))))))))) fr_
theorem frame_locPut (s : State) (h : Half) (off : Nat) (v : Word) : Frame [.free, .regs .loc, .tmr .A, .tmr .B] s (State.locPut s h off v) := by
  have hs0 := fun ps => Frame.refl ps s
  unfold State.locPut
  simp (maxDischargeDepth := 80) (contextual := true) [hs0]
@[simp] theorem Frame.after_locPut {QS : List Part} {z0 s : State} (h : Half) (off : Nat) (v : Word) (fr_ : Frame QS z0 s) (in0_ : .free ∈ QS) (in1_ : .regs .loc ∈ QS) (in2_ : .tmr .A ∈ QS) (in3_ : .tmr .B ∈ QS) : Frame QS z0 (State.locPut s h off v) := Frame.via (frame_locPut s h off v) (Parts.cons in0_ (Parts.cons in1_ (Parts.cons in2_ (Parts.cons in3_ Parts.nil)))) fr_
theorem frame_putDirect (s : State) (b : Blk) (h : Half) (off : Nat) (v : Word) : Frame (allRegs ++ (([.free, .blocks, .tck .A, .tck .B, .ports .A, .ports .B, .twn .A, .twn .B, .cln .A, .cln .B, .mbx .A, .mbx .B, .tmr .A, .tmr .B, .ref, .ho, .lkt, .saf, .cans, .lsw, .mesh, .upd, .pwr] : List Part))) s (State.putDirect s b h off v) := by
  have hs0 := fun ps => Frame.refl ps s
  unfold State.putDirect
  try dsimp only
  repeat'
    first
    | (simp (maxDischargeDepth := 80) (contextual := true) [hs0, *]; done)
    | split
    | (with_reducible refine Frame.after_ite ?_ ?_)
    | (with_reducible refine Frame.after_foldl _ _ (fun _ _ _ => ?_) ?_)
@[simp] theorem Frame.after_putDirect {QS : List Part} {z0 s : State} (b : Blk) (h : Half) (off : Nat) (v : Word) (fr_ : Frame QS z0 s) (in0_ : ∀ b : Blk, .regs b ∈ QS) (in1_ : .free ∈ QS) (in2_ : .blocks ∈ QS) (in3_ : .tck .A ∈ QS) (in4_ : .tck .B ∈ QS) (in5_ : .ports .A ∈ QS) (in6_ : .ports .B ∈ QS) (in7_ : .twn .A ∈ QS) (in8_ : .twn .B ∈ QS) (in9_ : .cln .A ∈ QS) (in10_ : .cln .B ∈ QS) (in11_ : .mbx .A ∈ QS) (in12_ : .mbx .B ∈ QS) (in13_ : .tmr .A ∈ QS) (in14_ : .tmr .B ∈ QS) (in15_ : .ref ∈ QS) (in16_ : .ho ∈ QS) (in17_ : .lkt ∈ QS) (in18_ : .saf ∈ QS) (in19_ : .cans ∈ QS) (in20_ : .lsw ∈ QS) (in21_ : .mesh ∈ QS) (in22_ : .upd ∈ QS) (in23_ : .pwr ∈ QS) : Frame QS z0 (State.putDirect s b h off v) := Frame.via (frame_putDirect s b h off v) (Parts.regs in0_ (Parts.cons in1_ (Parts.cons in2_ (Parts.cons in3_ (Parts.cons in4_ (Parts.cons in5_ (Parts.cons in6_ (Parts.cons in7_ (Parts.cons in8_ (Parts.cons in9_ (Parts.cons in10_ (Parts.cons in11_ (Parts.cons in12_ (Parts.cons in13_ (Parts.cons in14_ (Parts.cons in15_ (Parts.cons in16_ (Parts.cons in17_ (Parts.cons in18_ (Parts.cons in19_ (Parts.cons in20_ (Parts.cons in21_ (Parts.cons in22_ (Parts.cons in23_ Parts.nil)))))))))))))))))))))))) fr_
theorem frame_putLocked (s : State) (b : Blk) (h : Half) (off : Nat) (v : Word) : Frame (allRegs ++ (([] : List Part))) s (State.putLocked s b h off v) := by
  have hs0 := fun ps => Frame.refl ps s
  unfold State.putLocked
  simp (maxDischargeDepth := 80) (contextual := true) [hs0]
@[simp] theorem Frame.after_putLocked {QS : List Part} {z0 s : State} (b : Blk) (h : Half) (off : Nat) (v : Word) (fr_ : Frame QS z0 s) (in0_ : ∀ b : Blk, .regs b ∈ QS) : Frame QS z0 (State.putLocked s b h off v) := Frame.via (frame_putLocked s b h off v) (Parts.regs in0_ Parts.nil) fr_
theorem frame_markPort (s : State) (b : Blk) (off : Nat) : Frame [.ports .A, .ports .B] s (State.markPort s b off) := by
  have hs0 := fun ps => Frame.refl ps s
  unfold State.markPort
  simp (maxDischargeDepth := 80) (contextual := true) [hs0]
@[simp] theorem Frame.after_markPort {QS : List Part} {z0 s : State} (b : Blk) (off : Nat) (fr_ : Frame QS z0 s) (in0_ : .ports .A ∈ QS) (in1_ : .ports .B ∈ QS) : Frame QS z0 (State.markPort s b off) := Frame.via (frame_markPort s b off) (Parts.cons in0_ (Parts.cons in1_ Parts.nil)) fr_
theorem frame_putShadow (s : State) (b : Blk) (h : Half) (off : Nat) (v : Word) : Frame [.shadow, .ports .A, .ports .B, .cln .A, .cln .B] s (State.putShadow s b h off v) := by
  have hs0 := fun ps => Frame.refl ps s
  unfold State.putShadow
  simp (maxDischargeDepth := 80) (contextual := true) [hs0]
@[simp] theorem Frame.after_putShadow {QS : List Part} {z0 s : State} (b : Blk) (h : Half) (off : Nat) (v : Word) (fr_ : Frame QS z0 s) (in0_ : .shadow ∈ QS) (in1_ : .ports .A ∈ QS) (in2_ : .ports .B ∈ QS) (in3_ : .cln .A ∈ QS) (in4_ : .cln .B ∈ QS) : Frame QS z0 (State.putShadow s b h off v) := Frame.via (frame_putShadow s b h off v) (Parts.cons in0_ (Parts.cons in1_ (Parts.cons in2_ (Parts.cons in3_ (Parts.cons in4_ Parts.nil))))) fr_
theorem frame_putWord (s : State) (b : Blk) (h : Half) (off : Nat) (v : Word) : Frame (allRegs ++ (([.free, .shadow, .blocks, .tck .A, .tck .B, .ports .A, .ports .B, .twn .A, .twn .B, .cln .A, .cln .B, .mbx .A, .mbx .B, .tmr .A, .tmr .B, .ref, .ho, .lkt, .saf, .cans, .lsw, .mesh, .upd, .pwr] : List Part))) s (State.putWord s b h off v) := by
  have hs0 := fun ps => Frame.refl ps s
  unfold State.putWord
  simp (maxDischargeDepth := 80) (contextual := true) [hs0]
@[simp] theorem Frame.after_putWord {QS : List Part} {z0 s : State} (b : Blk) (h : Half) (off : Nat) (v : Word) (fr_ : Frame QS z0 s) (in0_ : ∀ b : Blk, .regs b ∈ QS) (in1_ : .free ∈ QS) (in2_ : .shadow ∈ QS) (in3_ : .blocks ∈ QS) (in4_ : .tck .A ∈ QS) (in5_ : .tck .B ∈ QS) (in6_ : .ports .A ∈ QS) (in7_ : .ports .B ∈ QS) (in8_ : .twn .A ∈ QS) (in9_ : .twn .B ∈ QS) (in10_ : .cln .A ∈ QS) (in11_ : .cln .B ∈ QS) (in12_ : .mbx .A ∈ QS) (in13_ : .mbx .B ∈ QS) (in14_ : .tmr .A ∈ QS) (in15_ : .tmr .B ∈ QS) (in16_ : .ref ∈ QS) (in17_ : .ho ∈ QS) (in18_ : .lkt ∈ QS) (in19_ : .saf ∈ QS) (in20_ : .cans ∈ QS) (in21_ : .lsw ∈ QS) (in22_ : .mesh ∈ QS) (in23_ : .upd ∈ QS) (in24_ : .pwr ∈ QS) : Frame QS z0 (State.putWord s b h off v) := Frame.via (frame_putWord s b h off v) (Parts.regs in0_ (Parts.cons in1_ (Parts.cons in2_ (Parts.cons in3_ (Parts.cons in4_ (Parts.cons in5_ (Parts.cons in6_ (Parts.cons in7_ (Parts.cons in8_ (Parts.cons in9_ (Parts.cons in10_ (Parts.cons in11_ (Parts.cons in12_ (Parts.cons in13_ (Parts.cons in14_ (Parts.cons in15_ (Parts.cons in16_ (Parts.cons in17_ (Parts.cons in18_ (Parts.cons in19_ (Parts.cons in20_ (Parts.cons in21_ (Parts.cons in22_ (Parts.cons in23_ (Parts.cons in24_ Parts.nil))))))))))))))))))))))))) fr_
theorem frame_cfgPut (s : State) (t : Half) (e : Blk × Nat × Word) : Frame (allRegs ++ (([.free, .shadow, .blocks, .tck .A, .tck .B, .ports .A, .ports .B, .twn .A, .twn .B, .cln .A, .cln .B, .mbx .A, .mbx .B, .tmr .A, .tmr .B, .ref, .ho, .lkt, .saf, .cans, .lsw, .mesh, .upd, .pwr] : List Part))) s (State.cfgPut s t e) := by
  have hs0 := fun ps => Frame.refl ps s
  unfold State.cfgPut
  simp (maxDischargeDepth := 80) (contextual := true) [hs0]
@[simp] theorem Frame.after_cfgPut {QS : List Part} {z0 s : State} (t : Half) (e : Blk × Nat × Word) (fr_ : Frame QS z0 s) (in0_ : ∀ b : Blk, .regs b ∈ QS) (in1_ : .free ∈ QS) (in2_ : .shadow ∈ QS) (in3_ : .blocks ∈ QS) (in4_ : .tck .A ∈ QS) (in5_ : .tck .B ∈ QS) (in6_ : .ports .A ∈ QS) (in7_ : .ports .B ∈ QS) (in8_ : .twn .A ∈ QS) (in9_ : .twn .B ∈ QS) (in10_ : .cln .A ∈ QS) (in11_ : .cln .B ∈ QS) (in12_ : .mbx .A ∈ QS) (in13_ : .mbx .B ∈ QS) (in14_ : .tmr .A ∈ QS) (in15_ : .tmr .B ∈ QS) (in16_ : .ref ∈ QS) (in17_ : .ho ∈ QS) (in18_ : .lkt ∈ QS) (in19_ : .saf ∈ QS) (in20_ : .cans ∈ QS) (in21_ : .lsw ∈ QS) (in22_ : .mesh ∈ QS) (in23_ : .upd ∈ QS) (in24_ : .pwr ∈ QS) : Frame QS z0 (State.cfgPut s t e) := Frame.via (frame_cfgPut s t e) (Parts.regs in0_ (Parts.cons in1_ (Parts.cons in2_ (Parts.cons in3_ (Parts.cons in4_ (Parts.cons in5_ (Parts.cons in6_ (Parts.cons in7_ (Parts.cons in8_ (Parts.cons in9_ (Parts.cons in10_ (Parts.cons in11_ (Parts.cons in12_ (Parts.cons in13_ (Parts.cons in14_ (Parts.cons in15_ (Parts.cons in16_ (Parts.cons in17_ (Parts.cons in18_ (Parts.cons in19_ (Parts.cons in20_ (Parts.cons in21_ (Parts.cons in22_ (Parts.cons in23_ (Parts.cons in24_ Parts.nil))))))))))))))))))))))))) fr_
theorem frame_discard (s : State) (b : Blk) : Frame [.shadow] s (State.discard s b) := by
  have hs0 := fun ps => Frame.refl ps s
  unfold State.discard
  simp (maxDischargeDepth := 80) (contextual := true) [hs0]
@[simp] theorem Frame.after_discard {QS : List Part} {z0 s : State} (b : Blk) (fr_ : Frame QS z0 s) (in0_ : .shadow ∈ QS) : Frame QS z0 (State.discard s b) := Frame.via (frame_discard s b) (Parts.cons in0_ Parts.nil) fr_
theorem frame_clearCounters (s : State) (t : Half) (l : List (Blk × Nat)) : Frame (allRegs ++ (([] : List Part))) s (State.clearCounters s t l) := by
  have hs0 := fun ps => Frame.refl ps s
  unfold State.clearCounters
  simp (maxDischargeDepth := 80) (contextual := true) [hs0]
@[simp] theorem Frame.after_clearCounters {QS : List Part} {z0 s : State} (t : Half) (l : List (Blk × Nat)) (fr_ : Frame QS z0 s) (in0_ : ∀ b : Blk, .regs b ∈ QS) : Frame QS z0 (State.clearCounters s t l) := Frame.via (frame_clearCounters s t l) (Parts.regs in0_ Parts.nil) fr_
theorem frame_memPut (s : State) (h : Half) (off : Nat) (v : Word) : Frame [.part .A, .part .B, .thm .A, .thm .B] s (State.memPut s h off v) := by
  have hs0 := fun ps => Frame.refl ps s
  unfold State.memPut
  simp (maxDischargeDepth := 80) (contextual := true) [hs0]
@[simp] theorem Frame.after_memPut {QS : List Part} {z0 s : State} (h : Half) (off : Nat) (v : Word) (fr_ : Frame QS z0 s) (in0_ : .part .A ∈ QS) (in1_ : .part .B ∈ QS) (in2_ : .thm .A ∈ QS) (in3_ : .thm .B ∈ QS) : Frame QS z0 (State.memPut s h off v) := Frame.via (frame_memPut s h off v) (Parts.cons in0_ (Parts.cons in1_ (Parts.cons in2_ (Parts.cons in3_ Parts.nil)))) fr_
theorem frame_sharedPut (s : State) (h : Half) (b : Blk) (off : Nat) (v : Word) : Frame (allRegs ++ (([.free, .blocks, .tck .A, .tck .B, .ports .A, .ports .B, .twn .A, .twn .B, .cln .A, .cln .B, .mbx .A, .mbx .B, .tmr .A, .tmr .B, .ref, .ho, .lkt, .saf, .cans, .lsw, .mesh, .upd, .pwr] : List Part))) s (State.sharedPut s h b off v) := by
  have hs0 := fun ps => Frame.refl ps s
  unfold State.sharedPut
  try dsimp only
  repeat'
    first
    | (simp (maxDischargeDepth := 80) (contextual := true) [hs0, *]; done)
    | split
    | (with_reducible refine Frame.after_ite ?_ ?_)
    | (with_reducible refine Frame.after_foldl _ _ (fun _ _ _ => ?_) ?_)
@[simp] theorem Frame.after_sharedPut {QS : List Part} {z0 s : State} (h : Half) (b : Blk) (off : Nat) (v : Word) (fr_ : Frame QS z0 s) (in0_ : ∀ b : Blk, .regs b ∈ QS) (in1_ : .free ∈ QS) (in2_ : .blocks ∈ QS) (in3_ : .tck .A ∈ QS) (in4_ : .tck .B ∈ QS) (in5_ : .ports .A ∈ QS) (in6_ : .ports .B ∈ QS) (in7_ : .twn .A ∈ QS) (in8_ : .twn .B ∈ QS) (in9_ : .cln .A ∈ QS) (in10_ : .cln .B ∈ QS) (in11_ : .mbx .A ∈ QS) (in12_ : .mbx .B ∈ QS) (in13_ : .tmr .A ∈ QS) (in14_ : .tmr .B ∈ QS) (in15_ : .ref ∈ QS) (in16_ : .ho ∈ QS) (in17_ : .lkt ∈ QS) (in18_ : .saf ∈ QS) (in19_ : .cans ∈ QS) (in20_ : .lsw ∈ QS) (in21_ : .mesh ∈ QS) (in22_ : .upd ∈ QS) (in23_ : .pwr ∈ QS) : Frame QS z0 (State.sharedPut s h b off v) := Frame.via (frame_sharedPut s h b off v) (Parts.regs in0_ (Parts.cons in1_ (Parts.cons in2_ (Parts.cons in3_ (Parts.cons in4_ (Parts.cons in5_ (Parts.cons in6_ (Parts.cons in7_ (Parts.cons in8_ (Parts.cons in9_ (Parts.cons in10_ (Parts.cons in11_ (Parts.cons in12_ (Parts.cons in13_ (Parts.cons in14_ (Parts.cons in15_ (Parts.cons in16_ (Parts.cons in17_ (Parts.cons in18_ (Parts.cons in19_ (Parts.cons in20_ (Parts.cons in21_ (Parts.cons in22_ (Parts.cons in23_ Parts.nil)))))))))))))))))))))))) fr_
theorem frame_partPut (s : State) (h : Half) (b : Blk) (off : Nat) (v : Word) : Frame (allRegs ++ (([.free, .blocks, .tck .A, .tck .B, .part .A, .part .B, .ports .A, .ports .B, .twn .A, .twn .B, .cln .A, .cln .B, .thm .A, .thm .B, .mbx .A, .mbx .B, .tmr .A, .tmr .B, .ref, .ho, .lkt, .saf, .cans, .lsw, .mesh, .upd, .pwr] : List Part))) s (State.partPut s h b off v) := by
  have hs0 := fun ps => Frame.refl ps s
  unfold State.partPut
  try dsimp only
  repeat'
    first
    | (simp (maxDischargeDepth := 80) (contextual := true) [hs0, *]; done)
    | split
    | (with_reducible refine Frame.after_ite ?_ ?_)
    | (with_reducible refine Frame.after_foldl _ _ (fun _ _ _ => ?_) ?_)
@[simp] theorem Frame.after_partPut {QS : List Part} {z0 s : State} (h : Half) (b : Blk) (off : Nat) (v : Word) (fr_ : Frame QS z0 s) (in0_ : ∀ b : Blk, .regs b ∈ QS) (in1_ : .free ∈ QS) (in2_ : .blocks ∈ QS) (in3_ : .tck .A ∈ QS) (in4_ : .tck .B ∈ QS) (in5_ : .part .A ∈ QS) (in6_ : .part .B ∈ QS) (in7_ : .ports .A ∈ QS) (in8_ : .ports .B ∈ QS) (in9_ : .twn .A ∈ QS) (in10_ : .twn .B ∈ QS) (in11_ : .cln .A ∈ QS) (in12_ : .cln .B ∈ QS) (in13_ : .thm .A ∈ QS) (in14_ : .thm .B ∈ QS) (in15_ : .mbx .A ∈ QS) (in16_ : .mbx .B ∈ QS) (in17_ : .tmr .A ∈ QS) (in18_ : .tmr .B ∈ QS) (in19_ : .ref ∈ QS) (in20_ : .ho ∈ QS) (in21_ : .lkt ∈ QS) (in22_ : .saf ∈ QS) (in23_ : .cans ∈ QS) (in24_ : .lsw ∈ QS) (in25_ : .mesh ∈ QS) (in26_ : .upd ∈ QS) (in27_ : .pwr ∈ QS) : Frame QS z0 (State.partPut s h b off v) := Frame.via (frame_partPut s h b off v) (Parts.regs in0_ (Parts.cons in1_ (Parts.cons in2_ (Parts.cons in3_ (Parts.cons in4_ (Parts.cons in5_ (Parts.cons in6_ (Parts.cons in7_ (Parts.cons in8_ (Parts.cons in9_ (Parts.cons in10_ (Parts.cons in11_ (Parts.cons in12_ (Parts.cons in13_ (Parts.cons in14_ (Parts.cons in15_ (Parts.cons in16_ (Parts.cons in17_ (Parts.cons in18_ (Parts.cons in19_ (Parts.cons in20_ (Parts.cons in21_ (Parts.cons in22_ (Parts.cons in23_ (Parts.cons in24_ (Parts.cons in25_ (Parts.cons in26_ (Parts.cons in27_ Parts.nil)))))))))))))))))))))))))))) fr_
theorem frame_verbPut (s : State) (h : Half) (b : Blk) (off : Nat) (v : Word) : Frame (allRegs ++ (([.free, .shadow, .blocks, .tck .A, .tck .B, .ports .A, .ports .B, .twn .A, .twn .B, .cln .A, .cln .B, .mbx .A, .mbx .B, .tmr .A, .tmr .B, .ref, .ho, .lkt, .saf, .cans, .lsw, .mesh, .upd, .pwr] : List Part))) s (State.verbPut s h b off v) := by
  have hs0 := fun ps => Frame.refl ps s
  unfold State.verbPut
  simp (maxDischargeDepth := 80) (contextual := true) [hs0]
@[simp] theorem Frame.after_verbPut {QS : List Part} {z0 s : State} (h : Half) (b : Blk) (off : Nat) (v : Word) (fr_ : Frame QS z0 s) (in0_ : ∀ b : Blk, .regs b ∈ QS) (in1_ : .free ∈ QS) (in2_ : .shadow ∈ QS) (in3_ : .blocks ∈ QS) (in4_ : .tck .A ∈ QS) (in5_ : .tck .B ∈ QS) (in6_ : .ports .A ∈ QS) (in7_ : .ports .B ∈ QS) (in8_ : .twn .A ∈ QS) (in9_ : .twn .B ∈ QS) (in10_ : .cln .A ∈ QS) (in11_ : .cln .B ∈ QS) (in12_ : .mbx .A ∈ QS) (in13_ : .mbx .B ∈ QS) (in14_ : .tmr .A ∈ QS) (in15_ : .tmr .B ∈ QS) (in16_ : .ref ∈ QS) (in17_ : .ho ∈ QS) (in18_ : .lkt ∈ QS) (in19_ : .saf ∈ QS) (in20_ : .cans ∈ QS) (in21_ : .lsw ∈ QS) (in22_ : .mesh ∈ QS) (in23_ : .upd ∈ QS) (in24_ : .pwr ∈ QS) : Frame QS z0 (State.verbPut s h b off v) := Frame.via (frame_verbPut s h b off v) (Parts.regs in0_ (Parts.cons in1_ (Parts.cons in2_ (Parts.cons in3_ (Parts.cons in4_ (Parts.cons in5_ (Parts.cons in6_ (Parts.cons in7_ (Parts.cons in8_ (Parts.cons in9_ (Parts.cons in10_ (Parts.cons in11_ (Parts.cons in12_ (Parts.cons in13_ (Parts.cons in14_ (Parts.cons in15_ (Parts.cons in16_ (Parts.cons in17_ (Parts.cons in18_ (Parts.cons in19_ (Parts.cons in20_ (Parts.cons in21_ (Parts.cons in22_ (Parts.cons in23_ (Parts.cons in24_ Parts.nil))))))))))))))))))))))))) fr_
@[simp] theorem Frame.after_cfgVerb {QS : List Part} {z s : State} (o : Org) (b : Blk) (verb : Nat) (here : Bool) (roles : List Nat) (body : State → Half → Half → Nat → State) (fr_ : Frame QS z s) (in0_ : .mbx .A ∈ QS) (in1_ : .mbx .B ∈ QS)
    (hb_ : ∀ s x t r, Frame QS z s → Frame QS z (body s x t r)) : Frame QS z (s.cfgVerb o b verb here roles body) := by
  have mm : ∀ h : Half, .mbx h ∈ QS := fun h => by cases h <;> assumption
  unfold State.cfgVerb
  split
  · simp [*]
  · dsimp only
    split
    · refine Frame.after_runAt _ _ _ _ _ _ fr_ in0_ in1_ (fun s r hs => ?_)
      split
      · simp [*]
      · exact hb_ _ _ _ _ hs
    · refine Frame.after_verbG _ _ _ _ _ fr_ in0_ in1_ (fun s x r hs => ?_)
      split <;> (split <;> first | (simp [*]; done) | exact hb_ _ _ _ _ hs)

end Sys2Proof.Machine
end

