-- ==== Sys2Proof/Laws/FrameThermal.lean ====
section
/-!
SUPPORT. Which parts of the state each operation of Machine/Thermal.lean may change, and the same as one more step of a framed run.
-/

namespace Sys2Proof.Machine

set_option maxRecDepth 4000

theorem frame_mThm (s : State) (h : Half) (f : ThmS → ThmS) : Frame [.thm .A, .thm .B] s (State.mThm s h f) := by
  have hs0 := fun ps => Frame.refl ps s
  unfold State.mThm
  simp (maxDischargeDepth := 80) (contextual := true) [hs0]
@[simp] theorem Frame.after_mThm {QS : List Part} {z0 s : State} (h : Half) (f : ThmS → ThmS) (fr_ : Frame QS z0 s) (in0_ : .thm .A ∈ QS) (in1_ : .thm .B ∈ QS) : Frame QS z0 (State.mThm s h f) := Frame.via (frame_mThm s h f) (Parts.cons in0_ (Parts.cons in1_ Parts.nil)) fr_
theorem frame_mModel (s : State) (h : Half) (m : Nat) (f : ThmM → ThmM) : Frame [.thm .A, .thm .B] s (State.mModel s h m f) := by
  have hs0 := fun ps => Frame.refl ps s
  unfold State.mModel
  simp (maxDischargeDepth := 80) (contextual := true) [hs0]
@[simp] theorem Frame.after_mModel {QS : List Part} {z0 s : State} (h : Half) (m : Nat) (f : ThmM → ThmM) (fr_ : Frame QS z0 s) (in0_ : .thm .A ∈ QS) (in1_ : .thm .B ∈ QS) : Frame QS z0 (State.mModel s h m f) := Frame.via (frame_mModel s h m f) (Parts.cons in0_ (Parts.cons in1_ Parts.nil)) fr_
theorem frame_thmEv (s : State) (h : Half) (code : Nat) (d : List Nat) : Frame [.mbx .A, .mbx .B] s (State.thmEv s h code d) := by
  have hs0 := fun ps => Frame.refl ps s
  unfold State.thmEv
  simp (maxDischargeDepth := 80) (contextual := true) [hs0]
@[simp] theorem Frame.after_thmEv {QS : List Part} {z0 s : State} (h : Half) (code : Nat) (d : List Nat) (fr_ : Frame QS z0 s) (in0_ : .mbx .A ∈ QS) (in1_ : .mbx .B ∈ QS) : Frame QS z0 (State.thmEv s h code d) := Frame.via (frame_thmEv s h code d) (Parts.cons in0_ (Parts.cons in1_ Parts.nil)) fr_
theorem frame_judgePin (s : State) (h : Half) (m : Nat) (t : List Nat) (st : State) (k : Nat) : Frame [.thm .A, .thm .B] st (judgePin s h m t st k) := by
  have hs0 := fun ps => Frame.refl ps st
  unfold judgePin
  simp (maxDischargeDepth := 80) (contextual := true) [hs0]
@[simp] theorem Frame.after_judgePin {QS : List Part} (s : State) (h : Half) (m : Nat) (t : List Nat) {z0 st : State} (k : Nat) (fr_ : Frame QS z0 st) (in0_ : .thm .A ∈ QS) (in1_ : .thm .B ∈ QS) : Frame QS z0 (judgePin s h m t st k) := Frame.via (frame_judgePin s h m t st k) (Parts.cons in0_ (Parts.cons in1_ Parts.nil)) fr_
theorem frame_initModel (s : State) (h : Half) (m : Nat) : Frame [.thm .A, .thm .B] s (State.initModel s h m) := by
  have hs0 := fun ps => Frame.refl ps s
  unfold State.initModel
  simp (maxDischargeDepth := 80) (contextual := true) [hs0]
@[simp] theorem Frame.after_initModel {QS : List Part} {z0 s : State} (h : Half) (m : Nat) (fr_ : Frame QS z0 s) (in0_ : .thm .A ∈ QS) (in1_ : .thm .B ∈ QS) : Frame QS z0 (State.initModel s h m) := Frame.via (frame_initModel s h m) (Parts.cons in0_ (Parts.cons in1_ Parts.nil)) fr_
theorem frame_readSensor (h : Half) (m : Nat) (s : State) (k : Nat) : Frame [.regs .thm, .thm .A, .thm .B, .mbx .A, .mbx .B] s (readSensor h m s k) := by
  have hs0 := fun ps => Frame.refl ps s
  unfold readSensor
  simp (maxDischargeDepth := 80) (contextual := true) [hs0]
@[simp] theorem Frame.after_readSensor {QS : List Part} (h : Half) (m : Nat) {z0 s : State} (k : Nat) (fr_ : Frame QS z0 s) (in0_ : .regs .thm ∈ QS) (in1_ : .thm .A ∈ QS) (in2_ : .thm .B ∈ QS) (in3_ : .mbx .A ∈ QS) (in4_ : .mbx .B ∈ QS) : Frame QS z0 (readSensor h m s k) := Frame.via (frame_readSensor h m s k) (Parts.cons in0_ (Parts.cons in1_ (Parts.cons in2_ (Parts.cons in3_ (Parts.cons in4_ Parts.nil))))) fr_
theorem frame_coolRange (h : Half) (m : Nat) (s : State) : Frame [.thm .A, .thm .B, .mbx .A, .mbx .B] s (coolRange h m s) := by
  have hs0 := fun ps => Frame.refl ps s
  unfold coolRange
  simp (maxDischargeDepth := 80) (contextual := true) [hs0]
@[simp] theorem Frame.after_coolRange {QS : List Part} (h : Half) (m : Nat) {z0 s : State} (fr_ : Frame QS z0 s) (in0_ : .thm .A ∈ QS) (in1_ : .thm .B ∈ QS) (in2_ : .mbx .A ∈ QS) (in3_ : .mbx .B ∈ QS) : Frame QS z0 (coolRange h m s) := Frame.via (frame_coolRange h m s) (Parts.cons in0_ (Parts.cons in1_ (Parts.cons in2_ (Parts.cons in3_ Parts.nil)))) fr_
theorem frame_updateModel (h : Half) (s : State) (m : Nat) : Frame [.regs .thm, .thm .A, .thm .B, .mbx .A, .mbx .B] s (updateModel h s m) := by
  have hs0 := fun ps => Frame.refl ps s
  unfold updateModel
  simp (maxDischargeDepth := 80) (contextual := true) [hs0]
@[simp] theorem Frame.after_updateModel {QS : List Part} (h : Half) {z0 s : State} (m : Nat) (fr_ : Frame QS z0 s) (in0_ : .regs .thm ∈ QS) (in1_ : .thm .A ∈ QS) (in2_ : .thm .B ∈ QS) (in3_ : .mbx .A ∈ QS) (in4_ : .mbx .B ∈ QS) : Frame QS z0 (updateModel h s m) := Frame.via (frame_updateModel h s m) (Parts.cons in0_ (Parts.cons in1_ (Parts.cons in2_ (Parts.cons in3_ (Parts.cons in4_ Parts.nil))))) fr_
theorem frame_thmCommit (s : State) (h : Half) (old : Nat → Word) : Frame [.thm .A, .thm .B] s (State.thmCommit s h old) := by
  have hs0 := fun ps => Frame.refl ps s
  unfold State.thmCommit
  simp (maxDischargeDepth := 80) (contextual := true) [hs0]
@[simp] theorem Frame.after_thmCommit {QS : List Part} {z0 s : State} (h : Half) (old : Nat → Word) (fr_ : Frame QS z0 s) (in0_ : .thm .A ∈ QS) (in1_ : .thm .B ∈ QS) : Frame QS z0 (State.thmCommit s h old) := Frame.via (frame_thmCommit s h old) (Parts.cons in0_ (Parts.cons in1_ Parts.nil)) fr_
theorem frame_devThermEv (s : State) (h : Half) (kind : Nat) (v : Nat) : Frame [.mbx .A, .mbx .B] s (devThermEv s h kind v) := by
  have hs0 := fun ps => Frame.refl ps s
  unfold devThermEv
  simp (maxDischargeDepth := 80) (contextual := true) [hs0]
@[simp] theorem Frame.after_devThermEv {QS : List Part} {z0 s : State} (h : Half) (kind : Nat) (v : Nat) (fr_ : Frame QS z0 s) (in0_ : .mbx .A ∈ QS) (in1_ : .mbx .B ∈ QS) : Frame QS z0 (devThermEv s h kind v) := Frame.via (frame_devThermEv s h kind v) (Parts.cons in0_ (Parts.cons in1_ Parts.nil)) fr_
theorem frame_throttleEnter (s : State) (h : Half) : Frame [.thm .A, .thm .B, .mbx .A, .mbx .B] s (throttleEnter s h) := by
  have hs0 := fun ps => Frame.refl ps s
  unfold throttleEnter
  simp (maxDischargeDepth := 80) (contextual := true) [hs0]
@[simp] theorem Frame.after_throttleEnter {QS : List Part} {z0 s : State} (h : Half) (fr_ : Frame QS z0 s) (in0_ : .thm .A ∈ QS) (in1_ : .thm .B ∈ QS) (in2_ : .mbx .A ∈ QS) (in3_ : .mbx .B ∈ QS) : Frame QS z0 (throttleEnter s h) := Frame.via (frame_throttleEnter s h) (Parts.cons in0_ (Parts.cons in1_ (Parts.cons in2_ (Parts.cons in3_ Parts.nil)))) fr_
theorem frame_flashRange (s : State) (h : Half) : Frame [.thm .A, .thm .B, .mbx .A, .mbx .B] s (flashRange s h) := by
  have hs0 := fun ps => Frame.refl ps s
  unfold flashRange
  simp (maxDischargeDepth := 80) (contextual := true) [hs0]
@[simp] theorem Frame.after_flashRange {QS : List Part} {z0 s : State} (h : Half) (fr_ : Frame QS z0 s) (in0_ : .thm .A ∈ QS) (in1_ : .thm .B ∈ QS) (in2_ : .mbx .A ∈ QS) (in3_ : .mbx .B ∈ QS) : Frame QS z0 (flashRange s h) := Frame.via (frame_flashRange s h) (Parts.cons in0_ (Parts.cons in1_ (Parts.cons in2_ (Parts.cons in3_ Parts.nil)))) fr_
theorem frame_safeStop (s : State) (h : Half) : Frame [.free, .cnp .A, .cnp .B, .mbx .A, .mbx .B, .therm, .saf] s (safeStop s h) := by
  have hs0 := fun ps => Frame.refl ps s
  unfold safeStop
  try dsimp only
  repeat'
    first
    | (simp (maxDischargeDepth := 80) (contextual := true) [hs0, *]; done)
    | split
    | (with_reducible refine Frame.after_ite ?_ ?_)
    | (with_reducible refine Frame.after_foldl _ _ (fun _ _ _ => ?_) ?_)
@[simp] theorem Frame.after_safeStop {QS : List Part} {z0 s : State} (h : Half) (fr_ : Frame QS z0 s) (in0_ : .free ∈ QS) (in1_ : .cnp .A ∈ QS) (in2_ : .cnp .B ∈ QS) (in3_ : .mbx .A ∈ QS) (in4_ : .mbx .B ∈ QS) (in5_ : .therm ∈ QS) (in6_ : .saf ∈ QS) : Frame QS z0 (safeStop s h) := Frame.via (frame_safeStop s h) (Parts.cons in0_ (Parts.cons in1_ (Parts.cons in2_ (Parts.cons in3_ (Parts.cons in4_ (Parts.cons in5_ (Parts.cons in6_ Parts.nil))))))) fr_

end Sys2Proof.Machine
end

