-- ==== Sys2Proof/Laws/FrameTick.lean ====
section
/-!
SUPPORT. Which parts of the state each operation of Machine/Tick.lean may change, and the same as one more step of a framed run.
-/

namespace Sys2Proof.Machine

set_option maxRecDepth 4000

theorem frame_renewRate (s : State) (h : Half) : Frame [.tck .A, .tck .B] s (State.renewRate s h) := by
  have hs0 := fun ps => Frame.refl ps s
  unfold State.renewRate
  simp (maxDischargeDepth := 80) (contextual := true) [hs0]
@[simp] theorem Frame.after_renewRate {QS : List Part} {z0 s : State} (h : Half) (fr_ : Frame QS z0 s) (in0_ : .tck .A ∈ QS) (in1_ : .tck .B ∈ QS) : Frame QS z0 (State.renewRate s h) := Frame.via (frame_renewRate s h) (Parts.cons in0_ (Parts.cons in1_ Parts.nil)) fr_
theorem frame_servo (s : State) (h : Half) (theta : Int) (conv : Bool) : Frame [.tck .A, .tck .B, .mbx .A, .mbx .B] s (servo s h theta conv) := by
  have hs0 := fun ps => Frame.refl ps s
  unfold servo
  simp (maxDischargeDepth := 80) (contextual := true) [hs0]
@[simp] theorem Frame.after_servo {QS : List Part} {z0 s : State} (h : Half) (theta : Int) (conv : Bool) (fr_ : Frame QS z0 s) (in0_ : .tck .A ∈ QS) (in1_ : .tck .B ∈ QS) (in2_ : .mbx .A ∈ QS) (in3_ : .mbx .B ∈ QS) : Frame QS z0 (servo s h theta conv) := Frame.via (frame_servo s h theta conv) (Parts.cons in0_ (Parts.cons in1_ (Parts.cons in2_ (Parts.cons in3_ Parts.nil)))) fr_
theorem frame_setStep (s : State) (h : Half) (k : Int) (o : Option Org) : Frame [.tck .A, .tck .B] s (State.setStep s h k o) := by
  have hs0 := fun ps => Frame.refl ps s
  unfold State.setStep
  simp (maxDischargeDepth := 80) (contextual := true) [hs0]
@[simp] theorem Frame.after_setStep {QS : List Part} {z0 s : State} (h : Half) (k : Int) (o : Option Org) (fr_ : Frame QS z0 s) (in0_ : .tck .A ∈ QS) (in1_ : .tck .B ∈ QS) : Frame QS z0 (State.setStep s h k o) := Frame.via (frame_setStep s h k o) (Parts.cons in0_ (Parts.cons in1_ Parts.nil)) fr_
theorem frame_lossEvent (s : State) (h : Half) (bits : Nat) : Frame [.tck .A, .tck .B, .mbx .A, .mbx .B] s (lossEvent s h bits) := by
  have hs0 := fun ps => Frame.refl ps s
  unfold lossEvent
  simp (maxDischargeDepth := 80) (contextual := true) [hs0]
@[simp] theorem Frame.after_lossEvent {QS : List Part} {z0 s : State} (h : Half) (bits : Nat) (fr_ : Frame QS z0 s) (in0_ : .tck .A ∈ QS) (in1_ : .tck .B ∈ QS) (in2_ : .mbx .A ∈ QS) (in3_ : .mbx .B ∈ QS) : Frame QS z0 (lossEvent s h bits) := Frame.via (frame_lossEvent s h bits) (Parts.cons in0_ (Parts.cons in1_ (Parts.cons in2_ (Parts.cons in3_ Parts.nil)))) fr_
theorem frame_clockLost (s : State) (h : Half) (bit : Nat) (ev : Nat) : Frame [.regs .tck, .tck .A, .tck .B, .twn .A, .twn .B, .mbx .A, .mbx .B] s (clockLost s h bit ev) := by
  have hs0 := fun ps => Frame.refl ps s
  unfold clockLost
  simp (maxDischargeDepth := 80) (contextual := true) [hs0]
@[simp] theorem Frame.after_clockLost {QS : List Part} {z0 s : State} (h : Half) (bit : Nat) (ev : Nat) (fr_ : Frame QS z0 s) (in0_ : .regs .tck ∈ QS) (in1_ : .tck .A ∈ QS) (in2_ : .tck .B ∈ QS) (in3_ : .twn .A ∈ QS) (in4_ : .twn .B ∈ QS) (in5_ : .mbx .A ∈ QS) (in6_ : .mbx .B ∈ QS) : Frame QS z0 (clockLost s h bit ev) := Frame.via (frame_clockLost s h bit ev) (Parts.cons in0_ (Parts.cons in1_ (Parts.cons in2_ (Parts.cons in3_ (Parts.cons in4_ (Parts.cons in5_ (Parts.cons in6_ Parts.nil))))))) fr_

end Sys2Proof.Machine
end

