-- ==== Sys2Proof/Laws/FrameUpdate.lean ====
section
/-!
SUPPORT. Which parts of the state each operation of Machine/Update.lean may change, and the same as one more step of a framed run.
-/

namespace Sys2Proof.Machine

set_option maxRecDepth 4000

theorem frame_enterRecovery (s : State) (h : Half) : Frame (allRegs ++ (([.free, .shadow, .blocks, .tck .A, .tck .B, .stg .A, .stg .B, .pts .A, .pts .B, .mirOut .A, .mirOut .B, .restWait .A, .restWait .B, .part .A, .part .B, .ports .A, .ports .B, .bulk .A, .bulk .B, .twn .A, .twn .B, .cln .A, .cln .B, .pst .A, .pst .B, .cnp .A, .cnp .B, .safv .A, .safv .B, .pub .A, .pub .B, .thm .A, .thm .B, .mbx .A, .mbx .B, .tmr .A, .tmr .B, .ref, .ho, .veh, .vehG, .lkt, .upd] : List Part))) s (State.enterRecovery s h) := by
  have hs0 := fun ps => Frame.refl ps s
  unfold State.enterRecovery
  try dsimp only
  repeat'
    first
    | (simp (maxDischargeDepth := 80) (contextual := true) [hs0, *]; done)
    | split
    | (with_reducible refine Frame.after_ite ?_ ?_)
    | (with_reducible refine Frame.after_foldl _ _ (fun _ _ _ => ?_) ?_)
@[simp] theorem Frame.after_enterRecovery {QS : List Part} {z0 s : State} (h : Half) (fr_ : Frame QS z0 s) (in0_ : ∀ b : Blk, .regs b ∈ QS) (in1_ : .free ∈ QS) (in2_ : .shadow ∈ QS) (in3_ : .blocks ∈ QS) (in4_ : .tck .A ∈ QS) (in5_ : .tck .B ∈ QS) (in6_ : .stg .A ∈ QS) (in7_ : .stg .B ∈ QS) (in8_ : .pts .A ∈ QS) (in9_ : .pts .B ∈ QS) (in10_ : .mirOut .A ∈ QS) (in11_ : .mirOut .B ∈ QS) (in12_ : .restWait .A ∈ QS) (in13_ : .restWait .B ∈ QS) (in14_ : .part .A ∈ QS) (in15_ : .part .B ∈ QS) (in16_ : .ports .A ∈ QS) (in17_ : .ports .B ∈ QS) (in18_ : .bulk .A ∈ QS) (in19_ : .bulk .B ∈ QS) (in20_ : .twn .A ∈ QS) (in21_ : .twn .B ∈ QS) (in22_ : .cln .A ∈ QS) (in23_ : .cln .B ∈ QS) (in24_ : .pst .A ∈ QS) (in25_ : .pst .B ∈ QS) (in26_ : .cnp .A ∈ QS) (in27_ : .cnp .B ∈ QS) (in28_ : .safv .A ∈ QS) (in29_ : .safv .B ∈ QS) (in30_ : .pub .A ∈ QS) (in31_ : .pub .B ∈ QS) (in32_ : .thm .A ∈ QS) (in33_ : .thm .B ∈ QS) (in34_ : .mbx .A ∈ QS) (in35_ : .mbx .B ∈ QS) (in36_ : .tmr .A ∈ QS) (in37_ : .tmr .B ∈ QS) (in38_ : .ref ∈ QS) (in39_ : .ho ∈ QS) (in40_ : .veh ∈ QS) (in41_ : .vehG ∈ QS) (in42_ : .lkt ∈ QS) (in43_ : .upd ∈ QS) : Frame QS z0 (State.enterRecovery s h) := Frame.via (frame_enterRecovery s h) (Parts.regs in0_ (Parts.cons in1_ (Parts.cons in2_ (Parts.cons in3_ (Parts.cons in4_ (Parts.cons in5_ (Parts.cons in6_ (Parts.cons in7_ (Parts.cons in8_ (Parts.cons in9_ (Parts.cons in10_ (Parts.cons in11_ (Parts.cons in12_ (Parts.cons in13_ (Parts.cons in14_ (Parts.cons in15_ (Parts.cons in16_ (Parts.cons in17_ (Parts.cons in18_ (Parts.cons in19_ (Parts.cons in20_ (Parts.cons in21_ (Parts.cons in22_ (Parts.cons in23_ (Parts.cons in24_ (Parts.cons in25_ (Parts.cons in26_ (Parts.cons in27_ (Parts.cons in28_ (Parts.cons in29_ (Parts.cons in30_ (Parts.cons in31_ (Parts.cons in32_ (Parts.cons in33_ (Parts.cons in34_ (Parts.cons in35_ (Parts.cons in36_ (Parts.cons in37_ (Parts.cons in38_ (Parts.cons in39_ (Parts.cons in40_ (Parts.cons in41_ (Parts.cons in42_ (Parts.cons in43_ Parts.nil)))))))))))))))))))))))))))))))))))))))))))) fr_
theorem frame_revertAct (s : State) (new : Nat) : Frame [.mbx .A, .mbx .B, .met, .upd] s (State.revertAct s new) := by
  have hs0 := fun ps => Frame.refl ps s
  unfold State.revertAct
  try dsimp only
  repeat'
    first
    | (simp (maxDischargeDepth := 80) (contextual := true) [hs0, *]; done)
    | split
    | (with_reducible refine Frame.after_ite ?_ ?_)
    | (with_reducible refine Frame.after_foldl _ _ (fun _ _ _ => ?_) ?_)
@[simp] theorem Frame.after_revertAct {QS : List Part} {z0 s : State} (new : Nat) (fr_ : Frame QS z0 s) (in0_ : .mbx .A ∈ QS) (in1_ : .mbx .B ∈ QS) (in2_ : .met ∈ QS) (in3_ : .upd ∈ QS) : Frame QS z0 (State.revertAct s new) := Frame.via (frame_revertAct s new) (Parts.cons in0_ (Parts.cons in1_ (Parts.cons in2_ (Parts.cons in3_ Parts.nil)))) fr_
theorem frame_revertBank (s : State) (k : Nat) : Frame [.mbx .A, .mbx .B, .met, .upd] s (State.revertBank s k) := by
  have hs0 := fun ps => Frame.refl ps s
  unfold State.revertBank
  try dsimp only
  repeat'
    first
    | (simp (maxDischargeDepth := 80) (contextual := true) [hs0, *]; done)
    | split
    | (with_reducible refine Frame.after_ite ?_ ?_)
    | (with_reducible refine Frame.after_foldl _ _ (fun _ _ _ => ?_) ?_)
@[simp] theorem Frame.after_revertBank {QS : List Part} {z0 s : State} (k : Nat) (fr_ : Frame QS z0 s) (in0_ : .mbx .A ∈ QS) (in1_ : .mbx .B ∈ QS) (in2_ : .met ∈ QS) (in3_ : .upd ∈ QS) : Frame QS z0 (State.revertBank s k) := Frame.via (frame_revertBank s k) (Parts.cons in0_ (Parts.cons in1_ (Parts.cons in2_ (Parts.cons in3_ Parts.nil)))) fr_
theorem frame_clearTarget (s : State) (k : Nat) : Frame [.mbx .A, .mbx .B, .upd] s (State.clearTarget s k) := by
  have hs0 := fun ps => Frame.refl ps s
  unfold State.clearTarget
  try dsimp only
  repeat'
    first
    | (simp (maxDischargeDepth := 80) (contextual := true) [hs0, *]; done)
    | split
    | (with_reducible refine Frame.after_ite ?_ ?_)
    | (with_reducible refine Frame.after_foldl _ _ (fun _ _ _ => ?_) ?_)
@[simp] theorem Frame.after_clearTarget {QS : List Part} {z0 s : State} (k : Nat) (fr_ : Frame QS z0 s) (in0_ : .mbx .A ∈ QS) (in1_ : .mbx .B ∈ QS) (in2_ : .upd ∈ QS) : Frame QS z0 (State.clearTarget s k) := Frame.via (frame_clearTarget s k) (Parts.cons in0_ (Parts.cons in1_ (Parts.cons in2_ Parts.nil))) fr_
theorem frame_stageInto (s : State) (i : ImgInfo) (k : Nat) : Frame [.mbx .A, .mbx .B, .upd] s (State.stageInto s i k) := by
  have hs0 := fun ps => Frame.refl ps s
  unfold State.stageInto
  try dsimp only
  repeat'
    first
    | (simp (maxDischargeDepth := 80) (contextual := true) [hs0, *]; done)
    | split
    | (with_reducible refine Frame.after_ite ?_ ?_)
    | (with_reducible refine Frame.after_foldl _ _ (fun _ _ _ => ?_) ?_)
@[simp] theorem Frame.after_stageInto {QS : List Part} {z0 s : State} (i : ImgInfo) (k : Nat) (fr_ : Frame QS z0 s) (in0_ : .mbx .A ∈ QS) (in1_ : .mbx .B ∈ QS) (in2_ : .upd ∈ QS) : Frame QS z0 (State.stageInto s i k) := Frame.via (frame_stageInto s i k) (Parts.cons in0_ (Parts.cons in1_ (Parts.cons in2_ Parts.nil))) fr_
theorem frame_sendImage (s : State) (h : Half) (p : Nat) (r : RemImg) (off : Nat) : Frame [.ports .A, .ports .B] s (State.sendImage s h p r off) := by
  have hs0 := fun ps => Frame.refl ps s
  unfold State.sendImage
  simp (maxDischargeDepth := 80) (contextual := true) [hs0]
@[simp] theorem Frame.after_sendImage {QS : List Part} {z0 s : State} (h : Half) (p : Nat) (r : RemImg) (off : Nat) (fr_ : Frame QS z0 s) (in0_ : .ports .A ∈ QS) (in1_ : .ports .B ∈ QS) : Frame QS z0 (State.sendImage s h p r off) := Frame.via (frame_sendImage s h p r off) (Parts.cons in0_ (Parts.cons in1_ Parts.nil)) fr_
theorem frame_remoteDone (s : State) (x : Half) (o : Org) (refused : Option Nat) : Frame [.mbx .A, .mbx .B, .upd] s (State.remoteDone s x o refused) := by
  have hs0 := fun ps => Frame.refl ps s
  unfold State.remoteDone
  try dsimp only
  repeat'
    first
    | (simp (maxDischargeDepth := 80) (contextual := true) [hs0, *]; done)
    | split
    | (with_reducible refine Frame.after_ite ?_ ?_)
    | (with_reducible refine Frame.after_foldl _ _ (fun _ _ _ => ?_) ?_)
@[simp] theorem Frame.after_remoteDone {QS : List Part} {z0 s : State} (x : Half) (o : Org) (refused : Option Nat) (fr_ : Frame QS z0 s) (in0_ : .mbx .A ∈ QS) (in1_ : .mbx .B ∈ QS) (in2_ : .upd ∈ QS) : Frame QS z0 (State.remoteDone s x o refused) := Frame.via (frame_remoteDone s x o refused) (Parts.cons in0_ (Parts.cons in1_ (Parts.cons in2_ Parts.nil))) fr_
theorem frame_updstat (s : State) (x : Half) (p : Nat) (st : Nat) (imgid : Nat) (next : Nat) (status : Nat) : Frame [.ports .A, .ports .B, .mbx .A, .mbx .B, .upd] s (State.updstat s x p st imgid next status) := by
  have hs0 := fun ps => Frame.refl ps s
  unfold State.updstat
  try dsimp only
  repeat'
    first
    | (simp (maxDischargeDepth := 80) (contextual := true) [hs0, *]; done)
    | split
    | (with_reducible refine Frame.after_ite ?_ ?_)
    | (with_reducible refine Frame.after_foldl _ _ (fun _ _ _ => ?_) ?_)
@[simp] theorem Frame.after_updstat {QS : List Part} {z0 s : State} (x : Half) (p : Nat) (st : Nat) (imgid : Nat) (next : Nat) (status : Nat) (fr_ : Frame QS z0 s) (in0_ : .ports .A ∈ QS) (in1_ : .ports .B ∈ QS) (in2_ : .mbx .A ∈ QS) (in3_ : .mbx .B ∈ QS) (in4_ : .upd ∈ QS) : Frame QS z0 (State.updstat s x p st imgid next status) := Frame.via (frame_updstat s x p st imgid next status) (Parts.cons in0_ (Parts.cons in1_ (Parts.cons in2_ (Parts.cons in3_ (Parts.cons in4_ Parts.nil))))) fr_
theorem frame_toTrial (s : State) (k : Nat) : Frame [.mbx .A, .mbx .B, .upd] s (State.toTrial s k) := by
  have hs0 := fun ps => Frame.refl ps s
  unfold State.toTrial
  try dsimp only
  repeat'
    first
    | (simp (maxDischargeDepth := 80) (contextual := true) [hs0, *]; done)
    | split
    | (with_reducible refine Frame.after_ite ?_ ?_)
    | (with_reducible refine Frame.after_foldl _ _ (fun _ _ _ => ?_) ?_)
@[simp] theorem Frame.after_toTrial {QS : List Part} {z0 s : State} (k : Nat) (fr_ : Frame QS z0 s) (in0_ : .mbx .A ∈ QS) (in1_ : .mbx .B ∈ QS) (in2_ : .upd ∈ QS) : Frame QS z0 (State.toTrial s k) := Frame.via (frame_toTrial s k) (Parts.cons in0_ (Parts.cons in1_ (Parts.cons in2_ Parts.nil))) fr_
theorem frame_resetInto (s : State) (part : Nat) (h : Half) : Frame (allRegs ++ (([.free, .shadow, .blocks, .tck .A, .tck .B, .stg .A, .stg .B, .pts .A, .pts .B, .mirOut .A, .mirOut .B, .restWait .A, .restWait .B, .part .A, .part .B, .ports .A, .ports .B, .bulk .A, .bulk .B, .twn .A, .twn .B, .cln .A, .cln .B, .pst .A, .pst .B, .cnp .A, .cnp .B, .safv .A, .safv .B, .pub .A, .pub .B, .thm .A, .thm .B, .mbx .A, .mbx .B, .tmr .A, .tmr .B, .ref, .ho, .veh, .vehG, .lkt, .upd] : List Part))) s (State.resetInto s part h) := by
  have hs0 := fun ps => Frame.refl ps s
  unfold State.resetInto
  simp (maxDischargeDepth := 80) (contextual := true) [hs0]
@[simp] theorem Frame.after_resetInto {QS : List Part} {z0 s : State} (part : Nat) (h : Half) (fr_ : Frame QS z0 s) (in0_ : ∀ b : Blk, .regs b ∈ QS) (in1_ : .free ∈ QS) (in2_ : .shadow ∈ QS) (in3_ : .blocks ∈ QS) (in4_ : .tck .A ∈ QS) (in5_ : .tck .B ∈ QS) (in6_ : .stg .A ∈ QS) (in7_ : .stg .B ∈ QS) (in8_ : .pts .A ∈ QS) (in9_ : .pts .B ∈ QS) (in10_ : .mirOut .A ∈ QS) (in11_ : .mirOut .B ∈ QS) (in12_ : .restWait .A ∈ QS) (in13_ : .restWait .B ∈ QS) (in14_ : .part .A ∈ QS) (in15_ : .part .B ∈ QS) (in16_ : .ports .A ∈ QS) (in17_ : .ports .B ∈ QS) (in18_ : .bulk .A ∈ QS) (in19_ : .bulk .B ∈ QS) (in20_ : .twn .A ∈ QS) (in21_ : .twn .B ∈ QS) (in22_ : .cln .A ∈ QS) (in23_ : .cln .B ∈ QS) (in24_ : .pst .A ∈ QS) (in25_ : .pst .B ∈ QS) (in26_ : .cnp .A ∈ QS) (in27_ : .cnp .B ∈ QS) (in28_ : .safv .A ∈ QS) (in29_ : .safv .B ∈ QS) (in30_ : .pub .A ∈ QS) (in31_ : .pub .B ∈ QS) (in32_ : .thm .A ∈ QS) (in33_ : .thm .B ∈ QS) (in34_ : .mbx .A ∈ QS) (in35_ : .mbx .B ∈ QS) (in36_ : .tmr .A ∈ QS) (in37_ : .tmr .B ∈ QS) (in38_ : .ref ∈ QS) (in39_ : .ho ∈ QS) (in40_ : .veh ∈ QS) (in41_ : .vehG ∈ QS) (in42_ : .lkt ∈ QS) (in43_ : .upd ∈ QS) : Frame QS z0 (State.resetInto s part h) := Frame.via (frame_resetInto s part h) (Parts.regs in0_ (Parts.cons in1_ (Parts.cons in2_ (Parts.cons in3_ (Parts.cons in4_ (Parts.cons in5_ (Parts.cons in6_ (Parts.cons in7_ (Parts.cons in8_ (Parts.cons in9_ (Parts.cons in10_ (Parts.cons in11_ (Parts.cons in12_ (Parts.cons in13_ (Parts.cons in14_ (Parts.cons in15_ (Parts.cons in16_ (Parts.cons in17_ (Parts.cons in18_ (Parts.cons in19_ (Parts.cons in20_ (Parts.cons in21_ (Parts.cons in22_ (Parts.cons in23_ (Parts.cons in24_ (Parts.cons in25_ (Parts.cons in26_ (Parts.cons in27_ (Parts.cons in28_ (Parts.cons in29_ (Parts.cons in30_ (Parts.cons in31_ (Parts.cons in32_ (Parts.cons in33_ (Parts.cons in34_ (Parts.cons in35_ (Parts.cons in36_ (Parts.cons in37_ (Parts.cons in38_ (Parts.cons in39_ (Parts.cons in40_ (Parts.cons in41_ (Parts.cons in42_ (Parts.cons in43_ Parts.nil)))))))))))))))))))))))))))))))))))))))))))) fr_
theorem frame_actTick (s : State) : Frame (allRegs ++ (([.free, .shadow, .blocks, .tck .A, .tck .B, .stg .A, .stg .B, .pts .A, .pts .B, .mirOut .A, .mirOut .B, .restWait .A, .restWait .B, .part .A, .part .B, .ports .A, .ports .B, .bulk .A, .bulk .B, .twn .A, .twn .B, .cln .A, .cln .B, .pst .A, .pst .B, .cnp .A, .cnp .B, .safv .A, .safv .B, .pub .A, .pub .B, .thm .A, .thm .B, .mbx .A, .mbx .B, .tmr .A, .tmr .B, .ref, .ho, .veh, .vehG, .lkt, .upd] : List Part))) s (State.actTick s) := by
  have hs0 := fun ps => Frame.refl ps s
  unfold State.actTick
  try dsimp only
  repeat'
    first
    | (simp (maxDischargeDepth := 80) (contextual := true) [hs0, *]; done)
    | split
    | (with_reducible refine Frame.after_ite ?_ ?_)
    | (with_reducible refine Frame.after_foldl _ _ (fun _ _ _ => ?_) ?_)
@[simp] theorem Frame.after_actTick {QS : List Part} {z0 s : State} (fr_ : Frame QS z0 s) (in0_ : ∀ b : Blk, .regs b ∈ QS) (in1_ : .free ∈ QS) (in2_ : .shadow ∈ QS) (in3_ : .blocks ∈ QS) (in4_ : .tck .A ∈ QS) (in5_ : .tck .B ∈ QS) (in6_ : .stg .A ∈ QS) (in7_ : .stg .B ∈ QS) (in8_ : .pts .A ∈ QS) (in9_ : .pts .B ∈ QS) (in10_ : .mirOut .A ∈ QS) (in11_ : .mirOut .B ∈ QS) (in12_ : .restWait .A ∈ QS) (in13_ : .restWait .B ∈ QS) (in14_ : .part .A ∈ QS) (in15_ : .part .B ∈ QS) (in16_ : .ports .A ∈ QS) (in17_ : .ports .B ∈ QS) (in18_ : .bulk .A ∈ QS) (in19_ : .bulk .B ∈ QS) (in20_ : .twn .A ∈ QS) (in21_ : .twn .B ∈ QS) (in22_ : .cln .A ∈ QS) (in23_ : .cln .B ∈ QS) (in24_ : .pst .A ∈ QS) (in25_ : .pst .B ∈ QS) (in26_ : .cnp .A ∈ QS) (in27_ : .cnp .B ∈ QS) (in28_ : .safv .A ∈ QS) (in29_ : .safv .B ∈ QS) (in30_ : .pub .A ∈ QS) (in31_ : .pub .B ∈ QS) (in32_ : .thm .A ∈ QS) (in33_ : .thm .B ∈ QS) (in34_ : .mbx .A ∈ QS) (in35_ : .mbx .B ∈ QS) (in36_ : .tmr .A ∈ QS) (in37_ : .tmr .B ∈ QS) (in38_ : .ref ∈ QS) (in39_ : .ho ∈ QS) (in40_ : .veh ∈ QS) (in41_ : .vehG ∈ QS) (in42_ : .lkt ∈ QS) (in43_ : .upd ∈ QS) : Frame QS z0 (State.actTick s) := Frame.via (frame_actTick s) (Parts.regs in0_ (Parts.cons in1_ (Parts.cons in2_ (Parts.cons in3_ (Parts.cons in4_ (Parts.cons in5_ (Parts.cons in6_ (Parts.cons in7_ (Parts.cons in8_ (Parts.cons in9_ (Parts.cons in10_ (Parts.cons in11_ (Parts.cons in12_ (Parts.cons in13_ (Parts.cons in14_ (Parts.cons in15_ (Parts.cons in16_ (Parts.cons in17_ (Parts.cons in18_ (Parts.cons in19_ (Parts.cons in20_ (Parts.cons in21_ (Parts.cons in22_ (Parts.cons in23_ (Parts.cons in24_ (Parts.cons in25_ (Parts.cons in26_ (Parts.cons in27_ (Parts.cons in28_ (Parts.cons in29_ (Parts.cons in30_ (Parts.cons in31_ (Parts.cons in32_ (Parts.cons in33_ (Parts.cons in34_ (Parts.cons in35_ (Parts.cons in36_ (Parts.cons in37_ (Parts.cons in38_ (Parts.cons in39_ (Parts.cons in40_ (Parts.cons in41_ (Parts.cons in42_ (Parts.cons in43_ Parts.nil)))))))))))))))))))))))))))))))))))))))))))) fr_
theorem frame_mRecov (s : State) (h : Half) (f : RecovS → RecovS) : Frame [.upd] s (State.mRecov s h f) := by
  have hs0 := fun ps => Frame.refl ps s
  unfold State.mRecov
  try dsimp only
  repeat'
    first
    | (simp (maxDischargeDepth := 80) (contextual := true) [hs0, *]; done)
    | split
    | (with_reducible refine Frame.after_ite ?_ ?_)
    | (with_reducible refine Frame.after_foldl _ _ (fun _ _ _ => ?_) ?_)
@[simp] theorem Frame.after_mRecov {QS : List Part} {z0 s : State} (h : Half) (f : RecovS → RecovS) (fr_ : Frame QS z0 s) (in0_ : .upd ∈ QS) : Frame QS z0 (State.mRecov s h f) := Frame.via (frame_mRecov s h f) (Parts.cons in0_ Parts.nil) fr_
@[simp] theorem Frame.after_recovReq {QS : List Part} {z s : State} (h : Half) (op seq : Nat) (act : State → State × Nat × List Nat) (fr_ : Frame QS z s) (in0_ : .upd ∈ QS) (hb_ : ∀ s, Frame QS z s → Frame QS z (act s).1) : Frame QS z (s.recovReq h op seq act) := by
  unfold State.recovReq; split
  · exact fr_
  · exact Frame.after_mRecov _ _ (hb_ _ fr_) in0_

end Sys2Proof.Machine
end

