-- ==== Sys2Proof/Laws/FrameTickEdge.lean ====
section
/-!
SUPPORT. Which parts of the state each operation of Machine/TickEdge.lean may change, and the same as one more step of a framed run.
-/

namespace Sys2Proof.Machine

set_option maxRecDepth 4000

theorem frame_portCommit (h : Half) (old : OldWords) (wr : List Nat) (s : State) (p : Nat) : Frame [.ports .A, .ports .B, .mbx .A, .mbx .B] s (portCommit h old wr s p) := by
  have hs0 := fun ps => Frame.refl ps s
  unfold portCommit
  simp (maxDischargeDepth := 80) (contextual := true) [hs0]
@[simp] theorem Frame.after_portCommit {QS : List Part} (h : Half) (old : OldWords) (wr : List Nat) {z0 s : State} (p : Nat) (fr_ : Frame QS z0 s) (in0_ : .ports .A ∈ QS) (in1_ : .ports .B ∈ QS) (in2_ : .mbx .A ∈ QS) (in3_ : .mbx .B ∈ QS) : Frame QS z0 (portCommit h old wr s p) := Frame.via (frame_portCommit h old wr s p) (Parts.cons in0_ (Parts.cons in1_ (Parts.cons in2_ (Parts.cons in3_ Parts.nil)))) fr_
theorem frame_rejoinPort (h : Half) (s : State) (p : Nat) : Frame [.ports .A, .ports .B, .mbx .A, .mbx .B] s (rejoinPort h s p) := by
  have hs0 := fun ps => Frame.refl ps s
  unfold rejoinPort
  simp (maxDischargeDepth := 80) (contextual := true) [hs0]
@[simp] theorem Frame.after_rejoinPort {QS : List Part} (h : Half) {z0 s : State} (p : Nat) (fr_ : Frame QS z0 s) (in0_ : .ports .A ∈ QS) (in1_ : .ports .B ∈ QS) (in2_ : .mbx .A ∈ QS) (in3_ : .mbx .B ∈ QS) : Frame QS z0 (rejoinPort h s p) := Frame.via (frame_rejoinPort h s p) (Parts.cons in0_ (Parts.cons in1_ (Parts.cons in2_ (Parts.cons in3_ Parts.nil)))) fr_
theorem frame_laneRenew (h : Half) (old : OldWords) (s : State) (l : Nat) : Frame [.cln .A, .cln .B, .pst .A, .pst .B] s (laneRenew h old s l) := by
  have hs0 := fun ps => Frame.refl ps s
  unfold laneRenew
  try dsimp only
  repeat'
    first
    | (simp (maxDischargeDepth := 80) (contextual := true) [hs0, *]; done)
    | split
    | (with_reducible refine Frame.after_ite ?_ ?_)
    | (with_reducible refine Frame.after_foldl _ _ (fun _ _ _ => ?_) ?_)
@[simp] theorem Frame.after_laneRenew {QS : List Part} (h : Half) (old : OldWords) {z0 s : State} (l : Nat) (fr_ : Frame QS z0 s) (in0_ : .cln .A ∈ QS) (in1_ : .cln .B ∈ QS) (in2_ : .pst .A ∈ QS) (in3_ : .pst .B ∈ QS) : Frame QS z0 (laneRenew h old s l) := Frame.via (frame_laneRenew h old s l) (Parts.cons in0_ (Parts.cons in1_ (Parts.cons in2_ (Parts.cons in3_ Parts.nil)))) fr_
theorem frame_reinitShadow (s : State) (h : Half) (l : Nat) : Frame [.shadow] s (reinitShadow s h l) := by
  have hs0 := fun ps => Frame.refl ps s
  unfold reinitShadow
  try dsimp only
  repeat'
    first
    | (simp (maxDischargeDepth := 80) (contextual := true) [hs0, *]; done)
    | split
    | (with_reducible refine Frame.after_ite ?_ ?_)
    | (with_reducible refine Frame.after_foldl _ _ (fun _ _ _ => ?_) ?_)
@[simp] theorem Frame.after_reinitShadow {QS : List Part} {z0 s : State} (h : Half) (l : Nat) (fr_ : Frame QS z0 s) (in0_ : .shadow ∈ QS) : Frame QS z0 (reinitShadow s h l) := Frame.via (frame_reinitShadow s h l) (Parts.cons in0_ Parts.nil) fr_
theorem frame_laneCommit (h : Half) (old : OldWords) (s : State) (l : Nat) : Frame [.regs .cln, .shadow, .cln .A, .cln .B, .pst .A, .pst .B] s (laneCommit h old s l) := by
  have hs0 := fun ps => Frame.refl ps s
  unfold laneCommit
  try dsimp only
  repeat'
    first
    | (simp (maxDischargeDepth := 80) (contextual := true) [hs0, *]; done)
    | split
    | (with_reducible refine Frame.after_ite ?_ ?_)
    | (with_reducible refine Frame.after_foldl _ _ (fun _ _ _ => ?_) ?_)
@[simp] theorem Frame.after_laneCommit {QS : List Part} (h : Half) (old : OldWords) {z0 s : State} (l : Nat) (fr_ : Frame QS z0 s) (in0_ : .regs .cln ∈ QS) (in1_ : .shadow ∈ QS) (in2_ : .cln .A ∈ QS) (in3_ : .cln .B ∈ QS) (in4_ : .pst .A ∈ QS) (in5_ : .pst .B ∈ QS) : Frame QS z0 (laneCommit h old s l) := Frame.via (frame_laneCommit h old s l) (Parts.cons in0_ (Parts.cons in1_ (Parts.cons in2_ (Parts.cons in3_ (Parts.cons in4_ (Parts.cons in5_ Parts.nil)))))) fr_
theorem frame_lanesCommit (s : State) (h : Half) (old : OldWords) : Frame [.regs .cln, .shadow, .cln .A, .cln .B, .pst .A, .pst .B] s (lanesCommit s h old) := by
  have hs0 := fun ps => Frame.refl ps s
  unfold lanesCommit
  try dsimp only
  repeat'
    first
    | (simp (maxDischargeDepth := 80) (contextual := true) [hs0, *]; done)
    | split
    | (with_reducible refine Frame.after_ite ?_ ?_)
    | (with_reducible refine Frame.after_foldl _ _ (fun _ _ _ => ?_) ?_)
@[simp] theorem Frame.after_lanesCommit {QS : List Part} {z0 s : State} (h : Half) (old : OldWords) (fr_ : Frame QS z0 s) (in0_ : .regs .cln ∈ QS) (in1_ : .shadow ∈ QS) (in2_ : .cln .A ∈ QS) (in3_ : .cln .B ∈ QS) (in4_ : .pst .A ∈ QS) (in5_ : .pst .B ∈ QS) : Frame QS z0 (lanesCommit s h old) := Frame.via (frame_lanesCommit s h old) (Parts.cons in0_ (Parts.cons in1_ (Parts.cons in2_ (Parts.cons in3_ (Parts.cons in4_ (Parts.cons in5_ Parts.nil)))))) fr_
theorem frame_endLoopCmd (s : State) (h : Half) (c : LoopCmd) (status : Nat) : Frame [.cln .A, .cln .B, .mbx .A, .mbx .B] s (endLoopCmd s h c status) := by
  have hs0 := fun ps => Frame.refl ps s
  unfold endLoopCmd
  simp (maxDischargeDepth := 80) (contextual := true) [hs0]
@[simp] theorem Frame.after_endLoopCmd {QS : List Part} {z0 s : State} (h : Half) (c : LoopCmd) (status : Nat) (fr_ : Frame QS z0 s) (in0_ : .cln .A ∈ QS) (in1_ : .cln .B ∈ QS) (in2_ : .mbx .A ∈ QS) (in3_ : .mbx .B ∈ QS) : Frame QS z0 (endLoopCmd s h c status) := Frame.via (frame_endLoopCmd s h c status) (Parts.cons in0_ (Parts.cons in1_ (Parts.cons in2_ (Parts.cons in3_ Parts.nil)))) fr_
theorem frame_loopsCommit (s : State) (h : Half) : Frame [.cln .A, .cln .B, .mbx .A, .mbx .B] s (loopsCommit s h) := by
  have hs0 := fun ps => Frame.refl ps s
  unfold loopsCommit
  simp (maxDischargeDepth := 80) (contextual := true) [hs0]
@[simp] theorem Frame.after_loopsCommit {QS : List Part} {z0 s : State} (h : Half) (fr_ : Frame QS z0 s) (in0_ : .cln .A ∈ QS) (in1_ : .cln .B ∈ QS) (in2_ : .mbx .A ∈ QS) (in3_ : .mbx .B ∈ QS) : Frame QS z0 (loopsCommit s h) := Frame.via (frame_loopsCommit s h) (Parts.cons in0_ (Parts.cons in1_ (Parts.cons in2_ (Parts.cons in3_ Parts.nil)))) fr_
theorem frame_sealedRecords (s : State) (b : Blk) (offs : List Nat) (old : OldWords) : Frame [.free, .mbx .A, .mbx .B, .met] s (sealedRecords s b offs old) := by
  have hs0 := fun ps => Frame.refl ps s
  unfold sealedRecords
  simp (maxDischargeDepth := 80) (contextual := true) [hs0]
@[simp] theorem Frame.after_sealedRecords {QS : List Part} {z0 s : State} (b : Blk) (offs : List Nat) (old : OldWords) (fr_ : Frame QS z0 s) (in0_ : .free ∈ QS) (in1_ : .mbx .A ∈ QS) (in2_ : .mbx .B ∈ QS) (in3_ : .met ∈ QS) : Frame QS z0 (sealedRecords s b offs old) := Frame.via (frame_sealedRecords s b offs old) (Parts.cons in0_ (Parts.cons in1_ (Parts.cons in2_ (Parts.cons in3_ Parts.nil)))) fr_
theorem frame_safCommit (s : State) (old : OldWords) : Frame [.free, .mbx .A, .mbx .B, .saf] s (safCommit s old) := by
  have hs0 := fun ps => Frame.refl ps s
  unfold safCommit
  simp (maxDischargeDepth := 80) (contextual := true) [hs0]
@[simp] theorem Frame.after_safCommit {QS : List Part} {z0 s : State} (old : OldWords) (fr_ : Frame QS z0 s) (in0_ : .free ∈ QS) (in1_ : .mbx .A ∈ QS) (in2_ : .mbx .B ∈ QS) (in3_ : .saf ∈ QS) : Frame QS z0 (safCommit s old) := Frame.via (frame_safCommit s old) (Parts.cons in0_ (Parts.cons in1_ (Parts.cons in2_ (Parts.cons in3_ Parts.nil)))) fr_
theorem frame_setAllFilters (s : State) : Frame [.regs .can] s (State.setAllFilters s) := by
  have hs0 := fun ps => Frame.refl ps s
  unfold State.setAllFilters
  simp (maxDischargeDepth := 80) (contextual := true) [hs0]
@[simp] theorem Frame.after_setAllFilters {QS : List Part} {z0 s : State} (fr_ : Frame QS z0 s) (in0_ : .regs .can ∈ QS) : Frame QS z0 (State.setAllFilters s) := Frame.via (frame_setAllFilters s) (Parts.cons in0_ Parts.nil) fr_
theorem frame_tckCommit (s : State) (h : Half) : Frame [.tck .A, .tck .B] s (tckCommit s h) := by
  have hs0 := fun ps => Frame.refl ps s
  unfold tckCommit
  simp (maxDischargeDepth := 80) (contextual := true) [hs0]
@[simp] theorem Frame.after_tckCommit {QS : List Part} {z0 s : State} (h : Half) (fr_ : Frame QS z0 s) (in0_ : .tck .A ∈ QS) (in1_ : .tck .B ∈ QS) : Frame QS z0 (tckCommit s h) := Frame.via (frame_tckCommit s h) (Parts.cons in0_ (Parts.cons in1_ Parts.nil)) fr_
theorem frame_blockEffect (s : State) (h : Half) (b : Blk) (old : OldWords) (wr : List Nat) : Frame [.free, .regs .cln, .regs .pst, .regs .cnp, .regs .can, .shadow, .tck .A, .tck .B, .ports .A, .ports .B, .cln .A, .cln .B, .pst .A, .pst .B, .cnp .A, .cnp .B, .thm .A, .thm .B, .mbx .A, .mbx .B, .met, .saf] s (blockEffect s h b old wr) := by
  have hs0 := fun ps => Frame.refl ps s
  unfold blockEffect
  try dsimp only
  repeat'
    first
    | (simp (maxDischargeDepth := 80) (contextual := true) [hs0, *]; done)
    | split
    | (with_reducible refine Frame.after_ite ?_ ?_)
    | (with_reducible refine Frame.after_foldl _ _ (fun _ _ _ => ?_) ?_)
@[simp] theorem Frame.after_blockEffect {QS : List Part} {z0 s : State} (h : Half) (b : Blk) (old : OldWords) (wr : List Nat) (fr_ : Frame QS z0 s) (in0_ : .free ∈ QS) (in1_ : .regs .cln ∈ QS) (in2_ : .regs .pst ∈ QS) (in3_ : .regs .cnp ∈ QS) (in4_ : .regs .can ∈ QS) (in5_ : .shadow ∈ QS) (in6_ : .tck .A ∈ QS) (in7_ : .tck .B ∈ QS) (in8_ : .ports .A ∈ QS) (in9_ : .ports .B ∈ QS) (in10_ : .cln .A ∈ QS) (in11_ : .cln .B ∈ QS) (in12_ : .pst .A ∈ QS) (in13_ : .pst .B ∈ QS) (in14_ : .cnp .A ∈ QS) (in15_ : .cnp .B ∈ QS) (in16_ : .thm .A ∈ QS) (in17_ : .thm .B ∈ QS) (in18_ : .mbx .A ∈ QS) (in19_ : .mbx .B ∈ QS) (in20_ : .met ∈ QS) (in21_ : .saf ∈ QS) : Frame QS z0 (blockEffect s h b old wr) := Frame.via (frame_blockEffect s h b old wr) (Parts.cons in0_ (Parts.cons in1_ (Parts.cons in2_ (Parts.cons in3_ (Parts.cons in4_ (Parts.cons in5_ (Parts.cons in6_ (Parts.cons in7_ (Parts.cons in8_ (Parts.cons in9_ (Parts.cons in10_ (Parts.cons in11_ (Parts.cons in12_ (Parts.cons in13_ (Parts.cons in14_ (Parts.cons in15_ (Parts.cons in16_ (Parts.cons in17_ (Parts.cons in18_ (Parts.cons in19_ (Parts.cons in20_ (Parts.cons in21_ Parts.nil)))))))))))))))))))))) fr_
theorem frame_forceWords (s : State) (h : Half) (b : Blk) (snap : List (Nat × Word)) : Frame (allRegs ++ (([] : List Part))) s (forceWords s h b snap) := by
  have hs0 := fun ps => Frame.refl ps s
  unfold forceWords
  simp (maxDischargeDepth := 80) (contextual := true) [hs0]
@[simp] theorem Frame.after_forceWords {QS : List Part} {z0 s : State} (h : Half) (b : Blk) (snap : List (Nat × Word)) (fr_ : Frame QS z0 s) (in0_ : ∀ b : Blk, .regs b ∈ QS) : Frame QS z0 (forceWords s h b snap) := Frame.via (frame_forceWords s h b snap) (Parts.regs in0_ Parts.nil) fr_
theorem frame_putWords (s : State) (h : Half) (b : Blk) (snap : List (Nat × Word)) : Frame (allRegs ++ (([.shadow] : List Part))) s (putWords s h b snap) := by
  have hs0 := fun ps => Frame.refl ps s
  unfold putWords
  simp (maxDischargeDepth := 80) (contextual := true) [hs0]
@[simp] theorem Frame.after_putWords {QS : List Part} {z0 s : State} (h : Half) (b : Blk) (snap : List (Nat × Word)) (fr_ : Frame QS z0 s) (in0_ : ∀ b : Blk, .regs b ∈ QS) (in1_ : .shadow ∈ QS) : Frame QS z0 (putWords s h b snap) := Frame.via (frame_putWords s h b snap) (Parts.regs in0_ (Parts.cons in1_ Parts.nil)) fr_
theorem frame_cfgPoints (s : State) (h : Half) (b : Blk) (snap : List (Nat × Word)) : Frame [.pts .A, .pts .B, .mirOut .A, .mirOut .B, .thm .A, .thm .B] s (cfgPoints s h b snap) := by
  have hs0 := fun ps => Frame.refl ps s
  unfold cfgPoints
  simp (maxDischargeDepth := 80) (contextual := true) [hs0]
@[simp] theorem Frame.after_cfgPoints {QS : List Part} {z0 s : State} (h : Half) (b : Blk) (snap : List (Nat × Word)) (fr_ : Frame QS z0 s) (in0_ : .pts .A ∈ QS) (in1_ : .pts .B ∈ QS) (in2_ : .mirOut .A ∈ QS) (in3_ : .mirOut .B ∈ QS) (in4_ : .thm .A ∈ QS) (in5_ : .thm .B ∈ QS) : Frame QS z0 (cfgPoints s h b snap) := Frame.via (frame_cfgPoints s h b snap) (Parts.cons in0_ (Parts.cons in1_ (Parts.cons in2_ (Parts.cons in3_ (Parts.cons in4_ (Parts.cons in5_ Parts.nil)))))) fr_
theorem frame_answerWaiters (s : State) (h : Half) (ws : List Waiter) (status : Nat) : Frame [.mbx .A, .mbx .B] s (answerWaiters s h ws status) := by
  have hs0 := fun ps => Frame.refl ps s
  unfold answerWaiters
  simp (maxDischargeDepth := 80) (contextual := true) [hs0]
@[simp] theorem Frame.after_answerWaiters {QS : List Part} {z0 s : State} (h : Half) (ws : List Waiter) (status : Nat) (fr_ : Frame QS z0 s) (in0_ : .mbx .A ∈ QS) (in1_ : .mbx .B ∈ QS) : Frame QS z0 (answerWaiters s h ws status) := Frame.via (frame_answerWaiters s h ws status) (Parts.cons in0_ (Parts.cons in1_ Parts.nil)) fr_
theorem frame_applyBlk (h : Half) (s : State) (b : Blk) : Frame (allRegs ++ (([.free, .shadow, .blocks, .tck .A, .tck .B, .pts .A, .pts .B, .mirOut .A, .mirOut .B, .ports .A, .ports .B, .cln .A, .cln .B, .pst .A, .pst .B, .cnp .A, .cnp .B, .thm .A, .thm .B, .mbx .A, .mbx .B, .met, .saf] : List Part))) s (applyBlk h s b) := by
  have hs0 := fun ps => Frame.refl ps s
  unfold applyBlk
  simp (maxDischargeDepth := 80) (contextual := true) [hs0]
@[simp] theorem Frame.after_applyBlk {QS : List Part} (h : Half) {z0 s : State} (b : Blk) (fr_ : Frame QS z0 s) (in0_ : ∀ b : Blk, .regs b ∈ QS) (in1_ : .free ∈ QS) (in2_ : .shadow ∈ QS) (in3_ : .blocks ∈ QS) (in4_ : .tck .A ∈ QS) (in5_ : .tck .B ∈ QS) (in6_ : .pts .A ∈ QS) (in7_ : .pts .B ∈ QS) (in8_ : .mirOut .A ∈ QS) (in9_ : .mirOut .B ∈ QS) (in10_ : .ports .A ∈ QS) (in11_ : .ports .B ∈ QS) (in12_ : .cln .A ∈ QS) (in13_ : .cln .B ∈ QS) (in14_ : .pst .A ∈ QS) (in15_ : .pst .B ∈ QS) (in16_ : .cnp .A ∈ QS) (in17_ : .cnp .B ∈ QS) (in18_ : .thm .A ∈ QS) (in19_ : .thm .B ∈ QS) (in20_ : .mbx .A ∈ QS) (in21_ : .mbx .B ∈ QS) (in22_ : .met ∈ QS) (in23_ : .saf ∈ QS) : Frame QS z0 (applyBlk h s b) := Frame.via (frame_applyBlk h s b) (Parts.regs in0_ (Parts.cons in1_ (Parts.cons in2_ (Parts.cons in3_ (Parts.cons in4_ (Parts.cons in5_ (Parts.cons in6_ (Parts.cons in7_ (Parts.cons in8_ (Parts.cons in9_ (Parts.cons in10_ (Parts.cons in11_ (Parts.cons in12_ (Parts.cons in13_ (Parts.cons in14_ (Parts.cons in15_ (Parts.cons in16_ (Parts.cons in17_ (Parts.cons in18_ (Parts.cons in19_ (Parts.cons in20_ (Parts.cons in21_ (Parts.cons in22_ (Parts.cons in23_ Parts.nil)))))))))))))))))))))))) fr_
theorem frame_applyPlanned (h : Half) (s : State) (b : Blk) : Frame (allRegs ++ (([.blocks, .pts .A, .pts .B, .mirOut .A, .mirOut .B, .thm .A, .thm .B] : List Part))) s (applyPlanned h s b) := by
  have hs0 := fun ps => Frame.refl ps s
  unfold applyPlanned
  simp (maxDischargeDepth := 80) (contextual := true) [hs0]
@[simp] theorem Frame.after_applyPlanned {QS : List Part} (h : Half) {z0 s : State} (b : Blk) (fr_ : Frame QS z0 s) (in0_ : ∀ b : Blk, .regs b ∈ QS) (in1_ : .blocks ∈ QS) (in2_ : .pts .A ∈ QS) (in3_ : .pts .B ∈ QS) (in4_ : .mirOut .A ∈ QS) (in5_ : .mirOut .B ∈ QS) (in6_ : .thm .A ∈ QS) (in7_ : .thm .B ∈ QS) : Frame QS z0 (applyPlanned h s b) := Frame.via (frame_applyPlanned h s b) (Parts.regs in0_ (Parts.cons in1_ (Parts.cons in2_ (Parts.cons in3_ (Parts.cons in4_ (Parts.cons in5_ (Parts.cons in6_ (Parts.cons in7_ Parts.nil)))))))) fr_
theorem frame_refusedEv (s : State) (h : Half) (r : Refused) : Frame [.mbx .A, .mbx .B] s (refusedEv s h r) := by
  have hs0 := fun ps => Frame.refl ps s
  unfold refusedEv
  simp (maxDischargeDepth := 80) (contextual := true) [hs0]
@[simp] theorem Frame.after_refusedEv {QS : List Part} {z0 s : State} (h : Half) (r : Refused) (fr_ : Frame QS z0 s) (in0_ : .mbx .A ∈ QS) (in1_ : .mbx .B ∈ QS) : Frame QS z0 (refusedEv s h r) := Frame.via (frame_refusedEv s h r) (Parts.cons in0_ (Parts.cons in1_ Parts.nil)) fr_
theorem frame_refuseBlk (h : Half) (s : State) (r : Refused) : Frame [.regs .pst, .regs .cnp, .blocks, .ports .A, .ports .B, .pst .A, .pst .B, .cnp .A, .cnp .B, .mbx .A, .mbx .B] s (refuseBlk h s r) := by
  have hs0 := fun ps => Frame.refl ps s
  unfold refuseBlk
  try dsimp only
  repeat'
    first
    | (simp (maxDischargeDepth := 80) (contextual := true) [hs0, *]; done)
    | split
    | (with_reducible refine Frame.after_ite ?_ ?_)
    | (with_reducible refine Frame.after_foldl _ _ (fun _ _ _ => ?_) ?_)
@[simp] theorem Frame.after_refuseBlk {QS : List Part} (h : Half) {z0 s : State} (r : Refused) (fr_ : Frame QS z0 s) (in0_ : .regs .pst ∈ QS) (in1_ : .regs .cnp ∈ QS) (in2_ : .blocks ∈ QS) (in3_ : .ports .A ∈ QS) (in4_ : .ports .B ∈ QS) (in5_ : .pst .A ∈ QS) (in6_ : .pst .B ∈ QS) (in7_ : .cnp .A ∈ QS) (in8_ : .cnp .B ∈ QS) (in9_ : .mbx .A ∈ QS) (in10_ : .mbx .B ∈ QS) : Frame QS z0 (refuseBlk h s r) := Frame.via (frame_refuseBlk h s r) (Parts.cons in0_ (Parts.cons in1_ (Parts.cons in2_ (Parts.cons in3_ (Parts.cons in4_ (Parts.cons in5_ (Parts.cons in6_ (Parts.cons in7_ (Parts.cons in8_ (Parts.cons in9_ (Parts.cons in10_ Parts.nil))))))))))) fr_
theorem frame_refusePlanned (h : Half) (s : State) (r : Refused) : Frame [.blocks, .mbx .A, .mbx .B] s (refusePlanned h s r) := by
  have hs0 := fun ps => Frame.refl ps s
  unfold refusePlanned
  simp (maxDischargeDepth := 80) (contextual := true) [hs0]
@[simp] theorem Frame.after_refusePlanned {QS : List Part} (h : Half) {z0 s : State} (r : Refused) (fr_ : Frame QS z0 s) (in0_ : .blocks ∈ QS) (in1_ : .mbx .A ∈ QS) (in2_ : .mbx .B ∈ QS) : Frame QS z0 (refusePlanned h s r) := Frame.via (frame_refusePlanned h s r) (Parts.cons in0_ (Parts.cons in1_ (Parts.cons in2_ Parts.nil))) fr_
set_option maxHeartbeats 1000000 in
theorem frame_State_genUp (s : State) (h : Half) (n : Nat) : Frame [.twn .A, .twn .B, .ref] s (State.genUp s h n) := by
  have hs0 := fun ps => Frame.refl ps s
  unfold State.genUp
  have e : ∀ (u : State) (v : Nat), Frame [.ref] u { u with ref := { u.ref with gen := v } } := fun u v => by
    have hs0 := fun ps => Frame.refl ps u
    simp (maxDischargeDepth := 80) [hs0]
  split
  · exact hs0 _
  · dsimp only
    split
    · exact Frame.via (e _ _) (by simp) (by simp (maxDischargeDepth := 80) [hs0])
    · simp (maxDischargeDepth := 80) [hs0]
@[simp] theorem Frame.after_State_genUp {QS : List Part} {z0 s : State} (h : Half) (n : Nat) (fr_ : Frame QS z0 s) (in0_ : .twn .A ∈ QS) (in1_ : .twn .B ∈ QS) (in2_ : .ref ∈ QS) : Frame QS z0 (State.genUp s h n) := Frame.via (frame_State_genUp s h n) (Parts.cons in0_ (Parts.cons in1_ (Parts.cons in2_ Parts.nil))) fr_
theorem frame_relayOut (s : State) (h : Half) (snaps : List RelayC) : Frame [.twn .A, .twn .B] s (State.relayOut s h snaps) := by
  have hs0 := fun ps => Frame.refl ps s
  unfold State.relayOut
  simp (maxDischargeDepth := 80) (contextual := true) [hs0]
@[simp] theorem Frame.after_relayOut {QS : List Part} {z0 s : State} (h : Half) (snaps : List RelayC) (fr_ : Frame QS z0 s) (in0_ : .twn .A ∈ QS) (in1_ : .twn .B ∈ QS) : Frame QS z0 (State.relayOut s h snaps) := Frame.via (frame_relayOut s h snaps) (Parts.cons in0_ (Parts.cons in1_ Parts.nil)) fr_
theorem frame_planSnaps (s : State) (h : Half) (ps : List PlanC) (bs : List Blk) : Frame [.blocks] s (planSnaps s h ps bs) := by
  have hs0 := fun ps => Frame.refl ps s
  unfold planSnaps
  simp (maxDischargeDepth := 80) (contextual := true) [hs0]
@[simp] theorem Frame.after_planSnaps {QS : List Part} {z0 s : State} (h : Half) (ps : List PlanC) (bs : List Blk) (fr_ : Frame QS z0 s) (in0_ : .blocks ∈ QS) : Frame QS z0 (planSnaps s h ps bs) := Frame.via (frame_planSnaps s h ps bs) (Parts.cons in0_ Parts.nil) fr_
set_option maxHeartbeats 1000000 in
theorem frame_runCommits (s : State) (h : Half) : Frame (allRegs ++ (([.free, .shadow, .blocks, .tck .A, .tck .B, .pts .A, .pts .B, .mirOut .A, .mirOut .B, .ports .A, .ports .B, .twn .A, .twn .B, .cln .A, .cln .B, .pst .A, .pst .B, .cnp .A, .cnp .B, .thm .A, .thm .B, .mbx .A, .mbx .B, .ref, .met, .saf] : List Part))) s (runCommits s h) := by
  have hs0 := fun ps => Frame.refl ps s
  unfold runCommits
  try dsimp only
  repeat'
    first
    | (simp (maxDischargeDepth := 80) (contextual := true) [hs0, *]; done)
    | split
    | (with_reducible refine Frame.after_ite ?_ ?_)
    | (with_reducible refine Frame.after_foldl _ _ (fun _ _ _ => ?_) ?_)
@[simp] theorem Frame.after_runCommits {QS : List Part} {z0 s : State} (h : Half) (fr_ : Frame QS z0 s) (in0_ : ∀ b : Blk, .regs b ∈ QS) (in1_ : .free ∈ QS) (in2_ : .shadow ∈ QS) (in3_ : .blocks ∈ QS) (in4_ : .tck .A ∈ QS) (in5_ : .tck .B ∈ QS) (in6_ : .pts .A ∈ QS) (in7_ : .pts .B ∈ QS) (in8_ : .mirOut .A ∈ QS) (in9_ : .mirOut .B ∈ QS) (in10_ : .ports .A ∈ QS) (in11_ : .ports .B ∈ QS) (in12_ : .twn .A ∈ QS) (in13_ : .twn .B ∈ QS) (in14_ : .cln .A ∈ QS) (in15_ : .cln .B ∈ QS) (in16_ : .pst .A ∈ QS) (in17_ : .pst .B ∈ QS) (in18_ : .cnp .A ∈ QS) (in19_ : .cnp .B ∈ QS) (in20_ : .thm .A ∈ QS) (in21_ : .thm .B ∈ QS) (in22_ : .mbx .A ∈ QS) (in23_ : .mbx .B ∈ QS) (in24_ : .ref ∈ QS) (in25_ : .met ∈ QS) (in26_ : .saf ∈ QS) : Frame QS z0 (runCommits s h) := Frame.via (frame_runCommits s h) (Parts.regs in0_ (Parts.cons in1_ (Parts.cons in2_ (Parts.cons in3_ (Parts.cons in4_ (Parts.cons in5_ (Parts.cons in6_ (Parts.cons in7_ (Parts.cons in8_ (Parts.cons in9_ (Parts.cons in10_ (Parts.cons in11_ (Parts.cons in12_ (Parts.cons in13_ (Parts.cons in14_ (Parts.cons in15_ (Parts.cons in16_ (Parts.cons in17_ (Parts.cons in18_ (Parts.cons in19_ (Parts.cons in20_ (Parts.cons in21_ (Parts.cons in22_ (Parts.cons in23_ (Parts.cons in24_ (Parts.cons in25_ (Parts.cons in26_ Parts.nil))))))))))))))))))))))))))) fr_
theorem frame_relayOne (h : Half) (s : State) (e : RelayC) : Frame (allRegs ++ (([.free, .shadow, .tck .A, .tck .B, .pts .A, .pts .B, .mirOut .A, .mirOut .B, .ports .A, .ports .B, .cln .A, .cln .B, .pst .A, .pst .B, .cnp .A, .cnp .B, .thm .A, .thm .B, .mbx .A, .mbx .B, .met, .saf] : List Part))) s (relayOne h s e) := by
  have hs0 := fun ps => Frame.refl ps s
  unfold relayOne
  try dsimp only
  repeat'
    first
    | (simp (maxDischargeDepth := 80) (contextual := true) [hs0, *]; done)
    | split
    | (with_reducible refine Frame.after_ite ?_ ?_)
    | (with_reducible refine Frame.after_foldl _ _ (fun _ _ _ => ?_) ?_)
@[simp] theorem Frame.after_relayOne {QS : List Part} (h : Half) {z0 s : State} (e : RelayC) (fr_ : Frame QS z0 s) (in0_ : ∀ b : Blk, .regs b ∈ QS) (in1_ : .free ∈ QS) (in2_ : .shadow ∈ QS) (in3_ : .tck .A ∈ QS) (in4_ : .tck .B ∈ QS) (in5_ : .pts .A ∈ QS) (in6_ : .pts .B ∈ QS) (in7_ : .mirOut .A ∈ QS) (in8_ : .mirOut .B ∈ QS) (in9_ : .ports .A ∈ QS) (in10_ : .ports .B ∈ QS) (in11_ : .cln .A ∈ QS) (in12_ : .cln .B ∈ QS) (in13_ : .pst .A ∈ QS) (in14_ : .pst .B ∈ QS) (in15_ : .cnp .A ∈ QS) (in16_ : .cnp .B ∈ QS) (in17_ : .thm .A ∈ QS) (in18_ : .thm .B ∈ QS) (in19_ : .mbx .A ∈ QS) (in20_ : .mbx .B ∈ QS) (in21_ : .met ∈ QS) (in22_ : .saf ∈ QS) : Frame QS z0 (relayOne h s e) := Frame.via (frame_relayOne h s e) (Parts.regs in0_ (Parts.cons in1_ (Parts.cons in2_ (Parts.cons in3_ (Parts.cons in4_ (Parts.cons in5_ (Parts.cons in6_ (Parts.cons in7_ (Parts.cons in8_ (Parts.cons in9_ (Parts.cons in10_ (Parts.cons in11_ (Parts.cons in12_ (Parts.cons in13_ (Parts.cons in14_ (Parts.cons in15_ (Parts.cons in16_ (Parts.cons in17_ (Parts.cons in18_ (Parts.cons in19_ (Parts.cons in20_ (Parts.cons in21_ (Parts.cons in22_ Parts.nil))))))))))))))))))))))) fr_
theorem frame_applyRelay (s : State) (h : Half) : Frame (allRegs ++ (([.free, .shadow, .tck .A, .tck .B, .pts .A, .pts .B, .mirOut .A, .mirOut .B, .ports .A, .ports .B, .twn .A, .twn .B, .cln .A, .cln .B, .pst .A, .pst .B, .cnp .A, .cnp .B, .thm .A, .thm .B, .mbx .A, .mbx .B, .ref, .met, .saf] : List Part))) s (applyRelay s h) := by
  have hs0 := fun ps => Frame.refl ps s
  unfold applyRelay
  simp (maxDischargeDepth := 80) (contextual := true) [hs0]
@[simp] theorem Frame.after_applyRelay {QS : List Part} {z0 s : State} (h : Half) (fr_ : Frame QS z0 s) (in0_ : ∀ b : Blk, .regs b ∈ QS) (in1_ : .free ∈ QS) (in2_ : .shadow ∈ QS) (in3_ : .tck .A ∈ QS) (in4_ : .tck .B ∈ QS) (in5_ : .pts .A ∈ QS) (in6_ : .pts .B ∈ QS) (in7_ : .mirOut .A ∈ QS) (in8_ : .mirOut .B ∈ QS) (in9_ : .ports .A ∈ QS) (in10_ : .ports .B ∈ QS) (in11_ : .twn .A ∈ QS) (in12_ : .twn .B ∈ QS) (in13_ : .cln .A ∈ QS) (in14_ : .cln .B ∈ QS) (in15_ : .pst .A ∈ QS) (in16_ : .pst .B ∈ QS) (in17_ : .cnp .A ∈ QS) (in18_ : .cnp .B ∈ QS) (in19_ : .thm .A ∈ QS) (in20_ : .thm .B ∈ QS) (in21_ : .mbx .A ∈ QS) (in22_ : .mbx .B ∈ QS) (in23_ : .ref ∈ QS) (in24_ : .met ∈ QS) (in25_ : .saf ∈ QS) : Frame QS z0 (applyRelay s h) := Frame.via (frame_applyRelay s h) (Parts.regs in0_ (Parts.cons in1_ (Parts.cons in2_ (Parts.cons in3_ (Parts.cons in4_ (Parts.cons in5_ (Parts.cons in6_ (Parts.cons in7_ (Parts.cons in8_ (Parts.cons in9_ (Parts.cons in10_ (Parts.cons in11_ (Parts.cons in12_ (Parts.cons in13_ (Parts.cons in14_ (Parts.cons in15_ (Parts.cons in16_ (Parts.cons in17_ (Parts.cons in18_ (Parts.cons in19_ (Parts.cons in20_ (Parts.cons in21_ (Parts.cons in22_ (Parts.cons in23_ (Parts.cons in24_ (Parts.cons in25_ Parts.nil)))))))))))))))))))))))))) fr_
theorem frame_swapStage (h : Half) (s : State) (e : Nat × StageE) : Frame [.stg .A, .stg .B, .mbx .A, .mbx .B] s (swapStage h s e) := by
  have hs0 := fun ps => Frame.refl ps s
  unfold swapStage
  try dsimp only
  repeat'
    first
    | (simp (maxDischargeDepth := 80) (contextual := true) [hs0, *]; done)
    | split
    | (with_reducible refine Frame.after_ite ?_ ?_)
    | (with_reducible refine Frame.after_foldl _ _ (fun _ _ _ => ?_) ?_)
@[simp] theorem Frame.after_swapStage {QS : List Part} (h : Half) {z0 s : State} (e : Nat × StageE) (fr_ : Frame QS z0 s) (in0_ : .stg .A ∈ QS) (in1_ : .stg .B ∈ QS) (in2_ : .mbx .A ∈ QS) (in3_ : .mbx .B ∈ QS) : Frame QS z0 (swapStage h s e) := Frame.via (frame_swapStage h s e) (Parts.cons in0_ (Parts.cons in1_ (Parts.cons in2_ (Parts.cons in3_ Parts.nil)))) fr_
theorem frame_billingTick (s : State) : Frame [.free, .pts .A, .pts .B, .mirOut .A, .mirOut .B, .thm .A, .thm .B, .bil] s (billingTick s) := by
  have hs0 := fun ps => Frame.refl ps s
  unfold billingTick
  simp (maxDischargeDepth := 80) (contextual := true) [hs0]
@[simp] theorem Frame.after_billingTick {QS : List Part} {z0 s : State} (fr_ : Frame QS z0 s) (in0_ : .free ∈ QS) (in1_ : .pts .A ∈ QS) (in2_ : .pts .B ∈ QS) (in3_ : .mirOut .A ∈ QS) (in4_ : .mirOut .B ∈ QS) (in5_ : .thm .A ∈ QS) (in6_ : .thm .B ∈ QS) (in7_ : .bil ∈ QS) : Frame QS z0 (billingTick s) := Frame.via (frame_billingTick s) (Parts.cons in0_ (Parts.cons in1_ (Parts.cons in2_ (Parts.cons in3_ (Parts.cons in4_ (Parts.cons in5_ (Parts.cons in6_ (Parts.cons in7_ Parts.nil)))))))) fr_
theorem frame_stepEdge (s : State) (h : Half) (before : Nat) (r : StepReq) : Frame [.free, .tck .A, .tck .B, .pts .A, .pts .B, .mirOut .A, .mirOut .B, .ports .A, .ports .B, .thm .A, .thm .B, .mbx .A, .mbx .B, .tmr .A, .tmr .B, .met, .bil] s (stepEdge s h before r) := by
  have hs0 := fun ps => Frame.refl ps s
  unfold stepEdge
  try dsimp only
  repeat'
    first
    | (simp (maxDischargeDepth := 80) (contextual := true) [hs0, *]; done)
    | split
    | (with_reducible refine Frame.after_ite ?_ ?_)
    | (with_reducible refine Frame.after_foldl _ _ (fun _ _ _ => ?_) ?_)
@[simp] theorem Frame.after_stepEdge {QS : List Part} {z0 s : State} (h : Half) (before : Nat) (r : StepReq) (fr_ : Frame QS z0 s) (in0_ : .free ∈ QS) (in1_ : .tck .A ∈ QS) (in2_ : .tck .B ∈ QS) (in3_ : .pts .A ∈ QS) (in4_ : .pts .B ∈ QS) (in5_ : .mirOut .A ∈ QS) (in6_ : .mirOut .B ∈ QS) (in7_ : .ports .A ∈ QS) (in8_ : .ports .B ∈ QS) (in9_ : .thm .A ∈ QS) (in10_ : .thm .B ∈ QS) (in11_ : .mbx .A ∈ QS) (in12_ : .mbx .B ∈ QS) (in13_ : .tmr .A ∈ QS) (in14_ : .tmr .B ∈ QS) (in15_ : .met ∈ QS) (in16_ : .bil ∈ QS) : Frame QS z0 (stepEdge s h before r) := Frame.via (frame_stepEdge s h before r) (Parts.cons in0_ (Parts.cons in1_ (Parts.cons in2_ (Parts.cons in3_ (Parts.cons in4_ (Parts.cons in5_ (Parts.cons in6_ (Parts.cons in7_ (Parts.cons in8_ (Parts.cons in9_ (Parts.cons in10_ (Parts.cons in11_ (Parts.cons in12_ (Parts.cons in13_ (Parts.cons in14_ (Parts.cons in15_ (Parts.cons in16_ Parts.nil))))))))))))))))) fr_
theorem frame_sentNow (s : State) (h : Half) : Frame [.ref] s (State.sentNow s h) := by
  have hs0 := fun ps => Frame.refl ps s
  unfold State.sentNow
  try dsimp only
  repeat'
    first
    | (simp (maxDischargeDepth := 80) (contextual := true) [hs0, *]; done)
    | split
    | (with_reducible refine Frame.after_ite ?_ ?_)
    | (with_reducible refine Frame.after_foldl _ _ (fun _ _ _ => ?_) ?_)
@[simp] theorem Frame.after_sentNow {QS : List Part} {z0 s : State} (h : Half) (fr_ : Frame QS z0 s) (in0_ : .ref ∈ QS) : Frame QS z0 (State.sentNow s h) := Frame.via (frame_sentNow s h) (Parts.cons in0_ Parts.nil) fr_
theorem frame_enterService (s : State) (h : Half) : Frame [.twn .A, .twn .B, .ref] s (enterService s h) := by
  have hs0 := fun ps => Frame.refl ps s
  unfold enterService
  try dsimp only
  repeat'
    first
    | (simp (maxDischargeDepth := 80) (contextual := true) [hs0, *]; done)
    | split
    | (with_reducible refine Frame.after_ite ?_ ?_)
    | (with_reducible refine Frame.after_foldl _ _ (fun _ _ _ => ?_) ?_)
@[simp] theorem Frame.after_enterService {QS : List Part} {z0 s : State} (h : Half) (fr_ : Frame QS z0 s) (in0_ : .twn .A ∈ QS) (in1_ : .twn .B ∈ QS) (in2_ : .ref ∈ QS) : Frame QS z0 (enterService s h) := Frame.via (frame_enterService s h) (Parts.cons in0_ (Parts.cons in1_ (Parts.cons in2_ Parts.nil))) fr_
theorem frame_startPert (s : State) (h : Half) : Frame [.twn .A, .twn .B] s (startPert s h) := by
  have hs0 := fun ps => Frame.refl ps s
  unfold startPert
  simp (maxDischargeDepth := 80) (contextual := true) [hs0]
@[simp] theorem Frame.after_startPert {QS : List Part} {z0 s : State} (h : Half) (fr_ : Frame QS z0 s) (in0_ : .twn .A ∈ QS) (in1_ : .twn .B ∈ QS) : Frame QS z0 (startPert s h) := Frame.via (frame_startPert s h) (Parts.cons in0_ (Parts.cons in1_ Parts.nil)) fr_
theorem frame_echoCounts (s : State) (h : Half) : Frame [.regs .twn, .twn .A, .twn .B] s (echoCounts s h) := by
  have hs0 := fun ps => Frame.refl ps s
  unfold echoCounts
  simp (maxDischargeDepth := 80) (contextual := true) [hs0]
@[simp] theorem Frame.after_echoCounts {QS : List Part} {z0 s : State} (h : Half) (fr_ : Frame QS z0 s) (in0_ : .regs .twn ∈ QS) (in1_ : .twn .A ∈ QS) (in2_ : .twn .B ∈ QS) : Frame QS z0 (echoCounts s h) := Frame.via (frame_echoCounts s h) (Parts.cons in0_ (Parts.cons in1_ (Parts.cons in2_ Parts.nil))) fr_
theorem frame_savePoints (s : State) (h : Half) : Frame [.saved .A, .saved .B, .thm .A, .thm .B] s (savePoints s h) := by
  have hs0 := fun ps => Frame.refl ps s
  unfold savePoints
  simp (maxDischargeDepth := 80) (contextual := true) [hs0]
@[simp] theorem Frame.after_savePoints {QS : List Part} {z0 s : State} (h : Half) (fr_ : Frame QS z0 s) (in0_ : .saved .A ∈ QS) (in1_ : .saved .B ∈ QS) (in2_ : .thm .A ∈ QS) (in3_ : .thm .B ∈ QS) : Frame QS z0 (savePoints s h) := Frame.via (frame_savePoints s h) (Parts.cons in0_ (Parts.cons in1_ (Parts.cons in2_ (Parts.cons in3_ Parts.nil)))) fr_
theorem frame_measureVolts (s : State) : Frame [.free, .regs .pwr] s (measureVolts s) := by
  have hs0 := fun ps => Frame.refl ps s
  unfold measureVolts
  simp (maxDischargeDepth := 80) (contextual := true) [hs0]
@[simp] theorem Frame.after_measureVolts {QS : List Part} {z0 s : State} (fr_ : Frame QS z0 s) (in0_ : .free ∈ QS) (in1_ : .regs .pwr ∈ QS) : Frame QS z0 (measureVolts s) := Frame.via (frame_measureVolts s) (Parts.cons in0_ (Parts.cons in1_ Parts.nil)) fr_
theorem frame_rtcCount (s : State) : Frame [.free, .rtc] s (rtcCount s) := by
  have hs0 := fun ps => Frame.refl ps s
  unfold rtcCount
  simp (maxDischargeDepth := 80) (contextual := true) [hs0]
@[simp] theorem Frame.after_rtcCount {QS : List Part} {z0 s : State} (fr_ : Frame QS z0 s) (in0_ : .free ∈ QS) (in1_ : .rtc ∈ QS) : Frame QS z0 (rtcCount s) := Frame.via (frame_rtcCount s) (Parts.cons in0_ (Parts.cons in1_ Parts.nil)) fr_
theorem frame_chargeEdge (s : State) (h : Half) : Frame (allRegs ++ (([.free, .shadow, .blocks, .tck .A, .tck .B, .stg .A, .stg .B, .pts .A, .pts .B, .mirOut .A, .mirOut .B, .restWait .A, .restWait .B, .part .A, .part .B, .ports .A, .ports .B, .bulk .A, .bulk .B, .twn .A, .twn .B, .cln .A, .cln .B, .pst .A, .pst .B, .cnp .A, .cnp .B, .safv .A, .safv .B, .pub .A, .pub .B, .thm .A, .thm .B, .mbx .A, .mbx .B, .tmr .A, .tmr .B, .ref, .ho, .rtc, .veh, .vehG, .bil, .lkt, .upd] : List Part))) s (chargeEdge s h) := by
  have hs0 := fun ps => Frame.refl ps s
  unfold chargeEdge
  simp (maxDischargeDepth := 80) (contextual := true) [hs0]
@[simp] theorem Frame.after_chargeEdge {QS : List Part} {z0 s : State} (h : Half) (fr_ : Frame QS z0 s) (in0_ : ∀ b : Blk, .regs b ∈ QS) (in1_ : .free ∈ QS) (in2_ : .shadow ∈ QS) (in3_ : .blocks ∈ QS) (in4_ : .tck .A ∈ QS) (in5_ : .tck .B ∈ QS) (in6_ : .stg .A ∈ QS) (in7_ : .stg .B ∈ QS) (in8_ : .pts .A ∈ QS) (in9_ : .pts .B ∈ QS) (in10_ : .mirOut .A ∈ QS) (in11_ : .mirOut .B ∈ QS) (in12_ : .restWait .A ∈ QS) (in13_ : .restWait .B ∈ QS) (in14_ : .part .A ∈ QS) (in15_ : .part .B ∈ QS) (in16_ : .ports .A ∈ QS) (in17_ : .ports .B ∈ QS) (in18_ : .bulk .A ∈ QS) (in19_ : .bulk .B ∈ QS) (in20_ : .twn .A ∈ QS) (in21_ : .twn .B ∈ QS) (in22_ : .cln .A ∈ QS) (in23_ : .cln .B ∈ QS) (in24_ : .pst .A ∈ QS) (in25_ : .pst .B ∈ QS) (in26_ : .cnp .A ∈ QS) (in27_ : .cnp .B ∈ QS) (in28_ : .safv .A ∈ QS) (in29_ : .safv .B ∈ QS) (in30_ : .pub .A ∈ QS) (in31_ : .pub .B ∈ QS) (in32_ : .thm .A ∈ QS) (in33_ : .thm .B ∈ QS) (in34_ : .mbx .A ∈ QS) (in35_ : .mbx .B ∈ QS) (in36_ : .tmr .A ∈ QS) (in37_ : .tmr .B ∈ QS) (in38_ : .ref ∈ QS) (in39_ : .ho ∈ QS) (in40_ : .rtc ∈ QS) (in41_ : .veh ∈ QS) (in42_ : .vehG ∈ QS) (in43_ : .bil ∈ QS) (in44_ : .lkt ∈ QS) (in45_ : .upd ∈ QS) : Frame QS z0 (chargeEdge s h) := Frame.via (frame_chargeEdge s h) (Parts.regs in0_ (Parts.cons in1_ (Parts.cons in2_ (Parts.cons in3_ (Parts.cons in4_ (Parts.cons in5_ (Parts.cons in6_ (Parts.cons in7_ (Parts.cons in8_ (Parts.cons in9_ (Parts.cons in10_ (Parts.cons in11_ (Parts.cons in12_ (Parts.cons in13_ (Parts.cons in14_ (Parts.cons in15_ (Parts.cons in16_ (Parts.cons in17_ (Parts.cons in18_ (Parts.cons in19_ (Parts.cons in20_ (Parts.cons in21_ (Parts.cons in22_ (Parts.cons in23_ (Parts.cons in24_ (Parts.cons in25_ (Parts.cons in26_ (Parts.cons in27_ (Parts.cons in28_ (Parts.cons in29_ (Parts.cons in30_ (Parts.cons in31_ (Parts.cons in32_ (Parts.cons in33_ (Parts.cons in34_ (Parts.cons in35_ (Parts.cons in36_ (Parts.cons in37_ (Parts.cons in38_ (Parts.cons in39_ (Parts.cons in40_ (Parts.cons in41_ (Parts.cons in42_ (Parts.cons in43_ (Parts.cons in44_ (Parts.cons in45_ Parts.nil)))))))))))))))))))))))))))))))))))))))))))))) fr_

end Sys2Proof.Machine
end

