-- ==== Sys2Proof/Laws/FrameTwin.lean ====
section
/-!
SUPPORT. Which parts of the state each operation of Machine/Twin.lean may change, and the same as one more step of a framed run.
-/

namespace Sys2Proof.Machine

set_option maxRecDepth 4000

theorem frame_passTunnels (s : State) (g : Half) : Frame [.ports .A, .ports .B] s (passTunnels s g) := by
  have hs0 := fun ps => Frame.refl ps s
  unfold passTunnels
  simp (maxDischargeDepth := 80) (contextual := true) [hs0]
@[simp] theorem Frame.after_passTunnels {QS : List Part} {z0 s : State} (g : Half) (fr_ : Frame QS z0 s) (in0_ : .ports .A ∈ QS) (in1_ : .ports .B ∈ QS) : Frame QS z0 (passTunnels s g) := Frame.via (frame_passTunnels s g) (Parts.cons in0_ (Parts.cons in1_ Parts.nil)) fr_
theorem frame_loadImage (s : State) (h : Half) (img : Tab Word) : Frame (allRegs ++ (([] : List Part))) s (loadImage s h img) := by
  have hs0 := fun ps => Frame.refl ps s
  unfold loadImage
  simp (maxDischargeDepth := 80) (contextual := true) [hs0]
@[simp] theorem Frame.after_loadImage {QS : List Part} {z0 s : State} (h : Half) (img : Tab Word) (fr_ : Frame QS z0 s) (in0_ : ∀ b : Blk, .regs b ∈ QS) : Frame QS z0 (loadImage s h img) := Frame.via (frame_loadImage s h img) (Parts.regs in0_ Parts.nil) fr_
theorem frame_setCounter (s : State) (h : Half) (n : Nat) : Frame [.free, .tck .A, .tck .B, .rtc] s (setCounter s h n) := by
  have hs0 := fun ps => Frame.refl ps s
  unfold setCounter
  simp (maxDischargeDepth := 80) (contextual := true) [hs0]
@[simp] theorem Frame.after_setCounter {QS : List Part} {z0 s : State} (h : Half) (n : Nat) (fr_ : Frame QS z0 s) (in0_ : .free ∈ QS) (in1_ : .tck .A ∈ QS) (in2_ : .tck .B ∈ QS) (in3_ : .rtc ∈ QS) : Frame QS z0 (setCounter s h n) := Frame.via (frame_setCounter s h n) (Parts.cons in0_ (Parts.cons in1_ (Parts.cons in2_ (Parts.cons in3_ Parts.nil)))) fr_
theorem frame_startTakeover (s : State) (h : Half) : Frame (allRegs ++ (([.twn .A, .twn .B, .mbx .A, .mbx .B, .ref] : List Part))) s (startTakeover s h) := by
  have hs0 := fun ps => Frame.refl ps s
  unfold startTakeover
  simp (maxDischargeDepth := 80) (contextual := true) [hs0]
@[simp] theorem Frame.after_startTakeover {QS : List Part} {z0 s : State} (h : Half) (fr_ : Frame QS z0 s) (in0_ : ∀ b : Blk, .regs b ∈ QS) (in1_ : .twn .A ∈ QS) (in2_ : .twn .B ∈ QS) (in3_ : .mbx .A ∈ QS) (in4_ : .mbx .B ∈ QS) (in5_ : .ref ∈ QS) : Frame QS z0 (startTakeover s h) := Frame.via (frame_startTakeover s h) (Parts.regs in0_ (Parts.cons in1_ (Parts.cons in2_ (Parts.cons in3_ (Parts.cons in4_ (Parts.cons in5_ Parts.nil)))))) fr_
theorem frame_shadowMiss (s : State) (h : Half) (lane : Nat) (spare : Nat) : Frame [.regs .twn, .mbx .A, .mbx .B] s (shadowMiss s h lane spare) := by
  have hs0 := fun ps => Frame.refl ps s
  unfold shadowMiss
  simp (maxDischargeDepth := 80) (contextual := true) [hs0]
@[simp] theorem Frame.after_shadowMiss {QS : List Part} {z0 s : State} (h : Half) (lane : Nat) (spare : Nat) (fr_ : Frame QS z0 s) (in0_ : .regs .twn ∈ QS) (in1_ : .mbx .A ∈ QS) (in2_ : .mbx .B ∈ QS) : Frame QS z0 (shadowMiss s h lane spare) := Frame.via (frame_shadowMiss s h lane spare) (Parts.cons in0_ (Parts.cons in1_ (Parts.cons in2_ Parts.nil))) fr_
theorem frame_spareFaulty (s : State) (h : Half) (spare : Nat) : Frame [.twn .A, .twn .B, .mbx .A, .mbx .B] s (spareFaulty s h spare) := by
  have hs0 := fun ps => Frame.refl ps s
  unfold spareFaulty
  simp (maxDischargeDepth := 80) (contextual := true) [hs0]
@[simp] theorem Frame.after_spareFaulty {QS : List Part} {z0 s : State} (h : Half) (spare : Nat) (fr_ : Frame QS z0 s) (in0_ : .twn .A ∈ QS) (in1_ : .twn .B ∈ QS) (in2_ : .mbx .A ∈ QS) (in3_ : .mbx .B ∈ QS) : Frame QS z0 (spareFaulty s h spare) := Frame.via (frame_spareFaulty s h spare) (Parts.cons in0_ (Parts.cons in1_ (Parts.cons in2_ (Parts.cons in3_ Parts.nil)))) fr_
theorem frame_judgeShadow (rs : List ShadowResult) (h : Half) (s : State) (e : Nat × Nat) : Frame [.regs .twn, .twn .A, .twn .B, .mbx .A, .mbx .B] s (judgeShadow rs h s e) := by
  have hs0 := fun ps => Frame.refl ps s
  unfold judgeShadow
  try dsimp only
  repeat'
    first
    | (simp (maxDischargeDepth := 80) (contextual := true) [hs0, *]; done)
    | split
    | (with_reducible refine Frame.after_ite ?_ ?_)
    | (with_reducible refine Frame.after_foldl _ _ (fun _ _ _ => ?_) ?_)
@[simp] theorem Frame.after_judgeShadow {QS : List Part} (rs : List ShadowResult) (h : Half) {z0 s : State} (e : Nat × Nat) (fr_ : Frame QS z0 s) (in0_ : .regs .twn ∈ QS) (in1_ : .twn .A ∈ QS) (in2_ : .twn .B ∈ QS) (in3_ : .mbx .A ∈ QS) (in4_ : .mbx .B ∈ QS) : Frame QS z0 (judgeShadow rs h s e) := Frame.via (frame_judgeShadow rs h s e) (Parts.cons in0_ (Parts.cons in1_ (Parts.cons in2_ (Parts.cons in3_ (Parts.cons in4_ Parts.nil))))) fr_
theorem frame_inconclusive (s : State) (h : Half) : Frame [.regs .twn, .twn .A, .twn .B, .mbx .A, .mbx .B] s (inconclusive s h) := by
  have hs0 := fun ps => Frame.refl ps s
  unfold inconclusive
  simp (maxDischargeDepth := 80) (contextual := true) [hs0]
@[simp] theorem Frame.after_inconclusive {QS : List Part} {z0 s : State} (h : Half) (fr_ : Frame QS z0 s) (in0_ : .regs .twn ∈ QS) (in1_ : .twn .A ∈ QS) (in2_ : .twn .B ∈ QS) (in3_ : .mbx .A ∈ QS) (in4_ : .mbx .B ∈ QS) : Frame QS z0 (inconclusive s h) := Frame.via (frame_inconclusive s h) (Parts.cons in0_ (Parts.cons in1_ (Parts.cons in2_ (Parts.cons in3_ (Parts.cons in4_ Parts.nil))))) fr_
theorem frame_feedEv (s : State) : Frame [.mbx .A, .mbx .B] s (feedEv s) := by
  have hs0 := fun ps => Frame.refl ps s
  unfold feedEv
  simp (maxDischargeDepth := 80) (contextual := true) [hs0]
@[simp] theorem Frame.after_feedEv {QS : List Part} {z0 s : State} (fr_ : Frame QS z0 s) (in0_ : .mbx .A ∈ QS) (in1_ : .mbx .B ∈ QS) : Frame QS z0 (feedEv s) := Frame.via (frame_feedEv s) (Parts.cons in0_ (Parts.cons in1_ Parts.nil)) fr_

end Sys2Proof.Machine
end

