-- ==== Sys2Proof/Laws/FrameVehicle.lean ====
section
/-!
SUPPORT. Which parts of the state each operation of Machine/Vehicle.lean may change, and the same as one more step of a framed run.
-/

namespace Sys2Proof.Machine

set_option maxRecDepth 4000

theorem frame_sessTaken (s : State) : Frame [.vehG] s (State.sessTaken s) := by
  have hs0 := fun ps => Frame.refl ps s
  unfold State.sessTaken
  try dsimp only
  repeat'
    first
    | (simp (maxDischargeDepth := 80) (contextual := true) [hs0, *]; done)
    | split
    | (with_reducible refine Frame.after_ite ?_ ?_)
    | (with_reducible refine Frame.after_foldl _ _ (fun _ _ _ => ?_) ?_)
@[simp] theorem Frame.after_sessTaken {QS : List Part} {z0 s : State} (fr_ : Frame QS z0 s) (in0_ : .vehG ∈ QS) : Frame QS z0 (State.sessTaken s) := Frame.via (frame_sessTaken s) (Parts.cons in0_ Parts.nil) fr_
theorem frame_plug (s : State) (k : Nat) : Frame [.free, .pts .A, .pts .B, .mirOut .A, .mirOut .B, .thm .A, .thm .B, .mbx .A, .mbx .B, .veh, .vehG, .bil, .lkt] s (State.plug s k) := by
  have hs0 := fun ps => Frame.refl ps s
  unfold State.plug
  try dsimp only
  repeat'
    first
    | (simp (maxDischargeDepth := 80) (contextual := true) [hs0, *]; done)
    | split
    | (with_reducible refine Frame.after_ite ?_ ?_)
    | (with_reducible refine Frame.after_foldl _ _ (fun _ _ _ => ?_) ?_)
@[simp] theorem Frame.after_plug {QS : List Part} {z0 s : State} (k : Nat) (fr_ : Frame QS z0 s) (in0_ : .free ∈ QS) (in1_ : .pts .A ∈ QS) (in2_ : .pts .B ∈ QS) (in3_ : .mirOut .A ∈ QS) (in4_ : .mirOut .B ∈ QS) (in5_ : .thm .A ∈ QS) (in6_ : .thm .B ∈ QS) (in7_ : .mbx .A ∈ QS) (in8_ : .mbx .B ∈ QS) (in9_ : .veh ∈ QS) (in10_ : .vehG ∈ QS) (in11_ : .bil ∈ QS) (in12_ : .lkt ∈ QS) : Frame QS z0 (State.plug s k) := Frame.via (frame_plug s k) (Parts.cons in0_ (Parts.cons in1_ (Parts.cons in2_ (Parts.cons in3_ (Parts.cons in4_ (Parts.cons in5_ (Parts.cons in6_ (Parts.cons in7_ (Parts.cons in8_ (Parts.cons in9_ (Parts.cons in10_ (Parts.cons in11_ (Parts.cons in12_ Parts.nil))))))))))))) fr_
theorem frame_respond (s : State) (k : Nat) : Frame [.free, .ports .A, .ports .B, .veh] s (State.respond s k) := by
  have hs0 := fun ps => Frame.refl ps s
  unfold State.respond
  simp (maxDischargeDepth := 80) (contextual := true) [hs0]
@[simp] theorem Frame.after_respond {QS : List Part} {z0 s : State} (k : Nat) (fr_ : Frame QS z0 s) (in0_ : .free ∈ QS) (in1_ : .ports .A ∈ QS) (in2_ : .ports .B ∈ QS) (in3_ : .veh ∈ QS) : Frame QS z0 (State.respond s k) := Frame.via (frame_respond s k) (Parts.cons in0_ (Parts.cons in1_ (Parts.cons in2_ (Parts.cons in3_ Parts.nil)))) fr_
theorem frame_noMatch (s : State) (k : Nat) (run : Nat) : Frame [.free, .ports .A, .ports .B, .veh] s (State.noMatch s k run) := by
  have hs0 := fun ps => Frame.refl ps s
  unfold State.noMatch
  simp (maxDischargeDepth := 80) (contextual := true) [hs0]
@[simp] theorem Frame.after_noMatch {QS : List Part} {z0 s : State} (k : Nat) (run : Nat) (fr_ : Frame QS z0 s) (in0_ : .free ∈ QS) (in1_ : .ports .A ∈ QS) (in2_ : .ports .B ∈ QS) (in3_ : .veh ∈ QS) : Frame QS z0 (State.noMatch s k run) := Frame.via (frame_noMatch s k run) (Parts.cons in0_ (Parts.cons in1_ (Parts.cons in2_ (Parts.cons in3_ Parts.nil)))) fr_
theorem frame_trafficKey (s : State) (k : Nat) (key : Nat) : Frame [.free, .veh, .lkt] s (State.trafficKey s k key) := by
  have hs0 := fun ps => Frame.refl ps s
  unfold State.trafficKey
  simp (maxDischargeDepth := 80) (contextual := true) [hs0]
@[simp] theorem Frame.after_trafficKey {QS : List Part} {z0 s : State} (k : Nat) (key : Nat) (fr_ : Frame QS z0 s) (in0_ : .free ∈ QS) (in1_ : .veh ∈ QS) (in2_ : .lkt ∈ QS) : Frame QS z0 (State.trafficKey s k key) := Frame.via (frame_trafficKey s k key) (Parts.cons in0_ (Parts.cons in1_ (Parts.cons in2_ Parts.nil))) fr_
theorem frame_takeLimits (s : State) (k : Nat) (l : VehLim) : Frame [.free, .mbx .A, .mbx .B, .veh, .lkt] s (State.takeLimits s k l) := by
  have hs0 := fun ps => Frame.refl ps s
  unfold State.takeLimits
  try dsimp only
  repeat'
    first
    | (simp (maxDischargeDepth := 80) (contextual := true) [hs0, *]; done)
    | split
    | (with_reducible refine Frame.after_ite ?_ ?_)
    | (with_reducible refine Frame.after_foldl _ _ (fun _ _ _ => ?_) ?_)
@[simp] theorem Frame.after_takeLimits {QS : List Part} {z0 s : State} (k : Nat) (l : VehLim) (fr_ : Frame QS z0 s) (in0_ : .free ∈ QS) (in1_ : .mbx .A ∈ QS) (in2_ : .mbx .B ∈ QS) (in3_ : .veh ∈ QS) (in4_ : .lkt ∈ QS) : Frame QS z0 (State.takeLimits s k l) := Frame.via (frame_takeLimits s k l) (Parts.cons in0_ (Parts.cons in1_ (Parts.cons in2_ (Parts.cons in3_ (Parts.cons in4_ Parts.nil))))) fr_
theorem frame_vehMsg (s : State) (k : Nat) (m : VehMsg) : Frame [.free, .pts .A, .pts .B, .mirOut .A, .mirOut .B, .thm .A, .thm .B, .mbx .A, .mbx .B, .veh, .lkt] s (State.vehMsg s k m) := by
  have hs0 := fun ps => Frame.refl ps s
  unfold State.vehMsg
  try dsimp only
  repeat'
    first
    | (simp (maxDischargeDepth := 80) (contextual := true) [hs0, *]; done)
    | split
    | (with_reducible refine Frame.after_ite ?_ ?_)
    | (with_reducible refine Frame.after_foldl _ _ (fun _ _ _ => ?_) ?_)
@[simp] theorem Frame.after_vehMsg {QS : List Part} {z0 s : State} (k : Nat) (m : VehMsg) (fr_ : Frame QS z0 s) (in0_ : .free ∈ QS) (in1_ : .pts .A ∈ QS) (in2_ : .pts .B ∈ QS) (in3_ : .mirOut .A ∈ QS) (in4_ : .mirOut .B ∈ QS) (in5_ : .thm .A ∈ QS) (in6_ : .thm .B ∈ QS) (in7_ : .mbx .A ∈ QS) (in8_ : .mbx .B ∈ QS) (in9_ : .veh ∈ QS) (in10_ : .lkt ∈ QS) : Frame QS z0 (State.vehMsg s k m) := Frame.via (frame_vehMsg s k m) (Parts.cons in0_ (Parts.cons in1_ (Parts.cons in2_ (Parts.cons in3_ (Parts.cons in4_ (Parts.cons in5_ (Parts.cons in6_ (Parts.cons in7_ (Parts.cons in8_ (Parts.cons in9_ (Parts.cons in10_ Parts.nil))))))))))) fr_
theorem frame_writeSet (s : State) (hs : List Half) (l : List (Nat × Int)) : Frame [.stg .A, .stg .B, .veh] s (State.writeSet s hs l) := by
  have hs0 := fun ps => Frame.refl ps s
  unfold State.writeSet
  simp (maxDischargeDepth := 80) (contextual := true) [hs0]
@[simp] theorem Frame.after_writeSet {QS : List Part} {z0 s : State} (hs : List Half) (l : List (Nat × Int)) (fr_ : Frame QS z0 s) (in0_ : .stg .A ∈ QS) (in1_ : .stg .B ∈ QS) (in2_ : .veh ∈ QS) : Frame QS z0 (State.writeSet s hs l) := Frame.via (frame_writeSet s hs l) (Parts.cons in0_ (Parts.cons in1_ (Parts.cons in2_ Parts.nil))) fr_
theorem frame_resumeSession (s : State) (k : Nat) : Frame [.free, .mbx .A, .mbx .B, .veh, .lkt] s (resumeSession s k) := by
  have hs0 := fun ps => Frame.refl ps s
  unfold resumeSession
  try dsimp only
  repeat'
    first
    | (simp (maxDischargeDepth := 80) (contextual := true) [hs0, *]; done)
    | split
    | (with_reducible refine Frame.after_ite ?_ ?_)
    | (with_reducible refine Frame.after_foldl _ _ (fun _ _ _ => ?_) ?_)
@[simp] theorem Frame.after_resumeSession {QS : List Part} {z0 s : State} (k : Nat) (fr_ : Frame QS z0 s) (in0_ : .free ∈ QS) (in1_ : .mbx .A ∈ QS) (in2_ : .mbx .B ∈ QS) (in3_ : .veh ∈ QS) (in4_ : .lkt ∈ QS) : Frame QS z0 (resumeSession s k) := Frame.via (frame_resumeSession s k) (Parts.cons in0_ (Parts.cons in1_ (Parts.cons in2_ (Parts.cons in3_ (Parts.cons in4_ Parts.nil))))) fr_

end Sys2Proof.Machine
end

