-- ==== Sys2Proof/Laws/Mbx.lean ====
section
/-!
SUPPORT. Events raised, completions produced and commands running stay so through the operations that follow.
-/

namespace Sys2Proof.Machine

/-! ### From the mailboxes -/

theorem Raised.keep {s t : State} {h : Half} {a c : Nat} {d : List Nat} (e : ∀ q ∈ (s.hf h).mbx.events, q ∈ (t.hf h).mbx.events)
    (r : Raised s h a c d) : Raised t h a c d := by
  obtain ⟨q, m, x⟩ := r
  exact ⟨q, e q m, x⟩

theorem Answered.keep {s t : State} {o : Org} {a c : Nat} {f : Bool} (e : ∀ q ∈ (s.hf o.half).mbx.compl, q ∈ (t.hf o.half).mbx.compl)
    (r : Answered s o a c f) : Answered t o a c f := by
  obtain ⟨q, m, x⟩ := r
  exact ⟨q, e q m, x⟩

theorem AnsweredWith.keep {s t : State} {o : Org} {a c : Nat} {f : Bool} {p : List Nat} (e : ∀ q ∈ (s.hf o.half).mbx.compl, q ∈ (t.hf o.half).mbx.compl)
    (r : AnsweredWith s o a c f p) : AnsweredWith t o a c f p := by
  obtain ⟨q, m, x⟩ := r
  exact ⟨q, e q m, x⟩

theorem Running.keep {s t : State} {o : Org} (e : (t.hf o.half).mbx.started = (s.hf o.half).mbx.started) (r : Running s o) : Running t o :=
  running_congr e r

theorem mbx_of_frame {ps : List Part} {s t : State} (f : Frame ps s t) (h : Half) (m : Part.mbx h ∉ ps) : (t.hf h).mbx = (s.hf h).mbx := f (.mbx h) m

/-- A command that runs and completes has its completion; a payload too long for the completion is left out with ST_BAD_LENGTH (R507). -/
theorem answered_complete_any {s : State} {o : Org} (r : Running s o) (x : Half) (opc st : Nat) (fin : Bool) (p : List Nat) :
    Answered (s.complete o x opc st fin p) o opc st fin ∨ Answered (s.complete o x opc st fin p) o opc stBadLength fin := by
  simp only [Running, List.any_eq_true] at r
  obtain ⟨c, hc, e⟩ := r
  have hs : ((s.hf o.half).mbx.started.find? fun c => sameCmd c.org o).isSome := by
    rw [List.find?_isSome]; exact ⟨c, hc, e⟩
  obtain ⟨d, hd⟩ := Option.isSome_iff_exists.mp hs
  by_cases hb : (24 < p.length ∧ d.cap < p.length)
  · refine Or.inr ?_
    simp only [Answered, State.complete, State.completeAt, State.mMbx, hf_mh_same, hd, hb]
    exact ⟨_, List.mem_append_right _ (List.mem_singleton.mpr rfl), rfl, rfl, rfl, rfl, by simp [stBadLength], rfl⟩
  · refine Or.inl ?_
    simp only [Answered, State.complete, State.completeAt, State.mMbx, hf_mh_same, hd, hb]
    exact ⟨_, List.mem_append_right _ (List.mem_singleton.mpr rfl), rfl, rfl, rfl, rfl, by simp, rfl⟩

/-! ### Operation by operation -/

@[simp] theorem raised_mTck_keep {s : State} {h : Half} {a c : Nat} {d : List Nat} (k : Half) (g : TckS → TckS) (r : Raised s h a c d) : Raised (s.mTck k g) h a c d := r.keep fun _ m => (mbx_of_frame (frame_mTck s k g) _ (by simp)).symm ▸ m
@[simp] theorem answered_mTck_keep {s : State} {o : Org} {a c : Nat} {f : Bool} (k : Half) (g : TckS → TckS) (r : Answered s o a c f) : Answered (s.mTck k g) o a c f := r.keep fun _ m => (mbx_of_frame (frame_mTck s k g) _ (by simp)).symm ▸ m
@[simp] theorem answeredWith_mTck_keep {s : State} {o : Org} {a c : Nat} {f : Bool} {p : List Nat} (k : Half) (g : TckS → TckS) (r : AnsweredWith s o a c f p) : AnsweredWith (s.mTck k g) o a c f p := r.keep fun _ m => (mbx_of_frame (frame_mTck s k g) _ (by simp)).symm ▸ m
@[simp] theorem running_mTck_keep {s : State} {o : Org} (k : Half) (g : TckS → TckS) (r : Running s o) : Running (s.mTck k g) o := r.keep (congrArg MbxS.started (mbx_of_frame (frame_mTck s k g) _ (by simp)))
@[simp] theorem raised_mTwn_keep {s : State} {h : Half} {a c : Nat} {d : List Nat} (k : Half) (g : TwnS → TwnS) (r : Raised s h a c d) : Raised (s.mTwn k g) h a c d := r.keep fun _ m => (mbx_of_frame (frame_mTwn s k g) _ (by simp)).symm ▸ m
@[simp] theorem answered_mTwn_keep {s : State} {o : Org} {a c : Nat} {f : Bool} (k : Half) (g : TwnS → TwnS) (r : Answered s o a c f) : Answered (s.mTwn k g) o a c f := r.keep fun _ m => (mbx_of_frame (frame_mTwn s k g) _ (by simp)).symm ▸ m
@[simp] theorem answeredWith_mTwn_keep {s : State} {o : Org} {a c : Nat} {f : Bool} {p : List Nat} (k : Half) (g : TwnS → TwnS) (r : AnsweredWith s o a c f p) : AnsweredWith (s.mTwn k g) o a c f p := r.keep fun _ m => (mbx_of_frame (frame_mTwn s k g) _ (by simp)).symm ▸ m
@[simp] theorem running_mTwn_keep {s : State} {o : Org} (k : Half) (g : TwnS → TwnS) (r : Running s o) : Running (s.mTwn k g) o := r.keep (congrArg MbxS.started (mbx_of_frame (frame_mTwn s k g) _ (by simp)))
@[simp] theorem raised_mPort_keep {s : State} {h : Half} {a c : Nat} {d : List Nat} (k : Half) (n : Nat) (g : PortS → PortS) (r : Raised s h a c d) : Raised (s.mPort k n g) h a c d := r.keep fun _ m => (mbx_of_frame (frame_mPort s k n g) _ (by simp)).symm ▸ m
@[simp] theorem answered_mPort_keep {s : State} {o : Org} {a c : Nat} {f : Bool} (k : Half) (n : Nat) (g : PortS → PortS) (r : Answered s o a c f) : Answered (s.mPort k n g) o a c f := r.keep fun _ m => (mbx_of_frame (frame_mPort s k n g) _ (by simp)).symm ▸ m
@[simp] theorem answeredWith_mPort_keep {s : State} {o : Org} {a c : Nat} {f : Bool} {p : List Nat} (k : Half) (n : Nat) (g : PortS → PortS) (r : AnsweredWith s o a c f p) : AnsweredWith (s.mPort k n g) o a c f p := r.keep fun _ m => (mbx_of_frame (frame_mPort s k n g) _ (by simp)).symm ▸ m
@[simp] theorem running_mPort_keep {s : State} {o : Org} (k : Half) (n : Nat) (g : PortS → PortS) (r : Running s o) : Running (s.mPort k n g) o := r.keep (congrArg MbxS.started (mbx_of_frame (frame_mPort s k n g) _ (by simp)))
@[simp] theorem raised_srg_keep {s : State} {h : Half} {a c : Nat} {d : List Nat} (b : Blk) (k : Half) (n : Nat) (v : Word) (r : Raised s h a c d) : Raised (s.srg b k n v) h a c d := r.keep fun _ m => (mbx_of_frame (frame_srg s b k n v) _ (by simp)).symm ▸ m
@[simp] theorem answered_srg_keep {s : State} {o : Org} {a c : Nat} {f : Bool} (b : Blk) (k : Half) (n : Nat) (v : Word) (r : Answered s o a c f) : Answered (s.srg b k n v) o a c f := r.keep fun _ m => (mbx_of_frame (frame_srg s b k n v) _ (by simp)).symm ▸ m
@[simp] theorem answeredWith_srg_keep {s : State} {o : Org} {a c : Nat} {f : Bool} {p : List Nat} (b : Blk) (k : Half) (n : Nat) (v : Word) (r : AnsweredWith s o a c f p) : AnsweredWith (s.srg b k n v) o a c f p := r.keep fun _ m => (mbx_of_frame (frame_srg s b k n v) _ (by simp)).symm ▸ m
@[simp] theorem running_srg_keep {s : State} {o : Org} (b : Blk) (k : Half) (n : Nat) (v : Word) (r : Running s o) : Running (s.srg b k n v) o := r.keep (congrArg MbxS.started (mbx_of_frame (frame_srg s b k n v) _ (by simp)))
@[simp] theorem raised_srf_keep {s : State} {h : Half} {a c : Nat} {d : List Nat} (b : Blk) (k : Half) (n i j v : Nat) (r : Raised s h a c d) : Raised (s.srf b k n i j v) h a c d := r.keep fun _ m => (mbx_of_frame (frame_srf s b k n i j v) _ (by simp)).symm ▸ m
@[simp] theorem answered_srf_keep {s : State} {o : Org} {a c : Nat} {f : Bool} (b : Blk) (k : Half) (n i j v : Nat) (r : Answered s o a c f) : Answered (s.srf b k n i j v) o a c f := r.keep fun _ m => (mbx_of_frame (frame_srf s b k n i j v) _ (by simp)).symm ▸ m
@[simp] theorem answeredWith_srf_keep {s : State} {o : Org} {a c : Nat} {f : Bool} {p : List Nat} (b : Blk) (k : Half) (n i j v : Nat) (r : AnsweredWith s o a c f p) : AnsweredWith (s.srf b k n i j v) o a c f p := r.keep fun _ m => (mbx_of_frame (frame_srf s b k n i j v) _ (by simp)).symm ▸ m
@[simp] theorem running_srf_keep {s : State} {o : Org} (b : Blk) (k : Half) (n i j v : Nat) (r : Running s o) : Running (s.srf b k n i j v) o := r.keep (congrArg MbxS.started (mbx_of_frame (frame_srf s b k n i j v) _ (by simp)))
@[simp] theorem raised_bump_keep {s : State} {h : Half} {a c : Nat} {d : List Nat} (b : Blk) (k : Half) (n v : Nat) (r : Raised s h a c d) : Raised (s.bump b k n v) h a c d := r.keep fun _ m => (mbx_of_frame (frame_bump s b k n v) _ (by simp)).symm ▸ m
@[simp] theorem answered_bump_keep {s : State} {o : Org} {a c : Nat} {f : Bool} (b : Blk) (k : Half) (n v : Nat) (r : Answered s o a c f) : Answered (s.bump b k n v) o a c f := r.keep fun _ m => (mbx_of_frame (frame_bump s b k n v) _ (by simp)).symm ▸ m
@[simp] theorem answeredWith_bump_keep {s : State} {o : Org} {a c : Nat} {f : Bool} {p : List Nat} (b : Blk) (k : Half) (n v : Nat) (r : AnsweredWith s o a c f p) : AnsweredWith (s.bump b k n v) o a c f p := r.keep fun _ m => (mbx_of_frame (frame_bump s b k n v) _ (by simp)).symm ▸ m
@[simp] theorem running_bump_keep {s : State} {o : Org} (b : Blk) (k : Half) (n v : Nat) (r : Running s o) : Running (s.bump b k n v) o := r.keep (congrArg MbxS.started (mbx_of_frame (frame_bump s b k n v) _ (by simp)))
@[simp] theorem raised_drew_keep {s : State} {h : Half} {a c : Nat} {d : List Nat} (n : Nat) (r : Raised s h a c d) : Raised (s.drew n) h a c d := r.keep fun _ m => (mbx_of_frame (frame_drew s n) _ (by simp)).symm ▸ m
@[simp] theorem answered_drew_keep {s : State} {o : Org} {a c : Nat} {f : Bool} (n : Nat) (r : Answered s o a c f) : Answered (s.drew n) o a c f := r.keep fun _ m => (mbx_of_frame (frame_drew s n) _ (by simp)).symm ▸ m
@[simp] theorem answeredWith_drew_keep {s : State} {o : Org} {a c : Nat} {f : Bool} {p : List Nat} (n : Nat) (r : AnsweredWith s o a c f p) : AnsweredWith (s.drew n) o a c f p := r.keep fun _ m => (mbx_of_frame (frame_drew s n) _ (by simp)).symm ▸ m
@[simp] theorem running_drew_keep {s : State} {o : Org} (n : Nat) (r : Running s o) : Running (s.drew n) o := r.keep (congrArg MbxS.started (mbx_of_frame (frame_drew s n) _ (by simp)))
@[simp] theorem raised_mBlk_keep {s : State} {h : Half} {a c : Nat} {d : List Nat} (b : Blk) (k : Half) (g : BlockDyn → BlockDyn) (r : Raised s h a c d) : Raised (s.mBlk b k g) h a c d := r.keep fun _ m => (mbx_of_frame (frame_mBlk s b k g) _ (by simp)).symm ▸ m
@[simp] theorem answered_mBlk_keep {s : State} {o : Org} {a c : Nat} {f : Bool} (b : Blk) (k : Half) (g : BlockDyn → BlockDyn) (r : Answered s o a c f) : Answered (s.mBlk b k g) o a c f := r.keep fun _ m => (mbx_of_frame (frame_mBlk s b k g) _ (by simp)).symm ▸ m
@[simp] theorem answeredWith_mBlk_keep {s : State} {o : Org} {a c : Nat} {f : Bool} {p : List Nat} (b : Blk) (k : Half) (g : BlockDyn → BlockDyn) (r : AnsweredWith s o a c f p) : AnsweredWith (s.mBlk b k g) o a c f p := r.keep fun _ m => (mbx_of_frame (frame_mBlk s b k g) _ (by simp)).symm ▸ m
@[simp] theorem running_mBlk_keep {s : State} {o : Org} (b : Blk) (k : Half) (g : BlockDyn → BlockDyn) (r : Running s o) : Running (s.mBlk b k g) o := r.keep (congrArg MbxS.started (mbx_of_frame (frame_mBlk s b k g) _ (by simp)))
@[simp] theorem raised_mRem_keep {s : State} {h : Half} {a c : Nat} {d : List Nat} (n : Nat) (g : Remote → Remote) (r : Raised s h a c d) : Raised (s.mRem n g) h a c d := r.keep fun _ m => (mbx_of_frame (frame_mRem s n g) _ (by simp)).symm ▸ m
@[simp] theorem answered_mRem_keep {s : State} {o : Org} {a c : Nat} {f : Bool} (n : Nat) (g : Remote → Remote) (r : Answered s o a c f) : Answered (s.mRem n g) o a c f := r.keep fun _ m => (mbx_of_frame (frame_mRem s n g) _ (by simp)).symm ▸ m
@[simp] theorem answeredWith_mRem_keep {s : State} {o : Org} {a c : Nat} {f : Bool} {p : List Nat} (n : Nat) (g : Remote → Remote) (r : AnsweredWith s o a c f p) : AnsweredWith (s.mRem n g) o a c f p := r.keep fun _ m => (mbx_of_frame (frame_mRem s n g) _ (by simp)).symm ▸ m
@[simp] theorem running_mRem_keep {s : State} {o : Org} (n : Nat) (g : Remote → Remote) (r : Running s o) : Running (s.mRem n g) o := r.keep (congrArg MbxS.started (mbx_of_frame (frame_mRem s n g) _ (by simp)))
@[simp] theorem raised_flashWrite_keep {s : State} {h : Half} {a c : Nat} {d : List Nat} (k : Half) (n : Nat) (r : Raised s h a c d) : Raised (s.flashWrite k n) h a c d := r.keep fun _ m => (mbx_of_frame (frame_flashWrite s k n) _ (by simp)).symm ▸ m
@[simp] theorem answered_flashWrite_keep {s : State} {o : Org} {a c : Nat} {f : Bool} (k : Half) (n : Nat) (r : Answered s o a c f) : Answered (s.flashWrite k n) o a c f := r.keep fun _ m => (mbx_of_frame (frame_flashWrite s k n) _ (by simp)).symm ▸ m
@[simp] theorem answeredWith_flashWrite_keep {s : State} {o : Org} {a c : Nat} {f : Bool} {p : List Nat} (k : Half) (n : Nat) (r : AnsweredWith s o a c f p) : AnsweredWith (s.flashWrite k n) o a c f p := r.keep fun _ m => (mbx_of_frame (frame_flashWrite s k n) _ (by simp)).symm ▸ m
@[simp] theorem running_flashWrite_keep {s : State} {o : Org} (k : Half) (n : Nat) (r : Running s o) : Running (s.flashWrite k n) o := r.keep (congrArg MbxS.started (mbx_of_frame (frame_flashWrite s k n) _ (by simp)))
@[simp] theorem raised_stageWrite_keep {s : State} {h : Half} {a c : Nat} {d : List Nat} (k : Half) (n : Nat) (v : Int) (r : Raised s h a c d) : Raised (s.stageWrite k n v) h a c d := r.keep fun _ m => (mbx_of_frame (frame_stageWrite s k n v) _ (by simp)).symm ▸ m
@[simp] theorem answered_stageWrite_keep {s : State} {o : Org} {a c : Nat} {f : Bool} (k : Half) (n : Nat) (v : Int) (r : Answered s o a c f) : Answered (s.stageWrite k n v) o a c f := r.keep fun _ m => (mbx_of_frame (frame_stageWrite s k n v) _ (by simp)).symm ▸ m
@[simp] theorem answeredWith_stageWrite_keep {s : State} {o : Org} {a c : Nat} {f : Bool} {p : List Nat} (k : Half) (n : Nat) (v : Int) (r : AnsweredWith s o a c f p) : AnsweredWith (s.stageWrite k n v) o a c f p := r.keep fun _ m => (mbx_of_frame (frame_stageWrite s k n v) _ (by simp)).symm ▸ m
@[simp] theorem running_stageWrite_keep {s : State} {o : Org} (k : Half) (n : Nat) (v : Int) (r : Running s o) : Running (s.stageWrite k n v) o := r.keep (congrArg MbxS.started (mbx_of_frame (frame_stageWrite s k n v) _ (by simp)))
@[simp] theorem raised_writeShadow_keep {s : State} {h : Half} {a c : Nat} {d : List Nat} (b : Blk) (n : Nat) (v : Word) (r : Raised s h a c d) : Raised (s.writeShadow b n v) h a c d := r.keep fun _ m => (mbx_of_frame (frame_writeShadow s b n v) _ (by simp)).symm ▸ m
@[simp] theorem answered_writeShadow_keep {s : State} {o : Org} {a c : Nat} {f : Bool} (b : Blk) (n : Nat) (v : Word) (r : Answered s o a c f) : Answered (s.writeShadow b n v) o a c f := r.keep fun _ m => (mbx_of_frame (frame_writeShadow s b n v) _ (by simp)).symm ▸ m
@[simp] theorem answeredWith_writeShadow_keep {s : State} {o : Org} {a c : Nat} {f : Bool} {p : List Nat} (b : Blk) (n : Nat) (v : Word) (r : AnsweredWith s o a c f p) : AnsweredWith (s.writeShadow b n v) o a c f p := r.keep fun _ m => (mbx_of_frame (frame_writeShadow s b n v) _ (by simp)).symm ▸ m
@[simp] theorem running_writeShadow_keep {s : State} {o : Org} (b : Blk) (n : Nat) (v : Word) (r : Running s o) : Running (s.writeShadow b n v) o := r.keep (congrArg MbxS.started (mbx_of_frame (frame_writeShadow s b n v) _ (by simp)))
@[simp] theorem raised_arm_keep {s : State} {h : Half} {a c : Nat} {d : List Nat} (b : Blk) (rl : Nat) (wt : Option Waiter) (r : Raised s h a c d) : Raised (s.arm b rl wt) h a c d := r.keep fun _ m => (mbx_of_frame (frame_arm s b rl wt) _ (by simp)).symm ▸ m
@[simp] theorem answered_arm_keep {s : State} {o : Org} {a c : Nat} {f : Bool} (b : Blk) (rl : Nat) (wt : Option Waiter) (r : Answered s o a c f) : Answered (s.arm b rl wt) o a c f := r.keep fun _ m => (mbx_of_frame (frame_arm s b rl wt) _ (by simp)).symm ▸ m
@[simp] theorem answeredWith_arm_keep {s : State} {o : Org} {a c : Nat} {f : Bool} {p : List Nat} (b : Blk) (rl : Nat) (wt : Option Waiter) (r : AnsweredWith s o a c f p) : AnsweredWith (s.arm b rl wt) o a c f p := r.keep fun _ m => (mbx_of_frame (frame_arm s b rl wt) _ (by simp)).symm ▸ m
@[simp] theorem running_arm_keep {s : State} {o : Org} (b : Blk) (rl : Nat) (wt : Option Waiter) (r : Running s o) : Running (s.arm b rl wt) o := r.keep (congrArg MbxS.started (mbx_of_frame (frame_arm s b rl wt) _ (by simp)))

/-! ### Events, completions and starts -/

@[simp] theorem raised_mMbx_keep {s : State} {h : Half} {a c : Nat} {d : List Nat} (k : Half) (g : MbxS → MbxS) (e : ∀ m q, q ∈ m.events → q ∈ (g m).events)
    (r : Raised s h a c d) : Raised (s.mMbx k g) h a c d := r.keep fun q m => by
  simp only [State.mMbx, hf_mh]; split
  · exact e _ _ m
  · exact m
@[simp] theorem answered_mMbx_keep {s : State} {o : Org} {a c : Nat} {f : Bool} (k : Half) (g : MbxS → MbxS) (e : ∀ m q, q ∈ m.compl → q ∈ (g m).compl)
    (r : Answered s o a c f) : Answered (s.mMbx k g) o a c f := r.keep fun q m => by
  simp only [State.mMbx, hf_mh]; split
  · exact e _ _ m
  · exact m
@[simp] theorem answeredWith_mMbx_keep {s : State} {o : Org} {a c : Nat} {f : Bool} {p : List Nat} (k : Half) (g : MbxS → MbxS)
    (e : ∀ m q, q ∈ m.compl → q ∈ (g m).compl) (r : AnsweredWith s o a c f p) : AnsweredWith (s.mMbx k g) o a c f p := r.keep fun q m => by
  simp only [State.mMbx, hf_mh]; split
  · exact e _ _ m
  · exact m
@[simp] theorem running_mMbx_keep {s : State} {o : Org} (k : Half) (g : MbxS → MbxS) (e : ∀ m, (g m).started = m.started) (r : Running s o) :
    Running (s.mMbx k g) o := r.keep (by simp only [State.mMbx, hf_mh]; split <;> simp [e])

theorem started_putEvent (s : State) (h k : Half) (q : EventRec) : ((s.putEvent h q).hf k).mbx.started = (s.hf k).mbx.started := by
  simp only [State.putEvent, State.mMbx, hf_mh]; split <;> rfl
theorem compl_putEvent (s : State) (h k : Half) (q : EventRec) : ((s.putEvent h q).hf k).mbx.compl = (s.hf k).mbx.compl := by
  simp only [State.putEvent, State.mMbx, hf_mh]; split <;> rfl
theorem started_ev (s : State) (h k : Half) (a c : Nat) (d : List Nat) : ((s.ev h a c d).hf k).mbx.started = (s.hf k).mbx.started := by
  simp only [State.ev]; split <;> simp only [started_putEvent]
theorem compl_ev (s : State) (h k : Half) (a c : Nat) (d : List Nat) : ((s.ev h a c d).hf k).mbx.compl = (s.hf k).mbx.compl := by
  simp only [State.ev]; split <;> simp only [compl_putEvent]
theorem events_ev_mono (s : State) (h k : Half) (a c : Nat) (d : List Nat) (q : EventRec) (m : q ∈ (s.hf k).mbx.events) :
    q ∈ ((s.ev h a c d).hf k).mbx.events := by
  simp only [State.ev]; split
  · exact events_putEvent_mono _ _ _ _ _ (events_putEvent_mono _ _ _ _ _ m)
  · exact events_putEvent_mono _ _ _ _ _ m
theorem started_evShared (s : State) (k : Half) (g a c : Nat) (d : List Nat) : ((s.evShared g a c d).hf k).mbx.started = (s.hf k).mbx.started := by
  simp only [State.evShared, started_putEvent]
theorem compl_evShared (s : State) (k : Half) (g a c : Nat) (d : List Nat) : ((s.evShared g a c d).hf k).mbx.compl = (s.hf k).mbx.compl := by
  simp only [State.evShared, compl_putEvent]

@[simp] theorem raised_ev_keep {s : State} {h : Half} {a c : Nat} {d : List Nat} (k : Half) (x y : Nat) (z : List Nat) (r : Raised s h a c d) :
    Raised (s.ev k x y z) h a c d := r.keep fun q m => events_ev_mono _ _ _ _ _ _ q m
@[simp] theorem raised_evShared_keep {s : State} {h : Half} {a c : Nat} {d : List Nat} (g x y : Nat) (z : List Nat) (r : Raised s h a c d) :
    Raised (s.evShared g x y z) h a c d := r.keep fun _ m => events_putEvent_mono _ _ _ _ _ (events_putEvent_mono _ _ _ _ _ m)
@[simp] theorem answered_ev_keep {s : State} {o : Org} {a c : Nat} {f : Bool} (k : Half) (x y : Nat) (z : List Nat) (r : Answered s o a c f) :
    Answered (s.ev k x y z) o a c f := r.keep fun _ m => (compl_ev ..).symm ▸ m
@[simp] theorem answered_evShared_keep {s : State} {o : Org} {a c : Nat} {f : Bool} (g x y : Nat) (z : List Nat) (r : Answered s o a c f) :
    Answered (s.evShared g x y z) o a c f := r.keep fun _ m => (compl_evShared ..).symm ▸ m
@[simp] theorem answeredWith_ev_keep {s : State} {o : Org} {a c : Nat} {f : Bool} {p : List Nat} (k : Half) (x y : Nat) (z : List Nat)
    (r : AnsweredWith s o a c f p) : AnsweredWith (s.ev k x y z) o a c f p := r.keep fun _ m => (compl_ev ..).symm ▸ m
@[simp] theorem answeredWith_evShared_keep {s : State} {o : Org} {a c : Nat} {f : Bool} {p : List Nat} (g x y : Nat) (z : List Nat)
    (r : AnsweredWith s o a c f p) : AnsweredWith (s.evShared g x y z) o a c f p := r.keep fun _ m => (compl_evShared ..).symm ▸ m
@[simp] theorem running_ev_keep {s : State} {o : Org} (k : Half) (x y : Nat) (z : List Nat) (r : Running s o) : Running (s.ev k x y z) o := r.keep (started_ev ..)
@[simp] theorem running_evShared_keep {s : State} {o : Org} (g x y : Nat) (z : List Nat) (r : Running s o) : Running (s.evShared g x y z) o :=
  r.keep (started_evShared ..)

theorem events_completeAt (s : State) (o : Org) (x k : Half) (a b : Nat) (f : Bool) (p : List Nat) (t : Nat) :
    ((s.completeAt o x a b f p t).hf k).mbx.events = (s.hf k).mbx.events := by
  simp only [State.completeAt, State.mMbx, hf_mh]; split
  · split <;> rfl
  · rfl
theorem events_start (s : State) (o : Org) (a r : Nat) (x : Option Half) (k : Half) : ((s.start o a r x).hf k).mbx.events = (s.hf k).mbx.events := by
  simp only [State.start, State.mMbx, hf_mh]; split
  · split <;> rfl
  · rfl
theorem compl_start (s : State) (o : Org) (a r : Nat) (x : Option Half) (k : Half) : ((s.start o a r x).hf k).mbx.compl = (s.hf k).mbx.compl := by
  simp only [State.start, State.mMbx, hf_mh]; split
  · split <;> rfl
  · rfl
theorem compl_completeAt_mono (s : State) (o : Org) (x k : Half) (a b : Nat) (f : Bool) (p : List Nat) (t : Nat) (q : Completion)
    (m : q ∈ (s.hf k).mbx.compl) : q ∈ ((s.completeAt o x a b f p t).hf k).mbx.compl := by
  simp only [State.completeAt, State.mMbx, hf_mh]; split
  · split
    · exact m
    · exact List.mem_append_left _ m
  · exact m

@[simp] theorem raised_complete_keep {s : State} {h : Half} {a c : Nat} {d : List Nat} (o : Org) (x : Half) (y z : Nat) (f : Bool) (p : List Nat)
    (r : Raised s h a c d) : Raised (s.complete o x y z f p) h a c d := r.keep fun _ m => (events_completeAt ..).symm ▸ m
@[simp] theorem raised_completeAt_keep {s : State} {h : Half} {a c : Nat} {d : List Nat} (o : Org) (x : Half) (y z : Nat) (f : Bool) (p : List Nat) (t : Nat)
    (r : Raised s h a c d) : Raised (s.completeAt o x y z f p t) h a c d := r.keep fun _ m => (events_completeAt ..).symm ▸ m
@[simp] theorem raised_start_keep {s : State} {h : Half} {a c : Nat} {d : List Nat} (o : Org) (y z : Nat) (x : Option Half) (r : Raised s h a c d) :
    Raised (s.start o y z x) h a c d := r.keep fun _ m => (events_start ..).symm ▸ m
@[simp] theorem answered_complete_keep {s : State} {o : Org} {a c : Nat} {f : Bool} (o' : Org) (x : Half) (y z : Nat) (g : Bool) (p : List Nat)
    (r : Answered s o a c f) : Answered (s.complete o' x y z g p) o a c f := r.keep fun q m => compl_completeAt_mono _ _ _ _ _ _ _ _ _ q m
@[simp] theorem answeredWith_complete_keep {s : State} {o : Org} {a c : Nat} {f : Bool} {p : List Nat} (o' : Org) (x : Half) (y z : Nat) (g : Bool)
    (p' : List Nat) (r : AnsweredWith s o a c f p) : AnsweredWith (s.complete o' x y z g p') o a c f p :=
  r.keep fun q m => compl_completeAt_mono _ _ _ _ _ _ _ _ _ q m

/-! ### Records and halves -/

@[simp] theorem raised_mh_keep {s : State} {h : Half} {a c : Nat} {d : List Nat} (k : Half) (g : HalfSt → HalfSt) (e : ∀ x, (g x).mbx = x.mbx)
    (r : Raised s h a c d) : Raised (s.mh k g) h a c d := r.keep fun q m => by
  simp only [hf_mh]; split
  · rw [e]; exact m
  · exact m
@[simp] theorem answered_mh_keep {s : State} {o : Org} {a c : Nat} {f : Bool} (k : Half) (g : HalfSt → HalfSt) (e : ∀ x, (g x).mbx = x.mbx)
    (r : Answered s o a c f) : Answered (s.mh k g) o a c f := r.keep fun q m => by
  simp only [hf_mh]; split
  · rw [e]; exact m
  · exact m
@[simp] theorem answeredWith_mh_keep {s : State} {o : Org} {a c : Nat} {f : Bool} {p : List Nat} (k : Half) (g : HalfSt → HalfSt) (e : ∀ x, (g x).mbx = x.mbx)
    (r : AnsweredWith s o a c f p) : AnsweredWith (s.mh k g) o a c f p := r.keep fun q m => by
  simp only [hf_mh]; split
  · rw [e]; exact m
  · exact m
@[simp] theorem running_mh_keep {s : State} {o : Org} (k : Half) (g : HalfSt → HalfSt) (e : ∀ x, (g x).mbx = x.mbx) (r : Running s o) : Running (s.mh k g) o :=
  r.keep (by simp only [hf_mh]; split <;> simp [e])
@[simp] theorem running_mBoth_keep {s : State} {o : Org} (g : HalfSt → HalfSt) (e : ∀ x, (g x).mbx = x.mbx) (r : Running s o) : Running (s.mBoth g) o :=
  r.keep (by simp [e])
@[simp] theorem raised_mBoth_keep {s : State} {h : Half} {a c : Nat} {d : List Nat} (g : HalfSt → HalfSt) (e : ∀ x, (g x).mbx = x.mbx)
    (r : Raised s h a c d) : Raised (s.mBoth g) h a c d := r.keep (by simp [e])

@[simp] theorem raised_mk_keep {X : State} {h : Half} {a c : Nat} {d : List Nat} (v_pending : List Instr) (v_free : Nat) (v_regs : Tab Word) (v_shadow : Tab (Option Word)) (v_blocks : Tab BlockDyn) (v_ref : Referee) (v_ho : Option Handover) (v_pll : SharedPll) (v_rtc : Nat) (v_rems : Tab Remote) (v_cabs : Tab CabR) (v_therm : ThermI) (v_veh : Tab VehS) (v_vehG : VehG) (v_met : MetS) (v_bil : BilS) (v_lkt : LktS) (v_saf : SafS) (v_cans : Tab CanS) (v_lsw : LswS) (v_mesh : MeshS) (v_upd : UpdS) (v_pwr : PwrS) (r : Raised X h a c d) :
    Raised ⟨v_pending, v_free, v_regs, v_shadow, v_blocks, X.halfA, X.halfB, v_ref, v_ho, v_pll, v_rtc, v_rems, v_cabs, v_therm, v_veh, v_vehG, v_met, v_bil, v_lkt, v_saf, v_cans, v_lsw, v_mesh, v_upd, v_pwr⟩ h a c d := r.keep fun q m => by cases h <;> exact m
@[simp] theorem raised_ite_keep {X Y : State} {h : Half} {a c : Nat} {d : List Nat} {C : Prop} [Decidable C] (r : Raised X h a c d) (r2 : Raised Y h a c d) : Raised (if C then X else Y) h a c d := by split <;> assumption
@[simp] theorem answered_mk_keep {X : State} {o : Org} {a c : Nat} {f : Bool} (v_pending : List Instr) (v_free : Nat) (v_regs : Tab Word) (v_shadow : Tab (Option Word)) (v_blocks : Tab BlockDyn) (v_ref : Referee) (v_ho : Option Handover) (v_pll : SharedPll) (v_rtc : Nat) (v_rems : Tab Remote) (v_cabs : Tab CabR) (v_therm : ThermI) (v_veh : Tab VehS) (v_vehG : VehG) (v_met : MetS) (v_bil : BilS) (v_lkt : LktS) (v_saf : SafS) (v_cans : Tab CanS) (v_lsw : LswS) (v_mesh : MeshS) (v_upd : UpdS) (v_pwr : PwrS) (r : Answered X o a c f) :
    Answered ⟨v_pending, v_free, v_regs, v_shadow, v_blocks, X.halfA, X.halfB, v_ref, v_ho, v_pll, v_rtc, v_rems, v_cabs, v_therm, v_veh, v_vehG, v_met, v_bil, v_lkt, v_saf, v_cans, v_lsw, v_mesh, v_upd, v_pwr⟩ o a c f := r.keep fun q m => by cases o with | mk h _ _ _ => cases h <;> exact m
@[simp] theorem answered_ite_keep {X Y : State} {o : Org} {a c : Nat} {f : Bool} {C : Prop} [Decidable C] (r : Answered X o a c f) (r2 : Answered Y o a c f) : Answered (if C then X else Y) o a c f := by split <;> assumption
@[simp] theorem answeredWith_mk_keep {X : State} {o : Org} {a c : Nat} {f : Bool} {p : List Nat} (v_pending : List Instr) (v_free : Nat) (v_regs : Tab Word) (v_shadow : Tab (Option Word)) (v_blocks : Tab BlockDyn) (v_ref : Referee) (v_ho : Option Handover) (v_pll : SharedPll) (v_rtc : Nat) (v_rems : Tab Remote) (v_cabs : Tab CabR) (v_therm : ThermI) (v_veh : Tab VehS) (v_vehG : VehG) (v_met : MetS) (v_bil : BilS) (v_lkt : LktS) (v_saf : SafS) (v_cans : Tab CanS) (v_lsw : LswS) (v_mesh : MeshS) (v_upd : UpdS) (v_pwr : PwrS) (r : AnsweredWith X o a c f p) :
    AnsweredWith ⟨v_pending, v_free, v_regs, v_shadow, v_blocks, X.halfA, X.halfB, v_ref, v_ho, v_pll, v_rtc, v_rems, v_cabs, v_therm, v_veh, v_vehG, v_met, v_bil, v_lkt, v_saf, v_cans, v_lsw, v_mesh, v_upd, v_pwr⟩ o a c f p := r.keep fun q m => by cases o with | mk h _ _ _ => cases h <;> exact m
@[simp] theorem answeredWith_ite_keep {X Y : State} {o : Org} {a c : Nat} {f : Bool} {p : List Nat} {C : Prop} [Decidable C] (r : AnsweredWith X o a c f p) (r2 : AnsweredWith Y o a c f p) : AnsweredWith (if C then X else Y) o a c f p := by split <;> assumption
@[simp] theorem running_mk_keep {X : State} {o : Org} (v_pending : List Instr) (v_free : Nat) (v_regs : Tab Word) (v_shadow : Tab (Option Word)) (v_blocks : Tab BlockDyn) (v_ref : Referee) (v_ho : Option Handover) (v_pll : SharedPll) (v_rtc : Nat) (v_rems : Tab Remote) (v_cabs : Tab CabR) (v_therm : ThermI) (v_veh : Tab VehS) (v_vehG : VehG) (v_met : MetS) (v_bil : BilS) (v_lkt : LktS) (v_saf : SafS) (v_cans : Tab CanS) (v_lsw : LswS) (v_mesh : MeshS) (v_upd : UpdS) (v_pwr : PwrS) (r : Running X o) :
    Running ⟨v_pending, v_free, v_regs, v_shadow, v_blocks, X.halfA, X.halfB, v_ref, v_ho, v_pll, v_rtc, v_rems, v_cabs, v_therm, v_veh, v_vehG, v_met, v_bil, v_lkt, v_saf, v_cans, v_lsw, v_mesh, v_upd, v_pwr⟩ o := r.keep (by cases o with | mk h _ _ _ => cases h <;> rfl)
@[simp] theorem running_ite_keep {X Y : State} {o : Org} {C : Prop} [Decidable C] (r : Running X o) (r2 : Running Y o) : Running (if C then X else Y) o := by split <;> assumption

/-! ### What they leave of the mailbox -/

@[simp] theorem start_mbx_rings (s : State) (o : Org) (a r : Nat) (x : Option Half) (k : Half) : ((s.start o a r x).hf k).mbx.rings = (s.hf k).mbx.rings := by
  simp only [State.start, State.mMbx, hf_mh]; split <;> [(split <;> rfl); rfl]
@[simp] theorem start_mbx_compl (s : State) (o : Org) (a r : Nat) (x : Option Half) (k : Half) : ((s.start o a r x).hf k).mbx.compl = (s.hf k).mbx.compl := by
  simp only [State.start, State.mMbx, hf_mh]; split <;> [(split <;> rfl); rfl]
@[simp] theorem start_mbx_events (s : State) (o : Org) (a r : Nat) (x : Option Half) (k : Half) : ((s.start o a r x).hf k).mbx.events = (s.hf k).mbx.events := by
  simp only [State.start, State.mMbx, hf_mh]; split <;> [(split <;> rfl); rfl]
@[simp] theorem start_mbx_evseq (s : State) (o : Org) (a r : Nat) (x : Option Half) (k : Half) : ((s.start o a r x).hf k).mbx.evseq = (s.hf k).mbx.evseq := by
  simp only [State.start, State.mMbx, hf_mh]; split <;> [(split <;> rfl); rfl]
@[simp] theorem start_mbx_locks (s : State) (o : Org) (a r : Nat) (x : Option Half) (k : Half) : ((s.start o a r x).hf k).mbx.locks = (s.hf k).mbx.locks := by
  simp only [State.start, State.mMbx, hf_mh]; split <;> [(split <;> rfl); rfl]
@[simp] theorem start_mbx_subs (s : State) (o : Org) (a r : Nat) (x : Option Half) (k : Half) : ((s.start o a r x).hf k).mbx.subs = (s.hf k).mbx.subs := by
  simp only [State.start, State.mMbx, hf_mh]; split <;> [(split <;> rfl); rfl]
@[simp] theorem start_mbx_subNext (s : State) (o : Org) (a r : Nat) (x : Option Half) (k : Half) : ((s.start o a r x).hf k).mbx.subNext = (s.hf k).mbx.subNext := by
  simp only [State.start, State.mMbx, hf_mh]; split <;> [(split <;> rfl); rfl]
@[simp] theorem completeAt_mbx_rings (s : State) (o : Org) (x : Half) (a b : Nat) (f : Bool) (p : List Nat) (t : Nat) (k : Half) :
    ((s.completeAt o x a b f p t).hf k).mbx.rings = (s.hf k).mbx.rings := by
  simp only [State.completeAt, State.mMbx, hf_mh]; split <;> [(split <;> rfl); rfl]
@[simp] theorem complete_mbx_rings (s : State) (o : Org) (x : Half) (a b : Nat) (f : Bool) (p : List Nat) (k : Half) :
    ((s.complete o x a b f p).hf k).mbx.rings = (s.hf k).mbx.rings := completeAt_mbx_rings ..
@[simp] theorem completeAt_mbx_events (s : State) (o : Org) (x : Half) (a b : Nat) (f : Bool) (p : List Nat) (t : Nat) (k : Half) :
    ((s.completeAt o x a b f p t).hf k).mbx.events = (s.hf k).mbx.events := by
  simp only [State.completeAt, State.mMbx, hf_mh]; split <;> [(split <;> rfl); rfl]
@[simp] theorem complete_mbx_events (s : State) (o : Org) (x : Half) (a b : Nat) (f : Bool) (p : List Nat) (k : Half) :
    ((s.complete o x a b f p).hf k).mbx.events = (s.hf k).mbx.events := completeAt_mbx_events ..
@[simp] theorem completeAt_mbx_evseq (s : State) (o : Org) (x : Half) (a b : Nat) (f : Bool) (p : List Nat) (t : Nat) (k : Half) :
    ((s.completeAt o x a b f p t).hf k).mbx.evseq = (s.hf k).mbx.evseq := by
  simp only [State.completeAt, State.mMbx, hf_mh]; split <;> [(split <;> rfl); rfl]
@[simp] theorem complete_mbx_evseq (s : State) (o : Org) (x : Half) (a b : Nat) (f : Bool) (p : List Nat) (k : Half) :
    ((s.complete o x a b f p).hf k).mbx.evseq = (s.hf k).mbx.evseq := completeAt_mbx_evseq ..
@[simp] theorem completeAt_mbx_locks (s : State) (o : Org) (x : Half) (a b : Nat) (f : Bool) (p : List Nat) (t : Nat) (k : Half) :
    ((s.completeAt o x a b f p t).hf k).mbx.locks = (s.hf k).mbx.locks := by
  simp only [State.completeAt, State.mMbx, hf_mh]; split <;> [(split <;> rfl); rfl]
@[simp] theorem complete_mbx_locks (s : State) (o : Org) (x : Half) (a b : Nat) (f : Bool) (p : List Nat) (k : Half) :
    ((s.complete o x a b f p).hf k).mbx.locks = (s.hf k).mbx.locks := completeAt_mbx_locks ..
@[simp] theorem completeAt_mbx_subs (s : State) (o : Org) (x : Half) (a b : Nat) (f : Bool) (p : List Nat) (t : Nat) (k : Half) :
    ((s.completeAt o x a b f p t).hf k).mbx.subs = (s.hf k).mbx.subs := by
  simp only [State.completeAt, State.mMbx, hf_mh]; split <;> [(split <;> rfl); rfl]
@[simp] theorem complete_mbx_subs (s : State) (o : Org) (x : Half) (a b : Nat) (f : Bool) (p : List Nat) (k : Half) :
    ((s.complete o x a b f p).hf k).mbx.subs = (s.hf k).mbx.subs := completeAt_mbx_subs ..
@[simp] theorem completeAt_mbx_subNext (s : State) (o : Org) (x : Half) (a b : Nat) (f : Bool) (p : List Nat) (t : Nat) (k : Half) :
    ((s.completeAt o x a b f p t).hf k).mbx.subNext = (s.hf k).mbx.subNext := by
  simp only [State.completeAt, State.mMbx, hf_mh]; split <;> [(split <;> rfl); rfl]
@[simp] theorem complete_mbx_subNext (s : State) (o : Org) (x : Half) (a b : Nat) (f : Bool) (p : List Nat) (k : Half) :
    ((s.complete o x a b f p).hf k).mbx.subNext = (s.hf k).mbx.subNext := completeAt_mbx_subNext ..
@[simp] theorem putEvent_mbx_rings (s : State) (h : Half) (r : EventRec) (k : Half) : ((s.putEvent h r).hf k).mbx.rings = (s.hf k).mbx.rings := by
  simp only [State.putEvent, State.mMbx, hf_mh]; split <;> rfl
@[simp] theorem ev_mbx_rings (s : State) (h : Half) (a b : Nat) (d : List Nat) (k : Half) : ((s.ev h a b d).hf k).mbx.rings = (s.hf k).mbx.rings := by
  simp only [State.ev]; split <;> simp only [putEvent_mbx_rings]
@[simp] theorem evShared_mbx_rings (s : State) (a b c : Nat) (d : List Nat) (k : Half) : ((s.evShared a b c d).hf k).mbx.rings = (s.hf k).mbx.rings := by
  simp only [State.evShared, putEvent_mbx_rings]
@[simp] theorem putEvent_mbx_started (s : State) (h : Half) (r : EventRec) (k : Half) : ((s.putEvent h r).hf k).mbx.started = (s.hf k).mbx.started := by
  simp only [State.putEvent, State.mMbx, hf_mh]; split <;> rfl
@[simp] theorem ev_mbx_started (s : State) (h : Half) (a b : Nat) (d : List Nat) (k : Half) : ((s.ev h a b d).hf k).mbx.started = (s.hf k).mbx.started := by
  simp only [State.ev]; split <;> simp only [putEvent_mbx_started]
@[simp] theorem evShared_mbx_started (s : State) (a b c : Nat) (d : List Nat) (k : Half) : ((s.evShared a b c d).hf k).mbx.started = (s.hf k).mbx.started := by
  simp only [State.evShared, putEvent_mbx_started]
@[simp] theorem putEvent_mbx_compl (s : State) (h : Half) (r : EventRec) (k : Half) : ((s.putEvent h r).hf k).mbx.compl = (s.hf k).mbx.compl := by
  simp only [State.putEvent, State.mMbx, hf_mh]; split <;> rfl
@[simp] theorem ev_mbx_compl (s : State) (h : Half) (a b : Nat) (d : List Nat) (k : Half) : ((s.ev h a b d).hf k).mbx.compl = (s.hf k).mbx.compl := by
  simp only [State.ev]; split <;> simp only [putEvent_mbx_compl]
@[simp] theorem evShared_mbx_compl (s : State) (a b c : Nat) (d : List Nat) (k : Half) : ((s.evShared a b c d).hf k).mbx.compl = (s.hf k).mbx.compl := by
  simp only [State.evShared, putEvent_mbx_compl]
@[simp] theorem putEvent_mbx_locks (s : State) (h : Half) (r : EventRec) (k : Half) : ((s.putEvent h r).hf k).mbx.locks = (s.hf k).mbx.locks := by
  simp only [State.putEvent, State.mMbx, hf_mh]; split <;> rfl
@[simp] theorem ev_mbx_locks (s : State) (h : Half) (a b : Nat) (d : List Nat) (k : Half) : ((s.ev h a b d).hf k).mbx.locks = (s.hf k).mbx.locks := by
  simp only [State.ev]; split <;> simp only [putEvent_mbx_locks]
@[simp] theorem evShared_mbx_locks (s : State) (a b c : Nat) (d : List Nat) (k : Half) : ((s.evShared a b c d).hf k).mbx.locks = (s.hf k).mbx.locks := by
  simp only [State.evShared, putEvent_mbx_locks]
@[simp] theorem putEvent_mbx_subs (s : State) (h : Half) (r : EventRec) (k : Half) : ((s.putEvent h r).hf k).mbx.subs = (s.hf k).mbx.subs := by
  simp only [State.putEvent, State.mMbx, hf_mh]; split <;> rfl
@[simp] theorem ev_mbx_subs (s : State) (h : Half) (a b : Nat) (d : List Nat) (k : Half) : ((s.ev h a b d).hf k).mbx.subs = (s.hf k).mbx.subs := by
  simp only [State.ev]; split <;> simp only [putEvent_mbx_subs]
@[simp] theorem evShared_mbx_subs (s : State) (a b c : Nat) (d : List Nat) (k : Half) : ((s.evShared a b c d).hf k).mbx.subs = (s.hf k).mbx.subs := by
  simp only [State.evShared, putEvent_mbx_subs]
@[simp] theorem putEvent_mbx_subNext (s : State) (h : Half) (r : EventRec) (k : Half) : ((s.putEvent h r).hf k).mbx.subNext = (s.hf k).mbx.subNext := by
  simp only [State.putEvent, State.mMbx, hf_mh]; split <;> rfl
@[simp] theorem ev_mbx_subNext (s : State) (h : Half) (a b : Nat) (d : List Nat) (k : Half) : ((s.ev h a b d).hf k).mbx.subNext = (s.hf k).mbx.subNext := by
  simp only [State.ev]; split <;> simp only [putEvent_mbx_subNext]
@[simp] theorem evShared_mbx_subNext (s : State) (a b c : Nat) (d : List Nat) (k : Half) : ((s.evShared a b c d).hf k).mbx.subNext = (s.hf k).mbx.subNext := by
  simp only [State.evShared, putEvent_mbx_subNext]
@[simp] theorem ring_ev (s : State) (h : Half) (a b : Nat) (d : List Nat) (k : Half) (n : Nat) : (s.ev h a b d).ring k n = s.ring k n := ring_of_mbx (by simp) n
@[simp] theorem ring_evShared (s : State) (a b c : Nat) (d : List Nat) (k : Half) (n : Nat) : (s.evShared a b c d).ring k n = s.ring k n := ring_of_mbx (by simp) n
@[simp] theorem ring_complete (s : State) (o : Org) (x : Half) (a b : Nat) (f : Bool) (p : List Nat) (k : Half) (n : Nat) : (s.complete o x a b f p).ring k n = s.ring k n := ring_of_mbx (by simp) n
@[simp] theorem ring_completeAt (s : State) (o : Org) (x : Half) (a b : Nat) (f : Bool) (p : List Nat) (t : Nat) (k : Half) (n : Nat) : (s.completeAt o x a b f p t).ring k n = s.ring k n := ring_of_mbx (by simp) n
@[simp] theorem answered_of_running {s : State} {o : Org} (r : Running s o) (x : Half) (opc st : Nat) (fin : Bool) (p : List Nat) (hp : p.length ≤ 24) :
    Answered (s.complete o x opc st fin p) o opc st fin := Answered.of_with (answered_complete r x opc st fin p hp)

end Sys2Proof.Machine
end

