-- ==== Sys2Proof/Laws/Memory.lean ====
section
/-!
SUPPORT. The memories of the customer partitions keep their canonical form.
-/

namespace Sys2Proof.Machine

theorem Memory.wf_put {m : Tab Word} (a : Nat) (v : Word) (h : Memory.wf m = true) : Memory.wf (put 0 m a v) = true := tabWf_put 0 m a v h

/-- Four bytes stored at any byte offset keep the form. -/
theorem Memory.wf_putMem {m : Tab Word} (off : Nat) (v : Word) (h : Memory.wf m = true) : Memory.wf (putMem m off v) = true := by
  simp only [putMem]
  split
  · exact Memory.wf_put _ _ h
  · exact Memory.wf_put _ _ (Memory.wf_put _ _ h)

theorem Memory.wf_reset (h : Half) : Memory.wf (State.reset.hf h).part.dram = true ∧ Memory.wf (State.reset.hf h).part.flash = true := by
  cases h <;> decide

/-- A read after a write: the word written, and every other word as before. -/
theorem Memory.look_put (m : Tab Word) (a b : Nat) (v : Word) : look 0 (put 0 m a v) b = if a = b then v else look 0 m b := Machine.look_put 0 a b v m

end Sys2Proof.Machine
end

