-- ==== Sys2Proof/Laws/Slots.lean ====
section
/-!
SUPPORT. The key store's slots: which one a new key takes, and when there is none (R428). Both lemmas spare a proof the scan of 16,368 slots.
-/

namespace Sys2Proof.Machine

theorem rangeFrom_succ (a n : Nat) : rangeFrom a (n + 1) = rangeFrom a n ++ [n + a] := by
  simp [rangeFrom, List.range_succ]

/-- A table that lists every key of a range answers by that range. -/
theorem look_map_range' {α : Type} (d : α) (f : Nat → α) (a n q : Nat) :
    look d ((List.range' a n).map fun i => (i, f i)) q = if a ≤ q ∧ q < a + n then f q else d := by
  induction n generalizing a with
  | zero => simp [look]
  | succ n ih =>
    simp only [List.range'_succ, List.map_cons, look, ih]
    by_cases h : a = q
    · subst h; simp
    · simp only [h, if_false]; congr 1; simp only [eq_iff_iff]; omega

/-- A key a table does not list answers the default. -/
theorem look_absent {α : Type} {d : α} {t : Tab α} {q : Nat} (h : ∀ e ∈ t, e.1 ≠ q) : look d t q = d := by
  induction t with
  | nil => rfl
  | cons e t ih => obtain ⟨a, v⟩ := e; simp only [look]; rw [if_neg (h (a, v) (by simp))]; exact ih fun e he => h e (by simp [he])

/-- Where no free slot was ever allocated before, a new key takes the lowest slot that is free. -/
theorem freeSlot_first {s : State} {skip : List Nat} {i : Nat} (ha : ∀ e ∈ s.lkt.allocs, e.1 < 16) (hi : 16 ≤ i ∧ i < 16384)
    (hb : ∀ k < i, 16 ≤ k → (s.keyAt k).isSome = true ∨ k ∈ skip) (hn : s.keyAt i = none ∧ i ∉ skip) : s.freeSlot skip = some i := by
  have h0 : ∀ k, 16 ≤ k → look 0 s.lkt.allocs k = 0 := fun k hk => look_absent fun e he => by have := ha e he; omega
  have step : ∀ n, (rangeFrom 16 n).foldl (fun b i =>
      if (s.keyAt i).isSome || decide (i ∈ skip) then b
      else match b with
        | some j => if look 0 s.lkt.allocs i < look 0 s.lkt.allocs j then some i else some j
        | none => some i) none = if i < n + 16 then some i else none := by
    intro n
    induction n with
    | zero => simp [rangeFrom]; omega
    | succ n ih =>
      rw [rangeFrom_succ, List.foldl_append, ih]
      simp only [List.foldl_cons, List.foldl_nil]
      by_cases hlt : i < n + 16
      · have h2 : i < n + 1 + 16 := by omega
        simp only [hlt, h2, if_true]; split <;> simp [h0 i hi.1]
      · by_cases he : i = n + 16
        · have h2 : i < n + 1 + 16 := by omega
          subst he; simp [hn.1, hn.2]
        · have h2 : ¬ i < n + 1 + 16 := by omega
          have h3 : ((s.keyAt (n + 16)).isSome || decide (n + 16 ∈ skip)) = true := by
            rcases hb (n + 16) (by omega) (by omega) with h | h <;> simp [h]
          simp only [hlt, h2, if_false, h3, if_true]
  exact (step 16368).trans (if_pos hi.2)

/-- With every slot taken there is none for a new key. -/
theorem freeSlot_full {s : State} {skip : List Nat} (h : ∀ k, 16 ≤ k → k < 16384 → (s.keyAt k).isSome = true) : s.freeSlot skip = none := by
  have step : ∀ n ≤ 16368, (rangeFrom 16 n).foldl (fun b i =>
      if (s.keyAt i).isSome || decide (i ∈ skip) then b
      else match b with
        | some j => if look 0 s.lkt.allocs i < look 0 s.lkt.allocs j then some i else some j
        | none => some i) none = none := by
    intro n
    induction n with
    | zero => intro _; simp [rangeFrom]
    | succ n ih => intro hn; rw [rangeFrom_succ, List.foldl_append, ih (by omega)]; simp [h (n + 16) (by omega) (by omega)]
  exact step 16368 (Nat.le_refl _)

/-- A usable parent that admits the role, with room below it and a slot free, lets a key be created (R438, R439). -/
theorem createStatus_ok {s : State} {e p : KeyE} {r i : Nat} (hf : s.freeSlot [] = some i) (hk : s.keyE e.parent = some p)
    (h : e.parent ≠ 0xFFFFFFFF ∧ p.st = 1 ∧ s.keyUsable e.parent = true ∧ p.admRoles.testBit r = true ∧ p.depth < 7 ∧ attrOk e (some p) r = true) :
    s.createStatus e r = stOk := by
  obtain ⟨h1, h2, h3, h4, h5, h6⟩ := h
  simp [State.createStatus, h1, hk, h2, h3, h4, h5, h6, hf, Nat.not_le.mpr h5]

end Sys2Proof.Machine
end

