-- ==== Sys2Proof/Laws/Start.lean ====
section
/-!
SUPPORT. The start of a command changes nothing that its meaning reads.
-/

namespace Sys2Proof.Machine

set_option maxRecDepth 8000

/-- A start changes nothing but the mailbox of a half. -/
theorem start_eq (s : State) (o : Org) (a b : Nat) (x : Option Half) :
    ∃ m n, s.start o a b x = { s with halfA := { s.halfA with mbx := m }, halfB := { s.halfB with mbx := n } } := by
  cases h : o.half
  · exact ⟨((s.start o a b x).halfA).mbx, s.halfB.mbx, by simp [State.start, State.mMbx, State.mh, State.setHf, State.hf, h]⟩
  · exact ⟨s.halfA.mbx, ((s.start o a b x).halfB).mbx, by simp [State.start, State.mMbx, State.mh, State.setHf, State.hf, h]⟩

@[simp] theorem port_start (s : State) (h : Half) (p : Nat) (o_ : Org) (opc_ role_ : Nat) (x_ : Option Half) : State.port (s.start o_ opc_ role_ x_) h p = State.port s h p := by
  first | (simp [State.port]; done) | (obtain ⟨m_, n_, e_⟩ := start_eq s o_ opc_ role_ x_; rw [e_]; cases h <;> rfl) | (unfold State.port; simp; done) | (unfold State.port; (repeat' split) <;> simp_all; done)
@[simp] theorem rem_start (s : State) (p : Nat) (o_ : Org) (opc_ role_ : Nat) (x_ : Option Half) : State.rem (s.start o_ opc_ role_ x_) p = State.rem s p := by
  first | (simp [State.rem]; done) | (obtain ⟨m_, n_, e_⟩ := start_eq s o_ opc_ role_ x_; rw [e_]; rfl) | (unfold State.rem; simp; done) | (unfold State.rem; (repeat' split) <;> simp_all; done)
@[simp] theorem ring_start (s : State) (h : Half) (n : Nat) (o_ : Org) (opc_ role_ : Nat) (x_ : Option Half) : State.ring (s.start o_ opc_ role_ x_) h n = State.ring s h n :=
  ring_of_mbx (by simp only [State.start, State.mMbx, hf_mh]; split <;> [(split <;> rfl); rfl]) n
@[simp] theorem now_start (s : State) (o_ : Org) (opc_ role_ : Nat) (x_ : Option Half) : State.now (s.start o_ opc_ role_ x_) = State.now s := by
  first | (simp [State.now]; done) | (obtain ⟨m_, n_, e_⟩ := start_eq s o_ opc_ role_ x_; rw [e_]; rfl) | (unfold State.now; simp; done) | (unfold State.now; (repeat' split) <;> simp_all; done)
@[simp] theorem serving_start (s : State) (h : Half) (o_ : Org) (opc_ role_ : Nat) (x_ : Option Half) : State.serving (s.start o_ opc_ role_ x_) h = State.serving s h := by
  first | (simp [State.serving]; done) | (obtain ⟨m_, n_, e_⟩ := start_eq s o_ opc_ role_ x_; rw [e_]; cases h <;> rfl) | (unfold State.serving; simp; done) | (unfold State.serving; (repeat' split) <;> simp_all; done)
@[simp] theorem noService_start (s : State) (o_ : Org) (opc_ role_ : Nat) (x_ : Option Half) : State.noService (s.start o_ opc_ role_ x_) = State.noService s := by
  first | (simp [State.noService]; done) | (obtain ⟨m_, n_, e_⟩ := start_eq s o_ opc_ role_ x_; rw [e_]; rfl) | (unfold State.noService; simp; done) | (unfold State.noService; (repeat' split) <;> simp_all; done)
@[simp] theorem reach_start (s : State) (o_ : Org) (opc_ role_ : Nat) (x_ : Option Half) : State.reach (s.start o_ opc_ role_ x_) = State.reach s := by
  first | (simp [State.reach]; done) | (obtain ⟨m_, n_, e_⟩ := start_eq s o_ opc_ role_ x_; rw [e_]; rfl) | (unfold State.reach; simp; done) | (unfold State.reach; (repeat' split) <;> simp_all; done)
@[simp] theorem rf_start (s : State) (b : Blk) (h : Half) (off : Nat) (hi : Nat) (lo : Nat) (o_ : Org) (opc_ role_ : Nat) (x_ : Option Half) : State.rf (s.start o_ opc_ role_ x_) b h off hi lo = State.rf s b h off hi lo := by
  first | (simp [State.rf]; done) | (obtain ⟨m_, n_, e_⟩ := start_eq s o_ opc_ role_ x_; rw [e_]; cases h <;> rfl) | (unfold State.rf; simp; done) | (unfold State.rf; (repeat' split) <;> simp_all; done)
@[simp] theorem rb_start (s : State) (b : Blk) (h : Half) (off : Nat) (i : Nat) (o_ : Org) (opc_ role_ : Nat) (x_ : Option Half) : State.rb (s.start o_ opc_ role_ x_) b h off i = State.rb s b h off i := by
  first | (simp [State.rb]; done) | (obtain ⟨m_, n_, e_⟩ := start_eq s o_ opc_ role_ x_; rw [e_]; cases h <;> rfl) | (unfold State.rb; simp; done) | (unfold State.rb; (repeat' split) <;> simp_all; done)
@[simp] theorem shadowOf_start (s : State) (b : Blk) (h : Half) (off : Nat) (o_ : Org) (opc_ role_ : Nat) (x_ : Option Half) : State.shadowOf (s.start o_ opc_ role_ x_) b h off = State.shadowOf s b h off := by
  first | (simp [State.shadowOf]; done) | (obtain ⟨m_, n_, e_⟩ := start_eq s o_ opc_ role_ x_; rw [e_]; cases h <;> rfl) | (unfold State.shadowOf; simp; done) | (unfold State.shadowOf; (repeat' split) <;> simp_all; done)
@[simp] theorem blk_start (s : State) (b : Blk) (h : Half) (o_ : Org) (opc_ role_ : Nat) (x_ : Option Half) : State.blk (s.start o_ opc_ role_ x_) b h = State.blk s b h := by
  first | (simp [State.blk]; done) | (obtain ⟨m_, n_, e_⟩ := start_eq s o_ opc_ role_ x_; rw [e_]; cases h <;> rfl) | (unfold State.blk; simp; done) | (unfold State.blk; (repeat' split) <;> simp_all; done)
@[simp] theorem freeVal_start (s : State) (k : Nat) (o_ : Org) (opc_ role_ : Nat) (x_ : Option Half) : State.freeVal (s.start o_ opc_ role_ x_) k = State.freeVal s k := by
  first | (simp [State.freeVal]; done) | (obtain ⟨m_, n_, e_⟩ := start_eq s o_ opc_ role_ x_; rw [e_]; rfl) | (unfold State.freeVal; simp; done) | (unfold State.freeVal; (repeat' split) <;> simp_all; done)
@[simp] theorem commissioning_start (s : State) (h : Half) (o_ : Org) (opc_ role_ : Nat) (x_ : Option Half) : State.commissioning (s.start o_ opc_ role_ x_) h = State.commissioning s h := by
  first | (simp [State.commissioning]; done) | (obtain ⟨m_, n_, e_⟩ := start_eq s o_ opc_ role_ x_; rw [e_]; cases h <;> rfl) | (unfold State.commissioning; simp; done) | (unfold State.commissioning; (repeat' split) <;> simp_all; done)
@[simp] theorem rcfg_start (s : State) (h : Half) (n : Nat) (o_ : Org) (opc_ role_ : Nat) (x_ : Option Half) : State.rcfg (s.start o_ opc_ role_ x_) h n = State.rcfg s h n := by
  first | (simp [State.rcfg]; done) | (obtain ⟨m_, n_, e_⟩ := start_eq s o_ opc_ role_ x_; rw [e_]; cases h <;> rfl) | (unfold State.rcfg; simp; done) | (unfold State.rcfg; (repeat' split) <;> simp_all; done)
@[simp] theorem ringRole_start (s : State) (h : Half) (n : Nat) (o_ : Org) (opc_ role_ : Nat) (x_ : Option Half) : State.ringRole (s.start o_ opc_ role_ x_) h n = State.ringRole s h n := by
  first | (simp [State.ringRole]; done) | (obtain ⟨m_, n_, e_⟩ := start_eq s o_ opc_ role_ x_; rw [e_]; cases h <;> rfl) | (unfold State.ringRole; simp; done) | (unfold State.ringRole; (repeat' split) <;> simp_all; done)
@[simp] theorem inhibited_start (s : State) (h : Half) (opc : Nat) (o_ : Org) (opc_ role_ : Nat) (x_ : Option Half) : State.inhibited (s.start o_ opc_ role_ x_) h opc = State.inhibited s h opc := by
  first | (simp [State.inhibited]; done) | (obtain ⟨m_, n_, e_⟩ := start_eq s o_ opc_ role_ x_; rw [e_]; cases h <;> rfl) | (unfold State.inhibited; simp; done) | (unfold State.inhibited; (repeat' split) <;> simp_all; done)
@[simp] theorem lktWaits_start (s : State) (opc : Nat) (o_ : Org) (opc_ role_ : Nat) (x_ : Option Half) : State.lktWaits (s.start o_ opc_ role_ x_) opc = State.lktWaits s opc := by
  first | (simp [State.lktWaits]; done) | (obtain ⟨m_, n_, e_⟩ := start_eq s o_ opc_ role_ x_; rw [e_]; rfl) | (unfold State.lktWaits; simp; done) | (unfold State.lktWaits; (repeat' split) <;> simp_all; done)
@[simp] theorem holding_start (s : State) (o_ : Org) (opc_ role_ : Nat) (x_ : Option Half) : State.holding (s.start o_ opc_ role_ x_) = State.holding s := by
  first | (simp [State.holding]; done) | (obtain ⟨m_, n_, e_⟩ := start_eq s o_ opc_ role_ x_; rw [e_]; rfl) | (unfold State.holding; simp; done) | (unfold State.holding; (repeat' split) <;> simp_all; done)
@[simp] theorem pstate_start (s : State) (o_ : Org) (opc_ role_ : Nat) (x_ : Option Half) : State.pstate (s.start o_ opc_ role_ x_) = State.pstate s := by
  first | (simp [State.pstate]; done) | (obtain ⟨m_, n_, e_⟩ := start_eq s o_ opc_ role_ x_; rw [e_]; rfl) | (unfold State.pstate; simp; done) | (unfold State.pstate; (repeat' split) <;> simp_all; done)
@[simp] theorem holdup_start (s : State) (o_ : Org) (opc_ role_ : Nat) (x_ : Option Half) : State.holdup (s.start o_ opc_ role_ x_) = State.holdup s := by
  first | (simp [State.holdup]; done) | (obtain ⟨m_, n_, e_⟩ := start_eq s o_ opc_ role_ x_; rw [e_]; rfl) | (unfold State.holdup; simp; done) | (unfold State.holdup; (repeat' split) <;> simp_all; done)
@[simp] theorem flashFull_start (s : State) (h : Half) (n : Nat) (o_ : Org) (opc_ role_ : Nat) (x_ : Option Half) : State.flashFull (s.start o_ opc_ role_ x_) h n = State.flashFull s h n := by
  first | (simp [State.flashFull]; done) | (obtain ⟨m_, n_, e_⟩ := start_eq s o_ opc_ role_ x_; rw [e_]; cases h <;> rfl) | (unfold State.flashFull; simp; done) | (unfold State.flashFull; (repeat' split) <;> simp_all; done)
@[simp] theorem logsHeld_start (s : State) (h : Half) (o_ : Org) (opc_ role_ : Nat) (x_ : Option Half) : State.logsHeld (s.start o_ opc_ role_ x_) h = State.logsHeld s h := by
  first | (simp [State.logsHeld]; done) | (obtain ⟨m_, n_, e_⟩ := start_eq s o_ opc_ role_ x_; rw [e_]; cases h <;> rfl) | (unfold State.logsHeld; simp; done) | (unfold State.logsHeld; (repeat' split) <;> simp_all; done)
@[simp] theorem brec_start (s : State) (k : Nat) (o_ : Org) (opc_ role_ : Nat) (x_ : Option Half) : State.brec (s.start o_ opc_ role_ x_) k = State.brec s k := by
  first | (simp [State.brec]; done) | (obtain ⟨m_, n_, e_⟩ := start_eq s o_ opc_ role_ x_; rw [e_]; rfl) | (unfold State.brec; simp; done) | (unfold State.brec; (repeat' split) <;> simp_all; done)
@[simp] theorem stage_start (s : State) (h : Half) (i : Nat) (o_ : Org) (opc_ role_ : Nat) (x_ : Option Half) : State.stage (s.start o_ opc_ role_ x_) h i = State.stage s h i := by
  first | (simp [State.stage]; done) | (obtain ⟨m_, n_, e_⟩ := start_eq s o_ opc_ role_ x_; rw [e_]; cases h <;> rfl) | (unfold State.stage; simp; done) | (unfold State.stage; (repeat' split) <;> simp_all; done)
@[simp] theorem authAll_start (s : State) (h : Half) (o_ : Org) (opc_ role_ : Nat) (x_ : Option Half) : State.authAll (s.start o_ opc_ role_ x_) h = State.authAll s h := by
  first | (simp [State.authAll]; done) | (obtain ⟨m_, n_, e_⟩ := start_eq s o_ opc_ role_ x_; rw [e_]; cases h <;> rfl) | (unfold State.authAll; simp; done) | (unfold State.authAll; (repeat' split) <;> simp_all; done)
@[simp] theorem feedsOk_start (s : State) (o_ : Org) (opc_ role_ : Nat) (x_ : Option Half) : State.feedsOk (s.start o_ opc_ role_ x_) = State.feedsOk s := by
  first | (simp [State.feedsOk]; done) | (obtain ⟨m_, n_, e_⟩ := start_eq s o_ opc_ role_ x_; rw [e_]; rfl) | (unfold State.feedsOk; simp; done) | (unfold State.feedsOk; (repeat' split) <;> simp_all; done)
@[simp] theorem score_start (s : State) (h : Half) (o_ : Org) (opc_ role_ : Nat) (x_ : Option Half) : State.score (s.start o_ opc_ role_ x_) h = State.score s h := by
  first | (simp [State.score]; done) | (obtain ⟨m_, n_, e_⟩ := start_eq s o_ opc_ role_ x_; rw [e_]; cases h <;> rfl) | (unfold State.score; simp; done) | (unfold State.score; (repeat' split) <;> simp_all; done)
@[simp] theorem selftest_start (s : State) (h : Half) (o_ : Org) (opc_ role_ : Nat) (x_ : Option Half) : State.selftest (s.start o_ opc_ role_ x_) h = State.selftest s h := by
  first | (simp [State.selftest]; done) | (obtain ⟨m_, n_, e_⟩ := start_eq s o_ opc_ role_ x_; rw [e_]; cases h <;> rfl) | (unfold State.selftest; simp; done) | (unfold State.selftest; (repeat' split) <;> simp_all; done)
@[simp] theorem healthWord_start (s : State) (h : Half) (o_ : Org) (opc_ role_ : Nat) (x_ : Option Half) : State.healthWord (s.start o_ opc_ role_ x_) h = State.healthWord s h := by
  first | (simp [State.healthWord]; done) | (obtain ⟨m_, n_, e_⟩ := start_eq s o_ opc_ role_ x_; rw [e_]; cases h <;> rfl) | (unfold State.healthWord; simp; done) | (unfold State.healthWord; (repeat' split) <;> simp_all; done)
@[simp] theorem recommended_start (s : State) (o_ : Org) (opc_ role_ : Nat) (x_ : Option Half) : State.recommended (s.start o_ opc_ role_ x_) = State.recommended s := by
  first | (simp [State.recommended]; done) | (obtain ⟨m_, n_, e_⟩ := start_eq s o_ opc_ role_ x_; rw [e_]; rfl) | (unfold State.recommended; simp; done) | (unfold State.recommended; (repeat' split) <;> simp_all; done)
@[simp] theorem coverNow_start (s : State) (h : Half) (o_ : Org) (opc_ role_ : Nat) (x_ : Option Half) : State.coverNow (s.start o_ opc_ role_ x_) h = State.coverNow s h := by
  first | (simp [State.coverNow]; done) | (obtain ⟨m_, n_, e_⟩ := start_eq s o_ opc_ role_ x_; rw [e_]; cases h <;> rfl) | (unfold State.coverNow; simp; done) | (unfold State.coverNow; (repeat' split) <;> simp_all; done)
@[simp] theorem cleanNow_start (s : State) (h : Half) (o_ : Org) (opc_ role_ : Nat) (x_ : Option Half) : State.cleanNow (s.start o_ opc_ role_ x_) h = State.cleanNow s h := by
  first | (simp [State.cleanNow]; done) | (obtain ⟨m_, n_, e_⟩ := start_eq s o_ opc_ role_ x_; rw [e_]; cases h <;> rfl) | (unfold State.cleanNow; simp; done) | (unfold State.cleanNow; (repeat' split) <;> simp_all; done)
@[simp] theorem coverCause_start (s : State) (h : Half) (o_ : Org) (opc_ role_ : Nat) (x_ : Option Half) : State.coverCause (s.start o_ opc_ role_ x_) h = State.coverCause s h := by
  first | (simp [State.coverCause]; done) | (obtain ⟨m_, n_, e_⟩ := start_eq s o_ opc_ role_ x_; rw [e_]; cases h <;> rfl) | (unfold State.coverCause; simp; done) | (unfold State.coverCause; (repeat' split) <;> simp_all; done)
@[simp] theorem cleanCause_start (s : State) (h : Half) (o_ : Org) (opc_ role_ : Nat) (x_ : Option Half) : State.cleanCause (s.start o_ opc_ role_ x_) h = State.cleanCause s h := by
  first | (simp [State.cleanCause]; done) | (obtain ⟨m_, n_, e_⟩ := start_eq s o_ opc_ role_ x_; rw [e_]; cases h <;> rfl) | (unfold State.cleanCause; simp; done) | (unfold State.cleanCause; (repeat' split) <;> simp_all; done)
@[simp] theorem raiseReady_start (s : State) (h : Half) (o_ : Org) (opc_ role_ : Nat) (x_ : Option Half) : State.raiseReady (s.start o_ opc_ role_ x_) h = State.raiseReady s h := by
  first | (simp [State.raiseReady]; done) | (obtain ⟨m_, n_, e_⟩ := start_eq s o_ opc_ role_ x_; rw [e_]; cases h <;> rfl) | (unfold State.raiseReady; simp; done) | (unfold State.raiseReady; (repeat' split) <;> simp_all; done)
@[simp] theorem raiseRefusal_start (s : State) (h : Half) (ret : Bool) (freed : Bool) (o_ : Org) (opc_ role_ : Nat) (x_ : Option Half) : State.raiseRefusal (s.start o_ opc_ role_ x_) h ret freed = State.raiseRefusal s h ret freed := by
  first | (simp [State.raiseRefusal]; done) | (obtain ⟨m_, n_, e_⟩ := start_eq s o_ opc_ role_ x_; rw [e_]; cases h <;> rfl) | (unfold State.raiseRefusal; simp; done) | (unfold State.raiseRefusal; (repeat' split) <;> simp_all; done)
@[simp] theorem silent16_start (s : State) (h : Half) (o_ : Org) (opc_ role_ : Nat) (x_ : Option Half) : State.silent16 (s.start o_ opc_ role_ x_) h = State.silent16 s h := by
  first | (simp [State.silent16]; done) | (obtain ⟨m_, n_, e_⟩ := start_eq s o_ opc_ role_ x_; rw [e_]; cases h <;> rfl) | (unfold State.silent16; simp; done) | (unfold State.silent16; (repeat' split) <;> simp_all; done)
@[simp] theorem planned_start (s : State) (x : Half) (o_ : Org) (opc_ role_ : Nat) (x_ : Option Half) : State.planned (s.start o_ opc_ role_ x_) x = State.planned s x := by
  first | (simp [State.planned]; done) | (obtain ⟨m_, n_, e_⟩ := start_eq s o_ opc_ role_ x_; rw [e_]; cases x <;> rfl) | (unfold State.planned; simp; done) | (unfold State.planned; (repeat' split) <;> simp_all; done)
@[simp] theorem pertMag_start (s : State) (h : Half) (k : Nat) (target : Nat) (o_ : Org) (opc_ role_ : Nat) (x_ : Option Half) : pertMag (s.start o_ opc_ role_ x_) h k target = pertMag s h k target := by
  first | (simp [pertMag]; done) | (obtain ⟨m_, n_, e_⟩ := start_eq s o_ opc_ role_ x_; rw [e_]; cases h <;> rfl) | (unfold pertMag; simp; done) | (unfold pertMag; (repeat' split) <;> simp_all; done)
@[simp] theorem shadowWords_start (s : State) (b : Blk) (h : Half) (o_ : Org) (opc_ role_ : Nat) (x_ : Option Half) : shadowWords (s.start o_ opc_ role_ x_) b h = shadowWords s b h := by
  first | (simp [shadowWords]; done) | (obtain ⟨m_, n_, e_⟩ := start_eq s o_ opc_ role_ x_; rw [e_]; cases h <;> rfl) | (unfold shadowWords; simp; done) | (unfold shadowWords; (repeat' split) <;> simp_all; done)
@[simp] theorem connCid_start (s : State) (n : Nat) (o_ : Org) (opc_ role_ : Nat) (x_ : Option Half) : State.connCid (s.start o_ opc_ role_ x_) n = State.connCid s n := by
  first | (simp [State.connCid]; done) | (obtain ⟨m_, n_, e_⟩ := start_eq s o_ opc_ role_ x_; rw [e_]; rfl) | (unfold State.connCid; simp; done) | (unfold State.connCid; (repeat' split) <;> simp_all; done)
@[simp] theorem connTexp_start (s : State) (n : Nat) (o_ : Org) (opc_ role_ : Nat) (x_ : Option Half) : State.connTexp (s.start o_ opc_ role_ x_) n = State.connTexp s n := by
  first | (simp [State.connTexp]; done) | (obtain ⟨m_, n_, e_⟩ := start_eq s o_ opc_ role_ x_; rw [e_]; rfl) | (unfold State.connTexp; simp; done) | (unfold State.connTexp; (repeat' split) <;> simp_all; done)
@[simp] theorem keyAt_start (s : State) (idx : Nat) (o_ : Org) (opc_ role_ : Nat) (x_ : Option Half) : State.keyAt (s.start o_ opc_ role_ x_) idx = State.keyAt s idx := by
  first | (simp [State.keyAt]; done) | (obtain ⟨m_, n_, e_⟩ := start_eq s o_ opc_ role_ x_; rw [e_]; rfl) | (unfold State.keyAt; simp; done) | (unfold State.keyAt; (repeat' split) <;> simp_all; done)
@[simp] theorem keyE_start (s : State) (handle : Nat) (o_ : Org) (opc_ role_ : Nat) (x_ : Option Half) : State.keyE (s.start o_ opc_ role_ x_) handle = State.keyE s handle := by
  first | (simp [State.keyE]; done) | (obtain ⟨m_, n_, e_⟩ := start_eq s o_ opc_ role_ x_; rw [e_]; rfl) | (unfold State.keyE; simp; done) | (unfold State.keyE; (repeat' split) <;> simp_all; done)
@[simp] theorem beforeCutoff_start (s : State) (handle : Nat) (o_ : Org) (opc_ role_ : Nat) (x_ : Option Half) : State.beforeCutoff (s.start o_ opc_ role_ x_) handle = State.beforeCutoff s handle := by
  first | (simp [State.beforeCutoff]; done) | (obtain ⟨m_, n_, e_⟩ := start_eq s o_ opc_ role_ x_; rw [e_]; rfl) | (unfold State.beforeCutoff; simp; done) | (unfold State.beforeCutoff; (repeat' split) <;> simp_all; done)
@[simp] theorem serves_start (s : State) (e : KeyE) (o_ : Org) (opc_ role_ : Nat) (x_ : Option Half) : State.serves (s.start o_ opc_ role_ x_) e = State.serves s e := by
  first | (simp [State.serves]; done) | (obtain ⟨m_, n_, e_⟩ := start_eq s o_ opc_ role_ x_; rw [e_]; rfl) | (unfold State.serves; simp; done) | (unfold State.serves; (repeat' split) <;> simp_all; done)
@[simp] theorem expired_start (s : State) (e : KeyE) (o_ : Org) (opc_ role_ : Nat) (x_ : Option Half) : State.expired (s.start o_ opc_ role_ x_) e = State.expired s e := by
  first | (simp [State.expired]; done) | (obtain ⟨m_, n_, e_⟩ := start_eq s o_ opc_ role_ x_; rw [e_]; rfl) | (unfold State.expired; simp; done) | (unfold State.expired; (repeat' split) <;> simp_all; done)
@[simp] theorem chainOk_start (s : State) (o_ : Org) (opc_ role_ : Nat) (x_ : Option Half) : State.chainOk (s.start o_ opc_ role_ x_) = State.chainOk s := by
  funext n p
  induction n generalizing p with
  | zero => rfl
  | succ n ih => simp only [State.chainOk, ih, serves_start, keyE_start]
@[simp] theorem keyUsable_start (s : State) (handle : Nat) (o_ : Org) (opc_ role_ : Nat) (x_ : Option Half) : State.keyUsable (s.start o_ opc_ role_ x_) handle = State.keyUsable s handle := by
  first | (simp [State.keyUsable]; done) | (obtain ⟨m_, n_, e_⟩ := start_eq s o_ opc_ role_ x_; rw [e_]; rfl) | (unfold State.keyUsable; simp; done) | (unfold State.keyUsable; (repeat' split) <;> simp_all; done)
@[simp] theorem psOf_start (s : State) (sel : KeyE → Bool) (o_ : Org) (opc_ role_ : Nat) (x_ : Option Half) : State.psOf (s.start o_ opc_ role_ x_) sel = State.psOf s sel := by
  first | (simp [State.psOf]; done) | (obtain ⟨m_, n_, e_⟩ := start_eq s o_ opc_ role_ x_; rw [e_]; rfl) | (unfold State.psOf; simp; done) | (unfold State.psOf; (repeat' split) <;> simp_all; done)
@[simp] theorem linkKey_start (s : State) (ps : Nat) (o_ : Org) (opc_ role_ : Nat) (x_ : Option Half) : State.linkKey (s.start o_ opc_ role_ x_) ps = State.linkKey s ps := by
  first | (simp [State.linkKey]; done) | (obtain ⟨m_, n_, e_⟩ := start_eq s o_ opc_ role_ x_; rw [e_]; rfl) | (unfold State.linkKey; simp; done) | (unfold State.linkKey; (repeat' split) <;> simp_all; done)
@[simp] theorem remotePs_start (s : State) (p : Nat) (o_ : Org) (opc_ role_ : Nat) (x_ : Option Half) : State.remotePs (s.start o_ opc_ role_ x_) p = State.remotePs s p := by
  first | (simp [State.remotePs]; done) | (obtain ⟨m_, n_, e_⟩ := start_eq s o_ opc_ role_ x_; rw [e_]; rfl) | (unfold State.remotePs; simp; done) | (unfold State.remotePs; (repeat' split) <;> simp_all; done)
@[simp] theorem headKey_start (s : State) (rid : Nat) (o_ : Org) (opc_ role_ : Nat) (x_ : Option Half) : State.headKey (s.start o_ opc_ role_ x_) rid = State.headKey s rid := by
  first | (simp [State.headKey]; done) | (obtain ⟨m_, n_, e_⟩ := start_eq s o_ opc_ role_ x_; rw [e_]; rfl) | (unfold State.headKey; simp; done) | (unfold State.headKey; (repeat' split) <;> simp_all; done)
@[simp] theorem linkGen_start (s : State) (p : Nat) (o_ : Org) (opc_ role_ : Nat) (x_ : Option Half) : State.linkGen (s.start o_ opc_ role_ x_) p = State.linkGen s p := by
  first | (simp [State.linkGen]; done) | (obtain ⟨m_, n_, e_⟩ := start_eq s o_ opc_ role_ x_; rw [e_]; rfl) | (unfold State.linkGen; simp; done) | (unfold State.linkGen; (repeat' split) <;> simp_all; done)
@[simp] theorem nlkCfg_start (s : State) (h : Half) (p : Nat) (o_ : Org) (opc_ role_ : Nat) (x_ : Option Half) : State.nlkCfg (s.start o_ opc_ role_ x_) h p = State.nlkCfg s h p := by
  first | (simp [State.nlkCfg]; done) | (obtain ⟨m_, n_, e_⟩ := start_eq s o_ opc_ role_ x_; rw [e_]; cases h <;> rfl) | (unfold State.nlkCfg; simp; done) | (unfold State.nlkCfg; (repeat' split) <;> simp_all; done)
@[simp] theorem portEn_start (s : State) (h : Half) (p : Nat) (o_ : Org) (opc_ role_ : Nat) (x_ : Option Half) : State.portEn (s.start o_ opc_ role_ x_) h p = State.portEn s h p := by
  first | (simp [State.portEn]; done) | (obtain ⟨m_, n_, e_⟩ := start_eq s o_ opc_ role_ x_; rw [e_]; cases h <;> rfl) | (unfold State.portEn; simp; done) | (unfold State.portEn; (repeat' split) <;> simp_all; done)
@[simp] theorem portAuth_start (s : State) (h : Half) (p : Nat) (o_ : Org) (opc_ role_ : Nat) (x_ : Option Half) : State.portAuth (s.start o_ opc_ role_ x_) h p = State.portAuth s h p := by
  first | (simp [State.portAuth]; done) | (obtain ⟨m_, n_, e_⟩ := start_eq s o_ opc_ role_ x_; rw [e_]; cases h <;> rfl) | (unfold State.portAuth; simp; done) | (unfold State.portAuth; (repeat' split) <;> simp_all; done)
@[simp] theorem segSize_start (s : State) (h : Half) (p : Nat) (o_ : Org) (opc_ role_ : Nat) (x_ : Option Half) : segSize (s.start o_ opc_ role_ x_) h p = segSize s h p := by
  first | (simp [segSize]; done) | (obtain ⟨m_, n_, e_⟩ := start_eq s o_ opc_ role_ x_; rw [e_]; cases h <;> rfl) | (unfold segSize; simp; done) | (unfold segSize; (repeat' split) <;> simp_all; done)
@[simp] theorem nextMsg_start (s : State) (h : Half) (p : Nat) (ty : Nat) (o_ : Org) (opc_ role_ : Nat) (x_ : Option Half) : State.nextMsg (s.start o_ opc_ role_ x_) h p ty = State.nextMsg s h p ty := by
  first | (simp [State.nextMsg]; done) | (obtain ⟨m_, n_, e_⟩ := start_eq s o_ opc_ role_ x_; rw [e_]; cases h <;> rfl) | (unfold State.nextMsg; simp; done) | (unfold State.nextMsg; (repeat' split) <;> simp_all; done)
@[simp] theorem joinMsg_start (s : State) (h : Half) (p : Nat) (o_ : Org) (opc_ role_ : Nat) (x_ : Option Half) : joinMsg (s.start o_ opc_ role_ x_) h p = joinMsg s h p := by
  first | (simp [joinMsg]; done) | (obtain ⟨m_, n_, e_⟩ := start_eq s o_ opc_ role_ x_; rw [e_]; cases h <;> rfl) | (unfold joinMsg; simp; done) | (unfold joinMsg; (repeat' split) <;> simp_all; done)
@[simp] theorem readySent_start (s : State) (h : Half) (o_ : Org) (opc_ role_ : Nat) (x_ : Option Half) : State.readySent (s.start o_ opc_ role_ x_) h = State.readySent s h := by
  first | (simp [State.readySent]; done) | (obtain ⟨m_, n_, e_⟩ := start_eq s o_ opc_ role_ x_; rw [e_]; cases h <;> rfl) | (unfold State.readySent; simp; done) | (unfold State.readySent; (repeat' split) <;> simp_all; done)
@[simp] theorem sendable_start (s : State) (h : Half) (q : PortS) (ty : Nat) (o_ : Org) (opc_ role_ : Nat) (x_ : Option Half) : sendable (s.start o_ opc_ role_ x_) h q ty = sendable s h q ty := by
  first | (simp [sendable]; done) | (obtain ⟨m_, n_, e_⟩ := start_eq s o_ opc_ role_ x_; rw [e_]; cases h <;> rfl) | (unfold sendable; simp; done) | (unfold sendable; (repeat' split) <;> simp_all; done)
@[simp] theorem lane_start (s : State) (h : Half) (l : Nat) (o_ : Org) (opc_ role_ : Nat) (x_ : Option Half) : State.lane (s.start o_ opc_ role_ x_) h l = State.lane s h l := by
  first | (simp [State.lane]; done) | (obtain ⟨m_, n_, e_⟩ := start_eq s o_ opc_ role_ x_; rw [e_]; cases h <;> rfl) | (unfold State.lane; simp; done) | (unfold State.lane; (repeat' split) <;> simp_all; done)
@[simp] theorem image_start (s : State) (h : Half) (base : Nat) (o_ : Org) (opc_ role_ : Nat) (x_ : Option Half) : State.image (s.start o_ opc_ role_ x_) h base = State.image s h base := by
  first | (simp [State.image]; done) | (obtain ⟨m_, n_, e_⟩ := start_eq s o_ opc_ role_ x_; rw [e_]; cases h <;> rfl) | (unfold State.image; simp; done) | (unfold State.image; (repeat' split) <;> simp_all; done)
@[simp] theorem laneIdx_start (s : State) (h : Half) (l : Nat) (o_ : Org) (opc_ role_ : Nat) (x_ : Option Half) : State.laneIdx (s.start o_ opc_ role_ x_) h l = State.laneIdx s h l := by
  first | (simp [State.laneIdx]; done) | (obtain ⟨m_, n_, e_⟩ := start_eq s o_ opc_ role_ x_; rw [e_]; cases h <;> rfl) | (unfold State.laneIdx; simp; done) | (unfold State.laneIdx; (repeat' split) <;> simp_all; done)
@[simp] theorem lcfg0_start (s : State) (h : Half) (l : Nat) (o_ : Org) (opc_ role_ : Nat) (x_ : Option Half) : State.lcfg0 (s.start o_ opc_ role_ x_) h l = State.lcfg0 s h l := by
  first | (simp [State.lcfg0]; done) | (obtain ⟨m_, n_, e_⟩ := start_eq s o_ opc_ role_ x_; rw [e_]; cases h <;> rfl) | (unfold State.lcfg0; simp; done) | (unfold State.lcfg0; (repeat' split) <;> simp_all; done)
@[simp] theorem lcfg1_start (s : State) (h : Half) (l : Nat) (o_ : Org) (opc_ role_ : Nat) (x_ : Option Half) : State.lcfg1 (s.start o_ opc_ role_ x_) h l = State.lcfg1 s h l := by
  first | (simp [State.lcfg1]; done) | (obtain ⟨m_, n_, e_⟩ := start_eq s o_ opc_ role_ x_; rw [e_]; cases h <;> rfl) | (unfold State.lcfg1; simp; done) | (unfold State.lcfg1; (repeat' split) <;> simp_all; done)
@[simp] theorem laneImage_start (s : State) (h : Half) (l : Nat) (o_ : Org) (opc_ role_ : Nat) (x_ : Option Half) : State.laneImage (s.start o_ opc_ role_ x_) h l = State.laneImage s h l := by
  first | (simp [State.laneImage]; done) | (obtain ⟨m_, n_, e_⟩ := start_eq s o_ opc_ role_ x_; rw [e_]; cases h <;> rfl) | (unfold State.laneImage; simp; done) | (unfold State.laneImage; (repeat' split) <;> simp_all; done)
@[simp] theorem seqCab_start (s : State) (h : Half) (l : Nat) (o_ : Org) (opc_ role_ : Nat) (x_ : Option Half) : State.seqCab (s.start o_ opc_ role_ x_) h l = State.seqCab s h l := by
  first | (simp [State.seqCab]; done) | (obtain ⟨m_, n_, e_⟩ := start_eq s o_ opc_ role_ x_; rw [e_]; cases h <;> rfl) | (unfold State.seqCab; simp; done) | (unfold State.seqCab; (repeat' split) <;> simp_all; done)
@[simp] theorem param_start (s : State) (h : Half) (l : Nat) (n : Nat) (o_ : Org) (opc_ role_ : Nat) (x_ : Option Half) : State.param (s.start o_ opc_ role_ x_) h l n = State.param s h l n := by
  first | (simp [State.param]; done) | (obtain ⟨m_, n_, e_⟩ := start_eq s o_ opc_ role_ x_; rw [e_]; cases h <;> rfl) | (unfold State.param; simp; done) | (unfold State.param; (repeat' split) <;> simp_all; done)
@[simp] theorem mirrored_start (s : State) (h : Half) (off : Nat) (o_ : Org) (opc_ role_ : Nat) (x_ : Option Half) : State.mirrored (s.start o_ opc_ role_ x_) h off = State.mirrored s h off := by
  first | (simp [State.mirrored]; done) | (obtain ⟨m_, n_, e_⟩ := start_eq s o_ opc_ role_ x_; rw [e_]; cases h <;> rfl) | (unfold State.mirrored; simp; done) | (unfold State.mirrored; (repeat' split) <;> simp_all; done)
@[simp] theorem clnView_start (s : State) (h : Half) (off : Nat) (o_ : Org) (opc_ role_ : Nat) (x_ : Option Half) : State.clnView (s.start o_ opc_ role_ x_) h off = State.clnView s h off := by
  first | (simp [State.clnView]; done) | (obtain ⟨m_, n_, e_⟩ := start_eq s o_ opc_ role_ x_; rw [e_]; cases h <;> rfl) | (unfold State.clnView; simp; done) | (unfold State.clnView; (repeat' split) <;> simp_all; done)
@[simp] theorem fallbackCap_start (s : State) (h : Half) (intake : Nat) (o_ : Org) (opc_ role_ : Nat) (x_ : Option Half) : State.fallbackCap (s.start o_ opc_ role_ x_) h intake = State.fallbackCap s h intake := by
  obtain ⟨m_, n_, e_⟩ := start_eq s o_ opc_ role_ x_
  rw [e_]
  cases h <;> rfl
@[simp] theorem failValue_start (s : State) (h : Half) (i : Nat) (v : Int) (o_ : Org) (opc_ role_ : Nat) (x_ : Option Half) : State.failValue (s.start o_ opc_ role_ x_) h i v = State.failValue s h i v := by
  first | (simp [State.failValue]; done) | (obtain ⟨m_, n_, e_⟩ := start_eq s o_ opc_ role_ x_; rw [e_]; cases h <;> rfl) | (unfold State.failValue; simp; done) | (unfold State.failValue; (repeat' split) <;> simp_all; done)
@[simp] theorem staged_start (s : State) (h : Half) (i : Nat) (o_ : Org) (opc_ role_ : Nat) (x_ : Option Half) : State.staged (s.start o_ opc_ role_ x_) h i = State.staged s h i := by
  first | (simp [State.staged]; done) | (obtain ⟨m_, n_, e_⟩ := start_eq s o_ opc_ role_ x_; rw [e_]; cases h <;> rfl) | (unfold State.staged; simp; done) | (unfold State.staged; (repeat' split) <;> simp_all; done)
@[simp] theorem viewNow_start (s : State) (h : Half) (o_ : Org) (opc_ role_ : Nat) (x_ : Option Half) : State.viewNow (s.start o_ opc_ role_ x_) h = State.viewNow s h := by
  first | (simp [State.viewNow]; done) | (obtain ⟨m_, n_, e_⟩ := start_eq s o_ opc_ role_ x_; rw [e_]; cases h <;> rfl) | (unfold State.viewNow; simp; done) | (unfold State.viewNow; (repeat' split) <;> simp_all; done)
@[simp] theorem laneView_start (s : State) (h : Half) (o_ : Org) (opc_ role_ : Nat) (x_ : Option Half) : State.laneView (s.start o_ opc_ role_ x_) h = State.laneView s h := by
  first | (simp [State.laneView]; done) | (obtain ⟨m_, n_, e_⟩ := start_eq s o_ opc_ role_ x_; rw [e_]; cases h <;> rfl) | (unfold State.laneView; simp; done) | (unfold State.laneView; (repeat' split) <;> simp_all; done)
@[simp] theorem laneStaged_start (s : State) (h : Half) (i : Nat) (o_ : Org) (opc_ role_ : Nat) (x_ : Option Half) : State.laneStaged (s.start o_ opc_ role_ x_) h i = State.laneStaged s h i := by
  first | (simp [State.laneStaged]; done) | (obtain ⟨m_, n_, e_⟩ := start_eq s o_ opc_ role_ x_; rw [e_]; cases h <;> rfl) | (unfold State.laneStaged; simp; done) | (unfold State.laneStaged; (repeat' split) <;> simp_all; done)
@[simp] theorem ingestWord_start (s : State) (h : Half) (p : Nat) (n : Nat) (o_ : Org) (opc_ role_ : Nat) (x_ : Option Half) : State.ingestWord (s.start o_ opc_ role_ x_) h p n = State.ingestWord s h p n := by
  first | (simp [State.ingestWord]; done) | (obtain ⟨m_, n_, e_⟩ := start_eq s o_ opc_ role_ x_; rw [e_]; cases h <;> rfl) | (unfold State.ingestWord; simp; done) | (unfold State.ingestWord; (repeat' split) <;> simp_all; done)
@[simp] theorem allocWord_start (s : State) (h : Half) (n : Nat) (o_ : Org) (opc_ role_ : Nat) (x_ : Option Half) : State.allocWord (s.start o_ opc_ role_ x_) h n = State.allocWord s h n := by
  first | (simp [State.allocWord]; done) | (obtain ⟨m_, n_, e_⟩ := start_eq s o_ opc_ role_ x_; rw [e_]; cases h <;> rfl) | (unfold State.allocWord; simp; done) | (unfold State.allocWord; (repeat' split) <;> simp_all; done)
@[simp] theorem laneRead_start (s : State) (h : Half) (l : Nat) (a : Nat) (o_ : Org) (opc_ role_ : Nat) (x_ : Option Half) : State.laneRead (s.start o_ opc_ role_ x_) h l a = State.laneRead s h l a := by
  first | (simp [State.laneRead]; done) | (obtain ⟨m_, n_, e_⟩ := start_eq s o_ opc_ role_ x_; rw [e_]; cases h <;> rfl) | (unfold State.laneRead; simp; done) | (unfold State.laneRead; (repeat' split) <;> simp_all; done)
@[simp] theorem slotCnt_start (s : State) (h : Half) (l : Nat) (o_ : Org) (opc_ role_ : Nat) (x_ : Option Half) : State.slotCnt (s.start o_ opc_ role_ x_) h l = State.slotCnt s h l := by
  first | (simp [State.slotCnt]; done) | (obtain ⟨m_, n_, e_⟩ := start_eq s o_ opc_ role_ x_; rw [e_]; cases h <;> rfl) | (unfold State.slotCnt; simp; done) | (unfold State.slotCnt; (repeat' split) <;> simp_all; done)
@[simp] theorem laneBudget_start (s : State) (h : Half) (l : Nat) (o_ : Org) (opc_ role_ : Nat) (x_ : Option Half) : State.laneBudget (s.start o_ opc_ role_ x_) h l = State.laneBudget s h l := by
  first | (simp [State.laneBudget]; done) | (obtain ⟨m_, n_, e_⟩ := start_eq s o_ opc_ role_ x_; rw [e_]; cases h <;> rfl) | (unfold State.laneBudget; simp; done) | (unfold State.laneBudget; (repeat' split) <;> simp_all; done)
@[simp] theorem boundLanes_start (s : State) (h : Half) (base : Nat) (shadow : Bool) (o_ : Org) (opc_ role_ : Nat) (x_ : Option Half) : boundLanes (s.start o_ opc_ role_ x_) h base shadow = boundLanes s h base shadow := by
  first | (simp [boundLanes]; done) | (obtain ⟨m_, n_, e_⟩ := start_eq s o_ opc_ role_ x_; rw [e_]; cases h <;> rfl) | (unfold boundLanes; simp; done) | (unfold boundLanes; (repeat' split) <;> simp_all; done)
@[simp] theorem cap_start (s : State) (h : Half) (n : Nat) (o_ : Org) (opc_ role_ : Nat) (x_ : Option Half) : State.cap (s.start o_ opc_ role_ x_) h n = State.cap s h n := by
  first | (simp [State.cap]; done) | (obtain ⟨m_, n_, e_⟩ := start_eq s o_ opc_ role_ x_; rw [e_]; cases h <;> rfl) | (unfold State.cap; simp; done) | (unfold State.cap; (repeat' split) <;> simp_all; done)
@[simp] theorem triggerNow_start (s : State) (h : Half) (c : Capture) (o_ : Org) (opc_ role_ : Nat) (x_ : Option Half) : triggerNow (s.start o_ opc_ role_ x_) h c = triggerNow s h c := by
  first | (simp [triggerNow]; done) | (obtain ⟨m_, n_, e_⟩ := start_eq s o_ opc_ role_ x_; rw [e_]; cases h <;> rfl) | (unfold triggerNow; simp; done) | (unfold triggerNow; (repeat' split) <;> simp_all; done)
@[simp] theorem seqS_start (s : State) (h : Half) (c : Nat) (o_ : Org) (opc_ role_ : Nat) (x_ : Option Half) : State.seqS (s.start o_ opc_ role_ x_) h c = State.seqS s h c := by
  first | (simp [State.seqS]; done) | (obtain ⟨m_, n_, e_⟩ := start_eq s o_ opc_ role_ x_; rw [e_]; cases h <;> rfl) | (unfold State.seqS; simp; done) | (unfold State.seqS; (repeat' split) <;> simp_all; done)
@[simp] theorem seqG_start (s : State) (h : Half) (c : Nat) (g : Nat) (o_ : Org) (opc_ role_ : Nat) (x_ : Option Half) : State.seqG (s.start o_ opc_ role_ x_) h c g = State.seqG s h c g := by
  first | (simp [State.seqG]; done) | (obtain ⟨m_, n_, e_⟩ := start_eq s o_ opc_ role_ x_; rw [e_]; cases h <;> rfl) | (unfold State.seqG; simp; done) | (unfold State.seqG; (repeat' split) <;> simp_all; done)
@[simp] theorem upWord_start (s : State) (h : Half) (c : Nat) (w : Nat) (o_ : Org) (opc_ role_ : Nat) (x_ : Option Half) : upWord (s.start o_ opc_ role_ x_) h c w = upWord s h c w := by
  first | (simp [upWord]; done) | (obtain ⟨m_, n_, e_⟩ := start_eq s o_ opc_ role_ x_; rw [e_]; cases h <;> rfl) | (unfold upWord; simp; done) | (unfold upWord; (repeat' split) <;> simp_all; done)
@[simp] theorem seqIn_start (s : State) (h : Half) (c : Nat) (g : Nat) (first : Bool) (o_ : Org) (opc_ role_ : Nat) (x_ : Option Half) : seqIn (s.start o_ opc_ role_ x_) h c g first = seqIn s h c g first := by
  first | (simp [seqIn]; done) | (obtain ⟨m_, n_, e_⟩ := start_eq s o_ opc_ role_ x_; rw [e_]; cases h <;> rfl) | (unfold seqIn; simp; done) | (unfold seqIn; (repeat' split) <;> simp_all; done)
@[simp] theorem seqLine_start (s : State) (h : Half) (c : Nat) (ph : List (Nat × Nat)) (o_ : Org) (opc_ role_ : Nat) (x_ : Option Half) : seqLine (s.start o_ opc_ role_ x_) h c ph = seqLine s h c ph := by
  first | (simp [seqLine]; done) | (obtain ⟨m_, n_, e_⟩ := start_eq s o_ opc_ role_ x_; rw [e_]; cases h <;> rfl) | (unfold seqLine; simp; done) | (unfold seqLine; (repeat' split) <;> simp_all; done)
@[simp] theorem cab_start (s : State) (p : Nat) (o_ : Org) (opc_ role_ : Nat) (x_ : Option Half) : State.cab (s.start o_ opc_ role_ x_) p = State.cab s p := by
  first | (simp [State.cab]; done) | (obtain ⟨m_, n_, e_⟩ := start_eq s o_ opc_ role_ x_; rw [e_]; rfl) | (unfold State.cab; simp; done) | (unfold State.cab; (repeat' split) <;> simp_all; done)
@[simp] theorem appliedWord_start (s : State) (p : Nat) (w : Nat) (o_ : Org) (opc_ role_ : Nat) (x_ : Option Half) : appliedWord (s.start o_ opc_ role_ x_) p w = appliedWord s p w := by
  first | (simp [appliedWord]; done) | (obtain ⟨m_, n_, e_⟩ := start_eq s o_ opc_ role_ x_; rw [e_]; rfl) | (unfold appliedWord; simp; done) | (unfold appliedWord; (repeat' split) <;> simp_all; done)
@[simp] theorem cabGroups_start (s : State) (p : Nat) (g : Nat) (o_ : Org) (opc_ role_ : Nat) (x_ : Option Half) : cabGroups (s.start o_ opc_ role_ x_) p g = cabGroups s p g := by
  first | (simp [cabGroups]; done) | (obtain ⟨m_, n_, e_⟩ := start_eq s o_ opc_ role_ x_; rw [e_]; rfl) | (unfold cabGroups; simp; done) | (unfold cabGroups; (repeat' split) <;> simp_all; done)
@[simp] theorem switching_start (s : State) (p : Nat) (g : Nat) (rotsh : Nat) (minOn : Nat) (o_ : Org) (opc_ role_ : Nat) (x_ : Option Half) : switching (s.start o_ opc_ role_ x_) p g rotsh minOn = switching s p g rotsh minOn := by
  first | (simp [switching]; done) | (obtain ⟨m_, n_, e_⟩ := start_eq s o_ opc_ role_ x_; rw [e_]; rfl) | (unfold switching; simp; done) | (unfold switching; (repeat' split) <;> simp_all; done)
@[simp] theorem nodes_start (s : State) (h : Half) (o_ : Org) (opc_ role_ : Nat) (x_ : Option Half) : State.nodes (s.start o_ opc_ role_ x_) h = State.nodes s h := by
  first | (simp [State.nodes]; done) | (obtain ⟨m_, n_, e_⟩ := start_eq s o_ opc_ role_ x_; rw [e_]; cases h <;> rfl) | (unfold State.nodes; simp; done) | (unfold State.nodes; (repeat' split) <;> simp_all; done)
@[simp] theorem groute_start (s : State) (h : Half) (gid : Nat) (o_ : Org) (opc_ role_ : Nat) (x_ : Option Half) : State.groute (s.start o_ opc_ role_ x_) h gid = State.groute s h gid := by
  first | (simp [State.groute]; done) | (obtain ⟨m_, n_, e_⟩ := start_eq s o_ opc_ role_ x_; rw [e_]; cases h <;> rfl) | (unfold State.groute; simp; done) | (unfold State.groute; (repeat' split) <;> simp_all; done)
@[simp] theorem routesOf_start (s : State) (h : Half) (k : Nat) (o_ : Org) (opc_ role_ : Nat) (x_ : Option Half) : State.routesOf (s.start o_ opc_ role_ x_) h k = State.routesOf s h k := by
  first | (simp [State.routesOf]; done) | (obtain ⟨m_, n_, e_⟩ := start_eq s o_ opc_ role_ x_; rw [e_]; cases h <;> rfl) | (unfold State.routesOf; simp; done) | (unfold State.routesOf; (repeat' split) <;> simp_all; done)
@[simp] theorem drainedState_start (s : State) (h : Half) (gid : Nat) (o_ : Org) (opc_ role_ : Nat) (x_ : Option Half) : State.drainedState (s.start o_ opc_ role_ x_) h gid = State.drainedState s h gid := by
  first | (simp [State.drainedState]; done) | (obtain ⟨m_, n_, e_⟩ := start_eq s o_ opc_ role_ x_; rw [e_]; cases h <;> rfl) | (unfold State.drainedState; simp; done) | (unfold State.drainedState; (repeat' split) <;> simp_all; done)
@[simp] theorem cabLost_start (s : State) (h : Half) (c : Nat) (o_ : Org) (opc_ role_ : Nat) (x_ : Option Half) : State.cabLost (s.start o_ opc_ role_ x_) h c = State.cabLost s h c := by
  first | (simp [State.cabLost]; done) | (obtain ⟨m_, n_, e_⟩ := start_eq s o_ opc_ role_ x_; rw [e_]; cases h <;> rfl) | (unfold State.cabLost; simp; done) | (unfold State.cabLost; (repeat' split) <;> simp_all; done)
@[simp] theorem grpSwitching_start (s : State) (h : Half) (gid : Nat) (o_ : Org) (opc_ role_ : Nat) (x_ : Option Half) : State.grpSwitching (s.start o_ opc_ role_ x_) h gid = State.grpSwitching s h gid := by
  first | (simp [State.grpSwitching]; done) | (obtain ⟨m_, n_, e_⟩ := start_eq s o_ opc_ role_ x_; rw [e_]; cases h <;> rfl) | (unfold State.grpSwitching; simp; done) | (unfold State.grpSwitching; (repeat' split) <;> simp_all; done)
@[simp] theorem chgOf_start (s : State) (h : Half) (k : Nat) (o_ : Org) (opc_ role_ : Nat) (x_ : Option Half) : State.chgOf (s.start o_ opc_ role_ x_) h k = State.chgOf s h k := by
  first | (simp [State.chgOf]; done) | (obtain ⟨m_, n_, e_⟩ := start_eq s o_ opc_ role_ x_; rw [e_]; cases h <;> rfl) | (unfold State.chgOf; simp; done) | (unfold State.chgOf; (repeat' split) <;> simp_all; done)
@[simp] theorem sample_start (s : State) (h : Half) (k : Nat) (off : Nat) (o_ : Org) (opc_ role_ : Nat) (x_ : Option Half) : State.sample (s.start o_ opc_ role_ x_) h k off = State.sample s h k off := by
  first | (simp [State.sample]; done) | (obtain ⟨m_, n_, e_⟩ := start_eq s o_ opc_ role_ x_; rw [e_]; cases h <;> rfl) | (unfold State.sample; simp; done) | (unfold State.sample; (repeat' split) <;> simp_all; done)
@[simp] theorem demandZeroed_start (s : State) (h : Half) (k : Nat) (o_ : Org) (opc_ role_ : Nat) (x_ : Option Half) : State.demandZeroed (s.start o_ opc_ role_ x_) h k = State.demandZeroed s h k := by
  first | (simp [State.demandZeroed]; done) | (obtain ⟨m_, n_, e_⟩ := start_eq s o_ opc_ role_ x_; rw [e_]; cases h <;> rfl) | (unfold State.demandZeroed; simp; done) | (unfold State.demandZeroed; (repeat' split) <;> simp_all; done)
@[simp] theorem outVolt_start (s : State) (h : Half) (k : Nat) (o_ : Org) (opc_ role_ : Nat) (x_ : Option Half) : State.outVolt (s.start o_ opc_ role_ x_) h k = State.outVolt s h k := by
  first | (simp [State.outVolt]; done) | (obtain ⟨m_, n_, e_⟩ := start_eq s o_ opc_ role_ x_; rw [e_]; cases h <;> rfl) | (unfold State.outVolt; simp; done) | (unfold State.outVolt; (repeat' split) <;> simp_all; done)
@[simp] theorem ocfg_start (s : State) (h : Half) (k : Nat) (w : Nat) (o_ : Org) (opc_ role_ : Nat) (x_ : Option Half) : State.ocfg (s.start o_ opc_ role_ x_) h k w = State.ocfg s h k w := by
  first | (simp [State.ocfg]; done) | (obtain ⟨m_, n_, e_⟩ := start_eq s o_ opc_ role_ x_; rw [e_]; cases h <;> rfl) | (unfold State.ocfg; simp; done) | (unfold State.ocfg; (repeat' split) <;> simp_all; done)
@[simp] theorem ceil_start (s : State) (h : Half) (k : Nat) (o_ : Org) (opc_ role_ : Nat) (x_ : Option Half) : State.ceil (s.start o_ opc_ role_ x_) h k = State.ceil s h k := by
  first | (simp [State.ceil]; done) | (obtain ⟨m_, n_, e_⟩ := start_eq s o_ opc_ role_ x_; rw [e_]; cases h <;> rfl) | (unfold State.ceil; simp; done) | (unfold State.ceil; (repeat' split) <;> simp_all; done)
@[simp] theorem tgtZero_start (s : State) (h : Half) (k : Nat) (o_ : Org) (opc_ role_ : Nat) (x_ : Option Half) : State.tgtZero (s.start o_ opc_ role_ x_) h k = State.tgtZero s h k := by
  first | (simp [State.tgtZero]; done) | (obtain ⟨m_, n_, e_⟩ := start_eq s o_ opc_ role_ x_; rw [e_]; cases h <;> rfl) | (unfold State.tgtZero; simp; done) | (unfold State.tgtZero; (repeat' split) <;> simp_all; done)
@[simp] theorem rawTarget_start (s : State) (h : Half) (k : Nat) (o_ : Org) (opc_ role_ : Nat) (x_ : Option Half) : State.rawTarget (s.start o_ opc_ role_ x_) h k = State.rawTarget s h k := by
  first | (simp [State.rawTarget]; done) | (obtain ⟨m_, n_, e_⟩ := start_eq s o_ opc_ role_ x_; rw [e_]; cases h <;> rfl) | (unfold State.rawTarget; simp; done) | (unfold State.rawTarget; (repeat' split) <;> simp_all; done)
@[simp] theorem capWatt_start (s : State) (h : Half) (k : Nat) (i : Int) (o_ : Org) (opc_ role_ : Nat) (x_ : Option Half) : State.capWatt (s.start o_ opc_ role_ x_) h k i = State.capWatt s h k i := by
  first | (simp [State.capWatt]; done) | (obtain ⟨m_, n_, e_⟩ := start_eq s o_ opc_ role_ x_; rw [e_]; cases h <;> rfl) | (unfold State.capWatt; simp; done) | (unfold State.capWatt; (repeat' split) <;> simp_all; done)
@[simp] theorem fallRate_start (s : State) (h : Half) (k : Nat) (o_ : Org) (opc_ role_ : Nat) (x_ : Option Half) : State.fallRate (s.start o_ opc_ role_ x_) h k = State.fallRate s h k := by
  first | (simp [State.fallRate]; done) | (obtain ⟨m_, n_, e_⟩ := start_eq s o_ opc_ role_ x_; rw [e_]; cases h <;> rfl) | (unfold State.fallRate; simp; done) | (unfold State.fallRate; (repeat' split) <;> simp_all; done)
@[simp] theorem prevAlloc_start (s : State) (h : Half) (k : Nat) (o_ : Org) (opc_ role_ : Nat) (x_ : Option Half) : State.prevAlloc (s.start o_ opc_ role_ x_) h k = State.prevAlloc s h k := by
  first | (simp [State.prevAlloc]; done) | (obtain ⟨m_, n_, e_⟩ := start_eq s o_ opc_ role_ x_; rw [e_]; cases h <;> rfl) | (unfold State.prevAlloc; simp; done) | (unfold State.prevAlloc; (repeat' split) <;> simp_all; done)
@[simp] theorem capI_start (s : State) (h : Half) (k : Nat) (o_ : Org) (opc_ role_ : Nat) (x_ : Option Half) : State.capI (s.start o_ opc_ role_ x_) h k = State.capI s h k := by
  first | (simp [State.capI]; done) | (obtain ⟨m_, n_, e_⟩ := start_eq s o_ opc_ role_ x_; rw [e_]; cases h <;> rfl) | (unfold State.capI; simp; done) | (unfold State.capI; (repeat' split) <;> simp_all; done)
@[simp] theorem exporting_start (s : State) (h : Half) (k : Nat) (o_ : Org) (opc_ role_ : Nat) (x_ : Option Half) : State.exporting (s.start o_ opc_ role_ x_) h k = State.exporting s h k := by
  first | (simp [State.exporting]; done) | (obtain ⟨m_, n_, e_⟩ := start_eq s o_ opc_ role_ x_; rw [e_]; cases h <;> rfl) | (unfold State.exporting; simp; done) | (unfold State.exporting; (repeat' split) <;> simp_all; done)
@[simp] theorem exportCap_start (s : State) (h : Half) (k : Nat) (o_ : Org) (opc_ role_ : Nat) (x_ : Option Half) : State.exportCap (s.start o_ opc_ role_ x_) h k = State.exportCap s h k := by
  first | (simp [State.exportCap]; done) | (obtain ⟨m_, n_, e_⟩ := start_eq s o_ opc_ role_ x_; rw [e_]; cases h <;> rfl) | (unfold State.exportCap; simp; done) | (unfold State.exportCap; (repeat' split) <;> simp_all; done)
@[simp] theorem shares_start (s : State) (h : Half) (ns : List Node) (k : Nat) (o_ : Org) (opc_ role_ : Nat) (x_ : Option Half) : State.shares (s.start o_ opc_ role_ x_) h ns k = State.shares s h ns k := by
  first | (simp [State.shares]; done) | (obtain ⟨m_, n_, e_⟩ := start_eq s o_ opc_ role_ x_; rw [e_]; cases h <;> rfl) | (unfold State.shares; simp; done) | (unfold State.shares; (repeat' split) <;> simp_all; done)
@[simp] theorem pvSupply_start (s : State) (h : Half) (u : Nat) (o_ : Org) (opc_ role_ : Nat) (x_ : Option Half) : State.pvSupply (s.start o_ opc_ role_ x_) h u = State.pvSupply s h u := by
  first | (simp [State.pvSupply]; done) | (obtain ⟨m_, n_, e_⟩ := start_eq s o_ opc_ role_ x_; rw [e_]; cases h <;> rfl) | (unfold State.pvSupply; simp; done) | (unfold State.pvSupply; (repeat' split) <;> simp_all; done)
@[simp] theorem disLimit_start (s : State) (h : Half) (u : Nat) (o_ : Org) (opc_ role_ : Nat) (x_ : Option Half) : State.disLimit (s.start o_ opc_ role_ x_) h u = State.disLimit s h u := by
  first | (simp [State.disLimit]; done) | (obtain ⟨m_, n_, e_⟩ := start_eq s o_ opc_ role_ x_; rw [e_]; cases h <;> rfl) | (unfold State.disLimit; simp; done) | (unfold State.disLimit; (repeat' split) <;> simp_all; done)
@[simp] theorem chgCap_start (s : State) (h : Half) (u : Nat) (o_ : Org) (opc_ role_ : Nat) (x_ : Option Half) : State.chgCap (s.start o_ opc_ role_ x_) h u = State.chgCap s h u := by
  first | (simp [State.chgCap]; done) | (obtain ⟨m_, n_, e_⟩ := start_eq s o_ opc_ role_ x_; rw [e_]; cases h <;> rfl) | (unfold State.chgCap; simp; done) | (unfold State.chgCap; (repeat' split) <;> simp_all; done)
@[simp] theorem head0_start (s : State) (h : Half) (ns : List Node) (o_ : Org) (opc_ role_ : Nat) (x_ : Option Half) : State.head0 (s.start o_ opc_ role_ x_) h ns = State.head0 s h ns := by
  first | (simp [State.head0]; done) | (obtain ⟨m_, n_, e_⟩ := start_eq s o_ opc_ role_ x_; rw [e_]; cases h <;> rfl) | (unfold State.head0; simp; done) | (unfold State.head0; (repeat' split) <;> simp_all; done)
@[simp] theorem grantExport_start (s : State) (h : Half) (ns : List Node) (acc : Head × List (Nat × Int × Tab Int)) (k : Nat) (o_ : Org) (opc_ role_ : Nat) (x_ : Option Half) : grantExport (s.start o_ opc_ role_ x_) h ns acc k = grantExport s h ns acc k := by
  first | (simp [grantExport]; done) | (obtain ⟨m_, n_, e_⟩ := start_eq s o_ opc_ role_ x_; rw [e_]; cases h <;> rfl) | (unfold grantExport; simp; done) | (unfold grantExport; (repeat' split) <;> simp_all; done)
@[simp] theorem classDems_start (s : State) (h : Half) (ns : List Node) (c : Nat) (dis : Bool) (o_ : Org) (opc_ role_ : Nat) (x_ : Option Half) : State.classDems (s.start o_ opc_ role_ x_) h ns c dis = State.classDems s h ns c dis := by
  first | (simp [State.classDems]; done) | (obtain ⟨m_, n_, e_⟩ := start_eq s o_ opc_ role_ x_; rw [e_]; cases h <;> rfl) | (unfold State.classDems; simp; done) | (unfold State.classDems; (repeat' split) <;> simp_all; done)
@[simp] theorem enableDis_start (s : State) (h : Half) (ns : List Node) (hd : Head) (o_ : Org) (opc_ role_ : Nat) (x_ : Option Half) : State.enableDis (s.start o_ opc_ role_ x_) h ns hd = State.enableDis s h ns hd := by
  first | (simp [State.enableDis]; done) | (obtain ⟨m_, n_, e_⟩ := start_eq s o_ opc_ role_ x_; rw [e_]; cases h <;> rfl) | (unfold State.enableDis; simp; done) | (unfold State.enableDis; (repeat' split) <;> simp_all; done)
@[simp] theorem solveClass_start (s : State) (h : Half) (ns : List Node) (x : Sol) (c : Nat) (o_ : Org) (opc_ role_ : Nat) (x_ : Option Half) : solveClass (s.start o_ opc_ role_ x_) h ns x c = solveClass s h ns x c := by
  first | (simp [solveClass]; done) | (obtain ⟨m_, n_, e_⟩ := start_eq s o_ opc_ role_ x_; rw [e_]; cases h <;> rfl) | (unfold solveClass; simp; done) | (unfold solveClass; (repeat' split) <;> simp_all; done)
@[simp] theorem reserveDems_start (s : State) (h : Half) (o_ : Org) (opc_ role_ : Nat) (x_ : Option Half) : State.reserveDems (s.start o_ opc_ role_ x_) h = State.reserveDems s h := by
  first | (simp [State.reserveDems]; done) | (obtain ⟨m_, n_, e_⟩ := start_eq s o_ opc_ role_ x_; rw [e_]; cases h <;> rfl) | (unfold State.reserveDems; simp; done) | (unfold State.reserveDems; (repeat' split) <;> simp_all; done)
@[simp] theorem dispatchStor_start (s : State) (h : Half) (ns : List Node) (x0 : Head) (o_ : Org) (opc_ role_ : Nat) (x_ : Option Half) : dispatchStor (s.start o_ opc_ role_ x_) h ns x0 = dispatchStor s h ns x0 := by
  first | (simp [dispatchStor]; done) | (obtain ⟨m_, n_, e_⟩ := start_eq s o_ opc_ role_ x_; rw [e_]; cases h <;> rfl) | (unfold dispatchStor; simp; done) | (unfold dispatchStor; (repeat' split) <;> simp_all; done)
@[simp] theorem ingestMap_start (s : State) (h : Half) (o_ : Org) (opc_ role_ : Nat) (x_ : Option Half) : ingestMap (s.start o_ opc_ role_ x_) h = ingestMap s h := by
  first | (simp [ingestMap]; done) | (obtain ⟨m_, n_, e_⟩ := start_eq s o_ opc_ role_ x_; rw [e_]; cases h <;> rfl) | (unfold ingestMap; simp; done) | (unfold ingestMap; (repeat' split) <;> simp_all; done)
@[simp] theorem logTick_start (s : State) (o_ : Org) (opc_ role_ : Nat) (x_ : Option Half) : State.logTick (s.start o_ opc_ role_ x_) = State.logTick s := by
  first | (simp [State.logTick]; done) | (obtain ⟨m_, n_, e_⟩ := start_eq s o_ opc_ role_ x_; rw [e_]; rfl) | (unfold State.logTick; simp; done) | (unfold State.logTick; (repeat' split) <;> simp_all; done)
@[simp] theorem utc_start (s : State) (o_ : Org) (opc_ role_ : Nat) (x_ : Option Half) : State.utc (s.start o_ opc_ role_ x_) = State.utc s := by
  first | (simp [State.utc]; done) | (obtain ⟨m_, n_, e_⟩ := start_eq s o_ opc_ role_ x_; rw [e_]; rfl) | (unfold State.utc; simp; done) | (unfold State.utc; (repeat' split) <;> simp_all; done)
@[simp] theorem useStatus_start (s : State) (handle : Nat) (role : Option Nat) (engine : Nat) (place : Nat) (usage : Nat) (o_ : Org) (opc_ role_ : Nat) (x_ : Option Half) : State.useStatus (s.start o_ opc_ role_ x_) handle role engine place usage = State.useStatus s handle role engine place usage := by
  first | (simp [State.useStatus]; done) | (obtain ⟨m_, n_, e_⟩ := start_eq s o_ opc_ role_ x_; rw [e_]; rfl) | (unfold State.useStatus; simp; done) | (unfold State.useStatus; (repeat' split) <;> simp_all; done)
@[simp] theorem freeSlot_start (s : State) (skip : List Nat) (o_ : Org) (opc_ role_ : Nat) (x_ : Option Half) : State.freeSlot (s.start o_ opc_ role_ x_) skip = State.freeSlot s skip := by
  first | (simp [State.freeSlot]; done) | (obtain ⟨m_, n_, e_⟩ := start_eq s o_ opc_ role_ x_; rw [e_]; rfl) | (unfold State.freeSlot; simp; done) | (unfold State.freeSlot; (repeat' split) <;> simp_all; done)
@[simp] theorem descend_start (s : State) (o_ : Org) (opc_ role_ : Nat) (x_ : Option Half) : State.descend (s.start o_ opc_ role_ x_) = State.descend s := by
  funext n p
  induction n generalizing p with
  | zero => rfl
  | succ n ih => simp [State.descend, ih]
@[simp] theorem createStatus_start (s : State) (e : KeyE) (role : Nat) (o_ : Org) (opc_ role_ : Nat) (x_ : Option Half) : State.createStatus (s.start o_ opc_ role_ x_) e role = State.createStatus s e role := by
  first | (simp [State.createStatus]; done) | (obtain ⟨m_, n_, e_⟩ := start_eq s o_ opc_ role_ x_; rw [e_]; rfl) | (unfold State.createStatus; simp; done) | (unfold State.createStatus; (repeat' split) <;> simp_all; done)
@[simp] theorem randomMat_start (s : State) (typ : Nat) (o_ : Org) (opc_ role_ : Nat) (x_ : Option Half) : State.randomMat (s.start o_ opc_ role_ x_) typ = State.randomMat s typ := by
  first | (simp [State.randomMat]; done) | (obtain ⟨m_, n_, e_⟩ := start_eq s o_ opc_ role_ x_; rw [e_]; rfl) | (unfold State.randomMat; simp; done) | (unfold State.randomMat; (repeat' split) <;> simp_all; done)
@[simp] theorem derivedMat_start (s : State) (e : KeyE) (prk : List Nat) (info : List Nat) (long : Bool) (o_ : Org) (opc_ role_ : Nat) (x_ : Option Half) : State.derivedMat (s.start o_ opc_ role_ x_) e prk info long = State.derivedMat s e prk info long := by
  first | (simp [State.derivedMat]; done) | (obtain ⟨m_, n_, e_⟩ := start_eq s o_ opc_ role_ x_; rw [e_]; rfl) | (unfold State.derivedMat; simp; done) | (unfold State.derivedMat; (repeat' split) <;> simp_all; done)
@[simp] theorem sendStatus_start (s : State) (hs : List Half) (p : Nat) (o_ : Org) (opc_ role_ : Nat) (x_ : Option Half) : State.sendStatus (s.start o_ opc_ role_ x_) hs p = State.sendStatus s hs p := by
  first | (simp [State.sendStatus]; done) | (obtain ⟨m_, n_, e_⟩ := start_eq s o_ opc_ role_ x_; rw [e_]; rfl) | (unfold State.sendStatus; simp; done) | (unfold State.sendStatus; (repeat' split) <;> simp_all; done)
@[simp] theorem rollAcked_start (s : State) (p : Nat) (r : RollS) (o_ : Org) (opc_ role_ : Nat) (x_ : Option Half) : State.rollAcked (s.start o_ opc_ role_ x_) p r = State.rollAcked s p r := by
  first | (simp [State.rollAcked]; done) | (obtain ⟨m_, n_, e_⟩ := start_eq s o_ opc_ role_ x_; rw [e_]; rfl) | (unfold State.rollAcked; simp; done) | (unfold State.rollAcked; (repeat' split) <;> simp_all; done)
@[simp] theorem ancestors_start (s : State) (o_ : Org) (opc_ role_ : Nat) (x_ : Option Half) : State.ancestors (s.start o_ opc_ role_ x_) = State.ancestors s := by
  funext n p
  induction n generalizing p with
  | zero => rfl
  | succ n ih => simp only [State.ancestors, ih, keyE_start]
@[simp] theorem provenance_start (s : State) (pq : Bool) (nonce : List Nat) (e : KeyE) (pubhash : List Nat) (o_ : Org) (opc_ role_ : Nat) (x_ : Option Half) : State.provenance (s.start o_ opc_ role_ x_) pq nonce e pubhash = State.provenance s pq nonce e pubhash := by
  first | (simp [State.provenance]; done) | (obtain ⟨m_, n_, e_⟩ := start_eq s o_ opc_ role_ x_; rw [e_]; rfl) | (unfold State.provenance; simp; done) | (unfold State.provenance; (repeat' split) <;> simp_all; done)
@[simp] theorem identity_start (s : State) (pq : Bool) (nonce : List Nat) (meas : List (List Nat)) (o_ : Org) (opc_ role_ : Nat) (x_ : Option Half) : State.identity (s.start o_ opc_ role_ x_) pq nonce meas = State.identity s pq nonce meas := by
  first | (simp [State.identity]; done) | (obtain ⟨m_, n_, e_⟩ := start_eq s o_ opc_ role_ x_; rw [e_]; rfl) | (unfold State.identity; simp; done) | (unfold State.identity; (repeat' split) <;> simp_all; done)
@[simp] theorem exportStatus_start (s : State) (subject : Nat) (o_ : Org) (opc_ role_ : Nat) (x_ : Option Half) : State.exportStatus (s.start o_ opc_ role_ x_) subject = State.exportStatus s subject := by
  first | (simp [State.exportStatus]; done) | (obtain ⟨m_, n_, e_⟩ := start_eq s o_ opc_ role_ x_; rw [e_]; rfl) | (unfold State.exportStatus; simp; done) | (unfold State.exportStatus; (repeat' split) <;> simp_all; done)
@[simp] theorem opResult_start (s : State) (handle : Nat) (op : Nat) (subject : Nat) (iv : List Nat) (data : List Nat) (given : List Nat) (o_ : Org) (opc_ role_ : Nat) (x_ : Option Half) : State.opResult (s.start o_ opc_ role_ x_) handle op subject iv data given = State.opResult s handle op subject iv data given := by
  first | (simp [State.opResult]; done) | (obtain ⟨m_, n_, e_⟩ := start_eq s o_ opc_ role_ x_; rw [e_]; rfl) | (unfold State.opResult; simp; done) | (unfold State.opResult; (repeat' split) <;> simp_all; done)
@[simp] theorem lktStatus_start (s : State) (o_ : Org) (opc_ role_ : Nat) (x_ : Option Half) : State.lktStatus (s.start o_ opc_ role_ x_) = State.lktStatus s := by
  first | (simp [State.lktStatus]; done) | (obtain ⟨m_, n_, e_⟩ := start_eq s o_ opc_ role_ x_; rw [e_]; rfl) | (unfold State.lktStatus; simp; done) | (unfold State.lktStatus; (repeat' split) <;> simp_all; done)
@[simp] theorem functionOk_start (s : State) (off : Nat) (w : Word) (o_ : Org) (opc_ role_ : Nat) (x_ : Option Half) : State.functionOk (s.start o_ opc_ role_ x_) off w = State.functionOk s off w := by
  first | (simp [State.functionOk]; done) | (obtain ⟨m_, n_, e_⟩ := start_eq s o_ opc_ role_ x_; rw [e_]; rfl) | (unfold State.functionOk; simp; done) | (unfold State.functionOk; (repeat' split) <;> simp_all; done)
@[simp] theorem metw_start (s : State) (off : Nat) (o_ : Org) (opc_ role_ : Nat) (x_ : Option Half) : State.metw (s.start o_ opc_ role_ x_) off = State.metw s off := by
  first | (simp [State.metw]; done) | (obtain ⟨m_, n_, e_⟩ := start_eq s o_ opc_ role_ x_; rw [e_]; rfl) | (unfold State.metw; simp; done) | (unfold State.metw; (repeat' split) <;> simp_all; done)
@[simp] theorem meter_start (s : State) (src : Nat) (o_ : Org) (opc_ role_ : Nat) (x_ : Option Half) : State.meter (s.start o_ opc_ role_ x_) src = State.meter s src := by
  first | (simp [State.meter]; done) | (obtain ⟨m_, n_, e_⟩ := start_eq s o_ opc_ role_ x_; rw [e_]; rfl) | (unfold State.meter; simp; done) | (unfold State.meter; (repeat' split) <;> simp_all; done)
@[simp] theorem srcEn_start (s : State) (src : Nat) (o_ : Org) (opc_ role_ : Nat) (x_ : Option Half) : State.srcEn (s.start o_ opc_ role_ x_) src = State.srcEn s src := by
  first | (simp [State.srcEn]; done) | (obtain ⟨m_, n_, e_⟩ := start_eq s o_ opc_ role_ x_; rw [e_]; rfl) | (unfold State.srcEn; simp; done) | (unfold State.srcEn; (repeat' split) <;> simp_all; done)
@[simp] theorem meterErr_start (s : State) (src : Nat) (o_ : Org) (opc_ role_ : Nat) (x_ : Option Half) : State.meterErr (s.start o_ opc_ role_ x_) src = State.meterErr s src := by
  first | (simp [State.meterErr]; done) | (obtain ⟨m_, n_, e_⟩ := start_eq s o_ opc_ role_ x_; rw [e_]; rfl) | (unfold State.meterErr; simp; done) | (unfold State.meterErr; (repeat' split) <;> simp_all; done)
@[simp] theorem meterCopies_start (s : State) (k : Nat) (o_ : Org) (opc_ role_ : Nat) (x_ : Option Half) : State.meterCopies (s.start o_ opc_ role_ x_) k = State.meterCopies s k := by
  first | (simp [State.meterCopies]; done) | (obtain ⟨m_, n_, e_⟩ := start_eq s o_ opc_ role_ x_; rw [e_]; rfl) | (unfold State.meterCopies; simp; done) | (unfold State.meterCopies; (repeat' split) <;> simp_all; done)
@[simp] theorem copyOk_start (s : State) (k : Nat) (c : MetCopy) (o_ : Org) (opc_ role_ : Nat) (x_ : Option Half) : State.copyOk (s.start o_ opc_ role_ x_) k c = State.copyOk s k c := by
  first | (simp [State.copyOk]; done) | (obtain ⟨m_, n_, e_⟩ := start_eq s o_ opc_ role_ x_; rw [e_]; rfl) | (unfold State.copyOk; simp; done) | (unfold State.copyOk; (repeat' split) <;> simp_all; done)
@[simp] theorem channelOut_start (s : State) (c : Nat) (prev : List Int) (raw : List Int) (o_ : Org) (opc_ role_ : Nat) (x_ : Option Half) : channelOut (s.start o_ opc_ role_ x_) c prev raw = channelOut s c prev raw := by
  first | (simp [channelOut]; done) | (obtain ⟨m_, n_, e_⟩ := start_eq s o_ opc_ role_ x_; rw [e_]; rfl) | (unfold channelOut; simp; done) | (unfold channelOut; (repeat' split) <;> simp_all; done)
@[simp] theorem metStat_start (s : State) (src : Nat) (o_ : Org) (opc_ role_ : Nat) (x_ : Option Half) : State.metStat (s.start o_ opc_ role_ x_) src = State.metStat s src := by
  first | (simp [State.metStat]; done) | (obtain ⟨m_, n_, e_⟩ := start_eq s o_ opc_ role_ x_; rw [e_]; rfl) | (unfold State.metStat; simp; done) | (unfold State.metStat; (repeat' split) <;> simp_all; done)
@[simp] theorem paramI_start (s : State) (h : Half) (l : Nat) (n : Nat) (o_ : Org) (opc_ role_ : Nat) (x_ : Option Half) : State.paramI (s.start o_ opc_ role_ x_) h l n = State.paramI s h l n := by
  first | (simp [State.paramI]; done) | (obtain ⟨m_, n_, e_⟩ := start_eq s o_ opc_ role_ x_; rw [e_]; cases h <;> rfl) | (unfold State.paramI; simp; done) | (unfold State.paramI; (repeat' split) <;> simp_all; done)
@[simp] theorem param32_start (s : State) (h : Half) (l : Nat) (n : Nat) (o_ : Org) (opc_ role_ : Nat) (x_ : Option Half) : State.param32 (s.start o_ opc_ role_ x_) h l n = State.param32 s h l n := by
  first | (simp [State.param32]; done) | (obtain ⟨m_, n_, e_⟩ := start_eq s o_ opc_ role_ x_; rw [e_]; cases h <;> rfl) | (unfold State.param32; simp; done) | (unfold State.param32; (repeat' split) <;> simp_all; done)
@[simp] theorem loopB_start (s : State) (h : Half) (l : Nat) (b : Nat) (o_ : Org) (opc_ role_ : Nat) (x_ : Option Half) : State.loopB (s.start o_ opc_ role_ x_) h l b = State.loopB s h l b := by
  first | (simp [State.loopB]; done) | (obtain ⟨m_, n_, e_⟩ := start_eq s o_ opc_ role_ x_; rw [e_]; cases h <;> rfl) | (unfold State.loopB; simp; done) | (unfold State.loopB; (repeat' split) <;> simp_all; done)
@[simp] theorem hasBlock_start (s : State) (h : Half) (l : Nat) (b : Nat) (o_ : Org) (opc_ role_ : Nat) (x_ : Option Half) : State.hasBlock (s.start o_ opc_ role_ x_) h l b = State.hasBlock s h l b := by
  first | (simp [State.hasBlock]; done) | (obtain ⟨m_, n_, e_⟩ := start_eq s o_ opc_ role_ x_; rw [e_]; cases h <;> rfl) | (unfold State.hasBlock; simp; done) | (unfold State.hasBlock; (repeat' split) <;> simp_all; done)
@[simp] theorem kindUsed_start (s : State) (h : Half) (l : Nat) (b : Nat) (o_ : Org) (opc_ role_ : Nat) (x_ : Option Half) : State.kindUsed (s.start o_ opc_ role_ x_) h l b = State.kindUsed s h l b := by
  first | (simp [State.kindUsed]; done) | (obtain ⟨m_, n_, e_⟩ := start_eq s o_ opc_ role_ x_; rw [e_]; cases h <;> rfl) | (unfold State.kindUsed; simp; done) | (unfold State.kindUsed; (repeat' split) <;> simp_all; done)
@[simp] theorem sessionOpen_start (s : State) (k : Nat) (o_ : Org) (opc_ role_ : Nat) (x_ : Option Half) : State.sessionOpen (s.start o_ opc_ role_ x_) k = State.sessionOpen s k := by
  first | (simp [State.sessionOpen]; done) | (obtain ⟨m_, n_, e_⟩ := start_eq s o_ opc_ role_ x_; rw [e_]; rfl) | (unfold State.sessionOpen; simp; done) | (unfold State.sessionOpen; (repeat' split) <;> simp_all; done)
@[simp] theorem lostAt_start (s : State) (h : Half) (a : Nat) (o_ : Org) (opc_ role_ : Nat) (x_ : Option Half) : lostAt (s.start o_ opc_ role_ x_) h a = lostAt s h a := by
  first | (simp [lostAt]; done) | (obtain ⟨m_, n_, e_⟩ := start_eq s o_ opc_ role_ x_; rw [e_]; cases h <;> rfl) | (unfold lostAt; simp; done) | (unfold lostAt; (repeat' split) <;> simp_all; done)
@[simp] theorem loopIn_start (s : State) (h : Half) (l : Nat) (b : Nat) (first : Bool) (o_ : Org) (opc_ role_ : Nat) (x_ : Option Half) : loopIn (s.start o_ opc_ role_ x_) h l b first = loopIn s h l b first := by
  first | (simp [loopIn]; done) | (obtain ⟨m_, n_, e_⟩ := start_eq s o_ opc_ role_ x_; rw [e_]; cases h <;> rfl) | (unfold loopIn; simp; done) | (unfold loopIn; (repeat' split) <;> simp_all; done)
@[simp] theorem shadowBusy_start (s : State) (h : Half) (o_ : Org) (opc_ role_ : Nat) (x_ : Option Half) : shadowBusy (s.start o_ opc_ role_ x_) h = shadowBusy s h := by
  first | (simp [shadowBusy]; done) | (obtain ⟨m_, n_, e_⟩ := start_eq s o_ opc_ role_ x_; rw [e_]; cases h <;> rfl) | (unfold shadowBusy; simp; done) | (unfold shadowBusy; (repeat' split) <;> simp_all; done)
@[simp] theorem blockThere_start (s : State) (h : Half) (l : Nat) (b : Nat) (o_ : Org) (opc_ role_ : Nat) (x_ : Option Half) : blockThere (s.start o_ opc_ role_ x_) h l b = blockThere s h l b := by
  first | (simp [blockThere]; done) | (obtain ⟨m_, n_, e_⟩ := start_eq s o_ opc_ role_ x_; rw [e_]; cases h <;> rfl) | (unfold blockThere; simp; done) | (unfold blockThere; (repeat' split) <;> simp_all; done)
@[simp] theorem commitEdge_start (s : State) (b : Blk) (h : Half) (o_ : Org) (opc_ role_ : Nat) (x_ : Option Half) : commitEdge (s.start o_ opc_ role_ x_) b h = commitEdge s b h := by
  first | (simp [commitEdge]; done) | (obtain ⟨m_, n_, e_⟩ := start_eq s o_ opc_ role_ x_; rw [e_]; cases h <;> rfl) | (unfold commitEdge; simp; done) | (unfold commitEdge; (repeat' split) <;> simp_all; done)
@[simp] theorem ctr_start (s : State) (h : Half) (n : Nat) (o_ : Org) (opc_ role_ : Nat) (x_ : Option Half) : State.ctr (s.start o_ opc_ role_ x_) h n = State.ctr s h n := by
  first | (simp [State.ctr]; done) | (obtain ⟨m_, n_, e_⟩ := start_eq s o_ opc_ role_ x_; rw [e_]; cases h <;> rfl) | (unfold State.ctr; simp; done) | (unfold State.ctr; (repeat' split) <;> simp_all; done)
@[simp] theorem ctrFor_start (s : State) (h : Half) (gid : Nat) (k : Nat) (o_ : Org) (opc_ role_ : Nat) (x_ : Option Half) : State.ctrFor (s.start o_ opc_ role_ x_) h gid k = State.ctrFor s h gid k := by
  first | (simp [State.ctrFor]; done) | (obtain ⟨m_, n_, e_⟩ := start_eq s o_ opc_ role_ x_; rw [e_]; cases h <;> rfl) | (unfold State.ctrFor; simp; done) | (unfold State.ctrFor; (repeat' split) <;> simp_all; done)
@[simp] theorem poleFb_start (s : State) (h : Half) (n : Nat) (g : Nat) (o_ : Org) (opc_ role_ : Nat) (x_ : Option Half) : State.poleFb (s.start o_ opc_ role_ x_) h n g = State.poleFb s h n g := by
  first | (simp [State.poleFb]; done) | (obtain ⟨m_, n_, e_⟩ := start_eq s o_ opc_ role_ x_; rw [e_]; cases h <;> rfl) | (unfold State.poleFb; simp; done) | (unfold State.poleFb; (repeat' split) <;> simp_all; done)
@[simp] theorem poleBad_start (s : State) (h : Half) (n : Nat) (g : Nat) (o_ : Org) (opc_ role_ : Nat) (x_ : Option Half) : State.poleBad (s.start o_ opc_ role_ x_) h n g = State.poleBad s h n g := by
  first | (simp [State.poleBad]; done) | (obtain ⟨m_, n_, e_⟩ := start_eq s o_ opc_ role_ x_; rw [e_]; cases h <;> rfl) | (unfold State.poleBad; simp; done) | (unfold State.poleBad; (repeat' split) <;> simp_all; done)
@[simp] theorem canReach_start (s : State) (h : Half) (gid : Nat) (k : Nat) (o_ : Org) (opc_ role_ : Nat) (x_ : Option Half) : State.canReach (s.start o_ opc_ role_ x_) h gid k = State.canReach s h gid k := by
  obtain ⟨m_, n_, e_⟩ := start_eq s o_ opc_ role_ x_
  rw [e_]
  cases h <;> rfl
@[simp] theorem usable_start (s : State) (h : Half) (ns : List Node) (k : Nat) (gid : Nat) (o_ : Org) (opc_ role_ : Nat) (x_ : Option Half) : State.usable (s.start o_ opc_ role_ x_) h ns k gid = State.usable s h ns k gid := by
  first | (simp [State.usable]; done) | (obtain ⟨m_, n_, e_⟩ := start_eq s o_ opc_ role_ x_; rw [e_]; cases h <;> rfl) | (unfold State.usable; simp; done) | (unfold State.usable; (repeat' split) <;> simp_all; done)
@[simp] theorem contactorsOpen_start (s : State) (h : Half) (o_ : Org) (opc_ role_ : Nat) (x_ : Option Half) : contactorsOpen (s.start o_ opc_ role_ x_) h = contactorsOpen s h := by
  first | (simp [contactorsOpen]; done) | (obtain ⟨m_, n_, e_⟩ := start_eq s o_ opc_ role_ x_; rw [e_]; cases h <;> rfl) | (unfold contactorsOpen; simp; done) | (unfold contactorsOpen; (repeat' split) <;> simp_all; done)
@[simp] theorem loopSlot_start (s : State) (h : Half) (k : Nat) (o_ : Org) (opc_ role_ : Nat) (x_ : Option Half) : State.loopSlot (s.start o_ opc_ role_ x_) h k = State.loopSlot s h k := by
  first | (simp [State.loopSlot]; done) | (obtain ⟨m_, n_, e_⟩ := start_eq s o_ opc_ role_ x_; rw [e_]; cases h <;> rfl) | (unfold State.loopSlot; simp; done) | (unfold State.loopSlot; (repeat' split) <;> simp_all; done)
@[simp] theorem routeWords_start (s : State) (h : Half) (gid : Nat) (to_ : Option (Nat × Nat)) (o_ : Org) (opc_ role_ : Nat) (x_ : Option Half) : routeWords (s.start o_ opc_ role_ x_) h gid to_ = routeWords s h gid to_ := by
  first | (simp [routeWords]; done) | (obtain ⟨m_, n_, e_⟩ := start_eq s o_ opc_ role_ x_; rw [e_]; cases h <;> rfl) | (unfold routeWords; simp; done) | (unfold routeWords; (repeat' split) <;> simp_all; done)
@[simp] theorem setWords_start (s : State) (h : Half) (k : Nat) (set : List Nat) (o_ : Org) (opc_ role_ : Nat) (x_ : Option Half) : setWords (s.start o_ opc_ role_ x_) h k set = setWords s h k set := by
  first | (simp [setWords]; done) | (obtain ⟨m_, n_, e_⟩ := start_eq s o_ opc_ role_ x_; rw [e_]; cases h <;> rfl) | (unfold setWords; simp; done) | (unfold setWords; (repeat' split) <;> simp_all; done)
@[simp] theorem newSet_start (s : State) (h : Half) (c : Change) (k : Nat) (o_ : Org) (opc_ role_ : Nat) (x_ : Option Half) : newSet (s.start o_ opc_ role_ x_) h c k = newSet s h c k := by
  first | (simp [newSet]; done) | (obtain ⟨m_, n_, e_⟩ := start_eq s o_ opc_ role_ x_; rw [e_]; cases h <;> rfl) | (unfold newSet; simp; done) | (unfold newSet; (repeat' split) <;> simp_all; done)
@[simp] theorem routePlan_start (s : State) (h : Half) (c : Change) (o_ : Org) (opc_ role_ : Nat) (x_ : Option Half) : routePlan (s.start o_ opc_ role_ x_) h c = routePlan s h c := by
  first | (simp [routePlan]; done) | (obtain ⟨m_, n_, e_⟩ := start_eq s o_ opc_ role_ x_; rw [e_]; cases h <;> rfl) | (unfold routePlan; simp; done) | (unfold routePlan; (repeat' split) <;> simp_all; done)
@[simp] theorem dropPlan_start (s : State) (h : Half) (k : Nat) (gone : List Nat) (o_ : Org) (opc_ role_ : Nat) (x_ : Option Half) : dropPlan (s.start o_ opc_ role_ x_) h k gone = dropPlan s h k gone := by
  first | (simp [dropPlan]; done) | (obtain ⟨m_, n_, e_⟩ := start_eq s o_ opc_ role_ x_; rw [e_]; cases h <;> rfl) | (unfold dropPlan; simp; done) | (unfold dropPlan; (repeat' split) <;> simp_all; done)
@[simp] theorem busMatches_start (s : State) (h : Half) (e : Nat × Nat) (o_ : Org) (opc_ role_ : Nat) (x_ : Option Half) : busMatches (s.start o_ opc_ role_ x_) h e = busMatches s h e := by
  first | (simp [busMatches]; done) | (obtain ⟨m_, n_, e_⟩ := start_eq s o_ opc_ role_ x_; rw [e_]; cases h <;> rfl) | (unfold busMatches; simp; done) | (unfold busMatches; (repeat' split) <;> simp_all; done)
@[simp] theorem groupCurrent_start (s : State) (h : Half) (gid : Nat) (o_ : Org) (opc_ role_ : Nat) (x_ : Option Half) : groupCurrent (s.start o_ opc_ role_ x_) h gid = groupCurrent s h gid := by
  first | (simp [groupCurrent]; done) | (obtain ⟨m_, n_, e_⟩ := start_eq s o_ opc_ role_ x_; rw [e_]; cases h <;> rfl) | (unfold groupCurrent; simp; done) | (unfold groupCurrent; (repeat' split) <;> simp_all; done)
@[simp] theorem drainFresh_start (s : State) (h : Half) (ch : Change) (o_ : Org) (opc_ role_ : Nat) (x_ : Option Half) : drainFresh (s.start o_ opc_ role_ x_) h ch = drainFresh s h ch := by
  first | (simp [drainFresh]; done) | (obtain ⟨m_, n_, e_⟩ := start_eq s o_ opc_ role_ x_; rw [e_]; cases h <;> rfl) | (unfold drainFresh; simp; done) | (unfold drainFresh; (repeat' split) <;> simp_all; done)
@[simp] theorem drainedNow_start (s : State) (h : Half) (ch : Change) (o_ : Org) (opc_ role_ : Nat) (x_ : Option Half) : drainedNow (s.start o_ opc_ role_ x_) h ch = drainedNow s h ch := by
  first | (simp [drainedNow]; done) | (obtain ⟨m_, n_, e_⟩ := start_eq s o_ opc_ role_ x_; rw [e_]; cases h <;> rfl) | (unfold drainedNow; simp; done) | (unfold drainedNow; (repeat' split) <;> simp_all; done)
@[simp] theorem othersOpen_start (s : State) (h : Half) (n : Nat) (gid : Nat) (o_ : Org) (opc_ role_ : Nat) (x_ : Option Half) : othersOpen (s.start o_ opc_ role_ x_) h n gid = othersOpen s h n gid := by
  first | (simp [othersOpen]; done) | (obtain ⟨m_, n_, e_⟩ := start_eq s o_ opc_ role_ x_; rw [e_]; cases h <;> rfl) | (unfold othersOpen; simp; done) | (unfold othersOpen; (repeat' split) <;> simp_all; done)
@[simp] theorem permits_start (s : State) (h : Half) (c : Nat) (k : Nat) (o_ : Org) (opc_ role_ : Nat) (x_ : Option Half) : State.permits (s.start o_ opc_ role_ x_) h c k = State.permits s h c k := by
  first | (simp [State.permits]; done) | (obtain ⟨m_, n_, e_⟩ := start_eq s o_ opc_ role_ x_; rw [e_]; cases h <;> rfl) | (unfold State.permits; simp; done) | (unfold State.permits; (repeat' split) <;> simp_all; done)
@[simp] theorem tickChg_start (s : State) (h : Half) (ch : Change) (o_ : Org) (opc_ role_ : Nat) (x_ : Option Half) : tickChg (s.start o_ opc_ role_ x_) h ch = tickChg s h ch := by
  first | (simp [tickChg]; done) | (obtain ⟨m_, n_, e_⟩ := start_eq s o_ opc_ role_ x_; rw [e_]; cases h <;> rfl) | (unfold tickChg; simp; done) | (unfold tickChg; (repeat' split) <;> simp_all; done)
@[simp] theorem demand_start (s : State) (h : Half) (k : Nat) (o_ : Org) (opc_ role_ : Nat) (x_ : Option Half) : State.demand (s.start o_ opc_ role_ x_) h k = State.demand s h k := by
  first | (simp [State.demand]; done) | (obtain ⟨m_, n_, e_⟩ := start_eq s o_ opc_ role_ x_; rw [e_]; cases h <;> rfl) | (unfold State.demand; simp; done) | (unfold State.demand; (repeat' split) <;> simp_all; done)
@[simp] theorem allBelow_start (s : State) (h : Half) (o_ : Org) (opc_ role_ : Nat) (x_ : Option Half) : allBelow (s.start o_ opc_ role_ x_) h = allBelow s h := by
  first | (simp [allBelow]; done) | (obtain ⟨m_, n_, e_⟩ := start_eq s o_ opc_ role_ x_; rw [e_]; cases h <;> rfl) | (unfold allBelow; simp; done) | (unfold allBelow; (repeat' split) <;> simp_all; done)
@[simp] theorem dealRounds_start (s : State) (h : Half) (ns : List Node) (outs : List Nat) (want : Deal → Nat → Bool) (pool : List Nat) (o_ : Org) (opc_ role_ : Nat) (x_ : Option Half) : dealRounds (s.start o_ opc_ role_ x_) h ns outs want pool = dealRounds s h ns outs want pool := by
  funext n d
  induction n generalizing d with
  | zero => rfl
  | succ n ih => simp only [dealRounds, ih, usable_start]
@[simp] theorem takeSurplus_start (s : State) (h : Half) (ns : List Node) (outs : List Nat) (need : Nat → Nat) (k : Nat) (o_ : Org) (opc_ role_ : Nat) (x_ : Option Half) : takeSurplus (s.start o_ opc_ role_ x_) h ns outs need k = takeSurplus s h ns outs need k := by
  funext n d
  induction n generalizing d with
  | zero => rfl
  | succ n ih => simp only [takeSurplus, ih, usable_start]
@[simp] theorem byClass_start (s : State) (h : Half) (outs : List Nat) (o_ : Org) (opc_ role_ : Nat) (x_ : Option Half) : byClass (s.start o_ opc_ role_ x_) h outs = byClass s h outs := by
  first | (simp [byClass]; done) | (obtain ⟨m_, n_, e_⟩ := start_eq s o_ opc_ role_ x_; rw [e_]; cases h <;> rfl) | (unfold byClass; simp; done) | (unfold byClass; (repeat' split) <;> simp_all; done)
@[simp] theorem needOf_start (s : State) (h : Half) (ns : List Node) (k : Nat) (o_ : Org) (opc_ role_ : Nat) (x_ : Option Half) : needOf (s.start o_ opc_ role_ x_) h ns k = needOf s h ns k := by
  obtain ⟨m_, n_, e_⟩ := start_eq s o_ opc_ role_ x_
  rw [e_]
  cases h <;> rfl
@[simp] theorem plannedOuts_start (s : State) (h : Half) (o_ : Org) (opc_ role_ : Nat) (x_ : Option Half) : plannedOuts (s.start o_ opc_ role_ x_) h = plannedOuts s h := by
  first | (simp [plannedOuts]; done) | (obtain ⟨m_, n_, e_⟩ := start_eq s o_ opc_ role_ x_; rw [e_]; cases h <;> rfl) | (unfold plannedOuts; simp; done) | (unfold plannedOuts; (repeat' split) <;> simp_all; done)
@[simp] theorem plannerPool_start (s : State) (h : Half) (outs : List Nat) (o_ : Org) (opc_ role_ : Nat) (x_ : Option Half) : plannerPool (s.start o_ opc_ role_ x_) h outs = plannerPool s h outs := by
  first | (simp [plannerPool]; done) | (obtain ⟨m_, n_, e_⟩ := start_eq s o_ opc_ role_ x_; rw [e_]; cases h <;> rfl) | (unfold plannerPool; simp; done) | (unfold plannerPool; (repeat' split) <;> simp_all; done)
@[simp] theorem mkChange_start (s : State) (h : Half) (sets : List (Nat × List Nat)) (org : Option Org) (asg : Option Nat) (o_ : Org) (opc_ role_ : Nat) (x_ : Option Half) : mkChange (s.start o_ opc_ role_ x_) h sets org asg = mkChange s h sets org asg := by
  first | (simp [mkChange]; done) | (obtain ⟨m_, n_, e_⟩ := start_eq s o_ opc_ role_ x_; rw [e_]; cases h <;> rfl) | (unfold mkChange; simp; done) | (unfold mkChange; (repeat' split) <;> simp_all; done)
@[simp] theorem retryBlocked_start (s : State) (h : Half) (e : Nat × List Nat) (o_ : Org) (opc_ role_ : Nat) (x_ : Option Half) : retryBlocked (s.start o_ opc_ role_ x_) h e = retryBlocked s h e := by
  first | (simp [retryBlocked]; done) | (obtain ⟨m_, n_, e_⟩ := start_eq s o_ opc_ role_ x_; rw [e_]; cases h <;> rfl) | (unfold retryBlocked; simp; done) | (unfold retryBlocked; (repeat' split) <;> simp_all; done)
@[simp] theorem planWords_start (s : State) (h : Half) (ps : List PlanC) (b : Blk) (o_ : Org) (opc_ role_ : Nat) (x_ : Option Half) : planWords (s.start o_ opc_ role_ x_) h ps b = planWords s h ps b := by
  first | (simp [planWords]; done) | (obtain ⟨m_, n_, e_⟩ := start_eq s o_ opc_ role_ x_; rw [e_]; cases h <;> rfl) | (unfold planWords; simp; done) | (unfold planWords; (repeat' split) <;> simp_all; done)
@[simp] theorem chgWord_start (s : State) (h : Half) (k : Nat) (o_ : Org) (opc_ role_ : Nat) (x_ : Option Half) : State.chgWord (s.start o_ opc_ role_ x_) h k = State.chgWord s h k := by
  first | (simp [State.chgWord]; done) | (obtain ⟨m_, n_, e_⟩ := start_eq s o_ opc_ role_ x_; rw [e_]; cases h <;> rfl) | (unfold State.chgWord; simp; done) | (unfold State.chgWord; (repeat' split) <;> simp_all; done)
@[simp] theorem outWord_start (s : State) (h : Half) (k : Nat) (o_ : Org) (opc_ role_ : Nat) (x_ : Option Half) : State.outWord (s.start o_ opc_ role_ x_) h k = State.outWord s h k := by
  first | (simp [State.outWord]; done) | (obtain ⟨m_, n_, e_⟩ := start_eq s o_ opc_ role_ x_; rw [e_]; cases h <;> rfl) | (unfold State.outWord; simp; done) | (unfold State.outWord; (repeat' split) <;> simp_all; done)
@[simp] theorem gstatNow_start (s : State) (h : Half) (gid : Nat) (o_ : Org) (opc_ role_ : Nat) (x_ : Option Half) : State.gstatNow (s.start o_ opc_ role_ x_) h gid = State.gstatNow s h gid := by
  first | (simp [State.gstatNow]; done) | (obtain ⟨m_, n_, e_⟩ := start_eq s o_ opc_ role_ x_; rw [e_]; cases h <;> rfl) | (unfold State.gstatNow; simp; done) | (unfold State.gstatNow; (repeat' split) <;> simp_all; done)
@[simp] theorem makePub_start (s : State) (h : Half) (o_ : Org) (opc_ role_ : Nat) (x_ : Option Half) : State.makePub (s.start o_ opc_ role_ x_) h = State.makePub s h := by
  first | (simp [State.makePub]; done) | (obtain ⟨m_, n_, e_⟩ := start_eq s o_ opc_ role_ x_; rw [e_]; cases h <;> rfl) | (unfold State.makePub; simp; done) | (unfold State.makePub; (repeat' split) <;> simp_all; done)
@[simp] theorem arrivedCmd_start (s : State) (h : Half) (c : LoopCmd) (o_ : Org) (opc_ role_ : Nat) (x_ : Option Half) : arrivedCmd (s.start o_ opc_ role_ x_) h c = arrivedCmd s h c := by
  first | (simp [arrivedCmd]; done) | (obtain ⟨m_, n_, e_⟩ := start_eq s o_ opc_ role_ x_; rw [e_]; cases h <;> rfl) | (unfold arrivedCmd; simp; done) | (unfold arrivedCmd; (repeat' split) <;> simp_all; done)
@[simp] theorem veh1_start (s : State) (k : Nat) (o_ : Org) (opc_ role_ : Nat) (x_ : Option Half) : State.veh1 (s.start o_ opc_ role_ x_) k = State.veh1 s k := by
  first | (simp [State.veh1]; done) | (obtain ⟨m_, n_, e_⟩ := start_eq s o_ opc_ role_ x_; rw [e_]; rfl) | (unfold State.veh1; simp; done) | (unfold State.veh1; (repeat' split) <;> simp_all; done)
@[simp] theorem pointAt_start (s : State) (h : Half) (i : Nat) (o_ : Org) (opc_ role_ : Nat) (x_ : Option Half) : State.pointAt (s.start o_ opc_ role_ x_) h i = State.pointAt s h i := by
  first | (simp [State.pointAt]; done) | (obtain ⟨m_, n_, e_⟩ := start_eq s o_ opc_ role_ x_; rw [e_]; cases h <;> rfl) | (unfold State.pointAt; simp; done) | (unfold State.pointAt; (repeat' split) <;> simp_all; done)
@[simp] theorem vcfg_start (s : State) (k : Nat) (w : Nat) (o_ : Org) (opc_ role_ : Nat) (x_ : Option Half) : State.vcfg (s.start o_ opc_ role_ x_) k w = State.vcfg s k w := by
  first | (simp [State.vcfg]; done) | (obtain ⟨m_, n_, e_⟩ := start_eq s o_ opc_ role_ x_; rw [e_]; rfl) | (unfold State.vcfg; simp; done) | (unfold State.vcfg; (repeat' split) <;> simp_all; done)
@[simp] theorem handshakes_start (s : State) (o_ : Org) (opc_ role_ : Nat) (x_ : Option Half) : State.handshakes (s.start o_ opc_ role_ x_) = State.handshakes s := by
  first | (simp [State.handshakes]; done) | (obtain ⟨m_, n_, e_⟩ := start_eq s o_ opc_ role_ x_; rw [e_]; rfl) | (unfold State.handshakes; simp; done) | (unfold State.handshakes; (repeat' split) <;> simp_all; done)
@[simp] theorem listed_start (s : State) (kind : Nat) (id : List Nat) (o_ : Org) (opc_ role_ : Nat) (x_ : Option Half) : State.listed (s.start o_ opc_ role_ x_) kind id = State.listed s kind id := by
  first | (simp [State.listed]; done) | (obtain ⟨m_, n_, e_⟩ := start_eq s o_ opc_ role_ x_; rw [e_]; rfl) | (unfold State.listed; simp; done) | (unfold State.listed; (repeat' split) <;> simp_all; done)
@[simp] theorem pathOn_start (s : State) (k : Nat) (p : Nat) (o_ : Org) (opc_ role_ : Nat) (x_ : Option Half) : State.pathOn (s.start o_ opc_ role_ x_) k p = State.pathOn s k p := by
  first | (simp [State.pathOn]; done) | (obtain ⟨m_, n_, e_⟩ := start_eq s o_ opc_ role_ x_; rw [e_]; rfl) | (unfold State.pathOn; simp; done) | (unfold State.pathOn; (repeat' split) <;> simp_all; done)
@[simp] theorem tariff_start (s : State) (o_ : Org) (opc_ role_ : Nat) (x_ : Option Half) : State.tariff (s.start o_ opc_ role_ x_) = State.tariff s := by
  first | (simp [State.tariff]; done) | (obtain ⟨m_, n_, e_⟩ := start_eq s o_ opc_ role_ x_; rw [e_]; rfl) | (unfold State.tariff; simp; done) | (unfold State.tariff; (repeat' split) <;> simp_all; done)
@[simp] theorem demandDue_start (s : State) (i : Nat) (u : Int) (o_ : Org) (opc_ role_ : Nat) (x_ : Option Half) : State.demandDue (s.start o_ opc_ role_ x_) i u = State.demandDue s i u := by
  first | (simp [State.demandDue]; done) | (obtain ⟨m_, n_, e_⟩ := start_eq s o_ opc_ role_ x_; rw [e_]; rfl) | (unfold State.demandDue; simp; done) | (unfold State.demandDue; (repeat' split) <;> simp_all; done)
@[simp] theorem periodEntries_start (s : State) (o_ : Org) (opc_ role_ : Nat) (x_ : Option Half) : State.periodEntries (s.start o_ opc_ role_ x_) = State.periodEntries s := by
  first | (simp [State.periodEntries]; done) | (obtain ⟨m_, n_, e_⟩ := start_eq s o_ opc_ role_ x_; rw [e_]; rfl) | (unfold State.periodEntries; simp; done) | (unfold State.periodEntries; (repeat' split) <;> simp_all; done)
@[simp] theorem closeDue_start (s : State) (u : Int) (o_ : Org) (opc_ role_ : Nat) (x_ : Option Half) : State.closeDue (s.start o_ opc_ role_ x_) u = State.closeDue s u := by
  first | (simp [State.closeDue]; done) | (obtain ⟨m_, n_, e_⟩ := start_eq s o_ opc_ role_ x_; rw [e_]; rfl) | (unfold State.closeDue; simp; done) | (unfold State.closeDue; (repeat' split) <;> simp_all; done)
@[simp] theorem integrating_start (s : State) (o_ : Org) (opc_ role_ : Nat) (x_ : Option Half) : State.integrating (s.start o_ opc_ role_ x_) = State.integrating s := by
  first | (simp [State.integrating]; done) | (obtain ⟨m_, n_, e_⟩ := start_eq s o_ opc_ role_ x_; rw [e_]; rfl) | (unfold State.integrating; simp; done) | (unfold State.integrating; (repeat' split) <;> simp_all; done)
@[simp] theorem fullScale_start (s : State) (c : Nat) (o_ : Org) (opc_ role_ : Nat) (x_ : Option Half) : State.fullScale (s.start o_ opc_ role_ x_) c = State.fullScale s c := by
  first | (simp [State.fullScale]; done) | (obtain ⟨m_, n_, e_⟩ := start_eq s o_ opc_ role_ x_; rw [e_]; rfl) | (unfold State.fullScale; simp; done) | (unfold State.fullScale; (repeat' split) <;> simp_all; done)
@[simp] theorem energyJ10_start (s : State) (i : Nat) (o_ : Org) (opc_ role_ : Nat) (x_ : Option Half) : State.energyJ10 (s.start o_ opc_ role_ x_) i = State.energyJ10 s i := by
  first | (simp [State.energyJ10]; done) | (obtain ⟨m_, n_, e_⟩ := start_eq s o_ opc_ role_ x_; rw [e_]; rfl) | (unfold State.energyJ10; simp; done) | (unfold State.energyJ10; (repeat' split) <;> simp_all; done)
@[simp] theorem reg_start (s : State) (src : Nat) (q : Nat) (o_ : Org) (opc_ role_ : Nat) (x_ : Option Half) : State.reg (s.start o_ opc_ role_ x_) src q = State.reg s src q := by
  first | (simp [State.reg]; done) | (obtain ⟨m_, n_, e_⟩ := start_eq s o_ opc_ role_ x_; rw [e_]; rfl) | (unfold State.reg; simp; done) | (unfold State.reg; (repeat' split) <;> simp_all; done)
@[simp] theorem creditOf_start (s : State) (k : Nat) (a : SessAcct) (o_ : Org) (opc_ role_ : Nat) (x_ : Option Half) : State.creditOf (s.start o_ opc_ role_ x_) k a = State.creditOf s k a := by
  first | (simp [State.creditOf]; done) | (obtain ⟨m_, n_, e_⟩ := start_eq s o_ opc_ role_ x_; rw [e_]; rfl) | (unfold State.creditOf; simp; done) | (unfold State.creditOf; (repeat' split) <;> simp_all; done)
@[simp] theorem utcAt_start (s : State) (tick : Nat) (o_ : Org) (opc_ role_ : Nat) (x_ : Option Half) : State.utcAt (s.start o_ opc_ role_ x_) tick = State.utcAt s tick := by
  first | (simp [State.utcAt]; done) | (obtain ⟨m_, n_, e_⟩ := start_eq s o_ opc_ role_ x_; rw [e_]; rfl) | (unfold State.utcAt; simp; done) | (unfold State.utcAt; (repeat' split) <;> simp_all; done)
@[simp] theorem fnUsable_start (s : State) (off : Nat) (o_ : Org) (opc_ role_ : Nat) (x_ : Option Half) : State.fnUsable (s.start o_ opc_ role_ x_) off = State.fnUsable s off := by
  first | (simp [State.fnUsable]; done) | (obtain ⟨m_, n_, e_⟩ := start_eq s o_ opc_ role_ x_; rw [e_]; rfl) | (unfold State.fnUsable; simp; done) | (unfold State.fnUsable; (repeat' split) <;> simp_all; done)
@[simp] theorem signerOk_start (s : State) (pq : Bool) (o_ : Org) (opc_ role_ : Nat) (x_ : Option Half) : State.signerOk (s.start o_ opc_ role_ x_) pq = State.signerOk s pq := by
  first | (simp [State.signerOk]; done) | (obtain ⟨m_, n_, e_⟩ := start_eq s o_ opc_ role_ x_; rw [e_]; rfl) | (unfold State.signerOk; simp; done) | (unfold State.signerOk; (repeat' split) <;> simp_all; done)
@[simp] theorem checkText_start (s : State) (o_ : Org) (opc_ role_ : Nat) (x_ : Option Half) : State.checkText (s.start o_ opc_ role_ x_) = State.checkText s := by
  first | (simp [State.checkText]; done) | (obtain ⟨m_, n_, e_⟩ := start_eq s o_ opc_ role_ x_; rw [e_]; rfl) | (unfold State.checkText; simp; done) | (unfold State.checkText; (repeat' split) <;> simp_all; done)
@[simp] theorem tokenSession_start (s : State) (k : Nat) (o_ : Org) (opc_ role_ : Nat) (x_ : Option Half) : State.tokenSession (s.start o_ opc_ role_ x_) k = State.tokenSession s k := by
  first | (simp [State.tokenSession]; done) | (obtain ⟨m_, n_, e_⟩ := start_eq s o_ opc_ role_ x_; rw [e_]; rfl) | (unfold State.tokenSession; simp; done) | (unfold State.tokenSession; (repeat' split) <;> simp_all; done)
@[simp] theorem tokenMac_start (s : State) (d : List Nat) (o_ : Org) (opc_ role_ : Nat) (x_ : Option Half) : State.tokenMac (s.start o_ opc_ role_ x_) d = State.tokenMac s d := by
  first | (simp [State.tokenMac]; done) | (obtain ⟨m_, n_, e_⟩ := start_eq s o_ opc_ role_ x_; rw [e_]; rfl) | (unfold State.tokenMac; simp; done) | (unfold State.tokenMac; (repeat' split) <;> simp_all; done)
@[simp] theorem tokenResult_start (s : State) (src : Nat) (out : Nat) (d : List Nat) (o_ : Org) (opc_ role_ : Nat) (x_ : Option Half) : State.tokenResult (s.start o_ opc_ role_ x_) src out d = State.tokenResult s src out d := by
  first | (simp [State.tokenResult]; done) | (obtain ⟨m_, n_, e_⟩ := start_eq s o_ opc_ role_ x_; rw [e_]; rfl) | (unfold State.tokenResult; simp; done) | (unfold State.tokenResult; (repeat' split) <;> simp_all; done)
@[simp] theorem sw_start (s : State) (off : Nat) (o_ : Org) (opc_ role_ : Nat) (x_ : Option Half) : State.sw (s.start o_ opc_ role_ x_) off = State.sw s off := by
  first | (simp [State.sw]; done) | (obtain ⟨m_, n_, e_⟩ := start_eq s o_ opc_ role_ x_; rw [e_]; rfl) | (unfold State.sw; simp; done) | (unfold State.sw; (repeat' split) <;> simp_all; done)
@[simp] theorem zone_start (s : State) (z : Nat) (o_ : Org) (opc_ role_ : Nat) (x_ : Option Half) : State.zone (s.start o_ opc_ role_ x_) z = State.zone s z := by
  first | (simp [State.zone]; done) | (obtain ⟨m_, n_, e_⟩ := start_eq s o_ opc_ role_ x_; rw [e_]; rfl) | (unfold State.zone; simp; done) | (unfold State.zone; (repeat' split) <;> simp_all; done)
@[simp] theorem inPair_start (s : State) (n : Nat) (o_ : Org) (opc_ role_ : Nat) (x_ : Option Half) : State.inPair (s.start o_ opc_ role_ x_) n = State.inPair s n := by
  first | (simp [State.inPair]; done) | (obtain ⟨m_, n_, e_⟩ := start_eq s o_ opc_ role_ x_; rw [e_]; rfl) | (unfold State.inPair; simp; done) | (unfold State.inPair; (repeat' split) <;> simp_all; done)
@[simp] theorem outPair_start (s : State) (n : Nat) (o_ : Org) (opc_ role_ : Nat) (x_ : Option Half) : State.outPair (s.start o_ opc_ role_ x_) n = State.outPair s n := by
  first | (simp [State.outPair]; done) | (obtain ⟨m_, n_, e_⟩ := start_eq s o_ opc_ role_ x_; rw [e_]; rfl) | (unfold State.outPair; simp; done) | (unfold State.outPair; (repeat' split) <;> simp_all; done)
@[simp] theorem conn_start (s : State) (n : Nat) (o_ : Org) (opc_ role_ : Nat) (x_ : Option Half) : State.conn (s.start o_ opc_ role_ x_) n = State.conn s n := by
  first | (simp [State.conn]; done) | (obtain ⟨m_, n_, e_⟩ := start_eq s o_ opc_ role_ x_; rw [e_]; rfl) | (unfold State.conn; simp; done) | (unfold State.conn; (repeat' split) <;> simp_all; done)
@[simp] theorem zoneEn_start (s : State) (z : Nat) (o_ : Org) (opc_ role_ : Nat) (x_ : Option Half) : State.zoneEn (s.start o_ opc_ role_ x_) z = State.zoneEn s z := by
  first | (simp [State.zoneEn]; done) | (obtain ⟨m_, n_, e_⟩ := start_eq s o_ opc_ role_ x_; rw [e_]; rfl) | (unfold State.zoneEn; simp; done) | (unfold State.zoneEn; (repeat' split) <;> simp_all; done)
@[simp] theorem zoneTrig_start (s : State) (z : Nat) (o_ : Org) (opc_ role_ : Nat) (x_ : Option Half) : State.zoneTrig (s.start o_ opc_ role_ x_) z = State.zoneTrig s z := by
  first | (simp [State.zoneTrig]; done) | (obtain ⟨m_, n_, e_⟩ := start_eq s o_ opc_ role_ x_; rw [e_]; rfl) | (unfold State.zoneTrig; simp; done) | (unfold State.zoneTrig; (repeat' split) <;> simp_all; done)
@[simp] theorem zoneCabs_start (s : State) (z : Nat) (o_ : Org) (opc_ role_ : Nat) (x_ : Option Half) : State.zoneCabs (s.start o_ opc_ role_ x_) z = State.zoneCabs s z := by
  first | (simp [State.zoneCabs]; done) | (obtain ⟨m_, n_, e_⟩ := start_eq s o_ opc_ role_ x_; rw [e_]; rfl) | (unfold State.zoneCabs; simp; done) | (unfold State.zoneCabs; (repeat' split) <;> simp_all; done)
@[simp] theorem zoneOuts_start (s : State) (z : Nat) (o_ : Org) (opc_ role_ : Nat) (x_ : Option Half) : State.zoneOuts (s.start o_ opc_ role_ x_) z = State.zoneOuts s z := by
  first | (simp [State.zoneOuts]; done) | (obtain ⟨m_, n_, e_⟩ := start_eq s o_ opc_ role_ x_; rw [e_]; rfl) | (unfold State.zoneOuts; simp; done) | (unfold State.zoneOuts; (repeat' split) <;> simp_all; done)
@[simp] theorem zoneStop_start (s : State) (z : Nat) (o_ : Org) (opc_ role_ : Nat) (x_ : Option Half) : State.zoneStop (s.start o_ opc_ role_ x_) z = State.zoneStop s z := by
  first | (simp [State.zoneStop]; done) | (obtain ⟨m_, n_, e_⟩ := start_eq s o_ opc_ role_ x_; rw [e_]; rfl) | (unfold State.zoneStop; simp; done) | (unfold State.zoneStop; (repeat' split) <;> simp_all; done)
@[simp] theorem connEn_start (s : State) (n : Nat) (o_ : Org) (opc_ role_ : Nat) (x_ : Option Half) : State.connEn (s.start o_ opc_ role_ x_) n = State.connEn s n := by
  first | (simp [State.connEn]; done) | (obtain ⟨m_, n_, e_⟩ := start_eq s o_ opc_ role_ x_; rw [e_]; rfl) | (unfold State.connEn; simp; done) | (unfold State.connEn; (repeat' split) <;> simp_all; done)
@[simp] theorem connZones_start (s : State) (n : Nat) (o_ : Org) (opc_ role_ : Nat) (x_ : Option Half) : State.connZones (s.start o_ opc_ role_ x_) n = State.connZones s n := by
  first | (simp [State.connZones]; done) | (obtain ⟨m_, n_, e_⟩ := start_eq s o_ opc_ role_ x_; rw [e_]; rfl) | (unfold State.connZones; simp; done) | (unfold State.connZones; (repeat' split) <;> simp_all; done)
@[simp] theorem soEn_start (s : State) (n : Nat) (o_ : Org) (opc_ role_ : Nat) (x_ : Option Half) : State.soEn (s.start o_ opc_ role_ x_) n = State.soEn s n := by
  first | (simp [State.soEn]; done) | (obtain ⟨m_, n_, e_⟩ := start_eq s o_ opc_ role_ x_; rw [e_]; rfl) | (unfold State.soEn; simp; done) | (unfold State.soEn; (repeat' split) <;> simp_all; done)
@[simp] theorem soZones_start (s : State) (n : Nat) (o_ : Org) (opc_ role_ : Nat) (x_ : Option Half) : State.soZones (s.start o_ opc_ role_ x_) n = State.soZones s n := by
  first | (simp [State.soZones]; done) | (obtain ⟨m_, n_, e_⟩ := start_eq s o_ opc_ role_ x_; rw [e_]; rfl) | (unfold State.soZones; simp; done) | (unfold State.soZones; (repeat' split) <;> simp_all; done)
@[simp] theorem fbkEn_start (s : State) (n : Nat) (o_ : Org) (opc_ role_ : Nat) (x_ : Option Half) : State.fbkEn (s.start o_ opc_ role_ x_) n = State.fbkEn s n := by
  first | (simp [State.fbkEn]; done) | (obtain ⟨m_, n_, e_⟩ := start_eq s o_ opc_ role_ x_; rw [e_]; rfl) | (unfold State.fbkEn; simp; done) | (unfold State.fbkEn; (repeat' split) <;> simp_all; done)
@[simp] theorem zoneHolds_start (s : State) (z : Nat) (o_ : Org) (opc_ role_ : Nat) (x_ : Option Half) : State.zoneHolds (s.start o_ opc_ role_ x_) z = State.zoneHolds s z := by
  first | (simp [State.zoneHolds]; done) | (obtain ⟨m_, n_, e_⟩ := start_eq s o_ opc_ role_ x_; rw [e_]; rfl) | (unfold State.zoneHolds; simp; done) | (unfold State.zoneHolds; (repeat' split) <;> simp_all; done)
@[simp] theorem islandUp_start (s : State) (o_ : Org) (opc_ role_ : Nat) (x_ : Option Half) : State.islandUp (s.start o_ opc_ role_ x_) = State.islandUp s := by
  first | (simp [State.islandUp]; done) | (obtain ⟨m_, n_, e_⟩ := start_eq s o_ opc_ role_ x_; rw [e_]; rfl) | (unfold State.islandUp; simp; done) | (unfold State.islandUp; (repeat' split) <;> simp_all; done)
@[simp] theorem permitOver_start (s : State) (sel : Nat → Bool) (o_ : Org) (opc_ role_ : Nat) (x_ : Option Half) : State.permitOver (s.start o_ opc_ role_ x_) sel = State.permitOver s sel := by
  first | (simp [State.permitOver]; done) | (obtain ⟨m_, n_, e_⟩ := start_eq s o_ opc_ role_ x_; rw [e_]; rfl) | (unfold State.permitOver; simp; done) | (unfold State.permitOver; (repeat' split) <;> simp_all; done)
@[simp] theorem permitCab_start (s : State) (c : Nat) (o_ : Org) (opc_ role_ : Nat) (x_ : Option Half) : State.permitCab (s.start o_ opc_ role_ x_) c = State.permitCab s c := by
  first | (simp [State.permitCab]; done) | (obtain ⟨m_, n_, e_⟩ := start_eq s o_ opc_ role_ x_; rw [e_]; rfl) | (unfold State.permitCab; simp; done) | (unfold State.permitCab; (repeat' split) <;> simp_all; done)
@[simp] theorem permitOut_start (s : State) (k : Nat) (o_ : Org) (opc_ role_ : Nat) (x_ : Option Half) : State.permitOut (s.start o_ opc_ role_ x_) k = State.permitOut s k := by
  first | (simp [State.permitOut]; done) | (obtain ⟨m_, n_, e_⟩ := start_eq s o_ opc_ role_ x_; rw [e_]; rfl) | (unfold State.permitOut; simp; done) | (unfold State.permitOut; (repeat' split) <;> simp_all; done)
@[simp] theorem permitGen_start (s : State) (n : Nat) (o_ : Org) (opc_ role_ : Nat) (x_ : Option Half) : State.permitGen (s.start o_ opc_ role_ x_) n = State.permitGen s n := by
  first | (simp [State.permitGen]; done) | (obtain ⟨m_, n_, e_⟩ := start_eq s o_ opc_ role_ x_; rw [e_]; rfl) | (unfold State.permitGen; simp; done) | (unfold State.permitGen; (repeat' split) <;> simp_all; done)
@[simp] theorem stopCab_start (s : State) (c : Nat) (o_ : Org) (opc_ role_ : Nat) (x_ : Option Half) : State.stopCab (s.start o_ opc_ role_ x_) c = State.stopCab s c := by
  first | (simp [State.stopCab]; done) | (obtain ⟨m_, n_, e_⟩ := start_eq s o_ opc_ role_ x_; rw [e_]; rfl) | (unfold State.stopCab; simp; done) | (unfold State.stopCab; (repeat' split) <;> simp_all; done)
@[simp] theorem stopOut_start (s : State) (k : Nat) (o_ : Org) (opc_ role_ : Nat) (x_ : Option Half) : State.stopOut (s.start o_ opc_ role_ x_) k = State.stopOut s k := by
  first | (simp [State.stopOut]; done) | (obtain ⟨m_, n_, e_⟩ := start_eq s o_ opc_ role_ x_; rw [e_]; rfl) | (unfold State.stopOut; simp; done) | (unfold State.stopOut; (repeat' split) <;> simp_all; done)
@[simp] theorem pairWanted_start (s : State) (n : Nat) (o_ : Org) (opc_ role_ : Nat) (x_ : Option Half) : State.pairWanted (s.start o_ opc_ role_ x_) n = State.pairWanted s n := by
  first | (simp [State.pairWanted]; done) | (obtain ⟨m_, n_, e_⟩ := start_eq s o_ opc_ role_ x_; rw [e_]; rfl) | (unfold State.pairWanted; simp; done) | (unfold State.pairWanted; (repeat' split) <;> simp_all; done)
@[simp] theorem srcDetail_start (s : State) (src : Nat) (o_ : Org) (opc_ role_ : Nat) (x_ : Option Half) : State.srcDetail (s.start o_ opc_ role_ x_) src = State.srcDetail s src := by
  first | (simp [State.srcDetail]; done) | (obtain ⟨m_, n_, e_⟩ := start_eq s o_ opc_ role_ x_; rw [e_]; rfl) | (unfold State.srcDetail; simp; done) | (unfold State.srcDetail; (repeat' split) <;> simp_all; done)
@[simp] theorem poleZones_start (s : State) (n : Nat) (o_ : Org) (opc_ role_ : Nat) (x_ : Option Half) : State.poleZones (s.start o_ opc_ role_ x_) n = State.poleZones s n := by
  first | (simp [State.poleZones]; done) | (obtain ⟨m_, n_, e_⟩ := start_eq s o_ opc_ role_ x_; rw [e_]; rfl) | (unfold State.poleZones; simp; done) | (unfold State.poleZones; (repeat' split) <;> simp_all; done)
@[simp] theorem demandOk_start (s : State) (n : Nat) (o_ : Org) (opc_ role_ : Nat) (x_ : Option Half) : State.demandOk (s.start o_ opc_ role_ x_) n = State.demandOk s n := by
  first | (simp [State.demandOk]; done) | (obtain ⟨m_, n_, e_⟩ := start_eq s o_ opc_ role_ x_; rw [e_]; rfl) | (unfold State.demandOk; simp; done) | (unfold State.demandOk; (repeat' split) <;> simp_all; done)
@[simp] theorem demandNow_start (s : State) (z : Nat) (o_ : Org) (opc_ role_ : Nat) (x_ : Option Half) : State.demandNow (s.start o_ opc_ role_ x_) z = State.demandNow s z := by
  first | (simp [State.demandNow]; done) | (obtain ⟨m_, n_, e_⟩ := start_eq s o_ opc_ role_ x_; rw [e_]; rfl) | (unfold State.demandNow; simp; done) | (unfold State.demandNow; (repeat' split) <;> simp_all; done)
@[simp] theorem zoneConns_start (s : State) (z : Nat) (o_ : Org) (opc_ role_ : Nat) (x_ : Option Half) : State.zoneConns (s.start o_ opc_ role_ x_) z = State.zoneConns s z := by
  first | (simp [State.zoneConns]; done) | (obtain ⟨m_, n_, e_⟩ := start_eq s o_ opc_ role_ x_; rw [e_]; rfl) | (unfold State.zoneConns; simp; done) | (unfold State.zoneConns; (repeat' split) <;> simp_all; done)
@[simp] theorem resetSrc_start (s : State) (src : Nat) (o_ : Org) (opc_ role_ : Nat) (x_ : Option Half) : State.resetSrc (s.start o_ opc_ role_ x_) src = State.resetSrc s src := by
  first | (simp [State.resetSrc]; done) | (obtain ⟨m_, n_, e_⟩ := start_eq s o_ opc_ role_ x_; rw [e_]; rfl) | (unfold State.resetSrc; simp; done) | (unfold State.resetSrc; (repeat' split) <;> simp_all; done)
@[simp] theorem resetZones_start (s : State) (src : Nat) (o_ : Org) (opc_ role_ : Nat) (x_ : Option Half) : State.resetZones (s.start o_ opc_ role_ x_) src = State.resetZones s src := by
  first | (simp [State.resetZones]; done) | (obtain ⟨m_, n_, e_⟩ := start_eq s o_ opc_ role_ x_; rw [e_]; rfl) | (unfold State.resetZones; simp; done) | (unfold State.resetZones; (repeat' split) <;> simp_all; done)
@[simp] theorem startOk_start (s : State) (z : Nat) (o_ : Org) (opc_ role_ : Nat) (x_ : Option Half) : State.startOk (s.start o_ opc_ role_ x_) z = State.startOk s z := by
  first | (simp [State.startOk]; done) | (obtain ⟨m_, n_, e_⟩ := start_eq s o_ opc_ role_ x_; rw [e_]; rfl) | (unfold State.startOk; simp; done) | (unfold State.startOk; (repeat' split) <;> simp_all; done)
@[simp] theorem ranks_start (s : State) (c : Nat) (o_ : Org) (opc_ role_ : Nat) (x_ : Option Half) : State.ranks (s.start o_ opc_ role_ x_) c = State.ranks s c := by
  first | (simp [State.ranks]; done) | (obtain ⟨m_, n_, e_⟩ := start_eq s o_ opc_ role_ x_; rw [e_]; rfl) | (unfold State.ranks; simp; done) | (unfold State.ranks; (repeat' split) <;> simp_all; done)
@[simp] theorem pageBits_start (s : State) (c : Nat) (page : Nat) (o_ : Org) (opc_ role_ : Nat) (x_ : Option Half) : State.pageBits (s.start o_ opc_ role_ x_) c page = State.pageBits s c page := by
  first | (simp [State.pageBits]; done) | (obtain ⟨m_, n_, e_⟩ := start_eq s o_ opc_ role_ x_; rw [e_]; rfl) | (unfold State.pageBits; simp; done) | (unfold State.pageBits; (repeat' split) <;> simp_all; done)
@[simp] theorem polesWanted_start (s : State) (n : Nat) (o_ : Org) (opc_ role_ : Nat) (x_ : Option Half) : State.polesWanted (s.start o_ opc_ role_ x_) n = State.polesWanted s n := by
  first | (simp [State.polesWanted]; done) | (obtain ⟨m_, n_, e_⟩ := start_eq s o_ opc_ role_ x_; rw [e_]; rfl) | (unfold State.polesWanted; simp; done) | (unfold State.polesWanted; (repeat' split) <;> simp_all; done)
@[simp] theorem polesStuck_start (s : State) (n : Nat) (o_ : Org) (opc_ role_ : Nat) (x_ : Option Half) : State.polesStuck (s.start o_ opc_ role_ x_) n = State.polesStuck s n := by
  first | (simp [State.polesStuck]; done) | (obtain ⟨m_, n_, e_⟩ := start_eq s o_ opc_ role_ x_; rw [e_]; rfl) | (unfold State.polesStuck; simp; done) | (unfold State.polesStuck; (repeat' split) <;> simp_all; done)
@[simp] theorem downData_start (s : State) (n : Nat) (o_ : Org) (opc_ role_ : Nat) (x_ : Option Half) : State.downData (s.start o_ opc_ role_ x_) n = State.downData s n := by
  first | (simp [State.downData]; done) | (obtain ⟨m_, n_, e_⟩ := start_eq s o_ opc_ role_ x_; rw [e_]; rfl) | (unfold State.downData; simp; done) | (unfold State.downData; (repeat' split) <;> simp_all; done)
@[simp] theorem envelopeStep_start (s : State) (z : Nat) (x : ZoneS) (k : Nat) (o_ : Org) (opc_ role_ : Nat) (x_ : Option Half) : envelopeStep (s.start o_ opc_ role_ x_) z x k = envelopeStep s z x k := by
  first | (simp [envelopeStep]; done) | (obtain ⟨m_, n_, e_⟩ := start_eq s o_ opc_ role_ x_; rw [e_]; rfl) | (unfold envelopeStep; simp; done) | (unfold envelopeStep; (repeat' split) <;> simp_all; done)
@[simp] theorem inService_start (s : State) (p : Nat) (o_ : Org) (opc_ role_ : Nat) (x_ : Option Half) : State.inService (s.start o_ opc_ role_ x_) p = State.inService s p := by
  first | (simp [State.inService]; done) | (obtain ⟨m_, n_, e_⟩ := start_eq s o_ opc_ role_ x_; rw [e_]; rfl) | (unfold State.inService; simp; done) | (unfold State.inService; (repeat' split) <;> simp_all; done)
@[simp] theorem faultGone_start (s : State) (e : Nat × Nat) (o_ : Org) (opc_ role_ : Nat) (x_ : Option Half) : State.faultGone (s.start o_ opc_ role_ x_) e = State.faultGone s e := by
  first | (simp [State.faultGone]; done) | (obtain ⟨m_, n_, e_⟩ := start_eq s o_ opc_ role_ x_; rw [e_]; rfl) | (unfold State.faultGone; simp; done) | (unfold State.faultGone; (repeat' split) <;> simp_all; done)
@[simp] theorem timerCount_start (s : State) (h : Half) (t : Nat) (o_ : Org) (opc_ role_ : Nat) (x_ : Option Half) : State.timerCount (s.start o_ opc_ role_ x_) h t = State.timerCount s h t := by
  first | (simp [State.timerCount]; done) | (obtain ⟨m_, n_, e_⟩ := start_eq s o_ opc_ role_ x_; rw [e_]; cases h <;> rfl) | (unfold State.timerCount; simp; done) | (unfold State.timerCount; (repeat' split) <;> simp_all; done)
@[simp] theorem wideValue_start (s : State) (h : Half) (src : Nat) (o_ : Org) (opc_ role_ : Nat) (x_ : Option Half) : State.wideValue (s.start o_ opc_ role_ x_) h src = State.wideValue s h src := by
  first | (simp [State.wideValue]; done) | (obtain ⟨m_, n_, e_⟩ := start_eq s o_ opc_ role_ x_; rw [e_]; cases h <;> rfl) | (unfold State.wideValue; simp; done) | (unfold State.wideValue; (repeat' split) <;> simp_all; done)
@[simp] theorem canReg_start (s : State) (n : Nat) (off : Nat) (o_ : Org) (opc_ role_ : Nat) (x_ : Option Half) : State.canReg (s.start o_ opc_ role_ x_) n off = State.canReg s n off := by
  first | (simp [State.canReg]; done) | (obtain ⟨m_, n_, e_⟩ := start_eq s o_ opc_ role_ x_; rw [e_]; rfl) | (unfold State.canReg; simp; done) | (unfold State.canReg; (repeat' split) <;> simp_all; done)
@[simp] theorem canFld_start (s : State) (n : Nat) (off : Nat) (hi : Nat) (lo : Nat) (o_ : Org) (opc_ role_ : Nat) (x_ : Option Half) : State.canFld (s.start o_ opc_ role_ x_) n off hi lo = State.canFld s n off hi lo := by
  first | (simp [State.canFld]; done) | (obtain ⟨m_, n_, e_⟩ := start_eq s o_ opc_ role_ x_; rw [e_]; rfl) | (unfold State.canFld; simp; done) | (unfold State.canFld; (repeat' split) <;> simp_all; done)
@[simp] theorem canS_start (s : State) (n : Nat) (o_ : Org) (opc_ role_ : Nat) (x_ : Option Half) : State.canS (s.start o_ opc_ role_ x_) n = State.canS s n := by
  first | (simp [State.canS]; done) | (obtain ⟨m_, n_, e_⟩ := start_eq s o_ opc_ role_ x_; rw [e_]; rfl) | (unfold State.canS; simp; done) | (unfold State.canS; (repeat' split) <;> simp_all; done)
@[simp] theorem canOwned_start (s : State) (n : Nat) (o_ : Org) (opc_ role_ : Nat) (x_ : Option Half) : State.canOwned (s.start o_ opc_ role_ x_) n = State.canOwned s n := by
  first | (simp [State.canOwned]; done) | (obtain ⟨m_, n_, e_⟩ := start_eq s o_ opc_ role_ x_; rw [e_]; rfl) | (unfold State.canOwned; simp; done) | (unfold State.canOwned; (repeat' split) <;> simp_all; done)
@[simp] theorem tstat_start (s : State) (n : Nat) (b : Nat) (o_ : Org) (opc_ role_ : Nat) (x_ : Option Half) : State.tstat (s.start o_ opc_ role_ x_) n b = State.tstat s n b := by
  first | (simp [State.tstat]; done) | (obtain ⟨m_, n_, e_⟩ := start_eq s o_ opc_ role_ x_; rw [e_]; rfl) | (unfold State.tstat; simp; done) | (unfold State.tstat; (repeat' split) <;> simp_all; done)
@[simp] theorem arbKey_start (s : State) (n : Nat) (b : Nat) (o_ : Org) (opc_ role_ : Nat) (x_ : Option Half) : State.arbKey (s.start o_ opc_ role_ x_) n b = State.arbKey s n b := by
  first | (simp [State.arbKey]; done) | (obtain ⟨m_, n_, e_⟩ := start_eq s o_ opc_ role_ x_; rw [e_]; rfl) | (unfold State.arbKey; simp; done) | (unfold State.arbKey; (repeat' split) <;> simp_all; done)
@[simp] theorem pickTx_start (s : State) (n : Nat) (o_ : Org) (opc_ role_ : Nat) (x_ : Option Half) : State.pickTx (s.start o_ opc_ role_ x_) n = State.pickTx s n := by
  first | (simp [State.pickTx]; done) | (obtain ⟨m_, n_, e_⟩ := start_eq s o_ opc_ role_ x_; rw [e_]; rfl) | (unfold State.pickTx; simp; done) | (unfold State.pickTx; (repeat' split) <;> simp_all; done)
@[simp] theorem canClock_start (s : State) (o_ : Org) (opc_ role_ : Nat) (x_ : Option Half) : State.canClock (s.start o_ opc_ role_ x_) = State.canClock s := by
  first | (simp [State.canClock]; done) | (obtain ⟨m_, n_, e_⟩ := start_eq s o_ opc_ role_ x_; rw [e_]; rfl) | (unfold State.canClock; simp; done) | (unfold State.canClock; (repeat' split) <;> simp_all; done)
@[simp] theorem filterFor_start (s : State) (n : Nat) (f : CanFrame) (o_ : Org) (opc_ role_ : Nat) (x_ : Option Half) : State.filterFor (s.start o_ opc_ role_ x_) n f = State.filterFor s n f := by
  first | (simp [State.filterFor]; done) | (obtain ⟨m_, n_, e_⟩ := start_eq s o_ opc_ role_ x_; rw [e_]; rfl) | (unfold State.filterFor; simp; done) | (unfold State.filterFor; (repeat' split) <;> simp_all; done)
@[simp] theorem nextCand_start (s : State) (n : Nat) (from_ : Nat) (o_ : Org) (opc_ role_ : Nat) (x_ : Option Half) : State.nextCand (s.start o_ opc_ role_ x_) n from_ = State.nextCand s n from_ := by
  first | (simp [State.nextCand]; done) | (obtain ⟨m_, n_, e_⟩ := start_eq s o_ opc_ role_ x_; rw [e_]; rfl) | (unfold State.nextCand; simp; done) | (unfold State.nextCand; (repeat' split) <;> simp_all; done)
@[simp] theorem xrec_start (s : State) (r : Nat) (off : Nat) (o_ : Org) (opc_ role_ : Nat) (x_ : Option Half) : State.xrec (s.start o_ opc_ role_ x_) r off = State.xrec s r off := by
  first | (simp [State.xrec]; done) | (obtain ⟨m_, n_, e_⟩ := start_eq s o_ opc_ role_ x_; rw [e_]; rfl) | (unfold State.xrec; simp; done) | (unfold State.xrec; (repeat' split) <;> simp_all; done)
@[simp] theorem xrecOn_start (s : State) (r : Nat) (n : Nat) (o_ : Org) (opc_ role_ : Nat) (x_ : Option Half) : State.xrecOn (s.start o_ opc_ role_ x_) r n = State.xrecOn s r n := by
  first | (simp [State.xrecOn]; done) | (obtain ⟨m_, n_, e_⟩ := start_eq s o_ opc_ role_ x_; rw [e_]; rfl) | (unfold State.xrecOn; simp; done) | (unfold State.xrecOn; (repeat' split) <;> simp_all; done)
@[simp] theorem xSet_start (s : State) (r : Nat) (o_ : Org) (opc_ role_ : Nat) (x_ : Option Half) : State.xSet (s.start o_ opc_ role_ x_) r = State.xSet s r := by
  first | (simp [State.xSet]; done) | (obtain ⟨m_, n_, e_⟩ := start_eq s o_ opc_ role_ x_; rw [e_]; rfl) | (unfold State.xSet; simp; done) | (unfold State.xSet; (repeat' split) <;> simp_all; done)
@[simp] theorem xData_start (s : State) (r : Nat) (o_ : Org) (opc_ role_ : Nat) (x_ : Option Half) : State.xData (s.start o_ opc_ role_ x_) r = State.xData s r := by
  first | (simp [State.xData]; done) | (obtain ⟨m_, n_, e_⟩ := start_eq s o_ opc_ role_ x_; rw [e_]; rfl) | (unfold State.xData; simp; done) | (unfold State.xData; (repeat' split) <;> simp_all; done)
@[simp] theorem fwFilters_start (s : State) (n : Nat) (o_ : Org) (opc_ role_ : Nat) (x_ : Option Half) : State.fwFilters (s.start o_ opc_ role_ x_) n = State.fwFilters s n := by
  first | (simp [State.fwFilters]; done) | (obtain ⟨m_, n_, e_⟩ := start_eq s o_ opc_ role_ x_; rw [e_]; rfl) | (unfold State.fwFilters; simp; done) | (unfold State.fwFilters; (repeat' split) <;> simp_all; done)
@[simp] theorem prefersOther_start (s : State) (h : Half) (edge : Nat) (o_ : Org) (opc_ role_ : Nat) (x_ : Option Half) : prefersOther (s.start o_ opc_ role_ x_) h edge = prefersOther s h edge := by
  first | (simp [prefersOther]; done) | (obtain ⟨m_, n_, e_⟩ := start_eq s o_ opc_ role_ x_; rw [e_]; cases h <;> rfl) | (unfold prefersOther; simp; done) | (unfold prefersOther; (repeat' split) <;> simp_all; done)
@[simp] theorem releaseCause_start (s : State) (x : Half) (o_ : Org) (opc_ role_ : Nat) (x_ : Option Half) : releaseCause (s.start o_ opc_ role_ x_) x = releaseCause s x := by
  first | (simp [releaseCause]; done) | (obtain ⟨m_, n_, e_⟩ := start_eq s o_ opc_ role_ x_; rw [e_]; cases x <;> rfl) | (unfold releaseCause; simp; done) | (unfold releaseCause; (repeat' split) <;> simp_all; done)
@[simp] theorem servicePorts_start (s : State) (h : Half) (o_ : Org) (opc_ role_ : Nat) (x_ : Option Half) : servicePorts (s.start o_ opc_ role_ x_) h = servicePorts s h := by
  first | (simp [servicePorts]; done) | (obtain ⟨m_, n_, e_⟩ := start_eq s o_ opc_ role_ x_; rw [e_]; cases h <;> rfl) | (unfold servicePorts; simp; done) | (unfold servicePorts; (repeat' split) <;> simp_all; done)
@[simp] theorem preferred_start (s : State) (h : Half) (o_ : Org) (opc_ role_ : Nat) (x_ : Option Half) : preferred (s.start o_ opc_ role_ x_) h = preferred s h := by
  first | (simp [preferred]; done) | (obtain ⟨m_, n_, e_⟩ := start_eq s o_ opc_ role_ x_; rw [e_]; cases h <;> rfl) | (unfold preferred; simp; done) | (unfold preferred; (repeat' split) <;> simp_all; done)
@[simp] theorem handoverQuiet_start (s : State) (g : Half) (o_ : Org) (opc_ role_ : Nat) (x_ : Option Half) : handoverQuiet (s.start o_ opc_ role_ x_) g = handoverQuiet s g := by
  first | (simp [handoverQuiet]; done) | (obtain ⟨m_, n_, e_⟩ := start_eq s o_ opc_ role_ x_; rw [e_]; cases g <;> rfl) | (unfold handoverQuiet; simp; done) | (unfold handoverQuiet; (repeat' split) <;> simp_all; done)
@[simp] theorem cfgImage_start (s : State) (h : Half) (o_ : Org) (opc_ role_ : Nat) (x_ : Option Half) : cfgImage (s.start o_ opc_ role_ x_) h = cfgImage s h := by
  first | (simp [cfgImage]; done) | (obtain ⟨m_, n_, e_⟩ := start_eq s o_ opc_ role_ x_; rw [e_]; cases h <;> rfl) | (unfold cfgImage; simp; done) | (unfold cfgImage; (repeat' split) <;> simp_all; done)
@[simp] theorem returned_start (s : State) (h : Half) (o_ : Org) (opc_ role_ : Nat) (x_ : Option Half) : returned (s.start o_ opc_ role_ x_) h = returned s h := by
  first | (simp [returned]; done) | (obtain ⟨m_, n_, e_⟩ := start_eq s o_ opc_ role_ x_; rw [e_]; cases h <;> rfl) | (unfold returned; simp; done) | (unfold returned; (repeat' split) <;> simp_all; done)
@[simp] theorem lastClaim_start (s : State) (h : Half) (o_ : Org) (opc_ role_ : Nat) (x_ : Option Half) : State.lastClaim (s.start o_ opc_ role_ x_) h = State.lastClaim s h := by
  first | (simp [State.lastClaim]; done) | (obtain ⟨m_, n_, e_⟩ := start_eq s o_ opc_ role_ x_; rw [e_]; cases h <;> rfl) | (unfold State.lastClaim; simp; done) | (unfold State.lastClaim; (repeat' split) <;> simp_all; done)
@[simp] theorem shadowPlan_start (s : State) (h : Half) (o_ : Org) (opc_ role_ : Nat) (x_ : Option Half) : shadowPlan (s.start o_ opc_ role_ x_) h = shadowPlan s h := by
  first | (simp [shadowPlan]; done) | (obtain ⟨m_, n_, e_⟩ := start_eq s o_ opc_ role_ x_; rw [e_]; cases h <;> rfl) | (unfold shadowPlan; simp; done) | (unfold shadowPlan; (repeat' split) <;> simp_all; done)
@[simp] theorem shadowBad_start (s : State) (h : Half) (rs : List ShadowResult) (lane : Nat) (spare : Nat) (o_ : Org) (opc_ role_ : Nat) (x_ : Option Half) : shadowBad (s.start o_ opc_ role_ x_) h rs lane spare = shadowBad s h rs lane spare := by
  first | (simp [shadowBad]; done) | (obtain ⟨m_, n_, e_⟩ := start_eq s o_ opc_ role_ x_; rw [e_]; cases h <;> rfl) | (unfold shadowBad; simp; done) | (unfold shadowBad; (repeat' split) <;> simp_all; done)
@[simp] theorem excludedLanes_start (s : State) (h : Half) (o_ : Org) (opc_ role_ : Nat) (x_ : Option Half) : excludedLanes (s.start o_ opc_ role_ x_) h = excludedLanes s h := by
  first | (simp [excludedLanes]; done) | (obtain ⟨m_, n_, e_⟩ := start_eq s o_ opc_ role_ x_; rw [e_]; cases h <;> rfl) | (unfold excludedLanes; simp; done) | (unfold excludedLanes; (repeat' split) <;> simp_all; done)
@[simp] theorem model_start (s : State) (h : Half) (m : Nat) (o_ : Org) (opc_ role_ : Nat) (x_ : Option Half) : State.model (s.start o_ opc_ role_ x_) h m = State.model s h m := by
  first | (simp [State.model]; done) | (obtain ⟨m_, n_, e_⟩ := start_eq s o_ opc_ role_ x_; rw [e_]; cases h <;> rfl) | (unfold State.model; simp; done) | (unfold State.model; (repeat' split) <;> simp_all; done)
@[simp] theorem mw_start (s : State) (h : Half) (m : Nat) (off : Nat) (o_ : Org) (opc_ role_ : Nat) (x_ : Option Half) : State.mw (s.start o_ opc_ role_ x_) h m off = State.mw s h m off := by
  first | (simp [State.mw]; done) | (obtain ⟨m_, n_, e_⟩ := start_eq s o_ opc_ role_ x_; rw [e_]; cases h <;> rfl) | (unfold State.mw; simp; done) | (unfold State.mw; (repeat' split) <;> simp_all; done)
@[simp] theorem modelEn_start (s : State) (h : Half) (m : Nat) (o_ : Org) (opc_ role_ : Nat) (x_ : Option Half) : State.modelEn (s.start o_ opc_ role_ x_) h m = State.modelEn s h m := by
  first | (simp [State.modelEn]; done) | (obtain ⟨m_, n_, e_⟩ := start_eq s o_ opc_ role_ x_; rw [e_]; cases h <;> rfl) | (unfold State.modelEn; simp; done) | (unfold State.modelEn; (repeat' split) <;> simp_all; done)
@[simp] theorem sensPoint_start (s : State) (h : Half) (m : Nat) (k : Nat) (o_ : Org) (opc_ role_ : Nat) (x_ : Option Half) : State.sensPoint (s.start o_ opc_ role_ x_) h m k = State.sensPoint s h m k := by
  first | (simp [State.sensPoint]; done) | (obtain ⟨m_, n_, e_⟩ := start_eq s o_ opc_ role_ x_; rw [e_]; cases h <;> rfl) | (unfold State.sensPoint; simp; done) | (unfold State.sensPoint; (repeat' split) <;> simp_all; done)
@[simp] theorem sensThere_start (s : State) (h : Half) (m : Nat) (k : Nat) (o_ : Org) (opc_ role_ : Nat) (x_ : Option Half) : State.sensThere (s.start o_ opc_ role_ x_) h m k = State.sensThere s h m k := by
  first | (simp [State.sensThere]; done) | (obtain ⟨m_, n_, e_⟩ := start_eq s o_ opc_ role_ x_; rw [e_]; cases h <;> rfl) | (unfold State.sensThere; simp; done) | (unfold State.sensThere; (repeat' split) <;> simp_all; done)
@[simp] theorem tempVal_start (s : State) (h : Half) (m : Nat) (k : Nat) (o_ : Org) (opc_ role_ : Nat) (x_ : Option Half) : State.tempVal (s.start o_ opc_ role_ x_) h m k = State.tempVal s h m k := by
  first | (simp [State.tempVal]; done) | (obtain ⟨m_, n_, e_⟩ := start_eq s o_ opc_ role_ x_; rw [e_]; cases h <;> rfl) | (unfold State.tempVal; simp; done) | (unfold State.tempVal; (repeat' split) <;> simp_all; done)
@[simp] theorem ambVal_start (s : State) (h : Half) (m : Nat) (o_ : Org) (opc_ role_ : Nat) (x_ : Option Half) : State.ambVal (s.start o_ opc_ role_ x_) h m = State.ambVal s h m := by
  first | (simp [State.ambVal]; done) | (obtain ⟨m_, n_, e_⟩ := start_eq s o_ opc_ role_ x_; rw [e_]; cases h <;> rfl) | (unfold State.ambVal; simp; done) | (unfold State.ambVal; (repeat' split) <;> simp_all; done)
@[simp] theorem flowMax_start (s : State) (h : Half) (m : Nat) (o_ : Org) (opc_ role_ : Nat) (x_ : Option Half) : State.flowMax (s.start o_ opc_ role_ x_) h m = State.flowMax s h m := by
  first | (simp [State.flowMax]; done) | (obtain ⟨m_, n_, e_⟩ := start_eq s o_ opc_ role_ x_; rw [e_]; cases h <;> rfl) | (unfold State.flowMax; simp; done) | (unfold State.flowMax; (repeat' split) <;> simp_all; done)
@[simp] theorem flowVal_start (s : State) (h : Half) (m : Nat) (o_ : Org) (opc_ role_ : Nat) (x_ : Option Half) : State.flowVal (s.start o_ opc_ role_ x_) h m = State.flowVal s h m := by
  first | (simp [State.flowVal]; done) | (obtain ⟨m_, n_, e_⟩ := start_eq s o_ opc_ role_ x_; rw [e_]; cases h <;> rfl) | (unfold State.flowVal; simp; done) | (unfold State.flowVal; (repeat' split) <;> simp_all; done)
@[simp] theorem cableI_start (s : State) (h : Half) (m : Nat) (o_ : Org) (opc_ role_ : Nat) (x_ : Option Half) : State.cableI (s.start o_ opc_ role_ x_) h m = State.cableI s h m := by
  first | (simp [State.cableI]; done) | (obtain ⟨m_, n_, e_⟩ := start_eq s o_ opc_ role_ x_; rw [e_]; cases h <;> rfl) | (unfold State.cableI; simp; done) | (unfold State.cableI; (repeat' split) <;> simp_all; done)
@[simp] theorem thermIn_start (s : State) (h : Half) (m : Nat) (o_ : Org) (opc_ role_ : Nat) (x_ : Option Half) : State.thermIn (s.start o_ opc_ role_ x_) h m = State.thermIn s h m := by
  first | (simp [State.thermIn]; done) | (obtain ⟨m_, n_, e_⟩ := start_eq s o_ opc_ role_ x_; rw [e_]; cases h <;> rfl) | (unfold State.thermIn; simp; done) | (unfold State.thermIn; (repeat' split) <;> simp_all; done)
@[simp] theorem correctPin_start (s : State) (h : Half) (m : Nat) (t : List Nat) (k : Nat) (o_ : Org) (opc_ role_ : Nat) (x_ : Option Half) : correctPin (s.start o_ opc_ role_ x_) h m t k = correctPin s h m t k := by
  first | (simp [correctPin]; done) | (obtain ⟨m_, n_, e_⟩ := start_eq s o_ opc_ role_ x_; rw [e_]; cases h <;> rfl) | (unfold correctPin; simp; done) | (unfold correctPin; (repeat' split) <;> simp_all; done)
@[simp] theorem predPars_start (s : State) (h : Half) (m : Nat) (o_ : Org) (opc_ role_ : Nat) (x_ : Option Half) : State.predPars (s.start o_ opc_ role_ x_) h m = State.predPars s h m := by
  first | (simp [State.predPars]; done) | (obtain ⟨m_, n_, e_⟩ := start_eq s o_ opc_ role_ x_; rw [e_]; cases h <;> rfl) | (unfold State.predPars; simp; done) | (unfold State.predPars; (repeat' split) <;> simp_all; done)
@[simp] theorem predTerm_start (s : State) (h : Half) (m : Nat) (x : ThermIn) (t : List Nat) (band : Nat) (j : Nat) (p : Nat) (o_ : Org) (opc_ role_ : Nat) (x_ : Option Half) : predTerm (s.start o_ opc_ role_ x_) h m x t band j p = predTerm s h m x t band j p := by
  first | (simp [predTerm]; done) | (obtain ⟨m_, n_, e_⟩ := start_eq s o_ opc_ role_ x_; rw [e_]; cases h <;> rfl) | (unfold predTerm; simp; done) | (unfold predTerm; (repeat' split) <;> simp_all; done)
@[simp] theorem pinLeast_start (s : State) (h : Half) (m : Nat) (x : ThermIn) (t : List Nat) (band : Nat) (p : Nat) (o_ : Org) (opc_ role_ : Nat) (x_ : Option Half) : pinLeast (s.start o_ opc_ role_ x_) h m x t band p = pinLeast s h m x t band p := by
  first | (simp [pinLeast]; done) | (obtain ⟨m_, n_, e_⟩ := start_eq s o_ opc_ role_ x_; rw [e_]; cases h <;> rfl) | (unfold pinLeast; simp; done) | (unfold pinLeast; (repeat' split) <;> simp_all; done)
@[simp] theorem derateBound_start (s : State) (h : Half) (m : Nat) (o_ : Org) (opc_ role_ : Nat) (x_ : Option Half) : State.derateBound (s.start o_ opc_ role_ x_) h m = State.derateBound s h m := by
  first | (simp [State.derateBound]; done) | (obtain ⟨m_, n_, e_⟩ := start_eq s o_ opc_ role_ x_; rw [e_]; cases h <;> rfl) | (unfold State.derateBound; simp; done) | (unfold State.derateBound; (repeat' split) <;> simp_all; done)
@[simp] theorem initTemps_start (s : State) (h : Half) (m : Nat) (o_ : Org) (opc_ role_ : Nat) (x_ : Option Half) : initTemps (s.start o_ opc_ role_ x_) h m = initTemps s h m := by
  first | (simp [initTemps]; done) | (obtain ⟨m_, n_, e_⟩ := start_eq s o_ opc_ role_ x_; rw [e_]; cases h <;> rfl) | (unfold initTemps; simp; done) | (unfold initTemps; (repeat' split) <;> simp_all; done)
@[simp] theorem ceilSet_start (s : State) (h : Half) (l : List Nat) (o_ : Org) (opc_ role_ : Nat) (x_ : Option Half) : State.ceilSet (s.start o_ opc_ role_ x_) h l = State.ceilSet s h l := by
  first | (simp [State.ceilSet]; done) | (obtain ⟨m_, n_, e_⟩ := start_eq s o_ opc_ role_ x_; rw [e_]; cases h <;> rfl) | (unfold State.ceilSet; simp; done) | (unfold State.ceilSet; (repeat' split) <;> simp_all; done)
@[simp] theorem due_start (s : State) (h : Half) (last : Option Nat) (n : Nat) (o_ : Org) (opc_ role_ : Nat) (x_ : Option Half) : State.due (s.start o_ opc_ role_ x_) h last n = State.due s h last n := by
  first | (simp [State.due]; done) | (obtain ⟨m_, n_, e_⟩ := start_eq s o_ opc_ role_ x_; rw [e_]; cases h <;> rfl) | (unfold State.due; simp; done) | (unfold State.due; (repeat' split) <;> simp_all; done)
@[simp] theorem slacAt_start (s : State) (k : Nat) (run : Nat) (o_ : Org) (opc_ role_ : Nat) (x_ : Option Half) : State.slacAt (s.start o_ opc_ role_ x_) k run = State.slacAt s k run := by
  first | (simp [State.slacAt]; done) | (obtain ⟨m_, n_, e_⟩ := start_eq s o_ opc_ role_ x_; rw [e_]; rfl) | (unfold State.slacAt; simp; done) | (unfold State.slacAt; (repeat' split) <;> simp_all; done)
@[simp] theorem slacOk_start (s : State) (k : Nat) (run : Nat) (o_ : Org) (opc_ role_ : Nat) (x_ : Option Half) : State.slacOk (s.start o_ opc_ role_ x_) k run = State.slacOk s k run := by
  first | (simp [State.slacOk]; done) | (obtain ⟨m_, n_, e_⟩ := start_eq s o_ opc_ role_ x_; rw [e_]; rfl) | (unfold State.slacOk; simp; done) | (unfold State.slacOk; (repeat' split) <;> simp_all; done)
@[simp] theorem chargerKey_start (s : State) (key : Nat) (o_ : Org) (opc_ role_ : Nat) (x_ : Option Half) : State.chargerKey (s.start o_ opc_ role_ x_) key = State.chargerKey s key := by
  first | (simp [State.chargerKey]; done) | (obtain ⟨m_, n_, e_⟩ := start_eq s o_ opc_ role_ x_; rw [e_]; rfl) | (unfold State.chargerKey; simp; done) | (unfold State.chargerKey; (repeat' split) <;> simp_all; done)
@[simp] theorem routeOk_start (s : State) (k : Nat) (o_ : Org) (opc_ role_ : Nat) (x_ : Option Half) : State.routeOk (s.start o_ opc_ role_ x_) k = State.routeOk s k := by
  first | (simp [State.routeOk]; done) | (obtain ⟨m_, n_, e_⟩ := start_eq s o_ opc_ role_ x_; rw [e_]; rfl) | (unfold State.routeOk; simp; done) | (unfold State.routeOk; (repeat' split) <;> simp_all; done)
@[simp] theorem coolStop_start (s : State) (k : Nat) (o_ : Org) (opc_ role_ : Nat) (x_ : Option Half) : State.coolStop (s.start o_ opc_ role_ x_) k = State.coolStop s k := by
  first | (simp [State.coolStop]; done) | (obtain ⟨m_, n_, e_⟩ := start_eq s o_ opc_ role_ x_; rw [e_]; rfl) | (unfold State.coolStop; simp; done) | (unfold State.coolStop; (repeat' split) <;> simp_all; done)
@[simp] theorem limitReason_start (s : State) (k : Nat) (o_ : Org) (opc_ role_ : Nat) (x_ : Option Half) : State.limitReason (s.start o_ opc_ role_ x_) k = State.limitReason s k := by
  first | (simp [State.limitReason]; done) | (obtain ⟨m_, n_, e_⟩ := start_eq s o_ opc_ role_ x_; rw [e_]; rfl) | (unfold State.limitReason; simp; done) | (unfold State.limitReason; (repeat' split) <;> simp_all; done)
@[simp] theorem causeHolds_start (s : State) (k : Nat) (cause : Nat) (o_ : Org) (opc_ role_ : Nat) (x_ : Option Half) : State.causeHolds (s.start o_ opc_ role_ x_) k cause = State.causeHolds s k cause := by
  first | (simp [State.causeHolds]; done) | (obtain ⟨m_, n_, e_⟩ := start_eq s o_ opc_ role_ x_; rw [e_]; rfl) | (unfold State.causeHolds; simp; done) | (unfold State.causeHolds; (repeat' split) <;> simp_all; done)
@[simp] theorem vehEntries_start (s : State) (k : Nat) (o_ : Org) (opc_ role_ : Nat) (x_ : Option Half) : State.vehEntries (s.start o_ opc_ role_ x_) k = State.vehEntries s k := by
  first | (simp [State.vehEntries]; done) | (obtain ⟨m_, n_, e_⟩ := start_eq s o_ opc_ role_ x_; rw [e_]; rfl) | (unfold State.vehEntries; simp; done) | (unfold State.vehEntries; (repeat' split) <;> simp_all; done)
@[simp] theorem vehSet_start (s : State) (o_ : Org) (opc_ role_ : Nat) (x_ : Option Half) : State.vehSet (s.start o_ opc_ role_ x_) = State.vehSet s := by
  first | (simp [State.vehSet]; done) | (obtain ⟨m_, n_, e_⟩ := start_eq s o_ opc_ role_ x_; rw [e_]; rfl) | (unfold State.vehSet; simp; done) | (unfold State.vehSet; (repeat' split) <;> simp_all; done)
@[simp] theorem actOf_start (s : State) (k : Nat) (o_ : Org) (opc_ role_ : Nat) (x_ : Option Half) : State.actOf (s.start o_ opc_ role_ x_) k = State.actOf s k := by
  first | (simp [State.actOf]; done) | (obtain ⟨m_, n_, e_⟩ := start_eq s o_ opc_ role_ x_; rw [e_]; rfl) | (unfold State.actOf; simp; done) | (unfold State.actOf; (repeat' split) <;> simp_all; done)
@[simp] theorem openAs_start (s : State) (k : Nat) (num : Nat) (o_ : Org) (opc_ role_ : Nat) (x_ : Option Half) : State.openAs (s.start o_ opc_ role_ x_) k num = State.openAs s k num := by
  first | (simp [State.openAs]; done) | (obtain ⟨m_, n_, e_⟩ := start_eq s o_ opc_ role_ x_; rw [e_]; rfl) | (unfold State.openAs; simp; done) | (unfold State.openAs; (repeat' split) <;> simp_all; done)
@[simp] theorem pertFrame_start (s : State) (h : Half) (p : Nat) (f : RxFrame) (o_ : Org) (opc_ role_ : Nat) (x_ : Option Half) : State.pertFrame (s.start o_ opc_ role_ x_) h p f = State.pertFrame s h p f := by
  first | (simp [State.pertFrame]; done) | (obtain ⟨m_, n_, e_⟩ := start_eq s o_ opc_ role_ x_; rw [e_]; cases h <;> rfl) | (unfold State.pertFrame; simp; done) | (unfold State.pertFrame; (repeat' split) <;> simp_all; done)
@[simp] theorem restartReady_start (s : State) (h : Half) (p : Nat) (o_ : Org) (opc_ role_ : Nat) (x_ : Option Half) : State.restartReady (s.start o_ opc_ role_ x_) h p = State.restartReady s h p := by
  first | (simp [State.restartReady]; done) | (obtain ⟨m_, n_, e_⟩ := start_eq s o_ opc_ role_ x_; rw [e_]; cases h <;> rfl) | (unfold State.restartReady; simp; done) | (unfold State.restartReady; (repeat' split) <;> simp_all; done)
@[simp] theorem dispatchWord_start (s : State) (h : Half) (p : Nat) (w : Nat) (o_ : Org) (opc_ role_ : Nat) (x_ : Option Half) : State.dispatchWord (s.start o_ opc_ role_ x_) h p w = State.dispatchWord s h p w := by
  first | (simp [State.dispatchWord]; done) | (obtain ⟨m_, n_, e_⟩ := start_eq s o_ opc_ role_ x_; rw [e_]; cases h <;> rfl) | (unfold State.dispatchWord; simp; done) | (unfold State.dispatchWord; (repeat' split) <;> simp_all; done)
@[simp] theorem downHead_start (s : State) (h : Half) (p : Nat) (ty : Nat) (nblk : Nat) (auth : Bool) (resume : Bool) (o_ : Org) (opc_ role_ : Nat) (x_ : Option Half) : State.downHead (s.start o_ opc_ role_ x_) h p ty nblk auth resume = State.downHead s h p ty nblk auth resume := by
  first | (simp [State.downHead]; done) | (obtain ⟨m_, n_, e_⟩ := start_eq s o_ opc_ role_ x_; rw [e_]; cases h <;> rfl) | (unfold State.downHead; simp; done) | (unfold State.downHead; (repeat' split) <;> simp_all; done)
@[simp] theorem pertSent_start (s : State) (h : Half) (p : Nat) (f : SentFrame) (o_ : Org) (opc_ role_ : Nat) (x_ : Option Half) : State.pertSent (s.start o_ opc_ role_ x_) h p f = State.pertSent s h p f := by
  first | (simp [State.pertSent]; done) | (obtain ⟨m_, n_, e_⟩ := start_eq s o_ opc_ role_ x_; rw [e_]; cases h <;> rfl) | (unfold State.pertSent; simp; done) | (unfold State.pertSent; (repeat' split) <;> simp_all; done)
@[simp] theorem whole_start (s : State) (h : Half) (l : Nat) (o_ : Org) (opc_ role_ : Nat) (x_ : Option Half) : State.whole (s.start o_ opc_ role_ x_) h l = State.whole s h l := by
  first | (simp [State.whole]; done) | (obtain ⟨m_, n_, e_⟩ := start_eq s o_ opc_ role_ x_; rw [e_]; cases h <;> rfl) | (unfold State.whole; simp; done) | (unfold State.whole; (repeat' split) <;> simp_all; done)
@[simp] theorem lswR_start (s : State) (c : Nat) (off : Nat) (o_ : Org) (opc_ role_ : Nat) (x_ : Option Half) : State.lswR (s.start o_ opc_ role_ x_) c off = State.lswR s c off := by
  first | (simp [State.lswR]; done) | (obtain ⟨m_, n_, e_⟩ := start_eq s o_ opc_ role_ x_; rw [e_]; rfl) | (unfold State.lswR; simp; done) | (unfold State.lswR; (repeat' split) <;> simp_all; done)
@[simp] theorem lswF_start (s : State) (c : Nat) (off : Nat) (hi : Nat) (lo : Nat) (o_ : Org) (opc_ role_ : Nat) (x_ : Option Half) : State.lswF (s.start o_ opc_ role_ x_) c off hi lo = State.lswF s c off hi lo := by
  first | (simp [State.lswF]; done) | (obtain ⟨m_, n_, e_⟩ := start_eq s o_ opc_ role_ x_; rw [e_]; rfl) | (unfold State.lswF; simp; done) | (unfold State.lswF; (repeat' split) <;> simp_all; done)
@[simp] theorem lswC_start (s : State) (c : Nat) (o_ : Org) (opc_ role_ : Nat) (x_ : Option Half) : State.lswC (s.start o_ opc_ role_ x_) c = State.lswC s c := by
  first | (simp [State.lswC]; done) | (obtain ⟨m_, n_, e_⟩ := start_eq s o_ opc_ role_ x_; rw [e_]; rfl) | (unfold State.lswC; simp; done) | (unfold State.lswC; (repeat' split) <;> simp_all; done)
@[simp] theorem lswG_start (s : State) (g : Nat) (o_ : Org) (opc_ role_ : Nat) (x_ : Option Half) : State.lswG (s.start o_ opc_ role_ x_) g = State.lswG s g := by
  first | (simp [State.lswG]; done) | (obtain ⟨m_, n_, e_⟩ := start_eq s o_ opc_ role_ x_; rw [e_]; rfl) | (unfold State.lswG; simp; done) | (unfold State.lswG; (repeat' split) <;> simp_all; done)
@[simp] theorem lswSt_start (s : State) (c : Nat) (o_ : Org) (opc_ role_ : Nat) (x_ : Option Half) : State.lswSt (s.start o_ opc_ role_ x_) c = State.lswSt s c := by
  first | (simp [State.lswSt]; done) | (obtain ⟨m_, n_, e_⟩ := start_eq s o_ opc_ role_ x_; rw [e_]; rfl) | (unfold State.lswSt; simp; done) | (unfold State.lswSt; (repeat' split) <;> simp_all; done)
@[simp] theorem lswEn_start (s : State) (c : Nat) (o_ : Org) (opc_ role_ : Nat) (x_ : Option Half) : State.lswEn (s.start o_ opc_ role_ x_) c = State.lswEn s c := by
  first | (simp [State.lswEn]; done) | (obtain ⟨m_, n_, e_⟩ := start_eq s o_ opc_ role_ x_; rw [e_]; rfl) | (unfold State.lswEn; simp; done) | (unfold State.lswEn; (repeat' split) <;> simp_all; done)
@[simp] theorem lswOn_start (s : State) (c : Nat) (o_ : Org) (opc_ role_ : Nat) (x_ : Option Half) : State.lswOn (s.start o_ opc_ role_ x_) c = State.lswOn s c := by
  first | (simp [State.lswOn]; done) | (obtain ⟨m_, n_, e_⟩ := start_eq s o_ opc_ role_ x_; rw [e_]; rfl) | (unfold State.lswOn; simp; done) | (unfold State.lswOn; (repeat' split) <;> simp_all; done)
@[simp] theorem lswUv_start (s : State) (g : Nat) (o_ : Org) (opc_ role_ : Nat) (x_ : Option Half) : State.lswUv (s.start o_ opc_ role_ x_) g = State.lswUv s g := by
  first | (simp [State.lswUv]; done) | (obtain ⟨m_, n_, e_⟩ := start_eq s o_ opc_ role_ x_; rw [e_]; rfl) | (unfold State.lswUv; simp; done) | (unfold State.lswUv; (repeat' split) <;> simp_all; done)
@[simp] theorem senseChan_start (s : State) (g : Nat) (o_ : Org) (opc_ role_ : Nat) (x_ : Option Half) : State.senseChan (s.start o_ opc_ role_ x_) g = State.senseChan s g := by
  first | (simp [State.senseChan]; done) | (obtain ⟨m_, n_, e_⟩ := start_eq s o_ opc_ role_ x_; rw [e_]; rfl) | (unfold State.senseChan; simp; done) | (unfold State.senseChan; (repeat' split) <;> simp_all; done)
@[simp] theorem senseFault_start (s : State) (g : Nat) (o_ : Org) (opc_ role_ : Nat) (x_ : Option Half) : State.senseFault (s.start o_ opc_ role_ x_) g = State.senseFault s g := by
  first | (simp [State.senseFault]; done) | (obtain ⟨m_, n_, e_⟩ := start_eq s o_ opc_ role_ x_; rw [e_]; rfl) | (unfold State.senseFault; simp; done) | (unfold State.senseFault; (repeat' split) <;> simp_all; done)
@[simp] theorem senseMv_start (s : State) (g : Nat) (o_ : Org) (opc_ role_ : Nat) (x_ : Option Half) : State.senseMv (s.start o_ opc_ role_ x_) g = State.senseMv s g := by
  first | (simp [State.senseMv]; done) | (obtain ⟨m_, n_, e_⟩ := start_eq s o_ opc_ role_ x_; rw [e_]; rfl) | (unfold State.senseMv; simp; done) | (unfold State.senseMv; (repeat' split) <;> simp_all; done)
@[simp] theorem ringReg_start (s : State) (h : Half) (n : Nat) (off : Nat) (o_ : Org) (opc_ role_ : Nat) (x_ : Option Half) : State.ringReg (s.start o_ opc_ role_ x_) h n off = State.ringReg s h n off := by
  first | (simp [State.ringReg]; done) | (obtain ⟨m_, n_, e_⟩ := start_eq s o_ opc_ role_ x_; rw [e_]; cases h <;> rfl) | (unfold State.ringReg; simp; done) | (unfold State.ringReg; (repeat' split) <;> simp_all; done)
@[simp] theorem ringEn_start (s : State) (h : Half) (n : Nat) (o_ : Org) (opc_ role_ : Nat) (x_ : Option Half) : State.ringEn (s.start o_ opc_ role_ x_) h n = State.ringEn s h n := by
  first | (simp [State.ringEn]; done) | (obtain ⟨m_, n_, e_⟩ := start_eq s o_ opc_ role_ x_; rw [e_]; cases h <;> rfl) | (unfold State.ringEn; simp; done) | (unfold State.ringEn; (repeat' split) <;> simp_all; done)
@[simp] theorem ringEth_start (s : State) (h : Half) (n : Nat) (o_ : Org) (opc_ role_ : Nat) (x_ : Option Half) : State.ringEth (s.start o_ opc_ role_ x_) h n = State.ringEth s h n := by
  first | (simp [State.ringEth]; done) | (obtain ⟨m_, n_, e_⟩ := start_eq s o_ opc_ role_ x_; rw [e_]; cases h <;> rfl) | (unfold State.ringEth; simp; done) | (unfold State.ringEth; (repeat' split) <;> simp_all; done)
@[simp] theorem ringSize_start (s : State) (h : Half) (n : Nat) (o_ : Org) (opc_ role_ : Nat) (x_ : Option Half) : State.ringSize (s.start o_ opc_ role_ x_) h n = State.ringSize s h n := by
  first | (simp [State.ringSize]; done) | (obtain ⟨m_, n_, e_⟩ := start_eq s o_ opc_ role_ x_; rw [e_]; cases h <;> rfl) | (unfold State.ringSize; simp; done) | (unfold State.ringSize; (repeat' split) <;> simp_all; done)
@[simp] theorem ringFault_start (s : State) (h : Half) (n : Nat) (o_ : Org) (opc_ role_ : Nat) (x_ : Option Half) : State.ringFault (s.start o_ opc_ role_ x_) h n = State.ringFault s h n := by
  first | (simp [State.ringFault]; done) | (obtain ⟨m_, n_, e_⟩ := start_eq s o_ opc_ role_ x_; rw [e_]; cases h <;> rfl) | (unfold State.ringFault; simp; done) | (unfold State.ringFault; (repeat' split) <;> simp_all; done)
@[simp] theorem ringFree_start (s : State) (h : Half) (n : Nat) (o_ : Org) (opc_ role_ : Nat) (x_ : Option Half) : State.ringFree (s.start o_ opc_ role_ x_) h n = State.ringFree s h n := by
  first | (simp [State.ringFree]; done) | (obtain ⟨m_, n_, e_⟩ := start_eq s o_ opc_ role_ x_; rw [e_]; cases h <;> rfl) | (unfold State.ringFree; simp; done) | (unfold State.ringFree; (repeat' split) <;> simp_all; done)
@[simp] theorem evPeer_start (s : State) (h : Half) (n : Nat) (o_ : Org) (opc_ role_ : Nat) (x_ : Option Half) : State.evPeer (s.start o_ opc_ role_ x_) h n = State.evPeer s h n := by
  first | (simp [State.evPeer]; done) | (obtain ⟨m_, n_, e_⟩ := start_eq s o_ opc_ role_ x_; rw [e_]; cases h <;> rfl) | (unfold State.evPeer; simp; done) | (unfold State.evPeer; (repeat' split) <;> simp_all; done)
@[simp] theorem hasRoom_start (s : State) (h : Half) (n : Nat) (o_ : Org) (opc_ role_ : Nat) (x_ : Option Half) : State.hasRoom (s.start o_ opc_ role_ x_) h n = State.hasRoom s h n := by
  first | (simp [State.hasRoom]; done) | (obtain ⟨m_, n_, e_⟩ := start_eq s o_ opc_ role_ x_; rw [e_]; cases h <;> rfl) | (unfold State.hasRoom; simp; done) | (unfold State.hasRoom; (repeat' split) <;> simp_all; done)
@[simp] theorem evRole_start (s : State) (h : Half) (n : Nat) (o_ : Org) (opc_ role_ : Nat) (x_ : Option Half) : State.evRole (s.start o_ opc_ role_ x_) h n = State.evRole s h n := by
  first | (simp [State.evRole]; done) | (obtain ⟨m_, n_, e_⟩ := start_eq s o_ opc_ role_ x_; rw [e_]; cases h <;> rfl) | (unfold State.evRole; simp; done) | (unfold State.evRole; (repeat' split) <;> simp_all; done)
@[simp] theorem evWanted_start (s : State) (h : Half) (r : EventRec) (n : Nat) (o_ : Org) (opc_ role_ : Nat) (x_ : Option Half) : State.evWanted (s.start o_ opc_ role_ x_) h r n = State.evWanted s h r n := by
  first | (simp [State.evWanted]; done) | (obtain ⟨m_, n_, e_⟩ := start_eq s o_ opc_ role_ x_; rw [e_]; cases h <;> rfl) | (unfold State.evWanted; simp; done) | (unfold State.evWanted; (repeat' split) <;> simp_all; done)
@[simp] theorem waiting_start (s : State) (h : Half) (n : Nat) (o_ : Org) (opc_ role_ : Nat) (x_ : Option Half) : State.waiting (s.start o_ opc_ role_ x_) h n = State.waiting s h n := by
  first | (simp [State.waiting]; done) | (obtain ⟨m_, n_, e_⟩ := start_eq s o_ opc_ role_ x_; rw [e_]; cases h <;> rfl) | (unfold State.waiting; simp; done) | (unfold State.waiting; (repeat' split) <;> simp_all; done)
@[simp] theorem skMat_start (s : State) (sk : Nat) (o_ : Org) (opc_ role_ : Nat) (x_ : Option Half) : State.skMat (s.start o_ opc_ role_ x_) sk = State.skMat s sk := by
  first | (simp [State.skMat]; done) | (obtain ⟨m_, n_, e_⟩ := start_eq s o_ opc_ role_ x_; rw [e_]; rfl) | (unfold State.skMat; simp; done) | (unfold State.skMat; (repeat' split) <;> simp_all; done)
@[simp] theorem cmdTagGood_start (s : State) (h : Half) (n : Nat) (d : Desc) (o_ : Org) (opc_ role_ : Nat) (x_ : Option Half) : State.cmdTagGood (s.start o_ opc_ role_ x_) h n d = State.cmdTagGood s h n d := by
  first | (simp [State.cmdTagGood]; done) | (obtain ⟨m_, n_, e_⟩ := start_eq s o_ opc_ role_ x_; rw [e_]; cases h <;> rfl) | (unfold State.cmdTagGood; simp; done) | (unfold State.cmdTagGood; (repeat' split) <;> simp_all; done)
@[simp] theorem fetched_start (s : State) (h : Half) (n : Nat) (d : Desc) (o_ : Org) (opc_ role_ : Nat) (x_ : Option Half) : State.fetched (s.start o_ opc_ role_ x_) h n d = State.fetched s h n d := by
  first | (simp [State.fetched]; done) | (obtain ⟨m_, n_, e_⟩ := start_eq s o_ opc_ role_ x_; rw [e_]; cases h <;> rfl) | (unfold State.fetched; simp; done) | (unfold State.fetched; (repeat' split) <;> simp_all; done)
@[simp] theorem complReady_start (s : State) (h : Half) (c : Completion) (o_ : Org) (opc_ role_ : Nat) (x_ : Option Half) : State.complReady (s.start o_ opc_ role_ x_) h c = State.complReady s h c := by
  first | (simp [State.complReady]; done) | (obtain ⟨m_, n_, e_⟩ := start_eq s o_ opc_ role_ x_; rw [e_]; cases h <;> rfl) | (unfold State.complReady; simp; done) | (unfold State.complReady; (repeat' split) <;> simp_all; done)
@[simp] theorem sign_start (s : State) (c : Completion) (o_ : Org) (opc_ role_ : Nat) (x_ : Option Half) : State.sign (s.start o_ opc_ role_ x_) c = State.sign s c := by
  first | (simp [State.sign]; done) | (obtain ⟨m_, n_, e_⟩ := start_eq s o_ opc_ role_ x_; rw [e_]; rfl) | (unfold State.sign; simp; done) | (unfold State.sign; (repeat' split) <;> simp_all; done)
@[simp] theorem enetServed_start (s : State) (h : Half) (n : Nat) (o_ : Org) (opc_ role_ : Nat) (x_ : Option Half) : State.enetServed (s.start o_ opc_ role_ x_) h n = State.enetServed s h n := by
  first | (simp [State.enetServed]; done) | (obtain ⟨m_, n_, e_⟩ := start_eq s o_ opc_ role_ x_; rw [e_]; cases h <;> rfl) | (unfold State.enetServed; simp; done) | (unfold State.enetServed; (repeat' split) <;> simp_all; done)
@[simp] theorem roleKey_start (s : State) (h : Half) (role : Nat) (o_ : Org) (opc_ role_ : Nat) (x_ : Option Half) : State.roleKey (s.start o_ opc_ role_ x_) h role = State.roleKey s h role := by
  first | (simp [State.roleKey]; done) | (obtain ⟨m_, n_, e_⟩ := start_eq s o_ opc_ role_ x_; rw [e_]; cases h <;> rfl) | (unfold State.roleKey; simp; done) | (unfold State.roleKey; (repeat' split) <;> simp_all; done)
@[simp] theorem roleLock_start (s : State) (h : Half) (role : Nat) (o_ : Org) (opc_ role_ : Nat) (x_ : Option Half) : State.roleLock (s.start o_ opc_ role_ x_) h role = State.roleLock s h role := by
  first | (simp [State.roleLock]; done) | (obtain ⟨m_, n_, e_⟩ := start_eq s o_ opc_ role_ x_; rw [e_]; cases h <;> rfl) | (unfold State.roleLock; simp; done) | (unfold State.roleLock; (repeat' split) <;> simp_all; done)
@[simp] theorem roleShut_start (s : State) (h : Half) (role : Nat) (o_ : Org) (opc_ role_ : Nat) (x_ : Option Half) : State.roleShut (s.start o_ opc_ role_ x_) h role = State.roleShut s h role := by
  first | (simp [State.roleShut]; done) | (obtain ⟨m_, n_, e_⟩ := start_eq s o_ opc_ role_ x_; rw [e_]; cases h <;> rfl) | (unfold State.roleShut; simp; done) | (unfold State.roleShut; (repeat' split) <;> simp_all; done)
@[simp] theorem credential_start (s : State) (h : Half) (role : Nat) (o_ : Org) (opc_ role_ : Nat) (x_ : Option Half) : State.credential (s.start o_ opc_ role_ x_) h role = State.credential s h role := by
  first | (simp [State.credential]; done) | (obtain ⟨m_, n_, e_⟩ := start_eq s o_ opc_ role_ x_; rw [e_]; cases h <;> rfl) | (unfold State.credential; simp; done) | (unfold State.credential; (repeat' split) <;> simp_all; done)
@[simp] theorem mp_start (s : State) (n : Nat) (o_ : Org) (opc_ role_ : Nat) (x_ : Option Half) : State.mp (s.start o_ opc_ role_ x_) n = State.mp s n := by
  first | (simp [State.mp]; done) | (obtain ⟨m_, n_, e_⟩ := start_eq s o_ opc_ role_ x_; rw [e_]; rfl) | (unfold State.mp; simp; done) | (unfold State.mp; (repeat' split) <;> simp_all; done)
@[simp] theorem mlink_start (s : State) (tx : Nat) (rx : Nat) (o_ : Org) (opc_ role_ : Nat) (x_ : Option Half) : State.mlink (s.start o_ opc_ role_ x_) tx rx = State.mlink s tx rx := by
  first | (simp [State.mlink]; done) | (obtain ⟨m_, n_, e_⟩ := start_eq s o_ opc_ role_ x_; rw [e_]; rfl) | (unfold State.mlink; simp; done) | (unfold State.mlink; (repeat' split) <;> simp_all; done)
@[simp] theorem meshEn_start (s : State) (n : Nat) (o_ : Org) (opc_ role_ : Nat) (x_ : Option Half) : State.meshEn (s.start o_ opc_ role_ x_) n = State.meshEn s n := by
  first | (simp [State.meshEn]; done) | (obtain ⟨m_, n_, e_⟩ := start_eq s o_ opc_ role_ x_; rw [e_]; rfl) | (unfold State.meshEn; simp; done) | (unfold State.meshEn; (repeat' split) <;> simp_all; done)
@[simp] theorem meshTx_start (s : State) (n : Nat) (o_ : Org) (opc_ role_ : Nat) (x_ : Option Half) : State.meshTx (s.start o_ opc_ role_ x_) n = State.meshTx s n := by
  first | (simp [State.meshTx]; done) | (obtain ⟨m_, n_, e_⟩ := start_eq s o_ opc_ role_ x_; rw [e_]; rfl) | (unfold State.meshTx; simp; done) | (unfold State.meshTx; (repeat' split) <;> simp_all; done)
@[simp] theorem nodeEn_start (s : State) (n : Nat) (m : Nat) (o_ : Org) (opc_ role_ : Nat) (x_ : Option Half) : State.nodeEn (s.start o_ opc_ role_ x_) n m = State.nodeEn s n m := by
  first | (simp [State.nodeEn]; done) | (obtain ⟨m_, n_, e_⟩ := start_eq s o_ opc_ role_ x_; rw [e_]; rfl) | (unfold State.nodeEn; simp; done) | (unfold State.nodeEn; (repeat' split) <;> simp_all; done)
@[simp] theorem route_start (s : State) (m : Nat) (o_ : Org) (opc_ role_ : Nat) (x_ : Option Half) : State.route (s.start o_ opc_ role_ x_) m = State.route s m := by
  first | (simp [State.route]; done) | (obtain ⟨m_, n_, e_⟩ := start_eq s o_ opc_ role_ x_; rw [e_]; rfl) | (unfold State.route; simp; done) | (unfold State.route; (repeat' split) <;> simp_all; done)
@[simp] theorem outMap_start (s : State) (next : Nat) (o_ : Org) (opc_ role_ : Nat) (x_ : Option Half) : State.outMap (s.start o_ opc_ role_ x_) next = State.outMap s next := by
  first | (simp [State.outMap]; done) | (obtain ⟨m_, n_, e_⟩ := start_eq s o_ opc_ role_ x_; rw [e_]; rfl) | (unfold State.outMap; simp; done) | (unfold State.outMap; (repeat' split) <;> simp_all; done)
@[simp] theorem meshIdle_start (s : State) (n : Nat) (o_ : Org) (opc_ role_ : Nat) (x_ : Option Half) : State.meshIdle (s.start o_ opc_ role_ x_) n = State.meshIdle s n := by
  first | (simp [State.meshIdle]; done) | (obtain ⟨m_, n_, e_⟩ := start_eq s o_ opc_ role_ x_; rw [e_]; rfl) | (unfold State.meshIdle; simp; done) | (unfold State.meshIdle; (repeat' split) <;> simp_all; done)
@[simp] theorem linkCost_start (s : State) (n : Nat) (tx : Nat) (rx : Nat) (o_ : Org) (opc_ role_ : Nat) (x_ : Option Half) : State.linkCost (s.start o_ opc_ role_ x_) n tx rx = State.linkCost s n tx rx := by
  first | (simp [State.linkCost]; done) | (obtain ⟨m_, n_, e_⟩ := start_eq s o_ opc_ role_ x_; rw [e_]; rfl) | (unfold State.linkCost; simp; done) | (unfold State.linkCost; (repeat' split) <;> simp_all; done)
@[simp] theorem hopCost_start (s : State) (n : Nat) (a : Nat) (b : Nat) (o_ : Org) (opc_ role_ : Nat) (x_ : Option Half) : State.hopCost (s.start o_ opc_ role_ x_) n a b = State.hopCost s n a b := by
  first | (simp [State.hopCost]; done) | (obtain ⟨m_, n_, e_⟩ := start_eq s o_ opc_ role_ x_; rw [e_]; rfl) | (unfold State.hopCost; simp; done) | (unfold State.hopCost; (repeat' split) <;> simp_all; done)
@[simp] theorem moreHops_start (s : State) (n : Nat) (nodes : List Nat) (level : Tab (Nat × List Nat)) (o_ : Org) (opc_ role_ : Nat) (x_ : Option Half) : State.moreHops (s.start o_ opc_ role_ x_) n nodes level = State.moreHops s n nodes level := by
  first | (simp [State.moreHops]; done) | (obtain ⟨m_, n_, e_⟩ := start_eq s o_ opc_ role_ x_; rw [e_]; rfl) | (unfold State.moreHops; simp; done) | (unfold State.moreHops; (repeat' split) <;> simp_all; done)
@[simp] theorem bestRoute_start (s : State) (n : Nat) (m : Nat) (o_ : Org) (opc_ role_ : Nat) (x_ : Option Half) : State.bestRoute (s.start o_ opc_ role_ x_) n m = State.bestRoute s n m := by
  first | (simp [State.bestRoute]; done) | (obtain ⟨m_, n_, e_⟩ := start_eq s o_ opc_ role_ x_; rw [e_]; rfl) | (unfold State.bestRoute; simp; done) | (unfold State.bestRoute; (repeat' split) <;> simp_all; done)
@[simp] theorem meshConnOk_start (s : State) (sh : Nat → Word) (n : Nat) (o_ : Org) (opc_ role_ : Nat) (x_ : Option Half) : State.meshConnOk (s.start o_ opc_ role_ x_) sh n = State.meshConnOk s sh n := by
  first | (simp [State.meshConnOk]; done) | (obtain ⟨m_, n_, e_⟩ := start_eq s o_ opc_ role_ x_; rw [e_]; rfl) | (unfold State.meshConnOk; simp; done) | (unfold State.meshConnOk; (repeat' split) <;> simp_all; done)
@[simp] theorem pointCheck_start (s : State) (x : Half) (role : Nat) (id : Nat) (write : Bool) (o_ : Org) (opc_ role_ : Nat) (x_ : Option Half) : State.pointCheck (s.start o_ opc_ role_ x_) x role id write = State.pointCheck s x role id write := by
  first | (simp [State.pointCheck]; done) | (obtain ⟨m_, n_, e_⟩ := start_eq s o_ opc_ role_ x_; rw [e_]; cases x <;> rfl) | (unfold State.pointCheck; simp; done) | (unfold State.pointCheck; (repeat' split) <;> simp_all; done)
@[simp] theorem restoringAt_start (s : State) (x : Half) (id : Nat) (o_ : Org) (opc_ role_ : Nat) (x_ : Option Half) : State.restoringAt (s.start o_ opc_ role_ x_) x id = State.restoringAt s x id := by
  first | (simp [State.restoringAt]; done) | (obtain ⟨m_, n_, e_⟩ := start_eq s o_ opc_ role_ x_; rw [e_]; cases x <;> rfl) | (unfold State.restoringAt; simp; done) | (unfold State.restoringAt; (repeat' split) <;> simp_all; done)
@[simp] theorem sigGood_start (s : State) (b : List Nat) (ecOk : Bool) (pqOk : Bool) (o_ : Org) (opc_ role_ : Nat) (x_ : Option Half) : State.sigGood (s.start o_ opc_ role_ x_) b ecOk pqOk = State.sigGood s b ecOk pqOk := by
  first | (simp [State.sigGood]; done) | (obtain ⟨m_, n_, e_⟩ := start_eq s o_ opc_ role_ x_; rw [e_]; rfl) | (unfold State.sigGood; simp; done) | (unfold State.sigGood; (repeat' split) <;> simp_all; done)
@[simp] theorem withImage_start (s : State) (ks : List Nat) (i : ImgInfo) (k : Nat) (o_ : Org) (opc_ role_ : Nat) (x_ : Option Half) : State.withImage (s.start o_ opc_ role_ x_) ks i k = State.withImage s ks i k := by
  first | (simp [State.withImage]; done) | (obtain ⟨m_, n_, e_⟩ := start_eq s o_ opc_ role_ x_; rw [e_]; rfl) | (unfold State.withImage; simp; done) | (unfold State.withImage; (repeat' split) <;> simp_all; done)
@[simp] theorem compatWith_start (s : State) (t : Nat) (i : ImgInfo) (o_ : Org) (opc_ role_ : Nat) (x_ : Option Half) : State.compatWith (s.start o_ opc_ role_ x_) t i = State.compatWith s t i := by
  first | (simp [State.compatWith]; done) | (obtain ⟨m_, n_, e_⟩ := start_eq s o_ opc_ role_ x_; rw [e_]; rfl) | (unfold State.compatWith; simp; done) | (unfold State.compatWith; (repeat' split) <;> simp_all; done)
@[simp] theorem roomFor_start (s : State) (i : ImgInfo) (o_ : Org) (opc_ role_ : Nat) (x_ : Option Half) : State.roomFor (s.start o_ opc_ role_ x_) i = State.roomFor s i := by
  first | (simp [State.roomFor]; done) | (obtain ⟨m_, n_, e_⟩ := start_eq s o_ opc_ role_ x_; rw [e_]; rfl) | (unfold State.roomFor; simp; done) | (unfold State.roomFor; (repeat' split) <;> simp_all; done)
@[simp] theorem svnFloor_start (s : State) (t : Nat) (o_ : Org) (opc_ role_ : Nat) (x_ : Option Half) : State.svnFloor (s.start o_ opc_ role_ x_) t = State.svnFloor s t := by
  first | (simp [State.svnFloor]; done) | (obtain ⟨m_, n_, e_⟩ := start_eq s o_ opc_ role_ x_; rw [e_]; rfl) | (unfold State.svnFloor; simp; done) | (unfold State.svnFloor; (repeat' split) <;> simp_all; done)
@[simp] theorem checkImage_start (s : State) (x : Half) (role : Nat) (b : List Nat) (ecOk : Bool) (pqOk : Bool) (o_ : Org) (opc_ role_ : Nat) (x_ : Option Half) : State.checkImage (s.start o_ opc_ role_ x_) x role b ecOk pqOk = State.checkImage s x role b ecOk pqOk := by
  first | (simp [State.checkImage]; done) | (obtain ⟨m_, n_, e_⟩ := start_eq s o_ opc_ role_ x_; rw [e_]; cases x <;> rfl) | (unfold State.checkImage; simp; done) | (unfold State.checkImage; (repeat' split) <;> simp_all; done)
@[simp] theorem receiverHeld_start (s : State) (t : Nat) (mask : Nat) (x : Half) (o_ : Org) (opc_ role_ : Nat) (x_ : Option Half) : receiverHeld (s.start o_ opc_ role_ x_) t mask x = receiverHeld s t mask x := by
  first | (simp [receiverHeld]; done) | (obtain ⟨m_, n_, e_⟩ := start_eq s o_ opc_ role_ x_; rw [e_]; cases x <;> rfl) | (unfold receiverHeld; simp; done) | (unfold receiverHeld; (repeat' split) <;> simp_all; done)
@[simp] theorem txOf_start (s : State) (o : Org) (o_ : Org) (opc_ role_ : Nat) (x_ : Option Half) : State.txOf (s.start o_ opc_ role_ x_) o = State.txOf s o := by
  first | (simp [State.txOf]; done) | (obtain ⟨m_, n_, e_⟩ := start_eq s o_ opc_ role_ x_; rw [e_]; rfl) | (unfold State.txOf; simp; done) | (unfold State.txOf; (repeat' split) <;> simp_all; done)
@[simp] theorem changing_start (s : State) (x : Half) (o_ : Org) (opc_ role_ : Nat) (x_ : Option Half) : State.changing (s.start o_ opc_ role_ x_) x = State.changing s x := by
  first | (simp [State.changing]; done) | (obtain ⟨m_, n_, e_⟩ := start_eq s o_ opc_ role_ x_; rw [e_]; cases x <;> rfl) | (unfold State.changing; simp; done) | (unfold State.changing; (repeat' split) <;> simp_all; done)
@[simp] theorem stagedImg_start (s : State) (k : Nat) (o_ : Org) (opc_ role_ : Nat) (x_ : Option Half) : State.stagedImg (s.start o_ opc_ role_ x_) k = State.stagedImg s k := by
  first | (simp [State.stagedImg]; done) | (obtain ⟨m_, n_, e_⟩ := start_eq s o_ opc_ role_ x_; rw [e_]; rfl) | (unfold State.stagedImg; simp; done) | (unfold State.stagedImg; (repeat' split) <;> simp_all; done)
@[simp] theorem recov_start (s : State) (o_ : Org) (opc_ role_ : Nat) (x_ : Option Half) : State.recov (s.start o_ opc_ role_ x_) = State.recov s := by
  first | (simp [State.recov]; done) | (obtain ⟨m_, n_, e_⟩ := start_eq s o_ opc_ role_ x_; rw [e_]; rfl) | (unfold State.recov; simp; done) | (unfold State.recov; (repeat' split) <;> simp_all; done)
@[simp] theorem siteIdle_start (s : State) (o_ : Org) (opc_ role_ : Nat) (x_ : Option Half) : State.siteIdle (s.start o_ opc_ role_ x_) = State.siteIdle s := by
  first | (simp [State.siteIdle]; done) | (obtain ⟨m_, n_, e_⟩ := start_eq s o_ opc_ role_ x_; rw [e_]; rfl) | (unfold State.siteIdle; simp; done) | (unfold State.siteIdle; (repeat' split) <;> simp_all; done)
@[simp] theorem zonesQuiet_start (s : State) (o_ : Org) (opc_ role_ : Nat) (x_ : Option Half) : State.zonesQuiet (s.start o_ opc_ role_ x_) = State.zonesQuiet s := by
  first | (simp [State.zonesQuiet]; done) | (obtain ⟨m_, n_, e_⟩ := start_eq s o_ opc_ role_ x_; rw [e_]; rfl) | (unfold State.zonesQuiet; simp; done) | (unfold State.zonesQuiet; (repeat' split) <;> simp_all; done)
@[simp] theorem wakes_start (s : State) (src : WakeSrc) (o_ : Org) (opc_ role_ : Nat) (x_ : Option Half) : State.wakes (s.start o_ opc_ role_ x_) src = State.wakes s src := by
  first | (simp [State.wakes]; done) | (obtain ⟨m_, n_, e_⟩ := start_eq s o_ opc_ role_ x_; rw [e_]; rfl) | (unfold State.wakes; simp; done) | (unfold State.wakes; (repeat' split) <;> simp_all; done)
@[simp] theorem twnRules_start (s : State) (h : Half) (o_ : Org) (opc_ role_ : Nat) (x_ : Option Half) : twnRules (s.start o_ opc_ role_ x_) h = twnRules s h := by
  first | (simp [twnRules]; done) | (obtain ⟨m_, n_, e_⟩ := start_eq s o_ opc_ role_ x_; rw [e_]; cases h <;> rfl) | (unfold twnRules; simp; done) | (unfold twnRules; (repeat' split) <;> simp_all; done)
@[simp] theorem clnRules_start (s : State) (h : Half) (o_ : Org) (opc_ role_ : Nat) (x_ : Option Half) : clnRules (s.start o_ opc_ role_ x_) h = clnRules s h := by
  first | (simp [clnRules]; done) | (obtain ⟨m_, n_, e_⟩ := start_eq s o_ opc_ role_ x_; rw [e_]; cases h <;> rfl) | (unfold clnRules; simp; done) | (unfold clnRules; (repeat' split) <;> simp_all; done)
@[simp] theorem clnBlame_start (s : State) (h : Half) (v : AfterEdge) (o_ : Org) (opc_ role_ : Nat) (x_ : Option Half) : clnBlame (s.start o_ opc_ role_ x_) h v = clnBlame s h v := by
  first | (simp [clnBlame]; done) | (obtain ⟨m_, n_, e_⟩ := start_eq s o_ opc_ role_ x_; rw [e_]; cases h <;> rfl) | (unfold clnBlame; simp; done) | (unfold clnBlame; (repeat' split) <;> simp_all; done)
@[simp] theorem pstRules_start (s : State) (h : Half) (o_ : Org) (opc_ role_ : Nat) (x_ : Option Half) : pstRules (s.start o_ opc_ role_ x_) h = pstRules s h := by
  first | (simp [pstRules]; done) | (obtain ⟨m_, n_, e_⟩ := start_eq s o_ opc_ role_ x_; rw [e_]; cases h <;> rfl) | (unfold pstRules; simp; done) | (unfold pstRules; (repeat' split) <;> simp_all; done)
@[simp] theorem inChange_start (s : State) (h : Half) (n : Nat) (o_ : Org) (opc_ role_ : Nat) (x_ : Option Half) : inChange (s.start o_ opc_ role_ x_) h n = inChange s h n := by
  first | (simp [inChange]; done) | (obtain ⟨m_, n_, e_⟩ := start_eq s o_ opc_ role_ x_; rw [e_]; cases h <;> rfl) | (unfold inChange; simp; done) | (unfold inChange; (repeat' split) <;> simp_all; done)
@[simp] theorem ctrRules_start (s : State) (h : Half) (o_ : Org) (opc_ role_ : Nat) (x_ : Option Half) : ctrRules (s.start o_ opc_ role_ x_) h = ctrRules s h := by
  first | (simp [ctrRules]; done) | (obtain ⟨m_, n_, e_⟩ := start_eq s o_ opc_ role_ x_; rw [e_]; cases h <;> rfl) | (unfold ctrRules; simp; done) | (unfold ctrRules; (repeat' split) <;> simp_all; done)
@[simp] theorem cnpRules_start (s : State) (h : Half) (o_ : Org) (opc_ role_ : Nat) (x_ : Option Half) : cnpRules (s.start o_ opc_ role_ x_) h = cnpRules s h := by
  first | (simp [cnpRules]; done) | (obtain ⟨m_, n_, e_⟩ := start_eq s o_ opc_ role_ x_; rw [e_]; cases h <;> rfl) | (unfold cnpRules; simp; done) | (unfold cnpRules; (repeat' split) <;> simp_all; done)
@[simp] theorem sealedChanges_start (s : State) (v : AfterEdge) (o_ : Org) (opc_ role_ : Nat) (x_ : Option Half) : sealedChanges (s.start o_ opc_ role_ x_) v = sealedChanges s v := by
  first | (simp [sealedChanges]; done) | (obtain ⟨m_, n_, e_⟩ := start_eq s o_ opc_ role_ x_; rw [e_]; rfl) | (unfold sealedChanges; simp; done) | (unfold sealedChanges; (repeat' split) <;> simp_all; done)
@[simp] theorem sealedRule_start (s : State) (o_ : Org) (opc_ role_ : Nat) (x_ : Option Half) : sealedRule (s.start o_ opc_ role_ x_) = sealedRule s := by
  first | (simp [sealedRule]; done) | (obtain ⟨m_, n_, e_⟩ := start_eq s o_ opc_ role_ x_; rw [e_]; rfl) | (unfold sealedRule; simp; done) | (unfold sealedRule; (repeat' split) <;> simp_all; done)
@[simp] theorem lktRules_start (s : State) (o_ : Org) (opc_ role_ : Nat) (x_ : Option Half) : lktRules (s.start o_ opc_ role_ x_) = lktRules s := by
  first | (simp [lktRules]; done) | (obtain ⟨m_, n_, e_⟩ := start_eq s o_ opc_ role_ x_; rw [e_]; rfl) | (unfold lktRules; simp; done) | (unfold lktRules; (repeat' split) <;> simp_all; done)
@[simp] theorem safRules_start (s : State) (o_ : Org) (opc_ role_ : Nat) (x_ : Option Half) : safRules (s.start o_ opc_ role_ x_) = safRules s := by
  first | (simp [safRules]; done) | (obtain ⟨m_, n_, e_⟩ := start_eq s o_ opc_ role_ x_; rw [e_]; rfl) | (unfold safRules; simp; done) | (unfold safRules; (repeat' split) <;> simp_all; done)
@[simp] theorem updRules_start (s : State) (o_ : Org) (opc_ role_ : Nat) (x_ : Option Half) : updRules (s.start o_ opc_ role_ x_) = updRules s := by
  first | (simp [updRules]; done) | (obtain ⟨m_, n_, e_⟩ := start_eq s o_ opc_ role_ x_; rw [e_]; rfl) | (unfold updRules; simp; done) | (unfold updRules; (repeat' split) <;> simp_all; done)
@[simp] theorem mergeWord_start (s : State) (b : Blk) (h : Half) (off : Nat) (w : Word) (o_ : Org) (opc_ role_ : Nat) (x_ : Option Half) : mergeWord (s.start o_ opc_ role_ x_) b h off w = mergeWord s b h off w := by
  first | (simp [mergeWord]; done) | (obtain ⟨m_, n_, e_⟩ := start_eq s o_ opc_ role_ x_; rw [e_]; cases h <;> rfl) | (unfold mergeWord; simp; done) | (unfold mergeWord; (repeat' split) <;> simp_all; done)
@[simp] theorem afterEdge_start (s : State) (h : Half) (bs : List Blk) (o_ : Org) (opc_ role_ : Nat) (x_ : Option Half) : afterEdge (s.start o_ opc_ role_ x_) h bs = afterEdge s h bs := by
  first | (simp [afterEdge]; done) | (obtain ⟨m_, n_, e_⟩ := start_eq s o_ opc_ role_ x_; rw [e_]; cases h <;> rfl) | (unfold afterEdge; simp; done) | (unfold afterEdge; (repeat' split) <;> simp_all; done)
@[simp] theorem judgeBlk_start (s : State) (h : Half) (bs : List Blk) (failed : List (CommitRule × List (Blk × Nat))) (b : Blk) (o_ : Org) (opc_ role_ : Nat) (x_ : Option Half) : judgeBlk (s.start o_ opc_ role_ x_) h bs failed b = judgeBlk s h bs failed b := by
  first | (simp [judgeBlk]; done) | (obtain ⟨m_, n_, e_⟩ := start_eq s o_ opc_ role_ x_; rw [e_]; cases h <;> rfl) | (unfold judgeBlk; simp; done) | (unfold judgeBlk; (repeat' split) <;> simp_all; done)
@[simp] theorem judgeRound_start (s : State) (h : Half) (rules : List CommitRule) (bs : List Blk) (o_ : Org) (opc_ role_ : Nat) (x_ : Option Half) : judgeRound (s.start o_ opc_ role_ x_) h rules bs = judgeRound s h rules bs := by
  first | (simp [judgeRound]; done) | (obtain ⟨m_, n_, e_⟩ := start_eq s o_ opc_ role_ x_; rw [e_]; cases h <;> rfl) | (unfold judgeRound; simp; done) | (unfold judgeRound; (repeat' split) <;> simp_all; done)
@[simp] theorem portsWritten_start (s : State) (h : Half) (b : Blk) (snap : List (Nat × Word)) (o_ : Org) (opc_ role_ : Nat) (x_ : Option Half) : portsWritten (s.start o_ opc_ role_ x_) h b snap = portsWritten s h b snap := by
  first | (simp [portsWritten]; done) | (obtain ⟨m_, n_, e_⟩ := start_eq s o_ opc_ role_ x_; rw [e_]; cases h <;> rfl) | (unfold portsWritten; simp; done) | (unfold portsWritten; (repeat' split) <;> simp_all; done)
@[simp] theorem otherBack_start (s : State) (h : Half) (p : Nat) (t : Nat) (o_ : Org) (opc_ role_ : Nat) (x_ : Option Half) : otherBack (s.start o_ opc_ role_ x_) h p t = otherBack s h p t := by
  first | (simp [otherBack]; done) | (obtain ⟨m_, n_, e_⟩ := start_eq s o_ opc_ role_ x_; rw [e_]; cases h <;> rfl) | (unfold otherBack; simp; done) | (unfold otherBack; (repeat' split) <;> simp_all; done)
@[simp] theorem laneChange_start (s : State) (h : Half) (old : OldWords) (l : Nat) (o_ : Org) (opc_ role_ : Nat) (x_ : Option Half) : laneChange (s.start o_ opc_ role_ x_) h old l = laneChange s h old l := by
  first | (simp [laneChange]; done) | (obtain ⟨m_, n_, e_⟩ := start_eq s o_ opc_ role_ x_; rw [e_]; cases h <;> rfl) | (unfold laneChange; simp; done) | (unfold laneChange; (repeat' split) <;> simp_all; done)
@[simp] theorem laneSlots_start (s : State) (h : Half) (old : OldWords) (l : Nat) (o_ : Org) (opc_ role_ : Nat) (x_ : Option Half) : laneSlots (s.start o_ opc_ role_ x_) h old l = laneSlots s h old l := by
  first | (simp [laneSlots]; done) | (obtain ⟨m_, n_, e_⟩ := start_eq s o_ opc_ role_ x_; rw [e_]; cases h <;> rfl) | (unfold laneSlots; simp; done) | (unfold laneSlots; (repeat' split) <;> simp_all; done)
@[simp] theorem seqWord_start (s : State) (h : Half) (c : LoopCmd) (o_ : Org) (opc_ role_ : Nat) (x_ : Option Half) : seqWord (s.start o_ opc_ role_ x_) h c = seqWord s h c := by
  first | (simp [seqWord]; done) | (obtain ⟨m_, n_, e_⟩ := start_eq s o_ opc_ role_ x_; rw [e_]; cases h <;> rfl) | (unfold seqWord; simp; done) | (unfold seqWord; (repeat' split) <;> simp_all; done)
@[simp] theorem sealedSrc_start (s : State) (b : Blk) (off : Nat) (o_ : Org) (opc_ role_ : Nat) (x_ : Option Half) : sealedSrc (s.start o_ opc_ role_ x_) b off = sealedSrc s b off := by
  first | (simp [sealedSrc]; done) | (obtain ⟨m_, n_, e_⟩ := start_eq s o_ opc_ role_ x_; rw [e_]; rfl) | (unfold sealedSrc; simp; done) | (unfold sealedSrc; (repeat' split) <;> simp_all; done)
@[simp] theorem blksDue_start (s : State) (h : Half) (o_ : Org) (opc_ role_ : Nat) (x_ : Option Half) : blksDue (s.start o_ opc_ role_ x_) h = blksDue s h := by
  first | (simp [blksDue]; done) | (obtain ⟨m_, n_, e_⟩ := start_eq s o_ opc_ role_ x_; rw [e_]; cases h <;> rfl) | (unfold blksDue; simp; done) | (unfold blksDue; (repeat' split) <;> simp_all; done)
@[simp] theorem commitWord_start (s : State) (b : Blk) (h : Half) (o_ : Org) (opc_ role_ : Nat) (x_ : Option Half) : State.commitWord (s.start o_ opc_ role_ x_) b h = State.commitWord s b h := by
  first | (simp [State.commitWord]; done) | (obtain ⟨m_, n_, e_⟩ := start_eq s o_ opc_ role_ x_; rw [e_]; cases h <;> rfl) | (unfold State.commitWord; simp; done) | (unfold State.commitWord; (repeat' split) <;> simp_all; done)
@[simp] theorem commitTick_start (s : State) (b : Blk) (h : Half) (o_ : Org) (opc_ role_ : Nat) (x_ : Option Half) : State.commitTick (s.start o_ opc_ role_ x_) b h = State.commitTick s b h := by
  first | (simp [State.commitTick]; done) | (obtain ⟨m_, n_, e_⟩ := start_eq s o_ opc_ role_ x_; rw [e_]; cases h <;> rfl) | (unfold State.commitTick; simp; done) | (unfold State.commitTick; (repeat' split) <;> simp_all; done)
@[simp] theorem tckView_start (s : State) (h : Half) (off : Nat) (o_ : Org) (opc_ role_ : Nat) (x_ : Option Half) : State.tckView (s.start o_ opc_ role_ x_) h off = State.tckView s h off := by
  first | (simp [State.tckView]; done) | (obtain ⟨m_, n_, e_⟩ := start_eq s o_ opc_ role_ x_; rw [e_]; cases h <;> rfl) | (unfold State.tckView; simp; done) | (unfold State.tckView; (repeat' split) <;> simp_all; done)
@[simp] theorem nlkView_start (s : State) (h : Half) (off : Nat) (o_ : Org) (opc_ role_ : Nat) (x_ : Option Half) : State.nlkView (s.start o_ opc_ role_ x_) h off = State.nlkView s h off := by
  first | (simp [State.nlkView]; done) | (obtain ⟨m_, n_, e_⟩ := start_eq s o_ opc_ role_ x_; rw [e_]; cases h <;> rfl) | (unfold State.nlkView; simp; done) | (unfold State.nlkView; (repeat' split) <;> simp_all; done)
@[simp] theorem twnView_start (s : State) (h : Half) (off : Nat) (o_ : Org) (opc_ role_ : Nat) (x_ : Option Half) : State.twnView (s.start o_ opc_ role_ x_) h off = State.twnView s h off := by
  first | (simp [State.twnView]; done) | (obtain ⟨m_, n_, e_⟩ := start_eq s o_ opc_ role_ x_; rw [e_]; cases h <;> rfl) | (unfold State.twnView; simp; done) | (unfold State.twnView; (repeat' split) <;> simp_all; done)
@[simp] theorem pstView_start (s : State) (h : Half) (off : Nat) (o_ : Org) (opc_ role_ : Nat) (x_ : Option Half) : State.pstView (s.start o_ opc_ role_ x_) h off = State.pstView s h off := by
  first | (simp [State.pstView]; done) | (obtain ⟨m_, n_, e_⟩ := start_eq s o_ opc_ role_ x_; rw [e_]; cases h <;> rfl) | (unfold State.pstView; simp; done) | (unfold State.pstView; (repeat' split) <;> simp_all; done)
@[simp] theorem cnpView_start (s : State) (h : Half) (off : Nat) (o_ : Org) (opc_ role_ : Nat) (x_ : Option Half) : State.cnpView (s.start o_ opc_ role_ x_) h off = State.cnpView s h off := by
  first | (simp [State.cnpView]; done) | (obtain ⟨m_, n_, e_⟩ := start_eq s o_ opc_ role_ x_; rw [e_]; cases h <;> rfl) | (unfold State.cnpView; simp; done) | (unfold State.cnpView; (repeat' split) <;> simp_all; done)
@[simp] theorem mstat_start (s : State) (h : Half) (m : Nat) (o_ : Org) (opc_ role_ : Nat) (x_ : Option Half) : State.mstat (s.start o_ opc_ role_ x_) h m = State.mstat s h m := by
  first | (simp [State.mstat]; done) | (obtain ⟨m_, n_, e_⟩ := start_eq s o_ opc_ role_ x_; rw [e_]; cases h <;> rfl) | (unfold State.mstat; simp; done) | (unfold State.mstat; (repeat' split) <;> simp_all; done)
@[simp] theorem thmView_start (s : State) (h : Half) (off : Nat) (o_ : Org) (opc_ role_ : Nat) (x_ : Option Half) : State.thmView (s.start o_ opc_ role_ x_) h off = State.thmView s h off := by
  first | (simp [State.thmView]; done) | (obtain ⟨m_, n_, e_⟩ := start_eq s o_ opc_ role_ x_; rw [e_]; cases h <;> rfl) | (unfold State.thmView; simp; done) | (unfold State.thmView; (repeat' split) <;> simp_all; done)
@[simp] theorem metView_start (s : State) (off : Nat) (o_ : Org) (opc_ role_ : Nat) (x_ : Option Half) : State.metView (s.start o_ opc_ role_ x_) off = State.metView s off := by
  first | (simp [State.metView]; done) | (obtain ⟨m_, n_, e_⟩ := start_eq s o_ opc_ role_ x_; rw [e_]; rfl) | (unfold State.metView; simp; done) | (unfold State.metView; (repeat' split) <;> simp_all; done)
@[simp] theorem lktView_start (s : State) (off : Nat) (o_ : Org) (opc_ role_ : Nat) (x_ : Option Half) : State.lktView (s.start o_ opc_ role_ x_) off = State.lktView s off := by
  first | (simp [State.lktView]; done) | (obtain ⟨m_, n_, e_⟩ := start_eq s o_ opc_ role_ x_; rw [e_]; rfl) | (unfold State.lktView; simp; done) | (unfold State.lktView; (repeat' split) <;> simp_all; done)
@[simp] theorem zstat_start (s : State) (z : Nat) (o_ : Org) (opc_ role_ : Nat) (x_ : Option Half) : State.zstat (s.start o_ opc_ role_ x_) z = State.zstat s z := by
  first | (simp [State.zstat]; done) | (obtain ⟨m_, n_, e_⟩ := start_eq s o_ opc_ role_ x_; rw [e_]; rfl) | (unfold State.zstat; simp; done) | (unfold State.zstat; (repeat' split) <;> simp_all; done)
@[simp] theorem safView_start (s : State) (off : Nat) (o_ : Org) (opc_ role_ : Nat) (x_ : Option Half) : State.safView (s.start o_ opc_ role_ x_) off = State.safView s off := by
  first | (simp [State.safView]; done) | (obtain ⟨m_, n_, e_⟩ := start_eq s o_ opc_ role_ x_; rw [e_]; rfl) | (unfold State.safView; simp; done) | (unfold State.safView; (repeat' split) <;> simp_all; done)
@[simp] theorem locView_start (s : State) (h : Half) (off : Nat) (o_ : Org) (opc_ role_ : Nat) (x_ : Option Half) : State.locView (s.start o_ opc_ role_ x_) h off = State.locView s h off := by
  first | (simp [State.locView]; done) | (obtain ⟨m_, n_, e_⟩ := start_eq s o_ opc_ role_ x_; rw [e_]; cases h <;> rfl) | (unfold State.locView; simp; done) | (unfold State.locView; (repeat' split) <;> simp_all; done)
@[simp] theorem txBusy_start (s : State) (n : Nat) (b : Nat) (o_ : Org) (opc_ role_ : Nat) (x_ : Option Half) : State.txBusy (s.start o_ opc_ role_ x_) n b = State.txBusy s n b := by
  first | (simp [State.txBusy]; done) | (obtain ⟨m_, n_, e_⟩ := start_eq s o_ opc_ role_ x_; rw [e_]; rfl) | (unfold State.txBusy; simp; done) | (unfold State.txBusy; (repeat' split) <;> simp_all; done)
@[simp] theorem keyRoles_start (s : State) (h : Half) (r : Nat) (o_ : Org) (opc_ role_ : Nat) (x_ : Option Half) : State.keyRoles (s.start o_ opc_ role_ x_) h r = State.keyRoles s h r := by
  first | (simp [State.keyRoles]; done) | (obtain ⟨m_, n_, e_⟩ := start_eq s o_ opc_ role_ x_; rw [e_]; cases h <;> rfl) | (unfold State.keyRoles; simp; done) | (unfold State.keyRoles; (repeat' split) <;> simp_all; done)
@[simp] theorem wordRoles_start (s : State) (b : Blk) (h : Half) (off : Nat) (o_ : Org) (opc_ role_ : Nat) (x_ : Option Half) : State.wordRoles (s.start o_ opc_ role_ x_) b h off = State.wordRoles s b h off := by
  first | (simp [State.wordRoles]; done) | (obtain ⟨m_, n_, e_⟩ := start_eq s o_ opc_ role_ x_; rw [e_]; cases h <;> rfl) | (unfold State.wordRoles; simp; done) | (unfold State.wordRoles; (repeat' split) <;> simp_all; done)
@[simp] theorem roleKeyFit_start (s : State) (w : Word) (o_ : Org) (opc_ role_ : Nat) (x_ : Option Half) : State.roleKeyFit (s.start o_ opc_ role_ x_) w = State.roleKeyFit s w := by
  first | (simp [State.roleKeyFit]; done) | (obtain ⟨m_, n_, e_⟩ := start_eq s o_ opc_ role_ x_; rw [e_]; rfl) | (unfold State.roleKeyFit; simp; done) | (unfold State.roleKeyFit; (repeat' split) <;> simp_all; done)
@[simp] theorem wordRefusal_start (s : State) (o : Org) (b : Blk) (h : Half) (off : Nat) (w : Word) (o_ : Org) (opc_ role_ : Nat) (x_ : Option Half) : State.wordRefusal (s.start o_ opc_ role_ x_) o b h off w = State.wordRefusal s o b h off w := by
  first | (simp [State.wordRefusal]; done) | (obtain ⟨m_, n_, e_⟩ := start_eq s o_ opc_ role_ x_; rw [e_]; cases h <;> rfl) | (unfold State.wordRefusal; simp; done) | (unfold State.wordRefusal; (repeat' split) <;> simp_all; done)
@[simp] theorem disciplines_start (s : State) (h : Half) (o_ : Org) (opc_ role_ : Nat) (x_ : Option Half) : State.disciplines (s.start o_ opc_ role_ x_) h = State.disciplines s h := by
  first | (simp [State.disciplines]; done) | (obtain ⟨m_, n_, e_⟩ := start_eq s o_ opc_ role_ x_; rw [e_]; cases h <;> rfl) | (unfold State.disciplines; simp; done) | (unfold State.disciplines; (repeat' split) <;> simp_all; done)
@[simp] theorem holdErr_start (s : State) (h : Half) (o_ : Org) (opc_ role_ : Nat) (x_ : Option Half) : holdErr (s.start o_ opc_ role_ x_) h = holdErr s h := by
  first | (simp [holdErr]; done) | (obtain ⟨m_, n_, e_⟩ := start_eq s o_ opc_ role_ x_; rw [e_]; cases h <;> rfl) | (unfold holdErr; simp; done) | (unfold holdErr; (repeat' split) <;> simp_all; done)
@[simp] theorem bypassFor_start (s : State) (h : Half) (o_ : Org) (opc_ role_ : Nat) (x_ : Option Half) : bypassFor (s.start o_ opc_ role_ x_) h = bypassFor s h := by
  first | (simp [bypassFor]; done) | (obtain ⟨m_, n_, e_⟩ := start_eq s o_ opc_ role_ x_; rw [e_]; cases h <;> rfl) | (unfold bypassFor; simp; done) | (unfold bypassFor; (repeat' split) <;> simp_all; done)

end Sys2Proof.Machine
end

