-- ==== Sys2Proof/Laws/Verbs.lean ====
section
/-!
SUPPORT. A verb whose conditions hold is its body; under a role its row does not name it is refused.
-/

namespace Sys2Proof.Machine

theorem runAt_runs {s : State} {o : Org} {opc role : Nat} (h1 : s.inhibited o.half opc = false) (h2 : s.ringRole o.half o.ring = some role) (h3 : o.hb = 0)
    {roles : List Nat} (m : role ∈ roles) (x : Half) (hb : Bool) (body : State → Nat → State) :
    s.runAt o x opc roles hb body = body (s.start o opc role (some x)) role := by
  simp only [State.runAt, h1, h2, h3, m]
  simp

/-- A verb of the half in charge, allowing HALF or not. -/
theorem verbG_runs {s : State} {o : Org} {opc : Nat} {x : Half} {role : Nat} (r : RunsAt s o opc x role) {roles : List Nat} (m : role ∈ roles) (hb : Bool)
    (body : State → Half → Nat → State) : s.verbG o opc roles hb body = body (s.start o opc role (some x)) x role := by
  obtain ⟨h1, h2, h3, h4, h5, h6, h7⟩ := r
  have h5' : (decide (x = o.half) || s.twinUp o.half) = true := by
    rcases h5 with h | h <;> simp [h]
  simp only [State.verbG, h1, h2, h3, h4, h5', runAt_runs h1 h6 h7 m]
  simp

/-- A verb of the receiving half under a role its row does not name. -/
theorem verbHere_role {s : State} {o : Org} {opc role : Nat} (r : RunsHere s o opc role) {roles : List Nat} (m : role ∉ roles) (body : State → Nat → State) :
    s.verbHere o opc roles body = (s.start o opc role (some o.half)).complete o o.half opc stRole true [] := by
  obtain ⟨h1, h2, h3⟩ := r
  simp only [State.verbHere, State.runAt, h1, h2, h3, m]
  simp

/-- Outside THERMAL_HOLD the verbs of Thermal are verbs of the half in charge. -/
theorem thmVerb_runs {s : State} {o : Org} {opc : Nat} {x : Half} {role : Nat} (r : RunsAt s o opc x role) (hold : (s.hf o.half).thm.hold = false)
    {roles : List Nat} (m : role ∈ roles) (body : State → Half → Nat → State) :
    s.thmVerb o opc roles body = body (s.start o opc role (some x)) x role := by
  simp only [State.thmVerb, hold]
  exact verb_runs r m body

/-- A generic verb with HALF 0 on a block of the half in charge reaches that half's own registers (R522). -/
theorem cfgVerb_runs {s : State} {o : Org} {b : Blk} {verb : Nat} {x : Half} {role : Nat} (r : RunsAt s o (cfgOpc b verb) x role) (hl : b ≠ .loc)
    (hm : b ≠ .mbx) (here : Bool) {roles : List Nat} (m : role ∈ roles) (body : State → Half → Half → Nat → State) :
    s.cfgVerb o b verb here roles body = body (s.start o (cfgOpc b verb) role (some x)) x x role := by
  have hb : o.hb = 0 := r.2.2.2.2.2.2
  have hn : halfOf o.hb = none := by rw [hb]; rfl
  simp only [State.cfgVerb, hl, hm, hn]
  rw [verbG_runs r m]
  simp

end Sys2Proof.Machine
end

