-- ==== Sys2Proof/Tests/Slice0.lean ====
section
/-!
SUPPORT. Tests: an ill-formed term for every check, lane words and standard vectors, and for every statement a state and operands that meet its hypotheses.

The witnesses stand on one site in service; each clause of a statement has its own, at the values its conditions name.
-/

namespace Sys2Proof.Tests
end Sys2Proof.Tests

open Sys2Proof Sys2Proof.Machine Sys2Proof.Tests

section

set_option maxRecDepth 10000
set_option Elab.async false

/-! ### Well-formedness, lane words, standard vectors -/

/-- Every check of `Instr.wellFormed` refuses a term that fails it. -/
theorem Sys2Proof.Tests.test_illFormed : ∀ c ∈ ([
    .undefinedOpcode ⟨.A, 32, 1, 0⟩ 0,
    .stagingWrite .A 270 0,
    .pointOwnerWrite 33554432 0 1 (.int 0),
    .pointOwnerWrite 0 0 0 (.int 0),
    .pointOwnerWrite 0 0 8 (.int 0),
    .uplinkAcceptanceLoss .A 80,
    .laneOverrun .A 60,
    .nop ⟨.A, 60, .always⟩,
    .injectionEnd .A 60 0,
    .injectionEnd .A 0 8,
    .probeComplete .A 32 0,
    .probeComplete .A 0 4,
    .cabinetCommandApply 32,
    .drainComplete .A 48,
    .uncommandedPoleOpen .A 512 0,
    .predictionDataComplete .A 64,
    .sensorRecovered .A 0 7,
    .acBlock 2 [],
    .pulseEmit 8,
    .tamperSample 16,
    .keypad .A 31,
    .materialTagFault 16384,
    .safetyDiscrepancy 16,
    .zoneDemand 8,
    .harvitorPduReceived 128 [],
    .sqTailDoorbell .A 32 0,
    .commandFetch .A 0 ⟨List.replicate 63 0, []⟩,
    .cqHeadWrite .A 64 0,
    .roleLockoutEnd .A 0,
    .roleLockoutEnd .A 6,
    .timerEnable .A 4 0,
    .timerEnable .A 0 5000,
    .aliasWrite .A 32 0 0,
    .aliasWrite .A 0 0x10000 0,
    .aliasWrite .A 0 2 0,
    .aliasWrite .A 0 0 4,
    .canTxRequest .A 4 0,
    .canTxRequest .A 0 3,
    .exchangeLimitsFrame 0 8,
    .lswEnable .A 16 0,
    .zeroCrossing 2 none 0 true [],
    .poll 0 0,
    .poll 0 255] : List Instr), c.wellFormed = false := by decide +kernel

/-- A well-formed term of several shapes passes. -/
theorem Sys2Proof.Tests.test_wellFormed : ∀ c ∈ ([.undefinedOpcode ⟨.A, 31, 1, 0⟩ 0, .stagingWrite .A 269 0, .nop ⟨.A, 59, .always⟩, .probeComplete .A 31 3] : List Instr),
    c.wellFormed = true := by decide +kernel

/-- Lane words written out bit by bit (R177, R178): an instruction, a predicate, two reserved words. -/
theorem Sys2Proof.Tests.test_laneWords : laneDecode 0x00400000 = some (.always, .halt) ∧ laneDecode 0x01822180 = some (.always, .add 1 2 3) ∧
    laneDecode 0xA6424280 = some (.ifTrue 2, .mac 1 4 5) ∧ laneDecode 0x10000000 = none ∧ laneDecode 0x05400000 = none := by decide

/-- AES-128 on the example of FIPS 197, appendix C.1. -/
theorem Sys2Proof.Tests.test_aes : aesBlock (List.range 16) ((List.range 16).map (· * 17)) =
    [0x69, 0xC4, 0xE0, 0xD8, 0x6A, 0x7B, 0x04, 0x30, 0xD8, 0xCD, 0xB7, 0x80, 0x70, 0xB4, 0xC5, 0x5A] := by decide +kernel

/-- The inverse S-box undoes the S-box. -/
theorem Sys2Proof.Tests.test_invSbox : ∀ x < 256, invSbox (sbox x) = x := by decide +kernel

/-- SHA-256 of "abc" (FIPS 180-4). -/
theorem Sys2Proof.Tests.test_sha256 : (sha256 [0x61, 0x62, 0x63]).take 8 = [0xBA, 0x78, 0x16, 0xBF, 0x8F, 0x01, 0xCF, 0xEA] := by decide +kernel

/-! ### Helpers of the witnesses -/

/-- A property of what an option holds, from the bounded form that is decided. -/
theorem Sys2Proof.Tests.all_some {α : Type} {e : Option α} {P : α → Prop} (h : ∀ x ∈ e, P x) : ∀ x, e = some x → P x := h

/-- A bounded form that is decided. -/
theorem Sys2Proof.Tests.below_of {P : Nat → Prop} {m n : Nat} (h : ∀ d < n, m < d → P d) : ∀ d, m < d → d < n → P d := fun d h1 h2 => h d h2 h1

/-- A bounded form that is decided. -/
theorem Sys2Proof.Tests.between_of {P : Nat → Prop} {m n : Nat} (h : ∀ d < n + 1, m ≤ d → P d) : ∀ d, m ≤ d → d ≤ n → P d := fun d h1 h2 => h d (Nat.lt_succ_of_le h2) h1

/-- A half in service at tick 100,000. -/
def Sys2Proof.Tests.half0 : HalfSt := { tck := { tick := 100000, tickSet := true }, twn := { claim := 2, acting := true, service := true, off := false, booted := true, up := true, unhealthy := false, clean := true } }

/-- A site in service: both halves up, half A in charge and holding the token. -/
def Sys2Proof.Tests.site : State := { State.reset with pwr := { up := true, charged := true }, halfA := half0, halfB := { half0 with twn := { half0.twn with claim := 1, acting := false } }, ref := { token := some .A, e := 1, lastA := 2 } }

/-- A state whose key store holds an entry. -/
def Sys2Proof.Machine.State.withKey (s : State) (e : KeyE) : State := { s with lkt.ents := Machine.put none s.lkt.ents (keyIdx e.handle) (some e) }

/-- A key of a type that every engine, use and role may use. -/
def Sys2Proof.Tests.wkey (h typ : Nat) : KeyE := { handle := h, typ := typ, dom := 3, eng := 0xFFF, use := 0xFFFF, useRoles := 0xFF, admRoles := 0xFF }

/-- Command ring `n` enabled, with one descriptor to fetch. -/
def Sys2Proof.Machine.State.fetchable (s : State) (h : Half) (n : Nat) : State := (s.srg .mbx h (ringOff n) 0x80300000).srg .mbx h (ringOff n + 0x18) 1

/-- A mailbox datagram of zeros. -/
def Sys2Proof.Tests.dg0 : List Nat := [0x4D, 0x42, 0x58, 0x45] ++ List.replicate 84 0

/-- A descriptor with an opcode, flags and a length. -/
def Sys2Proof.Tests.desc0 (opc flags len : Nat) : Desc := { bytes := le 2 opc ++ [flags, 0] ++ le 4 1 ++ le 4 0 ++ le 4 len ++ List.replicate 48 0, bulk := [] }

/-- A point every role may read and write. -/
def Sys2Proof.Tests.wpt : Slot := { typ := 1, rd := 0xFF, wr := 0xFF, val := .int 7 }

/-- A subscription. -/
def Sys2Proof.Tests.wsub : Subscr := { id := 1, ring := 60, role := 3, cmdRing := 28, period := 20, since := 0, ids := [], seen := [] }

/-- A site whose group is routed and fresh, with the frame's bytes given. -/
def Sys2Proof.Tests.stepSite (b : List Nat) : State := (((site.srg .pst .A 0x30 0x80000000).srg .pst .A 0x20 0x81).mh .A fun c => { c with cln.view := { at_ := some 100000, ing := [(0, some { tick := 100000, claim := 2, echoValid := true, lost := false, bytes := 1 :: b })], alloc := { outs := [(0, { routeOk := true })] } } })

/-- A lane image with its code and a version of its header. -/
def Sys2Proof.Tests.wimg (bad : Nat) (code : List Nat) : List Nat := [0x43, 0x4E, 0x4B, 0x4C] ++ le 2 3 ++ le 2 bad ++ le 4 1 ++ le 4 1 ++ le 2 (code.length / 4) ++ le 2 0 ++ le 2 0 ++ le 2 0 ++ List.replicate 16 0 ++ sha256 code ++ code

/-- A site whose lane 0 runs the loop library with one block. -/
def Sys2Proof.Tests.loopSite : State := (((site.srg .cln .A 0 0x80000000).srg .cln .A 0x1003C 0x4C500000).srg .cln .A 0x10010 0x00010000).mh .A fun c => { c with cln.images := [{ base := 0, words := 1, progId := 0x4C4F4F50, version := 1, ports := [], stateInit := [], resultInit := List.replicate 8 0, verified := 10, claimed := 10 }] }

/-- A prepayment token's digits, sealed by a key of zeros. -/
def Sys2Proof.Tests.tokD (sc q v : Nat) : List Nat :=
  let m := sc * 2 ^ 38 + q * 2 ^ 14 + v
  let n := m * 2 ^ 20 + unle ((cmac (List.replicate 16 0) (List.replicate 8 0 ++ le 6 m ++ [0, 0])).take 4) % 2 ^ 20
  (List.range 20).map fun i => n / 10 ^ (19 - i) % 10

/-- The token key. -/
def Sys2Proof.Tests.tokKey : KeyE := { handle := 0x4010, typ := 1, dom := 2, eng := 0x40, use := 0, mat := List.replicate 16 0 }

/-- A state that holds the token key and names it. -/
def Sys2Proof.Machine.State.withTok (s : State) : State := (s.withKey tokKey).srg .lkt .A 0x10 0x4010

/-- A metering head's key. -/
def Sys2Proof.Tests.headKeyE : KeyE := { handle := 0x4010, typ := 2, dom := 2, eng := 0x10, use := 0, binding := 5, mat := List.replicate 32 0 }

/-- A metering frame's copy, tagged by the head's key. -/
def Sys2Proof.Tests.metCopy (v i : List Nat) : MetCopy := { seq := 34464, side := .A, bytes := ([0x23, 1, 0xA0, 0x86, 2, 0, 32, 0] ++ [0, 0] ++ v ++ i) ++ gcmTag (List.replicate 32 0) (ivFor true .A 100000 32 0x23 0) ([0x23, 1, 0xA0, 0x86, 2, 0, 32, 0] ++ [0, 0] ++ v ++ i) }

/-- A site with one copy of a metering frame. -/
def Sys2Proof.Tests.metSite (v i : List Nat) : State := ({ (site.srg .met .A 8 5).withKey headKeyE with met := { site.met with copies := [(0, [metCopy v i])] } })

/-- A site at a tick. -/
def Sys2Proof.Tests.tickSite (n : Nat) : State := (site.mTck .A fun y => { y with tick := n }).mTck .B fun y => { y with tick := n }

/-- A tariff table that closes a period daily. -/
def Sys2Proof.Tests.closeTariff : List Nat := List.replicate 732 0 ++ [1, 0, 1, 1] ++ List.replicate 16 0

/-- A tariff table that holds. -/
def Sys2Proof.Tests.okTariff : List Nat := List.replicate 4 0 ++ le 8 3600 ++ [1, 0, 0, 0] ++ [1, 1, 1, 1, 1, 1, 1, 1] ++ List.replicate 728 0

/-- A keypad message of digits. -/
def Sys2Proof.Tests.kmsg (d : List Nat) : List Nat := [6, 0, 0, 0] ++ d.map (· + 48)

/-- A key of zeros. -/
def Sys2Proof.Tests.matKey (typ : Nat) : KeyE := { wkey 0x4010 typ with mat := List.replicate 16 0 }

/-- A key's attributes as a command carries them. -/
def Sys2Proof.Tests.keyAttr (parent typ dom eng use : Nat) : List Nat := le 4 parent ++ [typ, dom] ++ le 2 eng ++ le 2 use ++ [0xFF, 0xFF] ++ List.replicate 20 0

/-- A supervision PDU with its check. -/
def Sys2Proof.Tests.extPdu (b : List Nat) : List Nat := b ++ le 4 (harvCrc b)

/-- A pair secret. -/
def Sys2Proof.Tests.psKey : KeyE := { matKey 3 with binding := 5 + 2 ^ 40, mat := List.replicate 32 0 }

/-- A link key below it. -/
def Sys2Proof.Tests.linkKeyE : KeyE := { psKey with handle := 0x4011, typ := 2, parent := 0x4010, binding := 5 + 2 ^ 32 }

/-- A state that holds both. -/
def Sys2Proof.Machine.State.withPs (s : State) : State := (s.withKey psKey).withKey linkKeyE

/-- A key roll under way. -/
def Sys2Proof.Tests.wroll (edge : Nat) : RollS := { n := 2, old := 0x4011, key := 0x4012, edge := edge, org := ⟨.A, 28, 2, 0⟩, exec := .A, ids := (0, 0) }

/-- A state with a key roll whose message was or was not acknowledged. -/
def Sys2Proof.Machine.State.withRoll (s : State) (edge : Nat) (acked : Bool) : State :=
  let l := if acked then [0] else []
  (((({ s with lkt := { s.lkt with rolls := [(0, some (wroll edge))] } }).withPs).withKey { linkKeyE with handle := 0x4012 }).mPort .A 0 fun q => { q with tx := [(0x43, { acked := l })] }).mh .B fun y => { y with ports := [(0, { tx := [(0x43, { acked := l })] })] }

/-- A state in which command ring 28 runs a command. -/
def Sys2Proof.Machine.State.run9 (s : State) (opc : Nat) : State := s.mh .A fun y => { y with mbx.started := [{ org := ⟨.A, 28, 2, 0⟩, opc := opc, role := 3, cseq := 0, exec := some .A }] }

/-- A mesh frame's body with its check. -/
def Sys2Proof.Tests.meshB : List Nat := [0x20, 0, 0, 1, 7] ++ le 2 (crcMsb 16 0x1021 0xFFFF [0x20, 0, 0, 1, 7])

/-- A mesh exchange under way. -/
def Sys2Proof.Tests.meshX (kind st : Nat) (nibs : List Nat) : MeshX := { frame := { kind := kind, dst := 1, body := [] }, hops := 1, next := 1, nibs := nibs, start := 0, st := st }

/-- A state with a mesh exchange. -/
def Sys2Proof.Machine.State.withX (s : State) (x : MeshX) : State := s.mMp 0 fun q => { q with x := some x }

/-- A mesh node enabled. -/
def Sys2Proof.Machine.State.node (s : State) (m : Nat) : State := (s.srf .rms .A (0x400 + 4 * m) 31 31 1).srf .rms .A (0x400 + 4 * m) 30 30 0

/-- A mesh site with one node. -/
def Sys2Proof.Machine.State.meshOn (s : State) : State := ((s.srf .rms .A 0 31 31 1).srf .rms .A 4 31 31 1).node 1

/-- A mesh link that was heard. -/
def Sys2Proof.Machine.State.linkUp (s : State) (a b : Nat) : State := { s with mesh := { s.mesh with links := Machine.upd {} s.mesh.links (256 * a + b) fun l => { l with at_ := some 0 } } }

/-- An image's header. -/
def Sys2Proof.Tests.whdr (target isSealed svn ifrev sigs signer : Nat) (data : List Nat) : List Nat :=
  let b := [0x56, 0x58, 0x55, 0x50] ++ le 2 1 ++ [target, isSealed, 3, 0, 0, 0] ++ le 4 1 ++ le 4 svn ++ le 4 data.length ++ sha384 data ++ (if target = 3 then sha256 data else List.replicate 32 0) ++ le 2 ifrev ++ [0, 0] ++ List.replicate 20 0 ++ [sigs, 0, 0, 0] ++ le 4 signer
  b ++ List.replicate (3712 - b.length) 0

/-- An image being staged, with its payload. -/
def Sys2Proof.Tests.wstg (target : Nat) : Staging := let h := whdr target 0 0 0 3 0 [5]; { img := hdrInfo h, hdr := h, data := [5] }

/-- A state with a staged image. -/
def Sys2Proof.Machine.State.stagedAt (s : State) (k : Nat) (g : ImgInfo) : State := s.mRec k fun y => { y with b1 := { st := 1, img := g } }

/-- A state that received an update report. -/
def Sys2Proof.Machine.State.rx7 (s : State) (m : List Nat) : State := s.mPort .A 0 fun q => { q with rx := [(0x43, { done := [m] })] }

/-- A state that forwards an image to a remote. -/
def Sys2Proof.Machine.State.rem7 (s : State) : State := { s with upd := { s.upd with tx := [(0, some { imgid := 1, target := 4, by_ := .A, at_ := 0, org := some ⟨.A, 28, 2, 0⟩ })] } }

/-- A remote's update report. -/
def Sys2Proof.Tests.updst (st err : Nat) : List Nat := [7, st, 0, 0] ++ le 4 1 ++ le 4 5 ++ le 2 err ++ [0, 0]

/-- An activation under way. -/
def Sys2Proof.Tests.wact (part st : Nat) : ActS := { org := ⟨.A, 28, 2, 0⟩, part := part, st := st, first := .A, start := 0 }

/-- A half whose recovery has three quarters of a header. -/
def Sys2Proof.Machine.State.inRecov (s : State) (fl : Nat) (b : List Nat) : State :=
  ({ s with upd := { s.upd with recovA := { hdr := [(0, b.take 1024), (1, (b.drop 1024).take 1024), (2, (b.drop 2048).take 1024)] } } } : State).mRec 4 fun y => { y with floor := fl }

/-- An island's log record. -/
def Sys2Proof.Tests.wlog : LogRec := { num := 1, tick := 0, rtc := 0, typ := 1, src := 0, detail := 0, a := 0, b := 0 }

/-! ### Witnesses -/

/-- Every hypothesis of StagingWritesAndStaleness is met, clause by clause. -/
theorem Sys2Proof.Tests.witness_StagingWritesAndStaleness :
    (∃ (s : State) (h : Half) (i : Nat) (v : Int), i < 270) ∧
    (∃ (s : State) (h : Half) (i : Nat) (v : Int), 270 ≤ i) ∧
    (∃ (s : State) (h : Half) (i : Nat), i < 270 ∧ (s.stage h i).written = true ∧ (s.stage h i).stale = false ∧ (s.stage h i).pend = none ∧ (s.stage h i).stamp + stageAge i < s.tick h) ∧
    (∃ (s : State) (h : Half) (i : Nat), (270 ≤ i ∨ (s.stage h i).written = false ∨ (s.stage h i).stale = true ∨ (s.stage h i).pend.isSome = true ∨ s.tick h ≤ (s.stage h i).stamp + stageAge i)) :=
   ⟨⟨site, Half.A, 0, 0, by decide +kernel⟩,
    ⟨site, Half.A, 270, 0, by decide +kernel⟩,
    ⟨site.mh Half.A fun y => { y with stg := [(0, { written := true, stale := false })] }, Half.A, 0, by decide +kernel⟩,
    ⟨site, Half.A, 0, by decide +kernel⟩⟩

def Sys2Proof.Tests.sPointWritesAndMirror4 : State := (site.mh Half.A fun z' => { z' with mirOut := ({ idx := 0, slot := wpt, applied := true } : MirrorCopy) :: ([] : List MirrorCopy) }).mh Half.A fun y => { y with pts := [(0, some wpt)] }

/-- Every hypothesis of PointWritesAndMirror is met, clause by clause. -/
theorem Sys2Proof.Tests.witness_PointWritesAndMirror :
    (∃ (s : State) (h : Half) (idx : Nat) (owner : Nat) (typ : Nat) (cls : Nat) (v : PVal), s.charge = some h ∧ classOf idx = some cls ∧ ownerMay owner cls = true ∧ 1 ≤ typ ∧ typ ≤ 7) ∧
    (∃ (s : State) (idx : Nat) (owner : Nat) (typ : Nat) (v : PVal), (s.charge = none ∨ classOf idx = none ∨ ownerMay owner ((classOf idx).getD 0) = false ∨ typ = 0 ∨ 7 < typ)) ∧
    (∃ (s : State) (h : Half) (c : MirrorCopy) (l : List MirrorCopy), (s.hf (other h)).mirOut = c :: l ∧ c.applied = false ∧ s.twinUp h = true) ∧
    (∃ (s : State) (h : Half), (s.twinUp h = false ∨ (∀ c ∈ (s.hf (other h)).mirOut, c.applied = true))) ∧
    (∃ (s : State) (h : Half) (c : MirrorCopy) (l : List MirrorCopy) (p : Slot), (s.hf h).mirOut = c :: l ∧ c.applied = true ∧ look none (s.hf h).pts c.idx = some p) ∧
    (∃ (s : State) (h : Half) (idx : Nat) (p : Slot), look none (s.hf h).pts idx = some p ∧ (s.hf h).restWait = []) ∧
    (∃ (s : State) (h : Half) (idx : Nat), look none (s.hf h).pts idx = none) :=
   ⟨⟨site, Half.A, 0, 0, 1, (classOf 0).getD 0, .int 5, by decide +kernel⟩,
    ⟨site, 0, 0, 0, .int 5, by decide +kernel⟩,
    ⟨(site.mh (other Half.A) fun z' => { z' with mirOut := ({ ({ idx := 0, slot := { typ := 0, val := .int 0 } } : MirrorCopy) with applied := false } : MirrorCopy) :: ([] : List MirrorCopy) }).mTwn Half.A fun z' => { z' with up := true }, Half.A, { ({ idx := 0, slot := { typ := 0, val := .int 0 } } : MirrorCopy) with applied := false }, [], by decide +kernel⟩,
    ⟨site, Half.A, by decide +kernel⟩,
    ⟨sPointWritesAndMirror4, Half.A, { idx := 0, slot := wpt, applied := true }, [], (look none (sPointWritesAndMirror4.hf Half.A).pts ({ idx := 0, slot := wpt, applied := true } : MirrorCopy).idx).getD { typ := 0, val := .int 0 }, by decide +kernel⟩,
    ⟨((fun s : State => s.mh Half.A fun z' => { z' with pts := Machine.put none (s.hf Half.A).pts 0 (some ({ typ := 0, val := .int 0 } : Slot)) }) site).mh Half.A fun z' => { z' with restWait := [] }, Half.A, 0, { typ := 0, val := .int 0 }, by decide +kernel⟩,
    ⟨(fun s : State => s.mh Half.A fun z' => { z' with pts := Machine.put none (s.hf Half.A).pts 0 (none) }) site, Half.A, 0, by decide +kernel⟩⟩

def Sys2Proof.Tests.sRingsAndFetch7 : State := ((fun s : State => (s).srf .mbx Half.A (ringOff 0 + 0x28) 26 26 (Bool.toNat (false))) ((fun s : State => (s).srf .mbx Half.A (ringOff 0) 31 31 (Bool.toNat (true))) site)).fetchable Half.A 0
def Sys2Proof.Tests.sRingsAndFetch8 : State := ((fun s : State => (s).srf .mbx Half.A (ringOff 0 + 0x28) 26 26 (Bool.toNat (false))) ((fun s : State => (s).srf .mbx Half.A (ringOff 0) 31 31 (Bool.toNat (true))) site)).fetchable Half.A 0
def Sys2Proof.Tests.sRingsAndFetch9 : State := ((fun s : State => (s).srf .mbx Half.A (ringOff 0 + 0x28) 26 26 (Bool.toNat (false))) ((fun s : State => (s).srf .mbx Half.A (ringOff 0) 31 31 (Bool.toNat (true))) site)).fetchable Half.A 0
def Sys2Proof.Tests.sRingsAndFetch11 : State := ((site.mh .A fun z' => { z' with twn.acting := false }).mMbx .A fun y => { y with started := [{ org := ⟨.A, 28, 1, 0⟩, opc := 1, role := 3, cseq := 0, exec := none }] })

/-- Every hypothesis of RingsAndFetch is met, clause by clause. -/
theorem Sys2Proof.Tests.witness_RingsAndFetch :
    (∃ (s : State) (h : Half) (n : Nat) (v : Nat), n < 32 ∧ s.ringEth h n = false) ∧
    (∃ (s : State) (h : Half) (n : Nat) (v : Nat), (32 ≤ n ∨ s.ringEth h n = true)) ∧
    (∃ (s : State) (h : Half) (n : Nat) (v : Nat), n < 32 ∧ s.ringEth h n = false) ∧
    (∃ (s : State) (h : Half) (n : Nat), n < 64 ∧ s.ringEn h n = true) ∧
    (∃ (s : State) (h : Half) (n : Nat), n < 64 ∧ s.ringEn h n = false) ∧
    (∃ (s : State) (h : Half) (n : Nat), n < 64 ∧ s.ringEth h n = false ∧ s.ringEn h n = true) ∧
    (∃ (s : State) (h : Half) (n : Nat) (d : Desc), n < 32 ∧ s.ringEn h n = true ∧ s.ringFault h n = false ∧ s.waiting h n = true ∧ (s.ringStarted h n).all (·.first) = true ∧ s.ringFull h n = true) ∧
    (∃ (s : State) (h : Half) (n : Nat) (d : Desc) (e : Desc), n < 32 ∧ s.ringEn h n = true ∧ s.ringFault h n = false ∧ s.waiting h n = true ∧ (s.ringStarted h n).all (·.first) = true ∧ s.ringFull h n = false ∧ s.fetched h n d = e ∧ opDefined e.opc = true ∧ lenOk e.opc e.req = false) ∧
    (∃ (s : State) (h : Half) (n : Nat) (d : Desc) (e : Desc), n < 32 ∧ s.ringEn h n = true ∧ s.ringFault h n = false ∧ s.waiting h n = true ∧ (s.ringStarted h n).all (·.first) = true ∧ s.ringFull h n = false ∧ s.fetched h n d = e ∧ (opDefined e.opc = false ∨ lenOk e.opc e.req = true) ∧ s.cmdTagGood h n e = false) ∧
    (∃ (s : State) (h : Half) (n : Nat) (d : Desc) (e : Desc), n < 32 ∧ s.ringEn h n = true ∧ s.ringFault h n = false ∧ s.waiting h n = true ∧ (s.ringStarted h n).all (·.first) = true ∧ s.ringFull h n = false ∧ s.fetched h n d = e ∧ (opDefined e.opc = false ∨ lenOk e.opc e.req = true) ∧ s.cmdTagGood h n e = true) ∧
    (∃ (s : State) (o : Org) (opc : Nat), opDefined opc = false) ∧
    (∃ (s : State) (o : Org) (c : Started), (s.hf o.half).mbx.started.find? (fun c => sameCmd c.org o) = some c ∧ c.exec = none ∧ s.charge = none ∧ c.since + 2000 ≤ s.tick o.half) :=
   ⟨⟨(fun s : State => (s).srf .mbx Half.A (ringOff 0) 30 30 (Bool.toNat (false))) site, Half.A, 0, 0, by decide +kernel⟩,
    ⟨(fun s : State => (s).srf .mbx Half.A (ringOff 0) 30 30 (Bool.toNat (true))) site, Half.A, 0, 0, by decide +kernel⟩,
    ⟨(fun s : State => (s).srf .mbx Half.A (ringOff 0) 30 30 (Bool.toNat (false))) site, Half.A, 0, 0, by decide +kernel⟩,
    ⟨(fun s : State => (s).srf .mbx Half.A (ringOff 0) 31 31 (Bool.toNat (true))) site, Half.A, 0, by decide +kernel⟩,
    ⟨(fun s : State => (s).srf .mbx Half.A (ringOff 0) 31 31 (Bool.toNat (false))) site, Half.A, 0, by decide +kernel⟩,
    ⟨(fun s : State => (s).srf .mbx Half.A (ringOff 0) 31 31 (Bool.toNat (true))) ((fun s : State => (s).srf .mbx Half.A (ringOff 0) 30 30 (Bool.toNat (false))) site), Half.A, 0, by decide +kernel⟩,
    ⟨(((fun s : State => (s).srf .mbx Half.A (ringOff 0 + 0x28) 26 26 (Bool.toNat (false))) ((fun s : State => (s).srf .mbx Half.A (ringOff 0) 31 31 (Bool.toNat (true))) site)).fetchable Half.A 0).srg .mbx Half.A (ringOff 0 + 0x24) 6, Half.A, 0, desc0 1 0 0, by decide +kernel⟩,
    ⟨sRingsAndFetch7, Half.A, 0, desc0 0x201 0 0, sRingsAndFetch7.fetched Half.A 0 (desc0 0x201 0 0 : Desc), by decide +kernel⟩,
    ⟨sRingsAndFetch8, Half.A, 0, desc0 1 1 0, sRingsAndFetch8.fetched Half.A 0 (desc0 1 1 0 : Desc), by decide +kernel⟩,
    ⟨sRingsAndFetch9, Half.A, 0, desc0 1 0 0, sRingsAndFetch9.fetched Half.A 0 (desc0 1 0 0 : Desc), by decide +kernel⟩,
    ⟨(site.start (⟨.A, 28, 1, 0⟩ : Org) 0x0201 3 none).mTwn .A fun y => { y with acting := false }, ⟨.A, 28, 1, 0⟩, 0, by decide +kernel⟩,
    ⟨sRingsAndFetch11, ⟨.A, 28, 1, 0⟩, ((sRingsAndFetch11.hf (⟨.A, 28, 1, 0⟩ : Org).half).mbx.started.find? (fun c => sameCmd c.org (⟨.A, 28, 1, 0⟩ : Org))).getD { org := ⟨.A, 28, 1, 0⟩, opc := 1, role := 3, cseq := 0, exec := some .A }, by decide +kernel⟩⟩

def Sys2Proof.Tests.sCompletionsAndDatagrams0 : State := (site.srg .mbx Half.A (ringOff 28) 0x80300000).mMbx Half.A fun y => { y with compl := [{ half := Half.A, ring := 28, ctag := 1, opc := 1, status := 0, final := true, exec := Half.A, tick := 0, payload := [], cseq := 0, len := 0 }] }
def Sys2Proof.Tests.sCompletionsAndDatagrams1 : State := site.mMbx Half.A fun y => { y with compl := [{ half := Half.A, ring := 28, ctag := 1, opc := 1, status := 0, final := true, exec := Half.A, tick := 0, payload := [], cseq := 0, len := 0 }] }

/-- Every hypothesis of CompletionsAndDatagrams is met, clause by clause. -/
theorem Sys2Proof.Tests.witness_CompletionsAndDatagrams :
    (∃ (s : State) (h : Half) (c : Completion), (s.hf h).mbx.compl.find? (s.complReady h) = some c ∧ s.ringEn h c.ring = true ∧ s.ringFault h c.ring = false ∧ s.ringEth h c.ring = false) ∧
    (∃ (s : State) (h : Half) (c : Completion), (s.hf h).mbx.compl.find? (s.complReady h) = some c ∧ (s.ringEn h c.ring = false ∨ s.ringFault h c.ring = true)) ∧
    (∃ (s : State) (h : Half) (n : Nat), 0 < (s.ring h n).unsig ∧ fld (s.rcfg h n) 7 0 < 50 * (s.tick h + 1 - (s.ring h n).unsigTick)) ∧
    (∃ (s : State) (h : Half) (n : Nat), ((s.ring h n).unsig = 0 ∨ 50 * (s.tick h + 1 - (s.ring h n).unsigTick) ≤ fld (s.rcfg h n) 7 0)) ∧
    (∃ (s : State) (h : Half) (n : Nat) (d : MbxDgram), n < 32 ∧ s.ringEn h n = true ∧ s.ringEth h n = true ∧ s.enetServed h n = true ∧ (s.ring h n).bind = none ∧ dgOk n d.bytes = true ∧ numAt d.bytes 5 1 = 0 ∧ (s.ringReg h n 0x2C = 0 ∨ s.ringReg h n 0x2C = d.ip)) ∧
    (∃ (s : State) (h : Half) (n : Nat) (d : MbxDgram) (b : Binding), n < 64 ∧ s.ringEn h n = true ∧ s.ringEth h n = true ∧ s.enetServed h n = true ∧ (s.ring h n).bind = some b ∧ dgOk n d.bytes = true) ∧
    (∃ (s : State) (h : Half) (n : Nat) (q : Nat) (b : Binding) (x : Dgram), (s.ring h n).bind = some b ∧ b.unacked.find? (fun x => x.seq = q) = some x ∧ x.sent + 1000 ≤ s.tick h ∧ x.sends < 8) ∧
    (∃ (s : State) (h : Half) (n : Nat) (q : Nat) (b : Binding) (x : Dgram), (s.ring h n).bind = some b ∧ b.unacked.find? (fun x => x.seq = q) = some x ∧ x.sent + 1000 ≤ s.tick h ∧ 8 ≤ x.sends) ∧
    (∃ (s : State) (h : Half) (n : Nat) (b : Binding), (s.ring h n).bind = some b ∧ s.ringReg h n 0x2C = 0 ∧ b.last + 20000 * s.rf .mbx h 0 15 0 ≤ s.tick h) :=
   ⟨⟨sCompletionsAndDatagrams0, Half.A, ((sCompletionsAndDatagrams0.hf Half.A).mbx.compl.find? (sCompletionsAndDatagrams0.complReady Half.A)).getD { half := .A, ring := 28, ctag := 1, opc := 1, status := 0, final := true, exec := .A, tick := 0, payload := [], cseq := 0, len := 0 }, by decide +kernel⟩,
    ⟨sCompletionsAndDatagrams1, Half.A, ((sCompletionsAndDatagrams1.hf Half.A).mbx.compl.find? (sCompletionsAndDatagrams1.complReady Half.A)).getD { half := .A, ring := 28, ctag := 1, opc := 1, status := 0, final := true, exec := .A, tick := 0, payload := [], cseq := 0, len := 0 }, by decide +kernel⟩,
    ⟨site.mRing Half.A 0 fun z' => { z' with unsig := 0 + 1 }, Half.A, 0, by decide +kernel⟩,
    ⟨site.mRing Half.A 0 fun z' => { z' with unsig := 0 }, Half.A, 0, by decide +kernel⟩,
    ⟨(((((fun s : State => (s).srf .mbx Half.A (ringOff 0) 30 30 (Bool.toNat (true))) ((fun s : State => (s).srf .mbx Half.A (ringOff 0) 31 31 (Bool.toNat (true))) site)).mRing Half.A 0 fun z' => { z' with bind := none }).srg .mbx Half.A (ringOff 0) 0xC0300000).srf .mbx Half.A 0 31 31 1).srg .mbx Half.A 8 1, Half.A, 0, { ip := 1, port := 2, bytes := dg0 }, by decide +kernel⟩,
    ⟨(((((fun s : State => (s).srf .mbx Half.A (ringOff 0) 30 30 (Bool.toNat (true))) ((fun s : State => (s).srf .mbx Half.A (ringOff 0) 31 31 (Bool.toNat (true))) site)).mRing Half.A 0 fun z' => { z' with bind := some ({ ip := 1, port := 2 } : Binding) }).srg .mbx Half.A (ringOff 0) 0xC0300000).srf .mbx Half.A 0 31 31 1).srg .mbx Half.A 8 1, Half.A, 0, { ip := 1, port := 2, bytes := dg0 }, { ip := 1, port := 2 }, by decide +kernel⟩,
    ⟨site.mRing Half.A 0 fun z' => { z' with bind := some ({ ip := 1, port := 2, unacked := [{ seq := 0, sent := 0 }] } : Binding) }, Half.A, 0, 0, { ip := 1, port := 2, unacked := [{ seq := 0, sent := 0 }] }, (({ ip := 1, port := 2, unacked := [{ seq := 0, sent := 0 }] } : Binding).unacked.find? (fun x => x.seq = 0)).getD { seq := 0, sent := 0 }, by decide +kernel⟩,
    ⟨site.mRing Half.A 0 fun z' => { z' with bind := some ({ ip := 1, port := 2, unacked := [{ seq := 0, sent := 0, sends := 8 }] } : Binding) }, Half.A, 0, 0, { ip := 1, port := 2, unacked := [{ seq := 0, sent := 0, sends := 8 }] }, (({ ip := 1, port := 2, unacked := [{ seq := 0, sent := 0, sends := 8 }] } : Binding).unacked.find? (fun x => x.seq = 0)).getD { seq := 0, sent := 0 }, by decide +kernel⟩,
    ⟨(site.mRing Half.A 0 fun z' => { z' with bind := some ({ ip := 1, port := 2 } : Binding) }).srf .mbx Half.A 0 15 0 1, Half.A, 0, { ip := 1, port := 2 }, by decide +kernel⟩⟩

def Sys2Proof.Tests.sSessionsAndInfo4 : State := ((((site.srf .mbx Half.A 0 18 16 0).mRing Half.A ({ half := Half.A, ring := 0, ctag := 1, hb := 0 } : Org).ring fun z' => { z' with session := none }).mRing Half.A ({ half := Half.A, ring := 0, ctag := 1, hb := 0 } : Org).ring fun z' => { z' with opening := some ({ ({ sid := 1, role := 3, hnonce := 1, dnonce := 2, tick := 100000 } : OpenReq) with sid := 0 } : OpenReq) }).srg .mbx .A (0x10 + 4 * (({ ({ sid := 1, role := 3, hnonce := 1, dnonce := 2, tick := 100000 } : OpenReq) with sid := 0 } : OpenReq).role - 1)) 0x4010).withKey (wkey 0x4010 3)

/-- Every hypothesis of SessionsAndInfo is met, clause by clause. -/
theorem Sys2Proof.Tests.witness_SessionsAndInfo :
    (∃ (s : State) (o : Org) (r : Nat), RunsHere s o 0x0102 r ∧ r ∈ rAny) ∧
    (∃ (s : State) (o : Org) (role : Nat) (hn : Nat) (r : Nat), RunsHere s o 0x0110 r ∧ r ∈ rAny ∧ (s.ring o.half o.ring).session = none ∧ o.ring < 28 ∧ 1 ≤ role ∧ role ≤ 5 ∧ s.roleShut o.half role = false) ∧
    (∃ (s : State) (o : Org) (role : Nat) (hn : Nat) (r : Nat), RunsHere s o 0x0110 r ∧ r ∈ rAny ∧ ((s.ring o.half o.ring).session.isSome = true ∨ 28 ≤ o.ring)) ∧
    (∃ (s : State) (o : Org) (role : Nat) (hn : Nat) (r : Nat), RunsHere s o 0x0110 r ∧ r ∈ rAny ∧ (s.ring o.half o.ring).session = none ∧ o.ring < 28 ∧ (role = 0 ∨ 5 < role)) ∧
    (∃ (s : State) (o : Org) (sid : Nat) (r : Nat) (proof : List Nat) (q : OpenReq), RunsHere s o 0x0111 r ∧ r ∈ rAny ∧ (s.ring o.half o.ring).session = none ∧ o.ring < 28 ∧ (s.ring o.half o.ring).opening = some q ∧ q.sid = sid ∧ s.tick o.half < q.tick + 200000 ∧ s.roleShut o.half q.role = false ∧ proof = sessionProof (s.credential o.half q.role) o.half o.ring q) ∧
    (∃ (s : State) (o : Org) (sid : Nat) (r : Nat) (proof : List Nat) (q : OpenReq), RunsHere s o 0x0111 r ∧ r ∈ rAny ∧ (s.ring o.half o.ring).session = none ∧ o.ring < 28 ∧ (s.ring o.half o.ring).opening = some q ∧ q.sid = sid ∧ s.tick o.half < q.tick + 200000 ∧ s.roleShut o.half q.role = false ∧ proof ≠ sessionProof (s.credential o.half q.role) o.half o.ring q) ∧
    (∃ (s : State) (o : Org) (r : Nat) (x : Session), RunsHere s o 0x0112 r ∧ r ∈ rAny ∧ (s.ring o.half o.ring).session = some x) ∧
    (∃ (s : State) (h : Half) (n : Nat) (q : OpenReq), (s.ring h n).opening = some q ∧ q.tick + 200000 ≤ s.tick h) ∧
    (∃ (s : State) (h : Half) (n : Nat) (x : Session), (s.ring h n).session = some x ∧ x.last + 20000 * s.rf .mbx h 0 15 0 ≤ s.tick h) ∧
    (∃ (s : State) (h : Half) (role : Nat), (s.roleLock h role).until_ ≤ s.tick h) :=
   ⟨⟨site.srf .mbx Half.A 0 18 16 0, { half := Half.A, ring := 28, ctag := 1, hb := 0 }, 0, by unfold RunsHere; decide +kernel⟩,
    ⟨(((site.srf .mbx Half.A 0 18 16 0).mRing Half.A ({ half := Half.A, ring := 0, ctag := 1, hb := 0 } : Org).ring fun z' => { z' with session := none }).srg .mbx .A (0x10 + 4 * (3 - 1)) 0x4010).withKey (wkey 0x4010 3), { half := Half.A, ring := 0, ctag := 1, hb := 0 }, 3, 0, 0, by unfold RunsHere; decide +kernel⟩,
    ⟨site.srf .mbx Half.A 0 18 16 0, { half := Half.A, ring := 28, ctag := 1, hb := 0 }, 3, 0, 0, by unfold RunsHere; decide +kernel⟩,
    ⟨(site.srf .mbx Half.A 0 18 16 3).mRing Half.A ({ half := Half.A, ring := 0, ctag := 1, hb := 0 } : Org).ring fun z' => { z' with session := none }, { half := Half.A, ring := 0, ctag := 1, hb := 0 }, 6, 0, 3, by unfold RunsHere; decide +kernel⟩,
    ⟨sSessionsAndInfo4, { half := Half.A, ring := 0, ctag := 1, hb := 0 }, 0, 0, sessionProof (sSessionsAndInfo4.credential ({ half := Half.A, ring := 0, ctag := 1, hb := 0 } : Org).half ({ ({ sid := 1, role := 3, hnonce := 1, dnonce := 2, tick := 100000 } : OpenReq) with sid := 0 } : OpenReq).role) ({ half := Half.A, ring := 0, ctag := 1, hb := 0 } : Org).half ({ half := Half.A, ring := 0, ctag := 1, hb := 0 } : Org).ring ({ ({ sid := 1, role := 3, hnonce := 1, dnonce := 2, tick := 100000 } : OpenReq) with sid := 0 } : OpenReq), { ({ sid := 1, role := 3, hnonce := 1, dnonce := 2, tick := 100000 } : OpenReq) with sid := 0 }, by unfold RunsHere; decide +kernel⟩,
    ⟨((((site.srf .mbx Half.A 0 18 16 0).mRing Half.A ({ half := Half.A, ring := 0, ctag := 1, hb := 0 } : Org).ring fun z' => { z' with session := none }).mRing Half.A ({ half := Half.A, ring := 0, ctag := 1, hb := 0 } : Org).ring fun z' => { z' with opening := some ({ ({ sid := 1, role := 3, hnonce := 1, dnonce := 2, tick := 100000 } : OpenReq) with sid := 0 } : OpenReq) }).srg .mbx .A (0x10 + 4 * (({ ({ sid := 1, role := 3, hnonce := 1, dnonce := 2, tick := 100000 } : OpenReq) with sid := 0 } : OpenReq).role - 1)) 0x4010).withKey (wkey 0x4010 3), { half := Half.A, ring := 0, ctag := 1, hb := 0 }, 0, 0, [], { ({ sid := 1, role := 3, hnonce := 1, dnonce := 2, tick := 100000 } : OpenReq) with sid := 0 }, by unfold RunsHere; decide +kernel⟩,
    ⟨(site.srf .mbx Half.A 0 18 16 0).mRing Half.A ({ half := Half.A, ring := 28, ctag := 1, hb := 0 } : Org).ring fun z' => { z' with session := some ({ sid := 1, role := 3, sk := 0x4010 } : Session) }, { half := Half.A, ring := 28, ctag := 1, hb := 0 }, 0, { sid := 1, role := 3, sk := 0x4010 }, by unfold RunsHere; decide +kernel⟩,
    ⟨(site.mRing Half.A 0 fun z' => { z' with opening := some ({ sid := 1, role := 3, hnonce := 1, dnonce := 2, tick := 100000 } : OpenReq) }).mTck Half.A fun y => { y with tick := 300000 }, Half.A, 0, { sid := 1, role := 3, hnonce := 1, dnonce := 2, tick := 100000 }, by decide +kernel⟩,
    ⟨(site.mRing Half.A 0 fun z' => { z' with session := some ({ sid := 1, role := 3, sk := 0x4010 } : Session) }).srf .mbx Half.A 0 15 0 1, Half.A, 0, { sid := 1, role := 3, sk := 0x4010 }, by decide +kernel⟩,
    ⟨site, Half.A, 3, by decide +kernel⟩⟩

/-- Every hypothesis of ConfigurationVerbs is met, clause by clause. -/
theorem Sys2Proof.Tests.witness_ConfigurationVerbs :
    (∃ (s : State) (o : Org) (b : Blk) (off : Nat) (n : Nat) (x : Half) (r : Nat), RunsAt s o (cfgOpc b 0xF0) x r ∧ b ≠ .loc ∧ b ≠ .mbx ∧ r ∈ rNotPublic ∧ inMap b off n = true ∧ n ≤ 6) ∧
    (∃ (s : State) (o : Org) (b : Blk) (off : Nat) (n : Nat) (x : Half) (r : Nat), RunsAt s o (cfgOpc b 0xF0) x r ∧ b ≠ .loc ∧ b ≠ .mbx ∧ r ∈ rNotPublic ∧ inMap b off n = false) ∧
    (∃ (s : State) (o : Org) (b : Blk) (off : Nat) (x : Half) (r : Nat), RunsAt s o (cfgOpc b 0xF1) x r ∧ b ≠ .loc ∧ b ≠ .mbx ∧ r ∈ rNotPublic ∧ inMap b off 1 = true) ∧
    (∃ (s : State) (o : Org) (b : Blk) (off : Nat) (ws : List Word) (x : Half) (r : Nat), RunsAt s o (cfgOpc b 0xF2) x r ∧ b ≠ .loc ∧ b ≠ .mbx ∧ r ∈ rNotPublic ∧ ((cfgWords b off ws).all fun e => decide (r ∈ (s.start o (cfgOpc b 0xF2) r (some x)).wordRoles e.1 x e.2.1)) = true ∧ inMap b off ws.length = true ∧ ((cfgWords b off ws).findSome? fun e => (s.start o (cfgOpc b 0xF2) r (some x)).wordRefusal o e.1 x e.2.1 e.2.2) = none) ∧
    (∃ (s : State) (o : Org) (b : Blk) (off : Nat) (ws : List Word) (x : Half) (r : Nat), RunsAt s o (cfgOpc b 0xF2) x r ∧ b ≠ .loc ∧ b ≠ .mbx ∧ r ∈ rNotPublic ∧ ((cfgWords b off ws).all fun e => decide (r ∈ (s.start o (cfgOpc b 0xF2) r (some x)).wordRoles e.1 x e.2.1)) = true ∧ inMap b off ws.length = false) ∧
    (∃ (s : State) (o : Org) (b : Blk) (x : Half) (r : Nat), RunsAt s o (cfgOpc b 0xF3) x r ∧ b ≠ .loc ∧ b ≠ .mbx ∧ r ∈ commitRoles b ∧ (commitOff b).isSome = true ∧ s.flashFull x (128 * (s.shadow.filter fun e => keyBlk e.1 == blkKey b x).length) = false) ∧
    (∃ (s : State) (o : Org) (b : Blk) (x : Half) (r : Nat), RunsAt s o (cfgOpc b 0xF4) x r ∧ b ≠ .loc ∧ b ≠ .mbx ∧ r ∈ commitRoles b ∧ (commitOff b).isSome = true ∧ (s.blk b x).st ≠ 1) ∧
    (∃ (s : State) (o : Org) (b : Blk) (x : Half) (r : Nat), RunsAt s o (cfgOpc b 0xF4) x r ∧ b ≠ .loc ∧ b ≠ .mbx ∧ r ∈ commitRoles b ∧ (commitOff b).isSome = true ∧ (s.blk b x).st = 1) ∧
    (∃ (s : State) (o : Org) (b : Blk) (off : Nat) (x : Half) (r : Nat), RunsAt s o (cfgOpc b 0xF5) x r ∧ b ≠ .loc ∧ b ≠ .mbx ∧ b ≠ .can ∧ r ∈ rNotPublic ∧ r ∈ cntRoles b off ∧ inMap b off 1 = true ∧ (regInfo b x off).cnt = true ∧ ((b = .nlk → off < 0x1400 → (s.port x (off / 0x40)).pstate ≠ 5))) ∧
    (∃ (s : State) (o : Org) (off : Nat) (x : Half) (r : Nat), RunsAt s o (cfgOpc .nlk 0xF5) x r ∧ r ∈ rNotPublic ∧ r ∈ cntRoles .nlk off ∧ inMap .nlk off 1 = true ∧ off < 0x1400 ∧ (s.port x (off / 0x40)).pstate = 5) ∧
    (∃ (s : State) (o : Org) (b : Blk) (x : Half) (r : Nat), RunsAt s o (cfgOpc b 0xF6) x r ∧ b ≠ .loc ∧ b ≠ .mbx ∧ r ∈ rNotPublic ∧ (commitOff b).isSome = true) :=
   ⟨⟨site.srf .mbx Half.A 0 18 16 1, { half := Half.A, ring := 28, ctag := 1, hb := 0 }, Blk.tck, 0, 1, Half.A, 1, by unfold RunsAt; decide +kernel⟩,
    ⟨site.srf .mbx Half.A 0 18 16 1, { half := Half.A, ring := 28, ctag := 1, hb := 0 }, Blk.tck, 0, 0, Half.A, 1, by unfold RunsAt; decide +kernel⟩,
    ⟨site.srf .mbx Half.A 0 18 16 1, { half := Half.A, ring := 28, ctag := 1, hb := 0 }, Blk.tck, 0, Half.A, 1, by unfold RunsAt; decide +kernel⟩,
    ⟨site.srf .mbx Half.A 0 18 16 3, { half := Half.A, ring := 28, ctag := 1, hb := 0 }, Blk.tck, 0, [5], Half.A, 3, by unfold RunsAt; decide +kernel⟩,
    ⟨site.srf .mbx Half.A 0 18 16 1, { half := Half.A, ring := 28, ctag := 1, hb := 0 }, Blk.tck, 0, [], Half.A, 1, by unfold RunsAt; decide +kernel⟩,
    ⟨site.srf .mbx Half.A 0 18 16 3, { half := Half.A, ring := 28, ctag := 1, hb := 0 }, Blk.tck, Half.A, 3, by unfold RunsAt; decide +kernel⟩,
    ⟨(site.mBlk (Blk.tck : Blk) Half.A fun z' => { z' with st := 2 }).srf .mbx Half.A 0 18 16 3, { half := Half.A, ring := 28, ctag := 1, hb := 0 }, Blk.tck, Half.A, 3, by unfold RunsAt; decide +kernel⟩,
    ⟨(site.srf .mbx Half.A 0 18 16 3).mBlk (Blk.tck : Blk) Half.A fun z' => { z' with st := 1 }, { half := Half.A, ring := 28, ctag := 1, hb := 0 }, Blk.tck, Half.A, 3, by unfold RunsAt; decide +kernel⟩,
    ⟨site.srf .mbx Half.A 0 18 16 1, { half := Half.A, ring := 28, ctag := 1, hb := 0 }, Blk.nlk, 16, .A, 1, by unfold RunsAt; decide +kernel⟩,
    ⟨(site.srf .mbx Half.A 0 18 16 1).mPort Half.A (0 / 0x40) fun z' => { z' with pstate := 5 }, { half := Half.A, ring := 28, ctag := 1, hb := 0 }, 0, Half.A, 1, by unfold RunsAt; decide +kernel⟩,
    ⟨site.srf .mbx Half.A 0 18 16 1, { half := Half.A, ring := 28, ctag := 1, hb := 0 }, Blk.tck, Half.A, 1, by unfold RunsAt; decide +kernel⟩⟩

/-- Every hypothesis of DirectWrites is met, clause by clause. -/
theorem Sys2Proof.Tests.witness_DirectWrites :
    (∃ (s : State) (b : Blk) (h : Half) (off : Nat) (v : Word), (b ≠ .mbx ∨ off < 0x1000 ∨ 0x2000 ≤ off)) ∧
    (∃ (s : State) (h : Half) (n : Nat) (v : Word), n < 28 ∧ s.ringEth h n = false) ∧
    (∃ (s : State) (h : Half) (off : Nat) (v : Word), inDram off = true ∧ off % 4 = 0) ∧
    (∃ (s : State) (h : Half) (off : Nat) (v : Word), inFlash off = true ∧ off % 4 = 0) ∧
    (∃ (s : State) (b : Blk) (h : Half) (off : Nat) (v : Word), (inPartMap b off = false ∨ (inFlash off = false ∧ inDram off = false ∧ off % 4 ≠ 0))) ∧
    (∃ (s : State) (b : Blk) (h : Half) (off : Nat) (v : Word), commitOff b = some off) ∧
    (∃ (s : State) (h : Half) (bit : Nat) (off : Nat) (op : Nat), (32 ≤ bit ∨ 0x10000 ≤ off ∨ off % 4 ≠ 0)) ∧
    (∃ (s : State) (h : Half) (bit : Nat) (a : Nat) (op : Nat) (w : Word), bit < 32 ∧ a < 0x100 ∧ a % 4 = 0 ∧ aliasWord (regInfo .gpio .A a) (s.rg .gpio .A a) bit op = some w) ∧
    (∃ (s : State) (h : Half) (bit : Nat) (a : Nat) (op : Nat), s.ref.token = some h ∧ bit < 32 ∧ (a = 0 ∨ a = 4) ∧ op % 4 < 3) ∧
    (∃ (s : State) (h : Half) (bit : Nat) (a : Nat) (op : Nat), s.ref.token ≠ some h ∧ bit < 32 ∧ a < 0x100 ∧ a % 4 = 0) :=
   ⟨⟨site, Blk.tck, Half.A, 0, 0x00000000#32, by decide +kernel⟩,
    ⟨(fun s : State => (s).srf .mbx Half.A (ringOff 0) 30 30 (Bool.toNat (false))) site, Half.A, 0, 0x00000000#32, by decide +kernel⟩,
    ⟨site, Half.A, 0x40000000, 0x00000000#32, by decide +kernel⟩,
    ⟨site, Half.A, 0x20000000, 0x00000000#32, by decide +kernel⟩,
    ⟨site, Blk.tck, Half.A, 0, 0x00000000#32, by decide +kernel⟩,
    ⟨site, Blk.tck, Half.A, (commitOff Blk.tck).getD 0, 0x00000000#32, by decide +kernel⟩,
    ⟨site, Half.A, 0, 1, 0, by decide +kernel⟩,
    ⟨site, Half.A, 0, 0, 0, (aliasWord (regInfo .gpio .A 0) (site.rg .gpio .A 0) 0 0).getD 0, by decide +kernel⟩,
    ⟨site, Half.A, 0, 0, 0, by decide +kernel⟩,
    ⟨site, Half.B, 0, 0, 0, by decide +kernel⟩⟩

def Sys2Proof.Tests.sPointVerbs0 : State := (site.srf .mbx Half.A 0 18 16 0).mh Half.A fun y => { y with pts := [(0, some wpt)] }
def Sys2Proof.Tests.sPointVerbs3 : State := (site.srf .mbx Half.A 0 18 16 0).mh Half.A fun y => { y with pts := [(0, some { wpt with typ := 7, val := .bytes [1, 2] })] }
def Sys2Proof.Tests.sPointVerbs5 : State := (site.srf .mbx Half.A 0 18 16 0).mh Half.A fun y => { y with pts := [(0, some wpt)] }
def Sys2Proof.Tests.sPointVerbs8 : State := (site.srf .mbx .A 0 18 16 3).mMbx .A fun y => { y with subs := [wsub] }
def Sys2Proof.Tests.sPointVerbs9 : State := site.mMbx Half.A fun y => { y with subs := [wsub] }
def Sys2Proof.Tests.sPointVerbs10 : State := (((site.srf .mbx .A 0 18 16 3).srg .mbx .A (ringOff 60) 0x80300000).srg .mbx .A (ringOff 60 + 0x20) 3).mh .A fun y => { y with pts := [(0, some wpt)], mbx.subs := [{ wsub with ids := [1 * 2 ^ 25] }] }

/-- Every hypothesis of PointVerbs is met, clause by clause. -/
theorem Sys2Proof.Tests.witness_PointVerbs :
    (∃ (s : State) (o : Org) (id : Nat) (x : Half) (r : Nat) (p : Slot), RunsAt s o 0x0201 x r ∧ r ∈ rAny ∧ s.pointCheck x r id false = stOk ∧ s.pointAt x (idIndex id) = some p ∧ p.restoring = false ∧ p.scalar = true) ∧
    (∃ (s : State) (o : Org) (id : Nat) (x : Half) (r : Nat), RunsAt s o 0x0201 x r ∧ r ∈ rAny ∧ s.pointCheck x r id false ≠ stOk) ∧
    (∃ (s : State) (o : Org) (id : Nat) (x : Half) (r : Nat), RunsAt s o 0x0201 x r ∧ r ∈ rAny ∧ s.pointCheck x r id false = stOk ∧ s.restoringAt x id = true) ∧
    (∃ (s : State) (o : Org) (id : Nat) (x : Half) (r : Nat) (p : Slot), RunsAt s o 0x0201 x r ∧ r ∈ rAny ∧ s.pointCheck x r id false = stOk ∧ s.pointAt x (idIndex id) = some p ∧ p.restoring = false ∧ p.scalar = false ∧ Room s o (p.bytes id).length) ∧
    (∃ (s : State) (o : Org) (ids : List Nat) (x : Half) (r : Nat) (k : Nat) (id : Nat), RunsAt s o 0x0202 x r ∧ r ∈ rAny ∧ 1 ≤ ids.length ∧ ids.length ≤ 256 ∧ ids.zipIdx.find? (fun e => s.pointCheck x r e.1 false != stOk) = some (id, k)) ∧
    (∃ (s : State) (o : Org) (id : Nat) (x : Half) (r : Nat) (p : Slot), RunsAt s o 0x0202 x r ∧ r ∈ rAny ∧ s.pointCheck x r id false = stOk ∧ s.pointAt x (idIndex id) = some p ∧ p.restoring = false) ∧
    (∃ (s : State) (o : Org) (id : Nat) (typ : Nat) (v : Nat) (x : Half) (r : Nat) (p : Slot) (i : Int), RunsAt s o 0x0203 x r ∧ r ∈ rAny ∧ s.pointCheck x r id true = stOk ∧ look none (s.hf x).pts (idIndex id) = some p ∧ scalarValue typ v = some i ∧ p.typ = typ ∧ p.scalar = true) ∧
    (∃ (s : State) (o : Org) (ring : Nat) (period : Nat) (ids : List Nat) (r : Nat), RunsHere s o 0x0204 r ∧ r ∈ rAny ∧ 32 ≤ ring ∧ ring ≤ 63 ∧ 20 ≤ period ∧ period ≤ 65535 ∧ 1 ≤ ids.length ∧ ids.length ≤ 256 ∧ (∀ id ∈ ids, s.pointCheck o.half r id false = stOk) ∧ s.ringEn o.half ring = true ∧ s.evRole o.half ring = some r ∧ ((s.hf o.half).mbx.subs.map fun b => b.ids.length).sum + ids.length ≤ 4096) ∧
    (∃ (s : State) (o : Org) (k : Nat) (r : Nat) (b : Subscr), RunsHere s o 0x0205 r ∧ r ∈ rAny ∧ (s.hf o.half).mbx.subs.find? (fun b => b.id = k) = some b ∧ b.role = r) ∧
    (∃ (s : State) (h : Half) (k : Nat) (b : Subscr), (s.hf h).mbx.subs.find? (fun b => b.id = k) = some b ∧ s.ringEn h b.ring = false) ∧
    (∃ (s : State) (h : Half) (k : Nat) (id : Nat) (b : Subscr) (p : Slot), (s.hf h).mbx.subs.find? (fun b => b.id = k) = some b ∧ s.ringEn h b.ring = true ∧ s.evRole h b.ring = some b.role ∧ b.since < s.tick h ∧ (s.tick h - b.since) % b.period = 0 ∧ b.ids = [id] ∧ s.pointAt h (idIndex id) = some p ∧ p.restoring = false ∧ (id, p.wseq, p.flags) ∉ b.seen ∧ s.ringEth h b.ring = false ∧ 0 < s.ringFree h b.ring ∧ (s.ring h b.ring).lost = 0) ∧
    (∃ (s : State) (h : Half) (r : EventRec) (l : List EventRec), (s.hf h).mbx.events = r :: l ∧ (∀ n < 64, s.ringEn h n = false) ∧ (∀ n < 64, (s.ring h n).held = []) ∧ s.charge ≠ some h) :=
   ⟨⟨sPointVerbs0, { half := Half.A, ring := 28, ctag := 1, hb := 0 }, 1 * 2 ^ 25, Half.A, 0, (sPointVerbs0.pointAt Half.A (idIndex (1 * 2 ^ 25 : Nat))).getD { typ := 0, val := .int 0 }, by unfold RunsAt; decide +kernel⟩,
    ⟨site.srf .mbx Half.A 0 18 16 0, { half := Half.A, ring := 28, ctag := 1, hb := 0 }, 0, Half.A, 0, by unfold RunsAt; decide +kernel⟩,
    ⟨(site.srf .mbx Half.A 0 18 16 0).mh Half.A fun y => { y with pts := [(0, some { wpt with restoring := true })] }, { half := Half.A, ring := 28, ctag := 1, hb := 0 }, 1 * 2 ^ 25, Half.A, 0, by unfold RunsAt; decide +kernel⟩,
    ⟨sPointVerbs3, { half := Half.A, ring := 28, ctag := 1, hb := 0 }, 1 * 2 ^ 25, Half.A, 0, (sPointVerbs3.pointAt Half.A (idIndex (1 * 2 ^ 25 : Nat))).getD { typ := 0, val := .int 0 }, by unfold RunsAt Room; decide +kernel⟩,
    ⟨(site.srf .mbx Half.A 0 18 16 0).mh Half.A fun y => { y with pts := [(0, some wpt)] }, { half := Half.A, ring := 28, ctag := 1, hb := 0 }, [1 * 2 ^ 25, 5], Half.A, 0, 1, 5, by unfold RunsAt; decide +kernel⟩,
    ⟨sPointVerbs5, { half := Half.A, ring := 28, ctag := 1, hb := 0 }, 1 * 2 ^ 25, Half.A, 0, (sPointVerbs5.pointAt Half.A (idIndex (1 * 2 ^ 25 : Nat))).getD { typ := 0, val := .int 0 }, by unfold RunsAt; decide +kernel⟩,
    ⟨(fun s : State => s.mh Half.A fun z' => { z' with pts := Machine.put none (s.hf Half.A).pts (idIndex (2 * 2 ^ 25 + 0x400000 : Nat)) (some ({ wpt with typ := 3 } : Slot)) }) (site.srf .mbx Half.A 0 18 16 0), { half := Half.A, ring := 28, ctag := 1, hb := 0 }, 2 * 2 ^ 25 + 0x400000, 3, 0, Half.A, 0, { wpt with typ := 3 }, (scalarValue 3 0).getD 0, by unfold RunsAt; decide +kernel⟩,
    ⟨(((site.srf .mbx .A 0 18 16 3).srg .mbx .A (ringOff 60) 0x80300000).mh .A fun y => { y with pts := [(0, some wpt)] }), { half := Half.A, ring := 28, ctag := 1, hb := 0 }, 60, 20, [1 * 2 ^ 25], 3, by unfold RunsHere; decide +kernel⟩,
    ⟨sPointVerbs8, { half := Half.A, ring := 28, ctag := 1, hb := 0 }, 1, 3, ((sPointVerbs8.hf ({ half := Half.A, ring := 28, ctag := 1, hb := 0 } : Org).half).mbx.subs.find? (fun b => b.id = 1)).getD { id := 1, ring := 60, role := 3, cmdRing := 28, period := 20, since := 0, ids := [], seen := [] }, by unfold RunsHere; decide +kernel⟩,
    ⟨sPointVerbs9, Half.A, 1, ((sPointVerbs9.hf Half.A).mbx.subs.find? (fun b => b.id = 1)).getD { id := 1, ring := 60, role := 3, cmdRing := 28, period := 20, since := 0, ids := [], seen := [] }, by decide +kernel⟩,
    ⟨sPointVerbs10, .A, 1, 1 * 2 ^ 25, ((sPointVerbs10.hf (.A : Half)).mbx.subs.find? (fun b => b.id = 1)).getD { id := 1, ring := 60, role := 3, cmdRing := 28, period := 20, since := 0, ids := [], seen := [] }, (sPointVerbs10.pointAt (.A : Half) (idIndex (1 * 2 ^ 25 : Nat))).getD { typ := 0, val := .int 0 }, by decide +kernel⟩,
    ⟨(fun s : State => (List.range 64).foldl (fun s n => s.srf .mbx .B (ringOff n) 31 31 0) s) (site.mh (.B : Half) fun z' => { z' with mbx.events := ({ seq := 0, origin := 0, sev := 0, code := 1, tick := 0, detail := [] } : EventRec) :: ([] : List EventRec) }), .B, { seq := 0, origin := 0, sev := 0, code := 1, tick := 0, detail := [] }, [], by decide +kernel⟩⟩

/-- Every hypothesis of TickEdgesAndSnapshots is met, clause by clause. -/
theorem Sys2Proof.Tests.witness_TickEdgesAndSnapshots :
    (∃ (s : State) (h : Half), (s.hf h).twn.booted = true ∧ (s.hf h).twn.held = false ∧ (s.hf h).tck.tickSet = true ∧ (s.hf h).tck.step = none ∧ s.upd.act = none) ∧
    (∃ (s : State) (h : Half), ((s.hf h).twn.booted = false ∨ (s.hf h).twn.held = true ∨ (s.hf h).tck.tickSet = false)) ∧
    (∃ (s : State) (h : Half) (i : Nat) (v : Int), (s.hf h).twn.booted = true ∧ (s.hf h).twn.held = false ∧ (s.hf h).tck.tickSet = true ∧ (s.hf h).tck.step = none ∧ s.upd.act = none ∧ (s.hf h).stg = [(i, { s.stage h i with pend := some v })]) ∧
    (∃ (s : State) (h : Half) (r : Bool), (s.charge ≠ some h ∨ (s.twinUp h = true ∧ r = false))) ∧
    (∃ (s : State) (h : Half) (r : Bool), s.charge = some h ∧ ((s.twinUp h = true → r = true))) ∧
    (∃ (s : State) (h : Half), (s.hf h).cln.cmds = []) ∧
    (∃ (s : State) (h : Half) (k : Nat) (f : UpFrame), (s.hf h).cln.cmds = [] ∧ s.charge = some h ∧ k < 48 ∧ (s.port h (32 + k)).main = some f ∧ f.tick = s.tick h) :=
   ⟨⟨(fun s : State => { s with upd.act := none }) ((((site.mh Half.A fun z' => { z' with twn.booted := true }).mh Half.A fun z' => { z' with twn.held := false }).mh Half.A fun z' => { z' with tck.tickSet := true }).mh Half.A fun z' => { z' with tck.step := none }), Half.A, by decide +kernel⟩,
    ⟨site.mh Half.A fun z' => { z' with twn.booted := false }, Half.A, by decide +kernel⟩,
    ⟨(fun s : State => s.mh Half.A fun z' => { z' with stg := [(0, { s.stage Half.A 0 with pend := some 0 })] }) ((fun s : State => { s with upd.act := none }) ((((site.mh Half.A fun z' => { z' with twn.booted := true }).mh Half.A fun z' => { z' with twn.held := false }).mh Half.A fun z' => { z' with tck.tickSet := true }).mh Half.A fun z' => { z' with tck.step := none })), Half.A, 0, 0, by decide +kernel⟩,
    ⟨site, Half.A, false, by decide +kernel⟩,
    ⟨site, Half.A, true, by decide +kernel⟩,
    ⟨site.mh Half.A fun z' => { z' with cln.cmds := [] }, Half.A, by decide +kernel⟩,
    ⟨(site.mh Half.A fun z' => { z' with cln.cmds := [] }).mPort Half.A (32 + 0) fun z' => { z' with main := some ({ tick := 100000, claim := 2, echoValid := true, lost := false, bytes := [] } : UpFrame) }, Half.A, 0, { tick := 100000, claim := 2, echoValid := true, lost := false, bytes := [] }, by decide +kernel⟩⟩

def Sys2Proof.Tests.sTimeDiscipline0 : State := ((fun s : State => s.srf .tck Half.A 0 23 16 (s.rf .tck Half.A 0 23 16)) (site.srf .tck Half.A 0 30 30 (Bool.toNat (true)))).mh Half.A fun z' => { z' with tck.tstate := stateFor 0 (true : Bool) }
def Sys2Proof.Tests.sTimeDiscipline1 : State := (fun s : State => s.srf .tck Half.A 0 23 16 (s.rf .tck Half.A 0 23 16)) ((site.mh Half.A fun z' => { z' with tck.tstate := 1 }).srf .tck Half.A 0 30 30 (Bool.toNat (true)))
def Sys2Proof.Tests.sTimeDiscipline2 : State := (((fun s : State => s.srf .tck Half.B 0 23 16 (s.rf .tck Half.B 0 23 16)) (site.srf .tck Half.B 0 30 30 (Bool.toNat (true)))).mh (other Half.B) fun z' => { z' with tck.master := false }).srf .tck (other Half.B) 0 30 30 (Bool.toNat (true))

/-- Every hypothesis of TimeDiscipline is met, clause by clause. -/
theorem Sys2Proof.Tests.witness_TimeDiscipline :
    (∃ (s : State) (h : Half) (dom : Nat) (th : Int) (c : Bool), s.rb .tck h 0 30 = true ∧ dom = s.rf .tck h 0 23 16 ∧ s.disciplines h = true ∧ (s.hf h).tck.tstate = stateFor th c) ∧
    (∃ (s : State) (h : Half) (dom : Nat) (th : Int) (c : Bool), s.rb .tck h 0 30 = true ∧ dom = s.rf .tck h 0 23 16 ∧ s.disciplines h = true ∧ (s.hf h).tck.tstate ≠ stateFor th c) ∧
    (∃ (s : State) (h : Half) (dom : Nat) (th : Int) (c : Bool), s.rb .tck h 0 30 = true ∧ dom = s.rf .tck h 0 23 16 ∧ s.disciplines h = false ∧ s.charge = some (other h) ∧ (s.hf (other h)).tck.master = false ∧ s.rb .tck (other h) 0 30 = true) ∧
    (∃ (s : State) (h : Half) (dom : Nat) (th : Int) (c : Bool), (s.rb .tck h 0 30 = false ∨ dom ≠ s.rf .tck h 0 23 16)) ∧
    (∃ (s : State) (h : Half) (f : Int), s.rb .tck h 0 30 = true ∧ s.disciplines h = true ∧ (s.hf h).tck.tstate ≠ 3 ∧ (s.hf h).tck.tstate ≠ 4 ∧ (s.hf h).tck.freqTick + 320000 ≤ s.tick h) ∧
    (∃ (s : State) (h : Half) (f : Int), (s.rb .tck h 0 30 = false ∨ s.disciplines h = false ∨ (s.hf h).tck.tstate = 3 ∨ (s.hf h).tck.tstate = 4 ∨ s.tick h < (s.hf h).tck.freqTick + 320000)) ∧
    (∃ (s : State) (o : Org) (ns : Int) (x : Half) (r : Nat), RunsAt s o 0x0101 x r ∧ r ∈ [rInstaller, rVendor] ∧ ns % 50000 = 0 ∧ contactorsOpen s x = true ∧ (s.hf x).tck.step = none) ∧
    (∃ (s : State) (o : Org) (ns : Int) (x : Half) (r : Nat), RunsAt s o 0x0101 x r ∧ r ∈ [rInstaller, rVendor] ∧ ns % 50000 = 0 ∧ (contactorsOpen s x = false ∨ (s.hf x).tck.step.isSome = true)) ∧
    (∃ (s : State) (o : Org) (ns : Int) (x : Half) (r : Nat), RunsAt s o 0x0101 x r ∧ r ∈ [rInstaller, rVendor] ∧ ns % 50000 ≠ 0) ∧
    (∃ (s : State) (o : Org) (ns : Int) (x : Half) (r : Nat), RunsAt s o 0x0101 x r ∧ r ∉ [rInstaller, rVendor]) ∧
    (∃ (s : State) (h : Half), (s.hf h).tck.autoWait = true ∧ s.rb .tck h 0 31 = true ∧ s.charge = some h ∧ contactorsOpen s h = true ∧ (s.hf h).tck.step = none) ∧
    (∃ (s : State) (h : Half), s.disciplines h = true ∧ (s.hf h).tck.disc = true ∧ (s.hf h).tck.lastSync + max 40000 (3 * (s.hf h).tck.annTicks) ≤ s.tick h) ∧
    (∃ (s : State) (h : Half), (s.hf h).tck.tstate = 4 ∧ (s.hf h).tck.holdMark < holdErr s h) ∧
    (∃ (s : State) (h : Half), (s.hf h).twn.service = true ∧ s.tick h % 20000 = 0) ∧
    (∃ (s : State) (h : Half), ((s.hf h).twn.service = false ∨ s.tick h % 20000 ≠ 0)) ∧
    (∃ (s : State) (h : Half), (s.hf h).twn.booted = true ∧ s.noService = true ∧ (s.hf h).tck.tickSet = false ∧ (s.hf h).tck.master = false) ∧
    (∃ (s : State) (h : Half) (n : Nat), (s.hf h).twn.booted = true ∧ s.noService = true ∧ (s.hf h).tck.tickSet = false ∧ s.rb .tck h 0 30 = true) :=
   ⟨⟨sTimeDiscipline0, Half.A, sTimeDiscipline0.rf .tck Half.A 0 23 16, 0, true, by decide +kernel⟩,
    ⟨sTimeDiscipline1, Half.A, sTimeDiscipline1.rf .tck Half.A 0 23 16, 0, true, by decide +kernel⟩,
    ⟨sTimeDiscipline2, Half.B, sTimeDiscipline2.rf .tck Half.B 0 23 16, 0, true, by decide +kernel⟩,
    ⟨site.srf .tck Half.A 0 30 30 (Bool.toNat (false)), Half.A, 0, 0, true, by decide +kernel⟩,
    ⟨(((site.mh Half.A fun z' => { z' with tck.tstate := 4 }).mh Half.A fun z' => { z' with tck.tstate := 5 }).srf .tck Half.A 0 30 30 (Bool.toNat (true))).mTck Half.A fun y => { y with tick := 400000, freqTick := 0, tstate := 2, master := true, disc := true }, Half.A, 0, by decide +kernel⟩,
    ⟨site.srf .tck Half.A 0 30 30 (Bool.toNat (false)), Half.A, 0, by decide +kernel⟩,
    ⟨(site.srf .mbx Half.A 0 18 16 3).mh Half.A fun z' => { z' with tck.step := none }, { half := Half.A, ring := 28, ctag := 1, hb := 0 }, 0, Half.A, 3, by unfold RunsAt; decide +kernel⟩,
    ⟨(site.srf .mbx Half.A 0 18 16 3).mTck Half.A fun y => { y with step := some { ticks := 1, edge := 100100, org := none } }, { half := Half.A, ring := 28, ctag := 1, hb := 0 }, 0, Half.A, 3, by unfold RunsAt; decide +kernel⟩,
    ⟨site.srf .mbx Half.A 0 18 16 3, { half := Half.A, ring := 28, ctag := 1, hb := 0 }, 1, Half.A, 3, by unfold RunsAt; decide +kernel⟩,
    ⟨site.srf .mbx Half.A 0 18 16 4, { half := Half.A, ring := 28, ctag := 1, hb := 0 }, 0, Half.A, 4, by unfold RunsAt; decide +kernel⟩,
    ⟨((site.mh Half.A fun z' => { z' with tck.autoWait := true }).srf .tck Half.A 0 31 31 (Bool.toNat (true))).mh Half.A fun z' => { z' with tck.step := none }, Half.A, by decide +kernel⟩,
    ⟨site.mh Half.A fun z' => { z' with tck.disc := true }, Half.A, by decide +kernel⟩,
    ⟨site.mh Half.A fun z' => { z' with tck.tstate := 4 }, Half.A, by decide +kernel⟩,
    ⟨(site.mh Half.A fun z' => { z' with twn.service := true }).mTck Half.A fun z' => { z' with tick := 100000 + 0 }, Half.A, by decide +kernel⟩,
    ⟨site.mh Half.A fun z' => { z' with twn.service := false }, Half.A, by decide +kernel⟩,
    ⟨((((site.mh Half.A fun z' => { z' with twn.booted := true }).mTwn .A fun z' => { z' with service := false }).mTwn .B fun z' => { z' with service := false }).mh Half.A fun z' => { z' with tck.tickSet := false }).mh Half.A fun z' => { z' with tck.master := false }, Half.A, by decide +kernel⟩,
    ⟨((((site.mh Half.A fun z' => { z' with twn.booted := true }).mTwn .A fun z' => { z' with service := false }).mTwn .B fun z' => { z' with service := false }).mh Half.A fun z' => { z' with tck.tickSet := false }).srf .tck Half.A 0 30 30 (Bool.toNat (true)), Half.A, 0, by decide +kernel⟩⟩

/-- Every hypothesis of ClockLossAndRelock is met, clause by clause. -/
theorem Sys2Proof.Tests.witness_ClockLossAndRelock :
    (∃ (s : State) (h : Half), (s.hf h).tck.clksel = 0 ∧ s.twinUp h = true ∧ (s.hf (other h)).tck.clksel = 0 ∧ (s.hf (other h)).tck.locks = 7 ∧ (s.hf h).tck.lossBits = 0) ∧
    (∃ (s : State) (h : Half), (s.hf h).tck.clksel = 0 ∧ s.twinUp h = false ∧ (s.hf h).tck.lossBits = 0 ∧ (s.hf h).twn.unhealthy = false) ∧
    (∃ (s : State) (h : Half), (s.hf h).tck.clksel ≠ 0) ∧
    (∃ (s : State) (h : Half) (n : Nat), n < 3) ∧
    (∃ (s : State) (h : Half), (s.hf h).tck.clksel ≠ 0 ∧ (s.hf h).tck.locks = 7 ∧ ((s.hf (other h)).twn.service = false ∨ (s.hf h).tck.aligned = true)) ∧
    (∃ (s : State) (h : Half), (s.hf h).tck.locks ≠ 7) ∧
    (∃ (s : State), s.halfA.tck.refRun = true ∧ s.pll.ref ≠ 0) ∧
    (∃ (s : State), s.halfA.tck.refRun = false ∧ s.halfB.tck.refRun = false ∧ s.pll.ref ≠ 2) ∧
    (∃ (s : State) (h : Half) (ns : Int) (trim : Int), s.twinUp h = true ∧ s.charge ≠ some h ∧ ns.natAbs ≤ 20) ∧
    (∃ (s : State) (h : Half) (ns : Int) (trim : Int) (n : Nat), s.twinUp h = true ∧ s.charge ≠ some h ∧ 250 < ns.natAbs ∧ ns.natAbs ≤ 32767 ∧ (s.hf h).tck.skewOver = some n ∧ n + 1 = s.tick h ∧ (s.hf h).twn.unhealthy = false) ∧
    (∃ (s : State) (h : Half) (ns : Int) (trim : Int), s.twinUp h = true ∧ s.charge = some h ∧ (s.hf h).tck.clksel ≠ 0) ∧
    (∃ (s : State) (h : Half) (ns : Int) (trim : Int), (s.twinUp h = false ∨ (s.charge = some h ∧ (s.hf h).tck.clksel = 0))) :=
   ⟨⟨((((site.mh Half.A fun z' => { z' with tck.clksel := 0 }).mTwn Half.A fun z' => { z' with up := true }).mh (other Half.A) fun z' => { z' with tck.clksel := 0 }).mh (other Half.A) fun z' => { z' with tck.locks := 7 }).mh Half.A fun z' => { z' with tck.lossBits := 0 }, Half.A, by decide +kernel⟩,
    ⟨(((site.mh Half.A fun z' => { z' with tck.clksel := 0 }).mTwn Half.A fun z' => { z' with up := false }).mh Half.A fun z' => { z' with tck.lossBits := 0 }).mh Half.A fun z' => { z' with twn.unhealthy := false }, Half.A, by decide +kernel⟩,
    ⟨site.mh Half.A fun z' => { z' with tck.clksel := 1 }, Half.A, by decide +kernel⟩,
    ⟨site, Half.A, 0, by decide +kernel⟩,
    ⟨((site.mh Half.A fun z' => { z' with tck.clksel := 1 }).mh (other Half.A) fun z' => { z' with twn.service := false }).mh Half.A fun z' => { z' with tck.locks := 7 }, Half.A, by decide +kernel⟩,
    ⟨site.mh Half.A fun z' => { z' with tck.locks := 8 }, Half.A, by decide +kernel⟩,
    ⟨((fun s : State => { s with pll.ref := 1 }) site).mh .A fun z' => { z' with tck.refRun := true }, by decide +kernel⟩,
    ⟨(((fun s : State => { s with pll.ref := 3 }) site).mh .A fun z' => { z' with tck.refRun := false }).mh .B fun z' => { z' with tck.refRun := false }, by decide +kernel⟩,
    ⟨site.mTwn Half.B fun z' => { z' with up := true }, Half.B, 0, 0, by decide +kernel⟩,
    ⟨((site.mTwn Half.B fun z' => { z' with up := true }).mh Half.B fun z' => { z' with tck.skewOver := some 99999 }).mh Half.B fun z' => { z' with twn.unhealthy := false }, Half.B, 251, 0, 99999, by decide +kernel⟩,
    ⟨(site.mh Half.A fun z' => { z' with tck.clksel := 1 }).mTwn Half.A fun z' => { z' with up := true }, Half.A, 0, 0, by decide +kernel⟩,
    ⟨site.mTwn Half.A fun z' => { z' with up := false }, Half.A, 0, 0, by decide +kernel⟩⟩

def Sys2Proof.Tests.sRefereeAndToken4 : State := (((fun s : State => { s with ho := none }) site).mh Half.A fun z' => { z' with twn.acting := true }).mTwn Half.A fun y => { y with booted := false }

/-- Every hypothesis of RefereeAndToken is met, clause by clause. -/
theorem Sys2Proof.Tests.witness_RefereeAndToken :
    (∃ (s : State) (h : Half) (early : Bool), (s.rebase h).raiseRefusal h false false = none) ∧
    (∃ (s : State) (h : Half) (early : Bool) (n : Nat), (s.rebase h).raiseRefusal h false false = some n) ∧
    (∃ (s : State) (h : Half) (e : Nat), s.ref.reqs = [{ half := h, edge := e }] ∧ e ≤ s.tick h ∧ s.silent16 h = false ∧ s.raiseRefusal h false false = none) ∧
    (∃ (s : State) (h : Half), s.ref.reqs.find? (fun r => r.half == h) = none) ∧
    (∃ (s : State) (x : Half) (n : Nat), s.ref.token = some x ∧ releaseCause s x = some n ∧ s.ho = none ∧ (s.hf x).twn.acting = true) ∧
    (∃ (s : State) (x : Half), s.ref.token = some x ∧ releaseCause s x = none) ∧
    (∃ (s : State) (x : Half), s.ref.token = some x ∧ s.ho = none ∧ (s.hf x).twn.acting = true) ∧
    (∃ (s : State) (r : Relinquish), s.ref.rel = some r ∧ r.edge ≤ s.tick r.from_ ∧ r.from_ = other r.dst ∧ s.raiseRefusal r.dst true true = none ∧ s.ho = none ∧ s.silent16 r.dst = false) ∧
    (∃ (s : State), s.ref.rel = none) ∧
    (∃ (s : State) (x : Half), s.ref.token = some x ∧ s.twinUp x = false ∧ servicePorts s x < servicePorts s (other x) ∧ (s.ref.ports = 0 ∨ s.ref.portsAt ≠ s.tick x) ∧ ¬ (s.ref.portsAt + 1 = s.tick x ∧ 199 ≤ s.ref.ports)) ∧
    (∃ (s : State) (x : Half), s.ref.token = some x ∧ s.twinUp x = false ∧ servicePorts s x < servicePorts s (other x) ∧ s.ref.portsAt + 1 = s.tick x ∧ 199 ≤ s.ref.ports ∧ s.raiseRefusal (other x) false true = none ∧ s.silent16 (other x) = false ∧ s.ho = none) ∧
    (∃ (s : State) (x : Half), s.ref.token = some x ∧ s.twinUp x = true ∧ s.twinUp (other x) = true) ∧
    (∃ (s : State) (h : Half), (s.hf h).twn.pertActive = true ∧ s.rf .twn h 0x40 29 27 = 6 ∧ s.charge = some h) :=
   ⟨⟨(fun s : State => { s with ref.token := none, ref.sent := some 99999 }) site, Half.A, true, by decide +kernel⟩,
    ⟨site, Half.A, true, ((site.rebase Half.A).raiseRefusal Half.A false false).getD 0, by decide +kernel⟩,
    ⟨(fun s : State => { s with ref.token := none, ref.sent := some 99999 }) ((fun s : State => { s with ref.reqs := [{ half := Half.A, edge := 0 }] }) site), Half.A, 0, by decide +kernel⟩,
    ⟨site, Half.A, by decide +kernel⟩,
    ⟨sRefereeAndToken4, Half.A, (releaseCause sRefereeAndToken4 Half.A).getD 0, by decide +kernel⟩,
    ⟨site, Half.A, by decide +kernel⟩,
    ⟨((fun s : State => { s with ho := none }) site).mh Half.A fun z' => { z' with twn.acting := true }, Half.A, by decide +kernel⟩,
    ⟨(fun s : State => { s with ref.sent := some 99999 }) ((fun s : State => { s with ho := none }) ((fun s : State => { s with ref.rel := some ({ from_ := .A, dst := .B, edge := 0 } : Relinquish) }) site)), { from_ := .A, dst := .B, edge := 0 }, by decide +kernel⟩,
    ⟨(fun s : State => { s with ref.rel := none }) site, by decide +kernel⟩,
    ⟨(((fun s : State => { s with ref.ports := 0 }) site).mTwn Half.A fun z' => { z' with up := false }).mPort (other Half.A) 0 fun q => { q with pstate := 4 }, Half.A, by decide +kernel⟩,
    ⟨(fun s : State => ({ s with ref.ports := 199, ref.portsAt := 99999, ref.sent := some 99999 }).mPort (other Half.A) 0 fun q => { q with pstate := 4 }) ((fun s : State => { s with ho := none }) (((fun s : State => { s with ref.ports := 199 }) site).mTwn Half.A fun z' => { z' with up := false })), Half.A, by decide +kernel⟩,
    ⟨(site.mTwn Half.A fun z' => { z' with up := true }).mTwn (other Half.A) fun z' => { z' with up := true }, Half.A, by decide +kernel⟩,
    ⟨(site.mh Half.A fun z' => { z' with twn.pertActive := true }).srf .twn Half.A 0x40 29 27 (6), Half.A, by decide +kernel⟩⟩

/-- Every hypothesis of TwinLinkAndHandover is met, clause by clause. -/
theorem Sys2Proof.Tests.witness_TwinLinkAndHandover :
    (∃ (s : State) (h : Half) (b : Heartbeat), (s.hf (other h)).twn.hbOut = some b ∧ (s.hf h).twn.hbTick + 1 = s.tick h ∧ (s.hf h).twn.hbGood < 15 ∧ (s.hf h).twn.up = false ∧ ¬ ((s.hf h).twn.claim < b.claim ∧ b.token = true)) ∧
    (∃ (s : State) (h : Half) (b : Heartbeat), (s.hf (other h)).twn.hbOut = some b ∧ (s.hf h).twn.hbTick + 1 = s.tick h ∧ 15 ≤ (s.hf h).twn.hbGood ∧ ¬ ((s.hf h).twn.claim < b.claim ∧ b.token = true)) ∧
    (∃ (s : State) (h : Half) (b : Heartbeat), (s.hf (other h)).twn.hbOut = some b ∧ (s.hf h).twn.hbTick + 1 ≠ s.tick h ∧ ¬ ((s.hf h).twn.claim < b.claim ∧ b.token = true)) ∧
    (∃ (s : State) (h : Half) (b : Heartbeat), (s.hf (other h)).twn.hbOut = some b ∧ (s.hf h).twn.claim < b.claim ∧ b.token = true ∧ (s.hf h).twn.acting = true) ∧
    (∃ (s : State) (h : Half) (b : Heartbeat), (s.hf (other h)).twn.hbOut = some b) ∧
    (∃ (s : State) (h : Half), (s.hf h).twn.up = true ∧ (s.hf h).twn.hbTick + 2 ≤ s.tick h) ∧
    (∃ (s : State) (h : Half), s.tick h < (s.hf h).twn.hbTick + 2) ∧
    (∃ (s : State) (g : Half), s.charge = some g ∧ s.ho = none ∧ preferred s (other g) = some (other g) ∧ (s.hf (other g)).twn.clean = true ∧ (s.hf (other g)).twn.cleanSince + 20000 * s.rf .twn (other g) 0 25 16 ≤ s.tick (other g)) ∧
    (∃ (s : State) (g : Half), s.charge = some g ∧ preferred s (other g) ≠ some (other g)) ∧
    (∃ (s : State) (o : Org) (n : Nat) (r : Nat) (x : Half), RunsAt s o 0x0301 x r ∧ r ∈ [rInstaller, rVendor] ∧ halfOf n = some (other x) ∧ s.ref.e < 0x7FFF ∧ s.raiseRefusal (other x) true true = none ∧ s.ho = none) ∧
    (∃ (s : State) (o : Org) (n : Nat) (r : Nat) (x : Half), RunsAt s o 0x0301 x r ∧ r ∈ [rInstaller, rVendor] ∧ halfOf n ≠ some (other x)) ∧
    (∃ (s : State) (o : Org) (n : Nat) (r : Nat) (x : Half), RunsAt s o 0x0301 x r ∧ r ∈ [rInstaller, rVendor] ∧ halfOf n = some (other x) ∧ 0x7FFF ≤ s.ref.e) ∧
    (∃ (s : State) (x : Handover), s.ho = some x ∧ x.phase = 0) ∧
    (∃ (s : State) (x : Handover), s.ho = some x ∧ x.phase = 1 ∧ handoverQuiet s (other x.dst) = true) ∧
    (∃ (s : State) (x : Handover), s.ho = some x ∧ x.phase = 1 ∧ handoverQuiet s (other x.dst) = false) ∧
    (∃ (s : State) (x : Handover), s.ho = some x ∧ x.phase = 2) ∧
    (∃ (s : State) (x : Handover), s.ho = some x ∧ x.phase ≤ 2 ∧ x.tick + 4000 ≤ s.tick (other x.dst) ∧ x.org = none) ∧
    (∃ (s : State) (x : Handover), s.ho = some x ∧ x.phase = 3) :=
   ⟨⟨(((site.mh Half.A fun z' => { z' with twn.hbGood := 14 }).mh (other Half.A) fun z' => { z' with twn.hbOut := some ({ tick := 100000, claim := 2, health := 0, token := true, gen := 0, handover := false } : Heartbeat) }).mh Half.A fun z' => { z' with twn.up := false }).mTwn Half.A fun y => { y with hbTick := 99999 }, Half.A, { tick := 100000, claim := 2, health := 0, token := true, gen := 0, handover := false }, by decide +kernel⟩,
    ⟨((site.mh Half.A fun z' => { z' with twn.hbGood := 15 }).mh (other Half.A) fun z' => { z' with twn.hbOut := some ({ tick := 100000, claim := 2, health := 0, token := true, gen := 0, handover := false } : Heartbeat) }).mTwn Half.A fun y => { y with hbTick := 99999, hbGood := 15 }, Half.A, { tick := 100000, claim := 2, health := 0, token := true, gen := 0, handover := false }, by decide +kernel⟩,
    ⟨site.mh (other Half.A) fun z' => { z' with twn.hbOut := some ({ tick := 100000, claim := 2, health := 0, token := true, gen := 0, handover := false } : Heartbeat) }, Half.A, { tick := 100000, claim := 2, health := 0, token := true, gen := 0, handover := false }, by decide +kernel⟩,
    ⟨(site.mh (other Half.B) fun z' => { z' with twn.hbOut := some ({ ({ tick := 100000, claim := 2, health := 0, token := true, gen := 0, handover := false } : Heartbeat) with token := true } : Heartbeat) }).mh Half.B fun z' => { z' with twn.acting := true }, Half.B, { ({ tick := 100000, claim := 2, health := 0, token := true, gen := 0, handover := false } : Heartbeat) with token := true }, by decide +kernel⟩,
    ⟨site.mh (other Half.A) fun z' => { z' with twn.hbOut := some ({ tick := 100000, claim := 2, health := 0, token := true, gen := 0, handover := false } : Heartbeat) }, Half.A, { tick := 100000, claim := 2, health := 0, token := true, gen := 0, handover := false }, by decide +kernel⟩,
    ⟨site.mh Half.A fun z' => { z' with twn.up := true }, Half.A, by decide +kernel⟩,
    ⟨site.mTwn Half.A fun y => { y with hbTick := 100000 }, Half.A, by decide +kernel⟩,
    ⟨((((fun s : State => { s with ho := none }) site).mh (other (.A : Half)) fun z' => { z' with twn.clean := true }).srg .twn .A 0 0x80000000).srg .twn .B 0 0x80000000, .A, by decide +kernel⟩,
    ⟨site, Half.A, by decide +kernel⟩,
    ⟨(fun s : State => { s with ho := none }) (((fun s : State => { s with ref.e := 32766 }) site).srf .mbx Half.A 0 18 16 3), { half := Half.A, ring := 28, ctag := 1, hb := 0 }, 2, 3, Half.A, by unfold RunsAt; decide +kernel⟩,
    ⟨site.srf .mbx Half.A 0 18 16 3, { half := Half.A, ring := 28, ctag := 1, hb := 0 }, 0, 3, Half.A, by unfold RunsAt; decide +kernel⟩,
    ⟨((fun s : State => { s with ref.e := 0x7FFF }) site).srf .mbx Half.A 0 18 16 3, { half := Half.A, ring := 28, ctag := 1, hb := 0 }, 2, 3, Half.A, by unfold RunsAt; decide +kernel⟩,
    ⟨(fun s : State => { s with ho := some ({ ({ dst := .B, tick := 100000, phase := 0, org := none } : Handover) with phase := 0 } : Handover) }) site, { ({ dst := .B, tick := 100000, phase := 0, org := none } : Handover) with phase := 0 }, by decide +kernel⟩,
    ⟨(fun s : State => { s with ho := some ({ ({ dst := .B, tick := 100000, phase := 0, org := none } : Handover) with phase := 1 } : Handover) }) site, { ({ dst := .B, tick := 100000, phase := 0, org := none } : Handover) with phase := 1 }, by decide +kernel⟩,
    ⟨((fun s : State => { s with ho := some ({ ({ dst := .B, tick := 100000, phase := 0, org := none } : Handover) with phase := 1 } : Handover) }) site).mh (other ({ ({ dst := .B, tick := 100000, phase := 0, org := none } : Handover) with phase := 1 } : Handover).dst) fun y => { y with mirOut := [{ idx := 0, slot := wpt, applied := true }] }, { ({ dst := .B, tick := 100000, phase := 0, org := none } : Handover) with phase := 1 }, by decide +kernel⟩,
    ⟨(fun s : State => { s with ho := some ({ ({ dst := .B, tick := 100000, phase := 0, org := none } : Handover) with phase := 2 } : Handover) }) site, { ({ dst := .B, tick := 100000, phase := 0, org := none } : Handover) with phase := 2 }, by decide +kernel⟩,
    ⟨(fun s : State => { s with ho := some ({ dst := .B, tick := 0, phase := 1, org := none } : Handover) }) site, { dst := .B, tick := 0, phase := 1, org := none }, by decide +kernel⟩,
    ⟨(fun s : State => { s with ho := some ({ ({ dst := .B, tick := 100000, phase := 0, org := none } : Handover) with phase := 3 } : Handover) }) site, { ({ dst := .B, tick := 100000, phase := 0, org := none } : Handover) with phase := 3 }, by decide +kernel⟩⟩

/-- Every hypothesis of RejoinAndSelfTest is met, clause by clause. -/
theorem Sys2Proof.Tests.witness_RejoinAndSelfTest :
    (∃ (s : State) (h : Half), returned s h = true ∧ (s.hf h).twn.service = false ∧ (s.hf h).twn.up = true ∧ s.serving (other h) = true) ∧
    (∃ (s : State) (h : Half), (returned s h = false ∨ (s.hf h).twn.service = true ∨ (s.hf h).twn.up = false ∨ s.serving (other h) = false)) ∧
    (∃ (s : State) (h : Half) (n : Nat), returned s h = true ∧ s.noService = true ∧ (s.hf h).tck.clksel = 0 ∧ (s.hf h).tck.locks = 7 ∧ (s.hf h).tck.tickSet = true ∧ ((s.hf h).tck.recount = false ∨ (s.hf h).tck.aligned = true)) ∧
    (∃ (s : State) (h : Half) (n : Nat), s.noService = false) ∧
    (∃ (s : State) (h : Half) (n : Nat), (s.hf h).tck.clksel = 2 ∧ (s.hf h).tck.locks = 7 ∧ s.noService = true ∧ (s.hf h).twn.held = false ∧ (s.hf h).twn.booted = true ∧ s.pwr.charged = true ∧ (s.hf h).thm.hold = false) ∧
    (∃ (s : State) (h : Half) (rs : List ShadowResult), s.rb .twn h 0 29 = false) ∧
    (∃ (s : State) (h : Half) (rs : List ShadowResult) (l : Nat) (k : Nat) (ks : List Nat), s.rb .twn h 0 29 = true ∧ (s.hf h).twn.toShadow = [l] ∧ (s.hf h).twn.spares = k :: ks ∧ shadowBad s h rs l k = true ∧ (s.hf h).twn.unhealthy = false) ∧
    (∃ (s : State) (h : Half) (rs : List ShadowResult) (l : Nat) (k : Nat), s.rb .twn h 0 29 = true ∧ (s.hf h).twn.toShadow = [] ∧ (s.hf h).twn.recheck = [] ∧ shadowPlan s h = [(l, k)] ∧ shadowBad s h rs l k = true) ∧
    (∃ (s : State) (h : Half) (rs : List ShadowResult), s.rb .twn h 0 29 = true ∧ (s.hf h).twn.toShadow = [] ∧ (s.hf h).twn.recheck = [] ∧ (∀ e ∈ shadowPlan s h, shadowBad s h rs e.1 e.2 = false)) ∧
    (∃ (s : State) (h : Half), (s.hf h).twn.up = true ∧ s.rb .twn h 0 29 = true ∧ (s.hf h).twn.digTick = s.tick h ∧ (s.hf (other h)).twn.digTick = s.tick h ∧ (s.hf h).twn.mapOther.isSome = true ∧ ((∀ l < 60, l ∉ excludedLanes s h → look 0 (s.hf h).twn.digs l = look 0 (s.hf (other h)).twn.digs l)) ∧ (s.hf h).twn.rejoin = false) ∧
    (∃ (s : State) (h : Half), (s.hf h).twn.up = true ∧ s.rb .twn h 0 29 = true ∧ (s.hf h).twn.digTick = s.tick h ∧ (s.hf (other h)).twn.digTick = s.tick h ∧ (s.hf h).twn.mapOther.isSome = true ∧ ((∀ l < 60, l ∉ excludedLanes s h → look 0 (s.hf h).twn.digs l = look 0 (s.hf (other h)).twn.digs l)) ∧ (s.hf h).twn.rejoin = true ∧ 15 ≤ (s.hf h).twn.digMatch ∧ (s.hf h).tck.aligned = true ∧ (s.hf h).tck.clksel ≤ 1) ∧
    (∃ (s : State) (h : Half), (s.hf h).twn.up = true ∧ s.rb .twn h 0 29 = true ∧ (s.hf h).twn.digTick ≠ s.tick h) ∧
    (∃ (s : State) (h : Half), ((s.hf h).twn.up = false ∨ s.rb .twn h 0 29 = false)) ∧
    (∃ (s : State) (h : Half) (a : Nat), s.rb .twn h 0 28 = true) ∧
    (∃ (s : State) (h : Half) (a : Nat), s.rb .twn h 0 28 = true ∧ (s.hf h).twn.unhealthy = false) ∧
    (∃ (s : State) (h : Half) (a : Nat), s.rb .twn h 0 28 = true ∧ s.twinUp h = true) ∧
    (∃ (s : State) (h : Half) (a : Nat) (r : Nat) (k : MemKind), k ≠ .sram ∧ s.rb .twn h 0 28 = false) ∧
    (∃ (s : State) (h : Half), s.tick h % 20000 = 0 ∧ (∀ p < 80, (s.port h p).winBlks ≥ 10000 * (s.port h p).winCorr)) ∧
    (∃ (s : State) (h : Half), s.tick h % 20000 ≠ 0) :=
   ⟨⟨(((site.mh Half.A fun z' => { z' with twn.service := false }).mh Half.A fun z' => { z' with twn.up := true }).mTwn Half.A fun y => { y with unhealthy := true, cause := 0x8A, service := false }).mTck Half.A fun y => { y with clksel := 1 }, Half.A, by decide +kernel⟩,
    ⟨site.mh Half.A fun z' => { z' with twn.service := true }, Half.A, by decide +kernel⟩,
    ⟨(((((((site.mh Half.A fun z' => { z' with tck.recount := false }).mTwn .A fun z' => { z' with service := false }).mTwn .B fun z' => { z' with service := false }).mh Half.A fun z' => { z' with tck.clksel := 0 }).mh Half.A fun z' => { z' with tck.locks := 7 }).mh Half.A fun z' => { z' with tck.tickSet := true }).mTwn Half.A fun y => { y with unhealthy := true, cause := 0x8A, service := false }).mTck Half.A fun y => { y with clksel := 0, locks := 7 }, Half.A, 0, by decide +kernel⟩,
    ⟨site, Half.A, 0, by decide +kernel⟩,
    ⟨((fun s : State => { s with pwr.charged := true }) ((((((site.mh Half.A fun z' => { z' with tck.clksel := 2 }).mh Half.A fun z' => { z' with tck.locks := 7 }).mTwn .A fun z' => { z' with service := false }).mTwn .B fun z' => { z' with service := false }).mh Half.A fun z' => { z' with twn.held := false }).mh Half.A fun z' => { z' with twn.booted := true })).mh Half.A fun z' => { z' with thm.hold := false }, Half.A, 0, by decide +kernel⟩,
    ⟨site.srf .twn Half.A 0 29 29 (Bool.toNat (false)), Half.A, [], by decide +kernel⟩,
    ⟨((((site.srf .twn Half.A 0 29 29 (Bool.toNat (true))).mh Half.A fun z' => { z' with twn.toShadow := [0] }).mh Half.A fun z' => { z' with twn.spares := 0 :: ([] : List Nat) }).mh Half.A fun z' => { z' with twn.unhealthy := false }).srf .cln Half.A (0x20 * 0) 31 31 1, Half.A, [⟨0, 0, false⟩], 0, 0, [], by decide +kernel⟩,
    ⟨((((site.srf .twn Half.A 0 29 29 (Bool.toNat (true))).mh Half.A fun z' => { z' with twn.toShadow := [] }).mh Half.A fun z' => { z' with twn.recheck := [] }).srf .cln Half.A (0x20 * 0) 31 31 1).mTwn Half.A fun y => { y with spares := [0], toShadow := [] }, Half.A, [⟨0, 0, false⟩], 0, 0, by decide +kernel⟩,
    ⟨((site.srf .twn Half.A 0 29 29 (Bool.toNat (true))).mh Half.A fun z' => { z' with twn.toShadow := [] }).mh Half.A fun z' => { z' with twn.recheck := [] }, Half.A, [], by decide +kernel⟩,
    ⟨(((fun s : State => s.mh (other Half.A) fun z' => { z' with twn.digTick := s.tick Half.A }) ((fun s : State => s.mh Half.A fun z' => { z' with twn.digTick := s.tick Half.A }) ((site.mh Half.A fun z' => { z' with twn.up := true }).srf .twn Half.A 0 29 29 (Bool.toNat (true))))).mh Half.A fun z' => { z' with twn.rejoin := false }).mTwn Half.A fun y => { y with mapOther := some [] }, Half.A, by decide +kernel⟩,
    ⟨((((fun s : State => s.mh (other Half.A) fun z' => { z' with twn.digTick := s.tick Half.A }) ((fun s : State => s.mh Half.A fun z' => { z' with twn.digTick := s.tick Half.A }) ((((site.mh Half.A fun z' => { z' with twn.digMatch := 15 }).mh Half.A fun z' => { z' with tck.clksel := 1 }).mh Half.A fun z' => { z' with twn.up := true }).srf .twn Half.A 0 29 29 (Bool.toNat (true))))).mh Half.A fun z' => { z' with twn.rejoin := true }).mh Half.A fun z' => { z' with tck.aligned := true }).mTwn Half.A fun y => { y with mapOther := some [], digMatch := 15 }, Half.A, by decide +kernel⟩,
    ⟨((site.mh Half.A fun z' => { z' with twn.digTick := 1 }).mh Half.A fun z' => { z' with twn.up := true }).srf .twn Half.A 0 29 29 (Bool.toNat (true)), Half.A, by decide +kernel⟩,
    ⟨site.mh Half.A fun z' => { z' with twn.up := false }, Half.A, by decide +kernel⟩,
    ⟨site.srf .twn Half.A 0 28 28 (Bool.toNat (true)), Half.A, 0, by decide +kernel⟩,
    ⟨(site.srf .twn Half.A 0 28 28 (Bool.toNat (true))).mh Half.A fun z' => { z' with twn.unhealthy := false }, Half.A, 0, by decide +kernel⟩,
    ⟨(site.srf .twn Half.A 0 28 28 (Bool.toNat (true))).mTwn Half.A fun z' => { z' with up := true }, Half.A, 0, by decide +kernel⟩,
    ⟨site.srf .twn Half.A 0 28 28 (Bool.toNat (false)), Half.A, 0, 3, .dram, by decide +kernel⟩,
    ⟨site.mTck Half.A fun z' => { z' with tick := 100000 + 0 }, Half.A, by decide +kernel⟩,
    ⟨site.mTck Half.A fun z' => { z' with tick := 100000 + 1 }, Half.A, by decide +kernel⟩⟩

/-- Every hypothesis of FeedsAndPerturbation is met, clause by clause. -/
theorem Sys2Proof.Tests.witness_FeedsAndPerturbation :
    (∃ (s : State) (v : Nat), s.rb .pwr .A 0 9 = true) ∧
    (∃ (s : State) (v : Nat), s.rb .pwr .A 0 8 = false) ∧
    (∃ (s : State) (v : Nat), s.rb .pwr .A 0 9 = true) ∧
    (∃ (s : State) (f : Half), s.feedsOk = true) ∧
    (∃ (s : State) (f : Half) (b : Bool), (s.feedsOk = false ∨ b = false)) ∧
    (∃ (s : State) (o : Org) (h : Half) (v : Word) (r : Nat), RunsHere s o 0x03F2 r ∧ r ∈ [rInstaller, rVendor] ∧ s.rb .twn h 0 27 = false) ∧
    (∃ (s : State) (o : Org) (h : Half) (v : Word) (r : Nat), RunsHere s o 0x03F2 r ∧ r ∈ [rInstaller, rVendor] ∧ s.rb .twn h 0 27 = true ∧ fld v 29 27 ≠ 7 ∧ fld v 15 0 ≠ 0 ∧ pertMagOk (fld v 29 27) (s.rf .twn h 0x44 15 0) = true) ∧
    (∃ (s : State) (o : Org) (h : Half) (v : Word) (r : Nat), RunsHere s o 0x03F2 r ∧ r ∈ [rInstaller, rVendor] ∧ s.rb .twn h 0 27 = true ∧ (fld v 29 27 = 7 ∨ fld v 15 0 = 0 ∨ pertMagOk (fld v 29 27) (s.rf .twn h 0x44 15 0) = false)) ∧
    (∃ (s : State) (h : Half), (s.hf h).twn.pertActive = true ∧ (s.hf h).twn.pertStart + s.rf .twn h 0x40 15 0 ≤ s.tick h) ∧
    (∃ (s : State) (h : Half), (s.hf h).twn.pertActive = false) :=
   ⟨⟨site.srf .pwr .A 0 9 9 (Bool.toNat (true)), 0, by decide +kernel⟩,
    ⟨site.srf .pwr .A 0 8 8 (Bool.toNat (false)), 0, by decide +kernel⟩,
    ⟨site.srf .pwr .A 0 9 9 (Bool.toNat (true)), 0, by decide +kernel⟩,
    ⟨(fun s : State => ((s).srf .pwr .A 0 9 9 (Bool.toNat (true))).srf .pwr .A 0 8 8 (Bool.toNat (true))) site, Half.A, by decide +kernel⟩,
    ⟨(fun s : State => ((s).srf .pwr .A 0 9 9 (Bool.toNat (false))).srf .pwr .A 0 8 8 (Bool.toNat (false))) site, Half.A, true, by decide +kernel⟩,
    ⟨(site.srf .mbx Half.A 0 18 16 3).srf .twn Half.A 0 27 27 (Bool.toNat (false)), { half := Half.A, ring := 28, ctag := 1, hb := 0 }, Half.A, 0x00000000#32, 3, by unfold RunsHere; decide +kernel⟩,
    ⟨(site.srf .mbx Half.A 0 18 16 3).srf .twn Half.A 0 27 27 (Bool.toNat (true)), { half := Half.A, ring := 28, ctag := 1, hb := 0 }, Half.A, 0x00000001#32, 3, by unfold RunsHere; decide +kernel⟩,
    ⟨(site.srf .mbx Half.A 0 18 16 3).srf .twn Half.A 0 27 27 (Bool.toNat (true)), { half := Half.A, ring := 28, ctag := 1, hb := 0 }, Half.A, 0x00000000#32, 3, by unfold RunsHere; decide +kernel⟩,
    ⟨site.mh Half.A fun z' => { z' with twn.pertActive := true }, Half.A, by decide +kernel⟩,
    ⟨site.mh Half.A fun z' => { z' with twn.pertActive := false }, Half.A, by decide +kernel⟩⟩

def Sys2Proof.Tests.sUplinkAndDownlinkFrames8 : State := (((((site.srf .pwr .A 8 31 29 (2)).mPort (.A : Half) 0 fun z' => { z' with pstate := 4 }).mh (.A : Half) fun z' => { z' with twn.service := true }).srf .twn .A 0x40 29 27 2).srg .twn .A 0x44 700).mTwn .A fun y => { y with pertActive := true }

/-- Every hypothesis of UplinkAndDownlinkFrames is met, clause by clause. -/
theorem Sys2Proof.Tests.witness_UplinkAndDownlinkFrames :
    (∃ (s : State) (h : Half) (p : Nat) (f : RxFrame), (80 ≤ p ∨ (s.port h p).pstate = 0)) ∧
    (∃ (s : State) (h : Half) (p : Nat) (f : RxFrame), p < 80 ∧ (s.port h p).pstate ≠ 0 ∧ pertMag s h 1 p = none ∧ pertMag s h 5 p = none ∧ f.cv = true) ∧
    (∃ (s : State) (h : Half) (p : Nat) (n : Nat) (f : RxFrame) (b : List Nat), p < 80 ∧ (s.port h p).pstate ≠ 0 ∧ pertMag s h 1 p = none ∧ pertMag s h 5 p = none ∧ f.cv = false ∧ rsDecodeAll f.blocks = some (b, n) ∧ f.blocks.length = 1 + numAt b 7 1 % 16 ∧ numAt b 0 1 = upType p ∧ (numAt b 1 1).testBit 1 = true ∧ (numAt b 1 1).testBit 4 = false ∧ numAt b 6 1 = p ∧ numAt b 2 2 = s.tick h % 2 ^ 16 ∧ f.at_ ≤ 20000 ∧ (s.hf h).tck.ingestEnd ≠ some (s.tick h) ∧ s.upTag h p b = true) ∧
    (∃ (s : State) (h : Half) (p : Nat) (n : Nat) (f : RxFrame) (b : List Nat), p < 80 ∧ (s.port h p).pstate ≠ 0 ∧ pertMag s h 1 p = none ∧ pertMag s h 5 p = none ∧ f.cv = false ∧ rsDecodeAll f.blocks = some (b, n) ∧ f.blocks.length = 1 + numAt b 7 1 % 16 ∧ numAt b 0 1 = upType p ∧ (numAt b 1 1).testBit 1 = true ∧ numAt b 6 1 = p ∧ numAt b 2 2 = s.tick h % 2 ^ 16 ∧ f.at_ ≤ 20000 ∧ (s.hf h).tck.ingestEnd ≠ some (s.tick h) ∧ s.upTag h p b = false) ∧
    (∃ (s : State) (h : Half) (p : Nat) (n : Nat) (f : RxFrame) (b : List Nat), p < 80 ∧ (s.port h p).pstate ≠ 0 ∧ pertMag s h 1 p = none ∧ pertMag s h 5 p = none ∧ f.cv = false ∧ rsDecodeAll f.blocks = some (b, n) ∧ f.blocks.length = 1 + numAt b 7 1 % 16 ∧ numAt b 0 1 = upType p ∧ (numAt b 1 1).testBit 1 = true ∧ (numAt b 1 1).testBit 4 = true ∧ numAt b 6 1 = p ∧ numAt b 2 2 = s.tick h % 2 ^ 16 ∧ f.at_ ≤ 20000 ∧ (s.hf h).tck.ingestEnd ≠ some (s.tick h) ∧ s.upTag h p b = true ∧ (s.hf h).twn.claim < numAt b 4 2 ∧ (s.hf h).twn.acting = true) ∧
    (∃ (s : State) (h : Half) (p : Nat) (n : Nat) (f : RxFrame) (b : List Nat), 32 ≤ p ∧ p < 80 ∧ (s.port h p).pstate ≠ 0 ∧ pertMag s h 1 p = none ∧ pertMag s h 5 p = none ∧ f.cv = false ∧ rsDecodeAll f.blocks = some (b, n) ∧ f.blocks.length = 1 + numAt b 7 1 % 16 ∧ numAt b 0 1 = 0x23 ∧ (numAt b 1 1).testBit 1 = true ∧ (numAt b 1 1).testBit 4 = false ∧ numAt b 6 1 = p ∧ numAt b 2 2 = s.tick h % 2 ^ 16 ∧ f.at_ ≤ 20000 ∧ (s.hf h).tck.ingestEnd ≠ some (s.tick h)) ∧
    (∃ (s : State) (h : Half) (p : Nat), p < 80 ∧ (s.port h p).pstate = 4 ∧ (s.port h p).svcFrom ≤ s.tick h ∧ (s.hf h).twn.service = true ∧ s.pstate ≠ 1 ∧ pertMag s h 2 p = none ∧ pertMag s h 5 p = none ∧ fld (s.nlkCfg h p) 27 24 ≤ 5) ∧
    (∃ (s : State) (h : Half) (p : Nat) (m : Nat), p < 80 ∧ (s.port h p).pstate = 4 ∧ (s.port h p).svcFrom ≤ s.tick h ∧ (s.hf h).twn.service = true ∧ s.pstate ≠ 1 ∧ pertMag s h 2 p = some m ∧ 47900 < 40000 + 10 * m + lineTime (fld (s.nlkCfg h p) 27 24 - 1 + 1)) ∧
    (∃ (s : State) (h : Half) (p : Nat), p < 80 ∧ (s.port h p).pstate = 4 ∧ (s.port h p).svcFrom ≤ s.tick h ∧ (s.hf h).twn.service = true ∧ s.pstate ≠ 1) ∧
    (∃ (s : State) (h : Half) (p : Nat) (b : Bool), ((s.hf h).twn.service = false ∨ s.tick h < (s.port h p).svcFrom ∨ (s.port h p).pstate ≠ 4 ∨ s.pstate = 1 ∨ 80 ≤ p)) ∧
    (∃ (s : State) (h : Half) (p : Nat) (m : List Nat) (l : List (List Nat)), 32 ≤ p ∧ p < 80 ∧ (look {} (s.port h p).rx 0x40).done = m :: l ∧ numAt m 0 1 = (if bitAt (s.vcfg (p - 32) 0) 30 then 2 else 1) ∧ 14 ≤ numAt m 2 2 ∧ numAt m 2 2 ≤ 1518 ∧ m.length = 8 + numAt m 2 2 ∧ s.charge = some (other h) ∧ s.twinUp h = true) ∧
    (∃ (s : State) (h : Half) (p : Nat) (m : List Nat) (l : List (List Nat)), (look {} (s.port h p).rx 0x40).done = m :: l ∧ s.charge ≠ some (other h) ∧ 32 ≤ p ∧ p < 80 ∧ numAt m 0 1 = (if bitAt (s.vcfg (p - 32) 0) 30 then 2 else 1) ∧ 14 ≤ numAt m 2 2 ∧ numAt m 2 2 ≤ 1518 ∧ m.length = 8 + numAt m 2 2) ∧
    (∃ (s : State) (h : Half) (p : Nat) (m : List Nat) (l : List (List Nat)), (look {} (s.port h p).rx 0x40).done = m :: l ∧ (p < 32 ∨ 80 ≤ p ∨ numAt m 2 2 < 14 ∨ 1518 < numAt m 2 2 ∨ m.length ≠ 8 + numAt m 2 2)) ∧
    (∃ (s : State) (h : Half) (p : Nat), (look {} (s.port h p).rx 0x40).done = []) ∧
    (∃ (s : State) (h : Half) (p : Nat), 3 ≤ look 0 (s.hf h).cnp.noComm p ∧ p ∉ (s.hf h).cnp.lost) :=
   ⟨⟨site.mPort Half.A 0 fun z' => { z' with pstate := 0 }, Half.A, 0, { cv := true, blocks := [], at_ := 0 }, by decide +kernel⟩,
    ⟨site.mPort Half.A 0 fun z' => { z' with pstate := 1 }, Half.A, 0, { cv := true, blocks := [[]], at_ := 0 }, by decide +kernel⟩,
    ⟨((site.mPort (.A : Half) 0 fun z' => { z' with pstate := 1 }).mh (.A : Half) fun z' => { z' with tck.ingestEnd := none }).srf .nlk .A 0 30 30 0, .A, 0, 0, { cv := false, blocks := [rsEncode [0x21, 2, 0xA0, 0x86, 2, 0, 0, 0]], at_ := 0 }, ((rsDecodeAll ({ cv := false, blocks := [rsEncode [0x21, 2, 0xA0, 0x86, 2, 0, 0, 0]], at_ := 0 } : RxFrame).blocks).getD ([], 0)).1, by decide +kernel⟩,
    ⟨((site.mPort (.A : Half) 0 fun z' => { z' with pstate := 1 }).mh (.A : Half) fun z' => { z' with tck.ingestEnd := none }).srf .nlk .A 0 30 30 1, .A, 0, 0, { cv := false, blocks := [rsEncode [0x21, 2, 0xA0, 0x86, 2, 0, 0, 0]], at_ := 0 }, ((rsDecodeAll ({ cv := false, blocks := [rsEncode [0x21, 2, 0xA0, 0x86, 2, 0, 0, 0]], at_ := 0 } : RxFrame).blocks).getD ([], 0)).1, by decide +kernel⟩,
    ⟨(((site.mPort (.A : Half) 0 fun z' => { z' with pstate := 1 }).mh (.A : Half) fun z' => { z' with tck.ingestEnd := none }).mh (.A : Half) fun z' => { z' with twn.acting := true }).srf .nlk .A 0 30 30 0, .A, 0, 0, { cv := false, blocks := [rsEncode [0x21, 0x12, 0xA0, 0x86, 9, 0, 0, 0]], at_ := 0 }, ((rsDecodeAll ({ cv := false, blocks := [rsEncode [0x21, 0x12, 0xA0, 0x86, 9, 0, 0, 0]], at_ := 0 } : RxFrame).blocks).getD ([], 0)).1, by decide +kernel⟩,
    ⟨(site.mPort (.A : Half) 32 fun z' => { z' with pstate := 1 }).mh (.A : Half) fun z' => { z' with tck.ingestEnd := none }, .A, 32, 0, { cv := false, blocks := [rsEncode [0x23, 2, 0xA0, 0x86, 2, 0, 32, 0]], at_ := 0 }, ((rsDecodeAll ({ cv := false, blocks := [rsEncode [0x23, 2, 0xA0, 0x86, 2, 0, 32, 0]], at_ := 0 } : RxFrame).blocks).getD ([], 0)).1, by decide +kernel⟩,
    ⟨(((site.srf .pwr .A 8 31 29 (2)).srf .nlk Half.A (0 * 0x40) 27 24 (5)).mPort Half.A 0 fun z' => { z' with pstate := 4 }).mh Half.A fun z' => { z' with twn.service := true }, Half.A, 0, by decide +kernel⟩,
    ⟨sUplinkAndDownlinkFrames8, .A, 0, (pertMag sUplinkAndDownlinkFrames8 (.A : Half) 2 0).getD 0, by decide +kernel⟩,
    ⟨((site.srf .pwr .A 8 31 29 (2)).mPort Half.A 0 fun z' => { z' with pstate := 4 }).mh Half.A fun z' => { z' with twn.service := true }, Half.A, 0, by decide +kernel⟩,
    ⟨site.mh Half.A fun z' => { z' with twn.service := false }, Half.A, 0, true, by decide +kernel⟩,
    ⟨(fun s : State => { s with ref.token := some .B }) ((((((fun s : State => s.mPort (.A : Half) 32 fun z' => { z' with rx := Machine.upd {} (s.port (.A : Half) 32).rx 0x40 (fun y' => { y' with done := ([1, 0, 14, 0, 0, 0, 0, 0] ++ List.replicate 14 0 : List Nat) :: ([] : List (List Nat)) }) }) site).mTwn (.A : Half) fun z' => { z' with up := true }).mPort .A 32 fun q => { q with rx := [(0x40, { done := [[1, 0, 14, 0, 0, 0, 0, 0] ++ List.replicate 14 0] })] }).mTwn .A fun y => { y with acting := false }).mTwn .B fun y => { y with acting := true }), .A, 32, [1, 0, 14, 0, 0, 0, 0, 0] ++ List.replicate 14 0, [], by decide +kernel⟩,
    ⟨((fun s : State => s.mPort (.A : Half) 32 fun z' => { z' with rx := Machine.upd {} (s.port (.A : Half) 32).rx 0x40 (fun y' => { y' with done := ([1, 0, 14, 0, 0, 0, 0, 0] ++ List.replicate 14 0 : List Nat) :: ([] : List (List Nat)) }) }) site).mPort .A 32 fun q => { q with rx := [(0x40, { done := [[1, 0, 14, 0, 0, 0, 0, 0] ++ List.replicate 14 0] })] }, .A, 32, [1, 0, 14, 0, 0, 0, 0, 0] ++ List.replicate 14 0, [], by decide +kernel⟩,
    ⟨(fun s : State => s.mPort Half.A 0 fun z' => { z' with rx := Machine.upd {} (s.port Half.A 0).rx 0x40 (fun y' => { y' with done := ([] : List Nat) :: ([] : List (List Nat)) }) }) site, Half.A, 0, [], [], by decide +kernel⟩,
    ⟨(fun s : State => s.mPort Half.A 0 fun z' => { z' with rx := Machine.upd {} (s.port Half.A 0).rx 0x40 (fun y' => { y' with done := [] }) }) site, Half.A, 0, by decide +kernel⟩,
    ⟨(fun s : State => s.mh Half.A fun z' => { z' with cnp.noComm := Machine.put 0 (s.hf Half.A).cnp.noComm 0 (3) }) site, Half.A, 0, by decide +kernel⟩⟩

/-- Every hypothesis of MatrixChanges is met, clause by clause. -/
theorem Sys2Proof.Tests.witness_MatrixChanges :
    (∃ (s : State) (h : Half) (k : Nat) (ch : Change), s.chgOf h k = some ch ∧ ch.st = 1 ∧ 4 ≤ ch.cDrain ∧ ch.opens = []) ∧
    (∃ (s : State) (h : Half) (k : Nat) (n : Nat) (g : Nat) (i : Nat) (ch : Change), s.chgOf h k = some ch ∧ ch.st = 1 ∧ 4 ≤ ch.cDrain ∧ ch.opens = [(n, g, i)]) ∧
    (∃ (s : State) (h : Half) (k : Nat) (ch : Change), s.chgOf h k = some ch ∧ ch.st = 1 ∧ ch.cDrain < 4 ∧ 10 * s.rf .cnp h 0x4804 31 24 ≤ ch.ticks ∧ ch.org = none) ∧
    (∃ (s : State) (h : Half) (k : Nat) (ch : Change), s.chgOf h k = some ch ∧ ch.st = 2 ∧ (∀ e ∈ ch.opens, s.poleFb h e.1 e.2.1 = false)) ∧
    (∃ (s : State) (h : Half) (k : Nat) (n : Nat) (g : Nat) (i : Nat) (ch : Change), s.chgOf h k = some ch ∧ ch.st = 2 ∧ ch.opens = [(n, g, i)] ∧ g < 4 ∧ s.poleFb h n g = true ∧ 10 * s.rf .cnp h 0x4804 23 16 ≤ ch.ticks) ∧
    (∃ (s : State) (h : Half) (k : Nat) (ch : Change), s.chgOf h k = some ch ∧ ch.st = 4 ∧ (∀ e ∈ ch.closes, s.poleFb h e.1 e.2.1 = true)) ∧
    (∃ (s : State) (h : Half) (k : Nat) (n : Nat) (g : Nat) (i : Nat) (ch : Change), s.chgOf h k = some ch ∧ ch.st = 4 ∧ ch.closes = [(n, g, i)] ∧ g < 4 ∧ s.poleFb h n g = false ∧ ch.org = none ∧ 10 * s.rf .cnp h 0x4804 23 16 ≤ ch.ticks) ∧
    (∃ (s : State) (h : Half) (k : Nat) (ch : Change), s.chgOf h k = some ch ∧ ch.st = 5 ∧ 4 ≤ ch.cMatch ∧ ch.fail = 0 ∧ ch.org = none) ∧
    (∃ (s : State) (h : Half) (k : Nat) (n : Nat) (g : Nat) (i : Nat) (ch : Change), s.chgOf h k = some ch ∧ ch.st = 5 ∧ ch.cMatch < 4 ∧ 10 * s.rf .cnp h 0x4804 15 8 ≤ ch.ticks ∧ ch.org = none ∧ ch.closes = [(n, g, i)] ∧ g < 4 ∧ ch.joins = [(k, i)] ∧ busMatches s h (k, i) = false) ∧
    (∃ (s : State) (h : Half) (k : Nat), s.chgOf h k = none) ∧
    (∃ (s : State) (h : Half) (k : Nat) (c : Nat) (i : Nat) (ch : Change), s.chgOf h k = some ch ∧ s.cabLost h c = true ∧ ch.st = 1 ∧ ch.joins = [(k, i)] ∧ i / 4 = c ∧ ch.opens = [] ∧ ch.closes = [] ∧ ch.leaves = []) ∧
    (∃ (s : State) (h : Half) (n : Nat) (g : Nat), bitAt (s.ctr h n) 31 = true ∧ s.poleFb h n g = false ∧ (look 0 (s.hf h).cnp.poleCmd n).testBit g = true ∧ g < 4 ∧ 4 * fld (s.ctr h n) 20 16 + g ∉ (s.hf h).cnp.brk ∧ 4 * fld (s.ctr h n) 20 16 + g ∈ s.routesOf h (fld (s.ctr h n) 5 0) ∧ (s.hf h).cnp.chgs.any (fun c => c.closes.any fun e => e.2.2 = 4 * fld (s.ctr h n) 20 16 + g) = false) ∧
    (∃ (s : State) (h : Half) (n : Nat) (g : Nat), s.poleFb h n g = true) ∧
    (∃ (s : State) (h : Half) (a : Alloc) (n : Nat), (s.hf h).cnp.solved = some (a, n)) :=
   ⟨⟨site.mCnp Half.A fun z' => { z' with chgs := (some ({ ({ outs := [0] } : Change) with st := 1, cDrain := 4, opens := [] } : Change)).toList }, Half.A, 0, { ({ outs := [0] } : Change) with st := 1, cDrain := 4, opens := [] }, by decide +kernel⟩,
    ⟨site.mCnp Half.A fun z' => { z' with chgs := (some ({ ({ outs := [0] } : Change) with st := 1, cDrain := 4, opens := [(0, 0, 0)] } : Change)).toList }, Half.A, 0, 0, 0, 0, { ({ outs := [0] } : Change) with st := 1, cDrain := 4, opens := [(0, 0, 0)] }, by decide +kernel⟩,
    ⟨site.mCnp Half.A fun z' => { z' with chgs := (some ({ outs := [0], st := 1, cDrain := 0, ticks := 3000 } : Change)).toList }, Half.A, 0, { outs := [0], st := 1, cDrain := 0, ticks := 3000 }, by decide +kernel⟩,
    ⟨site.mCnp Half.A fun z' => { z' with chgs := (some ({ ({ outs := [0] } : Change) with st := 2 } : Change)).toList }, Half.A, 0, { ({ outs := [0] } : Change) with st := 2 }, by decide +kernel⟩,
    ⟨(site.mCnp Half.A fun z' => { z' with chgs := (some ({ outs := [0], st := 2, ticks := 3000, opens := [(0, 0, 0)] } : Change)).toList }).srf .cnp Half.A (0x5000 + 4 * 0) (12 + 0) (12 + 0) (Bool.toNat (true)), Half.A, 0, 0, 0, 0, { outs := [0], st := 2, ticks := 3000, opens := [(0, 0, 0)] }, by decide +kernel⟩,
    ⟨site.mCnp Half.A fun z' => { z' with chgs := (some ({ ({ outs := [0] } : Change) with st := 4 } : Change)).toList }, Half.A, 0, { ({ outs := [0] } : Change) with st := 4 }, by decide +kernel⟩,
    ⟨(site.mCnp Half.A fun z' => { z' with chgs := (some ({ outs := [0], st := 4, ticks := 3000, closes := [(0, 0, 0)] } : Change)).toList }).srf .cnp Half.A (0x5000 + 4 * 0) (12 + 0) (12 + 0) (Bool.toNat (false)), Half.A, 0, 0, 0, 0, { outs := [0], st := 4, ticks := 3000, closes := [(0, 0, 0)] }, by decide +kernel⟩,
    ⟨site.mCnp Half.A fun z' => { z' with chgs := (some ({ ({ outs := [0] } : Change) with st := 5, cMatch := 4, fail := 0, org := none } : Change)).toList }, Half.A, 0, { ({ outs := [0] } : Change) with st := 5, cMatch := 4, fail := 0, org := none }, by decide +kernel⟩,
    ⟨site.mCnp Half.A fun z' => { z' with chgs := (some ({ outs := [0], st := 5, cMatch := 0, ticks := 3000, closes := [(0, 0, 0)], joins := [(0, 0)] } : Change)).toList }, Half.A, 0, 0, 0, 0, { outs := [0], st := 5, cMatch := 0, ticks := 3000, closes := [(0, 0, 0)], joins := [(0, 0)] }, by decide +kernel⟩,
    ⟨site.mCnp Half.A fun z' => { z' with chgs := (none).toList }, Half.A, 0, by decide +kernel⟩,
    ⟨(site.mCnp Half.A fun z' => { z' with chgs := (some ({ ({ outs := [0] } : Change) with st := 1, joins := [(0, 0)], opens := [], closes := [], leaves := [] } : Change)).toList }).mCnp Half.A fun z' => { z' with lost := [0] }, Half.A, 0, 0, 0, { ({ outs := [0] } : Change) with st := 1, joins := [(0, 0)], opens := [], closes := [], leaves := [] }, by decide +kernel⟩,
    ⟨((((fun s : State => s.mh Half.A fun z' => { z' with cnp.poleCmd := Machine.put 0 (s.hf Half.A).cnp.poleCmd 0 (2 ^ 0) }) ((site.srf .cnp Half.A (0x5000 + 4 * 0) 31 31 (Bool.toNat (true))).srf .cnp Half.A (0x5000 + 4 * 0) (12 + 0) (12 + 0) (Bool.toNat (false)))).srg .cnp Half.A 0x5000 0x80000000).srg .pst Half.A 0x30 0x80000000).mCnp Half.A fun y => { y with poleCmd := [(0, 1)] }, Half.A, 0, 0, by decide +kernel⟩,
    ⟨site.srf .cnp Half.A (0x5000 + 4 * 0) (12 + 0) (12 + 0) (Bool.toNat (true)), Half.A, 0, 0, by decide +kernel⟩,
    ⟨site.mh Half.A fun z' => { z' with cnp.solved := some (({  } : Alloc), 0) }, Half.A, {  }, 0, by decide +kernel⟩⟩

def Sys2Proof.Tests.sMatrixVerbsAndPlanner9 : State := ((((site.mTck (.A : Half) fun z' => { z' with tick := 100000 + 0 }).srf .cnp (.A : Half) 0x4800 31 31 (Bool.toNat (true))).srg .cnp .A 0x4000 0x80000000).srg .pst .A 0x30 0x80000000).srf .cnp .A 0x4800 31 31 1

/-- Every hypothesis of MatrixVerbsAndPlanner is met, clause by clause. -/
theorem Sys2Proof.Tests.witness_MatrixVerbsAndPlanner :
    (∃ (s : State) (o : Org) (k : Nat) (mask : Nat) (r : Nat) (x : Half), RunsAt s o 0x0701 x r ∧ r ∈ [rInstaller, rVendor] ∧ k < 48 ∧ (s.hf x).saf.permOut.testBit k = true ∧ (s.hf x).saf.stopOut.testBit k = false ∧ s.chgOf x k = none ∧ (s.hf x).cnp.plans = [] ∧ (∀ g ∈ gidsOf mask, s.permits x (g / 4) k = true ∧ s.canReach x g k = true) ∧ ((∀ j < 48, j ≠ k → (s.routesOf x j).any (· ∈ gidsOf mask) = true → s.chgOf x j = none ∧ (look {} (s.hf x).cnp.outs j).pinned = false))) ∧
    (∃ (s : State) (o : Org) (k : Nat) (mask : Nat) (r : Nat) (x : Half), RunsAt s o 0x0701 x r ∧ r ∈ [rInstaller, rVendor] ∧ 48 ≤ k) ∧
    (∃ (s : State) (o : Org) (k : Nat) (mask : Nat) (r : Nat) (x : Half), RunsAt s o 0x0701 x r ∧ r ∈ [rInstaller, rVendor] ∧ k < 48 ∧ (s.hf x).saf.stopOut.testBit k = true) ∧
    (∃ (s : State) (o : Org) (k : Nat) (r : Nat) (x : Half) (ch : Change), RunsAt s o 0x0701 x r ∧ r ∈ [rInstaller, rVendor] ∧ k < 48 ∧ (s.hf x).saf.permOut.testBit k = true ∧ (s.hf x).saf.stopOut.testBit k = false ∧ s.chgOf x k = some ch) ∧
    (∃ (s : State) (o : Org) (k : Nat) (mask : Nat) (r : Nat) (x : Half), RunsAt s o 0x0701 x r ∧ r ∉ [rInstaller, rVendor]) ∧
    (∃ (s : State) (o : Org) (k : Nat) (r : Nat) (x : Half), RunsAt s o 0x0702 x r ∧ r ∈ [rInstaller, rVendor] ∧ k < 48) ∧
    (∃ (s : State) (o : Org) (n : Nat) (mask : Nat) (r : Nat) (x : Half), RunsAt s o 0x0703 x r ∧ r ∈ [rInstaller, rVendor] ∧ n < 512 ∧ mask < 16) ∧
    (∃ (s : State) (o : Org) (n : Nat) (mask : Nat) (r : Nat) (x : Half), RunsAt s o 0x0703 x r ∧ r ∈ [rInstaller, rVendor] ∧ (512 ≤ n ∨ 16 ≤ mask)) ∧
    (∃ (s : State) (h : Half), s.charge = some h ∧ s.tick h % 2000 ≠ 0) ∧
    (∃ (s : State) (h : Half) (m : List (Nat × List Nat)), s.charge = some h ∧ s.tick h % 2000 = 0 ∧ s.rb .cnp h 0x4800 31 = true ∧ m = ((plannedOuts s h).map fun k => (k, sortGroups (Deal.of (planDeal s h (s.nodes h)) k))).filter (fun e => sortGroups (s.routesOf h e.1) != e.2) ∧ m ≠ [] ∧ m.any (retryBlocked s h) = false) :=
   ⟨⟨(((site.srf .mbx Half.A 0 18 16 3).mh Half.A fun z' => { z' with saf.permOut := 2 ^ 0 }).mCnp Half.A fun z' => { z' with chgs := (none).toList }).mh Half.A fun z' => { z' with cnp.plans := [] }, { half := Half.A, ring := 28, ctag := 1, hb := 0 }, 0, 0, 3, Half.A, by unfold RunsAt; decide +kernel⟩,
    ⟨site.srf .mbx Half.A 0 18 16 3, { half := Half.A, ring := 28, ctag := 1, hb := 0 }, 48, 0, 3, Half.A, by unfold RunsAt; decide +kernel⟩,
    ⟨(site.srf .mbx Half.A 0 18 16 3).mh Half.A fun z' => { z' with saf.stopOut := 2 ^ 0 }, { half := Half.A, ring := 28, ctag := 1, hb := 0 }, 0, 0, 3, Half.A, by unfold RunsAt; decide +kernel⟩,
    ⟨((site.srf .mbx Half.A 0 18 16 3).mh Half.A fun z' => { z' with saf.permOut := 2 ^ 0 }).mCnp Half.A fun z' => { z' with chgs := (some ({ outs := [0] } : Change)).toList }, { half := Half.A, ring := 28, ctag := 1, hb := 0 }, 0, 3, Half.A, { outs := [0] }, by unfold RunsAt; decide +kernel⟩,
    ⟨site.srf .mbx Half.A 0 18 16 4, { half := Half.A, ring := 28, ctag := 1, hb := 0 }, 0, 0, 4, Half.A, by unfold RunsAt; decide +kernel⟩,
    ⟨site.srf .mbx Half.A 0 18 16 3, { half := Half.A, ring := 28, ctag := 1, hb := 0 }, 0, 3, Half.A, by unfold RunsAt; decide +kernel⟩,
    ⟨site.srf .mbx Half.A 0 18 16 3, { half := Half.A, ring := 28, ctag := 1, hb := 0 }, 0, 0, 3, Half.A, by unfold RunsAt; decide +kernel⟩,
    ⟨site.srf .mbx Half.A 0 18 16 3, { half := Half.A, ring := 28, ctag := 1, hb := 0 }, 0, 16, 3, Half.A, by unfold RunsAt; decide +kernel⟩,
    ⟨site.mTck Half.A fun z' => { z' with tick := 100000 + 1 }, Half.A, by decide +kernel⟩,
    ⟨sMatrixVerbsAndPlanner9, .A, ((plannedOuts sMatrixVerbsAndPlanner9 (.A : Half)).map fun k => (k, sortGroups (Deal.of (planDeal sMatrixVerbsAndPlanner9 (.A : Half) (sMatrixVerbsAndPlanner9.nodes (.A : Half))) k))).filter (fun e => sortGroups (sMatrixVerbsAndPlanner9.routesOf (.A : Half) e.1) != e.2), by decide +kernel⟩⟩

def Sys2Proof.Tests.sPortStatesAndDelay11 : State := (site.mPort Half.A 0 fun z' => { z' with pstate := 2 }).mPort Half.A 0 fun q => { q with dprTick := some 5, pstate := 2, samples := List.replicate 7 1240 }
def Sys2Proof.Tests.sPortStatesAndDelay12 : State := (site.mPort Half.A 0 fun z' => { z' with pstate := 2 }).mPort Half.A 0 fun q => { q with dprTick := some 5, pstate := 2, samples := List.replicate 7 25000 }
def Sys2Proof.Tests.sPortStatesAndDelay13 : State := (site.mPort Half.A 0 fun z' => { z' with pstate := 3 }).mPort Half.A 0 fun q => { q with dprTick := some 5, pstate := 4, samples := List.replicate 7 25000 }

/-- Every hypothesis of PortStatesAndDelay is met, clause by clause. -/
theorem Sys2Proof.Tests.witness_PortStatesAndDelay :
    (∃ (s : State) (h : Half) (p : Nat) (c : Nat), 3 ≤ c ∧ (s.port h p).sync = false ∧ s.portEn h p = true ∧ (s.port h p).pstate = 0) ∧
    (∃ (s : State) (h : Half) (p : Nat) (c : Nat), 3 ≤ c ∧ (s.port h p).sync = false ∧ (s.portEn h p = false ∨ (s.port h p).pstate ≠ 0)) ∧
    (∃ (s : State) (h : Half) (p : Nat) (c : Nat), (c < 3 ∨ (s.port h p).sync = true)) ∧
    (∃ (s : State) (h : Half) (p : Nat) (cvs : Nat) (chars : Nat), (4 ≤ cvs ∨ 2500 ≤ chars) ∧ (s.port h p).sync = true ∧ (s.port h p).pstate ≠ 0) ∧
    (∃ (s : State) (h : Half) (p : Nat) (cvs : Nat) (chars : Nat), ((cvs < 4 ∧ chars < 2500) ∨ (s.port h p).sync = false)) ∧
    (∃ (s : State) (h : Half) (p : Nat), (s.port h p).pstate = 1 ∧ (s.port h p).sync = true ∧ (s.port h p).syncTick + 8 ≤ s.tick h) ∧
    (∃ (s : State) (h : Half) (p : Nat), (s.tick h < (s.port h p).syncTick + 8 ∨ (s.port h p).pstate ≠ 1)) ∧
    (∃ (s : State) (h : Half) (p : Nat), (s.port h p).pstate ≠ 0) ∧
    (∃ (s : State) (h : Half) (p : Nat), (s.port h p).pstate ≠ 0 ∧ (s.tick h % 16 = 0 ∨ (s.port h p).pstate = 2)) ∧
    (∃ (s : State) (h : Half) (p : Nat), s.tick h % 16 ≠ 0 ∧ (s.port h p).pstate ≠ 2) ∧
    (∃ (s : State) (h : Half) (p : Nat) (rtt : Nat) (ta : Nat), (s.port h p).dprTick.isSome = true ∧ rtt ≤ 25000 ∧ (s.port h p).samples.length < 7) ∧
    (∃ (s : State) (h : Half) (p : Nat) (rtt : Nat) (ta : Nat) (l : List Nat), (s.port h p).dprTick.isSome = true ∧ rtt ≤ 25000 ∧ (s.port h p).pstate = 2 ∧ l = ((rtt - ta) :: (s.port h p).samples).take 8 ∧ l.length = 8 ∧ delayTarget l ≤ 1000) ∧
    (∃ (s : State) (h : Half) (p : Nat) (rtt : Nat) (ta : Nat) (l : List Nat), (s.port h p).dprTick.isSome = true ∧ rtt ≤ 25000 ∧ (s.port h p).pstate = 2 ∧ l = ((rtt - ta) :: (s.port h p).samples).take 8 ∧ l.length = 8 ∧ 1000 < delayTarget l) ∧
    (∃ (s : State) (h : Half) (p : Nat) (rtt : Nat) (ta : Nat) (l : List Nat), (s.port h p).dprTick.isSome = true ∧ rtt ≤ 25000 ∧ ((s.port h p).pstate = 3 ∨ (s.port h p).pstate = 4) ∧ l = ((rtt - ta) :: (s.port h p).samples).take 8 ∧ l.length = 8 ∧ 1000 < delayTarget l) ∧
    (∃ (s : State) (h : Half) (p : Nat) (rtt : Nat) (ta : Nat), (25000 < rtt ∨ (s.port h p).dprTick = none)) ∧
    (∃ (s : State) (h : Half) (p : Nat), (s.port h p).valid = true ∧ (s.port h p).pstate ≠ 2 ∧ (s.port h p).slewTick ≠ some (s.tick h) ∧ (s.port h p).delay < (s.port h p).target) ∧
    (∃ (s : State) (h : Half) (p : Nat), (s.port h p).valid = true ∧ (s.port h p).pstate ≠ 2 ∧ (s.port h p).slewTick ≠ some (s.tick h) ∧ (s.port h p).target ≤ (s.port h p).delay) ∧
    (∃ (s : State) (h : Half) (p : Nat), ((s.port h p).slewTick = some (s.tick h) ∨ (s.port h p).valid = false)) ∧
    (∃ (s : State) (h : Half) (p : Nat) (f : RxFrame) (b : List Nat) (m : List Nat), p < 80 ∧ (s.port h p).pstate = 3 ∧ asyncHead p [0x43] (· - 16) f = .ok b ∧ s.asyncTag h p b = true ∧ m = segData b ∧ numAt m 0 1 = 1 ∧ 16 ≤ m.length ∧ numAt m 1 1 = fld (s.nlkCfg h p) 29 28 ∧ (s.rg .nlk h (p * 0x40 + 4) = 0 ∨ (s.rg .nlk h (p * 0x40 + 4)).toNat = numAt m 4 4) ∧ (s.port h p).joinSent = none) ∧
    (∃ (s : State) (h : Half) (p : Nat) (f : RxFrame) (b : List Nat) (m : List Nat), p < 80 ∧ (s.port h p).pstate = 3 ∧ asyncHead p [0x43] (· - 16) f = .ok b ∧ (s.asyncTag h p b = true ∨ s.portAuth h p = true) ∧ m = segData b ∧ numAt m 0 1 = 1 ∧ 16 ≤ m.length ∧ (numAt m 1 1 ≠ fld (s.nlkCfg h p) 29 28 ∨ (s.rg .nlk h (p * 0x40 + 4) ≠ 0 ∧ (s.rg .nlk h (p * 0x40 + 4)).toNat ≠ numAt m 4 4))) ∧
    (∃ (s : State) (h : Half) (p : Nat) (f : RxFrame) (b : List Nat) (m : List Nat), p < 80 ∧ (s.port h p).pstate = 3 ∧ asyncHead p [0x43] (· - 16) f = .ok b ∧ s.asyncTag h p b = false ∧ s.portAuth h p = true ∧ m = segData b ∧ numAt m 0 1 = 1 ∧ 16 ≤ m.length ∧ numAt m 1 1 = fld (s.nlkCfg h p) 29 28 ∧ (s.rg .nlk h (p * 0x40 + 4) = 0 ∨ (s.rg .nlk h (p * 0x40 + 4)).toNat = numAt m 4 4)) ∧
    (∃ (s : State) (h : Half) (p : Nat) (f : RxFrame), p < 80 ∧ (s.port h p).pstate ≠ 0 ∧ (s.port h p).pstate ≠ 3) ∧
    (∃ (s : State) (h : Half) (p : Nat) (f : RxFrame), (80 ≤ p ∨ (s.port h p).pstate = 0)) ∧
    (∃ (s : State) (h : Half) (p : Nat) (id : Nat), (s.port h p).pstate = 3 ∧ (s.port h p).joinSent = some id ∧ id ∈ (look {} (s.port h p).tx 0x43).acked ∧ (s.port h p).delay ≤ 1000 ∧ ((s.rem p).port = none ∨ (s.rem p).port = some p)) ∧
    (∃ (s : State) (h : Half) (p : Nat), ((s.port h p).joinSent = none ∨ (s.port h p).pstate ≠ 3)) :=
   ⟨⟨((fun s : State => (s).srf .nlk Half.A (0 * 0x40) 31 31 (Bool.toNat (true))) (site.mPort Half.A 0 fun z' => { z' with sync := false })).mPort Half.A 0 fun z' => { z' with pstate := 0 }, Half.A, 0, 3, by decide +kernel⟩,
    ⟨((fun s : State => (s).srf .nlk Half.A (0 * 0x40) 31 31 (Bool.toNat (false))) site).mPort Half.A 0 fun z' => { z' with sync := false }, Half.A, 0, 3, by decide +kernel⟩,
    ⟨site.mPort Half.A 0 fun z' => { z' with sync := true }, Half.A, 0, 0, by decide +kernel⟩,
    ⟨(site.mPort Half.A 0 fun z' => { z' with pstate := 1 }).mPort Half.A 0 fun z' => { z' with sync := true }, Half.A, 0, 0, 2500, by decide +kernel⟩,
    ⟨site.mPort Half.A 0 fun z' => { z' with sync := false }, Half.A, 0, 0, 0, by decide +kernel⟩,
    ⟨(site.mPort Half.A 0 fun z' => { z' with pstate := 1 }).mPort Half.A 0 fun z' => { z' with sync := true }, Half.A, 0, by decide +kernel⟩,
    ⟨site.mPort Half.A 0 fun z' => { z' with pstate := 2 }, Half.A, 0, by decide +kernel⟩,
    ⟨site.mPort Half.A 0 fun z' => { z' with pstate := 1 }, Half.A, 0, by decide +kernel⟩,
    ⟨site.mPort .A 0 fun q => { q with pstate := 2 }, .A, 0, by decide +kernel⟩,
    ⟨(site.mPort Half.A 0 fun z' => { z' with pstate := 3 }).mTck Half.A fun z' => { z' with tick := 100000 + 1 }, Half.A, 0, by decide +kernel⟩,
    ⟨site.mPort Half.A 0 fun q => { q with dprTick := some 5 }, Half.A, 0, 0, 0, by decide +kernel⟩,
    ⟨sPortStatesAndDelay11, Half.A, 0, 1241, 1, ((1241 - 1) :: (sPortStatesAndDelay11.port Half.A 0).samples).take 8, by decide +kernel⟩,
    ⟨sPortStatesAndDelay12, Half.A, 0, 25000, 0, ((25000 - 0) :: (sPortStatesAndDelay12.port Half.A 0).samples).take 8, by decide +kernel⟩,
    ⟨sPortStatesAndDelay13, Half.A, 0, 25000, 0, ((25000 - 0) :: (sPortStatesAndDelay13.port Half.A 0).samples).take 8, by decide +kernel⟩,
    ⟨site.mPort Half.A 0 fun z' => { z' with dprTick := none }, Half.A, 0, 0, 0, by decide +kernel⟩,
    ⟨((fun s : State => s.mPort Half.A 0 fun z' => { z' with target := (s.port Half.A 0).delay + 1 }) ((site.mPort Half.A 0 fun z' => { z' with pstate := 3 }).mPort Half.A 0 fun z' => { z' with slewTick := none })).mPort Half.A 0 fun z' => { z' with valid := true }, Half.A, 0, by decide +kernel⟩,
    ⟨((fun s : State => s.mPort Half.A 0 fun z' => { z' with delay := (s.port Half.A 0).target }) ((site.mPort Half.A 0 fun z' => { z' with pstate := 3 }).mPort Half.A 0 fun z' => { z' with slewTick := none })).mPort Half.A 0 fun z' => { z' with valid := true }, Half.A, 0, by decide +kernel⟩,
    ⟨(fun s : State => s.mPort Half.A 0 fun z' => { z' with slewTick := some (s.tick Half.A) }) site, Half.A, 0, by decide +kernel⟩,
    ⟨(((site.srg .nlk (.A : Half) (0 * 0x40 + 4) (0)).mPort (.A : Half) 0 fun z' => { z' with pstate := 3 }).mPort (.A : Half) 0 fun z' => { z' with joinSent := none }).srf .nlk .A 0 30 30 0, .A, 0, { cv := false, blocks := [rsEncode ([0x43, 2, 0, 0, 0, 0, 0, 0] ++ [0, 0, 0, 0, 16, 0, 0, 0] ++ [1])], at_ := 0 }, ((rsDecodeAll ({ cv := false, blocks := [rsEncode ([0x43, 2, 0, 0, 0, 0, 0, 0] ++ [0, 0, 0, 0, 16, 0, 0, 0] ++ [1])], at_ := 0 } : RxFrame).blocks).getD ([], 0)).1, segData (((rsDecodeAll ({ cv := false, blocks := [rsEncode ([0x43, 2, 0, 0, 0, 0, 0, 0] ++ [0, 0, 0, 0, 16, 0, 0, 0] ++ [1])], at_ := 0 } : RxFrame).blocks).getD ([], 0)).1 : List Nat), by decide +kernel⟩,
    ⟨site.mPort .A 0 fun q => { q with pstate := 3 }, .A, 0, { cv := false, blocks := [rsEncode ([0x43, 2, 0, 0, 0, 0, 0, 0] ++ [0, 0, 0, 0, 16, 0, 0, 0] ++ [1, 3])], at_ := 0 }, ((rsDecodeAll ({ cv := false, blocks := [rsEncode ([0x43, 2, 0, 0, 0, 0, 0, 0] ++ [0, 0, 0, 0, 16, 0, 0, 0] ++ [1, 3])], at_ := 0 } : RxFrame).blocks).getD ([], 0)).1, segData (((rsDecodeAll ({ cv := false, blocks := [rsEncode ([0x43, 2, 0, 0, 0, 0, 0, 0] ++ [0, 0, 0, 0, 16, 0, 0, 0] ++ [1, 3])], at_ := 0 } : RxFrame).blocks).getD ([], 0)).1 : List Nat), by decide +kernel⟩,
    ⟨(fun s : State => (s).srf .nlk (.A : Half) (0 * 0x40) 30 30 (Bool.toNat (true))) ((site.srg .nlk (.A : Half) (0 * 0x40 + 4) (0)).mPort (.A : Half) 0 fun z' => { z' with pstate := 3 }), .A, 0, { cv := false, blocks := [rsEncode ([0x43, 2, 0, 0, 0, 0, 0, 0] ++ [0, 0, 0, 0, 16, 0, 0, 0] ++ [1])], at_ := 0 }, ((rsDecodeAll ({ cv := false, blocks := [rsEncode ([0x43, 2, 0, 0, 0, 0, 0, 0] ++ [0, 0, 0, 0, 16, 0, 0, 0] ++ [1])], at_ := 0 } : RxFrame).blocks).getD ([], 0)).1, segData (((rsDecodeAll ({ cv := false, blocks := [rsEncode ([0x43, 2, 0, 0, 0, 0, 0, 0] ++ [0, 0, 0, 0, 16, 0, 0, 0] ++ [1])], at_ := 0 } : RxFrame).blocks).getD ([], 0)).1 : List Nat), by decide +kernel⟩,
    ⟨(site.mPort Half.A 0 fun z' => { z' with pstate := 1 }).mPort Half.A 0 fun z' => { z' with pstate := 4 }, Half.A, 0, { cv := true, blocks := [], at_ := 0 }, by decide +kernel⟩,
    ⟨site.mPort Half.A 0 fun z' => { z' with pstate := 0 }, Half.A, 0, { cv := true, blocks := [], at_ := 0 }, by decide +kernel⟩,
    ⟨(fun s : State => s.mPort Half.A 0 fun z' => { z' with tx := Machine.upd {} (s.port Half.A 0).tx 0x43 (fun y' => { y' with acked := [0] }) }) ((((site.mPort Half.A 0 fun z' => { z' with delay := 1000 }).mRem 0 fun z' => { z' with port := none }).mPort Half.A 0 fun z' => { z' with pstate := 3 }).mPort Half.A 0 fun z' => { z' with joinSent := some 0 }), Half.A, 0, 0, by decide +kernel⟩,
    ⟨site.mPort Half.A 0 fun z' => { z' with joinSent := none }, Half.A, 0, by decide +kernel⟩⟩

def Sys2Proof.Tests.sAsyncChannels0 : State := ((site.mPort (.A : Half) 0 fun z' => { z' with pstate := 4 }).mPort .A 0 fun q => { q with rx := [(0x42, { id := some 0 })] }).srf .nlk .A 0 30 30 0
def Sys2Proof.Tests.sAsyncChannels1 : State := ((site.mPort (.A : Half) 0 fun z' => { z' with pstate := 4 }).mPort .A 0 fun q => { q with rx := [(0x42, { id := some 7 })] }).srf .nlk .A 0 30 30 0
def Sys2Proof.Tests.sAsyncChannels5 : State := ((fun s : State => s.mPort (.A : Half) 0 fun z' => { z' with rx := Machine.upd {} (s.port (.A : Half) 0).rx 0x42 (fun y' => { y' with id := some 7 }) }) ((fun s : State => s.mPort (.A : Half) 0 fun z' => { z' with rx := Machine.put {} (s.port (.A : Half) 0).rx 0x42 (look {} (s.port (.A : Half) 0).rx 0x42) }) ((fun s : State => s.mPort (.A : Half) 0 fun z' => { z' with rx := Machine.upd {} (s.port (.A : Half) 0).rx 0x42 (fun y' => { y' with ackTick := none }) }) site))).mPort .A 0 fun q => { q with rx := [(0x42, { id := some 7, ackDue := some 5 })] }

/-- Every hypothesis of AsyncChannels is met, clause by clause. -/
theorem Sys2Proof.Tests.witness_AsyncChannels :
    (∃ (s : State) (h : Half) (p : Nat) (ty : Nat) (f : RxFrame) (b : List Nat) (x : AsyncRx), p < 80 ∧ (s.port h p).pstate = 4 ∧ asyncHead p (upAsync p) (· - 16) f = .ok b ∧ s.asyncTag h p b = true ∧ ty = numAt b 0 1 ∧ x = look {} (s.port h p).rx ty ∧ x.id = some (numAt b 8 2)) ∧
    (∃ (s : State) (h : Half) (p : Nat) (ty : Nat) (f : RxFrame) (b : List Nat) (x : AsyncRx), p < 80 ∧ (s.port h p).pstate = 4 ∧ asyncHead p (upAsync p) (· - 16) f = .ok b ∧ s.asyncTag h p b = true ∧ ty = numAt b 0 1 ∧ x = look {} (s.port h p).rx ty ∧ x.id ≠ some (numAt b 8 2)) ∧
    (∃ (s : State) (h : Half) (p : Nat) (off : Nat) (f : RxFrame), p < 80 ∧ (s.port h p).pstate = 4 ∧ asyncHead p (upAsync p) (· - 16) f = .error off) ∧
    (∃ (s : State) (h : Half) (p : Nat) (f : RxFrame) (b : List Nat), p < 80 ∧ (s.port h p).pstate = 4 ∧ asyncHead p (upAsync p) (· - 16) f = .ok b ∧ s.asyncTag h p b = false) ∧
    (∃ (s : State) (h : Half) (p : Nat) (f : RxFrame), ((s.port h p).pstate ≠ 4 ∨ 80 ≤ p)) ∧
    (∃ (s : State) (h : Half) (p : Nat) (ty : Nat) (m : Nat) (x : AsyncRx), x = look {} (s.port h p).rx ty ∧ x.id = some m ∧ x.ackDue.isSome = true ∧ x.ackTick ≠ some (s.tick h)) ∧
    (∃ (s : State) (h : Half) (p : Nat) (ty : Nat), (look {} (s.port h p).rx ty).ackTick = some (s.tick h)) ∧
    (∃ (s : State) (h : Half) (p : Nat) (ty : Nat) (f : RxFrame) (b : List Nat) (m : AsyncMsg) (l : List AsyncMsg), p < 80 ∧ ((s.port h p).pstate = 3 ∨ (s.port h p).pstate = 4) ∧ asyncHead p [0x4F] (· - 16) f = .ok b ∧ s.asyncTag h p b = true ∧ ty = numAt (b.drop 16) 0 1 ∧ (look {} (s.port h p).tx ty).msgs = m :: l ∧ m.id = numAt (b.drop 16) 2 2 ∧ m.nsegs ≤ numAt (b.drop 16) 4 2) ∧
    (∃ (s : State) (h : Half) (p : Nat) (f : RxFrame), (80 ≤ p ∨ ((s.port h p).pstate ≠ 3 ∧ (s.port h p).pstate ≠ 4))) ∧
    (∃ (s : State) (h : Half) (p : Nat) (ty : Nat) (g : Nat) (m : AsyncMsg) (l : List AsyncMsg) (e : Nat × Nat × Nat), (look {} (s.port h p).tx ty).msgs = m :: l ∧ m.out.find? (fun e => e.1 = g) = some e ∧ e.2.1 + 40 ≤ s.tick h ∧ g ∉ m.again ∧ e.2.2 < 8) ∧
    (∃ (s : State) (h : Half) (p : Nat) (ty : Nat) (g : Nat) (m : AsyncMsg) (l : List AsyncMsg) (e : Nat × Nat × Nat), (look {} (s.port h p).tx ty).msgs = m :: l ∧ m.out.find? (fun e => e.1 = g) = some e ∧ e.2.1 + 40 ≤ s.tick h ∧ g ∉ m.again ∧ 8 ≤ e.2.2) ∧
    (∃ (s : State) (h : Half) (p : Nat) (ty : Nat) (g : Nat), (look {} (s.port h p).tx ty).msgs = []) ∧
    (∃ (s : State) (h : Half) (p : Nat) (room : Nat) (x : Nat × (Nat × Nat × Nat)) (l : List (Nat × (Nat × Nat × Nat))), p < 80 ∧ (s.port h p).pstate = 4 ∧ s.pstate ≠ 1 ∧ (s.hf h).twn.pertActive = false ∧ (s.hf h).thm.step = 0 ∧ 2 ≤ room ∧ (s.port h p).rx.filterMap (fun e => e.2.ackOut.map fun a => (e.1, a)) = x :: l) ∧
    (∃ (s : State) (h : Half) (p : Nat) (room : Nat) (m : AsyncMsg) (l : List AsyncMsg), p < 80 ∧ (s.port h p).pstate = 4 ∧ s.pstate ≠ 1 ∧ (s.hf h).twn.pertActive = false ∧ (s.hf h).thm.step = 0 ∧ (s.port h p).rx.filterMap (fun e => e.2.ackOut.map fun a => (e.1, a)) = [] ∧ (look {} (s.port h p).tx 0x43).msgs = m :: l ∧ m.again = [] ∧ m.sent < m.nsegs ∧ m.sent < m.next + 32 ∧ 16 ≤ room ∧ segBlocks (min (segSize s h p) (m.bytes.length - m.sent * segSize s h p)) (s.portAuth h p) ≤ 16) ∧
    (∃ (s : State) (h : Half) (p : Nat) (room : Nat) (g : Nat) (m : AsyncMsg) (l : List AsyncMsg) (k : List Nat), p < 80 ∧ (s.port h p).pstate = 4 ∧ s.pstate ≠ 1 ∧ (s.hf h).twn.pertActive = false ∧ (s.hf h).thm.step = 0 ∧ (s.port h p).rx.filterMap (fun e => e.2.ackOut.map fun a => (e.1, a)) = [] ∧ (look {} (s.port h p).tx 0x43).msgs = m :: l ∧ m.again = g :: k ∧ g < m.sent ∧ 16 ≤ room ∧ segBlocks (min (segSize s h p) (m.bytes.length - g * segSize s h p)) (s.portAuth h p) ≤ 16) ∧
    (∃ (s : State) (h : Half) (p : Nat) (room : Nat), (((s.port h p).pstate ≠ 4 ∧ (s.port h p).pstate ≠ 3) ∨ s.pstate = 1 ∨ 80 ≤ p)) ∧
    (∃ (s : State) (h : Half) (p : Nat) (m : List Nat) (l : List (List Nat)), (look {} (s.port h p).rx 0x42).done = m :: l) ∧
    (∃ (s : State) (h : Half) (p : Nat), (look {} (s.port h p).rx 0x42).done = []) ∧
    (∃ (s : State) (h : Half), s.tick h % 20000 = 0 ∧ (s.hf h).tck.step = none) ∧
    (∃ (s : State) (h : Half) (r : StepReq), (s.hf h).tck.step = some r ∧ r.edge ≠ 0 ∧ s.tick h + 100 ≤ r.edge) ∧
    (∃ (s : State) (h : Half), s.tick h % 20000 ≠ 0 ∧ (s.hf h).tck.step = none) :=
   ⟨⟨sAsyncChannels0, .A, 0, numAt (((rsDecodeAll ({ cv := false, blocks := [rsEncode ([0x42, 2, 0, 0, 0, 0, 0, 0] ++ [0, 0, 0, 0, 16, 0, 0, 0] ++ [1])], at_ := 0 } : RxFrame).blocks).getD ([], 0)).1 : List Nat) 0 1, { cv := false, blocks := [rsEncode ([0x42, 2, 0, 0, 0, 0, 0, 0] ++ [0, 0, 0, 0, 16, 0, 0, 0] ++ [1])], at_ := 0 }, ((rsDecodeAll ({ cv := false, blocks := [rsEncode ([0x42, 2, 0, 0, 0, 0, 0, 0] ++ [0, 0, 0, 0, 16, 0, 0, 0] ++ [1])], at_ := 0 } : RxFrame).blocks).getD ([], 0)).1, look {} (sAsyncChannels0.port (.A : Half) 0).rx (numAt (((rsDecodeAll ({ cv := false, blocks := [rsEncode ([0x42, 2, 0, 0, 0, 0, 0, 0] ++ [0, 0, 0, 0, 16, 0, 0, 0] ++ [1])], at_ := 0 } : RxFrame).blocks).getD ([], 0)).1 : List Nat) 0 1 : Nat), by decide +kernel⟩,
    ⟨sAsyncChannels1, .A, 0, numAt (((rsDecodeAll ({ cv := false, blocks := [rsEncode ([0x42, 2, 0, 0, 0, 0, 0, 0] ++ [0, 0, 0, 0, 16, 0, 0, 0] ++ [1])], at_ := 0 } : RxFrame).blocks).getD ([], 0)).1 : List Nat) 0 1, { cv := false, blocks := [rsEncode ([0x42, 2, 0, 0, 0, 0, 0, 0] ++ [0, 0, 0, 0, 16, 0, 0, 0] ++ [1])], at_ := 0 }, ((rsDecodeAll ({ cv := false, blocks := [rsEncode ([0x42, 2, 0, 0, 0, 0, 0, 0] ++ [0, 0, 0, 0, 16, 0, 0, 0] ++ [1])], at_ := 0 } : RxFrame).blocks).getD ([], 0)).1, look {} (sAsyncChannels1.port (.A : Half) 0).rx (numAt (((rsDecodeAll ({ cv := false, blocks := [rsEncode ([0x42, 2, 0, 0, 0, 0, 0, 0] ++ [0, 0, 0, 0, 16, 0, 0, 0] ++ [1])], at_ := 0 } : RxFrame).blocks).getD ([], 0)).1 : List Nat) 0 1 : Nat), by decide +kernel⟩,
    ⟨site.mPort Half.A 0 fun z' => { z' with pstate := 4 }, Half.A, 0, 0x10, { cv := true, blocks := [], at_ := 0 }, by decide +kernel⟩,
    ⟨(site.mPort (.A : Half) 0 fun z' => { z' with pstate := 4 }).srf .nlk .A 0 30 30 1, .A, 0, { cv := false, blocks := [rsEncode ([0x42, 2, 0, 0, 0, 0, 0, 0] ++ [0, 0, 0, 0, 16, 0, 0, 0] ++ [1])], at_ := 0 }, ((rsDecodeAll ({ cv := false, blocks := [rsEncode ([0x42, 2, 0, 0, 0, 0, 0, 0] ++ [0, 0, 0, 0, 16, 0, 0, 0] ++ [1])], at_ := 0 } : RxFrame).blocks).getD ([], 0)).1, by decide +kernel⟩,
    ⟨site.mPort Half.A 0 fun z' => { z' with pstate := 5 }, Half.A, 0, { cv := true, blocks := [], at_ := 0 }, by decide +kernel⟩,
    ⟨sAsyncChannels5, .A, 0, 0x42, 7, look {} (sAsyncChannels5.port (.A : Half) 0).rx 0x42, by decide +kernel⟩,
    ⟨(fun s : State => s.mPort Half.A 0 fun z' => { z' with rx := Machine.upd {} (s.port Half.A 0).rx 0 (fun y' => { y' with ackTick := some (s.tick Half.A) }) }) site, Half.A, 0, 0, by decide +kernel⟩,
    ⟨((site.mPort (.A : Half) 0 fun z' => { z' with pstate := 3 }).mPort .A 0 fun q => { q with pstate := 3, tx := [(0x43, { msgs := [{ id := 0, bytes := [1, 2, 3], nsegs := 1 }] })] }).srf .nlk .A 0 30 30 0, .A, 0, numAt ((((rsDecodeAll ({ cv := false, blocks := [rsEncode ([0x4F, 2, 0, 0, 0, 0, 0, 0] ++ [0, 0, 0, 0, 12, 0, 0, 0] ++ [0x43, 0, 0, 0, 1])], at_ := 0 } : RxFrame).blocks).getD ([], 0)).1 : List Nat).drop 16) 0 1, { cv := false, blocks := [rsEncode ([0x4F, 2, 0, 0, 0, 0, 0, 0] ++ [0, 0, 0, 0, 12, 0, 0, 0] ++ [0x43, 0, 0, 0, 1])], at_ := 0 }, ((rsDecodeAll ({ cv := false, blocks := [rsEncode ([0x4F, 2, 0, 0, 0, 0, 0, 0] ++ [0, 0, 0, 0, 12, 0, 0, 0] ++ [0x43, 0, 0, 0, 1])], at_ := 0 } : RxFrame).blocks).getD ([], 0)).1, { id := 0, bytes := [1, 2, 3], nsegs := 1 }, [], by decide +kernel⟩,
    ⟨site, Half.A, 0, { cv := true, blocks := [], at_ := 0 }, by decide +kernel⟩,
    ⟨(fun s : State => s.mPort Half.A 0 fun z' => { z' with tx := Machine.upd {} (s.port Half.A 0).tx 0 (fun y' => { y' with msgs := ({ id := 0, bytes := [1, 2, 3], nsegs := 1, out := [(0, 5, 0)], sent := 1 } : AsyncMsg) :: ([] : List AsyncMsg) }) }) site, Half.A, 0, 0, 0, { id := 0, bytes := [1, 2, 3], nsegs := 1, out := [(0, 5, 0)], sent := 1 }, [], (0, 5, 0), by decide +kernel⟩,
    ⟨(fun s : State => s.mPort Half.A 0 fun z' => { z' with tx := Machine.upd {} (s.port Half.A 0).tx 0 (fun y' => { y' with msgs := ({ id := 0, bytes := [1, 2, 3], nsegs := 1, out := [(0, 5, 8)], sent := 1 } : AsyncMsg) :: ([] : List AsyncMsg) }) }) site, Half.A, 0, 0, 0, { id := 0, bytes := [1, 2, 3], nsegs := 1, out := [(0, 5, 8)], sent := 1 }, [], (0, 5, 8), by decide +kernel⟩,
    ⟨(fun s : State => s.mPort Half.A 0 fun z' => { z' with tx := Machine.upd {} (s.port Half.A 0).tx 0 (fun y' => { y' with msgs := [] }) }) site, Half.A, 0, 0, 0, by decide +kernel⟩,
    ⟨site.mPort .A 0 fun q => { q with pstate := 4, rx := [(0x43, { ackOut := some (7, 1, 0) })] }, .A, 0, 2, (0x43, (7, 1, 0)), [], by decide +kernel⟩,
    ⟨(fun s : State => s.mPort Half.A 0 fun z' => { z' with tx := Machine.upd {} (s.port Half.A 0).tx 0x43 (fun y' => { y' with msgs := ({ ({ id := 0, bytes := [1, 2, 3], nsegs := 1 } : AsyncMsg) with again := [] } : AsyncMsg) :: ([] : List AsyncMsg) }) }) ((((site.srf .pwr .A 8 31 29 (2)).mPort Half.A 0 fun z' => { z' with pstate := 4 }).mh Half.A fun z' => { z' with twn.pertActive := false }).mh Half.A fun z' => { z' with thm.step := 0 }), Half.A, 0, 16, { ({ id := 0, bytes := [1, 2, 3], nsegs := 1 } : AsyncMsg) with again := [] }, [], by decide +kernel⟩,
    ⟨(fun s : State => s.mPort Half.A 0 fun z' => { z' with tx := Machine.upd {} (s.port Half.A 0).tx 0x43 (fun y' => { y' with msgs := ({ id := 0, bytes := [1, 2, 3], nsegs := 1, out := [(0, 5, 0)], sent := 1, again := [0] } : AsyncMsg) :: ([] : List AsyncMsg) }) }) ((((site.srf .pwr .A 8 31 29 (2)).mPort Half.A 0 fun z' => { z' with pstate := 4 }).mh Half.A fun z' => { z' with twn.pertActive := false }).mh Half.A fun z' => { z' with thm.step := 0 }), Half.A, 0, 16, 0, { id := 0, bytes := [1, 2, 3], nsegs := 1, out := [(0, 5, 0)], sent := 1, again := [0] }, [], [], by decide +kernel⟩,
    ⟨site.srf .pwr .A 8 31 29 (1), Half.A, 0, 0, by decide +kernel⟩,
    ⟨(fun s : State => s.mPort Half.A 0 fun z' => { z' with rx := Machine.upd {} (s.port Half.A 0).rx 0x42 (fun y' => { y' with done := ([] : List Nat) :: ([] : List (List Nat)) }) }) site, Half.A, 0, [], [], by decide +kernel⟩,
    ⟨(fun s : State => s.mPort Half.A 0 fun z' => { z' with rx := Machine.upd {} (s.port Half.A 0).rx 0x42 (fun y' => { y' with done := [] }) }) site, Half.A, 0, by decide +kernel⟩,
    ⟨({ site with halfA := { half0 with tck := { half0.tck with tick := 100000 } } }.mTck Half.A fun z' => { z' with tick := 100000 + 0 }).mh Half.A fun z' => { z' with tck.step := none }, Half.A, by decide +kernel⟩,
    ⟨(site.mh (.A : Half) fun z' => { z' with tck.step := some ({ ticks := 1, edge := 100100, org := none } : StepReq) }).mTck .A fun y => { y with step := some { ticks := 1, edge := 100100, org := none } }, .A, { ticks := 1, edge := 100100, org := none }, by decide +kernel⟩,
    ⟨(site.mTck Half.A fun z' => { z' with tick := 100000 + 1 }).mh Half.A fun z' => { z' with tck.step := none }, Half.A, by decide +kernel⟩⟩

/-- Every hypothesis of RemoteSelection is met, clause by clause. -/
theorem Sys2Proof.Tests.witness_RemoteSelection :
    (∃ (s : State) (p : Nat) (d : Half) (f : RxFrame), goodDown (s.rem p) p d f = none) ∧
    (∃ (s : State) (p : Nat) (ty : Nat) (d : Half) (f : RxFrame) (g : RFrame), goodDown (s.rem p) p d f = some (ty, g) ∧ ty ≠ 0x15 ∧ (s.rem p).firstMain = none ∧ ((∀ c, (s.rem p).cif = some c → c ≤ g.claim))) ∧
    (∃ (s : State) (p : Nat) (ty : Nat) (c : Nat) (d : Half) (f : RxFrame) (g : RFrame), goodDown (s.rem p) p d f = some (ty, g) ∧ ty ≠ 0x15 ∧ (s.rem p).firstMain = none ∧ (s.rem p).spareMain = none ∧ (s.rem p).cif = some c ∧ g.claim < c) ∧
    (∃ (s : State) (p : Nat), (s.rem p).firstMain = none ∧ (s.rem p).firstHarv.isSome = true) ∧
    (∃ (s : State) (p : Nat) (b : Nat) (v : Int) (f : RFrame), (s.rem p).firstMain = some f ∧ (s.rem p).linkLost = false) ∧
    (∃ (s : State) (p : Nat) (b : Nat) (v : Int), (s.rem p).firstMain = none ∧ (s.rem p).linkLost = false ∧ (s.rem p).missed = 2) ∧
    (∃ (s : State) (p : Nat) (b : Nat) (v : Int), (s.rem p).stepEdge = 0) ∧
    (∃ (s : State) (p : Nat) (q : Nat), (s.rem p).cif = none ∧ q ≠ ((s.rem p).tick + 1) % 65536) ∧
    (∃ (s : State) (p : Nat), (s.rem p).linkLost = true ∧ 500 ≤ (s.rem p).sinceL ∧ (s.rem p).contactors ≠ 0) ∧
    (∃ (s : State) (p : Nat), ((s.rem p).linkLost = false ∨ (s.rem p).sinceL < 500 ∨ (s.rem p).contactors = 0)) ∧
    (∃ (s : State) (p : Nat) (d : Half), ((s.rem p).side d).joined = false ∧ ((s.rem p).side d).helloTick = none ∧ s.portEn d p = true) ∧
    (∃ (s : State) (p : Nat) (d : Half), (((s.rem p).side d).joined = true ∨ s.portEn d p = false)) :=
   ⟨⟨site, 0, Half.A, { cv := true, blocks := [], at_ := 0 }, by decide +kernel⟩,
    ⟨(site.mRem 0 fun z' => { z' with firstMain := none }).mRem 0 fun r => { r with port := some 0 }, 0, mainType 0, .A, { cv := false, blocks := [rsEncode [mainType 0, 0, 0, 0, 2, 0, 0, 0]], at_ := 0 }, ((goodDown { port := some 0 } 0 .A ({ cv := false, blocks := [rsEncode [mainType 0, 0, 0, 0, 2, 0, 0, 0]], at_ := 0 } : RxFrame)).getD (0, { claim := 0, resume := false, bytes := [] })).2, by decide +kernel, by decide +kernel, by decide +kernel, all_some (by decide +kernel)⟩,
    ⟨(((site.mRem 0 fun z' => { z' with firstMain := none }).mRem 0 fun z' => { z' with spareMain := none }).mRem 0 fun z' => { z' with cif := some 4 }).mRem 0 fun r => { r with port := some 0 }, 0, mainType 0, 4, .A, { cv := false, blocks := [rsEncode [mainType 0, 0, 0, 0, 2, 0, 0, 0]], at_ := 0 }, ((goodDown { port := some 0 } 0 .A ({ cv := false, blocks := [rsEncode [mainType 0, 0, 0, 0, 2, 0, 0, 0]], at_ := 0 } : RxFrame)).getD (0, { claim := 0, resume := false, bytes := [] })).2, by decide +kernel⟩,
    ⟨(site.mRem 0 fun z' => { z' with firstMain := none }).mRem 0 fun r => { r with firstHarv := some { claim := 2, resume := false, bytes := [] } }, 0, by decide +kernel⟩,
    ⟨(site.mRem 0 fun z' => { z' with firstMain := some ({ claim := 2, resume := false, bytes := [] } : RFrame) }).mRem 0 fun z' => { z' with linkLost := false }, 0, 0, 0, { claim := 2, resume := false, bytes := [] }, by decide +kernel⟩,
    ⟨((site.mRem 0 fun z' => { z' with firstMain := none }).mRem 0 fun z' => { z' with linkLost := false }).mRem 0 fun z' => { z' with missed := 2 }, 0, 0, 0, by decide +kernel⟩,
    ⟨site.mRem 0 fun z' => { z' with stepEdge := 0 }, 0, 0, 0, by decide +kernel⟩,
    ⟨site.mRem 0 fun z' => { z' with cif := none }, 0, 0, by decide +kernel⟩,
    ⟨((site.mRem 0 fun z' => { z' with sinceL := 500 }).mRem 0 fun z' => { z' with contactors := 1 }).mRem 0 fun z' => { z' with linkLost := true }, 0, by decide +kernel⟩,
    ⟨site.mRem 0 fun z' => { z' with linkLost := false }, 0, by decide +kernel⟩,
    ⟨(fun s : State => (s).srf .nlk Half.A (0 * 0x40) 31 31 (Bool.toNat (true))) site, 0, Half.A, by decide +kernel⟩,
    ⟨(fun s : State => (s).srf .nlk Half.A (0 * 0x40) 31 31 (Bool.toNat (false))) site, 0, Half.A, by decide +kernel⟩⟩

/-- Every hypothesis of HalfResetsAndThermalStop is met, clause by clause. -/
theorem Sys2Proof.Tests.witness_HalfResetsAndThermalStop :
    (∃ (s : State) (h : Half) (d : Nat), (s.hf h).twn.resetDue = some d ∧ d ≤ s.tick h ∧ (s.hf h).twn.unhealthy = true ∧ (s.hf h).twn.uhTimes.length < 3) ∧
    (∃ (s : State) (h : Half) (d : Nat), (s.hf h).twn.resetDue = some d ∧ d ≤ s.tick h ∧ (s.hf h).twn.unhealthy = true ∧ 3 ≤ (s.hf h).twn.uhTimes.length) ∧
    (∃ (s : State) (h : Half), ((s.hf h).twn.resetDue = none ∨ (s.hf h).twn.unhealthy = false)) ∧
    (∃ (s : State) (o : Org) (n : Nat) (r : Nat) (x : Half) (h : Half), RunsAt s o 0x0302 x r ∧ r ∈ [rInstaller, rVendor] ∧ halfOf n = some h ∧ (s.hf h).twn.held = true) ∧
    (∃ (s : State) (o : Org) (n : Nat) (r : Nat) (x : Half) (h : Half), RunsAt s o 0x0302 x r ∧ r ∈ [rInstaller, rVendor] ∧ halfOf n = some h ∧ (s.hf h).twn.held = false) ∧
    (∃ (s : State) (pk : Int) (t0 : Nat) (h : Half), s.therm.stop = some (t0, h) ∧ t0 + 500 ≤ s.now) ∧
    (∃ (s : State) (pk : Int), s.therm.stop = none) ∧
    (∃ (s : State) (pk : Int), 13000 ≤ s.halfA.thm.tj) ∧
    (∃ (s : State) (pk : Int) (t0 : Nat) (h : Half) (d : Half), s.halfA.thm.tj < 13000 ∧ s.halfB.thm.tj < 13000 ∧ s.therm.stop = some (t0, h) ∧ s.therm.doer = some d ∧ s.charge ≠ some d) ∧
    (∃ (s : State) (pk : Int), s.halfA.thm.tj < 13000 ∧ s.halfB.thm.tj < 13000 ∧ (s.therm.stop = none ∨ s.therm.doer = none ∨ s.charge = s.therm.doer)) ∧
    (∃ (s : State) (pk : Int), s.therm.release = false ∧ (9500 ≤ pk ∨ s.therm.down = false)) ∧
    (∃ (s : State) (pk : Int) (r : ShutRec), pk < 9500 ∧ s.therm.release = false ∧ s.therm.down = true ∧ s.therm.recs.getLast? = some r ∧ s.halfA.twn.held = false ∧ s.halfB.twn.held = false) ∧
    (∃ (s : State) (o : Org) (r : Nat), RunsHere s o 0x0801 r ∧ r ∈ [rOperator, rInstaller, rVendor] ∧ (s.hf o.half).thm.hold = true ∧ s.therm.pkg < 9500) ∧
    (∃ (s : State) (o : Org) (x : Half) (r : Nat), RunsAt s o 0x0801 x r ∧ r ∈ [rOperator, rInstaller, rVendor] ∧ (s.hf o.half).thm.hold = false ∧ (s.hf x).thm.hold = false) ∧
    (∃ (s : State) (o : Org) (x : Half) (r : Nat) (f : Nat) (n : Nat), RunsAt s o 0x0802 x r ∧ (classRd 5).testBit r = true ∧ r < 6 ∧ (s.hf o.half).thm.hold = false ∧ f ≤ 15 ∧ 1 ≤ n ∧ n ≤ 16 ∧ Room s o (((s.therm.recs.reverse.drop f).take n).flatMap ShutRec.bytes).length) ∧
    (∃ (s : State) (o : Org) (x : Half) (r : Nat) (f : Nat) (n : Nat), RunsAt s o 0x0802 x r ∧ (classRd 5).testBit r = true ∧ r < 6 ∧ (s.hf o.half).thm.hold = false ∧ (15 < f ∨ n < 1 ∨ 16 < n)) :=
   ⟨⟨(site.mh Half.A fun z' => { z' with twn.resetDue := some 0 }).mh Half.A fun z' => { z' with twn.unhealthy := true }, Half.A, 0, by decide +kernel⟩,
    ⟨((site.mh Half.A fun z' => { z' with twn.resetDue := some 0 }).mh Half.A fun z' => { z' with twn.unhealthy := true }).mTwn Half.A fun y => { y with uhTimes := [1, 2, 3] }, Half.A, 0, by decide +kernel⟩,
    ⟨site.mh Half.A fun z' => { z' with twn.resetDue := none }, Half.A, by decide +kernel⟩,
    ⟨(site.srf .mbx Half.A 0 18 16 3).mh Half.A fun z' => { z' with twn.held := true }, { half := Half.A, ring := 28, ctag := 1, hb := 0 }, 1, 3, Half.A, Half.A, by unfold RunsAt; decide +kernel⟩,
    ⟨(site.srf .mbx Half.A 0 18 16 3).mh Half.A fun z' => { z' with twn.held := false }, { half := Half.A, ring := 28, ctag := 1, hb := 0 }, 1, 3, Half.A, Half.A, by unfold RunsAt; decide +kernel⟩,
    ⟨(fun s : State => { s with therm.stop := some (0, Half.A) }) site, 0, 0, Half.A, by decide +kernel⟩,
    ⟨(fun s : State => { s with therm.stop := none }) site, 0, by decide +kernel⟩,
    ⟨site.mh .A fun z' => { z' with thm.tj := 13000 }, 0, by decide +kernel⟩,
    ⟨(fun s : State => { s with therm.doer := some Half.B }) ((fun s : State => { s with therm.stop := some (0, Half.A) }) ((site.mh .A fun z' => { z' with thm.tj := 12999 }).mh .B fun z' => { z' with thm.tj := 12999 })), 0, 0, Half.A, Half.B, by decide +kernel⟩,
    ⟨(fun s : State => { s with therm.stop := none }) ((site.mh .A fun z' => { z' with thm.tj := 12999 }).mh .B fun z' => { z' with thm.tj := 12999 }), 0, by decide +kernel⟩,
    ⟨(fun s : State => { s with therm.release := false }) ((fun s : State => { s with therm.down := false }) site), 0, by decide +kernel⟩,
    ⟨(fun s : State => { s with therm := { s.therm with recs := [{ number := 1, tick := 0, rtc := 0, cause := 1, half := 0, tjA := 0, tjB := 0, pkg := 0, powers := [], drainMs := 0, inHour := 0 }] } }) ((((fun s : State => { s with therm.down := true }) ((fun s : State => { s with therm.release := false }) site)).mh .A fun z' => { z' with twn.held := false }).mh .B fun z' => { z' with twn.held := false }), 0, { number := 1, tick := 0, rtc := 0, cause := 1, half := 0, tjA := 0, tjB := 0, pkg := 0, powers := [], drainMs := 0, inHour := 0 }, by decide +kernel⟩,
    ⟨(((fun s : State => { s with therm.pkg := 9499 }) site).srf .mbx Half.A 0 18 16 1).mh Half.A fun z' => { z' with thm.hold := true }, { half := Half.A, ring := 28, ctag := 1, hb := 0 }, 1, by unfold RunsHere; decide +kernel⟩,
    ⟨((site.srf .mbx Half.A 0 18 16 1).mh Half.A fun z' => { z' with thm.hold := false }).mh Half.A fun z' => { z' with thm.hold := false }, { half := Half.A, ring := 28, ctag := 1, hb := 0 }, Half.A, 1, by unfold RunsAt; decide +kernel⟩,
    ⟨(site.srf .mbx Half.A 0 18 16 3).mh Half.A fun z' => { z' with thm.hold := false }, { half := Half.A, ring := 28, ctag := 1, hb := 0 }, Half.A, 3, 0, 1, by unfold RunsAt Room; decide +kernel⟩,
    ⟨(site.srf .mbx Half.A 0 18 16 3).mh Half.A fun z' => { z' with thm.hold := false }, { half := Half.A, ring := 28, ctag := 1, hb := 0 }, Half.A, 3, 0, 0, by unfold RunsAt; decide +kernel⟩⟩

/-- Every hypothesis of LaneValueInstructions is met, clause by clause. -/
theorem Sys2Proof.Tests.witness_LaneValueInstructions :
    (∃ (s : State) (w : LaneAt) (d : Fin 32) (i : BitVec 16), LaneTakes s w 1) ∧
    (∃ (s : State) (w : LaneAt) (d : Fin 32) (a : Fin 32), LaneTakes s w 1) ∧
    (∃ (s : State) (w : LaneAt) (d : Fin 32) (a : Fin 32) (b : Fin 32), LaneTakes s w 1) ∧
    (∃ (s : State) (w : LaneAt) (d : Fin 32) (a : Fin 32) (b : Fin 32), LaneTakes s w 1) ∧
    (∃ (s : State) (w : LaneAt) (d : Fin 32) (a : Fin 32), LaneTakes s w 1) ∧
    (∃ (s : State) (w : LaneAt) (d : Fin 32) (a : Fin 32), LaneTakes s w 1) ∧
    (∃ (s : State) (w : LaneAt) (d : Fin 32) (a : Fin 32) (b : Fin 32), LaneTakes s w 1) ∧
    (∃ (s : State) (w : LaneAt) (d : Fin 32) (a : Fin 32) (b : Fin 32), LaneTakes s w 1) ∧
    (∃ (s : State) (w : LaneAt) (d : Fin 32) (a : Fin 32) (b : Fin 32), LaneTakes s w 1) ∧
    (∃ (s : State) (w : LaneAt) (d : Fin 32) (a : Fin 32) (k : Fin 16), LaneTakes s w 1) ∧
    (∃ (s : State) (w : LaneAt) (d : Fin 32) (a : Fin 32) (k : Fin 16), LaneTakes s w 1) ∧
    (∃ (s : State) (w : LaneAt) (d : Fin 32) (a : Fin 32) (b : Fin 32), LaneTakes s w 1) ∧
    (∃ (s : State) (w : LaneAt) (d : Fin 32) (a : Fin 32) (b : Fin 32), LaneTakes s w 1) ∧
    (∃ (s : State) (w : LaneAt) (d : Fin 32) (a : Fin 32) (b : Fin 32), LaneTakes s w 1) ∧
    (∃ (s : State) (w : LaneAt) (d : Fin 32) (a : Fin 32) (b : Fin 32) (k : Fin 4), LaneTakes s w 1) ∧
    (∃ (s : State) (w : LaneAt) (d : Fin 32) (a : Fin 32) (b : Fin 32), (laneAt s w).run = true ∧ (laneAt s w).cyc + 1 ≤ s.laneBudget w.half (s.laneIdx w.half w.lane.val) ∧ condHolds (laneAt s w) w.cond = false) ∧
    (∃ (s : State) (w : LaneAt) (d : Fin 32) (a : Fin 32) (b : Fin 32), (laneAt s w).run = false) :=
   ⟨⟨site.mLane ({ half := Half.A, lane := 0, cond := Cond.always } : LaneAt).half ({ half := Half.A, lane := 0, cond := Cond.always } : LaneAt).lane.val fun z' => { z' with run := true }, { half := Half.A, lane := 0, cond := Cond.always }, 0, 0x0000#16, by unfold LaneTakes; decide +kernel⟩,
    ⟨site.mLane ({ half := Half.A, lane := 0, cond := Cond.always } : LaneAt).half ({ half := Half.A, lane := 0, cond := Cond.always } : LaneAt).lane.val fun z' => { z' with run := true }, { half := Half.A, lane := 0, cond := Cond.always }, 0, 0, by unfold LaneTakes; decide +kernel⟩,
    ⟨site.mLane ({ half := Half.A, lane := 0, cond := Cond.always } : LaneAt).half ({ half := Half.A, lane := 0, cond := Cond.always } : LaneAt).lane.val fun z' => { z' with run := true }, { half := Half.A, lane := 0, cond := Cond.always }, 0, 0, 0, by unfold LaneTakes; decide +kernel⟩,
    ⟨site.mLane ({ half := Half.A, lane := 0, cond := Cond.always } : LaneAt).half ({ half := Half.A, lane := 0, cond := Cond.always } : LaneAt).lane.val fun z' => { z' with run := true }, { half := Half.A, lane := 0, cond := Cond.always }, 0, 0, 0, by unfold LaneTakes; decide +kernel⟩,
    ⟨site.mLane ({ half := Half.A, lane := 0, cond := Cond.always } : LaneAt).half ({ half := Half.A, lane := 0, cond := Cond.always } : LaneAt).lane.val fun z' => { z' with run := true }, { half := Half.A, lane := 0, cond := Cond.always }, 0, 0, by unfold LaneTakes; decide +kernel⟩,
    ⟨site.mLane ({ half := Half.A, lane := 0, cond := Cond.always } : LaneAt).half ({ half := Half.A, lane := 0, cond := Cond.always } : LaneAt).lane.val fun z' => { z' with run := true }, { half := Half.A, lane := 0, cond := Cond.always }, 0, 0, by unfold LaneTakes; decide +kernel⟩,
    ⟨site.mLane ({ half := Half.A, lane := 0, cond := Cond.always } : LaneAt).half ({ half := Half.A, lane := 0, cond := Cond.always } : LaneAt).lane.val fun z' => { z' with run := true }, { half := Half.A, lane := 0, cond := Cond.always }, 0, 0, 0, by unfold LaneTakes; decide +kernel⟩,
    ⟨site.mLane ({ half := Half.A, lane := 0, cond := Cond.always } : LaneAt).half ({ half := Half.A, lane := 0, cond := Cond.always } : LaneAt).lane.val fun z' => { z' with run := true }, { half := Half.A, lane := 0, cond := Cond.always }, 0, 0, 0, by unfold LaneTakes; decide +kernel⟩,
    ⟨site.mLane ({ half := Half.A, lane := 0, cond := Cond.always } : LaneAt).half ({ half := Half.A, lane := 0, cond := Cond.always } : LaneAt).lane.val fun z' => { z' with run := true }, { half := Half.A, lane := 0, cond := Cond.always }, 0, 0, 0, by unfold LaneTakes; decide +kernel⟩,
    ⟨site.mLane ({ half := Half.A, lane := 0, cond := Cond.always } : LaneAt).half ({ half := Half.A, lane := 0, cond := Cond.always } : LaneAt).lane.val fun z' => { z' with run := true }, { half := Half.A, lane := 0, cond := Cond.always }, 0, 0, 0, by unfold LaneTakes; decide +kernel⟩,
    ⟨site.mLane ({ half := Half.A, lane := 0, cond := Cond.always } : LaneAt).half ({ half := Half.A, lane := 0, cond := Cond.always } : LaneAt).lane.val fun z' => { z' with run := true }, { half := Half.A, lane := 0, cond := Cond.always }, 0, 0, 0, by unfold LaneTakes; decide +kernel⟩,
    ⟨site.mLane ({ half := Half.A, lane := 0, cond := Cond.always } : LaneAt).half ({ half := Half.A, lane := 0, cond := Cond.always } : LaneAt).lane.val fun z' => { z' with run := true }, { half := Half.A, lane := 0, cond := Cond.always }, 0, 0, 0, by unfold LaneTakes; decide +kernel⟩,
    ⟨site.mLane ({ half := Half.A, lane := 0, cond := Cond.always } : LaneAt).half ({ half := Half.A, lane := 0, cond := Cond.always } : LaneAt).lane.val fun z' => { z' with run := true }, { half := Half.A, lane := 0, cond := Cond.always }, 0, 0, 0, by unfold LaneTakes; decide +kernel⟩,
    ⟨site.mLane ({ half := Half.A, lane := 0, cond := Cond.always } : LaneAt).half ({ half := Half.A, lane := 0, cond := Cond.always } : LaneAt).lane.val fun z' => { z' with run := true }, { half := Half.A, lane := 0, cond := Cond.always }, 0, 0, 0, by unfold LaneTakes; decide +kernel⟩,
    ⟨site.mLane ({ half := Half.A, lane := 0, cond := Cond.always } : LaneAt).half ({ half := Half.A, lane := 0, cond := Cond.always } : LaneAt).lane.val fun z' => { z' with run := true }, { half := Half.A, lane := 0, cond := Cond.always }, 0, 0, 0, 0, by unfold LaneTakes; decide +kernel⟩,
    ⟨site.mLane (⟨.A, 0, .ifTrue 0⟩ : LaneAt).half (⟨.A, 0, .ifTrue 0⟩ : LaneAt).lane.val fun z' => { z' with run := true }, ⟨.A, 0, .ifTrue 0⟩, 0, 0, 0, by decide +kernel⟩,
    ⟨site.mLane ({ half := Half.A, lane := 0, cond := Cond.always } : LaneAt).half ({ half := Half.A, lane := 0, cond := Cond.always } : LaneAt).lane.val fun z' => { z' with run := false }, { half := Half.A, lane := 0, cond := Cond.always }, 0, 0, 0, by decide +kernel⟩⟩

def Sys2Proof.Tests.sLaneAccumulatorInstructions11 : State := site.mLane ({ half := Half.A, lane := 0, cond := Cond.always } : LaneAt).half ({ half := Half.A, lane := 0, cond := Cond.always } : LaneAt).lane.val fun z' => { z' with run := true }

/-- Every hypothesis of LaneAccumulatorInstructions is met, clause by clause. -/
theorem Sys2Proof.Tests.witness_LaneAccumulatorInstructions :
    (∃ (s : State) (w : LaneAt) (d : Fin 4) (a : Fin 32) (b : Fin 32), LaneTakes s w 1) ∧
    (∃ (s : State) (w : LaneAt) (d : Fin 4) (a : Fin 32) (b : Fin 32), LaneTakes s w 1) ∧
    (∃ (s : State) (w : LaneAt) (d : Fin 4) (a : Fin 32) (b : Fin 32), LaneTakes s w 1) ∧
    (∃ (s : State) (w : LaneAt) (d : Fin 4) (a : Fin 32), LaneTakes s w 1) ∧
    (∃ (s : State) (w : LaneAt) (d : Fin 4) (a : Fin 4), LaneTakes s w 1) ∧
    (∃ (s : State) (w : LaneAt) (d : Fin 4) (a : Fin 4), LaneTakes s w 1) ∧
    (∃ (s : State) (w : LaneAt) (d : Fin 4) (a : Fin 4), LaneTakes s w 1) ∧
    (∃ (s : State) (w : LaneAt) (d : Fin 4) (k : Fin 32), LaneTakes s w 1 ∧ k.val < 16) ∧
    (∃ (s : State) (w : LaneAt) (d : Fin 4) (k : Fin 32), LaneTakes s w 1 ∧ 16 ≤ k.val) ∧
    (∃ (s : State) (w : LaneAt) (d : Fin 4) (a : Fin 32), LaneTakes s w 3) ∧
    (∃ (s : State) (w : LaneAt) (d : Fin 32) (a : Fin 4) (n : Fin 16), LaneTakes s w 1) ∧
    (∃ (s : State) (w : LaneAt) (d : Fin 4) (k : Fin 4) (a : Fin 32) (b : Fin 32) (r : Int), LaneTakes s w 1 ∧ r = min (max ((laneAt s w).ra d.val) ((laneAt s w).rv a.val * 32768)) ((laneAt s w).rv b.val * 32768)) ∧
    (∃ (s : State) (w : LaneAt) (d : Fin 4) (a : Fin 32) (b : Fin 32) (c : Cc), LaneTakes s w 1) ∧
    (∃ (s : State) (w : LaneAt) (d : Fin 4) (a : Fin 4) (b : Fin 4) (o : Plop), LaneTakes s w 1) :=
   ⟨⟨site.mLane ({ half := Half.A, lane := 0, cond := Cond.always } : LaneAt).half ({ half := Half.A, lane := 0, cond := Cond.always } : LaneAt).lane.val fun z' => { z' with run := true }, { half := Half.A, lane := 0, cond := Cond.always }, 0, 0, 0, by unfold LaneTakes; decide +kernel⟩,
    ⟨site.mLane ({ half := Half.A, lane := 0, cond := Cond.always } : LaneAt).half ({ half := Half.A, lane := 0, cond := Cond.always } : LaneAt).lane.val fun z' => { z' with run := true }, { half := Half.A, lane := 0, cond := Cond.always }, 0, 0, 0, by unfold LaneTakes; decide +kernel⟩,
    ⟨site.mLane ({ half := Half.A, lane := 0, cond := Cond.always } : LaneAt).half ({ half := Half.A, lane := 0, cond := Cond.always } : LaneAt).lane.val fun z' => { z' with run := true }, { half := Half.A, lane := 0, cond := Cond.always }, 0, 0, 0, by unfold LaneTakes; decide +kernel⟩,
    ⟨site.mLane ({ half := Half.A, lane := 0, cond := Cond.always } : LaneAt).half ({ half := Half.A, lane := 0, cond := Cond.always } : LaneAt).lane.val fun z' => { z' with run := true }, { half := Half.A, lane := 0, cond := Cond.always }, 0, 0, by unfold LaneTakes; decide +kernel⟩,
    ⟨site.mLane ({ half := Half.A, lane := 0, cond := Cond.always } : LaneAt).half ({ half := Half.A, lane := 0, cond := Cond.always } : LaneAt).lane.val fun z' => { z' with run := true }, { half := Half.A, lane := 0, cond := Cond.always }, 0, 0, by unfold LaneTakes; decide +kernel⟩,
    ⟨site.mLane ({ half := Half.A, lane := 0, cond := Cond.always } : LaneAt).half ({ half := Half.A, lane := 0, cond := Cond.always } : LaneAt).lane.val fun z' => { z' with run := true }, { half := Half.A, lane := 0, cond := Cond.always }, 0, 0, by unfold LaneTakes; decide +kernel⟩,
    ⟨site.mLane ({ half := Half.A, lane := 0, cond := Cond.always } : LaneAt).half ({ half := Half.A, lane := 0, cond := Cond.always } : LaneAt).lane.val fun z' => { z' with run := true }, { half := Half.A, lane := 0, cond := Cond.always }, 0, 0, by unfold LaneTakes; decide +kernel⟩,
    ⟨site.mLane ({ half := Half.A, lane := 0, cond := Cond.always } : LaneAt).half ({ half := Half.A, lane := 0, cond := Cond.always } : LaneAt).lane.val fun z' => { z' with run := true }, { half := Half.A, lane := 0, cond := Cond.always }, 0, 0, by unfold LaneTakes; decide +kernel⟩,
    ⟨site.mLane ({ half := Half.A, lane := 0, cond := Cond.always } : LaneAt).half ({ half := Half.A, lane := 0, cond := Cond.always } : LaneAt).lane.val fun z' => { z' with run := true }, { half := Half.A, lane := 0, cond := Cond.always }, 0, 16, by unfold LaneTakes; decide +kernel⟩,
    ⟨site.mLane ({ half := Half.A, lane := 0, cond := Cond.always } : LaneAt).half ({ half := Half.A, lane := 0, cond := Cond.always } : LaneAt).lane.val fun z' => { z' with run := true }, { half := Half.A, lane := 0, cond := Cond.always }, 0, 0, by unfold LaneTakes; decide +kernel⟩,
    ⟨site.mLane ({ half := Half.A, lane := 0, cond := Cond.always } : LaneAt).half ({ half := Half.A, lane := 0, cond := Cond.always } : LaneAt).lane.val fun z' => { z' with run := true }, { half := Half.A, lane := 0, cond := Cond.always }, 0, 0, 0, by unfold LaneTakes; decide +kernel⟩,
    ⟨sLaneAccumulatorInstructions11, { half := Half.A, lane := 0, cond := Cond.always }, 0, 0, 0, 0, min (max ((laneAt sLaneAccumulatorInstructions11 ({ half := Half.A, lane := 0, cond := Cond.always } : LaneAt)).ra (0 : Fin 4).val) ((laneAt sLaneAccumulatorInstructions11 ({ half := Half.A, lane := 0, cond := Cond.always } : LaneAt)).rv (0 : Fin 32).val * 32768)) ((laneAt sLaneAccumulatorInstructions11 ({ half := Half.A, lane := 0, cond := Cond.always } : LaneAt)).rv (0 : Fin 32).val * 32768), by unfold LaneTakes; decide +kernel⟩,
    ⟨site.mLane ({ half := Half.A, lane := 0, cond := Cond.always } : LaneAt).half ({ half := Half.A, lane := 0, cond := Cond.always } : LaneAt).lane.val fun z' => { z' with run := true }, { half := Half.A, lane := 0, cond := Cond.always }, 0, 0, 0, .eq, by unfold LaneTakes; decide +kernel⟩,
    ⟨site.mLane ({ half := Half.A, lane := 0, cond := Cond.always } : LaneAt).half ({ half := Half.A, lane := 0, cond := Cond.always } : LaneAt).lane.val fun z' => { z' with run := true }, { half := Half.A, lane := 0, cond := Cond.always }, 0, 0, 0, .and, by unfold LaneTakes; decide +kernel⟩⟩

def Sys2Proof.Tests.sLaneFlowAndMemory11 : State := site.mLane ({ half := Half.A, lane := 0, cond := Cond.always } : LaneAt).half ({ half := Half.A, lane := 0, cond := Cond.always } : LaneAt).lane.val fun z' => { z' with run := true }

/-- Every hypothesis of LaneFlowAndMemory is met, clause by clause. -/
theorem Sys2Proof.Tests.witness_LaneFlowAndMemory :
    (∃ (s : State) (w : LaneAt), LaneTakes s w 1) ∧
    (∃ (s : State) (w : LaneAt), LaneTakes s w 1) ∧
    (∃ (s : State) (w : LaneAt) (n : Fin 4096) (k : Fin 1024), (laneAt s w).run = true ∧ (laneAt s w).cyc + 1 ≤ s.laneBudget w.half (s.laneIdx w.half w.lane.val)) ∧
    (∃ (s : State) (w : LaneAt) (a : Fin 32) (m : Fin 4096) (k : Fin 32), (laneAt s w).run = true ∧ (laneAt s w).cyc + 1 ≤ s.laneBudget w.half (s.laneIdx w.half w.lane.val)) ∧
    (∃ (s : State) (w : LaneAt) (d : Fin 4) (i : BitVec 16), LaneTakes s w 1) ∧
    (∃ (s : State) (w : LaneAt) (d : Fin 4) (i : BitVec 16), LaneTakes s w 1) ∧
    (∃ (s : State) (w : LaneAt) (r : Fin 32) (m : MemOp), LaneTakes s w 2) ∧
    (∃ (s : State) (w : LaneAt) (r : Fin 32) (m : MemOp), LaneTakes s w 1 ∧ (laneAt s w).ea m < 0x1000) ∧
    (∃ (s : State) (w : LaneAt) (r : Fin 32) (m : MemOp), LaneTakes s w 1 ∧ 0x1000 ≤ (laneAt s w).ea m) ∧
    (∃ (s : State) (w : LaneAt) (r : Fin 4) (m : MemOp), LaneTakes s w 2 ∧ (laneAt s w).ea m % 2 = 1) ∧
    (∃ (s : State) (w : LaneAt) (r : Fin 4) (m : MemOp), LaneTakes s w 2 ∧ (laneAt s w).ea m % 2 = 0 ∧ (laneAt s w).ea m < 0x1000) ∧
    (∃ (s : State) (w : LaneAt) (r : Fin 4) (m : MemOp) (n : Nat), LaneTakes s w 2 ∧ (laneAt s w).ea m % 2 = 0 ∧ (laneAt s w).ea m < 0x1000 ∧ n = (clampI (-2147483648) 2147483647 ((laneAt s w).ra r.val) % 4294967296).toNat) ∧
    (∃ (s : State) (w : LaneAt) (r : Fin 4) (o : BitVec 16), LaneTakes s w 2) ∧
    (∃ (s : State) (w : LaneAt) (a : Fin 32) (i : Fin 64), LaneTakes s w 1 ∧ i.val < s.slotCnt w.half w.lane.val) ∧
    (∃ (s : State) (w : LaneAt) (a : Fin 32) (i : Fin 64), LaneTakes s w 1 ∧ s.slotCnt w.half w.lane.val ≤ i.val) :=
   ⟨⟨site.mLane ({ half := Half.A, lane := 0, cond := Cond.always } : LaneAt).half ({ half := Half.A, lane := 0, cond := Cond.always } : LaneAt).lane.val fun z' => { z' with run := true }, { half := Half.A, lane := 0, cond := Cond.always }, by unfold LaneTakes; decide +kernel⟩,
    ⟨site.mLane ({ half := Half.A, lane := 0, cond := Cond.always } : LaneAt).half ({ half := Half.A, lane := 0, cond := Cond.always } : LaneAt).lane.val fun z' => { z' with run := true }, { half := Half.A, lane := 0, cond := Cond.always }, by unfold LaneTakes; decide +kernel⟩,
    ⟨site.mLane ({ half := Half.A, lane := 0, cond := Cond.always } : LaneAt).half ({ half := Half.A, lane := 0, cond := Cond.always } : LaneAt).lane.val fun z' => { z' with run := true }, { half := Half.A, lane := 0, cond := Cond.always }, 0, 0, by decide +kernel⟩,
    ⟨site.mLane ({ half := Half.A, lane := 0, cond := Cond.always } : LaneAt).half ({ half := Half.A, lane := 0, cond := Cond.always } : LaneAt).lane.val fun z' => { z' with run := true }, { half := Half.A, lane := 0, cond := Cond.always }, 0, 0, 0, by decide +kernel⟩,
    ⟨site.mLane ({ half := Half.A, lane := 0, cond := Cond.always } : LaneAt).half ({ half := Half.A, lane := 0, cond := Cond.always } : LaneAt).lane.val fun z' => { z' with run := true }, { half := Half.A, lane := 0, cond := Cond.always }, 0, 0x0000#16, by unfold LaneTakes; decide +kernel⟩,
    ⟨site.mLane ({ half := Half.A, lane := 0, cond := Cond.always } : LaneAt).half ({ half := Half.A, lane := 0, cond := Cond.always } : LaneAt).lane.val fun z' => { z' with run := true }, { half := Half.A, lane := 0, cond := Cond.always }, 0, 0x0000#16, by unfold LaneTakes; decide +kernel⟩,
    ⟨site.mLane ({ half := Half.A, lane := 0, cond := Cond.always } : LaneAt).half ({ half := Half.A, lane := 0, cond := Cond.always } : LaneAt).lane.val fun z' => { z' with run := true }, { half := Half.A, lane := 0, cond := Cond.always }, 0, .abs 5, by unfold LaneTakes; decide +kernel⟩,
    ⟨site.mLane ({ half := Half.A, lane := 0, cond := Cond.always } : LaneAt).half ({ half := Half.A, lane := 0, cond := Cond.always } : LaneAt).lane.val fun z' => { z' with run := true }, { half := Half.A, lane := 0, cond := Cond.always }, 0, .abs 5, by unfold LaneTakes; decide +kernel⟩,
    ⟨site.mLane ({ half := Half.A, lane := 0, cond := Cond.always } : LaneAt).half ({ half := Half.A, lane := 0, cond := Cond.always } : LaneAt).lane.val fun z' => { z' with run := true }, { half := Half.A, lane := 0, cond := Cond.always }, 0, .abs 0x1000, by unfold LaneTakes; decide +kernel⟩,
    ⟨site.mLane ({ half := Half.A, lane := 0, cond := Cond.always } : LaneAt).half ({ half := Half.A, lane := 0, cond := Cond.always } : LaneAt).lane.val fun z' => { z' with run := true }, { half := Half.A, lane := 0, cond := Cond.always }, 0, .abs 5, by unfold LaneTakes; decide +kernel⟩,
    ⟨site.mLane ({ half := Half.A, lane := 0, cond := Cond.always } : LaneAt).half ({ half := Half.A, lane := 0, cond := Cond.always } : LaneAt).lane.val fun z' => { z' with run := true }, { half := Half.A, lane := 0, cond := Cond.always }, 0, .abs 6, by unfold LaneTakes; decide +kernel⟩,
    ⟨sLaneFlowAndMemory11, { half := Half.A, lane := 0, cond := Cond.always }, 0, .abs 6, (clampI (-2147483648) 2147483647 ((laneAt sLaneFlowAndMemory11 ({ half := Half.A, lane := 0, cond := Cond.always } : LaneAt)).ra (0 : Fin 4).val) % 4294967296).toNat, by unfold LaneTakes; decide +kernel⟩,
    ⟨site.mLane ({ half := Half.A, lane := 0, cond := Cond.always } : LaneAt).half ({ half := Half.A, lane := 0, cond := Cond.always } : LaneAt).lane.val fun z' => { z' with run := true }, { half := Half.A, lane := 0, cond := Cond.always }, 0, 0x0000#16, by unfold LaneTakes; decide +kernel⟩,
    ⟨(site.mLane ({ half := Half.A, lane := 0, cond := Cond.always } : LaneAt).half ({ half := Half.A, lane := 0, cond := Cond.always } : LaneAt).lane.val fun z' => { z' with run := true }).srg .cln .A 4 1, { half := Half.A, lane := 0, cond := Cond.always }, 0, 0, by unfold LaneTakes; decide +kernel⟩,
    ⟨site.mLane ({ half := Half.A, lane := 0, cond := Cond.always } : LaneAt).half ({ half := Half.A, lane := 0, cond := Cond.always } : LaneAt).lane.val fun z' => { z' with run := true }, { half := Half.A, lane := 0, cond := Cond.always }, 0, 0, by unfold LaneTakes; decide +kernel⟩⟩

def Sys2Proof.Tests.sLaneProgramsAndDrain13 : State := site.srf .mbx Half.A 0 18 16 1
def Sys2Proof.Tests.sLaneProgramsAndDrain14 : State := ((site.srf .mbx .A 0 18 16 3).mh .A fun y => { y with cln.images := List.replicate 2 { base := 0, words := 1, progId := 1, version := 1, ports := [], stateInit := [], resultInit := [], verified := 10, claimed := 10 } }).mMbx .A fun y => { y with started := [{ org := ⟨.A, 28, 1, 0⟩, opc := 0x0503, role := 3, cseq := 0, exec := none, cap := 24 }] }

/-- Every hypothesis of LaneProgramsAndDrain is met, clause by clause. -/
theorem Sys2Proof.Tests.witness_LaneProgramsAndDrain :
    (∃ (s : State) (h : Half) (l : Nat), (s.hf h).twn.service = true ∧ s.pstate ≠ 1 ∧ l < 60 ∧ bitAt (s.lcfg0 h l) 31 = true ∧ ((∀ i, s.image h (fld (s.lcfg0 h l) 15 0) = some i → i.progId ≠ 0x4C4F4F50 ∧ i.progId ≠ 0x50534551))) ∧
    (∃ (s : State) (h : Half) (l : Nat), (s.hf h).twn.service = true ∧ s.pstate ≠ 1 ∧ l < 60 ∧ bitAt (s.lcfg0 h l) 31 = false) ∧
    (∃ (s : State) (h : Half), (((s.hf h).twn.service = false ∧ (s.hf h).twn.rejoin = false) ∨ s.pstate = 1)) ∧
    (∃ (s : State) (h : Half) (l : Nat), l < 60 ∧ (s.lane h l).run = true ∧ (s.lane h l).lastOvr = false) ∧
    (∃ (s : State) (h : Half) (l : Nat), l < 60 ∧ (s.lane h l).run = true ∧ (s.lane h l).lastOvr = true ∧ (s.hf h).twn.unhealthy = false) ∧
    (∃ (s : State) (h : Half) (l : Nat), 60 ≤ l ∧ (s.lane h l).run = true) ∧
    (∃ (s : State) (h : Half) (l : Nat), (s.lane h l).run = false) ∧
    (∃ (s : State) (h : Half) (l : Nat), l < 60 ∧ bitAt (s.lcfg0 h l) 31 = true ∧ (s.lane h l).run = false) ∧
    (∃ (s : State) (h : Half) (l : Nat) (i : Nat) (v : Lw), l < 60 ∧ bitAt (s.lcfg0 h l) 31 = true ∧ (s.lane h l).run = false ∧ ((∀ m < 60, m ≠ l → bitAt (s.lcfg0 h m) 31 = false)) ∧ rising (s.lane h l).line = true ∧ look none (s.lane h l).line i = some v) ∧
    (∃ (s : State) (o : Org) (img : List Nat) (x : Half) (r : Nat) (im : Image), RunsAt s o 0x0501 x r ∧ r ∈ [rInstaller, rVendor] ∧ checkImage img = .inl im) ∧
    (∃ (s : State) (o : Org) (img : List Nat) (x : Half) (r : Nat) (st : Nat) (v : Nat), RunsAt s o 0x0501 x r ∧ r ∈ [rInstaller, rVendor] ∧ checkImage img = .inr (st, v)) ∧
    (∃ (s : State) (o : Org) (x : Half) (r : Nat) (base : Nat) (im : Image), RunsAt s o 0x0502 x r ∧ r ∈ [rInstaller, rVendor] ∧ s.image x base = some im ∧ boundLanes s x base false = [] ∧ boundLanes s x base true = []) ∧
    (∃ (s : State) (o : Org) (x : Half) (r : Nat) (base : Nat) (im : Image), RunsAt s o 0x0502 x r ∧ r ∈ [rInstaller, rVendor] ∧ s.image x base = some im ∧ (boundLanes s x base false ≠ [] ∨ boundLanes s x base true ≠ [])) ∧
    (∃ (s : State) (o : Org) (x : Half) (r : Nat) (q : List Nat), RunsAt s o 0x0503 x r ∧ r ∈ rNotPublic ∧ q = le 2 (s.hf x).cln.images.length ++ ((s.hf x).cln.images.map fun i => le 2 i.base ++ le 2 i.words ++ le 4 i.progId ++ le 4 i.version ++ le 2 i.verified ++ [(boundLanes s x i.base false).length, 0]).flatten ∧ Room s o q.length) ∧
    (∃ (s : State) (o : Org) (x : Half) (r : Nat) (q : List Nat), RunsAt s o 0x0503 x r ∧ r ∈ rNotPublic ∧ q = le 2 (s.hf x).cln.images.length ++ ((s.hf x).cln.images.map fun i => le 2 i.base ++ le 2 i.words ++ le 4 i.progId ++ le 4 i.version ++ le 2 i.verified ++ [(boundLanes s x i.base false).length, 0]).flatten ∧ ¬ Room s o q.length) ∧
    (∃ (s : State) (o : Org) (x : Half) (r : Nat) (l : Nat) (b : Nat) (buf : Nat) (n : Nat) (g : Nat) (rows : Nat) (pre : Nat) (dec : Nat) (tt : Nat) (ks : List Nat), RunsAt s o 0x0514 x r ∧ r ∈ [rInstaller, rVendor] ∧ buf < 2 ∧ 1 ≤ n ∧ n ≤ 8 ∧ g ≤ 2 ∧ 1 ≤ rows ∧ rows ≤ 65536 ∧ pre < rows ∧ 1 ≤ dec ∧ dec ≤ 1024 ∧ l < 60 ∧ b < 8 ∧ (∀ k ∈ ks.take n, k < 2048) ∧ (s.cap x buf).st ≠ 1 ∧ (s.cap x buf).st ≠ 2) ∧
    (∃ (s : State) (h : Half) (buf : Nat), buf < 2 ∧ (s.cap h buf).st = 1 ∧ triggerNow s h (s.cap h buf) = true) ∧
    (∃ (s : State) (h : Half) (buf : Nat), (s.cap h buf).st ≠ 1) ∧
    (∃ (s : State) (o : Org) (x : Half) (r : Nat) (buf : Nat) (f : Nat) (n : Nat), RunsAt s o 0x0515 x r ∧ r ∈ [rOperator, rInstaller, rVendor] ∧ buf < 2 ∧ Room s o ((s.cap x buf).readBytes buf f n).length) ∧
    (∃ (s : State) (o : Org) (x : Half) (r : Nat) (buf : Nat) (f : Nat) (n : Nat), RunsAt s o 0x0515 x r ∧ r ∈ [rOperator, rInstaller, rVendor] ∧ 2 ≤ buf) :=
   ⟨⟨((site.srf .pwr .A 8 31 29 (2)).mh Half.A fun z' => { z' with twn.service := true }).srf .cln Half.A (0x20 * 0) 31 31 (Bool.toNat (true)), Half.A, 0, by decide +kernel, by decide +kernel, by decide +kernel, by decide +kernel, all_some (by decide +kernel)⟩,
    ⟨((site.srf .pwr .A 8 31 29 (2)).mh Half.A fun z' => { z' with twn.service := true }).srf .cln Half.A (0x20 * 0) 31 31 (Bool.toNat (false)), Half.A, 0, by decide +kernel⟩,
    ⟨site.srf .pwr .A 8 31 29 (1), Half.A, by decide +kernel⟩,
    ⟨(site.mLane Half.A 0 fun z' => { z' with run := true }).mLane Half.A 0 fun z' => { z' with lastOvr := false }, Half.A, 0, by decide +kernel⟩,
    ⟨((site.mLane Half.A 0 fun z' => { z' with run := true }).mLane Half.A 0 fun z' => { z' with lastOvr := true }).mh Half.A fun z' => { z' with twn.unhealthy := false }, Half.A, 0, by decide +kernel⟩,
    ⟨site.mLane Half.A 60 fun z' => { z' with run := true }, Half.A, 60, by decide +kernel⟩,
    ⟨site.mLane Half.A 0 fun z' => { z' with run := false }, Half.A, 0, by decide +kernel⟩,
    ⟨(site.srf .cln Half.A (0x20 * 0) 31 31 (Bool.toNat (true))).mLane Half.A 0 fun z' => { z' with run := false }, Half.A, 0, by decide +kernel⟩,
    ⟨(((fun s : State => s.mLane (.A : Half) 0 fun z' => { z' with line := Machine.put none (s.lane (.A : Half) 0).line 0 (some 5) }) ((site.srf .cln (.A : Half) (0x20 * 0) 31 31 (Bool.toNat (true))).mLane (.A : Half) 0 fun z' => { z' with run := false })).srg .cln .A 0 0x80000000).mLane .A 0 fun y => { y with line := [(0, some 5)], run := false }, .A, 0, 0, 5, by decide +kernel⟩,
    ⟨site.srf .mbx (⟨.A, 28, 1, 0⟩ : Org).half 0 18 16 5, ⟨.A, 28, 1, 0⟩, wimg 0 [0, 0, 0x40, 0], .A, 5, { base := 0, words := 1, progId := 1, version := 1, ports := [], stateInit := [], resultInit := [], verified := 1, claimed := 0 }, by unfold RunsAt; decide +kernel⟩,
    ⟨site.srf .mbx (⟨.A, 28, 1, 0⟩ : Org).half 0 18 16 5, ⟨.A, 28, 1, 0⟩, wimg 1 [0, 0, 0x40, 0], .A, 5, 0x0501, 0, by unfold RunsAt; decide +kernel⟩,
    ⟨(site.srf .mbx (⟨.A, 28, 1, 0⟩ : Org).half 0 18 16 5).mh .A fun y => { y with cln.images := [{ base := 5, words := 1, progId := 1, version := 1, ports := [], stateInit := [], resultInit := [], verified := 10, claimed := 10 }] }, ⟨.A, 28, 1, 0⟩, .A, 5, 5, { base := 5, words := 1, progId := 1, version := 1, ports := [], stateInit := [], resultInit := [], verified := 10, claimed := 10 }, by unfold RunsAt; decide +kernel⟩,
    ⟨(site.srf .mbx (⟨.A, 28, 1, 0⟩ : Org).half 0 18 16 5).mh .A fun y => { y with cln.images := [{ base := 0, words := 1, progId := 1, version := 1, ports := [], stateInit := [], resultInit := [], verified := 10, claimed := 10 }] }, ⟨.A, 28, 1, 0⟩, .A, 5, 0, { base := 0, words := 1, progId := 1, version := 1, ports := [], stateInit := [], resultInit := [], verified := 10, claimed := 10 }, by unfold RunsAt; decide +kernel⟩,
    ⟨sLaneProgramsAndDrain13, { half := Half.A, ring := 28, ctag := 1, hb := 0 }, Half.A, 1, le 2 (sLaneProgramsAndDrain13.hf Half.A).cln.images.length ++ ((sLaneProgramsAndDrain13.hf Half.A).cln.images.map fun i => le 2 i.base ++ le 2 i.words ++ le 4 i.progId ++ le 4 i.version ++ le 2 i.verified ++ [(boundLanes sLaneProgramsAndDrain13 Half.A i.base false).length, 0]).flatten, by unfold RunsAt Room; decide +kernel⟩,
    ⟨sLaneProgramsAndDrain14, ⟨.A, 28, 1, 0⟩, .A, 3, le 2 (sLaneProgramsAndDrain14.hf (.A : Half)).cln.images.length ++ ((sLaneProgramsAndDrain14.hf (.A : Half)).cln.images.map fun i => le 2 i.base ++ le 2 i.words ++ le 4 i.progId ++ le 4 i.version ++ le 2 i.verified ++ [(boundLanes sLaneProgramsAndDrain14 (.A : Half) i.base false).length, 0]).flatten, by unfold RunsAt Room; decide +kernel⟩,
    ⟨((site.mCap Half.A 0 fun z' => { z' with st := 2 }).mCap Half.A 0 fun z' => { z' with st := 3 }).srf .mbx Half.A 0 18 16 3, { half := Half.A, ring := 28, ctag := 1, hb := 0 }, Half.A, 3, 0, 0, 0, 1, 0, 1, 0, 1, 0, [], by unfold RunsAt; decide +kernel⟩,
    ⟨site.mCap Half.A 0 fun z' => { z' with st := 1 }, Half.A, 0, by decide +kernel⟩,
    ⟨site.mCap Half.A 0 fun z' => { z' with st := 2 }, Half.A, 0, by decide +kernel⟩,
    ⟨site.srf .mbx Half.A 0 18 16 1, { half := Half.A, ring := 28, ctag := 1, hb := 0 }, Half.A, 1, 0, 0, 0, by unfold RunsAt Room; decide +kernel⟩,
    ⟨site.srf .mbx Half.A 0 18 16 1, { half := Half.A, ring := 28, ctag := 1, hb := 0 }, Half.A, 1, 2, 0, 0, by unfold RunsAt; decide +kernel⟩⟩

def Sys2Proof.Tests.sLoopCommands0 : State := (fun s : State => s.mLoop (.A : Half) 0 0 fun z' => { z' with seqNext := (s.loopB (.A : Half) 0 0).seqNext }) (loopSite.srf .mbx (⟨.A, 28, 1, 0⟩ : Org).half 0 18 16 1)
def Sys2Proof.Tests.sLoopCommands3 : State := (fun s : State => s.mLoop (.A : Half) 0 0 fun z' => { z' with mseqNext := (s.loopB (.A : Half) 0 0).mseqNext }) (loopSite.srf .mbx (⟨.A, 28, 1, 0⟩ : Org).half 0 18 16 1)
def Sys2Proof.Tests.sLoopCommands6 : State := (fun s : State => s.mLoop (.A : Half) 0 0 fun z' => { z' with injNext := (s.loopB (.A : Half) 0 0).injNext }) (loopSite.srf .mbx (⟨.A, 28, 1, 0⟩ : Org).half 0 18 16 5)

/-- Every hypothesis of LoopCommands is met, clause by clause. -/
theorem Sys2Proof.Tests.witness_LoopCommands :
    (∃ (s : State) (o : Org) (x : Half) (r : Nat) (l : Nat) (b : Nat) (n : Nat) (g : Int), RunsAt s o 0x0510 x r ∧ r ∈ [rOperator, rInstaller, rVendor] ∧ blockThere s x l b = true ∧ (s.param x l (0x20 * b + 9)).testBit 4 = false ∧ (s.param x l (0x20 * b + 9)).testBit 0 = true ∧ s.paramI x l (0x20 * b + 4) ≤ g ∧ g ≤ s.paramI x l (0x20 * b + 5) ∧ shadowBusy s x = false ∧ n = (s.loopB x l b).seqNext) ∧
    (∃ (s : State) (o : Org) (x : Half) (r : Nat) (l : Nat) (b : Nat) (g : Int), RunsAt s o 0x0510 x r ∧ r ∈ [rOperator, rInstaller, rVendor] ∧ l < 60 ∧ b < 8 ∧ blockThere s x l b = false) ∧
    (∃ (s : State) (o : Org) (x : Half) (r : Nat) (l : Nat) (b : Nat) (g : Int), RunsAt s o 0x0510 x r ∧ r ∈ [rOperator, rInstaller, rVendor] ∧ blockThere s x l b = true ∧ (s.param x l (0x20 * b + 9)).testBit 4 = false ∧ (s.param x l (0x20 * b + 9)).testBit 0 = true ∧ (g < s.paramI x l (0x20 * b + 4) ∨ s.paramI x l (0x20 * b + 5) < g)) ∧
    (∃ (s : State) (o : Org) (x : Half) (r : Nat) (l : Nat) (b : Nat) (n : Nat) (g : Int), RunsAt s o 0x0512 x r ∧ r ∈ [rOperator, rInstaller, rVendor] ∧ blockThere s x l b = true ∧ s.paramI x l (0x20 * b + 4) ≤ g ∧ g ≤ s.paramI x l (0x20 * b + 5) ∧ shadowBusy s x = false ∧ n = (s.loopB x l b).mseqNext) ∧
    (∃ (s : State) (o : Org) (x : Half) (r : Nat) (l : Nat) (b : Nat) (u : Bool) (v : Bool), RunsAt s o 0x0511 x r ∧ r ∈ [rOperator, rInstaller, rVendor] ∧ blockThere s x l b = true ∧ shadowBusy s x = false) ∧
    (∃ (s : State) (o : Org) (x : Half) (r : Nat) (l : Nat) (b : Nat) (u : Bool) (v : Bool), RunsAt s o 0x0511 x r ∧ r ∈ [rOperator, rInstaller, rVendor] ∧ blockThere s x l b = true ∧ shadowBusy s x = true) ∧
    (∃ (s : State) (o : Org) (x : Half) (r : Nat) (l : Nat) (b : Nat) (n : Nat) (amp : Nat) (f0 : Nat) (f1 : Nat) (dur : Nat) (per : Nat) (seed : Nat), RunsAt s o 0x0513 x r ∧ r ∈ [rInstaller, rVendor] ∧ blockThere s x l b = true ∧ amp ≤ 16383 ∧ 1 ≤ dur ∧ (s.param x l (0x20 * b + 0x10)).testBit 15 = false ∧ shadowBusy s x = false ∧ n = (s.loopB x l b).injNext) ∧
    (∃ (s : State) (o : Org) (x : Half) (r : Nat) (l : Nat) (b : Nat) (amp : Nat) (f0 : Nat) (f1 : Nat) (dur : Nat) (per : Nat) (seed : Nat) (c : Nat), RunsAt s o 0x0513 x r ∧ r ∈ [rInstaller, rVendor] ∧ blockThere s x l b = true ∧ (16383 < amp ∨ dur = 0)) ∧
    (∃ (s : State) (h : Half) (l : Nat) (b : Nat) (k : Nat) (n : Nat) (q : List (Nat × Nat)) (c : LoopCmd), (s.loopB h l b).injEnd = (k, n) :: q ∧ (s.hf h).cln.cmds.find? (fun c => c.opc == 0x0513 && c.lane == l && c.blk == b && c.live) = some c ∧ Running s c.org) ∧
    (∃ (s : State) (h : Half) (l : Nat) (b : Nat) (k : Nat) (n : Nat) (q : List (Nat × Nat)), (s.loopB h l b).injEnd = (k, n) :: q ∧ (s.hf h).cln.cmds.find? (fun c => c.opc == 0x0513 && c.lane == l && c.blk == b && c.live) = none) ∧
    (∃ (s : State) (h : Half) (l : Nat) (b : Nat), (s.loopB h l b).injEnd = []) :=
   ⟨⟨sLoopCommands0, ⟨.A, 28, 1, 0⟩, .A, 1, 0, 0, (sLoopCommands0.loopB (.A : Half) 0 0).seqNext, 0, by unfold RunsAt; decide +kernel⟩,
    ⟨site.srf .mbx Half.A 0 18 16 1, { half := Half.A, ring := 28, ctag := 1, hb := 0 }, Half.A, 1, 0, 0, 0, by unfold RunsAt; decide +kernel⟩,
    ⟨loopSite.srf .mbx (⟨.A, 28, 1, 0⟩ : Org).half 0 18 16 1, ⟨.A, 28, 1, 0⟩, .A, 1, 0, 0, 1, by unfold RunsAt; decide +kernel⟩,
    ⟨sLoopCommands3, ⟨.A, 28, 1, 0⟩, .A, 1, 0, 0, (sLoopCommands3.loopB (.A : Half) 0 0).mseqNext, 0, by unfold RunsAt; decide +kernel⟩,
    ⟨loopSite.srf .mbx (⟨.A, 28, 1, 0⟩ : Org).half 0 18 16 1, ⟨.A, 28, 1, 0⟩, .A, 1, 0, 0, true, true, by unfold RunsAt; decide +kernel⟩,
    ⟨(fun s : State => ({ s with shadow := [(blkKey .cln .A + 0x10000, some 5)] }).srf .mbx .A 0 18 16 5) loopSite, ⟨.A, 28, 1, 0⟩, .A, 5, 0, 0, true, true, by unfold RunsAt; decide +kernel⟩,
    ⟨sLoopCommands6, ⟨.A, 28, 1, 0⟩, .A, 5, 0, 0, (sLoopCommands6.loopB (.A : Half) 0 0).injNext, 16383, 0, 0, 1, 0, 0, by unfold RunsAt; decide +kernel⟩,
    ⟨loopSite.srf .mbx (⟨.A, 28, 1, 0⟩ : Org).half 0 18 16 5, ⟨.A, 28, 1, 0⟩, .A, 5, 0, 0, 16384, 0, 0, 1, 0, 0, 1, by unfold RunsAt; decide +kernel⟩,
    ⟨(site.mLoop .A 0 0 fun y => { y with injEnd := [(0, 100000)] }).mh .A fun y => { y with cln.cmds := [{ org := ⟨.A, 28, 2, 0⟩, opc := 0x0513, lane := 0, blk := 0, seq := 1, live := true }], mbx.started := [{ org := ⟨.A, 28, 2, 0⟩, opc := 0x0513, role := 3, cseq := 0, exec := some .A }] }, .A, 0, 0, 0, 100000, [], { org := ⟨.A, 28, 2, 0⟩, opc := 0x0513, lane := 0, blk := 0, seq := 1, live := true }, by unfold Running; decide +kernel⟩,
    ⟨site.mLoop Half.A 0 0 fun z' => { z' with injEnd := (0, 0) :: ([] : List (Nat × Nat)) }, Half.A, 0, 0, 0, 0, [], by decide +kernel⟩,
    ⟨site.mLoop Half.A 0 0 fun z' => { z' with injEnd := [] }, Half.A, 0, 0, by decide +kernel⟩⟩

def Sys2Proof.Tests.sPowerStageGroups0 : State := ((fun s : State => s.setSeqG (.A : Half) 0 0 { s.seqG (.A : Half) 0 0 with probeBad := [] }) ((fun s : State => s.setSeqG (.A : Half) 0 0 { s.seqG (.A : Half) 0 0 with st := 1 }) ((fun s : State => s.setSeqG (.A : Half) 0 0 (s.seqG (.A : Half) 0 0)) ((fun s : State => s.setSeqG (.A : Half) 0 0 { s.seqG (.A : Half) 0 0 with probeN := 4 }) ((fun s : State => s.setSeqG (.A : Half) 0 0 { s.seqG (.A : Half) 0 0 with d5 := none }) (stepSite [])))))).setSeqG .A 0 0 { st := 1, probeN := 4 }
def Sys2Proof.Tests.sPowerStageGroups1 : State := ((fun s : State => s.setSeqG (.A : Half) 0 0 { s.seqG (.A : Half) 0 0 with st := 1 }) ((fun s : State => s.setSeqG (.A : Half) 0 0 (s.seqG (.A : Half) 0 0)) ((fun s : State => s.setSeqG (.A : Half) 0 0 { s.seqG (.A : Half) 0 0 with probeN := 4 }) ((fun s : State => s.setSeqG (.A : Half) 0 0 { s.seqG (.A : Half) 0 0 with d5 := none }) (stepSite []))))).setSeqG .A 0 0 { st := 1, probeN := 4, probeBad := [1] }
def Sys2Proof.Tests.sPowerStageGroups2 : State := ((stepSite (List.replicate 19 0 ++ [0x11])).srg .pst .A 0xC 0x01010001).setSeqG .A 0 0 { st := 3 }
def Sys2Proof.Tests.sPowerStageGroups3 : State := ((stepSite (List.replicate 19 0 ++ [0x11])).srg .pst .A 0xC 0x01010000).setSeqG .A 0 0 { st := 3 }
def Sys2Proof.Tests.sPowerStageGroups5 : State := ((fun s : State => s.setSeqG (.A : Half) 0 0 { s.seqG (.A : Half) 0 0 with st := 5 }) ((fun s : State => s.setSeqG (.A : Half) 0 0 (s.seqG (.A : Half) 0 0)) ((fun s : State => s.setSeqG (.A : Half) 0 0 { s.seqG (.A : Half) 0 0 with d5 := none }) (stepSite [])))).setSeqG .A 0 0 { st := 5, hicT := 5 }
def Sys2Proof.Tests.sPowerStageGroups6 : State := ((fun s : State => s.setSeqG (.A : Half) 0 0 { s.seqG (.A : Half) 0 0 with ssDone := true }) ((fun s : State => s.setSeqG (.A : Half) 0 0 { s.seqG (.A : Half) 0 0 with st := 2 }) ((fun s : State => s.setSeqG (.A : Half) 0 0 (s.seqG (.A : Half) 0 0)) ((fun s : State => s.setSeqG (.A : Half) 0 0 { s.seqG (.A : Half) 0 0 with d5 := none }) (stepSite []))))).setSeqG .A 0 0 { st := 2, ssDone := true }
def Sys2Proof.Tests.sPowerStageGroups7 : State := ((fun s : State => s.setSeqG (.A : Half) 0 0 { s.seqG (.A : Half) 0 0 with st := 3 }) ((fun s : State => s.setSeqG (.A : Half) 0 0 (s.seqG (.A : Half) 0 0)) ((fun s : State => s.setSeqG (.A : Half) 0 0 { s.seqG (.A : Half) 0 0 with quiet := 19999 }) ((fun s : State => s.setSeqG (.A : Half) 0 0 { s.seqG (.A : Half) 0 0 with d5 := none }) (stepSite []))))).setSeqG .A 0 0 { st := 3, quiet := 19999 }
def Sys2Proof.Tests.sPowerStageGroups8 : State := ((fun s : State => s.setSeqG (.A : Half) 0 0 (s.seqG (.A : Half) 0 0)) ((fun s : State => s.setSeqG (.A : Half) 0 0 { s.seqG (.A : Half) 0 0 with d6 := none }) (stepSite [0, 0, 0, 44, 1]))).setSeqG .A 0 0 { st := 3 }
def Sys2Proof.Tests.sPowerStageGroups9 : State := ((fun s : State => s.setSeqG (.A : Half) 0 0 { s.seqG (.A : Half) 0 0 with hold := 1 }) ((fun s : State => s.setSeqG (.A : Half) 0 0 (s.seqG (.A : Half) 0 0)) ((fun s : State => s.setSeqG (.A : Half) 0 0 { s.seqG (.A : Half) 0 0 with d6 := none }) (stepSite [])))).setSeqG .A 0 0 { st := 3, hold := 1 }
def Sys2Proof.Tests.sPowerStageGroups10 : State := ((fun s : State => s.setSeqG (.A : Half) 0 0 { s.seqG (.A : Half) 0 0 with shed := none }) ((fun s : State => s.setSeqG (.A : Half) 0 0 { s.seqG (.A : Half) 0 0 with add := none }) ((fun s : State => s.setSeqG (.A : Half) 0 0 { s.seqG (.A : Half) 0 0 with burst := false }) ((fun s : State => s.setSeqG (.A : Half) 0 0 { s.seqG (.A : Half) 0 0 with hold := 0 }) ((fun s : State => s.setSeqG (.A : Half) 0 0 { s.seqG (.A : Half) 0 0 with st := 3 }) ((fun s : State => s.setSeqG (.A : Half) 0 0 (s.seqG (.A : Half) 0 0)) ((fun s : State => s.setSeqG (.A : Half) 0 0 { s.seqG (.A : Half) 0 0 with hi := 20 }) ((fun s : State => s.setSeqG (.A : Half) 0 0 { s.seqG (.A : Half) 0 0 with bu := 19 }) ((fun s : State => s.setSeqG (.A : Half) 0 0 { s.seqG (.A : Half) 0 0 with d7 := none }) (stepSite [])))))))))).setSeqG .A 0 0 { st := 3, queue := [0], hi := 20 }
def Sys2Proof.Tests.sPowerStageGroups11 : State := ((fun s : State => s.setSeqG (.A : Half) 0 0 { s.seqG (.A : Half) 0 0 with queue := 1 :: ([0] : List Nat) }) ((fun s : State => s.setSeqG (.A : Half) 0 0 { s.seqG (.A : Half) 0 0 with shed := none }) ((fun s : State => s.setSeqG (.A : Half) 0 0 { s.seqG (.A : Half) 0 0 with add := none }) ((fun s : State => s.setSeqG (.A : Half) 0 0 { s.seqG (.A : Half) 0 0 with burst := false }) ((fun s : State => s.setSeqG (.A : Half) 0 0 { s.seqG (.A : Half) 0 0 with hold := 0 }) ((fun s : State => s.setSeqG (.A : Half) 0 0 { s.seqG (.A : Half) 0 0 with st := 3 }) ((fun s : State => s.setSeqG (.A : Half) 0 0 (s.seqG (.A : Half) 0 0)) ((fun s : State => s.setSeqG (.A : Half) 0 0 { s.seqG (.A : Half) 0 0 with lo := 20 }) ((fun s : State => s.setSeqG (.A : Half) 0 0 { s.seqG (.A : Half) 0 0 with hi := 19 }) ((fun s : State => s.setSeqG (.A : Half) 0 0 { s.seqG (.A : Half) 0 0 with bu := 19 }) ((fun s : State => s.setSeqG (.A : Half) 0 0 { s.seqG (.A : Half) 0 0 with d7 := none }) (stepSite [])))))))))))).setSeqG .A 0 0 { st := 3, queue := [1, 0], lo := 20 }
def Sys2Proof.Tests.sPowerStageGroups12 : State := ((fun s : State => s.setSeqG (.A : Half) 0 0 { s.seqG (.A : Half) 0 0 with shed := none }) ((fun s : State => s.setSeqG (.A : Half) 0 0 { s.seqG (.A : Half) 0 0 with add := none }) ((fun s : State => s.setSeqG (.A : Half) 0 0 { s.seqG (.A : Half) 0 0 with burst := false }) ((fun s : State => s.setSeqG (.A : Half) 0 0 { s.seqG (.A : Half) 0 0 with hold := 0 }) ((fun s : State => s.setSeqG (.A : Half) 0 0 { s.seqG (.A : Half) 0 0 with st := 3 }) ((fun s : State => s.setSeqG (.A : Half) 0 0 (s.seqG (.A : Half) 0 0)) ((fun s : State => s.setSeqG (.A : Half) 0 0 { s.seqG (.A : Half) 0 0 with bu := 20 }) ((fun s : State => s.setSeqG (.A : Half) 0 0 { s.seqG (.A : Half) 0 0 with d7 := none }) (stepSite []))))))))).setSeqG .A 0 0 { st := 3, queue := [0], bu := 20 }
def Sys2Proof.Tests.sPowerStageGroups13 : State := (((fun s : State => s.setSeqG (.A : Half) 0 0 { s.seqG (.A : Half) 0 0 with burst := true }) ((fun s : State => s.setSeqG (.A : Half) 0 0 { s.seqG (.A : Half) 0 0 with hold := 0 }) ((fun s : State => s.setSeqG (.A : Half) 0 0 (s.seqG (.A : Half) 0 0)) ((fun s : State => s.setSeqG (.A : Half) 0 0 { s.seqG (.A : Half) 0 0 with d7 := none }) ((fun s : State => s.setSeqG (.A : Half) 0 0 { s.seqG (.A : Half) 0 0 with st := 3 }) (stepSite [])))))).srg .pst .A 8 0).setSeqG .A 0 0 { st := 4, queue := [0], burst := true }

/-- Every hypothesis of PowerStageGroups is met, clause by clause. -/
theorem Sys2Proof.Tests.witness_PowerStageGroups :
    (∃ (s : State) (h : Half) (c : Nat) (g : Nat) (i : SeqIn) (q : SeqG), GroupSteps s h c g i ∧ q = s.seqG h c g ∧ q.st = 1 ∧ q.d5 ≠ some i.tick ∧ 4 ≤ q.probeN ∧ q.probeBad = []) ∧
    (∃ (s : State) (h : Half) (c : Nat) (g : Nat) (i : SeqIn) (q : SeqG), GroupSteps s h c g i ∧ q = s.seqG h c g ∧ q.st = 1 ∧ q.d5 ≠ some i.tick ∧ 4 ≤ q.probeN ∧ q.probeBad ≠ []) ∧
    (∃ (s : State) (h : Half) (c : Nat) (g : Nat) (i : SeqIn) (q : SeqG) (m : Tab Nat), GroupSteps s h c g i ∧ q = s.seqG h c g ∧ m = (i.phases.zip i.cbc).foldl (fun t e => put 0 t e.1 (look 0 t e.1 + e.2)) q.cbc ∧ q.live = true ∧ q.d4 ≠ some i.tick ∧ q.winN < i.hicWin ∧ (∃ e ∈ m, i.hicN ≤ e.2) ∧ q.retries < i.hicK) ∧
    (∃ (s : State) (h : Half) (c : Nat) (g : Nat) (i : SeqIn) (q : SeqG) (m : Tab Nat), GroupSteps s h c g i ∧ q = s.seqG h c g ∧ m = (i.phases.zip i.cbc).foldl (fun t e => put 0 t e.1 (look 0 t e.1 + e.2)) q.cbc ∧ q.live = true ∧ q.d4 ≠ some i.tick ∧ q.winN < i.hicWin ∧ (∃ e ∈ m, i.hicN ≤ e.2) ∧ i.hicK ≤ q.retries) ∧
    (∃ (s : State) (h : Half) (c : Nat) (g : Nat), (s.seqG h c g).live = true ∧ s.rf .pst h (0x100 * c + 0xC) 23 16 ≤ (s.seqG h c g).winN) ∧
    (∃ (s : State) (h : Half) (c : Nat) (g : Nat) (i : SeqIn) (q : SeqG), GroupSteps s h c g i ∧ q = s.seqG h c g ∧ q.st = 5 ∧ q.d5 ≠ some i.tick ∧ q.hicT + 10 * i.hicOff ≤ i.tick) ∧
    (∃ (s : State) (h : Half) (c : Nat) (g : Nat) (i : SeqIn) (q : SeqG), GroupSteps s h c g i ∧ q = s.seqG h c g ∧ q.st = 2 ∧ q.d5 ≠ some i.tick ∧ q.ssDone = true) ∧
    (∃ (s : State) (h : Half) (c : Nat) (g : Nat) (i : SeqIn) (q : SeqG), GroupSteps s h c g i ∧ q = s.seqG h c g ∧ q.st = 3 ∧ q.d5 ≠ some i.tick ∧ 19999 ≤ q.quiet) ∧
    (∃ (s : State) (h : Half) (c : Nat) (g : Nat) (i : SeqIn) (q : SeqG), GroupSteps s h c g i ∧ q = s.seqG h c g ∧ q.d6 ≠ some i.tick ∧ q.loadStep i = true) ∧
    (∃ (s : State) (h : Half) (c : Nat) (g : Nat) (i : SeqIn) (q : SeqG), GroupSteps s h c g i ∧ q = s.seqG h c g ∧ q.d6 ≠ some i.tick ∧ q.loadStep i = false ∧ q.hold = 1) ∧
    (∃ (s : State) (h : Half) (c : Nat) (g : Nat) (i : SeqIn) (q : SeqG) (j : Nat), GroupSteps s h c g i ∧ q = s.seqG h c g ∧ q.st = 3 ∧ q.d7 ≠ some i.tick ∧ q.hold = 0 ∧ q.burst = false ∧ q.add = none ∧ q.shed = none ∧ q.bu < 20 ∧ 20 ≤ q.hi ∧ q.nextAdd i = some j) ∧
    (∃ (s : State) (h : Half) (c : Nat) (g : Nat) (i : SeqIn) (q : SeqG) (j : Nat) (l : List Nat), GroupSteps s h c g i ∧ q = s.seqG h c g ∧ q.st = 3 ∧ q.d7 ≠ some i.tick ∧ q.hold = 0 ∧ q.burst = false ∧ q.add = none ∧ q.shed = none ∧ q.bu < 20 ∧ q.hi < 20 ∧ 20 ≤ q.lo ∧ i.minPh < q.queue.length ∧ q.queue = j :: l) ∧
    (∃ (s : State) (h : Half) (c : Nat) (g : Nat) (i : SeqIn) (q : SeqG), GroupSteps s h c g i ∧ q = s.seqG h c g ∧ q.st = 3 ∧ q.d7 ≠ some i.tick ∧ q.hold = 0 ∧ q.burst = false ∧ q.add = none ∧ q.shed = none ∧ 20 ≤ q.bu ∧ q.queue.length = i.minPh) ∧
    (∃ (s : State) (h : Half) (c : Nat) (g : Nat) (i : SeqIn) (q : SeqG), GroupSteps s h c g i ∧ q = s.seqG h c g ∧ (q.st = 3 ∨ q.st = 4) ∧ q.d7 ≠ some i.tick ∧ q.hold = 0 ∧ q.burst = true ∧ q.pctOf i i.bExit ≤ SeqG.xTimes100 i) ∧
    (∃ (s : State) (h : Half) (c : Nat) (g : Nat), ((seqIn s h c g false).fresh = false ∨ (seqIn s h c g false).dead = true ∨ (seqIn s h c g false).unrouted = true)) ∧
    (∃ (s : State) (o : Org) (x : Half) (r : Nat) (c : Nat) (m : Nat), RunsAt s o 0x0601 x r ∧ r ∈ [rInstaller, rVendor] ∧ c < 32 ∧ m < 16 ∧ (s.hf x).saf.permCab.testBit c = true ∧ (s.hf x).saf.stopCab.testBit c = false ∧ ((∀ g < 4, m.testBit g = true → (s.seqG x c g).st = 6))) ∧
    (∃ (s : State) (o : Org) (x : Half) (r : Nat) (c : Nat) (m : Nat) (g : Nat), RunsAt s o 0x0601 x r ∧ r ∈ [rInstaller, rVendor] ∧ c < 32 ∧ m < 16 ∧ (s.hf x).saf.permCab.testBit c = true ∧ (s.hf x).saf.stopCab.testBit c = false ∧ g < 4 ∧ m.testBit g = true ∧ (s.seqG x c g).st ≠ 6) ∧
    (∃ (s : State) (o : Org) (x : Half) (r : Nat) (c : Nat) (m : Nat), RunsAt s o 0x0601 x r ∧ r ∈ [rInstaller, rVendor] ∧ c < 32 ∧ m < 16 ∧ (s.hf x).saf.permCab.testBit c = false) :=
   ⟨⟨sPowerStageGroups0, .A, 0, 0, seqIn sPowerStageGroups0 (.A : Half) 0 0 false, sPowerStageGroups0.seqG (.A : Half) 0 0, by unfold GroupSteps; decide +kernel⟩,
    ⟨sPowerStageGroups1, .A, 0, 0, seqIn sPowerStageGroups1 (.A : Half) 0 0 false, sPowerStageGroups1.seqG (.A : Half) 0 0, by unfold GroupSteps; decide +kernel⟩,
    ⟨sPowerStageGroups2, .A, 0, 0, seqIn sPowerStageGroups2 (.A : Half) 0 0 false, sPowerStageGroups2.seqG (.A : Half) 0 0, ((seqIn sPowerStageGroups2 (.A : Half) 0 0 false : SeqIn).phases.zip (seqIn sPowerStageGroups2 (.A : Half) 0 0 false : SeqIn).cbc).foldl (fun t e => put 0 t e.1 (look 0 t e.1 + e.2)) (sPowerStageGroups2.seqG (.A : Half) 0 0 : SeqG).cbc, by unfold GroupSteps; decide +kernel⟩,
    ⟨sPowerStageGroups3, .A, 0, 0, seqIn sPowerStageGroups3 (.A : Half) 0 0 false, sPowerStageGroups3.seqG (.A : Half) 0 0, ((seqIn sPowerStageGroups3 (.A : Half) 0 0 false : SeqIn).phases.zip (seqIn sPowerStageGroups3 (.A : Half) 0 0 false : SeqIn).cbc).foldl (fun t e => put 0 t e.1 (look 0 t e.1 + e.2)) (sPowerStageGroups3.seqG (.A : Half) 0 0 : SeqG).cbc, by unfold GroupSteps; decide +kernel⟩,
    ⟨site.setSeqG .A 0 0 { st := 3, winN := 255 }, .A, 0, 0, by decide +kernel⟩,
    ⟨sPowerStageGroups5, .A, 0, 0, seqIn sPowerStageGroups5 (.A : Half) 0 0 false, sPowerStageGroups5.seqG (.A : Half) 0 0, by unfold GroupSteps; decide +kernel⟩,
    ⟨sPowerStageGroups6, .A, 0, 0, seqIn sPowerStageGroups6 (.A : Half) 0 0 false, sPowerStageGroups6.seqG (.A : Half) 0 0, by unfold GroupSteps; decide +kernel⟩,
    ⟨sPowerStageGroups7, .A, 0, 0, seqIn sPowerStageGroups7 (.A : Half) 0 0 false, sPowerStageGroups7.seqG (.A : Half) 0 0, by unfold GroupSteps; decide +kernel⟩,
    ⟨sPowerStageGroups8, .A, 0, 0, seqIn sPowerStageGroups8 (.A : Half) 0 0 false, sPowerStageGroups8.seqG (.A : Half) 0 0, by unfold GroupSteps; decide +kernel⟩,
    ⟨sPowerStageGroups9, .A, 0, 0, seqIn sPowerStageGroups9 (.A : Half) 0 0 false, sPowerStageGroups9.seqG (.A : Half) 0 0, by unfold GroupSteps; decide +kernel⟩,
    ⟨sPowerStageGroups10, .A, 0, 0, seqIn sPowerStageGroups10 (.A : Half) 0 0 false, sPowerStageGroups10.seqG (.A : Half) 0 0, 1, by unfold GroupSteps; decide +kernel⟩,
    ⟨sPowerStageGroups11, .A, 0, 0, seqIn sPowerStageGroups11 (.A : Half) 0 0 false, sPowerStageGroups11.seqG (.A : Half) 0 0, 1, [0], by unfold GroupSteps; decide +kernel⟩,
    ⟨sPowerStageGroups12, .A, 0, 0, seqIn sPowerStageGroups12 (.A : Half) 0 0 false, sPowerStageGroups12.seqG (.A : Half) 0 0, by unfold GroupSteps; decide +kernel⟩,
    ⟨sPowerStageGroups13, .A, 0, 0, seqIn sPowerStageGroups13 (.A : Half) 0 0 false, sPowerStageGroups13.seqG (.A : Half) 0 0, by unfold GroupSteps; decide +kernel⟩,
    ⟨site, Half.A, 0, 0, by decide +kernel⟩,
    ⟨(site.srf .mbx Half.A 0 18 16 3).mh Half.A fun z' => { z' with saf.permCab := 2 ^ 0 }, { half := Half.A, ring := 28, ctag := 1, hb := 0 }, Half.A, 3, 0, 0, by unfold RunsAt; decide +kernel⟩,
    ⟨(((fun s : State => s.setSeqG Half.A 0 0 { s.seqG Half.A 0 0 with st := 7 }) site).srf .mbx Half.A 0 18 16 3).mh Half.A fun z' => { z' with saf.permCab := 2 ^ 0 }, { half := Half.A, ring := 28, ctag := 1, hb := 0 }, Half.A, 3, 0, 1, 0, by unfold RunsAt; decide +kernel⟩,
    ⟨site.srf .mbx Half.A 0 18 16 3, { half := Half.A, ring := 28, ctag := 1, hb := 0 }, Half.A, 3, 0, 0, by unfold RunsAt; decide +kernel⟩⟩

/-- Every hypothesis of CabinetRemotes is met, clause by clause. -/
theorem Sys2Proof.Tests.witness_CabinetRemotes :
    (∃ (s : State) (p : Nat), p < 32 ∧ (s.rem p).linkLost = false ∧ ((s.rem p).zeroCur = true ∨ (s.rem p).applied = [])) ∧
    (∃ (s : State) (p : Nat), p < 32 ∧ (s.rem p).linkLost = true ∧ (s.rem p).sinceL = 0 ∧ (s.cab p).phases ≠ []) ∧
    (∃ (s : State) (p : Nat), p < 32 ∧ (s.rem p).linkLost = true ∧ 0 < (s.rem p).sinceL ∧ (s.rem p).sinceL < (s.cab p).rampLen) ∧
    (∃ (s : State) (p : Nat), p < 32 ∧ (s.rem p).linkLost = true ∧ 0 < (s.rem p).sinceL ∧ (s.cab p).rampLen ≤ (s.rem p).sinceL) ∧
    (∃ (s : State) (p : Nat), p < 32 ∧ (s.rem p).linkLost = false ∧ (s.rem p).zeroCur = false ∧ (s.rem p).applied ≠ []) ∧
    (∃ (s : State) (p : Nat), p < 32 ∧ (s.rem p).linkLost = false ∧ (s.rem p).zeroCur = false ∧ (appliedWord s p 1).testBit 15 = false) ∧
    (∃ (s : State) (p : Nat), 32 ≤ p) ∧
    (∃ (s : State) (p : Nat), p < 32 ∧ (s.rem p).tickKnown = true ∧ (s.rem p).applied ≠ [] ∧ (s.rem p).tick % 65536 = 0) ∧
    (∃ (s : State) (p : Nat), p < 32 ∧ (s.rem p).tickKnown = true ∧ (s.rem p).applied ≠ [] ∧ (s.rem p).tick % 65536 ≠ 0 ∧ (s.cab p).dithOk = true) ∧
    (∃ (s : State) (p : Nat), (s.rem p).tickKnown = false) :=
   ⟨⟨(site.mRem 0 fun z' => { z' with zeroCur := true }).mRem 0 fun z' => { z' with linkLost := false }, 0, by decide +kernel⟩,
    ⟨(fun s : State => { s with cabs := [(0, { phases := [(0, 5)] })] }) ((site.mRem 0 fun z' => { z' with linkLost := true }).mRem 0 fun z' => { z' with sinceL := 0 }), 0, by decide +kernel⟩,
    ⟨(fun s : State => ({ s with cabs := [(0, { rampLen := 400 })] }).mRem 0 fun r => { r with sinceL := 399 }) ((site.mRem 0 fun z' => { z' with sinceL := 0 + 1 }).mRem 0 fun z' => { z' with linkLost := true }), 0, by decide +kernel⟩,
    ⟨(fun s : State => ({ s with cabs := [(0, { rampLen := 400 })] }).mRem 0 fun r => { r with sinceL := 400 }) (((fun s : State => s.mRem 0 fun z' => { z' with sinceL := (s.cab 0).rampLen }) (site.mRem 0 fun z' => { z' with sinceL := 0 + 1 })).mRem 0 fun z' => { z' with linkLost := true }), 0, by decide +kernel⟩,
    ⟨((site.mRem 0 fun z' => { z' with linkLost := false }).mRem 0 fun z' => { z' with zeroCur := false }).mRem 0 fun r => { r with linkLost := false, zeroCur := false, applied := [1] }, 0, by decide +kernel⟩,
    ⟨(site.mRem 0 fun z' => { z' with linkLost := false }).mRem 0 fun z' => { z' with zeroCur := false }, 0, by decide +kernel⟩,
    ⟨site, 32, by decide +kernel⟩,
    ⟨(site.mRem 0 fun z' => { z' with tickKnown := true }).mRem 0 fun r => { r with tickKnown := true, applied := [1], tick := 65536 }, 0, by decide +kernel⟩,
    ⟨(fun s : State => ({ s with cabs := [(0, { dithOk := true })] }).mRem 0 fun r => { r with tickKnown := true, applied := [1], tick := 65537 }) (site.mRem 0 fun z' => { z' with tickKnown := true }), 0, by decide +kernel⟩,
    ⟨site.mRem 0 fun z' => { z' with tickKnown := false }, 0, by decide +kernel⟩⟩

def Sys2Proof.Tests.sCableModelsAndCeilings9 : State := (fun s : State => s.mModel Half.A 0 fun z' => { z' with sens := Machine.upd {} (s.model Half.A 0).sens 0 (fun y' => { y' with broken := true }) }) ((fun s : State => s.mModel Half.A 0 fun z' => { z' with sens := Machine.put {} (s.model Half.A 0).sens 0 (look {} (s.model Half.A 0).sens 0) }) ((fun s : State => s.mModel Half.A 0 fun z' => { z' with sens := Machine.upd {} (s.model Half.A 0).sens 0 (fun y' => { y' with good := 1000 }) }) site))
def Sys2Proof.Tests.sCableModelsAndCeilings10 : State := (fun s : State => s.mModel Half.A 0 fun z' => { z' with sens := Machine.upd {} (s.model Half.A 0).sens 0 (fun y' => { y' with suspect := false }) }) ((fun s : State => s.mModel Half.A 0 fun z' => { z' with sens := Machine.upd {} (s.model Half.A 0).sens 0 (fun y' => { y' with broken := false }) }) ((fun s : State => s.mModel Half.A 0 fun z' => { z' with sens := Machine.put {} (s.model Half.A 0).sens 0 (look {} (s.model Half.A 0).sens 0) }) ((fun s : State => s.mModel Half.A 0 fun z' => { z' with sens := Machine.upd {} (s.model Half.A 0).sens 0 (fun y' => { y' with far := 1000 }) }) site)))
def Sys2Proof.Tests.sCableModelsAndCeilings11 : State := (fun s : State => s.mModel Half.A 0 fun z' => { z' with sens := Machine.upd {} (s.model Half.A 0).sens 0 (fun y' => { y' with suspect := true }) }) ((fun s : State => s.mModel Half.A 0 fun z' => { z' with sens := Machine.put {} (s.model Half.A 0).sens 0 (look {} (s.model Half.A 0).sens 0) }) ((fun s : State => s.mModel Half.A 0 fun z' => { z' with sens := Machine.upd {} (s.model Half.A 0).sens 0 (fun y' => { y' with near := 10000 }) }) site))

/-- Every hypothesis of CableModelsAndCeilings is met, clause by clause. -/
theorem Sys2Proof.Tests.witness_CableModelsAndCeilings :
    (∃ (s : State) (h : Half), (s.tick h % 20 ≠ 0 ∨ (s.hf h).thm.set.map (·.1) = some (s.tick h))) ∧
    (∃ (s : State) (h : Half), s.tick h % 20 = 0 ∧ (s.hf h).thm.set.map (·.1) ≠ some (s.tick h)) ∧
    (∃ (s : State) (h : Half) (n : Nat) (l : List Nat), s.charge = some h ∧ (s.hf h).thm.set = some (n, l) ∧ s.twinUp h = true ∧ n + 9 ≤ s.tick h) ∧
    (∃ (s : State) (h : Half), s.charge = some h ∧ s.twinUp h = false) ∧
    (∃ (s : State) (h : Half) (n : Nat) (l : List Nat), s.twinUp h = false ∧ (s.hf h).thm.set = some (n, l) ∧ n + 9 ≤ s.tick h) ∧
    (∃ (s : State) (h : Half) (l : List Nat), s.twinUp h = true ∧ (s.hf h).thm.go = true ∧ s.charge = some (other h) ∧ (s.hf h).thm.rx = some l) ∧
    (∃ (s : State) (h : Half) (m : Nat), m < 64) ∧
    (∃ (s : State) (h : Half) (m : Nat), m < 64 ∧ s.modelEn h m = true ∧ (s.model h m).active = false) ∧
    (∃ (s : State) (h : Half) (m : Nat), (s.modelEn h m = false ∨ (s.model h m).active = true)) ∧
    (∃ (s : State) (h : Half) (m : Nat) (k : Nat) (q : SensS), q = look {} (s.model h m).sens k ∧ q.broken = true ∧ 1000 ≤ q.good ∧ s.charge = some h) ∧
    (∃ (s : State) (h : Half) (m : Nat) (k : Nat) (q : SensS), q = look {} (s.model h m).sens k ∧ k < 2 ∧ q.broken = false ∧ q.suspect = false ∧ 1000 ≤ q.far ∧ s.charge = some h) ∧
    (∃ (s : State) (h : Half) (m : Nat) (k : Nat) (q : SensS), q = look {} (s.model h m).sens k ∧ k < 2 ∧ q.suspect = true ∧ 10000 ≤ q.near ∧ s.charge = some h) ∧
    (∃ (s : State) (h : Half) (m : Nat), (s.model h m).coolOut = true ∧ 1000 ≤ (s.model h m).coolOk ∧ s.charge = some h) ∧
    (∃ (s : State) (h : Half) (m : Nat), (s.model h m).coolOk < 1000) :=
   ⟨⟨site.mTck Half.A fun z' => { z' with tick := 100000 + 1 }, Half.A, by decide +kernel⟩,
    ⟨site.mTck Half.A fun z' => { z' with tick := 100000 + 0 }, Half.A, by decide +kernel⟩,
    ⟨(site.mh Half.A fun z' => { z' with thm.set := some (0, ([] : List Nat)) }).mTwn Half.A fun z' => { z' with up := true }, Half.A, 0, [], by decide +kernel⟩,
    ⟨site.mTwn Half.A fun z' => { z' with up := false }, Half.A, by decide +kernel⟩,
    ⟨(site.mTwn Half.A fun z' => { z' with up := false }).mh Half.A fun z' => { z' with thm.set := some (0, ([] : List Nat)) }, Half.A, 0, [], by decide +kernel⟩,
    ⟨(fun s : State => { s with ref.token := some .B }) ((site.mh .A fun y => { y with thm.rx := some [], thm.go := true, twn.acting := false }).mTwn .B fun y => { y with acting := true }), .A, [], by decide +kernel⟩,
    ⟨site, Half.A, 0, by decide +kernel⟩,
    ⟨((fun s : State => (s).srf .thm Half.A (0x100 * 0) 31 31 (Bool.toNat (true))) site).mModel Half.A 0 fun z' => { z' with active := false }, Half.A, 0, by decide +kernel⟩,
    ⟨(fun s : State => (s).srf .thm Half.A (0x100 * 0) 31 31 (Bool.toNat (false))) site, Half.A, 0, by decide +kernel⟩,
    ⟨sCableModelsAndCeilings9, Half.A, 0, 0, look {} (sCableModelsAndCeilings9.model Half.A 0).sens 0, by decide +kernel⟩,
    ⟨sCableModelsAndCeilings10, Half.A, 0, 0, look {} (sCableModelsAndCeilings10.model Half.A 0).sens 0, by decide +kernel⟩,
    ⟨sCableModelsAndCeilings11, Half.A, 0, 0, look {} (sCableModelsAndCeilings11.model Half.A 0).sens 0, by decide +kernel⟩,
    ⟨(site.mModel Half.A 0 fun z' => { z' with coolOk := 1000 }).mModel Half.A 0 fun z' => { z' with coolOut := true }, Half.A, 0, by decide +kernel⟩,
    ⟨site.mModel Half.A 0 fun z' => { z' with coolOk := 999 }, Half.A, 0, by decide +kernel⟩⟩

def Sys2Proof.Tests.sDeviceTemperature8 : State := site.mh Half.A fun z' => { z' with thm.tj := 11000 }
def Sys2Proof.Tests.sDeviceTemperature9 : State := ((site.mh Half.A fun z' => { z' with thm.tj := 10699 }).mh Half.A fun z' => { z' with thm.otherTj := 10699 }).mh Half.A fun y => { y with thm.derate := 50, thm.derateAt := some 5 }

/-- Every hypothesis of DeviceTemperature is met, clause by clause. -/
theorem Sys2Proof.Tests.witness_DeviceTemperature :
    (∃ (s : State) (h : Half) (n : Int) (l : List Nat), s.due h (s.hf h).thm.tjAt 20 = true ∧ n ≤ (s.hf h).thm.diode ∧ (s.hf h).thm.diode < 10000 ∧ -3000 ≤ (s.hf h).thm.diode ∧ (s.hf h).thm.step = 0 ∧ (s.hf h).thm.flashHold = false ∧ s.therm.stop = none) ∧
    (∃ (s : State) (h : Half) (l : List Nat), s.due h (s.hf h).thm.tjAt 20 = true ∧ (s.hf h).thm.diode ≤ 10400 ∧ (s.hf h).thm.step = 1 ∧ (s.hf h).thm.flashHold = false ∧ s.therm.stop = none) ∧
    (∃ (s : State) (h : Half) (n : Int) (l : List Nat), s.due h (s.hf h).thm.tjAt 20 = false) ∧
    (∃ (s : State) (h : Half) (n : Int) (l : List Nat), s.due h (s.hf h).thm.tjAt 20 = true ∧ 12500 ≤ n ∧ (s.hf h).thm.diode ≤ n ∧ (s.hf h).thm.hot = 1 ∧ s.therm.stop = none) ∧
    (∃ (s : State) (h : Half) (d : Int), s.due h (s.hf h).thm.diodeAt 2000 = true) ∧
    (∃ (s : State) (h : Half) (d : Int), s.due h (s.hf h).thm.diodeAt 2000 = false) ∧
    (∃ (s : State) (h : Half) (v : Nat), (s.hf h).thm.below = some v ∧ 0 < (s.hf h).thm.step ∧ v + 20000 ≤ s.tick h) ∧
    (∃ (s : State) (h : Half), (s.hf h).thm.below = none) ∧
    (∃ (s : State) (h : Half) (n : Nat), s.due h (s.hf h).thm.derateAt 20000 = true ∧ 11000 ≤ (s.hf h).thm.tj ∧ n = max (min (s.hf h).thm.derate (s.rf .thm h 0x4004 31 24)) ((s.hf h).thm.derate - s.rf .thm h 0x4004 23 16) ∧ n ≠ (s.hf h).thm.derate) ∧
    (∃ (s : State) (h : Half) (n : Nat), s.due h (s.hf h).thm.derateAt 20000 = true ∧ (s.hf h).thm.tj < 10700 ∧ (s.hf h).thm.otherTj < 10700 ∧ n = min 100 ((s.hf h).thm.derate + s.rf .thm h 0x4004 23 16) ∧ n ≠ (s.hf h).thm.derate) ∧
    (∃ (s : State) (h : Half), s.due h (s.hf h).thm.derateAt 20000 = true ∧ (s.hf h).thm.tj < 10700 ∧ (s.hf h).thm.otherTj < 10700 ∧ (s.hf h).thm.derate = 100) ∧
    (∃ (s : State) (h : Half), s.due h (s.hf h).thm.derateAt 20000 = false) ∧
    (∃ (s : State) (h : Half) (v : Nat), (s.hf h).thm.flashHold = true ∧ (s.hf h).thm.flashOk = some v ∧ v + 20000 ≤ s.tick h ∧ s.holdup = false) ∧
    (∃ (s : State) (x : Int), (x < 0 ∨ 4500 < x) ∧ -4000 ≤ x ∧ x ≤ 10000 ∧ s.therm.bntc.broken = false ∧ s.therm.bntc.inhibit = false) ∧
    (∃ (s : State) (x : Int), 0 ≤ x ∧ x ≤ 4500 ∧ s.therm.bntc.broken = false ∧ s.therm.bntc.inhibit = false) ∧
    (∃ (s : State) (x : Int), (x < -4000 ∨ 10000 < x)) :=
   ⟨⟨((fun s : State => { s with therm.stop := none }) (((((site.mh Half.A fun z' => { z' with thm.diode := 5 }).mh Half.A fun z' => { z' with thm.diode := 9999 }).mh Half.A fun z' => { z' with thm.diode := -3000 }).mh Half.A fun z' => { z' with thm.step := 0 }).mh Half.A fun z' => { z' with thm.flashHold := false })).mh Half.A fun y => { y with thm.diode := 5 }, Half.A, 5, [], by decide +kernel⟩,
    ⟨(fun s : State => { s with therm.stop := none }) (((site.mh Half.A fun z' => { z' with thm.diode := 10400 }).mh Half.A fun z' => { z' with thm.step := 1 }).mh Half.A fun z' => { z' with thm.flashHold := false }), Half.A, [], by decide +kernel⟩,
    ⟨site.mh Half.A fun y => { y with thm.tjAt := some 99990 }, Half.A, 5, [], by decide +kernel⟩,
    ⟨(fun s : State => { s with therm.stop := none }) (site.mh Half.A fun z' => { z' with thm.hot := 1 }), Half.A, 12500, [], by decide +kernel⟩,
    ⟨site, Half.A, 0, by decide +kernel⟩,
    ⟨site.mh Half.A fun y => { y with thm.diodeAt := some 99990 }, Half.A, 0, by decide +kernel⟩,
    ⟨(site.mh Half.A fun z' => { z' with thm.step := 0 + 1 }).mh Half.A fun z' => { z' with thm.below := some 0 }, Half.A, 0, by decide +kernel⟩,
    ⟨site.mh Half.A fun z' => { z' with thm.below := none }, Half.A, by decide +kernel⟩,
    ⟨sDeviceTemperature8, Half.A, max (min (sDeviceTemperature8.hf Half.A).thm.derate (sDeviceTemperature8.rf .thm Half.A 0x4004 31 24)) ((sDeviceTemperature8.hf Half.A).thm.derate - sDeviceTemperature8.rf .thm Half.A 0x4004 23 16), by decide +kernel⟩,
    ⟨sDeviceTemperature9, Half.A, min 100 ((sDeviceTemperature9.hf Half.A).thm.derate + sDeviceTemperature9.rf .thm Half.A 0x4004 23 16), by decide +kernel⟩,
    ⟨((site.mh Half.A fun z' => { z' with thm.tj := 10699 }).mh Half.A fun z' => { z' with thm.otherTj := 10699 }).mh Half.A fun z' => { z' with thm.derate := 100 }, Half.A, by decide +kernel⟩,
    ⟨site.mh Half.A fun y => { y with thm.derateAt := some 99990 }, Half.A, by decide +kernel⟩,
    ⟨(site.mh Half.A fun z' => { z' with thm.flashHold := true }).mh Half.A fun z' => { z' with thm.flashOk := some 0 }, Half.A, 0, by decide +kernel⟩,
    ⟨(fun s : State => { s with therm.bntc.inhibit := false }) ((fun s : State => { s with therm.bntc.broken := false }) site), -1, by decide +kernel⟩,
    ⟨(fun s : State => { s with therm.bntc.inhibit := false }) ((fun s : State => { s with therm.bntc.broken := false }) site), 0, by decide +kernel⟩,
    ⟨site, -4001, by decide +kernel⟩⟩

/-- Every hypothesis of VehicleSessionStates is met, clause by clause. -/
theorem Sys2Proof.Tests.witness_VehicleSessionStates :
    (∃ (s : State) (k : Nat) (x : Half), k < 48 ∧ s.charge = some x ∧ (s.veh1 k).c.st = 0 ∧ bitAt (s.vcfg k 0) 31 = true ∧ 2 ≤ (s.veh1 k).pilotN ∧ look none s.bil.core.sess k = none) ∧
    (∃ (s : State) (k : Nat) (x : Half), k < 48 ∧ s.charge = some x ∧ 5 ≤ (s.veh1 k).c.st ∧ (s.veh1 k).c.st ≤ 7 ∧ (s.veh1 k).pilot = 0 ∧ (s.veh1 k).c.reason = 0) ∧
    (∃ (s : State) (k : Nat) (x : Half), k < 48 ∧ s.charge = some x ∧ (s.veh1 k).c.st = 10 ∧ (s.veh1 k).pilot = 0) ∧
    (∃ (s : State) (k : Nat), s.charge = none) ∧
    (∃ (s : State) (k : Nat) (n : Nat) (l : List (List Nat)) (x : Half), k < 48 ∧ s.charge = some x ∧ bitAt (s.vcfg k 0) 30 = false ∧ (s.veh1 k).slac = [] ∧ s.twinUp x = true) ∧
    (∃ (s : State) (k : Nat) (n : Nat) (l : List (List Nat)) (x : Half), k < 48 ∧ s.charge = some x ∧ bitAt (s.vcfg k 0) 30 = false ∧ s.twinUp x = false) ∧
    (∃ (s : State) (k : Nat) (n : Nat) (x : Half), s.charge = some x ∧ (s.veh1 k).c.st = 1 ∧ bitAt (s.vcfg k 0) 30 = false ∧ s.slacOk k n = true) ∧
    (∃ (s : State) (k : Nat) (id : List Nat) (x : Half), k < 48 ∧ s.charge = some x ∧ (s.veh1 k).c.st = 2 ∧ (s.veh1 k).c.reason = 0 ∧ ((∀ key, (s.veh1 k).c.key = some key → s.keyUsable key = true)) ∧ (s.veh1 k).c.proto ≠ 0 ∧ ((s.veh1 k).c.tls = 3 ∨ needsTls (s.vcfg k 0) (s.veh1 k).c.proto = false)) ∧
    (∃ (s : State) (k : Nat) (x : Half), k < 48 ∧ s.charge = some x ∧ (s.veh1 k).c.st = 6 ∧ (s.veh1 k).c.reason = 0 ∧ ((∀ key, (s.veh1 k).c.key = some key → s.keyUsable key = true))) ∧
    (∃ (s : State) (k : Nat) (l : VehLim) (m : VehLimS) (x : Half), k < 48 ∧ s.charge = some x ∧ (s.veh1 k).c.st = 7 ∧ (s.veh1 k).c.reason = 0 ∧ ((∀ key, (s.veh1 k).c.key = some key → s.keyUsable key = true)) ∧ limConv l = some m) ∧
    (∃ (s : State) (k : Nat) (x : Half), k < 48 ∧ s.charge = some x ∧ (s.veh1 k).c.st = 7 ∧ (s.veh1 k).c.reason = 0 ∧ ((∀ key, (s.veh1 k).c.key = some key → s.keyUsable key = true))) ∧
    (∃ (s : State) (k : Nat) (m : VehMsg), ((s.veh1 k).c.st < 2 ∨ 8 ≤ (s.veh1 k).c.st ∨ (s.veh1 k).c.reason = 0x10 ∨ (∃ key, (s.veh1 k).c.key = some key ∧ s.keyUsable key = false))) ∧
    (∃ (s : State) (k : Nat) (x : Half), s.charge = some x ∧ (s.veh1 k).c.st = 3 ∧ (s.veh1 k).c.reason = 0 ∧ (s.veh1 k).c.since + 20000 * fld (s.vcfg k 0) 15 8 ≤ s.now) ∧
    (∃ (s : State) (k : Nat) (x : Half), s.charge = some x ∧ (s.veh1 k).c.st = 7 ∧ (s.veh1 k).c.reason = 0) ∧
    (∃ (s : State) (k : Nat) (n : Nat) (x : Half), s.charge = some x ∧ s.causeHolds k n = true ∧ 5 ≤ (s.veh1 k).c.st ∧ (s.veh1 k).c.st ≤ 7 ∧ (s.veh1 k).c.reason = 0) ∧
    (∃ (s : State) (k : Nat) (n : Nat) (x : Half), s.charge = some x ∧ s.causeHolds k n = true ∧ 5 ≤ (s.veh1 k).c.st ∧ (s.veh1 k).c.st ≤ 7 ∧ (s.veh1 k).c.reason ≠ 0) ∧
    (∃ (s : State) (k : Nat) (n : Nat), s.causeHolds k n = false) ∧
    (∃ (s : State) (k : Nat), (s.veh1 k).c.st = 8 ∧ (4 ≤ (s.veh1 k).lowN ∨ (s.veh1 k).c.since + 500 ≤ s.now)) ∧
    (∃ (s : State) (k : Nat), (s.veh1 k).c.st ≠ 8) ∧
    (∃ (s : State) (k : Nat) (v : Int), (s.veh1 k).c.st = 9 ∧ (s.veh1 k).vout = some v ∧ v < 60000) ∧
    (∃ (s : State) (k : Nat) (n : Nat), (s.veh1 k).c.told = some n ∧ (s.veh1 k).c.st = 7 ∧ n + 40000 ≤ s.now ∧ (s.veh1 k).c.reason ≠ 0) ∧
    (∃ (s : State) (k : Nat), (s.veh1 k).c.told = none) ∧
    (∃ (s : State) (k : Nat) (x : Half), s.charge = some x ∧ s.coolStop k = true ∧ (s.model x (fld (s.ocfg x k 0) 14 8)).coolAt + 1200000 ≤ s.now ∧ (s.veh1 k).c.st = 7 ∧ (s.veh1 k).c.reason = 0) ∧
    (∃ (s : State) (k : Nat), s.coolStop k = false) :=
   ⟨⟨(fun s : State => { s with bil.core.sess := Machine.put none s.bil.core.sess 0 (none) }) (((site.mVeh 0 fun z' => { z' with pilotN := 2 }).mVeh 0 fun z' => { z' with c.st := 0 }).srf .veh .A (0x10 * 0 + 4 * 0) 31 31 (Bool.toNat (true))), 0, Half.A, by decide +kernel⟩,
    ⟨(((site.mVeh 0 fun z' => { z' with c.st := 5 }).mVeh 0 fun z' => { z' with c.st := 7 }).mVeh 0 fun z' => { z' with pilot := 0 }).mVeh 0 fun z' => { z' with c.reason := 0 }, 0, Half.A, by decide +kernel⟩,
    ⟨(site.mVeh 0 fun z' => { z' with c.st := 10 }).mVeh 0 fun z' => { z' with pilot := 0 }, 0, Half.A, by decide +kernel⟩,
    ⟨(site.mh .A fun z' => { z' with twn.acting := false }), 0, by decide +kernel⟩,
    ⟨((site.srf .veh .A (0x10 * 0 + 4 * 0) 30 30 (Bool.toNat (false))).mVeh 0 fun z' => { z' with slac := [] }).mTwn Half.A fun z' => { z' with up := true }, 0, 0, [], Half.A, by decide +kernel⟩,
    ⟨(site.srf .veh .A (0x10 * 0 + 4 * 0) 30 30 (Bool.toNat (false))).mTwn Half.A fun z' => { z' with up := false }, 0, 0, [], Half.A, by decide +kernel⟩,
    ⟨((site.mVeh 0 fun z' => { z' with c.st := 1 }).srf .veh .A (0x10 * 0 + 4 * 0) 30 30 (Bool.toNat (false))).mVeh 0 fun y => { y with slac := [(0, (0, 1, 0))], pilot := 1 }, 0, 0, Half.A, by decide +kernel⟩,
    ⟨(((site.mVeh 0 fun z' => { z' with c.proto := 1 }).mVeh 0 fun z' => { z' with c.tls := 3 }).mVeh 0 fun z' => { z' with c.st := 2 }).mVeh 0 fun z' => { z' with c.reason := 0 }, 0, [], Half.A, by decide +kernel, by decide +kernel, by decide +kernel, by decide +kernel, all_some (by decide +kernel), by decide +kernel⟩,
    ⟨(site.mVeh 0 fun z' => { z' with c.st := 6 }).mVeh 0 fun z' => { z' with c.reason := 0 }, 0, Half.A, by decide +kernel, by decide +kernel, by decide +kernel, by decide +kernel, all_some (by decide +kernel)⟩,
    ⟨(site.mVeh 0 fun z' => { z' with c.st := 7 }).mVeh 0 fun z' => { z' with c.reason := 0 }, 0, ⟨⟨100,0⟩,⟨100,0⟩,⟨100,0⟩,⟨0,0⟩,⟨0,0⟩,⟨400,0⟩,⟨400,0⟩,false⟩, (limConv (⟨⟨100,0⟩,⟨100,0⟩,⟨100,0⟩,⟨0,0⟩,⟨0,0⟩,⟨400,0⟩,⟨400,0⟩,false⟩ : VehLim)).getD {}, Half.A, by decide +kernel, by decide +kernel, by decide +kernel, by decide +kernel, all_some (by decide +kernel), by decide +kernel⟩,
    ⟨(site.mVeh 0 fun z' => { z' with c.st := 7 }).mVeh 0 fun z' => { z' with c.reason := 0 }, 0, Half.A, by decide +kernel, by decide +kernel, by decide +kernel, by decide +kernel, all_some (by decide +kernel)⟩,
    ⟨site.mVeh 0 fun z' => { z' with c.st := 1 }, 0, .stop, by decide +kernel⟩,
    ⟨(site.mVeh 19999 fun z' => { z' with c.st := 3 }).mVeh 19999 fun z' => { z' with c.reason := 0 }, 19999, Half.A, by decide +kernel⟩,
    ⟨(site.mVeh 0 fun z' => { z' with c.st := 7 }).mVeh 0 fun z' => { z' with c.reason := 0 }, 0, Half.A, by decide +kernel⟩,
    ⟨((site.mVeh 0 fun z' => { z' with c.st := 5 }).mVeh 0 fun z' => { z' with c.st := 7 }).mVeh 0 fun z' => { z' with c.reason := 0 }, 0, 0x0E, Half.A, by decide +kernel⟩,
    ⟨((site.mVeh 0 fun z' => { z' with c.st := 5 }).mVeh 0 fun z' => { z' with c.st := 7 }).mVeh 0 fun z' => { z' with c.reason := 1 }, 0, 0x0E, Half.A, by decide +kernel⟩,
    ⟨site, 0, 0, by decide +kernel⟩,
    ⟨(site.mVeh 0 fun z' => { z' with lowN := 4 }).mVeh 0 fun z' => { z' with c.st := 8 }, 0, by decide +kernel⟩,
    ⟨site.mVeh 0 fun z' => { z' with c.st := 9 }, 0, by decide +kernel⟩,
    ⟨(site.mVeh 0 fun z' => { z' with c.st := 9 }).mVeh 0 fun z' => { z' with vout := some 0 }, 0, 0, by decide +kernel⟩,
    ⟨((site.mVeh 0 fun z' => { z' with c.reason := 1 }).mVeh 0 fun z' => { z' with c.told := some 0 }).mVeh 0 fun z' => { z' with c.st := 7 }, 0, 0, by decide +kernel⟩,
    ⟨site.mVeh 0 fun z' => { z' with c.told := none }, 0, by decide +kernel⟩,
    ⟨(((tickSite 1200000).srg .cnp .A 0x4000 0).mModel .A 0 fun y => { y with coolOut := true }).mVeh 0 fun y => { y with c := { y.c with st := 7 } }, 0, .A, by decide +kernel⟩,
    ⟨site, 0, by decide +kernel⟩⟩

/-- Every hypothesis of VehicleLimitsAndVerbs is met, clause by clause. -/
theorem Sys2Proof.Tests.witness_VehicleLimitsAndVerbs :
    (∃ (s : State) (h : Half) (b : Bool), s.charge = some h ∧ s.twinUp h = false ∧ s.tick h % 20 = 19 ∧ s.vehG.late = []) ∧
    (∃ (s : State) (h : Half), s.charge = some h ∧ s.twinUp h = true ∧ s.tick h % 20 = 19 ∧ s.vehG.late = []) ∧
    (∃ (s : State) (h : Half) (b : Bool), s.charge = some h ∧ s.tick h % 20 ≠ 19 ∧ s.vehG.late = []) ∧
    (∃ (s : State) (h : Half) (k : Nat) (n : Nat), s.charge = some h ∧ k < 48 ∧ 4 ≤ n) ∧
    (∃ (s : State) (k : Nat) (n : Nat), n < 4) ∧
    (∃ (s : State) (k : Nat) (d : Dcmd) (l : List Dcmd), (s.rem (32 + k)).dcmds = d :: l ∧ d.edge ≤ (s.rem (32 + k)).tick ∧ (s.rem (32 + k)).linkLost = false) ∧
    (∃ (s : State) (k : Nat) (d : Dcmd) (l : List Dcmd), (s.rem (32 + k)).dcmds = d :: l ∧ d.edge ≤ (s.rem (32 + k)).tick ∧ (s.rem (32 + k)).linkLost = true) ∧
    (∃ (s : State) (k : Nat), (s.rem (32 + k)).dcmds = []) ∧
    (∃ (s : State) (k : Nat) (n : Nat), (s.veh1 k).c.key = some n ∧ s.keyUsable n = false ∧ (s.veh1 k).c.st = 7 ∧ (s.veh1 k).c.reason = 0) ∧
    (∃ (s : State) (k : Nat), (s.veh1 k).c.key = none) ∧
    (∃ (s : State) (h : Half) (k : Nat) (m : VehC), s.charge = some h ∧ k < 48 ∧ 1 ≤ (s.veh1 k).c.st ∧ (s.veh1 k).c.st ≤ 9 ∧ (s.veh1 k).mir = some m ∧ m.num = (s.veh1 k).c.num) ∧
    (∃ (s : State) (h : Half) (k : Nat), s.charge = some h ∧ k < 48 ∧ 5 ≤ (s.veh1 k).c.st ∧ (s.veh1 k).c.st ≤ 7 ∧ ((∀ m, (s.veh1 k).mir = some m → m.num ≠ (s.veh1 k).c.num)) ∧ (s.veh1 k).c.reason = 0) ∧
    (∃ (s : State) (h : Half), s.charge ≠ some h) ∧
    (∃ (s : State) (h : Half) (k : Nat), s.charge = some h ∧ s.twinUp h = true) ∧
    (∃ (s : State) (o : Org) (x : Half) (r : Nat) (k : Nat) (n : Nat), RunsAt s o 0x0901 x r ∧ r ∈ [rOperator, rInstaller, rVendor] ∧ k < 48 ∧ s.openAs k n = true ∧ (s.veh1 k).c.st = 3 ∧ (s.veh1 k).c.path = 3) ∧
    (∃ (s : State) (o : Org) (x : Half) (r : Nat) (k : Nat) (f : Nat) (n : Nat), RunsAt s o 0x0901 x r ∧ r ∈ [rOperator, rInstaller, rVendor] ∧ k < 48 ∧ f < 4 ∧ s.openAs k n = false) ∧
    (∃ (s : State) (o : Org) (x : Half) (r : Nat) (k : Nat) (n : Nat), RunsAt s o 0x0902 x r ∧ r ∈ [rOperator, rInstaller, rVendor] ∧ k < 48 ∧ s.openAs k n = true ∧ (s.veh1 k).c.st = 7 ∧ (s.veh1 k).c.told = none ∧ (s.veh1 k).c.reason = 0) ∧
    (∃ (s : State) (o : Org) (x : Half) (r : Nat) (k : Nat) (n : Nat), RunsAt s o 0x0902 x r ∧ r ∈ [rOperator, rInstaller, rVendor] ∧ k < 48 ∧ s.openAs k n = true ∧ 8 ≤ (s.veh1 k).c.st) ∧
    (∃ (s : State) (o : Org) (x : Half) (r : Nat) (n : Nat) (id : List Nat), RunsAt s o 0x0903 x r ∧ r ∈ [rOperator, rInstaller] ∧ 1 ≤ n ∧ n ≤ 3 ∧ (n, padTo 22 id) ∉ s.vehG.lists ∧ s.vehG.lists.length < 4096 ∧ s.flashFull x 128 = false) ∧
    (∃ (s : State) (o : Org) (x : Half) (r : Nat) (n : Nat) (id : List Nat), RunsAt s o 0x0903 x r ∧ r ∈ [rOperator, rInstaller] ∧ 1 ≤ n ∧ n ≤ 3 ∧ s.flashFull x 128 = false) ∧
    (∃ (s : State) (o : Org) (x : Half) (r : Nat) (a : Nat) (n : Nat) (id : List Nat), RunsAt s o 0x0903 x r ∧ r ∈ [rOperator, rInstaller] ∧ a < 2 ∧ 1 ≤ n ∧ n ≤ 3 ∧ s.flashFull x 128 = true) ∧
    (∃ (s : State) (o : Org) (x : Half) (r : Nat) (k : Nat), RunsAt s o 0x0904 x r ∧ r ∈ rAny ∧ k < 48) ∧
    (∃ (s : State) (o : Org) (x : Half) (r : Nat) (k : Nat), RunsAt s o 0x0904 x r ∧ r ∈ rAny ∧ 48 ≤ k) :=
   ⟨⟨(fun s : State => { s with vehG.late := [] }) ((site.mTwn Half.A fun z' => { z' with up := false }).mTck Half.A fun z' => { z' with tick := 100000 + 19 }), Half.A, true, by decide +kernel⟩,
    ⟨(fun s : State => { s with vehG.late := [] }) ((site.mTwn Half.A fun z' => { z' with up := true }).mTck Half.A fun z' => { z' with tick := 100000 + 19 }), Half.A, by decide +kernel⟩,
    ⟨(fun s : State => { s with vehG.late := [] }) (site.mTck Half.A fun z' => { z' with tick := 100000 + 1 }), Half.A, true, by decide +kernel⟩,
    ⟨site, Half.A, 0, 4, by decide +kernel⟩,
    ⟨site, 0, 0, by decide +kernel⟩,
    ⟨((site.mRem (32 + 0) fun z' => { z' with tick := ({ seq := 0, edge := 0, act := 0, ov := 0 } : Dcmd).edge }).mRem (32 + 0) fun z' => { z' with dcmds := ({ seq := 0, edge := 0, act := 0, ov := 0 } : Dcmd) :: ([] : List Dcmd) }).mRem (32 + 0) fun z' => { z' with linkLost := false }, 0, { seq := 0, edge := 0, act := 0, ov := 0 }, [], by decide +kernel⟩,
    ⟨((site.mRem (32 + 0) fun z' => { z' with tick := ({ seq := 0, edge := 0, act := 0, ov := 0 } : Dcmd).edge }).mRem (32 + 0) fun z' => { z' with dcmds := ({ seq := 0, edge := 0, act := 0, ov := 0 } : Dcmd) :: ([] : List Dcmd) }).mRem (32 + 0) fun z' => { z' with linkLost := true }, 0, { seq := 0, edge := 0, act := 0, ov := 0 }, [], by decide +kernel⟩,
    ⟨site.mRem (32 + 0) fun z' => { z' with dcmds := [] }, 0, by decide +kernel⟩,
    ⟨((site.mVeh 0 fun z' => { z' with c.key := some 0 }).mVeh 0 fun z' => { z' with c.st := 7 }).mVeh 0 fun z' => { z' with c.reason := 0 }, 0, 0, by decide +kernel⟩,
    ⟨site.mVeh 0 fun z' => { z' with c.key := none }, 0, by decide +kernel⟩,
    ⟨((site.mVeh 0 fun z' => { z' with c.st := 1 }).mVeh 0 fun z' => { z' with c.st := 9 }).mVeh 0 fun z' => { z' with mir := some ({  } : VehC) }, Half.A, 0, {  }, by decide +kernel⟩,
    ⟨((site.mVeh 0 fun z' => { z' with c.st := 5 }).mVeh 0 fun z' => { z' with c.st := 7 }).mVeh 0 fun z' => { z' with c.reason := 0 }, Half.A, 0, by decide +kernel, by decide +kernel, by decide +kernel, by decide +kernel, all_some (by decide +kernel), by decide +kernel⟩,
    ⟨site, Half.B, by decide +kernel⟩,
    ⟨site.mTwn Half.A fun z' => { z' with up := true }, Half.A, 0, by decide +kernel⟩,
    ⟨((site.srf .mbx Half.A 0 18 16 1).mVeh 0 fun z' => { z' with c.st := 3 }).mVeh 0 fun z' => { z' with c.path := 3 }, { half := Half.A, ring := 28, ctag := 1, hb := 0 }, Half.A, 1, 0, 0, by unfold RunsAt; decide +kernel⟩,
    ⟨site.srf .mbx Half.A 0 18 16 1, { half := Half.A, ring := 28, ctag := 1, hb := 0 }, Half.A, 1, 0, 0, 0, by unfold RunsAt; decide +kernel⟩,
    ⟨(((site.srf .mbx Half.A 0 18 16 1).mVeh 0 fun z' => { z' with c.st := 7 }).mVeh 0 fun z' => { z' with c.told := none }).mVeh 0 fun z' => { z' with c.reason := 0 }, { half := Half.A, ring := 28, ctag := 1, hb := 0 }, Half.A, 1, 0, 0, by unfold RunsAt; decide +kernel⟩,
    ⟨(site.mVeh 0 fun z' => { z' with c.st := 8 }).srf .mbx Half.A 0 18 16 1, { half := Half.A, ring := 28, ctag := 1, hb := 0 }, Half.A, 1, 0, 0, by unfold RunsAt; decide +kernel⟩,
    ⟨site.srf .mbx Half.A 0 18 16 1, { half := Half.A, ring := 28, ctag := 1, hb := 0 }, Half.A, 1, 1, [], by unfold RunsAt; decide +kernel⟩,
    ⟨site.srf .mbx Half.A 0 18 16 1, { half := Half.A, ring := 28, ctag := 1, hb := 0 }, Half.A, 1, 1, [], by unfold RunsAt; decide +kernel⟩,
    ⟨(site.srf .mbx Half.A 0 18 16 1).mh Half.A fun y => { y with thm.flashHold := true, thm.buf := 67108864 }, { half := Half.A, ring := 28, ctag := 1, hb := 0 }, Half.A, 1, 0, 1, [], by unfold RunsAt; decide +kernel⟩,
    ⟨site.srf .mbx Half.A 0 18 16 0, { half := Half.A, ring := 28, ctag := 1, hb := 0 }, Half.A, 0, 0, by unfold RunsAt; decide +kernel⟩,
    ⟨site.srf .mbx Half.A 0 18 16 0, { half := Half.A, ring := 28, ctag := 1, hb := 0 }, Half.A, 0, 48, by unfold RunsAt; decide +kernel⟩⟩

def Sys2Proof.Tests.sEnergyIntegration1 : State := (fun s : State => { s with bil.dead := false }) ((fun s : State => { s with met.battery := 0 }) ((fun s : State => (s).srf .met .A (if 0 < 0x30 then 0x10 * 0 else 0x500 + 0x10 * (0 - 0x40)) 31 31 (Bool.toNat (true))) ((metSite [0, 0, 0x10] [0, 0, 0x10]).mMeter 0 fun z' => { z' with closed := none })))
def Sys2Proof.Tests.sEnergyIntegration2 : State := (fun s : State => { s with bil.dead := false }) ((fun s : State => { s with met.battery := 0 }) ((fun s : State => (s).srf .met .A (if 0 < 0x30 then 0x10 * 0 else 0x500 + 0x10 * (0 - 0x40)) 31 31 (Bool.toNat (true))) ((metSite [0, 0, 0x10] [0, 0, 0xF0]).mMeter 0 fun z' => { z' with closed := none })))
def Sys2Proof.Tests.sEnergyIntegration3 : State := (fun s : State => { s with met.battery := 0 }) ((fun s : State => (s).srf .met .A (if 0 < 0x30 then 0x10 * 0 else 0x500 + 0x10 * (0 - 0x40)) 31 31 (Bool.toNat (true))) ((metSite [0, 0, 0x10] [0, 0, 0]).mMeter 0 fun z' => { z' with closed := none }))
def Sys2Proof.Tests.sEnergyIntegration4 : State := (fun s : State => { s with met.battery := 0 }) ((fun s : State => (s).srf .met .A (if 0 < 0x30 then 0x10 * 0 else 0x500 + 0x10 * (0 - 0x40)) 31 31 (Bool.toNat (true))) ((metSite [0, 0, 0x10] [0, 0, 0]).mMeter 0 fun z' => { z' with closed := none }))
def Sys2Proof.Tests.sEnergyIntegration5 : State := ((fun s : State => { s with met.battery := 0 }) ((fun s : State => (s).srf .met .A (if 0 < 0x30 then 0x10 * 0 else 0x500 + 0x10 * (0 - 0x40)) 31 31 (Bool.toNat (true))) ((metSite [0, 0, 0x10] [0, 0, 0]).mMeter 0 fun z' => { z' with closed := none }))).mMeter 0 fun z' => { z' with gap := some ({ num := 1, start := 0, pc := 0, halted := false } : GapS) }
def Sys2Proof.Tests.sEnergyIntegration10 : State := (((((fun s : State => { s with bil.dead := false }) ((fun s : State => { s with met.battery := 0 }) ((fun s : State => (s).srf .met .A (if (0x40 + 0) < 0x30 then 0x10 * (0x40 + 0) else 0x500 + 0x10 * ((0x40 + 0) - 0x40)) 31 31 (Bool.toNat (true))) site))).srg .met .A 0x408 100000).srg .met .A 0x438 100000).srf .met .A 0x500 31 31 1).mMeter 0x40 fun y => { y with chan := (List.range 7).map fun c => (c, [0, 0, 0]) }
def Sys2Proof.Tests.sEnergyIntegration11 : State := (((((fun s : State => { s with bil.dead := false }) ((fun s : State => { s with met.battery := 0 }) ((fun s : State => (s).srf .met .A (if (0x40 + 0) < 0x30 then 0x10 * (0x40 + 0) else 0x500 + 0x10 * ((0x40 + 0) - 0x40)) 31 31 (Bool.toNat (true))) site))).srg .met .A 0x408 100000).srg .met .A 0x438 0xFFFE7960).srf .met .A 0x500 31 31 1).mMeter 0x40 fun y => { y with chan := (List.range 7).map fun c => (c, [0, 0, 0]) }
def Sys2Proof.Tests.sEnergyIntegration12 : State := (((fun s : State => { s with met.battery := 0 }) ((fun s : State => (s).srf .met .A (if (0x40 + 0) < 0x30 then 0x10 * (0x40 + 0) else 0x500 + 0x10 * ((0x40 + 0) - 0x40)) 31 31 (Bool.toNat (true))) site)).srf .met .A 0x500 31 31 1).mMeter 0x40 fun y => { y with chan := (List.range 7).map fun c => (c, [0, 0, 0]) }

/-- Every hypothesis of EnergyIntegration is met, clause by clause. -/
theorem Sys2Proof.Tests.witness_EnergyIntegration :
    (∃ (s : State) (k : Nat), (s.srcEn k = false ∨ 48 ≤ k ∨ s.met.battery ≠ 0 ∨ (s.meter k).closed = some s.now)) ∧
    (∃ (s : State) (k : Nat) (c : MetCopy) (v : Int) (i : Int) (p : Int) (lss : Int) (pc : Nat), s.srcEn k = true ∧ k < 48 ∧ s.met.battery = 0 ∧ (s.meter k).closed ≠ some s.now ∧ (s.meterCopies k).find? (s.copyOk k) = some c ∧ v = delayed (intAt c.bytes 10 3 :: (s.meter k).hist.map (·.1)) (fld (s.metw (0x10 * k)) 27 16) ∧ i = delayed (intAt c.bytes 13 3 :: (s.meter k).hist.map (·.2)) (fld (s.metw (0x10 * k)) 11 0) ∧ p = roundDiv (v * i) (2 ^ 20) ∧ lss = roundDiv (roundDiv i 1024 * roundDiv i 1024 * fld (s.metw (0x10 * k + 4)) 31 16) 400000 ∧ pc = (max 0 (p - lss)).toNat ∧ 2 * fld (s.metw (0x10 * k + 4)) 15 0 ≤ (roundDiv i 1024).natAbs ∧ 0 ≤ p ∧ s.bil.dead = false) ∧
    (∃ (s : State) (k : Nat) (c : MetCopy) (v : Int) (i : Int) (p : Int) (lss : Int) (pc : Nat), s.srcEn k = true ∧ k < 48 ∧ s.met.battery = 0 ∧ (s.meter k).closed ≠ some s.now ∧ (s.meterCopies k).find? (s.copyOk k) = some c ∧ v = delayed (intAt c.bytes 10 3 :: (s.meter k).hist.map (·.1)) (fld (s.metw (0x10 * k)) 27 16) ∧ i = delayed (intAt c.bytes 13 3 :: (s.meter k).hist.map (·.2)) (fld (s.metw (0x10 * k)) 11 0) ∧ p = roundDiv (v * i) (2 ^ 20) ∧ lss = roundDiv (roundDiv i 1024 * roundDiv i 1024 * fld (s.metw (0x10 * k + 4)) 31 16) 400000 ∧ pc = (lss - p).toNat ∧ 2 * fld (s.metw (0x10 * k + 4)) 15 0 ≤ (roundDiv i 1024).natAbs ∧ p < 0 ∧ s.bil.dead = false) ∧
    (∃ (s : State) (k : Nat) (c : MetCopy) (i : Int), s.srcEn k = true ∧ k < 48 ∧ s.met.battery = 0 ∧ (s.meter k).closed ≠ some s.now ∧ (s.meterCopies k).find? (s.copyOk k) = some c ∧ i = delayed (intAt c.bytes 13 3 :: (s.meter k).hist.map (·.2)) (fld (s.metw (0x10 * k)) 11 0) ∧ (roundDiv i 1024).natAbs < 2 * fld (s.metw (0x10 * k + 4)) 15 0) ∧
    (∃ (s : State) (k : Nat) (c : MetCopy), s.srcEn k = true ∧ k < 48 ∧ s.met.battery = 0 ∧ (s.meter k).closed ≠ some s.now ∧ (s.meterCopies k).find? (s.copyOk k) = some c) ∧
    (∃ (s : State) (k : Nat) (c : MetCopy) (g : GapS), s.srcEn k = true ∧ k < 48 ∧ s.met.battery = 0 ∧ (s.meter k).closed ≠ some s.now ∧ (s.meterCopies k).find? (s.copyOk k) = some c ∧ (s.meter k).gap = some g ∧ g.halted = false) ∧
    (∃ (s : State) (k : Nat), s.srcEn k = true ∧ k < 48 ∧ s.met.battery = 0 ∧ (s.meter k).closed ≠ some s.now ∧ (s.meterCopies k).find? (s.copyOk k) = none ∧ (s.meter k).subst < 3) ∧
    (∃ (s : State) (k : Nat), s.srcEn k = true ∧ k < 48 ∧ s.met.battery = 0 ∧ (s.meter k).closed ≠ some s.now ∧ (s.meterCopies k).find? (s.copyOk k) = none ∧ 3 ≤ (s.meter k).subst ∧ (s.meter k).gap = none) ∧
    (∃ (s : State) (k : Nat), s.srcEn k = true ∧ k < 48 ∧ s.met.battery = 0 ∧ (s.meter k).closed ≠ some s.now ∧ (s.meterCopies k).find? (s.copyOk k) = none ∧ 3 ≤ (s.meter k).subst ∧ (s.meter k).gap ≠ none) ∧
    (∃ (s : State) (k : Nat), s.srcEn k = true ∧ k < 48 ∧ s.met.battery = 0 ∧ (s.meter k).closed ≠ some s.now) ∧
    (∃ (s : State) (i : Nat) (raw : List (List Int)) (y : Nat → Nat → Int) (S : Int) (m : MeterS), s.srcEn (0x40 + i) = true ∧ s.met.battery = 0 ∧ (∀ c < 7, (look [] (s.meter (0x40 + i)).chan c).length = 3 ∧ (raw.getD c []).length = 16) ∧ (∀ c n, y c n = (channelOut s (7 * i + c) (look [] (s.meter (0x40 + i)).chan c) (raw.getD c [])).getD n 0) ∧ S = ((List.range 16).map fun n => y 0 n * y 3 n + y 1 n * y 4 n + y 2 n * y 5 n).sum ∧ m = s.meter (0x40 + i) ∧ (∃ c, 3 ≤ c ∧ c ≤ 5 ∧ 160 * fld (s.metw (0x500 + 0x10 * i)) 15 0 ≤ ((List.range 16).map fun n => (y c n).natAbs).sum) ∧ 0 < S ∧ s.bil.dead = false) ∧
    (∃ (s : State) (i : Nat) (raw : List (List Int)) (y : Nat → Nat → Int) (S : Int) (m : MeterS), s.srcEn (0x40 + i) = true ∧ s.met.battery = 0 ∧ (∀ c < 7, (look [] (s.meter (0x40 + i)).chan c).length = 3 ∧ (raw.getD c []).length = 16) ∧ (∀ c n, y c n = (channelOut s (7 * i + c) (look [] (s.meter (0x40 + i)).chan c) (raw.getD c [])).getD n 0) ∧ S = ((List.range 16).map fun n => y 0 n * y 3 n + y 1 n * y 4 n + y 2 n * y 5 n).sum ∧ m = s.meter (0x40 + i) ∧ (∃ c, 3 ≤ c ∧ c ≤ 5 ∧ 160 * fld (s.metw (0x500 + 0x10 * i)) 15 0 ≤ ((List.range 16).map fun n => (y c n).natAbs).sum) ∧ S < 0 ∧ s.bil.dead = false) ∧
    (∃ (s : State) (i : Nat) (raw : List (List Int)) (y : Nat → Nat → Int) (S : Int) (m : MeterS), s.srcEn (0x40 + i) = true ∧ s.met.battery = 0 ∧ (∀ c < 7, (look [] (s.meter (0x40 + i)).chan c).length = 3 ∧ (raw.getD c []).length = 16) ∧ (∀ c n, y c n = (channelOut s (7 * i + c) (look [] (s.meter (0x40 + i)).chan c) (raw.getD c [])).getD n 0) ∧ S = ((List.range 16).map fun n => y 0 n * y 3 n + y 1 n * y 4 n + y 2 n * y 5 n).sum ∧ m = s.meter (0x40 + i) ∧ ((∀ c, 3 ≤ c → c ≤ 5 → ((List.range 16).map fun n => (y c n).natAbs).sum < 160 * fld (s.metw (0x500 + 0x10 * i)) 15 0))) ∧
    (∃ (s : State) (i : Nat) (raw : List (List Int)) (c : Nat), s.srcEn (0x40 + i) = true ∧ s.met.battery = 0 ∧ c < 7 ∧ (raw.getD c []).length = 16 ∧ 16000 ≤ (stuckRun (look (0, 0) (s.meter (0x40 + i)).stuckN c) (raw.getD c [])).2) ∧
    (∃ (s : State) (i : Nat) (raw : List (List Int)), (s.srcEn (0x40 + i) = false ∨ s.met.battery ≠ 0)) :=
   ⟨⟨(fun s : State => (s).srf .met .A (if 0 < 0x30 then 0x10 * 0 else 0x500 + 0x10 * (0 - 0x40)) 31 31 (Bool.toNat (false))) site, 0, by decide +kernel⟩,
    ⟨sEnergyIntegration1, 0, ((sEnergyIntegration1.meterCopies 0).find? (sEnergyIntegration1.copyOk 0)).getD { seq := 160, side := .A, bytes := [] }, delayed (intAt (((sEnergyIntegration1.meterCopies 0).find? (sEnergyIntegration1.copyOk 0)).getD { seq := 160, side := .A, bytes := [] } : MetCopy).bytes 10 3 :: (sEnergyIntegration1.meter 0).hist.map (·.1)) (fld (sEnergyIntegration1.metw (0x10 * 0)) 27 16), delayed (intAt (((sEnergyIntegration1.meterCopies 0).find? (sEnergyIntegration1.copyOk 0)).getD { seq := 160, side := .A, bytes := [] } : MetCopy).bytes 13 3 :: (sEnergyIntegration1.meter 0).hist.map (·.2)) (fld (sEnergyIntegration1.metw (0x10 * 0)) 11 0), roundDiv ((delayed (intAt (((sEnergyIntegration1.meterCopies 0).find? (sEnergyIntegration1.copyOk 0)).getD { seq := 160, side := .A, bytes := [] } : MetCopy).bytes 10 3 :: (sEnergyIntegration1.meter 0).hist.map (·.1)) (fld (sEnergyIntegration1.metw (0x10 * 0)) 27 16) : Int) * (delayed (intAt (((sEnergyIntegration1.meterCopies 0).find? (sEnergyIntegration1.copyOk 0)).getD { seq := 160, side := .A, bytes := [] } : MetCopy).bytes 13 3 :: (sEnergyIntegration1.meter 0).hist.map (·.2)) (fld (sEnergyIntegration1.metw (0x10 * 0)) 11 0) : Int)) (2 ^ 20), roundDiv (roundDiv (delayed (intAt (((sEnergyIntegration1.meterCopies 0).find? (sEnergyIntegration1.copyOk 0)).getD { seq := 160, side := .A, bytes := [] } : MetCopy).bytes 13 3 :: (sEnergyIntegration1.meter 0).hist.map (·.2)) (fld (sEnergyIntegration1.metw (0x10 * 0)) 11 0) : Int) 1024 * roundDiv (delayed (intAt (((sEnergyIntegration1.meterCopies 0).find? (sEnergyIntegration1.copyOk 0)).getD { seq := 160, side := .A, bytes := [] } : MetCopy).bytes 13 3 :: (sEnergyIntegration1.meter 0).hist.map (·.2)) (fld (sEnergyIntegration1.metw (0x10 * 0)) 11 0) : Int) 1024 * fld (sEnergyIntegration1.metw (0x10 * 0 + 4)) 31 16) 400000, (max 0 ((roundDiv ((delayed (intAt (((sEnergyIntegration1.meterCopies 0).find? (sEnergyIntegration1.copyOk 0)).getD { seq := 160, side := .A, bytes := [] } : MetCopy).bytes 10 3 :: (sEnergyIntegration1.meter 0).hist.map (·.1)) (fld (sEnergyIntegration1.metw (0x10 * 0)) 27 16) : Int) * (delayed (intAt (((sEnergyIntegration1.meterCopies 0).find? (sEnergyIntegration1.copyOk 0)).getD { seq := 160, side := .A, bytes := [] } : MetCopy).bytes 13 3 :: (sEnergyIntegration1.meter 0).hist.map (·.2)) (fld (sEnergyIntegration1.metw (0x10 * 0)) 11 0) : Int)) (2 ^ 20) : Int) - (roundDiv (roundDiv (delayed (intAt (((sEnergyIntegration1.meterCopies 0).find? (sEnergyIntegration1.copyOk 0)).getD { seq := 160, side := .A, bytes := [] } : MetCopy).bytes 13 3 :: (sEnergyIntegration1.meter 0).hist.map (·.2)) (fld (sEnergyIntegration1.metw (0x10 * 0)) 11 0) : Int) 1024 * roundDiv (delayed (intAt (((sEnergyIntegration1.meterCopies 0).find? (sEnergyIntegration1.copyOk 0)).getD { seq := 160, side := .A, bytes := [] } : MetCopy).bytes 13 3 :: (sEnergyIntegration1.meter 0).hist.map (·.2)) (fld (sEnergyIntegration1.metw (0x10 * 0)) 11 0) : Int) 1024 * fld (sEnergyIntegration1.metw (0x10 * 0 + 4)) 31 16) 400000 : Int))).toNat, by decide +kernel⟩,
    ⟨sEnergyIntegration2, 0, ((sEnergyIntegration2.meterCopies 0).find? (sEnergyIntegration2.copyOk 0)).getD { seq := 160, side := .A, bytes := [] }, delayed (intAt (((sEnergyIntegration2.meterCopies 0).find? (sEnergyIntegration2.copyOk 0)).getD { seq := 160, side := .A, bytes := [] } : MetCopy).bytes 10 3 :: (sEnergyIntegration2.meter 0).hist.map (·.1)) (fld (sEnergyIntegration2.metw (0x10 * 0)) 27 16), delayed (intAt (((sEnergyIntegration2.meterCopies 0).find? (sEnergyIntegration2.copyOk 0)).getD { seq := 160, side := .A, bytes := [] } : MetCopy).bytes 13 3 :: (sEnergyIntegration2.meter 0).hist.map (·.2)) (fld (sEnergyIntegration2.metw (0x10 * 0)) 11 0), roundDiv ((delayed (intAt (((sEnergyIntegration2.meterCopies 0).find? (sEnergyIntegration2.copyOk 0)).getD { seq := 160, side := .A, bytes := [] } : MetCopy).bytes 10 3 :: (sEnergyIntegration2.meter 0).hist.map (·.1)) (fld (sEnergyIntegration2.metw (0x10 * 0)) 27 16) : Int) * (delayed (intAt (((sEnergyIntegration2.meterCopies 0).find? (sEnergyIntegration2.copyOk 0)).getD { seq := 160, side := .A, bytes := [] } : MetCopy).bytes 13 3 :: (sEnergyIntegration2.meter 0).hist.map (·.2)) (fld (sEnergyIntegration2.metw (0x10 * 0)) 11 0) : Int)) (2 ^ 20), roundDiv (roundDiv (delayed (intAt (((sEnergyIntegration2.meterCopies 0).find? (sEnergyIntegration2.copyOk 0)).getD { seq := 160, side := .A, bytes := [] } : MetCopy).bytes 13 3 :: (sEnergyIntegration2.meter 0).hist.map (·.2)) (fld (sEnergyIntegration2.metw (0x10 * 0)) 11 0) : Int) 1024 * roundDiv (delayed (intAt (((sEnergyIntegration2.meterCopies 0).find? (sEnergyIntegration2.copyOk 0)).getD { seq := 160, side := .A, bytes := [] } : MetCopy).bytes 13 3 :: (sEnergyIntegration2.meter 0).hist.map (·.2)) (fld (sEnergyIntegration2.metw (0x10 * 0)) 11 0) : Int) 1024 * fld (sEnergyIntegration2.metw (0x10 * 0 + 4)) 31 16) 400000, ((roundDiv (roundDiv (delayed (intAt (((sEnergyIntegration2.meterCopies 0).find? (sEnergyIntegration2.copyOk 0)).getD { seq := 160, side := .A, bytes := [] } : MetCopy).bytes 13 3 :: (sEnergyIntegration2.meter 0).hist.map (·.2)) (fld (sEnergyIntegration2.metw (0x10 * 0)) 11 0) : Int) 1024 * roundDiv (delayed (intAt (((sEnergyIntegration2.meterCopies 0).find? (sEnergyIntegration2.copyOk 0)).getD { seq := 160, side := .A, bytes := [] } : MetCopy).bytes 13 3 :: (sEnergyIntegration2.meter 0).hist.map (·.2)) (fld (sEnergyIntegration2.metw (0x10 * 0)) 11 0) : Int) 1024 * fld (sEnergyIntegration2.metw (0x10 * 0 + 4)) 31 16) 400000 : Int) - (roundDiv ((delayed (intAt (((sEnergyIntegration2.meterCopies 0).find? (sEnergyIntegration2.copyOk 0)).getD { seq := 160, side := .A, bytes := [] } : MetCopy).bytes 10 3 :: (sEnergyIntegration2.meter 0).hist.map (·.1)) (fld (sEnergyIntegration2.metw (0x10 * 0)) 27 16) : Int) * (delayed (intAt (((sEnergyIntegration2.meterCopies 0).find? (sEnergyIntegration2.copyOk 0)).getD { seq := 160, side := .A, bytes := [] } : MetCopy).bytes 13 3 :: (sEnergyIntegration2.meter 0).hist.map (·.2)) (fld (sEnergyIntegration2.metw (0x10 * 0)) 11 0) : Int)) (2 ^ 20) : Int)).toNat, by decide +kernel⟩,
    ⟨sEnergyIntegration3, 0, ((sEnergyIntegration3.meterCopies 0).find? (sEnergyIntegration3.copyOk 0)).getD { seq := 160, side := .A, bytes := [] }, delayed (intAt (((sEnergyIntegration3.meterCopies 0).find? (sEnergyIntegration3.copyOk 0)).getD { seq := 160, side := .A, bytes := [] } : MetCopy).bytes 13 3 :: (sEnergyIntegration3.meter 0).hist.map (·.2)) (fld (sEnergyIntegration3.metw (0x10 * 0)) 11 0), by decide +kernel⟩,
    ⟨sEnergyIntegration4, 0, ((sEnergyIntegration4.meterCopies 0).find? (sEnergyIntegration4.copyOk 0)).getD { seq := 160, side := .A, bytes := [] }, by decide +kernel⟩,
    ⟨sEnergyIntegration5, 0, ((sEnergyIntegration5.meterCopies 0).find? (sEnergyIntegration5.copyOk 0)).getD { seq := 160, side := .A, bytes := [] }, { num := 1, start := 0, pc := 0, halted := false }, by decide +kernel⟩,
    ⟨(fun s : State => { s with met.battery := 0 }) ((fun s : State => (s).srf .met .A (if 0 < 0x30 then 0x10 * 0 else 0x500 + 0x10 * (0 - 0x40)) 31 31 (Bool.toNat (true))) ((site.mMeter 0 fun z' => { z' with closed := none }).mMeter 0 fun z' => { z' with subst := 2 })), 0, by decide +kernel⟩,
    ⟨((fun s : State => { s with met.battery := 0 }) ((fun s : State => (s).srf .met .A (if 0 < 0x30 then 0x10 * 0 else 0x500 + 0x10 * (0 - 0x40)) 31 31 (Bool.toNat (true))) ((site.mMeter 0 fun z' => { z' with closed := none }).mMeter 0 fun z' => { z' with subst := 3 }))).mMeter 0 fun z' => { z' with gap := none }, 0, by decide +kernel⟩,
    ⟨((fun s : State => { s with met.battery := 0 }) ((fun s : State => (s).srf .met .A (if 0 < 0x30 then 0x10 * 0 else 0x500 + 0x10 * (0 - 0x40)) 31 31 (Bool.toNat (true))) ((site.mMeter 0 fun z' => { z' with closed := none }).mMeter 0 fun z' => { z' with subst := 3 }))).mMeter 0 fun y => { y with gap := some { num := 1, start := 0, pc := 0, halted := false }, subst := 3 }, 0, by decide +kernel⟩,
    ⟨(fun s : State => { s with met.battery := 0 }) ((fun s : State => (s).srf .met .A (if 0 < 0x30 then 0x10 * 0 else 0x500 + 0x10 * (0 - 0x40)) 31 31 (Bool.toNat (true))) (site.mMeter 0 fun z' => { z' with closed := none })), 0, by decide +kernel⟩,
    ⟨sEnergyIntegration10, 0, List.replicate 7 (List.replicate 16 0), fun c n => (channelOut sEnergyIntegration10 (7 * 0 + c) (look [] (sEnergyIntegration10.meter (0x40 + 0)).chan c) ((List.replicate 7 (List.replicate 16 0) : List (List Int)).getD c [])).getD n 0, ((List.range 16).map fun n => (fun c n => (channelOut sEnergyIntegration10 (7 * 0 + c) (look [] (sEnergyIntegration10.meter (0x40 + 0)).chan c) ((List.replicate 7 (List.replicate 16 0) : List (List Int)).getD c [])).getD n 0 : Nat → Nat → Int) 0 n * (fun c n => (channelOut sEnergyIntegration10 (7 * 0 + c) (look [] (sEnergyIntegration10.meter (0x40 + 0)).chan c) ((List.replicate 7 (List.replicate 16 0) : List (List Int)).getD c [])).getD n 0 : Nat → Nat → Int) 3 n + (fun c n => (channelOut sEnergyIntegration10 (7 * 0 + c) (look [] (sEnergyIntegration10.meter (0x40 + 0)).chan c) ((List.replicate 7 (List.replicate 16 0) : List (List Int)).getD c [])).getD n 0 : Nat → Nat → Int) 1 n * (fun c n => (channelOut sEnergyIntegration10 (7 * 0 + c) (look [] (sEnergyIntegration10.meter (0x40 + 0)).chan c) ((List.replicate 7 (List.replicate 16 0) : List (List Int)).getD c [])).getD n 0 : Nat → Nat → Int) 4 n + (fun c n => (channelOut sEnergyIntegration10 (7 * 0 + c) (look [] (sEnergyIntegration10.meter (0x40 + 0)).chan c) ((List.replicate 7 (List.replicate 16 0) : List (List Int)).getD c [])).getD n 0 : Nat → Nat → Int) 2 n * (fun c n => (channelOut sEnergyIntegration10 (7 * 0 + c) (look [] (sEnergyIntegration10.meter (0x40 + 0)).chan c) ((List.replicate 7 (List.replicate 16 0) : List (List Int)).getD c [])).getD n 0 : Nat → Nat → Int) 5 n).sum, sEnergyIntegration10.meter (0x40 + 0), by decide +kernel, by decide +kernel, by decide +kernel, fun _ _ => rfl, by decide +kernel, by decide +kernel, ⟨3, by decide +kernel⟩, by decide +kernel⟩,
    ⟨sEnergyIntegration11, 0, List.replicate 7 (List.replicate 16 0), fun c n => (channelOut sEnergyIntegration11 (7 * 0 + c) (look [] (sEnergyIntegration11.meter (0x40 + 0)).chan c) ((List.replicate 7 (List.replicate 16 0) : List (List Int)).getD c [])).getD n 0, ((List.range 16).map fun n => (fun c n => (channelOut sEnergyIntegration11 (7 * 0 + c) (look [] (sEnergyIntegration11.meter (0x40 + 0)).chan c) ((List.replicate 7 (List.replicate 16 0) : List (List Int)).getD c [])).getD n 0 : Nat → Nat → Int) 0 n * (fun c n => (channelOut sEnergyIntegration11 (7 * 0 + c) (look [] (sEnergyIntegration11.meter (0x40 + 0)).chan c) ((List.replicate 7 (List.replicate 16 0) : List (List Int)).getD c [])).getD n 0 : Nat → Nat → Int) 3 n + (fun c n => (channelOut sEnergyIntegration11 (7 * 0 + c) (look [] (sEnergyIntegration11.meter (0x40 + 0)).chan c) ((List.replicate 7 (List.replicate 16 0) : List (List Int)).getD c [])).getD n 0 : Nat → Nat → Int) 1 n * (fun c n => (channelOut sEnergyIntegration11 (7 * 0 + c) (look [] (sEnergyIntegration11.meter (0x40 + 0)).chan c) ((List.replicate 7 (List.replicate 16 0) : List (List Int)).getD c [])).getD n 0 : Nat → Nat → Int) 4 n + (fun c n => (channelOut sEnergyIntegration11 (7 * 0 + c) (look [] (sEnergyIntegration11.meter (0x40 + 0)).chan c) ((List.replicate 7 (List.replicate 16 0) : List (List Int)).getD c [])).getD n 0 : Nat → Nat → Int) 2 n * (fun c n => (channelOut sEnergyIntegration11 (7 * 0 + c) (look [] (sEnergyIntegration11.meter (0x40 + 0)).chan c) ((List.replicate 7 (List.replicate 16 0) : List (List Int)).getD c [])).getD n 0 : Nat → Nat → Int) 5 n).sum, sEnergyIntegration11.meter (0x40 + 0), by decide +kernel, by decide +kernel, by decide +kernel, fun _ _ => rfl, by decide +kernel, by decide +kernel, ⟨3, by decide +kernel⟩, by decide +kernel⟩,
    ⟨sEnergyIntegration12, 0, List.replicate 7 (List.replicate 16 0), fun c n => (channelOut sEnergyIntegration12 (7 * 0 + c) (look [] (sEnergyIntegration12.meter (0x40 + 0)).chan c) ((List.replicate 7 (List.replicate 16 0) : List (List Int)).getD c [])).getD n 0, ((List.range 16).map fun n => (fun c n => (channelOut sEnergyIntegration12 (7 * 0 + c) (look [] (sEnergyIntegration12.meter (0x40 + 0)).chan c) ((List.replicate 7 (List.replicate 16 0) : List (List Int)).getD c [])).getD n 0 : Nat → Nat → Int) 0 n * (fun c n => (channelOut sEnergyIntegration12 (7 * 0 + c) (look [] (sEnergyIntegration12.meter (0x40 + 0)).chan c) ((List.replicate 7 (List.replicate 16 0) : List (List Int)).getD c [])).getD n 0 : Nat → Nat → Int) 3 n + (fun c n => (channelOut sEnergyIntegration12 (7 * 0 + c) (look [] (sEnergyIntegration12.meter (0x40 + 0)).chan c) ((List.replicate 7 (List.replicate 16 0) : List (List Int)).getD c [])).getD n 0 : Nat → Nat → Int) 1 n * (fun c n => (channelOut sEnergyIntegration12 (7 * 0 + c) (look [] (sEnergyIntegration12.meter (0x40 + 0)).chan c) ((List.replicate 7 (List.replicate 16 0) : List (List Int)).getD c [])).getD n 0 : Nat → Nat → Int) 4 n + (fun c n => (channelOut sEnergyIntegration12 (7 * 0 + c) (look [] (sEnergyIntegration12.meter (0x40 + 0)).chan c) ((List.replicate 7 (List.replicate 16 0) : List (List Int)).getD c [])).getD n 0 : Nat → Nat → Int) 2 n * (fun c n => (channelOut sEnergyIntegration12 (7 * 0 + c) (look [] (sEnergyIntegration12.meter (0x40 + 0)).chan c) ((List.replicate 7 (List.replicate 16 0) : List (List Int)).getD c [])).getD n 0 : Nat → Nat → Int) 5 n).sum, sEnergyIntegration12.meter (0x40 + 0), by decide +kernel, by decide +kernel, by decide +kernel, fun _ _ => rfl, by decide +kernel, by decide +kernel, between_of (by decide +kernel)⟩,
    ⟨(((fun s : State => { s with met.battery := 0 }) ((fun s : State => (s).srf .met .A (if (0x40 + 0) < 0x30 then 0x10 * (0x40 + 0) else 0x500 + 0x10 * ((0x40 + 0) - 0x40)) 31 31 (Bool.toNat (true))) site)).srf .met .A 0x500 31 31 1).mMeter 0x40 fun y => { y with stuckN := [(0, (0, 16000))] }, 0, [List.replicate 16 0], 0, by decide +kernel⟩,
    ⟨(fun s : State => (s).srf .met .A (if (0x40 + 0) < 0x30 then 0x10 * (0x40 + 0) else 0x500 + 0x10 * ((0x40 + 0) - 0x40)) 31 31 (Bool.toNat (false))) site, 0, [], by decide +kernel⟩⟩

def Sys2Proof.Tests.sMetrologyChecks9 : State := (((fun s : State => { s with met.pulses := Machine.put {} s.met.pulses 0 (look {} s.met.pulses 0) }) ((fun s : State => { s with met.pulses := Machine.upd {} s.met.pulses 0 (fun y' => { y' with pend := 0 + 1 }) }) site)).srf .met .A (0x600 + 8 * 0) 31 31 (Bool.toNat (true))).srf .met .A (0x600 + 8 * 0) 30 30 (Bool.toNat (false))
def Sys2Proof.Tests.sMetrologyChecks11 : State := (((fun s : State => { s with met.pulses := Machine.put {} s.met.pulses 0 (look {} s.met.pulses 0) }) site).srf .met .A (0x600 + 8 * 0) 31 31 (Bool.toNat (true))).srf .met .A (0x600 + 8 * 0) 30 30 (Bool.toNat (true))
def Sys2Proof.Tests.sMetrologyChecks13 : State := (fun s : State => { s with met.intakes := Machine.put {} s.met.intakes 0 (look {} s.met.intakes 0) }) ((fun s : State => { s with met.battery := 0 }) ((fun s : State => (s).srf .met .A (if (0x40 + 0) < 0x30 then 0x10 * (0x40 + 0) else 0x500 + 0x10 * ((0x40 + 0) - 0x40)) 31 31 (Bool.toNat (true))) site))
def Sys2Proof.Tests.sMetrologyChecks14 : State := (fun s : State => { s with met.intakes := Machine.put {} s.met.intakes 0 (look {} s.met.intakes 0) }) ((fun s : State => { s with met.battery := 0 }) ((fun s : State => (s).srf .met .A (if (0x40 + 0) < 0x30 then 0x10 * (0x40 + 0) else 0x500 + 0x10 * ((0x40 + 0) - 0x40)) 31 31 (Bool.toNat (true))) site))
def Sys2Proof.Tests.sMetrologyChecks15 : State := (fun s : State => { s with met.intakes := Machine.put {} s.met.intakes 0 (look {} s.met.intakes 0) }) ((fun s : State => { s with met.battery := 0 }) ((fun s : State => (s).srf .met .A (if (0x40 + 0) < 0x30 then 0x10 * (0x40 + 0) else 0x500 + 0x10 * ((0x40 + 0) - 0x40)) 31 31 (Bool.toNat (true))) site))
def Sys2Proof.Tests.sMetrologyChecks16 : State := (fun s : State => { s with met.intakes := Machine.put {} s.met.intakes 0 (look {} s.met.intakes 0) }) ((fun s : State => { s with met.battery := 0 }) ((fun s : State => (s).srf .met .A (if (0x40 + 0) < 0x30 then 0x10 * (0x40 + 0) else 0x500 + 0x10 * ((0x40 + 0) - 0x40)) 31 31 (Bool.toNat (true))) site))
def Sys2Proof.Tests.sMetrologyChecks17 : State := (fun s : State => { s with met.intakes := Machine.put {} s.met.intakes 0 (look {} s.met.intakes 0) }) ((fun s : State => (s).srf .met .A (if (0x40 + 0) < 0x30 then 0x10 * (0x40 + 0) else 0x500 + 0x10 * ((0x40 + 0) - 0x40)) 31 31 (Bool.toNat (true))) ((fun s : State => { s with met.battery := 1 }) site))
def Sys2Proof.Tests.sMetrologyChecks22 : State := (fun s : State => { s with met.tamp := Machine.put {} s.met.tamp 0 (look {} s.met.tamp 0) }) site

/-- Every hypothesis of MetrologyChecks is met, clause by clause. -/
theorem Sys2Proof.Tests.witness_MetrologyChecks :
    (∃ (s : State) (src : Nat) (l : List Nat), s.srcEn src = true ∧ s.now % 20000 = 0 ∧ s.met.restart = none ∧ (∃ e ∈ (qtysOf src).zip (l ++ List.replicate 4 0), look 0 (s.meter src).inc e.1 ≠ e.2)) ∧
    (∃ (s : State) (src : Nat) (l : List Nat), s.srcEn src = true ∧ s.now % 20000 = 0 ∧ s.met.restart = none ∧ (∀ e ∈ (qtysOf src).zip (l ++ List.replicate 4 0), look 0 (s.meter src).inc e.1 = e.2)) ∧
    (∃ (s : State) (src : Nat) (n : Nat) (l : List Nat), s.srcEn src = true ∧ s.now % 20000 = 0 ∧ s.met.restart = some n ∧ s.now < n + 20000) ∧
    (∃ (s : State) (src : Nat) (l : List Nat), (s.srcEn src = false ∨ s.now % 20000 ≠ 0)) ∧
    (∃ (s : State) (n : Nat) (p : PulseS), p = look {} s.met.pulses n ∧ bitAt (s.metw (0x600 + 8 * n)) 31 = true ∧ bitAt (s.metw (0x600 + 8 * n)) 30 = false ∧ 0 < p.pend ∧ ((∀ t, p.last = some t → t + 40 * fld (s.metw (0x600 + 8 * n)) 23 16 ≤ s.now))) ∧
    (∃ (s : State) (n : Nat), ((look {} s.met.pulses n).pend = 0 ∨ bitAt (s.metw (0x600 + 8 * n)) 30 = true)) ∧
    (∃ (s : State) (n : Nat) (p : PulseS), p = look {} s.met.pulses n ∧ bitAt (s.metw (0x600 + 8 * n)) 31 = true ∧ bitAt (s.metw (0x600 + 8 * n)) 30 = true ∧ ((∀ t, p.last = some t → t + 20000 ≤ s.now))) ∧
    (∃ (s : State) (i : Nat) (im : Nat) (r : IntakeRms), s.srcEn (0x40 + i) = true ∧ s.met.battery = 0 ∧ im = max r.i1 (max r.i2 r.i3) ∧ im < 10 * fld (s.metw (0x500 + 0x10 * i)) 15 0) ∧
    (∃ (s : State) (i : Nat) (im : Nat) (r : IntakeRms) (x : IntakeS), s.srcEn (0x40 + i) = true ∧ s.met.battery = 0 ∧ im = max r.i1 (max r.i2 r.i3) ∧ 10 * fld (s.metw (0x500 + 0x10 * i)) 15 0 ≤ im ∧ x = look {} s.met.intakes i) ∧
    (∃ (s : State) (i : Nat) (im : Nat) (r : IntakeRms) (x : IntakeS), s.srcEn (0x40 + i) = true ∧ s.met.battery = 0 ∧ im = max r.i1 (max r.i2 r.i3) ∧ 10 * fld (s.metw (0x500 + 0x10 * i)) 15 0 ≤ im ∧ x = look {} s.met.intakes i) ∧
    (∃ (s : State) (i : Nat) (im : Nat) (r : IntakeRms) (x : IntakeS), s.srcEn (0x40 + i) = true ∧ s.met.battery = 0 ∧ im = max r.i1 (max r.i2 r.i3) ∧ 10 * fld (s.metw (0x500 + 0x10 * i)) 15 0 ≤ im ∧ x = look {} s.met.intakes i) ∧
    (∃ (s : State) (i : Nat) (im : Nat) (r : IntakeRms) (x : IntakeS), s.srcEn (0x40 + i) = true ∧ s.met.battery = 0 ∧ im = max r.i1 (max r.i2 r.i3) ∧ 10 * fld (s.metw (0x500 + 0x10 * i)) 15 0 ≤ im ∧ x = look {} s.met.intakes i) ∧
    (∃ (s : State) (i : Nat) (r : IntakeRms) (x : IntakeS), s.srcEn (0x40 + i) = true ∧ (s.met.battery = 1 ∨ s.met.battery = 2) ∧ x = look {} s.met.intakes i) ∧
    (∃ (s : State) (b : Bool), s.met.battery = 0 ∧ ((b = true → s.rf .pwr .A 0x08 31 29 = 4)) ∧ ((b = false → s.pwr.step = 4 ∧ s.pwr.batt = 1))) ∧
    (∃ (s : State) (b : Bool), s.met.battery ≠ 0) ∧
    (∃ (s : State) (b : Bool), s.met.battery = 1 ∧ (b = true ∨ s.met.battStart + 3600 * 32768 * fld (s.metw 0x704) 7 0 ≤ s.rtc)) ∧
    (∃ (s : State) (b : Bool), s.met.battery ≠ 1) ∧
    (∃ (s : State) (l : Nat) (n : Nat) (x : TampS), n < 4 ∧ x = look {} s.met.tamp n ∧ s.rtcByEdge = true) ∧
    (∃ (s : State) (l : Nat), s.rtcByEdge = false) ∧
    (∃ (s : State) (o : Org) (x : Half) (r : Nat) (src : Nat), RunsAt s o 0x0A01 x r ∧ r ∈ rAny ∧ s.srcEn src = false) ∧
    (∃ (s : State) (o : Org) (x : Half) (r : Nat) (k : Nat), RunsAt s o 0x0A01 x r ∧ r ∈ rAny ∧ s.srcEn k = true ∧ k < 48 ∧ Room s o 28) ∧
    (∃ (s : State) (o : Org) (x : Half) (r : Nat) (f : Nat) (n : Nat), RunsAt s o 0x0A02 x r ∧ r ∈ rAny ∧ 1 ≤ n ∧ n ≤ 128 ∧ Room s o (s.met.mlog.read f n).length) ∧
    (∃ (s : State) (o : Org) (x : Half) (r : Nat) (f : Nat) (n : Nat), RunsAt s o 0x0A02 x r ∧ r ∈ rNotPublic ∧ 1 ≤ n ∧ n ≤ 128 ∧ Room s o (s.met.evlog.read f n).length) ∧
    (∃ (s : State) (o : Org) (x : Half) (l : Nat) (f : Nat) (n : Nat), RunsAt s o 0x0A02 x rPublic ∧ l = 1 ∧ 1 ≤ n ∧ n ≤ 128) ∧
    (∃ (s : State) (o : Org) (x : Half) (r : Nat) (l : Nat) (f : Nat) (n : Nat), RunsAt s o 0x0A02 x r ∧ r ∈ rAny ∧ (1 < l ∨ n = 0 ∨ 128 < n)) ∧
    (∃ (s : State) (o : Org) (x : Half) (r : Nat) (i : Nat), RunsAt s o 0x0A03 x r ∧ r ∈ [rOperator, rBilling, rInstaller, rLegal] ∧ i ≤ 1) ∧
    (∃ (s : State) (o : Org) (x : Half) (r : Nat) (i : Nat), RunsAt s o 0x0A03 x r ∧ r ∈ [rPublic, rVendor]) :=
   ⟨⟨((fun s : State => { s with met.restart := none }) (((fun s : State => (s).srf .met .A (if 0 < 0x30 then 0x10 * 0 else 0x500 + 0x10 * (0 - 0x40)) 31 31 (Bool.toNat (true))) site).mTck .A fun z' => { z' with tick := 100000 + 0 })).mMeter 0 fun y => { y with inc := [(1, 5)] }, 0, [], by decide +kernel⟩,
    ⟨(fun s : State => { s with met.restart := none }) (((fun s : State => (s).srf .met .A (if 0 < 0x30 then 0x10 * 0 else 0x500 + 0x10 * (0 - 0x40)) 31 31 (Bool.toNat (true))) site).mTck .A fun z' => { z' with tick := 100000 + 0 }), 0, [], by decide +kernel⟩,
    ⟨(fun s : State => { s with met.restart := some 90000 }) (((fun s : State => (s).srf .met .A (if 0 < 0x30 then 0x10 * 0 else 0x500 + 0x10 * (0 - 0x40)) 31 31 (Bool.toNat (true))) site).mTck .A fun z' => { z' with tick := 100000 + 0 }), 0, 90000, [], by decide +kernel⟩,
    ⟨(fun s : State => (s).srf .met .A (if 0 < 0x30 then 0x10 * 0 else 0x500 + 0x10 * (0 - 0x40)) 31 31 (Bool.toNat (false))) site, 0, [], by decide +kernel⟩,
    ⟨sMetrologyChecks9, 0, look {} sMetrologyChecks9.met.pulses 0, by decide +kernel, by decide +kernel, by decide +kernel, by decide +kernel, all_some (by decide +kernel)⟩,
    ⟨(fun s : State => { s with met.pulses := Machine.upd {} s.met.pulses 0 (fun y' => { y' with pend := 0 }) }) site, 0, by decide +kernel⟩,
    ⟨sMetrologyChecks11, 0, look {} sMetrologyChecks11.met.pulses 0, by decide +kernel, by decide +kernel, by decide +kernel, all_some (by decide +kernel)⟩,
    ⟨(fun s : State => { s with met.battery := 0 }) ((fun s : State => (s).srf .met .A (if (0x40 + 0) < 0x30 then 0x10 * (0x40 + 0) else 0x500 + 0x10 * ((0x40 + 0) - 0x40)) 31 31 (Bool.toNat (true))) site), 0, max ({ i1 := 0, i2 := 0, i3 := 0, n := 0, r := 0, r1 := 0, r2 := 0, r3 := 0, sum := 0, v1 := 230000, v2 := 230000, v3 := 230000 } : IntakeRms).i1 (max ({ i1 := 0, i2 := 0, i3 := 0, n := 0, r := 0, r1 := 0, r2 := 0, r3 := 0, sum := 0, v1 := 230000, v2 := 230000, v3 := 230000 } : IntakeRms).i2 ({ i1 := 0, i2 := 0, i3 := 0, n := 0, r := 0, r1 := 0, r2 := 0, r3 := 0, sum := 0, v1 := 230000, v2 := 230000, v3 := 230000 } : IntakeRms).i3), { i1 := 0, i2 := 0, i3 := 0, n := 0, r := 0, r1 := 0, r2 := 0, r3 := 0, sum := 0, v1 := 230000, v2 := 230000, v3 := 230000 }, by decide +kernel⟩,
    ⟨sMetrologyChecks13, 0, max ({ i1 := 50000, i2 := 0, i3 := 0, n := 0, r := 0, r1 := 0, r2 := 0, r3 := 0, sum := 50000, v1 := 230000, v2 := 230000, v3 := 230000 } : IntakeRms).i1 (max ({ i1 := 50000, i2 := 0, i3 := 0, n := 0, r := 0, r1 := 0, r2 := 0, r3 := 0, sum := 50000, v1 := 230000, v2 := 230000, v3 := 230000 } : IntakeRms).i2 ({ i1 := 50000, i2 := 0, i3 := 0, n := 0, r := 0, r1 := 0, r2 := 0, r3 := 0, sum := 50000, v1 := 230000, v2 := 230000, v3 := 230000 } : IntakeRms).i3), { i1 := 50000, i2 := 0, i3 := 0, n := 0, r := 0, r1 := 0, r2 := 0, r3 := 0, sum := 50000, v1 := 230000, v2 := 230000, v3 := 230000 }, look {} sMetrologyChecks13.met.intakes 0, by decide +kernel⟩,
    ⟨sMetrologyChecks14, 0, max ({ i1 := 50000, i2 := 0, i3 := 0, n := 0, r := 0, r1 := 0, r2 := 0, r3 := 0, sum := 50000, v1 := 0, v2 := 230000, v3 := 230000 } : IntakeRms).i1 (max ({ i1 := 50000, i2 := 0, i3 := 0, n := 0, r := 0, r1 := 0, r2 := 0, r3 := 0, sum := 50000, v1 := 0, v2 := 230000, v3 := 230000 } : IntakeRms).i2 ({ i1 := 50000, i2 := 0, i3 := 0, n := 0, r := 0, r1 := 0, r2 := 0, r3 := 0, sum := 50000, v1 := 0, v2 := 230000, v3 := 230000 } : IntakeRms).i3), { i1 := 50000, i2 := 0, i3 := 0, n := 0, r := 0, r1 := 0, r2 := 0, r3 := 0, sum := 50000, v1 := 0, v2 := 230000, v3 := 230000 }, look {} sMetrologyChecks14.met.intakes 0, by decide +kernel⟩,
    ⟨sMetrologyChecks15, 0, max ({ i1 := 50000, i2 := 0, i3 := 0, n := 50000, r := 50000, r1 := 0, r2 := 0, r3 := 0, sum := 50000, v1 := 230000, v2 := 230000, v3 := 230000 } : IntakeRms).i1 (max ({ i1 := 50000, i2 := 0, i3 := 0, n := 50000, r := 50000, r1 := 0, r2 := 0, r3 := 0, sum := 50000, v1 := 230000, v2 := 230000, v3 := 230000 } : IntakeRms).i2 ({ i1 := 50000, i2 := 0, i3 := 0, n := 50000, r := 50000, r1 := 0, r2 := 0, r3 := 0, sum := 50000, v1 := 230000, v2 := 230000, v3 := 230000 } : IntakeRms).i3), { i1 := 50000, i2 := 0, i3 := 0, n := 50000, r := 50000, r1 := 0, r2 := 0, r3 := 0, sum := 50000, v1 := 230000, v2 := 230000, v3 := 230000 }, look {} sMetrologyChecks15.met.intakes 0, by decide +kernel⟩,
    ⟨sMetrologyChecks16, 0, max ({ i1 := 50000, i2 := 0, i3 := 0, n := 50000, r := 50000, r1 := 50000, r2 := 50000, r3 := 50000, sum := 50000, v1 := 230000, v2 := 230000, v3 := 230000 } : IntakeRms).i1 (max ({ i1 := 50000, i2 := 0, i3 := 0, n := 50000, r := 50000, r1 := 50000, r2 := 50000, r3 := 50000, sum := 50000, v1 := 230000, v2 := 230000, v3 := 230000 } : IntakeRms).i2 ({ i1 := 50000, i2 := 0, i3 := 0, n := 50000, r := 50000, r1 := 50000, r2 := 50000, r3 := 50000, sum := 50000, v1 := 230000, v2 := 230000, v3 := 230000 } : IntakeRms).i3), { i1 := 50000, i2 := 0, i3 := 0, n := 50000, r := 50000, r1 := 50000, r2 := 50000, r3 := 50000, sum := 50000, v1 := 230000, v2 := 230000, v3 := 230000 }, look {} sMetrologyChecks16.met.intakes 0, by decide +kernel⟩,
    ⟨sMetrologyChecks17, 0, { i1 := 0, i2 := 0, i3 := 0, n := 0, r := 0, r1 := 0, r2 := 0, r3 := 0, sum := 0, v1 := 230000, v2 := 230000, v3 := 230000 }, look {} sMetrologyChecks17.met.intakes 0, by decide +kernel⟩,
    ⟨((fun s : State => { s with met.battery := 0 }) site).srf .pwr .A 8 31 29 4, true, by decide +kernel⟩,
    ⟨(fun s : State => { s with met.battery := 1 }) site, true, by decide +kernel⟩,
    ⟨(fun s : State => { s with met.battery := 1 }) ((fun s : State => { s with rtc := s.met.battStart + 3600 * 32768 * fld (s.metw 0x704) 7 0 }) site), true, by decide +kernel⟩,
    ⟨(fun s : State => { s with met.battery := 2 }) site, true, by decide +kernel⟩,
    ⟨sMetrologyChecks22, 0, 0, look {} sMetrologyChecks22.met.tamp 0, by decide +kernel⟩,
    ⟨State.reset, 0, by decide +kernel⟩,
    ⟨(fun s : State => (s).srf .met .A (if 0 < 0x30 then 0x10 * 0 else 0x500 + 0x10 * (0 - 0x40)) 31 31 (Bool.toNat (false))) (site.srf .mbx Half.A 0 18 16 0), { half := Half.A, ring := 28, ctag := 1, hb := 0 }, Half.A, 0, 0, by unfold RunsAt; decide +kernel⟩,
    ⟨(fun s : State => (s).srf .met .A (if 0 < 0x30 then 0x10 * 0 else 0x500 + 0x10 * (0 - 0x40)) 31 31 (Bool.toNat (true))) (site.srf .mbx Half.A 0 18 16 0), { half := Half.A, ring := 28, ctag := 1, hb := 0 }, Half.A, 0, 0, by unfold RunsAt Room; decide +kernel⟩,
    ⟨site.srf .mbx Half.A 0 18 16 0, { half := Half.A, ring := 28, ctag := 1, hb := 0 }, Half.A, 0, 0, 1, by unfold RunsAt Room; decide +kernel⟩,
    ⟨site.srf .mbx Half.A 0 18 16 1, { half := Half.A, ring := 28, ctag := 1, hb := 0 }, Half.A, 1, 0, 1, by unfold RunsAt Room; decide +kernel⟩,
    ⟨site.srf .mbx Half.A 0 18 16 rPublic, { half := Half.A, ring := 28, ctag := 1, hb := 0 }, Half.A, 1, 0, 1, by unfold RunsAt; decide +kernel⟩,
    ⟨site.srf .mbx Half.A 0 18 16 0, { half := Half.A, ring := 28, ctag := 1, hb := 0 }, Half.A, 0, 0, 0, 0, by unfold RunsAt; decide +kernel⟩,
    ⟨site.srf .mbx Half.A 0 18 16 1, { half := Half.A, ring := 28, ctag := 1, hb := 0 }, Half.A, 1, 0, by unfold RunsAt; decide +kernel⟩,
    ⟨site.srf .mbx Half.A 0 18 16 0, { half := Half.A, ring := 28, ctag := 1, hb := 0 }, Half.A, 0, 0, by unfold RunsAt; decide +kernel⟩⟩

def Sys2Proof.Tests.sIntervalsPeriodsAndTariffs0 : State := (tickSite 1940000).srf .met .A 0x500 31 31 1
def Sys2Proof.Tests.sIntervalsPeriodsAndTariffs24 : State := (site.mTck .A fun z' => { z' with tick := 100000 + 0 }).srg .cnp .A 0 0x40000000

/-- Every hypothesis of IntervalsPeriodsAndTariffs is met, clause by clause. -/
theorem Sys2Proof.Tests.witness_IntervalsPeriodsAndTariffs :
    (∃ (s : State) (i : Nat) (d : Nat) (el : Nat) (fl : Nat) (x : IntervalS), i < 2 ∧ s.now % 20000 = 0 ∧ s.demandDue i s.utc = true ∧ x = look {} s.bil.core.ints i ∧ el = x.ticks / 20000 ∧ d = x.energy * 36 / (10 * max s.tariff.len el) ∧ fl = b2n x.incomplete + 2 * b2n x.step + 4 * b2n x.err) ∧
    (∃ (s : State) (i : Nat), (2 ≤ i ∨ s.now % 20000 ≠ 0 ∨ s.bil.unknown = true ∨ s.utc ≤ look 0 s.bil.core.lastDem i)) ∧
    (∃ (s : State), s.now % 20000 = 0 ∧ s.closeDue s.utc = true ∧ (∀ i < 2, s.demandDue i s.utc = false)) ∧
    (∃ (s : State) (i : Nat), s.now % 20000 = 0 ∧ s.closeDue s.utc = true ∧ i < 2 ∧ s.demandDue i s.utc = true) ∧
    (∃ (s : State), (s.now % 20000 ≠ 0 ∨ (s.closeDue s.utc = false ∧ (∀ i < 2, s.demandDue i s.utc = false)))) ∧
    (∃ (s : State) (o : Org) (x : Half) (r : Nat), RunsAt s o 0x0B04 x r ∧ r ∈ [rOperator, rBilling] ∧ s.bil.unknown = false ∧ ((∀ l, s.bil.lastClose = some l → l + 60 ≤ s.utc))) ∧
    (∃ (s : State) (o : Org) (x : Half) (r : Nat) (l : Int), RunsAt s o 0x0B04 x r ∧ r ∈ [rOperator, rBilling] ∧ s.bil.unknown = false ∧ s.bil.lastClose = some l ∧ s.utc < l + 60) ∧
    (∃ (s : State) (o : Org) (x : Half) (r : Nat), RunsAt s o 0x0B04 x r ∧ r ∈ [rOperator, rBilling] ∧ s.bil.unknown = true) ∧
    (∃ (s : State) (p : Tariff), s.bil.passive = some p ∧ s.bil.unknown = false ∧ s.now % 20000 = 0 ∧ (p.act : Int) ≤ s.utc ∧ (∀ i < 2, s.demandDue i s.utc = false) ∧ s.closeDue s.utc = false) ∧
    (∃ (s : State), (s.now % 20000 ≠ 0 ∨ s.bil.unknown = true ∨ (s.bil.passive = none ∧ (∀ i < 2, s.demandDue i s.utc = false) ∧ s.closeDue s.utc = false))) ∧
    (∃ (s : State), (s.now % 20000 ≠ 0 ∨ s.bil.unknown = true ∨ (s.bil.passive = none ∧ (∀ i < 2, s.demandDue i s.utc = false) ∧ s.closeDue s.utc = false))) ∧
    (∃ (s : State), s.now % 20000 = 0 ∧ (s.bil.unknown = true ∨ (s.bil.passive = none ∧ (∀ i < 2, s.demandDue i s.utc = false) ∧ s.closeDue s.utc = false))) ∧
    (∃ (s : State) (b : Bool), s.rb .pwr .A 0 9 = false ∧ s.rb .pwr .A 0 8 = false ∧ ((b = true → s.pwr.vhSwitch = true))) ∧
    (∃ (s : State) (a : BilSave) (b : BilSave), s.bil.starting = true ∧ s.bil.bank0 = some a ∧ s.bil.bank1 = some b ∧ a.seq < b.seq ∧ b.pf = true) ∧
    (∃ (s : State) (a : BilSave) (b : BilSave), s.bil.starting = true ∧ s.bil.bank0 = some a ∧ s.bil.bank1 = some b ∧ a.seq < b.seq ∧ a.pf = true) ∧
    (∃ (s : State) (b : BilSave) (k : Nat) (a : SessAcct), s.bil.starting = true ∧ s.bil.bank0 = some b ∧ b.pf = false ∧ b.active = [k] ∧ k < 48 ∧ look none b.core.sess k = some a) ∧
    (∃ (s : State) (time : Bool), s.bil.starting = true ∧ (s.bil.bank0 ≠ none ∨ s.bil.bank1 ≠ none)) ∧
    (∃ (s : State) (a : Bool) (b : Bool) (time : Bool), s.bil.starting = true ∧ s.bil.bank0 = none ∧ s.bil.bank1 = none) ∧
    (∃ (s : State) (a : Bool) (b : Bool) (time : Bool), s.bil.starting = false) ∧
    (∃ (s : State), s.bil.unknown = false) ∧
    (∃ (s : State) (i : Nat), s.bil.unknown = false ∧ 0 < s.bil.core.lastUtc ∧ s.bil.core.lastUtc % 60 = 0 ∧ s.utc = s.bil.core.lastUtc + 60 ∧ i < 2 ∧ s.demandDue i s.utc = true ∧ s.closeDue s.utc = false ∧ s.bil.passive = none) ∧
    (∃ (s : State), s.bil.unknown = true) ∧
    (∃ (s : State) (h : Half) (i : Nat) (n : Nat) (lim : Int) (cap : Int) (left : Int), i < 2 ∧ s.now % 20 = 0 ∧ s.charge = some h ∧ (List.range 1024).find? (fun n => s.rf .cnp h (0x10 * n) 31 29 == 2 && s.rf .cnp h (0x10 * n) 7 0 == i) = some n ∧ lim = ((s.rg .cnp h (0x10 * n + 4)).toNat : Int) ∧ left = (s.utc + s.tariff.len) / s.tariff.len * s.tariff.len - s.utc ∧ cap = (if s.tariff.target i = 0 then lim else min lim (max (s.fallbackCap h i) ((s.tariff.target i * s.tariff.len * 10 - ((look {} s.bil.core.ints i).energy * 36 : Int)) / (max left 10 * 10))))) ∧
    (∃ (s : State) (i : Nat), (2 ≤ i ∨ s.now % 20 ≠ 0)) :=
   ⟨⟨sIntervalsPeriodsAndTariffs0, 0, (look {} sIntervalsPeriodsAndTariffs0.bil.core.ints 0 : IntervalS).energy * 36 / (10 * max sIntervalsPeriodsAndTariffs0.tariff.len ((look {} sIntervalsPeriodsAndTariffs0.bil.core.ints 0 : IntervalS).ticks / 20000 : Nat)), (look {} sIntervalsPeriodsAndTariffs0.bil.core.ints 0 : IntervalS).ticks / 20000, b2n (look {} sIntervalsPeriodsAndTariffs0.bil.core.ints 0 : IntervalS).incomplete + 2 * b2n (look {} sIntervalsPeriodsAndTariffs0.bil.core.ints 0 : IntervalS).step + 4 * b2n (look {} sIntervalsPeriodsAndTariffs0.bil.core.ints 0 : IntervalS).err, look {} sIntervalsPeriodsAndTariffs0.bil.core.ints 0, by decide +kernel⟩,
    ⟨site.mTck .A fun z' => { z' with tick := 100000 + 1 }, 0, by decide +kernel⟩,
    ⟨(fun s : State => { s with bil := { s.bil with tariff := closeTariff } }) (tickSite 1940000), by decide +kernel⟩,
    ⟨(fun s : State => ({ s with bil := { s.bil with tariff := closeTariff } }).srf .met .A 0x500 31 31 1) (tickSite 1940000), 0, by decide +kernel⟩,
    ⟨site.mTck .A fun z' => { z' with tick := 100000 + 1 }, by decide +kernel⟩,
    ⟨(fun s : State => { s with bil.unknown := false }) (site.srf .mbx Half.A 0 18 16 1), { half := Half.A, ring := 28, ctag := 1, hb := 0 }, Half.A, 1, by unfold RunsAt; decide +kernel, by decide +kernel, by decide +kernel, all_some (by decide +kernel)⟩,
    ⟨(fun s : State => { s with bil.lastClose := some 0 }) ((fun s : State => { s with bil.unknown := false }) (site.srf .mbx Half.A 0 18 16 1)), { half := Half.A, ring := 28, ctag := 1, hb := 0 }, Half.A, 1, 0, by unfold RunsAt; decide +kernel⟩,
    ⟨(fun s : State => { s with bil.unknown := true }) (site.srf .mbx Half.A 0 18 16 1), { half := Half.A, ring := 28, ctag := 1, hb := 0 }, Half.A, 1, by unfold RunsAt; decide +kernel⟩,
    ⟨(fun s : State => { s with bil.passive := some [] }) (tickSite 1940000), [], by decide +kernel⟩,
    ⟨site.mTck .A fun z' => { z' with tick := 100000 + 1 }, by decide +kernel⟩,
    ⟨site.mTck .A fun z' => { z' with tick := 100000 + 1 }, by decide +kernel⟩,
    ⟨((fun s : State => { s with bil.unknown := true }) site).mTck .A fun z' => { z' with tick := 100000 + 0 }, by decide +kernel⟩,
    ⟨(site.srf .pwr .A 0 9 9 (Bool.toNat (false))).srf .pwr .A 0 8 8 (Bool.toNat (false)), false, by decide +kernel⟩,
    ⟨(fun s : State => { s with bil.bank1 := some ({ seq := 2, pf := true } : BilSave) }) ((fun s : State => { s with bil.bank0 := some ({ seq := 1 } : BilSave) }) ((fun s : State => { s with bil.starting := true }) site)), { seq := 1 }, { seq := 2, pf := true }, by decide +kernel⟩,
    ⟨(fun s : State => { s with bil.bank1 := some ({ seq := 2 } : BilSave) }) ((fun s : State => { s with bil.bank0 := some ({ seq := 1, pf := true } : BilSave) }) ((fun s : State => { s with bil.starting := true }) site)), { seq := 1, pf := true }, { seq := 2 }, by decide +kernel⟩,
    ⟨(fun s : State => { s with bil.bank0 := some ({ active := [0], core := { sess := [(0, some {})] } } : BilSave) }) ((fun s : State => { s with bil.starting := true }) site), { active := [0], core := { sess := [(0, some {})] } }, 0, {}, by decide +kernel⟩,
    ⟨(fun s : State => { s with bil.bank0 := some {} }) ((fun s : State => { s with bil.starting := true }) site), true, by decide +kernel⟩,
    ⟨(fun s : State => { s with bil.bank1 := none }) ((fun s : State => { s with bil.bank0 := none }) ((fun s : State => { s with bil.starting := true }) site)), true, true, true, by decide +kernel⟩,
    ⟨(fun s : State => { s with bil.starting := false }) site, true, true, true, by decide +kernel⟩,
    ⟨(fun s : State => { s with bil.unknown := false }) site, by decide +kernel⟩,
    ⟨(fun s : State => ({ s with bil.core.lastUtc := 60 }).srf .met .A 0x500 31 31 1) (tickSite 3140000), 0, by decide +kernel⟩,
    ⟨(fun s : State => { s with bil.unknown := true }) site, by decide +kernel⟩,
    ⟨sIntervalsPeriodsAndTariffs24, .A, 0, 0, ((sIntervalsPeriodsAndTariffs24.rg .cnp (.A : Half) (0x10 * 0 + 4)).toNat : Int), (if sIntervalsPeriodsAndTariffs24.tariff.target 0 = 0 then (((sIntervalsPeriodsAndTariffs24.rg .cnp (.A : Half) (0x10 * 0 + 4)).toNat : Int) : Int) else min (((sIntervalsPeriodsAndTariffs24.rg .cnp (.A : Half) (0x10 * 0 + 4)).toNat : Int) : Int) (max (sIntervalsPeriodsAndTariffs24.fallbackCap (.A : Half) 0) ((sIntervalsPeriodsAndTariffs24.tariff.target 0 * sIntervalsPeriodsAndTariffs24.tariff.len * 10 - ((look {} sIntervalsPeriodsAndTariffs24.bil.core.ints 0).energy * 36 : Int)) / (max ((sIntervalsPeriodsAndTariffs24.utc + sIntervalsPeriodsAndTariffs24.tariff.len) / sIntervalsPeriodsAndTariffs24.tariff.len * sIntervalsPeriodsAndTariffs24.tariff.len - sIntervalsPeriodsAndTariffs24.utc : Int) 10 * 10)))), (sIntervalsPeriodsAndTariffs24.utc + sIntervalsPeriodsAndTariffs24.tariff.len) / sIntervalsPeriodsAndTariffs24.tariff.len * sIntervalsPeriodsAndTariffs24.tariff.len - sIntervalsPeriodsAndTariffs24.utc, by decide +kernel⟩,
    ⟨site.mTck .A fun z' => { z' with tick := 100000 + 1 }, 0, by decide +kernel⟩⟩

def Sys2Proof.Tests.sTokensRecordsAndBillingVerbs16 : State := (fun s : State => { s with bil.kseq := [] }) ((((fun s : State => { s with bil.core.sess := Machine.put none s.bil.core.sess 0 (some ({} : SessAcct)) }) ((fun s : State => (s).srf .veh .A (0x10 * 0) (25 - 4) (25 - 4) (Bool.toNat (true))) (((((fun s : State => { s with bil.kseq := Machine.upd (0, 0) s.bil.kseq 0 (fun y' => { y' with 1 := 1 }) }) site).srf .nlk (.A : Half) ((0 + 32) * 0x40) 30 30 (Bool.toNat (true))).srf .bil .A 0 30 30 (Bool.toNat (true))).mVeh 0 fun z' => { z' with c.st := 3 }))).mPort .A 32 fun z => { z with rx := [(0x43, { done := [kmsg (tokD 63 5 1)] })] }).withTok)
def Sys2Proof.Tests.sTokensRecordsAndBillingVerbs18 : State := (site.srf .nlk (.A : Half) (0 * 0x40) 30 30 (Bool.toNat (false))).mPort .A 0 fun z => { z with rx := [(0x43, { done := [[6]] })] }
def Sys2Proof.Tests.sTokensRecordsAndBillingVerbs34 : State := site.srf .mbx Half.A 0 18 16 1
def Sys2Proof.Tests.sTokensRecordsAndBillingVerbs36 : State := (fun s : State => { s with bil.ledger := [(0, [1])] }) (site.srf .mbx Half.A 0 18 16 1)

/-- Every hypothesis of TokensRecordsAndBillingVerbs is met, clause by clause. -/
theorem Sys2Proof.Tests.witness_TokensRecordsAndBillingVerbs :
    (∃ (s : State) (k : Nat) (g : List Nat) (a : SessAcct), look none s.bil.core.sess k = some a ∧ (s.veh1 k).c.st = 10 ∧ s.bil.held = [] ∧ s.signerOk (pqRecord (s.lomvorBody k a)) = true) ∧
    (∃ (s : State) (k : Nat) (g : List Nat) (a : SessAcct), look none s.bil.core.sess k = some a ∧ (s.veh1 k).c.st = 10 ∧ (s.bil.held ≠ [] ∨ s.signerOk (pqRecord (s.lomvorBody k a)) = false)) ∧
    (∃ (s : State) (k : Nat) (g : List Nat), (look none s.bil.core.sess k = none ∨ ((s.veh1 k).c.st ≠ 10 ∧ (s.veh1 k).c.st ≠ 0))) ∧
    (∃ (s : State), s.bil.ldsp.since + 20000 * s.rf .bil .A 0 23 16 ≤ s.now ∧ s.bil.ldsp.hold ≤ s.now) ∧
    (∃ (s : State), (s.now < s.bil.ldsp.since + 20000 * s.rf .bil .A 0 23 16 ∨ s.now < s.bil.ldsp.hold)) ∧
    (∃ (s : State) (n : Nat), s.bil.ldsp.entry = some n) ∧
    (∃ (s : State) (k : Nat) (sc : Nat) (q : Nat) (cr : Nat) (d : List Nat) (a : SessAcct), s.bil.ldsp.entry.any (fun e => decide (s.now < e + 1200000)) = true ∧ s.rb .bil .A 0 30 = true ∧ k < 48 ∧ tokenFields d = some (sc, q, cr) ∧ (look {} s.bil.keypads 0x80).until_ ≤ s.now ∧ s.tokenMac d = true ∧ (sc = 0x3F ∨ sc = k) ∧ ((∀ h, s.bil.high = some h → h < q + 1024)) ∧ q ∉ s.bil.spent ∧ (s.veh1 k).c.st = 3 ∧ s.pathOn k 4 = true ∧ look none s.bil.core.sess k = some a) ∧
    (∃ (s : State) (k : Nat) (sc : Nat) (q : Nat) (cr : Nat) (d : List Nat), s.bil.ldsp.entry.any (fun e => decide (s.now < e + 1200000)) = true ∧ s.rb .bil .A 0 30 = true ∧ k < 48 ∧ tokenFields d = some (sc, q, cr) ∧ (look {} s.bil.keypads 0x80).until_ ≤ s.now ∧ s.tokenMac d = false ∧ (look {} s.bil.keypads 0x80).fails = []) ∧
    (∃ (s : State) (k : Nat) (sc : Nat) (q : Nat) (cr : Nat) (d : List Nat), s.bil.ldsp.entry.any (fun e => decide (s.now < e + 1200000)) = true ∧ s.rb .bil .A 0 30 = true ∧ k < 48 ∧ tokenFields d = some (sc, q, cr) ∧ (look {} s.bil.keypads 0x80).until_ ≤ s.now ∧ sc ≠ 0x3F ∧ sc ≠ k ∧ s.tokenMac d = true ∧ (look {} s.bil.keypads 0x80).fails = []) ∧
    (∃ (s : State) (k : Nat) (sc : Nat) (q : Nat) (cr : Nat) (hi : Nat) (d : List Nat), s.bil.ldsp.entry.any (fun e => decide (s.now < e + 1200000)) = true ∧ s.rb .bil .A 0 30 = true ∧ k < 48 ∧ tokenFields d = some (sc, q, cr) ∧ (look {} s.bil.keypads 0x80).until_ ≤ s.now ∧ sc = 0x3F ∧ s.tokenMac d = true ∧ s.bil.high = some hi ∧ q + 1024 ≤ hi ∧ (look {} s.bil.keypads 0x80).fails = []) ∧
    (∃ (s : State) (k : Nat) (sc : Nat) (q : Nat) (cr : Nat) (d : List Nat), s.bil.ldsp.entry.any (fun e => decide (s.now < e + 1200000)) = true ∧ s.rb .bil .A 0 30 = true ∧ k < 48 ∧ tokenFields d = some (sc, q, cr) ∧ (look {} s.bil.keypads 0x80).until_ ≤ s.now ∧ sc = 0x3F ∧ s.tokenMac d = true ∧ s.bil.high = some q ∧ q ∈ s.bil.spent ∧ (look {} s.bil.keypads 0x80).fails = []) ∧
    (∃ (s : State) (k : Nat) (sc : Nat) (q : Nat) (cr : Nat) (d : List Nat), s.bil.ldsp.entry.any (fun e => decide (s.now < e + 1200000)) = true ∧ s.rb .bil .A 0 30 = true ∧ k < 48 ∧ tokenFields d = some (sc, q, cr) ∧ (look {} s.bil.keypads 0x80).until_ ≤ s.now ∧ sc = 0x3F ∧ s.tokenMac d = true ∧ s.bil.high = none ∧ q ∉ s.bil.spent ∧ s.tokenSession k = false ∧ (look {} s.bil.keypads 0x80).fails = []) ∧
    (∃ (s : State) (k : Nat) (d : List Nat), s.bil.ldsp.entry.any (fun e => decide (s.now < e + 1200000)) = true ∧ s.rb .bil .A 0 30 = true ∧ k < 48 ∧ tokenFields d = none ∧ (look {} s.bil.keypads 0x80).until_ ≤ s.now ∧ (∀ n ∈ (look {} s.bil.keypads 0x80).fails, s.now < n + 12000000) ∧ 4 ≤ (look {} s.bil.keypads 0x80).fails.length) ∧
    (∃ (s : State) (k : Nat) (d : List Nat), s.bil.ldsp.entry.any (fun e => decide (s.now < e + 1200000)) = true ∧ s.rb .bil .A 0 30 = true ∧ k < 48 ∧ s.now < (look {} s.bil.keypads 0x80).until_) ∧
    (∃ (s : State) (k : Nat) (d : List Nat), (s.bil.ldsp.entry.any (fun e => decide (s.now < e + 1200000)) = false ∨ s.rb .bil .A 0 30 = false ∨ 48 ≤ k)) ∧
    (∃ (s : State) (s1 : State) (h : Half) (k : Nat) (sc : Nat) (q : Nat) (cr : Nat) (m : List Nat) (d : List Nat) (a : SessAcct), k < 48 ∧ s.takeMsg h (k + 32) 0x43 (fun m => m.headD 0 == 6) = some (m, s1) ∧ d = ((bytesAt m 4 20).map fun c => if c < 48 then 10 else c - 48) ∧ s.rb .nlk h ((k + 32) * 0x40) 30 = true ∧ s.rb .bil .A 0 30 = true ∧ ((look (0, 0) s.bil.kseq k).1 ≠ numAt m 2 2 + 1 ∨ (look (0, 0) s.bil.kseq k).2 + 200000 ≤ s.now) ∧ tokenFields d = some (sc, q, cr) ∧ (look {} s.bil.keypads k).until_ ≤ s.now ∧ s.tokenMac d = true ∧ (sc = 0x3F ∨ sc = k) ∧ ((∀ h, s.bil.high = some h → h < q + 1024)) ∧ q ∉ s.bil.spent ∧ (s.veh1 k).c.st = 3 ∧ s.pathOn k 4 = true ∧ look none s.bil.core.sess k = some a) ∧
    (∃ (s : State) (h : Half) (p : Nat), s.takeMsg h p 0x43 (fun m => m.headD 0 == 6) = none) ∧
    (∃ (s : State) (s1 : State) (h : Half) (p : Nat) (m : List Nat), s.takeMsg h p 0x43 (fun m => m.headD 0 == 6) = some (m, s1) ∧ (p < 32 ∨ 80 ≤ p ∨ s.rb .nlk h (p * 0x40) 30 = false ∨ s.rb .bil .A 0 30 = false ∨ ((look (0, 0) s.bil.kseq (p - 32)).1 = numAt m 2 2 + 1 ∧ s.now < (look (0, 0) s.bil.kseq (p - 32)).2 + 200000))) ∧
    (∃ (s : State) (n : Nat), (look {} s.bil.keypads n).until_ ≤ s.now) ∧
    (∃ (s : State) (n : Nat), s.now < (look {} s.bil.keypads n).until_) ∧
    (∃ (s : State) (k : Nat) (a : SessAcct), look none s.bil.core.sess k = some a ∧ (s.veh1 k).c.granted = 4 ∧ s.now % 20 = 0 ∧ s.creditOf k a ≤ 0 ∧ (s.veh1 k).c.st = 7 ∧ (s.veh1 k).c.told = none ∧ (s.veh1 k).c.reason = 0) ∧
    (∃ (s : State) (h : Half) (k : Nat) (a : SessAcct), look none s.bil.core.sess k = some a ∧ (s.veh1 k).c.granted = 4 ∧ s.now % 20 = 0 ∧ s.charge = some h ∧ 0 < s.outVolt h k ∧ 10000 * s.outVolt h k ≤ s.creditOf k a * 30000 ∧ 0 < s.creditOf k a) ∧
    (∃ (s : State) (k : Nat), (look none s.bil.core.sess k = none ∨ (s.veh1 k).c.granted ≠ 4)) ∧
    (∃ (s : State) (o : Org) (x : Half) (r : Nat) (src : Nat) (q : Nat), RunsAt s o 0x0B01 x r ∧ r ∈ rAny) ∧
    (∃ (s : State) (o : Org) (x : Half) (r : Nat) (src : Nat) (q : Nat), RunsAt s o 0x0B01 x r ∧ r ∈ rAny ∧ s.srcEn src = true ∧ q ∈ qtysOf src ∧ Room s o 152) ∧
    (∃ (s : State) (o : Org) (x : Half) (r : Nat) (b : List Nat), RunsAt s o 0x0B02 x r ∧ r ∈ [rOperator, rInstaller] ∧ s.bil.unknown = false ∧ Tariff.ok b s.utc = true ∧ s.flashFull x 1152 = false) ∧
    (∃ (s : State) (o : Org) (x : Half) (r : Nat) (b : List Nat), RunsAt s o 0x0B02 x r ∧ r ∈ [rOperator, rInstaller] ∧ s.bil.unknown = false ∧ Tariff.ok b s.utc = false) ∧
    (∃ (s : State) (o : Org) (x : Half) (r : Nat) (n : Nat), RunsAt s o 0x0B03 x r ∧ r ∈ [rOperator, rBilling, rInstaller, rLegal]) ∧
    (∃ (s : State) (o : Org) (x : Half) (r : Nat), RunsAt s o 0x0B03 x r ∧ r ∈ [rOperator, rBilling, rInstaller, rLegal] ∧ Room s o (padTo 752 s.bil.tariff).length) ∧
    (∃ (s : State) (o : Org) (x : Half) (r : Nat) (p : Tariff), RunsAt s o 0x0B03 x r ∧ r ∈ [rOperator, rBilling, rInstaller, rLegal] ∧ s.bil.passive = some p ∧ Room s o (padTo 752 p).length) ∧
    (∃ (s : State) (o : Org) (x : Half) (r : Nat) (n : Nat), RunsAt s o 0x0b05 x r ∧ r ∈ [rOperator, rBilling, rLegal]) ∧
    (∃ (s : State) (o : Org) (x : Half) (r : Nat) (n : Nat), RunsAt s o 0x0b07 x r ∧ r ∈ [rOperator, rBilling, rLegal]) ∧
    (∃ (s : State) (o : Org) (x : Half) (r : Nat) (i : Nat) (n : Nat) (f : Int), RunsAt s o 0x0B06 x r ∧ r ∈ [rOperator, rBilling, rInstaller, rLegal]) ∧
    (∃ (s : State) (o : Org) (x : Half) (r : Nat) (i : Nat) (n : Nat) (f : Int) (l : List (Int × List Nat)), RunsAt s o 0x0B06 x r ∧ r ∈ [rOperator, rBilling, rInstaller, rLegal] ∧ i < 2 ∧ 0 < n ∧ n ≤ 1024 ∧ l = ((if i = 0 then s.bil.recs0 else s.bil.recs1).filter fun e => decide (f ≤ e.1)).take n) ∧
    (∃ (s : State) (o : Org) (x : Half) (r : Nat) (f : Nat) (n : Nat), RunsAt s o 0x0B08 x r ∧ r ∈ [rOperator, rBilling, rLegal]) ∧
    (∃ (s : State) (o : Org) (x : Half) (r : Nat) (f : Nat) (n : Nat) (l : List (Nat × List Nat)), RunsAt s o 0x0B08 x r ∧ r ∈ [rOperator, rBilling, rLegal] ∧ 0 < n ∧ n ≤ 256 ∧ l = (s.bil.ledger.filter fun e => decide (f ≤ e.1)).take n ∧ l ≠ [] ∧ Room s o (l.flatMap (·.2)).length) ∧
    (∃ (s : State) (o : Org) (x : Half) (n : Nat), RunsAt s o 0x0B05 x rPublic) :=
   ⟨⟨(((fun s : State => { s with bil.held := [] }) (((fun s : State => { s with bil.core.sess := Machine.put none s.bil.core.sess 0 (some ({  } : SessAcct)) }) site).mVeh 0 fun z' => { z' with c.st := 10 })).withKey { handle := 0x4010, typ := 0x10, dom := 2, eng := 0x200, use := 4 }).srg .lkt .A 8 0x4010, 0, [], {  }, by decide +kernel⟩,
    ⟨((fun s : State => { s with bil.core.sess := Machine.put none s.bil.core.sess 0 (some ({  } : SessAcct)) }) site).mVeh 0 fun z' => { z' with c.st := 10 }, 0, [], {  }, by decide +kernel⟩,
    ⟨(fun s : State => { s with bil.core.sess := Machine.put none s.bil.core.sess 0 (none) }) site, 0, [], by decide +kernel⟩,
    ⟨site, by decide +kernel⟩,
    ⟨(fun s : State => { s with bil.ldsp.hold := s.now + 1 }) site, by decide +kernel⟩,
    ⟨(fun s : State => { s with bil.ldsp.entry := some 0 }) site, 0, by decide +kernel⟩,
    ⟨(fun s : State => ({ s with bil.ldsp.entry := some 99999 }).withTok) ((fun s : State => { s with bil.core.sess := Machine.put none s.bil.core.sess 0 (some ({  } : SessAcct)) }) ((fun s : State => (s).srf .veh .A (0x10 * 0) (25 - 4) (25 - 4) (Bool.toNat (true))) ((site.srf .bil .A 0 30 30 (Bool.toNat (true))).mVeh 0 fun z' => { z' with c.st := 3 }))), 0, 0x3F, 5, 100000, tokD 63 5 1, {  }, by decide +kernel, by decide +kernel, by decide +kernel, by decide +kernel, by decide +kernel, by decide +kernel, by decide +kernel, all_some (by decide +kernel), by decide +kernel⟩,
    ⟨(fun s : State => { s with bil.ldsp.entry := some 99999 }) ((fun s : State => { s with bil.keypads := Machine.upd {} s.bil.keypads 0x80 (fun y' => { y' with fails := [] }) }) (site.srf .bil .A 0 30 30 (Bool.toNat (true)))), 0, 0x3F, 5, 100000, tokD 63 5 1, by decide +kernel⟩,
    ⟨(fun s : State => ({ s with bil.ldsp.entry := some 99999 }).withTok) ((fun s : State => { s with bil.keypads := Machine.upd {} s.bil.keypads 0x80 (fun y' => { y' with fails := [] }) }) (site.srf .bil .A 0 30 30 (Bool.toNat (true)))), 0, 1, 5, 100000, tokD 1 5 1, by decide +kernel⟩,
    ⟨(fun s : State => ({ s with bil.ldsp.entry := some 99999, bil.high := some 1029 }).withTok) ((fun s : State => { s with bil.keypads := Machine.upd {} s.bil.keypads 0x80 (fun y' => { y' with fails := [] }) }) ((fun s : State => { s with bil.high := some 1029 }) (site.srf .bil .A 0 30 30 (Bool.toNat (true))))), 0, 0x3F, 5, 100000, 1029, tokD 63 5 1, by decide +kernel⟩,
    ⟨(fun s : State => ({ s with bil.ldsp.entry := some 99999, bil.high := some 5, bil.spent := [5] }).withTok) ((fun s : State => { s with bil.keypads := Machine.upd {} s.bil.keypads 0x80 (fun y' => { y' with fails := [] }) }) ((fun s : State => { s with bil.spent := [5] }) ((fun s : State => { s with bil.high := some 5 }) (site.srf .bil .A 0 30 30 (Bool.toNat (true)))))), 0, 0x3F, 5, 100000, tokD 63 5 1, by decide +kernel⟩,
    ⟨(fun s : State => ({ s with bil.ldsp.entry := some 99999 }).withTok) ((fun s : State => { s with bil.keypads := Machine.upd {} s.bil.keypads 0x80 (fun y' => { y' with fails := [] }) }) ((fun s : State => { s with bil.high := none }) (site.srf .bil .A 0 30 30 (Bool.toNat (true))))), 0, 0x3F, 5, 100000, tokD 63 5 1, by decide +kernel⟩,
    ⟨(fun s : State => { s with bil.ldsp.entry := some 99999, bil.keypads := [(0x80, { fails := [1, 2, 3, 4] })] }) (site.srf .bil .A 0 30 30 (Bool.toNat (true))), 0, [], by decide +kernel⟩,
    ⟨(fun s : State => { s with bil.ldsp.entry := some 99999 }) (((fun s : State => { s with bil.keypads := Machine.upd {} s.bil.keypads 0x80 (fun y' => { y' with until_ := s.now + 1 }) }) site).srf .bil .A 0 30 30 (Bool.toNat (true))), 0, [], by decide +kernel⟩,
    ⟨site.srf .bil .A 0 30 30 (Bool.toNat (false)), 0, [], by decide +kernel⟩,
    ⟨sTokensRecordsAndBillingVerbs16, ((sTokensRecordsAndBillingVerbs16.takeMsg .A 32 0x43 fun m => m.headD 0 == 6).getD ([], sTokensRecordsAndBillingVerbs16)).2, .A, 0, 0x3F, 5, 100000, kmsg (tokD 63 5 1), tokD 63 5 1, {}, by decide +kernel, by decide +kernel, by decide +kernel, by decide +kernel, by decide +kernel, by decide +kernel, by decide +kernel, by decide +kernel, by decide +kernel, by decide +kernel, all_some (by decide +kernel), by decide +kernel⟩,
    ⟨site, Half.A, 0, by decide +kernel⟩,
    ⟨sTokensRecordsAndBillingVerbs18, ((sTokensRecordsAndBillingVerbs18.takeMsg .A 0 0x43 fun m => m.headD 0 == 6).getD ([], sTokensRecordsAndBillingVerbs18)).2, .A, 0, [6], by decide +kernel⟩,
    ⟨site, 0, by decide +kernel⟩,
    ⟨(fun s : State => { s with bil.keypads := Machine.upd {} s.bil.keypads 0 (fun y' => { y' with until_ := s.now + 1 }) }) site, 0, by decide +kernel⟩,
    ⟨((((((fun s : State => { s with bil.core.sess := Machine.put none s.bil.core.sess 0 (some ({  } : SessAcct)) }) site).mVeh 0 fun z' => { z' with c.granted := 4 }).mTck .A fun z' => { z' with tick := 100000 + 0 }).mVeh 0 fun z' => { z' with c.st := 7 }).mVeh 0 fun z' => { z' with c.told := none }).mVeh 0 fun z' => { z' with c.reason := 0 }, 0, {  }, by decide +kernel⟩,
    ⟨(((fun s : State => { s with bil.core.sess := Machine.put none s.bil.core.sess 0 (some ({ grants := [(100000000, 0)] } : SessAcct)) }) site).mVeh 0 fun z' => { z' with c.granted := 4 }).mTck .A fun z' => { z' with tick := 100000 + 0 }, Half.A, 0, { grants := [(100000000, 0)] }, by decide +kernel⟩,
    ⟨(fun s : State => { s with bil.core.sess := Machine.put none s.bil.core.sess 0 (none) }) site, 0, by decide +kernel⟩,
    ⟨site.srf .mbx Half.A 0 18 16 0, { half := Half.A, ring := 28, ctag := 1, hb := 0 }, Half.A, 0, 0, 0, by unfold RunsAt; decide +kernel⟩,
    ⟨(fun s : State => (s).srf .met .A (if 0 < 0x30 then 0x10 * 0 else 0x500 + 0x10 * (0 - 0x40)) 31 31 (Bool.toNat (true))) (site.srf .mbx Half.A 0 18 16 0), { half := Half.A, ring := 28, ctag := 1, hb := 0 }, Half.A, 0, 0, 1, by unfold RunsAt Room; decide +kernel⟩,
    ⟨(fun s : State => { s with bil.unknown := false }) (site.srf .mbx Half.A 0 18 16 1), { half := Half.A, ring := 28, ctag := 1, hb := 0 }, Half.A, 1, okTariff, by unfold RunsAt; decide +kernel⟩,
    ⟨(fun s : State => { s with bil.unknown := false }) (site.srf .mbx Half.A 0 18 16 1), { half := Half.A, ring := 28, ctag := 1, hb := 0 }, Half.A, 1, [], by unfold RunsAt; decide +kernel⟩,
    ⟨site.srf .mbx Half.A 0 18 16 1, { half := Half.A, ring := 28, ctag := 1, hb := 0 }, Half.A, 1, 0, by unfold RunsAt; decide +kernel⟩,
    ⟨site.srf .mbx Half.A 0 18 16 1, { half := Half.A, ring := 28, ctag := 1, hb := 0 }, Half.A, 1, by unfold RunsAt Room; decide +kernel⟩,
    ⟨(fun s : State => { s with bil.passive := some ([1, 2] : Tariff) }) (site.srf .mbx Half.A 0 18 16 1), { half := Half.A, ring := 28, ctag := 1, hb := 0 }, Half.A, 1, [1, 2], by unfold RunsAt Room; decide +kernel⟩,
    ⟨site.srf .mbx Half.A 0 18 16 1, { half := Half.A, ring := 28, ctag := 1, hb := 0 }, Half.A, 1, 0, by unfold RunsAt; decide +kernel⟩,
    ⟨site.srf .mbx Half.A 0 18 16 1, { half := Half.A, ring := 28, ctag := 1, hb := 0 }, Half.A, 1, 0, by unfold RunsAt; decide +kernel⟩,
    ⟨site.srf .mbx Half.A 0 18 16 1, { half := Half.A, ring := 28, ctag := 1, hb := 0 }, Half.A, 1, 0, 0, 0, by unfold RunsAt; decide +kernel⟩,
    ⟨sTokensRecordsAndBillingVerbs34, { half := Half.A, ring := 28, ctag := 1, hb := 0 }, Half.A, 1, 0, 1, 0, ((if 0 = 0 then sTokensRecordsAndBillingVerbs34.bil.recs0 else sTokensRecordsAndBillingVerbs34.bil.recs1).filter fun e => decide (0 ≤ e.1)).take 1, by unfold RunsAt; decide +kernel⟩,
    ⟨site.srf .mbx Half.A 0 18 16 1, { half := Half.A, ring := 28, ctag := 1, hb := 0 }, Half.A, 1, 0, 0, by unfold RunsAt; decide +kernel⟩,
    ⟨sTokensRecordsAndBillingVerbs36, { half := Half.A, ring := 28, ctag := 1, hb := 0 }, Half.A, 1, 0, 1, (sTokensRecordsAndBillingVerbs36.bil.ledger.filter fun e => decide (0 ≤ e.1)).take 1, by unfold RunsAt Room; decide +kernel⟩,
    ⟨site.srf .mbx Half.A 0 18 16 rPublic, { half := Half.A, ring := 28, ctag := 1, hb := 0 }, Half.A, 0, by unfold RunsAt; decide +kernel⟩⟩

def Sys2Proof.Tests.sKeyCreationAndUse0 : State := ((fun s : State => { s with lkt.ents := Machine.put none s.lkt.ents (keyIdx (attrEntry (keyAttr 0x4010 1 1 1 1 : List Nat)).parent) (some (matKey 3 : KeyE)) }) (site.srf .mbx (⟨.A, 28, 1, 0⟩ : Org).half 0 18 16 5)).withKey (matKey 3)
def Sys2Proof.Tests.sKeyCreationAndUse1 : State := ((fun s : State => { s with lkt.ents := Machine.put none s.lkt.ents (keyIdx 0x4010) (some (matKey 3 : KeyE)) }) ((fun s : State => { s with lkt.ents := Machine.put none s.lkt.ents (keyIdx (attrEntry (keyAttr 0x4010 1 1 1 1 : List Nat)).parent) (some (matKey 3 : KeyE)) }) (site.srf .mbx (⟨.A, 28, 1, 0⟩ : Org).half 0 18 16 5))).withKey (matKey 3)
def Sys2Proof.Tests.sKeyCreationAndUse2 : State := ((fun s : State => { s with lkt.ents := Machine.put none s.lkt.ents (keyIdx (attrEntry (keyAttr 0x4010 1 1 1 1 : List Nat)).parent) (some (matKey 3 : KeyE)) }) (site.srf .mbx (⟨.A, 28, 1, 0⟩ : Org).half 0 18 16 5)).withKey (matKey 3)
def Sys2Proof.Tests.sKeyCreationAndUse3 : State := ((fun s : State => { s with lkt.ents := Machine.put none s.lkt.ents (keyIdx (attrEntry (keyAttr 0x4010 0x10 1 4 4 : List Nat)).parent) (some (matKey 3 : KeyE)) }) (site.srf .mbx (⟨.A, 28, 1, 0⟩ : Org).half 0 18 16 5)).withKey (matKey 3)
def Sys2Proof.Tests.sKeyCreationAndUse4 : State := ((fun s : State => { s with lkt.ents := Machine.put none s.lkt.ents (keyIdx (attrEntry (keyAttr 0x4010 1 1 1 1 : List Nat)).parent) (some (matKey 0x10 : KeyE)) }) (site.srf .mbx (⟨.A, 28, 1, 0⟩ : Org).half 0 18 16 5)).withKey (matKey 0x10)
def Sys2Proof.Tests.sKeyCreationAndUse21 : State := ((fun s : State => { s with lkt.ents := Machine.put none s.lkt.ents (keyIdx 0x4010) (some ((matKey 1) : KeyE)) }) (((fun s : State => { s with bil.unknown := true }) site).srf .mbx (⟨.A, 28, 1, 0⟩ : Org).half 0 18 16 5)).withKey (matKey 1)
def Sys2Proof.Tests.slotKey (i : Nat) : KeyE := { matKey 3 with handle := 0x4000 + i }
def Sys2Proof.Tests.fullSite : State := { site.srf .mbx .A 0 18 16 5 with lkt := { site.lkt with ents := (List.range' 16 16368).map fun i => (i, some (slotKey i)) } }
theorem Sys2Proof.Tests.fullSite_keyAt (i : Nat) (h : 16 ≤ i ∧ i < 16384) : fullSite.keyAt i = some (slotKey i) := by
  have := look_map_range' none (fun i => some (slotKey i)) 16 16368 i
  rw [if_pos (by omega)] at this; exact this
theorem Sys2Proof.Tests.fullSite_keyE : fullSite.keyE 0x4010 = some (slotKey 16) := by
  have h := fullSite_keyAt 16 (by omega)
  rw [State.keyE, show keyIdx 0x4010 = 16 from rfl, h]; rfl
theorem Sys2Proof.Tests.fullSite_usable : fullSite.keyUsable 0x4010 = true := by
  rw [State.keyUsable, fullSite_keyE]; decide +kernel
theorem Sys2Proof.Tests.fullSite_slots : fullSite.freeSlot [] = none := freeSlot_full fun k h1 h2 => by rw [fullSite_keyAt k ⟨h1, h2⟩]; rfl
def Sys2Proof.Tests.slotSite : State := (site.srf .mbx .A 0 18 16 5).withKey (matKey 3)

/-- Every hypothesis of KeyCreationAndUse is met, clause by clause. -/
theorem Sys2Proof.Tests.witness_KeyCreationAndUse :
    (∃ (s : State) (o : Org) (x : Half) (r : Nat) (tx : Nat) (i : Nat) (H : Nat) (attr : List Nat) (e : KeyE) (p : KeyE), RunsAt s o 0x0C01 x r ∧ r ∈ rAny ∧ s.holdup = false ∧ e = attrEntry attr ∧ s.keyE e.parent = some p ∧ e.parent ≠ 0xFFFFFFFF ∧ p.st = 1 ∧ s.keyUsable e.parent = true ∧ p.admRoles.testBit r = true ∧ p.depth < 7 ∧ attrOk e (some p) r = true ∧ s.freeSlot [] = some i ∧ H = genUp (look 0 s.lkt.gens i) * 2 ^ 14 + i) ∧
    (∃ (s : State) (o : Org) (x : Half) (r : Nat) (tx : Nat) (i : Nat) (H : Nat) (attr : List Nat) (w : List Nat) (m : List Nat) (e : KeyE) (p : KeyE) (q : KeyE) (k : Nat), RunsAt s o 0x0C02 x r ∧ r ∈ rAny ∧ s.holdup = false ∧ e = attrEntry attr ∧ s.keyE e.parent = some p ∧ e.parent ≠ 0xFFFFFFFF ∧ p.st = 1 ∧ s.keyUsable e.parent = true ∧ p.admRoles.testBit r = true ∧ p.depth < 7 ∧ attrOk e (some p) r = true ∧ s.freeSlot [] = some i ∧ H = genUp (look 0 s.lkt.gens i) * 2 ^ 14 + i ∧ s.useStatus k none 0 0 6 = stOk ∧ s.keyE k = some q ∧ kwUnwrap q.mat w = some m ∧ matLen e.typ ≤ m.length ∧ m.length < matLen e.typ + 8) ∧
    (∃ (s : State) (o : Org) (x : Half) (r : Nat) (tx : Nat) (i : Nat) (H : Nat) (attr : List Nat) (info : List Nat) (e : KeyE) (p : KeyE), RunsAt s o 0x0C03 x r ∧ r ∈ rAny ∧ s.holdup = false ∧ e = attrEntry attr ∧ s.keyE e.parent = some p ∧ e.parent ≠ 0xFFFFFFFF ∧ p.st = 1 ∧ s.keyUsable e.parent = true ∧ p.admRoles.testBit r = true ∧ p.depth < 7 ∧ attrOk e (some p) r = true ∧ s.freeSlot [] = some i ∧ H = genUp (look 0 s.lkt.gens i) * 2 ^ 14 + i ∧ info.length ≤ 64 ∧ (p.typ = 3 ∨ p.typ = 4) ∧ s.useStatus e.parent none 1 0 4 = stOk ∧ e.typ ≠ 0x10 ∧ e.typ ≠ 0x11) ∧
    (∃ (s : State) (o : Org) (x : Half) (r : Nat) (tx : Nat) (i : Nat) (H : Nat) (attr : List Nat) (info : List Nat) (e : KeyE) (p : KeyE), RunsAt s o 0x0C03 x r ∧ r ∈ rAny ∧ s.holdup = false ∧ e = attrEntry attr ∧ s.keyE e.parent = some p ∧ e.parent ≠ 0xFFFFFFFF ∧ p.st = 1 ∧ s.keyUsable e.parent = true ∧ p.admRoles.testBit r = true ∧ p.depth < 7 ∧ attrOk e (some p) r = true ∧ s.freeSlot [] = some i ∧ H = genUp (look 0 s.lkt.gens i) * 2 ^ 14 + i ∧ info.length ≤ 64 ∧ (p.typ = 3 ∨ p.typ = 4) ∧ s.useStatus e.parent none 1 0 4 = stOk ∧ (e.typ = 0x10 ∨ e.typ = 0x11)) ∧
    (∃ (s : State) (o : Org) (x : Half) (r : Nat) (tx : Nat) (i : Nat) (H : Nat) (attr : List Nat) (z : List Nat) (e : KeyE) (p : KeyE) (n : Nat), RunsAt s o 0x0C04 x r ∧ r ∈ rAny ∧ s.holdup = false ∧ e = attrEntry attr ∧ s.keyE e.parent = some p ∧ e.parent ≠ 0xFFFFFFFF ∧ p.st = 1 ∧ s.keyUsable e.parent = true ∧ p.admRoles.testBit r = true ∧ p.depth < 7 ∧ attrOk e (some p) r = true ∧ s.freeSlot [] = some i ∧ H = genUp (look 0 s.lkt.gens i) * 2 ^ 14 + i ∧ ((n = 1 ∧ (p.typ = 0x10 ∨ p.typ = 0x11) ∧ s.useStatus e.parent none 2 0 4 = stOk) ∨ (n = 2 ∧ p.typ = 0x20 ∧ s.useStatus e.parent none 3 0 4 = stOk)) ∧ e.typ ≠ 0x10 ∧ e.typ ≠ 0x11) ∧
    (∃ (s : State) (o : Org) (x : Half) (r : Nat) (tx : Nat) (i : Nat) (attr : List Nat) (e : KeyE), RunsAt s o 0x0C01 x r ∧ (r = rInstaller ∨ r = rVendor ∨ (r = rLegal ∧ legalOnly e = true)) ∧ s.holdup = false ∧ e = attrEntry attr ∧ e.parent = 0xFFFFFFFF ∧ attrOk e none r = true ∧ s.freeSlot [] = some i) ∧
    (∃ (s : State) (o : Org) (tx : Nat) (k : Nat) (n : Nat) (m : Nat) (p : Nat) (h : Nat) (attr : List Nat) (l : List Nat), s.holdup = true) ∧
    (∃ (s : State) (o : Org) (x : Half) (r : Nat) (tx : Nat) (attr : List Nat), RunsAt s o 0x0C01 x r ∧ r ∈ rAny ∧ s.holdup = false ∧ (attrEntry attr).parent ≠ 0xFFFFFFFF ∧ s.keyE (attrEntry attr).parent = none) ∧
    (∃ (s : State) (o : Org) (x : Half) (r : Nat) (tx : Nat) (attr : List Nat) (e : KeyE) (p : KeyE), RunsAt s o 0x0C01 x r ∧ r ∈ rAny ∧ s.holdup = false ∧ e = attrEntry attr ∧ e.parent ≠ 0xFFFFFFFF ∧ s.keyE e.parent = some p ∧ (p.st ≠ 1 ∨ s.keyUsable e.parent = false)) ∧
    (∃ (s : State) (o : Org) (x : Half) (r : Nat) (tx : Nat) (attr : List Nat) (e : KeyE) (p : KeyE), RunsAt s o 0x0C01 x r ∧ r ∈ rAny ∧ s.holdup = false ∧ e = attrEntry attr ∧ e.parent ≠ 0xFFFFFFFF ∧ s.keyE e.parent = some p ∧ p.st = 1 ∧ s.keyUsable e.parent = true ∧ p.admRoles.testBit r = false) ∧
    (∃ (s : State) (o : Org) (x : Half) (r : Nat) (tx : Nat) (attr : List Nat) (e : KeyE) (p : KeyE), RunsAt s o 0x0C01 x r ∧ r ∈ rAny ∧ s.holdup = false ∧ e = attrEntry attr ∧ e.parent ≠ 0xFFFFFFFF ∧ s.keyE e.parent = some p ∧ p.st = 1 ∧ s.keyUsable e.parent = true ∧ p.admRoles.testBit r = true ∧ 7 ≤ p.depth) ∧
    (∃ (s : State) (o : Org) (x : Half) (r : Nat) (tx : Nat) (attr : List Nat) (e : KeyE) (p : KeyE), RunsAt s o 0x0C01 x r ∧ r ∈ rAny ∧ s.holdup = false ∧ e = attrEntry attr ∧ e.parent ≠ 0xFFFFFFFF ∧ s.keyE e.parent = some p ∧ p.st = 1 ∧ s.keyUsable e.parent = true ∧ p.admRoles.testBit r = true ∧ p.depth < 7 ∧ (4 ≤ e.dom ∨ within e.dom p.dom = false ∨ typeFit e.typ = none ∨ (e.use.testBit 7 = true ∧ p.use.testBit 7 = false) ∨ (p.notAfter ≠ 0 ∧ (e.notAfter = 0 ∨ p.notAfter < e.notAfter)) ∨ (legalOnly e = true ∧ (e.admRoles ≠ 0x10 ∨ r ≠ rLegal)))) ∧
    (∃ (s : State) (o : Org) (x : Half) (r : Nat) (tx : Nat) (attr : List Nat) (e : KeyE) (p : KeyE), RunsAt s o 0x0C01 x r ∧ r ∈ rAny ∧ s.holdup = false ∧ e = attrEntry attr ∧ e.parent ≠ 0xFFFFFFFF ∧ s.keyE e.parent = some p ∧ p.st = 1 ∧ s.keyUsable e.parent = true ∧ p.admRoles.testBit r = true ∧ p.depth < 7 ∧ attrOk e (some p) r = true ∧ s.freeSlot [] = none) ∧
    (∃ (s : State) (o : Org) (x : Half) (r : Nat) (tx : Nat) (k : Nat) (attr : List Nat) (w : List Nat) (e : KeyE) (q : KeyE), RunsAt s o 0x0C02 x r ∧ r ∈ rAny ∧ s.holdup = false ∧ e = attrEntry attr ∧ s.createStatus e r = stOk ∧ s.useStatus k none 0 0 6 = stOk ∧ s.keyE k = some q ∧ kwUnwrap q.mat w = none) ∧
    (∃ (s : State) (o : Org) (x : Half) (r : Nat) (k : Nat) (op : Nat) (j : Nat) (g : Nat) (u : Nat) (b : Bool) (v : List Nat) (d : List Nat) (l : List Nat), RunsAt s o 0x0C0B x r ∧ r ∈ rAny ∧ opNeeds op = some (g, u) ∧ ((k = 0xFFFFFFFF → op ≠ 4)) ∧ d.length ≤ 1048576 ∧ s.keyE k = none) ∧
    (∃ (s : State) (o : Org) (x : Half) (r : Nat) (k : Nat) (op : Nat) (j : Nat) (g : Nat) (u : Nat) (b : Bool) (v : List Nat) (d : List Nat) (l : List Nat) (e : KeyE), RunsAt s o 0x0C0B x r ∧ r ∈ rAny ∧ opNeeds op = some (g, u) ∧ ((k = 0xFFFFFFFF → op ≠ 4)) ∧ d.length ≤ 1048576 ∧ s.keyE k = some e ∧ e.st = 2 ∧ s.beforeCutoff k = false) ∧
    (∃ (s : State) (o : Org) (x : Half) (r : Nat) (k : Nat) (op : Nat) (j : Nat) (g : Nat) (u : Nat) (b : Bool) (v : List Nat) (d : List Nat) (l : List Nat) (e : KeyE), RunsAt s o 0x0C0B x r ∧ r ∈ rAny ∧ opNeeds op = some (g, u) ∧ ((k = 0xFFFFFFFF → op ≠ 4)) ∧ d.length ≤ 1048576 ∧ s.keyE k = some e ∧ e.st ≠ 2 ∧ s.keyUsable k = false) ∧
    (∃ (s : State) (o : Org) (x : Half) (r : Nat) (k : Nat) (op : Nat) (j : Nat) (g : Nat) (u : Nat) (b : Bool) (v : List Nat) (d : List Nat) (l : List Nat) (e : KeyE), RunsAt s o 0x0C0B x r ∧ r ∈ rAny ∧ opNeeds op = some (g, u) ∧ ((k = 0xFFFFFFFF → op ≠ 4)) ∧ d.length ≤ 1048576 ∧ s.keyE k = some e ∧ e.st = 1 ∧ s.keyUsable k = true ∧ e.useRoles.testBit r = false) ∧
    (∃ (s : State) (o : Org) (x : Half) (r : Nat) (k : Nat) (op : Nat) (j : Nat) (g : Nat) (u : Nat) (b : Bool) (v : List Nat) (d : List Nat) (l : List Nat) (e : KeyE), RunsAt s o 0x0C0B x r ∧ r ∈ rAny ∧ opNeeds op = some (g, u) ∧ ((k = 0xFFFFFFFF → op ≠ 4)) ∧ d.length ≤ 1048576 ∧ s.keyE k = some e ∧ e.st = 1 ∧ s.keyUsable k = true ∧ e.useRoles.testBit r = true ∧ (e.eng.testBit g = false ∨ e.dom.testBit 0 = false)) ∧
    (∃ (s : State) (o : Org) (x : Half) (r : Nat) (k : Nat) (op : Nat) (j : Nat) (g : Nat) (u : Nat) (b : Bool) (v : List Nat) (d : List Nat) (l : List Nat) (e : KeyE), RunsAt s o 0x0C0B x r ∧ r ∈ rAny ∧ opNeeds op = some (g, u) ∧ ((k = 0xFFFFFFFF → op ≠ 4)) ∧ d.length ≤ 1048576 ∧ s.keyE k = some e ∧ e.st = 1 ∧ s.keyUsable k = true ∧ e.useRoles.testBit r = true ∧ e.eng.testBit g = true ∧ e.dom.testBit 0 = true ∧ e.use.testBit u = false) ∧
    (∃ (s : State) (o : Org) (x : Half) (r : Nat) (k : Nat) (op : Nat) (j : Nat) (g : Nat) (u : Nat) (b : Bool) (v : List Nat) (d : List Nat) (l : List Nat) (e : KeyE), RunsAt s o 0x0C0B x r ∧ r ∈ rAny ∧ opNeeds op = some (g, u) ∧ ((k = 0xFFFFFFFF → op ≠ 4)) ∧ d.length ≤ 1048576 ∧ s.keyE k = some e ∧ e.st = 1 ∧ s.keyUsable k = true ∧ e.useRoles.testBit r = true ∧ e.eng.testBit g = true ∧ e.dom.testBit 0 = true ∧ e.use.testBit u = true ∧ e.notAfter ≠ 0 ∧ (e.notAfter : Int) < s.utc ∧ s.bil.unknown = false) ∧
    (∃ (s : State) (o : Org) (x : Half) (r : Nat) (k : Nat) (op : Nat) (j : Nat) (g : Nat) (u : Nat) (v : List Nat) (d : List Nat) (l : List Nat) (q : List Nat) (e : KeyE), RunsAt s o 0x0C0B x r ∧ r ∈ rAny ∧ opNeeds op = some (g, u) ∧ s.keyE k = some e ∧ e.st = 1 ∧ s.keyUsable k = true ∧ e.useRoles.testBit r = true ∧ e.eng.testBit g = true ∧ e.dom.testBit 0 = true ∧ e.use.testBit u = true ∧ (e.notAfter = 0 ∨ s.utc ≤ e.notAfter ∨ s.bil.unknown = true) ∧ d.length ≤ 1048576 ∧ ((op = 9 → s.exportStatus j = stOk)) ∧ s.opResult k op j v d l = some q) ∧
    (∃ (s : State) (o : Org) (x : Half) (r : Nat) (k : Nat) (j : Nat) (g : Nat) (u : Nat) (v : List Nat) (d : List Nat) (l : List Nat) (e : KeyE), RunsAt s o 0x0C0B x r ∧ r ∈ rAny ∧ (g, u) = (0, 2) ∧ s.keyE k = some e ∧ e.st = 1 ∧ s.keyUsable k = true ∧ e.useRoles.testBit r = true ∧ e.eng.testBit g = true ∧ e.dom.testBit 0 = true ∧ e.use.testBit u = true ∧ (e.notAfter = 0 ∨ s.utc ≤ e.notAfter ∨ s.bil.unknown = true) ∧ d.length ≤ 1048576) ∧
    (∃ (s : State) (o : Org) (x : Half) (r : Nat) (k : Nat) (j : Nat) (g : Nat) (u : Nat) (v : List Nat) (d : List Nat) (l : List Nat) (e : KeyE), RunsAt s o 0x0C0B x r ∧ r ∈ rAny ∧ (g, u) = (0, 0) ∧ s.keyE k = some e ∧ e.st = 1 ∧ s.keyUsable k = true ∧ e.useRoles.testBit r = true ∧ e.eng.testBit g = true ∧ e.dom.testBit 0 = true ∧ e.use.testBit u = true ∧ (e.notAfter = 0 ∨ s.utc ≤ e.notAfter ∨ s.bil.unknown = true) ∧ d.length ≤ 1048576 ∧ Room s o (d.length + 16)) ∧
    (∃ (s : State) (o : Org) (x : Half) (r : Nat) (k : Nat) (j : Nat) (g : Nat) (u : Nat) (v : List Nat) (d : List Nat) (l : List Nat) (q : List Nat) (a : List Nat) (e : KeyE), RunsAt s o 0x0C0B x r ∧ r ∈ rAny ∧ (g, u) = (0, 1) ∧ s.keyE k = some e ∧ e.st = 1 ∧ s.keyUsable k = true ∧ e.useRoles.testBit r = true ∧ e.eng.testBit g = true ∧ e.dom.testBit 0 = true ∧ e.use.testBit u = true ∧ (e.notAfter = 0 ∨ s.utc ≤ e.notAfter ∨ s.bil.unknown = true) ∧ d.length ≤ 1048576 ∧ d = q ++ a ∧ a.length = 16 ∧ a ≠ gcmFull e.mat (padTo 12 v) [] q) ∧
    (∃ (s : State) (o : Org) (x : Half) (r : Nat) (k : Nat) (j : Nat) (g : Nat) (u : Nat) (v : List Nat) (d : List Nat) (l : List Nat) (e : KeyE), RunsAt s o 0x0C0B x r ∧ r ∈ rAny ∧ (g, u) = (0, 5) ∧ s.keyE k = some e ∧ e.st = 1 ∧ s.keyUsable k = true ∧ e.useRoles.testBit r = true ∧ e.eng.testBit g = true ∧ e.dom.testBit 0 = true ∧ e.use.testBit u = true ∧ (e.notAfter = 0 ∨ s.utc ≤ e.notAfter ∨ s.bil.unknown = true) ∧ d.length ≤ 1048576 ∧ s.exportStatus j ≠ stOk) ∧
    (∃ (s : State) (o : Org) (x : Half) (r : Nat) (k : Nat) (op : Nat) (j : Nat) (b : Bool) (v : List Nat) (d : List Nat) (l : List Nat), RunsAt s o 0x0C0B x r ∧ r ∈ rAny ∧ (opNeeds op = none ∨ 1048576 < d.length)) ∧
    (∃ (s : State) (o : Org) (p : KeyOp), s.lkt.ops.find? (fun q => sameCmd q.org o) = some p ∧ s.keyUsable p.handle = false ∧ ((s.hf p.org.half).mbx.started.any fun c => sameCmd c.org p.org) = true) ∧
    (∃ (s : State) (o : Org) (p : KeyOp), s.lkt.ops.find? (fun q => sameCmd q.org o) = some p ∧ s.keyUsable p.handle = true) ∧
    (∃ (s : State) (o : Org), s.lkt.ops = []) ∧
    (∃ (s : State) (o : Org) (x : Half) (r : Nat) (k : Nat) (l : List Nat), RunsAt s o 0x0C07 x r ∧ r ∈ rNotPublic) ∧
    (∃ (s : State) (o : Org) (x : Half) (r : Nat) (k : Nat), RunsAt s o 0x0C06 x r ∧ r ∈ rNotPublic ∧ k.testBit 31 = false) ∧
    (∃ (s : State) (o : Org) (x : Half) (r : Nat) (k : Nat), RunsAt s o 0x0C06 x r ∧ r ∈ rNotPublic ∧ k.testBit 31 = true) ∧
    (∃ (s : State) (o : Org) (x : Half) (r : Nat) (tx : Nat), RunsAt s o 0x0C0C x r ∧ r ∈ rNotPublic) :=
   ⟨⟨sKeyCreationAndUse0, ⟨.A, 28, 1, 0⟩, .A, 5, 1, 17, genUp (look 0 sKeyCreationAndUse0.lkt.gens 17) * 2 ^ 14 + 17, keyAttr 0x4010 1 1 1 1, attrEntry (keyAttr 0x4010 1 1 1 1 : List Nat), matKey 3, by unfold RunsAt; decide +kernel, by decide +kernel, by decide +kernel, by decide +kernel, by decide +kernel, by decide +kernel, by decide +kernel, by decide +kernel, by decide +kernel, by decide +kernel, by decide +kernel, freeSlot_first (by decide +kernel) (by decide) (by decide +kernel) (by decide +kernel), by decide +kernel⟩,
    ⟨sKeyCreationAndUse1, ⟨.A, 28, 1, 0⟩, .A, 5, 1, 17, genUp (look 0 sKeyCreationAndUse1.lkt.gens 17) * 2 ^ 14 + 17, keyAttr 0x4010 1 1 1 1, [65, 248, 146, 42, 37, 161, 65, 91, 4, 185, 58, 54, 127, 54, 127, 63, 222, 195, 48, 188, 84, 174, 136, 142], List.replicate 16 5, attrEntry (keyAttr 0x4010 1 1 1 1 : List Nat), matKey 3, matKey 3, 0x4010, by unfold RunsAt; decide +kernel, by decide +kernel, by decide +kernel, by decide +kernel, by decide +kernel, by decide +kernel, by decide +kernel, by decide +kernel, by decide +kernel, by decide +kernel, by decide +kernel, freeSlot_first (by decide +kernel) (by decide) (by decide +kernel) (by decide +kernel), by decide +kernel⟩,
    ⟨sKeyCreationAndUse2, ⟨.A, 28, 1, 0⟩, .A, 5, 1, 17, genUp (look 0 sKeyCreationAndUse2.lkt.gens 17) * 2 ^ 14 + 17, keyAttr 0x4010 1 1 1 1, [1], attrEntry (keyAttr 0x4010 1 1 1 1 : List Nat), matKey 3, by unfold RunsAt; decide +kernel, by decide +kernel, by decide +kernel, by decide +kernel, by decide +kernel, by decide +kernel, by decide +kernel, by decide +kernel, by decide +kernel, by decide +kernel, by decide +kernel, freeSlot_first (by decide +kernel) (by decide) (by decide +kernel) (by decide +kernel), by decide +kernel⟩,
    ⟨sKeyCreationAndUse3, ⟨.A, 28, 1, 0⟩, .A, 5, 1, 17, genUp (look 0 sKeyCreationAndUse3.lkt.gens 17) * 2 ^ 14 + 17, keyAttr 0x4010 0x10 1 4 4, [1], attrEntry (keyAttr 0x4010 0x10 1 4 4 : List Nat), matKey 3, by unfold RunsAt; decide +kernel, by decide +kernel, by decide +kernel, by decide +kernel, by decide +kernel, by decide +kernel, by decide +kernel, by decide +kernel, by decide +kernel, by decide +kernel, by decide +kernel, freeSlot_first (by decide +kernel) (by decide) (by decide +kernel) (by decide +kernel), by decide +kernel⟩,
    ⟨sKeyCreationAndUse4, ⟨.A, 28, 1, 0⟩, .A, 5, 1, 17, genUp (look 0 sKeyCreationAndUse4.lkt.gens 17) * 2 ^ 14 + 17, keyAttr 0x4010 1 1 1 1, [5], attrEntry (keyAttr 0x4010 1 1 1 1 : List Nat), matKey 0x10, 1, by unfold RunsAt; decide +kernel, by decide +kernel, by decide +kernel, by decide +kernel, by decide +kernel, by decide +kernel, by decide +kernel, by decide +kernel, by decide +kernel, by decide +kernel, by decide +kernel, freeSlot_first (by decide +kernel) (by decide) (by decide +kernel) (by decide +kernel), by decide +kernel⟩,
    ⟨site.srf .mbx (⟨.A, 28, 1, 0⟩ : Org).half 0 18 16 5, ⟨.A, 28, 1, 0⟩, .A, 5, 1, 16, keyAttr 0xFFFFFFFF 1 1 1 1, attrEntry (keyAttr 0xFFFFFFFF 1 1 1 1 : List Nat), by unfold RunsAt; decide +kernel, by decide +kernel, by decide +kernel, by decide +kernel, by decide +kernel, by decide +kernel, freeSlot_first (by decide +kernel) (by decide) (by decide +kernel) (by decide +kernel)⟩,
    ⟨site.srf .pwr .A 0 2 2 1, { half := Half.A, ring := 28, ctag := 1, hb := 0 }, 0, 0, 0, 0, 0, 0, [], [], by decide +kernel⟩,
    ⟨(fun s : State => { s with lkt.ents := Machine.put none s.lkt.ents (keyIdx (attrEntry ([] : List Nat)).parent) (none) }) (site.srf .mbx Half.A 0 18 16 0), { half := Half.A, ring := 28, ctag := 1, hb := 0 }, Half.A, 0, 0, [], by unfold RunsAt; decide +kernel⟩,
    ⟨((fun s : State => { s with lkt.ents := Machine.put none s.lkt.ents (keyIdx (attrEntry (keyAttr 0x4010 1 1 1 1 : List Nat)).parent) (some ({ matKey 3 with st := 3 } : KeyE)) }) (site.srf .mbx (⟨.A, 28, 1, 0⟩ : Org).half 0 18 16 5)).withKey { matKey 3 with st := 3 }, ⟨.A, 28, 1, 0⟩, .A, 5, 1, keyAttr 0x4010 1 1 1 1, attrEntry (keyAttr 0x4010 1 1 1 1 : List Nat), { matKey 3 with st := 3 }, by unfold RunsAt; decide +kernel⟩,
    ⟨((fun s : State => { s with lkt.ents := Machine.put none s.lkt.ents (keyIdx (attrEntry (keyAttr 0x4010 1 1 1 1 : List Nat)).parent) (some ({ matKey 3 with admRoles := 0 } : KeyE)) }) (site.srf .mbx (⟨.A, 28, 1, 0⟩ : Org).half 0 18 16 5)).withKey { matKey 3 with admRoles := 0 }, ⟨.A, 28, 1, 0⟩, .A, 5, 1, keyAttr 0x4010 1 1 1 1, attrEntry (keyAttr 0x4010 1 1 1 1 : List Nat), { matKey 3 with admRoles := 0 }, by unfold RunsAt; decide +kernel⟩,
    ⟨((fun s : State => { s with lkt.ents := Machine.put none s.lkt.ents (keyIdx (attrEntry (keyAttr 0x4010 1 1 1 1 : List Nat)).parent) (some ({ matKey 3 with depth := 7 } : KeyE)) }) (site.srf .mbx (⟨.A, 28, 1, 0⟩ : Org).half 0 18 16 5)).withKey { matKey 3 with depth := 7 }, ⟨.A, 28, 1, 0⟩, .A, 5, 1, keyAttr 0x4010 1 1 1 1, attrEntry (keyAttr 0x4010 1 1 1 1 : List Nat), { matKey 3 with depth := 7 }, by unfold RunsAt; decide +kernel⟩,
    ⟨((fun s : State => { s with lkt.ents := Machine.put none s.lkt.ents (keyIdx (attrEntry (keyAttr 0x4010 1 4 1 1 : List Nat)).parent) (some (matKey 3 : KeyE)) }) (site.srf .mbx (⟨.A, 28, 1, 0⟩ : Org).half 0 18 16 5)).withKey (matKey 3), ⟨.A, 28, 1, 0⟩, .A, 5, 1, keyAttr 0x4010 1 4 1 1, attrEntry (keyAttr 0x4010 1 4 1 1 : List Nat), matKey 3, by unfold RunsAt; decide +kernel⟩,
    ⟨fullSite, ⟨.A, 28, 1, 0⟩, .A, 5, 1, keyAttr 0x4010 1 1 1 1, attrEntry (keyAttr 0x4010 1 1 1 1), slotKey 16, by unfold RunsAt; decide +kernel, by decide +kernel, by decide +kernel, rfl, by decide +kernel, fullSite_keyE, rfl, fullSite_usable, by decide +kernel, by decide +kernel, by decide +kernel, fullSite_slots⟩,
    ⟨slotSite, ⟨.A, 28, 1, 0⟩, .A, 5, 1, 0x4010, keyAttr 0x4010 1 1 1 1, [], attrEntry (keyAttr 0x4010 1 1 1 1), matKey 3, by unfold RunsAt; decide +kernel, by decide +kernel, by decide +kernel, rfl, createStatus_ok (p := matKey 3) (freeSlot_first (i := 17) (by decide +kernel) (by decide) (by decide +kernel) (by decide +kernel)) (by decide +kernel) (by decide +kernel), by decide +kernel, by decide +kernel, by decide +kernel⟩,
    ⟨(fun s : State => { s with lkt.ents := Machine.put none s.lkt.ents (keyIdx 0) (none) }) (site.srf .mbx Half.A 0 18 16 0), { half := Half.A, ring := 28, ctag := 1, hb := 0 }, Half.A, 0, 0, 1, 0, 0, 0, true, [], [], [], by unfold RunsAt; decide +kernel⟩,
    ⟨((fun s : State => { s with lkt.ents := Machine.put none s.lkt.ents (keyIdx 0x4010) (some ({ matKey 1 with st := 2 } : KeyE)) }) (site.srf .mbx (⟨.A, 28, 1, 0⟩ : Org).half 0 18 16 5)).withKey { matKey 1 with st := 2 }, ⟨.A, 28, 1, 0⟩, .A, 5, 0x4010, 3, 0, 0, 2, false, [], [], [], { matKey 1 with st := 2 }, by unfold RunsAt; decide +kernel⟩,
    ⟨((fun s : State => { s with lkt.ents := Machine.put none s.lkt.ents (keyIdx 0x4010) (some ({ matKey 1 with parent := 0x4099 } : KeyE)) }) (site.srf .mbx (⟨.A, 28, 1, 0⟩ : Org).half 0 18 16 5)).withKey { matKey 1 with parent := 0x4099 }, ⟨.A, 28, 1, 0⟩, .A, 5, 0x4010, 3, 0, 0, 2, false, [], [], [], { matKey 1 with parent := 0x4099 }, by unfold RunsAt; decide +kernel⟩,
    ⟨((fun s : State => { s with lkt.ents := Machine.put none s.lkt.ents (keyIdx 0x4010) (some ({ matKey 1 with useRoles := 0 } : KeyE)) }) (site.srf .mbx (⟨.A, 28, 1, 0⟩ : Org).half 0 18 16 5)).withKey { matKey 1 with useRoles := 0 }, ⟨.A, 28, 1, 0⟩, .A, 5, 0x4010, 3, 0, 0, 2, false, [], [], [], { matKey 1 with useRoles := 0 }, by unfold RunsAt; decide +kernel⟩,
    ⟨((fun s : State => { s with lkt.ents := Machine.put none s.lkt.ents (keyIdx 0x4010) (some ({ matKey 1 with eng := 0 } : KeyE)) }) (site.srf .mbx (⟨.A, 28, 1, 0⟩ : Org).half 0 18 16 5)).withKey { matKey 1 with eng := 0 }, ⟨.A, 28, 1, 0⟩, .A, 5, 0x4010, 3, 0, 0, 2, false, [], [], [], { matKey 1 with eng := 0 }, by unfold RunsAt; decide +kernel⟩,
    ⟨((fun s : State => { s with lkt.ents := Machine.put none s.lkt.ents (keyIdx 0x4010) (some ({ matKey 1 with use := 0 } : KeyE)) }) (site.srf .mbx (⟨.A, 28, 1, 0⟩ : Org).half 0 18 16 5)).withKey { matKey 1 with use := 0 }, ⟨.A, 28, 1, 0⟩, .A, 5, 0x4010, 3, 0, 0, 2, false, [], [], [], { matKey 1 with use := 0 }, by unfold RunsAt; decide +kernel⟩,
    ⟨((fun s : State => { s with bil.unknown := false }) ((fun s : State => { s with lkt.ents := Machine.put none s.lkt.ents (keyIdx 0x4010) (some ({ matKey 1 with notAfter := 1 } : KeyE)) }) ((tickSite 1940000).srf .mbx (⟨.A, 28, 1, 0⟩ : Org).half 0 18 16 5))).withKey { matKey 1 with notAfter := 1 }, ⟨.A, 28, 1, 0⟩, .A, 5, 0x4010, 3, 0, 0, 2, false, [], [], [], { matKey 1 with notAfter := 1 }, by unfold RunsAt; decide +kernel⟩,
    ⟨sKeyCreationAndUse21, ⟨.A, 28, 1, 0⟩, .A, 5, 0x4010, 3, 0, 0, 2, [], [], [], (sKeyCreationAndUse21.opResult 0x4010 3 0 ([] : List Nat) ([] : List Nat) ([] : List Nat)).getD [], (matKey 1), by unfold RunsAt; decide +kernel⟩,
    ⟨((fun s : State => { s with lkt.ents := Machine.put none s.lkt.ents (keyIdx 0x4010) (some ((matKey 1) : KeyE)) }) (((fun s : State => { s with bil.unknown := true }) site).srf .mbx (⟨.A, 28, 1, 0⟩ : Org).half 0 18 16 5)).withKey (matKey 1), ⟨.A, 28, 1, 0⟩, .A, 5, 0x4010, 0, 0, 2, [], [], [], (matKey 1), by unfold RunsAt; decide +kernel⟩,
    ⟨((fun s : State => { s with lkt.ents := Machine.put none s.lkt.ents (keyIdx 0x4010) (some ((matKey 1) : KeyE)) }) (((fun s : State => { s with bil.unknown := true }) site).srf .mbx (⟨.A, 28, 1, 0⟩ : Org).half 0 18 16 5)).withKey (matKey 1), ⟨.A, 28, 1, 0⟩, .A, 5, 0x4010, 0, 0, 0, [], [], [], (matKey 1), by unfold RunsAt Room; decide +kernel⟩,
    ⟨((fun s : State => { s with lkt.ents := Machine.put none s.lkt.ents (keyIdx 0x4010) (some (matKey 1 : KeyE)) }) (((fun s : State => { s with bil.unknown := true }) site).srf .mbx (⟨.A, 28, 1, 0⟩ : Org).half 0 18 16 5)).withKey (matKey 1), ⟨.A, 28, 1, 0⟩, .A, 5, 0x4010, 0, 0, 1, [], List.replicate 16 0, [], [], List.replicate 16 0, matKey 1, by unfold RunsAt; decide +kernel⟩,
    ⟨((fun s : State => { s with lkt.ents := Machine.put none s.lkt.ents (keyIdx 0x4010) (some ((matKey 1) : KeyE)) }) (((fun s : State => { s with bil.unknown := true }) site).srf .mbx (⟨.A, 28, 1, 0⟩ : Org).half 0 18 16 5)).withKey (matKey 1), ⟨.A, 28, 1, 0⟩, .A, 5, 0x4010, 0, 0, 5, [], [], [], (matKey 1), by unfold RunsAt; decide +kernel⟩,
    ⟨site.srf .mbx Half.A 0 18 16 0, { half := Half.A, ring := 28, ctag := 1, hb := 0 }, Half.A, 0, 0, 0, 0, true, [], [], [], by unfold RunsAt; decide +kernel⟩,
    ⟨(fun s : State => ({ s with lkt.ops := [{ org := ⟨.A, 28, 2, 0⟩, exec := .A, handle := 0x4010, start := 0, size := 0, result := [] }] }).mh .A fun y => { y with mbx.started := [{ org := ⟨.A, 28, 2, 0⟩, opc := 0x0C0B, role := 3, cseq := 0, exec := some .A }] }) site, ⟨.A, 28, 2, 0⟩, { org := ⟨.A, 28, 2, 0⟩, exec := .A, handle := 0x4010, start := 0, size := 0, result := [] }, by decide +kernel⟩,
    ⟨(fun s : State => ({ s with lkt.ops := [{ org := ⟨.A, 28, 2, 0⟩, exec := .A, handle := 0x4010, start := 0, size := 0, result := [] }] }).withKey (matKey 1)) site, ⟨.A, 28, 2, 0⟩, { org := ⟨.A, 28, 2, 0⟩, exec := .A, handle := 0x4010, start := 0, size := 0, result := [] }, by decide +kernel⟩,
    ⟨(fun s : State => { s with lkt.ops := [] }) site, { half := Half.A, ring := 28, ctag := 1, hb := 0 }, by decide +kernel⟩,
    ⟨site.srf .mbx Half.A 0 18 16 1, { half := Half.A, ring := 28, ctag := 1, hb := 0 }, Half.A, 1, 0, [], by unfold RunsAt; decide +kernel⟩,
    ⟨site.srf .mbx Half.A 0 18 16 1, { half := Half.A, ring := 28, ctag := 1, hb := 0 }, Half.A, 1, 0, by unfold RunsAt; decide +kernel⟩,
    ⟨(site.srf .mbx (⟨.A, 28, 1, 0⟩ : Org).half 0 18 16 5).withKey (matKey 1), ⟨.A, 28, 1, 0⟩, .A, 5, 0x80000010, by unfold RunsAt; decide +kernel⟩,
    ⟨site.srf .mbx Half.A 0 18 16 1, { half := Half.A, ring := 28, ctag := 1, hb := 0 }, Half.A, 1, 0, by unfold RunsAt; decide +kernel⟩⟩

def Sys2Proof.Tests.sKeyInvalidationPairingAndRecovery12 : State := (((fun s : State => { s with lkt.ents := Machine.put none s.lkt.ents (keyIdx ((s.rg .lkt .A 0x14).toNat)) (some (matKey 0x10 : KeyE)) }) (site.srf .mbx (⟨.A, 28, 1, 0⟩ : Org).half 0 18 16 5)).withKey (matKey 0x10)).srg .lkt .A 0x14 0x4010
def Sys2Proof.Tests.sKeyInvalidationPairingAndRecovery23 : State := ((site.srf .lkt .A 0x20 31 30 (2)).srf .mbx (⟨.A, 28, 1, 0⟩ : Org).half 0 18 16 5).srg .lkt .A 0 0x4099
def Sys2Proof.Tests.sKeyInvalidationPairingAndRecovery25 : State := (((fun s : State => { s with lkt.ents := Machine.put none s.lkt.ents (keyIdx 0x4010) (some (matKey 3 : KeyE)) }) ((site.srf .mbx (⟨.A, 28, 1, 0⟩ : Org).half 0 18 16 5).srf .lkt .A 0x20 31 30 (1))).withKey (matKey 3)).srf .lkt .A 0x20 31 30 1
def Sys2Proof.Tests.sKeyInvalidationPairingAndRecovery26 : State := ((((site.srf .mbx .A 0 18 16 5).withKey (matKey 0x11)).srg .lkt .A 0 0x4010).srf .lkt .A 0x20 29 29 0).srf .lkt .A 0x20 31 30 2
def Sys2Proof.Tests.sKeyInvalidationPairingAndRecovery27 : State := ((((site.srf .mbx .A 0 18 16 5).withKey (matKey 0x11)).srg .lkt .A 0 0x4010).srf .lkt .A 0x20 29 29 0).srf .lkt .A 0x20 31 30 3

/-- Every hypothesis of KeyInvalidationPairingAndRecovery is met, clause by clause. -/
theorem Sys2Proof.Tests.witness_KeyInvalidationPairingAndRecovery :
    (∃ (s : State) (o : Org) (x : Half) (r : Nat) (tx : Nat) (k : Nat) (e : KeyE), RunsAt s o 0x0C05 x r ∧ r ∈ rAny ∧ s.holdup = false ∧ s.keyE k = some e ∧ e.use.testBit 9 = false ∧ e.st ≠ 2 ∧ e.admRoles.testBit r = true) ∧
    (∃ (s : State) (o : Org) (x : Half) (r : Nat) (tx : Nat) (k : Nat), RunsAt s o 0x0C05 x r ∧ r ∈ rAny ∧ s.holdup = false) ∧
    (∃ (s : State) (k : Nat) (c : CutS) (o : Org), s.lkt.cuts.find? (fun c => c.handle == k) = some c ∧ c.edge ≤ s.now ∧ c.org = some o ∧ ((s.hf o.half).mbx.started.any fun d => sameCmd d.org o) = true) ∧
    (∃ (s : State) (k : Nat) (c : CutS), s.lkt.cuts.find? (fun c => c.handle == k) = some c ∧ s.now < c.edge) ∧
    (∃ (s : State) (e : KeyE) (k : Nat), s.keyE k = some e ∧ e.st = 2 ∧ s.beforeCutoff k = false) ∧
    (∃ (s : State) (a : JSlot), s.lkt.starting = 1 ∧ s.lkt.slot0 = some a ∧ a.k = s.lkt.c ∧ a.done = false ∧ s.lkt.slot1 = none) ∧
    (∃ (s : State) (a : JSlot), s.lkt.starting = 1 ∧ s.lkt.slot0 = some a ∧ s.lkt.c < a.k ∧ s.lkt.slot1 = none) ∧
    (∃ (s : State), s.lkt.starting = 0) ∧
    (∃ (s : State), s.lkt.starting = 2) ∧
    (∃ (s : State) (i : Nat) (e : KeyE), s.keyAt i = some e) ∧
    (∃ (s : State) (i : Nat), s.keyAt i = none) ∧
    (∃ (s : State) (o : Org) (x : Half) (r : Nat) (tx : Nat) (kind : Nat) (port : Nat) (rid : Nat) (z : List Nat) (ps : List Nat) (key : List Nat) (pair : Nat) (i : Nat) (j : Nat) (p : KeyE), RunsAt s o 0x0C08 x r ∧ ((kind = 1 ∧ (r = rInstaller ∨ r = rVendor)) ∨ (kind = 2 ∧ r = rLegal)) ∧ s.holdup = false ∧ port < 80 ∧ rid < 2 ^ 32 ∧ pair = (s.rg .lkt .A 0x14).toNat ∧ s.useStatus pair none 2 0 4 = stOk ∧ s.keyE pair = some p ∧ p.admRoles.testBit r = true ∧ p.depth < 6 ∧ within (if kind = 1 then 1 else 2) p.dom = true ∧ (s.psOf fun k => k.binding == psBinding rid port kind) = none ∧ s.freeSlot [] = some i ∧ s.freeSlot [i] = some j ∧ ps = hkdf256 (hmac256 (s.lkt.module ++ le 4 rid) z) [78, 69, 80, 69, 76, 32, 80, 65, 73, 82] 32 ∧ key = (if kind = 1 then nepelKey ps rid 1 else hkdf256 ps ([77, 69, 84, 69, 82, 32, 72, 69, 65, 68] ++ le 4 rid ++ le 4 0) 32)) ∧
    (∃ (s : State) (o : Org) (x : Half) (r : Nat) (tx : Nat) (kind : Nat) (port : Nat) (rid : Nat) (z : List Nat), RunsAt s o 0x0C08 x r ∧ r ∈ [rInstaller, rVendor, rLegal] ∧ s.holdup = false) ∧
    (∃ (s : State) (o : Org) (x : Half) (r : Nat) (tx : Nat) (port : Nat) (i : Nat) (n : Nat) (ps : KeyE) (e : KeyE), RunsAt s o 0x0C09 x r ∧ r ∈ [rOperator, rInstaller, rVendor] ∧ s.holdup = false ∧ s.remotePs port = some ps ∧ s.linkKey ps.handle = some (n, e) ∧ s.keyUsable ps.handle = true ∧ look none s.lkt.rolls port = none ∧ s.freeSlot [] = some i ∧ (∀ h, (s.port h port).pstate = 4)) ∧
    (∃ (s : State) (o : Org) (x : Half) (r : Nat) (tx : Nat) (port : Nat), RunsAt s o 0x0C09 x r ∧ r ∈ [rOperator, rInstaller, rVendor] ∧ s.holdup = false ∧ s.remotePs port = none) ∧
    (∃ (s : State) (o : Org) (x : Half) (r : Nat) (tx : Nat) (port : Nat) (n : Nat) (ps : KeyE) (e : KeyE) (w : RollS), RunsAt s o 0x0C09 x r ∧ r ∈ [rOperator, rInstaller, rVendor] ∧ s.holdup = false ∧ s.remotePs port = some ps ∧ s.linkKey ps.handle = some (n, e) ∧ s.keyUsable ps.handle = true ∧ look none s.lkt.rolls port = some w) ∧
    (∃ (s : State) (o : Org) (x : Half) (h : Half) (r : Nat) (tx : Nat) (port : Nat) (i : Nat) (n : Nat) (ps : KeyE) (e : KeyE), RunsAt s o 0x0C09 x r ∧ r ∈ [rOperator, rInstaller, rVendor] ∧ s.holdup = false ∧ s.remotePs port = some ps ∧ s.linkKey ps.handle = some (n, e) ∧ s.keyUsable ps.handle = true ∧ look none s.lkt.rolls port = none ∧ s.freeSlot [] = some i) ∧
    (∃ (s : State) (p : Nat) (w : RollS), look none s.lkt.rolls p = some w ∧ (s.now + 20 < w.edge ∨ s.rollAcked p w = true)) ∧
    (∃ (s : State) (p : Nat) (w : RollS) (e : KeyE), look none s.lkt.rolls p = some w ∧ w.edge ≤ s.now + 20 ∧ s.rollAcked p w = false ∧ s.holdup = false ∧ s.keyE w.key = some e ∧ ((s.hf w.org.half).mbx.started.any fun d => sameCmd d.org w.org) = true) ∧
    (∃ (s : State) (p : Nat) (w : RollS), look none s.lkt.rolls p = some w ∧ w.edge ≤ s.now ∧ s.rollAcked p w = true) ∧
    (∃ (s : State) (p : Nat) (w : RollS), look none s.lkt.rolls p = some w) ∧
    (∃ (s : State) (p : Nat) (w : RollS) (e : KeyE), look none s.lkt.rolls p = some w ∧ w.edge + 100 ≤ s.now ∧ s.rollAcked p w = true ∧ s.holdup = false ∧ s.keyE w.old = some e ∧ ((s.hf w.org.half).mbx.started.any fun d => sameCmd d.org w.org) = true) ∧
    (∃ (s : State) (o : Org) (x : Half) (r : Nat) (k : Nat) (st : Nat) (n : List Nat) (p : List Nat) (g : List Nat), RunsAt s o 0x0C0A x r ∧ r ∈ rAny ∧ fld (s.rg .lkt .A 0x20) 31 30 ≠ 1 ∧ st = s.useStatus (s.rg .lkt .A 0).toNat none 8 0 2 ∧ st ≠ stOk) ∧
    (∃ (s : State) (o : Org) (x : Half) (r : Nat) (k : Nat) (n : List Nat) (p : List Nat) (g : List Nat), RunsAt s o 0x0C0A x r ∧ r ∈ rAny ∧ fld (s.rg .lkt .A 0x20) 31 30 = 1 ∧ s.keyE k = none) ∧
    (∃ (s : State) (o : Org) (x : Half) (r : Nat) (k : Nat) (n : List Nat) (p : List Nat) (g : List Nat) (b : List Nat) (e : KeyE), RunsAt s o 0x0C0A x r ∧ r ∈ rAny ∧ fld (s.rg .lkt .A 0x20) 31 30 = 1 ∧ s.keyE k = some e ∧ b = s.provenance (bitAt (s.rg .lkt .A 0x20) 29) n e (e.pubHash p) ++ padTo (if bitAt (s.rg .lkt .A 0x20) 29 then 3405 else 96) g ∧ Room s o b.length) ∧
    (∃ (s : State) (o : Org) (x : Half) (r : Nat) (k : Nat) (n : List Nat) (p : List Nat) (g : List Nat) (b : List Nat), RunsAt s o 0x0C0A x r ∧ r ∈ rAny ∧ fld (s.rg .lkt .A 0x20) 31 30 = 2 ∧ s.useStatus (s.rg .lkt .A 0).toNat none 8 0 2 = stOk ∧ ((bitAt (s.rg .lkt .A 0x20) 29 = true → s.useStatus (s.rg .lkt .A 4).toNat none 8 0 2 = stOk)) ∧ b = s.identity (bitAt (s.rg .lkt .A 0x20) 29) n (s.upd.meas.map (·.2)) ++ padTo (if bitAt (s.rg .lkt .A 0x20) 29 then 3405 else 96) g ∧ Room s o b.length) ∧
    (∃ (s : State) (o : Org) (x : Half) (r : Nat) (k : Nat) (n : List Nat) (p : List Nat) (g : List Nat) (b : List Nat) (e : KeyE), RunsAt s o 0x0C0A x r ∧ r ∈ rAny ∧ fld (s.rg .lkt .A 0x20) 31 30 = 3 ∧ s.useStatus (s.rg .lkt .A 0).toNat none 8 0 2 = stOk ∧ ((bitAt (s.rg .lkt .A 0x20) 29 = true → s.useStatus (s.rg .lkt .A 4).toNat none 8 0 2 = stOk)) ∧ s.keyE (s.rg .lkt .A 0).toNat = some e ∧ b = s.identity (bitAt (s.rg .lkt .A 0x20) 29) n (s.upd.meas.map (·.2)) ++ padTo (if bitAt (s.rg .lkt .A 0x20) 29 then 3405 else 96) g ++ s.provenance (bitAt (s.rg .lkt .A 0x20) 29) n e (e.pubHash p) ++ padTo (if bitAt (s.rg .lkt .A 0x20) 29 then 3405 else 96) (g.drop (if bitAt (s.rg .lkt .A 0x20) 29 then 3405 else 96)) ∧ Room s o b.length) :=
   ⟨⟨((fun s : State => { s with lkt.ents := Machine.put none s.lkt.ents (keyIdx 0x4010) (some ({ matKey 3 with use := 0x1FF } : KeyE)) }) (site.srf .mbx (⟨.A, 28, 1, 0⟩ : Org).half 0 18 16 5)).withKey { matKey 3 with use := 0x1FF }, ⟨.A, 28, 1, 0⟩, .A, 5, 1, 0x4010, { matKey 3 with use := 0x1FF }, by unfold RunsAt; decide +kernel⟩,
    ⟨site.srf .mbx (⟨.A, 28, 1, 0⟩ : Org).half 0 18 16 5, ⟨.A, 28, 1, 0⟩, .A, 5, 1, 0, by unfold RunsAt; decide +kernel⟩,
    ⟨(fun s : State => ({ s with lkt.cuts := [{ handle := 0x4010, edge := 0, k := 1, org := some ⟨.A, 28, 2, 0⟩ }] }).run9 0x0C05) site, 0x4010, { handle := 0x4010, edge := 0, k := 1, org := some ⟨.A, 28, 2, 0⟩ }, ⟨.A, 28, 2, 0⟩, by decide +kernel⟩,
    ⟨(fun s : State => { s with lkt.cuts := [{ handle := 0x4010, edge := 200000, k := 1, org := none }] }) site, 0x4010, { handle := 0x4010, edge := 200000, k := 1, org := none }, by decide +kernel⟩,
    ⟨((fun s : State => { s with lkt.ents := Machine.put none s.lkt.ents (keyIdx 0x4010) (some ({ matKey 3 with st := 2 } : KeyE)) }) site).withKey { matKey 3 with st := 2 }, { matKey 3 with st := 2 }, 0x4010, by decide +kernel⟩,
    ⟨(fun s : State => { s with lkt.starting := 1, lkt.slot0 := some { k := 0, images := [], done := false } }) ((fun s : State => { s with lkt.slot1 := none }) ((fun s : State => { s with lkt.slot0 := some ({ k := 0, images := [], done := false } : JSlot) }) ((fun s : State => { s with lkt.starting := 1 }) site))), { k := 0, images := [], done := false }, by decide +kernel⟩,
    ⟨(fun s : State => { s with lkt.slot1 := none }) ((fun s : State => { s with lkt.slot0 := some ({ k := 1, images := [], done := false } : JSlot) }) ((fun s : State => { s with lkt.starting := 1 }) site)), { k := 1, images := [], done := false }, by decide +kernel⟩,
    ⟨(fun s : State => { s with lkt.starting := 0 }) site, by decide +kernel⟩,
    ⟨(fun s : State => { s with lkt.starting := 2 }) site, by decide +kernel⟩,
    ⟨(fun s : State => { s with lkt.ents := Machine.put none s.lkt.ents 0 (some ({ handle := 0x4010, typ := 1, dom := 3, eng := 0xFFF, use := 0xFFFF, useRoles := 0xFF, admRoles := 0xFF } : KeyE)) }) site, 0, { handle := 0x4010, typ := 1, dom := 3, eng := 0xFFF, use := 0xFFFF, useRoles := 0xFF, admRoles := 0xFF }, by decide +kernel⟩,
    ⟨(fun s : State => { s with lkt.ents := Machine.put none s.lkt.ents 0 (none) }) site, 0, by decide +kernel⟩,
    ⟨sKeyInvalidationPairingAndRecovery12, ⟨.A, 28, 1, 0⟩, .A, 5, 1, 1, 0, 5, [5], hkdf256 (hmac256 (sKeyInvalidationPairingAndRecovery12.lkt.module ++ le 4 5) ([5] : List Nat)) [78, 69, 80, 69, 76, 32, 80, 65, 73, 82] 32, (if 1 = 1 then nepelKey (hkdf256 (hmac256 (sKeyInvalidationPairingAndRecovery12.lkt.module ++ le 4 5) ([5] : List Nat)) [78, 69, 80, 69, 76, 32, 80, 65, 73, 82] 32 : List Nat) 5 1 else hkdf256 (hkdf256 (hmac256 (sKeyInvalidationPairingAndRecovery12.lkt.module ++ le 4 5) ([5] : List Nat)) [78, 69, 80, 69, 76, 32, 80, 65, 73, 82] 32 : List Nat) ([77, 69, 84, 69, 82, 32, 72, 69, 65, 68] ++ le 4 5 ++ le 4 0) 32), (sKeyInvalidationPairingAndRecovery12.rg .lkt .A 0x14).toNat, 17, 18, matKey 0x10, by unfold RunsAt; decide +kernel, by decide +kernel, by decide +kernel, by decide +kernel, by decide +kernel, by decide +kernel, by decide +kernel, by decide +kernel, by decide +kernel, by decide +kernel, by decide +kernel, by decide +kernel, freeSlot_first (by decide +kernel) (by decide) (by decide +kernel) (by decide +kernel), freeSlot_first (by decide +kernel) (by decide) (by decide +kernel) (by decide +kernel), by decide +kernel⟩,
    ⟨site.srf .mbx (⟨.A, 28, 1, 0⟩ : Org).half 0 18 16 5, ⟨.A, 28, 1, 0⟩, .A, 5, 1, 3, 0, 5, [], by unfold RunsAt; decide +kernel⟩,
    ⟨(((site.srf .mbx .A 0 18 16 5).withPs).mPort .A 0 fun q => { q with pstate := 4 }).mPort .B 0 fun q => { q with pstate := 4 }, ⟨.A, 28, 1, 0⟩, .A, 5, 1, 0, 18, 1, psKey, linkKeyE, by unfold RunsAt; decide +kernel, by decide +kernel, by decide +kernel, by decide +kernel, by decide +kernel, by decide +kernel, by decide +kernel, freeSlot_first (by decide +kernel) (by decide) (by decide +kernel) (by decide +kernel), by intro h; cases h <;> decide +kernel⟩,
    ⟨site.srf .mbx (⟨.A, 28, 1, 0⟩ : Org).half 0 18 16 5, ⟨.A, 28, 1, 0⟩, .A, 5, 1, 0, by unfold RunsAt; decide +kernel⟩,
    ⟨(fun s : State => ({ (s.srf .mbx .A 0 18 16 5).withPs with lkt := { (s.withPs).lkt with rolls := [(0, some (wroll 100400))] } })) site, ⟨.A, 28, 1, 0⟩, .A, 5, 1, 0, 1, psKey, linkKeyE, wroll 100400, by unfold RunsAt; decide +kernel⟩,
    ⟨((site.srf .mbx .A 0 18 16 5).withPs).mPort .A 0 fun q => { q with pstate := 5 }, ⟨.A, 28, 1, 0⟩, .A, .A, 5, 1, 0, 18, 1, psKey, linkKeyE, by unfold RunsAt; decide +kernel, by decide +kernel, by decide +kernel, by decide +kernel, by decide +kernel, by decide +kernel, by decide +kernel, freeSlot_first (by decide +kernel) (by decide) (by decide +kernel) (by decide +kernel)⟩,
    ⟨site.withRoll 100021 false, 0, wroll 100021, by decide +kernel⟩,
    ⟨(site.withRoll 100020 false).run9 0x0C09, 0, wroll 100020, { linkKeyE with handle := 0x4012 }, by decide +kernel⟩,
    ⟨site.withRoll 100000 true, 0, wroll 100000, by decide +kernel⟩,
    ⟨site.withRoll 100000 true, 0, wroll 100000, by decide +kernel⟩,
    ⟨(site.withRoll 99900 true).run9 0x0C09, 0, wroll 99900, linkKeyE, by decide +kernel⟩,
    ⟨sKeyInvalidationPairingAndRecovery23, ⟨.A, 28, 1, 0⟩, .A, 5, 0x4010, sKeyInvalidationPairingAndRecovery23.useStatus (sKeyInvalidationPairingAndRecovery23.rg .lkt .A 0).toNat none 8 0 2, [], [], [], by unfold RunsAt; decide +kernel⟩,
    ⟨((fun s : State => { s with lkt.ents := Machine.put none s.lkt.ents (keyIdx 0x4010) (none) }) ((site.srf .mbx (⟨.A, 28, 1, 0⟩ : Org).half 0 18 16 5).srf .lkt .A 0x20 31 30 (1))).srf .lkt .A 0x20 31 30 1, ⟨.A, 28, 1, 0⟩, .A, 5, 0x4010, [], [], [], by unfold RunsAt; decide +kernel⟩,
    ⟨sKeyInvalidationPairingAndRecovery25, ⟨.A, 28, 1, 0⟩, .A, 5, 0x4010, [], [], [], sKeyInvalidationPairingAndRecovery25.provenance (bitAt (sKeyInvalidationPairingAndRecovery25.rg .lkt .A 0x20) 29) ([] : List Nat) (matKey 3 : KeyE) ((matKey 3 : KeyE).pubHash ([] : List Nat)) ++ padTo (if bitAt (sKeyInvalidationPairingAndRecovery25.rg .lkt .A 0x20) 29 then 3405 else 96) ([] : List Nat), matKey 3, by unfold RunsAt Room; decide +kernel⟩,
    ⟨sKeyInvalidationPairingAndRecovery26, ⟨.A, 28, 1, 0⟩, .A, 5, 0x4010, [], [], [], sKeyInvalidationPairingAndRecovery26.identity (bitAt (sKeyInvalidationPairingAndRecovery26.rg .lkt .A 0x20) 29) ([] : List Nat) (sKeyInvalidationPairingAndRecovery26.upd.meas.map (·.2)) ++ padTo (if bitAt (sKeyInvalidationPairingAndRecovery26.rg .lkt .A 0x20) 29 then 3405 else 96) ([] : List Nat), by unfold RunsAt Room; decide +kernel⟩,
    ⟨sKeyInvalidationPairingAndRecovery27, ⟨.A, 28, 1, 0⟩, .A, 5, 0x4010, [], [], [], sKeyInvalidationPairingAndRecovery27.identity (bitAt (sKeyInvalidationPairingAndRecovery27.rg .lkt .A 0x20) 29) ([] : List Nat) (sKeyInvalidationPairingAndRecovery27.upd.meas.map (·.2)) ++ padTo (if bitAt (sKeyInvalidationPairingAndRecovery27.rg .lkt .A 0x20) 29 then 3405 else 96) ([] : List Nat) ++ sKeyInvalidationPairingAndRecovery27.provenance (bitAt (sKeyInvalidationPairingAndRecovery27.rg .lkt .A 0x20) 29) ([] : List Nat) (matKey 0x11 : KeyE) ((matKey 0x11 : KeyE).pubHash ([] : List Nat)) ++ padTo (if bitAt (sKeyInvalidationPairingAndRecovery27.rg .lkt .A 0x20) 29 then 3405 else 96) (([] : List Nat).drop (if bitAt (sKeyInvalidationPairingAndRecovery27.rg .lkt .A 0x20) 29 then 3405 else 96)), matKey 0x11, by unfold RunsAt Room; decide +kernel⟩⟩

/-- Every hypothesis of SafetyZonesAndResets is met, clause by clause. -/
theorem Sys2Proof.Tests.witness_SafetyZonesAndResets :
    (∃ (s : State) (z : Nat) (c : Nat) (d : Nat), s.demandNow z = some (c, d) ∧ s.zoneEn z = true ∧ (s.zone z).st = 1 ∧ bitAt (s.sw (0x80 + 0x10 * z)) 30 = false) ∧
    (∃ (s : State) (z : Nat) (c : Nat) (d : Nat), s.demandNow z = some (c, d) ∧ s.zoneEn z = true ∧ (s.zone z).st = 1 ∧ bitAt (s.sw (0x80 + 0x10 * z)) 30 = true) ∧
    (∃ (s : State) (z : Nat), (s.demandNow z = none ∨ s.zoneEn z = false ∨ (s.zone z).st ≠ 1)) ∧
    (∃ (s : State) (z : Nat), s.zoneEn z = true ∧ (s.zone z).st = 1 ∧ ((∃ n < 16, (s.zoneTrig z).testBit n = true ∧ (s.inPair n).run = none) ∨ (∃ n < 128, s.connEn n = true ∧ (s.connZones n).testBit z = true ∧ ((s.conn n).he.service = false ∨ s.demandOk n = false)) ∨ s.therm.stop ≠ none)) ∧
    (∃ (s : State) (z : Nat) (k : Nat) (n : Nat), (s.zone z).st = 2 ∧ (s.zone z).above.find? (fun e => decide (2 ≤ e.2)) = some (k, n)) ∧
    (∃ (s : State) (z : Nat), (s.zone z).st = 2 ∧ (∀ n ∈ s.zoneConns z, 4 ≤ look 0 (s.zone z).low n)) ∧
    (∃ (s : State) (z : Nat), (s.zone z).st = 2 ∧ (s.zone z).start + s.zoneStop z ≤ s.now) ∧
    (∃ (s : State) (z : Nat), (s.zone z).st ≠ 2) ∧
    (∃ (s : State) (z : Nat), (s.zone z).st = 2 ∧ s.now < (s.zone z).start + s.zoneStop z) ∧
    (∃ (s : State) (z : Nat), s.zoneEn z = true ∧ (s.zone z).st = 0 ∧ ((s.zone z).resetAt = some s.now ∨ bitAt (s.sw (0x80 + 0x10 * z)) 29 = true) ∧ s.islandUp = true ∧ ((∀ n < 16, (s.zoneTrig z).testBit n = true → ∃ a, (s.inPair n).run = some a ∧ a + 2000 ≤ s.now)) ∧ ((∀ n < 128, s.connEn n = true → (s.connZones n).testBit z = true → (s.conn n).he.service = true ∧ s.demandOk n = true)) ∧ ((∀ n < 8, s.fbkEn n = true → (s.outPair n).fbk = true))) ∧
    (∃ (s : State) (z : Nat), ((s.zone z).st ≠ 0 ∨ s.startOk z = false ∨ s.islandUp = false ∨ ((s.zone z).resetAt = none ∧ bitAt (s.sw (0x80 + 0x10 * z)) 29 = false))) ∧
    (∃ (s : State) (src : Nat) (n : Nat), (s.resetSrc src).2.1 = some n ∧ 2000 ≤ n ∧ n ≤ 40000) ∧
    (∃ (s : State) (src : Nat) (n : Nat), (s.resetSrc src).2.1 = some n ∧ n < 2000) ∧
    (∃ (s : State) (src : Nat) (n : Nat), (s.resetSrc src).2.1 = some n ∧ 40000 < n) ∧
    (∃ (s : State) (src : Nat) (a : Nat) (l : Option Nat), s.resetSrc src = (some a, l, false) ∧ a + 600000 < s.now) ∧
    (∃ (s : State) (o : Org) (x : Half) (r : Nat) (m : Nat), RunsAt s o 0x0D01 x r ∧ r ∈ [rOperator, rInstaller, rVendor]) ∧
    (∃ (s : State) (o : Org) (x : Half) (r : Nat) (m : Nat), RunsAt s o 0x0D01 x r ∧ r ∈ [rPublic, rBilling, rLegal]) ∧
    (∃ (s : State) (o : Org) (x : Half) (r : Nat) (m : Nat), RunsAt s o 0x0D02 x r ∧ r ∈ [rInstaller, rVendor] ∧ (∃ z < 8, m.testBit z = true ∧ (s.zone z).st ≠ 3)) ∧
    (∃ (s : State) (o : Org) (x : Half) (r : Nat) (m : Nat) (z : Nat) (e : Nat × Nat), RunsAt s o 0x0D02 x r ∧ r ∈ [rInstaller, rVendor] ∧ ((∀ z < 8, m.testBit z = true → (s.zone z).st = 3)) ∧ z < 8 ∧ m.testBit z = true ∧ e ∈ (s.zone z).faults ∧ s.faultGone e = false) ∧
    (∃ (s : State) (o : Org) (x : Half) (r : Nat) (m : Nat), RunsAt s o 0x0D02 x r ∧ r ∈ [rInstaller, rVendor] ∧ ((∀ z < 8, m.testBit z = true → (s.zone z).st = 3 ∧ ∀ e ∈ (s.zone z).faults, s.faultGone e = true))) ∧
    (∃ (s : State) (o : Org) (x : Half) (r : Nat) (f : Nat) (n : Nat), RunsAt s o 0x0D03 x r ∧ r ∈ [rOperator, rInstaller, rLegal, rVendor]) :=
   ⟨⟨((((fun s : State => (s).srf .saf .A (0x80 + 0x10 * 0) 31 31 (Bool.toNat (true))) site).mZone 0 fun z' => { z' with st := 1 }).srf .saf .A (0x80 + 0x10 * 0) 30 30 (Bool.toNat (false))).srf .saf .A 0x84 15 0 1, 0, 1, 0, by decide +kernel⟩,
    ⟨((((fun s : State => (s).srf .saf .A (0x80 + 0x10 * 0) 31 31 (Bool.toNat (true))) site).mZone 0 fun z' => { z' with st := 1 }).srf .saf .A (0x80 + 0x10 * 0) 30 30 (Bool.toNat (true))).srf .saf .A 0x84 15 0 1, 0, 1, 0, by decide +kernel⟩,
    ⟨(fun s : State => (s).srf .saf .A (0x80 + 0x10 * 0) 31 31 (Bool.toNat (false))) site, 0, by decide +kernel⟩,
    ⟨((site.srf .saf .A 0x84 15 0 1).srf .saf .A 0x80 31 31 1).mZone 0 fun y => { y with st := 1 }, 0, by decide +kernel⟩,
    ⟨(site.mZone 0 fun z' => { z' with st := 2 }).mZone 0 fun y => { y with above := [(0, 2)] }, 0, 0, 2, by decide +kernel⟩,
    ⟨site.mZone 0 fun z' => { z' with st := 2 }, 0, by decide +kernel⟩,
    ⟨site.mZone 0 fun z' => { z' with st := 2 }, 0, by decide +kernel⟩,
    ⟨site.mZone 0 fun z' => { z' with st := 3 }, 0, by decide +kernel⟩,
    ⟨((site.mZone 0 fun z' => { z' with st := 2 }).srf .saf .A 0x80 19 12 1).mZone 0 fun y => { y with start := 100000 }, 0, by decide +kernel⟩,
    ⟨(fun s : State => { s with saf.spOk := true, saf.hwOk := true }) (((fun s : State => (s).srf .saf .A (0x80 + 0x10 * 0) 31 31 (Bool.toNat (true))) ((fun s : State => s.mZone 0 fun z' => { z' with resetAt := some s.now }) site)).mZone 0 fun z' => { z' with st := 0 }), 0, by decide +kernel⟩,
    ⟨site.mZone 0 fun z' => { z' with st := 1 }, 0, by decide +kernel⟩,
    ⟨site.mIn 0 fun y => { y with len := some 2000 }, 0, 2000, by decide +kernel⟩,
    ⟨site.mIn 0 fun y => { y with len := some 1999 }, 0, 1999, by decide +kernel⟩,
    ⟨site.mIn 0 fun y => { y with len := some 40001 }, 0, 40001, by decide +kernel⟩,
    ⟨(tickSite 700000).mIn 0 fun y => { y with press := some 5 }, 0, 5, none, by decide +kernel⟩,
    ⟨site.srf .mbx Half.A 0 18 16 1, { half := Half.A, ring := 28, ctag := 1, hb := 0 }, Half.A, 1, 0, by unfold RunsAt; decide +kernel⟩,
    ⟨site.srf .mbx Half.A 0 18 16 0, { half := Half.A, ring := 28, ctag := 1, hb := 0 }, Half.A, 0, 0, by unfold RunsAt; decide +kernel⟩,
    ⟨site.srf .mbx Half.A 0 18 16 3, { half := Half.A, ring := 28, ctag := 1, hb := 0 }, Half.A, 3, 1, by unfold RunsAt; decide +kernel⟩,
    ⟨(fun s : State => ({ s with saf.diff := 1 }).mZone 0 fun y => { y with st := 3, faults := [(7, 0)] }) ((site.srf .mbx (⟨.A, 28, 1, 0⟩ : Org).half 0 18 16 5).mZone 0 fun z' => { z' with faults := [((7, 0) : Nat × Nat)] }), ⟨.A, 28, 1, 0⟩, .A, 5, 1, 0, (7, 0), by unfold RunsAt; decide +kernel⟩,
    ⟨site.srf .mbx Half.A 0 18 16 3, { half := Half.A, ring := 28, ctag := 1, hb := 0 }, Half.A, 3, 0, by unfold RunsAt; decide +kernel⟩,
    ⟨site.srf .mbx Half.A 0 18 16 1, { half := Half.A, ring := 28, ctag := 1, hb := 0 }, Half.A, 1, 0, 0, by unfold RunsAt; decide +kernel⟩⟩

def Sys2Proof.Tests.sSafetyChecksAndConnections0 : State := (site.srf .saf .A (4 * 0) 31 31 (Bool.toNat (true))).srf .saf .A (4 * 0) 30 30 (Bool.toNat (false))
def Sys2Proof.Tests.sSafetyChecksAndConnections15 : State := ((fun s : State => s.mOutPair 0 fun z' => { z' with on := (s.outPair 0).on }) ((fun s : State => (s).srf .saf .A (0x40 + 4 * 0) 29 29 (Bool.toNat (true))) site)).mOutPair 0 fun z' => { z' with followed := true }
def Sys2Proof.Tests.sSafetyChecksAndConnections33 : State := (((fun s : State => { s with saf.spOk := true, saf.hwOk := true }) ((((fun s : State => (s).srf .saf .A (0x200 + 0x10 * 0) 31 31 (Bool.toNat (true))) ((fun s : State => { s with saf.built := none }) site)).srf .saf .A (0x200 + 0x10 * 0) 30 29 (0)).srf .saf .A (0x200 + 0x10 * 0) 28 27 (0))).mConn 0 fun z' => { z' with supp := false }).mPort .A 0 fun q => { q with pstate := 4 }

/-- Every hypothesis of SafetyChecksAndConnections is met, clause by clause. -/
theorem Sys2Proof.Tests.witness_SafetyChecksAndConnections :
    (∃ (s : State) (a : Nat) (b : Nat) (n : Nat) (p : InPair), n < 16 ∧ bitAt (s.sw (4 * n)) 31 = true ∧ bitAt (s.sw (4 * n)) 30 = false ∧ p = (s.inPair n).sample s.now (fld (s.sw (4 * n)) 23 16) (a.testBit n) (b.testBit n)) ∧
    (∃ (s : State) (a : Nat) (b : Nat) (n : Nat), n < 16 ∧ bitAt (s.sw (4 * n)) 31 = false) ∧
    (∃ (s : State) (n : Nat) (a : Nat), bitAt (s.sw (4 * n)) 31 = true ∧ (s.inPair n).disc = false ∧ (s.inPair n).eq = some a ∧ a + 20 * fld (s.sw (4 * n)) 15 0 < s.now) ∧
    (∃ (s : State) (n : Nat), ((s.inPair n).eq = none ∨ (s.inPair n).disc = true ∨ bitAt (s.sw (4 * n)) 31 = false)) ∧
    (∃ (s : State) (d : Bool) (l : List Nat), (d = true ∨ l ≠ []) ∧ s.saf.diff = 0) ∧
    (∃ (s : State) (d : Bool) (l : List Nat), (d = true ∨ l ≠ []) ∧ s.saf.diff = 1) ∧
    (∃ (s : State) (a : Bool) (b : Bool), s.pwr.up = false) ∧
    (∃ (s : State), s.pwr.up = true) ∧
    (∃ (s : State) (a : Bool) (b : Bool), s.pwr.up = true ∧ (a && b) = false) ∧
    (∃ (s : State) (n : Nat) (b : Bool), n < 8 ∧ (s.outPair n).on = true ∧ bitAt (s.sw (0x40 + 4 * n)) 30 = false) ∧
    (∃ (s : State) (n : Nat) (b : Bool), n < 8 ∧ ((s.outPair n).on = false ∨ bitAt (s.sw (0x40 + 4 * n)) 30 = true)) ∧
    (∃ (s : State) (n : Nat) (b : Bool), n < 8) ∧
    (∃ (s : State) (n : Nat) (b : Bool), s.fbkEn n = true ∧ b = (s.outPair n).on ∧ (s.outPair n).followed = true) ∧
    (∃ (s : State) (n : Nat) (b : Bool), b ≠ (s.outPair n).on) ∧
    (∃ (s : State) (n : Nat), n < 8 ∧ s.fbkEn n = true ∧ (s.outPair n).followed = false ∧ (s.outPair n).cmdTick + 200 * fld (s.sw (0x40 + 4 * n)) 7 0 ≤ s.now ∧ (s.outPair n).on = false ∧ (s.outPair n).fbk = false) ∧
    (∃ (s : State) (n : Nat), s.fbkEn n = true ∧ (s.outPair n).followed = false ∧ (s.outPair n).cmdTick + 200 * fld (s.sw (0x40 + 4 * n)) 7 0 ≤ s.now ∧ (s.outPair n).on = true) ∧
    (∃ (s : State) (k : Nat), (s.conn (32 + k)).sto ≠ none ∧ (numAt (s.conn (32 + k)).he.data 0 1).testBit 3 = false) ∧
    (∃ (s : State) (k : Nat), ((s.conn (32 + k)).sto = none ∨ (numAt (s.conn (32 + k)).he.data 0 1).testBit 3 = true)) ∧
    (∃ (s : State) (n : Nat) (b : List Nat), s.connEn n = true ∧ fld (s.sw (0x200 + 0x10 * n)) 30 29 = 1 ∧ readPdu (s.connCid n) (s.connTexp n) true b = none) ∧
    (∃ (s : State) (n : Nat) (q : Nat) (ec : Nat) (b : List Nat) (d : List Nat), s.connEn n = true ∧ fld (s.sw (0x200 + 0x10 * n)) 30 29 = 1 ∧ readPdu (s.connCid n) (s.connTexp n) true b = some (q, ec, d) ∧ (s.conn n).he.last = none) ∧
    (∃ (s : State) (n : Nat) (q : Nat) (ec : Nat) (l : Nat) (b : List Nat) (d : List Nat), s.connEn n = true ∧ fld (s.sw (0x200 + 0x10 * n)) 30 29 = 1 ∧ readPdu (s.connCid n) (s.connTexp n) true b = some (q, ec, d) ∧ (s.conn n).he.last = some l ∧ q = (l + 1) % 65536 ∧ l < 65536 ∧ (numAt d 0 1).testBit (if fld (s.sw (0x200 + 0x10 * n)) 28 27 = 2 then 0 else 1) = false) ∧
    (∃ (s : State) (n : Nat) (q : Nat) (ec : Nat) (c : Nat) (b : List Nat) (d : List Nat) (e : Nat × List Nat) (l : List (Nat × List Nat)), s.connEn n = true ∧ fld (s.sw (0x200 + 0x10 * n)) 30 29 = 0 ∧ ((s.conn n).inbox.filter fun e => e.1 == s.now && !((s.conn n).he.acc && (s.conn n).he.accTick == s.now)) = e :: l ∧ readPdu (s.connCid n) (s.connTexp n) false e.2 = some (q, ec, d) ∧ (s.conn n).he.last = some c ∧ q = (c + 1) % 65536 ∧ c < 65536) ∧
    (∃ (s : State) (n : Nat) (b : List Nat), fld (s.sw (0x200 + 0x10 * n)) 30 29 = 0 ∧ (∀ e ∈ (s.conn n).inbox, e.1 ≠ s.now)) ∧
    (∃ (s : State) (n : Nat) (b : List Nat), s.connEn n = false) ∧
    (∃ (s : State) (n : Nat), s.connEn n = true ∧ (s.conn n).he.service = true ∧ (s.conn n).he.accTick + 20 * s.connTexp n ≤ s.now) ∧
    (∃ (s : State) (n : Nat), (s.conn n).he.service = false) ∧
    (∃ (s : State) (b : Bool), s.saf.built = some s.now) ∧
    (∃ (s : State) (n : Nat) (b : Bool), s.saf.built ≠ some s.now ∧ 32 ≤ n ∧ n < 80 ∧ s.connEn n = true ∧ fld (s.sw (0x200 + 0x10 * n)) 30 29 = 0 ∧ s.inService n = true ∧ fld (s.sw (0x200 + 0x10 * n)) 28 27 = 1 ∧ s.islandUp = true ∧ (s.conn n).supp = false) ∧
    (∃ (s : State) (n : Nat) (pg : Nat) (b : Bool), s.saf.built ≠ some s.now ∧ n < 32 ∧ s.connEn n = true ∧ fld (s.sw (0x200 + 0x10 * n)) 30 29 = 0 ∧ s.inService n = true ∧ fld (s.sw (0x200 + 0x10 * n)) 28 27 = 0 ∧ s.islandUp = true ∧ (s.conn n).supp = false ∧ pg = (if 8 < (s.ranks n).length then (s.conn n).he.hseq % 2 else 0)) ∧
    (∃ (s : State) (n : Nat) (b : Bool), s.saf.built ≠ some s.now ∧ n < 80 ∧ s.connEn n = true ∧ fld (s.sw (0x200 + 0x10 * n)) 30 29 = 0 ∧ s.inService n = true ∧ (s.islandUp = false ∨ (s.conn n).supp = true)) ∧
    (∃ (s : State) (h : Half) (n : Nat), s.saf.built ≠ some s.now ∧ s.ref.token = some h ∧ n < 512) :=
   ⟨⟨sSafetyChecksAndConnections0, 0, 0, 0, (sSafetyChecksAndConnections0.inPair 0).sample sSafetyChecksAndConnections0.now (fld (sSafetyChecksAndConnections0.sw (4 * 0)) 23 16) ((0 : Nat).testBit 0) ((0 : Nat).testBit 0), by decide +kernel⟩,
    ⟨site.srf .saf .A (4 * 0) 31 31 (Bool.toNat (false)), 0, 0, 0, by decide +kernel⟩,
    ⟨((site.srf .saf .A (4 * 0) 31 31 (Bool.toNat (true))).mIn 0 fun z' => { z' with disc := false }).mIn 0 fun z' => { z' with eq := some 0 }, 0, 0, by decide +kernel⟩,
    ⟨site.mIn 0 fun z' => { z' with eq := none }, 0, by decide +kernel⟩,
    ⟨(fun s : State => { s with saf.diff := 0 }) site, true, [], by decide +kernel⟩,
    ⟨(fun s : State => { s with saf.diff := 1 }) site, true, [], by decide +kernel⟩,
    ⟨(fun s : State => { s with pwr.up := false }) site, true, true, by decide +kernel⟩,
    ⟨(fun s : State => { s with pwr.up := true }) site, by decide +kernel⟩,
    ⟨(fun s : State => { s with pwr.up := true }) site, true, false, by decide +kernel⟩,
    ⟨(site.mOutPair 0 fun z' => { z' with on := true }).srf .saf .A (0x40 + 4 * 0) 30 30 (Bool.toNat (false)), 0, true, by decide +kernel⟩,
    ⟨site.mOutPair 0 fun z' => { z' with on := false }, 0, true, by decide +kernel⟩,
    ⟨site, 0, true, by decide +kernel⟩,
    ⟨sSafetyChecksAndConnections15, 0, (sSafetyChecksAndConnections15.outPair 0).on, by decide +kernel⟩,
    ⟨site, 0, true, by decide +kernel⟩,
    ⟨((((fun s : State => (s).srf .saf .A (0x40 + 4 * 0) 29 29 (Bool.toNat (true))) site).mOutPair 0 fun z' => { z' with followed := false }).mOutPair 0 fun z' => { z' with on := false }).mOutPair 0 fun z' => { z' with fbk := false }, 0, by decide +kernel⟩,
    ⟨(((fun s : State => (s).srf .saf .A (0x40 + 4 * 0) 29 29 (Bool.toNat (true))) site).mOutPair 0 fun z' => { z' with followed := false }).mOutPair 0 fun z' => { z' with on := true }, 0, by decide +kernel⟩,
    ⟨site.mConn 32 fun y => { y with sto := some 5 }, 0, by decide +kernel⟩,
    ⟨site, 0, by decide +kernel⟩,
    ⟨((fun s : State => (s).srf .saf .A (0x200 + 0x10 * 0) 31 31 (Bool.toNat (true))) site).srf .saf .A (0x200 + 0x10 * 0) 30 29 (1), 0, [], by decide +kernel⟩,
    ⟨(((((fun s : State => (s).srf .saf .A (0x200 + 0x10 * 0) 31 31 (Bool.toNat (true))) site).srf .saf .A (0x200 + 0x10 * 0) 30 29 (1)).mConn 0 fun z' => { z' with he.last := none }).srg .saf .A 0x204 7).srf .saf .A 0x208 31 16 3, 0, 5, 0, extPdu (le 4 7 ++ le 2 3 ++ le 2 5 ++ [0, 0] ++ [0, 0] ++ List.replicate 8 0), List.replicate 8 0, by decide +kernel⟩,
    ⟨(((((fun s : State => (s).srf .saf .A (0x200 + 0x10 * 0) 31 31 (Bool.toNat (true))) site).srf .saf .A (0x200 + 0x10 * 0) 30 29 (1)).mConn 0 fun z' => { z' with he.last := some 4 }).srg .saf .A 0x204 7).srf .saf .A 0x208 31 16 3, 0, 5, 0, 4, extPdu (le 4 7 ++ le 2 3 ++ le 2 5 ++ [0, 0] ++ [0, 0] ++ List.replicate 8 0), List.replicate 8 0, by decide +kernel⟩,
    ⟨(((site.srg .saf .A 0x200 0x80000000).srg .saf .A 0x204 7).srf .saf .A 0x208 31 16 3).mConn 0 fun y => { y with inbox := [(100000, compactPdu 7 3 5 0 (List.replicate 8 0))], he := { y.he with last := some 4 } }, 0, 5, 0, 4, [], List.replicate 8 0, (100000, compactPdu 7 3 5 0 (List.replicate 8 0)), [], by decide +kernel⟩,
    ⟨site.srf .saf .A (0x200 + 0x10 * 0) 30 29 (0), 0, [], by decide +kernel⟩,
    ⟨(fun s : State => (s).srf .saf .A (0x200 + 0x10 * 0) 31 31 (Bool.toNat (false))) site, 0, [], by decide +kernel⟩,
    ⟨((fun s : State => (s).srf .saf .A (0x200 + 0x10 * 0) 31 31 (Bool.toNat (true))) site).mConn 0 fun z' => { z' with he.service := true }, 0, by decide +kernel⟩,
    ⟨site.mConn 0 fun z' => { z' with he.service := false }, 0, by decide +kernel⟩,
    ⟨(fun s : State => { s with saf.built := some s.now }) site, true, by decide +kernel⟩,
    ⟨(((fun s : State => { s with saf.spOk := true, saf.hwOk := true }) ((((fun s : State => (s).srf .saf .A (0x200 + 0x10 * 32) 31 31 (Bool.toNat (true))) ((fun s : State => { s with saf.built := none }) site)).srf .saf .A (0x200 + 0x10 * 32) 30 29 (0)).srf .saf .A (0x200 + 0x10 * 32) 28 27 (1))).mConn 32 fun z' => { z' with supp := false }).mPort .A 32 fun q => { q with pstate := 4 }, 32, true, by decide +kernel⟩,
    ⟨sSafetyChecksAndConnections33, 0, (if 8 < (sSafetyChecksAndConnections33.ranks 0).length then (sSafetyChecksAndConnections33.conn 0).he.hseq % 2 else 0), true, by decide +kernel⟩,
    ⟨(((fun s : State => (s).srf .saf .A (0x200 + 0x10 * 0) 31 31 (Bool.toNat (true))) ((fun s : State => { s with saf.spOk := false, saf.hwOk := false }) ((fun s : State => { s with saf.built := none }) site))).srf .saf .A (0x200 + 0x10 * 0) 30 29 (0)).mPort .A 0 fun q => { q with pstate := 4 }, 0, true, by decide +kernel⟩,
    ⟨(fun s : State => { s with saf.built := none }) site, Half.A, 0, by decide +kernel⟩⟩

def Sys2Proof.Tests.sGpioTimersAndWideValues13 : State := (fun s : State => s.srf .gpio .A 0x08 0 0 (Bool.toNat ((s.rb .gpio .A 0x08 0)))) site

/-- Every hypothesis of GpioTimersAndWideValues is met, clause by clause. -/
theorem Sys2Proof.Tests.witness_GpioTimersAndWideValues :
    (∃ (s : State) (h : Half), s.ref.token ≠ some h) ∧
    (∃ (s : State) (h : Half), s.ref.token = some h) ∧
    (∃ (s : State) (h : Half) (m : Nat), s.ref.token ≠ some h) ∧
    (∃ (s : State) (h : Half) (m : Nat), s.ref.token ≠ some h) ∧
    (∃ (s : State) (h : Half) (n : Nat), n < 4 ∧ s.ref.token ≠ some h) ∧
    (∃ (s : State) (h : Half) (n : Nat), n < 4 ∧ s.ref.token ≠ some h) ∧
    (∃ (s : State) (h : Half) (n : Nat), n < 4 ∧ s.ref.token ≠ some h) ∧
    (∃ (s : State) (h : Half) (n : Nat), n < 4 ∧ s.ref.token ≠ some h) ∧
    (∃ (s : State) (h : Half) (n : Nat), n < 4 ∧ s.ref.token ≠ some h) ∧
    (∃ (s : State) (h : Half) (n : Nat), n < 4 ∧ s.ref.token ≠ some h) ∧
    (∃ (s : State) (p : Nat) (b : Bool), p < 32 ∧ s.rb .gpio .A 0x08 p ≠ b) ∧
    (∃ (s : State) (p : Nat) (b : Bool), s.rb .gpio .A 0x08 p = b) ∧
    (∃ (s : State) (h : Half) (m : Nat), s.ref.token = some h) ∧
    (∃ (s : State) (h : Half) (m : Nat), s.ref.token = some h) ∧
    (∃ (s : State) (h : Half) (n : Nat) (a : Nat), n < 4 ∧ a < 5000) ∧
    (∃ (s : State) (h : Half) (n : Nat), n < 4 ∧ look 0 (s.hf h).tmr n ≠ 0 ∧ bitAt (s.rg .loc h (0x10 * n)) 31 = true ∧ look 0 (s.hf h).tmr n < 5000 * (s.tick h + 1) ∧ bitAt (s.rg .loc h (0x10 * n)) 30 = true) ∧
    (∃ (s : State) (h : Half) (n : Nat), n < 4 ∧ look 0 (s.hf h).tmr n ≠ 0 ∧ bitAt (s.rg .loc h (0x10 * n)) 31 = true ∧ look 0 (s.hf h).tmr n < 5000 * (s.tick h + 1) ∧ bitAt (s.rg .loc h (0x10 * n)) 30 = false) ∧
    (∃ (s : State) (h : Half) (n : Nat), (4 ≤ n ∨ look 0 (s.hf h).tmr n = 0 ∨ bitAt (s.rg .loc h (0x10 * n)) 31 = false ∨ 5000 * (s.tick h + 1) ≤ look 0 (s.hf h).tmr n)) ∧
    (∃ (s : State) (h : Half) (k : Nat) (ws : List Nat), s.wideValue h (k % 256) = some ws) ∧
    (∃ (s : State) (h : Half) (k : Nat) (b : Bool), (b = false ∨ s.wideValue h (k % 256) = none)) ∧
    (∃ (s : State) (h : Half), s.tick h < 2 ^ 64) ∧
    (∃ (s : State) (h : Half) (n : Nat) (b : Nat), n < 4 ∧ b < 3 ∧ s.ref.token = some h ∧ (s.canOwned n = false ∨ b = 2) ∧ (s.tstat n b = 0 ∨ 3 ≤ s.tstat n b) ∧ (s.canFld n 0 31 31 = 1 ∨ s.canFld n 0 30 30 = 1 ∨ 2 ≤ s.canFld n 0x0C 31 30 ∨ ∃ a < 3, s.tstat n a = 2)) ∧
    (∃ (s : State) (h : Half) (n : Nat) (b : Nat), n < 4 ∧ b < 3 ∧ s.ref.token = some h ∧ (s.canOwned n = false ∨ b = 2) ∧ (∀ a < 3, s.tstat n a ≠ 1 ∧ s.tstat n a ≠ 2) ∧ s.canFld n 0 31 31 = 0 ∧ s.canFld n 0 30 30 = 0 ∧ s.canFld n 0x0C 31 30 < 2 ∧ s.canClock = true ∧ s.canFld n 0x0C 20 12 < 256) ∧
    (∃ (s : State) (h : Half) (n : Nat) (b : Nat), n < 4 ∧ b < 3 ∧ s.ref.token = some h ∧ (s.canOwned n = false ∨ b = 2) ∧ (s.tstat n b = 1 ∨ s.tstat n b = 2)) ∧
    (∃ (s : State) (h : Half) (n : Nat) (b : Nat), n < 4 ∧ b < 2 ∧ s.ref.token = some h ∧ s.canOwned n = true) ∧
    (∃ (s : State) (h : Half) (n : Nat) (b : Nat), n < 4 ∧ b < 3 ∧ s.ref.token = some h ∧ (s.canOwned n = false ∨ b = 2)) ∧
    (∃ (s : State) (n : Nat) (b : Nat) (tec : Nat), n < 4 ∧ b < 3 ∧ s.tstat n b = 2 ∧ ((∀ a < 3, a ≠ b → s.tstat n a ≠ 1 ∧ s.tstat n a ≠ 2))) ∧
    (∃ (s : State) (n : Nat) (b : Nat) (tec : Nat) (lec : Nat), n < 4 ∧ b < 3 ∧ s.tstat n b = 2 ∧ ((∀ a < 3, a ≠ b → s.tstat n a ≠ 1 ∧ s.tstat n a ≠ 2)) ∧ max 1 (s.canFld n 0 23 16) ≤ min 255 (s.canFld n (txOff b) 18 11 + 1) ∧ b ∉ (s.canS n).aborts) ∧
    (∃ (s : State) (n : Nat) (b : Nat) (tec : Nat) (lec : Nat), n < 4 ∧ b < 3 ∧ s.tstat n b = 2 ∧ ((∀ a < 3, a ≠ b → s.tstat n a ≠ 1 ∧ s.tstat n a ≠ 2)) ∧ b ∈ (s.canS n).aborts) ∧
    (∃ (s : State) (n : Nat) (b : Nat) (tec : Nat), n < 4 ∧ b < 3 ∧ s.tstat n b = 2 ∧ ((∀ a < 3, a ≠ b → s.tstat n a ≠ 1 ∧ s.tstat n a ≠ 2)) ∧ b ∉ (s.canS n).aborts ∧ s.canFld n 0 31 31 = 0 ∧ s.canFld n 0 30 30 = 0 ∧ s.canFld n 0x0C 31 30 < 2 ∧ s.canClock = true ∧ tec < 256) ∧
    (∃ (s : State) (n : Nat) (tec : Nat) (e : TxEnd), (∀ b < 3, s.tstat n b ≠ 2)) :=
   ⟨⟨site, Half.B, by decide +kernel⟩,
    ⟨site, Half.A, by decide +kernel⟩,
    ⟨site, Half.B, 0, by decide +kernel⟩,
    ⟨site, Half.B, 0, by decide +kernel⟩,
    ⟨site, Half.B, 0, by decide +kernel⟩,
    ⟨site, Half.B, 0, by decide +kernel⟩,
    ⟨site, Half.B, 0, by decide +kernel⟩,
    ⟨site, Half.B, 0, by decide +kernel⟩,
    ⟨site, Half.B, 0, by decide +kernel⟩,
    ⟨site, Half.B, 0, by decide +kernel⟩,
    ⟨site.srf .gpio .A 0x08 0 0 (Bool.toNat (1)), 0, false, by decide +kernel⟩,
    ⟨sGpioTimersAndWideValues13, 0, sGpioTimersAndWideValues13.rb .gpio .A 0x08 0, by decide +kernel⟩,
    ⟨site, Half.A, 0, by decide +kernel⟩,
    ⟨site, Half.A, 0, by decide +kernel⟩,
    ⟨site, Half.A, 0, 0, by decide +kernel⟩,
    ⟨(((fun s : State => s.mh Half.A fun z' => { z' with tmr := Machine.put 0 (s.hf Half.A).tmr 0 (1) }) site).srf .loc Half.A (0x10 * 0) 31 31 (Bool.toNat (true))).srf .loc Half.A (0x10 * 0) 30 30 (Bool.toNat (true)), Half.A, 0, by decide +kernel⟩,
    ⟨(((fun s : State => s.mh Half.A fun z' => { z' with tmr := Machine.put 0 (s.hf Half.A).tmr 0 (1) }) site).srf .loc Half.A (0x10 * 0) 31 31 (Bool.toNat (true))).srf .loc Half.A (0x10 * 0) 30 30 (Bool.toNat (false)), Half.A, 0, by decide +kernel⟩,
    ⟨(fun s : State => s.mh Half.A fun z' => { z' with tmr := Machine.put 0 (s.hf Half.A).tmr 0 (0) }) site, Half.A, 0, by decide +kernel⟩,
    ⟨site, Half.A, 1, (site.wideValue Half.A (1 % 256)).getD [], by decide +kernel⟩,
    ⟨site, Half.A, 0, true, by decide +kernel⟩,
    ⟨site, Half.A, by decide +kernel⟩,
    ⟨(((fun s : State => (s).srf .iox .A 0 0 0 (Bool.toNat (false))) site).setTstat 0 0 (0)).setCanFld 0 0 31 31 (1), Half.A, 0, 0, by decide +kernel⟩,
    ⟨(((((fun s : State => (s).srf .iox .A 0 0 0 (Bool.toNat (false))) site).setCanFld 0 0x0C 31 30 (1)).setCanFld 0 0x0C 20 12 (255)).setCanFld 0 0 31 31 (0)).setCanFld 0 0 30 30 (0), Half.A, 0, 0, by decide +kernel⟩,
    ⟨((fun s : State => (s).srf .iox .A 0 0 0 (Bool.toNat (false))) site).setTstat 0 0 (1), Half.A, 0, 0, by decide +kernel⟩,
    ⟨(fun s : State => (s).srf .iox .A 0 0 0 (Bool.toNat (true))) site, Half.A, 0, 0, by decide +kernel⟩,
    ⟨(fun s : State => (s).srf .iox .A 0 0 0 (Bool.toNat (false))) site, Half.A, 0, 0, by decide +kernel⟩,
    ⟨site.setTstat 0 0 (2), 0, 0, 0, by decide +kernel⟩,
    ⟨(site.setTstat 0 0 (2)).setCanFld 0 0 23 16 1, 0, 0, 0, 1, by decide +kernel⟩,
    ⟨(site.setTstat 0 0 (2)).mCan 0 fun z' => { z' with aborts := [0] }, 0, 0, 0, 0, by decide +kernel⟩,
    ⟨(((site.setCanFld 0 0x0C 31 30 (1)).setTstat 0 0 (2)).setCanFld 0 0 31 31 (0)).setCanFld 0 0 30 30 (0), 0, 0, 0, by decide +kernel⟩,
    ⟨site, 0, 0, .ok, by decide +kernel⟩⟩

def Sys2Proof.Tests.sCanReceptionAndExchange7 : State := site.setCanFld 0 0x0C 31 30 (1)
def Sys2Proof.Tests.sCanReceptionAndExchange18 : State := (fun s : State => s.srf .can .A (0x1000 * 0 + 0x400) ((s.canS 0).cand) ((s.canS 0).cand) (Bool.toNat (true))) ((fun s : State => s.mCan 0 fun z' => { z' with cand := (s.canS 0).cand }) ((site.mCan 0 fun z' => { z' with cand := 7 }).setCanFld 0 0x404 31 30 (1)))
def Sys2Proof.Tests.sCanReceptionAndExchange20 : State := (((fun s : State => s.setCanFld 0 0x204 28 0 (fld (s.xrec 0 4) 28 0)) ((fun s : State => s.srf .can .A (0x1000 * 0 + 0x200) 26 26 (Bool.toNat (bitAt (s.xrec 0 4) 31))) ((((site.srf .iox .A (0x100 + 0x20 * 0) 7 7 1).srf .iox .A (0x100 + 0x20 * 0) 1 0 0).srf .iox .A 0 0 0 1).srf .can .A (0x1000 * 0 + 0x200) 31 31 (Bool.toNat (true))))).mCan 0 fun z' => { z' with shadow := none }).srf .can .A 0x200 19 16 8
def Sys2Proof.Tests.sCanReceptionAndExchange21 : State := ((fun s : State => s.setCanFld 0 0x204 28 0 (fld (s.xrec 4 4) 28 0)) ((fun s : State => s.srf .can .A (0x1000 * 0 + 0x200) 26 26 (Bool.toNat (bitAt (s.xrec 4 4) 31))) ((((site.srf .iox .A (0x100 + 0x20 * 4) 7 7 1).srf .iox .A (0x100 + 0x20 * 4) 1 0 0).srf .iox .A 0 0 0 1).srf .can .A (0x1000 * 0 + 0x200) 31 31 (Bool.toNat (true))))).srf .can .A 0x200 19 16 8
def Sys2Proof.Tests.sCanReceptionAndExchange23 : State := ((fun s : State => ((s.srf .iox .A (0x100 + 0x20 * 3) 7 7 1).srf .iox .A (0x100 + 0x20 * 3) 1 0 (fld (s.xrec 3 0) 1 0)).srf .iox .A 0 (fld (s.xrec 3 0) 1 0) (fld (s.xrec 3 0) 1 0) 1) ((fun s : State => s.srf .iox .A (0x100 + 0x20 * 3 + 0) 1 0 (fld (s.xrec 3 0) 1 0)) site)).mTck .A fun z' => { z' with tick := 100000 + 0 }

/-- Every hypothesis of CanReceptionAndExchange is met, clause by clause. -/
theorem Sys2Proof.Tests.witness_CanReceptionAndExchange :
    (∃ (s : State) (n : Nat) (k : Nat) (c : Nat) (f : CanFrame), n < 4 ∧ s.pll.ref ≠ 2 ∧ s.canFld n 0 31 31 = 0 ∧ s.canFld n 0x0C 31 30 < 2 ∧ ((f.fdf = true → s.canFld n 0 29 29 = 1)) ∧ s.filterFor n f = some k ∧ s.canFld n 0x200 31 31 = 0) ∧
    (∃ (s : State) (n : Nat) (k : Nat) (c : Nat) (f : CanFrame), n < 4 ∧ s.pll.ref ≠ 2 ∧ s.canFld n 0 31 31 = 0 ∧ s.canFld n 0x0C 31 30 < 2 ∧ ((f.fdf = true → s.canFld n 0 29 29 = 1)) ∧ s.filterFor n f = some k ∧ s.canFld n 0x200 31 31 = 1 ∧ (s.canS n).shadow = none) ∧
    (∃ (s : State) (n : Nat) (k : Nat) (c : Nat) (f : CanFrame), n < 4 ∧ s.pll.ref ≠ 2 ∧ s.canFld n 0 31 31 = 0 ∧ s.canFld n 0x0C 31 30 < 2 ∧ ((f.fdf = true → s.canFld n 0 29 29 = 1)) ∧ s.filterFor n f = some k ∧ s.canFld n 0x200 31 31 = 1 ∧ (s.canS n).shadow ≠ none) ∧
    (∃ (s : State) (n : Nat) (c : Nat) (f : CanFrame), n < 4 ∧ s.pll.ref ≠ 2 ∧ s.canFld n 0 31 31 = 0 ∧ s.canFld n 0x0C 31 30 < 2 ∧ ((f.fdf = true → s.canFld n 0 29 29 = 1)) ∧ s.filterFor n f = none) ∧
    (∃ (s : State) (n : Nat) (c : Nat) (f : CanFrame), (s.pll.ref = 2 ∨ s.canFld n 0 31 31 = 1 ∨ 2 ≤ s.canFld n 0x0C 31 30)) ∧
    (∃ (s : State) (h : Half) (n : Nat), n < 4 ∧ s.ref.token = some h ∧ s.canOwned n = false ∧ (s.canS n).shadow = none) ∧
    (∃ (s : State) (h : Half) (n : Nat) (k : Nat) (a : Nat) (f : CanFrame), n < 4 ∧ s.ref.token = some h ∧ s.canOwned n = false ∧ (s.canS n).shadow = some (f, k, a) ∧ k < 32) ∧
    (∃ (s : State) (n : Nat) (m : Nat), n < 4 ∧ s.canFld n 0x0C 31 30 < 2 ∧ m = (if 127 < s.canFld n 0x0C 20 12 ∨ 127 < s.canFld n 0x0C 11 4 then 1 else 0) ∧ m ≠ s.canFld n 0x0C 31 30) ∧
    (∃ (s : State) (n : Nat), (2 ≤ s.canFld n 0x0C 31 30 ∨ s.canFld n 0x0C 31 30 = (if 127 < s.canFld n 0x0C 20 12 ∨ 127 < s.canFld n 0x0C 11 4 then 1 else 0))) ∧
    (∃ (s : State) (n : Nat), n < 4 ∧ 256 ≤ s.canFld n 0x0C 20 12 ∧ s.canFld n 0x0C 31 30 < 2) ∧
    (∃ (s : State) (n : Nat), (s.canFld n 0x0C 20 12 < 256 ∨ 2 ≤ s.canFld n 0x0C 31 30)) ∧
    (∃ (s : State) (h : Half) (n : Nat), n < 4 ∧ s.ref.token = some h ∧ s.canOwned n = false ∧ s.canFld n 0x0C 31 30 = 2) ∧
    (∃ (s : State) (h : Half) (n : Nat), n < 4 ∧ s.canFld n 0x0C 31 30 = 3) ∧
    (∃ (s : State) (h : Half) (n : Nat), s.canFld n 0x0C 31 30 ≠ 3) ∧
    (∃ (s : State) (h : Half) (n : Nat) (c : Nat), n < 4 ∧ s.ref.token = some h ∧ s.canOwned n = false ∧ s.canFld n 0 31 31 = 0 ∧ s.canFld n 0 30 30 = 1 ∧ c < 8 ∧ (s.canReg n 0x400).toNat.testBit c = true ∧ (∀ d < c, (s.canReg n 0x400).toNat.testBit d = false)) ∧
    (∃ (s : State) (h : Half) (n : Nat), n < 4 ∧ s.ref.token = some h ∧ s.canOwned n = false) ∧
    (∃ (s : State) (n : Nat) (c : Nat), n < 4 ∧ s.canFld n 0x404 31 30 = 1 ∧ (s.canS n).cand < c ∧ c < 8 ∧ (s.canReg n 0x400).toNat.testBit c = true ∧ ((∀ d, (s.canS n).cand < d → d < c → (s.canReg n 0x400).toNat.testBit d = false))) ∧
    (∃ (s : State) (n : Nat) (c : Nat), n < 4 ∧ s.canFld n 0x404 31 30 = 1 ∧ ((∀ d, (s.canS n).cand < d → d < 8 → (s.canReg n 0x400).toNat.testBit d = false)) ∧ c < 8 ∧ (s.canReg n 0x400).toNat.testBit c = true ∧ (∀ d < c, (s.canReg n 0x400).toNat.testBit d = false)) ∧
    (∃ (s : State) (n : Nat) (c : Nat), n < 4 ∧ s.canFld n 0x404 31 30 = 1 ∧ c = (s.canS n).cand ∧ c < 8 ∧ (s.canReg n 0x400).toNat.testBit c = true) ∧
    (∃ (s : State) (h : Half) (n : Nat) (r : Nat) (d : List Nat) (a : Int) (b : Int), s.charge = some h ∧ n < 4 ∧ s.xrecOn r n = true ∧ bitAt (s.canReg n 0x200) 31 = true ∧ bitAt (s.canReg n 0x200) 26 = bitAt (s.xrec r 4) 31 ∧ s.canFld n 0x204 28 0 = fld (s.xrec r 4) 28 0 ∧ d = ((List.range 16).flatMap fun i => le 4 (s.canReg n (0x240 + 4 * i)).toNat).take (dlcLen (bitAt (s.canReg n 0x200) 28) (fld (s.canReg n 0x200) 19 16)) ∧ xField d (fld (s.xrec r 8) 15 0) = some a ∧ xField d (fld (s.xrec r 8) 31 16) = some b ∧ r < 4 ∧ (s.canS n).shadow = none) ∧
    (∃ (s : State) (h : Half) (n : Nat) (r : Nat) (d : List Nat) (a : Int), s.charge = some h ∧ n < 4 ∧ s.xrecOn r n = true ∧ bitAt (s.canReg n 0x200) 31 = true ∧ bitAt (s.canReg n 0x200) 26 = bitAt (s.xrec r 4) 31 ∧ s.canFld n 0x204 28 0 = fld (s.xrec r 4) 28 0 ∧ d = ((List.range 16).flatMap fun i => le 4 (s.canReg n (0x240 + 4 * i)).toNat).take (dlcLen (bitAt (s.canReg n 0x200) 28) (fld (s.canReg n 0x200) 19 16)) ∧ xField d (fld (s.xrec r 8) 15 0) = some a ∧ 4 ≤ r) ∧
    (∃ (s : State) (n : Nat) (r : Nat), (s.charge = none ∨ s.xrecOn r n = false ∨ bitAt (s.canReg n 0x200) 31 = false)) ∧
    (∃ (s : State) (h : Half) (n : Nat) (r : Nat), s.charge = some h ∧ n = fld (s.xrec r 0) 1 0 ∧ s.xrecOn r n = true ∧ s.now % (200 * max 1 (fld (s.xrec r 0) 15 8)) = 0) ∧
    (∃ (s : State) (r : Nat), (s.charge = none ∨ s.xrecOn r (fld (s.xrec r 0) 1 0) = false ∨ s.now % (200 * max 1 (fld (s.xrec r 0) 15 8)) ≠ 0)) ∧
    (∃ (s : State) (h : Half) (n : Nat) (r : Nat) (i : Nat) (e : Nat) (d : List Nat), s.charge = some h ∧ n < 4 ∧ s.canOwned n = true ∧ s.tstat n 1 ≠ 1 ∧ s.tstat n 1 ≠ 2 ∧ r < 8 ∧ look none (s.canS n).queue r = some (i, e, d) ∧ (∀ q < r, look none (s.canS n).queue q = none)) ∧
    (∃ (s : State) (n : Nat), (s.charge = none ∨ s.canOwned n = false ∨ s.tstat n 1 = 1 ∨ s.tstat n 1 = 2 ∨ (∀ q < 8, look none (s.canS n).queue q = none))) :=
   ⟨⟨(((((fun s : State => { s with pll.ref := 3 }) site).setCanFld 0 0x0C 31 30 (1)).setCanFld 0 0 31 31 (0)).setCanFld 0 0x200 31 31 (0)).srg .can .A 0x300 0x80000000, 0, 0, 0, { id := 0, ide := false, fdf := false, brs := false, rtr := false, esi := false, dlc := 8, data := List.replicate 8 0, ofs := 0 }, by decide +kernel⟩,
    ⟨((((((fun s : State => { s with pll.ref := 3 }) site).setCanFld 0 0x0C 31 30 (1)).setCanFld 0 0 31 31 (0)).setCanFld 0 0x200 31 31 (1)).mCan 0 fun z' => { z' with shadow := none }).srg .can .A 0x300 0x80000000, 0, 0, 0, { id := 0, ide := false, fdf := false, brs := false, rtr := false, esi := false, dlc := 8, data := List.replicate 8 0, ofs := 0 }, by decide +kernel⟩,
    ⟨((((((fun s : State => { s with pll.ref := 3 }) site).setCanFld 0 0x0C 31 30 (1)).setCanFld 0 0 31 31 (0)).setCanFld 0 0x200 31 31 (1)).srg .can .A 0x300 0x80000000).mCan 0 fun q => { q with shadow := some ({ id := 0, ide := false, fdf := false, brs := false, rtr := false, esi := false, dlc := 8, data := [], ofs := 0 }, 0, 5) }, 0, 0, 0, { id := 0, ide := false, fdf := false, brs := false, rtr := false, esi := false, dlc := 8, data := List.replicate 8 0, ofs := 0 }, by decide +kernel⟩,
    ⟨(((fun s : State => { s with pll.ref := 3 }) site).setCanFld 0 0x0C 31 30 (1)).setCanFld 0 0 31 31 (0), 0, 0, { id := 0, ide := false, fdf := false, brs := false, rtr := false, esi := false, dlc := 8, data := List.replicate 8 0, ofs := 0 }, by decide +kernel⟩,
    ⟨(fun s : State => { s with pll.ref := 2 }) site, 0, 0, { id := 0, ide := false, fdf := false, brs := false, rtr := false, esi := false, dlc := 8, data := List.replicate 8 0, ofs := 0 }, by decide +kernel⟩,
    ⟨((fun s : State => (s).srf .iox .A 0 0 0 (Bool.toNat (false))) site).mCan 0 fun z' => { z' with shadow := none }, Half.A, 0, by decide +kernel⟩,
    ⟨((fun s : State => (s).srf .iox .A 0 0 0 (Bool.toNat (false))) site).mCan 0 fun z' => { z' with shadow := some (({ id := 0, ide := false, fdf := false, brs := false, rtr := false, esi := false, dlc := 8, data := List.replicate 8 0, ofs := 0 } : CanFrame), 0, 0) }, Half.A, 0, 0, 0, { id := 0, ide := false, fdf := false, brs := false, rtr := false, esi := false, dlc := 8, data := List.replicate 8 0, ofs := 0 }, by decide +kernel⟩,
    ⟨sCanReceptionAndExchange7, 0, (if 127 < sCanReceptionAndExchange7.canFld 0 0x0C 20 12 ∨ 127 < sCanReceptionAndExchange7.canFld 0 0x0C 11 4 then 1 else 0), by decide +kernel⟩,
    ⟨site.setCanFld 0 0x0C 31 30 (2), 0, by decide +kernel⟩,
    ⟨(site.setCanFld 0 0x0C 20 12 (256)).setCanFld 0 0x0C 31 30 (1), 0, by decide +kernel⟩,
    ⟨site.setCanFld 0 0x0C 20 12 (255), 0, by decide +kernel⟩,
    ⟨((fun s : State => (s).srf .iox .A 0 0 0 (Bool.toNat (false))) site).setCanFld 0 0x0C 31 30 (2), Half.A, 0, by decide +kernel⟩,
    ⟨site.setCanFld 0 0x0C 31 30 (3), Half.A, 0, by decide +kernel⟩,
    ⟨site.setCanFld 0 0x0C 31 30 (4), Half.A, 0, by decide +kernel⟩,
    ⟨((((fun s : State => (s).srf .iox .A 0 0 0 (Bool.toNat (false))) site).setCanFld 0 0 31 31 (0)).setCanFld 0 0 30 30 (1)).srf .can .A (0x1000 * 0 + 0x400) 0 0 (Bool.toNat (true)), Half.A, 0, 0, by decide +kernel⟩,
    ⟨(fun s : State => (s).srf .iox .A 0 0 0 (Bool.toNat (false))) site, Half.A, 0, by decide +kernel⟩,
    ⟨(site.setCanFld 0 0x404 31 30 (1)).srf .can .A (0x1000 * 0 + 0x400) 1 1 (Bool.toNat (true)), 0, 1, by decide +kernel, by decide +kernel, by decide +kernel, by decide +kernel, by decide +kernel, below_of (by decide +kernel)⟩,
    ⟨(site.setCanFld 0 0x404 31 30 (1)).srf .can .A (0x1000 * 0 + 0x400) 0 0 (Bool.toNat (true)), 0, 0, by decide +kernel, by decide +kernel, below_of (by decide +kernel), by decide +kernel⟩,
    ⟨sCanReceptionAndExchange18, 0, (sCanReceptionAndExchange18.canS 0).cand, by decide +kernel⟩,
    ⟨sCanReceptionAndExchange20, Half.A, 0, 0, ((List.range 16).flatMap fun i => le 4 (sCanReceptionAndExchange20.canReg 0 (0x240 + 4 * i)).toNat).take (dlcLen (bitAt (sCanReceptionAndExchange20.canReg 0 0x200) 28) (fld (sCanReceptionAndExchange20.canReg 0 0x200) 19 16)), (xField (((List.range 16).flatMap fun i => le 4 (sCanReceptionAndExchange20.canReg 0 (0x240 + 4 * i)).toNat).take (dlcLen (bitAt (sCanReceptionAndExchange20.canReg 0 0x200) 28) (fld (sCanReceptionAndExchange20.canReg 0 0x200) 19 16)) : List Nat) (fld (sCanReceptionAndExchange20.xrec 0 8) 15 0)).getD 0, (xField (((List.range 16).flatMap fun i => le 4 (sCanReceptionAndExchange20.canReg 0 (0x240 + 4 * i)).toNat).take (dlcLen (bitAt (sCanReceptionAndExchange20.canReg 0 0x200) 28) (fld (sCanReceptionAndExchange20.canReg 0 0x200) 19 16)) : List Nat) (fld (sCanReceptionAndExchange20.xrec 0 8) 31 16)).getD 0, by decide +kernel⟩,
    ⟨sCanReceptionAndExchange21, Half.A, 0, 4, ((List.range 16).flatMap fun i => le 4 (sCanReceptionAndExchange21.canReg 0 (0x240 + 4 * i)).toNat).take (dlcLen (bitAt (sCanReceptionAndExchange21.canReg 0 0x200) 28) (fld (sCanReceptionAndExchange21.canReg 0 0x200) 19 16)), (xField (((List.range 16).flatMap fun i => le 4 (sCanReceptionAndExchange21.canReg 0 (0x240 + 4 * i)).toNat).take (dlcLen (bitAt (sCanReceptionAndExchange21.canReg 0 0x200) 28) (fld (sCanReceptionAndExchange21.canReg 0 0x200) 19 16)) : List Nat) (fld (sCanReceptionAndExchange21.xrec 4 8) 15 0)).getD 0, by decide +kernel⟩,
    ⟨site, 0, 3, by decide +kernel⟩,
    ⟨sCanReceptionAndExchange23, Half.A, fld (sCanReceptionAndExchange23.xrec 3 0) 1 0, 3, by decide +kernel⟩,
    ⟨site, 3, by decide +kernel⟩,
    ⟨(fun s : State => s.mCan 0 fun z' => { z' with queue := Machine.put none (s.canS 0).queue 3 (some (0, 0, ([] : List Nat))) }) ((fun s : State => (s).srf .iox .A 0 0 0 (Bool.toNat (true))) ((site.setTstat 0 1 (2)).setTstat 0 1 (3))), Half.A, 0, 3, 0, 0, [], by decide +kernel⟩,
    ⟨site, 0, by decide +kernel⟩⟩

def Sys2Proof.Tests.sLoadSwitches29 : State := (site.setLswF 0 0 29 28 (1)).setLswF 0 0 27 27 (0)
def Sys2Proof.Tests.sLoadSwitches30 : State := (fun s : State => s.srf .lsw .A (0x208 + 0x10 * (0 / 4)) 15 0 (s.rf .lsw .A (0x208 + 0x10 * (0 / 4)) 15 0)) (((site.setLswF 0 0 29 28 (1)).srf .lsw .A (0x208 + 0x10 * (0 / 4)) 15 0 (0 + 1)).setLswF 0 0 27 27 (1))
def Sys2Proof.Tests.sLoadSwitches33 : State := ((fun s : State => (s).srf .lsw .A (0x204 + 0x10 * 0) 31 31 (Bool.toNat (false))) site).mLswG 0 fun z' => { z' with hold := 0 }

/-- Every hypothesis of LoadSwitches is met, clause by clause. -/
theorem Sys2Proof.Tests.witness_LoadSwitches :
    (∃ (s : State) (h : Half) (c : Nat) (m : Nat), c < 16 ∧ s.ref.token ≠ some h) ∧
    (∃ (s : State) (h : Half) (c : Nat), c < 16 ∧ s.ref.token ≠ some h) ∧
    (∃ (s : State) (h : Half) (c : Nat), c < 16 ∧ s.ref.token ≠ some h) ∧
    (∃ (s : State) (h : Half) (c : Nat) (m : Nat), c < 16 ∧ s.ref.token = some h ∧ m < 3 ∧ s.lswSt c = 0 ∧ s.lswUv (c / 4) = false ∧ bitAt (s.lswR c 0) 26 = false) ∧
    (∃ (s : State) (h : Half) (c : Nat) (m : Nat), c < 16 ∧ s.ref.token = some h ∧ m < 3 ∧ s.lswSt c = 0 ∧ s.lswUv (c / 4) = true) ∧
    (∃ (s : State) (h : Half) (c : Nat), c < 16 ∧ s.ref.token = some h ∧ s.lswSt c ≠ 4) ∧
    (∃ (s : State) (h : Half) (c : Nat) (m : Nat), c < 16 ∧ s.ref.token = some h ∧ m < 3 ∧ s.lswSt c = 4 ∧ bitAt (s.lswR c 0) 26 = false) ∧
    (∃ (s : State) (h : Half) (c : Nat), c < 16 ∧ s.ref.token = some h ∧ s.lswSt c ≠ 4) ∧
    (∃ (s : State) (h : Half) (c : Nat), c < 16 ∧ s.ref.token = some h ∧ s.lswSt c = 4 ∧ bitAt (s.lswR c 0) 26 = false) ∧
    (∃ (s : State) (h : Half) (c : Nat), c < 16 ∧ s.ref.token = some h ∧ s.lswSt c = 4) ∧
    (∃ (s : State) (c : Nat) (i : Nat), c < 16 ∧ s.lswSt c = 1 ∧ (s.lswC c).since + 20 * (s.lswC c).tinr ≤ s.now) ∧
    (∃ (s : State) (c : Nat) (i : Nat), (16 ≤ c ∨ s.lswSt c ≠ 1 ∨ s.now < (s.lswC c).since + 20 * (s.lswC c).tinr)) ∧
    (∃ (s : State) (c : Nat), c < 16 ∧ s.lswSt c = 3 ∧ (s.lswC c).since + 200 ≤ s.now) ∧
    (∃ (s : State) (c : Nat) (i : Nat), c < 16 ∧ (s.lswSt c = 1 ∨ s.lswSt c = 2)) ∧
    (∃ (s : State) (c : Nat), c < 16 ∧ s.lswEn c = true ∧ s.lswSt c ≠ 4 ∧ s.lswSt c ≠ 5) ∧
    (∃ (s : State) (c : Nat), c < 16 ∧ s.lswSt c = 5) ∧
    (∃ (s : State) (g : Nat), g < 4 ∧ s.lswUv g = false ∧ s.rf .lsw .A (0x204 + 0x10 * g) 15 0 < 1050) ∧
    (∃ (s : State) (g : Nat), g < 4 ∧ s.lswUv g = true ∧ 1150 < s.rf .lsw .A (0x204 + 0x10 * g) 15 0) ∧
    (∃ (s : State) (a : Nat) (c : Nat), 24000 < a ∧ c < 16 ∧ s.lswOn c = true ∧ s.lswF c 0 30 30 = 0 ∧ ((∀ d, c < d → d < 16 → s.lswOn d = false ∨ s.lswF d 0 30 30 = 1)) ∧ ((∀ u, s.lsw.shed = some u → u + 2000 ≤ s.now))) ∧
    (∃ (s : State) (a : Nat) (u : Nat), 24000 < a ∧ s.lsw.shed = some u ∧ s.now < u + 2000 ∧ s.lsw.overload = true) ∧
    (∃ (s : State) (a : Nat), a ≤ 24000) ∧
    (∃ (s : State) (c : Nat) (b : Bool), c < 16 ∧ s.lswSt c = 2 ∧ (s.lswC c).olTh ≠ 0 ∧ s.lswF c 0x0C 26 26 ≠ b2n b) ∧
    (∃ (s : State) (c : Nat) (b : Bool), (s.lswSt c ≠ 2 ∨ (s.lswC c).olTh = 0 ∨ s.lswF c 0x0C 26 26 = b2n b)) ∧
    (∃ (s : State), s.now % 200 = 0) ∧
    (∃ (s : State), s.now % 200 ≠ 0) ∧
    (∃ (s : State) (h : Half), s.ref.token = some h) ∧
    (∃ (s : State), s.ref.token = none) ∧
    (∃ (s : State) (c : Nat) (d : Nat), c < 16 ∧ (s.lswF c 0 29 28 = 1 ∨ s.lswF c 0 29 28 = 2) ∧ d = (if s.lswF c 0 29 28 = 1 then s.lswF c 8 14 0 else (s.lswC c).duty) ∧ d < 32768 ∧ s.lswF c 0 27 27 = 0) ∧
    (∃ (s : State) (c : Nat) (d : Nat) (vf : Nat) (vn : Nat), c < 16 ∧ (s.lswF c 0 29 28 = 1 ∨ s.lswF c 0 29 28 = 2) ∧ d = (if s.lswF c 0 29 28 = 1 then s.lswF c 8 14 0 else (s.lswC c).duty) ∧ s.lswF c 0 27 27 = 1 ∧ vf = s.rf .lsw .A (0x208 + 0x10 * (c / 4)) 15 0 ∧ 0 < vf ∧ vn = 10 * max 120 (min 320 (s.rf .lsw .A (0x200 + 0x10 * (c / 4)) 31 16))) ∧
    (∃ (s : State) (c : Nat), c < 16 ∧ (s.lswF c 0 29 28 = 1 ∨ s.lswF c 0 29 28 = 2) ∧ s.lswF c 0 27 27 = 1 ∧ s.rf .lsw .A (0x208 + 0x10 * (c / 4)) 15 0 = 0) ∧
    (∃ (s : State) (c : Nat), (s.lswF c 0 29 28 = 0 ∨ s.lswF c 0 29 28 = 3)) ∧
    (∃ (s : State) (g : Nat) (v : Nat) (cs : List Nat) (ls : List Bool) (w : List Nat), g < 4 ∧ s.lswUv g = false ∧ (∀ k < 4, ls.getD k false = false) ∧ (s.lswG g).hold = 0 ∧ w = (min 0xFFFF v :: (s.lswG g).vs).take 50) ∧
    (∃ (s : State) (g : Nat) (v : Nat) (cs : List Nat) (ls : List Bool), g < 4 ∧ s.lswUv g = true) ∧
    (∃ (s : State) (g : Nat) (v : Nat) (cs : List Nat) (ls : List Bool), g < 4 ∧ s.lswUv g = false ∧ (∀ k < 4, ls.getD k false = false) ∧ 0 < (s.lswG g).hold) ∧
    (∃ (s : State) (g : Nat) (v : Nat) (k : Nat) (cs : List Nat) (ls : List Bool), g < 4 ∧ k < 4 ∧ s.lswOn (4 * g + k) = true ∧ ls.getD k false = true) :=
   ⟨⟨site, Half.B, 0, 0, by decide +kernel⟩,
    ⟨site, Half.B, 0, by decide +kernel⟩,
    ⟨site, Half.B, 0, by decide +kernel⟩,
    ⟨((fun s : State => (s).srf .lsw .A (0x204 + 0x10 * (0 / 4)) 31 31 (Bool.toNat (false))) (site.setLswF 0 0x0C 31 29 (0))).srf .lsw .A (0x20 * 0 + 0) 26 26 (Bool.toNat (false)), Half.A, 0, 0, by decide +kernel⟩,
    ⟨(fun s : State => (s).srf .lsw .A (0x204 + 0x10 * (0 / 4)) 31 31 (Bool.toNat (true))) (site.setLswF 0 0x0C 31 29 (0)), Half.A, 0, 0, by decide +kernel⟩,
    ⟨site.setLswF 0 0x0C 31 29 (5), Half.A, 0, by decide +kernel⟩,
    ⟨(site.setLswF 0 0x0C 31 29 (4)).srf .lsw .A (0x20 * 0 + 0) 26 26 (Bool.toNat (false)), Half.A, 0, 0, by decide +kernel⟩,
    ⟨site.setLswF 0 0x0C 31 29 (5), Half.A, 0, by decide +kernel⟩,
    ⟨(site.setLswF 0 0x0C 31 29 (4)).srf .lsw .A (0x20 * 0 + 0) 26 26 (Bool.toNat (false)), Half.A, 0, by decide +kernel⟩,
    ⟨site.setLswF 0 0x0C 31 29 (4), Half.A, 0, by decide +kernel⟩,
    ⟨site.setLswF 0 0x0C 31 29 (1), 0, 0, by decide +kernel⟩,
    ⟨site.setLswF 0 0x0C 31 29 (2), 0, 0, by decide +kernel⟩,
    ⟨site.setLswF 0 0x0C 31 29 (3), 0, by decide +kernel⟩,
    ⟨site.setLswF 0 0x0C 31 29 (1), 0, 0, by decide +kernel⟩,
    ⟨(((site.setLswF 0 0x0C 31 29 (5)).setLswF 0 0x0C 31 29 (6)).setLswF 0 0 31 31 1).setLswF 0 0 29 28 0, 0, by decide +kernel⟩,
    ⟨site.setLswF 0 0x0C 31 29 (5), 0, by decide +kernel⟩,
    ⟨(fun s : State => (s).srf .lsw .A (0x204 + 0x10 * 0) 31 31 (Bool.toNat (false))) (site.srf .lsw .A (0x204 + 0x10 * 0) 15 0 (1049)), 0, by decide +kernel⟩,
    ⟨(fun s : State => (s).srf .lsw .A (0x204 + 0x10 * 0) 31 31 (Bool.toNat (true))) (site.srf .lsw .A (0x204 + 0x10 * 0) 15 0 (1150 + 1)), 0, by decide +kernel⟩,
    ⟨(site.setLswF 0 0x0C 31 29 2).setLswF 0 0 30 30 0, 24001, 0, by decide +kernel, by decide +kernel, by decide +kernel, by decide +kernel, below_of (by decide +kernel), all_some (by decide +kernel)⟩,
    ⟨(fun s : State => { s with lsw.overload := true }) ((fun s : State => { s with lsw.shed := some 98001 }) site), 24001, 98001, by decide +kernel⟩,
    ⟨site, 0, by decide +kernel⟩,
    ⟨site.setLswF 0 0x0C 31 29 2, 0, true, by decide +kernel⟩,
    ⟨site.setLswF 0 0x0C 31 29 (3), 0, true, by decide +kernel⟩,
    ⟨site.mTck .A fun z' => { z' with tick := 100000 + 0 }, by decide +kernel⟩,
    ⟨site.mTck .A fun z' => { z' with tick := 100000 + 1 }, by decide +kernel⟩,
    ⟨site, Half.A, by decide +kernel⟩,
    ⟨(fun s : State => { s with ref.token := none }) site, by decide +kernel⟩,
    ⟨sLoadSwitches29, 0, (if sLoadSwitches29.lswF 0 0 29 28 = 1 then sLoadSwitches29.lswF 0 8 14 0 else (sLoadSwitches29.lswC 0).duty), by decide +kernel⟩,
    ⟨sLoadSwitches30, 0, (if sLoadSwitches30.lswF 0 0 29 28 = 1 then sLoadSwitches30.lswF 0 8 14 0 else (sLoadSwitches30.lswC 0).duty), sLoadSwitches30.rf .lsw .A (0x208 + 0x10 * (0 / 4)) 15 0, 10 * max 120 (min 320 (sLoadSwitches30.rf .lsw .A (0x200 + 0x10 * (0 / 4)) 31 16)), by decide +kernel⟩,
    ⟨((site.setLswF 0 0 29 28 (1)).setLswF 0 0 27 27 (1)).srf .lsw .A (0x208 + 0x10 * (0 / 4)) 15 0 (0), 0, by decide +kernel⟩,
    ⟨site.setLswF 0 0 29 28 (0), 0, by decide +kernel⟩,
    ⟨sLoadSwitches33, 0, 0, [], [], (min 0xFFFF 0 :: (sLoadSwitches33.lswG 0).vs).take 50, by decide +kernel⟩,
    ⟨(fun s : State => (s).srf .lsw .A (0x204 + 0x10 * 0) 31 31 (Bool.toNat (true))) site, 0, 0, [], [], by decide +kernel⟩,
    ⟨(fun s : State => (s).srf .lsw .A (0x204 + 0x10 * 0) 31 31 (Bool.toNat (false))) (site.mLswG 0 fun z' => { z' with hold := 0 + 1 }), 0, 0, [], [], by decide +kernel⟩,
    ⟨site.setLswF (4 * 0 + 0) 0x0C 31 29 (if true then 2 else 0), 0, 0, 0, [], [true], by decide +kernel⟩⟩

def Sys2Proof.Tests.sHoldUpAndPowerStates37 : State := (fun s : State => s.srf .pwr .A 0x04 15 0 ((s.rf .pwr .A 0x04 15 0))) ((((fun s : State => { s with rtc := s.pwr.entered + 32768 * (s.rf .pwr .A 0x04 15 0) }) (site.srf .pwr .A 0x04 15 0 (0 + 1))).srf .pwr .A 8 31 29 (1)).srf .pwr .A 8 31 29 (4))
def Sys2Proof.Tests.sHoldUpAndPowerStates41 : State := (fun s : State => s.srf .tck Half.A 0 23 16 (s.rf .tck Half.A 0 23 16)) (site.srf .tck Half.A 0 30 30 (Bool.toNat (true)))

/-- Every hypothesis of HoldUpAndPowerStates is met, clause by clause. -/
theorem Sys2Proof.Tests.witness_HoldUpAndPowerStates :
    (∃ (s : State) (n : Nat), s.pwr.up = true ∧ 10000 ≤ n) ∧
    (∃ (s : State) (n : Nat), (s.pwr.up = false ∨ n ≤ 1000)) ∧
    (∃ (s : State) (n : Nat), s.pwr.up = true ∧ 1000 < n ∧ n < 10000) ∧
    (∃ (s : State), s.pwr.up = true ∧ s.rb .pwr .A 0 9 = false ∧ s.rb .pwr .A 0 8 = false ∧ s.pwr.vhSwitch = true ∧ s.rb .pwr .A 0 2 = false) ∧
    (∃ (s : State), (s.pwr.up = false ∨ s.rb .pwr .A 0 9 = true ∨ s.rb .pwr .A 0 8 = true ∨ s.pwr.vhSwitch = false ∨ s.rb .pwr .A 0 2 = true)) ∧
    (∃ (s : State) (v : Nat), s.pwr.step = 2 ∧ v < 80) ∧
    (∃ (s : State) (v : Nat), (s.pwr.step ≠ 2 ∨ 80 ≤ v)) ∧
    (∃ (s : State) (v : Nat), (s.pwr.step ≠ 3 ∨ 60 ≤ v)) ∧
    (∃ (s : State) (v : Nat), s.pwr.step = 3 ∧ v < 60) ∧
    (∃ (s : State), s.pwr.step = 3) ∧
    (∃ (s : State), s.pwr.step = 2) ∧
    (∃ (s : State), s.pwr.step ≠ 2 ∧ s.pwr.step ≠ 3) ∧
    (∃ (s : State), s.pwr.up = false) ∧
    (∃ (s : State), s.pwr.up = true) ∧
    (∃ (s : State) (ms : Nat) (gap : Nat), s.pwr.up = true ∧ (s.pwr.stuck = false ∨ 100 ≤ gap) ∧ 30 ≤ ms ∧ ms < 5000 ∧ s.wakes .button = false) ∧
    (∃ (s : State) (ms : Nat) (gap : Nat), s.pwr.up = true ∧ (s.pwr.stuck = false ∨ 100 ≤ gap) ∧ 30 ≤ ms ∧ ms < 5000 ∧ s.wakes .button = true) ∧
    (∃ (s : State) (ms : Nat) (gap : Nat) (h : Half), s.pwr.up = true ∧ (s.pwr.stuck = false ∨ 100 ≤ gap) ∧ 5000 ≤ ms ∧ ms ≤ 30000 ∧ s.ref.token = some h) ∧
    (∃ (s : State) (ms : Nat) (gap : Nat), s.pwr.up = true ∧ (s.pwr.stuck = false ∨ 100 ≤ gap) ∧ 5000 ≤ ms ∧ ms ≤ 30000 ∧ s.ref.token = none) ∧
    (∃ (s : State) (ms : Nat) (gap : Nat), (s.pwr.up = false ∨ 30000 < ms ∨ (s.pwr.stuck = false ∧ ms < 30))) ∧
    (∃ (s : State) (ms : Nat) (gap : Nat), s.pwr.stuck = true ∧ gap < 100) ∧
    (∃ (s : State) (gap : Nat), s.pwr.up = true ∧ (s.pwr.stuck = false ∨ 100 ≤ gap)) ∧
    (∃ (s : State) (h : Half) (n : Nat), s.ref.token ≠ some h) ∧
    (∃ (s : State) (h : Half) (n : Nat), s.ref.token = some h ∧ (n = 0 ∨ 4 < n)) ∧
    (∃ (s : State) (h : Half) (n : Nat), s.ref.token = some h ∧ 1 ≤ n ∧ n ≤ 4 ∧ s.pstate ≠ 0) ∧
    (∃ (s : State) (h : Half) (n : Nat), s.ref.token = some h ∧ 1 ≤ n ∧ n ≤ 4 ∧ s.pstate = 0 ∧ s.siteIdle = false) ∧
    (∃ (s : State) (h : Half), s.ref.token = some h ∧ s.pstate = 0 ∧ s.siteIdle = true ∧ s.zonesQuiet = false) ∧
    (∃ (s : State) (h : Half) (g : Half), s.ref.token = some h ∧ s.pstate = 0 ∧ s.siteIdle = true ∧ s.zonesQuiet = true ∧ (s.hf g).thm.flashHold = true) ∧
    (∃ (s : State) (h : Half), s.ref.token = some h ∧ s.pstate = 0 ∧ s.siteIdle = true) ∧
    (∃ (s : State) (h : Half) (n : Nat), s.ref.token = some h ∧ (n = 2 ∨ n = 3) ∧ s.pstate = 0 ∧ s.siteIdle = true) ∧
    (∃ (s : State) (h : Half), s.ref.token = some h ∧ s.pstate = 0 ∧ s.siteIdle = true ∧ s.zonesQuiet = true ∧ s.halfA.thm.flashHold = false ∧ s.halfB.thm.flashHold = false) ∧
    (∃ (s : State) (src : WakeSrc), s.wakes src = true ∧ s.pstate = 1) ∧
    (∃ (s : State) (src : WakeSrc), s.wakes src = true ∧ s.pstate = 2) ∧
    (∃ (s : State) (src : WakeSrc), s.wakes src = true ∧ s.pstate = 3) ∧
    (∃ (s : State) (src : WakeSrc), s.wakes src = true ∧ s.pstate = 4) ∧
    (∃ (s : State) (n : Nat), s.rf .pwr .A 0x04 15 0 = n ∧ 0 < n ∧ s.pwr.entered + 32768 * n ≤ s.rtc ∧ 1 ≤ s.pstate ∧ s.pstate ≤ 4) ∧
    (∃ (s : State), (s.rf .pwr .A 0x04 15 0 = 0 ∨ s.rtc < s.pwr.entered + 32768 * s.rf .pwr .A 0x04 15 0 ∨ s.pstate = 0 ∨ 4 < s.pstate)) ∧
    (∃ (s : State), s.pwr.batt = 1 ∧ s.pwr.battAt + 3600 * 32768 * s.rf .met .A 0x704 7 0 ≤ s.rtc) ∧
    (∃ (s : State), (s.pwr.batt ≠ 1 ∨ s.rtc < s.pwr.battAt + 3600 * 32768 * s.rf .met .A 0x704 7 0)) ∧
    (∃ (s : State) (h : Half) (d : Nat) (u : Nat) (n : Nat) (v : Bool) (a : Bool), s.rb .tck h 0 30 = true ∧ d = s.rf .tck h 0 23 16) ∧
    (∃ (s : State) (h : Half) (d : Nat) (u : Nat) (n : Nat) (v : Bool) (a : Bool), (s.rb .tck h 0 30 = false ∨ d ≠ s.rf .tck h 0 23 16)) :=
   ⟨⟨(fun s : State => { s with pwr.up := true }) site, 10000, by decide +kernel⟩,
    ⟨(fun s : State => { s with pwr.up := false }) site, 0, by decide +kernel⟩,
    ⟨(fun s : State => { s with pwr.up := true }) site, 1001, by decide +kernel⟩,
    ⟨((fun s : State => { s with pwr.vhSwitch := true }) ((((fun s : State => { s with pwr.up := true }) site).srf .pwr .A 0 9 9 (Bool.toNat (false))).srf .pwr .A 0 8 8 (Bool.toNat (false)))).srf .pwr .A 0 2 2 (Bool.toNat (false)), by decide +kernel⟩,
    ⟨(fun s : State => { s with pwr.up := false }) site, by decide +kernel⟩,
    ⟨(fun s : State => { s with pwr.step := 2 }) site, 0, by decide +kernel⟩,
    ⟨(fun s : State => { s with pwr.step := 3 }) site, 0, by decide +kernel⟩,
    ⟨(fun s : State => { s with pwr.step := 4 }) site, 0, by decide +kernel⟩,
    ⟨(fun s : State => { s with pwr.step := 3 }) site, 0, by decide +kernel⟩,
    ⟨(fun s : State => { s with pwr.step := 3 }) site, by decide +kernel⟩,
    ⟨(fun s : State => { s with pwr.step := 2 }) site, by decide +kernel⟩,
    ⟨(fun s : State => { s with pwr.step := 4 }) ((fun s : State => { s with pwr.step := 3 }) site), by decide +kernel⟩,
    ⟨(fun s : State => { s with pwr.up := false }) site, by decide +kernel⟩,
    ⟨(fun s : State => { s with pwr.up := true }) site, by decide +kernel⟩,
    ⟨(fun s : State => { s with pwr.up := true }) ((fun s : State => { s with pwr.stuck := false }) site), 30, 0, by decide +kernel⟩,
    ⟨((fun s : State => { s with pwr.up := true }) ((fun s : State => { s with pwr.stuck := false }) site)).srf .pwr .A 8 31 29 1, 30, 0, by decide +kernel⟩,
    ⟨(fun s : State => { s with pwr.up := true }) ((fun s : State => { s with pwr.stuck := false }) site), 5000, 0, Half.A, by decide +kernel⟩,
    ⟨(fun s : State => { s with ref.token := none }) ((fun s : State => { s with pwr.up := true }) ((fun s : State => { s with pwr.stuck := false }) site)), 5000, 0, by decide +kernel⟩,
    ⟨(fun s : State => { s with pwr.up := false }) site, 0, 0, by decide +kernel⟩,
    ⟨(fun s : State => { s with pwr.stuck := true }) site, 0, 0, by decide +kernel⟩,
    ⟨(fun s : State => { s with pwr.up := true }) ((fun s : State => { s with pwr.stuck := false }) site), 0, by decide +kernel⟩,
    ⟨site, Half.B, 0, by decide +kernel⟩,
    ⟨site, Half.A, 0, by decide +kernel⟩,
    ⟨site.srf .pwr .A 8 31 29 (1), Half.A, 1, by decide +kernel⟩,
    ⟨(site.srf .pwr .A 8 31 29 (0)).mVeh 0 fun y => { y with c := { y.c with st := 5 } }, Half.A, 1, by decide +kernel⟩,
    ⟨(site.srf .pwr .A 8 31 29 (0)).mZone 0 fun y => { y with st := 1 }, Half.A, by decide +kernel⟩,
    ⟨(site.srf .pwr .A 8 31 29 (0)).mh Half.A fun z' => { z' with thm.flashHold := true }, Half.A, Half.A, by decide +kernel⟩,
    ⟨site.srf .pwr .A 8 31 29 (0), Half.A, by decide +kernel⟩,
    ⟨site.srf .pwr .A 8 31 29 (0), Half.A, 2, by decide +kernel⟩,
    ⟨((site.srf .pwr .A 8 31 29 (0)).mh .A fun z' => { z' with thm.flashHold := false }).mh .B fun z' => { z' with thm.flashHold := false }, Half.A, by decide +kernel⟩,
    ⟨site.srf .pwr .A 8 31 29 (1), .doorbell, by decide +kernel⟩,
    ⟨site.srf .pwr .A 8 31 29 (2), .doorbell, by decide +kernel⟩,
    ⟨site.srf .pwr .A 8 31 29 (3), .button, by decide +kernel⟩,
    ⟨site.srf .pwr .A 8 31 29 (4), .button, by decide +kernel⟩,
    ⟨sHoldUpAndPowerStates37, sHoldUpAndPowerStates37.rf .pwr .A 0x04 15 0, by decide +kernel⟩,
    ⟨site.srf .pwr .A 0x04 15 0 (0), by decide +kernel⟩,
    ⟨(fun s : State => { s with pwr.batt := 1 }) ((fun s : State => { s with rtc := s.pwr.battAt + 3600 * 32768 * s.rf .met .A 0x704 7 0 }) site), by decide +kernel⟩,
    ⟨(fun s : State => { s with pwr.batt := 2 }) site, by decide +kernel⟩,
    ⟨sHoldUpAndPowerStates41, Half.A, sHoldUpAndPowerStates41.rf .tck Half.A 0 23 16, 0, 0, true, true, by decide +kernel⟩,
    ⟨site.srf .tck Half.A 0 30 30 (Bool.toNat (false)), Half.A, 0, 0, 0, true, true, by decide +kernel⟩⟩

def Sys2Proof.Tests.sMeshCrossingsAndExchanges2 : State := (fun s : State => s.srf .rms .A 0x100 15 8 (s.rf .rms .A 0x100 15 8)) ((fun s : State => s.srf .rms .A 0x100 27 27 ((s.rf .rms .A 0x100 27 27))) (((fun s : State => s.mMp (s.rf .rms .A 0x100 27 27) fun z' => { z' with q := [] }) ((fun s : State => s.mMp (s.rf .rms .A 0x100 27 27) fun z' => { z' with x := none }) ((fun s : State => s.mMp (s.rf .rms .A 0x100 27 27) fun z' => { z' with busy := 0 }) ((fun s : State => s.mMp (s.rf .rms .A 0x100 27 27) fun z' => { z' with harv := none }) ((fun s : State => ((s).srf .rms .A (0x20 * (s.rf .rms .A 0x100 27 27)) 31 31 (Bool.toNat (true))).srf .rms .A (0x20 * (s.rf .rms .A 0x100 27 27) + 4) 31 31 (Bool.toNat (true))) ((fun s : State => (s).srf .rms .A (0x20 * (s.rf .rms .A 0x100 27 27)) 31 31 (Bool.toNat (true))) (site.srf .rms .A 0x100 15 8 (256)))))))).srf .rms .A 0x100 30 28 (1)))

/-- Every hypothesis of MeshCrossingsAndExchanges is met, clause by clause. -/
theorem Sys2Proof.Tests.witness_MeshCrossingsAndExchanges :
    (∃ (s : State) (n : Nat) (f : Nat) (e : Option Int) (b : Bool) (l : List HalfSlot), s.meshEn n = false) ∧
    (∃ (s : State) (n : Nat) (f : Nat) (e : Option Int) (b : Bool) (l : List HalfSlot), s.meshEn n = true) ∧
    (∃ (s : State) (n : Nat) (f : Nat) (m : Nat) (k : Nat) (e : Option Int) (b : Bool) (l : List HalfSlot), s.meshEn n = true ∧ s.meshTx n = true ∧ (s.mp n).harv = none ∧ (s.mp n).busy = 0 ∧ (s.mp n).x = none ∧ (s.mp n).q = [] ∧ s.rf .rms .A 0x100 30 28 = 1 ∧ s.rf .rms .A 0x100 27 27 = n ∧ m = s.rf .rms .A 0x100 15 8 ∧ m ≠ 0xFF ∧ k = min 48 (s.rf .rms .A 0x100 7 0) ∧ (s.route m).headD 0 ≠ 0xFF) ∧
    (∃ (s : State) (n : Nat) (f : Nat) (e : Option Int) (b : Bool) (l : List HalfSlot), s.meshEn n = true ∧ (s.mp n).harv = none ∧ 0 < (s.mp n).busy) ∧
    (∃ (s : State) (n : Nat), s.meshEn n = true ∧ 4 ≤ (s.mp n).miss ∧ (s.mp n).lost = false) ∧
    (∃ (s : State) (n : Nat), (s.meshEn n = false ∨ (s.mp n).miss < 4 ∨ (s.mp n).lost = true)) ∧
    (∃ (s : State) (n : Nat), s.meshEn n = true ∧ 16 ≤ (s.mp n).good ∧ (s.mp n).lost = true) ∧
    (∃ (s : State) (n : Nat), (s.meshEn n = false ∨ (s.mp n).good < 16 ∨ ((s.mp n).lost = false ∧ s.meshTx n = true))) ∧
    (∃ (s : State) (n : Nat) (x : MeshX), (s.mp n).x = some x ∧ x.st = 2 ∧ x.resp = some (true, x.idx % 32) ∧ x.nibs.drop x.cur ≠ []) ∧
    (∃ (s : State) (n : Nat) (x : MeshX), (s.mp n).x = some x ∧ x.st = 2 ∧ x.resp = some (true, x.idx % 32) ∧ x.nibs.drop x.cur = [] ∧ x.frame.kind = 2) ∧
    (∃ (s : State) (n : Nat) (x : MeshX), (s.mp n).x = some x ∧ x.st = 2 ∧ x.resp = some (true, x.idx % 32) ∧ x.nibs.drop x.cur = [] ∧ x.frame.kind = 3) ∧
    (∃ (s : State) (n : Nat) (x : MeshX), (s.mp n).x = some x ∧ x.st = 2 ∧ x.resp ≠ some (true, x.idx % 32)) ∧
    (∃ (s : State) (n : Nat) (x : MeshX), (s.mp n).x = some x ∧ x.st = 3) ∧
    (∃ (s : State) (n : Nat) (x : MeshX), n < 2 ∧ (s.mp n).x = some x ∧ x.st = 3 ∧ x.frame.kind = 2) ∧
    (∃ (s : State) (n : Nat) (k : Nat) (x : MeshX), (s.mp n).x = some x ∧ 0 < k ∧ (x.st = 6 ∨ x.st = 4) ∧ k < x.hops) ∧
    (∃ (s : State) (n : Nat) (k : Nat), (s.mp n).x = none) ∧
    (∃ (s : State) (n : Nat) (len : Nat) (x : MeshX) (b : List Nat), n < 2 ∧ (s.mp n).x = some x ∧ x.st = 7 ∧ bytesOf x.ans = b ∧ b.length = 6 + len ∧ len ≤ 48 ∧ numAt b 0 1 / 16 = 2 ∧ numAt b 3 1 = len ∧ numAt b 1 1 = 0 ∧ numAt b 2 1 = 0 ∧ numAt b (4 + len) 2 = crcMsb 16 0x1021 0xFFFF (b.take (4 + len)) ∧ 0 < len ∧ x.frame.dst < 256 ∧ s.rb .rms .A 0x180 31 = false) ∧
    (∃ (s : State) (n : Nat) (len : Nat) (x : MeshX) (b : List Nat), (s.mp n).x = some x ∧ x.st = 7 ∧ bytesOf x.ans = b ∧ b.length = 6 + len ∧ len ≤ 48 ∧ numAt b 0 1 / 16 = 2 ∧ numAt b 3 1 = len ∧ numAt b 1 1 = 0 ∧ numAt b 2 1 = 0 ∧ numAt b (4 + len) 2 = crcMsb 16 0x1021 0xFFFF (b.take (4 + len)) ∧ 0 < len ∧ s.rb .rms .A 0x180 31 = true ∧ s.mesh.rxq.length < 8) ∧
    (∃ (s : State) (n : Nat) (len : Nat) (x : MeshX) (b : List Nat), (s.mp n).x = some x ∧ x.st = 7 ∧ bytesOf x.ans = b ∧ b.length = 6 + len ∧ len ≤ 48 ∧ numAt b 0 1 / 16 = 2 ∧ numAt b 3 1 = len ∧ numAt b 1 1 = 0 ∧ numAt b 2 1 = 0 ∧ numAt b (4 + len) 2 = crcMsb 16 0x1021 0xFFFF (b.take (4 + len)) ∧ 0 < len ∧ s.rb .rms .A 0x180 31 = true ∧ 8 ≤ s.mesh.rxq.length) ∧
    (∃ (s : State) (n : Nat) (len : Nat) (x : MeshX) (b : List Nat), (s.mp n).x = some x ∧ x.st = 7 ∧ bytesOf x.ans = b ∧ b.length = 6 + len ∧ numAt b 0 1 / 16 = 2 ∧ numAt b 3 1 = len ∧ numAt b (4 + len) 2 ≠ crcMsb 16 0x1021 0xFFFF (b.take (4 + len))) ∧
    (∃ (s : State) (n : Nat) (x : MeshX) (p : List Nat), (s.mp n).x = some x ∧ x.st = 6 ∧ x.frame.kind ≠ 6 ∧ look [] s.mesh.recs x.frame.dst = p ∧ x.hop < 3 ∧ x.hop + 1 < p.length) ∧
    (∃ (s : State) (n : Nat) (x : MeshX), (s.mp n).x = some x ∧ (x.st ≠ 6 ∨ 3 ≤ x.hop)) ∧
    (∃ (s : State) (n : Nat), s.meshIdle n = true ∧ (s.mp n).beacon + 1000 ≤ (s.mp n).t) ∧
    (∃ (s : State) (n : Nat), (s.meshIdle n = false ∨ (s.mp n).t < (s.mp n).beacon + 1000)) ∧
    (∃ (s : State) (n : Nat) (m : Nat), s.meshIdle n = true ∧ s.nodeEn n m = true ∧ look 0 (s.mp n).polls m + max 10 (s.rf .rms .A (0x400 + 4 * m) 15 0) ≤ (s.mp n).t) ∧
    (∃ (s : State) (n : Nat) (m : Nat), (s.meshIdle n = false ∨ s.nodeEn n m = false ∨ (s.mp n).t < look 0 (s.mp n).polls m + max 10 (s.rf .rms .A (0x400 + 4 * m) 15 0))) ∧
    (∃ (s : State) (n : Nat) (x : MeshX), (s.mp n).x = some x ∧ x.start + 114 * x.hops ≤ (s.mp n).t) ∧
    (∃ (s : State) (n : Nat) (x : MeshX), (s.mp n).x = some x ∧ (s.mp n).t < x.start + 114 * x.hops) :=
   ⟨⟨(fun s : State => (s).srf .rms .A (0x20 * 0) 31 31 (Bool.toNat (false))) site, 0, 0, some 5, true, [], by decide +kernel⟩,
    ⟨(fun s : State => (s).srf .rms .A (0x20 * 0) 31 31 (Bool.toNat (true))) site, 0, 0, some 5, true, [], by decide +kernel⟩,
    ⟨sMeshCrossingsAndExchanges2, sMeshCrossingsAndExchanges2.rf .rms .A 0x100 27 27, 0, sMeshCrossingsAndExchanges2.rf .rms .A 0x100 15 8, min 48 (sMeshCrossingsAndExchanges2.rf .rms .A 0x100 7 0), some 5, true, [], by decide +kernel⟩,
    ⟨((fun s : State => (s).srf .rms .A (0x20 * 0) 31 31 (Bool.toNat (true))) (site.mMp 0 fun z' => { z' with busy := 0 + 1 })).mMp 0 fun z' => { z' with harv := none }, 0, 0, some 5, true, [], by decide +kernel⟩,
    ⟨((fun s : State => (s).srf .rms .A (0x20 * 0) 31 31 (Bool.toNat (true))) (site.mMp 0 fun z' => { z' with miss := 4 })).mMp 0 fun z' => { z' with lost := false }, 0, by decide +kernel⟩,
    ⟨(fun s : State => (s).srf .rms .A (0x20 * 0) 31 31 (Bool.toNat (false))) site, 0, by decide +kernel⟩,
    ⟨((fun s : State => (s).srf .rms .A (0x20 * 0) 31 31 (Bool.toNat (true))) (site.mMp 0 fun z' => { z' with good := 16 })).mMp 0 fun z' => { z' with lost := true }, 0, by decide +kernel⟩,
    ⟨(fun s : State => (s).srf .rms .A (0x20 * 0) 31 31 (Bool.toNat (false))) site, 0, by decide +kernel⟩,
    ⟨(site.mMp 0 fun z' => { z' with x := some ({ meshX 2 2 [1] with resp := some (true, 0) } : MeshX) }).withX { meshX 2 2 [1] with resp := some (true, 0) }, 0, { meshX 2 2 [1] with resp := some (true, 0) }, by decide +kernel⟩,
    ⟨(site.mMp 0 fun z' => { z' with x := some ({ meshX 2 2 [] with resp := some (true, 0) } : MeshX) }).withX { meshX 2 2 [] with resp := some (true, 0) }, 0, { meshX 2 2 [] with resp := some (true, 0) }, by decide +kernel⟩,
    ⟨(site.mMp 0 fun z' => { z' with x := some ({ meshX 3 2 [] with resp := some (true, 0) } : MeshX) }).withX { meshX 3 2 [] with resp := some (true, 0) }, 0, { meshX 3 2 [] with resp := some (true, 0) }, by decide +kernel⟩,
    ⟨site.mMp 0 fun z' => { z' with x := some ({ ({ frame := { kind := 2, dst := 1, body := [] }, hops := 1, next := 1, nibs := [], start := 0 } : MeshX) with st := 2 } : MeshX) }, 0, { ({ frame := { kind := 2, dst := 1, body := [] }, hops := 1, next := 1, nibs := [], start := 0 } : MeshX) with st := 2 }, by decide +kernel⟩,
    ⟨site.mMp 0 fun z' => { z' with x := some ({ ({ frame := { kind := 2, dst := 1, body := [] }, hops := 1, next := 1, nibs := [], start := 0 } : MeshX) with st := 3 } : MeshX) }, 0, { ({ frame := { kind := 2, dst := 1, body := [] }, hops := 1, next := 1, nibs := [], start := 0 } : MeshX) with st := 3 }, by decide +kernel⟩,
    ⟨site.mMp 0 fun z' => { z' with x := some ({ ({ frame := { kind := 2, dst := 1, body := [] }, hops := 1, next := 1, nibs := [], start := 0 } : MeshX) with st := 3, frame.kind := 2 } : MeshX) }, 0, { ({ frame := { kind := 2, dst := 1, body := [] }, hops := 1, next := 1, nibs := [], start := 0 } : MeshX) with st := 3, frame.kind := 2 }, by decide +kernel⟩,
    ⟨(site.mMp 0 fun z' => { z' with x := some ({ meshX 2 6 [] with hops := 2 } : MeshX) }).withX { meshX 2 6 [] with hops := 2 }, 0, 1, { meshX 2 6 [] with hops := 2 }, by decide +kernel⟩,
    ⟨site.mMp 0 fun z' => { z' with x := none }, 0, 0, by decide +kernel⟩,
    ⟨((site.mMp 0 fun z' => { z' with x := some ({ meshX 2 7 [] with ans := nibsOf meshB } : MeshX) }).srf .rms .A 0x180 31 31 (Bool.toNat (false))).withX { meshX 2 7 [] with ans := nibsOf meshB }, 0, 1, { meshX 2 7 [] with ans := nibsOf meshB }, meshB, by decide +kernel⟩,
    ⟨((site.mMp 0 fun z' => { z' with x := some ({ meshX 2 7 [] with ans := nibsOf meshB } : MeshX) }).srf .rms .A 0x180 31 31 (Bool.toNat (true))).withX { meshX 2 7 [] with ans := nibsOf meshB }, 0, 1, { meshX 2 7 [] with ans := nibsOf meshB }, meshB, by decide +kernel⟩,
    ⟨(fun s : State => ({ s with mesh.rxq := List.replicate 8 (0, 1, []) }).withX { meshX 2 7 [] with ans := nibsOf meshB }) ((site.mMp 0 fun z' => { z' with x := some ({ meshX 2 7 [] with ans := nibsOf meshB } : MeshX) }).srf .rms .A 0x180 31 31 (Bool.toNat (true))), 0, 1, { meshX 2 7 [] with ans := nibsOf meshB }, meshB, by decide +kernel⟩,
    ⟨(site.mMp 0 fun z' => { z' with x := some ({ meshX 2 7 [] with ans := nibsOf [0x20, 0, 0, 0, 1, 1] } : MeshX) }).withX { meshX 2 7 [] with ans := nibsOf [0x20, 0, 0, 0, 1, 1] }, 0, 0, { meshX 2 7 [] with ans := nibsOf [0x20, 0, 0, 0, 1, 1] }, [0x20, 0, 0, 0, 1, 1], by decide +kernel⟩,
    ⟨(fun s : State => { s with mesh.recs := [(1, [5, 6])] }) (site.mMp 0 fun z' => { z' with x := some (meshX 2 6 [] : MeshX) }), 0, meshX 2 6 [], [5, 6], by decide +kernel⟩,
    ⟨site.mMp 0 fun z' => { z' with x := some ({ frame := { kind := 2, dst := 1, body := [] }, hops := 1, next := 1, nibs := [], start := 0 } : MeshX) }, 0, { frame := { kind := 2, dst := 1, body := [] }, hops := 1, next := 1, nibs := [], start := 0 }, by decide +kernel⟩,
    ⟨((fun s : State => s.mMp 0 fun z' => { z' with t := (s.mp 0).beacon + 1000 }) site).meshOn.mMp 0 fun q => { q with t := 1000 }, 0, by decide +kernel⟩,
    ⟨site, 0, by decide +kernel⟩,
    ⟨((((fun s : State => s.mMp 0 fun z' => { z' with t := look 0 (s.mp 0).polls 1 + max 10 (s.rf .rms .A (0x400 + 4 * 1) 15 0) }) site).srf .rms .A (0x400 + 4 * 1) 31 31 (Bool.toNat (true))).srf .rms .A (0x400 + 4 * 1) 30 30 0).meshOn.mMp 0 fun q => { q with t := 70000 }, 0, 1, by decide +kernel⟩,
    ⟨(site.srf .rms .A (0x400 + 4 * 0) 31 31 (Bool.toNat (false))).srf .rms .A (0x400 + 4 * 0) 30 30 0, 0, 0, by decide +kernel⟩,
    ⟨(site.mMp 0 fun z' => { z' with t := ({ frame := { kind := 2, dst := 1, body := [] }, hops := 1, next := 1, nibs := [], start := 0 } : MeshX).start + 114 * ({ frame := { kind := 2, dst := 1, body := [] }, hops := 1, next := 1, nibs := [], start := 0 } : MeshX).hops }).mMp 0 fun z' => { z' with x := some ({ frame := { kind := 2, dst := 1, body := [] }, hops := 1, next := 1, nibs := [], start := 0 } : MeshX) }, 0, { frame := { kind := 2, dst := 1, body := [] }, hops := 1, next := 1, nibs := [], start := 0 }, by decide +kernel⟩,
    ⟨site.mMp 0 fun z' => { z' with x := some ({ frame := { kind := 2, dst := 1, body := [] }, hops := 1, next := 1, nibs := [], start := 0 } : MeshX) }, 0, { frame := { kind := 2, dst := 1, body := [] }, hops := 1, next := 1, nibs := [], start := 0 }, by decide +kernel⟩⟩

def Sys2Proof.Tests.sMeshMapsRoutesAndCarriage16 : State := (((fun s : State => { s with mesh.routes := Machine.put [] s.mesh.routes 1 ([]) }) ((((fun s : State => (s).srf .rms .A (0x20 * 0) 31 31 (Bool.toNat (true))) site).srf .rms .A (0x400 + 4 * 1) 31 31 (Bool.toNat (true))).srf .rms .A (0x400 + 4 * 1) 30 30 0)).meshOn.linkUp 0 1).linkUp 1 0
def Sys2Proof.Tests.sMeshMapsRoutesAndCarriage17 : State := ((((((fun s : State => ({ (s.meshOn.node 2).linkUp 0 1 with mesh.routes := [(1, [2, 1])] })) ((fun s : State => { s with mesh.routes := Machine.put [] s.mesh.routes 1 (([2, 1] : List Nat)) }) ((((fun s : State => (s).srf .rms .A (0x20 * 0) 31 31 (Bool.toNat (true))) site).srf .rms .A (0x400 + 4 * 1) 31 31 (Bool.toNat (true))).srf .rms .A (0x400 + 4 * 1) 30 30 0))).linkUp 0 1).linkUp 1 0).linkUp 0 2).linkUp 2 0 |>.linkUp 2 1).linkUp 1 2
def Sys2Proof.Tests.sMeshMapsRoutesAndCarriage18 : State := (fun s : State => (({ s.meshOn with mesh.routes := [(1, [1])] } : State).linkUp 0 1).linkUp 1 0) ((fun s : State => { s with mesh.routes := Machine.put [] s.mesh.routes 1 (([1] : List Nat)) }) ((((fun s : State => (s).srf .rms .A (0x20 * 0) 31 31 (Bool.toNat (true))) ((fun s : State => { s with mesh.aband := Machine.put 0 s.mesh.aband 1 (2) }) site)).srf .rms .A (0x400 + 4 * 1) 31 31 (Bool.toNat (true))).srf .rms .A (0x400 + 4 * 1) 30 30 0))
def Sys2Proof.Tests.sMeshMapsRoutesAndCarriage24 : State := (fun s : State => (s).srf .saf .A (0x200 + 0x10 * ({ conn := 0, node := 1, nibs := [], sent := 100, got := 100, ans := nibsOf ([0x10] ++ List.replicate 10 0) } : MeshHarv).conn) 31 31 (Bool.toNat (true))) (site.mMp 0 fun z' => { z' with harv := some ({ conn := 0, node := 1, nibs := [], sent := 100, got := 100, ans := nibsOf ([0x10] ++ List.replicate 10 0) } : MeshHarv) })
def Sys2Proof.Tests.sMeshMapsRoutesAndCarriage27 : State := (fun s : State => (s).srf .iox .A 0 (fld (s.sw (0x200 + 0x10 * 0)) 7 0) (fld (s.sw (0x200 + 0x10 * 0)) 7 0) (Bool.toNat (true))) ((fun s : State => s.srf .saf .A (0x200 + 0x10 * 0) 7 0 (fld (s.sw (0x200 + 0x10 * 0)) 7 0)) ((((fun s : State => { s with saf.spOk := true, saf.hwOk := true }) ((fun s : State => (s).srf .saf .A (0x200 + 0x10 * 0) 31 31 (Bool.toNat (true))) ((fun s : State => s.setTstat (fld (s.sw (0x200 + 0x10 * 0)) 7 0) 0 (3)) ((fun s : State => s.setTstat (fld (s.sw (0x200 + 0x10 * 0)) 7 0) 0 (2)) (((site.srf .saf .A (0x200 + 0x10 * 0) 30 29 (1)).mConn 0 fun z' => { z' with he.sent := [] }).srf .saf .A (0x200 + 0x10 * 0) 7 0 (3)))))).mConn 0 fun z' => { z' with supp := false }).srf .saf .A (0x200 + 0x10 * 0) 30 29 (2)))

/-- Every hypothesis of MeshMapsRoutesAndCarriage is met, clause by clause. -/
theorem Sys2Proof.Tests.witness_MeshMapsRoutesAndCarriage :
    (∃ (s : State) (h : Half), s.ref.token ≠ some h) ∧
    (∃ (s : State) (h : Half), s.ref.token ≠ some h) ∧
    (∃ (s : State) (h : Half), s.ref.token = some h ∧ s.rf .rms .A 0x100 30 28 ≠ 1 ∧ s.rf .rms .A 0x100 30 28 ≠ 2) ∧
    (∃ (s : State) (h : Half), s.ref.token = some h ∧ (s.rf .rms .A 0x100 30 28 = 1 ∨ s.rf .rms .A 0x100 30 28 = 2)) ∧
    (∃ (s : State) (h : Half), s.ref.token = some h ∧ s.mesh.rxq = []) ∧
    (∃ (s : State) (h : Half) (n : Nat) (m : Nat) (d : List Nat) (l : List (Nat × Nat × List Nat)), s.ref.token = some h ∧ s.mesh.rxq = (n, m, d) :: l ∧ n < 2 ∧ m < 256 ∧ d.length < 256) ∧
    (∃ (s : State) (n : Nat) (a : Nat) (j : Nat) (b : List Nat) (l : List (Nat × List Nat)) (r : List (Nat × Nat)), (s.mp n).reps = (a, b) :: l ∧ j = numAt b 3 1 ∧ r = (bytesAt b 4 8).map (fun x => (x / 16, x % 16)) ∧ (s.mlink j a).rec_ ≠ recMap r) ∧
    (∃ (s : State) (n : Nat) (a : Nat) (j : Nat) (b : List Nat) (l : List (Nat × List Nat)) (r : List (Nat × Nat)), (s.mp n).reps = (a, b) :: l ∧ j = numAt b 3 1 ∧ r = (bytesAt b 4 8).map (fun x => (x / 16, x % 16)) ∧ (s.mlink j a).rec_ = recMap r ∧ 2 ≤ (s.mlink j a).recN ∧ mapU (recMap r) < 4 ∧ (s.mlink j a).down = false) ∧
    (∃ (s : State) (n : Nat) (a : Nat) (j : Nat) (b : List Nat) (l : List (Nat × List Nat)) (r : List (Nat × Nat)), (s.mp n).reps = (a, b) :: l ∧ j = numAt b 3 1 ∧ r = (bytesAt b 4 8).map (fun x => (x / 16, x % 16)) ∧ (s.mlink j a).rec_ = recMap r ∧ 2 ≤ (s.mlink j a).recN ∧ 4 ≤ mapU (recMap r) ∧ recMap r ≠ (s.mlink j a).map ∧ (s.mlink j a).chg = none) ∧
    (∃ (s : State) (n : Nat), (s.mp n).reps = []) ∧
    (∃ (s : State) (n : Nat) (m : Nat) (g : List Nat), s.meshEn n = true ∧ s.nodeEn n m = true ∧ 0 < (s.mlink m 0).cells ∧ (s.mp n).t % (100 * max 1 (s.rf .rms .A (0x20 * n) 4 0)) = 0) ∧
    (∃ (s : State) (n : Nat) (m : Nat) (g : List Nat), ((s.mlink m 0).cells = 0 ∨ s.nodeEn n m = false)) ∧
    (∃ (s : State) (n : Nat) (i : Nat) (j : Nat) (c : MapChg), (s.mlink i j).chg = some c ∧ c.at_ ≤ (s.mp n).t ∧ c.ackTx = true ∧ c.ackRx = true ∧ c.map ≠ (s.mlink i j).map) ∧
    (∃ (s : State) (n : Nat) (i : Nat) (j : Nat) (c : MapChg), (s.mlink i j).chg = some c ∧ ((s.mp n).t < c.at_ ∨ c.ackTx = false ∨ c.ackRx = false)) ∧
    (∃ (s : State) (n : Nat) (i : Nat) (j : Nat) (c : MapChg), (s.mlink i j).chg = some c ∧ (c.ackTx = false ∨ c.ackRx = false) ∧ c.at_ ≤ (s.mp n).t + 20) ∧
    (∃ (s : State) (n : Nat) (i : Nat) (j : Nat), (s.mlink i j).chg = none) ∧
    (∃ (s : State) (n : Nat) (m : Nat) (c : Nat) (p : List Nat), s.meshEn n = true ∧ s.nodeEn n m = true ∧ s.bestRoute n m = some (c, p) ∧ look [] s.mesh.routes m = [] ∧ p ≠ []) ∧
    (∃ (s : State) (n : Nat) (m : Nat) (c : Nat) (k : Nat) (p : List Nat) (q : List Nat), s.meshEn n = true ∧ s.nodeEn n m = true ∧ s.bestRoute n m = some (c, p) ∧ look [] s.mesh.routes m = q ∧ q ≠ [] ∧ s.routeCost n 0 q = some k ∧ 100 * c ≤ 75 * k ∧ p ≠ q) ∧
    (∃ (s : State) (n : Nat) (m : Nat) (c : Nat) (k : Nat) (p : List Nat) (q : List Nat), s.meshEn n = true ∧ s.nodeEn n m = true ∧ s.bestRoute n m = some (c, p) ∧ look [] s.mesh.routes m = q ∧ q ≠ [] ∧ s.routeCost n 0 q = some k ∧ 75 * k < 100 * c ∧ look 0 s.mesh.aband m < 3) ∧
    (∃ (s : State) (n : Nat) (m : Nat), s.meshEn n = true ∧ s.nodeEn n m = true ∧ s.bestRoute n m = none ∧ look [] s.mesh.routes m ≠ [] ∧ s.routeCost n 0 (look [] s.mesh.routes m) = none) ∧
    (∃ (s : State) (n : Nat) (m : Nat), (s.meshEn n = false ∨ s.nodeEn n m = false)) ∧
    (∃ (s : State) (n : Nat) (m : Nat), s.nodeEn n m = true ∧ m ∈ s.mesh.acked) ∧
    (∃ (s : State) (n : Nat) (m : Nat), (s.nodeEn n m = false ∨ m ∉ s.mesh.acked)) ∧
    (∃ (s : State) (n : Nat) (v : MeshHarv), (s.mp n).harv = some v ∧ harvCells (s.outMap v.node) ≤ v.sent ∧ harvCells (s.mlink v.node 0).map ≤ v.got ∧ v.bad = true) ∧
    (∃ (s : State) (n : Nat) (v : MeshHarv) (p : List Nat), (s.mp n).harv = some v ∧ harvCells (s.outMap v.node) ≤ v.sent ∧ harvCells (s.mlink v.node 0).map ≤ v.got ∧ v.bad = false ∧ numAt (bytesOf v.ans) 0 1 / 16 = 1 ∧ s.connEn v.conn = true ∧ p = le 4 (s.connCid v.conn) ++ le 2 (s.connTexp v.conn) ++ bytesAt (bytesOf v.ans) 2 4 ++ [0, 0] ++ bytesAt (bytesOf v.ans) 6 1 ++ List.replicate 7 0 ++ bytesAt (bytesOf v.ans) 7 4) ∧
    (∃ (s : State) (n : Nat), (s.mp n).harv = none) ∧
    (∃ (s : State) (n : Nat), s.connEn n = true ∧ fld (s.sw (0x200 + 0x10 * n)) 30 29 ≠ 0 ∧ ((s.conn n).he.sent = [] ∨ (s.conn n).sentTick + 20 * fld (s.sw (0x200 + 0x10 * n)) 15 8 ≤ s.now) ∧ s.islandUp = true ∧ (s.conn n).supp = false) ∧
    (∃ (s : State) (n : Nat) (k : Nat), s.connEn n = true ∧ fld (s.sw (0x200 + 0x10 * n)) 30 29 ≠ 0 ∧ ((s.conn n).he.sent = [] ∨ (s.conn n).sentTick + 20 * fld (s.sw (0x200 + 0x10 * n)) 15 8 ≤ s.now) ∧ s.islandUp = true ∧ (s.conn n).supp = false ∧ fld (s.sw (0x200 + 0x10 * n)) 30 29 = 2 ∧ k = fld (s.sw (0x200 + 0x10 * n)) 7 0 ∧ k < 4 ∧ s.ref.token ≠ none ∧ s.canOwned k = true ∧ s.tstat k 0 ≠ 1 ∧ s.tstat k 0 ≠ 2) ∧
    (∃ (s : State) (n : Nat), (s.connEn n = false ∨ fld (s.sw (0x200 + 0x10 * n)) 30 29 = 0 ∨ ((s.conn n).he.sent ≠ [] ∧ s.now < (s.conn n).sentTick + 20 * fld (s.sw (0x200 + 0x10 * n)) 15 8))) :=
   ⟨⟨site, Half.B, by decide +kernel⟩,
    ⟨site, Half.B, by decide +kernel⟩,
    ⟨(site.srf .rms .A 0x100 30 28 (2)).srf .rms .A 0x100 30 28 (3), Half.A, by decide +kernel⟩,
    ⟨site.srf .rms .A 0x100 30 28 (1), Half.A, by decide +kernel⟩,
    ⟨(fun s : State => { s with mesh.rxq := [] }) site, Half.A, by decide +kernel⟩,
    ⟨(fun s : State => { s with mesh.rxq := (0, 0, ([] : List Nat)) :: ([] : List (Nat × Nat × List Nat)) }) site, Half.A, 0, 0, [], [], by decide +kernel⟩,
    ⟨(site.mMlink (numAt ([] : List Nat) 3 1) 0 fun z' => { z' with rec_ := 1 }).mMp 0 fun z' => { z' with reps := (0, ([] : List Nat)) :: ([] : List (Nat × List Nat)) }, 0, 0, numAt ([] : List Nat) 3 1, [], [], (bytesAt ([] : List Nat) 4 8).map (fun x => (x / 16, x % 16)), by decide +kernel⟩,
    ⟨(((site.mMlink (numAt ([] : List Nat) 3 1) 0 fun z' => { z' with recN := 2 }).mMp 0 fun z' => { z' with reps := (0, ([] : List Nat)) :: ([] : List (Nat × List Nat)) }).mMlink (numAt ([] : List Nat) 3 1) 0 fun z' => { z' with rec_ := recMap ((bytesAt ([] : List Nat) 4 8).map (fun x => (x / 16, x % 16))) }).mMlink (numAt ([] : List Nat) 3 1) 0 fun z' => { z' with down := false }, 0, 0, numAt ([] : List Nat) 3 1, [], [], (bytesAt ([] : List Nat) 4 8).map (fun x => (x / 16, x % 16)), by decide +kernel⟩,
    ⟨(fun s : State => ({ s with mesh.links := [(513, { rec_ := 0xAAAAAAAA, recN := 2 })] }).mMp 0 fun q => { q with reps := [(1, [0, 0, 0, 2] ++ List.replicate 8 0x0A)] }) ((((site.mMlink 2 1 fun z' => { z' with recN := 2 }).mMp 0 fun z' => { z' with reps := (1, ([0, 0, 0, 2] ++ List.replicate 8 0x0A : List Nat)) :: ([] : List (Nat × List Nat)) }).mMlink 2 1 fun z' => { z' with rec_ := recMap ((bytesAt ([0, 0, 0, 2] ++ List.replicate 8 0x0A : List Nat) 4 8).map (fun x => (x / 16, x % 16))) }).mMlink 2 1 fun z' => { z' with chg := none }), 0, 1, 2, [0, 0, 0, 2] ++ List.replicate 8 0x0A, [], (bytesAt ([0, 0, 0, 2] ++ List.replicate 8 0x0A : List Nat) 4 8).map (fun x => (x / 16, x % 16)), by decide +kernel⟩,
    ⟨site.mMp 0 fun z' => { z' with reps := [] }, 0, by decide +kernel⟩,
    ⟨(((fun s : State => (s).srf .rms .A (0x20 * 0) 31 31 (Bool.toNat (true))) (site.mMlink 1 0 fun z' => { z' with cells := 0 + 1 })).srf .rms .A (0x400 + 4 * 1) 31 31 (Bool.toNat (true))).srf .rms .A (0x400 + 4 * 1) 30 30 0, 0, 1, [], by decide +kernel⟩,
    ⟨site.mMlink 0 0 fun z' => { z' with cells := 0 }, 0, 0, [], by decide +kernel⟩,
    ⟨(fun s : State => { s with mesh.links := [(1, { chg := some { map := 5, at_ := 0, ackTx := true, ackRx := true } })] }) ((site.mMp 0 fun z' => { z' with t := ({ map := 5, at_ := 0, ackTx := true, ackRx := true } : MapChg).at_ }).mMlink 0 1 fun z' => { z' with chg := some ({ map := 5, at_ := 0, ackTx := true, ackRx := true } : MapChg) }), 0, 0, 1, { map := 5, at_ := 0, ackTx := true, ackRx := true }, by decide +kernel⟩,
    ⟨(fun s : State => { s with mesh.links := [(1, { chg := some { map := 5, at_ := 0, ackTx := false, ackRx := true } })] }) (site.mMlink 0 1 fun z' => { z' with chg := some ({ map := 5, at_ := 0, ackTx := false, ackRx := true } : MapChg) }), 0, 0, 1, { map := 5, at_ := 0, ackTx := false, ackRx := true }, by decide +kernel⟩,
    ⟨(fun s : State => { s with mesh.links := [(1, { chg := some { map := 5, at_ := 0, ackTx := false, ackRx := true } })] }) (site.mMlink 0 1 fun z' => { z' with chg := some ({ map := 5, at_ := 0, ackTx := false, ackRx := true } : MapChg) }), 0, 0, 1, { map := 5, at_ := 0, ackTx := false, ackRx := true }, by decide +kernel⟩,
    ⟨site.mMlink 0 0 fun z' => { z' with chg := none }, 0, 0, 0, by decide +kernel⟩,
    ⟨sMeshMapsRoutesAndCarriage16, 0, 1, ((sMeshMapsRoutesAndCarriage16.bestRoute 0 1).getD (0, [])).1, ((sMeshMapsRoutesAndCarriage16.bestRoute 0 1).getD (0, [])).2, by decide +kernel⟩,
    ⟨sMeshMapsRoutesAndCarriage17, 0, 1, ((sMeshMapsRoutesAndCarriage17.bestRoute 0 1).getD (0, [])).1, (sMeshMapsRoutesAndCarriage17.routeCost 0 0 ([2, 1] : List Nat)).getD 0, ((sMeshMapsRoutesAndCarriage17.bestRoute 0 1).getD (0, [])).2, [2, 1], by decide +kernel⟩,
    ⟨sMeshMapsRoutesAndCarriage18, 0, 1, ((sMeshMapsRoutesAndCarriage18.bestRoute 0 1).getD (0, [])).1, (sMeshMapsRoutesAndCarriage18.routeCost 0 0 ([1] : List Nat)).getD 0, ((sMeshMapsRoutesAndCarriage18.bestRoute 0 1).getD (0, [])).2, [1], by decide +kernel⟩,
    ⟨(fun s : State => { s.meshOn with mesh.routes := [(1, [1])] }) ((((fun s : State => (s).srf .rms .A (0x20 * 0) 31 31 (Bool.toNat (true))) site).srf .rms .A (0x400 + 4 * 1) 31 31 (Bool.toNat (true))).srf .rms .A (0x400 + 4 * 1) 30 30 0), 0, 1, by decide +kernel⟩,
    ⟨(fun s : State => (s).srf .rms .A (0x20 * 0) 31 31 (Bool.toNat (false))) site, 0, 0, by decide +kernel⟩,
    ⟨(fun s : State => { s with mesh.acked := [1] }) ((site.srf .rms .A (0x400 + 4 * 1) 31 31 (Bool.toNat (true))).srf .rms .A (0x400 + 4 * 1) 30 30 0), 0, 1, by decide +kernel⟩,
    ⟨(site.srf .rms .A (0x400 + 4 * 0) 31 31 (Bool.toNat (false))).srf .rms .A (0x400 + 4 * 0) 30 30 0, 0, 0, by decide +kernel⟩,
    ⟨site.mMp 0 fun z' => { z' with harv := some ({ conn := 0, node := 1, nibs := [], sent := 100, got := 100, bad := true } : MeshHarv) }, 0, { conn := 0, node := 1, nibs := [], sent := 100, got := 100, bad := true }, by decide +kernel⟩,
    ⟨sMeshMapsRoutesAndCarriage24, 0, { conn := 0, node := 1, nibs := [], sent := 100, got := 100, ans := nibsOf ([0x10] ++ List.replicate 10 0) }, le 4 (sMeshMapsRoutesAndCarriage24.connCid ({ conn := 0, node := 1, nibs := [], sent := 100, got := 100, ans := nibsOf ([0x10] ++ List.replicate 10 0) } : MeshHarv).conn) ++ le 2 (sMeshMapsRoutesAndCarriage24.connTexp ({ conn := 0, node := 1, nibs := [], sent := 100, got := 100, ans := nibsOf ([0x10] ++ List.replicate 10 0) } : MeshHarv).conn) ++ bytesAt (bytesOf ({ conn := 0, node := 1, nibs := [], sent := 100, got := 100, ans := nibsOf ([0x10] ++ List.replicate 10 0) } : MeshHarv).ans) 2 4 ++ [0, 0] ++ bytesAt (bytesOf ({ conn := 0, node := 1, nibs := [], sent := 100, got := 100, ans := nibsOf ([0x10] ++ List.replicate 10 0) } : MeshHarv).ans) 6 1 ++ List.replicate 7 0 ++ bytesAt (bytesOf ({ conn := 0, node := 1, nibs := [], sent := 100, got := 100, ans := nibsOf ([0x10] ++ List.replicate 10 0) } : MeshHarv).ans) 7 4, by decide +kernel⟩,
    ⟨site.mMp 0 fun z' => { z' with harv := none }, 0, by decide +kernel⟩,
    ⟨((fun s : State => { s with saf.spOk := true, saf.hwOk := true }) ((fun s : State => (s).srf .saf .A (0x200 + 0x10 * 0) 31 31 (Bool.toNat (true))) ((site.srf .saf .A (0x200 + 0x10 * 0) 30 29 (1)).mConn 0 fun z' => { z' with he.sent := [] }))).mConn 0 fun z' => { z' with supp := false }, 0, by decide +kernel⟩,
    ⟨sMeshMapsRoutesAndCarriage27, 0, fld (sMeshMapsRoutesAndCarriage27.sw (0x200 + 0x10 * 0)) 7 0, by decide +kernel⟩,
    ⟨(fun s : State => (s).srf .saf .A (0x200 + 0x10 * 0) 31 31 (Bool.toNat (false))) site, 0, by decide +kernel⟩⟩

def Sys2Proof.Tests.sImagesStagedAndForwarded25 : State := site.rem7.rx7 (updst 1 0)
def Sys2Proof.Tests.sImagesStagedAndForwarded26 : State := (site.rem7.rx7 (updst 3 9)).run9 0x0E06
def Sys2Proof.Tests.sImagesStagedAndForwarded27 : State := (site.rem7.rx7 (updst 4 0)).run9 0x0E06
def Sys2Proof.Tests.sImagesStagedAndForwarded29 : State := ((fun s : State => { s with upd.tx := Machine.put none s.upd.tx 0 (none) }) site).rx7 (updst 4 0)

/-- Every hypothesis of ImagesStagedAndForwarded is met, clause by clause. -/
theorem Sys2Proof.Tests.witness_ImagesStagedAndForwarded :
    (∃ (s : State) (o : Org) (x : Half) (role : Nat) (hdr : List Nat) (ec : Bool) (pq : Bool), RunsAt s o 0x0E01 x role ∧ role ∈ updRoles ∧ (hdr.length < 3712 ∨ bytesAt hdr 0 4 ≠ [0x56, 0x58, 0x55, 0x50] ∨ numAt hdr 4 2 ≠ 1 ∨ numAt hdr 20 4 = 0 ∨ 536870912 < numAt hdr 20 4 ∨ 2 ≤ numAt hdr 7 1 ∨ 4 ≤ numAt hdr 128 1)) ∧
    (∃ (s : State) (o : Org) (x : Half) (role : Nat) (hdr : List Nat) (ec : Bool) (pq : Bool), RunsAt s o 0x0E01 x role ∧ role ∈ updRoles ∧ hdrOk hdr = true ∧ numAt hdr 132 4 = 0 ∧ (numAt hdr 128 1 ≠ 3 ∨ ec = false ∨ pq = false ∨ s.keyUsable 0x4002 = false ∨ s.keyUsable 0x4003 = false)) ∧
    (∃ (s : State) (o : Org) (x : Half) (role : Nat) (hdr : List Nat) (ec : Bool) (pq : Bool), RunsAt s o 0x0E01 x role ∧ role ∈ updRoles ∧ hdrOk hdr = true ∧ numAt hdr 132 4 ≠ 0 ∧ (ec = false ∨ numAt hdr 132 4 ≠ (s.rg .upd x 4).toNat ∨ (numAt hdr 6 1 ≠ 0x10 ∧ numAt hdr 6 1 ≠ 0x11))) ∧
    (∃ (s : State) (o : Org) (x : Half) (role : Nat) (hdr : List Nat) (ec : Bool) (pq : Bool), RunsAt s o 0x0E01 x role ∧ role ∈ updRoles ∧ hdrOk hdr = true ∧ s.sigGood hdr ec pq = true ∧ ((4 ≤ numAt hdr 6 1 ∧ numAt hdr 6 1 ≠ 0x10 ∧ numAt hdr 6 1 ≠ 0x11) ∨ numAt hdr 8 1 ≠ 3)) ∧
    (∃ (s : State) (o : Org) (x : Half) (role : Nat) (hdr : List Nat) (ec : Bool) (pq : Bool), RunsAt s o 0x0E01 x role ∧ role ∈ updRoles ∧ hdrOk hdr = true ∧ s.sigGood hdr ec pq = true ∧ numAt hdr 6 1 < 4 ∧ numAt hdr 8 1 = 3 ∧ numAt hdr 16 4 < s.svnFloor (numAt hdr 6 1)) ∧
    (∃ (s : State) (o : Org) (x : Half) (role : Nat) (hdr : List Nat) (ec : Bool) (pq : Bool), RunsAt s o 0x0E01 x role ∧ role ∈ updRoles ∧ hdrOk hdr = true ∧ s.sigGood hdr ec pq = true ∧ numAt hdr 6 1 < 4 ∧ numAt hdr 8 1 = 3 ∧ s.svnFloor (numAt hdr 6 1) ≤ numAt hdr 16 4 ∧ (((numAt hdr 7 1).testBit 0 = true ↔ numAt hdr 6 1 ≠ 3))) ∧
    (∃ (s : State) (o : Org) (x : Half) (role : Nat) (hdr : List Nat) (ec : Bool) (pq : Bool), RunsAt s o 0x0E01 x role ∧ role ∈ updRoles ∧ s.checkImage x role hdr ec pq = 0 ∧ numAt hdr 6 1 < 2 ∧ s.twinUp x = false) ∧
    (∃ (s : State) (o : Org) (x : Half) (role : Nat) (hdr : List Nat) (ec : Bool) (pq : Bool), RunsAt s o 0x0E01 x role ∧ role ∈ updRoles ∧ s.checkImage x role hdr ec pq = 0 ∧ (2 ≤ numAt hdr 6 1 ∨ s.twinUp x = true)) ∧
    (∃ (s : State) (o : Org) (x : Half) (role : Nat) (off : Nat) (d : List Nat), RunsAt s o 0x0E02 x role ∧ role ∈ updRoles ∧ s.upd.stg = none) ∧
    (∃ (s : State) (o : Org) (x : Half) (role : Nat) (off : Nat) (d : List Nat) (g : Staging), RunsAt s o 0x0E02 x role ∧ role ∈ updRoles ∧ s.upd.stg = some g ∧ (¬(role = 4 ↔ g.img.target = 3))) ∧
    (∃ (s : State) (o : Org) (x : Half) (role : Nat) (off : Nat) (d : List Nat) (g : Staging), RunsAt s o 0x0E02 x role ∧ role ∈ updRoles ∧ s.upd.stg = some g ∧ ((role = 4 ↔ g.img.target = 3)) ∧ (2 ≤ g.img.target ∨ s.twinUp x = true) ∧ (off ≠ 3712 + g.data.length ∨ g.img.len < g.data.length + d.length)) ∧
    (∃ (s : State) (o : Org) (x : Half) (role : Nat) (off : Nat) (d : List Nat) (g : Staging), RunsAt s o 0x0E02 x role ∧ role ∈ updRoles ∧ s.upd.stg = some g ∧ ((role = 4 ↔ g.img.target = 3)) ∧ (2 ≤ g.img.target ∨ s.twinUp x = true) ∧ off = 3712 + g.data.length ∧ g.data.length + d.length ≤ g.img.len ∧ (s.hf x).thm.flashHold = true ∧ g.img.target ≠ 2 ∧ g.img.target ≠ 3) ∧
    (∃ (s : State) (o : Org) (x : Half) (role : Nat) (off : Nat) (d : List Nat) (g : Staging), RunsAt s o 0x0E02 x role ∧ role ∈ updRoles ∧ s.upd.stg = some g ∧ ((role = 4 ↔ g.img.target = 3)) ∧ (2 ≤ g.img.target ∨ s.twinUp x = true) ∧ off = 3712 + g.data.length ∧ g.data.length + d.length ≤ g.img.len ∧ ((s.hf x).thm.flashHold = false ∨ g.img.target = 2 ∨ g.img.target = 3)) ∧
    (∃ (s : State) (o : Org) (x : Half) (role : Nat) (off : Nat) (d : List Nat) (g : Staging), RunsAt s o 0x0E02 x role ∧ role ∈ updRoles ∧ s.upd.stg = some g ∧ ((role = 4 ↔ g.img.target = 3)) ∧ g.img.target < 2 ∧ s.twinUp x = false) ∧
    (∃ (s : State) (o : Org) (x : Half) (role : Nat) (m : Nat) (f : Nat), RunsAt s o 0x0E03 x role ∧ role ∈ updRoles ∧ s.upd.stg = none) ∧
    (∃ (s : State) (o : Org) (x : Half) (role : Nat) (m : Nat) (f : Nat) (g : Staging), RunsAt s o 0x0E03 x role ∧ role ∈ updRoles ∧ s.upd.stg = some g ∧ ((role = 4 ↔ g.img.target = 3)) ∧ 64 ≤ m) ∧
    (∃ (s : State) (o : Org) (x : Half) (role : Nat) (m : Nat) (f : Nat) (g : Staging), RunsAt s o 0x0E03 x role ∧ role ∈ updRoles ∧ s.upd.stg = some g ∧ ((role = 4 ↔ g.img.target = 3)) ∧ m < 64 ∧ g.img.target < 2 ∧ s.twinUp x = false) ∧
    (∃ (s : State) (o : Org) (x : Half) (role : Nat) (m : Nat) (f : Nat) (g : Staging), RunsAt s o 0x0E03 x role ∧ role ∈ updRoles ∧ s.upd.stg = some g ∧ ((role = 4 ↔ g.img.target = 3)) ∧ m < 64 ∧ (2 ≤ g.img.target ∨ s.twinUp x = true) ∧ payloadOk g.hdr g.data = false) ∧
    (∃ (s : State) (o : Org) (x : Half) (role : Nat) (m : Nat) (f : Nat) (g : Staging), RunsAt s o 0x0E03 x role ∧ role ∈ updRoles ∧ s.upd.stg = some g ∧ ((role = 4 ↔ g.img.target = 3)) ∧ m < 64 ∧ (2 ≤ g.img.target ∨ s.twinUp x = true) ∧ payloadOk g.hdr g.data = true ∧ g.img.target < 4 ∧ receiverHeld s g.img.target m x = false) ∧
    (∃ (s : State) (o : Org) (x : Half) (role : Nat) (m : Nat) (f : Nat) (g : Staging), RunsAt s o 0x0E03 x role ∧ role ∈ updRoles ∧ s.upd.stg = some g ∧ ((role = 4 ↔ g.img.target = 3)) ∧ m < 64 ∧ s.twinUp x = true ∧ payloadOk g.hdr g.data = true ∧ g.img.target < 2 ∧ m.testBit 0 = true ∧ (s.hf (other x)).thm.flashHold = true) ∧
    (∃ (s : State) (o : Org) (x : Half) (role : Nat) (m : Nat) (f : Nat) (g : Staging), RunsAt s o 0x0E03 x role ∧ role ∈ updRoles ∧ s.upd.stg = some g ∧ ((role = 4 ↔ g.img.target = 3)) ∧ m < 64 ∧ payloadOk g.hdr g.data = true ∧ (g.img.target = 0x10 ∨ g.img.target = 0x11)) ∧
    (∃ (s : State) (o : Org) (x : Half) (role : Nat) (g : Nat) (m : Nat) (a : Nat), RunsAt s o 0x0E06 x role ∧ role ∈ [rInstaller, rVendor] ∧ ((g ≠ 0x10 ∧ g ≠ 0x11) ∨ 2 ^ 80 ≤ m ∨ m = 0 ∨ (a ≠ 0 ∧ a < s.tick x))) ∧
    (∃ (s : State) (o : Org) (x : Half) (role : Nat) (g : Nat) (m : Nat) (a : Nat), RunsAt s o 0x0E06 x role ∧ role ∈ [rInstaller, rVendor] ∧ (g = 0x10 ∨ g = 0x11) ∧ m < 2 ^ 80 ∧ m ≠ 0 ∧ (a = 0 ∨ s.tick x ≤ a) ∧ (∀ r ∈ s.upd.store, r.img.target ≠ g)) ∧
    (∃ (s : State) (o : Org) (x : Half) (role : Nat) (g : Nat) (m : Nat) (a : Nat) (r : RemImg), RunsAt s o 0x0E06 x role ∧ role ∈ [rInstaller, rVendor] ∧ (g = 0x10 ∨ g = 0x11) ∧ m < 2 ^ 80 ∧ m ≠ 0 ∧ (a = 0 ∨ s.tick x ≤ a) ∧ r ∈ s.upd.store ∧ r.img.target = g ∧ ((∀ q ∈ s.upd.store, q.img.target = g → q = r)) ∧ ((∀ p < 80, m.testBit p = true → (s.port x p).pstate = 4))) ∧
    (∃ (s : State) (o : Org) (x : Half) (role : Nat) (g : Nat) (m : Nat) (a : Nat) (p : Nat), RunsAt s o 0x0E06 x role ∧ role ∈ [rInstaller, rVendor] ∧ (g = 0x10 ∨ g = 0x11) ∧ m < 2 ^ 80 ∧ (a = 0 ∨ s.tick x ≤ a) ∧ (∃ r ∈ s.upd.store, r.img.target = g) ∧ p < 80 ∧ m.testBit p = true ∧ (s.port x p).pstate ≠ 4 ∧ ((∀ q < p, m.testBit q = true → (s.port x q).pstate = 4))) ∧
    (∃ (s : State) (s' : State) (x : Half) (p : Nat) (m : List Nat) (u : RemTx), s.charge = some x ∧ s.takeMsg x p 0x43 (fun m => m.headD 0 == 7) = some (m, s') ∧ look none s.upd.tx p = some u ∧ numAt m 4 4 = u.imgid) ∧
    (∃ (s : State) (s' : State) (x : Half) (p : Nat) (m : List Nat) (u : RemTx) (o : Org), s.charge = some x ∧ s.takeMsg x p 0x43 (fun m => m.headD 0 == 7) = some (m, s') ∧ look none s.upd.tx p = some u ∧ numAt m 4 4 = u.imgid ∧ numAt m 1 1 = 3 ∧ u.org = some o ∧ Running s o) ∧
    (∃ (s : State) (s' : State) (x : Half) (p : Nat) (m : List Nat) (u : RemTx) (o : Org), s.charge = some x ∧ s.takeMsg x p 0x43 (fun m => m.headD 0 == 7) = some (m, s') ∧ look none s.upd.tx p = some u ∧ numAt m 4 4 = u.imgid ∧ numAt m 1 1 = 4 ∧ u.org = some o ∧ rising s.upd.tx = true ∧ Running s o ∧ ((∀ q ∈ s.txOf o, q.1 ≠ p → q.2.st = 4))) ∧
    (∃ (s : State) (p : Nat), (s.charge = none ∨ (∃ x, s.charge = some x ∧ s.takeMsg x p 0x43 (fun m => m.headD 0 == 7) = none))) ∧
    (∃ (s : State) (s' : State) (x : Half) (p : Nat) (m : List Nat), s.charge = some x ∧ s.takeMsg x p 0x43 (fun m => m.headD 0 == 7) = some (m, s') ∧ (look none s.upd.tx p = none ∨ (∃ u, look none s.upd.tx p = some u ∧ u.imgid ≠ numAt m 4 4))) ∧
    (∃ (s : State) (p : Nat) (u : RemTx), look none s.upd.tx p = some u ∧ u.told = true ∧ u.at_ ≤ s.now + 20000) ∧
    (∃ (s : State) (p : Nat) (u : RemTx), look none s.upd.tx p = some u ∧ u.told = true ∧ u.at_ ≤ s.now) ∧
    (∃ (s : State) (p : Nat), ((∀ u, look none s.upd.tx p = some u → u.told = false ∨ s.now + 20000 < u.at_))) ∧
    (∃ (s : State) (o : Org) (x : Half) (role : Nat), RunsAt s o 0x0E05 x role ∧ role ∈ rNotPublic ∧ Room s o 96) :=
   ⟨⟨site.srf .mbx Half.A 0 18 16 3, { half := Half.A, ring := 28, ctag := 1, hb := 0 }, Half.A, 3, [], true, true, by unfold RunsAt; decide +kernel⟩,
    ⟨site.srf .mbx Half.A 0 18 16 3, { half := Half.A, ring := 28, ctag := 1, hb := 0 }, Half.A, 3, whdr 0 0 0 0 0 0 [5], true, true, by unfold RunsAt; decide +kernel⟩,
    ⟨site.srf .mbx Half.A 0 18 16 3, { half := Half.A, ring := 28, ctag := 1, hb := 0 }, Half.A, 3, whdr 0x10 0 0 0 1 7 [5], true, true, by unfold RunsAt; decide +kernel⟩,
    ⟨site.srf .mbx Half.A 0 18 16 3, { half := Half.A, ring := 28, ctag := 1, hb := 0 }, Half.A, 3, whdr 5 0 0 0 3 0 [5], true, true, by unfold RunsAt; decide +kernel⟩,
    ⟨(site.srf .mbx Half.A 0 18 16 3).mRec 4 fun y => { y with floor := 3 }, { half := Half.A, ring := 28, ctag := 1, hb := 0 }, Half.A, 3, whdr 0 0 0 0 3 0 [5], true, true, by unfold RunsAt; decide +kernel⟩,
    ⟨site.srf .mbx Half.A 0 18 16 3, { half := Half.A, ring := 28, ctag := 1, hb := 0 }, Half.A, 3, whdr 0 1 0 0 3 0 [5], true, true, by unfold RunsAt; decide +kernel⟩,
    ⟨(site.srf .mbx Half.A 0 18 16 3).mTwn Half.A fun z' => { z' with up := false }, { half := Half.A, ring := 28, ctag := 1, hb := 0 }, Half.A, 3, whdr 0 0 0 0 3 0 [5], true, true, by unfold RunsAt; decide +kernel⟩,
    ⟨(site.mTwn Half.A fun z' => { z' with up := true }).srf .mbx Half.A 0 18 16 3, { half := Half.A, ring := 28, ctag := 1, hb := 0 }, Half.A, 3, whdr 0 0 0 0 3 0 [5], true, true, by unfold RunsAt; decide +kernel⟩,
    ⟨(fun s : State => { s with upd.stg := none }) (site.srf .mbx Half.A 0 18 16 3), { half := Half.A, ring := 28, ctag := 1, hb := 0 }, Half.A, 3, 0, [], by unfold RunsAt; decide +kernel⟩,
    ⟨(fun s : State => { s with upd.stg := some ({ img := {}, hdr := List.replicate 128 0 } : Staging) }) (site.srf .mbx Half.A 0 18 16 4), { half := Half.A, ring := 28, ctag := 1, hb := 0 }, Half.A, 4, 0, [], { img := {}, hdr := List.replicate 128 0 }, by unfold RunsAt; decide +kernel⟩,
    ⟨(fun s : State => { s with upd.stg := some ({ img := {}, hdr := List.replicate 128 0 } : Staging) }) ((site.mTwn Half.A fun z' => { z' with up := true }).srf .mbx Half.A 0 18 16 3), { half := Half.A, ring := 28, ctag := 1, hb := 0 }, Half.A, 3, 0, [], { img := {}, hdr := List.replicate 128 0 }, by unfold RunsAt; decide +kernel⟩,
    ⟨((fun s : State => { s with upd.stg := some ({ img := {}, hdr := List.replicate 128 0 } : Staging) }) ((site.mTwn Half.A fun z' => { z' with up := true }).srf .mbx Half.A 0 18 16 3)).mh Half.A fun z' => { z' with thm.flashHold := true }, { half := Half.A, ring := 28, ctag := 1, hb := 0 }, Half.A, 3, 3712 + ({ img := {}, hdr := List.replicate 128 0 } : Staging).data.length, [], { img := {}, hdr := List.replicate 128 0 }, by unfold RunsAt; decide +kernel⟩,
    ⟨(fun s : State => { s with upd.stg := some ({ img := {}, hdr := List.replicate 128 0 } : Staging) }) (((site.mTwn Half.A fun z' => { z' with up := true }).mh Half.A fun z' => { z' with thm.flashHold := false }).srf .mbx Half.A 0 18 16 3), { half := Half.A, ring := 28, ctag := 1, hb := 0 }, Half.A, 3, 3712 + ({ img := {}, hdr := List.replicate 128 0 } : Staging).data.length, [], { img := {}, hdr := List.replicate 128 0 }, by unfold RunsAt; decide +kernel⟩,
    ⟨((fun s : State => { s with upd.stg := some ({ img := {}, hdr := List.replicate 128 0 } : Staging) }) (site.srf .mbx Half.A 0 18 16 3)).mTwn Half.A fun z' => { z' with up := false }, { half := Half.A, ring := 28, ctag := 1, hb := 0 }, Half.A, 3, 0, [], { img := {}, hdr := List.replicate 128 0 }, by unfold RunsAt; decide +kernel⟩,
    ⟨(fun s : State => { s with upd.stg := none }) (site.srf .mbx Half.A 0 18 16 3), { half := Half.A, ring := 28, ctag := 1, hb := 0 }, Half.A, 3, 0, 0, by unfold RunsAt; decide +kernel⟩,
    ⟨(fun s : State => { s with upd.stg := some ({ img := {}, hdr := List.replicate 128 0 } : Staging) }) (site.srf .mbx Half.A 0 18 16 3), { half := Half.A, ring := 28, ctag := 1, hb := 0 }, Half.A, 3, 64, 0, { img := {}, hdr := List.replicate 128 0 }, by unfold RunsAt; decide +kernel⟩,
    ⟨((fun s : State => { s with upd.stg := some ({ img := {}, hdr := List.replicate 128 0 } : Staging) }) (site.srf .mbx Half.A 0 18 16 3)).mTwn Half.A fun z' => { z' with up := false }, { half := Half.A, ring := 28, ctag := 1, hb := 0 }, Half.A, 3, 0, 0, { img := {}, hdr := List.replicate 128 0 }, by unfold RunsAt; decide +kernel⟩,
    ⟨(fun s : State => { s with upd.stg := some ({ img := {}, hdr := List.replicate 128 0 } : Staging) }) ((site.mTwn Half.A fun z' => { z' with up := true }).srf .mbx Half.A 0 18 16 3), { half := Half.A, ring := 28, ctag := 1, hb := 0 }, Half.A, 3, 0, 0, { img := {}, hdr := List.replicate 128 0 }, by unfold RunsAt; decide +kernel⟩,
    ⟨(fun s : State => { s with upd.stg := some (wstg 0 : Staging) }) ((site.mTwn Half.A fun z' => { z' with up := true }).srf .mbx Half.A 0 18 16 3), { half := Half.A, ring := 28, ctag := 1, hb := 0 }, Half.A, 3, 1, 0, wstg 0, by unfold RunsAt; decide +kernel⟩,
    ⟨(((fun s : State => { s with upd.stg := some (wstg 0 : Staging) }) (site.srf .mbx Half.A 0 18 16 3)).mTwn Half.A fun z' => { z' with up := true }).mh (other Half.A) fun z' => { z' with thm.flashHold := true }, { half := Half.A, ring := 28, ctag := 1, hb := 0 }, Half.A, 3, 1, 0, wstg 0, by unfold RunsAt; decide +kernel⟩,
    ⟨(fun s : State => { s with upd.stg := some (wstg 0x10 : Staging) }) (site.srf .mbx Half.A 0 18 16 3), { half := Half.A, ring := 28, ctag := 1, hb := 0 }, Half.A, 3, 0, 0, wstg 0x10, by unfold RunsAt; decide +kernel⟩,
    ⟨site.srf .mbx Half.A 0 18 16 3, { half := Half.A, ring := 28, ctag := 1, hb := 0 }, Half.A, 3, 0, 0, 0, by unfold RunsAt; decide +kernel⟩,
    ⟨site.srf .mbx Half.A 0 18 16 3, { half := Half.A, ring := 28, ctag := 1, hb := 0 }, Half.A, 3, 16, 1, 0, by unfold RunsAt; decide +kernel⟩,
    ⟨((fun s : State => { s with upd.store := [({ img := { target := 0x10 }, bytes := [1] } : RemImg)] }) (site.srf .mbx Half.A 0 18 16 3)).mPort .A 0 fun q => { q with pstate := 4 }, { half := Half.A, ring := 28, ctag := 1, hb := 0 }, Half.A, 3, 16, 1, 0, { img := { target := 0x10 }, bytes := [1] }, by unfold RunsAt; decide +kernel⟩,
    ⟨(fun s : State => { s with upd := { s.upd with store := [{ img := { target := 0x10 }, bytes := [1] }] } }) ((site.mPort Half.A 0 fun z' => { z' with pstate := 5 }).srf .mbx Half.A 0 18 16 3), { half := Half.A, ring := 28, ctag := 1, hb := 0 }, Half.A, 3, 16, 1, 0, 0, by unfold RunsAt; decide +kernel⟩,
    ⟨sImagesStagedAndForwarded25, ((sImagesStagedAndForwarded25.takeMsg .A 0 0x43 (fun m => m.headD 0 == 7)).getD ([], sImagesStagedAndForwarded25)).2, Half.A, 0, updst 1 0, { imgid := 1, target := 4, by_ := .A, at_ := 0, org := some ⟨.A, 28, 2, 0⟩ }, by decide +kernel⟩,
    ⟨sImagesStagedAndForwarded26, ((sImagesStagedAndForwarded26.takeMsg .A 0 0x43 (fun m => m.headD 0 == 7)).getD ([], sImagesStagedAndForwarded26)).2, Half.A, 0, updst 3 9, { imgid := 1, target := 4, by_ := .A, at_ := 0, org := some ⟨.A, 28, 2, 0⟩ }, ⟨.A, 28, 2, 0⟩, by unfold Running; decide +kernel⟩,
    ⟨sImagesStagedAndForwarded27, ((sImagesStagedAndForwarded27.takeMsg .A 0 0x43 (fun m => m.headD 0 == 7)).getD ([], sImagesStagedAndForwarded27)).2, Half.A, 0, updst 4 0, { imgid := 1, target := 4, by_ := .A, at_ := 0, org := some ⟨.A, 28, 2, 0⟩ }, ⟨.A, 28, 2, 0⟩, by unfold Running; decide +kernel⟩,
    ⟨site, 0, by decide +kernel⟩,
    ⟨sImagesStagedAndForwarded29, ((sImagesStagedAndForwarded29.takeMsg .A 0 0x43 (fun m => m.headD 0 == 7)).getD ([], sImagesStagedAndForwarded29)).2, Half.A, 0, updst 4 0, by decide +kernel⟩,
    ⟨(fun s : State => { s with upd.tx := Machine.put none s.upd.tx 0 (some ({ ({ imgid := 1, target := 4, by_ := .A, at_ := 0, org := none } : RemTx) with told := true } : RemTx)) }) site, 0, { ({ imgid := 1, target := 4, by_ := .A, at_ := 0, org := none } : RemTx) with told := true }, by decide +kernel⟩,
    ⟨(fun s : State => { s with upd.tx := Machine.put none s.upd.tx 0 (some ({ ({ imgid := 1, target := 4, by_ := .A, at_ := 0, org := none } : RemTx) with told := true } : RemTx)) }) site, 0, { ({ imgid := 1, target := 4, by_ := .A, at_ := 0, org := none } : RemTx) with told := true }, by decide +kernel⟩,
    ⟨site, 0, all_some (by decide +kernel)⟩,
    ⟨site.srf .mbx Half.A 0 18 16 1, { half := Half.A, ring := 28, ctag := 1, hb := 0 }, Half.A, 1, by unfold RunsAt Room; decide +kernel⟩⟩

def Sys2Proof.Tests.sBootActivationAndRecovery0 : State := ((site.mRec 0 fun z' => { z' with tries := 1 }).mRec 0 fun z' => { z' with run := none }).mRec 0 fun y => { y with run := none, tries := 0, b1 := { st := 2 } }
def Sys2Proof.Tests.sBootActivationAndRecovery1 : State := site.mRec 0 fun z' => { z' with run := none }
def Sys2Proof.Tests.sBootActivationAndRecovery2 : State := (site.mRec 0 fun z' => { z' with run := none }).mRec 0 fun y => { y with run := none, tries := 2, b1 := { st := 2 } }
def Sys2Proof.Tests.sBootActivationAndRecovery3 : State := (((fun s : State => { s with upd.act := some (wact 0 4 : ActS) }) ((site.mRec 0 fun z' => { z' with tries := 2 }).mRec 0 fun z' => { z' with run := none })).run9 0x0E04).mRec 0 fun y => { y with run := none, tries := 2, b1 := { st := 2 } }
def Sys2Proof.Tests.sBootActivationAndRecovery18 : State := (site.stagedAt 2 { target := 2 }).srf .mbx .A 0 18 16 3
def Sys2Proof.Tests.sBootActivationAndRecovery20 : State := (((fun s : State => { s with upd.act := none }) (site.srf .mbx Half.A 0 18 16 4)).mRec 3 fun z' => { z' with b1 := { st := 1, img := ((some ({  } : ImgInfo)).getD {}) } }).mh Half.A fun z' => { z' with cnp.chgs := [] }
def Sys2Proof.Tests.sBootActivationAndRecovery22 : State := (((((((fun s : State => { s with upd.act := none }) (site.srf .mbx Half.A 0 18 16 3)).mTwn Half.A fun z' => { z' with up := true }).mh (other Half.A) fun z' => { z' with twn.service := true }).mh Half.A fun z' => { z' with cnp.chgs := [] }).mRec 0 fun z' => { z' with b1 := { st := 1, img := ((some ({} : ImgInfo)).getD {}) } }).stagedAt 0 {}).stagedAt 1 {}
def Sys2Proof.Tests.sBootActivationAndRecovery29 : State := (fun s : State => { s with upd := { s.upd with act := some { wact 0 1 with org := ⟨.B, 28, 2, 0⟩ } } }) ((fun s : State => ((tickSite 1300000).mh .B fun y => { y with mbx.started := [{ org := ⟨.B, 28, 2, 0⟩, opc := 0x0E04, role := 3, cseq := 0, exec := some .A }] }).mRec 0 fun y => { y with b1 := { st := 2 } }) ((fun s : State => { s with upd.act := some ({ wact 0 1 with org := ⟨.B, 28, 2, 0⟩ } : ActS) }) site))
def Sys2Proof.Tests.sBootActivationAndRecovery32 : State := (fun s : State => { s with upd := { s.upd with act := some { wact 0 5 with at_ := 5 } } }) (((fun s : State => { s with upd.act := some ({ wact 0 5 with at_ := 5 } : ActS) }) site).stagedAt 0 {})
def Sys2Proof.Tests.sBootActivationAndRecovery40 : State := (site.mRecov Half.A fun z' => { z' with seq := none }).mh Half.A fun z' => { z' with twn.recov := true }
def Sys2Proof.Tests.sBootActivationAndRecovery46 : State := ((site.mRecov Half.A fun z' => { z' with seq := none }).mh Half.A fun z' => { z' with twn.recov := true }).mRecov Half.A fun z' => { z' with img := some ({  } : ImgInfo) }
def Sys2Proof.Tests.sBootActivationAndRecovery49 : State := ((((site.mRecov Half.A fun z' => { z' with seq := none }).mh Half.A fun z' => { z' with twn.recov := true }).mRecov Half.A fun z' => { z' with img := some ({} : ImgInfo) }).inRecov 0 (whdr 1 0 0 0 3 0 [5])).mRecov .A fun y => { y with hdr := y.hdr ++ [(3, (whdr 1 0 0 0 3 0 [5]).drop 3072)], img := some {}, data := [5] }

/-- Every hypothesis of BootActivationAndRecovery is met, clause by clause. -/
theorem Sys2Proof.Tests.witness_BootActivationAndRecovery :
    (∃ (s : State) (k : Nat) (i : Nat), k < 6 ∧ (s.brec k).run = none ∧ ((∀ h : Half, k % 4 = hbit h → (s.hf h).twn.off = false)) ∧ (s.brec k).find 2 = some i ∧ ((s.brec k).bank i).bad = false ∧ (s.brec k).tries < 2) ∧
    (∃ (s : State) (k : Nat) (i : Nat), k < 6 ∧ (s.brec k).run = none ∧ ((∀ h : Half, k % 4 = hbit h → (s.hf h).twn.off = false)) ∧ (s.brec k).find 2 = none ∧ (s.brec k).find 3 = some i ∧ ((s.brec k).bank i).bad = false) ∧
    (∃ (s : State) (k : Nat) (i : Nat) (j : Nat), k < 6 ∧ (s.brec k).run = none ∧ ((∀ h : Half, k % 4 = hbit h → (s.hf h).twn.off = false)) ∧ (s.brec k).find 2 = some i ∧ (((s.brec k).bank i).bad = true ∨ 2 ≤ (s.brec k).tries) ∧ (s.brec k).find 3 = some j ∧ ((s.brec k).bank j).bad = false) ∧
    (∃ (s : State) (k : Nat) (i : Nat) (j : Nat) (a : ActS), k < 6 ∧ (s.brec k).run = none ∧ ((∀ h : Half, k % 4 = hbit h → (s.hf h).twn.off = false)) ∧ (s.brec k).find 2 = some i ∧ 2 ≤ (s.brec k).tries ∧ (s.brec k).find 3 = some j ∧ ((s.brec k).bank j).bad = false ∧ s.upd.act = some a ∧ k ∈ actRecs a.part ∧ ((s.hf a.org.half).mbx.started.any fun c => sameCmd c.org a.org) = true) ∧
    (∃ (s : State) (h : Half) (k : Nat), (k = hbit h ∨ k = 4 + hbit h) ∧ (s.brec k).run = none ∧ (s.hf h).twn.off = false ∧ (s.brec k).find 2 = none ∧ ((∀ i, (s.brec k).find 3 = some i → ((s.brec k).bank i).bad = true))) ∧
    (∃ (s : State) (k : Nat), (6 ≤ k ∨ (s.brec k).run.isSome = true ∨ (∃ h : Half, k % 4 = hbit h ∧ (s.hf h).twn.off = true))) ∧
    (∃ (s : State) (h : Half) (p : Nat) (st : Nat) (k : Nat) (i : Nat) (d : List Nat), p = hbit h ∧ (s.hf h).twn.off = false ∧ (s.hf h).twn.recov = false ∧ st = look 0 s.upd.stage p + 1 ∧ (st = 1 ∨ st = 2) ∧ k = (if st = 1 then 4 + p else p) ∧ (s.brec k).run = some i) ∧
    (∃ (s : State) (h : Half) (p : Nat) (d : List Nat), p = hbit h ∧ (s.hf h).twn.off = false ∧ (s.hf h).twn.recov = false ∧ look 0 s.upd.stage p = 2) ∧
    (∃ (s : State) (p : Nat) (k : Nat) (i : Nat) (d : List Nat), (p = 2 ∨ p = 3) ∧ k = p ∧ (s.brec k).run = some i) ∧
    (∃ (s : State) (p : Nat) (st : Nat) (k : Nat) (i : Nat) (d : List Nat), ((st = 2 ∧ k = p ∧ (p = 2 ∨ p = 3)) ∨ (∃ h : Half, p = hbit h ∧ (s.hf h).twn.off = false ∧ (s.hf h).twn.recov = false ∧ st = look 0 s.upd.stage p + 1 ∧ ((st = 1 ∧ k = 4 + p) ∨ (st = 2 ∧ k = p)))) ∧ (s.brec k).run = some i) ∧
    (∃ (s : State) (p : Nat) (st : Nat) (b : Bool) (d : List Nat), (4 ≤ p ∨ st = 0 ∨ 3 < st ∨ (p < 2 ∧ st ≠ look 0 s.upd.stage p + 1) ∨ (2 ≤ p ∧ st ≠ 2))) ∧
    (∃ (s : State) (o : Org) (x : Half) (role : Nat) (p : Nat) (f : Nat) (a : Nat), RunsAt s o 0x0E04 x role ∧ role ∈ updRoles ∧ 3 < p) ∧
    (∃ (s : State) (o : Org) (x : Half) (role : Nat) (p : Nat) (f : Nat) (a : Nat), RunsAt s o 0x0E04 x role ∧ role ∈ updRoles ∧ p ≤ 3 ∧ (¬(role = 4 ↔ p = 3))) ∧
    (∃ (s : State) (o : Org) (x : Half) (role : Nat) (p : Nat) (f : Nat) (a : Nat), RunsAt s o 0x0E04 x role ∧ role ∈ updRoles ∧ p ≤ 3 ∧ ((role = 4 ↔ p = 3)) ∧ (s.upd.act.isSome = true ∨ (∃ k < 6, k ∉ actRecs p ∧ ((s.brec k).find 2).isSome = true))) ∧
    (∃ (s : State) (o : Org) (x : Half) (role : Nat) (p : Nat) (f : Nat) (a : Nat), RunsAt s o 0x0E04 x role ∧ role ∈ updRoles ∧ p ≤ 3 ∧ ((role = 4 ↔ p = 3)) ∧ s.upd.act = none ∧ ((∀ k < 6, k ∉ actRecs p → (s.brec k).find 2 = none)) ∧ (∀ k ∈ actRecs p, s.stagedImg k = none)) ∧
    (∃ (s : State) (o : Org) (x : Half) (role : Nat) (p : Nat) (f : Nat) (a : Nat) (g : ImgInfo), RunsAt s o 0x0E04 x role ∧ role ∈ updRoles ∧ p ≤ 3 ∧ ((role = 4 ↔ p = 3)) ∧ s.upd.act = none ∧ ((∀ k < 6, k ∉ actRecs p → (s.brec k).find 2 = none)) ∧ (∀ k ∈ actRecs p, (s.stagedImg k).isSome = true) ∧ (p = 2 ∨ p = 3) ∧ s.stagedImg p = some g ∧ compatible (s.withImage [p] g) = false) ∧
    (∃ (s : State) (o : Org) (x : Half) (role : Nat) (p : Nat) (f : Nat) (a : Nat) (g : ImgInfo), RunsAt s o 0x0E04 x role ∧ role ∈ updRoles ∧ p ≤ 3 ∧ ((role = 4 ↔ p = 3)) ∧ s.upd.act = none ∧ ((∀ k < 6, k ∉ actRecs p → (s.brec k).find 2 = none)) ∧ (∀ k ∈ actRecs p, (s.stagedImg k).isSome = true) ∧ (p = 2 ∨ p = 3) ∧ s.stagedImg p = some g ∧ compatible (s.withImage [p] g) = true ∧ (s.hf x).cnp.chgs ≠ []) ∧
    (∃ (s : State) (o : Org) (x : Half) (role : Nat) (p : Nat) (f : Nat) (a : Nat) (g : ImgInfo) (z : Nat), RunsAt s o 0x0E04 x role ∧ role ∈ updRoles ∧ p ≤ 3 ∧ ((role = 4 ↔ p = 3)) ∧ s.upd.act = none ∧ ((∀ k < 6, k ∉ actRecs p → (s.brec k).find 2 = none)) ∧ p = 2 ∧ s.stagedImg p = some g ∧ compatible (s.withImage [p] g) = true ∧ (s.hf x).cnp.chgs = [] ∧ z < 8 ∧ (s.zone z).st ≠ 0 ∧ (s.zone z).st ≠ 3) ∧
    (∃ (s : State) (o : Org) (x : Half) (role : Nat) (p : Nat) (f : Nat) (a : Nat) (g : ImgInfo) (i : Nat), RunsAt s o 0x0E04 x role ∧ role ∈ updRoles ∧ p ≤ 3 ∧ ((role = 4 ↔ p = 3)) ∧ s.upd.act = none ∧ ((∀ k < 6, k ∉ actRecs p → (s.brec k).find 2 = none)) ∧ p = 2 ∧ s.stagedImg p = some g ∧ compatible (s.withImage [p] g) = true ∧ (s.hf x).cnp.chgs = [] ∧ (∀ z < 8, (s.zone z).st = 0 ∨ (s.zone z).st = 3) ∧ (s.brec 2).find 1 = some i) ∧
    (∃ (s : State) (o : Org) (x : Half) (role : Nat) (p : Nat) (f : Nat) (a : Nat) (g : ImgInfo), RunsAt s o 0x0E04 x role ∧ role ∈ updRoles ∧ p ≤ 3 ∧ ((role = 4 ↔ p = 3)) ∧ s.upd.act = none ∧ ((∀ k < 6, k ∉ actRecs p → (s.brec k).find 2 = none)) ∧ p = 3 ∧ s.stagedImg p = some g ∧ compatible (s.withImage [p] g) = true ∧ (s.hf x).cnp.chgs = [] ∧ 1024 ≤ s.met.mlog.recs.length) ∧
    (∃ (s : State) (o : Org) (x : Half) (role : Nat) (p : Nat) (f : Nat) (a : Nat) (g : ImgInfo) (i : Nat), RunsAt s o 0x0E04 x role ∧ role ∈ updRoles ∧ p ≤ 3 ∧ ((role = 4 ↔ p = 3)) ∧ s.upd.act = none ∧ ((∀ k < 6, k ∉ actRecs p → (s.brec k).find 2 = none)) ∧ p = 3 ∧ s.stagedImg p = some g ∧ compatible (s.withImage [p] g) = true ∧ (s.hf x).cnp.chgs = [] ∧ s.met.mlog.recs.length < 1024 ∧ (s.brec 3).find 1 = some i) ∧
    (∃ (s : State) (o : Org) (x : Half) (role : Nat) (p : Nat) (f : Nat) (a : Nat), RunsAt s o 0x0E04 x role ∧ role ∈ updRoles ∧ p ≤ 3 ∧ ((role = 4 ↔ p = 3)) ∧ s.upd.act = none ∧ ((∀ k < 6, k ∉ actRecs p → (s.brec k).find 2 = none)) ∧ p < 2 ∧ s.twinUp x = true ∧ (s.hf (other x)).twn.service = true ∧ (s.hf x).cnp.chgs = [] ∧ ((∃ g, s.stagedImg (4 * p) = some g ∧ (p = 0 → s.compatWith 1 g = true))) ∧ (s.stagedImg (4 * p + 1)).isSome = true ∧ a ≠ 0) ∧
    (∃ (s : State) (o : Org) (x : Half) (role : Nat) (p : Nat) (f : Nat) (a : Nat) (k : Nat) (i : Nat) (g : ImgInfo), RunsAt s o 0x0E04 x role ∧ role ∈ updRoles ∧ p ≤ 3 ∧ ((role = 4 ↔ p = 3)) ∧ s.upd.act = none ∧ ((∀ k < 6, k ∉ actRecs p → (s.brec k).find 2 = none)) ∧ p = 0 ∧ s.twinUp x = true ∧ (s.hf (other x)).twn.service = true ∧ s.compatWith 1 g = true ∧ (s.hf x).cnp.chgs = [] ∧ s.stagedImg 0 = some g ∧ (s.stagedImg 1).isSome = true ∧ a = 0 ∧ o.half = x ∧ k = hbit (other x) ∧ (s.brec k).find 1 = some i) ∧
    (∃ (s : State) (o : Org) (x : Half) (role : Nat) (p : Nat) (f : Nat) (a : Nat) (g : ImgInfo), RunsAt s o 0x0E04 x role ∧ role ∈ updRoles ∧ p ≤ 3 ∧ ((role = 4 ↔ p = 3)) ∧ s.upd.act = none ∧ ((∀ k < 6, k ∉ actRecs p → (s.brec k).find 2 = none)) ∧ p = 0 ∧ (s.twinUp x = false ∨ (s.hf (other x)).twn.service = false) ∧ s.compatWith 1 g = true ∧ (s.hf x).cnp.chgs = [] ∧ s.stagedImg (hbit x) = some g ∧ a < s.tick x + 40000) ∧
    (∃ (s : State) (o : Org) (x : Half) (role : Nat) (p : Nat) (f : Nat) (a : Nat) (g : ImgInfo) (k : Nat), RunsAt s o 0x0E04 x role ∧ role ∈ updRoles ∧ p ≤ 3 ∧ ((role = 4 ↔ p = 3)) ∧ s.upd.act = none ∧ ((∀ k < 6, k ∉ actRecs p → (s.brec k).find 2 = none)) ∧ p = 0 ∧ (s.twinUp x = false ∨ (s.hf (other x)).twn.service = false) ∧ s.compatWith 1 g = true ∧ (s.hf x).cnp.chgs = [] ∧ s.stagedImg (hbit x) = some g ∧ s.tick x + 40000 ≤ a ∧ f.testBit 0 = false ∧ k < 48 ∧ 1 ≤ (s.veh1 k).c.st ∧ (s.veh1 k).c.st ≤ 9) ∧
    (∃ (s : State) (o : Org) (x : Half) (role : Nat) (p : Nat) (f : Nat) (a : Nat) (g : ImgInfo), RunsAt s o 0x0E04 x role ∧ role ∈ updRoles ∧ p ≤ 3 ∧ ((role = 4 ↔ p = 3)) ∧ s.upd.act = none ∧ ((∀ k < 6, k ∉ actRecs p → (s.brec k).find 2 = none)) ∧ p = 0 ∧ (s.twinUp x = false ∨ (s.hf (other x)).twn.service = false) ∧ s.compatWith 1 g = true ∧ (s.hf x).cnp.chgs = [] ∧ s.stagedImg (hbit x) = some g ∧ s.tick x + 40000 ≤ a ∧ (f.testBit 0 = true ∨ (∀ k < 48, (s.veh1 k).c.st = 0 ∨ 10 ≤ (s.veh1 k).c.st))) ∧
    (∃ (s : State) (h : Half) (a : ActS), s.upd.act = some a ∧ s.charge = some h ∧ a.st = 4 ∧ a.clean + 20000 * s.rf .upd h 0 16 0 ≤ s.now ∧ ((s.hf a.org.half).mbx.started.any fun c => sameCmd c.org a.org) = true) ∧
    (∃ (s : State), s.upd.act = none) ∧
    (∃ (s : State) (h : Half) (a : ActS), s.upd.act = some a ∧ s.charge = some h ∧ (a.st ≠ 4 ∨ s.now < a.clean + 20000 * s.rf .upd h 0 16 0)) ∧
    (∃ (s : State) (a : ActS) (k : Nat) (i : Nat), s.upd.act = some a ∧ a.st = 1 ∧ a.start + 1200000 ≤ s.now ∧ a.part = 0 ∧ a.org.half ≠ a.first ∧ k = hbit a.first ∧ (s.brec k).find 2 = some i ∧ ((s.hf a.org.half).mbx.started.any fun c => sameCmd c.org a.org) = true) ∧
    (∃ (s : State) (h : Half) (a : ActS), s.upd.act = some a ∧ s.charge = some h ∧ (a.st ≠ 1 ∨ s.now < a.start + 1200000)) ∧
    (∃ (s : State) (h : Half) (a : ActS), s.upd.act = some a ∧ s.charge = some h ∧ a.st = 5 ∧ a.at_ ≤ s.now + 20000) ∧
    (∃ (s : State) (h : Half) (a : ActS) (i : Nat), s.upd.act = some a ∧ s.charge = some h ∧ a.st = 5 ∧ a.at_ ≤ s.now ∧ a.part = 0 ∧ (s.brec (hbit h)).find 1 = some i) ∧
    (∃ (s : State) (h : Half) (a : ActS), s.upd.act = some a ∧ s.charge = some h ∧ (a.st ≠ 5 ∨ s.now + 20000 < a.at_)) ∧
    (∃ (s : State) (o : Org) (x : Half) (role : Nat) (n : Nat), RunsAt s o 0x0E07 x role ∧ role ∈ [rVendor] ∧ (n = 0 ∨ 3 ≤ n)) ∧
    (∃ (s : State) (o : Org) (x : Half) (role : Nat) (h : Half), RunsAt s o 0x0E07 x role ∧ role ∈ [rVendor] ∧ o.half ≠ h) ∧
    (∃ (s : State) (h : Half) (q : Nat), (s.hf h).twn.recov = true ∧ (s.recov h).seq ≠ some q) ∧
    (∃ (s : State) (h : Half) (q : Nat) (off : Nat) (d : List Nat) (ec : Bool) (pq : Bool), (s.hf h).twn.recov = true ∧ (s.recov h).seq ≠ some q ∧ ((off ≠ 0 ∧ off ≠ 1024 ∧ off ≠ 2048 ∧ off ≠ 3072) ∨ 1024 < d.length)) ∧
    (∃ (s : State) (h : Half) (q : Nat) (off : Nat) (d : List Nat) (ec : Bool) (pq : Bool), (s.hf h).twn.recov = true ∧ (s.recov h).seq ≠ some q ∧ (off = 0 ∨ off = 1024 ∨ off = 2048) ∧ d.length ≤ 1024) ∧
    (∃ (s : State) (h : Half) (q : Nat) (b : List Nat) (d : List Nat) (ec : Bool) (pq : Bool), (s.hf h).twn.recov = true ∧ (s.recov h).seq ≠ some q ∧ b = ((List.range 3).flatMap fun i => look [] (s.recov h).hdr i) ++ d ∧ d.length ≤ 1024 ∧ hdrOk b = true ∧ s.sigGood b ec pq = true ∧ numAt b 6 1 < 2 ∧ numAt b 8 1 = 3 ∧ (s.brec (if numAt b 6 1 = 0 then 4 + hbit h else hbit h)).floor ≤ numAt b 16 4) ∧
    (∃ (s : State) (h : Half) (q : Nat) (b : List Nat) (d : List Nat) (ec : Bool) (pq : Bool), (s.hf h).twn.recov = true ∧ (s.recov h).seq ≠ some q ∧ b = ((List.range 3).flatMap fun i => look [] (s.recov h).hdr i) ++ d ∧ d.length ≤ 1024 ∧ hdrOk b = false) ∧
    (∃ (s : State) (h : Half) (q : Nat) (b : List Nat) (d : List Nat) (ec : Bool) (pq : Bool), (s.hf h).twn.recov = true ∧ (s.recov h).seq ≠ some q ∧ b = ((List.range 3).flatMap fun i => look [] (s.recov h).hdr i) ++ d ∧ d.length ≤ 1024 ∧ hdrOk b = true ∧ s.sigGood b ec pq = false) ∧
    (∃ (s : State) (h : Half) (q : Nat) (b : List Nat) (d : List Nat) (ec : Bool) (pq : Bool), (s.hf h).twn.recov = true ∧ (s.recov h).seq ≠ some q ∧ b = ((List.range 3).flatMap fun i => look [] (s.recov h).hdr i) ++ d ∧ d.length ≤ 1024 ∧ hdrOk b = true ∧ s.sigGood b ec pq = true ∧ (2 ≤ numAt b 6 1 ∨ numAt b 8 1 ≠ 3)) ∧
    (∃ (s : State) (h : Half) (q : Nat) (b : List Nat) (d : List Nat) (ec : Bool) (pq : Bool), (s.hf h).twn.recov = true ∧ (s.recov h).seq ≠ some q ∧ b = ((List.range 3).flatMap fun i => look [] (s.recov h).hdr i) ++ d ∧ d.length ≤ 1024 ∧ hdrOk b = true ∧ s.sigGood b ec pq = true ∧ numAt b 6 1 < 2 ∧ numAt b 8 1 = 3 ∧ numAt b 16 4 < (s.brec (if numAt b 6 1 = 0 then 4 + hbit h else hbit h)).floor) ∧
    (∃ (s : State) (h : Half) (q : Nat) (off : Nat) (d : List Nat), (s.hf h).twn.recov = true ∧ (s.recov h).seq ≠ some q ∧ (s.recov h).img = none) ∧
    (∃ (s : State) (h : Half) (q : Nat) (off : Nat) (d : List Nat) (g : ImgInfo), (s.hf h).twn.recov = true ∧ (s.recov h).seq ≠ some q ∧ (s.recov h).img = some g ∧ (off ≠ 3712 + (s.recov h).data.length ∨ 1024 < d.length ∨ g.len < (s.recov h).data.length + d.length)) ∧
    (∃ (s : State) (h : Half) (q : Nat) (off : Nat) (d : List Nat) (g : ImgInfo), (s.hf h).twn.recov = true ∧ (s.recov h).seq ≠ some q ∧ (s.recov h).img = some g ∧ off = 3712 + (s.recov h).data.length ∧ d.length ≤ 1024 ∧ (s.recov h).data.length + d.length ≤ g.len) ∧
    (∃ (s : State) (h : Half) (q : Nat), (s.hf h).twn.recov = true ∧ (s.recov h).seq ≠ some q ∧ (s.recov h).img = none) ∧
    (∃ (s : State) (h : Half) (q : Nat) (g : ImgInfo), (s.hf h).twn.recov = true ∧ (s.recov h).seq ≠ some q ∧ (s.recov h).img = some g ∧ payloadOk ((List.range 4).flatMap fun i => look [] (s.recov h).hdr i) (s.recov h).data = false) ∧
    (∃ (s : State) (h : Half) (q : Nat) (k : Nat) (i : Nat) (g : ImgInfo), (s.hf h).twn.recov = true ∧ (s.recov h).seq ≠ some q ∧ (s.recov h).img = some g ∧ payloadOk ((List.range 4).flatMap fun i => look [] (s.recov h).hdr i) (s.recov h).data = true ∧ k = (if g.target = 0 then 4 + hbit h else hbit h) ∧ i = (if (s.brec k).b0.st = 3 then 1 else 0)) ∧
    (∃ (s : State) (h : Half) (q : Nat), (s.hf h).twn.recov = true ∧ (s.recov h).seq ≠ some q) ∧
    (∃ (s : State) (h : Half) (q : Nat) (off : Nat) (d : List Nat) (a : Bool) (b : Bool), ((s.hf h).twn.recov = false ∨ (s.recov h).seq = some q)) :=
   ⟨⟨sBootActivationAndRecovery0, 0, ((sBootActivationAndRecovery0.brec 0).find 2).getD 0, by decide +kernel, by decide +kernel, by intro h; cases h <;> decide +kernel, by decide +kernel⟩,
    ⟨sBootActivationAndRecovery1, 0, ((sBootActivationAndRecovery1.brec 0).find 3).getD 0, by decide +kernel, by decide +kernel, by intro h; cases h <;> decide +kernel, by decide +kernel⟩,
    ⟨sBootActivationAndRecovery2, 0, ((sBootActivationAndRecovery2.brec 0).find 2).getD 0, 0, by decide +kernel, by decide +kernel, by intro h; cases h <;> decide +kernel, by decide +kernel⟩,
    ⟨sBootActivationAndRecovery3, 0, ((sBootActivationAndRecovery3.brec 0).find 2).getD 0, 0, wact 0 4, by decide +kernel, by decide +kernel, by intro h; cases h <;> decide +kernel, by decide +kernel⟩,
    ⟨((site.mRec 0 fun z' => { z' with run := none }).mh Half.A fun z' => { z' with twn.off := false }).mRec 0 fun y => { y with run := none, b0 := { st := 3, bad := true } }, Half.A, 0, by decide +kernel, by decide +kernel, by decide +kernel, by decide +kernel, all_some (by decide +kernel)⟩,
    ⟨site, 6, Or.inl (by decide)⟩,
    ⟨(((site.mh Half.A fun z' => { z' with twn.off := false }).mh Half.A fun z' => { z' with twn.recov := false }).mRec 4 fun z' => { z' with run := some 0 }).mRec 4 fun y => { y with run := some 0 }, Half.A, hbit Half.A, 1, 4, 0, [], by decide +kernel⟩,
    ⟨(fun s : State => { s with upd.stage := Machine.put 0 s.upd.stage (hbit Half.A) (2) }) ((site.mh Half.A fun z' => { z' with twn.off := false }).mh Half.A fun z' => { z' with twn.recov := false }), Half.A, hbit Half.A, [], by decide +kernel⟩,
    ⟨site.mRec (2) fun z' => { z' with run := some 0 }, 2, 2, 0, [], by decide +kernel⟩,
    ⟨site.mRec 4 fun z' => { z' with run := some 0 }, 0, 1, 4, 0, [], Or.inr ⟨.A, by decide +kernel⟩, by decide +kernel⟩,
    ⟨site, 0, 0, true, [], by decide +kernel⟩,
    ⟨site.srf .mbx Half.A 0 18 16 3, { half := Half.A, ring := 28, ctag := 1, hb := 0 }, Half.A, 3, 4, 0, 0, by unfold RunsAt; decide +kernel⟩,
    ⟨site.srf .mbx Half.A 0 18 16 3, { half := Half.A, ring := 28, ctag := 1, hb := 0 }, Half.A, 3, 3, 0, 0, by unfold RunsAt; decide +kernel⟩,
    ⟨(fun s : State => { s with upd := { s.upd with act := some (wact 0 4) } }) (site.srf .mbx Half.A 0 18 16 3), { half := Half.A, ring := 28, ctag := 1, hb := 0 }, Half.A, 3, 0, 0, 0, by unfold RunsAt; decide +kernel⟩,
    ⟨(fun s : State => { s with upd.act := none }) (site.srf .mbx Half.A 0 18 16 3), { half := Half.A, ring := 28, ctag := 1, hb := 0 }, Half.A, 3, 0, 0, 0, by unfold RunsAt; decide +kernel⟩,
    ⟨(((fun s : State => { s with upd.act := none }) (site.srf .mbx Half.A 0 18 16 3)).mRec 2 fun z' => { z' with b1 := { st := 1, img := ((some ({ target := 2, ifrev := 5 } : ImgInfo)).getD {}) } }).stagedAt 2 { target := 2, ifrev := 5 }, { half := Half.A, ring := 28, ctag := 1, hb := 0 }, Half.A, 3, 2, 0, 0, { target := 2, ifrev := 5 }, by unfold RunsAt; decide +kernel⟩,
    ⟨((((fun s : State => { s with upd.act := none }) (site.srf .mbx Half.A 0 18 16 3)).mRec 2 fun z' => { z' with b1 := { st := 1, img := ((some ({ target := 2 } : ImgInfo)).getD {}) } }).stagedAt 2 { target := 2 }).mCnp .A fun y => { y with chgs := [{ outs := [] }] }, { half := Half.A, ring := 28, ctag := 1, hb := 0 }, Half.A, 3, 2, 0, 0, { target := 2 }, by unfold RunsAt; decide +kernel⟩,
    ⟨(((fun s : State => { s with upd.act := none }) (((site.mZone 0 fun z' => { z' with st := 1 }).mZone 0 fun z' => { z' with st := 4 }).srf .mbx Half.A 0 18 16 3)).mRec 2 fun z' => { z' with b1 := { st := 1, img := ((some ({  } : ImgInfo)).getD {}) } }).mh Half.A fun z' => { z' with cnp.chgs := [] }, { half := Half.A, ring := 28, ctag := 1, hb := 0 }, Half.A, 3, 2, 0, 0, {  }, 0, by unfold RunsAt; decide +kernel⟩,
    ⟨sBootActivationAndRecovery18, ⟨.A, 28, 1, 0⟩, Half.A, 3, 2, 0, 0, { target := 2 }, ((sBootActivationAndRecovery18.brec 2).find 1).getD 0, by unfold RunsAt; decide +kernel⟩,
    ⟨(fun s : State => ({ (s.stagedAt 3 { target := 3 }) with met := { s.met with mlog := { s.met.mlog with recs := List.replicate 1024 wlog } } } : State)) ((((fun s : State => { s with upd.act := none }) (site.srf .mbx Half.A 0 18 16 4)).mRec 3 fun z' => { z' with b1 := { st := 1, img := ((some ({ target := 3 } : ImgInfo)).getD {}) } }).mh Half.A fun z' => { z' with cnp.chgs := [] }), { half := Half.A, ring := 28, ctag := 1, hb := 0 }, Half.A, 4, 3, 0, 0, { target := 3 }, by unfold RunsAt; decide +kernel⟩,
    ⟨sBootActivationAndRecovery20, { half := Half.A, ring := 28, ctag := 1, hb := 0 }, Half.A, 4, 3, 0, 0, {  }, ((sBootActivationAndRecovery20.brec 3).find 1).getD 0, by unfold RunsAt; decide +kernel⟩,
    ⟨((((((fun s : State => { s with upd.act := none }) (site.srf .mbx Half.A 0 18 16 3)).mTwn Half.A fun z' => { z' with up := true }).mh (other Half.A) fun z' => { z' with twn.service := true }).mh Half.A fun z' => { z' with cnp.chgs := [] }).stagedAt 0 {}).stagedAt 1 {}, { half := Half.A, ring := 28, ctag := 1, hb := 0 }, Half.A, 3, 0, 0, 1, by unfold RunsAt; decide +kernel, by decide +kernel, by decide +kernel, by decide +kernel, by decide +kernel, by decide +kernel, by decide +kernel, by decide +kernel, by decide +kernel, by decide +kernel, ⟨{}, by decide +kernel⟩, by decide +kernel⟩,
    ⟨sBootActivationAndRecovery22, { half := Half.A, ring := 28, ctag := 1, hb := 0 }, Half.A, 3, 0, 0, 0, hbit (other Half.A), ((sBootActivationAndRecovery22.brec (hbit (other Half.A) : Nat)).find 1).getD 0, {}, by unfold RunsAt; decide +kernel⟩,
    ⟨(((fun s : State => { s with upd.act := none }) ((site.mTwn Half.A fun z' => { z' with up := false }).srf .mbx Half.A 0 18 16 3)).mh Half.A fun z' => { z' with cnp.chgs := [] }).mRec (hbit Half.A) fun z' => { z' with b1 := { st := 1, img := ((some ({  } : ImgInfo)).getD {}) } }, { half := Half.A, ring := 28, ctag := 1, hb := 0 }, Half.A, 3, 0, 0, 0, {  }, by unfold RunsAt; decide +kernel⟩,
    ⟨((((fun s : State => { s with upd.act := none }) ((((site.mTwn Half.A fun z' => { z' with up := false }).mVeh 0 fun z' => { z' with c.st := 1 }).mVeh 0 fun z' => { z' with c.st := 9 }).srf .mbx Half.A 0 18 16 3)).mh Half.A fun z' => { z' with cnp.chgs := [] }).mRec (hbit Half.A) fun z' => { z' with b1 := { st := 1, img := ((some ({} : ImgInfo)).getD {}) } }).stagedAt 0 {}, { half := Half.A, ring := 28, ctag := 1, hb := 0 }, Half.A, 3, 0, 0, 140000, {}, 0, by unfold RunsAt; decide +kernel⟩,
    ⟨((site.stagedAt 0 {}).srf .mbx .A 0 18 16 3).mTwn .B fun y => { y with service := false }, ⟨.A, 28, 1, 0⟩, Half.A, 3, 0, 1, 140000, {}, by unfold RunsAt; decide +kernel⟩,
    ⟨(fun s : State => ({ s with upd := { s.upd with act := some { wact 2 4 with clean := 10 } } })) ((fun s : State => ((tickSite 30000000).run9 0x0E04)) ((fun s : State => { s with upd.act := some ({ wact 2 4 with clean := 10 } : ActS) }) site)), Half.A, { wact 2 4 with clean := 10 }, by decide +kernel⟩,
    ⟨(fun s : State => { s with upd.act := none }) site, by decide +kernel⟩,
    ⟨(fun s : State => { s with upd.act := some ({ org := ⟨.A, 28, 2, 0⟩, part := 0, st := 1, first := .A, start := 0 } : ActS) }) site, Half.A, { org := ⟨.A, 28, 2, 0⟩, part := 0, st := 1, first := .A, start := 0 }, by decide +kernel⟩,
    ⟨sBootActivationAndRecovery29, { wact 0 1 with org := ⟨.B, 28, 2, 0⟩ }, 0, ((sBootActivationAndRecovery29.brec 0).find 2).getD 0, by decide +kernel⟩,
    ⟨(fun s : State => { s with upd.act := some ({ org := ⟨.A, 28, 2, 0⟩, part := 0, st := 1, first := .A, start := 0 } : ActS) }) site, Half.A, { org := ⟨.A, 28, 2, 0⟩, part := 0, st := 1, first := .A, start := 0 }, by decide +kernel⟩,
    ⟨(fun s : State => { s with upd.act := some ({ ({ org := ⟨.A, 28, 2, 0⟩, part := 0, st := 1, first := .A, start := 0 } : ActS) with st := 5 } : ActS) }) site, Half.A, { ({ org := ⟨.A, 28, 2, 0⟩, part := 0, st := 1, first := .A, start := 0 } : ActS) with st := 5 }, by decide +kernel⟩,
    ⟨sBootActivationAndRecovery32, Half.A, { wact 0 5 with at_ := 5 }, ((sBootActivationAndRecovery32.brec (hbit Half.A)).find 1).getD 0, by decide +kernel⟩,
    ⟨(fun s : State => { s with upd.act := some ({ org := ⟨.A, 28, 2, 0⟩, part := 0, st := 1, first := .A, start := 0 } : ActS) }) site, Half.A, { org := ⟨.A, 28, 2, 0⟩, part := 0, st := 1, first := .A, start := 0 }, by decide +kernel⟩,
    ⟨site.srf .mbx Half.A 0 18 16 5, { half := Half.A, ring := 28, ctag := 1, hb := 0 }, Half.A, 5, 0, by unfold RunsAt; decide +kernel⟩,
    ⟨site.srf .mbx Half.A 0 18 16 5, { half := Half.A, ring := 28, ctag := 1, hb := 0 }, Half.A, 5, Half.B, by unfold RunsAt; decide +kernel⟩,
    ⟨(site.mRecov Half.A fun z' => { z' with seq := none }).mh Half.A fun z' => { z' with twn.recov := true }, Half.A, 0, by decide +kernel⟩,
    ⟨(site.mRecov Half.A fun z' => { z' with seq := none }).mh Half.A fun z' => { z' with twn.recov := true }, Half.A, 0, 1, [], true, true, by decide +kernel⟩,
    ⟨(site.mRecov Half.A fun z' => { z' with seq := none }).mh Half.A fun z' => { z' with twn.recov := true }, Half.A, 0, 0, [], true, true, by decide +kernel⟩,
    ⟨((site.mRecov Half.A fun z' => { z' with seq := none }).mh Half.A fun z' => { z' with twn.recov := true }).inRecov 0 (whdr 1 0 0 0 3 0 [5]), Half.A, 0, whdr 1 0 0 0 3 0 [5], (whdr 1 0 0 0 3 0 [5]).drop 3072, true, true, by decide +kernel⟩,
    ⟨sBootActivationAndRecovery40, Half.A, 0, ((List.range 3).flatMap fun i => look [] (sBootActivationAndRecovery40.recov Half.A).hdr i) ++ ([] : List Nat), [], true, true, by decide +kernel⟩,
    ⟨((site.mRecov Half.A fun z' => { z' with seq := none }).mh Half.A fun z' => { z' with twn.recov := true }).inRecov 0 (whdr 1 0 0 0 3 0 [5]), Half.A, 0, whdr 1 0 0 0 3 0 [5], (whdr 1 0 0 0 3 0 [5]).drop 3072, false, true, by decide +kernel⟩,
    ⟨((site.mRecov Half.A fun z' => { z' with seq := none }).mh Half.A fun z' => { z' with twn.recov := true }).inRecov 0 (whdr 2 0 0 0 3 0 [5]), Half.A, 0, whdr 2 0 0 0 3 0 [5], (whdr 2 0 0 0 3 0 [5]).drop 3072, true, true, by decide +kernel⟩,
    ⟨(((site.mRecov Half.A fun z' => { z' with seq := none }).mRec (if numAt (whdr 0 0 0 0 3 0 [5] : List Nat) 6 1 = 0 then 4 + hbit Half.A else hbit Half.A) fun z' => { z' with floor := numAt (whdr 0 0 0 0 3 0 [5] : List Nat) 16 4 + 1 }).mh Half.A fun z' => { z' with twn.recov := true }).inRecov 3 (whdr 0 0 0 0 3 0 [5]), Half.A, 0, whdr 0 0 0 0 3 0 [5], (whdr 0 0 0 0 3 0 [5]).drop 3072, true, true, by decide +kernel⟩,
    ⟨((site.mRecov Half.A fun z' => { z' with seq := none }).mh Half.A fun z' => { z' with twn.recov := true }).mRecov Half.A fun z' => { z' with img := none }, Half.A, 0, 0, [], by decide +kernel⟩,
    ⟨((site.mRecov Half.A fun z' => { z' with seq := none }).mh Half.A fun z' => { z' with twn.recov := true }).mRecov Half.A fun z' => { z' with img := some ({  } : ImgInfo) }, Half.A, 0, 0, [], {  }, by decide +kernel⟩,
    ⟨sBootActivationAndRecovery46, Half.A, 0, 3712 + (sBootActivationAndRecovery46.recov Half.A).data.length, [], {  }, by decide +kernel⟩,
    ⟨((site.mRecov Half.A fun z' => { z' with seq := none }).mh Half.A fun z' => { z' with twn.recov := true }).mRecov Half.A fun z' => { z' with img := none }, Half.A, 0, by decide +kernel⟩,
    ⟨((site.mRecov Half.A fun z' => { z' with seq := none }).mh Half.A fun z' => { z' with twn.recov := true }).mRecov Half.A fun z' => { z' with img := some ({  } : ImgInfo) }, Half.A, 0, {  }, by decide +kernel⟩,
    ⟨sBootActivationAndRecovery49, Half.A, 0, (if ({} : ImgInfo).target = 0 then 4 + hbit Half.A else hbit Half.A), (if (sBootActivationAndRecovery49.brec ((if ({} : ImgInfo).target = 0 then 4 + hbit Half.A else hbit Half.A) : Nat)).b0.st = 3 then 1 else 0), {}, by decide +kernel⟩,
    ⟨(site.mRecov Half.A fun z' => { z' with seq := none }).mh Half.A fun z' => { z' with twn.recov := true }, Half.A, 0, by decide +kernel⟩,
    ⟨site.mh Half.A fun z' => { z' with twn.recov := false }, Half.A, 0, 0, [], true, true, by decide +kernel⟩⟩

/-- Every hypothesis of SharedDomainWritesNeedTheToken is met, clause by clause. -/
theorem Sys2Proof.Tests.witness_SharedDomainWritesNeedTheToken :
    (∃ (s : State) (h : Half), s.ref.token ≠ some h) ∧
    (∃ (s : State) (h : Half) (bit : Nat) (off : Nat) (op : Nat), s.ref.token ≠ some h ∧ bit < 32 ∧ off < 0x10000 ∧ off % 4 = 0) ∧
    (∃ (s : State) (h : Half) (m : Nat), s.ref.token ≠ some h) ∧
    (∃ (s : State) (h : Half) (m : Nat), s.ref.token ≠ some h) ∧
    (∃ (s : State) (h : Half) (b : Blk) (off : Nat) (v : Word), s.ref.token ≠ some h ∧ (b = .can ∨ b = .gpio ∨ b = .lsw ∨ b = .rms ∨ b = .pwr) ∧ inPartMap b off = true ∧ off % 4 = 0) ∧
    (∃ (s : State) (h : Half) (c : Nat) (m : Nat), s.ref.token ≠ some h) ∧
    (∃ (s : State) (h : Half) (c : Nat), s.ref.token ≠ some h) ∧
    (∃ (s : State) (h : Half) (c : Nat), s.ref.token ≠ some h) ∧
    (∃ (s : State) (h : Half) (n : Nat) (b : Nat), s.ref.token ≠ some h) ∧
    (∃ (s : State) (h : Half) (n : Nat) (b : Nat), s.ref.token ≠ some h) ∧
    (∃ (s : State) (h : Half) (n : Nat), s.ref.token ≠ some h) ∧
    (∃ (s : State) (h : Half) (n : Nat), s.ref.token ≠ some h) ∧
    (∃ (s : State) (h : Half) (n : Nat), s.ref.token ≠ some h) ∧
    (∃ (s : State) (h : Half) (n : Nat), s.ref.token ≠ some h) ∧
    (∃ (s : State) (h : Half), s.ref.token ≠ some h) ∧
    (∃ (s : State) (h : Half), s.ref.token ≠ some h) ∧
    (∃ (s : State) (h : Half) (n : Nat), s.ref.token ≠ some h) :=
   ⟨⟨site, Half.B, by decide +kernel⟩,
    ⟨site, Half.B, 0, 0, 0, by decide +kernel⟩,
    ⟨site, Half.B, 0, by decide +kernel⟩,
    ⟨site, Half.B, 0, by decide +kernel⟩,
    ⟨site, Half.B, Blk.gpio, 0, 0x00000000#32, by decide +kernel⟩,
    ⟨site, Half.B, 0, 0, by decide +kernel⟩,
    ⟨site, Half.B, 0, by decide +kernel⟩,
    ⟨site, Half.B, 0, by decide +kernel⟩,
    ⟨site, Half.B, 0, 0, by decide +kernel⟩,
    ⟨site, Half.B, 0, 0, by decide +kernel⟩,
    ⟨site, Half.B, 0, by decide +kernel⟩,
    ⟨site, Half.B, 0, by decide +kernel⟩,
    ⟨site, Half.B, 0, by decide +kernel⟩,
    ⟨site, Half.B, 0, by decide +kernel⟩,
    ⟨site, Half.B, by decide +kernel⟩,
    ⟨site, Half.B, by decide +kernel⟩,
    ⟨site, Half.B, 0, by decide +kernel⟩⟩

/-- Every hypothesis of ShadowWritesKeepTheValuesInForce is met, clause by clause. -/
theorem Sys2Proof.Tests.witness_ShadowWritesKeepTheValuesInForce :
    (∃ (s : State) (b : Blk) (h : Half) (off : Nat) (i : Nat) (v : Word), (commitOff b).isSome = true ∧ i < 32 ∧ (regInfo b h off).rws.testBit i = true ∧ (regInfo b h off).rw.testBit i = false ∧ (regInfo b h off).w1c.testBit i = false ∧ (regInfo b h off).rwl.testBit i = false) ∧
    (∃ (s : State) (b : Blk) (h : Half) (off : Nat) (i : Nat) (v : Word), (commitOff b).isSome = true ∧ commitOff b ≠ some off ∧ (regInfo b h off).rw = 0 ∧ (regInfo b h off).w1c = 0 ∧ ((perHalf b = true → h ∈ s.reach)) ∧ i < 32 ∧ (regInfo b h off).rws.testBit i = true ∧ (regInfo b h off).rwl = 0 ∧ (regInfo b h off).rws < 2 ^ 32 ∧ s.wordRefusal { half := h, ring := 0, ctag := 0, hb := 0 } b h off v = none ∧ ((b = .cln → s.mirrored h off = false)) ∧ ((b = .iox → s.ref.token = some h))) ∧
    (∃ (s : State) (o : Org) (b : Blk) (off : Nat) (ws : List Word) (x : Half) (r : Nat), RunsAt s o (cfgOpc b 0xF2) x r ∧ (commitOff b).isSome = true ∧ (∀ a ∈ wordOffs off ws.length, (regInfo b x a).rw = 0 ∧ (regInfo b x a).w1c = 0 ∧ (regInfo b x a).rwl = 0)) :=
   ⟨⟨site, Blk.tck, Half.A, 0, 0, 0x00000000#32, by decide +kernel⟩,
    ⟨site, Blk.twn, Half.A, 0, 31, 0x00000000#32, by decide +kernel⟩,
    ⟨site.srf .mbx Half.A 0 18 16 3, { half := Half.A, ring := 28, ctag := 1, hb := 0 }, Blk.tck, 0, [], Half.A, 3, by unfold RunsAt; decide +kernel⟩⟩

def Sys2Proof.Tests.sSafetyIslandActivation0 : State := ((((fun s : State => { s with upd.act := none }) (site.srf .mbx Half.A 0 18 16 3)).mh Half.A fun z' => { z' with cnp.chgs := [] }).stagedAt 2 { target := 2 }).mZone 0 fun y => { y with st := 1 }
def Sys2Proof.Tests.sSafetyIslandActivation1 : State := (site.stagedAt 2 { target := 2 }).srf .mbx .A 0 18 16 3

/-- Every hypothesis of SafetyIslandActivation is met, clause by clause. -/
theorem Sys2Proof.Tests.witness_SafetyIslandActivation :
    (∃ (s : State) (o : Org) (x : Half) (role : Nat) (f : Nat) (a : Nat) (i : Nat) (g : ImgInfo), RunsAt s o 0x0E04 x role ∧ (role = rInstaller ∨ role = rVendor) ∧ s.upd.act = none ∧ ((∀ k < 6, k ≠ 2 → (s.brec k).find 2 = none)) ∧ (s.brec 2).find 1 = some i ∧ ((s.brec 2).bank i).img = g ∧ compatible (s.withImage [2] g) = true ∧ (s.hf x).cnp.chgs = [] ∧ (∃ z < 8, (s.zone z).st ≠ 0 ∧ (s.zone z).st ≠ 3)) ∧
    (∃ (s : State) (o : Org) (x : Half) (role : Nat) (f : Nat) (a : Nat) (i : Nat) (g : ImgInfo), RunsAt s o 0x0E04 x role ∧ (role = rInstaller ∨ role = rVendor) ∧ s.upd.act = none ∧ ((∀ k < 6, k ≠ 2 → (s.brec k).find 2 = none)) ∧ (s.brec 2).find 1 = some i ∧ ((s.brec 2).bank i).img = g ∧ compatible (s.withImage [2] g) = true ∧ (s.hf x).cnp.chgs = [] ∧ (∀ z < 8, (s.zone z).st = 0 ∨ (s.zone z).st = 3)) :=
   ⟨⟨sSafetyIslandActivation0, { half := Half.A, ring := 28, ctag := 1, hb := 0 }, Half.A, 3, 0, 0, ((sSafetyIslandActivation0.brec 2).find 1).getD 0, { target := 2 }, by unfold RunsAt; decide +kernel⟩,
    ⟨sSafetyIslandActivation1, ⟨.A, 28, 1, 0⟩, Half.A, 3, 0, 0, ((sSafetyIslandActivation1.brec 2).find 1).getD 0, { target := 2 }, by unfold RunsAt; decide +kernel⟩⟩

/-- Every hypothesis of EveryCommandKeepsItsFrame is met. -/
theorem Sys2Proof.Tests.witness_EveryCommandKeepsItsFrame :
    (∃ (c : Instr) (s : State) (t : State), exec c s = .next t) :=
  ⟨.bootBankSelect 6, site, site, rfl⟩

/-- Every hypothesis of ChargeStaysInOrder is met, clause by clause. -/
theorem Sys2Proof.Tests.witness_ChargeStaysInOrder :
    (∃ (s : State) (t : State), ChargeInOrder s ∧ step s = .next t) ∧
    (∃ (s : State), ChargeInOrder s) :=
   ⟨⟨{ site with pending := [.bootBankSelect 6] }, site, by refine ⟨fun h => ?_, fun h => ?_, fun h => ?_⟩ <;> cases h <;> decide +kernel, rfl⟩,
    ⟨site, by refine ⟨fun h => ?_, fun h => ?_, fun h => ?_⟩ <;> cases h <;> decide +kernel⟩⟩

/-- Every hypothesis of StoresStayInOrder is met. -/
theorem Sys2Proof.Tests.witness_StoresStayInOrder :
    (∃ (s : State) (t : State), StoresInOrder s ∧ step s = .next t) :=
  ⟨{ site with pending := [.bootBankSelect 6] }, site, by refine ⟨by decide +kernel, by decide +kernel, fun h => ?_⟩; cases h <;> decide +kernel, rfl⟩

/-- Every hypothesis of LaneWordRoundTrip is met, clause by clause. -/
theorem Sys2Proof.Tests.witness_LaneWordRoundTrip :
    (∃ (c : Cond) (op : LaneOp), laneWf c op = true) ∧
    (∃ (w : Nat) (c : Cond) (op : LaneOp), w < 2 ^ 32 ∧ laneDecode w = some (c, op)) :=
   ⟨⟨Cond.always, .nop, by decide +kernel⟩,
    ⟨0, Cond.always, .nop, by decide +kernel⟩⟩

/-- Every hypothesis of StepRunsTheFrontCommand is met, clause by clause. -/
theorem Sys2Proof.Tests.witness_StepRunsTheFrontCommand :
    (∃ (s : State) (c : Instr) (rest : List Instr), s.pending = c :: rest) ∧
    (∃ (s : State), s.pending = []) :=
   ⟨⟨(fun s : State => { s with pending := (.tickEdge .A : Instr) :: ([] : List Instr) }) site, .tickEdge .A, [], by decide +kernel⟩,
    ⟨(fun s : State => { s with pending := [] }) site, by decide +kernel⟩⟩

end
end

/-!
O55, the stores in order. The stores change only through the named updates of the state (`srg`, `writeShadow`, `memPut`, the drops of keys), and each of
these keeps the form by the laws of tables and memories. One lemma follows for each operation of the model, in the model's order; its proof follows the
operation's definition, branch by branch. A command's lemma says that whatever state its meaning ends in, the stores are in order there.
-/

namespace Sys2Proof.Machine

section
set_option autoImplicit true
-- One lemma after the other: so many at a time start more threads than the check's memory limit carries.
set_option Elab.async false

/-- Whatever state a meaning ends in, its stores are in order. -/
def EndsInOrder (o : Out) : Prop := ∀ t, o = .next t → StoresInOrder t

theorem EndsInOrder.next (hs : StoresInOrder s) : EndsInOrder (.next s) := fun _ e => by cases e; exact hs
theorem EndsInOrder.ite {c : Prop} [Decidable c] (ha : EndsInOrder a) (hb : EndsInOrder b) : EndsInOrder (if c then a else b) := by
  split <;> assumption

/-! ### Where the stores are in order, whatever else differs -/

theorem StoresInOrder.risingRegs (hs : StoresInOrder s) : rising s.regs = true := hs.1
theorem StoresInOrder.risingShadow (hs : StoresInOrder s) : rising s.shadow = true := hs.2.1
theorem StoresInOrder.wfDram (hs : StoresInOrder s) : Memory.wf (s.hf h).part.dram = true := (hs.2.2 h).1
theorem StoresInOrder.wfFlash (hs : StoresInOrder s) : Memory.wf (s.hf h).part.flash = true := (hs.2.2 h).2

theorem StoresInOrder.same (hs : StoresInOrder s) (hr : t.regs = s.regs := by rfl) (hw : t.shadow = s.shadow := by rfl)
    (hA : t.halfA.part = s.halfA.part := by rfl) (hB : t.halfB.part = s.halfB.part := by rfl) : StoresInOrder t := by
  obtain ⟨hregs, hshadow, hmem⟩ := hs
  refine ⟨hr ▸ hregs, hw ▸ hshadow, fun h => ?_⟩
  cases h
  · simpa only [State.hf, hA] using hmem .A
  · simpa only [State.hf, hB] using hmem .B

/-- The register file may change where it stays in order. -/
theorem StoresInOrder.ofRegs (hs : StoresInOrder s) (hr : rising r = true) : StoresInOrder { s with regs := r } := ⟨hr, hs.2⟩

/-- So may the shadow. -/
theorem StoresInOrder.ofShadow (hs : StoresInOrder s) (hw : rising w = true) : StoresInOrder { s with shadow := w } := ⟨hs.1, hw, hs.2.2⟩

theorem StoresInOrder.ite {c : Prop} [Decidable c] (ha : StoresInOrder a) (hb : StoresInOrder b) : StoresInOrder (if c then a else b) := by
  split <;> assumption
theorem StoresInOrder.iteFst {c : Prop} [Decidable c] {a b : State × β} (ha : StoresInOrder a.1) (hb : StoresInOrder b.1) :
    StoresInOrder (if c then a else b).1 := by split <;> assumption

/-- A fold of updates that each keep the stores in order keeps them in order. -/
theorem StoresInOrder.foldl {f : State → α → State} {l : List α} (hs : StoresInOrder s) (hf : ∀ s a, StoresInOrder s → StoresInOrder (f s a)) :
    StoresInOrder (l.foldl f s) := by
  induction l generalizing s with
  | nil => exact hs
  | cons a l ih => exact ih (hf s a hs)
theorem StoresInOrder.foldlFst {f : State × β → α → State × β} {l : List α} {p : State × β} (hp : StoresInOrder p.1)
    (hf : ∀ q a, StoresInOrder q.1 → StoresInOrder (f q a).1) : StoresInOrder (l.foldl f p).1 := by
  induction l generalizing p with
  | nil => exact hp
  | cons a l ih => exact ih (hf p a hp)

/-! ### Tables that stay in order -/

theorem rising_put [DecidableEq α] (d : α) (t : Tab α) (k : Nat) (v : α) (h : rising t = true) : rising (put d t k v) = true := by
  unfold put
  split
  · exact rising_del t k h
  · exact rising_ins k v t h

theorem keysAbove_mapSnd (g : Nat × α → Nat × β) (hg : ∀ e, (g e).1 = e.1) : (t : Tab α) → keysAbove n t = true → keysAbove n (t.map g) = true
  | [], _ => rfl
  | e :: t, ht => by
    simp only [keysAbove, Bool.and_eq_true] at ht
    simp only [List.map_cons, keysAbove, hg, Bool.and_eq_true]
    exact ⟨ht.1, keysAbove_mapSnd g hg t ht.2⟩

/-- A change of values alone keeps the order. -/
theorem rising_mapSnd (g : Nat × α → Nat × β) (hg : ∀ e, (g e).1 = e.1) : (t : Tab α) → rising t = true → rising (t.map g) = true
  | [], _ => rfl
  | e :: t, ht => by
    simp only [rising] at ht
    simp only [List.map_cons, rising, hg]
    exact keysAbove_mapSnd g hg t ht

theorem rising_foldlIns (f : β → Nat) (g : β → α) (l : List β) (t : Tab α) (h : rising t = true) :
    rising (l.foldl (fun t e => ins t (f e) (g e)) t) = true := by
  induction l generalizing t with
  | nil => exact h
  | cons e l ih => exact ih _ (rising_ins _ _ t h)

/-! ### The named updates of the state -/

/-- A half may change anywhere but in its partition. -/
theorem StoresInOrder.setHf (hs : StoresInOrder s) (hx : x.part = (s.hf h).part := by rfl) : StoresInOrder (s.setHf h x) := by
  cases h
  · exact hs.same rfl rfl hx rfl
  · exact hs.same rfl rfl rfl hx

/-- The memories of a half's partition may change where they stay in canonical form. -/
theorem StoresInOrder.setHfMem (hs : StoresInOrder s) (hd : Memory.wf x.part.dram = true) (hf : Memory.wf x.part.flash = true) :
    StoresInOrder (s.setHf h x) := by
  obtain ⟨hregs, hshadow, hmem⟩ := hs
  refine ⟨by simpa using hregs, by simpa using hshadow, fun k => ?_⟩
  by_cases hk : k = h
  · subst hk; simpa using ⟨hd, hf⟩
  · simpa [hf_setHf_other _ _ hk] using hmem k

theorem StoresInOrder.setLsw (hs : StoresInOrder s) : StoresInOrder { s with lsw := x } := hs.same
theorem StoresInOrder.setTherm (hs : StoresInOrder s) : StoresInOrder { s with therm := x } := hs.same
theorem StoresInOrder.setBilMet (hs : StoresInOrder s) : StoresInOrder { s with bil := x, met := y } := hs.same

/-- One word of a half's partition flash may change. -/
theorem StoresInOrder.putFlash (hs : StoresInOrder s) :
    StoresInOrder (s.mh h fun x => { x with part := { x.part with flash := putMem x.part.flash off v } }) :=
  hs.setHfMem hs.wfDram (Memory.wf_putMem off v hs.wfFlash)

/-- One word of a half's partition DRAM may change. -/
theorem StoresInOrder.putDram (hs : StoresInOrder s) :
    StoresInOrder (s.mh h fun x => { x with part := { x.part with dram := putMem x.part.dram off v } }) :=
  hs.setHfMem (Memory.wf_putMem off v hs.wfDram) hs.wfFlash

/-! ### Ops -/

theorem StoresInOrder.mh (hs : StoresInOrder s) (hf : ∀ x, (f x).part = x.part := by intro x; rfl) : StoresInOrder (s.mh h f) := hs.setHf (hf _)
theorem StoresInOrder.mBoth (hs : StoresInOrder s) (hf : ∀ x, (f x).part = x.part := by intro x; rfl) : StoresInOrder (s.mBoth f) :=
  hs.same rfl rfl (hf _) (hf _)
theorem StoresInOrder.mTck (hs : StoresInOrder s) : StoresInOrder (s.mTck h f) := hs.mh
theorem StoresInOrder.mTwn (hs : StoresInOrder s) : StoresInOrder (s.mTwn h f) := hs.mh
theorem StoresInOrder.mMbx (hs : StoresInOrder s) : StoresInOrder (s.mMbx h f) := hs.mh
theorem StoresInOrder.mPort (hs : StoresInOrder s) : StoresInOrder (s.mPort h p f) := hs.mh
theorem StoresInOrder.mRem (hs : StoresInOrder s) : StoresInOrder (s.mRem p f) := hs.same
theorem StoresInOrder.mRing (hs : StoresInOrder s) : StoresInOrder (s.mRing h n f) := hs.mMbx
theorem StoresInOrder.srg (hs : StoresInOrder s) : StoresInOrder (s.srg b h off v) := hs.ofRegs (rising_put _ _ _ _ hs.risingRegs)
theorem StoresInOrder.srf (hs : StoresInOrder s) : StoresInOrder (s.srf b h off hi lo v) := hs.srg
theorem StoresInOrder.bump (hs : StoresInOrder s) : StoresInOrder (s.bump b h off n) := hs.srg
theorem StoresInOrder.writeShadow (hs : StoresInOrder s) : StoresInOrder (s.writeShadow b off v) :=
  hs.foldl fun _ _ h₁ => h₁.ofShadow (rising_put _ _ _ _ h₁.risingShadow)
theorem StoresInOrder.mBlk (hs : StoresInOrder s) : StoresInOrder (s.mBlk b h f) := hs.same
theorem StoresInOrder.arm (hs : StoresInOrder s) : StoresInOrder (s.arm b role w) := hs.foldl (fun _ _ h₁ => h₁.mBlk)
theorem StoresInOrder.putEvent (hs : StoresInOrder s) : StoresInOrder (s.putEvent h r) := hs.mMbx
theorem StoresInOrder.ev (hs : StoresInOrder s) : StoresInOrder (s.ev h sev code detail) := by
  unfold State.ev
  extract_lets _ s₁
  have h₁ : StoresInOrder s₁ := hs.putEvent
  exact .ite h₁.putEvent h₁
theorem StoresInOrder.evShared (hs : StoresInOrder s) : StoresInOrder (s.evShared origin sev code detail) := hs.putEvent.putEvent
theorem StoresInOrder.drew (hs : StoresInOrder s) : StoresInOrder (s.drew n) := hs.same
theorem StoresInOrder.start (hs : StoresInOrder s) : StoresInOrder (s.start o opc role x) := hs.mMbx
theorem StoresInOrder.completeAt (hs : StoresInOrder s) : StoresInOrder (s.completeAt o x opc status final payload t) := hs.mMbx
theorem StoresInOrder.complete (hs : StoresInOrder s) : StoresInOrder (s.complete o x opc status final payload) := hs.completeAt
theorem StoresInOrder.runAt (hs : StoresInOrder s) (hb : ∀ s r, StoresInOrder s → StoresInOrder (body s r)) :
    StoresInOrder (s.runAt o x opc roles hbOk body) := by
  unfold State.runAt
  refine .ite hs.start.complete ?_
  split
  · exact hs.start.complete
  · exact .ite hs.start.complete (.ite (hb _ _ hs.start) hs.start.complete)
theorem StoresInOrder.verbHere (hs : StoresInOrder s) (hb : ∀ s r, StoresInOrder s → StoresInOrder (body s r)) :
    StoresInOrder (s.verbHere o opc roles body) := hs.runAt hb
theorem StoresInOrder.verbG (hs : StoresInOrder s) (hb : ∀ s x r, StoresInOrder s → StoresInOrder (body s x r)) :
    StoresInOrder (s.verbG o opc roles hbOk body) := by
  unfold State.verbG
  refine .ite hs.start.complete (.ite hs.start ?_)
  split
  · exact .ite (hs.runAt fun _ _ => hb _ _ _) hs.start.complete
  · exact hs.start
theorem StoresInOrder.verb (hs : StoresInOrder s) (hb : ∀ s x r, StoresInOrder s → StoresInOrder (body s x r)) :
    StoresInOrder (s.verb o opc roles body) := hs.verbG hb
theorem StoresInOrder.flashWrite (hs : StoresInOrder s) : StoresInOrder (s.flashWrite h n) := .ite hs.mh hs
theorem StoresInOrder.stageWrite (hs : StoresInOrder s) : StoresInOrder (s.stageWrite h i v) := .ite hs.mh hs

/-! ### Health -/

theorem StoresInOrder.healthEv (hs : StoresInOrder s) : StoresInOrder (s.healthEv h cause) := hs.ev
theorem StoresInOrder.goUnhealthy (hs : StoresInOrder s) : StoresInOrder (s.goUnhealthy h cause) := .ite hs hs.mTwn.healthEv
theorem StoresInOrder.penalty (hs : StoresInOrder s) : StoresInOrder (s.penalty h amt cause) := by
  unfold State.penalty
  extract_lets _ _ s₁
  have h₁ : StoresInOrder s₁ := hs.mTwn
  exact .ite h₁ h₁.healthEv
theorem StoresInOrder.stagePenalty (hs : StoresInOrder s) : StoresInOrder (s.stagePenalty h cause) := .ite hs hs.mTwn.penalty
theorem StoresInOrder.stageMissed (hs : StoresInOrder s) : StoresInOrder (s.stageMissed h r79) := by
  unfold State.stageMissed
  extract_lets _ _ s₁ s₂ s₃
  have h₁ : StoresInOrder s₁ := .ite hs.srg hs
  have h₂ : StoresInOrder s₂ := .ite h₁.mTck h₁
  have h₃ : StoresInOrder s₃ := h₂.stagePenalty
  exact .ite h₃.goUnhealthy h₃
theorem StoresInOrder.renewHealth (hs : StoresInOrder s) : StoresInOrder (s.renewHealth h) := by
  unfold State.renewHealth
  extract_lets _ s₁ _ s₂
  have h₁ : StoresInOrder s₁ := .ite hs hs.mTwn.healthEv
  have h₂ : StoresInOrder s₂ := .ite h₁ h₁.mTwn.healthEv
  split
  exacts [.ite h₂.mTwn.healthEv h₂, h₂]
theorem StoresInOrder.setTstate (hs : StoresInOrder s) : StoresInOrder (s.setTstate h n) := .ite hs hs.mTck.ev
theorem StoresInOrder.claimEv (hs : StoresInOrder s) : StoresInOrder (s.claimEv h kind cause) := hs.ev
theorem StoresInOrder.loseCommands (hs : StoresInOrder s) : StoresInOrder (s.loseCommands x) := (hs.foldl (fun _ _ h₂ => h₂.complete)).same.mh
theorem StoresInOrder.stepDown (hs : StoresInOrder s) : StoresInOrder (s.stepDown h cause) := .ite hs.mTwn.bump.loseCommands.claimEv hs
theorem StoresInOrder.rebase (hs : StoresInOrder s) : StoresInOrder (s.rebase h) := .ite hs.same.mTwn.mTwn hs
theorem StoresInOrder.grantTo (hs : StoresInOrder s) : StoresInOrder (s.grantTo h) := by
  unfold State.grantTo
  extract_lets _ s₁ _ _ _ s₂ s₃ s₄ s₅
  have h₁ : StoresInOrder s₁ := hs.rebase
  have h₂ : StoresInOrder s₂ := h₁.same
  have h₃ : StoresInOrder s₃ := h₂.stepDown
  have h₄ : StoresInOrder s₄ := h₃.mTwn
  have h₅ : StoresInOrder s₅ := h₄.claimEv
  exact .ite h₅.ev h₅
theorem StoresInOrder.requestRaise (hs : StoresInOrder s) : StoresInOrder (s.requestRaise h early) := by
  unfold State.requestRaise
  split
  exacts [hs.claimEv, hs.same]
theorem StoresInOrder.abandonHandover (hs : StoresInOrder s) : StoresInOrder (s.abandonHandover) := by
  unfold State.abandonHandover
  split
  · exact hs
  · extract_lets _ _ _ s₁ s₂ s₃
    have h₁ : StoresInOrder s₁ := hs.same
    have h₂ : StoresInOrder s₂ := h₁.mTwn
    have h₃ : StoresInOrder s₃ := h₂.ev
    split
    exacts [h₃.complete, h₃]
theorem StoresInOrder.releaseToken (hs : StoresInOrder s) : StoresInOrder (s.releaseToken x cause) := hs.abandonHandover.same.claimEv.stepDown
theorem StoresInOrder.mUpd (hs : StoresInOrder s) : StoresInOrder (s.mUpd f) := hs.same
theorem StoresInOrder.mRec (hs : StoresInOrder s) : StoresInOrder (s.mRec k f) := hs.mUpd
theorem StoresInOrder.bankEv (hs : StoresInOrder s) : StoresInOrder (s.bankEv k i) := .ite hs.ev hs.evShared
theorem StoresInOrder.bankTo (hs : StoresInOrder s) : StoresInOrder (s.bankTo k i st) := hs.mRec.bankEv
theorem StoresInOrder.takeStaged (hs : StoresInOrder s) : StoresInOrder (s.takeStaged h) := by
  unfold State.takeStaged
  refine hs.foldl (fun _ _ h₁ => ?_)
  extract_lets
  split
  exacts [.ite h₁ h₁.mRec.bankEv, h₁]
theorem StoresInOrder.partStart (hs : StoresInOrder s) : StoresInOrder (s.partStart k) := hs.mRec.mUpd

/-! ### Arch -/

theorem StoresInOrder.writePoint (hs : StoresInOrder s) : StoresInOrder (s.writePoint h idx owner typ v pend) :=
  (StoresInOrder.ite hs.flashWrite hs).mh
theorem StoresInOrder.ownerWrite (hs : StoresInOrder s) : StoresInOrder (s.ownerWrite idx owner typ v) := by
  unfold State.ownerWrite
  split
  exacts [hs.writePoint, hs]
theorem StoresInOrder.execPointOwnerWrite (hs : StoresInOrder s) : EndsInOrder (execPointOwnerWrite idx owner typ v s) :=
  .next (.ite hs.ownerWrite hs)
theorem StoresInOrder.execMirrorCopyReceived (hs : StoresInOrder s) : EndsInOrder (execMirrorCopyReceived h s) := by
  unfold Machine.execMirrorCopyReceived
  split
  exacts [.next hs, .ite (.next (StoresInOrder.ite hs.flashWrite hs).mh.mh) (.next hs)]
theorem StoresInOrder.execMirrorAck (hs : StoresInOrder s) : EndsInOrder (execMirrorAck h s) := by
  unfold Machine.execMirrorAck
  split
  exacts [.next hs, .ite (.next hs) (.next hs.mh)]
theorem StoresInOrder.execStagingWrite (hs : StoresInOrder s) : EndsInOrder (execStagingWrite h i v s) := .next hs.stageWrite
theorem StoresInOrder.stageEv (hs : StoresInOrder s) : StoresInOrder (stageEv s h i stale) := hs.ev
theorem StoresInOrder.execStagingEntryStale (hs : StoresInOrder s) : EndsInOrder (execStagingEntryStale h i s) :=
  .ite (.next hs.mh.stageEv) (.next hs)
theorem StoresInOrder.snapBlock (hs : StoresInOrder s) : StoresInOrder (snapBlock h both s b) := by
  unfold Machine.snapBlock
  extract_lets _ s₁
  have h₁ : StoresInOrder s₁ := hs.mBlk
  exact .ite (.ite h₁.mBlk h₁) hs
theorem StoresInOrder.execCommitSnapshot (hs : StoresInOrder s) : EndsInOrder (execCommitSnapshot h reaches s) :=
  .ite (.next hs) (.ite (.next hs) (.next (hs.foldl (fun _ _ h₁ => h₁.snapBlock))))
theorem StoresInOrder.restartPartition (hs : StoresInOrder s) : StoresInOrder (restartPartition s h cause) :=
  .ev (hs.setHfMem hs.wfDram hs.wfFlash)
theorem StoresInOrder.execPartitionFault (hs : StoresInOrder s) : EndsInOrder (execPartitionFault h stall s) := .next hs.restartPartition
theorem StoresInOrder.execPartitionWatchdogExpiry (hs : StoresInOrder s) : EndsInOrder (execPartitionWatchdogExpiry h s) := .next hs.restartPartition

/-! ### Link -/

theorem StoresInOrder.setPstate (hs : StoresInOrder s) : StoresInOrder (s.setPstate h p new cause) := .ite hs hs.mPort.ev
theorem StoresInOrder.execLineSyncGained (hs : StoresInOrder s) : EndsInOrder (execLineSyncGained h p commas s) := by
  unfold Machine.execLineSyncGained
  extract_lets s₁
  have h₁ : StoresInOrder s₁ := hs.mPort
  exact .ite (.next hs) (.ite (.next h₁.setPstate) (.next h₁))
theorem StoresInOrder.execLineSyncLost (hs : StoresInOrder s) : EndsInOrder (execLineSyncLost h p cvs chars s) :=
  .ite (.next hs.bump) (.next hs.bump.bump.setPstate.mPort.mRem)
theorem StoresInOrder.execMeasureEntry (hs : StoresInOrder s) : EndsInOrder (execMeasureEntry h p s) := .ite (.next hs.setPstate.mPort) (.next hs)
theorem StoresInOrder.execTickMarkerSend (hs : StoresInOrder s) : EndsInOrder (execTickMarkerSend h p s) := .ite (.next hs) (.next hs.mPort)
theorem StoresInOrder.execDprSend (hs : StoresInOrder s) : EndsInOrder (execDprSend h p s) := .ite (.next hs.mPort) (.next hs)
theorem StoresInOrder.execDecReceived (hs : StoresInOrder s) : EndsInOrder (execDecReceived h p rtt ta s) := by
  unfold Machine.execDecReceived
  extract_lets _ _ _ _ s₁ s₂
  have h₁ : StoresInOrder s₁ := hs.mPort
  have h₂ : StoresInOrder s₂ := .ite h₁.mPort h₁
  exact .ite (.next hs) (.ite (.next h₁) (.ite (.next h₂.setPstate) (.ite (.next h₂.setPstate) (.next h₂))))
theorem StoresInOrder.execDelaySlew (hs : StoresInOrder s) : EndsInOrder (execDelaySlew h p s) := .ite (.next hs) (.next hs.mPort)
theorem StoresInOrder.sendMsg (hs : StoresInOrder s) : StoresInOrder (s.sendMsg h p ty b) := .ite hs hs.mPort
theorem StoresInOrder.asyncCount (hs : StoresInOrder s) : StoresInOrder (s.asyncCount h p f r) := by
  unfold State.asyncCount
  extract_lets s₁
  have h₁ : StoresInOrder s₁ := .ite hs hs.bump
  split
  exacts [h₁.bump, h₁.mPort]
theorem StoresInOrder.execHelloReceived (hs : StoresInOrder s) : EndsInOrder (execHelloReceived h p f s) := by
  unfold Machine.execHelloReceived
  extract_lets q r tag s₁
  have h₁ : StoresInOrder s₁ := hs.asyncCount.bump
  clear_value tag r
  refine .ite (.next hs) ?_
  split
  · exact .next h₁
  · exact .ite (.next h₁) (.ite (.next h₁.setPstate) (.ite (.next h₁.setPstate) (.ite (.next h₁.setPstate) (.ite (.next h₁.mPort) (.next
      h₁.mPort.sendMsg.mPort)))))
theorem StoresInOrder.lostDither (hs : StoresInOrder s) : StoresInOrder (s.lostDither p) := hs.same
theorem StoresInOrder.execJoinAcknowledged (hs : StoresInOrder s) : EndsInOrder (execJoinAcknowledged h p s) := by
  unfold Machine.execJoinAcknowledged
  extract_lets
  split
  exacts [.next hs, .ite (.next hs.setPstate.mPort.mRem.lostDither) (.next hs)]
theorem StoresInOrder.execAsyncSegmentReceived (hs : StoresInOrder s) : EndsInOrder (execAsyncSegmentReceived h p f s) := by
  unfold Machine.execAsyncSegmentReceived
  dsimp only
  refine .ite (.next hs) ?_
  split
  exacts [.next hs.asyncCount.bump, .ite (.next hs.asyncCount.bump) (.next hs.asyncCount.bump.bump.mPort)]
theorem StoresInOrder.takeMsg (hs : StoresInOrder s) (e : s.takeMsg h p ty sel = some (m, t)) : StoresInOrder t := by
  unfold State.takeMsg at e
  split at e
  · cases e
  · cases e; exact hs.mPort
theorem StoresInOrder.execAsyncAckSend (hs : StoresInOrder s) : EndsInOrder (execAsyncAckSend h p ty s) := by
  unfold Machine.execAsyncAckSend
  extract_lets
  split
  exacts [.next hs, .ite (.next hs) (.next hs.mPort)]
theorem StoresInOrder.execAsyncAckReceived (hs : StoresInOrder s) : EndsInOrder (execAsyncAckReceived h p f s) := by
  unfold Machine.execAsyncAckReceived
  dsimp only
  refine .ite (.next hs) ?_
  split
  exacts [.next hs.asyncCount.bump, .ite (.next hs.asyncCount.bump) (.next hs.asyncCount.bump.mPort)]
theorem StoresInOrder.execSegmentResendTimeout (hs : StoresInOrder s) : EndsInOrder (execSegmentResendTimeout h p ty seg s) := by
  unfold Machine.execSegmentResendTimeout
  split
  · exact .next hs
  · split
    exacts [.next hs, .ite (.next hs) (.ite (.next hs.mPort.bump) (.next hs.mPort))]
theorem StoresInOrder.putAsync (hs : StoresInOrder s) : StoresInOrder (s.putAsync h p ty id' seg data last) := (StoresInOrder.ite hs.drew hs).mPort
theorem StoresInOrder.remoteTakes (hs : StoresInOrder s) : StoresInOrder (s.remoteTakes h p ty claimOk b) :=
  .ite hs.mRem.lostDither (.ite hs.mRem (.ite hs.mRem (.ite hs.mRem (.ite hs.mRem hs))))
theorem StoresInOrder.sendSeg (hs : StoresInOrder s) : StoresInOrder (s.sendSeg h p ty m seg) := by
  unfold State.sendSeg
  extract_lets _ _ _ _ s₁ s₂
  have h₁ : StoresInOrder s₁ := hs.putAsync
  have h₂ : StoresInOrder s₂ := h₁.mPort
  exact .ite h₂.remoteTakes h₂
theorem StoresInOrder.execAsyncFrameSend (hs : StoresInOrder s) : EndsInOrder (execAsyncFrameSend h p room s) := by
  unfold Machine.execAsyncFrameSend
  extract_lets q room₁ room₂ acks
  clear_value acks
  refine .ite (.next hs) ?_
  split
  · exact .ite (.next hs.putAsync.mPort) (.next hs)
  · split
    · exact .next hs
    · split
      exacts [.next hs, .ite (.next hs.sendSeg) (.next hs)]
theorem StoresInOrder.execBulkLogReceived (hs : StoresInOrder s) : EndsInOrder (execBulkLogReceived h p s) := by
  unfold Machine.execBulkLogReceived
  split
  · exact .next hs
  next e => exact .next (hs.takeMsg e).mh
theorem StoresInOrder.execTimeMessageSend (hs : StoresInOrder s) : EndsInOrder (execTimeMessageSend h s) :=
  .ite (.next (hs.foldl (fun _ _ h₁ => h₁.sendMsg))) (.next hs)
theorem StoresInOrder.execRemoteDownlinkTickFrame (hs : StoresInOrder s) : EndsInOrder (execRemoteDownlinkTickFrame p d f s) := by
  unfold Machine.execRemoteDownlinkTickFrame
  split
  exacts [.next hs, .next hs.mRem]
theorem StoresInOrder.execRemoteSelection49us (hs : StoresInOrder s) : EndsInOrder (execRemoteSelection49us p s) := .next hs.mRem
theorem StoresInOrder.execRemoteTickEdge (hs : StoresInOrder s) : EndsInOrder (execRemoteTickEdge p below5 v s) := .next hs.drew.mRem
theorem StoresInOrder.execRemoteTickMarker (hs : StoresInOrder s) : EndsInOrder (execRemoteTickMarker p a b s) := by
  unfold Machine.execRemoteTickMarker
  extract_lets r first seq
  clear_value seq
  split
  exacts [.next hs, .ite (.next hs) (.next hs.mRem)]
theorem StoresInOrder.execLinkLostForceOpen (hs : StoresInOrder s) : EndsInOrder (execLinkLostForceOpen p s) := .ite (.next hs.mRem) (.next hs)
theorem StoresInOrder.execRemoteHelloSend (hs : StoresInOrder s) : EndsInOrder (execRemoteHelloSend p d s) := .ite (.next hs.mRem) (.next hs)
theorem StoresInOrder.execRemotePowerUpOrReset (hs : StoresInOrder s) : EndsInOrder (execRemotePowerUpOrReset p s) := .next hs.same

/-! ### Operands -/

theorem StoresInOrder.mCln (hs : StoresInOrder s) : StoresInOrder (s.mCln h f) := hs.mh
theorem StoresInOrder.mLane (hs : StoresInOrder s) : StoresInOrder (s.mLane h l f) := hs.mCln
theorem StoresInOrder.laneStep (hs : StoresInOrder s) : StoresInOrder (s.laneStep w cyc f) := .ite hs.mLane hs
theorem StoresInOrder.laneRepeat (hs : StoresInOrder s) : StoresInOrder (s.laneRepeat w n len count) := .ite hs.mLane hs
theorem StoresInOrder.renewGstat (hs : StoresInOrder s) : StoresInOrder (s.renewGstat h) := hs.srg

/-! ### Lanes -/

theorem StoresInOrder.placeImage (hs : StoresInOrder s) : StoresInOrder (s.placeImage h im code) := hs.mCln.renewGstat
theorem StoresInOrder.execClnStore (hs : StoresInOrder s) : EndsInOrder (execClnStore o img s) := by
  unfold Machine.execClnStore
  refine .next ?_
  refine hs.verb (fun _ _ _ h₁ => ?_)
  split
  exacts [h₁.complete, h₁.mCln.complete]
theorem StoresInOrder.storeBoth (hs : StoresInOrder s) : StoresInOrder (storeBoth h s r) := by
  unfold Machine.storeBoth
  split
  exacts [.ite hs.placeImage.placeImage.complete hs.complete, hs.complete]
theorem StoresInOrder.runStores (hs : StoresInOrder s) : StoresInOrder (s.runStores h) := .ite (hs.mCln.foldl (fun _ _ h₁ => h₁.storeBoth)) hs
theorem StoresInOrder.execClnFree (hs : StoresInOrder s) : EndsInOrder (execClnFree o base s) := by
  unfold Machine.execClnFree
  refine .next ?_
  refine hs.verb (fun _ _ _ h₁ => ?_)
  split
  exacts [h₁.complete, .ite h₁.complete (.complete (h₁.foldl (fun _ _ h₂ => h₂.mCln.renewGstat)))]
theorem StoresInOrder.execClnList (hs : StoresInOrder s) : EndsInOrder (execClnList o s) := .next (hs.verb (fun _ _ _ h₁ => h₁.complete))
theorem StoresInOrder.drainLane (hs : StoresInOrder s) : StoresInOrder (drainLane h s l) := by
  unfold Machine.drainLane
  extract_lets _ _ s₁ s₂ s₃ s₄
  have h₁ : StoresInOrder s₁ := hs.srg
  have h₂ : StoresInOrder s₂ := .ite h₁.bump h₁
  have h₃ : StoresInOrder s₃ := .ite h₂.bump h₂
  have h₄ : StoresInOrder s₄ := h₃.mCln
  exact .ite hs h₄.mTwn
theorem StoresInOrder.mCap (hs : StoresInOrder s) : StoresInOrder (s.mCap h n f) := hs.mCln
theorem StoresInOrder.captureRow (hs : StoresInOrder s) : StoresInOrder (captureRow h s n) := by
  unfold Machine.captureRow
  extract_lets _ _ _ s₁ s₂
  have h₁ : StoresInOrder s₁ := hs.mCap
  have h₂ : StoresInOrder s₂ := h₁.mCap
  refine .ite hs.mCap ?_
  refine .ite ?_ hs
  refine .ite ?_ h₁
  split
  exacts [.ite h₂.complete h₂, h₂]
theorem StoresInOrder.execClaspDrain (hs : StoresInOrder s) : EndsInOrder (execClaspDrain h s) :=
  .next (hs.mTwn.foldl (fun _ _ h₃ => h₃.drainLane)).mCln.captureRow.captureRow
theorem StoresInOrder.execClnCapArm (hs : StoresInOrder s) : EndsInOrder (execClnCapArm o lane blk buf nch trig rows pre decim ttick slots s) :=
  .next (hs.verb (fun _ _ _ h₁ => .ite h₁.complete (.ite h₁.complete (h₁.foldl (fun _ _ h₃ => h₃.mCap)).complete)))
theorem StoresInOrder.execCaptureTrigger (hs : StoresInOrder s) : EndsInOrder (execCaptureTrigger h buf s) := .ite (.next hs.mCap) (.next hs)
theorem StoresInOrder.execClnCapRead (hs : StoresInOrder s) : EndsInOrder (execClnCapRead o buf first count s) :=
  .next (hs.verb (fun _ _ _ h₁ => .ite h₁.complete h₁.complete))

/-! ### PowerStages -/

theorem StoresInOrder.mSeq (hs : StoresInOrder s) : StoresInOrder (s.mSeq h c f) := hs.mh
theorem StoresInOrder.setSeqG (hs : StoresInOrder s) : StoresInOrder (s.setSeqG h c g v) := hs.mSeq
theorem StoresInOrder.markPhases (hs : StoresInOrder s) : StoresInOrder (markPhases s h c l) := hs.foldl (fun _ _ h₁ => h₁.srf)
theorem StoresInOrder.storeSeqG (hs : StoresInOrder s) : StoresInOrder (s.storeSeqG h c g hicN old new) := by
  unfold State.storeSeqG
  extract_lets s₁ _ _
  have h₁ : StoresInOrder s₁ := hs.setSeqG.bump
  exact .ite h₁.markPhases.ev (.ite h₁.bump.ev h₁)
theorem StoresInOrder.runGroup (hs : StoresInOrder acc.1) : StoresInOrder (runGroup h c first acc g).1 := hs.storeSeqG
theorem StoresInOrder.runSeq (hs : StoresInOrder s) : StoresInOrder (runSeq h l first s) := by
  unfold Machine.runSeq
  split
  · exact hs
  · exact .mLane (.ite hs (.mSeq (.foldlFst hs fun _ _ h₁ => h₁.runGroup)))
theorem StoresInOrder.seqRow (hs : StoresInOrder s) : StoresInOrder (seqRow step' hit h c g s) := .ite hs.storeSeqG hs
theorem StoresInOrder.execProbeComplete (hs : StoresInOrder s) : EndsInOrder (execProbeComplete h c g s) := .next hs.seqRow
theorem StoresInOrder.execHiccupTrip (hs : StoresInOrder s) : EndsInOrder (execHiccupTrip h c g s) := .next hs.seqRow
theorem StoresInOrder.execHiccupWindowEnd (hs : StoresInOrder s) : EndsInOrder (execHiccupWindowEnd h c g s) := .ite (.next hs.setSeqG) (.next hs)
theorem StoresInOrder.execHiccupWaitEnd (hs : StoresInOrder s) : EndsInOrder (execHiccupWaitEnd h c g s) := .next hs.seqRow
theorem StoresInOrder.execStartComplete (hs : StoresInOrder s) : EndsInOrder (execStartComplete h c g s) := .next hs.seqRow
theorem StoresInOrder.execRetriesReset (hs : StoresInOrder s) : EndsInOrder (execRetriesReset h c g s) := .next hs.seqRow
theorem StoresInOrder.execLoadStepDetected (hs : StoresInOrder s) : EndsInOrder (execLoadStepDetected h c g s) := .next hs.seqRow
theorem StoresInOrder.execHoldOffEnd (hs : StoresInOrder s) : EndsInOrder (execHoldOffEnd h c g s) := .next hs.seqRow
theorem StoresInOrder.execPhaseAddStart (hs : StoresInOrder s) : EndsInOrder (execPhaseAddStart h c g s) := .next hs.seqRow
theorem StoresInOrder.execPhaseShedStart (hs : StoresInOrder s) : EndsInOrder (execPhaseShedStart h c g s) := .next hs.seqRow
theorem StoresInOrder.execBurstEntry (hs : StoresInOrder s) : EndsInOrder (execBurstEntry h c g s) := .next hs.seqRow
theorem StoresInOrder.execBurstExit (hs : StoresInOrder s) : EndsInOrder (execBurstExit h c g s) := .next hs.seqRow
theorem StoresInOrder.execPstClear (hs : StoresInOrder s) : EndsInOrder (execPstClear o c mask s) :=
  .next (hs.verb (fun _ _ _ h₁ => .ite h₁.complete (.ite h₁.complete (.ite h₁.complete (h₁.foldl (fun _ _ h₃ => h₃.mh)).arm.complete))))
theorem StoresInOrder.clearGroup (hs : StoresInOrder s) : StoresInOrder (clearGroup h s e) := .ite (hs.setSeqG.foldl (fun _ _ h₂ => h₂.srf)) hs
theorem StoresInOrder.pstClears (hs : StoresInOrder s) : StoresInOrder (s.pstClears h apply) :=
  (StoresInOrder.ite (hs.foldl (fun _ _ h₂ => h₂.clearGroup)) hs).mh
theorem StoresInOrder.execDitherStep (hs : StoresInOrder s) : EndsInOrder (execDitherStep p s) := .ite (.next hs) (.next hs.same)
theorem StoresInOrder.execCabinetCommandApply (hs : StoresInOrder s) : EndsInOrder (execCabinetCommandApply p s) :=
  .ite (.next hs) (.next hs.same.drew)

/-! ### Canopy -/

theorem StoresInOrder.mCnp (hs : StoresInOrder s) : StoresInOrder (s.mCnp h f) := hs.mh
theorem StoresInOrder.acceptLoss (hs : StoresInOrder s) : StoresInOrder (s.acceptLoss h p) := hs.mCnp
theorem StoresInOrder.execUplinkAcceptanceLoss (hs : StoresInOrder s) : EndsInOrder (execUplinkAcceptanceLoss h p s) := .next hs.acceptLoss
theorem StoresInOrder.commonPort (hs : StoresInOrder s) : StoresInOrder (commonPort h ok s p) := .ite hs (.ite hs.mCnp hs.mCnp.acceptLoss)
theorem StoresInOrder.exchangeMaps (hs : StoresInOrder s) : StoresInOrder (s.exchangeMaps h sentMap) := hs.mTwn.foldl (fun _ _ h₁ => h₁.commonPort)
theorem StoresInOrder.execIngestMapExchange (hs : StoresInOrder s) : EndsInOrder (execIngestMapExchange h sentMap s) :=
  .next hs.exchangeMaps.mCnp.drew

/-! ### Logs -/

theorem StoresInOrder.logEv (hs : StoresInOrder s) : StoresInOrder (s.logEv origin code num typ src detail a b) := hs.evShared
theorem StoresInOrder.safLog (hs : StoresInOrder s) : StoresInOrder (s.safLog typ src) := hs.same.drew.logEv
theorem StoresInOrder.metLog (hs : StoresInOrder s) : StoresInOrder (s.metLog typ src detail vals) := hs.same.drew.logEv
theorem StoresInOrder.sealedLog (hs : StoresInOrder s) : StoresInOrder (s.sealedLog typ src detail a b) := hs.same.logEv

/-! ### Locket -/

theorem StoresInOrder.mLkt (hs : StoresInOrder s) : StoresInOrder (s.mLkt f) := hs.same
theorem StoresInOrder.lktTx (hs : StoresInOrder s) : StoresInOrder (s.lktTx images tx handle) := hs.drew.mLkt
theorem StoresInOrder.afterHoldup (hs : StoresInOrder s) (hf : ∀ s, StoresInOrder s → StoresInOrder (f s)) : StoresInOrder (s.afterHoldup c f) :=
  .ite hs.mLkt (hf _ hs)
theorem StoresInOrder.takeSlot (hs : StoresInOrder s) : StoresInOrder (s.takeSlot i).1 := hs.mLkt
theorem StoresInOrder.createKey (hs : StoresInOrder s) : StoresInOrder (s.createKey e origin mat tx).1 := by
  unfold State.createKey
  split
  exacts [hs, hs.takeSlot.lktTx]
theorem StoresInOrder.creating (hs : StoresInOrder s) : StoresInOrder (s.creating o opc tx attr origin make) :=
  hs.verb (fun _ _ _ h₁ => .ite h₁.complete (.ite h₁.complete h₁.drew.createKey.complete))
theorem StoresInOrder.execLktGenerate (hs : StoresInOrder s) : EndsInOrder (execLktGenerate o tx attr s) :=
  .next (hs.afterHoldup (fun _ h₁ => h₁.creating))
theorem StoresInOrder.execLktImport (hs : StoresInOrder s) : EndsInOrder (execLktImport o tx attr key wrapped s) :=
  .next (hs.afterHoldup (fun _ h₁ => h₁.creating))
theorem StoresInOrder.execLktDerive (hs : StoresInOrder s) : EndsInOrder (execLktDerive o tx attr info s) :=
  .next (hs.afterHoldup (fun _ h₁ => h₁.creating))
theorem StoresInOrder.execLktAgree (hs : StoresInOrder s) : EndsInOrder (execLktAgree o tx attr method z s) :=
  .next (hs.afterHoldup (fun _ h₁ => h₁.creating))
theorem StoresInOrder.invalidate (hs : StoresInOrder s) : StoresInOrder (s.invalidate handle tx org) := by
  unfold State.invalidate
  split
  exacts [hs, .ite hs.mLkt hs.lktTx.mLkt]
theorem StoresInOrder.execLktInvalidate (hs : StoresInOrder s) : EndsInOrder (execLktInvalidate o tx handle s) := by
  unfold Machine.execLktInvalidate
  refine .next ?_
  refine hs.afterHoldup (fun _ h₁ => ?_)
  refine h₁.verb (fun _ _ _ h₂ => ?_)
  split
  exacts [h₂.complete, .ite h₂.complete (.ite h₂.complete (.ite h₂.complete h₂.invalidate.complete))]
theorem StoresInOrder.execInvalidationCutoff (hs : StoresInOrder s) : EndsInOrder (execInvalidationCutoff handle s) := by
  unfold Machine.execInvalidationCutoff
  split
  · exact .next hs
  · extract_lets s₁ s₂
    have h₁ : StoresInOrder s₁ := hs.mLkt
    have h₂ : StoresInOrder s₂ := h₁.evShared
    refine .ite (.next hs) ?_
    split
    exacts [.next h₂.complete, .next h₂]
theorem StoresInOrder.execOrphanedOperationAbort (hs : StoresInOrder s) : EndsInOrder (execOrphanedOperationAbort o s) := by
  unfold Machine.execOrphanedOperationAbort
  split
  exacts [.next hs, .ite (.next hs) (.next hs.mLkt.complete)]
theorem StoresInOrder.execLocketSweep (hs : StoresInOrder s) : EndsInOrder (execLocketSweep s) := .next hs.mLkt
theorem StoresInOrder.execJournalRecovery (hs : StoresInOrder s) : EndsInOrder (execJournalRecovery s) :=
  .ite (.next hs) (.next (StoresInOrder.ite hs hs.srf).drew.mLkt)
theorem StoresInOrder.execMaterialTagFault (hs : StoresInOrder s) : EndsInOrder (execMaterialTagFault idx s) := by
  unfold Machine.execMaterialTagFault
  split
  exacts [.next hs, .next hs.mLkt.srf.evShared]
theorem StoresInOrder.execLktPair (hs : StoresInOrder s) : EndsInOrder (execLktPair o tx kind port rid z s) := by
  refine .next (hs.afterHoldup fun _ h₁ => h₁.verb fun _ _ _ h₂ => ?_)
  refine .ite h₂.complete (.ite h₂.complete (.ite h₂.complete ?_))
  split
  · exact h₂.complete
  · refine .ite h₂.complete (.ite h₂.complete (.ite h₂.complete (.ite h₂.complete ?_)))
    extract_lets _ s₃
    have h₃ : StoresInOrder s₃ := by
      unfold s₃
      split
      exacts [h₂.invalidate, h₂]
    clear_value s₃
    split
    · exact h₃.complete
    · split
      · exact h₃.complete
      · exact (StoresInOrder.ite h₃.takeSlot.takeSlot.lktTx.mPort.mPort.mRem h₃.takeSlot.takeSlot.lktTx).complete
theorem StoresInOrder.sendKeyroll (hs : StoresInOrder s) : StoresInOrder (s.sendKeyroll p gen at_) := hs.sendMsg.sendMsg
theorem StoresInOrder.execLktRoll (hs : StoresInOrder s) : EndsInOrder (execLktRoll o tx port s) := by
  unfold Machine.execLktRoll
  refine .next ?_
  refine hs.afterHoldup (fun _ h₁ => ?_)
  refine h₁.verb (fun _ _ _ h₂ => ?_)
  split
  · exact h₂.complete
  · split
    · exact h₂.complete
    · refine .ite h₂.complete ?_
      refine .ite h₂.complete ?_
      refine .ite h₂.complete ?_
      split
      exacts [h₂.complete, h₂.createKey.mLkt.sendKeyroll.complete]
theorem StoresInOrder.execKeyrollAckDeadline (hs : StoresInOrder s) : EndsInOrder (execKeyrollAckDeadline p s) := by
  unfold Machine.execKeyrollAckDeadline
  split
  exacts [.next hs, .ite (.next hs) (.next hs.sendKeyroll.mLkt.invalidate.complete)]
theorem StoresInOrder.execKeyrollSwitch (hs : StoresInOrder s) : EndsInOrder (execKeyrollSwitch p s) := by
  unfold Machine.execKeyrollSwitch
  split
  exacts [.next hs, .ite (.next hs) (.next hs.mPort.mPort)]
theorem StoresInOrder.execKeyrollRetire (hs : StoresInOrder s) : EndsInOrder (execKeyrollRetire p s) := by
  unfold Machine.execKeyrollRetire
  split
  exacts [.next hs, .ite (.next hs) (.next hs.mLkt.invalidate.complete)]
theorem StoresInOrder.execLktAttest (hs : StoresInOrder s) : EndsInOrder (execLktAttest o nonce subject pubhash sigs s) := by
  unfold Machine.execLktAttest
  refine .next ?_
  refine hs.verb (fun _ _ _ h₁ => ?_)
  extract_lets
  refine .ite h₁.complete ?_
  refine .ite h₁.complete ?_
  split <;> exact h₁.complete
theorem StoresInOrder.execLktInfo (hs : StoresInOrder s) : EndsInOrder (execLktInfo o handle s) := by
  unfold Machine.execLktInfo
  refine .next ?_
  refine hs.verb (fun _ _ _ h₁ => ?_)
  split <;> exact h₁.complete
theorem StoresInOrder.execLktPublic (hs : StoresInOrder s) : EndsInOrder (execLktPublic o handle pub s) := by
  unfold Machine.execLktPublic
  refine .next ?_
  refine hs.verb (fun _ _ _ h₁ => ?_)
  split
  exacts [.ite h₁.complete h₁.complete, h₁.complete]
theorem StoresInOrder.execLktOp (hs : StoresInOrder s) : EndsInOrder (execLktOp o handle op subject long iv data given s) := by
  unfold Machine.execLktOp
  refine .next ?_
  refine hs.verb (fun _ _ _ h₁ => ?_)
  split
  · exact h₁.complete
  · extract_lets
    refine .ite h₁.complete ?_
    refine .ite h₁.complete ?_
    split
    exacts [h₁.complete, .ite h₁.mLkt h₁.complete]
theorem StoresInOrder.opsDone (hs : StoresInOrder s) : StoresInOrder (s.opsDone h) := hs.foldl (fun _ _ h₁ => .ite h₁.drew.mLkt.complete h₁.drew)
theorem StoresInOrder.execLktTxquery (hs : StoresInOrder s) : EndsInOrder (execLktTxquery o tx s) := by
  unfold Machine.execLktTxquery
  refine .next ?_
  refine hs.verb (fun _ _ _ h₁ => ?_)
  split <;> exact h₁.complete

/-! ### Metrology -/

theorem StoresInOrder.mMet (hs : StoresInOrder s) : StoresInOrder (s.mMet f) := hs.same
theorem StoresInOrder.mMeter (hs : StoresInOrder s) : StoresInOrder (s.mMeter src f) := hs.mMet
theorem StoresInOrder.mBil (hs : StoresInOrder s) : StoresInOrder (s.mBil f) := hs.same
theorem StoresInOrder.mCore (hs : StoresInOrder s) : StoresInOrder (s.mCore f) := hs.mBil
theorem StoresInOrder.pulseStep (hs : StoresInOrder s) : StoresInOrder (pulseStep src qty n s j) := by
  unfold Machine.pulseStep
  extract_lets _ _ _ _ _ s₁
  have h₁ : StoresInOrder s₁ := hs.mMet
  exact .ite (.ite h₁.srf.metLog h₁) hs
theorem StoresInOrder.moveMwh (hs : StoresInOrder s) : StoresInOrder (s.moveMwh src qty n) := by
  unfold State.moveMwh
  extract_lets _ s₁ s₂
  have h₁ : StoresInOrder s₁ := .ite hs hs.mCore
  have h₂ : StoresInOrder s₂ := .ite h₁ h₁.mCore
  exact .ite hs (h₂.foldl (fun _ _ h₃ => h₃.pulseStep))
theorem StoresInOrder.addFine (hs : StoresInOrder s) : StoresInOrder (s.addFine src qty amt unit) := hs.mMeter.moveMwh
theorem StoresInOrder.noteErr (hs : StoresInOrder s) : StoresInOrder (s.noteErr src) := .ite hs (.ite hs.mCore hs.mCore)
theorem StoresInOrder.integrate (hs : StoresInOrder s) : StoresInOrder (s.integrate k acc v i) := by
  unfold State.integrate
  extract_lets _ _ _ _ _ s₁ s₂ _
  have h₁ : StoresInOrder s₁ := hs.mMeter
  have h₂ : StoresInOrder s₂ := h₁.noteErr
  exact .ite h₂ (.ite h₂.addFine.addFine h₂.addFine.addFine)
theorem StoresInOrder.noteGap (hs : StoresInOrder s) : StoresInOrder (s.noteGap k bound) := hs.mCore
theorem StoresInOrder.openGap (hs : StoresInOrder s) : StoresInOrder (s.openGap k) := hs.metLog.mMeter.bump
theorem StoresInOrder.closeGap (hs : StoresInOrder s) : StoresInOrder (s.closeGap k) := by
  unfold State.closeGap
  split
  exacts [hs, hs.mMet.mMeter.noteGap]
theorem StoresInOrder.execMeteringSampleClose (hs : StoresInOrder s) : EndsInOrder (execMeteringSampleClose k s) := by
  unfold Machine.execMeteringSampleClose
  extract_lets _ s₁ _ s₂ s₃
  have h₁ : StoresInOrder s₁ := hs.mMeter
  have h₂ : StoresInOrder s₂ := h₁.same
  have h₃ : StoresInOrder s₃ := h₂.bump
  refine .ite (.next hs) ?_
  split
  · exact .next h₃.closeGap.mMeter.integrate
  · exact .ite (.next h₃.mMeter.bump.integrate) (.ite (.next h₃.mMeter.openGap) (.next h₃.mMeter))
theorem StoresInOrder.execAcBlock (hs : StoresInOrder s) : EndsInOrder (execAcBlock i raw s) := by
  unfold Machine.execAcBlock
  extract_lets _ _ _ _ _ _ _ _ _ _ _ _ s₁ s₂ s₃ _
  have h₁ : StoresInOrder s₁ := hs.mMeter
  have h₂ : StoresInOrder s₂ := .ite h₁.metLog h₁
  have h₃ : StoresInOrder s₃ := h₂.noteErr
  exact .ite (.next hs) (.next (.ite h₃ (.ite h₃.addFine h₃.addFine)))
theorem StoresInOrder.execDualIntegrationCompare (hs : StoresInOrder s) : EndsInOrder (execDualIntegrationCompare src inc2 s) := by
  unfold Machine.execDualIntegrationCompare
  extract_lets _ _ _ _ s₁ s₃
  have h₁ : StoresInOrder s₁ := hs.foldl (fun _ _ h₂ => h₂.metLog)
  have h₃ : StoresInOrder s₃ := .ite h₁.bump h₁
  exact .ite (.next hs) (.ite (.next hs.mMeter) (.ite (.next hs.mMeter.mMeter) (.next h₃.mMeter.mMeter.noteErr)))
theorem StoresInOrder.checkEv (hs : StoresInOrder s) : StoresInOrder (checkEv s was bad) := .ite hs.metLog hs
theorem StoresInOrder.execAdcReferenceCheck (hs : StoresInOrder s) : EndsInOrder (execAdcReferenceCheck ok s) := .next hs.checkEv.mMet
theorem StoresInOrder.execSealedParameterCheck (hs : StoresInOrder s) : EndsInOrder (execSealedParameterCheck ok s) := .next hs.checkEv.mMet
theorem StoresInOrder.islandCpuRestart (hs : StoresInOrder s) : StoresInOrder (s.islandCpuRestart) := hs.metLog.mMet.mBil.partStart
theorem StoresInOrder.execIslandFirmwareCheck (hs : StoresInOrder s) : EndsInOrder (execIslandFirmwareCheck ok s) :=
  .next (.ite hs hs.islandCpuRestart)
theorem StoresInOrder.execIslandWatchdogExpiry (hs : StoresInOrder s) : EndsInOrder (execIslandWatchdogExpiry s) := .next hs.islandCpuRestart
theorem StoresInOrder.execPulseEmit (hs : StoresInOrder s) : EndsInOrder (execPulseEmit n s) := .ite (.next hs.mMet) (.next hs)
theorem StoresInOrder.execTestPulseOutput (hs : StoresInOrder s) : EndsInOrder (execTestPulseOutput n s) := .ite (.next hs.mMet) (.next hs)
theorem StoresInOrder.condStep (hs : StoresInOrder s) : StoresInOrder (condStep i c holds s) := .ite hs.mMet.metLog hs.mMet
theorem StoresInOrder.execIntakeSupervision (hs : StoresInOrder s) : EndsInOrder (execIntakeSupervision i r s) := by
  unfold Machine.execIntakeSupervision
  extract_lets _ _ _ _ s₁ s₂ _ _ _ _ _
  have h₁ : StoresInOrder s₁ := hs.mMeter
  have h₂ : StoresInOrder s₂ := .ite h₁.mMet h₁
  exact .ite (.next hs) (.ite (.next h₂) (.next h₂.condStep.condStep.condStep.condStep.condStep.condStep))
theorem StoresInOrder.gapIfLoaded (hs : StoresInOrder s) : StoresInOrder (gapIfLoaded s k) := .ite hs.openGap hs
theorem StoresInOrder.execBatteryOperationEntry (hs : StoresInOrder s) : EndsInOrder (execBatteryOperationEntry s4 s) :=
  .ite (.next hs) (.next (hs.foldl (fun _ _ h₂ => h₂.gapIfLoaded)).mMet)
theorem StoresInOrder.execBatteryOperationEnd (hs : StoresInOrder s) : EndsInOrder (execBatteryOperationEnd lowV s) := .ite (.next hs.mMet) (.next hs)
theorem StoresInOrder.tamperStep (hs : StoresInOrder s) : StoresInOrder (tamperStep levels s t) := .ite hs.mMet (.ite hs.mMet hs.mMet.metLog)
theorem StoresInOrder.execTamperSample (hs : StoresInOrder s) : EndsInOrder (execTamperSample levels s) :=
  .next (.mMet ((StoresInOrder.ite hs hs.same.drew).foldl (fun _ _ h₂ => h₂.tamperStep)))
theorem StoresInOrder.execMetInst (hs : StoresInOrder s) : EndsInOrder (execMetInst o src s) :=
  .next (hs.verb (fun _ _ _ h₁ => .ite h₁.complete h₁.complete))
theorem StoresInOrder.execMetLogRead (hs : StoresInOrder s) : EndsInOrder (execMetLogRead o log first count s) :=
  .next (hs.verb (fun _ _ _ h₁ => .ite h₁.complete (.ite h₁.complete h₁.complete)))
theorem StoresInOrder.execMetBattRead (hs : StoresInOrder s) : EndsInOrder (execMetBattRead o i s) :=
  .next (hs.verb (fun _ _ _ h₁ => .ite h₁.complete h₁.complete))
theorem StoresInOrder.metCommit (hs : StoresInOrder s) : StoresInOrder (s.metCommit old) :=
  ((hs.foldl (fun _ _ h₂ => .ite h₂.mMeter h₂)).foldl (fun _ _ h₄ => .ite h₄.mMeter h₄)).foldl (fun _ _ h₅ => .ite h₅.mMet h₅)

/-! ### Loops -/

theorem StoresInOrder.mLoop (hs : StoresInOrder s) : StoresInOrder (s.mLoop h l b f) := hs.mCln
theorem StoresInOrder.runBlock (hs : StoresInOrder s) : StoresInOrder (runBlock h l first s b) := .ite hs (.ite hs.mLane hs.mLoop.drew.mLane)
theorem StoresInOrder.loopWrite (hs : StoresInOrder s) : StoresInOrder (s.loopWrite l n v) := by
  unfold State.loopWrite
  split
  exacts [hs, hs.writeShadow.mCln]
theorem StoresInOrder.loopAccept (hs : StoresInOrder s) : StoresInOrder (s.loopAccept o x role opc lane blk seq payload) := hs.mCln.arm.complete
theorem StoresInOrder.execClnSetpoint (hs : StoresInOrder s) : EndsInOrder (execClnSetpoint o lane blk target s) :=
  .next (hs.verb (fun _ _ _ h₁ => .ite h₁.complete (.ite h₁.complete (.ite h₁.complete (.ite h₁.complete (.ite h₁.complete (h₁.foldl (fun _ _ h₃ =>
    h₃.mLoop)).loopWrite.loopWrite.loopAccept))))))
theorem StoresInOrder.execClnManual (hs : StoresInOrder s) : EndsInOrder (execClnManual o lane blk target s) :=
  .next (hs.verb (fun _ _ _ h₁ => .ite h₁.complete (.ite h₁.complete (.ite h₁.complete (.ite h₁.complete (h₁.foldl (fun _ _ h₃ =>
    h₃.mLoop)).loopWrite.loopWrite.loopAccept)))))
theorem StoresInOrder.execClnMode (hs : StoresInOrder s) : EndsInOrder (execClnMode o lane blk auto sptrack s) :=
  .next (hs.verb (fun _ _ _ h₁ => .ite h₁.complete (.ite h₁.complete (.ite h₁.complete h₁.loopWrite.arm.complete))))
theorem StoresInOrder.loopWrite32 (hs : StoresInOrder s) : StoresInOrder (s.loopWrite32 l n v) := hs.loopWrite.loopWrite
theorem StoresInOrder.execClnInject (hs : StoresInOrder s) : EndsInOrder (execClnInject o lane blk ctl period amp seed f0 f1 dur s) :=
  .next (hs.verb (fun _ _ _ h₁ => .ite h₁.complete (.ite h₁.complete (.ite h₁.complete (.ite h₁.complete (.ite h₁.complete (h₁.foldl (fun _ _ h₃ =>
    h₃.mLoop)).loopWrite.loopWrite.loopWrite.loopWrite32.loopWrite32.loopWrite32.loopWrite.loopAccept))))))
theorem StoresInOrder.execInjectionEnd (hs : StoresInOrder s) : EndsInOrder (execInjectionEnd h lane blk s) := by
  unfold Machine.execInjectionEnd
  split
  · exact .next hs
  · extract_lets s₁
    have h₁ : StoresInOrder s₁ := hs.mLoop
    split
    exacts [.next h₁, .next h₁.mCln.complete]

/-! ### Matrix -/

theorem StoresInOrder.markBad (hs : StoresInOrder s) : StoresInOrder (s.markBad h n g) := hs.srf
theorem StoresInOrder.cmdPole (hs : StoresInOrder s) : StoresInOrder (s.cmdPole h n g close) := hs.mCnp
theorem StoresInOrder.chgEv (hs : StoresInOrder s) : StoresInOrder (chgEv s h k last n g) := .ite hs.ev hs
theorem StoresInOrder.armPlan (hs : StoresInOrder s) : StoresInOrder (s.armPlan h p) := hs.foldl (fun _ _ h₁ => h₁.mBlk)
theorem StoresInOrder.plan (hs : StoresInOrder s) : StoresInOrder (s.plan h p) := hs.mCnp.armPlan
theorem StoresInOrder.setChg (hs : StoresInOrder s) : StoresInOrder (s.setChg h k v) := hs.mCnp
theorem StoresInOrder.endChg (hs : StoresInOrder s) : StoresInOrder (s.endChg h ch code) := by
  unfold State.endChg
  extract_lets _ s₁
  have h₁ : StoresInOrder s₁ := hs.mCnp
  split
  exacts [.ite h₁.complete h₁, h₁]
theorem StoresInOrder.release (hs : StoresInOrder s) : StoresInOrder (s.release h ch) := hs.endChg
theorem StoresInOrder.enterRoute (hs : StoresInOrder s) : StoresInOrder (s.enterRoute h k ch) := hs.setChg.plan
theorem StoresInOrder.enterClose (hs : StoresInOrder s) : StoresInOrder (s.enterClose h k ch) := .ite hs.release hs.setChg
theorem StoresInOrder.execDrainComplete (hs : StoresInOrder s) : EndsInOrder (execDrainComplete h k s) := by
  unfold Machine.execDrainComplete
  split
  exacts [.ite (.next (.ite hs.enterRoute (hs.setChg.foldl (fun _ _ h₁ => h₁.cmdPole)))) (.next hs), .next hs]
theorem StoresInOrder.execDrainTimeout (hs : StoresInOrder s) : EndsInOrder (execDrainTimeout h k s) := by
  unfold Machine.execDrainTimeout
  split
  exacts [.ite (.next hs.endChg) (.next hs), .next hs]
theorem StoresInOrder.execPolesOpened (hs : StoresInOrder s) : EndsInOrder (execPolesOpened h k s) := by
  unfold Machine.execPolesOpened
  split
  exacts [.ite (.next hs.enterRoute) (.next hs), .next hs]
theorem StoresInOrder.weldPoles (hs : StoresInOrder s) : StoresInOrder (weldPoles s h k ch bad).1 := hs.foldl (fun _ _ h₂ => h₂.markBad.chgEv)
theorem StoresInOrder.execPoleOpenTimeout (hs : StoresInOrder s) : EndsInOrder (execPoleOpenTimeout h k s) := by
  unfold Machine.execPoleOpenTimeout
  split
  exacts [.ite (.next hs.weldPoles.enterRoute) (.next hs), .next hs]
theorem StoresInOrder.execPolesClosed (hs : StoresInOrder s) : EndsInOrder (execPolesClosed h k s) := by
  unfold Machine.execPolesClosed
  split
  exacts [.ite (.next hs.setChg) (.next hs), .next hs]
theorem StoresInOrder.dropFailed (hs : StoresInOrder s) : StoresInOrder (dropFailed s h k code ch bad).1 :=
  (hs.foldl (fun _ _ h₂ => h₂.markBad.cmdPole.chgEv)).foldl (fun _ _ h₄ => .ite h₄.plan h₄)
theorem StoresInOrder.execPoleCloseTimeout (hs : StoresInOrder s) : EndsInOrder (execPoleCloseTimeout h k s) := by
  unfold Machine.execPoleCloseTimeout
  split
  · extract_lets _ s₁ _
    have h₁ : StoresInOrder s₁.1 := hs.dropFailed
    exact .ite (.next (.ite h₁.release h₁.setChg)) (.next hs)
  · exact .next hs
theorem StoresInOrder.execMatchPass (hs : StoresInOrder s) : EndsInOrder (execMatchPass h k s) := by
  unfold Machine.execMatchPass
  split
  exacts [.ite (.next hs.release) (.next hs), .next hs]
theorem StoresInOrder.execMatchTimeout (hs : StoresInOrder s) : EndsInOrder (execMatchTimeout h k s) := by
  unfold Machine.execMatchTimeout
  split
  exacts [.ite (.next hs.dropFailed.release) (.next hs), .next hs]
theorem StoresInOrder.rePlan (hs : StoresInOrder s) : StoresInOrder (s.rePlan h ch mine) := hs.mCnp.plan
theorem StoresInOrder.execChangeCabinetLost (hs : StoresInOrder s) : EndsInOrder (execChangeCabinetLost h k c s) := by
  unfold Machine.execChangeCabinetLost
  split
  · extract_lets _ _ s₁ s₃ _ s₅
    have h₁ : StoresInOrder s₁ := hs.foldl (fun _ _ h₂ => h₂.cmdPole)
    have h₃ : StoresInOrder s₃ := .ite h₁.rePlan (h₁.foldl (fun _ _ h₄ => h₄.plan))
    have h₅ : StoresInOrder s₅ := h₃.chgEv
    exact .ite (.next (.ite h₅.release h₅.setChg)) (.next hs)
  · exact .next hs
theorem StoresInOrder.execUncommandedPoleOpen (hs : StoresInOrder s) : EndsInOrder (execUncommandedPoleOpen h n g s) :=
  .ite (.next hs.mCnp.chgEv) (.next hs)
theorem StoresInOrder.closePoles (hs : StoresInOrder s) : StoresInOrder (closePoles h s ch) := .ite (hs.foldl (fun _ _ h₁ => .ite h₁.cmdPole h₁)) hs
theorem StoresInOrder.tickDemand (hs : StoresInOrder s) : StoresInOrder (tickDemand h s k) := .ite hs.mCnp hs
theorem StoresInOrder.execAllocationLatch (hs : StoresInOrder s) : EndsInOrder (execAllocationLatch h ready s) := by
  unfold Machine.execAllocationLatch
  split
  · exact .next ((hs.mCnp.srg.mCnp.foldl (fun _ _ h₄ => h₄.closePoles)).mCnp.foldl (fun _ _ h₆ => h₆.tickDemand))
  · exact .next hs.mCnp.srf.stageMissed
theorem StoresInOrder.execPlannerRun (hs : StoresInOrder s) : EndsInOrder (execPlannerRun s) := by
  unfold Machine.execPlannerRun
  split
  exacts [.next hs, .ite (.next hs) (.ite (.next hs) (.next (hs.foldl (fun _ _ h₁ => h₁.plan))))]
theorem StoresInOrder.startChange (hs : StoresInOrder s) : StoresInOrder (startChange s h c) := by
  unfold Machine.startChange
  extract_lets _ _ _ s₁
  have h₁ : StoresInOrder s₁ := hs.mCnp
  split
  exacts [h₁.mCnp, h₁]
theorem StoresInOrder.applyPlan (hs : StoresInOrder s) : StoresInOrder (applyPlan h s p) := by
  unfold Machine.applyPlan
  extract_lets _ s₁
  have h₁ : StoresInOrder s₁ := hs.mCnp
  split
  exacts [h₁.startChange, .ite h₁.enterClose h₁, h₁]
theorem StoresInOrder.refusePlan (hs : StoresInOrder s) : StoresInOrder (refusePlan h s p) := by
  unfold Machine.refusePlan
  split
  · split
    exacts [.ite hs.complete hs, hs]
  · exact .ite hs.endChg hs
  · exact hs
theorem StoresInOrder.planEdge (hs : StoresInOrder s) : StoresInOrder (s.planEdge h hostCommit refused) :=
  .ite (hs.foldl (fun _ _ h₁ => h₁.armPlan)) (hs.mCnp.foldl (fun _ _ h₂ => .ite h₂.refusePlan h₂.applyPlan))
theorem StoresInOrder.execCnpAssign (hs : StoresInOrder s) : EndsInOrder (execCnpAssign o k mask s) :=
  .next (hs.verb (fun _ _ _ h₁ => .ite h₁.complete (.ite h₁.complete (.ite h₁.complete (.ite h₁.complete (.ite h₁.complete (.complete (h₁.foldl
    (fun _ _ h₂ => h₂.plan)))))))))
theorem StoresInOrder.execCnpUnpin (hs : StoresInOrder s) : EndsInOrder (execCnpUnpin o k s) :=
  .next (hs.verb (fun _ _ _ h₁ => .ite h₁.complete (.complete (h₁.foldl (fun _ _ h₂ => h₂.mCnp)))))
theorem StoresInOrder.execCnpPoleClear (hs : StoresInOrder s) : EndsInOrder (execCnpPoleClear o n mask s) :=
  .next (hs.verb (fun _ _ _ h₁ => .ite h₁.complete (h₁.foldl (fun _ _ h₃ => h₃.mCnp)).arm.complete))
theorem StoresInOrder.poleClears (hs : StoresInOrder s) : StoresInOrder (s.poleClears h apply) :=
  (StoresInOrder.ite (hs.foldl (fun _ _ h₂ => h₂.foldl (fun _ _ h₃ => h₃.srf))) hs).mCnp

/-! ### Snapshot -/

theorem StoresInOrder.completeArrived (hs : StoresInOrder s) : StoresInOrder (completeArrived h s c) := .ite hs.mCln.complete hs
theorem StoresInOrder.mVeh (hs : StoresInOrder s) : StoresInOrder (s.mVeh k f) := hs.same
theorem StoresInOrder.vehSample (hs : StoresInOrder s) : StoresInOrder (vehSample p s k) := by
  unfold Machine.vehSample
  split
  exacts [hs, .ite hs hs.mVeh]
theorem StoresInOrder.execSnapshotPublish (hs : StoresInOrder s) : EndsInOrder (execSnapshotPublish h made s) := by
  unfold Machine.execSnapshotPublish
  extract_lets s₁ s₂
  have h₁ : StoresInOrder s₁ := hs.mh
  have h₂ : StoresInOrder s₂ := .ite (h₁.foldl (fun _ _ h₃ => h₃.vehSample)) h₁
  exact .ite (.next (h₂.foldl (fun _ _ h₄ => h₄.completeArrived))) (.next hs.stageMissed)

/-! ### Sessions -/

theorem StoresInOrder.mC (hs : StoresInOrder s) : StoresInOrder (s.mC k f) := hs.mVeh
theorem StoresInOrder.vehEv (hs : StoresInOrder s) : StoresInOrder (s.vehEv k) := hs.ev
theorem StoresInOrder.idPoint (hs : StoresInOrder s) : StoresInOrder (s.idPoint k) := .ite hs.ownerWrite hs
theorem StoresInOrder.stopsDone (hs : StoresInOrder s) : StoresInOrder (s.stopsDone k) := (hs.foldl (fun _ _ h₂ => h₂.complete)).mVeh
theorem StoresInOrder.dropKeys (hs : StoresInOrder s) : StoresInOrder (s.dropKeys k) := (hs.foldl (fun _ _ h₂ => h₂.invalidate)).mC
theorem StoresInOrder.nextHandshake (hs : StoresInOrder s) : StoresInOrder (s.nextHandshake) := by
  unfold State.nextHandshake
  split
  exacts [.ite hs.mC hs, hs]
theorem StoresInOrder.enter (hs : StoresInOrder s) : StoresInOrder (s.enter k st) := by
  unfold State.enter
  extract_lets s₁ s₂
  have h₁ : StoresInOrder s₁ := hs.mC
  have h₂ : StoresInOrder s₂ := h₁.mVeh.vehEv
  exact .nextHandshake (.ite h₂.stopsDone.dropKeys h₂)
theorem StoresInOrder.stopSession (hs : StoresInOrder s) : StoresInOrder (s.stopSession k reason) := by
  unfold State.stopSession
  extract_lets _ s₁
  have h₁ : StoresInOrder s₁ := hs.mC
  exact .ite hs (.ite h₁.enter (.ite h₁.enter h₁))
theorem StoresInOrder.tellStop (hs : StoresInOrder s) : StoresInOrder (s.tellStop k reason) := .ite (.ite hs.mC hs.mC) hs.stopSession
theorem StoresInOrder.grantAuth (hs : StoresInOrder s) : StoresInOrder (s.grantAuth k path) := .ite hs.mC.enter hs
theorem StoresInOrder.tryPaths (hs : StoresInOrder s) : StoresInOrder (s.tryPaths k chainOk n p) := by
  induction n generalizing p with
  | zero => exact hs.stopSession
  | succ n ih =>
    unfold State.tryPaths
    refine .ite ih ?_
    split
    · exact .ite hs.grantAuth ih
    · exact .ite hs.grantAuth ih
    · exact hs.mC.idPoint.ev
    · exact hs.mC
theorem StoresInOrder.authorize (hs : StoresInOrder s) : StoresInOrder (s.authorize k p chainOk) := .ite hs.stopSession hs.tryPaths

/-! ### Billing -/

theorem StoresInOrder.evalRate (hs : StoresInOrder s) : StoresInOrder (s.evalRate) := .ite hs.mBil hs.mBil
theorem StoresInOrder.chainWrite (hs : StoresInOrder s) : StoresInOrder (s.chainWrite owner n idx b) := by
  induction n generalizing s idx b with
  | zero => exact hs
  | succ n ih => exact ih hs.ownerWrite
theorem StoresInOrder.closeInterval (hs : StoresInOrder s) : StoresInOrder (s.closeInterval i endU inc step') := hs.mCore.mBil.ownerWrite
theorem StoresInOrder.edgeIntervals (hs : StoresInOrder s) : StoresInOrder (s.edgeIntervals) :=
  .ite (hs.foldl (fun _ _ h₁ => .ite h₁.closeInterval h₁)) hs
theorem StoresInOrder.execDemandIntervalClose (hs : StoresInOrder s) : EndsInOrder (execDemandIntervalClose i s) :=
  .ite (.next hs.closeInterval) (.next hs)
theorem StoresInOrder.closePeriod (hs : StoresInOrder s) : StoresInOrder (s.closePeriod u cause flags) := hs.mCore.mBil
theorem StoresInOrder.edgePeriods (hs : StoresInOrder s) : StoresInOrder (s.edgePeriods) := by
  unfold State.edgePeriods
  extract_lets s₁
  have h₁ : StoresInOrder s₁ := hs.edgeIntervals
  exact .ite h₁.closePeriod h₁
theorem StoresInOrder.execBillingPeriodClose (hs : StoresInOrder s) : EndsInOrder (execBillingPeriodClose s) := .next hs.edgePeriods
theorem StoresInOrder.execBilClose (hs : StoresInOrder s) : EndsInOrder (execBilClose o s) :=
  .next (hs.verb (fun _ _ _ h₁ => .ite h₁.complete (.ite h₁.complete h₁.closePeriod.complete)))
theorem StoresInOrder.activate (hs : StoresInOrder s) : StoresInOrder (s.activate t) := hs.mBil.metLog.evalRate.chainWrite
theorem StoresInOrder.edgeTariff (hs : StoresInOrder s) : StoresInOrder (s.edgeTariff) := by
  unfold State.edgeTariff
  extract_lets s₁
  have h₁ : StoresInOrder s₁ := hs.edgePeriods
  split
  exacts [.ite h₁.activate h₁, h₁]
theorem StoresInOrder.execTariffActivation (hs : StoresInOrder s) : EndsInOrder (execTariffActivation s) := .next hs.edgeTariff
theorem StoresInOrder.execRateSwitch (hs : StoresInOrder s) : EndsInOrder (execRateSwitch s) := .next hs.edgeTariff.evalRate
theorem StoresInOrder.execBilTariffLoad (hs : StoresInOrder s) : EndsInOrder (execBilTariffLoad o obj s) :=
  .next (hs.verb (fun _ _ _ h₁ => .ite h₁.complete (.ite h₁.complete (.ite h₁.complete h₁.mBil.chainWrite.complete))))
theorem StoresInOrder.execBilTariffRead (hs : StoresInOrder s) : EndsInOrder (execBilTariffRead o which s) := by
  unfold Machine.execBilTariffRead
  refine .next ?_
  refine hs.verb (fun _ _ _ h₁ => ?_)
  split
  · exact h₁.complete
  · split <;> exact h₁.complete
  · exact h₁.complete
theorem StoresInOrder.passMinute (hs : StoresInOrder s) : StoresInOrder (s.passMinute step' u) := by
  unfold State.passMinute
  extract_lets s₁ s₃
  have h₁ : StoresInOrder s₁ := hs.foldl (fun _ _ h₂ => .ite h₂.closeInterval h₂)
  have h₃ : StoresInOrder s₃ := .ite h₁.closePeriod h₁
  split
  exacts [.ite h₃.activate h₃, h₃]
theorem StoresInOrder.passMinutes (hs : StoresInOrder s) : StoresInOrder (State.passMinutes stp n u s) := by
  induction n generalizing s u with
  | zero => exact hs
  | succ n ih => exact ih hs.passMinute
theorem StoresInOrder.catchUp (hs : StoresInOrder s) : StoresInOrder (s.catchUp) := (StoresInOrder.ite hs hs.passMinutes).mCore.evalRate
theorem StoresInOrder.execBillingGapCatchup (hs : StoresInOrder s) : EndsInOrder (execBillingGapCatchup s) := .ite (.next hs) (.next hs.catchUp)
theorem StoresInOrder.execTimeValidRestored (hs : StoresInOrder s) : EndsInOrder (execTimeValidRestored s) := .ite (.next hs.mBil.catchUp) (.next hs)
theorem StoresInOrder.billingStep (hs : StoresInOrder s) : StoresInOrder (s.billingStep u0 u1) := by
  unfold State.billingStep
  extract_lets s₁ s₂ s₃ s₅
  have h₁ : StoresInOrder s₁ := hs.metLog
  have h₂ : StoresInOrder s₂ := h₁.mCore
  have h₃ : StoresInOrder s₃ := h₂.foldl (fun _ _ h₄ => .ite h₄.closeInterval h₄)
  have h₅ : StoresInOrder s₅ := .ite h₃ h₃.passMinutes
  exact .ite h₂ (.ite h₂.mCore.evalRate h₅.mCore.evalRate)
theorem StoresInOrder.saveBilling (hs : StoresInOrder s) : StoresInOrder (s.saveBilling pf) := hs.mBil
theorem StoresInOrder.execBillingSave (hs : StoresInOrder s) : EndsInOrder (execBillingSave s) :=
  .ite (.next hs.edgeTariff.evalRate.saveBilling) (.next hs)
theorem StoresInOrder.execPowerFailSave (hs : StoresInOrder s) : EndsInOrder (execPowerFailSave low s) := .ite (.next hs.saveBilling) (.next hs)
theorem StoresInOrder.unsaved (hs : StoresInOrder s) : StoresInOrder (unsaved u s src) := hs.metLog.mCore
theorem StoresInOrder.billingRestore (hs : StoresInOrder s) : StoresInOrder (s.billingRestore ok0 ok1 time) := by
  unfold State.billingRestore
  extract_lets s₁ c₀ c₁ pick
  have h₁ : StoresInOrder s₁ := hs.mBil
  clear_value pick
  split
  · exact .ite h₁.setBilMet (h₁.setBilMet.foldl (fun _ _ h₃ => h₃.unsaved))
  · exact .ite h₁ h₁.metLog.mBil
theorem StoresInOrder.execBillingRestore (hs : StoresInOrder s) : EndsInOrder (execBillingRestore ok0 ok1 time s) :=
  .ite (.next hs.billingRestore.evalRate) (.next hs)
theorem StoresInOrder.execDemandCapStage (hs : StoresInOrder s) : EndsInOrder (execDemandCapStage i s) :=
  .ite (.next hs) (.next hs.stageWrite.stageWrite)
theorem StoresInOrder.bilPoints (hs : StoresInOrder s) : StoresInOrder (s.bilPoints src q) :=
  hs.ownerWrite.ownerWrite.foldl (fun _ _ h₂ => h₂.ownerWrite)
theorem StoresInOrder.demandPoints (hs : StoresInOrder s) : StoresInOrder (s.demandPoints src) := hs.foldl (fun _ _ h₁ => h₁.ownerWrite)
theorem StoresInOrder.refreshBilling (hs : StoresInOrder s) : StoresInOrder (s.refreshBilling) := by
  unfold State.refreshBilling
  refine hs.foldl (fun _ _ h₁ => ?_)
  extract_lets s₂
  have h₂ : StoresInOrder s₂ := h₁.foldl (fun _ _ h₃ => h₃.bilPoints)
  exact .ite h₂ h₂.demandPoints
theorem StoresInOrder.openAcct (hs : StoresInOrder s) : StoresInOrder (s.openAcct k num) := hs.mCore
theorem StoresInOrder.putLomvor (hs : StoresInOrder s) : StoresInOrder (s.putLomvor n body sigs) := hs.mBil.chainWrite
theorem StoresInOrder.signHeld (hs : StoresInOrder s) : StoresInOrder (s.signHeld) := by
  unfold State.signHeld
  split
  exacts [hs, .ite hs (hs.mBil.foldl (fun _ _ h₁ => h₁.putLomvor.drew))]
theorem StoresInOrder.closeAcct (hs : StoresInOrder s) : StoresInOrder (s.closeAcct k sigs) := by
  unfold State.closeAcct
  split
  · exact hs
  · extract_lets _ _ _ _ s₁ s₂ s₄
    have h₁ : StoresInOrder s₁ := hs.mBil
    have h₂ : StoresInOrder s₂ := h₁.foldl (fun _ _ h₃ => h₃.ownerWrite)
    have h₄ : StoresInOrder s₄ := h₂.mCore
    exact .ite h₄.putLomvor h₄.mBil
theorem StoresInOrder.execLomvorRecord (hs : StoresInOrder s) : EndsInOrder (execLomvorRecord k sigs s) := .ite (.next hs.closeAcct) (.next hs)
theorem StoresInOrder.mLdsp (hs : StoresInOrder s) : StoresInOrder (s.mLdsp f) := hs.mBil
theorem StoresInOrder.nextItem (hs : StoresInOrder s) : StoresInOrder (s.nextItem) := hs.mLdsp
theorem StoresInOrder.execDisplayDwell (hs : StoresInOrder s) : EndsInOrder (execDisplayDwell s) := .ite (.next hs.nextItem) (.next hs)
theorem StoresInOrder.execKeyA (hs : StoresInOrder s) : EndsInOrder (execKeyA s) := .next hs.nextItem.mLdsp
theorem StoresInOrder.execKeyB (hs : StoresInOrder s) : EndsInOrder (execKeyB s) := .next hs.mLdsp
theorem StoresInOrder.execKeyC (hs : StoresInOrder s) : EndsInOrder (execKeyC s) := .next hs.mLdsp
theorem StoresInOrder.execKeyD (hs : StoresInOrder s) : EndsInOrder (execKeyD s) := .next hs.mLdsp
theorem StoresInOrder.execTokenEntryTimeout (hs : StoresInOrder s) : EndsInOrder (execTokenEntryTimeout s) := by
  unfold Machine.execTokenEntryTimeout
  split
  exacts [.ite (.next hs.mLdsp) (.next hs), .next hs]
theorem StoresInOrder.takeToken (hs : StoresInOrder s) : StoresInOrder (s.takeToken out seq credit ledger) := by
  unfold State.takeToken
  extract_lets s₁ _ s₂ s₃
  have h₁ : StoresInOrder s₁ := hs.mBil
  have h₂ : StoresInOrder s₂ := h₁.mCore
  have h₃ : StoresInOrder s₃ := .ite h₂.mC h₂
  exact h₃.mC.grantAuth
theorem StoresInOrder.tokenEntry (hs : StoresInOrder s) : StoresInOrder (s.tokenEntry src out d) := by
  unfold State.tokenEntry
  extract_lets _ _ _ _ _ s₁ s₂ _ _ _
  have h₁ : StoresInOrder s₁ := hs.mBil
  have h₂ : StoresInOrder s₂ := h₁.ownerWrite.metLog
  exact .ite h₂.takeToken (.ite h₂ h₂.mBil)
theorem StoresInOrder.execTokenEntry (hs : StoresInOrder s) : EndsInOrder (execTokenEntry out d s) :=
  .ite (.next hs.mLdsp) (.next hs.mLdsp.tokenEntry)
theorem StoresInOrder.execKeypad (hs : StoresInOrder s) : EndsInOrder (execKeypad h p s) := by
  unfold Machine.execKeypad
  split
  · exact .next hs
  next e => exact .ite (.next (hs.takeMsg e)) (.ite (.next (hs.takeMsg e)) (.next (hs.takeMsg e).mBil.tokenEntry))
theorem StoresInOrder.execKeypadLockoutEnd (hs : StoresInOrder s) : EndsInOrder (execKeypadLockoutEnd src s) := .ite (.next hs.mBil) (.next hs)
theorem StoresInOrder.execCreditReport (hs : StoresInOrder s) : EndsInOrder (execCreditReport k s) := by
  unfold Machine.execCreditReport
  split
  · exact .next hs
  · extract_lets _ s₁ _
    have h₁ : StoresInOrder s₁ := hs.mC
    exact .ite (.next hs) (.next (.ite h₁.tellStop h₁))
theorem StoresInOrder.execBilRead (hs : StoresInOrder s) : EndsInOrder (execBilRead o src q s) :=
  .next (hs.verb (fun _ _ _ h₁ => .ite h₁.complete (.ite h₁.complete h₁.complete)))
theorem StoresInOrder.execBilPeriodRead (hs : StoresInOrder s) : EndsInOrder (execBilPeriodRead o n s) := by
  unfold Machine.execBilPeriodRead
  refine .next ?_
  refine hs.verb (fun _ _ _ h₁ => ?_)
  split <;> exact h₁.complete
theorem StoresInOrder.execBilIntervalRead (hs : StoresInOrder s) : EndsInOrder (execBilIntervalRead o i first count s) :=
  .next (hs.verb (fun _ _ _ h₁ => .ite h₁.complete (.ite h₁.complete (.ite h₁.complete h₁.complete))))
theorem StoresInOrder.execBilRecordRead (hs : StoresInOrder s) : EndsInOrder (execBilRecordRead o n s) := by
  unfold Machine.execBilRecordRead
  refine .next ?_
  refine hs.verb (fun _ _ _ h₁ => ?_)
  split <;> exact h₁.complete
theorem StoresInOrder.execBilLedgerRead (hs : StoresInOrder s) : EndsInOrder (execBilLedgerRead o first count s) :=
  .next (hs.verb (fun _ _ _ h₁ => .ite h₁.complete (.ite h₁.complete h₁.complete)))

/-! ### Island -/

theorem StoresInOrder.mSaf (hs : StoresInOrder s) : StoresInOrder (s.mSaf f) := hs.same
theorem StoresInOrder.mZone (hs : StoresInOrder s) : StoresInOrder (s.mZone z f) := hs.mSaf
theorem StoresInOrder.mIn (hs : StoresInOrder s) : StoresInOrder (s.mIn n f) := hs.mSaf
theorem StoresInOrder.mOutPair (hs : StoresInOrder s) : StoresInOrder (s.mOutPair n f) := hs.mSaf
theorem StoresInOrder.mConn (hs : StoresInOrder s) : StoresInOrder (s.mConn n f) := hs.mSaf
theorem StoresInOrder.safBit (hs : StoresInOrder s) : StoresInOrder (s.safBit i) := hs.srf
theorem StoresInOrder.setZone (hs : StoresInOrder s) : StoresInOrder (s.setZone z st cause detail) := hs.mZone.safLog
theorem StoresInOrder.pairOff (hs : StoresInOrder s) : StoresInOrder (s.pairOff n) := .ite hs.mOutPair hs
theorem StoresInOrder.faultZone (hs : StoresInOrder s) : StoresInOrder (s.faultZone z cause src) :=
  (StoresInOrder.ite hs hs.setZone).mZone.foldl (fun _ _ h₃ => .ite h₃.pairOff h₃)
theorem StoresInOrder.removeZone (hs : StoresInOrder s) : StoresInOrder (s.removeZone z cause detail) :=
  hs.setZone.foldl (fun _ _ h₂ => .ite h₂.pairOff h₂)
theorem StoresInOrder.demandZone (hs : StoresInOrder s) : StoresInOrder (s.demandZone z cause detail) := .ite (.ite hs.setZone.mZone hs.removeZone) hs
theorem StoresInOrder.demandZones (hs : StoresInOrder s) : StoresInOrder (s.demandZones mask cause detail) := hs.foldl (fun _ _ h₁ => h₁.demandZone)
theorem StoresInOrder.faultZones (hs : StoresInOrder s) : StoresInOrder (s.faultZones zs cause src) := hs.foldl (fun _ _ h₁ => h₁.faultZone)
theorem StoresInOrder.weldZones (hs : StoresInOrder s) : StoresInOrder (s.weldZones zs src) :=
  hs.safBit.safLog.faultZones.foldl (fun _ _ h₃ => .ite h₃.demandZone h₃)
theorem StoresInOrder.energize (hs : StoresInOrder s) : StoresInOrder (s.energize) :=
  hs.foldl (fun _ _ h₁ => .ite (.ite h₁.mOutPair.weldZones h₁.mOutPair) h₁)
theorem StoresInOrder.samplePair (hs : StoresInOrder s) : StoresInOrder (samplePair a b s n) := by
  unfold Machine.samplePair
  extract_lets _ _ _ s₁
  have h₁ : StoresInOrder s₁ := hs.mIn
  exact .ite hs (.ite hs.mIn (.ite h₁ (h₁.foldl (fun _ _ h₂ => .ite h₂.demandZone h₂))))
theorem StoresInOrder.execSafetyInputSample (hs : StoresInOrder s) : EndsInOrder (execSafetyInputSample a b s) :=
  .next (hs.foldl (fun _ _ h₁ => h₁.samplePair))
theorem StoresInOrder.execSafetyDiscrepancy (hs : StoresInOrder s) : EndsInOrder (execSafetyDiscrepancy n s) := by
  unfold Machine.execSafetyDiscrepancy
  extract_lets
  split
  exacts [.next hs, .ite (.next hs.mIn.safBit.safLog.faultZones) (.next hs)]
theorem StoresInOrder.execChannelCompare (hs : StoresInOrder s) : EndsInOrder (execChannelCompare differ pdus s) := by
  unfold Machine.execChannelCompare
  extract_lets _ _ s₁ s₂ s₃
  have h₁ : StoresInOrder s₁ := hs.mSaf
  have h₂ : StoresInOrder s₂ := h₁.mSaf.safBit
  have h₃ : StoresInOrder s₃ := .ite h₂.safLog h₂
  exact .ite (.next h₃.faultZones) (.next h₁)
theorem StoresInOrder.islandStart (hs : StoresInOrder s) : StoresInOrder (s.islandStart) := hs.partStart.srg.mSaf
theorem StoresInOrder.execSafetyConfigCrcCheck (hs : StoresInOrder s) : EndsInOrder (execSafetyConfigCrcCheck sp hw s) :=
  .ite (.next hs) (.ite (.next hs.mSaf) (.next hs.islandStart))
theorem StoresInOrder.execIslandInternalReset (hs : StoresInOrder s) : EndsInOrder (execIslandInternalReset s) := .next hs.islandStart
theorem StoresInOrder.execSafetyTestPulse (hs : StoresInOrder s) : EndsInOrder (execSafetyTestPulse n low pass' s) :=
  .ite (.next hs) (.ite (.ite (.next hs) (.next hs.mOutPair)) (.next hs.pairOff.mOutPair.safBit.safLog.faultZones))
theorem StoresInOrder.execContactorFeedbackChange (hs : StoresInOrder s) : EndsInOrder (execContactorFeedbackChange n g isOpen s) := by
  unfold Machine.execContactorFeedbackChange
  split
  · extract_lets _ _ s₁
    have h₁ : StoresInOrder s₁ := hs.mOutPair
    exact .ite (.next h₁.faultZones) (.next h₁)
  · exact .ite (.next hs) (.next hs.faultZones)
theorem StoresInOrder.execFeedbackTimeout (hs : StoresInOrder s) : EndsInOrder (execFeedbackTimeout n g s) := by
  unfold Machine.execFeedbackTimeout
  split
  · exact .ite (.ite (.next hs.faultZones) (.ite (.next hs.mOutPair.weldZones) (.next hs))) (.next hs)
  · exact .ite (.next hs) (.ite (.next hs.weldZones) (.next hs.faultZones))
theorem StoresInOrder.execStoTimeout (hs : StoresInOrder s) : EndsInOrder (execStoTimeout k s) := .ite (.next hs.faultZones) (.next hs)
theorem StoresInOrder.execZoneDemand (hs : StoresInOrder s) : EndsInOrder (execZoneDemand z s) := by
  unfold Machine.execZoneDemand
  split
  exacts [.next hs.demandZone, .next hs]
theorem StoresInOrder.execEnvelopeViolation (hs : StoresInOrder s) : EndsInOrder (execEnvelopeViolation z s) := by
  unfold Machine.execEnvelopeViolation
  split
  exacts [.ite (.next hs.safBit.removeZone) (.next hs), .next hs]
theorem StoresInOrder.execEnergyRemoval (hs : StoresInOrder s) : EndsInOrder (execEnergyRemoval z s) := .ite (.next hs.removeZone) (.next hs)
theorem StoresInOrder.execSafeStopTimeout (hs : StoresInOrder s) : EndsInOrder (execSafeStopTimeout z s) := .ite (.next hs.removeZone) (.next hs)
theorem StoresInOrder.execResetPulse (hs : StoresInOrder s) : EndsInOrder (execResetPulse src s) := by
  unfold Machine.execResetPulse
  split
  · exact .next hs
  · extract_lets s₁
    have h₁ : StoresInOrder s₁ := .ite hs.mIn hs.mConn
    exact .ite (.next h₁) (.ite (.next (h₁.foldl (fun _ _ h₂ => h₂.mZone))) (.next h₁.safBit.safLog))
theorem StoresInOrder.execResetJammed (hs : StoresInOrder s) : EndsInOrder (execResetJammed src s) := by
  unfold Machine.execResetJammed
  split
  exacts [.ite (.next (StoresInOrder.ite hs.mIn hs.mConn).safBit.safLog) (.next hs), .next hs]
theorem StoresInOrder.execZoneReset (hs : StoresInOrder s) : EndsInOrder (execZoneReset z s) := .ite (.next hs.setZone.energize) (.next hs)
theorem StoresInOrder.execSafetyStateDelivery (hs : StoresInOrder s) : EndsInOrder (execSafetyStateDelivery s) :=
  .next (hs.mBoth.foldl (fun _ _ h₂ => h₂.foldl (fun _ _ h₃ => .ite h₃ h₃.srf)))
theorem StoresInOrder.forcePoles (hs : StoresInOrder s) : StoresInOrder (s.forcePoles) := hs.mSaf.foldl (fun _ _ h₂ => h₂.weldZones)
theorem StoresInOrder.sendPdu (hs : StoresInOrder s) : StoresInOrder (s.sendPdu n ext) := .ite hs.mConn hs.mConn
theorem StoresInOrder.envelopeTick (hs : StoresInOrder s) : StoresInOrder (envelopeTick s z) := .ite hs.mZone hs
theorem StoresInOrder.execHarvitorDownlinkBuild (hs : StoresInOrder s) : EndsInOrder (execHarvitorDownlinkBuild delivered s) := by
  unfold Machine.execHarvitorDownlinkBuild
  refine .ite (.next hs) ?_
  extract_lets s₁ s₂ s₃
  have h₁ : StoresInOrder s₁ := hs.mSaf
  have h₂ : StoresInOrder s₂ := by
    unfold s₂
    split
    exacts [h₁.mSaf, h₁]
  have h₃ : StoresInOrder s₃ := h₂.forcePoles.foldl (fun _ _ h₄ => h₄.envelopeTick)
  exact .next (h₃.foldl (fun _ _ h₅ => h₅.sendPdu))
theorem StoresInOrder.takePoleFb (hs : StoresInOrder s) : StoresInOrder (s.takePoleFb c data) := hs.mSaf
theorem StoresInOrder.lowSample (hs : StoresInOrder s) : StoresInOrder (lowSample n a s z) := .ite hs.mZone hs
theorem StoresInOrder.takePdu (hs : StoresInOrder s) : StoresInOrder (s.takePdu n b) := by
  unfold State.takePdu
  extract_lets _ _ _ s₁ _ _ _ s₂ s₃ _ s₄
  have h₁ : StoresInOrder s₁ := hs.mConn
  have h₂ : StoresInOrder s₂ := h₁.mConn
  have h₃ : StoresInOrder s₃ := .ite h₂.takePoleFb h₂
  have h₄ : StoresInOrder s₄ := h₃.foldl (fun _ _ h₅ => h₅.lowSample)
  exact .ite hs (.ite h₁ (.ite h₄ h₄.demandZones))
theorem StoresInOrder.takeForwarded (hs : StoresInOrder s) : StoresInOrder (s.takeForwarded n) := by
  unfold State.takeForwarded
  extract_lets
  split
  exacts [hs.mConn, hs.mConn.takePdu]
theorem StoresInOrder.execHarvitorTimeout (hs : StoresInOrder s) : EndsInOrder (execHarvitorTimeout n s) :=
  .ite (.next hs.mConn.safLog.demandZones) (.next hs)
theorem StoresInOrder.execSafStop (hs : StoresInOrder s) : EndsInOrder (execSafStop o mask s) :=
  .next (hs.verb (fun _ _ _ h₁ => h₁.demandZones.complete))
theorem StoresInOrder.clearFault (hs : StoresInOrder s) : StoresInOrder (s.clearFault z) := by
  unfold State.clearFault
  extract_lets _ s₁
  have h₁ : StoresInOrder s₁ := by
    refine hs.foldl (fun _ _ h₂ => ?_)
    split
    exacts [h₂.mSaf, h₂.mIn, .ite h₂.mOutPair h₂]
  exact h₁.setZone.mZone
theorem StoresInOrder.execSafFaultClear (hs : StoresInOrder s) : EndsInOrder (execSafFaultClear o mask s) :=
  .next (hs.verb (fun _ _ _ h₁ => .ite h₁.complete (.ite h₁.complete (.complete (h₁.foldl (fun _ _ h₂ => h₂.clearFault))))))
theorem StoresInOrder.execSafLogRead (hs : StoresInOrder s) : EndsInOrder (execSafLogRead o first count s) :=
  .next (hs.verb (fun _ _ _ h₁ => .ite h₁.complete h₁.complete))

/-! ### CanIo -/

theorem StoresInOrder.gateOut (hs : StoresInOrder s) : StoresInOrder (s.gateOut h) := hs.srf.bump
theorem StoresInOrder.gated (hs : StoresInOrder s) (hf : ∀ s, StoresInOrder s → StoresInOrder (f s)) : StoresInOrder (s.gated h f) :=
  .ite (hf _ hs) hs.gateOut
theorem StoresInOrder.execClaimGatedWrite (hs : StoresInOrder s) : EndsInOrder (execClaimGatedWrite h s) := .ite (.next hs) (.next hs.gateOut)
theorem StoresInOrder.execGateCntClear (hs : StoresInOrder s) : EndsInOrder (execGateCntClear h s) := .next hs.srg
theorem StoresInOrder.execBusError (hs : StoresInOrder s) : EndsInOrder (execBusError h s) := .next hs.restartPartition
theorem StoresInOrder.execGpioEdge (hs : StoresInOrder s) : EndsInOrder (execGpioEdge p level s) := .ite (.next hs) (.next hs.srf.srf)
theorem StoresInOrder.execGpioSet (hs : StoresInOrder s) : EndsInOrder (execGpioSet h mask s) := .next (hs.gated (fun _ h₁ => h₁.srg))
theorem StoresInOrder.execGpioClr (hs : StoresInOrder s) : EndsInOrder (execGpioClr h mask s) := .next (hs.gated (fun _ h₁ => h₁.srg))
theorem StoresInOrder.startTimer (hs : StoresInOrder s) : StoresInOrder (s.startTimer h t ofs) := hs.srf.mh
theorem StoresInOrder.execTimerEnable (hs : StoresInOrder s) : EndsInOrder (execTimerEnable h t ofs s) := .ite (.next hs.startTimer) (.next hs)
theorem StoresInOrder.execTimerExpiry (hs : StoresInOrder s) : EndsInOrder (execTimerExpiry h t s) := by
  unfold Machine.execTimerExpiry
  extract_lets _ _ s₁
  have h₁ : StoresInOrder s₁ := hs.srf
  exact .ite (.next hs) (.ite (.next h₁.mh) (.next h₁.srf.mh))
theorem StoresInOrder.wideLatch (hs : StoresInOrder s) : StoresInOrder (s.wideLatch h src answers) := hs.srg.foldl (fun _ _ h₁ => h₁.srg)
theorem StoresInOrder.execWideValueLatch (hs : StoresInOrder s) : EndsInOrder (execWideValueLatch h src answers s) := .next hs.wideLatch
theorem StoresInOrder.setCan (hs : StoresInOrder s) : StoresInOrder (s.setCan n off v) := hs.srg
theorem StoresInOrder.setCanFld (hs : StoresInOrder s) : StoresInOrder (s.setCanFld n off hi lo v) := hs.srf
theorem StoresInOrder.mCan (hs : StoresInOrder s) : StoresInOrder (s.mCan n f) := hs.same
theorem StoresInOrder.canIrq (hs : StoresInOrder s) : StoresInOrder (s.canIrq n i) := hs.setCanFld
theorem StoresInOrder.canWrite (hs : StoresInOrder s) (hf : ∀ s, StoresInOrder s → StoresInOrder (f s)) : StoresInOrder (s.canWrite h n free f) :=
  hs.gated fun _ h₁ => .ite h₁.srf (hf _ h₁)
theorem StoresInOrder.setTstat (hs : StoresInOrder s) : StoresInOrder (s.setTstat n b v) := hs.setCanFld
theorem StoresInOrder.canGo (hs : StoresInOrder s) : StoresInOrder (s.canGo n) := by
  unfold State.canGo
  refine .ite hs ?_
  split
  exacts [hs.setTstat.setCanFld, hs]
theorem StoresInOrder.txRequest (hs : StoresInOrder s) : StoresInOrder (s.txRequest n b) := .ite hs hs.setTstat.setCanFld.canGo
theorem StoresInOrder.txAbort (hs : StoresInOrder s) : StoresInOrder (s.txAbort n b) := .ite hs.setTstat (.ite hs.mCan hs)
theorem StoresInOrder.execCanTxRequest (hs : StoresInOrder s) : EndsInOrder (execCanTxRequest h n b s) :=
  .ite (.next (hs.canWrite (fun _ h₁ => h₁.txRequest))) (.next hs)
theorem StoresInOrder.execCanTxAbort (hs : StoresInOrder s) : EndsInOrder (execCanTxAbort h n b s) :=
  .ite (.next (hs.canWrite (fun _ h₁ => h₁.txAbort))) (.next hs)
theorem StoresInOrder.execCanTxAttemptEnd (hs : StoresInOrder s) : EndsInOrder (execCanTxAttemptEnd n e tec s) := by
  unfold Machine.execCanTxAttemptEnd
  split
  · exact .next hs
  · extract_lets ab s₁ s₂ k s₃
    have h₁ : StoresInOrder s₁ := hs.mCan.setCanFld
    have h₂ : StoresInOrder s₂ := h₁.setCanFld
    have h₃ : StoresInOrder s₃ := by
      unfold s₃
      split
      · exact h₂.setTstat.canIrq.setCanFld
      · exact h₂.setTstat
      · exact .ite h₂.setCanFld.setCanFld.setTstat (.ite h₂.setCanFld.setCanFld.setTstat.canIrq.bump h₂.setCanFld.setCanFld.setTstat)
    exact .next h₃.canGo
theorem StoresInOrder.putRx (hs : StoresInOrder s) : StoresInOrder (s.putRx n f flt' tick) :=
  (hs.setCan.setCan.setCan.foldl (fun _ _ h₃ => h₃.setCan)).setCanFld.canIrq
theorem StoresInOrder.execCanFrameReceived (hs : StoresInOrder s) : EndsInOrder (execCanFrameReceived n f rec_ s) := by
  unfold Machine.execCanFrameReceived
  extract_lets s₁
  have h₁ : StoresInOrder s₁ := hs.setCanFld.setCanFld
  refine .ite (.next hs) ?_
  split
  exacts [.next h₁, .ite (.next h₁.putRx) (.ite (.next h₁.mCan.setCanFld) (.next h₁.setCanFld.canIrq.bump))]
theorem StoresInOrder.rxRelease (hs : StoresInOrder s) : StoresInOrder (s.rxRelease n) := by
  unfold State.rxRelease
  extract_lets s₁
  have h₁ : StoresInOrder s₁ := hs.setCanFld.setCanFld
  split
  exacts [h₁.mCan.setCanFld.putRx, h₁]
theorem StoresInOrder.execCanRxRelease (hs : StoresInOrder s) : EndsInOrder (execCanRxRelease h n s) :=
  .ite (.next (hs.canWrite (fun _ h₁ => h₁.rxRelease))) (.next hs)
theorem StoresInOrder.execHarvitorPduReceived (hs : StoresInOrder s) : EndsInOrder (execHarvitorPduReceived n b s) := by
  unfold Machine.execHarvitorPduReceived
  extract_lets
  split
  exacts [.next hs.takeForwarded, .next hs.takePdu, .ite (.next hs.takePdu.rxRelease) (.next hs), .next hs]
theorem StoresInOrder.setCanState (hs : StoresInOrder s) : StoresInOrder (s.setCanState n st) := .ite hs hs.setCanFld.canIrq.evShared
theorem StoresInOrder.execCanErrorStateChange (hs : StoresInOrder s) : EndsInOrder (execCanErrorStateChange n s) :=
  .ite (.next hs) (.next hs.setCanState)
theorem StoresInOrder.execCanBusOff (hs : StoresInOrder s) : EndsInOrder (execCanBusOff n s) :=
  .ite (.next (hs.foldl (fun _ _ h₂ => .ite h₂.setTstat h₂)).mCan.setCanFld.setCanFld.setCanState) (.next hs)
theorem StoresInOrder.boffRec (hs : StoresInOrder s) : StoresInOrder (s.boffRec n) := .ite hs.setCanState hs
theorem StoresInOrder.execCanBoffRecovery (hs : StoresInOrder s) : EndsInOrder (execCanBoffRecovery h n done s) :=
  .ite (.next hs) (.ite (.ite (.next hs.setCanFld.setCanFld.setCanState.canGo) (.next hs)) (.next (hs.canWrite (fun _ h₁ => h₁.boffRec))))
theorem StoresInOrder.abrGo (hs : StoresInOrder s) : StoresInOrder (s.abrGo n) := .ite hs.setCan.mCan hs
theorem StoresInOrder.abrEnd (hs : StoresInOrder s) : StoresInOrder (s.abrEnd n) := .ite hs.setCanFld.canIrq hs
theorem StoresInOrder.execAbrStart (hs : StoresInOrder s) : EndsInOrder (execAbrStart h n s) :=
  .ite (.next (hs.canWrite (fun _ h₁ => h₁.abrGo))) (.next hs)
theorem StoresInOrder.execAbrStop (hs : StoresInOrder s) : EndsInOrder (execAbrStop h n s) :=
  .ite (.next (hs.canWrite (fun _ h₁ => h₁.abrEnd))) (.next hs)
theorem StoresInOrder.execAbrWindowExpiry (hs : StoresInOrder s) : EndsInOrder (execAbrWindowExpiry n s) := by
  unfold Machine.execAbrWindowExpiry
  refine .ite (.next hs) ?_
  split
  exacts [.next hs.mCan, .next hs.setCanFld.mCan]
theorem StoresInOrder.execAbrFound (hs : StoresInOrder s) : EndsInOrder (execAbrFound n s) :=
  .ite (.next hs) (.next hs.setCan.setCan.setCanFld.setCanFld.canIrq.evShared)
theorem StoresInOrder.execExchangeLimitsFrame (hs : StoresInOrder s) : EndsInOrder (execExchangeLimitsFrame n r s) := by
  unfold Machine.execExchangeLimitsFrame
  refine .ite (.next hs) (.next (StoresInOrder.rxRelease ?_))
  dsimp only
  have hput {u : State} {i : Nat} {v : Int} (hu : StoresInOrder u) : StoresInOrder (u.reach.foldl (fun u h => u.stageWrite h i v) u) :=
    hu.foldl fun _ _ h₁ => h₁.stageWrite
  split
  · exact .ite (hput (hput hs)) (hput hs)
  · exact .ite hs (hput hs)
  · exact hs
theorem StoresInOrder.execExchangeSetpointPeriod (hs : StoresInOrder s) : EndsInOrder (execExchangeSetpointPeriod r s) :=
  .ite (.next hs) (.next (StoresInOrder.ite hs.setTstat hs).drew.mCan)
theorem StoresInOrder.fwSend (hs : StoresInOrder s) : StoresInOrder (s.fwSend n b id' fdf dlc d) :=
  .ite hs (hs.setCan.setCan.foldl (fun _ _ h₃ => h₃.setCan)).txRequest
theorem StoresInOrder.execExchangeTxb1Next (hs : StoresInOrder s) : EndsInOrder (execExchangeTxb1Next n s) := by
  unfold Machine.execExchangeTxb1Next
  refine .ite (.next hs) ?_
  split
  exacts [.next hs, .next hs.mCan.fwSend]
theorem StoresInOrder.setFilters (hs : StoresInOrder s) : StoresInOrder (s.setFilters n) := hs.foldl (fun _ _ h₁ => .ite h₁.setCan.setCan h₁)

/-! ### Twin -/

theorem StoresInOrder.execRefereeRequest (hs : StoresInOrder s) : EndsInOrder (execRefereeRequest h early s) := .next hs.requestRaise
theorem StoresInOrder.execRefereeGrant (hs : StoresInOrder s) : EndsInOrder (execRefereeGrant h s) := by
  unfold Machine.execRefereeGrant
  split
  · exact .next hs
  · extract_lets _ s₁ s₂
    have h₁ : StoresInOrder s₁ := hs.same
    refine .ite (.next hs) ?_
    split
    exacts [.next h₁.claimEv, .ite (.next h₁.claimEv) (.next h₁.grantTo)]
theorem StoresInOrder.execTokenRelease (hs : StoresInOrder s) : EndsInOrder (execTokenRelease s) := by
  unfold Machine.execTokenRelease
  split
  · exact .next hs
  · split
    exacts [.next hs, .next hs.releaseToken]
theorem StoresInOrder.execAliveSignalMissing (hs : StoresInOrder s) : EndsInOrder (execAliveSignalMissing s) := by
  unfold Machine.execAliveSignalMissing
  split
  exacts [.next hs, .next hs.same.releaseToken]
theorem StoresInOrder.passTunnels (hs : StoresInOrder s) : StoresInOrder (passTunnels s g) := hs.foldl (fun _ _ h₁ => .ite h₁.mPort.mPort h₁)
theorem StoresInOrder.execHandoverEdge (hs : StoresInOrder s) : EndsInOrder (execHandoverEdge s) := by
  unfold Machine.execHandoverEdge
  split
  · exact .next hs
  · refine .ite (.next hs) ?_
    split
    · exact .next hs.claimEv.abandonHandover
    · extract_lets org s₁ s₂ s₃ s₄
      clear_value org
      have h₁ : StoresInOrder s₁ := by
        unfold s₁
        split
        exacts [hs.complete, hs]
      have h₂ : StoresInOrder s₂ := h₁.mTwn
      have h₃ : StoresInOrder s₃ := h₂.grantTo.mTwn
      have h₄ : StoresInOrder s₄ := h₃.same.passTunnels
      exact .next h₄.ev
theorem StoresInOrder.execTwinHeartbeatSend (hs : StoresInOrder s) : EndsInOrder (execTwinHeartbeatSend h s) := .next hs.mTwn
theorem StoresInOrder.execTwinHeartbeatReceived (hs : StoresInOrder s) : EndsInOrder (execTwinHeartbeatReceived h valid s) := by
  unfold Machine.execTwinHeartbeatReceived
  split
  · exact .next hs
  · extract_lets s₁ s₂ s₃
    have h₁ : StoresInOrder s₁ := hs.mTwn
    have h₂ : StoresInOrder s₂ := h₁.mh
    have h₃ : StoresInOrder s₃ := h₂.mTwn
    exact .ite (.next h₁.mTwn) (.ite (.next h₃.stepDown) (.next h₃))
theorem StoresInOrder.execTwinLinkDead (hs : StoresInOrder s) : EndsInOrder (execTwinLinkDead h s) := .ite (.next hs.mTwn.renewHealth) (.next hs)
theorem StoresInOrder.execRelayedSnapshotReceived (hs : StoresInOrder s) : EndsInOrder (execRelayedSnapshotReceived h s) := .next hs.mTwn
theorem StoresInOrder.execPortCountTakeover (hs : StoresInOrder s) : EndsInOrder (execPortCountTakeover s) := by
  unfold Machine.execPortCountTakeover
  split
  · exact .next hs
  · dsimp only
    have h₁ (r) : StoresInOrder { s with ref := r } := hs.same
    exact .ite (.next (h₁ _)) (.ite (.next hs) (.ite (.next (h₁ _).abandonHandover.claimEv.grantTo) (.next (h₁ _))))
theorem StoresInOrder.execCleanHealthReturn (hs : StoresInOrder s) : EndsInOrder (execCleanHealthReturn s) := by
  unfold Machine.execCleanHealthReturn
  split
  exacts [.ite (.next hs.same.mTwn) (.next hs), .next hs]
theorem StoresInOrder.execTwnHandover (hs : StoresInOrder s) : EndsInOrder (execTwnHandover o t s) := by
  unfold Machine.execTwnHandover
  refine .next ?_
  refine hs.verb (fun _ _ _ h₁ => ?_)
  split
  exacts [h₁.complete, .ite h₁.complete (.ite h₁.complete (.ite h₁.complete h₁.same.mTwn.complete))]
theorem StoresInOrder.execHandoverReq (hs : StoresInOrder s) : EndsInOrder (execHandoverReq s) := by
  unfold Machine.execHandoverReq
  split
  exacts [.ite (.next hs.same) (.next hs), .next hs]
theorem StoresInOrder.execHandoverStateSend (hs : StoresInOrder s) : EndsInOrder (execHandoverStateSend s) := by
  unfold Machine.execHandoverStateSend
  split
  exacts [.ite (.next hs.same.mh) (.next hs), .next hs]
theorem StoresInOrder.execHandoverStateAck (hs : StoresInOrder s) : EndsInOrder (execHandoverStateAck s) := by
  unfold Machine.execHandoverStateAck
  split
  exacts [.ite (.next hs.same) (.next hs), .next hs]
theorem StoresInOrder.execHandoverTimeout (hs : StoresInOrder s) : EndsInOrder (execHandoverTimeout s) := by
  unfold Machine.execHandoverTimeout
  split
  exacts [.ite (.next hs.abandonHandover) (.next hs), .next hs]
theorem StoresInOrder.loadImage (hs : StoresInOrder s) : StoresInOrder (loadImage s h img) :=
  hs.ofRegs (rising_foldlIns _ _ _ _ (rising_filter _ _ hs.risingRegs))
theorem StoresInOrder.execRejoinStart (hs : StoresInOrder s) : EndsInOrder (execRejoinStart h s) :=
  .ite (.next hs.takeStaged.loadImage.mh.renewGstat) (.next hs)
theorem StoresInOrder.setCounter (hs : StoresInOrder s) : StoresInOrder (setCounter s h n) := hs.same.drew.mTck
theorem StoresInOrder.startTakeover (hs : StoresInOrder s) : StoresInOrder (startTakeover s h) :=
  (StoresInOrder.ite hs hs.loadImage).mTwn.healthEv.requestRaise
theorem StoresInOrder.execStartPath (hs : StoresInOrder s) : EndsInOrder (execStartPath h n s) :=
  .ite (.ite (.next hs.startTakeover) (.ite (.next hs.setCounter.startTakeover) (.next hs))) (.next hs)
theorem StoresInOrder.execRestartWithoutService (hs : StoresInOrder s) : EndsInOrder (execRestartWithoutService h n s) :=
  .ite (.next hs.mTck.setCounter.startTakeover) (.next hs)
theorem StoresInOrder.shadowMiss (hs : StoresInOrder s) : StoresInOrder (shadowMiss s h lane spare) := hs.bump.ev
theorem StoresInOrder.spareFaulty (hs : StoresInOrder s) : StoresInOrder (spareFaulty s h spare) := .ite hs.goUnhealthy hs.mTwn
theorem StoresInOrder.judgeShadow (hs : StoresInOrder s) : StoresInOrder (judgeShadow rs h s e) := by
  unfold Machine.judgeShadow
  split
  · extract_lets s₁
    have h₁ : StoresInOrder s₁ := hs.mTwn
    exact .ite h₁.shadowMiss.goUnhealthy h₁.spareFaulty
  · exact .ite hs.shadowMiss.mTwn hs
theorem StoresInOrder.inconclusive (hs : StoresInOrder s) : StoresInOrder (inconclusive s h) := by
  unfold Machine.inconclusive
  extract_lets _ s₁ s₂
  have h₁ : StoresInOrder s₁ := hs.mTwn
  have h₂ : StoresInOrder s₂ := h₁.bump.ev.penalty
  exact .ite h₂.goUnhealthy h₂
theorem StoresInOrder.execShadowCompare (hs : StoresInOrder s) : EndsInOrder (execShadowCompare h rs s) := by
  unfold Machine.execShadowCompare
  extract_lets _ _ s₁ s₂
  have h₁ : StoresInOrder s₁ := hs.mTwn
  have h₂ : StoresInOrder s₂ := h₁.foldl (fun _ _ h₃ => h₃.shadowMiss)
  exact .ite (.next hs) (.ite (.next (hs.foldl (fun _ _ h₄ => h₄.judgeShadow))) (.ite (.next h₂.goUnhealthy) (.ite (.next
    h₂.inconclusive.inconclusive) (.next h₂))))
theorem StoresInOrder.execDigestCompare (hs : StoresInOrder s) : EndsInOrder (execDigestCompare h s) := by
  unfold Machine.execDigestCompare
  extract_lets _ _ ex bad s₁
  have h₁ : StoresInOrder s₁ := hs.bump
  clear_value bad
  refine .ite (.next hs) (.ite (.next hs.mTwn.stageMissed) ?_)
  split
  · exact .ite (.next h₁.mTwn.mTwn.healthEv) (.next h₁.mTwn)
  · exact .next h₁.mTwn.bump.ev
theorem StoresInOrder.execScrubBlock (hs : StoresInOrder s) : EndsInOrder (execScrubBlock h addr kind res s) := by
  unfold Machine.execScrubBlock
  extract_lets s₁ _
  have h₁ : StoresInOrder s₁ := .ite hs hs.mTwn
  refine .ite (.next hs) ?_
  refine .ite (.next (.ite h₁.penalty h₁)) ?_
  refine .ite ?_ (.next h₁)
  split
  · exact .next (.ite h₁.ev.mh h₁.ev)
  · exact .next h₁.ev.goUnhealthy
  · exact .next h₁.ev
  · exact .next h₁.ev
  · exact .next h₁.ev
  · exact .next h₁.ev
  · exact .next h₁.ev
theorem StoresInOrder.execPenaltyDecay (hs : StoresInOrder s) : EndsInOrder (execPenaltyDecay h s) := .next hs.mTwn
theorem StoresInOrder.execHealthWindowEnd (hs : StoresInOrder s) : EndsInOrder (execHealthWindowEnd h s) :=
  .ite (.next hs) (.next (hs.foldl (fun _ _ h₂ => h₂.penalty)).mh)
theorem StoresInOrder.feedEv (hs : StoresInOrder s) : StoresInOrder (feedEv s) := hs.evShared
theorem StoresInOrder.execFeedLost (hs : StoresInOrder s) : EndsInOrder (execFeedLost f v s) := by
  unfold Machine.execFeedLost
  extract_lets _ s₁
  have h₁ : StoresInOrder s₁ := hs.srf
  exact .ite (.next h₁.srf.srf.feedEv) (.next h₁)
theorem StoresInOrder.execFeedOk (hs : StoresInOrder s) : EndsInOrder (execFeedOk f v s) := by
  unfold Machine.execFeedOk
  extract_lets _ s₁
  have h₁ : StoresInOrder s₁ := hs.srf
  exact .ite (.next h₁) (.next h₁.srf.feedEv)
theorem StoresInOrder.execFeedReverseCurrent (hs : StoresInOrder s) : EndsInOrder (execFeedReverseCurrent f s) := .next hs.srf.feedEv
theorem StoresInOrder.execOringTest (hs : StoresInOrder s) : EndsInOrder (execOringTest f fail s) := .ite (.next hs.srf.feedEv) (.next hs)
theorem StoresInOrder.execPertArm (hs : StoresInOrder s) : EndsInOrder (execPertArm o h v s) :=
  .next (hs.runAt (fun _ _ h₁ => .ite h₁.complete (.ite h₁.complete h₁.srg.mTwn.complete)))
theorem StoresInOrder.execPertEnd (hs : StoresInOrder s) : EndsInOrder (execPertEnd h s) := .ite (.next hs.mTwn) (.next hs)
theorem StoresInOrder.execClaimLossRelinquish (hs : StoresInOrder s) : EndsInOrder (execClaimLossRelinquish h s) := .ite (.next hs.same) (.next hs)
theorem StoresInOrder.execRefereeDailyExercise (hs : StoresInOrder s) : EndsInOrder (execRefereeDailyExercise s) := .next hs.same

/-! ### Thermal -/

theorem StoresInOrder.mThm (hs : StoresInOrder s) : StoresInOrder (s.mThm h f) := hs.mh
theorem StoresInOrder.mModel (hs : StoresInOrder s) : StoresInOrder (s.mModel h m f) := hs.mThm
theorem StoresInOrder.thmEv (hs : StoresInOrder s) : StoresInOrder (s.thmEv h code d) := .ite hs.ev hs
theorem StoresInOrder.judgePin (ht : StoresInOrder t) : StoresInOrder (judgePin s h m l t k) := .ite ht ht.mModel
theorem StoresInOrder.initModel (hs : StoresInOrder s) : StoresInOrder (s.initModel h m) := hs.mModel
theorem StoresInOrder.readSensor (hs : StoresInOrder s) : StoresInOrder (readSensor h m s k) := by
  unfold Machine.readSensor
  extract_lets _ _ s₁
  have h₁ : StoresInOrder s₁ := hs.mModel
  exact .ite hs.mModel (.ite h₁.bump.thmEv h₁)
theorem StoresInOrder.coolRange (hs : StoresInOrder s) : StoresInOrder (coolRange h m s) := by
  unfold Machine.coolRange
  extract_lets _ _ s₁ _
  have h₁ : StoresInOrder s₁ := hs.mModel
  exact .ite (.ite h₁ h₁.thmEv) (.ite hs.mModel hs)
theorem StoresInOrder.updateModel (hs : StoresInOrder s) : StoresInOrder (updateModel h s m) :=
  have h₁ := StoresInOrder.coolRange (h := h) (m := m) (hs.foldl (l := List.range 7) fun _ _ h₁ => h₁.readSensor (h := h) (m := m))
  .ite hs.mModel (.mModel (.judgePin (.judgePin (.ite h₁ h₁.initModel))))
theorem StoresInOrder.execThermalUpdate (hs : StoresInOrder s) : EndsInOrder (execThermalUpdate h s) :=
  .ite (.next hs) (.next (hs.foldl (fun _ _ h₂ => h₂.updateModel)).mThm.drew)
theorem StoresInOrder.execCeilingSend (hs : StoresInOrder s) : EndsInOrder (execCeilingSend arrives s) := by
  unfold Machine.execCeilingSend
  split
  · exact .next hs
  · split
    exacts [.next hs, .ite (.next hs) (.next (hs.foldl (fun _ _ h₂ => .ite h₂ h₂.bump)).mThm.mThm)]
theorem StoresInOrder.execCeilingStage (hs : StoresInOrder s) : EndsInOrder (execCeilingStage h s) := by
  unfold Machine.execCeilingStage
  extract_lets x own l
  clear_value l
  split
  exacts [.next hs, .next (hs.foldl (fun _ _ h₂ => h₂.stageWrite.mModel)).mThm]
theorem StoresInOrder.execPredictionDataComplete (hs : StoresInOrder s) : EndsInOrder (execPredictionDataComplete h m s) :=
  .ite (.next hs.mModel) (.next hs)
theorem StoresInOrder.execModelInit (hs : StoresInOrder s) : EndsInOrder (execModelInit h m s) := .ite (.next hs.initModel) (.next hs)
theorem StoresInOrder.execSensorRecovered (hs : StoresInOrder s) : EndsInOrder (execSensorRecovered h m k s) :=
  .ite (.next hs.mModel.thmEv) (.next hs)
theorem StoresInOrder.execSensorSuspect (hs : StoresInOrder s) : EndsInOrder (execSensorSuspect h m k s) :=
  .ite (.next hs.mModel.bump.thmEv) (.next hs)
theorem StoresInOrder.execSensorSuspectCleared (hs : StoresInOrder s) : EndsInOrder (execSensorSuspectCleared h m k s) :=
  .ite (.next hs.mModel.thmEv) (.next hs)
theorem StoresInOrder.execCoolantRangeCleared (hs : StoresInOrder s) : EndsInOrder (execCoolantRangeCleared h m s) :=
  .ite (.next hs.mModel.thmEv) (.next hs)
theorem StoresInOrder.thmCommit (hs : StoresInOrder s) : StoresInOrder (s.thmCommit h old) := by
  unfold State.thmCommit
  refine hs.foldl (fun _ _ h₁ => ?_)
  extract_lets _ _ s₂
  have h₂ : StoresInOrder s₂ := .ite h₁.mModel h₁
  exact .ite h₂.mModel h₂
theorem StoresInOrder.devThermEv (hs : StoresInOrder s) : StoresInOrder (devThermEv s h kind v) := hs.ev
theorem StoresInOrder.throttleEnter (hs : StoresInOrder s) : StoresInOrder (throttleEnter s h) := .ite hs.mThm.devThermEv hs.mThm
theorem StoresInOrder.flashRange (hs : StoresInOrder s) : StoresInOrder (flashRange s h) := .ite (.ite hs.mThm.devThermEv hs) hs.mThm
theorem StoresInOrder.safeStop (hs : StoresInOrder s) : StoresInOrder (safeStop s h) := by
  unfold Machine.safeStop
  split
  exacts [hs, .ite hs.same.demandZones.mBoth.devThermEv hs]
theorem StoresInOrder.execTjEstimate (hs : StoresInOrder s) : EndsInOrder (execTjEstimate h node powers s) :=
  .ite (.next hs) (.next hs.mThm.throttleEnter.flashRange.safeStop)
theorem StoresInOrder.execTjDiodeReset (hs : StoresInOrder s) : EndsInOrder (execTjDiodeReset h diode s) := .ite (.next hs.mThm) (.next hs)
theorem StoresInOrder.execThrottleExit (hs : StoresInOrder s) : EndsInOrder (execThrottleExit h s) := by
  unfold Machine.execThrottleExit
  extract_lets
  split
  exacts [.ite (.next hs.mThm.devThermEv) (.next hs), .next hs]
theorem StoresInOrder.execDerateUpdate (hs : StoresInOrder s) : EndsInOrder (execDerateUpdate h s) := by
  unfold Machine.execDerateUpdate
  extract_lets _ _ _ _ s₁
  have h₁ : StoresInOrder s₁ := hs.mThm
  exact .ite (.next hs) (.ite (.next h₁) (.next h₁.devThermEv))
theorem StoresInOrder.execFlashWriteResume (hs : StoresInOrder s) : EndsInOrder (execFlashWriteResume h s) := by
  unfold Machine.execFlashWriteResume
  extract_lets
  split
  exacts [.ite (.next hs.mThm.devThermEv) (.next hs), .next hs]
theorem StoresInOrder.execBntcSample (hs : StoresInOrder s) : EndsInOrder (execBntcSample t s) := by
  unfold Machine.execBntcSample
  extract_lets _ _ _ _ _ _ _ s₁
  have h₁ : StoresInOrder s₁ := hs.same
  exact .ite (.next h₁) (.next h₁.evShared)

/-! ### Vehicle -/

theorem StoresInOrder.sessTaken (hs : StoresInOrder s) : StoresInOrder (s.sessTaken) := hs.same
theorem StoresInOrder.plug (hs : StoresInOrder s) : StoresInOrder (s.plug k) := (StoresInOrder.ite hs.closeAcct.drew hs).sessTaken.mC.openAcct.enter
theorem StoresInOrder.execPilotStateChange (hs : StoresInOrder s) : EndsInOrder (execPilotStateChange k s) :=
  .ite (.next hs) (.ite (.next (.ite hs.plug hs)) (.ite (.next (.ite hs.enter hs)) (.ite (.next hs) (.ite (.next hs.stopSession) (.ite (.next
    hs.stopSession) (.ite (.next (.ite hs.enter hs)) (.ite (.next (.ite hs.stopSession (.ite hs.mC hs))) (.next hs))))))))
theorem StoresInOrder.respond (hs : StoresInOrder s) : StoresInOrder (s.respond k) := by
  unfold State.respond
  extract_lets _ _ _ _ _ _ s₁
  have h₁ : StoresInOrder s₁ := hs.drew
  exact .ite h₁.mVeh h₁.mVeh.sendMsg
theorem StoresInOrder.execSlacMessage (hs : StoresInOrder s) : EndsInOrder (execSlacMessage k run sounds s) := .ite (.next hs) (.next hs.mVeh.respond)
theorem StoresInOrder.noMatch (hs : StoresInOrder s) : StoresInOrder (s.noMatch k run) := hs.foldl (fun _ _ h₁ => .ite h₁.mVeh.respond h₁)
theorem StoresInOrder.execSlacMatch (hs : StoresInOrder s) : EndsInOrder (execSlacMatch k run s) :=
  .ite (.next hs.drew.createKey.mC.enter.respond.respond.noMatch) (.next hs)
theorem StoresInOrder.trafficKey (hs : StoresInOrder s) : StoresInOrder (s.trafficKey k key) := by
  unfold State.trafficKey
  exact hs.drew.createKey.mC
theorem StoresInOrder.takeLimits (hs : StoresInOrder s) : StoresInOrder (s.takeLimits k l) := by
  unfold State.takeLimits
  split
  exacts [hs.mC, hs.stopSession]
theorem StoresInOrder.vehMsg (hs : StoresInOrder s) : StoresInOrder (s.vehMsg k m) := by
  unfold State.vehMsg
  extract_lets
  split
  · refine .ite ?_ hs.stopSession
    split
    exacts [hs.mC, hs.stopSession]
  · exact .ite hs.mC hs.stopSession
  · exact .ite (.nextHandshake (.ite hs.trafficKey hs.stopSession)) hs.stopSession
  · exact .ite hs.mC.enter hs.stopSession
  · exact .ite hs.stopSession (.ite hs.stopSession (.ite hs hs.mC.authorize))
  · exact .ite hs.mC hs.stopSession
  · exact .ite hs.takeLimits hs.stopSession
  · refine .ite ?_ (.ite hs hs.stopSession)
    split
    · exact hs.stopSession
    · extract_lets s₁
      have h₁ : StoresInOrder s₁ := hs.mC
      exact .ite h₁.mC.enter h₁
  · split
    · exact hs.stopSession
    · extract_lets s₂
      have h₂ : StoresInOrder s₂ := hs.mC
      exact .ite h₂.enter (.ite h₂ hs.stopSession)
  · exact .ite hs.enter hs.stopSession
  · exact .ite hs.takeLimits hs.stopSession
  · exact .ite hs.mC hs.stopSession
  · exact hs.stopSession
  · exact hs.stopSession
  · exact hs.stopSession
theorem StoresInOrder.execVehicleMessage (hs : StoresInOrder s) : EndsInOrder (execVehicleMessage k m s) :=
  .ite (.next hs) (.next hs.mC.vehMsg.respond)
theorem StoresInOrder.execSessionStateTimeout (hs : StoresInOrder s) : EndsInOrder (execSessionStateTimeout k seq s) := by
  unfold Machine.execSessionStateTimeout
  extract_lets
  refine .ite (.next hs) ?_
  refine .ite (.next (.ite hs.stopSession hs)) ?_
  split
  exacts [.next hs.stopSession, .next hs]
theorem StoresInOrder.execSessionStop (hs : StoresInOrder s) : EndsInOrder (execSessionStop k cause s) := .ite (.next hs.stopSession) (.next hs)
theorem StoresInOrder.execStoppingComplete (hs : StoresInOrder s) : EndsInOrder (execStoppingComplete k s) := .ite (.next hs.enter) (.next hs)
theorem StoresInOrder.execWeldCheckComplete (hs : StoresInOrder s) : EndsInOrder (execWeldCheckComplete k s) := .ite (.next hs.mC.enter) (.next hs)
theorem StoresInOrder.execVehicleStopGraceExpiry (hs : StoresInOrder s) : EndsInOrder (execVehicleStopGraceExpiry k s) := by
  unfold Machine.execVehicleStopGraceExpiry
  extract_lets
  split
  exacts [.ite (.next hs.stopSession) (.next hs), .next hs]
theorem StoresInOrder.execCoolantSessionTimeout (hs : StoresInOrder s) : EndsInOrder (execCoolantSessionTimeout k s) :=
  .ite (.next hs.stopSession) (.next hs)
theorem StoresInOrder.writeSet (hs : StoresInOrder s) : StoresInOrder (s.writeSet halves l) :=
  (hs.foldl (fun _ _ h₂ => h₂.foldl (fun _ _ h₃ => h₃.stageWrite))).foldl (fun _ _ h₄ => .ite h₄.mC h₄)
theorem StoresInOrder.execVehicleLimitsStage (hs : StoresInOrder s) : EndsInOrder (execVehicleLimitsStage arrives s) := by
  unfold Machine.execVehicleLimitsStage
  split
  · exact .next hs
  · extract_lets _ s₁ _ s₂ _
    have h₁ : StoresInOrder s₁ := hs.writeSet
    have h₂ : StoresInOrder s₂ := .ite hs h₁.same
    exact .ite (.next h₂) (.ite (.next h₂.writeSet) (.ite (.next h₂.writeSet) (.next h₂.same)))
theorem StoresInOrder.execDcmdSend (hs : StoresInOrder s) : EndsInOrder (execDcmdSend k ahead s) := by
  unfold Machine.execDcmdSend
  split
  exacts [.next hs, .ite (.next hs) (.next hs.drew.mVeh.sendMsg)]
theorem StoresInOrder.execDcmdApply (hs : StoresInOrder s) : EndsInOrder (execDcmdApply k s) := by
  unfold Machine.execDcmdApply
  extract_lets
  split
  exacts [.next hs, .ite (.next hs) (.next hs.mRem)]
theorem StoresInOrder.execSessionKeyOrphaned (hs : StoresInOrder s) : EndsInOrder (execSessionKeyOrphaned k s) := by
  unfold Machine.execSessionKeyOrphaned
  split
  exacts [.next hs, .ite (.next hs) (.next hs.mVeh.stopSession)]
theorem StoresInOrder.resumeSession (hs : StoresInOrder s) : StoresInOrder (resumeSession s k) := by
  unfold Machine.resumeSession
  extract_lets
  refine .ite ?_ hs
  split
  exacts [hs.mVeh, hs.mVeh.stopSession]
theorem StoresInOrder.execSessionFailoverResume (hs : StoresInOrder s) : EndsInOrder (execSessionFailoverResume h s) :=
  .ite (.next (hs.foldl (fun _ _ h₁ => h₁.resumeSession))) (.next hs)
theorem StoresInOrder.execSessionMirrorAck (hs : StoresInOrder s) : EndsInOrder (execSessionMirrorAck k s) := by
  unfold Machine.execSessionMirrorAck
  split
  exacts [.next hs, .ite (.next (hs.foldl (fun _ _ h₂ => h₂.sendMsg)).mVeh) (.next hs)]
theorem StoresInOrder.execVehAuth (hs : StoresInOrder s) : EndsInOrder (execVehAuth o k flags num s) :=
  .next (hs.verb (fun _ _ _ h₁ => .ite h₁.complete (.ite h₁.complete (.ite h₁.complete (StoresInOrder.ite h₁.mC.grantAuth h₁.authorize).complete))))
theorem StoresInOrder.execVehStop (hs : StoresInOrder s) : EndsInOrder (execVehStop o k num s) :=
  .next (hs.verb (fun _ _ _ h₁ => .ite h₁.complete (.ite h₁.complete (.ite h₁.complete h₁.complete.mVeh.tellStop))))
theorem StoresInOrder.execVehList (hs : StoresInOrder s) : EndsInOrder (execVehList o add kind id' s) :=
  .next (hs.verb (fun _ _ _ h₁ => .ite h₁.complete (.ite h₁.complete (.ite h₁.same.complete (.ite h₁.complete (.ite h₁.complete
    h₁.same.flashWrite.complete))))))
theorem StoresInOrder.execVehStatus (hs : StoresInOrder s) : EndsInOrder (execVehStatus o k s) :=
  .next (hs.verb (fun _ _ _ h₁ => .ite h₁.complete h₁.complete))

/-! ### Frames -/

theorem StoresInOrder.execIngestDeadline (hs : StoresInOrder s) : EndsInOrder (execIngestDeadline h s) := .next hs.mTck
theorem StoresInOrder.lateFrame (hs : StoresInOrder s) : StoresInOrder (s.lateFrame h p) := by
  unfold State.lateFrame
  extract_lets s₁ s₂
  have h₁ : StoresInOrder s₁ := hs.bump
  have h₂ : StoresInOrder s₂ := h₁.srf
  exact .ite h₂ h₂.mTwn.penalty
theorem StoresInOrder.takeEcho (hs : StoresInOrder s) : StoresInOrder (s.takeEcho h claim) := .ite hs.mTwn (.ite hs.mTwn.stepDown hs)
theorem StoresInOrder.forwardMeter (hs : StoresInOrder s) : StoresInOrder (s.forwardMeter h k b) := hs.same
theorem StoresInOrder.forwardHarv (hs : StoresInOrder s) : StoresInOrder (s.forwardHarv p b) := hs.same
theorem StoresInOrder.takeFrame (hs : StoresInOrder s) : StoresInOrder (s.takeFrame h p ty b auth) := by
  unfold State.takeFrame
  extract_lets _ _ _ _ s₁ s₂
  have h₁ : StoresInOrder s₁ := hs.mPort
  have h₂ : StoresInOrder s₂ := .ite h₁.takeEcho h₁
  exact .ite h₂.forwardMeter (.ite h₂.forwardHarv h₂)
theorem StoresInOrder.execUplinkTickFrame (hs : StoresInOrder s) : EndsInOrder (execUplinkTickFrame h p f s) := by
  unfold Machine.execUplinkTickFrame
  extract_lets _ s₁ s₂ _ _ s₃
  have h₁ : StoresInOrder s₁ := .ite hs.drew hs
  have h₂ : StoresInOrder s₂ := h₁.mPort
  have h₃ : StoresInOrder s₃ := h₂.bump.mPort
  refine .ite (.next hs) ?_
  refine .ite (.next h₂.bump) ?_
  split
  · exact .next h₃.bump
  · exact .ite (.next h₃.bump) (.ite (.next h₃.bump) (.ite (.next h₃.bump) (.ite (.next h₃.lateFrame) (.ite (.next h₃.bump) (.next h₃.takeFrame)))))
theorem StoresInOrder.execDownlinkDispatch (hs : StoresInOrder s) : EndsInOrder (execDownlinkDispatch h p onTime s) :=
  .ite (.next hs) (.ite (.next hs.mPort.stageMissed) (.next (StoresInOrder.ite hs.drew hs).mPort))
theorem StoresInOrder.execTunnelMessageReceived (hs : StoresInOrder s) : EndsInOrder (execTunnelMessageReceived h p s) := by
  unfold Machine.execTunnelMessageReceived
  split
  · exact .next hs
  next e => exact .ite (.next (hs.takeMsg e).bump) (.ite (.next (hs.takeMsg e).mVeh) (.next (hs.takeMsg e)))

/-! ### LaneIsa -/

theorem StoresInOrder.execNop (hs : StoresInOrder s) : EndsInOrder (execNop w s) := .next hs.laneStep
theorem StoresInOrder.execHalt (hs : StoresInOrder s) : EndsInOrder (execHalt w s) := .next hs.laneStep
theorem StoresInOrder.execRpt (hs : StoresInOrder s) : EndsInOrder (execRpt w n len s) := .next hs.laneRepeat
theorem StoresInOrder.execRptv (hs : StoresInOrder s) : EndsInOrder (execRptv w vs n len s) := .next hs.laneRepeat
theorem StoresInOrder.execMovi (hs : StoresInOrder s) : EndsInOrder (execMovi w d imm s) := .next hs.laneStep
theorem StoresInOrder.execMov (hs : StoresInOrder s) : EndsInOrder (execMov w d vs s) := .next hs.laneStep
theorem StoresInOrder.execAdd (hs : StoresInOrder s) : EndsInOrder (execAdd w d vs vt s) := .next hs.laneStep
theorem StoresInOrder.execSub (hs : StoresInOrder s) : EndsInOrder (execSub w d vs vt s) := .next hs.laneStep
theorem StoresInOrder.execNeg (hs : StoresInOrder s) : EndsInOrder (execNeg w d vs s) := .next hs.laneStep
theorem StoresInOrder.execAbs (hs : StoresInOrder s) : EndsInOrder (execAbs w d vs s) := .next hs.laneStep
theorem StoresInOrder.execMin (hs : StoresInOrder s) : EndsInOrder (execMin w d vs vt s) := .next hs.laneStep
theorem StoresInOrder.execMax (hs : StoresInOrder s) : EndsInOrder (execMax w d vs vt s) := .next hs.laneStep
theorem StoresInOrder.execClmp (hs : StoresInOrder s) : EndsInOrder (execClmp w d vs vt s) := .next hs.laneStep
theorem StoresInOrder.execShl (hs : StoresInOrder s) : EndsInOrder (execShl w d vs k s) := .next hs.laneStep
theorem StoresInOrder.execShr (hs : StoresInOrder s) : EndsInOrder (execShr w d vs k s) := .next hs.laneStep
theorem StoresInOrder.execAnd (hs : StoresInOrder s) : EndsInOrder (execAnd w d vs vt s) := .next hs.laneStep
theorem StoresInOrder.execOr (hs : StoresInOrder s) : EndsInOrder (execOr w d vs vt s) := .next hs.laneStep
theorem StoresInOrder.execXor (hs : StoresInOrder s) : EndsInOrder (execXor w d vs vt s) := .next hs.laneStep
theorem StoresInOrder.execSel (hs : StoresInOrder s) : EndsInOrder (execSel w d vs vt k s) := .next hs.laneStep
theorem StoresInOrder.execCmp (hs : StoresInOrder s) : EndsInOrder (execCmp w d vs vt cc s) := .next hs.laneStep
theorem StoresInOrder.execPlog (hs : StoresInOrder s) : EndsInOrder (execPlog w d ps pt op s) := .next hs.laneStep
theorem StoresInOrder.execMul (hs : StoresInOrder s) : EndsInOrder (execMul w d vs vt s) := .next hs.laneStep
theorem StoresInOrder.execMac (hs : StoresInOrder s) : EndsInOrder (execMac w d vs vt s) := .next hs.laneStep
theorem StoresInOrder.execMsu (hs : StoresInOrder s) : EndsInOrder (execMsu w d vs vt s) := .next hs.laneStep
theorem StoresInOrder.execLda (hs : StoresInOrder s) : EndsInOrder (execLda w d vs s) := .next hs.laneStep
theorem StoresInOrder.execAdda (hs : StoresInOrder s) : EndsInOrder (execAdda w d as_ s) := .next hs.laneStep
theorem StoresInOrder.execSuba (hs : StoresInOrder s) : EndsInOrder (execSuba w d as_ s) := .next hs.laneStep
theorem StoresInOrder.execMova (hs : StoresInOrder s) : EndsInOrder (execMova w d as_ s) := .next hs.laneStep
theorem StoresInOrder.execSha (hs : StoresInOrder s) : EndsInOrder (execSha w d k s) := .next hs.laneStep
theorem StoresInOrder.execAmulv (hs : StoresInOrder s) : EndsInOrder (execAmulv w d vs s) := .next hs.laneStep
theorem StoresInOrder.execStr (hs : StoresInOrder s) : EndsInOrder (execStr w d as_ n s) := .next hs.laneStep
theorem StoresInOrder.execAclmp (hs : StoresInOrder s) : EndsInOrder (execAclmp w d k vs vt s) := .next hs.laneStep
theorem StoresInOrder.execLd (hs : StoresInOrder s) : EndsInOrder (execLd w r m s) := .next hs.laneStep
theorem StoresInOrder.execSt (hs : StoresInOrder s) : EndsInOrder (execSt w m r s) := .next hs.laneStep
theorem StoresInOrder.execLdw (hs : StoresInOrder s) : EndsInOrder (execLdw w r m s) := .next hs.laneStep
theorem StoresInOrder.execStw (hs : StoresInOrder s) : EndsInOrder (execStw w m r s) := .next hs.laneStep
theorem StoresInOrder.execLdx (hs : StoresInOrder s) : EndsInOrder (execLdx w r m s) := .next hs.laneStep
theorem StoresInOrder.execMovx (hs : StoresInOrder s) : EndsInOrder (execMovx w d imm s) := .next hs.laneStep
theorem StoresInOrder.execAddx (hs : StoresInOrder s) : EndsInOrder (execAddx w d imm s) := .next hs.laneStep
theorem StoresInOrder.execOut (hs : StoresInOrder s) : EndsInOrder (execOut w vs i s) := .next hs.laneStep
theorem StoresInOrder.execLaneOverrun (hs : StoresInOrder s) : EndsInOrder (execLaneOverrun h l s) := by
  unfold Machine.execLaneOverrun
  extract_lets _ _ s₁ s₂ s₃
  have h₁ : StoresInOrder s₁ := hs.mLane
  have h₂ : StoresInOrder s₂ := h₁.bump.ev
  have h₃ : StoresInOrder s₃ := h₂.stagePenalty
  exact .ite (.next hs) (.ite (.next h₁) (.ite (.next h₃.goUnhealthy) (.next h₃)))

/-! ### LaneRun -/

theorem StoresInOrder.runWhole (hs : StoresInOrder s) : StoresInOrder (runWhole h l s) := by
  unfold Machine.runWhole
  split
  exacts [hs, .ite hs (.ite (hs.foldl (fun _ _ h₂ => h₂.runBlock)).mLane (.ite hs.runSeq.mLane hs))]
theorem StoresInOrder.startLane (hs : StoresInOrder s) : StoresInOrder (startLane h s l) := .ite hs.mLane.runWhole hs.mLane
theorem StoresInOrder.startSpare (hs : StoresInOrder s) : StoresInOrder (startSpare h planned s k) := by
  unfold Machine.startSpare
  split
  exacts [.ite hs.mLane hs.mLane, hs.mLane]
theorem StoresInOrder.spareWhole (hs : StoresInOrder s) : StoresInOrder (spareWhole h s e) := .ite hs.mLane hs
theorem StoresInOrder.execLaneRunStart (hs : StoresInOrder s) : EndsInOrder (execLaneRunStart h s) :=
  .ite (.next (((hs.mCln.mTck.foldl (fun _ _ h₃ => h₃.startSpare)).foldl (fun _ _ h₅ => h₅.startLane)).foldl (fun _ _ h₆ => h₆.spareWhole))) (.next
    hs)

/-! ### LoadSwitch -/

theorem StoresInOrder.setLswF (hs : StoresInOrder s) : StoresInOrder (s.setLswF c off hi lo v) := hs.srf
theorem StoresInOrder.mLswC (hs : StoresInOrder s) : StoresInOrder (s.mLswC c f) := hs.same
theorem StoresInOrder.mLswG (hs : StoresInOrder s) : StoresInOrder (s.mLswG g f) := hs.same
theorem StoresInOrder.lswTo (hs : StoresInOrder s) : StoresInOrder (s.lswTo c st) := hs.setLswF.setLswF.mLswC
theorem StoresInOrder.lswInrush (hs : StoresInOrder s) : StoresInOrder (s.lswInrush c) := .ite hs.lswTo hs.lswTo.mLswC
theorem StoresInOrder.lswLatch (hs : StoresInOrder s) : StoresInOrder (s.lswLatch c cause) := hs.lswTo.setLswF.bump
theorem StoresInOrder.lswEv (hs : StoresInOrder s) : StoresInOrder (s.lswEv c cur) := hs.evShared
theorem StoresInOrder.lswCtlWrite (hs : StoresInOrder s) : StoresInOrder (s.lswCtlWrite c w) := by
  unfold State.lswCtlWrite
  extract_lets _ s₁ _ _ s₂ s₃
  have h₁ : StoresInOrder s₁ := hs.srg
  have h₂ : StoresInOrder s₂ := .ite h₁.mLswC h₁
  have h₃ : StoresInOrder s₃ := .ite h₂.lswTo.setLswF h₂
  exact .ite h₃ (.ite h₃.lswTo (.ite h₃.lswInrush h₃))
theorem StoresInOrder.execLswEnable (hs : StoresInOrder s) : EndsInOrder (execLswEnable h c mode s) :=
  .ite (.next (hs.gated (fun _ h₁ => h₁.lswCtlWrite))) (.next hs)
theorem StoresInOrder.execLswDisable (hs : StoresInOrder s) : EndsInOrder (execLswDisable h c s) :=
  .ite (.next (hs.gated (fun _ h₁ => h₁.lswCtlWrite))) (.next hs)
theorem StoresInOrder.execLswClr (hs : StoresInOrder s) : EndsInOrder (execLswClr h c s) :=
  .ite (.next (hs.gated (fun _ h₁ => h₁.lswCtlWrite))) (.next hs)
theorem StoresInOrder.execLswInrushEnd (hs : StoresInOrder s) : EndsInOrder (execLswInrushEnd c cur s) :=
  .ite (.next hs) (.ite (.next hs.lswTo) (.ite (.next hs.lswLatch) (.next hs.lswTo)))
theorem StoresInOrder.execLswRetryWaitEnd (hs : StoresInOrder s) : EndsInOrder (execLswRetryWaitEnd c s) :=
  .ite (.next hs.mLswC.setLswF.lswInrush) (.next hs)
theorem StoresInOrder.execLswLimitTimeout (hs : StoresInOrder s) : EndsInOrder (execLswLimitTimeout c cur s) :=
  .ite (.next hs.lswLatch.setLswF.mLswG.srf.lswEv) (.next hs)
theorem StoresInOrder.execLswThermal (hs : StoresInOrder s) : EndsInOrder (execLswThermal c hot s) :=
  .ite (.next hs) (.ite (.ite (.next hs.lswTo.setLswF.bump.lswEv) (.next hs)) (.ite (.next hs.lswInrush) (.next hs)))
theorem StoresInOrder.execLswGroupUndervoltage (hs : StoresInOrder s) : EndsInOrder (execLswGroupUndervoltage g s) :=
  .ite (.next hs) (.next (hs.srf.foldl (fun _ _ h₃ => .ite h₃.lswTo h₃)).evShared)
theorem StoresInOrder.execLswGroupUvRecovery (hs : StoresInOrder s) : EndsInOrder (execLswGroupUvRecovery g s) :=
  .ite (.next hs) (.next (hs.srf.mLswG.foldl (fun _ _ h₂ => .ite h₂.lswInrush h₂)))
theorem StoresInOrder.execLswTotalOverload (hs : StoresInOrder s) : EndsInOrder (execLswTotalOverload avg s) := by
  unfold Machine.execLswTotalOverload
  extract_lets s₁ _ fresh s₂ _ s₃ s₄ due
  have h₁ : StoresInOrder s₁ := hs.srf
  have h₂ : StoresInOrder s₂ := h₁.srf
  have h₃ : StoresInOrder s₃ := h₂.setLsw
  have h₄ : StoresInOrder s₄ := .ite h₃.evShared h₃
  refine .ite (.next h₁.setLsw) ?_
  split
  exacts [.ite (.next h₄.lswLatch.setLsw) (.next h₄), .next h₄]
theorem StoresInOrder.execLswOpenLoad (hs : StoresInOrder s) : EndsInOrder (execLswOpenLoad c low s) := .ite (.next hs) (.next hs.setLswF.lswEv)
theorem StoresInOrder.execLswSenseStep (hs : StoresInOrder s) : EndsInOrder (execLswSenseStep s) :=
  .ite (.next hs) (.next (hs.foldl (fun _ _ h₁ => .ite h₁.mLswG h₁)))
theorem StoresInOrder.execLswSlotDutyWrite (hs : StoresInOrder s) : EndsInOrder (execLswSlotDutyWrite s) := by
  unfold Machine.execLswSlotDutyWrite
  split
  exacts [.next hs, .next (hs.foldl (fun _ _ h₁ => .ite h₁.mLswC h₁))]
theorem StoresInOrder.execLswPwmPeriod (hs : StoresInOrder s) : EndsInOrder (execLswPwmPeriod c s) :=
  .ite (.next hs) (.ite (.next hs.setLswF) (.ite (.next hs.drew.setLswF) (.next hs.setLswF)))
theorem StoresInOrder.execLswVfSample (hs : StoresInOrder s) : EndsInOrder (execLswVfSample g vsup curs limiting s) := by
  unfold Machine.execLswVfSample
  extract_lets s₁ s₂ _ _ s₄ _ s₅ _
  have h₁ : StoresInOrder s₁ := hs.srf
  have h₂ : StoresInOrder s₂ := h₁.foldl (fun _ _ h₃ => h₃.setLswF.setLswF)
  have h₄ : StoresInOrder s₄ := h₂.mLswG
  have h₅ : StoresInOrder s₅ := h₄.srf
  exact .ite (.next hs) (.ite (.next h₅) (.next h₅.mLswG.srf))
theorem StoresInOrder.lswResetN (hs : StoresInOrder s) : StoresInOrder (s.lswResetN) :=
  hs.foldl (fun _ _ h₁ => .ite h₁ (h₁.foldl (fun _ _ h₃ => h₃.srg)).mLswC)

/-! ### Mailbox -/

theorem StoresInOrder.setRingReg (hs : StoresInOrder s) : StoresInOrder (s.setRingReg h n off v) := hs.srg
theorem StoresInOrder.signal (hs : StoresInOrder s) : StoresInOrder (s.signal h n) := hs.mRing
theorem StoresInOrder.loseRecord (hs : StoresInOrder s) : StoresInOrder (s.loseRecord h n r) := hs.srf.mRing
theorem StoresInOrder.putRecord (hs : StoresInOrder s) : StoresInOrder (s.putRecord h n r) := by
  unfold State.putRecord
  refine .ite ?_ hs.setRingReg.mRing.signal
  split <;> exact hs.mRing
theorem StoresInOrder.reportLost (hs : StoresInOrder s) : StoresInOrder (s.reportLost h n) := .ite hs hs.mMbx.putRecord.mRing
theorem StoresInOrder.deliver (hs : StoresInOrder s) : StoresInOrder (s.deliver h n r) := by
  unfold State.deliver
  extract_lets s₁
  have h₁ : StoresInOrder s₁ := hs.reportLost
  exact .ite h₁.putRecord h₁.loseRecord
theorem StoresInOrder.sessEv (hs : StoresInOrder s) : StoresInOrder (s.sessEv h ring role what) := hs.ev
theorem StoresInOrder.endSession (hs : StoresInOrder s) : StoresInOrder (s.endSession h n) := by
  unfold State.endSession
  split
  exacts [hs, hs.invalidate.mRing.mMbx.sessEv]
theorem StoresInOrder.orphanSession (hs : StoresInOrder s) : StoresInOrder (orphanSession h s n) := by
  unfold Machine.orphanSession
  split
  exacts [hs, .ite hs (.endSession (hs.foldl (fun _ _ h₁ => h₁.complete)))]
theorem StoresInOrder.orphanSessions (hs : StoresInOrder s) : StoresInOrder (s.orphanSessions h) := hs.foldl (fun _ _ h₁ => h₁.orphanSession)
theorem StoresInOrder.writeSqTail (hs : StoresInOrder s) : StoresInOrder (s.writeSqTail h n v) := .ite hs.setRingReg hs
theorem StoresInOrder.execSqTailDoorbell (hs : StoresInOrder s) : EndsInOrder (execSqTailDoorbell h n v s) := .next hs.writeSqTail
theorem StoresInOrder.restall (hs : StoresInOrder s) : StoresInOrder (s.restall h n) := .ite hs hs.mRing
theorem StoresInOrder.writeCqHead (hs : StoresInOrder s) : StoresInOrder (s.writeCqHead h n v) := .ite hs hs.setRingReg.restall.reportLost
theorem StoresInOrder.execCqHeadWrite (hs : StoresInOrder s) : EndsInOrder (execCqHeadWrite h n v s) := .next (.ite hs.writeCqHead hs)
theorem StoresInOrder.writeRingEn (hs : StoresInOrder s) : StoresInOrder (s.writeRingEn h n en) := by
  unfold State.writeRingEn
  extract_lets _ s₁ s₂ s₃ s₄
  have h₁ : StoresInOrder s₁ := hs.srf
  have h₂ : StoresInOrder s₂ := h₁.endSession
  have h₃ : StoresInOrder s₃ := h₂.mMbx
  have h₄ : StoresInOrder s₄ := h₁.foldl (fun _ _ h₅ => h₅.setRingReg)
  exact .ite h₃.mRing (.ite h₄.srf h₁)
theorem StoresInOrder.execRingEnableWrite (hs : StoresInOrder s) : EndsInOrder (execRingEnableWrite h n en s) := .next (.ite hs.writeRingEn hs)
theorem StoresInOrder.writeRcfg (hs : StoresInOrder s) : StoresInOrder (s.writeRcfg h n v) := .ite hs hs.srg.writeRingEn
theorem StoresInOrder.execRingDmaFault (hs : StoresInOrder s) : EndsInOrder (execRingDmaFault h n s) := .ite (.next hs) (.next hs.srf.mMbx.ev)
theorem StoresInOrder.takeEntry (hs : StoresInOrder s) : StoresInOrder (s.takeEntry h n) := .ite hs.mRing hs.setRingReg
theorem StoresInOrder.execCommandFetch (hs : StoresInOrder s) : EndsInOrder (execCommandFetch h n d s) := by
  unfold Machine.execCommandFetch
  extract_lets _ _ _ s₁ s₂
  have h₁ : StoresInOrder s₁ := hs.takeEntry.mMbx
  have h₂ : StoresInOrder s₂ := .ite h₁.mRing h₁
  exact .ite (.next hs) (.ite (.next hs.mRing) (.ite (.next h₂.complete) (.ite (.next h₂.complete) (.next h₂))))
theorem StoresInOrder.execUndefinedOpcode (hs : StoresInOrder s) : EndsInOrder (execUndefinedOpcode o opc s) :=
  .ite (.next hs) (.next hs.start.complete)
theorem StoresInOrder.execForwardWaitTimeout (hs : StoresInOrder s) : EndsInOrder (execForwardWaitTimeout o s) := by
  unfold Machine.execForwardWaitTimeout
  split
  exacts [.next hs, .ite (.next hs.complete) (.next hs)]
theorem StoresInOrder.execCompletionWrite (hs : StoresInOrder s) : EndsInOrder (execCompletionWrite h s) := by
  unfold Machine.execCompletionWrite
  split
  · exact .next hs
  · extract_lets _ s₁ _ s₂ s₃
    have h₁ : StoresInOrder s₁ := hs.mMbx
    have h₂ : StoresInOrder s₂ := h₁.mRing
    have h₃ : StoresInOrder s₃ := .ite h₂.mRing h₂.setRingReg.signal
    exact .ite (.next h₁) (.next h₃.restall)
theorem StoresInOrder.execMsixCoalesceTimeout (hs : StoresInOrder s) : EndsInOrder (execMsixCoalesceTimeout h n s) := .ite (.next hs.mRing) (.next hs)
theorem StoresInOrder.execMailboxDatagram (hs : StoresInOrder s) : EndsInOrder (execMailboxDatagram h n d s) := by
  unfold Machine.execMailboxDatagram
  extract_lets
  refine .ite (.next hs) ?_
  split <;> exact .ite (.next hs.mRing) (.next hs)
theorem StoresInOrder.execDatagramResendTimeout (hs : StoresInOrder s) : EndsInOrder (execDatagramResendTimeout h n seq s) := by
  unfold Machine.execDatagramResendTimeout
  split
  · exact .next hs
  · split
    exacts [.next hs, .ite (.next hs) (.ite (.next hs.mRing) (.next hs.mRing))]
theorem StoresInOrder.execBindingIdleExpiry (hs : StoresInOrder s) : EndsInOrder (execBindingIdleExpiry h n s) := by
  unfold Machine.execBindingIdleExpiry
  split
  exacts [.ite (.next hs.mRing) (.next hs), .next hs]
theorem StoresInOrder.execSysInfo (hs : StoresInOrder s) : EndsInOrder (execSysInfo o s) := .next (hs.verbHere (fun _ _ h₁ => h₁.complete))
theorem StoresInOrder.execSysSessionOpen (hs : StoresInOrder s) : EndsInOrder (execSysSessionOpen o role hnonce s) :=
  .next (hs.verbHere (fun _ _ h₁ => .ite h₁.complete (.ite h₁.complete (.ite h₁.sessEv.complete h₁.drew.mRing.complete))))
theorem StoresInOrder.proofFailed (hs : StoresInOrder s) : StoresInOrder (s.proofFailed h role) := hs.mMbx
theorem StoresInOrder.execSysSessionProve (hs : StoresInOrder s) : EndsInOrder (execSysSessionProve o sid proof s) := by
  unfold Machine.execSysSessionProve
  refine .next ?_
  refine hs.verbHere (fun _ _ h₁ => ?_)
  extract_lets
  refine .ite h₁.complete ?_
  split
  · exact h₁.complete
  · exact .ite h₁.complete (.ite h₁.sessEv.complete (.ite h₁.proofFailed.sessEv.complete h₁.createKey.complete.mRing.sessEv))
theorem StoresInOrder.execSysSessionClose (hs : StoresInOrder s) : EndsInOrder (execSysSessionClose o s) :=
  .next (hs.verbHere (fun _ _ h₁ => .ite h₁.complete h₁.complete.endSession))
theorem StoresInOrder.execSessionOpenLapse (hs : StoresInOrder s) : EndsInOrder (execSessionOpenLapse h n s) := by
  unfold Machine.execSessionOpenLapse
  split
  exacts [.ite (.next hs.mRing) (.next hs), .next hs]
theorem StoresInOrder.execSessionIdleExpiry (hs : StoresInOrder s) : EndsInOrder (execSessionIdleExpiry h n s) := by
  unfold Machine.execSessionIdleExpiry
  split
  exacts [.ite (.next hs.endSession) (.next hs), .next hs]
theorem StoresInOrder.execRoleLockoutEnd (hs : StoresInOrder s) : EndsInOrder (execRoleLockoutEnd h role s) := .ite (.next hs.mMbx) (.next hs)

/-! ### Mesh -/

theorem StoresInOrder.mMp (hs : StoresInOrder s) : StoresInOrder (s.mMp n f) := hs.same
theorem StoresInOrder.mMlink (hs : StoresInOrder s) : StoresInOrder (s.mMlink tx rx f) := hs.same
theorem StoresInOrder.mx (hs : StoresInOrder s) : StoresInOrder (s.mx n f) := hs.mMp
theorem StoresInOrder.endX (hs : StoresInOrder s) : StoresInOrder (s.endX n) := hs.mMp
theorem StoresInOrder.meshEv (hs : StoresInOrder s) : StoresInOrder (s.meshEv n node cause map) := hs.evShared
theorem StoresInOrder.meshCnt (hs : StoresInOrder s) : StoresInOrder (s.meshCnt n off) := hs.bump
theorem StoresInOrder.sendCell (hs : StoresInOrder s) : StoresInOrder (s.sendCell n m d) := hs.mMp
theorem StoresInOrder.takeCell (hs : StoresInOrder s) : StoresInOrder (s.takeCell n nbr win).1 := by
  unfold State.takeCell
  extract_lets
  split <;> exact hs.mMlink.meshCnt
theorem StoresInOrder.startX (hs : StoresInOrder s) : StoresInOrder (s.startX n f) := hs.mMp
theorem StoresInOrder.setTx (hs : StoresInOrder s) : StoresInOrder (s.setTx v) := hs.srf
theorem StoresInOrder.nextX (hs : StoresInOrder s) : StoresInOrder (s.nextX n) := by
  unfold State.nextX
  split
  exacts [hs.mMp.startX, .ite hs.setTx.startX hs]
theorem StoresInOrder.bcDone (hs : StoresInOrder s) : StoresInOrder (s.bcDone) := hs.drew.setTx
theorem StoresInOrder.xSend (hs : StoresInOrder s) : StoresInOrder (s.xSend n x) := by
  unfold State.xSend
  extract_lets _ _ s₁ _
  have h₁ : StoresInOrder s₁ := hs.sendCell
  exact .ite (.ite h₁.endX.bcDone h₁.mx) h₁.mx
theorem StoresInOrder.xCrossing (hs : StoresInOrder s) : StoresInOrder (s.xCrossing n win) := by
  unfold State.xCrossing
  split
  · exact hs
  · split
    exacts [.ite hs.xSend hs, hs.takeCell.mx, .ite hs hs.takeCell.mx, .ite hs.sendCell.mx hs, hs]
theorem StoresInOrder.harvCrossing (hs : StoresInOrder s) : StoresInOrder (s.harvCrossing n v win) :=
  .ite (StoresInOrder.ite hs.sendCell hs).mMp (.ite hs.takeCell.mMp hs)
theorem StoresInOrder.meshPdu (hs : StoresInOrder s) : StoresInOrder (s.meshPdu c) := .ite hs hs.mMp
theorem StoresInOrder.execMeshHarvitorExchange (hs : StoresInOrder s) : EndsInOrder (execMeshHarvitorExchange n s) := by
  unfold Machine.execMeshHarvitorExchange
  split
  · exact .next hs
  · extract_lets s₁ _ _
    have h₁ : StoresInOrder s₁ := hs.mMp
    exact .ite (.next hs) (.ite (.next h₁) (.next h₁.takePdu))
theorem StoresInOrder.execHarvitorCycleSend (hs : StoresInOrder s) : EndsInOrder (execHarvitorCycleSend n s) := by
  unfold Machine.execHarvitorCycleSend
  extract_lets _ _ _ s₁ _ _ _
  have h₁ : StoresInOrder s₁ := hs.sendPdu
  exact .ite (.ite (.next h₁) (.ite (.ite (.next h₁.fwSend) (.next h₁)) (.ite (.next h₁.meshPdu) (.next h₁)))) (.next hs)
theorem StoresInOrder.execZeroCrossing (hs : StoresInOrder s) : EndsInOrder (execZeroCrossing n edge hz limited rx s) := by
  unfold Machine.execZeroCrossing
  extract_lets ok s₁ s₂ s₃ win
  have h₁ : StoresInOrder s₁ := hs.mMp
  have h₂ : StoresInOrder s₂ := h₁.srf.srf
  have h₃ : StoresInOrder s₃ := .ite h₂.srf h₂
  refine .ite (.next hs) ?_
  split
  · exact .next h₃.harvCrossing
  · exact .ite (.ite (.next h₃.mMp.sendCell) (.next h₃.mMp)) (.next (StoresInOrder.ite h₃.nextX h₃).xCrossing)
theorem StoresInOrder.execZcLost (hs : StoresInOrder s) : EndsInOrder (execZcLost n s) := .ite (.next hs.mMp.srf.meshEv) (.next hs)
theorem StoresInOrder.execZcRecovered (hs : StoresInOrder s) : EndsInOrder (execZcRecovered n s) := by
  unfold Machine.execZcRecovered
  extract_lets _ s₁
  have h₁ : StoresInOrder s₁ := hs.mMp.srf
  exact .ite (.next (.ite h₁.meshEv h₁)) (.next hs)
theorem StoresInOrder.hopDone (hs : StoresInOrder s) : StoresInOrder (s.hopDone n x) := by
  unfold State.hopDone
  extract_lets f mark _ s₁
  have h₁ : StoresInOrder s₁ := by
    unfold s₁
    split
    exacts [hs.setTx, hs.mMlink, hs.same, hs]
  exact .ite h₁.mx (.ite h₁.endX h₁.mx)
theorem StoresInOrder.execMeshCellResponse (hs : StoresInOrder s) : EndsInOrder (execMeshCellResponse n s) := by
  unfold Machine.execMeshCellResponse
  split
  · exact .next hs
  · exact .ite (.next hs) (.ite (.ite (.next hs.hopDone) (.next hs.mx)) (.ite (.next hs.mx) (.next hs.mx)))
theorem StoresInOrder.execMeshFrameAbandon (hs : StoresInOrder s) : EndsInOrder (execMeshFrameAbandon n hop s) := by
  unfold Machine.execMeshFrameAbandon
  split
  · exact .next hs
  · exact .ite (.ite (.next (StoresInOrder.meshEv (.meshCnt (.ite hs.setTx hs))).same.endX) (.next hs)) (.ite (.next hs.meshCnt.meshEv.same) (.next
      hs))
theorem StoresInOrder.execMeshRelayForward (hs : StoresInOrder s) : EndsInOrder (execMeshRelayForward n s) := by
  unfold Machine.execMeshRelayForward
  split
  exacts [.next hs, .ite (.next hs) (.ite (.next hs) (.next hs.mx))]
theorem StoresInOrder.meshRx (hs : StoresInOrder s) : StoresInOrder (s.meshRx n src d) := hs.srg.foldl (fun _ _ h₁ => h₁.srg)
theorem StoresInOrder.meshRelease (hs : StoresInOrder s) : StoresInOrder (s.meshRelease) := by
  unfold State.meshRelease
  split
  exacts [hs.srf, hs.same.meshRx]
theorem StoresInOrder.execMeshFrameReceived (hs : StoresInOrder s) : EndsInOrder (execMeshFrameReceived n s) := by
  unfold Machine.execMeshFrameReceived
  split
  · exact .next hs
  · extract_lets _ _ _ _ _ s₁ _
    have h₁ : StoresInOrder s₁ := hs.endX
    exact .ite (.next hs) (.ite (.next hs.mx) (.ite (.next h₁.mMp) (.ite (.next h₁) (.ite (.ite (.next h₁.srf) (.next h₁.same)) (.next h₁.meshRx)))))
theorem StoresInOrder.execRmsRxRelease (hs : StoresInOrder s) : EndsInOrder (execRmsRxRelease h s) := .next (hs.gated (fun _ h₁ => h₁.meshRelease))
theorem StoresInOrder.meshRequest (hs : StoresInOrder s) : StoresInOrder (s.meshRequest) := .ite hs hs.setTx
theorem StoresInOrder.execRmsTxRequest (hs : StoresInOrder s) : EndsInOrder (execRmsTxRequest h s) := .next (hs.gated (fun _ h₁ => h₁.meshRequest))
theorem StoresInOrder.execMeshExchangeTimeout (hs : StoresInOrder s) : EndsInOrder (execMeshExchangeTimeout n s) := by
  unfold Machine.execMeshExchangeTimeout
  split
  exacts [.next hs, .ite (.next hs) (.next (.endX (.ite hs.setTx hs)))]
theorem StoresInOrder.execBeacon (hs : StoresInOrder s) : EndsInOrder (execBeacon n s) := .ite (.next hs.mMp) (.next hs)
theorem StoresInOrder.execPoll (hs : StoresInOrder s) : EndsInOrder (execPoll n m s) := .ite (.next hs.mMp.startX) (.next hs)
theorem StoresInOrder.meshQueue (hs : StoresInOrder s) : StoresInOrder (s.meshQueue n f) := hs.mMp
theorem StoresInOrder.sendMapset (hs : StoresInOrder s) : StoresInOrder (s.sendMapset n tx rx map at_) :=
  hs.mMlink.mMp.foldl (fun _ _ h₃ => h₃.meshQueue)
theorem StoresInOrder.report (hs : StoresInOrder s) : StoresInOrder (s.report n tx rx r) := by
  unfold State.report
  extract_lets _ s₁ _ s₂
  have h₁ : StoresInOrder s₁ := hs.mMlink
  have h₂ : StoresInOrder s₂ := h₁.mMlink
  exact .ite h₁ (.ite (.ite h₁ h₁.mMlink.meshEv) (.ite h₂ h₂.sendMapset))
theorem StoresInOrder.execLinkrep (hs : StoresInOrder s) : EndsInOrder (execLinkrep n own s) := by
  unfold Machine.execLinkrep
  split
  · split
    exacts [.next hs, .next hs.mMp.report]
  · exact .ite (.next hs) (.next hs.mMlink.report)
theorem StoresInOrder.execMapset (hs : StoresInOrder s) : EndsInOrder (execMapset n tx rx s) := by
  unfold Machine.execMapset
  extract_lets
  split
  · exact .next hs
  · extract_lets s₁ s₂
    have h₁ : StoresInOrder s₁ := hs.mMlink
    have h₂ : StoresInOrder s₂ := .ite h₁.srg h₁
    exact .ite (.next hs) (.next (.ite h₂ h₂.meshEv))
theorem StoresInOrder.execMapsetAckDeadline (hs : StoresInOrder s) : EndsInOrder (execMapsetAckDeadline n tx rx s) := by
  unfold Machine.execMapsetAckDeadline
  extract_lets
  split
  exacts [.next hs, .ite (.next hs) (.next hs.sendMapset)]
theorem StoresInOrder.execRouteCompute (hs : StoresInOrder s) : EndsInOrder (execRouteCompute n m s) := by
  unfold Machine.execRouteCompute
  extract_lets
  refine .ite (.next hs) ?_
  split
  exacts [.next (.ite hs.same.srg.meshEv hs), .ite (.next hs) (.next hs.same.srg.meshEv.meshQueue)]
theorem StoresInOrder.execAssign (hs : StoresInOrder s) : EndsInOrder (execAssign n m s) := .ite (.next hs.same) (.next hs)

/-! ### Points -/

theorem StoresInOrder.readDone (hs : StoresInOrder s) : StoresInOrder (s.readDone o x ids multi) := by
  unfold State.readDone
  extract_lets ps
  clear_value ps
  refine .ite hs.complete ?_
  split
  exacts [hs.completeAt, hs.complete]
theorem StoresInOrder.readPoints (hs : StoresInOrder s) : StoresInOrder (s.readPoints o x ids multi) := .ite hs.complete.mh hs.readDone
theorem StoresInOrder.execPntRead (hs : StoresInOrder s) : EndsInOrder (execPntRead o id' s) :=
  .next (hs.verb (fun _ _ _ h₁ => .ite h₁.complete h₁.readPoints))
theorem StoresInOrder.execPntReadMulti (hs : StoresInOrder s) : EndsInOrder (execPntReadMulti o ids s) := by
  unfold Machine.execPntReadMulti
  refine .next ?_
  refine hs.verb (fun _ _ _ h₁ => ?_)
  refine .ite h₁.complete ?_
  split
  exacts [h₁.complete, h₁.readPoints]
theorem StoresInOrder.execPntWrite (hs : StoresInOrder s) : EndsInOrder (execPntWrite o id' typ v s) := by
  unfold Machine.execPntWrite
  refine .next ?_
  refine hs.verb (fun _ _ _ h₁ => ?_)
  extract_lets
  refine .ite h₁.complete ?_
  split
  exacts [.ite h₁.complete h₁.writePoint.complete, h₁.complete]
theorem StoresInOrder.restoreStep (hs : StoresInOrder s) : StoresInOrder (restoreStep x s w) := .ite hs hs.readDone
theorem StoresInOrder.execPointRestoreComplete (hs : StoresInOrder s) : EndsInOrder (execPointRestoreComplete h idx s) := by
  unfold Machine.execPointRestoreComplete
  split
  exacts [.next hs, .next (hs.mh.foldl (fun _ _ h₃ => h₃.restoreStep)).mh]
theorem StoresInOrder.execPntSubscribe (hs : StoresInOrder s) : EndsInOrder (execPntSubscribe o ring period ids s) := by
  unfold Machine.execPntSubscribe
  refine .next ?_
  refine hs.verbHere (fun _ _ h₁ => ?_)
  extract_lets
  refine .ite h₁.complete ?_
  split
  exacts [h₁.complete, .ite h₁.complete (.ite h₁.complete h₁.mMbx.complete)]
theorem StoresInOrder.execPntUnsubscribe (hs : StoresInOrder s) : EndsInOrder (execPntUnsubscribe o subid s) := by
  unfold Machine.execPntUnsubscribe
  refine .next ?_
  refine hs.verbHere (fun _ _ h₁ => ?_)
  extract_lets
  split
  exacts [h₁.complete, .ite h₁.complete h₁.mMbx.complete]
theorem StoresInOrder.deliverPoint {acc : State × List (Nat × Nat × Nat)} (hs : StoresInOrder acc.1) :
    StoresInOrder (deliverPoint h n acc id').1 := by
  unfold Machine.deliverPoint
  split
  · exact hs
  · exact .iteFst hs hs.mMbx.deliver
theorem StoresInOrder.execSubscriptionDelivery (hs : StoresInOrder s) : EndsInOrder (execSubscriptionDelivery h subid s) := by
  unfold Machine.execSubscriptionDelivery
  split
  · exact .next hs
  · exact .ite (.next hs.mMbx) (.ite (.next hs) (.next (.mMbx (.foldlFst hs fun _ _ h₁ => h₁.deliverPoint))))
theorem StoresInOrder.flushHeld (hs : StoresInOrder s) : StoresInOrder (flushHeld h s n) := .ite hs (hs.mRing.foldl (fun _ _ h₁ => h₁.deliver))
theorem StoresInOrder.execEventDelivery (hs : StoresInOrder s) : EndsInOrder (execEventDelivery h s) := by
  unfold Machine.execEventDelivery
  extract_lets s₁
  have h₁ : StoresInOrder s₁ := hs.foldl (fun _ _ h₂ => h₂.flushHeld)
  split
  · exact .next h₁
  · extract_lets s₃ s₄
    have h₃ : StoresInOrder s₃ := h₁.mMbx
    have h₄ : StoresInOrder s₄ := h₃.foldl (fun _ _ h₅ => h₅.deliver)
    exact .next (.ite (.ite h₄.mh h₄.ownerWrite) h₄)

/-! ### Resets -/

theorem StoresInOrder.setCause (hs : StoresInOrder s) : StoresInOrder (s.setCause h cause) := by
  unfold State.setCause
  split <;> exact hs.srf
theorem StoresInOrder.bootAgain (hs : StoresInOrder s) : StoresInOrder (s.bootAgain h) := hs.same
theorem StoresInOrder.vehReset (hs : StoresInOrder s) : StoresInOrder (s.vehReset h) := .ite hs.same (.ite hs hs.same)
theorem StoresInOrder.dropBlocks (hs : StoresInOrder s) : StoresInOrder (s.dropBlocks h) :=
  (hs.ofRegs (rising_filter _ _ hs.risingRegs)).ofShadow (rising_filter _ _ hs.risingShadow) |>.same
theorem StoresInOrder.dropReqs (hs : StoresInOrder s) : StoresInOrder (s.dropReqs h) := hs.same
/-- A half that resets keeps its flash, and its DRAM is empty. -/
theorem StoresInOrder.setHf_freshHalf (hs : StoresInOrder s) : StoresInOrder (s.setHf h (freshHalf h (s.hf h))) :=
  hs.setHfMem rfl hs.wfFlash
theorem StoresInOrder.resetHalf (hs : StoresInOrder s) : StoresInOrder (s.resetHalf h cause) := by
  unfold State.resetHalf
  extract_lets s₁ s₂ s₃
  have h₁ : StoresInOrder s₁ := hs.bootAgain.vehReset
  have h₂ : StoresInOrder s₂ := .ite h₁.releaseToken (.stepDown (.ite h₁.abandonHandover h₁))
  have h₃ : StoresInOrder s₃ := .dropReqs (.dropBlocks (h₂.foldl (fun _ _ h₄ => h₄.endSession)))
  exact h₃.setHf_freshHalf.setCause
theorem StoresInOrder.haltHalf (hs : StoresInOrder s) : StoresInOrder (s.haltHalf h) := hs.resetHalf.mTwn
theorem StoresInOrder.execHalfReset (hs : StoresInOrder s) : EndsInOrder (execHalfReset h s) := .next hs.resetHalf
theorem StoresInOrder.execUnhealthyResetTimeout (hs : StoresInOrder s) : EndsInOrder (execUnhealthyResetTimeout h s) := by
  unfold Machine.execUnhealthyResetTimeout
  dsimp only
  split
  · exact .next hs
  · exact .ite (.next hs) (.next (.ite hs.resetHalf.mTwn hs.resetHalf))
theorem StoresInOrder.execTwnRelease (hs : StoresInOrder s) : EndsInOrder (execTwnRelease o t s) := by
  unfold Machine.execTwnRelease
  refine .next ?_
  refine hs.verb (fun _ _ _ h₁ => ?_)
  split
  exacts [h₁.complete, .ite h₁.complete h₁.mTwn.complete]
theorem StoresInOrder.resetShared (hs : StoresInOrder s) : StoresInOrder s.resetShared :=
  (hs.lswResetN.ofRegs (rising_filter _ _ hs.lswResetN.risingRegs)).same
theorem StoresInOrder.resetN (hs : StoresInOrder s) : StoresInOrder (s.resetN cause) := hs.resetHalf.resetHalf.resetShared.same
theorem StoresInOrder.por (hs : StoresInOrder s) : StoresInOrder s.por := by
  unfold State.por
  extract_lets s₁ gone _ s₂ s₃ s₄
  have h₁ : StoresInOrder s₁ := hs.resetN.islandStart
  have h₂ : StoresInOrder s₂ := (h₁.ofRegs (rising_filter _ _ h₁.risingRegs)).same
  have h₃ : StoresInOrder s₃ := h₂.mMet
  have h₄ : StoresInOrder s₄ := h₃.mBil
  exact h₄.setTherm
theorem StoresInOrder.shutRecord (hs : StoresInOrder s) : StoresInOrder (s.shutRecord cause h since pkg) := hs.same
theorem StoresInOrder.haltBoth (hs : StoresInOrder s) : StoresInOrder (s.haltBoth) := by
  unfold State.haltBoth
  extract_lets s₁
  have h₁ : StoresInOrder s₁ := hs.haltHalf.haltHalf
  exact h₁.setTherm
theorem StoresInOrder.execThermalPowerDown (hs : StoresInOrder s) : EndsInOrder (execThermalPowerDown pkg s) := by
  unfold Machine.execThermalPowerDown
  split
  exacts [.next hs, .ite (.next hs.shutRecord.haltBoth) (.next hs)]
theorem StoresInOrder.execThermalEmergencyPowerDown (hs : StoresInOrder s) : EndsInOrder (execThermalEmergencyPowerDown pkg s) := by
  unfold Machine.execThermalEmergencyPowerDown
  refine .ite (.next hs.shutRecord.haltBoth) ?_
  split
  exacts [.ite (.next hs.shutRecord.haltBoth) (.next hs), .next hs]
theorem StoresInOrder.execThermalRestart (hs : StoresInOrder s) : EndsInOrder (execThermalRestart pkg s) := by
  unfold Machine.execThermalRestart
  have h₁ (m) : StoresInOrder { s with therm := m } := hs.same
  refine .ite (.next (h₁ _).resetN) (.ite (.next (h₁ _)) ?_)
  split
  · exact .next (h₁ _)
  · exact .next (.ite (h₁ _).resetN (h₁ _).resetN.mBoth)
theorem StoresInOrder.thmVerb (hs : StoresInOrder s) (hb : ∀ s x r, StoresInOrder s → StoresInOrder (body s x r)) :
    StoresInOrder (s.thmVerb o opc roles body) := .ite (hs.verbHere fun _ _ => hb _ _ _) (hs.verb hb)
theorem StoresInOrder.execThmRelease (hs : StoresInOrder s) : EndsInOrder (execThmRelease o s) :=
  .next (hs.thmVerb (fun _ _ _ h₁ => .ite h₁.complete (.ite h₁.complete h₁.same.complete)))
theorem StoresInOrder.execThmShutdownRead (hs : StoresInOrder s) : EndsInOrder (execThmShutdownRead o first count s) :=
  .next (hs.thmVerb (fun _ _ _ h₁ => .ite h₁.complete h₁.complete))

/-! ### Update -/

theorem StoresInOrder.enterRecovery (hs : StoresInOrder s) : StoresInOrder (s.enterRecovery h) := by
  unfold State.enterRecovery
  extract_lets
  split <;> exact hs.resetHalf.mTwn.mUpd
theorem StoresInOrder.revertAct (hs : StoresInOrder s) : StoresInOrder (s.revertAct new) := by
  unfold State.revertAct
  split
  · exact hs
  · extract_lets s₁ s₂
    have h₁ : StoresInOrder s₁ := hs.mUpd
    have h₂ : StoresInOrder s₂ := .ite h₁.sealedLog h₁
    exact h₂.complete
theorem StoresInOrder.revertBank (hs : StoresInOrder s) : StoresInOrder (s.revertBank k) := by
  unfold State.revertBank
  split
  · exact hs
  · extract_lets _ s₁
    have h₁ : StoresInOrder s₁ := hs.bankTo
    split
    exacts [.ite h₁.revertAct h₁, h₁]
theorem StoresInOrder.execBootBankSelect (hs : StoresInOrder s) : EndsInOrder (execBootBankSelect k s) := by
  unfold Machine.execBootBankSelect
  dsimp only
  refine .ite (.next hs) ?_
  split
  · exact .next hs.mRec
  · split
    exacts [.next hs.revertBank.mRec, .ite (.next hs.revertBank.enterRecovery) (.next hs.revertBank)]
theorem StoresInOrder.execBootStage (hs : StoresInOrder s) : EndsInOrder (execBootStage part stage ok digest s) := by
  unfold Machine.execBootStage
  dsimp only
  refine .ite (.next hs) ?_
  split
  · exact .ite (.next (.ite hs.mUpd.mTwn hs.mUpd)) (.next hs)
  · split
    · exact .next hs
    · exact .ite (.next (.ite hs.mUpd.mTwn hs.mUpd)) (.next hs.mRec)
theorem StoresInOrder.clearTarget (hs : StoresInOrder s) : StoresInOrder (s.clearTarget k) := by
  unfold State.clearTarget
  split
  exacts [hs, .ite hs hs.bankTo]
theorem StoresInOrder.execUpdBegin (hs : StoresInOrder s) : EndsInOrder (execUpdBegin o hdr ecOk pqOk s) :=
  .next (hs.verb (fun _ _ _ h₁ => .ite h₁.complete (.ite h₁.complete (h₁.foldl (fun _ _ h₃ => h₃.clearTarget)).mUpd.complete)))
theorem StoresInOrder.execUpdData (hs : StoresInOrder s) : EndsInOrder (execUpdData o off data s) := by
  unfold Machine.execUpdData
  refine .next ?_
  refine hs.verb (fun _ _ _ h₁ => ?_)
  split
  · exact h₁.complete
  · exact .ite h₁.complete (.ite h₁.complete (.ite h₁.complete (.ite h₁.complete h₁.mUpd.complete)))
theorem StoresInOrder.stageInto (hs : StoresInOrder s) : StoresInOrder (s.stageInto i k) := by
  unfold State.stageInto
  split
  exacts [hs, hs.mRec.bankEv]
theorem StoresInOrder.execUpdEnd (hs : StoresInOrder s) : EndsInOrder (execUpdEnd o mask fail s) := by
  unfold Machine.execUpdEnd
  refine .next ?_
  refine hs.verb (fun _ _ _ h₁ => ?_)
  split
  · exact h₁.complete
  · extract_lets s₂ _ _ _ _ s₃
    have h₂ : StoresInOrder s₂ := h₁.complete.mUpd
    have h₃ : StoresInOrder s₃ := .ite h₂.mUpd (h₂.foldl (fun _ _ h₄ => h₄.stageInto))
    exact .ite h₁.complete (.ite h₁.complete (.ite h₁.complete (.ite h₂.complete h₃.complete)))
theorem StoresInOrder.sendImage (hs : StoresInOrder s) : StoresInOrder (s.sendImage h p r off) := hs.foldl (fun _ _ h₁ => h₁.sendMsg)
theorem StoresInOrder.execUpdRemote (hs : StoresInOrder s) : EndsInOrder (execUpdRemote o target mask at_ s) := by
  unfold Machine.execUpdRemote
  refine .next ?_
  refine hs.verb (fun _ _ _ h₁ => ?_)
  refine .ite h₁.complete ?_
  split
  · exact h₁.complete
  · split
    exacts [h₁.complete, h₁.complete.foldl (fun _ _ h₃ => h₃.sendImage.mUpd)]
theorem StoresInOrder.remoteDone (hs : StoresInOrder s) : StoresInOrder (s.remoteDone x o refused) := by
  unfold State.remoteDone
  extract_lets
  split
  exacts [hs.mUpd.complete, .ite hs.mUpd.complete hs]
theorem StoresInOrder.updstat (hs : StoresInOrder s) : StoresInOrder (s.updstat x p st imgid next status) := by
  unfold State.updstat
  split
  · exact hs
  next t _ =>
    extract_lets img s₁ tell s₂ s₃
    clear_value img
    have h₁ : StoresInOrder s₁ := by
      unfold s₁
      split
      exacts [.ite hs.sendImage hs, hs]
    have h₂ : StoresInOrder s₂ := .ite h₁.sendMsg h₁
    have h₃ : StoresInOrder s₃ := h₂.mUpd
    refine .ite hs ?_
    split
    exacts [h₃.remoteDone, h₃]
theorem StoresInOrder.execUpdstat (hs : StoresInOrder s) : EndsInOrder (execUpdstat p s) := by
  unfold Machine.execUpdstat
  split
  · exact .next hs
  next e =>
    obtain ⟨_, _, e⟩ := Option.bind_eq_some_iff.mp e
    obtain ⟨r, e, e'⟩ := Option.map_eq_some_iff.mp e
    cases e'
    exact .next (hs.takeMsg e).updstat
theorem StoresInOrder.execUpdactPreloss (hs : StoresInOrder s) : EndsInOrder (execUpdactPreloss p s) := by
  unfold Machine.execUpdactPreloss
  split
  exacts [.next hs, .ite (.next hs.mBoth) (.next hs)]
theorem StoresInOrder.execUpdact (hs : StoresInOrder s) : EndsInOrder (execUpdact p s) := by
  unfold Machine.execUpdact
  split
  exacts [.next hs, .ite (.next hs.same.mBoth) (.next hs)]
theorem StoresInOrder.toTrial (hs : StoresInOrder s) : StoresInOrder (s.toTrial k) := by
  unfold State.toTrial
  split
  exacts [hs, hs.bankTo.mRec]
theorem StoresInOrder.resetInto (hs : StoresInOrder s) : StoresInOrder (s.resetInto part h) := hs.toTrial.resetHalf
theorem StoresInOrder.execUpdActivate (hs : StoresInOrder s) : EndsInOrder (execUpdActivate o part flags at_ s) := by
  unfold Machine.execUpdActivate
  refine .next ?_
  refine hs.verb (fun _ _ _ h₁ => ?_)
  extract_lets
  refine .ite h₁.complete ?_
  refine .ite h₁.complete ?_
  refine .ite h₁.complete ?_
  refine .ite h₁.complete ?_
  refine .ite h₁.complete ?_
  refine .ite h₁.complete ?_
  split
  · exact .ite h₁.complete h₁.complete.mUpd.toTrial.islandStart
  · exact .ite h₁.complete h₁.complete.mUpd.toTrial.sealedLog.islandCpuRestart
  · exact .ite (.ite h₁.complete h₁.complete.mUpd.resetInto) (.ite h₁.complete (.ite h₁.complete h₁.complete.mUpd))
theorem StoresInOrder.actTick (hs : StoresInOrder s) : StoresInOrder (s.actTick) := by
  unfold State.actTick
  split
  · exact hs
  · extract_lets
    split
    · exact .ite hs.mUpd hs
    · exact .ite hs.mUpd.resetInto (.ite hs.same.mTwn hs)
    · exact .ite hs.mUpd hs
    · exact .ite (.ite hs.mUpd hs) hs
    · exact hs
theorem StoresInOrder.execTrialCommit (hs : StoresInOrder s) : EndsInOrder (execTrialCommit s) := by
  unfold Machine.execTrialCommit
  split
  · exact .next hs
  · refine .ite (.next hs) (.next (.complete (.mUpd (hs.foldl fun _ _ h₁ => ?_))))
    dsimp only
    split
    exacts [h₁, (StoresInOrder.ite h₁.bankTo h₁).bankTo.mRec]
theorem StoresInOrder.execActivationRejoinTimeout (hs : StoresInOrder s) : EndsInOrder (execActivationRejoinTimeout s) := by
  unfold Machine.execActivationRejoinTimeout
  split
  exacts [.next hs, .ite (.next hs) (.next hs.revertBank.resetHalf)]
theorem StoresInOrder.execSingleHalfActivationDrain (hs : StoresInOrder s) : EndsInOrder (execSingleHalfActivationDrain s) := by
  unfold Machine.execSingleHalfActivationDrain
  split
  exacts [.ite (.next hs) (.next (hs.mh.foldl (fun _ _ h₁ => h₁.stopSession))), .next hs]
theorem StoresInOrder.execSingleHalfActivationReset (hs : StoresInOrder s) : EndsInOrder (execSingleHalfActivationReset s) := by
  unfold Machine.execSingleHalfActivationReset
  split
  exacts [.ite (.next hs) (.next hs.mUpd.resetInto), .next hs]
theorem StoresInOrder.execUpdStatus (hs : StoresInOrder s) : EndsInOrder (execUpdStatus o s) := .next (hs.verb (fun _ _ _ h₁ => h₁.complete))
theorem StoresInOrder.execUpdRecover (hs : StoresInOrder s) : EndsInOrder (execUpdRecover o t s) := by
  unfold Machine.execUpdRecover
  refine .next ?_
  refine hs.verb (fun _ _ _ h₁ => ?_)
  split
  exacts [h₁.complete, h₁.complete.enterRecovery]
theorem StoresInOrder.mRecov (hs : StoresInOrder s) : StoresInOrder (s.mRecov h f) := by
  unfold State.mRecov
  split <;> exact hs.mUpd
theorem StoresInOrder.recovReq (hs : StoresInOrder s) (ha : ∀ s, StoresInOrder s → StoresInOrder (act s).1) : StoresInOrder (s.recovReq h op seq
  act) :=
  .ite hs (ha _ hs).mRecov
theorem StoresInOrder.execRecoveryInfo (hs : StoresInOrder s) : EndsInOrder (execRecoveryInfo h seq s) := .next (hs.recovReq (fun _ h₁ => h₁))
theorem StoresInOrder.execRecoveryHeader (hs : StoresInOrder s) : EndsInOrder (execRecoveryHeader h seq off data ecOk pqOk s) := by
  unfold Machine.execRecoveryHeader
  refine .next ?_
  refine hs.recovReq (fun _ h₁ => ?_)
  extract_lets s₂ _ _ _
  have h₂ : StoresInOrder s₂ := h₁.mRecov
  exact .iteFst h₁ (.iteFst h₂ (.iteFst h₂.mRecov h₂))
theorem StoresInOrder.execRecoveryData (hs : StoresInOrder s) : EndsInOrder (execRecoveryData h seq off data s) := by
  unfold Machine.execRecoveryData
  refine .next ?_
  refine hs.recovReq (fun _ h₁ => ?_)
  extract_lets
  split
  exacts [h₁, .iteFst h₁ h₁.mRecov]
theorem StoresInOrder.execRecoveryFinish (hs : StoresInOrder s) : EndsInOrder (execRecoveryFinish h seq s) := by
  refine .next (hs.recovReq fun _ h₁ => ?_)
  dsimp only
  split
  exacts [h₁, .iteFst h₁.mRecov.mRec.bankEv h₁.mRecov]
theorem StoresInOrder.execRecoveryBoot (hs : StoresInOrder s) : EndsInOrder (execRecoveryBoot h seq s) :=
  .next (hs.recovReq (fun _ h₁ => (h₁.foldl (fun _ _ h₃ => .ite h₃.toTrial h₃)).resetHalf.mTwn))

/-! ### Power -/

theorem StoresInOrder.mPwr (hs : StoresInOrder s) : StoresInOrder (s.mPwr f) := hs.same
theorem StoresInOrder.setVhold (hs : StoresInOrder s) : StoresInOrder (s.setVhold v) := hs.srf
theorem StoresInOrder.execVholdSwitchClose (hs : StoresInOrder s) : EndsInOrder (execVholdSwitchClose s) := .next hs.mPwr
theorem StoresInOrder.execHoldupStart (hs : StoresInOrder s) : EndsInOrder (execHoldupStart s) := .ite (.next hs) (.next hs.srf.mPwr)
theorem StoresInOrder.execHoldupHalvesStop (hs : StoresInOrder s) : EndsInOrder (execHoldupHalvesStop v s) := by
  unfold Machine.execHoldupHalvesStop
  extract_lets s₁
  have h₁ : StoresInOrder s₁ := hs.setVhold
  exact .ite (.next h₁.haltHalf.haltHalf.resetShared.mPwr) (.next h₁)
theorem StoresInOrder.dropRegs (hs : StoresInOrder s) : StoresInOrder (s.dropRegs l) := hs.ofRegs (rising_filter _ _ hs.risingRegs)
theorem StoresInOrder.battLost (hs : StoresInOrder s) : StoresInOrder (s.battLost) := hs.same.drew.mPwr
theorem StoresInOrder.execHoldupIslandsStop (hs : StoresInOrder s) : EndsInOrder (execHoldupIslandsStop v s) := by
  unfold Machine.execHoldupIslandsStop
  extract_lets s₁ s₂ s₃ s₄
  have h₁ : StoresInOrder s₁ := hs.setVhold
  have h₂ : StoresInOrder s₂ := h₁.srf.drew
  have h₃ : StoresInOrder s₃ := h₂.islandStart.dropRegs
  have h₄ : StoresInOrder s₄ := h₃.same.mPwr
  exact .ite (.next (.ite h₄.battLost h₄)) (.next h₁)
theorem StoresInOrder.lktResume (hs : StoresInOrder s) : StoresInOrder (lktResume s c) := by
  unfold Machine.lktResume
  extract_lets r
  have hr : EndsInOrder r := by
    unfold r
    cases c
    exacts [hs.execLktGenerate, hs.execLktImport, hs.execLktDerive, hs.execLktAgree, hs.execLktInvalidate, hs.execLktPair, hs.execLktRoll,
      .next hs.invalidate]
  clear_value r
  split
  · exact hr _ rfl
  · exact hs
theorem StoresInOrder.flashDrain (hs : StoresInOrder s) : StoresInOrder (flashDrain s h) := hs.mh
theorem StoresInOrder.execHoldupEnd (hs : StoresInOrder s) : EndsInOrder (execHoldupEnd s) := by
  unfold Machine.execHoldupEnd
  extract_lets _ _ s₁
  have h₁ : StoresInOrder s₁ := hs.srf.mPwr.mLkt
  exact .ite (.next h₁.resetN) (.ite (.next (h₁.flashDrain.flashDrain.foldl (fun _ _ h₂ => h₂.lktResume))) (.next h₁))
theorem StoresInOrder.execModuleStart (hs : StoresInOrder s) : EndsInOrder (execModuleStart s) := .ite (.next hs) (.next hs.por.same)
theorem StoresInOrder.execVholdCharged (hs : StoresInOrder s) : EndsInOrder (execVholdCharged v s) := by
  unfold Machine.execVholdCharged
  extract_lets s₁
  have h₁ : StoresInOrder s₁ := hs.setVhold
  exact .ite (.next h₁.mPwr) (.next h₁)
theorem StoresInOrder.execResetN (hs : StoresInOrder s) : EndsInOrder (execResetN ns s) :=
  .ite (.next hs) (.ite (.next hs.resetN) (.ite (.next hs.drew.resetN) (.next hs.drew)))
theorem StoresInOrder.sleepHalf (hs : StoresInOrder s) : StoresInOrder (sleepHalf s h) := (StoresInOrder.ite hs.releaseToken hs).mh
theorem StoresInOrder.wakeHalf (hs : StoresInOrder s) : StoresInOrder (wakeHalf s h) := hs.mTwn
theorem StoresInOrder.denyPower (hs : StoresInOrder s) : StoresInOrder (s.denyPower why) := hs.srf.srf
theorem StoresInOrder.showPower (hs : StoresInOrder s) : StoresInOrder (s.showPower n) := hs.srf.srf.mPwr
theorem StoresInOrder.sleepHalves (hs : StoresInOrder s) : StoresInOrder (s.sleepHalves n) := .ite hs.sleepHalf.sleepHalf hs
theorem StoresInOrder.sleepShared (hs : StoresInOrder s) : StoresInOrder (s.sleepShared n) :=
  .ite hs.lswResetN.dropRegs (.ite hs.dropRegs.same.islandStart hs)
theorem StoresInOrder.enterPower (hs : StoresInOrder s) : StoresInOrder (s.enterPower n) := hs.showPower.sleepHalves.sleepShared
theorem StoresInOrder.powerTarget (hs : StoresInOrder s) : StoresInOrder (s.powerTarget target) :=
  .ite hs.srf (.ite hs (.ite hs.denyPower (.ite hs.denyPower (.ite hs.denyPower hs.enterPower))))
theorem StoresInOrder.execPowerStateRequest (hs : StoresInOrder s) : EndsInOrder (execPowerStateRequest h target s) :=
  .next (hs.gated (fun _ h₁ => h₁.powerTarget))
theorem StoresInOrder.wakeUp (hs : StoresInOrder s) : StoresInOrder (s.wakeUp) := by
  unfold State.wakeUp
  extract_lets _ s₁ s₂ s₃ s₄
  have h₁ : StoresInOrder s₁ := hs.showPower
  have h₂ : StoresInOrder s₂ := .ite h₁.wakeHalf.wakeHalf h₁
  have h₃ : StoresInOrder s₃ := .ite h₂.setCause.setCause (.ite h₂.setCause.setCause h₂)
  have h₄ : StoresInOrder s₄ := h₃.mBoth.mMet
  exact .ite h₄.mLkt h₃
theorem StoresInOrder.execWake (hs : StoresInOrder s) : EndsInOrder (execWake src s) := .ite (.next hs.wakeUp) (.next hs)
theorem StoresInOrder.execWakeTimerExpiry (hs : StoresInOrder s) : EndsInOrder (execWakeTimerExpiry s) := .ite (.next hs.wakeUp) (.next hs)
theorem StoresInOrder.execS4BatteryToS5 (hs : StoresInOrder s) : EndsInOrder (execS4BatteryToS5 s) := .ite (.next hs.mPwr.mMet) (.next hs)
theorem StoresInOrder.execSvcBtnRelease (hs : StoresInOrder s) : EndsInOrder (execSvcBtnRelease ms gap s) := by
  unfold Machine.execSvcBtnRelease
  extract_lets s₁ s₂ s₃
  have h₁ : StoresInOrder s₁ := .ite hs.mPwr hs
  have h₂ : StoresInOrder s₂ := h₁.srf.mBil
  have h₃ : StoresInOrder s₃ := h₁.srf.evShared
  refine .ite (.next hs) ?_
  refine .ite (.next h₁) ?_
  refine .ite (.next (.ite h₂.wakeUp h₂)) ?_
  split
  exacts [.next h₃.enterRecovery, .next h₃.enterRecovery.enterRecovery]
theorem StoresInOrder.execSvcBtnStuck (hs : StoresInOrder s) : EndsInOrder (execSvcBtnStuck gap s) := .ite (.next hs) (.next hs.srf.mPwr.evShared)
theorem StoresInOrder.execPtpAnnounceReceived (hs : StoresInOrder s) :
    EndsInOrder (execPtpAnnounceReceived h dom utcOffset valid selected ticks s) := by
  unfold Machine.execPtpAnnounceReceived
  extract_lets s₁ s₂
  have h₁ : StoresInOrder s₁ := hs.mTck
  have h₂ : StoresInOrder s₂ := .ite h₁.setTstate h₁
  exact .ite (.next hs) (.next (.ite h₂.mBil h₂))

/-! ### TickEdge -/

theorem StoresInOrder.portCommit (hs : StoresInOrder s) : StoresInOrder (portCommit h old wr s p) := by
  unfold Machine.portCommit
  extract_lets _ _ _ _ s₁
  have h₁ : StoresInOrder s₁ := hs.mPort
  exact .ite h₁.mPort.setPstate (.ite (.ite h₁.setPstate h₁) (.ite (.ite h₁.setPstate h₁) (.ite (.ite h₁.mPort h₁.mPort.setPstate) h₁)))
theorem StoresInOrder.rejoinPort (hs : StoresInOrder s) : StoresInOrder (rejoinPort h s p) := .ite hs.mPort.setPstate hs
theorem StoresInOrder.laneRenew (hs : StoresInOrder s) : StoresInOrder (laneRenew h old s l) := by
  unfold Machine.laneRenew
  extract_lets _ _ _ s₁ s₂
  have h₁ : StoresInOrder s₁ := hs.mLane
  have h₂ : StoresInOrder s₂ := h₁.foldl (fun _ _ h₃ => h₃.mLoop)
  refine .ite ?_ (.ite hs.mLane hs)
  split
  exacts [h₂.mSeq, h₂]
theorem StoresInOrder.reinitShadow (hs : StoresInOrder s) : StoresInOrder (reinitShadow s h l) :=
  hs.ofShadow (rising_mapSnd _ (fun _ => by split <;> rfl) _ hs.risingShadow)
theorem StoresInOrder.laneCommit (hs : StoresInOrder s) : StoresInOrder (laneCommit h old s l) := by
  unfold Machine.laneCommit
  extract_lets s₁
  have h₁ : StoresInOrder s₁ := hs.laneRenew
  exact .ite h₁.srf.reinitShadow h₁
theorem StoresInOrder.lanesCommit (hs : StoresInOrder s) : StoresInOrder (lanesCommit s h old) := hs.mCln.foldl (fun _ _ h₁ => h₁.laneCommit)
theorem StoresInOrder.endLoopCmd (hs : StoresInOrder s) : StoresInOrder (endLoopCmd s h c status) := hs.mCln.complete
theorem StoresInOrder.loopsCommit (hs : StoresInOrder s) : StoresInOrder (loopsCommit s h) :=
  (hs.foldl (fun _ _ h₂ => h₂.endLoopCmd)).mCln.foldl (fun _ _ h₄ => h₄.endLoopCmd)
theorem StoresInOrder.sealedRecords (hs : StoresInOrder s) : StoresInOrder (sealedRecords s b offs old) :=
  hs.foldl (fun _ _ h₁ => .ite h₁ h₁.sealedLog.drew)
theorem StoresInOrder.safCommit (hs : StoresInOrder s) : StoresInOrder (safCommit s old) := hs.same.safLog
theorem StoresInOrder.setAllFilters (hs : StoresInOrder s) : StoresInOrder (s.setAllFilters) := hs.foldl (fun _ _ h₁ => .ite h₁.setFilters h₁)
theorem StoresInOrder.tckCommit (hs : StoresInOrder s) : StoresInOrder (tckCommit s h) := .ite hs hs.mTck
theorem StoresInOrder.blockEffect (hs : StoresInOrder s) : StoresInOrder (blockEffect s h b old wr) := by
  unfold Machine.blockEffect
  split
  · exact hs.tckCommit
  · exact hs.foldl (fun _ _ h₁ => h₁.portCommit)
  · exact hs.lanesCommit.loopsCommit
  · exact hs.pstClears
  · exact hs.poleClears
  · exact hs.thmCommit
  · exact hs.sealedRecords.metCommit
  · exact hs.sealedRecords
  · exact hs.sealedRecords
  · exact hs.safCommit.setAllFilters
  · exact hs.setAllFilters
  · exact hs
theorem StoresInOrder.forceWords (hs : StoresInOrder s) : StoresInOrder (forceWords s h b snap) := hs.foldl (fun _ _ h₁ => h₁.srg)
theorem StoresInOrder.putWords (hs : StoresInOrder s) : StoresInOrder (putWords s h b snap) :=
  hs.forceWords.ofShadow (rising_filter _ _ hs.forceWords.risingShadow)
theorem StoresInOrder.cfgPoints (hs : StoresInOrder s) : StoresInOrder (cfgPoints s h b snap) :=
  hs.foldl (fun _ _ h₁ => .ite h₁.writePoint h₁.ownerWrite)
theorem StoresInOrder.answerWaiters (hs : StoresInOrder s) : StoresInOrder (answerWaiters s h ws status) := hs.foldl (fun _ _ h₁ => h₁.complete)
theorem StoresInOrder.applyBlk (hs : StoresInOrder s) : StoresInOrder (applyBlk h s b) := hs.putWords.cfgPoints.mBlk.mCln.blockEffect.answerWaiters
theorem StoresInOrder.applyPlanned (hs : StoresInOrder s) : StoresInOrder (applyPlanned h s b) := hs.forceWords.cfgPoints.mBlk
theorem StoresInOrder.refusedEv (hs : StoresInOrder s) : StoresInOrder (refusedEv s h r) := .ite hs.ev hs
theorem StoresInOrder.refuseBlk (hs : StoresInOrder s) : StoresInOrder (refuseBlk h s r) := by
  unfold Machine.refuseBlk
  extract_lets d s₁ s₂
  have h₁ : StoresInOrder s₁ := hs.mBlk
  have h₂ : StoresInOrder s₂ := by
    unfold s₂
    split
    exacts [h₁.foldl (fun _ _ h₃ => h₃.mPort), h₁.pstClears, h₁.poleClears, h₁]
  exact h₂.refusedEv.answerWaiters
theorem StoresInOrder.refusePlanned (hs : StoresInOrder s) : StoresInOrder (refusePlanned h s r) := hs.mBlk.refusedEv
theorem StoresInOrder.genUp (hs : StoresInOrder s) : StoresInOrder (s.genUp h n) := by
  unfold State.genUp
  extract_lets _ s₁ _
  have h₁ : StoresInOrder s₁ := hs.mTwn
  exact .ite hs (.ite h₁.same h₁)
theorem StoresInOrder.relayOut (hs : StoresInOrder s) : StoresInOrder (s.relayOut h snaps) := .ite hs.mTwn hs
theorem StoresInOrder.planSnaps (hs : StoresInOrder s) : StoresInOrder (planSnaps s h ps bs) := hs.foldl (fun _ _ h₁ => h₁.mBlk)
theorem StoresInOrder.runCommits (hs : StoresInOrder s) : StoresInOrder (runCommits s h) := by
  unfold Machine.runCommits
  extract_lets _ _ _ _ s₁ _ _ _ s₂ s₄ s₆
  have h₁ : StoresInOrder s₁ := hs.planSnaps
  have h₂ : StoresInOrder s₂ := h₁.foldl (fun _ _ h₃ => .ite h₃.applyPlanned h₃.applyBlk)
  have h₄ : StoresInOrder s₄ := h₂.foldl (fun _ _ h₅ => .ite h₅.refusePlanned h₅.refuseBlk)
  have h₆ : StoresInOrder s₆ := .ite h₄.genUp h₄
  exact h₆.planEdge.genUp.relayOut
theorem StoresInOrder.relayOne (hs : StoresInOrder s) : StoresInOrder (relayOne h s e) := by
  unfold Machine.relayOne
  split
  exacts [hs, .ite hs.putWords.cfgPoints.blockEffect hs]
theorem StoresInOrder.applyRelay (hs : StoresInOrder s) : StoresInOrder (applyRelay s h) := .ite hs (hs.foldl (fun _ _ h₂ => h₂.relayOne)).mTwn.genUp
theorem StoresInOrder.swapStage (hs : StoresInOrder s) : StoresInOrder (swapStage h s e) := by
  unfold Machine.swapStage
  split
  · exact hs
  · extract_lets s₁
    have h₁ : StoresInOrder s₁ := hs.mh
    exact .ite h₁.stageEv h₁
theorem StoresInOrder.billingTick (hs : StoresInOrder s) : StoresInOrder (billingTick s) := by
  unfold Machine.billingTick
  extract_lets s₁ s₂ s₃
  have h₁ : StoresInOrder s₁ := hs.mCore
  have h₂ : StoresInOrder s₂ := .ite h₁.mCore h₁
  have h₃ : StoresInOrder s₃ := h₂.signHeld
  exact .ite h₃.refreshBilling h₃
theorem StoresInOrder.stepEdge (hs : StoresInOrder s) : StoresInOrder (stepEdge s h before r) := by
  unfold Machine.stepEdge
  extract_lets _ _ _ s₁ s₂ s₃ s₄ s₅ s₆
  have h₁ : StoresInOrder s₁ := hs.mh
  have h₂ : StoresInOrder s₂ := h₁.mh
  have h₃ : StoresInOrder s₃ := h₂.mTck
  have h₄ : StoresInOrder s₄ := h₃.ev
  have h₅ : StoresInOrder s₅ := h₄.billingStep
  have h₆ : StoresInOrder s₆ := hs.mTck
  refine .ite ?_ ?_
  · refine .ite ?_ h₃
    split
    exacts [h₅.complete, h₅]
  · split
    exacts [.ite h₆.complete h₆, h₆]
theorem StoresInOrder.sentNow (hs : StoresInOrder s) : StoresInOrder (s.sentNow h) := hs.same
theorem StoresInOrder.enterService (hs : StoresInOrder s) : StoresInOrder (enterService s h) := by
  unfold Machine.enterService
  extract_lets _ s₁
  have h₁ : StoresInOrder s₁ := hs.mTwn
  exact .ite h₁.sentNow h₁
theorem StoresInOrder.startPert (hs : StoresInOrder s) : StoresInOrder (startPert s h) := .ite hs.mTwn hs
theorem StoresInOrder.echoCounts (hs : StoresInOrder s) : StoresInOrder (echoCounts s h) := hs.srg.mTwn
theorem StoresInOrder.savePoints (hs : StoresInOrder s) : StoresInOrder (savePoints s h) := .ite hs.flashWrite.mh hs
theorem StoresInOrder.measureVolts (hs : StoresInOrder s) : StoresInOrder (measureVolts s) := hs.srf.srf.drew
theorem StoresInOrder.rtcCount (hs : StoresInOrder s) : StoresInOrder (rtcCount s) := hs.same.drew
theorem StoresInOrder.chargeEdge (hs : StoresInOrder s) : StoresInOrder (chargeEdge s h) := by
  unfold Machine.chargeEdge
  extract_lets s₁ s₂
  have h₁ : StoresInOrder s₁ := .ite hs.rtcCount hs
  have h₂ : StoresInOrder s₂ := h₁.srg
  exact .ite h₂.billingTick.actTick.measureVolts h₁
theorem StoresInOrder.execTickEdge (hs : StoresInOrder s) : EndsInOrder (execTickEdge h s) := by
  unfold Machine.execTickEdge
  extract_lets x n s₁ s₂ s₃ s₄ s₆ s₈ s₉ s₁₀
  have h₁ : StoresInOrder s₁ := hs.mTck
  have h₂ : StoresInOrder s₂ := by
    unfold s₂
    split
    exacts [h₁.stepEdge, h₁]
  have h₃ : StoresInOrder s₃ := h₂.enterService
  have h₄ : StoresInOrder s₄ := h₃.foldl (fun _ _ h₅ => h₅.swapStage)
  have h₆ : StoresInOrder s₆ := .runStores (h₄.foldl (fun _ _ h₇ => h₇.rejoinPort))
  have h₈ : StoresInOrder s₈ := h₆.applyRelay.runCommits
  have h₉ : StoresInOrder s₉ := h₈.echoCounts.startPert
  have h₁₀ : StoresInOrder s₁₀ := h₉.opsDone.orphanSessions.savePoints
  exact .ite (.next hs) (.next h₁₀.chargeEdge.renewHealth)

/-! ### Registers -/

theorem StoresInOrder.putBits (hs : StoresInOrder s) : StoresInOrder (s.putBits b h off v) := .ite hs hs.srg
theorem StoresInOrder.mbxPut (hs : StoresInOrder s) : StoresInOrder (s.mbxPut h off v) := by
  unfold State.mbxPut
  extract_lets
  refine .ite ?_ hs.putBits
  split
  · exact hs.writeRcfg
  · exact .ite hs hs.putBits
  · exact .ite hs hs.putBits
  · exact .ite hs hs.putBits
  · exact .ite hs hs.putBits
  · exact hs.writeSqTail
  · exact hs.writeCqHead
  · exact hs.putBits
theorem StoresInOrder.txPut (hs : StoresInOrder s) : StoresInOrder (s.txPut n b v) := by
  unfold State.txPut
  extract_lets s₁ s₂
  have h₁ : StoresInOrder s₁ := .ite hs hs.putBits
  have h₂ : StoresInOrder s₂ := .ite h₁.txRequest h₁
  exact .ite h₂.txAbort h₂
theorem StoresInOrder.canPut (hs : StoresInOrder s) : StoresInOrder (s.canPut n o v) := by
  unfold State.canPut
  extract_lets _ _ _ s₁ s₂ s₃
  have h₁ : StoresInOrder s₁ := hs.setCan
  have h₂ : StoresInOrder s₂ := hs.putBits
  have h₃ : StoresInOrder s₃ := .ite h₂.abrGo h₂
  exact .ite (.canGo (.ite h₁.boffRec h₁)) (.ite (.ite hs.putBits hs) (.ite hs.txPut (.ite (.ite hs hs.putBits) (.ite (.ite hs hs.putBits) (.ite
    (.ite hs.rxRelease hs) (.ite (.ite hs hs.putBits) (.ite (.ite h₃.abrEnd h₃) hs.putBits)))))))
theorem StoresInOrder.gpioPut (hs : StoresInOrder s) : StoresInOrder (s.gpioPut off v) := by
  unfold State.gpioPut
  split
  exacts [hs.srg, hs.srg, hs.putBits]
theorem StoresInOrder.lswPut (hs : StoresInOrder s) : StoresInOrder (s.lswPut off v) := .ite hs.lswCtlWrite hs.putBits
theorem StoresInOrder.rmsPut (hs : StoresInOrder s) : StoresInOrder (s.rmsPut off v) := by
  unfold State.rmsPut
  extract_lets s₁
  have h₁ : StoresInOrder s₁ := hs.putBits
  exact .ite (.ite h₁.meshRequest h₁) (.ite (.ite h₁.meshRelease h₁) h₁)
theorem StoresInOrder.pwrPut (hs : StoresInOrder s) : StoresInOrder (s.pwrPut off v) := .ite hs.putBits.powerTarget hs.putBits
theorem StoresInOrder.locPut (hs : StoresInOrder s) : StoresInOrder (s.locPut h off v) := by
  unfold State.locPut
  extract_lets s₁
  have h₁ : StoresInOrder s₁ := hs.putBits
  exact .ite (.ite h₁.startTimer.drew h₁.mh) (.ite hs.wideLatch.drew (.ite hs.srg hs.putBits))
theorem StoresInOrder.putDirect (hs : StoresInOrder s) : StoresInOrder (s.putDirect b h off v) := by
  unfold State.putDirect
  split
  · exact hs.mbxPut
  · exact .ite hs.canPut hs
  · exact hs.gpioPut
  · exact hs.lswPut
  · exact hs.rmsPut
  · exact hs.pwrPut
  · exact hs.locPut
  · exact hs.putBits
  · exact hs.putBits
  · exact hs.putBits
  · exact hs.putBits
  · exact hs.putBits
  · exact hs.putBits
  · exact hs.putBits
  · exact hs.putBits
  · exact hs.putBits
  · exact hs.putBits
  · exact hs.putBits
  · exact hs.putBits
  · exact hs.putBits
  · exact hs.putBits
theorem StoresInOrder.putLocked (hs : StoresInOrder s) : StoresInOrder (s.putLocked b h off v) := .ite hs (hs.foldl (fun _ _ h₁ => h₁.srg))
theorem StoresInOrder.markPort (hs : StoresInOrder s) : StoresInOrder (s.markPort b off) := .ite (hs.foldl (fun _ _ h₁ => h₁.mPort)) hs
theorem StoresInOrder.putShadow (hs : StoresInOrder s) : StoresInOrder (s.putShadow b h off v) := by
  unfold State.putShadow
  extract_lets _ s₁
  have h₁ : StoresInOrder s₁ := hs.writeShadow.markPort
  exact .ite hs (.ite h₁.mh h₁)
theorem StoresInOrder.putWord (hs : StoresInOrder s) : StoresInOrder (s.putWord b h off v) := hs.putShadow.putLocked.putDirect
theorem StoresInOrder.cfgVerb (hs : StoresInOrder s) (hb : ∀ s x t r, StoresInOrder s → StoresInOrder (body s x t r)) :
    StoresInOrder (s.cfgVerb o b v here roles body) := by
  unfold State.cfgVerb
  refine .ite hs.start.complete (.ite (hs.runAt fun _ _ h₁ => ?_) (hs.verbG fun _ _ _ h₁ => ?_))
  · exact .ite h₁.complete (hb _ _ _ _ h₁)
  · exact .ite h₁.complete (hb _ _ _ _ h₁)
theorem StoresInOrder.execCfgRead (hs : StoresInOrder s) : EndsInOrder (execCfgRead o b off count s) :=
  .next (hs.cfgVerb (fun _ _ _ _ h₁ => .ite h₁.complete h₁.complete))
theorem StoresInOrder.execCfgShadowRead (hs : StoresInOrder s) : EndsInOrder (execCfgShadowRead o b off count s) :=
  .next (hs.cfgVerb (fun _ _ _ _ h₁ => .ite h₁.complete h₁.complete))
theorem StoresInOrder.cfgPut (hs : StoresInOrder s) : StoresInOrder (s.cfgPut t e) := by
  unfold State.cfgPut
  extract_lets s₁
  have h₁ : StoresInOrder s₁ := hs.putWord
  exact .ite h₁.mTwn h₁
theorem StoresInOrder.execCfgWrite (hs : StoresInOrder s) : EndsInOrder (execCfgWrite o b off ws s) := by
  unfold Machine.execCfgWrite
  extract_lets
  refine .next ?_
  refine hs.cfgVerb (fun _ _ _ _ h₁ => ?_)
  extract_lets
  refine .ite h₁.complete ?_
  refine .ite h₁.complete ?_
  split
  exacts [h₁.complete, .complete (h₁.foldl (fun _ _ h₂ => h₂.cfgPut))]
theorem StoresInOrder.execCfgCommit (hs : StoresInOrder s) : EndsInOrder (execCfgCommit o b s) :=
  .next (hs.cfgVerb (fun _ _ _ _ h₁ => .ite h₁.complete (.ite h₁.complete h₁.arm.complete)))
theorem StoresInOrder.discard (hs : StoresInOrder s) : StoresInOrder (s.discard b) := hs.ofShadow (rising_filter _ _ hs.risingShadow)
theorem StoresInOrder.execCfgDiscard (hs : StoresInOrder s) : EndsInOrder (execCfgDiscard o b s) :=
  .next (hs.cfgVerb (fun _ _ _ _ h₁ => .ite h₁.complete (.complete (.ite h₁ h₁.discard))))
theorem StoresInOrder.clearCounters (hs : StoresInOrder s) : StoresInOrder (s.clearCounters t l) := hs.foldl (fun _ _ h₁ => .ite h₁.srg h₁)
theorem StoresInOrder.execCntClear (hs : StoresInOrder s) : EndsInOrder (execCntClear o b off count s) :=
  .next (hs.cfgVerb (fun _ _ _ _ h₁ => .ite h₁.complete (.ite h₁.complete (.ite h₁.complete h₁.clearCounters.complete))))
theorem StoresInOrder.execCfgState (hs : StoresInOrder s) : EndsInOrder (execCfgState o b s) :=
  .next (hs.cfgVerb (fun _ _ _ _ h₁ => .ite h₁.complete h₁.complete))
theorem StoresInOrder.memPut (hs : StoresInOrder s) : StoresInOrder (s.memPut h off v) := .ite hs.putFlash.flashWrite hs.putDram
theorem StoresInOrder.sharedPut (hs : StoresInOrder s) : StoresInOrder (s.sharedPut h b off v) := by
  unfold State.sharedPut
  split
  · exact hs.canWrite (fun _ h₁ => h₁.putDirect)
  · exact hs.gated (fun _ h₂ => h₂.putDirect)
  · exact hs.gated (fun _ h₃ => h₃.putDirect)
  · exact hs.gated (fun _ h₄ => h₄.putDirect)
  · exact hs.gated (fun _ h₅ => h₅)
theorem StoresInOrder.partPut (hs : StoresInOrder s) : StoresInOrder (s.partPut h b off v) := by
  unfold State.partPut
  extract_lets
  refine .ite hs.restartPartition ?_
  split
  exacts [.ite hs.memPut hs.locPut, .ite hs.mbxPut hs, hs.sharedPut]
theorem StoresInOrder.verbPut (hs : StoresInOrder s) : StoresInOrder (s.verbPut h b off v) :=
  .ite hs (.ite (hs.gated (fun _ h₁ => h₁.cfgPut)) hs.cfgPut)
theorem StoresInOrder.execRegisterWrite (hs : StoresInOrder s) : EndsInOrder (execRegisterWrite w b h off v s) := by
  unfold Machine.execRegisterWrite
  split
  exacts [.ite (.next hs.mbxPut) (.next hs), .next hs.partPut, .next hs.verbPut]
theorem StoresInOrder.execAliasWrite (hs : StoresInOrder s) : EndsInOrder (execAliasWrite h b off op s) := by
  unfold Machine.execAliasWrite
  refine .ite (.next hs.restartPartition) ?_
  split
  · exact .next (hs.gated (fun _ h₁ => h₁))
  · split
    exacts [.next hs.sharedPut, .next (hs.gated (fun _ h₂ => h₂))]

/-! ### Tick -/

theorem StoresInOrder.renewRate (hs : StoresInOrder s) : StoresInOrder (s.renewRate h) := hs.mTck
theorem StoresInOrder.servo (hs : StoresInOrder s) : StoresInOrder (servo s h theta conv) := hs.mTck.renewRate.setTstate
theorem StoresInOrder.execPtpSyncReceived (hs : StoresInOrder s) : EndsInOrder (execPtpSyncReceived h dom theta conv s) := by
  unfold Machine.execPtpSyncReceived
  extract_lets s₁
  have h₁ : StoresInOrder s₁ := hs.mTck
  exact .ite (.next hs) (.ite (.next h₁.servo) (.ite (.next h₁.servo) (.next h₁)))
theorem StoresInOrder.execFreqUpdate (hs : StoresInOrder s) : EndsInOrder (execFreqUpdate h f s) := .ite (.next hs) (.next hs.mTck.renewRate)
theorem StoresInOrder.setStep (hs : StoresInOrder s) : StoresInOrder (s.setStep h k o) := hs.mBoth
theorem StoresInOrder.execSysTimeStep (hs : StoresInOrder s) : EndsInOrder (execSysTimeStep o ns s) :=
  .next (hs.verb (fun _ _ _ h₁ => .ite h₁.complete (.ite h₁.complete h₁.setStep.complete)))
theorem StoresInOrder.execAutoTimeStep (hs : StoresInOrder s) : EndsInOrder (execAutoTimeStep h s) := .ite (.next hs.setStep) (.next hs)
theorem StoresInOrder.execHoldoverEntry (hs : StoresInOrder s) : EndsInOrder (execHoldoverEntry h s) := .ite (.next hs.mTck.setTstate) (.next hs)
theorem StoresInOrder.execTimeUncertain (hs : StoresInOrder s) : EndsInOrder (execTimeUncertain h s) := .ite (.next hs.mTck.ev) (.next hs)
theorem StoresInOrder.execRtcRewrite (hs : StoresInOrder s) : EndsInOrder (execRtcRewrite h s) := .ite (.next hs.same) (.next hs)
theorem StoresInOrder.execStartWaitExpiry (hs : StoresInOrder s) : EndsInOrder (execStartWaitExpiry h secs s) := .ite (.next hs.setCounter) (.next hs)
theorem StoresInOrder.execPtpMasterSelectedAtStart (hs : StoresInOrder s) : EndsInOrder (execPtpMasterSelectedAtStart h n s) :=
  .ite (.next hs.mTck.setCounter.setTstate) (.next hs)
theorem StoresInOrder.lossEvent (hs : StoresInOrder s) : StoresInOrder (lossEvent s h bits) := by
  unfold Machine.lossEvent
  extract_lets _ _ _ _ _ s₁ _
  have h₁ : StoresInOrder s₁ := hs.mTck
  exact .ite h₁.mBoth h₁.ev
theorem StoresInOrder.clockLost (hs : StoresInOrder s) : StoresInOrder (clockLost s h k eid) := by
  unfold Machine.clockLost
  extract_lets s₁ sel s₂ s₃
  have h₁ : StoresInOrder s₁ := hs.srg
  have h₂ : StoresInOrder s₂ := h₁.mTck
  have h₃ : StoresInOrder s₃ := h₂.lossEvent
  exact .ite h₃.goUnhealthy.mTwn h₃
theorem StoresInOrder.execLossOfReference (hs : StoresInOrder s) : EndsInOrder (execLossOfReference h s) := .next hs.mTck.clockLost
theorem StoresInOrder.execLossOfLock (hs : StoresInOrder s) : EndsInOrder (execLossOfLock h s) := .next hs.clockLost
theorem StoresInOrder.execPllLockRetry (hs : StoresInOrder s) : EndsInOrder (execPllLockRetry h s) := .ite (.next hs) (.next hs.mTck)
theorem StoresInOrder.execPllLockComplete (hs : StoresInOrder s) : EndsInOrder (execPllLockComplete h pll s) :=
  .ite (.next (hs.same.foldl (fun _ _ h₁ => h₁.canGo))) (.ite (.next hs.mTck) (.next hs))
theorem StoresInOrder.execBypassExit (hs : StoresInOrder s) : EndsInOrder (execBypassExit h s) := .ite (.next hs.mTck) (.next hs)
theorem StoresInOrder.execSharedPllReferenceChange (hs : StoresInOrder s) : EndsInOrder (execSharedPllReferenceChange s) :=
  .ite (.next hs) (.ite (.next hs.same.evShared) (.next hs.same))
theorem StoresInOrder.execSkewMeasure (hs : StoresInOrder s) : EndsInOrder (execSkewMeasure h ns trim s) := by
  unfold Machine.execSkewMeasure
  extract_lets _ _ s₁ s₂ _ s₃
  have h₁ : StoresInOrder s₁ := hs.mTck
  have h₂ : StoresInOrder s₂ := .ite h₁.srg.ev h₁
  have h₃ : StoresInOrder s₃ := .ite h₂.mTwn.penalty h₂
  exact .ite (.next hs) (.ite (.next (.ite hs hs.mTck)) (.ite (.next h₃.goUnhealthy) (.next h₃)))
/-! ### Every command, and the step -/

/-- Whatever the command, the stores stay in order: one lemma for each arm of the dispatch, in its order. -/
theorem StoresInOrder.exec (hs : StoresInOrder s) : EndsInOrder (exec c s) := by
  cases c
  exacts [
    hs.execUndefinedOpcode, hs.execRegisterWrite, hs.execTickEdge, hs.execStagingWrite, hs.execStagingEntryStale, hs.execCommitSnapshot,
    hs.execSnapshotPublish, hs.execPointOwnerWrite, hs.execMirrorCopyReceived, hs.execMirrorAck, hs.execPointRestoreComplete,
    hs.execPartitionFault, hs.execPartitionWatchdogExpiry, hs.execPtpSyncReceived, hs.execFreqUpdate, hs.execSysTimeStep, hs.execAutoTimeStep,
    hs.execHoldoverEntry, hs.execTimeUncertain, hs.execRtcRewrite, hs.execStartWaitExpiry, hs.execPtpMasterSelectedAtStart,
    hs.execLossOfReference, hs.execLossOfLock, hs.execPllLockRetry, hs.execPllLockComplete, hs.execBypassExit, hs.execRestartWithoutService,
    hs.execSharedPllReferenceChange, hs.execSkewMeasure, hs.execIngestDeadline, hs.execIngestMapExchange, hs.execUplinkAcceptanceLoss,
    hs.execAllocationLatch, hs.execDownlinkDispatch, hs.execLineSyncGained, hs.execLineSyncLost, hs.execMeasureEntry, hs.execTickMarkerSend,
    hs.execDprSend, hs.execDecReceived, hs.execDelaySlew, hs.execHelloReceived, hs.execJoinAcknowledged, hs.execUplinkTickFrame,
    hs.execAsyncSegmentReceived, hs.execAsyncAckSend, hs.execAsyncAckReceived, hs.execSegmentResendTimeout, hs.execAsyncFrameSend,
    hs.execTunnelMessageReceived, hs.execBulkLogReceived, hs.execTimeMessageSend, hs.execRemoteDownlinkTickFrame, hs.execRemoteSelection49us,
    hs.execRemoteTickEdge, hs.execRemoteTickMarker, hs.execLinkLostForceOpen, hs.execRemoteHelloSend, hs.execRefereeRequest, hs.execRefereeGrant,
    hs.execTokenRelease, hs.execAliveSignalMissing, hs.execHandoverEdge, hs.execTwinHeartbeatSend, hs.execTwinHeartbeatReceived,
    hs.execTwinLinkDead, hs.execRelayedSnapshotReceived, hs.execPortCountTakeover, hs.execCleanHealthReturn, hs.execTwnHandover,
    hs.execHandoverReq, hs.execHandoverStateSend, hs.execHandoverStateAck, hs.execHandoverTimeout, hs.execRejoinStart, hs.execStartPath,
    hs.execShadowCompare, hs.execDigestCompare, hs.execScrubBlock, hs.execPenaltyDecay, hs.execHealthWindowEnd, hs.execUnhealthyResetTimeout,
    hs.execTwnRelease, hs.execFeedLost, hs.execFeedOk, hs.execFeedReverseCurrent, hs.execOringTest, hs.execPertArm, hs.execPertEnd,
    hs.execClaimLossRelinquish, hs.execHalfReset, hs.execLaneRunStart, hs.execLaneOverrun, hs.execNop, hs.execHalt, hs.execRpt, hs.execRptv,
    hs.execMovi, hs.execMov, hs.execAdd, hs.execSub, hs.execNeg, hs.execAbs, hs.execMin, hs.execMax, hs.execClmp, hs.execShl, hs.execShr,
    hs.execAnd, hs.execOr, hs.execXor, hs.execSel, hs.execCmp, hs.execPlog, hs.execMul, hs.execMac, hs.execMsu, hs.execLda, hs.execAdda,
    hs.execSuba, hs.execMova, hs.execSha, hs.execAmulv, hs.execStr, hs.execAclmp, hs.execLd, hs.execSt, hs.execLdw, hs.execStw, hs.execLdx,
    hs.execMovx, hs.execAddx, hs.execOut, hs.execClaspDrain, hs.execClnStore, hs.execClnFree, hs.execClnList, hs.execClnSetpoint, hs.execClnMode,
    hs.execClnManual, hs.execClnInject, hs.execInjectionEnd, hs.execClnCapArm, hs.execCaptureTrigger, hs.execClnCapRead, hs.execProbeComplete,
    hs.execHiccupTrip, hs.execHiccupWindowEnd, hs.execHiccupWaitEnd, hs.execStartComplete, hs.execRetriesReset, hs.execLoadStepDetected,
    hs.execHoldOffEnd, hs.execPhaseAddStart, hs.execPhaseShedStart, hs.execBurstEntry, hs.execBurstExit, hs.execPstClear,
    hs.execCabinetCommandApply, hs.execDitherStep, hs.execPlannerRun, hs.execDrainComplete, hs.execDrainTimeout, hs.execPolesOpened,
    hs.execPoleOpenTimeout, hs.execPolesClosed, hs.execPoleCloseTimeout, hs.execMatchPass, hs.execMatchTimeout, hs.execChangeCabinetLost,
    hs.execUncommandedPoleOpen, hs.execCnpAssign, hs.execCnpUnpin, hs.execCnpPoleClear, hs.execThermalUpdate, hs.execCeilingSend,
    hs.execCeilingStage, hs.execPredictionDataComplete, hs.execModelInit, hs.execSensorRecovered, hs.execSensorSuspect,
    hs.execSensorSuspectCleared, hs.execCoolantRangeCleared, hs.execTjEstimate, hs.execTjDiodeReset, hs.execThrottleExit, hs.execDerateUpdate,
    hs.execThermalPowerDown, hs.execThermalEmergencyPowerDown, hs.execThermalRestart, hs.execThmRelease, hs.execThmShutdownRead,
    hs.execFlashWriteResume, hs.execBntcSample, hs.execPilotStateChange, hs.execSlacMessage, hs.execSlacMatch, hs.execVehicleMessage,
    hs.execSessionStateTimeout, hs.execSessionStop, hs.execStoppingComplete, hs.execWeldCheckComplete, hs.execVehicleStopGraceExpiry,
    hs.execCoolantSessionTimeout, hs.execVehicleLimitsStage, hs.execDcmdSend, hs.execDcmdApply, hs.execSessionKeyOrphaned,
    hs.execSessionFailoverResume, hs.execSessionMirrorAck, hs.execVehAuth, hs.execVehStop, hs.execVehList, hs.execVehStatus,
    hs.execMeteringSampleClose, hs.execAcBlock, hs.execDualIntegrationCompare, hs.execPulseEmit, hs.execTestPulseOutput, hs.execAdcReferenceCheck,
    hs.execSealedParameterCheck, hs.execIslandFirmwareCheck, hs.execIslandWatchdogExpiry, hs.execIntakeSupervision, hs.execBatteryOperationEntry,
    hs.execBatteryOperationEnd, hs.execTamperSample, hs.execMetInst, hs.execMetLogRead, hs.execMetBattRead, hs.execDemandIntervalClose,
    hs.execBillingPeriodClose, hs.execBilClose, hs.execTariffActivation, hs.execRateSwitch, hs.execBillingSave, hs.execPowerFailSave,
    hs.execBillingRestore, hs.execBillingGapCatchup, hs.execTimeValidRestored, hs.execLomvorRecord, hs.execDisplayDwell, hs.execKeyA, hs.execKeyB,
    hs.execKeyC, hs.execKeyD, hs.execTokenEntry, hs.execKeypad, hs.execTokenEntryTimeout, hs.execKeypadLockoutEnd, hs.execCreditReport,
    hs.execBilRead, hs.execBilTariffLoad, hs.execBilTariffRead, hs.execBilPeriodRead, hs.execBilIntervalRead, hs.execBilRecordRead,
    hs.execBilLedgerRead, hs.execDemandCapStage, hs.execLktGenerate, hs.execLktImport, hs.execLktDerive, hs.execLktAgree, hs.execLktInvalidate,
    hs.execLktInfo, hs.execLktPublic, hs.execLktPair, hs.execLktRoll, hs.execKeyrollAckDeadline, hs.execKeyrollSwitch, hs.execKeyrollRetire,
    hs.execLktAttest, hs.execLktOp, hs.execLktTxquery, hs.execInvalidationCutoff, hs.execOrphanedOperationAbort, hs.execLocketSweep,
    hs.execJournalRecovery, hs.execMaterialTagFault, hs.execSafetyInputSample, hs.execSafetyDiscrepancy, hs.execChannelCompare,
    hs.execSafetyConfigCrcCheck, hs.execIslandInternalReset, hs.execSafetyTestPulse, hs.execContactorFeedbackChange, hs.execFeedbackTimeout,
    hs.execZoneDemand, hs.execEnvelopeViolation, hs.execEnergyRemoval, hs.execSafeStopTimeout, hs.execStoTimeout, hs.execResetPulse,
    hs.execResetJammed, hs.execZoneReset, hs.execSafetyStateDelivery, hs.execHarvitorPduReceived, hs.execHarvitorTimeout,
    hs.execHarvitorDownlinkBuild, hs.execHarvitorCycleSend, hs.execSafStop, hs.execSafFaultClear, hs.execSafLogRead, hs.execSqTailDoorbell,
    hs.execCommandFetch, hs.execForwardWaitTimeout, hs.execCompletionWrite, hs.execCqHeadWrite, hs.execMsixCoalesceTimeout, hs.execRingDmaFault,
    hs.execRingEnableWrite, hs.execMailboxDatagram, hs.execDatagramResendTimeout, hs.execBindingIdleExpiry, hs.execSysInfo, hs.execSysSessionOpen,
    hs.execSysSessionProve, hs.execSysSessionClose, hs.execSessionOpenLapse, hs.execSessionIdleExpiry, hs.execRoleLockoutEnd, hs.execCfgRead,
    hs.execCfgShadowRead, hs.execCfgWrite, hs.execCfgCommit, hs.execCfgDiscard, hs.execCntClear, hs.execCfgState, hs.execPntRead,
    hs.execPntReadMulti, hs.execPntWrite, hs.execPntSubscribe, hs.execPntUnsubscribe, hs.execSubscriptionDelivery, hs.execEventDelivery,
    hs.execGpioEdge, hs.execGpioSet, hs.execGpioClr, hs.execTimerEnable, hs.execTimerExpiry, hs.execWideValueLatch, hs.execAliasWrite,
    hs.execClaimGatedWrite, hs.execBusError, hs.execGateCntClear, hs.execCanTxRequest, hs.execCanTxAbort, hs.execCanTxAttemptEnd,
    hs.execCanFrameReceived, hs.execCanRxRelease, hs.execCanBusOff, hs.execCanBoffRecovery, hs.execCanErrorStateChange, hs.execAbrStart,
    hs.execAbrStop, hs.execAbrWindowExpiry, hs.execAbrFound, hs.execExchangeLimitsFrame, hs.execExchangeSetpointPeriod, hs.execExchangeTxb1Next,
    hs.execLswEnable, hs.execLswDisable, hs.execLswClr, hs.execLswInrushEnd, hs.execLswRetryWaitEnd, hs.execLswLimitTimeout, hs.execLswThermal,
    hs.execLswGroupUndervoltage, hs.execLswGroupUvRecovery, hs.execLswTotalOverload, hs.execLswOpenLoad, hs.execLswSenseStep,
    hs.execLswSlotDutyWrite, hs.execLswPwmPeriod, hs.execLswVfSample, hs.execZeroCrossing, hs.execZcLost, hs.execZcRecovered,
    hs.execMeshCellResponse, hs.execMeshFrameAbandon, hs.execMeshFrameReceived, hs.execMeshRelayForward, hs.execBeacon, hs.execPoll,
    hs.execLinkrep, hs.execMapset, hs.execMapsetAckDeadline, hs.execAssign, hs.execRouteCompute, hs.execMeshExchangeTimeout,
    hs.execMeshHarvitorExchange, hs.execRmsTxRequest, hs.execRmsRxRelease, hs.execBootStage, hs.execBootBankSelect, hs.execUpdBegin,
    hs.execUpdData, hs.execUpdEnd, hs.execUpdActivate, hs.execUpdStatus, hs.execUpdRemote, hs.execUpdRecover, hs.execUpdstat,
    hs.execUpdactPreloss, hs.execUpdact, hs.execTrialCommit, hs.execActivationRejoinTimeout, hs.execSingleHalfActivationDrain,
    hs.execSingleHalfActivationReset, hs.execRecoveryInfo, hs.execRecoveryHeader, hs.execRecoveryData, hs.execRecoveryFinish, hs.execRecoveryBoot,
    hs.execVholdSwitchClose, hs.execHoldupStart, hs.execHoldupHalvesStop, hs.execHoldupIslandsStop, hs.execHoldupEnd, hs.execModuleStart,
    hs.execVholdCharged, hs.execResetN, hs.execSvcBtnRelease, hs.execSvcBtnStuck, hs.execPowerStateRequest, hs.execWake, hs.execWakeTimerExpiry,
    hs.execS4BatteryToS5, hs.execPtpAnnounceReceived, hs.execRemotePowerUpOrReset, hs.execRefereeDailyExercise]

theorem StoresInOrder.step (hs : StoresInOrder s) : EndsInOrder (step s) := by
  unfold Machine.step
  split
  · exact .next hs
  · exact hs.same.exec

/-- Settles O55: each meaning is built of the state's named updates, and each of these keeps the stores in order. -/
theorem storesStayInOrder : Obligations.StoresStayInOrder := fun _ t hs e => hs.step t e

end

end Sys2Proof.Machine

/-!
O3, the rings of the mailboxes and what a fetch does. Each clause is one command on one ring: an equation says what the command makes of the state, and the
clause is read off by the laws of registers, rings and completions.
-/

namespace Sys2Proof.Machine

section

theorem Ends.of_next {c : Instr} {s u : State} {P : State → Prop} (e : exec c s = .next u) (hu : P u) : Ends c s P := ⟨u, e, hu⟩

/-! ### One bit of a register -/

theorem bitAt_setFld_bit {i : Nat} (hi : i < 32) (w : Word) (b : Bool) : bitAt (setFld w i i (b2n b)) i = b := by
  have hb : b2n b % 2 = b2n b := by cases b <;> rfl
  have hdiv : (w.toNat - w.toNat / 2 ^ i % 2 * 2 ^ i + b2n b * 2 ^ i) / 2 ^ i = w.toNat / 2 ^ i - w.toNat / 2 ^ i % 2 + b2n b := by
    rw [Nat.add_mul_div_right _ _ (Nat.two_pow_pos i), mul_comm (_ % 2), Nat.sub_mul_div]
  have hv : bitAt (setFld w i i (b2n b)) i = (w.toNat - w.toNat / 2 ^ i % 2 * 2 ^ i + b2n b * 2 ^ i).testBit i := by
    simp only [bitAt, setFld, fld, fldN, hb, BitVec.toNat_ofNat, Nat.testBit_mod_two_pow, hi, decide_true, Bool.true_and, Nat.add_sub_cancel_left, pow_one]
  rw [hv, Nat.testBit_eq_decide_div_mod_eq, hdiv]
  cases b <;> simp [b2n] <;> omega

theorem rb_srf_bit {i : Nat} (hi : i < 32) (s : State) (b : Blk) (h : Half) (off : Nat) (v : Bool) : (s.srf b h off i i (b2n v)).rb b h off i = v := by
  simp only [State.rb, State.srf, rg_srg_same, bitAt_setFld_bit hi]

/-! ### Rings -/

theorem ringEn_eq (s : State) (h : Half) (n : Nat) : s.ringEn h n = s.rb .mbx h (ringOff n) 31 := rfl

theorem rg_setRingReg_other (s : State) (h : Half) {n o off : Nat} (v : Nat) (ne : ringOff n + o ≠ off) :
    (s.setRingReg h n o v).rg .mbx h off = s.rg .mbx h off := rg_srg_other _ _ _ _ ne

theorem rg_srf_other (s : State) (b : Blk) (h : Half) {o p : Nat} (i j v : Nat) (ne : o ≠ p) : (s.srf b h o i j v).rg b h p = s.rg b h p :=
  rg_srg_other _ _ _ _ ne

theorem ringReg_setRingReg_zero (s : State) (h : Half) (n o : Nat) : (s.setRingReg h n o 0).ringReg h n o = 0 := by
  simp [State.ringReg, State.setRingReg]

/-- Below ring 32 there is no event ring, so no loss to report. -/
theorem reportLost_command {s : State} {h : Half} {n : Nat} (hn : n < 32) : s.reportLost h n = s := by
  unfold State.reportLost
  exact if_pos (Or.inr (Or.inr hn))

theorem rg_restall (s : State) (h : Half) (n : Nat) (b : Blk) (k : Half) (off : Nat) : (s.restall h n).rg b k off = s.rg b k off := by
  unfold State.restall; split <;> simp

theorem frame_restall_half (s : State) (h : Half) (n : Nat) : Frame [.mbx h] s (s.restall h n) :=
  Frame.ite (fun _ => Frame.refl _ _) fun _ => frame_mRing _ _ _ _

theorem started_of_mRing (s : State) (h : Half) (n : Nat) (f : RingS → RingS) :
    ((s.mRing h n f).hf h).mbx.started = (s.hf h).mbx.started := by
  simp [State.mRing, State.mMbx]

theorem sqTailDoorbell_ends {s : State} {h : Half} {n : Nat} (v : Nat) (hn : n < 32) (he : s.ringEth h n = false) :
    Ends (.sqTailDoorbell h n v) s fun t => t.rg .mbx h (ringOff n + 0x18) = BitVec.ofNat 32 (v % 2 ^ 16) ∧
      (∀ k off, off ≠ ringOff n + 0x18 ∨ k ≠ h → t.rg .mbx k off = s.rg .mbx k off) ∧ Frame [.regs .mbx] s t := by
  have hw : s.writeSqTail h n v = s.setRingReg h n 0x18 (v % 2 ^ 16) := by simp [State.writeSqTail, hn, he]
  refine ⟨_, rfl, ?_⟩
  rw [hw]
  refine ⟨rg_srg_same _ _ _ _ _, fun k off hne => ?_, frame_setRingReg _ _ _ _ _⟩
  by_cases hk : k = h
  · subst hk
    exact rg_srg_other _ _ _ _ (hne.resolve_right (by simp)).symm
  · exact rg_srg_half _ rfl _ _ _ hk

theorem sqTailDoorbell_idle {s : State} {h : Half} {n : Nat} (v : Nat) (hn : 32 ≤ n ∨ s.ringEth h n = true) : exec (.sqTailDoorbell h n v) s = .next s := by
  have hw : s.writeSqTail h n v = s := by
    unfold State.writeSqTail
    refine if_neg fun hc => ?_
    obtain ⟨hlt, he⟩ := hc
    rcases hn with hn | hn
    · omega
    · simp [hn] at he
  exact congrArg _ hw

theorem cqHeadWrite_ends {s : State} {h : Half} {n : Nat} (v : Nat) (hn : n < 32) (he : s.ringEth h n = false) :
    Ends (.cqHeadWrite h n v) s fun t => t.rg .mbx h (ringOff n + 0x20) = BitVec.ofNat 32 (v % 2 ^ 16) ∧ Frame [.regs .mbx, .mbx h] s t := by
  have hw : s.writeCqHead h n v = (s.setRingReg h n 0x20 (v % 2 ^ 16)).restall h n := by
    simp only [State.writeCqHead, he, reportLost_command hn]; rfl
  refine .of_next (congrArg Host.Outcome.next (if_pos (by omega))) ?_
  rw [hw]
  refine ⟨by rw [rg_restall]; exact rg_srg_same _ _ _ _ _, ?_⟩
  exact Frame.via (frame_restall_half _ _ _) (by simp) ((frame_setRingReg _ _ _ _ _).mono (by simp))

/-! ### Ring enable (R503, R513, R525) -/

theorem rg_foldl_setRingReg_other (h : Half) (n : Nat) {off : Nat} : (offs : List Nat) → (∀ o ∈ offs, ringOff n + o ≠ off) → (s : State) →
    (offs.foldl (fun s o => s.setRingReg h n o 0) s).rg .mbx h off = s.rg .mbx h off
  | [], _, _ => rfl
  | o :: offs, ne, s => by
    rw [List.foldl_cons, rg_foldl_setRingReg_other h n offs (fun p hp => ne p (by simp [hp])), rg_setRingReg_other _ _ _ (ne o (by simp))]

/-- Each of the words set to 0 reads 0 after all of them. -/
theorem ringReg_foldl_zero (h : Half) (n : Nat) {off : Nat} (offs : List Nat) (s : State) (m : off ∈ offs) :
    (offs.foldl (fun s o => s.setRingReg h n o 0) s).ringReg h n off = 0 := by
  induction offs generalizing s with
  | nil => simp at m
  | cons o offs ih =>
    rw [List.foldl_cons]
    by_cases hm : off ∈ offs
    · exact ih _ hm
    · have ho : o = off := by simpa [hm, eq_comm] using m
      subst ho
      rw [State.ringReg, rg_foldl_setRingReg_other h n offs fun p hp e => hm (by rwa [← Nat.add_left_cancel e])]
      exact ringReg_setRingReg_zero s h n o

theorem frame_foldl_setRingReg (h : Half) (n : Nat) (offs : List Nat) (s : State) :
    Frame [.regs .mbx] s (offs.foldl (fun s o => s.setRingReg h n o 0) s) := by
  induction offs generalizing s with
  | nil => exact Frame.refl _ _
  | cons o offs ih => exact (frame_setRingReg s h n o 0).trans (ih _)

theorem ring_mMbx_same (s : State) (h : Half) (f : MbxS → MbxS) (hf : (f (s.hf h).mbx).rings = (s.hf h).mbx.rings) (n : Nat) :
    (s.mMbx h f).ring h n = s.ring h n := ring_of_mbx (by simpa [State.mMbx] using hf) n

/-- A ring whose session has ended has none. -/
theorem session_endSession (s : State) (h : Half) (n : Nat) : ((s.endSession h n).ring h n).session = none := by
  unfold State.endSession
  split
  · assumption
  · simp only [State.sessEv, ring_ev]
    rw [ring_mMbx_same _ _ _ rfl, ring_mRing_same]

theorem ringEn_endSession (s : State) (h : Half) (n : Nat) : (s.endSession h n).ringEn h n = s.ringEn h n := by
  simp only [ringEn_eq, State.rb, frame_endSession s h n (.regs .mbx) (by simp) h (ringOff n)]

/-- A ring switched off: its session ends, and then what it still holds is dropped. -/
theorem writeRingEn_off {s : State} {h : Half} {n : Nat} (he : s.ringEn h n = true) :
    s.writeRingEn h n false =
      (((s.srf .mbx h (ringOff n) 31 31 (b2n false)).endSession h n).mMbx h fun m =>
        { m with subs := m.subs.filter fun b => b.ring != n && b.cmdRing != n }).mRing h n fun r =>
        { r with opening := none, bind := none, held := [], stalled := false } := by
  simp [State.writeRingEn, he]

/-- A ring switched on: its four indices become 0, and FAULT falls. -/
theorem writeRingEn_on {s : State} {h : Half} {n : Nat} (he : s.ringEn h n = false) :
    s.writeRingEn h n true =
      ([0x18, 0x1C, 0x20, 0x24].foldl (fun s off => s.setRingReg h n off 0) (s.srf .mbx h (ringOff n) 31 31 (b2n true))).srf .mbx h (ringOff n + 0x28) 26 26
        (b2n false) := by
  simp [State.writeRingEn, he, b2n]

theorem ringEnableWrite_off {s : State} {h : Half} {n : Nat} (hn : n < 64) (he : s.ringEn h n = true) :
    Ends (.ringEnableWrite h n false) s fun t => t.ringEn h n = false ∧ (t.ring h n).session = none ∧ (t.ring h n).bind = none ∧
      (t.ring h n).stalled = false ∧ (∀ b ∈ (t.hf h).mbx.subs, b.ring ≠ n ∧ b.cmdRing ≠ n) ∧ Frame (.free :: .lkt :: .regs .mbx :: bothMbx) s t := by
  refine .of_next (congrArg Host.Outcome.next (if_pos hn)) ?_
  have hfr := frame_writeRingEn s h n false
  rw [writeRingEn_off he] at hfr ⊢
  refine ⟨?_, ?_, ?_, ?_, ?_, hfr.mono (by simp [bothMbx])⟩
  · simp only [ringEn_eq, State.rb, rg_mRing, rg_mMbx]
    exact (ringEn_endSession _ h n).trans (rb_srf_bit (by omega) s .mbx h (ringOff n) false)
  · rw [ring_mRing_same, ring_mMbx_same _ _ _ rfl]
    exact session_endSession _ _ _
  · rw [ring_mRing_same]
  · rw [ring_mRing_same]
  · simp [State.mRing, State.mMbx]

theorem ringEnableWrite_on {s : State} {h : Half} {n : Nat} (hn : n < 64) (he : s.ringEn h n = false) :
    Ends (.ringEnableWrite h n true) s fun t => t.ringEn h n = true ∧ t.ringFault h n = false ∧
      (∀ off ∈ [0x18, 0x1C, 0x20, 0x24], t.ringReg h n off = 0) ∧ Frame [.regs .mbx] s t := by
  refine .of_next (congrArg Host.Outcome.next (if_pos hn)) ?_
  rw [writeRingEn_on he]
  refine ⟨?_, rb_srf_bit (by omega) _ .mbx h (ringOff n + 0x28) false, fun off hoff => ?_, ?_⟩
  · rw [ringEn_eq, State.rb, rg_srf_other _ _ _ _ _ _ (by omega), rg_foldl_setRingReg_other h n _ (by simp)]
    exact rb_srf_bit (by omega) s .mbx h (ringOff n) true
  · have hne : ringOff n + 0x28 ≠ ringOff n + off := fun e => by
      rw [← Nat.add_left_cancel e] at hoff
      simp at hoff
    rw [State.ringReg, rg_srf_other _ _ _ _ _ _ hne]
    exact ringReg_foldl_zero h n _ _ hoff
  · exact ((frame_srf _ _ _ _ _ _ _).trans (frame_foldl_setRingReg _ _ _ _)).trans (frame_srf _ _ _ _ _ _ _)

/-! ### A failed ring (R503) -/

theorem ringDmaFault_ends {s : State} {h : Half} {n : Nat} (hn : n < 64) (ht : s.ringEth h n = false) (he : s.ringEn h n = true) :
    Ends (.ringDmaFault h n) s fun t => t.ringFault h n = true ∧ t.ringStarted h n = [] ∧ (∀ c ∈ (t.hf h).mbx.compl, c.ring ≠ n) ∧
      Raised t h 2 0x0006 [n] ∧ Frame (.regs .mbx :: bothMbx) s t := by
  have hno : ¬(64 ≤ n ∨ s.ringEth h n = true ∨ (!s.ringEn h n) = true) := by simp [ht, he, hn]
  refine .of_next (if_neg hno) ?_
  refine ⟨?_, ?_, ?_, raised_ev _ _ _ _ _, ?_⟩
  · simp only [State.ringFault, State.rb, rg_ev, rg_mMbx]
    exact rb_srf_bit (by omega) s .mbx h (ringOff n + 0x28) true
  · simp [State.ringStarted, State.mMbx]
  · simp [State.mMbx]
  · cases h <;> simp (maxDischargeDepth := 80) (contextual := true) [Frame.refl, bothMbx]

/-! ### Fetching (R501, R504, R505, R512, R517) -/

/-- The ring may fetch: it is on and well, an entry waits, and each command before it has its first completion. -/
def MayFetch (s : State) (h : Half) (n : Nat) : Prop :=
  n < 32 ∧ s.ringEn h n = true ∧ s.ringFault h n = false ∧ s.waiting h n = true ∧ (s.ringStarted h n).all (·.first) = true

/-- The command of a fetched entry. -/
def fetchOrg (h : Half) (n : Nat) (e : Desc) : Org := ⟨h, n, e.ctag, numAt e.bytes 3 1⟩

/-- The state with the entry taken off and its command started. -/
def State.tookEntry (s : State) (h : Half) (n : Nat) (e : Desc) : State :=
  (s.takeEntry h n).mMbx h fun m =>
    { m with started := m.started ++ [{ org := fetchOrg h n e, opc := e.opc, role := 0, cseq := e.cseq, exec := none, since := s.tick h,
                                        cap := numAt e.bytes 16 4 }] }

/-- A good command counts the session's sequence number up. -/
def State.fetchedOk (s : State) (h : Half) (n : Nat) (e : Desc) : State :=
  (s.tookEntry h n e).mRing h n fun r => { r with session := r.session.map fun x => { x with cseq := x.cseq + 1, last := (s.tookEntry h n e).tick h } }

theorem commandFetch_eq {s : State} {h : Half} {n : Nat} (m : MayFetch s h n) (hf : s.ringFull h n = false) (d : Desc) :
    exec (.commandFetch h n d) s = (let e := s.fetched h n d
      let u := if s.cmdTagGood h n e then s.fetchedOk h n e else s.tookEntry h n e
      if opDefined e.opc && !lenOk e.opc e.req then .next (u.complete (fetchOrg h n e) h e.opc stBadLength true [])
      else if !s.cmdTagGood h n e then .next (u.complete (fetchOrg h n e) h e.opc 0x0104 true []) else .next u) := by
  obtain ⟨hn, hen, hok, hw, hfirst⟩ := m
  show execCommandFetch h n d s = _
  unfold execCommandFetch
  rw [if_neg (by simp only [hen, hok, hw, hfirst]; simp [hn]), if_neg (by simp [hf])]
  rfl

theorem running_tookEntry (s : State) (h : Half) (n : Nat) (e : Desc) : Running (s.tookEntry h n e) (fetchOrg h n e) := by
  simp [Running, State.tookEntry, State.mMbx, fetchOrg, sameCmd_self]

theorem running_fetchedOk (s : State) (h : Half) (n : Nat) (e : Desc) : Running (s.fetchedOk h n e) (fetchOrg h n e) :=
  running_congr (started_of_mRing ..) (running_tookEntry s h n e)

theorem frame_takeEntry_half (s : State) (h : Half) (n : Nat) : Frame [.regs .mbx, .mbx h] s (s.takeEntry h n) :=
  Frame.ite (fun _ => (frame_mRing _ _ _ _).mono (by simp)) fun _ => (frame_setRingReg _ _ _ _ _).mono (by simp)

theorem frame_tookEntry (s : State) (h : Half) (n : Nat) (e : Desc) : Frame [.regs .mbx, .mbx h] s (s.tookEntry h n e) :=
  Frame.via (frame_mMbx _ _ _) (by simp) (frame_takeEntry_half s h n)

theorem frame_fetchedOk (s : State) (h : Half) (n : Nat) (e : Desc) : Frame [.regs .mbx, .mbx h] s (s.fetchedOk h n e) :=
  Frame.via (frame_mRing _ _ _ _) (by simp) (frame_tookEntry s h n e)

theorem compl_mRing (s : State) (h : Half) (n : Nat) (f : RingS → RingS) : ((s.mRing h n f).hf h).mbx.compl = (s.hf h).mbx.compl := by
  simp [State.mRing, State.mMbx]

theorem compl_takeEntry (s : State) (h : Half) (n : Nat) : ((s.takeEntry h n).hf h).mbx.compl = (s.hf h).mbx.compl := by
  unfold State.takeEntry
  split
  · exact compl_mRing ..
  · rfl

theorem compl_fetchedOk (s : State) (h : Half) (n : Nat) (e : Desc) : ((s.fetchedOk h n e).hf h).mbx.compl = (s.hf h).mbx.compl := by
  rw [State.fetchedOk, compl_mRing, ← compl_takeEntry s h n]
  simp [State.tookEntry, State.mMbx]

/-- A full ring is only marked. -/
theorem commandFetch_full {s : State} {h : Half} {n : Nat} (m : MayFetch s h n) (hf : s.ringFull h n = true) (d : Desc) :
    Ends (.commandFetch h n d) s fun t => (t.ring h n).stalled = true ∧ t.ringStarted h n = s.ringStarted h n ∧ Frame [.mbx h] s t := by
  obtain ⟨hn, hen, hok, hw, hfirst⟩ := m
  have e : exec (.commandFetch h n d) s = .next (s.mRing h n fun r => { r with stalled := true }) := by
    show execCommandFetch h n d s = _
    unfold execCommandFetch
    rw [if_neg (by simp only [hen, hok, hw, hfirst]; simp [hn]), if_pos hf]
  refine .of_next e ⟨by rw [ring_mRing_same], ?_, frame_mRing _ _ _ _⟩
  simp only [State.ringStarted, started_of_mRing]

/-- Whichever status a fetched command is refused with, it has its completion. -/
theorem refused_fetch {s u : State} {h : Half} {n : Nat} {e : Desc} (r : Running u (fetchOrg h n e)) (f : Frame [.regs .mbx, .mbx h] s u) (st : Nat) :
    Answered (u.complete (fetchOrg h n e) h e.opc st true []) (fetchOrg h n e) e.opc st true ∧
      Frame [.regs .mbx, .mbx h] s (u.complete (fetchOrg h n e) h e.opc st true []) :=
  ⟨answered_of_running r _ _ _ _ _ (by simp), Frame.via (frame_complete _ _ _ _ _ _ _) (by simp [fetchOrg]) f⟩

theorem commandFetch_badLength {s : State} {h : Half} {n : Nat} (m : MayFetch s h n) (hf : s.ringFull h n = false) {d e : Desc} (he : s.fetched h n d = e)
    (hd : opDefined e.opc = true) (hl : lenOk e.opc e.req = false) :
    Ends (.commandFetch h n d) s fun t => Answered t (fetchOrg h n e) e.opc stBadLength true ∧ Frame [.regs .mbx, .mbx h] s t := by
  subst he
  have hx := commandFetch_eq m hf d
  simp only [hd, hl, Bool.not_false, Bool.and_self, if_true] at hx
  refine .of_next hx ?_
  split
  · exact refused_fetch (running_fetchedOk ..) (frame_fetchedOk _ _ _ _) _
  · exact refused_fetch (running_tookEntry ..) (frame_tookEntry _ _ _ _) _

theorem lengthRule_met {opc : Nat} {req : List Nat} (h : opDefined opc = false ∨ lenOk opc req = true) : (opDefined opc && !lenOk opc req) = false := by
  rcases h with h | h <;> simp [h]

theorem commandFetch_badTag {s : State} {h : Half} {n : Nat} (m : MayFetch s h n) (hf : s.ringFull h n = false) {d e : Desc} (he : s.fetched h n d = e)
    (hl : opDefined e.opc = false ∨ lenOk e.opc e.req = true) (hg : s.cmdTagGood h n e = false) :
    Ends (.commandFetch h n d) s fun t => Answered t (fetchOrg h n e) e.opc 0x0104 true ∧ Frame [.regs .mbx, .mbx h] s t := by
  subst he
  have hx := commandFetch_eq m hf d
  simp only [lengthRule_met hl, hg, Bool.not_false, if_true, if_false, Bool.false_eq_true] at hx
  exact .of_next hx (refused_fetch (running_tookEntry ..) (frame_tookEntry _ _ _ _) _)

theorem commandFetch_good {s : State} {h : Half} {n : Nat} (m : MayFetch s h n) (hf : s.ringFull h n = false) {d e : Desc} (he : s.fetched h n d = e)
    (hl : opDefined e.opc = false ∨ lenOk e.opc e.req = true) (hg : s.cmdTagGood h n e = true) :
    Ends (.commandFetch h n d) s fun t => Running t (fetchOrg h n e) ∧ (t.hf h).mbx.compl = (s.hf h).mbx.compl ∧ Frame [.regs .mbx, .mbx h] s t := by
  subst he
  have hx := commandFetch_eq m hf d
  simp only [lengthRule_met hl, hg, Bool.not_true, if_true, if_false, Bool.false_eq_true] at hx
  exact .of_next hx ⟨running_fetchedOk .., compl_fetchedOk .., frame_fetchedOk _ _ _ _⟩

/-! ### A command that no verb takes (R3, R515) -/

theorem undefinedOpcode_ends {s : State} {o : Org} {opc : Nat} (hd : opDefined opc = false) :
    Ends (.undefinedOpcode o opc) s fun t => AnsweredWith t o opc stBadOpcode true [] ∧ Frame [.mbx o.half] s t :=
  .of_next (if_neg (by simp [hd])) ⟨answered_complete (running_start ..) _ _ _ _ _ (by simp), (frame_start _ _ _ _ _).trans (frame_complete _ _ _ _ _ _ _)⟩

theorem forwardWaitTimeout_ends {s : State} {o : Org} {c : Started} (hc : (s.hf o.half).mbx.started.find? (fun c => sameCmd c.org o) = some c)
    (hx : c.exec = none) (hs : s.charge = none) (hw : c.since + 2000 ≤ s.tick o.half) :
    Ends (.forwardWaitTimeout o) s fun t => Answered t c.org c.opc stNotInCharge true ∧ Frame [.mbx c.org.half] s t := by
  have hh : c.org.half = o.half := by
    have := List.find?_some hc
    simp only [sameCmd, Bool.and_eq_true, beq_iff_eq] at this
    exact this.1.1
  have hr : Running s c.org := by
    simp only [Running, hh, List.any_eq_true]
    exact ⟨c, List.mem_of_find?_eq_some hc, sameCmd_self _⟩
  have he : exec (.forwardWaitTimeout o) s = .next (s.complete c.org o.half c.opc stNotInCharge true []) := by
    show execForwardWaitTimeout o s = _
    simp only [execForwardWaitTimeout, hc]
    exact if_pos (by simp [hx, hs, hw])
  exact .of_next he ⟨answered_of_running hr _ _ _ _ _ (by simp), frame_complete _ _ _ _ _ _ _⟩

/-- Settles O3: a clause is the end of one command; a fetch is first brought to the state with its entry taken off and its command started. -/
theorem ringsAndFetch : Obligations.RingsAndFetch :=
  ⟨fun _ _ _ v hn he => sqTailDoorbell_ends v hn he,
    fun _ _ _ v hn => sqTailDoorbell_idle v hn,
    fun _ _ _ v hn he => cqHeadWrite_ends v hn he,
    fun _ _ _ hn he => ringEnableWrite_off hn he,
    fun _ _ _ hn he => ringEnableWrite_on hn he,
    fun _ _ _ hn ht he => ringDmaFault_ends hn ht he,
    fun _ _ _ d hn he hk hw h1 hf => commandFetch_full ⟨hn, he, hk, hw, h1⟩ hf d,
    fun _ _ _ _ _ hn he hk hw h1 hf hd ho hl => commandFetch_badLength ⟨hn, he, hk, hw, h1⟩ hf hd ho hl,
    fun _ _ _ _ _ hn he hk hw h1 hf hd hl hg => commandFetch_badTag ⟨hn, he, hk, hw, h1⟩ hf hd hl hg,
    fun _ _ _ _ _ hn he hk hw h1 hf hd hl hg => commandFetch_good ⟨hn, he, hk, hw, h1⟩ hf hd hl hg,
    fun _ _ _ hd => undefinedOpcode_ends hd,
    fun _ _ _ hc hx hs hw => forwardWaitTimeout_ends hc hx hs hw⟩

end

end Sys2Proof.Machine

/-!
O6, the generic verbs. Under the hypotheses of each clause the verb is its body at the half in charge (`cfgVerb_runs`); an equation says which branch of the
body that is, and the clause is read off.
-/

namespace Sys2Proof.Machine

section

/-! ### What the generic verbs are built of -/

theorem length_le (n v : Nat) : (le n v).length = n := by
  induction n generalizing v with
  | zero => rfl
  | succ n ih => simp [le, ih]

theorem length_words (l : List Nat) (f : Nat → Nat) : (l.flatMap fun a => le 4 (f a)).length = 4 * l.length := by
  simp [List.length_flatMap, length_le, mul_comm]

theorem length_wordOffs (off n : Nat) : (wordOffs off n).length = n := by simp [wordOffs]

/-- A verb that does nothing but answer. -/
theorem answers_only {s : State} {o : Org} {opc r st : Nat} {x : Half} {fin : Bool} {p : List Nat} (hp : p.length ≤ 24) :
    AnsweredWith ((s.start o opc r (some x)).complete o x opc st fin p) o opc st fin p ∧
      Frame [.mbx o.half] s ((s.start o opc r (some x)).complete o x opc st fin p) :=
  ⟨answered_complete (running_start ..) _ _ _ _ _ hp, (frame_start _ _ _ _ _).trans (frame_complete _ _ _ _ _ _ _)⟩

section
variable {s : State} {o : Org} {b : Blk} {x : Half} {r : Nat}

theorem cfgRead_eq (hr : RunsAt s o (cfgOpc b 0xF0) x r) (hl : b ≠ .loc) (hm : b ≠ .mbx) (m : r ∈ rNotPublic) (off n : Nat) :
    exec (.cfgRead o b off n) s = .next (let u := s.start o (cfgOpc b 0xF0) r (some x)
      if !inMap b off n then u.complete o x (cfgOpc b 0xF0) stRange true []
      else u.complete o x (cfgOpc b 0xF0) stOk true ((wordOffs off n).flatMap fun a => le 4 (u.readWord (subBlk b a).1 x (subBlk b a).2).toNat)) :=
  congrArg Host.Outcome.next (cfgVerb_runs hr hl hm true m _)

theorem cfgRead_ok (hr : RunsAt s o (cfgOpc b 0xF0) x r) (hl : b ≠ .loc) (hm : b ≠ .mbx) (m : r ∈ rNotPublic) {off n : Nat} (hi : inMap b off n = true)
    (hn : n ≤ 6) :
    Ends (.cfgRead o b off n) s fun t => AnsweredWith t o (cfgOpc b 0xF0) stOk true ((wordOffs off n).flatMap fun a =>
      le 4 ((s.start o (cfgOpc b 0xF0) r (some x)).readWord (subBlk b a).1 x (subBlk b a).2).toNat) ∧ Frame [.mbx o.half] s t := by
  refine .of_next (cfgRead_eq hr hl hm m off n) ?_
  simp only [hi, Bool.not_true, if_false, Bool.false_eq_true]
  exact answers_only (by rw [length_words, length_wordOffs]; omega)

theorem cfgRead_range (hr : RunsAt s o (cfgOpc b 0xF0) x r) (hl : b ≠ .loc) (hm : b ≠ .mbx) (m : r ∈ rNotPublic) {off n : Nat} (hi : inMap b off n = false) :
    Ends (.cfgRead o b off n) s fun t => AnsweredWith t o (cfgOpc b 0xF0) stRange true [] ∧ Frame [.mbx o.half] s t := by
  refine .of_next (cfgRead_eq hr hl hm m off n) ?_
  simp only [hi, Bool.not_false, if_true]
  exact answers_only (by simp)

theorem cfgShadowRead_ok (hr : RunsAt s o (cfgOpc b 0xF1) x r) (hl : b ≠ .loc) (hm : b ≠ .mbx) (m : r ∈ rNotPublic) {off : Nat} (hi : inMap b off 1 = true) :
    Ends (.cfgShadowRead o b off 1) s fun t => AnsweredWith t o (cfgOpc b 0xF1) stOk true
      (le 4 ((s.start o (cfgOpc b 0xF1) r (some x)).readShadow (subBlk b off).1 x (subBlk b off).2).toNat) ∧ Frame [.mbx o.half] s t := by
  refine .of_next (congrArg Host.Outcome.next (cfgVerb_runs hr hl hm true m _)) ?_
  simp only [hi, Bool.not_true, if_false, Bool.false_eq_true]
  have hw : wordOffs off 1 = [off] := by simp [wordOffs]
  rw [hw, List.flatMap_singleton]
  exact answers_only (by rw [length_le]; omega)

/-! ### Writing (R518, R522) -/

theorem cfgWrite_eq (hr : RunsAt s o (cfgOpc b 0xF2) x r) (hl : b ≠ .loc) (hm : b ≠ .mbx) (m : r ∈ rNotPublic) (off : Nat) (ws : List Word)
    (hroles : ((cfgWords b off ws).all fun e => decide (r ∈ (s.start o (cfgOpc b 0xF2) r (some x)).wordRoles e.1 x e.2.1)) = true) :
    exec (.cfgWrite o b off ws) s = .next (let u := s.start o (cfgOpc b 0xF2) r (some x)
      if !inMap b off ws.length then u.complete o x (cfgOpc b 0xF2) stRange true []
      else match (cfgWords b off ws).findSome? fun e => u.wordRefusal o e.1 x e.2.1 e.2.2 with
        | some st => u.complete o x (cfgOpc b 0xF2) st true []
        | none => ((cfgWords b off ws).foldl (fun s e => s.cfgPut x e) u).complete o x (cfgOpc b 0xF2) stOk true (le 8 (u.tick x))) := by
  refine congrArg Host.Outcome.next ((cfgVerb_runs hr hl hm false m _).trans ?_)
  exact if_neg (by simp only [hroles, Bool.not_true]; exact Bool.false_ne_true)

theorem cfgWrite_ok (hr : RunsAt s o (cfgOpc b 0xF2) x r) (hl : b ≠ .loc) (hm : b ≠ .mbx) (m : r ∈ rNotPublic) {off : Nat} {ws : List Word}
    (hroles : ((cfgWords b off ws).all fun e => decide (r ∈ (s.start o (cfgOpc b 0xF2) r (some x)).wordRoles e.1 x e.2.1)) = true)
    (hi : inMap b off ws.length = true)
    (hw : ((cfgWords b off ws).findSome? fun e => (s.start o (cfgOpc b 0xF2) r (some x)).wordRefusal o e.1 x e.2.1 e.2.2) = none) :
    exec (.cfgWrite o b off ws) s = .next (let u := s.start o (cfgOpc b 0xF2) r (some x)
      ((cfgWords b off ws).foldl (fun s e => s.cfgPut x e) u).complete o x (cfgOpc b 0xF2) stOk true (le 8 (u.tick x))) := by
  rw [cfgWrite_eq hr hl hm m off ws hroles]
  simp only [hi, hw, Bool.not_true, if_false, Bool.false_eq_true]

theorem cfgWrite_range (hr : RunsAt s o (cfgOpc b 0xF2) x r) (hl : b ≠ .loc) (hm : b ≠ .mbx) (m : r ∈ rNotPublic) {off : Nat} {ws : List Word}
    (hroles : ((cfgWords b off ws).all fun e => decide (r ∈ (s.start o (cfgOpc b 0xF2) r (some x)).wordRoles e.1 x e.2.1)) = true)
    (hi : inMap b off ws.length = false) :
    Ends (.cfgWrite o b off ws) s fun t => AnsweredWith t o (cfgOpc b 0xF2) stRange true [] ∧ Frame [.mbx o.half] s t := by
  refine .of_next (cfgWrite_eq hr hl hm m off ws hroles) ?_
  simp only [hi, Bool.not_false, if_true]
  exact answers_only (by simp)

/-! ### Committing and discarding (R21, R22, R26) -/

theorem mem_reach_of_charge (h : s.charge = some x) : x ∈ s.reach := by
  simp only [State.reach, h]
  split <;> simp

/-- A commit armed: the block waits for its evaluation, in each half it is kept in. -/
theorem st_foldl_armed (role : Nat) (w : State → Half → Option Waiter) (b : Blk) (x : Half) (l : List Half) (s : State)
    (h : (s.blk b x).st = 1 ∨ ∃ k ∈ l, blkKey b k = blkKey b x) :
    ((l.foldl (fun s k => s.mBlk b k fun d => d.armed role (w s k)) s).blk b x).st = 1 := by
  induction l generalizing s with
  | nil => simpa using h
  | cons k l ih =>
    refine ih _ ?_
    by_cases hk : blkKey b k = blkKey b x
    · left; simp [State.blk, State.mBlk, hk, BlockDyn.armed]
    · rcases h with h | ⟨q, hq, e⟩
      · left; simpa [State.blk, State.mBlk, look_upd_other _ _ _ hk] using h
      · right
        refine ⟨q, ?_, e⟩
        rcases List.mem_cons.mp hq with rfl | hq
        · exact absurd e hk
        · exact hq

theorem reached_key (b : Blk) (h : s.charge = some x) : ∃ k ∈ (if perHalf b then s.reach else [.A]), blkKey b k = blkKey b x := by
  cases hb : perHalf b
  · exact ⟨.A, by simp, by simp [blkKey, hb]⟩
  · exact ⟨x, by simpa using mem_reach_of_charge h, rfl⟩

theorem st_arm (h : s.charge = some x) (b : Blk) (role : Nat) (w : Option Waiter) : ((s.arm b role w).blk b x).st = 1 :=
  st_foldl_armed role (fun s k => if !perHalf b || s.charge == some k then w else none) b x _ s (.inr (reached_key b h))

theorem blk_complete (s : State) (o : Org) (y : Half) (a st : Nat) (f : Bool) (p : List Nat) (b : Blk) (h : Half) :
    (s.complete o y a st f p).blk b h = s.blk b h := by
  rw [State.blk, frame_complete s o y a st f p .blocks (by simp)]
  rfl

theorem cfgCommit_ok (hr : RunsAt s o (cfgOpc b 0xF3) x r) (hl : b ≠ .loc) (hm : b ≠ .mbx) (m : r ∈ commitRoles b) (hc : (commitOff b).isSome = true)
    (hf : s.flashFull x (128 * (s.shadow.filter fun e => keyBlk e.1 == blkKey b x).length) = false) :
    Ends (.cfgCommit o b) s fun t => AnsweredWith t o (cfgOpc b 0xF3) stPending false [] ∧ (t.blk b x).st = 1 ∧ Frame [.blocks, .mbx o.half] s t := by
  refine .of_next (u := (((s.start o (cfgOpc b 0xF3) r (some x)).arm b r (some { org := o, opc := cfgOpc b 0xF3 })).complete o x (cfgOpc b 0xF3) stPending false []))
    (congrArg Host.Outcome.next ((cfgVerb_runs hr hl hm false m _).trans ?_)) ⟨?_, ?_, ?_⟩
  · obtain ⟨-, -, -, -, -, -, hhb⟩ := hr
    rw [if_neg (by simp [Option.isSome_iff_ne_none.mp hc, hhb]), if_neg (by simp [hf])]
  · exact answered_complete (running_arm_keep _ _ _ (running_start ..)) _ _ _ _ _ (by simp)
  · have hx := hr.2.2.1
    rw [blk_complete]
    exact st_arm (by simpa using hx) b r _
  · exact Frame.via (frame_complete _ _ _ _ _ _ _) (by simp) (Frame.via (frame_arm _ _ _ _) (by simp) ((frame_start _ _ _ _ _).mono (by simp)))

theorem cfgDiscard_eq (hr : RunsAt s o (cfgOpc b 0xF4) x r) (hl : b ≠ .loc) (hm : b ≠ .mbx) (m : r ∈ commitRoles b) (hc : (commitOff b).isSome = true) :
    exec (.cfgDiscard o b) s = .next (let u := s.start o (cfgOpc b 0xF4) r (some x)
      (if (u.blk b x).st = 1 then u else u.discard b).complete o x (cfgOpc b 0xF4) stOk true []) := by
  obtain ⟨-, -, -, -, -, -, hhb⟩ := id hr
  refine congrArg Host.Outcome.next ((cfgVerb_runs hr hl hm false m _).trans ?_)
  rw [if_neg (by simp [Option.isSome_iff_ne_none.mp hc, hhb])]

/-- A key that a filter drops is absent. -/
theorem look_filter_dropped {α : Type} {d : α} {t : Tab α} {k : Nat} {keep : Nat × α → Bool} (h : ∀ e ∈ t, e.1 = k → keep e = false) :
    look d (t.filter keep) k = d :=
  look_absent fun e he ek => by
    obtain ⟨hm, hk⟩ := List.mem_filter.mp he
    simp [h e hm ek] at hk

theorem shadowOf_discard (h : s.charge = some x) (b : Blk) (off : Nat) : (s.discard b).shadowOf b x off = s.rg b x off := by
  obtain ⟨k, hk, e⟩ := reached_key b h
  have hd : look none (s.discard b).shadow (regKey b x off) = none :=
    look_filter_dropped fun q _ hq => by
      simp only [hq, keyBlk_regKey, Bool.not_eq_false', decide_eq_true_eq]
      exact List.mem_map.mpr ⟨k, hk, e⟩
  simp only [State.shadowOf, hd]
  rfl

theorem shadowOf_complete (s : State) (o : Org) (y : Half) (a st : Nat) (f : Bool) (p : List Nat) (b : Blk) (h : Half) (off : Nat) :
    (s.complete o y a st f p).shadowOf b h off = s.shadowOf b h off := by
  have hsh : (s.complete o y a st f p).shadow = s.shadow := frame_complete s o y a st f p .shadow (by simp)
  simp only [State.shadowOf, hsh, rg_complete]

theorem running_discard (b : Blk) (h : Running s o) : Running (s.discard b) o := running_congr rfl h

theorem cfgDiscard_ok (hr : RunsAt s o (cfgOpc b 0xF4) x r) (hl : b ≠ .loc) (hm : b ≠ .mbx) (m : r ∈ commitRoles b) (hc : (commitOff b).isSome = true)
    (hs : (s.blk b x).st ≠ 1) :
    Ends (.cfgDiscard o b) s fun t => AnsweredWith t o (cfgOpc b 0xF4) stOk true [] ∧ (∀ off, t.shadowOf b x off = t.rg b x off) ∧
      Frame [.shadow, .mbx o.half] s t := by
  refine .of_next (cfgDiscard_eq hr hl hm m hc) ?_
  simp only [blk_start, hs, if_false]
  refine ⟨answered_complete (running_discard _ (running_start ..)) _ _ _ _ _ (by simp), fun off => ?_, ?_⟩
  · have hx := hr.2.2.1
    rw [rg_complete, shadowOf_complete]
    exact shadowOf_discard (by simpa using hx) b off
  · exact Frame.via (frame_complete _ _ _ _ _ _ _) (by simp) (Frame.via (frame_discard _ _) (by simp) ((frame_start _ _ _ _ _).mono (by simp)))

theorem cfgDiscard_armed (hr : RunsAt s o (cfgOpc b 0xF4) x r) (hl : b ≠ .loc) (hm : b ≠ .mbx) (m : r ∈ commitRoles b) (hc : (commitOff b).isSome = true)
    (hs : (s.blk b x).st = 1) : Ends (.cfgDiscard o b) s fun t => AnsweredWith t o (cfgOpc b 0xF4) stOk true [] ∧ Frame [.mbx o.half] s t := by
  refine .of_next (cfgDiscard_eq hr hl hm m hc) ?_
  simp only [blk_start, hs, if_true]
  exact answers_only (by simp)

/-! ### Counters (R522, R523) -/

theorem cntClear_eq (hr : RunsAt s o (cfgOpc b 0xF5) x r) (hl : b ≠ .loc) (hm : b ≠ .mbx) (hcan : b ≠ .can) (m : r ∈ rNotPublic)
    {off : Nat} (mc : r ∈ cntRoles b off) (hi : inMap b off 1 = true) :
    exec (.cntClear o b off 1) s = .next (let u := s.start o (cfgOpc b 0xF5) r (some x)
      if b = .nlk ∧ off < 0x1400 ∧ (s.port x (off / 0x40)).pstate = 5 then u.complete o x (cfgOpc b 0xF5) 0x0402 true []
      else (u.clearCounters x [(b, off)]).complete o x (cfgOpc b 0xF5) stOk true (le 8 (s.tick x))) := by
  refine congrArg Host.Outcome.next ((cfgVerb_runs hr hl hm true m _).trans ?_)
  have hw : wordOffs off 1 = [off] := by simp [wordOffs]
  have hsub : subBlk b off = (b, off) := by simp [subBlk, hcan]
  simp [hw, hsub, mc, hi]

theorem clearCounters_one {u : State} {off : Nat} (hc : (regInfo b x off).cnt = true) : u.clearCounters x [(b, off)] = u.srg b x off 0 := by
  simp [State.clearCounters, hc]

theorem cntClear_ok (hr : RunsAt s o (cfgOpc b 0xF5) x r) (hl : b ≠ .loc) (hm : b ≠ .mbx) (hcan : b ≠ .can) (m : r ∈ rNotPublic)
    {off : Nat} (mc : r ∈ cntRoles b off) (hi : inMap b off 1 = true) (hc : (regInfo b x off).cnt = true) (hp : b = .nlk → off < 0x1400 → (s.port x (off / 0x40)).pstate ≠ 5) :
    Ends (.cntClear o b off 1) s fun t => AnsweredWith t o (cfgOpc b 0xF5) stOk true (le 8 (s.tick x)) ∧ t.rg b x off = 0 ∧
      Frame [.regs b, .mbx o.half] s t := by
  refine .of_next (cntClear_eq hr hl hm hcan m mc hi) ?_
  have hno : ¬(b = .nlk ∧ off < 0x1400 ∧ (s.port x (off / 0x40)).pstate = 5) := fun ⟨hb, hlt, h5⟩ => hp hb hlt h5
  simp only [hno, if_false, clearCounters_one hc]
  refine ⟨answered_complete (running_srg_keep _ _ _ _ (running_start ..)) _ _ _ _ _ (by rw [length_le]; omega), ?_, ?_⟩
  · rw [rg_complete, rg_srg_same]
  · exact Frame.via (frame_complete _ _ _ _ _ _ _) (by simp) (Frame.via (frame_srg _ _ _ _ _) (by simp) ((frame_start _ _ _ _ _).mono (by simp)))

/-- The counters of a port in HELD stay (R522). -/
theorem cntClear_held {off : Nat} (hr : RunsAt s o (cfgOpc .nlk 0xF5) x r) (m : r ∈ rNotPublic) (mc : r ∈ cntRoles .nlk off) (hi : inMap .nlk off 1 = true)
    (hlt : off < 0x1400) (hp : (s.port x (off / 0x40)).pstate = 5) :
    Ends (.cntClear o .nlk off 1) s fun t => AnsweredWith t o (cfgOpc .nlk 0xF5) 0x0402 true [] ∧ Frame [.mbx o.half] s t := by
  refine .of_next (cntClear_eq hr (by decide) (by decide) (by decide) m mc hi) ?_
  simp only [hlt, hp, if_true, and_self]
  exact answers_only (by simp)

/-! ### The state of a block (R522) -/

theorem cfgState_ok (hr : RunsAt s o (cfgOpc b 0xF6) x r) (hl : b ≠ .loc) (hm : b ≠ .mbx) (m : r ∈ rNotPublic) (hc : (commitOff b).isSome = true) :
    Ends (.cfgState o b) s fun t => AnsweredWith t o (cfgOpc b 0xF6) stOk true
      (le 4 ((s.start o (cfgOpc b 0xF6) r (some x)).commitWord b x).toNat ++ le 4 ((s.start o (cfgOpc b 0xF6) r (some x)).commitTick b x).toNat ++
        le 4 (s.hf x).twn.gen) ∧ Frame [.mbx o.half] s t := by
  refine .of_next (congrArg Host.Outcome.next (cfgVerb_runs hr hl hm true m _)) ?_
  simp only [Option.isNone_eq_false_iff.mpr hc, if_false, Bool.false_eq_true, start_hf_twn]
  exact answers_only (by simp [length_le])

end

/-- Settles O6: each verb is its body at the half in charge (`cfgVerb_runs`), and the laws of completions, commits and registers say what the body does. -/
theorem configurationVerbs : Obligations.ConfigurationVerbs :=
  ⟨fun _ _ _ _ _ _ _ hr hl hm m hi hn => cfgRead_ok hr hl hm m hi hn,
    fun _ _ _ _ _ _ _ hr hl hm m hi => cfgRead_range hr hl hm m hi,
    fun _ _ _ _ _ _ hr hl hm m hi => cfgShadowRead_ok hr hl hm m hi,
    fun _ _ _ _ _ _ _ hr hl hm m hroles hi hw => cfgWrite_ok hr hl hm m hroles hi hw,
    fun _ _ _ _ _ _ _ hr hl hm m hroles hi => cfgWrite_range hr hl hm m hroles hi,
    fun _ _ _ _ _ hr hl hm m hc hf => cfgCommit_ok hr hl hm m hc hf,
    fun _ _ _ _ _ hr hl hm m hc hs => cfgDiscard_ok hr hl hm m hc hs,
    fun _ _ _ _ _ hr hl hm m hc hs => cfgDiscard_armed hr hl hm m hc hs,
    fun _ _ _ _ _ _ hr hl hm hcan m mc hi hc hp => cntClear_ok hr hl hm hcan m mc hi hc hp,
    fun _ _ _ _ _ hr m mc hi hlt hp => cntClear_held hr m mc hi hlt hp,
    fun _ _ _ _ _ hr hl hm m hc => cfgState_ok hr hl hm m hc⟩

end

end Sys2Proof.Machine

/-!
O53, the frame of every command. Each meaning is built of the state's operations, and for each of these the laws say which parts it may change (`frame_…`, and
`Frame.after_…` in the form simp uses). One lemma follows for each command, in the order of the dispatch: it takes the meaning apart at its branches, and simp
adds up the laws of the operations on each of them. An intermediate state that several branches share is shown within the frame once (`EndsFramed.cut`).
-/

namespace Sys2Proof.Machine

section
set_option autoImplicit true
-- One lemma after the other: so many at a time start more threads than the check's memory limit carries.
set_option Elab.async false

/-- Whatever state a meaning ends in, only the parts listed differ from `s` there. -/
def EndsFramed (ps : List Part) (s : State) (o : Out) : Prop := ∀ t, o = .next t → Frame ps s t

theorem EndsFramed.next (h : Frame ps s t) : EndsFramed ps s (.next t) := fun _ e => by cases e; exact h
theorem EndsFramed.ite {c : Prop} [Decidable c] (ha : EndsFramed ps s a) (hb : EndsFramed ps s b) : EndsFramed ps s (if c then a else b) := by
  split <;> assumption

theorem EndsFramed.mono (h : EndsFramed ps s o) (m : ∀ p ∈ ps, p ∈ qs) : EndsFramed qs s o := fun t e => (h t e).mono m

/-- A state the meaning passes through is within the frame, and the rest may use that. -/
theorem EndsFramed.cut (u : State) (hu : Frame ps s u) (h : Frame ps s u → EndsFramed ps s o) : EndsFramed ps s o := h hu

theorem Frame.cut (u : State) (hu : Frame ps z u) (h : Frame ps z u → Frame ps z t) : Frame ps z t := h hu

theorem EndsFramed.verb {body : State → Half → Nat → State} (m : ∀ k, .mbx k ∈ ps) (hb : ∀ u x r, Frame ps s u → Frame ps s (body u x r)) :
    EndsFramed ps s (.next (s.verb o opc roles body)) := .next (.after_verb _ _ _ _ (Frame.refl ps s) (m _) (m _) hb)
theorem EndsFramed.verbHere {body : State → Nat → State} (m : ∀ k, .mbx k ∈ ps) (hb : ∀ u r, Frame ps s u → Frame ps s (body u r)) :
    EndsFramed ps s (.next (s.verbHere o opc roles body)) := .next (.after_verbHere _ _ _ _ (Frame.refl ps s) (m _) (m _) hb)
theorem EndsFramed.cfgVerb {body : State → Half → Half → Nat → State} (m : ∀ k, .mbx k ∈ ps)
    (hb : ∀ u x t r, Frame ps s u → Frame ps s (body u x t r)) : EndsFramed ps s (.next (s.cfgVerb o b v here roles body)) :=
  .next (.after_cfgVerb _ _ _ _ _ _ (Frame.refl ps s) (m _) (m _) hb)

/-- A verb on keys waits while the halves are held up, and runs otherwise (R629). -/
theorem EndsFramed.keyVerb {body : State → Half → Nat → State} (m : ∀ k, .mbx k ∈ ps) (hl : .lkt ∈ ps)
    (hb : ∀ u x r, Frame ps s u → Frame ps s (body u x r)) : EndsFramed ps s (.next (s.afterHoldup c fun s => s.verb o opc roles body)) :=
  .next (.after_afterHoldup _ _ (Frame.refl ps s) hl (.after_verb _ _ _ _ (Frame.refl ps s) (m _) (m _) hb))

/-- A write that needs the token changes what it writes, or counts itself out in the half's own registers (R535). -/
theorem Frame.gated {f : State → State} (fr : Frame ps z s) (m : .regs .loc ∈ ps) (hf : Frame ps z (f s)) : Frame ps z (s.gated h f) :=
  .after_ite hf (fr.after_gateOut _ m)
theorem Frame.canWrite {f : State → State} (fr : Frame ps z s) (m : .regs .loc ∈ ps) (hf : Frame ps z (f s)) : Frame ps z (s.canWrite h n free f) :=
  fr.gated m (.after_ite (fr.after_srf _ _ _ _ _ _ m) hf)

/-- What a taken message leaves is the state with one port changed. -/
theorem Frame.of_takeMsg (fr : Frame ps z s) (m : .ports h ∈ ps) (e : s.takeMsg h p ty sel = some (msg, t)) : Frame ps z t := by
  unfold State.takeMsg at e
  split at e
  · cases e
  · cases e; exact fr.after_mPort _ _ _ m

@[simp] theorem mbx_mem_bothMbx (h : Half) : Part.mbx h ∈ bothMbx := by cases h <;> simp [bothMbx]
@[simp] theorem half_or_left (c : Prop) (h : Half) : (c ∨ h = .A) ∨ h = .B ↔ True := by cases h <;> simp
@[simp] theorem mem_lostParts {p : Part} {h : Half} : p ∈ lostParts h ↔ p ∈ halfParts h ∧ p ≠ .saved h := by cases p <;> simp [lostParts, halfParts]

/-- A command changes no part of the state but those listed for it. -/
def Keeps (c : Instr) (s : State) : Prop := EndsFramed (touches c) s (exec c s)

/-! ### Registers, staging, points and the customer partition (spec 01) -/

theorem keeps_undefinedOpcode : Keeps (.undefinedOpcode o opc) s := by
  dsimp -zeta only [Keeps, exec, touches, execUndefinedOpcode]
  refine .ite (.next ?_) (.next ?_) <;> simp
theorem keeps_registerWrite : Keeps (.registerWrite w b h off v) s := by
  dsimp -zeta only [Keeps, exec, touches, execRegisterWrite]
  split
  · refine .ite (.next ?_) (.next ?_) <;> simp
  · exact .next (by simp)
  · exact .next (by simp)
theorem keeps_tickEdge : Keeps (.tickEdge h) s := by
  dsimp -zeta only [Keeps, exec, touches, execTickEdge]
  extract_lets x n s₁ s₂ s₃ s₄ s₆ s₈ s₉ s₁₀
  refine .cut s₁ (by simp (maxDischargeDepth := 8) [-List.append_assoc, s₁]) fun h₁ => ?_
  refine .cut s₂ (by unfold s₂; split <;> simp (maxDischargeDepth := 8) [-List.append_assoc, h₁]) fun h₂ => ?_
  refine .cut s₃ (by simp (maxDischargeDepth := 8) [-List.append_assoc, s₃, h₂]) fun h₃ => ?_
  refine .cut s₄ (by simp +contextual [-List.append_assoc, s₄, h₃]) fun h₄ => ?_
  refine .cut s₆ (by simp (maxDischargeDepth := 8) +contextual [-List.append_assoc, s₆, h₄]) fun h₆ => ?_
  refine .cut s₈ (by simp (maxDischargeDepth := 8) [-List.append_assoc, s₈, h₆]) fun h₈ => ?_
  refine .cut s₉ (by simp [-List.append_assoc, s₉, h₈]) fun h₉ => ?_
  refine .cut s₁₀ (by simp (maxDischargeDepth := 8) [-List.append_assoc, s₁₀, h₉]) fun h₁₀ => ?_
  exact .ite (.next (Frame.refl _ _)) (.next (by simp [-List.append_assoc, h₁₀]))
theorem keeps_stagingWrite : Keeps (.stagingWrite h ix v) s := by
  dsimp -zeta only [Keeps, exec, touches, execStagingWrite]
  exact .next (by simp)
theorem keeps_stagingEntryStale : Keeps (.stagingEntryStale h ix) s := by
  dsimp -zeta only [Keeps, exec, touches, execStagingEntryStale]
  refine .ite (.next ?_) (.next ?_) <;> simp
theorem keeps_commitSnapshot : Keeps (.commitSnapshot h reaches) s := by
  dsimp -zeta only [Keeps, exec, touches, execCommitSnapshot]
  refine .ite (.next ?_) (.ite (.next ?_) (.next ?_)) <;> simp +contextual
theorem keeps_snapshotPublish : Keeps (.snapshotPublish h made) s := by
  dsimp -zeta only [Keeps, exec, touches, execSnapshotPublish]
  extract_lets s₁ s₂
  refine .cut s₁ (by simp [s₁]) fun h₁ => ?_
  refine .cut s₂ (by simp (maxDischargeDepth := 8) +contextual [s₂, h₁]) fun h₂ => ?_
  refine .ite (.next ?_) (.next ?_) <;> simp +contextual [h₂]
theorem keeps_pointOwnerWrite : Keeps (.pointOwnerWrite idx owner typ v) s := by
  dsimp -zeta only [Keeps, exec, touches, execPointOwnerWrite]
  exact .next (by simp)
theorem keeps_mirrorCopyReceived : Keeps (.mirrorCopyReceived h) s := by
  dsimp -zeta only [Keeps, exec, touches, execMirrorCopyReceived]
  split
  · exact .next (by simp)
  · refine .ite (.next ?_) (.next ?_) <;> simp (maxDischargeDepth := 8)
theorem keeps_mirrorAck : Keeps (.mirrorAck h) s := by
  dsimp -zeta only [Keeps, exec, touches, execMirrorAck]
  split
  · exact .next (by simp)
  · refine .ite (.next ?_) (.next ?_) <;> simp
theorem keeps_pointRestoreComplete : Keeps (.pointRestoreComplete h idx) s := by
  dsimp -zeta only [Keeps, exec, touches, execPointRestoreComplete]
  split
  · exact .next (by simp)
  · exact .next (by simp (maxDischargeDepth := 8) +contextual)
theorem keeps_partitionFault : Keeps (.partitionFault h stall) s := by
  dsimp -zeta only [Keeps, exec, touches, execPartitionFault]
  exact .next (by simp)
theorem keeps_partitionWatchdogExpiry : Keeps (.partitionWatchdogExpiry h) s := by
  dsimp -zeta only [Keeps, exec, touches, execPartitionWatchdogExpiry]
  exact .next (by simp)

/-! ### The tick and its clocks (spec 02) -/

theorem keeps_ptpSyncReceived : Keeps (.ptpSyncReceived h dom theta conv) s := by
  dsimp -zeta only [Keeps, exec, touches, execPtpSyncReceived]
  extract_lets s₁
  refine .cut s₁ (by simp [s₁]) fun h₁ => ?_
  refine .ite (.next ?_) (.ite (.next ?_) (.ite (.next ?_) (.next ?_))) <;> simp [h₁]
theorem keeps_freqUpdate : Keeps (.freqUpdate h f) s := by
  dsimp -zeta only [Keeps, exec, touches, execFreqUpdate]
  refine .ite (.next ?_) (.next ?_) <;> simp
theorem keeps_sysTimeStep : Keeps (.sysTimeStep o ns) s := by
  dsimp -zeta only [Keeps, exec, touches, execSysTimeStep]
  exact .verb (by simp (maxDischargeDepth := 8)) fun _ _ _ hs => by simp (maxDischargeDepth := 8) [hs]
theorem keeps_autoTimeStep : Keeps (.autoTimeStep h) s := by
  dsimp -zeta only [Keeps, exec, touches, execAutoTimeStep]
  refine .ite (.next ?_) (.next ?_) <;> simp
theorem keeps_holdoverEntry : Keeps (.holdoverEntry h) s := by
  dsimp -zeta only [Keeps, exec, touches, execHoldoverEntry]
  refine .ite (.next ?_) (.next ?_) <;> simp
theorem keeps_timeUncertain : Keeps (.timeUncertain h) s := by
  dsimp -zeta only [Keeps, exec, touches, execTimeUncertain]
  refine .ite (.next ?_) (.next ?_) <;> simp
theorem keeps_rtcRewrite : Keeps (.rtcRewrite h) s := by
  dsimp -zeta only [Keeps, exec, touches, execRtcRewrite]
  refine .ite (.next ?_) (.next ?_) <;> simp
theorem keeps_startWaitExpiry : Keeps (.startWaitExpiry h secs) s := by
  dsimp -zeta only [Keeps, exec, touches, execStartWaitExpiry]
  refine .ite (.next ?_) (.next ?_) <;> simp
theorem keeps_ptpMasterSelectedAtStart : Keeps (.ptpMasterSelectedAtStart h n) s := by
  dsimp -zeta only [Keeps, exec, touches, execPtpMasterSelectedAtStart]
  refine .ite (.next ?_) (.next ?_) <;> simp (maxDischargeDepth := 8)
theorem keeps_lossOfReference : Keeps (.lossOfReference h) s := by
  dsimp -zeta only [Keeps, exec, touches, execLossOfReference]
  exact .next (by simp)
theorem keeps_lossOfLock : Keeps (.lossOfLock h) s := by
  dsimp -zeta only [Keeps, exec, touches, execLossOfLock]
  exact .next (by simp)
theorem keeps_pllLockRetry : Keeps (.pllLockRetry h) s := by
  dsimp -zeta only [Keeps, exec, touches, execPllLockRetry]
  refine .ite (.next ?_) (.next ?_) <;> simp
theorem keeps_pllLockComplete : Keeps (.pllLockComplete h pll) s := by
  dsimp -zeta only [Keeps, exec, touches, execPllLockComplete]
  refine .ite (.next ?_) (.ite (.next ?_) (.next ?_)) <;> simp +contextual
theorem keeps_bypassExit : Keeps (.bypassExit h) s := by
  dsimp -zeta only [Keeps, exec, touches, execBypassExit]
  refine .ite (.next ?_) (.next ?_) <;> simp
theorem keeps_restartWithoutService : Keeps (.restartWithoutService h n) s := by
  dsimp -zeta only [Keeps, exec, touches, execRestartWithoutService]
  refine .ite (.next ?_) (.next ?_) <;> simp (maxDischargeDepth := 8)
theorem keeps_sharedPllReferenceChange : Keeps (.sharedPllReferenceChange) s := by
  dsimp -zeta only [Keeps, exec, touches, execSharedPllReferenceChange]
  refine .ite (.next ?_) (.ite (.next ?_) (.next ?_)) <;> simp
theorem keeps_skewMeasure : Keeps (.skewMeasure h ns trim) s := by
  dsimp -zeta only [Keeps, exec, touches, execSkewMeasure]
  extract_lets _ _ s₁ s₂ _ s₃
  refine .cut s₁ (by simp [s₁]) fun h₁ => ?_
  refine .cut s₂ (by simp (maxDischargeDepth := 8) [s₂, h₁]) fun h₂ => ?_
  refine .cut s₃ (by simp (maxDischargeDepth := 8) [s₃, h₂]) fun h₃ => ?_
  refine .ite (.next ?_) (.ite (.next ?_) (.ite (.next ?_) (.next ?_))) <;> simp [h₃]
theorem keeps_ingestDeadline : Keeps (.ingestDeadline h) s := by
  dsimp -zeta only [Keeps, exec, touches, execIngestDeadline]
  exact .next (by simp)
theorem keeps_ingestMapExchange : Keeps (.ingestMapExchange h sentMap) s := by
  dsimp -zeta only [Keeps, exec, touches, execIngestMapExchange]
  exact .next (by simp (maxDischargeDepth := 8))
theorem keeps_uplinkAcceptanceLoss : Keeps (.uplinkAcceptanceLoss h p) s := by
  dsimp -zeta only [Keeps, exec, touches, execUplinkAcceptanceLoss]
  exact .next (by simp)
theorem keeps_allocationLatch : Keeps (.allocationLatch h ready) s := by
  dsimp -zeta only [Keeps, exec, touches, execAllocationLatch]
  split
  · exact .next (by simp (maxDischargeDepth := 8) +contextual)
  · exact .next (by simp (maxDischargeDepth := 8))
theorem keeps_downlinkDispatch : Keeps (.downlinkDispatch h p onTime) s := by
  dsimp -zeta only [Keeps, exec, touches, execDownlinkDispatch]
  refine .ite (.next ?_) (.ite (.next ?_) (.next ?_)) <;> simp (maxDischargeDepth := 8)

/-! ### The Nepel link (spec 03) -/

theorem keeps_lineSyncGained : Keeps (.lineSyncGained h p commas) s := by
  dsimp -zeta only [Keeps, exec, touches, execLineSyncGained]
  extract_lets s₁
  refine .cut s₁ (by simp [s₁]) fun h₁ => ?_
  refine .ite (.next ?_) (.ite (.next ?_) (.next ?_)) <;> simp [h₁]
theorem keeps_lineSyncLost : Keeps (.lineSyncLost h p cvs chars) s := by
  dsimp -zeta only [Keeps, exec, touches, execLineSyncLost]
  refine .ite (.next ?_) (.next ?_) <;> simp (maxDischargeDepth := 8)
theorem keeps_measureEntry : Keeps (.measureEntry h p) s := by
  dsimp -zeta only [Keeps, exec, touches, execMeasureEntry]
  refine .ite (.next ?_) (.next ?_) <;> simp
theorem keeps_tickMarkerSend : Keeps (.tickMarkerSend h p) s := by
  dsimp -zeta only [Keeps, exec, touches, execTickMarkerSend]
  refine .ite (.next ?_) (.next ?_) <;> simp
theorem keeps_dprSend : Keeps (.dprSend h p) s := by
  dsimp -zeta only [Keeps, exec, touches, execDprSend]
  refine .ite (.next ?_) (.next ?_) <;> simp
theorem keeps_decReceived : Keeps (.decReceived h p rtt ta) s := by
  dsimp -zeta only [Keeps, exec, touches, execDecReceived]
  extract_lets _ _ _ _ s₁ s₂
  refine .cut s₁ (by simp [s₁]) fun h₁ => ?_
  refine .cut s₂ (by simp [s₂, h₁]) fun h₂ => ?_
  refine .ite (.next ?_) (.ite (.next ?_) (.ite (.next ?_) (.ite (.next ?_) (.next ?_)))) <;> simp [h₁, h₂]
theorem keeps_delaySlew : Keeps (.delaySlew h p) s := by
  dsimp -zeta only [Keeps, exec, touches, execDelaySlew]
  refine .ite (.next ?_) (.next ?_) <;> simp
theorem keeps_helloReceived : Keeps (.helloReceived h p f) s := by
  dsimp -zeta only [Keeps, exec, touches, execHelloReceived]
  extract_lets q r tag s₁
  refine .cut s₁ (by simp [s₁]) fun h₁ => ?_
  clear_value tag r
  refine .ite (.next (by simp)) ?_
  split
  · exact .next (by simp [h₁])
  · refine .ite (.next ?_) (.ite (.next ?_) (.ite (.next ?_) (.ite (.next ?_) (.ite (.next ?_) (.next ?_))))) <;> simp (maxDischargeDepth := 8) [h₁]
theorem keeps_joinAcknowledged : Keeps (.joinAcknowledged h p) s := by
  dsimp -zeta only [Keeps, exec, touches, execJoinAcknowledged]
  extract_lets q s₁ s₂
  split
  · exact .next (Frame.refl _ _)
  · refine .cut s₁ (by simp [s₁]) fun h₁ => ?_
    refine .cut s₂ (by simp [s₂, h₁]) fun h₂ => ?_
    exact .ite (.next (by simp [h₂])) (.next (Frame.refl _ _))
theorem keeps_uplinkTickFrame : Keeps (.uplinkTickFrame h p f) s := by
  dsimp -zeta only [Keeps, exec, touches, execUplinkTickFrame]
  extract_lets _ s₁ s₂ _ _ s₃
  refine .cut s₁ (by simp [s₁]) fun h₁ => ?_
  refine .cut s₂ (by simp [s₂, h₁]) fun h₂ => ?_
  refine .cut s₃ (by simp [s₃, h₂]) fun h₃ => ?_
  refine .ite (.next (by simp)) ?_
  refine .ite (.next (by simp [h₂])) ?_
  split
  · exact .next (by simp [h₃])
  · refine .ite (.next ?_) (.ite (.next ?_) (.ite (.next ?_) (.ite (.next ?_) (.ite (.next ?_) (.next ?_))))) <;> simp [h₃]
theorem keeps_asyncSegmentReceived : Keeps (.asyncSegmentReceived h p f) s := by
  dsimp -zeta only [Keeps, exec, touches, execAsyncSegmentReceived]
  dsimp only
  refine .ite (.next (by simp)) ?_
  split
  · exact .next (by simp)
  · refine .ite (.next ?_) (.next ?_) <;> simp (maxDischargeDepth := 8)
theorem keeps_asyncAckSend : Keeps (.asyncAckSend h p ty) s := by
  dsimp -zeta only [Keeps, exec, touches, execAsyncAckSend]
  extract_lets
  split
  · exact .next (by simp)
  · refine .ite (.next ?_) (.next ?_) <;> simp
theorem keeps_asyncAckReceived : Keeps (.asyncAckReceived h p f) s := by
  dsimp -zeta only [Keeps, exec, touches, execAsyncAckReceived]
  dsimp only
  refine .ite (.next (by simp)) ?_
  split
  · exact .next (by simp)
  · refine .ite (.next ?_) (.next ?_) <;> simp (maxDischargeDepth := 8)
theorem keeps_segmentResendTimeout : Keeps (.segmentResendTimeout h p ty seg) s := by
  dsimp -zeta only [Keeps, exec, touches, execSegmentResendTimeout]
  split
  · exact .next (by simp)
  · split
    · exact .next (by simp)
    · refine .ite (.next ?_) (.ite (.next ?_) (.next ?_)) <;> simp
theorem keeps_asyncFrameSend : Keeps (.asyncFrameSend h p room) s := by
  dsimp -zeta only [Keeps, exec, touches, execAsyncFrameSend]
  extract_lets q room₁ room₂ acks
  clear_value acks
  refine .ite (.next (by simp)) ?_
  split
  · refine .ite (.next ?_) (.next ?_) <;> simp
  · split
    · exact .next (by simp)
    · split
      · exact .next (by simp)
      · refine .ite (.next ?_) (.next ?_) <;> simp
theorem keeps_tunnelMessageReceived : Keeps (.tunnelMessageReceived h p) s := by
  dsimp -zeta only [Keeps, exec, touches, execTunnelMessageReceived]
  split
  · exact .next (Frame.refl _ _)
  next e =>
    refine .cut _ (Frame.of_takeMsg (Frame.refl _ s) (by cases h <;> simp) e) fun h₁ => ?_
    refine .ite (.next ?_) (.ite (.next ?_) (.next ?_)) <;> simp [h₁]
theorem keeps_bulkLogReceived : Keeps (.bulkLogReceived h p) s := by
  dsimp -zeta only [Keeps, exec, touches, execBulkLogReceived]
  split
  · exact .next (Frame.refl _ _)
  next e =>
    refine .cut _ (Frame.of_takeMsg (Frame.refl _ s) (by cases h <;> simp) e) fun h₁ => ?_
    exact .next (by simp [h₁])
theorem keeps_timeMessageSend : Keeps (.timeMessageSend h) s := by
  dsimp -zeta only [Keeps, exec, touches, execTimeMessageSend]
  refine .ite (.next ?_) (.next ?_) <;> simp +contextual
theorem keeps_remoteDownlinkTickFrame : Keeps (.remoteDownlinkTickFrame p d f) s := by
  dsimp -zeta only [Keeps, exec, touches, execRemoteDownlinkTickFrame]
  split
  · exact .next (by simp)
  · exact .next (by simp)
theorem keeps_remoteSelection49us : Keeps (.remoteSelection49us p) s := by
  dsimp -zeta only [Keeps, exec, touches, execRemoteSelection49us]
  exact .next (by simp)
theorem keeps_remoteTickEdge : Keeps (.remoteTickEdge p below5 v) s := by
  dsimp -zeta only [Keeps, exec, touches, execRemoteTickEdge]
  exact .next (by simp)
theorem keeps_remoteTickMarker : Keeps (.remoteTickMarker p a b) s := by
  dsimp -zeta only [Keeps, exec, touches, execRemoteTickMarker]
  extract_lets r first seq
  clear_value seq
  split
  · exact .next (by simp)
  · refine .ite (.next ?_) (.next ?_) <;> simp
theorem keeps_linkLostForceOpen : Keeps (.linkLostForceOpen p) s := by
  dsimp -zeta only [Keeps, exec, touches, execLinkLostForceOpen]
  refine .ite (.next ?_) (.next ?_) <;> simp
theorem keeps_remoteHelloSend : Keeps (.remoteHelloSend p d) s := by
  dsimp -zeta only [Keeps, exec, touches, execRemoteHelloSend]
  refine .ite (.next ?_) (.next ?_) <;> simp

/-! ### Twin halves (spec 04) -/

theorem keeps_refereeRequest : Keeps (.refereeRequest h early) s := by
  dsimp -zeta only [Keeps, exec, touches, execRefereeRequest]
  exact .next (by simp)
theorem keeps_refereeGrant : Keeps (.refereeGrant h) s := by
  dsimp -zeta only [Keeps, exec, touches, execRefereeGrant]
  split
  · exact .next (by simp)
  · extract_lets _ s₁ s₂
    refine .cut s₁ (by simp [s₁]) fun h₁ => ?_
    refine .ite (.next (by simp)) ?_
    split
    · exact .next (by simp [h₁])
    · refine .ite (.next ?_) (.next ?_) <;> simp [h₁]
theorem keeps_tokenRelease : Keeps (.tokenRelease) s := by
  dsimp -zeta only [Keeps, exec, touches, execTokenRelease]
  split
  · exact .next (by simp)
  · split
    · exact .next (by simp)
    · exact .next (by simp)
theorem keeps_aliveSignalMissing : Keeps (.aliveSignalMissing) s := by
  dsimp -zeta only [Keeps, exec, touches, execAliveSignalMissing]
  split
  · exact .next (by simp)
  · exact .next (by simp)
theorem keeps_handoverEdge : Keeps (.handoverEdge) s := by
  dsimp -zeta only [Keeps, exec, touches, execHandoverEdge]
  split
  · exact .next (Frame.refl _ _)
  · refine .ite (.next (Frame.refl _ _)) ?_
    split
    · exact .next (by simp)
    · extract_lets org s₁ s₂ s₃ s₄
      clear_value org
      refine .cut s₁ (by unfold s₁; split <;> simp) fun h₁ => ?_
      refine .cut s₂ (by simp [s₂, h₁]) fun h₂ => ?_
      refine .cut s₃ (by simp [s₃, h₂]) fun h₃ => ?_
      refine .cut s₄ (by simp [s₄, h₃]) fun h₄ => ?_
      exact .next (by simp [h₄])
theorem keeps_twinHeartbeatSend : Keeps (.twinHeartbeatSend h) s := by
  dsimp -zeta only [Keeps, exec, touches, execTwinHeartbeatSend]
  exact .next (by simp)
theorem keeps_twinHeartbeatReceived : Keeps (.twinHeartbeatReceived h valid) s := by
  dsimp -zeta only [Keeps, exec, touches, execTwinHeartbeatReceived]
  split
  · exact .next (by simp)
  · extract_lets s₁ s₂ s₃
    refine .cut s₁ (by simp [s₁]) fun h₁ => ?_
    refine .cut s₂ (by simp [s₂, h₁]) fun h₂ => ?_
    refine .cut s₃ (by simp [s₃, h₂]) fun h₃ => ?_
    refine .ite (.next ?_) (.ite (.next ?_) (.next ?_)) <;> simp [h₁, h₃]
theorem keeps_twinLinkDead : Keeps (.twinLinkDead h) s := by
  dsimp -zeta only [Keeps, exec, touches, execTwinLinkDead]
  refine .ite (.next ?_) (.next ?_) <;> simp
theorem keeps_relayedSnapshotReceived : Keeps (.relayedSnapshotReceived h) s := by
  dsimp -zeta only [Keeps, exec, touches, execRelayedSnapshotReceived]
  exact .next (by simp)
theorem keeps_portCountTakeover : Keeps (.portCountTakeover) s := by
  dsimp -zeta only [Keeps, exec, touches, execPortCountTakeover]
  split
  · exact .next (Frame.refl _ _)
  · extract_lets y now r s₁
    refine .cut s₁ (by simp [s₁]) fun h₁ => ?_
    exact .ite (.next (by simp)) (.ite (.next (Frame.refl _ _)) (.ite (.next (by simp (maxDischargeDepth := 8) [h₁])) (.next h₁)))
theorem keeps_cleanHealthReturn : Keeps (.cleanHealthReturn) s := by
  dsimp -zeta only [Keeps, exec, touches, execCleanHealthReturn]
  split
  · refine .ite (.next ?_) (.next ?_) <;> simp
  · exact .next (by simp)
theorem keeps_twnHandover : Keeps (.twnHandover o t) s := by
  dsimp -zeta only [Keeps, exec, touches, execTwnHandover]
  refine .verb (by simp) fun _ _ _ h₁ => ?_
  split <;> simp (maxDischargeDepth := 8) [h₁]
theorem keeps_handoverReq : Keeps (.handoverReq) s := by
  dsimp -zeta only [Keeps, exec, touches, execHandoverReq]
  split
  · refine .ite (.next ?_) (.next ?_) <;> simp
  · exact .next (by simp)
theorem keeps_handoverStateSend : Keeps (.handoverStateSend) s := by
  dsimp -zeta only [Keeps, exec, touches, execHandoverStateSend]
  split
  · refine .ite (.next ?_) (.next ?_) <;> simp
  · exact .next (by simp)
theorem keeps_handoverStateAck : Keeps (.handoverStateAck) s := by
  dsimp -zeta only [Keeps, exec, touches, execHandoverStateAck]
  split
  · refine .ite (.next ?_) (.next ?_) <;> simp
  · exact .next (by simp)
theorem keeps_handoverTimeout : Keeps (.handoverTimeout) s := by
  dsimp -zeta only [Keeps, exec, touches, execHandoverTimeout]
  split
  · refine .ite (.next ?_) (.next ?_) <;> simp
  · exact .next (by simp)
theorem keeps_rejoinStart : Keeps (.rejoinStart h) s := by
  dsimp -zeta only [Keeps, exec, touches, execRejoinStart]
  extract_lets x t s₁
  refine .cut s₁ (by simp [-List.append_assoc, s₁]) fun h₁ => ?_
  exact .ite (.next (by simp [-List.append_assoc, h₁, HalfSt.takeControl])) (.next (Frame.refl _ _))
theorem keeps_startPath : Keeps (.startPath h n) s := by
  dsimp -zeta only [Keeps, exec, touches, execStartPath]
  refine .ite (.ite (.next ?_) (.ite (.next ?_) (.next ?_))) (.next ?_) <;> simp
theorem keeps_shadowCompare : Keeps (.shadowCompare h rs) s := by
  dsimp -zeta only [Keeps, exec, touches, execShadowCompare]
  extract_lets _ _ s₁ s₂
  refine .cut s₁ (by simp [s₁]) fun h₁ => ?_
  refine .cut s₂ (by simp +contextual [s₂, h₁]) fun h₂ => ?_
  refine .ite (.next ?_) (.ite (.next ?_) (.ite (.next ?_) (.ite (.next ?_) (.next ?_)))) <;> simp +contextual [h₂]
theorem keeps_digestCompare : Keeps (.digestCompare h) s := by
  dsimp -zeta only [Keeps, exec, touches, execDigestCompare]
  extract_lets t x ex bad s₁ s₂ s₃
  refine .cut s₁ (by simp [s₁]) fun h₁ => ?_
  refine .cut s₂ (by simp [s₂, h₁]) fun h₂ => ?_
  refine .cut s₃ (by simp [s₃, h₁]) fun h₃ => ?_
  clear_value bad
  refine .ite (.next (Frame.refl _ _)) (.ite (.next (by simp)) ?_)
  split
  · exact .ite (.next (by simp [h₂])) (.next h₂)
  · exact .next (by simp [h₃])
theorem keeps_scrubBlock : Keeps (.scrubBlock h addr kind res) s := by
  dsimp -zeta only [Keeps, exec, touches, execScrubBlock]
  extract_lets s₁ ev
  refine .cut s₁ (by simp [s₁]) fun h₁ => ?_
  have hev k : Frame (bothMbx ++ [.pts .A, .pts .B, .twn .A, .twn .B]) s (ev k) := by simp [ev, h₁]
  refine .ite (.next (Frame.refl _ _)) (.ite (.next (.after_ite (by simp [h₁]) h₁)) (.ite ?_ (.next h₁)))
  split <;> exact .next (by simp [hev])
theorem keeps_penaltyDecay : Keeps (.penaltyDecay h) s := by
  dsimp -zeta only [Keeps, exec, touches, execPenaltyDecay]
  exact .next (by simp)
theorem keeps_healthWindowEnd : Keeps (.healthWindowEnd h) s := by
  dsimp -zeta only [Keeps, exec, touches, execHealthWindowEnd]
  refine .ite (.next ?_) (.next ?_) <;> simp (maxDischargeDepth := 8) +contextual
theorem keeps_unhealthyResetTimeout : Keeps (.unhealthyResetTimeout h) s := by
  dsimp -zeta only [Keeps, exec, touches, execUnhealthyResetTimeout]
  dsimp only
  split
  · exact .next (by simp)
  · refine .ite (.next ?_) (.next ?_) <;> simp (maxDischargeDepth := 8)
theorem keeps_twnRelease : Keeps (.twnRelease o t) s := by
  dsimp -zeta only [Keeps, exec, touches, execTwnRelease]
  refine .verb (by simp) fun _ _ _ h₁ => ?_
  split
  · simp [h₁]
  · refine .ite ?_ ?_ <;> simp [h₁]
theorem keeps_feedLost : Keeps (.feedLost f v) s := by
  dsimp -zeta only [Keeps, exec, touches, execFeedLost]
  extract_lets _ s₁
  refine .cut s₁ (by simp [s₁]) fun h₁ => ?_
  refine .ite (.next ?_) (.next ?_) <;> simp (maxDischargeDepth := 8) [h₁]
theorem keeps_feedOk : Keeps (.feedOk f v) s := by
  dsimp -zeta only [Keeps, exec, touches, execFeedOk]
  extract_lets _ s₁
  refine .cut s₁ (by simp [s₁]) fun h₁ => ?_
  refine .ite (.next ?_) (.next ?_) <;> simp [h₁]
theorem keeps_feedReverseCurrent : Keeps (.feedReverseCurrent f) s := by
  dsimp -zeta only [Keeps, exec, touches, execFeedReverseCurrent]
  exact .next (by simp)
theorem keeps_oringTest : Keeps (.oringTest f fail) s := by
  dsimp -zeta only [Keeps, exec, touches, execOringTest]
  refine .ite (.next ?_) (.next ?_) <;> simp
theorem keeps_pertArm : Keeps (.pertArm o h v) s := by
  dsimp -zeta only [Keeps, exec, touches, execPertArm]
  exact .next (by simp (maxDischargeDepth := 8) +contextual)
theorem keeps_pertEnd : Keeps (.pertEnd h) s := by
  dsimp -zeta only [Keeps, exec, touches, execPertEnd]
  refine .ite (.next ?_) (.next ?_) <;> simp
theorem keeps_claimLossRelinquish : Keeps (.claimLossRelinquish h) s := by
  dsimp -zeta only [Keeps, exec, touches, execClaimLossRelinquish]
  refine .ite (.next ?_) (.next ?_) <;> simp
theorem keeps_halfReset : Keeps (.halfReset h) s := by
  dsimp -zeta only [Keeps, exec, touches, execHalfReset]
  exact .next (by simp)

/-! ### Control lanes and loop blocks (spec 05, 06) -/

theorem keeps_laneRunStart : Keeps (.laneRunStart h) s := by
  dsimp -zeta only [Keeps, exec, touches, execLaneRunStart]
  refine .ite (.next ?_) (.next ?_) <;> simp (maxDischargeDepth := 8) +contextual
theorem keeps_laneOverrun : Keeps (.laneOverrun h l) s := by
  dsimp -zeta only [Keeps, exec, touches, execLaneOverrun]
  extract_lets _ _ s₁ s₂ s₃
  refine .cut s₁ (by simp [s₁]) fun h₁ => ?_
  refine .cut s₂ (by simp [s₂, h₁]) fun h₂ => ?_
  refine .cut s₃ (by simp [s₃, h₂]) fun h₃ => ?_
  refine .ite (.next ?_) (.ite (.next ?_) (.ite (.next ?_) (.next ?_))) <;> simp [h₁, h₃]
theorem keeps_nop : Keeps (.nop w) s := by
  dsimp -zeta only [Keeps, exec, touches, execNop]
  exact .next (by simp)
theorem keeps_halt : Keeps (.halt w) s := by
  dsimp -zeta only [Keeps, exec, touches, execHalt]
  exact .next (by simp)
theorem keeps_rpt : Keeps (.rpt w n len) s := by
  dsimp -zeta only [Keeps, exec, touches, execRpt]
  exact .next (by simp)
theorem keeps_rptv : Keeps (.rptv w vs most len) s := by
  dsimp -zeta only [Keeps, exec, touches, execRptv]
  exact .next (by simp)
theorem keeps_movi : Keeps (.movi w d imm) s := by
  dsimp -zeta only [Keeps, exec, touches, execMovi]
  exact .next (by simp)
theorem keeps_mov : Keeps (.mov w d vs) s := by
  dsimp -zeta only [Keeps, exec, touches, execMov]
  exact .next (by simp)
theorem keeps_add : Keeps (.add w d vs vt) s := by
  dsimp -zeta only [Keeps, exec, touches, execAdd]
  exact .next (by simp)
theorem keeps_sub : Keeps (.sub w d vs vt) s := by
  dsimp -zeta only [Keeps, exec, touches, execSub]
  exact .next (by simp)
theorem keeps_neg : Keeps (.neg w d vs) s := by
  dsimp -zeta only [Keeps, exec, touches, execNeg]
  exact .next (by simp)
theorem keeps_abs : Keeps (.abs w d vs) s := by
  dsimp -zeta only [Keeps, exec, touches, execAbs]
  exact .next (by simp)
theorem keeps_min : Keeps (.min w d vs vt) s := by
  dsimp -zeta only [Keeps, exec, touches, execMin]
  exact .next (by simp)
theorem keeps_max : Keeps (.max w d vs vt) s := by
  dsimp -zeta only [Keeps, exec, touches, execMax]
  exact .next (by simp)
theorem keeps_clmp : Keeps (.clmp w d vs vt) s := by
  dsimp -zeta only [Keeps, exec, touches, execClmp]
  exact .next (by simp)
theorem keeps_shl : Keeps (.shl w d vs k) s := by
  dsimp -zeta only [Keeps, exec, touches, execShl]
  exact .next (by simp)
theorem keeps_shr : Keeps (.shr w d vs k) s := by
  dsimp -zeta only [Keeps, exec, touches, execShr]
  exact .next (by simp)
theorem keeps_and : Keeps (.and w d vs vt) s := by
  dsimp -zeta only [Keeps, exec, touches, execAnd]
  exact .next (by simp)
theorem keeps_or : Keeps (.or w d vs vt) s := by
  dsimp -zeta only [Keeps, exec, touches, execOr]
  exact .next (by simp)
theorem keeps_xor : Keeps (.xor w d vs vt) s := by
  dsimp -zeta only [Keeps, exec, touches, execXor]
  exact .next (by simp)
theorem keeps_sel : Keeps (.sel w d vs vt k) s := by
  dsimp -zeta only [Keeps, exec, touches, execSel]
  exact .next (by simp)
theorem keeps_cmp : Keeps (.cmp w d vs vt cc) s := by
  dsimp -zeta only [Keeps, exec, touches, execCmp]
  exact .next (by simp)
theorem keeps_plog : Keeps (.plog w d ps pt op) s := by
  dsimp -zeta only [Keeps, exec, touches, execPlog]
  exact .next (by simp)
theorem keeps_mul : Keeps (.mul w d vs vt) s := by
  dsimp -zeta only [Keeps, exec, touches, execMul]
  exact .next (by simp)
theorem keeps_mac : Keeps (.mac w d vs vt) s := by
  dsimp -zeta only [Keeps, exec, touches, execMac]
  exact .next (by simp)
theorem keeps_msu : Keeps (.msu w d vs vt) s := by
  dsimp -zeta only [Keeps, exec, touches, execMsu]
  exact .next (by simp)
theorem keeps_lda : Keeps (.lda w d vs) s := by
  dsimp -zeta only [Keeps, exec, touches, execLda]
  exact .next (by simp)
theorem keeps_adda : Keeps (.adda w d as_) s := by
  dsimp -zeta only [Keeps, exec, touches, execAdda]
  exact .next (by simp)
theorem keeps_suba : Keeps (.suba w d as_) s := by
  dsimp -zeta only [Keeps, exec, touches, execSuba]
  exact .next (by simp)
theorem keeps_mova : Keeps (.mova w d as_) s := by
  dsimp -zeta only [Keeps, exec, touches, execMova]
  exact .next (by simp)
theorem keeps_sha : Keeps (.sha w d k) s := by
  dsimp -zeta only [Keeps, exec, touches, execSha]
  exact .next (by simp)
theorem keeps_amulv : Keeps (.amulv w d vs) s := by
  dsimp -zeta only [Keeps, exec, touches, execAmulv]
  exact .next (by simp)
theorem keeps_str : Keeps (.str w d as_ n) s := by
  dsimp -zeta only [Keeps, exec, touches, execStr]
  exact .next (by simp)
theorem keeps_aclmp : Keeps (.aclmp w d k vs vt) s := by
  dsimp -zeta only [Keeps, exec, touches, execAclmp]
  exact .next (by simp)
theorem keeps_ld : Keeps (.ld w r m) s := by
  dsimp -zeta only [Keeps, exec, touches, execLd]
  exact .next (by simp)
theorem keeps_st : Keeps (.st w m r) s := by
  dsimp -zeta only [Keeps, exec, touches, execSt]
  exact .next (by simp)
theorem keeps_ldw : Keeps (.ldw w r m) s := by
  dsimp -zeta only [Keeps, exec, touches, execLdw]
  exact .next (by simp)
theorem keeps_stw : Keeps (.stw w m r) s := by
  dsimp -zeta only [Keeps, exec, touches, execStw]
  exact .next (by simp)
theorem keeps_ldx : Keeps (.ldx w r m) s := by
  dsimp -zeta only [Keeps, exec, touches, execLdx]
  exact .next (by simp)
theorem keeps_movx : Keeps (.movx w d imm) s := by
  dsimp -zeta only [Keeps, exec, touches, execMovx]
  exact .next (by simp)
theorem keeps_addx : Keeps (.addx w d imm) s := by
  dsimp -zeta only [Keeps, exec, touches, execAddx]
  exact .next (by simp)
theorem keeps_out : Keeps (.out w vs ix) s := by
  dsimp -zeta only [Keeps, exec, touches, execOut]
  exact .next (by simp)
theorem keeps_claspDrain : Keeps (.claspDrain h) s := by
  dsimp -zeta only [Keeps, exec, touches, execClaspDrain]
  exact .next (by simp (maxDischargeDepth := 8) +contextual)
theorem keeps_clnStore : Keeps (.clnStore o img) s := by
  dsimp -zeta only [Keeps, exec, touches, execClnStore]
  refine .verb (by simp) fun _ _ _ h₁ => ?_
  split <;> simp [h₁]
theorem keeps_clnFree : Keeps (.clnFree o base) s := by
  dsimp -zeta only [Keeps, exec, touches, execClnFree]
  refine .verb (by simp (maxDischargeDepth := 8)) fun _ _ _ h₁ => ?_
  split
  · simp [h₁]
  · refine .ite ?_ ?_ <;> simp (maxDischargeDepth := 8) +contextual [h₁]
theorem keeps_clnList : Keeps (.clnList o) s := by
  dsimp -zeta only [Keeps, exec, touches, execClnList]
  exact .verb (by simp) fun _ _ _ hs => by simp [hs]
theorem keeps_clnSetpoint : Keeps (.clnSetpoint o lane blk target) s := by
  dsimp -zeta only [Keeps, exec, touches, execClnSetpoint]
  refine .verb (by simp) fun _ _ _ h₁ => ?_
  extract_lets _ n s₁ s₂
  refine .cut s₁ (by simp +contextual [s₁, h₁]) fun h₂ => ?_
  refine .cut s₂ (by simp [s₂, h₂]) fun h₃ => ?_
  simp (maxDischargeDepth := 8) [h₁, h₃]
theorem keeps_clnMode : Keeps (.clnMode o lane blk auto sptrack) s := by
  dsimp -zeta only [Keeps, exec, touches, execClnMode]
  exact .verb (by simp) fun _ _ _ hs => by simp (maxDischargeDepth := 8) [hs]
theorem keeps_clnManual : Keeps (.clnManual o lane blk target) s := by
  dsimp -zeta only [Keeps, exec, touches, execClnManual]
  refine .verb (by simp) fun _ _ _ h₁ => ?_
  extract_lets _ n s₁ s₂
  refine .cut s₁ (by simp +contextual [s₁, h₁]) fun h₂ => ?_
  refine .cut s₂ (by simp [s₂, h₂]) fun h₃ => ?_
  simp (maxDischargeDepth := 8) [h₁, h₃]
theorem keeps_clnInject : Keeps (.clnInject o lane blk ctl period amp seed f0 f1 dur) s := by
  dsimp -zeta only [Keeps, exec, touches, execClnInject]
  refine .verb (by simp) fun _ _ _ h₁ => ?_
  extract_lets _ _ n s₁ inc s₂ s₃ s₄
  refine .cut s₁ (by simp +contextual [s₁, h₁]) fun h₂ => ?_
  refine .cut s₂ (by simp (maxDischargeDepth := 8) [s₂, h₂]) fun h₃ => ?_
  refine .cut s₃ (by simp (maxDischargeDepth := 8) [s₃, h₃]) fun h₄ => ?_
  refine .cut s₄ (by simp [s₄, h₄]) fun h₅ => ?_
  simp (maxDischargeDepth := 8) [h₁, h₅]
theorem keeps_injectionEnd : Keeps (.injectionEnd h lane blk) s := by
  dsimp -zeta only [Keeps, exec, touches, execInjectionEnd]
  split
  · exact .next (by simp)
  · extract_lets s₁
    refine .cut s₁ (by simp [s₁]) fun h₁ => ?_
    split
    · exact .next (by simp [h₁])
    · exact .next (by simp [h₁])
theorem keeps_clnCapArm : Keeps (.clnCapArm o lane blk buf nch trig rows pre decim ttick slots) s := by
  dsimp -zeta only [Keeps, exec, touches, execClnCapArm]
  exact .verb (by simp (maxDischargeDepth := 8)) fun _ _ _ hs => by simp (maxDischargeDepth := 8) +contextual [hs]
theorem keeps_captureTrigger : Keeps (.captureTrigger h buf) s := by
  dsimp -zeta only [Keeps, exec, touches, execCaptureTrigger]
  refine .ite (.next ?_) (.next ?_) <;> simp
theorem keeps_clnCapRead : Keeps (.clnCapRead o buf first count) s := by
  dsimp -zeta only [Keeps, exec, touches, execClnCapRead]
  exact .verb (by simp) fun _ _ _ hs => by simp [hs]
theorem keeps_probeComplete : Keeps (.probeComplete h c g) s := by
  dsimp -zeta only [Keeps, exec, touches, execProbeComplete]
  exact .next (by simp)
theorem keeps_hiccupTrip : Keeps (.hiccupTrip h c g) s := by
  dsimp -zeta only [Keeps, exec, touches, execHiccupTrip]
  exact .next (by simp)
theorem keeps_hiccupWindowEnd : Keeps (.hiccupWindowEnd h c g) s := by
  dsimp -zeta only [Keeps, exec, touches, execHiccupWindowEnd]
  refine .ite (.next ?_) (.next ?_) <;> simp
theorem keeps_hiccupWaitEnd : Keeps (.hiccupWaitEnd h c g) s := by
  dsimp -zeta only [Keeps, exec, touches, execHiccupWaitEnd]
  exact .next (by simp)
theorem keeps_startComplete : Keeps (.startComplete h c g) s := by
  dsimp -zeta only [Keeps, exec, touches, execStartComplete]
  exact .next (by simp)
theorem keeps_retriesReset : Keeps (.retriesReset h c g) s := by
  dsimp -zeta only [Keeps, exec, touches, execRetriesReset]
  exact .next (by simp)
theorem keeps_loadStepDetected : Keeps (.loadStepDetected h c g) s := by
  dsimp -zeta only [Keeps, exec, touches, execLoadStepDetected]
  exact .next (by simp)
theorem keeps_holdOffEnd : Keeps (.holdOffEnd h c g) s := by
  dsimp -zeta only [Keeps, exec, touches, execHoldOffEnd]
  exact .next (by simp)

/-! ### Power stages (spec 07) -/

theorem keeps_phaseAddStart : Keeps (.phaseAddStart h c g) s := by
  dsimp -zeta only [Keeps, exec, touches, execPhaseAddStart]
  exact .next (by simp)
theorem keeps_phaseShedStart : Keeps (.phaseShedStart h c g) s := by
  dsimp -zeta only [Keeps, exec, touches, execPhaseShedStart]
  exact .next (by simp)
theorem keeps_burstEntry : Keeps (.burstEntry h c g) s := by
  dsimp -zeta only [Keeps, exec, touches, execBurstEntry]
  exact .next (by simp)
theorem keeps_burstExit : Keeps (.burstExit h c g) s := by
  dsimp -zeta only [Keeps, exec, touches, execBurstExit]
  exact .next (by simp)
theorem keeps_pstClear : Keeps (.pstClear o c mask) s := by
  dsimp -zeta only [Keeps, exec, touches, execPstClear]
  exact .verb (by simp (maxDischargeDepth := 8)) fun _ _ _ hs => by simp (maxDischargeDepth := 8) +contextual [hs]
theorem keeps_cabinetCommandApply : Keeps (.cabinetCommandApply p) s := by
  dsimp -zeta only [Keeps, exec, touches, execCabinetCommandApply]
  refine .ite (.next ?_) (.next ?_) <;> simp
theorem keeps_ditherStep : Keeps (.ditherStep p) s := by
  dsimp -zeta only [Keeps, exec, touches, execDitherStep]
  refine .ite (.next ?_) (.next ?_) <;> simp

/-! ### The allocation (spec 08) -/

theorem keeps_plannerRun : Keeps (.plannerRun) s := by
  dsimp -zeta only [Keeps, exec, touches, execPlannerRun]
  split
  · exact .next (by simp)
  · refine .ite (.next ?_) (.ite (.next ?_) (.next ?_)) <;> simp +contextual
theorem keeps_drainComplete : Keeps (.drainComplete h k) s := by
  dsimp -zeta only [Keeps, exec, touches, execDrainComplete]
  split
  · refine .ite (.next ?_) (.next ?_) <;> simp (maxDischargeDepth := 8) +contextual
  · exact .next (by simp)
theorem keeps_drainTimeout : Keeps (.drainTimeout h k) s := by
  dsimp -zeta only [Keeps, exec, touches, execDrainTimeout]
  split
  · refine .ite (.next ?_) (.next ?_) <;> simp
  · exact .next (by simp)
theorem keeps_polesOpened : Keeps (.polesOpened h k) s := by
  dsimp -zeta only [Keeps, exec, touches, execPolesOpened]
  split
  · refine .ite (.next ?_) (.next ?_) <;> simp
  · exact .next (by simp)
theorem keeps_poleOpenTimeout : Keeps (.poleOpenTimeout h k) s := by
  dsimp -zeta only [Keeps, exec, touches, execPoleOpenTimeout]
  split
  · refine .ite (.next ?_) (.next ?_) <;> simp
  · exact .next (by simp)
theorem keeps_polesClosed : Keeps (.polesClosed h k) s := by
  dsimp -zeta only [Keeps, exec, touches, execPolesClosed]
  split
  · refine .ite (.next ?_) (.next ?_) <;> simp
  · exact .next (by simp)
theorem keeps_poleCloseTimeout : Keeps (.poleCloseTimeout h k) s := by
  dsimp -zeta only [Keeps, exec, touches, execPoleCloseTimeout]
  split
  · extract_lets bad r
    refine .cut r.1 (by simp [r]) fun h₁ => ?_
    exact .ite (.next (by simp [h₁])) (.next (Frame.refl _ _))
  · exact .next (Frame.refl _ _)
theorem keeps_matchPass : Keeps (.matchPass h k) s := by
  dsimp -zeta only [Keeps, exec, touches, execMatchPass]
  split
  · refine .ite (.next ?_) (.next ?_) <;> simp
  · exact .next (by simp)
theorem keeps_matchTimeout : Keeps (.matchTimeout h k) s := by
  dsimp -zeta only [Keeps, exec, touches, execMatchTimeout]
  split
  · refine .ite (.next ?_) (.next ?_) <;> simp
  · exact .next (by simp)
theorem keeps_changeCabinetLost : Keeps (.changeCabinetLost h k c) s := by
  dsimp -zeta only [Keeps, exec, touches, execChangeCabinetLost]
  split
  · extract_lets _ _ s₁ s₃ _ s₅
    refine .cut s₁ (by simp +contextual [s₁]) fun h₁ => ?_
    refine .cut s₃ (by simp (maxDischargeDepth := 8) +contextual [s₃, h₁]) fun h₃ => ?_
    refine .cut s₅ (by simp [s₅, h₃]) fun h₅ => ?_
    refine .ite (.next ?_) (.next ?_) <;> simp (maxDischargeDepth := 8) [h₅]
  · exact .next (by simp)
theorem keeps_uncommandedPoleOpen : Keeps (.uncommandedPoleOpen h n g) s := by
  dsimp -zeta only [Keeps, exec, touches, execUncommandedPoleOpen]
  refine .ite (.next ?_) (.next ?_) <;> simp
theorem keeps_cnpAssign : Keeps (.cnpAssign o k mask) s := by
  dsimp -zeta only [Keeps, exec, touches, execCnpAssign]
  exact .verb (by simp (maxDischargeDepth := 8)) fun _ _ _ hs => by simp (maxDischargeDepth := 8) +contextual [hs]
theorem keeps_cnpUnpin : Keeps (.cnpUnpin o k) s := by
  dsimp -zeta only [Keeps, exec, touches, execCnpUnpin]
  exact .verb (by simp (maxDischargeDepth := 8)) fun _ _ _ hs => by simp (maxDischargeDepth := 8) +contextual [hs]
theorem keeps_cnpPoleClear : Keeps (.cnpPoleClear o n mask) s := by
  dsimp -zeta only [Keeps, exec, touches, execCnpPoleClear]
  exact .verb (by simp (maxDischargeDepth := 8)) fun _ _ _ hs => by simp (maxDischargeDepth := 8) +contextual [hs]

/-! ### Temperatures (spec 09) -/

theorem keeps_thermalUpdate : Keeps (.thermalUpdate h) s := by
  dsimp -zeta only [Keeps, exec, touches, execThermalUpdate]
  refine .ite (.next ?_) (.next ?_) <;> simp (maxDischargeDepth := 8) +contextual
theorem keeps_ceilingSend : Keeps (.ceilingSend arrives) s := by
  dsimp -zeta only [Keeps, exec, touches, execCeilingSend]
  split
  · exact .next (by simp (maxDischargeDepth := 8))
  · split
    · exact .next (by simp)
    · refine .ite (.next ?_) (.next ?_) <;> simp (maxDischargeDepth := 8) +contextual
theorem keeps_ceilingStage : Keeps (.ceilingStage h) s := by
  dsimp -zeta only [Keeps, exec, touches, execCeilingStage]
  extract_lets x own l
  clear_value l
  split
  · exact .next (by simp)
  · exact .next (by simp (maxDischargeDepth := 8) +contextual)
theorem keeps_predictionDataComplete : Keeps (.predictionDataComplete h m) s := by
  dsimp -zeta only [Keeps, exec, touches, execPredictionDataComplete]
  refine .ite (.next ?_) (.next ?_) <;> simp
theorem keeps_modelInit : Keeps (.modelInit h m) s := by
  dsimp -zeta only [Keeps, exec, touches, execModelInit]
  refine .ite (.next ?_) (.next ?_) <;> simp
theorem keeps_sensorRecovered : Keeps (.sensorRecovered h m k) s := by
  dsimp -zeta only [Keeps, exec, touches, execSensorRecovered]
  refine .ite (.next ?_) (.next ?_) <;> simp
theorem keeps_sensorSuspect : Keeps (.sensorSuspect h m k) s := by
  dsimp -zeta only [Keeps, exec, touches, execSensorSuspect]
  refine .ite (.next ?_) (.next ?_) <;> simp (maxDischargeDepth := 8)
theorem keeps_sensorSuspectCleared : Keeps (.sensorSuspectCleared h m k) s := by
  dsimp -zeta only [Keeps, exec, touches, execSensorSuspectCleared]
  refine .ite (.next ?_) (.next ?_) <;> simp
theorem keeps_coolantRangeCleared : Keeps (.coolantRangeCleared h m) s := by
  dsimp -zeta only [Keeps, exec, touches, execCoolantRangeCleared]
  refine .ite (.next ?_) (.next ?_) <;> simp
theorem keeps_tjEstimate : Keeps (.tjEstimate h node powers) s := by
  dsimp -zeta only [Keeps, exec, touches, execTjEstimate]
  refine .ite (.next ?_) (.next ?_) <;> simp (maxDischargeDepth := 8)
theorem keeps_tjDiodeReset : Keeps (.tjDiodeReset h diode) s := by
  dsimp -zeta only [Keeps, exec, touches, execTjDiodeReset]
  refine .ite (.next ?_) (.next ?_) <;> simp
theorem keeps_throttleExit : Keeps (.throttleExit h) s := by
  dsimp -zeta only [Keeps, exec, touches, execThrottleExit]
  extract_lets
  split
  · refine .ite (.next ?_) (.next ?_) <;> simp
  · exact .next (by simp)
theorem keeps_derateUpdate : Keeps (.derateUpdate h) s := by
  dsimp -zeta only [Keeps, exec, touches, execDerateUpdate]
  extract_lets _ _ _ _ s₁
  refine .cut s₁ (by simp [s₁]) fun h₁ => ?_
  refine .ite (.next ?_) (.ite (.next ?_) (.next ?_)) <;> simp [h₁]
theorem keeps_thermalPowerDown : Keeps (.thermalPowerDown pkg) s := by
  dsimp -zeta only [Keeps, exec, touches, execThermalPowerDown]
  split
  · exact .next (by simp)
  · refine .ite (.next ?_) (.next ?_) <;> simp
theorem keeps_thermalEmergencyPowerDown : Keeps (.thermalEmergencyPowerDown pkg) s := by
  dsimp -zeta only [Keeps, exec, touches, execThermalEmergencyPowerDown]
  refine .ite (.next (by simp)) ?_
  split
  · refine .ite (.next ?_) (.next ?_) <;> simp
  · exact .next (by simp)
theorem keeps_thermalRestart : Keeps (.thermalRestart pkg) s := by
  dsimp -zeta only [Keeps, exec, touches, execThermalRestart]
  extract_lets r s₁ r₂ s₂
  refine .cut s₁ (by simp [-List.append_assoc, s₁]) fun h₁ => ?_
  refine .cut s₂ (by simp [-List.append_assoc, s₂, h₁]) fun h₂ => ?_
  refine .ite (.next (by simp [-List.append_assoc, h₁])) (.ite (.next h₁) ?_)
  split
  · exact .next h₁
  · exact .next (by simp [-List.append_assoc, h₂])
theorem keeps_thmRelease : Keeps (.thmRelease o) s := by
  dsimp -zeta only [Keeps, exec, touches, execThmRelease]
  exact .next (by simp (maxDischargeDepth := 8) +contextual)
theorem keeps_thmShutdownRead : Keeps (.thmShutdownRead o first count) s := by
  dsimp -zeta only [Keeps, exec, touches, execThmShutdownRead]
  exact .next (by simp (maxDischargeDepth := 8) +contextual)
theorem keeps_flashWriteResume : Keeps (.flashWriteResume h) s := by
  dsimp -zeta only [Keeps, exec, touches, execFlashWriteResume]
  extract_lets
  split
  · refine .ite (.next ?_) (.next ?_) <;> simp
  · exact .next (by simp)

/-! ### Vehicle sessions (spec 10) -/

theorem keeps_bntcSample : Keeps (.bntcSample t) s := by
  dsimp -zeta only [Keeps, exec, touches, execBntcSample]
  extract_lets _ _ _ _ _ _ _ s₁
  refine .cut s₁ (by simp [s₁]) fun h₁ => ?_
  refine .ite (.next ?_) (.next ?_) <;> simp [h₁]
theorem keeps_pilotStateChange : Keeps (.pilotStateChange k) s := by
  dsimp -zeta only [Keeps, exec, touches, execPilotStateChange]
  refine .ite (.next ?_) (.ite (.next ?_) (.ite (.next ?_) (.ite (.next ?_) (.ite (.next ?_) (.ite (.next ?_) (.ite (.next ?_) (.ite (.next ?_) (.next ?_)))))))) <;> simp (maxDischargeDepth := 8)
theorem keeps_slacMessage : Keeps (.slacMessage k run sounds) s := by
  dsimp -zeta only [Keeps, exec, touches, execSlacMessage]
  refine .ite (.next ?_) (.next ?_) <;> simp
theorem keeps_slacMatch : Keeps (.slacMatch k run) s := by
  dsimp -zeta only [Keeps, exec, touches, execSlacMatch]
  refine .ite (.next ?_) (.next ?_) <;> simp (maxDischargeDepth := 8)
theorem keeps_vehicleMessage : Keeps (.vehicleMessage k m) s := by
  dsimp -zeta only [Keeps, exec, touches, execVehicleMessage]
  refine .ite (.next ?_) (.next ?_) <;> simp (maxDischargeDepth := 8)
theorem keeps_sessionStateTimeout : Keeps (.sessionStateTimeout k seq) s := by
  dsimp -zeta only [Keeps, exec, touches, execSessionStateTimeout]
  extract_lets
  refine .ite (.next (by simp)) ?_
  refine .ite (.next (by simp)) ?_
  split
  · exact .next (by simp)
  · exact .next (by simp)
theorem keeps_sessionStop : Keeps (.sessionStop k cause) s := by
  dsimp -zeta only [Keeps, exec, touches, execSessionStop]
  refine .ite (.next ?_) (.next ?_) <;> simp
theorem keeps_stoppingComplete : Keeps (.stoppingComplete k) s := by
  dsimp -zeta only [Keeps, exec, touches, execStoppingComplete]
  refine .ite (.next ?_) (.next ?_) <;> simp
theorem keeps_weldCheckComplete : Keeps (.weldCheckComplete k) s := by
  dsimp -zeta only [Keeps, exec, touches, execWeldCheckComplete]
  refine .ite (.next ?_) (.next ?_) <;> simp
theorem keeps_vehicleStopGraceExpiry : Keeps (.vehicleStopGraceExpiry k) s := by
  dsimp -zeta only [Keeps, exec, touches, execVehicleStopGraceExpiry]
  extract_lets
  split
  · refine .ite (.next ?_) (.next ?_) <;> simp
  · exact .next (by simp)
theorem keeps_coolantSessionTimeout : Keeps (.coolantSessionTimeout k) s := by
  dsimp -zeta only [Keeps, exec, touches, execCoolantSessionTimeout]
  refine .ite (.next ?_) (.next ?_) <;> simp
theorem keeps_vehicleLimitsStage : Keeps (.vehicleLimitsStage arrives) s := by
  dsimp -zeta only [Keeps, exec, touches, execVehicleLimitsStage]
  split
  · exact .next (by simp)
  · extract_lets _ s₁ _ s₂ _
    refine .cut s₁ (by simp [s₁]) fun h₁ => ?_
    refine .cut s₂ (by simp [s₂, h₁]) fun h₂ => ?_
    refine .ite (.next ?_) (.ite (.next ?_) (.ite (.next ?_) (.next ?_))) <;> simp [h₂]
theorem keeps_dcmdSend : Keeps (.dcmdSend k ahead) s := by
  dsimp -zeta only [Keeps, exec, touches, execDcmdSend]
  split
  · exact .next (by simp)
  · refine .ite (.next ?_) (.next ?_) <;> simp (maxDischargeDepth := 8)
theorem keeps_dcmdApply : Keeps (.dcmdApply k) s := by
  dsimp -zeta only [Keeps, exec, touches, execDcmdApply]
  extract_lets
  split
  · exact .next (by simp)
  · refine .ite (.next ?_) (.next ?_) <;> simp
theorem keeps_sessionKeyOrphaned : Keeps (.sessionKeyOrphaned k) s := by
  dsimp -zeta only [Keeps, exec, touches, execSessionKeyOrphaned]
  split
  · exact .next (by simp)
  · refine .ite (.next ?_) (.next ?_) <;> simp
theorem keeps_sessionFailoverResume : Keeps (.sessionFailoverResume h) s := by
  dsimp -zeta only [Keeps, exec, touches, execSessionFailoverResume]
  refine .ite (.next ?_) (.next ?_) <;> simp +contextual
theorem keeps_sessionMirrorAck : Keeps (.sessionMirrorAck k) s := by
  dsimp -zeta only [Keeps, exec, touches, execSessionMirrorAck]
  split
  · exact .next (by simp)
  · refine .ite (.next ?_) (.next ?_) <;> simp (maxDischargeDepth := 8) +contextual
theorem keeps_vehAuth : Keeps (.vehAuth o k flags num) s := by
  dsimp -zeta only [Keeps, exec, touches, execVehAuth]
  exact .verb (by simp (maxDischargeDepth := 8)) fun _ _ _ hs => by simp (maxDischargeDepth := 8) [hs]
theorem keeps_vehStop : Keeps (.vehStop o k num) s := by
  dsimp -zeta only [Keeps, exec, touches, execVehStop]
  exact .verb (by simp) fun _ _ _ hs => by simp (maxDischargeDepth := 8) [hs]
theorem keeps_vehList : Keeps (.vehList o add kind rfid) s := by
  dsimp -zeta only [Keeps, exec, touches, execVehList]
  exact .verb (by simp) fun _ _ _ hs => by simp (maxDischargeDepth := 8) [hs]
theorem keeps_vehStatus : Keeps (.vehStatus o k) s := by
  dsimp -zeta only [Keeps, exec, touches, execVehStatus]
  exact .verb (by simp) fun _ _ _ hs => by simp [hs]

/-! ### Metrology (spec 11) -/

theorem keeps_meteringSampleClose : Keeps (.meteringSampleClose k) s := by
  dsimp -zeta only [Keeps, exec, touches, execMeteringSampleClose]
  extract_lets mine s₁ met s₂ s₃ s₄ m s₅
  refine .cut s₁ (by simp [s₁]) fun h₁ => ?_
  refine .cut s₂ (by simp [s₂, h₁]) fun h₂ => ?_
  refine .cut s₃ (by simp [s₃, h₂]) fun h₃ => ?_
  refine .cut s₄ (by simp [s₄, h₃]) fun h₄ => ?_
  refine .cut s₅ (by simp [s₅, h₃]) fun h₅ => ?_
  refine .ite (.next (Frame.refl _ _)) ?_
  split
  · exact .next (by simp [h₄])
  · exact .ite (.next (by simp [h₅])) (.ite (.next (by simp [h₅])) (.next h₅))
theorem keeps_acBlock : Keeps (.acBlock ix raw) s := by
  dsimp -zeta only [Keeps, exec, touches, execAcBlock]
  extract_lets _ _ _ _ _ _ _ _ _ _ _ _ s₁ s₂ s₃ _
  refine .cut s₁ (by simp [s₁]) fun h₁ => ?_
  refine .cut s₂ (by simp (maxDischargeDepth := 8) [s₂, h₁]) fun h₂ => ?_
  refine .cut s₃ (by simp [s₃, h₂]) fun h₃ => ?_
  refine .ite (.next ?_) (.next ?_) <;> simp (maxDischargeDepth := 8) [h₃]
theorem keeps_dualIntegrationCompare : Keeps (.dualIntegrationCompare src inc2) s := by
  dsimp -zeta only [Keeps, exec, touches, execDualIntegrationCompare]
  extract_lets m skip diff clear s₁ s₂
  have hclear {u} (hu : Frame (bothMbx ++ [.free, .regs .met, .met, .bil]) s u) : Frame (bothMbx ++ [.free, .regs .met, .met, .bil]) s (clear u) :=
    .after_mMeter _ _ hu (by simp)
  refine .cut s₁ (by simp +contextual [s₁]) fun h₁ => ?_
  refine .cut s₂ (by simp [s₂, h₁]) fun h₂ => ?_
  refine .ite (.next (Frame.refl _ _)) (.ite (.next (hclear (Frame.refl _ _))) (.ite (.next (hclear (by simp))) (.next ?_)))
  exact .after_noteErr _ (hclear (.after_mMeter _ _ h₂ (by simp))) (by simp)
theorem keeps_pulseEmit : Keeps (.pulseEmit n) s := by
  dsimp -zeta only [Keeps, exec, touches, execPulseEmit]
  refine .ite (.next ?_) (.next ?_) <;> simp
theorem keeps_testPulseOutput : Keeps (.testPulseOutput n) s := by
  dsimp -zeta only [Keeps, exec, touches, execTestPulseOutput]
  refine .ite (.next ?_) (.next ?_) <;> simp
theorem keeps_adcReferenceCheck : Keeps (.adcReferenceCheck ok) s := by
  dsimp -zeta only [Keeps, exec, touches, execAdcReferenceCheck]
  exact .next (by simp)
theorem keeps_sealedParameterCheck : Keeps (.sealedParameterCheck ok) s := by
  dsimp -zeta only [Keeps, exec, touches, execSealedParameterCheck]
  exact .next (by simp)
theorem keeps_islandFirmwareCheck : Keeps (.islandFirmwareCheck ok) s := by
  dsimp -zeta only [Keeps, exec, touches, execIslandFirmwareCheck]
  exact .next (by simp)
theorem keeps_islandWatchdogExpiry : Keeps (.islandWatchdogExpiry) s := by
  dsimp -zeta only [Keeps, exec, touches, execIslandWatchdogExpiry]
  exact .next (by simp)
theorem keeps_intakeSupervision : Keeps (.intakeSupervision ix r) s := by
  dsimp -zeta only [Keeps, exec, touches, execIntakeSupervision]
  extract_lets _ _ _ _ s₁ s₂ _ _ _ _ _
  refine .cut s₁ (by simp [s₁]) fun h₁ => ?_
  refine .cut s₂ (by simp [s₂, h₁]) fun h₂ => ?_
  refine .ite (.next ?_) (.ite (.next ?_) (.next ?_)) <;> simp (maxDischargeDepth := 8) [h₂]
theorem keeps_batteryOperationEntry : Keeps (.batteryOperationEntry s4) s := by
  dsimp -zeta only [Keeps, exec, touches, execBatteryOperationEntry]
  refine .ite (.next ?_) (.next ?_) <;> simp (maxDischargeDepth := 8) +contextual
theorem keeps_batteryOperationEnd : Keeps (.batteryOperationEnd lowV) s := by
  dsimp -zeta only [Keeps, exec, touches, execBatteryOperationEnd]
  refine .ite (.next ?_) (.next ?_) <;> simp
theorem keeps_tamperSample : Keeps (.tamperSample levels) s := by
  dsimp -zeta only [Keeps, exec, touches, execTamperSample]
  exact .next (by simp (maxDischargeDepth := 8) +contextual)
theorem keeps_metInst : Keeps (.metInst o src) s := by
  dsimp -zeta only [Keeps, exec, touches, execMetInst]
  exact .verb (by simp) fun _ _ _ hs => by simp [hs]
theorem keeps_metLogRead : Keeps (.metLogRead o log first count) s := by
  dsimp -zeta only [Keeps, exec, touches, execMetLogRead]
  exact .verb (by simp (maxDischargeDepth := 8)) fun _ _ _ hs => by simp (maxDischargeDepth := 8) [hs]
theorem keeps_metBattRead : Keeps (.metBattRead o ix) s := by
  dsimp -zeta only [Keeps, exec, touches, execMetBattRead]
  exact .verb (by simp) fun _ _ _ hs => by simp [hs]

/-! ### Billing (spec 12) -/

theorem keeps_demandIntervalClose : Keeps (.demandIntervalClose ix) s := by
  dsimp -zeta only [Keeps, exec, touches, execDemandIntervalClose]
  refine .ite (.next ?_) (.next ?_) <;> simp
theorem keeps_billingPeriodClose : Keeps (.billingPeriodClose) s := by
  dsimp -zeta only [Keeps, exec, touches, execBillingPeriodClose]
  exact .next (by simp)
theorem keeps_bilClose : Keeps (.bilClose o) s := by
  dsimp -zeta only [Keeps, exec, touches, execBilClose]
  exact .verb (by simp (maxDischargeDepth := 8)) fun _ _ _ hs => by simp (maxDischargeDepth := 8) [hs]
theorem keeps_tariffActivation : Keeps (.tariffActivation) s := by
  dsimp -zeta only [Keeps, exec, touches, execTariffActivation]
  exact .next (by simp)
theorem keeps_rateSwitch : Keeps (.rateSwitch) s := by
  dsimp -zeta only [Keeps, exec, touches, execRateSwitch]
  exact .next (by simp)
theorem keeps_billingSave : Keeps (.billingSave) s := by
  dsimp -zeta only [Keeps, exec, touches, execBillingSave]
  refine .ite (.next ?_) (.next ?_) <;> simp (maxDischargeDepth := 8)
theorem keeps_powerFailSave : Keeps (.powerFailSave low) s := by
  dsimp -zeta only [Keeps, exec, touches, execPowerFailSave]
  refine .ite (.next ?_) (.next ?_) <;> simp
theorem keeps_billingRestore : Keeps (.billingRestore ok0 ok1 time) s := by
  dsimp -zeta only [Keeps, exec, touches, execBillingRestore]
  refine .ite (.next ?_) (.next ?_) <;> simp
theorem keeps_billingGapCatchup : Keeps (.billingGapCatchup) s := by
  dsimp -zeta only [Keeps, exec, touches, execBillingGapCatchup]
  refine .ite (.next ?_) (.next ?_) <;> simp
theorem keeps_timeValidRestored : Keeps (.timeValidRestored) s := by
  dsimp -zeta only [Keeps, exec, touches, execTimeValidRestored]
  refine .ite (.next ?_) (.next ?_) <;> simp
theorem keeps_lomvorRecord : Keeps (.lomvorRecord k sigs) s := by
  dsimp -zeta only [Keeps, exec, touches, execLomvorRecord]
  refine .ite (.next ?_) (.next ?_) <;> simp
theorem keeps_displayDwell : Keeps (.displayDwell) s := by
  dsimp -zeta only [Keeps, exec, touches, execDisplayDwell]
  refine .ite (.next ?_) (.next ?_) <;> simp
theorem keeps_keyA : Keeps (.keyA) s := by
  dsimp -zeta only [Keeps, exec, touches, execKeyA]
  exact .next (by simp)
theorem keeps_keyB : Keeps (.keyB) s := by
  dsimp -zeta only [Keeps, exec, touches, execKeyB]
  exact .next (by simp)
theorem keeps_keyC : Keeps (.keyC) s := by
  dsimp -zeta only [Keeps, exec, touches, execKeyC]
  exact .next (by simp)
theorem keeps_keyD : Keeps (.keyD) s := by
  dsimp -zeta only [Keeps, exec, touches, execKeyD]
  exact .next (by simp)
theorem keeps_tokenEntry : Keeps (.tokenEntry out d) s := by
  dsimp -zeta only [Keeps, exec, touches, execTokenEntry]
  refine .ite (.next ?_) (.next ?_) <;> simp
theorem keeps_keypad : Keeps (.keypad h p) s := by
  dsimp -zeta only [Keeps, exec, touches, execKeypad]
  split
  · exact .next (Frame.refl _ _)
  next e =>
    refine .cut _ (Frame.of_takeMsg (Frame.refl _ s) (by cases h <;> simp) e) fun h₁ => ?_
    refine .ite (.next ?_) (.ite (.next ?_) (.next ?_)) <;> simp [h₁]
theorem keeps_tokenEntryTimeout : Keeps (.tokenEntryTimeout) s := by
  dsimp -zeta only [Keeps, exec, touches, execTokenEntryTimeout]
  split
  · refine .ite (.next ?_) (.next ?_) <;> simp
  · exact .next (by simp)
theorem keeps_keypadLockoutEnd : Keeps (.keypadLockoutEnd src) s := by
  dsimp -zeta only [Keeps, exec, touches, execKeypadLockoutEnd]
  refine .ite (.next ?_) (.next ?_) <;> simp
theorem keeps_creditReport : Keeps (.creditReport k) s := by
  dsimp -zeta only [Keeps, exec, touches, execCreditReport]
  split
  · exact .next (by simp)
  · extract_lets _ s₁ _
    refine .cut s₁ (by simp [s₁]) fun h₁ => ?_
    refine .ite (.next ?_) (.next ?_) <;> simp [h₁]
theorem keeps_bilRead : Keeps (.bilRead o src q) s := by
  dsimp -zeta only [Keeps, exec, touches, execBilRead]
  exact .verb (by simp (maxDischargeDepth := 8)) fun _ _ _ hs => by simp (maxDischargeDepth := 8) [hs]
theorem keeps_bilTariffLoad : Keeps (.bilTariffLoad o obj) s := by
  dsimp -zeta only [Keeps, exec, touches, execBilTariffLoad]
  exact .verb (by simp) fun _ _ _ hs => by simp (maxDischargeDepth := 8) [hs]
theorem keeps_bilTariffRead : Keeps (.bilTariffRead o which) s := by
  dsimp -zeta only [Keeps, exec, touches, execBilTariffRead]
  refine .verb (by simp) fun _ _ _ h₁ => ?_
  split
  · simp [h₁]
  · split <;> simp [h₁]
  · simp [h₁]
theorem keeps_bilPeriodRead : Keeps (.bilPeriodRead o n) s := by
  dsimp -zeta only [Keeps, exec, touches, execBilPeriodRead]
  refine .verb (by simp) fun _ _ _ h₁ => ?_
  split <;> simp [h₁]
theorem keeps_bilIntervalRead : Keeps (.bilIntervalRead o ix first count) s := by
  dsimp -zeta only [Keeps, exec, touches, execBilIntervalRead]
  exact .verb (by simp (maxDischargeDepth := 8)) fun _ _ _ hs => by simp (maxDischargeDepth := 8) [hs]
theorem keeps_bilRecordRead : Keeps (.bilRecordRead o n) s := by
  dsimp -zeta only [Keeps, exec, touches, execBilRecordRead]
  refine .verb (by simp) fun _ _ _ h₁ => ?_
  split <;> simp [h₁]
theorem keeps_bilLedgerRead : Keeps (.bilLedgerRead o first count) s := by
  dsimp -zeta only [Keeps, exec, touches, execBilLedgerRead]
  exact .verb (by simp (maxDischargeDepth := 8)) fun _ _ _ hs => by simp (maxDischargeDepth := 8) [hs]
theorem keeps_demandCapStage : Keeps (.demandCapStage ix) s := by
  dsimp -zeta only [Keeps, exec, touches, execDemandCapStage]
  refine .ite (.next ?_) (.next ?_) <;> simp

/-! ### Locket (spec 13) -/

theorem keeps_lktGenerate : Keeps (.lktGenerate o tx attr) s := by
  dsimp -zeta only [Keeps, exec, touches, execLktGenerate]
  exact .next (by simp)
theorem keeps_lktImport : Keeps (.lktImport o tx attr key wrapped) s := by
  dsimp -zeta only [Keeps, exec, touches, execLktImport]
  exact .next (by simp)
theorem keeps_lktDerive : Keeps (.lktDerive o tx attr info) s := by
  dsimp -zeta only [Keeps, exec, touches, execLktDerive]
  exact .next (by simp)
theorem keeps_lktAgree : Keeps (.lktAgree o tx attr method z) s := by
  dsimp -zeta only [Keeps, exec, touches, execLktAgree]
  exact .next (by simp)
theorem keeps_lktInvalidate : Keeps (.lktInvalidate o tx handle) s := by
  dsimp -zeta only [Keeps, exec, touches, execLktInvalidate]
  refine .keyVerb (by simp) (by simp) fun _ _ _ h₁ => ?_
  split <;> simp (maxDischargeDepth := 8) [h₁]
theorem keeps_lktInfo : Keeps (.lktInfo o handle) s := by
  dsimp -zeta only [Keeps, exec, touches, execLktInfo]
  refine .verb (by simp) fun _ _ _ h₁ => ?_
  split <;> simp [h₁]
theorem keeps_lktPublic : Keeps (.lktPublic o handle pub) s := by
  dsimp -zeta only [Keeps, exec, touches, execLktPublic]
  refine .verb (by simp) fun _ _ _ h₁ => ?_
  split
  · refine .ite ?_ ?_ <;> simp [h₁]
  · simp [h₁]
theorem keeps_lktPair : Keeps (.lktPair o tx kind port rid z) s := by
  dsimp -zeta only [Keeps, exec, touches, execLktPair]
  refine .keyVerb (by simp) (by simp) fun u _ _ h₁ => ?_
  extract_lets pair st bind s₂
  refine .after_ite (by simp [h₁]) (.after_ite (by simp [h₁]) (.after_ite (by simp [h₁]) ?_))
  split
  · simp [h₁]
  · refine .after_ite (by simp [h₁]) (.after_ite (by simp [h₁]) (.after_ite (by simp [h₁]) (.after_ite (by simp [h₁]) ?_)))
    refine .cut s₂ (by unfold s₂; split <;> simp [h₁]) fun h₂ => ?_
    split
    · simp [h₂]
    · split
      · simp [h₂]
      · simp (maxDischargeDepth := 8) [h₂]
theorem keeps_lktRoll : Keeps (.lktRoll o tx port) s := by
  dsimp -zeta only [Keeps, exec, touches, execLktRoll]
  refine .keyVerb (by simp) (by simp) fun _ _ _ h₁ => ?_
  split
  · simp [h₁]
  · split
    · simp [h₁]
    · refine .after_ite (by simp [h₁]) (.after_ite (by simp [h₁]) (.after_ite (by simp [h₁]) ?_))
      split <;> simp (maxDischargeDepth := 8) [h₁]
theorem keeps_keyrollAckDeadline : Keeps (.keyrollAckDeadline p) s := by
  dsimp -zeta only [Keeps, exec, touches, execKeyrollAckDeadline]
  split
  · exact .next (by simp)
  · refine .ite (.next ?_) (.next ?_) <;> simp (maxDischargeDepth := 8)
theorem keeps_keyrollSwitch : Keeps (.keyrollSwitch p) s := by
  dsimp -zeta only [Keeps, exec, touches, execKeyrollSwitch]
  split
  · exact .next (by simp)
  · refine .ite (.next ?_) (.next ?_) <;> simp
theorem keeps_keyrollRetire : Keeps (.keyrollRetire p) s := by
  dsimp -zeta only [Keeps, exec, touches, execKeyrollRetire]
  split
  · exact .next (by simp)
  · refine .ite (.next ?_) (.next ?_) <;> simp (maxDischargeDepth := 8)
theorem keeps_lktAttest : Keeps (.lktAttest o nonce subject pubhash sigs) s := by
  dsimp -zeta only [Keeps, exec, touches, execLktAttest]
  refine .verb (by simp) fun _ _ _ h₁ => ?_
  extract_lets
  refine .after_ite (by simp [h₁]) ?_
  refine .after_ite (by simp [h₁]) ?_
  split <;> simp [h₁]
theorem keeps_lktOp : Keeps (.lktOp o handle op subject long iv data given) s := by
  dsimp -zeta only [Keeps, exec, touches, execLktOp]
  refine .verb (by simp) fun _ _ _ h₁ => ?_
  split
  · simp [h₁]
  · extract_lets
    refine .after_ite (by simp [h₁]) ?_
    refine .after_ite (by simp [h₁]) ?_
    split
    · simp [h₁]
    · refine .ite ?_ ?_ <;> simp [h₁]
theorem keeps_lktTxquery : Keeps (.lktTxquery o tx) s := by
  dsimp -zeta only [Keeps, exec, touches, execLktTxquery]
  refine .verb (by simp) fun _ _ _ h₁ => ?_
  split <;> simp [h₁]
theorem keeps_invalidationCutoff : Keeps (.invalidationCutoff handle) s := by
  dsimp -zeta only [Keeps, exec, touches, execInvalidationCutoff]
  split
  · exact .next (by simp)
  · extract_lets s₁ s₂
    refine .cut s₁ (by simp [s₁]) fun h₁ => ?_
    refine .cut s₂ (by simp [s₂, h₁]) fun h₂ => ?_
    refine .ite (.next (by simp)) ?_
    split
    · exact .next (by simp [h₂])
    · exact .next (by simp [h₂])
theorem keeps_orphanedOperationAbort : Keeps (.orphanedOperationAbort o) s := by
  dsimp -zeta only [Keeps, exec, touches, execOrphanedOperationAbort]
  split
  · exact .next (by simp)
  · refine .ite (.next ?_) (.next ?_) <;> simp
theorem keeps_locketSweep : Keeps (.locketSweep) s := by
  dsimp -zeta only [Keeps, exec, touches, execLocketSweep]
  exact .next (by simp)
theorem keeps_journalRecovery : Keeps (.journalRecovery) s := by
  dsimp -zeta only [Keeps, exec, touches, execJournalRecovery]
  refine .ite (.next ?_) (.next ?_) <;> simp (maxDischargeDepth := 8)
theorem keeps_materialTagFault : Keeps (.materialTagFault idx) s := by
  dsimp -zeta only [Keeps, exec, touches, execMaterialTagFault]
  split
  · exact .next (by simp)
  · exact .next (by simp (maxDischargeDepth := 8))

/-! ### The safety island (spec 14) -/

theorem keeps_safetyInputSample : Keeps (.safetyInputSample a b) s := by
  dsimp -zeta only [Keeps, exec, touches, execSafetyInputSample]
  exact .next (by simp +contextual)
theorem keeps_safetyDiscrepancy : Keeps (.safetyDiscrepancy n) s := by
  dsimp -zeta only [Keeps, exec, touches, execSafetyDiscrepancy]
  extract_lets w s₁
  refine .cut s₁ (by simp (maxDischargeDepth := 8) [s₁]) fun h₁ => ?_
  split
  · exact .next (Frame.refl _ _)
  · exact .ite (.next (by simp [h₁])) (.next (Frame.refl _ _))
theorem keeps_channelCompare : Keeps (.channelCompare differ pdus) s := by
  dsimp -zeta only [Keeps, exec, touches, execChannelCompare]
  extract_lets _ _ s₁ s₂ s₃
  refine .cut s₁ (by simp [s₁]) fun h₁ => ?_
  refine .cut s₂ (by simp [s₂, h₁]) fun h₂ => ?_
  refine .cut s₃ (by simp [s₃, h₂]) fun h₃ => ?_
  refine .ite (.next ?_) (.next ?_) <;> simp [h₁, h₃]
theorem keeps_safetyConfigCrcCheck : Keeps (.safetyConfigCrcCheck sp hw) s := by
  dsimp -zeta only [Keeps, exec, touches, execSafetyConfigCrcCheck]
  refine .ite (.next ?_) (.ite (.next ?_) (.next ?_)) <;> simp
theorem keeps_islandInternalReset : Keeps (.islandInternalReset) s := by
  dsimp -zeta only [Keeps, exec, touches, execIslandInternalReset]
  exact .next (by simp)
theorem keeps_safetyTestPulse : Keeps (.safetyTestPulse n low passed) s := by
  dsimp -zeta only [Keeps, exec, touches, execSafetyTestPulse]
  extract_lets s₁
  refine .cut s₁ (by simp (maxDischargeDepth := 8) [s₁]) fun h₁ => ?_
  exact .ite (.next (Frame.refl _ _)) (.ite (.ite (.next (Frame.refl _ _)) (.next (by simp))) (.next (by simp [h₁])))
theorem keeps_contactorFeedbackChange : Keeps (.contactorFeedbackChange n g isOpen) s := by
  dsimp -zeta only [Keeps, exec, touches, execContactorFeedbackChange]
  split
  · extract_lets _ _ s₁
    refine .cut s₁ (by simp [s₁]) fun h₁ => ?_
    refine .ite (.next ?_) (.next ?_) <;> simp [h₁]
  · refine .ite (.next ?_) (.next ?_) <;> simp
theorem keeps_feedbackTimeout : Keeps (.feedbackTimeout n g) s := by
  dsimp -zeta only [Keeps, exec, touches, execFeedbackTimeout]
  split
  · refine .ite (.ite (.next ?_) (.ite (.next ?_) (.next ?_))) (.next ?_) <;> simp
  · refine .ite (.next ?_) (.ite (.next ?_) (.next ?_)) <;> simp
theorem keeps_zoneDemand : Keeps (.zoneDemand z) s := by
  dsimp -zeta only [Keeps, exec, touches, execZoneDemand]
  split
  · exact .next (by simp)
  · exact .next (by simp)
theorem keeps_envelopeViolation : Keeps (.envelopeViolation z) s := by
  dsimp -zeta only [Keeps, exec, touches, execEnvelopeViolation]
  split
  · refine .ite (.next ?_) (.next ?_) <;> simp
  · exact .next (by simp)
theorem keeps_energyRemoval : Keeps (.energyRemoval z) s := by
  dsimp -zeta only [Keeps, exec, touches, execEnergyRemoval]
  refine .ite (.next ?_) (.next ?_) <;> simp
theorem keeps_safeStopTimeout : Keeps (.safeStopTimeout z) s := by
  dsimp -zeta only [Keeps, exec, touches, execSafeStopTimeout]
  refine .ite (.next ?_) (.next ?_) <;> simp
theorem keeps_stoTimeout : Keeps (.stoTimeout k) s := by
  dsimp -zeta only [Keeps, exec, touches, execStoTimeout]
  refine .ite (.next ?_) (.next ?_) <;> simp
theorem keeps_resetPulse : Keeps (.resetPulse src) s := by
  dsimp -zeta only [Keeps, exec, touches, execResetPulse]
  split
  · exact .next (by simp)
  · extract_lets s₁
    refine .cut s₁ (by simp [s₁]) fun h₁ => ?_
    refine .ite (.next ?_) (.ite (.next ?_) (.next ?_)) <;> simp +contextual [h₁]
theorem keeps_resetJammed : Keeps (.resetJammed src) s := by
  dsimp -zeta only [Keeps, exec, touches, execResetJammed]
  split
  · refine .ite (.next ?_) (.next ?_) <;> simp (maxDischargeDepth := 8)
  · exact .next (by simp)
theorem keeps_zoneReset : Keeps (.zoneReset z) s := by
  dsimp -zeta only [Keeps, exec, touches, execZoneReset]
  refine .ite (.next ?_) (.next ?_) <;> simp
theorem keeps_safetyStateDelivery : Keeps (.safetyStateDelivery) s := by
  dsimp -zeta only [Keeps, exec, touches, execSafetyStateDelivery]
  extract_lets v s₁
  refine .cut s₁ (by simp [s₁]) fun h₁ => ?_
  refine .next (.after_foldl _ _ (fun _ _ h₂ => .after_foldl _ _ (fun _ _ h₃ => .after_ite h₃ (by simp [h₃])) h₂) h₁)
theorem keeps_harvitorPduReceived : Keeps (.harvitorPduReceived n b) s := by
  dsimp -zeta only [Keeps, exec, touches, execHarvitorPduReceived]
  extract_lets
  split
  · exact .next (by simp)
  · exact .next (by simp)
  · refine .ite (.next ?_) (.next ?_) <;> simp
  · exact .next (by simp)
theorem keeps_harvitorTimeout : Keeps (.harvitorTimeout n) s := by
  dsimp -zeta only [Keeps, exec, touches, execHarvitorTimeout]
  refine .ite (.next ?_) (.next ?_) <;> simp (maxDischargeDepth := 8)
theorem keeps_harvitorDownlinkBuild : Keeps (.harvitorDownlinkBuild delivered) s := by
  dsimp -zeta only [Keeps, exec, touches, execHarvitorDownlinkBuild]
  refine .ite (.next (Frame.refl _ _)) ?_
  extract_lets s₁ s₂ s₃
  refine .cut s₁ (by simp [s₁]) fun h₁ => ?_
  refine .cut s₂ (by unfold s₂; split <;> simp [h₁]) fun h₂ => ?_
  refine .cut s₃ (by simp +contextual [s₃, h₂]) fun h₃ => ?_
  exact .next (by simp +contextual [h₃])
theorem keeps_harvitorCycleSend : Keeps (.harvitorCycleSend n) s := by
  dsimp -zeta only [Keeps, exec, touches, execHarvitorCycleSend]
  extract_lets _ _ _ s₁ _ _ _
  refine .cut s₁ (by simp [s₁]) fun h₁ => ?_
  refine .ite (.ite (.next ?_) (.ite (.ite (.next ?_) (.next ?_)) (.ite (.next ?_) (.next ?_)))) (.next ?_) <;> simp [h₁]
theorem keeps_safStop : Keeps (.safStop o mask) s := by
  dsimp -zeta only [Keeps, exec, touches, execSafStop]
  exact .verb (by simp) fun _ _ _ hs => by simp [hs]
theorem keeps_safFaultClear : Keeps (.safFaultClear o mask) s := by
  dsimp -zeta only [Keeps, exec, touches, execSafFaultClear]
  exact .verb (by simp (maxDischargeDepth := 8)) fun _ _ _ hs => by simp (maxDischargeDepth := 8) +contextual [hs]
theorem keeps_safLogRead : Keeps (.safLogRead o first count) s := by
  dsimp -zeta only [Keeps, exec, touches, execSafLogRead]
  exact .verb (by simp) fun _ _ _ hs => by simp [hs]

/-! ### Mailboxes (spec 15) -/

theorem keeps_sqTailDoorbell : Keeps (.sqTailDoorbell h n v) s := by
  dsimp -zeta only [Keeps, exec, touches, execSqTailDoorbell]
  exact .next (by simp)
theorem keeps_commandFetch : Keeps (.commandFetch h n d) s := by
  dsimp -zeta only [Keeps, exec, touches, execCommandFetch]
  extract_lets _ _ _ s₁ s₂
  refine .cut s₁ (by simp [s₁]) fun h₁ => ?_
  refine .cut s₂ (by simp [s₂, h₁]) fun h₂ => ?_
  refine .ite (.next ?_) (.ite (.next ?_) (.ite (.next ?_) (.ite (.next ?_) (.next ?_)))) <;> simp [h₂]
theorem keeps_forwardWaitTimeout : Keeps (.forwardWaitTimeout o) s := by
  dsimp -zeta only [Keeps, exec, touches, execForwardWaitTimeout]
  split
  · exact .next (by simp)
  · refine .ite (.next ?_) (.next ?_) <;> simp
theorem keeps_completionWrite : Keeps (.completionWrite h) s := by
  dsimp -zeta only [Keeps, exec, touches, execCompletionWrite]
  split
  · exact .next (by simp)
  · extract_lets _ s₁ _ s₂ s₃
    refine .cut s₁ (by simp (maxDischargeDepth := 8) [s₁]) fun h₁ => ?_
    refine .cut s₂ (by simp [s₂, h₁]) fun h₂ => ?_
    refine .cut s₃ (by simp (maxDischargeDepth := 8) [s₃, h₂]) fun h₃ => ?_
    refine .ite (.next ?_) (.next ?_) <;> simp [h₁, h₃]
theorem keeps_cqHeadWrite : Keeps (.cqHeadWrite h n v) s := by
  dsimp -zeta only [Keeps, exec, touches, execCqHeadWrite]
  exact .next (by simp)
theorem keeps_msixCoalesceTimeout : Keeps (.msixCoalesceTimeout h n) s := by
  dsimp -zeta only [Keeps, exec, touches, execMsixCoalesceTimeout]
  refine .ite (.next ?_) (.next ?_) <;> simp
theorem keeps_ringDmaFault : Keeps (.ringDmaFault h n) s := by
  dsimp -zeta only [Keeps, exec, touches, execRingDmaFault]
  refine .ite (.next ?_) (.next ?_) <;> simp (maxDischargeDepth := 8)
theorem keeps_ringEnableWrite : Keeps (.ringEnableWrite h n en) s := by
  dsimp -zeta only [Keeps, exec, touches, execRingEnableWrite]
  exact .next (by simp)
theorem keeps_mailboxDatagram : Keeps (.mailboxDatagram h n d) s := by
  dsimp -zeta only [Keeps, exec, touches, execMailboxDatagram]
  extract_lets
  refine .ite (.next (by simp)) ?_
  split <;> refine .ite (.next ?_) (.next ?_) <;> simp
theorem keeps_datagramResendTimeout : Keeps (.datagramResendTimeout h n seq) s := by
  dsimp -zeta only [Keeps, exec, touches, execDatagramResendTimeout]
  split
  · exact .next (by simp)
  · split
    · exact .next (by simp)
    · refine .ite (.next ?_) (.ite (.next ?_) (.next ?_)) <;> simp
theorem keeps_bindingIdleExpiry : Keeps (.bindingIdleExpiry h n) s := by
  dsimp -zeta only [Keeps, exec, touches, execBindingIdleExpiry]
  split
  · refine .ite (.next ?_) (.next ?_) <;> simp
  · exact .next (by simp)
theorem keeps_sysInfo : Keeps (.sysInfo o) s := by
  dsimp -zeta only [Keeps, exec, touches, execSysInfo]
  exact .verbHere (by simp) fun _ _ hs => by simp [hs]
theorem keeps_sysSessionOpen : Keeps (.sysSessionOpen o role hnonce) s := by
  dsimp -zeta only [Keeps, exec, touches, execSysSessionOpen]
  exact .verbHere (by simp) fun _ _ hs => by simp (maxDischargeDepth := 8) [hs]
theorem keeps_sysSessionProve : Keeps (.sysSessionProve o sid proof) s := by
  dsimp -zeta only [Keeps, exec, touches, execSysSessionProve]
  refine .verbHere (by simp) fun _ _ h₁ => ?_
  extract_lets
  refine .after_ite (by simp [h₁]) ?_
  split <;> simp (maxDischargeDepth := 8) [h₁]
theorem keeps_sysSessionClose : Keeps (.sysSessionClose o) s := by
  dsimp -zeta only [Keeps, exec, touches, execSysSessionClose]
  exact .verbHere (by simp (maxDischargeDepth := 8)) fun _ _ hs => by simp (maxDischargeDepth := 8) [hs]
theorem keeps_sessionOpenLapse : Keeps (.sessionOpenLapse h n) s := by
  dsimp -zeta only [Keeps, exec, touches, execSessionOpenLapse]
  split
  · refine .ite (.next ?_) (.next ?_) <;> simp
  · exact .next (by simp)
theorem keeps_sessionIdleExpiry : Keeps (.sessionIdleExpiry h n) s := by
  dsimp -zeta only [Keeps, exec, touches, execSessionIdleExpiry]
  split
  · refine .ite (.next ?_) (.next ?_) <;> simp
  · exact .next (by simp)
theorem keeps_roleLockoutEnd : Keeps (.roleLockoutEnd h role) s := by
  dsimp -zeta only [Keeps, exec, touches, execRoleLockoutEnd]
  refine .ite (.next ?_) (.next ?_) <;> simp
theorem keeps_cfgRead : Keeps (.cfgRead o b off count) s := by
  dsimp -zeta only [Keeps, exec, touches, execCfgRead]
  exact .cfgVerb (by simp) fun _ _ _ _ hs => by simp [hs]
theorem keeps_cfgShadowRead : Keeps (.cfgShadowRead o b off count) s := by
  dsimp -zeta only [Keeps, exec, touches, execCfgShadowRead]
  exact .cfgVerb (by simp) fun _ _ _ _ hs => by simp [hs]
theorem keeps_cfgWrite : Keeps (.cfgWrite o b off ws) s := by
  dsimp -zeta only [Keeps, exec, touches, execCfgWrite]
  extract_lets
  refine .cfgVerb (by simp (maxDischargeDepth := 8) [-List.append_assoc]) fun _ _ _ _ h₁ => ?_
  extract_lets
  refine .after_ite (by simp [-List.append_assoc, h₁]) ?_
  refine .after_ite (by simp (maxDischargeDepth := 8) [-List.append_assoc, h₁]) ?_
  split
  · simp [-List.append_assoc, h₁]
  · simp (maxDischargeDepth := 8) +contextual [-List.append_assoc, h₁]
theorem keeps_cfgCommit : Keeps (.cfgCommit o b) s := by
  dsimp -zeta only [Keeps, exec, touches, execCfgCommit]
  exact .cfgVerb (by simp (maxDischargeDepth := 8)) fun _ _ _ _ hs => by simp (maxDischargeDepth := 8) [hs]
theorem keeps_cfgDiscard : Keeps (.cfgDiscard o b) s := by
  dsimp -zeta only [Keeps, exec, touches, execCfgDiscard]
  exact .cfgVerb (by simp (maxDischargeDepth := 8)) fun _ _ _ _ hs => by simp (maxDischargeDepth := 8) [hs]
theorem keeps_cntClear : Keeps (.cntClear o b off count) s := by
  dsimp -zeta only [Keeps, exec, touches, execCntClear]
  exact .cfgVerb (by simp (maxDischargeDepth := 8)) fun _ _ _ _ hs => by simp (maxDischargeDepth := 8) [hs]
theorem keeps_cfgState : Keeps (.cfgState o b) s := by
  dsimp -zeta only [Keeps, exec, touches, execCfgState]
  exact .cfgVerb (by simp) fun _ _ _ _ hs => by simp [hs]
theorem keeps_pntRead : Keeps (.pntRead o pid) s := by
  dsimp -zeta only [Keeps, exec, touches, execPntRead]
  exact .verb (by simp) fun _ _ _ hs => by simp [hs]
theorem keeps_pntReadMulti : Keeps (.pntReadMulti o ids) s := by
  dsimp -zeta only [Keeps, exec, touches, execPntReadMulti]
  refine .verb (by simp) fun _ _ _ h₁ => ?_
  refine .after_ite (by simp [h₁]) ?_
  split <;> simp [h₁]
theorem keeps_pntWrite : Keeps (.pntWrite o pid typ v) s := by
  dsimp -zeta only [Keeps, exec, touches, execPntWrite]
  refine .verb (by simp) fun _ _ _ h₁ => ?_
  extract_lets
  refine .after_ite (by simp [h₁]) ?_
  split <;> simp (maxDischargeDepth := 8) [h₁]
theorem keeps_pntSubscribe : Keeps (.pntSubscribe o ring period ids) s := by
  dsimp -zeta only [Keeps, exec, touches, execPntSubscribe]
  refine .verbHere (by simp) fun _ _ h₁ => ?_
  extract_lets
  refine .after_ite (by simp [h₁]) ?_
  split <;> simp (maxDischargeDepth := 8) [h₁]
theorem keeps_pntUnsubscribe : Keeps (.pntUnsubscribe o subid) s := by
  dsimp -zeta only [Keeps, exec, touches, execPntUnsubscribe]
  refine .verbHere (by simp) fun _ _ h₁ => ?_
  extract_lets
  split
  · simp [h₁]
  · refine .ite ?_ ?_ <;> simp [h₁]
theorem keeps_subscriptionDelivery : Keeps (.subscriptionDelivery h subid) s := by
  dsimp -zeta only [Keeps, exec, touches, execSubscriptionDelivery]
  split
  · exact .next (by simp)
  · refine .ite (.next ?_) (.ite (.next ?_) (.next ?_)) <;> simp (maxDischargeDepth := 8) +contextual
theorem keeps_eventDelivery : Keeps (.eventDelivery h) s := by
  dsimp -zeta only [Keeps, exec, touches, execEventDelivery]
  extract_lets s₁
  refine .cut s₁ (by simp (maxDischargeDepth := 8) +contextual [s₁]) fun h₁ => ?_
  split
  · exact .next (by simp [h₁])
  · extract_lets s₃ s₄
    refine .cut s₃ (by simp (maxDischargeDepth := 8) [s₃, h₁]) fun h₃ => ?_
    refine .cut s₄ (by simp +contextual [s₄, h₃]) fun h₄ => ?_
    exact .next (by simp (maxDischargeDepth := 8) [h₄])

/-! ### Pins, timers and CAN controllers (spec 16) -/

theorem keeps_gpioEdge : Keeps (.gpioEdge p level) s := by
  dsimp -zeta only [Keeps, exec, touches, execGpioEdge]
  refine .ite (.next ?_) (.next ?_) <;> simp
theorem keeps_gpioSet : Keeps (.gpioSet h mask) s := by
  dsimp -zeta only [Keeps, exec, touches, execGpioSet]
  exact .next (.gated (Frame.refl _ _) (by simp) (by simp))
theorem keeps_gpioClr : Keeps (.gpioClr h mask) s := by
  dsimp -zeta only [Keeps, exec, touches, execGpioClr]
  exact .next (.gated (Frame.refl _ _) (by simp) (by simp))
theorem keeps_timerEnable : Keeps (.timerEnable h t ofs) s := by
  dsimp -zeta only [Keeps, exec, touches, execTimerEnable]
  refine .ite (.next ?_) (.next ?_) <;> simp
theorem keeps_timerExpiry : Keeps (.timerExpiry h t) s := by
  dsimp -zeta only [Keeps, exec, touches, execTimerExpiry]
  extract_lets _ _ s₁
  refine .cut s₁ (by simp [s₁]) fun h₁ => ?_
  refine .ite (.next ?_) (.ite (.next ?_) (.next ?_)) <;> simp [h₁]
theorem keeps_wideValueLatch : Keeps (.wideValueLatch h src answers) s := by
  dsimp -zeta only [Keeps, exec, touches, execWideValueLatch]
  exact .next (by simp)
theorem keeps_aliasWrite : Keeps (.aliasWrite h b off op) s := by
  dsimp -zeta only [Keeps, exec, touches, execAliasWrite]
  refine .ite (.next (by simp)) ?_
  split
  · exact .next (by simp)
  · split
    · exact .next (by simp)
    · exact .next (by simp)
theorem keeps_claimGatedWrite : Keeps (.claimGatedWrite h) s := by
  dsimp -zeta only [Keeps, exec, touches, execClaimGatedWrite]
  refine .ite (.next ?_) (.next ?_) <;> simp
theorem keeps_busError : Keeps (.busError h) s := by
  dsimp -zeta only [Keeps, exec, touches, execBusError]
  exact .next (by simp)
theorem keeps_gateCntClear : Keeps (.gateCntClear h) s := by
  dsimp -zeta only [Keeps, exec, touches, execGateCntClear]
  exact .next (by simp)
theorem keeps_canTxRequest : Keeps (.canTxRequest h n b) s := by
  dsimp -zeta only [Keeps, exec, touches, execCanTxRequest]
  exact .ite (.next (.canWrite (Frame.refl _ _) (by simp) (by simp))) (.next (Frame.refl _ _))
theorem keeps_canTxAbort : Keeps (.canTxAbort h n b) s := by
  dsimp -zeta only [Keeps, exec, touches, execCanTxAbort]
  exact .ite (.next (.canWrite (Frame.refl _ _) (by simp) (by simp))) (.next (Frame.refl _ _))
theorem keeps_canTxAttemptEnd : Keeps (.canTxAttemptEnd n e tec) s := by
  dsimp -zeta only [Keeps, exec, touches, execCanTxAttemptEnd]
  split
  · exact .next (Frame.refl _ _)
  · extract_lets ab s₁ s₂ k s₃
    refine .cut s₁ (by simp [s₁]) fun h₁ => ?_
    refine .cut s₂ (by simp [s₂, h₁]) fun h₂ => ?_
    refine .cut s₃ (by unfold s₃; split <;> simp (maxDischargeDepth := 8) [h₂]) fun h₃ => ?_
    exact .next (by simp [h₃])
theorem keeps_canFrameReceived : Keeps (.canFrameReceived n f rec_) s := by
  dsimp -zeta only [Keeps, exec, touches, execCanFrameReceived]
  extract_lets s₁
  refine .cut s₁ (by simp [s₁]) fun h₁ => ?_
  refine .ite (.next (by simp)) ?_
  split
  · exact .next (by simp [h₁])
  · refine .ite (.next ?_) (.ite (.next ?_) (.next ?_)) <;> simp (maxDischargeDepth := 8) [h₁]
theorem keeps_canRxRelease : Keeps (.canRxRelease h n) s := by
  dsimp -zeta only [Keeps, exec, touches, execCanRxRelease]
  exact .ite (.next (.canWrite (Frame.refl _ _) (by simp) (by simp))) (.next (Frame.refl _ _))
theorem keeps_canBusOff : Keeps (.canBusOff n) s := by
  dsimp -zeta only [Keeps, exec, touches, execCanBusOff]
  refine .ite (.next ?_) (.next ?_) <;> simp (maxDischargeDepth := 8) +contextual
theorem keeps_canBoffRecovery : Keeps (.canBoffRecovery h n done) s := by
  dsimp -zeta only [Keeps, exec, touches, execCanBoffRecovery]
  refine .ite (.next ?_) (.ite (.ite (.next ?_) (.next ?_)) (.next ?_)) <;> simp (maxDischargeDepth := 8) +contextual
theorem keeps_canErrorStateChange : Keeps (.canErrorStateChange n) s := by
  dsimp -zeta only [Keeps, exec, touches, execCanErrorStateChange]
  refine .ite (.next ?_) (.next ?_) <;> simp
theorem keeps_abrStart : Keeps (.abrStart h n) s := by
  dsimp -zeta only [Keeps, exec, touches, execAbrStart]
  exact .ite (.next (.canWrite (Frame.refl _ _) (by simp) (by simp))) (.next (Frame.refl _ _))
theorem keeps_abrStop : Keeps (.abrStop h n) s := by
  dsimp -zeta only [Keeps, exec, touches, execAbrStop]
  exact .ite (.next (.canWrite (Frame.refl _ _) (by simp) (by simp))) (.next (Frame.refl _ _))
theorem keeps_abrWindowExpiry : Keeps (.abrWindowExpiry n) s := by
  dsimp -zeta only [Keeps, exec, touches, execAbrWindowExpiry]
  refine .ite (.next (by simp)) ?_
  split
  · exact .next (by simp)
  · exact .next (by simp)
theorem keeps_abrFound : Keeps (.abrFound n) s := by
  dsimp -zeta only [Keeps, exec, touches, execAbrFound]
  refine .ite (.next ?_) (.next ?_) <;> simp (maxDischargeDepth := 8)
theorem keeps_exchangeLimitsFrame : Keeps (.exchangeLimitsFrame n r) s := by
  dsimp -zeta only [Keeps, exec, touches, execExchangeLimitsFrame]
  extract_lets c cid d a b put2 s₁
  have hput (u i v) (hu : Frame [.regs .can, .stg .A, .stg .B, .cans] s u) : Frame [.regs .can, .stg .A, .stg .B, .cans] s (put2 u i v) := by
    dsimp only [put2]
    simp +contextual [hu]
  have h₁ : Frame [.regs .can, .stg .A, .stg .B, .cans] s s₁ := by
    unfold s₁
    clear_value put2 a b
    split
    · exact .after_ite (hput _ _ _ (hput _ _ _ (Frame.refl _ _))) (hput _ _ _ (Frame.refl _ _))
    · exact .after_ite (Frame.refl _ _) (hput _ _ _ (Frame.refl _ _))
    · exact Frame.refl _ _
  exact .ite (.next (Frame.refl _ _)) (.next (by simp [h₁]))
theorem keeps_exchangeSetpointPeriod : Keeps (.exchangeSetpointPeriod r) s := by
  dsimp -zeta only [Keeps, exec, touches, execExchangeSetpointPeriod]
  refine .ite (.next ?_) (.next ?_) <;> simp (maxDischargeDepth := 8)
theorem keeps_exchangeTxb1Next : Keeps (.exchangeTxb1Next n) s := by
  dsimp -zeta only [Keeps, exec, touches, execExchangeTxb1Next]
  refine .ite (.next (by simp)) ?_
  split
  · exact .next (by simp)
  · exact .next (by simp)

/-! ### Load switches (spec 17) -/

theorem keeps_lswEnable : Keeps (.lswEnable h c mode) s := by
  dsimp -zeta only [Keeps, exec, touches, execLswEnable]
  exact .ite (.next (.gated (Frame.refl _ _) (by simp) (by simp))) (.next (Frame.refl _ _))
theorem keeps_lswDisable : Keeps (.lswDisable h c) s := by
  dsimp -zeta only [Keeps, exec, touches, execLswDisable]
  exact .ite (.next (.gated (Frame.refl _ _) (by simp) (by simp))) (.next (Frame.refl _ _))
theorem keeps_lswClr : Keeps (.lswClr h c) s := by
  dsimp -zeta only [Keeps, exec, touches, execLswClr]
  exact .ite (.next (.gated (Frame.refl _ _) (by simp) (by simp))) (.next (Frame.refl _ _))
theorem keeps_lswInrushEnd : Keeps (.lswInrushEnd c cur) s := by
  dsimp -zeta only [Keeps, exec, touches, execLswInrushEnd]
  refine .ite (.next ?_) (.ite (.next ?_) (.ite (.next ?_) (.next ?_))) <;> simp
theorem keeps_lswRetryWaitEnd : Keeps (.lswRetryWaitEnd c) s := by
  dsimp -zeta only [Keeps, exec, touches, execLswRetryWaitEnd]
  refine .ite (.next ?_) (.next ?_) <;> simp (maxDischargeDepth := 8)
theorem keeps_lswLimitTimeout : Keeps (.lswLimitTimeout c cur) s := by
  dsimp -zeta only [Keeps, exec, touches, execLswLimitTimeout]
  refine .ite (.next ?_) (.next ?_) <;> simp (maxDischargeDepth := 8)
theorem keeps_lswThermal : Keeps (.lswThermal c hot) s := by
  dsimp -zeta only [Keeps, exec, touches, execLswThermal]
  refine .ite (.next ?_) (.ite (.ite (.next ?_) (.next ?_)) (.ite (.next ?_) (.next ?_))) <;> simp (maxDischargeDepth := 8)
theorem keeps_lswGroupUndervoltage : Keeps (.lswGroupUndervoltage g) s := by
  dsimp -zeta only [Keeps, exec, touches, execLswGroupUndervoltage]
  refine .ite (.next ?_) (.next ?_) <;> simp (maxDischargeDepth := 8) +contextual
theorem keeps_lswGroupUvRecovery : Keeps (.lswGroupUvRecovery g) s := by
  dsimp -zeta only [Keeps, exec, touches, execLswGroupUvRecovery]
  refine .ite (.next ?_) (.next ?_) <;> simp (maxDischargeDepth := 8) +contextual
theorem keeps_lswTotalOverload : Keeps (.lswTotalOverload avg) s := by
  dsimp -zeta only [Keeps, exec, touches, execLswTotalOverload]
  extract_lets s₁ _ fresh s₂ _ s₃ s₄ due
  refine .cut s₁ (by simp [s₁]) fun h₁ => ?_
  refine .cut s₂ (by simp [s₂, h₁]) fun h₂ => ?_
  refine .cut s₃ (by simp [s₃, h₂]) fun h₃ => ?_
  refine .cut s₄ (by simp [s₄, h₃]) fun h₄ => ?_
  refine .ite (.next (by simp [h₁])) ?_
  split
  · refine .ite (.next ?_) (.next ?_) <;> simp [h₄]
  · exact .next (by simp [h₄])
theorem keeps_lswOpenLoad : Keeps (.lswOpenLoad c low) s := by
  dsimp -zeta only [Keeps, exec, touches, execLswOpenLoad]
  refine .ite (.next ?_) (.next ?_) <;> simp
theorem keeps_lswSenseStep : Keeps (.lswSenseStep) s := by
  dsimp -zeta only [Keeps, exec, touches, execLswSenseStep]
  refine .ite (.next ?_) (.next ?_) <;> simp (maxDischargeDepth := 8) +contextual
theorem keeps_lswSlotDutyWrite : Keeps (.lswSlotDutyWrite) s := by
  dsimp -zeta only [Keeps, exec, touches, execLswSlotDutyWrite]
  split
  · exact .next (by simp)
  · exact .next (by simp (maxDischargeDepth := 8) +contextual)
theorem keeps_lswPwmPeriod : Keeps (.lswPwmPeriod c) s := by
  dsimp -zeta only [Keeps, exec, touches, execLswPwmPeriod]
  refine .ite (.next ?_) (.ite (.next ?_) (.ite (.next ?_) (.next ?_))) <;> simp
theorem keeps_lswVfSample : Keeps (.lswVfSample g vsup curs limiting) s := by
  dsimp -zeta only [Keeps, exec, touches, execLswVfSample]
  extract_lets s₁ s₂ _ _ s₄ _ s₅ _
  refine .cut s₁ (by simp [s₁]) fun h₁ => ?_
  refine .cut s₂ (by simp (maxDischargeDepth := 8) +contextual [s₂, h₁]) fun h₂ => ?_
  refine .cut s₄ (by simp [s₄, h₂]) fun h₄ => ?_
  refine .cut s₅ (by simp (maxDischargeDepth := 8) [s₅, h₄]) fun h₅ => ?_
  refine .ite (.next ?_) (.ite (.next ?_) (.next ?_)) <;> simp [h₅]

/-! ### Root mesh (spec 18) -/

theorem keeps_zeroCrossing : Keeps (.zeroCrossing n edge hz limited rx) s := by
  dsimp -zeta only [Keeps, exec, touches, execZeroCrossing]
  extract_lets ok s₁ s₂ s₃ win b s₄ f s₅
  refine .cut s₁ (by simp [s₁]) fun h₁ => ?_
  refine .cut s₂ (by simp [s₂, h₁]) fun h₂ => ?_
  refine .cut s₃ (by simp [s₃, h₂]) fun h₃ => ?_
  refine .cut s₄ (by simp [s₄, h₃]) fun h₄ => ?_
  refine .cut s₅ (by simp [s₅, h₃]) fun h₅ => ?_
  refine .ite (.next (Frame.refl _ _)) ?_
  split
  · exact .next (by simp [h₃])
  · exact .ite (.ite (.next (by simp [h₄])) (.next h₄)) (.next (by simp [h₅]))
theorem keeps_zcLost : Keeps (.zcLost n) s := by
  dsimp -zeta only [Keeps, exec, touches, execZcLost]
  refine .ite (.next ?_) (.next ?_) <;> simp (maxDischargeDepth := 8)
theorem keeps_zcRecovered : Keeps (.zcRecovered n) s := by
  dsimp -zeta only [Keeps, exec, touches, execZcRecovered]
  extract_lets _ s₁
  refine .cut s₁ (by simp [s₁]) fun h₁ => ?_
  refine .ite (.next ?_) (.next ?_) <;> simp [h₁]
theorem keeps_meshCellResponse : Keeps (.meshCellResponse n) s := by
  dsimp -zeta only [Keeps, exec, touches, execMeshCellResponse]
  split
  · exact .next (by simp)
  · refine .ite (.next ?_) (.ite (.ite (.next ?_) (.next ?_)) (.ite (.next ?_) (.next ?_))) <;> simp
theorem keeps_meshFrameAbandon : Keeps (.meshFrameAbandon n hop) s := by
  dsimp -zeta only [Keeps, exec, touches, execMeshFrameAbandon]
  split
  · exact .next (by simp)
  · refine .ite (.ite (.next ?_) (.next ?_)) (.ite (.next ?_) (.next ?_)) <;> simp (maxDischargeDepth := 8)
theorem keeps_meshFrameReceived : Keeps (.meshFrameReceived n) s := by
  dsimp -zeta only [Keeps, exec, touches, execMeshFrameReceived]
  split
  · exact .next (by simp)
  · extract_lets _ _ _ _ _ s₁ _
    refine .cut s₁ (by simp [s₁]) fun h₁ => ?_
    refine .ite (.next ?_) (.ite (.next ?_) (.ite (.next ?_) (.ite (.next ?_) (.ite (.ite (.next ?_) (.next ?_)) (.next ?_))))) <;> simp [h₁]
theorem keeps_meshRelayForward : Keeps (.meshRelayForward n) s := by
  dsimp -zeta only [Keeps, exec, touches, execMeshRelayForward]
  split
  · exact .next (by simp)
  · refine .ite (.next ?_) (.ite (.next ?_) (.next ?_)) <;> simp
theorem keeps_beacon : Keeps (.beacon n) s := by
  dsimp -zeta only [Keeps, exec, touches, execBeacon]
  refine .ite (.next ?_) (.next ?_) <;> simp
theorem keeps_poll : Keeps (.poll n m) s := by
  dsimp -zeta only [Keeps, exec, touches, execPoll]
  refine .ite (.next ?_) (.next ?_) <;> simp
theorem keeps_linkrep : Keeps (.linkrep n own) s := by
  dsimp -zeta only [Keeps, exec, touches, execLinkrep]
  split
  · split
    · exact .next (by simp)
    · exact .next (by simp)
  · refine .ite (.next ?_) (.next ?_) <;> simp
theorem keeps_mapset : Keeps (.mapset n tx rx) s := by
  dsimp -zeta only [Keeps, exec, touches, execMapset]
  extract_lets
  split
  · exact .next (by simp)
  · extract_lets s₁ s₂
    refine .cut s₁ (by simp [s₁]) fun h₁ => ?_
    refine .cut s₂ (by simp [s₂, h₁]) fun h₂ => ?_
    refine .ite (.next ?_) (.next ?_) <;> simp [h₂]
theorem keeps_mapsetAckDeadline : Keeps (.mapsetAckDeadline n tx rx) s := by
  dsimp -zeta only [Keeps, exec, touches, execMapsetAckDeadline]
  extract_lets
  split
  · exact .next (by simp)
  · refine .ite (.next ?_) (.next ?_) <;> simp
theorem keeps_assign : Keeps (.assign n m) s := by
  dsimp -zeta only [Keeps, exec, touches, execAssign]
  refine .ite (.next ?_) (.next ?_) <;> simp
theorem keeps_routeCompute : Keeps (.routeCompute n m) s := by
  dsimp -zeta only [Keeps, exec, touches, execRouteCompute]
  extract_lets cur now worn set
  have hset {u} (path k) (hu : Frame (bothMbx ++ [.regs .rms, .mesh]) s u) : Frame (bothMbx ++ [.regs .rms, .mesh]) s (set u path k) := by simp (maxDischargeDepth := 8) [set, hu]
  refine .ite (.next (Frame.refl _ _)) ?_
  split
  · exact .next (.after_ite (hset _ _ (Frame.refl _ _)) (Frame.refl _ _))
  · exact .ite (.next (Frame.refl _ _)) (.next (.after_meshQueue _ _ (hset _ _ (Frame.refl _ _)) (by simp)))
theorem keeps_meshExchangeTimeout : Keeps (.meshExchangeTimeout n) s := by
  dsimp -zeta only [Keeps, exec, touches, execMeshExchangeTimeout]
  split
  · exact .next (by simp)
  · refine .ite (.next ?_) (.next ?_) <;> simp (maxDischargeDepth := 8)
theorem keeps_meshHarvitorExchange : Keeps (.meshHarvitorExchange n) s := by
  dsimp -zeta only [Keeps, exec, touches, execMeshHarvitorExchange]
  split
  · exact .next (by simp)
  · extract_lets s₁ _ _
    refine .cut s₁ (by simp [s₁]) fun h₁ => ?_
    refine .ite (.next ?_) (.ite (.next ?_) (.next ?_)) <;> simp [h₁]
theorem keeps_rmsTxRequest : Keeps (.rmsTxRequest h) s := by
  dsimp -zeta only [Keeps, exec, touches, execRmsTxRequest]
  exact .next (.gated (Frame.refl _ _) (by simp) (by simp))
theorem keeps_rmsRxRelease : Keeps (.rmsRxRelease h) s := by
  dsimp -zeta only [Keeps, exec, touches, execRmsRxRelease]
  exact .next (.gated (Frame.refl _ _) (by simp) (by simp))

/-! ### Boot and update (spec 19) -/

theorem keeps_bootStage : Keeps (.bootStage part stage ok digest) s := by
  dsimp -zeta only [Keeps, exec, touches, execBootStage]
  extract_lets hh isHalf order started
  have hstarted i : Frame [.twn .A, .twn .B, .upd] s (started s i) := by simp (maxDischargeDepth := 8) [started]
  refine .ite (.next (Frame.refl _ _)) ?_
  split
  · refine .ite (.next ?_) (.next ?_) <;> simp [hstarted]
  · split
    · exact .next (Frame.refl _ _)
    · refine .ite (.next ?_) (.next ?_) <;> simp [hstarted]
theorem keeps_bootBankSelect : Keeps (.bootBankSelect k) s := by
  dsimp -zeta only [Keeps, exec, touches, execBootBankSelect]
  dsimp only
  refine .ite (.next (by simp)) ?_
  split
  · exact .next (by simp)
  · split
    · exact .next (by simp)
    · refine .ite (.next ?_) (.next ?_) <;> simp
theorem keeps_updBegin : Keeps (.updBegin o hdr ecOk pqOk) s := by
  dsimp -zeta only [Keeps, exec, touches, execUpdBegin]
  exact .verb (by simp (maxDischargeDepth := 8)) fun _ _ _ hs => by simp (maxDischargeDepth := 8) +contextual [hs]
theorem keeps_updData : Keeps (.updData o off data) s := by
  dsimp -zeta only [Keeps, exec, touches, execUpdData]
  refine .verb (by simp) fun _ _ _ h₁ => ?_
  split <;> simp (maxDischargeDepth := 8) [h₁]
theorem keeps_updEnd : Keeps (.updEnd o mask fail) s := by
  dsimp -zeta only [Keeps, exec, touches, execUpdEnd]
  refine .verb (by simp) fun _ _ _ h₁ => ?_
  split
  · simp [h₁]
  · extract_lets s₂ img₀ img held kept s₃
    refine .cut s₂ (by simp [s₂, h₁]) fun h₂ => ?_
    refine .cut s₃ (.after_ite (by simp [h₂]) (by simp +contextual [h₂])) fun h₃ => ?_
    clear_value s₂ s₃
    simp (maxDischargeDepth := 8) [h₁, h₂, h₃]
theorem keeps_updActivate : Keeps (.updActivate o part flags at_) s := by
  dsimp -zeta only [Keeps, exec, touches, execUpdActivate]
  refine .verb (by simp) fun u x _ h₁ => ?_
  extract_lets ks twin own img begin' trial old s₂
  have hbegin (a b) : Frame (allRegs ++ lostParts .A ++ lostParts .B ++ [.free, .shadow, .blocks, .ref, .ho, .veh, .vehG, .met, .bil, .lkt, .saf, .upd]) s (begin' u a b) := by
    simp [-List.append_assoc, begin', h₁]
  have hno (st) : Frame (allRegs ++ lostParts .A ++ lostParts .B ++ [.free, .shadow, .blocks, .ref, .ho, .veh, .vehG, .met, .bil, .lkt, .saf, .upd]) s (u.complete o x 0x0E04 st true []) := by
    simp (maxDischargeDepth := 8) [-List.append_assoc, h₁]
  clear_value begin' trial img
  refine .cut s₂ (by simp [-List.append_assoc, s₂, hbegin]) fun h₂ => ?_
  refine .after_ite (hno _) (.after_ite (hno _) (.after_ite (hno _) (.after_ite (hno _) (.after_ite (hno _) (.after_ite (hno _) ?_)))))
  split <;> simp (maxDischargeDepth := 8) [-List.append_assoc, hno, h₂, hbegin]
theorem keeps_updStatus : Keeps (.updStatus o) s := by
  dsimp -zeta only [Keeps, exec, touches, execUpdStatus]
  exact .verb (by simp) fun _ _ _ hs => by simp [hs]
theorem keeps_updRemote : Keeps (.updRemote o target mask at_) s := by
  dsimp -zeta only [Keeps, exec, touches, execUpdRemote]
  refine .verb (by simp (maxDischargeDepth := 8)) fun _ _ _ h₁ => ?_
  refine .after_ite (by simp [h₁]) ?_
  split
  · simp (maxDischargeDepth := 8) [h₁]
  · split
    · simp [h₁]
    · simp (maxDischargeDepth := 8) +contextual [h₁]
theorem keeps_updRecover : Keeps (.updRecover o t) s := by
  dsimp -zeta only [Keeps, exec, touches, execUpdRecover]
  refine .verb (by simp) fun _ _ _ h₁ => ?_
  split <;> simp [-List.append_assoc, h₁]
theorem keeps_updstat : Keeps (.updstat p) s := by
  dsimp -zeta only [Keeps, exec, touches, execUpdstat]
  split
  · exact .next (Frame.refl _ _)
  next x _ _ e =>
    obtain ⟨y, _, e⟩ := Option.bind_eq_some_iff.mp e
    obtain ⟨r, e, e'⟩ := Option.map_eq_some_iff.mp e
    cases e'
    refine .cut _ (Frame.of_takeMsg (Frame.refl _ s) (by simp) e) fun h₁ => ?_
    exact .next (by simp [h₁])
theorem keeps_updactPreloss : Keeps (.updactPreloss p) s := by
  dsimp -zeta only [Keeps, exec, touches, execUpdactPreloss]
  split
  · exact .next (by simp)
  · refine .ite (.next ?_) (.next ?_) <;> simp
theorem keeps_updact : Keeps (.updact p) s := by
  dsimp -zeta only [Keeps, exec, touches, execUpdact]
  split
  · exact .next (by simp)
  · refine .ite (.next ?_) (.next ?_) <;> simp
theorem keeps_trialCommit : Keeps (.trialCommit) s := by
  dsimp -zeta only [Keeps, exec, touches, execTrialCommit]
  split
  · exact .next (Frame.refl _ _)
  · extract_lets _ one s₁
    have hone (u k) (hu : Frame (bothMbx ++ [.upd]) s u) : Frame (bothMbx ++ [.upd]) s (one u k) := by
      dsimp -zeta only [one]
      split <;> simp (maxDischargeDepth := 8) [hu]
    clear_value one
    refine .cut s₁ (.after_mUpd _ (.after_foldl _ _ hone (Frame.refl _ _)) (by simp)) fun h₁ => ?_
    exact .ite (.next (Frame.refl _ _)) (.next (by simp [h₁]))
theorem keeps_activationRejoinTimeout : Keeps (.activationRejoinTimeout) s := by
  dsimp -zeta only [Keeps, exec, touches, execActivationRejoinTimeout]
  split
  · exact .next (by simp)
  · refine .ite (.next ?_) (.next ?_) <;> simp
theorem keeps_singleHalfActivationDrain : Keeps (.singleHalfActivationDrain) s := by
  dsimp -zeta only [Keeps, exec, touches, execSingleHalfActivationDrain]
  split
  · refine .ite (.next ?_) (.next ?_) <;> simp +contextual
  · exact .next (by simp)
theorem keeps_singleHalfActivationReset : Keeps (.singleHalfActivationReset) s := by
  dsimp -zeta only [Keeps, exec, touches, execSingleHalfActivationReset]
  split
  · refine .ite (.next ?_) (.next ?_) <;> simp
  · exact .next (by simp)
theorem keeps_recoveryInfo : Keeps (.recoveryInfo h seq) s := by
  dsimp -zeta only [Keeps, exec, touches, execRecoveryInfo]
  exact .next (by simp)
theorem keeps_recoveryHeader : Keeps (.recoveryHeader h seq off data ecOk pqOk) s := by
  dsimp -zeta only [Keeps, exec, touches, execRecoveryHeader]
  refine .next (.after_recovReq _ _ _ _ (Frame.refl _ _) (by simp) fun _ h₁ => ?_)
  extract_lets s₂ b i st
  refine .cut s₂ (by simp [s₂, h₁]) fun h₂ => ?_
  clear_value st
  split_ifs <;> simp [h₁, h₂]
theorem keeps_recoveryData : Keeps (.recoveryData h seq off data) s := by
  dsimp -zeta only [Keeps, exec, touches, execRecoveryData]
  refine .next (.after_recovReq _ _ _ _ (Frame.refl _ _) (by simp) fun _ h₁ => ?_)
  extract_lets
  split
  · exact h₁
  · split_ifs <;> simp [h₁]
theorem keeps_recoveryFinish : Keeps (.recoveryFinish h seq) s := by
  dsimp -zeta only [Keeps, exec, touches, execRecoveryFinish]
  refine .next (.after_recovReq _ _ _ _ (Frame.refl _ _) (by simp) fun _ h₁ => ?_)
  extract_lets v hdr s₂
  refine .cut s₂ (by simp [s₂, h₁]) fun h₂ => ?_
  split
  · exact h₁
  · split_ifs <;> simp [h₂]
theorem keeps_recoveryBoot : Keeps (.recoveryBoot h seq) s := by
  dsimp -zeta only [Keeps, exec, touches, execRecoveryBoot]
  exact .next (by simp (maxDischargeDepth := 8) +contextual)

/-! ### Power (spec 20) -/

theorem keeps_vholdSwitchClose : Keeps (.vholdSwitchClose) s := by
  dsimp -zeta only [Keeps, exec, touches, execVholdSwitchClose]
  exact .next (by simp)
theorem keeps_holdupStart : Keeps (.holdupStart) s := by
  dsimp -zeta only [Keeps, exec, touches, execHoldupStart]
  refine .ite (.next ?_) (.next ?_) <;> simp
theorem keeps_holdupHalvesStop : Keeps (.holdupHalvesStop v) s := by
  dsimp -zeta only [Keeps, exec, touches, execHoldupHalvesStop]
  extract_lets s₁
  refine .cut s₁ (by simp [-List.append_assoc, s₁]) fun h₁ => ?_
  refine .ite (.next ?_) (.next ?_) <;> simp (maxDischargeDepth := 8) [-List.append_assoc, h₁]
theorem keeps_holdupIslandsStop : Keeps (.holdupIslandsStop v) s := by
  dsimp -zeta only [Keeps, exec, touches, execHoldupIslandsStop]
  extract_lets s₁ s₂ s₃ s₄
  refine .cut s₁ (by simp [s₁]) fun h₁ => ?_
  refine .cut s₂ (by simp [s₂, h₁]) fun h₂ => ?_
  refine .cut s₃ (by simp [s₃, h₂]) fun h₃ => ?_
  refine .cut s₄ (by simp [s₄, h₃]) fun h₄ => ?_
  refine .ite (.next ?_) (.next ?_) <;> simp [h₁, h₄]
/-- A Locket command that waited changes at most what the widest of its kind changes. -/
theorem frame_lktResume (s : State) (c : LktCmd) : Frame (bothMbx ++ [.free, .ports .A, .ports .B, .rems, .lkt]) s (lktResume s c) := by
  have hkey : ∀ p ∈ bothMbx ++ [.free, .lkt], p ∈ bothMbx ++ [.free, .ports .A, .ports .B, .rems, .lkt] := by simp [bothMbx]
  have hroll : ∀ p ∈ bothMbx ++ [.free, .ports .A, .ports .B, .lkt], p ∈ bothMbx ++ [.free, .ports .A, .ports .B, .rems, .lkt] := by simp [bothMbx]
  unfold lktResume
  extract_lets r
  have hr : EndsFramed (bothMbx ++ [.free, .ports .A, .ports .B, .rems, .lkt]) s r := by
    unfold r
    cases c
    case generate => exact keeps_lktGenerate.mono hkey
    case importKey => exact keeps_lktImport.mono hkey
    case derive => exact keeps_lktDerive.mono hkey
    case agree => exact keeps_lktAgree.mono hkey
    case invalidate => exact keeps_lktInvalidate.mono hkey
    case pair => exact keeps_lktPair
    case roll => exact keeps_lktRoll.mono hroll
    case drop => exact .next (by simp)
  clear_value r
  split
  · exact hr _ rfl
  · exact Frame.refl _ _
theorem keeps_holdupEnd : Keeps (.holdupEnd) s := by
  dsimp -zeta only [Keeps, exec, touches, execHoldupEnd]
  extract_lets n w s₁
  refine .cut s₁ (by simp (maxDischargeDepth := 8) [-List.append_assoc, s₁]) fun h₁ => ?_
  refine .ite (.next (by simp (maxDischargeDepth := 8) [-List.append_assoc, h₁])) (.ite (.next ?_) (.next h₁))
  exact .after_foldl _ _ (fun u c h₂ => h₂.trans ((frame_lktResume u c).mono (by simp [bothMbx]))) (by simp [-List.append_assoc, h₁])
theorem keeps_moduleStart : Keeps (.moduleStart) s := by
  dsimp -zeta only [Keeps, exec, touches, execModuleStart]
  refine .ite (.next ?_) (.next ?_) <;> simp
theorem keeps_vholdCharged : Keeps (.vholdCharged v) s := by
  dsimp -zeta only [Keeps, exec, touches, execVholdCharged]
  extract_lets s₁
  refine .cut s₁ (by simp [s₁]) fun h₁ => ?_
  refine .ite (.next ?_) (.next ?_) <;> simp [h₁]
theorem keeps_resetN : Keeps (.resetN ns) s := by
  dsimp -zeta only [Keeps, exec, touches, execResetN]
  refine .ite (.next ?_) (.ite (.next ?_) (.ite (.next ?_) (.next ?_))) <;> simp
theorem keeps_svcBtnRelease : Keeps (.svcBtnRelease ms gap) s := by
  dsimp -zeta only [Keeps, exec, touches, execSvcBtnRelease]
  extract_lets s₁ s₂ s₃
  refine .cut s₁ (by simp [-List.append_assoc, s₁]) fun h₁ => ?_
  refine .cut s₂ (by simp [-List.append_assoc, s₂, h₁]) fun h₂ => ?_
  refine .cut s₃ (by simp [-List.append_assoc, s₃, h₁]) fun h₃ => ?_
  refine .ite (.next (by simp [-List.append_assoc])) ?_
  refine .ite (.next (by simp [-List.append_assoc, h₁])) ?_
  refine .ite (.next (by simp [-List.append_assoc, h₂])) ?_
  split
  · exact .next (by simp [-List.append_assoc, h₃])
  · exact .next (by simp [-List.append_assoc, h₃])
theorem keeps_svcBtnStuck : Keeps (.svcBtnStuck gap) s := by
  dsimp -zeta only [Keeps, exec, touches, execSvcBtnStuck]
  refine .ite (.next ?_) (.next ?_) <;> simp (maxDischargeDepth := 8)
theorem keeps_powerStateRequest : Keeps (.powerStateRequest h target) s := by
  dsimp -zeta only [Keeps, exec, touches, execPowerStateRequest]
  exact .next (by simp +contextual)
theorem keeps_wake : Keeps (.wake src) s := by
  dsimp -zeta only [Keeps, exec, touches, execWake]
  refine .ite (.next ?_) (.next ?_) <;> simp
theorem keeps_wakeTimerExpiry : Keeps (.wakeTimerExpiry) s := by
  dsimp -zeta only [Keeps, exec, touches, execWakeTimerExpiry]
  refine .ite (.next ?_) (.next ?_) <;> simp
theorem keeps_s4BatteryToS5 : Keeps (.s4BatteryToS5) s := by
  dsimp -zeta only [Keeps, exec, touches, execS4BatteryToS5]
  refine .ite (.next ?_) (.next ?_) <;> simp
theorem keeps_ptpAnnounceReceived : Keeps (.ptpAnnounceReceived h dom utcOffset valid selected ticks) s := by
  dsimp -zeta only [Keeps, exec, touches, execPtpAnnounceReceived]
  extract_lets s₁ s₂
  refine .cut s₁ (by simp [s₁]) fun h₁ => ?_
  refine .cut s₂ (by simp [s₂, h₁]) fun h₂ => ?_
  refine .ite (.next ?_) (.next ?_) <;> simp [h₂]
theorem keeps_remotePowerUpOrReset : Keeps (.remotePowerUpOrReset p) s := by
  dsimp -zeta only [Keeps, exec, touches, execRemotePowerUpOrReset]
  exact .next (by simp)
theorem keeps_refereeDailyExercise : Keeps (.refereeDailyExercise) s := by
  dsimp -zeta only [Keeps, exec, touches, execRefereeDailyExercise]
  exact .next (by simp)

/-! ### Every command -/

/-- Whatever the command: one lemma for each arm of the dispatch, in its order. -/
theorem keeps (c : Instr) (s : State) : Keeps c s := by
  cases c
  exacts [
    keeps_undefinedOpcode, keeps_registerWrite, keeps_tickEdge, keeps_stagingWrite, keeps_stagingEntryStale, keeps_commitSnapshot,
    keeps_snapshotPublish, keeps_pointOwnerWrite, keeps_mirrorCopyReceived, keeps_mirrorAck, keeps_pointRestoreComplete, keeps_partitionFault,
    keeps_partitionWatchdogExpiry, keeps_ptpSyncReceived, keeps_freqUpdate, keeps_sysTimeStep, keeps_autoTimeStep, keeps_holdoverEntry,
    keeps_timeUncertain, keeps_rtcRewrite, keeps_startWaitExpiry, keeps_ptpMasterSelectedAtStart, keeps_lossOfReference, keeps_lossOfLock,
    keeps_pllLockRetry, keeps_pllLockComplete, keeps_bypassExit, keeps_restartWithoutService, keeps_sharedPllReferenceChange, keeps_skewMeasure,
    keeps_ingestDeadline, keeps_ingestMapExchange, keeps_uplinkAcceptanceLoss, keeps_allocationLatch, keeps_downlinkDispatch, keeps_lineSyncGained,
    keeps_lineSyncLost, keeps_measureEntry, keeps_tickMarkerSend, keeps_dprSend, keeps_decReceived, keeps_delaySlew, keeps_helloReceived,
    keeps_joinAcknowledged, keeps_uplinkTickFrame, keeps_asyncSegmentReceived, keeps_asyncAckSend, keeps_asyncAckReceived,
    keeps_segmentResendTimeout, keeps_asyncFrameSend, keeps_tunnelMessageReceived, keeps_bulkLogReceived, keeps_timeMessageSend,
    keeps_remoteDownlinkTickFrame, keeps_remoteSelection49us, keeps_remoteTickEdge, keeps_remoteTickMarker, keeps_linkLostForceOpen,
    keeps_remoteHelloSend, keeps_refereeRequest, keeps_refereeGrant, keeps_tokenRelease, keeps_aliveSignalMissing, keeps_handoverEdge,
    keeps_twinHeartbeatSend, keeps_twinHeartbeatReceived, keeps_twinLinkDead, keeps_relayedSnapshotReceived, keeps_portCountTakeover,
    keeps_cleanHealthReturn, keeps_twnHandover, keeps_handoverReq, keeps_handoverStateSend, keeps_handoverStateAck, keeps_handoverTimeout,
    keeps_rejoinStart, keeps_startPath, keeps_shadowCompare, keeps_digestCompare, keeps_scrubBlock, keeps_penaltyDecay, keeps_healthWindowEnd,
    keeps_unhealthyResetTimeout, keeps_twnRelease, keeps_feedLost, keeps_feedOk, keeps_feedReverseCurrent, keeps_oringTest, keeps_pertArm,
    keeps_pertEnd, keeps_claimLossRelinquish, keeps_halfReset, keeps_laneRunStart, keeps_laneOverrun, keeps_nop, keeps_halt, keeps_rpt, keeps_rptv,
    keeps_movi, keeps_mov, keeps_add, keeps_sub, keeps_neg, keeps_abs, keeps_min, keeps_max, keeps_clmp, keeps_shl, keeps_shr, keeps_and, keeps_or,
    keeps_xor, keeps_sel, keeps_cmp, keeps_plog, keeps_mul, keeps_mac, keeps_msu, keeps_lda, keeps_adda, keeps_suba, keeps_mova, keeps_sha,
    keeps_amulv, keeps_str, keeps_aclmp, keeps_ld, keeps_st, keeps_ldw, keeps_stw, keeps_ldx, keeps_movx, keeps_addx, keeps_out, keeps_claspDrain,
    keeps_clnStore, keeps_clnFree, keeps_clnList, keeps_clnSetpoint, keeps_clnMode, keeps_clnManual, keeps_clnInject, keeps_injectionEnd,
    keeps_clnCapArm, keeps_captureTrigger, keeps_clnCapRead, keeps_probeComplete, keeps_hiccupTrip, keeps_hiccupWindowEnd, keeps_hiccupWaitEnd,
    keeps_startComplete, keeps_retriesReset, keeps_loadStepDetected, keeps_holdOffEnd, keeps_phaseAddStart, keeps_phaseShedStart, keeps_burstEntry,
    keeps_burstExit, keeps_pstClear, keeps_cabinetCommandApply, keeps_ditherStep, keeps_plannerRun, keeps_drainComplete, keeps_drainTimeout,
    keeps_polesOpened, keeps_poleOpenTimeout, keeps_polesClosed, keeps_poleCloseTimeout, keeps_matchPass, keeps_matchTimeout,
    keeps_changeCabinetLost, keeps_uncommandedPoleOpen, keeps_cnpAssign, keeps_cnpUnpin, keeps_cnpPoleClear, keeps_thermalUpdate, keeps_ceilingSend,
    keeps_ceilingStage, keeps_predictionDataComplete, keeps_modelInit, keeps_sensorRecovered, keeps_sensorSuspect, keeps_sensorSuspectCleared,
    keeps_coolantRangeCleared, keeps_tjEstimate, keeps_tjDiodeReset, keeps_throttleExit, keeps_derateUpdate, keeps_thermalPowerDown,
    keeps_thermalEmergencyPowerDown, keeps_thermalRestart, keeps_thmRelease, keeps_thmShutdownRead, keeps_flashWriteResume, keeps_bntcSample,
    keeps_pilotStateChange, keeps_slacMessage, keeps_slacMatch, keeps_vehicleMessage, keeps_sessionStateTimeout, keeps_sessionStop,
    keeps_stoppingComplete, keeps_weldCheckComplete, keeps_vehicleStopGraceExpiry, keeps_coolantSessionTimeout, keeps_vehicleLimitsStage,
    keeps_dcmdSend, keeps_dcmdApply, keeps_sessionKeyOrphaned, keeps_sessionFailoverResume, keeps_sessionMirrorAck, keeps_vehAuth, keeps_vehStop,
    keeps_vehList, keeps_vehStatus, keeps_meteringSampleClose, keeps_acBlock, keeps_dualIntegrationCompare, keeps_pulseEmit, keeps_testPulseOutput,
    keeps_adcReferenceCheck, keeps_sealedParameterCheck, keeps_islandFirmwareCheck, keeps_islandWatchdogExpiry, keeps_intakeSupervision,
    keeps_batteryOperationEntry, keeps_batteryOperationEnd, keeps_tamperSample, keeps_metInst, keeps_metLogRead, keeps_metBattRead,
    keeps_demandIntervalClose, keeps_billingPeriodClose, keeps_bilClose, keeps_tariffActivation, keeps_rateSwitch, keeps_billingSave,
    keeps_powerFailSave, keeps_billingRestore, keeps_billingGapCatchup, keeps_timeValidRestored, keeps_lomvorRecord, keeps_displayDwell, keeps_keyA,
    keeps_keyB, keeps_keyC, keeps_keyD, keeps_tokenEntry, keeps_keypad, keeps_tokenEntryTimeout, keeps_keypadLockoutEnd, keeps_creditReport,
    keeps_bilRead, keeps_bilTariffLoad, keeps_bilTariffRead, keeps_bilPeriodRead, keeps_bilIntervalRead, keeps_bilRecordRead, keeps_bilLedgerRead,
    keeps_demandCapStage, keeps_lktGenerate, keeps_lktImport, keeps_lktDerive, keeps_lktAgree, keeps_lktInvalidate, keeps_lktInfo, keeps_lktPublic,
    keeps_lktPair, keeps_lktRoll, keeps_keyrollAckDeadline, keeps_keyrollSwitch, keeps_keyrollRetire, keeps_lktAttest, keeps_lktOp, keeps_lktTxquery,
    keeps_invalidationCutoff, keeps_orphanedOperationAbort, keeps_locketSweep, keeps_journalRecovery, keeps_materialTagFault,
    keeps_safetyInputSample, keeps_safetyDiscrepancy, keeps_channelCompare, keeps_safetyConfigCrcCheck, keeps_islandInternalReset,
    keeps_safetyTestPulse, keeps_contactorFeedbackChange, keeps_feedbackTimeout, keeps_zoneDemand, keeps_envelopeViolation, keeps_energyRemoval,
    keeps_safeStopTimeout, keeps_stoTimeout, keeps_resetPulse, keeps_resetJammed, keeps_zoneReset, keeps_safetyStateDelivery,
    keeps_harvitorPduReceived, keeps_harvitorTimeout, keeps_harvitorDownlinkBuild, keeps_harvitorCycleSend, keeps_safStop, keeps_safFaultClear,
    keeps_safLogRead, keeps_sqTailDoorbell, keeps_commandFetch, keeps_forwardWaitTimeout, keeps_completionWrite, keeps_cqHeadWrite,
    keeps_msixCoalesceTimeout, keeps_ringDmaFault, keeps_ringEnableWrite, keeps_mailboxDatagram, keeps_datagramResendTimeout,
    keeps_bindingIdleExpiry, keeps_sysInfo, keeps_sysSessionOpen, keeps_sysSessionProve, keeps_sysSessionClose, keeps_sessionOpenLapse,
    keeps_sessionIdleExpiry, keeps_roleLockoutEnd, keeps_cfgRead, keeps_cfgShadowRead, keeps_cfgWrite, keeps_cfgCommit, keeps_cfgDiscard,
    keeps_cntClear, keeps_cfgState, keeps_pntRead, keeps_pntReadMulti, keeps_pntWrite, keeps_pntSubscribe, keeps_pntUnsubscribe,
    keeps_subscriptionDelivery, keeps_eventDelivery, keeps_gpioEdge, keeps_gpioSet, keeps_gpioClr, keeps_timerEnable, keeps_timerExpiry,
    keeps_wideValueLatch, keeps_aliasWrite, keeps_claimGatedWrite, keeps_busError, keeps_gateCntClear, keeps_canTxRequest, keeps_canTxAbort,
    keeps_canTxAttemptEnd, keeps_canFrameReceived, keeps_canRxRelease, keeps_canBusOff, keeps_canBoffRecovery, keeps_canErrorStateChange,
    keeps_abrStart, keeps_abrStop, keeps_abrWindowExpiry, keeps_abrFound, keeps_exchangeLimitsFrame, keeps_exchangeSetpointPeriod,
    keeps_exchangeTxb1Next, keeps_lswEnable, keeps_lswDisable, keeps_lswClr, keeps_lswInrushEnd, keeps_lswRetryWaitEnd, keeps_lswLimitTimeout,
    keeps_lswThermal, keeps_lswGroupUndervoltage, keeps_lswGroupUvRecovery, keeps_lswTotalOverload, keeps_lswOpenLoad, keeps_lswSenseStep,
    keeps_lswSlotDutyWrite, keeps_lswPwmPeriod, keeps_lswVfSample, keeps_zeroCrossing, keeps_zcLost, keeps_zcRecovered, keeps_meshCellResponse,
    keeps_meshFrameAbandon, keeps_meshFrameReceived, keeps_meshRelayForward, keeps_beacon, keeps_poll, keeps_linkrep, keeps_mapset,
    keeps_mapsetAckDeadline, keeps_assign, keeps_routeCompute, keeps_meshExchangeTimeout, keeps_meshHarvitorExchange, keeps_rmsTxRequest,
    keeps_rmsRxRelease, keeps_bootStage, keeps_bootBankSelect, keeps_updBegin, keeps_updData, keeps_updEnd, keeps_updActivate, keeps_updStatus,
    keeps_updRemote, keeps_updRecover, keeps_updstat, keeps_updactPreloss, keeps_updact, keeps_trialCommit, keeps_activationRejoinTimeout,
    keeps_singleHalfActivationDrain, keeps_singleHalfActivationReset, keeps_recoveryInfo, keeps_recoveryHeader, keeps_recoveryData,
    keeps_recoveryFinish, keeps_recoveryBoot, keeps_vholdSwitchClose, keeps_holdupStart, keeps_holdupHalvesStop, keeps_holdupIslandsStop,
    keeps_holdupEnd, keeps_moduleStart, keeps_vholdCharged, keeps_resetN, keeps_svcBtnRelease, keeps_svcBtnStuck, keeps_powerStateRequest,
    keeps_wake, keeps_wakeTimerExpiry, keeps_s4BatteryToS5, keeps_ptpAnnounceReceived, keeps_remotePowerUpOrReset, keeps_refereeDailyExercise]

/-- Settles O53: each meaning is built of the state's operations, and each of these stays within the parts listed for the command. -/
theorem everyCommandKeepsItsFrame : Obligations.EveryCommandKeepsItsFrame := fun c s t e => keeps c s t e

end

end Sys2Proof.Machine

/-!
O1, staging entries (R17, R18, R19). Both commands make one update of one entry; the laws of tables say which entries a read finds changed.
-/

namespace Sys2Proof.Machine

section

/-- What leaves the staging of a half alone leaves every entry of it alone. -/
theorem Frame.stage {ps : List Part} {s t : State} {h : Half} (f : Frame ps s t) (m : Part.stg h ∉ ps) (i : Nat) : t.stage h i = s.stage h i := by
  have e : (t.hf h).stg = (s.hf h).stg := f (.stg h) m
  simp [State.stage, e]

/-- A change of entry `i` of a half is what a read of entry `i` finds, and no read of another entry. -/
theorem stage_updStg (s : State) (h : Half) (i j : Nat) (f : HalfSt → StageE → StageE) :
    (s.mh h fun x => { x with stg := upd {} x.stg i (f x) }).stage h j = if i = j then f (s.hf h) (s.stage h i) else s.stage h j := by
  simp [State.stage, look_upd]

theorem stage_stageWrite_other (s : State) (h : Half) {i j : Nat} (v : Int) (n : j ≠ i) : (s.stageWrite h i v).stage h j = s.stage h j := by
  unfold State.stageWrite
  split
  · rw [stage_updStg, if_neg n.symm]
  · rfl

theorem stageWrite_past_last (s : State) (h : Half) {i : Nat} (v : Int) (hi : 270 ≤ i) : s.stageWrite h i v = s := if_neg (Nat.not_lt.2 hi)

theorem stage_stageEv (s : State) (h : Half) (i : Nat) (b : Bool) (j : Nat) : (stageEv s h i b).stage h j = s.stage h j :=
  Frame.stage (frame_ev s h 1 0x0004 _) (by simp [bothMbx]) j

/-- The condition of R19 for an entry to become STALE. -/
def GoesStale (s : State) (h : Half) (i : Nat) : Prop :=
  i < 270 ∧ (s.stage h i).written = true ∧ (s.stage h i).stale = false ∧ (s.stage h i).pend = none ∧ (s.stage h i).stamp + stageAge i < s.tick h

theorem exec_stagingEntryStale_of {s : State} {h : Half} {i : Nat} (g : GoesStale s h i) :
    exec (.stagingEntryStale h i) s = .next (stageEv (s.mh h fun x => { x with stg := upd {} x.stg i fun e => { e with stale := true } }) h i true) := by
  obtain ⟨hi, hw, hst, hp, ha⟩ := g
  exact if_pos (by simp [hi, hw, hst, hp, ha])

theorem exec_stagingEntryStale_of_not {s : State} {h : Half} {i : Nat} (g : ¬ GoesStale s h i) : exec (.stagingEntryStale h i) s = .next s := by
  refine if_neg fun c => g ?_
  simp only [Bool.and_eq_true, decide_eq_true_eq, Bool.not_eq_true', Option.isNone_iff_eq_none] at c
  obtain ⟨⟨⟨⟨hi, hw⟩, hst⟩, hp⟩, ha⟩ := c
  exact ⟨hi, hw, hst, hp, ha⟩

/-- Settles O1: a write and the fall to STALE each update one entry, and the event of R19 touches mailboxes alone. -/
theorem stagingWritesAndStaleness : Obligations.StagingWritesAndStaleness := by
  refine ⟨?write, ?pastLast, ?stale, ?kept⟩
  case write =>
    exact fun s h i v hi => Ends.of_next rfl ⟨stage_stageWrite s h v hi, fun j n => stage_stageWrite_other s h v n, frame_stageWrite s h i v⟩
  case pastLast => exact fun s h i v hi => congrArg Host.Outcome.next (stageWrite_past_last s h v hi)
  case stale =>
    intro s h i hi hw hst hp ha
    refine Ends.of_next (exec_stagingEntryStale_of ⟨hi, hw, hst, hp, ha⟩) ⟨?_, fun j n => ?_, raised_ev .., ?_⟩
    · rw [stage_stageEv, stage_updStg, if_pos rfl]
    · rw [stage_stageEv, stage_updStg, if_neg n.symm]
    · simp [stageEv]
  case kept =>
    intro s h i c
    refine exec_stagingEntryStale_of_not fun ⟨hi, hw, hst, hp, ha⟩ => ?_
    rcases c with c | c | c | c | c
    · omega
    · simp [hw] at c
    · simp [hst] at c
    · simp [hp] at c
    · omega

end

end Sys2Proof.Machine

/-!
O2, the points (R34 to R40). Each command changes the slots of one half by one entry of its table; what a read of the table, the queue of copies and the rest of
the device find afterwards is said once for each, and the clauses are read off.
-/

namespace Sys2Proof.Machine

section

/-! ### A write to a point -/

/-- The slot that a write to the point at `idx` of half `h` leaves (R36). -/
def State.written (s : State) (h : Half) (idx owner typ : Nat) (v : PVal) (pend : Bool) : Slot :=
  match look none (s.hf h).pts idx with
  | some p => { p with typ := typ, valid := true, stale := false, owner := owner, stamp := s.tick h, wseq := (p.wseq + 1) % 2 ^ 32, val := v,
                       mirrorPending := pend, restoring := false }
  | none => { typ := typ, owner := owner, stamp := s.tick h, wseq := 1, rd := classRd ((classOf idx).getD 0), wr := classWr ((classOf idx).getD 0), val := v,
              mirrorPending := pend }

/-- The point at `idx` of half `h` takes the slot `p`, and its copy is queued where it is to go to the other half. -/
def State.putPoint (s : State) (h : Half) (idx : Nat) (p : Slot) (pend : Bool) : State :=
  s.mh h fun x => { x with pts := put none x.pts idx (some p), mirOut := if pend then x.mirOut ++ [{ idx := idx, slot := p }] else x.mirOut }

/-- Where the class is kept in flash, the bytes of one slot are counted (R39, R333). -/
def State.countSlot (s : State) (h : Half) (kept : Bool) : State := if kept then s.flashWrite h 128 else s

theorem frame_countSlot (s : State) (h : Half) (kept : Bool) : Frame [.thm h] s (s.countSlot h kept) :=
  Frame.ite (fun _ => frame_flashWrite s h 128) (fun _ => Frame.refl _ s)

@[simp] theorem Frame.after_countSlot {ps : List Part} {z s : State} (h : Half) (kept : Bool) (fr : Frame ps z s) (m : .thm h ∈ ps) :
    Frame ps z (s.countSlot h kept) := Frame.via (frame_countSlot s h kept) (by simp [m]) fr

@[simp] theorem pts_countSlot (s : State) (h k : Half) (b : Bool) : ((s.countSlot h b).hf k).pts = (s.hf k).pts := frame_countSlot s h b (.pts k) (by simp)
@[simp] theorem mirOut_countSlot (s : State) (h k : Half) (b : Bool) : ((s.countSlot h b).hf k).mirOut = (s.hf k).mirOut :=
  frame_countSlot s h b (.mirOut k) (by simp)
@[simp] theorem tck_countSlot (s : State) (h k : Half) (b : Bool) : ((s.countSlot h b).hf k).tck = (s.hf k).tck := frame_countSlot s h b (.tck k) (by simp)

@[simp] theorem written_countSlot (s : State) (h : Half) (b : Bool) (idx owner typ : Nat) (v : PVal) (pend : Bool) :
    (s.countSlot h b).written h idx owner typ v pend = s.written h idx owner typ v pend := by
  simp [State.written, State.tick]

/-- A write to a point counts the flash bytes, and puts the slot. -/
theorem writePoint_eq (s : State) (h : Half) (idx owner typ : Nat) (v : PVal) (pend : Bool) :
    s.writePoint h idx owner typ v pend =
      (s.countSlot h (decide (5 ≤ (classOf idx).getD 0) && flashKept ((classOf idx).getD 0))).putPoint h idx (s.written h idx owner typ v pend) pend := by
  rw [← written_countSlot s h (decide (5 ≤ (classOf idx).getD 0) && flashKept ((classOf idx).getD 0))]
  rfl

theorem frame_writePoint_half (s : State) (h : Half) (idx owner typ : Nat) (v : PVal) (pend : Bool) :
    Frame [.pts h, .mirOut h, .thm h] s (s.writePoint h idx owner typ v pend) := by
  simp [writePoint_eq, State.putPoint]

theorem pts_writePoint (s : State) (h : Half) (idx owner typ : Nat) (v : PVal) (pend : Bool) :
    ((s.writePoint h idx owner typ v pend).hf h).pts = put none (s.hf h).pts idx (some (s.written h idx owner typ v pend)) := by
  simp [writePoint_eq, State.putPoint]

theorem mirOut_writePoint_pend (s : State) (h : Half) (idx owner typ : Nat) (v : PVal) :
    ((s.writePoint h idx owner typ v true).hf h).mirOut = (s.hf h).mirOut ++ [{ idx := idx, slot := s.written h idx owner typ v true }] := by
  simp [writePoint_eq, State.putPoint]

theorem written_fields (s : State) (h : Half) (idx owner typ : Nat) (v : PVal) :
    ∃ p, s.written h idx owner typ v true = p ∧ p.typ = typ ∧ p.val = v ∧ p.valid = true ∧ p.stale = false ∧ p.owner = owner ∧
      p.stamp = s.tick h ∧ p.mirrorPending = true ∧ p.restoring = false ∧
      p.wseq = (match look none (s.hf h).pts idx with | some q => (q.wseq + 1) % 2 ^ 32 | none => 1) := by
  refine ⟨_, rfl, ?_⟩
  unfold State.written
  split <;> simp

/-! ### The commands -/

theorem exec_pointOwnerWrite_of {s : State} {h : Half} {idx owner typ cls : Nat} {v : PVal} (hc : s.charge = some h) (hi : classOf idx = some cls)
    (ho : ownerMay owner cls = true) (ht : 1 ≤ typ ∧ typ ≤ 7) : exec (.pointOwnerWrite idx owner typ v) s = .next (s.writePoint h idx owner typ v true) := by
  have e : (if decide (1 ≤ typ ∧ typ ≤ 7) && ownerMay owner ((classOf idx).getD 0) then s.ownerWrite idx owner typ v else s) =
      s.writePoint h idx owner typ v true := by simp [State.ownerWrite, hc, hi, ho, ht]
  exact congrArg Host.Outcome.next e

theorem exec_pointOwnerWrite_of_not {s : State} {idx owner typ : Nat} {v : PVal}
    (c : s.charge = none ∨ classOf idx = none ∨ ownerMay owner ((classOf idx).getD 0) = false ∨ typ = 0 ∨ 7 < typ) :
    exec (.pointOwnerWrite idx owner typ v) s = .next s := by
  have e : (if decide (1 ≤ typ ∧ typ ≤ 7) && ownerMay owner ((classOf idx).getD 0) then s.ownerWrite idx owner typ v else s) = s := by
    rcases c with c | c | c | c | c
    · simp [State.ownerWrite, c]
    · simp only [State.ownerWrite, c]
      split
      · split <;> simp_all
      · rfl
    · simp [c]
    · simp [c]
    · rw [if_neg]
      simp only [Bool.and_eq_true, decide_eq_true_eq]
      omega
  exact congrArg Host.Outcome.next e

/-- The state MIRROR_COPY_RECEIVED leaves: the copy's slot in the receiving half, and the copy marked as applied in the writing half. -/
def State.takeCopy (s : State) (h : Half) (c : MirrorCopy) : State :=
  ((s.countSlot h (match classOf c.idx with | some k => decide (5 ≤ k) && flashKept k | none => false)).mh (other h)
    fun x => { x with mirOut := markApplied x.mirOut }).mh h fun x => { x with pts := put none x.pts c.idx (some { c.slot with mirrorPending := false }) }

theorem exec_mirrorCopyReceived_of {s : State} {h : Half} {c : MirrorCopy} {l : List MirrorCopy} (hm : (s.hf (other h)).mirOut = c :: l)
    (ha : c.applied = false) (hu : s.twinUp h = true) : exec (.mirrorCopyReceived h) s = .next (s.takeCopy h c) := by
  have e : (s.hf (other h)).mirOut.find? (fun c => !c.applied) = some c := by simp [hm, ha]
  dsimp only [exec, execMirrorCopyReceived]
  rw [e]
  exact if_pos hu

theorem exec_mirrorCopyReceived_of_not {s : State} {h : Half} (n : s.twinUp h = false ∨ ∀ c ∈ (s.hf (other h)).mirOut, c.applied = true) :
    exec (.mirrorCopyReceived h) s = .next s := by
  dsimp only [exec, execMirrorCopyReceived]
  split
  · rfl
  next c e =>
    rcases n with n | n
    · exact if_neg (by simp [n])
    · simpa [n c (List.mem_of_find?_eq_some e)] using List.find?_some e

/-- What the two halves hold after a copy was taken. -/
theorem pts_takeCopy (s : State) (h : Half) (c : MirrorCopy) :
    ((s.takeCopy h c).hf h).pts = put none (s.hf h).pts c.idx (some { c.slot with mirrorPending := false }) := by
  simp [State.takeCopy, hf_mh]

theorem mirOut_takeCopy (s : State) (h : Half) (c : MirrorCopy) : ((s.takeCopy h c).hf (other h)).mirOut = markApplied (s.hf (other h)).mirOut := by
  simp [State.takeCopy, hf_mh]

theorem frame_takeCopy (s : State) (h : Half) (c : MirrorCopy) : Frame [.pts h, .mirOut (other h), .thm h] s (s.takeCopy h c) := by
  simp (maxDischargeDepth := 8) [State.takeCopy]

/-- The slots MIRROR_ACK leaves: MIRROR_PENDING of the copy's point is cleared where no other copy of it waits. -/
def ackPoints (t : Tab (Option Slot)) (idx : Nat) (l : List MirrorCopy) : Tab (Option Slot) :=
  if l.any (fun d => d.idx = idx) then t else
    match look none t idx with
    | some p => put none t idx (some { p with mirrorPending := false })
    | none => t

theorem exec_mirrorAck_of {s : State} {h : Half} {c : MirrorCopy} {l : List MirrorCopy} (hm : (s.hf h).mirOut = c :: l) (ha : c.applied = true) :
    exec (.mirrorAck h) s = .next (s.mh h fun x => { x with mirOut := l, pts := ackPoints x.pts c.idx l }) := by
  dsimp only [exec, execMirrorAck]
  rw [hm]
  exact if_neg (by simp [ha])

theorem look_ackPoints_same {t : Tab (Option Slot)} {idx : Nat} {p : Slot} (l : List MirrorCopy) (hp : look none t idx = some p) :
    look none (ackPoints t idx l) idx = some { p with mirrorPending := p.mirrorPending && l.any fun d => d.idx = idx } := by
  unfold ackPoints
  split
  next c => simp [hp, c]
  next c => simp [hp, c]

theorem look_ackPoints_other (t : Tab (Option Slot)) {idx j : Nat} (l : List MirrorCopy) (n : j ≠ idx) : look none (ackPoints t idx l) j = look none t j := by
  unfold ackPoints
  split
  · rfl
  · split
    · exact look_put_other none _ t n.symm
    · rfl

/-- An update of a half that gives back what the half holds changes nothing. -/
theorem mh_eq_self {s : State} {h : Half} {f : HalfSt → HalfSt} (e : f (s.hf h) = s.hf h) : s.mh h f = s := by
  unfold State.mh
  rw [e]
  cases h <;> rfl

theorem exec_pointRestoreComplete_of {s : State} {h : Half} {idx : Nat} {p : Slot} (hp : look none (s.hf h).pts idx = some p) (hw : (s.hf h).restWait = []) :
    exec (.pointRestoreComplete h idx) s = .next (s.mh h fun x => { x with pts := put none x.pts idx (some { p with restoring := false }) }) := by
  dsimp only [exec, execPointRestoreComplete]
  rw [hp]
  simp only [hf_mh_same, hw, List.foldl_nil]
  exact congrArg Host.Outcome.next (mh_eq_self (by simp [hw]))

/-- Settles O2: each command changes one entry of one half's slots, and what it queues or takes off a queue is one copy. -/
theorem pointWritesAndMirror : Obligations.PointWritesAndMirror := by
  refine ⟨?write, ?noWrite, ?copy, ?noCopy, ?ack, ?restore, ?noSlot⟩
  case write =>
    intro s h idx owner typ cls v hc hi ho h1 h7
    refine Ends.of_next (exec_pointOwnerWrite_of hc hi ho ⟨h1, h7⟩) ⟨?_, fun j n => ?_, frame_writePoint_half s h idx owner typ v true⟩
    · obtain ⟨p, e, hp⟩ := written_fields s h idx owner typ v
      obtain ⟨htyp, hval, hvalid, hstale, howner, hstamp, hpend, hrest, hseq⟩ := hp
      refine ⟨p, ?_, htyp, hval, hvalid, hstale, howner, hstamp, hpend, hrest, hseq, ?_⟩
      · rw [pts_writePoint, look_put_same, e]
      · rw [mirOut_writePoint_pend, e]
    · rw [pts_writePoint, look_put_other _ _ _ n.symm]
  case noWrite => exact fun s idx owner typ v c => exec_pointOwnerWrite_of_not c
  case copy =>
    intro s h c l hm ha hu
    refine Ends.of_next (exec_mirrorCopyReceived_of hm ha hu) ⟨?_, ?_, fun j n => ?_, frame_takeCopy s h c⟩
    · rw [pts_takeCopy, look_put_same]
    · rw [mirOut_takeCopy, hm, markApplied, if_neg (by simp [ha])]
    · rw [pts_takeCopy, look_put_other _ _ _ n.symm]
  case noCopy => exact fun s h n => exec_mirrorCopyReceived_of_not n
  case ack =>
    intro s h c l p hm ha hp
    refine Ends.of_next (exec_mirrorAck_of hm ha) ⟨by simp, ?_, fun j n => ?_, by simp⟩
    · rw [hf_mh_same, look_ackPoints_same l hp]
    · rw [hf_mh_same, look_ackPoints_other _ l n]
  case restore =>
    intro s h idx p hp hw
    refine Ends.of_next (exec_pointRestoreComplete_of hp hw) ⟨?_, fun j n => ?_, by simp⟩
    · rw [hf_mh_same, look_put_same]
    · rw [hf_mh_same, look_put_other _ _ _ n.symm]
  case noSlot =>
    intro s h idx hp
    dsimp only [exec, execPointRestoreComplete]
    rw [hp]

end

end Sys2Proof.Machine

/-!
O9, the tick edge, the commit snapshot and the snapshot (R17 to R31, R58, R61, R78 to R81). Of all that an edge does, only the commits of the tick unit's own
block come near the tick unit, and they leave the tick number and the accumulator alone; only health, service and the relays come near what says which half is in
charge. Both are said once, as a relation between the states before and after (`EdgeKeeps`) that each stage of the edge satisfies; what the stages leave alone
otherwise, their frames say.
-/

namespace Sys2Proof.Machine

section

/-! ### What every stage of an edge keeps -/

/-- The tick number and the accumulator of half `h`, the tick unit of the other half, and which half is in charge are as before. -/
structure EdgeKeeps (h : Half) (s t : State) : Prop where
  tick : t.tick h = s.tick h
  acc : (t.hf h).tck.acc = (s.hf h).tck.acc
  other : (t.hf (other h)).tck = (s.hf (other h)).tck
  charge : t.charge = s.charge

theorem EdgeKeeps.refl (h : Half) (s : State) : EdgeKeeps h s s := ⟨rfl, rfl, rfl, rfl⟩
theorem EdgeKeeps.trans {h : Half} {s t u : State} (a : EdgeKeeps h s t) (b : EdgeKeeps h t u) : EdgeKeeps h s u :=
  ⟨b.tick.trans a.tick, b.acc.trans a.acc, b.other.trans a.other, b.charge.trans a.charge⟩

theorem EdgeKeeps.foldl {α : Type} {h : Half} {f : State → α → State} (k : ∀ s a, EdgeKeeps h s (f s a)) :
    (l : List α) → (s : State) → EdgeKeeps h s (l.foldl f s)
  | [], s => .refl h s
  | a :: l, s => (k s a).trans (EdgeKeeps.foldl k l (f s a))

theorem EdgeKeeps.ite {h : Half} {s t u : State} {c : Prop} [Decidable c] (a : EdgeKeeps h s t) (b : EdgeKeeps h s u) : EdgeKeeps h s (if c then t else u) := by
  split <;> assumption

/-- The parts that a stage must not list: the tick units, and what says which half is in charge. -/
def clockParts : List Part := [.tck .A, .tck .B, .twn .A, .twn .B, .ref]

/-- A stage whose frame lists none of them keeps all four. -/
theorem EdgeKeeps.of_frame {ps : List Part} {s t : State} (h : Half) (f : Frame ps s t) (m : ∀ p ∈ clockParts, p ∉ ps) : EdgeKeeps h s t := by
  have ht (k : Half) : (t.hf k).tck = (s.hf k).tck := f (.tck k) (m _ (by cases k <;> decide))
  have hw (k : Half) : (t.hf k).twn = (s.hf k).twn := f (.twn k) (m _ (by cases k <;> decide))
  exact ⟨by simp [State.tick, ht], by rw [ht], ht _, charge_congr (f .ref (m _ (by decide))) hw⟩

/-- Which half is in charge turns on the token and on which half acts. -/
theorem charge_of_token {s t : State} (hr : t.ref.token = s.ref.token) (ha : ∀ k, (t.hf k).twn.acting = (s.hf k).twn.acting) : t.charge = s.charge := by
  simp only [State.charge, hr, ha]

theorem EdgeKeeps.mTwn (h k : Half) (s : State) {f : TwnS → TwnS} (e : ∀ t, (f t).acting = t.acting) : EdgeKeeps h s (s.mTwn k f) := by
  refine ⟨by simp [State.tick], by simp, by simp, charge_of_token (by simp) fun j => ?_⟩
  simp only [State.mTwn, hf_mh]
  split <;> simp [e]

/-- The referee's record may change anywhere but in its token. -/
theorem EdgeKeeps.mRef (h : Half) (s : State) {r : Referee} (e : r.token = s.ref.token) : EdgeKeeps h s { s with ref := r } :=
  ⟨rfl, rfl, rfl, charge_of_token e fun _ => rfl⟩

/-! ### The stages of an edge -/

theorem EdgeKeeps.enterService (h : Half) (s : State) : EdgeKeeps h s (enterService s h) := by
  unfold Machine.enterService
  have e : EdgeKeeps h s (s.mTwn h fun t => { t with service := (s.hf h).twn.service || (s.hf h).twn.svcNext, svcNext := false }) := .mTwn h h s fun _ => rfl
  exact .ite (e.trans (.mRef h _ rfl)) e

theorem EdgeKeeps.genUp (h k : Half) (s : State) (n : Nat) : EdgeKeeps h s (s.genUp k n) := by
  unfold State.genUp
  split
  · exact .refl h s
  · have e : EdgeKeeps h s (s.mTwn k fun t => { t with gen := (t.gen + n) % 2 ^ 32, img := cfgImage s k }) := .mTwn h k s fun _ => rfl
    exact .ite (e.trans (.mRef h _ rfl)) e

theorem EdgeKeeps.relayOut (h k : Half) (s : State) (l : List RelayC) : EdgeKeeps h s (s.relayOut k l) :=
  .ite (.mTwn h _ s fun _ => rfl) (.refl h s)

theorem EdgeKeeps.mTck (h : Half) (s : State) {f : TckS → TckS} (et : ∀ t, (f t).tick = t.tick) (ea : ∀ t, (f t).acc = t.acc) : EdgeKeeps h s (s.mTck h f) :=
  ⟨by simp [State.tick, State.mTck, et], by simp [State.mTck, ea], by simp [State.mTck, hf_mh], by simp⟩

/-- A commit of the tick unit changes its rate and its state, not its tick number (R80). -/
theorem EdgeKeeps.tckCommit (h : Half) (s : State) : EdgeKeeps h s (tckCommit s h) := by
  unfold Machine.tckCommit
  split
  · exact .refl h s
  · exact .mTck h s (fun _ => rfl) fun _ => rfl

/-- The commits of the other blocks do not come near the tick unit. -/
theorem frame_blockEffect_other (s : State) (h : Half) {b : Blk} (n : b ≠ .tck) (old : OldWords) (wr : List Nat) :
    Frame [.free, .regs .cln, .regs .pst, .regs .cnp, .regs .can, .shadow, .ports .A, .ports .B, .cln .A, .cln .B, .pst .A, .pst .B, .cnp .A, .cnp .B,
      .thm .A, .thm .B, .mbx .A, .mbx .B, .met, .saf] s (blockEffect s h b old wr) := by
  cases b
  case tck => exact absurd rfl n
  all_goals simp +contextual [blockEffect]

theorem EdgeKeeps.blockEffect (h : Half) (s : State) (b : Blk) (old : OldWords) (wr : List Nat) : EdgeKeeps h s (blockEffect s h b old wr) := by
  by_cases n : b = .tck
  · subst n; exact .tckCommit h s
  · exact .of_frame h (frame_blockEffect_other s h n old wr) (by decide)

theorem EdgeKeeps.putWords (h k : Half) (s : State) (b : Blk) (snap : List (Nat × Word)) : EdgeKeeps h s (putWords s k b snap) :=
  .of_frame h (frame_putWords s k b snap) (by decide)
theorem EdgeKeeps.cfgPoints (h k : Half) (s : State) (b : Blk) (snap : List (Nat × Word)) : EdgeKeeps h s (cfgPoints s k b snap) :=
  .of_frame h (frame_cfgPoints s k b snap) (by decide)
theorem EdgeKeeps.answerWaiters (h k : Half) (s : State) (ws : List Waiter) (st : Nat) : EdgeKeeps h s (answerWaiters s k ws st) :=
  .of_frame h (frame_answerWaiters s k ws st) (by decide)

theorem EdgeKeeps.relayOne (h : Half) (s : State) (e : RelayC) : EdgeKeeps h s (relayOne h s e) := by
  unfold Machine.relayOne
  split
  · exact .refl h s
  · exact .ite (((EdgeKeeps.putWords h h s _ _).trans (.cfgPoints h h _ _ _)).trans (.blockEffect h _ _ _ _)) (.refl h s)

theorem EdgeKeeps.applyRelay (h : Half) (s : State) : EdgeKeeps h s (applyRelay s h) := by
  unfold Machine.applyRelay
  extract_lets w n s₁
  have k₁ : EdgeKeeps h s s₁ := .foldl (EdgeKeeps.relayOne h) _ s
  have k₂ : EdgeKeeps h s₁ (s₁.mTwn h fun t => { t with relay := t.relay.drop n, relayReady := 0 }) := .mTwn h h s₁ fun _ => rfl
  exact .ite (.refl h s) ((k₁.trans k₂).trans (.genUp h h _ n))

theorem EdgeKeeps.applyBlk (h : Half) (s : State) (b : Blk) : EdgeKeeps h s (applyBlk h s b) := by
  unfold Machine.applyBlk
  extract_lets d snap old wr s₁ s₂ s₃
  have k₁ : EdgeKeeps h s s₁ := (EdgeKeeps.putWords h h s b snap).trans (.cfgPoints h h _ b snap)
  have k₂ : EdgeKeeps h s₁ s₂ := .of_frame (ps := [.blocks]) h (by simp [s₂]) (by decide)
  have k₃ : EdgeKeeps h s₂ s₃ := .of_frame (ps := [.cln .A, .cln .B]) h (by simp [s₃]) (by decide)
  exact (((k₁.trans k₂).trans k₃).trans (.blockEffect h _ b old wr)).trans (.answerWaiters h h _ _ _)

theorem EdgeKeeps.runCommits (h : Half) (s : State) : EdgeKeeps h s (runCommits s h) := by
  unfold Machine.runCommits
  extract_lets due host plans pblks s₁ all r relays s₂ s₃ s₄
  have k₁ : EdgeKeeps h s s₁ := .of_frame h (frame_planSnaps s h plans pblks) (by decide)
  have k₂ : EdgeKeeps h s₁ s₂ := .foldl (fun u b => .ite (.of_frame h (frame_applyPlanned h u b) (by decide)) (.applyBlk h u b)) _ _
  have k₃ : EdgeKeeps h s₂ s₃ :=
    .foldl (fun u x => .ite (.of_frame h (frame_refusePlanned h u x) (by decide)) (.of_frame h (frame_refuseBlk h u x) (by decide))) _ _
  have k₄ : EdgeKeeps h s₃ s₄ := .ite (.genUp h _ _ _) (.refl h _)
  have k₅ : EdgeKeeps h s₄ (s₄.planEdge h host (r.2.map (·.blk))) := .of_frame h (frame_planEdge _ _ _ _) (by decide)
  exact (((((k₁.trans k₂).trans k₃).trans k₄).trans k₅).trans (.genUp h h _ _)).trans (.relayOut h h _ _)

theorem EdgeKeeps.startPert (h : Half) (s : State) : EdgeKeeps h s (startPert s h) := .ite (.mTwn h h s fun _ => rfl) (.refl h s)
theorem EdgeKeeps.echoCounts (h : Half) (s : State) : EdgeKeeps h s (echoCounts s h) := by
  unfold Machine.echoCounts
  extract_lets w
  have k (v : Word) : EdgeKeeps h s (s.srg .twn h 0x14 v) := .of_frame (ps := [.regs .twn]) h (by simp) (by decide)
  exact (k _).trans (.mTwn h h _ fun _ => rfl)

/-! ### The edge as a whole -/

/-- The tick counts on, and its edge is the first cycle at which the accumulator reaches it (R56, R58). -/
def State.nextTick (s : State) (h : Half) : State := s.mTck h fun t => { t with tick := t.tick + 1, acc := accAt t.acc t.rate (t.tick + 1) }

/-- What a half does at its edge after the banks have swapped, up to what only the half in charge does. -/
def State.edgeWork (s : State) (h : Half) : State :=
  let s := runCommits (applyRelay (((List.range 80).foldl (rejoinPort h) s).runStores h) h) h
  savePoints (((startPert (echoCounts s h) h).opsDone h).orphanSessions h) h

/-- The edge of a half with no time step waiting, up to what only the half in charge does. -/
def State.beforeCharge (s : State) (h : Half) : State := ((s.hf h).stg.foldl (swapStage h) (enterService (s.nextTick h) h)).edgeWork h

/-- The edge of a half with no time step waiting. -/
def State.edge (s : State) (h : Half) : State := (chargeEdge (s.beforeCharge h) h).renewHealth h

theorem exec_tickEdge_of {s : State} {h : Half} (hb : (s.hf h).twn.booted = true) (hh : (s.hf h).twn.held = false) (hs : (s.hf h).tck.tickSet = true)
    (hn : (s.hf h).tck.step = none) : exec (.tickEdge h) s = .next (s.edge h) := by
  have e : newTick (s.hf h).tck = ((s.hf h).tck.tick + 1, none) := by simp [newTick, hn]
  dsimp only [exec, execTickEdge]
  rw [if_neg (by simp [hb, hh, hs]), e]
  rfl

theorem execTickEdge_of_not {s : State} {h : Half} (e : (!(s.hf h).twn.booted || (s.hf h).twn.held || !(s.hf h).tck.tickSet) = true) :
    execTickEdge h s = .next s := by
  unfold execTickEdge
  exact if_pos e

theorem exec_tickEdge_of_not {s : State} {h : Half} (c : (s.hf h).twn.booted = false ∨ (s.hf h).twn.held = true ∨ (s.hf h).tck.tickSet = false) :
    exec (.tickEdge h) s = .next s := by
  have e : (!(s.hf h).twn.booted || (s.hf h).twn.held || !(s.hf h).tck.tickSet) = true := by rcases c with c | c | c <;> simp [c]
  exact execTickEdge_of_not e

/-- The parts an edge's work may change: none of them staging, the RTC, the update unit or a unit the edge does not run. -/
def edgeParts : List Part :=
  allRegs ++ ([.free, .shadow, .blocks, .tck .A, .tck .B, .pts .A, .pts .B, .saved .A, .saved .B, .mirOut .A, .mirOut .B, .ports .A, .ports .B, .twn .A, .twn .B,
    .cln .A, .cln .B, .pst .A, .pst .B, .cnp .A, .cnp .B, .thm .A, .thm .B, .mbx .A, .mbx .B, .ref, .met, .lkt, .saf] : List Part)

theorem frame_edgeWork (s : State) (h : Half) : Frame edgeParts s (s.edgeWork h) := by
  unfold State.edgeWork
  extract_lets s₁
  have f₁ : Frame edgeParts s s₁ := by
    simp (maxDischargeDepth := 8) +contextual [s₁, edgeParts]
  exact f₁.trans (by simp (maxDischargeDepth := 8) [edgeParts])

theorem EdgeKeeps.edgeWork (h : Half) (s : State) : EdgeKeeps h s (s.edgeWork h) := by
  unfold State.edgeWork
  extract_lets s₁
  have k₁ : EdgeKeeps h s (((List.range 80).foldl (rejoinPort h) s).runStores h) :=
    (EdgeKeeps.foldl (fun u p => .of_frame h (frame_rejoinPort h u p) (by decide)) _ s).trans (.of_frame h (frame_runStores _ h) (by decide))
  have k₂ : EdgeKeeps h s s₁ := (k₁.trans (.applyRelay h _)).trans (.runCommits h _)
  have k₃ : EdgeKeeps h s (Machine.startPert (Machine.echoCounts s₁ h) h) := (k₂.trans (.echoCounts h _)).trans (.startPert h _)
  exact ((k₃.trans (.of_frame h (frame_opsDone _ h) (by decide))).trans (.of_frame h (frame_orphanSessions _ h) (by decide))).trans
    (.of_frame h (frame_savePoints _ h) (by decide))

/-- With no activation under way the update unit does nothing at an edge. -/
theorem actTick_idle {s : State} (e : s.upd.act = none) : s.actTick = s := by simp [State.actTick, e]

theorem chargeEdge_of_other {s : State} {h : Half} (e : s.charge = some (other h)) : chargeEdge s h = s := by
  simp [chargeEdge, e]

theorem charge_rtcCount (s : State) : (rtcCount s).charge = s.charge := charge_congr rfl fun _ => rfl

/-- What the half in charge does at its edge where no activation is under way. -/
theorem chargeEdge_of {s : State} {h : Half} (e : s.charge = some h) (ha : s.upd.act = none) :
    chargeEdge s h = measureVolts (billingTick ((rtcCount s).srg .gpio .A 0x20 ((rtcCount s).rg .gpio .A 0x08))) := by
  have hu : (billingTick ((rtcCount s).srg .gpio .A 0x20 ((rtcCount s).rg .gpio .A 0x08))).upd.act = none := by
    have e : (billingTick ((rtcCount s).srg .gpio .A 0x20 ((rtcCount s).rg .gpio .A 0x08))).upd = _ := frame_billingTick _ .upd (by decide)
    rw [e]; exact ha
  simp only [chargeEdge, e, true_or, if_true, charge_rtcCount, actTick_idle hu]

theorem frame_chargeEdge_idle {s : State} (h : Half) (ha : s.upd.act = none) :
    Frame [.free, .pts .A, .pts .B, .mirOut .A, .mirOut .B, .thm .A, .thm .B, .bil, .rtc, .regs .gpio, .regs .pwr] s (chargeEdge s h) := by
  by_cases e : s.charge = some h
  · rw [chargeEdge_of e ha]
    simp (maxDischargeDepth := 8)
  · have c : ¬ (rtcCount s).charge = some h := by rwa [charge_rtcCount]
    unfold chargeEdge
    split
    · simp [c]
    · simp [e]

/-- The RTC counts one or two at an edge of the half in charge (R61). -/
theorem rtc_chargeEdge {s : State} {h : Half} (e : s.charge = some h) (ha : s.upd.act = none) : (chargeEdge s h).rtc = s.rtc + 1 + s.freeVal 0 % 2 := by
  rw [chargeEdge_of e ha]
  have hm (u : State) : (measureVolts u).rtc = u.rtc := frame_measureVolts u .rtc (by decide)
  have hb (u : State) : (billingTick u).rtc = u.rtc := frame_billingTick u .rtc (by decide)
  rw [hm, hb]
  rfl

/-! ### The banks swap -/

theorem frame_swapStage_half (h : Half) (s : State) (e : Nat × StageE) : Frame [.stg h, .mbx .A, .mbx .B] s (swapStage h s e) := by
  unfold swapStage
  split <;> simp (maxDischargeDepth := 8) [stageEv]

theorem frame_swaps (s : State) (h : Half) : (l : Tab StageE) → Frame [.stg h, .mbx .A, .mbx .B] s (l.foldl (swapStage h) s) :=
  fun l => Frame.foldl (frame_swapStage_half h) l s

/-- An entry written before the edge becomes visible at it. -/
theorem stage_swapStage (h : Half) (s : State) (i : Nat) {e : StageE} {v : Int} (p : e.pend = some v) :
    (swapStage h s (i, e)).stage h i = { s.stage h i with val := v, stamp := (s.stage h i).pendStamp, written := true, stale := false, pend := none } := by
  unfold swapStage
  rw [p]
  dsimp only
  split
  · rw [stage_stageEv, stage_updStg, if_pos rfl]
  · rw [stage_updStg, if_pos rfl]

/-! ### A fold over a list that names each of its entries once -/

/-- What one step of a fold brings about holds after the fold, where the other steps leave it, and what it needs, alone. -/
theorem foldl_at {α β : Type} {f : β → α → β} {P Q : β → Prop} {a : α} (before : ∀ s b, b ≠ a → P s → P (f s b)) (at_ : ∀ s, P s → Q (f s a))
    (after : ∀ s b, b ≠ a → Q s → Q (f s b)) : (l : List α) → l.Nodup → a ∈ l → (s : β) → P s → Q (l.foldl f s)
  | [], _, m, _, _ => nomatch m
  | b :: l, nd, m, s, hp => by
    obtain ⟨nb, nd⟩ := List.nodup_cons.1 nd
    rcases List.mem_cons.1 m with e | m
    · subst e
      have keep (l : List α) (n : a ∉ l) (s : β) (hq : Q s) : Q (l.foldl f s) := by
        induction l generalizing s with
        | nil => exact hq
        | cons c l ih => exact ih (fun m => n (List.mem_cons_of_mem _ m)) _ (after s c (fun e => n (by simp [e])) hq)
      exact keep l nb _ (at_ s hp)
    · exact foldl_at before at_ after l nd m _ (before s b (fun e => nb (e ▸ m)) hp)

/-! ### The commit snapshot (R21, R27) -/

theorem blk_mBlk (s : State) (b c : Blk) (h k : Half) (f : BlockDyn → BlockDyn) :
    (s.mBlk b h f).blk c k = if blkKey b h = blkKey c k then f (s.blk b h) else s.blk c k := look_upd ..

theorem blkKey_ne {b c : Blk} (n : c ≠ b) (h k : Half) : blkKey b h ≠ blkKey c k := by
  have hb : (if perHalf b then hbit h else 0) ≤ 1 := by split <;> cases h <;> simp [hbit]
  have hc : (if perHalf c then hbit k else 0) ≤ 1 := by split <;> cases k <;> simp [hbit]
  have hi : blkIdx b ≠ blkIdx c := by cases b <;> cases c <;> first | exact absurd rfl n | decide
  simp only [blkKey]
  omega

theorem blkKey_other_ne {b : Blk} (p : perHalf b = true) (h : Half) : blkKey b (other h) ≠ blkKey b h := by
  cases h <;> simp [blkKey, p, hbit, other]

theorem shadow_snapBlock (h : Half) (both : Bool) (s : State) (b : Blk) : (snapBlock h both s b).shadow = s.shadow := by
  unfold snapBlock
  split
  · dsimp only
    split <;> rfl
  · rfl

theorem blk_snapBlock_other (h : Half) (both : Bool) (s : State) {b c : Blk} (n : c ≠ b) (k : Half) : (snapBlock h both s b).blk c k = s.blk c k := by
  have e (j : Half) : ¬ blkKey b j = blkKey c k := blkKey_ne n j k
  unfold snapBlock
  split
  · dsimp only
    split <;> simp [blk_mBlk, e]
  · rfl

/-- Block `b`, armed and not yet snapshot, takes its shadow words, in both halves where the snapshot reaches both. -/
theorem blk_snapBlock (h : Half) (both : Bool) {s : State} {b : Blk} (hr : (s.blk b h).roles ≠ []) (hn : (s.blk b h).snap = none) :
    ((snapBlock h both s b).blk b h).snap = some (shadowWords s b h) ∧ (both = true → perHalf b = true →
      ((snapBlock h both s b).blk b (other h)).snap = some (shadowWords s b h) ∧ ((snapBlock h both s b).blk b (other h)).st = 1) := by
  unfold snapBlock
  rw [if_pos (by simp [hr, hn])]
  dsimp only
  by_cases c : both = true ∧ perHalf b = true
  · obtain ⟨hb, hp⟩ := c
    simp [hb, hp, blk_mBlk, blkKey_other_ne hp h]
  · rw [if_neg (by simpa using c)]
    exact ⟨by simp [blk_mBlk], fun hb hp => absurd ⟨hb, hp⟩ c⟩

/-- The snapshot of the half in charge takes every armed block once. -/
theorem blk_snapBlocks (h : Half) (both : Bool) (s : State) {b : Blk} (m : b ∈ commitBlks) (hr : (s.blk b h).roles ≠ []) (hn : (s.blk b h).snap = none) :
    ((commitBlks.foldl (snapBlock h both) s).blk b h).snap = some (shadowWords s b h) ∧ (both = true → perHalf b = true →
      ((commitBlks.foldl (snapBlock h both) s).blk b (other h)).snap = some (shadowWords s b h) ∧
      ((commitBlks.foldl (snapBlock h both) s).blk b (other h)).st = 1) := by
  refine foldl_at (P := fun u => u.blk b h = s.blk b h ∧ u.shadow = s.shadow)
    (Q := fun u => (u.blk b h).snap = some (shadowWords s b h) ∧ (both = true → perHalf b = true →
      (u.blk b (other h)).snap = some (shadowWords s b h) ∧ (u.blk b (other h)).st = 1)) ?before ?at_ ?after commitBlks (by decide) m s ⟨rfl, rfl⟩
  case before => exact fun u c n ⟨eb, es⟩ => ⟨(blk_snapBlock_other h both u n.symm h).trans eb, (shadow_snapBlock h both u c).trans es⟩
  case at_ =>
    intro u ⟨eb, es⟩
    have e : shadowWords u b h = shadowWords s b h := by simp only [shadowWords, es]
    rw [← e]
    exact blk_snapBlock h both (by rwa [eb]) (by rwa [eb])
  case after =>
    intro u c n q
    rwa [blk_snapBlock_other h both u n.symm, blk_snapBlock_other h both u n.symm]

theorem exec_commitSnapshot_of {s : State} {h : Half} {r : Bool} (c : s.charge = some h) (u : s.twinUp h = true → r = true) :
    exec (.commitSnapshot h r) s = .next (commitBlks.foldl (snapBlock h (s.twinUp h)) s) := by
  have n : ¬ (s.twinUp h && !r) = true := by
    rw [Bool.and_eq_true]
    exact fun ⟨hu, hr⟩ => by simp [u hu] at hr
  dsimp only [exec, execCommitSnapshot]
  rw [if_neg (not_not.2 c), if_neg n]

theorem exec_commitSnapshot_of_not {s : State} {h : Half} {r : Bool} (c : s.charge ≠ some h ∨ (s.twinUp h = true ∧ r = false)) :
    exec (.commitSnapshot h r) s = .next s := by
  dsimp only [exec, execCommitSnapshot]
  rcases c with c | ⟨hu, hr⟩
  · exact if_pos c
  · have e : (s.twinUp h && !r) = true := by simp [hu, hr]
    rw [if_pos e]
    exact ite_self _

/-! ### The snapshot (R30, R31, R78, R79) -/

/-- What a snapshot made in time leaves where no loop command waits: the snapshot, and its samples with the vehicle sessions of the half in charge. -/
def State.published (s : State) (h : Half) : State :=
  let u := s.mh h fun x => { x with pub := s.makePub h }
  if s.charge = some h then (List.range 48).foldl (vehSample (s.makePub h)) u else u

theorem frame_vehSamples (p : Pub) (s : State) (l : List Nat) : Frame [.veh] s (l.foldl (vehSample p) s) := Frame.foldl (frame_vehSample p) l s

theorem frame_published (s : State) (h : Half) : Frame [.pub h, .veh] s (s.published h) := by
  have f : Frame [.pub h, .veh] s (s.mh h fun x => { x with pub := s.makePub h }) := by simp
  exact Frame.ite (fun _ => f.trans ((frame_vehSamples _ _ _).mono (by simp))) (fun _ => f)

theorem pub_published (s : State) (h : Half) : ((s.published h).hf h).pub = s.makePub h := by
  have e (l : List Nat) (u : State) : ((l.foldl (vehSample (s.makePub h)) u).hf h).pub = (u.hf h).pub := frame_vehSamples _ u l (.pub h) (by simp)
  unfold State.published
  dsimp only
  split
  · rw [e, hf_mh_same]
  · rw [hf_mh_same]

theorem veh_published_of_not {s : State} {h : Half} (c : s.charge ≠ some h) : (s.published h).veh = s.veh := by
  simp [State.published, c]

theorem exec_snapshotPublish_made {s : State} {h : Half} (hc : (s.hf h).cln.cmds = []) : exec (.snapshotPublish h true) s = .next (s.published h) := by
  have e : ((s.published h).hf h).cln = (s.hf h).cln := frame_published s h (.cln h) (by simp)
  have ec : (s.mh h fun x => { x with pub := s.makePub h }).charge = s.charge := charge_congr (by simp) fun k => by rw [hf_mh]; split <;> rfl
  show execSnapshotPublish h true s = _
  unfold execSnapshotPublish
  rw [if_pos rfl]
  simp only [ec, hf_mh_same]
  change Host.Outcome.next (((s.published h).hf h).cln.cmds.foldl (completeArrived h) (s.published h)) = _
  rw [e, hc]
  rfl

/-- The sample the snapshot carries of dispenser port `32 + k` is the port's. -/
theorem samples_makePub (s : State) (h : Half) {k : Nat} (hk : k < 48) : look none (s.makePub h).samples (32 + k) = (s.port h (32 + k)).main := by
  refine foldl_at (f := fun t k => put none t (32 + k) (s.port h (32 + k)).main) (P := fun _ => True)
    (Q := fun t => look none t (32 + k) = (s.port h (32 + k)).main) (a := k) (fun _ _ _ _ => trivial)
    (fun t _ => look_put_same none (32 + k) _ t) (fun t j n q => ?_) (List.range 48) List.nodup_range (List.mem_range.2 hk) [] trivial
  rw [look_put_other _ _ _ (by omega), q]

theorem veh1_mVeh_other (s : State) {j k : Nat} (f : VehS → VehS) (n : j ≠ k) : (s.mVeh j f).veh1 k = s.veh1 k := look_upd_other _ f s.veh n

theorem veh1_vehSample_other (p : Pub) (s : State) {j k : Nat} (n : j ≠ k) : (vehSample p s j).veh1 k = s.veh1 k := by
  unfold vehSample
  split
  · rfl
  · dsimp only
    split
    · rfl
    · exact veh1_mVeh_other s _ n

theorem vehSample_of {p : Pub} {k : Nat} {f : UpFrame} (hs : look none p.samples (32 + k) = some f) (ht : f.tick = p.tick) (s : State) :
    ((vehSample p s k).veh1 k).pilot = numAt f.bytes 0 2 % 8 ∧ ((vehSample p s k).veh1 k).dstat = numAt f.bytes 0 2 := by
  unfold vehSample
  rw [hs]
  simp [ht, State.veh1, State.mVeh]

/-- The half in charge hands each of its vehicle sessions the sample of the snapshot's own tick. -/
theorem veh1_published {s : State} {h : Half} {k : Nat} {f : UpFrame} (hc : s.charge = some h) (hk : k < 48) (hf : (s.port h (32 + k)).main = some f)
    (ht : f.tick = s.tick h) : ((s.published h).veh1 k).pilot = numAt f.bytes 0 2 % 8 ∧ ((s.published h).veh1 k).dstat = numAt f.bytes 0 2 := by
  unfold State.published
  rw [if_pos hc]
  refine foldl_at (P := fun _ => True) (Q := fun u => (u.veh1 k).pilot = numAt f.bytes 0 2 % 8 ∧ (u.veh1 k).dstat = numAt f.bytes 0 2) (a := k)
    (fun _ _ _ _ => trivial) (fun u _ => vehSample_of ((samples_makePub s h hk).trans hf) ht u) (fun u j n q => ?_)
    (List.range 48) List.nodup_range (List.mem_range.2 hk) _ trivial
  rwa [veh1_vehSample_other _ u n]

theorem frame_goUnhealthy_half (s : State) (h : Half) (c : Nat) : Frame [.twn h, .mbx .A, .mbx .B] s (s.goUnhealthy h c) := by
  simp (maxDischargeDepth := 8) [State.goUnhealthy, State.healthEv]
theorem frame_penalty_half (s : State) (h : Half) (n c : Nat) : Frame [.twn h, .mbx .A, .mbx .B] s (s.penalty h n c) := by
  simp (maxDischargeDepth := 8) [State.penalty, State.healthEv]
theorem frame_stagePenalty_half (s : State) (h : Half) (c : Nat) : Frame [.twn h, .mbx .A, .mbx .B] s (s.stagePenalty h c) := by
  unfold State.stagePenalty
  exact Frame.ite (fun _ => Frame.refl _ s) (fun _ => Frame.trans (by simp) (frame_penalty_half _ h 32 c))

/-- A snapshot missed sets STAGE_OVR, and otherwise changes the half's own record of it and its health (R79, R81). -/
theorem frame_stageMissed_r79 (s : State) (h : Half) : Frame [.tck h, .twn h, .mbx .A, .mbx .B]
    (s.srg .tck h 0x08 (s.rg .tck h 0x08 ||| BitVec.ofNat 32 (2 ^ 22))) (s.stageMissed h true) := by
  unfold State.stageMissed
  extract_lets now again s₁ s₂ s₃
  have f₂ : Frame [.tck h, .twn h, .mbx .A, .mbx .B] s₁ s₂ := by simp [s₂]
  have f₃ : Frame [.tck h, .twn h, .mbx .A, .mbx .B] s₂ s₃ := (frame_stagePenalty_half s₂ h 0x05).mono (by simp)
  exact (f₂.trans f₃).trans (Frame.ite (fun _ => (frame_goUnhealthy_half s₃ h 0x83).mono (by simp)) (fun _ => Frame.refl _ _))

theorem bitAt_or_pow (w : Word) : bitAt (w ||| BitVec.ofNat 32 (2 ^ 22)) 22 = true := by
  have e : Nat.testBit 4194304 22 = true := by decide
  simp [bitAt, e]

/-! ### What an edge keeps -/

theorem frame_nextTick (s : State) (h : Half) : Frame [.tck h] s (s.nextTick h) := by simp [State.nextTick]

theorem tck_nextTick (s : State) (h : Half) : ((s.nextTick h).hf h).tck =
    { (s.hf h).tck with tick := (s.hf h).tck.tick + 1, acc := accAt (s.hf h).tck.acc (s.hf h).tck.rate ((s.hf h).tck.tick + 1) } := by
  simp [State.nextTick, State.mTck]

theorem EdgeKeeps.beforeCharge (h : Half) (s : State) : EdgeKeeps h (s.nextTick h) (s.beforeCharge h) :=
  ((EdgeKeeps.enterService h _).trans (.of_frame h (frame_swaps _ h _) (by cases h <;> decide))).trans (.edgeWork h _)

theorem charge_beforeCharge (s : State) (h : Half) : (s.beforeCharge h).charge = s.charge :=
  (EdgeKeeps.beforeCharge h s).charge.trans (charge_congr (by simp [State.nextTick]) (by simp [State.nextTick]))

theorem frame_beforeCharge (s : State) (h : Half) : Frame (.stg h :: edgeParts) s (s.beforeCharge h) := by
  have f₁ : Frame (.stg h :: edgeParts) s (s.nextTick h) := (frame_nextTick s h).mono (by cases h <;> decide)
  have f₂ : Frame (.stg h :: edgeParts) (s.nextTick h) (enterService (s.nextTick h) h) := (frame_enterService _ h).mono (by cases h <;> decide)
  have f₃ : Frame (.stg h :: edgeParts) (enterService (s.nextTick h) h) ((s.hf h).stg.foldl (swapStage h) (enterService (s.nextTick h) h)) :=
    (frame_swaps _ h _).mono (by cases h <;> decide)
  exact ((f₁.trans f₂).trans f₃).trans ((frame_edgeWork _ h).mono fun _ m => List.mem_cons_of_mem _ m)

theorem rtc_beforeCharge (s : State) (h : Half) : (s.beforeCharge h).rtc = s.rtc := frame_beforeCharge s h .rtc (by cases h <;> decide)

section
variable {s : State} (h : Half) (ha : s.upd.act = none)
include ha

theorem act_beforeCharge : (s.beforeCharge h).upd.act = none := by
  have e : (s.beforeCharge h).upd = s.upd := frame_beforeCharge s h .upd (by cases h <;> decide)
  rw [e, ha]

/-- What the half in charge does besides, and the health renewed, leave the tick units and staging alone. -/
theorem frame_edgeEnd : Frame [.free, .pts .A, .pts .B, .mirOut .A, .mirOut .B, .thm .A, .thm .B, .bil, .rtc, .regs .gpio, .regs .pwr, .twn .A, .twn .B,
    .mbx .A, .mbx .B] (s.beforeCharge h) (s.edge h) :=
  ((frame_chargeEdge_idle h (act_beforeCharge h ha)).mono (by decide)).trans ((frame_renewHealth _ h).mono (by decide))

theorem tck_edge (k : Half) : ((s.edge h).hf k).tck = ((s.beforeCharge h).hf k).tck := frame_edgeEnd h ha (.tck k) (by cases k <;> decide)

theorem stage_edge (i : Nat) : (s.edge h).stage h i = (s.beforeCharge h).stage h i := Frame.stage (frame_edgeEnd h ha) (by cases h <;> decide) i

theorem frame_edge : Frame (.stg h :: .bil :: .rtc :: edgeParts) s (s.edge h) :=
  ((frame_beforeCharge s h).mono (by cases h <;> decide)).trans ((frame_edgeEnd h ha).mono (by cases h <;> decide))

theorem tick_edge : (s.edge h).tick h = s.tick h + 1 := by
  have k := (EdgeKeeps.beforeCharge h s).tick
  simp only [State.tick, tck_edge h ha] at k ⊢
  simp [k, tck_nextTick]

theorem acc_edge : ((s.edge h).hf h).tck.acc = accAt (s.hf h).tck.acc (s.hf h).tck.rate (s.tick h + 1) := by
  rw [tck_edge h ha, (EdgeKeeps.beforeCharge h s).acc, tck_nextTick]
  rfl

theorem tck_edge_other : ((s.edge h).hf (other h)).tck = (s.hf (other h)).tck := by
  rw [tck_edge h ha, (EdgeKeeps.beforeCharge h s).other]
  exact frame_nextTick s h (.tck (other h)) (by simp)

theorem rtc_edge_of_charge (c : s.charge = some h) : s.rtc < (s.edge h).rtc ∧ (s.edge h).rtc ≤ s.rtc + 2 := by
  have e : (s.edge h).rtc = (chargeEdge (s.beforeCharge h) h).rtc := frame_renewHealth _ h .rtc (by decide)
  rw [e, rtc_chargeEdge ((charge_beforeCharge s h).trans c) (act_beforeCharge h ha), rtc_beforeCharge]
  omega

end

theorem rtc_edge_of_other {s : State} {h : Half} (c : s.charge = some (other h)) : (s.edge h).rtc = s.rtc := by
  have e : (s.edge h).rtc = (chargeEdge (s.beforeCharge h) h).rtc := frame_renewHealth _ h .rtc (by decide)
  rw [e, chargeEdge_of_other ((charge_beforeCharge s h).trans c), rtc_beforeCharge]

/-- With one staging entry written before the edge, that entry is visible after it. -/
theorem stage_edge_swap {s : State} {h : Half} {i : Nat} {v : Int} (ha : s.upd.act = none) (hg : (s.hf h).stg = [(i, { s.stage h i with pend := some v })]) :
    (s.edge h).stage h i = { s.stage h i with val := v, stamp := (s.stage h i).pendStamp, written := true, stale := false, pend := none } := by
  rw [stage_edge h ha, State.beforeCharge, hg, Frame.stage (frame_edgeWork _ h) (by cases h <;> decide)]
  have e : (enterService (s.nextTick h) h).stage h i = s.stage h i :=
    (Frame.stage (frame_enterService _ h) (by cases h <;> decide) i).trans (Frame.stage (frame_nextTick s h) (by simp) i)
  rw [← e]
  exact stage_swapStage h (enterService (s.nextTick h) h) i (e := { (enterService (s.nextTick h) h).stage h i with pend := some v }) rfl

/-! ### The clauses -/

/-- Settles O9: an edge's stages keep the tick unit and the charge, the banks swap entry by entry, and a snapshot is published or counted as missed. -/
theorem tickEdgesAndSnapshots : Obligations.TickEdgesAndSnapshots := by
  refine ⟨?edge, ?noEdge, ?swap, ?noSnapshot, ?snapshot, ?publish, ?samples, ?missed⟩
  case edge =>
    intro s h hb hh hs hn ha
    have f := frame_edge h ha
    exact Ends.of_next (exec_tickEdge_of hb hh hs hn) ⟨tick_edge h ha, acc_edge h ha, tck_edge_other h ha, f (.stg (other h)) (by cases h <;> decide),
      rtc_edge_of_charge h ha, rtc_edge_of_other, f .rems (by cases h <;> decide), f .cabs (by cases h <;> decide), f .cans (by cases h <;> decide),
      f .mesh (by cases h <;> decide), f .lsw (by cases h <;> decide), f .pll (by cases h <;> decide)⟩
  case noEdge => exact fun s h c => exec_tickEdge_of_not c
  case swap =>
    intro s h i v hb hh hs hn ha hg
    refine Ends.of_next (exec_tickEdge_of hb hh hs hn) ?_
    rw [stage_edge_swap ha hg]
    exact ⟨rfl, rfl, rfl, rfl, rfl⟩
  case noSnapshot => exact fun s h r c => exec_commitSnapshot_of_not c
  case snapshot =>
    intro s h r c u
    exact Ends.of_next (exec_commitSnapshot_of c u) ⟨fun b m hr hn => blk_snapBlocks h _ s m hr hn, by simp +contextual⟩
  case publish =>
    intro s h hc
    refine Ends.of_next (exec_snapshotPublish_made hc) ⟨pub_published s h, ?_, ?_, veh_published_of_not, frame_published s h⟩
    · rw [pub_published]; rfl
    · rw [pub_published]; rfl
  case samples => exact fun s h k f hc hch hk hf ht => Ends.of_next (exec_snapshotPublish_made hc) (veh1_published hch hk hf ht)
  case missed =>
    intro s h
    have f := frame_stageMissed_r79 s h
    refine Ends.of_next (u := s.stageMissed h true) rfl ⟨?_, ?_, ?_⟩
    · have e : ((s.stageMissed h true).hf h).pub = _ := f (.pub h) (by cases h <;> decide)
      rw [e, srg_hf]
    · rw [f.rg (by cases h <;> decide), rg_srg_same]
      exact bitAt_or_pow _
    · exact Frame.trans (by simp) (f.mono (by cases h <;> decide))

end

end Sys2Proof.Machine

/-!
O16, tick frames (R76 to R79, R96 to R121, R137, R138). What the checks of an uplink frame let through is said once (`Passes`); what a frame that passes them, or
fails one, leaves behind is then read off the updates made to its port, the counters and, on a higher claim, the half's own supervision.
-/

namespace Sys2Proof.Machine

section

/-! ### A port after a change -/

@[simp] theorem port_mPort (s : State) (h : Half) (p : Nat) (f : PortS → PortS) : (s.mPort h p f).port h p = f (s.port h p) := by
  simp [State.port, State.mPort]

/-- What leaves the ports of a half alone leaves each port of it alone. -/
theorem Frame.port {ps : List Part} {s t : State} {h : Half} (f : Frame ps s t) (m : Part.ports h ∉ ps) (p : Nat) : t.port h p = s.port h p := by
  have e : (t.hf h).ports = (s.hf h).ports := f (.ports h) m
  simp [State.port, e]

theorem Frame.tick {ps : List Part} {s t : State} {h : Half} (f : Frame ps s t) (m : Part.tck h ∉ ps) : t.tick h = s.tick h := tick_congr (f (.tck h) m)

theorem Frame.twn {ps : List Part} {s t : State} {h : Half} (f : Frame ps s t) (m : Part.twn h ∉ ps) : (t.hf h).twn = (s.hf h).twn := f (.twn h) m

theorem rg_bump_same (s : State) (b : Blk) (h : Half) (o n : Nat) :
    (s.bump b h o n).rg b h o = BitVec.ofNat 32 (min 0xFFFFFFFF ((s.rg b h o).toNat + n)) := rg_srg_same ..

theorem rg_bump_other (s : State) (b : Blk) (h : Half) {o q : Nat} (n : Nat) (ne : o ≠ q) : (s.bump b h o n).rg b h q = s.rg b h q :=
  rg_srg_other s b h _ ne

/-! ### The key of a link -/

/-- The time, the key store and the billing clock are as before: all that the use of a key looks at. -/
structure SameKeys (s t : State) : Prop where
  now : t.now = s.now
  lkt : t.lkt = s.lkt
  bil : t.bil = s.bil

theorem keyE_of_sameKeys {s t : State} (k : SameKeys s t) (n : Nat) : t.keyE n = s.keyE n := by simp only [State.keyE, State.keyAt, k.lkt]
theorem serves_of_sameKeys {s t : State} (k : SameKeys s t) (e : KeyE) : t.serves e = s.serves e := by
  simp only [State.serves, State.beforeCutoff, k.lkt, k.now]
theorem expired_of_sameKeys {s t : State} (k : SameKeys s t) (e : KeyE) : t.expired e = s.expired e := by simp only [State.expired, k.now, k.bil]
theorem chainOk_of_sameKeys {s t : State} (k : SameKeys s t) : (n p : Nat) → t.chainOk n p = s.chainOk n p
  | 0, _ => rfl
  | n + 1, p => by simp only [State.chainOk, keyE_of_sameKeys k, serves_of_sameKeys k, chainOk_of_sameKeys k n]
theorem keyUsable_of_sameKeys {s t : State} (k : SameKeys s t) (n : Nat) : t.keyUsable n = s.keyUsable n := by
  simp only [State.keyUsable, keyE_of_sameKeys k, serves_of_sameKeys k, chainOk_of_sameKeys k]

theorem linkKeyGen_of_sameKeys {s t : State} (k : SameKeys s t) (p : Nat) (g : Bool) : t.linkKeyGen p g = s.linkKeyGen p g := by
  simp only [State.linkKeyGen, State.remotePs, State.psOf, k.lkt, keyUsable_of_sameKeys k, expired_of_sameKeys k]

theorem now_congr {s t : State} (hc : t.charge = s.charge) (ht : ∀ k, t.tick k = s.tick k) : t.now = s.now := by simp only [State.now, hc, ht]

/-! ### An uplink frame before its tag is looked at -/

/-- The state in which the tag is looked at: the port counted the blocks, and the blocks that took a correction. -/
def State.arrived (s : State) (h : Half) (p : Nat) (f : RxFrame) : State :=
  ((s.mPort h p fun q => { q with winBlks := q.winBlks + f.blocks.length }).bump .nlk h (p * 0x40 + 0x18) (rsFixed f.blocks)).mPort h p
    fun q => { q with winCorr := q.winCorr + rsFixed f.blocks }

theorem frame_arrived (s : State) (h : Half) (p : Nat) (f : RxFrame) : Frame [.regs .nlk, .ports h] s (s.arrived h p f) := by
  simp (maxDischargeDepth := 8) [State.arrived]

theorem port_arrived (s : State) (h : Half) (p : Nat) (f : RxFrame) :
    (s.arrived h p f).port h p =
      { s.port h p with winBlks := (s.port h p).winBlks + f.blocks.length, winCorr := (s.port h p).winCorr + rsFixed f.blocks } := by
  unfold State.arrived
  rw [port_mPort, (frame_bump _ _ _ _ _).port (by simp), port_mPort]

theorem rg_arrived_other (s : State) (h : Half) (p : Nat) (f : RxFrame) {o : Nat} (ne : p * 0x40 + 0x18 ≠ o) :
    (s.arrived h p f).rg .nlk h o = s.rg .nlk h o := by
  unfold State.arrived
  rw [rg_mPort, rg_bump_other _ _ _ _ ne, rg_mPort]

theorem tick_arrived (s : State) (h : Half) (p : Nat) (f : RxFrame) (k : Half) : (s.arrived h p f).tick k = s.tick k :=
  (frame_arrived s h p f).tick (by simp)

theorem sameKeys_arrived (s : State) (h : Half) (p : Nat) (f : RxFrame) : SameKeys s (s.arrived h p f) where
  now := now_congr (charge_congr (frame_arrived s h p f .ref (by simp)) fun k => frame_arrived s h p f (.twn k) (by simp)) (tick_arrived s h p f)
  lkt := frame_arrived s h p f .lkt (by simp)
  bil := frame_arrived s h p f .bil (by simp)

theorem upTag_arrived (s : State) (h : Half) (p : Nat) (f : RxFrame) (b : List Nat) : (s.arrived h p f).upTag h p b = s.upTag h p b := by
  have ea : (s.arrived h p f).portAuth h p = s.portAuth h p := congrArg (bitAt · 30) (rg_arrived_other s h p f (by omega))
  simp only [State.upTag, linkKeyGen_of_sameKeys (sameKeys_arrived s h p f), tick_arrived, ea]

/-- A frame on an enabled port passes every check before that of its tag, and its data bytes are `b` (R76, R95 to R97, R100, R101). -/
structure Passes (s : State) (h : Half) (p : Nat) (f : RxFrame) (b : List Nat) : Prop where
  port : p < 80
  enabled : (s.port h p).pstate ≠ 0
  noDelay : pertMag s h 1 p = none
  noErrors : pertMag s h 5 p = none
  codes : f.cv = false
  decodes : ∃ n, rsDecodeAll f.blocks = some (b, n)
  length : f.blocks.length = 1 + numAt b 7 1 % 16
  type : numAt b 0 1 = upType p ∨ numAt b 0 1 = 0x23 ∧ 32 ≤ p
  up : (numAt b 1 1).testBit 1 = true
  ownPort : numAt b 6 1 = p
  thisTick : numAt b 2 2 = s.tick h % 2 ^ 16
  inTime : f.at_ ≤ 20000
  open_ : (s.hf h).tck.ingestEnd ≠ some (s.tick h)

theorem pertFrame_of_none {s : State} {h : Half} {p : Nat} (n₁ : pertMag s h 1 p = none) (n₅ : pertMag s h 5 p = none) (f : RxFrame) :
    s.pertFrame h p f = f := by simp [State.pertFrame, n₁, n₅]

theorem exec_uplinkTickFrame_disabled {s : State} {h : Half} {p : Nat} (c : 80 ≤ p ∨ (s.port h p).pstate = 0) (f : RxFrame) :
    exec (.uplinkTickFrame h p f) s = .next s := if_pos c

theorem exec_uplinkTickFrame_violation {s : State} {h : Half} {p : Nat} {f : RxFrame} (hp : p < 80) (he : (s.port h p).pstate ≠ 0)
    (n₁ : pertMag s h 1 p = none) (n₅ : pertMag s h 5 p = none) (hv : f.cv = true) :
    exec (.uplinkTickFrame h p f) s =
      .next ((s.mPort h p fun q => { q with winBlks := q.winBlks + f.blocks.length }).bump .nlk h (p * 0x40 + 0x10) 1) := by
  have c : ¬(80 ≤ p ∨ (s.port h p).pstate = 0) := by omega
  show execUplinkTickFrame h p f s = _
  unfold execUplinkTickFrame
  simp only [if_neg c, pertFrame_of_none n₁ n₅, n₅, hv, Option.isSome_none, Bool.false_eq_true, if_false, if_true]

/-- A frame that passes the checks before that of its tag is taken where the tag is good, and counted where it is not. -/
theorem exec_uplinkTickFrame_passes {s : State} {h : Half} {p : Nat} {f : RxFrame} {b : List Nat} (a : Passes s h p f b) :
    exec (.uplinkTickFrame h p f) s =
      if s.upTag h p b then .next ((s.arrived h p f).takeFrame h p (numAt b 0 1) b ((numAt b 1 1).testBit 0))
      else .next ((s.arrived h p f).bump .nlk h (p * 0x40 + 0x20) 1) := by
  obtain ⟨n, hd⟩ := a.decodes
  have c : ¬(80 ≤ p ∨ (s.port h p).pstate = 0) := fun c => c.elim (fun c => absurd a.port (by omega)) a.enabled
  have ct : ¬((numAt b 0 1 ≠ upType p ∧ numAt b 0 1 ≠ 0x25 ∧ (numAt b 0 1 ≠ 0x23 ∨ p < 32)) ∨ (!(numAt b 1 1).testBit 1) = true ∨ numAt b 6 1 ≠ p) := by
    rintro (⟨n₁, -, n₂⟩ | n | n)
    · rcases a.type with e | ⟨e, e'⟩
      · exact n₁ e
      · exact n₂.elim (· e) (by omega)
    · simp [a.up] at n
    · exact n a.ownPort
  have cs : ¬(numAt b 2 2 ≠ s.tick h % 2 ^ 16 ∧ numAt b 2 2 ≠ (s.tick h + 2 ^ 16 - 1) % 2 ^ 16) := fun n => n.1 a.thisTick
  have cl : ¬(numAt b 2 2 ≠ s.tick h % 2 ^ 16 ∨ 20000 < f.at_ ∨ (s.hf h).tck.ingestEnd = some (s.tick h)) := by
    rintro (n | n | n)
    · exact n a.thisTick
    · exact absurd a.inTime (by omega)
    · exact a.open_ n
  have et : ((s.arrived h p f).hf h).tck = (s.hf h).tck := frame_arrived s h p f (.tck h) (by simp)
  show execUplinkTickFrame h p f s = _
  unfold execUplinkTickFrame
  simp only [if_neg c, pertFrame_of_none a.noDelay a.noErrors, a.noErrors, a.codes, hd, Option.isSome_none, Bool.false_eq_true, if_false]
  rw [if_neg (not_not.2 a.length), if_neg ct]
  change (if numAt b 2 2 ≠ (s.arrived h p f).tick h % 2 ^ 16 ∧ numAt b 2 2 ≠ ((s.arrived h p f).tick h + 2 ^ 16 - 1) % 2 ^ 16 then _ else
    if numAt b 2 2 ≠ (s.arrived h p f).tick h % 2 ^ 16 ∨ 20000 < f.at_ ∨ ((s.arrived h p f).hf h).tck.ingestEnd = some ((s.arrived h p f).tick h) then _ else
    if (!(s.arrived h p f).upTag h p b) = true then _ else _) = _
  rw [tick_arrived, et, upTag_arrived, if_neg cs, if_neg cl]
  cases s.upTag h p b <;> rfl

/-! ### A frame that is taken -/

/-- The record an accepted frame leaves (R121). -/
def upFrameOf (tick : Nat) (b : List Nat) : UpFrame :=
  { tick := tick, claim := numAt b 4 2, echoValid := (numAt b 1 1).testBit 4, lost := (numAt b 1 1).testBit 3,
    bytes := if (numAt b 1 1).testBit 0 then (b.drop 8).take ((b.drop 8).length - 8) else b.drop 8 }

/-- The port after a frame of a type was taken: its status, and the payload where the type is the port's main one or the Harvitor's. -/
def PortS.taken (q : PortS) (p ty : Nat) (u : UpFrame) : PortS :=
  { q with lost := u.lost, echoValid := u.echoValid, echo := u.claim, main := if ty = upType p then some u else q.main,
           harv := if ty = 0x25 then some u else q.harv }

/-- The state after the port took the frame, before its echo is looked at and before it is forwarded. -/
def State.received (s : State) (h : Half) (p : Nat) (b : List Nat) : State :=
  s.mPort h p fun q => q.taken p (numAt b 0 1) (upFrameOf (s.tick h) b)

theorem upType_ne (p : Nat) : upType p ≠ 0x23 ∧ upType p ≠ 0x25 := by
  unfold upType
  split <;> decide

/-- A main frame goes to its port, and its echo is looked at where it is valid. -/
theorem takeFrame_main {s : State} {h : Half} {p : Nat} {b : List Nat} (ty : numAt b 0 1 = upType p) :
    s.takeFrame h p (numAt b 0 1) b ((numAt b 1 1).testBit 0) =
      if (numAt b 1 1).testBit 4 then (s.received h p b).takeEcho h (numAt b 4 2) else s.received h p b := by
  obtain ⟨n₃, n₅⟩ := upType_ne p
  unfold State.takeFrame
  rw [if_neg (ty ▸ n₃), if_neg (ty ▸ n₅)]
  rfl

/-- A metering frame whose echo is not valid goes to its port and to the island. -/
theorem takeFrame_meter {s : State} {h : Half} {p : Nat} {b : List Nat} (ty : numAt b 0 1 = 0x23) (e : (numAt b 1 1).testBit 4 = false) :
    s.takeFrame h p (numAt b 0 1) b ((numAt b 1 1).testBit 0) = (s.received h p b).forwardMeter h (p - 32) b := by
  have e₁ : (if (numAt b 1 1).testBit 4 then (s.received h p b).takeEcho h (numAt b 4 2) else s.received h p b) = s.received h p b := by simp [e]
  unfold State.takeFrame
  rw [if_pos ty]
  exact congrArg (fun u : State => u.forwardMeter h (p - 32) b) e₁

theorem frame_received (s : State) (h : Half) (p : Nat) (f : RxFrame) (b : List Nat) :
    Frame [.regs .nlk, .ports h] s ((s.arrived h p f).received h p b) :=
  (frame_arrived s h p f).trans ((frame_mPort (s.arrived h p f) h p _).mono (by simp))

/-- What the port holds after a frame was received on it that had passed the checks. -/
theorem port_received (s : State) (h : Half) (p : Nat) (f : RxFrame) (b : List Nat) :
    ((s.arrived h p f).received h p b).port h p = ((s.arrived h p f).port h p).taken p (numAt b 0 1) (upFrameOf (s.tick h) b) := by
  rw [State.received, port_mPort, tick_arrived]

/-- The metering island keeps the copy of a frame forwarded to it (R14). -/
theorem mem_copies_forwardMeter (s : State) (h : Half) (k : Nat) (b : List Nat) :
    { seq := numAt b 2 2, side := h, bytes := b } ∈ look [] (s.forwardMeter h k b).met.copies k := by
  unfold State.forwardMeter
  simp

/-! ### Stepping down (R138, R139) -/

theorem frame_loseCommands_half (s : State) (h : Half) : Frame (.blocks :: .cln h :: bothMbx) s (s.loseCommands h) := by
  unfold State.loseCommands
  extract_lets goes lost s₁ keep
  have f : Frame bothMbx s s₁ := Frame.foldl (fun u c => (frame_complete u c.org h c.opc stClaimLost true []).mono (by simp)) lost s
  simp (maxDischargeDepth := 8) [f.mono (qs := .blocks :: .cln h :: bothMbx) (by simp +contextual)]

theorem frame_claimEv_mbx (s : State) (h : Half) (kind cause : Nat) : Frame bothMbx s (s.claimEv h kind cause) := frame_ev s h 1 0x0302 _

theorem stepDown_of_acting {s : State} {h : Half} (a : (s.hf h).twn.acting = true) (cause : Nat) : s.stepDown h cause =
    (((s.mTwn h fun t => { t with acting := false }).bump .twn h 0x28 1).loseCommands h).claimEv h 3 cause := if_pos a

theorem frame_stepDown_half {s : State} {h : Half} (a : (s.hf h).twn.acting = true) (cause : Nat) :
    Frame (.regs .twn :: .blocks :: .twn h :: .cln h :: bothMbx) s (s.stepDown h cause) := by
  rw [stepDown_of_acting a]
  exact (((frame_mTwn s h _).mono (by simp)).trans ((frame_bump _ .twn h 0x28 1).mono (by simp))).trans
    (((frame_loseCommands_half _ h).mono (by simp [bothMbx])).trans ((frame_claimEv_mbx _ h 3 cause).mono (by simp [bothMbx])))

theorem twn_stepDown {s : State} {h : Half} (a : (s.hf h).twn.acting = true) (cause : Nat) :
    ((s.stepDown h cause).hf h).twn = { (s.hf h).twn with acting := false } := by
  rw [stepDown_of_acting a, (frame_claimEv_mbx _ h 3 cause).twn (by simp [bothMbx]), (frame_loseCommands_half _ h).twn (by simp [bothMbx]), bump_hf]
  exact congrArg HalfSt.twn (hf_mh_same ..)

theorem takeEcho_of_higher {s : State} {h : Half} {claim : Nat} (c : (s.hf h).twn.claim < claim) :
    s.takeEcho h claim = (s.mTwn h fun t => { t with outranked := t.outranked + 1 }).stepDown h 0x13 := by
  unfold State.takeEcho
  rw [if_neg (Nat.ne_of_gt c), if_pos c]

theorem acting_outranked (s : State) (h : Half) : ((s.mTwn h fun t => { t with outranked := t.outranked + 1 }).hf h).twn =
    { (s.hf h).twn with outranked := (s.hf h).twn.outranked + 1 } := congrArg HalfSt.twn (hf_mh_same ..)

/-- A half that acts in charge and sees a higher claim echoed counts it and steps down. -/
theorem twn_takeEcho_of_higher {s : State} {h : Half} {claim : Nat} (c : (s.hf h).twn.claim < claim) (a : (s.hf h).twn.acting = true) :
    ((s.takeEcho h claim).hf h).twn = { (s.hf h).twn with outranked := (s.hf h).twn.outranked + 1, acting := false } := by
  have e := acting_outranked s h
  rw [takeEcho_of_higher c, twn_stepDown (by rw [e]; exact a), e]

theorem frame_takeEcho_of_higher {s : State} {h : Half} {claim : Nat} (c : (s.hf h).twn.claim < claim) (a : (s.hf h).twn.acting = true) :
    Frame (.regs .twn :: .blocks :: .twn h :: .cln h :: bothMbx) s (s.takeEcho h claim) := by
  have e := acting_outranked s h
  rw [takeEcho_of_higher c]
  exact ((frame_mTwn s h _).mono (by simp)).trans (frame_stepDown_half (by rw [e]; exact a) 0x13)

/-! ### The clauses on uplink frames -/

theorem ends_uplink_of_main {s : State} {h : Half} {p : Nat} {f : RxFrame} {b : List Nat} (a : Passes s h p f b) (ty : numAt b 0 1 = upType p)
    (ec : (numAt b 1 1).testBit 4 = false) (tag : s.upTag h p b = true) :
    Ends (.uplinkTickFrame h p f) s fun t => (t.port h p).main =
          some { tick := s.tick h, claim := numAt b 4 2, echoValid := false, lost := (numAt b 1 1).testBit 3,
                 bytes := if (numAt b 1 1).testBit 0 then (b.drop 8).take ((b.drop 8).length - 8) else b.drop 8 } ∧
        (t.port h p).harv = (s.port h p).harv ∧ (t.port h p).echo = numAt b 4 2 ∧ (t.port h p).lost = (numAt b 1 1).testBit 3 ∧
        Frame [.regs .nlk, .ports h] s t := by
  have ex : exec (.uplinkTickFrame h p f) s = .next ((s.arrived h p f).received h p b) := by
    rw [exec_uplinkTickFrame_passes a, tag, if_pos rfl, takeFrame_main ty, ec]
    rfl
  have n₅ : numAt b 0 1 ≠ 0x25 := ty ▸ (upType_ne p).2
  refine Ends.of_next ex ?_
  rw [port_received, port_arrived]
  refine ⟨?_, if_neg n₅, rfl, rfl, frame_received s h p f b⟩
  rw [PortS.taken, if_pos ty, upFrameOf, ec]

theorem ends_uplink_of_badTag {s : State} {h : Half} {p : Nat} {f : RxFrame} {b : List Nat} (a : Passes s h p f b) (tag : s.upTag h p b = false) :
    Ends (.uplinkTickFrame h p f) s fun t =>
        t.rg .nlk h (p * 0x40 + 0x20) = BitVec.ofNat 32 (min 0xFFFFFFFF ((s.rg .nlk h (p * 0x40 + 0x20)).toNat + 1)) ∧
        (t.port h p).main = (s.port h p).main ∧ (t.port h p).echo = (s.port h p).echo ∧ Frame [.regs .nlk, .ports h] s t := by
  have ex : exec (.uplinkTickFrame h p f) s = .next ((s.arrived h p f).bump .nlk h (p * 0x40 + 0x20) 1) := by
    rw [exec_uplinkTickFrame_passes a, tag]
    rfl
  have fb := frame_bump (s.arrived h p f) .nlk h (p * 0x40 + 0x20) 1
  refine Ends.of_next ex ⟨?_, ?_, ?_, (frame_arrived s h p f).trans (fb.mono (by simp))⟩
  · rw [rg_bump_same, rg_arrived_other _ _ _ _ (by omega)]
  · rw [fb.port (by simp), port_arrived]
  · rw [fb.port (by simp), port_arrived]

theorem ends_uplink_of_higherClaim {s : State} {h : Half} {p : Nat} {f : RxFrame} {b : List Nat} (a : Passes s h p f b) (ty : numAt b 0 1 = upType p)
    (ec : (numAt b 1 1).testBit 4 = true) (tag : s.upTag h p b = true) (hc : (s.hf h).twn.claim < numAt b 4 2) (ha : (s.hf h).twn.acting = true) :
    Ends (.uplinkTickFrame h p f) s fun t => (t.hf h).twn.acting = false ∧ (t.hf h).twn.outranked = (s.hf h).twn.outranked + 1 ∧
        (t.port h p).echo = numAt b 4 2 ∧ Frame (.regs .nlk :: .regs .twn :: .blocks :: .ports h :: .twn h :: .cln h :: bothMbx) s t := by
  have ex : exec (.uplinkTickFrame h p f) s = .next (((s.arrived h p f).received h p b).takeEcho h (numAt b 4 2)) := by
    rw [exec_uplinkTickFrame_passes a, tag, if_pos rfl, takeFrame_main ty, ec, if_pos rfl]
  have fr := frame_received s h p f b
  have et : (((s.arrived h p f).received h p b).hf h).twn = (s.hf h).twn := fr (.twn h) (by simp)
  have hc' : (((s.arrived h p f).received h p b).hf h).twn.claim < numAt b 4 2 := et ▸ hc
  have ha' : (((s.arrived h p f).received h p b).hf h).twn.acting = true := et ▸ ha
  have fe := frame_takeEcho_of_higher hc' ha'
  have te := twn_takeEcho_of_higher hc' ha'
  refine Ends.of_next ex ⟨?_, ?_, ?_, (fr.mono (by simp)).trans (fe.mono ?_)⟩
  · rw [te]
  · rw [te, et]
  · rw [fe.port (by simp [bothMbx]), port_received]
    rfl
  · simp [bothMbx]

theorem ends_uplink_of_meter {s : State} {h : Half} {p : Nat} {f : RxFrame} {b : List Nat} (a : Passes s h p f b) (ty : numAt b 0 1 = 0x23)
    (ec : (numAt b 1 1).testBit 4 = false) :
    Ends (.uplinkTickFrame h p f) s fun t => { seq := numAt b 2 2, side := h, bytes := b } ∈ look [] t.met.copies (p - 32) ∧
        (t.port h p).main = (s.port h p).main ∧ Frame [.regs .nlk, .ports h, .met] s t := by
  have tag : s.upTag h p b = true := if_pos ty
  have ex : exec (.uplinkTickFrame h p f) s = .next (((s.arrived h p f).received h p b).forwardMeter h (p - 32) b) := by
    rw [exec_uplinkTickFrame_passes a, tag, if_pos rfl, takeFrame_meter ty ec]
  have fm := frame_forwardMeter ((s.arrived h p f).received h p b) h (p - 32) b
  have fr := frame_received s h p f b
  have nm : numAt b 0 1 ≠ upType p := ty ▸ (upType_ne p).1.symm
  refine Ends.of_next ex ⟨mem_copies_forwardMeter .., ?_, (fr.mono (by simp)).trans (fm.mono (by simp))⟩
  rw [fm.port (by simp), port_received, port_arrived]
  exact if_neg nm

/-! ### Downlink dispatch (R49, R78, R84, R96 to R102) -/

/-- Whether the port asks its remote to resume (R227, R249). -/
def State.downResume (s : State) (h : Half) (p : Nat) : Bool := (s.port h p).lost && ((s.port h p).resume || s.restartReady h p)

/-- The payload blocks of the port's main frame after its first. -/
def State.downBlocks (s : State) (h : Half) (p : Nat) : Nat := fld (s.nlkCfg h p) 27 24 - 1

/-- When the main frame starts, as DN_DELAY puts it, and when it ends, in ns of the tick. -/
def downStart (s : State) (h : Half) (p : Nat) : Nat := 40000 + 10 * (pertMag s h 2 p).getD 0
def downEnd (s : State) (h : Half) (p : Nat) : Nat := downStart s h p + lineTime (s.downBlocks h p + 1)

/-- The payload of the main frame: the slots as drained in this tick (R204). -/
def State.downPayload (s : State) (h : Half) (p : Nat) : List Nat :=
  (List.range ((24 + 32 * s.downBlocks h p - if s.portAuth h p then 8 else 0) / 2)).flatMap fun w => le 2 (if w < 56 then s.dispatchWord h p w else 0)

/-- The main frame of the port, and the frame with the Harvitor PDU of its connection. -/
def State.mainFrame (s : State) (h : Half) (p : Nat) : SentFrame :=
  s.mkFrame p (downStart s h p) (s.port h p).keygen (s.portAuth h p) (ivFor false h (s.tick h) p (mainType p) 0)
    (s.downHead h p (mainType p) (s.downBlocks h p) (s.portAuth h p) (s.downResume h p) ++ s.downPayload h p)
def State.harvFrame (s : State) (h : Half) (p : Nat) : SentFrame :=
  s.mkFrame p (downEnd s h p + 80) (s.port h p).keygen true (ivFor false h (s.tick h) p 0x15 0)
    (s.downHead h p 0x15 0 true (s.downResume h p) ++ padTo 16 (s.conn p).pdu)

/-- The connection of the port has a PDU of this tick. -/
def State.pduDue (s : State) (p : Nat) : Bool := s.connEn p && !(s.conn p).pdu.isEmpty && (s.conn p).sentTick == s.now

/-- What a dispatch on time sends: each of the two frames where it ends in time (R164). -/
def State.sendDown (s : State) (h : Half) (p : Nat) : PortS → PortS := fun q =>
  { q with resume := s.downResume h p, down := if downEnd s h p ≤ 47900 then some (s.pertSent h p (s.mainFrame h p)) else none,
           downHarv := if s.pduDue p && decide (downEnd s h p + 80 + lineTime 1 ≤ 47900) then some (s.pertSent h p (s.harvFrame h p)) else none }

/-- Free values are drawn for the tag of a port with no key, and for byte errors. -/
def State.drewDown (s : State) (h : Half) (p : Nat) : State :=
  if s.linkKeyGen p (s.port h p).keygen = none ∨ (pertMag s h 5 p).isSome then s.drew 64 else s

theorem frame_drewDown (s : State) (h : Half) (p : Nat) : Frame [.free] s (s.drewDown h p) :=
  Frame.ite (fun _ => frame_drew s 64) (fun _ => Frame.refl _ s)

theorem pduDue_drewDown (s : State) (h : Half) (p : Nat) : (s.drewDown h p).pduDue p = s.pduDue p := by
  unfold State.drewDown
  split <;> rfl

/-- The port is in service, its half too, and the device runs: only then does a dispatch act (R49, R102). -/
structure InService (s : State) (h : Half) (p : Nat) : Prop where
  port : p < 80
  state : (s.port h p).pstate = 4
  from_ : (s.port h p).svcFrom ≤ s.tick h
  service : (s.hf h).twn.service = true
  powered : s.pstate ≠ 1

theorem not_idle_of_inService {s : State} {h : Half} {p : Nat} (a : InService s h p) :
    ¬(80 ≤ p ∨ (s.port h p).pstate ≠ 4 ∨ s.tick h < (s.port h p).svcFrom ∨ (s.hf h).twn.service = false ∨ s.pstate = 1) := by
  obtain ⟨hp, hs, hf, hv, hw⟩ := a
  rintro (c | c | c | c | c)
  · omega
  · exact c hs
  · omega
  · simp [hv] at c
  · exact hw c

theorem exec_downlinkDispatch_idle {s : State} {h : Half} {p : Nat}
    (c : 80 ≤ p ∨ (s.port h p).pstate ≠ 4 ∨ s.tick h < (s.port h p).svcFrom ∨ (s.hf h).twn.service = false ∨ s.pstate = 1) (b : Bool) :
    exec (.downlinkDispatch h p b) s = .next s := if_pos c

theorem exec_downlinkDispatch_late {s : State} {h : Half} {p : Nat} (a : InService s h p) :
    exec (.downlinkDispatch h p false) s = .next ((s.mPort h p fun q => { q with down := none, downHarv := none }).stageMissed h true) :=
  if_neg (not_idle_of_inService a)

theorem exec_downlinkDispatch_onTime {s : State} {h : Half} {p : Nat} (a : InService s h p) :
    exec (.downlinkDispatch h p true) s = .next ((s.drewDown h p).mPort h p (s.sendDown h p)) := by
  have e := not_idle_of_inService a
  show execDownlinkDispatch h p true s = _
  unfold State.sendDown
  rw [← pduDue_drewDown s h p]
  unfold execDownlinkDispatch
  dsimp only [downEnd, downStart, State.mainFrame, State.harvFrame, State.downPayload, State.downBlocks, State.downResume, State.pduDue]
  rw [if_neg e, if_neg (by decide)]
  rfl

theorem frame_sendDown (s : State) (h : Half) (p : Nat) : Frame [.free, .ports h] s ((s.drewDown h p).mPort h p (s.sendDown h p)) :=
  ((frame_drewDown s h p).mono (by simp)).trans ((frame_mPort (s.drewDown h p) h p _).mono (by simp))

theorem port_sendDown (s : State) (h : Half) (p : Nat) :
    ((s.drewDown h p).mPort h p (s.sendDown h p)).port h p = s.sendDown h p (s.port h p) := by
  rw [port_mPort, (frame_drewDown s h p).port (by simp)]

theorem pertSent_of_none {s : State} {h : Half} {p : Nat} (n : pertMag s h 5 p = none) (f : SentFrame) : s.pertSent h p f = f := by
  simp [State.pertSent, n]

theorem length_downHead (s : State) (h : Half) (p ty n : Nat) (auth resume : Bool) : (s.downHead h p ty n auth resume).length = 8 := by
  simp [State.downHead, length_le]

/-- Bytes written little-endian spell the number, as far as they reach. -/
theorem unle_le (n v : Nat) : unle (le n v) = v % 256 ^ n := by
  induction n generalizing v with
  | zero => simp [le, unle, Nat.mod_one]
  | succ n ih => rw [le, unle, ih, Nat.mod_mod, Nat.pow_succ', Nat.mod_mul]

theorem take_ivFor (up : Bool) (h : Half) (tick p ty ord : Nat) : (ivFor up h tick p ty ord).take 8 = le 8 tick :=
  List.take_left' (length_le 8 tick)

/-- A main frame of at most five blocks that nothing delays ends in time, and one of at most four leaves time for the PDU. -/
theorem downEnd_le {s : State} {h : Half} {p : Nat} (n : pertMag s h 2 p = none) (hb : fld (s.nlkCfg h p) 27 24 ≤ 5) : downEnd s h p ≤ 47900 := by
  simp only [downEnd, downStart, State.downBlocks, lineTime, n, Option.getD_none]
  omega

theorem harv_fits_iff {s : State} {h : Half} {p : Nat} (n : pertMag s h 2 p = none) :
    downEnd s h p + 80 + lineTime 1 ≤ 47900 ↔ fld (s.nlkCfg h p) 27 24 ≤ 4 := by
  simp only [downEnd, downStart, State.downBlocks, lineTime, n, Option.getD_none]
  omega

theorem ends_downlink_onTime {s : State} {h : Half} {p : Nat} (a : InService s h p) (n₂ : pertMag s h 2 p = none) (n₅ : pertMag s h 5 p = none)
    (hb : fld (s.nlkCfg h p) 27 24 ≤ 5) :
    Ends (.downlinkDispatch h p true) s fun t => (∃ m, (t.port h p).down = some m ∧ m.tick = s.tick h % 2 ^ 64 ∧ m.start = 40000 ∧ m.tagged = s.portAuth h p ∧
        m.iv = ivFor false h (s.tick h) p (mainType p) 0 ∧
        m.bytes.take 8 = s.downHead h p (mainType p) (fld (s.nlkCfg h p) 27 24 - 1) (s.portAuth h p)
          ((s.port h p).lost && ((s.port h p).resume || s.restartReady h p))) ∧
        ((t.port h p).downHarv.isSome = (s.connEn p && !(s.conn p).pdu.isEmpty && (s.conn p).sentTick == s.now && decide (fld (s.nlkCfg h p) 27 24 ≤ 4))) ∧
        Frame [.free, .ports h] s t := by
  refine Ends.of_next (exec_downlinkDispatch_onTime a) ⟨⟨s.mainFrame h p, ?down, ?tick, ?start, rfl, rfl, ?head⟩, ?harv, frame_sendDown s h p⟩
  case down =>
    rw [port_sendDown, State.sendDown, if_pos (downEnd_le n₂ hb), pertSent_of_none n₅]
  case tick => exact (congrArg unle (take_ivFor ..)).trans (unle_le 8 (s.tick h))
  case start =>
    show downStart s h p = 40000
    simp [downStart, n₂]
  case head => exact List.take_left' (length_downHead ..)
  case harv =>
    rw [port_sendDown, State.sendDown, decide_eq_decide.2 (harv_fits_iff n₂)]
    show (if (s.pduDue p && decide (fld (s.nlkCfg h p) 27 24 ≤ 4)) = true then _ else none : Option SentFrame).isSome =
      (s.pduDue p && decide (fld (s.nlkCfg h p) 27 24 ≤ 4))
    cases s.pduDue p && decide (fld (s.nlkCfg h p) 27 24 ≤ 4) <;> rfl

theorem ends_downlink_putLate {s : State} {h : Half} {p m : Nat} (a : InService s h p) (hm : pertMag s h 2 p = some m)
    (hl : 47900 < 40000 + 10 * m + lineTime (fld (s.nlkCfg h p) 27 24 - 1 + 1)) :
    Ends (.downlinkDispatch h p true) s fun t => (t.port h p).down = none ∧ (t.port h p).downHarv = none ∧ Frame [.free, .ports h] s t := by
  have e : downEnd s h p = 40000 + 10 * m + lineTime (fld (s.nlkCfg h p) 27 24 - 1 + 1) := by
    simp only [downEnd, downStart, State.downBlocks, hm, Option.getD_some]
  have n : ¬downEnd s h p ≤ 47900 := by omega
  have n' : decide (downEnd s h p + 80 + lineTime 1 ≤ 47900) = false := decide_eq_false (by omega)
  refine Ends.of_next (exec_downlinkDispatch_onTime a) ⟨?_, ?_, frame_sendDown s h p⟩
  · rw [port_sendDown, State.sendDown, if_neg n]
  · rw [port_sendDown, State.sendDown, n', Bool.and_false]
    rfl

theorem ends_downlink_late {s : State} {h : Half} {p : Nat} (a : InService s h p) :
    Ends (.downlinkDispatch h p false) s fun t => (t.port h p).down = none ∧ (t.port h p).downHarv = none ∧ t.rb .tck h 8 22 = true ∧
        Frame (.regs .tck :: .tck h :: .ports h :: .twn h :: bothMbx) s t := by
  have f₀ := frame_mPort s h p fun q => { q with down := none, downHarv := none }
  have f₁ := frame_srg (s.mPort h p fun q => { q with down := none, downHarv := none }) .tck h 0x08
    ((s.mPort h p fun q => { q with down := none, downHarv := none }).rg .tck h 0x08 ||| BitVec.ofNat 32 (2 ^ 22))
  have f₂ := frame_stageMissed_r79 (s.mPort h p fun q => { q with down := none, downHarv := none }) h
  refine Ends.of_next (exec_downlinkDispatch_late a) ⟨?_, ?_, ?_, ?_⟩
  · rw [f₂.port (by simp), f₁.port (by simp), port_mPort]
  · rw [f₂.port (by simp), f₁.port (by simp), port_mPort]
  · rw [State.rb, f₂.rg (by simp), rg_srg_same]
    exact bitAt_or_pow _
  · exact ((f₀.mono (by simp)).trans (f₁.mono (by simp))).trans (f₂.mono (by simp [bothMbx]))

/-! ### The uplink tunnel (R118, R119, R355) -/

/-- The oldest complete tunnel message of the port is taken away. -/
def State.tookMsg (s : State) (h : Half) (p : Nat) (m : List Nat) : State :=
  s.mPort h p fun q => { q with rx := Machine.upd {} q.rx 0x40 fun x => { x with done := x.done.erase m } }

theorem takeMsg_of_done {s : State} {h : Half} {p : Nat} {m : List Nat} {l : List (List Nat)} (d : (look {} (s.port h p).rx 0x40).done = m :: l) :
    s.takeMsg h p 0x40 (fun _ => true) = some (m, s.tookMsg h p m) := by
  simp [State.takeMsg, State.tookMsg, d]

theorem done_tookMsg {s : State} {h : Half} {p : Nat} {m : List Nat} {l : List (List Nat)} (d : (look {} (s.port h p).rx 0x40).done = m :: l) :
    (look {} ((s.tookMsg h p m).port h p).rx 0x40).done = l := by
  simp [State.tookMsg, d]

theorem frame_tookMsg (s : State) (h : Half) (p : Nat) (m : List Nat) : Frame [.ports h] s (s.tookMsg h p m) := frame_mPort s h p _

theorem vcfg_tookMsg (s : State) (h : Half) (p : Nat) (m : List Nat) (k w : Nat) : (s.tookMsg h p m).vcfg k w = s.vcfg k w := by
  simp [State.vcfg, State.tookMsg]

/-- A message is laid out as R118 says. -/
structure LaidOut (s : State) (p : Nat) (m : List Nat) : Prop where
  low : 32 ≤ p
  high : p < 80
  kind : numAt m 0 1 = if bitAt (s.vcfg (p - 32) 0) 30 then 2 else 1
  least : 14 ≤ numAt m 2 2
  most : numAt m 2 2 ≤ 1518
  length : m.length = 8 + numAt m 2 2

/-- The message taken is kept for the twin, passed on, or counted as one not laid out as R118 says. -/
theorem exec_tunnelMessageReceived_of_done {s : State} {h : Half} {p : Nat} {m : List Nat} {l : List (List Nat)}
    (d : (look {} (s.port h p).rx 0x40).done = m :: l) : exec (.tunnelMessageReceived h p) s =
      if p < 32 ∨ 80 ≤ p ∨ numAt m 0 1 ≠ (if bitAt (s.vcfg (p - 32) 0) 30 then 2 else 1) ∨ numAt m 2 2 < 14 ∨ 1518 < numAt m 2 2 ∨
          m.length ≠ 8 + numAt m 2 2 then .next ((s.tookMsg h p m).bump .nlk h (p * 0x40 + 0x2C) 1)
      else if (s.tookMsg h p m).charge = some (other h) ∧ (s.tookMsg h p m).twinUp h then
        .next ((s.tookMsg h p m).mVeh (p - 32) fun v => { v with kept := v.kept ++ [m] })
      else .next (s.tookMsg h p m) := by
  rw [← vcfg_tookMsg s h p m]
  show execTunnelMessageReceived h p s = _
  unfold execTunnelMessageReceived
  rw [takeMsg_of_done d]

theorem exec_tunnelMessageReceived_of_laidOut {s : State} {h : Half} {p : Nat} {m : List Nat} {l : List (List Nat)}
    (d : (look {} (s.port h p).rx 0x40).done = m :: l) (a : LaidOut s p m) : exec (.tunnelMessageReceived h p) s =
      if s.charge = some (other h) ∧ s.twinUp h = true then .next ((s.tookMsg h p m).mVeh (p - 32) fun v => { v with kept := v.kept ++ [m] })
      else .next (s.tookMsg h p m) := by
  obtain ⟨h₁, h₂, h₃, h₄, h₅, h₆⟩ := a
  have ec : (s.tookMsg h p m).charge = s.charge := charge_mPort ..
  have et : (s.tookMsg h p m).twinUp h = s.twinUp h := congrArg TwnS.up ((frame_tookMsg s h p m).twn (by simp))
  rw [exec_tunnelMessageReceived_of_done d, ec, et, if_neg]
  rintro (c | c | c | c | c | c)
  · omega
  · omega
  · exact c h₃
  · omega
  · omega
  · exact c h₆

theorem exec_tunnelMessageReceived_none {s : State} {h : Half} {p : Nat} (d : (look {} (s.port h p).rx 0x40).done = []) :
    exec (.tunnelMessageReceived h p) s = .next s := by
  have e : s.takeMsg h p 0x40 (fun _ => true) = none := by simp [State.takeMsg, d]
  show execTunnelMessageReceived h p s = _
  unfold execTunnelMessageReceived
  rw [e]

/-! ### The ingest maps (R77, R149, R283) -/

theorem frame_mCnp_half (s : State) (h : Half) (f : CnpS → CnpS) : Frame [.cnp h] s (s.mCnp h f) := by simp [State.mCnp]
theorem cnp_mCnp (s : State) (h : Half) (f : CnpS → CnpS) : ((s.mCnp h f).hf h).cnp = f (s.hf h).cnp := congrArg HalfSt.cnp (hf_mh_same ..)

theorem chgs_acceptLoss (s : State) (h : Half) (p : Nat) : ((s.acceptLoss h p).hf h).cnp.chgs = (s.hf h).cnp.chgs := by
  rw [State.acceptLoss, cnp_mCnp]
  split <;> rfl

theorem frame_commonPort_half (h : Half) (ok : List Nat) (s : State) (p : Nat) : Frame [.cnp h] s (commonPort h ok s p) :=
  Frame.ite (fun _ => Frame.refl _ s) fun _ => Frame.ite (fun _ => frame_mCnp_half s h _) fun _ => (frame_mCnp_half s h _).trans (frame_mCnp_half _ h _)

theorem chgs_commonPort (h : Half) (ok : List Nat) (s : State) (p : Nat) : ((commonPort h ok s p).hf h).cnp.chgs = (s.hf h).cnp.chgs := by
  unfold commonPort
  split
  · rfl
  · split
    · rw [cnp_mCnp]
    · rw [chgs_acceptLoss, cnp_mCnp]

theorem chgs_foldl_commonPort (h : Half) (ok : List Nat) : (l : List Nat) → (s : State) →
    ((l.foldl (commonPort h ok) s).hf h).cnp.chgs = (s.hf h).cnp.chgs
  | [], _ => rfl
  | p :: l, s => (chgs_foldl_commonPort h ok l _).trans (chgs_commonPort h ok s p)

/-- The exchange leaves the two maps with the half; of Canopy it leaves the matrix changes alone. -/
theorem exchangeMaps_effect (s : State) (h : Half) (b : Bool) :
    ((s.exchangeMaps h b).hf h).twn = { (s.hf h).twn with mapMine := ingestMap s h,
                                                           mapOther := if s.twinUp h && b then some (ingestMap s (other h)) else none } ∧
      ((s.exchangeMaps h b).hf h).cnp.chgs = (s.hf h).cnp.chgs ∧ Frame [.twn h, .cnp h] s (s.exchangeMaps h b) := by
  unfold State.exchangeMaps
  extract_lets mine theirs ok
  have fm := frame_mTwn s h fun t => { t with mapMine := mine, mapOther := theirs }
  have ff := Frame.foldl (frame_commonPort_half h ok) (List.range 80) (s.mTwn h fun t => { t with mapMine := mine, mapOther := theirs })
  have ec : ((s.mTwn h fun t => { t with mapMine := mine, mapOther := theirs }).hf h).cnp = (s.hf h).cnp := fm (.cnp h) (by simp)
  refine ⟨?_, ?_, (fm.mono (by simp)).trans (ff.mono (by simp))⟩
  · rw [ff.twn (by simp)]
    exact congrArg HalfSt.twn (hf_mh_same ..)
  · rw [chgs_foldl_commonPort, ec]

theorem ends_ingestMapExchange (s : State) (h : Half) (b : Bool) : Ends (.ingestMapExchange h b) s fun t => (t.hf h).twn.mapMine = ingestMap s h ∧
    (t.hf h).twn.mapOther = (if s.twinUp h && b then some (ingestMap s (other h)) else none) ∧ (t.hf h).cnp.solved.isSome = true ∧ t.free = s.free + 1 ∧
    (t.hf h).cnp.chgs = (s.hf h).cnp.chgs ∧ Frame [.free, .twn h, .cnp h] s t := by
  obtain ⟨et, ec, fr⟩ := exchangeMaps_effect s h b
  obtain ⟨v, ev⟩ : ∃ v, exec (.ingestMapExchange h b) s = .next (((s.exchangeMaps h b).mCnp h fun c => { c with solved := some v }).drew 1) := ⟨_, rfl⟩
  have fc := frame_mCnp_half (s.exchangeMaps h b) h fun c => { c with solved := some v }
  have ef : ((s.exchangeMaps h b).mCnp h fun c => { c with solved := some v }).free = s.free := (fr.trans (fc.mono (by simp))) .free (by simp)
  refine Ends.of_next ev ⟨?_, ?_, ?_, congrArg (· + 1) ef, ?_, (fr.mono (by simp)).trans ((fc.mono (by simp)).trans ((frame_drew _ 1).mono (by simp)))⟩
  · rw [drew_hf, fc.twn (by simp), et]
  · rw [drew_hf, fc.twn (by simp), et]
  · rw [drew_hf, cnp_mCnp]
    rfl
  · rw [drew_hf, cnp_mCnp, ec]

theorem ends_uplinkAcceptanceLoss {s : State} {h : Half} {p : Nat} (c₃ : 3 ≤ look 0 (s.hf h).cnp.noComm p) (nl : p ∉ (s.hf h).cnp.lost) :
    Ends (.uplinkAcceptanceLoss h p) s fun t => (t.hf h).cnp = { (s.hf h).cnp with lost := (s.hf h).cnp.lost ++ [p] } ∧ Frame [.cnp h] s t := by
  refine Ends.of_next rfl ⟨?_, frame_mCnp_half s h _⟩
  rw [State.acceptLoss, cnp_mCnp, if_pos ⟨c₃, nl⟩]

/-! ### The obligation -/

/-- Settles O16: the checks of a frame are met once for all its clauses, and each command is an update of a port, of the counters, of the half's own supervision or
of what the islands keep, beside its frame. -/
theorem uplinkAndDownlinkFrames : Obligations.UplinkAndDownlinkFrames := by
  refine ⟨?deadline, ?disabled, ?violation, ?main, ?badTag, ?higherClaim, ?meter, ?onTime, ?putLate, ?late, ?idle, ?kept, ?passedOn, ?malformed, ?noMessage,
    ends_ingestMapExchange, fun s h p c₃ nl => ends_uplinkAcceptanceLoss c₃ nl⟩
  case deadline => exact fun s h => Ends.of_next rfl ⟨congrArg HalfSt.tck (hf_mh_same ..), frame_mTck s h _⟩
  case disabled => exact fun s h p f c => exec_uplinkTickFrame_disabled c f
  case violation =>
    intro s h p f hp he n₁ n₅ hv
    have fb := frame_bump (s.mPort h p fun q => { q with winBlks := q.winBlks + f.blocks.length }) .nlk h (p * 0x40 + 0x10) 1
    refine Ends.of_next (exec_uplinkTickFrame_violation hp he n₁ n₅ hv) ⟨?_, ?_, ((frame_mPort s h p _).mono (by simp)).trans (fb.mono (by simp))⟩
    · rw [rg_bump_same, rg_mPort]
    · rw [fb.port (by simp), port_mPort]
  case main =>
    intro s h p n f b hp he n₁ n₅ hv hd hl ty hu ec ho ht ha hi tag
    exact ends_uplink_of_main ⟨hp, he, n₁, n₅, hv, ⟨n, hd⟩, hl, .inl ty, hu, ho, ht, ha, hi⟩ ty ec tag
  case badTag =>
    intro s h p n f b hp he n₁ n₅ hv hd hl ty hu ho ht ha hi tag
    exact ends_uplink_of_badTag ⟨hp, he, n₁, n₅, hv, ⟨n, hd⟩, hl, .inl ty, hu, ho, ht, ha, hi⟩ tag
  case higherClaim =>
    intro s h p n f b hp he n₁ n₅ hv hd hl ty hu ec ho ht ha hi tag hc act
    exact ends_uplink_of_higherClaim ⟨hp, he, n₁, n₅, hv, ⟨n, hd⟩, hl, .inl ty, hu, ho, ht, ha, hi⟩ ty ec tag hc act
  case meter =>
    intro s h p n f b hp' hp he n₁ n₅ hv hd hl ty hu ec ho ht ha hi
    exact ends_uplink_of_meter ⟨hp, he, n₁, n₅, hv, ⟨n, hd⟩, hl, .inr ⟨ty, hp'⟩, hu, ho, ht, ha, hi⟩ ty ec
  case onTime => exact fun s h p hp hs hf hv hw n₂ n₅ hb => ends_downlink_onTime ⟨hp, hs, hf, hv, hw⟩ n₂ n₅ hb
  case putLate => exact fun s h p m hp hs hf hv hw hm hl => ends_downlink_putLate ⟨hp, hs, hf, hv, hw⟩ hm hl
  case late => exact fun s h p hp hs hf hv hw => ends_downlink_late ⟨hp, hs, hf, hv, hw⟩
  case idle =>
    intro s h p b c
    refine exec_downlinkDispatch_idle ?_ b
    rcases c with c | c | c | c | c <;> simp [c]
  case kept =>
    intro s h p m l hp hp' d hk h₁ h₂ hl hc hu
    have ex := (exec_tunnelMessageReceived_of_laidOut d ⟨hp, hp', hk, h₁, h₂, hl⟩).trans (if_pos ⟨hc, hu⟩)
    have fv := frame_mVeh (s.tookMsg h p m) (p - 32) fun v => { v with kept := v.kept ++ [m] }
    have ev : (s.tookMsg h p m).veh = s.veh := frame_tookMsg s h p m .veh (by simp)
    refine Ends.of_next ex ⟨?_, ?_, ((frame_tookMsg s h p m).mono (by simp)).trans (fv.mono (by simp))⟩
    · rw [State.mVeh, look_upd_same, ev]
    · rw [fv.port (by simp), done_tookMsg d]
  case passedOn =>
    intro s h p m l d hc hp hp' hk h₁ h₂ hl
    have ex := (exec_tunnelMessageReceived_of_laidOut d ⟨hp, hp', hk, h₁, h₂, hl⟩).trans (if_neg fun c => hc c.1)
    exact Ends.of_next ex ⟨done_tookMsg d, frame_tookMsg s h p m⟩
  case malformed =>
    intro s h p m l d c
    have ex := (exec_tunnelMessageReceived_of_done d).trans (if_pos (by rcases c with c | c | c | c | c <;> simp [c]))
    have fb := frame_bump (s.tookMsg h p m) .nlk h (p * 0x40 + 0x2C) 1
    have fm := frame_tookMsg s h p m
    refine Ends.of_next ex ⟨?_, ?_, (fm.mono (by simp)).trans (fb.mono (by simp))⟩
    · rw [fb.port (by simp), done_tookMsg d]
    · rw [rg_bump_same, fm.rg (by simp)]
  case noMessage => exact fun s h p d => exec_tunnelMessageReceived_none d

end

end Sys2Proof.Machine

/-!
O11, clocks lost and regained (R65 to R73, R81, R153). What a lost clock leaves is written out as one update of the tick unit and one event (`State.onBypass`); what
the half loses beside it on the internal oscillator, and what a skew measurement leaves, are further updates of the same few units.
-/

namespace Sys2Proof.Machine

section

/-! ### One unit of a half after a change -/

theorem tck_mTck (s : State) (h : Half) (f : TckS → TckS) : ((s.mTck h f).hf h).tck = f (s.hf h).tck := congrArg HalfSt.tck (hf_mh_same ..)
theorem tck_mTck_other (s : State) {h k : Half} (f : TckS → TckS) (n : k ≠ h) : ((s.mTck h f).hf k).tck = (s.hf k).tck := congrArg HalfSt.tck (hf_mh_other _ _ n)
theorem twn_mTwn (s : State) (h : Half) (f : TwnS → TwnS) : ((s.mTwn h f).hf h).twn = f (s.hf h).twn := congrArg HalfSt.twn (hf_mh_same ..)
theorem mTck_mTck (s : State) (h : Half) (f g : TckS → TckS) : (s.mTck h f).mTck h g = s.mTck h fun t => g (f t) := by cases h <;> rfl

/-- An update of the tick unit is what it makes of the unit as it is. -/
theorem mTck_congr {s : State} {h : Half} {f g : TckS → TckS} (e : f (s.hf h).tck = g (s.hf h).tck) : s.mTck h f = s.mTck h g := by
  simp only [State.mTck, State.mh, e]

theorem Frame.tck {ps : List Part} {s t : State} {h : Half} (f : Frame ps s t) (m : Part.tck h ∉ ps) : (t.hf h).tck = (s.hf h).tck := f (.tck h) m

/-! ### A clock lost (R66, R67, R69) -/

/-- What the tick unit holds once its half runs from the bypass clock `sel`, the loss reported with `bits`. -/
def TckS.bypassed (sel bits : Nat) (t : TckS) : TckS :=
  { t with locks := 0, aligned := false, clksel := sel, recount := t.recount || decide (sel = 2), lossTick := t.tick, lossBits := bits }

/-- The half runs from the bypass clock `sel`; the loss stands in sticky bit `bit` of TCK_STATUS and in an event. -/
def State.onBypass (s : State) (h : Half) (bit bits sel : Nat) : State :=
  ((s.srg .tck h 0x08 (s.rg .tck h 0x08 ||| BitVec.ofNat 32 (2 ^ bit))).mTck h (TckS.bypassed sel bits)).ev h 2 0x0104 [bits, sel]

theorem bypassFor_srg (s : State) (b : Blk) (k : Half) (o : Nat) (v : Word) (h : Half) : bypassFor (s.srg b k o v) h = bypassFor s h := by cases h <;> rfl

theorem lossEvent_of_first {s : State} {h : Half} (hl : (s.hf h).tck.lossBits = 0) (bits : Nat) :
    lossEvent s h bits = (s.mTck h fun t => { t with lossTick := t.tick, lossBits := bits }).ev h 2 0x0104 [bits, (s.hf h).tck.clksel] := by
  have e : (s.mTck h fun t => { t with lossTick := (s.hf h).tck.tick, lossBits := bits }) = s.mTck h fun t => { t with lossTick := t.tick, lossBits := bits } :=
    mTck_congr rfl
  simp [lossEvent, hl, e]

/-- The first loss in a tick, of a half on its own clock: to the forwarded clock, or to the oscillator and out of service. -/
theorem clockLost_of_first {s : State} {h : Half} (hc : (s.hf h).tck.clksel = 0) (hl : (s.hf h).tck.lossBits = 0) (bit bits : Nat) :
    clockLost s h bit bits =
      if bypassFor s h = 2 then
        ((s.onBypass h bit bits (bypassFor s h)).goUnhealthy h 0x81).mTwn h fun t => { t with service := false, svcNext := false, rejoin := false, digMatch := 0 }
      else s.onBypass h bit bits (bypassFor s h) := by
  unfold clockLost
  extract_lets s₁ sel s₂ s₃
  have es : sel = bypassFor s h := bypassFor_srg ..
  have e₂ : (s₂.hf h).tck = { (s.hf h).tck with locks := 0, aligned := false, clksel := sel, recount := (s.hf h).tck.recount || decide (sel = 2) } := by
    simp [s₂, tck_mTck, s₁, hc]
  have e₃ : s₃ = s.onBypass h bit bits sel := by
    have e : s₂.mTck h (fun t => { t with lossTick := t.tick, lossBits := bits }) = s₁.mTck h (TckS.bypassed sel bits) := by
      rw [mTck_mTck]
      exact mTck_congr (by simp [s₁, hc, TckS.bypassed])
    rw [show s₃ = _ from lossEvent_of_first (by rw [e₂]; exact hl) bits, e, e₂]
    rfl
  have e₄ : (s₃.hf h).tck.clksel = sel := by
    rw [e₃, State.onBypass, (frame_ev _ h 2 0x0104 _).tck (by simp [bothMbx]), tck_mTck]
    rfl
  rw [e₄, e₃, es]

theorem tck_onBypass (s : State) (h : Half) (bit bits sel : Nat) : ((s.onBypass h bit bits sel).hf h).tck = (s.hf h).tck.bypassed sel bits := by
  rw [State.onBypass, (frame_ev _ h 2 0x0104 _).tck (by simp [bothMbx]), tck_mTck, srg_hf]

theorem frame_onBypass (s : State) (h : Half) (bit bits sel : Nat) : Frame (.regs .tck :: .tck h :: bothMbx) s (s.onBypass h bit bits sel) := by
  simp (maxDischargeDepth := 8) [State.onBypass, bothMbx]

theorem status_onBypass (s : State) (h : Half) (bit bits sel : Nat) :
    (s.onBypass h bit bits sel).rg .tck h 0x08 = s.rg .tck h 0x08 ||| BitVec.ofNat 32 (2 ^ bit) := by simp [State.onBypass]

theorem raised_onBypass (s : State) (h : Half) (bit bits sel : Nat) : Raised (s.onBypass h bit bits sel) h 2 0x0104 [bits, sel] := raised_ev ..

/-- The forwarded clock where the other half is locked on its own clock and the twin link up, else the oscillator (R67). -/
theorem bypassFor_of_locked {s : State} {h : Half} (hu : s.twinUp h = true) (hc : (s.hf (other h)).tck.clksel = 0) (hl : (s.hf (other h)).tck.locks = 7) :
    bypassFor s h = 1 := by simp [bypassFor, hu, hc, hl]
theorem bypassFor_of_twinDown {s : State} {h : Half} (hu : s.twinUp h = false) : bypassFor s h = 2 := by simp [bypassFor, hu]

theorem ends_lossOfReference_forwarded {s : State} {h : Half} (hc : (s.hf h).tck.clksel = 0) (hu : s.twinUp h = true) (hco : (s.hf (other h)).tck.clksel = 0)
    (hlo : (s.hf (other h)).tck.locks = 7) (hl : (s.hf h).tck.lossBits = 0) :
    Ends (.lossOfReference h) s fun t => (t.hf h).tck.clksel = 1 ∧ (t.hf h).tck.refRun = false ∧ (t.hf h).tck.locks = 0 ∧
        t.rg .tck h 0x08 = s.rg .tck h 0x08 ||| 0x04000000 ∧ (t.hf h).twn = (s.hf h).twn ∧ Raised t h 2 0x0104 [1, 1] ∧
        Frame (.regs .tck :: .tck h :: .twn h :: bothMbx) s t := by
  let u := s.mTck h fun t => { t with refRun := false }
  have fu : Frame [.tck h] s u := frame_mTck s h _
  have eu : (u.hf h).tck = { (s.hf h).tck with refRun := false } := tck_mTck ..
  have eo : (u.hf (other h)).tck = (s.hf (other h)).tck := tck_mTck_other _ _ (other_ne h)
  have eb : bypassFor u h = 1 := bypassFor_of_locked ((twinUp_congr (fu.twn (by simp))).trans hu) (by rw [eo, hco]) (by rw [eo, hlo])
  have ex : exec (.lossOfReference h) s = .next (u.onBypass h 26 1 1) := by
    have e := clockLost_of_first (s := u) (by rw [eu]; exact hc) (by rw [eu]; exact hl) 26 1
    rw [eb, if_neg (by decide)] at e
    exact congrArg Host.Outcome.next e
  have f := frame_onBypass u h 26 1 1
  refine Ends.of_next ex ⟨?_, ?_, ?_, ?_, ?_, raised_onBypass .., (fu.mono (by simp)).trans (f.mono (by simp +contextual))⟩
  · rw [tck_onBypass]; rfl
  · rw [tck_onBypass, eu]; rfl
  · rw [tck_onBypass]; rfl
  · rw [status_onBypass, fu.rg (by simp)]; rfl
  · rw [f.twn (by simp [bothMbx]), fu.twn (by simp)]

/-! ### A half made UNHEALTHY (R153) -/

/-- The supervision of a half that goes UNHEALTHY. -/
def TwnS.failed (cause now : Nat) (t : TwnS) : TwnS :=
  { t with unhealthy := true, cause := cause, service := false, svcNext := false, digMatch := 0,
           uhTimes := t.uhTimes.filter (fun x => decide (now < x + 72000000)) ++ [now], resetDue := if cause = 0x81 then none else some (now + 2000) }

theorem goUnhealthy_of_healthy {s : State} {h : Half} (n : (s.hf h).twn.unhealthy = false) (cause : Nat) :
    s.goUnhealthy h cause = (s.mTwn h (TwnS.failed cause (s.tick h))).healthEv h cause := if_neg (by simp [n])

theorem twn_goUnhealthy {s : State} {h : Half} (n : (s.hf h).twn.unhealthy = false) (cause : Nat) :
    ((s.goUnhealthy h cause).hf h).twn = (s.hf h).twn.failed cause (s.tick h) := by
  rw [goUnhealthy_of_healthy n, (frame_healthEv _ h cause).twn (by simp), twn_mTwn]

theorem raised_healthEv {s : State} {h : Half} {v c : Nat} {d : List Nat} (k : Half) (cause : Nat) (r : Raised s h v c d) : Raised (s.healthEv k cause) h v c d :=
  raised_ev_keep _ _ _ _ r

theorem raised_goUnhealthy {s : State} {h : Half} {v c : Nat} {d : List Nat} (k : Half) (cause : Nat) (r : Raised s h v c d) :
    Raised (s.goUnhealthy k cause) h v c d :=
  raised_ite_keep r (raised_healthEv k cause (raised_mTwn_keep k _ r))

theorem ends_lossOfLock_oscillator {s : State} {h : Half} (hc : (s.hf h).tck.clksel = 0) (hu : s.twinUp h = false) (hl : (s.hf h).tck.lossBits = 0)
    (hn : (s.hf h).twn.unhealthy = false) :
    Ends (.lossOfLock h) s fun t => (t.hf h).tck.clksel = 2 ∧ (t.hf h).tck.locks = 0 ∧ t.rg .tck h 0x08 = s.rg .tck h 0x08 ||| 0x02000000 ∧
        (t.hf h).twn.unhealthy = true ∧ (t.hf h).twn.cause = 0x81 ∧ (t.hf h).twn.service = false ∧ (t.hf h).twn.resetDue = none ∧ Raised t h 2 0x0104 [2, 2] ∧
        Frame (.regs .tck :: .tck h :: .twn h :: bothMbx) s t := by
  let u := s.onBypass h 25 2 2
  have fb : Frame (.regs .tck :: .tck h :: bothMbx) s u := frame_onBypass s h 25 2 2
  have fg := frame_goUnhealthy_half u h 0x81
  have fw := frame_mTwn (u.goUnhealthy h 0x81) h fun t => { t with service := false, svcNext := false, rejoin := false, digMatch := 0 }
  have f := (fg.mono (qs := .twn h :: bothMbx) (by simp [bothMbx])).trans (fw.mono (by simp))
  have hn' : (u.hf h).twn.unhealthy = false := by rw [fb.twn (by simp [bothMbx])]; exact hn
  have ex : exec (.lossOfLock h) s = .next ((u.goUnhealthy h 0x81).mTwn h fun t => { t with service := false, svcNext := false, rejoin := false, digMatch := 0 }) := by
    have e := clockLost_of_first hc hl 25 2
    rw [bypassFor_of_twinDown hu, if_pos rfl] at e
    exact congrArg Host.Outcome.next e
  refine Ends.of_next ex ⟨?_, ?_, ?_, ?_, ?_, ?_, ?_, ?_, (fb.mono (by simp [bothMbx])).trans (f.mono (by simp +contextual))⟩
  · rw [f.tck (by simp [bothMbx]), tck_onBypass]; rfl
  · rw [f.tck (by simp [bothMbx]), tck_onBypass]; rfl
  · rw [f.rg (by simp [bothMbx]), status_onBypass]; rfl
  · rw [twn_mTwn, twn_goUnhealthy hn']; rfl
  · rw [twn_mTwn, twn_goUnhealthy hn']; rfl
  · rw [twn_mTwn]
  · rw [twn_mTwn, twn_goUnhealthy hn']; rfl
  · exact raised_mTwn_keep h _ (raised_goUnhealthy h 0x81 (raised_onBypass s h 25 2 2))

/-! ### The own clock back (R65, R70) -/

theorem exec_pllLockComplete_own {n : Nat} (hn : n < 3) (h : Half) (s : State) :
    exec (.pllLockComplete h n) s = .next (s.mTck h fun t => { t with refRun := true, locks := t.locks ||| 2 ^ n }) :=
  (if_neg (by omega)).trans (if_pos hn)

theorem ends_pllLockComplete_shared (s : State) (h : Half) :
    Ends (.pllLockComplete h 3) s fun t => t.pll = { s.pll with relocking := false } ∧ Frame [.pll, .regs .can] s t := by
  have fp : Frame [.pll] s { s with pll := { s.pll with relocking := false } } := by simp
  have fc := Frame.foldl frame_canGo (List.range 4) { s with pll := { s.pll with relocking := false } }
  exact Ends.of_next rfl ⟨fc .pll (by simp), (fp.mono (by simp)).trans (fc.mono (by simp))⟩

theorem exec_bypassExit_of {s : State} {h : Half} (hc : (s.hf h).tck.clksel ≠ 0) (hl : (s.hf h).tck.locks = 7)
    (ha : (s.hf (other h)).twn.service = false ∨ (s.hf h).tck.aligned = true) :
    exec (.bypassExit h) s = .next (s.mTck h fun t => { t with clksel := 0 }) := if_pos (by rcases ha with ha | ha <;> simp [hc, hl, ha])

theorem exec_bypassExit_of_unlocked {s : State} {h : Half} (hl : (s.hf h).tck.locks ≠ 7) : exec (.bypassExit h) s = .next s := if_neg (by simp [hl])

/-! ### The shared PLL's reference (R64) -/

theorem exec_sharedPllReferenceChange_toA {s : State} (ha : s.halfA.tck.refRun = true) (hr : s.pll.ref ≠ 0) :
    exec .sharedPllReferenceChange s = .next { s with pll := { ref := 0, relocking := true } } := by
  show execSharedPllReferenceChange s = _
  simp [execSharedPllReferenceChange, ha, hr.symm]

theorem exec_sharedPllReferenceChange_toOscillator {s : State} (ha : s.halfA.tck.refRun = false) (hb : s.halfB.tck.refRun = false) (hr : s.pll.ref ≠ 2) :
    exec .sharedPllReferenceChange s = .next ({ s with pll := { ref := 2, relocking := false } }.evShared 4 2 0x0104 [1, 2]) := by
  show execSharedPllReferenceChange s = _
  simp [execSharedPllReferenceChange, ha, hb, hr.symm]

/-! ### The skew (R72, R73, R81, R153) -/

/-- The tick unit with a skew measured and a trim applied. -/
def TckS.skewed (ns trim : Int) (t : TckS) : TckS :=
  { t with skewNs := clampI (-32768) 32767 ns, rate := clampRate trim, aligned := !decide (20 < ns.natAbs), skewOver := if 250 < ns.natAbs then some t.tick else none }

theorem clampI_of_mem {lo hi v : Int} (h₁ : lo ≤ v) (h₂ : v ≤ hi) : clampI lo hi v = v := by
  unfold clampI
  rw [if_neg (by omega), if_neg (by omega)]

theorem ne_beq_charge {s : State} {h : Half} (hc : s.charge ≠ some h) : (s.charge == some h) = false := by simpa using hc

theorem exec_skewMeasure_small {s : State} {h : Half} {ns : Int} (hu : s.twinUp h = true) (hc : s.charge ≠ some h) (hs : ns.natAbs ≤ 20) (trim : Int) :
    exec (.skewMeasure h ns trim) s = .next (s.mTck h (TckS.skewed ns trim)) := by
  have n₁ : ¬20 < ns.natAbs := by omega
  have n₂ : ¬250 < ns.natAbs := by omega
  show execSkewMeasure h ns trim s = _
  simp only [execSkewMeasure, hu, ne_beq_charge hc, n₁, n₂, decide_false, Bool.false_and, Bool.and_false, Bool.not_true, Bool.false_eq_true, if_false]
  exact congrArg Host.Outcome.next (mTck_congr (by simp [TckS.skewed, n₁, n₂]))

theorem exec_skewMeasure_inCharge {s : State} {h : Half} (hu : s.twinUp h = true) (hc : s.charge = some h) (ns trim : Int) :
    exec (.skewMeasure h ns trim) s = .next (if (s.hf h).tck.clksel = 0 then s else s.mTck h fun t => { t with aligned := !decide (20 < ns.natAbs) }) := by
  show execSkewMeasure h ns trim s = _
  simp [execSkewMeasure, hu, hc]

theorem exec_skewMeasure_idle {s : State} {h : Half} (c : s.twinUp h = false ∨ (s.charge = some h ∧ (s.hf h).tck.clksel = 0)) (ns trim : Int) :
    exec (.skewMeasure h ns trim) s = .next s := by
  show execSkewMeasure h ns trim s = _
  rcases c with c | ⟨c, hk⟩
  · simp [execSkewMeasure, c]
  · simp [execSkewMeasure, c, hk]

/-- The measurement with its event and sticky bit, where it is beyond 20 ns. -/
def State.skewWide (s : State) (h : Half) (ns trim : Int) : State :=
  let u := s.mTck h (TckS.skewed ns trim)
  (u.srg .tck h 0x08 (u.rg .tck h 0x08 ||| BitVec.ofNat 32 (2 ^ 24))).ev h 1 0x0105 (leInt 2 (clampI (-32768) 32767 ns))

/-- The penalty for it, once per window. -/
def State.skewPenalty (s : State) (h : Half) : State :=
  if (s.hf h).twn.skewPenWin != some (s.tick h / 20000) then (s.mTwn h fun t => { t with skewPenWin := some (s.tick h / 20000) }).penalty h 16 0x04 else s

/-- The second measurement beyond 250 ns in a row. -/
theorem exec_skewMeasure_again {s : State} {h : Half} {ns : Int} {n : Nat} (hu : s.twinUp h = true) (hc : s.charge ≠ some h) (hb : 250 < ns.natAbs)
    (ho : (s.hf h).tck.skewOver = some n) (hn : n + 1 = s.tick h) (trim : Int) :
    exec (.skewMeasure h ns trim) s = .next (((s.skewWide h ns trim).skewPenalty h).goUnhealthy h 0x82) := by
  have w : 20 < ns.natAbs := by omega
  show execSkewMeasure h ns trim s = _
  unfold execSkewMeasure
  extract_lets wide again s₁ s₂ win s₃
  rw [if_neg (by simp [hu]), if_neg (by simp [hc])]
  have ew : wide = true := decide_eq_true w
  have ea : again = true := decide_eq_true (by rw [ho]; exact congrArg some hn)
  have e₂ : s₂ = s.skewWide h ns trim := by
    have ek : (s₁.hf h).tck.skewNs = clampI (-32768) 32767 ns := congrArg TckS.skewNs (tck_mTck s h (TckS.skewed ns trim))
    exact (if_pos ew).trans (by rw [ek]; rfl)
  have e₃ : s₃ = (s.skewWide h ns trim).skewPenalty h := by
    simp only [s₃, ew, Bool.true_and, win, e₂]
    rfl
  rw [if_pos (by rw [ea, decide_eq_true hb]; rfl), e₃]

theorem frame_skewWide (s : State) (h : Half) (ns trim : Int) : Frame (.regs .tck :: .tck h :: bothMbx) s (s.skewWide h ns trim) := by
  simp (maxDischargeDepth := 8) [State.skewWide, bothMbx]

theorem frame_skewPenalty (s : State) (h : Half) : Frame (.twn h :: bothMbx) s (s.skewPenalty h) :=
  Frame.ite (fun _ => ((frame_mTwn s h _).mono (by simp)).trans (frame_penalty_half _ h 16 0x04)) fun _ => Frame.refl _ s

theorem unhealthy_penalty (s : State) (h : Half) (n c : Nat) : ((s.penalty h n c).hf h).twn.unhealthy = (s.hf h).twn.unhealthy := by
  unfold State.penalty
  extract_lets now quiet s₁
  have e : (s₁.hf h).twn.unhealthy = (s.hf h).twn.unhealthy := by simp only [s₁, twn_mTwn]
  rw [← e]
  split
  · rfl
  · rw [(frame_healthEv s₁ h c).twn (by simp)]

theorem unhealthy_skewPenalty (s : State) (h : Half) : ((s.skewPenalty h).hf h).twn.unhealthy = (s.hf h).twn.unhealthy := by
  unfold State.skewPenalty
  split
  · rw [unhealthy_penalty, twn_mTwn]
  · rfl

theorem raised_penalty {s : State} {h : Half} {v c : Nat} {d : List Nat} (k : Half) (n cause : Nat) (r : Raised s h v c d) : Raised (s.penalty k n cause) h v c d :=
  raised_ite_keep (raised_mTwn_keep k _ r) (raised_healthEv k cause (raised_mTwn_keep k _ r))

theorem raised_skewPenalty {s : State} {h : Half} {v c : Nat} {d : List Nat} (k : Half) (r : Raised s h v c d) : Raised (s.skewPenalty k) h v c d :=
  raised_ite_keep (raised_penalty k 16 0x04 (raised_mTwn_keep k _ r)) r

theorem ends_skewMeasure_again {s : State} {h : Half} {ns : Int} {n : Nat} (hu : s.twinUp h = true) (hc : s.charge ≠ some h) (hb : 250 < ns.natAbs)
    (hm : ns.natAbs ≤ 32767) (ho : (s.hf h).tck.skewOver = some n) (hn : n + 1 = s.tick h) (hh : (s.hf h).twn.unhealthy = false) (trim : Int) :
    Ends (.skewMeasure h ns trim) s fun t => (t.hf h).tck.aligned = false ∧ Raised t h 1 0x0105 (leInt 2 ns) ∧ (t.hf h).twn.unhealthy = true ∧
        (t.hf h).twn.cause = 0x82 ∧ Frame (.regs .tck :: .tck h :: .twn h :: bothMbx) s t := by
  have fw := frame_skewWide s h ns trim
  have fp := frame_skewPenalty (s.skewWide h ns trim) h
  have fg := frame_goUnhealthy_half ((s.skewWide h ns trim).skewPenalty h) h 0x82
  have hh' : (((s.skewWide h ns trim).skewPenalty h).hf h).twn.unhealthy = false := by
    rw [unhealthy_skewPenalty, fw.twn (by simp [bothMbx])]
    exact hh
  have er : clampI (-32768) 32767 ns = ns := clampI_of_mem (by omega) (by omega)
  refine Ends.of_next (exec_skewMeasure_again hu hc hb ho hn trim) ⟨?_, ?_, ?_, ?_, ?_⟩
  · rw [fg.tck (by simp), fp.tck (by simp [bothMbx]), State.skewWide, (frame_ev _ h 1 0x0105 _).tck (by simp [bothMbx]), srg_hf, tck_mTck]
    simp [TckS.skewed]
    omega
  · refine raised_goUnhealthy h 0x82 (raised_skewPenalty h ?_)
    rw [State.skewWide, er]
    exact raised_ev ..
  · rw [twn_goUnhealthy hh']; rfl
  · rw [twn_goUnhealthy hh']; rfl
  · exact (fw.mono (by simp [bothMbx])).trans ((fp.mono (by simp [bothMbx])).trans (fg.mono (by simp [bothMbx])))

/-- Settles O11: a lost clock, a lock regained and a skew measured are each an update of the half's tick unit, beside its event and what its health takes from it. -/
theorem clockLossAndRelock : Obligations.ClockLossAndRelock := by
  refine ⟨?forwarded, ?oscillator, ?retry, ?ownLock, ends_pllLockComplete_shared, ?exit, ?locked, ?toA, ?toOscillator, ?small, ?again, ?inCharge, ?idle⟩
  case forwarded => exact fun s h hc hu hco hlo hl => ends_lossOfReference_forwarded hc hu hco hlo hl
  case oscillator => exact fun s h hc hu hl hn => ends_lossOfLock_oscillator hc hu hl hn
  case retry => exact fun s h hc => Ends.of_next (if_neg hc) ⟨tck_mTck .., frame_mTck s h _⟩
  case ownLock => exact fun s h n hn => Ends.of_next (exec_pllLockComplete_own hn h s) ⟨tck_mTck .., frame_mTck s h _⟩
  case exit => exact fun s h hc hl ha => Ends.of_next (exec_bypassExit_of hc hl ha) ⟨tck_mTck .., frame_mTck s h _⟩
  case locked => exact fun s h hl => exec_bypassExit_of_unlocked hl
  case toA => exact fun s ha hr => Ends.of_next (exec_sharedPllReferenceChange_toA ha hr) ⟨rfl, by simp⟩
  case toOscillator =>
    intro s ha hb hr
    refine Ends.of_next (exec_sharedPllReferenceChange_toOscillator ha hb hr) ⟨?_, fun h => raised_evShared .., ?_⟩
    · exact frame_evShared _ 4 2 0x0104 _ .pll (by simp [bothMbx])
    · simp [bothMbx]
  case small =>
    intro s h ns trim hu hc hs
    have er : clampI (-32768) 32767 ns = ns := clampI_of_mem (by omega) (by omega)
    refine Ends.of_next (exec_skewMeasure_small hu hc hs trim) ⟨?_, ?_, ?_, ?_, frame_mTck s h _⟩
    · rw [tck_mTck]; exact er
    · rw [tck_mTck]; rfl
    · simp [tck_mTck, TckS.skewed, hs]
    · rw [tck_mTck]; exact if_neg (by omega)
  case again => exact fun s h ns trim n hu hc hb hm ho hn hh => ends_skewMeasure_again hu hc hb hm ho hn hh trim
  case inCharge =>
    intro s h ns trim hu hc hk
    refine Ends.of_next ((exec_skewMeasure_inCharge hu hc ns trim).trans (congrArg Host.Outcome.next (if_neg hk))) ⟨?_, frame_mTck s h _⟩
    rw [tck_mTck, ← decide_not, decide_eq_decide.2 not_lt]
  case idle => exact fun s h ns trim c => exec_skewMeasure_idle c ns trim

end

end Sys2Proof.Machine

/-!
O10, PTP, holdover, the time step and the RTC (R54 to R62, R80, R81, R114). Each command is one update of the tick unit of one half or of both (`State.setStep`),
followed by the change of its time state where there is one (`State.setTstate`).
-/

namespace Sys2Proof.Machine

section

/-! ### The time state (R81) -/

theorem setTstate_same {s : State} {h : Half} {n : Nat} (e : (s.hf h).tck.tstate = n) : s.setTstate h n = s := if_pos e

theorem frame_setTstate_half (s : State) (h : Half) (n : Nat) : Frame (.tck h :: bothMbx) s (s.setTstate h n) := by
  refine Frame.ite (fun _ => Frame.refl _ s) fun _ => ?_
  simp [bothMbx]

/-- A change of the time state changes nothing else of the tick unit. -/
theorem tck_setTstate (s : State) (h : Half) (n : Nat) : ((s.setTstate h n).hf h).tck = { (s.hf h).tck with tstate := n } := by
  by_cases e : (s.hf h).tck.tstate = n
  · rw [setTstate_same e, ← e]
  · rw [State.setTstate, if_neg e, (frame_ev _ h 1 0x0101 _).tck (by simp [bothMbx]), tck_mTck]

theorem raised_setTstate {s : State} {h : Half} {n : Nat} (e : (s.hf h).tck.tstate ≠ n) :
    Raised (s.setTstate h n) h 1 0x0101
      ([(s.hf h).tck.tstate, n, 0, 0] ++ leInt 4 (clampI (-2147483648) 2147483647 (s.hf h).tck.theta)) := by
  rw [State.setTstate, if_neg e]
  exact raised_ev ..

/-! ### The servo (R55, R57, R59) -/

/-- The tick unit of a half that acts on a filtered offset, but for its time state. -/
def TckS.steered (th : Int) (c : Bool) (t : TckS) : TckS :=
  { t with disc := true, lastSync := t.tick, theta := th, lockTheta := if th.natAbs ≤ 10000 && c then th else t.lockTheta, phase := phaseFor th,
           autoWait := decide (100000000 < th.natAbs) && t.step.isNone, rate := clampRate (t.freq + phaseFor th) }

theorem servo_eq (s : State) (h : Half) (th : Int) (c : Bool) : servo s h th c = (s.mTck h (TckS.steered th c)).setTstate h (stateFor th c) := by
  show (State.mTck (State.mTck s h _) h _).setTstate h (stateFor th c) = _
  rw [mTck_mTck]
  rfl

theorem frame_servo_half (s : State) (h : Half) (th : Int) (c : Bool) : Frame (.tck h :: bothMbx) s (servo s h th c) := by
  rw [servo_eq]
  exact ((frame_mTck s h _).mono (by simp)).trans (frame_setTstate_half _ h _)

theorem tck_servo (s : State) (h : Half) (th : Int) (c : Bool) :
    ((servo s h th c).hf h).tck = { (s.hf h).tck.steered th c with tstate := stateFor th c } := by
  rw [servo_eq, tck_setTstate, tck_mTck]

theorem servo_of_sameState {s : State} {h : Half} {th : Int} {c : Bool} (e : (s.hf h).tck.tstate = stateFor th c) :
    servo s h th c = s.mTck h (TckS.steered th c) := by
  rw [servo_eq]
  exact setTstate_same (by rw [tck_mTck]; exact e)

theorem raised_servo {s : State} {h : Half} {th : Int} {c : Bool} (e : (s.hf h).tck.tstate ≠ stateFor th c) :
    Raised (servo s h th c) h 1 0x0101 ([(s.hf h).tck.tstate, stateFor th c, 0, 0] ++ leInt 4 (clampI (-2147483648) 2147483647 th)) := by
  have et : ((s.mTck h (TckS.steered th c)).hf h).tck = (s.hf h).tck.steered th c := tck_mTck ..
  have r := raised_setTstate (s := s.mTck h (TckS.steered th c)) (n := stateFor th c) (by rw [et]; exact e)
  rw [servo_eq]
  rwa [et] at r

/-! ### A Sync received (R54, R55, R73) -/

/-- The half has heard a Sync of its own domain. -/
def State.heardSync (s : State) (h : Half) (th : Int) : State := s.mTck h fun t => { t with master := true, lastSync := t.tick, theta := th }

theorem frame_heardSync (s : State) (h : Half) (th : Int) : Frame [.tck h] s (s.heardSync h th) := frame_mTck s h _
theorem tck_heardSync (s : State) (h : Half) (th : Int) :
    ((s.heardSync h th).hf h).tck = { (s.hf h).tck with master := true, lastSync := s.tick h, theta := th } := tck_mTck ..

/-- Which half disciplines itself turns on the charge, on which halves serve and on the twin link. -/
theorem disciplines_congr {s t : State} {h : Half} (er : t.ref = s.ref) (ew : ∀ k, (t.hf k).twn = (s.hf k).twn) : t.disciplines h = s.disciplines h := by
  simp only [State.disciplines, State.noService, State.serving, State.twinUp, charge_congr er ew, er, ew]

theorem exec_ptpSyncReceived_idle {s : State} {h : Half} {dom : Nat} (e : s.rb .tck h 0 30 = false ∨ dom ≠ s.rf .tck h 0 23 16) (th : Int) (c : Bool) :
    exec (.ptpSyncReceived h dom th c) s = .next s := if_pos (by rcases e with e | e <;> simp [e])

theorem exec_ptpSyncReceived_of {s : State} {h : Half} {dom : Nat} (hp : s.rb .tck h 0 30 = true) (hd : dom = s.rf .tck h 0 23 16) (th : Int) (c : Bool) :
    exec (.ptpSyncReceived h dom th c) s =
      if s.disciplines h then .next (servo (s.heardSync h th) h th c)
      else if s.charge == some (other h) && !(s.hf (other h)).tck.master && s.rb .tck (other h) 0 30 then .next (servo (s.heardSync h th) (other h) th c)
      else .next (s.heardSync h th) := by
  have f := frame_heardSync s h th
  have ed : (s.heardSync h th).disciplines h = s.disciplines h := disciplines_congr (f .ref (by simp)) fun k => f (.twn k) (by simp)
  have ec : (s.heardSync h th).charge = s.charge := charge_mTck ..
  have eo : ((s.heardSync h th).hf (other h)).tck = (s.hf (other h)).tck := tck_mTck_other _ _ (other_ne h)
  have er : (s.heardSync h th).rb .tck (other h) 0 30 = s.rb .tck (other h) 0 30 := congrArg (bitAt · 30) (f.rg (by simp) _ _)
  rw [← ed, ← ec, ← eo, ← er]
  exact if_neg (by simp [hp, hd])

theorem exec_ptpSyncReceived_own {s : State} {h : Half} {dom : Nat} (hp : s.rb .tck h 0 30 = true) (hd : dom = s.rf .tck h 0 23 16)
    (hs : s.disciplines h = true) (th : Int) (c : Bool) : exec (.ptpSyncReceived h dom th c) s = .next (servo (s.heardSync h th) h th c) :=
  (exec_ptpSyncReceived_of hp hd th c).trans (if_pos hs)

theorem ends_ptpSync_sameState {s : State} {h : Half} {dom : Nat} {th : Int} {c : Bool} (hp : s.rb .tck h 0 30 = true) (hd : dom = s.rf .tck h 0 23 16)
    (hs : s.disciplines h = true) (he : (s.hf h).tck.tstate = stateFor th c) :
    Ends (.ptpSyncReceived h dom th c) s fun t => (t.hf h).tck.theta = th ∧ (t.hf h).tck.phase = phaseFor th ∧
        (t.hf h).tck.rate = clampRate ((s.hf h).tck.freq + phaseFor th) ∧ (t.hf h).tck.master = true ∧ (t.hf h).tck.disc = true ∧ (t.hf h).tck.lastSync = s.tick h ∧
        (t.hf h).tck.autoWait = (decide (100000000 < th.natAbs) && (s.hf h).tck.step.isNone) ∧ Frame [.tck h] s t := by
  have et := tck_heardSync s h th
  have e : servo (s.heardSync h th) h th c = _ := servo_of_sameState (by rw [et]; exact he)
  refine Ends.of_next (exec_ptpSyncReceived_own hp hd hs th c) ?_
  rw [e, tck_mTck, et]
  exact ⟨rfl, rfl, rfl, rfl, rfl, rfl, rfl, (frame_heardSync s h th).trans (frame_mTck _ h _)⟩

theorem ends_ptpSync_newState {s : State} {h : Half} {dom : Nat} {th : Int} {c : Bool} (hp : s.rb .tck h 0 30 = true) (hd : dom = s.rf .tck h 0 23 16)
    (hs : s.disciplines h = true) (he : (s.hf h).tck.tstate ≠ stateFor th c) :
    Ends (.ptpSyncReceived h dom th c) s fun t => (t.hf h).tck.tstate = stateFor th c ∧ (t.hf h).tck.phase = phaseFor th ∧
        Raised t h 1 0x0101 ([(s.hf h).tck.tstate, stateFor th c, 0, 0] ++ leInt 4 (clampI (-2147483648) 2147483647 th)) ∧ Frame (.tck h :: bothMbx) s t := by
  have es : ((s.heardSync h th).hf h).tck.tstate = (s.hf h).tck.tstate := by rw [tck_heardSync]
  have r := raised_servo (s := s.heardSync h th) (h := h) (th := th) (c := c) (by rw [es]; exact he)
  refine Ends.of_next (exec_ptpSyncReceived_own hp hd hs th c) ⟨?_, ?_, es ▸ r, ((frame_heardSync s h th).mono (by simp)).trans (frame_servo_half _ h th c)⟩
  · rw [tck_servo]
  · rw [tck_servo]; rfl

theorem ends_ptpSync_forOther {s : State} {h : Half} {dom : Nat} {th : Int} {c : Bool} (hp : s.rb .tck h 0 30 = true) (hd : dom = s.rf .tck h 0 23 16)
    (hs : s.disciplines h = false) (hc : s.charge = some (other h)) (hm : (s.hf (other h)).tck.master = false) (ho : s.rb .tck (other h) 0 30 = true) :
    Ends (.ptpSyncReceived h dom th c) s fun t => (t.hf h).tck = { (s.hf h).tck with master := true, lastSync := s.tick h, theta := th } ∧
        (t.hf (other h)).tck.theta = th ∧ (t.hf (other h)).tck.phase = phaseFor th ∧ (t.hf (other h)).tck.tstate = stateFor th c ∧
        Frame (.tck .A :: .tck .B :: bothMbx) s t := by
  have ex := (exec_ptpSyncReceived_of hp hd th c).trans ((if_neg (by simp [hs])).trans (if_pos (by simp [hc, hm, ho])))
  have f := frame_servo_half (s.heardSync h th) (other h) th c
  have et : ((servo (s.heardSync h th) (other h) th c).hf h).tck = _ := f.tck (by simp [bothMbx])
  refine Ends.of_next ex ⟨by rw [et, tck_heardSync], ?_, ?_, ?_, ((frame_heardSync s h th).mono ?_).trans (f.mono ?_)⟩
  · rw [tck_servo]; rfl
  · rw [tck_servo]; rfl
  · rw [tck_servo]
  · cases h <;> simp
  · cases h <;> simp [bothMbx, other]

/-! ### FREQ (R56, R57, R62) -/

/-- The tick unit with a new FREQ. -/
def TckS.tuned (f : Int) (t : TckS) : TckS :=
  { t with freq := f, freqTick := t.tick, freqHist := if t.tstate = 2 then (t.freqHist ++ [f]).reverse.take 4 |>.reverse else t.freqHist,
           rate := clampRate (f + t.phase) }

theorem exec_freqUpdate_of {s : State} {h : Half} (hp : s.rb .tck h 0 30 = true) (hs : s.disciplines h = true) (n₃ : (s.hf h).tck.tstate ≠ 3)
    (n₄ : (s.hf h).tck.tstate ≠ 4) (ht : (s.hf h).tck.freqTick + 320000 ≤ s.tick h) (f : Int) :
    exec (.freqUpdate h f) s = .next (s.mTck h (TckS.tuned f)) := by
  have n : ¬(s.hf h).tck.tick < (s.hf h).tck.freqTick + 320000 := Nat.not_lt.2 ht
  exact (if_neg (by simp [hp, hs, n₃, n₄, n])).trans (congrArg Host.Outcome.next (mTck_mTck s h _ _))

theorem exec_freqUpdate_idle {s : State} {h : Half} (c : s.rb .tck h 0 30 = false ∨ s.disciplines h = false ∨ (s.hf h).tck.tstate = 3 ∨
    (s.hf h).tck.tstate = 4 ∨ s.tick h < (s.hf h).tck.freqTick + 320000) (f : Int) : exec (.freqUpdate h f) s = .next s := by
  refine if_pos ?_
  rcases c with c | c | c | c | c
  · simp [c]
  · simp [c]
  · simp [c]
  · simp [c]
  · rw [State.tick] at c
    simp [c]

/-! ### The time step (R59, R114) -/

theorem contactorsOpen_congr {s t : State} {h : Half} (e : ∀ o, t.rg .cnp h o = s.rg .cnp h o) : contactorsOpen t h = contactorsOpen s h := by
  simp only [contactorsOpen, State.rb, State.rf, e]

theorem step_setStep (s : State) (h : Half) (k : Int) (o : Option Org) (g : Half) :
    ((s.setStep h k o).hf g).tck.step = some { ticks := k, edge := s.tick h + 101, org := o } := by simp [State.setStep]

theorem sysTimeStep_runs {s : State} {o : Org} {x : Half} {r : Nat} (hr : RunsAt s o 0x0101 x r) (hm : r ∈ [rInstaller, rVendor]) (ns : Int) :
    exec (.sysTimeStep o ns) s = .next (
      if ns % 50000 ≠ 0 then (s.start o 0x0101 r (some x)).complete o x 0x0101 stRange true []
      else if !contactorsOpen s x || (s.hf x).tck.step.isSome then (s.start o 0x0101 r (some x)).complete o x 0x0101 0x0101 true []
      else ((s.start o 0x0101 r (some x)).setStep x (ns / 50000) (some o)).complete o x 0x0101 stPending false []) := by
  have ec : contactorsOpen (s.start o 0x0101 r (some x)) x = contactorsOpen s x := contactorsOpen_congr fun _ => by simp
  have et : ((s.start o 0x0101 r (some x)).hf x).tck = (s.hf x).tck := (frame_start s o 0x0101 r (some x)).tck (by simp)
  rw [← ec, ← et]
  exact congrArg Host.Outcome.next (verb_runs hr hm _)

theorem ends_started_complete {c : Instr} {s : State} {o : Org} {x : Half} {opc r st : Nat}
    (e : exec c s = .next ((s.start o opc r (some x)).complete o x opc st true [])) :
    Ends c s fun t => AnsweredWith t o opc st true [] ∧ Frame [.mbx o.half] s t :=
  Ends.of_next e ⟨answered_complete (running_start ..) x opc st true [] (by simp),
    (frame_start s o opc r (some x)).trans (frame_complete _ o x opc st true [])⟩

theorem ends_sysTimeStep {s : State} {o : Org} {ns : Int} {x : Half} {r : Nat} (hr : RunsAt s o 0x0101 x r) (hm : r ∈ [rInstaller, rVendor])
    (hn : ns % 50000 = 0) (hc : contactorsOpen s x = true) (hs : (s.hf x).tck.step = none) :
    Ends (.sysTimeStep o ns) s fun t => AnsweredWith t o 0x0101 stPending false [] ∧
        (∀ k, (t.hf k).tck.step = some { ticks := ns / 50000, edge := s.tick x + 101, org := some o }) ∧ Frame [.tck .A, .tck .B, .mbx o.half] s t := by
  have ex := sysTimeStep_runs hr hm ns
  rw [if_neg (by simp [hn]), if_neg (by simp [hc, hs])] at ex
  let u := s.start o 0x0101 r (some x)
  have fs : Frame [.mbx o.half] s u := frame_start s o 0x0101 r (some x)
  have ft := frame_setStep u x (ns / 50000) (some o)
  have run : Running (u.setStep x (ns / 50000) (some o)) o := running_congr (congrArg MbxS.started (ft (.mbx o.half) (by simp))) (running_start ..)
  have fc := frame_complete (u.setStep x (ns / 50000) (some o)) o x 0x0101 stPending false []
  refine Ends.of_next ex ⟨answered_complete run x 0x0101 stPending false [] (by simp), fun k => ?_,
    (fs.mono (by simp)).trans ((ft.mono (by simp)).trans (fc.mono (by simp)))⟩
  rw [fc.tck (by simp), step_setStep, fs.tick (by simp)]

theorem exec_autoTimeStep_of {s : State} {h : Half} (hw : (s.hf h).tck.autoWait = true) (hb : s.rb .tck h 0 31 = true) (hc : s.charge = some h)
    (ho : contactorsOpen s h = true) (hs : (s.hf h).tck.step = none) :
    exec (.autoTimeStep h) s = .next (s.setStep h (-(roundTicks (s.hf h).tck.theta)) none) := if_pos (by simp [hw, hb, hc, ho, hs])

/-! ### Holdover (R62) -/

/-- The tick unit frozen at the mean of its locked FREQ. -/
def TckS.frozen (t : TckS) : TckS :=
  { t with master := false, disc := false, phase := 0, rate := clampRate (meanFreq t.freqHist t.freq), holdStart := t.tick, holdErr0 := t.lockTheta.natAbs,
           holdMark := 1000000, autoWait := false }

theorem exec_holdoverEntry_of {s : State} {h : Half} (hs : s.disciplines h = true) (hd : (s.hf h).tck.disc = true)
    (ht : (s.hf h).tck.lastSync + max 40000 (3 * (s.hf h).tck.annTicks) ≤ s.tick h) :
    exec (.holdoverEntry h) s = .next ((s.mTck h TckS.frozen).setTstate h 4) := by
  rw [State.tick] at ht
  exact if_pos (by simp only [hs, hd, decide_eq_true ht, Bool.and_self])

theorem exec_timeUncertain_of {s : State} {h : Half} (hs : (s.hf h).tck.tstate = 4) (hm : (s.hf h).tck.holdMark < holdErr s h) :
    exec (.timeUncertain h) s = .next ((s.mTck h fun t => { t with holdMark := 2 * max t.holdMark 1 }).ev h 1 0x0103 (le 8 (holdErr s h))) :=
  if_pos (by simp [hs, hm])

/-! ### The RTC and the start (R61, R81) -/

theorem exec_rtcRewrite_of {s : State} {h : Half} (hs : (s.hf h).twn.service = true) (ht : s.tick h % 20000 = 0) :
    exec (.rtcRewrite h) s = .next { s with rtc := rtcOf (s.tick h) } := if_pos (by simp [hs, ht])

theorem exec_rtcRewrite_idle {s : State} {h : Half} (c : (s.hf h).twn.service = false ∨ s.tick h % 20000 ≠ 0) : exec (.rtcRewrite h) s = .next s :=
  if_neg (by rcases c with c | c <;> simp [c])

theorem frame_setCounter_half (s : State) (h : Half) (n : Nat) : Frame [.free, .rtc, .tck h] s (setCounter s h n) := by
  simp (maxDischargeDepth := 8) [setCounter]

theorem rtc_setCounter (s : State) (h : Half) (n : Nat) : (setCounter s h n).rtc = s.rtc + Config.freeNat s.free := by simp [setCounter, State.freeVal]

/-- The counter is set to the number the master gave, or from the RTC counted on. -/
theorem tck_setCounter (s : State) (h : Half) (n : Nat) :
    ((setCounter s h n).hf h).tck.tick = (if (s.hf h).tck.master then n else (setCounter s h n).rtc * 20000 / 32768) ∧
      ((setCounter s h n).hf h).tck.tickSet = true := by
  rw [rtc_setCounter, setCounter, tck_mTck]
  exact ⟨rfl, rfl⟩

theorem exec_startWaitExpiry_of {s : State} {h : Half} (hb : (s.hf h).twn.booted = true) (hn : s.noService = true) (hs : (s.hf h).tck.tickSet = false)
    (hm : (s.hf h).tck.master = false) : exec (.startWaitExpiry h (s.rf .tck h 0 15 8)) s = .next (setCounter s h 0) :=
  if_pos (by simp [hb, hn, hs, hm])

theorem exec_ptpMasterSelectedAtStart_of {s : State} {h : Half} (hb : (s.hf h).twn.booted = true) (hn : s.noService = true)
    (hs : (s.hf h).tck.tickSet = false) (hp : s.rb .tck h 0 30 = true) (n : Nat) :
    exec (.ptpMasterSelectedAtStart h n) s = .next ((setCounter (s.mTck h fun t => { t with master := true }) h n).setTstate h 1) :=
  if_pos (by simp [hb, hn, hs, hp])

theorem ends_ptpMasterSelectedAtStart {s : State} {h : Half} (hb : (s.hf h).twn.booted = true) (hn : s.noService = true)
    (hs : (s.hf h).tck.tickSet = false) (hp : s.rb .tck h 0 30 = true) (n : Nat) :
    Ends (.ptpMasterSelectedAtStart h n) s fun t => t.tick h = n ∧ (t.hf h).tck.tickSet = true ∧ (t.hf h).tck.tstate = 1 ∧
      Frame (.free :: .rtc :: .tck h :: bothMbx) s t := by
  let u := s.mTck h fun t => { t with master := true }
  obtain ⟨et, es⟩ := tck_setCounter u h n
  have em : (u.hf h).tck.master = true := by rw [tck_mTck]
  rw [if_pos em] at et
  refine Ends.of_next (exec_ptpMasterSelectedAtStart_of hb hn hs hp n) ⟨?_, ?_, ?_, ?_⟩
  · rw [State.tick, tck_setTstate]; exact et
  · rw [tck_setTstate]; exact es
  · rw [tck_setTstate]
  · exact ((frame_mTck s h _).mono (by simp)).trans (((frame_setCounter_half u h n).mono (by simp)).trans ((frame_setTstate_half _ h 1).mono (by simp [bothMbx])))

/-- Settles O10: a Sync is the servo's update of the half it serves, a time step one update of both halves, and the other commands each one update of one tick unit
or of the RTC. -/
theorem timeDiscipline : Obligations.TimeDiscipline := by
  refine ⟨fun s h dom th c => ends_ptpSync_sameState, fun s h dom th c => ends_ptpSync_newState, fun s h dom th c => ends_ptpSync_forOther,
    fun s h dom th c e => exec_ptpSyncReceived_idle e th c, ?freq, fun s h f c => exec_freqUpdate_idle c f, fun s o ns x r => ends_sysTimeStep, ?refused, ?range, ?role,
    ?auto, ?holdover, ?uncertain, ?rtc, fun s h => exec_rtcRewrite_idle, ?start, fun s h n hb hn hs hp => ends_ptpMasterSelectedAtStart hb hn hs hp n⟩
  case freq =>
    intro s h f hp hs n₃ n₄ ht
    refine Ends.of_next (exec_freqUpdate_of hp hs n₃ n₄ ht f) ?_
    rw [tck_mTck]
    exact ⟨rfl, rfl, rfl, rfl, frame_mTck s h _⟩
  case refused =>
    intro s o ns x r hr hm hn c
    have ex := sysTimeStep_runs hr hm ns
    rw [if_neg (by simp [hn]), if_pos (by rcases c with c | c <;> simp [c])] at ex
    exact ends_started_complete ex
  case range =>
    intro s o ns x r hr hm hn
    have ex := sysTimeStep_runs hr hm ns
    rw [if_pos hn] at ex
    exact ends_started_complete ex
  case role => exact fun s o ns x r hr hm => ends_started_complete (congrArg Host.Outcome.next (verb_role hr hm _))
  case auto =>
    exact fun s h hw hb hc ho hs => Ends.of_next (exec_autoTimeStep_of hw hb hc ho hs) ⟨step_setStep s h _ none, frame_setStep s h _ none⟩
  case holdover =>
    intro s h hs hd ht
    refine Ends.of_next (exec_holdoverEntry_of hs hd ht) ?_
    rw [tck_setTstate, tck_mTck]
    exact ⟨rfl, rfl, rfl, rfl, rfl, ((frame_mTck s h _).mono (by simp)).trans (frame_setTstate_half _ h 4)⟩
  case uncertain =>
    intro s h hs hm
    have fe := frame_ev (s.mTck h fun t => { t with holdMark := 2 * max t.holdMark 1 }) h 1 0x0103 (le 8 (holdErr s h))
    refine Ends.of_next (exec_timeUncertain_of hs hm) ⟨?_, raised_ev .., ((frame_mTck s h _).mono (by simp)).trans (fe.mono (by simp [bothMbx]))⟩
    rw [fe.tck (by simp [bothMbx]), tck_mTck]
  case rtc => exact fun s h hs ht => Ends.of_next (exec_rtcRewrite_of hs ht) ⟨rfl, by simp⟩
  case start =>
    intro s h hb hn hs hm
    obtain ⟨et, es⟩ := tck_setCounter s h 0
    rw [if_neg (by simp [hm])] at et
    exact Ends.of_next (exec_startWaitExpiry_of hb hn hs hm) ⟨rtc_setCounter s h 0, et, es, frame_setCounter_half s h 0⟩

end

end Sys2Proof.Machine

/-!
O21, the remote's selection (R51, R92, R103 to R114). What an edge leaves of the main command is fixed by the selected frame alone (`Remote.applyMain`): the other
stages of the edge leave the command, the link and the tick number as they find them (`Remote.SameCommand`).
-/

namespace Sys2Proof.Machine

section

theorem rem_mRem (s : State) (p : Nat) (f : Remote → Remote) : (s.mRem p f).rem p = f (s.rem p) := look_upd_same ..

/-! ### A downlink frame (R103 to R105) -/

theorem exec_remoteDownlinkTickFrame_bad {s : State} {p : Nat} {d : Half} {f : RxFrame} (e : goodDown (s.rem p) p d f = none) :
    exec (.remoteDownlinkTickFrame p d f) s = .next s := by
  show execRemoteDownlinkTickFrame p d f s = _
  unfold execRemoteDownlinkTickFrame
  rw [e]

theorem exec_remoteDownlinkTickFrame_good {s : State} {p ty : Nat} {d : Half} {f : RxFrame} {g : RFrame} (e : goodDown (s.rem p) p d f = some (ty, g)) :
    exec (.remoteDownlinkTickFrame p d f) s = .next (s.mRem p fun r => r.accept d ty g) := by
  show execRemoteDownlinkTickFrame p d f s = _
  unfold execRemoteDownlinkTickFrame
  rw [e]

/-- A good main frame: the highest claim seen is in force, and the frame is selected under it. -/
theorem accept_main (r : Remote) (d : Half) {ty : Nat} (n : ty ≠ 0x15) (g : RFrame) :
    (r.accept d ty g).cif = some ((maxClaim r.cif (some g.claim)).getD 0) ∧
      ((r.accept d ty g).firstMain, (r.accept d ty g).spareMain) = selectCopy ((maxClaim r.cif (some g.claim)).getD 0) g r.firstMain r.spareMain ∧
      (r.accept d ty g).applied = r.applied := by
  unfold Remote.accept
  rw [if_neg n]
  cases d <;> exact ⟨rfl, rfl, rfl⟩

theorem maxClaim_of_le {a : Option Nat} {c : Nat} (le : ∀ b, a = some b → b ≤ c) : maxClaim a (some c) = some c := by
  cases a with
  | none => rfl
  | some b => exact congrArg some (Nat.max_eq_right (le b rfl))

theorem accept_of_highest {r : Remote} {ty : Nat} {g : RFrame} (d : Half) (n : ty ≠ 0x15) (hf : r.firstMain = none)
    (le : ∀ c, r.cif = some c → c ≤ g.claim) :
    (r.accept d ty g).firstMain = some g ∧ (r.accept d ty g).cif = some g.claim ∧ (r.accept d ty g).applied = r.applied := by
  obtain ⟨ec, es, ea⟩ := accept_main r d n g
  rw [maxClaim_of_le le] at ec es
  refine ⟨?_, ec, ea⟩
  simpa [selectCopy, hf] using congrArg Prod.fst es

theorem accept_of_lower {r : Remote} {ty c : Nat} {g : RFrame} (d : Half) (n : ty ≠ 0x15) (hf : r.firstMain = none) (hs : r.spareMain = none)
    (hc : r.cif = some c) (lt : g.claim < c) :
    (r.accept d ty g).firstMain = none ∧ (r.accept d ty g).spareMain = some g ∧ (r.accept d ty g).cif = some c := by
  obtain ⟨ec, es, -⟩ := accept_main r d n g
  have em : maxClaim r.cif (some g.claim) = some c := by
    rw [hc]
    exact congrArg some (Nat.max_eq_left lt.le)
  have ne : g.claim ≠ c := lt.ne
  rw [em] at ec es
  have ex : selectCopy c g r.firstMain r.spareMain = (none, some g) := by simp [selectCopy, hf, hs, ne]
  obtain ⟨e₁, e₂⟩ := Prod.mk.inj (es.trans ex)
  exact ⟨e₁, e₂, ec⟩

/-! ### The edge (R105 to R109, R114) -/

/-- The command in force, the link and the tick number are the same. -/
structure Remote.SameCommand (r q : Remote) : Prop where
  applied : q.applied = r.applied
  missed : q.missed = r.missed
  linkLost : q.linkLost = r.linkLost
  zeroCur : q.zeroCur = r.zeroCur
  tick : q.tick = r.tick
  stepEdge : q.stepEdge = r.stepEdge
  cif : q.cif = r.cif
  firstMain : q.firstMain = r.firstMain

theorem Remote.SameCommand.refl (r : Remote) : r.SameCommand r := ⟨rfl, rfl, rfl, rfl, rfl, rfl, rfl, rfl⟩

theorem Remote.SameCommand.trans {r q u : Remote} (a : r.SameCommand q) (b : q.SameCommand u) : r.SameCommand u :=
  ⟨b.applied.trans a.applied, b.missed.trans a.missed, b.linkLost.trans a.linkLost, b.zeroCur.trans a.zeroCur, b.tick.trans a.tick,
    b.stepEdge.trans a.stepEdge, b.cif.trans a.cif, b.firstMain.trans a.firstMain⟩

theorem sameCommand_linkLostStep (r : Remote) (was : Bool) (b : Nat) : r.SameCommand (r.linkLostStep was b) := by
  unfold Remote.linkLostStep
  split
  · exact ⟨rfl, rfl, rfl, rfl, rfl, rfl, rfl, rfl⟩
  · exact .refl r

theorem sameCommand_overVolt (r : Remote) (p : Nat) (v : Int) : r.SameCommand (r.overVolt p v) := by
  unfold Remote.overVolt
  split
  · exact .refl r
  · exact ⟨rfl, rfl, rfl, rfl, rfl, rfl, rfl, rfl⟩

theorem sameCommand_rollStep (r : Remote) (n : Nat) : r.SameCommand (r.rollStep n) := by
  unfold Remote.rollStep
  extract_lets r₁
  have k : r.SameCommand r₁ := by
    unfold r₁
    split
    · split
      · exact ⟨rfl, rfl, rfl, rfl, rfl, rfl, rfl, rfl⟩
      · exact .refl r
    · exact .refl r
  split
  · split
    · exact ⟨k.applied, k.missed, k.linkLost, k.zeroCur, k.tick, k.stepEdge, k.cif, k.firstMain⟩
    · exact k
  · exact k

/-- What an edge leaves of a remote `r` whose main command has been applied as in `a`. -/
structure Remote.Edged (r a q : Remote) : Prop where
  applied : q.applied = a.applied
  missed : q.missed = a.missed
  linkLost : q.linkLost = a.linkLost
  zeroCur : q.zeroCur = a.zeroCur
  firstMain : q.firstMain = none
  upLost : q.upLost = a.linkLost
  upValid : q.upValid = q.cif.isSome
  upClaim : q.upClaim = q.cif.getD 0
  tick : r.stepEdge = 0 → q.tick = r.tick + 1

theorem applyMain_tick (r : Remote) (p : Nat) : (r.applyMain p).tick = r.tick ∧ (r.applyMain p).stepEdge = r.stepEdge := by
  unfold Remote.applyMain
  split
  · split
    · split <;> exact ⟨rfl, rfl⟩
    · exact ⟨rfl, rfl⟩
  · extract_lets m
    split <;> exact ⟨rfl, rfl⟩

theorem applyMain_of_selected {r : Remote} {f : RFrame} (p : Nat) (hf : r.firstMain = some f) (hl : r.linkLost = false) :
    r.applyMain p = { r with applied := f.bytes, missed := 0, zeroCur := false } := by
  unfold Remote.applyMain
  rw [hf]
  exact if_neg (by simp [hl])

theorem applyMain_of_thirdMissed {r : Remote} (p : Nat) (hf : r.firstMain = none) (hl : r.linkLost = false) (hm : r.missed = 2) :
    r.applyMain p = { r with missed := 3, linkLost := true, sinceL := 0, open5 := 0, zeroCur := true, shutdownSig := decide (32 ≤ p) } := by
  unfold Remote.applyMain
  rw [hf, hm]
  exact if_pos (by simp [hl])

theorem ends_remoteTickEdge (s : State) (p below5 : Nat) (v : Int) :
    Ends (.remoteTickEdge p below5 v) s fun t => (s.rem p).Edged ((s.rem p).applyMain p) (t.rem p) ∧ Frame [.free, .rems] s t := by
  refine Ends.of_next rfl ⟨?_, ((frame_drew s 1).mono (by simp)).trans ((frame_mRem _ p _).mono (by simp))⟩
  rw [rem_mRem, show (s.drew 1).rem p = s.rem p from rfl]
  extract_lets was r₁ a b next r₂ r₃
  have k₁ : ((s.rem p).applyMain p).SameCommand r₁ := (sameCommand_linkLostStep _ was below5).trans (sameCommand_overVolt _ p v)
  have k₃ : r₂.SameCommand r₃ := sameCommand_rollStep r₂ next
  refine ⟨k₃.applied.trans k₁.applied, k₃.missed.trans k₁.missed, k₃.linkLost.trans k₁.linkLost, k₃.zeroCur.trans k₁.zeroCur, k₃.firstMain, k₁.linkLost,
    congrArg Option.isSome k₃.cif.symm, congrArg (·.getD 0) k₃.cif.symm, fun e => k₃.tick.trans ?_⟩
  obtain ⟨et, es⟩ := applyMain_tick (s.rem p) p
  have n : ¬(r₁.stepEdge ≠ 0 ∧ r₁.tick + 1 = r₁.stepEdge) := fun c => c.1 ((k₁.stepEdge.trans es).trans e)
  exact (if_neg n).trans (congrArg (· + 1) (k₁.tick.trans et))

/-! ### Markers, HELLO, contactors and power-up (R92, R108, R112, R113) -/

theorem exec_remoteTickMarker_outOfTurn {s : State} {p q : Nat} (hc : (s.rem p).cif = none) (hq : q ≠ ((s.rem p).tick + 1) % 65536) :
    exec (.remoteTickMarker p (some q) none) s = .next (s.mRem p fun r => { r with tickKnown := false }) := by
  show execRemoteTickMarker p (some q) none s = _
  unfold execRemoteTickMarker
  simp only [hc]
  exact if_neg hq

theorem exec_remoteTickMarker_none (s : State) (p : Nat) : exec (.remoteTickMarker p none none) s = .next s := by
  show execRemoteTickMarker p none none s = _
  unfold execRemoteTickMarker
  cases e : (s.rem p).cif with
  | none => simp [e]
  | some c => simp [e]

theorem exec_linkLostForceOpen_of {s : State} {p : Nat} (hl : (s.rem p).linkLost = true) (ht : 500 ≤ (s.rem p).sinceL) (hc : (s.rem p).contactors ≠ 0) :
    exec (.linkLostForceOpen p) s = .next (s.mRem p fun r => { r with contactors := 0, breakLoad := r.breakLoad + 1 }) := if_pos (by simp [hl, ht, hc])

theorem exec_linkLostForceOpen_of_not {s : State} {p : Nat} (c : (s.rem p).linkLost = false ∨ (s.rem p).sinceL < 500 ∨ (s.rem p).contactors = 0) :
    exec (.linkLostForceOpen p) s = .next s := if_neg (by rcases c with c | c | c <;> simp [c])

theorem side_mSide (r : Remote) (d : Half) (f : RSide → RSide) : (r.mSide d f).side d = f (r.side d) := by cases d <;> rfl
theorem side_mSide_other (r : Remote) (d : Half) (f : RSide → RSide) : (r.mSide d f).side (other d) = r.side (other d) := by cases d <;> rfl

theorem exec_remoteHelloSend_first {s : State} {p : Nat} {d : Half} (hj : ((s.rem p).side d).joined = false) (ht : ((s.rem p).side d).helloTick = none)
    (he : s.portEn d p = true) :
    exec (.remoteHelloSend p d) s = .next (s.mRem p fun r => r.mSide d fun x => { x with helloTick := some r.tick, hello := helloMsg p }) :=
  if_pos (by simp [hj, ht, he])

theorem exec_remoteHelloSend_of_not {s : State} {p : Nat} {d : Half} (c : ((s.rem p).side d).joined = true ∨ s.portEn d p = false) :
    exec (.remoteHelloSend p d) s = .next s := if_neg (by rcases c with c | c <;> simp [c])

/-- Settles O21: a frame is selected by the claims seen, an edge applies the selected frame and leaves its command to the rest of the edge's work, and each other
command is one update of one remote. -/
theorem remoteSelection : Obligations.RemoteSelection := by
  refine ⟨fun s p d f => exec_remoteDownlinkTickFrame_bad, ?highest, ?lower, ?spare, ?apply, ?third, ?count, ?outOfTurn, exec_remoteTickMarker_none, ?forceOpen,
    fun s p => exec_linkLostForceOpen_of_not, ?hello, fun s p d => exec_remoteHelloSend_of_not, ?powerUp⟩
  case highest =>
    intro s p ty d f g e n hf le
    obtain ⟨em, ec, ea⟩ := accept_of_highest d n hf le
    refine Ends.of_next (exec_remoteDownlinkTickFrame_good e) ?_
    rw [rem_mRem]
    exact ⟨em, ec, ea, frame_mRem s p _⟩
  case lower =>
    intro s p ty c d f g e n hf hs hc lt
    obtain ⟨em, es, ec⟩ := accept_of_lower d n hf hs hc lt
    refine Ends.of_next (exec_remoteDownlinkTickFrame_good e) ?_
    rw [rem_mRem]
    exact ⟨em, es, ec, frame_mRem s p _⟩
  case spare =>
    intro s p hf hh
    refine Ends.of_next rfl ⟨?_, frame_mRem s p _⟩
    obtain ⟨g, hg⟩ := Option.isSome_iff_exists.1 hh
    simp [rem_mRem, hf, hg]
  case apply =>
    intro s p b v f hf hl
    obtain ⟨t, ex, e, fr⟩ := ends_remoteTickEdge s p b v
    rw [applyMain_of_selected p hf hl] at e
    exact ⟨t, ex, e.applied, e.missed, e.linkLost.trans hl, e.firstMain, e.upLost.trans hl, e.upValid, e.upClaim, fr⟩
  case third =>
    intro s p b v hf hl hm
    obtain ⟨t, ex, e, fr⟩ := ends_remoteTickEdge s p b v
    rw [applyMain_of_thirdMissed p hf hl hm] at e
    exact ⟨t, ex, e.linkLost, e.zeroCur, e.applied, e.upLost, fr⟩
  case count =>
    intro s p b v hs
    obtain ⟨t, ex, e, fr⟩ := ends_remoteTickEdge s p b v
    exact ⟨t, ex, e.tick hs, fr⟩
  case outOfTurn => exact fun s p q hc hq => Ends.of_next (exec_remoteTickMarker_outOfTurn hc hq) ⟨rem_mRem .., frame_mRem s p _⟩
  case forceOpen => exact fun s p hl ht hc => Ends.of_next (exec_linkLostForceOpen_of hl ht hc) ⟨rem_mRem .., frame_mRem s p _⟩
  case hello =>
    intro s p d hj ht he
    refine Ends.of_next (exec_remoteHelloSend_first hj ht he) ?_
    rw [rem_mRem]
    exact ⟨side_mSide .., side_mSide_other .., frame_mRem s p _⟩
  case powerUp =>
    intro s p
    have e : State.rem { s with rems := put {} s.rems p { link := (s.rem p).link }, cabs := del s.cabs p } p = { link := (s.rem p).link } := look_put_same ..
    refine Ends.of_next rfl ⟨e, ?_, ?_, ?_, fun q n => look_put_other _ _ _ n.symm, by simp⟩
    · rw [e]
    · rw [e]
    · rw [e]

end

end Sys2Proof.Machine

/-!
O19, a port's states, its delay and its remote (R74, R75, R87 to R91, R112, R113). A change of state is said once (`State.setPstate`), and so is what the arrival of
a HELLO counts (`State.greeted`); beside these each command is an update of one port, of its counters and of the remote at its end.
-/

namespace Sys2Proof.Machine

section

/-! ### The state of a port (R87) -/

theorem setPstate_of_ne {s : State} {h : Half} {p n : Nat} (e : (s.port h p).pstate ≠ n) (c : Nat) :
    s.setPstate h p n c = (s.mPort h p fun q => { q with pstate := n }).ev h 1 0x0401 ([p, (s.port h p).pstate, n, c] ++ le 2 (s.port h p).delay) := if_neg e

theorem frame_setPstate_half (s : State) (h : Half) (p n c : Nat) : Frame (.ports h :: bothMbx) s (s.setPstate h p n c) := by
  refine Frame.ite (fun _ => Frame.refl _ s) fun _ => ?_
  simp [bothMbx]

theorem port_setPstate {s : State} {h : Half} {p n : Nat} (e : (s.port h p).pstate ≠ n) (c : Nat) :
    (s.setPstate h p n c).port h p = { s.port h p with pstate := n } := by
  rw [setPstate_of_ne e, (frame_ev _ h 1 0x0401 _).port (by simp [bothMbx]), port_mPort]

theorem raised_setPstate {s : State} {h : Half} {p n : Nat} (e : (s.port h p).pstate ≠ n) (c : Nat) :
    Raised (s.setPstate h p n c) h 1 0x0401 ([p, (s.port h p).pstate, n, c] ++ le 2 (s.port h p).delay) := by
  rw [setPstate_of_ne e]
  exact raised_ev ..

/-! ### Line sync (R74, R75, R87) -/

/-- The port in sync. -/
def State.synced (s : State) (h : Half) (p : Nat) : State := s.mPort h p fun q => { q with sync := true, syncTick := s.tick h }

theorem exec_lineSyncGained_of {s : State} {h : Half} {p c : Nat} (hc : 3 ≤ c) (hs : (s.port h p).sync = false) :
    exec (.lineSyncGained h p c) s =
      if s.portEn h p && (s.port h p).pstate = 0 then .next ((s.synced h p).setPstate h p 1 1) else .next (s.synced h p) := by
  have en : (s.synced h p).portEn h p = s.portEn h p := congrArg (bitAt · 31) (rg_mPort ..)
  have ep : ((s.synced h p).port h p).pstate = (s.port h p).pstate := by rw [State.synced, port_mPort]
  rw [← en, ← ep]
  have n : ¬(c < 3 ∨ (s.port h p).sync = true) := by
    rintro (n | n)
    · omega
    · simp [hs] at n
  exact if_neg n

theorem exec_lineSyncGained_idle {s : State} {h : Half} {p c : Nat} (e : c < 3 ∨ (s.port h p).sync = true) : exec (.lineSyncGained h p c) s = .next s := if_pos e

theorem ends_lineSyncGained_down {s : State} {h : Half} {p c : Nat} (hc : 3 ≤ c) (hs : (s.port h p).sync = false) (he : s.portEn h p = true)
    (hp : (s.port h p).pstate = 0) :
    Ends (.lineSyncGained h p c) s fun t => t.port h p = { s.port h p with sync := true, syncTick := s.tick h, pstate := 1 } ∧
        Raised t h 1 0x0401 ([p, 0, 1, 1] ++ le 2 (s.port h p).delay) ∧ Frame (.ports h :: bothMbx) s t := by
  have eq : (s.synced h p).port h p = { s.port h p with sync := true, syncTick := s.tick h } := port_mPort ..
  have n : ((s.synced h p).port h p).pstate ≠ 1 := by simp [eq, hp]
  have r := raised_setPstate n 1
  rw [eq, hp] at r
  refine Ends.of_next ((exec_lineSyncGained_of hc hs).trans (if_pos (by simp [he, hp]))) ⟨?_, r, ?_⟩
  · rw [port_setPstate n, eq]
  · exact ((frame_mPort s h p _).mono (by simp)).trans (frame_setPstate_half _ h p 1 1)

/-- The two counters of a lost line. -/
def State.countLoss (s : State) (h : Half) (p cvs : Nat) : State := (s.bump .nlk h (p * 0x40 + 0x10) cvs).bump .nlk h (p * 0x40 + 0x14) 1

theorem frame_countLoss (s : State) (h : Half) (p cvs : Nat) : Frame [.regs .nlk] s (s.countLoss h p cvs) :=
  (frame_bump s .nlk h _ cvs).trans (frame_bump _ .nlk h _ 1)

/-- The remote's join on one side ends. -/
def Remote.unjoin (h : Half) (r : Remote) : Remote :=
  match h with
  | .A => { r with sideA := { r.sideA with joined := false } }
  | .B => { r with sideB := { r.sideB with joined := false } }

theorem side_unjoin (h : Half) (r : Remote) : ((r.unjoin h).side h).joined = false ∧ (r.unjoin h).side (other h) = r.side (other h) := by
  cases h <;> exact ⟨rfl, rfl⟩

theorem exec_lineSyncLost_of {s : State} {h : Half} {p cvs chars : Nat} (hl : 4 ≤ cvs ∨ 2500 ≤ chars) (hs : (s.port h p).sync = true) :
    exec (.lineSyncLost h p cvs chars) s =
      .next ((((s.countLoss h p cvs).setPstate h p 0 1).mPort h p fun q => { q with sync := false, joinSent := none }).mRem p (Remote.unjoin h)) := by
  have n : ¬((cvs < 4 ∧ chars < 2500) ∨ (s.port h p).sync = false) := by
    rintro (n | n)
    · omega
    · simp [hs] at n
  exact if_neg n

theorem ends_lineSyncLost {s : State} {h : Half} {p cvs chars : Nat} (hl : 4 ≤ cvs ∨ 2500 ≤ chars) (hs : (s.port h p).sync = true)
    (hp : (s.port h p).pstate ≠ 0) :
    Ends (.lineSyncLost h p cvs chars) s fun t => t.port h p = { s.port h p with pstate := 0, sync := false, joinSent := none } ∧
        t.rg .nlk h (p * 0x40 + 0x14) = BitVec.ofNat 32 (min 0xFFFFFFFF ((s.rg .nlk h (p * 0x40 + 0x14)).toNat + 1)) ∧
        t.rg .nlk h (p * 0x40 + 0x10) = BitVec.ofNat 32 (min 0xFFFFFFFF ((s.rg .nlk h (p * 0x40 + 0x10)).toNat + cvs)) ∧
        ((t.rem p).side h).joined = false ∧ (t.rem p).side (other h) = (s.rem p).side (other h) ∧
        Raised t h 1 0x0401 ([p, (s.port h p).pstate, 0, 1] ++ le 2 (s.port h p).delay) ∧ Frame (.regs .nlk :: .ports h :: .rems :: bothMbx) s t := by
  have fc := frame_countLoss s h p cvs
  have eq : (s.countLoss h p cvs).port h p = s.port h p := fc.port (by simp) p
  have n : ((s.countLoss h p cvs).port h p).pstate ≠ 0 := by rw [eq]; exact hp
  have r := raised_setPstate n 1
  rw [eq] at r
  have fp := frame_setPstate_half (s.countLoss h p cvs) h p 0 1
  have fq := frame_mPort ((s.countLoss h p cvs).setPstate h p 0 1) h p fun q => { q with sync := false, joinSent := none }
  have fr := frame_mRem (((s.countLoss h p cvs).setPstate h p 0 1).mPort h p fun q => { q with sync := false, joinSent := none }) p (Remote.unjoin h)
  have f := (fp.mono (qs := .ports h :: .rems :: bothMbx) (by simp [bothMbx])).trans ((fq.mono (by simp)).trans (fr.mono (by simp)))
  have er : (((s.countLoss h p cvs).setPstate h p 0 1).mPort h p fun q => { q with sync := false, joinSent := none }).rem p = s.rem p := by
    have e := ((fc.mono (qs := .regs .nlk :: .ports h :: bothMbx) (by simp)).trans ((fp.mono (by simp +contextual)).trans (fq.mono (by simp)))) .rems (by simp [bothMbx])
    exact congrArg (look {} · p) e
  refine Ends.of_next (exec_lineSyncLost_of hl hs) ⟨?_, ?_, ?_, ?_, ?_, raised_mRem_keep p _ (raised_mPort_keep h p _ r), ?_⟩
  · rw [fr.port (by simp), port_mPort, port_setPstate n, eq]
  · rw [f.rg (by simp [bothMbx]), State.countLoss, rg_bump_same, rg_bump_other _ _ _ _ (by omega)]
  · rw [f.rg (by simp [bothMbx]), State.countLoss, rg_bump_other _ _ _ _ (by omega), rg_bump_same]
  · rw [rem_mRem]; exact (side_unjoin h _).1
  · rw [rem_mRem, (side_unjoin h _).2, er]
  · exact (fc.mono (by simp)).trans (f.mono (by simp +contextual))

/-! ### Delay (R88 to R91) -/

theorem exec_measureEntry_of {s : State} {h : Half} {p : Nat} (hp : (s.port h p).pstate = 1) (hs : (s.port h p).sync = true)
    (ht : (s.port h p).syncTick + 8 ≤ s.tick h) :
    exec (.measureEntry h p) s = .next ((s.setPstate h p 2 0).mPort h p fun q => { q with samples := [], valid := false }) := if_pos (by simp [hp, hs, ht])

theorem exec_measureEntry_idle {s : State} {h : Half} {p : Nat} (c : s.tick h < (s.port h p).syncTick + 8 ∨ (s.port h p).pstate ≠ 1) :
    exec (.measureEntry h p) s = .next s := if_neg (by rcases c with c | c <;> simp [c])

/-- The place of the marker in the tick ahead of the remote's edge: whole intervals, and the rest of one. -/
theorem markerPlace_eq (d : Nat) : markerPlace d = ((50000 - d) / 40 * 40, (50000 - d) % 40 / 4) := by
  have e : 50000 - d - (50000 - d) / 40 * 40 = (50000 - d) % 40 := by omega
  simp only [markerPlace, e]

theorem exec_tickMarkerSend_of {s : State} {h : Half} {p : Nat} (hp : (s.port h p).pstate ≠ 0) :
    exec (.tickMarkerSend h p) s = .next (s.mPort h p fun q =>
      { q with tm := some ((markerPlace (s.port h p).delay).1, (markerPlace (s.port h p).delay).2, (s.tick h + 1) % 2 ^ 16) }) := if_neg hp

theorem exec_dprSend_of {s : State} {h : Half} {p : Nat} (hp : (s.port h p).pstate ≠ 0) (c : s.tick h % 16 = 0 ∨ (s.port h p).pstate = 2) :
    exec (.dprSend h p) s = .next (s.mPort h p fun q => { q with dprTick := some (s.tick h) }) := if_pos (by rcases c with c | c <;> simp [hp, c])

theorem exec_dprSend_idle {s : State} {h : Half} {p : Nat} (ht : s.tick h % 16 ≠ 0) (hp : (s.port h p).pstate ≠ 2) : exec (.dprSend h p) s = .next s :=
  if_neg (by simp [ht, hp])

/-- The last eight samples, the newest a round trip less the remote's turn-around. -/
def PortS.sampled (rtt ta : Nat) (q : PortS) : List Nat := ((rtt - ta) :: q.samples).take 8

theorem exec_decReceived_idle {s : State} {h : Half} {p rtt : Nat} (c : 25000 < rtt ∨ (s.port h p).dprTick = none) (ta : Nat) :
    exec (.decReceived h p rtt ta) s = .next s := if_pos (by rcases c with c | c <;> simp [c])

theorem exec_decReceived_few {s : State} {h : Half} {p rtt : Nat} (ta : Nat) (hd : (s.port h p).dprTick.isSome = true) (hr : rtt ≤ 25000)
    (hl : (s.port h p).samples.length < 7) :
    exec (.decReceived h p rtt ta) s =
      .next (s.mPort h p fun q => { q with samples := (s.port h p).sampled rtt ta, target := (s.port h p).target, dprTick := none }) := by
  have n : ((s.port h p).sampled rtt ta).length ≠ 8 := by simp [PortS.sampled]; omega
  have g : ¬((s.port h p).dprTick.isNone || decide (25000 < rtt)) = true := by simpa [Option.ne_none_iff_isSome, hd] using hr
  show execDecReceived h p rtt ta s = _
  unfold execDecReceived
  extract_lets q l full tgt s₁
  have ef : full = false := decide_eq_false n
  rw [if_neg g]
  simp only [s₁, tgt, ef]
  rfl

/-- The port once the eight samples of `l` are in: the target of R91, in force at once where the port is measuring. -/
def State.measured (s : State) (h : Half) (p : Nat) (l : List Nat) : State :=
  if (s.port h p).pstate = 2 then
    (s.mPort h p fun q => { q with samples := l, target := delayTarget l, dprTick := none }).mPort h p fun q => { q with delay := delayTarget l, valid := true }
  else s.mPort h p fun q => { q with samples := l, target := delayTarget l, dprTick := none }

theorem exec_decReceived_full {s : State} {h : Half} {p rtt ta : Nat} {l : List Nat} (hd : (s.port h p).dprTick.isSome = true) (hr : rtt ≤ 25000)
    (el : l = ((rtt - ta) :: (s.port h p).samples).take 8) (hl : l.length = 8) :
    exec (.decReceived h p rtt ta) s =
      if 2 ≤ (s.port h p).pstate ∧ (s.port h p).pstate ≤ 4 ∧ 1000 < delayTarget l then .next ((s.measured h p l).setPstate h p 5 2)
      else if (s.port h p).pstate = 2 then .next ((s.measured h p l).setPstate h p 3 0) else .next (s.measured h p l) := by
  have g : ¬((s.port h p).dprTick.isNone || decide (25000 < rtt)) = true := by simpa [Option.ne_none_iff_isSome, hd] using hr
  show execDecReceived h p rtt ta s = _
  unfold execDecReceived
  extract_lets q l' full tgt s₁ s₂
  have ef : full = true := decide_eq_true (by rw [← hl, el])
  have et : tgt = delayTarget l := by rw [el]; exact if_pos ef
  have e₂ : s₂ = s.measured h p l := by
    simp only [s₂, s₁, et, State.measured, q]
    rw [el]
  rw [if_neg g, if_neg (by simp [ef]), et, e₂]

theorem frame_measured (s : State) (h : Half) (p : Nat) (l : List Nat) : Frame [.ports h] s (s.measured h p l) :=
  Frame.ite (fun _ => (frame_mPort s h p _).trans (frame_mPort _ h p _)) (fun _ => frame_mPort s h p _)

theorem port_measured_measuring {s : State} {h : Half} {p : Nat} (l : List Nat) (e : (s.port h p).pstate = 2) :
    (s.measured h p l).port h p =
      { s.port h p with samples := l, target := delayTarget l, delay := delayTarget l, dprTick := none, valid := true } := by
  rw [State.measured, if_pos e, port_mPort, port_mPort]

theorem port_measured_other {s : State} {h : Half} {p : Nat} (l : List Nat) (e : (s.port h p).pstate ≠ 2) :
    (s.measured h p l).port h p = { s.port h p with samples := l, target := delayTarget l, dprTick := none } := by
  rw [State.measured, if_neg e, port_mPort]

theorem frame_measured_setPstate (s : State) (h : Half) (p : Nat) (l : List Nat) (n c : Nat) :
    Frame (.ports h :: bothMbx) s ((s.measured h p l).setPstate h p n c) :=
  ((frame_measured s h p l).mono (by simp)).trans (frame_setPstate_half _ h p n c)

theorem ends_decReceived_measured {s : State} {h : Half} {p rtt ta : Nat} {l : List Nat} (hd : (s.port h p).dprTick.isSome = true) (hr : rtt ≤ 25000)
    (hp : (s.port h p).pstate = 2) (el : l = ((rtt - ta) :: (s.port h p).samples).take 8) (hl : l.length = 8) (ht : delayTarget l ≤ 1000) :
    Ends (.decReceived h p rtt ta) s fun t =>
        t.port h p = { s.port h p with samples := l, target := delayTarget l, delay := delayTarget l, dprTick := none, valid := true, pstate := 3 } ∧
        Raised t h 1 0x0401 ([p, 2, 3, 0] ++ le 2 (delayTarget l)) ∧ Frame (.ports h :: bothMbx) s t := by
  have eq := port_measured_measuring l hp
  have n : ((s.measured h p l).port h p).pstate ≠ 3 := by simp [eq, hp]
  have r := raised_setPstate n 0
  rw [eq, hp] at r
  refine Ends.of_next ((exec_decReceived_full hd hr el hl).trans ((if_neg (by omega)).trans (if_pos hp))) ⟨?_, r, frame_measured_setPstate s h p l 3 0⟩
  rw [port_setPstate n, eq]

theorem ends_decReceived_tooFar {s : State} {h : Half} {p rtt ta : Nat} {l : List Nat} (hd : (s.port h p).dprTick.isSome = true) (hr : rtt ≤ 25000)
    (hp : 2 ≤ (s.port h p).pstate ∧ (s.port h p).pstate ≤ 4) (el : l = ((rtt - ta) :: (s.port h p).samples).take 8) (hl : l.length = 8)
    (ht : 1000 < delayTarget l) :
    Ends (.decReceived h p rtt ta) s fun t => (t.port h p).pstate = 5 ∧ (t.port h p).delay = ((s.measured h p l).port h p).delay ∧
        Raised t h 1 0x0401 ([p, (s.port h p).pstate, 5, 2] ++ le 2 ((s.measured h p l).port h p).delay) ∧ Frame (.ports h :: bothMbx) s t := by
  have ep : ((s.measured h p l).port h p).pstate = (s.port h p).pstate := by
    by_cases e : (s.port h p).pstate = 2
    · rw [port_measured_measuring l e]
    · rw [port_measured_other l e]
  have n : ((s.measured h p l).port h p).pstate ≠ 5 := by omega
  have r := raised_setPstate n 2
  rw [ep] at r
  refine Ends.of_next ((exec_decReceived_full hd hr el hl).trans (if_pos ⟨hp.1, hp.2, ht⟩)) ⟨?_, ?_, r, frame_measured_setPstate s h p l 5 2⟩
  · rw [port_setPstate n]
  · rw [port_setPstate n]

theorem sampled_of_few {q : PortS} (rtt ta : Nat) (hl : q.samples.length < 7) : q.sampled rtt ta = (rtt - ta) :: q.samples :=
  List.take_of_length_le (by simp; omega)

/-- One step of the delay toward its target (R91). -/
def PortS.slewed (now : Nat) (q : PortS) : PortS :=
  { q with delay := if q.delay < q.target then min q.target (q.delay + 4) else max q.target (q.delay - 4), slewTick := some now }

theorem exec_delaySlew_of {s : State} {h : Half} {p : Nat} (hv : (s.port h p).valid = true) (hp : (s.port h p).pstate ≠ 2)
    (hs : (s.port h p).slewTick ≠ some (s.tick h)) : exec (.delaySlew h p) s = .next (s.mPort h p (PortS.slewed (s.tick h))) := if_neg (by simp [hv, hp, hs])

theorem exec_delaySlew_idle {s : State} {h : Half} {p : Nat} (c : (s.port h p).slewTick = some (s.tick h) ∨ (s.port h p).valid = false) :
    exec (.delaySlew h p) s = .next s := if_pos (by rcases c with c | c <;> simp [c])

/-! ### HELLO (R75, R112, R113, R442) -/

/-- The state in which a HELLO with the data bytes `b` is looked at: its frame counted, and a tag that is not good. -/
def State.greeted (s : State) (h : Half) (p : Nat) (f : RxFrame) (b : List Nat) : State :=
  (s.asyncCount h p f (.ok b)).bump .nlk h (p * 0x40 + 0x20) (b2n !s.asyncTag h p b)

theorem frame_asyncCount_half (s : State) (h : Half) (p : Nat) (f : RxFrame) (r : Except Nat (List Nat)) :
    Frame [.regs .nlk, .ports h] s (s.asyncCount h p f r) := by
  unfold State.asyncCount
  extract_lets s₁
  have f₁ : Frame [.regs .nlk, .ports h] s s₁ := by simp [s₁]
  cases r with
  | error off => exact f₁.trans ((frame_bump s₁ .nlk h _ 1).mono (by simp))
  | ok b => exact f₁.trans ((frame_mPort s₁ h p _).mono (by simp))

theorem frame_greeted (s : State) (h : Half) (p : Nat) (f : RxFrame) (b : List Nat) : Frame [.regs .nlk, .ports h] s (s.greeted h p f b) :=
  (frame_asyncCount_half s h p f _).trans ((frame_bump _ .nlk h _ _).mono (by simp))

/-- The two ports differ in what their async channels have received. -/
def PortS.SameButRx (q q' : PortS) : Prop := q' = { q with rx := q'.rx }

theorem port_asyncCount (s : State) (h : Half) (p : Nat) (f : RxFrame) (r : Except Nat (List Nat)) :
    (s.port h p).SameButRx ((s.asyncCount h p f r).port h p) := by
  unfold State.asyncCount
  extract_lets s₁
  have e₁ : s₁.port h p = s.port h p := by
    unfold s₁
    split
    · rfl
    · exact (frame_bump s .nlk h _ _).port (by simp) p
  rw [← e₁]
  cases r with
  | error off => exact ((frame_bump s₁ .nlk h _ 1).port (by simp) p).symm ▸ rfl
  | ok b => exact (port_mPort s₁ h p _).symm ▸ rfl

theorem port_greeted (s : State) (h : Half) (p : Nat) (f : RxFrame) (b : List Nat) : (s.port h p).SameButRx ((s.greeted h p f b).port h p) := by
  have e : (s.greeted h p f b).port h p = (s.asyncCount h p f (.ok b)).port h p := (frame_bump _ .nlk h _ _).port (by simp) p
  rw [e]
  exact port_asyncCount ..

/-- A HELLO counts at two words of its port alone. -/
theorem rg_asyncCount_ok (s : State) (h : Half) (p : Nat) (f : RxFrame) (b : List Nat) {o : Nat} (n : p * 0x40 + 0x18 ≠ o) :
    (s.asyncCount h p f (.ok b)).rg .nlk h o = s.rg .nlk h o := by
  show (State.mPort _ h p _).rg .nlk h o = _
  rw [rg_mPort]
  split
  · rfl
  · exact rg_bump_other _ _ _ _ n

theorem rg_greeted_other (s : State) (h : Half) (p : Nat) (f : RxFrame) (b : List Nat) {o : Nat} (n₁ : p * 0x40 + 0x18 ≠ o) (n₂ : p * 0x40 + 0x20 ≠ o) :
    (s.greeted h p f b).rg .nlk h o = s.rg .nlk h o := by
  rw [State.greeted, rg_bump_other _ _ _ _ n₂, rg_asyncCount_ok _ _ _ _ _ n₁]

theorem rg_greeted_badTag {s : State} {h : Half} {p : Nat} {b : List Nat} (f : RxFrame) (ht : s.asyncTag h p b = false) :
    (s.greeted h p f b).rg .nlk h (p * 0x40 + 0x20) = BitVec.ofNat 32 (min 0xFFFFFFFF ((s.rg .nlk h (p * 0x40 + 0x20)).toNat + 1)) := by
  rw [State.greeted, ht, rg_bump_same, rg_asyncCount_ok _ _ _ _ _ (by omega)]
  rfl

theorem exec_helloReceived_idle {s : State} {h : Half} {p : Nat} (c : 80 ≤ p ∨ (s.port h p).pstate = 0) (f : RxFrame) :
    exec (.helloReceived h p f) s = .next s := if_pos c

/-- A HELLO that decodes comes to a port in JOIN, tagged as R101 asks or to be refused for its tag. -/
structure Greets (s : State) (h : Half) (p : Nat) (f : RxFrame) (b : List Nat) : Prop where
  port : p < 80
  joining : (s.port h p).pstate = 3
  decodes : asyncHead p [0x43] (· - 16) f = .ok b
  looked : s.asyncTag h p b = true ∨ s.portAuth h p = true
  kind : numAt (segData b) 0 1 = 1
  length : 16 ≤ (segData b).length

/-- The remote at the port is of the kind and the identity that the port's configuration asks for (R75). -/
def State.expects (s : State) (h : Half) (p : Nat) (m : List Nat) : Prop :=
  numAt m 1 1 = fld (s.nlkCfg h p) 29 28 ∧ (s.rg .nlk h (p * 0x40 + 4) = 0 ∨ (s.rg .nlk h (p * 0x40 + 4)).toNat = numAt m 4 4)

/-- The port with what the HELLO says of the remote. -/
def State.identified (s : State) (h : Half) (p : Nat) (m : List Nat) : State :=
  s.mPort h p fun q => { q with fwver := numAt m 8 4, caps := numAt m 12 4, keygen := s.linkGen p }

/-- The HELLO answered with a JOIN. -/
def State.answerHello (s : State) (h : Half) (p : Nat) : State :=
  (s.sendMsg h p 0x43 (joinMsg s h p)).mPort h p fun x => { x with joinSent := some (s.nextMsg h p 0x43) }

/-- A JOIN is on its way that the remote has not acknowledged. -/
def PortS.joinPending (q : PortS) : Bool :=
  match q.joinSent with
  | some id => q.unacked 0x43 id
  | none => false

/-- What is decided on a HELLO, in the state in which it is looked at. -/
theorem exec_helloReceived_greeted {s : State} {h : Half} {p : Nat} {f : RxFrame} {b : List Nat} (g : Greets s h p f b) :
    exec (.helloReceived h p f) s =
      if numAt (segData b) 1 1 ≠ fld (s.nlkCfg h p) 29 28 then .next ((s.greeted h p f b).setPstate h p 5 3)
      else if s.rg .nlk h (p * 0x40 + 4) ≠ 0 ∧ (s.rg .nlk h (p * 0x40 + 4)).toNat ≠ numAt (segData b) 4 4 then .next ((s.greeted h p f b).setPstate h p 5 3)
      else if !s.asyncTag h p b then .next ((s.greeted h p f b).setPstate h p 5 4)
      else if (s.port h p).joinPending then .next ((s.greeted h p f b).identified h p (segData b))
      else .next (((s.greeted h p f b).identified h p (segData b)).answerHello h p) := by
  obtain ⟨hp, h₃, hb, ht, hk, hl⟩ := g
  have e₀ : (s.greeted h p f b).nlkCfg h p = s.nlkCfg h p := rg_greeted_other _ _ _ _ _ (by omega) (by omega)
  have e₄ : (s.greeted h p f b).rg .nlk h (p * 0x40 + 4) = s.rg .nlk h (p * 0x40 + 4) := rg_greeted_other _ _ _ _ _ (by omega) (by omega)
  have ea : (s.greeted h p f b).portAuth h p = s.portAuth h p := congrArg (bitAt · 30) e₀
  have n₀ : ¬(80 ≤ p ∨ (s.port h p).pstate = 0) := by omega
  have n₁ : ¬((s.port h p).pstate ≠ 3 ∨ numAt (segData b) 0 1 ≠ 1 ∨ (segData b).length < 16 ∨
      (!s.asyncTag h p b && !(s.greeted h p f b).portAuth h p) = true) := by
    rintro (n | n | n | n)
    · exact n h₃
    · exact n hk
    · omega
    · rcases ht with ht | ht <;> simp [ht, ea] at n
  show execHelloReceived h p f s = _
  unfold execHelloReceived
  extract_lets q r tag u
  have er : r = .ok b := hb
  have et : tag = s.asyncTag h p b := by simp only [tag, er]
  have eu : u = s.greeted h p f b := by simp only [u, er, et]; rfl
  rw [if_neg (show ¬(80 ≤ p ∨ q.pstate = 0) from n₀), er, eu, et]
  dsimp only
  rw [if_neg (show ¬(q.pstate ≠ 3 ∨ _) from n₁), e₀, e₄]
  rfl

theorem ends_helloReceived_held {s : State} {h : Half} {p c : Nat} {f : RxFrame} {b : List Nat} (g : Greets s h p f b)
    (e : exec (.helloReceived h p f) s = .next ((s.greeted h p f b).setPstate h p 5 c)) :
    Ends (.helloReceived h p f) s fun t => t = (s.greeted h p f b).setPstate h p 5 c ∧ (t.port h p).pstate = 5 ∧
        Raised t h 1 0x0401 ([p, 3, 5, c] ++ le 2 (s.port h p).delay) ∧ Frame (.regs .nlk :: .ports h :: bothMbx) s t := by
  have eq : (s.greeted h p f b).port h p = _ := port_greeted s h p f b
  have ep : ((s.greeted h p f b).port h p).pstate = 3 := by rw [eq]; exact g.joining
  have ed : ((s.greeted h p f b).port h p).delay = (s.port h p).delay := by rw [eq]
  have n : ((s.greeted h p f b).port h p).pstate ≠ 5 := by omega
  have r := raised_setPstate n c
  rw [ep, ed] at r
  refine Ends.of_next e ⟨rfl, ?_, r, ((frame_greeted s h p f b).mono (by simp)).trans ((frame_setPstate_half _ h p 5 c).mono (by simp [bothMbx]))⟩
  rw [port_setPstate n]

theorem sameKeys_of_linkFrame {s t : State} {h : Half} (f : Frame [.regs .nlk, .ports h] s t) : SameKeys s t where
  now := now_congr (charge_congr (f .ref (by simp)) fun k => f (.twn k) (by simp)) fun _ => f.tick (by simp)
  lkt := f .lkt (by simp)
  bil := f .bil (by simp)

theorem linkGen_of_sameKeys {s t : State} (k : SameKeys s t) (p : Nat) : t.linkGen p = s.linkGen p := by
  simp only [State.linkGen, State.remotePs, State.psOf, State.linkKey, k.lkt, k.now]

/-- The port's async channel of a TYPE with one more message to send. -/
def AsyncTx.queued (x : AsyncTx) (m : AsyncMsg) : AsyncTx := { x with nextId := (x.nextId + 1) % 2 ^ 16, msgs := x.msgs ++ [m] }

/-- A message that fits is queued, under the next number, at its port; the port changes in nothing else. -/
theorem port_sendMsg {b : List Nat} (hb : b.length ≤ 65535) (s : State) (h : Half) (p ty : Nat) :
    ∃ m : AsyncMsg, m.id = s.nextMsg h p ty ∧ m.bytes = b ∧
      (s.sendMsg h p ty b).port h p = { s.port h p with tx := upd {} (s.port h p).tx ty fun x => x.queued m } := by
  refine ⟨{ id := s.nextMsg h p ty, bytes := b, nsegs := max 1 ((b.length + segSize s h p - 1) / segSize s h p) }, rfl, rfl, ?_⟩
  rw [State.sendMsg, if_neg (by omega), port_mPort]
  rfl

theorem frame_sendMsg_half (s : State) (h : Half) (p ty : Nat) (b : List Nat) : Frame [.ports h] s (s.sendMsg h p ty b) :=
  Frame.ite (fun _ => Frame.refl _ s) fun _ => frame_mPort s h p _

theorem ends_helloReceived_answered {s : State} {h : Half} {p : Nat} {f : RxFrame} {b : List Nat} (g : Greets s h p f b) (ht : s.asyncTag h p b = true)
    (hx : s.expects h p (segData b)) (hj : (s.port h p).joinSent = none) :
    Ends (.helloReceived h p f) s fun t => (t.port h p).joinSent = some (s.nextMsg h p 0x43) ∧ (t.port h p).pstate = 3 ∧
        (t.port h p).fwver = numAt (segData b) 8 4 ∧ (t.port h p).caps = numAt (segData b) 12 4 ∧
        (∃ x ∈ (look {} (t.port h p).tx 0x43).msgs, x.id = s.nextMsg h p 0x43 ∧ x.bytes = joinMsg s h p) ∧ Frame [.regs .nlk, .ports h] s t := by
  obtain ⟨hk, hi⟩ := hx
  have nj : (s.port h p).joinPending = false := by simp [PortS.joinPending, hj]
  have ni : ¬(s.rg .nlk h (p * 0x40 + 4) ≠ 0 ∧ (s.rg .nlk h (p * 0x40 + 4)).toNat ≠ numAt (segData b) 4 4) := fun c => hi.elim c.1 c.2
  have ex := exec_helloReceived_greeted g
  rw [if_neg (not_not.2 hk), if_neg ni, if_neg (by simp [ht]), if_neg (by simp [nj])] at ex
  let u := (s.greeted h p f b).identified h p (segData b)
  have fu : Frame [.regs .nlk, .ports h] s u := (frame_greeted s h p f b).trans ((frame_mPort _ h p _).mono (by simp))
  have eq : (s.greeted h p f b).port h p = _ := port_greeted s h p f b
  have eu : u.port h p = { s.port h p with rx := ((s.greeted h p f b).port h p).rx, fwver := numAt (segData b) 8 4, caps := numAt (segData b) 12 4,
                                           keygen := (s.greeted h p f b).linkGen p } := by
    show State.port (State.mPort (s.greeted h p f b) h p _) h p = _
    rw [port_mPort, eq]
  have e₀ : u.nlkCfg h p = s.nlkCfg h p := (rg_mPort ..).trans (rg_greeted_other _ _ _ _ _ (by omega) (by omega))
  have em : joinMsg u h p = joinMsg s h p := by simp only [joinMsg, State.portAuth, e₀, linkGen_of_sameKeys (sameKeys_of_linkFrame fu)]
  have en : u.nextMsg h p 0x43 = s.nextMsg h p 0x43 := by simp only [State.nextMsg, eu]
  obtain ⟨m, mi, mb, ep⟩ := port_sendMsg (b := joinMsg u h p) (by simp [joinMsg, length_le]) u h p 0x43
  have et : (u.answerHello h p).port h p = { (u.sendMsg h p 0x43 (joinMsg u h p)).port h p with joinSent := some (u.nextMsg h p 0x43) } := port_mPort ..
  rw [ep, en, eu] at et
  refine Ends.of_next ex ⟨by rw [et], ?_, by rw [et], by rw [et], ⟨m, ?_, mi.trans en, mb.trans em⟩,
    fu.trans (((frame_sendMsg_half u h p 0x43 _).mono (by simp)).trans ((frame_mPort _ h p _).mono (by simp)))⟩
  · rw [et]; exact g.joining
  · rw [et]
    simp [AsyncTx.queued]

/-- A HELLO at a port that is not in JOIN is counted and does nothing else. -/
theorem ends_helloReceived_counted {s : State} {h : Half} {p : Nat} (f : RxFrame) (hp : p < 80) (h₀ : (s.port h p).pstate ≠ 0) (h₃ : (s.port h p).pstate ≠ 3) :
    Ends (.helloReceived h p f) s fun t => (t.port h p).pstate = (s.port h p).pstate ∧ (t.port h p).joinSent = (s.port h p).joinSent ∧
        (t.port h p).tx = (s.port h p).tx ∧ Frame [.regs .nlk, .ports h] s t := by
  have ex : ∃ n, exec (.helloReceived h p f) s = .next ((s.asyncCount h p f (asyncHead p [0x43] (· - 16) f)).bump .nlk h (p * 0x40 + 0x20) n) := by
    show ∃ n, execHelloReceived h p f s = _
    unfold execHelloReceived
    extract_lets q r tag u
    refine ⟨b2n !tag, ?_⟩
    rw [if_neg (by rintro (c | c); exacts [by omega, h₀ c])]
    cases r with
    | error e => rfl
    | ok b => exact if_pos (.inl h₃)
  obtain ⟨n, ex⟩ := ex
  have eq : (s.asyncCount h p f (asyncHead p [0x43] (· - 16) f)).port h p = _ := port_asyncCount s h p f _
  have fb := frame_bump (s.asyncCount h p f (asyncHead p [0x43] (· - 16) f)) .nlk h (p * 0x40 + 0x20) n
  refine Ends.of_next ex ⟨?_, ?_, ?_, (frame_asyncCount_half s h p f _).trans (fb.mono (by simp))⟩
  · rw [fb.port (by simp), eq]
  · rw [fb.port (by simp), eq]
  · rw [fb.port (by simp), eq]

theorem exec_helloReceived_unexpected {s : State} {h : Half} {p : Nat} {f : RxFrame} {b : List Nat} (g : Greets s h p f b)
    (c : numAt (segData b) 1 1 ≠ fld (s.nlkCfg h p) 29 28 ∨
      (s.rg .nlk h (p * 0x40 + 4) ≠ 0 ∧ (s.rg .nlk h (p * 0x40 + 4)).toNat ≠ numAt (segData b) 4 4)) :
    exec (.helloReceived h p f) s = .next ((s.greeted h p f b).setPstate h p 5 3) := by
  rw [exec_helloReceived_greeted g]
  by_cases c₁ : numAt (segData b) 1 1 ≠ fld (s.nlkCfg h p) 29 28
  · exact if_pos c₁
  · exact (if_neg c₁).trans (if_pos (c.resolve_left c₁))

theorem exec_helloReceived_untagged {s : State} {h : Half} {p : Nat} {f : RxFrame} {b : List Nat} (g : Greets s h p f b) (ht : s.asyncTag h p b = false)
    (hx : s.expects h p (segData b)) : exec (.helloReceived h p f) s = .next ((s.greeted h p f b).setPstate h p 5 4) := by
  obtain ⟨hk, hi⟩ := hx
  rw [exec_helloReceived_greeted g, if_neg (not_not.2 hk), if_neg fun c => hi.elim c.1 c.2, if_pos (by simp [ht])]

/-! ### JOIN acknowledged (R75, R113) -/

/-- The port in SERVICE from the next tick. -/
def State.joined (s : State) (h : Half) (p : Nat) : State := (s.setPstate h p 4 0).mPort h p fun q => { q with joinSent := none, svcFrom := s.tick h + 1 }

/-- The remote once it has acknowledged the JOIN on a side. -/
def Remote.joinedBy (s : State) (h : Half) (p : Nat) (r : Remote) : Remote :=
  { r.mSide h fun d => { d with joined := true, upBlks := fld (s.nlkCfg h p) 23 20, authReq := s.portAuth h p } with
    port := some p, tickKnown := true, tick := s.tick h }

theorem side_joinedBy (s : State) (h : Half) (p : Nat) (r : Remote) :
    (r.joinedBy s h p).side h = { r.side h with joined := true, upBlks := fld (s.nlkCfg h p) 23 20, authReq := s.portAuth h p } := by cases h <;> rfl

theorem frame_joined (s : State) (h : Half) (p : Nat) : Frame (.ports h :: bothMbx) s (s.joined h p) :=
  (frame_setPstate_half s h p 4 0).trans ((frame_mPort _ h p _).mono (by simp))

theorem joinedBy_congr {s t : State} {h : Half} {p : Nat} (er : t.nlkCfg h p = s.nlkCfg h p) (et : t.tick h = s.tick h) :
    Remote.joinedBy t h p = Remote.joinedBy s h p := by
  funext r
  simp only [Remote.joinedBy, State.portAuth, er, et]

theorem exec_joinAcknowledged_idle {s : State} {h : Half} {p : Nat} (c : (s.port h p).joinSent = none ∨ (s.port h p).pstate ≠ 3) :
    exec (.joinAcknowledged h p) s = .next s := by
  show execJoinAcknowledged h p s = _
  unfold execJoinAcknowledged
  extract_lets q
  split
  · rfl
  next id e =>
    rcases c with c | c
    · exact absurd (c.symm.trans e) (by simp)
    · exact if_neg fun a => c a.1

theorem exec_joinAcknowledged_of {s : State} {h : Half} {p id : Nat} (hp : (s.port h p).pstate = 3) (hj : (s.port h p).joinSent = some id)
    (ha : id ∈ (look {} (s.port h p).tx 0x43).acked) (hd : (s.port h p).delay ≤ 1000) (hr : (s.rem p).port = none ∨ (s.rem p).port = some p) :
    exec (.joinAcknowledged h p) s = .next (((s.joined h p).mRem p (Remote.joinedBy (s.joined h p) h p)).lostDither p) := by
  have hr' : (s.rem p).port.isNone = true ∨ (s.rem p).port = some p := hr.imp_left fun e => by simp [e]
  show execJoinAcknowledged h p s = _
  unfold execJoinAcknowledged
  extract_lets q
  rw [show q.joinSent = some id from hj]
  exact if_pos ⟨hp, ha, hd, hr'⟩

theorem ends_joinAcknowledged {s : State} {h : Half} {p id : Nat} (hp : (s.port h p).pstate = 3) (hj : (s.port h p).joinSent = some id)
    (ha : id ∈ (look {} (s.port h p).tx 0x43).acked) (hd : (s.port h p).delay ≤ 1000) (hr : (s.rem p).port = none ∨ (s.rem p).port = some p) :
    Ends (.joinAcknowledged h p) s fun t => t.port h p = { s.port h p with pstate := 4, joinSent := none, svcFrom := s.tick h + 1 } ∧
        ((t.rem p).side h).joined = true ∧ ((t.rem p).side h).authReq = s.portAuth h p ∧ ((t.rem p).side h).upBlks = fld (s.nlkCfg h p) 23 20 ∧
        (t.rem p).port = some p ∧ (t.rem p).tick = s.tick h ∧ (t.rem p).tickKnown = true ∧
        Raised t h 1 0x0401 ([p, 3, 4, 0] ++ le 2 (s.port h p).delay) ∧ Frame (.ports h :: .rems :: .cabs :: bothMbx) s t := by
  have n : (s.port h p).pstate ≠ 4 := by omega
  have r := raised_setPstate n 0
  rw [hp] at r
  have fj := frame_joined s h p
  have ec : Remote.joinedBy (s.joined h p) h p = Remote.joinedBy s h p := joinedBy_congr (fj.rg (by simp [bothMbx]) _ _) (fj.tick (by simp [bothMbx]))
  have fr := frame_mRem (s.joined h p) p (Remote.joinedBy (s.joined h p) h p)
  have fd := frame_lostDither ((s.joined h p).mRem p (Remote.joinedBy (s.joined h p) h p)) p
  have f := (fr.mono (qs := [.rems, .cabs]) (by simp)).trans (fd.mono (by simp))
  have em : (((s.joined h p).mRem p (Remote.joinedBy (s.joined h p) h p)).lostDither p).rem p = ((s.joined h p).rem p).joinedBy s h p := by
    rw [← ec]
    exact rem_mRem ..
  refine Ends.of_next (exec_joinAcknowledged_of hp hj ha hd hr) ⟨?_, ?_, ?_, ?_, ?_, ?_, ?_, ?_, (fj.mono ?_).trans (f.mono (by simp))⟩
  · rw [f.port (by simp), State.joined, port_mPort, port_setPstate n]
  · rw [em, side_joinedBy]
  · rw [em, side_joinedBy]
  · rw [em, side_joinedBy]
  · rw [em]; rfl
  · rw [em]; rfl
  · rw [em]; rfl
  · exact (raised_mRem_keep p (Remote.joinedBy (s.joined h p) h p) (raised_mPort_keep h p _ r)).keep fun q m => (mbx_of_frame fd h (by simp)).symm ▸ m
  · simp [bothMbx]

/-! ### The obligation -/

/-- Settles O19: each command is an update of its port; a change of the port's state, the counting of a HELLO and the join of the remote are said once each. -/
theorem portStatesAndDelay : Obligations.PortStatesAndDelay := by
  refine ⟨fun s h p c => ends_lineSyncGained_down, ?gained, fun s h p c => exec_lineSyncGained_idle, fun s h p cvs chars => ends_lineSyncLost, ?counted, ?measure,
    fun s h p => exec_measureEntry_idle, ?marker, ?dpr, fun s h p => exec_dprSend_idle, ?few, fun s h p rtt ta l => ends_decReceived_measured, ?tooFar, ?wasServing,
    fun s h p rtt ta c => exec_decReceived_idle c ta, ?up, ?down, fun s h p => exec_delaySlew_idle, ?answered, ?unexpected, ?untagged,
    fun s h p f hp h₀ h₃ => ends_helloReceived_counted f hp h₀ h₃, fun s h p f c => exec_helloReceived_idle c f, fun s h p id => ends_joinAcknowledged,
    fun s h p => exec_joinAcknowledged_idle⟩
  case gained =>
    intro s h p c hc hs e
    exact Ends.of_next ((exec_lineSyncGained_of hc hs).trans (if_neg (by rcases e with e | e <;> simp [e]))) ⟨port_mPort .., frame_mPort s h p _⟩
  case counted => exact fun s h p cvs chars c => Ends.of_next (if_pos c) ⟨rg_bump_same .., frame_bump s .nlk h _ cvs⟩
  case measure =>
    intro s h p hp hs ht
    refine Ends.of_next (exec_measureEntry_of hp hs ht) ⟨?_, (frame_setPstate_half s h p 2 0).trans ((frame_mPort _ h p _).mono (by simp))⟩
    rw [port_mPort, port_setPstate (by omega)]
  case marker =>
    intro s h p hp
    refine Ends.of_next (exec_tickMarkerSend_of hp) ⟨?_, frame_mPort s h p _⟩
    rw [port_mPort, markerPlace_eq]; rfl
  case dpr => exact fun s h p hp c => Ends.of_next (exec_dprSend_of hp c) ⟨port_mPort .., frame_mPort s h p _⟩
  case few =>
    intro s h p rtt ta hd hr hl
    refine Ends.of_next (exec_decReceived_few ta hd hr hl) ⟨?_, frame_mPort s h p _⟩
    rw [port_mPort, sampled_of_few rtt ta hl]
  case tooFar =>
    intro s h p rtt ta l hd hr hp el hl ht
    obtain ⟨t, ex, e₅, -, r, fr⟩ := ends_decReceived_tooFar hd hr (by omega) el hl ht
    rw [port_measured_measuring l hp, hp] at r
    exact ⟨t, ex, e₅, r, fr⟩
  case wasServing =>
    intro s h p rtt ta l hd hr hp el hl ht
    obtain ⟨t, ex, e₅, ed, r, fr⟩ := ends_decReceived_tooFar hd hr (by omega) el hl ht
    rw [port_measured_other l (by omega)] at ed r
    exact ⟨t, ex, e₅, ed, r, fr⟩
  case up =>
    intro s h p hv hp hs ht
    refine Ends.of_next (exec_delaySlew_of hv hp hs) ⟨?_, frame_mPort s h p _⟩
    rw [port_mPort, PortS.slewed, if_pos ht]
  case down =>
    intro s h p hv hp hs ht
    refine Ends.of_next (exec_delaySlew_of hv hp hs) ⟨?_, frame_mPort s h p _⟩
    rw [port_mPort, PortS.slewed, if_neg (Nat.not_lt.2 ht)]
  case answered =>
    rintro s h p f b m hp h₃ hb ht rfl hk hl hi hr hj
    exact ends_helloReceived_answered ⟨hp, h₃, hb, .inl ht, hk, hl⟩ ht ⟨hi, hr⟩ hj
  case unexpected =>
    rintro s h p f b m hp h₃ hb ht rfl hk hl c
    have g : Greets s h p f b := ⟨hp, h₃, hb, ht, hk, hl⟩
    obtain ⟨t, ex, -, e₅, r, fr⟩ := ends_helloReceived_held g (exec_helloReceived_unexpected g c)
    exact ⟨t, ex, e₅, r, fr⟩
  case untagged =>
    rintro s h p f b m hp h₃ hb ht ha rfl hk hl hi hr
    have g : Greets s h p f b := ⟨hp, h₃, hb, .inr ha, hk, hl⟩
    obtain ⟨t, ex, et, e₅, r, fr⟩ := ends_helloReceived_held g (exec_helloReceived_untagged g ht ⟨hi, hr⟩)
    refine ⟨t, ex, e₅, r, ?_, fr⟩
    rw [et, (frame_setPstate_half _ h p 5 4).rg (by simp [bothMbx]), rg_greeted_badTag f ht]

end

end Sys2Proof.Machine

/-!
O17, matrix changes (R52, R292 to R300, R306, R307). A change is set, ended or sent to ROUTE by an update of the half's own record of its matrix, and so are the
commands to its poles (`State.setChg`, `State.endChg`, `State.plan`, `State.cmdPole`); what each leaves of that record is said once, and every clause is read off.
-/

namespace Sys2Proof.Machine

section

/-- What a step for `a` brings about, and every step keeps, holds after a fold over a list that names `a`. -/
theorem foldl_reaches {α β : Type} {f : β → α → β} {P : β → Prop} {a : α} (at_ : ∀ s, P (f s a)) (keep : ∀ s b, P s → P (f s b)) :
    (l : List α) → a ∈ l → (s : β) → P (l.foldl f s)
  | b :: l, m, s => by
    have rest (l : List α) (s : β) (hs : P s) : P (l.foldl f s) := List.foldlRecOn l f hs fun s hs b _ => keep s b hs
    rcases List.mem_cons.1 m with e | m
    · exact rest l _ (e ▸ at_ s)
    · exact foldl_reaches at_ keep l m _

/-! ### Commands, plans and events -/

theorem cnp_cmdPole (s : State) (h : Half) (n g : Nat) (b : Bool) :
    ((s.cmdPole h n g b).hf h).cnp =
      { (s.hf h).cnp with
          poleCmd := put 0 (s.hf h).cnp.poleCmd n
            (if b then look 0 (s.hf h).cnp.poleCmd n ||| 2 ^ g else look 0 (s.hf h).cnp.poleCmd n &&& (15 - 2 ^ g)) } := cnp_mCnp ..

theorem frame_cmdPole_half (s : State) (h : Half) (n g : Nat) (b : Bool) : Frame [.cnp h] s (s.cmdPole h n g b) := frame_mCnp_half s h _

theorem frame_setChg_half (s : State) (h : Half) (k : Nat) (v : Change) : Frame [.cnp h] s (s.setChg h k v) := frame_mCnp_half s h _

theorem cnp_setChg (s : State) (h : Half) (k : Nat) (v : Change) :
    ((s.setChg h k v).hf h).cnp = { (s.hf h).cnp with chgs := (s.hf h).cnp.chgs.map fun d => if k ∈ d.outs then v else d } := cnp_mCnp ..

theorem frame_armPlan_blocks (s : State) (h : Half) (p : PlanC) : Frame [.blocks] s (s.armPlan h p) := Frame.foldl (fun s b => frame_mBlk s b h _) p.blks s

theorem frame_plan_half (s : State) (h : Half) (p : PlanC) : Frame [.cnp h, .blocks] s (s.plan h p) :=
  ((frame_mCnp_half s h _).mono (by simp)).trans ((frame_armPlan_blocks _ h p).mono (by simp))

/-- A plan is queued, and nothing else of the record changes. -/
theorem cnp_plan (s : State) (h : Half) (p : PlanC) : ((s.plan h p).hf h).cnp = { (s.hf h).cnp with plans := (s.hf h).cnp.plans ++ [p] } := by
  have e : ((s.plan h p).hf h).cnp = ((s.mCnp h fun c => { c with plans := c.plans ++ [p] }).hf h).cnp := frame_armPlan_blocks _ h p (.cnp h) (by simp)
  rw [e, cnp_mCnp]

/-- Every block the plan names is armed. -/
theorem armed_plan (s : State) (h : Half) (p : PlanC) {b : Blk} (m : b ∈ p.blks) : ((s.plan h p).blk b h).st = 1 := by
  refine foldl_reaches (P := fun u : State => (u.blk b h).st = 1) (fun u => ?_) (fun u c hu => ?_) p.blks m (s.mCnp h fun c => { c with plans := c.plans ++ [p] })
  · simp [blk_mBlk]
  · rw [blk_mBlk]
    split
    · rfl
    · exact hu

theorem frame_chgEv_mbx (s : State) (h : Half) (k l n g : Nat) : Frame bothMbx s (chgEv s h k l n g) :=
  Frame.ite (fun _ => frame_ev s h 1 0x0701 _) fun _ => Frame.refl _ s

theorem Frame.cnp {ps : List Part} {s t : State} {h : Half} (f : Frame ps s t) (m : Part.cnp h ∉ ps) : (t.hf h).cnp = (s.hf h).cnp := f (.cnp h) m

/-! ### A change that ends (R299, R300) -/

/-- What an output of the change keeps of its end. -/
def State.outEnded (s : State) (h : Half) (ch : Change) (code k : Nat) (o : OutChg) : OutChg :=
  { o with last := code, noRetry := if code = 1 then o.noRetry else s.tick h + 20000, noSet := if code = 1 then o.noSet else newSet s h ch k }

/-- What an update of entry `j` makes of it holds of that entry after the entries of a list that names `j` were updated. -/
theorem look_foldl_upd {α : Type} [DecidableEq α] (d : α) (f : Nat → α → α) {P : α → Prop} {j : Nat} (hf : ∀ o, P (f j o)) {l : List Nat} (m : j ∈ l) (t : Tab α) :
    P (look d (l.foldl (fun t k => upd d t k (f k)) t) j) := by
  refine foldl_reaches (P := fun t => P (look d t j)) (fun t => ?_) (fun t k ht => ?_) l m t
  · rw [look_upd_same]
    exact hf _
  · by_cases e : k = j
    · subst e
      rw [look_upd_same]
      exact hf _
    · rwa [look_upd_other d _ t e]

theorem endChg_of_noOrg {s : State} {h : Half} {ch : Change} (ho : ch.org = none) (code : Nat) :
    s.endChg h ch code = s.mCnp h fun c => { c with chgs := c.chgs.filter (fun d => d.outs != ch.outs),
                                                     outs := ch.outs.foldl (fun t k => upd {} t k (s.outEnded h ch code k)) c.outs } := by
  unfold State.endChg
  rw [ho]
  rfl

theorem ended_endChg {s : State} {h : Half} {ch : Change} (ho : ch.org = none) (code : Nat) :
    ((s.endChg h ch code).hf h).cnp.chgs = (s.hf h).cnp.chgs.filter (fun d => d.outs != ch.outs) ∧
      (∀ j ∈ ch.outs, (look {} ((s.endChg h ch code).hf h).cnp.outs j).last = code ∧
        (code ≠ 1 → (look {} ((s.endChg h ch code).hf h).cnp.outs j).noRetry = s.tick h + 20000)) ∧
      ((s.endChg h ch code).hf h).cnp.poleCmd = (s.hf h).cnp.poleCmd ∧ Frame [.cnp h] s (s.endChg h ch code) := by
  rw [endChg_of_noOrg ho, cnp_mCnp]
  refine ⟨rfl, fun j m => ?_, rfl, frame_mCnp_half s h _⟩
  exact look_foldl_upd {} (s.outEnded h ch code) (P := fun o => o.last = code ∧ (code ≠ 1 → o.noRetry = s.tick h + 20000)) (fun o => ⟨rfl, fun n => if_neg n⟩) m _

theorem release_of_passed {s : State} {h : Half} {ch : Change} (e : ch.fail = 0) : s.release h ch = s.endChg h ch 1 := congrArg _ (if_pos e)
theorem release_of_failed {s : State} {h : Half} {ch : Change} (e : ch.fail ≠ 0) : s.release h ch = s.endChg h ch ch.fail := congrArg _ (if_neg e)

/-! ### DRAIN and ROUTE (R299) -/

theorem exec_drainComplete_of {s : State} {h : Half} {k : Nat} {ch : Change} (e : s.chgOf h k = some ch) (hs : ch.st = 1) (hd : 4 ≤ ch.cDrain) :
    exec (.drainComplete h k) s = .next (if ch.opens.isEmpty then s.enterRoute h k ch
      else ch.opens.foldl (fun s e => s.cmdPole h e.1 e.2.1 false) (s.setChg h k { ch with st := 2, ticks := 0 })) := by
  show execDrainComplete h k s = _
  unfold execDrainComplete
  rw [e]
  exact if_pos (by simp [hs, hd])

theorem frame_enterRoute_half (s : State) (h : Half) (k : Nat) (ch : Change) : Frame [.cnp h, .blocks] s (s.enterRoute h k ch) :=
  ((frame_setChg_half s h k _).mono (by simp)).trans (frame_plan_half _ h _)

theorem cnp_enterRoute (s : State) (h : Half) (k : Nat) (ch : Change) :
    ((s.enterRoute h k ch).hf h).cnp =
      { (s.hf h).cnp with chgs := (s.hf h).cnp.chgs.map fun d => if k ∈ d.outs then { ch with st := 3, ticks := 0 } else d,
                          plans := (s.hf h).cnp.plans ++ [routePlan s h ch] } := by
  rw [State.enterRoute, cnp_plan, cnp_setChg]

theorem ends_drainComplete_toRoute {s : State} {h : Half} {k : Nat} {ch : Change} (e : s.chgOf h k = some ch) (hs : ch.st = 1) (hd : 4 ≤ ch.cDrain)
    (ho : ch.opens = []) :
    Ends (.drainComplete h k) s fun t => (t.hf h).cnp.chgs = (s.hf h).cnp.chgs.map (fun d => if k ∈ d.outs then { ch with st := 3, ticks := 0 } else d) ∧
        (t.hf h).cnp.plans = (s.hf h).cnp.plans ++ [routePlan s h ch] ∧ (t.hf h).cnp.poleCmd = (s.hf h).cnp.poleCmd ∧
        (∀ x ∈ (routePlan s h ch).blks, (t.blk x h).st = 1) ∧ Frame [.cnp h, .blocks] s t := by
  have ex := exec_drainComplete_of e hs hd
  rw [if_pos (by simp [ho])] at ex
  refine Ends.of_next ex ⟨?_, ?_, ?_, fun x m => armed_plan _ h _ m, frame_enterRoute_half s h k ch⟩
  · rw [cnp_enterRoute]
  · rw [cnp_enterRoute]
  · rw [cnp_enterRoute]

theorem ends_drainComplete_toOpen {s : State} {h : Half} {k n g i : Nat} {ch : Change} (e : s.chgOf h k = some ch) (hs : ch.st = 1) (hd : 4 ≤ ch.cDrain)
    (ho : ch.opens = [(n, g, i)]) :
    Ends (.drainComplete h k) s fun t => (t.hf h).cnp.chgs = (s.hf h).cnp.chgs.map (fun d => if k ∈ d.outs then { ch with st := 2, ticks := 0 } else d) ∧
        look 0 (t.hf h).cnp.poleCmd n = look 0 (s.hf h).cnp.poleCmd n &&& (15 - 2 ^ g) ∧ (t.hf h).cnp.plans = (s.hf h).cnp.plans ∧ Frame [.cnp h] s t := by
  have ex : exec (.drainComplete h k) s = .next ((s.setChg h k { ch with st := 2, ticks := 0 }).cmdPole h n g false) := by
    rw [exec_drainComplete_of e hs hd, if_neg (by simp [ho]), ho]
    rfl
  refine Ends.of_next ex ⟨?_, ?_, ?_, (frame_setChg_half s h k _).trans (frame_cmdPole_half _ h n g false)⟩
  · rw [cnp_cmdPole, cnp_setChg]
  · rw [cnp_cmdPole, cnp_setChg, look_put_same]
    rfl
  · rw [cnp_cmdPole, cnp_setChg]

theorem exec_drainTimeout_of {s : State} {h : Half} {k : Nat} {ch : Change} (e : s.chgOf h k = some ch) (hs : ch.st = 1) (hd : ch.cDrain < 4)
    (ht : 10 * s.rf .cnp h 0x4804 31 24 ≤ ch.ticks) : exec (.drainTimeout h k) s = .next (s.endChg h ch 2) := by
  show execDrainTimeout h k s = _
  unfold execDrainTimeout
  rw [e]
  exact if_pos (by simp [hs, hd, ht])

theorem exec_polesOpened_of {s : State} {h : Half} {k : Nat} {ch : Change} (e : s.chgOf h k = some ch) (hs : ch.st = 2)
    (ho : ∀ e ∈ ch.opens, s.poleFb h e.1 e.2.1 = false) : exec (.polesOpened h k) s = .next (s.enterRoute h k ch) := by
  show execPolesOpened h k s = _
  unfold execPolesOpened
  rw [e]
  have ho' : ch.opens.all (fun e => !s.poleFb h e.1 e.2.1) = true := List.all_eq_true.2 fun x m => by simp [ho x m]
  exact if_pos (by simp [hs, ho'])

/-! ### A pole marked BAD (R300) -/

theorem frame_markBad_cnp (s : State) (h : Half) (n g : Nat) : Frame [.regs .cnp] s (s.markBad h n g) := frame_srf s .cnp h _ _ _ _

theorem poleBad_markBad {g : Nat} (hg : g < 4) (s : State) (h : Half) (n : Nat) : (s.markBad h n g).poleBad h n g = true :=
  rb_srf_bit (by omega) s .cnp h (0x5000 + 4 * n) true

theorem poleBad_of_frame {ps : List Part} {s t : State} (f : Frame ps s t) (m : Part.regs .cnp ∉ ps) (h : Half) (n g : Nat) :
    t.poleBad h n g = s.poleBad h n g := congrArg (bitAt · (8 + g)) (f.rg m _ _)

/-- The pole stays closed: it is marked BAD, and the half in charge says so. -/
def State.welded (s : State) (h : Half) (k n g : Nat) : State := chgEv (s.markBad h n g) h k 3 n g

/-- The change without the group whose pole is welded. -/
def Change.without (ch : Change) (i : Nat) : Change :=
  { ch with joins := ch.joins.filter (fun e => e.2 ≠ i), leaves := ch.leaves.filter (fun e => e.2 ≠ i), closes := ch.closes.filter (fun e => e.2.2 ≠ i), opens := [],
            fail := 3 }

theorem frame_welded (s : State) (h : Half) (k n g : Nat) : Frame (.regs .cnp :: bothMbx) s (s.welded h k n g) :=
  ((frame_markBad_cnp s h n g).mono (by simp)).trans ((frame_chgEv_mbx _ h k 3 n g).mono (by simp +contextual))

theorem weldPoles_one {s : State} {h : Half} {k n g i : Nat} {ch : Change} (ho : ch.opens = [(n, g, i)]) :
    weldPoles s h k ch [(n, g, i)] = (s.welded h k n g, ch.without i) := by
  simp [weldPoles, State.welded, Change.without, ho, eq_comm]

theorem exec_poleOpenTimeout_one {s : State} {h : Half} {k n g i : Nat} {ch : Change} (e : s.chgOf h k = some ch) (hs : ch.st = 2) (ho : ch.opens = [(n, g, i)])
    (hf : s.poleFb h n g = true) (ht : 10 * s.rf .cnp h 0x4804 23 16 ≤ ch.ticks) :
    exec (.poleOpenTimeout h k) s = .next ((s.welded h k n g).enterRoute h k (ch.without i)) := by
  have eb : (ch.opens.filter fun e => s.poleFb h e.1 e.2.1) = [(n, g, i)] := by simp [ho, hf]
  show execPoleOpenTimeout h k s = _
  unfold execPoleOpenTimeout
  rw [e]
  dsimp only
  rw [eb, weldPoles_one ho]
  exact if_pos (by simp [hs, ht])

theorem raised_chgEv {s : State} {h : Half} (hc : s.charge = some h) (k l n g : Nat) : Raised (chgEv s h k l n g) h 1 0x0701 ([k, l] ++ le 2 n ++ [g]) := by
  rw [chgEv, if_pos hc]
  exact raised_ev ..

theorem Raised.of_frame {ps : List Part} {s t : State} {h : Half} {v c : Nat} {d : List Nat} (f : Frame ps s t) (m : Part.mbx h ∉ ps) (r : Raised s h v c d) :
    Raised t h v c d := r.keep fun _ hq => (mbx_of_frame f h m).symm ▸ hq

theorem ends_poleOpenTimeout_one {s : State} {h : Half} {k n g i : Nat} {ch : Change} (e : s.chgOf h k = some ch) (hs : ch.st = 2) (ho : ch.opens = [(n, g, i)])
    (hg : g < 4) (hf : s.poleFb h n g = true) (ht : 10 * s.rf .cnp h 0x4804 23 16 ≤ ch.ticks) :
    Ends (.poleOpenTimeout h k) s fun t => t.poleBad h n g = true ∧ (∃ c, c.st = 3 ∧ c.fail = 3 ∧ c.opens = [] ∧ (∀ e ∈ c.joins, e.2 ≠ i) ∧ (∀ e ∈ c.leaves, e.2 ≠ i) ∧
        (t.hf h).cnp.chgs = (s.hf h).cnp.chgs.map (fun d => if k ∈ d.outs then c else d)) ∧ (s.charge = some h → Raised t h 1 0x0701 ([k, 3] ++ le 2 n ++ [g])) ∧
        Frame (.regs .cnp :: .blocks :: .cnp h :: bothMbx) s t := by
  have fw := frame_welded s h k n g
  have fr := frame_enterRoute_half (s.welded h k n g) h k (ch.without i)
  have ec : (s.markBad h n g).charge = s.charge := charge_congr (frame_markBad_cnp s h n g .ref (by simp)) fun j => frame_markBad_cnp s h n g (.twn j) (by simp)
  refine Ends.of_next (exec_poleOpenTimeout_one e hs ho hf ht) ⟨?_, ⟨{ ch.without i with st := 3, ticks := 0 }, rfl, rfl, rfl, ?_, ?_, ?_⟩, fun hc => ?_, ?_⟩
  · rw [poleBad_of_frame fr (by simp), State.welded, poleBad_of_frame (frame_chgEv_mbx _ h k 3 n g) (by simp [bothMbx]), poleBad_markBad hg]
  · exact fun x m => by simpa using (List.mem_filter.1 m).2
  · exact fun x m => by simpa using (List.mem_filter.1 m).2
  · rw [cnp_enterRoute, fw.cnp (by simp [bothMbx])]
  · exact (raised_chgEv (ec.trans hc) k 3 n g).of_frame fr (by simp)
  · exact (fw.mono (by simp [bothMbx])).trans (fr.mono (by simp))

/-! ### CLOSE and MATCH (R299, R300) -/

theorem exec_polesClosed_of {s : State} {h : Half} {k : Nat} {ch : Change} (e : s.chgOf h k = some ch) (hs : ch.st = 4)
    (hc : ∀ e ∈ ch.closes, s.poleFb h e.1 e.2.1 = true) : exec (.polesClosed h k) s = .next (s.setChg h k { ch with st := 5, ticks := 0, cMatch := 0 }) := by
  have hc' : ch.closes.all (fun e => s.poleFb h e.1 e.2.1) = true := List.all_eq_true.2 hc
  show execPolesClosed h k s = _
  unfold execPolesClosed
  rw [e]
  exact if_pos (by simp [hs, hc'])

theorem exec_matchPass_of {s : State} {h : Half} {k : Nat} {ch : Change} (e : s.chgOf h k = some ch) (hs : ch.st = 5) (hm : 4 ≤ ch.cMatch) :
    exec (.matchPass h k) s = .next (s.release h ch) := by
  show execMatchPass h k s = _
  unfold execMatchPass
  rw [e]
  exact if_pos (by simp [hs, hm])

/-- Between `s` and `t` only plans were queued, and blocks armed, at the half. -/
structure PlansOnly (h : Half) (s t : State) : Prop where
  cnp : (t.hf h).cnp = { (s.hf h).cnp with plans := (t.hf h).cnp.plans }
  frame : Frame [.cnp h, .blocks] s t

theorem PlansOnly.refl (h : Half) (s : State) : PlansOnly h s s := ⟨rfl, Frame.refl _ s⟩

theorem PlansOnly.plan {h : Half} {s t : State} (o : PlansOnly h s t) (p : PlanC) : PlansOnly h s (t.plan h p) :=
  ⟨by rw [cnp_plan, o.cnp], o.frame.trans (frame_plan_half t h p)⟩

theorem PlansOnly.foldl {β : Type} {h : Half} {f : State → β → State} (hf : ∀ s t b, PlansOnly h s t → PlansOnly h s (f t b)) (l : List β) (s : State) :
    PlansOnly h s (l.foldl f s) := List.foldlRecOn l f (PlansOnly.refl h s) fun t o b _ => hf s t b o

/-- The pole is marked BAD and commanded open, and the half in charge says so. -/
def State.poleOut (s : State) (h : Half) (k code n g : Nat) : State := chgEv ((s.markBad h n g).cmdPole h n g false) h k code n g

theorem frame_poleOut (s : State) (h : Half) (k code n g : Nat) : Frame (.regs .cnp :: .cnp h :: bothMbx) s (s.poleOut h k code n g) :=
  (((frame_markBad_cnp s h n g).mono (by simp)).trans ((frame_cmdPole_half _ h n g false).mono (by simp))).trans
    ((frame_chgEv_mbx _ h k code n g).mono (by simp +contextual))

theorem cnp_poleOut (s : State) (h : Half) (k code n g : Nat) :
    ((s.poleOut h k code n g).hf h).cnp =
      { (s.hf h).cnp with poleCmd := put 0 (s.hf h).cnp.poleCmd n (look 0 (s.hf h).cnp.poleCmd n &&& (15 - 2 ^ g)) } := by
  rw [State.poleOut, (frame_chgEv_mbx _ h k code n g).cnp (by simp [bothMbx]), cnp_cmdPole, (frame_markBad_cnp s h n g).cnp (by simp)]
  rfl

theorem poleBad_poleOut {g : Nat} (hg : g < 4) (s : State) (h : Half) (k code n : Nat) : (s.poleOut h k code n g).poleBad h n g = true := by
  rw [State.poleOut, poleBad_of_frame (frame_chgEv_mbx _ h k code n g) (by simp [bothMbx]), poleBad_of_frame (frame_cmdPole_half _ h n g false) (by simp), poleBad_markBad hg]

/-- The change without the group of the one pole that failed. -/
def Change.dropped (ch : Change) (code i : Nat) : Change := { ch with joins := ch.joins.filter (fun e => e.2 ≠ i), closes := [], fail := code }

theorem dropFailed_one_snd (s : State) (h : Half) (k code : Nat) {n g i : Nat} {ch : Change} (hc : ch.closes = [(n, g, i)]) :
    (dropFailed s h k code ch [(n, g, i)]).2 = ch.dropped code i := by
  simp [dropFailed, Change.dropped, hc]

theorem dropFailed_one_plans (s : State) (h : Half) (k code n g i : Nat) (ch : Change) :
    PlansOnly h (s.poleOut h k code n g) (dropFailed s h k code ch [(n, g, i)]).1 := by
  unfold dropFailed
  simp only [List.foldl_cons, List.foldl_nil]
  refine PlansOnly.foldl (fun u t j o => ?_) (List.range 48) (s.poleOut h k code n g)
  split
  · exact o.plan _
  · exact o

/-- One pole that failed to close or to match: its pole is BAD and commanded open, the changes stand, and only plans and an event come with it. -/
theorem dropFailed_one_fst (s : State) (h : Half) (k code : Nat) {n g i : Nat} (ch : Change) (hg : g < 4) :
    (dropFailed s h k code ch [(n, g, i)]).1.poleBad h n g = true ∧
      ((dropFailed s h k code ch [(n, g, i)]).1.hf h).cnp.chgs = (s.hf h).cnp.chgs ∧
      look 0 ((dropFailed s h k code ch [(n, g, i)]).1.hf h).cnp.poleCmd n = look 0 (s.hf h).cnp.poleCmd n &&& (15 - 2 ^ g) ∧
      Frame (.regs .cnp :: .blocks :: .cnp h :: bothMbx) s (dropFailed s h k code ch [(n, g, i)]).1 := by
  obtain ⟨oc, of⟩ := dropFailed_one_plans s h k code n g i ch
  refine ⟨?_, ?_, ?_, ?_⟩
  · rw [poleBad_of_frame of (by simp), poleBad_poleOut hg]
  · rw [oc, cnp_poleOut]
  · rw [oc, cnp_poleOut, look_put_same]
  · exact ((frame_poleOut s h k code n g).mono (by simp +contextual)).trans (of.mono (by simp))

/-- A change that fails on its one pole and has no other half to answer to is ended with its code. -/
theorem released_dropFailed_one (s : State) (h : Half) {k code n g i : Nat} {ch : Change} (hg : g < 4) (hc : ch.closes = [(n, g, i)]) (ho : ch.org = none) (h0 : code ≠ 0) :
    let r := dropFailed s h k code ch [(n, g, i)]
    let t := r.1.release h r.2
    t.poleBad h n g = true ∧ (t.hf h).cnp.chgs = (s.hf h).cnp.chgs.filter (fun d => d.outs != ch.outs) ∧ (∀ j ∈ ch.outs, (look {} (t.hf h).cnp.outs j).last = code) ∧
      look 0 (t.hf h).cnp.poleCmd n = look 0 (s.hf h).cnp.poleCmd n &&& (15 - 2 ^ g) ∧ Frame (.regs .cnp :: .blocks :: .cnp h :: bothMbx) s t := by
  obtain ⟨rb, rc, rp, rf⟩ := dropFailed_one_fst s h k code (i := i) ch hg
  dsimp only
  rw [dropFailed_one_snd s h k code hc, release_of_failed (ch := ch.dropped code i) h0]
  obtain ⟨ec, eo, ep, ef⟩ := ended_endChg (s := (dropFailed s h k code ch [(n, g, i)]).1) (h := h) (ch := ch.dropped code i) ho code
  exact ⟨(poleBad_of_frame ef (by simp) h n g).trans rb, ec.trans (congrArg _ rc), fun j m => (eo j m).1, (congrArg (look 0 · n) ep).trans rp,
    rf.trans (ef.mono (by simp))⟩

theorem exec_poleCloseTimeout_one {s : State} {h : Half} {k n g i : Nat} {ch : Change} (e : s.chgOf h k = some ch) (hs : ch.st = 4) (hc : ch.closes = [(n, g, i)])
    (hf : s.poleFb h n g = false) (ht : 10 * s.rf .cnp h 0x4804 23 16 ≤ ch.ticks) :
    exec (.poleCloseTimeout h k) s = .next ((dropFailed s h k 4 ch [(n, g, i)]).1.release h (dropFailed s h k 4 ch [(n, g, i)]).2) := by
  have eb : (ch.closes.filter fun e => !s.poleFb h e.1 e.2.1) = [(n, g, i)] := by simp [hc, hf]
  have ec : (dropFailed s h k 4 ch [(n, g, i)]).2.closes.isEmpty = true := by rw [dropFailed_one_snd s h k 4 hc]; rfl
  show execPoleCloseTimeout h k s = _
  unfold execPoleCloseTimeout
  rw [e]
  dsimp only
  rw [eb, ec, if_pos (by simp [hs, ht]), if_pos rfl]

theorem exec_matchTimeout_one {s : State} {h : Half} {k n g i : Nat} {ch : Change} (e : s.chgOf h k = some ch) (hs : ch.st = 5) (hm : ch.cMatch < 4)
    (ht : 10 * s.rf .cnp h 0x4804 15 8 ≤ ch.ticks) (hc : ch.closes = [(n, g, i)]) (hj : ch.joins = [(k, i)]) (hb : busMatches s h (k, i) = false) :
    exec (.matchTimeout h k) s = .next ((dropFailed s h k 5 ch [(n, g, i)]).1.release h (dropFailed s h k 5 ch [(n, g, i)]).2) := by
  have eb : (ch.closes.filter fun e => ch.joins.any fun j => j.2 = e.2.2 && !busMatches s h j) = [(n, g, i)] := by simp [hc, hj, hb]
  show execMatchTimeout h k s = _
  unfold execMatchTimeout
  rw [e]
  dsimp only
  rw [eb, if_pos (by simp [hs, hm, ht])]

/-! ### No change, a lost cabinet and a pole that opens by itself (R292, R306, R307) -/

/-- Without a change of the output none of the commands of a change does anything. -/
theorem exec_of_noChange {s : State} {h : Half} {k : Nat} (e : s.chgOf h k = none) :
    exec (.drainComplete h k) s = .next s ∧ exec (.drainTimeout h k) s = .next s ∧ exec (.polesOpened h k) s = .next s ∧
      exec (.poleOpenTimeout h k) s = .next s ∧ exec (.polesClosed h k) s = .next s ∧ exec (.poleCloseTimeout h k) s = .next s ∧ exec (.matchPass h k) s = .next s ∧
      exec (.matchTimeout h k) s = .next s ∧ ∀ c, exec (.changeCabinetLost h k c) s = .next s := by
  refine ⟨?_, ?_, ?_, ?_, ?_, ?_, ?_, ?_, fun c => ?_⟩
  · show execDrainComplete h k s = _
    rw [execDrainComplete, e]
  · show execDrainTimeout h k s = _
    rw [execDrainTimeout, e]
  · show execPolesOpened h k s = _
    rw [execPolesOpened, e]
  · show execPoleOpenTimeout h k s = _
    rw [execPoleOpenTimeout, e]
  · show execPolesClosed h k s = _
    rw [execPolesClosed, e]
  · show execPoleCloseTimeout h k s = _
    rw [execPoleCloseTimeout, e]
  · show execMatchPass h k s = _
    rw [execMatchPass, e]
  · show execMatchTimeout h k s = _
    rw [execMatchTimeout, e]
  · show execChangeCabinetLost h k c s = _
    rw [execChangeCabinetLost, e]

/-- The routes of each output of the change that lead over the lost cabinet are planned out. -/
def State.cabinetOut (s : State) (h : Half) (outs : List Nat) (c : Nat) : State :=
  outs.foldl (fun u j => u.plan h (dropPlan s h j ((s.routesOf h j).filter fun gid => gid / 4 == c))) s

theorem plansOnly_cabinetOut (s : State) (h : Half) (outs : List Nat) (c : Nat) : PlansOnly h s (s.cabinetOut h outs c) :=
  PlansOnly.foldl (f := fun u j => u.plan h (dropPlan s h j ((s.routesOf h j).filter fun gid => gid / 4 == c))) (fun _ _ _ o => o.plan _) outs s

theorem exec_changeCabinetLost_draining {s : State} {h : Half} {k c i : Nat} {ch : Change} (e : s.chgOf h k = some ch) (hl : s.cabLost h c = true) (hs : ch.st = 1)
    (hj : ch.joins = [(k, i)]) (hi : i / 4 = c) (ho : ch.opens = []) (hc : ch.closes = []) (hv : ch.leaves = []) :
    exec (.changeCabinetLost h k c) s = .next ((chgEv (s.cabinetOut h ch.outs c) h k 6 0 0).setChg h k { ch with joins := [], fail := 6 }) := by
  show execChangeCabinetLost h k c s = _
  unfold execChangeCabinetLost
  rw [e]
  dsimp only
  rw [if_pos (by simp [hl, hj, hi])]
  simp [hs, hj, hi, ho, hc, hv, State.cabinetOut]

theorem ends_changeCabinetLost_draining {s : State} {h : Half} {k c i : Nat} {ch : Change} (e : s.chgOf h k = some ch) (hl : s.cabLost h c = true) (hs : ch.st = 1)
    (hj : ch.joins = [(k, i)]) (hi : i / 4 = c) (ho : ch.opens = []) (hc : ch.closes = []) (hv : ch.leaves = []) :
    Ends (.changeCabinetLost h k c) s fun t =>
        (t.hf h).cnp.chgs = (s.hf h).cnp.chgs.map (fun d => if k ∈ d.outs then { ch with joins := [], fail := 6 } else d) ∧ Frame (.blocks :: .cnp h :: bothMbx) s t := by
  obtain ⟨oc, of⟩ := plansOnly_cabinetOut s h ch.outs c
  have fe := frame_chgEv_mbx (s.cabinetOut h ch.outs c) h k 6 0 0
  refine Ends.of_next (exec_changeCabinetLost_draining e hl hs hj hi ho hc hv) ⟨?_, ?_⟩
  · rw [cnp_setChg, fe.cnp (by simp [bothMbx]), oc]
  · exact ((of.mono (by simp)).trans (fe.mono (by simp +contextual))).trans ((frame_setChg_half _ h k _).mono (by simp))

theorem exec_uncommandedPoleOpen_of {s : State} {h : Half} {n g : Nat} (h31 : bitAt (s.ctr h n) 31 = true) (hf : s.poleFb h n g = false)
    (hcmd : (look 0 (s.hf h).cnp.poleCmd n).testBit g = true) (hg : g < 4) (hb : 4 * fld (s.ctr h n) 20 16 + g ∉ (s.hf h).cnp.brk)
    (hr : 4 * fld (s.ctr h n) 20 16 + g ∈ s.routesOf h (fld (s.ctr h n) 5 0))
    (hc : (s.hf h).cnp.chgs.any (fun c => c.closes.any fun e => e.2.2 = 4 * fld (s.ctr h n) 20 16 + g) = false) :
    exec (.uncommandedPoleOpen h n g) s = .next (chgEv (s.mCnp h fun c => { c with brk := c.brk ++ [4 * fld (s.ctr h n) 20 16 + g] }) h (fld (s.ctr h n) 5 0)
      (look {} (s.hf h).cnp.outs (fld (s.ctr h n) 5 0)).last n g) := by
  show execUncommandedPoleOpen h n g s = _
  unfold execUncommandedPoleOpen
  extract_lets w gid
  refine if_pos ?_
  simp only [Bool.and_eq_true, Bool.not_eq_true', decide_eq_true_eq]
  exact ⟨⟨⟨⟨⟨⟨h31, hf⟩, hcmd⟩, hg⟩, hb⟩, hr⟩, hc⟩

theorem exec_uncommandedPoleOpen_closed {s : State} {h : Half} {n g : Nat} (hf : s.poleFb h n g = true) : exec (.uncommandedPoleOpen h n g) s = .next s := by
  show execUncommandedPoleOpen h n g s = _
  unfold execUncommandedPoleOpen
  exact if_neg (by simp [hf])

/-! ### The allocation latch (R52, R294, R297) -/

/-- Between `s` and `t` the half's matrix changed in nothing but the commands to its poles, its changes' counts, its outputs and its count of low ticks: what is
latched and solved stands. -/
structure SolutionKept (h : Half) (s t : State) : Prop where
  latched : (t.hf h).cnp.latched = (s.hf h).cnp.latched
  solved : (t.hf h).cnp.solved = (s.hf h).cnp.solved
  frame : Frame [.cnp h] s t

theorem SolutionKept.refl (h : Half) (s : State) : SolutionKept h s s := ⟨rfl, rfl, Frame.refl _ s⟩

theorem SolutionKept.trans {h : Half} {s t u : State} (a : SolutionKept h s t) (b : SolutionKept h t u) : SolutionKept h s u :=
  ⟨b.latched.trans a.latched, b.solved.trans a.solved, a.frame.trans b.frame⟩

theorem SolutionKept.foldl {β : Type} {h : Half} {f : State → β → State} (hf : ∀ s b, SolutionKept h s (f s b)) (l : List β) (s : State) :
    SolutionKept h s (l.foldl f s) := List.foldlRecOn l f (SolutionKept.refl h s) fun _ o b _ => o.trans (hf _ b)

theorem solutionKept_mCnp (s : State) (h : Half) (f : CnpS → CnpS) (hl : ∀ c, (f c).latched = c.latched) (hs : ∀ c, (f c).solved = c.solved) :
    SolutionKept h s (s.mCnp h f) := ⟨by rw [cnp_mCnp, hl], by rw [cnp_mCnp, hs], frame_mCnp_half s h f⟩

theorem solutionKept_cmdPole (s : State) (h : Half) (n g : Nat) (b : Bool) : SolutionKept h s (s.cmdPole h n g b) :=
  solutionKept_mCnp s h _ (fun _ => rfl) fun _ => rfl

theorem solutionKept_closePoles (h : Half) (s : State) (ch : Change) : SolutionKept h s (closePoles h s ch) := by
  unfold closePoles
  split
  · refine SolutionKept.foldl (fun u e => ?_) ch.closes s
    dsimp only
    split
    · exact solutionKept_cmdPole u h _ _ true
    · exact SolutionKept.refl h u
  · exact SolutionKept.refl h s

theorem solutionKept_tickDemand (h : Half) (s : State) (k : Nat) : SolutionKept h s (tickDemand h s k) := by
  unfold tickDemand
  split
  · exact solutionKept_mCnp s h _ (fun _ => rfl) fun _ => rfl
  · exact SolutionKept.refl h s

/-- The state with the solution latched and its status shown. -/
def State.latchedBy (s : State) (h : Half) (a : Alloc) (n : Nat) : State :=
  (s.mCnp h fun c => { c with latched := a, solved := none }).srg .cnp h 0x6008 (BitVec.ofNat 32 n)

/-- A ready solution is latched; what the tick then does of the changes leaves it. -/
theorem exec_allocationLatch_ready {s : State} {h : Half} {a : Alloc} {n : Nat} (e : (s.hf h).cnp.solved = some (a, n)) :
    ∃ t, exec (.allocationLatch h true) s = .next t ∧ SolutionKept h (s.latchedBy h a n) t := by
  show ∃ t, execAllocationLatch h true s = .next t ∧ _
  unfold execAllocationLatch
  rw [e]
  refine ⟨_, rfl, ?_⟩
  refine SolutionKept.trans ?_ (SolutionKept.foldl (solutionKept_tickDemand h) (List.range 48) _)
  refine SolutionKept.trans ?_ (solutionKept_mCnp _ h _ (fun _ => rfl) fun _ => rfl)
  refine SolutionKept.trans ?_ (SolutionKept.foldl (solutionKept_closePoles h) _ _)
  exact solutionKept_mCnp _ h _ (fun _ => rfl) fun _ => rfl

theorem ends_allocationLatch_ready {s : State} {h : Half} {a : Alloc} {n : Nat} (e : (s.hf h).cnp.solved = some (a, n)) :
    Ends (.allocationLatch h true) s fun t => (t.hf h).cnp.latched = a ∧ (t.hf h).cnp.solved = none ∧ t.rg .cnp h 0x6008 = BitVec.ofNat 32 n ∧
        Frame [.regs .cnp, .cnp h] s t := by
  obtain ⟨t, ex, kl, ks, kf⟩ := exec_allocationLatch_ready e
  have fs := frame_srg (s.mCnp h fun c => { c with latched := a, solved := none }) .cnp h 0x6008 (BitVec.ofNat 32 n)
  refine Ends.of_next ex ⟨?_, ?_, ?_, ?_⟩
  · rw [kl, State.latchedBy, fs.cnp (by simp), cnp_mCnp]
  · rw [ks, State.latchedBy, fs.cnp (by simp), cnp_mCnp]
  · rw [kf.rg (by simp), State.latchedBy, rg_srg_same]
  · exact (((frame_mCnp_half s h _).mono (by simp)).trans (fs.mono (by simp))).trans (kf.mono (by simp))

/-- A missed stage concerns the tick unit and the twin record of its own half. -/
theorem frame_stageMissed_half (s : State) (h : Half) : Frame (.regs .tck :: .tck h :: .twn h :: bothMbx) s (s.stageMissed h true) :=
  ((frame_srg s .tck h _ _).mono (by simp)).trans ((frame_stageMissed_r79 s h).mono (by simp +contextual [bothMbx]))

theorem exec_allocationLatch_missed (s : State) (h : Half) :
    exec (.allocationLatch h false) s = .next (((s.mCnp h fun c => { c with solved := none }).srf .cnp h 0x6008 21 21 1).stageMissed h true) := by
  show execAllocationLatch h false s = _
  unfold execAllocationLatch
  cases (s.hf h).cnp.solved <;> rfl

theorem ends_allocationLatch_missed (s : State) (h : Half) :
    Ends (.allocationLatch h false) s fun t => (t.hf h).cnp = { (s.hf h).cnp with solved := none } ∧ t.rb .cnp h 0x6008 21 = true ∧
        Frame (.regs .tck :: .regs .cnp :: .tck h :: .twn h :: .cnp h :: bothMbx) s t := by
  have fm := frame_mCnp_half s h fun c => { c with solved := none }
  have ff := frame_srf (s.mCnp h fun c => { c with solved := none }) .cnp h 0x6008 21 21 1
  have fs := frame_stageMissed_half ((s.mCnp h fun c => { c with solved := none }).srf .cnp h 0x6008 21 21 1) h
  refine Ends.of_next (exec_allocationLatch_missed s h) ⟨?_, ?_, ?_⟩
  · rw [fs.cnp (by simp [bothMbx]), ff.cnp (by simp), cnp_mCnp]
  · rw [State.rb, fs.rg (by simp [bothMbx])]
    exact rb_srf_bit (by decide) _ .cnp h 0x6008 true
  · exact ((fm.mono (by simp)).trans (ff.mono (by simp))).trans (fs.mono (by simp +contextual))

end

/-- Settles O17: each clause is one branch of the command it speaks of, with what that branch leaves of the changes, the pole commands and the plans. -/
theorem matrixChanges : Obligations.MatrixChanges := by
  unfold Obligations.MatrixChanges
  refine ⟨?drained, ?draining, ?drainTimeout, ?opened, ?openTimeout, ?closed, ?closeTimeout, ?passed, ?matchTimeout, ?noChange, ?cabinetLost, ?uncommanded, ?stillClosed,
    ?latch, ?missed⟩
  case drained => exact fun s h k ch e hs hd ho => ends_drainComplete_toRoute e hs hd ho
  case draining => exact fun s h k n g i ch e hs hd ho => ends_drainComplete_toOpen e hs hd ho
  case drainTimeout =>
    intro s h k ch e hs hd ht ho
    obtain ⟨ec, eo, -, ef⟩ := ended_endChg (s := s) (h := h) ho 2
    exact Ends.of_next (exec_drainTimeout_of e hs hd ht) ⟨ec, fun j m => ⟨(eo j m).1, (eo j m).2 (by decide)⟩, ef⟩
  case opened =>
    intro s h k ch e hs ho
    refine Ends.of_next (exec_polesOpened_of e hs ho) ⟨?_, ?_, frame_enterRoute_half s h k ch⟩
    · rw [cnp_enterRoute]
    · rw [cnp_enterRoute]
  case openTimeout => exact fun s h k n g i ch e hs ho hg hf ht => ends_poleOpenTimeout_one e hs ho hg hf ht
  case closed =>
    intro s h k ch e hs hc
    refine Ends.of_next (exec_polesClosed_of e hs hc) ⟨?_, frame_setChg_half s h k _⟩
    rw [cnp_setChg]
  case closeTimeout =>
    intro s h k n g i ch e hs hc hg hf ho ht
    exact Ends.of_next (exec_poleCloseTimeout_one e hs hc hf ht) (released_dropFailed_one s h hg hc ho (by decide))
  case passed =>
    intro s h k ch e hs hm hp ho
    obtain ⟨ec, eo, -, ef⟩ := ended_endChg (s := s) (h := h) ho 1
    exact Ends.of_next ((exec_matchPass_of e hs hm).trans (congrArg _ (release_of_passed hp))) ⟨ec, fun j m => (eo j m).1, ef⟩
  case matchTimeout =>
    intro s h k n g i ch e hs hm ht ho hc hg hj hb
    obtain ⟨rb, rc, ro, -, rf⟩ := released_dropFailed_one s h (k := k) (code := 5) hg hc ho (by decide)
    exact Ends.of_next (exec_matchTimeout_one e hs hm ht hc hj hb) ⟨rb, rc, ro, rf⟩
  case noChange => exact fun s h k e => exec_of_noChange e
  case cabinetLost => exact fun s h k c i ch e hl hs hj hi ho hc hv => ends_changeCabinetLost_draining e hl hs hj hi ho hc hv
  case uncommanded =>
    intro s h n g h31 hf hcmd hg hb hr hc
    have fe (l m : Nat) := frame_chgEv_mbx (s.mCnp h fun c => { c with brk := c.brk ++ [4 * fld (s.ctr h n) 20 16 + g] }) h l m n g
    refine Ends.of_next (exec_uncommandedPoleOpen_of h31 hf hcmd hg hb hr hc) ⟨?_, ?_⟩
    · rw [(fe _ _).cnp (by simp [bothMbx]), cnp_mCnp]
    · exact ((frame_mCnp_half s h _).mono (by simp)).trans ((fe _ _).mono (by simp +contextual))
  case stillClosed => exact fun s h n g hf => exec_uncommandedPoleOpen_closed hf
  case latch => exact fun s h a n e => ends_allocationLatch_ready e
  case missed => exact fun s h => ends_allocationLatch_missed s h

end Sys2Proof.Machine

/-!
O45, hold-up, start-up, RESET_N, the service button, the power states and the wake sources (R627 to R642). The half that resets is said once, and what every
other operation here leaves of the halves is one relation (`StandsBy`): the clauses about two halves that stop, sleep or start come from the two together.
-/

namespace Sys2Proof.Machine

section

/-! ### Fields of a word -/

/-- A word with one field written: the bits of the field come from the value, the others stay. -/
theorem bitAt_setFld {hi lo : Nat} (hl : lo ≤ hi) (w : Word) (v : Nat) {i : Nat} (hi32 : i < 32) :
    bitAt (setFld w hi lo v) i = if lo ≤ i ∧ i ≤ hi then v.testBit (i - lo) else bitAt w i := by
  have parts (n k f : Nat) : n - n / 2 ^ lo % 2 ^ k * 2 ^ lo + f * 2 ^ lo = 2 ^ lo * (2 ^ k * (n / 2 ^ lo / 2 ^ k) + f) + n % 2 ^ lo := by
    have e₁ := Nat.div_add_mod n (2 ^ lo)
    have e₂ := Nat.div_add_mod (n / 2 ^ lo) (2 ^ k)
    generalize n / 2 ^ lo / 2 ^ k = a at *
    generalize n / 2 ^ lo % 2 ^ k = b at *
    generalize n % 2 ^ lo = c at *
    rw [← e₂] at e₁
    have e₃ : n = 2 ^ lo * (2 ^ k * a) + c + b * 2 ^ lo := by rw [← e₁]; ring
    rw [e₃, Nat.add_sub_cancel]
    ring
  unfold bitAt setFld fld fldN
  rw [BitVec.toNat_ofNat, parts, Nat.testBit_mod_two_pow, Nat.testBit_two_pow_mul_add _ (Nat.mod_lt _ (Nat.two_pow_pos lo)),
    Nat.testBit_two_pow_mul_add _ (Nat.mod_lt _ (Nat.two_pow_pos _)), Nat.testBit_mod_two_pow, Nat.testBit_mod_two_pow, Nat.testBit_div_two_pow, Nat.testBit_div_two_pow]
  have inField : i - lo < hi + 1 - lo ↔ i ≤ hi := by omega
  by_cases a : i < lo
  · simp [hi32, a, Nat.not_le.2 a]
  · by_cases b : i ≤ hi
    · simp [hi32, a, inField, b, Nat.not_lt.1 a]
    · have top : i - lo - (hi + 1 - lo) + (hi + 1 - lo) + lo = i := by omega
      simp [hi32, a, inField, b, top]

/-- The bits of a field are those of the word. -/
theorem testBit_fld (w : Word) (hi lo j : Nat) : (fld w hi lo).testBit j = (decide (j < hi + 1 - lo) && bitAt w (j + lo)) := by
  rw [fld, fldN, Nat.testBit_mod_two_pow, Nat.testBit_div_two_pow, bitAt]

theorem fld_setFld_same {hi lo : Nat} (hl : lo ≤ hi) (h32 : hi < 32) (w : Word) (v : Nat) : fld (setFld w hi lo v) hi lo = v % 2 ^ (hi + 1 - lo) := by
  refine Nat.eq_of_testBit_eq fun j => ?_
  rw [testBit_fld, Nat.testBit_mod_two_pow]
  by_cases b : j < hi + 1 - lo
  · rw [bitAt_setFld hl w v (by omega), if_pos (by omega), Nat.add_sub_cancel]
  · simp [b]

theorem fld_setFld_apart {hi lo hi' lo' : Nat} (hl : lo ≤ hi) (h32 : hi' < 32) (ap : hi' < lo ∨ hi < lo') (w : Word) (v : Nat) :
    fld (setFld w hi lo v) hi' lo' = fld w hi' lo' := by
  refine Nat.eq_of_testBit_eq fun j => ?_
  rw [testBit_fld, testBit_fld]
  by_cases b : j < hi' + 1 - lo'
  · rw [bitAt_setFld hl w v (by omega), if_neg (by omega)]
  · simp [b]

theorem rf_srf_same {hi lo v : Nat} (hl : lo ≤ hi) (h32 : hi < 32) (hv : v < 2 ^ (hi + 1 - lo)) (s : State) (b : Blk) (h : Half) (off : Nat) :
    (s.srf b h off hi lo v).rf b h off hi lo = v := by
  rw [State.rf, State.srf, rg_srg_same, fld_setFld_same hl h32, Nat.mod_eq_of_lt hv]

theorem rf_srf_apart {hi lo hi' lo' : Nat} (hl : lo ≤ hi) (h32 : hi' < 32) (ap : hi' < lo ∨ hi < lo') (s : State) (b : Blk) (h : Half) (off v : Nat) :
    (s.srf b h off hi lo v).rf b h off hi' lo' = s.rf b h off hi' lo' := by
  rw [State.rf, State.srf, rg_srg_same, fld_setFld_apart hl h32 ap, State.rf]

theorem rb_srf_apart {hi lo i : Nat} (hl : lo ≤ hi) (h32 : i < 32) (ap : i < lo ∨ hi < i) (s : State) (b : Blk) (h : Half) (off v : Nat) :
    (s.srf b h off hi lo v).rb b h off i = s.rb b h off i := by
  rw [State.rb, State.srf, rg_srg_same, bitAt_setFld hl _ _ h32, if_neg (by omega), State.rb]

/-- A field of one word stays as another word of the block is written. -/
theorem rf_srf_word {b : Blk} {h : Half} {o p : Nat} (n : o ≠ p) (s : State) (hi lo v hi' lo' : Nat) :
    (s.srf b h o hi lo v).rf b h p hi' lo' = s.rf b h p hi' lo' := by
  rw [State.rf, State.srf, rg_srg_other _ _ _ _ n, State.rf]

theorem rf_of_rg {s t : State} {b : Blk} {h : Half} {off : Nat} (e : t.rg b h off = s.rg b h off) (hi lo : Nat) : t.rf b h off hi lo = s.rf b h off hi lo :=
  congrArg (fld · hi lo) e

/-! ### What a frame says of one part -/

theorem Frame.ref {ps : List Part} {s t : State} (f : Frame ps s t) (m : Part.ref ∉ ps) : t.ref = s.ref := f .ref m
theorem Frame.veh {ps : List Part} {s t : State} (f : Frame ps s t) (m : Part.veh ∉ ps) : t.veh = s.veh := f .veh m
theorem Frame.cans {ps : List Part} {s t : State} (f : Frame ps s t) (m : Part.cans ∉ ps) : t.cans = s.cans := f .cans m
theorem Frame.mesh {ps : List Part} {s t : State} (f : Frame ps s t) (m : Part.mesh ∉ ps) : t.mesh = s.mesh := f .mesh m
theorem Frame.lkt {ps : List Part} {s t : State} (f : Frame ps s t) (m : Part.lkt ∉ ps) : t.lkt = s.lkt := f .lkt m
theorem Frame.lsw {ps : List Part} {s t : State} (f : Frame ps s t) (m : Part.lsw ∉ ps) : t.lsw = s.lsw := f .lsw m
theorem Frame.saf {ps : List Part} {s t : State} (f : Frame ps s t) (m : Part.saf ∉ ps) : t.saf = s.saf := f .saf m
theorem Frame.met {ps : List Part} {s t : State} (f : Frame ps s t) (m : Part.met ∉ ps) : t.met = s.met := f .met m
theorem Frame.bil {ps : List Part} {s t : State} (f : Frame ps s t) (m : Part.bil ∉ ps) : t.bil = s.bil := f .bil m
theorem Frame.rtc {ps : List Part} {s t : State} (f : Frame ps s t) (m : Part.rtc ∉ ps) : t.rtc = s.rtc := f .rtc m
theorem Frame.pwr {ps : List Part} {s t : State} (f : Frame ps s t) (m : Part.pwr ∉ ps) : t.pwr = s.pwr := f .pwr m
theorem Frame.stg {ps : List Part} {s t : State} {h : Half} (f : Frame ps s t) (m : Part.stg h ∉ ps) : (t.hf h).stg = (s.hf h).stg := f (.stg h) m
theorem Frame.ports {ps : List Part} {s t : State} {h : Half} (f : Frame ps s t) (m : Part.ports h ∉ ps) : (t.hf h).ports = (s.hf h).ports := f (.ports h) m
theorem Frame.pts {ps : List Part} {s t : State} {h : Half} (f : Frame ps s t) (m : Part.pts h ∉ ps) : (t.hf h).pts = (s.hf h).pts := f (.pts h) m
theorem Frame.saved {ps : List Part} {s t : State} {h : Half} (f : Frame ps s t) (m : Part.saved h ∉ ps) : (t.hf h).saved = (s.hf h).saved := f (.saved h) m

/-! ### Registers that go back to their reset values (R157) -/

theorem look_filter_kept {α : Type} {d : α} {keep : Nat × α → Bool} {k : Nat} (h : ∀ v, keep (k, v) = true) : (t : Tab α) → look d (t.filter keep) k = look d t k
  | [] => rfl
  | (j, v) :: t => by
    by_cases e : j = k
    · subst e
      rw [List.filter_cons_of_pos (h v), look_cons, look_cons, if_pos rfl, if_pos rfl]
    · rw [look_cons, if_neg e, ← look_filter_kept h t]
      by_cases p : keep (j, v) = true
      · rw [List.filter_cons_of_pos p, look_cons, if_neg e]
      · rw [List.filter_cons_of_neg p]

/-- Where words are dropped by their keys, a dropped word reads its reset value and any other what it read. -/
theorem rg_dropped {s t : State} {gone : Nat → Bool} (e : t.regs = s.regs.filter fun e => !gone e.1) (b : Blk) (h : Half) (off : Nat) :
    t.rg b h off = if gone (regKey b h off) then resetWord b h off else s.rg b h off := by
  unfold State.rg
  rw [e]
  split
  case isTrue g => exact look_filter_dropped fun q _ hq => by rw [hq, g]; rfl
  case isFalse g => exact look_filter_kept (fun v => by simp [g]) s.regs

theorem keyOfHalf_regKey_own {b : Blk} (m : b ∈ halfBlks) (h : Half) (off : Nat) : keyOfHalf h (regKey b h off) = true :=
  List.any_eq_true.2 ⟨b, m, by simp⟩

theorem keyOfHalf_regKey_shared {b : Blk} (m : b ∉ halfBlks) (h k : Half) (off : Nat) : keyOfHalf h (regKey b k off) = false :=
  List.any_eq_false.2 fun c hc => by
    simpa using fun e => m ((blkKey_blk e : c = b) ▸ hc)

theorem keyOfHalf_regKey_other (b : Blk) (m : b ∈ halfBlks) (h : Half) (off : Nat) : keyOfHalf h (regKey b (other h) off) = false :=
  List.any_eq_false.2 fun c hc => by
    have per : ∀ c ∈ halfBlks, perHalf c = true := by decide
    simp only [keyBlk_regKey, beq_iff_eq]
    intro e
    obtain rfl := blkKey_blk e
    exact blkKey_other_ne (per _ hc) h e.symm

theorem rg_dropBlocks_own {b : Blk} (m : b ∈ halfBlks) (s : State) (h : Half) (off : Nat) : (s.dropBlocks h).rg b h off = resetWord b h off := by
  rw [rg_dropped (gone := keyOfHalf h) rfl, keyOfHalf_regKey_own m, if_pos rfl]

theorem rg_dropBlocks_shared {b : Blk} (m : b ∉ halfBlks) (s : State) (h k : Half) (off : Nat) : (s.dropBlocks h).rg b k off = s.rg b k off := by
  rw [rg_dropped (gone := keyOfHalf h) rfl, keyOfHalf_regKey_shared m]
  rfl

theorem rg_dropBlocks_other {b : Blk} (m : b ∈ halfBlks) (s : State) (h : Half) (off : Nat) : (s.dropBlocks h).rg b (other h) off = s.rg b (other h) off := by
  rw [rg_dropped (gone := keyOfHalf h) rfl, keyOfHalf_regKey_other b m]
  rfl

theorem rg_of_gone {s t : State} {l : List Blk} (e : t.regs = s.regs.filter fun e => !l.any fun b => blkKey b .A == keyBlk e.1) {b : Blk} (m : b ∈ l) (off : Nat) :
    t.rg b .A off = resetWord b .A off := by
  rw [rg_dropped (gone := fun k => l.any fun b => blkKey b .A == keyBlk k) e, if_pos (List.any_eq_true.2 ⟨b, m, by simp⟩)]

theorem rg_of_notGone {s t : State} {l : List Blk} (e : t.regs = s.regs.filter fun e => !l.any fun b => blkKey b .A == keyBlk e.1) {b : Blk} (m : b ∉ l) (h : Half)
    (off : Nat) : t.rg b h off = s.rg b h off := by
  have g : (l.any fun c => blkKey c .A == keyBlk (regKey b h off)) = false := List.any_eq_false.2 fun c hc => by
    simpa using fun e => m ((blkKey_blk e : c = b) ▸ hc)
  rw [rg_dropped (gone := fun k => l.any fun b => blkKey b .A == keyBlk k) e, g]
  rfl

/-! ### What an operation leaves of a half (R157) -/

/-- Between `s` and `t` half `g` only ended its role, in its handover and in its mailbox: its claim, its health and its memory stand. -/
structure StandsBy (g : Half) (s t : State) : Prop where
  twn : (t.hf g).twn =
    { (s.hf g).twn with acting := (t.hf g).twn.acting, cleanSince := (t.hf g).twn.cleanSince, hoReq := (t.hf g).twn.hoReq }
  stg : (t.hf g).stg = (s.hf g).stg
  ports : (t.hf g).ports = (s.hf g).ports
  pts : (t.hf g).pts = (s.hf g).pts
  saved : (t.hf g).saved = (s.hf g).saved
  cln : ∀ off, t.rg .cln g off = s.rg .cln g off
  events : ∀ r ∈ (s.hf g).mbx.events, r ∈ (t.hf g).mbx.events

theorem StandsBy.refl (g : Half) (s : State) : StandsBy g s s := ⟨rfl, rfl, rfl, rfl, rfl, fun _ => rfl, fun _ m => m⟩

theorem StandsBy.trans {g : Half} {s t u : State} (a : StandsBy g s t) (b : StandsBy g t u) : StandsBy g s u :=
  ⟨by rw [b.twn, a.twn], b.stg.trans a.stg, b.ports.trans a.ports, b.pts.trans a.pts, b.saved.trans a.saved, fun off => (b.cln off).trans (a.cln off),
    fun r m => b.events r (a.events r m)⟩

/-- The parts of half `g` that its standing by names. -/
def ownParts (g : Half) : List Part := [.twn g, .stg g, .ports g, .pts g, .saved g, .mbx g, .regs .cln]

theorem StandsBy.of_frame {ps : List Part} {g : Half} {s t : State} (f : Frame ps s t) (m : ∀ p ∈ ownParts g, p ∉ ps) : StandsBy g s t where
  twn := by rw [f.twn (m _ (by simp [ownParts]))]
  stg := f.stg (m _ (by simp [ownParts]))
  ports := f.ports (m _ (by simp [ownParts]))
  pts := f.pts (m _ (by simp [ownParts]))
  saved := f.saved (m _ (by simp [ownParts]))
  cln off := f.rg (m _ (by simp [ownParts])) g off
  events := fun _ q => (mbx_of_frame f g (m _ (by simp [ownParts]))).symm ▸ q

/-- An operation that also adds to the mailbox, and loses no event of it. -/
theorem StandsBy.of_events {ps : List Part} {g : Half} {s t : State} (f : Frame ps s t) (m : ∀ p ∈ ownParts g, p ≠ .mbx g → p ∉ ps)
    (e : ∀ r ∈ (s.hf g).mbx.events, r ∈ (t.hf g).mbx.events) : StandsBy g s t where
  twn := by rw [f.twn (m _ (by simp [ownParts]) (by simp))]
  stg := f.stg (m _ (by simp [ownParts]) (by simp))
  ports := f.ports (m _ (by simp [ownParts]) (by simp))
  pts := f.pts (m _ (by simp [ownParts]) (by simp))
  saved := f.saved (m _ (by simp [ownParts]) (by simp))
  cln off := f.rg (m _ (by simp [ownParts]) (by simp)) g off
  events := e

/-- An update of a half's twin record that leaves all but its role and its handover. -/
theorem standsBy_mTwn (s : State) (h g : Half) (f : TwnS → TwnS)
    (hf : ∀ x, f x = { x with acting := (f x).acting, cleanSince := (f x).cleanSince, hoReq := (f x).hoReq }) : StandsBy g s (s.mTwn h f) := by
  by_cases e : g = h
  · subst e
    have et : ((s.mTwn g f).hf g).twn = f (s.hf g).twn := twn_mTwn s g f
    have ef := frame_mTwn s g f
    refine ⟨?_, ef.stg (by simp), ef.ports (by simp), ef.pts (by simp), ef.saved (by simp), fun off => ef.rg (by simp) g off, fun r m =>
      (mbx_of_frame ef g (by simp)).symm ▸ m⟩
    rw [et]
    exact hf _
  · exact StandsBy.of_frame (frame_mTwn s h f) (by simp [ownParts, e])

theorem standsBy_foldl {β : Type} {g : Half} {f : State → β → State} (hf : ∀ s b, StandsBy g s (f s b)) (l : List β) (s : State) : StandsBy g s (l.foldl f s) :=
  List.foldlRecOn l f (StandsBy.refl g s) fun _ a b _ => a.trans (hf _ b)

theorem standsBy_mMbx (s : State) (h g : Half) (f : MbxS → MbxS) (e : ∀ m q, q ∈ m.events → q ∈ (f m).events) : StandsBy g s (s.mMbx h f) := by
  refine StandsBy.of_events (frame_mMbx s h f) (by cases h <;> simp +contextual [ownParts]) fun r m => ?_
  simp only [State.mMbx, hf_mh]
  split
  · exact e _ _ m
  · exact m

theorem standsBy_ev (s : State) (h g : Half) (a c : Nat) (d : List Nat) : StandsBy g s (s.ev h a c d) :=
  StandsBy.of_events (frame_ev s h a c d) (by simp +contextual [ownParts, bothMbx]) fun r m => events_ev_mono s h g a c d r m

theorem standsBy_complete (s : State) (o : Org) (x g : Half) (a st : Nat) (f : Bool) (p : List Nat) : StandsBy g s (s.complete o x a st f p) :=
  StandsBy.of_events (frame_complete s o x a st f p) (by simp +contextual [ownParts]) fun _ m => (events_completeAt ..).symm ▸ m

theorem standsBy_loseCommands (s : State) (h g : Half) : StandsBy g s (s.loseCommands h) := by
  unfold State.loseCommands
  extract_lets goes lost s₁ keep
  have first : StandsBy g s s₁ := standsBy_foldl (fun u c => standsBy_complete u c.org h g c.opc stClaimLost true []) lost s
  have ef : Frame [.blocks, .cln h] s₁ (({ s₁ with blocks := s₁.blocks.map fun e => (e.1, { e.2 with waiters := e.2.waiters.filter keep }) } : State).mh h fun y =>
      { y with cln := { y.cln with stores := [] } }) := by
    simp (maxDischargeDepth := 8) [Frame.refl]
  exact first.trans (StandsBy.of_frame ef (by simp [ownParts]))

theorem standsBy_stepDown (s : State) (h g : Half) (cause : Nat) : StandsBy g s (s.stepDown h cause) := by
  unfold State.stepDown
  split
  · refine (((standsBy_mTwn s h g (fun t => { t with acting := false }) fun _ => rfl).trans ?_).trans (standsBy_loseCommands _ h g)).trans (standsBy_ev _ h g 1 0x0302 _)
    exact StandsBy.of_frame (frame_bump _ .twn h 0x28 1) (by simp [ownParts])
  · exact StandsBy.refl g s

theorem standsBy_abandonHandover (s : State) (g : Half) : StandsBy g s s.abandonHandover := by
  unfold State.abandonHandover
  split
  · exact StandsBy.refl g s
  · next x _ =>
    extract_lets y edge r s₁ s₂ s₃
    have h₁ : StandsBy g s s₁ := StandsBy.of_frame (ps := [.ho, .ref]) (by simp [s₁, Frame.refl]) (by simp [ownParts])
    have h₂ : StandsBy g s s₂ := h₁.trans (standsBy_mTwn s₁ x.dst g (fun t => { t with cleanSince := (s₁.hf x.dst).tck.tick, hoReq := false }) fun _ => rfl)
    have h₃ : StandsBy g s s₃ := h₂.trans (standsBy_ev s₂ y g 0 0x0304 _)
    split
    · exact h₃.trans (standsBy_complete s₃ _ y g 0x0301 0x0304 true _)
    · exact h₃

/-- The token as the referee frees it. -/
def State.tokenFreed (s : State) (x : Half) : State :=
  { s.abandonHandover with ref := { s.abandonHandover.ref with token := none, freeSig := some (other x), rel := none, relNoSucc := false, ports := 0 } }

theorem frame_tokenFreed_ref (s : State) (x : Half) : Frame [.ref] s.abandonHandover (s.tokenFreed x) := by simp [State.tokenFreed, Frame.refl]

theorem releaseToken_eq (s : State) (x : Half) (cause : Nat) : s.releaseToken x cause = ((s.tokenFreed x).claimEv (other x) 2 cause).stepDown x 0x15 := rfl

theorem standsBy_releaseToken (s : State) (x g : Half) (cause : Nat) : StandsBy g s (s.releaseToken x cause) :=
  (((standsBy_abandonHandover s g).trans (StandsBy.of_frame (frame_tokenFreed_ref s x) (by simp [ownParts]))).trans
    (standsBy_ev _ (other x) g 1 0x0302 _)).trans (standsBy_stepDown _ x g 0x15)

/-- Once released, the token is free. -/
theorem token_releaseToken (s : State) (x : Half) (cause : Nat) : (s.releaseToken x cause).ref.token = none := by
  have f₁ := frame_claimEv_mbx (s.tokenFreed x) (other x) 2 cause
  have f₂ := frame_stepDown ((s.tokenFreed x).claimEv (other x) 2 cause) x 0x15
  rw [releaseToken_eq, (f₂).ref (by simp), (f₁).ref (by simp [bothMbx])]
  rfl

theorem token_abandonHandover (s : State) : s.abandonHandover.ref.token = s.ref.token := by
  unfold State.abandonHandover
  split
  · rfl
  · next x _ =>
    extract_lets y edge r s₁ s₂ s₃
    have h₂ : s₂.ref = s₁.ref := frame_mTwn s₁ x.dst _ .ref (by simp)
    have h₃ : s₃.ref = s₂.ref := frame_ev s₂ y 0 0x0304 _ .ref (by simp [bothMbx])
    split
    · rw [(frame_complete s₃ _ y 0x0301 0x0304 true _).ref (by simp), h₃, h₂]
    · rw [h₃, h₂]

theorem standsBy_endSession (s : State) (h g : Half) (n : Nat) : StandsBy g s (s.endSession h n) := by
  unfold State.endSession
  split
  · exact StandsBy.refl g s
  · next x _ =>
    extract_lets s₁ free s₂
    have h₁ : StandsBy g s s₁ := StandsBy.of_frame (frame_invalidate s x.sk none none) (by simp [ownParts])
    have h₂ : StandsBy g s₁ s₂ := standsBy_mMbx s₁ h g _ fun _ _ m => m
    have h₃ := standsBy_mMbx s₂ h g (fun m => { m with subs := m.subs.filter fun b => b.cmdRing != n }) fun _ _ m => m
    exact ((h₁.trans h₂).trans h₃).trans (standsBy_ev _ h g 0 0x0002 _)

/-! ### A half that resets (R132, R157, R511, R516) -/

/-- A half's role and sessions end. -/
def State.roleEnded (s : State) (h : Half) : State :=
  (List.range 32).foldl (fun s n => s.endSession h n)
    (if s.ref.token = some h then s.releaseToken h 0x16 else (if s.ho.isSome then s.abandonHandover else s).stepDown h 0x15)

/-- The half as its registers and memory are about to be dropped. -/
def State.lapsed (s : State) (h : Half) : State := ((s.bootAgain h).vehReset h).roleEnded h

theorem hf_dropped (s : State) (h g : Half) : ((s.dropBlocks h).dropReqs h).hf g = s.hf g := by cases g <;> rfl

theorem resetHalf_eq (s : State) (h : Half) (cause : Nat) :
    s.resetHalf h cause = ((((s.lapsed h).dropBlocks h).dropReqs h).setHf h (freshHalf h ((s.lapsed h).hf h))).setCause h cause := by
  rw [← hf_dropped (s.lapsed h) h h]
  rfl

/-- What the end of a role and of sessions may change besides the halves' mailboxes. -/
def roleParts : List Part := [.regs .twn, .free, .blocks, .twn .A, .twn .B, .cln .A, .cln .B, .mbx .A, .mbx .B, .ref, .ho, .lkt]

theorem frame_endSessions (h : Half) (l : List Nat) (s : State) : Frame [.free, .mbx .A, .mbx .B, .lkt] s (l.foldl (fun s n => s.endSession h n) s) :=
  Frame.foldl (fun u n => frame_endSession u h n) l s

theorem frame_roleEnded (s : State) (h : Half) : Frame roleParts s (s.roleEnded h) := by
  refine Frame.trans ?_ ((frame_endSessions h (List.range 32) _).mono (by simp [roleParts]))
  refine Frame.ite (fun _ => (frame_releaseToken s h 0x16).mono (by simp [roleParts])) fun _ => ?_
  refine Frame.trans (t := if s.ho.isSome then s.abandonHandover else s) ?_ ((frame_stepDown _ h 0x15).mono (by simp [roleParts]))
  exact Frame.ite (fun _ => (frame_abandonHandover s).mono (by simp [roleParts])) fun _ => Frame.refl _ s

theorem standsBy_roleEnded (s : State) (h g : Half) : StandsBy g s (s.roleEnded h) := by
  refine StandsBy.trans ?_ (standsBy_foldl (fun u n => standsBy_endSession u h g n) (List.range 32) _)
  split
  · exact standsBy_releaseToken s h g 0x16
  · refine StandsBy.trans (t := if s.ho.isSome then s.abandonHandover else s) ?_ (standsBy_stepDown _ h g 0x15)
    split
    · exact standsBy_abandonHandover s g
    · exact StandsBy.refl g s

/-- The token is free afterwards where the half held it, and else where it was. -/
theorem token_roleEnded (s : State) (h : Half) : (s.roleEnded h).ref.token = if s.ref.token = some h then none else s.ref.token := by
  have sessions (u : State) : ((List.range 32).foldl (fun s n => s.endSession h n) u).ref = u.ref := frame_endSessions h (List.range 32) u .ref (by simp)
  rw [State.roleEnded, sessions]
  split
  · exact token_releaseToken s h 0x16
  · rw [(frame_stepDown _ h 0x15).ref (by simp)]
    split
    · exact token_abandonHandover s
    · rfl

theorem frame_lapsed (s : State) (h : Half) : Frame (.upd :: .veh :: .vehG :: roleParts) s (s.lapsed h) :=
  (((frame_bootAgain s h).mono (by simp)).trans ((frame_vehReset _ h).mono (by simp))).trans ((frame_roleEnded _ h).mono (by simp +contextual))

theorem standsBy_lapsed (s : State) (h g : Half) : StandsBy g s (s.lapsed h) :=
  ((StandsBy.of_frame (frame_bootAgain s h) (by simp [ownParts])).trans (StandsBy.of_frame (frame_vehReset _ h) (by simp [ownParts]))).trans (standsBy_roleEnded _ h g)

theorem token_lapsed (s : State) (h : Half) : (s.lapsed h).ref.token = if s.ref.token = some h then none else s.ref.token := by
  have e : ((s.bootAgain h).vehReset h).ref = s.ref :=
    ((frame_vehReset (s.bootAgain h) h).ref (by simp)).trans (frame_bootAgain s h .ref (by simp))
  rw [State.lapsed, token_roleEnded, e]

theorem token_resetHalf (s : State) (h : Half) (cause : Nat) : (s.resetHalf h cause).ref.token = if s.ref.token = some h then none else s.ref.token := by
  rw [resetHalf_eq, (frame_setCause _ h cause).ref (by simp), setHf_ref]
  exact token_lapsed s h

theorem hf_setCause (s : State) (h g : Half) (cause : Nat) : (s.setCause h cause).hf g = s.hf g := by
  cases h <;> exact srf_hf ..

/-- The half itself starts from what its flash and the island keep. -/
theorem hf_resetHalf_same (s : State) (h : Half) (cause : Nat) : (s.resetHalf h cause).hf h = freshHalf h ((s.lapsed h).hf h) := by
  rw [resetHalf_eq, hf_setCause, hf_setHf_same]

theorem rg_resetHalf_own {b : Blk} (m : b ∈ halfBlks) (s : State) (h : Half) (cause off : Nat) : (s.resetHalf h cause).rg b h off = resetWord b h off := by
  have n : b ≠ .pwr := by rintro rfl; exact absurd m (by decide)
  rw [resetHalf_eq, (frame_setCause _ h cause).rg (by simpa using n), rg_setHf]
  exact rg_dropBlocks_own m (s.lapsed h) h off

/-- A word of a shared block, the start's cause excepted, stands as a half resets. -/
theorem rg_resetHalf_shared {b : Blk} (m : b ∉ halfBlks) (n : b ≠ .pwr) (s : State) (h k : Half) (cause off : Nat) :
    (s.resetHalf h cause).rg b k off = s.rg b k off := by
  have nt : b ≠ .twn := by rintro rfl; exact absurd m (by decide)
  rw [resetHalf_eq, (frame_setCause _ h cause).rg (by simpa using n), rg_setHf]
  exact (rg_dropBlocks_shared m (s.lapsed h) h k off).trans ((frame_lapsed s h).rg (by simpa [roleParts] using nt) k off)

/-- The other half stands by as a half resets. -/
theorem standsBy_resetHalf_other (s : State) (h : Half) (cause : Nat) : StandsBy (other h) s (s.resetHalf h cause) := by
  refine (standsBy_lapsed s h (other h)).trans ?_
  rw [resetHalf_eq]
  have eh : ((((((s.lapsed h).dropBlocks h).dropReqs h).setHf h (freshHalf h ((s.lapsed h).hf h))).setCause h cause).hf (other h)) = (s.lapsed h).hf (other h) := by
    rw [hf_setCause, hf_setHf_other _ _ (other_ne h), hf_dropped]
  refine ⟨by rw [eh], by rw [eh], by rw [eh], by rw [eh], by rw [eh], fun off => ?_, fun r m => by rwa [eh]⟩
  rw [(frame_setCause _ h cause).rg (by simp), rg_setHf]
  exact rg_dropBlocks_other (by decide) (s.lapsed h) h off

/-- Half `h` of `t` has reset since `s`: out of service, UNHEALTHY with its cause, at its base claim, with the points of its flash. -/
def HalfReset (s t : State) (h : Half) : Prop :=
  (t.hf h).twn.service = false ∧ (t.hf h).twn.unhealthy = true ∧ (t.hf h).twn.cause = (if (s.hf h).twn.held then 0x8B else 0x8A) ∧ (t.hf h).stg = [] ∧
    (t.hf h).ports = [] ∧ (t.hf h).twn.claim = baseClaim h ∧ (t.hf h).pts = flashPoints (s.hf h) ∧ ∀ off, t.rg .cln h off = resetWord .cln h off

theorem flashPoints_congr {x y : HalfSt} (p : x.pts = y.pts) (v : x.saved = y.saved) : flashPoints x = flashPoints y := by
  unfold flashPoints
  rw [p, v]

theorem StandsBy.held {g : Half} {s t : State} (b : StandsBy g s t) : (t.hf g).twn.held = (s.hf g).twn.held := by rw [b.twn]
theorem StandsBy.off {g : Half} {s t : State} (b : StandsBy g s t) : (t.hf g).twn.off = (s.hf g).twn.off := by rw [b.twn]
theorem StandsBy.recov {g : Half} {s t : State} (b : StandsBy g s t) : (t.hf g).twn.recov = (s.hf g).twn.recov := by rw [b.twn]

theorem halfReset_resetHalf (s : State) (h : Half) (cause : Nat) : HalfReset s (s.resetHalf h cause) h := by
  have b := standsBy_lapsed s h h
  unfold HalfReset
  rw [hf_resetHalf_same, ← b.held, ← flashPoints_congr b.pts b.saved]
  exact ⟨rfl, rfl, rfl, rfl, rfl, rfl, rfl, fun off => rg_resetHalf_own (by decide) s h cause off⟩

/-- It stays reset while it stands by. -/
theorem HalfReset.keep {s t u : State} {h : Half} (r : HalfReset s t h) (b : StandsBy h t u) : HalfReset s u h := by
  obtain ⟨service, unhealthy, cause, stg, ports, claim, pts, cln⟩ := r
  refine ⟨?_, ?_, ?_, b.stg.trans stg, b.ports.trans ports, ?_, b.pts.trans pts, fun off => (b.cln off).trans (cln off)⟩
  · rw [b.twn, ← service]
  · rw [b.twn, ← unhealthy]
  · rw [b.twn, ← cause]
  · rw [b.twn, ← claim]

/-- It has reset since any state from which it stood by. -/
theorem HalfReset.since {s t u : State} {h : Half} (b : StandsBy h s t) (r : HalfReset t u h) : HalfReset s u h := by
  unfold HalfReset
  rw [← b.held, ← flashPoints_congr b.pts b.saved]
  exact r

/-! ### Both halves and the shared I/O domain (R157, R634) -/

/-- The words of one channel go back to their reset values. -/
def State.lswClear (s : State) (c : Nat) : State :=
  (List.range 6).foldl (fun s k => s.srg .lsw .A (0x20 * c + 4 * k) (resetWord .lsw .A (0x20 * c + 4 * k))) s

/-- One channel of the load switches as the shared I/O domain resets. -/
def State.lswResetChan (s : State) (c : Nat) : State := if s.lswF c 0 30 30 = 1 then s else (s.lswClear c).mLswC c fun _ => {}

theorem lswResetN_eq (s : State) : s.lswResetN = (List.range 16).foldl State.lswResetChan s := rfl

theorem lswR_mLswC (s : State) (c d off : Nat) (f : LswC → LswC) : (s.mLswC c f).lswR d off = s.lswR d off := rfl

theorem lswR_lswClear_other {c d k : Nat} (n : d ≠ c) (hk : k < 6) (s : State) : (s.lswClear d).lswR c (4 * k) = s.lswR c (4 * k) :=
  List.foldlRecOn (motive := fun u : State => u.lswR c (4 * k) = s.lswR c (4 * k)) (List.range 6) _ rfl fun u e j m => by
    have hj : j < 6 := List.mem_range.1 m
    exact (rg_srg_other u .lsw .A _ (by omega)).trans e

theorem lswR_lswClear_same {c k : Nat} (hk : k < 6) (s : State) : (s.lswClear c).lswR c (4 * k) = resetWord .lsw .A (0x20 * c + 4 * k) := by
  refine foldl_reaches (P := fun u : State => u.lswR c (4 * k) = resetWord .lsw .A (0x20 * c + 4 * k)) (a := k) (fun u => ?_) (fun u j e => ?_) (List.range 6)
    (List.mem_range.2 hk) s
  · exact rg_srg_same u .lsw .A _ _
  · by_cases ej : j = k
    · subst ej
      exact rg_srg_same u .lsw .A _ _
    · exact (rg_srg_other u .lsw .A _ (by omega)).trans e

/-- A word of a channel after the shared I/O domain reset (R574). -/
def State.lswAfter (s : State) (c k : Nat) : Word := if s.lswF c 0 30 30 = 1 then s.lswR c (4 * k) else resetWord .lsw .A (0x20 * c + 4 * k)

theorem lswR_lswResetChan_other {c d k : Nat} (n : d ≠ c) (hk : k < 6) (s : State) : (s.lswResetChan d).lswR c (4 * k) = s.lswR c (4 * k) := by
  unfold State.lswResetChan
  split
  · rfl
  · rw [lswR_mLswC, lswR_lswClear_other n hk s]

theorem lswR_lswResetChan_same {c k : Nat} (hk : k < 6) (s : State) : (s.lswResetChan c).lswR c (4 * k) = s.lswAfter c k := by
  unfold State.lswResetChan State.lswAfter
  split
  · rfl
  · rw [lswR_mLswC, lswR_lswClear_same hk s]

theorem lswAfter_congr {s u : State} {c : Nat} (e : ∀ k < 6, u.lswR c (4 * k) = s.lswR c (4 * k)) {k : Nat} (hk : k < 6) : u.lswAfter c k = s.lswAfter c k := by
  have ef : u.lswF c 0 30 30 = s.lswF c 0 30 30 := congrArg (fld · 30 30) (e 0 (by decide))
  rw [State.lswAfter, State.lswAfter, ef, e k hk]

theorem lswR_lswResetN {c k : Nat} (hc : c < 16) (hk : k < 6) (s : State) : s.lswResetN.lswR c (4 * k) = s.lswAfter c k := by
  rw [lswResetN_eq]
  refine foldl_at (P := fun u : State => ∀ k < 6, u.lswR c (4 * k) = s.lswR c (4 * k)) (Q := fun u : State => ∀ k < 6, u.lswR c (4 * k) = s.lswAfter c k) (a := c)
    (fun u d n e k hk => ?_) (fun u e k hk => ?_) (fun u d n e k hk => ?_) (List.range 16) List.nodup_range (List.mem_range.2 hc) s (fun _ _ => rfl) k hk
  · exact (lswR_lswResetChan_other n hk u).trans (e k hk)
  · exact (lswR_lswResetChan_same hk u).trans (lswAfter_congr e hk)
  · exact (lswR_lswResetChan_other n hk u).trans (e k hk)

theorem regs_resetShared (s : State) :
    s.resetShared.regs = s.lswResetN.regs.filter fun e => !([Blk.can, .gpio, .rms]).any fun b => blkKey b .A == keyBlk e.1 := rfl

/-- A word of a block that the shared I/O domain does not reset stands. -/
theorem rg_resetShared_kept {b : Blk} (m : b ∉ [Blk.can, .gpio, .rms]) (s : State) (h : Half) (off : Nat) : s.resetShared.rg b h off = s.lswResetN.rg b h off :=
  rg_of_notGone (regs_resetShared s) m h off

theorem standsBy_resetShared (s : State) (g : Half) : StandsBy g s s.resetShared := by
  have step : StandsBy g s.lswResetN s.resetShared := by
    have eh : s.resetShared.hf g = s.lswResetN.hf g := by cases g <;> rfl
    exact ⟨by rw [eh], by rw [eh], by rw [eh], by rw [eh], by rw [eh], rg_resetShared_kept (by decide) s g, fun r m => by rwa [eh]⟩
  exact (StandsBy.of_frame (frame_lswResetN s) (by simp [ownParts])).trans step

/-- Both halves of `t` have reset since `s`, and the shared I/O domain with them. -/
def AllReset (s t : State) : Prop :=
  t.ref.token = none ∧ t.cans = [] ∧ t.mesh = {} ∧ (∀ h, HalfReset s t h) ∧ ∀ off, t.rg .can .A off = resetWord .can .A off ∧ t.rg .gpio .A off = resetWord .gpio .A off

/-- Two halves that reset one after the other, the first standing by as the second does. -/
theorem halfReset_both {s t u : State} (a : HalfReset s t .A) (waits : StandsBy .B s t) (b : HalfReset t u .B) (stays : StandsBy .A t u) : ∀ h, HalfReset s u h
  | .A => a.keep stays
  | .B => b.since waits

theorem allReset_resetShared {s u : State} (ht : u.ref.token = none) (hr : ∀ h, HalfReset s u h) : AllReset s u.resetShared := by
  have ef : u.resetShared.ref = u.ref := ((frame_lswResetN u).ref (by simp))
  exact ⟨by rw [ef, ht], rfl, rfl, fun h => (hr h).keep (standsBy_resetShared u h),
    fun off => ⟨rg_of_gone (regs_resetShared u) (by decide) off, rg_of_gone (regs_resetShared u) (by decide) off⟩⟩

/-- It stays so through an operation that concerns none of it. -/
theorem AllReset.of_frame {ps : List Part} {s t u : State} (r : AllReset s t) (f : Frame ps t u)
    (m : ∀ p ∈ [.ref, .cans, .mesh, .regs .can, .regs .gpio] ++ ownParts .A ++ ownParts .B, p ∉ ps) : AllReset s u := by
  obtain ⟨token, cans, mesh, halves, words⟩ := r
  refine ⟨?_, ?_, ?_, fun h => (halves h).keep (StandsBy.of_frame f ?_), fun off => ⟨?_, ?_⟩⟩
  · rw [f.ref (m _ (by simp)), token]
  · rw [f.cans (m _ (by simp)), cans]
  · rw [f.mesh (m _ (by simp)), mesh]
  · cases h
    · exact fun p hp => m p (List.mem_append_left _ (List.mem_append_right _ hp))
    · exact fun p hp => m p (List.mem_append_right _ hp)
  · rw [f.rg (m _ (by simp)), (words off).1]
  · rw [f.rg (m _ (by simp)), (words off).2]

/-- The two halves of a RESET_N. -/
def State.bothReset (s : State) (cause : Nat) : State := (s.resetHalf .A cause).resetHalf .B cause

theorem token_bothReset (s : State) (cause : Nat) : (s.bothReset cause).ref.token = none := by
  rw [State.bothReset, token_resetHalf, token_resetHalf]
  rcases s.ref.token with _ | _ | _ <;> rfl

theorem halfReset_bothReset (s : State) (cause : Nat) : ∀ h, HalfReset s (s.bothReset cause) h :=
  halfReset_both (halfReset_resetHalf s .A cause) (standsBy_resetHalf_other s .A cause) (halfReset_resetHalf _ .B cause) (standsBy_resetHalf_other _ .B cause)

/-- The vehicle sessions are gone with both halves. -/
def State.vehGone (s : State) : State := { s with veh := [], vehG := { s.vehG with late := [] } }

theorem resetN_eq (s : State) (cause : Nat) : s.resetN cause = ((s.bothReset cause).resetShared).vehGone := rfl

theorem frame_vehGone (s : State) : Frame [.veh, .vehG] s s.vehGone := by simp [State.vehGone, Frame.refl]

theorem allReset_resetN (s : State) (cause : Nat) : AllReset s (s.resetN cause) :=
  (allReset_resetShared (token_bothReset s cause) (halfReset_bothReset s cause)).of_frame (frame_vehGone _) (by simp [ownParts])

theorem AllReset.since {s t u : State} (b : ∀ h, StandsBy h s t) (r : AllReset t u) : AllReset s u := by
  obtain ⟨token, cans, mesh, halves, words⟩ := r
  exact ⟨token, cans, mesh, fun h => (halves h).since (b h), words⟩

/-! ### The words of the shared blocks as both halves reset -/

theorem rg_bothReset_shared {b : Blk} (m : b ∉ halfBlks) (n : b ≠ .pwr) (s : State) (h : Half) (cause off : Nat) : (s.bothReset cause).rg b h off = s.rg b h off :=
  (rg_resetHalf_shared m n (s.resetHalf .A cause) .B h cause off).trans (rg_resetHalf_shared m n s .A h cause off)

/-- A word of a block that neither half has and RESET_N does not name stands. -/
theorem rg_resetN_kept {b : Blk} (m : b ∉ halfBlks) (n : b ∉ [Blk.can, .gpio, .rms, .lsw, .pwr]) (s : State) (h : Half) (cause off : Nat) :
    (s.resetN cause).rg b h off = s.rg b h off := by
  have nl : b ≠ .lsw := by rintro rfl; exact n (by decide)
  have np : b ≠ .pwr := by rintro rfl; exact n (by decide)
  have ns : b ∉ [Blk.can, .gpio, .rms] := fun hm => n (by simp only [List.mem_cons] at hm ⊢; tauto)
  calc (s.resetN cause).rg b h off
    _ = (s.bothReset cause).lswResetN.rg b h off := rg_resetShared_kept ns (s.bothReset cause) h off
    _ = (s.bothReset cause).rg b h off := (frame_lswResetN _).rg (by simpa using nl) h off
    _ = s.rg b h off := rg_bothReset_shared m np s h cause off

/-- The load switches after RESET_N: the channels with HOLD keep their words (R574). -/
theorem lswR_resetN {c k : Nat} (hc : c < 16) (hk : k < 6) (s : State) (cause : Nat) : (s.resetN cause).lswR c (4 * k) = s.lswAfter c k := by
  have e (off : Nat) : (s.bothReset cause).lswR c off = s.lswR c off := rg_bothReset_shared (by decide) (by decide) s .A cause _
  calc (s.resetN cause).lswR c (4 * k)
    _ = (s.bothReset cause).lswResetN.lswR c (4 * k) := rg_resetShared_kept (by decide) (s.bothReset cause) .A _
    _ = (s.bothReset cause).lswAfter c k := lswR_lswResetN hc hk _
    _ = s.lswAfter c k := lswAfter_congr (fun k _ => e (4 * k)) hk

/-! ### The power unit's words as the halves reset (R642) -/

/-- Before its cause is written a half that resets leaves the power unit's words. -/
theorem rg_dropped_pwr (s : State) (h : Half) (off : Nat) :
    ((((s.lapsed h).dropBlocks h).dropReqs h).setHf h (freshHalf h ((s.lapsed h).hf h))).rg .pwr .A off = s.rg .pwr .A off := by
  rw [rg_setHf]
  exact (rg_dropBlocks_shared (by decide) (s.lapsed h) h .A off).trans ((frame_lapsed s h).rg (by simp [roleParts]) .A off)

theorem rg_resetHalf_pwr {off : Nat} (n : off ≠ 0x0C) (s : State) (h : Half) (cause : Nat) : (s.resetHalf h cause).rg .pwr .A off = s.rg .pwr .A off := by
  rw [resetHalf_eq, ← rg_dropped_pwr s h off]
  cases h <;> exact rg_srg_other _ .pwr .A _ n.symm

theorem rf_resetHalf_A {cause : Nat} (hc : cause < 256) (s : State) : (s.resetHalf .A cause).rf .pwr .A 0x0C 15 8 = cause := by
  rw [resetHalf_eq]
  exact rf_srf_same (by decide) (by decide) hc _ _ _ _

theorem rf_resetHalf_B {cause : Nat} (hc : cause < 256) (s : State) : (s.resetHalf .B cause).rf .pwr .A 0x0C 7 0 = cause := by
  rw [resetHalf_eq]
  exact rf_srf_same (by decide) (by decide) hc _ _ _ _

theorem rf_resetHalf_B_otherCause (s : State) (cause : Nat) : (s.resetHalf .B cause).rf .pwr .A 0x0C 15 8 = s.rf .pwr .A 0x0C 15 8 := by
  rw [resetHalf_eq]
  exact (rf_srf_apart (by decide) (by decide) (by decide) _ _ _ _ _).trans (rf_of_rg (rg_dropped_pwr s .B 0x0C) 15 8)

theorem rg_resetShared_pwr (s : State) (off : Nat) : s.resetShared.rg .pwr .A off = s.rg .pwr .A off :=
  (rg_resetShared_kept (by decide) s .A off).trans ((frame_lswResetN s).rg (by simp) .A off)

theorem rg_resetN_pwr {off : Nat} (n : off ≠ 0x0C) (s : State) (cause : Nat) : (s.resetN cause).rg .pwr .A off = s.rg .pwr .A off :=
  (rg_resetShared_pwr (s.bothReset cause) off).trans ((rg_resetHalf_pwr n _ .B cause).trans (rg_resetHalf_pwr n s .A cause))

/-- Both halves show the cause of their start. -/
theorem causes_resetN {cause : Nat} (hc : cause < 256) (s : State) :
    (s.resetN cause).rf .pwr .A 0x0C 15 8 = cause ∧ (s.resetN cause).rf .pwr .A 0x0C 7 0 = cause := by
  have e (hi lo : Nat) : (s.resetN cause).rf .pwr .A 0x0C hi lo = (s.bothReset cause).rf .pwr .A 0x0C hi lo :=
    rf_of_rg (s := s.bothReset cause) (rg_resetShared_pwr (s.bothReset cause) 0x0C) hi lo
  exact ⟨(e 15 8).trans ((rf_resetHalf_B_otherCause _ cause).trans (rf_resetHalf_A hc s)), (e 7 0).trans (rf_resetHalf_B hc _)⟩

theorem pwr_resetN (s : State) (cause : Nat) : (s.resetN cause).pwr = s.pwr := frame_resetN s cause .pwr (by simp [allRegs])

/-! ### A half that loses its power (R629) -/

theorem standsBy_haltHalf_other (s : State) (h : Half) : StandsBy (other h) s (s.haltHalf h) :=
  (standsBy_resetHalf_other s h 0).trans (StandsBy.of_frame (frame_mTwn _ h _) (by simp [ownParts]))

theorem off_haltHalf (s : State) (h : Half) : ((s.haltHalf h).hf h).twn.off = true := by
  rw [State.haltHalf, twn_mTwn]

theorem halfReset_haltHalf (s : State) (h : Half) : HalfReset s (s.haltHalf h) h := by
  obtain ⟨service, unhealthy, cause, stg, ports, claim, pts, cln⟩ := halfReset_resetHalf s h 0
  have f := frame_mTwn (s.resetHalf h 0) h fun t => { t with off := true }
  have et : ((s.haltHalf h).hf h).twn = { ((s.resetHalf h 0).hf h).twn with off := true } := twn_mTwn ..
  refine ⟨?_, ?_, ?_, (f.stg (by simp)).trans stg, (f.ports (by simp)).trans ports, ?_, (f.pts (by simp)).trans pts,
    fun off => (f.rg (by simp) h off).trans (cln off)⟩
  · rw [et, ← service]
  · rw [et, ← unhealthy]
  · rw [et, ← cause]
  · rw [et, ← claim]

theorem token_haltHalf (s : State) (h : Half) : (s.haltHalf h).ref.token = if s.ref.token = some h then none else s.ref.token := by
  rw [State.haltHalf, (frame_mTwn _ h _).ref (by simp), token_resetHalf]

theorem rg_haltHalf_pwr {off : Nat} (n : off ≠ 0x0C) (s : State) (h : Half) : (s.haltHalf h).rg .pwr .A off = s.rg .pwr .A off :=
  ((frame_mTwn (s.resetHalf h 0) h _).rg (by simp) .A off).trans (rg_resetHalf_pwr n s h 0)

/-- Where the other half runs no more, the vehicle sessions go with a half. -/
theorem veh_resetHalf_alone {s : State} {h : Half} (o : (s.hf (other h)).twn.off = true) (cause : Nat) : (s.resetHalf h cause).veh = [] := by
  have ob : ((s.bootAgain h).hf (other h)).twn.off = true := by rw [(frame_bootAgain s h).twn (by simp), o]
  have ev : ((s.bootAgain h).vehReset h).veh = [] := by
    unfold State.vehReset
    rw [if_pos ob]
  rw [resetHalf_eq, (frame_setCause _ h cause).veh (by simp), setHf_veh]
  exact ((frame_roleEnded _ h).veh (by simp [roleParts])).trans ev

/-- Both halves without power. -/
def State.halted (s : State) : State := (s.haltHalf .A).haltHalf .B

theorem token_halted (s : State) : s.halted.ref.token = none := by
  rw [State.halted, token_haltHalf, token_haltHalf]
  rcases s.ref.token with _ | _ | _ <;> rfl

theorem halfReset_halted (s : State) : ∀ h, HalfReset s s.halted h :=
  halfReset_both (halfReset_haltHalf s .A) (standsBy_haltHalf_other s .A) (halfReset_haltHalf _ .B) (standsBy_haltHalf_other _ .B)

theorem off_halted (s : State) (h : Half) : (s.halted.hf h).twn.off = true := by
  rw [State.halted]
  cases h
  case A =>
    have b : StandsBy .A (s.haltHalf .A) ((s.haltHalf .A).haltHalf .B) := standsBy_haltHalf_other (s.haltHalf .A) .B
    rw [b.off, off_haltHalf]
  case B => exact off_haltHalf (s.haltHalf .A) .B

theorem veh_haltHalf_alone {s : State} {h : Half} (o : (s.hf (other h)).twn.off = true) : (s.haltHalf h).veh = [] := by
  rw [State.haltHalf, (frame_mTwn _ h _).veh (by simp), veh_resetHalf_alone o]

theorem veh_halted (s : State) : s.halted.veh = [] := veh_haltHalf_alone (off_haltHalf s .A)

theorem allReset_haltedShared (s : State) : AllReset s s.halted.resetShared := allReset_resetShared (token_halted s) (halfReset_halted s)

theorem rg_halted_pwr {off : Nat} (n : off ≠ 0x0C) (s : State) : s.halted.rg .pwr .A off = s.rg .pwr .A off :=
  (rg_haltHalf_pwr n _ .B).trans (rg_haltHalf_pwr n s .A)

theorem pwr_halted (s : State) : s.halted.pwr = s.pwr :=
  ((frame_haltHalf (s.haltHalf .A) .B).pwr (by simp [allRegs])).trans (frame_haltHalf s .A .pwr (by simp [allRegs]))

/-! ### The island and the registers named (R157, R465) -/

theorem frame_dropRegs_named (s : State) (l : List Blk) : Frame (l.map .regs) s (s.dropRegs l) := by
  intro p m
  cases p with
  | regs b => exact fun h off => rg_of_notGone (t := s.dropRegs l) rfl (fun hb => m (List.mem_map.2 ⟨b, hb, rfl⟩)) h off
  | _ => exact frame_dropRegs s l _ (by simp [allRegs])

theorem rg_dropRegs {l : List Blk} {b : Blk} (m : b ∈ l) (s : State) (off : Nat) : (s.dropRegs l).rg b .A off = resetWord b .A off :=
  rg_of_gone (t := s.dropRegs l) (s := s) rfl m off

/-- The island's zones start anew (R465). -/
theorem zone_islandStart {z : Nat} (hz : z < 8) (s : State) : s.islandStart.zone z = { since := s.now } := by
  refine foldl_reaches (f := fun t z => put {} t z { since := s.now }) (P := fun t : Tab ZoneS => look {} t z = { since := s.now }) (a := z) (fun t => look_put_same ..) (fun t y e => ?_) (List.range 8) (List.mem_range.2 hz) []
  by_cases ey : y = z
  · subst ey
    exact look_put_same ..
  · exact (look_put_other {} _ t ey).trans e

theorem zone_islandStart_fresh {z : Nat} (hz : z < 8) (s : State) : s.islandStart.zone z = { since := (s.islandStart.zone z).since } := by rw [zone_islandStart hz]

/-- An output pair as the island starts: its feedback stands, its command is gone. -/
def State.outRestart (s : State) (n : Nat) (p : OutPair) : OutPair :=
  { fbk := p.fbk, cmdTick := if (s.outPair n).on then s.now else p.cmdTick, followed := if (s.outPair n).on then !s.fbkEn n else p.followed }

/-- Every output pair is off as the island starts (R465). -/
theorem outPair_islandStart {n : Nat} (hn : n < 8) (s : State) : (s.islandStart.outPair n).on = false := by
  show (look {} ((List.range 8).foldl (fun t n => Machine.upd {} t n (s.outRestart n)) s.saf.outs) n).on = false
  exact look_foldl_upd {} s.outRestart (P := fun p : OutPair => p.on = false) (fun _ => rfl) (List.mem_range.2 hn) s.saf.outs

end

end Sys2Proof.Machine

/-!
O45 continued: the commands of hold-up, start-up, RESET_N, the service button, the power states and the wake sources, each by the operations it is made of.
-/

namespace Sys2Proof.Machine

section

/-! ### RESET_N (R634) -/

/-- The parts that a reset of both halves and the shared I/O domain concerns. -/
def resetParts : List Part :=
  .free :: .shadow :: .blocks :: .ref :: .ho :: .pll :: .lkt :: .cans :: .lsw :: .mesh :: .upd :: .veh :: .vehG :: (allRegs ++ halfParts .A ++ halfParts .B)

theorem frame_resetN_parts (s : State) (cause : Nat) : Frame resetParts s (s.resetN cause) := (frame_resetN s cause).mono (by decide)

theorem exec_resetN_taken {s : State} {n : Nat} (up : s.pwr.up = true) (h : 10000 ≤ n) : exec (.resetN n) s = .next (s.resetN 1) := by
  show execResetN n s = _
  unfold execResetN
  rw [if_neg (by simp [up]; omega), if_pos h]

theorem exec_resetN_ignored {s : State} {n : Nat} (h : s.pwr.up = false ∨ n ≤ 1000) : exec (.resetN n) s = .next s :=
  if_pos (by simpa using h)

theorem exec_resetN_between {s : State} {n : Nat} (up : s.pwr.up = true) (h₁ : 1000 < n) (h₂ : n < 10000) :
    exec (.resetN n) s = .next (if s.freeVal 0 % 2 = 1 then (s.drew 1).resetN 1 else s.drew 1) := by
  show execResetN n s = _
  unfold execResetN
  rw [if_neg (by simp [up]; omega), if_neg (by omega)]
  split <;> rfl

/-- A pulse between the two lengths resets everything or is only seen by the free choice. -/
theorem resetN_between (s : State) :
    let t := if s.freeVal 0 % 2 = 1 then (s.drew 1).resetN 1 else s.drew 1
    (Frame [.free] s t ∨ AllReset s t) ∧ Frame resetParts s t := by
  have fd : Frame [.free] s (s.drew 1) := frame_drew s 1
  dsimp only
  split
  · refine ⟨.inr ((allReset_resetN (s.drew 1) 1).since fun h => StandsBy.of_frame fd (by simp [ownParts])), ?_⟩
    exact (fd.mono (by simp [resetParts])).trans (frame_resetN_parts _ 1)
  · exact ⟨.inl fd, fd.mono (by simp [resetParts])⟩

/-! ### Hold-up (R627, R629, R630, R631) -/

theorem pwr_mPwr (s : State) (f : PwrS → PwrS) : (s.mPwr f).pwr = f s.pwr := rfl

theorem rf_setVhold (s : State) (v : Nat) : (s.setVhold v).rf .pwr .A 0x08 15 8 = min 255 v :=
  rf_srf_same (by decide) (by decide) (by omega) s .pwr .A 0x08

theorem exec_holdupStart_of {s : State} (up : s.pwr.up = true) (h9 : s.rb .pwr .A 0 9 = false) (h8 : s.rb .pwr .A 0 8 = false) (sw : s.pwr.vhSwitch = true)
    (h2 : s.rb .pwr .A 0 2 = false) : exec .holdupStart s = .next ((s.srf .pwr .A 0 2 2 1).mPwr fun p => { p with step := 2 }) :=
  if_neg (by simp [up, h9, h8, sw, State.holdup, h2])

theorem exec_holdupStart_not {s : State}
    (h : s.pwr.up = false ∨ s.rb .pwr .A 0 9 = true ∨ s.rb .pwr .A 0 8 = true ∨ s.pwr.vhSwitch = false ∨ s.rb .pwr .A 0 2 = true) :
    exec .holdupStart s = .next s :=
  if_pos (by simpa [State.holdup, or_assoc] using h)

theorem exec_holdupHalvesStop_of {s : State} {v : Nat} (st : s.pwr.step = 2) (hv : v < 80) :
    exec (.holdupHalvesStop v) s = .next ((s.setVhold v).halted.resetShared.mPwr fun p => { p with step := 3, charged := false }) :=
  if_pos ⟨st, hv⟩

theorem exec_holdupHalvesStop_not {s : State} {v : Nat} (h : s.pwr.step ≠ 2 ∨ 80 ≤ v) : exec (.holdupHalvesStop v) s = .next (s.setVhold v) :=
  if_neg fun ⟨st, hv⟩ => h.elim (· st) (Nat.not_le.2 hv)

theorem exec_holdupIslandsStop_not {s : State} {v : Nat} (h : s.pwr.step ≠ 3 ∨ 60 ≤ v) : exec (.holdupIslandsStop v) s = .next (s.setVhold v) :=
  if_neg fun ⟨st, hv⟩ => h.elim (· st) (Nat.not_le.2 hv)

/-- Both halves stop, and for the shared I/O domain this is a RESET_N. -/
theorem holdupHalvesStop_stops (s : State) (v : Nat) (hv : v < 80) :
    let t := (s.setVhold v).halted.resetShared.mPwr fun p => { p with step := 3, charged := false }
    AllReset s t ∧ (∀ h, (t.hf h).twn.off = true) ∧ t.pwr = { s.pwr with step := 3, charged := false } ∧ t.veh = [] ∧ t.rf .pwr .A 0x08 15 8 = v ∧
      Frame (.pwr :: resetParts) s t := by
  have fv := frame_setVhold s v
  have fs := frame_resetShared (s.setVhold v).halted
  have fp := frame_mPwr (s.setVhold v).halted.resetShared fun p => { p with step := 3, charged := false }
  have fh : Frame (.pwr :: resetParts) (s.setVhold v) (s.setVhold v).halted :=
    ((frame_haltHalf _ .A).mono (by decide)).trans ((frame_haltHalf _ .B).mono (by decide))
  have er (off : Nat) (n : off ≠ 0x0C) : ((s.setVhold v).halted.resetShared.mPwr fun p => { p with step := 3, charged := false }).rg .pwr .A off =
      (s.setVhold v).rg .pwr .A off := by
    rw [fp.rg (by simp), rg_resetShared_pwr, rg_halted_pwr n]
  refine ⟨?_, fun h => ?_, ?_, ?_, ?_, ?_⟩
  · exact ((allReset_haltedShared (s.setVhold v)).of_frame fp (by simp [ownParts])).since fun h => StandsBy.of_frame fv (by simp [ownParts])
  · rw [fp.twn (by simp), (standsBy_resetShared _ h).off, off_halted]
  · show { (s.setVhold v).halted.resetShared.pwr with step := 3, charged := false } = _
    rw [fs.pwr (by simp [allRegs]), pwr_halted, fv.pwr (by simp)]
  · rw [fp.veh (by simp), fs.veh (by simp [allRegs]), veh_halted]
  · rw [rf_of_rg (er 0x08 (by decide)), rf_setVhold]
    omega
  · exact (((fv.mono (by decide)).trans fh).trans (fs.mono (by decide))).trans (fp.mono (by decide))

/-- The cell as hold-up measures it, and the islands and the load switches without power. -/
def State.islandsOut (s : State) : State :=
  { (s.islandStart.dropRegs [.lsw]) with lsw := {} }.mPwr fun p => { p with up := false, charged := false, step := 4, batt := 1, battAt := s.rtc }

/-- VHOLD and the cell as they are read. -/
def State.cellRead (s : State) (v : Nat) : State := (((s.setVhold v).srf .pwr .A 8 7 0 ((s.setVhold v).freeVal 0))).drew 1

theorem exec_holdupIslandsStop_of {s : State} {v : Nat} (st : s.pwr.step = 3) (hv : v < 60) :
    exec (.holdupIslandsStop v) s =
      .next (if (s.cellRead v).islandsOut.rf .pwr .A 8 7 0 < 125 then (s.cellRead v).islandsOut.battLost else (s.cellRead v).islandsOut) :=
  if_pos ⟨st, hv⟩

/-- What stands of a stopped island and its load switches. -/
structure IslandsOut (t : State) : Prop where
  lsw : t.lsw = {}
  zones : ∀ z < 8, t.zone z = { since := (t.zone z).since }
  outs : ∀ n < 8, (t.outPair n).on = false
  words : ∀ off, t.rg .lsw .A off = resetWord .lsw .A off

theorem zone_of_saf {s t : State} (e : t.saf = s.saf) (z : Nat) : t.zone z = s.zone z := by rw [State.zone, e, State.zone]
theorem outPair_of_saf {s t : State} (e : t.saf = s.saf) (n : Nat) : t.outPair n = s.outPair n := by rw [State.outPair, e, State.outPair]

theorem IslandsOut.of_frame {ps : List Part} {s t : State} (i : IslandsOut s) (f : Frame ps s t) (m : ∀ p ∈ [.lsw, .saf, .regs .lsw], p ∉ ps) : IslandsOut t := by
  have es : t.saf = s.saf := f.saf (m _ (by simp))
  exact ⟨(f.lsw (m _ (by simp))).trans i.lsw, fun z hz => by rw [zone_of_saf es, ← i.zones z hz], fun n hn => by rw [outPair_of_saf es, i.outs n hn],
    fun off => (f.rg (m _ (by simp)) .A off).trans (i.words off)⟩

theorem frame_islandsOut_started (s : State) : Frame [.regs .lsw, .lsw, .pwr] s.islandStart s.islandsOut := by
  have fl : Frame [.lsw, .pwr] (s.islandStart.dropRegs [.lsw]) s.islandsOut := by simp [State.islandsOut, Frame.refl]
  exact ((frame_dropRegs_named s.islandStart [.lsw]).mono (by simp)).trans (fl.mono (by simp))

theorem islandsOut_islandsOut (s : State) : IslandsOut s.islandsOut := by
  have es : s.islandsOut.saf = s.islandStart.saf := (frame_islandsOut_started s).saf (by simp)
  refine ⟨rfl, fun z hz => ?_, fun n hn => ?_, fun off => rg_dropRegs (by decide) s.islandStart off⟩
  · rw [zone_of_saf es]
    exact zone_islandStart_fresh hz s
  · rw [outPair_of_saf es]
    exact outPair_islandStart hn s

theorem frame_islandsOut (s : State) : Frame [.regs .lsw, .regs .saf, .saf, .lsw, .upd, .pwr] s s.islandsOut :=
  ((frame_islandStart s).mono (by simp)).trans ((frame_islandsOut_started s).mono (by simp))

theorem pwr_islandsOut (s : State) : s.islandsOut.pwr = { s.pwr with up := false, charged := false, step := 4, batt := 1, battAt := s.rtc } := by
  show { s.islandStart.pwr with up := false, charged := false, step := 4, batt := 1, battAt := s.rtc } = _
  rw [(frame_islandStart s).pwr (by simp)]

theorem frame_cellRead (s : State) (v : Nat) : Frame [.regs .pwr, .free] s (s.cellRead v) :=
  (((frame_setVhold s v).mono (by simp)).trans ((frame_srf _ .pwr .A 8 7 0 _).mono (by simp))).trans ((frame_drew _ 1).mono (by simp))

theorem rf_cellRead (s : State) (v : Nat) : (s.cellRead v).rf .pwr .A 0x08 15 8 = min 255 v := by
  rw [State.cellRead, rf_of_rg ((frame_drew _ 1).rg (by simp) .A 8), rf_srf_apart (by decide) (by decide) (by decide), rf_setVhold]

/-- The islands and the shared I/O domain stop; the battery domain runs on where the cell has 2.5 V. -/
theorem ends_holdupIslandsStop_of {s : State} {v : Nat} (st : s.pwr.step = 3) (hv : v < 60) :
    Ends (.holdupIslandsStop v) s fun t => t.pwr.up = false ∧ t.pwr.charged = false ∧ t.pwr.step = 4 ∧ t.lsw = {} ∧ (∀ z < 8, t.zone z = { since := (t.zone z).since }) ∧
        (∀ n < 8, (t.outPair n).on = false) ∧ (∀ off, t.rg .lsw .A off = resetWord .lsw .A off) ∧ (t.rf .pwr .A 0x08 7 0 < 125 → t.pwr.batt = 0) ∧
        (125 ≤ t.rf .pwr .A 0x08 7 0 → t.pwr = { s.pwr with up := false, charged := false, step := 4, batt := 1, battAt := s.rtc } ∧ t.rtc = s.rtc) ∧
        t.rf .pwr .A 0x08 15 8 = v ∧ Frame [.free, .regs .pwr, .regs .lsw, .regs .saf, .saf, .lsw, .upd, .pwr, .rtc] s t := by
  have fm := frame_cellRead s v
  have fi := frame_islandsOut (s.cellRead v)
  have ep : (s.cellRead v).islandsOut.pwr = { s.pwr with up := false, charged := false, step := 4, batt := 1, battAt := s.rtc } := by
    rw [pwr_islandsOut, fm.pwr (by simp), fm.rtc (by simp)]
  have ev : (s.cellRead v).islandsOut.rf .pwr .A 0x08 15 8 = v := by
    rw [rf_of_rg (fi.rg (by simp) .A 8), rf_cellRead]
    omega
  have ff : Frame [.free, .regs .pwr, .regs .lsw, .regs .saf, .saf, .lsw, .upd, .pwr, .rtc] s (s.cellRead v).islandsOut := (fm.mono (by simp)).trans (fi.mono (by simp))
  have io := islandsOut_islandsOut (s.cellRead v)
  by_cases low : (s.cellRead v).islandsOut.rf .pwr .A 8 7 0 < 125
  · have fb := frame_battLost (s.cellRead v).islandsOut
    have eb : (s.cellRead v).islandsOut.battLost.pwr = { (s.cellRead v).islandsOut.pwr with batt := 0 } := rfl
    have er (hi lo : Nat) : (s.cellRead v).islandsOut.battLost.rf .pwr .A 8 hi lo = (s.cellRead v).islandsOut.rf .pwr .A 8 hi lo := rf_of_rg (fb.rg (by simp) .A 8) hi lo
    obtain ⟨lsw, zones, outs, words⟩ := io.of_frame fb (by simp)
    refine Ends.of_next ((exec_holdupIslandsStop_of st hv).trans (congrArg _ (if_pos low))) ⟨?_, ?_, ?_, lsw, zones, outs, words, fun _ => ?_, fun enough => ?_, ?_, ?_⟩
    · rw [eb, ep]
    · rw [eb, ep]
    · rw [eb, ep]
    · rw [eb]
    · exact absurd low (Nat.not_lt.2 (er 7 0 ▸ enough))
    · rw [er, ev]
    · exact ff.trans (fb.mono (by simp))
  · obtain ⟨lsw, zones, outs, words⟩ := io
    refine Ends.of_next ((exec_holdupIslandsStop_of st hv).trans (congrArg _ (if_neg low))) ⟨?_, ?_, ?_, lsw, zones, outs, words, fun l => absurd l low, fun _ => ⟨ep, ?_⟩, ev, ff⟩
    · rw [ep]
    · rw [ep]
    · rw [ep]
    · rw [fi.rtc (by simp), fm.rtc (by simp)]

/-- Hold-up is over: HOLDUP is clear, and nothing waits in Locket. -/
def State.holdupOver (s : State) : State :=
  ((s.srf .pwr .A 0 2 2 0).mPwr fun p => { p with vhSwitch := false, step := 0 }).mLkt fun x => { x with waiting := [] }

theorem frame_holdupOver (s : State) : Frame [.regs .pwr, .lkt, .pwr] s s.holdupOver :=
  (((frame_srf s .pwr .A 0 2 2 0).mono (by simp)).trans ((frame_mPwr _ _).mono (by simp))).trans ((frame_mLkt _ _).mono (by simp))

theorem rb_holdupOver (s : State) : s.holdupOver.rb .pwr .A 0 2 = false := rb_srf_bit (by decide) s .pwr .A 0 false

theorem exec_holdupEnd_stopped {s : State} (st : s.pwr.step = 3) : exec .holdupEnd s = .next (s.holdupOver.resetN 4) := if_pos st

theorem exec_holdupEnd_early {s : State} (st : s.pwr.step = 2) :
    exec .holdupEnd s = .next (s.lkt.waiting.foldl lktResume (flashDrain (flashDrain s.holdupOver .A) .B)) :=
  (if_neg (by simp [st])).trans (if_pos st)

theorem exec_holdupEnd_else {s : State} (n₂ : s.pwr.step ≠ 2) (n₃ : s.pwr.step ≠ 3) : exec .holdupEnd s = .next s.holdupOver :=
  (if_neg n₃).trans (if_neg n₂)

theorem pwr_holdupOver (s : State) : s.holdupOver.pwr = { s.pwr with vhSwitch := false, step := 0 } := by
  rw [State.holdupOver, (frame_mLkt _ _).pwr (by simp), pwr_mPwr, srf_pwr]

/-- What waited in Locket leaves the power unit. -/
theorem frame_lktResumes (l : List LktCmd) (s : State) : Frame (bothMbx ++ [.free, .ports .A, .ports .B, .rems, .lkt]) s (l.foldl lktResume s) :=
  Frame.foldl frame_lktResume l s

theorem thm_flashDrains (s : State) : ∀ h, ((flashDrain (flashDrain s .A) .B).hf h).thm = { (s.hf h).thm with buf := if (s.hf h).thm.flashHold then (s.hf h).thm.buf else 0 }
  | .A => rfl
  | .B => rfl

theorem frame_flashDrains (s : State) : Frame [.thm .A, .thm .B] s (flashDrain (flashDrain s .A) .B) := (frame_flashDrain s .A).trans (frame_flashDrain _ .B)

theorem ends_holdupEnd_early {s : State} (st : s.pwr.step = 2) :
    Ends .holdupEnd s fun t => t.pwr = { s.pwr with vhSwitch := false, step := 0 } ∧ t.rb .pwr .A 0 2 = false ∧
      (s.lkt.waiting = [] → t.lkt = s.lkt ∧ (∀ h, (t.hf h).thm = { (s.hf h).thm with buf := if (s.hf h).thm.flashHold then (s.hf h).thm.buf else 0 }) ∧
        Frame [.regs .pwr, .thm .A, .thm .B, .pwr] s t) := by
  have fo := frame_holdupOver s
  have fd := frame_flashDrains s.holdupOver
  have fl := frame_lktResumes s.lkt.waiting (flashDrain (flashDrain s.holdupOver .A) .B)
  refine Ends.of_next (exec_holdupEnd_early st) ⟨?_, ?_, fun w => ?_⟩
  · rw [fl.pwr (by simp [bothMbx]), fd.pwr (by simp)]
    rfl
  · rw [State.rb, fl.rg (by simp [bothMbx]), fd.rg (by simp)]
    exact rb_holdupOver s
  · have el : s.holdupOver.lkt = s.lkt := by
      show { s.lkt with waiting := [] } = s.lkt
      rw [← w]
    rw [w]
    refine ⟨(fd.lkt (by simp)).trans el, fun h => ?_, ?_⟩
    · rw [List.foldl_nil, thm_flashDrains, show (s.holdupOver.hf h).thm = (s.hf h).thm from fo (.thm h) (by simp)]
    · refine Frame.trans (fun p m => ?_) (fd.mono (by simp))
      by_cases ep : p = .lkt
      · subst ep
        exact el
      · simp only [List.mem_cons, not_or] at m
        exact fo p (by simp [ep, m])

/-! ### Start-up (R628, R632, R633) -/

theorem exec_moduleStart_up {s : State} (up : s.pwr.up = true) : exec .moduleStart s = .next s := if_pos up

/-- What POR does of the shared I/O domain and the referee once the halves and the island start anew. -/
def State.porShared (s : State) : State :=
  { s with regs := s.regs.filter (fun e => !([Blk.lsw, .pwr].any fun b => blkKey b .A == keyBlk e.1)), lsw := {},
           ref := { s.ref with token := none, reqs := [], rel := none, relNoSucc := false, ports := 0, freeSig := none } }

/-- What POR does of the meters, of billing and of the thermal record. -/
def State.porRest (s : State) : State :=
  let s := s.mMet fun x => { x with pulses := [], warm := 0, battery := 0 }
  let s := s.mBil fun b => { b with starting := true, ldsp := { chk := s.now + 200000 } }
  { s with therm := { s.therm with stop := none, doer := none, down := false, release := false } }

theorem por_eq (s : State) : s.por = ((s.resetN 0).islandStart.porShared).porRest := rfl

theorem frame_porRest (s : State) : Frame [.met, .bil, .therm] s s.porRest := by simp (maxDischargeDepth := 8) [State.porRest]

theorem standsBy_porShared (s : State) (g : Half) : StandsBy g s s.porShared := by
  have eh : s.porShared.hf g = s.hf g := by cases g <;> rfl
  exact ⟨by rw [eh], by rw [eh], by rw [eh], by rw [eh], by rw [eh], fun off => rg_of_notGone (t := s.porShared) (s := s) rfl (by decide) g off, fun r m => by rwa [eh]⟩

theorem allReset_por (s : State) : AllReset s s.por := by
  obtain ⟨-, cans, mesh, halves, words⟩ := (allReset_resetN s 0).of_frame (frame_islandStart _) (by simp [ownParts])
  have shared : AllReset s (s.resetN 0).islandStart.porShared :=
    ⟨rfl, cans, mesh, fun h => (halves h).keep (standsBy_porShared _ h), fun off =>
      ⟨(rg_of_notGone (t := (s.resetN 0).islandStart.porShared) (s := (s.resetN 0).islandStart) rfl (by decide) .A off).trans (words off).1,
        (rg_of_notGone (t := (s.resetN 0).islandStart.porShared) (s := (s.resetN 0).islandStart) rfl (by decide) .A off).trans (words off).2⟩⟩
  rw [por_eq]
  exact shared.of_frame (frame_porRest _) (by simp [ownParts])

theorem islandsOut_por (s : State) : IslandsOut s.por := by
  have shared : IslandsOut (s.resetN 0).islandStart.porShared := by
    refine ⟨rfl, fun z hz => ?_, fun n hn => ?_, fun off => rg_of_gone (s := (s.resetN 0).islandStart) rfl (by decide) off⟩
    · rw [zone_of_saf (show (s.resetN 0).islandStart.porShared.saf = (s.resetN 0).islandStart.saf from rfl)]
      exact zone_islandStart_fresh hz _
    · rw [outPair_of_saf (show (s.resetN 0).islandStart.porShared.saf = (s.resetN 0).islandStart.saf from rfl)]
      exact outPair_islandStart hn _
  rw [por_eq]
  exact shared.of_frame (frame_porRest _) (by simp)

theorem rg_por_pwr (s : State) (off : Nat) : s.por.rg .pwr .A off = resetWord .pwr .A off := by
  rw [por_eq, (frame_porRest _).rg (by simp)]
  exact rg_of_gone (s := (s.resetN 0).islandStart) rfl (by decide) off

theorem met_por (s : State) : s.por.met = { s.met with pulses := [], warm := 0, battery := 0 } := by
  have e : (s.resetN 0).islandStart.met = s.met := ((frame_islandStart _).met (by simp)).trans ((frame_resetN s 0).met (by decide))
  show { (s.resetN 0).islandStart.met with pulses := [], warm := 0, battery := 0 } = _
  rw [e]

/-- The module as it starts: POR, the power unit up, the boot records of the islands fresh. -/
def State.moduleUp (s : State) : State :=
  { s.por with pwr := { up := true, stuck := s.por.pwr.stuck },
               upd := { s.por.upd with recs := [2, 3].foldl (fun t k => Machine.upd {} t k BootRec.fresh) s.por.upd.recs, stage := [], stg := none } }

theorem exec_moduleStart_down {s : State} (up : s.pwr.up = false) : exec .moduleStart s = .next s.moduleUp := if_neg (by simp [up])

theorem frame_moduleUp (s : State) : Frame [.pwr, .upd] s.por s.moduleUp := by simp [State.moduleUp, Frame.refl]

theorem pwr_moduleUp (s : State) : s.moduleUp.pwr = { up := true, stuck := s.pwr.stuck } := by
  show ({ up := true, stuck := s.por.pwr.stuck } : PwrS) = _
  rw [(frame_por s).pwr (by decide)]

/-- The parts that a start concerns. -/
def startParts : List Part :=
  .free :: .shadow :: .blocks :: .ref :: .ho :: .pll :: .lkt :: .cans :: .lsw :: .mesh :: .upd :: .veh :: .vehG :: .therm :: .met :: .bil :: .saf :: .pwr ::
    (allRegs ++ halfParts .A ++ halfParts .B)

theorem frame_moduleUp_parts (s : State) : Frame startParts s s.moduleUp := ((frame_por s).mono (by decide)).trans ((frame_moduleUp s).mono (by decide))

theorem ends_vholdCharged (s : State) (v : Nat) :
    Ends (.vholdCharged v) s fun t => t.pwr = { s.pwr with charged := s.pwr.charged || (s.pwr.up && decide (120 ≤ v)) } ∧ t.rf .pwr .A 0x08 15 8 = min 255 v ∧
      Frame [.regs .pwr, .pwr] s t := by
  have fv := frame_setVhold s v
  by_cases c : s.pwr.up = true ∧ 120 ≤ v
  · have fp := frame_mPwr (s.setVhold v) fun p => { p with charged := true }
    refine Ends.of_next (u := (s.setVhold v).mPwr fun p => { p with charged := true }) (if_pos c) ⟨?_, rf_setVhold s v, (fv.mono (by simp)).trans (fp.mono (by simp))⟩
    rw [c.1, decide_eq_true c.2, Bool.and_self, Bool.or_true]
    rfl
  · have no : (s.pwr.up && decide (120 ≤ v)) = false := by simpa using c
    refine Ends.of_next (u := s.setVhold v) (if_neg c) ⟨?_, rf_setVhold s v, fv.mono (by simp)⟩
    rw [no, Bool.or_false]
    rfl

/-! ### The power states (R636, R637, R640, R641) -/

/-- The words that a state entered shows. -/
theorem rg_showPower (s : State) (n off : Nat) :
    (s.showPower n).rg .pwr .A off = ((s.srf .pwr .A 0x08 31 29 n).srf .pwr .A 0x04 31 29 n).rg .pwr .A off := (frame_mPwr _ _).rg (by simp) .A off

theorem pstate_showPower {n : Nat} (hn : n < 8) (s : State) : (s.showPower n).pstate = n := by
  rw [State.pstate, rf_of_rg (rg_showPower s n 8), rf_srf_word (by decide), rf_srf_same (by decide) (by decide) hn]

theorem target_showPower {n : Nat} (hn : n < 8) (s : State) : (s.showPower n).rf .pwr .A 0x04 31 29 = n := by
  rw [rf_of_rg (rg_showPower s n 4), rf_srf_same (by decide) (by decide) hn]

theorem pwr_showPower (s : State) (n : Nat) : (s.showPower n).pwr = { s.pwr with entered := s.rtc } := by
  rw [State.showPower, pwr_mPwr, srf_pwr, srf_pwr]

/-- PWR_STATUS outside the state shown stands. -/
theorem rb_showPower {i : Nat} (hi : i < 29) (s : State) (n : Nat) : (s.showPower n).rb .pwr .A 0x08 i = s.rb .pwr .A 0x08 i := by
  rw [State.rb, rg_showPower, rg_srf_other _ _ _ _ _ _ (by decide)]
  exact rb_srf_apart (by decide) (by omega) (by omega) s .pwr .A 0x08 n

theorem denied_denyPower {why : Nat} (hw : why < 4) (s : State) :
    (s.denyPower why).rf .pwr .A 0x08 28 27 = why ∧ (s.denyPower why).rf .pwr .A 0x04 31 29 = 0 ∧ (s.denyPower why).pstate = s.pstate := by
  refine ⟨?_, rf_srf_same (by decide) (by decide) (by decide) _ _ _ _, ?_⟩
  · rw [State.denyPower, rf_srf_word (by decide), rf_srf_same (by decide) (by decide) hw]
  · rw [State.pstate, State.denyPower, rf_srf_word (by decide), rf_srf_apart (by decide) (by decide) (by decide)]
    rfl

theorem exec_powerStateRequest_of {s : State} {h : Half} (tk : s.ref.token = some h) (n : Nat) : exec (.powerStateRequest h n) s = .next (s.powerTarget n) :=
  congrArg Host.Outcome.next (if_pos tk)

theorem exec_powerStateRequest_gated {s : State} {h : Half} (tk : s.ref.token ≠ some h) (n : Nat) : exec (.powerStateRequest h n) s = .next (s.gateOut h) :=
  congrArg Host.Outcome.next (if_neg tk)

theorem powerTarget_range {n : Nat} (h : n = 0 ∨ 4 < n) (s : State) : s.powerTarget n = s.srf .pwr .A 0x04 31 29 0 := if_pos h

section
variable {s : State} {n : Nat} (h₁ : 1 ≤ n) (h₄ : n ≤ 4)
include h₁ h₄

theorem powerTarget_asleep (ps : s.pstate ≠ 0) : s.powerTarget n = s := (if_neg (by omega)).trans (if_pos ps)

theorem powerTarget_busy (ps : s.pstate = 0) (busy : s.siteIdle = false) : s.powerTarget n = s.denyPower 1 :=
  ((if_neg (by omega)).trans (if_neg (not_not_intro ps))).trans (if_pos (by simp [busy]))

/-- A request on an idle site that nothing denies enters the state. -/
theorem powerTarget_enters (ps : s.pstate = 0) (idle : s.siteIdle = true) (quiet : n = 4 → s.zonesQuiet = true)
    (free : n = 4 → s.halfA.thm.flashHold = false ∧ s.halfB.thm.flashHold = false) : s.powerTarget n = s.enterPower n := by
  unfold State.powerTarget
  rw [if_neg (by omega), if_neg (not_not_intro ps), if_neg (by simp [idle]), if_neg (by simpa using quiet), if_neg (by simpa using free)]

end

theorem powerTarget_zones {s : State} (ps : s.pstate = 0) (idle : s.siteIdle = true) (loud : s.zonesQuiet = false) : s.powerTarget 4 = s.denyPower 2 := by
  unfold State.powerTarget
  rw [if_neg (by decide), if_neg (not_not_intro ps), if_neg (by simp [idle]), if_pos (by simp [loud])]

theorem powerTarget_flash {s : State} {g : Half} (ps : s.pstate = 0) (idle : s.siteIdle = true) (quiet : s.zonesQuiet = true) (hold : (s.hf g).thm.flashHold = true) :
    s.powerTarget 4 = s.denyPower 3 := by
  have held : (s.halfA.thm.flashHold || s.halfB.thm.flashHold) = true := by
    cases g
    · exact Bool.or_eq_true_iff.2 (.inl hold)
    · exact Bool.or_eq_true_iff.2 (.inr hold)
  unfold State.powerTarget
  rw [if_neg (by decide), if_neg (not_not_intro ps), if_neg (by simp [idle]), if_neg (by simp [quiet]), if_pos (by simp [held])]

/-- A half that sleeps: out of service, without power for its links, with its points in DRAM. -/
structure Asleep (s t : State) (g : Half) : Prop where
  off : (t.hf g).twn.off = true
  service : (t.hf g).twn.service = false
  ports : (t.hf g).ports = []
  pts : (t.hf g).pts = (s.hf g).pts

/-- The half's role as it falls asleep. -/
def State.roleLaid (s : State) (h : Half) : State := if s.ref.token = some h then s.releaseToken h 0x12 else s

theorem standsBy_roleLaid (s : State) (h g : Half) : StandsBy g s (s.roleLaid h) := by
  unfold State.roleLaid
  split
  · exact standsBy_releaseToken s h g 0x12
  · exact StandsBy.refl g s

theorem token_roleLaid (s : State) (h : Half) : (s.roleLaid h).ref.token = if s.ref.token = some h then none else s.ref.token := by
  unfold State.roleLaid
  split
  · exact token_releaseToken s h 0x12
  · rfl

/-- What a half that sleeps keeps. -/
def HalfSt.asleep (x : HalfSt) : HalfSt :=
  { x with ports := [], tck := { x.tck with tickSet := false },
           twn := { x.twn with service := false, acting := false, up := false, booted := false, off := true, unhealthy := true, cause := 0x8A, rejoin := false } }

theorem sleepHalf_eq (s : State) (h : Half) : sleepHalf s h = (s.roleLaid h).mh h HalfSt.asleep := rfl

theorem frame_mh_asleep (s : State) (h : Half) : Frame [.ports h, .tck h, .twn h] s (s.mh h HalfSt.asleep) := by
  simp (maxDischargeDepth := 8) [State.mh, HalfSt.asleep]

theorem asleep_sleepHalf (s : State) (h : Half) : Asleep s (sleepHalf s h) h := by
  have e : (sleepHalf s h).hf h = HalfSt.asleep ((s.roleLaid h).hf h) := by rw [sleepHalf_eq, hf_mh_same]
  exact ⟨by rw [e]; rfl, by rw [e]; rfl, by rw [e]; rfl, by rw [e]; exact (standsBy_roleLaid s h h).pts⟩

theorem standsBy_sleepHalf_other (s : State) (h : Half) : StandsBy (other h) s (sleepHalf s h) :=
  (standsBy_roleLaid s h (other h)).trans (StandsBy.of_frame (frame_mh_asleep _ h) (by simp [ownParts]))

theorem token_sleepHalf (s : State) (h : Half) : (sleepHalf s h).ref.token = if s.ref.token = some h then none else s.ref.token := by
  rw [sleepHalf_eq, (frame_mh_asleep _ h).ref (by simp), token_roleLaid]

/-- Both halves asleep. -/
def State.slept (s : State) : State := sleepHalf (sleepHalf s .A) .B

theorem token_slept (s : State) : s.slept.ref.token = none := by
  rw [State.slept, token_sleepHalf, token_sleepHalf]
  rcases s.ref.token with _ | _ | _ <;> rfl

theorem asleep_slept (s : State) (g : Half) : Asleep s s.slept g := by
  have a := asleep_sleepHalf s .A
  have b := asleep_sleepHalf (sleepHalf s .A) .B
  have sa : StandsBy .A (sleepHalf s .A) s.slept := standsBy_sleepHalf_other (sleepHalf s .A) .B
  have sb : StandsBy .B s (sleepHalf s .A) := standsBy_sleepHalf_other s .A
  cases g
  case A => exact ⟨sa.off.trans a.off, by rw [sa.twn]; exact a.service, sa.ports.trans a.ports, sa.pts.trans a.pts⟩
  case B => exact ⟨b.off, b.service, b.ports, b.pts.trans sb.pts⟩

theorem frame_slept (s : State) : Frame [.regs .twn, .blocks, .tck .A, .tck .B, .ports .A, .ports .B, .twn .A, .twn .B, .cln .A, .cln .B, .mbx .A, .mbx .B, .ref, .ho] s s.slept :=
  (frame_sleepHalf s .A).trans (frame_sleepHalf _ .B)

/-- A state of the halves that an operation of the shared I/O domain keeps. -/
theorem Asleep.of_frame {ps : List Part} {s t u : State} {g : Half} (a : Asleep s t g) (f : Frame ps t u) (m : ∀ p ∈ [.twn g, .ports g, .pts g], p ∉ ps) :
    Asleep s u g :=
  ⟨by rw [f.twn (m _ (by simp)), a.off], by rw [f.twn (m _ (by simp)), a.service], (f.ports (m _ (by simp))).trans a.ports, (f.pts (m _ (by simp))).trans a.pts⟩

theorem enterPower_one (s : State) : s.enterPower 1 = s.showPower 1 := rfl
theorem enterPower_two (s : State) : s.enterPower 2 = (s.showPower 2).slept := rfl
theorem enterPower_three (s : State) : s.enterPower 3 = (s.showPower 3).slept.lswResetN.dropRegs [.gpio] := rfl
theorem enterPower_four (s : State) : s.enterPower 4 = ({ (s.showPower 4).slept.dropRegs [.gpio, .lsw] with lsw := {} } : State).islandStart := rfl

theorem pstate_of_frame {ps : List Part} {s t : State} (f : Frame ps s t) (m : Part.regs .pwr ∉ ps) : t.pstate = s.pstate := rf_of_rg (f.rg m .A 8) 31 29

theorem rg_lswResetN_kept {b : Blk} (n : b ≠ .lsw) (s : State) (h : Half) (off : Nat) : s.lswResetN.rg b h off = s.rg b h off :=
  (frame_lswResetN s).rg (by simpa using n) h off

/-- S2: both halves sleep, and nothing else changes. -/
theorem asleep_enterPower_two (s : State) : (s.enterPower 2).pstate = 2 ∧ (s.enterPower 2).ref.token = none ∧ (s.enterPower 2).pwr = { s.pwr with entered := s.rtc } ∧
    ∀ g, Asleep s (s.enterPower 2) g := by
  have fs := frame_slept (s.showPower 2)
  have fp := frame_showPower s 2
  rw [enterPower_two]
  refine ⟨(pstate_of_frame fs (by simp)).trans (pstate_showPower (by decide) s), token_slept _, (fs.pwr (by simp)).trans (pwr_showPower s 2), fun g => ?_⟩
  obtain ⟨off, service, ports, pts⟩ := asleep_slept (s.showPower 2) g
  exact ⟨off, service, ports, pts.trans (fp.pts (by simp))⟩

/-- S3: the shared I/O domain keeps the load switches with HOLD alone. -/
theorem asleep_enterPower_three (s : State) : (s.enterPower 3).pstate = 3 ∧ (s.enterPower 3).ref.token = none ∧ (s.enterPower 3).pwr = { s.pwr with entered := s.rtc } ∧
    (∀ off, (s.enterPower 3).rg .gpio .A off = resetWord .gpio .A off) ∧ ∀ g, Asleep s (s.enterPower 3) g := by
  have fs := frame_slept (s.showPower 3)
  have fp := frame_showPower s 3
  have fl : Frame [.regs .lsw, .regs .gpio, .lsw] (s.showPower 3).slept (s.enterPower 3) :=
    ((frame_lswResetN _).mono (by simp)).trans ((frame_dropRegs_named _ [.gpio]).mono (by simp))
  refine ⟨?_, ?_, ?_, fun off => rg_dropRegs (by decide) (s.showPower 3).slept.lswResetN off, fun g => ?_⟩
  · rw [pstate_of_frame fl (by simp), pstate_of_frame fs (by simp), pstate_showPower (by decide)]
  · rw [fl.ref (by simp), token_slept]
  · rw [fl.pwr (by simp), fs.pwr (by simp), pwr_showPower]
  · obtain ⟨off, service, ports, pts⟩ := (asleep_slept (s.showPower 3) g).of_frame fl (by simp)
    exact ⟨off, service, ports, pts.trans (fp.pts (by simp))⟩

/-- S4: the shared I/O domain and the safety outputs are off. -/
theorem asleep_enterPower_four (s : State) : (s.enterPower 4).pstate = 4 ∧ (s.enterPower 4).lsw = {} ∧ (s.enterPower 4).pwr = { s.pwr with entered := s.rtc } ∧
    (∀ z < 8, (s.enterPower 4).zone z = { since := ((s.enterPower 4).zone z).since }) ∧ (∀ off, (s.enterPower 4).rg .lsw .A off = resetWord .lsw .A off) ∧
    (∀ off, (s.enterPower 4).rg .gpio .A off = resetWord .gpio .A off) ∧ ∀ g, ((s.enterPower 4).hf g).twn.off = true := by
  have fs := frame_slept (s.showPower 4)
  have fd : Frame [.regs .gpio, .regs .lsw, .lsw] (s.showPower 4).slept { (s.showPower 4).slept.dropRegs [.gpio, .lsw] with lsw := {} } := by
    have fl : Frame [.lsw] ((s.showPower 4).slept.dropRegs [.gpio, .lsw]) { (s.showPower 4).slept.dropRegs [.gpio, .lsw] with lsw := {} } := by simp [Frame.refl]
    exact ((frame_dropRegs_named _ [.gpio, .lsw]).mono (by simp)).trans (fl.mono (by simp))
  have fi := frame_islandStart { (s.showPower 4).slept.dropRegs [.gpio, .lsw] with lsw := {} }
  rw [enterPower_four]
  refine ⟨?_, fi.lsw (by simp), ?_, fun z hz => zone_islandStart_fresh hz _, fun off => ?_, fun off => ?_, fun g => ?_⟩
  · rw [pstate_of_frame fi (by simp), pstate_of_frame fd (by simp), pstate_of_frame fs (by simp), pstate_showPower (by decide)]
  · rw [fi.pwr (by simp), fd.pwr (by simp), fs.pwr (by simp), pwr_showPower]
  · exact (fi.rg (by simp) .A off).trans (rg_dropRegs (l := [.gpio, .lsw]) (by decide) (s.showPower 4).slept off)
  · exact (fi.rg (by simp) .A off).trans (rg_dropRegs (l := [.gpio, .lsw]) (by decide) (s.showPower 4).slept off)
  · rw [fi.twn (by simp), fd.twn (by simp), (asleep_slept _ g).off]

/-! ### Waking (R638, R639, R642) -/

/-- Both halves awake. -/
def State.awake (s : State) : State := wakeHalf (wakeHalf s .A) .B

theorem wakeUp_one {s : State} (p : s.pstate = 1) : s.wakeUp = s.showPower 0 := by simp [State.wakeUp, p]
theorem wakeUp_two {s : State} (p : s.pstate = 2) : s.wakeUp = (s.showPower 0).awake := by simp [State.wakeUp, p, State.awake]
theorem wakeUp_three {s : State} (p : s.pstate = 3) : s.wakeUp = ((s.showPower 0).awake.setCause .A 7).setCause .B 7 := by simp [State.wakeUp, p, State.awake]

/-- The points from the flash, the public values gone. -/
def HalfSt.restored (x : HalfSt) : HalfSt := { x with pts := flashPoints x, pub := {} }

theorem frame_restored (s : State) : Frame [.pts .A, .pts .B, .pub .A, .pub .B] s (s.mBoth HalfSt.restored) := by
  show Frame _ s (s.mBoth fun x => { x with pts := flashPoints x, pub := {} })
  simp (maxDischargeDepth := 40)

/-- What a start from S4 restores. -/
def State.storeRestored (s : State) : State :=
  ((s.mBoth HalfSt.restored).mMet fun x => { x with battery := 0 }).mLkt fun x => { x with starting := max 1 x.starting }

theorem hf_storeRestored (s : State) (h : Half) : s.storeRestored.hf h = HalfSt.restored (s.hf h) := hf_mBoth s HalfSt.restored h
theorem battery_storeRestored (s : State) : s.storeRestored.met.battery = 0 := rfl
theorem lkt_storeRestored (s : State) : s.storeRestored.lkt = { s.lkt with starting := max 1 s.lkt.starting } := rfl

theorem frame_storeRestored (s : State) : Frame [.pts .A, .pts .B, .pub .A, .pub .B, .met, .lkt] s s.storeRestored :=
  (((frame_restored s).mono (by simp)).trans ((frame_mMet _ _).mono (by simp))).trans ((frame_mLkt _ _).mono (by simp))

theorem wakeUp_four {s : State} (p : s.pstate = 4) : s.wakeUp = (((s.showPower 0).awake.setCause .A 8).setCause .B 8).storeRestored := by
  simp [State.wakeUp, p, State.awake]
  rfl

theorem frame_awake (s : State) : Frame [.twn .A, .twn .B] s s.awake := (frame_wakeHalf s .A).trans (frame_wakeHalf _ .B)

theorem twn_awake (s : State) (h : Half) : (s.awake.hf h).twn = { (s.hf h).twn with off := (s.hf h).twn.held, booted := !(s.hf h).twn.held } := by
  have fb : Frame [.twn .B] (wakeHalf s .A) s.awake := frame_mTwn _ .B _
  have fa : Frame [.twn .A] s (wakeHalf s .A) := frame_mTwn _ .A _
  cases h
  case A =>
    rw [fb.twn (by simp)]
    exact twn_mTwn s .A _
  case B =>
    rw [← fa.twn (h := .B) (by simp)]
    exact twn_mTwn (wakeHalf s .A) .B _

/-- Both halves show the cause of their start. -/
theorem causes_setCauses {cause : Nat} (hc : cause < 256) (s : State) :
    ((s.setCause .A cause).setCause .B cause).rf .pwr .A 0x0C 15 8 = cause ∧ ((s.setCause .A cause).setCause .B cause).rf .pwr .A 0x0C 7 0 = cause := by
  refine ⟨?_, rf_srf_same (by decide) (by decide) hc _ _ _ _⟩
  exact (rf_srf_apart (by decide) (by decide) (by decide) _ _ _ _ _).trans (rf_srf_same (by decide) (by decide) hc s _ _ _)

theorem rg_setCauses {off : Nat} (n : off ≠ 0x0C) (s : State) (c d : Nat) : ((s.setCause .A c).setCause .B d).rg .pwr .A off = s.rg .pwr .A off :=
  (rg_srg_other _ .pwr .A _ n.symm).trans (rg_srg_other s .pwr .A _ n.symm)

/-- A wake-up shows S0; beyond that it writes the causes of the starts alone. -/
theorem rg_wakeUp {off : Nat} (ne : off ≠ 0x0C) (s : State) : s.wakeUp.rg .pwr .A off = (s.showPower 0).rg .pwr .A off := by
  unfold State.wakeUp
  extract_lets n s₁ s₂ s₃ s₄
  have e₂ : s₂.rg .pwr .A off = s₁.rg .pwr .A off := by
    unfold s₂
    split
    · exact (frame_awake s₁).rg (by simp) .A off
    · rfl
  have e₃ : s₃.rg .pwr .A off = s₂.rg .pwr .A off := by
    unfold s₃
    split
    · exact rg_setCauses ne s₂ 7 7
    · split
      · exact rg_setCauses ne s₂ 8 8
      · rfl
  split
  · have f₄ : Frame [.pts .A, .pts .B, .pub .A, .pub .B, .met, .lkt] s₃ (s₄.mLkt fun x => { x with starting := max 1 x.starting }) := frame_storeRestored s₃
    rw [f₄.rg (by simp), e₃, e₂]
  · rw [e₃, e₂]

theorem pstate_wakeUp (s : State) : s.wakeUp.pstate = 0 := (rf_of_rg (rg_wakeUp (by decide) s) 31 29).trans (pstate_showPower (by decide) s)

theorem target_wakeUp (s : State) : s.wakeUp.rf .pwr .A 0x04 31 29 = 0 := (rf_of_rg (rg_wakeUp (by decide) s) 31 29).trans (target_showPower (by decide) s)

theorem rb_wakeUp {i : Nat} (hi : i < 29) (s : State) : s.wakeUp.rb .pwr .A 0x08 i = s.rb .pwr .A 0x08 i := by
  rw [State.rb, rg_wakeUp (by decide)]
  exact rb_showPower hi s 0

/-- From S2 the halves leave their sleep where they are not held. -/
theorem twn_awake_shown (s : State) (h : Half) :
    (((s.showPower 0).awake).hf h).twn = { (s.hf h).twn with off := (s.hf h).twn.held, booted := !(s.hf h).twn.held } := by
  rw [twn_awake, (frame_showPower s 0).twn (by simp)]

theorem frame_setCauses (s : State) (c d : Nat) : Frame [.regs .pwr] s ((s.setCause .A c).setCause .B d) := (frame_setCause s .A c).trans (frame_setCause _ .B d)

theorem frame_awake_shown (s : State) : Frame [.regs .pwr, .twn .A, .twn .B, .pwr] s (s.showPower 0).awake :=
  ((frame_showPower s 0).mono (by simp)).trans ((frame_awake _).mono (by simp))

theorem exec_wake_of {s : State} {src : WakeSrc} (w : s.wakes src = true) : exec (.wake src) s = .next s.wakeUp := if_pos w
theorem exec_wake_not {s : State} {src : WakeSrc} (w : s.wakes src = false) : exec (.wake src) s = .next s := if_neg (by simp [w])

theorem ends_wake_three {s : State} {src : WakeSrc} (w : s.wakes src = true) (p : s.pstate = 3) :
    Ends (.wake src) s fun t => t.pstate = 0 ∧ t.rf .pwr .A 0x0C 15 8 = 7 ∧ t.rf .pwr .A 0x0C 7 0 = 7 ∧
        (∀ h, (t.hf h).twn.off = (s.hf h).twn.held ∧ (t.hf h).twn.booted = !(s.hf h).twn.held) ∧ Frame [.regs .pwr, .twn .A, .twn .B, .pwr] s t := by
  have fc := frame_setCauses (s.showPower 0).awake 7 7
  obtain ⟨ca, cb⟩ := causes_setCauses (cause := 7) (by decide) (s.showPower 0).awake
  refine Ends.of_next (exec_wake_of w) ⟨pstate_wakeUp s, ?_, ?_, fun h => ⟨?_, ?_⟩, ?_⟩
  · rw [wakeUp_three p, ca]
  · rw [wakeUp_three p, cb]
  · rw [wakeUp_three p, fc.twn (by simp), twn_awake_shown]
  · rw [wakeUp_three p, fc.twn (by simp), twn_awake_shown]
  · rw [wakeUp_three p]
    exact (frame_awake_shown s).trans (fc.mono (by simp))

theorem ends_wake_four {s : State} {src : WakeSrc} (w : s.wakes src = true) (p : s.pstate = 4) :
    Ends (.wake src) s fun t => t.pstate = 0 ∧ (∀ h, (t.hf h).pts = flashPoints (s.hf h) ∧ (t.hf h).pub = {} ∧ (t.hf h).twn.off = (s.hf h).twn.held) ∧ t.met.battery = 0 ∧
        t.lkt = { s.lkt with starting := max 1 s.lkt.starting } ∧ t.rf .pwr .A 0x0C 15 8 = 8 ∧ t.rf .pwr .A 0x0C 7 0 = 8 ∧
        Frame [.regs .pwr, .pts .A, .pts .B, .pub .A, .pub .B, .twn .A, .twn .B, .met, .lkt, .pwr] s t := by
  have fa := frame_awake_shown s
  have fc := frame_setCauses (s.showPower 0).awake 8 8
  obtain ⟨ca, cb⟩ := causes_setCauses (cause := 8) (by decide) (s.showPower 0).awake
  have fr := frame_storeRestored (((s.showPower 0).awake.setCause .A 8).setCause .B 8)
  refine Ends.of_next (exec_wake_of w) ⟨pstate_wakeUp s, fun h => ⟨?_, ?_, ?_⟩, ?_, ?_, ?_, ?_, ?_⟩
  · rw [wakeUp_four p, hf_storeRestored]
    exact flashPoints_congr ((fc.pts (by simp)).trans (fa.pts (by simp))) ((fc.saved (by simp)).trans (fa.saved (by simp)))
  · rw [wakeUp_four p, hf_storeRestored, HalfSt.restored]
  · rw [wakeUp_four p, fr.twn (by simp), fc.twn (by simp), twn_awake_shown]
  · rw [wakeUp_four p, battery_storeRestored]
  · rw [wakeUp_four p, lkt_storeRestored, fc.lkt (by simp), fa.lkt (by simp)]
  · rw [wakeUp_four p, rf_of_rg (fr.rg (by simp) .A 0x0C), ca]
  · rw [wakeUp_four p, rf_of_rg (fr.rg (by simp) .A 0x0C), cb]
  · rw [wakeUp_four p]
    exact ((fa.mono (by simp)).trans (fc.mono (by simp))).trans (fr.mono (by simp))

/-- The button wakes from S1 to S4. -/
theorem wakes_button_of_pstate {s t : State} (e : t.pstate = s.pstate) : t.wakes .button = s.wakes .button := by
  unfold State.wakes
  rw [e]

/-- Nothing wakes from S0, a feed never does, and a doorbell not from S3 down. -/
theorem wakes_not (s : State) : s.wakes .feed = false ∧ (s.pstate = 0 → ∀ src, s.wakes src = false) ∧ (3 ≤ s.pstate → s.wakes .doorbell = false) := by
  refine ⟨rfl, fun p src => ?_, fun p => ?_⟩
  · cases src <;> simp [State.wakes, p]
  · simp only [State.wakes, Bool.or_eq_false_iff, beq_eq_false_iff_ne]
    omega

theorem exec_wakeTimerExpiry_of {s : State} {n : Nat} (e : s.rf .pwr .A 0x04 15 0 = n) (hn : 0 < n) (ht : s.pwr.entered + 32768 * n ≤ s.rtc) (h₁ : 1 ≤ s.pstate)
    (h₄ : s.pstate ≤ 4) : exec .wakeTimerExpiry s = .next s.wakeUp :=
  if_pos ⟨by rw [e]; omega, by rw [e]; exact ht, h₁, h₄⟩

theorem exec_wakeTimerExpiry_not {s : State}
    (h : s.rf .pwr .A 0x04 15 0 = 0 ∨ s.rtc < s.pwr.entered + 32768 * s.rf .pwr .A 0x04 15 0 ∨ s.pstate = 0 ∨ 4 < s.pstate) : exec .wakeTimerExpiry s = .next s :=
  if_neg fun ⟨w, t, p, q⟩ => by omega

/-! ### The service button (R635) -/

/-- The button no longer stuck. -/
def State.unstuck (s : State) : State := s.mPwr fun p => { p with stuck := false }

/-- A press is counted, and the check value shows for 10 s. -/
def State.pressed (s : State) : State := (s.unstuck.srf .pwr .A 0x08 26 26 1).mBil fun b => { b with ldsp := { b.ldsp with chk := s.now + 200000 } }

/-- A recovery request is counted and reported. -/
def State.recoveryAsked (s : State) : State := (s.unstuck.srf .pwr .A 0x08 25 25 1).evShared 4 1 0x0F05 [2]

theorem frame_unstuck (s : State) : Frame [.pwr] s s.unstuck := frame_mPwr s _

theorem frame_recoveryAsked (s : State) : Frame (.regs .pwr :: .pwr :: bothMbx) s s.recoveryAsked :=
  (((frame_unstuck s).mono (by simp)).trans ((frame_srf _ .pwr .A 0x08 25 25 1).mono (by simp))).trans ((frame_evShared _ 4 1 0x0F05 [2]).mono (by simp +contextual))

section
variable {s : State} {ms gap : Nat} (up : s.pwr.up = true) (ok : s.pwr.stuck = false ∨ 100 ≤ gap)
include up ok

theorem svcBtn_taken : ¬ ((!s.pwr.up || s.pwr.stuck && decide (gap < 100)) = true) := by
  rcases ok with k | k
  · simp [up, k]
  · simp [up, Nat.not_lt.2 k]

/-- A press shows the check value for 10 s. -/
theorem exec_svcBtnRelease_press (h30 : 30 ≤ ms) (h5000 : ms < 5000) :
    exec (.svcBtnRelease ms gap) s = .next (if s.pressed.wakes .button then s.pressed.wakeUp else s.pressed) := by
  show execSvcBtnRelease ms gap s = _
  unfold execSvcBtnRelease
  rw [if_neg (svcBtn_taken up ok), if_pos (show ms ≤ 30000 by omega), if_neg (by omega), if_pos h5000]
  rfl

/-- A long press is a recovery request of the half without the token, or of both. -/
theorem exec_svcBtnRelease_request (h5000 : 5000 ≤ ms) (h30000 : ms ≤ 30000) :
    exec (.svcBtnRelease ms gap) s = .next (match s.ref.token with
      | some h => s.recoveryAsked.enterRecovery (other h)
      | none => (s.recoveryAsked.enterRecovery .A).enterRecovery .B) := by
  have et : s.recoveryAsked.ref = s.ref := (frame_recoveryAsked s).ref (by simp [bothMbx])
  show execSvcBtnRelease ms gap s = _
  unfold execSvcBtnRelease
  rw [if_neg (svcBtn_taken up ok), if_pos (show ms ≤ 30000 by omega)]
  dsimp only
  rw [if_neg (by omega), if_neg (by omega)]
  show (match s.recoveryAsked.ref.token with
    | some h => Host.Outcome.next (s.recoveryAsked.enterRecovery (other h))
    | none => Host.Outcome.next ((s.recoveryAsked.enterRecovery .A).enterRecovery .B)) = _
  rw [et]
  cases s.ref.token <;> rfl

/-- A button held too long is stuck, and the device says so. -/
theorem exec_svcBtnStuck_of :
    exec (.svcBtnStuck gap) s = .next (((s.srf .pwr .A 0x08 24 24 1).mPwr fun p => { p with stuck := true }).evShared 4 1 0x0F05 [1]) :=
  if_neg (svcBtn_taken up ok)

end

theorem exec_svcBtn_tooSoon {s : State} {gap : Nat} (ms : Nat) (k : s.pwr.stuck = true) (g : gap < 100) :
    exec (.svcBtnRelease ms gap) s = .next s ∧ exec (.svcBtnStuck gap) s = .next s :=
  ⟨if_pos (by simp [k, g]), if_pos (by simp [k, g])⟩

/-- Where the button was not stuck, nothing is to be undone. -/
theorem unstuck_of_free {s : State} (k : s.pwr.stuck = false) : s.unstuck = s := by
  have e : ({ s.pwr with stuck := false } : PwrS) = s.pwr := by rw [← k]
  show { s with pwr := { s.pwr with stuck := false } } = s
  rw [e]

theorem exec_svcBtnRelease_nothing {s : State} {ms gap : Nat} (h : s.pwr.up = false ∨ 30000 < ms ∨ (s.pwr.stuck = false ∧ ms < 30)) :
    exec (.svcBtnRelease ms gap) s = .next s := by
  show execSvcBtnRelease ms gap s = _
  unfold execSvcBtnRelease
  split
  · rfl
  · next taken =>
    have up : s.pwr.up = true := by
      simp only [Bool.or_eq_true, Bool.not_eq_true', not_or, Bool.not_eq_false] at taken
      exact taken.1
    rcases h with h | h | ⟨k, h⟩
    · exact absurd up (by simp [h])
    · rw [if_neg (show ¬ ms ≤ 30000 by omega)]
      exact if_pos (.inr h)
    · rw [if_pos (show ms ≤ 30000 by omega)]
      exact (if_pos (.inl h)).trans (congrArg Host.Outcome.next (unstuck_of_free k))

theorem frame_pressed (s : State) : Frame [.regs .pwr, .bil, .pwr] s s.pressed :=
  (((frame_unstuck s).mono (by simp)).trans ((frame_srf _ .pwr .A 0x08 26 26 1).mono (by simp))).trans ((frame_mBil _ _).mono (by simp))

theorem rg_pressed (s : State) (off : Nat) : s.pressed.rg .pwr .A off = (s.unstuck.srf .pwr .A 0x08 26 26 1).rg .pwr .A off := (frame_mBil _ _).rg (by simp) .A off

theorem rb_pressed (s : State) : s.pressed.rb .pwr .A 0x08 26 = true := by
  rw [State.rb, rg_pressed]
  exact rb_srf_bit (by decide) s.unstuck .pwr .A 0x08 true

theorem pstate_pressed (s : State) : s.pressed.pstate = s.pstate := by
  rw [State.pstate, rf_of_rg (rg_pressed s 8), rf_srf_apart (by decide) (by decide) (by decide), rf_of_rg ((frame_unstuck s).rg (by simp) .A 8)]
  rfl

theorem bil_pressed (s : State) : s.pressed.bil = { s.bil with ldsp := { s.bil.ldsp with chk := s.now + 200000 } } := by
  show { (s.unstuck.srf .pwr .A 0x08 26 26 1).bil with ldsp := { (s.unstuck.srf .pwr .A 0x08 26 26 1).bil.ldsp with chk := s.now + 200000 } } = _
  rw [srf_bil, (frame_unstuck s).bil (by simp)]

theorem pwr_pressed (s : State) : s.pressed.pwr = { s.pwr with stuck := false } := by
  rw [State.pressed, (frame_mBil _ _).pwr (by simp), srf_pwr, State.unstuck, pwr_mPwr]

theorem rb_recoveryAsked (s : State) : s.recoveryAsked.rb .pwr .A 0x08 25 = true := by
  rw [State.recoveryAsked, State.rb, (frame_evShared _ 4 1 0x0F05 [2]).rg (by simp [bothMbx])]
  exact rb_srf_bit (by decide) s.unstuck .pwr .A 0x08 true

/-! ### A half that enters recovery (R635) -/

theorem frame_enterRecovery_upd (s : State) (h : Half) :
    Frame [.upd] ((s.resetHalf h 6).mTwn h fun t => { t with recov := true, held := t.held }) (s.enterRecovery h) := by
  unfold State.enterRecovery
  cases h
  · exact frame_mUpd ((s.resetHalf .A 6).mTwn .A fun t => { t with recov := true, held := t.held }) _
  · exact frame_mUpd ((s.resetHalf .B 6).mTwn .B fun t => { t with recov := true, held := t.held }) _

theorem standsBy_enterRecovery_other (s : State) (h : Half) : StandsBy (other h) s (s.enterRecovery h) :=
  ((standsBy_resetHalf_other s h 6).trans (StandsBy.of_frame (frame_mTwn _ h _) (by simp [ownParts]))).trans
    (StandsBy.of_frame (frame_enterRecovery_upd s h) (by simp [ownParts]))

theorem twn_enterRecovery (s : State) (h : Half) : ((s.enterRecovery h).hf h).twn = { ((s.resetHalf h 6).hf h).twn with recov := true } := by
  rw [(frame_enterRecovery_upd s h).twn (by simp), twn_mTwn]

/-- The half waits for its recovery, out of service. -/
theorem recovers_enterRecovery (s : State) (h : Half) : ((s.enterRecovery h).hf h).twn.recov = true ∧ ((s.enterRecovery h).hf h).twn.service = false := by
  obtain ⟨service, -⟩ := halfReset_resetHalf s h 6
  rw [twn_enterRecovery]
  exact ⟨rfl, service⟩

theorem token_enterRecovery (s : State) (h : Half) : (s.enterRecovery h).ref.token = if s.ref.token = some h then none else s.ref.token := by
  rw [(frame_enterRecovery_upd s h).ref (by simp), (frame_mTwn _ h _).ref (by simp), token_resetHalf]

theorem rg_enterRecovery_pwr {off : Nat} (n : off ≠ 0x0C) (s : State) (h : Half) : (s.enterRecovery h).rg .pwr .A off = s.rg .pwr .A off := by
  rw [(frame_enterRecovery_upd s h).rg (by simp), (frame_mTwn _ h _).rg (by simp), rg_resetHalf_pwr n]

theorem rb_enterRecovery (s : State) (h : Half) (i : Nat) : (s.enterRecovery h).rb .pwr .A 0x08 i = s.rb .pwr .A 0x08 i :=
  congrArg (bitAt · i) (rg_enterRecovery_pwr (by decide) s h)

/-- The half with the token keeps it, and the other one recovers. -/
theorem ends_svcBtnRelease_token {s : State} {ms gap : Nat} {h : Half} (up : s.pwr.up = true) (ok : s.pwr.stuck = false ∨ 100 ≤ gap) (h5000 : 5000 ≤ ms)
    (h30000 : ms ≤ 30000) (tk : s.ref.token = some h) :
    Ends (.svcBtnRelease ms gap) s fun t => t.rb .pwr .A 0x08 25 = true ∧ (t.hf (other h)).twn.recov = true ∧ (t.hf (other h)).twn.service = false ∧
        t.ref.token = some h ∧ (t.hf h).twn.recov = (s.hf h).twn.recov ∧ Raised t h 1 0x0F05 [2] := by
  have ex := exec_svcBtnRelease_request up ok h5000 h30000
  rw [tk] at ex
  have fa := frame_recoveryAsked s
  have b : StandsBy h s.recoveryAsked (s.recoveryAsked.enterRecovery (other h)) := by
    simpa using standsBy_enterRecovery_other s.recoveryAsked (other h)
  obtain ⟨recov, service⟩ := recovers_enterRecovery s.recoveryAsked (other h)
  refine Ends.of_next ex ⟨?_, recov, service, ?_, ?_, ?_⟩
  · exact (rb_enterRecovery _ _ 25).trans (rb_recoveryAsked s)
  · rw [token_enterRecovery, fa.ref (by simp [bothMbx]), tk, if_neg (by simp)]
  · rw [b.recov, fa.twn (by simp [bothMbx])]
  · exact Raised.keep b.events (raised_evShared _ 4 1 0x0F05 [2] h)

/-- With the token free both halves recover. -/
theorem ends_svcBtnRelease_free {s : State} {ms gap : Nat} (up : s.pwr.up = true) (ok : s.pwr.stuck = false ∨ 100 ≤ gap) (h5000 : 5000 ≤ ms)
    (h30000 : ms ≤ 30000) (tk : s.ref.token = none) :
    Ends (.svcBtnRelease ms gap) s fun t => t.rb .pwr .A 0x08 25 = true ∧ ∀ h, (t.hf h).twn.recov = true ∧ (t.hf h).twn.service = false := by
  have ex := exec_svcBtnRelease_request up ok h5000 h30000
  rw [tk] at ex
  have b : StandsBy .A (s.recoveryAsked.enterRecovery .A) ((s.recoveryAsked.enterRecovery .A).enterRecovery .B) :=
    standsBy_enterRecovery_other (s.recoveryAsked.enterRecovery .A) .B
  obtain ⟨recovA, serviceA⟩ := recovers_enterRecovery s.recoveryAsked .A
  refine Ends.of_next ex ⟨?_, fun h => ?_⟩
  · exact (rb_enterRecovery _ _ 25).trans ((rb_enterRecovery _ _ 25).trans (rb_recoveryAsked s))
  · cases h
    case A => exact ⟨by rw [b.recov, recovA], by rw [b.twn]; exact serviceA⟩
    case B => exact recovers_enterRecovery (s.recoveryAsked.enterRecovery .A) .B

/-! ### The clock messages (R54, R62, R81, R400) -/

/-- What an announcement sets. -/
def State.announced (s : State) (h : Half) (a : Bool) (n : Nat) : State := s.mTck h fun t => { t with master := a, annTicks := n }

theorem exec_ptpAnnounce_of {s : State} {h : Half} {d : Nat} (en : s.rb .tck h 0 30 = true) (dom : d = s.rf .tck h 0 23 16) (u : Nat) (v a : Bool) (n : Nat) :
    exec (.ptpAnnounceReceived h d u v a n) s =
      .next (let t := if a && decide (((s.announced h a n).hf h).tck.tstate = 0) then (s.announced h a n).setTstate h 1 else s.announced h a n
             if v then t.mBil fun b => { b with tai := u } else t) :=
  if_neg (by simp [en, dom])

theorem exec_ptpAnnounce_not {s : State} {h : Half} {d : Nat} (no : s.rb .tck h 0 30 = false ∨ d ≠ s.rf .tck h 0 23 16) (u : Nat) (v a : Bool) (n : Nat) :
    exec (.ptpAnnounceReceived h d u v a n) s = .next s :=
  if_pos (by simpa using no)

/-- A selected master takes the half out of FREERUN. -/
theorem announced_master (s : State) (h : Half) (a : Bool) (n : Nat) :
    let t := if a && decide (((s.announced h a n).hf h).tck.tstate = 0) then (s.announced h a n).setTstate h 1 else s.announced h a n
    (t.hf h).tck = { (s.hf h).tck with master := a, annTicks := n, tstate := if a && decide ((s.hf h).tck.tstate = 0) then 1 else (s.hf h).tck.tstate } ∧
      (a = true → (s.hf h).tck.tstate = 0 → ∃ e ∈ (t.hf h).mbx.events, e.code = 0x0101 ∧ e.sev = 1 ∧ e.detail.take 2 = [0, 1]) ∧ Frame (.tck h :: bothMbx) s t := by
  have fa : Frame [.tck h] s (s.announced h a n) := frame_mTck s h _
  have ea : ((s.announced h a n).hf h).tck = { (s.hf h).tck with master := a, annTicks := n } := tck_mTck s h _
  have es : ((s.announced h a n).hf h).tck.tstate = (s.hf h).tck.tstate := by rw [ea]
  dsimp only
  rw [es]
  by_cases c : (a && decide ((s.hf h).tck.tstate = 0)) = true
  · obtain ⟨ha, hz⟩ := Bool.and_eq_true_iff.1 c
    have hz : (s.hf h).tck.tstate = 0 := of_decide_eq_true hz
    rw [if_pos c, if_pos c]
    refine ⟨?_, fun _ _ => ?_, (fa.mono (by simp)).trans (frame_setTstate_half _ h 1)⟩
    · rw [tck_setTstate, ea]
    · obtain ⟨r, m, sev, code, det⟩ := raised_setTstate (n := 1) (show ((s.announced h a n).hf h).tck.tstate ≠ 1 by rw [es, hz]; decide)
      refine ⟨r, m, code, sev, ?_⟩
      rw [det, es, hz]
      rfl
  · rw [if_neg c, if_neg c]
    exact ⟨ea, fun ha hz => absurd (by simp [ha, hz]) c, fa.mono (by simp)⟩

theorem ends_ptpAnnounce_of {s : State} {h : Half} {d : Nat} (en : s.rb .tck h 0 30 = true) (dom : d = s.rf .tck h 0 23 16) (u : Nat) (v a : Bool) (n : Nat) :
    Ends (.ptpAnnounceReceived h d u v a n) s fun t =>
      (t.hf h).tck = { (s.hf h).tck with master := a, annTicks := n, tstate := if a && decide ((s.hf h).tck.tstate = 0) then 1 else (s.hf h).tck.tstate } ∧
        (a = true → (s.hf h).tck.tstate = 0 → ∃ e ∈ (t.hf h).mbx.events, e.code = 0x0101 ∧ e.sev = 1 ∧ e.detail.take 2 = [0, 1]) ∧
        t.bil = { s.bil with tai := if v then u else s.bil.tai } ∧ Frame (.tck h :: .bil :: bothMbx) s t := by
  have m := announced_master s h a n
  have ex := exec_ptpAnnounce_of en dom u v a n
  dsimp only at m ex
  generalize (if a && decide (((s.announced h a n).hf h).tck.tstate = 0) then (s.announced h a n).setTstate h 1 else s.announced h a n) = t at m ex
  obtain ⟨tck, event, ft⟩ := m
  cases v
  case false =>
    refine Ends.of_next ex ⟨tck, event, ?_, ft.mono (by simp +contextual)⟩
    exact ft.bil (by simp [bothMbx])
  case true =>
    have fb := frame_mBil t fun b => { b with tai := u }
    refine Ends.of_next ex ⟨?_, fun ha hz => ?_, ?_, (ft.mono (by simp +contextual)).trans (fb.mono (by simp))⟩
    · rw [if_pos rfl, fb.tck (by simp), tck]
    · rw [if_pos rfl, mbx_of_frame fb h (by simp)]
      exact event ha hz
    · show { t.bil with tai := u } = _
      rw [ft.bil (by simp [bothMbx])]
      rfl

end

end Sys2Proof.Machine

namespace Sys2Proof.Machine

section

/-- A request without the token is counted. -/
theorem gateOut_counts (s : State) (h : Half) : bitAt ((s.gateOut h).rg .loc h 0x10100) 29 = true ∧
    ((s.gateOut h).rg .loc h 0x10104).toNat = min 0xFFFFFFFF ((s.rg .loc h 0x10104).toNat + 1) := by
  constructor
  · rw [State.gateOut, rg_bump_other _ _ _ _ (by decide)]
    exact rb_srf_bit (by decide) s .loc h 0x10100 true
  · rw [State.gateOut, rg_bump_same, rg_srf_other _ _ _ _ _ _ (by decide), BitVec.toNat_ofNat]
    exact Nat.mod_eq_of_lt (by omega)

theorem veh_resetN (s : State) (cause : Nat) : (s.resetN cause).veh = [] := by
  rw [resetN_eq, State.vehGone]

theorem lkt_holdupOver (s : State) : s.holdupOver.lkt = { s.lkt with waiting := [] } := by
  have e : ((s.srf .pwr .A 0 2 2 0).mPwr fun p => { p with vhSwitch := false, step := 0 }).lkt = s.lkt := (frame_mPwr _ _).lkt (by simp)
  rw [State.holdupOver, State.mLkt, e]

theorem stage_moduleUp (s : State) : s.moduleUp.upd.stage = [] := rfl

/-- The cell is empty, and the meters show it (R382, R637). -/
theorem ends_s4BatteryToS5 {s : State} (b : s.pwr.batt = 1) (due : s.pwr.battAt + 3600 * 32768 * s.rf .met .A 0x704 7 0 ≤ s.rtc) :
    Ends .s4BatteryToS5 s fun t => t.pwr = { s.pwr with batt := 2 } ∧ t.met = { s.met with battery := 3 } ∧ Frame [.met, .pwr] s t :=
  Ends.of_next (u := (s.mPwr fun p => { p with batt := 2 }).mMet fun x => { x with battery := 3 }) (if_pos ⟨b, due⟩)
    ⟨rfl, rfl, ((frame_mPwr s _).mono (by simp)).trans ((frame_mMet _ _).mono (by simp))⟩

theorem exec_s4BatteryToS5_not {s : State} (h : s.pwr.batt ≠ 1 ∨ s.rtc < s.pwr.battAt + 3600 * 32768 * s.rf .met .A 0x704 7 0) :
    exec .s4BatteryToS5 s = .next s := if_neg fun ⟨b, due⟩ => h.elim (· b) (Nat.not_lt.2 due)

/-- A request that is denied shows why, and TARGET returns to S0. -/
theorem ends_powerStateRequest_denied {s : State} {h : Half} {n why : Nat} (tk : s.ref.token = some h) (ps : s.pstate = 0) (hw : why < 4)
    (e : s.powerTarget n = s.denyPower why) :
    Ends (.powerStateRequest h n) s fun t => t.rf .pwr .A 0x08 28 27 = why ∧ t.rf .pwr .A 0x04 31 29 = 0 ∧ t.pstate = 0 ∧ Frame [.regs .pwr] s t := by
  obtain ⟨shown, target, same⟩ := denied_denyPower hw s
  exact Ends.of_next ((exec_powerStateRequest_of tk n).trans (congrArg _ e)) ⟨shown, target, same.trans ps, frame_denyPower s why⟩

end

/-- Settles O45: a reset of both halves, their sleep and their wake-up are each said once (`AllReset`, `Asleep`, `wakeUp_…`), and every clause is one branch of its
command with those facts. -/
theorem holdUpAndPowerStates : Obligations.HoldUpAndPowerStates := by
  unfold Obligations.HoldUpAndPowerStates
  refine ⟨?resetTaken, ?resetIgnored, ?resetBetween, ?switch, ?holdupStart, ?holdupNot, ?halvesStop, ?halvesNot, ?islandsNot, ?islandsStop, ?endStopped, ?endEarly, ?endElse,
    ?moduleStart, ?moduleUp, ?charged, ?press, ?pressWakes, ?request, ?requestBoth, ?nothing, ?tooSoon, ?stuck, ?gated, ?range, ?asleep, ?busy, ?zones, ?flash, ?s1, ?s2s3, ?s4,
    ?wake1, ?wake2, ?wake3, ?wake4, ?wakeNot, ?timer, ?timerNot, ?battery, ?batteryNot, ?announce, ?announceNot⟩
  case resetTaken =>
    intro s n up hn
    obtain ⟨token, cans, mesh, halves, words⟩ := allReset_resetN s 1
    obtain ⟨causeA, causeB⟩ := causes_resetN (cause := 1) (by decide) s
    have kept {b : Blk} (m : b ∉ halfBlks) (k : b ∉ [Blk.can, .gpio, .rms, .lsw, .pwr]) (off : Nat) := rg_resetN_kept m k s .A 1 off
    exact Ends.of_next (exec_resetN_taken up hn) ⟨causeA, causeB, veh_resetN s 1, token, cans, mesh, halves, words,
      fun off => ⟨kept (by decide) (by decide) off, kept (by decide) (by decide) off, kept (by decide) (by decide) off⟩,
      fun c hc k hk => lswR_resetN hc hk s 1, frame_resetN_parts s 1⟩
  case resetIgnored => exact fun s n h => exec_resetN_ignored h
  case resetBetween => exact fun s n up h₁ h₂ => Ends.of_next (exec_resetN_between up h₁ h₂) (resetN_between s)
  case switch => exact fun s => Ends.of_next (u := s.mPwr fun p => { p with vhSwitch := true }) rfl ⟨rfl, frame_mPwr s _⟩
  case holdupStart =>
    intro s up h9 h8 sw h2
    refine Ends.of_next (exec_holdupStart_of up h9 h8 sw h2) ⟨?_, ?_, ((frame_srf s .pwr .A 0 2 2 1).mono (by simp)).trans ((frame_mPwr _ _).mono (by simp))⟩
    · rw [State.rb, (frame_mPwr _ _).rg (by simp)]
      exact rb_srf_bit (by decide) s .pwr .A 0 true
    · rw [pwr_mPwr, srf_pwr]
  case holdupNot => exact fun s h => exec_holdupStart_not h
  case halvesStop =>
    intro s v st hv
    obtain ⟨⟨token, cans, mesh, halves, words⟩, off, pwr, veh, vhold, frame⟩ := holdupHalvesStop_stops s v hv
    exact Ends.of_next (exec_holdupHalvesStop_of st hv) ⟨token, cans, mesh, halves, words, off, pwr, veh, vhold, frame.mono (by decide)⟩
  case halvesNot => exact fun s v h => Ends.of_next (exec_holdupHalvesStop_not h) ⟨rf_setVhold s v, frame_setVhold s v⟩
  case islandsNot => exact fun s v h => Ends.of_next (exec_holdupIslandsStop_not h) ⟨rf_setVhold s v, frame_setVhold s v⟩
  case islandsStop => exact fun s v st hv => ends_holdupIslandsStop_of st hv
  case endStopped =>
    intro s st
    obtain ⟨token, cans, mesh, halves, words⟩ := (allReset_resetN s.holdupOver 4).since fun h => StandsBy.of_frame (frame_holdupOver s) (by simp [ownParts])
    obtain ⟨causeA, causeB⟩ := causes_resetN (cause := 4) (by decide) s.holdupOver
    refine Ends.of_next (exec_holdupEnd_stopped st) ⟨causeA, causeB, token, cans, mesh, halves, words, ?_, ?_, ?_⟩
    · exact (pwr_resetN _ 4).trans (pwr_holdupOver s)
    · rw [State.rb, rg_resetN_pwr (by decide)]
      exact rb_holdupOver s
    · exact ((frame_holdupOver s).mono (by decide)).trans ((frame_resetN_parts _ 4).mono (by decide))
  case endEarly => exact fun s st => ends_holdupEnd_early st
  case endElse => exact fun s n₂ n₃ => Ends.of_next (exec_holdupEnd_else n₂ n₃) ⟨pwr_holdupOver s, rb_holdupOver s, lkt_holdupOver s, frame_holdupOver s⟩
  case moduleStart =>
    intro s up
    have fu := frame_moduleUp s
    obtain ⟨token, cans, mesh, halves, words⟩ := (allReset_por s).of_frame fu (by simp [ownParts])
    obtain ⟨lsw, zones, outs, lswWords⟩ := (islandsOut_por s).of_frame fu (by simp)
    have met : s.moduleUp.met = { s.met with pulses := [], warm := 0, battery := 0 } := (fu.met (by simp)).trans (met_por s)
    exact Ends.of_next (exec_moduleStart_down up) ⟨pwr_moduleUp s, token, cans, mesh, halves, words, lsw,
      fun off => ⟨lswWords off, (fu.rg (by simp) .A off).trans (rg_por_pwr s off)⟩, zones, outs, by rw [met], by rw [met], stage_moduleUp s, frame_moduleUp_parts s⟩
  case moduleUp => exact fun s up => exec_moduleStart_up up
  case charged => exact fun s v => ends_vholdCharged s v
  case press =>
    intro s ms gap up ok h30 h5000 w
    have ex := exec_svcBtnRelease_press up ok h30 h5000
    rw [wakes_button_of_pstate (pstate_pressed s), w, if_neg (by decide)] at ex
    exact Ends.of_next ex ⟨rb_pressed s, by rw [bil_pressed], by rw [bil_pressed], pwr_pressed s, frame_pressed s⟩
  case pressWakes =>
    intro s ms gap up ok h30 h5000 w
    have ex := exec_svcBtnRelease_press up ok h30 h5000
    rw [wakes_button_of_pstate (pstate_pressed s), w, if_pos rfl] at ex
    have fw := frame_wakeUp s.pressed
    refine Ends.of_next ex ⟨?_, ?_, ?_, pstate_wakeUp _, ?_⟩
    · exact (rb_wakeUp (by decide) s.pressed).trans (rb_pressed s)
    · rw [fw.bil (by simp), bil_pressed]
    · rw [fw.bil (by simp), bil_pressed]
    · exact ((frame_pressed s).mono (by simp)).trans (fw.mono (by simp))
  case request => exact fun s ms gap h up ok h5000 h30000 tk => ends_svcBtnRelease_token up ok h5000 h30000 tk
  case requestBoth => exact fun s ms gap up ok h5000 h30000 tk => ends_svcBtnRelease_free up ok h5000 h30000 tk
  case nothing => exact fun s ms gap h => exec_svcBtnRelease_nothing h
  case tooSoon => exact fun s ms gap k g => exec_svcBtn_tooSoon ms k g
  case stuck =>
    intro s gap up ok
    have fm := frame_mPwr (s.srf .pwr .A 0x08 24 24 1) fun p => { p with stuck := true }
    have fe := frame_evShared ((s.srf .pwr .A 0x08 24 24 1).mPwr fun p => { p with stuck := true }) 4 1 0x0F05 [1]
    refine Ends.of_next (exec_svcBtnStuck_of up ok) ⟨?_, ?_, fun h => raised_evShared _ 4 1 0x0F05 [1] h, ?_⟩
    · rw [State.rb, fe.rg (by simp [bothMbx]), fm.rg (by simp)]
      exact rb_srf_bit (by decide) s .pwr .A 0x08 true
    · rw [fe.pwr (by simp [bothMbx]), pwr_mPwr, srf_pwr]
    · exact (((frame_srf s .pwr .A 0x08 24 24 1).mono (by simp)).trans (fm.mono (by simp))).trans (fe.mono (by simp +contextual))
  case gated =>
    intro s h n tk
    obtain ⟨bit, count⟩ := gateOut_counts s h
    exact Ends.of_next (exec_powerStateRequest_gated tk n) ⟨bit, count, frame_gateOut s h⟩
  case range =>
    intro s h n tk hn
    refine Ends.of_next ((exec_powerStateRequest_of tk n).trans (congrArg _ (powerTarget_range hn s))) ⟨?_, ?_, frame_srf s .pwr .A 0x04 31 29 0⟩
    · exact rf_srf_same (by decide) (by decide) (by decide) s .pwr .A 0x04
    · exact rf_srf_word (by decide) s 31 29 0 31 29
  case asleep => exact fun s h n tk h₁ h₄ ps => (exec_powerStateRequest_of tk n).trans (congrArg _ (powerTarget_asleep h₁ h₄ ps))
  case busy => exact fun s h n tk h₁ h₄ ps busy => ends_powerStateRequest_denied tk ps (by decide) (powerTarget_busy h₁ h₄ ps busy)
  case zones => exact fun s h tk ps idle loud => ends_powerStateRequest_denied tk ps (by decide) (powerTarget_zones ps idle loud)
  case flash => exact fun s h g tk ps idle quiet hold => ends_powerStateRequest_denied tk ps (by decide) (powerTarget_flash ps idle quiet hold)
  case s1 =>
    intro s h tk ps idle
    have e : s.powerTarget 1 = s.showPower 1 := powerTarget_enters (by decide) (by decide) ps idle (fun e => absurd e (by decide)) fun e => absurd e (by decide)
    exact Ends.of_next ((exec_powerStateRequest_of tk 1).trans (congrArg _ e))
      ⟨pstate_showPower (by decide) s, target_showPower (by decide) s, pwr_showPower s 1, frame_showPower s 1⟩
  case s2s3 =>
    intro s h n tk hn ps idle
    have e : s.powerTarget n = s.enterPower n := powerTarget_enters (by omega) (by omega) ps idle (by omega) (by omega)
    refine Ends.of_next ((exec_powerStateRequest_of tk n).trans (congrArg _ e)) ?_
    rcases hn with rfl | rfl
    · obtain ⟨shown, token, pwr, halves⟩ := asleep_enterPower_two s
      exact ⟨shown, token, pwr, fun no => absurd no (by decide), fun g => ⟨(halves g).off, (halves g).service, (halves g).ports, (halves g).pts⟩⟩
    · obtain ⟨shown, token, pwr, gpio, halves⟩ := asleep_enterPower_three s
      exact ⟨shown, token, pwr, fun _ => gpio, fun g => ⟨(halves g).off, (halves g).service, (halves g).ports, (halves g).pts⟩⟩
  case s4 =>
    intro s h tk ps idle quiet freeA freeB
    have e : s.powerTarget 4 = s.enterPower 4 := powerTarget_enters (by decide) (by decide) ps idle (fun _ => quiet) fun _ => ⟨freeA, freeB⟩
    exact Ends.of_next ((exec_powerStateRequest_of tk 4).trans (congrArg _ e)) (asleep_enterPower_four s)
  case wake1 =>
    intro s src w p
    refine Ends.of_next ((exec_wake_of w).trans (congrArg _ (wakeUp_one p))) ?_
    exact ⟨pstate_showPower (by decide) s, target_showPower (by decide) s, pwr_showPower s 0, frame_showPower s 0⟩
  case wake2 =>
    intro s src w p
    have fa := frame_awake_shown s
    refine Ends.of_next ((exec_wake_of w).trans (congrArg _ (wakeUp_two p))) ⟨?_, fun h => ⟨?_, ?_, fa.pts (by simp)⟩, fa⟩
    · rw [← wakeUp_two p, pstate_wakeUp]
    · rw [twn_awake_shown]
    · rw [twn_awake_shown]
  case wake3 => exact fun s src w p => ends_wake_three w p
  case wake4 => exact fun s src w p => ends_wake_four w p
  case wakeNot => exact fun s => ⟨fun src w => exec_wake_not w, wakes_not s⟩
  case timer =>
    intro s n e hn ht h₁ h₄
    refine Ends.of_next (exec_wakeTimerExpiry_of e hn ht h₁ h₄) ⟨pstate_wakeUp s, target_wakeUp s, fun p => ?_, (frame_wakeUp s).mono (by simp)⟩
    rw [wakeUp_one p]
    exact frame_showPower s 0
  case timerNot => exact fun s h => exec_wakeTimerExpiry_not h
  case battery => exact fun s b due => ends_s4BatteryToS5 b due
  case batteryNot => exact fun s h => exec_s4BatteryToS5_not h
  case announce => exact fun s h d u n v a en dom => ends_ptpAnnounce_of en dom u v a n
  case announceNot => exact fun s h d u n v a no => exec_ptpAnnounce_not no u v a n

end Sys2Proof.Machine

/-!
O29, the cabinet remotes (R108, R109, R240 to R248). A command at the remote's edge puts one cabinet in place of the one before (`State.withCab`): the one the
applied command asks for (`Commanded`), or, in LINK_LOST, the one further down its ramp.
-/

namespace Sys2Proof.Machine

section

/-! ### One cabinet replaced -/

/-- The state with the cabinet at port `p` replaced. -/
def State.withCab (s : State) (p : Nat) (c : CabR) : State := { s with cabs := put {} s.cabs p c }

@[simp] theorem cab_withCab (s : State) (p : Nat) (c : CabR) : (s.withCab p c).cab p = c := look_put_same ..
theorem cab_withCab_other (s : State) (c : CabR) {p q : Nat} (n : q ≠ p) : (s.withCab p c).cab q = s.cab q := look_put_other _ _ _ n.symm
@[simp] theorem cab_drew (s : State) (n p : Nat) : (s.drew n).cab p = s.cab p := rfl
theorem frame_withCab (s : State) (p : Nat) (c : CabR) : Frame [.cabs] s (s.withCab p c) := by simp [State.withCab]

theorem frame_withCab_drew (s : State) (p : Nat) (c : CabR) (n : Nat) : Frame [.free, .cabs] s ((s.withCab p c).drew n) :=
  ((frame_withCab s p c).mono (by simp)).trans ((frame_drew _ n).mono (by simp))

/-! ### The command at the remote's edge (R108, R109, R240 to R248) -/

/-- A command of other than zero current is applied at the remote (R109). -/
def State.cabLive (s : State) (p : Nat) : Bool := !(s.rem p).zeroCur && !(s.rem p).applied.isEmpty

/-- The cabinet `c` is as the command applied at port `p` asks for: its groups, OFF and without switching phases where no current is commanded, its carrier, and
the carrier's offset where the command asks for no dither. -/
structure Commanded (s : State) (p : Nat) (c : CabR) : Prop where
  groups : c.groups = (List.range 4).map fun g => if s.cabLive p then groupCmd (appliedWord s p 0) g else 0
  unswitched : s.cabLive p = false → c.phases = []
  dith : c.dith = (s.cab p).dith
  periods : c.periods = appliedWord s p 1 % 32
  cphase : c.cphase = appliedWord s p 3 % 256
  undithered : (appliedWord s p 1).testBit 15 = false → c.delta = 0

theorem exec_cabinetCommandApply_linked {s : State} {p : Nat} (hp : p < 32) (hl : (s.rem p).linkLost = false) :
    ∃ c, Commanded s p c ∧ exec (.cabinetCommandApply p) s = .next ((s.withCab p c).drew 50) := by
  have ex : exec (.cabinetCommandApply p) s = execCabinetCommandApply p s := rfl
  unfold execCabinetCommandApply at ex
  extract_lets q r live gs car m k dither ph c c' at ex
  have ec : c' = c := if_neg (by simp [r, hl])
  rw [if_neg (by omega), ec] at ex
  refine ⟨c, ⟨rfl, fun n => ?_, rfl, rfl, rfl, fun n => ?_⟩, ex⟩
  · have el : live = false := n
    have eg : gs = [0, 0, 0, 0] := by simp [gs, el, List.range_succ]
    show ((List.range 4).filter fun g => gs.getD g 0 == 1).flatMap _ = []
    rw [eg]
    rfl
  · have ed : dither = false := by simp [dither, car, n]
    simp [c, ed]

theorem exec_cabinetCommandApply_lost {s : State} {p : Nat} (hp : p < 32) (hl : (s.rem p).linkLost = true) :
    exec (.cabinetCommandApply p) s = .next ((s.withCab p ((s.cab p).ramp (s.rem p).sinceL s.freeVal)).drew 50) := by
  show execCabinetCommandApply p s = _
  unfold execCabinetCommandApply
  extract_lets q r live gs car m k dither ph c c'
  have ec : c' = q.ramp r.sinceL s.freeVal := if_pos hl
  rw [if_neg (by omega), ec]
  rfl

theorem exec_cabinetCommandApply_none {s : State} {p : Nat} (hp : 32 ≤ p) : exec (.cabinetCommandApply p) s = .next s := if_pos hp

/-- Where no current is commanded every group is OFF, and where it is, each is as its nibble says. -/
theorem Commanded.groups_off {s : State} {p : Nat} {c : CabR} (a : Commanded s p c) (n : s.cabLive p = false) : c.groups = [0, 0, 0, 0] := by
  simp [a.groups, n, List.range_succ]
theorem Commanded.groups_live {s : State} {p : Nat} {c : CabR} (a : Commanded s p c) (n : s.cabLive p = true) :
    c.groups = (List.range 4).map fun g => groupCmd (appliedWord s p 0) g := by
  simp [a.groups, n]

/-! ### The ramp in LINK_LOST (R108) -/

/-- The ramp begins at edge L: it is 1 to 400 ticks long, and the currents are those of the whole ramp. -/
theorem ramp_begins {q : CabR} (hq : q.phases ≠ []) (free : Nat → Nat) : 1 ≤ (q.ramp 0 free).rampLen ∧ (q.ramp 0 free).rampLen ≤ 400 ∧
    (q.ramp 0 free).fade = (q.ramp 0 free).rampLen ∧ (q.ramp 0 free).groups = q.groups ∧ (q.ramp 0 free).phases.map (·.1) = q.phases.map (·.1) := by
  unfold CabR.ramp
  extract_lets len
  have el : len = 1 + free 1 % 400 := if_pos ⟨rfl, hq⟩
  rw [if_pos (by omega)]
  exact ⟨by show 1 ≤ len; omega, by show len ≤ 400; omega, rfl, rfl, by simp [Function.comp_def]⟩

theorem ramp_goesOn {q : CabR} {n : Nat} (h₀ : 0 < n) (hn : n < q.rampLen) (free : Nat → Nat) :
    (q.ramp n free).rampLen = q.rampLen ∧ (q.ramp n free).fade = q.rampLen - n ∧ (q.ramp n free).groups = q.groups := by
  unfold CabR.ramp
  extract_lets len
  have el : len = q.rampLen := if_neg (by omega)
  rw [el, if_pos hn]
  exact ⟨rfl, rfl, rfl⟩

theorem ramp_over {q : CabR} {n : Nat} (h₀ : 0 < n) (hn : q.rampLen ≤ n) (free : Nat → Nat) :
    q.ramp n free = { q with rampLen := 0, fade := 0, groups := [0, 0, 0, 0], phases := [] } := by
  unfold CabR.ramp
  extract_lets len
  have el : len = q.rampLen := if_neg (by omega)
  rw [el, if_neg (by omega)]

/-! ### The dither register (R246) -/

/-- The register for the tick: seeded, or one step on from the last tick, or computed from the seed. -/
def State.dithNext (s : State) (p : Nat) : Nat :=
  if (s.rem p).tick % 65536 = 0 then dithSeed (appliedWord s p 2)
  else if (s.cab p).dithOk then dithStep (s.cab p).dith else dithSteps ((s.rem p).tick % 65536) (dithSeed (appliedWord s p 2))

theorem exec_ditherStep_of {s : State} {p : Nat} (hp : p < 32) (hk : (s.rem p).tickKnown = true) (ha : (s.rem p).applied ≠ []) :
    exec (.ditherStep p) s = .next (s.withCab p { s.cab p with dith := s.dithNext p, dithOk := true }) := if_neg (by simp [hp, hk, ha])

theorem exec_ditherStep_none {s : State} {p : Nat} (c : 32 ≤ p ∨ (s.rem p).tickKnown = false) : exec (.ditherStep p) s = .next s :=
  if_pos (by rcases c with c | c <;> simp [c])

/-! ### The obligation -/

/-- Settles O29: a command replaces one cabinet, by the one the applied command asks for or by the one further down its ramp; a dither step writes its register. -/
theorem cabinetRemotes : Obligations.CabinetRemotes := by
  refine ⟨?zero, ?begins, ?goesOn, ?ended, ?live, ?undithered, ?absent, ?seed, ?step, fun s p hk => exec_ditherStep_none (.inr hk)⟩
  case zero =>
    intro s p hp hl hz
    obtain ⟨c, a, ex⟩ := exec_cabinetCommandApply_linked hp hl
    have n : s.cabLive p = false := by rcases hz with hz | hz <;> simp [State.cabLive, hz]
    refine Ends.of_next ex ⟨?_, ?_, ?_, rfl, fun q hq => cab_withCab_other s c hq, frame_withCab_drew s p c 50⟩
    · rw [cab_drew, cab_withCab, a.groups_off n]
    · rw [cab_drew, cab_withCab, a.unswitched n]
    · rw [cab_drew, cab_withCab, a.dith]
  case begins =>
    intro s p hp hl h₀ hq
    have r := ramp_begins hq s.freeVal
    rw [← h₀] at r
    obtain ⟨least, most, fade, groups, phases⟩ := r
    refine Ends.of_next (exec_cabinetCommandApply_lost hp hl) ?_
    rw [cab_drew, cab_withCab]
    exact ⟨least, most, fade, groups, phases, frame_withCab_drew s p _ 50⟩
  case goesOn =>
    intro s p hp hl h₀ hn
    obtain ⟨len, fade, groups⟩ := ramp_goesOn h₀ hn s.freeVal
    refine Ends.of_next (exec_cabinetCommandApply_lost hp hl) ?_
    rw [cab_drew, cab_withCab]
    exact ⟨len, fade, groups, frame_withCab_drew s p _ 50⟩
  case ended =>
    intro s p hp hl h₀ hn
    refine Ends.of_next (exec_cabinetCommandApply_lost hp hl) ⟨?_, frame_withCab_drew s p _ 50⟩
    rw [cab_drew, cab_withCab, ramp_over h₀ hn]
  case live =>
    intro s p hp hl hz ha
    obtain ⟨c, a, ex⟩ := exec_cabinetCommandApply_linked hp hl
    refine Ends.of_next ex ⟨?_, ?_, ?_, fun q hq => cab_withCab_other s c hq, frame_withCab_drew s p c 50⟩
    · rw [cab_drew, cab_withCab, a.groups_live (by simp [State.cabLive, hz, ha])]
    · rw [cab_drew, cab_withCab, a.periods]
    · rw [cab_drew, cab_withCab, a.cphase]
  case undithered =>
    intro s p hp hl _ hd
    obtain ⟨c, a, ex⟩ := exec_cabinetCommandApply_linked hp hl
    refine Ends.of_next ex ⟨?_, frame_withCab_drew s p c 50⟩
    rw [cab_drew, cab_withCab, a.undithered hd]
  case absent => exact fun s p hp => ⟨exec_cabinetCommandApply_none hp, exec_ditherStep_none (.inl hp)⟩
  case seed =>
    intro s p hp hk ha ht
    refine Ends.of_next (exec_ditherStep_of hp hk ha) ⟨?_, frame_withCab s p _⟩
    rw [cab_withCab, State.dithNext, if_pos ht]
  case step =>
    intro s p hp hk ha ht ho
    refine Ends.of_next (exec_ditherStep_of hp hk ha) ⟨?_, frame_withCab s p _⟩
    rw [cab_withCab, State.dithNext, if_neg ht, if_pos ho, ← ho]

end

end Sys2Proof.Machine

/-!
O20, the asynchronous channels (R95, R99, R112 to R120, R127). A received frame is counted as a HELLO is (`State.greeted`) and then changes one channel of its port,
as a receiver (`AsyncRx.taking`) or as a sender (`AsyncTx.ack`); a sent one is formed once for all types (`AsyncFrame`). The clauses are read off these.
-/

namespace Sys2Proof.Machine

section

theorem port_mPort_other (s : State) (h : Half) {p q : Nat} (f : PortS → PortS) (n : p ≠ q) : (s.mPort h p f).port h q = s.port h q := by
  simp [State.port, State.mPort, look_upd_other _ _ _ n]

/-! ### A received frame before it is acted on -/

/-- The counters a frame goes to that is refused before its tag (R121). -/
theorem asyncHead_error {p off : Nat} {types : List Nat} {room : Nat → Nat} {f : RxFrame} (e : asyncHead p types room f = .error off) :
    off = 0x10 ∨ off = 0x1C ∨ off = 0x28 := by
  unfold asyncHead at e
  split at e
  · exact .inl (by injection e with e; exact e.symm)
  · split at e
    · exact .inr (.inl (by injection e with e; exact e.symm))
    · split at e
      · exact .inr (.inr (by injection e with e; exact e.symm))
      · cases e

theorem frame_asyncCount_error (s : State) (h : Half) (p off : Nat) (f : RxFrame) : Frame [.regs .nlk] s (s.asyncCount h p f (.error off)) :=
  (Frame.ite (fun _ => Frame.refl _ s) fun _ => frame_bump s .nlk h _ _).trans (frame_bump _ .nlk h _ 1)

/-- A refused frame is counted at its counter. -/
theorem rg_asyncCount_error (s : State) (h : Half) (p : Nat) {off : Nat} (f : RxFrame) (n : off ≠ 0x18) :
    (s.asyncCount h p f (.error off)).rg .nlk h (p * 0x40 + off) = BitVec.ofNat 32 (min 0xFFFFFFFF ((s.rg .nlk h (p * 0x40 + off)).toNat + 1)) := by
  have e : (if f.cv then s else s.bump .nlk h (p * 0x40 + 0x18) (rsFixed f.blocks)).rg .nlk h (p * 0x40 + off) = s.rg .nlk h (p * 0x40 + off) := by
    split
    · rfl
    · exact rg_bump_other _ _ _ _ (by omega)
  rw [← e]
  exact rg_bump_same ..

/-- The channel a frame came on has counted it; nothing else of the channel has changed (R99). -/
theorem rx_greeted (s : State) (h : Half) (p : Nat) (f : RxFrame) (b : List Nat) :
    ∃ o, look {} ((s.greeted h p f b).port h p).rx (numAt b 0 1) = { look {} (s.port h p).rx (numAt b 0 1) with ord := o } := by
  rw [State.greeted, (frame_bump _ .nlk h _ _).port (by simp)]
  unfold State.asyncCount
  extract_lets s₁
  have e₁ : s₁.port h p = s.port h p := by
    unfold s₁
    split
    · rfl
    · exact (frame_bump s .nlk h _ _).port (by simp) p
  exact ⟨_, by rw [port_mPort, look_upd_same, e₁]⟩

/-! ### A received segment (R115, R117) -/

/-- The channel takes the segment in the data bytes `b`. -/
def AsyncRx.taking (x : AsyncRx) (b : List Nat) (due : Option Nat) : AsyncRx :=
  (x.start (numAt b 8 2)).segment (numAt b 10 2) (segData b) ((numAt b 14 1).testBit 1) due

/-- A segment of another message drops one that is not complete. -/
def AsyncRx.drops (x : AsyncRx) (msg : Nat) : Bool := x.id.isSome && x.id != some msg && !x.whole

theorem start_of_same {x : AsyncRx} {msg : Nat} (e : x.id = some msg) : x.start msg = x := if_pos e
theorem start_of_other {x : AsyncRx} {msg : Nat} (e : x.id ≠ some msg) :
    x.start msg = { x with id := some msg, segs := [], last := none, whole := false } := if_neg e

theorem drops_of_other {x : AsyncRx} {msg : Nat} (e : x.id ≠ some msg) : x.drops msg = (x.id.isSome && !x.whole) := by
  have n : (x.id != some msg) = true := bne_iff_ne.2 e
  rw [AsyncRx.drops, n, Bool.and_true]

/-- A message of one segment is complete with it. -/
theorem done_segment_only {x : AsyncRx} {data : List Nat} (hs : x.segs = []) (hw : x.whole = false) (hd : data ≠ []) (hl : data.length ≤ 65535)
    (due : Option Nat) : (x.segment 0 data true due).done = x.done ++ [data] := by
  have es : put [] x.segs 0 data = [(0, data)] := by simp [hs, put, hd, ins]
  unfold AsyncRx.segment
  extract_lets segs l n full msg
  have en : n = 1 := by simp [n, segs, es, rxNext]
  have ef : full = true := by simp [full, hw, l, en]
  have em : msg = data := by simp [msg, l, segs, es, look]
  exact if_pos ⟨ef, em ▸ hl⟩ |>.trans (by rw [em])

theorem exec_asyncSegmentReceived_idle {s : State} {h : Half} {p : Nat} (c : (s.port h p).pstate ≠ 4 ∨ 80 ≤ p) (f : RxFrame) :
    exec (.asyncSegmentReceived h p f) s = .next s := if_pos c.symm

/-- A frame refused before its tag is looked at is counted for what refused it, and for no tag. -/
theorem exec_asyncSegmentReceived_refused {s : State} {h : Half} {p off : Nat} {f : RxFrame} (hp : p < 80) (h₄ : (s.port h p).pstate = 4)
    (hd : asyncHead p (upAsync p) (· - 16) f = .error off) :
    exec (.asyncSegmentReceived h p f) s = .next ((s.asyncCount h p f (.error off)).bump .nlk h (p * 0x40 + 0x20) 0) := by
  show execAsyncSegmentReceived h p f s = _
  unfold execAsyncSegmentReceived
  rw [if_neg (by omega), hd]
  rfl

theorem exec_asyncSegmentReceived_badTag {s : State} {h : Half} {p : Nat} {f : RxFrame} {b : List Nat} (hp : p < 80) (h₄ : (s.port h p).pstate = 4)
    (hd : asyncHead p (upAsync p) (· - 16) f = .ok b) (ht : s.asyncTag h p b = false) :
    exec (.asyncSegmentReceived h p f) s = .next (s.greeted h p f b) := by
  show execAsyncSegmentReceived h p f s = _
  unfold execAsyncSegmentReceived
  rw [if_neg (by omega), hd]
  simp only [ht, Bool.not_false, if_true, State.greeted]

/-- A good frame's segment joins its channel, and a message it drops is counted. -/
theorem ends_asyncSegmentReceived_taken {s : State} {h : Half} {p : Nat} {f : RxFrame} {b : List Nat} (hp : p < 80) (h₄ : (s.port h p).pstate = 4)
    (hd : asyncHead p (upAsync p) (· - 16) f = .ok b) (ht : s.asyncTag h p b = true) :
    Ends (.asyncSegmentReceived h p f) s fun t =>
        (∃ o due, look {} (t.port h p).rx (numAt b 0 1) = AsyncRx.taking { look {} (s.port h p).rx (numAt b 0 1) with ord := o } b due) ∧
        t.rg .nlk h (p * 0x40 + 0x2C) = BitVec.ofNat 32 (min 0xFFFFFFFF
          ((s.rg .nlk h (p * 0x40 + 0x2C)).toNat + b2n ((look {} (s.port h p).rx (numAt b 0 1)).drops (numAt b 8 2)))) ∧
        Frame [.regs .nlk, .ports h] s t := by
  obtain ⟨o, eo⟩ := rx_greeted s h p f b
  obtain ⟨due, ex⟩ : ∃ due, exec (.asyncSegmentReceived h p f) s = .next (((s.greeted h p f b).bump .nlk h (p * 0x40 + 0x2C)
      (b2n ((look {} ((s.greeted h p f b).port h p).rx (numAt b 0 1)).drops (numAt b 8 2)))).mPort h p fun q =>
        { q with rx := put {} q.rx (numAt b 0 1) ((look {} ((s.greeted h p f b).port h p).rx (numAt b 0 1)).taking b due) }) := by
    refine ⟨if numAt b 0 1 = 0x40 then none else some ((s.greeted h p f b).tick h + 4), ?_⟩
    show execAsyncSegmentReceived h p f s = _
    unfold execAsyncSegmentReceived
    rw [if_neg (by omega), hd]
    simp only [ht, Bool.not_true, Bool.false_eq_true, if_false, State.greeted]
    rfl
  rw [eo] at ex
  refine Ends.of_next ex ⟨⟨o, due, ?_⟩, ?_,
    (frame_greeted s h p f b).trans (((frame_bump _ .nlk h _ _).mono (by simp)).trans ((frame_mPort _ h p _).mono (by simp)))⟩
  · rw [port_mPort, look_put_same]
  · rw [rg_mPort, rg_bump_same, rg_greeted_other _ _ _ _ _ (by omega) (by omega)]
    rfl

/-! ### Acknowledgments (R116, R117) -/

/-- The number a search from `k` on over `n` numbers ends at: all before it have been received, and it has not, or the search has come to its end. -/
theorem rxNext_spec (segs : Tab (List Nat)) : (n k : Nat) →
    (∀ j, k ≤ j → j < rxNext segs n k → j ∈ segs.map (·.1)) ∧ (rxNext segs n k = k + n ∨ rxNext segs n k ∉ segs.map (·.1))
  | 0, k => ⟨fun j h₁ h₂ => absurd h₂ (Nat.not_lt.2 h₁), .inl rfl⟩
  | n + 1, k => by
    have mem : segs.any (fun e => e.1 = k) = true ↔ k ∈ segs.map (·.1) := by simp
    unfold rxNext
    split
    next hk =>
      obtain ⟨before, at_⟩ := rxNext_spec segs n (k + 1)
      refine ⟨fun j h₁ h₂ => ?_, at_.imp_left fun e => by omega⟩
      rcases Nat.eq_or_lt_of_le h₁ with rfl | h₁
      · exact mem.1 hk
      · exact before j h₁ h₂
    next hk => exact ⟨fun j h₁ h₂ => absurd h₂ (Nat.not_lt.2 h₁), .inr fun m => hk (mem.2 m)⟩

/-- NEXT has not been received: a table of `n` segments cannot hold all the numbers from 0 to `n`. -/
theorem rxNext_notReceived (segs : Tab (List Nat)) : rxNext segs segs.length 0 ∉ segs.map (·.1) := by
  obtain ⟨before, e | n⟩ := rxNext_spec segs segs.length 0
  · intro m
    rw [Nat.zero_add] at e
    rw [e] at before m
    have all : List.range (segs.length + 1) ⊆ segs.map (·.1) := fun j hj => by
      rcases Nat.lt_or_eq_of_le (Nat.le_of_lt_succ (List.mem_range.1 hj)) with hj | rfl
      · exact before j (Nat.zero_le j) hj
      · exact m
    have l := (List.subperm_of_subset List.nodup_range all).length_le
    simp at l
  · exact n

theorem exec_asyncAckSend_of {s : State} {h : Half} {p ty m : Nat} (hi : (look {} (s.port h p).rx ty).id = some m)
    (hd : (look {} (s.port h p).rx ty).ackDue.isSome = true) (ht : (look {} (s.port h p).rx ty).ackTick ≠ some (s.tick h)) :
    ∃ n, n = rxNext (look {} (s.port h p).rx ty).segs (look {} (s.port h p).rx ty).segs.length 0 ∧
      exec (.asyncAckSend h p ty) s = .next (s.mPort h p fun q => { q with rx := upd {} q.rx ty fun x =>
        { x with ackDue := none, ackTick := some (s.tick h), ackOut := some (m, n, rxMap x.segs n) } }) := by
  refine ⟨_, rfl, ?_⟩
  show execAsyncAckSend h p ty s = _
  unfold execAsyncAckSend
  extract_lets x
  rw [show x.id = some m from hi]
  exact if_neg (by simp [x, ht, Option.ne_none_iff_isSome, hd])

theorem exec_asyncAckSend_idle {s : State} {h : Half} {p ty : Nat} (ht : (look {} (s.port h p).rx ty).ackTick = some (s.tick h)) :
    exec (.asyncAckSend h p ty) s = .next s := by
  show execAsyncAckSend h p ty s = _
  unfold execAsyncAckSend
  extract_lets x
  split
  · rfl
  · exact if_pos (by simp [x, ht])

/-- A message acknowledged to its end is done. -/
theorem ack_whole {x : AsyncTx} {m : AsyncMsg} {l : List AsyncMsg} {msg next : Nat} (hm : x.msgs = m :: l) (hi : m.id = msg) (hn : m.nsegs ≤ next) (map : Nat) :
    x.ack msg next map = { x with msgs := l, acked := (m.id :: x.acked).take 64 } := by
  unfold AsyncTx.ack
  rw [hm]
  exact (if_neg (not_not.2 hi)).trans (if_pos hn)

theorem exec_asyncAckReceived_idle {s : State} {h : Half} {p : Nat} (c : 80 ≤ p ∨ ((s.port h p).pstate ≠ 3 ∧ (s.port h p).pstate ≠ 4)) (f : RxFrame) :
    exec (.asyncAckReceived h p f) s = .next s := if_pos c

theorem exec_asyncAckReceived_good {s : State} {h : Half} {p : Nat} {f : RxFrame} {b : List Nat} (hp : p < 80)
    (hs : (s.port h p).pstate = 3 ∨ (s.port h p).pstate = 4) (hd : asyncHead p [0x4F] (· - 16) f = .ok b) (ht : s.asyncTag h p b = true) :
    exec (.asyncAckReceived h p f) s = .next ((s.greeted h p f b).mPort h p fun q =>
      { q with tx := upd {} q.tx (numAt (b.drop 16) 0 1) fun x => x.ack (numAt (b.drop 16) 2 2) (numAt (b.drop 16) 4 2) (numAt (b.drop 16) 8 4) }) := by
  show execAsyncAckReceived h p f s = _
  unfold execAsyncAckReceived
  extract_lets q r tag u
  have er : r = .ok b := hd
  have et : tag = true := by simp only [tag, er, ht]
  have eu : u = s.greeted h p f b := by simp only [u, er, et, State.greeted, ht]
  rw [if_neg (show ¬(80 ≤ p ∨ (s.port h p).pstate ≠ 3 ∧ (s.port h p).pstate ≠ 4) by omega), er, eu, et]
  rfl

/-! ### Resending (R116, R117) -/

/-- Segment `g` of the message `m` at the head of a channel has waited 40 ticks for its acknowledgment, and is not yet to be sent again. -/
structure Overdue (s : State) (h : Half) (p ty g : Nat) (m : AsyncMsg) (l : List AsyncMsg) (e : Nat × Nat × Nat) : Prop where
  head : (look {} (s.port h p).tx ty).msgs = m :: l
  sent : m.out.find? (fun e => e.1 = g) = some e
  waited : e.2.1 + 40 ≤ s.tick h
  fresh : g ∉ m.again

theorem exec_segmentResendTimeout_of {s : State} {h : Half} {p ty g : Nat} {m : AsyncMsg} {l : List AsyncMsg} {e : Nat × Nat × Nat}
    (a : Overdue s h p ty g m l e) : exec (.segmentResendTimeout h p ty g) s =
      if 8 ≤ e.2.2 then
        .next ((s.mPort h p fun q => { q with tx := upd {} q.tx ty fun x => { x with msgs := l } }).bump .nlk h (p * 0x40 + 0x2C) 1)
      else .next (s.mPort h p fun q => { q with tx := upd {} q.tx ty fun x => { x with msgs := { m with again := m.again ++ [g] } :: l } }) := by
  obtain ⟨head, sent, waited, fresh⟩ := a
  show execSegmentResendTimeout h p ty g s = _
  unfold execSegmentResendTimeout
  rw [head]
  dsimp only
  rw [sent]
  exact if_neg fun c => c.elim (by omega) fresh

theorem exec_segmentResendTimeout_none {s : State} {h : Half} {p ty : Nat} (e : (look {} (s.port h p).tx ty).msgs = []) (g : Nat) :
    exec (.segmentResendTimeout h p ty g) s = .next s := by
  show execSegmentResendTimeout h p ty g s = _
  unfold execSegmentResendTimeout
  rw [e]

/-! ### A sent frame (R95 to R99, R115) -/

/-- The ordinal of the next frame of a TYPE among those of this tick (R99). -/
def State.asyncOrd (s : State) (h : Half) (p ty : Nat) : Nat := if (s.port h p).ordTick = s.tick h then look 0 (s.port h p).ords ty else 0

/-- The frame `fr` is of the TYPE, carries `data`, and is tagged as the port asks, under the ordinal of its TYPE. -/
structure AsyncFrame (s : State) (h : Half) (p ty : Nat) (data : List Nat) (fr : SentFrame) : Prop where
  type : fr.bytes.take 1 = [ty]
  payload : (fr.bytes.drop 16).take data.length = data
  tagged : fr.tagged = s.portAuth h p
  iv : fr.iv = ivFor false h (s.tick h) p ty (s.asyncOrd h p ty)

theorem take_padTo {n : Nat} {l : List Nat} (h : l.length ≤ n) : (padTo n l).take l.length = l := by
  rw [padTo, List.take_take, Nat.min_eq_left h, List.take_left']
  rfl

/-- The blocks of a frame have room for its message bytes, beside the tag where it has one. -/
theorem length_le_area (n : Nat) (auth : Bool) : n ≤ 16 + 32 * (segBlocks n auth - 1) - if auth then 8 else 0 := by
  unfold segBlocks
  cases auth <;> simp <;> omega

theorem port_putAsync (s : State) (h : Half) (p ty id seg : Nat) (data : List Nat) (last : Bool) :
    (∃ fr, ((s.putAsync h p ty id seg data last).port h p).asy = some fr ∧ AsyncFrame s h p ty data fr) ∧
      ((s.putAsync h p ty id seg data last).port h p).tx = (s.port h p).tx ∧ ((s.putAsync h p ty id seg data last).port h p).rx = (s.port h p).rx := by
  unfold State.putAsync
  extract_lets q auth n ords ord head area fr s₁
  have e₁ : s₁.port h p = s.port h p := by
    unfold s₁
    split <;> rfl
  have hh : head.length = 16 := by simp [head, length_le]
  have eb : fr.bytes = head ++ padTo area data := rfl
  refine ⟨⟨fr, by rw [port_mPort], ?_, ?_, rfl, ?_⟩, by rw [port_mPort, e₁], by rw [port_mPort, e₁]⟩
  · rfl
  · rw [eb, List.drop_left' hh]
    exact take_padTo (length_le_area data.length auth)
  · have eo : ord = s.asyncOrd h p ty := by
      simp only [ord, ords, State.asyncOrd, q]
      split <;> rfl
    rw [← eo]
    rfl

theorem frame_putAsync_half (s : State) (h : Half) (p ty id seg : Nat) (data : List Nat) (last : Bool) :
    Frame [.free, .ports h] s (s.putAsync h p ty id seg data last) := by
  unfold State.putAsync
  simp (maxDischargeDepth := 8)

/-- The state in which a segment has gone out, before its remote takes the message. -/
def State.segSent (s : State) (h : Half) (p ty : Nat) (m : AsyncMsg) (seg : Nat) : State :=
  (s.putAsync h p ty m.id seg (((stampMsg ty (s.tick h) m.bytes).drop (seg * segSize s h p)).take (segSize s h p)) (decide (m.nsegs ≤ seg + 1))).mPort h p fun q =>
    { q with tx := Machine.upd {} q.tx ty fun x => x.sentSeg ty seg (s.tick h) ((s.rem p).cif == some (s.hf h).twn.claim) }

theorem frame_segSent (s : State) (h : Half) (p ty : Nat) (m : AsyncMsg) (seg : Nat) : Frame [.free, .ports h] s (s.segSent h p ty m seg) :=
  (frame_putAsync_half s h p ty m.id seg _ _).trans ((frame_mPort _ h p _).mono (by simp))

theorem port_segSent (s : State) (h : Half) (p ty : Nat) (m : AsyncMsg) (seg : Nat) :
    (∃ fr data, ((s.segSent h p ty m seg).port h p).asy = some fr ∧ AsyncFrame s h p ty data fr) ∧
      ∃ ok, look {} ((s.segSent h p ty m seg).port h p).tx ty = (look {} (s.port h p).tx ty).sentSeg ty seg (s.tick h) ok := by
  obtain ⟨⟨fr, ea, af⟩, et, -⟩ := port_putAsync s h p ty m.id seg
    (((stampMsg ty (s.tick h) m.bytes).drop (seg * segSize s h p)).take (segSize s h p)) (decide (m.nsegs ≤ seg + 1))
  rw [State.segSent, port_mPort]
  exact ⟨⟨fr, _, ea, af⟩, _, by rw [look_upd_same, et]⟩

/-- The last segment of a message, when it is new, brings the message to the remote. -/
theorem sendSeg_eq (s : State) (h : Half) (p ty : Nat) (m : AsyncMsg) (seg : Nat) : ∃ ok b, s.sendSeg h p ty m seg =
    if decide (m.nsegs ≤ seg + 1) && decide (m.sent ≤ seg) then (s.segSent h p ty m seg).remoteTakes h p ty ok b else s.segSent h p ty m seg := by
  refine ⟨m.claimOk && (s.rem p).cif == some (s.hf h).twn.claim, stampMsg ty (s.tick h) m.bytes, ?_⟩
  unfold State.sendSeg
  extract_lets b size last ok s₁ s₂
  have et : s₁.tick h = s.tick h := (frame_putAsync_half s h p ty m.id seg _ _).tick (by simp)
  have e₂ : s₂ = s.segSent h p ty m seg := by simp only [s₂, et]; rfl
  rw [e₂]

theorem sendSeg_again {s : State} {h : Half} {p ty seg : Nat} {m : AsyncMsg} (n : seg < m.sent) : s.sendSeg h p ty m seg = s.segSent h p ty m seg := by
  obtain ⟨ok, b, e⟩ := sendSeg_eq s h p ty m seg
  exact e.trans (if_neg (by simp; omega))

theorem frame_sendSeg_segSent (s : State) (h : Half) (p ty : Nat) (m : AsyncMsg) (seg : Nat) :
    Frame [.rems, .cabs] (s.segSent h p ty m seg) (s.sendSeg h p ty m seg) := by
  obtain ⟨ok, b, e⟩ := sendSeg_eq s h p ty m seg
  rw [e]
  exact Frame.ite (fun _ => frame_remoteTakes _ h p ty ok b) fun _ => Frame.refl _ _

theorem sentSeg_new {x : AsyncTx} {m : AsyncMsg} {l : List AsyncMsg} {ty : Nat} (hm : x.msgs = m :: l) (ht : ty ≠ 0x40) (tick : Nat) (ok : Bool) :
    x.sentSeg ty m.sent tick ok = { x with msgs := { m with sent := m.sent + 1, out := m.out ++ [(m.sent, tick, 0)] } :: l } := by
  unfold AsyncTx.sentSeg
  rw [hm]
  exact (if_neg ht).trans (if_neg (Nat.lt_irrefl _))

theorem sentSeg_again {x : AsyncTx} {m : AsyncMsg} {l : List AsyncMsg} {ty g : Nat} (hm : x.msgs = m :: l) (ht : ty ≠ 0x40) (hg : g < m.sent) (tick : Nat)
    (ok : Bool) : x.sentSeg ty g tick ok =
      { x with msgs := { m with out := m.out.map fun o => if o.1 = g then (g, tick, o.2.2 + 1) else o, again := m.again.filter (· ≠ g) } :: l } := by
  unfold AsyncTx.sentSeg
  rw [hm]
  exact (if_neg ht).trans (if_pos hg)

/-! ### What goes next (R116, R117, R145) -/

theorem sendable_new {s : State} {h : Half} {q : PortS} {ty : Nat} {m : AsyncMsg} {l : List AsyncMsg} (hm : (look {} q.tx ty).msgs = m :: l) (ha : m.again = [])
    (ht : ty ≠ 0x40) (hn : m.sent < m.nsegs) (hw : m.sent < m.next + 32) : sendable s h q ty = some (m, m.sent) := by
  unfold sendable
  rw [hm]
  dsimp only
  rw [ha]
  exact (if_neg (Nat.not_le.2 hn)).trans ((if_neg ht).trans (if_pos hw))

theorem sendable_again {s : State} {h : Half} {q : PortS} {ty g : Nat} {m : AsyncMsg} {l : List AsyncMsg} {k : List Nat} (hm : (look {} q.tx ty).msgs = m :: l)
    (ha : m.again = g :: k) : sendable s h q ty = some (m, g) := by
  unfold sendable
  rw [hm]
  dsimp only
  rw [ha]

/-- The port sends in the state of R88, and nothing shortens its window. -/
structure SendsAsync (s : State) (h : Half) (p : Nat) : Prop where
  port : p < 80
  serving : (s.port h p).pstate = 4
  awake : s.pstate ≠ 1
  unperturbed : (s.hf h).twn.pertActive = false
  unthrottled : (s.hf h).thm.step = 0

/-- The acknowledgments that wait at a port, with the TYPE of each. -/
def PortS.acks (q : PortS) : List (Nat × Nat × Nat × Nat) := q.rx.filterMap fun e => e.2.ackOut.map fun a => (e.1, a)

/-- The acknowledgment goes out, and waits no longer. -/
def State.sendAck (s : State) (h : Half) (p : Nat) (x : Nat × Nat × Nat × Nat) : State :=
  (s.putAsync h p 0x4F (s.nextMsg h p 0x4F) 0 (ackBytes x.1 x.2) true).mPort h p fun q =>
    { q with rx := Machine.upd {} q.rx x.1 fun r => { r with ackOut := none },
             tx := Machine.upd {} q.tx 0x4F fun r => { r with nextId := (s.nextMsg h p 0x4F + 1) % 2 ^ 16 } }

theorem pertMag_of_inactive {s : State} {h : Half} (e : (s.hf h).twn.pertActive = false) (k p : Nat) : pertMag s h k p = none := by simp [pertMag, e]

theorem exec_asyncFrameSend_ack {s : State} {h : Half} {p room : Nat} {x : Nat × Nat × Nat × Nat} {l : List (Nat × Nat × Nat × Nat)} (a : SendsAsync s h p)
    (hr : 2 ≤ room) (e : (s.port h p).acks = x :: l) : exec (.asyncFrameSend h p room) s = .next (s.sendAck h p x) := by
  have fits : segBlocks 12 (s.portAuth h p) ≤ min 16 room := by
    cases s.portAuth h p <;> simp [segBlocks] <;> omega
  show execAsyncFrameSend h p room s = _
  unfold execAsyncFrameSend
  extract_lets q room₁ room₂ acks
  have er : room₂ = room := by simp [room₂, room₁, pertMag_of_inactive a.unperturbed, a.unthrottled]
  have ea : acks = x :: l := (if_pos a.serving).trans e
  rw [if_neg (by simp [q, a.port, a.serving, a.awake]), ea, er]
  exact if_pos fits

theorem exec_asyncFrameSend_segment {s : State} {h : Half} {p room seg : Nat} {m : AsyncMsg} (a : SendsAsync s h p) (hr : 16 ≤ room)
    (e : (s.port h p).acks = []) (hs : sendable s h (s.port h p) 0x43 = some (m, seg))
    (hb : segBlocks (min (segSize s h p) (m.bytes.length - seg * segSize s h p)) (s.portAuth h p) ≤ 16) :
    exec (.asyncFrameSend h p room) s = .next (s.sendSeg h p 0x43 m seg) := by
  show execAsyncFrameSend h p room s = _
  unfold execAsyncFrameSend
  extract_lets q room₁ room₂ acks
  have er : room₂ = room := by simp [room₂, room₁, pertMag_of_inactive a.unperturbed, a.unthrottled]
  have ea : acks = [] := (if_pos a.serving).trans e
  have first : (if q.pstate = 4 then [0x43, 0x40, 0x41] else [0x43]).find? (fun ty => (sendable s h q ty).isSome) = some 0x43 := by
    simp [q, a.serving, hs]
  rw [if_neg (by simp [q, a.port, a.serving, a.awake]), ea, er]
  dsimp only
  rw [first]
  dsimp only
  rw [show sendable s h q 0x43 = some (m, seg) from hs]
  exact if_pos (by omega)

theorem exec_asyncFrameSend_idle {s : State} {h : Half} {p : Nat} (c : ((s.port h p).pstate ≠ 4 ∧ (s.port h p).pstate ≠ 3) ∨ s.pstate = 1 ∨ 80 ≤ p)
    (room : Nat) : exec (.asyncFrameSend h p room) s = .next s := by
  show execAsyncFrameSend h p room s = _
  unfold execAsyncFrameSend
  extract_lets q room₁ room₂ acks
  refine if_pos ?_
  rcases c with c | c | c
  · exact .inr (.inl c)
  · exact .inr (.inr c)
  · exact .inl c

theorem frame_sendAck (s : State) (h : Half) (p : Nat) (x : Nat × Nat × Nat × Nat) : Frame [.free, .ports h] s (s.sendAck h p x) :=
  (frame_putAsync_half s h p _ _ _ _ _).trans ((frame_mPort _ h p _).mono (by simp))

theorem ends_asyncFrameSend_ack {s : State} {h : Half} {p room : Nat} {x : Nat × Nat × Nat × Nat} {l : List (Nat × Nat × Nat × Nat)} (a : SendsAsync s h p)
    (hr : 2 ≤ room) (e : (s.port h p).acks = x :: l) :
    Ends (.asyncFrameSend h p room) s fun t => (look {} (t.port h p).rx x.1).ackOut = none ∧
        (∀ ty, ty ≠ 0x4F → look {} (t.port h p).tx ty = look {} (s.port h p).tx ty) ∧
        (∃ fr, (t.port h p).asy = some fr ∧ fr.bytes.take 1 = [0x4F] ∧ (fr.bytes.drop 16).take 12 = ackBytes x.1 x.2) ∧ Frame [.free, .ports h] s t := by
  obtain ⟨⟨fr, ea, af⟩, et, -⟩ := port_putAsync s h p 0x4F (s.nextMsg h p 0x4F) 0 (ackBytes x.1 x.2) true
  have el : (ackBytes x.1 x.2).length = 12 := by simp [ackBytes, length_le]
  refine Ends.of_next (exec_asyncFrameSend_ack a hr e) ⟨?_, fun ty n => ?_, ⟨fr, ?_, af.type, el ▸ af.payload⟩, frame_sendAck s h p x⟩
  · rw [State.sendAck, port_mPort, look_upd_same]
  · rw [State.sendAck, port_mPort, look_upd_other _ _ _ n.symm, et]
  · rw [State.sendAck, port_mPort, ea]

theorem ends_asyncFrameSend_new {s : State} {h : Half} {p room : Nat} {m : AsyncMsg} {l : List AsyncMsg} (a : SendsAsync s h p) (hr : 16 ≤ room)
    (e : (s.port h p).acks = []) (hm : (look {} (s.port h p).tx 0x43).msgs = m :: l) (ha : m.again = []) (hn : m.sent < m.nsegs)
    (hw : m.sent < m.next + 32) (hb : segBlocks (min (segSize s h p) (m.bytes.length - m.sent * segSize s h p)) (s.portAuth h p) ≤ 16) :
    Ends (.asyncFrameSend h p room) s fun t =>
        (look {} (t.port h p).tx 0x43).msgs = { m with sent := m.sent + 1, out := m.out ++ [(m.sent, s.tick h, 0)] } :: l ∧
        (∃ fr, (t.port h p).asy = some fr ∧ fr.bytes.take 1 = [0x43] ∧ fr.tagged = s.portAuth h p ∧
          fr.iv = ivFor false h (s.tick h) p 0x43 (s.asyncOrd h p 0x43)) ∧ Frame [.free, .ports h, .rems, .cabs] s t := by
  obtain ⟨⟨fr, data, ea, af⟩, ok, et⟩ := port_segSent s h p 0x43 m m.sent
  have fs := frame_sendSeg_segSent s h p 0x43 m m.sent
  refine Ends.of_next (exec_asyncFrameSend_segment a hr e (sendable_new hm ha (by decide) hn hw) hb) ⟨?_, ⟨fr, ?_, af.type, af.tagged, af.iv⟩,
    ((frame_segSent s h p 0x43 m m.sent).mono (by simp)).trans (fs.mono (by simp))⟩
  · rw [fs.port (by simp), et, sentSeg_new hm (by decide)]
  · rw [fs.port (by simp), ea]

theorem ends_asyncFrameSend_again {s : State} {h : Half} {p room g : Nat} {m : AsyncMsg} {l : List AsyncMsg} {k : List Nat} (a : SendsAsync s h p)
    (hr : 16 ≤ room) (e : (s.port h p).acks = []) (hm : (look {} (s.port h p).tx 0x43).msgs = m :: l) (ha : m.again = g :: k) (hg : g < m.sent)
    (hb : segBlocks (min (segSize s h p) (m.bytes.length - g * segSize s h p)) (s.portAuth h p) ≤ 16) :
    Ends (.asyncFrameSend h p room) s fun t => (look {} (t.port h p).tx 0x43).msgs =
          { m with out := m.out.map fun o => if o.1 = g then (g, s.tick h, o.2.2 + 1) else o, again := m.again.filter (· ≠ g) } :: l ∧
        Frame [.free, .ports h] s t := by
  obtain ⟨-, ok, et⟩ := port_segSent s h p 0x43 m g
  have ex := exec_asyncFrameSend_segment a hr e (sendable_again hm ha) hb
  rw [sendSeg_again hg] at ex
  refine Ends.of_next ex ⟨?_, frame_segSent s h p 0x43 m g⟩
  rw [et, sentSeg_again hm (by decide) hg]

/-! ### Bulk log records (R120) -/

/-- The oldest record of the port goes from its channel to the half's own copy. -/
theorem exec_bulkLogReceived_of {s : State} {h : Half} {p : Nat} {m : List Nat} {l : List (List Nat)} (e : (look {} (s.port h p).rx 0x42).done = m :: l) :
    exec (.bulkLogReceived h p) s = .next ((s.mPort h p fun q => { q with rx := upd {} q.rx 0x42 fun x => { x with done := x.done.erase m } }).mh h
      fun x => { x with bulk := upd [] x.bulk p (· ++ [m]) }) := by
  have et : s.takeMsg h p 0x42 (fun _ => true) =
      some (m, s.mPort h p fun q => { q with rx := upd {} q.rx 0x42 fun x => { x with done := x.done.erase m } }) := by simp [State.takeMsg, e]
  show execBulkLogReceived h p s = _
  unfold execBulkLogReceived
  rw [et]

theorem exec_bulkLogReceived_none {s : State} {h : Half} {p : Nat} (e : (look {} (s.port h p).rx 0x42).done = []) :
    exec (.bulkLogReceived h p) s = .next s := by
  have et : s.takeMsg h p 0x42 (fun _ => true) = none := by simp [State.takeMsg, e]
  show execBulkLogReceived h p s = _
  unfold execBulkLogReceived
  rw [et]

theorem frame_bulk (s : State) (h : Half) (f : Tab (List (List Nat)) → Tab (List (List Nat))) :
    Frame [.bulk h] s (s.mh h fun x => { x with bulk := f x.bulk }) := by
  simp

/-! ### TIME (R112, R114) -/

/-- A message of these bytes waits at the port among the management messages. -/
def Queued (b : List Nat) (h : Half) (p : Nat) (s : State) : Prop := ∃ m ∈ (look {} (s.port h p).tx 0x43).msgs, m.bytes = b

theorem queued_sendMsg {b : List Nat} (hb : b.length ≤ 65535) (s : State) (h : Half) (p : Nat) : Queued b h p (s.sendMsg h p 0x43 b) := by
  obtain ⟨m, -, mb, e⟩ := port_sendMsg hb s h p 0x43
  exact ⟨m, by simp [e, AsyncTx.queued], mb⟩

/-- A message that waits goes on waiting where the same message is queued at any port. -/
theorem Queued.sendMsg {b : List Nat} (hb : b.length ≤ 65535) {s : State} {h : Half} {p : Nat} (q : Queued b h p s) (k : Nat) :
    Queued b h p (s.sendMsg h k 0x43 b) := by
  by_cases e : k = p
  · exact e ▸ queued_sendMsg hb s h k
  · have ep : (s.sendMsg h k 0x43 b).port h p = s.port h p := by
      rw [State.sendMsg, if_neg (by omega), port_mPort_other _ _ _ e]
    unfold Queued
    rw [ep]
    exact q

/-- A message queued at each port of a list waits at every one of them. -/
theorem queued_foldl {b : List Nat} (hb : b.length ≤ 65535) (h : Half) {p : Nat} {l : List Nat} (hm : p ∈ l) (s : State) :
    Queued b h p (l.foldl (fun s k => s.sendMsg h k 0x43 b) s) :=
  foldl_reaches (f := fun s k => s.sendMsg h k 0x43 b) (P := Queued b h p) (fun u => queued_sendMsg hb u h p) (fun _ k q => q.sendMsg hb k) l hm s

/-- TIME is queued at every port in service. -/
def State.timeSent (s : State) (h : Half) (edge stepTo : Nat) : State :=
  ((List.range 80).filter fun p => (s.port h p).pstate == 4).foldl (fun s p => s.sendMsg h p 0x43 (timeMsg edge stepTo)) s

theorem length_timeMsg (edge stepTo : Nat) : (timeMsg edge stepTo).length ≤ 65535 := by simp [timeMsg, length_le]

theorem queued_timeSent {s : State} {h : Half} {p : Nat} (hp : p < 80) (h₄ : (s.port h p).pstate = 4) (edge stepTo : Nat) :
    Queued (timeMsg edge stepTo) h p (s.timeSent h edge stepTo) := by
  have hm : p ∈ (List.range 80).filter fun p => (s.port h p).pstate == 4 := List.mem_filter.2 ⟨List.mem_range.2 hp, by simp [h₄]⟩
  exact queued_foldl (length_timeMsg edge stepTo) h hm s

theorem frame_timeSent (s : State) (h : Half) (edge stepTo : Nat) : Frame [.ports h] s (s.timeSent h edge stepTo) :=
  Frame.foldl (fun u k => frame_sendMsg_half u h k 0x43 _) _ s

theorem ends_of_timeSent {s : State} {h : Half} {edge stepTo : Nat} (e : exec (.timeMessageSend h) s = .next (s.timeSent h edge stepTo)) :
    Ends (.timeMessageSend h) s fun t => (∀ p < 80, (s.port h p).pstate = 4 → ∃ m ∈ (look {} (t.port h p).tx 0x43).msgs, m.bytes = timeMsg edge stepTo) ∧
        Frame [.ports h] s t :=
  Ends.of_next e ⟨fun _ hp h₄ => queued_timeSent hp h₄ edge stepTo, frame_timeSent s h edge stepTo⟩

theorem exec_timeMessageSend_noStep {s : State} {h : Half} (hs : (s.hf h).tck.step = none) :
    exec (.timeMessageSend h) s = if s.tick h % 20000 = 0 then .next (s.timeSent h 0 0) else .next s := by
  show execTimeMessageSend h s = _
  unfold execTimeMessageSend
  extract_lets t se
  have es : se = (0, 0) := by simp only [se, t, hs]
  rw [es]
  simp only [ne_eq, not_true, decide_false, Bool.false_and, Bool.or_false, decide_eq_true_eq]
  rfl

theorem exec_timeMessageSend_step {s : State} {h : Half} {r : StepReq} (hs : (s.hf h).tck.step = some r) (h₀ : r.edge ≠ 0) (ht : s.tick h + 100 ≤ r.edge) :
    exec (.timeMessageSend h) s = .next (s.timeSent h r.edge ((r.edge : Int) + r.ticks).toNat) := by
  have ht' : (s.hf h).tck.tick + 100 ≤ r.edge := ht
  show execTimeMessageSend h s = _
  unfold execTimeMessageSend
  extract_lets t se
  have es : se = (r.edge, ((r.edge : Int) + r.ticks).toNat) := by simp only [se, t, hs]
  rw [es]
  exact if_pos (by simp [t, h₀, ht'])

/-! ### The obligation -/

/-- Settles O20: a received frame changes one channel of its port and the counters, a sent one is formed once for all types, and a fold over the ports in service
queues TIME. -/
theorem asyncChannels : Obligations.AsyncChannels := by
  refine ⟨?joined, ?started, ?refused, ?badTag, fun s h p f c => exec_asyncSegmentReceived_idle c f, ?acked, fun s h p ty => exec_asyncAckSend_idle, ?ackReceived,
    fun s h p f c => exec_asyncAckReceived_idle c f, ?again, ?abandoned, fun s h p ty g e => exec_segmentResendTimeout_none e g, ?sendAck, ?sendNew, ?sendAgain,
    fun s h p room c => exec_asyncFrameSend_idle c room, ?bulk, fun s h p => exec_bulkLogReceived_none, ?time, ?timeStep, ?timeNot⟩
  case joined =>
    rintro s h p _ f b _ hp h₄ hd ht rfl rfl hi
    obtain ⟨t, ex, ⟨o, due, ex'⟩, -, fr⟩ := ends_asyncSegmentReceived_taken hp h₄ hd ht
    refine Ends.of_next ex ?_
    rw [ex', AsyncRx.taking, start_of_same]
    · exact ⟨hi, rfl, rfl, fr⟩
    · exact hi
  case started =>
    rintro s h p _ f b _ hp h₄ hd ht rfl rfl hi
    obtain ⟨t, ex, ⟨o, due, ex'⟩, count, fr⟩ := ends_asyncSegmentReceived_taken hp h₄ hd ht
    rw [drops_of_other hi] at count
    refine Ends.of_next ex ?_
    rw [ex', AsyncRx.taking, start_of_other]
    · refine ⟨rfl, rfl, rfl, count, fun h₀ h₁ hne hl => ?_, fr⟩
      rw [h₀, h₁]
      exact done_segment_only rfl rfl hne hl due
    · exact hi
  case refused =>
    intro s h p off f hp h₄ hd
    have ho : off ≠ 0x18 ∧ off ≠ 0x20 := by rcases asyncHead_error hd with e | e | e <;> omega
    refine Ends.of_next (exec_asyncSegmentReceived_refused hp h₄ hd) ⟨?_, (frame_asyncCount_error s h p off f).trans (frame_bump _ .nlk h _ 0)⟩
    rw [rg_bump_other _ _ _ _ (by omega), rg_asyncCount_error s h p f ho.1]
  case badTag =>
    intro s h p f b hp h₄ hd ht
    obtain ⟨o, eo⟩ := rx_greeted s h p f b
    refine Ends.of_next (exec_asyncSegmentReceived_badTag hp h₄ hd ht) ⟨rg_greeted_badTag f ht, ?_, frame_greeted s h p f b⟩
    rw [eo]
  case acked =>
    rintro s h p ty m _ rfl hi hd ht
    obtain ⟨n, en, ex⟩ := exec_asyncAckSend_of hi hd ht
    have nr : n ∉ (look ({} : AsyncRx) (s.port h p).rx ty).segs.map (·.1) := en ▸ rxNext_notReceived _
    refine Ends.of_next ex ⟨⟨n, ?_, ?_⟩, frame_mPort s h p _⟩
    · rw [port_mPort, look_upd_same]
    · exact List.all_eq_true.2 fun e me => decide_eq_true fun he => nr (List.mem_map.2 ⟨e, me, he⟩)
  case ackReceived =>
    rintro s h p _ f b m l hp hs hd ht rfl hm hi hn
    have eq : (s.greeted h p f b).port h p = _ := port_greeted s h p f b
    refine Ends.of_next (exec_asyncAckReceived_good hp hs hd ht) ?_
    have et : ((s.greeted h p f b).port h p).tx = (s.port h p).tx := by rw [eq]
    rw [port_mPort, look_upd_same, et, ack_whole hm hi hn]
    exact ⟨rfl, by simp, (frame_greeted s h p f b).trans ((frame_mPort _ h p _).mono (by simp))⟩
  case again =>
    intro s h p ty g m l e hm he hw hg h₈
    refine Ends.of_next ((exec_segmentResendTimeout_of ⟨hm, he, hw, hg⟩).trans (if_neg (by omega))) ⟨?_, frame_mPort s h p _⟩
    rw [port_mPort, look_upd_same]
  case abandoned =>
    intro s h p ty g m l e hm he hw hg h₈
    have fb := frame_bump (s.mPort h p fun q => { q with tx := upd {} q.tx ty fun x => { x with msgs := l } }) .nlk h (p * 0x40 + 0x2C) 1
    refine Ends.of_next ((exec_segmentResendTimeout_of ⟨hm, he, hw, hg⟩).trans (if_pos h₈)) ⟨?_, ?_,
      ((frame_mPort s h p _).mono (by simp)).trans (fb.mono (by simp))⟩
    · rw [fb.port (by simp), port_mPort, look_upd_same]
    · rw [rg_bump_same, rg_mPort]
  case sendAck => exact fun s h p room x l hp h₄ ha hu ht hr e => ends_asyncFrameSend_ack ⟨hp, h₄, ha, hu, ht⟩ hr e
  case sendNew => exact fun s h p room m l hp h₄ ha hu ht e hm hg hn hw hr hb => ends_asyncFrameSend_new ⟨hp, h₄, ha, hu, ht⟩ hr e hm hg hn hw hb
  case sendAgain => exact fun s h p room g m l k hp h₄ ha hu ht e hm hk hg hr hb => ends_asyncFrameSend_again ⟨hp, h₄, ha, hu, ht⟩ hr e hm hk hg hb
  case bulk =>
    intro s h p m l e
    have fp := frame_mPort s h p fun q => { q with rx := upd {} q.rx 0x42 fun x => { x with done := x.done.erase m } }
    have fk := frame_bulk (s.mPort h p fun q => { q with rx := upd {} q.rx 0x42 fun x => { x with done := x.done.erase m } }) h (upd [] · p (· ++ [m]))
    refine Ends.of_next (exec_bulkLogReceived_of e) ⟨?_, ?_, ?_, (fp.mono (by simp)).trans (fk.mono (by simp))⟩
    · rw [hf_mh_same, look_upd_same]
      exact congrArg (look [] · p ++ [m]) (fp (.bulk h) (by simp))
    · rw [fk.port (by simp), port_mPort, look_upd_same, e, List.erase_cons_head]
    · cases h <;> rfl
  case time => exact fun s h ht hs => ends_of_timeSent ((exec_timeMessageSend_noStep hs).trans (if_pos ht))
  case timeStep => exact fun s h r hs h₀ ht => ends_of_timeSent (exec_timeMessageSend_step hs h₀ ht)
  case timeNot => exact fun s h ht hs => (exec_timeMessageSend_noStep hs).trans (if_neg ht)

end

end Sys2Proof.Machine


/-!
O54, charge in order. The claims, the token and who acts stand in the parts `twn` and `ref` alone, so a command that changes neither keeps the order by its
frame. Of the rest most change nothing `ChargeInOrder` speaks of; what does are the referee's grant, the release of the token, the step-down, the rejoin, which
takes up the last granted claim, and the reset, which takes up the base claim of a half that has lost the token.
-/

namespace Sys2Proof.Machine

section
set_option autoImplicit true
set_option Elab.async false

/-! ### What the order rests on -/

/-- The parts that hold claims, the token and who acts. -/
def Part.ofCharge : Part → Bool
  | .twn _ | .ref => true
  | _ => false

/-- The second part of `ChargeInOrder`: every claim, and every claim granted last, names its half and is within the site epoch. -/
def ClaimsBounded (s : State) : Prop :=
  ∀ h, (s.hf h).twn.claim % 2 = hbit h ∧ (s.hf h).twn.claim ≤ 2 * s.ref.e + 1 ∧ s.lastClaim h % 2 = hbit h ∧ s.lastClaim h ≤ 2 * s.ref.e + 1

theorem ChargeInOrder.bounded (hs : ChargeInOrder s) : ClaimsBounded s := hs.2.1

/-- The claims, those granted last and the site epoch are the same in both states. -/
structure SameClaims (s t : State) : Prop where
  e : t.ref.e = s.ref.e
  claim : ∀ h, (t.hf h).twn.claim = (s.hf h).twn.claim
  last : ∀ h, t.lastClaim h = s.lastClaim h

theorem SameClaims.trans (a : SameClaims s t) (b : SameClaims t u) : SameClaims s u :=
  ⟨b.e.trans a.e, fun h => (b.claim h).trans (a.claim h), fun h => (b.last h).trans (a.last h)⟩

theorem SameClaims.bounded (c : SameClaims s t) (hb : ClaimsBounded s) : ClaimsBounded t := fun h => by
  rw [c.claim, c.last, c.e]
  exact hb h

theorem lastClaim_congr {s t : State} (hr : t.ref = s.ref) (h : Half) : t.lastClaim h = s.lastClaim h := by
  unfold State.lastClaim
  rw [hr]

theorem SameClaims.of_ref (hr : t.ref = s.ref) (hc : ∀ h, (t.hf h).twn.claim = (s.hf h).twn.claim) : SameClaims s t :=
  ⟨by rw [hr], hc, lastClaim_congr hr⟩

/-- Where the claims and the token stand and no half begins to act, the order is kept. -/
theorem ChargeInOrder.kept (hs : ChargeInOrder s) (c : SameClaims s t) (ht : t.ref.token = s.ref.token)
    (ha : ∀ h, (t.hf h).twn.acting = true → (s.hf h).twn.acting = true) : ChargeInOrder t := by
  obtain ⟨acts, bounded, holds⟩ := hs
  refine ⟨fun h a => ht.trans (acts h (ha h a)), c.bounded bounded, fun h th => ?_⟩
  rw [c.claim, c.claim, c.last, c.last, c.e]
  exact holds h (ht ▸ th)

/-- Where the claims are within the site epoch, the token is free and no half acts, all is in order. -/
theorem ClaimsBounded.free (hb : ClaimsBounded s) (ht : s.ref.token = none) (ha : ∀ h, (s.hf h).twn.acting = false) : ChargeInOrder s :=
  ⟨fun h a => by simp [ha h] at a, hb, fun h th => by simp [ht] at th⟩

/-- The referee grants half `h` the next claim while the other half does not act: the token, the charge and the higher claim are the half's. -/
theorem ClaimsBounded.granted (hb : ClaimsBounded s) (ht : t.ref.token = some h) (he : t.ref.e = s.ref.e + 1)
    (hc : (t.hf h).twn.claim = 2 * (s.ref.e + 1) + hbit h) (hl : t.lastClaim h = 2 * (s.ref.e + 1) + hbit h)
    (oc : (t.hf (other h)).twn.claim = (s.hf (other h)).twn.claim) (ol : t.lastClaim (other h) = s.lastClaim (other h))
    (oa : (t.hf (other h)).twn.acting = false) : ChargeInOrder t := by
  obtain ⟨oddClaim, topClaim, oddLast, topLast⟩ := hb (other h)
  have bit : hbit h ≤ 1 := by cases h <;> decide
  have cases_half (k : Half) : k = h ∨ k = other h := by cases h <;> cases k <;> simp [other]
  refine ⟨fun k a => ?_, fun k => ?_, fun k tk => ?_⟩
  · rcases cases_half k with rfl | rfl
    · exact ht
    · simp [oa] at a
  · rcases cases_half k with rfl | rfl
    · rw [hc, hl, he]; omega
    · rw [oc, ol, he]; omega
  · cases ht.symm.trans tk
    rw [hc, hl, oc, ol, he]
    omega

theorem ChargeInOrder.frame (hs : ChargeInOrder s) (f : Frame ps s t) (m : ps.any Part.ofCharge = false := by rfl) : ChargeInOrder t := by
  have out (p : Part) (hp : p.ofCharge = true) : p ∉ ps := fun mem => by simp [List.any_eq_true.2 ⟨p, mem, hp⟩] at m
  have hr : t.ref = s.ref := f .ref (out _ rfl)
  have hw (h : Half) : (t.hf h).twn = (s.hf h).twn := f (.twn h) (out _ rfl)
  exact hs.kept (.of_ref hr fun h => by rw [hw]) (by rw [hr]) fun h => by rw [hw]; exact id

theorem ChargeInOrder.same (hs : ChargeInOrder s) (ht : t.ref.token = s.ref.token := by rfl) (he : t.ref.e = s.ref.e := by rfl)
    (hA : t.ref.lastA = s.ref.lastA := by rfl) (hB : t.ref.lastB = s.ref.lastB := by rfl)
    (wA : t.halfA.twn = s.halfA.twn := by rfl) (wB : t.halfB.twn = s.halfB.twn := by rfl) : ChargeInOrder t := by
  have hw : ∀ h, (t.hf h).twn = (s.hf h).twn := fun | .A => wA | .B => wB
  exact hs.kept ⟨he, fun h => by rw [hw], fun | .A => hA | .B => hB⟩ ht fun h => by rw [hw]; exact id

theorem ChargeInOrder.ite {c : Prop} [Decidable c] (ha : ChargeInOrder a) (hb : ChargeInOrder b) : ChargeInOrder (if c then a else b) := by
  split <;> assumption

theorem ChargeInOrder.foldl {f : State → α → State} {l : List α} (hs : ChargeInOrder s) (hf : ∀ s a, ChargeInOrder s → ChargeInOrder (f s a)) :
    ChargeInOrder (l.foldl f s) := List.foldlRecOn l f hs fun _ h₁ _ _ => hf _ _ h₁

/-- Half `h` may change where it keeps its claim and does not begin to act. -/
theorem ChargeInOrder.mh (hs : ChargeInOrder s) (hc : (f (s.hf h)).twn.claim = (s.hf h).twn.claim := by rfl)
    (ha : (f (s.hf h)).twn.acting = true → (s.hf h).twn.acting = true := by exact id) : ChargeInOrder (s.mh h f) := by
  have claims (k : Half) : ((s.mh h f).hf k).twn.claim = (s.hf k).twn.claim := by
    by_cases e : k = h
    · subst e; rw [hf_mh_same, hc]
    · rw [hf_mh_other s f e]
  refine hs.kept (.of_ref (mh_ref s h f) claims) (by rw [mh_ref]) fun k => ?_
  by_cases e : k = h
  · subst e; rw [hf_mh_same]; exact ha
  · rw [hf_mh_other s f e]; exact id

theorem ChargeInOrder.mTwn (hs : ChargeInOrder s) (hc : (f (s.hf h).twn).claim = (s.hf h).twn.claim := by rfl)
    (ha : (f (s.hf h).twn).acting = true → (s.hf h).twn.acting = true := by exact id) : ChargeInOrder (s.mTwn h f) := hs.mh hc ha

theorem ChargeInOrder.ev (hs : ChargeInOrder s) : ChargeInOrder (s.ev h sev code d) := hs.frame (frame_ev _ _ _ _ _)
theorem ChargeInOrder.healthEv (hs : ChargeInOrder s) : ChargeInOrder (s.healthEv h cause) := hs.ev
theorem ChargeInOrder.claimEv (hs : ChargeInOrder s) : ChargeInOrder (s.claimEv h kind cause) := hs.ev
theorem ChargeInOrder.srg (hs : ChargeInOrder s) : ChargeInOrder (s.srg b h off v) := hs.frame (frame_srg _ _ _ _ _)
theorem ChargeInOrder.srf (hs : ChargeInOrder s) : ChargeInOrder (s.srf b h off hi lo v) := hs.srg
theorem ChargeInOrder.bump (hs : ChargeInOrder s) : ChargeInOrder (s.bump b h off n) := hs.srg
theorem ChargeInOrder.mTck (hs : ChargeInOrder s) : ChargeInOrder (s.mTck h f) := hs.mh
theorem ChargeInOrder.mPort (hs : ChargeInOrder s) : ChargeInOrder (s.mPort h p f) := hs.mh
theorem ChargeInOrder.mCln (hs : ChargeInOrder s) : ChargeInOrder (s.mCln h f) := hs.mh
theorem ChargeInOrder.mUpd (hs : ChargeInOrder s) : ChargeInOrder (s.mUpd f) := hs.same
theorem ChargeInOrder.drew (hs : ChargeInOrder s) : ChargeInOrder (s.drew n) := hs.same
theorem ChargeInOrder.start (hs : ChargeInOrder s) : ChargeInOrder (s.start o opc role x) := hs.frame (frame_start _ _ _ _ _)
theorem ChargeInOrder.complete (hs : ChargeInOrder s) : ChargeInOrder (s.complete o x opc st fin p) := hs.frame (frame_complete _ _ _ _ _ _ _)

theorem ChargeInOrder.runAt (hs : ChargeInOrder s) (hb : ∀ s r, ChargeInOrder s → ChargeInOrder (body s r)) :
    ChargeInOrder (s.runAt o x opc roles hbOk body) := by
  unfold State.runAt
  refine .ite hs.start.complete ?_
  split
  · exact hs.start.complete
  · exact .ite hs.start.complete (.ite (hb _ _ hs.start) hs.start.complete)

theorem ChargeInOrder.verbG (hs : ChargeInOrder s) (hb : ∀ s x r, ChargeInOrder s → ChargeInOrder (body s x r)) :
    ChargeInOrder (s.verbG o opc roles hbOk body) := by
  unfold State.verbG
  refine .ite hs.start.complete (.ite hs.start ?_)
  split
  · exact .ite (hs.runAt fun _ _ => hb _ _ _) hs.start.complete
  · exact hs.start

theorem ChargeInOrder.gated (hs : ChargeInOrder s) (hf : ∀ s, ChargeInOrder s → ChargeInOrder (f s)) : ChargeInOrder (s.gated h f) :=
  .ite (hf _ hs) (hs.frame (frame_gateOut _ _))

/-! ### The step-down, the release and the grant (R130, R132, R133, R138) -/

/-- A half that stepped down does not act, and no half begins to act by it. -/
theorem acting_stepDown {s : State} {h k : Half} {cause : Nat} (a : ((s.stepDown h cause).hf k).twn.acting = true) : k ≠ h ∧ (s.hf k).twn.acting = true := by
  by_cases act : (s.hf h).twn.acting = true
  · by_cases e : k = h
    · subst e
      simp [twn_stepDown act] at a
    · rw [(frame_stepDown_half act cause).twn (by simp [bothMbx, e])] at a
      exact ⟨e, a⟩
  · have same : s.stepDown h cause = s := if_neg act
    rw [same] at a
    exact ⟨fun e => act (e ▸ a), a⟩

theorem sameClaims_stepDown (s : State) (h : Half) (cause : Nat) : SameClaims s (s.stepDown h cause) :=
  .of_ref ((frame_stepDown s h cause).ref (by simp)) fun k => by rw [(standsBy_stepDown s h k cause).twn]

theorem ChargeInOrder.stepDown (hs : ChargeInOrder s) : ChargeInOrder (s.stepDown h cause) :=
  hs.kept (sameClaims_stepDown s h cause) (by rw [(frame_stepDown s h cause).ref (by simp)]) fun _ a => (acting_stepDown a).2

theorem ChargeInOrder.abandonHandover (hs : ChargeInOrder s) : ChargeInOrder s.abandonHandover := by
  unfold State.abandonHandover
  split
  · exact hs
  · extract_lets _ _ _ s₁ s₂ s₃
    have h₁ : ChargeInOrder s₁ := hs.same
    have h₃ : ChargeInOrder s₃ := h₁.mTwn.ev
    split
    exacts [h₃.complete, h₃]

/-- The holder loses the token and steps down, so that no half acts. -/
theorem ChargeInOrder.releaseToken (hs : ChargeInOrder s) (hx : s.ref.token = some x) : ChargeInOrder (s.releaseToken x cause) := by
  have h₁ : ChargeInOrder s.abandonHandover := hs.abandonHandover
  have f := frame_claimEv_mbx (s.tokenFreed x) (other x) 2 cause
  have freed : SameClaims s.abandonHandover (s.tokenFreed x) := ⟨rfl, fun h => by cases h <;> rfl, fun h => by cases h <;> rfl⟩
  have logged : SameClaims (s.tokenFreed x) ((s.tokenFreed x).claimEv (other x) 2 cause) :=
    .of_ref (f.ref (by simp [bothMbx])) fun h => by rw [f.twn (by simp [bothMbx])]
  refine ClaimsBounded.free ?_ (token_releaseToken s x cause) fun h => Bool.eq_false_iff.2 fun a => ?_
  · exact ((freed.trans logged).trans (sameClaims_stepDown _ x 0x15)).bounded h₁.bounded
  · obtain ⟨ne, a₁⟩ := acting_stepDown (releaseToken_eq s x cause ▸ a)
    rw [f.twn (by simp [bothMbx])] at a₁
    have a₂ : (s.abandonHandover.hf h).twn.acting = true := by cases h <;> exact a₁
    have holds := h₁.1 h a₂
    rw [token_abandonHandover, hx] at holds
    exact ne (Option.some.inj holds).symm

/-- After 16 silent ticks the claims start again from the base claims. -/
theorem ClaimsBounded.rebase (hb : ClaimsBounded s) : ClaimsBounded (s.rebase h) := by
  unfold State.rebase
  split
  · rintro (_ | _)
    · exact ⟨rfl, Nat.zero_le _, rfl, Nat.zero_le _⟩
    · exact ⟨rfl, Nat.le_refl 1, rfl, Nat.le_refl 1⟩
  · exact hb

theorem ChargeInOrder.grantTo (hs : ChargeInOrder s) : ChargeInOrder (s.grantTo h) := by
  unfold State.grantTo
  extract_lets _ s₁ e _ _ s₂ s₃ s₄ s₅
  have h₁ : ClaimsBounded s₁ := hs.bounded.rebase
  have f₃ := frame_stepDown s₂ (other h) 0x15
  have r₄ : s₄.ref = s₂.ref := (frame_mTwn s₃ h _).ref (by simp) |>.trans (f₃.ref (by simp))
  have twn₃ : (s₄.hf (other h)).twn = (s₃.hf (other h)).twn := (frame_mTwn s₃ h _).twn (by simp)
  have h₄ : ChargeInOrder s₄ := by
    refine h₁.granted (h := h) (by rw [r₄]) (by rw [r₄]) ?_ ?_ ?_ ?_ ?_
    · rw [twn_mTwn]
    · rw [lastClaim_congr r₄]; cases h <;> rfl
    · rw [twn₃, (sameClaims_stepDown s₂ (other h) 0x15).claim]; cases h <;> rfl
    · rw [lastClaim_congr r₄]; cases h <;> rfl
    · rw [twn₃]
      exact Bool.eq_false_iff.2 fun a => (acting_stepDown a).1 rfl
  exact .ite h₄.claimEv.ev h₄.claimEv

theorem ChargeInOrder.requestRaise (hs : ChargeInOrder s) : ChargeInOrder (s.requestRaise h early) := by
  unfold State.requestRaise
  split
  exacts [hs.claimEv, hs.same]

/-! ### The rejoin and the reset (R129, R146, R157) -/

/-- A half takes up the claim the referee granted it last: where it holds the token that is the claim it has. -/
theorem ChargeInOrder.retake (hs : ChargeInOrder s) (hc : (f (s.hf h)).twn.claim = s.lastClaim h)
    (ha : (f (s.hf h)).twn.acting = (s.hf h).twn.acting) : ChargeInOrder (s.mh h f) := by
  obtain ⟨acts, bounded, holds⟩ := hs
  have last (k : Half) : (s.mh h f).lastClaim k = s.lastClaim k := lastClaim_congr (mh_ref s h f) k
  have own : ((s.mh h f).hf h).twn.claim = s.lastClaim h := by rw [hf_mh_same, hc]
  have rest (k : Half) (n : k ≠ h) : (s.mh h f).hf k = s.hf k := hf_mh_other s f n
  refine ⟨fun k a => ?_, fun k => ?_, fun k tk => ?_⟩
  · rw [mh_ref]
    by_cases e : k = h
    · subst e
      rw [hf_mh_same, ha] at a
      exact acts k a
    · exact acts k (rest k e ▸ a)
  · rw [last, mh_ref]
    obtain ⟨oddClaim, topClaim, oddLast, topLast⟩ := bounded k
    by_cases e : k = h
    · subst e
      rw [own]
      exact ⟨oddLast, topLast, oddLast, topLast⟩
    · rw [rest k e]
      exact ⟨oddClaim, topClaim, oddLast, topLast⟩
  · rw [mh_ref] at tk ⊢
    obtain ⟨top, granted, below, belowLast⟩ := holds k tk
    rw [last, last]
    by_cases e : k = h
    · subst e
      rw [own, rest _ (by cases k <;> decide), granted]
      exact ⟨top, rfl, below, belowLast⟩
    · have eo : other k = h := by cases k <;> cases h <;> simp_all [other]
      rw [rest k e, eo, own]
      exact ⟨top, granted, eo ▸ belowLast, eo ▸ belowLast⟩

/-- A half that does not hold the token may start anew at its base claim. -/
theorem ChargeInOrder.setFresh (hs : ChargeInOrder s) (hx : s.ref.token ≠ some h) : ChargeInOrder (s.setHf h (freshHalf h x)) := by
  obtain ⟨acts, bounded, holds⟩ := hs
  have last (k : Half) : (s.setHf h (freshHalf h x)).lastClaim k = s.lastClaim k := lastClaim_congr (setHf_ref ..) k
  have own : (s.setHf h (freshHalf h x)).hf h = freshHalf h x := hf_setHf_same ..
  have rest (k : Half) (n : k ≠ h) : (s.setHf h (freshHalf h x)).hf k = s.hf k := hf_setHf_other s _ n
  have base : (freshHalf h x).twn.claim = hbit h := rfl
  refine ⟨fun k a => ?_, fun k => ?_, fun k tk => ?_⟩
  · rw [setHf_ref]
    by_cases e : k = h
    · subst e
      rw [own] at a
      cases a
    · exact acts k (rest k e ▸ a)
  · rw [last, setHf_ref]
    obtain ⟨oddClaim, topClaim, oddLast, topLast⟩ := bounded k
    by_cases e : k = h
    · subst e
      rw [own, base]
      omega
    · rw [rest k e]
      exact ⟨oddClaim, topClaim, oddLast, topLast⟩
  · rw [setHf_ref] at tk ⊢
    have e : k ≠ h := fun e => hx (e ▸ tk)
    have eo : other k = h := by cases k <;> cases h <;> simp_all [other]
    obtain ⟨top, granted, below, belowLast⟩ := holds k tk
    obtain ⟨oddClaim, topClaim, oddLast, topLast⟩ := bounded h
    rw [last, last, rest k e, eo, own, base]
    rw [eo] at below belowLast
    omega

theorem ChargeInOrder.resetHalf (hs : ChargeInOrder s) : ChargeInOrder (s.resetHalf h cause) := by
  have h₁ : ChargeInOrder ((s.bootAgain h).vehReset h) := (hs.frame (frame_bootAgain _ _)).frame (frame_vehReset _ _)
  have h₂ : ChargeInOrder (s.lapsed h) := by
    unfold State.lapsed State.roleEnded
    refine .frame ?_ (frame_endSessions h _ _)
    split
    · exact h₁.releaseToken ‹_›
    · exact .stepDown (.ite h₁.abandonHandover h₁)
  have free : (s.lapsed h).ref.token ≠ some h := by
    rw [token_lapsed]
    split
    · simp
    · assumption
  have h₃ : ChargeInOrder (((s.lapsed h).dropBlocks h).dropReqs h) := h₂.same
  rw [resetHalf_eq]
  exact (h₃.setFresh free).frame (frame_setCause _ _ _)

theorem ChargeInOrder.haltHalf (hs : ChargeInOrder s) : ChargeInOrder (s.haltHalf h) := hs.resetHalf.mTwn
theorem ChargeInOrder.haltBoth (hs : ChargeInOrder s) : ChargeInOrder s.haltBoth := by
  unfold State.haltBoth
  extract_lets s₁
  have h₁ : ChargeInOrder s₁ := hs.haltHalf.haltHalf
  clear_value s₁
  exact h₁.same
theorem ChargeInOrder.resetN (hs : ChargeInOrder s) : ChargeInOrder (s.resetN cause) := by
  rw [resetN_eq]
  exact (hs.resetHalf.resetHalf.frame (frame_resetShared _)).frame (frame_vehGone _)

/-- POR frees the token, which neither half held any more. -/
theorem ChargeInOrder.por (hs : ChargeInOrder s) : ChargeInOrder s.por := by
  have h₁ : ChargeInOrder (s.resetN 0).islandStart := hs.resetN.frame (frame_islandStart _)
  have token : (s.resetN 0).islandStart.ref.token = none := by
    rw [(frame_islandStart _).ref (by simp)]
    exact (allReset_resetN s 0).1
  have h₂ : ChargeInOrder (s.resetN 0).islandStart.porShared := h₁.same token.symm
  rw [por_eq]
  exact h₂.frame (frame_porRest _)

theorem ChargeInOrder.resetInto (hs : ChargeInOrder s) : ChargeInOrder (s.resetInto part h) := (hs.frame (frame_toTrial _ _)).resetHalf
theorem ChargeInOrder.enterRecovery (hs : ChargeInOrder s) : ChargeInOrder (s.enterRecovery h) := by
  unfold State.enterRecovery
  extract_lets
  split <;> exact hs.resetHalf.mTwn.mUpd

/-! ### Health (R152, R153, R154) -/

theorem ChargeInOrder.goUnhealthy (hs : ChargeInOrder s) : ChargeInOrder (s.goUnhealthy h cause) := .ite hs hs.mTwn.healthEv
theorem ChargeInOrder.penalty (hs : ChargeInOrder s) : ChargeInOrder (s.penalty h amt cause) := .ite hs.mTwn hs.mTwn.healthEv
theorem ChargeInOrder.stagePenalty (hs : ChargeInOrder s) : ChargeInOrder (s.stagePenalty h cause) := .ite hs hs.mTwn.penalty
theorem ChargeInOrder.stageMissed (hs : ChargeInOrder s) : ChargeInOrder (s.stageMissed h r79) := by
  unfold State.stageMissed
  extract_lets _ _ s₁ s₂ s₃
  have h₁ : ChargeInOrder s₁ := .ite hs.srg hs
  have h₂ : ChargeInOrder s₂ := .ite h₁.mTck h₁
  have h₃ : ChargeInOrder s₃ := h₂.stagePenalty
  exact .ite h₃.goUnhealthy h₃
theorem ChargeInOrder.renewHealth (hs : ChargeInOrder s) : ChargeInOrder (s.renewHealth h) := by
  unfold State.renewHealth
  extract_lets _ s₁ _ s₂
  have h₁ : ChargeInOrder s₁ := .ite hs hs.mTwn.healthEv
  have h₂ : ChargeInOrder s₂ := .ite h₁ h₁.mTwn.healthEv
  split
  exacts [.ite h₂.mTwn.healthEv h₂, h₂]

/-! ### The tick edge and what it leads to (spec 01, 02, 19) -/

/-- Whatever state a meaning ends in, charge is in order there. -/
def EndsInCharge (o : Out) : Prop := ∀ t, o = .next t → ChargeInOrder t

theorem EndsInCharge.next (hs : ChargeInOrder s) : EndsInCharge (.next s) := fun _ e => by cases e; exact hs
theorem EndsInCharge.ite {c : Prop} [Decidable c] (ha : EndsInCharge a) (hb : EndsInCharge b) : EndsInCharge (if c then a else b) := by
  split <;> assumption

theorem ChargeInOrder.enterService (hs : ChargeInOrder s) : ChargeInOrder (enterService s h) := by
  unfold Machine.enterService
  extract_lets _ s₁
  have h₁ : ChargeInOrder s₁ := hs.mTwn
  exact .ite h₁.same h₁
theorem ChargeInOrder.genUp (hs : ChargeInOrder s) : ChargeInOrder (s.genUp h n) := by
  unfold State.genUp
  extract_lets _ s₁ _
  have h₁ : ChargeInOrder s₁ := hs.mTwn
  exact .ite hs (.ite h₁.same h₁)
theorem ChargeInOrder.applyRelay (hs : ChargeInOrder s) : ChargeInOrder (applyRelay s h) :=
  .ite hs (hs.foldl fun _ _ h₁ => h₁.frame (frame_relayOne _ _ _)).mTwn.genUp
theorem ChargeInOrder.relayOut (hs : ChargeInOrder s) : ChargeInOrder (s.relayOut h snaps) := .ite hs.mTwn hs
theorem ChargeInOrder.runCommits (hs : ChargeInOrder s) : ChargeInOrder (runCommits s h) := by
  unfold Machine.runCommits
  extract_lets _ _ _ _ s₁ _ _ _ s₂ s₄ s₆
  have h₁ : ChargeInOrder s₁ := hs.frame (frame_planSnaps _ _ _ _)
  have h₂ : ChargeInOrder s₂ := h₁.foldl fun _ _ h₃ => .ite (h₃.frame (frame_applyPlanned _ _ _)) (h₃.frame (frame_applyBlk _ _ _))
  have h₄ : ChargeInOrder s₄ := h₂.foldl fun _ _ h₅ => .ite (h₅.frame (frame_refusePlanned _ _ _)) (h₅.frame (frame_refuseBlk _ _ _))
  have h₆ : ChargeInOrder s₆ := .ite h₄.genUp h₄
  exact (h₆.frame (frame_planEdge _ _ _ _)).genUp.relayOut
theorem ChargeInOrder.actTick (hs : ChargeInOrder s) : ChargeInOrder s.actTick := by
  unfold State.actTick
  split
  · exact hs
  · extract_lets
    split
    · exact .ite hs.mUpd hs
    · exact .ite hs.mUpd.resetInto (.ite hs.same.mTwn hs)
    · exact .ite hs.mUpd hs
    · exact .ite (.ite hs.mUpd hs) hs
    · exact hs
theorem ChargeInOrder.chargeEdge (hs : ChargeInOrder s) : ChargeInOrder (chargeEdge s h) := by
  unfold Machine.chargeEdge
  extract_lets s₁ s₂
  have h₁ : ChargeInOrder s₁ := .ite (hs.frame (frame_rtcCount _)) hs
  have h₂ : ChargeInOrder s₂ := h₁.srg
  exact .ite ((h₂.frame (frame_billingTick _)).actTick.frame (frame_measureVolts _)) h₁
theorem ChargeInOrder.echoCounts (hs : ChargeInOrder s) : ChargeInOrder (echoCounts s h) := hs.srg.mTwn
theorem ChargeInOrder.startPert (hs : ChargeInOrder s) : ChargeInOrder (startPert s h) := .ite hs.mTwn hs
theorem ChargeInOrder.execTickEdge (hs : ChargeInOrder s) : EndsInCharge (execTickEdge h s) := by
  unfold Machine.execTickEdge
  extract_lets x n s₁ s₂ s₃ s₄ s₆ s₈ s₉ s₁₀
  have h₁ : ChargeInOrder s₁ := hs.mTck
  have h₂ : ChargeInOrder s₂ := by
    unfold s₂
    split
    exacts [h₁.frame (frame_stepEdge _ _ _ _), h₁]
  have h₄ : ChargeInOrder s₄ := h₂.enterService.foldl fun _ _ h₃ => h₃.frame (frame_swapStage _ _ _)
  have h₆ : ChargeInOrder s₆ := (h₄.foldl fun _ _ h₅ => h₅.frame (frame_rejoinPort _ _ _)).frame (frame_runStores _ _)
  have h₈ : ChargeInOrder s₈ := h₆.applyRelay.runCommits
  have h₉ : ChargeInOrder s₉ := h₈.echoCounts.startPert
  have h₁₀ : ChargeInOrder s₁₀ := ((h₉.frame (frame_opsDone _ _)).frame (frame_orphanSessions _ _)).frame (frame_savePoints _ _)
  exact .ite (.next hs) (.next h₁₀.chargeEdge.renewHealth)
theorem ChargeInOrder.execSnapshotPublish (hs : ChargeInOrder s) : EndsInCharge (execSnapshotPublish h made s) := by
  unfold Machine.execSnapshotPublish
  extract_lets s₁ s₂
  have h₁ : ChargeInOrder s₁ := hs.mh
  have h₂ : ChargeInOrder s₂ := .ite (h₁.foldl fun _ _ h₃ => h₃.frame (frame_vehSample _ _ _)) h₁
  exact .ite (.next (h₂.foldl fun _ _ h₄ => h₄.frame (frame_completeArrived _ _ _))) (.next hs.stageMissed)
theorem ChargeInOrder.clockLost (hs : ChargeInOrder s) : ChargeInOrder (clockLost s h k eid) := by
  unfold Machine.clockLost
  extract_lets s₁ sel s₂ s₃
  have h₃ : ChargeInOrder s₃ := hs.srg.mTck.frame (frame_lossEvent _ _ _)
  exact .ite h₃.goUnhealthy.mTwn h₃
theorem ChargeInOrder.execSkewMeasure (hs : ChargeInOrder s) : EndsInCharge (execSkewMeasure h ns trim s) := by
  unfold Machine.execSkewMeasure
  extract_lets _ _ s₁ s₂ _ s₃
  have h₁ : ChargeInOrder s₁ := hs.mTck
  have h₂ : ChargeInOrder s₂ := .ite h₁.srg.ev h₁
  have h₃ : ChargeInOrder s₃ := .ite h₂.mTwn.penalty h₂
  exact .ite (.next hs) (.ite (.next (.ite hs hs.mTck)) (.ite (.next h₃.goUnhealthy) (.next h₃)))
theorem ChargeInOrder.startTakeover (hs : ChargeInOrder s) : ChargeInOrder (startTakeover s h) :=
  (ChargeInOrder.ite hs (hs.frame (frame_loadImage _ _ _))).mTwn.healthEv.requestRaise
theorem ChargeInOrder.setCounter (hs : ChargeInOrder s) : ChargeInOrder (setCounter s h n) := hs.frame (frame_setCounter _ _ _)
theorem ChargeInOrder.execRestartWithoutService (hs : ChargeInOrder s) : EndsInCharge (execRestartWithoutService h n s) :=
  .ite (.next hs.mTck.setCounter.startTakeover) (.next hs)
theorem ChargeInOrder.execStartPath (hs : ChargeInOrder s) : EndsInCharge (execStartPath h n s) :=
  .ite (.ite (.next hs.startTakeover) (.ite (.next hs.setCounter.startTakeover) (.next hs))) (.next hs)

/-! ### Frames of the link (spec 03, 08) -/

theorem ChargeInOrder.execIngestMapExchange (hs : ChargeInOrder s) : EndsInCharge (execIngestMapExchange h sentMap s) :=
  .next (((hs.mTwn.foldl fun _ _ h₁ => h₁.frame (frame_commonPort _ _ _ _)).frame (frame_mCnp _ _ _)).drew)
theorem ChargeInOrder.execAllocationLatch (hs : ChargeInOrder s) : EndsInCharge (execAllocationLatch h ready s) := by
  have cnp {s f} (hs : ChargeInOrder s) : ChargeInOrder (s.mCnp h f) := hs.frame (frame_mCnp _ _ _)
  unfold Machine.execAllocationLatch
  split
  · exact .next ((cnp ((cnp (cnp hs).srg).foldl fun _ _ h₁ => h₁.frame (frame_closePoles _ _ _))).foldl fun _ _ h₁ => h₁.frame (frame_tickDemand _ _ _))
  · exact .next (cnp hs).srf.stageMissed
theorem ChargeInOrder.execDownlinkDispatch (hs : ChargeInOrder s) : EndsInCharge (execDownlinkDispatch h p onTime s) :=
  .ite (.next hs) (.ite (.next hs.mPort.stageMissed) (.next (ChargeInOrder.ite hs.drew hs).mPort))
theorem ChargeInOrder.takeFrame (hs : ChargeInOrder s) : ChargeInOrder (s.takeFrame h p ty b auth) := by
  have echo {s claim} (hs : ChargeInOrder s) : ChargeInOrder (s.takeEcho h claim) := .ite hs.mTwn (.ite hs.mTwn.stepDown hs)
  unfold State.takeFrame
  extract_lets _ _ _ _ s₁ s₂
  have h₁ : ChargeInOrder s₁ := hs.mPort
  have h₂ : ChargeInOrder s₂ := .ite (echo h₁) h₁
  exact .ite (h₂.frame (frame_forwardMeter _ _ _ _)) (.ite (h₂.frame (frame_forwardHarv _ _ _)) h₂)
theorem ChargeInOrder.execUplinkTickFrame (hs : ChargeInOrder s) : EndsInCharge (execUplinkTickFrame h p f s) := by
  unfold Machine.execUplinkTickFrame
  extract_lets _ s₁ s₂ _ _ s₃
  have h₁ : ChargeInOrder s₁ := .ite hs.drew hs
  have h₂ : ChargeInOrder s₂ := h₁.mPort
  have h₃ : ChargeInOrder s₃ := h₂.bump.mPort
  refine .ite (.next hs) (.ite (.next h₂.bump) ?_)
  split
  · exact .next h₃.bump
  · exact .ite (.next h₃.bump) (.ite (.next h₃.bump) (.ite (.next h₃.bump) (.ite (.next (.ite h₃.bump.srf h₃.bump.srf.mTwn.penalty))
      (.ite (.next h₃.bump) (.next h₃.takeFrame)))))

/-! ### The twin halves (spec 04) -/

theorem ChargeInOrder.execRefereeGrant (hs : ChargeInOrder s) : EndsInCharge (execRefereeGrant h s) := by
  unfold Machine.execRefereeGrant
  split
  · exact .next hs
  · extract_lets _ s₁ s₂
    have h₁ : ChargeInOrder s₁ := hs.same
    refine .ite (.next hs) ?_
    split
    exacts [.next h₁.claimEv, .ite (.next h₁.claimEv) (.next h₁.grantTo)]
theorem ChargeInOrder.execTokenRelease (hs : ChargeInOrder s) : EndsInCharge (execTokenRelease s) := by
  unfold Machine.execTokenRelease
  split
  · exact .next hs
  · split
    exacts [.next hs, .next (hs.releaseToken ‹_›)]
theorem ChargeInOrder.execAliveSignalMissing (hs : ChargeInOrder s) : EndsInCharge (execAliveSignalMissing s) := by
  unfold Machine.execAliveSignalMissing
  split
  · exact .next hs
  next x hx =>
    extract_lets _ s₁
    have h₁ : ChargeInOrder s₁ := hs.same
    exact .next (h₁.releaseToken hx)
theorem ChargeInOrder.execPortCountTakeover (hs : ChargeInOrder s) : EndsInCharge (execPortCountTakeover s) := by
  unfold Machine.execPortCountTakeover
  split
  · exact .next hs
  · extract_lets y _ _ s₁
    have h₁ : ChargeInOrder s₁ := hs.same
    have h₂ : ChargeInOrder (s₁.abandonHandover.claimEv y 2 0x11) := h₁.abandonHandover.claimEv
    exact .ite (.next hs.same) (.ite (.next hs) (.ite (.next h₂.grantTo) (.next h₁)))
theorem ChargeInOrder.execHandoverEdge (hs : ChargeInOrder s) : EndsInCharge (execHandoverEdge s) := by
  unfold Machine.execHandoverEdge
  split
  · exact .next hs
  · refine .ite (.next hs) ?_
    split
    · exact .next hs.claimEv.abandonHandover
    · extract_lets org s₁ s₂ s₃ s₄
      clear_value org
      have h₁ : ChargeInOrder s₁ := by
        unfold s₁
        split
        exacts [hs.complete, hs]
      have h₃ : ChargeInOrder s₃ := h₁.mTwn.grantTo.mTwn
      have h₅ : ChargeInOrder { s₃ with ho := none } := h₃.same
      have h₄ : ChargeInOrder s₄ := h₅.frame (frame_passTunnels _ _)
      exact .next h₄.ev
theorem ChargeInOrder.execTwinHeartbeatReceived (hs : ChargeInOrder s) : EndsInCharge (execTwinHeartbeatReceived h valid s) := by
  unfold Machine.execTwinHeartbeatReceived
  split
  · exact .next hs
  · extract_lets s₁ s₂ s₃
    have h₁ : ChargeInOrder s₁ := hs.mTwn
    have h₂ : ChargeInOrder s₂ := h₁.mh
    have h₃ : ChargeInOrder s₃ := h₂.mTwn
    exact .ite (.next h₁.mTwn) (.ite (.next h₃.stepDown) (.next h₃))
theorem ChargeInOrder.execTwnRelease (hs : ChargeInOrder s) : EndsInCharge (execTwnRelease o t s) := by
  refine .next (hs.verbG fun _ _ _ h₁ => ?_)
  split
  exacts [h₁.complete, .ite h₁.complete h₁.mTwn.complete]
theorem ChargeInOrder.execCleanHealthReturn (hs : ChargeInOrder s) : EndsInCharge (execCleanHealthReturn s) := by
  have h₁ (x) : ChargeInOrder { s with ho := x } := hs.same
  unfold Machine.execCleanHealthReturn
  split
  exacts [.ite (.next (h₁ _).mTwn) (.next hs), .next hs]
theorem ChargeInOrder.execTwnHandover (hs : ChargeInOrder s) : EndsInCharge (execTwnHandover o t s) := by
  refine .next (hs.verbG fun u _ _ h₁ => ?_)
  have h₂ (x) : ChargeInOrder { u with ho := x } := h₁.same
  split
  exacts [h₁.complete, .ite h₁.complete (.ite h₁.complete (.ite h₁.complete (h₂ _).mTwn.complete))]
theorem ChargeInOrder.execHandoverStateAck (hs : ChargeInOrder s) : EndsInCharge (execHandoverStateAck s) := by
  unfold Machine.execHandoverStateAck
  split
  exacts [.ite (.next hs.same) (.next hs), .next hs]
theorem ChargeInOrder.execHandoverTimeout (hs : ChargeInOrder s) : EndsInCharge (execHandoverTimeout s) := by
  unfold Machine.execHandoverTimeout
  split
  exacts [.ite (.next hs.abandonHandover) (.next hs), .next hs]
theorem ChargeInOrder.execRejoinStart (hs : ChargeInOrder s) : EndsInCharge (execRejoinStart h s) := by
  unfold Machine.execRejoinStart
  extract_lets o t s₁
  have h₁ : ChargeInOrder s₁ := (hs.frame (frame_takeStaged _ _)).frame (frame_loadImage _ _ _)
  exact .ite (.next ((h₁.retake rfl rfl).frame (frame_renewGstat _ _))) (.next hs)
theorem ChargeInOrder.shadowMiss (hs : ChargeInOrder s) : ChargeInOrder (shadowMiss s h lane spare) := hs.bump.ev
theorem ChargeInOrder.judgeShadow (hs : ChargeInOrder s) : ChargeInOrder (judgeShadow rs h s e) := by
  unfold Machine.judgeShadow
  split
  · extract_lets s₁
    have h₁ : ChargeInOrder s₁ := hs.mTwn
    exact .ite h₁.shadowMiss.goUnhealthy (.ite h₁.goUnhealthy h₁.mTwn)
  · exact .ite hs.shadowMiss.mTwn hs
theorem ChargeInOrder.inconclusive (hs : ChargeInOrder s) : ChargeInOrder (inconclusive s h) :=
  .ite hs.mTwn.bump.ev.penalty.goUnhealthy hs.mTwn.bump.ev.penalty
theorem ChargeInOrder.execShadowCompare (hs : ChargeInOrder s) : EndsInCharge (execShadowCompare h rs s) := by
  unfold Machine.execShadowCompare
  extract_lets _ _ s₁ s₂
  have h₂ : ChargeInOrder s₂ := hs.mTwn.foldl fun _ _ h₁ => h₁.shadowMiss
  exact .ite (.next hs) (.ite (.next (hs.foldl fun _ _ h₁ => h₁.judgeShadow)) (.ite (.next h₂.goUnhealthy) (.ite (.next
    h₂.inconclusive.inconclusive) (.next h₂))))
theorem ChargeInOrder.execPertArm (hs : ChargeInOrder s) : EndsInCharge (execPertArm o h v s) :=
  .next (hs.runAt fun _ _ h₁ => .ite h₁.complete (.ite h₁.complete h₁.srg.mTwn.complete))
theorem ChargeInOrder.execDigestCompare (hs : ChargeInOrder s) : EndsInCharge (execDigestCompare h s) := by
  unfold Machine.execDigestCompare
  extract_lets _ _ ex bad s₁
  have h₁ : ChargeInOrder s₁ := hs.bump
  clear_value bad
  refine .ite (.next hs) (.ite (.next hs.mTwn.stageMissed) ?_)
  split
  · exact .ite (.next h₁.mTwn.mTwn.healthEv) (.next h₁.mTwn)
  · exact .next h₁.mTwn.bump.ev
theorem ChargeInOrder.execScrubBlock (hs : ChargeInOrder s) : EndsInCharge (execScrubBlock h addr kind res s) := by
  unfold Machine.execScrubBlock
  extract_lets s₁ _
  have h₁ : ChargeInOrder s₁ := .ite hs hs.mTwn
  refine .ite (.next hs) (.ite (.next (.ite h₁.penalty h₁)) (.ite ?_ (.next h₁)))
  split
  · exact .next (.ite h₁.ev.mh h₁.ev)
  · exact .next h₁.ev.goUnhealthy
  all_goals exact .next h₁.ev
theorem ChargeInOrder.execHealthWindowEnd (hs : ChargeInOrder s) : EndsInCharge (execHealthWindowEnd h s) :=
  .ite (.next hs) (.next (hs.foldl fun _ _ h₂ => h₂.penalty).mh)
theorem ChargeInOrder.execUnhealthyResetTimeout (hs : ChargeInOrder s) : EndsInCharge (execUnhealthyResetTimeout h s) := by
  unfold Machine.execUnhealthyResetTimeout
  dsimp only
  split
  · exact .next hs
  · exact .ite (.next hs) (.next (.ite hs.resetHalf.mTwn hs.resetHalf))

/-! ### Lanes, thermal stops, registers (spec 05, 09, 16) -/

theorem ChargeInOrder.execLaneOverrun (hs : ChargeInOrder s) : EndsInCharge (execLaneOverrun h l s) := by
  unfold Machine.execLaneOverrun
  extract_lets _ _ s₁ s₂ s₃
  have h₁ : ChargeInOrder s₁ := hs.mCln
  have h₃ : ChargeInOrder s₃ := h₁.bump.ev.stagePenalty
  exact .ite (.next hs) (.ite (.next h₁) (.ite (.next h₃.goUnhealthy) (.next h₃)))
theorem ChargeInOrder.drainLane (hs : ChargeInOrder s) : ChargeInOrder (drainLane h s l) := by
  unfold Machine.drainLane
  extract_lets _ _ s₁ s₂ s₃ s₄
  have h₂ : ChargeInOrder s₂ := .ite hs.srg.bump hs.srg
  have h₃ : ChargeInOrder s₃ := .ite h₂.bump h₂
  exact .ite hs h₃.mCln.mTwn
theorem ChargeInOrder.execClaspDrain (hs : ChargeInOrder s) : EndsInCharge (execClaspDrain h s) :=
  .next (((hs.mTwn.foldl fun _ _ h₁ => h₁.drainLane).mCln.frame (frame_captureRow _ _ _)).frame (frame_captureRow _ _ _))
theorem ChargeInOrder.shutDown (hs : ChargeInOrder s) : ChargeInOrder (s.shutRecord cause h t pkg).haltBoth := (hs.frame (frame_shutRecord _ _ _ _ _)).haltBoth
theorem ChargeInOrder.execThermalPowerDown (hs : ChargeInOrder s) : EndsInCharge (execThermalPowerDown pkg s) := by
  unfold Machine.execThermalPowerDown
  split
  exacts [.next hs, .ite (.next hs.shutDown) (.next hs)]
theorem ChargeInOrder.execThermalEmergencyPowerDown (hs : ChargeInOrder s) : EndsInCharge (execThermalEmergencyPowerDown pkg s) := by
  unfold Machine.execThermalEmergencyPowerDown
  refine .ite (.next hs.shutDown) ?_
  split
  exacts [.ite (.next hs.shutDown) (.next hs), .next hs]
theorem ChargeInOrder.execThermalRestart (hs : ChargeInOrder s) : EndsInCharge (execThermalRestart pkg s) := by
  unfold Machine.execThermalRestart
  have h₁ (m) : ChargeInOrder { s with therm := m } := hs.same
  refine .ite (.next (h₁ _).resetN) (.ite (.next (h₁ _)) ?_)
  split
  · exact .next (h₁ _)
  · exact .next (.ite (h₁ _).resetN (h₁ _).resetN.same)

/-- A half sleeps: it gives up the token where it holds it, and acts no more. -/
theorem ChargeInOrder.sleepHalf (hs : ChargeInOrder s) : ChargeInOrder (sleepHalf s h) := by
  unfold Machine.sleepHalf
  extract_lets s₁
  have h₁ : ChargeInOrder s₁ := by
    unfold s₁
    split
    exacts [hs.releaseToken ‹_›, hs]
  exact h₁.mh rfl (by simp)
theorem ChargeInOrder.enterPower (hs : ChargeInOrder s) : ChargeInOrder (s.enterPower n) := by
  have h₁ : ChargeInOrder (s.showPower n) := hs.frame (frame_showPower _ _)
  have h₂ : ChargeInOrder ((s.showPower n).sleepHalves n) := .ite h₁.sleepHalf.sleepHalf h₁
  exact h₂.frame (frame_sleepShared _ _)
theorem ChargeInOrder.powerTarget (hs : ChargeInOrder s) : ChargeInOrder (s.powerTarget target) := by
  have denied (why) : ChargeInOrder (s.denyPower why) := hs.frame (frame_denyPower _ _)
  exact .ite hs.srf (.ite hs (.ite (denied _) (.ite (denied _) (.ite (denied _) hs.enterPower))))
theorem ChargeInOrder.putBits (hs : ChargeInOrder s) : ChargeInOrder (s.putBits b h off v) := .ite hs hs.srg
theorem ChargeInOrder.putDirect (hs : ChargeInOrder s) : ChargeInOrder (s.putDirect b h off v) := by
  unfold State.putDirect
  split
  · exact hs.frame (frame_mbxPut _ _ _ _)
  · exact .ite (hs.frame (frame_canPut _ _ _ _)) hs
  · exact hs.frame (frame_gpioPut _ _ _)
  · exact hs.frame (frame_lswPut _ _ _)
  · exact hs.frame (frame_rmsPut _ _ _)
  · exact .ite hs.putBits.powerTarget hs.putBits
  · exact hs.frame (frame_locPut _ _ _ _)
  all_goals exact hs.putBits
theorem ChargeInOrder.sharedPut (hs : ChargeInOrder s) : ChargeInOrder (s.sharedPut h b off v) := by
  unfold State.sharedPut
  split
  · exact hs.gated fun _ h₁ => .ite h₁.srf h₁.putDirect
  · exact hs.gated fun _ h₁ => h₁.putDirect
  · exact hs.gated fun _ h₁ => h₁.putDirect
  · exact hs.gated fun _ h₁ => h₁.putDirect
  · exact hs.gated fun _ h₁ => h₁
theorem ChargeInOrder.restartPartition (hs : ChargeInOrder s) : ChargeInOrder (restartPartition s h cause) := hs.frame (frame_restartPartition _ _ _)
theorem ChargeInOrder.mbxPut (hs : ChargeInOrder s) : ChargeInOrder (s.mbxPut h off v) := hs.frame (frame_mbxPut _ _ _ _)
theorem ChargeInOrder.partPut (hs : ChargeInOrder s) : ChargeInOrder (s.partPut h b off v) := by
  unfold State.partPut
  extract_lets
  refine .ite hs.restartPartition ?_
  split
  exacts [.ite (hs.frame (frame_memPut _ _ _ _)) (hs.frame (frame_locPut _ _ _ _)), .ite hs.mbxPut hs, hs.sharedPut]
theorem ChargeInOrder.cfgPut (hs : ChargeInOrder s) : ChargeInOrder (s.cfgPut t e) := by
  unfold State.cfgPut
  extract_lets s₁
  have h₁ : ChargeInOrder s₁ := ((hs.frame (frame_putShadow _ _ _ _ _)).frame (frame_putLocked _ _ _ _ _)).putDirect
  exact .ite h₁.mTwn h₁
theorem ChargeInOrder.execRegisterWrite (hs : ChargeInOrder s) : EndsInCharge (execRegisterWrite w b h off v s) := by
  unfold Machine.execRegisterWrite
  split
  · exact .ite (.next hs.mbxPut) (.next hs)
  · exact .next hs.partPut
  · exact .next (.ite hs (.ite (hs.gated fun _ h₁ => h₁.cfgPut) hs.cfgPut))
theorem ChargeInOrder.cfgVerb (hs : ChargeInOrder s) (hb : ∀ s x t r, ChargeInOrder s → ChargeInOrder (body s x t r)) :
    ChargeInOrder (s.cfgVerb o b v here roles body) :=
  .ite hs.start.complete (.ite (hs.runAt fun _ _ h₁ => .ite h₁.complete (hb _ _ _ _ h₁)) (hs.verbG fun _ _ _ h₁ => .ite h₁.complete (hb _ _ _ _ h₁)))
theorem ChargeInOrder.execCfgWrite (hs : ChargeInOrder s) : EndsInCharge (execCfgWrite o b off ws s) := by
  refine .next (hs.cfgVerb fun _ _ _ _ h₁ => ?_)
  extract_lets
  refine .ite h₁.complete (.ite h₁.complete ?_)
  split
  exacts [h₁.complete, .complete (h₁.foldl fun _ _ h₂ => h₂.cfgPut)]
theorem ChargeInOrder.execAliasWrite (hs : ChargeInOrder s) : EndsInCharge (execAliasWrite h b off op s) := by
  unfold Machine.execAliasWrite
  refine .ite (.next hs.restartPartition) ?_
  split
  · exact .next (hs.gated fun _ h₁ => h₁)
  · split
    exacts [.next hs.sharedPut, .next (hs.gated fun _ h₁ => h₁)]

/-! ### Boot, update, recovery and power (spec 19, 20) -/

theorem ChargeInOrder.mRec (hs : ChargeInOrder s) : ChargeInOrder (s.mRec k f) := hs.mUpd
theorem ChargeInOrder.revertBank (hs : ChargeInOrder s) : ChargeInOrder (s.revertBank k) := hs.frame (frame_revertBank _ _)
theorem ChargeInOrder.execBootStage (hs : ChargeInOrder s) : EndsInCharge (execBootStage part stage ok digest s) := by
  unfold Machine.execBootStage
  dsimp only
  refine .ite (.next hs) ?_
  split
  · exact .ite (.next (.ite hs.mUpd.mTwn hs.mUpd)) (.next hs)
  · split
    · exact .next hs
    · exact .ite (.next (.ite hs.mUpd.mTwn hs.mUpd)) (.next hs.mRec)
theorem ChargeInOrder.execBootBankSelect (hs : ChargeInOrder s) : EndsInCharge (execBootBankSelect k s) := by
  unfold Machine.execBootBankSelect
  dsimp only
  refine .ite (.next hs) ?_
  split
  · exact .next hs.mRec
  · split
    exacts [.next hs.revertBank.mRec, .ite (.next hs.revertBank.enterRecovery) (.next hs.revertBank)]
theorem ChargeInOrder.execActivationRejoinTimeout (hs : ChargeInOrder s) : EndsInCharge (execActivationRejoinTimeout s) := by
  unfold Machine.execActivationRejoinTimeout
  split
  exacts [.next hs, .ite (.next hs) (.next hs.revertBank.resetHalf)]
theorem ChargeInOrder.execUpdActivate (hs : ChargeInOrder s) : EndsInCharge (execUpdActivate o part flags at_ s) := by
  refine .next (hs.verbG fun _ _ _ h₁ => ?_)
  have trial {s k} (hs : ChargeInOrder s) : ChargeInOrder (s.toTrial k) := hs.frame (frame_toTrial _ _)
  extract_lets
  refine .ite h₁.complete (.ite h₁.complete (.ite h₁.complete (.ite h₁.complete (.ite h₁.complete (.ite h₁.complete ?_)))))
  split
  · exact .ite h₁.complete ((trial h₁.complete.mUpd).frame (frame_islandStart _))
  · exact .ite h₁.complete (((trial h₁.complete.mUpd).frame (frame_sealedLog _ _ _ _ _ _)).frame (frame_islandCpuRestart _))
  · exact .ite (.ite h₁.complete h₁.complete.mUpd.resetInto) (.ite h₁.complete (.ite h₁.complete h₁.complete.mUpd))
theorem ChargeInOrder.execUpdRecover (hs : ChargeInOrder s) : EndsInCharge (execUpdRecover o t s) := by
  refine .next (hs.verbG fun _ _ _ h₁ => ?_)
  split
  exacts [h₁.complete, h₁.complete.enterRecovery]
theorem ChargeInOrder.execSingleHalfActivationReset (hs : ChargeInOrder s) : EndsInCharge (execSingleHalfActivationReset s) := by
  unfold Machine.execSingleHalfActivationReset
  split
  exacts [.ite (.next hs) (.next hs.mUpd.resetInto), .next hs]
theorem ChargeInOrder.execRecoveryBoot (hs : ChargeInOrder s) : EndsInCharge (execRecoveryBoot h seq s) :=
  .next (.ite hs ((hs.foldl fun _ _ h₁ => .ite (h₁.frame (frame_toTrial _ _)) h₁).resetHalf.mTwn.frame (frame_mRecov _ _ _)))
theorem ChargeInOrder.execHoldupHalvesStop (hs : ChargeInOrder s) : EndsInCharge (execHoldupHalvesStop v s) := by
  have h₁ : ChargeInOrder (s.setVhold v) := hs.frame (frame_setVhold _ _)
  exact .ite (.next ((h₁.haltHalf.haltHalf.frame (frame_resetShared _)).frame (frame_mPwr _ _))) (.next h₁)
theorem ChargeInOrder.execHoldupEnd (hs : ChargeInOrder s) : EndsInCharge (execHoldupEnd s) := by
  have h₁ : ChargeInOrder s.holdupOver := hs.frame (frame_holdupOver s)
  exact .ite (.next h₁.resetN) (.ite (.next ((h₁.frame (frame_flashDrains _)).frame (frame_lktResumes _ _))) (.next h₁))
theorem ChargeInOrder.execModuleStart (hs : ChargeInOrder s) : EndsInCharge (execModuleStart s) :=
  .ite (.next hs) (.next (hs.por.frame (frame_moduleUp s)))
theorem ChargeInOrder.execResetN (hs : ChargeInOrder s) : EndsInCharge (execResetN ns s) :=
  .ite (.next hs) (.ite (.next hs.resetN) (.ite (.next hs.drew.resetN) (.next hs.drew)))
theorem ChargeInOrder.wakeUp (hs : ChargeInOrder s) : ChargeInOrder s.wakeUp := by
  have cause {s h c} (hs : ChargeInOrder s) : ChargeInOrder (s.setCause h c) := hs.frame (frame_setCause _ _ _)
  unfold State.wakeUp
  extract_lets _ s₁ s₂ s₃ s₄
  have h₁ : ChargeInOrder s₁ := hs.frame (frame_showPower _ _)
  have h₂ : ChargeInOrder s₂ := .ite h₁.mTwn.mTwn h₁
  have h₃ : ChargeInOrder s₃ := .ite (cause (cause h₂)) (.ite (cause (cause h₂)) h₂)
  have h₄ : ChargeInOrder s₄ := h₃.same
  exact .ite (h₄.frame (frame_mLkt _ _)) h₃
theorem ChargeInOrder.execSvcBtnRelease (hs : ChargeInOrder s) : EndsInCharge (execSvcBtnRelease ms gap s) := by
  unfold Machine.execSvcBtnRelease
  extract_lets s₁ s₂ s₃
  have h₁ : ChargeInOrder s₁ := .ite hs.same hs
  have h₂ : ChargeInOrder s₂ := h₁.srf.frame (frame_mBil _ _)
  have h₃ : ChargeInOrder s₃ := h₁.srf.frame (frame_evShared _ _ _ _ _)
  refine .ite (.next hs) (.ite (.next h₁) (.ite (.next (.ite h₂.wakeUp h₂)) ?_))
  split
  exacts [.next h₃.enterRecovery, .next h₃.enterRecovery.enterRecovery]

/-! ### Every command, and the step -/

/-- Whatever the command, charge stays in order: the commands whose frame holds no claim, no token and no half by that, each other one by its meaning. -/
theorem ChargeInOrder.exec (hs : ChargeInOrder s) : EndsInCharge (exec c s) := by
  cases c
  case registerWrite => exact hs.execRegisterWrite
  case tickEdge => exact hs.execTickEdge
  case snapshotPublish => exact hs.execSnapshotPublish
  case lossOfReference => exact .next hs.mTck.clockLost
  case lossOfLock => exact .next hs.clockLost
  case skewMeasure => exact hs.execSkewMeasure
  case restartWithoutService => exact hs.execRestartWithoutService
  case startPath => exact hs.execStartPath
  case ingestMapExchange => exact hs.execIngestMapExchange
  case allocationLatch => exact hs.execAllocationLatch
  case downlinkDispatch => exact hs.execDownlinkDispatch
  case uplinkTickFrame => exact hs.execUplinkTickFrame
  case refereeRequest => exact .next hs.requestRaise
  case refereeGrant => exact hs.execRefereeGrant
  case tokenRelease => exact hs.execTokenRelease
  case aliveSignalMissing => exact hs.execAliveSignalMissing
  case portCountTakeover => exact hs.execPortCountTakeover
  case handoverEdge => exact hs.execHandoverEdge
  case twinHeartbeatSend => exact .next hs.mTwn
  case relayedSnapshotReceived => exact .next hs.mTwn
  case penaltyDecay => exact .next hs.mTwn
  case pertEnd => exact .ite (.next hs.mTwn) (.next hs)
  case twinHeartbeatReceived => exact hs.execTwinHeartbeatReceived
  case twinLinkDead => exact .ite (.next hs.mTwn.renewHealth) (.next hs)
  case twnRelease => exact hs.execTwnRelease
  case cleanHealthReturn => exact hs.execCleanHealthReturn
  case twnHandover => exact hs.execTwnHandover
  case handoverStateAck => exact hs.execHandoverStateAck
  case handoverTimeout => exact hs.execHandoverTimeout
  case rejoinStart => exact hs.execRejoinStart
  case shadowCompare => exact hs.execShadowCompare
  case pertArm => exact hs.execPertArm
  case digestCompare => exact hs.execDigestCompare
  case scrubBlock => exact hs.execScrubBlock
  case healthWindowEnd => exact hs.execHealthWindowEnd
  case unhealthyResetTimeout => exact hs.execUnhealthyResetTimeout
  case halfReset => exact .next hs.resetHalf
  case updRecover => exact hs.execUpdRecover
  case singleHalfActivationReset => exact hs.execSingleHalfActivationReset
  case recoveryBoot => exact hs.execRecoveryBoot
  case claimLossRelinquish => exact .ite (.next hs.same) (.next hs)
  case refereeDailyExercise => exact .next hs.same
  case laneOverrun => exact hs.execLaneOverrun
  case claspDrain => exact hs.execClaspDrain
  case thermalPowerDown => exact hs.execThermalPowerDown
  case thermalEmergencyPowerDown => exact hs.execThermalEmergencyPowerDown
  case thermalRestart => exact hs.execThermalRestart
  case cfgWrite => exact hs.execCfgWrite
  case aliasWrite => exact hs.execAliasWrite
  case bootStage => exact hs.execBootStage
  case bootBankSelect => exact hs.execBootBankSelect
  case activationRejoinTimeout => exact hs.execActivationRejoinTimeout
  case updActivate => exact hs.execUpdActivate
  case holdupHalvesStop => exact hs.execHoldupHalvesStop
  case holdupEnd => exact hs.execHoldupEnd
  case moduleStart => exact hs.execModuleStart
  case resetN => exact hs.execResetN
  case svcBtnRelease => exact hs.execSvcBtnRelease
  case powerStateRequest => exact .next (hs.gated fun _ h₁ => h₁.powerTarget)
  case wake => exact .ite (.next hs.wakeUp) (.next hs)
  case wakeTimerExpiry => exact .ite (.next hs.wakeUp) (.next hs)
  all_goals exact fun t e => hs.frame (everyCommandKeepsItsFrame _ _ t e)

theorem ChargeInOrder.step (hs : ChargeInOrder s) : EndsInCharge (step s) := by
  unfold Machine.step
  split
  · exact .next hs
  next c rest _ =>
    have h₁ : ChargeInOrder { s with pending := rest } := hs.same
    exact h₁.exec

/-- One token, one half that acts. -/
theorem ChargeInOrder.oneActs (hs : ChargeInOrder s) : ¬((s.hf .A).twn.acting = true ∧ (s.hf .B).twn.acting = true) := fun ⟨a, b⟩ => by
  have both := (hs.1 .A a).symm.trans (hs.1 .B b)
  simp at both

/-- Settles O54: each meaning is built of operations that keep charge in order, and only the holder of the one token acts. -/
theorem chargeStaysInOrder : Obligations.ChargeStaysInOrder := ⟨fun _ t hs e => hs.step t e, fun _ hs => hs.oneActs⟩

end

end Sys2Proof.Machine

/-!
O13, the heartbeats, the twin link and the handover (R138 to R145). What a received heartbeat makes of the half's record is one update (`TwnS.heard`); what
renewing its health leaves of the record, and what an abandoned handover does, are said once each.
-/

namespace Sys2Proof.Machine

section

/-! ### Heartbeats (R140) -/

/-- The twin record of a half that has received the heartbeat `b` in tick `n`. -/
def TwnS.heard (b : Heartbeat) (n : Nat) (t : TwnS) : TwnS :=
  let g := if t.hbTick + 1 = n then t.hbGood + 1 else 1
  { t with otherClaim := b.claim, otherHealth := b.health, otherGen := b.gen, otherToken := b.token, hbTick := n, hbGood := g, up := t.up || decide (16 ≤ g) }

/-- The state in which half `h` has taken the heartbeat `b` that the other half had sent. -/
def State.heard (s : State) (h : Half) (b : Heartbeat) : State :=
  ((s.mTwn (other h) fun t => { t with hbOut := none }).mh h fun x => { x with thm := { x.thm with otherTj := b.tj } }).mTwn h (TwnS.heard b (s.tick h))

theorem twn_heard (s : State) (h : Half) (b : Heartbeat) : ((s.heard h b).hf h).twn = (s.hf h).twn.heard b (s.tick h) := by cases h <;> rfl

theorem twn_heard_other (s : State) (h : Half) (b : Heartbeat) : ((s.heard h b).hf (other h)).twn = { (s.hf (other h)).twn with hbOut := none } := by
  cases h <;> rfl

theorem frame_heard (s : State) (h : Half) (b : Heartbeat) : Frame [.twn .A, .twn .B, .thm h] s (s.heard h b) := by
  unfold State.heard
  cases h <;> simp (maxDischargeDepth := 8) [other, Frame.refl]

/-- A valid heartbeat is taken; one that shows a higher claim with the token ends the half's charge (R138). -/
theorem exec_twinHeartbeatReceived_valid {s : State} {h : Half} {b : Heartbeat} (e : (s.hf (other h)).twn.hbOut = some b) :
    exec (.twinHeartbeatReceived h true) s =
      .next (if (s.hf h).twn.claim < b.claim ∧ b.token = true then (s.heard h b).stepDown h 0x14 else s.heard h b) := by
  have claim : ((s.heard h b).hf h).twn.claim = (s.hf h).twn.claim := by rw [twn_heard]; rfl
  show execTwinHeartbeatReceived h true s = _
  unfold execTwinHeartbeatReceived
  rw [e]
  refine (if_neg (show ¬(!true) = true by simp)).trans ?_
  extract_lets s₂ s₃
  have e₃ : s₃ = s.heard h b := by
    have tick : s₂.tick h = s.tick h := by cases h <;> rfl
    simp only [s₃, tick]
    rfl
  rw [e₃, claim]
  simp only [Bool.and_eq_true, decide_eq_true_eq]
  split <;> rfl

theorem exec_twinHeartbeatReceived_heard {s : State} {h : Half} {b : Heartbeat} (e : (s.hf (other h)).twn.hbOut = some b)
    (n : ¬((s.hf h).twn.claim < b.claim ∧ b.token = true)) : exec (.twinHeartbeatReceived h true) s = .next (s.heard h b) := by
  rw [exec_twinHeartbeatReceived_valid e, if_neg n]

theorem exec_twinHeartbeatReceived_invalid {s : State} {h : Half} {b : Heartbeat} (e : (s.hf (other h)).twn.hbOut = some b) :
    exec (.twinHeartbeatReceived h false) s =
      .next ((s.mTwn (other h) fun t => { t with hbOut := none }).mTwn h fun t => { t with hbGood := 0 }) := by
  show execTwinHeartbeatReceived h false s = _
  simp only [execTwinHeartbeatReceived, e]
  rfl

/-- A half in charge that hears a higher claim with the token acts in charge no more; it keeps its claim. -/
theorem ends_twinHeartbeatReceived_outranked {s : State} {h : Half} {b : Heartbeat} (e : (s.hf (other h)).twn.hbOut = some b)
    (hc : (s.hf h).twn.claim < b.claim) (ht : b.token = true) (ha : (s.hf h).twn.acting = true) :
    Ends (.twinHeartbeatReceived h true) s fun t => (t.hf h).twn.acting = false ∧ (t.hf h).twn.claim = (s.hf h).twn.claim ∧ t.ref = s.ref ∧
        Frame (.regs .twn :: .blocks :: .thm h :: .twn .A :: .twn .B :: .cln h :: bothMbx) s t := by
  have acts : ((s.heard h b).hf h).twn.acting = true := by rw [twn_heard]; exact ha
  have f : Frame (.regs .twn :: .blocks :: .thm h :: .twn .A :: .twn .B :: .cln h :: bothMbx) s ((s.heard h b).stepDown h 0x14) := by
    refine ((frame_heard s h b).mono (by simp)).trans ((frame_stepDown_half acts 0x14).mono ?_)
    cases h <;> simp [bothMbx]
  refine Ends.of_next ((exec_twinHeartbeatReceived_valid e).trans (congrArg _ (if_pos ⟨hc, ht⟩))) ⟨?_, ?_, f.ref (by simp [bothMbx]), f⟩
  · rw [twn_stepDown acts]
  · rw [twn_stepDown acts, twn_heard]; rfl

/-! ### The health of a half renewed (R140, R152) -/

theorem twn_told (s : State) (h : Half) (f : TwnS → TwnS) (cause : Nat) : (((s.mTwn h f).healthEv h cause).hf h).twn = f (s.hf h).twn := by
  rw [(frame_healthEv _ h cause).twn (by simp), twn_mTwn]

theorem frame_told (s : State) (h : Half) (f : TwnS → TwnS) (cause : Nat) : Frame (.twn h :: bothMbx) s ((s.mTwn h f).healthEv h cause) :=
  ((frame_mTwn s h f).mono (by simp)).trans ((frame_healthEv _ h cause).mono (by simp [bothMbx]))

/-- COVER is renewed from what holds now; but for it, CLEAN and the penalty event held back, the half's record stays. -/
theorem twn_renewHealth (s : State) (h : Half) : ((s.renewHealth h).hf h).twn =
    { (s.hf h).twn with cover := s.coverNow h, clean := ((s.renewHealth h).hf h).twn.clean, cleanSince := ((s.renewHealth h).hf h).twn.cleanSince,
                        penHeld := ((s.renewHealth h).hf h).twn.penHeld, penEvTick := ((s.renewHealth h).hf h).twn.penEvTick } := by
  unfold State.renewHealth
  extract_lets c s₁ d s₂
  have h₁ : (s₁.hf h).twn = { (s.hf h).twn with cover := c } := by
    by_cases e : c = (s.hf h).twn.cover
    · simp only [s₁, if_pos e, e]
    · simp only [s₁, if_neg e, twn_told]
  have h₂ : (s₂.hf h).twn = { (s₁.hf h).twn with clean := (s₂.hf h).twn.clean, cleanSince := (s₂.hf h).twn.cleanSince } := by
    by_cases e : d = (s₁.hf h).twn.clean
    · simp only [s₂, if_pos e]
    · simp only [s₂, if_neg e, twn_told]
  rw [h₁] at h₂
  split
  · split
    · rw [twn_told, h₂]
    · rw [h₂]
  · rw [h₂]

theorem frame_renewHealth_half (s : State) (h : Half) : Frame (.twn h :: bothMbx) s (s.renewHealth h) := by
  unfold State.renewHealth
  extract_lets c s₁ d s₂
  have f₁ : Frame (.twn h :: bothMbx) s s₁ := Frame.ite (fun _ => Frame.refl _ s) fun _ => frame_told s h _ _
  have f₂ : Frame (.twn h :: bothMbx) s s₂ := f₁.trans (Frame.ite (fun _ => Frame.refl _ s₁) fun _ => frame_told s₁ h _ _)
  split
  · exact f₂.trans (Frame.ite (fun _ => frame_told s₂ h _ _) fun _ => Frame.refl _ s₂)
  · exact f₂

/-- A half whose link is down is not covered (R47). -/
theorem coverNow_of_linkDown {s : State} {h : Half} (d : s.twinUp h = false) : s.coverNow h = false := by simp [State.coverNow, d]

theorem ends_twinLinkDead {s : State} {h : Half} (u : (s.hf h).twn.up = true) (n : (s.hf h).twn.hbTick + 2 ≤ s.tick h) :
    Ends (.twinLinkDead h) s fun t => (t.hf h).twn.up = false ∧ (t.hf h).twn.hbGood = 0 ∧ (t.hf h).twn.cover = false ∧ Frame (.twn h :: bothMbx) s t := by
  have down : ((s.mTwn h fun t => { t with up := false, hbGood := 0 }).twinUp h) = false := congrArg TwnS.up (twn_mTwn s h _)
  refine Ends.of_next (if_pos (by simp [u, n])) ⟨?_, ?_, ?_, ((frame_mTwn s h _).mono (by simp)).trans (frame_renewHealth_half _ h)⟩
  · rw [twn_renewHealth, twn_mTwn]
  · rw [twn_renewHealth, twn_mTwn]
  · rw [twn_renewHealth, coverNow_of_linkDown down]

/-! ### The handover (R143, R144) -/

/-- The handover `x` asked for: its destination carries the request in its heartbeat. -/
def State.asksHandover (s : State) (x : Handover) : State := { s with ho := some x }.mTwn x.dst fun t => { t with hoReq := true }

theorem ho_asksHandover (s : State) (x : Handover) : (s.asksHandover x).ho = some x := by simp [State.asksHandover]

theorem twn_asksHandover (s : State) (x : Handover) : ((s.asksHandover x).hf x.dst).twn = { (s.hf x.dst).twn with hoReq := true } := twn_mTwn ..

theorem frame_asksHandover (s : State) (x : Handover) : Frame [.twn x.dst, .ho] s (s.asksHandover x) := by
  simp (maxDischargeDepth := 8) [State.asksHandover, Frame.refl]

theorem exec_cleanHealthReturn_due {s : State} {g : Half} (c : s.charge = some g) (n : s.ho = none) (p : preferred s (other g) = some (other g))
    (cl : (s.hf (other g)).twn.clean = true) (due : (s.hf (other g)).twn.cleanSince + 20000 * s.rf .twn (other g) 0 25 16 ≤ s.tick (other g)) :
    exec .cleanHealthReturn s = .next (s.asksHandover { dst := other g, tick := s.tick (other g), phase := 0, org := none }) := by
  show execCleanHealthReturn s = _
  simp only [execCleanHealthReturn, c, n]
  exact if_pos (by simp [p, cl, due])

theorem exec_cleanHealthReturn_notPreferred {s : State} {g : Half} (c : s.charge = some g) (p : preferred s (other g) ≠ some (other g)) :
    exec .cleanHealthReturn s = .next s := by
  show execCleanHealthReturn s = _
  unfold execCleanHealthReturn
  rw [c]
  split
  · next e _ => cases e; exact if_neg (by simp [p])
  · rfl

theorem exec_twnHandover {s : State} {o : Org} {n r : Nat} {x : Half} (hr : RunsAt s o 0x0301 x r) (m : r ∈ [rInstaller, rVendor]) :
    exec (.twnHandover o n) s = .next (let u := s.start o 0x0301 r (some x)
      match halfOf n with
      | none => u.complete o x 0x0301 stRange true []
      | some d =>
        if d = x then u.complete o x 0x0301 stRange true []
        else if 0x7FFF ≤ u.ref.e then u.complete o x 0x0301 0x0302 true []
        else if (u.raiseRefusal d true true).isSome || u.ho.isSome then u.complete o x 0x0301 0x0301 true []
        else (u.asksHandover { dst := d, tick := u.tick x, phase := 0, org := some o }).complete o x 0x0301 stPending false []) :=
  congrArg Host.Outcome.next (verb_runs hr m _)

/-- There are two halves. -/
theorem eq_other_of_ne {d x : Half} (n : d ≠ x) : d = other x := by
  revert n
  cases d <;> cases x <;> decide

/-- A number that names a half, but not the other one, names this one. -/
theorem halfOf_here {n : Nat} {x d : Half} (e : halfOf n = some d) (ne : halfOf n ≠ some (other x)) : d = x :=
  by_contra fun c => ne (e.trans (congrArg some (eq_other_of_ne c)))

theorem ends_twnHandover_range {s : State} {o : Org} {n r : Nat} {x : Half} (hr : RunsAt s o 0x0301 x r) (m : r ∈ [rInstaller, rVendor])
    (ne : halfOf n ≠ some (other x)) : Ends (.twnHandover o n) s fun t => AnsweredWith t o 0x0301 stRange true [] ∧ Frame [.mbx o.half] s t := by
  refine Ends.of_next (u := (s.start o 0x0301 r (some x)).complete o x 0x0301 stRange true []) ((exec_twnHandover hr m).trans (congrArg _ ?_)) (answers_only (by simp))
  dsimp only
  split
  · rfl
  · next d e => exact if_pos (halfOf_here e ne)

theorem ends_twnHandover_epoch {s : State} {o : Org} {n r : Nat} {x : Half} (hr : RunsAt s o 0x0301 x r) (m : r ∈ [rInstaller, rVendor])
    (e : halfOf n = some (other x)) (le : 0x7FFF ≤ s.ref.e) :
    Ends (.twnHandover o n) s fun t => AnsweredWith t o 0x0301 0x0302 true [] ∧ Frame [.mbx o.half] s t := by
  refine Ends.of_next (u := (s.start o 0x0301 r (some x)).complete o x 0x0301 0x0302 true []) ((exec_twnHandover hr m).trans (congrArg _ ?_)) (answers_only (by simp))
  simp only [e]
  rw [if_neg (other_ne x), if_pos (by simpa using le)]

theorem ends_twnHandover_asked {s : State} {o : Org} {n r : Nat} {x : Half} (hr : RunsAt s o 0x0301 x r) (m : r ∈ [rInstaller, rVendor])
    (e : halfOf n = some (other x)) (lt : s.ref.e < 0x7FFF) (ok : s.raiseRefusal (other x) true true = none) (nh : s.ho = none) :
    Ends (.twnHandover o n) s fun t => t.ho = some { dst := other x, tick := s.tick x, phase := 0, org := some o } ∧ (t.hf (other x)).twn.hoReq = true ∧
        AnsweredWith t o 0x0301 stPending false [] ∧ Frame [.twn (other x), .ho, .mbx o.half] s t := by
  let u := (s.start o 0x0301 r (some x)).asksHandover { dst := other x, tick := s.tick x, phase := 0, org := some o }
  have fu : Frame [.twn (other x), .ho] (s.start o 0x0301 r (some x)) u :=
    frame_asksHandover (s.start o 0x0301 r (some x)) { dst := other x, tick := s.tick x, phase := 0, org := some o }
  have run : Running u o := running_congr (congrArg MbxS.started (mbx_of_frame fu o.half (by simp))) (running_start ..)
  have fc := frame_complete u o x 0x0301 stPending false []
  refine Ends.of_next (u := u.complete o x 0x0301 stPending false []) ((exec_twnHandover hr m).trans (congrArg _ ?_)) ⟨?_, ?_, ?_, ?_⟩
  · simp only [e, raiseRefusal_start, ok, start_ho, start_ref, nh, tick_start]
    rw [if_neg (other_ne x), if_neg (by omega), if_neg (by simp)]
  · rw [fc .ho (by simp)]; exact ho_asksHandover ..
  · rw [fc.twn (by simp)]; exact congrArg TwnS.hoReq (twn_asksHandover ..)
  · exact answered_complete run _ _ _ _ _ (by simp)
  · exact ((frame_start s o 0x0301 r (some x)).mono (by simp)).trans ((fu.mono (by simp)).trans (fc.mono (by simp)))

theorem exec_handoverReq_first {s : State} {x : Handover} (e : s.ho = some x) (p : x.phase = 0) :
    exec .handoverReq s = .next { s with ho := some { x with phase := 1 } } := by
  show execHandoverReq s = _
  simp only [execHandoverReq, e, p, if_true]

theorem exec_handoverStateSend {s : State} {x : Handover} (e : s.ho = some x) :
    exec .handoverStateSend s = .next (if x.phase = 1 ∧ handoverQuiet s (other x.dst) = true then
      { s with ho := some { x with phase := 2 } }.mh x.dst fun y => { y with thm := { y.thm with models := (s.hf (other x.dst)).thm.models } } else s) := by
  show execHandoverStateSend s = _
  simp only [execHandoverStateSend, e, Bool.and_eq_true, decide_eq_true_eq]
  split <;> rfl

theorem exec_handoverStateAck_second {s : State} {x : Handover} (e : s.ho = some x) (p : x.phase = 2) :
    exec .handoverStateAck s = .next { s with ho := some { x with phase := 3 },
                                              ref := { s.ref with rel := some { from_ := other x.dst, dst := x.dst, edge := s.tick (other x.dst) + 3 } } } := by
  show execHandoverStateAck s = _
  simp only [execHandoverStateAck, e, p, if_true]

theorem exec_handoverTimeout {s : State} {x : Handover} (e : s.ho = some x) :
    exec .handoverTimeout s = .next (if x.phase ≤ 2 ∧ x.tick + 4000 ≤ s.tick (other x.dst) then s.abandonHandover else s) := by
  show execHandoverTimeout s = _
  simp only [execHandoverTimeout, e, Bool.and_eq_true, decide_eq_true_eq]
  split <;> rfl

/-- The handover gone, the taking half asking no more. -/
def State.handoverDropped (s : State) (x : Handover) : State :=
  { s with ho := none, ref := { s.ref with rel := none } }.mTwn x.dst fun t => { t with cleanSince := (s.hf x.dst).tck.tick, hoReq := false }

theorem frame_handoverDropped (s : State) (x : Handover) : Frame [.twn x.dst, .ref, .ho] s (s.handoverDropped x) := by
  simp (maxDischargeDepth := 8) [State.handoverDropped, Frame.refl]

/-- A handover nobody waits for is dropped and logged. -/
theorem abandonHandover_unasked {s : State} {x : Handover} (e : s.ho = some x) (n : x.org = none) :
    ∃ d, s.abandonHandover = (s.handoverDropped x).ev (other x.dst) 0 0x0304 d := by
  simp only [State.abandonHandover, e, n]
  exact ⟨_, rfl⟩

theorem ends_handoverTimeout {s : State} {x : Handover} (e : s.ho = some x) (p : x.phase ≤ 2) (late : x.tick + 4000 ≤ s.tick (other x.dst)) (n : x.org = none) :
    Ends .handoverTimeout s fun t => t.ho = none ∧ t.ref.rel = none ∧ t.ref.token = s.ref.token ∧ (t.hf x.dst).twn.hoReq = false ∧
        (t.hf (other x.dst)).twn = (s.hf (other x.dst)).twn ∧ Frame (.twn x.dst :: .ref :: .ho :: bothMbx) s t := by
  obtain ⟨d, ed⟩ := abandonHandover_unasked e n
  have fe := frame_ev (s.handoverDropped x) (other x.dst) 0 0x0304 d
  have eh : (s.handoverDropped x).ho = none := by simp [State.handoverDropped]
  have er : (s.handoverDropped x).ref = { s.ref with rel := none } := by simp [State.handoverDropped]
  have et : ((s.handoverDropped x).hf x.dst).twn.hoReq = false := congrArg TwnS.hoReq (twn_mTwn ..)
  have f : Frame (.twn x.dst :: .ref :: .ho :: bothMbx) s s.abandonHandover := by
    rw [ed]
    exact ((frame_handoverDropped s x).mono (by simp)).trans (fe.mono (by simp +contextual))
  refine Ends.of_next ((exec_handoverTimeout e).trans (congrArg _ (if_pos ⟨p, late⟩))) ⟨?_, ?_, ?_, ?_, f.twn ?_, f⟩
  · rw [ed, fe .ho (by simp [bothMbx]), eh]
  · rw [ed, fe.ref (by simp [bothMbx]), er]
  · rw [token_abandonHandover]
  · rw [ed, fe.twn (by simp [bothMbx]), et]
  · simp [bothMbx, other_ne]

end

/-! ### The obligation -/

/-- Settles O13: a heartbeat received is one update of the record, a handover's step one update of the handover, and what else can happen is one operation each. -/
theorem twinLinkAndHandover : Obligations.TwinLinkAndHandover := by
  refine ⟨fun s h => Ends.of_next rfl ⟨⟨_, twn_mTwn .., rfl, rfl, rfl, rfl, rfl, rfl⟩, frame_mTwn s h _⟩, ?counted, ?up, ?anew,
    fun s h b e hc ht ha => ends_twinHeartbeatReceived_outranked e hc ht ha, ?invalid, fun s h u n => ends_twinLinkDead u n, ?alive,
    fun s h => Ends.of_next rfl ⟨twn_mTwn .., frame_mTwn s h _⟩, ?due, fun s g c p => exec_cleanHealthReturn_notPreferred c p,
    fun s o n r x hr m e lt ok nh => ends_twnHandover_asked hr m e lt ok nh, fun s o n r x hr m ne => ends_twnHandover_range hr m ne,
    fun s o n r x hr m e le => ends_twnHandover_epoch hr m e le,
    fun s x e p => Ends.of_next (exec_handoverReq_first e p) ⟨rfl, by simp [Frame.refl]⟩, ?sent, ?busy,
    fun s x e p => Ends.of_next (exec_handoverStateAck_second e p) ⟨rfl, rfl, by simp [Frame.refl]⟩,
    fun s x e p late n => ends_handoverTimeout e p late n, ?finished⟩
  case counted =>
    intro s h b e ht hg hu n
    refine Ends.of_next (exec_twinHeartbeatReceived_heard e n) ⟨?_, ?_, ?_, ?_, ?_, ?_, ?_, frame_heard s h b⟩
    · rw [twn_heard_other]
    all_goals simp [twn_heard, TwnS.heard, ht, hu]
    omega
  case up =>
    intro s h b e ht hg n
    refine Ends.of_next (exec_twinHeartbeatReceived_heard e n) ⟨?_, frame_heard s h b⟩
    simp [twn_heard, TwnS.heard, ht, hg]
  case anew =>
    intro s h b e ht n
    refine Ends.of_next (exec_twinHeartbeatReceived_heard e n) ⟨?_, ?_, frame_heard s h b⟩
    all_goals simp [twn_heard, TwnS.heard, ht]
  case invalid =>
    intro s h b e
    refine Ends.of_next (exec_twinHeartbeatReceived_invalid e) ⟨?_, ?_, ?_, ?_⟩
    · rw [twn_mTwn]
    · cases h <;> rfl
    · cases h <;> rfl
    · cases h <;> simp (maxDischargeDepth := 8) [other, Frame.refl]
  case alive => exact fun s h lt => if_neg (by simp only [Bool.and_eq_true, decide_eq_true_eq, not_and]; omega)
  case due =>
    intro s g c n p cl d
    exact Ends.of_next (exec_cleanHealthReturn_due c n p cl d) ⟨ho_asksHandover .., twn_asksHandover ..,
      frame_asksHandover s { dst := other g, tick := s.tick (other g), phase := 0, org := none }⟩
  case sent =>
    intro s x e p q
    refine Ends.of_next ((exec_handoverStateSend e).trans (congrArg _ (if_pos ⟨p, q⟩))) ⟨by simp, by simp, ?_⟩
    simp (maxDischargeDepth := 8) [Frame.refl]
  case busy => exact fun s x e p q => (exec_handoverStateSend e).trans (congrArg _ (if_neg (by simp [q])))
  case finished => exact fun s x e p => (exec_handoverTimeout e).trans (congrArg _ (if_neg (by omega)))

end Sys2Proof.Machine

/-!
O22, the reset of one half and the thermal stop (R154, R157, R330 to R341). A half that resets is `resetHalf`: what its role's end leaves of the halves is said once,
for the half itself (`freshHalf_lapsed`) and for the other (`hf_resetHalf_other`); a thermal stop is a record and two such halves.
-/

namespace Sys2Proof.Machine

section

/-! ### Answers that need room (R507) -/

/-- The BOUT_CAP of the command of `o`, where it has started. -/
def State.capOf (s : State) (o : Org) : Option Nat := ((s.hf o.half).mbx.started.find? fun c => sameCmd c.org o).map (·.cap)

/-- A command that starts has the BOUT_CAP it was fetched with, else the largest. -/
theorem capOf_start (s : State) (o : Org) (opc r : Nat) (x : Option Half) : (s.start o opc r x).capOf o = some ((s.capOf o).getD 16777216) := by
  simp only [State.capOf, State.start, State.mMbx, hf_mh_same]
  split
  case isTrue a =>
    obtain ⟨c, hc⟩ := Option.isSome_iff_exists.1 (List.find?_isSome.2 (List.any_eq_true.1 a))
    have same : ((fun c => sameCmd c.org o) ∘ fun c : Started => if sameCmd c.org o then { c with exec := x, role := r } else c) = fun c => sameCmd c.org o := by
      funext c
      simp only [Function.comp_apply]
      split <;> rfl
    rw [List.find?_map, same, hc]
    simp only [Option.map_some, Option.getD_some]
    split <;> rfl
  case isFalse a =>
    have none : ((s.hf o.half).mbx.started.find? fun c => sameCmd c.org o) = none := List.find?_eq_none.2 fun c hc e => a (List.any_eq_true.2 ⟨c, hc, e⟩)
    simp [List.find?_append, none, sameCmd_self]

/-- A completion carries its payload where that fits, and else ST_BAD_LENGTH. -/
theorem answered_complete_cap {s : State} {o : Org} {n : Nat} (e : s.capOf o = some n) (x : Half) (opc st : Nat) (fin : Bool) (p : List Nat) :
    let big := decide (24 < p.length ∧ n < p.length)
    AnsweredWith (s.complete o x opc st fin p) o opc (if big then stBadLength else st) fin (if big then [] else p) := by
  obtain ⟨c, hc, rfl⟩ := Option.map_eq_some_iff.1 e
  simp only [AnsweredWith, State.complete, State.completeAt, State.mMbx, hf_mh_same, hc]
  exact ⟨_, List.mem_append_right _ (List.mem_singleton.mpr rfl), rfl, rfl, rfl, rfl, rfl, rfl, rfl⟩

theorem frame_answer (s : State) (o : Org) (opc r st : Nat) (x : Half) (fin : Bool) (p : List Nat) :
    Frame [.mbx o.half] s ((s.start o opc r (some x)).complete o x opc st fin p) :=
  (frame_start s o opc r (some x)).trans (frame_complete _ o x opc st fin p)

/-- A verb that does nothing but answer, where there is room for the answer. -/
theorem answers_room {s : State} {o : Org} {opc r st : Nat} {x : Half} {fin : Bool} {p : List Nat} (rm : Room s o p.length) :
    AnsweredWith ((s.start o opc r (some x)).complete o x opc st fin p) o opc st fin p ∧
      Frame [.mbx o.half] s ((s.start o opc r (some x)).complete o x opc st fin p) := by
  have a := answered_complete_cap (capOf_start s o opc r (some x)) x opc st fin p
  have fits : decide (24 < p.length ∧ (s.capOf o).getD 16777216 < p.length) = false := decide_eq_false fun ⟨a, b⟩ => by
    rcases rm with rm | rm
    · exact absurd rm (by omega)
    · exact absurd rm (Nat.not_le.2 b)
  rw [fits] at a
  exact ⟨a, frame_answer s o opc r st x fin p⟩

/-- Where there is none it answers ST_BAD_LENGTH. -/
theorem answers_noRoom {s : State} {o : Org} {opc r st : Nat} {x : Half} {fin : Bool} {p : List Nat} (rm : ¬Room s o p.length) :
    AnsweredWith ((s.start o opc r (some x)).complete o x opc st fin p) o opc stBadLength fin [] ∧
      Frame [.mbx o.half] s ((s.start o opc r (some x)).complete o x opc st fin p) := by
  have a := answered_complete_cap (capOf_start s o opc r (some x)) x opc st fin p
  obtain ⟨long, tooLong⟩ := not_or.1 rm
  have big : decide (24 < p.length ∧ (s.capOf o).getD 16777216 < p.length) = true := decide_eq_true ⟨Nat.not_le.1 long, Nat.not_le.1 tooLong⟩
  rw [big] at a
  exact ⟨a, frame_answer s o opc r st x fin p⟩

/-! ### What a half that resets keeps (R157) -/

theorem freshHalf_congr {h : Half} {x y : HalfSt} (p : x.pts = y.pts) (v : x.saved = y.saved) (fl : x.part = y.part) (d : x.twn.held = y.twn.held)
    (u : x.twn.uhTimes = y.twn.uhTimes) (g : x.twn.gen = y.twn.gen) (i : x.twn.img = y.twn.img) : freshHalf h x = freshHalf h y := by
  simp only [freshHalf, flashPoints_congr p v, v, fl, d, u, g, i]

/-- The end of its role and of its sessions concerns nothing that a half keeps over a reset. -/
theorem freshHalf_lapsed (s : State) (h : Half) : freshHalf h ((s.lapsed h).hf h) = freshHalf h (s.hf h) := by
  have b := standsBy_lapsed s h h
  exact freshHalf_congr b.pts b.saved (frame_lapsed s h (.part h) (by simp [roleParts])) b.held (by rw [b.twn]) (by rw [b.twn]) (by rw [b.twn])

theorem hf_resetHalf_fresh (s : State) (h : Half) (cause : Nat) : (s.resetHalf h cause).hf h = freshHalf h (s.hf h) := by
  rw [hf_resetHalf_same, freshHalf_lapsed]

/-- Of the other half only the end of the role and of the sessions tells. -/
theorem hf_resetHalf_other (s : State) {h k : Half} (n : k ≠ h) (cause : Nat) : (s.resetHalf h cause).hf k = (s.lapsed h).hf k := by
  rw [resetHalf_eq, hf_setCause, hf_setHf_other _ _ n, hf_dropped]

/-! ### The end of a role concerns the lanes of its half alone -/

/-- What the end of a role and of sessions of half `h` may change: of the lanes' parts its own alone. -/
def ownRoleParts (h : Half) : List Part := [.regs .twn, .free, .blocks, .twn .A, .twn .B, .cln h, .mbx .A, .mbx .B, .ref, .ho, .lkt]

theorem frame_stepDown_own (s : State) (h : Half) (cause : Nat) : Frame (ownRoleParts h) s (s.stepDown h cause) := by
  by_cases a : (s.hf h).twn.acting = true
  · refine (frame_stepDown_half a cause).mono ?_
    cases h <;> simp [ownRoleParts, bothMbx]
  · rw [State.stepDown, if_neg a]
    exact Frame.refl _ s

theorem frame_releaseToken_own (s : State) (h : Half) (cause : Nat) : Frame (ownRoleParts h) s (s.releaseToken h cause) := by
  rw [releaseToken_eq]
  exact (((frame_abandonHandover s).mono (by simp [ownRoleParts])).trans ((frame_tokenFreed_ref s h).mono (by simp [ownRoleParts]))).trans
    (((frame_claimEv_mbx _ (other h) 2 cause).mono (by simp [ownRoleParts, bothMbx])).trans (frame_stepDown_own _ h 0x15))

theorem frame_roleEnded_own (s : State) (h : Half) : Frame (ownRoleParts h) s (s.roleEnded h) := by
  refine Frame.trans ?_ ((frame_endSessions h (List.range 32) _).mono (by simp [ownRoleParts]))
  refine Frame.ite (fun _ => frame_releaseToken_own s h 0x16) fun _ => ?_
  refine Frame.trans (t := if s.ho.isSome then s.abandonHandover else s) ?_ (frame_stepDown_own _ h 0x15)
  exact Frame.ite (fun _ => (frame_abandonHandover s).mono (by simp [ownRoleParts])) fun _ => Frame.refl _ s

theorem frame_lapsed_own (s : State) (h : Half) : Frame (.upd :: .veh :: .vehG :: ownRoleParts h) s (s.lapsed h) :=
  (((frame_bootAgain s h).mono (by simp)).trans ((frame_vehReset _ h).mono (by simp))).trans ((frame_roleEnded_own _ h).mono (by simp +contextual))

/-! ### No half takes up charge as another resets -/

theorem acting_abandonHandover (s : State) (k : Half) : (s.abandonHandover.hf k).twn.acting = (s.hf k).twn.acting := by
  unfold State.abandonHandover
  split
  · rfl
  · next x _ =>
    extract_lets y edge r s₁ s₂ s₃
    have h₂ : (s₂.hf k).twn.acting = (s.hf k).twn.acting := by
      show ((s₁.mTwn x.dst _).hf k).twn.acting = (s₁.hf k).twn.acting
      simp only [State.mTwn, hf_mh]
      split <;> rfl
    have h₃ : (s₃.hf k).twn = (s₂.hf k).twn := (frame_ev s₂ y 0 0x0304 _).twn (by simp [bothMbx])
    split
    · rw [(frame_complete s₃ _ y 0x0301 0x0304 true _).twn (by simp), h₃, h₂]
    · rw [h₃, h₂]

theorem acting_releaseToken {s : State} {h k : Half} {cause : Nat} (a : ((s.releaseToken h cause).hf k).twn.acting = true) : (s.hf k).twn.acting = true := by
  obtain ⟨-, a⟩ := acting_stepDown (releaseToken_eq s h cause ▸ a)
  rwa [(frame_claimEv_mbx _ (other h) 2 cause).twn (by simp [bothMbx]), (frame_tokenFreed_ref s h).twn (by simp), acting_abandonHandover] at a

theorem acting_roleEnded {s : State} {h k : Half} (a : ((s.roleEnded h).hf k).twn.acting = true) : (s.hf k).twn.acting = true := by
  rw [State.roleEnded, (frame_endSessions h (List.range 32) _).twn (by simp)] at a
  split at a
  · exact acting_releaseToken a
  · obtain ⟨-, a⟩ := acting_stepDown a
    split at a
    · rwa [acting_abandonHandover] at a
    · exact a

theorem acting_resetHalf_other {s : State} {h k : Half} (n : k ≠ h) {cause : Nat} (a : ((s.resetHalf h cause).hf k).twn.acting = true) :
    (s.hf k).twn.acting = true := by
  rw [hf_resetHalf_other s n] at a
  have e := acting_roleEnded a
  rwa [(frame_vehReset (s.bootAgain h) h).twn (by simp), (frame_bootAgain s h).twn (by simp)] at e

/-! ### Reset commands of one half (R132, R154, R157) -/

/-- The parts that the reset of a half concerns. -/
def halfResetParts : List Part := allRegs ++ halfParts .A ++ halfParts .B ++ [.free, .shadow, .blocks, .ref, .ho, .veh, .vehG, .lkt, .upd]

theorem frame_resetHalf_parts (s : State) (h : Half) (cause : Nat) : Frame halfResetParts s (s.resetHalf h cause) := (frame_resetHalf s h cause).mono (by decide)

theorem ends_halfReset (s : State) (h : Half) : Ends (.halfReset h) s fun t => t.hf h = freshHalf h (s.hf h) ∧ (t.hf h).twn.unhealthy = true ∧
    (t.hf h).twn.cause = (if (s.hf h).twn.held then 0x8B else 0x8A) ∧ (t.hf h).twn.claim = baseClaim h ∧ (t.hf h).pts = flashPoints (s.hf h) ∧
    (∀ b ∈ halfBlks, ∀ off, t.rg b h off = resetWord b h off) ∧ t.ref.token ≠ some h ∧
    (t.hf (other h)).tck = (s.hf (other h)).tck ∧ (t.hf (other h)).pts = (s.hf (other h)).pts ∧ (t.hf (other h)).cln = (s.hf (other h)).cln ∧
    Frame halfResetParts s t := by
  have fl := frame_lapsed_own s h
  refine Ends.of_next (u := s.resetHalf h 2) rfl ⟨hf_resetHalf_fresh s h 2, ?_, ?_, ?_, ?_, fun b m off => rg_resetHalf_own m s h 2 off, ?_, ?_, ?_, ?_,
    frame_resetHalf_parts s h 2⟩
  · rw [hf_resetHalf_fresh]; rfl
  · rw [hf_resetHalf_fresh]; rfl
  · rw [hf_resetHalf_fresh]; rfl
  · rw [hf_resetHalf_fresh]; rfl
  · rw [token_resetHalf]
    split
    · simp
    · assumption
  · rw [hf_resetHalf_other s (other_ne h), fl.tck (by simp [ownRoleParts])]
  · rw [hf_resetHalf_other s (other_ne h), fl.pts (by simp [ownRoleParts])]
  · rw [hf_resetHalf_other s (other_ne h), fl (.cln (other h)) (by simp [ownRoleParts])]

/-- A half that stays in reset: held, and its CAUSE says so. -/
def TwnS.heldInReset (t : TwnS) : TwnS := { t with held := true, off := true, cause := 0x8B }

theorem exec_unhealthyResetTimeout_due {s : State} {h : Half} {d : Nat} (e : (s.hf h).twn.resetDue = some d) (n : d ≤ s.tick h) (u : (s.hf h).twn.unhealthy = true) :
    exec (.unhealthyResetTimeout h) s =
      .next (if 3 ≤ (s.hf h).twn.uhTimes.length then (s.resetHalf h 2).mTwn h TwnS.heldInReset else s.resetHalf h 2) := by
  show execUnhealthyResetTimeout h s = _
  unfold execUnhealthyResetTimeout
  extract_lets t
  rw [show t.resetDue = some d from e]
  refine (if_neg (by simp [t, u, n])).trans (congrArg Host.Outcome.next ?_)
  exact if_congr decide_eq_true_iff rfl rfl

theorem exec_unhealthyResetTimeout_idle {s : State} {h : Half} (c : (s.hf h).twn.resetDue = none ∨ (s.hf h).twn.unhealthy = false) :
    exec (.unhealthyResetTimeout h) s = .next s := by
  show execUnhealthyResetTimeout h s = _
  unfold execUnhealthyResetTimeout
  extract_lets t
  split
  · rfl
  · next d e =>
    refine if_pos (.inr ?_)
    rcases c with c | c
    · exact absurd (c.symm.trans e) (by simp)
    · simp [t, c]

/-- A half released from reset, the count begun again. -/
def TwnS.released (t : TwnS) : TwnS := { t with held := false, off := false, uhTimes := [], cause := 0x8A }

theorem exec_twnRelease {s : State} {o : Org} {n r : Nat} {x h : Half} (hr : RunsAt s o 0x0302 x r) (m : r ∈ [rInstaller, rVendor]) (e : halfOf n = some h) :
    exec (.twnRelease o n) s = .next (let u := s.start o 0x0302 r (some x)
      if (s.hf h).twn.held = false then u.complete o x 0x0302 stRange true [] else (u.mTwn h TwnS.released).complete o x 0x0302 stOk true []) := by
  refine congrArg Host.Outcome.next ((verb_runs hr m _).trans ?_)
  simp only [e, start_hf_twn, Bool.not_eq_true']
  rfl

theorem ends_twnRelease_held {s : State} {o : Org} {n r : Nat} {x h : Half} (hr : RunsAt s o 0x0302 x r) (m : r ∈ [rInstaller, rVendor]) (e : halfOf n = some h)
    (held : (s.hf h).twn.held = true) :
    Ends (.twnRelease o n) s fun t => (t.hf h).twn = { (s.hf h).twn with held := false, off := false, uhTimes := [], cause := 0x8A } ∧
        AnsweredWith t o 0x0302 stOk true [] ∧ Frame [.twn h, .mbx o.half] s t := by
  have fc := frame_complete ((s.start o 0x0302 r (some x)).mTwn h TwnS.released) o x 0x0302 stOk true []
  refine Ends.of_next ((exec_twnRelease hr m e).trans (congrArg _ (if_neg (by simp [held])))) ⟨?_, ?_, ?_⟩
  · rw [fc.twn (by simp), twn_mTwn, start_hf_twn]; rfl
  · exact answered_complete (running_mTwn_keep _ _ (running_start ..)) _ _ _ _ _ (by simp)
  · exact ((frame_start s o 0x0302 r (some x)).mono (by simp)).trans (((frame_mTwn _ h _).mono (by simp)).trans (fc.mono (by simp)))

/-! ### The thermal stop (R330, R331) -/

theorem Frame.therm {ps : List Part} {s t : State} (f : Frame ps s t) (m : Part.therm ∉ ps) : t.therm = s.therm := f .therm m
theorem Frame.thm {ps : List Part} {s t : State} {h : Half} (f : Frame ps s t) (m : Part.thm h ∉ ps) : (t.hf h).thm = (s.hf h).thm := f (.thm h) m

theorem therm_shutRecord (s : State) (cause : Nat) (h : Half) (t : Nat) (pk : Int) : (s.shutRecord cause h t pk).therm.stop = none ∧
    (s.shutRecord cause h t pk).therm.count = (s.therm.count + 1) % 2 ^ 32 ∧
    ((s.shutRecord cause h t pk).therm.recs.getLast?.map fun r => (r.cause, r.half)) = some (cause, hbit h) := by
  refine ⟨rfl, rfl, ?_⟩
  show (((_ ++ [_] : List ShutRec).drop _).getLast?.map _) = _
  rw [List.getLast?_drop, if_neg (by simp), List.getLast?_append]
  rfl

theorem haltBoth_eq (s : State) : s.haltBoth = { s.halted with therm := { s.halted.therm with down := true } } := rfl

theorem frame_haltBoth_therm (s : State) : Frame [.therm] s.halted s.haltBoth := by
  rw [haltBoth_eq]
  simp [Frame.refl]

theorem therm_haltBoth (s : State) : s.haltBoth.therm = { s.therm with down := true } := by
  have e : s.halted.therm = s.therm := 
    ((frame_haltHalf (s.haltHalf .A) .B).therm (by simp [allRegs])).trans ((frame_haltHalf s .A).therm (by simp [allRegs]))
  rw [haltBoth_eq, e]

/-- A half that halts has not booted, and acts in charge no more. -/
theorem idle_haltHalf (s : State) (h : Half) : ((s.haltHalf h).hf h).twn.booted = false ∧ ((s.haltHalf h).hf h).twn.acting = false := by
  rw [State.haltHalf, twn_mTwn, hf_resetHalf_fresh]
  exact ⟨rfl, rfl⟩

theorem idle_halted (s : State) (k : Half) : (s.halted.hf k).twn.booted = false ∧ (s.halted.hf k).twn.acting = false := by
  cases k
  case B => exact idle_haltHalf (s.haltHalf .A) .B
  case A =>
    obtain ⟨booted, acting⟩ := idle_haltHalf s .A
    have b : StandsBy .A (s.haltHalf .A) ((s.haltHalf .A).haltHalf .B) := standsBy_haltHalf_other (s.haltHalf .A) .B
    have f : Frame [.twn .B] ((s.haltHalf .A).resetHalf .B 0) ((s.haltHalf .A).haltHalf .B) := frame_mTwn ((s.haltHalf .A).resetHalf .B 0) .B _
    have et : (((s.haltHalf .A).haltHalf .B).hf .A).twn = (((s.haltHalf .A).resetHalf .B 0).hf .A).twn := f.twn (by simp)
    rw [State.halted]
    refine ⟨by rw [b.twn, ← booted], Bool.eq_false_iff.2 fun a => ?_⟩
    rw [et] at a
    have was : ((s.haltHalf .A).hf .A).twn.acting = true := acting_resetHalf_other (by decide) a
    exact absurd (acting.symm.trans was) (by simp)

theorem halves_haltBoth (s : State) (k : Half) : (s.haltBoth.hf k).twn.off = true ∧ (s.haltBoth.hf k).twn.booted = false ∧ (s.haltBoth.hf k).twn.service = false ∧
    (s.haltBoth.hf k).twn.acting = false := by
  obtain ⟨service, -⟩ := halfReset_halted s k
  obtain ⟨booted, acting⟩ := idle_halted s k
  rw [(frame_haltBoth_therm s).twn (by simp)]
  exact ⟨off_halted s k, booted, service, acting⟩

/-- The thermal stop: the record, and both halves without power. -/
def State.thermalStop (s : State) (cause : Nat) (h : Half) (t : Nat) (pk : Int) : State := (s.shutRecord cause h t pk).haltBoth

/-- The parts that a thermal stop concerns. -/
def thermalStopParts : List Part := allRegs ++ halfParts .A ++ halfParts .B ++ [.free, .shadow, .blocks, .ref, .ho, .veh, .vehG, .therm, .lkt, .upd]

theorem frame_thermalStop (s : State) (cause : Nat) (h : Half) (t : Nat) (pk : Int) : Frame thermalStopParts s (s.thermalStop cause h t pk) :=
  ((frame_shutRecord s cause h t pk).mono (by decide)).trans ((frame_haltBoth _).mono (by decide))

theorem therm_thermalStop (s : State) (cause : Nat) (h : Half) (t : Nat) (pk : Int) : (s.thermalStop cause h t pk).therm.stop = none ∧
    (s.thermalStop cause h t pk).therm.count = (s.therm.count + 1) % 2 ^ 32 ∧
    ((s.thermalStop cause h t pk).therm.recs.getLast?.map fun r => (r.cause, r.half)) = some (cause, hbit h) ∧ (s.thermalStop cause h t pk).therm.down = true := by
  rw [State.thermalStop, therm_haltBoth]
  obtain ⟨stop, count, last⟩ := therm_shutRecord s cause h t pk
  exact ⟨stop, count, last, rfl⟩

theorem exec_thermalPowerDown_due {s : State} {pk : Int} {t : Nat} {h : Half} (e : s.therm.stop = some (t, h)) (n : t + 500 ≤ s.now) :
    exec (.thermalPowerDown pk) s = .next (s.thermalStop 1 h t pk) := by
  show execThermalPowerDown pk s = _
  simp only [execThermalPowerDown, e]
  exact if_pos (by simp [n])

theorem exec_thermalPowerDown_idle {s : State} {pk : Int} (e : s.therm.stop = none) : exec (.thermalPowerDown pk) s = .next s := by
  show execThermalPowerDown pk s = _
  simp only [execThermalPowerDown, e]

theorem exec_thermalEmergencyPowerDown_hotA {s : State} {pk : Int} (hot : 13000 ≤ s.halfA.thm.tj) :
    ∃ t, exec (.thermalEmergencyPowerDown pk) s = .next (s.thermalStop 2 .A t pk) := by
  show ∃ t, execThermalEmergencyPowerDown pk s = _
  simp only [execThermalEmergencyPowerDown, hot, decide_true, Bool.true_or, if_true]
  exact ⟨_, rfl⟩

/-- Below 130 degC only the loss of the half that carries out the stop is an emergency. -/
theorem exec_thermalEmergencyPowerDown_cool {s : State} {pk : Int} (a : s.halfA.thm.tj < 13000) (b : s.halfB.thm.tj < 13000) :
    exec (.thermalEmergencyPowerDown pk) s = match s.therm.stop with
      | some (t, h) => if s.therm.doer.isSome && s.charge != s.therm.doer then .next (s.thermalStop 3 h t pk) else .next s
      | none => .next s := by
  show execThermalEmergencyPowerDown pk s = _
  simp only [execThermalEmergencyPowerDown, Int.not_le.2 a, Int.not_le.2 b, decide_false, Bool.or_self, Bool.false_eq_true, if_false]
  rfl

theorem exec_thermalEmergencyPowerDown_lost {s : State} {pk : Int} {t : Nat} {h d : Half} (a : s.halfA.thm.tj < 13000) (b : s.halfB.thm.tj < 13000)
    (e : s.therm.stop = some (t, h)) (ed : s.therm.doer = some d) (c : s.charge ≠ some d) :
    exec (.thermalEmergencyPowerDown pk) s = .next (s.thermalStop 3 h t pk) := by
  rw [exec_thermalEmergencyPowerDown_cool a b, e]
  exact if_pos (by simp [ed, c])

theorem exec_thermalEmergencyPowerDown_idle {s : State} {pk : Int} (a : s.halfA.thm.tj < 13000) (b : s.halfB.thm.tj < 13000)
    (c : s.therm.stop = none ∨ s.therm.doer = none ∨ s.charge = s.therm.doer) : exec (.thermalEmergencyPowerDown pk) s = .next s := by
  rw [exec_thermalEmergencyPowerDown_cool a b]
  split
  · next e =>
    rcases c with c | c | c
    · exact absurd (c.symm.trans e) (by simp)
    · exact if_neg (by simp [c])
    · exact if_neg (by simp [c])
  · rfl

/-- What an emergency leaves, whatever its cause. -/
theorem ends_thermalEmergencyPowerDown {s : State} {pk : Int} {t cause : Nat} {h : Half}
    (e : exec (.thermalEmergencyPowerDown pk) s = .next (s.thermalStop cause h t pk)) :
    Ends (.thermalEmergencyPowerDown pk) s fun t => (∀ k, (t.hf k).twn.off = true ∧ (t.hf k).twn.service = false) ∧ t.therm.stop = none ∧
        (t.therm.recs.getLast?.map fun r => (r.cause, r.half)) = some (cause, hbit h) ∧ Frame thermalStopParts s t := by
  obtain ⟨stop, -, last, -⟩ := therm_thermalStop s cause h t pk
  refine Ends.of_next e ⟨fun k => ?_, stop, last, frame_thermalStop s cause h t pk⟩
  obtain ⟨off, -, service, -⟩ := halves_haltBoth (s.shutRecord cause h t pk) k
  exact ⟨off, service⟩

theorem ends_thermalPowerDown {s : State} {pk : Int} {t : Nat} {h : Half} (e : s.therm.stop = some (t, h)) (n : t + 500 ≤ s.now) :
    Ends (.thermalPowerDown pk) s fun t =>
        (∀ k, (t.hf k).twn.off = true ∧ (t.hf k).twn.booted = false ∧ (t.hf k).twn.service = false ∧ (t.hf k).twn.acting = false) ∧
        t.therm.stop = none ∧ t.therm.count = (s.therm.count + 1) % 2 ^ 32 ∧ (t.therm.recs.getLast?.map (·.cause)) = some 1 ∧ t.therm.down = true ∧ t.ref.token = none ∧
        t.veh = [] ∧ Frame thermalStopParts s t := by
  obtain ⟨stop, count, last, down⟩ := therm_thermalStop s 1 h t pk
  have f := frame_haltBoth_therm (s.shutRecord 1 h t pk)
  have cause := congrArg (Option.map Prod.fst) last
  rw [Option.map_map] at cause
  refine Ends.of_next (exec_thermalPowerDown_due e n) ⟨halves_haltBoth _, stop, count, cause, down, ?_, ?_, frame_thermalStop s 1 h t pk⟩
  · rw [State.thermalStop, f.ref (by simp), token_halted]
  · rw [State.thermalStop, f.veh (by simp), veh_halted]

/-! ### The restart (R332) -/

theorem thm_bothReset (s : State) (cause : Nat) (k : Half) : ((s.bothReset cause).hf k).thm = {} := by
  cases k
  case B => exact congrArg HalfSt.thm (hf_resetHalf_fresh _ .B cause)
  case A =>
    have e : (s.bothReset cause).hf .A = ((s.resetHalf .A cause).lapsed .B).hf .A := hf_resetHalf_other _ (by decide) cause
    rw [e, frame_lapsed (s.resetHalf .A cause) .B (.thm .A) (by simp [roleParts]), hf_resetHalf_fresh]
    rfl

theorem off_resetHalf (s : State) (h : Half) (cause : Nat) : ((s.resetHalf h cause).hf h).twn.off = (s.hf h).twn.held := by rw [hf_resetHalf_fresh]; rfl

theorem off_bothReset (s : State) (cause : Nat) (k : Half) : ((s.bothReset cause).hf k).twn.off = (s.hf k).twn.held := by
  rw [State.bothReset]
  cases k
  case B => exact (off_resetHalf (s.resetHalf .A cause) .B cause).trans (StandsBy.held (g := .B) (standsBy_resetHalf_other s .A cause))
  case A => exact (StandsBy.off (g := .A) (standsBy_resetHalf_other (s.resetHalf .A cause) .B cause)).trans (off_resetHalf s .A cause)

/-- After RESET_N a half that is not held starts, with CAUSE 0x8A and out of THERMAL_HOLD. -/
theorem half_resetN {s : State} {k : Half} (n : (s.hf k).twn.held = false) (cause : Nat) :
    ((s.resetN cause).hf k).twn.off = false ∧ ((s.resetN cause).hf k).twn.cause = 0x8A ∧ ((s.resetN cause).hf k).thm.hold = false := by
  have f : Frame (allRegs ++ [.pll, .lkt, .cans, .lsw, .mesh, .veh, .vehG]) (s.bothReset cause) (s.resetN cause) := by
    rw [resetN_eq]
    exact ((frame_resetShared _).mono (by decide)).trans ((frame_vehGone _).mono (by decide))
  obtain ⟨-, -, ec, -⟩ := halfReset_bothReset s cause k
  have et : ((s.resetN cause).hf k).twn = ((s.bothReset cause).hf k).twn := f.twn (by simp [allRegs])
  have eh : ((s.resetN cause).hf k).thm = ((s.bothReset cause).hf k).thm := f (.thm k) (by simp [allRegs])
  refine ⟨?_, ?_, ?_⟩
  · rw [et, off_bothReset, n]
  · rw [et, ec, n]; rfl
  · rw [eh, thm_bothReset]

/-- The state as the restart finds it: the lid's temperature read, the stop over. -/
def State.cooled (s : State) (pk : Int) : State := { s with therm := { s.therm with pkg := pk, down := false } }

theorem exec_thermalRestart_warm {s : State} {pk : Int} (rl : s.therm.release = false) (c : 9500 ≤ pk ∨ s.therm.down = false) :
    exec (.thermalRestart pk) s = .next { s with therm := { s.therm with pkg := pk } } := by
  show execThermalRestart pk s = _
  unfold execThermalRestart
  extract_lets _ u
  have er : u.therm.release = false := rl
  rw [if_neg (by rw [er]; simp), if_pos (show 9500 ≤ pk ∨ (!s.therm.down) = true by simpa using c)]

theorem exec_thermalRestart_cool {s : State} {pk : Int} {r : ShutRec} (lt : pk < 9500) (rl : s.therm.release = false) (dn : s.therm.down = true)
    (e : s.therm.recs.getLast? = some r) :
    exec (.thermalRestart pk) s = .next (if r.inHour ≤ 3 then (s.cooled pk).resetN 5
      else ((s.cooled pk).resetN 5).mBoth fun x => { x with thm := { x.thm with hold := true } }) := by
  show execThermalRestart pk s = _
  unfold execThermalRestart
  extract_lets _ u
  have er : u.therm.release = false := rl
  rw [if_neg (by rw [er]; simp), if_neg (show ¬(9500 ≤ pk ∨ (!s.therm.down) = true) by simp [dn, lt]), show u.therm.recs.getLast? = some r from e]
  rfl

theorem ends_thermalRestart_cool {s : State} {pk : Int} {r : ShutRec} (lt : pk < 9500) (rl : s.therm.release = false) (dn : s.therm.down = true)
    (e : s.therm.recs.getLast? = some r) (a : s.halfA.twn.held = false) (b : s.halfB.twn.held = false) :
    Ends (.thermalRestart pk) s fun t => (∀ k, (t.hf k).twn.off = false ∧ (t.hf k).twn.cause = 0x8A ∧ (t.hf k).thm.hold = decide (3 < r.inHour)) ∧
        t.cans = [] ∧ t.therm = { s.therm with pkg := pk, down := false } ∧
        Frame (allRegs ++ halfParts .A ++ halfParts .B ++ [.free, .shadow, .blocks, .ref, .ho, .veh, .vehG, .pll, .therm, .lkt, .cans, .lsw, .mesh, .upd]) s t := by
  have held (k : Half) : ((s.cooled pk).hf k).twn.held = false := by cases k <;> assumption
  have fc : Frame [.therm] s (s.cooled pk) := by simp [State.cooled, Frame.refl]
  have fr := frame_resetN (s.cooled pk) 5
  obtain ⟨-, cans, -⟩ := allReset_resetN (s.cooled pk) 5
  have therm : ((s.cooled pk).resetN 5).therm = { s.therm with pkg := pk, down := false } := fr .therm (by decide)
  have f := (fc.mono (qs := allRegs ++ halfParts .A ++ halfParts .B ++
    [.free, .shadow, .blocks, .ref, .ho, .veh, .vehG, .pll, .therm, .lkt, .cans, .lsw, .mesh, .upd]) (by decide)).trans (fr.mono (by decide))
  by_cases c : r.inHour ≤ 3
  · refine Ends.of_next ((exec_thermalRestart_cool lt rl dn e).trans (congrArg _ (if_pos c))) ⟨fun k => ?_, cans, therm, f⟩
    rw [decide_eq_false (Nat.not_lt.2 c)]
    exact half_resetN (held k) 5
  · have fh : Frame [.thm .A, .thm .B] ((s.cooled pk).resetN 5) (((s.cooled pk).resetN 5).mBoth fun x => { x with thm := { x.thm with hold := true } }) := by
      simp (maxDischargeDepth := 8) [Frame.refl]
    refine Ends.of_next ((exec_thermalRestart_cool lt rl dn e).trans (congrArg _ (if_neg c))) ⟨fun k => ?_, ?_, ?_, f.trans (fh.mono (by decide))⟩
    · obtain ⟨off, cause, -⟩ := half_resetN (held k) 5
      rw [fh.twn (by simp), decide_eq_true (Nat.not_le.1 c)]
      refine ⟨off, cause, ?_⟩
      cases k <;> rfl
    · rw [fh.cans (by simp), cans]
    · rw [fh .therm (by simp), therm]

/-! ### Verbs of class 0x08 (R332, R340, R341) -/

/-- In THERMAL_HOLD a verb of the class is its body at the half that received it. -/
theorem thmVerb_runsHere {s : State} {o : Org} {opc role : Nat} (r : RunsHere s o opc role) (hold : (s.hf o.half).thm.hold = true) {roles : List Nat} (m : role ∈ roles)
    (body : State → Half → Nat → State) : s.thmVerb o opc roles body = body (s.start o opc role (some o.half)) o.half role := by
  simp only [State.thmVerb, hold, if_true]
  exact verbHere_runs r m _

/-- A release accepted: the restart waits for it. -/
def State.releaseAsked (s : State) : State := { s with therm := { s.therm with release := true } }

theorem frame_releaseAsked (s : State) : Frame [.therm] s s.releaseAsked := by simp [State.releaseAsked, Frame.refl]

theorem ends_thmRelease_held {s : State} {o : Org} {r : Nat} (hr : RunsHere s o 0x0801 r) (m : r ∈ [rOperator, rInstaller, rVendor])
    (hold : (s.hf o.half).thm.hold = true) (lt : s.therm.pkg < 9500) :
    Ends (.thmRelease o) s fun t => t.therm = { s.therm with release := true } ∧ AnsweredWith t o 0x0801 stOk true [] ∧ Frame [.therm, .mbx o.half] s t := by
  have fs := frame_start s o 0x0801 r (some o.half)
  have et : (s.start o 0x0801 r (some o.half)).therm = s.therm := fs .therm (by simp)
  have fu := frame_releaseAsked (s.start o 0x0801 r (some o.half))
  have fc := frame_complete (s.start o 0x0801 r (some o.half)).releaseAsked o o.half 0x0801 stOk true []
  refine Ends.of_next (u := (s.start o 0x0801 r (some o.half)).releaseAsked.complete o o.half 0x0801 stOk true [])
    (congrArg Host.Outcome.next ((thmVerb_runsHere hr hold m _).trans ?_)) ⟨?_, ?_, ?_⟩
  · rw [if_neg (by simp [hold]), if_neg (by rw [et]; omega)]
    rfl
  · rw [fc.therm (by simp), ← et]
    rfl
  · exact answered_complete (running_congr (congrArg MbxS.started (mbx_of_frame fu o.half (by simp))) (running_start ..)) _ _ _ _ _ (by simp)
  · exact (fs.mono (by simp)).trans ((fu.mono (by simp)).trans (fc.mono (by simp)))

theorem ends_thmRelease_refused {s : State} {o : Org} {r : Nat} {x : Half} (hr : RunsAt s o 0x0801 x r) (m : r ∈ [rOperator, rInstaller, rVendor])
    (here : (s.hf o.half).thm.hold = false) (there : (s.hf x).thm.hold = false) :
    Ends (.thmRelease o) s fun t => AnsweredWith t o 0x0801 0x0801 true [] ∧ Frame [.mbx o.half] s t := by
  refine Ends.of_next (u := (s.start o 0x0801 r (some x)).complete o x 0x0801 0x0801 true [])
    (congrArg Host.Outcome.next ((thmVerb_runs hr here m _).trans ?_)) (answers_only (by simp))
  rw [if_pos (by simp [there])]

theorem exec_thmShutdownRead {s : State} {o : Org} {r f n : Nat} {x : Half} (hr : RunsAt s o 0x0802 x r) (m : (classRd 5).testBit r = true) (lt : r < 6)
    (here : (s.hf o.half).thm.hold = false) : exec (.thmShutdownRead o f n) s = .next (let u := s.start o 0x0802 r (some x)
      if 15 < f ∨ n < 1 ∨ 16 < n then u.complete o x 0x0802 stRange true []
      else u.complete o x 0x0802 stOk true (((s.therm.recs.reverse.drop f).take n).flatMap ShutRec.bytes)) := by
  have et : (s.start o 0x0802 r (some x)).therm = s.therm := frame_start s o 0x0802 r (some x) .therm (by simp)
  have mr : r ∈ (List.range 6).filter fun r => (classRd 5).testBit r := List.mem_filter.2 ⟨List.mem_range.2 lt, m⟩
  refine congrArg Host.Outcome.next ((thmVerb_runs hr here mr _).trans ?_)
  rw [et]

end

/-! ### The obligation -/

/-- Settles O22: the half that resets is `freshHalf` of what it was, and the thermal stop is a record and two such halves. -/
theorem halfResetsAndThermalStop : Obligations.HalfResetsAndThermalStop := by
  refine ⟨ends_halfReset, ?reset, ?third, fun s h c => exec_unhealthyResetTimeout_idle c, fun s o n r x h hr m e held => ends_twnRelease_held hr m e held, ?notHeld,
    fun s pk t h e n => ends_thermalPowerDown e n, fun s pk e => exec_thermalPowerDown_idle e, ?hot,
    fun s pk t h d a b e ed c => ends_thermalEmergencyPowerDown (exec_thermalEmergencyPowerDown_lost a b e ed c),
    fun s pk a b c => exec_thermalEmergencyPowerDown_idle a b c, fun s pk rl c => Ends.of_next (exec_thermalRestart_warm rl c) rfl,
    fun s pk r lt rl dn e a b => ends_thermalRestart_cool lt rl dn e a b, fun s o r hr m hold lt => ends_thmRelease_held hr m hold lt,
    fun s o x r hr m here there => ends_thmRelease_refused hr m here there, ?read, ?range⟩
  case reset =>
    intro s h d e n u lt
    refine Ends.of_next ((exec_unhealthyResetTimeout_due e n u).trans (congrArg _ (if_neg (by omega)))) ⟨hf_resetHalf_fresh s h 2, ?_, frame_resetHalf_parts s h 2⟩
    rw [hf_resetHalf_fresh]
    rfl
  case third =>
    intro s h d e n u le
    have et : (((s.resetHalf h 2).mTwn h TwnS.heldInReset).hf h).twn = ((freshHalf h (s.hf h)).twn).heldInReset := by rw [twn_mTwn, hf_resetHalf_fresh]
    refine Ends.of_next ((exec_unhealthyResetTimeout_due e n u).trans (congrArg _ (if_pos le))) ⟨by rw [et]; rfl, by rw [et]; rfl, by rw [et]; rfl, ?_⟩
    exact (frame_resetHalf_parts s h 2).trans ((frame_mTwn _ h _).mono (by cases h <;> decide))
  case notHeld =>
    intro s o n r x h hr m e held
    exact Ends.of_next ((exec_twnRelease hr m e).trans (congrArg _ (if_pos held))) (answers_only (by simp))
  case hot =>
    intro s pk a
    obtain ⟨t, e⟩ := exec_thermalEmergencyPowerDown_hotA (pk := pk) a
    exact ends_thermalEmergencyPowerDown e
  case read =>
    intro s o x r f n hr m lt here hf h1 h16 rm
    exact Ends.of_next ((exec_thmShutdownRead hr m lt here).trans (congrArg _ (if_neg (by omega)))) (answers_room rm)
  case range =>
    intro s o x r f n hr m lt here c
    exact Ends.of_next ((exec_thmShutdownRead hr m lt here).trans (congrArg _ (if_pos c))) (answers_only (by simp))

end Sys2Proof.Machine

/-!
O26, lane programs and the drain. The clause on an overrun fails: the event it raises (R197) carries the budget of the lane the record works under
(`State.laneIdx`, R147, R173), and a state may hold a working lane whose record names another lane as the one it shadows. Where a perturbation SHRINK (R164) covers
only that other lane, the two budgets differ.
-/

namespace Sys2Proof.Machine

section

/-- Working lane 0 of half A runs, and its record names lane 1, whose budget alone a running SHRINK of 1 cycle cuts. The stage penalty of the tick is taken already. -/
def State.shrunkUnderLane1 : State :=
  { regs := [(regKey .twn .A 0x40, 0x20010000#32), (regKey .twn .A 0x44, 1#32)],
    halfA := { twn := { pertActive := true, stagePenTick := some 0 }, cln := { lanes := [(0, { run := true, shadowOf := some 1 })] } } }

/-- Lane 0's own budget is whole; that of the lane it works under is not. -/
theorem laneBudget_shrunkUnderLane1 :
    State.shrunkUnderLane1.laneBudget .A 0 = 6000 ∧ State.shrunkUnderLane1.laneBudget .A (State.shrunkUnderLane1.laneIdx .A 0) = 5999 := by decide

/-- An overrun of lane 0 there leaves one event in the log of half A: it carries 5,999 cycles. -/
theorem events_overrun_shrunkUnderLane1 {t : State} (e : exec (.laneOverrun .A 0) State.shrunkUnderLane1 = .next t) :
    (t.hf .A).mbx.events.map (·.detail) = [padTo 16 ([0, 0] ++ le 2 5999)] := by
  cases e
  decide

/-- Refutes O26: the event of an overrun carries the budget of the lane whose block the overrun lane works under, which need not be the lane's own. -/
theorem not_laneProgramsAndDrain : ¬ Obligations.LaneProgramsAndDrain := by
  intro ⟨_, _, _, overrun, _⟩
  obtain ⟨t, e, -, -, -, -, -, ⟨r, hr, -, -, detail⟩, -⟩ := overrun .shrunkUnderLane1 .A 0 (by decide) (by decide) (by decide)
  have logged : r.detail ∈ (t.hf .A).mbx.events.map (·.detail) := List.mem_map_of_mem hr
  rw [events_overrun_shrunkUnderLane1 e, detail, laneBudget_shrunkUnderLane1.1] at logged
  exact absurd logged (by decide)

end

end Sys2Proof.Machine

/-!
O56 and O57, the words of the lane instructions (R177, R178, R180, R183). A word's 28 low bits are those of an instruction exactly where each of its fields holds what
that instruction has there: one equivalence for each form of R177 (`eq_form3_iff`, `eq_wide_iff`, …). Read to the right they say that the word of an instruction
decodes to it (`opOf_of_bits`), and read to the left that a word that decodes is the word of what it decodes to (`spells_opOf`).
-/

namespace Sys2Proof

section

/-! ### The forms of a word (R177) -/

theorem wf_lt (w lo n : Nat) : wf w lo n < 2 ^ n := Nat.mod_lt _ (Nat.two_pow_pos n)

section
variable {w c d s t f m : Nat}

theorem eq_form3_iff (hc : c < 64 := by omega) (hd : d < 32 := by omega) (hs : s < 32 := by omega) (ht : t < 32 := by omega) (hf : f < 128 := by omega) :
    wf w 0 28 = form3 c d s t f ↔ wf w 22 6 = c ∧ wf w 17 5 = d ∧ wf w 12 5 = s ∧ wf w 7 5 = t ∧ wf w 0 7 = f := by
  unfold wf form3; omega

/-- NOP and HALT have no operands. -/
theorem eq_bare_iff (hc : c < 64 := by omega) : wf w 0 28 = form3 c 0 0 0 0 ↔ wf w 22 6 = c ∧ wf w 0 22 = 0 := by
  unfold wf form3; omega

/-- MOVI, MOVX, ADDX and the memory instructions: a register in d, and bits 16:0. -/
theorem eq_wide_iff (hm : m < 2 ^ 17) (hc : c < 64 := by omega) (hd : d < 32 := by omega) :
    wf w 0 28 = c * 2 ^ 22 + d * 2 ^ 17 + m ↔ wf w 22 6 = c ∧ wf w 17 5 = d ∧ wf w 0 17 = m := by
  unfold wf; omega

/-- An immediate of 16 bits leaves bit 16 unused. -/
theorem eq_imm_iff (i : BitVec 16) : wf w 0 17 = i.toNat ↔ wf w 16 1 = 0 ∧ BitVec.ofNat 16 (wf w 0 16) = i := by
  rw [← BitVec.toNat_inj, BitVec.toNat_ofNat]
  unfold wf; omega

end

/-! ### Operands in their fields -/

@[simp] theorem fin32_val (x : Fin 32) : fin32 x.val = x := by simp [fin32]
@[simp] theorem fin4_val (x : Fin 4) : fin4 x.val = x := by simp [fin4]
@[simp] theorem fin16_val (x : Fin 16) : fin16 x.val = x := by simp [fin16]
theorem val_fin32 {n : Nat} (h : n < 32) : (fin32 n).val = n := Nat.mod_eq_of_lt h
theorem val_fin4 {n : Nat} (h : n < 4) : (fin4 n).val = n := Nat.mod_eq_of_lt h
theorem val_fin16 {n : Nat} (h : n < 16) : (fin16 n).val = n := Nat.mod_eq_of_lt h
theorem val_fin32_wf (w lo : Nat) : (fin32 (wf w lo 5)).val = wf w lo 5 := val_fin32 (wf_lt w lo 5)

theorem ccBits_lt (c : Cc) : ccBits c < 8 := by cases c <;> decide
theorem ccOf_eq_some_iff (n : Nat) (c : Cc) : ccOf n = some c ↔ n = ccBits c := by
  constructor
  · intro h; unfold ccOf at h; split at h <;> cases h <;> rfl
  · rintro rfl; cases c <;> rfl
theorem plopBits_lt (o : Plop) : plopBits o < 4 := by cases o <;> decide
theorem plopOf_plopBits (o : Plop) : plopOf (plopBits o) = o := by cases o <;> rfl
theorem plopBits_plopOf {n : Nat} (h : n < 4) : plopBits (plopOf n) = n := by
  interval_cases n <;> rfl

theorem memBits_lt (m : MemOp) : memBits m < 2 ^ 17 := by
  cases m <;> dsimp only [memBits] <;> omega

theorem eq_memBits_iff (w : Nat) (m : MemOp) : wf w 0 17 = memBits m ↔ memOf w = m := by
  unfold memOf
  split
  next h =>
    cases m with
    | abs a => simp only [memBits, MemOp.abs.injEq, eq_imm_iff, h, true_and]
    | ptr x post off => simp only [memBits, reduceCtorEq, iff_false]; unfold wf at *; omega
  next h =>
    cases m with
    | abs a => simp only [memBits, reduceCtorEq, iff_false]; unfold wf at *; omega
    | ptr x post off =>
      simp only [memBits, MemOp.ptr.injEq, Fin.ext_iff, val_fin4 (wf_lt w _ 2), ← BitVec.toNat_inj, BitVec.toNat_ofNat]
      unfold wf at *; omega

theorem outBits_lt (i : OutIdx) : outBits i < 2 ^ 12 := by
  cases i <;> dsimp only [outBits] <;> omega

theorem eq_outBits_iff (w : Nat) (i : OutIdx) : wf w 0 12 = outBits i ↔ outOf w = some i := by
  unfold outOf
  split
  next tag =>
    cases i with
    | imm i => simp only [outBits, Option.ite_none_right_eq_some, Option.some.injEq, OutIdx.imm.injEq, Fin.ext_iff, Fin.val_ofNat]; unfold wf at *; omega
    | ptr k => simp only [outBits, Option.ite_none_right_eq_some, Option.some.injEq, reduceCtorEq, and_false, iff_false]; unfold wf at *; omega
  next tag =>
    cases i with
    | imm i => simp only [outBits, Option.ite_none_right_eq_some, Option.some.injEq, reduceCtorEq, and_false, iff_false]; unfold wf at *; omega
    | ptr k =>
      simp only [outBits, Option.ite_none_right_eq_some, Option.some.injEq, OutIdx.ptr.injEq, Fin.ext_iff, val_fin4 (wf_lt w _ 2)]
      unfold wf at *; omega

theorem eq_rpt_iff (w : Nat) (n : Fin 4096) (len : Fin 1024) : wf w 0 28 = opBits (.rpt n len) ↔
    wf w 22 6 = 2 ∧ Fin.ofNat 4096 (wf w 10 12) = n ∧ Fin.ofNat 1024 (wf w 0 10) = len := by
  simp only [opBits, Fin.ext_iff, Fin.val_ofNat]; unfold wf; omega

theorem eq_rptv_iff (w : Nat) (v : Fin 32) (max : Fin 4096) (len : Fin 32) : wf w 0 28 = opBits (.rptv v max len) ↔
    wf w 22 6 = 3 ∧ fin32 (wf w 17 5) = v ∧ Fin.ofNat 4096 (wf w 5 12) = max ∧ fin32 (wf w 0 5) = len := by
  simp only [opBits, Fin.ext_iff, Fin.val_ofNat, val_fin32_wf]; unfold wf; omega

theorem eq_out_iff (w : Nat) (v : Fin 32) (i : OutIdx) : wf w 0 28 = opBits (.out v i) ↔
    wf w 22 6 = 0x2F ∧ wf w 17 5 = 0 ∧ fin32 (wf w 12 5) = v ∧ outOf w = some i := by
  have := outBits_lt i
  simp only [opBits, Fin.ext_iff, val_fin32_wf, ← eq_outBits_iff]; unfold wf; omega

/-! ### The operation of a word (R180) -/

/-- The word of an instruction that the device accepts reads as that instruction, whatever its COND. -/
theorem opOf_of_bits {w : Nat} {op : LaneOp} (hw : wf w 0 28 = opBits op) (ok : laneWf .always op = true) : opOf w = some op := by
  cases op
  case rpt n len =>
    obtain ⟨hc, hn, hl⟩ := (eq_rpt_iff w n len).1 hw
    have body : wf w 0 10 ≠ 0 := by
      rintro e
      rw [e] at hl
      simp [laneWf, ← hl] at ok
    simp only [opOf, hc, hn, hl, if_neg body]
  case rptv v max len =>
    obtain ⟨hc, hv, hm, hl⟩ := (eq_rptv_iff w v max len).1 hw
    simp only [opOf, hc, hv, hm, hl]
  case out v i =>
    obtain ⟨hc, hd, hv, hi⟩ := (eq_out_iff w v i).1 hw
    simp only [opOf, hc, hd, hv, hi, if_true]
  case cmp d s t cc =>
    have := ccBits_lt cc
    obtain ⟨hc, hd, hs, ht, hf⟩ := (eq_form3_iff).1 hw
    simp [opOf, hc, hd, hs, ht, hf, this, (ccOf_eq_some_iff _ cc).2 rfl]
  case plog d s t o =>
    have := plopBits_lt o
    obtain ⟨hc, hd, hs, ht, hf⟩ := (eq_form3_iff).1 hw
    simp [opOf, hc, hd, hs, ht, hf, this, plopOf_plopBits]
  case ld r m | st m r | ldw r m | stw m r | ldx r m =>
    obtain ⟨hc, hd, hm⟩ := (eq_wide_iff (memBits_lt m)).1 hw
    simp [opOf, hc, hd, (eq_memBits_iff w m).1 hm]
  case movi d imm | movx d imm | addx d imm =>
    obtain ⟨hc, hd, hm⟩ := (eq_wide_iff (by omega)).1 hw
    obtain ⟨top, hi⟩ := (eq_imm_iff imm).1 hm
    simp [opOf, hc, hd, top, hi]
  case nop | halt =>
    obtain ⟨hc, z⟩ := (eq_bare_iff).1 hw
    simp only [opOf, hc, z, if_true]
  all_goals
    obtain ⟨hc, hd, hs, ht, hf⟩ := (eq_form3_iff).1 hw
    simp [opOf, hc, hd, hs, ht, hf]

/-- Whatever instruction is read, its bits are bits 27:0 of the word. -/
def Spells (w : Nat) (o : Option LaneOp) : Prop := ∀ op, o = some op → wf w 0 28 = opBits op

theorem Spells.none {w : Nat} : Spells w none := fun _ e => nomatch e

theorem Spells.some {w : Nat} {op : LaneOp} (h : wf w 0 28 = opBits op) : Spells w (some op) := fun _ e => by cases e; exact h

theorem Spells.guard {w : Nat} {g : Prop} [Decidable g] {op : LaneOp} (h : g → wf w 0 28 = opBits op) : Spells w (if g then .some op else .none) := by
  split
  next hg => exact .some (h hg)
  next => exact .none

/-- Every arm of the three-register form: the operands taken from the fields, the rest of the fields held to 0 by the guard. -/
theorem Spells.form3 {w c d s t f : Nat} {g : Prop} [Decidable g] {op : LaneOp} (hc : wf w 22 6 = c) (e : opBits op = form3 c d s t f)
    (fields : g → d = wf w 17 5 ∧ s = wf w 12 5 ∧ t = wf w 7 5 ∧ f = wf w 0 7) : Spells w (if g then .some op else .none) := .guard fun hg => by
  obtain ⟨rfl, rfl, rfl, rfl⟩ := fields hg
  rw [e, ← hc, eq_form3_iff (wf_lt w 22 6) (wf_lt w 17 5) (wf_lt w 12 5) (wf_lt w 7 5) (wf_lt w 0 7)]
  exact ⟨rfl, rfl, rfl, rfl, rfl⟩

/-- The arms stand in the order of R180; the arms of the three-register form with no more than a guard close last. -/
theorem spells_opOf (w : Nat) : Spells w (opOf w) := by
  unfold opOf
  dsimp only
  split
  case h_1 hc | h_2 hc => exact .guard fun z => (eq_bare_iff).2 ⟨hc, z⟩
  case h_3 hc =>
    split
    next => exact .none
    next => exact .some ((eq_rpt_iff w _ _).2 ⟨hc, rfl, rfl⟩)
  case h_4 hc => exact .some ((eq_rptv_iff w _ _ _).2 ⟨hc, rfl, rfl, rfl⟩)
  case h_20 hc =>
    split
    next hg =>
      split
      next cc hcc =>
        have := ccBits_lt cc
        exact .some ((eq_form3_iff).2
          ⟨hc, (val_fin4 hg.1).symm, (val_fin32_wf w 12).symm, (val_fin32_wf w 7).symm, (ccOf_eq_some_iff _ cc).1 hcc⟩)
      next => exact .none
    next => exact .none
  case h_40 hc =>
    split
    next hg =>
      split
      next i hi => exact .some ((eq_out_iff w _ i).2 ⟨hc, hg, rfl, hi⟩)
      next => exact .none
    next => exact .none
  case h_33 hc | h_34 hc =>
    exact .some ((eq_wide_iff (memBits_lt _)).2 ⟨hc, (val_fin32_wf w 17).symm, (eq_memBits_iff w _).2 rfl⟩)
  case h_35 hc | h_36 hc | h_37 hc =>
    exact .guard fun hg => (eq_wide_iff (memBits_lt _)).2 ⟨hc, (val_fin4 hg).symm, (eq_memBits_iff w _).2 rfl⟩
  case h_5 hc =>
    exact .guard fun top => (eq_wide_iff (by omega)).2 ⟨hc, (val_fin32_wf w 17).symm, (eq_imm_iff _).2 ⟨top, rfl⟩⟩
  case h_38 hc | h_39 hc =>
    exact .guard fun ⟨hd, top⟩ => (eq_wide_iff (by omega)).2 ⟨hc, (val_fin4 hd).symm, (eq_imm_iff _).2 ⟨top, rfl⟩⟩
  case h_41 => exact .none
  all_goals
    next hc => exact .form3 hc rfl fun hg => by simp [hg, val_fin32_wf, val_fin4, val_fin16, val_fin32, plopBits_plopOf]

theorem laneWf_always_of_body (op : LaneOp) (h : ∀ n len, op = .rpt n len → 0 < len.val) : laneWf .always op = true := by
  cases op
  case rpt n len => simpa [laneWf] using h n len rfl
  all_goals rfl

theorem laneWf_iff (c : Cond) (op : LaneOp) : laneWf c op = true ↔ ¬(alwaysOnly op && c != .always) = true ∧ laneWf .always op = true := by
  simp [laneWf, bne, imp_iff_not_or]

theorem laneWf_of_opOf {w : Nat} {op : LaneOp} (h : opOf w = some op) : laneWf .always op = true := by
  refine laneWf_always_of_body op fun n len e => Nat.pos_of_ne_zero fun z => ?_
  subst e
  obtain ⟨hc, -, hl⟩ := (eq_rpt_iff w n len).1 (spells_opOf w _ h)
  have body : wf w 0 10 = 0 := (Nat.mod_eq_of_lt (wf_lt w 0 10)).symm.trans ((congrArg Fin.val hl).trans z)
  simp only [opOf, hc, body, if_true] at h
  exact nomatch h

theorem opOf_eq_some_iff (w : Nat) (op : LaneOp) : opOf w = some op ↔ wf w 0 28 = opBits op ∧ laneWf .always op = true :=
  ⟨fun h => ⟨spells_opOf w op h, laneWf_of_opOf h⟩, fun ⟨h, ok⟩ => opOf_of_bits h ok⟩

/-! ### COND and the whole word (R178, R183) -/

theorem condBits_lt (c : Cond) : condBits c < 16 := by cases c <;> dsimp only [condBits] <;> omega

theorem condOf_eq_some_iff (n : Nat) (c : Cond) : condOf n = some c ↔ n = condBits c := by
  constructor
  · intro h
    unfold condOf at h
    split at h
    next z => cases h; exact z
    split at h
    next => cases h
    split at h
    next => cases h; simp only [condBits, val_fin4 (show n - 8 < 4 by omega)]; omega
    split at h
    next => cases h; simp only [condBits, val_fin4 (show n - 12 < 4 by omega)]; omega
    next => cases h
  · rintro rfl
    cases c with
    | always => rfl
    | ifTrue p | ifFalse p => revert p; decide

theorem laneDecode_eq_some_iff (w : Nat) (c : Cond) (op : LaneOp) :
    laneDecode w = some (c, op) ↔ condOf (wf w 28 4) = some c ∧ opOf w = some op ∧ ¬(alwaysOnly op && c != .always) = true := by
  unfold laneDecode
  cases condOf (wf w 28 4) <;> cases opOf w
  case some.some c' op' =>
    simp only [Option.some.injEq, Option.ite_none_left_eq_some, Prod.mk.injEq]
    constructor
    · rintro ⟨ok, rfl, rfl⟩
      exact ⟨rfl, rfl, ok⟩
    · rintro ⟨rfl, rfl, ok⟩
      exact ⟨ok, rfl, rfl⟩
  all_goals simp

theorem opBits_lt (op : LaneOp) : opBits op < 2 ^ 28 := by
  cases op
  case ld r m | st m r | ldw r m | stw m r | ldx r m => have := memBits_lt m; dsimp only [opBits]; omega
  case out v i => have := outBits_lt i; dsimp only [opBits]; omega
  case cmp d s t cc => have := ccBits_lt cc; dsimp only [opBits, form3]; omega
  case plog d s t o => have := plopBits_lt o; dsimp only [opBits, form3]; omega
  all_goals dsimp only [opBits, form3]; omega

theorem laneEncode_lt (c : Cond) (op : LaneOp) : laneEncode c op < 2 ^ 32 := by
  have := condBits_lt c
  have := opBits_lt op
  unfold laneEncode; omega

theorem laneEncode_eq_iff {w : Nat} (hw : w < 2 ^ 32) (c : Cond) (op : LaneOp) : laneEncode c op = w ↔ wf w 28 4 = condBits c ∧ wf w 0 28 = opBits op := by
  have := condBits_lt c
  have := opBits_lt op
  unfold laneEncode wf; omega

/-- A word decodes to an instruction exactly where it is the word of that instruction, and the device accepts the instruction. -/
theorem laneDecode_iff_laneEncode {w : Nat} (hw : w < 2 ^ 32) (c : Cond) (op : LaneOp) :
    laneDecode w = some (c, op) ↔ laneWf c op = true ∧ laneEncode c op = w := by
  rw [laneDecode_eq_some_iff, condOf_eq_some_iff, opOf_eq_some_iff, laneEncode_eq_iff hw, laneWf_iff c]
  tauto

/-! ### The obligations -/

/-- Settles O56: both halves are the one equivalence of a word that decodes and the word of an instruction. -/
theorem laneWordRoundTrip : Obligations.LaneWordRoundTrip :=
  ⟨fun c op ok => ⟨laneEncode_lt c op, (laneDecode_iff_laneEncode (laneEncode_lt c op) c op).2 ⟨ok, rfl⟩⟩,
    fun _ c op hw => (laneDecode_iff_laneEncode hw c op).1⟩

/-- Settles O57: each of the ten words is decoded. -/
theorem laneWordsFromTheManual : Obligations.LaneWordsFromTheManual := by
  unfold Obligations.LaneWordsFromTheManual
  decide

end

end Sys2Proof

/-!
O23 and O24, the value and accumulator instructions of a lane (R170, R171, R178 to R180). An instruction that is taken is its effect on the lane's registers, carried on
by the lane's counter and repeats (`laneStep_taken`). That effect is one of three writes, to a value register, an accumulator or a predicate, and for each of them one
lemma says what it sets and what it leaves (`setsV_of_satV`, `setsA_of_satA`, `setsP_of_setP`); a clause names the value its instruction writes.
-/

namespace Sys2Proof.Machine

section

/-! ### Saturation (R171) -/

theorem satTo_fst (bits : Nat) (v : Int) : (satTo bits v).1 = clampI (-(2 ^ (bits - 1))) (2 ^ (bits - 1) - 1) v := by
  unfold satTo clampI
  split
  next => rfl
  next => split <;> rfl

theorem satTo_snd (bits : Nat) (v : Int) : (satTo bits v).2 = decide (v < -(2 ^ (bits - 1)) ∨ 2 ^ (bits - 1) - 1 < v) := by
  unfold satTo
  split
  next lo => simp [lo]
  next lo => split <;> simp_all

theorem satTo_toInt {bits : Nat} (v : BitVec bits) : satTo bits v.toInt = (v.toInt, false) := by
  have lo := BitVec.le_toInt v
  have hi := BitVec.toInt_lt (x := v)
  unfold satTo
  rw [if_neg (by omega), if_neg (by omega)]

theorem toInt_ofInt_satTo {bits : Nat} (hb : 0 < bits) (v : Int) : (BitVec.ofInt bits (satTo bits v).1).toInt = (satTo bits v).1 := by
  have pos : (0 : Int) < 2 ^ (bits - 1) := by positivity
  refine BitVec.toInt_ofInt_eq_self hb ?_ ?_ <;> rw [satTo_fst] <;> unfold clampI <;> split_ifs <;> omega

/-! ### The registers of a lane -/

section
variable (l : LaneS) (d i : Nat) (r : Int)

theorem rv_satV : (l.satV d r).rv i = if d = i then clampI (-32768) 32767 r else l.rv i := by
  unfold LaneS.satV LaneS.rv
  rw [look_put, apply_ite BitVec.toInt, toInt_ofInt_satTo (by decide), satTo_fst]
  rfl
theorem ra_satA : (l.satA d r).ra i = if d = i then clampI (-549755813888) 549755813887 r else l.ra i := by
  unfold LaneS.satA LaneS.ra
  rw [look_put, apply_ite BitVec.toInt, toInt_ofInt_satTo (by decide), satTo_fst]
  rfl
theorem rp_setP (b : Bool) : (l.setP d b).rp i = if d = i then b else l.rp i := look_put _ _ _ _ _
theorem sat_satV : (l.satV d r).sat = (l.sat || decide (r < -32768 ∨ 32767 < r)) := congrArg (l.sat || ·) (satTo_snd 16 r)
theorem sat_satA : (l.satA d r).sat = (l.sat || decide (r < -549755813888 ∨ 549755813887 < r)) := congrArg (l.sat || ·) (satTo_snd 40 r)

theorem satV_toInt (v : Lw) : l.satV d v.toInt = l.setV d v := by
  simp only [LaneS.satV, LaneS.setV, satTo_toInt, BitVec.ofInt_toInt, Bool.or_false]
theorem satA_toInt (v : Acc) : l.satA d v.toInt = { l with a := put 0 l.a d v } := by
  simp only [LaneS.satA, satTo_toInt, BitVec.ofInt_toInt, Bool.or_false]

end

/-! ### One instruction of a lane (R178, R179, R181) -/

theorem frame_mCln_half (s : State) (h : Half) (f : ClnS → ClnS) : Frame [.cln h] s (s.mCln h f) := by
  simp [State.mCln]

theorem cln_mLane (s : State) (h : Half) (l : Nat) (f : LaneS → LaneS) :
    ((s.mLane h l f).hf h).cln = { (s.hf h).cln with lanes := upd {} (s.hf h).cln.lanes l f } := by simp [State.mLane, State.mCln]

theorem lane_mLane_same (s : State) (h : Half) (l : Nat) (f : LaneS → LaneS) : (s.mLane h l f).lane h l = f (s.lane h l) := by
  unfold State.lane
  rw [cln_mLane, look_upd_same]
theorem lane_mLane_other (s : State) (h : Half) {l k : Nat} (f : LaneS → LaneS) (n : k ≠ l) : (s.mLane h l f).lane h k = s.lane h k := by
  unfold State.lane
  rw [cln_mLane, look_upd_other _ _ _ n.symm]

/-- The lane `m` on its way after an instruction of `cyc` cycles: its counter and its repeats go on as those of `l`. -/
def LaneS.movedOn (l m : LaneS) (cyc : Nat) : LaneS := { m with cyc := l.cyc + cyc, pc := l.advance.pc, reps := l.advance.reps }

/-- Where a lane goes on to is said by its program counter and its repeats alone. -/
theorem endOuter_flow (l m : LaneS) : LaneS.advance.endOuter { m with pc := l.pc, reps := l.reps } =
    { m with pc := (LaneS.advance.endOuter l).pc, reps := (LaneS.advance.endOuter l).reps } := by
  unfold LaneS.advance.endOuter
  dsimp only
  split
  next => (repeat' split) <;> rfl
  next => rfl

theorem advance_flow (l m : LaneS) : LaneS.advance { m with pc := l.pc, reps := l.reps } = { m with pc := l.advance.pc, reps := l.advance.reps } := by
  unfold LaneS.advance
  dsimp only
  split
  next r t _ =>
    split
    next =>
      split
      next => rfl
      next => exact endOuter_flow { l with reps := t } m
    next => rfl
  next => rfl

theorem mLane_congr {s : State} {h : Half} {l : Nat} {f g : LaneS → LaneS} (e : f (s.lane h l) = g (s.lane h l)) : s.mLane h l f = s.mLane h l g :=
  congrArg (fun m => s.setHf h { s.hf h with cln := { (s.hf h).cln with lanes := put {} (s.hf h).cln.lanes l m } }) e

theorem laneMoved_movedOn (s : State) (w : LaneAt) (m : LaneS) (cyc : Nat) :
    LaneMoved s (s.mLane w.half w.lane.val fun l => l.movedOn m cyc) w cyc := by
  unfold LaneMoved laneAt
  rw [lane_mLane_same]
  exact ⟨rfl, rfl, rfl, fun k n => lane_mLane_other s w.half _ n, by rw [cln_mLane], frame_mCln_half s w.half _⟩

theorem laneStep_stopped {s : State} {w : LaneAt} (stopped : (laneAt s w).run = false) (cyc : Nat) (f : LaneS → LaneS) : s.laneStep w cyc f = s := by
  unfold laneAt at stopped
  simp [State.laneStep, stopped]

section
variable {s : State} {w : LaneAt} {cyc : Nat} {f : LaneS → LaneS}

/-- A lane whose budget lasts moves on by one instruction, of which `m` is the effect if the program counter and the repeats stay as they are. -/
theorem laneStep_moves {m : LaneS} (run : (laneAt s w).run = true) (budget : (laneAt s w).cyc + cyc ≤ s.laneBudget w.half (s.laneIdx w.half w.lane.val))
    (effect : (if condHolds (laneAt s w) w.cond && (laneAt s w).taken then f (laneAt s w) else laneAt s w) = m)
    (hp : m.pc = (laneAt s w).pc) (hr : m.reps = (laneAt s w).reps) :
    s.laneStep w cyc f = s.mLane w.half w.lane.val fun l => l.movedOn m cyc := by
  unfold laneAt at *
  rw [State.laneStep, if_pos (by simp [run, budget])]
  refine mLane_congr ?_
  dsimp only
  rw [effect, hp, hr]
  exact advance_flow _ { m with cyc := (s.lane w.half w.lane.val).cyc + cyc }

theorem laneStep_taken (h : LaneTakes s w cyc) {m : LaneS} (effect : f (laneAt s w) = m) (hp : m.pc = (laneAt s w).pc) (hr : m.reps = (laneAt s w).reps) :
    s.laneStep w cyc f = s.mLane w.half w.lane.val fun l => l.movedOn m cyc := by
  obtain ⟨run, budget, cond, taken⟩ := h
  exact laneStep_moves run budget (by rw [cond, taken, if_pos (by rfl), effect]) hp hr

theorem laneAt_movedOn (m : LaneS) : laneAt (s.mLane w.half w.lane.val fun l => l.movedOn m cyc) w = (laneAt s w).movedOn m cyc := lane_mLane_same _ _ _ _

theorem setsV_of_satV {d : Nat} {r : Int} (h : LaneTakes s w cyc) (effect : f (laneAt s w) = (laneAt s w).satV d r) :
    SetsV s (s.laneStep w cyc f) w cyc d r := by
  rw [laneStep_taken h effect rfl rfl]
  unfold SetsV
  rw [laneAt_movedOn]
  exact ⟨laneMoved_movedOn _ _ _ _, (rv_satV _ d d r).trans (if_pos rfl), sat_satV _ d r, fun i n => (rv_satV _ d i r).trans (if_neg n.symm),
    rfl, rfl, rfl, rfl, rfl, rfl⟩

theorem setsV_of_setV {d : Nat} {v : Lw} {r : Int} (h : LaneTakes s w cyc) (e : v.toInt = r) (effect : f (laneAt s w) = (laneAt s w).setV d v) :
    SetsV s (s.laneStep w cyc f) w cyc d r :=
  setsV_of_satV h (effect.trans (by rw [← e, satV_toInt]))

/-- An instruction that writes an accumulator may write a predicate with it; `q` are the predicates then. -/
theorem setsA_of_satA {d : Nat} {r : Int} {q : Tab Bool} (h : LaneTakes s w cyc) (effect : f (laneAt s w) = { (laneAt s w).satA d r with p := q }) :
    SetsA s (s.laneStep w cyc f) w cyc d r ∧ (laneAt (s.laneStep w cyc f) w).p = q := by
  rw [laneStep_taken h effect rfl rfl]
  unfold SetsA
  rw [laneAt_movedOn]
  exact ⟨⟨laneMoved_movedOn _ _ _ _, (ra_satA _ d d r).trans (if_pos rfl), sat_satA _ d r, fun i n => (ra_satA _ d i r).trans (if_neg n.symm),
    rfl, rfl, rfl, rfl, rfl⟩, rfl⟩

theorem setsP_of_setP {d : Nat} {b : Bool} (h : LaneTakes s w cyc) (effect : f (laneAt s w) = (laneAt s w).setP d b) :
    SetsP s (s.laneStep w cyc f) w cyc d b := by
  rw [laneStep_taken h effect rfl rfl]
  unfold SetsP
  rw [laneAt_movedOn]
  exact ⟨laneMoved_movedOn _ _ _ _, (rp_setP _ d d b).trans (if_pos rfl), fun i n => (rp_setP _ d i b).trans (if_neg n.symm),
    rfl, rfl, rfl, rfl, rfl, rfl, rfl⟩

end

/-! ### The obligations -/

/-- Settles O23: each instruction writes one value register, with an exact result that saturates (`setsV_of_satV`) or with a word as it stands (`setsV_of_setV`). -/
theorem laneValueInstructions : Obligations.LaneValueInstructions := by
  refine ⟨fun s w d i h => .of_next rfl (setsV_of_setV h rfl rfl),
    fun s w d a h => .of_next rfl (setsV_of_setV h rfl rfl),
    fun s w d a b h => .of_next rfl (setsV_of_satV h rfl),
    fun s w d a b h => .of_next rfl (setsV_of_satV h rfl),
    fun s w d a h => .of_next rfl (setsV_of_satV h rfl),
    fun s w d a h => .of_next rfl (setsV_of_satV h rfl),
    fun s w d a b h => .of_next rfl (setsV_of_setV h ((apply_ite BitVec.toInt _ _ _).trans (min_def _ _).symm) rfl),
    fun s w d a b h => .of_next rfl (setsV_of_setV h ((apply_ite BitVec.toInt _ _ _).trans ((max_def _ _).symm.trans (max_comm _ _))) rfl),
    fun s w d a b h => .of_next rfl (setsV_of_satV h rfl),
    fun s w d a k h => .of_next rfl (setsV_of_satV h rfl),
    fun s w d a k h => .of_next rfl (setsV_of_satV h rfl),
    fun s w d a b h => .of_next rfl (setsV_of_setV h rfl rfl),
    fun s w d a b h => .of_next rfl (setsV_of_setV h rfl rfl),
    fun s w d a b h => .of_next rfl (setsV_of_setV h rfl rfl),
    fun s w d a b k h => .of_next rfl (setsV_of_setV h (apply_ite BitVec.toInt _ _ _) rfl),
    ?untaken, ?stopped⟩
  case untaken =>
    intro s w d a b run budget no
    refine .of_next (congrArg Host.Outcome.next (laneStep_moves (m := laneAt s w) run budget (by simp [no]) rfl rfl)) ?_
    rw [laneAt_movedOn]
    exact ⟨laneMoved_movedOn _ _ _ _, rfl, rfl⟩
  case stopped =>
    intro s w d a b stopped
    have stays (f : LaneS → LaneS) : Host.Outcome.next (s.laneStep w 1 f) = (.next s : Out) := congrArg _ (laneStep_stopped stopped 1 f)
    exact ⟨stays _, stays _, stays _, stays _⟩

/-- Settles O24: each instruction writes one accumulator (`setsA_of_satA`), ACLMP a predicate with it, STR one value register, CMP and PLOG one predicate. -/
theorem laneAccumulatorInstructions : Obligations.LaneAccumulatorInstructions := by
  refine ⟨fun s w d a b h => .of_next rfl (setsA_of_satA h rfl),
    fun s w d a b h => .of_next rfl (setsA_of_satA h rfl),
    fun s w d a b h => .of_next rfl (setsA_of_satA h rfl),
    fun s w d a h => .of_next rfl (setsA_of_satA h rfl),
    fun s w d a h => .of_next rfl (setsA_of_satA h rfl),
    fun s w d a h => .of_next rfl (setsA_of_satA h rfl),
    fun s w d a h => .of_next rfl (setsA_of_satA h (satA_toInt _ _ _).symm),
    fun s w d k h lt => .of_next rfl (setsA_of_satA h (if_pos lt)),
    fun s w d k h ge => .of_next rfl (setsA_of_satA h (if_neg (Nat.not_lt.2 ge))),
    fun s w d a h => .of_next rfl (setsA_of_satA h rfl),
    fun s w d a n h => .of_next rfl (setsV_of_satV h rfl),
    ?aclmp,
    fun s w d a b c h => .of_next rfl (setsP_of_setP h rfl),
    fun s w d a b o h => .of_next rfl (setsP_of_setP h rfl)⟩
  case aclmp =>
    rintro s w d k a b _ h rfl
    refine .of_next rfl (And.imp_right (fun preds => ?_) (setsA_of_satA h rfl))
    unfold LaneS.rp
    rw [preds]
    exact ⟨look_put_same _ _ _ _, fun i n => look_put_other _ _ _ n.symm⟩

end

end Sys2Proof.Machine

/-!
O28, the power-stage groups (R249 to R260, R273, R274). A command that names a step's event puts the group the step makes in place of the one before (`Stored`), where
the step yields the event; each step is computed once per case, as an equation of groups, and the clauses are read off. PST_CLEAR adds the groups it names to the clears
that wait for the commit edge (`State.asksClears`).
-/

namespace Sys2Proof.Machine

section

/-! ### A group stored -/

theorem Frame.pst {ps : List Part} {s t : State} {h : Half} (f : Frame ps s t) (m : Part.pst h ∉ ps) : (t.hf h).pst = (s.hf h).pst := f (.pst h) m

theorem Frame.seqG {ps : List Part} {s t : State} {h : Half} (f : Frame ps s t) (m : Part.pst h ∉ ps) (c g : Nat) : t.seqG h c g = s.seqG h c g := by
  simp only [State.seqG, State.seqS, f.pst m]

theorem seqG_setSeqG (s : State) (h : Half) (c g : Nat) (v : SeqG) : (s.setSeqG h c g v).seqG h c g = v := by
  simp [State.seqG, State.seqS, State.setSeqG, State.mSeq]

theorem frame_setSeqG_half (s : State) (h : Half) (c g : Nat) (v : SeqG) : Frame [.pst h] s (s.setSeqG h c g v) := by
  simp (maxDischargeDepth := 8) [State.setSeqG, State.mSeq]

/-- Once the group is set, storing it counts and reports. -/
theorem frame_storeSeqG_reports (s : State) (h : Half) (c g n : Nat) (q new : SeqG) :
    Frame (.regs .pst :: bothMbx) (s.setSeqG h c g new) (s.storeSeqG h c g n q new) := by
  simp (maxDischargeDepth := 8) [State.storeSeqG, bothMbx]

/-- `t` is `s` with the group `new` in place of `q`, a failed probe and a trip reported (R252, R257, R273). -/
structure Stored (s : State) (h : Half) (c g : Nat) (q new : SeqG) (t : State) : Prop where
  group : t.seqG h c g = new
  failed : q.st = 1 → new.st = 6 → Raised t h 2 0x0601 ([c, g, 2, new.retries] ++ le 6 (phaseMask new.probeBad))
  tripped : q.live = true → new.st = 5 ∨ new.st = 6 → ∃ d, Raised t h 2 0x0601 ([c, g, 1, new.retries] ++ d)
  frame : Frame (.regs .pst :: .pst h :: bothMbx) s t

theorem live_iff (q : SeqG) : q.live = true ↔ 2 ≤ q.st ∧ q.st ≤ 4 := decide_eq_true_iff

theorem stored_storeSeqG (s : State) (h : Half) (c g n : Nat) (q new : SeqG) : Stored s h c g q new (s.storeSeqG h c g n q new) := by
  have f := frame_storeSeqG_reports s h c g n q new
  refine ⟨?group, fun hq hn => ?failed, fun hl hn => ?tripped, ?frame⟩
  case group => rw [f.seqG (by simp [bothMbx]), seqG_setSeqG]
  case failed =>
    unfold State.storeSeqG
    simp only [hq, hn, BEq.rfl, Bool.and_self, if_true]
    exact raised_ev ..
  case tripped =>
    have n1 : q.st ≠ 1 := by rw [live_iff] at hl; omega
    have hit : (q.live && (new.st == 5 || new.st == 6)) = true := by simpa [hl] using hn
    unfold State.storeSeqG
    simp only [hit, beq_false_of_ne n1, Bool.false_and, Bool.false_eq_true, if_false, if_true]
    exact ⟨_, raised_ev ..⟩
  case frame => exact ((frame_setSeqG_half s h c g new).mono (by simp)).trans (f.mono (by simp [bothMbx]))

/-! ### A step's event named by a command (R249) -/

section
variable {s : State} {h : Half} {c g : Nat} {i : SeqIn} {q new : SeqG} {step : SeqG → SeqIn → SeqG} {hit : SeqG → SeqG → Bool}

theorem seqRow_of_hit (a : GroupSteps s h c g i) (hh : hit (s.seqG h c g) (step (s.seqG h c g) i) = true) :
    seqRow step hit h c g s = s.storeSeqG h c g i.hicN (s.seqG h c g) (step (s.seqG h c g) i) := by
  obtain ⟨rfl, fresh, dead, unrouted, phases⟩ := a
  exact if_pos (by simp [fresh, dead, unrouted, phases, hh])

theorem seqRow_of_idle (c₀ : (seqIn s h c g false).fresh = false ∨ (seqIn s h c g false).dead = true ∨ (seqIn s h c g false).unrouted = true) :
    seqRow step hit h c g s = s := if_neg (by rcases c₀ with e | e | e <;> simp [e])

/-- A command whose step yields its event stores the group the step makes. -/
theorem ends_seqRow {cmd : Instr} (e : exec cmd s = .next (seqRow step hit h c g s)) (a : GroupSteps s h c g i) (eq : q = s.seqG h c g) (en : step q i = new)
    (hh : hit q new = true) {P : State → Prop} (hP : ∀ t, Stored s h c g q new t → P t) : Ends cmd s P := by
  subst en eq
  exact Ends.of_next (e.trans (congrArg _ (seqRow_of_hit a hh))) (hP _ (stored_storeSeqG ..))

end

/-! ### Step 4, the hiccup window (R257) -/

section
variable {q : SeqG} {i : SeqIn}

/-- The group once the CBC counts of the tick, `m` with those of the window, are taken. -/
def SeqG.counted (q : SeqG) (i : SeqIn) (m : Tab Nat) : SeqG := { q with winN := q.winN + 1, cbc := m, d4 := some i.tick }

/-- A sum that reaches HIC_N within the window trips the group. -/
theorem step4_trips {m : Tab Nat} (em : m = (i.phases.zip i.cbc).foldl (fun t e => put 0 t e.1 (look 0 t e.1 + e.2)) q.cbc) (hl : q.live = true)
    (h4 : q.d4 ≠ some i.tick) (hw : q.winN < i.hicWin) (hm : ∃ e ∈ m, i.hicN ≤ e.2) :
    q.step4 i = if i.hicK ≤ q.retries then { (q.counted i m).off with st := 6, cause := 1, cbc := m }
      else { (q.counted i m).off with st := 5, retries := q.retries + 1, hicT := i.tick, cbc := m } := by
  subst em
  unfold SeqG.step4
  rw [if_neg (by simp [h4, hl])]
  simp only [if_neg (Nat.not_le.2 hw)]
  rw [if_pos (by simpa using hm)]
  rfl

/-! ### Step 5, timers and transitions (R250, R252, R254, R258) -/

theorem step5_probeClean (hs : q.st = 1) (h5 : q.d5 ≠ some i.tick) (hn : 4 ≤ q.probeN) (hb : q.probeBad = []) :
    q.step5 i = ({ q with d5 := some i.tick } : SeqG).enterStart i := by
  unfold SeqG.step5
  simp [h5, hs, hn, hb]

theorem step5_probeFailed (hs : q.st = 1) (h5 : q.d5 ≠ some i.tick) (hn : 4 ≤ q.probeN) (hb : q.probeBad ≠ []) :
    q.step5 i = { ({ q with d5 := some i.tick } : SeqG).off with st := 6, cause := 2, probeBad := q.probeBad } := by
  unfold SeqG.step5
  simp [h5, hs, hn, hb]

theorem step5_waitOver (hs : q.st = 5) (h5 : q.d5 ≠ some i.tick) (ht : q.hicT + 10 * i.hicOff ≤ i.tick) :
    q.step5 i = { q with st := 1, probeN := 1, probeBad := [], d5 := some i.tick } := by
  unfold SeqG.step5
  simp [h5, hs, ht]

theorem step5_started (hs : q.st = 2) (h5 : q.d5 ≠ some i.tick) (hd : q.ssDone = true) : q.step5 i = { q with st := 3, quiet := 1, d5 := some i.tick } := by
  unfold SeqG.step5
  simp [h5, hs, hd]

theorem step5_quiet (hs : q.st = 3) (h5 : q.d5 ≠ some i.tick) (hq : 19999 ≤ q.quiet) : q.step5 i = { q with retries := 0, quiet := 0, d5 := some i.tick } := by
  unfold SeqG.step5
  simp [h5, hs, hq]

/-! ### Step 6, load steps and the hold-off (R259, R260) -/

/-- The load steps counted, the current and the filtered voltage after the step, and the hold-off, set by a load step and else counting down. -/
theorem step6_counts (h6 : q.d6 ≠ some i.tick) :
    (q.step6 i).lsHits = q.lsHits + b2n (q.loadStep i) ∧ (q.step6 i).iprev = i.echo ∧ (q.step6 i).vf = q.vf + roundDiv (i.vbus - q.vf) 16 ∧
      (q.step6 i).hold = if q.loadStep i then i.lsHold else q.hold - 1 := by
  unfold SeqG.step6
  rw [if_neg h6]
  extract_lets hit n u v
  have unshed : v.lsHits = u.lsHits ∧ v.iprev = u.iprev ∧ v.vf = u.vf ∧ v.hold = u.hold := by
    simp only [v]
    split <;> exact ⟨rfl, rfl, rfl, rfl⟩
  by_cases hn : 0 < n
  · rw [if_pos hn]
    exact unshed
  · rw [if_neg hn]
    exact ⟨rfl, rfl, rfl, rfl⟩

/-- Where the hold-off ends the group keeps its state. -/
theorem st_step6_holdOffEnd (h6 : q.d6 ≠ some i.tick) (hn : q.loadStep i = false) (hh : q.hold = 1) : (q.step6 i).st = q.st := by
  unfold SeqG.step6
  simp [h6, hn, hh]

/-! ### Step 7, phases added and shed, and burst (R255, R256) -/

theorem countX_of_busy (n : q.burst = true ∨ q.add.isSome = true ∨ q.shed.isSome = true) : q.countX i = q :=
  if_neg (by rcases n with e | e | e <;> simp [e, ← Option.not_isSome])

/-- A group in RUN with no hold-off, burst, add or shed under way. -/
structure SeqG.Settled (q : SeqG) : Prop where
  st : q.st = 3
  hold : q.hold = 0
  burst : q.burst = false
  add : q.add = none
  shed : q.shed = none

theorem step7_add {j : Nat} (a : q.Settled) (h7 : q.d7 ≠ some i.tick) (hb : q.bu < 20) (hh : 20 ≤ q.hi) (hj : q.nextAdd i = some j) :
    q.step7 i = { q with add := some j, lastAdd := j, queue := q.queue ++ [j], w := put 0 q.w j 1, integ := del q.integ j, hi := 0, lo := 0, d7 := some i.tick } := by
  obtain ⟨hs, h0, hu, ha, hd⟩ := a
  have hj' (u : SeqG) (eq : u.queue = q.queue) (el : u.lastAdd = q.lastAdd) : u.nextAdd i = some j := by simpa only [SeqG.nextAdd, eq, el] using hj
  unfold SeqG.step7
  simp [h7, hs, h0, hu, ha, hd, SeqG.rampAdd, SeqG.rampShed, Nat.not_le.2 hb, hh, hj', countX_of_busy]

theorem step7_shed {j : Nat} {l : List Nat} (a : q.Settled) (h7 : q.d7 ≠ some i.tick) (hb : q.bu < 20) (hh : q.hi < 20) (hl : 20 ≤ q.lo)
    (hm : i.minPh < q.queue.length) (hq : q.queue = j :: l) :
    q.step7 i = { q with shed := some j, w := put 0 q.w j 9, hi := 0, lo := 0, d7 := some i.tick } := by
  obtain ⟨hs, h0, hu, ha, hd⟩ := a
  have hm' : i.minPh ≤ l.length := by simpa [hq, Nat.lt_succ_iff] using hm
  unfold SeqG.step7
  simp [h7, hs, h0, hu, ha, hd, SeqG.rampAdd, SeqG.rampShed, Nat.not_le.2 hb, Nat.not_le.2 hh, hl, hm', hq, countX_of_busy]

theorem step7_burst (a : q.Settled) (h7 : q.d7 ≠ some i.tick) (hb : 20 ≤ q.bu) (hm : q.queue.length = i.minPh) :
    q.step7 i = { q with burst := true, bpos := 0, bu := 0, hi := 0, lo := 0, d7 := some i.tick } := by
  obtain ⟨hs, h0, hu, ha, hd⟩ := a
  unfold SeqG.step7
  simp [h7, hs, h0, hu, ha, hd, SeqG.rampAdd, SeqG.rampShed, hb, hm, countX_of_busy]

theorem step7_burstLeft (hs : q.st = 3 ∨ q.st = 4) (h7 : q.d7 ≠ some i.tick) (h0 : q.hold = 0) (hb : q.burst = true)
    (hx : q.pctOf i i.bExit ≤ SeqG.xTimes100 i) :
    q.step7 i = { q with burst := false, st := 3, onTick := false, bpos := 0, hi := 0, lo := 0, bu := 0, d7 := some i.tick } := by
  have hx' (u : SeqG) (eq : u.queue = q.queue) : u.pctOf i i.bExit ≤ SeqG.xTimes100 i := by simpa only [SeqG.pctOf, eq] using hx
  unfold SeqG.step7 SeqG.burstTick
  rcases hs with hs | hs <;> simp [h7, hs, h0, hb, hx']

end

/-! ### PST_CLEAR (R258, R274) -/

/-- The clears of the groups named wait in every half the command reaches. -/
def State.asksClears (s : State) (c m : Nat) : State :=
  s.reach.foldl (fun s h => s.mh h fun y => { y with pst := { y.pst with clears := y.pst.clears ++ (maskGroups m).map fun g => (c, g) } }) s

theorem frame_asksClears (s : State) (c m : Nat) : Frame [.pst .A, .pst .B] s (s.asksClears c m) :=
  Frame.foldl (fun s h => by cases h <;> simp (maxDischargeDepth := 8)) _ s

theorem nodup_reach (s : State) : s.reach.Nodup := by
  unfold State.reach
  split
  · exact List.nodup_nil
  · split <;> simp

theorem pst_asksClears (s : State) (c m : Nat) {y : Half} (hy : y ∈ s.reach) :
    ((s.asksClears c m).hf y).pst = { (s.hf y).pst with clears := (s.hf y).pst.clears ++ (maskGroups m).map fun g => (c, g) } := by
  refine foldl_at (P := fun u : State => (u.hf y).pst = (s.hf y).pst)
    (Q := fun u : State => (u.hf y).pst = { (s.hf y).pst with clears := (s.hf y).pst.clears ++ (maskGroups m).map fun g => (c, g) }) (fun u k n e => ?_) (fun u e => ?_) (fun u k n e => ?_) s.reach (nodup_reach s) hy s rfl
  · rwa [hf_mh_other _ _ n.symm]
  · rw [hf_mh_same, e]
  · rwa [hf_mh_other _ _ n.symm]

section
variable {s : State} {o : Org} {x : Half} {r c m : Nat}

theorem exec_pstClear (hr : RunsAt s o 0x0601 x r) (mr : r ∈ [rInstaller, rVendor]) (hc : c < 32) (hm : m < 16) :
    exec (.pstClear o c m) s = .next (let u := s.start o 0x0601 r (some x)
      if !(s.hf x).saf.permCab.testBit c || (s.hf x).saf.stopCab.testBit c then u.complete o x 0x0601 stSafetyInhibit true []
      else if (maskGroups m).any fun g => (s.seqG x c g).st != 6 then u.complete o x 0x0601 0x0601 true []
      else ((u.asksClears c m).arm .pst r (some { org := o, opc := 0x0601 })).complete o x 0x0601 stPending false []) := by
  refine congrArg Host.Outcome.next ((verb_runs hr mr _).trans ?_)
  rw [if_neg (by simp; omega)]
  simp only [start_hf_saf, seqG_start]
  rfl

theorem any_maskGroups {f : Nat → Bool} : (maskGroups m).any f = true ↔ ∃ g < 4, m.testBit g = true ∧ f g = true := by
  simp [maskGroups]

/-- Clears accepted: they wait in every half the command reaches, and PST's commit is armed. -/
theorem ends_pstClear_pending (hr : RunsAt s o 0x0601 x r) (mr : r ∈ [rInstaller, rVendor]) (hc : c < 32) (hm : m < 16)
    (permit : (s.hf x).saf.permCab.testBit c = true) (going : (s.hf x).saf.stopCab.testBit c = false)
    (latched : ∀ g < 4, m.testBit g = true → (s.seqG x c g).st = 6) :
    Ends (.pstClear o c m) s fun t => AnsweredWith t o 0x0601 stPending false [] ∧
        (∀ y ∈ s.reach, (t.hf y).pst.clears = (s.hf y).pst.clears ++ (maskGroups m).map (fun g => (c, g)) ∧ (t.hf y).pst.seqs = (s.hf y).pst.seqs) ∧
        Frame [.blocks, .pst .A, .pst .B, .mbx o.half] s t := by
  let u := s.start o 0x0601 r (some x)
  have fs : Frame [.mbx o.half] s u := frame_start s o 0x0601 r (some x)
  have fa := frame_asksClears u c m
  have fb : Frame [.blocks] (u.asksClears c m) ((u.asksClears c m).arm .pst r (some { org := o, opc := 0x0601 })) := frame_arm (u.asksClears c m) .pst r _
  have fc := frame_complete ((u.asksClears c m).arm .pst r (some { org := o, opc := 0x0601 })) o x 0x0601 stPending false []
  have run : Running (u.asksClears c m) o := running_congr (congrArg MbxS.started (mbx_of_frame fa o.half (by simp))) (running_start ..)
  have none_else : ¬((maskGroups m).any fun g => (s.seqG x c g).st != 6) = true := by
    rw [any_maskGroups]
    rintro ⟨g, hg, hb, n⟩
    simp [latched g hg hb] at n
  have ex := exec_pstClear hr mr hc hm
  rw [if_neg (by simp [permit, going]), if_neg none_else] at ex
  refine Ends.of_next ex ⟨answered_complete (running_arm_keep _ _ _ run) x _ _ _ _ (by simp), fun y hy => ?_, ?_⟩
  · rw [fc.pst (by simp), fb.pst (by simp), pst_asksClears u c m (by rwa [reach_start]), fs.pst (by simp)]
    exact ⟨rfl, rfl⟩
  · exact (fs.mono (by simp)).trans ((fa.mono (by simp)).trans ((fb.mono (by simp)).trans (fc.mono (by simp))))

end

end

/-! ### The obligation -/

/-- Settles O28: each command stores the group that its step makes, by the step's equation for that case; PST_CLEAR queues its clears or answers only. -/
theorem powerStageGroups : Obligations.PowerStageGroups := by
  refine ⟨?probeClean, ?probeFailed, ?trip, ?lastTrip, ?window, ?waitOver, ?started, ?quiet, ?loadStep, ?holdOffEnd, ?add, ?shed, ?burst, ?burstLeft, ?idle,
    fun s o x r c m hr mr hc hm permit going latched => ends_pstClear_pending hr mr hc hm permit going latched, ?unlatched, ?inhibited⟩
  case probeClean =>
    intro s h c g i q a eq hs h5 hn hb
    refine ends_seqRow rfl a eq (step5_probeClean hs h5 hn hb) (by simp [hs, SeqG.enterStart]) fun t st => ?_
    rw [st.group]
    exact ⟨rfl, rfl, rfl, rfl, rfl, st.frame⟩
  case probeFailed =>
    intro s h c g i q a eq hs h5 hn hb
    refine ends_seqRow rfl a eq (step5_probeFailed hs h5 hn hb) (by simp [hs]) fun t st => ?_
    rw [st.group]
    exact ⟨rfl, rfl, st.failed hs rfl, st.frame⟩
  case trip =>
    intro s h c g i q m a eq em hl h4 hw hm hk
    refine ends_seqRow rfl a eq ((step4_trips em hl h4 hw hm).trans (if_neg (Nat.not_le.2 hk))) (by simp [hl]) fun t st => ?_
    rw [st.group]
    exact ⟨rfl, rfl, rfl, st.tripped hl (.inl rfl), st.frame⟩
  case lastTrip =>
    intro s h c g i q m a eq em hl h4 hw hm hk
    refine ends_seqRow rfl a eq ((step4_trips em hl h4 hw hm).trans (if_pos hk)) (by simp [hl]) fun t st => ?_
    rw [st.group]
    exact ⟨rfl, rfl, rfl, st.tripped hl (.inr rfl), st.frame⟩
  case window =>
    exact fun s h c g hl hw => Ends.of_next (if_pos (by simp [hl, hw])) ⟨seqG_setSeqG .., frame_setSeqG_half s h c g _⟩
  case waitOver =>
    exact fun s h c g i q a eq hs h5 ht => ends_seqRow rfl a eq (step5_waitOver hs h5 ht) (by simp [hs]) fun t st => ⟨st.group, st.frame⟩
  case started =>
    exact fun s h c g i q a eq hs h5 hd => ends_seqRow rfl a eq (step5_started hs h5 hd) (by simp [hs]) fun t st => ⟨st.group, st.frame⟩
  case quiet =>
    exact fun s h c g i q a eq hs h5 hq => ends_seqRow rfl a eq (step5_quiet hs h5 hq) (by simp [hs]) fun t st => ⟨st.group, st.frame⟩
  case loadStep =>
    intro s h c g i q a eq h6 hit
    obtain ⟨hits, iprev, vf, hold⟩ := step6_counts h6
    rw [hit] at hits hold
    refine ends_seqRow rfl a eq rfl (by simp [hits, b2n]) fun t st => ?_
    rw [st.group]
    exact ⟨hold, hits, iprev, vf, st.frame⟩
  case holdOffEnd =>
    intro s h c g i q a eq h6 hit hh
    obtain ⟨hits, -, -, hold⟩ := step6_counts h6
    rw [hit] at hits hold
    have zero : (q.step6 i).hold = 0 := by simp [hold, hh]
    refine ends_seqRow rfl a eq rfl (by simp [hh, zero]) fun t st => ?_
    rw [st.group]
    exact ⟨zero, st_step6_holdOffEnd h6 hit hh, hits, st.frame⟩
  case add =>
    intro s h c g i q j a eq hs h7 h0 hu ha hd hb hh hj
    refine ends_seqRow rfl a eq (step7_add ⟨hs, h0, hu, ha, hd⟩ h7 hb hh hj) (by simp [ha]) fun t st => ?_
    rw [st.group]
    exact ⟨rfl, rfl, look_put_same 0 j 1 q.w, rfl, st.frame⟩
  case shed =>
    intro s h c g i q j l a eq hs h7 h0 hu ha hd hb hh hl hm hq
    refine ends_seqRow rfl a eq (step7_shed ⟨hs, h0, hu, ha, hd⟩ h7 hb hh hl hm hq) (by simp [hd]) fun t st => ?_
    rw [st.group]
    exact ⟨rfl, look_put_same 0 j 9 q.w, rfl, st.frame⟩
  case burst =>
    intro s h c g i q a eq hs h7 h0 hu ha hd hb hm
    refine ends_seqRow rfl a eq (step7_burst ⟨hs, h0, hu, ha, hd⟩ h7 hb hm) (by simp [hu]) fun t st => ?_
    rw [st.group]
    exact ⟨rfl, rfl, rfl, st.frame⟩
  case burstLeft =>
    intro s h c g i q a eq hs h7 h0 hb hx
    refine ends_seqRow rfl a eq (step7_burstLeft hs h7 h0 hb hx) (by simp [hb]) fun t st => ?_
    rw [st.group]
    exact ⟨rfl, rfl, st.frame⟩
  case idle =>
    intro s h c g c₀
    have stays (step : SeqG → SeqIn → SeqG) (hit : SeqG → SeqG → Bool) : Host.Outcome.next (seqRow step hit h c g s) = (.next s : Out) :=
      congrArg _ (seqRow_of_idle c₀)
    exact ⟨stays _ _, stays _ _, stays _ _, stays _ _, stays _ _, stays _ _, stays _ _⟩
  case unlatched =>
    intro s o x r c m g hr mr hc hm permit going hg hb n
    have ex := exec_pstClear hr mr hc hm
    rw [if_neg (by simp [permit, going]), if_pos (any_maskGroups.2 ⟨g, hg, hb, by simpa using n⟩)] at ex
    exact ends_started_complete ex
  case inhibited =>
    intro s o x r c m hr mr hc hm permit
    have ex := exec_pstClear hr mr hc hm
    rw [if_pos (by simp [permit])] at ex
    exact ends_started_complete ex

end Sys2Proof.Machine

/-!
O18, the verbs of the matrix and its planner (R298, R300, R308, R309). Each does one thing in every half that the half in charge reaches: it queues a plan, unpins an
output or keeps a mask of poles. What such a fold leaves at each half reached is said once, and the verbs differ in the update alone.
-/

namespace Sys2Proof.Machine

section

/-! ### An update in every half reached -/

/-- A step for a half updates that half's matrix alone, so a fold over halves updates each of them once. -/
theorem cnp_foldl_halves {f : State → Half → State} {g : CnpS → CnpS} (own : ∀ u y, ((f u y).hf y).cnp = g (u.hf y).cnp)
    (fr : ∀ u y, Frame [.cnp y, .blocks] u (f u y)) {l : List Half} (nd : l.Nodup) {y : Half} (hy : y ∈ l) (s : State) :
    ((l.foldl f s).hf y).cnp = g (s.hf y).cnp :=
  foldl_at (P := fun u : State => (u.hf y).cnp = (s.hf y).cnp) (Q := fun u : State => (u.hf y).cnp = g (s.hf y).cnp)
    (fun u k n e => ((fr u k).cnp (by simp [n.symm])).trans e) (fun u e => by rw [own, e])
    (fun u k n e => ((fr u k).cnp (by simp [n.symm])).trans e) l nd hy s rfl

/-- The plan waits in every half reached (R298, R308). -/
def State.planReached (s : State) (p : PlanC) : State := s.reach.foldl (fun s y => s.plan y p) s

/-- Output `k` is unpinned in every half reached (R308). -/
def State.unpinReached (s : State) (k : Nat) : State :=
  s.reach.foldl (fun s y => s.mCnp y fun q => { q with outs := Machine.upd {} q.outs k fun v => { v with pinned := false } }) s

/-- The poles wait in every half reached to be cleared (R309). -/
def State.clearReached (s : State) (n mask : Nat) : State :=
  s.reach.foldl (fun s y => s.mCnp y fun q => { q with clears := q.clears ++ [(n, mask)] }) s

theorem frame_planReached (s : State) (p : PlanC) : Frame [.blocks, .cnp .A, .cnp .B] s (s.planReached p) := Frame.foldl (fun s y => frame_plan s y p) _ s

theorem frame_mCnp_halves (s : State) (y : Half) (f : CnpS → CnpS) : Frame [.cnp .A, .cnp .B] s (s.mCnp y f) :=
  (frame_mCnp_half s y f).mono (by cases y <;> simp)

theorem frame_unpinReached (s : State) (k : Nat) : Frame [.cnp .A, .cnp .B] s (s.unpinReached k) := Frame.foldl (fun s y => frame_mCnp_halves s y _) _ s

theorem frame_clearReached (s : State) (n mask : Nat) : Frame [.cnp .A, .cnp .B] s (s.clearReached n mask) :=
  Frame.foldl (fun s y => frame_mCnp_halves s y _) _ s

section
variable {s : State} {y : Half} (hy : y ∈ s.reach)
include hy

theorem cnp_planReached (p : PlanC) : ((s.planReached p).hf y).cnp = { (s.hf y).cnp with plans := (s.hf y).cnp.plans ++ [p] } :=
  cnp_foldl_halves (g := fun c => { c with plans := c.plans ++ [p] }) (fun u y => cnp_plan u y p) (fun u y => frame_plan_half u y p) (nodup_reach s) hy s

theorem cnp_unpinReached (k : Nat) :
    ((s.unpinReached k).hf y).cnp = { (s.hf y).cnp with outs := upd {} (s.hf y).cnp.outs k fun v => { v with pinned := false } } :=
  cnp_foldl_halves (g := fun c => { c with outs := upd {} c.outs k fun v => { v with pinned := false } }) (fun u y => cnp_mCnp u y _)
    (fun u y => (frame_mCnp_half u y _).mono (by simp)) (nodup_reach s) hy s

theorem cnp_clearReached (n mask : Nat) : ((s.clearReached n mask).hf y).cnp = { (s.hf y).cnp with clears := (s.hf y).cnp.clears ++ [(n, mask)] } :=
  cnp_foldl_halves (g := fun c => { c with clears := c.clears ++ [(n, mask)] }) (fun u y => cnp_mCnp u y _)
    (fun u y => (frame_mCnp_half u y _).mono (by simp)) (nodup_reach s) hy s

end

/-- A command stays running through what leaves its mailbox. -/
theorem Running.of_frame {ps : List Part} {s t : State} {o : Org} (r : Running s o) (f : Frame ps s t) (m : Part.mbx o.half ∉ ps) : Running t o :=
  running_congr (congrArg MbxS.started (mbx_of_frame f o.half m)) r

/-- A verb that has done its work by `v` answers: what it changed is what `v` changed and the mailbox of its half. -/
theorem ends_worked {c : Instr} {s v : State} {o : Org} {x : Half} {opc r st : Nat} {fin : Bool} {p : List Nat} {ps : List Part} {P : State → Prop}
    (fv : Frame ps (s.start o opc r (some x)) v) (m : Part.mbx o.half ∉ ps) (e : exec c s = .next (v.complete o x opc st fin p)) (short : p.length ≤ 24)
    (hp : ∀ t, Frame [.mbx o.half] v t → P t) :
    Ends c s fun t => AnsweredWith t o opc st fin p ∧ P t ∧ Frame (ps ++ [.mbx o.half]) s t :=
  have fc := frame_complete v o x opc st fin p
  Ends.of_next e ⟨answered_complete ((running_start ..).of_frame fv m) x opc st fin p short, hp _ fc,
    ((frame_start s o opc r (some x)).mono (by simp)).trans ((fv.mono (by simp +contextual)).trans (fc.mono (by simp)))⟩

/-! ### CNP_ASSIGN (R308) -/

/-- The other outputs that hold a group asked for. -/
def State.givers (s : State) (x : Half) (k : Nat) (gs : List Nat) : List Nat := (List.range 48).filter fun j => j ≠ k && (s.routesOf x j).any (· ∈ gs)

/-- The group sets after the assignment: the output's own, and those of the outputs that give. -/
def State.assignedSets (s : State) (x : Half) (k : Nat) (gs : List Nat) : List (Nat × List Nat) :=
  (k, gs) :: (s.givers x k gs).map fun j => (j, (s.routesOf x j).filter fun g => g ∉ gs)

/-- The change an assignment asks for (R299, R308). -/
def State.assignment (s : State) (x : Half) (o : Org) (k mask : Nat) : Change := mkChange s x (s.assignedSets x k (gidsOf mask)) (some o) (some k)

section
variable {s : State} {o : Org} {x : Half} {r k mask : Nat}

theorem exec_cnpAssign (hr : RunsAt s o 0x0701 x r) (mr : r ∈ [rInstaller, rVendor]) :
    exec (.cnpAssign o k mask) s = .next (let u := s.start o 0x0701 r (some x)
      if 48 ≤ k then u.complete o x 0x0701 stRange true []
      else if (gidsOf mask).any (fun g => !s.permits x (g / 4) k) || !(s.hf x).saf.permOut.testBit k || (s.hf x).saf.stopOut.testBit k then
        u.complete o x 0x0701 stSafetyInhibit true []
      else if (k :: s.givers x k (gidsOf mask)).any (fun j => (s.chgOf x j).isSome) || !(s.hf x).cnp.plans.isEmpty then u.complete o x 0x0701 0x0701 true []
      else if (gidsOf mask).any (fun g => !s.canReach x g k) then u.complete o x 0x0701 0x0702 true []
      else if (s.givers x k (gidsOf mask)).any (fun j => (look {} (s.hf x).cnp.outs j).pinned) then u.complete o x 0x0701 0x0703 true []
      else (u.planReached { start := some (s.assignment x o k mask), outs := (s.assignment x o k mask).outs }).complete o x 0x0701 stPending false []) := by
  refine congrArg Host.Outcome.next ((verb_runs hr mr _).trans ?_)
  simp only [routesOf_start, permits_start, start_hf_saf, chgOf_start, start_hf_cnp, canReach_start, mkChange_start]
  rfl

/-- Only the output of the assignment gains groups: the others give. -/
theorem joins_assignment (s : State) (x : Half) (o : Org) (k mask : Nat) :
    (s.assignment x o k mask).joins = ((gidsOf mask).filter (· ∉ s.routesOf x k)).map fun g => (k, g) := by
  have give : ∀ e ∈ (s.givers x k (gidsOf mask)).map (fun j => (j, (s.routesOf x j).filter fun g => g ∉ gidsOf mask)),
      ((e.2.filter fun g => g ∉ s.routesOf x e.1).map fun g => (e.1, g)) = [] := by
    intro e m
    obtain ⟨j, -, rfl⟩ := List.mem_map.1 m
    rw [List.map_eq_nil_iff, List.filter_eq_nil_iff]
    exact fun g hg => by simp [List.mem_of_mem_filter hg]
  show ((s.assignedSets x k (gidsOf mask)).flatMap fun e => (e.2.filter fun g => g ∉ s.routesOf x e.1).map fun g => (e.1, g)) = _
  rw [State.assignedSets, List.flatMap_cons, List.flatMap_eq_nil_iff.2 give, List.append_nil]

theorem mem_givers {j : Nat} {gs : List Nat} : j ∈ s.givers x k gs ↔ j < 48 ∧ j ≠ k ∧ (s.routesOf x j).any (· ∈ gs) = true := by
  simp [State.givers]

/-- An assignment nothing stands against is queued (R308). -/
theorem exec_cnpAssign_queued (hr : RunsAt s o 0x0701 x r) (mr : r ∈ [rInstaller, rVendor]) (hk : k < 48) (permit : (s.hf x).saf.permOut.testBit k = true)
    (going : (s.hf x).saf.stopOut.testBit k = false) (idle : s.chgOf x k = none) (noPlan : (s.hf x).cnp.plans = [])
    (usable : ∀ g ∈ gidsOf mask, s.permits x (g / 4) k = true ∧ s.canReach x g k = true)
    (free : ∀ j < 48, j ≠ k → (s.routesOf x j).any (· ∈ gidsOf mask) = true → s.chgOf x j = none ∧ (look {} (s.hf x).cnp.outs j).pinned = false) :
    exec (.cnpAssign o k mask) s = .next (((s.start o 0x0701 r (some x)).planReached
      { start := some (s.assignment x o k mask), outs := (s.assignment x o k mask).outs }).complete o x 0x0701 stPending false []) := by
  have giver {j : Nat} (m : j ∈ s.givers x k (gidsOf mask)) : s.chgOf x j = none ∧ (look {} (s.hf x).cnp.outs j).pinned = false := by
    obtain ⟨h48, n, h⟩ := mem_givers.1 m
    exact free j h48 n h
  have permitted : (gidsOf mask).any (fun g => !s.permits x (g / 4) k) = false := List.any_eq_false.2 fun g m => by simp [usable g m]
  have reached : (gidsOf mask).any (fun g => !s.canReach x g k) = false := List.any_eq_false.2 fun g m => by simp [usable g m]
  have unpinned : (s.givers x k (gidsOf mask)).any (fun j => (look {} (s.hf x).cnp.outs j).pinned) = false :=
    List.any_eq_false.2 fun j m => by simp [giver m]
  have unchanged : (k :: s.givers x k (gidsOf mask)).any (fun j => (s.chgOf x j).isSome) = false :=
    List.any_eq_false.2 fun j m => by
      rcases List.mem_cons.1 m with e | m
      · simp [e, idle]
      · simp [giver m]
  rw [exec_cnpAssign hr mr, if_neg (by omega), if_neg (by simp [permitted, permit, going]), if_neg (by simp [unchanged, noPlan]), if_neg (by simp [reached]),
    if_neg (by simp [unpinned])]

/-! ### CNP_UNPIN and CNP_POLE_CLEAR (R308, R309) -/

theorem exec_cnpUnpin_of (hr : RunsAt s o 0x0702 x r) (mr : r ∈ [rInstaller, rVendor]) (hk : k < 48) :
    exec (.cnpUnpin o k) s = .next (((s.start o 0x0702 r (some x)).unpinReached k).complete o x 0x0702 stOk true []) :=
  congrArg Host.Outcome.next ((verb_runs hr mr _).trans (if_neg (Nat.not_le.2 hk)))

theorem exec_cnpPoleClear {n : Nat} (hr : RunsAt s o 0x0703 x r) (mr : r ∈ [rInstaller, rVendor]) :
    exec (.cnpPoleClear o n mask) s = .next (let u := s.start o 0x0703 r (some x)
      if 512 ≤ n || 16 ≤ mask then u.complete o x 0x0703 stRange true []
      else ((u.clearReached n mask).arm .cnp r (some { org := o, opc := 0x0703 })).complete o x 0x0703 stPending false []) :=
  congrArg Host.Outcome.next (verb_runs hr mr _)

end

/-! ### PLANNER_RUN (R298) -/

theorem exec_plannerRun_idle {s : State} {h : Half} (hc : s.charge = some h) (ht : s.tick h % 2000 ≠ 0) : exec .plannerRun s = .next s := by
  show execPlannerRun s = _
  unfold execPlannerRun
  rw [hc]
  exact if_pos (by simp [ht])

/-- The outputs whose groups the planner would change, with their new groups. -/
def plannedMoves (s : State) (h : Half) : List (Nat × List Nat) :=
  ((plannedOuts s h).map fun k => (k, sortGroups (Deal.of (planDeal s h (s.nodes h)) k))).filter fun e => sortGroups (s.routesOf h e.1) != e.2

theorem exec_plannerRun_of {s : State} {h : Half} (hc : s.charge = some h) (ht : s.tick h % 2000 = 0) (en : s.rb .cnp h 0x4800 31 = true)
    (move : plannedMoves s h ≠ []) (retry : (plannedMoves s h).any (retryBlocked s h) = false) :
    exec .plannerRun s = .next (s.planReached { start := some (mkChange s h (plannedMoves s h) none none), outs := (plannedMoves s h).map (·.1) }) := by
  show execPlannerRun s = _
  unfold execPlannerRun
  rw [hc]
  have go : ((plannedMoves s h).isEmpty || (plannedMoves s h).any (retryBlocked s h)) = false :=
    Bool.or_eq_false_iff.2 ⟨List.isEmpty_eq_false_iff.2 move, retry⟩
  exact (if_neg (by simp [ht, en])).trans (if_neg (ne_true_of_eq_false go))

end

/-! ### The obligation -/

/-- Settles O18: an assignment and the planner queue one plan in every half reached, and the other verbs make one update there; each refusal is one branch of its verb. -/
theorem matrixVerbsAndPlanner : Obligations.MatrixVerbsAndPlanner := by
  refine ⟨?queued, ?noOutput, ?inhibited, ?busy, fun s o k mask r x hr mr => ends_started_complete (congrArg Host.Outcome.next (verb_role hr mr _)), ?unpin, ?clear,
    ?noPole, fun s h => exec_plannerRun_idle, ?planned⟩
  case queued =>
    intro s o k mask r x hr mr hk permit going idle noPlan usable free
    refine ends_worked (frame_planReached _ _) (by simp) (exec_cnpAssign_queued hr mr hk permit going idle noPlan usable free) (by simp) fun t ft y hy => ?_
    rw [ft.cnp (by simp), cnp_planReached (by rwa [reach_start]), start_hf_cnp]
    exact ⟨_, _, rfl, rfl, List.mem_cons_self, rfl, rfl, joins_assignment s x o k mask⟩
  case noOutput =>
    intro s o k mask r x hr mr hk
    exact ends_started_complete ((exec_cnpAssign hr mr).trans (congrArg _ (if_pos hk)))
  case inhibited =>
    intro s o k mask r x hr mr hk stop
    have ex := exec_cnpAssign (k := k) (mask := mask) hr mr
    rw [if_neg (by omega), if_pos (by simp [stop])] at ex
    exact ends_started_complete ex
  case busy =>
    intro s o k r x ch hr mr hk permit going e
    have ex := exec_cnpAssign (k := k) (mask := 0) hr mr
    rw [if_neg (by omega), if_neg (by simp [gidsOf, permit, going]), if_pos (by simp [e])] at ex
    exact ends_started_complete ex
  case unpin =>
    intro s o k r x hr mr hk
    refine ends_worked (frame_unpinReached _ k) (by simp) (exec_cnpUnpin_of hr mr hk) (by simp) fun t ft y hy => ?_
    rw [ft.cnp (by simp), cnp_unpinReached (by rwa [reach_start]), look_upd_same]
  case clear =>
    intro s o n mask r x hr mr hn hm
    have ex := exec_cnpPoleClear (n := n) (mask := mask) hr mr
    rw [if_neg (by simp; omega)] at ex
    have fa := frame_arm ((s.start o 0x0703 r (some x)).clearReached n mask) .cnp r (some { org := o, opc := 0x0703 })
    have fv : Frame [.blocks, .cnp .A, .cnp .B] (s.start o 0x0703 r (some x)) _ :=
      ((frame_clearReached _ n mask).mono (by simp)).trans (fa.mono (by simp))
    refine ends_worked fv (by simp) ex (by simp) fun t ft y hy => ?_
    rw [ft.cnp (by simp), fa.cnp (by simp), cnp_clearReached (by rwa [reach_start])]
    exact List.mem_append_right _ List.mem_cons_self
  case noPole =>
    intro s o n mask r x hr mr c
    exact ends_started_complete ((exec_cnpPoleClear hr mr).trans (congrArg _ (if_pos (by simpa using c))))
  case planned =>
    rintro s h m hc ht en rfl move retry
    refine Ends.of_next (exec_plannerRun_of hc ht en move retry) ⟨fun y hy => ?_, frame_planReached s _⟩
    rw [cnp_planReached hy]
    exact ⟨_, _, rfl, rfl, rfl, rfl⟩

end Sys2Proof.Machine

/-!
O36, the billing engine (R293, R402 to R414). What a closed interval, a closed period, an activated tariff, a save and a restore leave of the engine's state is said
once each, as one equation of that state; what they do besides is a frame. A minute that passes is built of the first three.
-/

namespace Sys2Proof.Machine

section

/-! ### The clock of the engine (R400) -/

/-- The parts that billing writes: the points, the island and its log. -/
def billingParts : List Part := [.free, .pts .A, .pts .B, .mirOut .A, .mirOut .B, .thm .A, .thm .B, .mbx .A, .mbx .B, .met, .bil]

/-- The parts that a closing interval writes. -/
def intervalParts : List Part := [.pts .A, .pts .B, .mirOut .A, .mirOut .B, .thm .A, .thm .B, .bil]

theorem Frame.billing_now {s t : State} (f : Frame billingParts s t) : t.now = s.now :=
  now_congr (charge_congr (f.ref (by decide)) fun k => f.twn (by cases k <;> decide)) fun k => f.tick (by cases k <;> decide)

theorem utc_congr {s t : State} (n : t.now = s.now) (tai : t.bil.tai = s.bil.tai) : t.utc = s.utc := by simp only [State.utc, n, tai]

theorem evalRate_eq (s : State) :
    s.evalRate = { s with bil := { s.bil with rate := if s.bil.unknown then s.tariff.fallback else s.tariff.rateAt s.utc s.bil.rate } } := by
  unfold State.evalRate
  split <;> rfl

theorem bil_evalRate (s : State) :
    s.evalRate.bil = { s.bil with rate := if s.bil.unknown then s.tariff.fallback else s.tariff.rateAt s.utc s.bil.rate } := by rw [evalRate_eq]

theorem met_evalRate (s : State) : s.evalRate.met = s.met := by rw [evalRate_eq]

theorem meter_evalRate (s : State) (k : Nat) : s.evalRate.meter k = s.meter k := by rw [State.meter, met_evalRate, State.meter]

/-! ### A log that keeps its newest entries -/

/-- A log of `n` entries takes one more. -/
def keepNewest {α : Type} (n : Nat) (l : List α) (e : α) : List α := if n < (l ++ [e]).length then (l ++ [e]).drop 1 else l ++ [e]

theorem getLast?_keepNewest {α : Type} {n : Nat} (hn : 0 < n) (l : List α) (e : α) : (keepNewest n l e).getLast? = some e := by
  unfold keepNewest
  split
  · next h =>
    cases l with
    | nil => simp at h; omega
    | cons a l => simp
  · simp

theorem length_keepNewest {α : Type} {n : Nat} {l : List α} (h : l.length ≤ n) (e : α) : (keepNewest n l e).length ≤ n := by
  unfold keepNewest
  split <;> simp at * <;> omega

/-! ### A demand interval closes (R405) -/

/-- The demand of the open interval of an intake. -/
def State.demandOf (s : State) (i : Nat) : Nat :=
  (look {} s.bil.core.ints i).energy * 36 / (10 * max s.tariff.len ((look {} s.bil.core.ints i).ticks / 20000))

/-- The flags of an interval that closes. -/
def IntervalS.flags (x : IntervalS) (inc step : Bool) : Nat := b2n (x.incomplete || inc) + 2 * b2n (x.step || step) + 4 * b2n x.err

/-- At its own boundary an interval has the flags it gathered. -/
theorem flags_own (x : IntervalS) : x.flags false false = b2n x.incomplete + 2 * b2n x.step + 4 * b2n x.err := by
  rw [IntervalS.flags, Bool.or_false, Bool.or_false]

/-- The record of the open interval of an intake as it closes at `u`. -/
def State.intervalRec (s : State) (i : Nat) (u : Int) (inc step : Bool) : List Nat :=
  intervalBytes u (look {} s.bil.core.ints i).energy (look {} s.bil.core.ints i).export_ (s.demandOf i) ((look {} s.bil.core.ints i).ticks / 20000) s.bil.rate
    ((look {} s.bil.core.ints i).flags inc step)

/-- A maximum demand takes a demand that exceeds it. -/
def raiseMax (t : Tab (Nat × Int × Nat)) (k : Nat) (d : Nat × Int × Nat) : Tab (Nat × Int × Nat) :=
  if (look (0, 0, 0) t k).1 < d.1 then put (0, 0, 0) t k d else t

theorem look_raiseMax_same (t : Tab (Nat × Int × Nat)) (k : Nat) (d : Nat × Int × Nat) :
    if (look (0, 0, 0) t k).1 < d.1 then look (0, 0, 0) (raiseMax t k d) k = d else look (0, 0, 0) (raiseMax t k d) k = look (0, 0, 0) t k := by
  unfold raiseMax
  split
  · exact look_put_same ..
  · rfl

theorem look_raiseMax_other (t : Tab (Nat × Int × Nat)) {k j : Nat} (n : k ≠ j) (d : Nat × Int × Nat) :
    look (0, 0, 0) (raiseMax t k d) j = look (0, 0, 0) t j := by
  unfold raiseMax
  split
  · exact look_put_other _ _ _ n
  · rfl

/-- The maximum demands of an intake, over all rates and of the rate in force, as its interval closes. -/
def State.raisedMaxd (s : State) (i : Nat) (u : Int) (inc step : Bool) : Tab (Nat × Int × Nat) :=
  let d := (s.demandOf i, u, (look {} s.bil.core.ints i).flags inc step)
  raiseMax (raiseMax s.bil.core.maxd (32 * i) d) (32 * i + 1 + s.bil.rate) d

/-- The interval records of an intake. -/
def BilS.recsOf (b : BilS) (i : Nat) : List (Int × List Nat) := if i = 0 then b.recs0 else b.recs1

section
variable (s : State) (i : Nat) (u : Int) (inc step : Bool)

theorem bil_closeInterval :
    (s.closeInterval i u inc step).bil =
      { s.bil with
          core := { s.bil.core with ints := put {} s.bil.core.ints i {}, maxd := s.raisedMaxd i u inc step, lastDem := put 0 s.bil.core.lastDem i u }
          recN := upd 0 s.bil.recN i (· + 1)
          recs0 := if i = 0 then keepNewest 2880 s.bil.recs0 (u, s.intervalRec i u inc step) else s.bil.recs0
          recs1 := if i = 1 then keepNewest 2880 s.bil.recs1 (u, s.intervalRec i u inc step) else s.bil.recs1 } :=
  (frame_ownerWrite _ _ bilOwner 6 _).bil (by simp)

theorem frame_closeInterval_parts : Frame intervalParts s (s.closeInterval i u inc step) := frame_closeInterval s i u inc step

/-- An interval's record is the newest of its intake. -/
theorem newest_closeInterval (hi : i < 2) : ((s.closeInterval i u inc step).bil.recsOf i).getLast? = some (u, s.intervalRec i u inc step) := by
  rw [bil_closeInterval]
  obtain rfl | rfl : i = 0 ∨ i = 1 := by omega
  · exact getLast?_keepNewest (by decide) _ _
  · exact getLast?_keepNewest (by decide) _ _

theorem look_raisedMaxd_all :
    if (look (0, 0, 0) s.bil.core.maxd (32 * i)).1 < s.demandOf i then
      look (0, 0, 0) (s.raisedMaxd i u inc step) (32 * i) = (s.demandOf i, u, (look {} s.bil.core.ints i).flags inc step)
    else look (0, 0, 0) (s.raisedMaxd i u inc step) (32 * i) = look (0, 0, 0) s.bil.core.maxd (32 * i) := by
  unfold State.raisedMaxd
  rw [look_raiseMax_other _ (by omega)]
  exact look_raiseMax_same _ _ (s.demandOf i, u, _)

theorem look_raisedMaxd_rate :
    if (look (0, 0, 0) s.bil.core.maxd (32 * i + 1 + s.bil.rate)).1 < s.demandOf i then
      look (0, 0, 0) (s.raisedMaxd i u inc step) (32 * i + 1 + s.bil.rate) = (s.demandOf i, u, (look {} s.bil.core.ints i).flags inc step)
    else look (0, 0, 0) (s.raisedMaxd i u inc step) (32 * i + 1 + s.bil.rate) = look (0, 0, 0) s.bil.core.maxd (32 * i + 1 + s.bil.rate) := by
  have all := look_raiseMax_same (raiseMax s.bil.core.maxd (32 * i) (s.demandOf i, u, (look {} s.bil.core.ints i).flags inc step)) (32 * i + 1 + s.bil.rate)
    (s.demandOf i, u, (look {} s.bil.core.ints i).flags inc step)
  rwa [look_raiseMax_other _ (by omega)] at all

end

/-! ### Intervals close, and nothing else (R405, R408) -/

/-- Of the engine's state only what intervals are kept in may have changed, and of the rest the points. -/
structure IntervalsClosed (s t : State) : Prop where
  bil : t.bil =
    { s.bil with
        core := { s.bil.core with ints := t.bil.core.ints, maxd := t.bil.core.maxd, lastDem := t.bil.core.lastDem }
        recN := t.bil.recN, recs0 := t.bil.recs0, recs1 := t.bil.recs1 }
  frame : Frame intervalParts s t

theorem IntervalsClosed.refl (s : State) : IntervalsClosed s s := ⟨rfl, Frame.refl _ s⟩

theorem IntervalsClosed.trans {s t u : State} (a : IntervalsClosed s t) (b : IntervalsClosed t u) : IntervalsClosed s u :=
  ⟨b.bil.trans (by rw [a.bil]), a.frame.trans b.frame⟩

theorem intervalsClosed_closeInterval (s : State) (i : Nat) (u : Int) (inc step : Bool) : IntervalsClosed s (s.closeInterval i u inc step) :=
  ⟨by rw [bil_closeInterval], frame_closeInterval_parts s i u inc step⟩

section
variable {s t : State} (c : IntervalsClosed s t)
include c

theorem IntervalsClosed.now : t.now = s.now := (c.frame.mono (by decide)).billing_now
theorem IntervalsClosed.unknown : t.bil.unknown = s.bil.unknown := (congrArg BilS.unknown c.bil :)
theorem IntervalsClosed.tariff : t.tariff = s.tariff := (congrArg BilS.tariff c.bil :)
theorem IntervalsClosed.utc : t.utc = s.utc := utc_congr c.now (congrArg BilS.tai c.bil :)
theorem IntervalsClosed.regs : t.bil.core.regs = s.bil.core.regs := (congrArg (fun b : BilS => b.core.regs) c.bil :)
theorem IntervalsClosed.passive : t.bil.passive = s.bil.passive := (congrArg BilS.passive c.bil :)
theorem IntervalsClosed.periodN : t.bil.periodN = s.bil.periodN := (congrArg BilS.periodN c.bil :)

theorem IntervalsClosed.closeDue (u : Int) : t.closeDue u = s.closeDue u := by
  have e : t.bil.core.lastBill = s.bil.core.lastBill := (congrArg (fun b : BilS => b.core.lastBill) c.bil :)
  simp only [State.closeDue, c.unknown, c.tariff, e]

theorem IntervalsClosed.srcEn (n : Nat) : t.srcEn n = s.srcEn n := by
  have e (o : Nat) : t.rg .met .A o = s.rg .met .A o := c.frame.rg (by decide) .A o
  simp only [State.srcEn, State.metw, e]

end

/-- What the engine keeps of the open interval of an intake, and of its closed ones, is as before. -/
structure IntakeKept (i : Nat) (s t : State) : Prop where
  open_ : look {} t.bil.core.ints i = look {} s.bil.core.ints i
  lastDem : look 0 t.bil.core.lastDem i = look 0 s.bil.core.lastDem i
  recN : look 0 t.bil.recN i = look 0 s.bil.recN i
  recs : t.bil.recsOf i = s.bil.recsOf i

/-- The interval of an intake has closed at `u` with its record. -/
structure IntakeClosed (i : Nat) (u : Int) (r : List Nat) (s t : State) : Prop where
  open_ : look {} t.bil.core.ints i = {}
  recN : look 0 t.bil.recN i = look 0 s.bil.recN i + 1
  newest : (t.bil.recsOf i).getLast? = some (u, r)

theorem intakeKept_closeInterval {i j : Nat} (hi : i < 2) (n : j ≠ i) (s : State) (u : Int) (inc step : Bool) :
    IntakeKept i s (s.closeInterval j u inc step) := by
  refine ⟨?_, ?_, ?_, ?_⟩ <;> simp only [BilS.recsOf, bil_closeInterval]
  · exact look_put_other _ _ _ n
  · exact look_put_other _ _ _ n
  · exact look_upd_other _ _ _ n
  · obtain rfl | rfl : i = 0 ∨ i = 1 := by omega
    · simp [n]
    · simp [n]

theorem intakeClosed_closeInterval {i : Nat} (hi : i < 2) (s : State) (u : Int) (inc step : Bool) :
    IntakeClosed i u (s.intervalRec i u inc step) s (s.closeInterval i u inc step) := by
  refine ⟨?_, ?_, newest_closeInterval s i u inc step hi⟩ <;> simp only [bil_closeInterval]
  · exact look_put_same ..
  · exact look_upd_same ..

theorem IntervalsClosed.demandDue {s t : State} (c : IntervalsClosed s t) {i : Nat} (k : IntakeKept i s t) (u : Int) : t.demandDue i u = s.demandDue i u := by
  simp only [State.demandDue, c.srcEn, c.tariff, c.unknown, k.lastDem]

theorem IntervalsClosed.intervalRec {s t : State} (c : IntervalsClosed s t) {i : Nat} (k : IntakeKept i s t) (u : Int) (inc step : Bool) :
    t.intervalRec i u inc step = s.intervalRec i u inc step := by
  have e : t.bil.rate = s.bil.rate := (congrArg BilS.rate c.bil :)
  simp only [State.intervalRec, State.demandOf, k.open_, c.tariff, e]

/-- The interval of an intake closes if it is due. -/
def State.intervalDue (u : Int) (inc step : Bool) (s : State) (i : Nat) : State := if s.demandDue i u then s.closeInterval i u inc step else s

/-- Every interval that is due at `u` closes. -/
def State.intervalsDue (s : State) (u : Int) (inc step : Bool) : State := [0, 1].foldl (State.intervalDue u inc step) s

theorem intervalsClosed_intervalDue (u : Int) (inc step : Bool) (s : State) (i : Nat) : IntervalsClosed s (State.intervalDue u inc step s i) := by
  unfold State.intervalDue
  split
  · exact intervalsClosed_closeInterval ..
  · exact .refl s

theorem intakeKept_intervalDue {i j : Nat} (hi : i < 2) (n : j ≠ i) (u : Int) (inc step : Bool) (s : State) :
    IntakeKept i s (State.intervalDue u inc step s j) := by
  unfold State.intervalDue
  split
  · exact intakeKept_closeInterval hi n s u inc step
  · exact ⟨rfl, rfl, rfl, rfl⟩

theorem intervalsClosed_intervalsDue (s : State) (u : Int) (inc step : Bool) : IntervalsClosed s (s.intervalsDue u inc step) :=
  List.foldlRecOn [0, 1] _ (.refl s) fun _ c _ _ => c.trans (intervalsClosed_intervalDue ..)

theorem intervalsDue_of_none {s : State} {u : Int} (h : ∀ i < 2, s.demandDue i u = false) (inc step : Bool) : s.intervalsDue u inc step = s := by
  simp [State.intervalsDue, State.intervalDue, h]

/-- An interval that is due closes with its record, whichever of the two it is. -/
theorem intakeClosed_intervalsDue {s : State} {i : Nat} {u : Int} (hi : i < 2) (due : s.demandDue i u = true) (inc step : Bool) :
    IntakeClosed i u (s.intervalRec i u inc step) s (s.intervalsDue u inc step) := by
  refine foldl_at (a := i) (P := fun t => IntervalsClosed s t ∧ IntakeKept i s t) (Q := fun t => IntakeClosed i u (s.intervalRec i u inc step) s t)
    (fun t j n ⟨c, k⟩ => ?before) (fun t ⟨c, k⟩ => ?at_) (fun t j n q => ?after) [0, 1] (by decide) (by simp; omega) s ⟨.refl s, rfl, rfl, rfl, rfl⟩
  case before =>
    have k' := intakeKept_intervalDue hi n u inc step t
    exact ⟨c.trans (intervalsClosed_intervalDue ..), k'.open_.trans k.open_, k'.lastDem.trans k.lastDem, k'.recN.trans k.recN, k'.recs.trans k.recs⟩
  case at_ =>
    have closes : State.intervalDue u inc step t i = t.closeInterval i u inc step := if_pos ((c.demandDue k u).trans due)
    have q := intakeClosed_closeInterval hi t u inc step
    rw [closes]
    exact ⟨q.open_, q.recN.trans (by rw [k.recN]), by rw [q.newest, c.intervalRec k]⟩
  case after =>
    have k' := intakeKept_intervalDue hi n u inc step t
    exact ⟨k'.open_.trans q.open_, k'.recN.trans q.recN, by rw [k'.recs, q.newest]⟩

theorem edgeIntervals_eq (s : State) : s.edgeIntervals = if s.now % 20000 = 0 then s.intervalsDue s.utc false false else s := by
  have e : (State.intervalDue s.utc false false s 0).utc = s.utc := (intervalsClosed_intervalDue ..).utc
  unfold State.edgeIntervals
  split
  · show State.intervalDue (State.intervalDue s.utc false false s 0).utc false false (State.intervalDue s.utc false false s 0) 1 = _
    rw [e]
    rfl
  · rfl

theorem exec_demandIntervalClose_of {s : State} {i : Nat} (hi : i < 2) (ht : s.now % 20000 = 0) (due : s.demandDue i s.utc = true) :
    exec (.demandIntervalClose i) s = .next (s.closeInterval i s.utc false false) := if_pos (by simp [hi, ht, due])

theorem exec_demandIntervalClose_idle {s : State} {i : Nat} (c : 2 ≤ i ∨ s.now % 20000 ≠ 0 ∨ s.bil.unknown = true ∨ s.utc ≤ look 0 s.bil.core.lastDem i) :
    exec (.demandIntervalClose i) s = .next s := by
  refine if_neg ?_
  rcases c with c | c | c | c
  · simp [Nat.not_lt.2 c]
  · simp [c]
  · simp [State.demandDue, c]
  · simp [State.demandDue, Int.not_lt.2 c]

/-! ### A billing period closes (R406) -/

theorem length_leInt (n : Nat) (v : Int) : (leInt n v).length = n := length_le n _

/-- The record of the billing period that closes at `u`. -/
def State.periodRec (s : State) (u : Int) (cause flags : Nat) : List Nat :=
  le 4 s.bil.periodN ++ leInt 8 u ++ le 4 s.tariff.id ++
    [flags + 4 * b2n (s.bil.core.perErr || (List.range 66).any fun src => s.srcEn src && s.meterErr src), cause, 0, 0] ++ le 4 s.periodEntries.length ++
    s.periodEntries.flatten

section
variable (s : State) (u : Int) (cause flags : Nat)

theorem bil_closePeriod :
    (s.closePeriod u cause flags).bil =
      { s.bil with
          core := { s.bil.core with maxd := [], perErr := false, lastBill := some u }
          periods := keepNewest 24 s.bil.periods (s.bil.periodN, s.periodRec u cause flags)
          periodN := s.bil.periodN + 1, lastClose := some u } := rfl

theorem head_periodRec : (s.periodRec u cause flags).take 16 = le 4 s.bil.periodN ++ leInt 8 u ++ le 4 s.tariff.id := by
  rw [State.periodRec, List.append_assoc, List.append_assoc]
  exact List.take_left' (by simp [length_le, length_leInt])

theorem cause_periodRec : (s.periodRec u cause flags).getD 17 9 = cause := by
  have e : (le 4 s.bil.periodN ++ leInt 8 u ++ le 4 s.tariff.id).length = 16 := by simp [length_le, length_leInt]
  rw [State.periodRec, List.append_assoc, List.append_assoc, List.getD_append_right _ _ _ _ (by omega), e]
  rfl

theorem entries_periodRec : (s.periodRec u cause flags).drop 24 = s.periodEntries.flatten :=
  List.drop_left' (by simp [length_le, length_leInt])

theorem newest_closePeriod : (s.closePeriod u cause flags).bil.periods.getLast? = some (s.bil.periodN, s.periodRec u cause flags) := by
  rw [bil_closePeriod]
  exact getLast?_keepNewest (by decide) _ _

end

theorem edgePeriods_of_due {s : State} (ht : s.now % 20000 = 0) (due : s.closeDue s.utc = true) :
    s.edgePeriods = (s.intervalsDue s.utc false false).closePeriod s.utc 0 0 := by
  have c := intervalsClosed_intervalsDue s s.utc false false
  have e : s.edgeIntervals = s.intervalsDue s.utc false false := (edgeIntervals_eq s).trans (if_pos ht)
  unfold State.edgePeriods
  rw [e]
  dsimp only
  rw [c.utc, c.now, c.closeDue]
  exact if_pos (by simp [ht, due])

theorem edgePeriods_of_idle {s : State} (c : s.now % 20000 ≠ 0 ∨ (s.closeDue s.utc = false ∧ ∀ i < 2, s.demandDue i s.utc = false)) : s.edgePeriods = s := by
  have e : s.edgeIntervals = s := by
    rw [edgeIntervals_eq]
    rcases c with c | ⟨-, c⟩
    · exact if_neg c
    · rw [intervalsDue_of_none c, ite_self]
  unfold State.edgePeriods
  rw [e]
  exact if_neg (by rcases c with c | ⟨c, -⟩ <;> simp [c])

theorem exec_billingPeriodClose_of {s : State} (ht : s.now % 20000 = 0) (due : s.closeDue s.utc = true) :
    exec .billingPeriodClose s = .next ((s.intervalsDue s.utc false false).closePeriod s.utc 0 0) :=
  congrArg Host.Outcome.next (edgePeriods_of_due ht due)

/-- A period closed within the last 60 s (R406). -/
def State.closedLately (s : State) : Bool :=
  match s.bil.lastClose with
  | some l => decide (s.utc < l + 60)
  | none => false

theorem exec_bilClose {s : State} {o : Org} {x : Half} {r : Nat} (hr : RunsAt s o 0x0B04 x r) (mr : r ∈ [rOperator, rBilling]) :
    exec (.bilClose o) s = .next (let u := s.start o 0x0B04 r (some x)
      if s.bil.unknown then u.complete o x 0x0B04 0x0B02 true []
      else if s.closedLately then u.complete o x 0x0B04 0x0B04 true []
      else (u.closePeriod s.utc 1 0).complete o x 0x0B04 stOk true (le 4 s.bil.periodN)) := by
  refine congrArg Host.Outcome.next ((verb_runs hr mr _).trans ?_)
  simp only [start_bil, utc_start]
  rfl

/-! ### A tariff becomes active (R403, R404, R408) -/

theorem bil_metLog (s : State) (typ src : Nat) (d : Option Nat) (v : Option (Nat × Nat)) : (s.metLog typ src d v).bil = s.bil :=
  (frame_metLog s typ src d v).bil (by simp)

theorem utc_metLog (s : State) (typ src : Nat) (d : Option Nat) (v : Option (Nat × Nat)) : (s.metLog typ src d v).utc = s.utc :=
  utc_congr ((frame_metLog s typ src d v).mono (by decide)).billing_now (by rw [bil_metLog])

theorem evlog_count_metLog (s : State) (typ src : Nat) (d : Option Nat) (v : Option (Nat × Nat)) :
    (s.metLog typ src d v).met.evlog.count = s.met.evlog.count + 1 :=
  congrArg (fun m : MetS => m.evlog.count) (Frame.met (frame_logEv _ _ _ _ _ _ _ _ _) (by simp))

theorem bil_chainWrite (s : State) (ow n i : Nat) (b : List Nat) : (s.chainWrite ow n i b).bil = s.bil := (frame_chainWrite s ow n i b).bil (by simp)

theorem met_chainWrite (s : State) (ow n i : Nat) (b : List Nat) : (s.chainWrite ow n i b).met = s.met := (frame_chainWrite s ow n i b).met (by simp)

theorem bil_activate {s : State} (known : s.bil.unknown = false) (p : Tariff) :
    (s.activate p).bil = { s.bil with tariff := p, passive := none, rate := p.rateAt s.utc s.bil.rate } := by
  simp only [State.activate, bil_chainWrite, evalRate_eq, State.tariff, bil_metLog, utc_metLog, State.mBil, known]
  rfl

theorem evlog_count_activate (s : State) (p : Tariff) : (s.activate p).met.evlog.count = s.met.evlog.count + 1 := by
  simp only [State.activate, met_chainWrite, evalRate_eq, evlog_count_metLog, State.mBil]

/-- Nothing of R408 is due at the edge. -/
def State.QuietEdge (s : State) : Prop :=
  s.now % 20000 ≠ 0 ∨ s.bil.unknown = true ∨ (s.bil.passive = none ∧ (∀ i < 2, s.demandDue i s.utc = false) ∧ s.closeDue s.utc = false)

theorem edgeTariff_of_quiet {s : State} (q : s.QuietEdge) : s.edgeTariff = s := by
  have e : s.edgePeriods = s := edgePeriods_of_idle <| by
    rcases q with q | q | ⟨-, d, c⟩
    · exact .inl q
    · exact .inr ⟨by simp [State.closeDue, q], fun i _ => by simp [State.demandDue, q]⟩
    · exact .inr ⟨c, d⟩
  unfold State.edgeTariff
  rw [e]
  dsimp only
  cases hp : s.bil.passive with
  | none => rfl
  | some p => exact if_neg (by rcases q with q | q | ⟨q, -⟩ <;> simp_all)

theorem edgeTariff_of_due {s : State} {p : Tariff} (hp : s.bil.passive = some p) (known : s.bil.unknown = false) (ht : s.now % 20000 = 0)
    (act : (p.act : Int) ≤ s.utc) (noDemand : ∀ i < 2, s.demandDue i s.utc = false) (noClose : s.closeDue s.utc = false) : s.edgeTariff = s.activate p := by
  unfold State.edgeTariff
  rw [edgePeriods_of_idle (.inr ⟨noClose, noDemand⟩)]
  dsimp only
  rw [hp]
  exact if_pos (by simp [known, ht, act])

theorem ends_evalRate {c : Instr} {s : State} (ex : exec c s = .next s.evalRate) :
    Ends c s fun t => t.bil = { s.bil with rate := if s.bil.unknown then s.tariff.fallback else s.tariff.rateAt s.utc s.bil.rate } ∧ Frame [.bil] s t :=
  Ends.of_next ex ⟨bil_evalRate s, frame_evalRate s⟩

/-! ### Minutes that pass (R409, R414) -/

/-- The registers, and whether the time is known, are as before. -/
structure CountsKept (s t : State) : Prop where
  unknown : t.bil.unknown = s.bil.unknown
  regs : t.bil.core.regs = s.bil.core.regs

theorem CountsKept.refl (s : State) : CountsKept s s := ⟨rfl, rfl⟩

theorem CountsKept.trans {s t u : State} (a : CountsKept s t) (b : CountsKept t u) : CountsKept s u := ⟨b.unknown.trans a.unknown, b.regs.trans a.regs⟩

theorem countsKept_closePeriod (s : State) (u : Int) (cause flags : Nat) : CountsKept s (s.closePeriod u cause flags) := ⟨rfl, rfl⟩

theorem countsKept_activate (s : State) (p : Tariff) : CountsKept s (s.activate p) := by
  constructor <;> simp only [State.activate, bil_chainWrite, evalRate_eq, bil_metLog, State.mBil]

theorem IntervalsClosed.countsKept {s t : State} (c : IntervalsClosed s t) : CountsKept s t := ⟨c.unknown, c.regs⟩

/-- The minute after its intervals: a period may close, and a tariff become active. -/
def State.minuteEnd (step : Bool) (u : Int) (s : State) : State :=
  let t := if s.closeDue u then s.closePeriod u 0 (if step then 2 else 1) else s
  match t.bil.passive with
  | some p => if (Tariff.act p : Int) ≤ u then t.activate p else t
  | none => t

theorem passMinute_eq (s : State) (step : Bool) (u : Int) : s.passMinute step u = State.minuteEnd step u (s.intervalsDue u true step) := rfl

theorem countsKept_minuteEnd (step : Bool) (u : Int) (s : State) : CountsKept s (State.minuteEnd step u s) := by
  have c : CountsKept s (if s.closeDue u then s.closePeriod u 0 (if step then 2 else 1) else s) := by
    split
    · exact countsKept_closePeriod ..
    · exact .refl s
  unfold State.minuteEnd
  dsimp only
  split
  · split
    · exact c.trans (countsKept_activate _ _)
    · exact c
  · exact c

theorem minuteEnd_of_none {s : State} {u : Int} (noClose : s.closeDue u = false) (noTariff : s.bil.passive = none) (step : Bool) :
    State.minuteEnd step u s = s := by
  unfold State.minuteEnd
  rw [if_neg (by simp [noClose])]
  dsimp only
  rw [noTariff]

theorem countsKept_passMinute (s : State) (step : Bool) (u : Int) : CountsKept s (s.passMinute step u) :=
  (intervalsClosed_intervalsDue s u true step).countsKept.trans (countsKept_minuteEnd step u _)

theorem countsKept_passMinutes (step : Bool) (n : Nat) (u : Int) (s : State) : CountsKept s (State.passMinutes step n u s) := by
  induction n generalizing u s with
  | zero => exact .refl s
  | succ n ih => exact (countsKept_passMinute s step (u + 60)).trans (ih _ _)

/-- Every boundary passed since the last instant processed is processed. -/
def State.boundariesPassed (s : State) : State :=
  if s.bil.core.lastUtc ≤ 0 ∨ s.utc ≤ s.bil.core.lastUtc then s
  else State.passMinutes false ((minuteOf s.utc - minuteOf s.bil.core.lastUtc) / 60).toNat (minuteOf s.bil.core.lastUtc) s

theorem countsKept_boundariesPassed (s : State) : CountsKept s s.boundariesPassed := by
  unfold State.boundariesPassed
  split
  · exact .refl s
  · exact countsKept_passMinutes ..

/-- One whole minute has passed since the last instant processed. -/
theorem boundariesPassed_of_minute {s : State} (pos : 0 < s.bil.core.lastUtc) (whole : s.bil.core.lastUtc % 60 = 0) (e : s.utc = s.bil.core.lastUtc + 60) :
    s.boundariesPassed = s.passMinute false s.utc := by
  have m : minuteOf s.bil.core.lastUtc = s.bil.core.lastUtc := by unfold minuteOf; omega
  have n : ((minuteOf s.utc - s.bil.core.lastUtc) / 60).toNat = 1 := by unfold minuteOf; omega
  unfold State.boundariesPassed
  rw [if_neg (by omega), m, n, e]
  rfl

/-- The intervals in progress are marked incomplete. -/
def markIncomplete (t : Tab IntervalS) : Tab IntervalS := [0, 1].foldl (fun t i => upd {} t i fun x => { x with incomplete := true }) t

theorem incomplete_markIncomplete {i : Nat} (hi : i < 2) (t : Tab IntervalS) : (look {} (markIncomplete t) i).incomplete = true :=
  look_foldl_upd {} (fun _ x => { x with incomplete := true }) (P := fun x : IntervalS => x.incomplete = true) (fun _ => rfl) (by simp; omega) t

theorem bil_catchUp (s : State) :
    ∃ r, s.catchUp.bil =
      { s.boundariesPassed.bil with
          core := { s.boundariesPassed.bil.core with lastUtc := s.utc, ints := markIncomplete s.boundariesPassed.bil.core.ints }
          rate := r } := by
  refine ⟨_, congrArg State.bil (evalRate_eq (s.boundariesPassed.mCore fun c => { c with lastUtc := s.utc, ints := markIncomplete c.ints }))⟩

theorem caughtUp (s : State) :
    s.catchUp.bil.core.lastUtc = s.utc ∧ (∀ i < 2, (look {} s.catchUp.bil.core.ints i).incomplete = true) ∧ CountsKept s s.catchUp := by
  obtain ⟨r, e⟩ := bil_catchUp s
  have k := countsKept_boundariesPassed s
  rw [e]
  exact ⟨rfl, fun i hi => incomplete_markIncomplete hi _, ⟨by rw [e]; exact k.unknown, by rw [e]; exact k.regs⟩⟩

theorem flags_intervalRec (s : State) (i : Nat) (u : Int) (inc step : Bool) :
    (s.intervalRec i u inc step).getD 25 0 = (look {} s.bil.core.ints i).flags inc step := by
  unfold State.intervalRec intervalBytes
  rw [List.getD_append_right _ _ _ _ (by simp [length_le, length_leInt])]
  simp [length_le, length_leInt]

theorem incomplete_flags (x : IntervalS) (step : Bool) : (x.flags true step).testBit 0 = true := by
  have one : b2n (x.incomplete || true) = 1 := by rw [Bool.or_true]; rfl
  rw [IntervalS.flags, one, Nat.testBit_zero, decide_eq_true_iff]
  omega

/-- After a gap of a minute an interval due at its end is closed, marked INCOMPLETE. -/
theorem closed_catchUp {s : State} {i : Nat} (pos : 0 < s.bil.core.lastUtc) (whole : s.bil.core.lastUtc % 60 = 0) (e : s.utc = s.bil.core.lastUtc + 60)
    (hi : i < 2) (due : s.demandDue i s.utc = true) (noClose : s.closeDue s.utc = false) (noTariff : s.bil.passive = none) :
    look 0 s.catchUp.bil.recN i = look 0 s.bil.recN i + 1 ∧ (s.catchUp.bil.recsOf i).getLast? = some (s.utc, s.intervalRec i s.utc true false) := by
  have c := intervalsClosed_intervalsDue s s.utc true false
  have q := intakeClosed_intervalsDue hi due true false
  have b : s.boundariesPassed = s.intervalsDue s.utc true false := by
    rw [boundariesPassed_of_minute pos whole e, passMinute_eq, minuteEnd_of_none ((c.closeDue _).trans noClose) (c.passive.trans noTariff)]
  obtain ⟨r, ec⟩ := bil_catchUp s
  rw [ec, b]
  exact ⟨q.recN, q.newest⟩

/-! ### Saves (R411) -/

/-- The save of the engine's state. -/
def State.saveOf (s : State) (pf : Bool) : BilSave :=
  { seq := s.bil.saveSeq + 1, pf := pf, utc := s.utc, active := s.integrating, fines := (List.range 66).foldl (fun t k => put [] t k (s.meter k).q) [],
    core := s.bil.core }

theorem bil_saveBilling (s : State) (pf : Bool) :
    (s.saveBilling pf).bil =
      { s.bil with
          saveSeq := s.bil.saveSeq + 1
          bank0 := if (s.bil.saveSeq + 1) % 2 = 1 then some (s.saveOf pf) else s.bil.bank0
          bank1 := if (s.bil.saveSeq + 1) % 2 = 0 then some (s.saveOf pf) else s.bil.bank1 } := rfl

theorem fines_saveOf (s : State) (pf : Bool) {k : Nat} (hk : k < 66) : look [] (s.saveOf pf).fines k = (s.meter k).q :=
  look_foldl_upd [] (fun k _ => (s.meter k).q) (P := fun q => q = (s.meter k).q) (fun _ => rfl) (List.mem_range.2 hk) []

/-- The bank whose turn it is takes the save, and the other one stays. -/
theorem banks_saveBilling (s : State) (pf : Bool) :
    (if s.bil.saveSeq % 2 = 0 then (s.saveBilling pf).bil.bank0 else (s.saveBilling pf).bil.bank1) = some (s.saveOf pf) ∧
      (if s.bil.saveSeq % 2 = 0 then (s.saveBilling pf).bil.bank1 = s.bil.bank1 else (s.saveBilling pf).bil.bank0 = s.bil.bank0) := by
  rw [bil_saveBilling]
  by_cases h : s.bil.saveSeq % 2 = 0
  · have h1 : (s.bil.saveSeq + 1) % 2 = 1 := by omega
    simp [h, h1]
  · have h1 : (s.bil.saveSeq + 1) % 2 = 0 := by omega
    simp [h, h1]

/-- A save, after the rate may have been evaluated anew. -/
theorem ends_save {c : Instr} {s u : State} {pf : Bool} {r : Nat} (e : u = { s with bil := { s.bil with rate := r } }) (ex : exec c s = .next (u.saveBilling pf)) :
    Ends c s fun t => t.bil.saveSeq = s.bil.saveSeq + 1 ∧
        (∃ b : BilSave, (if s.bil.saveSeq % 2 = 0 then t.bil.bank0 else t.bil.bank1) = some b ∧ b.seq = s.bil.saveSeq + 1 ∧
          b.pf = pf ∧ b.utc = s.utc ∧ b.core = s.bil.core ∧ b.active = s.integrating ∧ ∀ k < 66, look [] b.fines k = (s.meter k).q) ∧
        (if s.bil.saveSeq % 2 = 0 then t.bil.bank1 = s.bil.bank1 else t.bil.bank0 = s.bil.bank0) ∧ t.bil.core = s.bil.core ∧ Frame [.bil] s t := by
  subst e
  obtain ⟨took, stayed⟩ := banks_saveBilling { s with bil := { s.bil with rate := r } } pf
  refine Ends.of_next ex ⟨rfl, ⟨_, took, rfl, rfl, rfl, rfl, rfl, fun k hk => fines_saveOf _ pf hk⟩, stayed, rfl, ?_⟩
  exact Frame.trans (by simp [Frame.refl]) (frame_saveBilling _ pf)

theorem exec_billingSave_of {s : State} (ht : s.now % 20000 = 0) (q : s.QuietEdge) : exec .billingSave s = .next (s.evalRate.saveBilling false) :=
  (if_pos ht).trans (by rw [edgeTariff_of_quiet q])

/-! ### Restores (R375, R412, R413) -/

/-- The engine as its start finds it, the time known or not. -/
def State.restoring (s : State) (time : Bool) : State := s.mBil fun b => { b with unknown := !time, starting := false }

/-- The save with the higher number of two verified banks. -/
def newerSave (a b : Option BilSave) : Option BilSave :=
  match a, b with
  | some a, some b => if a.seq < b.seq then some b else some a
  | some a, none => some a
  | none, b => b

/-- The meters with the fine counts that a save holds for the sources below `n`. -/
def finesTaken (n : Nat) (b : BilSave) (t : Tab MeterS) : Tab MeterS := (List.range n).foldl (fun t k => upd {} t k fun m => { m with q := look [] b.fines k }) t

theorem q_finesTaken (b : BilSave) (t : Tab MeterS) {n k : Nat} (hk : k < n) : (look {} (finesTaken n b t) k).q = look [] b.fines k :=
  look_foldl_upd {} (fun k m => { m with q := look [] b.fines k }) (P := fun m : MeterS => m.q = look [] b.fines k) (fun _ => rfl) (List.mem_range.2 hk) t

/-- The engine and the meters as a save holds them. -/
def State.fromSave (s : State) (b : BilSave) (time : Bool) : State :=
  { s.restoring time with
      bil := { (s.restoring time).bil with core := b.core, saveSeq := b.seq }
      met := { s.met with src := finesTaken 66 b s.met.src } }

theorem billingRestore_eq (s : State) (ok0 ok1 time : Bool) :
    s.billingRestore ok0 ok1 time =
      match newerSave (if ok0 then s.bil.bank0 else none) (if ok1 then s.bil.bank1 else none) with
      | some b => if b.pf then s.fromSave b time else b.active.foldl (unsaved b.utc) (s.fromSave b time)
      | none =>
        if s.bil.bank0.isNone && s.bil.bank1.isNone then s.restoring time
        else ((s.restoring time).metLog 0x24 0 none none).mBil fun b => { b with dead := true, core := {} } := rfl

theorem exec_billingRestore_of {s : State} (start : s.bil.starting = true) (ok0 ok1 time : Bool) :
    exec (.billingRestore ok0 ok1 time) s = .next (s.billingRestore ok0 ok1 time).evalRate := if_pos start

theorem frame_fromSave (s : State) (b : BilSave) (time : Bool) : Frame [.met, .bil] s (s.fromSave b time) := by
  simp [State.fromSave, State.restoring, State.mBil, Frame.refl]

theorem bil_fromSave (s : State) (b : BilSave) (time : Bool) :
    (s.fromSave b time).bil = { s.bil with unknown := !time, starting := false, core := b.core, saveSeq := b.seq } := rfl

theorem q_fromSave (s : State) (b : BilSave) (time : Bool) {k : Nat} (hk : k < 66) : ((s.fromSave b time).meter k).q = look [] b.fines k := by
  simp only [State.meter, State.fromSave, q_finesTaken b s.met.src hk]

theorem evlog_fromSave (s : State) (b : BilSave) (time : Bool) : (s.fromSave b time).met.evlog = s.met.evlog := by simp only [State.fromSave]

/-- A save made as the power failed is taken as it stands. -/
theorem exec_billingRestore_powerFail {s : State} {b : BilSave} {ok0 ok1 : Bool} (start : s.bil.starting = true)
    (pick : newerSave (if ok0 then s.bil.bank0 else none) (if ok1 then s.bil.bank1 else none) = some b) (pf : b.pf = true) (time : Bool) :
    exec (.billingRestore ok0 ok1 time) s = .next (s.fromSave b time).evalRate := by
  rw [exec_billingRestore_of start, billingRestore_eq, pick]
  dsimp only
  rw [if_pos pf]

/-- After a save of an edge the second that was not saved is noted for every source that integrated. -/
theorem exec_billingRestore_edge {s : State} {b : BilSave} {ok0 ok1 : Bool} (start : s.bil.starting = true)
    (pick : newerSave (if ok0 then s.bil.bank0 else none) (if ok1 then s.bil.bank1 else none) = some b) (pf : b.pf = false) (time : Bool) :
    exec (.billingRestore ok0 ok1 time) s = .next (b.active.foldl (unsaved b.utc) (s.fromSave b time)).evalRate := by
  rw [exec_billingRestore_of start, billingRestore_eq, pick]
  dsimp only
  rw [if_neg (by simp [pf])]

theorem bil_unsaved (u : Int) (s : State) (src : Nat) :
    (unsaved u s src).bil =
      { s.bil with
          core := { s.bil.core with
            sess := upd none s.bil.core.sess src fun a => a.map fun x => { x with unsaved := x.unsaved + s.unsavedBound src, lost := true } } } := by
  simp only [unsaved, State.mCore, State.mBil, bil_metLog]

theorem evlog_count_unsaved (u : Int) (s : State) (src : Nat) : (unsaved u s src).met.evlog.count = s.met.evlog.count + 1 := by
  simp only [unsaved, State.mCore, State.mBil, evlog_count_metLog]

theorem unsavedBound_output (s : State) {k : Nat} (hk : k < 48) : s.unsavedBound k = 1954688 := if_pos hk

/-- An engine with no bank that verifies has lost its state. -/
def State.lost (s : State) (time : Bool) : State := ((s.restoring time).metLog 0x24 0 none none).mBil fun b => { b with dead := true, core := {} }

theorem exec_billingRestore_lost {s : State} (start : s.bil.starting = true) (c : s.bil.bank0 ≠ none ∨ s.bil.bank1 ≠ none) (time : Bool) :
    exec (.billingRestore false false time) s = .next (s.lost time).evalRate := by
  have held : (s.bil.bank0.isNone && s.bil.bank1.isNone) = false :=
    have some_ {a : Option BilSave} (n : a ≠ none) : a.isNone = false := Option.isNone_eq_false_iff.2 (Option.isSome_iff_ne_none.2 n)
    Bool.and_eq_false_iff.2 (c.imp some_ some_)
  rw [exec_billingRestore_of start, billingRestore_eq]
  dsimp only [newerSave]
  rw [held]
  rfl

theorem bil_lost (s : State) (time : Bool) : (s.lost time).bil = { s.bil with unknown := !time, starting := false, dead := true, core := {} } := by
  simp only [State.lost, State.mBil, bil_metLog, State.restoring]

theorem frame_lost (s : State) (time : Bool) : Frame [.free, .mbx .A, .mbx .B, .met, .bil] s (s.lost time) := by
  exact ((frame_mBil s _).mono (by simp)).trans (((frame_metLog _ 0x24 0 none none).mono (by simp)).trans ((frame_mBil _ _).mono (by simp)))

theorem evlog_count_lost (s : State) (time : Bool) : (s.lost time).met.evlog.count = s.met.evlog.count + 1 := by
  simp only [State.lost, State.restoring, State.mBil, evlog_count_metLog]

theorem meterErr_of_dead {s : State} (h : s.bil.dead = true) (src : Nat) : s.meterErr src = true := by simp [State.meterErr, h]

theorem exec_billingRestore_first {s : State} (start : s.bil.starting = true) (h0 : s.bil.bank0 = none) (h1 : s.bil.bank1 = none) (ok0 ok1 time : Bool) :
    exec (.billingRestore ok0 ok1 time) s = .next (s.restoring time).evalRate := by
  rw [exec_billingRestore_of start, billingRestore_eq, h0, h1, ite_self, ite_self]
  rfl

/-! ### The demand cap (R293) -/

theorem exec_demandCapStage_of {s : State} {h : Half} {i n : Nat} {lim left cap : Int} (hi : i < 2) (ht : s.now % 20 = 0) (hc : s.charge = some h)
    (hn : (List.range 1024).find? (fun n => s.rf .cnp h (0x10 * n) 31 29 == 2 && s.rf .cnp h (0x10 * n) 7 0 == i) = some n)
    (el : lim = ((s.rg .cnp h (0x10 * n + 4)).toNat : Int)) (eleft : left = (s.utc + s.tariff.len) / s.tariff.len * s.tariff.len - s.utc)
    (ecap : cap = (if s.tariff.target i = 0 then lim else
      min lim (max (s.fallbackCap h i) ((s.tariff.target i * s.tariff.len * 10 - ((look {} s.bil.core.ints i).energy * 36 : Int)) / (max left 10 * 10))))) :
    exec (.demandCapStage i) s = .next ((s.stageWrite .A (256 + i) cap).stageWrite .B (256 + i) cap) := by
  have eend : intervalEnd s.tariff.len (s.utc + 1) - s.utc = left := by
    have e : s.utc + 1 + s.tariff.len - 1 = s.utc + s.tariff.len := by ring
    rw [eleft, intervalEnd, e]
  have ediv : ((max left.toNat 10 * 10 : Nat) : Int) = max left 10 * 10 := by push_cast; omega
  show execDemandCapStage i s = _
  unfold execDemandCapStage
  rw [hc]
  dsimp only [Option.getD_some]
  rw [if_neg (by omega), hn, eend, ediv, ecap, el]
  rfl

/-- The cap is staged in both halves, and no other entry is written. -/
theorem stage_stageWrite_both (s : State) {i : Nat} (hi : i < 270) (v : Int) (g : Half) :
    (((s.stageWrite .A i v).stageWrite .B i v).stage g i).pend = some v ∧ (((s.stageWrite .A i v).stageWrite .B i v).stage g i).pendStamp = s.tick g ∧
      ∀ j, j ≠ i → ((s.stageWrite .A i v).stageWrite .B i v).stage g j = s.stage g j := by
  have fA := frame_stageWrite s .A i v
  have fB := frame_stageWrite (s.stageWrite .A i v) .B i v
  cases g with
  | A =>
    rw [fB.stage (by simp), stage_stageWrite s .A v hi]
    exact ⟨rfl, rfl, fun j n => by rw [fB.stage (by simp), stage_stageWrite_other s .A v n]⟩
  | B =>
    rw [stage_stageWrite _ .B v hi, fA.tick (by simp)]
    exact ⟨rfl, rfl, fun j n => by rw [stage_stageWrite_other _ .B v n, fA.stage (by simp)]⟩

end

/-! ### The obligation -/

/-- Settles O36: each command is closures, an activation, a save or a restore, each an equation of the engine's state; the catch-up passes a minute at a time. -/
theorem intervalsPeriodsAndTariffs : Obligations.IntervalsPeriodsAndTariffs := by
  refine ⟨?interval, fun s i => exec_demandIntervalClose_idle, ?period, ?both, fun s c => congrArg Host.Outcome.next (edgePeriods_of_idle c), ?close, ?soon, ?unknown,
    ?activation, fun s q => congrArg Host.Outcome.next (edgeTariff_of_quiet q), ?rate, ?save, ?powerFail, ?noSave, ?newer, ?older, ?second, ?lost, ?first,
    fun s a b time h => if_neg (by simp [h]), ?gap, ?minute, ?noGap, ?restored, ?cap, fun s i c => if_pos (by omega)⟩
  case interval =>
    rintro s i d el fl x hi ht due rfl rfl rfl efl
    obtain rfl : fl = _ := efl.trans (flags_own _).symm
    have q := intakeClosed_closeInterval hi s s.utc false false
    refine Ends.of_next (exec_demandIntervalClose_of hi ht due)
      ⟨q.open_, ?_, q.recN, q.newest, ?_, ?_, ?_, ?_, (frame_closeInterval_parts s i _ _ _).mono (by decide)⟩ <;> rw [bil_closeInterval]
    · exact look_put_same ..
    · split
      · next h => exact if_neg (by omega)
      · rfl
    · exact look_raisedMaxd_all s i s.utc false false
    · exact look_raisedMaxd_rate s i s.utc false false
  case period =>
    intro s ht due noDemand
    refine Ends.of_next (exec_billingPeriodClose_of ht due) ?_
    rw [intervalsDue_of_none noDemand]
    exact ⟨rfl, rfl, rfl, rfl, ⟨_, newest_closePeriod .., head_periodRec .., cause_periodRec .., entries_periodRec ..⟩, fun h => length_keepNewest h _, rfl,
      frame_closePeriod s s.utc 0 0⟩
  case both =>
    intro s i ht due hi demand
    have c := intervalsClosed_intervalsDue s s.utc false false
    have q := intakeClosed_intervalsDue hi demand false false
    refine Ends.of_next (exec_billingPeriodClose_of ht due) ?_
    rw [bil_closePeriod, c.periodN]
    exact ⟨q.recN, q.open_, rfl, rfl, c.regs, (c.frame.mono (by decide)).trans ((frame_closePeriod _ s.utc 0 0).mono (by decide))⟩
  case close =>
    intro s o x r hr mr known late
    have ex := exec_bilClose hr mr
    have settled : s.closedLately = false := by
      unfold State.closedLately
      split
      · next l hl => simp [late l hl]
      · rfl
    rw [if_neg (by simp [known]), if_neg (by simp [settled])] at ex
    obtain ⟨t, et, answer, bil, fr⟩ := ends_worked (P := fun t => t.bil = ((s.start o 0x0B04 r (some x)).closePeriod s.utc 1 0).bil)
      (frame_closePeriod _ s.utc 1 0) (by simp) ex (by simp [length_le]) fun t ft => ft.bil (by simp)
    have newest := newest_closePeriod (s.start o 0x0B04 r (some x)) s.utc 1 0
    rw [← bil, start_bil] at newest
    rw [bil_closePeriod, start_bil] at bil
    exact ⟨t, et, answer, by rw [bil], by rw [bil], by rw [bil], ⟨_, newest, cause_periodRec ..⟩, by rw [bil], fr⟩
  case soon =>
    intro s o x r l hr mr known hl lately
    have ex := exec_bilClose hr mr
    rw [if_neg (by simp [known]), if_pos (by simp [State.closedLately, hl, lately])] at ex
    exact ends_started_complete ex
  case unknown =>
    intro s o x r hr mr unknown
    exact ends_started_complete ((exec_bilClose hr mr).trans (congrArg _ (if_pos unknown)))
  case activation =>
    intro s p hp known ht act noDemand noClose
    have b := bil_activate known p
    refine Ends.of_next (congrArg Host.Outcome.next (edgeTariff_of_due hp known ht act noDemand noClose)) ?_
    exact ⟨by rw [b], by rw [b], by rw [b], by rw [b], evlog_count_activate s p, (frame_activate s p).mono (by simp [bothMbx])⟩
  case rate => exact fun s q => ends_evalRate (congrArg (fun u : State => Host.Outcome.next u.evalRate) (edgeTariff_of_quiet q))
  case save => exact fun s ht q => ends_save (evalRate_eq s) (exec_billingSave_of ht (.inr q))
  case powerFail =>
    intro s b f9 f8 low
    have go : (!s.rb .pwr .A 0 9 && !s.rb .pwr .A 0 8 && (!b || s.pwr.vhSwitch)) = true := by cases b <;> simp_all
    exact ends_save (r := s.bil.rate) rfl (if_pos go)
  case noSave =>
    refine fun s => ⟨fun ht => if_neg ht, fun b c => if_neg ?_⟩
    rcases c with c | c | ⟨c, d⟩
    · simp [c]
    · simp [c]
    · simp [c, d]
  case newer =>
    intro s a b start h0 h1 lt pf
    have ex := exec_billingRestore_powerFail (ok0 := true) (ok1 := true) start (by simp [h0, h1, newerSave, lt]) pf true
    have fr : Frame [.met, .bil] s (s.fromSave b true).evalRate := (frame_fromSave s b true).trans ((frame_evalRate _).mono (by simp))
    have bil := bil_evalRate (s.fromSave b true)
    rw [bil_fromSave] at bil
    refine Ends.of_next ex ⟨by rw [bil], by rw [bil], by rw [bil]; rfl, by rw [bil], fun k hk => ?_, by rw [met_evalRate, evlog_fromSave], fr⟩
    rw [meter_evalRate, q_fromSave s b true hk]
  case older =>
    intro s a b start h0 h1 lt pf
    have ex := exec_billingRestore_powerFail (ok0 := true) (ok1 := false) start (by simp [h0, newerSave]) pf true
    have fr : Frame [.met, .bil] s (s.fromSave a true).evalRate := (frame_fromSave s a true).trans ((frame_evalRate _).mono (by simp))
    have bil := bil_evalRate (s.fromSave a true)
    rw [bil_fromSave] at bil
    exact Ends.of_next ex ⟨by rw [bil], by rw [bil], fr⟩
  case second =>
    intro s b k a start h0 pf active hk ha
    have ex := exec_billingRestore_edge (ok0 := true) (ok1 := false) start (by simp [h0, newerSave]) pf true
    rw [active, List.foldl_cons, List.foldl_nil] at ex
    have fr : Frame (.free :: .met :: .bil :: bothMbx) s (unsaved b.utc (s.fromSave b true) k).evalRate :=
      ((frame_fromSave s b true).mono (by simp)).trans (((frame_unsaved b.utc _ k).mono (by simp [bothMbx])).trans ((frame_evalRate _).mono (by simp)))
    have bil := bil_evalRate (unsaved b.utc (s.fromSave b true) k)
    rw [bil_unsaved, bil_fromSave] at bil
    refine Ends.of_next ex ⟨by rw [bil], ?_, ?_, fr⟩
    · rw [met_evalRate, evlog_count_unsaved, evlog_fromSave]
    · rw [bil]
      simp only [look_upd_same, ha, unsavedBound_output _ hk, Option.map_some]
  case lost =>
    intro s time start c
    have fr : Frame (.free :: .met :: .bil :: bothMbx) s (s.lost time).evalRate :=
      ((frame_lost s time).mono (by simp [bothMbx])).trans ((frame_evalRate _).mono (by simp))
    have bil := bil_evalRate (s.lost time)
    rw [bil_lost] at bil
    refine Ends.of_next (exec_billingRestore_lost start c time) ⟨by rw [bil], by rw [bil], by rw [bil], meterErr_of_dead (by rw [bil]), ?_, fr⟩
    rw [met_evalRate, evlog_count_lost]
  case first =>
    intro s a b time start h0 h1
    have fr : Frame [.bil] s (s.restoring time).evalRate := (frame_mBil s _).trans (frame_evalRate _)
    refine Ends.of_next (exec_billingRestore_first start h0 h1 a b time) ⟨?_, fr⟩
    rw [bil_evalRate]
    cases time <;> rfl
  case gap =>
    intro s known
    obtain ⟨utc, inc, k⟩ := caughtUp s
    exact Ends.of_next (if_neg (by simp [known])) ⟨utc, inc, k.regs, (frame_catchUp s).mono (by simp [bothMbx])⟩
  case minute =>
    intro s i known pos whole e hi due noClose noTariff
    obtain ⟨recN, newest⟩ := closed_catchUp pos whole e hi due noClose noTariff
    refine Ends.of_next (if_neg (by simp [known])) ⟨recN, ⟨_, newest, ?_⟩, (frame_catchUp s).mono (by simp [bothMbx])⟩
    rw [flags_intervalRec, incomplete_flags]
  case noGap => exact fun s => ⟨fun unknown => if_pos unknown, fun known => if_neg (by simp [known])⟩
  case restored =>
    intro s unknown
    obtain ⟨utc, inc, k⟩ := caughtUp (s.mBil fun b => { b with unknown := false })
    exact Ends.of_next (if_pos unknown) ⟨k.unknown, utc, inc, ((frame_mBil s _).mono (by simp)).trans ((frame_catchUp _).mono (by simp [bothMbx]))⟩
  case cap =>
    intro s h i n lim cap left hi ht hc hn el eleft ecap
    refine Ends.of_next (exec_demandCapStage_of hi ht hc hn el eleft ecap) ⟨stage_stageWrite_both s (by omega) cap, ?_⟩
    exact ((frame_stageWrite s .A _ cap).mono (by simp)).trans ((frame_stageWrite _ .B _ cap).mono (by simp))

end Sys2Proof.Machine
